-- ==== Sys2Proof/Word.lean ====
section
/-!
DEFINITION. The word types of the KT384 register map and wire formats (spec/00_scope.md R5, spec/02_time_and_angle_formats.md
R29), and their plainest arithmetic.
-/

namespace Sys2Proof

/-- A Window A register word: 32 bits, bit 0 least significant (R5). -/
abbrev Word := BitVec 32

/-- One byte of the reservoir, a local RAM or a datagram. -/
abbrev Byte := BitVec 8

/-- A 64-bit stamp: bits 63..6 ticks, bits 5..0 fine steps (R29). -/
abbrev Stamp := BitVec 64

/-- A tick of machine time MT (R27). -/
abbrev Tick := BitVec 64

end Sys2Proof
end

