-- ==== Sys2Proof/Syntax.lean ====
section
/-!
DEFINITION. The commands of the KT384: one constructor per row of spec/opcode_table.json, with the operands the sender or the
event supplies. A channel, cluster, shaft, ring or interface index is a Fin of the KT384 count (spec/01_architecture.md).
-/

namespace Sys2Proof

/-- A register of the PCIe configuration space that a configuration write changes: Message Control of the MSI-X capability (R295), or one of
the registers of R299. -/
inductive CfgReg where
  | msixControl | command | bar0 | bar2Lo | bar2Hi | interruptLine | deviceControl
deriving DecidableEq, Repr

/-- The tap positions of 1/4, 1/2, 3/4 and 1 tick that a line measurement finds, beside that of 0 (R88). -/
structure QuarterTaps where
  p1 : BitVec 16
  p2 : BitVec 16
  p3 : BitVec 16
  p4 : BitVec 16
deriving DecidableEq, Repr

/-- What a port finds of a received frame besides what its command carries: its bytes with the FCS, whether the FCS is right, its 802.1Q tags,
whether it is a PAUSE frame, whether an IP datagram in it is IPv4 with no options and whole, and its UDP destination port (R327, R328). -/
structure RxFrame where
  length : BitVec 16
  fcsOk : Bool
  tags : BitVec 2
  pause : Bool
  plainIp : Bool
  udpPort : BitVec 16
deriving DecidableEq, Repr

/-- A frame as it arrives: at which port, and what the port finds of it. -/
structure Arrival where
  port : Fin 2
  frame : RxFrame
deriving DecidableEq, Repr

/-- What an ARP packet is, a request or a reply, and its target address (R328). -/
structure ArpKind where
  reply : Bool
  target : Word
deriving DecidableEq, Repr

/-- A time as IEEE 802.1AS writes it: seconds and nanoseconds (R330). -/
structure PtpTime where
  seconds : BitVec 48
  ns : BitVec 32
deriving DecidableEq, Repr

/-- A received message of IEEE 802.1AS that carries times: a Sync with the origin of its Follow_Up; a Pdelay_Req of the port `identity`; a
Pdelay_Resp with its Follow_Up, which say when the request was received and when the response left (R329). -/
inductive PtpMessage where
  | sync (origin : PtpTime)
  | pdelayReq (identity : BitVec 80)
  | pdelayResp (received responded : PtpTime)
deriving DecidableEq, Repr

/-- The times of a message. -/
def PtpMessage.times : PtpMessage → List PtpTime
  | .sync t => [t]
  | .pdelayReq _ => []
  | .pdelayResp t u => [t, u]

/-- What an Announce tells of a grandmaster and of the way to it, in the order that the best master clock algorithm compares (R329). -/
structure PriorityVector where
  priority1 : BitVec 8
  clockClass : BitVec 8
  accuracy : BitVec 8
  variance : BitVec 16
  priority2 : BitVec 8
  identity : BitVec 64
  steps : BitVec 16
  /-- the port that sent the Announce: clockIdentity and port number -/
  source : BitVec 80
deriving DecidableEq, Repr

/-- A command or event of the block. A time-driven row is sent by the environment in the tick in which it falls due; the model
checks that it is due (notes/assumptions/2.md). -/
inductive Instr where
  /-- REGISTER_WRITE: A write to a register that has no row of its own commits in its tick under the register's rules and R7. (R407) -/
  | registerWrite (addr : Nat) (v : Word)
  /-- RC_READ: A read of an RC register returns the field and then clears it, and keeps any same-cycle hardware update. (R7) -/
  | rcRead (addr : Nat)
  /-- PCIE_MEMORY_REQUEST: A PCIe memory request to Window A acts as successive aligned 32-bit accesses in ascending address order. (R301) -/
  | pcieMemoryRequest (write : Bool) (addr : Nat) (dws : List (BitVec 4 × Word))
  /-- WINDOW_B_READ: A Window B read of the reservoir returns poisoned data and sets RESV_UE when it finds an uncorrectable error. (R302) -/
  | windowBRead (off : Nat) (size : Nat)
  /-- WINDOW_B_WRITE: A Window B write is a whole 8-byte replacement, or a read-modify-write that an uncorrectable error discards. (R25) -/
  | windowBWrite (off : Nat) (size : Nat) (v : BitVec 64)
  /-- PCIE_HOT_RESET: A hot reset or link-down resets only the PCIe configuration space and the link. (R300) -/
  | pcieHotReset
  /-- QSPI_READ: A QSPI READ frame on one line reads data words from Window A, starting at the given address. (R304) -/
  | qspiRead (op : BitVec 8) (addr : Nat) (n : Nat) (partialWord : Bool)
  /-- QSPI_QREAD: A QSPI QREAD frame on four lines reads data words from Window A. (R304) -/
  | qspiQread (addr : Nat) (n : Nat) (partialWord : Bool)
  /-- QSPI_WRITE: A QSPI WRITE frame commits each whole received word as a Window A write. (R304) -/
  | qspiWrite (addr : Nat) (words : List Word) (partialWord : Bool)
  /-- QSPI_QWRITE: A QSPI QWRITE frame on four lines commits each whole received word as a Window A write. (R304) -/
  | qspiQwrite (addr : Nat) (words : List Word) (partialWord : Bool)
  /-- QSPI_STATUS: A QSPI STATUS frame returns the status byte of the last frame that was not a STATUS frame. (R303) -/
  | qspiStatus
  /-- QSPI_ID: A QSPI ID frame returns ID_PART as one data word. (R303) -/
  | qspiId
  /-- MT_LO_READ: A read of MT_LO returns MT bits 31..0 and latches bits 63..32 into the MT_HI shadow. (R28) -/
  | mtLoRead
  /-- CH_CTRL_WRITE: A write to CH_CTRL updates EN and SYNC_RST, and it changes the mode fields only while the counter is stopped, else sets CFG_REFUSED. (R53) -/
  | chCtrlWrite (k : Fin 384) (v : Word)
  /-- START_TICK: In the tick after the counter begins to run, the start tick acts as a period end with the held count. (R47) -/
  | startTick (k : Fin 384)
  /-- COUNTING_STEP: The counter steps once after each group of PRESC_ACT + 1 source events, in the direction that MODE gives. (R44) -/
  | countingStep (k : Fin 384)
  /-- WRITE_TRIGGER: A compare matches in the tick after a live write whose value equals the count at its commit. (R55) -/
  | writeTrigger (k : Fin 384) (x : Fin 4)
  /-- COUNT_WRITE: A write to COUNT loads a stopped counter when the value is within PERIOD_ACT, and otherwise sets COUNT_WR_ERR. (R52) -/
  | countWrite (k : Fin 384) (v : Word)
  /-- COUNT_READ: In a cascade, a read of the even channel's COUNT returns the low word and latches the high word into a shadow. (R63) -/
  | countRead (k : Fin 384)
  /-- PERIOD_WRITE: A write to PERIOD or PRESC goes to a preload that is copied at the next copy point, or at once while the counter is stopped. (R49) -/
  | periodWrite (k : Fin 384) (presc : Bool) (v : Word)
  /-- CMP_LIVE_WRITE: A live write to CMP_x puts its value into CMP_ACT_x, with a match, step trigger or BEHIND_x outcome. (R57) -/
  | cmpLiveWrite (k : Fin 384) (x : Fin 4) (v : Word)
  /-- CMP_PRELOAD_WRITE: A preload write to CMP_x is copied into CMP_ACT_x at the next copy point. (R58) -/
  | cmpPreloadWrite (k : Fin 384) (x : Fin 4) (v : Word)
  /-- CMP_CFG_WRITE: A write to EN_x and LIVE_x goes to a preload that is copied at the copy points. (R59) -/
  | cmpCfgWrite (k : Fin 384) (v : Word)
  /-- PAIR_SNAPSHOT_TAKE: A write of TAKE captures both counts of the pair and MT, and increments SEQ. (R65) -/
  | pairSnapshotTake (k : Fin 384) (v : Word)
  /-- OUT_CTRL_WRITE: A write to OUT_MODE goes to a preload, and a write to IDLE takes effect in its commit tick (R70). (R67) -/
  | outCtrlWrite (k : Fin 384) (v : Word)
  /-- OUT_FINE_WRITE: A write to OUT_FINE or DT_CFG goes to a preload that is copied at the channel's copy points. (R74) -/
  | outFineWrite (k : Fin 384) (dt : Bool) (v : Word)
  /-- SYNC_PULSE_ARRIVAL: A SYNC pulse reaches a cluster two ticks after the previous hop, sets SYNC_SEEN, and restarts the channels that have SYNC_RST. (R84) -/
  | syncPulseArrival (n : Fin 24)
  /-- SYNC_IN_EDGE: A rising edge at the SYNC_IN ball becomes the SYNC input of cluster 0 three ticks later. (R84) -/
  | syncInEdge (ticksHigh : Nat)
  /-- SYNC_OUT_FALL: The SYNC_OUT ball falls 8 ticks after its latest rise. (R85) -/
  | syncOutFall
  /-- EDGE_EMIT: The edge unit emits a commanded edge at its stamp, subject to the 256-fine-step separation. (R75) -/
  | edgeEmit (k : Fin 384)
  /-- PENDING_EDGE_EMIT: A held edge is emitted at E + 256 fine steps. (R75) -/
  | pendingEdgeEmit (k : Fin 384)
  /-- DEAD_TIME_RISE: A delayed rise of a complementary output is emitted once the dead time after the partner's fall has passed. (R76) -/
  | deadTimeRise (k : Fin 384)
  /-- PT_START: A write of START, or a TRAIN event, starts a counted pulse train, or sets START_REFUSED. (R78) -/
  | ptStart (k : Fin 384) (v : Word)
  /-- PT_RESTART: An accepted START restarts the counter in the tick after its commit, or sets DONE at once when PT_CMD is 0. (R79) -/
  | ptRestart (k : Fin 384)
  /-- PT_STOP: A write of STOP ends an active train at the next period end. (R81) -/
  | ptStop (k : Fin 384) (v : Word)
  /-- PT_CMD_WRITE: A write to PT_CMD sets the commanded count, and while a train is ACTIVE it is ignored and sets PT_WR_ERR. (R82) -/
  | ptCmdWrite (k : Fin 384) (v : Word)
  /-- PT_EMIT_READ: A read of PT_EMIT latches PT_SKIP and PT_REMAIN of the same tick into shadows. (R82) -/
  | ptEmitRead (k : Fin 384)
  /-- PIN_SEL_WRITE: A write to PIN_OUT_SEL or CH_IN_SEL takes effect at the next tick boundary. (R21) -/
  | pinSelWrite (addr : Nat) (v : Word)
  /-- CAL_SLOT_START: Every 8 000 ticks the engine begins the slot of the next channel and measures its off-duty line. (R89) -/
  | calSlotStart
  /-- CAL_MEASUREMENT_DONE: A line measurement ends, and it passes to make the line fresh or fails to increment CAL_FAIL or set LINE_FAULT. (R88) -/
  | calMeasurementDone (p0 : BitVec 16) (q : QuarterTaps)
  /-- LINE_SWAP: A fresh line takes over service at the channel's first swap point, without splitting any edge. (R91) -/
  | lineSwap (k : Fin 384)
  /-- INITIAL_ROUND_END: The initial calibration round ends, and it clears INIT_BUSY and sets CAL_READY. (R93) -/
  | initialRoundEnd
  /-- CAL_STALE_EXPIRY: AGE exceeds 7 680 µs, and CAL_STALE is set. (R92) -/
  | calStaleExpiry (k : Fin 384)
  /-- TDC_AGE_EXPIRY: The TDC calibration becomes older than 7.68 ms, and TDC_AGE_OVR is set. (R100) -/
  | tdcAgeExpiry (k : Fin 384)
  /-- CAL_CTRL_WRITE: A write of EN pauses the calibration schedule, or resumes it with the next slot. (R95) -/
  | calCtrlWrite (v : Word)
  /-- INPUT_EDGE: The TDC stamps an edge of a channel input at fine-step resolution. (R97) -/
  | inputEdge (k : Fin 384) (fine : BitVec 6) (level : Bool)
  /-- CAPTURE_STORE: A qualified edge stores its stamp, the width and SEQ within 4 + CAP_FILT ticks. (R102) -/
  | captureStore (k : Fin 384)
  /-- CAP_ARM: A write of ARM sets ARMED and records the arm stamp of the commit tick. (R104) -/
  | capArm (k : Fin 384) (v : Word)
  /-- CAP_DISARM: A write of DISARM clears ARMED, and with ARM in the same write it acts alone. (R104) -/
  | capDisarm (k : Fin 384) (v : Word)
  /-- CAP_RISE_LO_READ: A read of CAP_RISE_LO latches the other capture registers into shadows and clears OVR. (R103) -/
  | capRiseLoRead (k : Fin 384)
  /-- TRIP_INPUT_EDGE: An unfiltered trip input changes level and passes to the mittens through unclocked logic. (R106) -/
  | tripInputEdge (i : Fin 32) (level : Bool)
  /-- TRIP_FILTER_QUALIFY: After FILT consecutive samples of a new level, the filtered trip level takes it. (R106) -/
  | tripFilterQualify (i : Fin 32)
  /-- CUFF_CLOSE: When the cuff closes, a source that is still active is taken. (R108) -/
  | cuffClose (m : Fin 32)
  /-- CUFF_OVERRIDE: A source still active CUFF + 1 ticks after it became active is taken, and CUFF_OVR is set. (R108) -/
  | cuffOverride (m : Fin 32)
  /-- MITTEN_RELEASE: At its release point, a mitten stops forcing and the pins show their sources. (R112) -/
  | mittenRelease (m : Fin 32)
  /-- INTERLOCK_APPLY: A forced HIGH is applied once every partner pin has been low for the dead time. (R115) -/
  | interlockApply (p : Fin 256)
  /-- TRIP_CFG_WRITE: A write to TRIP_CFG takes effect at the next tick boundary and restarts the filter count. (R106) -/
  | tripCfgWrite (i : Fin 32) (v : Word)
  /-- MIT_CFG_WRITE: A write to a mitten configuration register is accepted only while the mitten neither forces nor latches. (R119) -/
  | mitCfgWrite (addr : Nat) (v : Word)
  /-- MIT_CLR: A write of CLR requests a clear, with the outcome reported in CLR_RESULT. (R117) -/
  | mitClr (m : Fin 32) (v : Word)
  /-- WATCHDOG_EXPIRY: TIMEOUT µs pass without a kick, and the watchdog expires and becomes an active mitten source. (R305) -/
  | watchdogExpiry
  /-- WATCHDOG_RESET_START: With RESET_EN set, 1 ms after expiry without a kick the host-link watchdog reset begins. (R305) -/
  | watchdogResetStart
  /-- WDOG_KICK: A write of 0x0000_4B49 kicks the watchdog, and clears EXPIRED and any pending watchdog reset. (R306) -/
  | wdogKick (v : Word)
  /-- WDOG_CFG_WRITE: An accepted write to WDOG_CFG configures the watchdog and kicks it. (R306) -/
  | wdogCfgWrite (v : Word)
  /-- SH_CTRL_WRITE: A write to SH_CTRL or the shaft geometry registers is accepted only while EN is 0, and an EN = 1 write is checked. (R124) -/
  | shCtrlWrite (sh : Fin 16) (off : Nat) (v : Word)
  /-- TOOTH_JUDGE: A tooth candidate is judged once TOOTH_FILT ticks past its stamp, and is then filtered, rejected or accepted. (R127) -/
  | toothJudge (sh : Fin 16)
  /-- SYNTHETIC_TOOTH: When no tooth has arrived by the deadline, the predictor inserts a synthetic tooth. (R134) -/
  | syntheticTooth (sh : Fin 16)
  /-- STALL: STALLED is set in the first tick after s + STALL_FACTOR × T_3, and the estimate is discarded. (R141) -/
  | stall (sh : Fin 16)
  /-- ESTIMATE_PUBLICATION: The predictor publishes its new angle, velocity and acceleration within L_P ticks of a tooth. (R17) -/
  | estimatePublication (sh : Fin 16)
  /-- REKEY_PASS: Each weir re-keys its undispatched angle events on the shaft, one slot per tick. (R165) -/
  | rekeyPass (n : Fin 24) (slot : Fin 256)
  /-- HISTORY_WRITE: A tooth-period entry is written to the history ring within 64 ticks of publication, or counted in HIST_LOST. (R149) -/
  | historyWrite (sh : Fin 16)
  /-- DIRECTION_CHANGE: DIR changes from its source, the estimate is discarded and the position holds. (R139) -/
  | directionChange (sh : Fin 16)
  /-- MARKER: A marker edge sets the cycle revolution to MARKER_REV. (R143) -/
  | marker (sh : Fin 16) (stamp : Stamp)
  /-- CYCLE_SET: A write of REV to CYCLE_SET makes the present revolution that cycle revolution. (R144) -/
  | cycleSet (sh : Fin 16) (v : Word)
  /-- CYCLE_REKEY: After a change of CYCLE_REV, undispatched REV-qualified events are resolved again and re-keyed within 256 ticks. (R171) -/
  | cycleRekey (n : Fin 24) (slot : Fin 256)
  /-- VIRTUAL_TOOTH: An interface count, or the generator, crosses a multiple of VT_COUNTS and gives a virtual tooth. (R145) -/
  | virtualTooth (sh : Fin 16)
  /-- GEN_APPLY: A write of APPLY copies GEN_TARGET and GEN_ACC into the generator's working values. (R148) -/
  | genApply (sh : Fin 16) (v : Word)
  /-- GEN_LOAD: A write of LOAD applies the target and ramp and sets ω to GEN_TARGET. (R148) -/
  | genLoad (sh : Fin 16) (v : Word)
  /-- SHAFT_SNAP_TAKE: A write of TAKE captures the reported shaft state, MT and SNAP_INFO. (R151) -/
  | shaftSnapTake (sh : Fin 16) (v : Word)
  /-- POST_GO: A host write of GO posts the six descriptor words to the weir. (R156) -/
  | postGo (n : Fin 24) (v : Word)
  /-- INSERTION_COMPLETE: The weir completes the insertion of a posted event into its slot order within 32 ticks. (R16) -/
  | insertionComplete (n : Fin 24) (slot : Fin 256)
  /-- START_DISPATCH: The weir dispatches the start action of the head event 16 ticks before S. (R161) -/
  | startDispatch (n : Fin 24)
  /-- END_DISPATCH: The weir dispatches the end action 16 ticks before E, and the event retires. (R161) -/
  | endDispatch (n : Fin 24)
  /-- DROPPED_SYNC_RETIRE: Undispatched angle events without HOLD retire DROPPED_SYNC within 256 ticks of loss. (R169) -/
  | droppedSyncRetire (n : Fin 24) (slot : Fin 256)
  /-- CANCEL_GO: A host write of GO starts a cancel with CANCEL_SEL. (R172) -/
  | cancelGo (n : Fin 24) (v : Word)
  /-- CANCEL_PASS: The weir passes over its slots and cancels matching undispatched events. (R172) -/
  | cancelPass (n : Fin 24) (slot : Fin 256)
  /-- LEDGER_TAKE: A write of TAKE captures every counter of the weir ledger and MT. (R174) -/
  | ledgerTake (n : Fin 24) (v : Word)
  /-- FEEDBACK_CFG_WRITE: A write to an interface configuration register is accepted while EN is 0, and an EN = 1 write is checked. (R178) -/
  | feedbackCfgWrite (addr : Nat) (v : Word)
  /-- QENC_EDGE: An accepted quadrature edge is one count step, or an illegal transition. (R180) -/
  | qencEdge (i : Fin 8) (isB : Bool) (a : Bool) (b : Bool) (stamp : Stamp)
  /-- QENC_RESAMPLE: After QE_MIN_EDGE ticks the decoder resamples A and B, and takes a late step. (R181) -/
  | qencResample (i : Fin 8) (a : Bool) (b : Bool)
  /-- AENC_SAMPLE: Both converters of an AENC sample SIN and COS in every tick where MT mod 400 is 0. (R182) -/
  | aencSample (i : Fin 8) (s0 : BitVec 12) (c0 : BitVec 12)
  /-- AENC_SAMPLE_PROCESSED: A corrected sample gives a phase step, a fault or an overspeed. (R184) -/
  | aencSampleProcessed (i : Fin 8)
  /-- SSI_FRAME_START: An SSI port starts a frame every SSI_POLL ticks. (R185) -/
  | ssiFrameStart (i : Fin 8) (idleHigh : Bool)
  /-- SSI_FRAME_END: A clocked frame is checked, and a good frame is decoded as one count step. (R186) -/
  | ssiFrameEnd (i : Fin 8) (bits : BitVec 48) (endLow : Bool)
  /-- INDEX: An index sets the reference, or is corrected as a slip, or counted as a fault. (R189) -/
  | indexEdge (f : Fin 16) (rising : Bool) (stamp : Stamp)
  /-- SPEED_GATE_END: At each gate end, SPEED is computed and the method for the next gates is chosen. (R190) -/
  | speedGateEnd (f : Fin 24)
  /-- SPEED_TIMEOUT: After 16 gates without a step, SPEED reads 0. (R190) -/
  | speedTimeout (f : Fin 24)
  /-- POS_READ: A read of POS latches TURNS, the stamp, SPEED and LAST_DEV into shadows. (R201) -/
  | posRead (f : Fin 24)
  /-- PROBE_ARM: A write of ARM sets ARMED and records the arm stamp. (R193) -/
  | probeArm (p : Fin 8) (v : Word)
  /-- PROBE_DISARM: A write of DISARM clears ARMED. (R193) -/
  | probeDisarm (p : Fin 8) (v : Word)
  /-- PROBE_EDGE: A selected probe edge latches its stamp and the target position. (R194) -/
  | probeEdge (p : Fin 8) (rising : Bool) (stamp : Stamp)
  /-- PROBE_LATCH_COMPLETE: An interpolated probe latch completes once the later sample or frame is processed. (R194) -/
  | probeLatchComplete (p : Fin 8)
  /-- PRB_STAMP_LO_READ: A read of PRB_STAMP_LO latches the probe shadows and clears OVR. (R195) -/
  | prbStampLoRead (p : Fin 8)
  /-- PC_ARM: A write of ARM arms the position compare, or marks it BEHIND. (R196) -/
  | pcArm (j : Fin 32) (v : Word)
  /-- PC_DISARM: A write of DISARM clears ARMED. (R196) -/
  | pcDisarm (j : Fin 32) (v : Word)
  /-- PC_IMMEDIATE_FIRE: A compare armed behind with IMMEDIATE fires in the next tick, with LATE set. (R196) -/
  | pcImmediateFire (j : Fin 32)
  /-- CULVERT_RAW_CHANGE: A sampled input change reaches the culvert output 4 ticks later. (R198) -/
  | culvertRawChange (i : Fin 8) (a : Bool) (b : Bool) (z : Bool)
  /-- CULVERT_REGEN_STATE: The regenerated quadrature output moves one state toward q at its spacing. (R199) -/
  | culvertRegenState (i : Fin 8)
  /-- THREAD_READY: A WAITING thread whose condition holds becomes READY. (R203) -/
  | threadReady (n : Fin 24) (t : Fin 16)
  /-- TRAP: A TRAP microword faults the running thread with MICRO_TRAP. (R210) -/
  | trapWord (n : Fin 24)
  /-- POLL: At a POLL microword the running thread may give up the engine by R205. (R205) -/
  | poll (n : Fin 24)
  /-- MICRO_BRANCH: A two-way branch microword continues at NEXT OR the tested condition. (R207) -/
  | microBranch (n : Fin 24) (cond : Bool)
  /-- DATAPATH_MICROWORD: A datapath microword performs an internal operation and continues at NEXT. (R207) -/
  | datapathMicroword (n : Fin 24) (parityError : Bool)
  /-- TH_START: A write of START makes a halted or faulted thread READY, or sets START_REFUSED. (R212) -/
  | thStart (n : Fin 24) (t : Fin 16) (v : Word)
  /-- TH_HALT: A write of HALT halts the thread at its next POLL, at once, or after its reservoir access. (R212) -/
  | thHalt (n : Fin 24) (t : Fin 16) (v : Word)
  /-- TH_CONTEXT_WRITE: A write to a thread context register is accepted only while the thread is HALTED or FAULTED. (R213) -/
  | thContextWrite (n : Fin 24) (t : Fin 16) (off : Nat) (v : Word)
  /-- UC_LOAD_GO: A write of GO starts a host microcode load from the reservoir bundle. (R217) -/
  | ucLoadGo (v : Word)
  /-- MICROCODE_LOAD_COMPLETE: A microcode load ends with LOADED, or with a refusal after its checks. (R216) -/
  | microcodeLoadComplete
  /-- FLASH_LOAD: After reset, the selected flash load reads the bundle into the reservoir and loads it. (R219) -/
  | flashLoad (image : List Byte)
  /-- ADD: ALU ADD computes A + B and sets Z, N, C and V. (R230) -/
  | kAdd (n : Fin 24)
  /-- SUB: ALU SUB computes A − B and sets the flags. (R230) -/
  | kSub (n : Fin 24)
  /-- ADDC: ALU ADDC computes A + B + C. (R230) -/
  | kAddc (n : Fin 24)
  /-- SUBB: ALU SUBB computes A − B − C. (R230) -/
  | kSubb (n : Fin 24)
  /-- AND: ALU AND computes the bitwise AND. (R230) -/
  | kAnd (n : Fin 24)
  /-- OR: ALU OR computes the bitwise OR. (R230) -/
  | kOr (n : Fin 24)
  /-- XOR: ALU XOR computes the bitwise exclusive OR. (R230) -/
  | kXor (n : Fin 24)
  /-- ANDN: ALU ANDN computes A AND NOT B. (R230) -/
  | kAndn (n : Fin 24)
  /-- SHL: ALU SHL shifts A left by B. (R230) -/
  | kShl (n : Fin 24)
  /-- SHR: ALU SHR shifts A right logically. (R230) -/
  | kShr (n : Fin 24)
  /-- SAR: ALU SAR shifts A right arithmetically. (R230) -/
  | kSar (n : Fin 24)
  /-- ROR: ALU ROR rotates A right by B. (R230) -/
  | kRor (n : Fin 24)
  /-- MUL: ALU MUL gives the low 32 bits of the product. (R230) -/
  | kMul (n : Fin 24)
  /-- MULH: ALU MULH gives the high 32 bits of the signed product. (R230) -/
  | kMulh (n : Fin 24)
  /-- MULHU: ALU MULHU gives the high 32 bits of the unsigned product. (R230) -/
  | kMulhu (n : Fin 24)
  /-- MIN: ALU MIN gives the signed minimum. (R230) -/
  | kMin (n : Fin 24)
  /-- MAX: ALU MAX gives the signed maximum. (R230) -/
  | kMax (n : Fin 24)
  /-- MINU: ALU MINU gives the unsigned minimum. (R230) -/
  | kMinu (n : Fin 24)
  /-- MAXU: ALU MAXU gives the unsigned maximum. (R230) -/
  | kMaxu (n : Fin 24)
  /-- CMP: ALU CMP sets the flags as SUB does, without writing Gd. (R230) -/
  | kCmp (n : Fin 24)
  /-- TST: ALU TST sets the flags as AND does, without writing Gd. (R230) -/
  | kTst (n : Fin 24)
  /-- MOV: ALU MOV writes B to Gd. (R230) -/
  | kMov (n : Fin 24)
  /-- DIV: ALU DIV divides signed, truncating, with V reporting the exceptional cases. (R231) -/
  | kDiv (n : Fin 24)
  /-- DIVU: ALU DIVU divides unsigned, with V set on division by zero. (R231) -/
  | kDivu (n : Fin 24)
  /-- REM: ALU REM gives the signed remainder. (R231) -/
  | kRem (n : Fin 24)
  /-- REMU: ALU REMU gives the unsigned remainder. (R231) -/
  | kRemu (n : Fin 24)
  /-- CLZ: ALU CLZ counts the leading zeros of A. (R230) -/
  | kClz (n : Fin 24)
  /-- LD: LD loads from local RAM into Gd. (R232) -/
  | kLd (n : Fin 24)
  /-- ST: ST stores Gd, or a pair, to local RAM. (R232) -/
  | kSt (n : Fin 24)
  /-- LDR: LDR issues a reservoir load and waits for it to complete. (R233) -/
  | kLdr (n : Fin 24)
  /-- STR: STR issues a reservoir store and waits for it to complete. (R233) -/
  | kStr (n : Fin 24)
  /-- RXADD: RXADD atomically adds Gd to a reservoir word and returns the old value. (R233) -/
  | kRxadd (n : Fin 24)
  /-- RESERVOIR_ACCESS_COMPLETE: A reservoir access issued by a thread completes, or faults with RESV_UE. (R233) -/
  | reservoirAccessComplete (n : Fin 24) (t : Fin 16)
  /-- BR: BR continues at PC + 4 × OFF16 when COND holds. (R235) -/
  | kBr (n : Fin 24)
  /-- JAL: JAL links the next address into Gd and jumps. (R235) -/
  | kJal (n : Fin 24)
  /-- JR: JR jumps to Ga and links the next address into Gd. (R235) -/
  | kJr (n : Fin 24)
  /-- CHRD: CHRD reads a channel register into Gd, as a host read without shadows. (R236) -/
  | kChrd (n : Fin 24)
  /-- CHWR: CHWR writes Ga to a channel register under that register's rules. (R236) -/
  | kChwr (n : Fin 24)
  /-- CHRD64: CHRD64 reads two values sampled in one tick into a register pair. (R237) -/
  | kChrd64 (n : Fin 24)
  /-- CHSTAT: CHSTAT reads a channel register and clears the W1C bits selected by Ga in the same tick. (R238) -/
  | kChstat (n : Fin 24)
  /-- MTRD: MTRD reads MT into a register pair, and optionally into the stamp pair. (R239) -/
  | kMtrd (n : Fin 24)
  /-- STLD: STLD loads the stamp pair from Ga:Ga+1. (R240) -/
  | kStld (n : Fin 24)
  /-- STST: STST stores the stamp pair into Gd:Gd+1. (R240) -/
  | kStst (n : Fin 24)
  /-- STADD: STADD adds a duration to the stamp pair. (R240) -/
  | kStadd (n : Fin 24)
  /-- STSUB: STSUB subtracts a duration from the stamp pair. (R240) -/
  | kStsub (n : Fin 24)
  /-- STADDI: STADDI adds an unsigned count of fine steps to the stamp pair. (R240) -/
  | kStaddi (n : Fin 24)
  /-- STCMP: STCMP compares the stamp pair with the present MT stamp and sets Z and N. (R240) -/
  | kStcmp (n : Fin 24)
  /-- SHRD: SHRD reads the selected quantity of a shaft into registers. (R241) -/
  | kShrd (n : Fin 24)
  /-- ACCRD: ACCRD reads an accumulator, and clears it when C is set. (R242) -/
  | kAccrd (n : Fin 24)
  /-- MMRD: MMRD reads a min-max tracker, and resets it when C is set. (R242) -/
  | kMmrd (n : Fin 24)
  /-- SYSRD: SYSRD reads an identification register or the thread's identity. (R243) -/
  | kSysrd (n : Fin 24)
  /-- WAITT: WAITT waits until MT reaches the stamp pair. (R244) -/
  | kWaitt (n : Fin 24)
  /-- WAITA: WAITA waits until a shaft reaches a resolved angle. (R245) -/
  | kWaita (n : Fin 24)
  /-- POST: POST hands a descriptor to the cluster's weir and returns the post status. (R246) -/
  | kPost (n : Fin 24)
  /-- CANCEL: CANCEL starts a weir cancel by TAG and MASK. (R247) -/
  | kCancel (n : Fin 24)
  /-- PUSH: PUSH offers a 16-byte entry to a ring, or waits for credit. (R248) -/
  | kPush (n : Fin 24)
  /-- POP: POP takes one entry from a ring, or waits for one. (R248) -/
  | kPop (n : Fin 24)
  /-- YIELD: YIELD passes the engine to a READY thread of equal or higher priority. (R249) -/
  | kYield (n : Fin 24)
  /-- HALT: HALT makes the thread HALTED after the instruction. (R249) -/
  | kHalt (n : Fin 24)
  /-- SWAP_ARM: The SWAP ARM instruction arms the staged recipe at a time or an angle. (R251) -/
  | kSwapArm (n : Fin 24)
  /-- SWAP_DISARM: The SWAP DISARM instruction disarms an armed swap that is not yet FIXED. (R251) -/
  | kSwapDisarm (n : Fin 24)
  /-- SWAP_QUERY: The SWAP QUERY instruction writes SWAP_STATUS to Gd. (R251) -/
  | kSwapQuery (n : Fin 24)
  /-- SWAP_FIXED: In tick F the swap becomes FIXED, and the named clusters select no thread. (R252) -/
  | swapFixed
  /-- SWAP_TICK: In tick T the pages are exchanged, the threads reloaded and the swap list committed. (R254) -/
  | swapTick
  /-- RING_CFG_WRITE: A write to RING_CFG or RING_BASE is accepted while EN is 0, and an EN = 1 write is checked and empties the ring. (R257) -/
  | ringCfgWrite (r : Fin 64) (base : Bool) (v : Word)
  /-- RING_ENTRY_WRITTEN: An admitted entry is written to the reservoir, and WR advances past it. (R260) -/
  | ringEntryWritten (r : Fin 64)
  /-- HOST_COMMIT: A write of HOST_COMMIT admits n host-written entries, or sets COMMIT_REFUSED. (R263) -/
  | hostCommit (r : Fin 64) (v : Word)
  /-- HOST_RELEASE: A write of HOST_RELEASE advances RD by n and returns credit, or sets RELEASE_REFUSED. (R263) -/
  | hostRelease (r : Fin 64) (v : Word)
  /-- XFER_PUSH: A write of XFER_PUSH offers HOST_ENTRY as one entry to the ring. (R263) -/
  | xferPush (v : Word)
  /-- XFER_POP: A write of XFER_POP takes one entry into HOST_ENTRY. (R263) -/
  | xferPop (v : Word)
  /-- RING_SNAP_TAKE: A write of TAKE captures the ledger of the named ring, with FILL and MT. (R268) -/
  | ringSnapTake (v : Word)
  /-- ADC_REQ: A host write of ADC_REQ issues a conversion request. (R276) -/
  | adcReq (v : Word)
  /-- ADC_REQUEST_ARRIVAL: A request reaches the sequencer, and is null, or is expanded into its conversions. (R277) -/
  | adcRequestArrival
  /-- ADC_STARTUP_END: After 320 ticks of STARTUP, the converter begins acquisition. (R274) -/
  | adcStartupEnd (c : Fin 4)
  /-- ADC_ACQ_START: A due conversion starts its acquisition on a free converter. (R274) -/
  | adcAcqStart (c : Fin 4)
  /-- ADC_HOLD: At the end of ACQ the converter holds the input and begins CONV. (R273) -/
  | adcHold (c : Fin 4)
  /-- CONVERSION_DELIVERY: At the end of CONV the corrected result is delivered to its sinks. (R275) -/
  | conversionDelivery (c : Fin 4) (raw : BitVec 12)
  /-- ADC_IDLE_OFF: A converter with nothing due goes OFF after one IDLE tick unless KEEP_ON is set. (R274) -/
  | adcIdleOff (c : Fin 4)
  /-- ACC_RDC_LO_READ: A clearing read of ACC_RDC_LO returns the readable value, clears it and latches ACC_RD_HI. (R281) -/
  | accRdcLoRead (k : Fin 64)
  /-- ACC_RD_LO_READ: A read of ACC_RD_LO latches ACC_RD_HI into a shadow. (R281) -/
  | accRdLoRead (k : Fin 64)
  /-- MM_RDC_READ: A read of MM_RDC returns the tracker value and empties the tracker. (R284) -/
  | mmRdcRead (k : Fin 64)
  /-- ACC_CFG_WRITE: A write to ACC_CFG discards the running sum and count and restarts the window. (R283) -/
  | accCfgWrite (k : Fin 64) (v : Word)
  /-- ADC_SNAP_TAKE: A write of TAKE captures the ADC ledger and MT. (R287) -/
  | adcSnapTake (v : Word)
  /-- IRQ_LATCH: A source event sets its pending bit and CAUSE bit within 4 ticks. (R292) -/
  | irqLatch
  /-- IRQ_SET: A write of 1 to IRQ_SET sets the pending bit as an event. (R292) -/
  | irqSet (w : Fin 8) (v : Word)
  /-- IRQ_SELECT_WRITE: A write to a select register takes effect from the next tick and delivers no event. (R291) -/
  | irqSelectWrite (addr : Nat) (v : Word)
  /-- MSI_X_MESSAGE: A requested vector sends its MSI-X message, or sets its pending-bit array bit until unmasked. (R295) -/
  | msiXMessage (v : Fin 32)
  /-- VEC_DONE: A write of 1 to VEC_DONE ends service of the vector, which is requested again when still active. (R295) -/
  | vecDone (v : Word)
  /-- PONAR_CFG_WRITE: A write to PONAR_CFG enables or disables the ring transport, and EN = 0 discards a held response. (R310) -/
  | ponarCfgWrite (v : Word)
  /-- PONAR_RING_MESSAGE: A whole Ponar message arrives on the command ring and is served. (R310) -/
  | ponarRingMessage
  /-- PONAR_UDP_DATAGRAM: A UDP datagram on PONAR_PORT is served as one Ponar message, or discarded. (R332) -/
  | ponarUdpDatagram (a : Arrival) (ip : Word) (udp : BitVec 16) (bytes : List Byte)
  /-- PONAR_RESPONSE_ADMIT: A held response is admitted to the response ring once credit exists. (R309) -/
  | ponarResponseAdmit
  /-- NVM_WRITE_COMPLETE: An NVM page write, with erase and verify, completes or fails. (R379) -/
  | nvmWriteComplete (ok : Bool)
  /-- HELLO: HELLO opens a session at the highest common version. (R311) -/
  | hello
  /-- GET_COUNTER: GET_COUNTER returns LAST and MARK of a key slot. (R311) -/
  | getCounter
  /-- REG_READ: REG_READ returns the values of the listed Window A addresses. (R311) -/
  | regRead
  /-- REG_WRITE: REG_WRITE commits address and value pairs as Window A writes. (R311) -/
  | regWrite
  /-- OUTPUT: OUTPUT sets or clears OUT_EN. (R320) -/
  | output
  /-- PROG_LOAD_DIRECT: PROG_LOAD in DIRECT mode copies the images to the front pages and starts threads. (R322) -/
  | progLoadDirect
  /-- PROG_LOAD_STAGE: PROG_LOAD in STAGE mode stages the images and the swap list. (R322) -/
  | progLoadStage
  /-- SWAP_CTL_ARM: SWAP_CTL ARM arms the staged swap for the host. (R323) -/
  | swapCtlArm
  /-- SWAP_CTL_DISARM: SWAP_CTL DISARM disarms the swap for the host. (R323) -/
  | swapCtlDisarm
  /-- SWAP_CTL_QUERY: SWAP_CTL QUERY returns SWAP_STATUS. (R323) -/
  | swapCtlQuery
  /-- MIT_CHANGE: MIT_CHANGE commits mitten register pairs in payload order. (R324) -/
  | mitChange
  /-- MIT_CLEAR: MIT_CLEAR requests the authenticated clear of the named mittens. (R324) -/
  | mitClear
  /-- KEY_CHANGE_INSTALL: KEY_CHANGE INSTALL unwraps and installs a key in a slot. (R316) -/
  | keyChangeInstall
  /-- KEY_CHANGE_REVOKE: KEY_CHANGE REVOKE erases a key and makes its slot REVOKED. (R316) -/
  | keyChangeRevoke
  /-- UCAL_WRITE: UCAL_WRITE writes user-calibration records to NVM and applies them. (R383) -/
  | ucalWrite
  /-- SEAL: SEAL writes SEALED to NVM and locks the registers of R318. (R317) -/
  | seal
  /-- FLOOR_RAISE: FLOOR_RAISE raises UC_FLOOR in NVM. (R325) -/
  | floorRaise
  /-- SOFT_RESET: SOFT_RESET begins the soft reset once its response is handed on. (R325) -/
  | softReset
  /-- KEY_LOAD_GO: A write of GO installs a key directly before SEAL, and is refused after. (R315) -/
  | keyLoadGo (v : Word)
  /-- PORT_CTRL_WRITE: A write to port configuration is accepted only while the port's EN is 0. (R328) -/
  | portCtrlWrite (p : Fin 2) (off : Nat) (v : Word)
  /-- LINK_CHANGE: The Ethernet link of a port comes up or goes down. (R327) -/
  | linkChange (p : Fin 2) (up : Bool)
  /-- ARP_REQUEST: A port answers an ARP request for its own address. (R328) -/
  | arpRequest (a : Arrival) (k : ArpKind) (senderIp : Word) (senderMac : BitVec 48)
  /-- ICMP_ECHO: A port answers an ICMP echo request for its own address. (R328) -/
  | icmpEcho (a : Arrival) (target : Word) (senderIp : Word) (body : List Byte)
  /-- GPTP_SYNC: A received Sync measures the offset and drives the time-sync state and trim; the messages of the peer delay mechanism are
  received by the same row (R329). The correction is the message's own, in fine steps. (R331) -/
  | gptpSync (a : Arrival) (m : PtpMessage) (correction : BitVec 32)
  /-- SYNC_TIMEOUT: Three Sync intervals without a Sync in LOCKED give HOLDOVER. (R331) -/
  | syncTimeout
  /-- BMCA_GRANDMASTER: The BMCA selects the device as grandmaster. (R331) -/
  | bmcaGrandmaster
  /-- DISCOVER_SEND: Each port sends a DISCOVER once a second while LINK is 1. (R334) -/
  | discoverSend (p : Fin 2)
  /-- DISCOVER: A received DISCOVER creates or refreshes a peer-table entry. (R335) -/
  | discover (a : Arrival) (ip : Word) (udp : BitVec 16) (bytes : List Byte)
  /-- PEER_AGE_EXPIRY: PEER_AGE reaches 3 500 ms and the peer is gone. (R335) -/
  | peerAgeExpiry (p : Fin 2) (e : Fin 32)
  /-- SESSION_IDLE_EXPIRY: SESS_IDLE seconds without a valid message close a UDP session. (R335) -/
  | sessionIdleExpiry (p : Fin 2) (e : Fin 32)
  /-- USER_DATAGRAM_RX: A 16-byte datagram on USER_PORT is offered to RX_RING. (R336) -/
  | userDatagramRx (a : Arrival) (bytes : List Byte)
  /-- USER_DATAGRAM_TX: The port takes an entry of TX_RING and sends it as a datagram. (R336) -/
  | userDatagramTx (p : Fin 2)
  /-- EXPORT_SAMPLE: Every 250 µs an exported shaft is sampled and sent as a SHAFT_EXPORT. (R337) -/
  | exportSample (sh : Fin 16)
  /-- SHAFT_EXPORT: A received SHAFT_EXPORT for a slot is checked, and accepted or rejected. (R339) -/
  | shaftExport (a : Arrival) (bytes : List Byte)
  /-- IMPORT_TIMEOUT: With no message for IMP_TIMEOUT periods, the shaft begins to coast in DEGRADED. (R342) -/
  | importTimeout (sh : Fin 16)
  /-- COAST_LIMIT: At the end of the coast the importing shaft enters LOST. (R342) -/
  | coastLimit (sh : Fin 16)
  /-- TS_SNAP_TAKE: A write of TAKE captures MT and NT of the commit tick. (R345) -/
  | tsSnapTake (v : Word)
  /-- POR_ASSERT: A main rail below its falling threshold begins POR. (R346) -/
  | porAssert
  /-- POR_RELEASE: POR ends once the rails are stable for 2 ms and REF has run 4 096 cycles. (R346) -/
  | porRelease
  /-- RESET_N: A low level on RESET_N takes a pin reset. (R359) -/
  | resetN (low : Bool) (ns : Nat)
  /-- END_OF_RESET: At the end of reset MT is 0, BOOT is sampled and the initial calibration round begins. (R364) -/
  | endOfReset (straps : BitVec 2)
  /-- CLK_FAIL: A loss of REF or of PLL lock performs a pin reset with cause CLK_FAIL. (R350) -/
  | clkFail (pll : Bool)
  /-- LFCLK_LOSS: A loss of LFCLK clears LF_OK and stops the calendar. (R350) -/
  | lfclkLoss
  /-- PWR_REQ_RUN: A request of RUN takes effect in its commit tick. (R354) -/
  | pwrReqRun
  /-- PWR_REQ_DOZE: A request of DOZE takes effect in its commit tick. (R354) -/
  | pwrReqDoze
  /-- PWR_REQ_NAP: A request of NAP is checked, and it saves the interrupt state and stops the clocks. (R355) -/
  | pwrReqNap
  /-- PWR_REQ_HIBERNATE: A request of HIBERNATE is checked, and it mirrors to NVM. (R358) -/
  | pwrReqHibernate
  /-- NAP_WAKE_EVENT: A wake source or a host demand starts the wake from NAP. (R356) -/
  | napWakeEvent (hostDemand : Bool)
  /-- NAP_WAKE_COMPLETE: The PLL locks, the interrupt state is restored and the clocks restart. (R357) -/
  | napWakeComplete
  /-- PWR_EN_FALL: After the mirror, PWR_EN goes low to remove the main rails. (R358) -/
  | pwrEnFall
  /-- HIB_ABORT: VDD_CORE still present 100 ms after PWR_EN falls gives a POR with cause HIB_ABORT. (R358) -/
  | hibAbort
  /-- WAKE_N_REQUEST: WAKE_N held low for 32 LFCLK periods raises PWR_EN when PIN_WAKE is set. (R348) -/
  | wakeNRequest
  /-- SOFT_RESET_START: A watchdog or soft reset clears OUT_EN, halts the threads and stops the weirs. (R360) -/
  | softResetStart
  /-- SOFT_RESET_END: After any NVM write, the reset clears its blocks and ends. (R360) -/
  | softResetEnd
  /-- RST_CL: A write of RST_CL resets the named clusters, or sets RST_REFUSED. (R361) -/
  | rstCl (v : Word)
  /-- CLUSTER_RESET_END: A cluster reset ends 64 ticks after its commit. (R361) -/
  | clusterResetEnd (n : Fin 24)
  /-- CLUSTER_GATE: A cluster whose gating condition has held for 16 ticks is gated. (R351) -/
  | clusterGate (n : Fin 24)
  /-- CLUSTER_WAKE_BEGIN: A near key or a demand begins the wake of a gated cluster. (R352) -/
  | clusterWakeBegin (n : Fin 24)
  /-- CLUSTER_WAKE_END: The cluster is ungated 160 ticks after its wake begins. (R352) -/
  | clusterWakeEnd (n : Fin 24)
  /-- VBAT_POR: VBAT below 1.50 V clears the always-on island. (R376) -/
  | vbatPor
  /-- ISLAND_RESTORE: The island is restored from the newest valid mirror record, and LOST_EPOCHS increments. (R376) -/
  | islandRestore
  /-- CALENDAR_STEP: The calendar steps on each LFCLK edge. (R368) -/
  | calendarStep
  /-- CAL_SET: A write of SET loads CAL_SET into the calendar at the next LFCLK edge. (R369) -/
  | calSet (v : Word)
  /-- CAL_LO_READ: A read of CAL_LO latches CAL_HI into a shadow. (R368) -/
  | calLoRead
  /-- WEAR_EVENT: An event of a wear source adds 1 to its counter in the island. (R373) -/
  | wearEvent (w : Fin 64)
  /-- WEAR_ADD: A write of ADD adds WEAR_ADD_VAL to a counter with SRC 0x0. (R373) -/
  | wearAdd (v : Word)
  /-- WEAR_CLR: A write of CLR clears a counter unless LOCK is set. (R373) -/
  | wearClr (v : Word)
  /-- WEAR_LO_READ: A read of WEAR_LO latches WEAR_HI into a shadow. (R387) -/
  | wearLoRead (w : Fin 64)
  /-- WEAR_TAKE: A write of TAKE captures all wear counters and the calendar. (R374) -/
  | wearTake (v : Word)
  /-- MIRROR_DUE: Every MIRROR_PERIOD seconds a mirror of the island begins. (R375) -/
  | mirrorDue
  /-- MIR_NOW: A write of NOW begins a mirror. (R375) -/
  | mirNow (v : Word)
  /-- MIRROR_COMPLETE: A mirror record is complete, and MIR_EPOCH increments. (R375) -/
  | mirrorComplete (ok : Bool)
  /-- TRIM_TAKE_EFFECT: A new pad trim takes effect at the first tick with no edge within 32 ticks. (R384) -/
  | trimTakeEffect (p : Fin 256)
  /-- TEMP_UPDATE: TEMP is updated every 1 ms. (R386) -/
  | tempUpdate (t : BitVec 16)
  /-- LFCLK_RETURN: LFCLK starts again after a loss, LF_OK is set, and the calendar resumes stepping from its held value. (R371) -/
  | lfclkReturn
  /-- PCIE_CONFIG_WRITE: A PCIe configuration write changes MSI-X Enable or the function mask, and pending vectors are sent when the mask is removed. (R295) -/
  | pcieConfigWrite (r : CfgReg) (v : Word)
  /-- GPTP_ANNOUNCE: A received Announce runs the best master clock algorithm, which can make a port slave (entering ACQUIRE), passive, or end the grandmaster role. (R329) -/
  | gptpAnnounce (p : Fin 2) (f : RxFrame) (v : PriorityVector)
  /-- GPTP_SYNC_SEND: Every Sync interval a master or grandmaster port sends Sync with Follow_Up. (R331) -/
  | gptpSyncSend (p : Fin 2)
  /-- GEN_TARGET_REACHED: The generator's ramp reaches GEN_TARGET, ω takes the target and the reported acceleration becomes 0, and STALLED is set when the target is 0. (R148) -/
  | genTargetReached (sh : Fin 16)
  /-- CYCLE_REV_STEP: The position's fraction passes 0, and CYCLE_REV steps up or down modulo CYCLE_REVS. (R142) -/
  | cycleRevStep (sh : Fin 16) (reverse : Bool)
  /-- PC_SHAFT_CROSSING: The reported position of a target shaft crosses V in the armed direction, and the position compare fires with stamp t << 6. (R197) -/
  | pcShaftCrossing (j : Fin 32)
deriving DecidableEq, Repr

end Sys2Proof
end

