-- ==== Sys2Proof/Decode.lean ====
section
/-!
DEFINITION. The command that a word spells by the bits of spec/opcode_table.json. No row of the table gives bits: a command is a register
access, an event on a pin or link, or the expiry of a time, and none of them is fetched as a word.
-/

namespace Sys2Proof

/-- No word of any length spells a command. -/
def decodeTableWord (_nbits _w : Nat) : Option Instr := none

end Sys2Proof
end

