-- ==== Sys2Proof/Config.lean ====
section
/-!
DEFINITION. What a particular device fixes (OTP contents) and the values the spec leaves open. Each is an opaque constant with no
body, so that a statement about it holds for every value of it (notes/assumptions/3.md).
-/

namespace Sys2Proof.Config

/-- A value the spec leaves undefined: entry `n` of the stream that `State.free` counts through (notes/assumptions/3.md). -/
opaque freeWord : Nat → BitVec 64

/-- Byte `i` of the 16 KiB OTP, programmed at the factory (R381). -/
opaque otpByte : Nat → Byte

/-- The error of the CORDIC in phase steps for the corrected sample (s3, c3); the model uses it clamped to −1..+1 (R184). -/
opaque cordicError : Int → Int → Int

/-- The level that the device takes in a tick from channel pin `pin` while nothing drives the ball and no pull is selected; it may change
from one tick to the next (R408). `free` is the count of free values used. -/
opaque undrivenLevel : (free tick pin : Nat) → Bool

end Sys2Proof.Config
end

