-- ==== Sys2Proof/Machine/Addr.lean ====
section
/-!
DEFINITION. The Window A address of every register, by its name in the register tables of spec/. `k` is a channel (k / 16 its
cluster), `n` a cluster, `f` a feedback interface (QENC 0-7, AENC 8-15, SSI 16-23).
-/

namespace Sys2Proof.Machine.Reg

/-- ID_PART (01_architecture.md). -/
def ID_PART : Nat := 0x0
/-- ID_STEP (01_architecture.md). -/
def ID_STEP : Nat := 0x4
/-- ID_CLUSTER (01_architecture.md). -/
def ID_CLUSTER : Nat := 0x8
/-- ID_QUEUE (01_architecture.md). -/
def ID_QUEUE : Nat := 0xc
/-- ID_MEMORY (01_architecture.md). -/
def ID_MEMORY : Nat := 0x10
/-- ID_FEEDBACK (01_architecture.md). -/
def ID_FEEDBACK : Nat := 0x14
/-- ID_IO (01_architecture.md). -/
def ID_IO : Nat := 0x18
/-- ID_ANALOG (01_architecture.md). -/
def ID_ANALOG : Nat := 0x1c
/-- ID_UCODE (01_architecture.md). -/
def ID_UCODE : Nat := 0x20
/-- UC_DIGEST (01_architecture.md). -/
def UC_DIGEST (i : Nat) : Nat := 0x40 + i * 0x4
/-- GSTAT (01_architecture.md). -/
def GSTAT : Nat := 0x80
/-- MT_LO (02_time_and_angle_formats.md). -/
def MT_LO : Nat := 0x100
/-- MT_HI (02_time_and_angle_formats.md). -/
def MT_HI : Nat := 0x104
/-- UC_LOAD_SRC (10_microengine.md). -/
def UC_LOAD_SRC : Nat := 0x200
/-- UC_LOAD_LEN (10_microengine.md). -/
def UC_LOAD_LEN : Nat := 0x204
/-- UC_LOAD_GO (10_microengine.md). -/
def UC_LOAD_GO : Nat := 0x208
/-- UC_LOAD_STATUS (10_microengine.md). -/
def UC_LOAD_STATUS : Nat := 0x20c
/-- UC_PATCH_ID0 (10_microengine.md). -/
def UC_PATCH_ID0 : Nat := 0x210
/-- UC_PATCH_ID1 (10_microengine.md). -/
def UC_PATCH_ID1 : Nat := 0x214
/-- UC_FLOOR (10_microengine.md). -/
def UC_FLOOR : Nat := 0x218
/-- SWAP_STATUS (11_kci_instruction_set.md). -/
def SWAP_STATUS : Nat := 0x300
/-- SWAP_MASK (11_kci_instruction_set.md). -/
def SWAP_MASK : Nat := 0x304
/-- SWAP_STAMP_LO (11_kci_instruction_set.md). -/
def SWAP_STAMP_LO : Nat := 0x308
/-- SWAP_STAMP_HI (11_kci_instruction_set.md). -/
def SWAP_STAMP_HI : Nat := 0x30c
/-- SWAP_SKIP (11_kci_instruction_set.md). -/
def SWAP_SKIP : Nat := 0x310
/-- SWAP_SEQ (11_kci_instruction_set.md). -/
def SWAP_SEQ : Nat := 0x314
/-- PWR_CTRL (17_power_clocks_reset.md). -/
def PWR_CTRL : Nat := 0x10000
/-- PWR_STATUS (17_power_clocks_reset.md). -/
def PWR_STATUS : Nat := 0x10004
/-- CLK_STATUS (17_power_clocks_reset.md). -/
def CLK_STATUS : Nat := 0x10008
/-- NAP_LF (17_power_clocks_reset.md). -/
def NAP_LF : Nat := 0x1000c
/-- CG_CFG (17_power_clocks_reset.md). -/
def CG_CFG : Nat := 0x10020
/-- CG_MAP (17_power_clocks_reset.md). -/
def CG_MAP : Nat := 0x10024
/-- RST_CL (17_power_clocks_reset.md). -/
def RST_CL : Nat := 0x10040
/-- RST_STATUS (17_power_clocks_reset.md). -/
def RST_STATUS : Nat := 0x10044
/-- HIB_CFG (17_power_clocks_reset.md). -/
def HIB_CFG : Nat := 0x10050
/-- CG_TICKS (17_power_clocks_reset.md). -/
def CG_TICKS (i : Nat) : Nat := 0x10100 + i * 0x4
/-- IRQ_ENA (14_interrupts.md). -/
def IRQ_ENA (i : Nat) : Nat := 0x20000 + i * 0x4
/-- IRQ_PEND (14_interrupts.md). -/
def IRQ_PEND (i : Nat) : Nat := 0x20100 + i * 0x4
/-- IRQ_SET (14_interrupts.md). -/
def IRQ_SET (i : Nat) : Nat := 0x20180 + i * 0x4
/-- PIN_CFG (14_interrupts.md). -/
def PIN_CFG (i : Nat) : Nat := 0x20200 + i * 0x4
/-- VEC_DONE (14_interrupts.md). -/
def VEC_DONE : Nat := 0x20220
/-- VEC_INSVC (14_interrupts.md). -/
def VEC_INSVC : Nat := 0x20224
/-- TOP (14_interrupts.md). -/
def TOP (i : Nat) : Nat := 0x20240 + i * 0x4
/-- ROUTE (14_interrupts.md). -/
def ROUTE (i : Nat) : Nat := 0x20400 + i * 0x4
/-- CAUSE (14_interrupts.md). -/
def CAUSE (i : Nat) : Nat := 0x20800 + i * 0x4
/-- CH_IRQ_SEL (14_interrupts.md). -/
def CH_IRQ_SEL (i : Nat) : Nat := 0x21000 + i * 0x4
/-- CL_IRQ_SEL (14_interrupts.md). -/
def CL_IRQ_SEL (i : Nat) : Nat := 0x21800 + i * 0x4
/-- SH_IRQ_SEL (14_interrupts.md). -/
def SH_IRQ_SEL (i : Nat) : Nat := 0x21900 + i * 0x4
/-- FB_IRQ_SEL (14_interrupts.md). -/
def FB_IRQ_SEL (i : Nat) : Nat := 0x21a00 + i * 0x4
/-- RING_IRQ_SEL (14_interrupts.md). -/
def RING_IRQ_SEL (i : Nat) : Nat := 0x21b00 + i * 0x4
/-- MSIX_ADDR_LO (14_interrupts.md). -/
def MSIX_ADDR_LO (i : Nat) : Nat := 0x2f000 + i * 0x10
/-- MSIX_ADDR_HI (14_interrupts.md). -/
def MSIX_ADDR_HI (i : Nat) : Nat := 0x2f004 + i * 0x10
/-- MSIX_DATA (14_interrupts.md). -/
def MSIX_DATA (i : Nat) : Nat := 0x2f008 + i * 0x10
/-- MSIX_CTRL (14_interrupts.md). -/
def MSIX_CTRL (i : Nat) : Nat := 0x2f00c + i * 0x10
/-- MSIX_PBA (14_interrupts.md). -/
def MSIX_PBA : Nat := 0x2f800
/-- HG_STATUS (15_host_ports_and_headgate.md). -/
def HG_STATUS : Nat := 0x30000
/-- PONAR_CFG (15_host_ports_and_headgate.md). -/
def PONAR_CFG : Nat := 0x30004
/-- PONAR_SESSION (15_host_ports_and_headgate.md). -/
def PONAR_SESSION : Nat := 0x30008
/-- HG_EVENT (15_host_ports_and_headgate.md). -/
def HG_EVENT : Nat := 0x3000c
/-- ACC_ERR_ADDR (15_host_ports_and_headgate.md). -/
def ACC_ERR_ADDR : Nat := 0x30010
/-- ACC_ERR_INFO (15_host_ports_and_headgate.md). -/
def ACC_ERR_INFO : Nat := 0x30014
/-- LOCK_ADDR (15_host_ports_and_headgate.md). -/
def LOCK_ADDR : Nat := 0x30018
/-- ACC_ERR_CNT (15_host_ports_and_headgate.md). -/
def ACC_ERR_CNT : Nat := 0x30020
/-- LOCK_REFUSED_CNT (15_host_ports_and_headgate.md). -/
def LOCK_REFUSED_CNT : Nat := 0x30024
/-- AUTH_FAIL_CNT (15_host_ports_and_headgate.md). -/
def AUTH_FAIL_CNT : Nat := 0x30028
/-- STALE_CNT (15_host_ports_and_headgate.md). -/
def STALE_CNT : Nat := 0x3002c
/-- WDOG_CFG (15_host_ports_and_headgate.md). -/
def WDOG_CFG : Nat := 0x30040
/-- WDOG_KICK (15_host_ports_and_headgate.md). -/
def WDOG_KICK : Nat := 0x30044
/-- WDOG_STATUS (15_host_ports_and_headgate.md). -/
def WDOG_STATUS : Nat := 0x30048
/-- KEY_LOAD_CTRL (15_host_ports_and_headgate.md). -/
def KEY_LOAD_CTRL : Nat := 0x30080
/-- KEY_LOAD_DATA (15_host_ports_and_headgate.md). -/
def KEY_LOAD_DATA (i : Nat) : Nat := 0x30084 + i * 0x4
/-- KEY_LOAD_GO (15_host_ports_and_headgate.md). -/
def KEY_LOAD_GO : Nat := 0x30094
/-- KEY_INFO (15_host_ports_and_headgate.md). -/
def KEY_INFO (i : Nat) : Nat := 0x30100 + i * 0x20
/-- CTR_LAST_LO (15_host_ports_and_headgate.md). -/
def CTR_LAST_LO (i : Nat) : Nat := 0x30104 + i * 0x20
/-- CTR_LAST_HI (15_host_ports_and_headgate.md). -/
def CTR_LAST_HI (i : Nat) : Nat := 0x30108 + i * 0x20
/-- CTR_MARK_LO (15_host_ports_and_headgate.md). -/
def CTR_MARK_LO (i : Nat) : Nat := 0x3010c + i * 0x20
/-- CTR_MARK_HI (15_host_ports_and_headgate.md). -/
def CTR_MARK_HI (i : Nat) : Nat := 0x30110 + i * 0x20
/-- RING_CFG (12_rings_and_accounting.md). -/
def RING_CFG (i : Nat) : Nat := 0x40000 + i * 0x40
/-- RING_BASE (12_rings_and_accounting.md). -/
def RING_BASE (i : Nat) : Nat := 0x40004 + i * 0x40
/-- RING_WATER (12_rings_and_accounting.md). -/
def RING_WATER (i : Nat) : Nat := 0x40008 + i * 0x40
/-- RING_STATUS (12_rings_and_accounting.md). -/
def RING_STATUS (i : Nat) : Nat := 0x4000c + i * 0x40
/-- RING_WR (12_rings_and_accounting.md). -/
def RING_WR (i : Nat) : Nat := 0x40010 + i * 0x40
/-- RING_RD (12_rings_and_accounting.md). -/
def RING_RD (i : Nat) : Nat := 0x40014 + i * 0x40
/-- RING_FILL (12_rings_and_accounting.md). -/
def RING_FILL (i : Nat) : Nat := 0x40018 + i * 0x40
/-- RING_CREDIT (12_rings_and_accounting.md). -/
def RING_CREDIT (i : Nat) : Nat := 0x4001c + i * 0x40
/-- HOST_COMMIT (12_rings_and_accounting.md). -/
def HOST_COMMIT (i : Nat) : Nat := 0x40020 + i * 0x40
/-- HOST_RELEASE (12_rings_and_accounting.md). -/
def HOST_RELEASE (i : Nat) : Nat := 0x40024 + i * 0x40
/-- HOST_ENTRY (12_rings_and_accounting.md). -/
def HOST_ENTRY (i : Nat) : Nat := 0x42000 + i * 0x4
/-- XFER_CTRL (12_rings_and_accounting.md). -/
def XFER_CTRL : Nat := 0x42010
/-- XFER_STATUS (12_rings_and_accounting.md). -/
def XFER_STATUS : Nat := 0x42014
/-- RING_SNAP_CTRL (12_rings_and_accounting.md). -/
def RING_SNAP_CTRL : Nat := 0x43000
/-- RING_SNAP_SEQ (12_rings_and_accounting.md). -/
def RING_SNAP_SEQ : Nat := 0x43004
/-- SNAP_OFFERED_LO (12_rings_and_accounting.md). -/
def SNAP_OFFERED_LO : Nat := 0x43010
/-- SNAP_OFFERED_HI (12_rings_and_accounting.md). -/
def SNAP_OFFERED_HI : Nat := 0x43014
/-- SNAP_ADMITTED_LO (12_rings_and_accounting.md). -/
def SNAP_ADMITTED_LO : Nat := 0x43018
/-- SNAP_ADMITTED_HI (12_rings_and_accounting.md). -/
def SNAP_ADMITTED_HI : Nat := 0x4301c
/-- SNAP_CONSUMED_LO (12_rings_and_accounting.md). -/
def SNAP_CONSUMED_LO : Nat := 0x43020
/-- SNAP_CONSUMED_HI (12_rings_and_accounting.md). -/
def SNAP_CONSUMED_HI : Nat := 0x43024
/-- SNAP_SPILL_CREDIT_LO (12_rings_and_accounting.md). -/
def SNAP_SPILL_CREDIT_LO : Nat := 0x43028
/-- SNAP_SPILL_CREDIT_HI (12_rings_and_accounting.md). -/
def SNAP_SPILL_CREDIT_HI : Nat := 0x4302c
/-- SNAP_SPILL_CLOSED_LO (12_rings_and_accounting.md). -/
def RSNAP_SNAP_SPILL_CLOSED_LO : Nat := 0x43030
/-- SNAP_SPILL_CLOSED_HI (12_rings_and_accounting.md). -/
def RSNAP_SNAP_SPILL_CLOSED_HI : Nat := 0x43034
/-- SNAP_FLUSHED_LO (12_rings_and_accounting.md). -/
def SNAP_FLUSHED_LO : Nat := 0x43038
/-- SNAP_FLUSHED_HI (12_rings_and_accounting.md). -/
def SNAP_FLUSHED_HI : Nat := 0x4303c
/-- SNAP_SPILL_UE_LO (12_rings_and_accounting.md). -/
def SNAP_SPILL_UE_LO : Nat := 0x43040
/-- SNAP_SPILL_UE_HI (12_rings_and_accounting.md). -/
def SNAP_SPILL_UE_HI : Nat := 0x43044
/-- SNAP_FILL (12_rings_and_accounting.md). -/
def SNAP_FILL : Nat := 0x43048
/-- SNAP_MT_LO (12_rings_and_accounting.md). -/
def RSNAP_SNAP_MT_LO : Nat := 0x43050
/-- SNAP_MT_HI (12_rings_and_accounting.md). -/
def RSNAP_SNAP_MT_HI : Nat := 0x43054
/-- SPILL_MAP (12_rings_and_accounting.md). -/
def SPILL_MAP (i : Nat) : Nat := 0x43080 + i * 0x4
/-- TRIP_CFG (06_trips_and_mittens.md). -/
def TRIP_CFG (i : Nat) : Nat := 0x50000 + i * 0x4
/-- TRIP_RAW (06_trips_and_mittens.md). -/
def TRIP_RAW : Nat := 0x50080
/-- TRIP_ACTIVE (06_trips_and_mittens.md). -/
def TRIP_ACTIVE : Nat := 0x50084
/-- MIT_FORCING_MAP (06_trips_and_mittens.md). -/
def MIT_FORCING_MAP : Nat := 0x50088
/-- MIT_LATCHED_MAP (06_trips_and_mittens.md). -/
def MIT_LATCHED_MAP : Nat := 0x5008c
/-- MIT_CTRL (06_trips_and_mittens.md). -/
def MIT_CTRL (i : Nat) : Nat := 0x50400 + i * 0x40
/-- MIT_MODE (06_trips_and_mittens.md). -/
def MIT_MODE (i : Nat) : Nat := 0x50404 + i * 0x40
/-- MIT_MASK (06_trips_and_mittens.md). -/
def MIT_MASK (i : Nat) : Nat := 0x50408 + i * 0x40
/-- MIT_CUFF (06_trips_and_mittens.md). -/
def MIT_CUFF (i : Nat) : Nat := 0x5040c + i * 0x40
/-- MIT_CLR (06_trips_and_mittens.md). -/
def MIT_CLR (i : Nat) : Nat := 0x50410 + i * 0x40
/-- MIT_STATUS (06_trips_and_mittens.md). -/
def MIT_STATUS (i : Nat) : Nat := 0x50414 + i * 0x40
/-- TAKE_CNT (06_trips_and_mittens.md). -/
def TAKE_CNT (i : Nat) : Nat := 0x50418 + i * 0x40
/-- BLANK_CNT (06_trips_and_mittens.md). -/
def BLANK_CNT (i : Nat) : Nat := 0x5041c + i * 0x40
/-- MIT_TAKE_LO (06_trips_and_mittens.md). -/
def MIT_TAKE_LO (i : Nat) : Nat := 0x50420 + i * 0x40
/-- MIT_TAKE_HI (06_trips_and_mittens.md). -/
def MIT_TAKE_HI (i : Nat) : Nat := 0x50424 + i * 0x40
/-- MIT_PINS (06_trips_and_mittens.md). -/
def MIT_PINS (i j : Nat) : Nat := 0x51000 + i * 0x20 + j * 0x4
/-- MIT_ACT (06_trips_and_mittens.md). -/
def MIT_ACT (i j : Nat) : Nat := 0x52000 + i * 0x40 + j * 0x4
/-- PIN_OUT_SEL (01_architecture.md). -/
def PIN_OUT_SEL (i : Nat) : Nat := 0x60000 + i * 0x4
/-- CH_IN_SEL (01_architecture.md). -/
def CH_IN_SEL (i : Nat) : Nat := 0x60400 + i * 0x4
/-- PIN_LEVEL (01_architecture.md). -/
def PIN_LEVEL (i : Nat) : Nat := 0x60c00 + i * 0x4
/-- PIN_FORCED (01_architecture.md). -/
def PIN_FORCED (i : Nat) : Nat := 0x60c20 + i * 0x4
/-- ADC_CTRL (13_analogue_conversion.md). -/
def ADC_CTRL (i : Nat) : Nat := 0x70000 + i * 0x4
/-- ADC_STATUS (13_analogue_conversion.md). -/
def ADC_STATUS (i : Nat) : Nat := 0x70010 + i * 0x4
/-- ADC_REQ (13_analogue_conversion.md). -/
def ADC_REQ : Nat := 0x70040
/-- TRIG_CFG (13_analogue_conversion.md). -/
def ADC_TRIG_CFG (i : Nat) : Nat := 0x70100 + i * 0x4
/-- STEP (13_analogue_conversion.md). -/
def STEP (i : Nat) : Nat := 0x70200 + i * 0x4
/-- AIN_CFG (13_analogue_conversion.md). -/
def AIN_CFG (i : Nat) : Nat := 0x70400 + i * 0x10
/-- AIN_CAL (13_analogue_conversion.md). -/
def AIN_CAL (i : Nat) : Nat := 0x70404 + i * 0x10
/-- ACC_CFG (13_analogue_conversion.md). -/
def ACC_CFG (i : Nat) : Nat := 0x70800 + i * 0x20
/-- ACC_STATUS (13_analogue_conversion.md). -/
def ACC_STATUS (i : Nat) : Nat := 0x70804 + i * 0x20
/-- ACC_RD_LO (13_analogue_conversion.md). -/
def ACC_RD_LO (i : Nat) : Nat := 0x70808 + i * 0x20
/-- ACC_RDC_LO (13_analogue_conversion.md). -/
def ACC_RDC_LO (i : Nat) : Nat := 0x7080c + i * 0x20
/-- ACC_RD_HI (13_analogue_conversion.md). -/
def ACC_RD_HI (i : Nat) : Nat := 0x70810 + i * 0x20
/-- ACC_OVW_CNT (13_analogue_conversion.md). -/
def ACC_OVW_CNT (i : Nat) : Nat := 0x70814 + i * 0x20
/-- MM_RD (13_analogue_conversion.md). -/
def MM_RD (i : Nat) : Nat := 0x71000 + i * 0x10
/-- MM_RDC (13_analogue_conversion.md). -/
def MM_RDC (i : Nat) : Nat := 0x71004 + i * 0x10
/-- ADC_SNAP_CTRL (13_analogue_conversion.md). -/
def ADC_SNAP_CTRL : Nat := 0x71400
/-- ADC_SNAP_SEQ (13_analogue_conversion.md). -/
def ADC_SNAP_SEQ : Nat := 0x71404
/-- SNAP_REQUESTS_LO (13_analogue_conversion.md). -/
def SNAP_REQUESTS_LO : Nat := 0x71410
/-- SNAP_REQUESTS_HI (13_analogue_conversion.md). -/
def SNAP_REQUESTS_HI : Nat := 0x71414
/-- SNAP_EXPANDED_LO (13_analogue_conversion.md). -/
def SNAP_EXPANDED_LO : Nat := 0x71418
/-- SNAP_EXPANDED_HI (13_analogue_conversion.md). -/
def SNAP_EXPANDED_HI : Nat := 0x7141c
/-- SNAP_REQ_NULL_LO (13_analogue_conversion.md). -/
def SNAP_REQ_NULL_LO : Nat := 0x71420
/-- SNAP_REQ_NULL_HI (13_analogue_conversion.md). -/
def SNAP_REQ_NULL_HI : Nat := 0x71424
/-- SNAP_ISSUED_LO (13_analogue_conversion.md). -/
def SNAP_ISSUED_LO : Nat := 0x71428
/-- SNAP_ISSUED_HI (13_analogue_conversion.md). -/
def SNAP_ISSUED_HI : Nat := 0x7142c
/-- SNAP_DELIVERED_LO (13_analogue_conversion.md). -/
def SNAP_DELIVERED_LO : Nat := 0x71430
/-- SNAP_DELIVERED_HI (13_analogue_conversion.md). -/
def SNAP_DELIVERED_HI : Nat := 0x71434
/-- SNAP_SPILL_BUSY_LO (13_analogue_conversion.md). -/
def SNAP_SPILL_BUSY_LO : Nat := 0x71438
/-- SNAP_SPILL_BUSY_HI (13_analogue_conversion.md). -/
def SNAP_SPILL_BUSY_HI : Nat := 0x7143c
/-- SNAP_SPILL_FULL_LO (13_analogue_conversion.md). -/
def SNAP_SPILL_FULL_LO : Nat := 0x71440
/-- SNAP_SPILL_FULL_HI (13_analogue_conversion.md). -/
def SNAP_SPILL_FULL_HI : Nat := 0x71444
/-- SNAP_SPILL_CLOSED_LO (13_analogue_conversion.md). -/
def ADC_SNAP_SPILL_CLOSED_LO : Nat := 0x71448
/-- SNAP_SPILL_CLOSED_HI (13_analogue_conversion.md). -/
def ADC_SNAP_SPILL_CLOSED_HI : Nat := 0x7144c
/-- SNAP_SPILL_SAT_LO (13_analogue_conversion.md). -/
def SNAP_SPILL_SAT_LO : Nat := 0x71450
/-- SNAP_SPILL_SAT_HI (13_analogue_conversion.md). -/
def SNAP_SPILL_SAT_HI : Nat := 0x71454
/-- SNAP_IN_FLIGHT (13_analogue_conversion.md). -/
def SNAP_IN_FLIGHT : Nat := 0x71458
/-- SNAP_MT_LO (13_analogue_conversion.md). -/
def ADC_SNAP_MT_LO : Nat := 0x71460
/-- SNAP_MT_HI (13_analogue_conversion.md). -/
def ADC_SNAP_MT_HI : Nat := 0x71464
/-- OPEN_MAP (13_analogue_conversion.md). -/
def OPEN_MAP : Nat := 0x71480
/-- CLIP_CNT (13_analogue_conversion.md). -/
def CLIP_CNT : Nat := 0x71484
/-- QE_CTRL (09_position_feedback.md). -/
def QE_CTRL (i : Nat) : Nat := 0x80000 + i * 0x100
/-- QE_INPUTS (09_position_feedback.md). -/
def QE_INPUTS (i : Nat) : Nat := 0x80004 + i * 0x100
/-- QE_CPR (09_position_feedback.md). -/
def QE_CPR (i : Nat) : Nat := 0x80008 + i * 0x100
/-- QE_MIN_EDGE (09_position_feedback.md). -/
def QE_MIN_EDGE (i : Nat) : Nat := 0x8000c + i * 0x100
/-- REF_CFG (09_position_feedback.md). -/
def REF_CFG (f : Nat) : Nat := 0x80030 + f / 8 * 0x1000 + f % 8 * 0x100
/-- INDEX_POS (09_position_feedback.md). -/
def INDEX_POS (f : Nat) : Nat := 0x80034 + f / 8 * 0x1000 + f % 8 * 0x100
/-- SPD_CFG (09_position_feedback.md). -/
def SPD_CFG (f : Nat) : Nat := 0x80038 + f / 8 * 0x1000 + f % 8 * 0x100
/-- SPD_GATE (09_position_feedback.md). -/
def SPD_GATE (f : Nat) : Nat := 0x8003c + f / 8 * 0x1000 + f % 8 * 0x100
/-- FB_STATUS (09_position_feedback.md). -/
def FB_STATUS (f : Nat) : Nat := 0x80040 + f / 8 * 0x1000 + f % 8 * 0x100
/-- POS (09_position_feedback.md). -/
def POS (f : Nat) : Nat := 0x80044 + f / 8 * 0x1000 + f % 8 * 0x100
/-- TURNS (09_position_feedback.md). -/
def TURNS (f : Nat) : Nat := 0x80048 + f / 8 * 0x1000 + f % 8 * 0x100
/-- POS_STAMP_LO (09_position_feedback.md). -/
def POS_STAMP_LO (f : Nat) : Nat := 0x8004c + f / 8 * 0x1000 + f % 8 * 0x100
/-- POS_STAMP_HI (09_position_feedback.md). -/
def POS_STAMP_HI (f : Nat) : Nat := 0x80050 + f / 8 * 0x1000 + f % 8 * 0x100
/-- SPEED_LO (09_position_feedback.md). -/
def SPEED_LO (f : Nat) : Nat := 0x80054 + f / 8 * 0x1000 + f % 8 * 0x100
/-- SPEED_HI (09_position_feedback.md). -/
def SPEED_HI (f : Nat) : Nat := 0x80058 + f / 8 * 0x1000 + f % 8 * 0x100
/-- LAST_DEV (09_position_feedback.md). -/
def LAST_DEV (f : Nat) : Nat := 0x8005c + f / 8 * 0x1000 + f % 8 * 0x100
/-- INDEX_SLIP_CNT (09_position_feedback.md). -/
def INDEX_SLIP_CNT (f : Nat) : Nat := 0x80060 + f / 8 * 0x1000 + f % 8 * 0x100
/-- INDEX_FAULT_CNT (09_position_feedback.md). -/
def INDEX_FAULT_CNT (f : Nat) : Nat := 0x80064 + f / 8 * 0x1000 + f % 8 * 0x100
/-- REF_LOST_CNT (09_position_feedback.md). -/
def REF_LOST_CNT (f : Nat) : Nat := 0x80068 + f / 8 * 0x1000 + f % 8 * 0x100
/-- FAULT_CNT (09_position_feedback.md). -/
def FAULT_CNT (f : Nat) : Nat := 0x8006c + f / 8 * 0x1000 + f % 8 * 0x100
/-- ILLEGAL_CNT (09_position_feedback.md). -/
def ILLEGAL_CNT (f : Nat) : Nat := 0x80070 + f / 8 * 0x1000 + f % 8 * 0x100
/-- AE_CTRL (09_position_feedback.md). -/
def AE_CTRL (i : Nat) : Nat := 0x81000 + i * 0x100
/-- AE_INPUTS (09_position_feedback.md). -/
def AE_INPUTS (i : Nat) : Nat := 0x81004 + i * 0x100
/-- AE_LINES (09_position_feedback.md). -/
def AE_LINES (i : Nat) : Nat := 0x81008 + i * 0x100
/-- AE_GAIN (09_position_feedback.md). -/
def AE_GAIN (i : Nat) : Nat := 0x8100c + i * 0x100
/-- AE_OFS (09_position_feedback.md). -/
def AE_OFS (i : Nat) : Nat := 0x81010 + i * 0x100
/-- AE_PHASE (09_position_feedback.md). -/
def AE_PHASE (i : Nat) : Nat := 0x81014 + i * 0x100
/-- AMP_LO (09_position_feedback.md). -/
def AMP_LO (i : Nat) : Nat := 0x81018 + i * 0x100
/-- AMP_HI (09_position_feedback.md). -/
def AMP_HI (i : Nat) : Nat := 0x8101c + i * 0x100
/-- DET_TH (09_position_feedback.md). -/
def DET_TH (i : Nat) : Nat := 0x81020 + i * 0x100
/-- AMP_CFG (09_position_feedback.md). -/
def AMP_CFG (i : Nat) : Nat := 0x81024 + i * 0x100
/-- AE_SAMPLE (09_position_feedback.md). -/
def AE_SAMPLE (i : Nat) : Nat := 0x81028 + i * 0x100
/-- AE_AMP (09_position_feedback.md). -/
def AE_AMP (i : Nat) : Nat := 0x8102c + i * 0x100
/-- SSI_CTRL (09_position_feedback.md). -/
def SSI_CTRL (i : Nat) : Nat := 0x82000 + i * 0x100
/-- SSI_FRAME (09_position_feedback.md). -/
def SSI_FRAME (i : Nat) : Nat := 0x82004 + i * 0x100
/-- SSI_TIMING (09_position_feedback.md). -/
def SSI_TIMING (i : Nat) : Nat := 0x82008 + i * 0x100
/-- SSI_POLL (09_position_feedback.md). -/
def SSI_POLL (i : Nat) : Nat := 0x8200c + i * 0x100
/-- SSI_CHECK (09_position_feedback.md). -/
def SSI_CHECK (i : Nat) : Nat := 0x82010 + i * 0x100
/-- SSI_RAW_LO (09_position_feedback.md). -/
def SSI_RAW_LO (i : Nat) : Nat := 0x82014 + i * 0x100
/-- SSI_RAW_HI (09_position_feedback.md). -/
def SSI_RAW_HI (i : Nat) : Nat := 0x82018 + i * 0x100
/-- CV_CTRL (09_position_feedback.md). -/
def CV_CTRL (i : Nat) : Nat := 0x83000 + i * 0x40
/-- CV_STATUS (09_position_feedback.md). -/
def CV_STATUS (i : Nat) : Nat := 0x83004 + i * 0x40
/-- OVERRUN_CNT (09_position_feedback.md). -/
def OVERRUN_CNT (i : Nat) : Nat := 0x83008 + i * 0x40
/-- PRB_CTRL (09_position_feedback.md). -/
def PRB_CTRL (i : Nat) : Nat := 0x83400 + i * 0x40
/-- PRB_CH (09_position_feedback.md). -/
def PRB_CH (i : Nat) : Nat := 0x83404 + i * 0x40
/-- PRB_STATUS (09_position_feedback.md). -/
def PRB_STATUS (i : Nat) : Nat := 0x83408 + i * 0x40
/-- PRB_STAMP_LO (09_position_feedback.md). -/
def PRB_STAMP_LO (i : Nat) : Nat := 0x83410 + i * 0x40
/-- PRB_STAMP_HI (09_position_feedback.md). -/
def PRB_STAMP_HI (i : Nat) : Nat := 0x83414 + i * 0x40
/-- PRB_POS_LO (09_position_feedback.md). -/
def PRB_POS_LO (i : Nat) : Nat := 0x83418 + i * 0x40
/-- PRB_POS_HI (09_position_feedback.md). -/
def PRB_POS_HI (i : Nat) : Nat := 0x8341c + i * 0x40
/-- PRB_SEQ (09_position_feedback.md). -/
def PRB_SEQ (i : Nat) : Nat := 0x83420 + i * 0x40
/-- PRB_ARM_LO (09_position_feedback.md). -/
def PRB_ARM_LO (i : Nat) : Nat := 0x83424 + i * 0x40
/-- PRB_ARM_HI (09_position_feedback.md). -/
def PRB_ARM_HI (i : Nat) : Nat := 0x83428 + i * 0x40
/-- PRB_MISS (09_position_feedback.md). -/
def PRB_MISS (i : Nat) : Nat := 0x8342c + i * 0x40
/-- PC_CTRL (09_position_feedback.md). -/
def PC_CTRL (i : Nat) : Nat := 0x84000 + i * 0x40
/-- PC_VAL_LO (09_position_feedback.md). -/
def PC_VAL_LO (i : Nat) : Nat := 0x84004 + i * 0x40
/-- PC_VAL_HI (09_position_feedback.md). -/
def PC_VAL_HI (i : Nat) : Nat := 0x84008 + i * 0x40
/-- PC_STATUS (09_position_feedback.md). -/
def PC_STATUS (i : Nat) : Nat := 0x8400c + i * 0x40
/-- PC_STAMP_LO (09_position_feedback.md). -/
def PC_STAMP_LO (i : Nat) : Nat := 0x84010 + i * 0x40
/-- PC_STAMP_HI (09_position_feedback.md). -/
def PC_STAMP_HI (i : Nat) : Nat := 0x84014 + i * 0x40
/-- PC_POS_LO (09_position_feedback.md). -/
def PC_POS_LO (i : Nat) : Nat := 0x84018 + i * 0x40
/-- PC_POS_HI (09_position_feedback.md). -/
def PC_POS_HI (i : Nat) : Nat := 0x8401c + i * 0x40
/-- SH_CTRL (07_shafts_and_wheels.md). -/
def SH_CTRL (i : Nat) : Nat := 0x90000 + i * 0x1000
/-- SH_STATUS (07_shafts_and_wheels.md). -/
def SH_STATUS (i : Nat) : Nat := 0x90004 + i * 0x1000
/-- WHEEL_CFG (07_shafts_and_wheels.md). -/
def WHEEL_CFG (i : Nat) : Nat := 0x90008 + i * 0x1000
/-- SH_INPUTS (07_shafts_and_wheels.md). -/
def SH_INPUTS (i : Nat) : Nat := 0x9000c + i * 0x1000
/-- TOOTH0_ANGLE (07_shafts_and_wheels.md). -/
def TOOTH0_ANGLE (i : Nat) : Nat := 0x90010 + i * 0x1000
/-- REV_OFS (07_shafts_and_wheels.md). -/
def REV_OFS (i : Nat) : Nat := 0x90014 + i * 0x1000
/-- GAP_CFG (07_shafts_and_wheels.md). -/
def GAP_CFG (i : Nat) : Nat := 0x90018 + i * 0x1000
/-- EST_CFG (07_shafts_and_wheels.md). -/
def EST_CFG (i : Nat) : Nat := 0x9001c + i * 0x1000
/-- MARKER_CFG (07_shafts_and_wheels.md). -/
def MARKER_CFG (i : Nat) : Nat := 0x90020 + i * 0x1000
/-- CYCLE_SET (07_shafts_and_wheels.md). -/
def CYCLE_SET (i : Nat) : Nat := 0x90024 + i * 0x1000
/-- HIST_BASE (07_shafts_and_wheels.md). -/
def HIST_BASE (i : Nat) : Nat := 0x90030 + i * 0x1000
/-- HIST_CTRL (07_shafts_and_wheels.md). -/
def HIST_CTRL (i : Nat) : Nat := 0x90034 + i * 0x1000
/-- HIST_WR (07_shafts_and_wheels.md). -/
def HIST_WR (i : Nat) : Nat := 0x90038 + i * 0x1000
/-- HIST_LOST (07_shafts_and_wheels.md). -/
def HIST_LOST (i : Nat) : Nat := 0x9003c + i * 0x1000
/-- VT_COUNTS (07_shafts_and_wheels.md). -/
def VT_COUNTS (i : Nat) : Nat := 0x90040 + i * 0x1000
/-- GEN_TARGET_LO (07_shafts_and_wheels.md). -/
def GEN_TARGET_LO (i : Nat) : Nat := 0x90050 + i * 0x1000
/-- GEN_TARGET_HI (07_shafts_and_wheels.md). -/
def GEN_TARGET_HI (i : Nat) : Nat := 0x90054 + i * 0x1000
/-- GEN_ACC_LO (07_shafts_and_wheels.md). -/
def GEN_ACC_LO (i : Nat) : Nat := 0x90058 + i * 0x1000
/-- GEN_ACC_HI (07_shafts_and_wheels.md). -/
def GEN_ACC_HI (i : Nat) : Nat := 0x9005c + i * 0x1000
/-- GEN_CTRL (07_shafts_and_wheels.md). -/
def GEN_CTRL (i : Nat) : Nat := 0x90060 + i * 0x1000
/-- SNAP_CTRL (07_shafts_and_wheels.md). -/
def SNAP_CTRL (i : Nat) : Nat := 0x90080 + i * 0x1000
/-- SNAP_SEQ (07_shafts_and_wheels.md). -/
def SNAP_SEQ (i : Nat) : Nat := 0x90084 + i * 0x1000
/-- SNAP_POS_LO (07_shafts_and_wheels.md). -/
def SNAP_POS_LO (i : Nat) : Nat := 0x90088 + i * 0x1000
/-- SNAP_POS_HI (07_shafts_and_wheels.md). -/
def SNAP_POS_HI (i : Nat) : Nat := 0x9008c + i * 0x1000
/-- SNAP_VEL_LO (07_shafts_and_wheels.md). -/
def SNAP_VEL_LO (i : Nat) : Nat := 0x90090 + i * 0x1000
/-- SNAP_VEL_HI (07_shafts_and_wheels.md). -/
def SNAP_VEL_HI (i : Nat) : Nat := 0x90094 + i * 0x1000
/-- SNAP_ACC_LO (07_shafts_and_wheels.md). -/
def SNAP_ACC_LO (i : Nat) : Nat := 0x90098 + i * 0x1000
/-- SNAP_ACC_HI (07_shafts_and_wheels.md). -/
def SNAP_ACC_HI (i : Nat) : Nat := 0x9009c + i * 0x1000
/-- SNAP_MT_LO (07_shafts_and_wheels.md). -/
def SH_SNAP_MT_LO (i : Nat) : Nat := 0x900a0 + i * 0x1000
/-- SNAP_MT_HI (07_shafts_and_wheels.md). -/
def SH_SNAP_MT_HI (i : Nat) : Nat := 0x900a4 + i * 0x1000
/-- SNAP_INFO (07_shafts_and_wheels.md). -/
def SNAP_INFO (i : Nat) : Nat := 0x900a8 + i * 0x1000
/-- LAST_TOOTH_LO (07_shafts_and_wheels.md). -/
def LAST_TOOTH_LO (i : Nat) : Nat := 0x900c0 + i * 0x1000
/-- LAST_TOOTH_HI (07_shafts_and_wheels.md). -/
def LAST_TOOTH_HI (i : Nat) : Nat := 0x900c4 + i * 0x1000
/-- PRED_PERIOD (07_shafts_and_wheels.md). -/
def PRED_PERIOD (i : Nat) : Nat := 0x900c8 + i * 0x1000
/-- LAST_PERIOD (07_shafts_and_wheels.md). -/
def LAST_PERIOD (i : Nat) : Nat := 0x900cc + i * 0x1000
/-- JUMP_LO (07_shafts_and_wheels.md). -/
def JUMP_LO (i : Nat) : Nat := 0x900d0 + i * 0x1000
/-- JUMP_HI (07_shafts_and_wheels.md). -/
def JUMP_HI (i : Nat) : Nat := 0x900d4 + i * 0x1000
/-- JUMP_INFO (07_shafts_and_wheels.md). -/
def JUMP_INFO (i : Nat) : Nat := 0x900d8 + i * 0x1000
/-- FILT_CNT (07_shafts_and_wheels.md). -/
def FILT_CNT (i : Nat) : Nat := 0x90100 + i * 0x1000
/-- NOISE_CNT (07_shafts_and_wheels.md). -/
def NOISE_CNT (i : Nat) : Nat := 0x90104 + i * 0x1000
/-- SYNTH_CNT (07_shafts_and_wheels.md). -/
def SYNTH_CNT (i : Nat) : Nat := 0x90108 + i * 0x1000
/-- SHIFT_CNT (07_shafts_and_wheels.md). -/
def SHIFT_CNT (i : Nat) : Nat := 0x9010c + i * 0x1000
/-- GAP_MISS_CNT (07_shafts_and_wheels.md). -/
def GAP_MISS_CNT (i : Nat) : Nat := 0x90110 + i * 0x1000
/-- CAND_FAIL_CNT (07_shafts_and_wheels.md). -/
def CAND_FAIL_CNT (i : Nat) : Nat := 0x90114 + i * 0x1000
/-- LOST_CNT (07_shafts_and_wheels.md). -/
def LOST_CNT (i : Nat) : Nat := 0x90118 + i * 0x1000
/-- PHASE_ERR_CNT (07_shafts_and_wheels.md). -/
def PHASE_ERR_CNT (i : Nat) : Nat := 0x9011c + i * 0x1000
/-- STALL_CNT (07_shafts_and_wheels.md). -/
def STALL_CNT (i : Nat) : Nat := 0x90120 + i * 0x1000
/-- TS_CTRL (16_network_and_shaft_sharing.md). -/
def TS_CTRL : Nat := 0xa0000
/-- TS_STATUS (16_network_and_shaft_sharing.md). -/
def TS_STATUS : Nat := 0xa0004
/-- NT_OFS_LO (16_network_and_shaft_sharing.md). -/
def NT_OFS_LO : Nat := 0xa0008
/-- NT_OFS_HI (16_network_and_shaft_sharing.md). -/
def NT_OFS_HI : Nat := 0xa000c
/-- RATE_TRIM (16_network_and_shaft_sharing.md). -/
def RATE_TRIM : Nat := 0xa0010
/-- OFFSET (16_network_and_shaft_sharing.md). -/
def OFFSET : Nat := 0xa0014
/-- GM_ID_LO (16_network_and_shaft_sharing.md). -/
def GM_ID_LO : Nat := 0xa0018
/-- GM_ID_HI (16_network_and_shaft_sharing.md). -/
def GM_ID_HI : Nat := 0xa001c
/-- NT_STEP_CNT (16_network_and_shaft_sharing.md). -/
def NT_STEP_CNT : Nat := 0xa0020
/-- TS_SNAP_CTRL (16_network_and_shaft_sharing.md). -/
def TS_SNAP_CTRL : Nat := 0xa0030
/-- TS_SNAP_MT_LO (16_network_and_shaft_sharing.md). -/
def TS_SNAP_MT_LO : Nat := 0xa0038
/-- TS_SNAP_MT_HI (16_network_and_shaft_sharing.md). -/
def TS_SNAP_MT_HI : Nat := 0xa003c
/-- TS_SNAP_NT_LO (16_network_and_shaft_sharing.md). -/
def TS_SNAP_NT_LO : Nat := 0xa0040
/-- TS_SNAP_NT_HI (16_network_and_shaft_sharing.md). -/
def TS_SNAP_NT_HI : Nat := 0xa0044
/-- PORT_CTRL (16_network_and_shaft_sharing.md). -/
def PORT_CTRL (i : Nat) : Nat := 0xa1000 + i * 0x400
/-- PORT_STATUS (16_network_and_shaft_sharing.md). -/
def PORT_STATUS (i : Nat) : Nat := 0xa1004 + i * 0x400
/-- MAC_LO (16_network_and_shaft_sharing.md). -/
def MAC_LO (i : Nat) : Nat := 0xa1008 + i * 0x400
/-- MAC_HI (16_network_and_shaft_sharing.md). -/
def MAC_HI (i : Nat) : Nat := 0xa100c + i * 0x400
/-- IP_ADDR (16_network_and_shaft_sharing.md). -/
def IP_ADDR (i : Nat) : Nat := 0xa1010 + i * 0x400
/-- IP_MASK (16_network_and_shaft_sharing.md). -/
def IP_MASK (i : Nat) : Nat := 0xa1014 + i * 0x400
/-- UDP_PORTS (16_network_and_shaft_sharing.md). -/
def UDP_PORTS (i : Nat) : Nat := 0xa1018 + i * 0x400
/-- USER_CFG (16_network_and_shaft_sharing.md). -/
def USER_CFG (i : Nat) : Nat := 0xa101c + i * 0x400
/-- TX_DEST_IP (16_network_and_shaft_sharing.md). -/
def TX_DEST_IP (i : Nat) : Nat := 0xa1020 + i * 0x400
/-- TX_DEST_UDP (16_network_and_shaft_sharing.md). -/
def TX_DEST_UDP (i : Nat) : Nat := 0xa1024 + i * 0x400
/-- VLAN_CFG (16_network_and_shaft_sharing.md). -/
def VLAN_CFG (i : Nat) : Nat := 0xa1028 + i * 0x400
/-- SESS_CFG (16_network_and_shaft_sharing.md). -/
def SESS_CFG (i : Nat) : Nat := 0xa102c + i * 0x400
/-- RX_DISCARD (16_network_and_shaft_sharing.md). -/
def RX_DISCARD (i : Nat) : Nat := 0xa1040 + i * 0x400
/-- PONAR_DISCARD (16_network_and_shaft_sharing.md). -/
def PONAR_DISCARD (i : Nat) : Nat := 0xa1044 + i * 0x400
/-- PEER_NEW_CNT (16_network_and_shaft_sharing.md). -/
def PEER_NEW_CNT (i : Nat) : Nat := 0xa1048 + i * 0x400
/-- PEER_GONE_CNT (16_network_and_shaft_sharing.md). -/
def PEER_GONE_CNT (i : Nat) : Nat := 0xa104c + i * 0x400
/-- PEER_FULL_CNT (16_network_and_shaft_sharing.md). -/
def PEER_FULL_CNT (i : Nat) : Nat := 0xa1050 + i * 0x400
/-- PEER_INFO (16_network_and_shaft_sharing.md). -/
def PEER_INFO (i j : Nat) : Nat := 0xa2000 + i * 0x800 + j * 0x40
/-- PEER_IP (16_network_and_shaft_sharing.md). -/
def PEER_IP (i j : Nat) : Nat := 0xa2004 + i * 0x800 + j * 0x40
/-- PEER_UDP (16_network_and_shaft_sharing.md). -/
def PEER_UDP (i j : Nat) : Nat := 0xa2008 + i * 0x800 + j * 0x40
/-- PEER_ID_LO (16_network_and_shaft_sharing.md). -/
def PEER_ID_LO (i j : Nat) : Nat := 0xa200c + i * 0x800 + j * 0x40
/-- PEER_ID_HI (16_network_and_shaft_sharing.md). -/
def PEER_ID_HI (i j : Nat) : Nat := 0xa2010 + i * 0x800 + j * 0x40
/-- PEER_AGE (16_network_and_shaft_sharing.md). -/
def PEER_AGE (i j : Nat) : Nat := 0xa2014 + i * 0x800 + j * 0x40
/-- PEER_PART (16_network_and_shaft_sharing.md). -/
def PEER_PART (i j : Nat) : Nat := 0xa2018 + i * 0x800 + j * 0x40
/-- PEER_UCODE (16_network_and_shaft_sharing.md). -/
def PEER_UCODE (i j : Nat) : Nat := 0xa201c + i * 0x800 + j * 0x40
/-- EXP_CTRL (16_network_and_shaft_sharing.md). -/
def EXP_CTRL (i : Nat) : Nat := 0xa4000 + i * 0x20
/-- EXP_PHASE (16_network_and_shaft_sharing.md). -/
def EXP_PHASE (i : Nat) : Nat := 0xa4004 + i * 0x20
/-- EXP_DEST_IP (16_network_and_shaft_sharing.md). -/
def EXP_DEST_IP (i : Nat) : Nat := 0xa4008 + i * 0x20
/-- EXP_SEQ (16_network_and_shaft_sharing.md). -/
def EXP_SEQ (i : Nat) : Nat := 0xa400c + i * 0x20
/-- EXP_SENT (16_network_and_shaft_sharing.md). -/
def EXP_SENT (i : Nat) : Nat := 0xa4010 + i * 0x20
/-- EXP_HELD (16_network_and_shaft_sharing.md). -/
def EXP_HELD (i : Nat) : Nat := 0xa4014 + i * 0x20
/-- IMP_CFG (16_network_and_shaft_sharing.md). -/
def IMP_CFG (i : Nat) : Nat := 0xa5000 + i * 0x40
/-- IMP_COAST (16_network_and_shaft_sharing.md). -/
def IMP_COAST (i : Nat) : Nat := 0xa5004 + i * 0x40
/-- IMP_MAX_AGE (16_network_and_shaft_sharing.md). -/
def IMP_MAX_AGE (i : Nat) : Nat := 0xa5008 + i * 0x40
/-- IMP_ID_LO (16_network_and_shaft_sharing.md). -/
def IMP_ID_LO (i : Nat) : Nat := 0xa500c + i * 0x40
/-- IMP_ID_HI (16_network_and_shaft_sharing.md). -/
def IMP_ID_HI (i : Nat) : Nat := 0xa5010 + i * 0x40
/-- IMP_STATUS (16_network_and_shaft_sharing.md). -/
def IMP_STATUS (i : Nat) : Nat := 0xa5014 + i * 0x40
/-- IMP_LAST_LO (16_network_and_shaft_sharing.md). -/
def IMP_LAST_LO (i : Nat) : Nat := 0xa5018 + i * 0x40
/-- IMP_LAST_HI (16_network_and_shaft_sharing.md). -/
def IMP_LAST_HI (i : Nat) : Nat := 0xa501c + i * 0x40
/-- IMP_RX (16_network_and_shaft_sharing.md). -/
def IMP_RX (i : Nat) : Nat := 0xa5020 + i * 0x40
/-- IMP_REJECT (16_network_and_shaft_sharing.md). -/
def IMP_REJECT (i : Nat) : Nat := 0xa5024 + i * 0x40
/-- IMP_DUP (16_network_and_shaft_sharing.md). -/
def IMP_DUP (i : Nat) : Nat := 0xa5028 + i * 0x40
/-- IMP_MISSED (16_network_and_shaft_sharing.md). -/
def IMP_MISSED (i : Nat) : Nat := 0xa502c + i * 0x40
/-- IMP_COAST_CNT (16_network_and_shaft_sharing.md). -/
def IMP_COAST_CNT (i : Nat) : Nat := 0xa5030 + i * 0x40
/-- CAL_LO (18_lifetime_and_calibration.md). -/
def CAL_LO : Nat := 0xb0000
/-- CAL_HI (18_lifetime_and_calibration.md). -/
def CAL_HI : Nat := 0xb0004
/-- CAL_SET_LO (18_lifetime_and_calibration.md). -/
def CAL_SET_LO : Nat := 0xb0008
/-- CAL_SET_HI (18_lifetime_and_calibration.md). -/
def CAL_SET_HI : Nat := 0xb000c
/-- CAL_CTRL (18_lifetime_and_calibration.md). -/
def CALN_CAL_CTRL : Nat := 0xb0010
/-- CAL_STATUS (18_lifetime_and_calibration.md). -/
def CALN_CAL_STATUS : Nat := 0xb0014
/-- CAL_ALARM_LO (18_lifetime_and_calibration.md). -/
def CAL_ALARM_LO : Nat := 0xb0018
/-- CAL_ALARM_HI (18_lifetime_and_calibration.md). -/
def CAL_ALARM_HI : Nat := 0xb001c
/-- CAL_STEP_CNT (18_lifetime_and_calibration.md). -/
def CAL_STEP_CNT : Nat := 0xb0020
/-- WEAR_CFG (18_lifetime_and_calibration.md). -/
def WEAR_CFG (i : Nat) : Nat := 0xb0100 + i * 0x4
/-- WEAR_LO (18_lifetime_and_calibration.md). -/
def WEAR_LO (i : Nat) : Nat := 0xb0200 + i * 0x8
/-- WEAR_HI (18_lifetime_and_calibration.md). -/
def WEAR_HI (i : Nat) : Nat := 0xb0204 + i * 0x8
/-- WEAR_ADD_VAL (18_lifetime_and_calibration.md). -/
def WEAR_ADD_VAL : Nat := 0xb0400
/-- WEAR_OP (18_lifetime_and_calibration.md). -/
def WEAR_OP : Nat := 0xb0404
/-- WEAR_TAKE (18_lifetime_and_calibration.md). -/
def WEAR_TAKE : Nat := 0xb0408
/-- WEAR_SNAP_SEQ (18_lifetime_and_calibration.md). -/
def WEAR_SNAP_SEQ : Nat := 0xb040c
/-- WEAR_STATUS (18_lifetime_and_calibration.md). -/
def WEAR_STATUS : Nat := 0xb0410
/-- SAT_MAP (18_lifetime_and_calibration.md). -/
def SAT_MAP (i : Nat) : Nat := 0xb0418 + i * 0x4
/-- WSNAP_LO (18_lifetime_and_calibration.md). -/
def WSNAP_LO (i : Nat) : Nat := 0xb0500 + i * 0x8
/-- WSNAP_HI (18_lifetime_and_calibration.md). -/
def WSNAP_HI (i : Nat) : Nat := 0xb0504 + i * 0x8
/-- WSNAP_CAL_LO (18_lifetime_and_calibration.md). -/
def WSNAP_CAL_LO : Nat := 0xb0700
/-- WSNAP_CAL_HI (18_lifetime_and_calibration.md). -/
def WSNAP_CAL_HI : Nat := 0xb0704
/-- MIR_CFG (18_lifetime_and_calibration.md). -/
def MIR_CFG : Nat := 0xb0800
/-- MIR_CTRL (18_lifetime_and_calibration.md). -/
def MIR_CTRL : Nat := 0xb0804
/-- MIR_STATUS (18_lifetime_and_calibration.md). -/
def MIR_STATUS : Nat := 0xb0808
/-- MIR_EPOCH (18_lifetime_and_calibration.md). -/
def MIR_EPOCH : Nat := 0xb080c
/-- LOST_EPOCHS (18_lifetime_and_calibration.md). -/
def LOST_EPOCHS : Nat := 0xb0810
/-- MIR_FAIL_CNT (18_lifetime_and_calibration.md). -/
def MIR_FAIL_CNT : Nat := 0xb0814
/-- TEMP (18_lifetime_and_calibration.md). -/
def TEMP : Nat := 0xb0900
/-- TRIM_OUT (18_lifetime_and_calibration.md). -/
def TRIM_OUT (i : Nat) : Nat := 0xb1000 + i * 0x4
/-- TRIM_IN (18_lifetime_and_calibration.md). -/
def TRIM_IN (i : Nat) : Nat := 0xb1400 + i * 0x4
/-- CAL_CTRL (05_fine_edges_and_capture.md). -/
def CALENG_CAL_CTRL : Nat := 0xc0000
/-- CAL_STATUS (05_fine_edges_and_capture.md). -/
def CALENG_CAL_STATUS : Nat := 0xc0004
/-- CAL_ROUND (05_fine_edges_and_capture.md). -/
def CAL_ROUND : Nat := 0xc0008
/-- CAL_FAIL (05_fine_edges_and_capture.md). -/
def CAL_FAIL : Nat := 0xc000c
/-- TDC_SKIP (05_fine_edges_and_capture.md). -/
def TDC_SKIP : Nat := 0xc0010
/-- CAL_STALE_MAP (05_fine_edges_and_capture.md). -/
def CAL_STALE_MAP (i : Nat) : Nat := 0xc0040 + i * 0x4
/-- CAL_FAULT_MAP (05_fine_edges_and_capture.md). -/
def CAL_FAULT_MAP (i : Nat) : Nat := 0xc0080 + i * 0x4
/-- CH_CTRL (03_channel_counters.md). -/
def CH_CTRL (k : Nat) : Nat := 0x1000000 + k / 16 * 0x100000 + k % 16 * 0x400
/-- CH_STATUS (03_channel_counters.md). -/
def CH_STATUS (k : Nat) : Nat := 0x1000004 + k / 16 * 0x100000 + k % 16 * 0x400
/-- PRESCALE (03_channel_counters.md). -/
def PRESCALE (k : Nat) : Nat := 0x1000008 + k / 16 * 0x100000 + k % 16 * 0x400
/-- PERIOD (03_channel_counters.md). -/
def PERIOD (k : Nat) : Nat := 0x100000c + k / 16 * 0x100000 + k % 16 * 0x400
/-- COUNT (03_channel_counters.md). -/
def COUNT (k : Nat) : Nat := 0x1000010 + k / 16 * 0x100000 + k % 16 * 0x400
/-- PERIOD_ACT (03_channel_counters.md). -/
def PERIOD_ACT (k : Nat) : Nat := 0x1000014 + k / 16 * 0x100000 + k % 16 * 0x400
/-- PAIR_SNAPSHOT (03_channel_counters.md). -/
def PAIR_SNAPSHOT (k : Nat) : Nat := 0x1000018 + k / 16 * 0x100000 + k % 16 / 2 * 0x800
/-- PAIR_SNAP_SEQ (03_channel_counters.md). -/
def PAIR_SNAP_SEQ (k : Nat) : Nat := 0x100001c + k / 16 * 0x100000 + k % 16 / 2 * 0x800
/-- CMP (03_channel_counters.md). -/
def CMP (k x : Nat) : Nat := 0x1000020 + k / 16 * 0x100000 + k % 16 * 0x400 + x * 4
/-- CMP_CFG (03_channel_counters.md). -/
def CMP_CFG (k : Nat) : Nat := 0x1000030 + k / 16 * 0x100000 + k % 16 * 0x400
/-- CMP_STATUS (03_channel_counters.md). -/
def CMP_STATUS (k : Nat) : Nat := 0x1000034 + k / 16 * 0x100000 + k % 16 * 0x400
/-- CMP_ACT (03_channel_counters.md). -/
def CMP_ACT (k x : Nat) : Nat := 0x1000040 + k / 16 * 0x100000 + k % 16 * 0x400 + x * 4
/-- PAIR_SNAP_LO (03_channel_counters.md). -/
def PAIR_SNAP_LO (k : Nat) : Nat := 0x1000050 + k / 16 * 0x100000 + k % 16 / 2 * 0x800
/-- PAIR_SNAP_HI (03_channel_counters.md). -/
def PAIR_SNAP_HI (k : Nat) : Nat := 0x1000054 + k / 16 * 0x100000 + k % 16 / 2 * 0x800
/-- PAIR_SNAP_MT_LO (03_channel_counters.md). -/
def PAIR_SNAP_MT_LO (k : Nat) : Nat := 0x1000058 + k / 16 * 0x100000 + k % 16 / 2 * 0x800
/-- PAIR_SNAP_MT_HI (03_channel_counters.md). -/
def PAIR_SNAP_MT_HI (k : Nat) : Nat := 0x100005c + k / 16 * 0x100000 + k % 16 / 2 * 0x800
/-- OUT_CTRL (04_pulse_generation.md). -/
def OUT_CTRL (k : Nat) : Nat := 0x1000060 + k / 16 * 0x100000 + k % 16 * 0x400
/-- OUT_FINE (04_pulse_generation.md). -/
def OUT_FINE (k : Nat) : Nat := 0x1000064 + k / 16 * 0x100000 + k % 16 * 0x400
/-- DT_CFG (04_pulse_generation.md). -/
def DT_CFG (k : Nat) : Nat := 0x1000068 + k / 16 * 0x100000 + k % 16 / 2 * 0x800
/-- TRIG_CFG (04_pulse_generation.md). -/
def CH_TRIG_CFG (k : Nat) : Nat := 0x100006c + k / 16 * 0x100000 + k % 16 * 0x400
/-- OUT_STATUS (04_pulse_generation.md). -/
def OUT_STATUS (k : Nat) : Nat := 0x1000070 + k / 16 * 0x100000 + k % 16 * 0x400
/-- SWALLOW_CNT (04_pulse_generation.md). -/
def SWALLOW_CNT (k : Nat) : Nat := 0x1000074 + k / 16 * 0x100000 + k % 16 * 0x400
/-- PT_CTRL (04_pulse_generation.md). -/
def PT_CTRL (k : Nat) : Nat := 0x1000080 + k / 16 * 0x100000 + k % 16 * 0x400
/-- PT_CMD (04_pulse_generation.md). -/
def PT_CMD (k : Nat) : Nat := 0x1000084 + k / 16 * 0x100000 + k % 16 * 0x400
/-- PT_EMIT (04_pulse_generation.md). -/
def PT_EMIT (k : Nat) : Nat := 0x1000088 + k / 16 * 0x100000 + k % 16 * 0x400
/-- PT_SKIP (04_pulse_generation.md). -/
def PT_SKIP (k : Nat) : Nat := 0x100008c + k / 16 * 0x100000 + k % 16 * 0x400
/-- PT_REMAIN (04_pulse_generation.md). -/
def PT_REMAIN (k : Nat) : Nat := 0x1000090 + k / 16 * 0x100000 + k % 16 * 0x400
/-- PT_STATUS (04_pulse_generation.md). -/
def PT_STATUS (k : Nat) : Nat := 0x1000094 + k / 16 * 0x100000 + k % 16 * 0x400
/-- EU_CTRL (05_fine_edges_and_capture.md). -/
def EU_CTRL (k : Nat) : Nat := 0x1000100 + k / 16 * 0x100000 + k % 16 * 0x400
/-- EU_STATUS (05_fine_edges_and_capture.md). -/
def EU_STATUS (k : Nat) : Nat := 0x1000104 + k / 16 * 0x100000 + k % 16 * 0x400
/-- EU_TAPS (05_fine_edges_and_capture.md). -/
def EU_TAPS (k : Nat) : Nat := 0x1000108 + k / 16 * 0x100000 + k % 16 * 0x400
/-- SWAP_CNT (05_fine_edges_and_capture.md). -/
def SWAP_CNT (k : Nat) : Nat := 0x100010c + k / 16 * 0x100000 + k % 16 * 0x400
/-- SWAP_LATE (05_fine_edges_and_capture.md). -/
def SWAP_LATE (k : Nat) : Nat := 0x1000110 + k / 16 * 0x100000 + k % 16 * 0x400
/-- CAP_CTRL (05_fine_edges_and_capture.md). -/
def CAP_CTRL (k : Nat) : Nat := 0x1000120 + k / 16 * 0x100000 + k % 16 * 0x400
/-- CAP_STATUS (05_fine_edges_and_capture.md). -/
def CAP_STATUS (k : Nat) : Nat := 0x1000124 + k / 16 * 0x100000 + k % 16 * 0x400
/-- CAP_RISE_LO (05_fine_edges_and_capture.md). -/
def CAP_RISE_LO (k : Nat) : Nat := 0x1000128 + k / 16 * 0x100000 + k % 16 * 0x400
/-- CAP_RISE_HI (05_fine_edges_and_capture.md). -/
def CAP_RISE_HI (k : Nat) : Nat := 0x100012c + k / 16 * 0x100000 + k % 16 * 0x400
/-- CAP_FALL_LO (05_fine_edges_and_capture.md). -/
def CAP_FALL_LO (k : Nat) : Nat := 0x1000130 + k / 16 * 0x100000 + k % 16 * 0x400
/-- CAP_FALL_HI (05_fine_edges_and_capture.md). -/
def CAP_FALL_HI (k : Nat) : Nat := 0x1000134 + k / 16 * 0x100000 + k % 16 * 0x400
/-- CAP_WIDTH_LO (05_fine_edges_and_capture.md). -/
def CAP_WIDTH_LO (k : Nat) : Nat := 0x1000138 + k / 16 * 0x100000 + k % 16 * 0x400
/-- CAP_WIDTH_HI (05_fine_edges_and_capture.md). -/
def CAP_WIDTH_HI (k : Nat) : Nat := 0x100013c + k / 16 * 0x100000 + k % 16 * 0x400
/-- CAP_SEQ (05_fine_edges_and_capture.md). -/
def CAP_SEQ (k : Nat) : Nat := 0x1000140 + k / 16 * 0x100000 + k % 16 * 0x400
/-- GLITCH_CNT (05_fine_edges_and_capture.md). -/
def GLITCH_CNT (k : Nat) : Nat := 0x1000144 + k / 16 * 0x100000 + k % 16 * 0x400
/-- CAP_ARM_LO (05_fine_edges_and_capture.md). -/
def CAP_ARM_LO (k : Nat) : Nat := 0x1000148 + k / 16 * 0x100000 + k % 16 * 0x400
/-- CAP_ARM_HI (05_fine_edges_and_capture.md). -/
def CAP_ARM_HI (k : Nat) : Nat := 0x100014c + k / 16 * 0x100000 + k % 16 * 0x400
/-- WEIR_STATUS (08_angle_event_scheduling.md). -/
def WEIR_STATUS (i : Nat) : Nat := 0x1004000 + i * 0x100000
/-- HEAD_LO (08_angle_event_scheduling.md). -/
def HEAD_LO (i : Nat) : Nat := 0x1004008 + i * 0x100000
/-- HEAD_HI (08_angle_event_scheduling.md). -/
def HEAD_HI (i : Nat) : Nat := 0x100400c + i * 0x100000
/-- POST_W (08_angle_event_scheduling.md). -/
def POST_W (i j : Nat) : Nat := 0x1004010 + i * 0x100000 + j * 0x4
/-- POST_GO (08_angle_event_scheduling.md). -/
def POST_GO (i : Nat) : Nat := 0x1004028 + i * 0x100000
/-- POST_RESULT (08_angle_event_scheduling.md). -/
def POST_RESULT (i : Nat) : Nat := 0x100402c + i * 0x100000
/-- CANCEL_SEL (08_angle_event_scheduling.md). -/
def CANCEL_SEL (i : Nat) : Nat := 0x1004030 + i * 0x100000
/-- CANCEL_GO (08_angle_event_scheduling.md). -/
def CANCEL_GO (i : Nat) : Nat := 0x1004034 + i * 0x100000
/-- CANCEL_RESULT (08_angle_event_scheduling.md). -/
def CANCEL_RESULT (i : Nat) : Nat := 0x1004038 + i * 0x100000
/-- LEDGER_TAKE (08_angle_event_scheduling.md). -/
def LEDGER_TAKE (i : Nat) : Nat := 0x1004040 + i * 0x100000
/-- LEDGER_SEQ (08_angle_event_scheduling.md). -/
def LEDGER_SEQ (i : Nat) : Nat := 0x1004044 + i * 0x100000
/-- SNAP_ACCEPTED_LO (08_angle_event_scheduling.md). -/
def SNAP_ACCEPTED_LO (i : Nat) : Nat := 0x1004080 + i * 0x100000
/-- SNAP_ACCEPTED_HI (08_angle_event_scheduling.md). -/
def SNAP_ACCEPTED_HI (i : Nat) : Nat := 0x1004084 + i * 0x100000
/-- SNAP_COMPLETED_LO (08_angle_event_scheduling.md). -/
def SNAP_COMPLETED_LO (i : Nat) : Nat := 0x1004088 + i * 0x100000
/-- SNAP_COMPLETED_HI (08_angle_event_scheduling.md). -/
def SNAP_COMPLETED_HI (i : Nat) : Nat := 0x100408c + i * 0x100000
/-- SNAP_LATE_LO (08_angle_event_scheduling.md). -/
def SNAP_LATE_LO (i : Nat) : Nat := 0x1004090 + i * 0x100000
/-- SNAP_LATE_HI (08_angle_event_scheduling.md). -/
def SNAP_LATE_HI (i : Nat) : Nat := 0x1004094 + i * 0x100000
/-- SNAP_SHORTENED_LO (08_angle_event_scheduling.md). -/
def SNAP_SHORTENED_LO (i : Nat) : Nat := 0x1004098 + i * 0x100000
/-- SNAP_SHORTENED_HI (08_angle_event_scheduling.md). -/
def SNAP_SHORTENED_HI (i : Nat) : Nat := 0x100409c + i * 0x100000
/-- SNAP_DROP_PAST_LO (08_angle_event_scheduling.md). -/
def SNAP_DROP_PAST_LO (i : Nat) : Nat := 0x10040a0 + i * 0x100000
/-- SNAP_DROP_PAST_HI (08_angle_event_scheduling.md). -/
def SNAP_DROP_PAST_HI (i : Nat) : Nat := 0x10040a4 + i * 0x100000
/-- SNAP_DROP_SYNC_LO (08_angle_event_scheduling.md). -/
def SNAP_DROP_SYNC_LO (i : Nat) : Nat := 0x10040a8 + i * 0x100000
/-- SNAP_DROP_SYNC_HI (08_angle_event_scheduling.md). -/
def SNAP_DROP_SYNC_HI (i : Nat) : Nat := 0x10040ac + i * 0x100000
/-- SNAP_CANCELLED_LO (08_angle_event_scheduling.md). -/
def SNAP_CANCELLED_LO (i : Nat) : Nat := 0x10040b0 + i * 0x100000
/-- SNAP_CANCELLED_HI (08_angle_event_scheduling.md). -/
def SNAP_CANCELLED_HI (i : Nat) : Nat := 0x10040b4 + i * 0x100000
/-- SNAP_ZERO_LO (08_angle_event_scheduling.md). -/
def SNAP_ZERO_LO (i : Nat) : Nat := 0x10040b8 + i * 0x100000
/-- SNAP_ZERO_HI (08_angle_event_scheduling.md). -/
def SNAP_ZERO_HI (i : Nat) : Nat := 0x10040bc + i * 0x100000
/-- SNAP_PENDING (08_angle_event_scheduling.md). -/
def SNAP_PENDING (i : Nat) : Nat := 0x10040c0 + i * 0x100000
/-- SNAP_MT_LO (08_angle_event_scheduling.md). -/
def WEIR_SNAP_MT_LO (i : Nat) : Nat := 0x10040c8 + i * 0x100000
/-- SNAP_MT_HI (08_angle_event_scheduling.md). -/
def WEIR_SNAP_MT_HI (i : Nat) : Nat := 0x10040cc + i * 0x100000
/-- WEIR_FULL_CNT (08_angle_event_scheduling.md). -/
def WEIR_FULL_CNT (i : Nat) : Nat := 0x1004100 + i * 0x100000
/-- POST_REFUSED_CNT (08_angle_event_scheduling.md). -/
def POST_REFUSED_CNT (i : Nat) : Nat := 0x1004104 + i * 0x100000
/-- CONGEST_CNT (08_angle_event_scheduling.md). -/
def CONGEST_CNT (i : Nat) : Nat := 0x1004108 + i * 0x100000
/-- ACT_REFUSED_CNT (08_angle_event_scheduling.md). -/
def ACT_REFUSED_CNT (i : Nat) : Nat := 0x100410c + i * 0x100000
/-- STALL_ABORT_CNT (08_angle_event_scheduling.md). -/
def STALL_ABORT_CNT (i : Nat) : Nat := 0x1004110 + i * 0x100000
/-- CL_CTRL (10_microengine.md). -/
def CL_CTRL (i : Nat) : Nat := 0x1005000 + i * 0x100000
/-- CL_STATUS (10_microengine.md). -/
def CL_STATUS (i : Nat) : Nat := 0x1005004 + i * 0x100000
/-- CL_READY_MAP (10_microengine.md). -/
def CL_READY_MAP (i : Nat) : Nat := 0x1005010 + i * 0x100000
/-- CL_WAIT_MAP (10_microengine.md). -/
def CL_WAIT_MAP (i : Nat) : Nat := 0x1005014 + i * 0x100000
/-- CL_FAULT_MAP (10_microengine.md). -/
def CL_FAULT_MAP (i : Nat) : Nat := 0x1005018 + i * 0x100000
/-- CL_BUSY (10_microengine.md). -/
def CL_BUSY (i : Nat) : Nat := 0x1005020 + i * 0x100000
/-- CL_SWITCH_CNT (10_microengine.md). -/
def CL_SWITCH_CNT (i : Nat) : Nat := 0x1005024 + i * 0x100000
/-- CL_POLL_MAX (10_microengine.md). -/
def CL_POLL_MAX (i : Nat) : Nat := 0x1005028 + i * 0x100000
/-- TH_CTRL (10_microengine.md). -/
def TH_CTRL (i j : Nat) : Nat := 0x1006000 + i * 0x100000 + j * 0x100
/-- TH_STATUS (10_microengine.md). -/
def TH_STATUS (i j : Nat) : Nat := 0x1006004 + i * 0x100000 + j * 0x100
/-- TH_PC (10_microengine.md). -/
def TH_PC (i j : Nat) : Nat := 0x1006008 + i * 0x100000 + j * 0x100
/-- TH_BIND (10_microengine.md). -/
def TH_BIND (i j : Nat) : Nat := 0x100600c + i * 0x100000 + j * 0x100
/-- TH_FLAGS (10_microengine.md). -/
def TH_FLAGS (i j : Nat) : Nat := 0x1006010 + i * 0x100000 + j * 0x100
/-- TH_STAMP_LO (10_microengine.md). -/
def TH_STAMP_LO (i j : Nat) : Nat := 0x1006018 + i * 0x100000 + j * 0x100
/-- TH_STAMP_HI (10_microengine.md). -/
def TH_STAMP_HI (i j : Nat) : Nat := 0x100601c + i * 0x100000 + j * 0x100
/-- FAULT_PC (10_microengine.md). -/
def FAULT_PC (i j : Nat) : Nat := 0x1006020 + i * 0x100000 + j * 0x100
/-- FAULT_INFO (10_microengine.md). -/
def FAULT_INFO (i j : Nat) : Nat := 0x1006024 + i * 0x100000 + j * 0x100
/-- TH_RUN (10_microengine.md). -/
def TH_RUN (i j : Nat) : Nat := 0x1006028 + i * 0x100000 + j * 0x100
/-- G (10_microengine.md). -/
def G (i j l : Nat) : Nat := 0x1006040 + i * 0x100000 + j * 0x100 + l * 0x4

end Sys2Proof.Machine.Reg
end

