-- ==== Sys2Proof/Machine/Bits.lean ====
section
/-!
DEFINITION. Register fields, sign extension and the comparison orders of spec/02_time_and_angle_formats.md.
-/

namespace Sys2Proof.Machine

/-- Bits `hi..lo` of a word, unsigned (R5). -/
def bitsOf (w : Word) (hi lo : Nat) : Nat := (w.toNat >>> lo) % 2 ^ (hi + 1 - lo)

/-- Bit `i` of a word. -/
abbrev bitOf (w : Word) (i : Nat) : Bool := w.getLsbD i

/-- The mask of bits `hi..lo`. -/
def maskOf (hi lo : Nat) : Word := BitVec.ofNat 32 ((2 ^ (hi + 1 - lo) - 1) <<< lo)

/-- The word with bits `hi..lo` replaced by the low bits of `v`. -/
def setBits (w : Word) (hi lo v : Nat) : Word :=
  (w &&& ~~~ (maskOf hi lo)) ||| (BitVec.ofNat 32 (v <<< lo) &&& maskOf hi lo)

/-- The word with bit `i` set to `b`. -/
def putBit (w : Word) (i : Nat) (b : Bool) : Word := setBits w i i b.toNat

/-- The bits of `mask` come from `new`, the others from `old`. -/
def mergeWord (old new mask : Word) : Word := (old &&& ~~~ mask) ||| (new &&& mask)

/-- Low and high words of a 64-bit value. -/
def loWord (x : BitVec 64) : Word := x.truncate 32
def hiWord (x : BitVec 64) : Word := (x >>> 32).truncate 32

/-- A 64-bit value from its two words. -/
def ofWords (hi lo : Word) : BitVec 64 := (hi ++ lo : BitVec 64)

/-- A bit vector of an integer, modulo 2^n. -/
abbrev bvInt (n : Nat) (i : Int) : BitVec n := BitVec.ofInt n i

/-- An unsigned n-bit field read as two's complement (R6). -/
def signed (n v : Nat) : Int := if 2 * v < 2 ^ n then (v : Int) else (v : Int) - (2 ^ n : Int)

/-- A saturating 32-bit counter one up (R8: a count stays at all ones). -/
def satInc (w : Word) : Word := if w = BitVec.allOnes 32 then w else w + 1

/-- An integer clamped to `lo..hi`. -/
def clampInt (lo hi x : Int) : Int := max lo (min hi x)

/-- Rounding division: the nearest integer to `a / b` (`b > 0`), ties away from zero. -/
def divRoundAway (a : Int) (b : Nat) : Int :=
  if 0 ≤ a then (((2 * a.toNat + b) / (2 * b) : Nat) : Int) else - (((2 * (-a).toNat + b) / (2 * b) : Nat) : Int)

end Sys2Proof.Machine
end

