-- ==== Sys2Proof/Machine/RegMap.lean ====
section
/-!
DEFINITION. The register map of Window A, row by row from the register tables of spec/: base address, repetitions (count, stride),
reset word, and the bits of each access code of R7. A derived or restored field (resets "from NVM", "from OTP", "straps") has reset
bits 0 here and is computed where the register is read.
-/

namespace Sys2Proof.Machine

/-- One row of a register table: address, repetitions, reset word, and masks of the RW, W1C, RC and WO bits (R7). -/
structure RegRow where
  base : Nat
  dims : List (Nat × Nat)
  rst : Nat
  rw : Nat
  w1c : Nat
  rc : Nat
  wo : Nat
deriving DecidableEq, Repr

/-- The offset `off` is one of the row's repetitions. -/
def dimsHit : List (Nat × Nat) → Nat → Bool
  | [], off => off == 0
  | (count, stride) :: rest, off => decide (off / stride < count) && dimsHit rest (off % stride)

/-- The row gives the register at Window A address `a`. -/
def RegRow.hit (r : RegRow) (a : Nat) : Bool := decide (r.base ≤ a) && dimsHit r.dims (a - r.base)

/-- Register rows of the sys block, part 1. -/
def sysRows1 : List RegRow :=
  [⟨0x0, [], 0x4b4f0384, 0x0, 0x0, 0x0, 0x0⟩, -- ID_PART
   ⟨0x4, [], 0x21, 0x0, 0x0, 0x0, 0x0⟩, -- ID_STEP
   ⟨0x8, [], 0x10101018, 0x0, 0x0, 0x0, 0x0⟩, -- ID_CLUSTER
   ⟨0xc, [], 0x1004002, 0x0, 0x0, 0x0, 0x0⟩, -- ID_QUEUE
   ⟨0x10, [], 0x40004004, 0x0, 0x0, 0x0, 0x0⟩, -- ID_MEMORY
   ⟨0x14, [], 0x8080808, 0x0, 0x0, 0x0, 0x0⟩, -- ID_FEEDBACK
   ⟨0x18, [], 0x1002020, 0x0, 0x0, 0x0, 0x0⟩, -- ID_IO
   ⟨0x1c, [], 0x4204040, 0x0, 0x0, 0x0, 0x0⟩, -- ID_ANALOG
   ⟨0x20, [], 0x0, 0x0, 0x0, 0x0, 0x0⟩, -- ID_UCODE
   ⟨0x40, [(8, 0x4)], 0x0, 0x0, 0x0, 0x0, 0x0⟩, -- UC_DIGEST
   ⟨0x80, [], 0x0, 0x0, 0x0, 0x0, 0x0⟩, -- GSTAT
   ⟨0x100, [], 0x0, 0x0, 0x0, 0x0, 0x0⟩, -- MT_LO
   ⟨0x104, [], 0x0, 0x0, 0x0, 0x0, 0x0⟩, -- MT_HI
   ⟨0x200, [], 0x0, 0xffffff, 0x0, 0x0, 0x0⟩, -- UC_LOAD_SRC
   ⟨0x204, [], 0x0, 0xffffff, 0x0, 0x0, 0x0⟩, -- UC_LOAD_LEN
   ⟨0x208, [], 0x0, 0x0, 0x0, 0x0, 0x1⟩, -- UC_LOAD_GO
   ⟨0x20c, [], 0x0, 0x0, 0x0, 0x0, 0x0⟩, -- UC_LOAD_STATUS
   ⟨0x210, [], 0x0, 0x0, 0x0, 0x0, 0x0⟩, -- UC_PATCH_ID0
   ⟨0x214, [], 0x0, 0x0, 0x0, 0x0, 0x0⟩, -- UC_PATCH_ID1
   ⟨0x218, [], 0x0, 0x0, 0x0, 0x0, 0x0⟩, -- UC_FLOOR
   ⟨0x300, [], 0x0, 0x0, 0x0, 0x0, 0x0⟩, -- SWAP_STATUS
   ⟨0x304, [], 0x0, 0x0, 0x0, 0x0, 0x0⟩, -- SWAP_MASK
   ⟨0x308, [], 0x0, 0x0, 0x0, 0x0, 0x0⟩, -- SWAP_STAMP_LO
   ⟨0x30c, [], 0x0, 0x0, 0x0, 0x0, 0x0⟩] -- SWAP_STAMP_HI

/-- Register rows of the sys block, part 2. -/
def sysRows2 : List RegRow :=
  [⟨0x310, [], 0x0, 0x0, 0x0, 0xffffffff, 0x0⟩, -- SWAP_SKIP
   ⟨0x314, [], 0x0, 0x0, 0x0, 0x0, 0x0⟩] -- SWAP_SEQ

/-- Register rows of the sys block. -/
def sysRows : List RegRow := sysRows1 ++ sysRows2

/-- Register rows of the pwr block, part 1. -/
def pwrRows1 : List RegRow :=
  [⟨0x10000, [], 0x0, 0x0, 0x0, 0x0, 0x3⟩, -- PWR_CTRL
   ⟨0x10004, [], 0x0, 0x0, 0x8, 0x0, 0x0⟩, -- PWR_STATUS
   ⟨0x10008, [], 0x3, 0x0, 0x0, 0x0, 0x0⟩, -- CLK_STATUS
   ⟨0x1000c, [], 0x0, 0x0, 0x0, 0x0, 0x0⟩, -- NAP_LF
   ⟨0x10020, [], 0x80000320, 0x8000ffff, 0x0, 0x0, 0x0⟩, -- CG_CFG
   ⟨0x10024, [], 0x0, 0x0, 0x0, 0x0, 0x0⟩, -- CG_MAP
   ⟨0x10040, [], 0x0, 0x0, 0x0, 0x0, 0xffffff⟩, -- RST_CL
   ⟨0x10044, [], 0x80000000, 0x0, 0x80000100, 0x0, 0x0⟩, -- RST_STATUS
   ⟨0x10050, [], 0x1, 0x3, 0x0, 0x0, 0x0⟩, -- HIB_CFG
   ⟨0x10100, [(24, 0x4)], 0x0, 0x0, 0x0, 0x0, 0x0⟩] -- CG_TICKS

/-- Register rows of the pwr block. -/
def pwrRows : List RegRow := pwrRows1

/-- Register rows of the irq block, part 1. -/
def irqRows1 : List RegRow :=
  [⟨0x20000, [(8, 0x4)], 0x0, 0xffffffff, 0x0, 0x0, 0x0⟩, -- IRQ_ENA
   ⟨0x20100, [(8, 0x4)], 0x0, 0x0, 0xffffffff, 0x0, 0x0⟩, -- IRQ_PEND
   ⟨0x20180, [(8, 0x4)], 0x0, 0x0, 0x0, 0x0, 0xffffffff⟩, -- IRQ_SET
   ⟨0x20200, [(4, 0x4)], 0x0, 0x703, 0x0, 0x0, 0x0⟩, -- PIN_CFG
   ⟨0x20220, [], 0x0, 0x0, 0x0, 0x0, 0xffffffff⟩, -- VEC_DONE
   ⟨0x20224, [], 0x0, 0x0, 0x0, 0x0, 0x0⟩, -- VEC_INSVC
   ⟨0x20240, [(36, 0x4)], 0x0, 0x0, 0x0, 0x0, 0x0⟩, -- TOP
   ⟨0x20400, [(256, 0x4)], 0x0, 0x19fe7, 0x0, 0x0, 0x0⟩, -- ROUTE
   ⟨0x20800, [(256, 0x4)], 0x0, 0x0, 0xffffffff, 0x0, 0x0⟩, -- CAUSE
   ⟨0x21000, [(384, 0x4)], 0x1e, 0x1f, 0x0, 0x0, 0x0⟩, -- CH_IRQ_SEL
   ⟨0x21800, [(24, 0x4)], 0x3f, 0x3f, 0x0, 0x0, 0x0⟩, -- CL_IRQ_SEL
   ⟨0x21900, [(16, 0x4)], 0x1f, 0x1f, 0x0, 0x0, 0x0⟩, -- SH_IRQ_SEL
   ⟨0x21a00, [(24, 0x4)], 0xf, 0xf, 0x0, 0x0, 0x0⟩, -- FB_IRQ_SEL
   ⟨0x21b00, [(64, 0x4)], 0x7, 0x7, 0x0, 0x0, 0x0⟩, -- RING_IRQ_SEL
   ⟨0x2f000, [(32, 0x10)], 0x0, 0xfffffffc, 0x0, 0x0, 0x0⟩, -- MSIX_ADDR_LO
   ⟨0x2f004, [(32, 0x10)], 0x0, 0xffffffff, 0x0, 0x0, 0x0⟩, -- MSIX_ADDR_HI
   ⟨0x2f008, [(32, 0x10)], 0x0, 0xffffffff, 0x0, 0x0, 0x0⟩, -- MSIX_DATA
   ⟨0x2f00c, [(32, 0x10)], 0x1, 0x1, 0x0, 0x0, 0x0⟩, -- MSIX_CTRL
   ⟨0x2f800, [], 0x0, 0x0, 0x0, 0x0, 0x0⟩] -- MSIX_PBA

/-- Register rows of the irq block. -/
def irqRows : List RegRow := irqRows1

/-- Register rows of the hg block, part 1. -/
def hgRows1 : List RegRow :=
  [⟨0x30000, [], 0x0, 0x0, 0x0, 0x0, 0x0⟩, -- HG_STATUS
   ⟨0x30004, [], 0x0, 0x3f3f01, 0x0, 0x0, 0x0⟩, -- PONAR_CFG
   ⟨0x30008, [], 0x0, 0x0, 0x0, 0x0, 0x0⟩, -- PONAR_SESSION
   ⟨0x3000c, [], 0x0, 0x0, 0x1f, 0x0, 0x0⟩, -- HG_EVENT
   ⟨0x30010, [], 0x0, 0x0, 0x0, 0x0, 0x0⟩, -- ACC_ERR_ADDR
   ⟨0x30014, [], 0x0, 0x0, 0x0, 0x0, 0x0⟩, -- ACC_ERR_INFO
   ⟨0x30018, [], 0x0, 0x0, 0x0, 0x0, 0x0⟩, -- LOCK_ADDR
   ⟨0x30020, [], 0x0, 0x0, 0x0, 0xffffffff, 0x0⟩, -- ACC_ERR_CNT
   ⟨0x30024, [], 0x0, 0x0, 0x0, 0xffffffff, 0x0⟩, -- LOCK_REFUSED_CNT
   ⟨0x30028, [], 0x0, 0x0, 0x0, 0xffffffff, 0x0⟩, -- AUTH_FAIL_CNT
   ⟨0x3002c, [], 0x0, 0x0, 0x0, 0xffffffff, 0x0⟩, -- STALE_CNT
   ⟨0x30040, [], 0x0, 0xc00fffff, 0x0, 0x0, 0x0⟩, -- WDOG_CFG
   ⟨0x30044, [], 0x0, 0x0, 0x0, 0x0, 0xffffffff⟩, -- WDOG_KICK
   ⟨0x30048, [], 0x0, 0x0, 0x0, 0x0, 0x0⟩, -- WDOG_STATUS
   ⟨0x30080, [], 0x0, 0xff0007, 0x0, 0x0, 0x0⟩, -- KEY_LOAD_CTRL
   ⟨0x30084, [(4, 0x4)], 0x0, 0x0, 0x0, 0x0, 0xffffffff⟩, -- KEY_LOAD_DATA
   ⟨0x30094, [], 0x0, 0x0, 0x0, 0x0, 0x1⟩, -- KEY_LOAD_GO
   ⟨0x30100, [(8, 0x20)], 0x0, 0x0, 0x0, 0x0, 0x0⟩, -- KEY_INFO
   ⟨0x30104, [(8, 0x20)], 0x0, 0x0, 0x0, 0x0, 0x0⟩, -- CTR_LAST_LO
   ⟨0x30108, [(8, 0x20)], 0x0, 0x0, 0x0, 0x0, 0x0⟩, -- CTR_LAST_HI
   ⟨0x3010c, [(8, 0x20)], 0x0, 0x0, 0x0, 0x0, 0x0⟩, -- CTR_MARK_LO
   ⟨0x30110, [(8, 0x20)], 0x0, 0x0, 0x0, 0x0, 0x0⟩] -- CTR_MARK_HI

/-- Register rows of the hg block. -/
def hgRows : List RegRow := hgRows1

/-- Register rows of the ring block, part 1. -/
def ringRows1 : List RegRow :=
  [⟨0x40000, [(64, 0x40)], 0xfff00000, 0xfff11f01, 0x0, 0x0, 0x0⟩, -- RING_CFG
   ⟨0x40004, [(64, 0x40)], 0x0, 0xffffff, 0x0, 0x0, 0x0⟩, -- RING_BASE
   ⟨0x40008, [(64, 0x40)], 0x0, 0x1ffff, 0x0, 0x0, 0x0⟩, -- RING_WATER
   ⟨0x4000c, [(64, 0x40)], 0x10, 0x0, 0xe, 0x0, 0x0⟩, -- RING_STATUS
   ⟨0x40010, [(64, 0x40)], 0x0, 0x0, 0x0, 0x0, 0x0⟩, -- RING_WR
   ⟨0x40014, [(64, 0x40)], 0x0, 0x0, 0x0, 0x0, 0x0⟩, -- RING_RD
   ⟨0x40018, [(64, 0x40)], 0x0, 0x0, 0x0, 0x0, 0x0⟩, -- RING_FILL
   ⟨0x4001c, [(64, 0x40)], 0x0, 0x0, 0x0, 0x0, 0x0⟩, -- RING_CREDIT
   ⟨0x40020, [(64, 0x40)], 0x0, 0x0, 0x0, 0x0, 0x1ffff⟩, -- HOST_COMMIT
   ⟨0x40024, [(64, 0x40)], 0x0, 0x0, 0x0, 0x0, 0x1ffff⟩, -- HOST_RELEASE
   ⟨0x42000, [(4, 0x4)], 0x0, 0xffffffff, 0x0, 0x0, 0x0⟩, -- HOST_ENTRY
   ⟨0x42010, [], 0x0, 0x3f, 0x0, 0x0, 0x300⟩, -- XFER_CTRL
   ⟨0x42014, [], 0x0, 0x0, 0x0, 0x0, 0x0⟩, -- XFER_STATUS
   ⟨0x43000, [], 0x0, 0x3f, 0x0, 0x0, 0x100⟩, -- RING_SNAP_CTRL
   ⟨0x43004, [], 0x0, 0x0, 0x0, 0x0, 0x0⟩, -- RING_SNAP_SEQ
   ⟨0x43010, [], 0x0, 0x0, 0x0, 0x0, 0x0⟩, -- SNAP_OFFERED_LO
   ⟨0x43014, [], 0x0, 0x0, 0x0, 0x0, 0x0⟩, -- SNAP_OFFERED_HI
   ⟨0x43018, [], 0x0, 0x0, 0x0, 0x0, 0x0⟩, -- SNAP_ADMITTED_LO
   ⟨0x4301c, [], 0x0, 0x0, 0x0, 0x0, 0x0⟩, -- SNAP_ADMITTED_HI
   ⟨0x43020, [], 0x0, 0x0, 0x0, 0x0, 0x0⟩, -- SNAP_CONSUMED_LO
   ⟨0x43024, [], 0x0, 0x0, 0x0, 0x0, 0x0⟩, -- SNAP_CONSUMED_HI
   ⟨0x43028, [], 0x0, 0x0, 0x0, 0x0, 0x0⟩, -- SNAP_SPILL_CREDIT_LO
   ⟨0x4302c, [], 0x0, 0x0, 0x0, 0x0, 0x0⟩, -- SNAP_SPILL_CREDIT_HI
   ⟨0x43030, [], 0x0, 0x0, 0x0, 0x0, 0x0⟩] -- SNAP_SPILL_CLOSED_LO

/-- Register rows of the ring block, part 2. -/
def ringRows2 : List RegRow :=
  [⟨0x43034, [], 0x0, 0x0, 0x0, 0x0, 0x0⟩, -- SNAP_SPILL_CLOSED_HI
   ⟨0x43038, [], 0x0, 0x0, 0x0, 0x0, 0x0⟩, -- SNAP_FLUSHED_LO
   ⟨0x4303c, [], 0x0, 0x0, 0x0, 0x0, 0x0⟩, -- SNAP_FLUSHED_HI
   ⟨0x43040, [], 0x0, 0x0, 0x0, 0x0, 0x0⟩, -- SNAP_SPILL_UE_LO
   ⟨0x43044, [], 0x0, 0x0, 0x0, 0x0, 0x0⟩, -- SNAP_SPILL_UE_HI
   ⟨0x43048, [], 0x0, 0x0, 0x0, 0x0, 0x0⟩, -- SNAP_FILL
   ⟨0x43050, [], 0x0, 0x0, 0x0, 0x0, 0x0⟩, -- SNAP_MT_LO
   ⟨0x43054, [], 0x0, 0x0, 0x0, 0x0, 0x0⟩, -- SNAP_MT_HI
   ⟨0x43080, [(2, 0x4)], 0x0, 0x0, 0xffffffff, 0x0, 0x0⟩] -- SPILL_MAP

/-- Register rows of the ring block. -/
def ringRows : List RegRow := ringRows1 ++ ringRows2

/-- Register rows of the mit block, part 1. -/
def mitRows1 : List RegRow :=
  [⟨0x50000, [(32, 0x4)], 0x0, 0x1ff, 0x0, 0x0, 0x0⟩, -- TRIP_CFG
   ⟨0x50080, [], 0x0, 0x0, 0x0, 0x0, 0x0⟩, -- TRIP_RAW
   ⟨0x50084, [], 0x0, 0x0, 0x0, 0x0, 0x0⟩, -- TRIP_ACTIVE
   ⟨0x50088, [], 0x0, 0x0, 0x0, 0x0, 0x0⟩, -- MIT_FORCING_MAP
   ⟨0x5008c, [], 0x0, 0x0, 0x0, 0x0, 0x0⟩, -- MIT_LATCHED_MAP
   ⟨0x50400, [(32, 0x40)], 0x0, 0x81ff, 0x0, 0x0, 0x0⟩, -- MIT_CTRL
   ⟨0x50404, [(32, 0x40)], 0x0, 0xf, 0x0, 0x0, 0x0⟩, -- MIT_MODE
   ⟨0x50408, [(32, 0x40)], 0x0, 0xffffffff, 0x0, 0x0, 0x0⟩, -- MIT_MASK
   ⟨0x5040c, [(32, 0x40)], 0x0, 0xffff, 0x0, 0x0, 0x0⟩, -- MIT_CUFF
   ⟨0x50410, [(32, 0x40)], 0x0, 0x0, 0x0, 0x0, 0x1⟩, -- MIT_CLR
   ⟨0x50414, [(32, 0x40)], 0xc0, 0x0, 0x38, 0x0, 0x0⟩, -- MIT_STATUS
   ⟨0x50418, [(32, 0x40)], 0x0, 0x0, 0x0, 0xffffffff, 0x0⟩, -- TAKE_CNT
   ⟨0x5041c, [(32, 0x40)], 0x0, 0x0, 0x0, 0xffffffff, 0x0⟩, -- BLANK_CNT
   ⟨0x50420, [(32, 0x40)], 0x0, 0x0, 0x0, 0x0, 0x0⟩, -- MIT_TAKE_LO
   ⟨0x50424, [(32, 0x40)], 0x0, 0x0, 0x0, 0x0, 0x0⟩, -- MIT_TAKE_HI
   ⟨0x51000, [(32, 0x20), (8, 0x4)], 0x0, 0xffffffff, 0x0, 0x0, 0x0⟩, -- MIT_PINS
   ⟨0x52000, [(32, 0x40), (16, 0x4)], 0x0, 0xffffffff, 0x0, 0x0, 0x0⟩] -- MIT_ACT

/-- Register rows of the mit block. -/
def mitRows : List RegRow := mitRows1

/-- Register rows of the pin block, part 1. -/
def pinRows1 : List RegRow :=
  [⟨0x60000, [(256, 0x4)], 0x401f0, 0xf81ff, 0x0, 0x0, 0x0⟩, -- PIN_OUT_SEL
   ⟨0x60400, [(384, 0x4)], 0x3ff, 0xfff, 0x0, 0x0, 0x0⟩, -- CH_IN_SEL
   ⟨0x60c00, [(8, 0x4)], 0x0, 0x0, 0x0, 0x0, 0x0⟩, -- PIN_LEVEL
   ⟨0x60c20, [(8, 0x4)], 0x0, 0x0, 0x0, 0x0, 0x0⟩] -- PIN_FORCED

/-- Register rows of the pin block. -/
def pinRows : List RegRow := pinRows1

/-- Register rows of the adc block, part 1. -/
def adcRows1 : List RegRow :=
  [⟨0x70000, [(4, 0x4)], 0x0, 0x3, 0x0, 0x0, 0x0⟩, -- ADC_CTRL
   ⟨0x70010, [(4, 0x4)], 0x0, 0x0, 0x0, 0x0, 0x0⟩, -- ADC_STATUS
   ⟨0x70040, [], 0x0, 0x0, 0x0, 0x0, 0xbf⟩, -- ADC_REQ
   ⟨0x70100, [(64, 0x4)], 0x0, 0x80007f0f, 0x0, 0x0, 0x0⟩, -- TRIG_CFG
   ⟨0x70200, [(128, 0x4)], 0x0, 0xffbf031f, 0x0, 0x0, 0x0⟩, -- STEP
   ⟨0x70400, [(32, 0x10)], 0xfa00030, 0x1fff00ff, 0x0, 0x0, 0x0⟩, -- AIN_CFG
   ⟨0x70404, [(32, 0x10)], 0x40000000, 0xffffffff, 0x0, 0x0, 0x0⟩, -- AIN_CAL
   ⟨0x70800, [(64, 0x20)], 0x0, 0xffffff, 0x0, 0x0, 0x0⟩, -- ACC_CFG
   ⟨0x70804, [(64, 0x20)], 0x0, 0x0, 0x1, 0x0, 0x0⟩, -- ACC_STATUS
   ⟨0x70808, [(64, 0x20)], 0x0, 0x0, 0x0, 0x0, 0x0⟩, -- ACC_RD_LO
   ⟨0x7080c, [(64, 0x20)], 0x0, 0x0, 0x0, 0xffffffff, 0x0⟩, -- ACC_RDC_LO
   ⟨0x70810, [(64, 0x20)], 0x0, 0x0, 0x0, 0x0, 0x0⟩, -- ACC_RD_HI
   ⟨0x70814, [(64, 0x20)], 0x0, 0x0, 0x0, 0xffffffff, 0x0⟩, -- ACC_OVW_CNT
   ⟨0x71000, [(64, 0x10)], 0xffff, 0x0, 0x0, 0x0, 0x0⟩, -- MM_RD
   ⟨0x71004, [(64, 0x10)], 0xffff, 0x0, 0x0, 0xffffffff, 0x0⟩, -- MM_RDC
   ⟨0x71400, [], 0x0, 0x0, 0x0, 0x0, 0x1⟩, -- ADC_SNAP_CTRL
   ⟨0x71404, [], 0x0, 0x0, 0x0, 0x0, 0x0⟩, -- ADC_SNAP_SEQ
   ⟨0x71410, [], 0x0, 0x0, 0x0, 0x0, 0x0⟩, -- SNAP_REQUESTS_LO
   ⟨0x71414, [], 0x0, 0x0, 0x0, 0x0, 0x0⟩, -- SNAP_REQUESTS_HI
   ⟨0x71418, [], 0x0, 0x0, 0x0, 0x0, 0x0⟩, -- SNAP_EXPANDED_LO
   ⟨0x7141c, [], 0x0, 0x0, 0x0, 0x0, 0x0⟩, -- SNAP_EXPANDED_HI
   ⟨0x71420, [], 0x0, 0x0, 0x0, 0x0, 0x0⟩, -- SNAP_REQ_NULL_LO
   ⟨0x71424, [], 0x0, 0x0, 0x0, 0x0, 0x0⟩, -- SNAP_REQ_NULL_HI
   ⟨0x71428, [], 0x0, 0x0, 0x0, 0x0, 0x0⟩] -- SNAP_ISSUED_LO

/-- Register rows of the adc block, part 2. -/
def adcRows2 : List RegRow :=
  [⟨0x7142c, [], 0x0, 0x0, 0x0, 0x0, 0x0⟩, -- SNAP_ISSUED_HI
   ⟨0x71430, [], 0x0, 0x0, 0x0, 0x0, 0x0⟩, -- SNAP_DELIVERED_LO
   ⟨0x71434, [], 0x0, 0x0, 0x0, 0x0, 0x0⟩, -- SNAP_DELIVERED_HI
   ⟨0x71438, [], 0x0, 0x0, 0x0, 0x0, 0x0⟩, -- SNAP_SPILL_BUSY_LO
   ⟨0x7143c, [], 0x0, 0x0, 0x0, 0x0, 0x0⟩, -- SNAP_SPILL_BUSY_HI
   ⟨0x71440, [], 0x0, 0x0, 0x0, 0x0, 0x0⟩, -- SNAP_SPILL_FULL_LO
   ⟨0x71444, [], 0x0, 0x0, 0x0, 0x0, 0x0⟩, -- SNAP_SPILL_FULL_HI
   ⟨0x71448, [], 0x0, 0x0, 0x0, 0x0, 0x0⟩, -- SNAP_SPILL_CLOSED_LO
   ⟨0x7144c, [], 0x0, 0x0, 0x0, 0x0, 0x0⟩, -- SNAP_SPILL_CLOSED_HI
   ⟨0x71450, [], 0x0, 0x0, 0x0, 0x0, 0x0⟩, -- SNAP_SPILL_SAT_LO
   ⟨0x71454, [], 0x0, 0x0, 0x0, 0x0, 0x0⟩, -- SNAP_SPILL_SAT_HI
   ⟨0x71458, [], 0x0, 0x0, 0x0, 0x0, 0x0⟩, -- SNAP_IN_FLIGHT
   ⟨0x71460, [], 0x0, 0x0, 0x0, 0x0, 0x0⟩, -- SNAP_MT_LO
   ⟨0x71464, [], 0x0, 0x0, 0x0, 0x0, 0x0⟩, -- SNAP_MT_HI
   ⟨0x71480, [], 0x0, 0x0, 0x0, 0x0, 0x0⟩, -- OPEN_MAP
   ⟨0x71484, [], 0x0, 0x0, 0x0, 0xffffffff, 0x0⟩] -- CLIP_CNT

/-- Register rows of the adc block. -/
def adcRows : List RegRow := adcRows1 ++ adcRows2

/-- Register rows of the fb block, part 1. -/
def fbRows1 : List RegRow :=
  [⟨0x80000, [(8, 0x100)], 0x0, 0x3, 0x0, 0x0, 0x0⟩, -- QE_CTRL
   ⟨0x80004, [(8, 0x100)], 0x7ffffff, 0x7ffffff, 0x0, 0x0, 0x0⟩, -- QE_INPUTS
   ⟨0x80008, [(8, 0x100)], 0x0, 0xffffffff, 0x0, 0x0, 0x0⟩, -- QE_CPR
   ⟨0x8000c, [(8, 0x100)], 0x0, 0xff, 0x0, 0x0, 0x0⟩, -- QE_MIN_EDGE
   ⟨0x80030, [(3, 0x1000), (8, 0x100)], 0xc000000, 0xfc00ffff, 0x0, 0x0, 0x0⟩, -- REF_CFG
   ⟨0x80034, [(3, 0x1000), (8, 0x100)], 0x0, 0xffffffff, 0x0, 0x0, 0x0⟩, -- INDEX_POS
   ⟨0x80038, [(3, 0x1000), (8, 0x100)], 0x1008, 0x3ffff, 0x0, 0x0, 0x0⟩, -- SPD_CFG
   ⟨0x8003c, [(3, 0x1000), (8, 0x100)], 0x13880, 0xffffff, 0x0, 0x0, 0x0⟩, -- SPD_GATE
   ⟨0x80040, [(3, 0x1000), (8, 0x100)], 0x0, 0x0, 0x1d8, 0x0, 0x0⟩, -- FB_STATUS
   ⟨0x80044, [(3, 0x1000), (8, 0x100)], 0x0, 0x0, 0x0, 0x0, 0x0⟩, -- POS
   ⟨0x80048, [(3, 0x1000), (8, 0x100)], 0x0, 0x0, 0x0, 0x0, 0x0⟩, -- TURNS
   ⟨0x8004c, [(3, 0x1000), (8, 0x100)], 0x0, 0x0, 0x0, 0x0, 0x0⟩, -- POS_STAMP_LO
   ⟨0x80050, [(3, 0x1000), (8, 0x100)], 0x0, 0x0, 0x0, 0x0, 0x0⟩, -- POS_STAMP_HI
   ⟨0x80054, [(3, 0x1000), (8, 0x100)], 0x0, 0x0, 0x0, 0x0, 0x0⟩, -- SPEED_LO
   ⟨0x80058, [(3, 0x1000), (8, 0x100)], 0x0, 0x0, 0x0, 0x0, 0x0⟩, -- SPEED_HI
   ⟨0x8005c, [(3, 0x1000), (8, 0x100)], 0x0, 0x0, 0x0, 0x0, 0x0⟩, -- LAST_DEV
   ⟨0x80060, [(3, 0x1000), (8, 0x100)], 0x0, 0x0, 0x0, 0xffffffff, 0x0⟩, -- INDEX_SLIP_CNT
   ⟨0x80064, [(3, 0x1000), (8, 0x100)], 0x0, 0x0, 0x0, 0xffffffff, 0x0⟩, -- INDEX_FAULT_CNT
   ⟨0x80068, [(3, 0x1000), (8, 0x100)], 0x0, 0x0, 0x0, 0xffffffff, 0x0⟩, -- REF_LOST_CNT
   ⟨0x8006c, [(3, 0x1000), (8, 0x100)], 0x0, 0x0, 0x0, 0xffffffff, 0x0⟩, -- FAULT_CNT
   ⟨0x80070, [(3, 0x1000), (8, 0x100)], 0x0, 0x0, 0x0, 0xffffffff, 0x0⟩, -- ILLEGAL_CNT
   ⟨0x81000, [(8, 0x100)], 0x0, 0x3, 0x0, 0x0, 0x0⟩, -- AE_CTRL
   ⟨0x81004, [(8, 0x100)], 0x1ff, 0x1ff, 0x0, 0x0, 0x0⟩, -- AE_INPUTS
   ⟨0x81008, [(8, 0x100)], 0x0, 0xffff, 0x0, 0x0, 0x0⟩] -- AE_LINES

/-- Register rows of the fb block, part 2. -/
def fbRows2 : List RegRow :=
  [⟨0x8100c, [(8, 0x100)], 0x40004000, 0xffffffff, 0x0, 0x0, 0x0⟩, -- AE_GAIN
   ⟨0x81010, [(8, 0x100)], 0x0, 0xffffffff, 0x0, 0x0, 0x0⟩, -- AE_OFS
   ⟨0x81014, [(8, 0x100)], 0x0, 0xffff, 0x0, 0x0, 0x0⟩, -- AE_PHASE
   ⟨0x81018, [(8, 0x100)], 0x9c400, 0xffffff, 0x0, 0x0, 0x0⟩, -- AMP_LO
   ⟨0x8101c, [(8, 0x100)], 0x371590, 0xffffff, 0x0, 0x0, 0x0⟩, -- AMP_HI
   ⟨0x81020, [(8, 0x100)], 0x10000, 0xffffff, 0x0, 0x0, 0x0⟩, -- DET_TH
   ⟨0x81024, [(8, 0x100)], 0x4, 0xff, 0x0, 0x0, 0x0⟩, -- AMP_CFG
   ⟨0x81028, [(8, 0x100)], 0x0, 0x0, 0x0, 0x0, 0x0⟩, -- AE_SAMPLE
   ⟨0x8102c, [(8, 0x100)], 0x0, 0x0, 0x0, 0x0, 0x0⟩, -- AE_AMP
   ⟨0x82000, [(8, 0x100)], 0x0, 0x3f, 0x0, 0x0, 0x0⟩, -- SSI_CTRL
   ⟨0x82004, [(8, 0x100)], 0x0, 0x3f3f3f3f, 0x0, 0x0, 0x0⟩, -- SSI_FRAME
   ⟨0x82008, [(8, 0x100)], 0x3e800027, 0xffffffff, 0x0, 0x0, 0x0⟩, -- SSI_TIMING
   ⟨0x8200c, [(8, 0x100)], 0x9c40, 0xffffff, 0x0, 0x0, 0x0⟩, -- SSI_POLL
   ⟨0x82010, [(8, 0x100)], 0x3, 0xffffffff, 0x0, 0x0, 0x0⟩, -- SSI_CHECK
   ⟨0x82014, [(8, 0x100)], 0x0, 0x0, 0x0, 0x0, 0x0⟩, -- SSI_RAW_LO
   ⟨0x82018, [(8, 0x100)], 0x0, 0x0, 0x0, 0x0, 0x0⟩, -- SSI_RAW_HI
   ⟨0x83000, [(8, 0x40)], 0x280000, 0x1ff0f76, 0x0, 0x0, 0x0⟩, -- CV_CTRL
   ⟨0x83004, [(8, 0x40)], 0x0, 0x0, 0x10000, 0x0, 0x0⟩, -- CV_STATUS
   ⟨0x83008, [(8, 0x40)], 0x0, 0x0, 0x0, 0xffffffff, 0x0⟩, -- OVERRUN_CNT
   ⟨0x83400, [(8, 0x40)], 0x0, 0xff18, 0x0, 0x0, 0x6⟩, -- PRB_CTRL
   ⟨0x83404, [(8, 0x40)], 0x1ff, 0x1ff, 0x0, 0x0, 0x0⟩, -- PRB_CH
   ⟨0x83408, [(8, 0x40)], 0x0, 0x0, 0x8, 0x0, 0x0⟩, -- PRB_STATUS
   ⟨0x83410, [(8, 0x40)], 0x0, 0x0, 0x0, 0x0, 0x0⟩, -- PRB_STAMP_LO
   ⟨0x83414, [(8, 0x40)], 0x0, 0x0, 0x0, 0x0, 0x0⟩] -- PRB_STAMP_HI

/-- Register rows of the fb block, part 3. -/
def fbRows3 : List RegRow :=
  [⟨0x83418, [(8, 0x40)], 0x0, 0x0, 0x0, 0x0, 0x0⟩, -- PRB_POS_LO
   ⟨0x8341c, [(8, 0x40)], 0x0, 0x0, 0x0, 0x0, 0x0⟩, -- PRB_POS_HI
   ⟨0x83420, [(8, 0x40)], 0x0, 0x0, 0x0, 0x0, 0x0⟩, -- PRB_SEQ
   ⟨0x83424, [(8, 0x40)], 0x0, 0x0, 0x0, 0x0, 0x0⟩, -- PRB_ARM_LO
   ⟨0x83428, [(8, 0x40)], 0x0, 0x0, 0x0, 0x0, 0x0⟩, -- PRB_ARM_HI
   ⟨0x8342c, [(8, 0x40)], 0x0, 0x0, 0x0, 0xffffffff, 0x0⟩, -- PRB_MISS
   ⟨0x84000, [(32, 0x40)], 0x0, 0x3fefc0, 0x0, 0x0, 0x3⟩, -- PC_CTRL
   ⟨0x84004, [(32, 0x40)], 0x0, 0xffffffff, 0x0, 0x0, 0x0⟩, -- PC_VAL_LO
   ⟨0x84008, [(32, 0x40)], 0x0, 0xffffffff, 0x0, 0x0, 0x0⟩, -- PC_VAL_HI
   ⟨0x8400c, [(32, 0x40)], 0x0, 0x0, 0xe, 0x0, 0x0⟩, -- PC_STATUS
   ⟨0x84010, [(32, 0x40)], 0x0, 0x0, 0x0, 0x0, 0x0⟩, -- PC_STAMP_LO
   ⟨0x84014, [(32, 0x40)], 0x0, 0x0, 0x0, 0x0, 0x0⟩, -- PC_STAMP_HI
   ⟨0x84018, [(32, 0x40)], 0x0, 0x0, 0x0, 0x0, 0x0⟩, -- PC_POS_LO
   ⟨0x8401c, [(32, 0x40)], 0x0, 0x0, 0x0, 0x0, 0x0⟩] -- PC_POS_HI

/-- Register rows of the fb block. -/
def fbRows : List RegRow := fbRows1 ++ fbRows2 ++ fbRows3

/-- Register rows of the shaft block, part 1. -/
def shaftRows1 : List RegRow :=
  [⟨0x90000, [(16, 0x1000)], 0x10000, 0xffff71, 0x0, 0x0, 0x0⟩, -- SH_CTRL
   ⟨0x90004, [(16, 0x1000)], 0x0, 0x0, 0xc00, 0x0, 0x0⟩, -- SH_STATUS
   ⟨0x90008, [(16, 0x1000)], 0x11000, 0xff0337ff, 0x0, 0x0, 0x0⟩, -- WHEEL_CFG
   ⟨0x9000c, [(16, 0x1000)], 0x7ffffff, 0x7ffffff, 0x0, 0x0, 0x0⟩, -- SH_INPUTS
   ⟨0x90010, [(16, 0x1000)], 0x0, 0xffffffff, 0x0, 0x0, 0x0⟩, -- TOOTH0_ANGLE
   ⟨0x90014, [(16, 0x1000)], 0x0, 0xffffffff, 0x0, 0x0, 0x0⟩, -- REV_OFS
   ⟨0x90018, [(16, 0x1000)], 0x20001800, 0xffffffff, 0x0, 0x0, 0x0⟩, -- GAP_CFG
   ⟨0x9001c, [(16, 0x1000)], 0x44000, 0xfffff, 0x0, 0x0, 0x0⟩, -- EST_CFG
   ⟨0x90020, [(16, 0x1000)], 0x0, 0x10f, 0x0, 0x0, 0x0⟩, -- MARKER_CFG
   ⟨0x90024, [(16, 0x1000)], 0x0, 0x0, 0x0, 0x0, 0xf⟩, -- CYCLE_SET
   ⟨0x90030, [(16, 0x1000)], 0x0, 0xffffff, 0x0, 0x0, 0x0⟩, -- HIST_BASE
   ⟨0x90034, [(16, 0x1000)], 0x10, 0x1f, 0x0, 0x0, 0x0⟩, -- HIST_CTRL
   ⟨0x90038, [(16, 0x1000)], 0x0, 0x0, 0x0, 0x0, 0x0⟩, -- HIST_WR
   ⟨0x9003c, [(16, 0x1000)], 0x0, 0x0, 0x0, 0xffffffff, 0x0⟩, -- HIST_LOST
   ⟨0x90040, [(16, 0x1000)], 0x0, 0xffffffff, 0x0, 0x0, 0x0⟩, -- VT_COUNTS
   ⟨0x90050, [(16, 0x1000)], 0x0, 0xffffffff, 0x0, 0x0, 0x0⟩, -- GEN_TARGET_LO
   ⟨0x90054, [(16, 0x1000)], 0x0, 0xffffffff, 0x0, 0x0, 0x0⟩, -- GEN_TARGET_HI
   ⟨0x90058, [(16, 0x1000)], 0x0, 0xffffffff, 0x0, 0x0, 0x0⟩, -- GEN_ACC_LO
   ⟨0x9005c, [(16, 0x1000)], 0x0, 0xffffffff, 0x0, 0x0, 0x0⟩, -- GEN_ACC_HI
   ⟨0x90060, [(16, 0x1000)], 0x0, 0x0, 0x0, 0x0, 0x3⟩, -- GEN_CTRL
   ⟨0x90080, [(16, 0x1000)], 0x0, 0x0, 0x0, 0x0, 0x1⟩, -- SNAP_CTRL
   ⟨0x90084, [(16, 0x1000)], 0x0, 0x0, 0x0, 0x0, 0x0⟩, -- SNAP_SEQ
   ⟨0x90088, [(16, 0x1000)], 0x0, 0x0, 0x0, 0x0, 0x0⟩, -- SNAP_POS_LO
   ⟨0x9008c, [(16, 0x1000)], 0x0, 0x0, 0x0, 0x0, 0x0⟩] -- SNAP_POS_HI

/-- Register rows of the shaft block, part 2. -/
def shaftRows2 : List RegRow :=
  [⟨0x90090, [(16, 0x1000)], 0x0, 0x0, 0x0, 0x0, 0x0⟩, -- SNAP_VEL_LO
   ⟨0x90094, [(16, 0x1000)], 0x0, 0x0, 0x0, 0x0, 0x0⟩, -- SNAP_VEL_HI
   ⟨0x90098, [(16, 0x1000)], 0x0, 0x0, 0x0, 0x0, 0x0⟩, -- SNAP_ACC_LO
   ⟨0x9009c, [(16, 0x1000)], 0x0, 0x0, 0x0, 0x0, 0x0⟩, -- SNAP_ACC_HI
   ⟨0x900a0, [(16, 0x1000)], 0x0, 0x0, 0x0, 0x0, 0x0⟩, -- SNAP_MT_LO
   ⟨0x900a4, [(16, 0x1000)], 0x0, 0x0, 0x0, 0x0, 0x0⟩, -- SNAP_MT_HI
   ⟨0x900a8, [(16, 0x1000)], 0x7ff, 0x0, 0x0, 0x0, 0x0⟩, -- SNAP_INFO
   ⟨0x900c0, [(16, 0x1000)], 0x0, 0x0, 0x0, 0x0, 0x0⟩, -- LAST_TOOTH_LO
   ⟨0x900c4, [(16, 0x1000)], 0x0, 0x0, 0x0, 0x0, 0x0⟩, -- LAST_TOOTH_HI
   ⟨0x900c8, [(16, 0x1000)], 0x3fffffff, 0x0, 0x0, 0x0, 0x0⟩, -- PRED_PERIOD
   ⟨0x900cc, [(16, 0x1000)], 0x0, 0x0, 0x0, 0x0, 0x0⟩, -- LAST_PERIOD
   ⟨0x900d0, [(16, 0x1000)], 0x0, 0x0, 0x0, 0x0, 0x0⟩, -- JUMP_LO
   ⟨0x900d4, [(16, 0x1000)], 0x0, 0x0, 0x0, 0x0, 0x0⟩, -- JUMP_HI
   ⟨0x900d8, [(16, 0x1000)], 0x0, 0x0, 0x0, 0x0, 0x0⟩, -- JUMP_INFO
   ⟨0x90100, [(16, 0x1000)], 0x0, 0x0, 0x0, 0xffffffff, 0x0⟩, -- FILT_CNT
   ⟨0x90104, [(16, 0x1000)], 0x0, 0x0, 0x0, 0xffffffff, 0x0⟩, -- NOISE_CNT
   ⟨0x90108, [(16, 0x1000)], 0x0, 0x0, 0x0, 0xffffffff, 0x0⟩, -- SYNTH_CNT
   ⟨0x9010c, [(16, 0x1000)], 0x0, 0x0, 0x0, 0xffffffff, 0x0⟩, -- SHIFT_CNT
   ⟨0x90110, [(16, 0x1000)], 0x0, 0x0, 0x0, 0xffffffff, 0x0⟩, -- GAP_MISS_CNT
   ⟨0x90114, [(16, 0x1000)], 0x0, 0x0, 0x0, 0xffffffff, 0x0⟩, -- CAND_FAIL_CNT
   ⟨0x90118, [(16, 0x1000)], 0x0, 0x0, 0x0, 0xffffffff, 0x0⟩, -- LOST_CNT
   ⟨0x9011c, [(16, 0x1000)], 0x0, 0x0, 0x0, 0xffffffff, 0x0⟩, -- PHASE_ERR_CNT
   ⟨0x90120, [(16, 0x1000)], 0x0, 0x0, 0x0, 0xffffffff, 0x0⟩] -- STALL_CNT

/-- Register rows of the shaft block. -/
def shaftRows : List RegRow := shaftRows1 ++ shaftRows2

/-- Register rows of the net block, part 1. -/
def netRows1 : List RegRow :=
  [⟨0xa0000, [], 0xf632, 0xff73, 0x0, 0x0, 0x0⟩, -- TS_CTRL
   ⟨0xa0004, [], 0x0, 0x0, 0x8, 0x0, 0x0⟩, -- TS_STATUS
   ⟨0xa0008, [], 0x0, 0x0, 0x0, 0x0, 0x0⟩, -- NT_OFS_LO
   ⟨0xa000c, [], 0x0, 0x0, 0x0, 0x0, 0x0⟩, -- NT_OFS_HI
   ⟨0xa0010, [], 0x0, 0x0, 0x0, 0x0, 0x0⟩, -- RATE_TRIM
   ⟨0xa0014, [], 0x0, 0x0, 0x0, 0x0, 0x0⟩, -- OFFSET
   ⟨0xa0018, [], 0x0, 0x0, 0x0, 0x0, 0x0⟩, -- GM_ID_LO
   ⟨0xa001c, [], 0x0, 0x0, 0x0, 0x0, 0x0⟩, -- GM_ID_HI
   ⟨0xa0020, [], 0x0, 0x0, 0x0, 0xffffffff, 0x0⟩, -- NT_STEP_CNT
   ⟨0xa0030, [], 0x0, 0x0, 0x0, 0x0, 0x1⟩, -- TS_SNAP_CTRL
   ⟨0xa0038, [], 0x0, 0x0, 0x0, 0x0, 0x0⟩, -- TS_SNAP_MT_LO
   ⟨0xa003c, [], 0x0, 0x0, 0x0, 0x0, 0x0⟩, -- TS_SNAP_MT_HI
   ⟨0xa0040, [], 0x0, 0x0, 0x0, 0x0, 0x0⟩, -- TS_SNAP_NT_LO
   ⟨0xa0044, [], 0x0, 0x0, 0x0, 0x0, 0x0⟩, -- TS_SNAP_NT_HI
   ⟨0xa1000, [(2, 0x400)], 0x18, 0x7f, 0x0, 0x0, 0x0⟩, -- PORT_CTRL
   ⟨0xa1004, [(2, 0x400)], 0x0, 0x0, 0xe, 0x0, 0x0⟩, -- PORT_STATUS
   ⟨0xa1008, [(2, 0x400)], 0x0, 0x0, 0x0, 0x0, 0x0⟩, -- MAC_LO
   ⟨0xa100c, [(2, 0x400)], 0x0, 0x0, 0x0, 0x0, 0x0⟩, -- MAC_HI
   ⟨0xa1010, [(2, 0x400)], 0x0, 0xffffffff, 0x0, 0x0, 0x0⟩, -- IP_ADDR
   ⟨0xa1014, [(2, 0x400)], 0x0, 0xffffffff, 0x0, 0x0, 0x0⟩, -- IP_MASK
   ⟨0xa1018, [(2, 0x400)], 0x4b514b50, 0xffffffff, 0x0, 0x0, 0x0⟩, -- UDP_PORTS
   ⟨0xa101c, [(2, 0x400)], 0x4b520000, 0xffff3f3f, 0x0, 0x0, 0x0⟩, -- USER_CFG
   ⟨0xa1020, [(2, 0x400)], 0x0, 0xffffffff, 0x0, 0x0, 0x0⟩, -- TX_DEST_IP
   ⟨0xa1024, [(2, 0x400)], 0x0, 0xffff, 0x0, 0x0, 0x0⟩] -- TX_DEST_UDP

/-- Register rows of the net block, part 2. -/
def netRows2 : List RegRow :=
  [⟨0xa1028, [(2, 0x400)], 0x60000000, 0xfe000fff, 0x0, 0x0, 0x0⟩, -- VLAN_CFG
   ⟨0xa102c, [(2, 0x400)], 0xa, 0xff, 0x0, 0x0, 0x0⟩, -- SESS_CFG
   ⟨0xa1040, [(2, 0x400)], 0x0, 0x0, 0x0, 0xffffffff, 0x0⟩, -- RX_DISCARD
   ⟨0xa1044, [(2, 0x400)], 0x0, 0x0, 0x0, 0xffffffff, 0x0⟩, -- PONAR_DISCARD
   ⟨0xa1048, [(2, 0x400)], 0x0, 0x0, 0x0, 0xffffffff, 0x0⟩, -- PEER_NEW_CNT
   ⟨0xa104c, [(2, 0x400)], 0x0, 0x0, 0x0, 0xffffffff, 0x0⟩, -- PEER_GONE_CNT
   ⟨0xa1050, [(2, 0x400)], 0x0, 0x0, 0x0, 0xffffffff, 0x0⟩, -- PEER_FULL_CNT
   ⟨0xa2000, [(2, 0x800), (32, 0x40)], 0x0, 0x0, 0x0, 0x0, 0x0⟩, -- PEER_INFO
   ⟨0xa2004, [(2, 0x800), (32, 0x40)], 0x0, 0x0, 0x0, 0x0, 0x0⟩, -- PEER_IP
   ⟨0xa2008, [(2, 0x800), (32, 0x40)], 0x0, 0x0, 0x0, 0x0, 0x0⟩, -- PEER_UDP
   ⟨0xa200c, [(2, 0x800), (32, 0x40)], 0x0, 0x0, 0x0, 0x0, 0x0⟩, -- PEER_ID_LO
   ⟨0xa2010, [(2, 0x800), (32, 0x40)], 0x0, 0x0, 0x0, 0x0, 0x0⟩, -- PEER_ID_HI
   ⟨0xa2014, [(2, 0x800), (32, 0x40)], 0x0, 0x0, 0x0, 0x0, 0x0⟩, -- PEER_AGE
   ⟨0xa2018, [(2, 0x800), (32, 0x40)], 0x0, 0x0, 0x0, 0x0, 0x0⟩, -- PEER_PART
   ⟨0xa201c, [(2, 0x800), (32, 0x40)], 0x0, 0x0, 0x0, 0x0, 0x0⟩, -- PEER_UCODE
   ⟨0xa4000, [(16, 0x20)], 0x2, 0xf, 0x0, 0x0, 0x0⟩, -- EXP_CTRL
   ⟨0xa4004, [(16, 0x20)], 0x0, 0x3ffff, 0x0, 0x0, 0x0⟩, -- EXP_PHASE
   ⟨0xa4008, [(16, 0x20)], 0x0, 0xffffffff, 0x0, 0x0, 0x0⟩, -- EXP_DEST_IP
   ⟨0xa400c, [(16, 0x20)], 0x0, 0x0, 0x0, 0x0, 0x0⟩, -- EXP_SEQ
   ⟨0xa4010, [(16, 0x20)], 0x0, 0x0, 0x0, 0x0, 0x0⟩, -- EXP_SENT
   ⟨0xa4014, [(16, 0x20)], 0x0, 0x0, 0x0, 0xffffffff, 0x0⟩, -- EXP_HELD
   ⟨0xa5000, [(16, 0x40)], 0x40003, 0xff0f03, 0x0, 0x0, 0x0⟩, -- IMP_CFG
   ⟨0xa5004, [(16, 0x40)], 0x14, 0xffff, 0x0, 0x0, 0x0⟩, -- IMP_COAST
   ⟨0xa5008, [(16, 0x40)], 0x27100, 0xffffff, 0x0, 0x0, 0x0⟩] -- IMP_MAX_AGE

/-- Register rows of the net block, part 3. -/
def netRows3 : List RegRow :=
  [⟨0xa500c, [(16, 0x40)], 0x0, 0xffffffff, 0x0, 0x0, 0x0⟩, -- IMP_ID_LO
   ⟨0xa5010, [(16, 0x40)], 0x0, 0xffff, 0x0, 0x0, 0x0⟩, -- IMP_ID_HI
   ⟨0xa5014, [(16, 0x40)], 0x0, 0x0, 0x800000, 0x0, 0x0⟩, -- IMP_STATUS
   ⟨0xa5018, [(16, 0x40)], 0x0, 0x0, 0x0, 0x0, 0x0⟩, -- IMP_LAST_LO
   ⟨0xa501c, [(16, 0x40)], 0x0, 0x0, 0x0, 0x0, 0x0⟩, -- IMP_LAST_HI
   ⟨0xa5020, [(16, 0x40)], 0x0, 0x0, 0x0, 0x0, 0x0⟩, -- IMP_RX
   ⟨0xa5024, [(16, 0x40)], 0x0, 0x0, 0x0, 0xffffffff, 0x0⟩, -- IMP_REJECT
   ⟨0xa5028, [(16, 0x40)], 0x0, 0x0, 0x0, 0xffffffff, 0x0⟩, -- IMP_DUP
   ⟨0xa502c, [(16, 0x40)], 0x0, 0x0, 0x0, 0xffffffff, 0x0⟩, -- IMP_MISSED
   ⟨0xa5030, [(16, 0x40)], 0x0, 0x0, 0x0, 0xffffffff, 0x0⟩] -- IMP_COAST_CNT

/-- Register rows of the net block. -/
def netRows : List RegRow := netRows1 ++ netRows2 ++ netRows3

/-- Register rows of the life block, part 1. -/
def lifeRows1 : List RegRow :=
  [⟨0xb0000, [], 0x0, 0x0, 0x0, 0x0, 0x0⟩, -- CAL_LO
   ⟨0xb0004, [], 0x0, 0x0, 0x0, 0x0, 0x0⟩, -- CAL_HI
   ⟨0xb0008, [], 0x0, 0xffffffff, 0x0, 0x0, 0x0⟩, -- CAL_SET_LO
   ⟨0xb000c, [], 0x0, 0xffffffff, 0x0, 0x0, 0x0⟩, -- CAL_SET_HI
   ⟨0xb0010, [], 0x0, 0x6, 0x0, 0x0, 0x1⟩, -- CAL_CTRL
   ⟨0xb0014, [], 0x0, 0x0, 0xe, 0x0, 0x0⟩, -- CAL_STATUS
   ⟨0xb0018, [], 0x0, 0xffffffff, 0x0, 0x0, 0x0⟩, -- CAL_ALARM_LO
   ⟨0xb001c, [], 0x0, 0xffff, 0x0, 0x0, 0x0⟩, -- CAL_ALARM_HI
   ⟨0xb0020, [], 0x0, 0x0, 0x0, 0xffffffff, 0x0⟩, -- CAL_STEP_CNT
   ⟨0xb0100, [(64, 0x4)], 0x0, 0x8f0001ff, 0x0, 0x0, 0x0⟩, -- WEAR_CFG
   ⟨0xb0200, [(64, 0x8)], 0x0, 0x0, 0x0, 0x0, 0x0⟩, -- WEAR_LO
   ⟨0xb0204, [(64, 0x8)], 0x0, 0x0, 0x0, 0x0, 0x0⟩, -- WEAR_HI
   ⟨0xb0400, [], 0x0, 0xffffffff, 0x0, 0x0, 0x0⟩, -- WEAR_ADD_VAL
   ⟨0xb0404, [], 0x0, 0x0, 0x0, 0x0, 0x33f⟩, -- WEAR_OP
   ⟨0xb0408, [], 0x0, 0x0, 0x0, 0x0, 0x1⟩, -- WEAR_TAKE
   ⟨0xb040c, [], 0x0, 0x0, 0x0, 0x0, 0x0⟩, -- WEAR_SNAP_SEQ
   ⟨0xb0410, [], 0x0, 0x0, 0x1, 0x0, 0x0⟩, -- WEAR_STATUS
   ⟨0xb0418, [(2, 0x4)], 0x0, 0x0, 0xffffffff, 0x0, 0x0⟩, -- SAT_MAP
   ⟨0xb0500, [(64, 0x8)], 0x0, 0x0, 0x0, 0x0, 0x0⟩, -- WSNAP_LO
   ⟨0xb0504, [(64, 0x8)], 0x0, 0x0, 0x0, 0x0, 0x0⟩, -- WSNAP_HI
   ⟨0xb0700, [], 0x0, 0x0, 0x0, 0x0, 0x0⟩, -- WSNAP_CAL_LO
   ⟨0xb0704, [], 0x0, 0x0, 0x0, 0x0, 0x0⟩, -- WSNAP_CAL_HI
   ⟨0xb0800, [], 0xe10, 0xffff, 0x0, 0x0, 0x0⟩, -- MIR_CFG
   ⟨0xb0804, [], 0x0, 0x0, 0x0, 0x0, 0x1⟩] -- MIR_CTRL

/-- Register rows of the life block, part 2. -/
def lifeRows2 : List RegRow :=
  [⟨0xb0808, [], 0x0, 0x0, 0x1, 0x0, 0x0⟩, -- MIR_STATUS
   ⟨0xb080c, [], 0x0, 0x0, 0x0, 0x0, 0x0⟩, -- MIR_EPOCH
   ⟨0xb0810, [], 0x0, 0x0, 0x0, 0x0, 0x0⟩, -- LOST_EPOCHS
   ⟨0xb0814, [], 0x0, 0x0, 0x0, 0xffffffff, 0x0⟩, -- MIR_FAIL_CNT
   ⟨0xb0900, [], 0x0, 0x0, 0x0, 0x0, 0x0⟩, -- TEMP
   ⟨0xb1000, [(256, 0x4)], 0x0, 0x0, 0x0, 0x0, 0x0⟩, -- TRIM_OUT
   ⟨0xb1400, [(256, 0x4)], 0x0, 0x0, 0x0, 0x0, 0x0⟩] -- TRIM_IN

/-- Register rows of the life block. -/
def lifeRows : List RegRow := lifeRows1 ++ lifeRows2

/-- Register rows of the cal block, part 1. -/
def calRows1 : List RegRow :=
  [⟨0xc0000, [], 0x1, 0x1, 0x0, 0x0, 0x0⟩, -- CAL_CTRL
   ⟨0xc0004, [], 0x6, 0x0, 0x0, 0x0, 0x0⟩, -- CAL_STATUS
   ⟨0xc0008, [], 0x0, 0x0, 0x0, 0x0, 0x0⟩, -- CAL_ROUND
   ⟨0xc000c, [], 0x0, 0x0, 0x0, 0xffffffff, 0x0⟩, -- CAL_FAIL
   ⟨0xc0010, [], 0x0, 0x0, 0x0, 0xffffffff, 0x0⟩, -- TDC_SKIP
   ⟨0xc0040, [(12, 0x4)], 0xffffffff, 0x0, 0x0, 0x0, 0x0⟩, -- CAL_STALE_MAP
   ⟨0xc0080, [(12, 0x4)], 0x0, 0x0, 0x0, 0x0, 0x0⟩] -- CAL_FAULT_MAP

/-- Register rows of the cal block. -/
def calRows : List RegRow := calRows1

/-- Register rows of the ch block, part 1. -/
def chRows1 : List RegRow :=
  [⟨0x1000000, [(24, 0x100000), (16, 0x400)], 0x0, 0xf00711, 0x0, 0x0, 0x0⟩, -- CH_CTRL
   ⟨0x1000004, [(24, 0x100000), (16, 0x400)], 0x8, 0x0, 0xe0, 0x0, 0x0⟩, -- CH_STATUS
   ⟨0x1000008, [(24, 0x100000), (16, 0x400)], 0x0, 0xffff, 0x0, 0x0, 0x0⟩, -- PRESCALE
   ⟨0x100000c, [(24, 0x100000), (16, 0x400)], 0x0, 0xffffffff, 0x0, 0x0, 0x0⟩, -- PERIOD
   ⟨0x1000010, [(24, 0x100000), (16, 0x400)], 0x0, 0xffffffff, 0x0, 0x0, 0x0⟩, -- COUNT
   ⟨0x1000014, [(24, 0x100000), (16, 0x400)], 0x0, 0x0, 0x0, 0x0, 0x0⟩, -- PERIOD_ACT
   ⟨0x1000018, [(24, 0x100000), (8, 0x800)], 0x0, 0x0, 0x0, 0x0, 0x1⟩, -- PAIR_SNAPSHOT
   ⟨0x100001c, [(24, 0x100000), (8, 0x800)], 0x0, 0x0, 0x0, 0x0, 0x0⟩, -- PAIR_SNAP_SEQ
   ⟨0x1000020, [(24, 0x100000), (16, 0x400), (4, 0x4)], 0x0, 0xffffffff, 0x0, 0x0, 0x0⟩, -- CMP
   ⟨0x1000030, [(24, 0x100000), (16, 0x400)], 0x0, 0xff, 0x0, 0x0, 0x0⟩, -- CMP_CFG
   ⟨0x1000034, [(24, 0x100000), (16, 0x400)], 0x0, 0x0, 0xfff, 0x0, 0x0⟩, -- CMP_STATUS
   ⟨0x1000040, [(24, 0x100000), (16, 0x400), (4, 0x4)], 0x0, 0x0, 0x0, 0x0, 0x0⟩, -- CMP_ACT
   ⟨0x1000050, [(24, 0x100000), (8, 0x800)], 0x0, 0x0, 0x0, 0x0, 0x0⟩, -- PAIR_SNAP_LO
   ⟨0x1000054, [(24, 0x100000), (8, 0x800)], 0x0, 0x0, 0x0, 0x0, 0x0⟩, -- PAIR_SNAP_HI
   ⟨0x1000058, [(24, 0x100000), (8, 0x800)], 0x0, 0x0, 0x0, 0x0, 0x0⟩, -- PAIR_SNAP_MT_LO
   ⟨0x100005c, [(24, 0x100000), (8, 0x800)], 0x0, 0x0, 0x0, 0x0, 0x0⟩, -- PAIR_SNAP_MT_HI
   ⟨0x1000060, [(24, 0x100000), (16, 0x400)], 0x0, 0xf07, 0x0, 0x0, 0x0⟩, -- OUT_CTRL
   ⟨0x1000064, [(24, 0x100000), (16, 0x400)], 0x0, 0x3f3f3f, 0x0, 0x0, 0x0⟩, -- OUT_FINE
   ⟨0x1000068, [(24, 0x100000), (8, 0x800)], 0x0, 0xffffffff, 0x0, 0x0, 0x0⟩, -- DT_CFG
   ⟨0x100006c, [(24, 0x100000), (16, 0x400)], 0x0, 0xbf, 0x0, 0x0, 0x0⟩, -- TRIG_CFG
   ⟨0x1000070, [(24, 0x100000), (16, 0x400)], 0x2, 0x0, 0x5, 0x0, 0x0⟩, -- OUT_STATUS
   ⟨0x1000074, [(24, 0x100000), (16, 0x400)], 0x0, 0x0, 0x0, 0xffffffff, 0x0⟩, -- SWALLOW_CNT
   ⟨0x1000080, [(24, 0x100000), (16, 0x400)], 0x0, 0x0, 0x0, 0x0, 0x3⟩, -- PT_CTRL
   ⟨0x1000084, [(24, 0x100000), (16, 0x400)], 0x0, 0xffffffff, 0x0, 0x0, 0x0⟩] -- PT_CMD

/-- Register rows of the ch block, part 2. -/
def chRows2 : List RegRow :=
  [⟨0x1000088, [(24, 0x100000), (16, 0x400)], 0x0, 0x0, 0x0, 0x0, 0x0⟩, -- PT_EMIT
   ⟨0x100008c, [(24, 0x100000), (16, 0x400)], 0x0, 0x0, 0x0, 0x0, 0x0⟩, -- PT_SKIP
   ⟨0x1000090, [(24, 0x100000), (16, 0x400)], 0x0, 0x0, 0x0, 0x0, 0x0⟩, -- PT_REMAIN
   ⟨0x1000094, [(24, 0x100000), (16, 0x400)], 0x0, 0x0, 0x1e, 0x0, 0x0⟩, -- PT_STATUS
   ⟨0x1000100, [(24, 0x100000), (16, 0x400)], 0x0, 0x3, 0x0, 0x0, 0x0⟩, -- EU_CTRL
   ⟨0x1000104, [(24, 0x100000), (16, 0x400)], 0xffff0068, 0x0, 0x10, 0x0, 0x0⟩, -- EU_STATUS
   ⟨0x1000108, [(24, 0x100000), (16, 0x400)], 0x0, 0x0, 0x0, 0x0, 0x0⟩, -- EU_TAPS
   ⟨0x100010c, [(24, 0x100000), (16, 0x400)], 0x0, 0x0, 0x0, 0x0, 0x0⟩, -- SWAP_CNT
   ⟨0x1000110, [(24, 0x100000), (16, 0x400)], 0x0, 0x0, 0x0, 0xffffffff, 0x0⟩, -- SWAP_LATE
   ⟨0x1000120, [(24, 0x100000), (16, 0x400)], 0x0, 0xf038, 0x0, 0x0, 0x6⟩, -- CAP_CTRL
   ⟨0x1000124, [(24, 0x100000), (16, 0x400)], 0x0, 0x0, 0x4, 0x0, 0x0⟩, -- CAP_STATUS
   ⟨0x1000128, [(24, 0x100000), (16, 0x400)], 0x0, 0x0, 0x0, 0x0, 0x0⟩, -- CAP_RISE_LO
   ⟨0x100012c, [(24, 0x100000), (16, 0x400)], 0x0, 0x0, 0x0, 0x0, 0x0⟩, -- CAP_RISE_HI
   ⟨0x1000130, [(24, 0x100000), (16, 0x400)], 0x0, 0x0, 0x0, 0x0, 0x0⟩, -- CAP_FALL_LO
   ⟨0x1000134, [(24, 0x100000), (16, 0x400)], 0x0, 0x0, 0x0, 0x0, 0x0⟩, -- CAP_FALL_HI
   ⟨0x1000138, [(24, 0x100000), (16, 0x400)], 0x0, 0x0, 0x0, 0x0, 0x0⟩, -- CAP_WIDTH_LO
   ⟨0x100013c, [(24, 0x100000), (16, 0x400)], 0x0, 0x0, 0x0, 0x0, 0x0⟩, -- CAP_WIDTH_HI
   ⟨0x1000140, [(24, 0x100000), (16, 0x400)], 0x0, 0x0, 0x0, 0x0, 0x0⟩, -- CAP_SEQ
   ⟨0x1000144, [(24, 0x100000), (16, 0x400)], 0x0, 0x0, 0x0, 0xffffffff, 0x0⟩, -- GLITCH_CNT
   ⟨0x1000148, [(24, 0x100000), (16, 0x400)], 0x0, 0x0, 0x0, 0x0, 0x0⟩, -- CAP_ARM_LO
   ⟨0x100014c, [(24, 0x100000), (16, 0x400)], 0x0, 0x0, 0x0, 0x0, 0x0⟩] -- CAP_ARM_HI

/-- Register rows of the ch block. -/
def chRows : List RegRow := chRows1 ++ chRows2

/-- Register rows of the weir block, part 1. -/
def weirRows1 : List RegRow :=
  [⟨0x1004000, [(24, 0x100000)], 0x0, 0x0, 0x0, 0x0, 0x0⟩, -- WEIR_STATUS
   ⟨0x1004008, [(24, 0x100000)], 0x0, 0x0, 0x0, 0x0, 0x0⟩, -- HEAD_LO
   ⟨0x100400c, [(24, 0x100000)], 0x0, 0x0, 0x0, 0x0, 0x0⟩, -- HEAD_HI
   ⟨0x1004010, [(24, 0x100000), (6, 0x4)], 0x0, 0xffffffff, 0x0, 0x0, 0x0⟩, -- POST_W
   ⟨0x1004028, [(24, 0x100000)], 0x0, 0x0, 0x0, 0x0, 0x1⟩, -- POST_GO
   ⟨0x100402c, [(24, 0x100000)], 0x0, 0x0, 0x0, 0x0, 0x0⟩, -- POST_RESULT
   ⟨0x1004030, [(24, 0x100000)], 0x0, 0xfff0fff, 0x0, 0x0, 0x0⟩, -- CANCEL_SEL
   ⟨0x1004034, [(24, 0x100000)], 0x0, 0x0, 0x0, 0x0, 0x1⟩, -- CANCEL_GO
   ⟨0x1004038, [(24, 0x100000)], 0x0, 0x0, 0x0, 0x0, 0x0⟩, -- CANCEL_RESULT
   ⟨0x1004040, [(24, 0x100000)], 0x0, 0x0, 0x0, 0x0, 0x1⟩, -- LEDGER_TAKE
   ⟨0x1004044, [(24, 0x100000)], 0x0, 0x0, 0x0, 0x0, 0x0⟩, -- LEDGER_SEQ
   ⟨0x1004080, [(24, 0x100000)], 0x0, 0x0, 0x0, 0x0, 0x0⟩, -- SNAP_ACCEPTED_LO
   ⟨0x1004084, [(24, 0x100000)], 0x0, 0x0, 0x0, 0x0, 0x0⟩, -- SNAP_ACCEPTED_HI
   ⟨0x1004088, [(24, 0x100000)], 0x0, 0x0, 0x0, 0x0, 0x0⟩, -- SNAP_COMPLETED_LO
   ⟨0x100408c, [(24, 0x100000)], 0x0, 0x0, 0x0, 0x0, 0x0⟩, -- SNAP_COMPLETED_HI
   ⟨0x1004090, [(24, 0x100000)], 0x0, 0x0, 0x0, 0x0, 0x0⟩, -- SNAP_LATE_LO
   ⟨0x1004094, [(24, 0x100000)], 0x0, 0x0, 0x0, 0x0, 0x0⟩, -- SNAP_LATE_HI
   ⟨0x1004098, [(24, 0x100000)], 0x0, 0x0, 0x0, 0x0, 0x0⟩, -- SNAP_SHORTENED_LO
   ⟨0x100409c, [(24, 0x100000)], 0x0, 0x0, 0x0, 0x0, 0x0⟩, -- SNAP_SHORTENED_HI
   ⟨0x10040a0, [(24, 0x100000)], 0x0, 0x0, 0x0, 0x0, 0x0⟩, -- SNAP_DROP_PAST_LO
   ⟨0x10040a4, [(24, 0x100000)], 0x0, 0x0, 0x0, 0x0, 0x0⟩, -- SNAP_DROP_PAST_HI
   ⟨0x10040a8, [(24, 0x100000)], 0x0, 0x0, 0x0, 0x0, 0x0⟩, -- SNAP_DROP_SYNC_LO
   ⟨0x10040ac, [(24, 0x100000)], 0x0, 0x0, 0x0, 0x0, 0x0⟩, -- SNAP_DROP_SYNC_HI
   ⟨0x10040b0, [(24, 0x100000)], 0x0, 0x0, 0x0, 0x0, 0x0⟩] -- SNAP_CANCELLED_LO

/-- Register rows of the weir block, part 2. -/
def weirRows2 : List RegRow :=
  [⟨0x10040b4, [(24, 0x100000)], 0x0, 0x0, 0x0, 0x0, 0x0⟩, -- SNAP_CANCELLED_HI
   ⟨0x10040b8, [(24, 0x100000)], 0x0, 0x0, 0x0, 0x0, 0x0⟩, -- SNAP_ZERO_LO
   ⟨0x10040bc, [(24, 0x100000)], 0x0, 0x0, 0x0, 0x0, 0x0⟩, -- SNAP_ZERO_HI
   ⟨0x10040c0, [(24, 0x100000)], 0x0, 0x0, 0x0, 0x0, 0x0⟩, -- SNAP_PENDING
   ⟨0x10040c8, [(24, 0x100000)], 0x0, 0x0, 0x0, 0x0, 0x0⟩, -- SNAP_MT_LO
   ⟨0x10040cc, [(24, 0x100000)], 0x0, 0x0, 0x0, 0x0, 0x0⟩, -- SNAP_MT_HI
   ⟨0x1004100, [(24, 0x100000)], 0x0, 0x0, 0x0, 0xffffffff, 0x0⟩, -- WEIR_FULL_CNT
   ⟨0x1004104, [(24, 0x100000)], 0x0, 0x0, 0x0, 0xffffffff, 0x0⟩, -- POST_REFUSED_CNT
   ⟨0x1004108, [(24, 0x100000)], 0x0, 0x0, 0x0, 0xffffffff, 0x0⟩, -- CONGEST_CNT
   ⟨0x100410c, [(24, 0x100000)], 0x0, 0x0, 0x0, 0xffffffff, 0x0⟩, -- ACT_REFUSED_CNT
   ⟨0x1004110, [(24, 0x100000)], 0x0, 0x0, 0x0, 0xffffffff, 0x0⟩] -- STALL_ABORT_CNT

/-- Register rows of the weir block. -/
def weirRows : List RegRow := weirRows1 ++ weirRows2

/-- Register rows of the cl block, part 1. -/
def clRows1 : List RegRow :=
  [⟨0x1005000, [(24, 0x100000)], 0x0, 0xffff, 0x0, 0x0, 0x0⟩, -- CL_CTRL
   ⟨0x1005004, [(24, 0x100000)], 0x0, 0x0, 0x0, 0x0, 0x0⟩, -- CL_STATUS
   ⟨0x1005010, [(24, 0x100000)], 0x0, 0x0, 0x0, 0x0, 0x0⟩, -- CL_READY_MAP
   ⟨0x1005014, [(24, 0x100000)], 0x0, 0x0, 0x0, 0x0, 0x0⟩, -- CL_WAIT_MAP
   ⟨0x1005018, [(24, 0x100000)], 0x0, 0x0, 0x0, 0x0, 0x0⟩, -- CL_FAULT_MAP
   ⟨0x1005020, [(24, 0x100000)], 0x0, 0x0, 0x0, 0x0, 0x0⟩, -- CL_BUSY
   ⟨0x1005024, [(24, 0x100000)], 0x0, 0x0, 0x0, 0x0, 0x0⟩, -- CL_SWITCH_CNT
   ⟨0x1005028, [(24, 0x100000)], 0x0, 0x0, 0x0, 0xffffffff, 0x0⟩] -- CL_POLL_MAX

/-- Register rows of the cl block. -/
def clRows : List RegRow := clRows1

/-- Register rows of the th block, part 1. -/
def thRows1 : List RegRow :=
  [⟨0x1006000, [(24, 0x100000), (16, 0x100)], 0x0, 0x300, 0x0, 0x0, 0x6⟩, -- TH_CTRL
   ⟨0x1006004, [(24, 0x100000), (16, 0x100)], 0x1, 0x0, 0xc00, 0x0, 0x0⟩, -- TH_STATUS
   ⟨0x1006008, [(24, 0x100000), (16, 0x100)], 0x0, 0xfffc, 0x0, 0x0, 0x0⟩, -- TH_PC
   ⟨0x100600c, [(24, 0x100000), (16, 0x100)], 0x0, 0xf0f, 0x0, 0x0, 0x0⟩, -- TH_BIND
   ⟨0x1006010, [(24, 0x100000), (16, 0x100)], 0x0, 0xff, 0x0, 0x0, 0x0⟩, -- TH_FLAGS
   ⟨0x1006018, [(24, 0x100000), (16, 0x100)], 0x0, 0xffffffff, 0x0, 0x0, 0x0⟩, -- TH_STAMP_LO
   ⟨0x100601c, [(24, 0x100000), (16, 0x100)], 0x0, 0xffffffff, 0x0, 0x0, 0x0⟩, -- TH_STAMP_HI
   ⟨0x1006020, [(24, 0x100000), (16, 0x100)], 0x0, 0x0, 0x0, 0x0, 0x0⟩, -- FAULT_PC
   ⟨0x1006024, [(24, 0x100000), (16, 0x100)], 0x0, 0x0, 0x0, 0x0, 0x0⟩, -- FAULT_INFO
   ⟨0x1006028, [(24, 0x100000), (16, 0x100)], 0x0, 0x0, 0x0, 0x0, 0x0⟩, -- TH_RUN
   ⟨0x1006040, [(24, 0x100000), (16, 0x100), (16, 0x4)], 0x0, 0xffffffff, 0x0, 0x0, 0x0⟩] -- G

/-- Register rows of the th block. -/
def thRows : List RegRow := thRows1

/-- The rows that can hold address `a`: Window A is laid out in 64 KiB blocks below 0x0100_0000 and 1 MiB clusters above (R24). -/
def rowsAt (a : Nat) : List RegRow :=
  if a < 0x1000000 then
    match a / 0x10000 with
    | 0 => sysRows
    | 1 => pwrRows
    | 2 => irqRows
    | 3 => hgRows
    | 4 => ringRows
    | 5 => mitRows
    | 6 => pinRows
    | 7 => adcRows
    | 8 => fbRows
    | 9 => shaftRows
    | 10 => netRows
    | 11 => lifeRows
    | 12 => calRows
    | _ => []
  else
    let off := (a - 0x1000000) % 0x100000
    if off < 0x4000 then chRows else if off < 0x5000 then weirRows else if off < 0x6000 then clRows else thRows

/-- The register row at address `a`, when the manual assigns one. -/
def regRow (a : Nat) : Option RegRow := (rowsAt a).find? (fun r => r.hit a)

/-- The reset word of the register at `a`; an unassigned address reads 0 (R9). HIST_BASE of shaft s resets to 0x00C0_0000 + s × 0x0004_0000 (R152). -/
def resetWord (a : Nat) : Word :=
  match regRow a with
  | some r => if r.base = 0x90030 then BitVec.ofNat 32 (0x00C00000 + (a - 0x90030) / 0x1000 * 0x40000) else BitVec.ofNat 32 r.rst
  | none => 0

end Sys2Proof.Machine
end

