-- ==== Sys2Proof/Machine/State.lean ====
section
/-!
DEFINITION. The state of the KT384 as plain data, its faults and refusals, and the state after reset.

The software-visible registers of Window A are ONE sparse word map `regs`, keyed by the Window A address (R5, R24): a register the
manual numbers is a 32-bit word here, with named fields read through `fld`, so that what a host reads back is what is stored. An
address not listed holds its reset value (`Sys2Proof.Machine.resetWord`). What the manual gives the machine besides those registers
(preloads in use, queues, slots, shadows' live values, sequencer phases, deadlines) is in the structures below, one per block.
-/

namespace Sys2Proof.Machine

/-- A sparse table with strictly rising keys; an unlisted key holds the table's default. -/
abbrev Table (α : Type) := List (Nat × α)

/-- What stops the machine. No command of this block stops it: every misuse the manual names has an effect it states, so no
constructor is raised by any meaning; `stuck` is kept for the host's interface (safe: a stop proves nothing false). -/
inductive Fault where
  | stuck
deriving DecidableEq, Repr

/-- Why a command has no meaning. `notModelled` is raised by the dispatch for a row not reached yet (safe). -/
inductive Refusal where
  | notModelled (mnemonic : String)
deriving DecidableEq, Repr

/-- The drive of a pad: released, low or high. -/
inductive Pad where
  | z | low | high
deriving DecidableEq, Repr

/-- An edge commanded of an edge unit and not yet emitted (R68, R75, R80). In a complementary pair the even channel holds the
transitions of the reference X here (R76). -/
structure Edge where
  stamp : Stamp
  level : Bool
  /-- the edge is a rise that a pulse train counted in PT_EMIT (R80) -/
  counted : Bool
  /-- both outputs of the pair go low: IDLE 0b10 (R77) -/
  both : Bool
  /-- the tick whose set, clear or dispatch commanded the edge (R69) -/
  cause : Tick
deriving DecidableEq, Repr

/-- What the output logic of a channel has been told in one tick: the commanded level before it, and the stamps of its sets and
clears (R69). -/
structure OutCmd where
  tick : Tick
  level : Bool
  both : Bool
  sets : List Stamp
  clears : List Stamp
deriving DecidableEq, Repr

/-- A written START that restarts the counter, or sets DONE, in `due` (R79). -/
structure TrainStart where
  due : Tick
  /-- PT_CMD of the START was not 0 -/
  restart : Bool
deriving DecidableEq, Repr

/-- The tap positions of 0, ¼, ½, ¾ and 1 tick of TCLK along a delay line, in 1/256 tap (R88). -/
structure TapMap where
  p0 : BitVec 16
  p1 : BitVec 16
  p2 : BitVec 16
  p3 : BitVec 16
  p4 : BitVec 16
deriving DecidableEq, Repr

/-- What a channel holds besides its registers (spec/03, 04 and 05). -/
structure Chan where
  /-- source events counted in the present group of the prescaler (R45) -/
  phase : Nat
  /-- the tick of a start tick that is due (R47) -/
  startDue : Option Tick
  /-- tick of the last source event: the counter steps at most once per tick (R46) -/
  lastSource : Option Tick
  /-- ticks of the last period end and peak (R50, R90), and whether the count has passed the peak of this period (R44) -/
  lastPeriod : Option Tick
  lastPeak : Option Tick
  peaked : Bool
  /-- the tick of the last start tick (R47), while no restart has made it an ordinary period end (R50) -/
  lastStart : Option Tick
  /-- the tick in which a copy of OUT_MODE last ended a train: the new mode acts from the next one (R67) -/
  modeEnd : Option Tick
  /-- compare x has matched in the present compare window (R54, R56); the compares that have matched in tick `matchTick` (R55) -/
  matched : BitVec 4
  matchTick : Tick
  matchMask : BitVec 4
  /-- write triggers due, oldest first: the compare, the tick in which it matches, and the value written (R55) -/
  writeTrig : List (Nat × Tick × Word)
  /-- OUT_FINE and DT_CFG in use (R74) -/
  outFineAct : Word
  dtAct : Word
  /-- the shadow of the odd count of a cascade, held at the even channel (R63) -/
  hiShadow : Word
  /-- input level at the end of a tick, newest first (R46) -/
  inHist : List (Tick × Bool)
  /-- the tick whose sample was the first of a new source, and no edge (R21) -/
  inFirst : Option Tick
  /-- CH_IN_SEL in effect, and a write that takes effect at the next tick boundary (R21) -/
  inSel : Word
  inSelDue : Option (Tick × Word)
  /-- commanded level of the output logic, X of a complementary pair (R66, R76), and IDLE 0b10 of a pair in force (R77) -/
  level : Bool
  bothLow : Bool
  cmd : OutCmd
  /-- edges commanded of this channel's edge unit, in the order of their commands -/
  edges : List Edge
  /-- E of R75: the stamp of the last emitted edge -/
  lastEdge : Option Stamp
  /-- the pending edge of R75 -/
  held : Option Edge
  /-- a delayed rise of a complementary output (R76) -/
  delayed : Option Edge
  /-- the stamp of this output's last fall (R76) -/
  lastFall : Option Stamp
  /-- live PT_SKIP and PT_REMAIN; the registers at those addresses are the shadows (R82) -/
  ptSkip : Word
  ptRemain : Word
  /-- a STOP was written in this tick and ends the train at a later period end (R81) -/
  stopReq : Option Tick
  trainStart : Option TrainStart
  /-- fine bits that the first set edge of a train takes (R79) -/
  firstFine : Option (BitVec 6)
  /-- consecutive failed measurements of LINE 0 and LINE 1 (R88) -/
  fails0 : Nat
  fails1 : Nat
  /-- tick in which the measurement of the line in service ended; none while COARSE (R92) -/
  measured : Option Tick
  /-- tick and TPT of the fresh line's measurement (R88, R90) -/
  fresh : Option (Tick × BitVec 16)
  /-- the tap maps last measured of LINE 0 and LINE 1 (R88) -/
  map0 : Option TapMap
  map1 : Option TapMap
  /-- after a swap at a period end or peak, the stamp from which edges go to the new line; earlier ones go to the old line (R91) -/
  splitAt : Option Stamp
  /-- the line and the tap that the last edge left by (R88, R91) -/
  lastTap : Option (Nat × Nat)
  /-- tick of the last TDC calibration (R100) -/
  tdcCal : Option Tick
  /-- edges of the input that the TDC has stamped and no rule has consumed yet, oldest first; `counted` marks an edge that met the
  first three conditions of R101 when it arrived (R97, R99, R101) -/
  capPend : List Edge
  /-- the level seen by capture, and the stamp of the last input edge (R99) -/
  inLevel : Bool
  lastIn : Option Stamp
  /-- live capture registers; the registers at their addresses are the shadows (R103) -/
  capRise : Stamp
  capFall : Stamp
  capWidth : BitVec 40
  capSeq : Word
  /-- direction of the last stored edge (R102), and whether a stored stamp of each direction is unread -/
  lastStored : Option Bool
  riseUnread : Bool
  fallUnread : Bool
deriving DecidableEq, Repr

/-- A trip input (R106): the level of the pad is in TRIP_RAW and the filtered level in TRIP_ACTIVE. -/
structure Trip where
  /-- tick of the first of the consecutive samples that show the level the filter has not taken yet -/
  since : Option Tick
  /-- TRIP_CFG in effect, and a write that takes effect at the next tick boundary -/
  cfg : Word
  cfgDue : Option (Tick × Word)
deriving DecidableEq, Repr

/-- A mitten's working state (R108 to R116). -/
structure Mitten where
  /-- the last tick in which the cuff is open (R109) -/
  cuffLast : Option Tick
  /-- sources that became active while the cuff was open, with the tick of their activation (R108) -/
  blocked : List (Nat × Tick)
  /-- a clear has been accepted (R113) -/
  cleared : Bool
  /-- the last tick in which a source went inactive or a clear was accepted: the release boundary lies after it (R112) -/
  idleFrom : Tick
  /-- the stamp of a release found at a reference period end (R112) -/
  releaseAt : Option Stamp
deriving DecidableEq, Repr

/-- What a mitten's action found at a pad when it began to apply: the mitten, the drive, the pull and the level (R20, R110). -/
structure Force where
  mitten : Nat
  drive : Pad
  pull : Nat
  level : Bool
deriving DecidableEq, Repr

/-- One channel pin's pad (R13, R20, R21). -/
structure PinState where
  /-- PIN_OUT_SEL in effect; a write takes effect at the next tick boundary -/
  sel : Word
  selDue : Option (Tick × Word)
  pad : Pad
  /-- the level that an outside drive last gave the pad, when an input edge has shown one -/
  ext : Option Bool
  /-- stamp from which the ball has been low without a break (R115) -/
  lowSince : Option Stamp
  /-- the mitten whose action applies, and the pad as it was when that action began to apply (R20, R110) -/
  force : Option Force
  /-- a forced HIGH has been applied (R115) -/
  highApplied : Bool
  /-- while a new output or input trim waits for a quiet pad, the tick in which it was applied and the trim word that is still in force (R384) -/
  trimOutDue : Option (Tick × Word)
  trimInDue : Option (Tick × Word)
deriving DecidableEq, Repr

/-- A tooth candidate or tooth: its stamp, and whether an edge has reversed it and when (R127). -/
structure Candidate where
  stamp : Stamp
  reversed : Option Stamp
deriving DecidableEq, Repr

/-- An interval of the estimate: signed step in SU, period in fine steps (R136). -/
structure Interval where
  step : Int
  period : Nat
deriving DecidableEq, Repr

/-- An estimate (R136 to R138): stamp and position of the last tooth, velocity (2^−32 SU per tick), acceleration (2^−63 SU per
tick²), EST_N, the clamp of R137 and the direction it belongs to, and the predicted periods P1 and P_e in fine steps. With n = 0
the position holds at `pos`. -/
structure Estimate where
  stamp : Stamp
  pos : BitVec 64
  omega : Int
  alpha : Int
  n : Nat
  rev : Bool
  /-- the furthest position that the reported position takes -/
  clampAt : Option (BitVec 64)
  p1 : Option Nat
  pe : Option Nat
deriving DecidableEq, Repr

/-- A virtual-tooth crossing found and not yet taken (R145, R148): its stamp, wheel position, count or full position, direction, and the tick
from which its publication is counted (R17, R179). -/
structure Crossing where
  stamp : Stamp
  idx : Nat
  at_ : Int
  rev : Bool
  base : Tick
deriving DecidableEq, Repr

/-- A shaft predictor's working state (spec/07); the registers and the flags of SH_STATUS are in `regs`. -/
structure Shaft where
  cands : List Candidate
  /-- stamp of the last accepted or synthetic tooth, when there is one; an interval can open at it -/
  lastTooth : Option Stamp
  opens : Bool
  /-- position of the last tooth on the wheel, the full position it takes, and the direction in which that is its angle (R140) -/
  tooth : Nat
  toothPos : BitVec 64
  toothRev : Bool
  /-- interface count at the last virtual tooth (R145) -/
  toothCount : Int
  /-- the intervals of the estimate, newest first, at most three (R136) -/
  intervals : List Interval
  /-- stamps of the accepted real teeth since the last stall, newest first, at most four; how many teeth have been accepted in SEARCH,
  CANDIDATE and LOST, and the number of the candidate's gap-closing tooth among them; the candidate came from LOST (R130, R131) -/
  stamps : List Stamp
  accepted : Nat
  candTooth : Nat
  fromLost : Bool
  /-- the published estimate, and those that wait for their publication ticks, oldest first (R17) -/
  est : Estimate
  /-- where the position of an imported shaft holds while its CANDIDATE waits for confirmation: the model has restarted, the reported
  position has not moved (R340, R343) -/
  held : Option (BitVec 64)
  next : List (Tick × Estimate)
  /-- a tooth was synthetic since the last observed gap (R129); the last tooth was synthetic (R134); a gap was missed (R135) -/
  synthSinceGap : Bool
  lastSynth : Bool
  gapMissed : Bool
  /-- the next tooth is the first after a direction change (R140), or after a stall (R141) -/
  dirTooth : Bool
  afterStall : Bool
  /-- tick since which the direction input has shown a new level (R139) -/
  dirSince : Option Tick
  /-- history entries due: publication tick and entry (R149) -/
  history : List (Tick × Word)
  /-- CYCLE_REV, and the revolution of the position that it belongs to (R142) -/
  cycleRev : Nat
  cycleSeen : Word
  /-- generator: working velocity, acceleration magnitude and target; position with 32 further fraction bits (R148) -/
  genOmega : Int
  genAcc : Nat
  genTarget : Int
  genPos : BitVec 96
  /-- what the generator moved by in the present tick, its velocity, acceleration and STALLED as that tick began (R338), and the tick from
  which an enabled generator is SYNCED (R148) -/
  genStep : Int
  genStart : Int × Int × Bool
  genSync : Option Tick
  /-- virtual-tooth crossings found and not yet taken, oldest first (R145, R148) -/
  crossings : List Crossing
  /-- the shaft has been in SYNCED since EN was set (R146) -/
  synced : Bool
  /-- a jump, or a new sync, takes effect at the next publication: not motion for a position compare (R197) -/
  jumpDue : Bool
deriving DecidableEq, Repr

/-- The outcomes of an event (R162). -/
inductive Outcome where
  | completed | late | shortened | droppedPast | droppedSync | cancelled | zero
deriving DecidableEq, Repr

/-- A slot of a weir (R156 to R160). -/
structure Slot where
  w0 : Word
  qual : Word
  frac : Word
  dur : BitVec 40
  arg : Word
  /-- start and end stamps of the last keying -/
  s : Stamp
  e : Stamp
  /-- resolved end position of an angle event, and whether it was resolved in reverse -/
  theta : BitVec 64
  rev : Bool
  /-- no key: frozen or unreachable (R165) -/
  frozen : Bool
  unreachable : Bool
  /-- the start action has been dispatched -/
  started : Bool
  /-- the outcome the event takes at its end action -/
  plan : Outcome
  /-- commit tick of the post, and the order of acceptance -/
  commit : Tick
  order : Nat
  inserted : Bool
  /-- a publication, resync or cycle change asks for this slot to be re-keyed -/
  rekey : Bool
  /-- an event that must be resolved again before it is keyed, and one held since its shaft left SYNCED and DEGRADED: it resumes at the first
  publication after the shaft is in sync again (R170) -/
  resolve : Bool
  held : Bool
  /-- the shaft has been lost and HOLD is 0: the slot retires DROPPED_SYNC -/
  dropSync : Bool
deriving DecidableEq, Repr

/-- A cancel of a weir: TAG, MASK, the thread that asked (none: the host or a SWAP purge), commit tick, and the slots still to visit
(R172). -/
structure Cancel where
  tag : BitVec 12
  mask : BitVec 12
  thread : Option Nat
  host : Bool
  start : Tick
  /-- events accepted with a lower number were posted before the cancel committed -/
  before : Nat
  left : List Nat
  count : Nat
deriving DecidableEq, Repr

/-- The ledger of a weir (R173). -/
structure WeirLedger where
  accepted : BitVec 64
  completed : BitVec 64
  late : BitVec 64
  shortened : BitVec 64
  droppedPast : BitVec 64
  droppedSync : BitVec 64
  cancelled : BitVec 64
  zero : BitVec 64
deriving DecidableEq, Repr

/-- What a dispatched action does in the tick of its stamp: a ring message, a STOP, a DISARM (R154). -/
inductive DueAct where
  | ring (r : Nat) (tag : BitVec 12) (ch : Nat) (payload : BitVec 16) (s : Stamp)
  | arm (k : Nat) (s : Stamp)
  | stop (k : Nat)
  | disarm (k : Nat)
deriving DecidableEq, Repr

/-- A post that waits for its commit tick: its descriptor, and the thread that posted it, none for the host, with whether it asks for the
first start key (R157, R246). -/
structure WaitingPost where
  words : List Word
  thread : Option Nat
  first : Bool
deriving DecidableEq, Repr

/-- A weir: its occupied slots, the ledger, cancels, and the posts and dispatches of the present tick. -/
structure Weir where
  slots : Table Slot
  ledger : WeirLedger
  order : Nat
  cancels : List Cancel
  /-- the tick in which the running cancel last visited a slot (R172) -/
  cancelAt : Option Tick
  /-- the tick of the last post, and the posts that wait for a later one (R157) -/
  lastPost : Option Tick
  posts : List WaitingPost
  /-- the tick of the last re-keyed slots, and the shafts whose passes reached a slot in it (R17) -/
  rekeyTick : Tick
  rekeyed : List Nat
  /-- actions dispatched in `dispTick` (R161) -/
  dispTick : Tick
  dispCount : Nat
  /-- freed slots of `freeTick` are not seen by posts of that tick (R157) -/
  freeTick : Tick
  freed : List Nat
  /-- the last tick in which 32 actions were dispatched (R161) -/
  fullTick : Option Tick
  /-- dispatched actions that act in a later tick -/
  due : List (Tick × DueAct)
  /-- a SYNC output pulse of tick t reaches the next cluster in t + 2 (R84) -/
  syncDue : List Tick
deriving DecidableEq, Repr

/-- What a waiting thread waits for (R203, R244, R245, R248, R233). -/
inductive Wait where
  | none
  | time (target : Stamp)
  | angle (shaft : Nat) (theta : BitVec 64) (rev : Bool) (deadline : Option Stamp)
  | ring (r : Nat) (push : Bool)
  /-- a reservoir access in flight: 5 load, 6 store, 7 add; SZ, address, register D, issue tick, next PC -/
  | access (kind sz addr d : Nat) (issued : Tick) (next : Nat)
deriving DecidableEq, Repr

/-- A thread's working state; its registers are in `regs` (spec/10). -/
structure Thread where
  wait : Wait
  /-- the tick in which the wait's condition first held, and the status the wait ends with -/
  metAt : Option Tick
  metSt : Nat
  /-- HALT was written and takes effect at the next POLL or at the end of the access (R212) -/
  haltReq : Bool
  /-- microcycles that an instruction still owes once the thread runs again: 2 after a reservoir access, and 3 after a ring wait, whose
  check comes 4 microcycles after the selection (R233, R248) -/
  owes : Nat
  /-- address of the thread's next microword (R207) -/
  upc : BitVec 12
deriving DecidableEq, Repr

/-- A cluster's engine (spec/10, spec/17). -/
structure Engine where
  /-- thread last selected at priority 0..3; 15 before the first (R204) -/
  lastSel : Nat × Nat × Nat × Nat
  /-- microcycles the running thread has run since it was selected, and since the last POLL (R205, R208) -/
  ran : Nat
  sincePoll : Nat
  /-- the tick from which the next microcycle of the running thread may begin, and whether the POLL of an instruction boundary comes
  first (R206, R208) -/
  freeAt : Tick
  pollDue : Bool
  /-- the thread that a selection has named, and the tick in which it becomes RUNNING, after the switch microcycle (R206, R209) -/
  switching : Option (Nat × Tick)
  /-- the level the cluster's programs declared (R228) -/
  level : Nat
  /-- the front page is the upper half of the local RAM cells (R226, R254) -/
  bank : Bool
  /-- clock gating: since when the gating condition holds, and when a wake ends (R351, R352) -/
  gateSince : Option Tick
  wakeEnd : Option Tick
  /-- host reads that wait for the end of a wake, oldest first (R352) -/
  heldReads : List Nat
  /-- a cluster reset runs and ends in this tick (R361) -/
  resetEnd : Option Tick
deriving DecidableEq, Repr

/-- An offer that the sluice serves when its BCLK cycle ends (R262): a hardware message; a PUSH of thread `t` of cluster `n`, with its W and
the address of its instruction; a host commit; the entry of a host transfer; a response of the Ponar engine; a network offer of port `p`. -/
inductive Offer where
  | hardware (e : BitVec 128)
  | push (n t pc : Nat) (waits : Bool) (e : BitVec 128)
  | commit (n : Nat)
  | xfer (e : BitVec 128)
  | ponar (es : List (BitVec 128))
  | net (p : Nat) (e : BitVec 128)
deriving DecidableEq, Repr

/-- An entry that the sluice has admitted: one to be written to the reservoir, or one that the host has already written there (R260, R263). -/
inductive InFlight where
  | entry (e : BitVec 128)
  | placed
deriving DecidableEq, Repr

/-- A ring's ledger (R267), the offers of the present BCLK cycle in the order of R262, and the admitted entries that WR has not passed yet
(R260). -/
structure RingState where
  offered : BitVec 64
  admitted : BitVec 64
  consumed : BitVec 64
  spillCredit : BitVec 64
  spillClosed : BitVec 64
  spillUe : BitVec 64
  flushed : BitVec 64
  /-- entries admitted that WR has not passed, oldest first (R260) -/
  inflight : List InFlight
  /-- the offers of the present BCLK cycle, each with its place in the order of R262, in that order -/
  offers : List (Nat × Offer)
  /-- the BCLK cycle of the last change, the values that WR, RD, FILL and CREDIT had when it began, and the credit returned in it, which
  its offers do not see (R262) -/
  cycle : Option (BitVec 64)
  wr0 : Word
  rd0 : Word
  fill0 : Word
  credit0 : Word
  returned : Nat
deriving DecidableEq, Repr

/-- A conversion: the step it copied, and whether it is urgent (R277). -/
structure Conv where
  step : Word
  urgent : Bool
  /-- AIN_CFG of its input as the request found it: OW_TH and OW_DIR of an open-wire check (R285, R288) -/
  ain : Word
deriving DecidableEq, Repr

/-- A request on its way to the sequencer: arrival tick and the order of R276. -/
structure AdcRequest where
  arrive : Tick
  rank : Nat
  stamp : Stamp
  trig : BitVec 6
  urgent : Bool
deriving DecidableEq, Repr

/-- One converter (R273, R274); its STATE, QDEPTH and URG_WAIT are in ADC_STATUS. -/
structure Converter where
  queue : List Conv
  urgent : Option Conv
  running : Option Conv
  /-- tick in which the present STARTUP, ACQ or CONV ends, or a start becomes due -/
  due : Option Tick
  /-- ACQ and calibration taken at the start of the acquisition (R288) -/
  cal : Word
deriving DecidableEq, Repr

/-- What an accumulator holds: running sum and count, and the result (R280). -/
structure AccVal where
  sum : BitVec 40
  count : BitVec 24
  rsum : BitVec 40
  rcount : BitVec 24
deriving DecidableEq, Repr

/-- A result offered to an accumulator: its tick, the code, what the accumulator held before it, whether it replaced an unread result, found the
accumulator saturated, and has no other sink. -/
structure AccHit where
  tick : Tick
  r : Nat
  before : AccVal
  ovw : Bool
  sat : Bool
  alone : Bool
deriving DecidableEq, Repr

/-- An accumulator, and the results that it has taken in the present BCLK cycle, oldest first: a clearing read keeps them (R281). -/
structure Accum where
  val : AccVal
  hits : List AccHit
deriving DecidableEq, Repr

/-- A result that a tracker took: its tick, the code, and the tracker before it (R284). -/
structure MmHit where
  tick : Tick
  r : Nat
  before : Word
deriving DecidableEq, Repr

/-- The ADC ledger (R286) and the requests in transit. -/
structure Adc where
  requests : BitVec 64
  expanded : BitVec 64
  reqNull : BitVec 64
  issued : BitVec 64
  delivered : BitVec 64
  spillBusy : BitVec 64
  spillFull : BitVec 64
  spillClosed : BitVec 64
  spillSat : BitVec 64
  transit : List AdcRequest
  convs : Table Converter
  accs : Table Accum
  /-- the results that each tracker has taken in the present BCLK cycle, oldest first (R284); the trackers are in MM_RD -/
  mmHits : Table (List MmHit)
deriving DecidableEq, Repr

/-- A count step of an interface: ABS after it and its stamp. -/
structure Sample where
  abs : BitVec 64
  stamp : Stamp
deriving DecidableEq, Repr

/-- An edge of A or B that the TDC has stamped: which input, and the levels of both seen at it (R180). -/
structure QuadEdge where
  stamp : Stamp
  isB : Bool
  a : Bool
  b : Bool
deriving DecidableEq, Repr

/-- A decoded transition of a QENC: its stamp, its count step, and the decoded state before it (R180, R187, R194). -/
structure QuadStep where
  stamp : Stamp
  d : Int
  a : Bool
  b : Bool
deriving DecidableEq, Repr

/-- A feedback interface (QENC 0..7, AENC 8..15, SSI 16..23); spec/09. -/
structure Iface where
  abs : BitVec 64
  /-- the last step: ABS after it, and its stamp; and the stamp of the last step that moved ABS (R190) -/
  lastStep : Option Sample
  lastMove : Option Stamp
  /-- the edges of A and B, and those of Z with their direction, that the decoder has not handled yet, oldest first (R180, R187) -/
  edges : List QuadEdge
  zEdges : List (Stamp × Bool)
  /-- the latest transitions decoded, newest first (R187, R194) -/
  steps : List QuadStep
  /-- the levels of A and B that a resample has taken and the decoder has not handled yet, with their stamp (R181) -/
  resample : Option (Stamp × Bool × Bool)
  /-- the level of SSI_CLK (R185) -/
  clk : Bool
  /-- the last two processed samples or good frames (R187, R194) -/
  sample : Option Sample
  prevSample : Option Sample
  /-- LAST_DEV; the register is a shadow (R201) -/
  dev : Word
  /-- decoded A and B, the stamp of the last accepted edge, and the tick in which the decoder samples its inputs after it (R180, R181) -/
  a : Bool
  b : Bool
  lastAcc : Option Stamp
  resampleAt : Option Tick
  /-- raw samples taken and not yet processed: stamp, s0, c0 (R182) -/
  raw : List (Stamp × BitVec 12 × BitVec 12)
  pPrev : Option Nat
  /-- ABS holds: the interface has been in FAULT and is not PRESENT again (R192) -/
  held : Bool
  /-- consecutive samples in the window, outside it, below DET_TH; consecutive good, bad and no-answer frames (R191) -/
  inWin : Nat
  outWin : Nat
  below : Nat
  good : Nat
  bad : Nat
  noAnswer : Nat
  /-- the frame in progress: its stamp's tick, and whether DAT was high before it; the tick of the next frame (R185) -/
  frame : Option (Tick × Bool)
  nextFrame : Tick
  /-- turn field and ABS of the last good frame (R186) -/
  lastGood : Option (Nat × Int)
  /-- consecutive index faults (R189), and the indexes that wait for their later sample, oldest first (R187) -/
  idxFaults : Nat
  idxPend : List Stamp
  /-- frequency SPEED in Q16.32, stamps of the last two unit steps or signal-period crossings, and the timeout of SPEED (R190) -/
  speed : Int
  unit1 : Option Stamp
  unit0 : Option Stamp
  timedOut : Bool
  /-- the present gate: its start, steps counted, net count change, stamp of the last step before it (R190) -/
  gateStart : Tick
  gateSteps : Nat
  gateNet : Int
  gateFrom : Option Stamp
deriving DecidableEq, Repr

/-- An edge of a probe's input: its stamp and direction, the reported position of a shaft target at the start of its tick, and whether the
target was not valid then (R193, R194). -/
structure ProbeEdge where
  stamp : Stamp
  rising : Bool
  pos : Option (BitVec 64)
  invalid : Bool
deriving DecidableEq, Repr

/-- A probe (R193 to R195): live latch values; the registers are the shadows. -/
structure Probe where
  stamp : Stamp
  pos : BitVec 64
  seq : Word
  /-- edges whose latch is not complete: stamp, and the target position when it is known already -/
  pend : List (Stamp × Option (BitVec 64))
  unread : Bool
  lastIn : Option Stamp
  /-- edges of CH[PRB_CH] that the probe has not taken up yet, and edges of its input that can still be discarded by R99, oldest first -/
  chanEdges : List (Stamp × Bool)
  edges : List ProbeEdge
  /-- tick in which a DISARM last committed -/
  disarmed : Option Tick
deriving DecidableEq, Repr

/-- A position compare (R196, R197): V, the side it waits on, and a fire that is due at once. -/
structure Pcmp where
  v : BitVec 64
  /-- the direction latched at the arm -/
  rev : Bool
  /-- the position has been on the near side of V since the arm -/
  near : Bool
  fireDue : Option Tick
deriving DecidableEq, Repr

/-- A culvert's outputs (R198, R199). -/
structure Culvert where
  a : Bool
  b : Bool
  z : Bool
  /-- the output state of REGEN, the spacing of the states owed, and the tick from which the next one may go out (R199) -/
  state : BitVec 64
  gap : Nat
  nextDue : Tick
  /-- RAW: the levels last sampled, and the changes on their way: tick of the output and levels (R198) -/
  raw : Bool × Bool × Bool
  pipe : List (Tick × Bool × Bool × Bool)
deriving DecidableEq, Repr

/-- The delay-line calibration engine (spec/05). -/
structure CalEngine where
  /-- initial round: channel and which of its two measurements; none when the round has ended -/
  initial : Option (Nat × Bool)
  /-- tick in which the next slot starts, and the channel it is for -/
  slotDue : Option Tick
  nextCh : Nat
  /-- a slot has run since the initial round: the next slot of CH[0] then completes a round -/
  slotRan : Bool
  /-- a measurement runs: channel, its latest end -/
  measuring : Option (Nat × Tick)
  /-- tick in which the initial round began -/
  roundStart : Tick
  /-- the slot in which the TDC is still to be calibrated: its channel, the tick in which it ends, and the first tick of the present run
  of ticks without an edge of that channel's input (R100) -/
  tdc : Option (Nat × Tick × Tick)
deriving DecidableEq, Repr

/-- A staged or armed swap (R250 to R254); SWAP_STATUS and the stamps are registers. -/
structure Swap where
  list : List (Word × Word)
  stamp : Stamp
  theta : BitVec 64
  rev : Bool
  dirq : Nat
  /-- key exists (not frozen) -/
  keyed : Bool
  late : Bool
  fTick : Tick
  tTick : Tick
deriving DecidableEq, Repr

/-- A key slot (R314, R315). -/
structure KeySlot where
  key : BitVec 128
  perm : BitVec 8
  state : BitVec 2
  last : BitVec 48
  mark : BitVec 48
deriving DecidableEq, Repr

/-- Where a Ponar message came from. -/
inductive Transport where
  | ring
  | udp (port : Nat) (ip : Word) (udp : BitVec 16)
deriving DecidableEq, Repr

/-- A Ponar request: its four header words, its payload words and its tag (R307). -/
structure Msg where
  via : Transport
  h0 : Word
  h1 : Word
  h2 : Word
  h3 : Word
  payload : List Word
  tag : BitVec 64
  /-- the tick in which it arrived (R309) -/
  arrived : Tick
deriving DecidableEq, Repr

/-- A user-calibration record (R383): KIND, INDEX, value. -/
structure UcalRec where
  kind : Nat
  index : Nat
  value : Word
deriving DecidableEq, Repr

/-- What an NVM write in progress will change once it completes (R314, R315, R317, R325, R383, R375). -/
inductive NvmOp where
  | mark (slot : Nat) (mark : BitVec 48)
  | key (slot : Nat) (k : KeySlot) (reply : Bool)
  | sealed
  | floor (v : BitVec 16)
  | ucal (recs : List (Bool × UcalRec))
deriving DecidableEq, Repr

/-- A wear-mirror record (R375). -/
structure MirrorRec where
  counts : Table (BitVec 48)
  cfgs : Table Word
  period : Word
  calendar : BitVec 64
  calValid : Bool
  alarmLo : Word
  alarmHi : Word
  epoch : Word
  lost : Word
deriving DecidableEq, Repr

/-- NVM: identity, user calibration and the newest mirror record; keys and marks are in `keys` (R378). -/
structure Nvm where
  sealed : Bool
  floor : BitVec 16
  ucal : List UcalRec
  mirror : Option MirrorRec
  identityValid : Bool
  keysValid : Bool
  ucalValid : Bool
deriving DecidableEq, Repr

/-- A REG_WRITE or a MIT_CHANGE under way: the request, the pairs that are left, the index of the first of them, the number applied and the
index of the first pair refused. The pairs of a REG_WRITE, `direct`, commit as Window A writes, those of a MIT_CHANGE one per tick, the last in
tick `last` (R311, R324, R407). -/
structure PairRun where
  msg : Msg
  direct : Bool
  last : Tick
  left : List (Word × Word)
  index : Nat
  applied : Nat
  refused : Option Nat
deriving DecidableEq, Repr

/-- The headgate and Ponar engine (spec/15). -/
structure Headgate where
  keys : Table KeySlot
  /-- messages of the Ethernet ports that wait for the engine, oldest first, and the tick in which the message at the head of the command
  ring became whole (R309, R310) -/
  queue : List Msg
  ringSince : Option Tick
  /-- a request that has passed its checks and whose command is still to run -/
  serving : Option Msg
  /-- a critical request waiting for the mark write of R314 -/
  waiting : Option Msg
  /-- a REG_WRITE or a MIT_CHANGE under way (R311, R324) -/
  pairs : Option PairRun
  /-- NVM writes of the headgate: the one in progress and those behind it -/
  nvmOps : List NvmOp
  /-- a response held for lack of credit (R309): the ring entries -/
  held : Option (List (BitVec 128))
  /-- the held response is offered to its ring in the present BCLK cycle (R262, R309) -/
  offered : Bool
  /-- the response in hand is that of a SOFT_RESET; it has been admitted or handed on, and the reset begins (R325) -/
  resetAfter : Bool
  resetDue : Bool
  /-- tick of the last kick, of the expiry (R305) -/
  kick : Tick
  expired : Option Tick
  /-- QSPI status byte of the last frame that was not STATUS (R304), without its IRQ bit -/
  qspi : BitVec 5
deriving DecidableEq, Repr

/-- The kinds of frames that R336 ranks, in its order; ARP, ICMP and IGMP, which it does not name, come last (notes/assumptions/87.md). -/
inductive TxClass where
  | gptp | exported | ponar | discover | user | other
deriving DecidableEq, Repr

/-- The rank of a kind: the frame of smaller rank leaves first (R336). -/
def TxClass.rank : TxClass → Nat
  | .gptp => 0 | .exported => 1 | .ponar => 2 | .discover => 3 | .user => 4 | .other => 5

/-- A UDP datagram to be sent: its kind, its destination, and its words (R328). -/
structure Datagram where
  cls : TxClass
  ip : Word
  port : BitVec 16
  words : List Word
deriving DecidableEq, Repr

/-- What a frame that a port sends carries. A two-step Sync carries no time: its Follow_Up has the NT stamp at which it left. The
response to a Pdelay_Req has the local stamp of its receipt, and its Follow_Up that at which the response left (R329). -/
inductive Frame where
  | arpReply (ip : Word) (mac : BitVec 48)
  | arpRequest (ip : Word)
  | igmpReport (group : Word)
  | icmpReply (ip : Word) (body : List Byte)
  | udp (ip : Word) (mac : BitVec 48) (port : BitVec 16) (words : List Word)
  | sync
  | followUp (nt : Stamp)
  | announce (v : PriorityVector)
  | pdelayReq
  | pdelayResp (identity : BitVec 80) (received : Stamp)
  | pdelayRespFollowUp (identity : BitVec 80) (sent : Stamp)
deriving DecidableEq, Repr

/-- A frame that waits for its port: its kind, its VLAN tag, and what it carries (R336). -/
structure TxFrame where
  cls : TxClass
  vlan : Option (BitVec 16)
  frame : Frame
deriving DecidableEq, Repr

/-- A network port besides its registers (spec/16). -/
structure Port where
  linkTick : Tick
  /-- resolved addresses, newest first, at most 16, and the datagrams that wait for the address of their destination, oldest first (R328) -/
  arp : List (Word × BitVec 48)
  waiting : List Datagram
  /-- tick of the last DISCOVER of a peer, and of its last message that passed the session checks (R335) -/
  heard : Table Tick
  lastMsg : Table Tick
  /-- tick of the last DISCOVER and of the last Sync that the port sent (R334, R329) -/
  discSent : Option Tick
  syncSent : Option Tick
  /-- tick of the last Announce and of the last Pdelay_Req that the port sent, and the last Announce received, with its tick (R329) -/
  annSent : Option Tick
  pdelaySent : Option Tick
  announced : Option (Tick × PriorityVector)
  /-- local stamp at which a Pdelay_Req left that has had no response, and the last measured delay of the path, in fine steps (R329) -/
  pdelayOpen : Option Stamp
  pathDelay : BitVec 64
  /-- the frames that wait for the wire, in the order in which they came, and the tick from which the wire is free (R336) -/
  tx : List TxFrame
  txFree : Tick
deriving DecidableEq, Repr

/-- The time-sync servo besides its registers (R331). -/
structure TimeSync where
  /-- consecutive Syncs of ACQUIRE with |offset| ≤ 100 ns; the first offset of ACQUIRE has been measured -/
  good : Nat
  measured : Bool
  lastSync : Tick
  /-- seconds that the last Sync carried (R370) -/
  seconds : BitVec 48
  /-- the changes of RATE_TRIM of the last second, with their ticks, in 10^−9 -/
  trims : List (Tick × Nat)
deriving DecidableEq, Repr

/-- A read command of the serial flash: its opcode, the lines that carry address and data, its dummy clocks, and FL_CLK in MHz (R365). -/
structure FlashRead where
  opcode : BitVec 8
  addrLines : Nat
  dataLines : Nat
  dummy : Nat
  mhz : Nat
deriving DecidableEq, Repr

/-- Something the device has sent to a link or the host: an MSI-X message, a frame with its VLAN tag (PCP, 0, VID), a poisoned
completion, an Unsupported Request, the read command of a flash boot with its address. -/
inductive Sent where
  | msix (vector : Nat) (addr : BitVec 64) (data : Word)
  | frame (port : Nat) (vlan : Option (BitVec 16)) (f : Frame)
  | poisoned (off : Nat)
  | unsupported (addr : Nat)
  | flash (c : FlashRead) (addr : Nat)
deriving DecidableEq, Repr

/-- A host access that NAP holds (R356). -/
inductive HostReq where
  | pcie (write : Bool) (addr : Nat) (dws : List (BitVec 4 × Word))
  | bRead (off size : Nat)
  | bWrite (off size : Nat) (v : BitVec 64)
deriving DecidableEq, Repr

/-- The clock and reset state of the main domain (spec/17). -/
inductive Phase where
  /-- clocks run -/
  | run
  /-- NAP, and the wake from it -/
  | nap
  | waking
  /-- HIBERNATE -/
  | hibernate
  /-- a POR or pin reset is in force or its start-up runs -/
  | por
  | pinReset
  /-- a watchdog or soft reset runs -/
  | soft
deriving DecidableEq, Repr

/-- What a configuration write can change in the PCIe configuration space, besides MSI-X (R299): Command, BAR0, BAR2, Interrupt Line and Device
Control, as the standard lays them out. -/
structure PciConfig where
  command : BitVec 16
  bar0 : Word
  bar2 : Word
  intLine : Byte
  devCtl : BitVec 16
deriving DecidableEq, Repr

/-- Power, clocks and reset besides the registers (spec/17). -/
structure Power where
  phase : Phase
  /-- the cause code of the reset in force, for RST_STATUS -/
  cause : Nat
  /-- a HIBERNATE request waits for its mirror and for PWR_EN -/
  hibReq : Option Tick
  pwrEn : Bool
  /-- the main rails are up -/
  rails : Bool
  resetLow : Bool
  /-- the pulses of the SYNC_OUT ball that have not fallen yet: rise and fall stamps (R85) -/
  syncOut : List (Stamp × Stamp)
  /-- MSI-X vectors requested whose message has not been sent (R295) -/
  msixReq : Word
  /-- the pending-bit array: requested vectors that a mask or a disabled MSI-X has held back (R295) -/
  pba : Word
  msixEnable : Bool
  fnMask : Bool
  /-- the rest of the configuration space that can change (R299) -/
  cfg : PciConfig
  /-- PCIe requests that arrived in NAP, oldest first (R356) -/
  heldHost : List HostReq
  /-- MCLK and BCLK run: not yet in an odd first tick after NAP (R349) -/
  bclk : Bool
deriving DecidableEq, Repr

/-- The always-on island besides its registers (spec/18). -/
structure Island where
  calendar : BitVec 64
  wear : Table (BitVec 48)
  /-- source events on their way to a wear counter, by the ticks in which they occurred, oldest first (R373) -/
  owed : Table (List Tick)
  /-- the next LFCLK edge loads CAL_SET (R369) -/
  setReq : Bool
  /-- the comparison at the last LFCLK edge asks for a step (R370) -/
  ptpReq : Bool
  lastMirror : BitVec 64
  mirrorBusy : Option MirrorRec
  mirrorDue : Bool
  restoreDue : Bool
deriving DecidableEq, Repr

/-- A delivered event on its way to the interrupt controller (R290, R292): source, cause bit, tick. -/
structure IrqEvent where
  source : Nat
  bit : Option Nat
  tick : Tick
deriving DecidableEq, Repr

/-- A write that waits for a later tick: because its register has taken its write of the present tick (R407), because it meets a gated
cluster (R352), or because an earlier write of the same host port waits (R264). Of a host port (`qspi`: the QSPI target, else PCIe), into
Window A or Window B; of thread `t` of cluster `n`; of the W1C bits that a CHSTAT clears; of the swap list; or of the headgate engine. -/
inductive LateWrite where
  | host (qspi : Bool) (a : Nat) (v : Word)
  | windowB (off size : Nat) (v : BitVec 64)
  | thread (n t a : Nat) (v : Word)
  | flags (a : Nat) (v : Word)
  | swap (a v : Word)
  | engine (a : Nat) (v : Word)
deriving DecidableEq, Repr

/-- A capture of which the command has committed, and which takes place when its tick or BCLK cycle ends: both counts of a pair (R65), a
shaft (R151), the ledger of a weir (R174), of a ring (R268), of the converters (R287), or of the wear counters (R374); and the decision of a
position compare that has been armed (R196). -/
inductive Take where
  | pair (k : Nat)
  | shaft (h : Nat)
  | weir (n : Nat)
  | ring (r : Nat)
  | adc
  | wear
  | pcmp (j : Nat)
deriving DecidableEq, Repr

/-- What hardware did to the register at `addr` in tick `tick`: it set bit `bit`; with `bit` 32 it incremented the register, and from 64 on it
offered `bit` − 64 to a register that keeps the largest. `fresh`: the register changed with it (R7). -/
structure HwSet where
  addr : Nat
  bit : Nat
  tick : Tick
  fresh : Bool
deriving DecidableEq, Repr

/-- What a host can read of the state, as it stood at the start of a BCLK cycle (R7). -/
structure Snap where
  mt : Tick
  regs : Table Word
  localRam : List Host.Cell
  ustore : Table Word
  chans : Table Chan
  mittens : Table Mitten
  pins : Table PinState
  shafts : Table Shaft
  weirs : Table Weir
  engines : Table Engine
  threads : Table Thread
  rings : Table RingState
  ifaces : Table Iface
  probes : Table Probe
  pcmps : Table Pcmp
  culverts : Table Culvert
  ports : Table Port
  adc : Adc
  nvm : Nvm
  hg : Headgate
  ts : TimeSync
  power : Power
  island : Island
deriving DecidableEq, Repr

/-- The whole state of the block. -/
structure State where
  /-- machine time (R27) -/
  mt : Tick
  /-- Window A registers that differ from their reset values -/
  regs : Table Word
  /-- MT_HI and CAL_HI shadows are registers; the reservoir, by byte offset (R25) -/
  reservoir : List Host.Cell
  /-- 8-byte words of the reservoir that hold an uncorrectable error, by word number -/
  poison : List Nat
  /-- local RAM, keyed cluster × 65 536 + cell (R226) -/
  localRam : List Host.Cell
  /-- micro-store words, keyed by address; every cluster holds the same image (spec/10) -/
  ustore : Table Word
  chans : Table Chan
  trips : Table Trip
  mittens : Table Mitten
  pins : Table PinState
  shafts : Table Shaft
  weirs : Table Weir
  engines : Table Engine
  threads : Table Thread
  rings : Table RingState
  ifaces : Table Iface
  probes : Table Probe
  pcmps : Table Pcmp
  culverts : Table Culvert
  ports : Table Port
  /-- tick of the last export sample of each shaft (R337) -/
  exports : Table (Option Tick)
  adc : Adc
  cal : CalEngine
  swap : Swap
  nvm : Nvm
  hg : Headgate
  ts : TimeSync
  power : Power
  island : Island
  /-- events delivered by blocks and not yet latched (R292) -/
  irqEvents : List IrqEvent
  /-- the state at the start of the present BCLK cycle (none: nothing has changed since), the bits that hardware has set in it, the
  registers whose shadows or counts a host read has changed in it, those that a host has written in it, the hardware updates of RW fields
  in it, and those that the next cycle applies (R7) -/
  start : Option Snap
  raised : List HwSet
  touched : List Nat
  written : List Nat
  rwNow : Table Word
  rwNext : Table Word
  /-- the registers that have taken a write in a tick, with that tick, and the writes that wait behind them, oldest first (R407) -/
  wroteTick : Tick
  wrote : List Nat
  /-- registers whose write acts from the next tick on, and which have taken one in the present tick: the word before it (R288, R291) -/
  was : Table Word
  later : List LateWrite
  /-- captures that the end of the present tick or BCLK cycle brings, oldest first -/
  takes : List Take
  /-- the words that the last host read returned, and what the device has sent -/
  hostData : List Word
  sent : List Sent
  /-- the model's own: how many free values have been used (notes/assumptions/3.md) -/
  free : Nat
  /-- commands waiting, first in, first out -/
  pending : List Instr
deriving DecidableEq, Repr

def OutCmd.init : OutCmd := { tick := 0, level := false, both := false, sets := [], clears := [] }

def Chan.init : Chan :=
  { phase := 0, startDue := none, lastSource := none, lastPeriod := none, lastPeak := none, peaked := false, lastStart := none, modeEnd := none, matched := 0, matchTick := 0,
    matchMask := 0, writeTrig := [], outFineAct := 0, dtAct := 0, hiShadow := 0, inHist := [], inFirst := none,
    inSel := 0x3FF#32, inSelDue := none, level := false, bothLow := false, cmd := OutCmd.init, edges := [], lastEdge := none, held := none, delayed := none,
    lastFall := none, ptSkip := 0, ptRemain := 0, stopReq := none, trainStart := none, firstFine := none, fails0 := 0,
    fails1 := 0, measured := none, fresh := none, map0 := none, map1 := none, splitAt := none, lastTap := none, tdcCal := none, capPend := [], inLevel := false, lastIn := none,
    capRise := 0, capFall := 0, capWidth := 0, capSeq := 0, lastStored := none, riseUnread := false, fallUnread := false }

def Trip.init : Trip := { since := none, cfg := 0, cfgDue := none }

def Mitten.init : Mitten :=
  { cuffLast := none, blocked := [], cleared := false, idleFrom := 0, releaseAt := none }

/-- A pin after reset: PIN_OUT_SEL at its reset value 0x0004_01F0, hi-Z with weak pull-down (R362). -/
def PinState.init : PinState :=
  { sel := 0x000401F0#32, selDue := none, pad := .z, ext := none, lowSince := some 0, force := none, highApplied := false, trimOutDue := none,
    trimInDue := none }

def Estimate.init : Estimate :=
  { stamp := 0, pos := 0, omega := 0, alpha := 0, n := 0, rev := false, clampAt := none, p1 := none, pe := none }

def Shaft.init : Shaft :=
  { cands := [], lastTooth := none, opens := false, tooth := 0, toothPos := 0, toothRev := false, toothCount := 0, intervals := [], stamps := [],
    accepted := 0, candTooth := 0, fromLost := false, est := Estimate.init, held := none, next := [], synthSinceGap := false,
    lastSynth := false, gapMissed := false, dirTooth := false, afterStall := false, dirSince := none, history := [],
    cycleRev := 0, cycleSeen := 0, genOmega := 0, genAcc := 0, genTarget := 0, genPos := 0, genStep := 0, genStart := (0, 0, true), genSync := none, crossings := [],
    synced := false, jumpDue := false }

def WeirLedger.init : WeirLedger :=
  { accepted := 0, completed := 0, late := 0, shortened := 0, droppedPast := 0, droppedSync := 0, cancelled := 0,
    zero := 0 }

def Weir.init : Weir :=
  { slots := [], ledger := WeirLedger.init, order := 0, cancels := [], cancelAt := none, lastPost := none, posts := [], rekeyTick := 0, rekeyed := [], dispTick := 0, dispCount := 0,
    freeTick := 0, freed := [], fullTick := none, due := [], syncDue := [] }

def Thread.init : Thread := { wait := .none, metAt := none, metSt := 0, haltReq := false, owes := 0, upc := 0 }

def Engine.init : Engine :=
  { lastSel := (15, 15, 15, 15), ran := 0, sincePoll := 0, freeAt := 0, pollDue := false, switching := none, level := 1, bank := false,
    gateSince := none, wakeEnd := none, heldReads := [], resetEnd := none }

def RingState.init : RingState :=
  { offered := 0, admitted := 0, consumed := 0, spillCredit := 0, spillClosed := 0, spillUe := 0, flushed := 0,
    inflight := [], offers := [], cycle := none, wr0 := 0, rd0 := 0, fill0 := 0, credit0 := 0, returned := 0 }

def Converter.init : Converter := { queue := [], urgent := none, running := none, due := none, cal := 0 }

def AccVal.init : AccVal := { sum := 0, count := 0, rsum := 0, rcount := 0 }

def Accum.init : Accum := { val := AccVal.init, hits := [] }

def Adc.init : Adc :=
  { requests := 0, expanded := 0, reqNull := 0, issued := 0, delivered := 0, spillBusy := 0, spillFull := 0,
    spillClosed := 0, spillSat := 0, transit := [], convs := [], accs := [], mmHits := [] }

def Iface.init : Iface :=
  { abs := 0, lastStep := none, lastMove := none, edges := [], zEdges := [], steps := [], resample := none, clk := true, sample := none, prevSample := none, dev := 0, a := false, b := false,
    lastAcc := none, resampleAt := none, raw := [], pPrev := none, held := false, inWin := 0, outWin := 0, below := 0,
    good := 0, bad := 0, noAnswer := 0, frame := none, nextFrame := 0, lastGood := none, idxFaults := 0,
    idxPend := [], speed := 0, unit1 := none, unit0 := none, timedOut := false, gateStart := 0, gateSteps := 0,
    gateNet := 0, gateFrom := none }

def Probe.init : Probe := { stamp := 0, pos := 0, seq := 0, pend := [], unread := false, lastIn := none, chanEdges := [], edges := [], disarmed := none }

def Pcmp.init : Pcmp := { v := 0, rev := false, near := false, fireDue := none }

def Culvert.init : Culvert := { a := false, b := false, z := false, state := 0, gap := 0, nextDue := 0, raw := (false, false, false), pipe := [] }

/-- A key slot as the model's device leaves the factory: EMPTY, with MARK 4 096 and LAST = MARK − 1 (notes/assumptions/5.md). -/
def KeySlot.init : KeySlot := { key := 0, perm := 0, state := 0, last := 4095, mark := 4096 }

/-- The configuration space after a reset: Device Control as the standard resets it (notes/assumptions/68.md). -/
def PciConfig.init : PciConfig := { command := 0, bar0 := 0, bar2 := 0, intLine := 0, devCtl := 0x2810#16 }

def Port.init : Port :=
  { linkTick := 0, arp := [], waiting := [], heard := [], lastMsg := [], discSent := none, syncSent := none, annSent := none, pdelaySent := none,
    announced := none, pdelayOpen := none, pathDelay := 0, tx := [], txFree := 0 }

/-- What a host can read of the present state. -/
def State.snap (s : State) : Snap :=
  { mt := s.mt, regs := s.regs, localRam := s.localRam, ustore := s.ustore, chans := s.chans, mittens := s.mittens, pins := s.pins,
    shafts := s.shafts, weirs := s.weirs, engines := s.engines, threads := s.threads, rings := s.rings, ifaces := s.ifaces,
    probes := s.probes, pcmps := s.pcmps, culverts := s.culverts, ports := s.ports, adc := s.adc, nvm := s.nvm, hg := s.hg,
    ts := s.ts, power := s.power, island := s.island }

/-- The machine in the tick of the end of a POR (R364): MT 0, clocks running, every register at its reset value but CAUSE of RST_STATUS, which says POR
(R366), memories zeroed, the initial calibration round begun. The values the spec does not state are named in notes/assumptions/5.md.
Here no BCLK cycle has noted its start yet. -/
def State.atReset : State :=
  { mt := 0, regs := [(0x10044, 0x80000001#32)], reservoir := [], poison := [], localRam := [], ustore := [], chans := [], trips := [],
    mittens := [], pins := [], shafts := [], weirs := [], engines := [], threads := [], rings := [], ifaces := [],
    probes := [], pcmps := [], culverts := [], ports := [], exports := [], adc := Adc.init,
    cal := { initial := some (0, false), slotDue := none, nextCh := 0, slotRan := false, measuring := some (0, 1000), roundStart := 0, tdc := none },
    swap := { list := [], stamp := 0, theta := 0, rev := false, dirq := 0, keyed := false, late := false, fTick := 0,
              tTick := 0 },
    nvm := { sealed := false, floor := 0, ucal := [], mirror := none, identityValid := true, keysValid := true,
             ucalValid := true },
    hg := { keys := [], queue := [], ringSince := none, serving := none, waiting := none, pairs := none, nvmOps := [], held := none, offered := false, resetAfter := false, resetDue := false, kick := 0,
            expired := none, qspi := 0 },
    ts := { good := 0, measured := false, lastSync := 0, seconds := 0, trims := [] },
    power := { phase := .run, cause := 1, hibReq := none, pwrEn := true, rails := true, resetLow := false,
               syncOut := [], msixReq := 0, pba := 0, msixEnable := false, fnMask := false, cfg := PciConfig.init, heldHost := [], bclk := true },
    island := { calendar := 0, wear := [], owed := [], setReq := false, ptpReq := false, lastMirror := 0, mirrorBusy := none,
                mirrorDue := false, restoreDue := false },
    irqEvents := [], start := none, raised := [], touched := [], written := [], rwNow := [], rwNext := [], wroteTick := 0, wrote := [], was := [], later := [], takes := [], hostData := [], sent := [], free := 0, pending := [] }

/-- The state after reset. MT 0 begins a BCLK cycle, and hosts read it as it stands here (R7). -/
def State.reset : State := { State.atReset with start := some State.atReset.snap }

end Sys2Proof.Machine
end

