-- ==== Sys2Proof/Machine/Table.lean ====
section
/-!
DEFINITION. Reading and writing a sparse table. A table lists the keys whose value is not the default, keys strictly rising, so that
equal tables are equal lists.
-/

namespace Sys2Proof.Machine

/-- The value at key `a`; an unlisted key holds the default `d a`. -/
def Table.get {α : Type} (d : Nat → α) (t : Table α) (a : Nat) : α :=
  match t with
  | [] => d a
  | (k, v) :: rest => if k = a then v else Table.get d rest a

/-- The table without key `a`. -/
def Table.erase {α : Type} (t : Table α) (a : Nat) : Table α :=
  match t with
  | [] => []
  | (k, v) :: rest => if k = a then Table.erase rest a else (k, v) :: Table.erase rest a

/-- The table with key `a` put before the first larger key. -/
def Table.insert {α : Type} (t : Table α) (a : Nat) (v : α) : Table α :=
  match t with
  | [] => [(a, v)]
  | (k, w) :: rest => if a < k then (a, v) :: (k, w) :: rest else (k, w) :: Table.insert rest a v

/-- The table with value `v` at key `a`; a default value is not listed. -/
def Table.set {α : Type} [DecidableEq α] (d : Nat → α) (t : Table α) (a : Nat) (v : α) : Table α :=
  if v = d a then Table.erase t a else Table.insert (Table.erase t a) a v

/-- The table with `v` listed at key `a`. -/
def Table.put {α : Type} (t : Table α) (a : Nat) (v : α) : Table α := Table.insert (Table.erase t a) a v

/-- The canonical form: keys strictly rising, no default value listed. -/
def Table.wf {α : Type} [DecidableEq α] (d : Nat → α) : Table α → Bool
  | [] => true
  | [(k, v)] => decide (v ≠ d k)
  | (k, v) :: (k', v') :: rest => decide (k < k') && decide (v ≠ d k) && Table.wf d ((k', v') :: rest)

end Sys2Proof.Machine
end

