-- ==== Sys2Proof/Machine/Ops.lean ====
section
/-!
DEFINITION. The named operations that every meaning uses: registers, the per-instance structures, byte memories, stamps, free
values, counters and the delivery of interrupt events.
-/

namespace Sys2Proof.Machine

/-! ### Registers -/

/-- The stored word of the register at Window A address `a`. -/
def State.reg (s : State) (a : Nat) : Word := s.regs.get resetWord a

/-- The state with word `v` stored at address `a`. -/
def State.setReg (s : State) (a : Nat) (v : Word) : State := { s with regs := s.regs.set resetWord a v }

/-- A field of a stored register. -/
def State.fld (s : State) (a hi lo : Nat) : Nat := bitsOf (s.reg a) hi lo

/-- The state with a field of a stored register replaced. -/
def State.setFld (s : State) (a hi lo v : Nat) : State := s.setReg a (setBits (s.reg a) hi lo v)

/-- A bit of a stored register. -/
def State.bit (s : State) (a i : Nat) : Bool := bitOf (s.reg a) i

/-- The state with a bit of a stored register replaced. -/
def State.setBit (s : State) (a i : Nat) (b : Bool) : State := s.setReg a (putBit (s.reg a) i b)

/-- The state with an update of hardware noted: a host or KCI access of the same window keeps it (R7). -/
def State.noteHw (s : State) (a i : Nat) (fresh : Bool) : State :=
  { s with raised := { addr := a, bit := i, tick := s.mt, fresh := fresh } :: s.raised }

/-- Hardware sets bit `i` of the register at `a`: it wins over a clearing write of the same BCLK cycle (R7). -/
def State.raise (s : State) (a i : Nat) : State := (s.setBit a i true).noteHw a i (!s.bit a i)

/-- Bit `i` of `a` is raised when `c` holds. -/
def State.raiseIf (s : State) (c : Bool) (a i : Nat) : State := if c then s.raise a i else s

/-- A counting register one up, holding at all ones. -/
def State.satCount (s : State) (a : Nat) : State :=
  (s.setReg a (satInc (s.reg a))).noteHw a 32 (s.reg a != BitVec.allOnes 32)

/-- A counting register up by `n`, holding at all ones. -/
def State.satAdd (s : State) (a n : Nat) : State := (List.range n).foldl (fun s _ => s.satCount a) s

/-- A counting register one up, modulo 2^32. -/
def State.count (s : State) (a : Nat) : State := s.setReg a (s.reg a + 1)

/-- A 64-bit value in a register pair. -/
def State.setPair (s : State) (lo hi : Nat) (v : BitVec 64) : State := (s.setReg lo (loWord v)).setReg hi (hiWord v)

/-- The 64-bit value of a register pair. -/
def State.pair (s : State) (lo hi : Nat) : BitVec 64 := ofWords (s.reg hi) (s.reg lo)

/-- The bits of the register at `a` that a write changes (R7). -/
def rwMask (a : Nat) : Word := match regRow a with | some r => BitVec.ofNat 32 r.rw | none => 0

/-- The bits of the register at `a` that hardware has set in the present BCLK cycle: a clearing write of the cycle leaves them (R7). -/
def State.keptBits (s : State) (a : Nat) : Word :=
  s.raised.foldl (fun w (u : HwSet) => if u.addr = a ∧ u.bit < 32 ∧ u.tick >>> 1 = s.mt >>> 1 then putBit w u.bit true else w) 0

/-- What hardware has added to the register at `a` in the present BCLK cycle: a read that clears it leaves this (R7). -/
def State.keptCount (s : State) (a : Nat) : Nat :=
  s.raised.foldl (fun n (u : HwSet) =>
    if u.addr = a ∧ u.tick >>> 1 = s.mt >>> 1 then (if u.bit = 32 then n + 1 else if 64 ≤ u.bit then max n (u.bit - 64) else n) else n) 0

/-- A word `w` of the register at `a` as it stood before the present tick's updates by hardware: what a KCI access samples (R7, R238). -/
def State.beforeTick (s : State) (a : Nat) (w : Word) : Word :=
  s.raised.foldl (fun w (u : HwSet) =>
    if u.addr = a ∧ u.tick = s.mt ∧ u.fresh = true then
      (if u.bit < 32 then putBit w u.bit false else if u.bit = 32 then w - 1 else w)
    else w) w

/-- The state as a KCI access sees it: its window is its own tick, not the BCLK cycle (R7, R238). -/
def State.inTick (s : State) : State := { s with raised := s.raised.filter (fun (u : HwSet) => u.tick == s.mt) }

/-- A KCI access `f` with its window; what hardware set earlier in the BCLK cycle stays known to the host. -/
def State.kciAccess (s : State) (f : State → State) : State :=
  let t := f s.inTick
  { t with raised := t.raised ++ s.raised.filter (fun (u : HwSet) => u.tick != s.mt) }

/-- The word of a register whose writes act from the next tick on, as the present tick uses it (R288, R291). -/
def State.prior (s : State) (a : Nat) : Word := match s.was.lookup a with | some w => w | none => s.reg a

/-- The register at `a` takes a word that acts from the next tick on. -/
def State.setNext (s : State) (a : Nat) (v : Word) : State :=
  { s with was := Table.put s.was a (s.prior a) }.setReg a v

/-- What hardware did to the register at `a` in the ticks of `p` is undone: an access that acts before it finds the register without it. -/
def State.undoHw (s : State) (a : Nat) (p : Tick → Bool) : State :=
  let hit (u : HwSet) : Bool := u.addr == a && p u.tick
  let w := s.raised.foldl (fun w (u : HwSet) =>
    if hit u && u.fresh then (if u.bit < 32 then putBit w u.bit false else if u.bit = 32 then w - 1 else w) else w) (s.reg a)
  { s.setReg a w with raised := s.raised.filter (fun (u : HwSet) => !hit u) }

/-- The tick lies in the BCLK cycle of the present tick: the window of a host access (R7). -/
def State.inCycle (s : State) (t : Tick) : Bool := t >>> 1 == s.mt >>> 1

/-- Hardware updates the RW register at `a`; a host write of the same BCLK cycle takes effect first, and the update in the next cycle
(R7, `State.noteHost`). -/
def State.setRw (s : State) (a : Nat) (v : Word) : State := { s.setReg a v with rwNow := Table.put s.rwNow a v }

/-- A hardware update of the RW register at `a`: with a host write of the same BCLK cycle it is applied in the next one (R7). -/
def State.hwUpdate (s : State) (a : Nat) (v : Word) : State :=
  if s.written.contains a then { s with rwNext := Table.put s.rwNext a v } else s.setRw a v

/-- A register write by access codes alone: RW bits take the value, W1C bits written 1 clear, unless hardware has set them in the same
BCLK cycle (R7). -/
def State.plainWrite (s : State) (a : Nat) (v : Word) : State :=
  match regRow a with
  | some r =>
    s.setReg a (mergeWord (s.reg a) v (BitVec.ofNat 32 r.rw) &&& ~~~ (v &&& BitVec.ofNat 32 r.w1c &&& ~~~ s.keptBits a))
  | none => s

/-! ### The structures of each block -/

def State.chan (s : State) (k : Nat) : Chan := s.chans.get (fun _ => Chan.init) k
def State.setChan (s : State) (k : Nat) (c : Chan) : State := { s with chans := s.chans.set (fun _ => Chan.init) k c }
def State.trip (s : State) (i : Nat) : Trip := s.trips.get (fun _ => Trip.init) i
def State.setTrip (s : State) (i : Nat) (c : Trip) : State := { s with trips := s.trips.set (fun _ => Trip.init) i c }
def State.mitten (s : State) (m : Nat) : Mitten := s.mittens.get (fun _ => Mitten.init) m
def State.setMitten (s : State) (m : Nat) (c : Mitten) : State :=
  { s with mittens := s.mittens.set (fun _ => Mitten.init) m c }
def State.pin (s : State) (p : Nat) : PinState := s.pins.get (fun _ => PinState.init) p
def State.setPin (s : State) (p : Nat) (c : PinState) : State := { s with pins := s.pins.set (fun _ => PinState.init) p c }
def State.shaft (s : State) (h : Nat) : Shaft := s.shafts.get (fun _ => Shaft.init) h
def State.setShaft (s : State) (h : Nat) (c : Shaft) : State := { s with shafts := s.shafts.set (fun _ => Shaft.init) h c }
def State.weir (s : State) (n : Nat) : Weir := s.weirs.get (fun _ => Weir.init) n
def State.setWeir (s : State) (n : Nat) (c : Weir) : State := { s with weirs := s.weirs.set (fun _ => Weir.init) n c }
def State.engine (s : State) (n : Nat) : Engine := s.engines.get (fun _ => Engine.init) n
def State.setEngine (s : State) (n : Nat) (c : Engine) : State :=
  { s with engines := s.engines.set (fun _ => Engine.init) n c }
/-- Thread `t` of cluster `n` is entry n × 16 + t. -/
def State.thread (s : State) (n t : Nat) : Thread := s.threads.get (fun _ => Thread.init) (n * 16 + t)
def State.setThread (s : State) (n t : Nat) (c : Thread) : State :=
  { s with threads := s.threads.set (fun _ => Thread.init) (n * 16 + t) c }
def State.ring (s : State) (r : Nat) : RingState := s.rings.get (fun _ => RingState.init) r
def State.setRing (s : State) (r : Nat) (c : RingState) : State :=
  { s with rings := s.rings.set (fun _ => RingState.init) r c }
def State.iface (s : State) (f : Nat) : Iface := s.ifaces.get (fun _ => Iface.init) f
def State.setIface (s : State) (f : Nat) (c : Iface) : State := { s with ifaces := s.ifaces.set (fun _ => Iface.init) f c }
def State.probe (s : State) (p : Nat) : Probe := s.probes.get (fun _ => Probe.init) p
def State.setProbe (s : State) (p : Nat) (c : Probe) : State := { s with probes := s.probes.set (fun _ => Probe.init) p c }
def State.pcmp (s : State) (j : Nat) : Pcmp := s.pcmps.get (fun _ => Pcmp.init) j
def State.setPcmp (s : State) (j : Nat) (c : Pcmp) : State := { s with pcmps := s.pcmps.set (fun _ => Pcmp.init) j c }
def State.culvert (s : State) (i : Nat) : Culvert := s.culverts.get (fun _ => Culvert.init) i
def State.setCulvert (s : State) (i : Nat) (c : Culvert) : State :=
  { s with culverts := s.culverts.set (fun _ => Culvert.init) i c }
def State.port (s : State) (p : Nat) : Port := s.ports.get (fun _ => Port.init) p
def State.setPort (s : State) (p : Nat) (c : Port) : State := { s with ports := s.ports.set (fun _ => Port.init) p c }
def State.conv (s : State) (c : Nat) : Converter := s.adc.convs.get (fun _ => Converter.init) c
def State.setConv (s : State) (c : Nat) (v : Converter) : State :=
  { s with adc := { s.adc with convs := s.adc.convs.set (fun _ => Converter.init) c v } }
def State.accum (s : State) (k : Nat) : Accum := s.adc.accs.get (fun _ => Accum.init) k
def State.setAccum (s : State) (k : Nat) (v : Accum) : State :=
  { s with adc := { s.adc with accs := s.adc.accs.set (fun _ => Accum.init) k v } }
def State.key (s : State) (k : Nat) : KeySlot := s.hg.keys.get (fun _ => KeySlot.init) k
def State.setKey (s : State) (k : Nat) (v : KeySlot) : State :=
  { s with hg := { s.hg with keys := s.hg.keys.set (fun _ => KeySlot.init) k v } }
/-- Wear counter `w` (R373). -/
def State.wear (s : State) (w : Nat) : BitVec 48 := s.island.wear.get (fun _ => 0) w
def State.setWear (s : State) (w : Nat) (v : BitVec 48) : State :=
  { s with island := { s.island with wear := s.island.wear.set (fun _ => 0) w v } }

/-- An event of wear source `src` with index `idx`: one is owed to each counter that selects it (R372, R373). WEAR_CFG resets to SRC 0x0,
so the counters that count are among the listed registers. -/
def State.noteWear (s : State) (src idx : Nat) : State :=
  let ws := s.regs.filterMap (fun e =>
    if 0xB0100 ≤ e.1 ∧ e.1 < 0xB0200 ∧ bitsOf e.2 27 24 = src ∧ bitsOf e.2 8 0 = idx then some ((e.1 - 0xB0100) / 4) else none)
  ws.foldl (fun s w =>
    { s with island := { s.island with owed := s.island.owed.set (fun _ => []) w (s.island.owed.get (fun _ => []) w ++ [s.mt]) } }) s

/-! ### Byte memories -/

/-- A byte of a memory; an unlisted byte reads 0 (notes/assumptions/4.md). -/
def Memory.byte (m : List Host.Cell) (a : Nat) : Byte := Table.get (fun _ => 0) m a

/-- The memory with byte `v` at `a`. -/
def Memory.setByte (m : List Host.Cell) (a : Nat) (v : Byte) : List Host.Cell := Table.set (fun _ => 0) m a v

/-- The canonical form of a memory. -/
def Memory.wf (m : List Host.Cell) : Bool := Table.wf (fun _ => (0 : Byte)) m

/-- `n` bytes from `a`, little-endian, as a number. -/
def Memory.read (m : List Host.Cell) (a : Nat) : Nat → Nat
  | 0 => 0
  | n + 1 => (Memory.byte m a).toNat + 256 * Memory.read m (a + 1) n

/-- The memory with the `n` low bytes of `v` at `a`, little-endian. -/
def Memory.write (m : List Host.Cell) (a v : Nat) : Nat → List Host.Cell
  | 0 => m
  | n + 1 => Memory.write (Memory.setByte m a (BitVec.ofNat 8 v)) (a + 1) (v / 256) n

/-- Bytes of the reservoir from offset `a`, taken modulo its 16 MiB. -/
def State.resRead (s : State) (a n : Nat) : Nat := Memory.read s.reservoir a n
def State.resWrite (s : State) (a v n : Nat) : State := { s with reservoir := Memory.write s.reservoir a v n }

/-- Does an 8-byte word that holds an uncorrectable error lie in `a .. a + n − 1`? -/
def State.resPoisoned (s : State) (a n : Nat) : Bool :=
  s.poison.any (fun w => decide (w * 8 < a + n) && decide (a < w * 8 + 8))

/-- Whole 8-byte words of the reservoir written from offset `a`: an uncorrectable error in them is gone (R25). -/
def State.resWriteWords (s : State) (a v words : Nat) : State :=
  { s.resWrite a v (8 * words) with poison := s.poison.filter (fun w => !(decide (a / 8 ≤ w) && decide (w < a / 8 + words))) }

/-! ### Time -/

/-- The stamp of fine step `f` of tick `t` (R29). -/
def stampAt (t : Tick) (f : BitVec 6) : Stamp := (t <<< 6) ||| (f.zeroExtend 64)

/-- The stamp of the start of the present tick. -/
def State.now (s : State) : Stamp := stampAt s.mt 0

/-- The tick field of a stamp (R29). -/
def tickOf (st : Stamp) : Tick := st >>> 6

/-- Signed distance of stamp `a` ahead of `b` (R30). -/
def ahead (a b : BitVec 64) : Int := (a - b).toInt

/-- The tick of machine time in which stamp `st` lies: the one nearest to the present tick whose low 58 bits it holds (R29, R30). -/
def State.tickFor (s : State) (st : Stamp) : Tick := s.mt + ((st - s.now).sshiftRight 6)

/-- Tick `t` has come: it is not in the future of the present tick. -/
def State.reached (s : State) (t : Tick) : Bool := decide (0 ≤ ahead s.mt t)

/-- The tick that holds stamp `st` has begun: no fine step of it is later than the present tick (R29, R30). -/
def State.stampReached (s : State) (st : Stamp) : Bool := decide (ahead st s.now < 64)

/-- Stamp `a` is not later than stamp `b`, both ordered against the present MT stamp (R30). -/
def State.notLater (s : State) (a b : Stamp) : Bool := decide (ahead a s.now ≤ ahead b s.now)

/-- Stamp `a` is earlier than stamp `b` (R30). -/
def State.earlier (s : State) (a b : Stamp) : Bool := decide (ahead a s.now < ahead b s.now)

/-- Stamp `a` is later than stamp `b`, both ordered against `now` (R30). -/
def laterThan (now a b : Stamp) : Bool := decide (ahead b now < ahead a now)

/-- The earliest of a list of stamps (R69). -/
def State.earliest (s : State) : Stamp → List Stamp → Stamp
  | a, [] => a
  | a, b :: rest => if s.earlier b a then s.earliest b rest else s.earliest a rest

/-! ### Free values -/

/-- A value the spec leaves open: the next entry of the free stream (notes/assumptions/3.md). -/
def State.freeValue (s : State) : BitVec 64 := Config.freeWord s.free

/-- The free stream, one value on. -/
def State.useFree (s : State) : State := { s with free := s.free + 1 }

/-! ### Interrupt events and messages -/

/-- A source delivers an event in the present tick, with its CAUSE bit when it has one (R290). -/
def State.deliver (s : State) (source : Nat) (cause : Option Nat) : State :=
  { s with irqEvents := s.irqEvents ++ [{ source := source, bit := cause, tick := s.mt }] }

/-- A gathering source delivers only a sub-event that its select register chooses (R290). -/
def State.deliverIf (s : State) (sel selBit source cause : Nat) : State :=
  if bitOf (s.prior sel) selBit then s.deliver source (some cause) else s

/-- Sub-event `e` of channel `k` (CL_CHAN): 0 WRAP, 1 DONE, 2 START_REFUSED, 3 LINE_FAULT, 4 CAL_STALE. -/
def State.chanEvent (s : State) (k e : Nat) : State := s.deliverIf (Reg.CH_IRQ_SEL k) e (k / 16) (k % 16)

/-- Sub-event `e` of the weir of cluster `n` (CL_WEIR): 0 DROPPED_PAST, 1 DROPPED_SYNC, 2 WEIR_FULL_CNT, 3 CONGEST_CNT. -/
def State.weirEvent (s : State) (n e : Nat) : State := s.deliverIf (Reg.CL_IRQ_SEL n) e (24 + n) e

/-- Thread `t` of cluster `n` enters FAULTED (CL_ENG). -/
def State.threadFaultEvent (s : State) (n t : Nat) : State := s.deliverIf (Reg.CL_IRQ_SEL n) 4 (48 + n) t

/-- USTORE_ERR of cluster `n` is set (CL_ENG). -/
def State.ustoreEvent (s : State) (n : Nat) : State := s.deliverIf (Reg.CL_IRQ_SEL n) 5 (48 + n) 16

/-- Sub-event `e` of shaft `h` (SHAFT): 0 SYNCED, 1 DEGRADED, 2 LOST, 3 STALLED, 4 a jump record. -/
def State.shaftEvent (s : State) (h e : Nat) : State := s.deliverIf (Reg.SH_IRQ_SEL h) e (72 + h) e

/-- Sub-event `e` of feedback interface `f`: 0 INDEX_SLIP, 1 INDEX_FAULT, 2 FEEDBACK_FAULT, 3 ATT_STATE. -/
def State.fbEvent (s : State) (f e : Nat) : State := s.deliverIf (Reg.FB_IRQ_SEL f) e (160 + f) e

/-- Sub-event `e` of ring `r`: 0 ABOVE_WATER, 1 host non-empty, 2 spillway. -/
def State.ringEvent (s : State) (r e : Nat) : State := s.deliverIf (Reg.RING_IRQ_SEL r) e (184 + r) e

/-- HOST source: 0 headgate, 1 Ponar, 2 watchdog expiry. -/
def State.hostEvent (s : State) (e : Nat) : State := s.deliver 254 (some e)

/-- SYSTEM source: 0 RESV_UE, 1 port 0, 2 port 1, 3 power, 4 lifetime. -/
def State.sysEvent (s : State) (e : Nat) : State := s.deliver 255 (some e)

/-- RESV_UE of GSTAT is set, with its interrupt event at the rising edge (R25, R290). -/
def State.setResvUe (s : State) : State :=
  if s.bit Reg.GSTAT 7 then s else (s.setBit Reg.GSTAT 7 true).sysEvent 0

/-! ### Window B writes (R25) -/

/-- Widths that Window B accepts, at natural alignment, within the reservoir (R25). -/
def windowBOk (off size : Nat) : Bool :=
  (size == 1 || size == 2 || size == 4 || size == 8) && off % size == 0 && decide (off + size ≤ 2 ^ 24)

/-- A Window B write: a whole word is replaced; a narrower write is a read-modify-write, discarded when its read finds an uncorrectable
error (R25). -/
def State.bWrite (s : State) (off size : Nat) (v : BitVec 64) : State :=
  if !windowBOk off size then s
  else if size = 8 then s.resWriteWords off v.toNat 1
  else if s.resPoisoned off size then s.setResvUe
  else s.resWrite off v.toNat size

/-- The device sends a message. -/
def State.send (s : State) (m : Sent) : State := { s with sent := s.sent ++ [m] }

/-- Every thread and weir waits for a verified image in every cluster (R12). -/
def State.ucodeValid (s : State) : Bool := s.bit Reg.ID_UCODE 0

/-! ### The BCLK cycle (R7) -/

/-- The state as it stood at the start of the present BCLK cycle, for what a host can read. -/
def State.cycleStart (s : State) : State :=
  match s.start with
  | none => s
  | some q =>
    { s with mt := q.mt, regs := q.regs, localRam := q.localRam, ustore := q.ustore, chans := q.chans, mittens := q.mittens,
             pins := q.pins, shafts := q.shafts, weirs := q.weirs, engines := q.engines, threads := q.threads, rings := q.rings,
             ifaces := q.ifaces, probes := q.probes, pcmps := q.pcmps, culverts := q.culverts, ports := q.ports, adc := q.adc,
             nvm := q.nvm, hg := q.hg, ts := q.ts, power := q.power, island := q.island }

/-- The state that a host read of `a` shows: as at the start of the BCLK cycle (R7, R43), but for a register whose shadow or count a host
read of the cycle has changed (notes/assumptions/74.md). -/
def State.seen (s : State) (a : Nat) : State := if s.touched.contains a then s else s.cycleStart

/-- The state `t` that a host read leaves, where the registers that it has changed from those of `s` now read as they stand: shadows that it
has latched, counts that it has cleared (R7, notes/assumptions/74.md). -/
def State.touchChanged (s t : State) : State :=
  { t with touched := ((s.regs ++ t.regs).map Prod.fst).filter (fun a => s.reg a != t.reg a) ++ t.touched }

/-- The RC bits of the register at `a`. -/
def rcMask (a : Nat) : Word := match regRow a with | some r => BitVec.ofNat 32 r.rc | none => 0

/-- An RC field is cleared by a read; what hardware has added to it in the window of the access is kept in it (R7). -/
def State.rcClear (s : State) (a : Nat) : State :=
  if rcMask a = 0 then s
  else
    let t := s.setReg a (mergeWord (s.reg a) (BitVec.ofNat 32 (s.keptCount a)) (rcMask a))
    { t with raised := t.raised.filter (fun (u : HwSet) => !(u.addr == a && decide (32 ≤ u.bit))), touched := a :: t.touched }

/-- A BCLK cycle begins: the updates that the last one left for it are applied, and hosts read the state as it now stands (R7). -/
def State.openCycle (s : State) : State :=
  if s.mt.getLsbD 0 then s
  else
    let s := s.rwNext.foldl (fun s e => s.setReg e.1 e.2) s
    { s with start := some s.snap, raised := [], touched := [], written := [], rwNow := [], rwNext := [] }

/-- A capture that takes place at the end of the present tick, or of the BCLK cycle for a ring snapshot (R65, R151, R174, R268, R287, R374). -/
def State.noteTake (s : State) (t : Take) : State := { s with takes := s.takes ++ [t] }

/-! ### Host accesses and the clock -/

/-- TCLK runs: no NAP, HIBERNATE, POR or pin reset is in force (R355, R358, R360). -/
def State.tclk (s : State) : Bool := s.power.phase == .run || s.power.phase == .soft

/-- What an event of the TCLK domain does: `t` while TCLK runs, nothing while it is stopped. -/
def State.onTclk (s t : State) : State := if s.tclk then t else s

/-- What a host read row does: the words it returns are in `hostData`. During a watchdog or soft reset Window A reads 0 (R360); while
TCLK or BCLK is stopped no access takes place (R349, R356). -/
def State.hostRead (s : State) (r : State → Word × State) : State :=
  match s.power.phase with
  | .run => if s.power.bclk then let q := r s; { s.touchChanged q.2 with hostData := [q.1] } else s
  | .soft => { s with hostData := [0] }
  | _ => s

/-- Block, cluster and offset of an address in a cluster block. -/
def clusterOf (a : Nat) : Nat := (a - 0x1000000) / 0x100000
def clusterOff (a : Nat) : Nat := (a - 0x1000000) % 0x100000

/-- Address `a` is one of the thread context registers of R213, by its offset in the thread's block. -/
def threadContext (off : Nat) : Bool :=
  off == 0x08 || off == 0x0C || off == 0x10 || off == 0x18 || off == 0x1C || decide (0x40 ≤ off ∧ off < 0x80)

/-- A direct write of `v` to the register at `a` is one that SEAL refuses (R318). -/
def State.sealLocks (s : State) (a : Nat) (v : Word) : Bool :=
  s.nvm.sealed && (regRow a).isSome &&
    (if 0x1000000 ≤ a then
       let off := clusterOff a
       decide (0x6000 ≤ off) && decide (off < 0x7000) && (threadContext (off % 0x100) || (off % 0x100 == 0 && bitOf v 1))
     else match a / 0x10000 with
       | 5 => if 0x50400 ≤ a ∧ a < 0x50C00 ∧ a % 0x40 = 0x10 then s.bit (a - 0xC) 2 else !(decide (0x50080 ≤ a) && decide (a < 0x50400))
       | 6 => decide (a < 0x60C00)
       | 12 => a == Reg.CALENG_CAL_CTRL
       | 3 => a == Reg.WDOG_CFG || decide (0x30080 ≤ a ∧ a ≤ 0x30094)
       | 7 => decide (0x70400 ≤ a ∧ a < 0x70800) && a % 16 == 4
       | 8 => decide (0x81000 ≤ a ∧ a < 0x81800) && (a % 0x100 == 0xC || a % 0x100 == 0x10 || a % 0x100 == 0x14)
       | _ => false)

/-- A locked write is discarded, counted and reported; a GO of KEY_LOAD_GO also sets REFUSED (R315, R319). -/
def State.lockRefused (s : State) (a : Nat) (v : Word) : State :=
  let s := (s.satCount Reg.LOCK_REFUSED_CNT).setReg Reg.LOCK_ADDR (BitVec.ofNat 32 a)
  let s := (s.raise Reg.HG_EVENT 1).hostEvent 0
  if a = Reg.KEY_LOAD_GO ∧ bitOf v 0 then s.setBit Reg.KEY_LOAD_CTRL 31 true else s

/-- The access meets the stopped part of a gated cluster, offsets 0x0_5000 to 0x1_FFFF, and waits for its wake (R352). -/
def State.meetsGate (s : State) (a : Nat) : Bool :=
  decide (0x1000000 ≤ a) && decide (0x5000 ≤ clusterOff a) && decide (clusterOff a < 0x20000) && decide (clusterOf a < 24) &&
    s.bit Reg.CG_MAP (clusterOf a)

/-- The address is one of the part of cluster `n` that gating stops. -/
def inStopped (n a : Nat) : Bool :=
  decide (0x1000000 ≤ a) && clusterOf a == n && decide (0x5000 ≤ clusterOff a) && decide (clusterOff a < 0x20000)

/-- The gating condition of cluster `n` does not hold in the present tick: its 16 ticks begin afresh, unless they have passed (R351). -/
def State.breakGate (s : State) (n : Nat) : State :=
  match (s.engine n).gateSince with
  | some t => if s.reached (t + 16) then s else s.setEngine n { s.engine n with gateSince := none }
  | none => s

/-! ### Ponar messages (R307) -/

def Msg.magic (m : Msg) : Nat := bitsOf m.h0 31 24
def Msg.ver (m : Msg) : Nat := bitsOf m.h0 23 20
def Msg.crit (m : Msg) : Bool := bitOf m.h0 17
def Msg.type (m : Msg) : Nat := bitsOf m.h0 15 8
def Msg.len (m : Msg) : Nat := bitsOf m.h1 15 0
def Msg.slot (m : Msg) : Nat := bitsOf m.h3 2 0
def Msg.ctr (m : Msg) : BitVec 48 := (bitsOf m.h3 31 16 * 2 ^ 32 + m.h2.toNat : Nat)

/-- The stopped parts of cluster `n` that the Ponar request in service reaches: an address that it reads or writes, or a cluster whose
local RAM it loads (R352). -/
def State.ponarWants (s : State) (n : Nat) : Bool :=
  let hits (a : Word) : Bool :=
    decide (0x1000000 ≤ a.toNat) && decide (0x5000 ≤ clusterOff a.toNat) && decide (clusterOff a.toNat < 0x20000) &&
      clusterOf a.toNat == n
  match s.hg.serving with
  | some m =>
    match m.type with
    | 0x03 => m.payload.any hits
    | 0x04 => (List.range (m.len / 8)).any (fun i => hits (m.payload.getD (2 * i) 0))
    | 0x21 => bitOf (m.payload.getD 1 0) n
    | _ => false
  | none => false

/-- The Ponar request in service waits for the wake of a cluster. -/
def State.ponarGated (s : State) : Bool := (List.range 24).any (fun n => s.bit Reg.CG_MAP n && s.ponarWants n)

/-- A read waits for the end of the wake of its cluster. -/
def State.holdRead (s : State) (a : Nat) : State :=
  let n := clusterOf a
  s.setEngine n { s.engine n with heldReads := (s.engine n).heldReads ++ [a] }

/-- The register that a waiting write names. -/
def LateWrite.addr : LateWrite → Option Nat
  | .host _ a _ => some a
  | .windowB .. => none
  | .thread _ _ a _ => some a
  | .flags a _ => some a
  | .swap a _ => some a.toNat
  | .engine a _ => some a

/-- The register at `a` has taken its write of the present tick (R407). -/
def State.wroteAlready (s : State) (a : Nat) : Bool := s.wroteTick == s.mt && s.wrote.contains a

/-- The register at `a` has taken its write of the present tick, or a swap list takes it (R254, R407). -/
def State.tookNow (s : State) (a : Nat) : Bool :=
  s.wroteAlready a ||
    (s.bit Reg.SWAP_STATUS 28 && s.swap.tTick == s.mt && s.swap.list.any (fun e => e.1.toNat == a))

/-- A write to the register at `a` cannot commit in the present tick: the register has taken its write, or earlier writes wait for it. -/
def State.wroteNow (s : State) (a : Nat) : Bool := s.tookNow a || s.later.any (fun w => w.addr == some a)

/-- The register at `a` takes its write of the present tick. -/
def State.noteWrote (s : State) (a : Nat) : State :=
  { s with wroteTick := s.mt, wrote := a :: (if s.wroteTick = s.mt then s.wrote else []) }

/-- A host write to `a` commits: the register takes its write of the tick, and a hardware update of its RW field in the same BCLK cycle is
left to the next one (R7, R407). -/
def State.noteHost (s : State) (a : Nat) : State :=
  let t := s.noteWrote a
  { t with written := a :: s.written,
           rwNext := match s.rwNow.lookup a with | some w => Table.put s.rwNext a w | none => s.rwNext }

/-- A write of the headgate engine to the register at `a`, which acts from the next tick on; it waits behind another write of the register
(R288, R383, R407). -/
def State.engineWrite (s : State) (a : Nat) (v : Word) : State :=
  if s.wroteNow a then { s with later := s.later ++ [.engine a v] } else (s.noteWrote a).setNext a v

/-- Writes of the headgate engine or of the swap to different registers: each commits, or waits behind another write of its register (R407). -/
def State.engineWrites (s : State) (l : List (Nat × Word)) : State :=
  let go := l.filter (fun e => !s.wroteNow e.1)
  let t := go.foldl (fun s e => s.setReg e.1 e.2) s
  { t with wroteTick := s.mt, wrote := go.map Prod.fst ++ (if s.wroteTick = s.mt then s.wrote else []),
           later := s.later ++ (l.filter (fun e => s.wroteNow e.1)).map (fun e => .engine e.1 e.2) }

/-- A write of this host port waits, and with it every later one (R264). -/
def State.hostBlocked (s : State) (qspi : Bool) : Bool :=
  s.later.any (fun w => match w with | .host q _ _ => q == qspi | .windowB .. => !qspi | _ => false)

/-- A write of `v` by a host port to the register at `a`, whose own rule is `f`: refused by SEAL, put off behind an earlier write of the
port (R264), for a gated cluster (R352), behind another write of the register (R407) or until BCLK has started after NAP (R349), or
committed in the present tick. While no clock runs or a reset is in force it is discarded (R355, R360). -/
def State.portWrite (s : State) (qspi : Bool) (a : Nat) (v : Word) (f : State → State) : State :=
  if s.power.phase != .run then s
  else if s.sealLocks a v then s.lockRefused a v
  else if s.hostBlocked qspi || s.meetsGate a || s.wroteNow a || !s.power.bclk then { s with later := s.later ++ [.host qspi a v] }
  else f (s.noteHost a)

/-- A host write through PCIe. -/
def State.hostWrite (s : State) (a : Nat) (v : Word) (f : State → State) : State := s.portWrite false a v f

/-- Fold an operation over the numbers below `n`, in rising order. -/
def foldBelow {σ : Type} (n : Nat) (f : σ → Nat → σ) (s : σ) : σ := (List.range n).foldl f s

end Sys2Proof.Machine
end

