-- ==== Sys2Proof/Machine/Pins.lean ====
section
/-!
DEFINITION. The pin matrix, the force stage and the taking of trips: shared operations of spec/01_architecture.md (R20, R21) and
spec/06_trips_and_mittens.md (R106 to R116). The meanings of the trip commands are in Trips.lean.
-/

namespace Sys2Proof.Machine

open Reg

/-! ### The pin matrix -/

/-- Output level of channel `k` leaving its edge unit (R66). -/
def State.outLevel (s : State) (k : Nat) : Bool := s.bit (OUT_STATUS k) 8

/-- The level of the source that a PIN_OUT_SEL word selects, after INVERT. -/
def State.pinSource (s : State) (sel : Word) : Bool :=
  let src := bitsOf sel 8 0
  let lvl :=
    if src < 384 then s.outLevel src
    else if src < 0x198 then
      let c := s.culvert ((src - 0x180) / 3)
      if (src - 0x180) % 3 = 0 then c.a else if (src - 0x180) % 3 = 1 then c.b else c.z
    else src == 0x1F1
  lvl != bitOf sel 15

/-- Channel pins that no mitten forces are in their reset state: no verified image yet, or a microcode load runs (R12, R217). -/
def State.pinsHeld (s : State) : Bool := !s.ucodeValid || s.bit UC_LOAD_STATUS 31

/-- TCLK is stopped: NAP and the wake from it (R121). -/
def State.napping (s : State) : Bool := s.power.phase == .nap || s.power.phase == .waking

/-- The pads have no power: HIBERNATE (R362). -/
def State.padsOff (s : State) : Bool := s.power.phase == .hibernate

/-- What the pin matrix drives at a pad that no mitten forces (R12, R13); in NAP only the pull is left (R362). -/
def State.matrixDrive (s : State) (sel : Word) : Pad :=
  if s.bit GSTAT 2 && !s.pinsHeld && !s.napping then
    let lvl := s.pinSource sel
    match bitsOf sel 17 16 with
    | 1 => if lvl then .high else .low
    | 2 => if lvl then .z else .low
    | _ => .z
  else .z

/-- The pins whose selection in effect is source `src`. -/
def State.pinsOf (s : State) (src : Nat) : List Nat :=
  s.pins.filterMap (fun e => if bitsOf e.2.sel 8 0 = src then some e.1 else none)

/-! ### The force stage -/

/-- PAIR_MODE of the pair of channel `k`, read at its even channel; 0b11 acts as 0b00. -/
def State.pairMode (s : State) (k : Nat) : Nat := s.fld (CH_CTRL (k / 2 * 2)) 23 22 % 3

/-- Channel `k` is one of a complementary pair (R76). -/
def State.inPair (s : State) (k : Nat) : Bool := s.pairMode k == 1

/-- The other channel of a pair. -/
def partnerCh (k : Nat) : Nat := if k % 2 = 0 then k + 1 else k - 1

/-- The partner pins of pin `p` (R114 to R116). -/
def State.partners (s : State) (p : Nat) : List Nat :=
  let src := bitsOf (s.pin p).sel 8 0
  if src < 384 && s.inPair src then s.pinsOf (partnerCh src) else []

/-- The dead time before channel `k` of a pair rises: DT_RISE for the even channel, DT_FALL for the odd one (R76). -/
def State.deadTime (s : State) (k : Nat) : Nat :=
  let dt := (s.chan (k / 2 * 2)).dtAct
  if k % 2 = 0 then bitsOf dt 31 16 else bitsOf dt 15 0

/-- The mittens that force, in rising order. -/
def State.forcingMittens (s : State) : List Nat := (List.range 32).filter (fun m => s.bit (MIT_STATUS m) 0)

/-- Pin `p` is in the set of mitten `m`. -/
def State.covers (s : State) (m p : Nat) : Bool := s.bit (MIT_PINS m (p / 32)) (p % 32)

/-- The action of mitten `m` for pin `p` (R110). -/
def State.actOf (s : State) (m p : Nat) : Nat := s.fld (MIT_ACT m (p / 16)) (p % 16 * 2 + 1) (p % 16 * 2)

/-- The mitten whose action applies to pin `p`, and the action: the lowest-numbered forcing mitten that covers it (R110). -/
def State.action (s : State) (p : Nat) : Option (Nat × Nat) :=
  match s.forcingMittens.find? (fun m => s.covers m p) with
  | some m => some (m, s.actOf m p)
  | none => none

/-- The force of pin `p` calls for a high pad: HIGH, or HOLD of a high level, whether driven or not (R20, R116). -/
def State.callsHigh (s : State) (p : Nat) : Bool :=
  match s.action p with
  | some (_, 1) => true
  | some (_, 3) => match (s.pin p).force with | some f => f.level | none => false
  | _ => false

/-- The force of pin `p` drives a high pad: no partner calls for one, and HIGH has passed the interlock (R115, R116). -/
def State.drivesHigh (s : State) (p : Nat) : Bool :=
  s.callsHigh p && !(s.partners p).any (fun q => s.callsHigh q) &&
    (match s.action p with
     | some (_, 1) => (s.partners p).isEmpty || (s.pin p).highApplied
     | _ => true)

/-- The pad after the force stage (R20, R110, R115, R116); hi-Z without power (R362). -/
def State.padOf (s : State) (p : Nat) : Pad :=
  if s.padsOff then .z
  else if (s.partners p).any (fun q => s.drivesHigh q) then .low
  else
    match s.action p with
    | none => s.matrixDrive (s.pin p).sel
    | some (_, 0) => .low
    | some (_, 1) => if s.drivesHigh p then .high else .low
    | some (_, 2) => .z
    | some (_, _) =>
      match (s.pin p).force with
      | some f => if f.level && !s.drivesHigh p then .low else f.drive
      | none => (s.pin p).pad

/-- A pin is forced, or held low as the partner of a forced high pin (R116). -/
def State.isForced (s : State) (p : Nat) : Bool :=
  (s.action p).isSome || (s.partners p).any (fun q => s.drivesHigh q)

/-- The pull at pin `p`: PULL of its selection; the weak pull-down of the reset state where no mitten forces the pin (R12) and while the
pads have no power (R362); with HOLD the pull that the pad had (R20). -/
def State.pinPull (s : State) (p : Nat) : Nat :=
  let cfg := bitsOf (s.pin p).sel 19 18
  if s.padsOff then 1
  else match (s.pin p).force with
    | none => if s.pinsHeld then 1 else cfg
    | some f => if s.actOf f.mitten p = 3 then f.pull else cfg

/-- A channel takes its input from pin `p`, so that each change of level at the ball is an INPUT_EDGE. -/
def State.pinTaken (s : State) (p : Nat) : Bool := (List.range 384).any (fun k => bitsOf (s.chan k).inSel 9 0 == p)

/-- The level at the ball: the pad's drive, else what an outside drive last showed, else the pull. With no pull the level that an edge
showed stands only while a channel takes it from the ball; else it is undefined in each tick (R408, notes/assumptions/69.md). -/
def State.pinLevel (s : State) (p : Nat) : Bool :=
  match (s.pin p).pad with
  | .high => true
  | .low => false
  | .z =>
    let free := Config.undrivenLevel s.free s.mt.toNat p
    match (s.pin p).ext with
    | some b => if s.pinPull p = 0 && !s.pinTaken p then free else b
    | none =>
      match s.pinPull p with
      | 2 => true
      | 0 => free
      | _ => false

/-- Record which mitten's action applies to pin `p`, and the pad at the moment it begins to (R20, R110). -/
def State.noteForce (s : State) (p : Nat) : State :=
  let ps := s.pin p
  match s.action p with
  | none => s.setPin p { ps with force := none, highApplied := false }
  | some (m, _) =>
    if ps.force.map Force.mitten = some m then s
    else s.setPin p { ps with force := some { mitten := m, drive := ps.pad, pull := s.pinPull p, level := s.pinLevel p }, highApplied := false }

/-- Bring pad `p` to what the matrix, the pull and the force stage give, and keep the time from which its ball is low; a level other than
the one it last had is a change of R372. What an outside drive showed does not outlast a drive of the pad (R408). -/
def State.settlePad (s : State) (at_ : Stamp) (p : Nat) : State :=
  let pad := s.padOf p
  let was := (s.pin p).lowSince
  let s' := s.setPin p { s.pin p with pad := pad, ext := if pad = .z then (s.pin p).ext else none }
  let low := !s'.pinLevel p
  let since := if low then (match was with | some st => some st | none => some at_) else none
  let s' := s'.setPin p { s'.pin p with lowSince := since }
  let s' := if low == was.isSome then s' else s'.noteWear 2 p
  match s.action p with
  | some (m, _) => if s.callsHigh p && !s.drivesHigh p then s'.raise (MIT_STATUS m) 4 else s'
  | none => s'

/-- The pins that a refresh visits: every pin while a mitten forces, else the pins that differ from their reset state. -/
def State.livePins (s : State) : List Nat :=
  if s.forcingMittens.isEmpty then s.pins.map Prod.fst else List.range 256

/-- The forced high of pin `p` may be applied: every partner has been low at its ball for the pin's dead time without a break
(R115), and no partner calls for a high level too (R116). -/
def State.interlockOpen (s : State) (p : Nat) : Bool :=
  let dt := BitVec.ofNat 64 (s.deadTime (bitsOf (s.pin p).sel 8 0))
  s.callsHigh p && !(s.partners p).any (fun q => s.callsHigh q) &&
    (s.partners p).all (fun q => match (s.pin q).lowSince with | some st => s.stampReached (st + dt) | none => false)

/-- A HIGH whose partners have already been low for the dead time does not wait: the interlock holds nothing (R115). -/
def State.passInterlock (s : State) (p : Nat) : State :=
  match s.action p with
  | some (_, 1) => if s.interlockOpen p then s.setPin p { s.pin p with highApplied := true } else s
  | _ => s

/-- Bring every pad up to date at stamp `at_`. -/
def State.refreshPins (s : State) (at_ : Stamp) : State :=
  let ps := s.livePins
  let s := ps.foldl State.noteForce s
  let s := ps.foldl State.passInterlock s
  ps.foldl (fun s p => s.settlePad at_ p) s

/-- A switching edge of the pins `ps` at stamp `at_` opens or extends the cuff of every mitten that covers one of them (R109). The end of an
open cuff is fixed by the CUFF and the pin set of its edge: a later write of either changes only the bound of CUFF + 1 ticks and the cuffs of
later edges (notes/assumptions/86.md). -/
def State.openCuffs (s : State) (at_ : Stamp) (ps : List Nat) : State :=
  foldBelow 32 (fun s m =>
    let cuff := s.fld (MIT_CUFF m) 15 0
    if cuff ≠ 0 && ps.any (fun p => s.covers m p) then
      s.setMitten m { s.mitten m with cuffLast := some (s.tickFor at_ + BitVec.ofNat 64 cuff) }
    else s) s

/-! ### The delay lines (R88, R91) -/

/-- The factory map of LINE 0 of channel `k`, whole taps from the OTP (R93). -/
def factoryMap (k : Nat) : TapMap :=
  let at_ (i : Nat) : BitVec 16 := (Config.otpByte (0x200 + 5 * k + i)).zeroExtend 16 <<< 8
  { p0 := at_ 0, p1 := at_ 1, p2 := at_ 2, p3 := at_ 3, p4 := at_ 4 }

/-- The two measured points on either side of fine value `f`. -/
def TapMap.around (m : TapMap) (f : Nat) : Nat × Nat :=
  match f / 16 with
  | 0 => (m.p0.toNat, m.p1.toNat)
  | 1 => (m.p1.toNat, m.p2.toNat)
  | 2 => (m.p2.toNat, m.p3.toNat)
  | _ => (m.p3.toNat, m.p4.toNat)

/-- The tap of fine value `f`: the nearest to the piecewise-linear interpolation, a tie to the lower (R88). -/
def TapMap.tap (m : TapMap) (f : Nat) : Nat :=
  let q := m.around f
  (q.1 * (16 - f % 16) + q.2 * (f % 16) + 2047) / 4096

/-- The measured taps per tick, in 1/256 tap (R88). -/
def TapMap.tpt (m : TapMap) : BitVec 16 := m.p4 - m.p0

/-- The line that emits an edge of channel `k` with stamp `st`: the line in service, but the old one for an edge before the split of the
last swap (R91). -/
def State.edgeLine (s : State) (k : Nat) (st : Stamp) : Nat :=
  let line := s.fld (EU_STATUS k) 0 0
  match (s.chan k).splitAt with
  | some b => if s.earlier st b then 1 - line else line
  | none => line

/-- The map that line `line` of channel `k` uses: the measured one, or while the line has none the factory map (R93). -/
def State.lineMap (s : State) (k line : Nat) : TapMap :=
  match (if line = 0 then (s.chan k).map0 else (s.chan k).map1) with
  | some m => m
  | none => factoryMap k

/-- The line and the tap by which an edge of channel `k` with stamp `st` leaves. -/
def State.edgeTap (s : State) (k : Nat) (st : Stamp) : Nat × Nat :=
  let line := s.edgeLine k st
  (line, (s.lineMap k line).tap (bitsOf (loWord st) 5 0))

/-- Channel output `k` takes level `lvl` at stamp `at_`: the edge leaves the edge unit and reaches the pads (R66, R75); a pad whose level
changes opens the cuffs, but for a forced pin (R109). -/
def State.emit (s : State) (k : Nat) (at_ : Stamp) (lvl : Bool) : State :=
  let pins := s.pinsOf k
  let before := (pins.filter (fun p => !s.isForced p)).map (fun p => (p, s.pinLevel p))
  let c := s.chan k
  let split := match c.splitAt with | some b => if s.earlier at_ b then c.splitAt else none | none => none
  let s := s.setChan k { c with lastEdge := some at_, splitAt := split, lastTap := some (s.edgeTap k at_), lastFall := if lvl then c.lastFall else some at_ }
  let s := if lvl && !s.outLevel k then s.noteWear 1 k else s
  let s := (s.setBit (OUT_STATUS k) 8 lvl).refreshPins at_
  let changed := (before.filter (fun e => s.pinLevel e.1 != e.2)).map Prod.fst
  if changed.isEmpty then s else s.openCuffs at_ changed

/-! ### Taking trips -/

/-- Source `i` (0 to 31 a trip input, 32 the host-link watchdog) is active for mitten `m` (R107). -/
def State.srcActive (s : State) (m i : Nat) : Bool :=
  if i < 32 then s.bit (MIT_MASK m) i && s.bit TRIP_ACTIVE i
  else s.bit (MIT_MODE m) 3 && s.hg.expired.isSome

/-- Some source of mitten `m` is active. -/
def State.anyActive (s : State) (m : Nat) : Bool := (List.range 33).any (fun i => s.srcActive m i)

/-- Mitten `m` forces its pins. -/
def State.forcing (s : State) (m : Nat) : Bool := s.bit (MIT_STATUS m) 0

/-- The cuff of mitten `m` is open in the present tick (R109); no cuff is open in NAP (R121). -/
def State.cuffOpen (s : State) (m : Nat) : Bool :=
  match (s.mitten m).cuffLast with
  | some t => decide (0 ≤ ahead t s.mt) && !s.napping
  | none => false

/-- Mitten `m` takes source `i`: it forces, latches in latched mode, and the status logic registers the take (R108, R111, R113). The take
stamp is that of the tick of the take, also for a source that a cuff has held back (notes/assumptions/86.md). -/
def State.take (s : State) (m i : Nat) : State :=
  let rose := !s.forcing m
  let latch := !s.bit (MIT_MODE m) 1
  let mt' := s.mitten m
  let s := s.setMitten m { mt' with cleared := false, releaseAt := none, blocked := mt'.blocked.filter (fun b => b.1 ≠ i) }
  let s := s.setReg (MIT_STATUS m)
    (setBits (putBit (putBit (s.reg (MIT_STATUS m)) 0 true) 1 (latch || s.bit (MIT_STATUS m) 1)) 13 8 i)
  let s := (s.setPair (MIT_TAKE_LO m) (MIT_TAKE_HI m) s.now).satCount (TAKE_CNT m)
  let s := if rose then s.deliver (88 + m) none else s
  s.refreshPins s.now

/-- A mitten takes a source while it does not force, or where it may take again before its release (R113). -/
def State.mayTake (s : State) (m : Nat) : Bool := !s.forcing m || s.bit (MIT_MODE m) 1 || (s.mitten m).cleared

/-- A source that no cuff blocks is taken where the mitten may take it. -/
def State.takeIfFree (s : State) (m i : Nat) : State := if s.mayTake m then s.take m i else s

/-- Source `i` becomes active: each enabled mitten takes it, or its cuff blocks it (R108). -/
def State.sourceOn (s : State) (i : Nat) : State :=
  foldBelow 32 (fun s m =>
    if s.bit (MIT_MODE m) 0 && s.srcActive m i then
      if i < 32 && s.cuffOpen m then
        s.setMitten m { s.mitten m with blocked := (s.mitten m).blocked ++ [(i, s.mt)] }
      else s.takeIfFree m i
    else s) s

/-- Source `i` becomes inactive: a mitten that still blocks it counts a blanked pulse (R108), and a release boundary may follow. -/
def State.sourceOff (s : State) (i : Nat) : State :=
  foldBelow 32 (fun s m =>
    let mt' := s.mitten m
    let had := mt'.blocked.any (fun b => b.1 == i)
    let selects := if i < 32 then s.bit (MIT_MASK m) i else s.bit (MIT_MODE m) 3
    let s := if had then s.satCount (BLANK_CNT m) else s
    if had || (selects && s.forcing m) then
      s.setMitten m { mt' with blocked := mt'.blocked.filter (fun b => b.1 ≠ i), idleFrom := s.mt }
    else s) s

/-- The filtered level of trip input `i` takes `b` (R106). -/
def State.setTripActive (s : State) (i : Nat) (b : Bool) : State :=
  if s.bit TRIP_ACTIVE i = b then s
  else
    let s := s.setBit TRIP_ACTIVE i b
    if b then s.sourceOn i else s.sourceOff i

/-- A period end of channel `k` in the present tick is the release point of each mitten that refers to it and has no active
source (R112). -/
def State.mittenPeriodEnd (s : State) (k : Nat) : State :=
  foldBelow 32 (fun s m =>
    let mt' := s.mitten m
    if s.forcing m && s.bit (MIT_CTRL m) 15 && s.fld (MIT_CTRL m) 8 0 == k && mt'.releaseAt.isNone &&
        (s.bit (MIT_MODE m) 1 || mt'.cleared) && !s.anyActive m then
      s.setMitten m { mt' with releaseAt := some (stampAt (s.mt + 16) 0) }
    else s) s

end Sys2Proof.Machine
end

