-- ==== Sys2Proof/Machine/Output.lean ====
section
/-!
DEFINITION. The output logic and the edge unit of a channel: spec/04_pulse_generation.md (R66 to R82). What counters, compares and
weirs tell an output goes through `outCommand` and `commandIdle`; what leaves the edge unit goes through `edgeUnit`.
-/

namespace Sys2Proof.Machine

open Reg

/-! ### Output modes -/

/-- OUT_MODE_ACT; 0b101..0b111 act as IDLE (R66). -/
def State.outMode (s : State) (k : Nat) : Nat :=
  let m := s.fld (OUT_CTRL k) 14 12
  if m < 5 then m else 0

/-- The counter of channel `k` runs (R47). -/
def State.running (s : State) (k : Nat) : Bool := s.bit (CH_CTRL k) 0 && s.reg (PERIOD_ACT k) != 0

/-- A counted pulse train is active (R79). -/
def State.trainActive (s : State) (k : Nat) : Bool := s.bit (PT_STATUS k) 0

/-- Channel `k` has an output of its own: the odd channel of a complementary pair follows its partner's reference (R77). -/
def State.ownOutput (s : State) (k : Nat) : Bool := !(s.inPair k && k % 2 == 1)

/-- The IDLE level, and whether it is "both outputs low" of a complementary pair (R70, R77). -/
def State.idleLevel (s : State) (k : Nat) : Bool × Bool :=
  (s.fld (OUT_CTRL k) 9 8 == 1, s.fld (OUT_CTRL k) 9 8 == 2 && s.inPair k)

/-! ### Pulse-train accounts -/

/-- A rise counted in PT_EMIT is discarded or cancelled: it moves to PT_SKIP (R80). -/
def State.trainSkip (s : State) (k : Nat) : State :=
  let s := s.setReg (PT_EMIT k) (s.reg (PT_EMIT k) - 1)
  s.setChan k { s.chan k with ptSkip := (s.chan k).ptSkip + 1 }

/-- `trainSkip` when the edge was counted. -/
def State.uncount (s : State) (k : Nat) (counted : Bool) : State := if counted then s.trainSkip k else s

/-! ### Commanding a level -/

/-- What the output logic had been told before the present tick, and in it so far. -/
def Chan.cmdNow (c : Chan) (t : Tick) : OutCmd :=
  if c.cmd.tick = t then c.cmd else { tick := t, level := c.level, both := c.bothLow, sets := [], clears := [] }

/-- The channel with the level `lvl` commanded at `st` in place of what the present tick commanded before. -/
def Chan.command (c : Chan) (cmd : OutCmd) (lvl both counted : Bool) (st : Stamp) : Chan :=
  let kept := c.edges.filter (fun e => e.cause ≠ cmd.tick)
  let change := lvl != cmd.level || both != cmd.both
  let edge : Edge := { stamp := st, level := lvl, counted := counted && change, both := both, cause := cmd.tick }
  { c with level := lvl, bothLow := both, cmd := cmd, edges := if change then kept ++ [edge] else kept }

/-- A counted rise that the present tick commanded. -/
def Chan.countedNow (c : Chan) (t : Tick) : Bool := c.edges.any (fun e => e.cause == t && e.counted)

/-- Sets and clears of output `k` in the present tick, at the stamps given; `train` marks a set that begins a train period (R68,
R69, R80). -/
def State.outCommand (s : State) (k : Nat) (sets clears : List Stamp) (train : Bool) : State :=
  if !s.ownOutput k || (sets.isEmpty && clears.isEmpty) then s
  else
    let c := s.chan k
    let cmd0 := c.cmdNow s.mt
    let cmd := { cmd0 with sets := cmd0.sets ++ sets, clears := cmd0.clears ++ clears }
    let was := c.countedNow s.mt
    let c' := match cmd.clears, cmd.sets with
      | st :: rest, _ => c.command cmd false false false (s.earliest st rest)
      | [], st :: rest => c.command cmd true false (train || was) (s.earliest st rest)
      | [], [] => c
    let s := (s.setChan k c').setBit (OUT_STATUS k) 1 false
    if was && !c'.countedNow s.mt then s.trainSkip k else s

/-- The output is commanded to its IDLE level in the present tick, at fine offset 0 (R70). -/
def State.commandIdle (s : State) (k : Nat) : State :=
  if !s.ownOutput k then s
  else
    let c := s.chan k
    let cmd := { c.cmdNow s.mt with sets := [], clears := [] }
    let was := c.countedNow s.mt
    let s' := (s.setChan k (c.command cmd (s.idleLevel k).1 (s.idleLevel k).2 false (stampAt (s.mt + 16) 0))).setBit
      (OUT_STATUS k) 1 true
    s'.uncount k was

/-- An active train ends; an early end sets ABORTED. The output takes the IDLE level (R80, R81). -/
def State.trainEnd (s : State) (k : Nat) (early : Bool) : State :=
  let s := ((s.setBit (PT_STATUS k) 0 false).raise (PT_STATUS k) 1).raiseIf early (PT_STATUS k) 2
  let s := s.setChan k { s.chan k with stopReq := none, trainStart := none, firstFine := none }
  (s.chanEvent k 1).commandIdle k

/-! ### The edge unit (R75) -/

/-- E of R75: none after reset, and none once it lies 2^32 fine steps in the past. -/
def State.lastEdge (s : State) (k : Nat) : Option Stamp :=
  match (s.chan k).lastEdge with
  | some e => if 2 ^ 32 ≤ ahead s.now e then none else some e
  | none => none

/-- EDGE_MERGED is set. -/
def State.merged (s : State) (k : Nat) : State := s.raise (OUT_STATUS k) 0

/-- A commanded edge reaches the edge unit: it is emitted, held until E + 256, merged, or swallowed with a pending edge (R75). -/
def State.edgeUnit (s : State) (k : Nat) (e : Edge) : State :=
  match (s.chan k).held with
  | some p =>
    if e.level = p.level then
      (s.setChan k { s.chan k with held := some { p with counted := p.counted || e.counted } }).merged k
    else
      let s := s.setChan k { s.chan k with held := none }
      (((s.merged k).satCount (SWALLOW_CNT k)).uncount k p.counted).uncount k e.counted
  | none =>
    if e.level = s.outLevel k then s.uncount k e.counted
    else
      match s.lastEdge k with
      | some l =>
        if 256 ≤ ahead e.stamp l then s.emit k e.stamp e.level
        else (s.setChan k { s.chan k with held := some { e with stamp := l + 256 } }).merged k
      | none => s.emit k e.stamp e.level

/-- The earliest commanded edge of a list and the list without it; the first of equal stamps (R30). -/
def State.pickEdge (s : State) : Edge → List Edge → Edge × List Edge
  | e, [] => (e, [])
  | e, f :: rest =>
    if s.earlier f.stamp e.stamp then let r := s.pickEdge f rest; (r.1, e :: r.2)
    else let r := s.pickEdge e rest; (r.1, f :: r.2)

/-- The stamp at which the delayed rise `d` of channel `k` of a pair is emitted: not before its reference's change, nor before the
dead time in use after the partner's last fall has passed (R76, notes/assumptions/76.md). -/
def State.riseStamp (s : State) (k : Nat) (d : Edge) : Stamp :=
  let p := s.chan (partnerCh k)
  let fall := match p.held with | some h => if h.level then p.lastFall else some h.stamp | none => p.lastFall
  match fall with
  | some f => let r := f + BitVec.ofNat 64 (s.deadTime k); if s.earlier d.stamp r then r else d.stamp
  | none => d.stamp

/-- Channel `k` has an edge to emit before stamp `st`: a pending edge of R75, or a delayed rise of R76. -/
def State.owesBefore (s : State) (k : Nat) (st : Stamp) : Bool :=
  let c := s.chan k
  (match c.held with | some h => s.earlier h.stamp st | none => false) ||
  (match c.delayed with | some d => s.earlier (s.riseStamp k d) st | none => false)

/-- The output of channel `k` of a pair is to fall at stamp `st`: a rise it still delays is cancelled instead (R76). -/
def State.pairFall (s : State) (k : Nat) (st : Stamp) : State :=
  match (s.chan k).delayed with
  | some d => (s.setChan k { s.chan k with delayed := none }).uncount k d.counted
  | none => s.edgeUnit k { stamp := st, level := false, counted := false, both := false, cause := s.mt }

/-- Output `k` of a pair is high, is to rise, or is held to rise: the reference of the pair stands on its side (R76). -/
def State.onSide (s : State) (k : Nat) : Bool :=
  (s.chan k).delayed.isSome || (match (s.chan k).held with | some h => h.level | none => s.outLevel k)

/-- The reference X of the pair of even channel `k` changes at `e.stamp` (R76, R77); an edge to the level that X already has is none
(R163). -/
def State.pairEdge (s : State) (k : Nat) (e : Edge) : State :=
  if e.both then (s.pairFall k e.stamp).pairFall (k + 1) e.stamp
  else
    let up := if e.level then k else k + 1
    if s.onSide up && !s.onSide (partnerCh up) then s.uncount k e.counted
    else
      let s := s.pairFall (partnerCh up) e.stamp
      if s.onSide up then s.uncount k e.counted else s.setChan up { s.chan up with delayed := some { e with level := true } }

/-- A commanded edge of channel `k` is handed to its edge unit, or to the pair's dead-time logic. -/
def State.handOver (s : State) (k : Nat) (e : Edge) : State :=
  if s.inPair k && k % 2 == 0 then s.pairEdge k e else s.edgeUnit k e

end Sys2Proof.Machine
end

