-- ==== Sys2Proof/Machine/Capture.lean ====
section
/-!
DEFINITION. The calibration engine, the service of the two delay lines, and capture: spec/05_fine_edges_and_capture.md.
-/

namespace Sys2Proof.Machine

open Reg

/-! ### The calibration engine -/

/-- LINE_FAULT of some channel (FAULT_ANY). -/
def State.faultAny (s : State) : Bool := (List.range 384).any (fun k => s.bit (EU_STATUS k) 4)

/-- CAL_STALE or TDC_AGE_OVR of some channel (STALE_ANY). -/
def State.staleAny (s : State) : Bool := (List.range 384).any (fun k => s.bit (EU_STATUS k) 3 || s.bit (EU_STATUS k) 6)

/-- AGE: µs since the end of the measurement of the line in service, saturating; all ones while COARSE (R92). -/
def State.age (s : State) (k : Nat) : Nat :=
  match (s.chan k).measured with
  | some t => min 0xFFFF ((s.mt - t).toNat / 800)
  | none => 0xFFFF

/-- Which line is off duty, and so the one the engine measures (R87). -/
def State.offLine (s : State) (k : Nat) : Nat := 1 - s.fld (EU_STATUS k) 0 0

/-- LINE_FAULT is set, with its interrupt events (R88, R96). -/
def State.lineFault (s : State) (k : Nat) : State :=
  let t := s.raise (EU_STATUS k) 4
  if s.bit (EU_STATUS k) 4 then t
  else if s.faultAny then t.chanEvent k 3
  else (t.chanEvent k 3).deliver 251 (some 1)

/-- The measurement of the off-duty line of channel `k` ends in the present tick with the tap positions `m` (R88, R89). -/
def State.measured (s : State) (k : Nat) (m : TapMap) : State :=
  let tpt := m.tpt
  let line := s.offLine k
  let pass := decide (64 * 256 ≤ tpt.toNat) && decide (tpt.toNat ≤ 92 * 256)
  let s := if (s.chan k).fresh.isSome then s.satCount (SWAP_LATE k) else s
  let s := s.setFld (EU_TAPS k) 31 16 tpt.toNat
  let s := s.setBit (EU_STATUS k) 2 pass
  let c := s.chan k
  if pass then
    s.setChan k { c with fresh := some (s.mt, tpt),
                         map0 := if line = 0 then some m else c.map0, map1 := if line = 1 then some m else c.map1,
                         fails0 := if line = 0 then 0 else c.fails0, fails1 := if line = 1 then 0 else c.fails1 }
  else
    let c' := { c with fresh := none,
                       fails0 := if line = 0 then c.fails0 + 1 else c.fails0,
                       fails1 := if line = 1 then c.fails1 + 1 else c.fails1 }
    let s := (s.setChan k c').satCount CAL_FAIL
    if 2 ≤ (if line = 0 then c'.fails0 else c'.fails1) then s.lineFault k else s

/-- The fresh line of channel `k` takes over service: edges with a stamp before `split`, when there is one, still leave by the old line
(R91, R92). -/
def State.swapLine (s : State) (k : Nat) (split : Option Stamp) : State :=
  match (s.chan k).fresh with
  | none => s
  | some (t, tpt) =>
    let old := s.fld (EU_TAPS k) 15 0
    let s := s.setReg (EU_TAPS k) (setBits (setBits (s.reg (EU_TAPS k)) 15 0 tpt.toNat) 31 16 old)
    let s := s.setChan k { s.chan k with fresh := none, measured := some t, splitAt := split }
    let st := setBits (s.reg (EU_STATUS k)) 0 0 (s.offLine k)
    let st := putBit (putBit (putBit st 2 false) 5 false) 3 (decide (7680 < s.age k))
    (s.setReg (EU_STATUS k) st).count (SWAP_CNT k)

/-- The edge unit of channel `k` holds no edge: an idle tick (R90). -/
def State.euIdle (s : State) (k : Nat) : Bool :=
  let c := s.chan k
  c.edges.isEmpty && c.held.isNone && c.delayed.isNone &&
    (!(s.inPair k && k % 2 == 1) || (s.chan (k - 1)).edges.isEmpty)

/-- The idle ticks are swap points of channel `k`: SWAP_ANY, which replaces the period ends and peaks of a running channel
(notes/assumptions/77.md), or a channel without a carrier (R90). -/
def State.swapIdle (s : State) (k : Nat) : Bool :=
  let src := if s.inPair k then k / 2 * 2 else k
  s.bit (EU_CTRL k) 0 || !s.running src || s.outMode src == 0 || s.outMode src == 3

/-- The present tick is a swap point of channel `k` (R90). The odd channel of a pair takes those of the even channel as its own. -/
def State.swapPoint (s : State) (k : Nat) : Bool :=
  let src := if s.inPair k then k / 2 * 2 else k
  let mode := s.outMode src
  let upDown := s.bit (CH_CTRL src) 4
  if s.bit (EU_CTRL k) 1 then false
  else if s.swapIdle k then s.euIdle k
  else if upDown then
    if mode = 1 then (s.chan src).lastPeak == some s.mt else if mode = 2 then (s.chan src).lastPeriod == some s.mt else false
  else (s.chan src).lastPeriod == some s.mt

/-- The engine is measuring a line of channel `k`: that line is off duty and cannot take service (R87). -/
def State.measuringCh (s : State) (k : Nat) : Bool := s.cal.measuring.map Prod.fst == some k

/-- LINE_SWAP (R90, R91). -/
def State.lineSwap (s : State) (k : Nat) : State :=
  if s.swapPoint k && !s.measuringCh k then s.swapLine k (if s.swapIdle k then none else some (stampAt (s.mt + 16) 0)) else s

def execLineSwap (k : Fin 384) (s : State) : Host.Outcome State Fault Refusal :=
  .next (s.onTclk (s.lineSwap k))

/-- CAL_SLOT_START: the slot of the next channel begins, and its off-duty line is measured within 1 000 ticks (R89). A round counts as
completed when the next slot of CH[0] begins, and a slot that falls due while a measurement still runs, after EN was cleared and set again,
waits for its end (notes/assumptions/77.md). -/
def State.calSlotStart (s : State) : State :=
  let due := match s.cal.slotDue with | some t => s.reached t | none => false
  if due && s.cal.initial.isNone && s.cal.measuring.isNone then
    let k := s.cal.nextCh
    let s := if k = 0 && s.cal.slotRan then s.count CAL_ROUND else s
    let s := s.setFld CALENG_CAL_STATUS 24 16 k
    { s with cal := { s.cal with slotDue := some (s.mt + 8000), nextCh := (k + 1) % 384, slotRan := true,
                                 measuring := some (k, s.mt + 1000), tdc := some (k, s.mt + 8000, s.mt) } }
  else s

def execCalSlotStart (s : State) : Host.Outcome State Fault Refusal :=
  .next (s.onTclk s.calSlotStart)

/-- At the end of a tick of a slot: the TDC of its channel is calibrated when 8 ticks have passed without an input edge, and TDC_SKIP
increments when the slot ends without such a window (R100, notes/assumptions/77.md). -/
def State.tdcTick (s : State) : State :=
  match s.cal.tdc with
  | some (k, end_, quiet) =>
    if decide (8 ≤ ahead (s.mt + 1) quiet) then
      let s := (s.setChan k { s.chan k with tdcCal := some s.mt }).setBit (EU_STATUS k) 6 false
      { s with cal := { s.cal with tdc := none } }
    else if decide (0 ≤ ahead (s.mt + 1) end_) then { s.satCount TDC_SKIP with cal := { s.cal with tdc := none } }
    else s
  | none => s

/-- An edge of the input of channel `k` ends the run of quiet ticks of its slot (R100). -/
def State.tdcEdge (s : State) (k : Nat) : State :=
  match s.cal.tdc with
  | some (j, end_, _) => if j = k then { s with cal := { s.cal with tdc := some (j, end_, s.mt + 1) } } else s
  | none => s

/-- The next measurement of the initial round, or its end (R93). -/
def nextInitial (k : Nat) (second : Bool) : Nat × Bool := if second then (k + 1, false) else (k, true)

/-- CAL_MEASUREMENT_DONE: in the initial round a measurement takes 1 000 ticks and a passing first one swaps in at once; in a slot
it ends within 1 000 ticks (R88, R89, R93). -/
def State.calMeasurementDone (s : State) (m : TapMap) : State :=
  match s.cal.measuring with
  | none => s
  | some (k, end_) =>
    match s.cal.initial with
    | some (_, second) =>
      if s.reached end_ then
        let s := s.measured k m
        let s := if second then s else s.swapLine k (some (stampAt (s.mt + 16) 0))
        let n := nextInitial k second
        { s with cal := { s.cal with initial := some n, measuring := if n.1 < 384 then some (n.1, end_ + 1000) else none } }
      else s
    | none =>
      let s := s.measured k m
      { s with cal := { s.cal with measuring := none, tdc := if s.bit CALENG_CAL_CTRL 0 then s.cal.tdc else none } }

/-- The five positions that the engine found, in 1/256 tap, come with the command (notes/assumptions/63.md). -/
def execCalMeasurementDone (p0 : BitVec 16) (q : QuarterTaps) (s : State) : Host.Outcome State Fault Refusal :=
  .next (s.onTclk (s.calMeasurementDone ⟨p0, q.p1, q.p2, q.p3, q.p4⟩))

/-- INITIAL_ROUND_END: CAL_READY is set whatever the lines' outcomes; the schedule starts in the next tick, or waits for EN (R93 to
R95). -/
def State.initialRoundEnd (s : State) : State :=
  match s.cal.initial with
  | some (384, _) =>
    let s := (s.setBit CALENG_CAL_STATUS 1 false).setBit CALENG_CAL_STATUS 0 true
    { s with cal := { s.cal with initial := none, nextCh := 0, slotRan := false,
                                 slotDue := if s.bit CALENG_CAL_CTRL 0 then some (s.mt + 1) else none } }
  | _ => s

def execInitialRoundEnd (s : State) : Host.Outcome State Fault Refusal :=
  .next (s.onTclk s.initialRoundEnd)

/-- The first tick of an initial round: every line is uncalibrated, COARSE is 1, INIT_BUSY is set and CAL_READY clears; the clearing, and
CAL_STALE of a channel where it was 0, are interrupt events (R93, R96, R290). CAL_ROUND keeps its count; after a wake from NAP too the failures
of a line count afresh and EU_TAPS reads 0 until the first measurement (R88, R93, notes/assumptions/77.md). -/
def State.initialRoundStart (s : State) : State :=
  let ready := s.bit CALENG_CAL_STATUS 0
  let s := foldBelow 384 (fun s k =>
    let s := if s.bit (EU_STATUS k) 3 then s else s.chanEvent k 4
    let s := s.setChan k { s.chan k with fresh := none, measured := none, fails0 := 0, fails1 := 0, tdcCal := none, map0 := none,
                                         map1 := none, splitAt := none }
    let st := putBit (putBit (setBits (s.reg (EU_STATUS k)) 0 0 0) 2 false) 5 true
    (s.setReg (EU_STATUS k) (putBit (putBit st 3 true) 6 true)).setReg (EU_TAPS k) 0) s
  let s := (s.setBit CALENG_CAL_STATUS 1 true).setBit CALENG_CAL_STATUS 0 false
  let s := { s with cal := { initial := some (0, false), slotDue := none, nextCh := 0, slotRan := false,
                             measuring := some (0, s.mt + 1000), roundStart := s.mt, tdc := none } }
  if ready then s.deliver 251 (some 0) else s

/-- CAL_STALE_EXPIRY: AGE exceeds 7 680 µs (R92). -/
def State.calStaleExpiry (s : State) (k : Nat) : State :=
  if decide (7680 < s.age k) && !s.bit (EU_STATUS k) 3 then (s.setBit (EU_STATUS k) 3 true).chanEvent k 4 else s

def execCalStaleExpiry (k : Fin 384) (s : State) : Host.Outcome State Fault Refusal :=
  .next (s.onTclk (s.calStaleExpiry k))

/-- TDC_AGE_EXPIRY: the TDC calibration is older than 7.68 ms, 6 144 000 ticks (R100). -/
def State.tdcAgeExpiry (s : State) (k : Nat) : State :=
  match (s.chan k).tdcCal with
  | some t => if 6144000 < (s.mt - t).toNat then s.setBit (EU_STATUS k) 6 true else s
  | none => s.setBit (EU_STATUS k) 6 true

def execTdcAgeExpiry (k : Fin 384) (s : State) : Host.Outcome State Fault Refusal :=
  .next (s.onTclk (s.tdcAgeExpiry k))

/-- CAL_CTRL_WRITE: EN = 0 stops the schedule, with its TDC calibration, after the measurement in progress; EN = 1 resumes it in the next tick; neither touches
the initial round (R95). -/
def State.calCtrlWrite (s : State) (v : Word) : State :=
  let was := s.bit CALENG_CAL_CTRL 0
  let s := s.setBit CALENG_CAL_CTRL 0 (bitOf v 0)
  if s.cal.initial.isSome || was == bitOf v 0 then s
  else { s with cal := { s.cal with slotDue := if bitOf v 0 then some (s.mt + 1) else none,
                                    tdc := if !bitOf v 0 && s.cal.measuring.isNone then none else s.cal.tdc } }

def execCalCtrlWrite (v : Word) (s : State) : Host.Outcome State Fault Refusal :=
  .next (s.hostWrite CALENG_CAL_CTRL v fun s => s.calCtrlWrite v)

/-! ### Capture -/

/-- An edge meets the first three conditions of R101. -/
def State.captureSelects (s : State) (k : Nat) (st : Stamp) (lvl : Bool) : Bool :=
  s.bit (CAP_STATUS k) 0 && s.notLater (s.pair (CAP_ARM_LO k) (CAP_ARM_HI k)) st && s.bit (CAP_CTRL k) (if lvl then 4 else 5)

/-- Edge `l` reverses edge `e` within CAP_FILT, given in fine steps (R101). -/
def reverses (filt : Nat) (e l : Edge) : Bool := e.level != l.level && decide ((l.stamp - e.stamp).toNat < filt)

/-- Discard from the front of the edges those that R101 does not test, and the pairs that fail CAP_FILT (in fine steps): the number of
pairs discarded, and the edges left. The newest edge counts as the second of a pair only once it is `sure`, no glitch of R99 any more. -/
def settleEdges (filt : Nat) (sure : Bool) : List Edge → Nat × List Edge
  | [] => (0, [])
  | [e] => if e.counted then (0, [e]) else (0, [])
  | e :: l :: rest =>
    if !e.counted then settleEdges filt sure (l :: rest)
    else if reverses filt e l && (sure || !rest.isEmpty) then
      let r := settleEdges filt sure rest
      (r.1 + 1, r.2)
    else (0, e :: l :: rest)

/-- CAP_FILT in fine steps (R101). -/
def State.capFilt (s : State) (k : Nat) : Nat := 64 * s.fld (CAP_CTRL k) 15 12

/-- Apply `settleEdges` to the stamped edges of channel `k`. -/
def State.settleCapture (s : State) (k : Nat) (sure : Bool) : State :=
  let c := s.chan k
  let r := settleEdges (s.capFilt k) sure c.capPend
  (s.setChan k { c with capPend := r.2 }).satAdd (GLITCH_CNT k) r.1

/-- The TDC sees an edge of channel `k`'s input (R97): two edges closer than 24 fine steps are both discarded, and the stamp of the
first is answered (R99). An edge after a discarded pair is judged afresh, however near the second edge of the pair
(notes/assumptions/77.md). -/
def State.captureEdge (s : State) (k : Nat) (st : Stamp) (lvl : Bool) : Option Stamp × State :=
  let c := s.chan k
  let glitch := match c.lastIn with | some l => if (st - l).toNat < 24 then some l else none | none => none
  match glitch with
  | some l =>
    (some l, (s.setChan k { c with lastIn := none, inLevel := lvl, capPend := c.capPend.filter (fun e => e.stamp ≠ l) }).satCount
      (GLITCH_CNT k))
  | none =>
    let s := s.settleCapture k true
    let c := s.chan k
    let e : Edge := { stamp := st, level := lvl, counted := s.captureSelects k st lvl, both := false, cause := s.mt }
    (none, s.setChan k { c with lastIn := some st, inLevel := lvl, capPend := c.capPend ++ [e] })

/-- A qualified edge is stored (R102, R104). -/
def State.storeCapture (s : State) (k : Nat) (e : Edge) : State :=
  let c := s.chan k
  let width := (e.stamp - c.capRise).toNat
  let hasWidth := !e.level && c.lastStored == some true
  let sat := hasWidth && decide (2 ^ 40 ≤ width)
  let unread := if e.level then c.riseUnread else c.fallUnread
  let both := s.bit (CAP_CTRL k) 4 && s.bit (CAP_CTRL k) 5
  let c' := { c with
    capRise := if e.level then e.stamp else c.capRise
    capFall := if e.level then c.capFall else e.stamp
    capWidth := if hasWidth then BitVec.ofNat 40 (min width (2 ^ 40 - 1)) else c.capWidth
    capSeq := c.capSeq + 1
    lastStored := some e.level
    riseUnread := e.level || c.riseUnread
    fallUnread := !e.level || c.fallUnread }
  let s := s.setChan k c'
  let s := s.raiseIf sat (CAP_STATUS k) 2
  let st := s.reg (CAP_STATUS k)
  let st := if unread then putBit st 1 true else st
  let st := if s.bit (CAP_CTRL k) 3 && (!both || hasWidth) then putBit st 0 false else st
  s.setReg (CAP_STATUS k) st

/-- The oldest edge `e`, with the edges `rest` after it, can be stored: no reversing edge can come early enough to discard it, and it can no
longer be one of a glitch (R99, R101). -/
def State.captureReady (s : State) (k : Nat) (sure : Bool) (e : Edge) (rest : List Edge) : Bool :=
  match rest with
  | [] => sure && decide ((s.capFilt k : Int) ≤ ahead s.now e.stamp)
  | l :: _ => !reverses (s.capFilt k) e l

/-- CAPTURE_STORE: the oldest stamped edge that R101 still tests is stored, once it can be (R101, R102). Direction, ARMED and the arm stamp are
tested as the edge arrives, ARMED and the arm stamp again as it is stored (notes/assumptions/78.md). -/
def State.captureStore (s : State) (k : Nat) : State :=
  let sure := match (s.chan k).capPend.getLast? with | some e => decide (24 ≤ ahead s.now e.stamp) | none => false
  let s := s.settleCapture k sure
  match (s.chan k).capPend with
  | [] => s
  | e :: rest =>
    if s.captureReady k sure e rest then
      let s := s.setChan k { s.chan k with capPend := rest }
      if s.bit (CAP_STATUS k) 0 && s.notLater (s.pair (CAP_ARM_LO k) (CAP_ARM_HI k)) e.stamp then s.storeCapture k e else s
    else s

def execCaptureStore (k : Fin 384) (s : State) : Host.Outcome State Fault Refusal :=
  .next (s.onTclk (s.captureStore k))

/-- The capture is armed with arm stamp `st`; stored values stay (R104). -/
def State.armCapture (s : State) (k : Nat) (st : Stamp) : State :=
  (s.setBit (CAP_STATUS k) 0 true).setPair (CAP_ARM_LO k) (CAP_ARM_HI k) st

/-- A write to CAP_CTRL: DISARM acts alone, else ARM records the stamp of the commit tick (R104). -/
def State.capCtrlWrite (s : State) (k : Nat) (v : Word) : State :=
  let s := s.setReg (CAP_CTRL k) (mergeWord (s.reg (CAP_CTRL k)) v 0x0000F038#32)
  if bitOf v 2 then s.setBit (CAP_STATUS k) 0 false
  else if bitOf v 1 then s.armCapture k s.now
  else s

/-- CAP_ARM: the row of a CAP_CTRL write with ARM. -/
def execCapArm (k : Fin 384) (v : Word) (s : State) : Host.Outcome State Fault Refusal :=
  .next (s.hostWrite (CAP_CTRL k) v fun s => s.capCtrlWrite k v)

/-- CAP_DISARM: the row of a CAP_CTRL write with DISARM. -/
def execCapDisarm (k : Fin 384) (v : Word) (s : State) : Host.Outcome State Fault Refusal :=
  .next (s.hostWrite (CAP_CTRL k) v fun s => s.capCtrlWrite k v)

/-- A read of CAP_RISE_LO latches the six shadows, of the start of the BCLK cycle, and clears OVR; an edge stored in the cycle stays
unread and keeps OVR (R7, R103). -/
def State.capRiseLoRead (s : State) (k : Nat) : Word × State :=
  let q := (s.seen (CAP_RISE_LO k)).chan k
  let c := s.chan k
  let s := s.setReg (CAP_RISE_HI k) (hiWord q.capRise)
  let s := s.setPair (CAP_FALL_LO k) (CAP_FALL_HI k) q.capFall
  let s := s.setPair (CAP_WIDTH_LO k) (CAP_WIDTH_HI k) (q.capWidth.zeroExtend 64)
  let s := s.setReg (CAP_SEQ k) q.capSeq
  let s := if c.capSeq = q.capSeq then s.setBit (CAP_STATUS k) 1 false else s
  (loWord q.capRise, s.setChan k { c with riseUnread := c.riseUnread && c.capRise != q.capRise,
                                          fallUnread := c.fallUnread && c.capFall != q.capFall })

def execCapRiseLoRead (k : Fin 384) (s : State) : Host.Outcome State Fault Refusal :=
  .next (s.hostRead fun s => s.capRiseLoRead k)

end Sys2Proof.Machine
end

