-- ==== Sys2Proof/Machine/Channel.lean ====
section
/-!
DEFINITION. Channel counters, compares, outputs and pulse trains: the shared operations of spec/03_channel_counters.md and
spec/04_pulse_generation.md, and the meanings of their commands.
-/

namespace Sys2Proof.Machine

open Reg

/-! ### Conversion requests and SYNC -/

/-- A conversion request that arrives at the sequencer in tick `arrive`; `rank` orders arrivals of one tick (R83, R276). -/
def State.adcRequest (s : State) (arrive : Tick) (rank : Nat) (stamp : Stamp) (trig : Nat) (urgent : Bool) : State :=
  { s with adc := { s.adc with transit := s.adc.transit ++
      [{ arrive := arrive, rank := rank, stamp := stamp, trig := BitVec.ofNat 6 trig, urgent := urgent }] } }

/-- The SYNC input of cluster `n` becomes 1 in tick `t`: one pulse per tick (R84). -/
def State.syncInput (s : State) (n : Nat) (t : Tick) : State :=
  let w := s.weir n
  if w.syncDue.contains t then s else s.setWeir n { w with syncDue := w.syncDue ++ [t] }

/-- The SYNC_OUT ball rises 16 ticks from now; a pulse that has not fallen by then is prolonged (R85). -/
def State.syncOutPulse (s : State) : State :=
  let rise := stampAt (s.mt + 16) 0
  let fall := stampAt (s.mt + 24) 0
  let pulses := match s.power.syncOut.reverse with
    | (r, f) :: older => if s.notLater rise f then (older.reverse ++ [(r, fall)]) else s.power.syncOut ++ [(rise, fall)]
    | [] => [(rise, fall)]
  { s with power := { s.power with syncOut := pulses } }

/-- The SYNC output of cluster `n` is 1 in the present tick (R84, R85). -/
def State.syncOutput (s : State) (n : Nat) : State :=
  if n < 23 then s.syncInput (n + 1) (s.mt + 2) else s.syncOutPulse

/-! ### Compares -/

/-- Compare `x` is enabled in use (R55, R59). -/
def State.cmpEnabled (s : State) (k x : Nat) : Bool := s.bit (CMP_CFG k) (8 + x)

/-- The live path of compare `x` is in use (R57, R59). -/
def State.cmpLive (s : State) (k x : Nat) : Bool := s.bit (CMP_CFG k) (12 + x)

/-- Compare `x` has matched in the present tick (R55: at most one match per tick). -/
def State.matchedNow (s : State) (k x : Nat) : Bool :=
  (s.chan k).matchTick == s.mt && (s.chan k).matchMask.getLsbD x

/-- The equality of compare `x` with the count holds and can match (R55). -/
def State.cmpEquals (s : State) (k x : Nat) : Bool :=
  s.cmpEnabled k x && s.running k && s.reg (CMP_ACT k x) == s.reg (COUNT k) &&
    decide (s.reg (CMP_ACT k x) ≤ s.reg (PERIOD_ACT k)) && !s.matchedNow k x

/-- A match of compare `x` in the present tick: its flags (R55, R56), the conversion request of C (R83) and the SYNC output of D
(R84). What it does to the output is `outStep`. -/
def State.cmpMatch (s : State) (k x : Nat) : State :=
  let c := s.chan k
  let one : BitVec 4 := 1 <<< x
  let s := (s.raise (CMP_STATUS k) x).raiseIf (c.matched.getLsbD x) (CMP_STATUS k) (4 + x)
  let s := s.setChan k { c with
    matched := c.matched ||| one, matchTick := s.mt,
    matchMask := (if c.matchTick = s.mt then c.matchMask else 0) ||| one }
  let s := if x = 2 then
      s.adcRequest (s.mt + 2) k s.now (s.fld (CH_TRIG_CFG k) 5 0) (s.bit (CH_TRIG_CFG k) 7) else s
  if x = 3 && s.bit (OUT_CTRL k) 10 then s.syncOutput (k / 16) else s

/-- The compares that the present count, just stepped to, matches (R55). -/
def State.stepMatches (s : State) (k : Nat) : List Nat := [0, 1, 2, 3].filter (fun x => s.cmpEquals k x)

/-! ### What a tick's period end, peak and matches do to the output -/

/-- Sets and clears of the output by period end, peak and the compares `xs` that matched (R71 to R73, R80). In a tick in which a copy of
OUT_MODE has ended a train none of them is applied (R67). -/
def State.outStep (s : State) (k : Nat) (periodEnd peak : Bool) (xs : List Nat) : State :=
  let c := s.chan k
  if c.modeEnd = some s.mt then s else
  let fine := c.outFineAct
  let base := stampAt (s.mt + 16) 0
  let off (n : Nat) : Stamp := base + BitVec.ofNat 64 n
  let fineA := bitsOf fine 5 0
  let z := match c.firstFine with | some f => f.toNat | none => bitsOf fine 21 16
  let a := xs.contains 0
  let upDown := s.bit (CH_CTRL k) 4
  let down := s.bit (CH_STATUS k) 2
  match s.outMode k with
  | 1 =>
    if upDown then
      s.outCommand k
        ((if periodEnd then [off (bitsOf fine 21 16)] else []) ++ (if a && down then [base - BitVec.ofNat 64 fineA] else []))
        (if a && !down && !peak then [off fineA] else []) false
    else
      s.outCommand k (if periodEnd then [off (bitsOf fine 21 16)] else []) (if a then [off fineA] else []) false
  | 2 =>
    s.outCommand k (if a then [off fineA] else []) (if xs.contains 1 then [off (bitsOf fine 13 8)] else []) false
  | 4 =>
    if s.trainActive k then
      s.outCommand k (if periodEnd then [off z] else []) (if a then [off fineA] else []) periodEnd
    else s
  | _ => s

/-- A period end of an active train begins a period, or ends the train when none is left or STOP was written in an earlier tick
(R80, R81). A STOP that finds PT_REMAIN 0 at that period end has cut nothing, and ABORTED stays 0; the fine bits of an event START wait for
the first set that commands a rising edge (R79, notes/assumptions/76.md). -/
def State.trainPeriod (s : State) (k : Nat) (xs : List Nat) : State :=
  let c := s.chan k
  let stop := match c.stopReq with | some t => t != s.mt | none => false
  if c.ptRemain = 0 || stop then s.trainEnd k (c.ptRemain != 0)
  else
    let s := s.setChan k { c with ptRemain := c.ptRemain - 1 }
    let s := s.outStep k true false xs
    let c := s.chan k
    if c.countedNow s.mt then (s.setChan k { c with firstFine := none }).setReg (PT_EMIT k) (s.reg (PT_EMIT k) + 1)
    else s.setChan k { c with ptSkip := c.ptSkip + 1 }

/-! ### Preload copies (R49, R58, R59, R67, R74) -/

/-- A train that a copy of OUT_MODE ends: the copy takes an active train away from TRAIN (R67). -/
def State.modeCopyEndsTrain (s : State) (k : Nat) : Bool :=
  s.outMode k == 4 && s.fld (OUT_CTRL k) 2 0 != 4 && s.trainActive k

/-- OUT_MODE is copied; a copy to IDLE or TRAIN, or away from an active train, commands the IDLE level (R67). A copy that ends a train ends
it early, also at the period end that finds PT_REMAIN 0: ABORTED is set (notes/assumptions/76.md). -/
def State.copyMode (s : State) (k : Nat) : State :=
  let old := s.outMode k
  let ends := s.modeCopyEndsTrain k
  let s := s.setFld (OUT_CTRL k) 14 12 (s.fld (OUT_CTRL k) 2 0)
  if ends then (s.setChan k { s.chan k with modeEnd := some s.mt }).trainEnd k true
  else if s.outMode k = old then s
  else if s.outMode k = 0 || s.outMode k = 4 then s.commandIdle k
  else s

/-- The EN and LIVE preloads are copied; a compare that changes from preload to live takes its pending value (R59). -/
def State.copyCmpCfg (s : State) (k : Nat) : State :=
  let old := s.reg (CMP_CFG k)
  let s := s.setReg (CMP_CFG k) (setBits (setBits old 11 8 (bitsOf old 3 0)) 15 12 (bitsOf old 7 4))
  [0, 1, 2, 3].foldl (fun s x =>
    if !bitOf old (12 + x) && bitOf old (4 + x) then s.setReg (CMP_ACT k x) (s.reg (CMP k x)) else s) s

/-- The compare preloads are copied. A live compare already holds the value last written (R57, R58). -/
def State.copyCmps (s : State) (k : Nat) : State :=
  [0, 1, 2, 3].foldl (fun s x => s.setReg (CMP_ACT k x) (s.reg (CMP k x))) s

/-- OUT_FINE and, at the even channel, DT_CFG are copied (R74). -/
def State.copyFine (s : State) (k : Nat) : State :=
  s.setChan k { s.chan k with outFineAct := s.reg (OUT_FINE k), dtAct := if k % 2 = 0 then s.reg (DT_CFG k) else 0 }

/-- Every preload is copied, before the compare of the tick (R49). -/
def State.copyPreloads (s : State) (k : Nat) : State :=
  let s := s.setReg (PERIOD_ACT k) (s.reg (PERIOD k))
  let s := s.setFld (PRESCALE k) 31 16 (s.fld (PRESCALE k) 15 0)
  (((s.copyCmps k).copyCmpCfg k).copyFine k).copyMode k

/-! ### Starting, stopping and stepping -/

/-- The output modes in which a stopped counter commands the IDLE level (R70). -/
def State.idleWhenStopped (s : State) (k : Nat) : Bool := s.outMode k == 1 || s.outMode k == 2 || s.outMode k == 4

/-- The counter has stopped: a train ends early, and the output takes the IDLE level (R48, R51, R70, R81). -/
def State.stopped (s : State) (k : Nat) : State :=
  let s := s.setChan k { s.chan k with phase := 0, startDue := none, writeTrig := [], peaked := false }
  if s.trainActive k then s.trainEnd k true
  else if s.idleWhenStopped k then s.commandIdle k else s

/-- `f`, when the register at `a` has taken a write in the present tick. -/
def State.onWrote (s : State) (a : Nat) (f : State → State) : State := if s.wroteAlready a then f s else s

/-- The preloads of channel `k` that have taken a write in the tick in which the counter stops are copied at the end of that tick
(R49, R67, R74). -/
def State.copyWritten (s : State) (k : Nat) : State :=
  let s := s.onWrote (PERIOD k) fun s => s.setReg (PERIOD_ACT k) (s.reg (PERIOD k))
  let s := s.onWrote (PRESCALE k) fun s => s.setFld (PRESCALE k) 31 16 (s.fld (PRESCALE k) 15 0)
  let s := [0, 1, 2, 3].foldl (fun s x => s.onWrote (CMP k x) fun s => s.setReg (CMP_ACT k x) (s.reg (CMP k x))) s
  let s := s.onWrote (CMP_CFG k) fun s => s.copyCmpCfg k
  let s := s.onWrote (OUT_FINE k) fun s => s.setChan k { s.chan k with outFineAct := s.reg (OUT_FINE k) }
  let s := s.onWrote (DT_CFG k) fun s => if k % 2 = 0 then s.setChan k { s.chan k with dtAct := s.reg (DT_CFG k) } else s
  s.onWrote (OUT_CTRL k) fun s => let s := s.copyMode k; if s.idleWhenStopped k then s.commandIdle k else s

/-- The counter begins to run; the next tick is its start tick (R47). -/
def State.beginRun (s : State) (k : Nat) : State :=
  s.setChan k { s.chan k with startDue := some (s.mt + 1), phase := 0 }

/-- The matches of the present count and the output's response, at a step that is no period end. -/
def State.compareStep (s : State) (k : Nat) (peak : Bool) : State :=
  let xs := s.stepMatches k
  (xs.foldl (fun s x => s.cmpMatch k x) s).outStep k false peak xs

/-- A period end, in the present tick, of a counter whose count and direction are already those of the tick: WRAP, the preload
copies, the stop of a zero period, the matches, the train and the output, and the release points of mittens (R44, R47, R51). -/
def State.periodEnd (s : State) (k : Nat) : State :=
  let s := s.setChan k { s.chan k with matched := 0, peaked := false, lastPeriod := some s.mt }
  let s := (s.raise (CH_STATUS k) 5).chanEvent k 0
  let s := s.copyPreloads k
  if !s.running k then (s.setReg (COUNT k) 0).stopped k
  else
    let xs := s.stepMatches k
    let s := xs.foldl (fun s x => s.cmpMatch k x) s
    let s := if s.outMode k = 4 && s.trainActive k then s.trainPeriod k xs else s.outStep k true false xs
    s.mittenPeriodEnd k

/-- The step into PERIOD_ACT in up/down mode: with RELOAD_PEAK the preloads are copied, and a zero period stops the counter without
a period end (R44, R49, R51). -/
def State.peak (s : State) (k : Nat) : State :=
  let s := s.setChan k { s.chan k with peaked := true, lastPeak := some s.mt }
  if s.bit (CH_CTRL k) 20 then
    let s := s.copyPreloads k
    if !s.running k then (s.setReg (COUNT k) 0).stopped k else s.compareStep k true
  else s.compareStep k true

/-- The count and direction of a stopped or restarted counter, or after a step. -/
def State.setCount (s : State) (k : Nat) (c : Word) (down : Bool) : State :=
  (s.setReg (COUNT k) c).setBit (CH_STATUS k) 2 down

/-- The next counting step ends the period (R44). -/
def State.stepEnds (s : State) (k : Nat) : Bool :=
  let c := s.reg (COUNT k)
  let p := s.reg (PERIOD_ACT k)
  if s.bit (CH_CTRL k) 4 then
    (s.bit (CH_STATUS k) 2 || (s.chan k).peaked || decide (p ≤ c)) && decide (c ≤ 1)
  else decide (p ≤ c)

/-- One counting step of the counter of channel `k`, without its carry (R44). The descent from a start tick at or above PERIOD_ACT keeps
the compare window of that start tick (notes/assumptions/75.md). -/
def State.stepCount (s : State) (k : Nat) : State :=
  let c := s.reg (COUNT k)
  let p := s.reg (PERIOD_ACT k)
  if s.stepEnds k then (s.setCount k 0 false).periodEnd k
  else if s.bit (CH_CTRL k) 4 then
    if s.bit (CH_STATUS k) 2 || (s.chan k).peaked || decide (p ≤ c) then
      let s := if s.bit (CH_STATUS k) 2 then s else s.setChan k { s.chan k with matched := 0 }
      (s.setCount k (c - 1) true).compareStep k false
    else if c + 1 = p then (s.setCount k (c + 1) false).peak k
    else (s.setCount k (c + 1) false).compareStep k false
  else (s.setCount k (c + 1) false).compareStep k false

/-- The odd channel of a cascade (R62). -/
def State.cascadeHi (s : State) (k : Nat) : Bool := k % 2 == 1 && s.pairMode k == 2

/-- A period end of the even counter of a cascade steps the odd counter in the same tick, at most once and not in the odd counter's own
start tick, which keeps its held count (R47, R61). -/
def State.carry (s : State) (k : Nat) : State :=
  let c := s.chan (k + 1)
  if k % 2 = 0 && s.pairMode k == 2 && s.running (k + 1) && c.startDue.isNone && c.lastSource != some s.mt then
    (s.setChan (k + 1) { c with lastSource := some s.mt }).stepCount (k + 1)
  else s

/-- One counting step with its carry (R44, R61). -/
def State.countStep (s : State) (k : Nat) : State :=
  if s.stepEnds k then (s.stepCount k).carry k else s.stepCount k

/-- A restart in the counter's start tick: that tick has acted as a period end already, with the held count and no carry; the count
becomes 0, is compared, and the carry passes (R47, R50, notes/assumptions/75.md). -/
def State.restartStart (s : State) (k : Nat) : State :=
  let s := s.setChan k { s.chan k with phase := 0, lastStart := none }
  let s := s.setCount k 0 false
  (s.compareStep k false).carry k

/-- A SYNC or train restart: count 0, up, prescaler phase 0, a period end in every respect; in a tick that already holds a period
end it adds nothing (R50, R79). A start tick that is still due is dropped, and a SYNC pulse at PERIOD_ACT = 0, where R51 allows no period
end, leaves the held count and direction (notes/assumptions/75.md). -/
def State.restart (s : State) (k : Nat) : State :=
  if !s.running k then s
  else if (s.chan k).lastStart = some s.mt then s.restartStart k
  else if (s.chan k).lastPeriod = some s.mt then s
  else
    let s := s.setChan k { s.chan k with phase := 0, startDue := none, lastSource := some s.mt }
    ((s.setCount k 0 false).periodEnd k).carry k

/-! ### Counting sources (R46) -/

/-- The input level of a channel sampled in tick `t`: the newest history entry not later than it. -/
def Chan.sampled (c : Chan) (t : Tick) : Bool :=
  match c.inHist.find? (fun e => decide (0 ≤ ahead t e.1)) with
  | some e => e.2
  | none => false

/-- Note the input level of channel `k` in the present tick. Changes older than 300 ticks are dropped but for the newest of them: no
rule samples an earlier tick (R46, R139). -/
def Chan.noteInput (c : Chan) (t : Tick) (lvl : Bool) : Chan :=
  let kept := c.inHist.filter (fun e => e.1 ≠ t)
  let old (e : Tick × Bool) : Bool := decide (300 < (t - e.1).toNat)
  { c with inHist := (t, lvl) :: (kept.filter (fun e => !old e) ++ (kept.filter old).take 1) }

/-- The present tick holds a source event of channel `k` (R46). -/
def State.sourceEvent (s : State) (k : Nat) : Bool :=
  let c := s.chan k
  let now := c.sampled (s.mt - 2)
  let before := if c.inFirst = some (s.mt - 2) then now else c.sampled (s.mt - 3)
  match s.fld (CH_CTRL k) 10 8 with
  | 1 => now && !before
  | 2 => !now && before
  | 3 => now != before
  | 4 => now
  | 5 => !now
  | _ => true

/-! ### Meanings: counters -/

/-- START_TICK (R47): the start tick acts as a period end with the held count and passes no carry. Its direction is decided with the
PERIOD_ACT that the counter has before the tick's own preload copy (notes/assumptions/75.md). -/
def State.startTick (s : State) (k : Nat) : State :=
  let due := match (s.chan k).startDue with | some t => s.reached t | none => false
  if due && s.running k then
    let down := s.bit (CH_CTRL k) 4 && decide (s.reg (PERIOD_ACT k) ≤ s.reg (COUNT k))
    let s := s.setChan k { s.chan k with startDue := none, phase := 0, lastSource := some s.mt, lastStart := some s.mt }
    (s.setBit (CH_STATUS k) 2 down).periodEnd k
  else s

def execStartTick (k : Fin 384) (s : State) : Host.Outcome State Fault Refusal :=
  .next (s.onTclk (s.startTick k))

/-- COUNTING_STEP: one source event of the counter in the present tick; the event that completes a group of PRESC_ACT + 1 steps the
counter (R44 to R46). The odd counter of a cascade has no source event but its partner's period end (R61). -/
def State.countingStep (s : State) (k : Nat) : State :=
  let c := s.chan k
  if s.running k && c.startDue.isNone && c.lastSource != some s.mt && !s.cascadeHi k && s.sourceEvent k then
    let s' := s.setChan k { c with lastSource := some s.mt, phase := c.phase + 1 }
    if s.fld (PRESCALE k) 31 16 ≤ c.phase then
      (s'.setChan k { s'.chan k with phase := 0 }).countStep k
    else s'
  else s

def execCountingStep (k : Fin 384) (s : State) : Host.Outcome State Fault Refusal :=
  .next (s.onTclk (s.countingStep k))

/-- A write trigger of compare `x` that has fallen due. -/
def Chan.trigDue (c : Chan) (s : State) (x : Nat) : Option (Nat × Tick × Word) :=
  c.writeTrig.find? (fun e => e.1 == x && s.reached e.2.1)

/-- WRITE_TRIGGER: the match of a live write whose value was the count at its commit, in the tick after it; a value above PERIOD_ACT
never matches, and a match of A in the peak tick leaves the output (R55, R72). -/
def State.writeTrigger (s : State) (k x : Nat) : State :=
  let c := s.chan k
  match c.trigDue s x with
  | some e =>
    let s := s.setChan k { c with writeTrig := c.writeTrig.erase e }
    if s.running k && s.cmpEnabled k x && decide (e.2.2 ≤ s.reg (PERIOD_ACT k)) && !s.matchedNow k x then
      (s.cmpMatch k x).outStep k false (c.lastPeak == some s.mt) [x]
    else s
  | none => s

def execWriteTrigger (k : Fin 384) (x : Fin 4) (s : State) : Host.Outcome State Fault Refusal :=
  .next (s.onTclk (s.writeTrigger k x))

/-- The CH_CTRL fields that change only while the counter is stopped: PAIR_MODE, RELOAD_PEAK, CLK_SRC, MODE (R53). -/
def modeMask : Word := 0x00D00710#32

/-- The pair of even channel `k` enters or leaves complementary mode with both counters stopped: X takes the level that the even output
logic commands, which in EVENT mode after a dispatch is the held one and else the IDLE level (R70), or the odd output is commanded by its own logic
again (R76, R77). That change of X is not one that a later command of the tick takes back. -/
def State.pairModeChanged (s : State) (k : Nat) (old : Nat) : State :=
  if s.pairMode k = old then s
  else
    let s := if s.pairMode k = 2 then s.setChan k { s.chan k with hiShadow := 0 } else s
    if s.pairMode k = 1 then
      let c := s.chan k
      let holds := s.outMode k == 3 && !s.bit (OUT_STATUS k) 1
      let e : Edge := { stamp := stampAt (s.mt + 16) 0, level := if holds then c.level else (s.idleLevel k).1, counted := false,
                        both := !holds && (s.idleLevel k).2, cause := s.mt - 1 }
      (s.setChan k { c with level := e.level, bothLow := e.both, edges := c.edges ++ [e] }).setBit (OUT_STATUS k) 1 (!holds)
    else if old = 1 then
      let s := s.setChan (k + 1) { s.chan (k + 1) with level := s.outLevel (k + 1), bothLow := false, delayed := none }
      let s := s.setChan k { s.chan k with level := s.outLevel k, bothLow := false, delayed := none }
      let s := if s.outMode k = 3 then s else s.commandIdle k
      if s.outMode (k + 1) = 3 then s else s.commandIdle (k + 1)
    else s

/-- CH_CTRL_WRITE (R48, R53). PAIR_MODE is reserved on odd channels (R42); a change of it changes which pins are partners (R116). Preloads
written in the tick of a stop are copied at its end (R67, R74). -/
def State.chCtrlWrite (s : State) (k : Nat) (v : Word) : State :=
  let old := s.reg (CH_CTRL k)
  let new := mergeWord old v (if k % 2 = 0 then 0x00F00711#32 else 0x00300711#32)
  let changes := (old ^^^ new) &&& modeMask != 0
  let pairChange := bitsOf old 23 22 != bitsOf new 23 22
  let ok := !changes || (!bitOf old 0 && !bitOf new 0 && (!pairChange || !s.bit (CH_CTRL (k + 1)) 0))
  if !ok then s.raise (CH_STATUS k) 7
  else
    let was := s.running k
    let oldPair := s.pairMode k
    let s := s.setReg (CH_CTRL k) new
    let s := if pairChange then (s.pairModeChanged k oldPair).refreshPins s.now else s
    if !was && s.running k then s.beginRun k
    else if was && !s.running k then (s.stopped k).copyWritten k
    else s

def execChCtrlWrite (k : Fin 384) (v : Word) (s : State) : Host.Outcome State Fault Refusal :=
  .next (s.hostWrite (CH_CTRL k) v fun s => s.chCtrlWrite k v)

/-- COUNT_WRITE: loads a stopped counter with a value within PERIOD_ACT and sets the direction up; else COUNT_WR_ERR (R52). -/
def State.countWrite (s : State) (k : Nat) (v : Word) : State :=
  if !s.running k && decide (v ≤ s.reg (PERIOD_ACT k)) then s.setCount k v false else s.raise (CH_STATUS k) 6

def execCountWrite (k : Fin 384) (v : Word) (s : State) : Host.Outcome State Fault Refusal :=
  .next (s.hostWrite (COUNT k) v fun s => s.countWrite k v)

/-- A read of COUNT: the word returned, and the shadow that an even read of a cascade latches, both of the first tick of the BCLK cycle; an
odd read of the same cycle finds the new shadow (R43, R63, R64). -/
def State.countRead (s : State) (k : Nat) : Word × State :=
  let q := s.seen (COUNT k)
  if s.pairMode k = 2 then
    if k % 2 = 0 then (q.reg (COUNT k), { s.setChan k { s.chan k with hiShadow := q.reg (COUNT (k + 1)) } with touched := COUNT (k + 1) :: s.touched })
    else ((s.chan (k - 1)).hiShadow, s)
  else (q.reg (COUNT k), s)

def execCountRead (k : Fin 384) (s : State) : Host.Outcome State Fault Refusal :=
  .next (s.hostRead fun s => s.countRead k)

/-- A preload write while the counter is stopped is copied at the end of its commit tick; a non-zero period then starts an enabled
counter (R47, R49). A zero period copied into a stopped counter leaves its held count (notes/assumptions/75.md). -/
def State.periodWrite (s : State) (k : Nat) (v : Word) : State :=
  let was := s.running k
  let s := s.setReg (PERIOD k) v
  if was then s
  else
    let s := s.setReg (PERIOD_ACT k) v
    if s.running k then s.beginRun k else s

/-- PRESC, copied at once while the counter is stopped (R49). -/
def State.prescWrite (s : State) (k : Nat) (v : Word) : State :=
  let s := s.setFld (PRESCALE k) 15 0 (bitsOf v 15 0)
  if s.running k then s else s.setFld (PRESCALE k) 31 16 (bitsOf v 15 0)

def execPeriodWrite (k : Fin 384) (presc : Bool) (v : Word) (s : State) : Host.Outcome State Fault Refusal :=
  .next (s.hostWrite (if presc then PRESCALE k else PERIOD k) v fun s => if presc then s.prescWrite k v else s.periodWrite k v)

/-- The live path of a CMP_x write (R57). -/
def State.cmpLiveWrite (s : State) (k x : Nat) (v : Word) : State :=
  let s := (s.setReg (CMP k x) v).setReg (CMP_ACT k x) v
  if !s.running k then s
  else
    let c := s.reg (COUNT k)
    let p := s.reg (PERIOD_ACT k)
    if p < v then s
    else if v = c then
      s.setChan k { s.chan k with writeTrig := (s.chan k).writeTrig ++ [(x, s.mt + 1, v)] }
    else if (if s.bit (CH_STATUS k) 2 then decide (c < v) else decide (v < c)) then
      s.raise (CMP_STATUS k) (8 + x)
    else s

/-- The preload path of a CMP_x write, copied at once while the counter is stopped (R49, R58). -/
def State.cmpPreloadWrite (s : State) (k x : Nat) (v : Word) : State :=
  let s := s.setReg (CMP k x) v
  if s.running k then s else s.setReg (CMP_ACT k x) v

/-- A CMP_x write is handled by the path that LIVE_ACT_x selects at its commit tick (R59). -/
def State.cmpWrite (s : State) (k x : Nat) (v : Word) : State :=
  if s.cmpLive k x then s.cmpLiveWrite k x v else s.cmpPreloadWrite k x v

/-- CMP_LIVE_WRITE: the row of a CMP_x write while LIVE_ACT_x is 1 (R57). -/
def execCmpLiveWrite (k : Fin 384) (x : Fin 4) (v : Word) (s : State) : Host.Outcome State Fault Refusal :=
  .next (s.hostWrite (CMP k x) v fun s => if s.cmpLive k x then s.cmpLiveWrite k x v else s.cmpWrite k x v)

/-- CMP_PRELOAD_WRITE: the row of a CMP_x write while LIVE_ACT_x is 0 (R58). -/
def execCmpPreloadWrite (k : Fin 384) (x : Fin 4) (v : Word) (s : State) : Host.Outcome State Fault Refusal :=
  .next (s.hostWrite (CMP k x) v fun s => if s.cmpLive k x then s.cmpWrite k x v else s.cmpPreloadWrite k x v)

/-- CMP_CFG_WRITE (R59). -/
def State.cmpCfgWrite (s : State) (k : Nat) (v : Word) : State :=
  let s := s.setFld (CMP_CFG k) 7 0 (bitsOf v 7 0)
  if s.running k then s else s.copyCmpCfg k

def execCmpCfgWrite (k : Fin 384) (v : Word) (s : State) : Host.Outcome State Fault Refusal :=
  .next (s.hostWrite (CMP_CFG k) v fun s => s.cmpCfgWrite k v)

/-- The pair snapshot, taken as a tick ends: both counts of the pair and MT, and SEQ (R65). -/
def State.takePair (s : State) (k : Nat) : State :=
  let s := (s.setReg (PAIR_SNAP_LO k) (s.reg (COUNT k))).setReg (PAIR_SNAP_HI k) (s.reg (COUNT (k + 1)))
  let s := s.setPair (PAIR_SNAP_MT_LO k) (PAIR_SNAP_MT_HI k) s.mt
  s.setFld (PAIR_SNAP_SEQ k) 15 0 (s.fld (PAIR_SNAP_SEQ k) 15 0 + 1)

/-- PAIR_SNAPSHOT_TAKE: the capture takes place at the end of the commit tick (R65). -/
def State.pairSnapshot (s : State) (k : Nat) (v : Word) : State := if bitOf v 0 && k % 2 == 0 then s.noteTake (.pair k) else s

def execPairSnapshotTake (k : Fin 384) (v : Word) (s : State) : Host.Outcome State Fault Refusal :=
  .next (s.hostWrite (if k.val % 2 = 0 then PAIR_SNAPSHOT k else CH_CTRL k + 0x018) v fun s => s.pairSnapshot k v)

/-! ### Meanings: outputs -/

/-- OUT_CTRL_WRITE: IDLE, SYNC_FWD and SYNC_DRV at once, OUT_MODE as a preload (R67, R70). A level held after a copy of the mode follows
IDLE while IDLE_ACT is 1 (notes/assumptions/76.md). -/
def State.outCtrlWrite (s : State) (k : Nat) (v : Word) : State :=
  let s := s.setReg (OUT_CTRL k) (mergeWord (s.reg (OUT_CTRL k)) v 0x00000F07#32)
  let s := if s.running k then s else s.copyMode k
  let s := if !s.running k && s.idleWhenStopped k then s.commandIdle k else s
  if s.bit (OUT_STATUS k) 1 then s.commandIdle k else s

def execOutCtrlWrite (k : Fin 384) (v : Word) (s : State) : Host.Outcome State Fault Refusal :=
  .next (s.hostWrite (OUT_CTRL k) v fun s => s.outCtrlWrite k v)

/-- OUT_FINE and DT_CFG go to preloads, copied at once while the counter is stopped; DT_CFG exists on even channels (R74, R86). -/
def State.outFineWrite (s : State) (k : Nat) (v : Word) : State :=
  let s := s.setReg (OUT_FINE k) (mergeWord (s.reg (OUT_FINE k)) v 0x003F3F3F#32)
  if s.running k then s else s.setChan k { s.chan k with outFineAct := s.reg (OUT_FINE k) }

def State.dtCfgWrite (s : State) (k : Nat) (v : Word) : State :=
  if k % 2 = 1 then s
  else
    let s := s.setReg (DT_CFG k) v
    if s.running k then s else s.setChan k { s.chan k with dtAct := v }

def execOutFineWrite (k : Fin 384) (dt : Bool) (v : Word) (s : State) : Host.Outcome State Fault Refusal :=
  .next (s.hostWrite (if dt then (if k.val % 2 = 0 then DT_CFG k else CH_CTRL k + 0x068) else OUT_FINE k) v
    fun s => if dt then s.dtCfgWrite k v else s.outFineWrite k v)

/-- SYNC_PULSE_ARRIVAL: SYNC_SEEN on every channel, the restarts of SYNC_RST, and the forward (R50, R84). The odd channel of a pair comes
first: the carry of its partner's restart finds it restarted in the same tick. -/
def State.syncArrival (s : State) (n : Nat) : State :=
  match (s.weir n).syncDue.find? (fun t => s.reached t) with
  | none => s
  | some t =>
    let s := s.setWeir n { s.weir n with syncDue := (s.weir n).syncDue.filter (fun u => u ≠ t) }
    let s := foldBelow 16 (fun s j =>
      let k := n * 16 + partnerCh j
      let s := s.raise (OUT_STATUS k) 2
      if s.bit (CH_CTRL k) 21 then s.restart k else s) s
    if (List.range 16).any (fun j => s.bit (OUT_CTRL (n * 16 + j)) 11) then s.syncOutput n else s

def execSyncPulseArrival (n : Fin 24) (s : State) : Host.Outcome State Fault Refusal :=
  .next (s.onTclk (s.syncArrival n))

/-- SYNC_IN_EDGE: a high pulse of 2 ticks or longer is taken as one rising edge; whether a shorter one is taken is a free value
(R84). -/
def State.syncInEdge (s : State) (ticksHigh : Nat) : State :=
  if 2 ≤ ticksHigh then s.syncInput 0 (s.mt + 3)
  else
    let taken := s.freeValue.getLsbD 0
    let s := s.useFree
    if taken then s.syncInput 0 (s.mt + 3) else s

def execSyncInEdge (ticksHigh : Nat) (s : State) : Host.Outcome State Fault Refusal :=
  .next (s.onTclk (s.syncInEdge ticksHigh))

/-- SYNC_OUT_FALL: the ball falls 8 ticks after its latest rise (R85). -/
def State.syncOutFall (s : State) : State :=
  match s.power.syncOut with
  | (_, fall) :: rest => if s.stampReached fall then { s with power := { s.power with syncOut := rest } } else s
  | [] => s

def execSyncOutFall (s : State) : Host.Outcome State Fault Refusal :=
  .next (s.onTclk s.syncOutFall)

/-- Level of the SYNC_OUT ball in the present tick (R85). -/
def State.syncOutLevel (s : State) : Bool :=
  match s.power.syncOut with
  | (rise, _) :: _ => s.stampReached rise
  | [] => false

/-- EDGE_EMIT: the earliest commanded edge of the channel leaves its queue in the tick of its stamp; an edge the channel owes before
it comes first (R75, R76). -/
def State.edgeEmit (s : State) (k : Nat) : State :=
  match (s.chan k).edges with
  | [] => s
  | e :: rest =>
    let r := s.pickEdge e rest
    let owes := s.owesBefore k r.1.stamp || (s.inPair k && s.owesBefore (partnerCh k) r.1.stamp)
    if s.stampReached r.1.stamp && !owes then
      (s.setChan k { s.chan k with edges := r.2 }).handOver k r.1
    else s

def execEdgeEmit (k : Fin 384) (s : State) : Host.Outcome State Fault Refusal :=
  .next (s.onTclk (s.edgeEmit k))

/-- PENDING_EDGE_EMIT: a held edge is emitted at E + 256 fine steps (R75). -/
def State.pendingEdgeEmit (s : State) (k : Nat) : State :=
  match (s.chan k).held with
  | some h =>
    if s.stampReached h.stamp then (s.setChan k { s.chan k with held := none }).emit k h.stamp h.level else s
  | none => s

def execPendingEdgeEmit (k : Fin 384) (s : State) : Host.Outcome State Fault Refusal :=
  .next (s.onTclk (s.pendingEdgeEmit k))

/-- DEAD_TIME_RISE: a delayed rise of a pair goes to the edge unit once the dead time after the partner's fall has passed (R76). -/
def State.deadTimeRise (s : State) (k : Nat) : State :=
  match (s.chan k).delayed with
  | some d =>
    let r := s.riseStamp k d
    let ownFirst := match (s.chan k).held with | some h => s.earlier h.stamp r | none => false
    if s.stampReached r && (s.chan (partnerCh k)).held.isNone && !ownFirst then
      (s.setChan k { s.chan k with delayed := none }).edgeUnit k { d with stamp := r, level := true }
    else s
  | none => s

def execDeadTimeRise (k : Fin 384) (s : State) : Host.Outcome State Fault Refusal :=
  .next (s.onTclk (s.deadTimeRise k))

/-! ### Meanings: pulse trains -/

/-- A START finds a channel that can take it (R78). -/
def State.startOk (s : State) (k : Nat) : Bool :=
  s.outMode k == 4 && !s.bit (CH_CTRL k) 4 && s.running k && !s.trainActive k

/-- Edges of an earlier train no longer count for the new one. -/
def Chan.forgetCounts (c : Chan) : Chan :=
  { c with
    edges := c.edges.map (fun e => { e with counted := false })
    held := c.held.map (fun e => { e with counted := false })
    delayed := c.delayed.map (fun e => { e with counted := false }) }

/-- START, accepted or refused: the restart, or DONE of an empty train, is due in tick `due`; the first set edge of the train takes the
event's fine bits (R78, R79). An empty START clears the counts at its commit (notes/assumptions/76.md). -/
def State.trainBegin (s : State) (k : Nat) (due : Tick) (fine : Option (BitVec 6)) : State :=
  if s.startOk k then
    let n := s.reg (PT_CMD k)
    let c := (s.chan k).forgetCounts
    let s := s.setReg (PT_EMIT k) 0
    let s := s.setChan k { c with ptSkip := 0, ptRemain := n, stopReq := none, firstFine := if n = 0 then none else fine,
                                  trainStart := some { due := due, restart := n != 0 } }
    if n = 0 then s else s.setBit (PT_STATUS k) 0 true
  else (s.raise (PT_STATUS k) 3).chanEvent k 2

/-- STOP: an active train ends at the first period end in a later tick; a STOP that is waiting already stands (R81). -/
def State.trainStop (s : State) (k : Nat) : State :=
  if s.trainActive k && (s.chan k).stopReq.isNone then s.setChan k { s.chan k with stopReq := some s.mt } else s

/-- A write to PT_CTRL: STOP, then START (R78). -/
def State.ptCtrlWrite (s : State) (k : Nat) (v : Word) : State :=
  let s := if bitOf v 1 then s.trainStop k else s
  if bitOf v 0 then s.trainBegin k (s.mt + 1) none else s

/-- PT_START: the row of a PT_CTRL write with START. -/
def execPtStart (k : Fin 384) (v : Word) (s : State) : Host.Outcome State Fault Refusal :=
  .next (s.hostWrite (PT_CTRL k) v fun s => s.ptCtrlWrite k v)

/-- PT_STOP: the row of a PT_CTRL write with STOP. -/
def execPtStop (k : Fin 384) (v : Word) (s : State) : Host.Outcome State Fault Refusal :=
  .next (s.hostWrite (PT_CTRL k) v fun s => s.ptCtrlWrite k v)

/-- The restart of a train: in a tick whose period end came before the START, that period end begins the first period of the train
(R50, R79). -/
def State.trainRestart (s : State) (k : Nat) : State :=
  let s := s.restart k
  if s.trainActive k && (s.chan k).lastPeriod == some s.mt && (s.chan k).ptRemain == s.reg (PT_CMD k) then
    s.trainPeriod k ([0, 1, 2, 3].filter (s.matchedNow k))
  else s

/-- PT_RESTART: the restart of an accepted START, or DONE of an empty train (R79). -/
def State.ptRestart (s : State) (k : Nat) : State :=
  match (s.chan k).trainStart with
  | some ts =>
    if s.reached ts.due then
      let s := s.setChan k { s.chan k with trainStart := none }
      if ts.restart then s.trainRestart k else (s.raise (PT_STATUS k) 1).chanEvent k 1
    else s
  | none => s

def execPtRestart (k : Fin 384) (s : State) : Host.Outcome State Fault Refusal :=
  .next (s.onTclk (s.ptRestart k))

/-- PT_CMD_WRITE: ignored with PT_WR_ERR while a train is active (R82). -/
def State.ptCmdWrite (s : State) (k : Nat) (v : Word) : State :=
  if s.trainActive k then s.raise (PT_STATUS k) 4 else s.setReg (PT_CMD k) v

def execPtCmdWrite (k : Fin 384) (v : Word) (s : State) : Host.Outcome State Fault Refusal :=
  .next (s.hostWrite (PT_CMD k) v fun s => s.ptCmdWrite k v)

/-- A read of PT_EMIT latches PT_SKIP and PT_REMAIN of the same tick into their registers (R82), all of the start of the BCLK cycle
(R43). -/
def State.ptEmitRead (s : State) (k : Nat) : Word × State :=
  let q := s.seen (PT_EMIT k)
  let c := q.chan k
  (q.reg (PT_EMIT k), (s.setReg (PT_SKIP k) c.ptSkip).setReg (PT_REMAIN k) c.ptRemain)

def execPtEmitRead (k : Fin 384) (s : State) : Host.Outcome State Fault Refusal :=
  .next (s.hostRead fun s => s.ptEmitRead k)

end Sys2Proof.Machine
end

