-- ==== Sys2Proof/Machine/ShaftModel.lean ====
section
/-!
DEFINITION. The model of a shaft: the estimate, its position and velocity, predicted periods and solved stamps (spec/07, R126, R136
to R138; spec/08, R159; spec/02, R34 to R41), and the readers of a shaft's registers. Quantities that the spec gives exactly are
rational numbers here and are rounded where the spec rounds them.
-/

namespace Sys2Proof.Machine

open Reg

/-! ### Rounding -/

/-- The nearest integer; a tie takes the even one (R40, R41). -/
def roundEven (q : ℚ) : Int :=
  let f := q.floor
  let r := q - f
  if r < 1 / 2 then f else if 1 / 2 < r then f + 1 else if f % 2 = 0 then f else f + 1

/-- The nearest integer; a tie takes the one above. -/
def roundUp (q : ℚ) : Int := (q + 1 / 2).floor

/-- The nearest integer; a tie goes away from zero. -/
def roundAway (q : ℚ) : Int := if 0 ≤ q then (q + 1 / 2).floor else -((-q + 1 / 2).floor)

/-- A computed value in a signed n-bit format, saturating: the value, and whether it saturated (R39). -/
def saturate (n : Nat) (v : Int) : Int × Bool :=
  let c := clampInt (-(2 ^ (n - 1) : Int)) ((2 ^ (n - 1) : Int) - 1) v
  (c, c != v)

/-- A tooth-period entry (R41): a period in fine steps. -/
def periodEntry (synth gap : Bool) (period : Nat) : Word :=
  let ticks := min 0x3FFFFFFF (roundEven ((period : ℚ) / 64)).toNat
  putBit (putBit (BitVec.ofNat 32 ticks) 30 gap) 31 synth

/-! ### The model (R136 to R138) -/

/-- Velocity in SU per tick and acceleration in SU per tick². -/
def Estimate.vel (e : Estimate) : ℚ := (e.omega : ℚ) / 2 ^ 32
def Estimate.acc (e : Estimate) : ℚ := (e.alpha : ℚ) / 2 ^ 63

/-- `d` fine steps lie beyond the model's vertex (R137). -/
def Estimate.pastVertex (e : Estimate) (d : Int) : Bool :=
  decide (e.vel * e.acc < 0) && decide (-(e.vel / e.acc) < (d : ℚ) / 64)

/-- How far the model has moved from the last tooth after `d` fine steps, in SU; it holds at its vertex (R137). -/
def Estimate.disp (e : Estimate) (d : Int) : ℚ :=
  if e.n = 0 then 0
  else if e.pastVertex d then -(e.vel * e.vel / (2 * e.acc))
  else let t : ℚ := (d : ℚ) / 64; e.vel * t + e.acc * t * t / 2

/-- The exact model position at stamp `st`, as a signed count of SU (R137). -/
def Estimate.posAt (e : Estimate) (st : Stamp) : ℚ := (e.pos.toInt : ℚ) + e.disp (ahead st e.stamp)

/-- The reported position at stamp `st`: rounded, then clamped one SU short of the next expected tooth (R137). -/
def Estimate.reported (e : Estimate) (st : Stamp) : BitVec 64 :=
  if e.n = 0 then e.pos
  else
    let p : BitVec 64 := bvInt 64 (roundEven (e.posAt st))
    match e.clampAt with
    | some c => if (if e.rev then decide (ahead p c < 0) else decide (0 < ahead p c)) then c else p
    | none => p

/-- The reported velocity in Q16.32 and acceleration in Q1.63 at stamp `st`, and whether one saturated (R137, R39). -/
def Estimate.motion (e : Estimate) (st : Stamp) : Int × Int × Bool :=
  let d := ahead st e.stamp
  if e.n = 0 || e.pastVertex d then (0, 0, false)
  else
    let v := saturate 48 (roundEven ((e.omega : ℚ) + (e.alpha : ℚ) * d / 2 ^ 37))
    (v.1, e.alpha, v.2)

/-- The largest m below 2^n, bit by bit from the top, for which `ok` holds; `ok` holds of 0 and is downward closed. -/
def searchBits (ok : Nat → Bool) : Nat → Nat → Nat
  | 0, m => m
  | n + 1, m => let m' := m + 2 ^ n; if ok m' then searchBits ok n m' else searchBits ok n m

/-- The time, in fine steps rounded by R40, at which a model of velocity `w` and acceleration `a` (both in the direction asked for)
has moved `D` SU; none when it never does (R138). A tie is rounded so that the time plus `odd` is even. The search counts half fine steps;
the slowest model that moves at all, 2^−32 SU per tick, has gone through every position within 2^104 of them. -/
def solveTime (w a D : ℚ) (odd : Bool) : Option Nat :=
  let reaches := if a < 0 then decide (0 < w) && decide (2 * (-a) * D ≤ w * w) else decide (0 < w) || decide (0 < a)
  if !reaches || decide (w < 0) then none
  else
    let f (m : Nat) : ℚ := let t : ℚ := (m : ℚ) / 128; w * t + a * t * t / 2
    let ok (m : Nat) : Bool := decide (f m ≤ D) && (decide (0 ≤ a) || decide (-a * ((m : ℚ) / 128) ≤ w))
    let m := searchBits ok 104 0
    let n := m / 2
    if m % 2 = 0 then some n
    else if f m = D && (n % 2 == 1) == odd then some n else some (n + 1)

/-- The time, in fine steps, in which the model moves `step` SU, a signed step; a tie is rounded to make the time plus `odd` even. -/
def Estimate.reach (e : Estimate) (step : Int) (odd : Bool) : Option Nat :=
  if e.n = 0 then none
  else if step < 0 then solveTime (-e.vel) (-e.acc) (-step) odd else solveTime e.vel e.acc step odd

/-- The predicted period, in fine steps, of a signed step of `step` SU (R138). -/
def Estimate.period (e : Estimate) (step : Int) : Option Nat := e.reach step false

/-- The estimate's exact acceleration and velocity from the intervals, newest first, and K_ACC in Q2.14 (R4, R136). -/
def estimateOf (ivs : List Interval) (kAcc : Int) : ℚ × ℚ :=
  let v (i : Interval) : ℚ := 64 * (i.step : ℚ) / i.period
  let t (i : Interval) : ℚ := (i.period : ℚ) / 64
  let slope (a b : Interval) : ℚ := (v b - v a) / ((t a + t b) / 2)
  let k : ℚ := (kAcc : ℚ) / 2 ^ 14
  match ivs with
  | [] => (0, 0)
  | [i3] => (0, v i3)
  | [i3, i2] => let al := k * slope i2 i3; (al, v i3 + al * t i3 / 2)
  | i3 :: i2 :: i1 :: _ => let al := k * (1 / 2) * (slope i1 i2 + slope i2 i3); (al, v i3 + al * t i3 / 2)

/-! ### Positions and angles (R34 to R36) -/

/-- A position of revolution `r` and fraction `f`. -/
def posOf (r f : Word) : BitVec 64 := ofWords r f

/-- The position with fraction `f` nearest to `p`; a tie takes the value ahead, in the direction of motion (R132). -/
def nearestPos (p : ℚ) (f : Word) (rev : Bool) : BitVec 64 :=
  let x : ℚ := (p - (f.toNat : ℚ)) / 2 ^ 32
  let r : Int := if rev then -(roundUp (-x)) else roundUp x
  bvInt 64 (r * 2 ^ 32 + f.toNat)

/-- The first position strictly ahead of `p` in a direction that has fraction `f` (R36, R159). -/
def nextWithFraction (p : BitVec 64) (f : Word) (rev : Bool) : BitVec 64 :=
  let c := posOf (hiWord p) f
  if rev then (if 0 ≤ ahead c p then c - 2 ^ 32 else c) else (if ahead c p ≤ 0 then c + 2 ^ 32 else c)

/-! ### Registers of a shaft -/

/-- EN, SRC, IFACE, and the present STATE (R123, R129). -/
def State.shEn (s : State) (h : Nat) : Bool := s.bit (SH_CTRL h) 0
def State.shSrc (s : State) (h : Nat) : Nat := s.fld (SH_CTRL h) 6 4
def State.shIface (s : State) (h : Nat) : Nat := s.fld (SH_CTRL h) 11 8
def State.shState (s : State) (h : Nat) : Nat := s.fld (SH_STATUS h) 2 0

/-- DIR: the shaft turns in reverse (R139). -/
def State.shRev (s : State) (h : Nat) : Bool := s.bit (SH_STATUS h) 6

def State.shStalled (s : State) (h : Nat) : Bool := s.bit (SH_STATUS h) 5

/-- The shaft is SYNCED or DEGRADED (R129). -/
def State.shSync (s : State) (h : Nat) : Bool := s.shState h == 3 || s.shState h == 4

def State.shWheel (s : State) (h : Nat) : Bool := s.shSrc h == 0
def State.shGenerator (s : State) (h : Nat) : Bool := s.shSrc h == 5 && s.shEn h

/-- POSITIONS, and GAP_MISSING of a wheel; virtual teeth have no gap (R145). -/
def State.shN (s : State) (h : Nat) : Nat := s.fld (WHEEL_CFG h) 10 0
def State.shM (s : State) (h : Nat) : Nat := if s.shWheel h then s.fld (WHEEL_CFG h) 13 12 else 0
def State.shFilt (s : State) (h : Nat) : Nat := s.fld (WHEEL_CFG h) 31 24

/-- CYCLE_REVS, CYCLE_VALID (R142). -/
def State.shCycleRevs (s : State) (h : Nat) : Nat := s.fld (SH_CTRL h) 20 16
def State.shCycleValid (s : State) (h : Nat) : Bool := s.bit (SH_STATUS h) 7

/-- L_P of R17. -/
def State.shLp (s : State) (h : Nat) : Nat := if s.shFilt h ≤ 56 then 64 else s.shFilt h + 8

/-- The angle of wheel position `i` of `n` above TOOTH0_ANGLE (R126). -/
def toothFraction (i n : Nat) : Nat := (i * 2 ^ 32 + n / 2) / n

/-- The fraction of the sensed edge of position `i` in a direction (R126). -/
def State.toothAngle (s : State) (h i : Nat) (rev : Bool) : Word :=
  s.reg (TOOTH0_ANGLE h) + BitVec.ofNat 32 (toothFraction i (s.shN h)) + (if rev then s.reg (REV_OFS h) else 0)

/-- The signed step from position `i` to position `j` in a direction; a step to the same position is a whole revolution. -/
def State.toothStep (s : State) (h i j : Nat) (rev : Bool) : Int :=
  let d := (s.toothAngle h j rev - s.toothAngle h i rev).toNat
  if rev then (d : Int) - 2 ^ 32 else if d = 0 then 2 ^ 32 else d

/-- A gap step is expected after the last tooth: it is the last present tooth, or a gap has been missed since (R135). -/
def State.gapExpected (s : State) (h : Nat) : Bool :=
  let n := s.shN h
  let m := s.shM h
  let i := (s.shaft h).tooth
  m != 0 && (decide (n - m ≤ i) || i == (if s.shRev h then 0 else n - m - 1))

/-- The position one pitch on. -/
def State.nextPos (s : State) (h i : Nat) : Nat := if s.shRev h then (i + s.shN h - 1) % s.shN h else (i + 1) % s.shN h

/-- The position that closes the gap: 0, or the last present tooth in reverse (R135). -/
def State.gapClose (s : State) (h : Nat) : Nat := if s.shRev h then s.shN h - s.shM h - 1 else 0

/-- The position of the next expected tooth. -/
def State.expected (s : State) (h : Nat) : Nat :=
  if s.gapExpected h then s.gapClose h else s.nextPos h (s.shaft h).tooth

/-- The signed gap step of m + 1 pitches. -/
def State.gapStep (s : State) (h : Nat) : Int :=
  let last := s.shN h - s.shM h - 1
  if s.shRev h then s.toothStep h 0 last true else s.toothStep h last 0 false

/-- The generator's position, rounded to the SU (R148). -/
def Shaft.genReported (c : Shaft) : BitVec 64 := bvInt 64 (roundEven ((c.genPos.toInt : ℚ) / 2 ^ 32))

/-- The reported position at stamp `st` of a shaft that is no generator: of the estimate, or held (R137, R343). -/
def Shaft.reported (c : Shaft) (st : Stamp) : BitVec 64 := c.held.getD (c.est.reported st)

/-- The reported position of a shaft in the present tick (R137, R148, R343). -/
def State.shPos (s : State) (h : Nat) : BitVec 64 :=
  if s.shGenerator h then (s.shaft h).genReported else (s.shaft h).reported s.now

/-- The reported position of a shaft at stamp `st`. The generator's is interpolated with its step of the present tick, at whose end it stands
at `genPos` (notes/assumptions/79.md). -/
def State.shPosStamp (s : State) (h : Nat) (st : Stamp) : BitVec 64 :=
  let c := s.shaft h
  if s.shGenerator h then
    bvInt 64 (roundEven (((c.genPos.toInt : ℚ) - (c.genStep : ℚ) * ((64 - ahead st s.now : Int) : ℚ) / 64) / 2 ^ 32))
  else c.reported st

/-- The generator's velocity in Q16.32 and its acceleration, 0 once ω has the target, and whether one saturated (R39, R148). -/
def Shaft.genMotion (c : Shaft) : Int × Int × Bool :=
  let v := saturate 48 (roundEven ((c.genOmega : ℚ) / 2 ^ 31))
  let a := saturate 64 (if c.genOmega < c.genTarget then c.genAcc else if c.genTarget < c.genOmega then -(c.genAcc : Int) else 0)
  (v.1, a.1, v.2 || a.2)

/-- The reported velocity and acceleration in the present tick, and whether one saturated (R137, R148); 0 where the position holds. -/
def State.shMotion (s : State) (h : Nat) : Int × Int × Bool :=
  if s.shGenerator h then (s.shaft h).genMotion
  else if s.shStalled h || (s.shaft h).held.isSome then (0, 0, false)
  else (s.shaft h).est.motion s.now

/-! ### The machine cycle -/

/-- The cycle revolution of the position's revolution `r` (R142). -/
def State.cycleOf (s : State) (h : Nat) (r : Word) : Nat :=
  let c := s.shaft h
  ((c.cycleRev : Int) + (r - c.cycleSeen).toInt).emod (s.shCycleRevs h) |>.toNat

/-- From `p`, by whole revolutions in a direction, the first position whose cycle revolution is `rev`; `fuel` bounds the cycle. -/
def State.seekCycle (s : State) (h rev : Nat) (back : Bool) : Nat → BitVec 64 → BitVec 64
  | 0, p => p
  | fuel + 1, p =>
    if s.cycleOf h (hiWord p) = rev then p
    else s.seekCycle h rev back fuel (if back then p - 2 ^ 32 else p + 2 ^ 32)

/-- An event angle resolved to a full position: the first one strictly ahead of `p` in its direction (R36, R159). -/
def State.resolveAngle (s : State) (h : Nat) (p : BitVec 64) (frac qual : Word) (back : Bool) : BitVec 64 :=
  let c := nextWithFraction p frac back
  if bitOf qual 8 then c else s.seekCycle h (bitsOf qual 3 0) back 16 c

/-- The direction that a DIRQ resolves in (R159). -/
def State.dirOf (s : State) (h dirq : Nat) : Bool := if dirq = 0 then false else if dirq = 1 then true else s.shRev h

/-- ANG_QUAL breaks R35 on shaft `h`. -/
def State.angleBad (s : State) (h : Nat) (qual : Word) : Bool :=
  (qual &&& ~~~ (0x10F#32)) != 0 || (!bitOf qual 8 && decide (s.shCycleRevs h ≤ bitsOf qual 3 0))

/-- What keeps an angle event frozen: its shaft, or DIR against its DIRQ (R165). -/
def State.angleFrozen (s : State) (h dirq : Nat) : Bool :=
  !s.shSync h || s.shStalled h || (s.shaft h).est.n == 0 || (decide (dirq < 2) && s.shRev h != (dirq == 1))

/-- When the last published estimate reaches the resolved position θ, a tie rounded to an even stamp (R40, R159): none when it never does; the tooth's own stamp when θ lies
behind the model at the publishing tooth (R164). -/
def State.angleStamp (s : State) (h : Nat) (theta : BitVec 64) (back : Bool) : Option Stamp :=
  let e := (s.shaft h).est
  let d := ahead theta e.pos
  let dist := if back then -d else d
  if dist ≤ 0 then some e.stamp
  else match e.reach d (e.stamp.getLsbD 0) with
    | some t => some (e.stamp + BitVec.ofNat 64 t)
    | none => none

end Sys2Proof.Machine
end

