-- ==== Sys2Proof/Machine/Weir.lean ====
section
/-!
DEFINITION. The weirs: posting, keying, dispatch, retirement, cancels and the ledger (spec/08_angle_event_scheduling.md), what a shaft's
changes do to the events on it, and the keying of an armed swap (R252). The passes over slots are commands that name the slot.
-/

namespace Sys2Proof.Machine

open Reg

/-! ### Fields of a slot's descriptor (R156) -/

def Slot.tag (e : Slot) : BitVec 12 := BitVec.ofNat 12 (bitsOf e.w0 31 20)
def Slot.ch (e : Slot) : Nat := bitsOf e.w0 19 16
def Slot.hold (e : Slot) : Bool := bitOf e.w0 15
def Slot.abortOnStall (e : Slot) : Bool := bitOf e.w0 14
def Slot.dirq (e : Slot) : Nat := bitsOf e.w0 13 12
def Slot.shaft (e : Slot) : Nat := bitsOf e.w0 11 8
def Slot.angle (e : Slot) : Bool := bitOf e.w0 7
def Slot.durationFixed (e : Slot) : Bool := bitOf e.w0 6
def Slot.level (e : Slot) : Bool := bitOf e.w0 5
def Slot.action (e : Slot) : Nat := bitsOf e.w0 2 0

/-- An undispatched angle event on shaft `h`. -/
def Slot.pendingOn (e : Slot) (h : Nat) : Bool := e.angle && e.shaft == h && !e.started

/-- The slot's key: E once started, else S; none while frozen or unreachable (R160). -/
def Slot.key (e : Slot) : Option Stamp :=
  if e.started then some e.e
  else if e.angle && (e.frozen || e.unreachable) then none
  else some e.s

/-! ### Slots -/

/-- The event in slot `i`. -/
def Weir.slot? (w : Weir) (i : Nat) : Option Slot := w.slots.lookup i

/-- The weir with event `e` in slot `i`. -/
def Weir.putSlot (w : Weir) (i : Nat) (e : Slot) : Weir := { w with slots := Table.insert (Table.erase w.slots i) i e }

def State.putSlot (s : State) (n i : Nat) (e : Slot) : State := s.setWeir n ((s.weir n).putSlot i e)

/-- Every event of a weir changed by `f`. -/
def Weir.mapSlots (w : Weir) (f : Slot → Slot) : Weir := { w with slots := w.slots.map (fun p => (p.1, f p.2)) }

/-- The ledger with an outcome counted (R173). -/
def WeirLedger.retire (l : WeirLedger) (o : Outcome) : WeirLedger :=
  match o with
  | .completed => { l with completed := l.completed + 1 }
  | .late => { l with late := l.late + 1 }
  | .shortened => { l with shortened := l.shortened + 1 }
  | .droppedPast => { l with droppedPast := l.droppedPast + 1 }
  | .droppedSync => { l with droppedSync := l.droppedSync + 1 }
  | .cancelled => { l with cancelled := l.cancelled + 1 }
  | .zero => { l with zero := l.zero + 1 }

/-- The weir once the event of slot `i` has retired in tick `t`: the slot is free for posts of later ticks (R157, R162). -/
def Weir.retire (w : Weir) (t : Tick) (i : Nat) (o : Outcome) : Weir :=
  { w with slots := Table.erase w.slots i, ledger := w.ledger.retire o, freeTick := t,
           freed := i :: (if w.freeTick = t then w.freed else []) }

/-- The event of slot `i` of weir `n` retires with outcome `o` (R162, R174). -/
def State.retire (s : State) (n i : Nat) (o : Outcome) : State :=
  let s := s.setWeir n ((s.weir n).retire s.mt i o)
  match o with
  | .droppedPast => s.weirEvent n 0
  | .droppedSync => s.weirEvent n 1
  | _ => s

/-- Slots that a post of tick `t` finds occupied: those in use and those freed in that tick (R157). -/
def Weir.taken (w : Weir) (t : Tick) (i : Nat) : Bool :=
  (w.slot? i).isSome || (w.freeTick == t && w.freed.contains i)

/-- The slot that the next accepted post takes: the lowest free one. -/
def Weir.freeSlot (w : Weir) (t : Tick) : Option Nat := (List.range 256).find? (fun i => !w.taken t i)

/-! ### Keying (R158, R159, R164, R165) -/

/-- A slot's stamps keyed afresh: an angle event from its shaft's published estimate, or frozen, or unreachable. -/
def State.keyed (s : State) (e : Slot) : Slot :=
  if !e.angle then e
  else if s.angleFrozen e.shaft e.dirq || e.resolve || e.held then { e with frozen := true, unreachable := false, rekey := false }
  else match s.angleStamp e.shaft e.theta e.rev with
    | some st => { e with e := st, s := st - e.dur.zeroExtend 64, frozen := false, unreachable := false, rekey := false,
                          plan := .completed }
    | none => { e with frozen := false, unreachable := true, rekey := false }

/-- The earliest stamp at which a start dispatched in tick `h` can be placed (R164). -/
def startPlace (h : Tick) : Stamp := (h + 16) <<< 6

/-- A keyed event whose start is dispatched in tick `h` at the earliest: unchanged when its start can be placed, moved by its policy
when it is missed, or none when it is dropped (R164). -/
def State.placed (s : State) (h : Tick) (e : Slot) : Option Slot :=
  let p := startPlace h
  if !s.earlier e.s p then some e
  else if e.durationFixed then
    if s.earlier p e.e then some { e with s := p, e := p + e.dur.zeroExtend 64, plan := .late } else none
  else if s.earlier e.e (p + 256) then none
  else some { e with s := p, plan := .shortened }

/-- A slot keyed in tick `h`: stored, or retired DROPPED_PAST in the present tick (R164). A frozen or unreachable event waits. -/
def State.storeKeyed (s : State) (n i : Nat) (h : Tick) (e : Slot) : State :=
  if e.key.isNone then s.putSlot n i e
  else match s.placed h e with
    | some e' => s.putSlot n i e'
    | none => (s.putSlot n i e).retire n i .droppedPast

/-- The pass of shaft `h` over weir `n` may reach a slot in the present tick: one slot per tick (R17). -/
def State.rekeyFree (s : State) (n h : Nat) : Bool := !((s.weir n).rekeyTick == s.mt && (s.weir n).rekeyed.contains h)

/-- The pass of shaft `h` over weir `n` has reached its slot of the present tick. -/
def State.noteRekey (s : State) (n h : Nat) : State :=
  let w := s.weir n
  s.setWeir n { w with rekeyTick := s.mt, rekeyed := h :: (if w.rekeyTick = s.mt then w.rekeyed else []) }

/-- A re-key pass reaches slot `i` (R17, R165, R170). An event not yet inserted is placed at its insertion. -/
def State.rekeySlot (s : State) (n i : Nat) : State :=
  match (s.weir n).slot? i with
  | some e =>
    if e.rekey && !e.started && s.rekeyFree n e.shaft then
      let e' := s.keyed e
      let s := s.noteRekey n e.shaft
      if e.inserted then s.storeKeyed n i s.mt e' else s.putSlot n i e'
    else s
  | none => s

/-- REKEY_PASS: the pass after a publication reaches the slot (R17, R165, R170). -/
def execRekeyPass (n : Fin 24) (slot : Fin 256) (s : State) : Host.Outcome State Fault Refusal :=
  .next (s.onTclk (s.rekeySlot n slot))

/-- CYCLE_REKEY: the pass after a change of CYCLE_REV reaches the slot (R171). -/
def execCycleRekey (n : Fin 24) (slot : Fin 256) (s : State) : Host.Outcome State Fault Refusal :=
  .next (s.onTclk (s.rekeySlot n slot))

/-! ### Actions (R154, R155) -/

/-- The weir commands the output of channel `k` to `lvl` at `st`. The edge joins the queue behind those already commanded and is not
merged with what the counter commands in this tick (R69, R163). In a tick in which a copy of OUT_MODE has ended a train it is not applied
(R67). -/
def State.eventLevel (s : State) (k : Nat) (st : Stamp) (lvl : Bool) : State :=
  let c := s.chan k
  if c.modeEnd = some s.mt then s else
  let e : Edge := { stamp := st, level := lvl, counted := false, both := false, cause := s.mt - 1 }
  (s.setChan k { c with level := lvl, bothLow := false, edges := c.edges ++ [e] }).setBit (OUT_STATUS k) 1 false

/-- The channel takes PULSE and EDGE (R155). -/
def State.eventOk (s : State) (k : Nat) : Bool := s.outMode k == 3 && s.ownOutput k

/-- An action that acts in a later tick joins the weir's list. -/
def State.weirDue (s : State) (n : Nat) (t : Tick) (a : DueAct) : State :=
  let w := s.weir n
  s.setWeir n { w with due := w.due ++ [(t, a)] }

/-- The start action of event `e` of cluster `n`, placed at `e.s`, as the `seq`-th action of its tick: none when the channel refuses it
(R154, R155). -/
def State.startAction (s : State) (n seq : Nat) (e : Slot) : State × Bool :=
  let k := n * 16 + e.ch
  match e.action with
  | 0 => if s.eventOk k then (s.eventLevel k e.s e.level, true) else (s, false)
  | 1 => (s, s.eventOk k)
  | 2 => (s.trainBegin k (s.tickFor e.s - 16) (some (e.s.truncate 6)), s.startOk k)
  | 3 => (s.weirDue n (s.tickFor e.s) (.arm k e.s), true)
  | 4 => (s.adcRequest (s.tickFor e.s + 2) (1000 + n * 64 + seq) e.s (bitsOf e.arg 5 0) (bitOf e.arg 7), true)
  | _ => (s.weirDue n (s.tickFor e.s)
      (.ring (bitsOf e.arg 5 0) e.tag e.ch (BitVec.ofNat 16 (bitsOf e.arg 31 16)) e.s), true)

/-- The end action of event `e`, commanded at stamp `st` (R154, R155). -/
def State.endAction (s : State) (n : Nat) (e : Slot) (st : Stamp) : State :=
  let k := n * 16 + e.ch
  match e.action with
  | 0 => if s.eventOk k then s.eventLevel k st (!e.level) else s
  | 1 => if s.eventOk k then s.eventLevel k st e.level else s
  | 2 => if bitOf e.arg 0 then s.weirDue n (s.tickFor st) (.stop k) else s
  | 3 => if bitOf e.arg 0 then s.weirDue n (s.tickFor st) (.disarm k) else s
  | _ => s

/-! ### Dispatch (R160, R161) -/

/-- The dispatch tick of a stamp (R15). -/
def State.dispatchTick (s : State) (st : Stamp) : Tick := s.tickFor st - 16

/-- Entry `a` stands before entry `b`: by key, then by acceptance (R160). -/
def State.slotBefore (s : State) (a b : Slot) : Bool :=
  match a.key, b.key with
  | some x, some y => s.earlier x y || (!s.earlier y x && decide (a.order < b.order))
  | some _, none => true
  | _, _ => false

/-- The first entry of a list of slots. -/
def State.headOf (s : State) : List (Nat × Slot) → Option (Nat × Slot)
  | [] => none
  | p :: rest =>
    match s.headOf rest with
    | some q => if s.slotBefore q.2 p.2 then some q else some p
    | none => some p

/-- The slot's action is due: inserted, keyed, and its dispatch tick has come. -/
def State.slotDue (s : State) (e : Slot) : Bool :=
  e.inserted && (match e.key with | some k => s.reached (s.dispatchTick k) | none => false)

/-- Actions dispatched in the present tick. -/
def Weir.dispatched (w : Weir) (t : Tick) : Nat := if w.dispTick = t then w.dispCount else 0

/-- The weir can dispatch one more action in this tick (R12, R161). -/
def State.canDispatch (s : State) (n : Nat) : Bool :=
  s.power.phase == .run && s.ucodeValid && decide ((s.weir n).dispatched s.mt < 32)

/-- One more action is dispatched in the present tick; one that the ceiling delayed counts in CONGEST_CNT (R161, R174). -/
def State.noteDispatch (s : State) (n : Nat) (due : Tick) : State :=
  let w := s.weir n
  let c := w.dispatched s.mt + 1
  let congested := due != s.mt && (match w.fullTick with | some t => decide (0 ≤ ahead t due) | none => false)
  let s := s.setWeir n { w with dispTick := s.mt, dispCount := c, fullTick := if c = 32 then some s.mt else w.fullTick }
  if congested then (s.satCount (CONGEST_CNT n)).weirEvent n 3 else s

/-- The event whose action weir `n` dispatches next: the first in key order of those due, starts and ends alike (R161). -/
def State.dueHead (s : State) (n : Nat) : Option (Nat × Slot) := s.headOf ((s.weir n).slots.filter (fun p => s.slotDue p.2))

/-- START_DISPATCH: the start action of the first due event of the weir, when that has not started. -/
def State.startDispatch (s : State) (n : Nat) : State :=
  match s.dueHead n with
  | some (i, e) =>
    if e.started || !s.canDispatch n then s
    else
      let seq := (s.weir n).dispatched s.mt
      let s := s.noteDispatch n (s.dispatchTick e.s)
      match s.placed s.mt e with
      | none => s.retire n i .droppedPast
      | some e =>
        let r := s.startAction n seq e
        if r.2 then r.1.putSlot n i { e with started := true, rekey := false }
        else (r.1.satCount (ACT_REFUSED_CNT n)).retire n i .cancelled
  | none => s

def execStartDispatch (n : Fin 24) (s : State) : Host.Outcome State Fault Refusal :=
  .next (s.onTclk (s.startDispatch n))

/-- END_DISPATCH: the end action of the first due event of the weir, when that has started; a delayed one ends as late as its dispatch
makes it, and the event retires LATE (R161, R162). -/
def State.endDispatch (s : State) (n : Nat) : State :=
  match s.dueHead n with
  | some (i, e) =>
    if !e.started || !s.canDispatch n then s
    else
      let due := s.dispatchTick e.e
      let s := s.noteDispatch n due
      if due = s.mt then (s.endAction n e e.e).retire n i e.plan
      else (s.endAction n e (startPlace s.mt)).retire n i .late
  | none => s

def execEndDispatch (n : Fin 24) (s : State) : Host.Outcome State Fault Refusal :=
  .next (s.onTclk (s.endDispatch n))

/-- The later of two stamps. -/
def State.laterOf (s : State) (a b : Stamp) : Stamp := if s.earlier a b then b else a

/-- A running event with ABORT_ON_STALL is cut: a PULSE ends as soon as it can, and not within 256 fine steps of its start (R167). -/
def State.abortSlot (s : State) (n i : Nat) (e : Slot) : State :=
  let s := if e.action = 0 then s.endAction n e (s.laterOf (startPlace s.mt) (e.s + 256)) else s
  (s.satCount (STALL_ABORT_CNT n)).retire n i .cancelled

/-! ### Posting (R156, R157) -/

/-- The status of a post by the checks before WEIR_FULL, in their order (R156). -/
def State.postCheck (s : State) (d : Nat → Word) : Nat :=
  let w0 := d 0
  let h := bitsOf w0 11 8
  let angle := bitOf w0 7
  let qual := d 2
  if decide (6 ≤ bitsOf w0 2 0) || bitsOf w0 4 3 != 0 || bitsOf (d 5) 15 8 != 0 then 2
  else if bitsOf (d 4) 31 8 ≠ 0 then 3
  else if angle && decide (s.fld ID_CLUSTER 31 24 ≤ h) then 4
  else if angle && s.angleBad h qual then 5
  else if angle && !s.shSync h then 6
  else if angle && !bitOf qual 8 && decide (1 < s.shCycleRevs h) && !s.shCycleValid h then 7
  else if bitsOf (d 4) 7 0 = 0 && d 3 = 0 then 8
  else 0

/-- A post to weir `n` can commit in the present tick: one post per tick, in the order in which they came (R157). -/
def State.postFree (s : State) (n : Nat) : Bool := (s.weir n).lastPost != some s.mt && (s.weir n).posts.isEmpty

/-- A post waits for a later tick (R157). -/
def State.postLater (s : State) (n : Nat) (p : WaitingPost) : State :=
  s.setWeir n { s.weir n with posts := (s.weir n).posts ++ [p] }

/-- The event of a descriptor as its slot holds it at its commit, in the present tick (R158, R159). -/
def State.eventOf (s : State) (n : Nat) (d : Nat → Word) : Slot :=
  let w0 := d 0
  let h := bitsOf w0 11 8
  let dur : BitVec 40 := (d 4).truncate 8 ++ d 3
  let back := s.dirOf h (bitsOf w0 13 12)
  let start := ofWords (d 2) (d 1)
  let base : Slot :=
    { w0 := w0, qual := d 2, frac := d 1, dur := dur, arg := d 5, s := start, e := start + dur.zeroExtend 64,
      theta := 0, rev := false, frozen := false, unreachable := false, started := false, plan := .completed, commit := s.mt,
      order := (s.weir n).order, inserted := false, rekey := false, resolve := false, held := false, dropSync := false }
  if bitOf w0 7 then
    s.keyed { base with theta := s.resolveAngle h (s.shPos h) (d 1) (d 2) back, rev := back }
  else base

/-- A post of descriptor `d` to weir `n` commits in the present tick: its status, and what it does to the ledger and the slots (R156,
R157). -/
def State.post (s : State) (n : Nat) (d : Nat → Word) : Nat × State :=
  let st := s.postCheck d
  let s := s.setWeir n { s.weir n with lastPost := some s.mt }
  let w := s.weir n
  let accepted := { w.ledger with accepted := w.ledger.accepted + 1 }
  if st = 8 then (8, s.setWeir n { w with ledger := accepted.retire .zero })
  else if st ≠ 0 then (st, s.satCount (POST_REFUSED_CNT n))
  else match w.freeSlot s.mt with
    | none => (1, (s.satCount (WEIR_FULL_CNT n)).weirEvent n 2)
    | some i => (0, s.setWeir n ({ w with ledger := accepted, order := w.order + 1 }.putSlot i (s.eventOf n d)))

/-- A host post commits; its result is in POST_RESULT. -/
def State.postHost (s : State) (n : Nat) (d : Nat → Word) : State :=
  let r := s.post n d
  let seq := bitsOf (r.2.reg (POST_RESULT n)) 31 16 + 1
  r.2.setReg (POST_RESULT n) (setBits (setBits 0 31 16 seq) 3 0 r.1)

/-- POST_GO: a write of GO posts POST_W0 to POST_W5, at once or in the first tick that no other post takes; they are read in the tick in
which the post commits (R157, R175). -/
def State.postGo (s : State) (n : Nat) (v : Word) : State :=
  if bitOf v 0 then
    if s.postFree n then s.postHost n (fun j => s.reg (POST_W n j))
    else s.postLater n { words := [], thread := none, first := false }
  else s

def execPostGo (n : Fin 24) (v : Word) (s : State) : Host.Outcome State Fault Refusal :=
  .next (s.hostWrite (POST_GO n) v fun s => s.postGo n v)

/-- INSERTION_COMPLETE: the event takes its place in the slot order; a start less than 48 ticks after the commit tick c is missed, with
h = c + 32 (R16, R164). -/
def State.insertionComplete (s : State) (n i : Nat) : State :=
  match (s.weir n).slot? i with
  | some e => if e.inserted then s else s.storeKeyed n i (e.commit + 32) { e with inserted := true }
  | none => s

def execInsertionComplete (n : Fin 24) (slot : Fin 256) (s : State) : Host.Outcome State Fault Refusal :=
  .next (s.onTclk (s.insertionComplete n slot))

/-! ### What a shaft does to the events on it -/

/-- Every event of every weir changed by `f`. -/
def State.mapEvents (s : State) (f : Slot → Slot) : State :=
  foldBelow 24 (fun s n => if (s.weir n).slots.isEmpty then s else s.setWeir n ((s.weir n).mapSlots f)) s

/-- The undispatched angle events of shaft `h` that its present state freezes lose their keys (R165). -/
def State.refreeze (s : State) (h : Nat) : State :=
  s.mapEvents (fun e => if e.pendingOn h && s.angleFrozen h e.dirq then { e with frozen := true } else e)

/-- Each running angle event with ABORT_ON_STALL on shaft `h` for which `p` holds of its DIRQ is cut (R167). -/
def State.abortEvents (s : State) (h : Nat) (p : Nat → Bool) : State :=
  foldBelow 24 (fun s n =>
    (s.weir n).slots.foldl (fun s ie =>
      if ie.2.angle && ie.2.shaft == h && ie.2.started && ie.2.abortOnStall && p ie.2.dirq then s.abortSlot n ie.1 ie.2 else s) s) s

/-- Event `e` of shaft `h` resolved afresh from position `pos`, for its re-key (R159). -/
def State.resolvedEvent (s : State) (h : Nat) (pos : BitVec 64) (e : Slot) : Slot :=
  let back := s.dirOf h e.dirq
  { e with theta := s.resolveAngle h pos e.frac e.qual back, rev := back, resolve := false, rekey := true }

/-- Each publication in SYNCED or DEGRADED asks for the re-keying of every undispatched event of the shaft, and held events resume; those
that must be resolved again are, at the model position `pos` (R165, R170). -/
def State.weirPublish (s : State) (h : Nat) (pos : BitVec 64) : State :=
  if !s.shSync h then s
  else s.mapEvents (fun e =>
    if e.pendingOn h && !e.dropSync then
      let e := { e with held := false, rekey := true }
      if e.resolve && (bitOf e.qual 8 || s.shCycleRevs h == 1 || s.shCycleValid h) then s.resolvedEvent h pos e else e
    else e)

/-- Shaft `h` has entered LOST or STOPPED: events without HOLD are to retire DROPPED_SYNC, the others wait frozen, and those whose θ_E
must be found again are marked (R169, R170). -/
def State.weirShaftLost (s : State) (h : Nat) (stopped : Bool) : State :=
  let s := s.mapEvents (fun e =>
    if e.pendingOn h then
      { e with frozen := true, rekey := false, dropSync := e.dropSync || !e.hold,
               resolve := e.resolve || stopped || (!bitOf e.qual 8 && decide (1 < s.shCycleRevs h)),
               held := true }
    else e)
  s.abortEvents h (fun _ => true)

/-- STALLED of shaft `h` has been set (R165, R167). -/
def State.weirShaftStall (s : State) (h : Nat) : State := (s.refreeze h).abortEvents h (fun _ => true)

/-- DIR of shaft `h` has changed: events with DIRQ either are resolved again in the new direction (R167, R168). -/
def State.weirShaftDir (s : State) (h : Nat) : State :=
  let rev := s.shRev h
  let p := s.shPos h
  let s := s.mapEvents (fun e =>
    if e.pendingOn h && decide (2 ≤ e.dirq) && !e.resolve then
      { e with theta := s.resolveAngle h p e.frac e.qual rev, rev := rev, frozen := true }
    else e)
  (s.refreeze h).abortEvents h (fun q => decide (q < 2) && rev != (q == 1))

/-- CYCLE_REV of shaft `h` has changed: undispatched events with ANY_REV = 0 are resolved again and wait for their re-key (R170,
R171). A held event waits for the first publication, which resolves it (R170). -/
def State.weirCycle (s : State) (h : Nat) : State :=
  s.mapEvents (fun e =>
    if e.pendingOn h && !bitOf e.qual 8 && !e.dropSync && !e.held then s.resolvedEvent h (s.shPos h) e else e)

/-- DROPPED_SYNC_RETIRE: the pass after a loss reaches the slot (R169). -/
def State.droppedSync (s : State) (n i : Nat) : State :=
  match (s.weir n).slot? i with
  | some e => if e.dropSync && !e.started then s.retire n i .droppedSync else s
  | none => s

def execDroppedSyncRetire (n : Fin 24) (slot : Fin 256) (s : State) : Host.Outcome State Fault Refusal :=
  .next (s.onTclk (s.droppedSync n slot))

/-! ### Cancels (R172) -/

/-- A cancel commits; it waits behind one that runs. -/
def State.cancel (s : State) (n : Nat) (tag mask : BitVec 12) (thread : Option Nat) (host : Bool) : State :=
  let w := s.weir n
  let c : Cancel := { tag := tag, mask := mask, thread := thread, host := host, start := s.mt, before := w.order,
                      left := w.slots.map Prod.fst, count := 0 }
  let s := s.setWeir n { w with cancels := w.cancels ++ [c] }
  if host then s.setBit (CANCEL_RESULT n) 31 true else s

/-- CANCEL_GO: a write of GO starts a cancel with CANCEL_SEL. -/
def State.cancelGo (s : State) (n : Nat) (v : Word) : State :=
  if bitOf v 0 then
    s.cancel n (BitVec.ofNat 12 (s.fld (CANCEL_SEL n) 11 0)) (BitVec.ofNat 12 (s.fld (CANCEL_SEL n) 27 16)) none true
  else s

def execCancelGo (n : Fin 24) (v : Word) (s : State) : Host.Outcome State Fault Refusal :=
  .next (s.hostWrite (CANCEL_GO n) v fun s => s.cancelGo n v)

/-- The cancel at the front has visited every slot: its count is reported, and BUSY clears unless another host cancel waits. -/
def State.cancelEnd (s : State) (n : Nat) (c : Cancel) : State :=
  let w := s.weir n
  let s := s.setWeir n { w with cancels := w.cancels.tail }
  if c.host then
    s.setReg (CANCEL_RESULT n) (putBit (BitVec.ofNat 32 c.count) 31 (w.cancels.tail.any (fun d => d.host)))
  else s

/-- CANCEL_PASS: the running cancel visits slot `i`, from the tick after its commit on, one slot per tick. -/
def State.cancelPass (s : State) (n i : Nat) : State :=
  match (s.weir n).cancels with
  | [] => s
  | c :: rest =>
    if !s.reached (c.start + 1) || (s.weir n).cancelAt == some s.mt then s
    else
      let hit := match (s.weir n).slot? i with
        | some e => c.left.contains i && decide (e.order < c.before) && !e.started && e.tag &&& c.mask == c.tag &&& c.mask
        | none => false
      let s := if hit then s.retire n i .cancelled else s
      let c := { c with left := c.left.filter (fun j => j ≠ i), count := if hit then c.count + 1 else c.count }
      let s := s.setWeir n { s.weir n with cancels := c :: rest, cancelAt := some s.mt }
      if c.left.isEmpty then s.cancelEnd n c else s

def execCancelPass (n : Fin 24) (slot : Fin 256) (s : State) : Host.Outcome State Fault Refusal :=
  .next (s.onTclk (s.cancelPass n slot))

/-! ### Status and ledger (R173 to R175) -/

/-- The head entry of weir `n`, when one is keyed. -/
def State.weirHead (s : State) (n : Nat) : Option Stamp :=
  match s.headOf ((s.weir n).slots.filter (fun p => p.2.key.isSome)) with
  | some p => p.2.key
  | none => none

/-- WEIR_STATUS as it reads. -/
def State.weirStatus (s : State) (n : Nat) : Word :=
  let slots := (s.weir n).slots
  let frozen := (slots.filter (fun p => p.2.key.isNone)).length
  let w := setBits (setBits 0 24 16 slots.length) 8 0 frozen
  putBit (putBit w 31 (slots.length == 256)) 30 (s.weirHead n).isSome

/-- HEAD_LO and HEAD_HI as they read: the head key, 0 when there is none. -/
def State.headKey (s : State) (n : Nat) : Stamp := (s.weirHead n).getD 0

/-- The ledger snapshot, taken as a tick ends: every counter of the ledger, PENDING and MT, and SEQ (R174). -/
def State.takeWeir (s : State) (n : Nat) : State :=
  let l := (s.weir n).ledger
  let s := s.setPair (SNAP_ACCEPTED_LO n) (SNAP_ACCEPTED_HI n) l.accepted
  let s := s.setPair (SNAP_COMPLETED_LO n) (SNAP_COMPLETED_HI n) l.completed
  let s := s.setPair (SNAP_LATE_LO n) (SNAP_LATE_HI n) l.late
  let s := s.setPair (SNAP_SHORTENED_LO n) (SNAP_SHORTENED_HI n) l.shortened
  let s := s.setPair (SNAP_DROP_PAST_LO n) (SNAP_DROP_PAST_HI n) l.droppedPast
  let s := s.setPair (SNAP_DROP_SYNC_LO n) (SNAP_DROP_SYNC_HI n) l.droppedSync
  let s := s.setPair (SNAP_CANCELLED_LO n) (SNAP_CANCELLED_HI n) l.cancelled
  let s := s.setPair (SNAP_ZERO_LO n) (SNAP_ZERO_HI n) l.zero
  let s := s.setReg (SNAP_PENDING n) (BitVec.ofNat 32 (s.weir n).slots.length)
  let s := s.setPair (WEIR_SNAP_MT_LO n) (WEIR_SNAP_MT_HI n) s.mt
  s.setFld (LEDGER_SEQ n) 15 0 (s.fld (LEDGER_SEQ n) 15 0 + 1)

/-- LEDGER_TAKE: the capture takes place at the end of the commit tick (R174). -/
def State.ledgerTake (s : State) (n : Nat) (v : Word) : State := if bitOf v 0 then s.noteTake (.weir n) else s

def execLedgerTake (n : Fin 24) (v : Word) (s : State) : Host.Outcome State Fault Refusal :=
  .next (s.hostWrite (LEDGER_TAKE n) v fun s => s.ledgerTake n v)

/-! ### The keying of an armed swap (R252) -/

def State.swapArmed (s : State) : Bool := s.bit SWAP_STATUS 29
def State.swapFixed (s : State) : Bool := s.bit SWAP_STATUS 28

/-- The armed swap ends without running, with its outcome; the recipe stays staged. -/
def State.swapEnd (s : State) (outcome : Nat) : State :=
  let news := s.fld SWAP_STATUS 3 0 != outcome
  let w := putBit (putBit (s.reg SWAP_STATUS) 29 false) 28 false
  let s := s.setReg SWAP_STATUS (setBits w 3 0 outcome)
  if news then s.deliver 253 none else s

/-- The swap stamp is keyed in the present tick: T, F, and the miss of an F that is not ahead. -/
def State.swapKey (s : State) (st : Stamp) : State :=
  let t := s.tickFor (st + 63)
  let f := t - 256
  let s := s.setPair SWAP_STAMP_LO SWAP_STAMP_HI st
  if 0 < ahead f s.mt then { s with swap := { s.swap with stamp := st, keyed := true, late := false, fTick := f, tTick := t } }
  else if s.bit SWAP_STATUS 26 then
    { s with swap := { s.swap with stamp := st, keyed := true, late := true, fTick := s.mt, tTick := s.mt + 256 } }
  else s.swapEnd 3

/-- The armed angle swap of shaft `h` that is not FIXED is keyed again, or frozen. -/
def State.swapRekey (s : State) (h : Nat) : State :=
  if s.swapArmed && !s.swapFixed && s.bit SWAP_STATUS 25 && s.fld SWAP_STATUS 20 17 == h then
    if s.angleFrozen h s.swap.dirq then { s with swap := { s.swap with keyed := false } }
    else match s.angleStamp h s.swap.theta s.swap.rev with
      | some st => s.swapKey st
      | none => { s with swap := { s.swap with keyed := false } }
  else s

/-- Shaft `h` freezes the armed angle swap on it. -/
def State.swapFreeze (s : State) (h : Nat) : State :=
  if s.swapArmed && !s.swapFixed && s.bit SWAP_STATUS 25 && s.fld SWAP_STATUS 20 17 == h && s.angleFrozen h s.swap.dirq then
    { s with swap := { s.swap with keyed := false } }
  else s

/-- Shaft `h` has entered LOST or STOPPED before F: the swap on it is lost. -/
def State.swapShaftLost (s : State) (h : Nat) : State :=
  if s.swapArmed && !s.swapFixed && s.bit SWAP_STATUS 25 && s.fld SWAP_STATUS 20 17 == h then s.swapEnd 4 else s

/-! ### Position compares and jumps of a shaft (R197) -/

/-- Position `p` lies before V in the direction of compare `j`. -/
def State.pcBefore (s : State) (j : Nat) (p : BitVec 64) : Bool :=
  let d := ahead p (s.pcmp j).v
  if (s.pcmp j).rev then decide (0 < d) else decide (d < 0)

/-- Shaft `h` has jumped from position `p0`: no motion for the compares that watch it. One that it carries past V is BEHIND; one that
it carries back waits for the next crossing. -/
def State.shaftJumped (s : State) (h : Nat) (p0 : BitVec 64) : State :=
  let p := s.shPos h
  foldBelow 32 (fun s j =>
    if s.bit (PC_STATUS j) 0 && s.fld (PC_CTRL j) 11 10 == 0 && s.fld (PC_CTRL j) 9 6 == h then
      if s.pcBefore j p then s.setPcmp j { s.pcmp j with near := true }
      else
        let s := if s.pcBefore j p0 then s.raise (PC_STATUS j) 2 else s
        s.setPcmp j { s.pcmp j with near := false }
    else s) s

end Sys2Proof.Machine
end

