-- ==== Sys2Proof/Machine/Shaft.lean ====
section
/-!
DEFINITION. The shaft predictors: spec/07_shafts_and_wheels.md, R123 to R151. Candidates of a wheel come from INPUT_EDGE (Input.lean),
crossings of an encoder shaft from its interface (Feedback.lean), the model of an imported shaft from its slot (Network.lean).
-/

namespace Sys2Proof.Machine

open Reg

/-! ### Estimate, hold and jump -/

/-- EST_N and PRED_PERIOD report the published estimate (R137, R138). -/
def State.reportEstimate (s : State) (h : Nat) : State :=
  let e := (s.shaft h).est
  let p1 : Nat := match e.p1 with
    | some p => (roundEven ((p : ℚ) / 64)).toNat
    | none => 0x3FFFFFFF
  (s.setFld (SH_STATUS h) 9 8 e.n).setReg (PRED_PERIOD h) (BitVec.ofNat 32 (min 0x3FFFFFFF p1))

/-- The position holds at `pos`, and the estimate is discarded (R125, R129, R140, R141). -/
def State.holdAt (s : State) (h : Nat) (pos : BitVec 64) : State :=
  let c := s.shaft h
  let est := { Estimate.init with stamp := s.now, pos := pos, rev := s.shRev h }
  (s.setShaft h { c with est := est, next := [], intervals := [], opens := false, held := none }).reportEstimate h

/-- The position holds where it is reported in this tick. -/
def State.hold (s : State) (h : Nat) : State := s.holdAt h (s.shPos h)

/-- A jump is recorded, with its CAUSE: 1 RESYNC, 2 GAP (R140). -/
def State.jump (s : State) (h : Nat) (j : BitVec 64) (cause : Nat) : State :=
  let s := s.setPair (JUMP_LO h) (JUMP_HI h) j
  let s := s.setReg (JUMP_INFO h) (setBits (setBits 0 31 16 (s.fld (JUMP_INFO h) 31 16 + 1)) 1 0 cause)
  (s.setShaft h { s.shaft h with jumpDue := true }).shaftEvent h 4

/-- A velocity or acceleration saturated (R39, R137). -/
def State.noteSat (s : State) (h : Nat) (b : Bool) : State := if b then s.raise (SH_STATUS h) 10 else s

/-- A reported velocity or acceleration of the present tick falls outside its format: SAT is set (R39, R137). -/
def State.satTick (s : State) (h : Nat) : State := s.noteSat h (s.shMotion h).2.2

/-! ### States (R129, R142) -/

/-- The shaft enters state `st` (0 STOPPED, 1 SEARCH, 2 CANDIDATE, 3 SYNCED, 4 DEGRADED, 5 LOST). Leaving SYNCED and DEGRADED holds the
position and clears CYCLE_VALID; SEARCH, LOST and STOPPED clear STALLED; with CYCLE_REVS = 1 the cycle is known in sync. Each entry into
LOST is counted and is an interrupt event (R129, R151). -/
def State.enterState (s : State) (h st : Nat) : State :=
  let old := s.shState h
  if st = old then s
  else
    let wasSync := s.shSync h
    let isSync := st == 3 || st == 4
    let s := if wasSync && !isSync then (s.setBit (SH_STATUS h) 7 false).hold h else s
    let s := s.setFld (SH_STATUS h) 2 0 st
    let s := if st = 0 || st = 1 || st = 5 then s.setBit (SH_STATUS h) 5 false else s
    let s := if isSync && s.shCycleRevs h == 1 then s.setBit (SH_STATUS h) 7 true else s
    let s := if st = 5 then (s.satCount (LOST_CNT h)).shaftEvent h 2 else s
    if st = 3 then s.shaftEvent h 0
    else if st = 4 then s.shaftEvent h 1
    else if wasSync && !isSync then
      let s := s.setShaft h { s.shaft h with dirTooth := false, afterStall := false }
      (s.weirShaftLost h (st == 0)).swapShaftLost h
    else s

/-! ### Publication (R17, R137, R165) -/

/-- The newest estimate, from the intervals and the last tooth, with its clamp and predicted periods, waits for publication tick `t`
(R136 to R138). An encoder or generator tooth has its clamp too (R145). One that already waits is published no later than the newer one
(notes/assumptions/79.md). -/
def State.newEstimate (s : State) (h : Nat) (st : Stamp) (t : Tick) : State :=
  let c := s.shaft h
  let q := estimateOf c.intervals (signed 16 (s.fld (EST_CFG h) 15 0))
  let al := saturate 64 (roundEven (q.1 * 2 ^ 63))
  let om := saturate 48 (roundEven (q.2 * 2 ^ 32))
  let rev := s.shRev h
  let edge := c.toothPos + bvInt 64 (s.toothStep h c.tooth (s.expected h) rev)
  let e : Estimate :=
    { stamp := st, pos := c.toothPos, omega := om.1, alpha := al.1, n := c.intervals.length, rev := rev,
      clampAt := some (if rev then edge + 1 else edge - 1), p1 := none, pe := none }
  let pitch := s.toothStep h c.tooth (s.nextPos h c.tooth) rev
  let e := { e with p1 := e.period pitch, pe := e.period (if s.gapExpected h then s.gapStep h else pitch) }
  let waiting := c.next.map (fun w => if ahead w.1 t ≤ 0 then w else (t, w.2))
  (s.setShaft h { c with next := waiting ++ [(t, e)] }).noteSat h (al.2 || om.2)

/-- ESTIMATE_PUBLICATION: the oldest waiting estimate takes effect, and every weir and the armed swap are to be keyed from it. -/
def State.publish (s : State) (h : Nat) : State :=
  match (s.shaft h).next with
  | (t, e) :: rest =>
    if s.reached t then
      let p0 := s.shPos h
      let jumped := (s.shaft h).jumpDue
      let s := (s.setShaft h { s.shaft h with est := e, next := rest, jumpDue := false }).reportEstimate h
      let s := if jumped then s.shaftJumped h p0 else s
      (s.weirPublish h (bvInt 64 (roundEven (e.posAt s.now)))).swapRekey h
    else s
  | [] => s

def execEstimatePublication (sh : Fin 16) (s : State) : Host.Outcome State Fault Refusal :=
  .next (s.onTclk (s.publish sh))

/-- The tick in which the estimate of a tooth is published, L_P after tick `base`: that of a real tooth's stamp, of a synthetic tooth's
insertion, or of the sample or frame that showed a crossing (R17, R179). -/
def State.publishTick (s : State) (h : Nat) (base : Tick) : Tick := base + BitVec.ofNat 64 (s.shLp h)

/-- The history entry of a tooth, when a tooth came before it (R149). -/
def State.noteHistory (s : State) (h : Nat) (st : Stamp) (base : Tick) (synth gap : Bool) : State :=
  let c := s.shaft h
  match c.lastTooth with
  | some l =>
    let e := periodEntry synth gap (st - l).toNat
    (s.setShaft h { c with history := c.history ++ [(s.publishTick h base, e)] }).setReg (LAST_PERIOD h) e
  | none => s

/-- A real tooth is accepted: its stamp bounds a period of R130. -/
def State.noteStamp (s : State) (h : Nat) (st : Stamp) : State :=
  s.setShaft h { s.shaft h with stamps := (st :: (s.shaft h).stamps).take 4 }

/-- The tick that a wheel's tooth stamped `st` counts its publication from. -/
def State.toothBase (s : State) (st : Stamp) (synth : Bool) : Tick := if synth then s.mt else s.tickFor st

/-- The tooth stamped `st` is the last tooth. -/
def State.setLastTooth (s : State) (h : Nat) (st : Stamp) : State :=
  (s.setShaft h { s.shaft h with lastTooth := some st }).setPair (LAST_TOOTH_LO h) (LAST_TOOTH_HI h) st

/-- A tooth in sync: wheel position `idx`, full position `pos`, signed step `step` of the interval it closes (R136). STALLED clears when
it closes one (R141). -/
def State.takeTooth (s : State) (h : Nat) (st : Stamp) (base : Tick) (idx : Nat) (pos : BitVec 64) (step : Int) (synth gap : Bool) : State :=
  let c := s.shaft h
  let period := match c.lastTooth with | some l => (st - l).toNat | none => 0
  let closes := c.opens && period != 0
  let s := s.noteHistory h st base synth gap
  let s := if synth then s else s.noteStamp h st
  let c := s.shaft h
  let s := s.setShaft h { c with
    tooth := idx, toothPos := pos, toothRev := s.shRev h, opens := true, dirTooth := false, afterStall := false, lastSynth := synth,
    synthSinceGap := c.synthSinceGap || synth,
    intervals := if closes then ({ step := step, period := period } :: c.intervals).take 3 else c.intervals }
  let s := if closes && !s.shGenerator h then s.setBit (SH_STATUS h) 5 false else s
  (s.setLastTooth h st).newEstimate h st (s.publishTick h base)

/-- A tooth that meets a loss condition: it is the last tooth and has its history entry, and the shaft is LOST (R129, R149). -/
def State.lostTooth (s : State) (h : Nat) (st : Stamp) (synth gap : Bool) : State :=
  let s := (s.noteHistory h st (s.toothBase st synth) synth gap).setLastTooth h st
  (if synth then s else s.noteStamp h st).enterState h 5

/-! ### Direction (R139, R140, R168) -/

/-- DIR becomes `d`: the estimate is discarded, the position holds, and the events on the shaft see the change. -/
def State.setDir (s : State) (h : Nat) (d : Bool) : State :=
  if s.shRev h = d then s
  else
    let p := s.shPos h
    let s := (s.setBit (SH_STATUS h) 6 d).holdAt h p
    let s := if s.shSync h then s.setShaft h { s.shaft h with dirTooth := true } else s
    (s.weirShaftDir h).swapFreeze h

/-- The direction input of a wheel in tick `t`, after DIR_INV; a DIR_CH above 383 selects no input. -/
def State.dirInput (s : State) (h : Nat) (t : Tick) : Bool :=
  let k := s.fld (SH_INPUTS h) 17 9
  (decide (k < 384) && (s.chan k).sampled t) != s.bit (SH_CTRL h) 22

/-- DIR_SRC of a wheel; 0b11 acts as 0b00. -/
def State.dirSrc (s : State) (h : Nat) : Nat := s.fld (SH_CTRL h) 13 12 % 3

/-- DIRECTION_CHANGE: a new level of the direction input has held TOOTH_FILT ticks (DIR_SRC 0b01), DIR of the interface has changed, or the
generator's velocity has changed its sign (R123, R139, R148). -/
def State.directionChange (s : State) (h : Nat) : State :=
  if !s.shEn h then s
  else if s.shWheel h then
    match s.dirSrc h, (s.shaft h).dirSince with
    | 1, some t =>
      if s.reached (t + BitVec.ofNat 64 (s.shFilt h)) then
        (s.setShaft h { s.shaft h with dirSince := none }).setDir h (s.dirInput h s.mt)
      else s
    | _, _ => s
  else if s.shSrc h = 5 then
    let w := (s.shaft h).genOmega
    if w = 0 then s else s.setDir h (decide (w < 0))
  else if s.shSrc h < 4 then s.setDir h (s.bit (FB_STATUS ((s.shSrc h - 1) * 8 + s.shIface h)) 2)
  else s

def execDirectionChange (sh : Fin 16) (s : State) : Host.Outcome State Fault Refusal :=
  .next (s.onTclk (s.directionChange sh))

/-! ### Search (R130 to R132) -/

/-- A candidate is confirmed by the tooth stamped `st`: SYNCED, with the last three periods as the estimate (R132). -/
def State.confirm (s : State) (h : Nat) (st : Stamp) : State :=
  let c := s.shaft h
  let rev := s.shRev h
  let last := s.shN h - s.shM h - 1
  let seq := if rev then (1, 0, last, last - 1) else (last - 1, last, 0, 1)
  let idx := seq.2.2.2
  let f := s.toothAngle h idx rev
  let pos := if c.fromLost then nearestPos (c.est.pos.toInt : ℚ) f rev else posOf 0 f
  let steps := [s.toothStep h seq.2.2.1 idx rev, s.toothStep h seq.2.1 seq.2.2.1 rev, s.toothStep h seq.1 seq.2.1 rev]
  let periods := List.zipWith (fun a b => (a - b).toNat) c.stamps c.stamps.tail
  let s := if c.fromLost then s.jump h (pos - c.est.pos) 1 else s
  let s := s.setShaft h { s.shaft h with
    tooth := idx, toothPos := pos, toothRev := rev, opens := true, dirTooth := false, afterStall := false, lastSynth := false,
    synthSinceGap := false, gapMissed := false, cycleSeen := hiWord pos, jumpDue := true,
    intervals := List.zipWith (fun a b => { step := a, period := b }) steps periods }
  (s.enterState h 3).newEstimate h st (s.publishTick h (s.toothBase st false))

/-- The three consecutive periods that the newest tooth closes make a gap candidate (R130). -/
def gapCandidate (ratio : Nat) : List Stamp → Bool
  | a :: b :: c :: d :: _ =>
    let t3 := (a - b).toNat
    let t2 := (b - c).toNat
    let t1 := (c - d).toNat
    decide (ratio * t1 ≤ t2 * 4096) && decide (ratio * t3 ≤ t2 * 4096)
  | _ => false

/-- The newest period meets the first condition of R130 (R149). -/
def gapOpens (ratio : Nat) : List Stamp → Bool
  | a :: b :: c :: _ => decide (ratio * (b - c).toNat ≤ (a - b).toNat * 4096)
  | _ => false

/-- A tooth accepted in SEARCH, CANDIDATE or LOST. -/
def State.searchTooth (s : State) (h : Nat) (st : Stamp) : State :=
  let ratio := s.fld (GAP_CFG h) 15 0
  let n := s.shN h
  let m := s.shM h
  let c := s.shaft h
  let stamps := (st :: c.stamps).take 4
  let s := (s.noteHistory h st (s.toothBase st false) false (gapOpens ratio stamps)).noteStamp h st
  let s := s.setShaft h { s.shaft h with accepted := c.accepted + 1 }
  let s := s.setLastTooth h st
  let closing := c.accepted
  let found := gapCandidate ratio stamps
  if s.shState h = 2 then
    if found then
      if closing - c.candTooth = n - m then s.confirm h st
      else (s.setShaft h { s.shaft h with candTooth := closing }).satCount (CAND_FAIL_CNT h)
    else if n - m + 1 ≤ c.accepted + 1 - c.candTooth then
      (s.enterState h (if c.fromLost then 5 else 1)).satCount (CAND_FAIL_CNT h)
    else s
  else if found then
    (s.setShaft h { s.shaft h with candTooth := closing, fromLost := s.shState h == 5 }).enterState h 2
  else s

/-! ### Teeth in sync (R133 to R135) -/

/-- The last tooth passed in the old direction is the first in the new one, at its angle in that direction (R140). -/
def State.turnTooth (s : State) (h : Nat) (st : Stamp) : State :=
  let c := s.shaft h
  let ofs := bvInt 64 (s.toothAngle h c.tooth (s.shRev h) - s.toothAngle h c.tooth c.toothRev).toInt
  s.takeTooth h st (s.toothBase st false) c.tooth (c.toothPos + ofs) 0 false false

/-- The tooth takes the next expected position, and its interval the expected step. -/
def State.expectedTooth (s : State) (h : Nat) (st : Stamp) (synth : Bool) : State :=
  let c := s.shaft h
  let gap := s.gapExpected h
  let j := s.expected h
  let step := s.toothStep h c.tooth j (s.shRev h)
  s.takeTooth h st (s.toothBase st synth) j (c.toothPos + bvInt 64 step) (if gap then s.gapStep h else step) synth gap

/-- An observed gap step: the tooth closes the gap, and J tells how far the count was off (R135). -/
def State.gapTooth (s : State) (h : Nat) (st : Stamp) : State :=
  let c := s.shaft h
  let rev := s.shRev h
  let idx := s.gapClose h
  let moved := c.est.disp (ahead st c.est.stamp)
  let pos := nearestPos ((c.est.pos.toInt : ℚ) + moved) (s.toothAngle h idx rev) rev
  let off : ℚ := moved - ((ahead pos c.est.pos : Int) : ℚ)
  let j := roundAway (off * s.shN h / 2 ^ 32)
  if 2 ≤ j.natAbs then s.lostTooth h st false true
  else
    let clean := !c.synthSinceGap
    let s := s.setShaft h { c with gapMissed := false, synthSinceGap := false }
    let s :=
      if j ≠ 0 then
        ((s.satCount (SHIFT_CNT h)).jump h (bvInt 64 (roundEven (-off))) 2).enterState h 4
      else if s.shState h = 4 && clean then s.enterState h 3
      else s
    s.takeTooth h st (s.toothBase st false) idx pos (s.gapStep h) false true

/-- An ordinary step where a gap was expected (R135). -/
def State.missedGap (s : State) (h : Nat) (st : Stamp) : State :=
  let c := s.shaft h
  let s := s.satCount (GAP_MISS_CNT h)
  if c.gapMissed then s.lostTooth h st false false
  else
    let s := (s.setShaft h { c with gapMissed := true }).enterState h 4
    let j := s.nextPos h c.tooth
    let step := s.toothStep h c.tooth j (s.shRev h)
    s.takeTooth h st (s.toothBase st false) j (c.toothPos + bvInt 64 step) step false false

/-- A real tooth accepted in SYNCED or DEGRADED is classified (R135). -/
def State.syncTooth (s : State) (h : Nat) (st : Stamp) : State :=
  let c := s.shaft h
  let period := match c.lastTooth with | some l => (st - l).toNat | none => 0
  if c.dirTooth then s.turnTooth h st
  else if c.afterStall then s.expectedTooth h st false
  else
    let gap := match c.est.p1 with
      | some p1 => decide (s.fld (GAP_CFG h) 15 0 * p1 ≤ period * 4096)
      | none => s.gapExpected h
    if gap then s.gapTooth h st
    else if s.gapExpected h then s.missedGap h st
    else s.expectedTooth h st false

/-- A candidate lies within 800 ticks after the last tooth (R128, R145). -/
def State.underFloor (s : State) (h : Nat) (st : Stamp) : Bool :=
  match (s.shaft h).lastTooth with
  | some l => decide (ahead st l < 51200)
  | none => false

/-- A candidate is earlier than the early limit (R133). -/
def State.tooEarly (s : State) (h : Nat) (st : Stamp) : Bool :=
  let c := s.shaft h
  let frac := s.fld (GAP_CFG h) 31 16
  match c.lastTooth, c.est.p1 with
  | some l, some p1 => frac != 0 && s.shSync h && decide (ahead st l < ((frac * p1 / 2 ^ 14 : Nat) : Int))
  | _, _ => false

/-- A candidate that the filter has passed: rejected as noise, or accepted (R128, R133). -/
def State.judgeTooth (s : State) (h : Nat) (st : Stamp) : State :=
  if s.underFloor h st || s.tooEarly h st then s.satCount (NOISE_CNT h)
  else
    let s := if s.dirSrc h = 2 then s.setDir h (s.dirInput h (s.tickFor st)) else s
    if s.shSync h then s.syncTooth h st
    else if s.shState h = 0 then s
    else s.searchTooth h st

/-- TOOTH_JUDGE: the oldest candidate is judged once TOOTH_FILT ticks past its stamp have elapsed and no edge can make it a glitch
(R99, R127). -/
def State.toothJudge (s : State) (h : Nat) : State :=
  let c := s.shaft h
  match c.cands with
  | [] => s
  | d :: rest =>
    let filt := 64 * s.shFilt h
    if ahead (stampAt (s.mt + 1) 0) d.stamp < max 24 filt then s
    else
      let s := s.setShaft h { c with cands := rest }
      let fails := match d.reversed with | some r => decide (ahead r d.stamp < filt) | none => false
      if fails then s.satCount (FILT_CNT h)
      else if s.shEn h && s.shWheel h then s.judgeTooth h d.stamp else s

def execToothJudge (sh : Fin 16) (s : State) : Host.Outcome State Fault Refusal :=
  .next (s.onTclk (s.toothJudge sh))

/-! ### Stall and synthetic teeth (R133, R134, R141) -/

/-- STALL_FACTOR; 0 and 1 act as 2. -/
def State.stallFactor (s : State) (h : Nat) : Nat := max 2 (s.fld (EST_CFG h) 19 16)

/-- The present tick starts later than s + STALL_FACTOR × T_3, with an estimate and no stall yet. -/
def State.stallDue (s : State) (h : Nat) : Bool :=
  let c := s.shaft h
  match c.lastTooth, c.intervals with
  | some l, i :: _ =>
    s.shSync h && !s.shStalled h && c.est.n != 0 && c.next.isEmpty && decide (((s.stallFactor h * i.period : Nat) : Int) < ahead s.now l)
  | _, _ => false

/-- STALL: the position holds, the estimate is discarded, and the events on the shaft freeze or are cut. The rule does not apply to an
imported shaft (R147) nor to the generator, whose STALLED follows ω (R148). -/
def State.stall (s : State) (h : Nat) : State :=
  if s.stallDue h && decide (s.shSrc h < 4) then
    let s := (s.hold h).satCount (STALL_CNT h)
    let s := s.setBit (SH_STATUS h) 5 true
    let s := s.setShaft h { s.shaft h with afterStall := true, stamps := [] }
    ((s.shaftEvent h 3).weirShaftStall h).swapFreeze h
  else s

def execStall (sh : Fin 16) (s : State) : Host.Outcome State Fault Refusal :=
  .next (s.onTclk (s.stall sh))

/-- SYNTHETIC_TOOTH: no tooth has come by s + P_e + ⌊P_e / 2⌋ (R133, R134). A stall due in the same tick is taken instead (R141). -/
def State.syntheticTooth (s : State) (h : Nat) : State :=
  let c := s.shaft h
  match c.est.pe with
  | some pe =>
    let due := decide (((pe + pe / 2 : Nat) : Int) ≤ ahead s.now c.est.stamp)
    if due && s.shWheel h && s.shEn h && s.shSync h && c.next.isEmpty && !s.bit (SH_CTRL h) 23 && !s.shStalled h && !s.stallDue h then
      let st := c.est.stamp + BitVec.ofNat 64 pe
      let s := s.satCount (SYNTH_CNT h)
      if c.lastSynth then s.lostTooth h st true (s.gapExpected h)
      else
        let s := if s.shState h = 3 then s.enterState h 4 else s
        s.expectedTooth h st true
    else s
  | none => s

def execSyntheticTooth (sh : Fin 16) (s : State) : Host.Outcome State Fault Refusal :=
  .next (s.onTclk (s.syntheticTooth sh))

/-! ### History (R149, R150) -/

/-- log2 of the ring's entries: 1 to 7 act as 8, above 20 as 20. -/
def State.histLog (s : State) (h : Nat) : Nat := min 20 (max 8 (s.fld (HIST_CTRL h) 4 0))

/-- HIST_BASE as it reads: the bits below the ring's byte size are 0. -/
def State.histBase (s : State) (h : Nat) : Nat :=
  if s.fld (HIST_CTRL h) 4 0 = 0 then s.fld (HIST_BASE h) 23 0
  else let size := 4 * 2 ^ s.histLog h; s.fld (HIST_BASE h) 23 0 / size * size

/-- HISTORY_WRITE: the oldest entry whose tooth is published is written, or counted in HIST_LOST; with HIST_LOG2 = 0 it is not
written. -/
def State.historyWrite (s : State) (h : Nat) : State :=
  let c := s.shaft h
  match c.history with
  | [] => s
  | (t, e) :: rest =>
    if !s.reached t then s
    else
      let s := s.setShaft h { c with history := rest }
      if s.fld (HIST_CTRL h) 4 0 = 0 then s
      else
        let at_ := s.histBase h + 4 * ((s.reg (HIST_WR h)).toNat % 2 ^ s.histLog h)
        let s := s.count (HIST_WR h)
        if s.resPoisoned at_ 4 then (s.satCount (HIST_LOST h)).setResvUe else s.resWrite at_ e.toNat 4

def execHistoryWrite (sh : Fin 16) (s : State) : Host.Outcome State Fault Refusal :=
  .next (s.onTclk (s.historyWrite sh))

/-! ### Machine cycle (R142 to R144) -/

/-- Revolution `r` of the position becomes cycle revolution `v`. -/
def State.setCycle (s : State) (h : Nat) (r : Word) (v : Nat) : State :=
  let n := s.shCycleRevs h
  let now := hiWord (s.shPos h)
  let old := s.cycleOf h r
  let changed := old != v || !s.shCycleValid h
  let cur := (((v : Int) + (now - r).toInt).emod n).toNat
  let s := s.setShaft h { s.shaft h with cycleRev := cur, cycleSeen := now }
  let s := s.setBit (SH_STATUS h) 7 true
  if changed then s.weirCycle h else s

/-- The last edge of CH[MARKER_CH] has TDC stamp `st` and the direction that MARKER_EDGE selects (R143). -/
def State.markerEdge (s : State) (h : Nat) (st : Stamp) : Bool :=
  let k := s.fld (SH_INPUTS h) 26 18
  decide (k < 384) && (s.chan k).lastIn == some st && (s.chan k).inLevel == !s.bit (MARKER_CFG h) 8

/-- MARKER: an edge of CH[MARKER_CH] that MARKER_EDGE selects, with its TDC stamp (R143). -/
def State.marker (s : State) (h : Nat) (st : Stamp) : State :=
  let v := s.fld (MARKER_CFG h) 3 0
  let n := s.shCycleRevs h
  if s.fld (SH_CTRL h) 15 14 ≠ 1 || !s.shEn h || !s.shSync h || decide (n ≤ 1) || !s.markerEdge h st then s
  else if n ≤ v then s.raise (SH_STATUS h) 11
  else
    let r := hiWord (s.shPosStamp h st)
    let s := if s.shCycleValid h && s.cycleOf h r != v then s.satCount (PHASE_ERR_CNT h) else s
    s.setCycle h r v

def execMarker (sh : Fin 16) (stamp : Stamp) (s : State) : Host.Outcome State Fault Refusal :=
  .next (s.onTclk (s.marker sh stamp))

/-- CYCLE_SET (R144). -/
def State.cycleSet (s : State) (h : Nat) (v : Word) : State :=
  let r := bitsOf v 3 0
  if s.fld (SH_CTRL h) 15 14 ≠ 1 && s.shSync h && decide (r < s.shCycleRevs h) then s.setCycle h (hiWord (s.shPos h)) r
  else s.raise (SH_STATUS h) 11

def execCycleSet (sh : Fin 16) (v : Word) (s : State) : Host.Outcome State Fault Refusal :=
  .next (s.hostWrite (CYCLE_SET sh) v fun s => s.cycleSet sh v)

/-- CYCLE_REV_STEP: the position's fraction has passed 0, and CYCLE_REV steps with it (R142). -/
def State.cycleRevStep (s : State) (h : Nat) (rev : Bool) : State :=
  let c := s.shaft h
  let d := (hiWord (s.shPos h) - c.cycleSeen).toInt
  let n := s.shCycleRevs h
  if n = 0 then s
  else if !rev && 0 < d then
    s.setShaft h { c with cycleRev := (c.cycleRev + 1) % n, cycleSeen := c.cycleSeen + 1 }
  else if rev && d < 0 then
    s.setShaft h { c with cycleRev := (c.cycleRev + n - 1) % n, cycleSeen := c.cycleSeen - 1 }
  else s

def execCycleRevStep (sh : Fin 16) (reverse : Bool) (s : State) : Host.Outcome State Fault Refusal :=
  .next (s.onTclk (s.cycleRevStep sh reverse))

/-! ### Virtual teeth of encoders (R145, R146) -/

/-- The position that a referenced count gives, before whole revolutions (R145). -/
def State.countPos (s : State) (h : Nat) (c : Int) : Int :=
  let m := s.shN h * (s.reg (VT_COUNTS h)).toNat
  roundUp ((c : ℚ) * 2 ^ 32 / m) + (s.reg (TOOTH0_ANGLE h)).toNat

/-- The wheel position of a referenced count: the last multiple of VT_COUNTS not above it. -/
def State.countTooth (s : State) (h : Nat) (c : Int) : Nat :=
  ((c / ((s.reg (VT_COUNTS h)).toNat : Int)) % (s.shN h : Int)).toNat

/-- The reference of the shaft's interface has become valid at count `c`: SYNCED, at revolution 0 on the first sync, else at the value
nearest to the held position with a RESYNC jump (R146). -/
def State.encoderSync (s : State) (h : Nat) (c : Int) : State :=
  let sh := s.shaft h
  let p := s.countPos h c
  let f : Word := bvInt 32 p
  let pos := if sh.synced then nearestPos (sh.est.pos.toInt : ℚ) f (s.shRev h) else posOf 0 f
  let s := if sh.synced then s.jump h (pos - sh.est.pos) 1 else s
  let p0 := s.shPos h
  let s := (s.holdAt h pos).shaftJumped h p0
  let s := s.setShaft h { s.shaft h with jumpDue := false, synced := true, tooth := s.countTooth h c, toothPos := pos, toothCount := c,
                                         toothRev := s.shRev h, cycleSeen := hiWord pos, dirTooth := false, afterStall := false, crossings := [] }
  s.enterState h 3

/-- The shafts that take interface `src` (1 QENC, 2 AENC, 3 SSI) `i`. -/
def State.shaftsOf (s : State) (src i : Nat) : List Nat :=
  (List.range 16).filter (fun h => s.shEn h && s.shSrc h == src && s.shIface h == i)

/-- The interface's reference is valid at count `c`: shafts in SEARCH or LOST sync (R146). -/
def State.encoderValid (s : State) (src i : Nat) (c : Int) : State :=
  (s.shaftsOf src i).foldl (fun s h => if s.shSync h then s else s.encoderSync h c) s

/-- The interface has lost its reference, has a FEEDBACK_FAULT, or is detached: its shafts are LOST (R146). -/
def State.encoderLost (s : State) (src i : Nat) : State :=
  (s.shaftsOf src i).foldl (fun s h => if s.shSync h then s.enterState h 5 else s) s

/-- An INDEX_FAULT: SYNCED shafts are DEGRADED; the next index within INDEX_TOL restores them (R146). -/
def State.encoderIndex (s : State) (src i : Nat) (fault : Bool) : State :=
  (s.shaftsOf src i).foldl (fun s h =>
    if fault then (if s.shState h = 3 then s.enterState h 4 else s)
    else if s.shState h = 4 then s.enterState h 3 else s) s

/-- The interface's referenced count has moved from `c0` to `c1`, each with its stamp: each multiple of VT_COUNTS crossed is a
crossing, at the stamp of a quadrature count edge, or interpolated between two samples and published from the tick that processes the later
one (R145, R179). -/
def State.encoderMove (s : State) (src i : Nat) (c0 : Int) (st0 : Stamp) (c1 : Int) (st1 : Stamp) (interpolate : Bool) : State :=
  (s.shaftsOf src i).foldl (fun s h =>
    let vt : Int := (s.reg (VT_COUNTS h)).toNat
    if !s.shSync h || vt = 0 || c0 = c1 then s
    else
      let at_ (c : Int) : Stamp :=
        if interpolate then
          st0 + bvInt 64 (roundEven (((c - c0 : Int) : ℚ) / ((c1 - c0 : Int) : ℚ) * ((ahead st1 st0 : Int) : ℚ)))
        else st1
      let k0 := if c0 < c1 then c0 / vt else -(-c0 / vt)
      let k1 := if c0 < c1 then c1 / vt else -(-c1 / vt)
      let ks : List Int := (List.range (k1 - k0).natAbs).map
        (fun j => if c0 < c1 then k0 + 1 + (j : Int) else k0 - 1 - (j : Int))
      let new := ks.map (fun k =>
        { stamp := at_ (k * vt), idx := (k % (s.shN h : Int)).toNat, at_ := k * vt, rev := decide (c1 < c0),
          base := if interpolate then s.mt else s.tickFor st1 : Crossing })
      let sh := s.shaft h
      s.setShaft h { sh with crossings := sh.crossings ++ new }) s

/-! ### The generator (R148) -/

/-- GEN_TARGET, and its range check of R37. -/
def State.genTargetWord (s : State) (h : Nat) : BitVec 64 := s.pair (GEN_TARGET_LO h) (GEN_TARGET_HI h)
def State.genTargetOk (s : State) (h : Nat) : Bool :=
  let v := (s.genTargetWord h).toInt
  decide (-(2 ^ 47) ≤ v) && decide (v < 2 ^ 47)

/-- STALLED is 1 while ω is 0 (R148), with the events of its rising edge. -/
def State.genStalled (s : State) (h : Nat) : State :=
  let z := (s.shaft h).genOmega == 0
  if s.shStalled h = z then s
  else
    let s := s.setBit (SH_STATUS h) 5 z
    if z then ((s.shaftEvent h 3).weirShaftStall h).swapFreeze h else s

/-- GEN_TARGET and GEN_ACC go to the working values; `load` sets ω to the target as well. -/
def State.genTake (s : State) (h : Nat) (load : Bool) : State :=
  let c := s.shaft h
  let t := (s.genTargetWord h).toInt * 2 ^ 31
  let a := (s.pair (GEN_ACC_LO h) (GEN_ACC_HI h)).toInt.natAbs
  let s := s.setShaft h { c with genTarget := t, genAcc := a, genOmega := if load then t else c.genOmega }
  if s.shGenerator h then s.genStalled h else s

/-- A write to GEN_CTRL: LOAD, or APPLY; a target that breaks R37 is refused. -/
def State.genWrite (s : State) (h : Nat) (v : Word) : State :=
  if bitsOf v 1 0 = 0 then s
  else if !s.genTargetOk h then s.raise (SH_STATUS h) 11
  else s.genTake h (bitOf v 1)

/-- GEN_APPLY: the row of a GEN_CTRL write with APPLY. -/
def execGenApply (sh : Fin 16) (v : Word) (s : State) : Host.Outcome State Fault Refusal :=
  .next (s.hostWrite (GEN_CTRL sh) v fun s => s.genWrite sh v)

/-- GEN_LOAD: the row of a GEN_CTRL write with LOAD. -/
def execGenLoad (sh : Fin 16) (v : Word) (s : State) : Host.Outcome State Fault Refusal :=
  .next (s.hostWrite (GEN_CTRL sh) v fun s => s.genWrite sh v)

/-- The ramp's next step would pass the target. -/
def Shaft.genArrives (c : Shaft) : Bool :=
  c.genAcc != 0 && c.genOmega != c.genTarget && decide ((c.genTarget - c.genOmega).natAbs ≤ c.genAcc)

/-- GEN_TARGET_REACHED: ω takes GEN_TARGET and the reported acceleration becomes 0. -/
def State.genTargetReached (s : State) (h : Nat) : State :=
  let c := s.shaft h
  if s.shGenerator h && c.genArrives then (s.setShaft h { c with genOmega := c.genTarget }).genStalled h else s

def execGenTargetReached (sh : Fin 16) (s : State) : Host.Outcome State Fault Refusal :=
  .next (s.onTclk (s.genTargetReached sh))

/-- The crossing of a wheel position in this tick, by a move of `w` (2^−32 SU) from `p`. -/
def State.genCrossing (s : State) (h : Nat) (p : BitVec 96) (w : Int) : Option Crossing :=
  let n := s.shN h
  if n = 0 || w = 0 then none
  else
    let rev := decide (w < 0)
    let origin : Int := ((s.toothAngle h 0 rev).toNat : Int) * 2 ^ 32
    let x : Int := (p.toInt - origin) % 2 ^ 64
    let i0 : Int := (((x.toNat / 2 ^ 32) * n / 2 ^ 32 : Nat) : Int)
    let hit (j : Int) : Option Crossing :=
      let i := (j % (n : Int)).toNat
      let a : Int := (j / (n : Int)) * 2 ^ 64 + ((toothFraction i n : Nat) : Int) * 2 ^ 32
      let d := a - x
      if (if rev then decide (d < 0) && decide (w ≤ d) else decide (0 < d) && decide (d ≤ w)) then
        some { stamp := s.now + bvInt 64 (roundEven (((64 * d : Int) : ℚ) / (w : ℚ))), idx := i, at_ := (p.toInt + d) / 2 ^ 32,
               rev := rev, base := s.mt }
      else none
    ((hit i0).orElse (fun _ => hit (i0 + 1))).orElse (fun _ => hit (i0 - 1))

/-- The generator is SYNCED, with CYCLE_VALID, from the tick after its EN (R148). -/
def State.genBegin (s : State) (h : Nat) : State :=
  match (s.shaft h).genSync with
  | some t =>
    if s.reached t then ((s.setShaft h { s.shaft h with genSync := none }).enterState h 3).setBit (SH_STATUS h) 7 true else s
  | none => s

/-- What the generator of shaft `h` does in the present tick: it moves by ω, then ω moves toward the target, except for the step that
reaches it (GEN_TARGET_REACHED). -/
def State.genTick (s : State) (h : Nat) : State :=
  if !s.shGenerator h then s
  else
    let s := s.genBegin h
    let c := s.shaft h
    let w := roundEven ((c.genOmega : ℚ) / 2 ^ 31)
    let m := c.genMotion
    let c' := { c with
      genStart := (m.1, m.2.1, s.shStalled h)
      genPos := c.genPos + bvInt 96 w
      genStep := w
      crossings := c.crossings ++ (s.genCrossing h c.genPos w).toList
      genOmega := if c.genArrives || c.genOmega == c.genTarget then c.genOmega
        else if c.genOmega < c.genTarget then c.genOmega + c.genAcc else c.genOmega - c.genAcc }
    (s.setShaft h c').genStalled h

/-- VIRTUAL_TOOTH: the oldest crossing found is taken as a tooth, unless it falls less than 800 ticks after the last one (R145, R148).
A crossing in the other direction changes DIR, one that crosses the last multiple back too: it discards the estimate, and no interval
closes (R140). -/
def State.virtualTooth (s : State) (h : Nat) : State :=
  let c := s.shaft h
  match c.crossings with
  | [] => s
  | x :: rest =>
    let s := s.setShaft h { c with crossings := rest }
    if !s.shEn h || !s.shSync h || s.underFloor h x.stamp then s
    else
      let s := s.setDir h x.rev
      if s.shSrc h = 5 then
        let pos : BitVec 64 := bvInt 64 x.at_
        s.takeTooth h x.stamp x.base x.idx pos (ahead pos c.toothPos) false false
      else
        let d := s.countPos h x.at_ - s.countPos h c.toothCount
        let s := s.setShaft h { s.shaft h with toothCount := x.at_ }
        s.takeTooth h x.stamp x.base x.idx (c.toothPos + bvInt 64 d) d false false

def execVirtualTooth (sh : Fin 16) (s : State) : Host.Outcome State Fault Refusal :=
  .next (s.onTclk (s.virtualTooth sh))

/-! ### Configuration (R124, R125) -/

/-- EN = 1 in word `v` breaks one of the checks of R124. -/
def State.enRefused (s : State) (h : Nat) (v : Word) : Bool :=
  let src := bitsOf v 6 4
  let revs := bitsOf v 20 16
  let n := s.shN h
  let m := s.fld (WHEEL_CFG h) 13 12
  let ratio := s.fld (GAP_CFG h) 15 0
  decide (6 ≤ src) || (decide (1 ≤ src) && decide (src ≤ 3) && decide (7 < bitsOf v 11 8)) || revs == 0 || decide (16 < revs) ||
  (src == 0 && (decide (n < 8) || decide (1024 < n) || (m != 1 && m != 2) || decide (383 < s.fld (SH_INPUTS h) 8 0) ||
    decide (ratio < 0x1200) || decide (m * 4096 + 3584 < ratio) || decide (0x3800 < s.fld (GAP_CFG h) 31 16))) ||
  (decide (1 ≤ src) && decide (src ≤ 3) && (n == 0 || decide (1024 < n) || s.reg (VT_COUNTS h) == 0))

/-- EN has been set: the shaft leaves STOPPED (R129, R146); the generator applies its target with ω = 0 and leaves STOPPED in the next tick
(R148). `valid` is the count of a valid reference of its interface. -/
def State.shaftStart (s : State) (h : Nat) (valid : Option Int) : State :=
  let c := s.shaft h
  let pos := c.est.pos
  let s := s.setShaft h { c with
    cands := [], lastTooth := none, stamps := [], accepted := 0, fromLost := false, synthSinceGap := false, lastSynth := false,
    gapMissed := false, dirTooth := false, afterStall := false, synced := false, crossings := [],
    dirSince := if s.dirSrc h = 1 then some s.mt else none,
    genOmega := 0, genPos := bvInt 96 (pos.toInt * 2 ^ 32), genStep := 0, genStart := (0, 0, true), genSync := none, cycleSeen := hiWord pos }
  match s.shSrc h with
  | 5 =>
    let s := if s.genTargetOk h then s.genTake h false else s.raise (SH_STATUS h) 11
    (s.setShaft h { s.shaft h with genSync := some (s.mt + 1) }).genStalled h
  | 4 => s.enterState h 1
  | 0 => s.enterState h 1
  | _ =>
    let s := s.enterState h 1
    match valid with
    | some v => s.encoderSync h v
    | none => s

/-- EN has been cleared (R125). -/
def State.shaftStop (s : State) (h : Nat) (pos : BitVec 64) : State :=
  let s := s.setShaft h { s.shaft h with cands := [], crossings := [], dirSince := none, genSync := none }
  let s := (s.holdAt h pos).setBit (SH_STATUS h) 7 false
  let was := s.shSync h
  let s := s.enterState h 0
  if was then s else (s.weirShaftLost h true).swapShaftLost h

/-- The fields of SH_CTRL that change only while EN is 0: SRC, IFACE, DIR_SRC, PHASE_SRC, CYCLE_REVS (R124). -/
def shLockMask : Word := 0x001FFF70#32

/-- A write to SH_CTRL (R124, R125, R139); CYCLE_REV stays below CYCLE_REVS (R142). -/
def State.shCtrl (s : State) (h : Nat) (v : Word) (valid : Option Int) : State :=
  let old := s.reg (SH_CTRL h)
  let new := mergeWord old v 0x00FFFF71#32
  let rises := bitOf new 0 && !bitOf old 0
  let locked := (old ^^^ new) &&& shLockMask != 0 && (bitOf old 0 || bitOf new 0)
  if locked then s.raise (SH_STATUS h) 11
  else if rises && s.enRefused h new then s.raise (SH_STATUS h) 11
  else
    let pos := s.shPos h
    let falls := bitOf old 0 && !bitOf new 0
    let s := s.setReg (SH_CTRL h) new
    let s := s.setShaft h { s.shaft h with cycleRev := (s.shaft h).cycleRev % max 1 (s.shCycleRevs h) }
    let s := if rises then s.shaftStart h valid else if falls then s.shaftStop h pos else s
    if s.shWheel h && s.dirSrc h = 0 then s.setDir h (bitOf new 21) else s

/-- The geometry registers of R124 and their RW bits. -/
def shGeometry (off : Nat) : Option Word :=
  match off with
  | 0x008 => some 0xFF0337FF#32
  | 0x00C => some 0x07FFFFFF#32
  | 0x010 => some 0xFFFFFFFF#32
  | 0x014 => some 0xFFFFFFFF#32
  | 0x018 => some 0xFFFFFFFF#32
  | 0x040 => some 0xFFFFFFFF#32
  | _ => none

/-- A write to SH_CTRL or a geometry register at offset `off` of shaft `h` (R124). -/
def State.shCtrlWrite (s : State) (h off : Nat) (v : Word) (valid : Option Int) : State :=
  if off = 0 then s.shCtrl h v valid
  else match shGeometry off with
    | some mask =>
      if s.shEn h then s.raise (SH_STATUS h) 11
      else let a := 0x90000 + h * 0x1000 + off; s.setReg a (mergeWord (s.reg a) v mask)
    | none => s

/-! ### Snapshot (R151) -/

/-- SNAP_INFO of the present tick. -/
def State.snapInfo (s : State) (h : Nat) : Word :=
  let st := s.reg (SH_STATUS h)
  let w := setBits 0 31 28 (s.shaft h).cycleRev
  let w := putBit (putBit (putBit w 18 (bitOf st 7)) 17 (bitOf st 6)) 16 (bitOf st 5)
  setBits (setBits w 14 12 (bitsOf st 2 0)) 10 0 (if s.shSync h then (s.shaft h).tooth else 0x7FF)

/-- The shaft snapshot, taken as a tick ends. -/
def State.takeShaft (s : State) (h : Nat) : State :=
  let m := s.shMotion h
  let s := s.noteSat h m.2.2
  let s := s.setPair (SNAP_POS_LO h) (SNAP_POS_HI h) (s.shPos h)
  let s := s.setPair (SNAP_VEL_LO h) (SNAP_VEL_HI h) (bvInt 64 m.1)
  let s := s.setPair (SNAP_ACC_LO h) (SNAP_ACC_HI h) (bvInt 64 m.2.1)
  let s := s.setPair (SH_SNAP_MT_LO h) (SH_SNAP_MT_HI h) s.mt
  let s := s.setReg (SNAP_INFO h) (s.snapInfo h)
  s.setFld (SNAP_SEQ h) 15 0 (s.fld (SNAP_SEQ h) 15 0 + 1)

/-- SHAFT_SNAP_TAKE: the capture takes place at the end of the commit tick. -/
def State.shaftSnap (s : State) (h : Nat) (v : Word) : State := if bitOf v 0 then s.noteTake (.shaft h) else s

def execShaftSnapTake (sh : Fin 16) (v : Word) (s : State) : Host.Outcome State Fault Refusal :=
  .next (s.hostWrite (SNAP_CTRL sh) v fun s => s.shaftSnap sh v)

end Sys2Proof.Machine
end

