-- ==== Sys2Proof/Machine/Input.lean ====
section
/-!
DEFINITION. Channel inputs and the pin selection registers: INPUT_EDGE (spec/05, R97 to R101; spec/07, R127, R139) and PIN_SEL_WRITE
(spec/01, R21), and what takes effect at a tick boundary.
-/

namespace Sys2Proof.Machine

open Reg

/-! ### Input levels -/

/-- The level that the device itself gives a source of CH_IN_SEL; none for a pad that no driver of the device holds. -/
def State.sourceLevel (s : State) (sel : Word) : Option Bool :=
  let src := bitsOf sel 9 0
  if src < 0x100 then
    match (s.pin src).pad with
    | .high => some true
    | .low => some false
    | .z => none
  else if src < 0x280 then some (s.outLevel (src - 0x100))
  else some false

/-- The input level of a channel, after INVERT, with selection `sel`. -/
def State.inputLevel (s : State) (sel : Word) : Bool :=
  let src := bitsOf sel 9 0
  (if src < 0x100 then s.pinLevel src else (s.sourceLevel sel).getD false) != bitOf sel 10

/-- An edge to `lvl` stamped `st` can occur at the input of channel `k`: a source that the device drives must have that level, and an
edge of a channel output is stamped as it leaves its edge unit, within 30 ps, so within one fine step (R97). -/
def State.inputCan (s : State) (k : Nat) (st : Stamp) (lvl : Bool) : Bool :=
  let sel := (s.chan k).inSel
  let src := bitsOf sel 9 0
  lvl != (s.chan k).inLevel &&
    (match s.sourceLevel sel with
     | some b => (b != bitOf sel 10) == lvl
     | none => true) &&
    (decide (src < 0x100) || decide (0x280 ≤ src) ||
      (match (s.chan (src - 0x100)).lastEdge with
       | some e => decide (-1 ≤ ahead st e) && decide (ahead st e ≤ 1)
       | none => false))

/-- The outside drive of the pad that feeds channel `k` is what its edge shows. -/
def State.noteExt (s : State) (k : Nat) (lvl : Bool) : State :=
  let sel := (s.chan k).inSel
  let src := bitsOf sel 9 0
  if src < 0x100 && (s.pin src).pad == .z then
    let b := lvl != bitOf sel 10
    let s := if s.pinLevel src == b then s else s.noteWear 2 src
    let s := s.setPin src { s.pin src with ext := some b }
    s.setPin src { s.pin src with lowSince := if b then none else (match (s.pin src).lowSince with
                                                                   | some t => some t
                                                                   | none => some s.now) }
  else s

/-! ### What a stamped edge does -/

/-- The edge direction that EDGE of WHEEL_CFG selects: true for a rise. -/
def State.toothLevel (s : State) (h : Nat) : Bool := s.fld (WHEEL_CFG h) 17 16 != 2

/-- A stamped edge of channel `k` is a candidate of each wheel shaft that takes its teeth there, or reverses its newest one (R127). -/
def State.toothEdge (s : State) (k : Nat) (st : Stamp) (lvl : Bool) : State :=
  foldBelow 16 (fun s h =>
    if s.shEn h && s.shWheel h && s.fld (SH_INPUTS h) 8 0 == k then
      let c := s.shaft h
      if lvl = s.toothLevel h then s.setShaft h { c with cands := c.cands ++ [{ stamp := st, reversed := none }] }
      else match c.cands.reverse with
        | d :: older =>
          if d.reversed.isNone then s.setShaft h { c with cands := older.reverse ++ [{ d with reversed := some st }] } else s
        | [] => s
    else s) s

/-- The candidate at a discarded edge goes with it (R99). -/
def State.dropCandidate (s : State) (k : Nat) (st : Stamp) : State :=
  foldBelow 16 (fun s h =>
    if s.shEn h && s.shWheel h && s.fld (SH_INPUTS h) 8 0 == k then
      let c := s.shaft h
      let undo (d : Candidate) : Candidate := if d.reversed = some st then { d with reversed := none } else d
      s.setShaft h { c with cands := (c.cands.filter (fun d => d.stamp ≠ st)).map undo }
    else s) s

/-- The direction input of a wheel shows a new level from this tick on (R139). -/
def State.directionEdge (s : State) (k : Nat) : State :=
  foldBelow 16 (fun s h =>
    if s.shEn h && s.shWheel h && s.dirSrc h == 1 && s.fld (SH_INPUTS h) 17 9 == k then
      s.setShaft h { s.shaft h with dirSince := if s.dirInput h s.mt = s.shRev h then none else some s.mt }
    else s) s

/-- The level that capture and the decoders see at the input of channel `k`; no channel above 383 has one. -/
def State.chanLevel (s : State) (k : Nat) : Bool := decide (k < 384) && (s.chan k).inLevel

/-- The channels that carry A, B and Z of interface `f` (R180, R187). -/
def State.aCh (s : State) (f : Nat) : Nat := s.fld (QE_INPUTS f) 8 0
def State.bCh (s : State) (f : Nat) : Nat := s.fld (QE_INPUTS f) 17 9
def State.zCh (s : State) (f : Nat) : Nat := if f < 8 then s.fld (QE_INPUTS f) 26 18 else s.fld (AE_INPUTS (f - 8)) 8 0

/-- EN of interface `f`. -/
def State.fbEn (s : State) (f : Nat) : Bool := s.bit (QE_CTRL 0 + f / 8 * 0x1000 + f % 8 * 0x100) 0

/-- The channel that feeds probe `p`; none while the ball does (R193). -/
def State.prbChan (s : State) (p : Nat) : Option Nat := if s.bit (PRB_CTRL p) 3 then some (s.fld (PRB_CH p) 8 0) else none

/-- A stamped edge of channel `k` reaches the interfaces and probes that take that channel, with the levels seen at it (R180, R187,
R193). -/
def State.feedEdge (s : State) (k : Nat) (st : Stamp) (lvl : Bool) : State :=
  let s := foldBelow 16 (fun s f =>
    if s.fbEn f && (s.zCh f == k || (decide (f < 8) && (s.aCh f == k || s.bCh f == k))) then
      let c := s.iface f
      let e (isB : Bool) : QuadEdge := { stamp := st, isB := isB, a := s.chanLevel (s.aCh f), b := s.chanLevel (s.bCh f) }
      s.setIface f { c with
        edges := c.edges ++ (if f < 8 ∧ s.aCh f = k then [e false] else []) ++ (if f < 8 ∧ s.bCh f = k then [e true] else [])
        zEdges := c.zEdges ++ (if s.zCh f = k then [(st, lvl)] else []) }
    else s) s
  foldBelow 8 (fun s p =>
    if s.prbChan p == some k then s.setProbe p { s.probe p with chanEdges := (s.probe p).chanEdges ++ [(st, lvl)] } else s) s

/-- A discarded edge of channel `k` goes from the interfaces and probes that took it (R99). -/
def State.unfeedEdge (s : State) (k : Nat) (st : Stamp) : State :=
  let s := foldBelow 16 (fun s f =>
    if s.fbEn f && (s.zCh f == k || (decide (f < 8) && (s.aCh f == k || s.bCh f == k))) then
      let c := s.iface f
      s.setIface f { c with
        edges := c.edges.filter (fun e => !(e.stamp == st && (if e.isB then s.bCh f else s.aCh f) == k))
        zEdges := if s.zCh f = k then c.zEdges.filter (fun e => e.1 != st) else c.zEdges }
    else s) s
  foldBelow 8 (fun s p =>
    if s.prbChan p == some k then
      let c := s.probe p
      s.setProbe p { c with chanEdges := c.chanEdges.filter (fun e => e.1 != st), edges := c.edges.filter (fun e => e.stamp != st) }
    else s) s

/-- No edge to come can be stamped near enough to discard the one stamped `st` (R99). -/
def State.edgeSure (s : State) (st : Stamp) : Bool := decide (24 ≤ ahead s.now st)

/-- An edge of the input of channel `k`, stamped `st`. -/
def State.stampEdge (s : State) (k : Nat) (st : Stamp) (lvl : Bool) : State :=
  let s := (s.setChan k ((s.chan k).noteInput s.mt lvl)).tdcEdge k
  let s := if lvl then s.noteWear 3 k else s
  let r := s.captureEdge k st lvl
  let s := match r.1 with
    | some first => (r.2.dropCandidate k first).unfeedEdge k first
    | none => (r.2.toothEdge k st lvl).feedEdge k st lvl
  s.directionEdge k

/-- INPUT_EDGE: the TDC of channel `k` stamps an edge of its input at fine step `fine` of the present tick. -/
def State.inputEdge (s : State) (k : Nat) (fine : BitVec 6) (lvl : Bool) : State :=
  if s.inputCan k (stampAt s.mt fine) lvl then (s.noteExt k lvl).stampEdge k (stampAt s.mt fine) lvl else s

def execInputEdge (k : Fin 384) (fine : BitVec 6) (level : Bool) (s : State) : Host.Outcome State Fault Refusal :=
  .next (s.onTclk (s.inputEdge k fine level))

/-! ### Selection (R21) -/

/-- A write to PIN_OUT_SEL or CH_IN_SEL at address `a`. -/
def State.pinSelWrite (s : State) (a : Nat) (v : Word) : State :=
  if 0x60000 ≤ a ∧ a < 0x60400 ∧ a % 4 = 0 then
    let p := (a - 0x60000) / 4
    let w := mergeWord (s.reg a) v 0x000F81FF#32
    (s.setReg a w).setPin p { s.pin p with selDue := some (s.mt + 1, w) }
  else if 0x60400 ≤ a ∧ a < 0x60A00 ∧ a % 4 = 0 then
    let k := (a - 0x60400) / 4
    let w := mergeWord (s.reg a) v 0x00000FFF#32
    (s.setReg a w).setChan k { s.chan k with inSelDue := some (s.mt + 1, w) }
  else s

def execPinSelWrite (addr : Nat) (v : Word) (s : State) : Host.Outcome State Fault Refusal :=
  .next (s.hostWrite addr v fun s => s.pinSelWrite addr v)

/-- At a tick boundary a written PIN_OUT_SEL takes effect; `padsBoundary` brings the pads up to date. -/
def State.pinBoundary (s : State) (p : Nat) : State :=
  match (s.pin p).selDue with
  | some (t, w) => if s.reached t then s.setPin p { s.pin p with sel := w, selDue := none } else s
  | none => s

/-- At a tick boundary a written CH_IN_SEL takes effect: with ARM_ON_SWITCH a level difference is an edge, else the new source gives the
first level, which a gated count and a direction input sample from this tick on (R46, R139), and no edge of the old source is one of a
glitch with an edge of the new one. A write that leaves SRC and INVERT as they are takes no new source (notes/assumptions/78.md). -/
def State.inputBoundary (s : State) (k : Nat) : State :=
  match (s.chan k).inSelDue with
  | some (t, w) =>
    if s.reached t then
      let same := bitsOf w 10 0 == bitsOf (s.chan k).inSel 10 0
      let s := s.setChan k { s.chan k with inSel := w, inSelDue := none }
      let lvl := s.inputLevel w
      if same then s
      else if bitOf w 11 then (if lvl = (s.chan k).inLevel then s else s.stampEdge k s.now lvl)
      else
        let moved := lvl != (s.chan k).inLevel
        let c := (s.chan k).noteInput s.mt lvl
        let s := s.setChan k { c with inLevel := lvl, inFirst := some s.mt, lastIn := none }
        if moved then s.directionEdge k else s
    else s
  | none => s

end Sys2Proof.Machine
end

