-- ==== Sys2Proof/Machine/Rings.lean ====
section
/-!
DEFINITION. Rings, sluices and their ledgers: spec/12_rings_and_accounting.md.
-/

namespace Sys2Proof.Machine

open Reg

/-! ### Configuration fields -/

def State.ringEn (s : State) (r : Nat) : Bool := s.bit (RING_CFG r) 0
def State.ringHwIn (s : State) (r : Nat) : Bool := s.bit (RING_CFG r) 16
def State.ringLog (s : State) (r : Nat) : Nat := s.fld (RING_CFG r) 12 8

/-- Agent codes outside the table act as 0x3F (R258). -/
def agentCode (c : Nat) : Nat := if c < 0x18 ∨ c = 0x20 ∨ c = 0x21 ∨ c = 0x22 then c else 0x3F

def State.ringProd (s : State) (r : Nat) : Nat := agentCode (s.fld (RING_CFG r) 25 20)
def State.ringCons (s : State) (r : Nat) : Nat := agentCode (s.fld (RING_CFG r) 31 26)

/-- The ring's byte size (R256). -/
def State.ringBytes (s : State) (r : Nat) : Nat := 16 * 2 ^ s.ringLog r

/-- RING_BASE as it reads: the bits below the ring's byte size are 0 (R256). -/
def State.ringBase (s : State) (r : Nat) : Nat := s.fld (RING_BASE r) 23 0 / s.ringBytes r * s.ringBytes r

/-- The reservoir offset of entry index `i` (R256). -/
def State.entryAt (s : State) (r : Nat) (i : Word) : Nat := s.ringBase r + 16 * (i.toNat % 2 ^ s.ringLog r)

/-! ### BCLK cycles (R262) -/

/-- The BCLK cycle of the present tick (R14). -/
def State.bclk (s : State) : BitVec 64 := s.mt >>> 1

/-- The ring has changed in the present BCLK cycle. -/
def State.ringChanged (s : State) (r : Nat) : Bool := (s.ring r).cycle == some s.bclk

/-- RING_WR, RING_RD, RING_FILL and RING_CREDIT as a take or a read of the present cycle sees them. -/
def State.ringWr0 (s : State) (r : Nat) : Word := if s.ringChanged r then (s.ring r).wr0 else s.reg (RING_WR r)
def State.ringRd0 (s : State) (r : Nat) : Word := if s.ringChanged r then (s.ring r).rd0 else s.reg (RING_RD r)
def State.ringFill0 (s : State) (r : Nat) : Word := if s.ringChanged r then (s.ring r).fill0 else s.reg (RING_FILL r)
def State.ringCredit0 (s : State) (r : Nat) : Word := if s.ringChanged r then (s.ring r).credit0 else s.reg (RING_CREDIT r)

/-- Keep the values of the start of the present cycle before the ring changes. -/
def State.ringOpen (s : State) (r : Nat) : State :=
  if s.ringChanged r then s
  else s.setRing r { s.ring r with cycle := some s.bclk, wr0 := s.reg (RING_WR r), rd0 := s.reg (RING_RD r),
                                   fill0 := s.reg (RING_FILL r), credit0 := s.reg (RING_CREDIT r), returned := 0 }

/-- The credit that an offer of the present cycle sees (R262). -/
def State.ringCreditNow (s : State) (r : Nat) : Nat :=
  (s.reg (RING_CREDIT r)).toNat - (if s.ringChanged r then (s.ring r).returned else 0)

/-! ### Fill, water and spillways -/

/-- ABOVE_WATER at a level of FILL (R272). -/
def State.aboveWater (s : State) (r : Nat) (fill : Word) : Bool :=
  s.fld (RING_WATER r) 16 0 != 0 && decide (s.fld (RING_WATER r) 16 0 ≤ fill.toNat)

/-- ABOVE_WATER as it stands in the present cycle (R262). -/
def State.ringAbove (s : State) (r : Nat) : Bool := s.aboveWater r (s.ringFill0 r)

/-- FILL and CREDIT take new values, which appear at the end of the BCLK cycle (R262). -/
def State.ringLevel (s : State) (r fill credit : Nat) : State :=
  (s.setReg (RING_FILL r) (BitVec.ofNat 32 fill)).setReg (RING_CREDIT r) (BitVec.ofNat 32 credit)

/-- A BCLK cycle ends, its offers served: the changes of the cycle appear, with the interrupt events of R290 for FILL as a whole. -/
def State.ringCycleEnd (s : State) (r : Nat) : State :=
  if s.ringChanged r then
    let was := (s.ring r).fill0
    let now := s.reg (RING_FILL r)
    let rise := !s.aboveWater r was && s.aboveWater r now
    let first := was == 0 && now != 0 && s.ringCons r == 0x20
    let s := s.setRing r { s.ring r with cycle := none }
    let s := if rise then s.ringEvent r 0 else s
    if first then s.ringEvent r 1 else s
  else s

/-- A write to RING_WATER. -/
def State.ringWaterWrite (s : State) (r : Nat) (v : Word) : State :=
  let above := s.ringAbove r
  let s := s.setReg (RING_WATER r) (v &&& 0x1FFFF#32)
  if !above && s.ringAbove r then s.ringEvent r 0 else s

/-- A spillway counter of the ring has incremented (R262). -/
def State.ringSpilled (s : State) (r : Nat) : State := (s.raise (SPILL_MAP (r / 32)) (r % 32)).ringEvent r 2

/-- WR passes entries that stand in the reservoir already, up to the first that does not (R260). -/
def State.ringPass (s : State) (r : Nat) : State :=
  let q := s.ring r
  let n := (q.inflight.takeWhile (fun x => x == .placed)).length
  let s := s.ringOpen r
  (s.setRing r { s.ring r with inflight := q.inflight.drop n }).setReg (RING_WR r) (s.reg (RING_WR r) + BitVec.ofNat 32 n)

/-- Entries are admitted: each takes a credit and is in flight (R260, R262). -/
def State.ringAdmit (s : State) (r : Nat) (es : List InFlight) : State :=
  let s := s.ringOpen r
  let q := s.ring r
  let n := es.length
  let m := BitVec.ofNat 64 n
  let s := s.setRing r { q with offered := q.offered + m, admitted := q.admitted + m, inflight := q.inflight ++ es }
  (s.ringLevel r ((s.reg (RING_FILL r)).toNat + n) ((s.reg (RING_CREDIT r)).toNat - n)).ringPass r

/-- An offer that has left its producer: admitted, or counted in a spillway (R262, R267). -/
def State.ringOffer (s : State) (r : Nat) (allowed : Bool) (e : BitVec 128) : State :=
  if !s.ringEn r || !allowed then
    (s.setRing r { s.ring r with offered := (s.ring r).offered + 1, spillClosed := (s.ring r).spillClosed + 1 }).ringSpilled r
  else if s.ringCreditNow r = 0 then
    (s.setRing r { s.ring r with offered := (s.ring r).offered + 1, spillCredit := (s.ring r).spillCredit + 1 }).ringSpilled r
  else s.ringAdmit r [.entry e]

/-- Places of the offers of one BCLK cycle: weirs by cluster, compares by index, pushes, the host, ports (R262). -/
abbrev rankWeir (n : Nat) : Nat := n
abbrev rankCompare (j : Nat) : Nat := 24 + j
abbrev rankPush (n : Nat) : Nat := 56 + n
abbrev rankHost : Nat := 80
abbrev rankPort (p : Nat) : Nat := 81 + p

/-- An offer joins those of the BCLK cycle, behind the ones of its own place. -/
def State.ringGather (s : State) (r rank : Nat) (o : Offer) : State :=
  let q := s.ring r
  s.setRing r { q with offers := q.offers.takeWhile (fun x => decide (x.1 ≤ rank)) ++ [(rank, o)] ++
                                 q.offers.dropWhile (fun x => decide (x.1 ≤ rank)) }

/-- The status of a push by agent `a` as far as the ring now shows it: refusals and a lack of credit are certain, since no credit returns
within the cycle (R224, R248, R262, R263). -/
def State.pushStatus (s : State) (r a : Nat) : Nat :=
  if !s.ringEn r || s.ringProd r != a then 0xC
  else if s.ringCreditNow r = 0 then 0x9
  else 0x0

/-- Entries visible to a take of the present cycle: those between RD and WR at the start of the cycle, less those that the cycle has
taken already (R263, notes/assumptions/70.md). -/
def State.ringVisible (s : State) (r : Nat) : Nat := (s.ringWr0 r - s.ringRd0 r).toNat - (s.reg (RING_RD r) - s.ringRd0 r).toNat

/-- RD advances by `n`, and `n` credits return at the end of the cycle. -/
def State.ringRetire (s : State) (r n : Nat) : State :=
  let s := s.ringOpen r
  let s := s.setRing r { s.ring r with returned := (s.ring r).returned + n }
  let s := s.setReg (RING_RD r) (s.reg (RING_RD r) + BitVec.ofNat 32 n)
  s.ringLevel r ((s.reg (RING_FILL r)).toNat - n) ((s.reg (RING_CREDIT r)).toNat + n)

/-- A take of one visible entry: the entry, or none when it holds an uncorrectable error, which SPILL_UE counts (R265). -/
def State.ringTake (s : State) (r : Nat) : Option (BitVec 128) × State :=
  let a := s.entryAt r (s.reg (RING_RD r))
  let bad := s.resPoisoned a 16
  let e := BitVec.ofNat 128 (s.resRead a 16)
  let s := s.ringRetire r 1
  if bad then
    (none, ((s.setRing r { s.ring r with spillUe := (s.ring r).spillUe + 1 }).ringSpilled r).setResvUe)
  else (some e, s.setRing r { s.ring r with consumed := (s.ring r).consumed + 1 })

/-- A take by agent code `a`: its status, the entry and the state. An entry with an uncorrectable error is taken and not delivered. -/
def State.ringPop (s : State) (r a : Nat) : Nat × Option (BitVec 128) × State :=
  if !s.ringEn r || s.ringCons r != a then (0xC, none, s)
  else if s.ringVisible r = 0 then (0xA, none, s)
  else (0x0, s.ringTake r)

/-! ### Meanings -/

/-- The oldest entry in flight is in the reservoir, and WR passes it, with those behind it that the host has placed (R260). -/
def State.entryWritten (s : State) (r : Nat) : State :=
  match (s.ring r).inflight with
  | [] => s
  | .placed :: _ => s.ringPass r
  | .entry e :: rest =>
    let s := s.resWriteWords (s.entryAt r (s.reg (RING_WR r))) e.toNat 2
    (s.setRing r { s.ring r with inflight := .placed :: rest }).ringPass r

/-- RING_ENTRY_WRITTEN. -/
def execRingEntryWritten (r : Fin 64) (s : State) : Host.Outcome State Fault Refusal :=
  .next (s.onTclk (s.entryWritten r))

/-- Every entry in flight is written. -/
def State.flushWrites (s : State) (r : Nat) : State := (s.ring r).inflight.foldl (fun s _ => s.entryWritten r) s

/-- A write of EN = 0 discards the entries: FILL goes to FLUSHED, and FILL and CREDIT become 0 (R261, R266). -/
def State.ringDisable (s : State) (r : Nat) : State :=
  let s := (s.flushWrites r).ringOpen r
  let s := s.setRing r { s.ring r with flushed := (s.ring r).flushed + (s.reg (RING_FILL r)).zeroExtend 64 }
  s.ringLevel r 0 0

/-- An accepted write of EN = 1: RD takes WR, and the ring has full credit (R257). -/
def State.ringEnable (s : State) (r : Nat) : State :=
  let s := s.ringOpen r
  let s := s.setRing r { s.ring r with returned := 0 }
  let s := s.setReg (RING_RD r) (s.reg (RING_WR r))
  s.ringLevel r 0 (2 ^ s.ringLog r)

/-- A write to RING_CFG (R257, R266). -/
def State.ringCfg (s : State) (r : Nat) (v : Word) : State :=
  let old := s.reg (RING_CFG r)
  let new := mergeWord old v 0xFFF11F01#32
  let others := (old ^^^ new) &&& 0xFFF11F00#32 != 0
  let rises := bitOf new 0 && !bitOf old 0
  let log := bitsOf new 12 8
  let bad := (others && (bitOf old 0 || bitOf new 0)) ||
    (rises && (decide (log < 4) || decide (16 < log) || agentCode (bitsOf new 31 26) == 0x3F))
  if bad then s.raise (RING_STATUS r) 1
  else
    let s := s.setReg (RING_CFG r) new
    if rises then s.ringEnable r
    else if bitOf old 0 && !bitOf new 0 then s.ringDisable r
    else s

/-- RING_CFG_WRITE: a write to RING_CFG, or to RING_BASE, which an enabled ring refuses when it names another BASE; the ignored bits make
no difference to it (R256, R257). -/
def State.ringCfgWrite (s : State) (r : Nat) (base : Bool) (v : Word) : State :=
  if base then
    if !s.ringEn r then s.setReg (RING_BASE r) (v &&& 0xFFFFFF#32)
    else if bitsOf v 23 0 / s.ringBytes r * s.ringBytes r = s.ringBase r then s
    else s.raise (RING_STATUS r) 1
  else s.ringCfg r v

def execRingCfgWrite (r : Fin 64) (base : Bool) (v : Word) (s : State) : Host.Outcome State Fault Refusal :=
  .next (s.hostWrite (if base then RING_BASE r else RING_CFG r) v fun s => s.ringCfgWrite r base v)

/-- A commit of `n` entries is one that the ring refuses (R263). -/
def State.commitRefused (s : State) (r n : Nat) : Bool := decide (s.ringCreditNow r < n) || s.ringProd r != 0x20 || !s.ringEn r

/-- HOST_COMMIT: `n` entries that the host has written are offered (R262, R263). -/
def State.hostCommit (s : State) (r : Nat) (v : Word) : State :=
  let n := bitsOf v 16 0
  if n = 0 then s
  else if s.commitRefused r n then s.raise (RING_STATUS r) 2
  else s.ringGather r rankHost (.commit n)

def execHostCommit (r : Fin 64) (v : Word) (s : State) : Host.Outcome State Fault Refusal :=
  .next (s.hostWrite (HOST_COMMIT r) v fun s => s.hostCommit r v)

/-- HOST_RELEASE: `n` entries are taken (R263). -/
def State.hostRelease (s : State) (r : Nat) (v : Word) : State :=
  let n := bitsOf v 16 0
  if n = 0 then s
  else if s.ringVisible r < n || s.ringCons r != 0x20 || !s.ringEn r then s.raise (RING_STATUS r) 3
  else
    let s := s.ringRetire r n
    s.setRing r { s.ring r with consumed := (s.ring r).consumed + BitVec.ofNat 64 n }

def execHostRelease (r : Fin 64) (v : Word) (s : State) : Host.Outcome State Fault Refusal :=
  .next (s.hostWrite (HOST_RELEASE r) v fun s => s.hostRelease r v)

/-- HOST_ENTRY as one entry, and an entry in HOST_ENTRY: an update by hardware of a register that the host writes (R7). -/
def State.hostEntry (s : State) : BitVec 128 :=
  s.reg (HOST_ENTRY 3) ++ s.reg (HOST_ENTRY 2) ++ s.reg (HOST_ENTRY 1) ++ s.reg (HOST_ENTRY 0)
def State.setHostEntry (s : State) (e : BitVec 128) : State :=
  [0, 1, 2, 3].foldl (fun s i => s.hwUpdate (HOST_ENTRY i) ((e >>> (32 * i)).truncate 32)) s

/-- A write to XFER_CTRL: a push, a pop, or with both the refusal of both (R263). -/
def State.xferWrite (s : State) (v : Word) : State :=
  let s := s.setReg XFER_CTRL (v &&& 0x3F#32)
  let r := bitsOf v 5 0
  let status (s : State) (c : Nat) : State := s.setReg XFER_STATUS (BitVec.ofNat 32 c)
  if bitOf v 8 && bitOf v 9 then status s 0xC
  else if bitOf v 8 then
    if s.fld ID_QUEUE 15 8 ≤ r then status s 0xB
    else
      let st := s.pushStatus r 0x20
      status (if st = 0 then s.ringGather r rankHost (.xfer s.hostEntry) else s) st
  else if bitOf v 9 then
    if s.fld ID_QUEUE 15 8 ≤ r then status s 0xB
    else match s.ringPop r 0x20 with
      | (0, some e, s) => status (s.setHostEntry e) 0
      | (0, none, s) => status s 0xC
      | (c, _, s) => status s c
  else s

/-- XFER_PUSH: the row of an XFER_CTRL write with XFER_PUSH. -/
def execXferPush (v : Word) (s : State) : Host.Outcome State Fault Refusal :=
  .next (s.hostWrite XFER_CTRL v fun s => s.xferWrite v)

/-- XFER_POP: the row of an XFER_CTRL write with XFER_POP. -/
def execXferPop (v : Word) (s : State) : Host.Outcome State Fault Refusal :=
  .next (s.hostWrite XFER_CTRL v fun s => s.xferWrite v)

/-- RING_SNAP_TAKE: a capture of the ring that RING names, when the BCLK cycle ends (R268). -/
def State.ringSnap (s : State) (v : Word) : State :=
  let s := s.setReg RING_SNAP_CTRL (v &&& 0x3F#32)
  if bitOf v 8 then s.noteTake (.ring (bitsOf v 5 0)) else s

/-- The ledger of ring `r`, FILL and MT are captured (R268). -/
def State.takeRing (s : State) (r : Nat) : State :=
  let q := s.ring r
  let s := s.setPair SNAP_OFFERED_LO SNAP_OFFERED_HI q.offered
  let s := s.setPair SNAP_ADMITTED_LO SNAP_ADMITTED_HI q.admitted
  let s := s.setPair SNAP_CONSUMED_LO SNAP_CONSUMED_HI q.consumed
  let s := s.setPair SNAP_SPILL_CREDIT_LO SNAP_SPILL_CREDIT_HI q.spillCredit
  let s := s.setPair RSNAP_SNAP_SPILL_CLOSED_LO RSNAP_SNAP_SPILL_CLOSED_HI q.spillClosed
  let s := s.setPair SNAP_FLUSHED_LO SNAP_FLUSHED_HI q.flushed
  let s := s.setPair SNAP_SPILL_UE_LO SNAP_SPILL_UE_HI q.spillUe
  let s := s.setReg SNAP_FILL (s.reg (RING_FILL r))
  let s := s.setPair RSNAP_SNAP_MT_LO RSNAP_SNAP_MT_HI s.mt
  s.setFld RING_SNAP_SEQ 15 0 (s.fld RING_SNAP_SEQ 15 0 + 1)

def execRingSnapTake (v : Word) (s : State) : Host.Outcome State Fault Refusal :=
  .next (s.hostWrite RING_SNAP_CTRL v fun s => s.ringSnap v)

/-! ### Weir actions that act in the tick of their stamp (R154) -/

/-- The message of a weir RING action (R259). -/
def weirMessage (n : Nat) (tag : BitVec 12) (ch : Nat) (payload : BitVec 16) (st : Stamp) : BitVec 128 :=
  let w0 := setBits (setBits (setBits (setBits 0 31 28 1) 27 16 tag.toNat) 15 11 n) 7 4 ch
  st ++ (payload ++ (0 : BitVec 16)) ++ w0

/-- One deferred action of cluster `n`. -/
def State.dueAct (s : State) (n : Nat) (a : DueAct) : State :=
  match a with
  | .ring r tag ch payload st => s.ringGather r (rankWeir n) (.hardware (weirMessage n tag ch payload st))
  | .stop k => s.trainStop k
  | .arm k st => s.armCapture k st
  | .disarm k => s.setBit (CAP_STATUS k) 0 false

/-- The deferred actions of cluster `n` that have come due, in the order of their dispatch. -/
def State.weirActs (s : State) (n : Nat) : State :=
  let w := s.weir n
  let ready := w.due.filter (fun d => s.reached d.1)
  if ready.isEmpty then s
  else ready.foldl (fun s d => s.dueAct n d.2) (s.setWeir n { w with due := w.due.filter (fun d => !s.reached d.1) })

end Sys2Proof.Machine
end

