-- ==== Sys2Proof/Machine/Compare.lean ====
section
/-!
DEFINITION. Position compares and culverts: spec/09_position_feedback.md, R196 to R199.
-/

namespace Sys2Proof.Machine

open Reg

/-! ### Targets (R194, R196) -/

/-- The interface that TGT (1 QENC, 2 AENC, 3 SSI) and TGT_IDX name; an index above 7 names none. -/
def targetIface (tgt idx : Nat) : Option Nat := if 1 ≤ tgt ∧ tgt ≤ 3 ∧ idx < 8 then some ((tgt - 1) * 8 + idx) else none

/-- The position that TGT and TGT_IDX select. -/
def State.targetPos (s : State) (tgt idx : Nat) : BitVec 64 :=
  if tgt = 0 then s.shPos idx
  else match targetIface tgt idx with
    | some f => (s.iface f).abs
    | none => 0

def State.pcTgt (s : State) (j : Nat) : Nat := s.fld (PC_CTRL j) 11 10
def State.pcIdx (s : State) (j : Nat) : Nat := s.fld (PC_CTRL j) 9 6
def State.pcArmed (s : State) (j : Nat) : Bool := s.bit (PC_STATUS j) 0
def State.pcPos (s : State) (j : Nat) : BitVec 64 := s.targetPos (s.pcTgt j) (s.pcIdx j)

/-! ### Firing (R197) -/

/-- The message of a position compare (R259). -/
def pcMessage (j : Nat) (pos : BitVec 64) (st : Stamp) : BitVec 128 :=
  let w0 := setBits (setBits (setBits 0 31 28 2) 23 8 (bitsOf (hiWord pos) 15 0)) 4 0 j
  st ++ loWord pos ++ w0

/-- Compare `j` fires at position `pos` with stamp `st`. -/
def State.pcFire (s : State) (j : Nat) (pos : BitVec 64) (st : Stamp) : State :=
  let s := s.setPcmp j { s.pcmp j with near := false, fireDue := none }
  let s := (s.setBit (PC_STATUS j) 0 false).raise (PC_STATUS j) 1
  let s := (s.setPair (PC_POS_LO j) (PC_POS_HI j) pos).setPair (PC_STAMP_LO j) (PC_STAMP_HI j) st
  let s := s.deliver (120 + j) none
  if s.bit (PC_CTRL j) 15 then s.ringGather (s.fld (PC_CTRL j) 21 16) (rankCompare j) (.hardware (pcMessage j pos st)) else s

/-- Compare `j` is armed, and its arm has been decided (R196). -/
def State.pcLive (s : State) (j : Nat) : Bool := s.pcArmed j && !s.takes.contains (.pcmp j)

/-- Interface `f` moves from position `p0` to `p1` by a count step: each compare that watches it and whose V the step passes fires,
with the stamp that `stampOf` gives for V. -/
def State.pcMotion (s : State) (f : Nat) (p0 p1 : BitVec 64) (stampOf : BitVec 64 → Stamp) : State :=
  foldBelow 32 (fun s j =>
    if s.pcLive j && targetIface (s.pcTgt j) (s.pcIdx j) == some f && s.pcBefore j p0 && !s.pcBefore j p1 then
      s.pcFire j p1 (stampOf (s.pcmp j).v)
    else s) s

/-- Interface `f` is moved from `p0` to `p1` by a correction or a reference: no motion; a compare that it carries past V is BEHIND. -/
def State.pcCorrected (s : State) (f : Nat) (p0 p1 : BitVec 64) : State :=
  foldBelow 32 (fun s j =>
    if s.pcLive j && targetIface (s.pcTgt j) (s.pcIdx j) == some f && s.pcBefore j p0 && !s.pcBefore j p1 then
      s.raise (PC_STATUS j) 2
    else s) s

/-! ### Meanings: compares -/

/-- A write to PC_CTRL: DISARM acts alone; ARM takes V and the direction, and the end of the tick decides the side (R196). -/
def State.pcCtrlWrite (s : State) (j : Nat) (v : Word) : State :=
  let s := s.setReg (PC_CTRL j) (mergeWord (s.reg (PC_CTRL j)) v 0x003FEFC0#32)
  if bitOf v 1 then (s.setBit (PC_STATUS j) 0 false).setPcmp j { s.pcmp j with fireDue := none }
  else if bitOf v 0 then
    let s := s.setPcmp j { v := s.pair (PC_VAL_LO j) (PC_VAL_HI j), rev := s.bit (PC_CTRL j) 13, near := false, fireDue := none }
    (s.setBit (PC_STATUS j) 0 true).noteTake (.pcmp j)
  else s

/-- The tick of an arm ends: the position decides whether compare `j` is armed or behind, and with IMMEDIATE a compare armed behind fires in
the next tick (R196). -/
def State.pcDecide (s : State) (j : Nat) : State :=
  if !s.pcArmed j then s
  else if s.pcBefore j (s.pcPos j) then s.setPcmp j { s.pcmp j with near := true }
  else
    let s := s.raise (PC_STATUS j) 2
    if s.bit (PC_CTRL j) 14 then s.setPcmp j { s.pcmp j with fireDue := some (s.mt + 1) } else s

/-- PC_ARM: the row of a PC_CTRL write with ARM. -/
def execPcArm (j : Fin 32) (v : Word) (s : State) : Host.Outcome State Fault Refusal :=
  .next (s.hostWrite (PC_CTRL j) v fun s => s.pcCtrlWrite j v)

/-- PC_DISARM: the row of a PC_CTRL write with DISARM. -/
def execPcDisarm (j : Fin 32) (v : Word) (s : State) : Host.Outcome State Fault Refusal :=
  .next (s.hostWrite (PC_CTRL j) v fun s => s.pcCtrlWrite j v)

/-- PC_IMMEDIATE_FIRE: a compare armed behind with IMMEDIATE fires in the tick after the arm, with LATE (R196). -/
def State.pcImmediate (s : State) (j : Nat) : State :=
  match (s.pcmp j).fireDue with
  | some t =>
    if s.reached t && s.pcArmed j then (s.raise (PC_STATUS j) 3).pcFire j (s.pcPos j) s.now else s
  | none => s

def execPcImmediateFire (j : Fin 32) (s : State) : Host.Outcome State Fault Refusal :=
  .next (s.onTclk (s.pcImmediate j))

/-- PC_SHAFT_CROSSING: in this tick the motion of a shaft has taken its reported position to V or past it (R197). -/
def State.pcShaftCrossing (s : State) (j : Nat) : State :=
  if s.pcLive j && s.pcTgt j == 0 && (s.pcmp j).near && !s.pcBefore j (s.pcPos j) then s.pcFire j (s.pcPos j) s.now else s

def execPcShaftCrossing (j : Fin 32) (s : State) : Host.Outcome State Fault Refusal :=
  .next (s.onTclk (s.pcShaftCrossing j))

/-- In each tick, an armed compare of a shaft whose position lies before V is on the near side (R197). -/
def State.pcTick (s : State) (j : Nat) : State :=
  if s.pcArmed j && s.pcTgt j == 0 && s.pcBefore j (s.pcPos j) then s.setPcmp j { s.pcmp j with near := true } else s

/-! ### Culverts (R198, R199) -/

def State.cvMode (s : State) (i : Nat) : Nat := s.fld (CV_CTRL i) 2 1

/-- The outputs of culvert `i` take new levels, and the pins that select them follow. -/
def State.cvOut (s : State) (i : Nat) (a b z : Bool) : State :=
  let c := s.culvert i
  if c.a = a ∧ c.b = b ∧ c.z = z then s else (s.setCulvert i { c with a := a, b := b, z := z }).refreshPins s.now

/-- The AENC of culvert `i`, as an interface number. -/
def State.cvAenc (s : State) (i : Nat) : Nat := 8 + s.fld (CV_CTRL i) 6 4

def State.cvShift (s : State) (i : Nat) : Nat := min 10 (s.fld (CV_CTRL i) 11 8)

/-- The states owed: q less the output state (R199). -/
def State.cvOwed (s : State) (i : Nat) : Int :=
  let q : Int := (s.iface (s.cvAenc i)).abs.toInt / (2 ^ s.cvShift i : Int)
  (bvInt 64 (q - (s.culvert i).state.toInt)).toInt

/-- LAG, and OVERRUN at each entry above 256 (R199). -/
def State.cvLag (s : State) (i : Nat) : State :=
  let was := decide (256 < s.fld (CV_STATUS i) 15 0)
  let lag := min 0xFFFF (s.cvOwed i).natAbs
  let s := s.setFld (CV_STATUS i) 15 0 lag
  if 256 < lag then
    let s := s.raise (CV_STATUS i) 16
    if was then s else s.satCount (OVERRUN_CNT i)
  else s

/-- The AENC of a REGEN culvert is PRESENT. -/
def State.cvPresent (s : State) (i : Nat) : Bool := s.fld (FB_STATUS (s.cvAenc i)) 25 24 == 1

/-- The outputs that the state of a REGEN culvert gives: A leads B forward, and Z marks one state in a revolution (R199). -/
def State.cvDrive (s : State) (i : Nat) : State :=
  let st := (s.culvert i).state.toInt
  let k := (st % 4).toNat
  let f := s.cvAenc i
  let per := (s.fld (AE_LINES (f - 8)) 15 0 * 4096) >>> s.cvShift i
  let z := s.bit (CV_CTRL i) 24 && s.bit (FB_STATUS f) 1 && s.cvPresent i && per != 0 && st % (per : Int) == 0
  s.cvOut i (k == 1 || k == 2) (k == 2 || k == 3) z

/-- AENC `f` has processed a sample, or its count has been corrected: each REGEN culvert that follows it spaces the states it owes (R199). -/
def State.cvSample (s : State) (f : Nat) : State :=
  foldBelow 8 (fun s i =>
    if s.cvMode i == 2 && s.cvAenc i == f then
      let n := (s.cvOwed i).natAbs
      let gap := max (max 16 (s.fld (CV_CTRL i) 23 16)) (if n = 0 then 0 else 400 / n)
      ((s.setCulvert i { s.culvert i with gap := gap }).cvLag i).cvDrive i
    else s) s

/-- CULVERT_REGEN_STATE: the output moves one state toward q, once its spacing has passed. -/
def State.cvRegen (s : State) (i : Nat) : State :=
  let c := s.culvert i
  let owed := s.cvOwed i
  if s.cvMode i == 2 && s.cvPresent i && owed != 0 && s.reached c.nextDue then
    let s := s.setCulvert i { c with state := if 0 < owed then c.state + 1 else c.state - 1,
                                     nextDue := s.mt + BitVec.ofNat 64 (max 16 c.gap) }
    (s.cvLag i).cvDrive i
  else s

def execCulvertRegenState (i : Fin 8) (s : State) : Host.Outcome State Fault Refusal :=
  .next (s.onTclk (s.cvRegen i))

/-- The levels of A, B and Z of the QENC that culvert `i` follows, after INVERT; R99 does not apply to them (R198). -/
def State.cvInputs (s : State) (i : Nat) : Bool × Bool × Bool :=
  let f := s.fld (CV_CTRL i) 6 4
  (s.chanLevel (s.aCh f), s.chanLevel (s.bCh f), s.chanLevel (s.zCh f))

/-- A RAW culvert samples its inputs: a change reaches the outputs 4 ticks later (R198). -/
def State.cvSampleRaw (s : State) (i : Nat) : State :=
  let c := s.culvert i
  let x := s.cvInputs i
  if s.cvMode i == 1 && c.raw != x then s.setCulvert i { c with raw := x, pipe := c.pipe ++ [(s.mt + 4, x.1, x.2.1, x.2.2)] } else s

/-- CULVERT_RAW_CHANGE: the inputs of this tick differ from the last sample, and are `a`, `b`, `z`. -/
def State.cvRaw (s : State) (i : Nat) (a b z : Bool) : State := if s.cvInputs i = (a, b, z) then s.cvSampleRaw i else s

def execCulvertRawChange (i : Fin 8) (a b z : Bool) (s : State) : Host.Outcome State Fault Refusal :=
  .next (s.onTclk (s.cvRaw i a b z))

/-- A RAW change that has come due reaches the outputs; the pads follow in `padsBoundary`. -/
def State.cvTick (s : State) (i : Nat) : State :=
  match (s.culvert i).pipe with
  | (t, a, b, z) :: rest =>
    if s.reached t then
      let c := { s.culvert i with pipe := rest }
      s.setCulvert i (if s.cvMode i == 1 then { c with a := a, b := b, z := z } else c)
    else s
  | [] => s

/-- What changes the pads at a tick boundary: every selection that is due and the RAW changes of culverts, together, so that a pad changes
at most once (R21). -/
def State.padsBoundary (s : State) : State :=
  let t := foldBelow 8 State.cvTick (s.pins.foldl (fun s e => s.pinBoundary e.1) s)
  if t.pins = s.pins ∧ t.culverts = s.culverts then t else t.refreshPins t.now

/-- REGEN culverts follow the reference and the attach state of AENC `f` with their Z (R199). -/
def State.cvFollow (s : State) (f : Nat) : State :=
  foldBelow 8 (fun s i => if s.cvMode i == 2 && s.cvAenc i == f then s.cvDrive i else s) s

/-- A write to CV_STATUS: OVERRUN stays set while LAG exceeds 256 (R199). -/
def State.cvStatusWrite (s : State) (i : Nat) (v : Word) : State :=
  let s := s.plainWrite (CV_STATUS i) v
  s.raiseIf (decide (256 < s.fld (CV_STATUS i) 15 0)) (CV_STATUS i) 16

/-- A write to CV_CTRL: another MODE begins from low outputs, and REGEN drives the output state as it stands (R198, R199). -/
def State.cvCtrlWrite (s : State) (i : Nat) (v : Word) : State :=
  let old := s.cvMode i
  let s := s.setReg (CV_CTRL i) (mergeWord (s.reg (CV_CTRL i)) v 0x01FF0F76#32)
  if s.cvMode i = old then (if old = 2 then (s.cvLag i).cvDrive i else s)
  else
    let s := (s.setCulvert i { s.culvert i with raw := (false, false, false), pipe := [], gap := 0, nextDue := s.mt }).cvOut i false false false
    if s.cvMode i = 2 then (s.cvLag i).cvDrive i
    else s.setFld (CV_STATUS i) 15 0 0

end Sys2Proof.Machine
end

