-- ==== Sys2Proof/Machine/Feedback.lean ====
section
/-!
DEFINITION. Quadrature, sine/cosine and SSI interfaces: spec/09_position_feedback.md, R176 to R192. Interface `f` is QENC[f] below 8,
AENC[f − 8] below 16, SSI[f − 16] below 24.
-/

namespace Sys2Proof.Machine

open Reg

/-! ### Counts and references (R176, R177) -/

/-- ATT_STATE: 0 ABSENT, 1 PRESENT, 2 FAULT. -/
def State.fbAtt (s : State) (f : Nat) : Nat := s.fld (FB_STATUS f) 25 24
def State.fbRef (s : State) (f : Nat) : Bool := s.bit (FB_STATUS f) 1

/-- REF_MODE selects the index; it is ignored on an SSI port. -/
def State.fbIndexed (s : State) (f : Nat) : Bool := decide (f < 16) && s.fld (REF_CFG f) 31 30 != 0

/-- CPR of the interface. -/
def State.cpr (s : State) (f : Nat) : Nat :=
  if f < 8 then (s.reg (QE_CPR f)).toNat
  else if f < 16 then s.fld (AE_LINES (f - 8)) 15 0 * 4096
  else 2 ^ s.fld (SSI_FRAME (f - 16)) 13 8

/-- c and TURNS of an absolute count. -/
def State.countC (s : State) (f : Nat) : Nat := ((s.iface f).abs.toInt % (s.cpr f : Int)).toNat
def State.countTurns (s : State) (f : Nat) : Int := (s.iface f).abs.toInt / (s.cpr f : Int)

/-- The shaft source code of an interface, and its instance. -/
def fbSrc (f : Nat) : Nat := f / 8 + 1
def fbIdx (f : Nat) : Nat := f % 8

/-- The count of a valid reference of the interface that an encoder shaft takes; none while there is no valid reference. -/
def State.ifaceRef (s : State) (src i : Nat) : Option Int :=
  if 1 ≤ src ∧ src ≤ 3 ∧ i < 8 then
    let f := (src - 1) * 8 + i
    if s.fbRef f then some (s.iface f).abs.toInt else none
  else none

/-- A sample whose count a correction moves by `d`. -/
def Sample.shift (q : Sample) (d : BitVec 64) : Sample := { q with abs := q.abs + d }

/-- ABS is moved by a correction, a reference or a first frame: no count step. The samples that positions are interpolated between move with
it, and the culverts that follow it owe other states (R194, R197, R199). -/
def State.absCorrect (s : State) (f : Nat) (p : BitVec 64) : State :=
  let c := s.iface f
  let d := p - c.abs
  let s := s.setIface f { c with abs := p, sample := c.sample.map (·.shift d), prevSample := c.prevSample.map (·.shift d) }
  (s.pcCorrected f c.abs p).cvSample f

/-- REF_VALID is set: the shafts on the interface sync (R146). -/
def State.refSet (s : State) (f : Nat) : State :=
  ((s.setBit (FB_STATUS f) 1 true).cvFollow f).encoderValid (fbSrc f) (fbIdx f) (s.iface f).abs.toInt

/-- REF_VALID clears and REF_LOST_CNT increments: the shafts on the interface are LOST (R146, R189, R192). -/
def State.refLose (s : State) (f : Nat) : State :=
  (((s.setBit (FB_STATUS f) 1 false).cvFollow f).satCount (REF_LOST_CNT f)).encoderLost (fbSrc f) (fbIdx f)

/-! ### Steps (R176, R190, R197) -/

/-- A step counts toward the gate and the period method, at the stamp of a unit step or of a signal-period crossing. -/
def Iface.unitStep (c : Iface) (st : Stamp) : Iface := { c with unit0 := c.unit1, unit1 := some st }

/-- One count step of `d` counts at stamp `st`, where a sample that shows no motion is a step of none; `prev` is the stamp that positions inside the step are interpolated from. -/
def State.countMove (s : State) (f : Nat) (d : Int) (st : Stamp) (prev : Option Stamp) : State :=
  let c := s.iface f
  let p0 := c.abs
  let p1 := c.abs + bvInt 64 d
  let c := { c with
    abs := p1, lastStep := some { abs := p1, stamp := st }, lastMove := if d = 0 then c.lastMove else some st,
    gateNet := c.gateNet + d, timedOut := c.timedOut && d == 0 }
  let s := s.setIface f c
  let s := if d = 0 then s else s.setBit (FB_STATUS f) 2 (decide (d < 0))
  let at_ (p : Stamp) (v : BitVec 64) : Stamp :=
    p + bvInt 64 (roundEven (((ahead v p0 : Int) : ℚ) / ((ahead p1 p0 : Int) : ℚ) * ((ahead st p : Int) : ℚ)))
  let s := s.pcMotion f p0 p1 (fun v => match prev with | some p => at_ p v | none => st)
  match prev with
  | some p => s.encoderMove (fbSrc f) (fbIdx f) p0.toInt p p1.toInt st true
  | none => s.encoderMove (fbSrc f) (fbIdx f) p0.toInt st p1.toInt st false

/-! ### Attach states (R191, R192) -/

/-- ATT_STATE takes a new value, with its interrupt event. -/
def State.setAtt (s : State) (f a : Nat) : State :=
  if s.fbAtt f = a then s
  else
    let s := ((s.setFld (FB_STATUS f) 25 24 a).fbEvent f 3).cvFollow f
    let fault := a == 2
    if fault && !s.bit (FB_STATUS f) 5 then (s.setBit (FB_STATUS f) 5 true).fbEvent f 2
    else s.setBit (FB_STATUS f) 5 fault

/-- Entry into FAULT: the reference is lost, and ABS holds. -/
def State.attFault (s : State) (f : Nat) : State :=
  let s := s.setIface f { s.iface f with held := true, inWin := 0, below := 0, good := 0, noAnswer := 0, idxPend := [] }
  (s.setAtt f 2).refLose f

/-- Detach: ABSENT from FAULT. -/
def State.attDetach (s : State) (f : Nat) : State :=
  (s.setIface f { s.iface f with inWin := 0, good := 0 }).setAtt f 0 |>.refLose f

/-! ### Index (R187 to R189) -/

/-- The edge is the one that INDEX_EDGE selects in the present direction. -/
def State.indexEdge (s : State) (f : Nat) (rising : Bool) : Bool :=
  (s.bit (REF_CFG f) 29 != s.bit (FB_STATUS f) 2) != rising

/-- An index is taken with ABS `ai` at its stamp. -/
def State.takeIndex (s : State) (f : Nat) (ai : BitVec 64) : State :=
  let n : Int := s.cpr f
  if n = 0 then s
  else
    let c := s.iface f
    let home : Int := ((s.reg (INDEX_POS f)).toNat : Int) % n
    if !s.fbRef f then
      let s := s.setIface f { c with idxFaults := 0 }
      (s.absCorrect f (bvInt 64 home + (c.abs - ai))).refSet f
    else
      let r := (ai.toInt - home) % n
      let d := if 2 * r < n then r else r - n
      let s := s.setIface f { c with dev := bvInt 32 d }
      let tol := s.fld (REF_CFG f) 15 0
      if d = 0 then s.encoderIndex (fbSrc f) (fbIdx f) false
      else if d.natAbs ≤ tol then
        let rises := !s.bit (FB_STATUS f) 3
        let s := s.setIface f { s.iface f with idxFaults := 0 }
        let s := (s.absCorrect f ((s.iface f).abs - bvInt 64 d)).raise (FB_STATUS f) 3
        let s := s.satCount (INDEX_SLIP_CNT f)
        let s := if rises then s.fbEvent f 0 else s
        s.encoderIndex (fbSrc f) (fbIdx f) false
      else
        let rises := !s.bit (FB_STATUS f) 4
        let k := c.idxFaults + 1
        let s := s.setIface f { s.iface f with idxFaults := k }
        let s := (s.raise (FB_STATUS f) 4).satCount (INDEX_FAULT_CNT f)
        let s := if rises then s.fbEvent f 1 else s
        if k = 2 then s.refLose f else s.encoderIndex (fbSrc f) (fbIdx f) true

/-- The transitions of a QENC decoded after stamp `st`, newest first. -/
def Iface.stepsAfter (c : Iface) (now st : Stamp) : List QuadStep := c.steps.takeWhile (fun x => laterThan now x.stamp st)

/-- ABS of a QENC at stamp `st`: every step not later than it counts (R187, R194). -/
def Iface.absAt (c : Iface) (now st : Stamp) : BitVec 64 := (c.stepsAfter now st).foldl (fun p x => p - bvInt 64 x.d) c.abs

/-- The decoded state of a QENC at stamp `st`. -/
def Iface.quadAt (c : Iface) (now st : Stamp) : Bool × Bool :=
  match (c.stepsAfter now st).getLast? with
  | some x => (x.a, x.b)
  | none => (c.a, c.b)

/-- Every edge of A and B that is not later than stamp `st` has been decoded, and none can still come (R187, R194). -/
def State.quadKnown (s : State) (f : Nat) (st : Stamp) : Bool :=
  s.edgeSure st && (s.iface f).edges.all (fun e => laterThan s.now e.stamp st) &&
    (match (s.iface f).resample with | some r => laterThan s.now r.1 st | none => true)

/-- ABS interpolated between the last two samples or frames at stamp `st`, to the nearest count (R187, R194). -/
def Iface.absBetween (c : Iface) (st : Stamp) : BitVec 64 :=
  match c.prevSample, c.sample with
  | some p, some q =>
    let dt := ahead q.stamp p.stamp
    if dt = 0 then q.abs
    else p.abs + bvInt 64 (roundEven (((ahead q.abs p.abs : Int) : ℚ) * ((ahead st p.stamp : Int) : ℚ) / ((dt : Int) : ℚ)))
  | none, some q => q.abs
  | _, none => c.abs

/-- A sample or frame whose stamp is not before `st` has been processed. -/
def Iface.covers (c : Iface) (now st : Stamp) : Bool :=
  match c.sample with
  | some q => !laterThan now st q.stamp
  | none => false

/-- In the tick after an AENC's later sample has been processed, an index between the two samples is handled (R187). -/
def State.indexTick (s : State) (f : Nat) : State :=
  match (s.iface f).idxPend with
  | st :: rest =>
    if (s.iface f).covers s.now st then
      let ai := (s.iface f).absBetween st
      (s.setIface f { s.iface f with idxPend := rest }).takeIndex f ai
    else s
  | [] => s

/-- The levels that QUAL_AB asks for stood at the index stamp (R187). -/
def State.indexQualified (s : State) (f : Nat) (st : Stamp) : Bool :=
  !(decide (f < 8) && s.bit (REF_CFG f) 28) || (s.iface f).quadAt s.now st == (s.bit (REF_CFG f) 27, s.bit (REF_CFG f) 26)

/-- INDEX: the oldest edge of the Z input of a QENC or AENC is handled, once nothing that its count depends on can still come; an AENC
waits for its later sample (R187). -/
def State.indexInput (s : State) (f : Nat) (rising : Bool) (st : Stamp) : State :=
  match (s.iface f).zEdges with
  | [] => s
  | e :: rest =>
    if e != (st, rising) || !s.edgeSure st || (decide (f < 8) && !s.quadKnown f st) then s
    else
      let c := { s.iface f with zEdges := rest }
      let s := s.setIface f c
      if !s.fbEn f || !s.fbIndexed f || s.fbAtt f ≠ 1 || !s.indexEdge f rising || !s.indexQualified f st then s
      else if f < 8 then s.takeIndex f (c.absAt s.now st)
      else s.setIface f { c with idxPend := c.idxPend ++ [st] }

def execIndexEdge (f : Fin 16) (rising : Bool) (stamp : Stamp) (s : State) : Host.Outcome State Fault Refusal :=
  .next (s.onTclk (s.indexInput f rising stamp))

/-! ### Quadrature (R180, R181) -/

/-- The place of (A, B) in the forward order 00, 10, 11, 01. -/
def quadIndex (a b : Bool) : Nat := match a, b with | false, false => 0 | true, false => 1 | true, true => 2 | false, true => 3

/-- The quarter periods, modulo 4, from the decoded state to the levels `a`, `b`. -/
def Iface.quarter (c : Iface) (a b : Bool) : Nat := (quadIndex a b + 4 - quadIndex c.a c.b) % 4

/-- The count step of one quarter period: forward when A leads B, reversed by DIR_INV (R180). -/
def State.quadStep (s : State) (i k : Nat) : Int :=
  if k = 1 then (if s.bit (QE_CTRL i) 1 then -1 else 1) else if k = 3 then (if s.bit (QE_CTRL i) 1 then 1 else -1) else 0

/-- The decoded state takes the levels `a`, `b` at stamp `st`; transitions that no index or probe can still ask about are forgotten. -/
def State.quadNote (s : State) (i : Nat) (a b : Bool) (st : Stamp) (d : Int) : State :=
  let c := s.iface i
  s.setIface i { c with a := a, b := b,
                        steps := { stamp := st, d := d, a := c.a, b := c.b } ::
                          c.steps.filter (fun x => decide (ahead s.now x.stamp < 4096)) }

/-- The decoder takes the levels `a`, `b` at stamp `st`: one step, an illegal transition, or nothing. -/
def State.quadDecode (s : State) (i : Nat) (a b : Bool) (st : Stamp) (late : Bool) : State :=
  let k := (s.iface i).quarter a b
  let d := s.quadStep i k
  let s := s.quadNote i a b st d
  if k = 0 then s
  else if k = 2 then s.satCount (ILLEGAL_CNT i)
  else
    let s := s.raiseIf late (FB_STATUS i) 7
    let c := s.iface i
    (s.setIface i { c.unitStep st with gateSteps := c.gateSteps + 1 }).countMove i d st none

/-- The least distance between accepted edges, in fine steps (R181). -/
def State.minEdge (s : State) (i : Nat) : Nat := 64 * s.fld (QE_MIN_EDGE i) 7 0

/-- The levels that a resample has taken are decoded (R181). -/
def State.resampleTake (s : State) (i : Nat) : State :=
  match (s.iface i).resample with
  | some (st, a, b) => (s.setIface i { s.iface i with resample := none }).quadDecode i a b st true
  | none => s

/-- The level of the input of channel `k` as tick `t` began, which is that of the tick before it (R46). -/
def State.levelAtStart (s : State) (k : Nat) (t : Tick) : Bool := decide (k < 384) && (s.chan k).sampled (t - 1)

/-- The decoder samples A and B, as they stood at the start of the tick that an accepted edge has set, once that tick has come (R181). -/
def State.qencTick (s : State) (i : Nat) : State :=
  let c := s.iface i
  match c.resampleAt with
  | some t =>
    if s.reached t then
      s.setIface i { c with resampleAt := none,
                            resample := some (stampAt t 0, s.levelAtStart (s.aCh i) t, s.levelAtStart (s.bCh i) t) }
    else s
  | none => s

/-- The first tick whose start is not before the end of the minimum interval after an accepted edge stamped `st`, with the QE_MIN_EDGE that
the edge is processed with (R178, R181); with a minimum of 0 there is none. -/
def State.resampleTick (s : State) (i : Nat) (st : Stamp) : Option Tick :=
  if s.minEdge i = 0 then none else some (s.tickFor (st + BitVec.ofNat 64 (s.minEdge i + 63)))

/-- The oldest edge of A or B, `e`, is decoded; one that comes too early is ignored. An accepted one takes the place of an older one whose
interval ends after it (R180, R181). -/
def State.quadEdge (s : State) (i : Nat) (e : QuadEdge) : State :=
  let c := s.iface i
  let early := match c.lastAcc with | some l => decide (ahead e.stamp l < s.minEdge i) | none => false
  if early then s.satCount (FAULT_CNT i)
  else
    let c := { c with lastAcc := some e.stamp, resampleAt := s.resampleTick i e.stamp, resample := none }
    ((s.setIface i c).quadDecode i e.a e.b e.stamp false).qencTick i

/-- A resample that is waiting comes before stamp `st`. -/
def Iface.resampleFirst (c : Iface) (now st : Stamp) : Bool :=
  match c.resample with | some r => !laterThan now r.1 st | none => false

/-- QENC_EDGE: the oldest edge of A or B is decoded, in stamp order with the resamples, once R99 can no longer discard it (R180). -/
def State.qencEdge (s : State) (i : Nat) (isB a b : Bool) (st : Stamp) : State :=
  match (s.iface i).edges with
  | [] => s
  | e :: rest =>
    if e = { stamp := st, isB := isB, a := a, b := b } ∧ s.edgeSure st = true then
      let s := s.setIface i { s.iface i with edges := rest }
      if s.fbEn i then (if (s.iface i).resampleFirst s.now st then s.resampleTake i else s).quadEdge i e else s
    else s

def execQencEdge (i : Fin 8) (isB a b : Bool) (stamp : Stamp) (s : State) : Host.Outcome State Fault Refusal :=
  .next (s.onTclk (s.qencEdge i isB a b stamp))

/-- QENC_RESAMPLE: the levels `a`, `b` that the end of the minimum interval has sampled are decoded, once no edge before it waits. -/
def State.qencResample (s : State) (i : Nat) (a b : Bool) : State :=
  let c := s.iface i
  match c.resample with
  | some r => if r.2 = (a, b) && s.fbEn i && !c.edges.any (fun e => laterThan s.now r.1 e.stamp) then s.resampleTake i else s
  | none => s

def execQencResample (i : Fin 8) (a b : Bool) (s : State) : Host.Outcome State Fault Refusal :=
  .next (s.onTclk (s.qencResample i a b))

/-! ### Sine and cosine (R182 to R184) -/

/-- cos and sin of 2π × 2^b / 8 192 for b = 10 down to 0, scaled by 2^96. -/
def phaseTable : List (Int × Int) :=
  [(56022770974786139918731938227, 56022770974786139918731938227), (73197277745406789746128126514, 30319305170937817432302117203),
   (77705815587385459894767493986, 15456647737653972240398692356), (78846657256498550044590935806, 7765717923213880508008574353),
   (79132728732722187244728061659, 3887541675809670510355249493), (79204300472980947526267393315, 1944356441712994098036199278),
   (79222196779339056064285443064, 972251429601035097806954306), (79226671066494975824533590136, 486134866151990591466405863),
   (79227789651444615435502306173, 243068577003004720891563897), (79228069298504570632279043702, 121534431492630892444982651),
   (79228139210320968575859978290, 60767233620214398787300339)]

/-- How many half steps (of 8 192 in a turn) lie within the angle of (x, y), from the unit vector (u, v) on; the table's angles
halve. -/
def halfSteps (x y : Int) : List (Int × Int) → Int → Int → Nat → Nat
  | [], _, _, m => m
  | (c, sn) :: rest, u, v, m =>
    let u' := (u * c - v * sn) / 2 ^ 96
    let v' := (u * sn + v * c) / 2 ^ 96
    if 0 ≤ u' * y - v' * x then halfSteps x y rest u' v' (2 * m + 1) else halfSteps x y rest u v (2 * m)

/-- The exact phase round(4 096 × atan2(s, c) / 2π) modulo 4 096 of a vector that is not 0 (R184). -/
def phaseOf (s c : Int) : Nat :=
  let q : Nat × Int × Int :=
    if 0 < c ∧ 0 ≤ s then (0, c, s) else if c ≤ 0 ∧ 0 < s then (1, s, -c) else if c < 0 ∧ s ≤ 0 then (2, -c, -s) else (3, -s, c)
  (q.1 * 1024 + (halfSteps q.2.1 q.2.2 phaseTable (2 ^ 96) 0 0 + 1) / 2) % 4096

/-- A signed 16-bit value of the OTP at byte offset `o`. -/
def otpHalf (o : Nat) : Int := signed 16 ((Config.otpByte o).toNat + 256 * (Config.otpByte (o + 1)).toNat)

/-- A value in 1/16 LSB less an offset, times a Q2.14 gain, to the nearest 1/16 LSB (R183). -/
def gained (x ofs gain : Int) : Int := roundEven (((x - ofs : Int) : ℚ) * (gain : ℚ) / 2 ^ 14)

/-- s3 and c3 of a raw sample, in 1/16 LSB (R183). -/
def State.aencCorrect (s : State) (i : Nat) (s0 c0 : BitVec 12) : Int × Int :=
  let o := 0x0E20 + 8 * i
  let s1 := gained (16 * s0.toInt) (otpHalf o) (otpHalf (o + 4))
  let c1 := gained (16 * c0.toInt) (otpHalf (o + 2)) (otpHalf (o + 6))
  let s2 := gained s1 (signed 16 (s.fld (AE_OFS i) 15 0)) (signed 16 (s.fld (AE_GAIN i) 15 0))
  let c2 := gained c1 (signed 16 (s.fld (AE_OFS i) 31 16)) (signed 16 (s.fld (AE_GAIN i) 31 16))
  (s2, roundEven ((c2 : ℚ) + (s2 : ℚ) * (signed 16 (s.fld (AE_PHASE i) 15 0) : ℚ) / 2 ^ 14))

/-- AENC_SAMPLE: both converters sample in a tick with MT mod 400 = 0 (R182). -/
def State.aencSample (s : State) (i : Nat) (s0 c0 : BitVec 12) : State :=
  let f := 8 + i
  if s.fbEn f && s.mt.toNat % 400 == 0 then
    s.setIface f { s.iface f with raw := (s.iface f).raw ++ [(s.now, s0, c0)] }
  else s

def execAencSample (i : Fin 8) (s0 c0 : BitVec 12) (s : State) : Host.Outcome State Fault Refusal :=
  .next (s.onTclk (s.aencSample i s0 c0))

/-- The sample stamped `st` is the newest processed one. -/
def Iface.noteSample (c : Iface) (st : Stamp) : Iface :=
  { c with prevSample := c.sample, sample := some { abs := c.abs, stamp := st } }

/-- A step of Δ phase counts from phase `p0` has crossed a signal-period boundary: the stamp interpolated to it (R190). -/
def crossing (p0 : Nat) (d : Int) (prev st : Stamp) : Option Stamp :=
  let fin : Int := (p0 : Int) + d
  let at_ (n : Int) : Stamp := prev + bvInt 64 (roundEven (((n : Int) : ℚ) / ((d : Int) : ℚ) * ((ahead st prev : Int) : ℚ)))
  if 4096 ≤ fin then some (at_ (4096 - p0)) else if fin < 0 then some (at_ (-(p0 : Int))) else none

/-- A sample in the window with phase `p` at stamp `st`: a step from the last phase, an overspeed, or the first phase (R184). -/
def State.aencPhase (s : State) (i p : Nat) (st : Stamp) : State :=
  let f := 8 + i
  let c := s.iface f
  match c.pPrev with
  | none => s.setIface f ({ c with pPrev := some p }.noteSample st)
  | some p0 =>
    let r : Int := ((p : Int) - p0) % 4096
    let raw := if r < 2048 then r else r - 4096
    if 1536 < raw.natAbs then
      let s := (s.raise (FB_STATUS f) 6).satCount (ILLEGAL_CNT f)
      if s.fbAtt f = 1 then s.attFault f else s
    else
      let prev := match c.sample with | some q => q.stamp | none => st
      let c := { c with pPrev := some p }
      if c.held then s.setIface f (c.noteSample st)
      else
        let c := match crossing p0 raw prev st with
          | some x => { c.unitStep x with gateSteps := c.gateSteps + 1 }
          | none => c
        let d := if s.bit (AE_CTRL i) 1 then -raw else raw
        let s := (s.setIface f c).countMove f d st (some prev)
        s.setIface f ((s.iface f).noteSample st)

/-- The interface is PRESENT: counting resumes at the phase `p` of this sample, or goes on with it where ABS did not hold; without an index
the phase is the reference (R177, R184, R192). -/
def State.aencAttach (s : State) (i p : Nat) (st : Stamp) : State :=
  let f := 8 + i
  let s :=
    if (s.iface f).held then s.setIface f ({ s.iface f with held := false, pPrev := some p }.noteSample st) else s.aencPhase i p st
  let s := s.setIface f { s.iface f with outWin := 0, below := 0 }
  let s := s.setAtt f 1
  if s.fbIndexed f then s
  else
    let s := (s.absCorrect f (BitVec.ofNat 64 p)).refSet f
    s.setIface f { s.iface f with sample := some { abs := BitVec.ofNat 64 p, stamp := st }, prevSample := none }

/-- A sample with amplitude `a2` moves the attach state (R191). -/
def State.aencAmplitude (s : State) (i a2 : Nat) : State × Bool :=
  let f := 8 + i
  let c := s.iface f
  let inside := decide (s.fld (AMP_LO i) 23 0 ≤ a2) && decide (a2 ≤ s.fld (AMP_HI i) 23 0)
  let c := { c with
    inWin := if inside then c.inWin + 1 else 0
    outWin := if inside then 0 else c.outWin + 1
    below := if a2 < s.fld (DET_TH i) 23 0 then c.below + 1 else 0 }
  let s := s.setIface f c
  let s := if inside then s else s.satCount (FAULT_CNT f)
  if s.fbAtt f = 1 && decide (max 1 (s.fld (AMP_CFG i) 7 0) ≤ c.outWin) then (s.attFault f, inside)
  else if s.fbAtt f = 2 && decide (2000 ≤ c.below) then (s.attDetach f, inside)
  else (s, inside)

/-- AENC_SAMPLE_PROCESSED: the oldest raw sample is corrected and taken (R183, R184). The CORDIC lies within one step of the exact phase;
the phase of a zero vector is a free value. -/
def State.aencProcess (s : State) (i : Nat) : State :=
  let f := 8 + i
  match (s.iface f).raw with
  | [] => s
  | (st, s0, c0) :: rest =>
    let s := s.setIface f { s.iface f with raw := rest }
    if !s.fbEn f then s
    else
      let v := s.aencCorrect i s0 c0
      let a2 := ((v.1 * v.1 + v.2 * v.2) / 256).toNat
      let zero := v.1 = 0 ∧ v.2 = 0
      let err := clampInt (-1) 1 (Config.cordicError v.1 v.2)
      let p := if zero then s.freeValue.toNat % 4096 else (((phaseOf v.1 v.2 : Int) + err) % 4096).toNat
      let s := if zero then s.useFree else s
      let lsb (x : Int) : Nat := (roundEven ((x : ℚ) / 16) % 65536).toNat
      let s := s.setReg (AE_SAMPLE i) (setBits (setBits 0 31 16 (lsb v.2)) 15 0 (lsb v.1))
      let s := s.setReg (AE_AMP i) (BitVec.ofNat 32 a2)
      let r := s.aencAmplitude i a2
      let s := r.1
      let s :=
        if !r.2 then s
        else if s.fbAtt f ≠ 1 && decide (2000 ≤ (s.iface f).inWin) then s.aencAttach i p st
        else s.aencPhase i p st
      s.cvSample f

def execAencSampleProcessed (i : Fin 8) (s : State) : Host.Outcome State Fault Refusal :=
  .next (s.onTclk (s.aencProcess i))

/-! ### SSI (R185, R186, R191) -/

/-- The clock period in ticks, the bits of a frame, and its field widths. -/
def State.ssiPeriod (s : State) (i : Nat) : Nat := 2 * (max 39 (s.fld (SSI_TIMING i) 7 0) + 1)
def State.ssiBits (s : State) (i : Nat) : Nat := s.fld (SSI_FRAME i) 5 0
def State.ssiMt (s : State) (i : Nat) : Nat := s.fld (SSI_FRAME i) 21 16
def State.ssiSt (s : State) (i : Nat) : Nat := s.fld (SSI_FRAME i) 13 8

/-- PARITY: 1 even, 2 odd, else none. -/
def State.ssiParity (s : State) (i : Nat) : Nat := s.fld (SSI_CTRL i) 5 4 % 3

/-- SSI_FRAME_START: the first falling clock edge of a frame; `idleHigh` is SSI_DAT before it. -/
def State.ssiStart (s : State) (i : Nat) (idleHigh : Bool) : State :=
  let f := 16 + i
  let c := s.iface f
  if s.fbEn f && c.frame.isNone && s.reached c.nextFrame then
    s.setIface f { c with frame := some (s.mt, idleHigh), clk := false }
  else s

/-- The tick in which bit `k` of a frame that starts in tick `t` is sampled: DAT_DLY ticks after the rising clock edge that follows falling
edge k + 1 (R185). -/
def State.ssiBitTick (s : State) (i : Nat) (t : Tick) (k : Nat) : Tick :=
  t + BitVec.ofNat 64 (k * s.ssiPeriod i + s.ssiPeriod i / 2 + s.fld (SSI_TIMING i) 15 8)

/-- The tick of the end check: half a clock period after the last rising edge. -/
def State.ssiEndTick (s : State) (i : Nat) (t : Tick) : Tick := t + BitVec.ofNat 64 (s.ssiBits i * s.ssiPeriod i)

/-- SSI_CLK in the present tick: high, but low in the first half of each clock period of a frame (R185). -/
def State.ssiClock (s : State) (i : Nat) : Bool :=
  match (s.iface (16 + i)).frame with
  | some (t, _) =>
    let d := (s.mt - t).toNat
    decide (s.ssiBits i * s.ssiPeriod i ≤ d) || decide (s.ssiPeriod i / 2 ≤ d % s.ssiPeriod i)
  | none => true

/-- The ball SSI_CLK[i] takes its level of the tick. -/
def State.ssiTick (s : State) (i : Nat) : State :=
  let b := s.ssiClock i
  if (s.iface (16 + i)).clk = b then s else s.setIface (16 + i) { s.iface (16 + i) with clk := b }

def execSsiFrameStart (i : Fin 8) (idleHigh : Bool) (s : State) : Host.Outcome State Fault Refusal :=
  .next (s.onTclk (s.ssiStart i idleHigh))

/-- Gray code to binary. -/
def fromGray (g : BitVec 64) : BitVec 64 :=
  [1, 2, 4, 8, 16, 32].foldl (fun (x : BitVec 64) k => x ^^^ (x >>> k)) g

/-- The difference of two values of an n-bit counter, the shortest way. -/
def shortest (n : Nat) (a b : Nat) : Int := signed n (((a : Int) - b) % 2 ^ n).toNat

/-- The turn and single-turn fields of a frame whose bits, last clocked bit in bit 0, are `bits`. -/
def State.ssiFields (s : State) (i : Nat) (bits : BitVec 48) : Nat × Nat :=
  let w := s.ssiMt i + s.ssiSt i
  let v : BitVec 64 := BitVec.ofNat 64 ((bits.toNat >>> (s.ssiBits i - w)) % 2 ^ w)
  let v := if s.bit (SSI_CTRL i) 1 then fromGray v else v
  (v.toNat >>> s.ssiSt i, v.toNat % 2 ^ s.ssiSt i)

/-- ABS that a frame's fields give, from those of the last good frame (R186). -/
def State.ssiAbs (s : State) (i : Nat) (fields : Nat × Nat) : Int :=
  let f := 16 + i
  let cpr : Int := s.cpr f
  match (s.iface f).lastGood with
  | none => (fields.1 : Int) * cpr + fields.2
  | some (turn, a) =>
    if s.ssiMt i = 0 then a + shortest (s.ssiSt i) fields.2 (a % cpr).toNat
    else (a / cpr + shortest (s.ssiMt i) fields.1 turn) * cpr + fields.2

/-- The first check of R186 that fails: 1 no answer, 2 parity, 3 error bit, 4 end check, 5 jump; 0 none. -/
def State.ssiCheck (s : State) (i : Nat) (idleHigh : Bool) (bits : BitVec 48) (endLow : Bool) (abs : Int) : Nat :=
  let n := s.ssiBits i
  let ones := ((List.range n).filter (fun k => bits.getLsbD k)).length
  let par := s.ssiParity i
  let jump := s.fld (SSI_CHECK i) 31 8
  if !idleHigh then 1
  else if (par == 1 && ones % 2 != 0) || (par == 2 && ones % 2 != 1) then 2
  else if s.bit (SSI_CTRL i) 2 && bits.getLsbD (n - 1 - s.fld (SSI_FRAME i) 29 24) == s.bit (SSI_CTRL i) 3 then 3
  else if !endLow then 4
  else match (s.iface (16 + i)).lastGood with
    | some (_, a) => if jump ≠ 0 && decide (jump < (abs - a).natAbs) then 5 else 0
    | none => 0

/-- A good frame with ABS `abs` at stamp `st` (R186, R191, R192). -/
def State.ssiGood (s : State) (i : Nat) (turn : Nat) (abs : Int) (st : Stamp) : State :=
  let f := 16 + i
  let c := s.iface f
  let first := c.lastGood.isNone
  let g := c.good + 1
  let s := s.setIface f { c with good := g, bad := 0, noAnswer := 0, lastGood := some (turn, abs) }
  let s :=
    if c.held then s
    else
      let c := s.iface f
      let prev := match c.sample with | some q => q.stamp | none => st
      (s.setIface f { c with gateSteps := c.gateSteps + 1 }).countMove f (abs - c.abs.toInt) st (if first then none else some prev)
  let s :=
    if s.fbAtt f ≠ 1 && decide (8 ≤ g) then
      let s := if (s.iface f).held then s.absCorrect f (bvInt 64 abs) else s
      ((s.setIface f { s.iface f with held := false }).setAtt f 1).refSet f
    else s
  s.setIface f ((s.iface f).noteSample st)

/-- A bad frame (R186, R191). -/
def State.ssiBad (s : State) (i check : Nat) : State :=
  let f := 16 + i
  let c := s.iface f
  let silent := check == 1
  let s := s.setIface f { c with good := 0, bad := c.bad + 1, noAnswer := if silent then c.noAnswer + 1 else 0 }
  let s := if silent && s.fbAtt f == 0 then s else s.satCount (FAULT_CNT f)
  let s := if check = 5 then s.satCount (ILLEGAL_CNT f) else s
  if s.fbAtt f = 1 && decide (max 1 (s.fld (SSI_CHECK i) 7 0) ≤ c.bad + 1) then s.attFault f
  else if s.fbAtt f = 2 && silent && decide (64 ≤ c.noAnswer + 1) then s.attDetach f
  else s

/-- SSI_FRAME_END: the end check of the frame in progress; `bits` are those clocked, and `endLow` is SSI_DAT at the check. -/
def State.ssiEnd (s : State) (i : Nat) (bits : BitVec 48) (endLow : Bool) : State :=
  let f := 16 + i
  match (s.iface f).frame with
  | some (t, idleHigh) =>
    if !s.reached (s.ssiEndTick i t) || !s.reached (s.ssiBitTick i t (s.ssiBits i - 1)) then s
    else
      let bits := BitVec.ofNat 48 (bits.toNat % 2 ^ s.ssiBits i)
      let poll := t + BitVec.ofNat 64 (s.fld (SSI_POLL i) 23 0)
      let idle := s.mt + BitVec.ofNat 64 (s.fld (SSI_TIMING i) 31 16)
      let s := s.setIface f { s.iface f with frame := none, clk := true, nextFrame := if 0 ≤ ahead poll idle then poll else idle }
      let s := (s.setReg (SSI_RAW_LO i) (bits.truncate 32)).setReg (SSI_RAW_HI i) ((bits >>> 32).truncate 32)
      let fields := s.ssiFields i bits
      let abs := s.ssiAbs i fields
      let check := s.ssiCheck i idleHigh bits endLow abs
      if check = 0 then s.ssiGood i fields.1 abs (stampAt t 0) else s.ssiBad i check
  | none => s

def execSsiFrameEnd (i : Fin 8) (bits : BitVec 48) (endLow : Bool) (s : State) : Host.Outcome State Fault Refusal :=
  .next (s.onTclk (s.ssiEnd i bits endLow))

/-! ### Speed (R190) -/

def State.spdGate (s : State) (f : Nat) : Nat := max 800 (s.fld (SPD_GATE f) 23 0)

/-- SPD_METHOD: 0 none, 1 period, 2 frequency. -/
def State.spdMethod (s : State) (f : Nat) : Nat := s.fld (FB_STATUS f) 27 26

/-- Counts of a unit step of the period method: one count, or a signal period of an AENC. -/
def unitCounts (f : Nat) : Int := if f < 8 then 1 else 4096

/-- SPEED in the present tick, Q16.32, saturating. -/
def State.speedNow (s : State) (f : Nat) : Int :=
  let c := s.iface f
  if c.timedOut then 0
  else if s.spdMethod f = 1 then
    match c.unit1, c.unit0 with
    | some a, some b =>
      let t := max (ahead a b) (ahead s.now a)
      if t ≤ 0 then 0
      else
        let v := roundEven ((unitCounts f : ℚ) * 64 / ((t : Int) : ℚ) * 2 ^ 32)
        (saturate 48 (if s.bit (FB_STATUS f) 2 then -v else v)).1
    | _, _ => 0
  else if s.spdMethod f = 2 then c.speed
  else 0

/-- The method of the gates that follow a gate with `n` steps. -/
def State.nextMethod (s : State) (f n : Nat) : Nat :=
  let force := s.fld (SPD_CFG f) 17 16
  let up := max 2 (s.fld (SPD_CFG f) 15 8)
  let dn := min (s.fld (SPD_CFG f) 7 0) (up - 1)
  if 16 ≤ f then 2
  else if force = 1 then 1
  else if force = 2 then 2
  else if up ≤ n then 2
  else if n < dn then 1
  else s.spdMethod f

/-- SPEED_GATE_END: the frequency method measures the gate that ends, and the method is chosen for those that follow. -/
def State.speedGateEnd (s : State) (f : Nat) : State :=
  let c := s.iface f
  let fin := c.gateStart + BitVec.ofNat 64 (s.spdGate f)
  if !s.fbEn f || !s.reached fin then s
  else
    let speed := match c.lastStep, c.gateFrom with
      | some l, some t0 =>
        let dt := ahead l.stamp t0
        if 0 < dt then (saturate 48 (roundEven ((c.gateNet : ℚ) * 64 / ((dt : Int) : ℚ) * 2 ^ 32))).1 else c.speed
      | _, _ => c.speed
    let s := s.setIface f { c with
      speed := speed, gateStart := fin, gateSteps := 0, gateNet := 0,
      gateFrom := match c.lastStep with | some l => some l.stamp | none => none }
    s.setFld (FB_STATUS f) 27 26 (s.nextMethod f c.gateSteps)

def execSpeedGateEnd (f : Fin 24) (s : State) : Host.Outcome State Fault Refusal :=
  .next (s.onTclk (s.speedGateEnd f))

/-- SPEED_TIMEOUT: no step for 16 × SPD_GATE ticks. -/
def State.speedTimeout (s : State) (f : Nat) : State :=
  let c := s.iface f
  let since := match c.lastMove with | some l => s.tickFor l | none => c.gateStart
  if s.fbEn f && s.reached (since + BitVec.ofNat 64 (16 * s.spdGate f)) then
    s.setIface f { c with timedOut := true, speed := 0 }
  else s

def execSpeedTimeout (f : Fin 24) (s : State) : Host.Outcome State Fault Refusal :=
  .next (s.onTclk (s.speedTimeout f))

/-- POS_READ: c, and the shadows of the same tick, which is the start of the BCLK cycle (R7, R201). -/
def State.posRead (s : State) (f : Nat) : Word × State :=
  let q := s.cycleStart
  let c := q.iface f
  let st := match c.lastStep with | some l => l.stamp | none => 0
  let s := s.setReg (TURNS f) (bvInt 32 (q.countTurns f))
  let s := s.setPair (POS_STAMP_LO f) (POS_STAMP_HI f) st
  let s := s.setPair (SPEED_LO f) (SPEED_HI f) (bvInt 64 (q.speedNow f))
  (BitVec.ofNat 32 (q.countC f), s.setReg (LAST_DEV f) c.dev)

def execPosRead (f : Fin 24) (s : State) : Host.Outcome State Fault Refusal :=
  .next (s.hostRead fun s => s.posRead f)

/-! ### Configuration (R178) -/

/-- The RW bits of a configuration register at offset `off` of an interface of kind `kind` (0 QENC, 1 AENC, 2 SSI), and whether it is
accepted at any time. -/
def fbCfgReg (kind off : Nat) : Option (Word × Bool) :=
  match off, kind with
  | 0x00, 2 => some (0x3F#32, false)
  | 0x00, _ => some (0x3#32, false)
  | 0x04, 0 => some (0x07FFFFFF#32, false)
  | 0x04, 1 => some (0x1FF#32, false)
  | 0x04, _ => some (0x3F3F3F3F#32, false)
  | 0x08, 0 => some (0xFFFFFFFF#32, false)
  | 0x08, 1 => some (0xFFFF#32, false)
  | 0x08, _ => some (0xFFFFFFFF#32, false)
  | 0x0C, 0 => some (0xFF#32, true)
  | 0x0C, 1 => some (0xFFFFFFFF#32, true)
  | 0x0C, _ => some (0xFFFFFF#32, false)
  | 0x10, 1 => some (0xFFFFFFFF#32, true)
  | 0x10, 2 => some (0xFFFFFFFF#32, true)
  | 0x14, 1 => some (0xFFFF#32, true)
  | 0x18, 1 => some (0xFFFFFF#32, true)
  | 0x1C, 1 => some (0xFFFFFF#32, true)
  | 0x20, 1 => some (0xFFFFFF#32, true)
  | 0x24, 1 => some (0xFF#32, true)
  | 0x30, _ => some (0xFC00FFFF#32, false)
  | 0x34, _ => some (0xFFFFFFFF#32, false)
  | 0x38, _ => some (0x3FFFF#32, false)
  | 0x3C, _ => some (0xFFFFFF#32, false)
  | _, _ => none

/-- A write of EN = 1 breaks a check of R178. -/
def State.fbEnRefused (s : State) (f : Nat) : Bool :=
  let i := f % 8
  let n := s.ssiBits i
  let fields := s.ssiMt i + s.ssiSt i
  let par := if s.ssiParity i = 0 then 0 else 1
  let err := s.fld (SSI_FRAME i) 29 24
  let z := if f < 8 then s.fld (QE_INPUTS i) 26 18 else s.fld (AE_INPUTS i) 8 0
  s.cpr f == 0 ||
  (decide (f < 8) && (decide (383 < s.fld (QE_INPUTS i) 8 0) || decide (383 < s.fld (QE_INPUTS i) 17 9))) ||
  (s.fbIndexed f && decide (383 < z)) ||
  (decide (16 ≤ f) && (s.ssiSt i == 0 || decide (32 < s.ssiSt i) || decide (31 < s.ssiMt i) || decide (48 < n) ||
    decide (n < fields + par) || (s.bit (SSI_CTRL i) 2 && (decide (err < fields) || decide (n ≤ err + par)))))

/-- EN has been set: the interface starts from ABS = 0, which is no motion of the compares that watch it, and a QENC without index has its
reference at once (R177, R190, R191, R197). -/
def State.fbStart (s : State) (f : Nat) : State :=
  let p0 := (s.iface f).abs
  let s := s.setIface f { Iface.init with
    a := decide (f < 8) && s.chanLevel (s.aCh f), b := decide (f < 8) && s.chanLevel (s.bCh f),
    gateStart := s.mt, nextFrame := s.mt }
  let s := (s.pcCorrected f p0 0).cvSample f
  let s := s.setFld (FB_STATUS f) 27 26 (if 16 ≤ f ∨ s.fld (SPD_CFG f) 17 16 = 2 then 2 else 1)
  if f < 8 then
    let s := s.setAtt f 1
    if s.fbIndexed f then s else s.refSet f
  else s

/-- EN has been cleared: the interface is not attached, and its shafts lose their reference. -/
def State.fbStop (s : State) (f : Nat) : State :=
  let s := s.setIface f { s.iface f with raw := [], frame := none, clk := true, idxPend := [], edges := [], zEdges := [],
                                              resampleAt := none, resample := none }
  let s := ((s.setFld (FB_STATUS f) 27 26 0).setBit (FB_STATUS f) 1 false).setAtt f 0 |>.cvFollow f
  s.encoderLost (fbSrc f) (fbIdx f)

/-- A write to a configuration register of an interface (R178). -/
def State.fbCfgWrite (s : State) (a : Nat) (v : Word) : State :=
  if a < 0x80000 ∨ 0x83000 ≤ a ∨ 0x800 ≤ (a - 0x80000) % 0x1000 then s
  else
    let f := (a - 0x80000) / 0x1000 * 8 + (a - 0x80000) % 0x1000 / 0x100
    let off := a % 0x100
    match fbCfgReg (f / 8) off with
    | none => s
    | some (mask, free) =>
      let old := s.reg a
      let new := mergeWord old v mask
      let en := s.fbEn f
      if off = 0 then
        let others := (old ^^^ new) &&& ~~~ (1#32) != 0
        if others && (bitOf old 0 || bitOf new 0) then s.raise (FB_STATUS f) 8
        else if !bitOf old 0 && bitOf new 0 then
          if s.fbEnRefused f then s.raise (FB_STATUS f) 8 else (s.setReg a new).fbStart f
        else if bitOf old 0 && !bitOf new 0 then (s.setReg a new).fbStop f
        else s.setReg a new
      else if en && !free then s.raise (FB_STATUS f) 8
      else s.setReg a new

def execFeedbackCfgWrite (addr : Nat) (v : Word) (s : State) : Host.Outcome State Fault Refusal :=
  .next (s.hostWrite addr v fun s => s.fbCfgWrite addr v)

/-! ### The SH_CTRL row, which needs the interface's reference (R146) -/

/-- A write to SH_CTRL or a geometry register of shaft `h`, with the reference of the interface that it selects. -/
def State.shWrite (s : State) (h off : Nat) (v : Word) : State :=
  s.shCtrlWrite h off v (s.ifaceRef (bitsOf v 6 4) (bitsOf v 11 8))

/-- SH_CTRL_WRITE. -/
def execShCtrlWrite (sh : Fin 16) (off : Nat) (v : Word) (s : State) : Host.Outcome State Fault Refusal :=
  .next (s.hostWrite (SH_CTRL sh + off) v fun s => s.shWrite sh off v)

end Sys2Proof.Machine
end

