-- ==== Sys2Proof/Machine/Adc.lean ====
section
/-!
DEFINITION. Analogue conversion: requests, converters, sinks and the ADC ledger (spec/13_analogue_conversion.md).
-/

namespace Sys2Proof.Machine

open Reg

/-! ### Requests (R276, R277) -/

/-- A write to ADC_REQ issues a request that reaches the sequencer two ticks later, after the requests of other sources. -/
def State.adcReqWrite (s : State) (v : Word) : State :=
  s.adcRequest (s.mt + 2) 1000000 s.now (bitsOf v 5 0) (bitOf v 7)

def execAdcReq (v : Word) (s : State) : Host.Outcome State Fault Refusal :=
  .next (s.hostWrite ADC_REQ v fun s => s.adcReqWrite v)

/-- Request `a` is taken before request `b`: by arrival, then in the order of R276. -/
def State.requestBefore (s : State) (a b : AdcRequest) : Bool :=
  let d := ahead a.arrive s.mt - ahead b.arrive s.mt
  decide (d < 0) || (d == 0 && decide (a.rank < b.rank))

/-- The first request of a list. -/
def State.firstRequest (s : State) : List AdcRequest → Option AdcRequest
  | [] => none
  | a :: rest =>
    match s.firstRequest rest with
    | some b => if s.requestBefore b a then some b else some a
    | none => some a

/-! ### Converters (R273, R274) -/

def State.adcState (s : State) (c : Nat) : Nat := s.fld (ADC_STATUS c) 2 0

/-- The converter with a new state; ADC_STATUS shows it, and the depth of its queue. -/
def State.putConv (s : State) (c st : Nat) (v : Converter) : State :=
  (s.setConv c v).setReg (ADC_STATUS c) (setBits (putBit (setBits 0 12 8 v.queue.length) 3 v.urgent.isSome) 2 0 st)

abbrev adcOff : Nat := 0
abbrev adcStartup : Nat := 1
abbrev adcAcq : Nat := 2
abbrev adcConv : Nat := 3
abbrev adcIdle : Nat := 4

/-- The converter is in ACQ or CONV in this tick, or enters ACQ in it (R279). -/
def State.adcBusy (s : State) (c : Nat) : Bool :=
  let st := s.adcState c
  st == adcAcq || st == adcConv ||
    (st == adcIdle && (!(s.conv c).queue.isEmpty || (s.conv c).urgent.isSome) &&
      (match (s.conv c).due with | some t => s.reached t | none => false))

/-- A conversion has joined: an idle converter acquires in the next tick, one that is off starts up first (R274). -/
def State.adcWake (s : State) (c : Nat) (v : Converter) : State :=
  match s.adcState c with
  | 0 => s.putConv c adcStartup { v with due := some (s.mt + 321) }
  | 4 =>
    let waiting := !(s.conv c).queue.isEmpty || (s.conv c).urgent.isSome
    s.putConv c adcIdle (if waiting then v else { v with due := some (s.mt + 1) })
  | st => s.putConv c st v

/-- A spill of the ADC ledger, with its interrupt event: 0 BUSY, 1 FULL, 2 CLOSED, 3 SAT. -/
def State.adcSpill (s : State) (which : Nat) : State :=
  let a := s.adc
  let a := match which with
    | 0 => { a with spillBusy := a.spillBusy + 1 }
    | 1 => { a with spillFull := a.spillFull + 1 }
    | 2 => { a with spillClosed := a.spillClosed + 1 }
    | _ => { a with spillSat := a.spillSat + 1 }
  { s with adc := a }.deliver 248 (some which)

/-- A conversion is issued: closed, dropped, urgent at the head, or queued (R277 to R279). -/
def State.adcIssue (s : State) (step : Word) (urgent : Bool) : State :=
  let s := { s with adc := { s.adc with issued := s.adc.issued + 1 } }
  let c := bitsOf step 9 8
  let v := s.conv c
  let x : Conv := { step := step, urgent := urgent, ain := s.prior (AIN_CFG (bitsOf step 4 0)) }
  if !bitOf (s.prior (ADC_CTRL c)) 0 || !(bitOf step 23 || bitOf step 30 || bitOf step 31) then s.adcSpill 2
  else if urgent then
    if s.adcBusy c || v.urgent.isSome then s.adcSpill 0
    else s.adcWake c { v with urgent := some x }
  else if 16 ≤ v.queue.length then s.adcSpill 1
  else s.adcWake c { v with queue := v.queue ++ [x] }

/-- A request at the sequencer: null, or expanded into the conversions of its trigger (R277). It finds every configuration register as it stood
before the writes of its own tick (R288). -/
def State.adcTake (s : State) (q : AdcRequest) : State :=
  let a := { s.adc with requests := s.adc.requests + 1 }
  let cfg := s.prior (ADC_TRIG_CFG q.trig.toNat)
  let n := min 8 (bitsOf cfg 3 0)
  if !bitOf cfg 31 || n == 0 then { s with adc := { a with reqNull := a.reqNull + 1 } }
  else foldBelow n (fun s i => s.adcIssue (s.prior (STEP ((bitsOf cfg 14 8 + i) % 128))) q.urgent)
    { s with adc := { a with expanded := a.expanded + 1 } }

/-- ADC_REQUEST_ARRIVAL: the first request that has arrived is taken. -/
def State.adcArrival (s : State) : State :=
  match s.firstRequest (s.adc.transit.filter (fun q => s.reached q.arrive)) with
  | some q => { s with adc := { s.adc with transit := s.adc.transit.erase q } }.adcTake q
  | none => s

def execAdcRequestArrival (s : State) : Host.Outcome State Fault Refusal :=
  .next (s.onTclk s.adcArrival)

/-- Acquisition begins: the urgent conversion, else the head of the queue, with the ACQ and the calibration of its input (R288). -/
def State.adcAcquire (s : State) (c : Nat) : State :=
  let v := s.conv c
  let go (x : Conv) (v : Converter) : State :=
    let j := bitsOf x.step 4 0
    let acq := max 48 (bitsOf (s.prior (AIN_CFG j)) 7 0)
    s.putConv c adcAcq { v with running := some x, due := some (s.mt + BitVec.ofNat 64 acq), cal := s.prior (AIN_CAL j) }
  match v.urgent, v.queue with
  | some x, _ => go x { v with urgent := none }
  | none, x :: rest => go x { v with queue := rest }
  | none, [] => s

def State.adcDue (s : State) (c st : Nat) : Bool :=
  s.adcState c == st && (match (s.conv c).due with | some t => s.reached t | none => false)

/-- ADC_STARTUP_END: the start-up is over, and the conversion that is due acquires. -/
def State.adcStartupEnd (s : State) (c : Nat) : State := if s.adcDue c adcStartup then s.adcAcquire c else s

def execAdcStartupEnd (c : Fin 4) (s : State) : Host.Outcome State Fault Refusal :=
  .next (s.onTclk (s.adcStartupEnd c))

/-- ADC_ACQ_START: an idle converter with a conversion due begins to acquire. -/
def State.adcAcqStart (s : State) (c : Nat) : State := if s.adcDue c adcIdle then s.adcAcquire c else s

def execAdcAcqStart (c : Fin 4) (s : State) : Host.Outcome State Fault Refusal :=
  .next (s.onTclk (s.adcAcqStart c))

/-- ADC_HOLD: the hold instant, the start of the first of 112 CONV ticks. -/
def State.adcHold (s : State) (c : Nat) : State :=
  if s.adcDue c adcAcq then s.putConv c adcConv { s.conv c with due := some (s.mt + 112) } else s

def execAdcHold (c : Fin 4) (s : State) : Host.Outcome State Fault Refusal :=
  .next (s.onTclk (s.adcHold c))

/-- The 10 µA currents that input `j` carries in this tick: one for each converter that acquires an open-wire check of it, true for a pull-up,
false for a pull-down (R285). -/
def State.ainCurrent (s : State) (j : Nat) : List Bool :=
  [0, 1, 2, 3].filterMap (fun c =>
    match (s.conv c).running with
    | some x => if s.adcState c == adcAcq && bitOf x.step 31 && bitsOf x.step 4 0 == j then some (!bitOf x.ain 28) else none
    | none => none)

/-! ### Results (R275, R280 to R285) -/

/-- The corrected code, rounded to even and clamped, and whether it was clamped (R275). -/
def adcCorrect (c : Nat) (cal : Word) (raw : BitVec 12) : Nat × Bool :=
  let fOfs := otpHalf (0xE00 + 4 * c)
  let fGain := otpHalf (0xE02 + 4 * c)
  let uOfs := signed 16 (bitsOf cal 15 0)
  let uGain := signed 16 (bitsOf cal 31 16)
  let r1 : ℚ := ((raw.toNat : ℚ) - (fOfs : ℚ) / 16) * ((fGain : ℚ) / 2 ^ 14)
  let r2 := roundEven ((r1 - (uOfs : ℚ) / 16) * ((uGain : ℚ) / 2 ^ 14))
  ((clampInt 0 4095 r2).toNat, decide (r2 < 0 ∨ 4095 < r2))

def State.accLength (s : State) (k : Nat) : Nat := s.fld (ACC_CFG k) 23 0

/-- A result for accumulator `k`, `alone` when it has no other sink: false when the accumulator is saturated (R280, R282). -/
def State.accAdd (s : State) (k r : Nat) (alone : Bool) : Bool × State :=
  let a := s.accum k
  let v := a.val
  let recent := a.hits.filter (fun (h : AccHit) => s.inCycle h.tick)
  if v.count = BitVec.allOnes 24 then
    let hits := recent ++ [{ tick := s.mt, r := r, before := v, ovw := false, sat := true, alone := alone }]
    (false, ((s.setAccum k { a with hits := hits }).setBit (ACC_STATUS k) 1 true).deliver 250 (some 1))
  else
    let sum := v.sum + BitVec.ofNat 40 r
    let count := v.count + 1
    let n := s.accLength k
    let full := decide (n ≠ 0 ∧ n ≤ count.toNat)
    let replaced := full && v.rcount != 0
    let hits := recent ++ [{ tick := s.mt, r := r, before := v, ovw := replaced, sat := false, alone := alone }]
    let s := s.setAccum k
      { val := if full then { sum := 0, count := 0, rsum := sum, rcount := count } else { v with sum := sum, count := count }, hits := hits }
    (true, if replaced then ((s.raise (ACC_STATUS k) 0).satCount (ACC_OVW_CNT k)).deliver 250 (some 0) else s)

def State.mmHits (s : State) (k : Nat) : List MmHit := s.adc.mmHits.get (fun _ => []) k

/-- The tracker `w` after result `r` (R284). -/
def mmWith (w : Word) (r : Nat) : Word := setBits (setBits w 15 0 (min (bitsOf w 15 0) r)) 31 16 (max (bitsOf w 31 16) r)

/-- A result for tracker `k` (R284). -/
def State.mmAdd (s : State) (k r : Nat) : State :=
  let w := s.reg (MM_RD k)
  let hits := (s.mmHits k).filter (fun (h : MmHit) => s.inCycle h.tick) ++ [{ tick := s.mt, r := r, before := w }]
  { s.setReg (MM_RD k) (mmWith w r) with adc := { s.adc with mmHits := s.adc.mmHits.set (fun _ => []) k hits } }

/-- The open-wire check of conversion `x`, with the threshold and the direction that it was issued with (R285, R288). -/
def State.openCheck (s : State) (x : Conv) (r : Nat) : State :=
  let j := bitsOf x.step 4 0
  let th := bitsOf x.ain 27 16
  let open_ := if bitOf x.ain 28 then decide (r ≤ th) else decide (th ≤ r)
  let was := s.bit OPEN_MAP j
  let s := s.setBit OPEN_MAP j open_
  if open_ && !was then s.deliver 249 (some j) else s

def State.adcDelivered (s : State) : State := { s with adc := { s.adc with delivered := s.adc.delivered + 1 } }

/-- A result goes to accumulator `k`: delivered, or spilled when that is saturated and it is the only sink (R282). -/
def State.accSink (s : State) (k r : Nat) (alone : Bool) : State :=
  let a := s.accAdd k r alone
  if !a.1 && alone then a.2.adcSpill 3 else a.2.adcDelivered

/-- The result of conversion `x` goes to its sinks. -/
def State.adcSink (s : State) (x : Conv) (r : Nat) : State :=
  if bitOf x.step 31 then (s.openCheck x r).adcDelivered
  else
    let s := if bitOf x.step 30 then s.mmAdd (bitsOf x.step 29 24) r else s
    if bitOf x.step 23 then s.accSink (bitsOf x.step 21 16) r (!bitOf x.step 30) else s.adcDelivered

/-- CONVERSION_DELIVERY: 112 ticks after the hold instant the result is delivered, and the converter goes on, or is idle (R273, R274). -/
def State.adcDeliver (s : State) (c : Nat) (raw : BitVec 12) : State :=
  if s.adcDue c adcConv then
    let v := s.conv c
    match v.running with
    | some x =>
      let r := adcCorrect c v.cal raw
      let s := if r.2 then s.satCount CLIP_CNT else s
      let s := s.adcSink x r.1
      let more := v.urgent.isSome || !v.queue.isEmpty
      let due := if more then some s.mt else if bitOf (s.prior (ADC_CTRL c)) 1 then none else some (s.mt + 1)
      s.putConv c adcIdle { v with running := none, due := due }
    | none => s
  else s

def execConversionDelivery (c : Fin 4) (raw : BitVec 12) (s : State) : Host.Outcome State Fault Refusal :=
  .next (s.onTclk (s.adcDeliver c raw))

/-- ADC_IDLE_OFF: with KEEP_ON = 0, as the present tick uses it (R288), an idle converter with no conversion due is off from the next tick. -/
def State.adcIdleOff (s : State) (c : Nat) : State :=
  let v := s.conv c
  if s.adcState c == adcIdle && v.queue.isEmpty && v.urgent.isNone && !bitOf (s.prior (ADC_CTRL c)) 1 &&
      (match v.due with | some t => s.reached t | none => true) then
    s.putConv c adcOff { v with due := none }
  else s

def execAdcIdleOff (c : Fin 4) (s : State) : Host.Outcome State Fault Refusal :=
  .next (s.onTclk (s.adcIdleOff c))

/-- ADC_STATUS as it reads: STARTUP begins in the tick after the arrival (R274). -/
def State.adcStatus (s : State) (c : Nat) : Word :=
  let early := match (s.conv c).due with | some t => decide (320 < ahead t s.mt) | none => false
  if s.adcState c == adcStartup && early then setBits (s.reg (ADC_STATUS c)) 2 0 adcOff else s.reg (ADC_STATUS c)

/-! ### Reads and configuration -/

/-- The readable sum and count of an accumulator that holds `v` (R280). -/
def AccVal.readable (v : AccVal) (length : Nat) : BitVec 40 × BitVec 24 := if length = 0 then (v.sum, v.count) else (v.rsum, v.rcount)

/-- What a clearing read leaves of it (R281). -/
def AccVal.cleared (v : AccVal) (length : Nat) : AccVal :=
  if length = 0 then { v with sum := 0, count := 0 } else { v with rsum := 0, rcount := 0 }

/-- The readable sum and count of accumulator `k`, at present. -/
def State.accValue (s : State) (k : Nat) : BitVec 40 × BitVec 24 := (s.accum k).val.readable (s.accLength k)

/-- The results that accumulator `k` has taken in the window `p` of an access. -/
def State.accWindow (s : State) (k : Nat) (p : Tick → Bool) : List AccHit := (s.accum k).hits.filter (fun (h : AccHit) => p h.tick)

/-- The readable sum and count before the results of the window (R7, R281). -/
def State.accSeen (s : State) (k : Nat) (p : Tick → Bool) : BitVec 40 × BitVec 24 :=
  match s.accWindow k p with
  | h :: _ => h.before.readable (s.accLength k)
  | [] => s.accValue k

/-- Count in bits 31..8, sum bits 39..32 in bits 7..0 (R281). -/
def accHigh (v : BitVec 40 × BitVec 24) : Word := v.2 ++ (v.1 >>> 32).truncate 8

/-- An event on its way has not occurred after all. -/
def State.dropEvent (s : State) (source cause : Nat) (t : Tick) : State :=
  { s with irqEvents := s.irqEvents.erase { source := source, bit := some cause, tick := t } }

/-- What arrived in the window has not arrived yet: OVW with its count, SAT, the ledger's entry and the events are taken back. -/
def State.accForget (s : State) (k : Nat) (p : Tick → Bool) (hits : List AccHit) : State :=
  let s := (s.undoHw (ACC_STATUS k) p).undoHw (ACC_OVW_CNT k) p
  hits.foldl (fun s (h : AccHit) =>
    let s := if h.ovw then s.dropEvent 250 0 h.tick else s
    let s := if h.sat then s.dropEvent 250 1 h.tick else s
    if h.sat && h.alone then { s with adc := { s.adc with spillSat := s.adc.spillSat - 1 } }.dropEvent 248 3 h.tick
    else { s with adc := { s.adc with delivered := s.adc.delivered - 1 } }) s

/-- A clearing read clears the readable value and SAT; what arrives in its window is kept in the cleared value, as if it arrived after the
read (R281, R283). -/
def State.accClear (s : State) (k : Nat) (p : Tick → Bool) : State :=
  let hits := s.accWindow k p
  let v := match hits with | h :: _ => h.before | [] => (s.accum k).val
  let s := if hits.isEmpty then s else s.accForget k p hits
  let s := (s.setAccum k { val := v.cleared (s.accLength k), hits := [] }).setBit (ACC_STATUS k) 1 false
  let s := hits.foldl (fun s (h : AccHit) => s.accSink k h.r h.alone) s
  s.setAccum k { s.accum k with hits := [] }

/-- A host read of ACC_RD_LO, or with `clear` of ACC_RDC_LO: the value as at the start of the BCLK cycle; it latches ACC_RD_HI. -/
def State.accRead (s : State) (k : Nat) (clear : Bool) : Word × State :=
  let v := s.accSeen k s.inCycle
  let s := s.setReg (ACC_RD_HI k) (accHigh v)
  (v.1.truncate 32, if clear then s.accClear k s.inCycle else s)

def execAccRdcLoRead (k : Fin 64) (s : State) : Host.Outcome State Fault Refusal :=
  .next (s.hostRead fun s => s.accRead k true)
def execAccRdLoRead (k : Fin 64) (s : State) : Host.Outcome State Fault Refusal :=
  .next (s.hostRead fun s => s.accRead k false)

/-- The results that tracker `k` has taken in the window `p` of an access. -/
def State.mmWindow (s : State) (k : Nat) (p : Tick → Bool) : List MmHit := (s.mmHits k).filter (fun (h : MmHit) => p h.tick)

/-- Tracker `k` before the results of the window (R7, R284). -/
def State.mmSeen (s : State) (k : Nat) (p : Tick → Bool) : Word :=
  match s.mmWindow k p with
  | h :: _ => h.before
  | [] => s.reg (MM_RD k)

/-- A reset of tracker `k`: it is emptied, and the results of the window are the first of the new span (R284). -/
def State.mmReset (s : State) (k : Nat) (p : Tick → Bool) : Word × State :=
  let w := (s.mmWindow k p).foldl (fun w (h : MmHit) => mmWith w h.r) 0x0000FFFF#32
  (s.mmSeen k p, { s.setReg (MM_RD k) w with adc := { s.adc with mmHits := s.adc.mmHits.set (fun _ => []) k [] } })

def execMmRdcRead (k : Fin 64) (s : State) : Host.Outcome State Fault Refusal :=
  .next (s.hostRead fun s => s.mmReset k s.inCycle)

/-- A write to ACC_CFG restarts the window; the result is kept (R283). -/
def State.accCfgWrite (s : State) (k : Nat) (v : Word) : State :=
  (s.setReg (ACC_CFG k) (v &&& 0xFFFFFF#32)).setAccum k { val := { (s.accum k).val with sum := 0, count := 0 }, hits := [] }

def execAccCfgWrite (k : Fin 64) (v : Word) (s : State) : Host.Outcome State Fault Refusal :=
  .next (s.hostWrite (ACC_CFG k) v fun s => s.accCfgWrite k v)

/-- IN_FLIGHT: conversions queued, waiting, running or waiting for delivery (R286). -/
def State.adcInFlight (s : State) : Nat :=
  ([0, 1, 2, 3].map (fun c =>
    let v := s.conv c
    v.queue.length + v.urgent.isSome.toNat + v.running.isSome.toNat)).sum

/-- A write to ADC_SNAP_CTRL: TAKE captures the ledger at the end of the tick (R287). -/
def State.adcSnap (s : State) (v : Word) : State := if bitOf v 0 then s.noteTake .adc else s

/-- The capture: every counter of the ledger, and MT (R287). -/
def State.takeAdc (s : State) : State :=
  let a := s.adc
  let s := s.setPair SNAP_REQUESTS_LO SNAP_REQUESTS_HI a.requests
  let s := s.setPair SNAP_EXPANDED_LO SNAP_EXPANDED_HI a.expanded
  let s := s.setPair SNAP_REQ_NULL_LO SNAP_REQ_NULL_HI a.reqNull
  let s := s.setPair SNAP_ISSUED_LO SNAP_ISSUED_HI a.issued
  let s := s.setPair SNAP_DELIVERED_LO SNAP_DELIVERED_HI a.delivered
  let s := s.setPair SNAP_SPILL_BUSY_LO SNAP_SPILL_BUSY_HI a.spillBusy
  let s := s.setPair SNAP_SPILL_FULL_LO SNAP_SPILL_FULL_HI a.spillFull
  let s := s.setPair ADC_SNAP_SPILL_CLOSED_LO ADC_SNAP_SPILL_CLOSED_HI a.spillClosed
  let s := s.setPair SNAP_SPILL_SAT_LO SNAP_SPILL_SAT_HI a.spillSat
  let s := s.setReg SNAP_IN_FLIGHT (BitVec.ofNat 32 s.adcInFlight)
  let s := s.setPair ADC_SNAP_MT_LO ADC_SNAP_MT_HI s.mt
  s.setFld ADC_SNAP_SEQ 15 0 (s.fld ADC_SNAP_SEQ 15 0 + 1)

/-- A write to TRIG_CFG, STEP, AIN_CFG, AIN_CAL or ADC_CTRL acts for requests that arrive from the next tick on (R288). -/
def State.adcCfgWrite (s : State) (a : Nat) (v : Word) : State := s.setNext a (mergeWord (s.reg a) v (rwMask a))

def execAdcSnapTake (v : Word) (s : State) : Host.Outcome State Fault Refusal :=
  .next (s.hostWrite ADC_SNAP_CTRL v fun s => s.adcSnap v)

end Sys2Proof.Machine
end

