-- ==== Sys2Proof/Machine/Irq.lean ====
section
/-!
DEFINITION. The interrupt controller: pending and cause bits, destinations, pins and MSI-X (spec/14_interrupts.md).
-/

namespace Sys2Proof.Machine

open Reg

/-! ### Active sources (R293, R294) -/

def State.irqPending (s : State) (i : Nat) : Bool := s.bit (IRQ_PEND (i / 32)) (i % 32)
def State.irqActive (s : State) (i : Nat) : Bool := s.irqPending i && s.bit (IRQ_ENA (i / 32)) (i % 32)

/-- The active sources, in rising order. -/
def State.activeSources (s : State) : List Nat :=
  (List.range 8).flatMap (fun w =>
    let m := s.reg (IRQ_PEND w) &&& s.reg (IRQ_ENA w)
    if m = 0 then [] else (List.range 32).filterMap (fun b => if bitOf m b then some (32 * w + b) else none))

def State.irqPrio (s : State) (i : Nat) : Nat := s.fld (ROUTE i) 2 0

/-- Source `i` is routed to destination `d`: IRQ_OUT[d] for d below 4, else MSI-X vector d − 4. -/
def State.routedTo (s : State) (d i : Nat) : Bool :=
  if d < 4 then s.bit (ROUTE i) 7 && s.fld (ROUTE i) 6 5 == d else s.bit (ROUTE i) 15 && s.fld (ROUTE i) 12 8 == d - 4

/-- The source of highest PRIO of a list in rising order; the first among equals. -/
def State.bestSource (s : State) : List Nat → Option Nat
  | [] => none
  | i :: rest =>
    match s.bestSource rest with
    | some j => if s.irqPrio i < s.irqPrio j then some j else some i
    | none => some i

/-- TOP[d] as it reads. -/
def State.topView (s : State) (d : Nat) : Word :=
  match s.bestSource (s.activeSources.filter (s.routedTo d)) with
  | some i => putBit (setBits (setBits 0 10 8 (s.irqPrio i)) 7 0 i) 31 true
  | none => 0

/-- The assert condition of IRQ_OUT[p] (R294). -/
def State.pinAsserted (s : State) (p : Nat) : Bool :=
  s.activeSources.any (fun i => s.routedTo p i && decide (s.fld (PIN_CFG p) 10 8 ≤ s.irqPrio i))

/-- PIN_CFG[p] as it reads. -/
def State.pinCfgView (s : State) (p : Nat) : Word := putBit (s.reg (PIN_CFG p)) 16 (s.pinAsserted p)

/-- The drive of ball IRQ_OUT[p] by MODE of PIN_CFG[p]; 0b11 acts as open-drain (R294, R362). -/
def State.irqOut (s : State) (p : Nat) : Pad :=
  let a := s.pinAsserted p
  if s.power.phase == .por || s.power.phase == .pinReset || s.power.phase == .hibernate then .z
  else match s.fld (PIN_CFG p) 1 0 with
    | 1 => if a then .low else .high
    | 2 => if a then .high else .low
    | _ => if a then .low else .z

/-! ### MSI-X (R295) -/

/-- Vector `v` or the function is masked. -/
def State.vecMasked (s : State) (v : Nat) : Bool := s.power.fnMask || s.bit (MSIX_CTRL v) 0

/-- The message of vector `v` may be sent. -/
def State.vecOpen (s : State) (v : Nat) : Bool := s.power.msixEnable && !s.vecMasked v

/-- A requested vector whose message may not be sent is pending in the pending-bit array. -/
def State.pbaNote (s : State) : State :=
  { s with power := { s.power with
      pba := (List.range 32).foldl (fun w v => putBit w v (bitOf s.power.msixReq v && !s.vecOpen v)) 0 } }

/-- Each vector with an active source that is not in service is requested, while MSI-X is enabled. -/
def State.msixScan (s : State) : State :=
  State.pbaNote <|
    if s.power.msixEnable then
      s.activeSources.foldl (fun s i =>
        let v := s.fld (ROUTE i) 12 8
        if s.bit (ROUTE i) 15 && !s.bit VEC_INSVC v then
          { s.setBit VEC_INSVC v true with power := { s.power with msixReq := putBit s.power.msixReq v true } }
        else s) s
    else s

/-- The pending-bit array as it reads. -/
def State.pbaView (s : State) : Word := s.power.pba

/-- MSI_X_MESSAGE: the message of a requested vector is sent, unless a mask or a disabled MSI-X holds it back. -/
def State.msixMessage (s : State) (v : Nat) : State :=
  if bitOf s.power.msixReq v && s.vecOpen v then
    { s with power := { s.power with msixReq := putBit s.power.msixReq v false, pba := putBit s.power.pba v false } }.send
      (.msix v (s.pair (MSIX_ADDR_LO v) (MSIX_ADDR_HI v)) (s.reg (MSIX_DATA v)))
  else s

def execMsiXMessage (v : Fin 32) (s : State) : Host.Outcome State Fault Refusal :=
  .next (s.onTclk (s.msixMessage v))

/-- A write to VEC_DONE ends the service of vectors; one with an active source is requested again. While MSI-X is disabled VEC_INSVC does
not change. -/
def State.vecDone (s : State) (v : Word) : State :=
  if s.power.msixEnable then (s.setReg VEC_INSVC (s.reg VEC_INSVC &&& ~~~ v)).msixScan else s

def execVecDone (v : Word) (s : State) : Host.Outcome State Fault Refusal :=
  .next (s.hostWrite VEC_DONE v fun s => s.vecDone v)

/-! ### The configuration space (R299) -/

/-- The values of R299: Device ID, Revision ID and Class Code; the Vendor and Subsystem IDs are those of OTP (R381). -/
def pcieDevice : BitVec 16 := 0x0384#16
def pcieRevision : Byte := 0x21#8
def pcieClass : BitVec 24 := 0x118000#24
def pcieVendor : BitVec 16 := Config.otpByte 7 ++ Config.otpByte 6
def pcieSubVendor : BitVec 16 := Config.otpByte 9 ++ Config.otpByte 8
def pcieSubsystem : BitVec 16 := Config.otpByte 11 ++ Config.otpByte 10

/-- The capabilities: Power Management, PCI Express, MSI-X, by their identifiers, and Advanced Error Reporting among the extended ones. MSI is
not implemented. -/
def pcieCapabilities : List Nat := [0x01, 0x10, 0x11]
def pcieExtended : List Nat := [0x0001]

/-- Max_Payload_Size supported in bytes; ASPM L1 and not L0s; no Function Level Reset; MSI-X Table Size; link speeds and width. -/
def pcieMaxPayload : Nat := 256
def pcieAspm : List Nat := [1]
def pcieFlr : Bool := false
def pcieMsixTableSize : Nat := 32
def pcieLanes : List Nat := [1, 2]
def pcieMegaTransfers : List Nat := [2500, 5000]

/-- The Type 0 header of the configuration space, by byte offset: BAR0 is 64 MiB of 32-bit memory, BAR2 16 MiB of 64-bit prefetchable memory;
the other BARs, BAR3 in the place of BAR2's upper half among them, the expansion ROM and the Interrupt Pin read 0. The offset of the capability list is its own (notes/assumptions/68.md). -/
def State.cfgHeader (s : State) (off : Nat) : Word :=
  let c := s.power.cfg
  match off with
  | 0x00 => pcieDevice ++ pcieVendor
  | 0x04 => 0x0010#16 ++ c.command
  | 0x08 => pcieClass ++ pcieRevision
  | 0x10 => c.bar0 &&& 0xFC000000#32
  | 0x18 => (c.bar2 &&& 0xFF000000#32) ||| 0xC#32
  | 0x2C => pcieSubsystem ++ pcieSubVendor
  | 0x34 => 0x40#32
  | 0x3C => c.intLine.zeroExtend 32
  | _ => 0

/-- A configuration write. Message Control holds MSI-X Enable in bit 15 and the function mask in bit 14 (notes/assumptions/68.md), and both
let pending messages go. -/
def State.pcieConfig (s : State) (r : CfgReg) (v : Word) : State :=
  let put (c : PciConfig) : State := { s with power := { s.power with cfg := c } }
  let c := s.power.cfg
  match r with
  | .msixControl => { s with power := { s.power with msixEnable := v.getLsbD 15, fnMask := v.getLsbD 14 } }.msixScan
  | .command => put { c with command := v.setWidth 16 &&& 0x0546#16 }
  | .bar0 => put { c with bar0 := v &&& 0xFC000000#32 }
  | .bar2Lo => put { c with bar2 := v &&& 0xFF000000#32 }
  | .bar2Hi => put c
  | .interruptLine => put { c with intLine := v.setWidth 8 }
  | .deviceControl => put { c with devCtl := v.setWidth 16 &&& 0x7FFF#16 }

def execPcieConfigWrite (r : CfgReg) (v : Word) (s : State) : Host.Outcome State Fault Refusal :=
  .next (s.pcieConfig r v)

/-! ### Pending bits (R292) -/

/-- Pending bits are set, and win over a clearing write of the same BCLK cycle. -/
def State.irqPendSet (s : State) (w : Nat) (m : Word) : State :=
  (foldBelow 32 (fun s b => s.raiseIf (bitOf m b) (IRQ_PEND w) b) s).msixScan

/-- A write to IRQ_PEND clears, but for the bits set in the same BCLK cycle. -/
def State.irqPendWrite (s : State) (w : Nat) (v : Word) : State :=
  s.setReg (IRQ_PEND w) (s.reg (IRQ_PEND w) &&& ~~~ (v &&& ~~~ s.keptBits (IRQ_PEND w)))

/-- IRQ_SET. -/
def State.irqSetWrite (s : State) (w : Nat) (v : Word) : State := s.irqPendSet w v

def execIrqSet (w : Fin 8) (v : Word) (s : State) : Host.Outcome State Fault Refusal :=
  .next (s.hostWrite (IRQ_SET w) v fun s => s.irqSetWrite w v)

/-- The controller is clocked: TCLK runs and no reset holds the block. -/
def State.irqRuns (s : State) : Bool := s.power.phase == .run

/-- IRQ_LATCH: the oldest delivered event sets its pending bit and its CAUSE bit. -/
def State.irqLatch (s : State) : State :=
  match s.irqEvents with
  | [] => s
  | e :: rest =>
    if s.irqRuns then
      let s := { s with irqEvents := rest }
      let s := match e.bit with | some b => s.raise (CAUSE e.source) b | none => s
      s.irqPendSet (e.source / 32) (BitVec.ofNat 32 (2 ^ (e.source % 32)))
    else s

def execIrqLatch (s : State) : Host.Outcome State Fault Refusal :=
  .next (s.onTclk s.irqLatch)

/-- The bits of the select register at address `a` (R291, R298). -/
def selectMask (a : Nat) : Option Word :=
  if a % 4 ≠ 0 then none
  else if 0x21000 ≤ a ∧ a < 0x21600 then some 0x1F#32
  else if 0x21800 ≤ a ∧ a < 0x21860 then some 0x3F#32
  else if 0x21900 ≤ a ∧ a < 0x21940 then some 0x1F#32
  else if 0x21A00 ≤ a ∧ a < 0x21A60 then some 0xF#32
  else if 0x21B00 ≤ a ∧ a < 0x21C00 then some 0x7#32
  else none

/-- A write to a select register. It acts on sub-events from the next tick on and delivers no event (R291). -/
def State.irqSelectWrite (s : State) (a : Nat) (v : Word) : State :=
  match selectMask a with
  | some m => s.setNext a (v &&& m)
  | none => s

def execIrqSelectWrite (addr : Nat) (v : Word) (s : State) : Host.Outcome State Fault Refusal :=
  .next (s.hostWrite addr v fun s => s.irqSelectWrite addr v)

end Sys2Proof.Machine
end

