-- ==== Sys2Proof/Machine/Crypto.lean ====
section
/-!
DEFINITION. The published algorithms that the spec names: SHA-256 and ECDSA P-256 (R215, FIPS 180-4 and 186), AES-128 with CMAC
(R308, NIST SP 800-38B) and Key Wrap (R316, RFC 3394). Blocks are numbers with byte 0 most significant, as the standards write them.
-/

namespace Sys2Proof.Machine

/-- The AES substitution table (FIPS 197), 32 bytes to a row, byte 0 lowest. -/
def sboxRows : List Nat :=
  [0xC072A49CAFA2D4ADF04759FA7DC982CA76ABD7FE2B670130C56F6BF27B777C63,
   0x75B227EBE28012079A059618C323C7041531D871F1E5A534CCF73F362693FDB7,
   0xCF584C4A39BECB6A5BB1FC20ED00D153842FE329B3D63B52A05A6E1B1A2C8309,
   0xD2F3FF1021DAB6BCF5389D928F40A351A89F3C507F02F94585334D43FBAAEFD0,
   0xDB0B5EDE14B8EE4688902A22DC4F816073195D643D7EA7C41744975FEC130CCD,
   0x08AE7A65EAF4566CA94ED58D6D37C8E779E4959162ACD3C25C2406490A3A32E0,
   0x9E1DC186B95735610EF6034866B53E708A8BBD4B1F74DDE8C6B4A61C2E2578BA,
   0x16BB54B00F2D99416842E6BF0D89A18CDF2855CEE9871E9B948ED9691198F8E1]

/-- The inverse AES substitution table. -/
def invSboxRows : List Nat :=
  [0xCBE9DEC444438E3487FF2F9B8239E37CFBD7F3819EA340BF38A53630D56A0952,
   0x25D18B6D49A25B76B224D92866A12E084EC3FA420B954CEE3D23C2A632947B54,
   0x849D8DA75746155EDAB9EDFD5048706C92B6655DCC5CA4D41698688664F6F872,
   0x6B8A130103BDAFC1020F3FCA8F1E2CD00645B3B80558E4F70AD3BC8C00ABD890,
   0x6EDF751CE837F9E28535ADE72274AC9673E6B4F0CECFF297EADC674F4111913A,
   0xF45ACD78FEC0DB9A2079D2C64B3E56FC1BBE18AA0E62B76F89C5291D711AF147,
   0xEF9CC9939F7AE52D0D4AB519A97F51605FEC8027591012B131C7078833A8DD1F,
   0x7D0C2155631469E126D677BA7E042B17619953833CBBEBC8B0F52AAE4D3BE0A0]

/-- The round constants of SHA-256 (FIPS 180). -/
def shaConst : List Nat :=
  [0x428A2F98, 0x71374491, 0xB5C0FBCF, 0xE9B5DBA5, 0x3956C25B, 0x59F111F1, 0x923F82A4, 0xAB1C5ED5,
   0xD807AA98, 0x12835B01, 0x243185BE, 0x550C7DC3, 0x72BE5D74, 0x80DEB1FE, 0x9BDC06A7, 0xC19BF174,
   0xE49B69C1, 0xEFBE4786, 0x0FC19DC6, 0x240CA1CC, 0x2DE92C6F, 0x4A7484AA, 0x5CB0A9DC, 0x76F988DA,
   0x983E5152, 0xA831C66D, 0xB00327C8, 0xBF597FC7, 0xC6E00BF3, 0xD5A79147, 0x06CA6351, 0x14292967,
   0x27B70A85, 0x2E1B2138, 0x4D2C6DFC, 0x53380D13, 0x650A7354, 0x766A0ABB, 0x81C2C92E, 0x92722C85,
   0xA2BFE8A1, 0xA81A664B, 0xC24B8B70, 0xC76C51A3, 0xD192E819, 0xD6990624, 0xF40E3585, 0x106AA070,
   0x19A4C116, 0x1E376C08, 0x2748774C, 0x34B0BCB5, 0x391C0CB3, 0x4ED8AA4A, 0x5B9CCA4F, 0x682E6FF3,
   0x748F82EE, 0x78A5636F, 0x84C87814, 0x8CC70208, 0x90BEFFFA, 0xA4506CEB, 0xBEF9A3F7, 0xC67178F2]

/-- The initial hash value of SHA-256. -/
def shaInit : List Nat :=
  [0x6A09E667, 0xBB67AE85, 0x3C6EF372, 0xA54FF53A, 0x510E527F, 0x9B05688C, 0x1F83D9AB, 0x5BE0CD19]
/-! ### Byte strings -/

/-- The number a byte string spells, first byte most significant. -/
def beNat (b : List Byte) : Nat := b.foldl (fun v x => v * 256 + x.toNat) 0

/-- The number a byte string spells, first byte least significant. -/
def leNat (b : List Byte) : Nat := b.foldr (fun x v => v * 256 + x.toNat) 0

/-- The `n` bytes of a number, most significant first. -/
def beBytes (n v : Nat) : List Byte := (List.range n).map (fun i => BitVec.ofNat 8 (v >>> (8 * (n - 1 - i))))

/-- The `n` bytes of a number, least significant first. -/
def leBytes (n v : Nat) : List Byte := (List.range n).map (fun i => BitVec.ofNat 8 (v >>> (8 * i)))

/-- The bytes of little-endian words. -/
def wordBytes (ws : List Word) : List Byte := ws.flatMap (fun w => leBytes 4 w.toNat)

/-- The little-endian words of a byte string; a last part word is padded with 0. -/
def bytesWords (b : List Byte) : List Word :=
  (List.range ((b.length + 3) / 4)).map (fun i => BitVec.ofNat 32 (leNat ((b.drop (4 * i)).take 4)))

/-- Blocks of `n` bytes; the last may be shorter. -/
def blocksOf (n : Nat) (b : List Byte) : List (List Byte) :=
  (List.range ((b.length + n - 1) / n)).map (fun i => (b.drop (n * i)).take n)

/-! ### SHA-256 -/

def shaBig (a b c : Nat) (x : Word) : Word := x.rotateRight a ^^^ x.rotateRight b ^^^ x.rotateRight c
def shaSmall (a b c : Nat) (x : Word) : Word := x.rotateRight a ^^^ x.rotateRight b ^^^ (x >>> c)

/-- The message schedule of a block, newest word first. -/
def shaSchedule (w : List Word) : Nat → List Word
  | 0 => w
  | n + 1 =>
    let x := w.getD 15 0 + shaSmall 7 18 3 (w.getD 14 0) + w.getD 6 0 + shaSmall 17 19 10 (w.getD 1 0)
    shaSchedule (x :: w) n

/-- One round on the eight working words. -/
def shaRound (v : List Word) (kw : Word) : List Word :=
  let a := v.getD 0 0; let b := v.getD 1 0; let c := v.getD 2 0; let d := v.getD 3 0
  let e := v.getD 4 0; let f := v.getD 5 0; let g := v.getD 6 0; let h := v.getD 7 0
  let t1 := h + shaBig 6 11 25 e + ((e &&& f) ^^^ (~~~e &&& g)) + kw
  let t2 := shaBig 2 13 22 a + ((a &&& b) ^^^ (a &&& c) ^^^ (b &&& c))
  [t1 + t2, a, b, c, d + t1, e, f, g]

/-- One block. -/
def shaBlock (h : List Word) (block : List Byte) : List Word :=
  let w := ((blocksOf 4 block).map (fun b => BitVec.ofNat 32 (beNat b))).reverse
  let ks := (shaSchedule w 48).reverse
  let v := (List.zip ks shaConst).foldl (fun v p => shaRound v (p.1 + BitVec.ofNat 32 p.2)) h
  List.zipWith (· + ·) h v

/-- The padded message. -/
def shaPad (m : List Byte) : List Byte :=
  let zeros := (119 - m.length % 64) % 64
  m ++ (0x80#8 :: List.replicate zeros 0#8) ++ beBytes 8 (8 * m.length)

/-- SHA-256 of a byte string, as a number with the first output byte most significant. -/
def sha256 (m : List Byte) : BitVec 256 :=
  let h := (blocksOf 64 (shaPad m)).foldl shaBlock (shaInit.map (BitVec.ofNat 32))
  BitVec.ofNat 256 (h.foldl (fun v w => v * 2 ^ 32 + w.toNat) 0)

/-! ### AES-128 -/

def tableByte (rows : List Nat) (x : Byte) : Byte := BitVec.ofNat 8 (rows.getD (x.toNat / 32) 0 >>> (8 * (x.toNat % 32)))
def subByte (x : Byte) : Byte := tableByte sboxRows x
def invSubByte (x : Byte) : Byte := tableByte invSboxRows x

/-- Multiplication by x in GF(2^8). -/
def xtime (x : Byte) : Byte := if x.getLsbD 7 then (x <<< 1) ^^^ 0x1B#8 else x <<< 1

/-- Multiplication by a constant below 16 in GF(2^8). -/
def gmul (c : Nat) (x : Byte) : Byte :=
  let x2 := xtime x; let x4 := xtime x2; let x8 := xtime x4
  (if c.testBit 0 then x else 0) ^^^ (if c.testBit 1 then x2 else 0) ^^^ (if c.testBit 2 then x4 else 0) ^^^
    (if c.testBit 3 then x8 else 0)

def xorBytes (a b : List Byte) : List Byte := List.zipWith (· ^^^ ·) a b

/-- The next round key. -/
def nextKey (k : List Byte) (rcon : Byte) : List Byte :=
  let last := (k.drop 12).take 4
  let t := xorBytes ((last.drop 1 ++ last.take 1).map subByte) [rcon, 0, 0, 0]
  let w0 := xorBytes (k.take 4) t
  let w1 := xorBytes ((k.drop 4).take 4) w0
  let w2 := xorBytes ((k.drop 8).take 4) w1
  w0 ++ w1 ++ w2 ++ xorBytes last w2

/-- The eleven round keys, last first. -/
def roundKeys (k : List Byte) : List (List Byte) :=
  ([0x01, 0x02, 0x04, 0x08, 0x10, 0x20, 0x40, 0x80, 0x1B, 0x36] : List Byte).foldl
    (fun ks r => nextKey (ks.headD []) r :: ks) [k]

def pick (s : List Byte) (idx : List Nat) : List Byte := idx.map (fun i => s.getD i 0)
def shiftRows (s : List Byte) : List Byte := pick s [0, 5, 10, 15, 4, 9, 14, 3, 8, 13, 2, 7, 12, 1, 6, 11]
def invShiftRows (s : List Byte) : List Byte := pick s [0, 13, 10, 7, 4, 1, 14, 11, 8, 5, 2, 15, 12, 9, 6, 3]

/-- One column times the circulant matrix of `c`. -/
def mixColumn (c : List Nat) (col : List Byte) : List Byte :=
  (List.range 4).map (fun i =>
    (List.range 4).foldl (fun v j => v ^^^ gmul (c.getD ((4 + j - i) % 4) 0) (col.getD j 0)) 0)
def mixColumns (c : List Nat) (s : List Byte) : List Byte := (blocksOf 4 s).flatMap (mixColumn c)

/-- AES-128 encryption of one block. -/
def aesEncrypt (key block : List Byte) : List Byte :=
  match (roundKeys key).reverse with
  | k0 :: ks =>
    let mid := (ks.take 9).foldl (fun s k => xorBytes (mixColumns [2, 3, 1, 1] (shiftRows (s.map subByte))) k) (xorBytes block k0)
    xorBytes (shiftRows (mid.map subByte)) (ks.getD 9 [])
  | [] => block

/-- AES-128 decryption of one block. -/
def aesDecrypt (key block : List Byte) : List Byte :=
  match roundKeys key with
  | k10 :: ks =>
    let mid := (ks.take 9).foldl
      (fun s k => mixColumns [14, 11, 13, 9] (xorBytes ((invShiftRows s).map invSubByte) k)) (xorBytes block k10)
    xorBytes ((invShiftRows mid).map invSubByte) key
  | [] => block

/-! ### CMAC and Key Wrap -/

/-- Doubling of a block for the CMAC subkeys. -/
def cmacDouble (b : List Byte) : List Byte :=
  let v := BitVec.ofNat 128 (beNat b)
  beBytes 16 ((if v.getLsbD 127 then (v <<< 1) ^^^ 0x87#128 else v <<< 1).toNat)

/-- AES-CMAC. -/
def aesCmac (key msg : List Byte) : List Byte :=
  let k1 := cmacDouble (aesEncrypt key (List.replicate 16 0))
  let k2 := cmacDouble k1
  let bs := blocksOf 16 msg
  let last := bs.getLastD []
  let fin := if last.length = 16 then xorBytes last k1
             else xorBytes (last ++ 0x80#8 :: List.replicate (15 - last.length) 0#8) k2
  let x := bs.dropLast.foldl (fun x b => aesEncrypt key (xorBytes x b)) (List.replicate 16 0#8)
  aesEncrypt key (xorBytes x fin)

/-- AES Key Wrap of RFC 3394, inverse direction, for a wrapped key of three 8-byte blocks: the key, or none when the integrity check
fails. -/
def keyUnwrap (kek wrapped : List Byte) : Option (List Byte) :=
  let step := fun (st : List Byte × List Byte × List Byte) (t : Nat) =>
    let r := if t % 2 = 0 then st.2.2 else st.2.1
    let a := xorBytes st.1 (beBytes 8 t)
    let b := aesDecrypt kek (a ++ r)
    if t % 2 = 0 then (b.take 8, st.2.1, b.drop 8) else (b.take 8, b.drop 8, st.2.2)
  let r := [12, 11, 10, 9, 8, 7, 6, 5, 4, 3, 2, 1].foldl step
    (wrapped.take 8, (wrapped.drop 8).take 8, (wrapped.drop 16).take 8)
  if r.1 = List.replicate 8 0xA6#8 then some (r.2.1 ++ r.2.2) else none

/-! ### ECDSA over P-256 (FIPS 186) -/

/-- The prime of the field, the order of the base point, and the coefficient b of y² = x³ − 3x + b. -/
def p256Prime : Nat := 0xFFFFFFFF00000001000000000000000000000000FFFFFFFFFFFFFFFFFFFFFFFF
def p256Order : Nat := 0xFFFFFFFF00000000FFFFFFFFFFFFFFFFBCE6FAADA7179E84F3B9CAC2FC632551
def p256B : Nat := 0x5AC635D8AA3A93E7B3EBBD55769886BC651D06B0CC53B0F63BCE3C3E27D2604B

/-- The base point. -/
def p256Base : Nat × Nat :=
  (0x6B17D1F2E12C4247F8BCE6E563A440F277037D812DEB33A0F4A13945D898C296, 0x4FE342E2FE1A7F9B8EE7EB4A7C0F9E162BCE33576B315ECECBB6406837BF51F5)

/-- The 256 bits of a number, most significant first. -/
def bits256 (e : Nat) : List Bool := (List.range 256).map (fun i => e.testBit (255 - i))

/-- x^e modulo m, for e below 2^256. -/
def powMod (m x e : Nat) : Nat := (bits256 e).foldl (fun y b => if b then y * y % m * x % m else y * y % m) 1

/-- The inverse of x modulo the prime m. -/
def invMod (m x : Nat) : Nat := powMod m x (m - 2)

/-- A point of the curve: x = X / Z², y = Y / Z³; the point at infinity has Z = 0. -/
structure CurvePoint where
  x : Nat
  y : Nat
  z : Nat
deriving DecidableEq, Repr

/-- a − b in the field, for b below the prime. -/
def fieldSub (a b : Nat) : Nat := (a + (p256Prime - b)) % p256Prime
def fieldMul (a b : Nat) : Nat := a * b % p256Prime

/-- A point added to itself. -/
def CurvePoint.double (p : CurvePoint) : CurvePoint :=
  let yy := fieldMul p.y p.y
  let s := fieldMul 4 (fieldMul p.x yy)
  let zz := fieldMul p.z p.z
  let m := fieldMul 3 (fieldMul (fieldSub p.x zz) ((p.x + zz) % p256Prime))
  let x := fieldSub (fieldMul m m) (fieldMul 2 s)
  { x := x, y := fieldSub (fieldMul m (fieldSub s x)) (fieldMul 8 (fieldMul yy yy)), z := fieldMul 2 (fieldMul p.y p.z) }

/-- The sum of two points. -/
def CurvePoint.add (p q : CurvePoint) : CurvePoint :=
  if p.z = 0 then q
  else if q.z = 0 then p
  else
    let z1 := fieldMul p.z p.z
    let z2 := fieldMul q.z q.z
    let u1 := fieldMul p.x z2
    let s1 := fieldMul p.y (fieldMul z2 q.z)
    let h := fieldSub (fieldMul q.x z1) u1
    let r := fieldSub (fieldMul q.y (fieldMul z1 p.z)) s1
    if h = 0 then (if r = 0 then p.double else { x := 1, y := 1, z := 0 })
    else
      let h2 := fieldMul h h
      let h3 := fieldMul h2 h
      let v := fieldMul u1 h2
      let x := fieldSub (fieldSub (fieldMul r r) h3) (fieldMul 2 v)
      { x := x, y := fieldSub (fieldMul r (fieldSub v x)) (fieldMul s1 h3), z := fieldMul h (fieldMul p.z q.z) }

/-- u × P + v × Q, for u and v below 2^256. -/
def twoTimes (u : Nat) (p : CurvePoint) (v : Nat) (q : CurvePoint) : CurvePoint :=
  let both := p.add q
  (List.zip (bits256 u) (bits256 v)).foldl (fun r b =>
    let r := r.double
    match b with
    | (true, true) => r.add both
    | (true, false) => r.add p
    | (false, true) => r.add q
    | (false, false) => r) { x := 1, y := 1, z := 0 }

/-- The signature (r, s) of a digest verifies under the public key (x, y). -/
def ecdsaValid (digest x y r s : Nat) : Bool :=
  let n := p256Order
  if r = 0 ∨ n ≤ r ∨ s = 0 ∨ n ≤ s ∨ p256Prime ≤ x ∨ p256Prime ≤ y then false
  else if y * y % p256Prime ≠ (x * x * x + p256B + 3 * (p256Prime - x)) % p256Prime then false
  else
    let w := invMod n s
    let t := twoTimes (digest * w % n) { x := p256Base.1, y := p256Base.2, z := 1 } (r * w % n) { x := x, y := y, z := 1 }
    if t.z = 0 then false
    else
      let i := invMod p256Prime t.z
      fieldMul t.x (fieldMul i i) % n == r

/-- The ECDSA verification of a digest: the key is X then Y, the signature r then s, all big-endian (R215). -/
def ecdsaVerify (digest : BitVec 256) (key sig : List Byte) : Bool :=
  ecdsaValid digest.toNat (beNat (key.take 32)) (beNat (key.drop 32)) (beNat (sig.take 32)) (beNat (sig.drop 32))

end Sys2Proof.Machine
end

