-- ==== Sys2Proof/Machine/Engine.lean ====
section
/-!
DEFINITION. Threads and the engine of a cluster: states, selection, waits, microwords, faults and host control
(spec/10_microengine.md, R202 to R214). A selection is made at the end of its microcycle, from the threads that are then READY; the thread
that it names becomes RUNNING after the switch microcycle, in the tick `switching` of its first microword.
-/

namespace Sys2Proof.Machine

open Reg

/-! ### Thread registers and states (R202, R221) -/

def State.thState (s : State) (n t : Nat) : Nat := s.fld (TH_STATUS n t) 2 0
def State.thPrio (s : State) (n t : Nat) : Nat := s.fld (TH_CTRL n t) 9 8
def State.thPc (s : State) (n t : Nat) : Nat := s.fld (TH_PC n t) 15 0
def State.thStamp (s : State) (n t : Nat) : Stamp := s.pair (TH_STAMP_LO n t) (TH_STAMP_HI n t)
def State.setThStamp (s : State) (n t : Nat) (v : Stamp) : State :=
  (s.setRw (TH_STAMP_LO n t) (loWord v)).setRw (TH_STAMP_HI n t) (hiWord v)
def State.g (s : State) (n t i : Nat) : Word := s.reg (G n t i)
def State.setG (s : State) (n t i : Nat) (v : Word) : State := s.setRw (G n t i) v

/-- The thread's PC, a local RAM byte address with bits 1..0 at 0 (R222). -/
def State.setThPc (s : State) (n t pc : Nat) : State := s.setRw (TH_PC n t) (BitVec.ofNat 32 (pc % 65536 / 4 * 4))

/-- STATE and WAIT_KIND of TH_STATUS. -/
def State.setThState (s : State) (n t st kind : Nat) : State :=
  s.setReg (TH_STATUS n t) (setBits (setBits (s.reg (TH_STATUS n t)) 7 4 kind) 2 0 st)

/-- HALTED, READY, RUNNING, WAITING and FAULTED. -/
abbrev thHalted : Nat := 1
abbrev thReady : Nat := 2
abbrev thRunning : Nat := 3
abbrev thWaiting : Nat := 4
abbrev thFaulted : Nat := 5

/-- The thread is HALTED or FAULTED: its context can be written (R213). -/
def State.thIdle (s : State) (n t : Nat) : Bool := s.thState n t == thHalted || s.thState n t == thFaulted

/-- The running thread of cluster `n`, from RUN_VALID and RUN_TH. -/
def State.runningThread (s : State) (n : Nat) : Option Nat :=
  if s.bit (CL_STATUS n) 20 then some (s.fld (CL_STATUS n) 19 16) else none

def State.setRunning (s : State) (n : Nat) (t : Option Nat) : State :=
  let w := putBit (setBits (s.reg (CL_STATUS n)) 19 16 (t.getD 0)) 20 t.isSome
  s.setReg (CL_STATUS n) w

/-! ### Selection (R204 to R206) -/

/-- The clock of the engine runs: no gating, no reset of the cluster, MCLK on (R349, R351, R355, R361). -/
def State.engineRuns (s : State) (n : Nat) : Bool :=
  s.power.phase == .run && s.power.bclk && !s.bit CG_MAP n && (s.engine n).resetEnd.isNone

/-- The swap that is FIXED names cluster `n` (R253). -/
def State.swapHolds (s : State) (n : Nat) : Bool := s.bit SWAP_STATUS 28 && s.bit SWAP_MASK n

/-- The engine of cluster `n` may select a thread (R12, R211, R253). -/
def State.maySelect (s : State) (n : Nat) : Bool :=
  s.engineRuns n && s.ucodeValid && !s.bit (CL_STATUS n) 31 && !s.swapHolds n

def lastAt (l : Nat × Nat × Nat × Nat) (p : Nat) : Nat :=
  match p with | 0 => l.1 | 1 => l.2.1 | 2 => l.2.2.1 | _ => l.2.2.2

def setLast (l : Nat × Nat × Nat × Nat) (p t : Nat) : Nat × Nat × Nat × Nat :=
  match p with
  | 0 => (t, l.2) | 1 => (l.1, t, l.2.2) | 2 => (l.1, l.2.1, t, l.2.2.2) | _ => (l.1, l.2.1, l.2.2.1, t)

/-- The READY threads of priority `p`, in rising order. -/
def State.readyAt (s : State) (n p : Nat) : List Nat :=
  (List.range 16).filter (fun t => s.thState n t == thReady && s.thPrio n t == p)

/-- The thread that a selection takes: the highest priority, and within it the lowest index above the one selected last (R204). -/
def State.pickThread (s : State) (n : Nat) : Option Nat :=
  match [3, 2, 1, 0].find? (fun p => !(s.readyAt n p).isEmpty) with
  | none => none
  | some p =>
    let c := s.readyAt n p
    match c.find? (fun t => decide (lastAt (s.engine n).lastSel p < t)) with
    | some t => some t
    | none => c.head?

/-- Microcycles in which the thread's microwords execute. -/
def State.runCycles (s : State) (n t k : Nat) : State :=
  let s := s.setReg (CL_BUSY n) (s.reg (CL_BUSY n) + BitVec.ofNat 32 k)
  let s := s.setReg (TH_RUN n t) (s.reg (TH_RUN n t) + BitVec.ofNat 32 k)
  let e := s.engine n
  s.setEngine n { e with ran := e.ran + k, sincePoll := e.sincePoll + k }

/-- The interval since the last POLL of the running thread ends with a POLL, and CL_POLL_MAX keeps the longest (R208). -/
def State.notePoll (s : State) (n : Nat) : State :=
  let e := s.engine n
  let more := decide ((s.reg (CL_POLL_MAX n)).toNat < e.sincePoll)
  let s := (if more then s.setReg (CL_POLL_MAX n) (BitVec.ofNat 32 e.sincePoll) else s).noteHw (CL_POLL_MAX n) (64 + e.sincePoll) more
  s.setEngine n { s.engine n with sincePoll := 0 }

/-- The tick in which the microcycle of the present tick began (R14). -/
def State.microStart (s : State) : Tick := if s.mt.getLsbD 0 then s.mt - 1 else s.mt

/-- A selection names thread `t`: its first microword comes two microcycles after that of the selection (R204, R206). -/
def State.switchTo (s : State) (n t : Nat) : State :=
  let e := s.engine n
  (s.setEngine n { e with lastSel := setLast e.lastSel (s.thPrio n t) t, switching := some (t, s.microStart + 4) }).count (CL_SWITCH_CNT n)

/-- A thread that is stopped while its switch is under way is not selected any more: its next START waits for a selection of its own (R204). -/
def State.dropSwitch (s : State) (n t : Nat) : State :=
  let e := s.engine n
  if e.switching.map Prod.fst = some t then s.setEngine n { e with switching := none } else s

/-- The thread whose switch is under way, while it is READY. -/
def State.switchingThread (s : State) (n : Nat) : Option (Nat × Tick) :=
  match (s.engine n).switching with
  | some p => if s.thState n p.1 == thReady then some p else none
  | none => none

/-- A microcycle ends in which no thread is RUNNING: the engine of cluster `n` selects, unless a switch is under way (R204). -/
def State.engineTick (s : State) (n : Nat) : State :=
  if s.maySelect n && (s.runningThread n).isNone && (s.switchingThread n).isNone then
    match s.pickThread n with
    | some t => s.switchTo n t
    | none => s
  else s

/-- A switch of cluster `n` is over: the thread is RUNNING. One that owes the two microcycles after a reservoir access comes to the boundary
of that instruction in the second of them (R206, R233). -/
def State.engineBegin (s : State) (n : Nat) : State :=
  match s.switchingThread n with
  | some (t, at_) =>
    if s.engineRuns n && s.reached at_ then
      let owes := decide ((s.thread n t).owes = 2)
      let s := s.setEngine n { s.engine n with switching := none, ran := 0, sincePoll := 0, pollDue := owes,
                                               freeAt := if owes then s.mt + 2 else s.mt }
      let s := (s.setThState n t thRunning 0).setRunning n (some t)
      if owes then (s.runCycles n t 1).setThread n t { s.thread n t with owes := 0 } else s
    else s
  | none => s

/-- The running thread leaves the engine for state `st`; the end of the microcycle selects another. -/
def State.leaveEngine (s : State) (n t st kind : Nat) : State := (s.setThState n t st kind).setRunning n none

/-- Thread `t` becomes READY. -/
def State.makeReady (s : State) (n t : Nat) : State := s.setThState n t thReady 0

/-! ### Faults (R210) -/

/-- Thread `t` enters FAULTED with its fault fields; a running one leaves the engine. How many microcycles the detection took is not
stated: a free value below 64. -/
def State.faultThread (s : State) (n t code : Nat) (info : Word) : State :=
  let ran := s.runningThread n == some t
  let s := if ran then (s.runCycles n t (s.freeValue.toNat % 64)).useFree else s
  let s := s.setReg (FAULT_PC n t) (s.reg (TH_PC n t))
  let s := s.setReg (FAULT_INFO n t) info
  let s := s.setFld (TH_STATUS n t) 23 16 code
  let s := (s.setThread n t { s.thread n t with wait := .none, metAt := none, haltReq := false, owes := 0 }).threadFaultEvent n t
  if ran then s.leaveEngine n t thFaulted 0 else s.setThState n t thFaulted 0

/-! ### Microwords (R207, R208) -/

/-- The thread that can execute a microword in the present tick: RUNNING, at the start of an MCLK cycle, its turn come. -/
def State.microThread (s : State) (n : Nat) : Option Nat :=
  if s.engineRuns n && !s.mt.getLsbD 0 && s.reached (s.engine n).freeAt then s.runningThread n else none

/-- The word at micro-store address `a` of every cluster. -/
def State.microword (s : State) (a : BitVec 12) : Word := s.ustore.get (fun _ => 0) a.toNat

def microOp (w : Word) : Nat := bitsOf w 31 20
def microNext (w : Word) : BitVec 12 := BitVec.ofNat 12 (bitsOf w 19 8)

/-- Address of the microword after word `w`, given the tested condition. -/
def nextMicro (w : Word) (cond : Bool) : BitVec 12 :=
  if 2 ≤ microOp w ∧ microOp w ≤ 15 then microNext w ||| (BitVec.ofBool cond).zeroExtend 12 else microNext w

/-- One microcycle of thread `t`, which goes on at address `a`. -/
def State.microStep (s : State) (n t : Nat) (a : BitVec 12) : State :=
  let s := (s.runCycles n t 1).setThread n t { s.thread n t with upc := a }
  s.setEngine n { s.engine n with freeAt := s.mt + 2 }

/-- TRAP: the running thread faults with MICRO_TRAP. The microcode's faulting instruction is the one at TH_PC, and FAULT_INFO has no
stated content: a free value. -/
def State.trap (s : State) (n : Nat) : State :=
  match s.microThread n with
  | some t =>
    if !(s.engine n).pollDue && microOp (s.microword (s.thread n t).upc) == 0 then
      s.useFree.faultThread n t 6 (s.freeValue.truncate 32)
    else s
  | none => s

def execTrapWord (n : Fin 24) (s : State) : Host.Outcome State Fault Refusal :=
  .next (s.onTclk (s.trap n))

/-- The running thread gives up the engine at a POLL by R205, or to a FIXED swap by R253. -/
def State.givesUp (s : State) (n t : Nat) : Bool :=
  let p := s.thPrio n t
  let q := s.fld (CL_CTRL n) 15 0
  [0, 1, 2, 3].any (fun j => decide (p < j) && !(s.readyAt n j).isEmpty) ||
    (q != 0 && decide (q ≤ (s.engine n).ran) && !(s.readyAt n p).isEmpty) || s.swapHolds n

/-- POLL: the interval is noted, a written HALT takes effect (R212), and the thread gives up the engine or continues (R205). -/
def State.poll (s : State) (n : Nat) : State :=
  match s.microThread n with
  | some t =>
    let w := s.microword (s.thread n t).upc
    let boundary := (s.engine n).pollDue
    if boundary || microOp w == 1 then
      let s := s.microStep n t (if boundary then (s.thread n t).upc else microNext w)
      let s := s.notePoll n
      let s := s.setEngine n { s.engine n with pollDue := false }
      if (s.thread n t).haltReq then
        (s.setThread n t { s.thread n t with haltReq := false }).leaveEngine n t thHalted 0
      else if s.givesUp n t then s.leaveEngine n t thReady 0
      else s
    else s
  | none => s

def execPoll (n : Fin 24) (s : State) : Host.Outcome State Fault Refusal :=
  .next (s.onTclk (s.poll n))

/-- A two-way branch microword; the tested condition is internal to the microcode and comes with the command. -/
def State.microBranch (s : State) (n : Nat) (cond : Bool) : State :=
  match s.microThread n with
  | some t =>
    let w := s.microword (s.thread n t).upc
    if !(s.engine n).pollDue && decide (2 ≤ microOp w) && decide (microOp w ≤ 15) then s.microStep n t (nextMicro w cond) else s
  | none => s

def execMicroBranch (n : Fin 24) (cond : Bool) (s : State) : Host.Outcome State Fault Refusal :=
  .next (s.onTclk (s.microBranch n cond))

/-- A micro-store fetch of the running thread finds a parity error (R211). -/
def State.ustoreParity (s : State) (n t : Nat) : State :=
  let s := s.setReg (CL_STATUS n) (putBit (putBit (s.reg (CL_STATUS n)) 31 true) 30 true)
  (s.useFree.faultThread n t 7 (s.freeValue.truncate 32)).ustoreEvent n

/-- A datapath microword goes on at NEXT; its internal operation is not published. Whether the fetch finds a parity error comes with
the command. -/
def State.datapathMicroword (s : State) (n : Nat) (parityError : Bool) : State :=
  match s.microThread n with
  | some t =>
    let w := s.microword (s.thread n t).upc
    if parityError then s.ustoreParity n t
    else if !(s.engine n).pollDue && decide (16 ≤ microOp w) then s.microStep n t (microNext w)
    else s
  | none => s

def execDatapathMicroword (n : Fin 24) (parityError : Bool) (s : State) : Host.Outcome State Fault Refusal :=
  .next (s.onTclk (s.datapathMicroword n parityError))

/-! ### Waits (R203, R244, R245, R248) -/

/-- The condition of a wait holds in the present tick: the status that the wait ends with. -/
def State.waitMet (s : State) (w : Wait) : Option Nat :=
  match w with
  | .time target => if 0 ≤ ahead s.now target then some 0x0 else none
  | .angle h theta rev deadline =>
    let d := ahead (s.shPos h) theta
    if (if rev then d ≤ 0 else 0 ≤ d) then some 0x0
    else if !s.shSync h then some 0x6
    else match deadline with
      | some dl => if 0 ≤ ahead s.now dl then some 0xD else none
      | none => none
  | .ring r push => if s.ringEn r && (if push then s.ringCreditNow r != 0 else s.ringVisible r != 0) then some 0x0 else none
  | _ => none

/-- The waits whose condition first holds in the tick that ends. -/
def State.noteWaits (s : State) : State :=
  s.threads.foldl (fun s e =>
    let c := e.2
    if c.wait == .none || c.metAt.isSome then s
    else match s.waitMet c.wait with
      | some st => s.setThread (e.1 / 16) (e.1 % 16) { c with metAt := some s.mt, metSt := st }
      | none => s) s

/-- ST of TH_FLAGS. -/
def State.setSt (s : State) (n t st : Nat) : State := s.setRw (TH_FLAGS n t) (setBits (s.reg (TH_FLAGS n t)) 7 4 st)

/-- THREAD_READY: two ticks after its condition first held, the thread is READY. A time or angle wait ends with its status at the next
instruction; a ring wait goes back to its instruction, to check again (R203, R248). -/
def State.threadReady (s : State) (n t : Nat) : State :=
  let c := s.thread n t
  match c.metAt with
  | some m =>
    if s.thState n t == thWaiting && s.engineRuns n && !s.mt.getLsbD 0 && s.reached (m + 2) then
      let s := s.setThread n t { c with wait := .none, metAt := none }
      match c.wait with
      | .ring _ _ => (s.setThread n t { s.thread n t with owes := 3 }).makeReady n t
      | .access _ _ _ _ _ _ => s.makeReady n t
      | _ => ((s.setSt n t c.metSt).setThPc n t (s.thPc n t + 4)).makeReady n t
    else s
  | none => s

def execThreadReady (n : Fin 24) (t : Fin 16) (s : State) : Host.Outcome State Fault Refusal :=
  .next (s.onTclk (s.threadReady n t))

/-! ### Reservoir accesses of threads (R233) -/

/-- The data of a store: Gd, or Gd:Gd+1 for 64 bits. -/
def State.storeData (s : State) (n t sz d : Nat) : Nat :=
  if sz = 3 then (ofWords (s.g n t (d + 1)) (s.g n t d)).toNat else (s.g n t d).toNat % 2 ^ (8 * 2 ^ sz)

/-- A reservoir store of 2^sz bytes. A narrow one is a read-modify-write, discarded when its read finds an uncorrectable error. -/
def State.resStore (s : State) (addr sz v : Nat) : Bool × State :=
  if sz = 3 then (true, s.resWriteWords addr v 1)
  else if s.resPoisoned addr (2 ^ sz) then (false, s.setResvUe)
  else (true, s.resWrite addr v (2 ^ sz))

/-- The loaded value by SZ: zero- or sign-extended (R232). -/
def extend (sz : Nat) (v : Nat) : Word :=
  match sz with
  | 4 => (BitVec.ofNat 8 v).signExtend 32
  | 5 => (BitVec.ofNat 16 v).signExtend 32
  | _ => BitVec.ofNat 32 v

/-- Write a loaded value to Gd, or a 64-bit one to Gd:Gd+1. -/
def State.loadTo (s : State) (n t sz d : Nat) (v : Nat) : State :=
  if sz = 3 then (s.setG n t d (loWord (BitVec.ofNat 64 v))).setG n t (d + 1) (hiWord (BitVec.ofNat 64 v))
  else s.setG n t d (extend sz v)

/-- The access of a waiting thread: false when it meets an uncorrectable error. -/
def State.doAccess (s : State) (n t kind sz addr d : Nat) : Bool × State :=
  let bytes := 2 ^ (sz % 4)
  match kind with
  | 5 => if s.resPoisoned addr bytes then (false, s.setResvUe) else (true, s.loadTo n t sz d (s.resRead addr bytes))
  | 6 => s.resStore addr sz (s.storeData n t sz d)
  | _ =>
    if s.resPoisoned addr 4 then (false, s.setResvUe)
    else
      let old := s.resRead addr 4
      (true, (s.resWrite addr ((old + (s.g n t d).toNat) % 2 ^ 32) 4).setG n t d (BitVec.ofNat 32 old))

/-- RESERVOIR_ACCESS_COMPLETE: 40 ticks after its issue, or later under contention, the access is done. With a HALT written the thread
is then HALTED after the instruction (R212); else it becomes READY by R203. -/
def State.accessComplete (s : State) (n t : Nat) : State :=
  let c := s.thread n t
  match c.wait with
  | .access kind sz addr d issued next =>
    if c.metAt.isNone && s.reached (issued + 40) then
      let r := s.doAccess n t kind sz addr d
      if r.1 then
        let s := r.2.setThPc n t next
        if c.haltReq then
          (s.setThread n t { c with wait := .none, metAt := none, haltReq := false, owes := 0 }).setThState n t thHalted 0
        else s.setThread n t { c with metAt := some s.mt, metSt := 0, owes := 2 }
      else r.2.faultThread n t 5 (BitVec.ofNat 32 addr)
    else s
  | _ => s

def execReservoirAccessComplete (n : Fin 24) (t : Fin 16) (s : State) : Host.Outcome State Fault Refusal :=
  .next (s.onTclk (s.accessComplete n t))

/-- A thread becomes HALTED at once: a store in flight completes, or is discarded when its read finds an uncorrectable error (R25); a load in
flight is discarded (R254, R360, R361). -/
def State.stopThread (s : State) (n t : Nat) : State :=
  let c := s.thread n t
  let s := match c.wait with
    | .access 6 sz addr d _ _ => if c.metAt.isNone then (s.doAccess n t 6 sz addr d).2 else s
    | .access 7 _ addr d _ _ =>
      if c.metAt.isSome then s
      else if s.resPoisoned addr 4 then s.setResvUe
      else s.resWrite addr ((s.resRead addr 4 + (s.g n t d).toNat) % 2 ^ 32) 4
    | _ => s
  let s := s.setThread n t { Thread.init with upc := c.upc }
  let s := (if s.runningThread n == some t then s.setRunning n none else s).dropSwitch n t
  s.setThState n t thHalted 0

/-! ### Host control (R212 to R214) -/

/-- A byte of local RAM of cluster `n` at local address `a`; a SWAP exchanges the two pages (R226). -/
def State.ramKey (s : State) (n a : Nat) : Nat :=
  n * 65536 + (if (s.engine n).bank then (a + 32768) % 65536 else a % 65536)

def State.ramRead (s : State) (n a bytes : Nat) : Nat := Memory.read s.localRam (s.ramKey n a) bytes
def State.ramWrite (s : State) (n a v bytes : Nat) : State :=
  { s with localRam := Memory.write s.localRam (s.ramKey n a) v bytes }
def State.ramWord (s : State) (n a : Nat) : Word := BitVec.ofNat 32 (s.ramRead n a 4)

/-- The level that the image on the front page declares, bounded by KCI_LEVEL (R228). -/
def State.declaredLevel (s : State) (n : Nat) : Nat :=
  let l := s.ramRead n 4 1
  let l := if s.ramWord n 0 ≠ 0x4B434931#32 ∨ l = 0 then 1 else l
  min l (s.fld ID_UCODE 15 8)

/-- START of TH_CTRL. The address of the thread's first microword is internal: a free value. -/
def State.threadStart (s : State) (n t : Nat) : State :=
  if s.thIdle n t && s.ucodeValid && !s.bit UC_LOAD_STATUS 31 && !s.bit (CL_STATUS n) 31 then
    let s := s.setEngine n { s.engine n with level := s.declaredLevel n }
    let s := s.setThread n t { Thread.init with upc := s.freeValue.truncate 12 }
    s.useFree.makeReady n t
  else s.raise (TH_STATUS n t) 10

/-- HALT of TH_CTRL. -/
def State.threadHalt (s : State) (n t : Nat) : State :=
  let c := s.thread n t
  match s.thState n t with
  | 3 => s.setThread n t { c with haltReq := true }
  | 2 => (s.dropSwitch n t).setThState n t thHalted 0
  | 4 =>
    match c.wait with
    | .access _ _ _ _ _ _ =>
      if c.metAt.isSome then (s.setThread n t { c with wait := .none, metAt := none, owes := 0 }).setThState n t thHalted 0
      else s.setThread n t { c with haltReq := true }
    | _ => (s.setThread n t { c with wait := .none, metAt := none }).setThState n t thHalted 0
  | _ => s

/-- A write to TH_CTRL: PRIO, then START, then HALT. -/
def State.thCtrlWrite (s : State) (n t : Nat) (v : Word) : State :=
  let s := s.setFld (TH_CTRL n t) 9 8 (bitsOf v 9 8)
  let s := if bitOf v 1 then s.threadStart n t else s
  if bitOf v 2 then s.threadHalt n t else s

def execThStart (n : Fin 24) (t : Fin 16) (v : Word) (s : State) : Host.Outcome State Fault Refusal :=
  .next (s.hostWrite (TH_CTRL n t) v fun s => s.thCtrlWrite n t v)

def execThHalt (n : Fin 24) (t : Fin 16) (v : Word) (s : State) : Host.Outcome State Fault Refusal :=
  .next (s.hostWrite (TH_CTRL n t) v fun s => s.thCtrlWrite n t v)

/-- The register bits that a context write can change, by offset in the thread's block (R213). -/
def thMask (off : Nat) : Option Word :=
  match off with
  | 0x08 => some 0x0000FFFC#32
  | 0x0C => some 0x00000F0F#32
  | 0x10 => some 0x000000FF#32
  | 0x18 => some 0xFFFFFFFF#32
  | 0x1C => some 0xFFFFFFFF#32
  | _ => if 0x40 ≤ off ∧ off < 0x80 ∧ off % 4 = 0 then some 0xFFFFFFFF#32 else none

/-- A write to a context register: accepted while the thread is HALTED or FAULTED (R213). -/
def State.thContextWrite (s : State) (n t off : Nat) (v : Word) : State :=
  match thMask off with
  | some m => if s.thIdle n t then s.setReg (TH_CTRL n t + off) (v &&& m) else s.raise (TH_STATUS n t) 11
  | none => s

def execThContextWrite (n : Fin 24) (t : Fin 16) (off : Nat) (v : Word) (s : State) : Host.Outcome State Fault Refusal :=
  .next (s.hostWrite (TH_CTRL n t + off) v fun s => s.thContextWrite n t off v)

/-- CL_READY_MAP, CL_WAIT_MAP and CL_FAULT_MAP as they read: the threads in state `st`. -/
def State.threadMap (s : State) (n st : Nat) : Word :=
  (List.range 16).foldl (fun w t => putBit w t (s.thState n t == st)) 0

end Sys2Proof.Machine
end

