-- ==== Sys2Proof/Machine/Loader.lean ====
section
/-!
DEFINITION. Loading the micro-store: spec/10_microengine.md, R215 to R219. A load that runs holds BUSY; MICROCODE_LOAD_COMPLETE performs
its checks on the bundle in the reservoir, and its writes.
-/

namespace Sys2Proof.Machine

open Reg

/-! ### The bundle -/

/-- Bytes of the reservoir. -/
def State.resBytes (s : State) (a n : Nat) : List Byte := (List.range n).map (fun i => Memory.byte s.reservoir (a + i))

def State.resWord (s : State) (a : Nat) : Word := BitVec.ofNat 32 (s.resRead a 4)

def baseMagic : Word := 0x4B554331#32
def patchMagic : Word := 0x4B555031#32

/-- Vendor key hash `k` of OTP (R381). -/
def vendorHash (k : Nat) : BitVec 256 := BitVec.ofNat 256 (beNat ((List.range 32).map (fun i => Config.otpByte (0x40 + 32 * k + i))))

/-- The hash of a public key is that of an unrevoked OTP slot (R215). -/
def keyKnown (key : List Byte) : Bool :=
  let h := sha256 key
  [0, 1, 2, 3].any (fun k => vendorHash k == h && !(Config.otpByte 0xC0).getLsbD k)

/-- Length of a base image up to SIG, from its WORD_COUNT. -/
def State.baseLen (s : State) (a : Nat) : Nat := 0x60 + 4 * (s.resWord (a + 0x18)).toNat
/-- Length of a patch up to SIG, from its REC_COUNT. -/
def State.patchLen (s : State) (a : Nat) : Nat := 0x70 + 8 * (s.resWord (a + 0x0C)).toNat

/-- The checks that a base image and a patch share, from RESV_ERROR to BAD_SIGNATURE, for an item of `len` bytes before SIG whose key
stands at `key`: 0 when all pass (R215, R216). -/
def State.itemCheck (s : State) (a len key : Nat) : Nat :=
  if s.resPoisoned a (len + 64) then 0x0A
  else
    let pub := s.resBytes (a + key) 64
    if !keyKnown pub then 0x0B
    else if !ecdsaVerify (sha256 (s.resBytes a len)) pub (s.resBytes (a + len) 64) then 0x0C
    else 0

/-- The base image at `a`, with `room` bytes up to the end of the bundle: its status, 0 when it passes (R216). -/
def State.baseCheck (s : State) (a room : Nat) : Nat :=
  let len := s.baseLen a
  let wc := (s.resWord (a + 0x18)).toNat
  let version := s.resWord (a + 8)
  if decide (room < 0x60) || s.resWord a != baseMagic || s.resWord (a + 4) != 1 || bitsOf version 7 0 != 0 ||
      bitsOf (s.resWord (a + 0x0C)) 31 4 != 0 || wc == 0 || decide (4096 < wc) || s.resWord (a + 0x1C) != 0 ||
      decide (room < len + 64) then 0x09
  else
    let st := s.itemCheck a len 0x20
    if st ≠ 0 then st
    else if !bitOf (s.resWord (a + 0x0C)) 3 then 0x0D
    else if !(s.resBytes (a + 0x10) 8).contains 0x21#8 then 0x0E
    else if bitsOf version 31 16 < s.nvm.floor.toNat then 0x0F
    else 0

/-- The patch at `a` for a base image of digest `base`. -/
def State.patchCheck (s : State) (a room : Nat) (base : BitVec 256) : Nat :=
  let len := s.patchLen a
  let rc := (s.resWord (a + 0x0C)).toNat
  if decide (room < 0x70) || s.resWord a != patchMagic || s.resWord (a + 4) != 1 || bitsOf (s.resWord (a + 8)) 31 16 != 0 ||
      rc == 0 || decide (512 < rc) || decide (room < len + 64) ||
      (List.range rc).any (fun i => bitsOf (s.resWord (a + 0x70 + 8 * i)) 31 12 != 0) then 0x09
  else
    let st := s.itemCheck a len 0x30
    if st ≠ 0 then st
    else if BitVec.ofNat 256 (beNat (s.resBytes (a + 0x10) 32)) ≠ base then 0x10
    else 0

/-- The next 8-byte-aligned offset. -/
def align8 (a : Nat) : Nat := (a + 7) / 8 * 8

/-- The patches of a bundle from offset `a`, the first of them number `k`: a failing item and its status, or the offsets of the
patches. `fuel` bounds their number. A bundle of more than four patches is BAD_FORMAT at an item that R216 does not number. -/
def State.patchesFrom (s : State) (end_ : Nat) (base : BitVec 256) : Nat → Nat → Nat → (Nat × Nat) ⊕ List Nat
  | 0, _, _ => .inl (7, 0x09)
  | fuel + 1, a, k =>
    if a = end_ then .inr []
    else if 5 ≤ k then .inl (7, 0x09)
    else
      let a' := align8 a
      let st := s.patchCheck a' (end_ - a') base
      if st ≠ 0 then .inl (k, st)
      else match s.patchesFrom end_ base fuel (a' + s.patchLen a' + 64) (k + 1) with
        | .inl r => .inl r
        | .inr ps => .inr (a' :: ps)

/-- The checks of R216 on the bundle that UC_LOAD_SRC and UC_LOAD_LEN give: failing item and status, or the patch offsets. -/
def State.bundleCheck (s : State) : (Nat × Nat) ⊕ List Nat :=
  let a := s.fld UC_LOAD_SRC 23 0
  let end_ := a + s.fld UC_LOAD_LEN 23 0
  if a % 8 ≠ 0 ∨ 2 ^ 24 < end_ then .inl (0, 0x09)
  else
    let st := s.baseCheck a (end_ - a)
    if st ≠ 0 then .inl (0, st)
    else s.patchesFrom end_ (sha256 (s.resBytes a (s.baseLen a))) 6 (a + s.baseLen a + 64) 1

/-! ### The load (R217, R218) -/

/-- A host load may begin: threads HALTED or FAULTED, weirs empty, outputs off (R217). -/
def State.loadQuiet (s : State) : Bool :=
  (List.range 24).all (fun n => (s.weir n).slots.isEmpty && (List.range 16).all (fun t => s.thIdle n t)) && !s.bit GSTAT 2

/-- A load ends with `status`; a refusal names its item. -/
def State.loadEnd (s : State) (status : Nat) (item : Option Nat) : State :=
  let w := setBits (putBit (s.reg UC_LOAD_STATUS) 31 false) 4 0 status
  let w := match item with | some i => setBits w 18 16 i | none => w
  ((s.setReg UC_LOAD_STATUS w).deliver 252 none).refreshPins s.now

/-- A load begins: BUSY. -/
def State.loadBegin (s : State) : State :=
  (s.setReg UC_LOAD_STATUS (setBits (putBit (s.reg UC_LOAD_STATUS) 31 true) 4 0 1)).refreshPins s.now

/-- A write to UC_LOAD_GO. -/
def State.ucLoadGo (s : State) (v : Word) : State :=
  if !bitOf v 0 || s.bit UC_LOAD_STATUS 31 then s
  else if s.loadQuiet then s.loadBegin
  else s.loadEnd 0x08 (some 0)

def execUcLoadGo (v : Word) (s : State) : Host.Outcome State Fault Refusal :=
  .next (s.hostWrite UC_LOAD_GO v fun s => s.ucLoadGo v)

/-- The micro-store words that base image `a` gives: word i at address i; an unlisted address holds TRAP. -/
def State.baseWords (s : State) (a : Nat) : Table Word :=
  (List.range (s.resWord (a + 0x18)).toNat).foldl
    (fun u i => Table.set (fun _ => (0 : Word)) u i (s.resWord (a + 0x60 + 4 * i))) []

/-- The records of the patch at `a`, in order. -/
def State.applyPatch (s : State) (u : Table Word) (a : Nat) : Table Word :=
  (List.range (s.resWord (a + 0x0C)).toNat).foldl
    (fun u i => Table.set (fun _ => (0 : Word)) u (bitsOf (s.resWord (a + 0x70 + 8 * i)) 11 0) (s.resWord (a + 0x74 + 8 * i))) u

/-- The digest in UC_DIGEST: byte 4i + j in bits 8j + 7..8j of word i. -/
def State.setDigest (s : State) (d : BitVec 256) : State :=
  let b := beBytes 32 d.toNat
  foldBelow 8 (fun s i => s.setReg (UC_DIGEST i) (BitVec.ofNat 32 (leNat ((b.drop (4 * i)).take 4)))) s

/-- Patch identifiers: patch 1 and 2 in word 0, 3 and 4 in word 1 (R218). -/
def State.setPatchIds (s : State) (ps : List Nat) : State :=
  let id := fun i => match ps[i]? with | some a => bitsOf (s.resWord (a + 8)) 15 0 | none => 0
  (s.setReg UC_PATCH_ID0 (BitVec.ofNat 32 (id 0 + id 1 * 65536))).setReg UC_PATCH_ID1 (BitVec.ofNat 32 (id 2 + id 3 * 65536))

/-- The steps of R218 for base image `a` and patches `ps`. -/
def State.loadApply (s : State) (a : Nat) (ps : List Nat) : State :=
  let u := ps.foldl s.applyPatch (s.baseWords a)
  let s := { s with ustore := u }
  let s := foldBelow 24 (fun s n => s.setReg (CL_STATUS n) (putBit (putBit (s.reg (CL_STATUS n)) 31 false) 30 false)) s
  let s := (s.setDigest (sha256 (s.resBytes a (s.baseLen a)))).setPatchIds ps
  let s := s.setReg ID_UCODE (s.resWord (a + 8) ||| 1)
  let s := s.setFld UC_LOAD_STATUS 14 12 ps.length
  s.loadEnd 0x02 none

/-- MICROCODE_LOAD_COMPLETE: the checks of R216, and the load or the refusal. -/
def State.microcodeLoadComplete (s : State) : State :=
  if !s.bit UC_LOAD_STATUS 31 then s
  else match s.bundleCheck with
    | .inl (item, st) =>
      let s := if st = 0x0A then s.setResvUe else s
      if item = 7 then s.useFree.loadEnd st (some (s.freeValue.toNat % 8)) else s.loadEnd st (some item)
    | .inr ps => s.loadApply (s.fld UC_LOAD_SRC 23 0) ps

def execMicrocodeLoadComplete (s : State) : Host.Outcome State Fault Refusal :=
  .next (s.onTclk s.microcodeLoadComplete)

/-! ### Flash boot (R219, R365) -/

/-- Length of the items that follow the base image in the flash, at most `fuel` patches. -/
def State.flashPatches (s : State) : Nat → Nat → Nat
  | 0, a => a
  | fuel + 1, a =>
    let a' := align8 a
    if s.resWord a' = patchMagic then s.flashPatches fuel (min 0x20000 (a' + s.patchLen a' + 64)) else a

/-- The reservoir with bytes `b` from offset 0: whole 8-byte words lose an uncorrectable error; a last word written in part is a
read-modify-write, discarded when its read finds one (R25). -/
def State.flashFill (s : State) (b : List Byte) : State :=
  let whole := b.length / 8 * 8
  let fill (s : State) (b : List Byte) (off : Nat) : State :=
    { s with reservoir := (b.zipIdx off).foldl (fun m e => Memory.setByte m e.2 e.1) s.reservoir }
  let s := { fill s (b.take whole) 0 with poison := s.poison.filter (fun w => decide (whole ≤ w * 8)) }
  if b.length = whole then s
  else if s.resPoisoned whole (b.length - whole) then s.setResvUe
  else fill s (b.drop whole) whole

/-- The read command that BOOT selects, none without a flash boot: Fast Read Quad Output, or Fast Read Quad I/O (R365). -/
def flashRead (boot : Nat) : Option FlashRead :=
  match boot with
  | 1 => some { opcode := 0x6B#8, addrLines := 1, dataLines := 4, dummy := 8, mhz := 50 }
  | 2 => some { opcode := 0xEB#8, addrLines := 4, dataLines := 4, dummy := 6, mhz := 80 }
  | _ => none

/-- FLASH_LOAD: with a flash boot selected and no load yet, the read command goes out from address 0, the bundle of the flash image is read into the reservoir, and a load begins.
An empty image stands for a flash that does not answer. -/
def State.flashLoad (s : State) (image : List Byte) : State :=
  match flashRead (s.fld GSTAT 5 4) with
  | none => s
  | some c =>
    if s.bit UC_LOAD_STATUS 31 || s.fld UC_LOAD_STATUS 4 0 != 0 then s
    else if image.length < 4 ∨ BitVec.ofNat 32 (leNat (image.take 4)) ≠ baseMagic then (s.send (.flash c 0)).loadEnd 0x11 (some 0)
    else
      let s := s.send (.flash c 0)
      let f := s.flashFill (image.take 0x20000)
      let len := f.flashPatches 4 (min 0x20000 (f.baseLen 0 + 64))
      let s := s.flashFill (image.take len)
      ((s.hwUpdate UC_LOAD_SRC 0).hwUpdate UC_LOAD_LEN (BitVec.ofNat 32 len)).loadBegin

def execFlashLoad (image : List Byte) (s : State) : Host.Outcome State Fault Refusal :=
  .next (s.onTclk (s.flashLoad image))

end Sys2Proof.Machine
end

