-- ==== Sys2Proof/Machine/Probes.lean ====
section
/-!
DEFINITION. Probes: spec/09_position_feedback.md, R193 to R195.
-/

namespace Sys2Proof.Machine

open Reg

def State.prbTgt (s : State) (p : Nat) : Nat := s.fld (PRB_CTRL p) 11 10
def State.prbIdx (s : State) (p : Nat) : Nat := s.fld (PRB_CTRL p) 15 12

/-- The probe's target is an AENC or an SSI port: a latch waits for the later sample or frame (R194). -/
def State.prbWaits (s : State) (p : Nat) : Bool := decide (2 ≤ s.prbTgt p) && (targetIface (s.prbTgt p) (s.prbIdx p)).isSome

/-- A write to PRB_CTRL: DISARM acts alone, else ARM records the stamp of the commit tick (R193). -/
def State.prbCtrlWrite (s : State) (p : Nat) (v : Word) : State :=
  let s := s.setReg (PRB_CTRL p) (mergeWord (s.reg (PRB_CTRL p)) v 0x0000FF18#32)
  if bitOf v 2 then
    if s.bit (PRB_STATUS p) 0 then (s.setBit (PRB_STATUS p) 0 false).setProbe p { s.probe p with disarmed := some s.mt } else s
  else if bitOf v 1 then
    ((s.setBit (PRB_STATUS p) 0 true).setPair (PRB_ARM_LO p) (PRB_ARM_HI p) s.now).setProbe p { s.probe p with disarmed := none }
  else s

/-- PROBE_ARM: the row of a PRB_CTRL write with ARM. -/
def execProbeArm (p : Fin 8) (v : Word) (s : State) : Host.Outcome State Fault Refusal :=
  .next (s.hostWrite (PRB_CTRL p) v fun s => s.prbCtrlWrite p v)

/-- PROBE_DISARM: the row of a PRB_CTRL write with DISARM. -/
def execProbeDisarm (p : Fin 8) (v : Word) (s : State) : Host.Outcome State Fault Refusal :=
  .next (s.hostWrite (PRB_CTRL p) v fun s => s.prbCtrlWrite p v)

/-- The probe takes an edge stamped `st`: armed, or disarmed in a later tick than the stamp's, and not before the arm stamp. -/
def State.prbTakes (s : State) (p : Nat) (rising : Bool) (st : Stamp) : Bool :=
  let armed := s.bit (PRB_STATUS p) 0 ||
    (match (s.probe p).disarmed with | some t => s.earlier st (stampAt t 0) | none => false)
  armed && s.bit (PRB_CTRL p) (if rising then 8 else 9) &&
    s.notLater (s.pair (PRB_ARM_LO p) (PRB_ARM_HI p)) st

/-- The target is not valid: its shaft is out of sync, or its interface has no reference (R194). -/
def State.prbInvalid (s : State) (p : Nat) : Bool :=
  if s.prbTgt p = 0 then !s.shSync (s.prbIdx p)
  else match targetIface (s.prbTgt p) (s.prbIdx p) with
    | some f => !s.fbRef f
    | none => true

/-- The edge is to be latched: a shaft's reported position is known at once, an interface's position when the latch completes. -/
def State.prbBegin (s : State) (p : Nat) (e : ProbeEdge) : State :=
  let c := s.probe p
  let s := s.setProbe p { c with pend := c.pend ++ [(e.stamp, e.pos)] }
  let s := s.raiseIf e.invalid (PRB_STATUS p) 3
  let s := if s.prbWaits p then s.setBit (PRB_STATUS p) 1 true else s
  if s.bit (PRB_CTRL p) 4 then (s.setBit (PRB_STATUS p) 0 false).setProbe p { s.probe p with disarmed := none } else s

/-- An edge that R99 can no longer discard is latched, missed, or not selected (R193, R194). -/
def State.prbJudge (s : State) (p : Nat) (e : ProbeEdge) : State :=
  if !s.prbTakes p e.rising e.stamp then s
  else if s.bit (PRB_STATUS p) 1 then s.satCount (PRB_MISS p)
  else s.prbBegin p e

/-- At a tick boundary the edges of probe `p` that can no longer be discarded are judged, oldest first. -/
def State.prbTick (s : State) (p : Nat) : State :=
  let sure := (s.probe p).edges.filter (fun e => s.edgeSure e.stamp)
  if sure.isEmpty then s
  else sure.foldl (fun s e => s.prbJudge p e) (s.setProbe p { s.probe p with edges := (s.probe p).edges.filter (fun e => !s.edgeSure e.stamp) })

/-- An edge stamped `st` joins those that the probe will judge, with the validity of its target, and for a shaft with the reported position at
the start of the tick that holds the stamp (R194). -/
def State.prbNote (s : State) (p : Nat) (rising : Bool) (st : Stamp) : State :=
  let c := s.probe p
  let pos := if s.prbTgt p = 0 then some (s.shPosStamp (s.prbIdx p) (stampAt (s.tickFor st) 0)) else none
  s.setProbe p { c with edges := c.edges ++ [{ stamp := st, rising := rising, pos := pos, invalid := s.prbInvalid p }] }

/-- PROBE_EDGE: an edge of the probe's input, stamped `st`. One of the ball is held to R99 by the probe: two edges closer than 24 fine steps
are both discarded. One of CH[PRB_CH] is the oldest that the channel's TDC has stamped (R97, R99, R193). -/
def State.probeEdge (s : State) (p : Nat) (rising : Bool) (st : Stamp) : State :=
  let c := s.probe p
  if (s.prbChan p).isSome then
    match c.chanEdges with
    | e :: rest => if e = (st, rising) then (s.setProbe p { c with chanEdges := rest }).prbNote p rising st else s
    | [] => s
  else
    match c.lastIn with
    | some l =>
      if (st - l).toNat < 24 then s.setProbe p { c with lastIn := none, edges := c.edges.filter (fun e => e.stamp != l) }
      else (s.setProbe p { c with lastIn := some st }).prbNote p rising st
    | none => (s.setProbe p { c with lastIn := some st }).prbNote p rising st

def execProbeEdge (p : Fin 8) (rising : Bool) (stamp : Stamp) (s : State) : Host.Outcome State Fault Refusal :=
  .next (s.onTclk (s.probeEdge p rising stamp))

/-- The position that a waiting latch takes, once it is known (R194). -/
def State.prbPosition (s : State) (p : Nat) (st : Stamp) (known : Option (BitVec 64)) : Option (BitVec 64) :=
  match known with
  | some x => some x
  | none =>
    match targetIface (s.prbTgt p) (s.prbIdx p) with
    | none => some 0
    | some f =>
      let c := s.iface f
      if f < 8 then (if s.quadKnown f st then some (c.absAt s.now st) else none)
      else if c.covers s.now st then some (c.absBetween st)
      else if s.fbAtt f ≠ 1 then some (match c.sample with | some q => q.abs | none => c.abs)
      else none

/-- PROBE_LATCH_COMPLETE: the oldest waiting latch has its position. -/
def State.probeLatch (s : State) (p : Nat) : State :=
  let c := s.probe p
  match c.pend with
  | [] => s
  | (st, known) :: rest =>
    match s.prbPosition p st known with
    | none => s
    | some pos =>
      let s := s.setProbe p { c with stamp := st, pos := pos, seq := c.seq + 1, pend := rest, unread := true }
      let s := if c.unread then s.setBit (PRB_STATUS p) 2 true else s
      (s.setBit (PRB_STATUS p) 1 (s.prbWaits p && !rest.isEmpty)).deliver (152 + p) none

def execProbeLatchComplete (p : Fin 8) (s : State) : Host.Outcome State Fault Refusal :=
  .next (s.onTclk (s.probeLatch p))

/-- PRB_STAMP_LO_READ: the shadows of the start of the BCLK cycle; OVR clears, unless a latch has completed in the cycle (R7, R195). -/
def State.prbStampRead (s : State) (p : Nat) : Word × State :=
  let q := s.cycleStart.probe p
  let c := s.probe p
  let s := s.setReg (PRB_STAMP_HI p) (hiWord q.stamp)
  let s := s.setPair (PRB_POS_LO p) (PRB_POS_HI p) q.pos
  let s := s.setReg (PRB_SEQ p) q.seq
  (loWord q.stamp, if c.seq = q.seq then (s.setBit (PRB_STATUS p) 2 false).setProbe p { c with unread := false } else s)

def execPrbStampLoRead (p : Fin 8) (s : State) : Host.Outcome State Fault Refusal :=
  .next (s.hostRead fun s => s.prbStampRead p)

end Sys2Proof.Machine
end

