-- ==== Sys2Proof/Machine/Network.lean ====
section
/-!
DEFINITION. The Ethernet ports, network time, peers, user datagrams, and the export and import of shafts:
spec/16_network_and_shaft_sharing.md, R327 to R345. Addresses are resolved by the port itself: a sent datagram is recorded with its
IPv4 destination (notes/assumptions/40.md).
-/

namespace Sys2Proof.Machine

open Reg

/-! ### Ports (R327, R328) -/

/-- TCLK and BCLK run, and no reset holds the main domain. -/
def State.mainRuns (s : State) : Bool := s.power.phase == .run

/-- The port runs and its link is up. -/
def State.portUp (s : State) (p : Nat) : Bool := s.mainRuns && s.bit (PORT_CTRL p) 0 && s.bit (PORT_STATUS p) 0

/-- Port events of the SYSTEM source: CAUSE bit 1 for port 0, 2 for port 1 (R290). -/
def State.portEvent (s : State) (p : Nat) : State := s.sysEvent (1 + p)

/-- A port's MAC address: OTP bytes 0 to 5, byte 0 least significant, plus 1 for port 1 (R327, R381). -/
def macOf (p : Nat) : BitVec 48 := BitVec.ofNat 48 (leNat ((List.range 6).map Config.otpByte) + p)

/-- The 802.1Q tag of a frame: PCP, then VID (R328). -/
def State.vlanTag (s : State) (p : Nat) (cls : TxClass) : Option (BitVec 16) :=
  let c := s.reg (VLAN_CFG p)
  if bitOf c 31 then
    some (BitVec.ofNat 16 ((if cls = .exported then bitsOf c 30 28 else bitsOf c 27 25) * 8192 + bitsOf c 11 0))
  else none

/-- A frame joins those that wait for the wire of the port; `portSend` lets them leave (R336). -/
def State.sendFrame (s : State) (p : Nat) (cls : TxClass) (f : Frame) : State :=
  s.setPort p { s.port p with tx := (s.port p).tx ++ [{ cls := cls, vlan := s.vlanTag p cls, frame := f }] }

/-- The length of a frame from its destination address to its FCS, without tag or padding (PRESUMED for the messages of other standards,
notes/assumptions/87.md). -/
def Frame.bytes : Frame → Nat
  | .arpReply _ _ => 46
  | .arpRequest _ => 46
  | .igmpReport _ => 50
  | .icmpReply _ body => 46 + body.length
  | .udp _ _ _ words => 46 + 4 * words.length
  | .sync => 62
  | .followUp _ => 94
  | .announce _ => 94
  | .pdelayReq => 72
  | .pdelayResp _ _ => 72
  | .pdelayRespFollowUp _ _ => 72

/-- How many ticks a frame takes the wire, with preamble and gap, at 1 Gb/s (R338, notes/assumptions/87.md). -/
def TxFrame.ticks (f : TxFrame) : Nat :=
  let n := f.frame.bytes + (if f.vlan.isSome then 4 else 0)
  (32 * (max 64 n + 20) + 4) / 5

/-- The frame that leaves next: the oldest of the highest precedence (R336). -/
def nextFrame : List TxFrame → Option TxFrame
  | [] => none
  | f :: rest =>
    match nextFrame rest with
    | some g => if g.cls.rank < f.cls.rank then some g else some f
    | none => some f

/-- The announcement group 239.192.75.84, and the MAC address of its frames (RFC 1112). -/
def groupIp : Word := 0xEFC04B54#32
def groupMac : BitVec 48 := 0x01005E404B54#48

/-- An address in the port's subnet. -/
def State.onLink (s : State) (p : Nat) (ip : Word) : Bool := ip &&& s.reg (IP_MASK p) == s.reg (IP_ADDR p) &&& s.reg (IP_MASK p)

/-- A datagram leaves for a resolved destination. -/
def State.sendTo (s : State) (p : Nat) (mac : BitVec 48) (d : Datagram) : State := s.sendFrame p d.cls (.udp d.ip mac d.port d.words)

/-- A datagram for an on-link destination: it leaves when the address of the destination is resolved, and waits for that else. The first
datagram that waits for a destination brings an ARP request (R328, notes/assumptions/40.md). -/
def State.sendOnLink (s : State) (p : Nat) (d : Datagram) : State :=
  let c := s.port p
  match c.arp.lookup d.ip with
  | some mac => s.sendTo p mac d
  | none =>
    let t := s.setPort p { c with waiting := c.waiting ++ [d] }
    if c.waiting.any (fun (w : Datagram) => w.ip == d.ip) then t else t.sendFrame p .other (.arpRequest d.ip)

/-- A datagram leaves the port; nothing goes to an address outside its subnet but the announcement group (R328). -/
def State.sendUdp (s : State) (p : Nat) (cls : TxClass) (ip : Word) (port : BitVec 16) (ws : List Word) : State :=
  let d : Datagram := { cls := cls, ip := ip, port := port, words := ws }
  if ip = groupIp then s.sendTo p groupMac d
  else if s.onLink p ip then s.sendOnLink p d
  else s

/-- LINK takes a new value. A port whose link comes up joins the announcement group with a membership report; one whose link goes down sends
none of what waits (R328). -/
def State.setLink (s : State) (p : Nat) (up : Bool) : State :=
  let s := (s.setBit (PORT_STATUS p) 0 up).raise (PORT_STATUS p) 1
  let c := s.port p
  let s := if up then
      (s.setPort p { c with linkTick := s.mt, discSent := none, syncSent := none, annSent := none, pdelaySent := none, announced := none,
                            pdelayOpen := none, pathDelay := 0, txFree := s.mt }).sendFrame p .other (.igmpReport groupIp)
    else s.setPort p { c with waiting := [], tx := [] }
  s.portEvent p

/-- LINK_CHANGE: a link comes up only at a port that runs. -/
def State.linkChange (s : State) (p : Nat) (up : Bool) : State :=
  if !s.mainRuns || s.bit (PORT_STATUS p) 0 = up || (up && !s.bit (PORT_CTRL p) 0) then s else s.setLink p up

def execLinkChange (p : Fin 2) (up : Bool) (s : State) : Host.Outcome State Fault Refusal :=
  .next (s.onTclk (s.linkChange p up))

/-- A write to PORT_CTRL, or to a register at port offsets 0x10 to 0x2C (R328). A port whose EN is cleared has no link. -/
def State.portCtrlWrite (s : State) (p off : Nat) (v : Word) : State :=
  let en := s.bit (PORT_CTRL p) 0
  if off = 0 then
    let old := s.reg (PORT_CTRL p)
    let new := mergeWord old v 0x7F#32
    if (old ^^^ new) &&& 0x7E#32 != 0 && (en || bitOf new 0) then s.raise (PORT_STATUS p) 3
    else
      let s := s.setReg (PORT_CTRL p) new
      if !bitOf new 0 && s.bit (PORT_STATUS p) 0 then s.setLink p false else s
  else if 0x10 ≤ off ∧ off ≤ 0x2C ∧ off % 4 = 0 then
    if en then s.raise (PORT_STATUS p) 3 else s.plainWrite (PORT_CTRL p + off) v
  else s

def execPortCtrlWrite (p : Fin 2) (off : Nat) (v : Word) (s : State) : Host.Outcome State Fault Refusal :=
  .next (s.hostWrite (PORT_CTRL p + off) v fun s => s.portCtrlWrite p off v)

/-! ### Received frames (R327, R328) -/

/-- A frame or datagram is discarded (R328). -/
def State.rxDiscard (s : State) (p : Nat) : State := s.satCount (RX_DISCARD p)

/-- A received frame of a port whose link is up reaches `g`, unless R327 or, with `ip`, R328 discards it. A PAUSE frame has no effect at all. -/
def State.receive (s : State) (p : Nat) (f : RxFrame) (ip : Bool) (g : State → State) : State :=
  if !s.portUp p then s
  else if !f.fcsOk || decide (1522 < f.length.toNat) || decide (1 < f.tags.toNat) then s.rxDiscard p
  else if f.pause then s
  else if ip && !f.plainIp then s.rxDiscard p
  else g s

/-- The port serves UDP port `u`: Ponar with PONAR_EN, the announcements, user datagrams with USER_EN. -/
def State.servesUdp (s : State) (p : Nat) (u : BitVec 16) : Bool :=
  (s.bit (PORT_CTRL p) 5 && s.fld (UDP_PORTS p) 15 0 == u.toNat) || s.fld (UDP_PORTS p) 31 16 == u.toNat ||
    (s.bit (PORT_CTRL p) 6 && s.fld (USER_CFG p) 31 16 == u.toNat)

/-- A received UDP datagram for the service at UDP port `own`, which is `g`. One for a port that nothing serves is discarded; one for another
service is that service's command, and nothing here. -/
def State.receiveUdp (s : State) (p : Nat) (f : RxFrame) (own : Nat) (g : State → State) : State :=
  s.receive p f true (fun s =>
    if !s.servesUdp p f.udpPort then s.rxDiscard p
    else if f.udpPort.toNat = own then g s
    else s)

/-- An address is resolved: it is the newest of at most 16, and the datagrams that waited for it leave. -/
def State.resolved (s : State) (p : Nat) (ip : Word) (mac : BitVec 48) : State :=
  let c := s.port p
  let out := c.waiting.filter (fun (d : Datagram) => d.ip == ip)
  let s := s.setPort p { c with arp := ((ip, mac) :: c.arp.filter (fun e => e.1 ≠ ip)).take 16,
                                waiting := c.waiting.filter (fun (d : Datagram) => d.ip != ip) }
  out.foldl (fun s (d : Datagram) => s.sendTo p mac d) s

/-- ARP_REQUEST: an ARP packet for the port's own address from its subnet. Its sender is a resolved address, and a request is answered. -/
def State.arpPacket (s : State) (p : Nat) (f : RxFrame) (reply : Bool) (target ip : Word) (mac : BitVec 48) : State :=
  s.receive p f false (fun s =>
    if target = s.reg (IP_ADDR p) && s.onLink p ip then
      if reply then s.resolved p ip mac else (s.sendFrame p .other (.arpReply ip mac)).resolved p ip mac
    else s.rxDiscard p)

def execArpRequest (a : Arrival) (k : ArpKind) (senderIp : Word) (senderMac : BitVec 48) (s : State) :
    Host.Outcome State Fault Refusal :=
  .next (s.onTclk (s.arpPacket a.port a.frame k.reply k.target senderIp senderMac))

/-- ICMP_ECHO. -/
def State.icmpEcho (s : State) (p : Nat) (f : RxFrame) (target ip : Word) (body : List Byte) : State :=
  s.receive p f true (fun s =>
    if target = s.reg (IP_ADDR p) && s.onLink p ip then s.sendFrame p .other (.icmpReply ip body) else s.rxDiscard p)

def execIcmpEcho (a : Arrival) (target senderIp : Word) (body : List Byte) (s : State) : Host.Outcome State Fault Refusal :=
  .next (s.onTclk (s.icmpEcho a.port a.frame target senderIp body))

/-! ### Network time (R329 to R331) -/

def State.tsState (s : State) : Nat := s.fld TS_STATUS 2 0
def State.slavePort (s : State) : Nat := s.fld TS_STATUS 8 8
def State.portRole (s : State) (p : Nat) : Nat := s.fld (PORT_STATUS p) 9 8
def State.setRole (s : State) (p r : Nat) : State := s.setFld (PORT_STATUS p) 9 8 r

/-- The NT stamp of the start of the present tick (R330). -/
def State.ntNow (s : State) : Stamp := s.now + s.pair NT_OFS_LO NT_OFS_HI

/-- gPTP runs on the port. -/
def State.ptpOn (s : State) (p : Nat) : Bool := s.bit TS_CTRL 0 && s.portUp p && s.bit (PORT_CTRL p) 4

/-- TS_STATE takes a new value, with the event of the slave port, or of port 0 for a grandmaster. -/
def State.setTsState (s : State) (st : Nat) : State :=
  if s.tsState = st then s
  else
    let s := s.setFld TS_STATUS 2 0 st
    s.portEvent (if st = 4 then 0 else s.slavePort)

/-- The Sync interval in ticks. -/
def State.syncInterval (s : State) : Nat := 800000000 / 2 ^ s.fld TS_CTRL 6 4

/-- NT_OFS is stepped to zero offset. -/
def State.ntStep (s : State) (offset : Int) : State :=
  let s := s.setPair NT_OFS_LO NT_OFS_HI (s.pair NT_OFS_LO NT_OFS_HI - bvInt 64 offset)
  (s.satCount NT_STEP_CNT).raise TS_STATUS 3

/-- RATE_TRIM in 10^−9, signed. -/
def State.trim (s : State) : Int := (s.reg RATE_TRIM).toInt

/-- The changes of the trim in the second that ends with the present tick. -/
def State.recentTrims (s : State) : List (Tick × Nat) := s.ts.trims.filter (fun e => decide (ahead s.mt e.1 < 800000000))

/-- The trim takes value `v`, and the change is noted. -/
def State.setTrim (s : State) (v : Int) : State :=
  let d := (v - s.trim).natAbs
  { s.setReg RATE_TRIM (bvInt 32 v) with ts := { s.ts with trims := s.recentTrims ++ [(s.mt, d)] } }

/-- The servo adjusts the trim: by how much is open, within 5 ppm in any second and ±250 ppm. -/
def State.trimAdjust (s : State) : State :=
  let most := 5000 - (s.recentTrims.map Prod.snd).sum
  let d : Int := (s.freeValue.toNat % (2 * most + 1) : Nat) - (most : Int)
  (s.setTrim (clampInt (-250000) 250000 (s.trim + d))).useFree

/-- In OFF and GRANDMASTER the trim slews to 0, by open amounts. -/
def State.trimSlew (s : State) : State :=
  if (s.tsState = 0 || s.tsState = 4) && s.reg RATE_TRIM != 0 && s.mt.toNat % 160000 = 0 then
    let d : Int := (s.freeValue.toNat % (s.trim.natAbs + 1) : Nat)
    (s.setTrim (if 0 ≤ s.trim then s.trim - d else s.trim + d)).useFree
  else s

def ns100 : Nat := 5120
def us1 : Nat := 51200

/-- A step of NT_OFS that begins ACQUIRE afresh from `off`: the Sync that shows it counts for LOCKED when it is within 100 ns (R331). -/
def State.acquireStep (s : State) (off : Int) : State :=
  let s := s.ntStep off
  { s with ts := { s.ts with measured := true, good := if off.natAbs ≤ ns100 then 1 else 0 } }

/-- The servo of R331 with a measured offset. -/
def State.servo (s : State) (off : Int) : State :=
  match s.tsState with
  | 1 =>
    if !s.ts.measured then (s.acquireStep off).trimAdjust
    else
      let good := if off.natAbs ≤ ns100 then s.ts.good + 1 else 0
      let s := { s with ts := { s.ts with good := good } }.trimAdjust
      if 16 ≤ good then s.setTsState 2 else s
  | 2 => if us1 < off.natAbs then (s.acquireStep off).setTsState 1 else s.trimAdjust
  | 3 => if us1 < off.natAbs then (s.acquireStep off).setTsState 1 else s.setTsState 2
  | _ => s

/-- The NT stamp of `s` seconds and `ns` nanoseconds after the PTP epoch: round((s × 10^9 + ns) × 51.2) modulo 2^64 (R330). -/
def ntOf (s ns : Nat) : Stamp := BitVec.ofNat 64 (((s * 1000000000 + ns) * 512 + 5) / 10)

/-- The receive and the transmit latency of a port in fine steps, from OTP (R329, R381): 4 bytes each, port 0 first
(notes/assumptions/41.md). -/
def rxLatency (p : Nat) : Nat := leNat ((List.range 4).map (fun i => Config.otpByte (0x100 + 8 * p + i)))
def txLatency (p : Nat) : Nat := leNat ((List.range 4).map (fun i => Config.otpByte (0x104 + 8 * p + i)))

/-- The stamp of a time of IEEE 802.1AS (R330). -/
def stampOf (t : PtpTime) : Stamp := ntOf t.seconds.toNat t.ns.toNat

/-- The local stamps of a frame that is received or leaves in the present tick: those of the PCS boundary, corrected by the port's latency
(R329). -/
def State.rxStamp (s : State) (p : Nat) : Stamp := s.now - BitVec.ofNat 64 (rxLatency p)
def State.txStamp (s : State) (p : Nat) : Stamp := s.now + BitVec.ofNat 64 (txLatency p)

/-- The NT stamp of a local one (R330). -/
def State.ntAt (s : State) (st : Stamp) : Stamp := st + s.pair NT_OFS_LO NT_OFS_HI

/-- The offset that a Sync received in the present tick shows, local less master: the master's time is the origin of the Follow_Up with its
correction and the delay of the path (R329 to R331). -/
def State.syncOffset (s : State) (p : Nat) (origin : PtpTime) (correction : BitVec 32) : Int :=
  ahead (s.ntAt (s.rxStamp p)) (stampOf origin + correction.zeroExtend 64 + (s.port p).pathDelay)

/-- A Sync and its Follow_Up at the slave port (R331). -/
def State.ptpSync (s : State) (p : Nat) (origin : PtpTime) (correction : BitVec 32) : State :=
  if s.portRole p == 2 && s.slavePort == p && decide (1 ≤ s.tsState) && decide (s.tsState ≤ 3) then
    let off := s.syncOffset p origin correction
    let s := s.setReg OFFSET (bvInt 32 (clampInt (-(2 ^ 31)) (2 ^ 31 - 1) off))
    { s with ts := { s.ts with lastSync := s.mt, seconds := origin.seconds } }.servo off
  else s

/-- The response to the open Pdelay_Req: half of what its way there and back took, less the time that the peer held it and the correction, is
the delay of the path (R329; the peer's rate is taken as the own, notes/assumptions/41.md). -/
def State.ptpDelay (s : State) (p : Nat) (received responded : PtpTime) (correction : BitVec 32) : State :=
  let c := s.port p
  match c.pdelayOpen with
  | some t1 =>
    let way := ahead (s.rxStamp p) t1 - ahead (stampOf responded) (stampOf received) - (correction.toNat : Int)
    s.setPort p { c with pdelayOpen := none, pathDelay := bvInt 64 (way / 2) }
  | none => s

/-- GPTP_SYNC: a message of IEEE 802.1AS with times, at a port that runs it: a Sync; a Pdelay_Req, which is answered with its receipt;
a Pdelay_Resp (R329, R331). In OFF there are no messages. -/
def State.gptpSync (s : State) (p : Nat) (f : RxFrame) (m : PtpMessage) (correction : BitVec 32) : State :=
  s.receive p f false (fun s =>
    if !s.ptpOn p || s.tsState == 0 then s
    else match m with
      | .sync origin => s.ptpSync p origin correction
      | .pdelayReq identity => s.sendFrame p .gptp (.pdelayResp identity (s.rxStamp p))
      | .pdelayResp received responded => s.ptpDelay p received responded correction)

def execGptpSync (a : Arrival) (m : PtpMessage) (correction : BitVec 32) (s : State) : Host.Outcome State Fault Refusal :=
  .next (s.onTclk (s.gptpSync a.port a.frame m correction))

/-- What the departure of a frame in the present tick brings: the Follow_Up of a Sync and of a response, with the stamp at which it left, and
the open request (R329). -/
def State.frameLeft (s : State) (p : Nat) : Frame → State
  | .sync => s.sendFrame p .gptp (.followUp (s.ntAt (s.txStamp p)))
  | .pdelayReq => s.setPort p { s.port p with pdelayOpen := some (s.txStamp p) }
  | .pdelayResp identity _ => s.sendFrame p .gptp (.pdelayRespFollowUp identity (s.txStamp p))
  | _ => s

/-- A tick ends: while the link is up and the wire is free, the next frame leaves and takes the wire for its length (R336). -/
def State.portSend (s : State) (p : Nat) : State :=
  match nextFrame (s.port p).tx with
  | some f =>
    if s.portUp p && s.reached (s.port p).txFree then
      let s := s.setPort p { s.port p with tx := (s.port p).tx.erase f, txFree := s.mt + BitVec.ofNat 64 f.ticks }
      (s.send (.frame p f.vlan f.frame)).frameLeft p f.frame
    else s
  | none => s

/-- SYNC_TIMEOUT. -/
def State.syncTimeout (s : State) : State :=
  if s.mainRuns && s.tsState == 2 && s.reached (s.ts.lastSync + BitVec.ofNat 64 (3 * s.syncInterval)) then s.setTsState 3 else s

def execSyncTimeout (s : State) : Host.Outcome State Fault Refusal :=
  .next (s.onTclk s.syncTimeout)

/-- The device's clockIdentity, the EUI-64 of the MAC of port 0 (PRESUMED, notes/assumptions/41.md). -/
def clockIdentity : BitVec 64 :=
  let m := macOf 0
  (m >>> 24).truncate 24 ++ 0xFFFE#16 ++ m.truncate 24

/-- The order of the best master clock algorithm: the vector of smaller rank is the better one. -/
def vectorRank (v : PriorityVector) : Nat :=
  (v.priority1 ++ v.clockClass ++ v.accuracy ++ v.variance ++ v.priority2 ++ v.identity ++ v.steps ++ v.source).toNat

/-- The device's own vector as port `p` sends it: priority1 of TS_CTRL, priority2 248, clockClass 255 when GM_CAPABLE is 0 (R329). The other
values are those of IEEE 802.1AS for a clock of unknown accuracy (notes/assumptions/41.md). -/
def State.ownVector (s : State) (p : Nat) : PriorityVector :=
  { priority1 := BitVec.ofNat 8 (s.fld TS_CTRL 15 8), clockClass := if s.bit TS_CTRL 1 then 248 else 255, accuracy := 0xFE, variance := 0x436A,
    priority2 := 248, identity := clockIdentity, steps := 0, source := clockIdentity ++ BitVec.ofNat 16 (p + 1) }

/-- The path that the last Announce of port `p` offers, unless it is older than three Announce intervals (notes/assumptions/41.md). -/
def State.pathVector (s : State) (p : Nat) : Option PriorityVector :=
  match (s.port p).announced with
  | some (t, v) => if s.ptpOn p && !s.reached (t + 2400000000) then some { v with steps := v.steps + 1 } else none
  | none => none

/-- The port with the best path, port 0 first among equals. -/
def State.bestPort (s : State) : Option (Nat × PriorityVector) :=
  match s.pathVector 0, s.pathVector 1 with
  | some v, some w => if vectorRank w < vectorRank v then some (1, w) else some (0, v)
  | some v, none => some (0, v)
  | none, some w => some (1, w)
  | none, none => none

/-- The device itself is the best master: it is capable, and no port has a better path. -/
def State.ownBest (s : State) : Bool :=
  s.bit TS_CTRL 1 && (match s.bestPort with | some (_, v) => decide (vectorRank (s.ownVector 0) ≤ vectorRank v) | none => true)

/-- What port `p` announces while it is master: the grandmaster that the device follows, or the device itself. -/
def State.announceVector (s : State) (p : Nat) : PriorityVector :=
  match (if s.tsState = 4 then none else s.pathVector s.slavePort) with
  | some v => { v with source := clockIdentity ++ BitVec.ofNat 16 (p + 1) }
  | none => s.ownVector p

/-- The device becomes grandmaster. -/
def State.becomeGrandmaster (s : State) : State :=
  let s := foldBelow 2 (fun s p => if s.ptpOn p then s.setRole p 1 else s) s
  (s.setPair GM_ID_LO GM_ID_HI clockIdentity).setTsState 4

/-- BMCA_GRANDMASTER: the best master clock algorithm selects this device. -/
def State.bmcaGrandmaster (s : State) : State :=
  if s.mainRuns && s.bit TS_CTRL 0 && s.ownBest then s.becomeGrandmaster else s

def execBmcaGrandmaster (s : State) : Host.Outcome State Fault Refusal :=
  .next (s.onTclk s.bmcaGrandmaster)

/-- Port `p` has the best path, to the grandmaster of `v`: it is slave, and a port that becomes slave starts ACQUIRE. The other port is
passive when what it hears is better than what it would announce, else master. -/
def State.followPort (s : State) (p : Nat) (v : PriorityVector) : State :=
  let was := s.portRole p == 2 && decide (1 ≤ s.tsState) && decide (s.tsState ≤ 3)
  let q := 1 - p
  let own : PriorityVector := { v with source := clockIdentity ++ BitVec.ofNat 16 (q + 1) }
  let passive := match (s.port q).announced, s.pathVector q with
    | some (_, w), some _ => decide (vectorRank w < vectorRank own)
    | _, _ => false
  let s := (s.setRole p 2).setPair GM_ID_LO GM_ID_HI v.identity
  let s := if s.ptpOn q then s.setRole q (if passive then 3 else 1) else s
  if was then s
  else
    let s := s.setFld TS_STATUS 8 8 p
    { s with ts := { s.ts with measured := false, good := 0, lastSync := s.mt } }.setTsState 1

/-- GPTP_ANNOUNCE: the Announce is kept, unless it comes from this device or over 255 steps, and the best master clock algorithm decides. -/
def State.gptpAnnounce (s : State) (p : Nat) (f : RxFrame) (v : PriorityVector) : State :=
  s.receive p f false (fun s =>
    if !s.ptpOn p || (v.source >>> 16).truncate 64 == clockIdentity || decide (255 ≤ v.steps.toNat) then s
    else
      let s := s.setPort p { s.port p with announced := some (s.mt, v) }
      if s.ownBest then s.becomeGrandmaster
      else match s.bestPort with
        | some (q, w) => s.followPort q w
        | none => s)

def execGptpAnnounce (p : Fin 2) (f : RxFrame) (v : PriorityVector) (s : State) : Host.Outcome State Fault Refusal :=
  .next (s.onTclk (s.gptpAnnounce p f v))

/-- A periodic message is due: `n` ticks have passed since the last one. -/
def State.dueAfter (s : State) (last : Option Tick) (n : Nat) : Bool :=
  match last with
  | some t => s.reached (t + BitVec.ofNat 64 n)
  | none => true

/-- The Sync of a master port; its Follow_Up comes when it has left. -/
def State.sendSync (s : State) (p : Nat) : State :=
  (s.setPort p { s.port p with syncSent := some s.mt }).sendFrame p .gptp .sync

/-- The Announce of a master port. -/
def State.sendAnnounce (s : State) (p : Nat) : State :=
  let s := s.setPort p { s.port p with annSent := some s.mt }
  s.sendFrame p .gptp (.announce (s.announceVector p))

/-- GPTP_SYNC_SEND: the periodic messages of a port that are due: of a master, Sync in every Sync interval and Announce in
every second; of each port, Pdelay_Req in every second. In OFF there are none. -/
def State.gptpSyncSend (s : State) (p : Nat) : State :=
  if s.ptpOn p && s.tsState != 0 then
    let c := s.port p
    let s := if s.portRole p == 1 && s.dueAfter c.syncSent s.syncInterval then s.sendSync p else s
    let s := if s.portRole p == 1 && s.dueAfter c.annSent 800000000 then s.sendAnnounce p else s
    if s.dueAfter c.pdelaySent 800000000 then
      (s.setPort p { s.port p with pdelaySent := some s.mt }).sendFrame p .gptp .pdelayReq
    else s
  else s

def execGptpSyncSend (p : Fin 2) (s : State) : Host.Outcome State Fault Refusal :=
  .next (s.onTclk (s.gptpSyncSend p))

/-- A write to TS_CTRL: EN = 0 is OFF. -/
def State.tsCtrlWrite (s : State) (v : Word) : State :=
  let s := s.plainWrite TS_CTRL v
  if s.bit TS_CTRL 0 then s else ((s.setRole 0 0).setRole 1 0).setTsState 0

/-- TS_SNAP_TAKE: MT and NT of the commit tick. -/
def State.tsSnap (s : State) (v : Word) : State :=
  if bitOf v 0 then (s.setPair TS_SNAP_MT_LO TS_SNAP_MT_HI s.mt).setPair TS_SNAP_NT_LO TS_SNAP_NT_HI s.ntNow else s

def execTsSnapTake (v : Word) (s : State) : Host.Outcome State Fault Refusal :=
  .next (s.hostWrite TS_SNAP_CTRL v fun s => s.tsSnap v)

/-! ### Peers (R334, R335) -/

def State.peerUsed (s : State) (p e : Nat) : Bool := s.bit (PEER_INFO p e) 31 || s.bit (PEER_INFO p e) 30

/-- The entry of the peer at `ip`, `udp`. -/
def State.findPeer (s : State) (p : Nat) (ip : Word) (udp : BitVec 16) : Option Nat :=
  (List.range 32).find? (fun e => s.peerUsed p e && s.reg (PEER_IP p e) == ip && s.fld (PEER_UDP p e) 15 0 == udp.toNat)

/-- A change of an entry sets PEER_CHG. -/
def State.peerChange (s : State) (p : Nat) : State := (s.raise (PORT_STATUS p) 2).portEvent p

/-- Every word of entry `e` at its reset value. -/
def State.clearPeer (s : State) (p e : Nat) : State :=
  let s := foldBelow 8 (fun s i => s.setReg (PEER_INFO p e + 4 * i) 0) s
  let c := s.port p
  s.setPort p { c with heard := c.heard.erase e, lastMsg := c.lastMsg.erase e }

/-- An entry with DEV and SESS both 0 is freed. -/
def State.freePeer (s : State) (p e : Nat) : State := if s.peerUsed p e then s else s.clearPeer p e

/-- A new entry for a key: the lowest free one, with flag `flag` (31 DEV, 30 SESS); none when all are in use. -/
def State.newPeer (s : State) (p : Nat) (ip : Word) (udp : BitVec 16) (flag : Nat) : Option (Nat × State) :=
  match (List.range 32).find? (fun e => !s.peerUsed p e) with
  | some e =>
    let s := (s.clearPeer p e).setBit (PEER_INFO p e) flag true
    some (e, (s.setReg (PEER_IP p e) ip).setReg (PEER_UDP p e) (udp.zeroExtend 32))
  | none => none

/-- SESS and the session version of an entry clear. -/
def State.closeSession (s : State) (p e : Nat) : State := (s.setBit (PEER_INFO p e) 30 false).setFld (PEER_INFO p e) 3 0 0

/-- PEER_AGE as it reads: ms since the last DISCOVER. -/
def State.peerAge (s : State) (p e : Nat) : Word :=
  match (s.port p).heard.lookup e with
  | some t => BitVec.ofNat 32 (min 0xFFFF ((s.mt - t).toNat / 800000))
  | none => 0

/-- The words of an announcement of `len` payload bytes, when header and length are right (R333). -/
def announcement (h0 : Word) (len : Nat) (bytes : List Byte) : Option (List Word) :=
  let ws := bytesWords bytes
  if bytes.length = 16 + len ∧ ws.getD 0 0 = h0 ∧ bitsOf (ws.getD 1 0) 15 0 = len ∧ ws.getD 2 0 = 0 ∧ ws.getD 3 0 = 0 then some ws else none

/-- The payload of a DISCOVER keeps its zero fields (R334). -/
def discoverOk (w : Nat → Word) : Bool :=
  bitsOf (w 5) 31 16 == 0 && (w 9 &&& 0xFFFFFEF8#32) == 0 && bitsOf (w 10) 31 16 == 0 && bitsOf (w 11) 31 16 == 0

/-- What a DISCOVER with payload words `w` puts into entry `e`: flags, versions, SEALED, identity, part and microcode. -/
def State.notePeer (s : State) (p e : Nat) (w : Nat → Word) : State :=
  let info := setBits (putBit (putBit (s.reg (PEER_INFO p e)) 31 true) 8 (bitOf (w 9) 8)) 18 16 (bitsOf (w 9) 2 0)
  let s := s.setReg (PEER_INFO p e) info
  let s := (s.setReg (PEER_ID_LO p e) (w 4)).setReg (PEER_ID_HI p e) (w 5)
  let s := (s.setReg (PEER_PART p e) (w 6)).setReg (PEER_UCODE p e) (w 8)
  let c := s.port p
  s.setPort p { c with heard := Table.insert (c.heard.erase e) e s.mt }

/-- The readable words of an entry but for PEER_AGE. -/
def State.peerWords (s : State) (p e : Nat) : List Word := [0, 1, 2, 3, 4, 6, 7].map (fun i => s.reg (PEER_INFO p e + 4 * i))

/-- The peer of entry `e` was gone by age, its session still open, and returns with the identity of payload words `w`: it gets a new entry, and the
session is not restored (R335). -/
def State.peerReturns (s : State) (p e : Nat) (w : Nat → Word) : Bool :=
  let lo := s.reg (PEER_ID_LO p e)
  let hi := s.reg (PEER_ID_HI p e)
  !s.bit (PEER_INFO p e) 31 && (lo != 0 || hi != 0) && lo == w 4 && hi == w 5

/-- A DISCOVER received on ANN_PORT (R333, R335). -/
def State.discoverIn (s : State) (p : Nat) (ip : Word) (udp : BitVec 16) (bytes : List Byte) : State :=
  match announcement (0x50300800#32 : Word) 32 bytes with
  | none => s.satCount (PONAR_DISCARD p)
  | some ws =>
    let w (i : Nat) : Word := ws.getD i 0
    if !discoverOk w then s.satCount (PONAR_DISCARD p)
    else if w 4 = loWord ((macOf 0).zeroExtend 64) ∧ w 5 = hiWord ((macOf 0).zeroExtend 64) then s
    else match s.findPeer p ip udp with
    | some e =>
      if s.peerReturns p e w then
        match (((s.closeSession p e).freePeer p e).peerChange p).newPeer p ip udp 31 with
        | some (e, s) => ((s.notePeer p e w).satCount (PEER_NEW_CNT p)).peerChange p
        | none => s
      else
      let old := s.peerWords p e
      let known := s.reg (PEER_ID_LO p e) != 0 || s.reg (PEER_ID_HI p e) != 0
      let s := if known && (s.reg (PEER_ID_LO p e) != w 4 || s.reg (PEER_ID_HI p e) != w 5) then
          ((s.closeSession p e).satCount (PEER_GONE_CNT p)).satCount (PEER_NEW_CNT p)
        else s
      let s := s.notePeer p e w
      if s.peerWords p e = old then s else s.peerChange p
    | none =>
      match s.newPeer p ip udp 31 with
      | some (e, s) => ((s.notePeer p e w).satCount (PEER_NEW_CNT p)).peerChange p
      | none => s.satCount (PEER_FULL_CNT p)

/-- DISCOVER. -/
def State.discover (s : State) (p : Nat) (f : RxFrame) (ip : Word) (udp : BitVec 16) (bytes : List Byte) : State :=
  s.receiveUdp p f (s.fld (UDP_PORTS p) 31 16) (fun s => s.discoverIn p ip udp bytes)

def execDiscover (a : Arrival) (ip : Word) (udp : BitVec 16) (bytes : List Byte) (s : State) : Host.Outcome State Fault Refusal :=
  .next (s.onTclk (s.discover a.port a.frame ip udp bytes))

/-- The export map of a DISCOVER. -/
def State.exportMap (s : State) : Word :=
  (List.range 16).foldl (fun w h => putBit w h (s.bit (EXP_CTRL h) 0 && s.shState h != 0)) 0

/-- DISCOVER_SEND: each 800 000 000 ticks from the tick in which LINK became 1. SEQ is open (a free value). -/
def State.discoverSend (s : State) (p : Nat) : State :=
  let c := s.port p
  let k := (s.mt - c.linkTick).toNat
  if s.portUp p && decide (k % 800000000 = 0) && decide (0 < k) && c.discSent != some s.mt then
    let id : BitVec 64 := (macOf 0).zeroExtend 64
    let h1 : Word := setBits (setBits 0 31 16 s.freeValue.toNat) 15 0 32
    let ws := [0x50300800#32, h1, 0, 0, loWord id, hiWord id, s.reg ID_PART, s.reg ID_STEP, s.reg ID_UCODE,
               setBits (putBit 0 8 s.nvm.sealed) 2 0 7, s.exportMap, BitVec.ofNat 32 (s.fld (UDP_PORTS p) 15 0)]
    let s := (s.setPort p { c with discSent := some s.mt }).useFree
    s.sendUdp p .discover groupIp (BitVec.ofNat 16 (s.fld (UDP_PORTS p) 31 16)) ws
  else s

def execDiscoverSend (p : Fin 2) (s : State) : Host.Outcome State Fault Refusal :=
  .next (s.onTclk (s.discoverSend p))

/-- PEER_AGE_EXPIRY: no DISCOVER for 3 500 ms. -/
def State.peerAgeExpiry (s : State) (p e : Nat) : State :=
  match (s.port p).heard.lookup e with
  | some t =>
    if s.mainRuns && s.bit (PEER_INFO p e) 31 && s.reached (t + 2800000000) then
      ((((s.setBit (PEER_INFO p e) 31 false).satCount (PEER_GONE_CNT p)).freePeer p e).peerChange p)
    else s
  | none => s

def execPeerAgeExpiry (p : Fin 2) (e : Fin 32) (s : State) : Host.Outcome State Fault Refusal :=
  .next (s.onTclk (s.peerAgeExpiry p e))

/-- SESSION_IDLE_EXPIRY: SESS_IDLE seconds with no message that passes the session checks. -/
def State.sessionIdleExpiry (s : State) (p e : Nat) : State :=
  let idle := s.fld (SESS_CFG p) 7 0
  match (s.port p).lastMsg.lookup e with
  | some t =>
    if s.mainRuns && s.bit (PEER_INFO p e) 30 && idle != 0 && s.reached (t + BitVec.ofNat 64 (idle * 800000000)) then
      ((s.closeSession p e).freePeer p e).peerChange p
    else s
  | none => s

def execSessionIdleExpiry (p : Fin 2) (e : Fin 32) (s : State) : Host.Outcome State Fault Refusal :=
  .next (s.onTclk (s.sessionIdleExpiry p e))

/-! ### User datagrams (R336) -/

/-- USER_DATAGRAM_RX: a datagram on USER_PORT. -/
def State.userRx (s : State) (p : Nat) (f : RxFrame) (bytes : List Byte) : State :=
  s.receiveUdp p f (s.fld (USER_CFG p) 31 16) (fun s =>
    if s.bit (PORT_CTRL p) 6 && bytes.length == 16 then
      s.ringGather (s.fld (USER_CFG p) 5 0) (rankPort p) (.net p (BitVec.ofNat 128 (leNat bytes)))
    else s.rxDiscard p)

def execUserDatagramRx (a : Arrival) (bytes : List Byte) (s : State) : Host.Outcome State Fault Refusal :=
  .next (s.onTclk (s.userRx a.port a.frame bytes))

/-- The four words of a ring entry. -/
def entryWords (e : BitVec 128) : List Word :=
  [e.truncate 32, (e >>> 32).truncate 32, (e >>> 64).truncate 32, (e >>> 96).truncate 32]

/-- USER_DATAGRAM_TX: one entry of TX_RING is taken and sent. An entry that holds an uncorrectable error is taken and not sent (R265). -/
def State.userTx (s : State) (p : Nat) : State :=
  if s.portUp p && s.bit (PORT_CTRL p) 6 then
    match s.ringPop (s.fld (USER_CFG p) 13 8) (0x21 + p) with
    | (_, some e, s) => s.sendUdp p .user (s.reg (TX_DEST_IP p)) (BitVec.ofNat 16 (s.fld (TX_DEST_UDP p) 15 0)) (entryWords e)
    | (_, none, s) => s
  else s

def execUserDatagramTx (p : Fin 2) (s : State) : Host.Outcome State Fault Refusal :=
  .next (s.onTclk (s.userTx p))

/-! ### Export (R337, R338) -/

/-- The model position before the clamp as the present tick began, rounded to the SU. -/
def State.exportPos (s : State) (h : Nat) : BitVec 64 :=
  if s.shGenerator h then s.shPosStamp h s.now else bvInt 64 (roundEven ((s.shaft h).est.posAt s.now))

/-- Velocity, acceleration and STALLED as the present tick began: those of a generator have moved on since (R148). -/
def State.exportMotion (s : State) (h : Nat) : Int × Int × Bool :=
  if s.shGenerator h then (s.shaft h).genStart else let m := s.shMotion h; (m.1, m.2.1, s.shStalled h)

/-- The words of a SHAFT_EXPORT. -/
def State.exportWords (s : State) (h : Nat) (seq : Nat) : List Word :=
  let st := s.reg (SH_STATUS h)
  let p := s.exportPos h
  let w0 := setBits (setBits (setBits (setBits (0x01000000#32 : Word) 19 16 h) 15 11 (s.shCycleRevs h)) 10 7 (s.cycleOf h (hiWord p))) 2 0 (bitsOf st 2 0)
  let m := s.exportMotion h
  let w0 := putBit (putBit (putBit w0 6 (bitOf st 7)) 5 (bitOf st 6)) 4 m.2.2
  let id : BitVec 64 := (macOf 0).zeroExtend 64
  let v := bvInt 64 m.1
  let a := bvInt 64 m.2.1
  let nt := s.ntNow
  [0x50300900#32, setBits (setBits 0 31 16 seq) 15 0 64, 0, 0,
   w0, loWord id, hiWord id, 0, loWord nt, hiWord nt, loWord p, hiWord p, loWord v, hiWord v, loWord a, hiWord a,
   s.reg GM_ID_LO, s.reg GM_ID_HI, setBits 0 2 0 s.tsState, 0]

/-- The time-sync states that carry network time. -/
def State.tsGood (s : State) : Bool := s.tsState == 2 || s.tsState == 3 || s.tsState == 4

def State.exportLast (s : State) (h : Nat) : Option Tick := s.exports.get (fun _ => none) h

/-- EXPORT_SAMPLE: the sample of a tick with (MT − EXP_PHASE) mod 200 000 = 0. -/
def State.exportSample (s : State) (h : Nat) : State :=
  let due := ((s.mt.toNat : Int) - s.fld (EXP_PHASE h) 17 0) % 200000 == 0
  if s.mainRuns && s.bit (EXP_CTRL h) 0 && s.shState h != 0 && due && s.exportLast h != some s.mt then
    let s := { s with exports := s.exports.set (fun _ => none) h (some s.mt) }
    if s.shSrc h = 4 || !s.tsGood then s.satCount (EXP_HELD h)
    else
      let ports := [0, 1].filter (fun p => s.bit (EXP_CTRL h) (1 + p) && s.portUp p)
      if ports.isEmpty then s
      else
        let seq := (s.fld (EXP_SEQ h) 15 0 + 1) % 65536
        let s := (s.setReg (EXP_SEQ h) (BitVec.ofNat 32 seq)).count (EXP_SENT h)
        let ip := if s.bit (EXP_CTRL h) 3 then s.reg (EXP_DEST_IP h) else groupIp
        let ws := s.exportWords h seq
        ports.foldl (fun s p => s.sendUdp p .exported ip (BitVec.ofNat 16 (s.fld (UDP_PORTS p) 31 16)) ws) s
  else s

def execExportSample (sh : Fin 16) (s : State) : Host.Outcome State Fault Refusal :=
  .next (s.onTclk (s.exportSample sh))

/-! ### Import (R339 to R343) -/

/-- The enabled shafts that take slot `i`. -/
def State.importers (s : State) (i : Nat) : List Nat :=
  (List.range 16).filter (fun h => s.shEn h && s.shSrc h == 4 && s.shIface h == i)

/-- The state of a slot: that of the lowest-numbered shaft that takes it, STOPPED with none (notes/assumptions/42.md). -/
def State.slotState (s : State) (i : Nat) : Nat := match s.importers i with | h :: _ => s.shState h | [] => 0

/-- A write to a configuration register of slot `i` at offset `off`. -/
def State.impWrite (s : State) (i off : Nat) (v : Word) : State :=
  if (s.importers i).isEmpty then s.plainWrite (IMP_CFG i + off) v else s.raise (IMP_STATUS i) 23

/-- Words of a SHAFT_EXPORT that must be zero, and its FORMAT (R338). -/
def exportFormatOk (w : Nat → Word) : Bool :=
  bitsOf (w 4) 31 24 == 1 && bitsOf (w 4) 23 20 == 0 && bitOf (w 4) 3 == false && bitsOf (w 6) 31 16 == 0 && w 7 == 0 &&
  bitsOf (w 18) 31 3 == 0 && w 19 == 0

/-- LAST_REJECT and IMP_REJECT of a rejected message. -/
def State.importReject (s : State) (i code : Nat) : State := (s.setFld (IMP_STATUS i) 31 24 code).satCount (IMP_REJECT i)

/-- The code of the first check of R339 that fails, 0 when all pass; `sl` is the local stamp. -/
def State.importCheck (s : State) (i : Nat) (w : Nat → Word) (sl : Stamp) : Nat :=
  let st := bitsOf (w 18) 2 0
  let age := ahead s.now sl
  let most := s.fld (IMP_MAX_AGE i) 23 0
  if !exportFormatOk w then 0x19
  else if !s.tsGood || w 16 != s.reg GM_ID_LO || w 17 != s.reg GM_ID_HI || (st != 2 && st != 3 && st != 4) then 0x30
  else if age < -51200 ∨ (most ≠ 0 ∧ ((64 * most : Nat) : Int) < age) then 0x31
  else if (s.importers i).any (fun h => s.shCycleRevs h != bitsOf (w 4) 15 11) then 0x32
  else 0

/-- DIR of an importing shaft takes the value of a message; the model runs on until the restart is published (R147, R340). -/
def State.importDir (s : State) (h : Nat) (d : Bool) : State :=
  if s.shRev h = d then s
  else
    let s := s.setBit (SH_STATUS h) 6 d
    ((s.setShaft h { s.shaft h with toothRev := d }).weirShaftDir h).swapFreeze h

/-- The model that a message with local stamp `sl` gives (R340). -/
def messageEstimate (w : Nat → Word) (sl : Stamp) : Estimate :=
  { stamp := sl, pos := ofWords (w 11) (w 10), omega := (ofWords (w 13) (w 12)).toInt, alpha := (ofWords (w 15) (w 14)).toInt, n := 3,
    rev := bitOf (w 4) 5, clampAt := none, p1 := none, pe := none }

/-- The model of an importing shaft restarts from an accepted message: a publication 64 ticks on, with DIR, STALLED, CYCLE_REV and
CYCLE_VALID of the message (R340). -/
def State.importRestart (s : State) (h : Nat) (w : Nat → Word) (sl : Stamp) : State :=
  let pos := ofWords (w 11) (w 10)
  let stalled := bitOf (w 4) 4
  let s := s.importDir h (bitOf (w 4) 5)
  let wasStalled := s.shStalled h
  let s := s.setBit (SH_STATUS h) 5 stalled
  let s := if stalled && !wasStalled then ((s.shaftEvent h 3).weirShaftStall h).swapFreeze h else s
  let changed := s.shCycleValid h != bitOf (w 4) 6 || s.cycleOf h (hiWord pos) != bitsOf (w 4) 10 7
  let s := s.setBit (SH_STATUS h) 7 (bitOf (w 4) 6)
  let s := s.setShaft h { s.shaft h with
    next := (s.shaft h).next ++ [(s.mt + 64, messageEstimate w sl)], cycleRev := bitsOf (w 4) 10 7,
    cycleSeen := hiWord ((s.shaft h).held.getD pos), dirTooth := false, afterStall := false }
  if changed && bitOf (w 4) 6 then s.weirCycle h else s

/-- An accepted message begins a candidate with itself: the model restarts, and the position holds where it is (R341, R343). -/
def State.importCandidate (s : State) (h : Nat) (w : Nat → Word) (sl : Stamp) : State :=
  let c := s.shaft h
  let s := s.setShaft h { c with held := some (s.shPos h), fromLost := if s.shState h = 2 then c.fromLost else s.shState h == 5 }
  (s.enterState h 2).importRestart h w sl

/-- The candidate is confirmed: the state is that of the message, the position takes its model's value at once, and the move from the held
position is a recorded jump when the candidate began in LOST (R341, R343). -/
def State.importConfirm (s : State) (h : Nat) (w : Nat → Word) (sl : Stamp) : State :=
  let p0 := s.shPos h
  let s := s.setShaft h { s.shaft h with held := none, next := [], est := messageEstimate w sl }
  let s := (s.reportEstimate h).enterState h (bitsOf (w 4) 2 0)
  let s := s.importRestart h w sl
  let s := if (s.shaft h).fromLost then s.jump h (s.shPos h - p0) 1 else s
  (s.setShaft h { s.shaft h with jumpDue := false }).shaftJumped h p0

/-- An importing shaft is LOST: a candidate's model is discarded with it, and CYCLE_VALID clears (R142, R341). -/
def State.importLost (s : State) (h : Nat) : State :=
  (if s.shState h = 2 then (s.hold h).setBit (SH_STATUS h) 7 false else s).enterState h 5

/-- What an accepted message does to one importing shaft; `follows` says that its SEQ follows LAST_SEQ (R340, R341, R343). -/
def State.importShaft (s : State) (h : Nat) (w : Nat → Word) (sl : Stamp) (follows : Bool) : State :=
  let st := bitsOf (w 4) 2 0
  let cur := s.shState h
  if cur = 0 then s
  else if st ≠ 3 ∧ st ≠ 4 then s.importLost h
  else if cur = 3 ∨ cur = 4 then (s.enterState h st).importRestart h w sl
  else if cur = 2 ∧ follows then s.importConfirm h w sl
  else s.importCandidate h w sl

/-- An accepted message of slot `i`. -/
def State.importAccept (s : State) (i : Nat) (w : Nat → Word) (sl : Stamp) : State :=
  let seq := bitsOf (w 1) 31 16
  let last := s.fld (IMP_STATUS i) 15 0
  let gap := (seq + 65536 - last) % 65536
  let slot := s.slotState i
  let s := if (slot = 3 ∨ slot = 4) ∧ 1 < gap then s.satAdd (IMP_MISSED i) (gap - 1) else s
  let s := (s.setFld (IMP_STATUS i) 15 0 seq).setBit (IMP_STATUS i) 22 false
  let s := (s.setPair (IMP_LAST_LO i) (IMP_LAST_HI i) sl).count (IMP_RX i)
  (s.importers i).foldl (fun s h => s.importShaft h w sl (gap == 1)) s

/-- The message for slot `i` is checked, and accepted when it is new (R339). -/
def State.importMessage (s : State) (i : Nat) (w : Nat → Word) : State :=
  let sl := ofWords (w 9) (w 8) - s.pair NT_OFS_LO NT_OFS_HI
  let code := s.importCheck i w sl
  if code ≠ 0 then
    let s := s.importReject i code
    if code = 0x30 ∨ code = 0x32 then
      (s.importers i).foldl (fun s h => if 2 ≤ s.shState h ∧ s.shState h ≤ 4 then s.importLost h else s) (s.setBit (IMP_STATUS i) 22 false)
    else s
  else
    let slot := s.slotState i
    let ahead16 := signed 16 ((bitsOf (w 1) 31 16 + 65536 - s.fld (IMP_STATUS i) 15 0) % 65536)
    if slot = 1 ∨ slot = 5 ∨ 0 < ahead16 then s.importAccept i w sl else s.satCount (IMP_DUP i)

/-- A SHAFT_EXPORT received on ANN_PORT of port `p`. One that breaks its layout is counted in PONAR_DISCARD (R333); where the header and the
length still say which slot it is for, the slot rejects it as R339 says (notes/assumptions/84.md). -/
def State.shaftExportIn (s : State) (p : Nat) (bytes : List Byte) : State :=
    let ws := bytesWords bytes
    let w (i : Nat) : Word := ws.getD i 0
    if bytes.length ≠ 80 ∨ w 0 ≠ 0x50300900#32 ∨ bitsOf (w 1) 15 0 ≠ 64 ∨ w 2 ≠ 0 ∨ w 3 ≠ 0 then s.satCount (PONAR_DISCARD p)
    else
      let s := if exportFormatOk w then s else s.satCount (PONAR_DISCARD p)
      foldBelow 16 (fun s i =>
        if s.bit (IMP_CFG i) p && s.reg (IMP_ID_LO i) == w 5 && s.fld (IMP_ID_HI i) 15 0 == bitsOf (w 6) 15 0 &&
            s.fld (IMP_CFG i) 11 8 == bitsOf (w 4) 19 16 then s.importMessage i w
        else s) s

/-- SHAFT_EXPORT. -/
def State.shaftExport (s : State) (p : Nat) (f : RxFrame) (bytes : List Byte) : State :=
  s.receiveUdp p f (s.fld (UDP_PORTS p) 31 16) (fun s => s.shaftExportIn p bytes)

def execShaftExport (a : Arrival) (bytes : List Byte) (s : State) : Host.Outcome State Fault Refusal :=
  .next (s.onTclk (s.shaftExport a.port a.frame bytes))

/-- The present tick is at or after s_L of slot `i` plus `n` export periods (R342). -/
def State.importLate (s : State) (i n : Nat) : Bool :=
  decide (0 ≤ ahead s.now (s.pair (IMP_LAST_LO i) (IMP_LAST_HI i) + BitVec.ofNat 64 (n * 200000 * 64)))

def State.impTimeout (s : State) (i : Nat) : Nat := max 1 (s.fld (IMP_CFG i) 23 16)
def State.coastPeriods (s : State) (i : Nat) : Nat := s.fld (IMP_COAST i) 15 0

/-- The shafts of slot `i` that are in sync. -/
def State.importSynced (s : State) (i : Nat) : List Nat := (s.importers i).filter (fun h => s.shSync h)

/-- IMPORT_TIMEOUT: the shafts of the slot begin to coast, or with COAST_LIMIT = 0 are LOST. -/
def State.importTimeout (s : State) (h : Nat) : State :=
  let i := s.shIface h
  if s.mainRuns && (s.importSynced i).contains h && !s.bit (IMP_STATUS i) 22 && s.importLate i (s.impTimeout i) then
    if s.coastPeriods i = 0 then (s.importSynced i).foldl (fun s h => s.enterState h 5) s
    else
      let s := (s.setBit (IMP_STATUS i) 22 true).satCount (IMP_COAST_CNT i)
      (s.importSynced i).foldl (fun s h => s.enterState h 4) s
  else s

def execImportTimeout (sh : Fin 16) (s : State) : Host.Outcome State Fault Refusal :=
  .next (s.onTclk (s.importTimeout sh))

/-- COAST_LIMIT: the coast ends; the shafts are LOST and hold their model position. -/
def State.coastLimit (s : State) (h : Nat) : State :=
  let i := s.shIface h
  if s.mainRuns && (s.importSynced i).contains h && s.bit (IMP_STATUS i) 22 && s.importLate i (s.impTimeout i + s.coastPeriods i) then
    (s.importSynced i).foldl (fun s h => s.enterState h 5) (s.setBit (IMP_STATUS i) 22 false)
  else s

def execCoastLimit (sh : Fin 16) (s : State) : Host.Outcome State Fault Refusal :=
  .next (s.onTclk (s.coastLimit sh))

end Sys2Proof.Machine
end

