-- ==== Sys2Proof/Machine/Lifetime.lean ====
section
/-!
DEFINITION. The always-on island, the mirror, user calibration and temperature: spec/18_lifetime_and_calibration.md, R367 to R387, and
LFCLK of R350. The mirror's pages, sequence numbers and CRCs are not visible; the newest valid record is `nvm.mirror`.
-/

namespace Sys2Proof.Machine

open Reg

/-- The main domain has its rails and is not held in a POR or pin reset: its events can be delivered. -/
def State.mainPowered (s : State) : Bool :=
  match s.power.phase with | .hibernate => false | .por => false | .pinReset => false | _ => true

/-- The lifetime interrupt: SYSTEM, CAUSE bit 4 (R387). -/
def State.lifeEvent (s : State) : State := if s.mainPowered then s.sysEvent 4 else s

/-! ### Wear counters (R372 to R374) -/

def wearMax : BitVec 48 := BitVec.allOnes 48

/-- SAT_MAP bit of a counter that has reached 2^48 − 1. -/
def State.wearSat (s : State) (w : Nat) : State :=
  if s.bit (SAT_MAP (w / 32)) (w % 32) then s else (s.raise (SAT_MAP (w / 32)) (w % 32)).lifeEvent

/-- A counter with `n` events more, holding at 2^48 − 1. -/
def State.wearAdd (s : State) (w n : Nat) : State :=
  let v := (s.wear w).toNat + n
  if v < wearMax.toNat then s.setWear w (BitVec.ofNat 48 v) else (s.setWear w wearMax).wearSat w

/-- SRC of WEAR_CFG[w]: codes above 4 and an IDX outside the source's range act as 0 (R372). -/
def State.wearSrc (s : State) (w : Nat) : Nat :=
  let src := s.fld (WEAR_CFG w) 27 24
  let idx := s.fld (WEAR_CFG w) 8 0
  match src with
  | 1 => if idx < 384 then 1 else 0
  | 2 => if idx < 256 then 2 else 0
  | 3 => if idx < 384 then 3 else 0
  | 4 => if idx < 4 then 4 else 0
  | _ => 0

/-- WEAR_EVENT: an event that a main-domain source owes counter `w` reaches the island (R373). -/
def State.wearEvent (s : State) (w : Nat) : State :=
  match s.island.owed.get (fun _ => []) w with
  | [] => s
  | _ :: rest => ({ s with island := { s.island with owed := s.island.owed.set (fun _ => []) w rest } }.wearAdd w 1).noteHw (WEAR_LO w) 32 true

def execWearEvent (w : Fin 64) (s : State) : Host.Outcome State Fault Refusal := .next (s.wearEvent w)

/-- The power state whose LFCLK periods SRC 0x4 counts: 0 RUN, 1 DOZE, 2 NAP, 3 HIBERNATE. -/
def State.powerIndex (s : State) : Option Nat :=
  match s.power.phase with
  | .run => some (if s.fld PWR_STATUS 2 0 = 1 then 1 else 0)
  | .soft => some (if s.fld PWR_STATUS 2 0 = 1 then 1 else 0)
  | .nap => some 2
  | .waking => some 2
  | .hibernate => some 3
  | _ => none

/-- One LFCLK period for the counters of SRC 0x4: an event of the present tick, while ticks pass. -/
def State.wearPeriod (s : State) : State :=
  match s.powerIndex with
  | some i =>
    foldBelow 64 (fun s w =>
      if s.wearSrc w == 4 && s.fld (WEAR_CFG w) 8 0 == i then
        if s.tclk then (s.wearAdd w 1).noteHw (WEAR_LO w) 32 true else s.wearAdd w 1
      else s) s
  | none => s

/-- The events that have reached counter `w` in the present tick: a clear keeps them (R373). -/
def State.wearArrived (s : State) (w : Nat) : Nat :=
  (s.raised.filter (fun (u : HwSet) => u.addr == WEAR_LO w && u.bit == 32 && u.tick == s.mt)).length

/-- A write to WEAR_OP (R373). -/
def State.wearOp (s : State) (v : Word) : State :=
  let w := bitsOf v 5 0
  let refuse := s.raise WEAR_STATUS 0
  match bitOf v 9, bitOf v 8 with
  | true, true => refuse
  | true, false => if s.bit (WEAR_CFG w) 31 then refuse else s.setWear w (BitVec.ofNat 48 (s.wearArrived w))
  | false, true => if s.wearSrc w = 0 then s.wearAdd w (s.reg WEAR_ADD_VAL).toNat else refuse
  | false, false => s

/-- WEAR_ADD: the row of a WEAR_OP write with ADD. -/
def execWearAdd (v : Word) (s : State) : Host.Outcome State Fault Refusal :=
  .next (s.hostWrite WEAR_OP v fun s => s.wearOp v)

/-- WEAR_CLR: the row of a WEAR_OP write with CLR. -/
def execWearClr (v : Word) (s : State) : Host.Outcome State Fault Refusal :=
  .next (s.hostWrite WEAR_OP v fun s => s.wearOp v)

/-- A write to WEAR_CFG[w], ignored while LOCK is 1. -/
def State.wearCfgWrite (s : State) (w : Nat) (v : Word) : State :=
  if s.bit (WEAR_CFG w) 31 then s else s.plainWrite (WEAR_CFG w) v

/-- A read of WEAR_LO[w], as at the start of the BCLK cycle, latches WEAR_HI[w]. -/
def State.wearRead (s : State) (w : Nat) : Word × State :=
  let v : BitVec 64 := (s.cycleStart.wear w).zeroExtend 64
  (loWord v, s.setReg (WEAR_HI w) (hiWord v))

def execWearLoRead (w : Fin 64) (s : State) : Host.Outcome State Fault Refusal :=
  .next (s.hostRead fun s => s.wearRead w)

/-- A write to WEAR_TAKE: TAKE captures at the end of the tick (R374). -/
def State.wearTake (s : State) (v : Word) : State := if bitOf v 0 then s.noteTake .wear else s

/-- The capture: every counter, and the calendar (R374). -/
def State.takeWear (s : State) : State :=
  let s := foldBelow 64 (fun s w => s.setPair (WSNAP_LO w) (WSNAP_HI w) ((s.wear w).zeroExtend 64)) s
  let s := s.setPair WSNAP_CAL_LO WSNAP_CAL_HI s.island.calendar
  s.setFld WEAR_SNAP_SEQ 15 0 (s.fld WEAR_SNAP_SEQ 15 0 + 1)

def execWearTake (v : Word) (s : State) : Host.Outcome State Fault Refusal :=
  .next (s.hostWrite WEAR_TAKE v fun s => s.wearTake v)

/-! ### Calendar (R368 to R371) -/

def State.lfOk (s : State) : Bool := s.bit CLK_STATUS 2

/-- Seconds and subseconds of a calendar value (R33). -/
def calSeconds (c : BitVec 64) : Nat := c.toNat / 32768 % 2 ^ 48

/-- Fine steps in a second and in an LFCLK period. -/
def fineSecond : Nat := 51200000000
def finePeriod : Nat := 1562500

/-- The domain's time in fine steps from the PTP epoch: the seconds of the last Sync, carried on by NT (R370). -/
def State.domainTime (s : State) : Int :=
  let base : Int := (s.ts.seconds.toNat : Int) * fineSecond
  base + (s.ntNow - bvInt 64 base).toInt

/-- floor(T) seconds and floor(frac(T) × 32 768) subseconds. -/
def State.domainCalendar (s : State) : BitVec 64 := bvInt 64 ((s.domainTime / finePeriod) % 2 ^ 63)

/-- The comparison of R370 asks for a step at the following edge. -/
def State.calDeparts (s : State) : Bool :=
  s.mainPowered && s.bit CALN_CAL_CTRL 1 && (s.tsState == 2 || s.tsState == 3) &&
    (!s.bit CALN_CAL_STATUS 0 || decide (2 * finePeriod ≤ ((s.island.calendar.toNat : Int) * finePeriod - s.domainTime).natAbs))

/-- PWR_EN rises, the main rails follow, and the device performs a POR with cause HIB_WAKE (R358). -/
def State.hibWake (s : State) : State := { s with power := { s.power with pwrEn := true, rails := false, cause := 6, phase := .por } }

/-- ALARM fires, and may end HIBERNATE (R358, R371). -/
def State.calAlarm (s : State) : State :=
  let s := (s.raise CALN_CAL_STATUS 2).lifeEvent
  if s.power.phase == .hibernate && s.bit HIB_CFG 1 then s.hibWake else s

def State.setCalendar (s : State) (c : BitVec 64) : State := { s with island := { s.island with calendar := c } }

/-- What a request of SET loads into the calendar, whose bit 63 is 0 (R33, R369). -/
def State.setValue (s : State) : Option (BitVec 64) :=
  if s.island.setReq then some (s.pair CAL_SET_LO CAL_SET_HI &&& 0x7FFFFFFFFFFFFFFF#64) else none

/-- CALENDAR_STEP: an LFCLK edge. -/
def State.calendarStep (s : State) : State :=
  if !s.lfOk then s
  else
    let old := s.island.calendar
    let req := s.setValue
    let ptp := s.island.ptpReq
    let new := match req with
      | some v => v
      | none => if ptp then s.domainCalendar else (old + 1) &&& 0x7FFFFFFFFFFFFFFF#64
    let s := { s with island := { s.island with calendar := new, setReq := false, ptpReq := false } }
    let s := match req with
      | some _ => s.setBit CALN_CAL_STATUS 0 true
      | none =>
        if ptp then ((s.setBit CALN_CAL_STATUS 0 true).raise CALN_CAL_STATUS 1).satCount CAL_STEP_CNT else s
    let alarm := calSeconds new == (ofWords (s.reg CAL_ALARM_HI) (s.reg CAL_ALARM_LO)).toNat
    let s := if s.bit CALN_CAL_CTRL 2 && alarm && (req.isSome || ptp || calSeconds old != calSeconds new) then s.calAlarm else s
    let s := { s with island := { s.island with ptpReq := s.calDeparts } }
    let s := if s.power.phase == .nap || s.power.phase == .waking then s.satCount NAP_LF else s
    s.wearPeriod

def execCalendarStep (s : State) : Host.Outcome State Fault Refusal := .next s.calendarStep

/-- A write to CAL_CTRL. One with SET and bit 63 of CAL_SET is ignored whole; else the next LFCLK edge loads CAL_SET as it then stands (R369). -/
def State.calCtlWrite (s : State) (v : Word) : State :=
  if !bitOf v 0 then s.plainWrite CALN_CAL_CTRL v
  else if s.bit CAL_SET_HI 31 then s.raise CALN_CAL_STATUS 3
  else
    let s := s.plainWrite CALN_CAL_CTRL v
    { s with island := { s.island with setReq := true } }

/-- CAL_SET: the row of a CAL_CTRL write with SET. -/
def execCalSet (v : Word) (s : State) : Host.Outcome State Fault Refusal :=
  .next (s.hostWrite CALN_CAL_CTRL v fun s => s.calCtlWrite v)

/-- A read of CAL_LO, as at the start of the BCLK cycle, latches CAL_HI. -/
def State.calRead (s : State) : Word × State :=
  let c := s.cycleStart.island.calendar
  (loWord c, s.setReg CAL_HI (hiWord c))

def execCalLoRead (s : State) : Host.Outcome State Fault Refusal :=
  .next (s.hostRead fun s => s.calRead)

/-- LFCLK_LOSS: LF_OK falls, and the calendar is no longer valid (R350, R371). -/
def State.lfclkLoss (s : State) : State :=
  if s.lfOk then
    let s := (s.setBit CLK_STATUS 2 false).setBit CALN_CAL_STATUS 0 false
    if s.mainPowered then s.sysEvent 3 else s
  else s

def execLfclkLoss (s : State) : Host.Outcome State Fault Refusal := .next s.lfclkLoss

/-- LFCLK_RETURN: stepping resumes from the held value. -/
def execLfclkReturn (s : State) : Host.Outcome State Fault Refusal := .next (s.setBit CLK_STATUS 2 true)

/-! ### Mirrors (R375, R376, R379) -/

/-- The record that a mirror of the present tick writes. -/
def State.mirrorRecord (s : State) : MirrorRec :=
  { counts := s.island.wear
    cfgs := s.regs.filterMap (fun e => if 0xB0100 ≤ e.1 ∧ e.1 < 0xB0200 then some ((e.1 - 0xB0100) / 4, e.2) else none)
    period := s.reg MIR_CFG, calendar := s.island.calendar, calValid := s.bit CALN_CAL_STATUS 0
    alarmLo := s.reg CAL_ALARM_LO, alarmHi := s.reg CAL_ALARM_HI, epoch := s.reg MIR_EPOCH + 1, lost := s.reg LOST_EPOCHS }

/-- A mirror begins, or is due when the running one ends or when a NAP or reset has ended. -/
def State.beginMirror (s : State) : State :=
  if s.island.mirrorBusy.isSome || !s.mainRuns then { s with island := { s.island with mirrorDue := true } }
  else
    let r := s.mirrorRecord
    { s.setBit MIR_STATUS 31 true with
      island := { s.island with mirrorBusy := some r, mirrorDue := false, lastMirror := s.island.calendar } }

/-- A mirror that was put off begins as soon as it can. -/
def State.mirrorPending (s : State) : State :=
  if s.island.mirrorDue && s.island.mirrorBusy.isNone && s.mainRuns then s.beginMirror else s

/-- MIRROR_PERIOD in seconds: below 600 acts as 600 (R379). -/
def State.mirrorPeriod (s : State) : Nat := max 600 (s.fld MIR_CFG 15 0)

/-- MIRROR_DUE: MIRROR_PERIOD seconds of calendar time since the last mirror. One that falls due in NAP or a reset waits for its end. -/
def State.mirrorElapsed (s : State) : State :=
  if s.power.phase != .hibernate && decide (s.mirrorPeriod * 32768 ≤ (s.island.calendar - s.island.lastMirror).toNat) then s.beginMirror else s

def execMirrorDue (s : State) : Host.Outcome State Fault Refusal := .next s.mirrorElapsed

/-- MIR_NOW: a write to MIR_CTRL. -/
def State.mirNow (s : State) (v : Word) : State := if bitOf v 0 then s.beginMirror else s

def execMirNow (v : Word) (s : State) : Host.Outcome State Fault Refusal :=
  .next (s.hostWrite MIR_CTRL v fun s => s.mirNow v)

/-- MIRROR_COMPLETE: the record is in NVM, or its write has failed twice (R375, R379). -/
def State.mirrorComplete (s : State) (ok : Bool) : State :=
  match s.island.mirrorBusy with
  | some r =>
    let s := { s.setBit MIR_STATUS 31 false with island := { s.island with mirrorBusy := none } }
    let s := if ok then { s.count MIR_EPOCH with nvm := { s.nvm with mirror := some r } } else (s.satCount MIR_FAIL_CNT).lifeEvent
    s.mirrorPending
  | none => s

def execMirrorComplete (ok : Bool) (s : State) : Host.Outcome State Fault Refusal := .next (s.mirrorComplete ok)

/-- An address of the island's registers and retention SRAM (R367, R377, R387). -/
def islandAddr (a : Nat) : Bool :=
  decide (0xB0000 ≤ a ∧ a ≤ 0xB0404) || decide (0xB0800 ≤ a ∧ a ≤ 0xB0814) || decide (0xB8000 ≤ a ∧ a < 0xB9000) ||
  a == 0x10044 || a == 0x10050

/-- VBAT_POR: every register of the island takes its reset value; a restore follows. RST_STATUS then says that no reset has occurred
since (R366). -/
def State.vbatPor (s : State) : State :=
  let s := { s with regs := s.regs.filter (fun e => !islandAddr e.1) }
  { s with
    island := { calendar := 0, wear := [], owed := [], setReq := false, ptpReq := false, lastMirror := 0, mirrorBusy := none,
                mirrorDue := false, restoreDue := true }
    power := if s.power.phase == .hibernate then s.hibWake.power else { s.power with pwrEn := true } }

def execVbatPor (s : State) : Host.Outcome State Fault Refusal := .next s.vbatPor

/-- The island takes the values of mirror record `r` (R376): every WEAR_CFG word, of which the record lists those that are not 0, and the other
RW registers as hardware updates them (R7). -/
def State.restoreRecord (s : State) (r : MirrorRec) : State :=
  let s := foldBelow 64 (fun s w => s.hwUpdate (WEAR_CFG w) ((r.cfgs.lookup w).getD 0)) s
  let s := (((s.hwUpdate MIR_CFG r.period).hwUpdate CAL_ALARM_LO r.alarmLo).hwUpdate CAL_ALARM_HI r.alarmHi).setReg MIR_EPOCH r.epoch
  let s := (s.setReg LOST_EPOCHS (r.lost + 1)).setBit CALN_CAL_STATUS 0 false
  { s with island := { s.island with wear := r.counts, calendar := r.calendar, lastMirror := r.calendar } }

/-- ISLAND_RESTORE: the newest valid mirror record is restored and a mirror follows; with none the cleared values stay (R376). -/
def State.islandRestore (s : State) : State :=
  if !s.island.restoreDue || !s.power.rails then s
  else
    let s := { s with island := { s.island with restoreDue := false } }
    match s.nvm.mirror with
    | some r => (((s.restoreRecord r).raise MIR_STATUS 0).lifeEvent).beginMirror
    | none => (s.setBit MIR_STATUS 1 true).lifeEvent

def execIslandRestore (s : State) : Host.Outcome State Fault Refusal := .next s.islandRestore

/-! ### User calibration and trims (R381 to R384) -/

/-- The value of the user record of a target. -/
def State.ucalValue (s : State) (kind idx : Nat) : Option Word :=
  if s.nvm.ucalValid then (s.nvm.ucal.find? (fun r => r.kind == kind && r.index == idx)).map UcalRec.value else none

/-- The register of a record of KIND 1 to 4: AIN_CAL, AE_GAIN, AE_OFS, AE_PHASE. -/
def ucalAddr (kind idx : Nat) : Option Nat :=
  match kind with
  | 1 => if idx < 32 then some (AIN_CAL idx) else none
  | 2 => if idx < 8 then some (AE_GAIN idx) else none
  | 3 => if idx < 8 then some (AE_OFS idx) else none
  | 4 => if idx < 8 then some (AE_PHASE idx) else none
  | _ => none

/-- The factory trim of a pad, from OTP. -/
def factoryTrim (input : Bool) (p : Nat) : Nat :=
  let o := 0xA00 + (if input then 512 else 0) + 2 * p
  (Config.otpByte o).toNat + 256 * (Config.otpByte (o + 1)).toNat

/-- A trim word: USER in bits 31..16, the composed trim in bits 11..0 (R382). -/
def trimWord (input : Bool) (p : Nat) (user : Word) : Word :=
  let u := bitsOf user 15 0
  setBits (setBits 0 31 16 u) 11 0 ((((factoryTrim input p : Nat) : Int) + signed 16 u) % 4096).toNat

/-- TRIM_OUT[p] or TRIM_IN[p] as it reads. -/
def State.trimView (s : State) (input : Bool) (p : Nat) : Word :=
  trimWord input p ((s.ucalValue (if input then 6 else 5) p).getD 0)

/-- A register target takes the value of its user record, else its Reset value (R382). -/
def State.ucalTarget (s : State) (kind idx : Nat) : State :=
  match ucalAddr kind idx with
  | some a => s.setReg a ((s.ucalValue kind idx).getD (resetWord a) &&& rwMask a)
  | none => s

/-- Every target register at the end of a reset that clears it. -/
def State.ucalApply (s : State) : State :=
  s.nvm.ucal.foldl (fun s r => s.ucalTarget r.kind r.index) s

/-- A stamp lies within the next 32 ticks. -/
def State.soon (s : State) (st : Stamp) : Bool := decide (ahead st s.now < 2048)

/-- When the output of channel `k` follows a commanded edge of its own, or of its pair's reference: a rise of a pair waits for the dead time
after the partner's fall (R76). -/
def State.followStamp (s : State) (k : Nat) (e : Edge) : Stamp :=
  if s.inPair k && !e.both && e.level == (k % 2 == 0) then
    if s.onSide (partnerCh k) then e.stamp + BitVec.ofNat 64 (s.deadTime k) else s.riseStamp k e
  else e.stamp

/-- Channel `k` has an edge with a stamp within the next 32 ticks on its way to its output; those of a pair queue at its even channel. -/
def State.chanBusy (s : State) (k : Nat) : Bool :=
  let c := s.chan k
  let q := if s.ownOutput k then k else k - 1
  (s.chan q).edges.any (fun e => s.soon (s.followStamp k e)) || c.held.toList.any (fun e => s.soon e.stamp) ||
    c.delayed.toList.any (fun e => s.soon (s.riseStamp k e))

/-- Line `z` (0 A, 1 B, 2 Z) of culvert `i` has an edge within the next 32 ticks: a RAW change on its way, or a state that REGEN owes. -/
def State.cvBusy (s : State) (i z : Nat) : Bool :=
  let c := s.culvert i
  let line (a b y : Bool) : Bool := if z = 0 then a else if z = 1 then b else y
  c.pipe.any (fun x => line x.2.1 x.2.2.1 x.2.2.2 != line c.a c.b c.z) ||
    (s.cvMode i == 2 && s.cvPresent i && s.cvOwed i != 0 && s.soon (stampAt c.nextDue 0))

/-- The pad of pin `p` has an edge with a stamp within the next 32 ticks: one on its way from its source (R384). -/
def State.padBusy (s : State) (p : Nat) : Bool :=
  let src := bitsOf (s.pin p).sel 8 0
  if src < 384 then s.chanBusy src
  else if src < 0x198 then s.cvBusy ((src - 0x180) / 3) ((src - 0x180) % 3)
  else false

/-- TRIM_TAKE_EFFECT: the trims applied to pad `p` in an earlier tick come into force in place of the ones it still uses. -/
def State.trimTake (s : State) (p : Nat) : State :=
  if s.padBusy p then s
  else
    let keep (d : Option (Tick × Word)) : Option (Tick × Word) := d.filter (fun e => e.1 == s.mt)
    s.setPin p { s.pin p with trimOutDue := keep (s.pin p).trimOutDue, trimInDue := keep (s.pin p).trimInDue }

def execTrimTakeEffect (p : Fin 256) (s : State) : Host.Outcome State Fault Refusal := .next (s.trimTake p)

/-- TEMP_UPDATE: the die temperature in 1/16 °C (R386). -/
def execTempUpdate (t : BitVec 16) (s : State) : Host.Outcome State Fault Refusal :=
  .next (if s.mainRuns then s.setReg TEMP (t.signExtend 32) else s)

end Sys2Proof.Machine
end

