-- ==== Sys2Proof/Machine/Trips.lean ====
section
/-!
DEFINITION. The trip inputs, cuffs, clears and configuration of the mittens: the meanings of spec/06_trips_and_mittens.md. The
taking of a trip and the force stage are in Pins.lean.
-/

namespace Sys2Proof.Machine

open Reg

/-! ### Trip inputs (R106) -/

/-- The active level of trip input `i` at its pad, after the polarity stage in effect. -/
def State.tripPad (s : State) (i : Nat) : Bool := s.bit TRIP_RAW i != bitOf (s.trip i).cfg 8

/-- The filter length in effect; every filter acts as FILT = 0 in NAP (R121). -/
def State.tripFilt (s : State) (i : Nat) : Nat := if s.napping then 0 else bitsOf (s.trip i).cfg 7 0

/-- An unfiltered level passes at once; the samples of a filter are taken at the end of each tick. -/
def State.tripFollow (s : State) (i : Nat) : State :=
  if s.tripFilt i = 0 then (s.setTrip i { s.trip i with since := none }).setTripActive i (s.tripPad i) else s

/-- The sample of the present tick: the filter follows, from the first tick that shows it, a level that it has not taken yet. -/
def State.tripSample (s : State) (i : Nat) : State :=
  let t := s.trip i
  if s.tripFilt i = 0 then s
  else if s.tripPad i = s.bit TRIP_ACTIVE i then s.setTrip i { t with since := none }
  else if t.since.isSome then s
  else s.setTrip i { t with since := some s.mt }

/-- TRIP_INPUT_EDGE: the pad of TRIP[i] changes level; the trip path has no power in HIBERNATE (R121, R362). -/
def State.tripInputEdge (s : State) (i : Nat) (lvl : Bool) : State :=
  let t := s.setBit TRIP_RAW i lvl
  if s.bit TRIP_RAW i = lvl then s else if s.padsOff then t else t.tripFollow i

def execTripInputEdge (i : Fin 32) (level : Bool) (s : State) : Host.Outcome State Fault Refusal :=
  .next (s.tripInputEdge i level)

/-- TRIP_FILTER_QUALIFY: the samples of FILT consecutive ticks have shown the new level (R106). -/
def State.tripFilterQualify (s : State) (i : Nat) : State :=
  match (s.trip i).since with
  | some e =>
    if s.reached (e + BitVec.ofNat 64 (s.tripFilt i)) then
      (s.setTrip i { s.trip i with since := none }).setTripActive i (!s.bit TRIP_ACTIVE i)
    else s
  | none => s

def execTripFilterQualify (i : Fin 32) (s : State) : Host.Outcome State Fault Refusal := .next (s.tripFilterQualify i)

/-- TRIP_CFG_WRITE: takes effect at the next tick boundary (R106). -/
def State.tripCfgWrite (s : State) (i : Nat) (v : Word) : State :=
  let w := mergeWord (s.reg (TRIP_CFG i)) v 0x1FF#32
  (s.setReg (TRIP_CFG i) w).setTrip i { s.trip i with cfgDue := some (s.mt + 1, w) }

def execTripCfgWrite (i : Fin 32) (v : Word) (s : State) : Host.Outcome State Fault Refusal :=
  .next (s.hostWrite (TRIP_CFG i) v fun s => s.tripCfgWrite i v)

/-- At a tick boundary: a due TRIP_CFG takes effect and restarts the filter count; the filtered level holds meanwhile (R106). -/
def State.tripBoundary (s : State) (i : Nat) : State :=
  match (s.trip i).cfgDue with
  | some (t, w) =>
    if s.reached t then (s.setTrip i { since := none, cfg := w, cfgDue := none }).tripFollow i else s
  | none => s

/-! ### Cuffs (R108) -/

/-- CUFF_CLOSE: in the first tick after the cuff closes, sources that are still active are taken: one take, for the lowest. -/
def State.cuffClose (s : State) (m : Nat) : State :=
  let mt' := s.mitten m
  if s.cuffOpen m || mt'.blocked.isEmpty then s
  else
    let first := (mt'.blocked.map Prod.fst).foldl min 32
    (s.setMitten m { mt' with blocked := [] }).takeIfFree m first

def execCuffClose (m : Fin 32) (s : State) : Host.Outcome State Fault Refusal := .next (s.cuffClose m)

/-- CUFF_OVERRIDE: a source still active CUFF + 1 ticks after it became active is taken although the cuff is open, and
CUFF_OVR says so. -/
def State.cuffOverride (s : State) (m : Nat) : State :=
  let mt' := s.mitten m
  let bound := BitVec.ofNat 64 (s.fld (MIT_CUFF m) 15 0 + 1)
  match mt'.blocked.find? (fun b => s.reached (b.2 + bound)) with
  | some (i, _) =>
    let s := s.setMitten m { mt' with blocked := mt'.blocked.filter (fun b => b.1 ≠ i) }
    if s.mayTake m then (s.raise (MIT_STATUS m) 3).take m i else s
  | none => s

def execCuffOverride (m : Fin 32) (s : State) : Host.Outcome State Fault Refusal := .next (s.cuffOverride m)

/-! ### Release and clear (R112, R113, R117) -/

/-- The mitten releases at period ends of its reference channel: REF_EN, a channel that exists, and its counter runs (R112). -/
def State.refRuns (s : State) (m : Nat) : Bool :=
  s.bit (MIT_CTRL m) 15 && decide (s.fld (MIT_CTRL m) 8 0 < 384) && s.running (s.fld (MIT_CTRL m) 8 0)

/-- The release of mitten `m` takes effect in the present tick (R112, R113). Where its reference channel stops with no source active, that
is the tick of the stop (notes/assumptions/86.md). -/
def State.releaseDue (s : State) (m : Nat) : Bool :=
  let mt' := s.mitten m
  s.forcing m && (s.bit (MIT_MODE m) 1 || mt'.cleared) &&
    (match mt'.releaseAt with
     | some st => s.stampReached st
     | none => !s.refRuns m && !s.anyActive m && s.mt != mt'.idleFrom)

/-- MITTEN_RELEASE: the mitten stops forcing and each pin shows the level of its source. -/
def State.mittenRelease (s : State) (m : Nat) : State :=
  if s.releaseDue m then
    let s := s.setMitten m { s.mitten m with cleared := false, releaseAt := none }
    (s.setBit (MIT_STATUS m) 0 false).refreshPins s.now
  else s

def execMittenRelease (m : Fin 32) (s : State) : Host.Outcome State Fault Refusal := .next (s.mittenRelease m)

/-- The outcome of a clear request, direct or authenticated (R117, R118): 0 CLEARED, 1 TRIP_ACTIVE, 2 PROTECTED, 3 NOT_LATCHED. -/
def State.clearResult (s : State) (m : Nat) (auth : Bool) : Nat :=
  if !s.bit (MIT_STATUS m) 1 then 3
  else if s.bit (MIT_MODE m) 2 && !auth then 2
  else if s.anyActive m then 1
  else 0

/-- A clear request: CLR_RESULT, and for CLEARED the end of the latch (R113, R117). -/
def State.clearMitten (s : State) (m : Nat) (auth : Bool) : State :=
  let r := s.clearResult m auth
  let s := s.setFld (MIT_STATUS m) 7 6 r
  if r = 0 then
    (s.setBit (MIT_STATUS m) 1 false).setMitten m { s.mitten m with cleared := true, idleFrom := s.mt }
  else s

/-- MIT_CLR: a write of 1 to CLR. -/
def State.mitClrWrite (s : State) (m : Nat) (v : Word) : State := if bitOf v 0 then s.clearMitten m false else s

def execMitClr (m : Fin 32) (v : Word) (s : State) : Host.Outcome State Fault Refusal :=
  .next (s.hostWrite (MIT_CLR m) v fun s => s.mitClrWrite m v)

/-! ### The interlock (R115) -/

/-- INTERLOCK_APPLY. -/
def State.interlockApply (s : State) (p : Nat) : State :=
  match s.action p with
  | some (_, 1) =>
    if s.interlockOpen p && !(s.pin p).highApplied then
      (s.setPin p { s.pin p with highApplied := true }).refreshPins s.now
    else s
  | _ => s

def execInterlockApply (p : Fin 256) (s : State) : Host.Outcome State Fault Refusal := .next (s.interlockApply p)

/-! ### Configuration (R108, R119) -/

/-- The mitten, and the RW bits, of a mitten configuration register. -/
def mitCfgReg (a : Nat) : Option (Nat × Word) :=
  if 0x50400 ≤ a ∧ a < 0x50C00 then
    match (a - 0x50400) % 0x40 with
    | 0x0 => some ((a - 0x50400) / 0x40, 0x81FF#32)
    | 0x4 => some ((a - 0x50400) / 0x40, 0xF#32)
    | 0x8 => some ((a - 0x50400) / 0x40, 0xFFFFFFFF#32)
    | 0xC => some ((a - 0x50400) / 0x40, 0xFFFF#32)
    | _ => none
  else if 0x51000 ≤ a ∧ a < 0x51400 ∧ a % 4 = 0 then some ((a - 0x51000) / 0x20, 0xFFFFFFFF#32)
  else if 0x52000 ≤ a ∧ a < 0x52800 ∧ a % 4 = 0 then some ((a - 0x52000) / 0x40, 0xFFFFFFFF#32)
  else none

/-- The sources of mitten `m` that it can take: active ones while EN is 1 (R108). -/
def State.takeable (s : State) (m : Nat) : List Nat :=
  if s.bit (MIT_MODE m) 0 then (List.range 33).filter (fun i => s.srcActive m i) else []

/-- Blocked sources that a configuration write takes away from the mitten end inside the cuff (R108). -/
def State.dropBlocked (s : State) (m : Nat) : State :=
  let mt' := s.mitten m
  let keep := mt'.blocked.filter (fun b => (s.takeable m).contains b.1)
  (s.setMitten m { mt' with blocked := keep }).satAdd (BLANK_CNT m) (mt'.blocked.length - keep.length)

/-- MIT_CFG_WRITE: accepted while the mitten neither forces nor latches, else CFG_REFUSED (R119). Active sources that the write adds
to an enabled mitten are taken at once, without regard to a cuff (R108); several of them are one take, of the lowest
(notes/assumptions/86.md). -/
def State.mitCfgWrite (s : State) (a : Nat) (v : Word) : State :=
  match mitCfgReg a with
  | none => s
  | some (m, mask) =>
    if s.fld (MIT_STATUS m) 1 0 ≠ 0 then s.raise (MIT_STATUS m) 5
    else
      let before := s.takeable m
      let s := (s.setReg a (mergeWord (s.reg a) v mask)).dropBlocked m
      match (s.takeable m).filter (fun i => !before.contains i) with
      | i :: _ => s.take m i
      | [] => s

def execMitCfgWrite (addr : Nat) (v : Word) (s : State) : Host.Outcome State Fault Refusal :=
  .next (s.hostWrite addr v fun s => s.mitCfgWrite addr v)

/-- A write to MIT_STATUS: INTERLOCK_HELD stays set while a pin of the mitten waits for the interlock or is blocked by it (R115, R116). -/
def State.mitStatusWrite (s : State) (m : Nat) (v : Word) : State :=
  let s := s.plainWrite (MIT_STATUS m) v
  let held := (List.range 256).any (fun p => (s.action p).map Prod.fst == some m && s.callsHigh p && !s.drivesHigh p)
  s.raiseIf held (MIT_STATUS m) 4

end Sys2Proof.Machine
end

