-- ==== Sys2Proof/Machine/Watchdog.lean ====
section
/-!
DEFINITION. The host-link watchdog and the event register of the headgate: spec/15_host_ports_and_headgate.md, R305, R306 and the
interrupts of the HOST source. The watchdog counts in MT, so NAP holds its count (R355).
-/

namespace Sys2Proof.Machine

open Reg

/-- A bit of HG_EVENT is set (HOST source, CAUSE bit 0): 0 ACC_ERR, 1 LOCK, 2 AUTH_FAIL, 3 SEAL_DONE, 4 NVM_FAIL. -/
def State.hgEvent (s : State) (b : Nat) : State := (s.raise HG_EVENT b).hostEvent 0

/-- A kick: the count begins afresh, EXPIRED and a pending watchdog reset clear, and the mitten source is inactive (R306). -/
def State.kick (s : State) : State :=
  let was := s.hg.expired.isSome
  let s := { s.setFld WDOG_STATUS 1 0 0 with hg := { s.hg with kick := s.mt, expired := none } }
  if was then s.sourceOff 32 else s

/-- WDOG_KICK: any other value is ignored. -/
def State.wdogKick (s : State) (v : Word) : State := if v = 0x4B49#32 then s.kick else s

def execWdogKick (v : Word) (s : State) : Host.Outcome State Fault Refusal :=
  .next (s.hostWrite WDOG_KICK v fun s => s.wdogKick v)

/-- WDOG_CFG_WRITE: an accepted write configures the watchdog and kicks it. -/
def State.wdogCfgWrite (s : State) (v : Word) : State := (s.plainWrite WDOG_CFG v).kick

def execWdogCfgWrite (v : Word) (s : State) : Host.Outcome State Fault Refusal :=
  .next (s.hostWrite WDOG_CFG v fun s => s.wdogCfgWrite v)

/-- TIMEOUT in µs; 0 disables the watchdog. -/
def State.wdogTimeout (s : State) : Nat := s.fld WDOG_CFG 19 0

/-- The present count has expired: one that a reset has begun afresh may expire again (R360). -/
def State.countExpired (s : State) : Bool :=
  match s.hg.expired with
  | some t => decide (0 ≤ ahead t s.hg.kick)
  | none => false

/-- WATCHDOG_EXPIRY: 800 × TIMEOUT ticks without a kick. -/
def State.watchdogExpiry (s : State) : State :=
  if s.mainRuns && s.wdogTimeout != 0 && !s.countExpired && s.reached (s.hg.kick + BitVec.ofNat 64 (800 * s.wdogTimeout)) then
    let was := s.hg.expired.isSome
    let s := (s.setBit WDOG_STATUS 0 true).setBit WDOG_STATUS 1 (s.bit WDOG_CFG 31)
    let s := { s with hg := { s.hg with expired := some s.mt } }.hostEvent 2
    if was then s else s.sourceOn 32
  else s

def execWatchdogExpiry (s : State) : Host.Outcome State Fault Refusal := .next s.watchdogExpiry

end Sys2Proof.Machine
end

