-- ==== Sys2Proof/Machine/Reset.lean ====
section
/-!
DEFINITION. What each reset clears: the survival table of spec/17_power_clocks_reset.md (R363), as shared operations of the reset
commands. A register is cleared by leaving the list of registers that differ from their reset value.
-/

namespace Sys2Proof.Machine

open Reg

/-- The blocks of the survival table that a register's address falls in. -/
inductive Survival where
  /-- the VBAT island: kept by every reset of the main domain -/
  | island
  /-- kept by a watchdog and soft reset: micro-stores, trips, mittens, watchdog, pin matrix, power and gating, TRIP_RAW aside -/
  | kept
  /-- delay-line and TDC calibration, EU_STATUS and EU_TAPS: the initial round runs after POR and pin reset -/
  | calibration
  /-- cleared by every reset of the main domain -/
  | cleared
deriving DecidableEq, Repr

/-- The class of the register at a Window A address. -/
def survival (a : Nat) : Survival :=
  if islandAddr a then .island
  else if 0x1000000 ≤ a then
    let off := (a - 0x1000000) % 0x100000
    if off < 0x4000 ∧ (off % 0x400 = 0x104 ∨ off % 0x400 = 0x108) then .calibration else .cleared
  else
    match a / 0x10000 with
    | 0 => if 0x300 ≤ a then .cleared else .kept
    | 1 => .kept
    | 3 => if 0x30040 ≤ a ∧ a ≤ 0x30048 then .kept else .cleared
    | 5 => .kept
    | 6 => .kept
    | 12 => .calibration
    | _ => .cleared

/-- Events of wear sources still on their way in a reset: one that occurred at least 8 ticks before the reset begins, in the present tick, is
counted, and whether another one is counted is open (R373). With `begins` false the reset has begun before, and all of them are open. -/
def State.wearFlush (s : State) (begins : Bool) : State :=
  s.island.owed.foldl (fun s e =>
    let sure := if begins then (e.2.filter (fun t => decide (8 ≤ ahead s.mt t))).length else 0
    let n := sure + s.freeValue.toNat % (e.2.length - sure + 1)
    { s.useFree with island := { s.island with owed := s.island.owed.set (fun _ => []) e.1 [] } }.wearAdd e.1 n) s

/-- A channel after a watchdog, soft or cluster reset: its line and TDC calibration is kept, and so is CH_IN_SEL, which is part of the pin
matrix (R363). -/
def Chan.keepCal (c : Chan) : Chan :=
  { Chan.init with fails0 := c.fails0, fails1 := c.fails1, measured := c.measured, fresh := c.fresh, map0 := c.map0, map1 := c.map1,
                   tdcCal := c.tdcCal, inSel := c.inSel, inSelDue := c.inSelDue }

/-- An engine after a reset that keeps the local RAMs: which page is the front one is kept with them. -/
def Engine.keepBank (e : Engine) : Engine := { Engine.init with bank := e.bank }

/-- The back page of cluster `n`, zeroed: a staged image is cleared (R363, R385). -/
def State.clearBack (s : State) (n : Nat) : State :=
  let lo := s.ramKey n 32768
  { s with localRam := s.localRam.filter (fun c => !(decide (lo ≤ c.1) && decide (c.1 < lo + 32768))) }

/-- The staged recipe is cleared: the back pages of its clusters and the swap buffer. -/
def State.clearStaged (s : State) : State :=
  let s := if s.bit SWAP_STATUS 31 then foldBelow 24 (fun s n => if s.bit SWAP_MASK n then s.clearBack n else s) s else s
  { s with swap := State.reset.swap }

/-- Each key slot's LAST is MARK − 1 (R314). -/
def State.losesLast (s : State) : State :=
  { s with hg := { s.hg with keys := (s.hg.keys.map (fun (e : Nat × KeySlot) => (e.1, { e.2 with last := e.2.mark - 1 }))).filter (fun e => e.2 != KeySlot.init) } }

/-- The blocks that every reset of the main domain clears, besides registers. -/
def State.clearBlocks (s : State) : State :=
  { s with
    weirs := [], threads := [], shafts := [], ifaces := [], probes := [], pcmps := [], culverts := [], rings := [],
    adc := Adc.init, ports := [], exports := [], ts := State.reset.ts, irqEvents := [], start := none, raised := [], touched := [], written := [], rwNow := [],
    rwNext := [], wroteTick := 0, wrote := [], was := [], later := [], takes := [],
    power := { s.power with msixReq := 0, pba := 0 },
    hg := { s.hg with
              queue := [], ringSince := none, serving := none, waiting := none, pairs := none, held := none, offered := false,
              resetAfter := false, resetDue := false, qspi := 0 } }

/-- The engines that have met a micro-store error in `s` stay stopped in `t`: only a microcode load ends that (R211). -/
def State.keepStops (s t : State) : State :=
  foldBelow 24 (fun t n =>
    let w := s.reg (CL_STATUS n) &&& 0xC0000000#32
    if w = 0 then t else t.setReg (CL_STATUS n) (t.reg (CL_STATUS n) ||| w)) t

/-- What a watchdog or soft reset clears: the blocks marked C in its column (R360). -/
def State.clearSoft (s : State) : State :=
  let s0 := s
  let s := s.clearStaged
  let out := s.bit GSTAT 2
  let s := { s with regs := s.regs.filter (fun e => survival e.1 != Survival.cleared) }
  let s := if out then s.setBit GSTAT 2 false else s
  let s := s0.keepStops s.clearBlocks
  { s with
    chans := (s.chans.map (fun (e : Nat × Chan) => (e.1, e.2.keepCal))).filter (fun e => e.2 != Chan.init)
    engines := (s.engines.map (fun (e : Nat × Engine) => (e.1, e.2.keepBank))).filter (fun e => e.2 != Engine.init) }.refreshPins s.now

/-- What a POR (`por`) or a pin reset clears. The levels that outside drives give the trip inputs,
and whether LFCLK runs (LF_OK), are not the reset's to clear. -/
def State.clearMain (s : State) (por : Bool) : State :=
  let raw := s.reg TRIP_RAW
  let lf := s.bit CLK_STATUS 2
  let s := { s with regs := s.regs.filter (fun e => survival e.1 == Survival.island) }
  let s := ((s.setReg TRIP_RAW raw).setReg TRIP_ACTIVE raw).setBit CLK_STATUS 2 lf
  let s := (s.clearBlocks).losesLast
  let s := { s with
    reservoir := if por then [] else s.reservoir, poison := if por then [] else s.poison,
    localRam := [], ustore := [], chans := [], trips := [], mittens := [], pins := [], engines := [],
    cal := State.reset.cal, swap := State.reset.swap,
    hg := { s.hg with nvmOps := [], kick := 0, expired := none },
    power := { s.power with hibReq := none, syncOut := [], msixEnable := false, fnMask := false, cfg := PciConfig.init, heldHost := [], bclk := true },
    island := { s.island with mirrorBusy := none } }
  s.setBit MIR_STATUS 31 false

/-- A POR or pin reset begins, with its cause (R346, R359): an NVM write in progress is interrupted and has not happened (R378). -/
def State.beginReset (s : State) (por : Bool) (cause : Nat) : State :=
  let s := (s.wearFlush true).clearMain por
  { s with power := { s.power with phase := if por then .por else .pinReset, cause := cause } }

/-- The tick in which a watchdog or soft reset begins (R360): OUT_EN clears, every thread is HALTED, and no weir dispatches. -/
def State.softBegin (s : State) (cause : Nat) : State :=
  let s := (s.wearFlush true).setBit GSTAT 2 false
  let s := foldBelow 24 (fun s n => foldBelow 16 (fun s t => if s.thState n t == thHalted then s else s.stopThread n t) s) s
  let s := { s with power := { s.power with phase := .soft, cause := cause }, hg := { s.hg with resetAfter := false, resetDue := false } }
  s.refreshPins s.now

/-- The end of a watchdog or soft reset: the blocks of its column are cleared, the targets of user calibration take their records, and
the watchdog counts again (R360). That is no kick: EXPIRED and the mitten source stay (R305, R363), and of the pending reset only one that has
now run is over. -/
def State.softEnd (s : State) : State :=
  let s := ((s.wearFlush false).clearSoft.ucalApply).setFld RST_STATUS 3 0 s.power.cause
  let s := if s.power.cause = 4 then s.setBit WDOG_STATUS 1 false else s
  { s with power := { s.power with phase := .run }, hg := { s.hg with kick := s.mt } }.mirrorPending

/-- What a cluster reset clears in cluster `n` (R361): threads, weir and ledger, and the channels but for their calibration. A gated cluster
begins to wake (R352). -/
def State.clearCluster (s : State) (n : Nat) : State :=
  let s0 := s
  let s := foldBelow 16 (fun s t => if s.thState n t == thHalted then s else s.stopThread n t) s
  let lo := 0x1000000 + n * 0x100000
  let mine (a : Nat) : Bool := decide (lo ≤ a) && decide (a < lo + 0x8000) && survival a == Survival.cleared
  let s := { s with
    regs := s.regs.filter (fun e => !mine e.1)
    weirs := s.weirs.erase n
    threads := s.threads.filter (fun e => e.1 / 16 ≠ n) }
  let s := foldBelow 16 (fun s j => let k := n * 16 + j; s.setChan k (s.chan k).keepCal) s
  let e := s.engine n
  let wake := if !s.bit CG_MAP n then none else match e.wakeEnd with | some t => some t | none => some (s.mt + 160)
  let s := s.setEngine n { e.keepBank with heldReads := e.heldReads, wakeEnd := wake, resetEnd := some (s.mt + 64) }
  (s0.keepStops s).refreshPins s.now

/-- WATCHDOG_RESET_START: 800 000 ticks after the expiry, while a reset is pending (R305). It takes over from a soft reset at once (R359). -/
def State.watchdogReset (s : State) : State :=
  match s.hg.expired with
  | some t =>
    if (s.mainRuns || (s.power.phase == .soft && s.power.cause == 5)) && s.bit WDOG_STATUS 1 && s.reached (t + 800000) then s.softBegin 4
    else s
  | none => s

def execWatchdogResetStart (s : State) : Host.Outcome State Fault Refusal := .next s.watchdogReset

/-- SOFT_RESET_START: the response of SOFT_RESET has been admitted or handed on, or the watchdog asks for its reset (R325, R360). -/
def State.softResetStart (s : State) : State :=
  if s.hg.resetDue && s.mainRuns then s.softBegin 5 else s.watchdogReset

def execSoftResetStart (s : State) : Host.Outcome State Fault Refusal := .next s.softResetStart

/-- SOFT_RESET_END: once no NVM write is in progress. -/
def State.softResetEnd (s : State) : State :=
  if s.power.phase == .soft && s.hg.nvmOps.isEmpty && s.island.mirrorBusy.isNone then s.softEnd else s

def execSoftResetEnd (s : State) : Host.Outcome State Fault Refusal := .next s.softResetEnd

end Sys2Proof.Machine
end

