-- ==== Sys2Proof/Machine/Power.lean ====
section
/-!
DEFINITION. Power requests, resets and cluster clock gating: spec/17_power_clocks_reset.md, R346 to R366. The wakes that serve held host
accesses are in HostPorts.lean.
-/

namespace Sys2Proof.Machine

open Reg

/-! ### Cluster clock gating (R351, R352) -/

def State.gated (s : State) (n : Nat) : Bool := s.bit CG_MAP n

/-- DOZE. -/
def State.dozing (s : State) : Bool := s.fld PWR_STATUS 2 0 == 1

/-- L of R351 in ticks. -/
def State.lookahead (s : State) : Nat := if s.dozing then 320 else max 320 (s.fld CG_CFG 15 0)

/-- The target and deadline of a thread that waits on time. -/
def waitKeys : Wait → List Stamp
  | .time t => [t]
  | .angle _ _ _ (some d) => [d]
  | _ => []

/-- The keys of cluster `n`: the weir's head, waits on time, and the F of an armed swap (R351). -/
def State.clusterKeys (s : State) (n : Nat) : List Stamp :=
  (s.weirHead n).toList ++
  (List.range 16).flatMap (fun t => if s.thState n t == thWaiting then waitKeys (s.thread n t).wait else []) ++
  (if s.swapArmed && s.swap.keyed && s.bit SWAP_MASK n then [stampAt s.swap.fTick 0] else [])

/-- How many ticks key `k` lies ahead. -/
def State.keyAhead (s : State) (k : Stamp) : Int := (k - s.now).sshiftRight 6 |>.toInt

/-- A wait on a reservoir access. -/
def Wait.onAccess : Wait → Bool
  | .access _ _ _ _ _ _ => true
  | _ => false

/-- A host access waits for cluster `n` (R352). -/
def State.hostWants (s : State) (n : Nat) : Bool :=
  !(s.engine n).heldReads.isEmpty ||
    s.later.any (fun w => match w with
      | .host _ a _ => inStopped n a
      | _ => false)

/-- The gating condition of cluster `n` at the start of the present tick. A thread still runs through the microcycle in which its instruction
ends (DEDUCED from the case after R353, notes/assumptions/88.md). -/
def State.gatingHolds (s : State) (n : Nat) : Bool :=
  (s.bit CG_CFG 31 || s.dozing) &&
  s.reached (s.engine n).freeAt &&
  (List.range 16).all (fun t =>
    let st := s.thState n t
    !(st == thReady || st == thRunning || (st == thWaiting && (s.thread n t).wait.onAccess))) &&
  !s.bit UC_LOAD_STATUS 31 && !s.hostWants n && !s.ponarWants n &&
  (s.clusterKeys n).all (fun k => decide ((s.lookahead : Int) < s.keyAhead k))

/-- A tick begins: the gating condition of cluster `n` is tested, and the first of the ticks for which it holds is noted until the 16 have
passed. -/
def State.gatingTick (s : State) (n : Nat) : State :=
  let e := s.engine n
  match e.gateSince with
  | some t => if s.reached (t + 16) || s.gatingHolds n then s else s.setEngine n { e with gateSince := none }
  | none => if !s.gated n && s.gatingHolds n then s.setEngine n { e with gateSince := some s.mt } else s

/-- A tick ends: one that was gated is counted, and in one in which a register of the cluster's stopped part was written the condition did not
hold. -/
def State.gatedTick (s : State) (n : Nat) : State :=
  if s.gated n then s.count (CG_TICKS n)
  else if s.wroteTick == s.mt && s.wrote.any (inStopped n) then s.breakGate n
  else s

/-- CLUSTER_GATE: the first tick after the condition has held for 16 consecutive ticks. -/
def State.clusterGate (s : State) (n : Nat) : State :=
  match (s.engine n).gateSince with
  | some t =>
    if s.mainRuns && !s.gated n && s.reached (t + 16) then
      (s.setBit CG_MAP n true).setEngine n { s.engine n with gateSince := none }
    else s
  | none => s

def execClusterGate (n : Fin 24) (s : State) : Host.Outcome State Fault Refusal :=
  .next (s.onTclk (s.clusterGate n))

/-- A key lies 320 ticks ahead or less, a wait by angle or ring has its condition, or a host access waits (R352). -/
def State.wakeDemand (s : State) (n : Nat) : Bool :=
  (s.clusterKeys n).any (fun k => decide (s.keyAhead k ≤ 320)) || s.hostWants n || s.ponarWants n ||
  (List.range 16).any (fun t => s.thState n t == thWaiting && ((s.thread n t).metAt.isSome || (s.waitMet (s.thread n t).wait).isSome))

/-- CLUSTER_WAKE_BEGIN. -/
def State.clusterWake (s : State) (n : Nat) : State :=
  if s.mainRuns && s.gated n && (s.engine n).wakeEnd.isNone && s.wakeDemand n then
    s.setEngine n { s.engine n with wakeEnd := some (s.mt + 160) }
  else s

def execClusterWakeBegin (n : Fin 24) (s : State) : Host.Outcome State Fault Refusal :=
  .next (s.onTclk (s.clusterWake n))

/-! ### Power requests (R354, R355, R358) -/

/-- The conditions of R354 that fail, as REFUSE bits. -/
def State.napRefuse (s : State) : Nat :=
  let bit (i : Nat) (b : Bool) : Nat := if b then 2 ^ i else 0
  let clusters := List.range 24
  let chans := List.range 384
  bit 0 (s.bit GSTAT 2) +
  bit 1 (clusters.any (fun n => (List.range 16).any (fun t => !s.thIdle n t))) +
  bit 2 (clusters.any (fun n => !(s.weir n).slots.isEmpty || !(s.weir n).cancels.isEmpty)) +
  bit 3 (chans.any (fun k => s.running k || s.trainActive k)) +
  bit 4 ((List.range 16).any (fun h => s.shEn h) || (List.range 24).any (fun f => s.fbEn f) ||
         (List.range 8).any (fun i => s.cvMode i != 0) || (List.range 8).any (fun p => s.bit (PRB_STATUS p) 1)) +
  bit 5 ([0, 1, 2, 3].any (fun c => s.adcState c != 0 || !(s.conv c).queue.isEmpty || (s.conv c).urgent.isSome)) +
  bit 6 (s.bit UC_LOAD_STATUS 31 || s.hg.serving.isSome || s.hg.waiting.isSome || s.hg.pairs.isSome || s.swapArmed) +
  bit 7 (!s.hg.nvmOps.isEmpty || s.island.mirrorBusy.isSome)

/-- A refused request. -/
def State.powerRefused (s : State) (conds : Nat) : State :=
  ((s.setFld PWR_STATUS 15 8 conds).raise PWR_STATUS 3).sysEvent 3

/-- REQ = RUN or DOZE: at once, from RUN or DOZE. -/
def State.reqRunDoze (s : State) (doze : Bool) : State :=
  if s.fld PWR_STATUS 2 0 ≤ 1 then s.setFld PWR_STATUS 2 0 doze.toNat else s

/-- Entry to NAP: links go down, peers and sessions are cleared, each a change of its entry (R335), and the clocks stop (R355); of the pads only pulls and forces are left (R362).
Events delivered by the entry are latched before the clocks stop, and every filter of a trip acts as FILT = 0 from then on (R121). -/
def State.enterNap (s : State) : State :=
  let s := foldBelow 2 (fun s p =>
    let s := if s.bit (PORT_STATUS p) 0 then s.setLink p false else s
    let s := s.setRole p 0
    let s := foldBelow 32 (fun s e => if s.peerUsed p e then (s.clearPeer p e).peerChange p else s) s
    s.setPort p { s.port p with heard := [], lastMsg := [], announced := none }) s
  let s := s.setTsState 0
  let s := { s with ts := { s.ts with good := 0, measured := false } }
  let s := s.irqEvents.foldl (fun s _ => s.irqLatch) s
  let s := State.refreshPins { (s.setReg NAP_LF 0).setFld PWR_STATUS 2 0 0 with power := { s.power with phase := .nap } } s.now
  foldBelow 32 State.tripFollow s

/-- A write to PWR_CTRL. During an entry to HIBERNATE, a request for it has no effect, and one for NAP is tested like any other; when it is
accepted, the entry ends (notes/assumptions/88.md). -/
def State.powerRequest (s : State) (req : Nat) : State :=
  if !s.mainRuns then s
  else match req with
  | 0 => s.reqRunDoze false
  | 1 => s.reqRunDoze true
  | 2 =>
    let c := s.napRefuse
    if c ≠ 0 then s.powerRefused c else State.enterNap { s with power := { s.power with hibReq := none } }
  | _ =>
    let c := s.napRefuse
    if s.power.hibReq.isSome then s
    else if c ≠ 0 then s.powerRefused c
    else { s.setFld PWR_STATUS 2 0 3 with power := { s.power with hibReq := some s.mt } }.beginMirror

def execPwrReqRun (s : State) : Host.Outcome State Fault Refusal :=
  .next (s.hostWrite PWR_CTRL 0 fun s => s.powerRequest 0)
def execPwrReqDoze (s : State) : Host.Outcome State Fault Refusal :=
  .next (s.hostWrite PWR_CTRL 1 fun s => s.powerRequest 1)
def execPwrReqNap (s : State) : Host.Outcome State Fault Refusal :=
  .next (s.hostWrite PWR_CTRL 2 fun s => s.powerRequest 2)
def execPwrReqHibernate (s : State) : Host.Outcome State Fault Refusal :=
  .next (s.hostWrite PWR_CTRL 3 fun s => s.powerRequest 3)

/-- A pending event of a wake-capable source that is enabled and has WAKE = 1 (R297). -/
def State.napWakes (s : State) : Bool :=
  s.irqEvents.any (fun e => (decide (88 ≤ e.source ∧ e.source ≤ 119) || e.source == 254 || e.source == 255) &&
    s.bit (IRQ_ENA (e.source / 32)) (e.source % 32) && s.bit (ROUTE e.source) 16)

/-- NAP_WAKE_EVENT: a wake source, or a demand from the host (R356). -/
def State.napWake (s : State) (hostDemand : Bool) : State :=
  if s.power.phase == .nap && (hostDemand || !s.power.heldHost.isEmpty || s.napWakes) then
    { s with power := { s.power with phase := .waking } }
  else s

def execNapWakeEvent (hostDemand : Bool) (s : State) : Host.Outcome State Fault Refusal := .next (s.napWake hostDemand)

/-- PWR_EN_FALL: the mirror of the request has ended, and PWR_EN goes low (R358); the pads lose their drivers (R362). -/
def State.pwrEnFall (s : State) : State :=
  if s.power.hibReq.isSome && s.mainRuns && s.island.mirrorBusy.isNone && !s.island.mirrorDue then
    { s with power := { s.power with phase := .hibernate, pwrEn := false, hibReq := none } }.refreshPins s.now
  else s

def execPwrEnFall (s : State) : Host.Outcome State Fault Refusal := .next s.pwrEnFall

/-- HIB_ABORT: VDD_CORE has not fallen 100 ms after PWR_EN, whatever other rails have done (R358). That the 100 ms have passed with it up is
the sender's, since no clock of the device measures them and POR_ASSERT does not say which rail has fallen. -/
def State.hibAbort (s : State) : State :=
  if s.power.phase == .hibernate && !s.power.pwrEn then
    let s := s.beginReset true 7
    { s with power := { s.power with pwrEn := true } }
  else s

def execHibAbort (s : State) : Host.Outcome State Fault Refusal := .next s.hibAbort

/-- WAKE_N_REQUEST: low for 32 LFCLK periods, with PIN_WAKE (R348, R358). -/
def State.wakeN (s : State) : State :=
  if s.power.phase == .hibernate && !s.power.pwrEn && s.bit HIB_CFG 0 then s.hibWake else s

def execWakeNRequest (s : State) : Host.Outcome State Fault Refusal := .next s.wakeN

/-! ### Resets of the main domain (R346, R350, R359, R364) -/

/-- POR_ASSERT: a main rail falls below its falling threshold. In HIBERNATE that is the removal PWR_EN asked for. -/
def State.porAssert (s : State) : State :=
  match s.power.phase with
  | .hibernate => { s.clearMain true with power := { (s.clearMain true).power with rails := false } }
  | .por => { s with power := { s.power with rails := false } }
  | _ => let s := s.beginReset true 1; { s with power := { s.power with rails := false } }

def execPorAssert (s : State) : Host.Outcome State Fault Refusal := .next s.porAssert

/-- POR_RELEASE: the rails have been up for 2 ms and REF has run 4 096 cycles; the start-up runs. -/
def State.porRelease (s : State) : State :=
  if s.power.phase == .por && s.power.pwrEn then { s with power := { s.power with rails := true } } else s

def execPorRelease (s : State) : Host.Outcome State Fault Refusal := .next s.porRelease

/-- A pin reset begins; one of higher or equal rank absorbs it, and an unpowered core takes none. -/
def State.pinReset (s : State) (cause : Nat) : State :=
  match s.power.phase with
  | .por => s
  | .pinReset => s
  | .hibernate => s
  | _ => s.beginReset false cause

/-- RESET_N: a low level of `ns` nanoseconds so far is ignored below 200, taken from 1 000 on, and in between either (R359); a high
level ends it. -/
def State.resetN (s : State) (low : Bool) (ns : Nat) : State :=
  if !low then { s with power := { s.power with resetLow := false } }
  else if ns < 200 then s
  else
    let taken := decide (1000 ≤ ns) || s.freeValue.getLsbD 0
    let s := if ns < 1000 then s.useFree else s
    if taken then { s.pinReset 2 with power := { (s.pinReset 2).power with resetLow := true } } else s

def execResetN (low : Bool) (ns : Nat) (s : State) : Host.Outcome State Fault Refusal := .next (s.resetN low ns)

/-- CLK_FAIL: REF is lost, or the PLL leaves lock outside a wake sequence (R350). In NAP the PLL is off. -/
def State.clkFail (s : State) (pll : Bool) : State := if pll && s.napping then s else s.pinReset 3

def execClkFail (pll : Bool) (s : State) : Host.Outcome State Fault Refusal := .next (s.clkFail pll)

/-- NVM regions that hold no valid copy act as R380 says, and NVM_CORRUPT is set. -/
def State.nvmCheck (s : State) : State :=
  let n := s.nvm
  if n.identityValid && n.keysValid && n.ucalValid then s
  else
    let s := if n.identityValid then s else { s with nvm := { s.nvm with sealed := true, floor := 0 } }
    let s := if n.keysValid then s else { s with hg := { s.hg with keys := [] } }
    (s.setBit MIR_STATUS 1 true).lifeEvent

/-- END_OF_RESET: the first tick in which TCLK runs after a POR or pin reset: MT is 0, the straps are sampled, the initial calibration round
begins, and user calibration is in place (R364, R380, R382). -/
def State.endOfReset (s : State) (straps : BitVec 2) : State :=
  let ready := match s.power.phase with
    | .por => s.power.rails && s.power.pwrEn && !s.power.resetLow
    | .pinReset => !s.power.resetLow
    | _ => false
  if ready then
    let s := { s.clearMain (s.power.phase == .por) with mt := 0 }
    let s := { s with power := { s.power with phase := .run } }
    let s := (s.setFld GSTAT 5 4 straps.toNat).setFld RST_STATUS 3 0 s.power.cause
    let s := s.nvmCheck.ucalApply.initialRoundStart.mirrorPending
    { s with start := some s.snap }
  else s

def execEndOfReset (straps : BitVec 2) (s : State) : Host.Outcome State Fault Refusal := .next (s.endOfReset straps)

/-! ### Balls (R362) -/

/-- The balls of R362 besides the channel pads, which `pinLevel` gives, and IRQ_OUT, which `irqOut` gives. -/
inductive Ball where
  | inputs | syncOut | ssiClk (i : Nat) | qsIo | flCsN | flBus | boot | pwrEn
deriving DecidableEq, Repr

/-- What the device does at a ball. -/
inductive BallState where
  | unpowered | input | inputWeakDown | hiZ | weakDown | weakUp | low | high
deriving DecidableEq, Repr

/-- The state of a ball. A flash load is one command and a QSPI read one frame: between commands neither drives its balls. -/
def State.ball (s : State) (b : Ball) : BallState :=
  let level (h : Bool) : BallState := if h then .high else .low
  let held := s.power.phase == .por || s.power.phase == .pinReset
  if b = .pwrEn then level s.power.pwrEn
  else if s.power.phase == .hibernate then .unpowered
  else match b with
    | .inputs => .input
    | .boot => if held then .inputWeakDown else .input
    | .syncOut => if held then .weakDown else if s.tclk then level s.syncOutLevel else .low
    | .ssiClk i => if held then .weakUp else if s.tclk then level (s.iface (16 + i)).clk else .high
    | .flCsN => if held then .weakUp else .high
    | .qsIo | .flBus | .pwrEn => .hiZ

/-! ### Cluster resets (R361) -/

/-- RST_CL: refused while a microcode load runs. -/
def State.rstCl (s : State) (v : Word) : State :=
  if bitsOf v 23 0 = 0 then s
  else if s.bit UC_LOAD_STATUS 31 then (s.raise RST_STATUS 8).sysEvent 3
  else foldBelow 24 (fun s n => if bitOf v n then s.clearCluster n else s) s

def execRstCl (v : Word) (s : State) : Host.Outcome State Fault Refusal :=
  .next (s.hostWrite RST_CL v fun s => s.rstCl v)

/-- CLUSTER_RESET_END: 64 ticks after the commit. -/
def State.clusterResetEnd (s : State) (n : Nat) : State :=
  match (s.engine n).resetEnd with
  | some t => if s.reached t then s.setEngine n { s.engine n with resetEnd := none } else s
  | none => s

def execClusterResetEnd (n : Fin 24) (s : State) : Host.Outcome State Fault Refusal :=
  .next (s.onTclk (s.clusterResetEnd n))

end Sys2Proof.Machine
end

