-- ==== Sys2Proof/Machine/Bus.lean ====
section
/-!
DEFINITION. Window A as its agents see it (spec/00_scope.md R5 to R9 and R407, spec/01_architecture.md R24): what a read returns and what
it leaves behind, and which register's own rule a write follows.
-/

namespace Sys2Proof.Machine

open Reg

/-! ### What a read returns -/

/-- A map word with bit b set where `p` holds of 32 × w + b. -/
def mapWord (w : Nat) (p : Nat → Bool) : Word := (List.range 32).foldl (fun m b => putBit m b (p (32 * w + b))) 0

/-- GSTAT and HG_STATUS with the bits that the state keeps elsewhere: SEALED, and the Ponar engine's (R310, R317). -/
def State.gstatView (s : State) : Word := putBit (s.reg GSTAT) 6 s.nvm.sealed

/-- The command and the response ring of the ring transport (R309). -/
def State.cmdRing (s : State) : Nat := s.fld PONAR_CFG 13 8
def State.rspRing (s : State) : Nat := s.fld PONAR_CFG 21 16

/-- A ring that the ring transport can use: enabled, PROD = CONS = 0x20. -/
def State.ponarRingOk (s : State) (r : Nat) : Bool := s.ringEn r && s.ringProd r == 0x20 && s.ringCons r == 0x20

/-- Reservoir offset of entry RD of the command ring. -/
def State.cmdAt (s : State) : Nat := s.entryAt s.cmdRing (s.reg (RING_RD s.cmdRing))

/-- The entries of the message whose header is entry RD: 1 for a header that cannot be read or is no header (R310). -/
def State.cmdNeed (s : State) : Nat :=
  let h0 := BitVec.ofNat 32 (s.resRead s.cmdAt 4)
  let len := s.resRead (s.cmdAt + 4) 2
  if s.resPoisoned s.cmdAt 16 || bitsOf h0 31 24 != 0x50 || decide (1024 < len) then 1
  else (16 + len + (if bitOf h0 17 then 8 else 0) + 15) / 16

/-- The engine sees an entry of the command ring. -/
def State.cmdSeen (s : State) : Bool := s.bit PONAR_CFG 0 && s.ponarRingOk s.cmdRing && s.ringVisible s.cmdRing != 0

/-- The message of the command ring has arrived whole. -/
def State.cmdWhole (s : State) : Bool := s.cmdSeen && decide (s.cmdNeed ≤ s.ringVisible s.cmdRing)

/-- PART_WAIT: the ring transport waits for the rest of a message. -/
def State.partWait (s : State) : Bool := s.cmdSeen && !s.cmdWhole

def State.hgStatusView (s : State) : Word :=
  putBit (putBit (putBit 0 31 s.nvm.sealed) 1 s.partWait) 0 (s.hg.serving.isSome || s.hg.waiting.isSome || s.hg.pairs.isSome)

/-- STATE and PERM of a key slot (R315). -/
def State.keyInfo (s : State) (k : Nat) : Word := setBits (setBits 0 23 16 (s.key k).perm.toNat) 1 0 (s.key k).state.toNat

/-- The word at offset `off` of key slot `k`: KEY_INFO, CTR_LAST, CTR_MARK. -/
def State.keyView (s : State) (k off : Nat) : Word :=
  let last : BitVec 64 := (s.key k).last.zeroExtend 64
  let mark : BitVec 64 := (s.key k).mark.zeroExtend 64
  match off with
  | 0x00 => s.keyInfo k
  | 0x04 => loWord last
  | 0x08 => hiWord last
  | 0x0C => loWord mark
  | 0x10 => hiWord mark
  | _ => 0

/-- CH_STATUS with the bits that follow the counter: RUNNING, ZERO_PERIOD, CASCADE_HI (R48, R63). -/
def State.chStatusView (s : State) (k : Nat) : Word :=
  let w := putBit (s.reg (CH_STATUS k)) 1 (s.running k)
  putBit (putBit w 3 (s.reg (PERIOD_ACT k) == 0)) 4 (s.cascadeHi k)

/-- EU_STATUS with AGE in bits 31..16 (R92). -/
def State.euStatusView (s : State) (k : Nat) : Word := setBits (s.reg (EU_STATUS k)) 31 16 (s.age k)

/-- A channel register at offset `off` as a KCI read sees it: live, with no shadow (R236). -/
def State.chanLive (s : State) (k off : Nat) : Word :=
  let c := s.chan k
  match off with
  | 0x004 => s.chStatusView k
  | 0x08C => c.ptSkip
  | 0x090 => c.ptRemain
  | 0x104 => s.euStatusView k
  | 0x128 => loWord c.capRise
  | 0x12C => hiWord c.capRise
  | 0x130 => loWord c.capFall
  | 0x134 => hiWord c.capFall
  | 0x138 => loWord (c.capWidth.zeroExtend 64)
  | 0x13C => hiWord (c.capWidth.zeroExtend 64)
  | 0x140 => c.capSeq
  | _ => s.reg (CH_CTRL k + off)

/-- A channel register as a host read returns it: the shadows of R63, R82 and R103 in place of the live values. -/
def State.chanView (s : State) (k off : Nat) : Word :=
  match off with
  | 0x004 => s.chStatusView k
  | 0x010 => (s.countRead k).1
  | 0x104 => s.euStatusView k
  | 0x128 => loWord (s.chan k).capRise
  | _ => s.reg (CH_CTRL k + off)

/-- A weir or engine register of cluster `n`. -/
def State.clusterView (s : State) (n off : Nat) : Word :=
  match off with
  | 0x4000 => s.weirStatus n
  | 0x4008 => loWord (s.headKey n)
  | 0x400C => hiWord (s.headKey n)
  | 0x5010 => s.threadMap n thReady
  | 0x5014 => s.threadMap n thWaiting
  | 0x5018 => s.threadMap n thFaulted
  | _ => s.reg (0x1000000 + n * 0x100000 + off)

/-- A ring register of ring `r` (R256, R262, R272). -/
def State.ringView (s : State) (r off : Nat) : Word :=
  match off with
  | 0x04 => BitVec.ofNat 32 (s.ringBase r)
  | 0x0C => putBit (putBit (s.reg (RING_STATUS r)) 4 (s.ringWr0 r == s.ringRd0 r)) 5 (s.ringAbove r)
  | 0x10 => s.ringWr0 r
  | 0x14 => s.ringRd0 r
  | 0x18 => s.ringFill0 r
  | 0x1C => s.ringCredit0 r
  | _ => s.reg (RING_CFG r + off)

/-- The word that a read of an address below the cluster blocks returns, where the state keeps it in another form. -/
def State.lowView (s : State) (a : Nat) : Word :=
  if a = GSTAT then s.gstatView
  else if a = UC_FLOOR then s.nvm.floor.zeroExtend 32
  else if 0x20200 ≤ a ∧ a < 0x20210 then s.pinCfgView ((a - 0x20200) / 4)
  else if 0x20240 ≤ a ∧ a < 0x202D0 then s.topView ((a - 0x20240) / 4)
  else if a = MSIX_PBA then s.pbaView
  else if a = HG_STATUS then s.hgStatusView
  else if 0x30084 ≤ a ∧ a < 0x30094 then 0
  else if 0x30100 ≤ a ∧ a < 0x30200 then s.keyView ((a - 0x30100) / 0x20) ((a - 0x30100) % 0x20)
  else if 0x40000 ≤ a ∧ a < 0x41000 then s.ringView ((a - 0x40000) / 0x40) ((a - 0x40000) % 0x40)
  else if a = MIT_FORCING_MAP then mapWord 0 (fun m => s.bit (MIT_STATUS m) 0)
  else if a = MIT_LATCHED_MAP then mapWord 0 (fun m => s.bit (MIT_STATUS m) 1)
  else if 0x60C00 ≤ a ∧ a < 0x60C20 then mapWord ((a - 0x60C00) / 4) s.pinLevel
  else if 0x60C20 ≤ a ∧ a < 0x60C40 then mapWord ((a - 0x60C20) / 4) s.isForced
  else if 0x70010 ≤ a ∧ a < 0x70020 then s.adcStatus ((a - 0x70010) / 4)
  else if 0x70800 ≤ a ∧ a < 0x71000 ∧ (a % 0x20 = 8 ∨ a % 0x20 = 0xC) then (s.accValue ((a - 0x70800) / 0x20)).1.truncate 32
  else if 0x71000 ≤ a ∧ a < 0x71400 ∧ a % 0x10 = 4 then s.reg (a - 4)
  else if 0x80000 ≤ a ∧ a < 0x83000 ∧ a % 0x100 = 0x44 then
    BitVec.ofNat 32 (s.countC ((a - 0x80000) / 0x1000 * 8 + (a - 0x80000) % 0x1000 / 0x100))
  else if 0x83400 ≤ a ∧ a < 0x83600 ∧ a % 0x40 = 0x10 then loWord (s.probe ((a - 0x83400) / 0x40)).stamp
  else if 0x90000 ≤ a ∧ a % 0x1000 = 0x30 ∧ a < 0xA0000 then BitVec.ofNat 32 (s.histBase ((a - 0x90000) / 0x1000))
  else if 0xA1000 ≤ a ∧ a < 0xA1800 ∧ a % 0x400 = 8 then loWord ((macOf ((a - 0xA1000) / 0x400)).zeroExtend 64)
  else if 0xA1000 ≤ a ∧ a < 0xA1800 ∧ a % 0x400 = 0xC then hiWord ((macOf ((a - 0xA1000) / 0x400)).zeroExtend 64)
  else if 0xA2000 ≤ a ∧ a < 0xA3000 ∧ a % 0x40 = 0x14 then s.peerAge ((a - 0xA2000) / 0x800) ((a - 0xA2000) % 0x800 / 0x40)
  else if a = CAL_LO then loWord s.island.calendar
  else if 0xB0200 ≤ a ∧ a < 0xB0400 ∧ a % 8 = 0 then loWord ((s.wear ((a - 0xB0200) / 8)).zeroExtend 64)
  else if 0xB1000 ≤ a ∧ a < 0xB1400 then s.trimView false ((a - 0xB1000) / 4)
  else if 0xB1400 ≤ a ∧ a < 0xB1800 then s.trimView true ((a - 0xB1400) / 4)
  else if a = CALENG_CAL_STATUS then putBit (putBit (s.reg a) 3 s.faultAny) 2 s.staleAny
  else if 0xC0040 ≤ a ∧ a < 0xC0070 then mapWord ((a - 0xC0040) / 4) (fun k => s.bit (EU_STATUS k) 3)
  else if 0xC0080 ≤ a ∧ a < 0xC00B0 then mapWord ((a - 0xC0080) / 4) (fun k => s.bit (EU_STATUS k) 4)
  else if a = MT_LO then loWord s.mt
  else s.reg a

/-- The bits of the register at `a` that read 0 because they are write-only (R7). -/
def woMask (a : Nat) : Word := match regRow a with | some r => BitVec.ofNat 32 r.wo | none => 0

/-- Byte `i` of the OTP as it reads: one of the programmed layout, or a reserved byte, which reads 0 (R381). -/
def otpView (i : Nat) : Byte :=
  if (0xC4 ≤ i ∧ i < 0x100) ∨ (0x110 ≤ i ∧ i < 0x200) ∨ (0x980 ≤ i ∧ i < 0xA00) ∨ (0xE10 ≤ i ∧ i < 0xE20) ∨ 0xE80 ≤ i then 0
  else Config.otpByte i

/-- A word of the OTP view, of the micro-store view (0 while UC_VALID is 0, R221) or of a local RAM, none elsewhere. -/
def State.viewWord (s : State) (a : Nat) : Option Word :=
  if 0xB4000 ≤ a ∧ a < 0xB8000 then
    some (BitVec.ofNat 32 (leNat ((List.range 4).map (fun i => otpView (a - 0xB4000 + i)))))
  else if 0xB8000 ≤ a ∧ a < 0xB9000 then some (s.reg a)
  else if 0x1000000 ≤ a ∧ clusterOf a < 24 then
    let off := clusterOff a
    if 0x8000 ≤ off ∧ off < 0xC000 then
      some (if s.ucodeValid then s.microword (BitVec.ofNat 12 ((off - 0x8000) / 4)) else 0)
    else if 0x10000 ≤ off ∧ off < 0x20000 then some (s.ramWord (clusterOf a) (off - 0x10000))
    else none
  else none

/-- The word that a host read of address `a` returns. An unassigned address returns 0 (R9, R24). -/
def State.busView (s : State) (a : Nat) : Word :=
  match s.viewWord a with
  | some w => w
  | none =>
    if (regRow a).isNone then 0
    else
      let w := if a < 0x1000000 then s.lowView a
        else
          let off := clusterOff a
          if off < 0x4000 then s.chanView (clusterOf a * 16 + off / 0x400) (off % 0x400) else s.clusterView (clusterOf a) off
      w &&& ~~~ woMask a

/-! ### What a read leaves behind -/

/-- The shadows that the read of a channel register latches. -/
def State.chanReadEffect (s : State) (k off : Nat) : State :=
  match off with
  | 0x010 => (s.countRead k).2
  | 0x088 => (s.ptEmitRead k).2
  | 0x128 => (s.capRiseLoRead k).2
  | _ => s.rcClear (CH_CTRL k + off)

/-- MT_LO: bits 31..0 of MT in the first tick of the BCLK cycle, and the shadow in MT_HI (R28). -/
def State.mtLoRead (s : State) : Word × State :=
  let t : Tick := s.mt &&& ~~~ 1
  (loWord t, s.setReg MT_HI (hiWord t))

/-- A host read of address `a`: the word it returns, as it stood at the start of the BCLK cycle, and the state that it leaves (R7). -/
def State.busRead (s : State) (a : Nat) : Word × State :=
  if a % 4 ≠ 0 then (0, s)
  else if a = MT_LO then s.mtLoRead
  else if a = CAL_LO then s.calRead
  else
    let w := (s.seen a).busView a
    if (s.viewWord a).isSome || (regRow a).isNone then (w, s)
    else if 0x1000000 ≤ a then
      let off := clusterOff a
      if off < 0x4000 then (w, s.chanReadEffect (clusterOf a * 16 + off / 0x400) (off % 0x400)) else (w, s.rcClear a)
    else if 0x70800 ≤ a ∧ a < 0x71000 ∧ (a % 0x20 = 8 ∨ a % 0x20 = 0xC) then
      s.accRead ((a - 0x70800) / 0x20) (a % 0x20 == 0xC)
    else if 0x71000 ≤ a ∧ a < 0x71400 ∧ a % 0x10 = 4 then s.mmReset ((a - 0x71000) / 0x10) s.inCycle
    else if 0x80000 ≤ a ∧ a < 0x83000 ∧ a % 0x100 = 0x44 then
      (w, (s.posRead ((a - 0x80000) / 0x1000 * 8 + (a - 0x80000) % 0x1000 / 0x100)).2)
    else if 0x83400 ≤ a ∧ a < 0x83600 ∧ a % 0x40 = 0x10 then (w, (s.prbStampRead ((a - 0x83400) / 0x40)).2)
    else if 0xB0200 ≤ a ∧ a < 0xB0400 ∧ a % 8 = 0 then (w, (s.wearRead ((a - 0xB0200) / 8)).2)
    else (w, s.rcClear a)

/-- A host read of address `a`, whose changes a later read of the BCLK cycle sees. -/
def State.readReg (s : State) (a : Nat) : Word × State := let q := s.busRead a; (q.1, s.touchChanged q.2)

/-! ### Which rule a write follows -/

/-- A write to a channel register at offset `off`. -/
def State.chanWrite (s : State) (k off : Nat) (v : Word) : State :=
  match off with
  | 0x000 => s.chCtrlWrite k v
  | 0x008 => s.prescWrite k v
  | 0x00C => s.periodWrite k v
  | 0x010 => s.countWrite k v
  | 0x018 => s.pairSnapshot k v
  | 0x020 => s.cmpWrite k 0 v
  | 0x024 => s.cmpWrite k 1 v
  | 0x028 => s.cmpWrite k 2 v
  | 0x02C => s.cmpWrite k 3 v
  | 0x030 => s.cmpCfgWrite k v
  | 0x060 => s.outCtrlWrite k v
  | 0x064 => s.outFineWrite k v
  | 0x068 => s.dtCfgWrite k v
  | 0x080 => s.ptCtrlWrite k v
  | 0x084 => s.ptCmdWrite k v
  | 0x120 => s.capCtrlWrite k v
  | _ => s.plainWrite (CH_CTRL k + off) v

/-- A write to the cluster block of cluster `n`, above the channels. -/
def State.clusterWrite (s : State) (n off : Nat) (v : Word) : State :=
  match off with
  | 0x4028 => s.postGo n v
  | 0x4034 => s.cancelGo n v
  | 0x4040 => s.ledgerTake n v
  | _ =>
    if 0x10000 ≤ off ∧ off < 0x20000 then s.ramWrite n (off - 0x10000) v.toNat 4
    else if 0x6000 ≤ off ∧ off < 0x7000 then
      let t := (off - 0x6000) / 0x100
      let o := off % 0x100
      if o = 0 then s.thCtrlWrite n t v
      else if (thMask o).isSome then s.thContextWrite n t o v
      else s.plainWrite (TH_CTRL n t + o) v
    else s.plainWrite (0x1000000 + n * 0x100000 + off) v

/-- A write to system control or the power block. -/
def State.sysWrite (s : State) (a : Nat) (v : Word) : State :=
  if a = UC_LOAD_GO then s.ucLoadGo v
  else if a = PWR_CTRL then s.powerRequest (bitsOf v 1 0)
  else if a = RST_CL then s.rstCl v
  else s.plainWrite a v

/-- A write to the interrupt controller. -/
def State.irqWrite (s : State) (a : Nat) (v : Word) : State :=
  if 0x20100 ≤ a ∧ a < 0x20120 then s.irqPendWrite ((a - 0x20100) / 4) v
  else if 0x20180 ≤ a ∧ a < 0x201A0 then s.irqSetWrite ((a - 0x20180) / 4) v
  else if a = VEC_DONE then s.vecDone v
  else if (selectMask a).isSome then s.irqSelectWrite a v
  else (s.plainWrite a v).msixScan

/-- A write to PONAR_CFG: EN = 0 discards a held response, with the soft reset that it would have let begin, and ends the wait for the rest of
a message (R309, R310, R325). -/
def State.ponarCfgWrite (s : State) (v : Word) : State :=
  let s := s.plainWrite PONAR_CFG v
  if s.bit PONAR_CFG 0 then s
  else { s with hg := { s.hg with held := none, ringSince := none, resetAfter := s.hg.resetAfter && s.hg.held.isNone } }

/-- A write to KEY_LOAD_GO before SEAL: the NVM write of the key begins (R315). -/
def State.keyLoadGo (s : State) (v : Word) : State :=
  if !bitOf v 0 then s
  else
    let bytes := (List.range 4).foldr (fun i (k : BitVec 128) => (k <<< 32) ||| (s.reg (KEY_LOAD_DATA i)).zeroExtend 128) 0
    let k : KeySlot := { key := bytes, perm := BitVec.ofNat 8 (s.fld KEY_LOAD_CTRL 23 16), state := 1, last := 0, mark := 4096 }
    { s.setBit KEY_LOAD_CTRL 31 false with hg := { s.hg with nvmOps := s.hg.nvmOps ++ [.key (s.fld KEY_LOAD_CTRL 2 0) k false] } }

/-- A write to the headgate block. -/
def State.hgWrite (s : State) (a : Nat) (v : Word) : State :=
  if a = PONAR_CFG then s.ponarCfgWrite v
  else if a = WDOG_CFG then s.wdogCfgWrite v
  else if a = WDOG_KICK then s.wdogKick v
  else if 0x30084 ≤ a ∧ a < 0x30094 then s.setReg a v
  else if a = KEY_LOAD_GO then s.keyLoadGo v
  else s.plainWrite a v

/-- A write to the ring block. -/
def State.ringWrite (s : State) (a : Nat) (v : Word) : State :=
  if a < 0x41000 then
    let r := (a - 0x40000) / 0x40
    match (a - 0x40000) % 0x40 with
    | 0x00 => s.ringCfgWrite r false v
    | 0x04 => s.ringCfgWrite r true v
    | 0x08 => s.ringWaterWrite r v
    | 0x20 => s.hostCommit r v
    | 0x24 => s.hostRelease r v
    | _ => s.plainWrite a v
  else if a = XFER_CTRL then s.xferWrite v
  else if a = RING_SNAP_CTRL then s.ringSnap v
  else s.plainWrite a v

/-- A write to the trip and mitten block. -/
def State.mitWrite (s : State) (a : Nat) (v : Word) : State :=
  if a < 0x50080 then s.tripCfgWrite ((a - 0x50000) / 4) v
  else if (mitCfgReg a).isSome then s.mitCfgWrite a v
  else if 0x50400 ≤ a ∧ a < 0x50C00 ∧ a % 0x40 = 0x10 then s.mitClrWrite ((a - 0x50400) / 0x40) v
  else if 0x50400 ≤ a ∧ a < 0x50C00 ∧ a % 0x40 = 0x14 then s.mitStatusWrite ((a - 0x50400) / 0x40) v
  else s.plainWrite a v

/-- A write to the analogue block. -/
def State.adcWrite (s : State) (a : Nat) (v : Word) : State :=
  if a = ADC_REQ then s.adcReqWrite v
  else if 0x70800 ≤ a ∧ a < 0x71000 ∧ a % 0x20 = 0 then s.accCfgWrite ((a - 0x70800) / 0x20) v
  else if a = ADC_SNAP_CTRL then s.adcSnap v
  else if a < 0x70010 ∨ (0x70100 ≤ a ∧ a < 0x70600) then s.adcCfgWrite a v
  else s.plainWrite a v

/-- A write to the feedback block. -/
def State.fbWrite (s : State) (a : Nat) (v : Word) : State :=
  if a < 0x83000 then
    if (fbCfgReg ((a - 0x80000) / 0x1000) (a % 0x100)).isSome then s.fbCfgWrite a v else s.plainWrite a v
  else if a < 0x83200 ∧ a % 0x40 = 0 then s.cvCtrlWrite ((a - 0x83000) / 0x40) v
  else if a < 0x83200 ∧ a % 0x40 = 4 then s.cvStatusWrite ((a - 0x83000) / 0x40) v
  else if 0x83400 ≤ a ∧ a < 0x83600 ∧ a % 0x40 = 0 then s.prbCtrlWrite ((a - 0x83400) / 0x40) v
  else if 0x84000 ≤ a ∧ a % 0x40 = 0 then s.pcCtrlWrite ((a - 0x84000) / 0x40) v
  else s.plainWrite a v

/-- A write to the registers of a shaft. -/
def State.shaftWrite (s : State) (a : Nat) (v : Word) : State :=
  let h := (a - 0x90000) / 0x1000
  let off := (a - 0x90000) % 0x1000
  if off = 0 ∨ (shGeometry off).isSome then s.shWrite h off v
  else if off = 0x24 then s.cycleSet h v
  else if off = 0x60 then s.genWrite h v
  else if off = 0x80 then s.shaftSnap h v
  else s.plainWrite a v

/-- A write to the network block. -/
def State.netWrite (s : State) (a : Nat) (v : Word) : State :=
  if a = TS_CTRL then s.tsCtrlWrite v
  else if a = TS_SNAP_CTRL then s.tsSnap v
  else if 0xA1000 ≤ a ∧ a < 0xA1800 ∧ (a - 0xA1000) % 0x400 ≤ 0x2C ∧ (a - 0xA1000) % 0x400 ≠ 4 then
    s.portCtrlWrite ((a - 0xA1000) / 0x400) ((a - 0xA1000) % 0x400) v
  else if 0xA5000 ≤ a ∧ a < 0xA5400 ∧ (a - 0xA5000) % 0x40 ≤ 0x10 then
    s.impWrite ((a - 0xA5000) / 0x40) ((a - 0xA5000) % 0x40) v
  else s.plainWrite a v

/-- A write to the lifetime block. -/
def State.lifeWrite (s : State) (a : Nat) (v : Word) : State :=
  if a = CALN_CAL_CTRL then s.calCtlWrite v
  else if 0xB0100 ≤ a ∧ a < 0xB0200 then s.wearCfgWrite ((a - 0xB0100) / 4) v
  else if a = WEAR_OP then s.wearOp v
  else if a = WEAR_TAKE then s.wearTake v
  else if a = MIR_CTRL then s.mirNow v
  else s.plainWrite a v

/-- A write of `v` to address `a` under the register's own rules, whichever agent writes. Writes to read-only views and unassigned
addresses are ignored (R9, R24). -/
def State.busWrite (s : State) (a : Nat) (v : Word) : State :=
  if a % 4 ≠ 0 then s
  else if 0xB8000 ≤ a ∧ a < 0xB9000 then s.setReg a v
  else if 0x1000000 ≤ a ∧ clusterOf a < 24 ∧ 0x10000 ≤ clusterOff a ∧ clusterOff a < 0x20000 then
    s.clusterWrite (clusterOf a) (clusterOff a) v
  else if (regRow a).isNone then s
  else if 0x1000000 ≤ a then
    let off := clusterOff a
    if off < 0x4000 then s.chanWrite (clusterOf a * 16 + off / 0x400) (off % 0x400) v else s.clusterWrite (clusterOf a) off v
  else match a / 0x10000 with
    | 0 => s.sysWrite a v
    | 1 => s.sysWrite a v
    | 2 => s.irqWrite a v
    | 3 => s.hgWrite a v
    | 4 => s.ringWrite a v
    | 5 => s.mitWrite a v
    | 6 => s.pinSelWrite a v
    | 7 => s.adcWrite a v
    | 8 => s.fbWrite a v
    | 9 => s.shaftWrite a v
    | 10 => s.netWrite a v
    | 11 => s.lifeWrite a v
    | 12 => if a = CALENG_CAL_CTRL then s.calCtrlWrite v else s.plainWrite a v
    | _ => s

/-- A write that clears W1C bits alone, but for those that hardware has set in its window (R7, R238). -/
def State.flagWrite (s : State) (a : Nat) (v : Word) : State :=
  match regRow a with
  | some r => s.setReg a (s.reg a &&& ~~~ (v &&& BitVec.ofNat 32 r.w1c &&& ~~~ s.keptBits a))
  | none => s

/-! ### Host accesses -/

/-- One 32-bit write to Window A by a host port: the QSPI target, else PCIe. -/
def State.writeA (s : State) (qspi : Bool) (a : Nat) (v : Word) : State := s.portWrite qspi a v (fun s => s.busWrite a v)

/-- One 32-bit host read of Window A: its word joins those of the request. A read that meets a gated cluster is served at the end of
its wake (R352). -/
def State.readA (s : State) (a : Nat) : State :=
  match s.power.phase with
  | .run =>
    if !s.power.bclk then s
    else if s.meetsGate a then s.holdRead a
    else
      let s := if inStopped (clusterOf a) a then s.breakGate (clusterOf a) else s
      let q := s.readReg a
      { q.2 with hostData := q.2.hostData ++ [q.1] }
  | .soft => { s with hostData := s.hostData ++ [0] }
  | _ => s

/-- REGISTER_WRITE: a write to a register commits under the register's own rules (R7, R407). -/
def execRegisterWrite (addr : Nat) (v : Word) (s : State) : Host.Outcome State Fault Refusal := .next (s.writeA false addr v)

/-- RC_READ: a read of an RC register, or of any other (R7). -/
def execRcRead (addr : Nat) (s : State) : Host.Outcome State Fault Refusal := .next ({ s with hostData := [] }.readA addr)

/-- MT_LO_READ. -/
def execMtLoRead (s : State) : Host.Outcome State Fault Refusal := .next (s.hostRead State.mtLoRead)

/-- PONAR_CFG_WRITE. -/
def execPonarCfgWrite (v : Word) (s : State) : Host.Outcome State Fault Refusal :=
  .next (s.hostWrite PONAR_CFG v fun s => s.ponarCfgWrite v)

/-- KEY_LOAD_GO. -/
def execKeyLoadGo (v : Word) (s : State) : Host.Outcome State Fault Refusal :=
  .next (s.hostWrite KEY_LOAD_GO v fun s => s.keyLoadGo v)

end Sys2Proof.Machine
end

