-- ==== Sys2Proof/Machine/Swap.lean ====
section
/-!
DEFINITION. The swap: arming, its ticks F and T, and the loading of threads from a program image (spec/11_kci_instruction_set.md, R227, R250
to R254). With them the writes that wait for a later tick (R407).
-/

namespace Sys2Proof.Machine

open Reg

/-! ### Refused writes -/

/-- The flag that reports a refusal of a write to the register at `a` by its own rule. -/
def refusalFlag (a : Nat) : Option (Nat × Nat) :=
  if 0x1000000 ≤ a then
    let off := clusterOff a
    if off < 0x4000 then
      let k := clusterOf a * 16 + off / 0x400
      match off % 0x400 with
      | 0x000 => some (CH_STATUS k, 7)
      | 0x010 => some (CH_STATUS k, 6)
      | 0x080 => some (PT_STATUS k, 3)
      | 0x084 => some (PT_STATUS k, 4)
      | _ => none
    else if 0x6000 ≤ off ∧ off < 0x7000 then
      some (TH_STATUS (clusterOf a) ((off - 0x6000) / 0x100), if off % 0x100 = 0 then 10 else 11)
    else none
  else match a / 0x10000 with
    | 1 => if a = RST_CL then some (RST_STATUS, 8) else if a = PWR_CTRL then some (PWR_STATUS, 3) else none
    | 4 =>
      if a < 0x41000 then
        let r := (a - 0x40000) / 0x40
        match (a - 0x40000) % 0x40 with
        | 0x00 => some (RING_STATUS r, 1)
        | 0x04 => some (RING_STATUS r, 1)
        | 0x20 => some (RING_STATUS r, 2)
        | 0x24 => some (RING_STATUS r, 3)
        | _ => none
      else none
    | 5 => (mitCfgReg a).map (fun p => (MIT_STATUS p.1, 5))
    | 8 => if a < 0x83000 then some (FB_STATUS ((a - 0x80000) / 0x1000 * 8 + (a - 0x80000) % 0x1000 / 0x100), 8) else none
    | 9 => some (SH_STATUS ((a - 0x90000) / 0x1000), 11)
    | 10 =>
      if 0xA1000 ≤ a ∧ a < 0xA1800 then some (PORT_STATUS ((a - 0xA1000) / 0x400), 3)
      else if 0xA5000 ≤ a ∧ a < 0xA5400 then some (IMP_STATUS ((a - 0xA5000) / 0x40), 23)
      else none
    | 11 =>
      if a = WEAR_OP then some (WEAR_STATUS, 0) else if a = CALN_CAL_CTRL then some (CALN_CAL_STATUS, 3) else none
    | _ => none

/-- The register at `a` would refuse a write of `v` by its own rule: the write sets the flag that reports it. -/
def State.refuses (s : State) (a : Nat) (v : Word) : Bool :=
  match refusalFlag a with
  | some (f, b) => f != a && ((s.setBit f b false).busWrite a v).bit f b
  | none => false

/-! ### Writes that wait for a later tick (R407) -/

/-- A CHWR of thread `t` commits, and leaves its status (R236). -/
def State.threadWrite (s : State) (n t a : Nat) (v : Word) : State :=
  let refused := s.refuses a v
  (s.kciAccess fun s => (s.noteWrote a).busWrite a v).setSt n t (if refused then 0xC else 0x0)

/-- A swap-list entry commits, or is skipped when its register refuses it (R254). -/
def State.swapCommit (s : State) (a v : Word) : State :=
  let refused := s.refuses a.toNat v
  let s := (s.noteWrote a.toNat).busWrite a.toNat v
  if refused then s.satCount SWAP_SKIP else s

/-- The write of a register by its own rule, with the registers whose rule needs more than this file: see `State.busWrite`. A write that
has waited commits, or waits on: its register has taken its write of the tick, its cluster is gated, or an earlier write of its host
port waits. -/
def State.commitOne (s : State) (w : LateWrite) : State :=
  let wait : State := { s with later := s.later ++ [w] }
  match w with
  | .host q a v =>
    if s.hostBlocked q || s.meetsGate a || s.wroteNow a then wait
    else if s.sealLocks a v then s.lockRefused a v
    else (s.noteHost a).busWrite a v
  | .windowB off size v => if s.hostBlocked false then wait else s.bWrite off size v
  | .thread n t a v => if s.wroteNow a then wait else s.threadWrite n t a v
  | .flags a v => if s.wroteNow a then wait else s.kciAccess fun s => (s.noteWrote a).flagWrite a v
  | .swap a v => if s.wroteNow a.toNat then wait else s.swapCommit a v
  | .engine a v => if s.wroteNow a then wait else (s.noteWrote a).setNext a v

/-- The writes that have waited, in their order (R264, R352, R407). -/
def State.commitLater (s : State) : State :=
  if s.power.phase == .run && s.power.bclk then s.later.foldl State.commitOne { s with later := [] } else s

/-! ### Program images (R227, R228) -/

/-- The context of thread `t` of cluster `n` that the entry `w` of a thread table gives: registers and flags 0, the stamp pair `st`, PC,
priority and bindings. -/
def State.threadContext (s : State) (n t : Nat) (st : Stamp) (w : Word) : List (Nat × Word) :=
  (List.range 16).map (fun i => (G n t i, 0#32)) ++
    [(TH_FLAGS n t, 0), (TH_STAMP_LO n t, loWord st), (TH_STAMP_HI n t, hiWord st),
     (TH_PC n t, BitVec.ofNat 32 (bitsOf w 15 0 / 4 * 4)), (TH_CTRL n t, setBits (s.reg (TH_CTRL n t)) 9 8 (bitsOf w 29 28)),
     (TH_BIND n t, setBits (setBits 0 11 8 (bitsOf w 27 24)) 3 0 (bitsOf w 23 20))]

/-- The threads of cluster `n` take their contexts from the thread table of the front page, and the declared level; a register that has taken
its write of the tick takes its part in a later one (R407). Those with START = 1 become READY together; the engine then selects. The
address of a started thread's first microword is internal: a free value. -/
def State.loadThreads (s : State) (n : Nat) (st : Stamp) : State :=
  let s := s.setEngine n { s.engine n with level := s.declaredLevel n }
  let s := foldBelow 16 (fun s t =>
    let w := s.ramWord n (0x10 + 4 * t)
    let s := s.engineWrites (s.threadContext n t st w)
    if bitOf w 31 then
      (s.setThread n t { Thread.init with upc := s.freeValue.truncate 12 }).useFree.setThState n t thReady 0
    else s) s
  s

/-! ### Arming (R251, R252) -/

/-- The checks of R156 on an angle, in the order of R245. -/
def State.angleCheck (s : State) (h : Nat) (qual : Word) : Nat :=
  if s.fld ID_CLUSTER 31 24 ≤ h then 4
  else if s.angleBad h qual then 5
  else if !s.shSync h then 6
  else if !bitOf qual 8 && decide (1 < s.shCycleRevs h) && !s.shCycleValid h then 7
  else 0

/-- What an arm asks for: time or angle, the stamp or the angle, PURGE and LATE_OK. -/
structure SwapArm where
  angle : Bool
  stamp : Stamp
  frac : Word
  qual : Word
  shaft : Nat
  dirq : Nat
  purge : Bool
  lateOk : Bool
deriving DecidableEq, Repr

/-- The state with the swap armed as `r` asks, before its keying. -/
def State.swapSet (s : State) (r : SwapArm) : State :=
  let w := putBit (putBit (putBit (s.reg SWAP_STATUS) 29 true) 27 r.purge) 26 r.lateOk
  let w := setBits (putBit w 25 r.angle) 20 17 (if r.angle then r.shaft else 0)
  (s.setReg SWAP_STATUS w)

/-- ARM, whoever arms; `kci` for the SWAP instruction, which KCI_ARM limits. The status that it leaves, and the state. -/
def State.swapArm (s : State) (kci : Bool) (r : SwapArm) : Nat × State :=
  let st := if s.swapArmed then 0xE
    else if !s.bit SWAP_STATUS 31 || (kci && !s.bit SWAP_STATUS 30) then 0xC
    else if r.angle then s.angleCheck r.shaft r.qual
    else 0
  if st ≠ 0 then (st, s)
  else
    let s := s.swapSet r
    let s :=
      if r.angle then
        let back := s.dirOf r.shaft r.dirq
        let theta := s.resolveAngle r.shaft (s.shPos r.shaft) r.frac r.qual back
        { s with swap := { s.swap with theta := theta, rev := back, dirq := r.dirq, keyed := false } }.swapRekey r.shaft
      else s.swapKey r.stamp
    (if s.swapArmed then 0x0 else 0xD, s)

/-- DISARM. -/
def State.swapDisarm (s : State) : Nat × State :=
  if s.swapFixed then (0xC, s) else if s.swapArmed then (0x0, s.swapEnd 5) else (0x0, s)

/-! ### F and T (R252 to R254) -/

/-- SWAP_FIXED: T is fixed. -/
def State.swapFix (s : State) : State :=
  if s.swapArmed && !s.swapFixed && s.swap.keyed && s.reached s.swap.fTick then s.setBit SWAP_STATUS 28 true else s

def execSwapFixed (s : State) : Host.Outcome State Fault Refusal := .next (s.onTclk s.swapFix)

/-- A swap-list entry is written: in tick T no other write has taken its register, since the list takes it as the tick begins
(`State.tookNow`, R254, R407). -/
def State.swapEntry (s : State) (e : Word × Word) : State :=
  if s.wroteAlready e.1.toNat then { s with later := s.later ++ [.swap e.1 e.2] } else s.swapCommit e.1 e.2

/-- The exchange of the pages of cluster `n` and its threads halted. -/
def State.swapCluster (s : State) (n : Nat) : State :=
  let s := foldBelow 16 (fun s t => s.stopThread n t) s
  s.setEngine n { s.engine n with bank := !(s.engine n).bank }

/-- The clusters of the staged recipe. -/
def State.swapClusters (s : State) : List Nat := (List.range 24).filter (fun n => s.bit SWAP_MASK n)

/-- SWAP_TICK: the steps of R254. -/
def State.swapRun (s : State) : State :=
  if s.swapFixed && s.reached s.swap.tTick then
    let st := stampAt s.swap.tTick 0
    let purge := s.bit SWAP_STATUS 27
    let s := s.swapClusters.foldl State.swapCluster s
    let outcome := if s.swap.late then 2 else 1
    let news := s.fld SWAP_STATUS 3 0 != outcome
    let w := putBit (putBit (putBit (s.reg SWAP_STATUS) 31 false) 29 false) 28 false
    let s := s.setReg SWAP_STATUS (setBits w 3 0 outcome)
    let s := s.swapClusters.foldl (fun s n => s.loadThreads n st) s
    let s := if purge then s.swapClusters.foldl (fun s n => s.cancel n 0 0 none false) s else s
    let list := s.swap.list
    let s := list.foldl State.swapEntry { s with swap := { s.swap with list := [] } }
    let s := (s.setPair SWAP_STAMP_LO SWAP_STAMP_HI st).count SWAP_SEQ
    if news then s.deliver 253 none else s
  else s

def execSwapTick (s : State) : Host.Outcome State Fault Refusal := .next (s.onTclk s.swapRun)

end Sys2Proof.Machine
end

