-- ==== Sys2Proof/Machine/Ponar.lean ====
section
/-!
DEFINITION. The Ponar engine and the headgate's checks: spec/15_host_ports_and_headgate.md, R307 to R314, and Ponar over UDP (R332). A
request that has passed every check before the command's own is in `hg.serving`; the row of its command runs it.
-/

namespace Sys2Proof.Machine

open Reg

/-! ### Messages (R307, R308) -/

/-- The message that a byte string spells. -/
def parseMsg (via : Transport) (bytes : List Byte) (t : Tick) : Msg :=
  let w := bytesWords (bytes.take 16)
  let len := bitsOf (w.getD 1 0) 15 0
  { via := via, h0 := w.getD 0 0, h1 := w.getD 1 0, h2 := w.getD 2 0, h3 := w.getD 3 0,
    payload := bytesWords ((bytes.drop 16).take len)
    tag := BitVec.ofNat 64 (leNat ((bytes.drop (16 + len)).take 8)), arrived := t }

/-- The bytes that the TAG of a message covers: the header with STATUS 0, and LEN payload bytes. -/
def Msg.covered (h0 h1 h2 h3 : Word) (payload : List Word) : List Byte :=
  wordBytes [setBits h0 7 0 0, h1, h2, h3] ++ (wordBytes payload).take (bitsOf h1 15 0)

/-- TAG under `key`: the first 8 bytes of the CMAC. -/
def ponarTag (key : BitVec 128) (h0 h1 h2 h3 : Word) (payload : List Word) : BitVec 64 :=
  BitVec.ofNat 64 (leNat ((aesCmac (leBytes 16 key.toNat) (Msg.covered h0 h1 h2 h3 payload)).take 8))

/-- Critical types (R311). -/
def criticalType (t : Nat) : Bool := decide (0x20 ≤ t) && decide (t ≤ 0x29)

/-- The first version that has a type; none for an undefined type. -/
def typeVersion (t : Nat) : Option Nat :=
  match t with
  | 0x01 => some 1 | 0x02 => some 1 | 0x03 => some 1 | 0x04 => some 1
  | 0x08 => some 3 | 0x09 => some 3
  | 0x20 => some 1 | 0x21 => some 1 | 0x22 => some 2 | 0x23 => some 2 | 0x24 => some 1
  | 0x25 => some 1 | 0x26 => some 2 | 0x27 => some 1 | 0x28 => some 2 | 0x29 => some 1
  | _ => none

/-- The PERM bit that a critical type needs (R311, R315). -/
def typePerm (t : Nat) : Nat :=
  match t with
  | 0x20 => 0 | 0x21 => 1 | 0x22 => 1 | 0x23 => 2 | 0x24 => 2 | 0x25 => 3 | 0x26 => 4 | 0x27 => 3 | _ => 5

/-! ### Responses (R308, R309) -/

/-- Ring entries of a word list; the padding is 0. -/
def entriesOf (ws : List Word) : List (BitVec 128) :=
  (List.range ((ws.length + 3) / 4)).map (fun i =>
    ws.getD (4 * i + 3) 0 ++ ws.getD (4 * i + 2) 0 ++ ws.getD (4 * i + 1) 0 ++ ws.getD (4 * i) 0)

/-- The response in hand has been admitted to its ring or handed to its port, or is discarded, and with it a soft reset that waits for it
(R309, R325). -/
def State.responseGone (s : State) (discarded : Bool) : State :=
  if s.hg.resetAfter then { s with hg := { s.hg with resetAfter := false, resetDue := !discarded } } else s

/-- The response ring is usable and has credit for all `n` entries of a held response (R309). -/
def State.respCan (s : State) (n : Nat) : Bool := s.ponarRingOk s.rspRing && decide (n ≤ s.ringCreditNow s.rspRing)

/-- A held response is offered to the response ring once that can take it, at the place of a host commit (R262, R309). -/
def State.respAdmit (s : State) : State :=
  match s.hg.held with
  | none => s
  | some es => if s.mainRuns && s.respCan es.length && !s.hg.offered then
      { s.ringGather s.rspRing rankHost (.ponar es) with hg := { s.hg with offered := true } } else s

/-- The offer of a response is served: the sluice admits all its entries, which the engine writes behind those in flight, or the response is
held on (R309). -/
def State.respServe (s : State) (r : Nat) (es : List (BitVec 128)) : State :=
  let s := { s with hg := { s.hg with offered := false } }
  if s.hg.held == some es && s.rspRing == r && s.respCan es.length then
    let s := { s with hg := { s.hg with held := none } }
    let at_ := s.reg (RING_WR r) + BitVec.ofNat 32 (s.ring r).inflight.length
    let s := (es.zipIdx).foldl (fun s e => s.resWriteWords (s.entryAt r (at_ + BitVec.ofNat 32 e.2)) e.1.toNat 2) s
    (s.ringAdmit r (es.map (fun _ => .placed))).responseGone false
  else s

/-- A response on its way: to the response ring, where it waits for credit, or to its peer. A ring transport that EN = 0 has stopped
discards it. -/
def State.deliverResponse (s : State) (via : Transport) (ws : List Word) : State :=
  match via with
  | .ring => if s.bit PONAR_CFG 0 then { s with hg := { s.hg with held := some (entriesOf ws) } }.respAdmit else s.responseGone true
  | .udp p ip udp => if s.portUp p then (s.sendUdp p .ponar ip udp ws).responseGone false else s.responseGone true

/-- The response to `m` with STATUS `status`, tagged under `key` when there is one. VER is the request's where that is a version, else
open (a free value). The engine is free again. -/
def State.reply (s : State) (m : Msg) (key : Option (BitVec 128)) (status : Nat) (payload : List Word) : State :=
  let ver := if 1 ≤ m.ver ∧ m.ver ≤ 3 then m.ver else 1 + s.freeValue.toNat % 3
  let h0 := setBits (setBits (setBits (putBit (putBit 0 17 key.isSome) 16 true) 31 24 0x50) 23 20 ver) 15 8 m.type
  let h1 := setBits (m.h1 &&& 0xFFFF0000#32) 15 0 (4 * payload.length)
  let h2 := if key.isSome then m.h2 else 0
  let h3 := if key.isSome then m.h3 else 0
  let tag := match key with
    | some k => let t := ponarTag k h0 h1 h2 h3 payload; [loWord t, hiWord t]
    | none => []
  let s := { s with hg := { s.hg with serving := none, waiting := none } }.useFree
  if s.mainRuns then s.deliverResponse m.via ([setBits h0 7 0 status, h1, h2, h3] ++ payload ++ tag) else s

/-! ### The checks of R312 -/

/-- The session version of an endpoint, 0 with no session (R311). -/
def State.sessionVer (s : State) (via : Transport) : Nat :=
  match via with
  | .ring => s.fld PONAR_SESSION 3 0
  | .udp p ip udp => match s.findPeer p ip udp with | some e => s.fld (PEER_INFO p e) 3 0 | none => 0

/-- BAD_FORMAT. LEN is held to the largest of the version that the header names. -/
def Msg.badFormat (m : Msg) (padOk : Bool) : Bool :=
  m.magic != 0x50 || bitsOf m.h0 19 18 != 0 || bitOf m.h0 16 || bitsOf m.h0 7 0 != 0 || bitsOf m.h3 15 3 != 0 || !padOk ||
  decide (m.ver < 1) || decide (3 < m.ver) || decide ((if m.ver = 1 then 256 else 1024) < m.len) ||
  ((typeVersion m.type).isSome && m.crit != criticalType m.type) || (m.type == 1 && m.ver != 1) ||
  (!m.crit && (m.h2 != 0 || bitsOf m.h3 31 16 != 0 || m.slot != 0))

/-- The session checks: BAD_FORMAT, NO_SESSION, VERSION_MISMATCH; 0 when they pass. -/
def State.sessionCheck (s : State) (m : Msg) (padOk : Bool) : Nat :=
  let v := s.sessionVer m.via
  if m.badFormat padOk then 0x01
  else if m.type = 1 then 0
  else if v = 0 then 0x02
  else if m.ver ≠ v then 0x04
  else 0

/-- A message that passes the session checks kicks the watchdog with PONAR_KICK, and keeps its peer's session (R306, R335). -/
def State.sessionPassed (s : State) (m : Msg) : State :=
  let s := if s.bit WDOG_CFG 30 then s.kick else s
  match m.via with
  | .ring => s
  | .udp p ip udp =>
    match s.findPeer p ip udp with
    | some e => let c := s.port p; s.setPort p { c with lastMsg := Table.insert (c.lastMsg.erase e) e s.mt }
    | none => s

/-- A request that needs a critical key and passes all but the command's own checks, or is refused with PERMISSION. Its counter is
consumed (R313). -/
def State.permCheck (s : State) (m : Msg) : State :=
  let k := s.key m.slot
  let s := s.setKey m.slot { k with last := m.ctr }
  if k.perm.getLsbD (typePerm m.type) then { s with hg := { s.hg with serving := some m, waiting := none } }
  else s.reply m (some k.key) 0x07 []

/-- AUTH_FAIL of HG_EVENT with one of its counters. -/
def State.authFail (s : State) (counter : Nat) : State := (s.satCount counter).hgEvent 2

/-- The next multiple of 4 096 above a counter (R314). -/
def nextMark (c : BitVec 48) : BitVec 48 := BitVec.ofNat 48 ((c.toNat / 4096 + 1) * 4096)

/-- The checks of a critical request, from KEY_SLOT on (R312 to R314). -/
def State.criticalCheck (s : State) (m : Msg) : State :=
  let k := s.key m.slot
  if k.state ≠ 1 then (s.authFail AUTH_FAIL_CNT).reply m none 0x06 []
  else if m.tag ≠ ponarTag k.key m.h0 m.h1 m.h2 m.h3 m.payload then (s.authFail AUTH_FAIL_CNT).reply m none 0x08 []
  else if m.ctr ≤ k.last then (s.authFail STALE_CNT).reply m (some k.key) 0x09 []
  else if 2 ^ 48 - 4096 ≤ m.ctr.toNat then s.reply m (some k.key) 0x18 []
  else if m.ctr < k.mark then s.permCheck m
  else { s with hg := { s.hg with waiting := some m, nvmOps := s.hg.nvmOps ++ [.mark m.slot (nextMark m.ctr)] } }

/-- The engine takes message `m` and checks it. DISCOVER and SHAFT_EXPORT sent as requests have no command: they are answered OK
(R333). -/
def State.ponarBegin (s : State) (m : Msg) (padOk : Bool) : State :=
  let st := s.sessionCheck m padOk
  if st ≠ 0 then (if m.type = 1 then s.hostEvent 1 else s).reply m none st []
  else
    let v := s.sessionVer m.via
    let s := s.sessionPassed m
    match typeVersion m.type with
    | none => s.reply m none 0x05 []
    | some first =>
      if m.type ≠ 1 ∧ v < first then s.reply m none 0x05 []
      else if m.crit then s.criticalCheck m
      else if m.type = 8 ∨ m.type = 9 then s.reply m none 0x00 []
      else { s with hg := { s.hg with serving := some m } }

/-! ### Arrival (R309, R310, R332) -/

/-- The engine serves no message and holds no response. -/
def State.ponarFree (s : State) : Bool :=
  s.mainRuns && s.hg.serving.isNone && s.hg.waiting.isNone && s.hg.pairs.isNone && s.hg.held.isNone

/-- The tick in which the message of the command ring has arrived is noted. -/
def State.noteWhole (s : State) : State :=
  let t := if s.cmdWhole then (match s.hg.ringSince with | some t => some t | none => some s.mt) else none
  { s with hg := { s.hg with ringSince := t } }

/-- The oldest message of the Ethernet ports, when no message of the ring arrived before it. -/
def State.queueFirst (s : State) : Option Msg :=
  match s.hg.queue with
  | m :: _ => match s.hg.ringSince with
    | some t => if ahead m.arrived s.mt < ahead t s.mt then some m else none
    | none => some m
  | [] => none

/-- A free engine goes on to the next message of the Ethernet ports, in the order of arrival. -/
def State.engineNext (s : State) : State :=
  if s.ponarFree then
    match s.queueFirst with
    | some m => { s with hg := { s.hg with queue := s.hg.queue.drop 1 } }.ponarBegin m true
    | none => s
  else s

/-- At a tick boundary. -/
def State.ponarTick (s : State) : State := if s.mainRuns then s.noteWhole.engineNext else s

/-- `n` entries of the command ring are taken, and their bytes joined; an entry with an uncorrectable error gives none (R265, R310). -/
def State.takeEntries (s : State) : Nat → Bool × List Byte × State
  | 0 => (true, [], s)
  | n + 1 =>
    match s.ringTake s.cmdRing with
    | (some e, s) => let r := s.takeEntries n; (r.1, leBytes 16 e.toNat ++ r.2.1, r.2.2)
    | (none, s) => let r := s.takeEntries n; (false, List.replicate 16 0#8 ++ r.2.1, r.2.2)

/-- PONAR_RING_MESSAGE: the message of the command ring is taken and checked (R310). The header fields of an entry that cannot be read
are open (free values) but for SEQ, which the response gives as 0. -/
def State.ponarRing (s : State) : State :=
  let s := if s.mainRuns then s.noteWhole else s
  if s.ponarFree && s.cmdWhole && s.queueFirst.isNone then
    let n := s.cmdNeed
    let headBad := s.resPoisoned s.cmdAt 16
    let r := s.takeEntries n
    let s := { r.2.2 with hg := { r.2.2.hg with ringSince := none } }
    let m := parseMsg .ring r.2.1 s.mt
    if headBad then s.useFree.reply { m with h0 := s.freeValue.truncate 32, h1 := 0 } none 0x01 [0x1B]
    else if !r.1 then s.reply m none 0x01 [0x1B]
    else
      let used := 16 + m.len + (if m.crit then 8 else 0)
      s.ponarBegin m ((r.2.1.drop used).all (· == 0))
  else s

def execPonarRingMessage (s : State) : Host.Outcome State Fault Refusal := .next (s.onTclk s.ponarRing)

/-- PONAR_UDP_DATAGRAM: a datagram on PONAR_PORT joins the queue of the engine, or is discarded (R332). -/
def State.ponarUdp (s : State) (p : Nat) (f : RxFrame) (ip : Word) (udp : BitVec 16) (bytes : List Byte) : State :=
  s.receiveUdp p f (s.fld (UDP_PORTS p) 15 0) (fun s =>
    if !s.bit (PORT_CTRL p) 5 then s.rxDiscard p else
    let m := parseMsg (.udp p ip udp) bytes s.mt
    if bytes.length < 16 ∨ m.magic ≠ 0x50 ∨ bytes.length ≠ 16 + m.len + (if m.crit then 8 else 0) then s.satCount (PONAR_DISCARD p)
    else if (s.findPeer p ip udp).isNone ∧ (s.newPeer p ip udp 30).isNone then s.satCount (PEER_FULL_CNT p)
    else { s with hg := { s.hg with queue := s.hg.queue ++ [m] } }.noteWhole.engineNext)

def execPonarUdpDatagram (a : Arrival) (ip : Word) (udp : BitVec 16) (bytes : List Byte) (s : State) :
    Host.Outcome State Fault Refusal :=
  .next (s.onTclk (s.ponarUdp a.port a.frame ip udp bytes))

/-- PONAR_RESPONSE_ADMIT. -/
def execPonarResponseAdmit (s : State) : Host.Outcome State Fault Refusal := .next (s.onTclk s.respAdmit)

end Sys2Proof.Machine
end

