-- ==== Sys2Proof/Machine/Headgate.lean ====
section
/-!
DEFINITION. The commands of Ponar and the headgate's NVM writes: spec/15_host_ports_and_headgate.md, R311, R315 to R325, and
spec/18_lifetime_and_calibration.md, R378, R379 and R383. A row acts when its request is in service. Payload words that a request does
not carry, and response words that no rule states, are free values.
-/

namespace Sys2Proof.Machine

open Reg

/-! ### The request in service -/

/-- Word `i` of a request's payload; a word that it does not carry is open. -/
def State.payloadWord (s : State) (m : Msg) (i : Nat) : Word := m.payload.getD i ((Config.freeWord (s.free + i)).truncate 32)

/-- Run command `f` on the request in service when it has type `t` and `ok` holds of its first payload word; `f` takes the message and
its payload words. -/
def State.ponarDo (s : State) (t : Nat) (ok : Word → Bool) (f : Msg → (Nat → Word) → State → State) : State :=
  match s.hg.serving with
  | some m =>
    if s.mainRuns && m.type == t && ok (s.payloadWord m 0) && !s.ponarGated then
      f m (s.payloadWord m) { s with free := s.free + 512 }
    else s
  | none => s

/-- The key that tags the response to a critical request (R308). -/
def State.tagKey (s : State) (m : Msg) : Option (BitVec 128) := if m.crit then some (s.key m.slot).key else none

/-- A response with a payload. -/
def State.answer (s : State) (m : Msg) (status : Nat) (ws : List Word) : State := s.reply m (s.tagKey m) status ws

/-- A response whose payload word 0 no rule states, and words 1 on. -/
def State.answerFree (s : State) (m : Msg) (status : Nat) (ws : List Word) : State :=
  s.useFree.answer m status ((s.freeValue.truncate 32) :: ws)

/-- A response after which the command waits for NVM write `op`. -/
def State.awaitNvm (s : State) (m : Msg) (op : NvmOp) : State :=
  { s with hg := { s.hg with serving := none, waiting := some m, nvmOps := s.hg.nvmOps ++ [op] } }

def anyWord (_ : Word) : Bool := true

/-! ### Sessions and registers (R311) -/

/-- The highest version in a HELLO's offer, 0 with none. -/
def bestVersion (w : Word) : Nat := if bitOf w 2 then 3 else if bitOf w 1 then 2 else if bitOf w 0 then 1 else 0

/-- The session of an endpoint opens at version `v`; false when the peer table has no room. -/
def State.openSession (s : State) (via : Transport) (v : Nat) : Bool × State :=
  match via with
  | .ring => (true, s.setReg PONAR_SESSION (BitVec.ofNat 32 v))
  | .udp p ip udp =>
    let found := match s.findPeer p ip udp with
      | some e => some (e, s)
      | none => s.newPeer p ip udp 30
    match found with
    | some (e, s') =>
      let s' := (s'.setBit (PEER_INFO p e) 30 true).setFld (PEER_INFO p e) 3 0 v
      let c := s'.port p
      let s' := s'.setPort p { c with lastMsg := Table.insert (c.lastMsg.erase e) e s.mt }
      (true, if s'.peerWords p e = s.peerWords p e then s' else s'.peerChange p)
    | none => (false, s.satCount (PEER_FULL_CNT p))

/-- HELLO. -/
def State.hello (m : Msg) (w : Nat → Word) (s : State) : State :=
  let v := bestVersion (w 0)
  let s := s.hostEvent 1
  if v = 0 then s.answer m 0x03 []
  else
    let r := s.openSession m.via v
    if r.1 then r.2.answer m 0x00 [BitVec.ofNat 32 v, r.2.reg ID_PART, r.2.reg ID_STEP, r.2.reg ID_UCODE, r.2.gstatView]
    else { r.2 with hg := { r.2.hg with serving := none } }

def execHello (s : State) : Host.Outcome State Fault Refusal := .next (s.ponarDo 0x01 anyWord State.hello)

/-- GET_COUNTER: state, LAST and MARK of the slot in the layout of the slot registers. What a slot number above 7 returns is open. -/
def State.getCounter (m : Msg) (w : Nat → Word) (s : State) : State :=
  let k := (w 0).toNat
  if k < 8 then s.answer m 0x00 ([0x00, 0x04, 0x08, 0x0C, 0x10].map (s.keyView k))
  else { s with free := s.free + 5 }.answer m 0x00 ([0, 1, 2, 3, 4].map (fun i => (Config.freeWord (s.free + i)).truncate 32))

def execGetCounter (s : State) : Host.Outcome State Fault Refusal := .next (s.ponarDo 0x02 anyWord State.getCounter)

/-- The values of a list of addresses, each read under R7. -/
def State.readList (s : State) : List Word → List Word × State
  | [] => ([], s)
  | a :: rest => let r := s.readReg a.toNat; let q := r.2.readList rest; (r.1 :: q.1, q.2)

/-- REG_READ. A misaligned address reads 0 (notes/assumptions/80.md). -/
def State.regRead (m : Msg) (w : Nat → Word) (s : State) : State :=
  let r := s.readList ((List.range (m.len / 4)).map w)
  r.2.answer m 0x00 r.1

def execRegRead (s : State) : Host.Outcome State Fault Refusal := .next (s.ponarDo 0x03 anyWord State.regRead)

/-- A pair of REG_WRITE or MIT_CHANGE commits unless its register, or for a direct write SEAL, refuses it: whether it was applied. A misaligned
address is discarded and counts as applied, as a write to an unassigned address does (notes/assumptions/80.md). -/
def State.pairWrite (direct : Bool) (s : State) (a : Nat) (v : Word) : Bool × State :=
  if direct && s.sealLocks a v then (false, s.lockRefused a v)
  else let refused := s.refuses a v; (!refused, (s.noteHost a).busWrite a v)

/-- The response to a list of pairs: the number applied in word 1, the first refused in word 2. -/
def State.answerPairs (s : State) (p : PairRun) : State :=
  { s with hg := { s.hg with pairs := none } }.answerFree p.msg 0x00
    [BitVec.ofNat 32 p.applied, match p.refused with | some i => BitVec.ofNat 32 i | none => 0xFFFFFFFF#32]

/-- The count of a pair that has been taken: applied or not. -/
def PairRun.took (p : PairRun) (ok : Bool) (t : Tick) : PairRun :=
  { p with index := p.index + 1, last := t, applied := if ok then p.applied + 1 else p.applied,
           refused := if ok then p.refused else (match p.refused with | some i => some i | none => some p.index) }

/-- The pairs `l` that are left of `p` commit in payload order, in the present tick as far as they can: one whose register has taken its write
of the tick waits (R407), and a MIT_CHANGE commits one pair per tick (R324). With none left the request is answered. -/
def State.pairsRun (s : State) (p : PairRun) : List (Word × Word) → State
  | [] => s.answerPairs p
  | e :: rest =>
    if s.wroteNow e.1.toNat then { s with hg := { s.hg with pairs := some { p with left := e :: rest } } }
    else
      let r := s.pairWrite p.direct e.1.toNat e.2
      let p := p.took r.1 s.mt
      if p.direct || rest.isEmpty then r.2.pairsRun p rest
      else { r.2 with hg := { r.2.hg with pairs := some { p with left := rest } } }

/-- The pairs of request `m`. -/
def pairList (m : Msg) (w : Nat → Word) : List (Word × Word) := (List.range (m.len / 8)).map (fun i => (w (2 * i), w (2 * i + 1)))

/-- The pairs of request `m` begin to commit. -/
def State.pairsBegin (s : State) (m : Msg) (direct : Bool) (l : List (Word × Word)) : State :=
  { s with hg := { s.hg with serving := none } }.pairsRun
    { msg := m, direct := direct, last := s.mt, left := [], index := 0, applied := 0, refused := none } l

/-- At the end of a tick that has brought none yet, the pairs that wait go on. -/
def State.pairTick (s : State) : State :=
  match s.hg.pairs with
  | some p => if s.mainRuns && p.last != s.mt then s.pairsRun p p.left else s
  | none => s

/-- REG_WRITE. -/
def State.regWrite (m : Msg) (w : Nat → Word) (s : State) : State := s.pairsBegin m true (pairList m w)

def execRegWrite (s : State) : Host.Outcome State Fault Refusal := .next (s.ponarDo 0x04 anyWord State.regWrite)

/-! ### OUTPUT (R320) -/

def State.output (m : Msg) (w : Nat → Word) (s : State) : State :=
  if bitOf (w 0) 0 && !s.ucodeValid then s.answer m 0x13 []
  else ((s.setBit GSTAT 2 (bitOf (w 0) 0)).refreshPins s.now).answer m 0x00 []

def execOutput (s : State) : Host.Outcome State Fault Refusal := .next (s.ponarDo 0x20 anyWord State.output)

/-! ### PROG_LOAD (R321, R322) -/

/-- The clusters that CL_MASK names. -/
def namedClusters (mask : Word) : List Nat := (List.range 24).filter (fun n => bitOf mask n)

/-- What a PROG_LOAD says of one cluster: cluster, image offset, zero word, digest. -/
structure ImageRef where
  cluster : Nat
  ofs : Nat
  zero : Word
  digest : BitVec 256

/-- Eight payload words as a digest, its bytes in the order that SHA-256 emits them. -/
def digestAt (w : Nat → Word) (i : Nat) : BitVec 256 := BitVec.ofNat 256 (beNat (wordBytes ((List.range 8).map (fun j => w (i + j)))))

def imageRefs (w : Nat → Word) : List ImageRef :=
  ((namedClusters (w 1)).zipIdx).map (fun e =>
    let b := 12 + 10 * e.2
    { cluster := e.1, ofs := (w b).toNat, zero := w (b + 1), digest := digestAt w (b + 2) })

/-- Entries of the swap list at `ofs`. -/
def State.listEntries (s : State) (ofs count : Nat) : List (Word × Word) :=
  (List.range count).map (fun i => (s.resWord (ofs + 8 * i), s.resWord (ofs + 8 * i + 4)))

/-- An address that no swap list holds, for a slot with permissions `perm` (R321). -/
def listBad (perm : BitVec 8) (a : Nat) : Bool :=
  let blk := a / 0x10000
  (decide (0xD0000 ≤ a) && (decide (a < 0x1000000) || decide (24 ≤ clusterOf a))) || blk == 3 || blk == 11 ||
  (blk == 5 && !perm.getLsbD 2) || (decide (0x50400 ≤ a) && decide (a < 0x50C00) && a % 0x40 == 0x10) ||
  (decide (0x1000000 ≤ a) && decide (0x5000 ≤ clusterOff a) && decide (clusterOff a < 0xC000)) ||
  (!perm.getLsbD 4 && ((decide (0x70400 ≤ a) && decide (a < 0x70800) && a % 16 == 4) ||
    (decide (0x81000 ≤ a) && decide (a < 0x81800) && (a % 0x100 == 0xC || a % 0x100 == 0x10 || a % 0x100 == 0x14))))

/-- SIZE of the image at `ofs`. -/
def State.imageSize (s : State) (ofs : Nat) : Nat := (s.resWord (ofs + 8)).toNat

/-- The header of the image at `ofs` breaks R227. -/
def State.imageBad (s : State) (ofs : Nat) : Bool :=
  let w1 := s.resWord (ofs + 4)
  s.resWord ofs != 0x4B434931#32 || bitsOf w1 31 16 != 0 || bitsOf w1 15 8 != 1 || bitsOf w1 7 0 == 0 ||
  decide (65536 < s.imageSize ofs) || s.resWord (ofs + 12) != 0 ||
  (List.range 16).any (fun t => (s.resWord (ofs + 16 + 4 * t) &&& 0x400F0003#32) != 0)

/-- The address checks of PROG_LOAD. -/
def State.loadRange (s : State) (stage : Bool) (perm : BitVec 8) (w : Nat → Word) : Bool :=
  let lo := (w 2).toNat
  let n := (w 3).toNat
  let addrs : List Nat := (s.listEntries lo (min n 257)).map (fun e => e.1.toNat)
  bitsOf (w 1) 31 24 != 0 || w 1 == 0 || lo % 8 != 0 || decide (2 ^ 24 < lo + 8 * n) || decide (256 < n) || (!stage && n != 0) ||
  (imageRefs w).any (fun r => r.ofs % 8 != 0 || decide (2 ^ 24 < r.ofs + max 80 (s.imageSize r.ofs))) ||
  !decide addrs.Nodup || addrs.any (listBad perm)

/-- The checks of PROG_LOAD in the order of R321: 0 when all pass. -/
def State.loadCheck (s : State) (m : Msg) (stage : Bool) (w : Nat → Word) : Nat :=
  let refs := imageRefs w
  let big (r : ImageRef) : Bool :=
    decide (32768 < s.imageSize r.ofs) && (stage || (s.bit SWAP_STATUS 31 && s.bit SWAP_MASK r.cluster))
  if bitsOf (w 0) 31 2 ≠ 0 ∨ refs.any (fun r => r.zero != 0) ∨ (stage ∧ m.ver = 1) then 0x01
  else if stage ∧ s.swapArmed then 0x11
  else if !stage ∧ refs.any (fun r => (List.range 16).any (fun t => !s.thIdle r.cluster t)) then 0x0D
  else if s.loadRange stage (s.key m.slot).perm w then 0x12
  else if refs.any (fun r => s.imageBad r.ofs || big r) then 0x0E
  else if refs.any (fun r => decide (s.fld ID_UCODE 15 8 < bitsOf (s.resWord (r.ofs + 4)) 7 0)) then 0x0F
  else if sha256 (s.resBytes (w 2).toNat (8 * (w 3).toNat)) ≠ digestAt w 4 ∨
      refs.any (fun r => sha256 (s.resBytes r.ofs (s.imageSize r.ofs)) != r.digest) then 0x10
  else if s.resPoisoned (w 2).toNat (8 * (w 3).toNat) ∨ refs.any (fun r => s.resPoisoned r.ofs (max 80 (s.imageSize r.ofs))) then 0x1B
  else 0

/-- An image is copied to local RAM of its cluster from local address `base`. -/
def State.copyImage (s : State) (base : Nat) (r : ImageRef) : State :=
  foldBelow (s.imageSize r.ofs) (fun s i => s.ramWrite r.cluster (base + i) (s.resRead (r.ofs + i) 1) 1) s

/-- A refused PROG_LOAD; RESV_ERROR sets RESV_UE. -/
def State.loadRefused (s : State) (m : Msg) (st : Nat) : State := (if st = 0x1B then s.setResvUe else s).answer m st []

/-- PROG_LOAD in DIRECT mode. -/
def State.loadDirect (m : Msg) (w : Nat → Word) (s : State) : State :=
  let st := s.loadCheck m false w
  if st ≠ 0 then s.loadRefused m st
  else
    let s := (imageRefs w).foldl (fun s r => s.copyImage 0 r) s
    let s := (namedClusters (w 1)).foldl (fun s n => s.loadThreads n s.now) s
    s.answer m 0x00 []

def execProgLoadDirect (s : State) : Host.Outcome State Fault Refusal :=
  .next (s.ponarDo 0x21 (fun w => !bitOf w 0) State.loadDirect)

/-- PROG_LOAD in STAGE mode: images to the back pages, the list to the swap buffer. -/
def State.loadStage (m : Msg) (w : Nat → Word) (s : State) : State :=
  let st := s.loadCheck m true w
  if st ≠ 0 then s.loadRefused m st
  else
    let s := (imageRefs w).foldl (fun s r => s.copyImage 32768 r) s
    let list := s.listEntries (w 2).toNat (w 3).toNat
    let s := { s with swap := { s.swap with list := list } }
    let s := s.setReg SWAP_STATUS (putBit (putBit (s.reg SWAP_STATUS) 31 true) 30 (bitOf (w 0) 1))
    (s.setReg SWAP_MASK (w 1)).answer m 0x00 []

def execProgLoadStage (s : State) : Host.Outcome State Fault Refusal :=
  .next (s.ponarDo 0x21 (fun w => bitOf w 0) State.loadStage)

/-! ### SWAP_CTL (R323) -/

/-- What SWAP_CTL asks for. -/
def swapRequest (w : Nat → Word) : SwapArm :=
  { angle := bitOf (w 0) 2, stamp := ofWords (w 2) (w 1), frac := w 1, qual := w 2, shaft := bitsOf (w 0) 11 8,
    dirq := bitsOf (w 0) 13 12, purge := bitOf (w 0) 3, lateOk := bitOf (w 0) 4 }

/-- The response: STATE_REFUSED with the ST code in word 0, or OK; SWAP_STATUS in word 1. -/
def State.answerSwap (m : Msg) (r : Nat × State) : State :=
  if r.1 = 0 then r.2.answerFree m 0x00 [r.2.reg SWAP_STATUS]
  else r.2.answer m 0x13 [BitVec.ofNat 32 r.1, r.2.reg SWAP_STATUS]

def State.swapCtlArm (m : Msg) (w : Nat → Word) (s : State) : State := State.answerSwap m (s.swapArm false (swapRequest w))

def execSwapCtlArm (s : State) : Host.Outcome State Fault Refusal :=
  .next (s.ponarDo 0x22 (fun w => bitsOf w 1 0 == 0) State.swapCtlArm)

def State.swapCtlDisarm (m : Msg) (_ : Nat → Word) (s : State) : State := State.answerSwap m s.swapDisarm

def execSwapCtlDisarm (s : State) : Host.Outcome State Fault Refusal :=
  .next (s.ponarDo 0x22 (fun w => bitsOf w 1 0 == 1) State.swapCtlDisarm)

/-- QUERY; the undefined OP 0b11 is answered here with BAD_FORMAT. -/
def State.swapCtlQuery (m : Msg) (w : Nat → Word) (s : State) : State :=
  if bitsOf (w 0) 1 0 = 3 then s.answerFree m 0x01 [s.reg SWAP_STATUS] else State.answerSwap m (0, s)

def execSwapCtlQuery (s : State) : Host.Outcome State Fault Refusal :=
  .next (s.ponarDo 0x22 (fun w => decide (2 ≤ bitsOf w 1 0)) State.swapCtlQuery)

/-! ### MIT_CHANGE and MIT_CLEAR (R324) -/

/-- An address that MIT_CHANGE may name. -/
def mitChangeAddr (a : Nat) : Bool :=
  a == WDOG_CFG || (a / 0x10000 == 5 && a % 4 == 0 && (regRow a).isSome &&
    !(decide (0x50400 ≤ a) && decide (a < 0x50C00) && a % 0x40 == 0x10))

/-- MIT_CHANGE: with every address allowed, the first pair commits with the command and each further one in a tick of its own. -/
def State.mitChange (m : Msg) (w : Nat → Word) (s : State) : State :=
  let l := pairList m w
  if l.any (fun e => !mitChangeAddr e.1.toNat) then s.answer m 0x12 [] else s.pairsBegin m false l

def execMitChange (s : State) : Host.Outcome State Fault Refusal := .next (s.ponarDo 0x23 anyWord State.mitChange)

/-- CLR_RESULT of every mitten as one 64-bit value. -/
def State.clrResults (s : State) : BitVec 64 :=
  (List.range 32).foldl (fun v m => v ||| (BitVec.ofNat 64 (s.fld (MIT_STATUS m) 7 6) <<< (2 * m))) 0

def State.mitClear (m : Msg) (w : Nat → Word) (s : State) : State :=
  let s := foldBelow 32 (fun s i => if bitOf (w 0) i then s.clearMitten i true else s) s
  s.answerFree m 0x00 [loWord s.clrResults, hiWord s.clrResults]

def execMitClear (s : State) : Host.Outcome State Fault Refusal := .next (s.ponarDo 0x24 anyWord State.mitClear)

/-! ### Keys, SEAL, the floor (R315 to R317, R325) -/

/-- Once sealed, a change of slot `k` must leave an ACTIVE slot with the KEY permission. -/
def State.lastAdmin (s : State) (k : Nat) (v : KeySlot) : Bool :=
  let s' := s.setKey k v
  s.nvm.sealed && !(List.range 8).any (fun i => (s'.key i).state == 1 && (s'.key i).perm.getLsbD 3)

def State.keyInstall (m : Msg) (w : Nat → Word) (s : State) : State :=
  let t := bitsOf (w 0) 2 0
  match keyUnwrap (leBytes 16 (s.key m.slot).key.toNat) (wordBytes ((List.range 6).map (fun i => w (i + 1)))) with
  | none => s.answer m 0x13 []
  | some k =>
    let v : KeySlot := { key := BitVec.ofNat 128 (leNat k), perm := BitVec.ofNat 8 (bitsOf (w 0) 23 16), state := 1, last := 0, mark := 4096 }
    if s.lastAdmin t v then s.answer m 0x14 [] else s.awaitNvm m (.key t v true)

def execKeyChangeInstall (s : State) : Host.Outcome State Fault Refusal :=
  .next (s.ponarDo 0x25 (fun w => bitsOf w 9 8 == 0) State.keyInstall)

/-- REVOKE; an undefined OP is answered here with BAD_FORMAT. -/
def State.keyRevoke (m : Msg) (w : Nat → Word) (s : State) : State :=
  let t := bitsOf (w 0) 2 0
  let v : KeySlot := { s.key t with key := 0, state := 2 }
  if bitsOf (w 0) 9 8 ≠ 1 then s.answer m 0x01 []
  else if s.lastAdmin t v then s.answer m 0x14 []
  else s.awaitNvm m (.key t v true)

def execKeyChangeRevoke (s : State) : Host.Outcome State Fault Refusal :=
  .next (s.ponarDo 0x25 (fun w => bitsOf w 9 8 != 0) State.keyRevoke)

/-- SEAL. -/
def State.seal (m : Msg) (w : Nat → Word) (s : State) : State :=
  if w 0 ≠ 0x5345414C#32 then s.answer m 0x01 []
  else if !(List.range 8).any (fun i => (s.key i).state == 1 && (s.key i).perm.getLsbD 3) then s.answer m 0x17 []
  else if s.nvm.sealed then s.answer m 0x1A []
  else s.awaitNvm m .sealed

def execSeal (s : State) : Host.Outcome State Fault Refusal := .next (s.ponarDo 0x27 anyWord State.seal)

/-- FLOOR_RAISE. -/
def State.floorRaise (m : Msg) (w : Nat → Word) (s : State) : State :=
  let v := bitsOf (w 0) 15 0
  if v < s.nvm.floor.toNat then s.answer m 0x15 []
  else if !s.ucodeValid ∨ s.fld ID_UCODE 31 16 < v then s.answer m 0x16 []
  else s.awaitNvm m (.floor (BitVec.ofNat 16 v))

def execFloorRaise (s : State) : Host.Outcome State Fault Refusal := .next (s.ponarDo 0x28 anyWord State.floorRaise)

/-- SOFT_RESET: the response, and then the reset (R325). -/
def State.softReset (m : Msg) (_ : Nat → Word) (s : State) : State :=
  { s with hg := { s.hg with resetAfter := true } }.answer m 0x00 []

def execSoftReset (s : State) : Host.Outcome State Fault Refusal := .next (s.ponarDo 0x29 anyWord State.softReset)

/-! ### UCAL_WRITE (R383) -/

/-- Record `i` of a payload: REMOVE and the record. -/
def ucalRecord (w : Nat → Word) (i : Nat) : Bool × UcalRec :=
  let a := w (1 + 2 * i)
  (bitOf a 31, { kind := bitsOf a 30 24, index := bitsOf a 15 0, value := w (2 + 2 * i) })

/-- A trim record. -/
def UcalRec.isTrim (r : UcalRec) : Bool := r.kind == 5 || r.kind == 6

/-- ADDR_RANGE: KIND or INDEX undefined, or a reserved bit set. -/
def ucalBad (w : Nat → Word) (i : Nat) : Bool :=
  let r := (ucalRecord w i).2
  bitsOf (w (1 + 2 * i)) 23 16 != 0 ||
  (if r.isTrim then decide (256 ≤ r.index) || bitsOf r.value 31 16 != 0 else (ucalAddr r.kind r.index).isNone)

/-- The composed trim of a record lies outside 0..4 095. -/
def ucalTrimBad (r : Bool × UcalRec) : Bool :=
  let t : Int := (factoryTrim (r.2.kind == 6) r.2.index : Nat) + signed 16 (bitsOf r.2.value 15 0)
  r.2.isTrim && !r.1 && (decide (t < 0) || decide (4095 < t))

/-- A reserved bit of word 0 that is 1 gives ADDR_RANGE like one of a record; a record count outside 1 to 127, for which the rule names no
status, gives BAD_FORMAT (notes/assumptions/88.md). -/
def State.ucalWrite (m : Msg) (w : Nat → Word) (s : State) : State :=
  let n := bitsOf (w 0) 7 0
  let recs := (List.range n).map (ucalRecord w)
  if n = 0 ∨ 127 < n then s.answer m 0x01 []
  else if bitsOf (w 0) 31 8 ≠ 0 ∨ (List.range n).any (ucalBad w) then s.answer m 0x12 []
  else if recs.any ucalTrimBad then s.answer m 0x13 []
  else s.awaitNvm m (.ucal recs)

def execUcalWrite (s : State) : Host.Outcome State Fault Refusal := .next (s.ponarDo 0x26 anyWord State.ucalWrite)

/-- The records of NVM after one record of a UCAL_WRITE. -/
def ucalStore (l : List UcalRec) (r : Bool × UcalRec) : List UcalRec :=
  let keep := l.filter (fun x => !(x.kind == r.2.kind && x.index == r.2.index))
  if r.1 then keep else keep ++ [r.2]

/-- A new trim waits at its pad from the present tick on; the one in force stays until then (R384). -/
def State.trimApply (s : State) (r : UcalRec) (old : Word) : State :=
  let c := s.pin r.index
  let due (d : Option (Tick × Word)) : Option (Tick × Word) := some (s.mt, match d with | some e => e.2 | none => old)
  s.setPin r.index (if r.kind = 5 then { c with trimOutDue := due c.trimOutDue } else { c with trimInDue := due c.trimInDue })

/-- The register that a record is for, with the value that it takes from the records in NVM. -/
def State.ucalWord (s : State) (r : UcalRec) : Option (Nat × Word) :=
  (ucalAddr r.kind r.index).map (fun a => (a, (s.ucalValue r.kind r.index).getD (resetWord a) &&& rwMask a))

/-- Writes of the headgate engine that commit together: when one of them has to wait for another write of its register, all do (R383, R407). -/
def State.engineCommit (s : State) (l : List (Nat × Word)) : State :=
  if l.any (fun e => s.wroteNow e.1) then { s with later := s.later ++ l.map (fun e => .engine e.1 e.2) }
  else l.foldl (fun s e => s.engineWrite e.1 e.2) s

/-- The records are in NVM: they are applied to their registers in one tick, in which the registers take their writes (R383, R407). -/
def State.ucalDone (s : State) (recs : List (Bool × UcalRec)) : State :=
  let olds := recs.map (fun r => s.trimView (r.2.kind == 6) r.2.index)
  let base := if s.nvm.ucalValid then s.nvm.ucal else []
  let s := { s with nvm := { s.nvm with ucal := recs.foldl ucalStore base, ucalValid := true } }
  let s := (List.zip recs olds).foldl (fun s e => if e.1.2.isTrim then s.trimApply e.1.2 e.2 else s) s
  s.engineCommit (recs.filterMap (fun r => s.ucalWord r.2)).eraseDups

/-! ### NVM writes (R314, R315, R378, R379) -/

/-- A key whose slot has changed under the request that it tags: the key of the response is open. -/
def State.replyKey (s : State) (m : Msg) (slot : Nat) : Option (BitVec 128) :=
  if m.slot = slot then some (Config.freeWord s.free ++ Config.freeWord (s.free + 1)) else s.tagKey m

/-- The write of `op` is in NVM. The waiting request goes on, or is answered. A data register that a host writes in the same BCLK cycle keeps
that write, which takes place after the clearing (R7, R315). -/
def State.nvmDone (s : State) (op : NvmOp) : State :=
  match op with
  | .mark k v =>
    let s := s.setKey k { s.key k with mark := v }
    (match s.hg.waiting with
     | some m => if s.mainRuns then s.permCheck m else { s with hg := { s.hg with waiting := none } }
     | none => s)
  | .key k v reply =>
    let s := { s.setKey k v with nvm := { s.nvm with keysValid := true } }
    if reply then
      (match s.hg.waiting with
       | some m => { s with free := s.free + 2 }.reply m (s.replyKey m k) 0x00 []
       | none => s)
    else [0, 1, 2, 3].foldl (fun s i => if s.written.contains (KEY_LOAD_DATA i) then s else s.setReg (KEY_LOAD_DATA i) 0) s
  | .sealed =>
    let s := { s with nvm := { s.nvm with sealed := true, identityValid := true } }.hgEvent 3
    (match s.hg.waiting with | some m => s.answer m 0x00 [] | none => s)
  | .floor v =>
    let s := { s with nvm := { s.nvm with floor := v, identityValid := true } }
    (match s.hg.waiting with | some m => s.answer m 0x00 [] | none => s)
  | .ucal recs =>
    let s := s.ucalDone recs
    (match s.hg.waiting with | some m => s.answer m 0x00 [] | none => s)

/-- The write of `op` has failed twice: NVM_FAIL, and a waiting request is answered with it. -/
def State.nvmFailed (s : State) (op : NvmOp) : State :=
  let s := s.hgEvent 4
  match op, s.hg.waiting with
  | .key _ _ false, _ => s
  | _, some m => s.answer m 0x0A []
  | _, none => s

/-- NVM_WRITE_COMPLETE: the headgate's write in progress completes or fails. -/
def State.nvmComplete (s : State) (ok : Bool) : State :=
  match s.hg.nvmOps with
  | [] => s
  | op :: rest =>
    let s := { s with hg := { s.hg with nvmOps := rest } }
    if ok then s.nvmDone op else s.nvmFailed op

def execNvmWriteComplete (ok : Bool) (s : State) : Host.Outcome State Fault Refusal := .next (s.onTclk (s.nvmComplete ok))

end Sys2Proof.Machine
end

