-- ==== Sys2Proof/Machine/HostPorts.lean ====
section
/-!
DEFINITION. The PCIe endpoint and the QSPI target: spec/15_host_ports_and_headgate.md, R299 to R304, and Window B (R25, R302).
-/

namespace Sys2Proof.Machine

open Reg

/-! ### Access faults (R301, R304) -/

/-- An access fault is logged: address, direction, port and byte enables. -/
def State.accessFault (s : State) (a : Word) (write qspi : Bool) (be : BitVec 4) : State :=
  let s := (s.setReg ACC_ERR_ADDR a).setReg ACC_ERR_INFO (setBits (putBit (putBit 0 31 write) 30 qspi) 3 0 be.toNat)
  (s.satCount ACC_ERR_CNT).hgEvent 0

/-! ### PCIe (R300 to R302) -/

/-- A memory request to Window A whose byte enables are all set: successive 32-bit accesses in ascending address order. -/
def State.pcieAccess (s : State) (write : Bool) (a : Nat) (ws : List Word) : State :=
  (ws.zipIdx).foldl (fun s e => if write then s.writeA false (a + 4 * e.2) e.1 else s.readA (a + 4 * e.2)) s

/-- A memory request to Window A that the clocks serve. -/
def State.pcieServe (s : State) (write : Bool) (a : Nat) (dws : List (BitVec 4 × Word)) : State :=
  let s := if write then s else { s with hostData := [] }
  match (dws.zipIdx).find? (fun e => e.1.1 != 0xF#4) with
  | none => s.pcieAccess write a (dws.map Prod.snd)
  | some e =>
    let at_ := a + 4 * e.2
    if s.power.phase == .run then (s.accessFault (BitVec.ofNat 32 at_) write false e.1.1).send (.unsupported at_) else s

/-- A host request: served while the clocks run, held through NAP and until BCLK has started after it (R349), lost while the main domain has no power or is in reset (R356). -/
def State.hostRequest (s : State) (q : HostReq) (serve : State → State) : State :=
  match s.power.phase with
  | .run => if s.power.bclk then serve s else { s with power := { s.power with heldHost := s.power.heldHost ++ [q] } }
  | .soft => serve s
  | .nap => { s with power := { s.power with heldHost := s.power.heldHost ++ [q] } }
  | .waking => { s with power := { s.power with heldHost := s.power.heldHost ++ [q] } }
  | _ => s

def execPcieMemoryRequest (write : Bool) (addr : Nat) (dws : List (BitVec 4 × Word)) (s : State) : Host.Outcome State Fault Refusal :=
  .next (s.hostRequest (.pcie write addr dws) fun s => s.pcieServe write addr dws)

/-- A Window B read. The data of a poisoned completion are open (free values). -/
def State.bRead (s : State) (off size : Nat) : State :=
  if !windowBOk off size then s
  else
    let words (v : BitVec 64) : List Word := if size = 8 then [loWord v, hiWord v] else [loWord v]
    if s.resPoisoned off size then
      { ((s.send (.poisoned off)).setResvUe).useFree with hostData := words s.freeValue }
    else { s with hostData := words (BitVec.ofNat 64 (s.resRead off size)) }

def execWindowBRead (off size : Nat) (s : State) : Host.Outcome State Fault Refusal :=
  .next (s.hostRequest (.bRead off size) fun s => s.bRead off size)

/-- A Window B write keeps its place behind the writes of its requester that wait (R264). -/
def State.bArrive (s : State) (off size : Nat) (v : BitVec 64) : State :=
  if s.hostBlocked false then { s with later := s.later ++ [.windowB off size v] } else s.bWrite off size v

def execWindowBWrite (off size : Nat) (v : BitVec 64) (s : State) : Host.Outcome State Fault Refusal :=
  .next (s.hostRequest (.bWrite off size v) fun s => s.bArrive off size v)

/-- A host request that NAP held. -/
def State.serveHeld (s : State) (q : HostReq) : State :=
  match q with
  | .pcie w a dws => s.pcieServe w a dws
  | .bRead off size => s.bRead off size
  | .bWrite off size v => s.bArrive off size v

/-- After NAP, MCLK and BCLK start in the first tick whose MT is even, and the host requests that were held are served (R349, R357). -/
def State.bclkStart (s : State) : State :=
  if s.power.bclk || s.mt.getLsbD 0 then s
  else s.power.heldHost.foldl State.serveHeld { s with start := some s.snap, power := { s.power with bclk := true, heldHost := [] } }

/-- PCIE_HOT_RESET: the configuration space and the link, and nothing else (R300). A message that has not been sent stays requested. -/
def State.hotReset (s : State) : State :=
  { s with power := { s.power with msixEnable := false, fnMask := false, cfg := PciConfig.init } }

def execPcieHotReset (s : State) : Host.Outcome State Fault Refusal := .next s.hotReset

/-! ### QSPI (R303, R304) -/

/-- Bits of the status byte: 0 DONE, 1 ADDR_ERR, 2 PARTIAL, 3 LOCKED. -/
def State.setQspi (s : State) (ended addrErr part locked : Bool) : State :=
  let v := ended.toNat + 2 * addrErr.toNat + 4 * part.toNat + 8 * locked.toNat
  { s with hg := { s.hg with qspi := BitVec.ofNat 5 v } }

/-- Words of Window A from address `a` on; none at a misaligned address. -/
def qspiRoom (a : Nat) : Nat := if a % 4 = 0 then (2 ^ 26 - a) / 4 else 0

/-- An address error ends the frame; the byte enables that the log gives are open (a free value). -/
def State.qspiFault (s : State) (a : Word) (write : Bool) : State :=
  if s.power.phase == .run then (s.accessFault a write true (s.freeValue.truncate 4)).useFree else s

/-- A frame runs: TCLK runs, and no NAP discards it. -/
def State.qspiRuns (s : State) : Bool := s.tclk

/-- A read frame of `n` whole words: each word is read as soon as the one before it has gone out, so word `n` is read too, and consumed
with none or some of its bits sent. -/
def State.qspiReadFrame (s : State) (a n : Nat) (part : Bool) : State :=
  let room := qspiRoom a
  let want := n + part.toNat
  let s := (List.range (min (n + 1) room)).foldl (fun s i => s.readA (a + 4 * i)) { s with hostData := [] }
  let s := { s with hostData := s.hostData.take n }
  let bad := decide (room < want) || room == 0
  let s := if bad then s.qspiFault (BitVec.ofNat 32 (a + 4 * room)) false else s
  s.setQspi (!bad && !part) bad (part && !bad) false

/-- An undefined opcode: no access. The address and direction that the log gives are open (free values). -/
def State.qspiUndefined (s : State) : State :=
  (s.useFree.qspiFault (s.freeValue.truncate 32) (s.freeValue.getLsbD 32)).setQspi false true false false

/-- QSPI_READ; with an opcode of another row it is not this row, and with an undefined one the frame has no access. -/
def State.qspiRead (s : State) (op : BitVec 8) (a n : Nat) (part : Bool) : State :=
  if !s.qspiRuns then s
  else if op = 0x0B#8 then s.qspiReadFrame a n part
  else if op = 0xEB#8 ∨ op = 0x02#8 ∨ op = 0x38#8 ∨ op = 0x05#8 ∨ op = 0x9F#8 then s
  else s.qspiUndefined

def execQspiRead (op : BitVec 8) (addr n : Nat) (partialWord : Bool) (s : State) : Host.Outcome State Fault Refusal :=
  .next (s.qspiRead op addr n partialWord)

def State.qspiQread (s : State) (a n : Nat) (part : Bool) : State := if s.qspiRuns then s.qspiReadFrame a n part else s

def execQspiQread (addr n : Nat) (partialWord : Bool) (s : State) : Host.Outcome State Fault Refusal :=
  .next (s.qspiQread addr n partialWord)

/-- A write frame: each whole word commits as one Window A write, and LOCKED reports one that SEAL refused. -/
def State.qspiWriteFrame (s : State) (a : Nat) (ws : List Word) (part : Bool) : State :=
  let room := qspiRoom a
  let want := ws.length + part.toNat
  let r := ((ws.take room).zipIdx).foldl (fun (r : Bool × State) e =>
    (r.1 || r.2.sealLocks (a + 4 * e.2) e.1, r.2.writeA true (a + 4 * e.2) e.1)) (false, s)
  let bad := decide (room < want) || room == 0
  let s := if bad then r.2.qspiFault (BitVec.ofNat 32 (a + 4 * room)) true else r.2
  s.setQspi (!bad && !part && !r.1) bad (part && !bad) r.1

def State.qspiWrite (s : State) (a : Nat) (ws : List Word) (part : Bool) : State :=
  if s.qspiRuns then s.qspiWriteFrame a ws part else s

def execQspiWrite (addr : Nat) (words : List Word) (partialWord : Bool) (s : State) : Host.Outcome State Fault Refusal :=
  .next (s.qspiWrite addr words partialWord)

def execQspiQwrite (addr : Nat) (words : List Word) (partialWord : Bool) (s : State) : Host.Outcome State Fault Refusal :=
  .next (s.qspiWrite addr words partialWord)

/-- The status byte: what the last frame other than STATUS left, and IRQ. -/
def State.qspiStatusByte (s : State) : Word :=
  putBit (s.hg.qspi.zeroExtend 32) 4 ((List.range 4).any (fun p => s.pinAsserted p))

def execQspiStatus (s : State) : Host.Outcome State Fault Refusal :=
  .next (s.onTclk { s with hostData := [s.qspiStatusByte] })

/-- QSPI_ID. -/
def State.qspiId (s : State) : State := ({ s with hostData := [] }.readA ID_PART).setQspi true false false false

def execQspiId (s : State) : Host.Outcome State Fault Refusal := .next (s.onTclk s.qspiId)

end Sys2Proof.Machine
end

