-- ==== Sys2Proof/Machine/Flags.lean ====
section
/-!
DEFINITION. The arithmetic, the flags and the conditions of KCI: spec/11_kci_instruction_set.md R223, R230, R231, R234.
-/

namespace Sys2Proof.Machine

/-- The arithmetic flags of TH_FLAGS (R223). -/
structure Flags where
  z : Bool
  n : Bool
  c : Bool
  v : Bool
deriving DecidableEq, Repr

/-- Flags in bits 3..0 of TH_FLAGS, and ST in bits 7..4. -/
def flagsOf (w : Word) : Flags := { z := bitOf w 0, n := bitOf w 1, c := bitOf w 2, v := bitOf w 3 }
def withFlags (w : Word) (f : Flags) : Word := putBit (putBit (putBit (putBit w 0 f.z) 1 f.n) 2 f.c) 3 f.v

/-- The ALU functions, in the order of FN (R230). -/
inductive Alu where
  | add | sub | addc | subb | and | or | xor | andn | shl | shr | sar | ror | mul | mulh | mulhu | min | max | minu | maxu
  | cmp | tst | mov | div | divu | rem | remu | clz
deriving DecidableEq, Repr

/-- Z and N of a result; C and V stay. -/
def Flags.ofResult (f : Flags) (r : Word) : Flags := { f with z := r == 0, n := r.msb }

/-- A + B + carry, with all flags. -/
def addFlags (f : Flags) (a b : Word) (carry : Bool) : Word × Flags :=
  let r := a + b + BitVec.ofNat 32 carry.toNat
  (r, { f.ofResult r with c := decide (2 ^ 32 ≤ a.toNat + b.toNat + carry.toNat), v := a.msb == b.msb && r.msb != a.msb })

/-- A − B − borrow, with all flags. -/
def subFlags (f : Flags) (a b : Word) (borrow : Bool) : Word × Flags :=
  let r := a - b - BitVec.ofNat 32 borrow.toNat
  (r, { f.ofResult r with c := decide (a.toNat < b.toNat + borrow.toNat), v := a.msb != b.msb && r.msb != a.msb })

/-- A result with Z and N. -/
def logicFlags (f : Flags) (r : Word) : Word × Flags := (r, f.ofResult r)

/-- A shift by `n` with result `r` and last bit shifted out `c`: a shift by 0 leaves C. -/
def shiftFlags (f : Flags) (n : Nat) (a r : Word) (c : Bool) : Word × Flags :=
  if n = 0 then logicFlags f a else (r, { f.ofResult r with c := c })

/-- A division result, with its V (R231). -/
def divFlags (f : Flags) (r : Word) (v : Bool) : Word × Flags := (r, { f.ofResult r with v := v })

/-- The exceptional quotient −2^31 / −1. -/
def divOverflows (a b : Word) : Bool := a == 0x80000000#32 && b == 0xFFFFFFFF#32

/-- Leading zeros. -/
def leadingZeros (a : Word) : Nat := ((List.range 32).find? (fun i => a.getLsbD (31 - i))).getD 32

/-- Result and flags of an ALU function on A and B (R230, R231). -/
def Alu.run (o : Alu) (f : Flags) (a b : Word) : Word × Flags :=
  let n := b.toNat % 32
  match o with
  | .add => addFlags f a b false
  | .sub => subFlags f a b false
  | .addc => addFlags f a b f.c
  | .subb => subFlags f a b f.c
  | .and => logicFlags f (a &&& b)
  | .or => logicFlags f (a ||| b)
  | .xor => logicFlags f (a ^^^ b)
  | .andn => logicFlags f (a &&& ~~~ b)
  | .shl => shiftFlags f n a (a <<< n) (a.getLsbD (32 - n))
  | .shr => shiftFlags f n a (a >>> n) (a.getLsbD (n - 1))
  | .sar => shiftFlags f n a (a.sshiftRight n) (a.getLsbD (n - 1))
  | .ror => shiftFlags f n a (a.rotateRight n) (a.getLsbD (n - 1))
  | .mul =>
    let r := a * b
    (r, { f.ofResult r with v := r.toInt != a.toInt * b.toInt })
  | .mulh => logicFlags f (BitVec.ofInt 32 (a.toInt * b.toInt / 2 ^ 32))
  | .mulhu => logicFlags f (BitVec.ofNat 32 (a.toNat * b.toNat / 2 ^ 32))
  | .min => logicFlags f (if a.toInt ≤ b.toInt then a else b)
  | .max => logicFlags f (if a.toInt ≤ b.toInt then b else a)
  | .minu => logicFlags f (if a.toNat ≤ b.toNat then a else b)
  | .maxu => logicFlags f (if a.toNat ≤ b.toNat then b else a)
  | .cmp => subFlags f a b false
  | .tst => logicFlags f (a &&& b)
  | .mov => logicFlags f b
  | .div =>
    if b = 0 then divFlags f 0xFFFFFFFF#32 true
    else if divOverflows a b then divFlags f 0x80000000#32 true
    else divFlags f (BitVec.ofInt 32 (a.toInt.tdiv b.toInt)) false
  | .divu => if b = 0 then divFlags f 0xFFFFFFFF#32 true else divFlags f (BitVec.ofNat 32 (a.toNat / b.toNat)) false
  | .rem =>
    if b = 0 then divFlags f a true
    else if divOverflows a b then divFlags f 0 true
    else divFlags f (BitVec.ofInt 32 (a.toInt.tmod b.toInt)) false
  | .remu => if b = 0 then divFlags f a true else divFlags f (BitVec.ofNat 32 (a.toNat % b.toNat)) false
  | .clz => logicFlags f (BitVec.ofNat 32 (leadingZeros a))

/-- CMP and TST write no register. -/
def Alu.writes : Alu → Bool
  | .cmp => false
  | .tst => false
  | _ => true

/-- Microcycles of an ALU function. -/
def Alu.cycles : Alu → Nat
  | .mul => 4
  | .mulh => 6
  | .mulhu => 6
  | .div => 38
  | .divu => 38
  | .rem => 38
  | .remu => 38
  | .clz => 4
  | _ => 3

/-- COND of a BR holds on TH_FLAGS (R234). -/
def condHolds (cond : Nat) (w : Word) : Bool :=
  let f := flagsOf w
  match cond with
  | 0x0 => true
  | 0x1 => f.z
  | 0x2 => !f.z
  | 0x3 => f.n != f.v
  | 0x4 => f.n == f.v
  | 0x5 => !f.z && f.n == f.v
  | 0x6 => f.z || f.n != f.v
  | 0x7 => f.c
  | 0x8 => !f.c
  | 0x9 => !f.c && !f.z
  | 0xA => f.c || f.z
  | 0xB => f.n
  | 0xC => !f.n
  | 0xD => f.v
  | 0xE => bitsOf w 7 4 == 0
  | _ => bitsOf w 7 4 != 0

end Sys2Proof.Machine
end

