-- ==== Sys2Proof/Machine/Operands.lean ====
section
/-!
DEFINITION. The instruction word of KCI: its fields, which instruction it is, and the decode checks of R229
(spec/11_kci_instruction_set.md).
-/

namespace Sys2Proof.Machine

/-! ### Fields -/

def kOpc (w : Word) : Nat := bitsOf w 31 26
def kX (w : Word) : Bool := bitOf w 25
def kD (w : Word) : Nat := bitsOf w 24 21
def kA (w : Word) : Nat := bitsOf w 20 17
def kB (w : Word) : Nat := bitsOf w 16 13
/-- FN of format R, and of format I. -/
def kFnR (w : Word) : Nat := bitsOf w 12 8
def kFnI (w : Word) : Nat := bitsOf w 16 12
def kImm (w : Word) : Nat := bitsOf w 11 0
def kSz (w : Word) : Nat := bitsOf w 16 14
def kCond (w : Word) : Nat := bitsOf w 24 21
/-- OFF16 in bytes: signed words (R235). -/
def kOff (w : Word) : Int := 4 * signed 16 (bitsOf w 15 0)
def kCh (w : Word) : Nat := bitsOf w 16 13
def kBnd (w : Word) : Bool := bitOf w 12
def kWoff (w : Word) : Nat := bitsOf w 11 5
def kSub (w : Word) : Nat := bitsOf w 4 0

/-! ### Which instruction a word is -/

/-- The instructions of KCI. -/
inductive Kci where
  | alu (o : Alu)
  | ld | st | ldr | str | rxadd | br | jal | jr | chrd | chwr | chrd64 | chstat | mtrd | stld | stst | stadd | stsub | staddi | stcmp
  | shrd | accrd | mmrd | sysrd | waitt | waita | post | cancel | push | pop | yield | halt | swapArm | swapDisarm | swapQuery
deriving DecidableEq, Repr

/-- The ALU functions by FN. -/
def aluTable : List Alu :=
  [.add, .sub, .addc, .subb, .and, .or, .xor, .andn, .shl, .shr, .sar, .ror, .mul, .mulh, .mulhu, .min, .max, .minu, .maxu,
   .cmp, .tst, .mov, .div, .divu, .rem, .remu, .clz]

/-- An instruction when its condition on FN, SZ or SUB holds. -/
def kciIf (b : Bool) (o : Kci) : Option Kci := if b then some o else none

/-- The instruction of a word: OPC, and the FN, SZ or SUB that it defines (R229, check 1). -/
def kciOf (w : Word) : Option Kci :=
  let fn := kFnI w
  let sz := kSz w
  match kOpc w with
  | 0x01 => (aluTable[kFnR w]?).map Kci.alu
  | 0x02 => (aluTable[fn]?).map Kci.alu
  | 0x03 => kciIf (decide (sz ≤ 5)) .ld
  | 0x04 => kciIf (decide (sz ≤ 3)) .st
  | 0x05 => kciIf (decide (sz ≤ 5)) .ldr
  | 0x06 => kciIf (decide (sz ≤ 3)) .str
  | 0x07 => kciIf (sz == 2) .rxadd
  | 0x08 => some .br
  | 0x09 => some .jal
  | 0x0A => kciIf (kFnR w == 0) .jr
  | 0x0C => kciIf (kSub w == 0) .chrd
  | 0x0D => kciIf (kSub w == 0) .chwr
  | 0x0E => kciIf (decide (kSub w ≤ 1)) .chrd64
  | 0x0F => kciIf (kSub w == 0) .chstat
  | 0x10 => kciIf (decide (fn ≤ 1)) .mtrd
  | 0x11 =>
    match fn with
    | 0x00 => some .stld
    | 0x01 => some .stst
    | 0x02 => some .stadd
    | 0x03 => some .stsub
    | 0x04 => some .staddi
    | 0x05 => some .stcmp
    | _ => none
  | 0x12 => kciIf (decide (fn ≤ 6)) .shrd
  | 0x13 => if 8 ≤ fn then none else if fn.testBit 1 then some .mmrd else some .accrd
  | 0x14 => kciIf (fn == 0) .waitt
  | 0x15 => kciIf (decide (fn ≤ 1)) .waita
  | 0x16 => kciIf (decide (fn ≤ 3)) .post
  | 0x17 => kciIf (fn == 0) .cancel
  | 0x18 => kciIf (fn == 0 || fn == 1 || fn == 4 || fn == 5) .push
  | 0x19 => kciIf (fn == 0 || fn == 1 || fn == 4 || fn == 5) .pop
  | 0x1A => kciIf (decide (fn ≤ 1)) .sysrd
  | 0x1C => kciIf (fn == 0) .yield
  | 0x1D => kciIf (fn == 0) .halt
  | 0x1E =>
    match fn % 4 with
    | 0 => some .swapArm
    | 1 => some .swapDisarm
    | 2 => some .swapQuery
    | _ => none
  | _ => none

/-- The instruction takes an extension word (the X column). -/
def Kci.takesExt (o : Kci) (w : Word) : Bool :=
  match o with
  | .alu _ => kOpc w == 0x02
  | .ld => true
  | .st => true
  | .ldr => true
  | .str => true
  | .rxadd => true
  | .staddi => true
  | _ => false

/-- A register index starts a pair, or a quad (R222). -/
def isPair (i : Nat) : Bool := i % 2 == 0
def isQuad (i : Nat) : Bool := i % 4 == 0

/-- Fields that must be 0, and index limits, of ALU words. -/
def aluFieldsOk (o : Alu) (w : Word) : Bool :=
  (kOpc w != 0x01 || bitsOf w 7 0 == 0) &&
  (match o with
   | .cmp => kD w == 0
   | .tst => kD w == 0
   | .mov => kA w == 0
   | .clz => if kOpc w = 0x01 then kB w == 0 else kImm w == 0
   | _ => true)

/-- Format M: bits 13..12 are 0, and a 64-bit access names a pair. -/
def memFieldsOk (w : Word) : Bool := bitsOf w 13 12 == 0 && (kSz w != 3 || isPair (kD w))

/-- Fields that must be 0, and index limits, of each instruction (R229, checks 3 and 4). -/
def Kci.fieldsOk (o : Kci) (w : Word) : Bool :=
  let d := kD w; let a := kA w; let imm := kImm w; let fn := kFnI w
  let ch := !kBnd w || kCh w == 0
  let ri := fn.testBit 2
  match o with
  | .alu f => aluFieldsOk f w
  | .ld => memFieldsOk w
  | .st => memFieldsOk w
  | .ldr => memFieldsOk w
  | .str => memFieldsOk w
  | .rxadd => memFieldsOk w
  | .br => bitsOf w 20 16 == 0
  | .jal => bitsOf w 20 16 == 0
  | .jr => kB w == 0 && bitsOf w 7 0 == 0
  | .chrd => a == 0 && ch
  | .chwr => d == 0 && ch
  | .chrd64 => a == 0 && isPair d && ch && (kSub w == 1 || kWoff w % 2 == 0)
  | .chstat => ch
  | .mtrd => a == 0 && imm == 0 && isPair d
  | .stld => d == 0 && isPair a
  | .stst => a == 0 && isPair d
  | .stadd => d == 0 && isPair a
  | .stsub => d == 0 && isPair a
  | .staddi => d == 0 && a == 0
  | .stcmp => d == 0 && a == 0
  | .shrd => a == 0 && (if fn = 6 then isQuad d else if fn = 3 ∨ fn = 5 then true else isPair d)
  | .accrd => isPair d && (if ri then imm == 0 else a == 0)
  | .mmrd => if ri then imm == 0 else a == 0
  | .sysrd => a == 0 && (if fn = 1 then imm == 0 else decide (imm < 64))
  | .waitt => d == 0 && a == 0 && imm == 0
  | .waita => d == 0 && isPair a
  | .post => d == 0 && imm == 0 && decide (a ≤ 10)
  | .cancel => d == 0
  | .push => isQuad a && (ri || d == 0)
  | .pop => isQuad d && (ri || a == 0)
  | .yield => d == 0 && a == 0 && imm == 0
  | .halt => d == 0 && a == 0 && imm == 0
  | .swapArm => d == 0 && (if fn.testBit 2 then isPair a else a == 0)
  | .swapDisarm => d == 0 && a == 0
  | .swapQuery => a == 0

/-- The level of an instruction (the Level column). -/
def Kci.level (o : Kci) (w : Word) : Nat :=
  match o with
  | .rxadd => 2
  | .waita => if (kFnI w).testBit 0 then 2 else 1
  | .post => if (kFnI w).testBit 1 then 2 else 1
  | .swapArm => 2
  | .swapDisarm => 2
  | .swapQuery => 2
  | _ => 1

/-- The fault of a decoded word: ILLEGAL_OP, then LEVEL (R229, checks 2 to 5). -/
def Kci.decodeFault (o : Kci) (w : Word) (declared : Nat) : Option Nat :=
  if kX w && (!o.takesExt w || kImm w != 0) then some 1
  else if !o.fieldsOk w then some 1
  else if declared < o.level w then some 2
  else none

/-- Bytes of an instruction with its extension word. -/
def kciBytes (w : Word) : Nat := if kX w then 8 else 4

/-- Microcycles from the fetch of the first word to the end of the instruction, a taken branch aside (R225, R230, the opcode map). -/
def Kci.cycles (o : Kci) (w : Word) : Nat :=
  (if kX w then 1 else 0) +
  match o with
  | .alu f => f.cycles
  | .ld => if kSz w = 3 then 5 else 4
  | .st => if kSz w = 3 then 5 else 4
  | .ldr => 4
  | .str => 4
  | .rxadd => 4
  | .br => 2
  | .jal => 3
  | .jr => 3
  | .chrd => 5
  | .chwr => 5
  | .chrd64 => 6
  | .chstat => 6
  | .mtrd => 3
  | .stld => 3
  | .stst => 3
  | .stadd => 4
  | .stsub => 4
  | .staddi => 3
  | .stcmp => 3
  | .shrd => if kFnI w = 6 then 7 else 5
  | .accrd => 5
  | .mmrd => 5
  | .sysrd => 3
  | .waitt => 4
  | .waita => 12
  | .post => 10
  | .cancel => 5
  | .push => 8
  | .pop => 8
  | .yield => 2
  | .halt => 2
  | .swapArm => 16
  | .swapDisarm => 6
  | .swapQuery => 4

end Sys2Proof.Machine
end

