-- ==== Sys2Proof/Machine/Kci.lean ====
section
/-!
DEFINITION. The KCI instructions (spec/11_kci_instruction_set.md). A command names a cluster: the running thread's next instruction
executes in its commit tick, the first tick of its last microcycle (R225). That microcycle is also the POLL of the instruction boundary
(R208), which is the POLL command.
-/

namespace Sys2Proof.Machine

open Reg

/-! ### Operands of the thread -/

/-- The first word of the instruction at the thread's PC, and its extension word. -/
def State.kWord (s : State) (n t : Nat) : Word := s.ramWord n (s.thPc n t)
def State.kExt (s : State) (n t : Nat) : Word := s.ramWord n (s.thPc n t + 4)

/-- A register pair. -/
def State.gPair (s : State) (n t i : Nat) : BitVec 64 := ofWords (s.g n t (i + 1)) (s.g n t i)
def State.setGPair (s : State) (n t i : Nat) (v : BitVec 64) : State := (s.setG n t i (loWord v)).setG n t (i + 1) (hiWord v)

/-- IMM12 sign-extended, or the extension word. -/
def State.kImmediate (s : State) (n t : Nat) (w : Word) : Word :=
  if kX w then s.kExt n t else bvInt 32 (signed 12 (kImm w))

/-- The address of a load or store: Ga + offset (R232). -/
def State.kAddr (s : State) (n t : Nat) (w : Word) : Word := s.g n t (kA w) + s.kImmediate n t w

/-- TH_FLAGS. -/
def State.thFlags (s : State) (n t : Nat) : Word := s.reg (TH_FLAGS n t)
def State.setThFlags (s : State) (n t : Nat) (f : Flags) : State := s.setRw (TH_FLAGS n t) (withFlags (s.thFlags n t) f)

/-- The channel of a channel operation: the bound channel with BND, else CH, of the thread's own cluster. -/
def State.kChannel (s : State) (n t : Nat) (w : Word) : Nat := n * 16 + (if kBnd w then s.fld (TH_BIND n t) 3 0 else kCh w)

/-- The shaft of SHRD, WAITA and SWAP: the bound shaft with bit 4 of IMM12, else bits 3..0 (R241). -/
def State.kShaft (s : State) (n t : Nat) (w : Word) : Nat := if bitOf w 4 then s.fld (TH_BIND n t) 11 8 else bitsOf w 3 0

/-- An index: IMM12 bits 5..0, or with RI those of register `r` (R242, R248). -/
def State.kIndex (s : State) (n t : Nat) (w : Word) (r : Nat) : Nat :=
  if (kFnI w).testBit 2 then bitsOf (s.g n t r) 5 0 else bitsOf w 5 0

/-! ### How an instruction ends -/

/-- The end of an instruction: the next one, a jump, one microcycle later (R246), a wait by WAIT_KIND, a fault, YIELD or HALT. -/
inductive KEnd where
  | next
  | jump (pc : Nat)
  | late
  | wait (kind : Nat) (w : Wait)
  | fault (code : Nat) (info : Word)
  | yield
  | halt
deriving DecidableEq, Repr

/-- The instruction ends in the present microcycle, whose POLL follows. -/
def State.kDone (s : State) (n t cycles : Nat) : State :=
  let s := s.runCycles n t (cycles - 1)
  s.setEngine n { s.engine n with freeAt := s.mt, pollDue := true }

/-- A READY thread of equal or higher priority waits for the engine (R205). -/
def State.yieldsTo (s : State) (n t : Nat) : Bool :=
  [0, 1, 2, 3].any (fun p => decide (s.thPrio n t ≤ p) && !(s.readyAt n p).isEmpty)

/-- What the end of an instruction does to the thread and the engine; `len` is its length in bytes. Its last microcycle is a POLL, also where
the thread gives up the engine in it: a HALT that waits for a POLL takes effect at the entry into a wait, as it would in the wait (R208,
R212, notes/assumptions/17.md). -/
def State.kEnd (s : State) (n t len cycles : Nat) (e : KEnd) : State :=
  let pc := s.thPc n t
  match e with
  | .next => (s.setThPc n t (pc + len)).kDone n t cycles
  | .jump a => (s.setThPc n t a).kDone n t cycles
  | .late =>
    let s := (s.setThPc n t (pc + len)).runCycles n t cycles
    s.setEngine n { s.engine n with freeAt := s.mt + 2, pollDue := true }
  | .wait kind w =>
    let s := (s.runCycles n t cycles).notePoll n
    if (s.thread n t).haltReq && kind != 4 then
      (s.setThread n t { s.thread n t with haltReq := false }).leaveEngine n t thHalted 0
    else (s.setThread n t { s.thread n t with wait := w, metAt := none }).leaveEngine n t thWaiting kind
  | .fault code info => s.faultThread n t code info
  | .yield =>
    let s := s.setThPc n t (pc + len)
    if s.yieldsTo n t && !(s.thread n t).haltReq then
      ((s.runCycles n t cycles).notePoll n).leaveEngine n t thReady 0
    else s.kDone n t cycles
  | .halt =>
    let s := ((s.setThPc n t (pc + len)).runCycles n t cycles).notePoll n
    (s.setThread n t { s.thread n t with haltReq := false }).leaveEngine n t thHalted 0

/-! ### Arithmetic, loads and stores, branches (R230 to R235) -/

def State.kAlu (s : State) (n t : Nat) (w : Word) (o : Alu) : State × KEnd :=
  let a := s.g n t (kA w)
  let b := if kOpc w = 0x01 then s.g n t (kB w) else s.kImmediate n t w
  let r := o.run (flagsOf (s.thFlags n t)) a b
  let s := s.setThFlags n t r.2
  (if o.writes then s.setG n t (kD w) r.1 else s, .next)

/-- Bytes of an access by SZ. -/
def szBytes (w : Word) : Nat := 2 ^ (kSz w % 4)

/-- LD: from local RAM, by SZ (R232). -/
def State.kLoad (s : State) (n t : Nat) (w : Word) : State × KEnd :=
  let a := s.kAddr n t w
  if a.toNat % szBytes w ≠ 0 then (s, .fault 3 a)
  else (s.loadTo n t (kSz w) (kD w) (s.ramRead n a.toNat (szBytes w)), .next)

/-- ST: to local RAM. -/
def State.kStore (s : State) (n t : Nat) (w : Word) : State × KEnd :=
  let a := s.kAddr n t w
  if a.toNat % szBytes w ≠ 0 then (s, .fault 3 a)
  else (s.ramWrite n a.toNat (s.storeData n t (kSz w) (kD w)) (szBytes w), .next)

/-- LDR, STR, RXADD (kinds 5, 6, 7): the access is issued and the thread waits for it (R233). -/
def State.kAccess (s : State) (n t : Nat) (w : Word) (kind : Nat) : State × KEnd :=
  let a := s.kAddr n t w
  if a.toNat % szBytes w ≠ 0 then (s, .fault 3 a)
  else if 2 ^ 24 ≤ a.toNat then (s, .fault 4 a)
  else (s, .wait 4 (.access kind (kSz w) a.toNat (kD w) s.mt (s.thPc n t + kciBytes w)))

/-- PC + 4 × OFF16, modulo 65 536. -/
def State.kTarget (s : State) (n t : Nat) (w : Word) : Nat := (((s.thPc n t : Int) + kOff w) % 65536).toNat

def State.kTaken (s : State) (n t : Nat) (w : Word) : Bool := condHolds (kCond w) (s.thFlags n t)

def State.kBranch (s : State) (n t : Nat) (w : Word) : State × KEnd :=
  (s, if s.kTaken n t w then .jump (s.kTarget n t w) else .next)

/-- The address of the next instruction. -/
def State.kLink (s : State) (n t : Nat) : Word := BitVec.ofNat 32 ((s.thPc n t + 4) % 65536)

def State.kJal (s : State) (n t : Nat) (w : Word) : State × KEnd := (s.setG n t (kD w) (s.kLink n t), .jump (s.kTarget n t w))

def State.kJr (s : State) (n t : Nat) (w : Word) : State × KEnd :=
  let a := s.g n t (kA w)
  if bitsOf a 1 0 ≠ 0 then (s, .fault 3 a) else (s.setG n t (kD w) (s.kLink n t), .jump (a.toNat % 65536))

/-! ### Channel operations (R236 to R238) -/

/-- The Window A address of a register of channel `k`, and whether it is assigned. -/
def chanAddr (k off : Nat) : Nat := CH_CTRL k + off
def chanAssigned (k off : Nat) : Bool := (regRow (chanAddr k off)).isSome

/-- A KCI read of a channel register: live, as it stood before this tick's updates, the write-only bits 0, an RC field cleared (R7, R236). -/
def State.chanRead (s : State) (k off : Nat) : Word × State :=
  let a := chanAddr k off
  (s.beforeTick a (s.chanLive k off) &&& ~~~ woMask a, s.kciAccess fun s => s.rcClear a)

def State.kChrd (s : State) (n t : Nat) (w : Word) : State × KEnd :=
  let k := s.kChannel n t w
  let off := 4 * kWoff w
  if chanAssigned k off then
    let r := s.chanRead k off
    (r.2.setG n t (kD w) r.1, .next)
  else ((s.setG n t (kD w) 0).setSt n t 0xB, .next)

def State.kChwr (s : State) (n t : Nat) (w : Word) : State × KEnd :=
  let k := s.kChannel n t w
  let off := 4 * kWoff w
  let a := chanAddr k off
  let v := s.g n t (kA w)
  if !chanAssigned k off then (s.setSt n t 0xB, .next)
  else if s.wroteNow a then ({ s with later := s.later ++ [.thread n t a v] }, .next)
  else (s.threadWrite n t a v, .next)

/-- CHRD64. A register at an unassigned offset reads 0 and leaves INDEX_RANGE, as for CHRD. -/
def State.kChrd64 (s : State) (n t : Nat) (w : Word) : State × KEnd :=
  let k := s.kChannel n t w
  let d := kD w
  if kSub w = 1 then
    if k % 2 = 1 then (s.setSt n t 0xB, .next)
    else (((s.setG n t d (s.reg (COUNT k))).setG n t (d + 1) (s.reg (COUNT (k + 1)))).setSt n t 0x0, .next)
  else
    let off := 4 * kWoff w
    let get (s : State) (off : Nat) : Word × State := if chanAssigned k off then s.chanRead k off else (0, s)
    let r0 := get s off
    let r1 := get r0.2 (off + 4)
    let ok := chanAssigned k off && chanAssigned k (off + 4)
    (((r1.2.setG n t d r0.1).setG n t (d + 1) r1.1).setSt n t (if ok then 0x0 else 0xB), .next)

def State.kChstat (s : State) (n t : Nat) (w : Word) : State × KEnd :=
  let k := s.kChannel n t w
  let off := 4 * kWoff w
  let a := chanAddr k off
  if chanAssigned k off then
    let m := s.g n t (kA w)
    let r := s.chanRead k off
    let s := r.2.setG n t (kD w) r.1
    let v := r.1 &&& m
    (if s.wroteNow a then { s with later := s.later ++ [.flags a v] } else s.kciAccess fun s => (s.noteWrote a).flagWrite a v, .next)
  else ((s.setG n t (kD w) 0).setSt n t 0xB, .next)

/-! ### Time, stamps, shafts, accumulators, identification (R239 to R243) -/

def State.kMtrd (s : State) (n t : Nat) (w : Word) : State × KEnd :=
  let s := s.setGPair n t (kD w) s.mt
  (if (kFnI w).testBit 0 then s.setThStamp n t s.now else s, .next)

/-- STADD and STSUB: the stamp pair ± the duration in Ga:Ga+1 (R31, R32). -/
def State.kStampAdd (s : State) (n t : Nat) (w : Word) (sub : Bool) : State × KEnd :=
  let d := s.gPair n t (kA w)
  if 2 ^ 40 ≤ d.toNat then (s.setSt n t 0x3, .next)
  else ((s.setThStamp n t (if sub then s.thStamp n t - d else s.thStamp n t + d)).setSt n t 0x0, .next)

def State.kStld (s : State) (n t : Nat) (w : Word) : State × KEnd := (s.setThStamp n t (s.gPair n t (kA w)), .next)
def State.kStst (s : State) (n t : Nat) (w : Word) : State × KEnd := (s.setGPair n t (kD w) (s.thStamp n t), .next)

def State.kStaddi (s : State) (n t : Nat) (w : Word) : State × KEnd :=
  let f : BitVec 64 := if kX w then (s.kExt n t).zeroExtend 64 else BitVec.ofNat 64 (kImm w)
  (s.setThStamp n t (s.thStamp n t + f), .next)

def State.kStcmp (s : State) (n t : Nat) : State × KEnd :=
  let d := ahead (s.thStamp n t) s.now
  (s.setThFlags n t { z := d == 0, n := decide (d < 0), c := false, v := false }, .next)

/-- SHRD: what FN selects (R241). -/
def State.shaftWords (s : State) (n t h d fn : Nat) : State :=
  let m := s.shMotion h
  match fn with
  | 0 => s.setGPair n t d (s.shPos h)
  | 1 => (s.setGPair n t d (bvInt 64 m.1)).noteSat h m.2.2
  | 2 => (s.setGPair n t d (bvInt 64 m.2.1)).noteSat h m.2.2
  | 3 => s.setG n t d (s.snapInfo h)
  | 4 => s.setGPair n t d (s.pair (LAST_TOOTH_LO h) (LAST_TOOTH_HI h))
  | 5 => s.setG n t d (s.reg (PRED_PERIOD h))
  | _ => ((s.setGPair n t d (s.shPos h)).setGPair n t (d + 2) (bvInt 64 m.1)).noteSat h m.2.2

def State.kShrd (s : State) (n t : Nat) (w : Word) : State × KEnd :=
  let h := s.kShaft n t w
  if s.fld ID_CLUSTER 31 24 ≤ h then (s.setSt n t 0x4, .next)
  else
    let s := (s.shaftWords n t h (kD w) (kFnI w)).setSt n t 0x0
    (if bitOf w 5 then s.setThStamp n t s.now else s, .next)

def State.kAccrd (s : State) (n t : Nat) (w : Word) : State × KEnd :=
  let k := s.kIndex n t w (kA w)
  if s.fld ID_ANALOG 15 8 ≤ k then (s.setSt n t 0xB, .next)
  else
    let own := fun t => t == s.mt
    let v := s.accSeen k own
    let s := ((s.setG n t (kD w) (v.1.truncate 32)).setG n t (kD w + 1) (accHigh v)).setSt n t 0x0
    (if (kFnI w).testBit 0 then s.accClear k own else s, .next)

def State.kMmrd (s : State) (n t : Nat) (w : Word) : State × KEnd :=
  let k := s.kIndex n t w (kA w)
  if s.fld ID_ANALOG 7 0 ≤ k then (s.setSt n t 0xB, .next)
  else
    let own := fun t => t == s.mt
    let s := (s.setG n t (kD w) (s.mmSeen k own)).setSt n t 0x0
    (if (kFnI w).testBit 0 then (s.mmReset k own).2 else s, .next)

def State.kSysrd (s : State) (n t : Nat) (w : Word) : State × KEnd :=
  (s.setG n t (kD w) (if kFnI w = 1 then BitVec.ofNat 32 (n * 256 + t) else s.beforeTick (4 * kImm w) (s.busView (4 * kImm w))), .next)

/-! ### Waits (R244, R245) -/

def State.kWaitt (s : State) (n t : Nat) : State × KEnd :=
  let target := s.thStamp n t
  if 0 ≤ ahead s.now target then (s.setSt n t 0xD, .next) else (s, .wait 1 (.time target))

def State.kWaita (s : State) (n t : Nat) (w : Word) : State × KEnd :=
  let h := s.kShaft n t w
  let frac := s.g n t (kA w)
  let qual := s.g n t (kA w + 1)
  let st := s.angleCheck h qual
  if st ≠ 0 then (s.setSt n t st, .next)
  else
    let back := s.dirOf h (bitsOf w 6 5)
    let theta := s.resolveAngle h (s.shPos h) frac qual back
    let deadline := if (kFnI w).testBit 0 then some (s.thStamp n t) else none
    match s.waitMet (.angle h theta back deadline) with
    | some _ => (s.setSt n t 0xD, .next)
    | none => (s, .wait 2 (.angle h theta back deadline))

/-! ### Events and rings (R246 to R248) -/

/-- The descriptor of a POST: Ga to Ga+5, words 1 and 2 from the stamp pair with SP. -/
def State.kDescriptor (s : State) (n t : Nat) (w : Word) (j : Nat) : Word :=
  if (kFnI w).testBit 1 && j == 1 then loWord (s.thStamp n t)
  else if (kFnI w).testBit 1 && j == 2 then hiWord (s.thStamp n t)
  else s.g n t (kA w + j)

/-- The start key of the event that weir `n` accepted as number `order`; none while it has no key. -/
def State.startKey (s : State) (n order : Nat) : Option Stamp :=
  match (s.weir n).slots.find? (fun p => p.2.order == order) with
  | some p => if p.2.key.isSome then some p.2.s else none
  | none => none

/-- A post of thread `t` commits: its status, and with K the first start key in the stamp pair; where the event has no key yet the pair takes
a free value, since the spec states no first key for it (R246). -/
def State.threadPost (s : State) (n t : Nat) (first : Bool) (d : Nat → Word) : State :=
  let order := (s.weir n).order
  let r := s.post n d
  let s := r.2.setSt n t r.1
  if first && r.1 == 0 then
    match s.startKey n order with
    | some k => s.setThStamp n t k
    | none => s.useFree.setThStamp n t s.freeValue
  else s

/-- POST: it commits now, or in the next tick that no other post takes (R157, R246). -/
def State.kPost (s : State) (n t : Nat) (w : Word) : State × KEnd :=
  let d := s.kDescriptor n t w
  let first := (kFnI w).testBit 0
  if s.postFree n then (s.threadPost n t first d, .next)
  else (s.postLater n { words := (List.range 6).map d, thread := some t, first := first }, .late)

/-- A tick begins: the oldest post that waits for it commits (R157). A host post reads POST_W0 to POST_W5 now (R175). -/
def State.postNext (s : State) (n : Nat) : State :=
  match (s.weir n).posts with
  | [] => s
  | p :: rest =>
    let s := s.setWeir n { s.weir n with posts := rest }
    match p.thread with
    | some t => s.threadPost n t p.first (fun j => p.words.getD j 0)
    | none => s.postHost n (fun j => s.reg (POST_W n j))

def State.kCancel (s : State) (n t : Nat) (w : Word) : State × KEnd :=
  let waits := (s.weir n).cancels.tail.any (fun c => c.thread == some t)
  if waits then (s.setSt n t 0xE, .next)
  else
    ((s.cancel n (BitVec.ofNat 12 (kImm w)) (BitVec.ofNat 12 (bitsOf (s.g n t (kA w)) 11 0)) (some t) false).setSt n t 0x0, .next)

/-- The 16 bytes of a register quad. -/
def State.quad (s : State) (n t i : Nat) : BitVec 128 := s.g n t (i + 3) ++ s.g n t (i + 2) ++ s.g n t (i + 1) ++ s.g n t i
def State.setQuad (s : State) (n t i : Nat) (e : BitVec 128) : State :=
  foldBelow 4 (fun s j => s.setG n t (i + j) ((e >>> (32 * j)).truncate 32)) s

/-- PUSH: refused, without credit, or offered; what the offer comes to is decided when the BCLK cycle ends (R248, R262). -/
def State.kPush (s : State) (n t : Nat) (w : Word) : State × KEnd :=
  let r := s.kIndex n t w (kD w)
  let waits := (kFnI w).testBit 0
  if s.fld ID_QUEUE 15 8 ≤ r then (s.setSt n t 0xB, .next)
  else
    let st := s.pushStatus r n
    if st = 9 ∧ waits then (s, .wait 3 (.ring r true))
    else if st = 0 then ((s.ringGather r (rankPush n) (.push n t (s.thPc n t) waits (s.quad n t (kA w)))).setSt n t 0x0, .next)
    else (s.setSt n t st, .next)

/-- POP. An entry with an uncorrectable error is taken, and faults the thread (R265). -/
def State.kPop (s : State) (n t : Nat) (w : Word) : State × KEnd :=
  let r := s.kIndex n t w (kA w)
  if s.fld ID_QUEUE 15 8 ≤ r then (s.setSt n t 0xB, .next)
  else match s.ringPop r n with
    | (0, some e, s') => ((s'.setQuad n t (kD w) e).setSt n t 0x0, .next)
    | (0, none, s') => (s', .fault 5 (BitVec.ofNat 32 (s.entryAt r (s.reg (RING_RD r)))))
    | (c, _, _) =>
      if c = 0xA ∧ (kFnI w).testBit 0 then (s, .wait 3 (.ring r false)) else (s.setSt n t c, .next)

/-! ### SWAP (R251) -/

def State.kSwapArm (s : State) (n t : Nat) (w : Word) : State × KEnd :=
  let fn := kFnI w
  let r := s.swapArm true
    { angle := fn.testBit 2, stamp := s.thStamp n t, frac := s.g n t (kA w), qual := s.g n t (kA w + 1), shaft := s.kShaft n t w,
      dirq := bitsOf w 6 5, purge := fn.testBit 3, lateOk := fn.testBit 4 }
  (r.2.setSt n t r.1, .next)

def State.kSwapDisarm (s : State) (n t : Nat) : State × KEnd := (s.swapDisarm.2.setSt n t s.swapDisarm.1, .next)

def State.kSwapQuery (s : State) (n t : Nat) (w : Word) : State × KEnd := (s.setG n t (kD w) (s.reg SWAP_STATUS), .next)

/-! ### One instruction -/

/-- The effect of instruction `o` with word `w`, and how it ends. -/
def State.kEffect (s : State) (n t : Nat) (w : Word) (o : Kci) : State × KEnd :=
  match o with
  | .alu f => s.kAlu n t w f
  | .ld => s.kLoad n t w
  | .st => s.kStore n t w
  | .ldr => s.kAccess n t w 5
  | .str => s.kAccess n t w 6
  | .rxadd => s.kAccess n t w 7
  | .br => s.kBranch n t w
  | .jal => s.kJal n t w
  | .jr => s.kJr n t w
  | .chrd => s.kChrd n t w
  | .chwr => s.kChwr n t w
  | .chrd64 => s.kChrd64 n t w
  | .chstat => s.kChstat n t w
  | .mtrd => s.kMtrd n t w
  | .stld => s.kStld n t w
  | .stst => s.kStst n t w
  | .stadd => s.kStampAdd n t w false
  | .stsub => s.kStampAdd n t w true
  | .staddi => s.kStaddi n t w
  | .stcmp => s.kStcmp n t
  | .shrd => s.kShrd n t w
  | .accrd => s.kAccrd n t w
  | .mmrd => s.kMmrd n t w
  | .sysrd => s.kSysrd n t w
  | .waitt => s.kWaitt n t
  | .waita => s.kWaita n t w
  | .post => s.kPost n t w
  | .cancel => s.kCancel n t w
  | .push => s.kPush n t w
  | .pop => s.kPop n t w
  | .yield => (s, .yield)
  | .halt => (s, .halt)
  | .swapArm => s.kSwapArm n t w
  | .swapDisarm => s.kSwapDisarm n t
  | .swapQuery => s.kSwapQuery n t w

/-- Microcycles of the instruction: 3 for the check after a ring wait, which is 4 after the selection (R248); one more for a taken BR. -/
def State.kCycles (s : State) (n t : Nat) (w : Word) (o : Kci) : Nat :=
  if (s.thread n t).owes = 3 then 3
  else if o = .br ∧ s.kTaken n t w then 3
  else o.cycles w

/-- The running thread whose next microcycles belong to an instruction: the engine runs, an MCLK cycle begins, and no POLL is due. -/
def State.kThread (s : State) (n : Nat) : Option Nat := if (s.engine n).pollDue then none else s.microThread n

/-- The instruction `o` with word `w` of thread `t` executes in its commit tick, `len` bytes long. -/
def State.kRun (s : State) (n t : Nat) (w : Word) (o : Kci) : State :=
  let cycles := s.kCycles n t w o
  if s.reached ((s.engine n).freeAt + BitVec.ofNat 64 (2 * (cycles - 1))) then
    let s := s.setThread n t { s.thread n t with owes := 0 }
    let r := s.kEffect n t w o
    r.1.kEnd n t (kciBytes w) cycles r.2
  else s

/-- The next instruction of the running thread of cluster `n`, when it is `o`. A word that fails a decode check faults the thread with
the word in FAULT_INFO (R229); one that is no instruction does so at any instruction command. -/
def State.kci (s : State) (n : Nat) (o : Kci) : State :=
  match s.kThread n with
  | none => s
  | some t =>
    let w := s.kWord n t
    match kciOf w with
    | none => s.faultThread n t 1 w
    | some p =>
      if p ≠ o then s
      else match p.decodeFault w (s.engine n).level with
        | some code => s.faultThread n t code w
        | none => s.kRun n t w p

/-! ### The instruction commands -/

/-- ADD (R230). -/
def execKAdd (n : Fin 24) (s : State) : Host.Outcome State Fault Refusal := .next (s.kci n (.alu .add))

/-- SUB (R230). -/
def execKSub (n : Fin 24) (s : State) : Host.Outcome State Fault Refusal := .next (s.kci n (.alu .sub))

/-- ADDC (R230). -/
def execKAddc (n : Fin 24) (s : State) : Host.Outcome State Fault Refusal := .next (s.kci n (.alu .addc))

/-- SUBB (R230). -/
def execKSubb (n : Fin 24) (s : State) : Host.Outcome State Fault Refusal := .next (s.kci n (.alu .subb))

/-- AND (R230). -/
def execKAnd (n : Fin 24) (s : State) : Host.Outcome State Fault Refusal := .next (s.kci n (.alu .and))

/-- OR (R230). -/
def execKOr (n : Fin 24) (s : State) : Host.Outcome State Fault Refusal := .next (s.kci n (.alu .or))

/-- XOR (R230). -/
def execKXor (n : Fin 24) (s : State) : Host.Outcome State Fault Refusal := .next (s.kci n (.alu .xor))

/-- ANDN (R230). -/
def execKAndn (n : Fin 24) (s : State) : Host.Outcome State Fault Refusal := .next (s.kci n (.alu .andn))

/-- SHL (R230). -/
def execKShl (n : Fin 24) (s : State) : Host.Outcome State Fault Refusal := .next (s.kci n (.alu .shl))

/-- SHR (R230). -/
def execKShr (n : Fin 24) (s : State) : Host.Outcome State Fault Refusal := .next (s.kci n (.alu .shr))

/-- SAR (R230). -/
def execKSar (n : Fin 24) (s : State) : Host.Outcome State Fault Refusal := .next (s.kci n (.alu .sar))

/-- ROR (R230). -/
def execKRor (n : Fin 24) (s : State) : Host.Outcome State Fault Refusal := .next (s.kci n (.alu .ror))

/-- MUL (R230). -/
def execKMul (n : Fin 24) (s : State) : Host.Outcome State Fault Refusal := .next (s.kci n (.alu .mul))

/-- MULH (R230). -/
def execKMulh (n : Fin 24) (s : State) : Host.Outcome State Fault Refusal := .next (s.kci n (.alu .mulh))

/-- MULHU (R230). -/
def execKMulhu (n : Fin 24) (s : State) : Host.Outcome State Fault Refusal := .next (s.kci n (.alu .mulhu))

/-- MIN (R230). -/
def execKMin (n : Fin 24) (s : State) : Host.Outcome State Fault Refusal := .next (s.kci n (.alu .min))

/-- MAX (R230). -/
def execKMax (n : Fin 24) (s : State) : Host.Outcome State Fault Refusal := .next (s.kci n (.alu .max))

/-- MINU (R230). -/
def execKMinu (n : Fin 24) (s : State) : Host.Outcome State Fault Refusal := .next (s.kci n (.alu .minu))

/-- MAXU (R230). -/
def execKMaxu (n : Fin 24) (s : State) : Host.Outcome State Fault Refusal := .next (s.kci n (.alu .maxu))

/-- CMP (R230). -/
def execKCmp (n : Fin 24) (s : State) : Host.Outcome State Fault Refusal := .next (s.kci n (.alu .cmp))

/-- TST (R230). -/
def execKTst (n : Fin 24) (s : State) : Host.Outcome State Fault Refusal := .next (s.kci n (.alu .tst))

/-- MOV (R230). -/
def execKMov (n : Fin 24) (s : State) : Host.Outcome State Fault Refusal := .next (s.kci n (.alu .mov))

/-- DIV (R231). -/
def execKDiv (n : Fin 24) (s : State) : Host.Outcome State Fault Refusal := .next (s.kci n (.alu .div))

/-- DIVU (R231). -/
def execKDivu (n : Fin 24) (s : State) : Host.Outcome State Fault Refusal := .next (s.kci n (.alu .divu))

/-- REM (R231). -/
def execKRem (n : Fin 24) (s : State) : Host.Outcome State Fault Refusal := .next (s.kci n (.alu .rem))

/-- REMU (R231). -/
def execKRemu (n : Fin 24) (s : State) : Host.Outcome State Fault Refusal := .next (s.kci n (.alu .remu))

/-- CLZ (R230). -/
def execKClz (n : Fin 24) (s : State) : Host.Outcome State Fault Refusal := .next (s.kci n (.alu .clz))

/-- LD (R232). -/
def execKLd (n : Fin 24) (s : State) : Host.Outcome State Fault Refusal := .next (s.kci n .ld)

/-- ST (R232). -/
def execKSt (n : Fin 24) (s : State) : Host.Outcome State Fault Refusal := .next (s.kci n .st)

/-- LDR (R233). -/
def execKLdr (n : Fin 24) (s : State) : Host.Outcome State Fault Refusal := .next (s.kci n .ldr)

/-- STR (R233). -/
def execKStr (n : Fin 24) (s : State) : Host.Outcome State Fault Refusal := .next (s.kci n .str)

/-- RXADD (R233). -/
def execKRxadd (n : Fin 24) (s : State) : Host.Outcome State Fault Refusal := .next (s.kci n .rxadd)

/-- BR (R234, R235). -/
def execKBr (n : Fin 24) (s : State) : Host.Outcome State Fault Refusal := .next (s.kci n .br)

/-- JAL (R235). -/
def execKJal (n : Fin 24) (s : State) : Host.Outcome State Fault Refusal := .next (s.kci n .jal)

/-- JR (R235). -/
def execKJr (n : Fin 24) (s : State) : Host.Outcome State Fault Refusal := .next (s.kci n .jr)

/-- CHRD (R236). -/
def execKChrd (n : Fin 24) (s : State) : Host.Outcome State Fault Refusal := .next (s.kci n .chrd)

/-- CHWR (R236). -/
def execKChwr (n : Fin 24) (s : State) : Host.Outcome State Fault Refusal := .next (s.kci n .chwr)

/-- CHRD64 (R237). -/
def execKChrd64 (n : Fin 24) (s : State) : Host.Outcome State Fault Refusal := .next (s.kci n .chrd64)

/-- CHSTAT (R238). -/
def execKChstat (n : Fin 24) (s : State) : Host.Outcome State Fault Refusal := .next (s.kci n .chstat)

/-- MTRD (R239). -/
def execKMtrd (n : Fin 24) (s : State) : Host.Outcome State Fault Refusal := .next (s.kci n .mtrd)

/-- STLD (R240). -/
def execKStld (n : Fin 24) (s : State) : Host.Outcome State Fault Refusal := .next (s.kci n .stld)

/-- STST (R240). -/
def execKStst (n : Fin 24) (s : State) : Host.Outcome State Fault Refusal := .next (s.kci n .stst)

/-- STADD (R240). -/
def execKStadd (n : Fin 24) (s : State) : Host.Outcome State Fault Refusal := .next (s.kci n .stadd)

/-- STSUB (R240). -/
def execKStsub (n : Fin 24) (s : State) : Host.Outcome State Fault Refusal := .next (s.kci n .stsub)

/-- STADDI (R240). -/
def execKStaddi (n : Fin 24) (s : State) : Host.Outcome State Fault Refusal := .next (s.kci n .staddi)

/-- STCMP (R240). -/
def execKStcmp (n : Fin 24) (s : State) : Host.Outcome State Fault Refusal := .next (s.kci n .stcmp)

/-- SHRD (R241). -/
def execKShrd (n : Fin 24) (s : State) : Host.Outcome State Fault Refusal := .next (s.kci n .shrd)

/-- ACCRD (R242). -/
def execKAccrd (n : Fin 24) (s : State) : Host.Outcome State Fault Refusal := .next (s.kci n .accrd)

/-- MMRD (R242). -/
def execKMmrd (n : Fin 24) (s : State) : Host.Outcome State Fault Refusal := .next (s.kci n .mmrd)

/-- SYSRD (R243). -/
def execKSysrd (n : Fin 24) (s : State) : Host.Outcome State Fault Refusal := .next (s.kci n .sysrd)

/-- WAITT (R244). -/
def execKWaitt (n : Fin 24) (s : State) : Host.Outcome State Fault Refusal := .next (s.kci n .waitt)

/-- WAITA (R245). -/
def execKWaita (n : Fin 24) (s : State) : Host.Outcome State Fault Refusal := .next (s.kci n .waita)

/-- POST (R246). -/
def execKPost (n : Fin 24) (s : State) : Host.Outcome State Fault Refusal := .next (s.kci n .post)

/-- CANCEL (R247). -/
def execKCancel (n : Fin 24) (s : State) : Host.Outcome State Fault Refusal := .next (s.kci n .cancel)

/-- PUSH (R248). -/
def execKPush (n : Fin 24) (s : State) : Host.Outcome State Fault Refusal := .next (s.kci n .push)

/-- POP (R248). -/
def execKPop (n : Fin 24) (s : State) : Host.Outcome State Fault Refusal := .next (s.kci n .pop)

/-- YIELD (R249). -/
def execKYield (n : Fin 24) (s : State) : Host.Outcome State Fault Refusal := .next (s.kci n .yield)

/-- HALT (R249). -/
def execKHalt (n : Fin 24) (s : State) : Host.Outcome State Fault Refusal := .next (s.kci n .halt)

/-- SWAP ARM (R251). -/
def execKSwapArm (n : Fin 24) (s : State) : Host.Outcome State Fault Refusal := .next (s.kci n .swapArm)

/-- SWAP DISARM (R251). -/
def execKSwapDisarm (n : Fin 24) (s : State) : Host.Outcome State Fault Refusal := .next (s.kci n .swapDisarm)

/-- SWAP QUERY (R251). -/
def execKSwapQuery (n : Fin 24) (s : State) : Host.Outcome State Fault Refusal := .next (s.kci n .swapQuery)

end Sys2Proof.Machine
end

