-- ==== Sys2Proof/Machine/Sluice.lean ====
section
/-!
DEFINITION. The sluice at the end of a BCLK cycle: the offers of the cycle are served together, in the order of R262
(spec/12_rings_and_accounting.md).
-/

namespace Sys2Proof.Machine

open Reg

/-- A PUSH of thread `t` of cluster `n`, whose instruction stands at `pc`, has found no credit left: with W it waits, and executes again from
`pc`; else it leaves NO_CREDIT (R248, R262). -/
def State.pushFails (s : State) (r n t pc : Nat) (waits : Bool) : State :=
  if !waits then s.setSt n t 0x9
  else
    let st := s.thState n t
    let s := s.setThPc n t pc
    if st = thRunning ∨ st = thReady then
      let s := (s.setThread n t { s.thread n t with wait := .ring r true, metAt := none }).setThState n t thWaiting 3
      if s.runningThread n = some t then s.setRunning n none else s
    else s

/-- Offer `o` is served with the credit that the offers before it have left (R262). -/
def State.serveOffer (s : State) (r : Nat) (o : Offer) : State :=
  match o with
  | .hardware e => s.ringOffer r (s.ringHwIn r) e
  | .net p e => s.ringOffer r (s.ringProd r == 0x21 + p) e
  | .push n t pc waits e =>
    match s.pushStatus r n with
    | 0 => s.ringAdmit r [.entry e]
    | 9 => s.pushFails r n t pc waits
    | st => s.setSt n t st
  | .commit n => if s.commitRefused r n then s.raise (RING_STATUS r) 2 else s.ringAdmit r (List.replicate n .placed)
  | .xfer e =>
    match s.pushStatus r 0x20 with
    | 0 => s.ringAdmit r [.entry e]
    | st => s.setReg XFER_STATUS (BitVec.ofNat 32 st)
  | .ponar es => s.respServe r es

/-- The offers of the cycle to ring `r` are served. -/
def State.serveOffers (s : State) (r : Nat) : State :=
  let os := (s.ring r).offers
  os.foldl (fun s o => s.serveOffer r o.2) (s.setRing r { s.ring r with offers := [] })

/-- The end of a tick, for the rings: the second tick of a BCLK cycle ends the cycle. -/
def State.ringsTickEnd (s : State) : State :=
  if s.mt.getLsbD 0 && s.power.bclk then s.rings.foldl (fun s e => (s.serveOffers e.1).ringCycleEnd e.1) s else s

end Sys2Proof.Machine
end

