-- ==== Sys2Proof/Machine/Tick.lean ====
section
/-!
DEFINITION. What passes with a tick of TCLK, whatever is commanded (spec/02_time_and_angle_formats.md R27). The events that fall due at a
tick have rows of the table; here stand the changes that have none: machine time, what the end of a tick or of a BCLK cycle captures,
and what takes effect at a tick boundary (notes/assumptions/2.md).
-/

namespace Sys2Proof.Machine

/-- A capture or a decision that the commands of the tick have asked for takes place (R65, R151, R174, R196, R268, R287, R374). -/
def State.runTake (s : State) : Take → State
  | .pair k => s.takePair k
  | .shaft h => s.takeShaft h
  | .weir n => s.takeWeir n
  | .ring r => s.takeRing r
  | .adc => s.takeAdc
  | .wear => s.takeWear
  | .pcmp j => s.pcDecide j

/-- The capture waits for the end of the BCLK cycle: that of a ring (R268). -/
def Take.late : Take → Bool
  | .ring _ => true
  | _ => false

/-- The captures of the tick, and at the end of a BCLK cycle those of the cycle. -/
def State.runTakes (s : State) : State :=
  let waits (t : Take) : Bool := t.late && !s.mt.getLsbD 0
  (s.takes.filter (fun t => !waits t)).foldl State.runTake { s with takes := s.takes.filter waits }

/-- What the engines of the clusters do at the end of a BCLK cycle: a free one selects its next thread (R204). -/
def State.enginesTickEnd (s : State) : State := if s.mt.getLsbD 0 && s.power.bclk then foldBelow 24 State.engineTick s else s

/-- What the end of the present tick brings: the writes that waited for it and the next pair of a Ponar request, the samples of trips, TDCs and
culverts, waits whose condition holds, compares on their near side, messages that have arrived on the command ring, the rings' and the
engines' part of a BCLK cycle that ends, the captures, frames that leave, and the count of gated ticks. -/
def State.tickEnd (s : State) : State :=
  let s := s.commitLater.pairTick
  let s := (s.trips.foldl (fun s e => s.tripSample e.1) s).tdcTick
  let s := (foldBelow 8 State.cvSampleRaw s).noteWaits
  let s := (foldBelow 32 State.pcTick s).ponarTick.ringsTickEnd
  foldBelow 24 State.gatedTick (foldBelow 2 State.portSend s.enginesTickEnd.runTakes)

/-- What takes effect as a tick begins: configurations that were written in the tick before, pads and culvert outputs, generators, the edges
and indexes that the interfaces and probes can now judge, SSI clocks, threads whose switch ends, posts that waited, deferred weir
actions, and the gating conditions. -/
def State.tickBegin (s : State) : State :=
  let s := s.trips.foldl (fun s e => s.tripBoundary e.1) s
  let s := s.padsBoundary
  let s := s.chans.foldl (fun s e => s.inputBoundary e.1) s
  let s := foldBelow 8 State.qencTick (foldBelow 16 State.genTick s)
  let s := foldBelow 8 (fun s i => s.indexTick (8 + i)) s
  let s := foldBelow 8 State.ssiTick (foldBelow 8 State.prbTick s)
  let s := foldBelow 16 State.satTick s
  let s := foldBelow 24 State.postNext (foldBelow 24 State.engineBegin s)
  foldBelow 24 State.gatingTick (foldBelow 24 State.weirActs s).trimSlew.mirrorPending

/-- The tick after the present one begins. -/
def State.advance (s : State) : State := { s with mt := s.mt + 1, was := [] }.openCycle.tickBegin.bclkStart

/-- One tick of machine time; none passes while TCLK is stopped (R355). -/
def State.tick (s : State) : State := if s.tclk then s.tickEnd.advance else s

end Sys2Proof.Machine
end

