-- ==== Sys2Proof/Machine/Wake.lean ====
section
/-!
DEFINITION. The ends of the two wakes that serve held host accesses (spec/17_power_clocks_reset.md, R352, R356, R357).
-/

namespace Sys2Proof.Machine

open Reg

/-- NAP_WAKE_COMPLETE: the tick in which the clocks stopped ends, and they restart with the one after it, in RUN; the events of the NAP are pending in the
restored controller (R297), an initial calibration round begins, and the host requests that were held are served once BCLK has started
(R349). -/
def State.napWakeComplete (s : State) : State :=
  if s.power.phase == .waking then
    let s := { s with power := { s.power with phase := .run } }.tickEnd.advance
    let s := (((s.setFld PWR_STATUS 2 0 0).sysEvent 3).initialRoundStart.mirrorPending).refreshPins s.now
    let s := s.irqEvents.foldl (fun s _ => s.irqLatch) s
    State.bclkStart { s with start := some s.snap, power := { s.power with bclk := false } }
  else s

def execNapWakeComplete (s : State) : Host.Outcome State Fault Refusal := .next s.napWakeComplete

/-- CLUSTER_WAKE_END: 160 ticks after the wake began the cluster runs, and the accesses that waited are served: writes in the order of
their arrival, then reads. -/
def State.clusterWakeEnd (s : State) (n : Nat) : State :=
  match (s.engine n).wakeEnd with
  | some t =>
    if s.mainRuns && s.gated n && s.reached t then
      let held := (s.engine n).heldReads
      let s := (s.setBit CG_MAP n false).setEngine n { s.engine n with wakeEnd := none, gateSince := none, heldReads := [] }
      held.foldl State.readA s.commitLater
    else s
  | none => s

def execClusterWakeEnd (n : Fin 24) (s : State) : Host.Outcome State Fault Refusal := .next (s.onTclk (s.clusterWakeEnd n))

end Sys2Proof.Machine
end

