-- ==== Sys2Proof/Machine/Dispatch.lean ====
section
/-!
DEFINITION. The dispatch of a command to its meaning, one arm per row of the table.
-/

namespace Sys2Proof.Machine

/-- The effect of a command on everything but the queue. -/
def exec (i : Instr) (s : State) : Host.Outcome State Fault Refusal :=
  match i with
  | .registerWrite addr v => Sys2Proof.Machine.execRegisterWrite addr v s
  | .rcRead addr => Sys2Proof.Machine.execRcRead addr s
  | .pcieMemoryRequest write addr dws => Sys2Proof.Machine.execPcieMemoryRequest write addr dws s
  | .windowBRead off size => Sys2Proof.Machine.execWindowBRead off size s
  | .windowBWrite off size v => Sys2Proof.Machine.execWindowBWrite off size v s
  | .pcieHotReset => Sys2Proof.Machine.execPcieHotReset s
  | .qspiRead op addr n partialWord => Sys2Proof.Machine.execQspiRead op addr n partialWord s
  | .qspiQread addr n partialWord => Sys2Proof.Machine.execQspiQread addr n partialWord s
  | .qspiWrite addr words partialWord => Sys2Proof.Machine.execQspiWrite addr words partialWord s
  | .qspiQwrite addr words partialWord => Sys2Proof.Machine.execQspiQwrite addr words partialWord s
  | .qspiStatus => Sys2Proof.Machine.execQspiStatus s
  | .qspiId => Sys2Proof.Machine.execQspiId s
  | .mtLoRead => Sys2Proof.Machine.execMtLoRead s
  | .chCtrlWrite k v => Sys2Proof.Machine.execChCtrlWrite k v s
  | .startTick k => Sys2Proof.Machine.execStartTick k s
  | .countingStep k => Sys2Proof.Machine.execCountingStep k s
  | .writeTrigger k x => Sys2Proof.Machine.execWriteTrigger k x s
  | .countWrite k v => Sys2Proof.Machine.execCountWrite k v s
  | .countRead k => Sys2Proof.Machine.execCountRead k s
  | .periodWrite k presc v => Sys2Proof.Machine.execPeriodWrite k presc v s
  | .cmpLiveWrite k x v => Sys2Proof.Machine.execCmpLiveWrite k x v s
  | .cmpPreloadWrite k x v => Sys2Proof.Machine.execCmpPreloadWrite k x v s
  | .cmpCfgWrite k v => Sys2Proof.Machine.execCmpCfgWrite k v s
  | .pairSnapshotTake k v => Sys2Proof.Machine.execPairSnapshotTake k v s
  | .outCtrlWrite k v => Sys2Proof.Machine.execOutCtrlWrite k v s
  | .outFineWrite k dt v => Sys2Proof.Machine.execOutFineWrite k dt v s
  | .syncPulseArrival n => Sys2Proof.Machine.execSyncPulseArrival n s
  | .syncInEdge ticksHigh => Sys2Proof.Machine.execSyncInEdge ticksHigh s
  | .syncOutFall => Sys2Proof.Machine.execSyncOutFall s
  | .edgeEmit k => Sys2Proof.Machine.execEdgeEmit k s
  | .pendingEdgeEmit k => Sys2Proof.Machine.execPendingEdgeEmit k s
  | .deadTimeRise k => Sys2Proof.Machine.execDeadTimeRise k s
  | .ptStart k v => Sys2Proof.Machine.execPtStart k v s
  | .ptRestart k => Sys2Proof.Machine.execPtRestart k s
  | .ptStop k v => Sys2Proof.Machine.execPtStop k v s
  | .ptCmdWrite k v => Sys2Proof.Machine.execPtCmdWrite k v s
  | .ptEmitRead k => Sys2Proof.Machine.execPtEmitRead k s
  | .pinSelWrite addr v => Sys2Proof.Machine.execPinSelWrite addr v s
  | .calSlotStart => Sys2Proof.Machine.execCalSlotStart s
  | .calMeasurementDone p0 q => Sys2Proof.Machine.execCalMeasurementDone p0 q s
  | .lineSwap k => Sys2Proof.Machine.execLineSwap k s
  | .initialRoundEnd => Sys2Proof.Machine.execInitialRoundEnd s
  | .calStaleExpiry k => Sys2Proof.Machine.execCalStaleExpiry k s
  | .tdcAgeExpiry k => Sys2Proof.Machine.execTdcAgeExpiry k s
  | .calCtrlWrite v => Sys2Proof.Machine.execCalCtrlWrite v s
  | .inputEdge k fine level => Sys2Proof.Machine.execInputEdge k fine level s
  | .captureStore k => Sys2Proof.Machine.execCaptureStore k s
  | .capArm k v => Sys2Proof.Machine.execCapArm k v s
  | .capDisarm k v => Sys2Proof.Machine.execCapDisarm k v s
  | .capRiseLoRead k => Sys2Proof.Machine.execCapRiseLoRead k s
  | .tripInputEdge k level => Sys2Proof.Machine.execTripInputEdge k level s
  | .tripFilterQualify k => Sys2Proof.Machine.execTripFilterQualify k s
  | .cuffClose m => Sys2Proof.Machine.execCuffClose m s
  | .cuffOverride m => Sys2Proof.Machine.execCuffOverride m s
  | .mittenRelease m => Sys2Proof.Machine.execMittenRelease m s
  | .interlockApply p => Sys2Proof.Machine.execInterlockApply p s
  | .tripCfgWrite k v => Sys2Proof.Machine.execTripCfgWrite k v s
  | .mitCfgWrite addr v => Sys2Proof.Machine.execMitCfgWrite addr v s
  | .mitClr m v => Sys2Proof.Machine.execMitClr m v s
  | .watchdogExpiry => Sys2Proof.Machine.execWatchdogExpiry s
  | .watchdogResetStart => Sys2Proof.Machine.execWatchdogResetStart s
  | .wdogKick v => Sys2Proof.Machine.execWdogKick v s
  | .wdogCfgWrite v => Sys2Proof.Machine.execWdogCfgWrite v s
  | .shCtrlWrite sh off v => Sys2Proof.Machine.execShCtrlWrite sh off v s
  | .toothJudge sh => Sys2Proof.Machine.execToothJudge sh s
  | .syntheticTooth sh => Sys2Proof.Machine.execSyntheticTooth sh s
  | .stall sh => Sys2Proof.Machine.execStall sh s
  | .estimatePublication sh => Sys2Proof.Machine.execEstimatePublication sh s
  | .rekeyPass n slot => Sys2Proof.Machine.execRekeyPass n slot s
  | .historyWrite sh => Sys2Proof.Machine.execHistoryWrite sh s
  | .directionChange sh => Sys2Proof.Machine.execDirectionChange sh s
  | .marker sh stamp => Sys2Proof.Machine.execMarker sh stamp s
  | .cycleSet sh v => Sys2Proof.Machine.execCycleSet sh v s
  | .cycleRekey n slot => Sys2Proof.Machine.execCycleRekey n slot s
  | .virtualTooth sh => Sys2Proof.Machine.execVirtualTooth sh s
  | .genApply sh v => Sys2Proof.Machine.execGenApply sh v s
  | .genLoad sh v => Sys2Proof.Machine.execGenLoad sh v s
  | .shaftSnapTake sh v => Sys2Proof.Machine.execShaftSnapTake sh v s
  | .postGo n v => Sys2Proof.Machine.execPostGo n v s
  | .insertionComplete n slot => Sys2Proof.Machine.execInsertionComplete n slot s
  | .startDispatch n => Sys2Proof.Machine.execStartDispatch n s
  | .endDispatch n => Sys2Proof.Machine.execEndDispatch n s
  | .droppedSyncRetire n slot => Sys2Proof.Machine.execDroppedSyncRetire n slot s
  | .cancelGo n v => Sys2Proof.Machine.execCancelGo n v s
  | .cancelPass n slot => Sys2Proof.Machine.execCancelPass n slot s
  | .ledgerTake n v => Sys2Proof.Machine.execLedgerTake n v s
  | .feedbackCfgWrite addr v => Sys2Proof.Machine.execFeedbackCfgWrite addr v s
  | .qencEdge k isB a b stamp => Sys2Proof.Machine.execQencEdge k isB a b stamp s
  | .qencResample k a b => Sys2Proof.Machine.execQencResample k a b s
  | .aencSample k s0 c0 => Sys2Proof.Machine.execAencSample k s0 c0 s
  | .aencSampleProcessed k => Sys2Proof.Machine.execAencSampleProcessed k s
  | .ssiFrameStart k idleHigh => Sys2Proof.Machine.execSsiFrameStart k idleHigh s
  | .ssiFrameEnd k bits endLow => Sys2Proof.Machine.execSsiFrameEnd k bits endLow s
  | .indexEdge f rising stamp => Sys2Proof.Machine.execIndexEdge f rising stamp s
  | .speedGateEnd f => Sys2Proof.Machine.execSpeedGateEnd f s
  | .speedTimeout f => Sys2Proof.Machine.execSpeedTimeout f s
  | .posRead f => Sys2Proof.Machine.execPosRead f s
  | .probeArm p v => Sys2Proof.Machine.execProbeArm p v s
  | .probeDisarm p v => Sys2Proof.Machine.execProbeDisarm p v s
  | .probeEdge p rising stamp => Sys2Proof.Machine.execProbeEdge p rising stamp s
  | .probeLatchComplete p => Sys2Proof.Machine.execProbeLatchComplete p s
  | .prbStampLoRead p => Sys2Proof.Machine.execPrbStampLoRead p s
  | .pcArm j v => Sys2Proof.Machine.execPcArm j v s
  | .pcDisarm j v => Sys2Proof.Machine.execPcDisarm j v s
  | .pcImmediateFire j => Sys2Proof.Machine.execPcImmediateFire j s
  | .culvertRawChange k a b z => Sys2Proof.Machine.execCulvertRawChange k a b z s
  | .culvertRegenState k => Sys2Proof.Machine.execCulvertRegenState k s
  | .threadReady n t => Sys2Proof.Machine.execThreadReady n t s
  | .trapWord n => Sys2Proof.Machine.execTrapWord n s
  | .poll n => Sys2Proof.Machine.execPoll n s
  | .microBranch n cond => Sys2Proof.Machine.execMicroBranch n cond s
  | .datapathMicroword n parityError => Sys2Proof.Machine.execDatapathMicroword n parityError s
  | .thStart n t v => Sys2Proof.Machine.execThStart n t v s
  | .thHalt n t v => Sys2Proof.Machine.execThHalt n t v s
  | .thContextWrite n t off v => Sys2Proof.Machine.execThContextWrite n t off v s
  | .ucLoadGo v => Sys2Proof.Machine.execUcLoadGo v s
  | .microcodeLoadComplete => Sys2Proof.Machine.execMicrocodeLoadComplete s
  | .flashLoad image => Sys2Proof.Machine.execFlashLoad image s
  | .kAdd n => Sys2Proof.Machine.execKAdd n s
  | .kSub n => Sys2Proof.Machine.execKSub n s
  | .kAddc n => Sys2Proof.Machine.execKAddc n s
  | .kSubb n => Sys2Proof.Machine.execKSubb n s
  | .kAnd n => Sys2Proof.Machine.execKAnd n s
  | .kOr n => Sys2Proof.Machine.execKOr n s
  | .kXor n => Sys2Proof.Machine.execKXor n s
  | .kAndn n => Sys2Proof.Machine.execKAndn n s
  | .kShl n => Sys2Proof.Machine.execKShl n s
  | .kShr n => Sys2Proof.Machine.execKShr n s
  | .kSar n => Sys2Proof.Machine.execKSar n s
  | .kRor n => Sys2Proof.Machine.execKRor n s
  | .kMul n => Sys2Proof.Machine.execKMul n s
  | .kMulh n => Sys2Proof.Machine.execKMulh n s
  | .kMulhu n => Sys2Proof.Machine.execKMulhu n s
  | .kMin n => Sys2Proof.Machine.execKMin n s
  | .kMax n => Sys2Proof.Machine.execKMax n s
  | .kMinu n => Sys2Proof.Machine.execKMinu n s
  | .kMaxu n => Sys2Proof.Machine.execKMaxu n s
  | .kCmp n => Sys2Proof.Machine.execKCmp n s
  | .kTst n => Sys2Proof.Machine.execKTst n s
  | .kMov n => Sys2Proof.Machine.execKMov n s
  | .kDiv n => Sys2Proof.Machine.execKDiv n s
  | .kDivu n => Sys2Proof.Machine.execKDivu n s
  | .kRem n => Sys2Proof.Machine.execKRem n s
  | .kRemu n => Sys2Proof.Machine.execKRemu n s
  | .kClz n => Sys2Proof.Machine.execKClz n s
  | .kLd n => Sys2Proof.Machine.execKLd n s
  | .kSt n => Sys2Proof.Machine.execKSt n s
  | .kLdr n => Sys2Proof.Machine.execKLdr n s
  | .kStr n => Sys2Proof.Machine.execKStr n s
  | .kRxadd n => Sys2Proof.Machine.execKRxadd n s
  | .reservoirAccessComplete n t => Sys2Proof.Machine.execReservoirAccessComplete n t s
  | .kBr n => Sys2Proof.Machine.execKBr n s
  | .kJal n => Sys2Proof.Machine.execKJal n s
  | .kJr n => Sys2Proof.Machine.execKJr n s
  | .kChrd n => Sys2Proof.Machine.execKChrd n s
  | .kChwr n => Sys2Proof.Machine.execKChwr n s
  | .kChrd64 n => Sys2Proof.Machine.execKChrd64 n s
  | .kChstat n => Sys2Proof.Machine.execKChstat n s
  | .kMtrd n => Sys2Proof.Machine.execKMtrd n s
  | .kStld n => Sys2Proof.Machine.execKStld n s
  | .kStst n => Sys2Proof.Machine.execKStst n s
  | .kStadd n => Sys2Proof.Machine.execKStadd n s
  | .kStsub n => Sys2Proof.Machine.execKStsub n s
  | .kStaddi n => Sys2Proof.Machine.execKStaddi n s
  | .kStcmp n => Sys2Proof.Machine.execKStcmp n s
  | .kShrd n => Sys2Proof.Machine.execKShrd n s
  | .kAccrd n => Sys2Proof.Machine.execKAccrd n s
  | .kMmrd n => Sys2Proof.Machine.execKMmrd n s
  | .kSysrd n => Sys2Proof.Machine.execKSysrd n s
  | .kWaitt n => Sys2Proof.Machine.execKWaitt n s
  | .kWaita n => Sys2Proof.Machine.execKWaita n s
  | .kPost n => Sys2Proof.Machine.execKPost n s
  | .kCancel n => Sys2Proof.Machine.execKCancel n s
  | .kPush n => Sys2Proof.Machine.execKPush n s
  | .kPop n => Sys2Proof.Machine.execKPop n s
  | .kYield n => Sys2Proof.Machine.execKYield n s
  | .kHalt n => Sys2Proof.Machine.execKHalt n s
  | .kSwapArm n => Sys2Proof.Machine.execKSwapArm n s
  | .kSwapDisarm n => Sys2Proof.Machine.execKSwapDisarm n s
  | .kSwapQuery n => Sys2Proof.Machine.execKSwapQuery n s
  | .swapFixed => Sys2Proof.Machine.execSwapFixed s
  | .swapTick => Sys2Proof.Machine.execSwapTick s
  | .ringCfgWrite r base v => Sys2Proof.Machine.execRingCfgWrite r base v s
  | .ringEntryWritten r => Sys2Proof.Machine.execRingEntryWritten r s
  | .hostCommit r v => Sys2Proof.Machine.execHostCommit r v s
  | .hostRelease r v => Sys2Proof.Machine.execHostRelease r v s
  | .xferPush v => Sys2Proof.Machine.execXferPush v s
  | .xferPop v => Sys2Proof.Machine.execXferPop v s
  | .ringSnapTake v => Sys2Proof.Machine.execRingSnapTake v s
  | .adcReq v => Sys2Proof.Machine.execAdcReq v s
  | .adcRequestArrival => Sys2Proof.Machine.execAdcRequestArrival s
  | .adcStartupEnd c => Sys2Proof.Machine.execAdcStartupEnd c s
  | .adcAcqStart c => Sys2Proof.Machine.execAdcAcqStart c s
  | .adcHold c => Sys2Proof.Machine.execAdcHold c s
  | .conversionDelivery c raw => Sys2Proof.Machine.execConversionDelivery c raw s
  | .adcIdleOff c => Sys2Proof.Machine.execAdcIdleOff c s
  | .accRdcLoRead k => Sys2Proof.Machine.execAccRdcLoRead k s
  | .accRdLoRead k => Sys2Proof.Machine.execAccRdLoRead k s
  | .mmRdcRead k => Sys2Proof.Machine.execMmRdcRead k s
  | .accCfgWrite k v => Sys2Proof.Machine.execAccCfgWrite k v s
  | .adcSnapTake v => Sys2Proof.Machine.execAdcSnapTake v s
  | .irqLatch => Sys2Proof.Machine.execIrqLatch s
  | .irqSet w v => Sys2Proof.Machine.execIrqSet w v s
  | .irqSelectWrite addr v => Sys2Proof.Machine.execIrqSelectWrite addr v s
  | .msiXMessage v => Sys2Proof.Machine.execMsiXMessage v s
  | .vecDone v => Sys2Proof.Machine.execVecDone v s
  | .ponarCfgWrite v => Sys2Proof.Machine.execPonarCfgWrite v s
  | .ponarRingMessage => Sys2Proof.Machine.execPonarRingMessage s
  | .ponarUdpDatagram a ip udp bytes => Sys2Proof.Machine.execPonarUdpDatagram a ip udp bytes s
  | .ponarResponseAdmit => Sys2Proof.Machine.execPonarResponseAdmit s
  | .nvmWriteComplete ok => Sys2Proof.Machine.execNvmWriteComplete ok s
  | .hello => Sys2Proof.Machine.execHello s
  | .getCounter => Sys2Proof.Machine.execGetCounter s
  | .regRead => Sys2Proof.Machine.execRegRead s
  | .regWrite => Sys2Proof.Machine.execRegWrite s
  | .output => Sys2Proof.Machine.execOutput s
  | .progLoadDirect => Sys2Proof.Machine.execProgLoadDirect s
  | .progLoadStage => Sys2Proof.Machine.execProgLoadStage s
  | .swapCtlArm => Sys2Proof.Machine.execSwapCtlArm s
  | .swapCtlDisarm => Sys2Proof.Machine.execSwapCtlDisarm s
  | .swapCtlQuery => Sys2Proof.Machine.execSwapCtlQuery s
  | .mitChange => Sys2Proof.Machine.execMitChange s
  | .mitClear => Sys2Proof.Machine.execMitClear s
  | .keyChangeInstall => Sys2Proof.Machine.execKeyChangeInstall s
  | .keyChangeRevoke => Sys2Proof.Machine.execKeyChangeRevoke s
  | .ucalWrite => Sys2Proof.Machine.execUcalWrite s
  | .seal => Sys2Proof.Machine.execSeal s
  | .floorRaise => Sys2Proof.Machine.execFloorRaise s
  | .softReset => Sys2Proof.Machine.execSoftReset s
  | .keyLoadGo v => Sys2Proof.Machine.execKeyLoadGo v s
  | .portCtrlWrite p off v => Sys2Proof.Machine.execPortCtrlWrite p off v s
  | .linkChange p up => Sys2Proof.Machine.execLinkChange p up s
  | .arpRequest a k senderIp senderMac => Sys2Proof.Machine.execArpRequest a k senderIp senderMac s
  | .icmpEcho a target senderIp body => Sys2Proof.Machine.execIcmpEcho a target senderIp body s
  | .gptpSync a m correction => Sys2Proof.Machine.execGptpSync a m correction s
  | .syncTimeout => Sys2Proof.Machine.execSyncTimeout s
  | .bmcaGrandmaster => Sys2Proof.Machine.execBmcaGrandmaster s
  | .discoverSend p => Sys2Proof.Machine.execDiscoverSend p s
  | .discover a ip udp bytes => Sys2Proof.Machine.execDiscover a ip udp bytes s
  | .peerAgeExpiry p e => Sys2Proof.Machine.execPeerAgeExpiry p e s
  | .sessionIdleExpiry p e => Sys2Proof.Machine.execSessionIdleExpiry p e s
  | .userDatagramRx a bytes => Sys2Proof.Machine.execUserDatagramRx a bytes s
  | .userDatagramTx p => Sys2Proof.Machine.execUserDatagramTx p s
  | .exportSample sh => Sys2Proof.Machine.execExportSample sh s
  | .shaftExport a bytes => Sys2Proof.Machine.execShaftExport a bytes s
  | .importTimeout sh => Sys2Proof.Machine.execImportTimeout sh s
  | .coastLimit sh => Sys2Proof.Machine.execCoastLimit sh s
  | .tsSnapTake v => Sys2Proof.Machine.execTsSnapTake v s
  | .porAssert => Sys2Proof.Machine.execPorAssert s
  | .porRelease => Sys2Proof.Machine.execPorRelease s
  | .resetN low ns => Sys2Proof.Machine.execResetN low ns s
  | .endOfReset straps => Sys2Proof.Machine.execEndOfReset straps s
  | .clkFail pll => Sys2Proof.Machine.execClkFail pll s
  | .lfclkLoss => Sys2Proof.Machine.execLfclkLoss s
  | .pwrReqRun => Sys2Proof.Machine.execPwrReqRun s
  | .pwrReqDoze => Sys2Proof.Machine.execPwrReqDoze s
  | .pwrReqNap => Sys2Proof.Machine.execPwrReqNap s
  | .pwrReqHibernate => Sys2Proof.Machine.execPwrReqHibernate s
  | .napWakeEvent hostDemand => Sys2Proof.Machine.execNapWakeEvent hostDemand s
  | .napWakeComplete => Sys2Proof.Machine.execNapWakeComplete s
  | .pwrEnFall => Sys2Proof.Machine.execPwrEnFall s
  | .hibAbort => Sys2Proof.Machine.execHibAbort s
  | .wakeNRequest => Sys2Proof.Machine.execWakeNRequest s
  | .softResetStart => Sys2Proof.Machine.execSoftResetStart s
  | .softResetEnd => Sys2Proof.Machine.execSoftResetEnd s
  | .rstCl v => Sys2Proof.Machine.execRstCl v s
  | .clusterResetEnd n => Sys2Proof.Machine.execClusterResetEnd n s
  | .clusterGate n => Sys2Proof.Machine.execClusterGate n s
  | .clusterWakeBegin n => Sys2Proof.Machine.execClusterWakeBegin n s
  | .clusterWakeEnd n => Sys2Proof.Machine.execClusterWakeEnd n s
  | .vbatPor => Sys2Proof.Machine.execVbatPor s
  | .islandRestore => Sys2Proof.Machine.execIslandRestore s
  | .calendarStep => Sys2Proof.Machine.execCalendarStep s
  | .calSet v => Sys2Proof.Machine.execCalSet v s
  | .calLoRead => Sys2Proof.Machine.execCalLoRead s
  | .wearEvent w => Sys2Proof.Machine.execWearEvent w s
  | .wearAdd v => Sys2Proof.Machine.execWearAdd v s
  | .wearClr v => Sys2Proof.Machine.execWearClr v s
  | .wearLoRead w => Sys2Proof.Machine.execWearLoRead w s
  | .wearTake v => Sys2Proof.Machine.execWearTake v s
  | .mirrorDue => Sys2Proof.Machine.execMirrorDue s
  | .mirNow v => Sys2Proof.Machine.execMirNow v s
  | .mirrorComplete ok => Sys2Proof.Machine.execMirrorComplete ok s
  | .trimTakeEffect p => Sys2Proof.Machine.execTrimTakeEffect p s
  | .tempUpdate t => Sys2Proof.Machine.execTempUpdate t s
  | .lfclkReturn => Sys2Proof.Machine.execLfclkReturn s
  | .pcieConfigWrite r v => Sys2Proof.Machine.execPcieConfigWrite r v s
  | .gptpAnnounce p f v => Sys2Proof.Machine.execGptpAnnounce p f v s
  | .gptpSyncSend p => Sys2Proof.Machine.execGptpSyncSend p s
  | .genTargetReached sh => Sys2Proof.Machine.execGenTargetReached sh s
  | .cycleRevStep sh reverse => Sys2Proof.Machine.execCycleRevStep sh reverse s
  | .pcShaftCrossing j => Sys2Proof.Machine.execPcShaftCrossing j s

end Sys2Proof.Machine
end

