-- ==== Sys2Proof/Safety.lean ====
section
/-!
DEFINITION. What counts as a sound state and a safe step, in the terms that the claims use.
-/

namespace Sys2Proof

open Machine Machine.Reg

/-- The outcome of a command that completes. -/
def completes (o : Host.Outcome State Fault Refusal) : Prop := ∃ t, o = .next t

/-- The registers and the memories are in their canonical form: keys rising, no default listed. -/
def Machine.State.canonical (s : State) : Prop :=
  Table.wf resetWord s.regs = true ∧ Memory.wf s.reservoir = true ∧ Memory.wf s.localRam = true ∧
    Table.wf (fun _ => (0 : Word)) s.ustore = true

/-- Every offer to a ring is accounted for: admitted, or in a spillway (R267). -/
def Machine.RingState.accounted (q : RingState) : Prop := q.offered = q.admitted + q.spillCredit + q.spillClosed

/-- Every ring accounts for its offers. -/
def Machine.State.ringsAccounted (s : State) : Prop := ∀ r, (s.ring r).accounted

/-- What every outcome of a weir's accepted events adds up to (R173). -/
def Machine.WeirLedger.retired (l : WeirLedger) : BitVec 64 :=
  l.completed + l.late + l.shortened + l.droppedPast + l.droppedSync + l.cancelled + l.zero

/-! ### When a command of the host takes effect -/

/-- A host access is served: clocks run, BCLK among them (R349), and no reset or NAP is in force. -/
def Machine.State.serves (s : State) : Prop := s.power.phase = .run ∧ s.power.bclk = true

/-- A write of `v` to the register at `a` by the QSPI target, or else through PCIe, takes effect in the present tick: clocks run, SEAL does
not refuse it (R318), no earlier write of the port waits (R264), its cluster is not gated (R352), and the register has taken no other
write of the tick (R407). -/
def Machine.State.portAccepts (s : State) (qspi : Bool) (a : Nat) (v : Word) : Prop :=
  s.serves ∧ s.sealLocks a v = false ∧ s.hostBlocked qspi = false ∧ s.meetsGate a = false ∧ s.wroteNow a = false

/-- A host write through PCIe takes effect in the present tick. -/
abbrev Machine.State.accepts (s : State) (a : Nat) (v : Word) : Prop := s.portAccepts false a v

/-- TCLK runs, so that an event of the TCLK domain can take place. -/
def Machine.State.clocked (s : State) : Prop := s.tclk = true

/-- The state once a host read has returned the words `ws`. -/
def Machine.State.returning (s : State) (ws : List Word) : State := { s with hostData := ws }

/-! ### When an instruction of KCI runs -/

/-- The instruction commands of KCI, each with the instruction that it stands for. -/
def kciRows : List ((Fin 24 → Instr) × Kci) :=
  [(.kAdd, .alu .add), (.kSub, .alu .sub), (.kAddc, .alu .addc), (.kSubb, .alu .subb), (.kAnd, .alu .and), (.kOr, .alu .or),
   (.kXor, .alu .xor), (.kAndn, .alu .andn), (.kShl, .alu .shl), (.kShr, .alu .shr), (.kSar, .alu .sar), (.kRor, .alu .ror),
   (.kMul, .alu .mul), (.kMulh, .alu .mulh), (.kMulhu, .alu .mulhu), (.kMin, .alu .min), (.kMax, .alu .max), (.kMinu, .alu .minu),
   (.kMaxu, .alu .maxu), (.kCmp, .alu .cmp), (.kTst, .alu .tst), (.kMov, .alu .mov), (.kDiv, .alu .div), (.kDivu, .alu .divu),
   (.kRem, .alu .rem), (.kRemu, .alu .remu), (.kClz, .alu .clz), (.kLd, .ld), (.kSt, .st), (.kLdr, .ldr), (.kStr, .str), (.kRxadd, .rxadd), (.kBr, .br), (.kJal, .jal), (.kJr, .jr), (.kChrd, .chrd), (.kChwr, .chwr), (.kChrd64, .chrd64), (.kChstat, .chstat),
   (.kMtrd, .mtrd), (.kStld, .stld), (.kStst, .stst), (.kStadd, .stadd), (.kStsub, .stsub), (.kStaddi, .staddi), (.kStcmp, .stcmp), (.kShrd, .shrd), (.kAccrd, .accrd), (.kMmrd, .mmrd), (.kSysrd, .sysrd), (.kWaitt, .waitt), (.kWaita, .waita), (.kPost, .post), (.kCancel, .cancel), (.kPush, .push), (.kPop, .pop), (.kYield, .yield), (.kHalt, .halt), (.kSwapArm, .swapArm),
   (.kSwapDisarm, .swapDisarm), (.kSwapQuery, .swapQuery)]

/-- Thread `t` runs on cluster `n`, the word at its PC is `w` and spells `o`, no decode check of R229 fails, and the present tick is the
commit tick of the instruction (R225). -/
def Machine.State.kciRuns (s : State) (n t : Nat) (w : Word) (o : Kci) : Prop :=
  s.kThread n = some t ∧ s.kWord n t = w ∧ kciOf w = some o ∧ o.decodeFault w (s.engine n).level = none ∧
    s.reached ((s.engine n).freeAt + BitVec.ofNat 64 (2 * (s.kCycles n t w o - 1))) = true

/-- In `u` the instruction that thread `t` ran in `s` has ended: the thread still runs, its PC is `pc`, and the POLL of the boundary is due. -/
def Machine.State.kciEnds (s u : State) (n t pc : Nat) : Prop :=
  u.runningThread n = s.runningThread n ∧ u.thState n t = s.thState n t ∧ u.thPc n t = pc % 65536 / 4 * 4 ∧
    (u.engine n).pollDue = true ∧ (u.engine n).freeAt = s.mt

/-- Every general register of thread `t` but those in `ds` holds in `u` what it held in `s`. -/
def Machine.State.keepsG (s u : State) (n t : Nat) (ds : List Nat) : Prop := ∀ i : Nat, i < 16 → i ∉ ds → u.g n t i = s.g n t i

/-- Thread `t` waits in `u` with WAIT_KIND `kind`, at the instruction that it ran in `s` (R203). -/
def Machine.State.kciWaits (s u : State) (n t kind : Nat) (w : Wait) : Prop :=
  u.thState n t = thWaiting ∧ u.fld (TH_STATUS n t) 7 4 = kind ∧ (u.thread n t).wait = w ∧ (u.thread n t).metAt = none ∧
    u.thPc n t = s.thPc n t ∧ u.reg (TH_FLAGS n t) = s.reg (TH_FLAGS n t) ∧ s.keepsG u n t []

/-- ST of the thread's flags. -/
def Machine.State.thSt (s : State) (n t : Nat) : Nat := s.fld (TH_FLAGS n t) 7 4

/-- Thread `t` has faulted in `u` with `code` and `info`, its PC noted as it was in `s` (R210). -/
def Machine.State.faulted (s u : State) (n t code : Nat) (info : Word) : Prop :=
  u.thState n t = thFaulted ∧ u.fld (TH_STATUS n t) 23 16 = code ∧ u.reg (FAULT_INFO n t) = info ∧
    u.reg (FAULT_PC n t) = s.reg (TH_PC n t) ∧ u.reg (TH_FLAGS n t) = s.reg (TH_FLAGS n t)

/-! ### Requests of Ponar -/

/-- Request `m` of type `ty` came over the ring transport and is in service (R312). Its response ring is not usable, so that the response
is held (R309). -/
def Machine.State.servesRequest (s : State) (m : Msg) (ty : Nat) : Prop :=
  s.hg.serving = some m ∧ m.via = .ring ∧ m.type = ty ∧ s.power.phase = .run ∧ s.ponarGated = false ∧ s.bit PONAR_CFG 0 = true ∧
    s.ponarRingOk s.rspRing = false

/-- The engine holds a response with STATUS `status` and these payload words, and serves no request. -/
def Machine.State.holdsAnswer (t : State) (status : Nat) (payload : List Word) : Prop :=
  t.hg.serving = none ∧ ∃ ws, t.hg.held = some (entriesOf ws) ∧ bitsOf (ws.getD 0 0) 7 0 = status ∧
    bitsOf (ws.getD 1 0) 15 0 = 4 * payload.length ∧ (ws.drop 4).take payload.length = payload

/-- Frame `f` is neither one that R327 discards nor a PAUSE frame. -/
def RxFrame.sound (f : RxFrame) : Prop := f.fcsOk = true ∧ f.length.toNat ≤ 1522 ∧ f.tags.toNat ≤ 1 ∧ f.pause = false

/-- Frame `f` carries a UDP datagram for port `u`, which R328 does not discard by its form. -/
def RxFrame.brings (f : RxFrame) (u : Nat) : Prop := f.sound ∧ f.plainIp = true ∧ f.udpPort.toNat = u

/-- Import slot `i` listens on port `p` for the announcement in `bytes` (R339). -/
def Machine.State.importListens (s : State) (p i : Nat) (bytes : List Byte) : Bool :=
  let w (j : Nat) : Word := (bytesWords bytes).getD j 0
  s.bit (IMP_CFG i) p && s.reg (IMP_ID_LO i) == w 5 && s.fld (IMP_ID_HI i) 15 0 == bitsOf (w 6) 15 0 &&
    s.fld (IMP_CFG i) 11 8 == bitsOf (w 4) 19 16

/-- `bytes` are the size and header of a SHAFT_EXPORT (R333, R338). -/
def isShaftExport (bytes : List Byte) : Prop :=
  let w (j : Nat) : Word := (bytesWords bytes).getD j 0
  bytes.length = 80 ∧ w 0 = 0x50300900#32 ∧ bitsOf (w 1) 15 0 = 64 ∧ w 2 = 0 ∧ w 3 = 0

end Sys2Proof
end

