-- ==== Sys2Proof/Certificates/Slice0/Obligations.lean ====
section
/-!
DEFINITION. The statements for the provers. A host write that `State.accepts` admits takes effect in its tick; `State.serves` says that a
host read is served, and `State.clocked` that TCLK runs. Where a statement gives the whole next state by an equation, everything that the
equation does not name is unchanged.
-/

section

open Sys2Proof Sys2Proof.Machine Sys2Proof.Machine.Reg

/-! ### The queue of commands -/

/-- With a command at the front of the queue, a step runs it on the state with the queue's rest; with none a tick passes (the model's
choice: notes/assumptions/1.md). -/
def Obligations.StepRunsTheFrontCommand : Prop :=
  (∀ (c : Instr) (rest : List Instr) (s : State), s.pending = c :: rest → step s = exec c { s with pending := rest }) ∧
  (∀ s : State, s.pending = [] → step s = .next s.tick)

/-- No command is refused and none stops the machine: every command, with any operands, answers a next state in every state. No command
touches the queue, and a step takes no command but the front one. -/
def Obligations.EveryCommandCompletesAndLeavesTheQueue : Prop :=
  ((∀ (c : Instr) (s : State), completes (exec c s)) ∧ (∀ s : State, completes (step s))) ∧
  ((∀ (c : Instr) (s t : State), exec c s = .next t → t.pending = s.pending) ∧
    (∀ s t : State, step s = .next t → t.pending = s.pending.tail))

/-! ### Window A and Window B -/

/-- A write by access codes alone: RW bits take the value written, W1C bits written 1 clear unless hardware has set them in the same BCLK
cycle, every other bit keeps its value, and no other register changes (R7). -/
def Obligations.PlainWriteFollowsAccessCodes : Prop :=
  ∀ (s : State) (a : Nat) (v : Word) (r : RegRow), regRow a = some r →
    (∀ i : Nat, i < 32 → ((s.plainWrite a v).reg a).getLsbD i =
      (((if r.rw.testBit i then v.getLsbD i else (s.reg a).getLsbD i)) && !(r.w1c.testBit i && v.getLsbD i && !(s.keptBits a).getLsbD i))) ∧
    (∀ b : Nat, b ≠ a → (s.plainWrite a v).reg b = s.reg b) ∧
    (s.plainWrite a v) = { s with regs := (s.plainWrite a v).regs }

/-- An address that the manual assigns to no register reads 0 and ignores a write (R9, R24): here the addresses of Window A outside every
block, and those inside the power block that have no row. REGISTER_WRITE and RC_READ: the write follows the rule of its register in its
tick, and the read returns the register's word; a write behind another of its port, of a gated cluster, or second to its register in one
tick waits (R264, R352, R407). MT_LO gives MT in the first tick of the BCLK cycle, and latches MT_HI (R28). A read of a counter with
access RC returns its count at the start of the BCLK cycle and leaves in it what hardware has added in the cycle (R7): the four counters
of the headgate. The order of two writes of one tick is the order in which they are sent: the model's choice (notes/assumptions/9.md,
notes/assumptions/74.md). -/
def Obligations.WindowAAccessesAreServed : Prop :=
  (∀ (s : State) (a : Nat) (v : Word), s.serves → a < 0x1000000 → (13 ≤ a / 0x10000 ∨ a / 0x10000 = 1 ∧ regRow a = none) →
      (s.wroteNow a = false → s.hostBlocked false = false → exec (.registerWrite a v) s = .next (s.noteHost a)) ∧
      exec (.rcRead a) s = .next (s.returning [0])) ∧
  ((∀ (s : State) (a : Nat) (v : Word), s.accepts a v → exec (.registerWrite a v) s = .next ((s.noteHost a).busWrite a v)) ∧
    (∀ (s : State) (a : Nat) (v : Word), s.serves → s.sealLocks a v = false →
      (s.hostBlocked false = true ∨ s.meetsGate a = true ∨ s.wroteNow a = true) →
      exec (.registerWrite a v) s = .next { s with later := s.later ++ [.host false a v] }) ∧
    (∀ (s : State) (a : Nat), s.serves → s.meetsGate a = false →
      ∃ t, exec (.rcRead a) s = .next t ∧ t.hostData = [((s.returning []).busRead a).1]) ∧
    (∀ s : State, s.serves →
      exec .mtLoRead s =
        .next ((s.touchChanged (s.setReg MT_HI (hiWord (s.mt &&& ~~~ 1)))).returning [loWord (s.mt &&& ~~~ 1)]))) ∧
  (∀ (s : State) (a : Nat), s.serves → a ∈ [ACC_ERR_CNT, LOCK_REFUSED_CNT, AUTH_FAIL_CNT, STALE_CNT] →
      ∃ t, exec (.rcRead a) s = .next t ∧ t.hostData = [(s.seen a).reg a] ∧ t.reg a = BitVec.ofNat 32 (s.keptCount a) ∧
        (∀ b, b ≠ a → t.reg b = s.reg b) ∧
        t = { s with regs := t.regs, raised := t.raised, touched := t.touched, hostData := t.hostData })

/-- A PCIe memory request to Window A is successive 32-bit accesses in ascending address order: one of one word writes or reads the register
at its address, and a write of more is the write of its first word followed by the writes of the rest; one whose byte enables are not all
set has no access, is logged, and is answered Unsupported Request (R301). A hot reset of the link returns the configuration space to its
reset values, and nothing else (R300). A request is one command, and what the configuration space holds: the model's choice
(notes/assumptions/67.md, notes/assumptions/68.md). -/
def Obligations.PcieRequestsAreServed : Prop :=
  ((∀ (s : State) (a : Nat) (v : Word), s.accepts a v →
      exec (.pcieMemoryRequest true a [(0xF, v)]) s = .next ((s.noteHost a).busWrite a v)) ∧
    (∀ (s : State) (a : Nat) (v : Word), s.serves → s.meetsGate a = false →
      ∃ t, exec (.pcieMemoryRequest false a [(0xF, v)]) s = .next t ∧ t.hostData = [((s.returning []).busRead a).1] ∧
        exec (.rcRead a) s = .next t) ∧
    (∀ (s : State) (a : Nat) (v : Word) (ds : List (BitVec 4 × Word)), s.serves → (∀ d ∈ ds, d.1 = 0xF) →
      ∃ u t, exec (.registerWrite a v) s = .next u ∧ exec (.pcieMemoryRequest true a ((0xF, v) :: ds)) s = .next t ∧
        t = (ds.map Prod.snd).zipIdx.foldl (fun s e => s.writeA false (a + 4 + 4 * e.2) e.1) u) ∧
    (∀ (s : State) (a : Nat) (v : Word) (be : BitVec 4), s.serves → be ≠ 0xF → ∀ w : Bool,
      ∃ t, exec (.pcieMemoryRequest w a [(be, v)]) s = .next t ∧ t.sent = s.sent ++ [.unsupported a] ∧
        t.reg ACC_ERR_ADDR = BitVec.ofNat 32 a ∧ t.reg ACC_ERR_CNT = satInc (s.reg ACC_ERR_CNT) ∧ t.reservoir = s.reservoir)) ∧
  (∀ s : State, exec .pcieHotReset s =
    .next { s with power := { s.power with msixEnable := false, fnMask := false, cfg := PciConfig.init } })

/-- A Window B write of an accepted width, which meets no uncorrectable error, stores its bytes at its offset, little-endian: a read of
the same bytes returns them, and every other byte of the reservoir and everything else is unchanged (R25). A Window B read that meets an
uncorrectable error completes poisoned and sets RESV_UE; a narrow write that meets one is discarded and sets RESV_UE (R25). A write behind
another of its port that waits keeps its place (R264). The data of the poisoned completion are open. Which widths are accepted: the model's choice (notes/assumptions/56.md). -/
def Obligations.WindowBReadsAndWritesTheReservoir : Prop :=
  ((∀ (s : State) (off size : Nat) (v : BitVec 64), s.serves → s.hostBlocked false = false → windowBOk off size = true →
      (size = 8 ∨ s.resPoisoned off size = false) →
      ∃ t, exec (.windowBWrite off size v) s = .next t ∧ t.resRead off size = v.toNat % 2 ^ (8 * size) ∧
        (∀ a, a < off ∨ off + size ≤ a → Memory.byte t.reservoir a = Memory.byte s.reservoir a) ∧
        t.resPoisoned off size = false ∧ t = { s with reservoir := t.reservoir, poison := t.poison }) ∧
    (∀ (s : State) (off size : Nat), s.serves → windowBOk off size = true → s.resPoisoned off size = false →
      exec (.windowBRead off size) s =
        .next (s.returning (if size = 8 then [loWord (BitVec.ofNat 64 (s.resRead off 8)), hiWord (BitVec.ofNat 64 (s.resRead off 8))]
          else [BitVec.ofNat 32 (s.resRead off size)])))) ∧
  ((∀ (s : State) (off size : Nat), s.serves → windowBOk off size = true → s.resPoisoned off size = true →
      ∃ t, exec (.windowBRead off size) s = .next t ∧ t.sent = s.sent ++ [.poisoned off] ∧ t.bit GSTAT 7 = true ∧
        t.reservoir = s.reservoir ∧ t.poison = s.poison) ∧
    (∀ (s : State) (off size : Nat) (v : BitVec 64), s.serves → s.hostBlocked false = false → windowBOk off size = true → size ≠ 8 →
      s.resPoisoned off size = true →
      ∃ t, exec (.windowBWrite off size v) s = .next t ∧ t.bit GSTAT 7 = true ∧ t.reservoir = s.reservoir ∧ t.poison = s.poison) ∧
    (∀ (s : State) (off size : Nat) (v : BitVec 64), s.serves → s.hostBlocked false = true →
      exec (.windowBWrite off size v) s = .next { s with later := s.later ++ [.windowB off size v] }))

/-- The QSPI frames (R303, R304): a frame of whole words within Window A ends with DONE of the status byte alone, or LOCKED where SEAL has
refused a write, and its words are the accesses of Window A in ascending order, the read ahead of the last word among them; one at a
misaligned address has no access, is logged, and ends with ADDR_ERR; STATUS returns the status byte of the last frame with IRQ; ID returns ID_PART. A frame is one
command: the model's choice (notes/assumptions/67.md). -/
def Obligations.QspiFramesAccessWindowA : Prop :=
  (∀ (s : State) (a n : Nat), s.clocked → a % 4 = 0 → a + 4 * n ≤ 2 ^ 26 → a < 2 ^ 26 →
    (∃ t, exec (.qspiRead 0x0B#8 a n false) s = .next t ∧ exec (.qspiQread a n false) s = .next t ∧ t.hg.qspi = 1 ∧
      (s.serves → s.meetsGate a = false → n = 1 → t.hostData = [((s.returning []).busRead a).1]))) ∧
  (∀ (s : State) (a : Nat) (v : Word), s.portAccepts true a v → a % 4 = 0 → a < 2 ^ 26 →
    exec (.qspiWrite a [v] false) s = .next (((s.noteHost a).busWrite a v).setQspi true false false false) ∧
    exec (.qspiQwrite a [v] false) s = .next (((s.noteHost a).busWrite a v).setQspi true false false false)) ∧
  (∀ (s : State) (a : Nat) (v : Word), s.serves → s.sealLocks a v = true → a % 4 = 0 → a < 2 ^ 26 →
    ∃ t, exec (.qspiWrite a [v] false) s = .next t ∧ exec (.qspiQwrite a [v] false) s = .next t ∧ t.hg.qspi = 8) ∧
  (∀ (s : State) (a n : Nat), s.clocked → a % 4 = 0 → a + 4 * (n + 1) ≤ 2 ^ 26 →
    ∃ t, exec (.qspiRead 0x0B#8 a n false) s = .next t ∧ exec (.qspiQread a n false) s = .next t ∧
      t.hostData = ((List.range (n + 1)).foldl (fun u i => u.readA (a + 4 * i)) (s.returning [])).hostData.take n) ∧
  (∀ (s : State) (a : Nat) (ws : List Word), s.clocked → a % 4 = 0 → a + 4 * ws.length ≤ 2 ^ 26 → a < 2 ^ 26 →
    ∃ locked : Bool, ∀ c ∈ [Instr.qspiWrite a ws false, .qspiQwrite a ws false],
      exec c s = .next ((ws.zipIdx.foldl (fun u e => u.writeA true (a + 4 * e.2) e.1) s).setQspi (!locked) false false locked)) ∧
  (∀ (s : State) (a n : Nat) (ws : List Word) (part : Bool), s.serves → a % 4 ≠ 0 →
    ∀ c ∈ [Instr.qspiRead 0x0B#8 a n part, .qspiQread a n part, .qspiWrite a ws part, .qspiQwrite a ws part],
      ∃ t, exec c s = .next t ∧ t.hg.qspi = 2 ∧ t.reg ACC_ERR_ADDR = BitVec.ofNat 32 a ∧
        t.reg ACC_ERR_CNT = satInc (s.reg ACC_ERR_CNT) ∧ t.reservoir = s.reservoir) ∧
  (∀ s : State, s.clocked → exec .qspiStatus s = .next (s.returning [s.qspiStatusByte])) ∧
  (∀ s : State, s.serves → ∃ t, exec .qspiId s = .next t ∧ t.hostData = [(s.seen ID_PART).reg ID_PART] ∧ t.hg.qspi = 1)

/-! ### Channels -/

/-- Writes to COUNT (R52): taken by a stopped counter up to PERIOD_ACT, else COUNT_WR_ERR. Nothing else changes. -/
def Obligations.CountWriteLoadsAStoppedCounter : Prop :=
  ∀ (k : Fin 384) (v : Word) (s : State), s.accepts (COUNT k) v →
    exec (.countWrite k v) s = .next (
      if s.running k = false ∧ v ≤ s.reg (PERIOD_ACT k) then
        ((s.noteHost (COUNT k)).setReg (COUNT k) v).setBit (CH_STATUS k) 2 false
      else (s.noteHost (COUNT k)).raise (CH_STATUS k) 6)

/-- Reads of COUNT (R63, R64): in a cascade the even channel's read latches the high count into the shadow, which the odd channel's read
returns; outside a cascade each returns its own count. Counts are those of the first tick of the BCLK cycle (R43). The write of PAIR_MODE
that sets a cascade leaves the shadow 0. A write of TAKE to PAIR_SNAPSHOT of an even channel has both counts and MT captured at the end of
its tick, and steps SEQ (R65); one without TAKE captures nothing, and the address is unassigned on an odd channel (R42). -/
def Obligations.CascadesAreReadWhole : Prop :=
  ((∀ (k : Fin 384) (s : State), s.serves → s.pairMode k = 2 → k.val % 2 = 0 →
      exec (.countRead k) s = .next { s.setChan k { s.chan k with hiShadow := (s.seen (COUNT k)).reg (COUNT (k.val + 1)) } with
        touched := COUNT (k.val + 1) :: s.touched, hostData := [(s.seen (COUNT k)).reg (COUNT k)] }) ∧
    (∀ (k : Fin 384) (s : State), s.serves → s.pairMode k = 2 → k.val % 2 = 1 →
      exec (.countRead k) s = .next (s.returning [(s.chan (k.val - 1)).hiShadow])) ∧
    (∀ (k : Fin 384) (s : State), s.serves → s.pairMode k ≠ 2 →
      exec (.countRead k) s = .next (s.returning [(s.seen (COUNT k)).reg (COUNT k)])) ∧
    (∀ (k : Fin 384) (v : Word) (s : State), s.accepts (CH_CTRL k) v → k.val % 2 = 0 → s.bit (CH_CTRL k) 0 = false →
      s.bit (CH_CTRL (k.val + 1)) 0 = false → v.getLsbD 0 = false → s.pairMode k ≠ 2 → bitsOf v 23 22 = 2 →
      ∃ t, exec (.chCtrlWrite k v) s = .next t ∧ t.pairMode k = 2 ∧ (t.chan k).hiShadow = 0)) ∧
  ((∀ (k : Fin 384) (v : Word) (s : State), s.accepts (PAIR_SNAPSHOT k) v → v.getLsbD 0 = true → k.val % 2 = 0 →
      exec (.pairSnapshotTake k v) s = .next ((s.noteHost (PAIR_SNAPSHOT k)).noteTake (.pair k))) ∧
    (∀ (k : Fin 384) (s : State), k.val % 2 = 0 → s.takes = [.pair k] →
      ∃ t, s.runTakes = t ∧ t.reg (PAIR_SNAP_LO k) = s.reg (COUNT k) ∧
        t.reg (PAIR_SNAP_HI k) = s.reg (COUNT (k.val + 1)) ∧ t.pair (PAIR_SNAP_MT_LO k) (PAIR_SNAP_MT_HI k) = s.mt ∧
        t.fld (PAIR_SNAP_SEQ k) 15 0 = (s.fld (PAIR_SNAP_SEQ k) 15 0 + 1) % 65536 ∧
        (∀ a, a ∉ [PAIR_SNAP_LO k, PAIR_SNAP_HI k, PAIR_SNAP_MT_LO k, PAIR_SNAP_MT_HI k, PAIR_SNAP_SEQ k] → t.reg a = s.reg a) ∧
        t = { s with regs := t.regs, takes := [] }) ∧
    (∀ (k : Fin 384) (v : Word) (s : State), k.val % 2 = 0 → s.accepts (PAIR_SNAPSHOT k) v → v.getLsbD 0 = false →
      exec (.pairSnapshotTake k v) s = .next (s.noteHost (PAIR_SNAPSHOT k))) ∧
    (∀ (k : Fin 384) (v : Word) (s : State), k.val % 2 = 1 → s.accepts (CH_CTRL k + 0x018) v →
      exec (.pairSnapshotTake k v) s = .next (s.noteHost (CH_CTRL k + 0x018))))

/-- CH_CTRL (R47, R48, R53): a write that changes MODE, CLK_SRC, RELOAD_PEAK or PAIR_MODE with EN 1 before or after it, or PAIR_MODE with
the odd partner enabled, is ignored and sets CFG_REFUSED; any other write that leaves PAIR_MODE as it is takes effect, starts a counter
that it lets run, and stops one that it does not. A preload that has taken its write in the tick of the stop is copied at its end (R49,
R67, R74): the model's choice in a tick of several writes (notes/assumptions/75.md). -/
def Obligations.ChCtrlWriteHoldsTheModeRules : Prop :=
  (∀ (k : Fin 384) (v : Word) (s : State), s.accepts (CH_CTRL k) v →
    let new := mergeWord (s.reg (CH_CTRL k)) v (if k.val % 2 = 0 then 0x00F00711#32 else 0x00300711#32)
    (s.reg (CH_CTRL k) ^^^ new) &&& 0x00D00710#32 ≠ 0 → (s.bit (CH_CTRL k) 0 = true ∨ new.getLsbD 0 = true ∨
      bitsOf (s.reg (CH_CTRL k)) 23 22 ≠ bitsOf new 23 22 ∧ s.bit (CH_CTRL (k.val + 1)) 0 = true) →
    exec (.chCtrlWrite k v) s = .next ((s.noteHost (CH_CTRL k)).raise (CH_STATUS k) 7)) ∧
  (∀ (k : Fin 384) (v : Word) (s : State), s.accepts (CH_CTRL k) v →
    let new := mergeWord (s.reg (CH_CTRL k)) v (if k.val % 2 = 0 then 0x00F00711#32 else 0x00300711#32)
    bitsOf (s.reg (CH_CTRL k)) 23 22 = bitsOf new 23 22 →
    ((s.reg (CH_CTRL k) ^^^ new) &&& 0x00D00710#32 = 0 ∨ s.bit (CH_CTRL k) 0 = false ∧ new.getLsbD 0 = false) →
    let t := (s.noteHost (CH_CTRL k)).setReg (CH_CTRL k) new
    exec (.chCtrlWrite k v) s = .next (
      if s.running k = false ∧ t.running k = true then t.beginRun k
      else if s.running k = true ∧ t.running k = false then (t.stopped k).copyWritten k else t)) ∧
  (∀ (k : Fin 384) (s : State),
    (s.wroteAlready (PERIOD k) = true → (s.copyWritten k).reg (PERIOD_ACT k) = s.reg (PERIOD k)) ∧
    (s.wroteAlready (OUT_FINE k) = true → ((s.copyWritten k).chan k).outFineAct = s.reg (OUT_FINE k)) ∧
    (s.wroteAlready (OUT_CTRL k) = true → (s.copyWritten k).fld (OUT_CTRL k) 14 12 = s.fld (OUT_CTRL k) 2 0) ∧
    ((∀ a, s.wroteAlready a = false) → s.copyWritten k = s))

/-- A write to PERIOD, PRESC, CMP_x or CMP_CFG (R47, R49, R57 to R59): preloads wait for the next copy point while the counter runs and
are copied at once while it is stopped; a live compare takes its value at once, and one that the count has passed sets BEHIND_x. -/
def Obligations.CounterPreloadsWaitForTheCopy : Prop :=
  (∀ (k : Fin 384) (v : Word) (s : State), s.accepts (PERIOD k) v →
    exec (.periodWrite k false v) s = .next (
      let t := (s.noteHost (PERIOD k)).setReg (PERIOD k) v
      if s.running k = true then t
      else if s.bit (CH_CTRL k) 0 = true ∧ v ≠ 0 then (t.setReg (PERIOD_ACT k) v).beginRun k else t.setReg (PERIOD_ACT k) v)) ∧
  (∀ (k : Fin 384) (v : Word) (s : State), s.accepts (PRESCALE k) v →
    exec (.periodWrite k true v) s = .next (
      let t := (s.noteHost (PRESCALE k)).setFld (PRESCALE k) 15 0 (bitsOf v 15 0)
      if s.running k = true then t else t.setFld (PRESCALE k) 31 16 (bitsOf v 15 0))) ∧
  (∀ (k : Fin 384) (x : Fin 4) (v : Word) (s : State), s.accepts (CMP k x) v → s.cmpLive k x = false →
    exec (.cmpPreloadWrite k x v) s = .next (
      let t := (s.noteHost (CMP k x)).setReg (CMP k x) v
      if s.running k = true then t else t.setReg (CMP_ACT k x) v)) ∧
  (∀ (k : Fin 384) (x : Fin 4) (v : Word) (s : State), s.accepts (CMP k x) v → s.cmpLive k x = true →
    exec (.cmpLiveWrite k x v) s = .next (
      let t := ((s.noteHost (CMP k x)).setReg (CMP k x) v).setReg (CMP_ACT k x) v
      if s.running k = false ∨ s.reg (PERIOD_ACT k) < v then t
      else if v = s.reg (COUNT k) then
        t.setChan k { s.chan k with writeTrig := (s.chan k).writeTrig ++ [(x.val, s.mt + 1, v)] }
      else if (s.bit (CH_STATUS k) 2 = true ∧ s.reg (COUNT k) < v) ∨ (s.bit (CH_STATUS k) 2 = false ∧ v < s.reg (COUNT k)) then
        t.raise (CMP_STATUS k) (8 + x.val)
      else t)) ∧
  (∀ (k : Fin 384) (v : Word) (s : State), s.accepts (CMP_CFG k) v →
    exec (.cmpCfgWrite k v) s = .next (
      let t := (s.noteHost (CMP_CFG k)).setFld (CMP_CFG k) 7 0 (bitsOf v 7 0)
      if s.running k = true then t else t.copyCmpCfg k))

/-- A counter that runs, in up mode and without a prescaler, steps at a source event (R44, R45): below PERIOD_ACT the count goes one up
and its compares are tried; at PERIOD_ACT it returns to 0, which is a period end. With the prescaler, an event that does not complete its
group only advances the phase. The start tick is a period end with the held count (R47), and a write trigger is a match of its compare
(R55). An event's row acts only when its event is due: the model's choice (notes/assumptions/2.md, notes/assumptions/75.md). -/
def Obligations.CountersStepAtSourceEvents : Prop :=
  (∀ (k : Fin 384) (s : State), s.clocked → s.running k = true → (s.chan k).startDue = none → (s.chan k).lastSource ≠ some s.mt →
    s.cascadeHi k = false → s.sourceEvent k = true → (s.chan k).phase < s.fld (PRESCALE k) 31 16 →
    exec (.countingStep k) s = .next (s.setChan k { s.chan k with lastSource := some s.mt, phase := (s.chan k).phase + 1 })) ∧
  (∀ (k : Fin 384) (s : State), s.clocked → s.running k = true → (s.chan k).startDue = none → (s.chan k).lastSource ≠ some s.mt →
    s.cascadeHi k = false → s.sourceEvent k = true → s.fld (PRESCALE k) 31 16 ≤ (s.chan k).phase → s.bit (CH_CTRL k) 4 = false →
    s.reg (COUNT k) < s.reg (PERIOD_ACT k) →
    ∃ t, exec (.countingStep k) s = .next t ∧ t.reg (COUNT k) = s.reg (COUNT k) + 1 ∧ t.bit (CH_STATUS k) 2 = false ∧
      (t.chan k).lastSource = some s.mt ∧ (t.chan k).phase = 0) ∧
  (∀ (k : Fin 384) (s : State), s.clocked → s.running k = true → (s.chan k).startDue = none → (s.chan k).lastSource ≠ some s.mt →
    s.cascadeHi k = false → s.sourceEvent k = true → s.fld (PRESCALE k) 31 16 ≤ (s.chan k).phase → s.bit (CH_CTRL k) 4 = false →
    s.reg (PERIOD_ACT k) ≤ s.reg (COUNT k) →
    ∃ t, exec (.countingStep k) s = .next t ∧ t.reg (COUNT k) = 0 ∧ t.bit (CH_STATUS k) 5 = true ∧ (t.chan k).lastPeriod = some s.mt) ∧
  (∀ (k : Fin 384) (s : State) (due : Tick), s.clocked → (s.chan k).startDue = some due → s.reached due = true → s.running k = true →
    ∃ t, exec (.startTick k) s = .next t ∧ t.bit (CH_STATUS k) 5 = true ∧ (t.chan k).lastPeriod = some s.mt ∧
      (t.chan k).startDue = none) ∧
  (∀ (k : Fin 384) (x : Fin 4) (s : State) (e : Nat × Tick × Word), s.clocked → (s.chan k).trigDue s x = some e → s.running k = true →
    s.cmpEnabled k x = true → e.2.2 ≤ s.reg (PERIOD_ACT k) → s.matchedNow k x = false →
    ∃ t, exec (.writeTrigger k x) s = .next t ∧ t.bit (CMP_STATUS k) x = true ∧
      (t.chan k).writeTrig = (s.chan k).writeTrig.erase e ∧
      t.bit (CMP_STATUS k) (4 + x.val) = (s.bit (CMP_STATUS k) (4 + x.val) || (s.chan k).matched.getLsbD x))

/-! ### Outputs, edges and pulse trains -/

/-- Writes to OUT_CTRL, OUT_FINE and DT_CFG (R67, R70, R74): IDLE, SYNC_FWD and SYNC_DRV take effect at once; OUT_MODE, OUT_FINE and
DT_CFG are preloads, copied at once while the counter is stopped. DT_CFG exists on even channels. -/
def Obligations.OutputConfigurationIsPreloaded : Prop :=
  (∀ (k : Fin 384) (v : Word) (s : State), s.accepts (OUT_CTRL k) v → s.running k = true → s.bit (OUT_STATUS k) 1 = false →
    exec (.outCtrlWrite k v) s =
      .next ((s.noteHost (OUT_CTRL k)).setReg (OUT_CTRL k) (mergeWord (s.reg (OUT_CTRL k)) v 0x00000F07#32))) ∧
  (∀ (k : Fin 384) (v : Word) (s : State), s.accepts (OUT_CTRL k) v →
    ∃ t, exec (.outCtrlWrite k v) s = .next t ∧ t.fld (OUT_CTRL k) 11 8 = bitsOf v 11 8 ∧ t.fld (OUT_CTRL k) 2 0 = bitsOf v 2 0 ∧
      t.fld (OUT_CTRL k) 14 12 = (if s.running k = true then s.fld (OUT_CTRL k) 14 12 else bitsOf v 2 0)) ∧
  (∀ (k : Fin 384) (v : Word) (s : State), s.accepts (OUT_FINE k) v →
    exec (.outFineWrite k false v) s = .next (
      let w := mergeWord (s.reg (OUT_FINE k)) v 0x003F3F3F#32
      let t := (s.noteHost (OUT_FINE k)).setReg (OUT_FINE k) w
      if s.running k = true then t else t.setChan k { s.chan k with outFineAct := w })) ∧
  (∀ (k : Fin 384) (v : Word) (s : State), k.val % 2 = 0 → s.accepts (DT_CFG k) v →
    exec (.outFineWrite k true v) s = .next (
      let t := (s.noteHost (DT_CFG k)).setReg (DT_CFG k) v
      if s.running k = true then t else t.setChan k { s.chan k with dtAct := v })) ∧
  (∀ (k : Fin 384) (v : Word) (s : State), k.val % 2 = 1 → s.accepts (CH_CTRL k + 0x068) v →
    exec (.outFineWrite k true v) s = .next (s.noteHost (CH_CTRL k + 0x068)))

/-- SYNC (R50, R84, R85): a pulse that has arrived sets SYNC_SEEN on every channel of its cluster, and one that has not leaves all as it
is; a SYNC_IN pulse of 2 ticks or longer reaches cluster 0 three ticks later, and a shorter one does so or does nothing; the SYNC_OUT ball
falls at the stamp of its pulse's end. An event's row acts only when its event is due: the model's choice (notes/assumptions/2.md). -/
def Obligations.SyncPulsesRunThroughTheClusters : Prop :=
  (∀ (n : Fin 24) (s : State) (u : Tick), s.clocked → u ∈ (s.weir n).syncDue → s.reached u = true →
    ∃ t, exec (.syncPulseArrival n) s = .next t ∧ (∀ j : Nat, j < 16 → t.bit (OUT_STATUS (n.val * 16 + j)) 2 = true) ∧ t.mt = s.mt) ∧
  (∀ (n : Fin 24) (s : State), (∀ u ∈ (s.weir n).syncDue, s.reached u = false) → exec (.syncPulseArrival n) s = .next s) ∧
  (∀ (m : Nat) (s : State), s.clocked → 2 ≤ m → s.mt + 3 ∉ (s.weir 0).syncDue →
    exec (.syncInEdge m) s = .next (s.setWeir 0 { s.weir 0 with syncDue := (s.weir 0).syncDue ++ [s.mt + 3] })) ∧
  (∀ (m : Nat) (s : State), s.clocked → m < 2 →
    exec (.syncInEdge m) s = .next s.useFree ∨ exec (.syncInEdge m) s = .next (s.useFree.syncInput 0 (s.mt + 3))) ∧
  (∀ (s : State) (r f : Stamp) (rest : List (Stamp × Stamp)), s.clocked → s.power.syncOut = (r, f) :: rest → s.stampReached f = true →
    exec .syncOutFall s = .next { s with power := { s.power with syncOut := rest } })

/-- The edge unit of a channel outside a complementary pair (R75): the earliest commanded edge, in the tick of its stamp, changes the
output when it lies 256 fine steps or more after the last edge, and else is held until then; a held edge leaves at its stamp. A delayed
rise of a pair leaves once its dead time is over (R76). An event's row acts only when its event is due: the model's choice
(notes/assumptions/2.md). -/
def Obligations.EdgesLeaveTheEdgeUnitAtTheirStamps : Prop :=
  (∀ (k : Fin 384) (s : State) (e : Edge) (rest : List Edge), s.clocked → (s.chan k).edges = e :: rest → s.inPair k = false →
    s.stampReached (s.pickEdge e rest).1.stamp = true → (s.chan k).held = none → (s.chan k).delayed = none →
    (s.pickEdge e rest).1.level ≠ s.outLevel k → (∀ l, s.lastEdge k = some l → 256 ≤ ahead (s.pickEdge e rest).1.stamp l) →
    ∃ t, exec (.edgeEmit k) s = .next t ∧ t.outLevel k = (s.pickEdge e rest).1.level ∧
      (t.chan k).lastEdge = some (s.pickEdge e rest).1.stamp ∧ (t.chan k).edges = (s.pickEdge e rest).2) ∧
  (∀ (k : Fin 384) (s : State) (e : Edge) (rest : List Edge) (l : Stamp), s.clocked → (s.chan k).edges = e :: rest → s.inPair k = false →
    s.stampReached (s.pickEdge e rest).1.stamp = true → (s.chan k).held = none → (s.chan k).delayed = none →
    (s.pickEdge e rest).1.level ≠ s.outLevel k → s.lastEdge k = some l → ahead (s.pickEdge e rest).1.stamp l < 256 →
    exec (.edgeEmit k) s = .next ((s.setChan k { s.chan k with
      edges := (s.pickEdge e rest).2, held := some { (s.pickEdge e rest).1 with stamp := l + 256 } }).raise (OUT_STATUS k) 0)) ∧
  (∀ (k : Fin 384) (s : State) (h : Edge), s.clocked → (s.chan k).held = some h → s.stampReached h.stamp = true →
    ∃ t, exec (.pendingEdgeEmit k) s = .next t ∧ t.outLevel k = h.level ∧ (t.chan k).lastEdge = some h.stamp ∧ (t.chan k).held = none) ∧
  (∀ (k : Fin 384) (s : State) (d : Edge), s.clocked → (s.chan k).delayed = some d → s.stampReached (s.riseStamp k d) = true →
    (s.chan k).held = none → (s.chan (partnerCh k)).held = none → s.outLevel k = false → s.lastEdge k = none →
    ∃ t, exec (.deadTimeRise k) s = .next t ∧ t.outLevel k = true ∧ (t.chan k).lastEdge = some (s.riseStamp k d) ∧
      (t.chan k).delayed = none)

/-- Pulse trains (R78 to R82): START is accepted in TRAIN mode by an up-counting counter that runs with no train, and refused otherwise
with START_REFUSED and nothing else but its event; STOP is noted for an active train, the first of two alone; PT_CMD is not written while a train is active; a
read of PT_EMIT latches PT_SKIP and PT_REMAIN of the start of the BCLK cycle. -/
def Obligations.PulseTrainsStartAndStop : Prop :=
  (∀ (k : Fin 384) (v : Word) (s : State), s.accepts (PT_CTRL k) v → v.getLsbD 0 = true → v.getLsbD 1 = false → s.startOk k = true →
    ∃ t, exec (.ptStart k v) s = .next t ∧ t.reg (PT_EMIT k) = 0 ∧ (t.chan k).ptSkip = 0 ∧ (t.chan k).ptRemain = s.reg (PT_CMD k) ∧
      t.trainActive k = decide (s.reg (PT_CMD k) ≠ 0) ∧
      (t.chan k).trainStart = some { due := s.mt + 1, restart := s.reg (PT_CMD k) != 0 } ∧ (t.chan k).firstFine = none ∧
      (∀ a, a ≠ PT_EMIT k → a ≠ PT_STATUS k → t.reg a = s.reg a)) ∧
  (∀ (k : Fin 384) (v : Word) (s : State), s.accepts (PT_CTRL k) v → v.getLsbD 0 = true → v.getLsbD 1 = false → s.startOk k = false →
    exec (.ptStart k v) s = .next (((s.noteHost (PT_CTRL k)).raise (PT_STATUS k) 3).chanEvent k 2)) ∧
  (∀ (k : Fin 384) (v : Word) (s : State), s.accepts (PT_CTRL k) v → v.getLsbD 1 = true → v.getLsbD 0 = false →
    exec (.ptStop k v) s = .next (
      if s.trainActive k = true ∧ (s.chan k).stopReq = none then (s.noteHost (PT_CTRL k)).setChan k { s.chan k with stopReq := some s.mt }
      else s.noteHost (PT_CTRL k))) ∧
  (∀ (k : Fin 384) (s : State) (ts : TrainStart), s.clocked → (s.chan k).trainStart = some ts → s.reached ts.due = true →
    ts.restart = true → s.running k = true → (s.chan k).lastPeriod ≠ some s.mt → (s.chan k).lastStart ≠ some s.mt →
    ∃ t, exec (.ptRestart k) s = .next t ∧ t.reg (COUNT k) = 0 ∧ t.bit (CH_STATUS k) 5 = true ∧ (t.chan k).trainStart = none) ∧
  (∀ (k : Fin 384) (s : State) (ts : TrainStart), s.clocked → (s.chan k).trainStart = some ts → s.reached ts.due = true →
    ts.restart = false → exec (.ptRestart k) s =
      .next (((s.setChan k { s.chan k with trainStart := none }).raise (PT_STATUS k) 1).chanEvent k 1)) ∧
  (∀ (k : Fin 384) (v : Word) (s : State), s.accepts (PT_CMD k) v →
    exec (.ptCmdWrite k v) s = .next (
      if s.trainActive k = true then (s.noteHost (PT_CMD k)).raise (PT_STATUS k) 4
      else (s.noteHost (PT_CMD k)).setReg (PT_CMD k) v)) ∧
  (∀ (k : Fin 384) (s : State), s.serves → exec (.ptEmitRead k) s =
      .next (let q := s.seen (PT_EMIT k)
        (s.touchChanged ((s.setReg (PT_SKIP k) (q.chan k).ptSkip).setReg (PT_REMAIN k) (q.chan k).ptRemain)).returning
          [q.reg (PT_EMIT k)]))

/-! ### Delay-line calibration, capture and the pin matrix -/

/-- The calibration schedule (R89, R93 to R95): a due slot begins the measurement of its channel's off-duty line and sets the next slot 8
000 ticks on; the round's end makes CAL_READY; EN of CAL_CTRL stops or resumes the schedule and does not touch an initial round. An
event's row acts only when its event is due: the model's choice (notes/assumptions/2.md, notes/assumptions/77.md). -/
def Obligations.CalibrationRunsInSlots : Prop :=
  (∀ (s : State) (u : Tick), s.clocked → s.cal.slotDue = some u → s.reached u = true → s.cal.initial = none → s.cal.measuring = none →
    s.cal.nextCh < 384 →
    ∃ t, exec .calSlotStart s = .next t ∧ t.cal.measuring = some (s.cal.nextCh, s.mt + 1000) ∧ t.cal.slotDue = some (s.mt + 8000) ∧
      t.cal.nextCh = (s.cal.nextCh + 1) % 384 ∧ t.fld CALENG_CAL_STATUS 24 16 = s.cal.nextCh ∧
      (∀ a, a ≠ CALENG_CAL_STATUS → a ≠ CAL_ROUND → t.reg a = s.reg a)) ∧
  (∀ (s : State) (b : Bool), s.clocked → s.cal.initial = some (384, b) →
    ∃ t, exec .initialRoundEnd s = .next t ∧ t.bit CALENG_CAL_STATUS 0 = true ∧ t.bit CALENG_CAL_STATUS 1 = false ∧
      t.cal.initial = none ∧ t.cal.slotDue = (if s.bit CALENG_CAL_CTRL 0 = true then some (s.mt + 1) else none) ∧ t.chans = s.chans) ∧
  (∀ (v : Word) (s : State), s.accepts CALENG_CAL_CTRL v →
    exec (.calCtrlWrite v) s = .next (
      let t := (s.noteHost CALENG_CAL_CTRL).setBit CALENG_CAL_CTRL 0 (v.getLsbD 0)
      if s.cal.initial ≠ none ∨ s.bit CALENG_CAL_CTRL 0 = v.getLsbD 0 then t
      else { t with cal := { s.cal with slotDue := if v.getLsbD 0 = true then some (s.mt + 1) else none,
                                        tdc := if v.getLsbD 0 = false ∧ s.cal.measuring = none then none else s.cal.tdc } }))

/-- The service of the delay lines (R88 to R92, R100): a measurement of 64 to 92 taps makes the off-duty line fresh and any other fails
it; a fresh line takes service at a swap point; a line whose measurement is older than 7 680 µs is CAL_STALE, and a TDC whose calibration
is older than 7.68 ms has TDC_AGE_OVR. An event's row acts only when its event is due: the model's choice (notes/assumptions/2.md,
notes/assumptions/77.md). -/
def Obligations.FreshLinesTakeService : Prop :=
  (∀ (s : State) (k : Nat) (u : Tick) (p0 p1 p2 p3 p4 : BitVec 16), s.clocked → s.cal.measuring = some (k, u) → s.cal.initial = none →
    64 * 256 ≤ (p4 - p0).toNat → (p4 - p0).toNat ≤ 92 * 256 →
    ∃ t, exec (.calMeasurementDone p0 ⟨p1, p2, p3, p4⟩) s = .next t ∧ (t.chan k).fresh = some (s.mt, p4 - p0) ∧
      t.fld (EU_TAPS k) 31 16 = (p4 - p0).toNat ∧ t.bit (EU_STATUS k) 2 = true ∧ t.cal.measuring = none ∧
      (if s.offLine k = 0 then (t.chan k).map0 = some ⟨p0, p1, p2, p3, p4⟩ ∧ (t.chan k).map1 = (s.chan k).map1
       else (t.chan k).map0 = (s.chan k).map0)) ∧
  (∀ (s : State) (k : Nat) (u : Tick) (p0 p1 p2 p3 p4 : BitVec 16), s.clocked → s.cal.measuring = some (k, u) → s.cal.initial = none →
    ((p4 - p0).toNat < 64 * 256 ∨ 92 * 256 < (p4 - p0).toNat) →
    ∃ t, exec (.calMeasurementDone p0 ⟨p1, p2, p3, p4⟩) s = .next t ∧ (t.chan k).fresh = none ∧ t.reg CAL_FAIL = satInc (s.reg CAL_FAIL) ∧
      t.bit (EU_STATUS k) 2 = false ∧ t.cal.measuring = none) ∧
  (∀ (k : Fin 384) (s : State) (u : Tick) (tpt : BitVec 16), s.clocked → (s.chan k).fresh = some (u, tpt) → s.swapPoint k = true →
    s.measuringCh k = false →
    ∃ t, exec (.lineSwap k) s = .next t ∧ t.fld (EU_TAPS k) 15 0 = tpt.toNat ∧ t.fld (EU_TAPS k) 31 16 = s.fld (EU_TAPS k) 15 0 ∧
      t.fld (EU_STATUS k) 0 0 = 1 - s.fld (EU_STATUS k) 0 0 ∧ t.bit (EU_STATUS k) 5 = false ∧
      t.reg (SWAP_CNT k) = s.reg (SWAP_CNT k) + 1 ∧ (t.chan k).fresh = none ∧ (t.chan k).measured = some u) ∧
  (∀ (k : Fin 384) (s : State), s.clocked → 7680 < s.age k → s.bit (EU_STATUS k) 3 = false →
    exec (.calStaleExpiry k) s = .next ((s.setBit (EU_STATUS k) 3 true).chanEvent k 4)) ∧
  (∀ (k : Fin 384) (s : State), s.clocked → (∀ u, (s.chan k).tdcCal = some u → 6144000 < (s.mt - u).toNat) →
    exec (.tdcAgeExpiry k) s = .next (s.setBit (EU_STATUS k) 6 true))

/-- CAP_CTRL and the capture registers (R102 to R104): DISARM acts alone; ARM without it takes the stamp of its tick as the arm stamp; a
read of CAP_RISE_LO latches the six shadows, of the start of the BCLK cycle, and clears OVR unless an edge is stored in the cycle. An edge
that no later edge can discard any more is stored with its stamp, unless a later ARM has put the arm stamp after it. When the conditions are
tested: the model's choice (notes/assumptions/78.md). -/
def Obligations.CaptureArmsStoresAndLatches : Prop :=
  (∀ (k : Fin 384) (v : Word) (s : State), s.accepts (CAP_CTRL k) v → v.getLsbD 2 = true →
    exec (.capDisarm k v) s = .next (
      ((s.noteHost (CAP_CTRL k)).setReg (CAP_CTRL k) (mergeWord (s.reg (CAP_CTRL k)) v 0x0000F038#32)).setBit (CAP_STATUS k) 0 false)) ∧
  (∀ (k : Fin 384) (v : Word) (s : State), s.accepts (CAP_CTRL k) v → v.getLsbD 1 = true → v.getLsbD 2 = false →
    exec (.capArm k v) s = .next (
      (((s.noteHost (CAP_CTRL k)).setReg (CAP_CTRL k) (mergeWord (s.reg (CAP_CTRL k)) v 0x0000F038#32)).setBit (CAP_STATUS k) 0 true).setPair
        (CAP_ARM_LO k) (CAP_ARM_HI k) (s.mt <<< 6))) ∧
  (∀ (k : Fin 384) (s : State), s.serves →
    let q := (s.seen (CAP_RISE_LO k)).chan k
    ∃ t, exec (.capRiseLoRead k) s = .next t ∧ t.hostData = [loWord q.capRise] ∧ t.reg (CAP_RISE_HI k) = hiWord q.capRise ∧
      t.pair (CAP_FALL_LO k) (CAP_FALL_HI k) = q.capFall ∧
      t.pair (CAP_WIDTH_LO k) (CAP_WIDTH_HI k) = q.capWidth.zeroExtend 64 ∧ t.reg (CAP_SEQ k) = q.capSeq ∧
      t.bit (CAP_STATUS k) 1 = (s.bit (CAP_STATUS k) 1 && decide ((s.chan k).capSeq ≠ q.capSeq)) ∧
      (t.chan k).capRise = (s.chan k).capRise) ∧
  (∀ (k : Fin 384) (s : State) (e : Edge), s.clocked → (s.chan k).capPend = [e] → e.counted = true → s.bit (CAP_STATUS k) 0 = true →
    24 ≤ ahead s.now e.stamp → (s.capFilt k : Int) ≤ ahead s.now e.stamp →
    ∃ t, exec (.captureStore k) s = .next t ∧ (t.chan k).capPend = [] ∧
      (if s.notLater (s.pair (CAP_ARM_LO k) (CAP_ARM_HI k)) e.stamp = false then
         (t.chan k).capSeq = (s.chan k).capSeq ∧ (t.chan k).capRise = (s.chan k).capRise ∧ (t.chan k).capFall = (s.chan k).capFall
       else (t.chan k).capSeq = (s.chan k).capSeq + 1 ∧
         (if e.level then (t.chan k).capRise = e.stamp ∧ (t.chan k).capFall = (s.chan k).capFall
          else (t.chan k).capFall = e.stamp ∧ (t.chan k).capRise = (s.chan k).capRise))) ∧
  (∀ (k : Fin 384) (s : State) (e l : Edge), s.clocked → (s.chan k).capPend = [e, l] → e.counted = true → s.bit (CAP_STATUS k) 0 = true →
    reverses (s.capFilt k) e l = false → s.notLater (s.pair (CAP_ARM_LO k) (CAP_ARM_HI k)) e.stamp = true →
    ∃ t, exec (.captureStore k) s = .next t ∧ (t.chan k).capPend = [l] ∧ (t.chan k).capSeq = (s.chan k).capSeq + 1)

/-- An edge of a channel's input that its source can show is stamped in its tick (R97); two edges closer than 24 fine steps are discarded
and counted (R99). A write to PIN_OUT_SEL or CH_IN_SEL takes effect at the next tick boundary (R21). An event's row acts only when its
event is due: the model's choice (notes/assumptions/2.md, notes/assumptions/77.md, notes/assumptions/78.md). -/
def Obligations.InputEdgesAreStamped : Prop :=
  (∀ (k : Fin 384) (f : BitVec 6) (lvl : Bool) (s : State), s.clocked → s.inputCan k (stampAt s.mt f) lvl = true →
    (∀ l, (s.chan k).lastIn = some l → 24 ≤ (stampAt s.mt f - l).toNat) →
    ∃ t, exec (.inputEdge k f lvl) s = .next t ∧ (t.chan k).lastIn = some (stampAt s.mt f) ∧ (t.chan k).inLevel = lvl) ∧
  (∀ (k : Fin 384) (f : BitVec 6) (lvl : Bool) (s : State) (l : Stamp), s.clocked → s.inputCan k (stampAt s.mt f) lvl = true →
    (s.chan k).lastIn = some l → (stampAt s.mt f - l).toNat < 24 →
    ∃ t, exec (.inputEdge k f lvl) s = .next t ∧ (t.chan k).lastIn = none ∧ (t.chan k).inLevel = lvl ∧
      t.reg (GLITCH_CNT k) = satInc (s.reg (GLITCH_CNT k)) ∧ (∀ e ∈ (t.chan k).capPend, e.stamp ≠ l)) ∧
  (∀ (p : Fin 256) (v : Word) (s : State), s.accepts (PIN_OUT_SEL p) v →
    exec (.pinSelWrite (PIN_OUT_SEL p) v) s = .next (
      let w := mergeWord (s.reg (PIN_OUT_SEL p)) v 0x000F81FF#32
      ((s.noteHost (PIN_OUT_SEL p)).setReg (PIN_OUT_SEL p) w).setPin p { s.pin p with selDue := some (s.mt + 1, w) })) ∧
  (∀ (k : Fin 384) (v : Word) (s : State), s.accepts (CH_IN_SEL k) v →
    exec (.pinSelWrite (CH_IN_SEL k) v) s = .next (
      let w := mergeWord (s.reg (CH_IN_SEL k)) v 0x00000FFF#32
      ((s.noteHost (CH_IN_SEL k)).setReg (CH_IN_SEL k) w).setChan k { s.chan k with inSelDue := some (s.mt + 1, w) }))

/-! ### Trips, mittens and the watchdog -/

/-- Trip inputs (R106, R108): without a filter an edge is followed at once; with one the sample of each tick tells whether the new level
still holds, and the level is taken once FILT ticks have shown it. The trip path has no power in HIBERNATE (R121).
An active source that no cuff blocks makes each enabled, selecting mitten that does not force take it. TRIP_CFG takes effect a tick later.
An event's row acts only when its event is due: the model's choice (notes/assumptions/2.md). -/
def Obligations.TripsAreTakenByTheirMittens : Prop :=
  (∀ (i : Fin 32) (lvl : Bool) (s : State), s.padsOff = false → s.bit TRIP_RAW i ≠ lvl → s.tripFilt i = 0 →
    exec (.tripInputEdge i lvl) s =
      .next (((s.setBit TRIP_RAW i lvl).setTrip i { s.trip i with since := none }).setTripActive i (lvl != (s.trip i).cfg.getLsbD 8))) ∧
  (∀ (i : Fin 32) (lvl : Bool) (s : State), s.bit TRIP_RAW i ≠ lvl → s.padsOff = true ∨ s.tripFilt i ≠ 0 →
    exec (.tripInputEdge i lvl) s = .next (s.setBit TRIP_RAW i lvl)) ∧
  (∀ (i : Fin 32) (s : State), s.tripFilt i ≠ 0 →
    s.tripSample i = (
      if (s.bit TRIP_RAW i != (s.trip i).cfg.getLsbD 8) = s.bit TRIP_ACTIVE i then s.setTrip i { s.trip i with since := none }
      else if (s.trip i).since = none then s.setTrip i { s.trip i with since := some s.mt } else s)) ∧
  (∀ (i : Fin 32) (s : State) (u : Tick), (s.trip i).since = some u → s.reached (u + BitVec.ofNat 64 (s.tripFilt i)) = true →
    exec (.tripFilterQualify i) s = .next ((s.setTrip i { s.trip i with since := none }).setTripActive i (!s.bit TRIP_ACTIVE i))) ∧
  (∀ (i : Fin 32) (s : State) (m : Nat), m < 32 → s.padsOff = false → s.bit TRIP_RAW i = false → s.tripFilt i = 0 → (s.trip i).cfg.getLsbD 8 = false →
    s.bit TRIP_ACTIVE i = false → s.bit (MIT_MODE m) 0 = true → s.bit (MIT_MASK m) i = true → s.cuffOpen m = false →
    s.forcing m = false →
    ∃ t, exec (.tripInputEdge i true) s = .next t ∧ t.bit TRIP_ACTIVE i = true ∧ t.forcing m = true ∧
      t.bit (MIT_STATUS m) 1 = (!s.bit (MIT_MODE m) 1 || s.bit (MIT_STATUS m) 1) ∧ t.fld (MIT_STATUS m) 13 8 = i ∧
      t.pair (MIT_TAKE_LO m) (MIT_TAKE_HI m) = s.now) ∧
  (∀ (i : Fin 32) (v : Word) (s : State), s.accepts (TRIP_CFG i) v →
    exec (.tripCfgWrite i v) s = .next (
      let w := mergeWord (s.reg (TRIP_CFG i)) v 0x1FF#32
      ((s.noteHost (TRIP_CFG i)).setReg (TRIP_CFG i) w).setTrip i { s.trip i with cfgDue := some (s.mt + 1, w) }))

/-- Cuffs, release and interlock (R108, R112, R113, R115): in the first tick after a cuff closes the lowest of the sources it blocks is
taken; a source still active CUFF + 1 ticks after it became active is taken although the cuff is open, and CUFF_OVR says so; a due release ends the force; a
forced high is applied once its partners have been low for the dead time. Mitten registers (R117, R119): a clear request gives its outcome
in CLR_RESULT, and ends the latch only when it is CLEARED; configuration is refused while the mitten forces or latches. An event's row
acts only when its event is due: the model's choice (notes/assumptions/2.md). -/
def Obligations.MittensBlankReleaseAndClear : Prop :=
  ((∀ (m : Fin 32) (s : State), s.cuffOpen m = false → (s.mitten m).blocked ≠ [] →
      exec (.cuffClose m) s = .next ((s.setMitten m { s.mitten m with blocked := [] }).takeIfFree m
        (((s.mitten m).blocked.map Prod.fst).foldl min 32))) ∧
    (∀ (m : Fin 32) (s : State) (i : Nat) (u : Tick), (s.mitten m).blocked = [(i, u)] →
      s.reached (u + BitVec.ofNat 64 (s.fld (MIT_CUFF m) 15 0 + 1)) = true →
      exec (.cuffOverride m) s = .next (
        let t := s.setMitten m { s.mitten m with blocked := [] }
        if s.mayTake m = true then (t.raise (MIT_STATUS m) 3).take m i else t)) ∧
    (∀ (m : Fin 32) (s : State), s.releaseDue m = true →
      ∃ t, exec (.mittenRelease m) s = .next t ∧ t.forcing m = false ∧ (t.mitten m).cleared = false ∧ (t.mitten m).releaseAt = none ∧
        (∀ n : Nat, n < 32 → n ≠ m → t.forcing n = s.forcing n)) ∧
    (∀ (p : Fin 256) (s : State) (m : Nat), s.action p = some (m, 1) → s.interlockOpen p = true → (s.pin p).highApplied = false →
      exec (.interlockApply p) s = .next ((s.setPin p { s.pin p with highApplied := true }).refreshPins s.now))) ∧
  ((∀ (m : Fin 32) (v : Word) (s : State), s.accepts (MIT_CLR m) v → v.getLsbD 0 = true →
      exec (.mitClr m v) s = .next (
        let r := if s.bit (MIT_STATUS m) 1 = false then 3 else if s.bit (MIT_MODE m) 2 = true then 2 else if s.anyActive m = true then 1 else 0
        let t := (s.noteHost (MIT_CLR m)).setFld (MIT_STATUS m) 7 6 r
        if r = 0 then (t.setBit (MIT_STATUS m) 1 false).setMitten m { s.mitten m with cleared := true, idleFrom := s.mt } else t)) ∧
    (∀ (a : Nat) (v : Word) (s : State) (m : Nat) (mask : Word), s.accepts a v → mitCfgReg a = some (m, mask) →
      s.fld (MIT_STATUS m) 1 0 ≠ 0 → exec (.mitCfgWrite a v) s = .next ((s.noteHost a).raise (MIT_STATUS m) 5)) ∧
    (∀ (a : Nat) (v : Word) (s : State) (m : Nat) (mask : Word), s.accepts a v → mitCfgReg a = some (m, mask) →
      s.fld (MIT_STATUS m) 1 0 = 0 → (∀ i : Nat, i < 33 → (s.setReg a (mergeWord (s.reg a) v mask)).srcActive m i = false) →
      exec (.mitCfgWrite a v) s = .next (((s.noteHost a).setReg a (mergeWord (s.reg a) v mask)).dropBlocked m)))

/-- The host-link watchdog (R305, R306): the key value kicks it and any other is ignored; a write of its configuration kicks it too; 800 ×
TIMEOUT ticks after a kick it expires; with RESET_EN the reset follows 800 000 ticks later, also out of a soft reset (R359). An event's row acts only when its event is
due: the model's choice (notes/assumptions/2.md). -/
def Obligations.WatchdogExpiresUnlessKicked : Prop :=
  (∀ (v : Word) (s : State), s.accepts WDOG_KICK v →
    exec (.wdogKick v) s = .next (if v = 0x4B49#32 then (s.noteHost WDOG_KICK).kick else s.noteHost WDOG_KICK)) ∧
  (∀ (v : Word) (s : State), s.accepts WDOG_CFG v →
    ∃ t, exec (.wdogCfgWrite v) s = .next t ∧ t.reg WDOG_CFG = mergeWord (s.reg WDOG_CFG) v (rwMask WDOG_CFG) ∧ t.hg.kick = s.mt ∧ t.hg.expired = none ∧
      t.bit WDOG_STATUS 0 = false) ∧
  (∀ s : State, s.mainRuns = true → s.wdogTimeout ≠ 0 → s.hg.expired = none →
    s.reached (s.hg.kick + BitVec.ofNat 64 (800 * s.wdogTimeout)) = true →
    ∃ t, exec .watchdogExpiry s = .next t ∧ t.hg.expired = some s.mt ∧ t.bit WDOG_STATUS 0 = true ∧
      t.bit WDOG_STATUS 1 = s.bit WDOG_CFG 31) ∧
  (∀ (s : State) (u : Tick), s.hg.expired = some u → s.mainRuns = true ∨ (s.power.phase = .soft ∧ s.power.cause = 5) →
    s.bit WDOG_STATUS 1 = true → s.reached (u + 800000) = true →
    ∃ t, exec .watchdogResetStart s = .next t ∧ t.power.phase = .soft ∧ t.power.cause = 4 ∧ t.bit GSTAT 2 = false)

/-! ### Weirs -/

/-- POST_GO (R156, R157): a post that fails its checks is refused with their status and changes no slot and no ledger; one of zero
duration retires ZERO at once; one that finds no free slot reports WEIR_FULL; any other is accepted into the lowest free slot. A second post of a tick waits for the next (R157), and its words are those of its commit
tick (R175). -/
def Obligations.PostsAreAcceptedOrRefused : Prop :=
  (∀ (n : Fin 24) (v : Word) (s : State), s.accepts (POST_GO n) v → v.getLsbD 0 = true → s.postFree n = true →
    s.postCheck (fun j => s.reg (POST_W n j)) ≠ 0 → s.postCheck (fun j => s.reg (POST_W n j)) ≠ 8 →
    ∃ t, exec (.postGo n v) s = .next t ∧ t.fld (POST_RESULT n) 3 0 = s.postCheck (fun j => s.reg (POST_W n j)) ∧
      t.reg (POST_REFUSED_CNT n) = satInc (s.reg (POST_REFUSED_CNT n)) ∧ (t.weir n).slots = (s.weir n).slots ∧
      (t.weir n).ledger = (s.weir n).ledger) ∧
  (∀ (n : Fin 24) (v : Word) (s : State), s.accepts (POST_GO n) v → v.getLsbD 0 = true → s.postFree n = true →
    s.postCheck (fun j => s.reg (POST_W n j)) = 8 →
    ∃ t, exec (.postGo n v) s = .next t ∧ t.fld (POST_RESULT n) 3 0 = 8 ∧ (t.weir n).slots = (s.weir n).slots ∧
      (t.weir n).ledger =
        { (s.weir n).ledger with accepted := (s.weir n).ledger.accepted + 1, zero := (s.weir n).ledger.zero + 1 }) ∧
  (∀ (n : Fin 24) (v : Word) (s : State), s.accepts (POST_GO n) v → v.getLsbD 0 = true → s.postFree n = true →
    s.postCheck (fun j => s.reg (POST_W n j)) = 0 → (s.weir n).freeSlot s.mt = none →
    ∃ t, exec (.postGo n v) s = .next t ∧ t.fld (POST_RESULT n) 3 0 = 1 ∧
      t.reg (WEIR_FULL_CNT n) = satInc (s.reg (WEIR_FULL_CNT n)) ∧ (t.weir n).slots = (s.weir n).slots ∧
      (t.weir n).ledger = (s.weir n).ledger) ∧
  (∀ (n : Fin 24) (v : Word) (s : State) (i : Nat), s.accepts (POST_GO n) v → v.getLsbD 0 = true → s.postFree n = true →
    s.postCheck (fun j => s.reg (POST_W n j)) = 0 → (s.weir n).freeSlot s.mt = some i →
    ∃ t e, exec (.postGo n v) s = .next t ∧ t.fld (POST_RESULT n) 3 0 = 0 ∧ (t.weir n).slot? i = some e ∧
      e.w0 = s.reg (POST_W n 0) ∧ e.arg = s.reg (POST_W n 5) ∧ e.inserted = false ∧ e.started = false ∧ e.commit = s.mt ∧
      (t.weir n).ledger = { (s.weir n).ledger with accepted := (s.weir n).ledger.accepted + 1 } ∧
      (∀ j, j ≠ i → (t.weir n).slot? j = (s.weir n).slot? j)) ∧
  (∀ (n : Fin 24) (v : Word) (s : State), s.accepts (POST_GO n) v → v.getLsbD 0 = true → s.postFree n = false →
    exec (.postGo n v) s = .next ((s.noteHost (POST_GO n)).postLater n { words := [], thread := none, first := false })) ∧
  (∀ (n : Nat) (s : State) (p : WaitingPost) (rest : List WaitingPost), (s.weir n).posts = p :: rest → p.thread = none →
    s.postNext n = (s.setWeir n { s.weir n with posts := rest }).postHost n (fun j => s.reg (POST_W n j))) ∧
  (∀ (n : Fin 24) (v : Word) (s : State), s.accepts (POST_GO n) v → v.getLsbD 0 = false →
    exec (.postGo n v) s = .next (s.noteHost (POST_GO n)))

/-- Insertion and re-keying (R16, R164, R165): an event whose start can still be placed keeps its stamps; one whose start is missed takes
the outcome of its policy, or is dropped from its slot as DROPPED_PAST; a re-key gives an undispatched event its stamps afresh, and the
pass of a shaft reaches one slot of a weir per tick (R17). An event's row acts only when its event is due: the model's choice (notes/assumptions/2.md). -/
def Obligations.EventsAreInsertedAndRekeyed : Prop :=
  (∀ (n : Fin 24) (i : Fin 256) (s : State) (e e' : Slot), s.clocked → (s.weir n).slot? i = some e → e.inserted = false →
    e.key ≠ none → s.placed (e.commit + 32) { e with inserted := true } = some e' →
    exec (.insertionComplete n i) s = .next (s.putSlot n i e')) ∧
  (∀ (n : Fin 24) (i : Fin 256) (s : State) (e : Slot), s.clocked → (s.weir n).slot? i = some e → e.inserted = false →
    e.key ≠ none → s.placed (e.commit + 32) { e with inserted := true } = none →
    ∃ t, exec (.insertionComplete n i) s = .next t ∧ (t.weir n).slot? i = none ∧
      (t.weir n).ledger = { (s.weir n).ledger with droppedPast := (s.weir n).ledger.droppedPast + 1 }) ∧
  (∀ (n : Fin 24) (i : Fin 256) (s : State) (e : Slot), s.clocked → (s.weir n).slot? i = some e → e.rekey = true → e.started = false →
    e.inserted = true → s.rekeyFree n e.shaft = true →
    exec (.rekeyPass n i) s = .next ((s.noteRekey n e.shaft).storeKeyed n i s.mt (s.keyed e)) ∧
    exec (.cycleRekey n i) s = .next ((s.noteRekey n e.shaft).storeKeyed n i s.mt (s.keyed e))) ∧
  (∀ (n : Fin 24) (i : Fin 256) (s : State) (e : Slot), (s.weir n).slot? i = some e → s.rekeyFree n e.shaft = false →
    exec (.rekeyPass n i) s = .next s ∧ exec (.cycleRekey n i) s = .next s) ∧
  (∀ (n : Fin 24) (i : Fin 256) (s : State) (e : Slot), s.clocked → (s.weir n).slot? i = some e → e.rekey = true → e.started = false →
    e.inserted = true → s.rekeyFree n e.shaft = true → e.angle = true → s.angleFrozen e.shaft e.dirq = true →
    exec (.rekeyPass n i) s =
      .next ((s.noteRekey n e.shaft).putSlot n i { e with frozen := true, unreachable := false, rekey := false }) ∧
    exec (.cycleRekey n i) s =
      .next ((s.noteRekey n e.shaft).putSlot n i { e with frozen := true, unreachable := false, rekey := false }))

/-- What becomes of a start that is placed from tick `h` on (R164): unchanged when it is not missed; with a fixed duration the event
starts late or is dropped when it would have ended; otherwise it is shortened, or dropped when less than 256 fine steps would be left.
Dispatch (R160 to R162): the first due event of a weir that can dispatch has its start action done and is then started, or is dropped when
its start is missed, or is cancelled and counted when its channel refuses the action; the end action of the first due event, when that
has started, retires it with the outcome that its key promised, or LATE when the dispatch comes late. An event's row acts only when its event is due:
the model's choice (notes/assumptions/2.md). -/
def Obligations.DueEventsAreDispatchedOrMissed : Prop :=
  (∀ (s : State) (h : Tick) (e : Slot),
      (s.earlier e.s (startPlace h) = false → s.placed h e = some e) ∧
      (s.earlier e.s (startPlace h) = true → e.durationFixed = true → s.earlier (startPlace h) e.e = true →
        s.placed h e = some { e with s := startPlace h, e := startPlace h + e.dur.zeroExtend 64, plan := .late }) ∧
      (s.earlier e.s (startPlace h) = true → e.durationFixed = true → s.earlier (startPlace h) e.e = false → s.placed h e = none) ∧
      (s.earlier e.s (startPlace h) = true → e.durationFixed = false → s.earlier e.e (startPlace h + 256) = false →
        s.placed h e = some { e with s := startPlace h, plan := .shortened }) ∧
      (s.earlier e.s (startPlace h) = true → e.durationFixed = false → s.earlier e.e (startPlace h + 256) = true → s.placed h e = none)) ∧
  ((∀ (n : Fin 24) (s : State) (i : Nat) (e e' : Slot), s.clocked → s.canDispatch n = true →
      s.dueHead n = some (i, e) → e.started = false → s.placed s.mt e = some e' →
      (e'.action < 2 → s.eventOk (n.val * 16 + e'.ch) = true) → (e'.action = 2 → s.startOk (n.val * 16 + e'.ch) = true) →
      ∃ t, exec (.startDispatch n) s = .next t ∧ (t.weir n).slot? i = some { e' with started := true, rekey := false } ∧
        (t.weir n).dispatched t.mt = (s.weir n).dispatched s.mt + 1 ∧ (t.weir n).ledger = (s.weir n).ledger) ∧
    (∀ (n : Fin 24) (s : State) (i : Nat) (e : Slot), s.clocked → s.canDispatch n = true →
      s.dueHead n = some (i, e) → e.started = false → s.placed s.mt e = none →
      ∃ t, exec (.startDispatch n) s = .next t ∧ (t.weir n).slot? i = none ∧
        (t.weir n).ledger = { (s.weir n).ledger with droppedPast := (s.weir n).ledger.droppedPast + 1 }) ∧
    (∀ (n : Fin 24) (s : State) (i : Nat) (e e' : Slot), s.clocked → s.canDispatch n = true →
      s.dueHead n = some (i, e) → e.started = false → s.placed s.mt e = some e' →
      e'.action < 2 → s.eventOk (n.val * 16 + e'.ch) = false →
      ∃ t, exec (.startDispatch n) s = .next t ∧ (t.weir n).slot? i = none ∧
        t.reg (ACT_REFUSED_CNT n) = satInc (s.reg (ACT_REFUSED_CNT n)) ∧
        (t.weir n).ledger = { (s.weir n).ledger with cancelled := (s.weir n).ledger.cancelled + 1 }) ∧
    (∀ (n : Fin 24) (s : State) (i : Nat) (e : Slot), s.clocked → s.canDispatch n = true →
      s.dueHead n = some (i, e) → e.started = true →
      ∃ t, exec (.endDispatch n) s = .next t ∧ (t.weir n).slot? i = none ∧
        (t.weir n).ledger = (s.weir n).ledger.retire (if s.dispatchTick e.e = s.mt then e.plan else .late)))

/-- Retirement by loss and cancel, and the ledger's snapshot (R169, R172, R174): the pass after a loss retires an event without HOLD as
DROPPED_SYNC; a cancel visits the slots that were in use when it committed, one per tick, and retires those whose TAG it selects; TAKE has
every counter of the ledger captured with PENDING and MT at the end of its tick. An event's row acts only when its event is due: the model's choice (notes/assumptions/2.md). -/
def Obligations.CancelsAndLossesRetireEvents : Prop :=
  (∀ (n : Fin 24) (i : Fin 256) (s : State) (e : Slot), s.clocked → (s.weir n).slot? i = some e → e.dropSync = true → e.started = false →
    ∃ t, exec (.droppedSyncRetire n i) s = .next t ∧ (t.weir n).slot? i = none ∧
      (t.weir n).ledger = { (s.weir n).ledger with droppedSync := (s.weir n).ledger.droppedSync + 1 }) ∧
  (∀ (n : Fin 24) (v : Word) (s : State), s.accepts (CANCEL_GO n) v → v.getLsbD 0 = true →
    ∃ t c, exec (.cancelGo n v) s = .next t ∧ (t.weir n).cancels = (s.weir n).cancels ++ [c] ∧
      c.tag = BitVec.ofNat 12 (s.fld (CANCEL_SEL n) 11 0) ∧ c.mask = BitVec.ofNat 12 (s.fld (CANCEL_SEL n) 27 16) ∧
      c.left = (s.weir n).slots.map Prod.fst ∧ t.bit (CANCEL_RESULT n) 31 = true ∧ (t.weir n).slots = (s.weir n).slots) ∧
  (∀ (n : Fin 24) (i : Fin 256) (s : State) (c : Cancel) (rest : List Cancel) (e : Slot), s.clocked →
    (s.weir n).cancels = c :: rest → s.reached (c.start + 1) = true → (s.weir n).cancelAt ≠ some s.mt →
    (s.weir n).slot? i = some e → i.val ∈ c.left →
    e.order < c.before → e.started = false → e.tag &&& c.mask = c.tag &&& c.mask →
    ∃ t, exec (.cancelPass n i) s = .next t ∧ (t.weir n).slot? i = none ∧
      (t.weir n).ledger = { (s.weir n).ledger with cancelled := (s.weir n).ledger.cancelled + 1 } ∧
      (∀ j, j ≠ i.val → (t.weir n).slot? j = (s.weir n).slot? j)) ∧
  (∀ (n : Fin 24) (v : Word) (s : State), s.accepts (LEDGER_TAKE n) v → v.getLsbD 0 = true →
    exec (.ledgerTake n v) s = .next ((s.noteHost (LEDGER_TAKE n)).noteTake (.weir n))) ∧
  (∀ (n : Fin 24) (s : State), s.takes = [.weir n] →
    ∃ t, s.runTakes = t ∧
      t.pair (SNAP_ACCEPTED_LO n) (SNAP_ACCEPTED_HI n) = (s.weir n).ledger.accepted ∧
      t.pair (SNAP_COMPLETED_LO n) (SNAP_COMPLETED_HI n) = (s.weir n).ledger.completed ∧
      t.pair (SNAP_LATE_LO n) (SNAP_LATE_HI n) = (s.weir n).ledger.late ∧
      t.pair (SNAP_SHORTENED_LO n) (SNAP_SHORTENED_HI n) = (s.weir n).ledger.shortened ∧
      t.pair (SNAP_DROP_PAST_LO n) (SNAP_DROP_PAST_HI n) = (s.weir n).ledger.droppedPast ∧
      t.pair (SNAP_DROP_SYNC_LO n) (SNAP_DROP_SYNC_HI n) = (s.weir n).ledger.droppedSync ∧
      t.pair (SNAP_CANCELLED_LO n) (SNAP_CANCELLED_HI n) = (s.weir n).ledger.cancelled ∧
      t.pair (SNAP_ZERO_LO n) (SNAP_ZERO_HI n) = (s.weir n).ledger.zero ∧
      t.reg (SNAP_PENDING n) = BitVec.ofNat 32 (s.weir n).slots.length ∧
      t.pair (WEIR_SNAP_MT_LO n) (WEIR_SNAP_MT_HI n) = s.mt ∧ t.weirs = s.weirs)

/-! ### Shafts -/

/-- Tooth candidates of a wheel (R127, R128, R133): once the filter time is over, one that an edge has reversed within it counts in
FILT_CNT, one within 800 ticks of the last tooth or before the early limit counts in NOISE_CNT, and any other is the last tooth. An
event's row acts only when its event is due: the model's choice (notes/assumptions/2.md). -/
def Obligations.CandidatesAreJudged : Prop :=
  (∀ (h : Fin 16) (s : State) (d : Candidate) (rest : List Candidate) (r : Stamp), s.clocked → (s.shaft h).cands = d :: rest →
    max 24 ((64 * s.shFilt h : Nat) : Int) ≤ ahead (stampAt (s.mt + 1) 0) d.stamp → d.reversed = some r →
    ahead r d.stamp < ((64 * s.shFilt h : Nat) : Int) →
    exec (.toothJudge h) s = .next ((s.setShaft h { s.shaft h with cands := rest }).satCount (FILT_CNT h))) ∧
  (∀ (h : Fin 16) (s : State) (d : Candidate) (rest : List Candidate), s.clocked → (s.shaft h).cands = d :: rest →
    max 24 ((64 * s.shFilt h : Nat) : Int) ≤ ahead (stampAt (s.mt + 1) 0) d.stamp → d.reversed = none → s.shEn h = true →
    s.shWheel h = true → (s.underFloor h d.stamp = true ∨ s.tooEarly h d.stamp = true) →
    exec (.toothJudge h) s = .next ((s.setShaft h { s.shaft h with cands := rest }).satCount (NOISE_CNT h))) ∧
  (∀ (h : Fin 16) (s : State) (d : Candidate) (rest : List Candidate), s.clocked → (s.shaft h).cands = d :: rest →
    max 24 ((64 * s.shFilt h : Nat) : Int) ≤ ahead (stampAt (s.mt + 1) 0) d.stamp → d.reversed = none → s.shEn h = true →
    s.shWheel h = true → s.shState h ≠ 0 → s.underFloor h d.stamp = false → s.tooEarly h d.stamp = false →
    ∃ t, exec (.toothJudge h) s = .next t ∧ (t.shaft h).lastTooth = some d.stamp ∧
      t.pair (LAST_TOOTH_LO h) (LAST_TOOTH_HI h) = d.stamp ∧ (t.shaft h).cands = rest)

/-- A missing tooth and a stall (R134, R141, R145): a synthetic tooth stands at the predicted stamp and counts in SYNTH_CNT, and a second
one in a row loses the shaft; a stall sets STALLED, counts, and discards the estimate; a virtual tooth is taken at its crossing. An
event's row acts only when its event is due: the model's choice (notes/assumptions/2.md). -/
def Obligations.MissingTeethAreSupplied : Prop :=
  (∀ (h : Fin 16) (s : State) (pe : Nat), s.clocked → (s.shaft h).est.pe = some pe →
    ((pe + pe / 2 : Nat) : Int) ≤ ahead s.now (s.shaft h).est.stamp → s.shWheel h = true → s.shEn h = true → s.shSync h = true →
    (s.shaft h).next = [] → s.bit (SH_CTRL h) 23 = false → s.shStalled h = false → s.stallDue h = false →
    ∃ t, exec (.syntheticTooth h) s = .next t ∧ t.reg (SYNTH_CNT h) = satInc (s.reg (SYNTH_CNT h)) ∧
      (t.shaft h).lastTooth = some ((s.shaft h).est.stamp + BitVec.ofNat 64 pe) ∧
      ((s.shaft h).lastSynth = true → t.shState h = 5)) ∧
  (∀ (h : Fin 16) (s : State), s.clocked → s.stallDue h = true → s.shSrc h < 4 →
    ∃ t, exec (.stall h) s = .next t ∧ t.shStalled h = true ∧ t.reg (STALL_CNT h) = satInc (s.reg (STALL_CNT h)) ∧
      (t.shaft h).est.n = 0 ∧ (t.shaft h).est.pos = s.shPos h ∧ (t.shaft h).intervals = []) ∧
  (∀ (h : Fin 16) (s : State) (x : Crossing) (rest : List Crossing), s.clocked → (s.shaft h).crossings = x :: rest → s.shEn h = true →
    s.shSync h = true → s.underFloor h x.stamp = false →
    ∃ t, exec (.virtualTooth h) s = .next t ∧ (t.shaft h).lastTooth = some x.stamp ∧ (t.shaft h).tooth = x.idx ∧
      (t.shaft h).crossings = rest ∧ t.shRev h = x.rev)

/-- Publication and history (R17, R149): an estimate whose publication tick has come takes effect; a due history entry is written at
HIST_WR of its ring, and with HIST_LOG2 = 0 it is not. Direction and machine cycle (R139, R142 to R144): DIR takes the direction input
that has held its filter time, DIR of its interface, or the sign of the generator's velocity; a marker and CYCLE_SET make CYCLE_VALID, and
a value that the cycle does not have is refused; CYCLE_REV steps with each revolution. An event's row acts only when its event is due: the
model's choice (notes/assumptions/2.md, notes/assumptions/79.md). -/
def Obligations.EstimatesFollowDirectionAndCycle : Prop :=
  ((∀ (h : Fin 16) (s : State) (u : Tick) (e : Estimate) (rest : List (Tick × Estimate)), s.clocked →
      (s.shaft h).next = (u, e) :: rest → s.reached u = true →
      ∃ t, exec (.estimatePublication h) s = .next t ∧ (t.shaft h).est = e ∧ (t.shaft h).next = rest ∧ t.fld (SH_STATUS h) 9 8 = e.n % 4) ∧
    (∀ (h : Fin 16) (s : State) (u : Tick) (w : Word) (rest : List (Tick × Word)), s.clocked → (s.shaft h).history = (u, w) :: rest →
      s.reached u = true → s.fld (HIST_CTRL h) 4 0 ≠ 0 →
      s.resPoisoned (s.histBase h + 4 * ((s.reg (HIST_WR h)).toNat % 2 ^ s.histLog h)) 4 = false →
      ∃ t, exec (.historyWrite h) s = .next t ∧
        t.resRead (s.histBase h + 4 * ((s.reg (HIST_WR h)).toNat % 2 ^ s.histLog h)) 4 = w.toNat ∧
        t.reg (HIST_WR h) = s.reg (HIST_WR h) + 1 ∧ (t.shaft h).history = rest) ∧
    (∀ (h : Fin 16) (s : State) (u : Tick) (w : Word) (rest : List (Tick × Word)), s.clocked → (s.shaft h).history = (u, w) :: rest →
      s.reached u = true → s.fld (HIST_CTRL h) 4 0 = 0 →
      exec (.historyWrite h) s = .next (s.setShaft h { s.shaft h with history := rest }))) ∧
  ((∀ (h : Fin 16) (s : State) (u : Tick), s.clocked → s.shEn h = true → s.shWheel h = true → s.dirSrc h = 1 →
      (s.shaft h).dirSince = some u → s.reached (u + BitVec.ofNat 64 (s.shFilt h)) = true →
      ∃ t, exec (.directionChange h) s = .next t ∧ t.shRev h = s.dirInput h s.mt ∧ (t.shaft h).dirSince = none) ∧
    (∀ (h : Fin 16) (s : State), s.clocked → s.shEn h = true → s.shSrc h = 5 → (s.shaft h).genOmega ≠ 0 →
      ∃ t, exec (.directionChange h) s = .next t ∧ t.shRev h = decide ((s.shaft h).genOmega < 0)) ∧
    (∀ (h : Fin 16) (s : State), s.clocked → s.shEn h = true → 1 ≤ s.shSrc h → s.shSrc h ≤ 3 →
      ∃ t, exec (.directionChange h) s = .next t ∧ t.shRev h = s.bit (FB_STATUS ((s.shSrc h - 1) * 8 + s.shIface h)) 2) ∧
    (∀ (h : Fin 16) (st : Stamp) (s : State), s.clocked → s.fld (SH_CTRL h) 15 14 = 1 → s.shEn h = true → s.shSync h = true →
      1 < s.shCycleRevs h → s.markerEdge h st = true → s.fld (MARKER_CFG h) 3 0 < s.shCycleRevs h →
      ∃ t, exec (.marker h st) s = .next t ∧ t.shCycleValid h = true ∧ (t.shaft h).cycleSeen = hiWord (s.shPos h)) ∧
    (∀ (h : Fin 16) (v : Word) (s : State), s.accepts (CYCLE_SET h) v → s.fld (SH_CTRL h) 15 14 ≠ 1 → s.shSync h = true →
      bitsOf v 3 0 < s.shCycleRevs h →
      ∃ t, exec (.cycleSet h v) s = .next t ∧ t.shCycleValid h = true ∧ (t.shaft h).cycleRev = bitsOf v 3 0) ∧
    (∀ (h : Fin 16) (v : Word) (s : State), s.accepts (CYCLE_SET h) v →
      (s.fld (SH_CTRL h) 15 14 = 1 ∨ s.shSync h = false ∨ s.shCycleRevs h ≤ bitsOf v 3 0) →
      exec (.cycleSet h v) s = .next ((s.noteHost (CYCLE_SET h)).raise (SH_STATUS h) 11)) ∧
    (∀ (h : Fin 16) (s : State), s.clocked → s.shCycleRevs h ≠ 0 → 0 < (hiWord (s.shPos h) - (s.shaft h).cycleSeen).toInt →
      exec (.cycleRevStep h false) s = .next (s.setShaft h { s.shaft h with
        cycleRev := ((s.shaft h).cycleRev + 1) % s.shCycleRevs h, cycleSeen := (s.shaft h).cycleSeen + 1 })) ∧
    (∀ (h : Fin 16) (s : State), s.clocked → s.shCycleRevs h ≠ 0 → (hiWord (s.shPos h) - (s.shaft h).cycleSeen).toInt < 0 →
      exec (.cycleRevStep h true) s = .next (s.setShaft h { s.shaft h with
        cycleRev := ((s.shaft h).cycleRev + s.shCycleRevs h - 1) % s.shCycleRevs h, cycleSeen := (s.shaft h).cycleSeen - 1 })))

/-- The generator (R37, R148): APPLY takes GEN_TARGET and GEN_ACC as working values, LOAD sets the velocity to the target as well, and a
target outside Q16.32 is refused; a ramp that would pass its target ends on it. SH_CTRL, the geometry registers and the snapshot (R124,
R151): the geometry is written only while EN is 0; a write of SH_CTRL that changes a locked field while EN is 1 before or after it is
refused; TAKE has the position, the velocity and MT captured at the end of its tick. -/
def Obligations.GeneratorAndShaftRegistersHoldTheirRules : Prop :=
  ((∀ (h : Fin 16) (v : Word) (s : State), s.accepts (GEN_CTRL h) v → bitsOf v 1 0 = 1 → s.genTargetOk h = true →
      ∃ t, exec (.genApply h v) s = .next t ∧
        (t.shaft h).genTarget = (s.pair (GEN_TARGET_LO h) (GEN_TARGET_HI h)).toInt * 2 ^ 31 ∧
        (t.shaft h).genAcc = (s.pair (GEN_ACC_LO h) (GEN_ACC_HI h)).toInt.natAbs ∧ (t.shaft h).genOmega = (s.shaft h).genOmega) ∧
    (∀ (h : Fin 16) (v : Word) (s : State), s.accepts (GEN_CTRL h) v → v.getLsbD 1 = true → s.genTargetOk h = true →
      ∃ t, exec (.genLoad h v) s = .next t ∧
        (t.shaft h).genTarget = (s.pair (GEN_TARGET_LO h) (GEN_TARGET_HI h)).toInt * 2 ^ 31 ∧
        (t.shaft h).genAcc = (s.pair (GEN_ACC_LO h) (GEN_ACC_HI h)).toInt.natAbs ∧ (t.shaft h).genOmega = (t.shaft h).genTarget) ∧
    (∀ (h : Fin 16) (v : Word) (s : State), s.accepts (GEN_CTRL h) v → bitsOf v 1 0 ≠ 0 → s.genTargetOk h = false →
      exec (.genApply h v) s = .next ((s.noteHost (GEN_CTRL h)).raise (SH_STATUS h) 11) ∧
      exec (.genLoad h v) s = .next ((s.noteHost (GEN_CTRL h)).raise (SH_STATUS h) 11)) ∧
    (∀ (h : Fin 16) (s : State), s.clocked → s.shGenerator h = true → (s.shaft h).genArrives = true →
      ∃ t, exec (.genTargetReached h) s = .next t ∧ (t.shaft h).genOmega = (s.shaft h).genTarget)) ∧
  ((∀ (h : Fin 16) (off : Nat) (v mask : Word) (s : State), s.accepts (0x90000 + h.val * 0x1000 + off) v → off ≠ 0 →
      shGeometry off = some mask →
      exec (.shCtrlWrite h off v) s = .next (
        if s.shEn h = true then (s.noteHost (0x90000 + h.val * 0x1000 + off)).raise (SH_STATUS h) 11
        else (s.noteHost (0x90000 + h.val * 0x1000 + off)).setReg (0x90000 + h.val * 0x1000 + off)
          (mergeWord (s.reg (0x90000 + h.val * 0x1000 + off)) v mask))) ∧
    (∀ (h : Fin 16) (v : Word) (s : State), s.accepts (SH_CTRL h) v →
      let new := mergeWord (s.reg (SH_CTRL h)) v 0x00FFFF71#32
      (s.reg (SH_CTRL h) ^^^ new) &&& 0x001FFF70#32 ≠ 0 → (s.bit (SH_CTRL h) 0 = true ∨ new.getLsbD 0 = true) →
      exec (.shCtrlWrite h 0 v) s = .next ((s.noteHost (SH_CTRL h)).raise (SH_STATUS h) 11)) ∧
    (∀ (h : Fin 16) (v : Word) (s : State), s.accepts (SH_CTRL h) v →
      let new := mergeWord (s.reg (SH_CTRL h)) v 0x00FFFF71#32
      s.bit (SH_CTRL h) 0 = false → new.getLsbD 0 = false → bitsOf new 6 4 ≠ 0 →
      exec (.shCtrlWrite h 0 v) s = .next (((s.noteHost (SH_CTRL h)).setReg (SH_CTRL h) new).setShaft h
        { s.shaft h with cycleRev := (s.shaft h).cycleRev % max 1 (bitsOf new 20 16) })) ∧
    (∀ (h : Fin 16) (v : Word) (s : State), s.accepts (SNAP_CTRL h) v → v.getLsbD 0 = true →
      exec (.shaftSnapTake h v) s = .next ((s.noteHost (SNAP_CTRL h)).noteTake (.shaft h))) ∧
    (∀ (h : Fin 16) (s : State), s.takes = [.shaft h] →
      ∃ t, s.runTakes = t ∧ t.pair (SNAP_POS_LO h) (SNAP_POS_HI h) = s.shPos h ∧
        t.pair (SNAP_VEL_LO h) (SNAP_VEL_HI h) = bvInt 64 (s.shMotion h).1 ∧ t.pair (SH_SNAP_MT_LO h) (SH_SNAP_MT_HI h) = s.mt ∧
        t.fld (SNAP_SEQ h) 15 0 = (s.fld (SNAP_SEQ h) 15 0 + 1) % 65536 ∧ t.shafts = s.shafts))

/-! ### Position feedback, probes, compares and culverts -/

/-- Quadrature (R180, R181): an accepted edge that moves the levels one place steps the count one up or down, one that moves them two
places counts in ILLEGAL_CNT, and one within QE_MIN_EDGE of the last accepted edge counts in FAULT_CNT and does nothing else; after the
minimum interval the levels at the start of the first tick are taken once more. The index of a quadrature interface (R177, R188, R189): the first index makes the
reference valid with the home position; a later one within INDEX_TOL of home corrects the count and is a slip; one beyond it is an index
fault. The index of an AENC waits for its later sample (R187). An event's row acts only when its event is due: the model's choice
(notes/assumptions/2.md, notes/assumptions/83.md). -/
def Obligations.QuadratureEdgesAndIndexesMoveTheCount : Prop :=
  ((∀ (i : Fin 8) (isB a b : Bool) (st : Stamp) (rest : List QuadEdge) (s : State), s.clocked → s.fbEn i = true →
      (s.iface i).edges = { stamp := st, isB := isB, a := a, b := b } :: rest → s.edgeSure st = true →
      (s.iface i).resampleFirst s.now st = false → (∀ l, (s.iface i).lastAcc = some l → (s.minEdge i : Int) ≤ ahead st l) →
      (s.iface i).quarter a b % 2 = 1 →
      ∃ t, exec (.qencEdge i isB a b st) s = .next t ∧
        (t.iface i).abs = (if ((s.iface i).quarter a b == 1) != s.bit (QE_CTRL i) 1 then (s.iface i).abs + 1 else (s.iface i).abs - 1) ∧
        (t.iface i).a = a ∧ (t.iface i).b = b ∧ (t.iface i).lastAcc = some st ∧ (t.iface i).edges = rest) ∧
    (∀ (i : Fin 8) (isB a b : Bool) (st : Stamp) (rest : List QuadEdge) (s : State), s.clocked → s.fbEn i = true →
      (s.iface i).edges = { stamp := st, isB := isB, a := a, b := b } :: rest → s.edgeSure st = true →
      (s.iface i).resampleFirst s.now st = false → (∀ l, (s.iface i).lastAcc = some l → (s.minEdge i : Int) ≤ ahead st l) →
      (s.iface i).quarter a b = 2 →
      exec (.qencEdge i isB a b st) s = .next ((((s.setIface i { s.iface i with
        edges := rest, lastAcc := some st, resampleAt := s.resampleTick i st, resample := none }).quadNote i a b st 0).satCount
          (ILLEGAL_CNT i)).qencTick i)) ∧
    (∀ (i : Fin 8) (isB a b : Bool) (st l : Stamp) (rest : List QuadEdge) (s : State), s.clocked → s.fbEn i = true →
      (s.iface i).edges = { stamp := st, isB := isB, a := a, b := b } :: rest → s.edgeSure st = true →
      (s.iface i).resampleFirst s.now st = false → (s.iface i).lastAcc = some l → ahead st l < s.minEdge i →
      exec (.qencEdge i isB a b st) s = .next ((s.setIface i { s.iface i with edges := rest }).satCount (FAULT_CNT i))) ∧
    (∀ (i : Fin 8) (a b : Bool) (st : Stamp) (s : State), s.clocked → s.fbEn i = true → (s.iface i).resample = some (st, a, b) →
      (∀ e ∈ (s.iface i).edges, laterThan s.now st e.stamp = false) →
      ∃ t, exec (.qencResample i a b) s = .next t ∧ (t.iface i).a = a ∧ (t.iface i).b = b ∧ (t.iface i).resample = none ∧
        ((s.iface i).quarter a b % 2 = 1 → t.bit (FB_STATUS i) 7 = true) ∧
        ((s.iface i).quarter a b % 2 = 0 → (t.iface i).abs = (s.iface i).abs)) ∧
    (∀ (i : Fin 8) (u : Tick) (s : State), (s.iface i).resampleAt = some u →
      (s.reached u = true →
        s.qencTick i = s.setIface i { s.iface i with
          resampleAt := none, resample := some (stampAt u 0, s.levelAtStart (s.aCh i) u, s.levelAtStart (s.bCh i) u) }) ∧
      (s.reached u = false → s.qencTick i = s))) ∧
  ((∀ (f : Fin 16) (rising : Bool) (st : Stamp) (rest : List (Stamp × Bool)) (s : State), s.clocked → f.val < 8 → s.fbEn f = true →
      s.fbIndexed f = true → (s.iface f).zEdges = (st, rising) :: rest → s.edgeSure st = true → s.quadKnown f st = true →
      s.fbAtt f = 1 → s.indexQualified f st = true → s.indexEdge f rising = true → s.fbRef f = false → s.cpr f ≠ 0 →
      ∃ t, exec (.indexEdge f rising st) s = .next t ∧ t.fbRef f = true ∧ (t.iface f).zEdges = rest ∧
        (t.iface f).abs = BitVec.ofNat 64 ((s.reg (INDEX_POS f)).toNat % s.cpr f) + ((s.iface f).abs - (s.iface f).absAt s.now st)) ∧
    (∀ (f : Fin 16) (rising : Bool) (st : Stamp) (rest : List (Stamp × Bool)) (s : State), s.clocked → f.val < 8 → s.fbEn f = true →
      s.fbIndexed f = true → (s.iface f).zEdges = (st, rising) :: rest → s.edgeSure st = true → s.quadKnown f st = true →
      s.fbAtt f = 1 → s.indexQualified f st = true → s.indexEdge f rising = true → s.fbRef f = true → s.cpr f ≠ 0 →
      let n : Int := s.cpr f
      let r : Int := (((s.iface f).absAt s.now st).toInt - (((s.reg (INDEX_POS f)).toNat : Int) % n)) % n
      let d : Int := if 2 * r < n then r else r - n
      d ≠ 0 → d.natAbs ≤ s.fld (REF_CFG f) 15 0 →
      ∃ t, exec (.indexEdge f rising st) s = .next t ∧ t.reg (INDEX_SLIP_CNT f) = satInc (s.reg (INDEX_SLIP_CNT f)) ∧
        t.bit (FB_STATUS f) 3 = true ∧ (t.iface f).abs = (s.iface f).abs - bvInt 64 d ∧ (t.iface f).dev = bvInt 32 d) ∧
    (∀ (f : Fin 16) (rising : Bool) (st : Stamp) (rest : List (Stamp × Bool)) (s : State), s.clocked → f.val < 8 → s.fbEn f = true →
      s.fbIndexed f = true → (s.iface f).zEdges = (st, rising) :: rest → s.edgeSure st = true → s.quadKnown f st = true →
      s.fbAtt f = 1 → s.indexQualified f st = true → s.indexEdge f rising = true → s.fbRef f = true → s.cpr f ≠ 0 →
      let n : Int := s.cpr f
      let r : Int := (((s.iface f).absAt s.now st).toInt - (((s.reg (INDEX_POS f)).toNat : Int) % n)) % n
      let d : Int := if 2 * r < n then r else r - n
      s.fld (REF_CFG f) 15 0 < d.natAbs →
      ∃ t, exec (.indexEdge f rising st) s = .next t ∧ t.reg (INDEX_FAULT_CNT f) = satInc (s.reg (INDEX_FAULT_CNT f)) ∧
        (t.iface f).abs = (s.iface f).abs ∧ t.bit (FB_STATUS f) 4 = true) ∧
    (∀ (f : Fin 16) (rising : Bool) (st : Stamp) (rest : List (Stamp × Bool)) (s : State), s.clocked → 8 ≤ f.val → s.fbEn f = true →
      s.fbIndexed f = true → (s.iface f).zEdges = (st, rising) :: rest → s.edgeSure st = true → s.fbAtt f = 1 →
      s.indexEdge f rising = true →
      exec (.indexEdge f rising st) s = .next (s.setIface f { s.iface f with zEdges := rest, idxPend := (s.iface f).idxPend ++ [st] })) ∧
    (∀ (f : Fin 16) (rising : Bool) (st : Stamp) (rest : List (Stamp × Bool)) (s : State), s.clocked →
      (s.iface f).zEdges = (st, rising) :: rest → s.edgeSure st = true → s.quadKnown f st = true → s.indexEdge f rising = false →
      exec (.indexEdge f rising st) s = .next (s.setIface f { s.iface f with zEdges := rest })))

/-- Sampled interfaces (R182 to R186): an AENC takes a raw sample in each tick with MT mod 400 = 0, and a processed sample reports its
amplitude; an SSI port begins a frame when its poll is due, and the frame's end reports the bits clocked and sets the next poll. Speed and
position of an interface (R190, R201): a gate that ends begins the next one with the method that its steps choose; with no step for 16
gates the speed is 0; a read of POS latches the shadows of its tick. Configuration is refused while the interface is enabled (R178). An
event's row acts only when its event is due: the model's choice (notes/assumptions/2.md). -/
def Obligations.InterfacesSampleAndReport : Prop :=
  ((∀ (i : Fin 8) (s0 c0 : BitVec 12) (s : State), s.clocked → s.fbEn (8 + i.val) = true → s.mt.toNat % 400 = 0 →
      exec (.aencSample i s0 c0) s = .next (s.setIface (8 + i.val)
        { s.iface (8 + i.val) with raw := (s.iface (8 + i.val)).raw ++ [(s.now, s0, c0)] })) ∧
    (∀ (i : Fin 8) (s : State) (st : Stamp) (s0 c0 : BitVec 12) (rest : List (Stamp × BitVec 12 × BitVec 12)), s.clocked →
      (s.iface (8 + i.val)).raw = (st, s0, c0) :: rest → s.fbEn (8 + i.val) = true →
      ∃ t, exec (.aencSampleProcessed i) s = .next t ∧ (t.iface (8 + i.val)).raw = rest ∧
        t.reg (AE_AMP i) = BitVec.ofNat 32
          (((s.aencCorrect i s0 c0).1 * (s.aencCorrect i s0 c0).1 + (s.aencCorrect i s0 c0).2 * (s.aencCorrect i s0 c0).2) / 256).toNat) ∧
    (∀ (i : Fin 8) (hi : Bool) (s : State), s.clocked → s.fbEn (16 + i.val) = true → (s.iface (16 + i.val)).frame = none →
      s.reached (s.iface (16 + i.val)).nextFrame = true →
      exec (.ssiFrameStart i hi) s = .next (s.setIface (16 + i.val) { s.iface (16 + i.val) with frame := some (s.mt, hi), clk := false })) ∧
    (∀ (i : Fin 8) (bits : BitVec 48) (low hi : Bool) (s : State) (u : Tick), s.clocked → (s.iface (16 + i.val)).frame = some (u, hi) →
      s.reached (s.ssiEndTick i u) = true → s.reached (s.ssiBitTick i u (s.ssiBits i - 1)) = true →
      ∃ t, exec (.ssiFrameEnd i bits low) s = .next t ∧ (t.iface (16 + i.val)).frame = none ∧ (t.iface (16 + i.val)).clk = true ∧
        t.reg (SSI_RAW_LO i) = BitVec.ofNat 32 (bits.toNat % 2 ^ s.ssiBits i))) ∧
  ((∀ (f : Fin 24) (s : State), s.clocked → s.fbEn f = true → s.reached ((s.iface f).gateStart + BitVec.ofNat 64 (s.spdGate f)) = true →
      ∃ t, exec (.speedGateEnd f) s = .next t ∧ (t.iface f).gateStart = (s.iface f).gateStart + BitVec.ofNat 64 (s.spdGate f) ∧
        (t.iface f).gateSteps = 0 ∧ (t.iface f).gateNet = 0 ∧ t.spdMethod f = s.nextMethod f (s.iface f).gateSteps ∧
        (t.iface f).abs = (s.iface f).abs) ∧
    (∀ (f : Fin 24) (s : State) (l : Stamp), s.clocked → s.fbEn f = true → (s.iface f).lastMove = some l →
      s.reached (s.tickFor l + BitVec.ofNat 64 (16 * s.spdGate f)) = true →
      exec (.speedTimeout f) s = .next (s.setIface f { s.iface f with timedOut := true, speed := 0 })) ∧
    (∀ (f : Fin 24) (s : State), s.serves →
      let q := s.cycleStart
      ∃ t, exec (.posRead f) s = .next t ∧ t.hostData = [BitVec.ofNat 32 (q.countC f)] ∧ t.reg (TURNS f) = bvInt 32 (q.countTurns f) ∧
        t.pair (SPEED_LO f) (SPEED_HI f) = bvInt 64 (q.speedNow f) ∧ t.reg (LAST_DEV f) = (q.iface f).dev ∧ t.ifaces = s.ifaces) ∧
    (∀ (f : Fin 24) (off : Nat) (v mask : Word) (s : State), off < 0x100 → off ≠ 0 → fbCfgReg (f.val / 8) off = some (mask, false) →
      s.accepts (0x80000 + f.val / 8 * 0x1000 + f.val % 8 * 0x100 + off) v →
      exec (.feedbackCfgWrite (0x80000 + f.val / 8 * 0x1000 + f.val % 8 * 0x100 + off) v) s = .next (
        let a := 0x80000 + f.val / 8 * 0x1000 + f.val % 8 * 0x100 + off
        if s.fbEn f = true then (s.noteHost a).raise (FB_STATUS f) 8
        else (s.noteHost a).setReg a (mergeWord (s.reg a) v mask))))

/-- Probes (R193 to R195): DISARM acts alone and ARM takes the stamp of its tick; an edge that the armed probe takes waits for its latch,
and one that comes while a latch waits counts in PRB_MISS; a completed latch holds its stamp and position; the read of PRB_STAMP_LO
latches the shadows and clears OVR. Position compares and culverts (R196 to R199): DISARM acts alone; ARM takes V and the side of the
position, and with IMMEDIATE a compare that is armed behind fires in the next tick with LATE; a compare fires where its shaft reaches V; a
RAW culvert passes its inputs 4 ticks later, and a REGEN culvert moves one state toward its interface. An event's row acts only when its
event is due: the model's choice (notes/assumptions/2.md, notes/assumptions/83.md). -/
def Obligations.ProbesComparesAndCulvertsAct : Prop :=
  ((∀ (p : Fin 8) (v : Word) (s : State), s.accepts (PRB_CTRL p) v → v.getLsbD 2 = true →
      exec (.probeDisarm p v) s = .next (
        let t := (s.noteHost (PRB_CTRL p)).setReg (PRB_CTRL p) (mergeWord (s.reg (PRB_CTRL p)) v 0x0000FF18#32)
        if s.bit (PRB_STATUS p) 0 = true then (t.setBit (PRB_STATUS p) 0 false).setProbe p { s.probe p with disarmed := some s.mt }
        else t)) ∧
    (∀ (p : Fin 8) (v : Word) (s : State), s.accepts (PRB_CTRL p) v → v.getLsbD 1 = true → v.getLsbD 2 = false →
      exec (.probeArm p v) s = .next (
        ((((s.noteHost (PRB_CTRL p)).setReg (PRB_CTRL p) (mergeWord (s.reg (PRB_CTRL p)) v 0x0000FF18#32)).setBit (PRB_STATUS p) 0 true).setPair
          (PRB_ARM_LO p) (PRB_ARM_HI p) s.now).setProbe p { s.probe p with disarmed := none })) ∧
    (∀ (p : Fin 8) (rising : Bool) (st : Stamp) (s : State), s.clocked → s.prbChan p = none →
      (∀ l, (s.probe p).lastIn = some l → 24 ≤ (st - l).toNat) →
      exec (.probeEdge p rising st) s = .next ((s.setProbe p { s.probe p with lastIn := some st }).prbNote p rising st)) ∧
    (∀ (p : Fin 8) (rising : Bool) (st l : Stamp) (s : State), s.clocked → s.prbChan p = none → (s.probe p).lastIn = some l →
      (st - l).toNat < 24 →
      exec (.probeEdge p rising st) s =
        .next (s.setProbe p { s.probe p with lastIn := none, edges := (s.probe p).edges.filter (fun e => e.stamp != l) })) ∧
    (∀ (p : Fin 8) (rising : Bool) (st : Stamp) (k : Nat) (rest : List (Stamp × Bool)) (s : State), s.clocked → s.prbChan p = some k →
      (s.probe p).chanEdges = (st, rising) :: rest →
      exec (.probeEdge p rising st) s = .next ((s.setProbe p { s.probe p with chanEdges := rest }).prbNote p rising st)) ∧
    (∀ (p : Fin 8) (e : ProbeEdge) (s : State), (s.probe p).edges = [e] → s.edgeSure e.stamp = true →
      ((s.prbTick p).probe p).edges = [] ∧
      (s.prbTakes p e.rising e.stamp = true → s.bit (PRB_STATUS p) 1 = false →
        ((s.prbTick p).probe p).pend = (s.probe p).pend ++ [(e.stamp, e.pos)] ∧ (s.prbTick p).bit (PRB_STATUS p) 1 = s.prbWaits p) ∧
      (s.prbTakes p e.rising e.stamp = true → s.bit (PRB_STATUS p) 1 = true →
        (s.prbTick p).reg (PRB_MISS p) = satInc (s.reg (PRB_MISS p)) ∧ ((s.prbTick p).probe p).pend = (s.probe p).pend) ∧
      (s.prbTakes p e.rising e.stamp = false → ((s.prbTick p).probe p).pend = (s.probe p).pend ∧ (s.prbTick p).regs = s.regs)) ∧
    (∀ (p : Fin 8) (s : State) (st : Stamp) (known : Option (BitVec 64)) (pos : BitVec 64) (rest : List (Stamp × Option (BitVec 64))),
      s.clocked → (s.probe p).pend = (st, known) :: rest → s.prbPosition p st known = some pos →
      ∃ t, exec (.probeLatchComplete p) s = .next t ∧ (t.probe p).stamp = st ∧ (t.probe p).pos = pos ∧
        (t.probe p).seq = (s.probe p).seq + 1 ∧ (t.probe p).pend = rest) ∧
    (∀ (p : Fin 8) (s : State), s.serves →
      let q := s.cycleStart.probe p
      ∃ t, exec (.prbStampLoRead p) s = .next t ∧ t.hostData = [loWord q.stamp] ∧
        t.reg (PRB_STAMP_HI p) = hiWord q.stamp ∧ t.pair (PRB_POS_LO p) (PRB_POS_HI p) = q.pos ∧
        t.reg (PRB_SEQ p) = q.seq ∧ t.bit (PRB_STATUS p) 2 = (if (s.probe p).seq = q.seq then false else s.bit (PRB_STATUS p) 2))) ∧
  ((∀ (j : Fin 32) (v : Word) (s : State), s.accepts (PC_CTRL j) v → v.getLsbD 1 = true →
      exec (.pcDisarm j v) s = .next (
        (((s.noteHost (PC_CTRL j)).setReg (PC_CTRL j) (mergeWord (s.reg (PC_CTRL j)) v 0x003FEFC0#32)).setBit (PC_STATUS j) 0 false).setPcmp j
          { s.pcmp j with fireDue := none })) ∧
    (∀ (j : Fin 32) (v : Word) (s : State), s.accepts (PC_CTRL j) v → v.getLsbD 0 = true → v.getLsbD 1 = false →
      exec (.pcArm j v) s = .next (
        ((((s.noteHost (PC_CTRL j)).setReg (PC_CTRL j) (mergeWord (s.reg (PC_CTRL j)) v 0x003FEFC0#32)).setPcmp j
          { v := s.pair (PC_VAL_LO j) (PC_VAL_HI j), rev := v.getLsbD 13, near := false, fireDue := none }).setBit
          (PC_STATUS j) 0 true).noteTake (.pcmp j))) ∧
    (∀ (j : Fin 32) (s : State), s.takes = [.pcmp j] → s.pcArmed j = true →
      (s.pcBefore j (s.pcPos j) = true → (s.runTakes.pcmp j).near = true ∧ s.runTakes.regs = s.regs) ∧
      (s.pcBefore j (s.pcPos j) = false → s.runTakes.bit (PC_STATUS j) 2 = true ∧ (s.runTakes.pcmp j).near = (s.pcmp j).near ∧
        (s.runTakes.pcmp j).fireDue = (if s.bit (PC_CTRL j) 14 = true then some (s.mt + 1) else (s.pcmp j).fireDue))) ∧
    (∀ (j : Fin 32) (s : State) (u : Tick), s.clocked → (s.pcmp j).fireDue = some u → s.reached u = true → s.pcArmed j = true →
      ∃ t, exec (.pcImmediateFire j) s = .next t ∧ t.pcArmed j = false ∧ t.bit (PC_STATUS j) 1 = true ∧ t.bit (PC_STATUS j) 3 = true ∧
        t.pair (PC_POS_LO j) (PC_POS_HI j) = s.pcPos j ∧ t.pair (PC_STAMP_LO j) (PC_STAMP_HI j) = s.now) ∧
    (∀ (j : Fin 32) (s : State), s.clocked → s.pcLive j = true → s.pcTgt j = 0 → (s.pcmp j).near = true →
      s.pcBefore j (s.pcPos j) = false →
      ∃ t, exec (.pcShaftCrossing j) s = .next t ∧ t.pcArmed j = false ∧ t.bit (PC_STATUS j) 1 = true ∧
        t.pair (PC_POS_LO j) (PC_POS_HI j) = s.pcPos j ∧ t.pair (PC_STAMP_LO j) (PC_STAMP_HI j) = s.now) ∧
    (∀ (i : Fin 8) (a b z : Bool) (s : State), s.clocked → s.cvMode i = 1 → s.cvInputs i = (a, b, z) →
      (s.culvert i).raw ≠ (a, b, z) →
      exec (.culvertRawChange i a b z) s = .next (s.setCulvert i { s.culvert i with
        raw := (a, b, z), pipe := (s.culvert i).pipe ++ [(s.mt + 4, a, b, z)] })) ∧
    (∀ (i : Fin 8) (s : State), s.clocked → s.cvMode i = 2 → s.cvPresent i = true → s.cvOwed i ≠ 0 →
      s.reached (s.culvert i).nextDue = true →
      ∃ t, exec (.culvertRegenState i) s = .next t ∧
        (t.culvert i).state = (if 0 < s.cvOwed i then (s.culvert i).state + 1 else (s.culvert i).state - 1) ∧
        (t.culvert i).nextDue = s.mt + BitVec.ofNat 64 (max 16 (s.culvert i).gap)))

/-! ### Threads and the engine -/

/-- Host control of threads (R204, R206, R212, R213): START makes an idle thread READY at its PC; an engine without a thread selects one of
the highest priority that is READY, which runs two microcycles after the one of its selection; START of any other thread is refused; HALT waits for the next POLL of a running thread and stops any other at once, and with it a switch to it; the context registers of an
idle thread take a write, and those of any other refuse it. -/
def Obligations.ThreadsAreStartedHaltedAndWritten : Prop :=
  (∀ (n : Fin 24) (t : Fin 16) (v : Word) (s : State), s.accepts (TH_CTRL n t) v → v.getLsbD 1 = true → v.getLsbD 2 = false →
    s.thIdle n t = true → s.ucodeValid = true → s.bit UC_LOAD_STATUS 31 = false → s.bit (CL_STATUS n) 31 = false →
    ∃ u, exec (.thStart n t v) s = .next u ∧ u.thState n t = thReady ∧ u.thPrio n t = bitsOf v 9 8 ∧
      u.thPc n t = s.thPc n t ∧ u.runningThread n = s.runningThread n ∧ (∀ i : Nat, i < 16 → u.g n t i = s.g n t i)) ∧
  ((∀ (n : Nat) (s : State) (t : Nat), s.pickThread n = some t → t < 16 ∧ s.thState n t = thReady ∧
      (∀ u : Nat, u < 16 → s.thState n u = thReady → s.thPrio n u ≤ s.thPrio n t)) ∧
    (∀ (n : Fin 24) (s : State) (t : Nat), s.maySelect n = true → s.runningThread n = none → s.switchingThread n = none →
      s.pickThread n = some t →
      ((s.engineTick n).engine n).switching = some (t, s.microStart + 4) ∧
        (s.engineTick n).reg (CL_SWITCH_CNT n) = s.reg (CL_SWITCH_CNT n) + 1 ∧ (s.engineTick n).thState n t = thReady) ∧
    (∀ (n : Fin 24) (s : State) (t : Nat) (u : Tick), s.switchingThread n = some (t, u) → t < 16 → s.engineRuns n = true →
      s.reached u = true →
      (s.engineBegin n).thState n t = thRunning ∧ (s.engineBegin n).runningThread n = some t ∧
        ((s.engineBegin n).engine n).switching = none ∧
        ((s.engineBegin n).engine n).freeAt = (if (s.thread n t).owes = 2 then s.mt + 2 else s.mt))) ∧
  (∀ (n : Fin 24) (t : Fin 16) (v : Word) (s : State), s.accepts (TH_CTRL n t) v → v.getLsbD 1 = true → v.getLsbD 2 = false →
    s.thIdle n t = false →
    exec (.thStart n t v) s =
      .next (((s.noteHost (TH_CTRL n t)).setFld (TH_CTRL n t) 9 8 (bitsOf v 9 8)).raise (TH_STATUS n t) 10)) ∧
  (∀ (n : Fin 24) (t : Fin 16) (v : Word) (s : State), s.accepts (TH_CTRL n t) v → v.getLsbD 1 = false → v.getLsbD 2 = true →
    s.thState n t = thRunning →
    exec (.thHalt n t v) s = .next (((s.noteHost (TH_CTRL n t)).setFld (TH_CTRL n t) 9 8 (bitsOf v 9 8)).setThread n t
      { s.thread n t with haltReq := true })) ∧
  (∀ (n : Fin 24) (t : Fin 16) (v : Word) (s : State), s.accepts (TH_CTRL n t) v → v.getLsbD 1 = false → v.getLsbD 2 = true →
    s.thState n t = thReady →
    exec (.thHalt n t v) s =
      .next ((((s.noteHost (TH_CTRL n t)).setFld (TH_CTRL n t) 9 8 (bitsOf v 9 8)).dropSwitch n t).setThState n t thHalted 0)) ∧
  (∀ (n t : Nat) (s : State), ((s.dropSwitch n t).engine n).switching =
    (if (s.engine n).switching.map Prod.fst = some t then none else (s.engine n).switching)) ∧
  (∀ (n : Fin 24) (t : Fin 16) (off : Nat) (v m : Word) (s : State), s.accepts (TH_CTRL n t + off) v → thMask off = some m →
    exec (.thContextWrite n t off v) s = .next (
      if s.thIdle n t = true then (s.noteHost (TH_CTRL n t + off)).setReg (TH_CTRL n t + off) (v &&& m)
      else (s.noteHost (TH_CTRL n t + off)).raise (TH_STATUS n t) 11))

/-- Microwords (R207, R208, R211): TRAP faults the running thread with MICRO_TRAP; POLL goes on at NEXT unless the thread gives up the
engine; a branch goes on at NEXT with bit 0 set by its condition, and a datapath microword at NEXT; a parity error stops the engine; a
written HALT takes effect at a POLL (R212). Waits and reservoir accesses (R203, R233): a thread whose wait was met two ticks ago is READY,
a time or angle wait leaving its status and the PC at the next instruction, a wait for a ring or an access both as they are; an access
acts 40 ticks after its issue, and one that meets an uncorrectable error faults the thread with RESV_UE. A microword is one command;
accesses and resumes act only when they are due: the model's choice (notes/assumptions/2.md, notes/assumptions/14.md,
notes/assumptions/16.md, notes/assumptions/17.md, notes/assumptions/82.md). -/
def Obligations.MicrowordsRunAndThreadsResume : Prop :=
  ((∀ (n : Fin 24) (t : Nat) (s : State), s.clocked → s.microThread n = some t → (s.engine n).pollDue = false →
      microOp (s.microword (s.thread n t).upc) = 0 →
      ∃ u, exec (.trapWord n) s = .next u ∧ u.thState n t = thFaulted ∧ u.fld (TH_STATUS n t) 23 16 = 6 ∧
        u.reg (FAULT_PC n t) = s.reg (TH_PC n t)) ∧
    (∀ (n : Fin 24) (t : Nat) (s : State), s.clocked → s.microThread n = some t → (s.engine n).pollDue = false →
      microOp (s.microword (s.thread n t).upc) = 1 → (s.thread n t).haltReq = false →
      (s.microStep n t (microNext (s.microword (s.thread n t).upc))).givesUp n t = false →
      ∃ u, exec (.poll n) s = .next u ∧ (u.thread n t).upc = microNext (s.microword (s.thread n t).upc) ∧
        u.runningThread n = some t ∧ (u.engine n).freeAt = s.mt + 2 ∧ (u.engine n).sincePoll = 0 ∧
        u.reg (CL_POLL_MAX n) = (if (s.reg (CL_POLL_MAX n)).toNat < (s.engine n).sincePoll + 1
          then BitVec.ofNat 32 ((s.engine n).sincePoll + 1) else s.reg (CL_POLL_MAX n))) ∧
    (∀ (n : Fin 24) (t : Nat) (s : State), s.clocked → s.microThread n = some t → (s.engine n).pollDue = true →
      (s.thread n t).haltReq = true →
      ∃ u, exec (.poll n) s = .next u ∧ u.thState n t = thHalted ∧ (u.thread n t).haltReq = false) ∧
    (∀ (n : Fin 24) (t : Nat) (cond : Bool) (s : State), s.clocked → s.microThread n = some t → (s.engine n).pollDue = false →
      2 ≤ microOp (s.microword (s.thread n t).upc) → microOp (s.microword (s.thread n t).upc) ≤ 15 →
      exec (.microBranch n cond) s = .next (s.microStep n t
        (if cond = true then microNext (s.microword (s.thread n t).upc) ||| 1 else microNext (s.microword (s.thread n t).upc)))) ∧
    (∀ (n : Fin 24) (t : Nat) (s : State), s.clocked → s.microThread n = some t → (s.engine n).pollDue = false →
      16 ≤ microOp (s.microword (s.thread n t).upc) →
      exec (.datapathMicroword n false) s = .next (s.microStep n t (microNext (s.microword (s.thread n t).upc)))) ∧
    (∀ (n : Fin 24) (t : Nat) (s : State), s.clocked → s.microThread n = some t →
      ∃ u, exec (.datapathMicroword n true) s = .next u ∧ u.thState n t = thFaulted ∧ u.fld (TH_STATUS n t) 23 16 = 7 ∧
        u.bit (CL_STATUS n) 31 = true ∧ u.bit (CL_STATUS n) 30 = true ∧ u.maySelect n = false ∧ u.runningThread n = none)) ∧
  ((∀ (n : Fin 24) (t : Fin 16) (s : State) (m : Tick) (target : Stamp), s.clocked → (s.thread n t).metAt = some m →
      (s.thread n t).wait = .time target → s.thState n t = thWaiting → s.engineRuns n = true → s.mt.getLsbD 0 = false →
      s.reached (m + 2) = true →
      ∃ u, exec (.threadReady n t) s = .next u ∧ u.thState n t = thReady ∧ u.fld (TH_FLAGS n t) 7 4 = (s.thread n t).metSt % 16 ∧
        u.thPc n t = (s.thPc n t + 4) % 65536 / 4 * 4 ∧ (u.thread n t).wait = .none) ∧
    (∀ (n : Fin 24) (t : Fin 16) (s : State) (m : Tick), s.clocked → (s.thread n t).metAt = some m → (s.thread n t).wait ≠ .none →
      (∀ target, (s.thread n t).wait ≠ .time target) → (∀ h pos back due, (s.thread n t).wait ≠ .angle h pos back due) →
      s.thState n t = thWaiting → s.engineRuns n = true → s.mt.getLsbD 0 = false → s.reached (m + 2) = true →
      ∃ u, exec (.threadReady n t) s = .next u ∧ u.thState n t = thReady ∧ u.reg (TH_FLAGS n t) = s.reg (TH_FLAGS n t) ∧
        u.thPc n t = s.thPc n t ∧ (u.thread n t).wait = .none) ∧
    (∀ (n : Fin 24) (t d : Fin 16) (sz addr next : Nat) (issued : Tick) (s : State), s.clocked → sz ≤ 5 → sz ≠ 3 →
      (s.thread n t).wait = .access 5 sz addr d issued next → (s.thread n t).metAt = none → s.reached (issued + 40) = true →
      s.resPoisoned addr (2 ^ (sz % 4)) = false → (s.thread n t).haltReq = false →
      ∃ u, exec (.reservoirAccessComplete n t) s = .next u ∧ u.g n t d = extend sz (s.resRead addr (2 ^ (sz % 4))) ∧
        u.thPc n t = next % 65536 / 4 * 4 ∧ (u.thread n t).metAt = some s.mt ∧ u.reservoir = s.reservoir ∧
        (∀ i : Nat, i < 16 → i ≠ d.val → u.g n t i = s.g n t i)) ∧
    (∀ (n : Fin 24) (t d : Fin 16) (sz addr next : Nat) (issued : Tick) (s : State), s.clocked → sz ≤ 2 →
      (s.thread n t).wait = .access 6 sz addr d issued next → (s.thread n t).metAt = none → s.reached (issued + 40) = true →
      s.resPoisoned addr (2 ^ sz) = false → (s.thread n t).haltReq = false →
      ∃ u, exec (.reservoirAccessComplete n t) s = .next u ∧
        u.reservoir = Memory.write s.reservoir addr ((s.g n t d).toNat % 2 ^ (8 * 2 ^ sz)) (2 ^ sz) ∧
        u.thPc n t = next % 65536 / 4 * 4 ∧ (u.thread n t).metAt = some s.mt ∧ (∀ i : Nat, i < 16 → u.g n t i = s.g n t i)) ∧
    (∀ (n : Fin 24) (t d : Fin 16) (sz addr next : Nat) (issued : Tick) (s : State), s.clocked →
      (s.thread n t).wait = .access 7 sz addr d issued next → (s.thread n t).metAt = none → s.reached (issued + 40) = true →
      s.resPoisoned addr 4 = false → (s.thread n t).haltReq = false →
      ∃ u, exec (.reservoirAccessComplete n t) s = .next u ∧ u.g n t d = BitVec.ofNat 32 (s.resRead addr 4) ∧
        u.reservoir = Memory.write s.reservoir addr ((s.resRead addr 4 + (s.g n t d).toNat) % 2 ^ 32) 4) ∧
    (∀ (n : Fin 24) (t d : Fin 16) (sz addr next : Nat) (issued : Tick) (s : State), s.clocked →
      (s.thread n t).wait = .access 5 sz addr d issued next → (s.thread n t).metAt = none → s.reached (issued + 40) = true →
      s.resPoisoned addr (2 ^ (sz % 4)) = true →
      ∃ u, exec (.reservoirAccessComplete n t) s = .next u ∧ u.thState n t = thFaulted ∧ u.fld (TH_STATUS n t) 23 16 = 5 ∧
        u.reg (FAULT_INFO n t) = BitVec.ofNat 32 addr ∧ u.bit GSTAT 7 = true))

/-! ### The instructions of KCI -/

/-- The ALU instructions (R223, R225, R230): in its commit tick the instruction writes the function's result to Gd, but for CMP and TST,
and its flags to Z, N, C and V, keeps ST, every other register and every memory, and goes on at the next instruction. An instruction is
one command, in its commit tick, with the POLL after it as a command of its own: the model's choice (notes/assumptions/14.md,
notes/assumptions/16.md, notes/assumptions/17.md). -/
def Obligations.KciArithmeticWritesItsRegister : Prop :=
  ∀ (n : Fin 24) (t : Nat) (w : Word) (s : State) (p : (Fin 24 → Instr) × Kci) (f : Alu), p ∈ kciRows → p.2 = .alu f →
    s.kciRuns n t w p.2 →
    let b := if kOpc w = 0x01 then s.g n t (kB w) else if kX w = true then s.kExt n t else bvInt 32 (signed 12 (kImm w))
    let r := f.run (flagsOf (s.reg (TH_FLAGS n t))) (s.g n t (kA w)) b
    ∃ u, exec (p.1 n) s = .next u ∧ s.kciEnds u n t (s.thPc n t + kciBytes w) ∧ flagsOf (u.reg (TH_FLAGS n t)) = r.2 ∧
      u.thSt n t = s.thSt n t ∧ (f.writes = true → u.g n t (kD w) = r.1) ∧ s.keepsG u n t (if f.writes = true then [kD w] else []) ∧
      u.localRam = s.localRam ∧ u.reservoir = s.reservoir ∧ u.thStamp n t = s.thStamp n t

/-- What the ALU functions compute, in the arithmetic of the manual's table (R230, R231). -/
def Obligations.AluFunctionsCompute : Prop :=
  ∀ (f : Flags) (a b : Word),
    (∀ o : Alu, ((o.run f a b).2.z = true ↔ (o.run f a b).1 = 0) ∧ ((o.run f a b).2.n = true ↔ (o.run f a b).1.toInt < 0)) ∧
    (∀ o ∈ [Alu.and, .or, .xor, .andn, .mulh, .mulhu, .min, .max, .minu, .maxu, .tst, .mov, .clz],
      (o.run f a b).2.c = f.c ∧ (o.run f a b).2.v = f.v) ∧
    (∀ o ∈ [Alu.shl, .shr, .sar, .ror], (o.run f a b).2.v = f.v ∧ (b.toNat % 32 = 0 → (o.run f a b).1 = a ∧ (o.run f a b).2.c = f.c)) ∧
    (∀ c : Bool, ((if c then Alu.addc else .add).run { f with c := true } a b).1.toNat = (a.toNat + b.toNat + c.toNat) % 2 ^ 32 ∧
      (((if c then Alu.addc else .add).run { f with c := true } a b).2.c = true ↔ 2 ^ 32 ≤ a.toNat + b.toNat + c.toNat) ∧
      (((if c then Alu.addc else .add).run { f with c := true } a b).2.v = true ↔
        a.toInt + b.toInt + c.toNat < -2 ^ 31 ∨ 2 ^ 31 ≤ a.toInt + b.toInt + c.toNat)) ∧
    (∀ c : Bool, ((if c then Alu.subb else .sub).run { f with c := true } a b).1.toNat = (2 ^ 33 + a.toNat - b.toNat - c.toNat) % 2 ^ 32 ∧
      (((if c then Alu.subb else .sub).run { f with c := true } a b).2.c = true ↔ a.toNat < b.toNat + c.toNat) ∧
      (((if c then Alu.subb else .sub).run { f with c := true } a b).2.v = true ↔
        a.toInt - b.toInt - c.toNat < -2 ^ 31 ∨ 2 ^ 31 ≤ a.toInt - b.toInt - c.toNat)) ∧
    (Alu.addc.run { f with c := false } a b = Alu.add.run { f with c := false } a b ∧
      Alu.subb.run { f with c := false } a b = Alu.sub.run { f with c := false } a b ∧ Alu.cmp.run f a b = Alu.sub.run f a b ∧
      Alu.tst.run f a b = Alu.and.run f a b ∧ (Alu.mov.run f a b).1 = b) ∧
    (b.toNat % 32 ≠ 0 →
      (Alu.shl.run f a b).1.toNat = a.toNat * 2 ^ (b.toNat % 32) % 2 ^ 32 ∧ (Alu.shl.run f a b).2.c = a.getLsbD (32 - b.toNat % 32) ∧
      (Alu.shr.run f a b).1.toNat = a.toNat / 2 ^ (b.toNat % 32) ∧ (Alu.sar.run f a b).1.toInt = a.toInt / 2 ^ (b.toNat % 32) ∧
      (Alu.shr.run f a b).2.c = a.getLsbD (b.toNat % 32 - 1) ∧ (Alu.sar.run f a b).2.c = a.getLsbD (b.toNat % 32 - 1) ∧
      (∀ i : Nat, i < 32 → (Alu.ror.run f a b).1.getLsbD i = a.getLsbD ((i + b.toNat % 32) % 32))) ∧
    ((Alu.mul.run f a b).1.toNat = a.toNat * b.toNat % 2 ^ 32 ∧
      ((Alu.mul.run f a b).2.v = true ↔ a.toInt * b.toInt < -2 ^ 31 ∨ 2 ^ 31 ≤ a.toInt * b.toInt) ∧
      (Alu.mulh.run f a b).1.toInt = a.toInt * b.toInt / 2 ^ 32 ∧ (Alu.mulhu.run f a b).1.toNat = a.toNat * b.toNat / 2 ^ 32) ∧
    ((Alu.min.run f a b).1.toInt = min a.toInt b.toInt ∧ (Alu.max.run f a b).1.toInt = max a.toInt b.toInt ∧
      (Alu.minu.run f a b).1.toNat = min a.toNat b.toNat ∧ (Alu.maxu.run f a b).1.toNat = max a.toNat b.toNat) ∧
    (b = 0 → (Alu.div.run f a b).1 = 0xFFFFFFFF#32 ∧ (Alu.divu.run f a b).1 = 0xFFFFFFFF#32 ∧ (Alu.rem.run f a b).1 = a ∧
      (Alu.remu.run f a b).1 = a ∧ ∀ o ∈ [Alu.div, .divu, .rem, .remu], (o.run f a b).2.v = true) ∧
    (a = 0x80000000#32 → b = 0xFFFFFFFF#32 → (Alu.div.run f a b).1 = 0x80000000#32 ∧ (Alu.rem.run f a b).1 = 0 ∧
      (Alu.div.run f a b).2.v = true ∧ (Alu.rem.run f a b).2.v = true) ∧
    (b ≠ 0 → (Alu.divu.run f a b).1.toNat = a.toNat / b.toNat ∧ (Alu.remu.run f a b).1.toNat = a.toNat % b.toNat ∧
      (Alu.divu.run f a b).2.v = false ∧ (Alu.remu.run f a b).2.v = false) ∧
    (b ≠ 0 → ¬(a = 0x80000000#32 ∧ b = 0xFFFFFFFF#32) → (Alu.div.run f a b).1.toInt = a.toInt.tdiv b.toInt ∧
      (Alu.rem.run f a b).1.toInt = a.toInt - a.toInt.tdiv b.toInt * b.toInt ∧
      (Alu.div.run f a b).2.v = false ∧ (Alu.rem.run f a b).2.v = false) ∧
    (a = 0 → (Alu.clz.run f a b).1 = 32) ∧
    (a ≠ 0 → (Alu.clz.run f a b).1.toNat < 32 ∧ 2 ^ (31 - (Alu.clz.run f a b).1.toNat) ≤ a.toNat ∧
      a.toNat < 2 ^ (32 - (Alu.clz.run f a b).1.toNat))

/-- Loads, stores and branches (R232 to R235): LD and ST reach local RAM, LDR, STR and RXADD issue their access and wait; an address off
its width faults with ALIGN, and one beyond the reservoir with RESV_RANGE. BR, JAL and JR go on at their targets, and the links are
written. An instruction is one command, in its commit tick, with the POLL after it as a command of its own: the model's choice
(notes/assumptions/14.md, notes/assumptions/16.md, notes/assumptions/17.md). -/
def Obligations.KciReachesMemoryAndBranches : Prop :=
  (∀ (n : Fin 24) (t : Nat) (w : Word) (s : State), s.kciRuns n t w .ld → (s.kAddr n t w).toNat % szBytes w = 0 →
    ∃ u, exec (.kLd n) s = .next u ∧ s.kciEnds u n t (s.thPc n t + kciBytes w) ∧
      (kSz w ≠ 3 → u.g n t (kD w) = extend (kSz w) (s.ramRead n (s.kAddr n t w).toNat (szBytes w))) ∧
      (kSz w = 3 → u.gPair n t (kD w) = BitVec.ofNat 64 (s.ramRead n (s.kAddr n t w).toNat 8)) ∧
      s.keepsG u n t (if kSz w = 3 then [kD w, kD w + 1] else [kD w]) ∧ u.localRam = s.localRam ∧
      u.reg (TH_FLAGS n t) = s.reg (TH_FLAGS n t)) ∧
  (∀ (n : Fin 24) (t : Nat) (w : Word) (s : State), s.kciRuns n t w .st → (s.kAddr n t w).toNat % szBytes w = 0 →
    ∃ u, exec (.kSt n) s = .next u ∧ s.kciEnds u n t (s.thPc n t + kciBytes w) ∧
      u.localRam = Memory.write s.localRam (s.ramKey n (s.kAddr n t w).toNat)
        (if kSz w = 3 then (s.gPair n t (kD w)).toNat else (s.g n t (kD w)).toNat % 2 ^ (8 * szBytes w)) (szBytes w) ∧
      s.keepsG u n t [] ∧ u.reg (TH_FLAGS n t) = s.reg (TH_FLAGS n t)) ∧
  (∀ (n : Fin 24) (t : Nat) (w : Word) (s : State) (p : (Fin 24 → Instr) × Kci), p ∈ kciRows → p.2 ∈ [Kci.ld, .st, .ldr, .str, .rxadd] →
    s.kciRuns n t w p.2 → (s.kAddr n t w).toNat % szBytes w ≠ 0 →
    ∃ u, exec (p.1 n) s = .next u ∧ s.faulted u n t 3 (s.kAddr n t w) ∧ s.keepsG u n t [] ∧ u.localRam = s.localRam) ∧
  (∀ (n : Fin 24) (t : Nat) (w : Word) (s : State) (p : (Fin 24 → Instr) × Nat),
    p ∈ [(Instr.kLdr, 5), (Instr.kStr, 6), (Instr.kRxadd, 7)] →
    s.kciRuns n t w (if p.2 = 5 then .ldr else if p.2 = 6 then .str else .rxadd) → (s.kAddr n t w).toNat % szBytes w = 0 →
    (s.kAddr n t w).toNat < 2 ^ 24 →
    ∃ u, exec (p.1 n) s = .next u ∧
      s.kciWaits u n t 4 (.access p.2 (kSz w) (s.kAddr n t w).toNat (kD w) s.mt (s.thPc n t + kciBytes w)) ∧ u.reservoir = s.reservoir) ∧
  (∀ (n : Fin 24) (t : Nat) (w : Word) (s : State) (p : (Fin 24 → Instr) × Kci), p ∈ kciRows → p.2 ∈ [Kci.ldr, .str, .rxadd] →
    s.kciRuns n t w p.2 → (s.kAddr n t w).toNat % szBytes w = 0 → 2 ^ 24 ≤ (s.kAddr n t w).toNat →
    ∃ u, exec (p.1 n) s = .next u ∧ s.faulted u n t 4 (s.kAddr n t w) ∧ s.keepsG u n t []) ∧
  (∀ (n : Fin 24) (t : Nat) (w : Word) (s : State), s.kciRuns n t w .br →
    ∃ u, exec (.kBr n) s = .next u ∧ s.keepsG u n t [] ∧ u.reg (TH_FLAGS n t) = s.reg (TH_FLAGS n t) ∧
      s.kciEnds u n t (if condHolds (kCond w) (s.reg (TH_FLAGS n t)) = true
        then (((s.thPc n t : Int) + 4 * signed 16 (bitsOf w 15 0)) % 65536).toNat else s.thPc n t + 4)) ∧
  (∀ (n : Fin 24) (t : Nat) (w : Word) (s : State), s.kciRuns n t w .jal →
    ∃ u, exec (.kJal n) s = .next u ∧ u.g n t (kD w) = BitVec.ofNat 32 ((s.thPc n t + 4) % 65536) ∧ s.keepsG u n t [kD w] ∧
      s.kciEnds u n t (((s.thPc n t : Int) + 4 * signed 16 (bitsOf w 15 0)) % 65536).toNat) ∧
  (∀ (n : Fin 24) (t : Nat) (w : Word) (s : State), s.kciRuns n t w .jr → bitsOf (s.g n t (kA w)) 1 0 = 0 →
    ∃ u, exec (.kJr n) s = .next u ∧ u.g n t (kD w) = BitVec.ofNat 32 ((s.thPc n t + 4) % 65536) ∧ s.keepsG u n t [kD w] ∧
      s.kciEnds u n t ((s.g n t (kA w)).toNat % 65536)) ∧
  (∀ (n : Fin 24) (t : Nat) (w : Word) (s : State), s.kciRuns n t w .jr → bitsOf (s.g n t (kA w)) 1 0 ≠ 0 →
    ∃ u, exec (.kJr n) s = .next u ∧ s.faulted u n t 3 (s.g n t (kA w)) ∧ s.keepsG u n t [])

/-- Channel operations and the reads of shafts, accumulators, trackers and identification (R236 to R238, R241 to R243): a read
gives the value as it stood before the updates of the commit tick, and a clear leaves what hardware sets in that tick (R7). An instruction is
one command, in its commit tick, with the POLL after it as a command of its own: the model's choice (notes/assumptions/14.md,
notes/assumptions/16.md, notes/assumptions/17.md). -/
def Obligations.KciReadsAndWritesItsDevices : Prop :=
  (∀ (n : Fin 24) (t : Nat) (w : Word) (s : State), s.kciRuns n t w .chrd →
    chanAssigned (s.kChannel n t w) (4 * kWoff w) = true →
    ∃ u, exec (.kChrd n) s = .next u ∧ s.kciEnds u n t (s.thPc n t + 4) ∧
      u.g n t (kD w) = s.beforeTick (chanAddr (s.kChannel n t w) (4 * kWoff w)) (s.chanLive (s.kChannel n t w) (4 * kWoff w)) &&&
        ~~~ woMask (chanAddr (s.kChannel n t w) (4 * kWoff w)) ∧
      s.keepsG u n t [kD w] ∧ u.reg (TH_FLAGS n t) = s.reg (TH_FLAGS n t)) ∧
  (∀ (n : Fin 24) (t : Nat) (w : Word) (s : State) (p : (Fin 24 → Instr) × Kci), p ∈ [(Instr.kChrd, Kci.chrd), (Instr.kChstat, Kci.chstat)] →
    s.kciRuns n t w p.2 → chanAssigned (s.kChannel n t w) (4 * kWoff w) = false →
    ∃ u, exec (p.1 n) s = .next u ∧ s.kciEnds u n t (s.thPc n t + 4) ∧ u.g n t (kD w) = 0 ∧ u.thSt n t = 0xB ∧
      s.keepsG u n t [kD w]) ∧
  (∀ (n : Fin 24) (t : Nat) (w : Word) (s : State), s.kciRuns n t w .chwr → chanAssigned (s.kChannel n t w) (4 * kWoff w) = false →
    ∃ u, exec (.kChwr n) s = .next u ∧ s.kciEnds u n t (s.thPc n t + 4) ∧ u.thSt n t = 0xB ∧ s.keepsG u n t [] ∧
      u.chans = s.chans) ∧
  (∀ (n : Fin 24) (t : Nat) (w : Word) (s : State), s.kciRuns n t w .chwr → chanAssigned (s.kChannel n t w) (4 * kWoff w) = true →
    let a := chanAddr (s.kChannel n t w) (4 * kWoff w)
    (s.wroteNow a = false →
      ∃ u, exec (.kChwr n) s = .next u ∧ s.kciEnds u n t (s.thPc n t + 4) ∧ s.keepsG u n t [] ∧
        u.thSt n t = (if s.refuses a (s.g n t (kA w)) = true then 0xC else 0)) ∧
    (s.wroteNow a = true →
      ∃ u, exec (.kChwr n) s = .next u ∧ s.kciEnds u n t (s.thPc n t + 4) ∧ s.keepsG u n t [] ∧
        u.later = s.later ++ [.thread n t a (s.g n t (kA w))])) ∧
  (∀ (n : Fin 24) (t : Nat) (w : Word) (s : State), s.kciRuns n t w .chwr → 4 * kWoff w = 0x00C →
    s.wroteNow (PERIOD (s.kChannel n t w)) = false →
    ∃ u, exec (.kChwr n) s = .next u ∧ s.kciEnds u n t (s.thPc n t + 4) ∧ u.thSt n t = 0 ∧ s.keepsG u n t [] ∧
      u.reg (PERIOD (s.kChannel n t w)) = s.g n t (kA w)) ∧
  (∀ (n : Fin 24) (t : Nat) (w : Word) (s : State), s.kciRuns n t w .chwr → 4 * kWoff w = 0x010 →
    s.wroteNow (COUNT (s.kChannel n t w)) = false → s.running (s.kChannel n t w) = true →
    ∃ u, exec (.kChwr n) s = .next u ∧ s.kciEnds u n t (s.thPc n t + 4) ∧ u.thSt n t = 0xC ∧
      u.reg (COUNT (s.kChannel n t w)) = s.reg (COUNT (s.kChannel n t w)) ∧ u.bit (CH_STATUS (s.kChannel n t w)) 6 = true) ∧
  (∀ (n : Fin 24) (t : Nat) (w : Word) (s : State), s.kciRuns n t w .chrd64 → kSub w = 1 → s.kChannel n t w % 2 = 0 →
    ∃ u, exec (.kChrd64 n) s = .next u ∧ s.kciEnds u n t (s.thPc n t + 4) ∧ u.g n t (kD w) = s.reg (COUNT (s.kChannel n t w)) ∧
      u.g n t (kD w + 1) = s.reg (COUNT (s.kChannel n t w + 1)) ∧ u.thSt n t = 0 ∧ s.keepsG u n t [kD w, kD w + 1]) ∧
  (∀ (n : Fin 24) (t : Nat) (w : Word) (s : State), s.kciRuns n t w .chrd64 → kSub w = 1 → s.kChannel n t w % 2 = 1 →
    ∃ u, exec (.kChrd64 n) s = .next u ∧ s.kciEnds u n t (s.thPc n t + 4) ∧ u.thSt n t = 0xB ∧ s.keepsG u n t []) ∧
  (∀ (n : Fin 24) (t : Nat) (w : Word) (s : State), s.kciRuns n t w .chrd64 → kSub w = 0 → 4 * kWoff w = 0x128 →
    ∃ u, exec (.kChrd64 n) s = .next u ∧ s.kciEnds u n t (s.thPc n t + 4) ∧ u.thSt n t = 0 ∧
      u.g n t (kD w) = s.beforeTick (CAP_RISE_LO (s.kChannel n t w)) (loWord (s.chan (s.kChannel n t w)).capRise) ∧
      u.g n t (kD w + 1) = s.beforeTick (CAP_RISE_HI (s.kChannel n t w)) (hiWord (s.chan (s.kChannel n t w)).capRise)) ∧
  (∀ (n : Fin 24) (t : Nat) (w : Word) (s : State), s.kciRuns n t w .chstat → 4 * kWoff w = 0x034 →
    s.wroteNow (CMP_STATUS (s.kChannel n t w)) = false →
    let a := CMP_STATUS (s.kChannel n t w)
    let v := s.beforeTick a (s.reg a)
    ∃ u, exec (.kChstat n) s = .next u ∧ s.kciEnds u n t (s.thPc n t + 4) ∧ u.g n t (kD w) = v ∧
      u.reg a = s.reg a &&& ~~~ (v &&& s.g n t (kA w) &&& 0xFFF#32 &&& ~~~ s.inTick.keptBits a) ∧ u.thSt n t = s.thSt n t) ∧
  (∀ (n : Fin 24) (t : Nat) (w : Word) (s : State), s.kciRuns n t w .shrd → s.fld ID_CLUSTER 31 24 ≤ s.kShaft n t w →
    ∃ u, exec (.kShrd n) s = .next u ∧ s.kciEnds u n t (s.thPc n t + 4) ∧ u.thSt n t = 4 ∧ s.keepsG u n t []) ∧
  (∀ (n : Fin 24) (t : Nat) (w : Word) (s : State), s.kciRuns n t w .shrd → s.kShaft n t w < s.fld ID_CLUSTER 31 24 →
    ∃ u, exec (.kShrd n) s = .next u ∧ s.kciEnds u n t (s.thPc n t + 4) ∧ u.thSt n t = 0 ∧
      (kFnI w = 0 → u.gPair n t (kD w) = s.shPos (s.kShaft n t w)) ∧
      (kFnI w = 1 → u.gPair n t (kD w) = bvInt 64 (s.shMotion (s.kShaft n t w)).1) ∧
      (kFnI w = 2 → u.gPair n t (kD w) = bvInt 64 (s.shMotion (s.kShaft n t w)).2.1) ∧
      (kFnI w = 3 → u.g n t (kD w) = s.snapInfo (s.kShaft n t w)) ∧
      (kFnI w = 5 → u.g n t (kD w) = s.reg (PRED_PERIOD (s.kShaft n t w))) ∧
      u.thStamp n t = (if w.getLsbD 5 = true then s.now else s.thStamp n t)) ∧
  (∀ (n : Fin 24) (t : Nat) (w : Word) (s : State) (p : (Fin 24 → Instr) × Kci), p ∈ [(Instr.kAccrd, Kci.accrd), (Instr.kMmrd, Kci.mmrd)] →
    s.kciRuns n t w p.2 → (if p.2 = .accrd then s.fld ID_ANALOG 15 8 else s.fld ID_ANALOG 7 0) ≤ s.kIndex n t w (kA w) →
    ∃ u, exec (p.1 n) s = .next u ∧ s.kciEnds u n t (s.thPc n t + 4) ∧ u.thSt n t = 0xB ∧ s.keepsG u n t [] ∧ u.adc = s.adc) ∧
  (∀ (n : Fin 24) (t : Nat) (w : Word) (s : State), s.kciRuns n t w .accrd → s.kIndex n t w (kA w) < s.fld ID_ANALOG 15 8 →
    let k := s.kIndex n t w (kA w)
    let own := fun t => t == s.mt
    ∃ u, exec (.kAccrd n) s = .next u ∧ s.kciEnds u n t (s.thPc n t + 4) ∧ u.thSt n t = 0 ∧
      u.g n t (kD w) = (s.accSeen k own).1.truncate 32 ∧
      (u.g n t (kD w + 1)).toNat = (s.accSeen k own).2.toNat * 256 + (s.accSeen k own).1.toNat / 2 ^ 32 ∧
      (w.getLsbD 12 = false → u.accValue k = s.accValue k) ∧
      (w.getLsbD 12 = true → s.accWindow k own = [] → u.accValue k = (0, 0)) ∧ s.keepsG u n t [kD w, kD w + 1]) ∧
  (∀ (n : Fin 24) (t : Nat) (w : Word) (s : State), s.kciRuns n t w .mmrd → s.kIndex n t w (kA w) < s.fld ID_ANALOG 7 0 →
    let k := s.kIndex n t w (kA w)
    let own := fun t => t == s.mt
    ∃ u, exec (.kMmrd n) s = .next u ∧ s.kciEnds u n t (s.thPc n t + 4) ∧ u.thSt n t = 0 ∧ u.g n t (kD w) = s.mmSeen k own ∧
      u.reg (MM_RD k) = (if w.getLsbD 12 = true then (s.mmWindow k own).foldl (fun w h => mmWith w h.r) 0x0000FFFF#32
        else s.reg (MM_RD k)) ∧ s.keepsG u n t [kD w]) ∧
  (∀ (n : Fin 24) (t : Nat) (w : Word) (s : State), s.kciRuns n t w .sysrd →
    ∃ u, exec (.kSysrd n) s = .next u ∧ s.kciEnds u n t (s.thPc n t + 4) ∧ s.keepsG u n t [kD w] ∧
      u.reg (TH_FLAGS n t) = s.reg (TH_FLAGS n t) ∧
      (kFnI w = 1 → (u.g n t (kD w)).toNat = n * 256 + t) ∧ (kFnI w = 0 → kImm w = 0 → u.g n t (kD w) = s.beforeTick ID_PART (s.reg ID_PART)))

/-- Time, the stamp pair, waits, YIELD and HALT (R239, R240, R244, R245, R249). A HALT that is written takes effect as the thread enters
its wait: the model's choice (notes/assumptions/82.md). An instruction is one command, in its commit tick, with the POLL after it as a
command of its own: the model's choice (notes/assumptions/14.md, notes/assumptions/16.md, notes/assumptions/17.md). -/
def Obligations.KciKeepsTimeAndWaits : Prop :=
  (∀ (n : Fin 24) (t : Nat) (w : Word) (s : State), s.kciRuns n t w .mtrd →
    ∃ u, exec (.kMtrd n) s = .next u ∧ s.kciEnds u n t (s.thPc n t + 4) ∧ u.gPair n t (kD w) = s.mt ∧ u.reg MT_HI = s.reg MT_HI ∧
      u.thStamp n t = (if w.getLsbD 12 = true then s.now else s.thStamp n t) ∧ s.keepsG u n t [kD w, kD w + 1]) ∧
  (∀ (n : Fin 24) (t : Nat) (w : Word) (s : State), s.kciRuns n t w .stld →
    ∃ u, exec (.kStld n) s = .next u ∧ s.kciEnds u n t (s.thPc n t + 4) ∧ u.thStamp n t = s.gPair n t (kA w) ∧ s.keepsG u n t [] ∧
      u.reg (TH_FLAGS n t) = s.reg (TH_FLAGS n t)) ∧
  (∀ (n : Fin 24) (t : Nat) (w : Word) (s : State), s.kciRuns n t w .stst →
    ∃ u, exec (.kStst n) s = .next u ∧ s.kciEnds u n t (s.thPc n t + 4) ∧ u.gPair n t (kD w) = s.thStamp n t ∧
      u.thStamp n t = s.thStamp n t ∧ s.keepsG u n t [kD w, kD w + 1]) ∧
  (∀ (n : Fin 24) (t : Nat) (w : Word) (s : State) (p : (Fin 24 → Instr) × Kci),
    p ∈ [(Instr.kStadd, Kci.stadd), (Instr.kStsub, Kci.stsub)] → s.kciRuns n t w p.2 →
    ∃ u, exec (p.1 n) s = .next u ∧ s.kciEnds u n t (s.thPc n t + 4) ∧ s.keepsG u n t [] ∧
      (if 2 ^ 40 ≤ (s.gPair n t (kA w)).toNat then u.thStamp n t = s.thStamp n t ∧ u.thSt n t = 3
       else u.thSt n t = 0 ∧ u.thStamp n t =
         (if p.2 = .stadd then s.thStamp n t + s.gPair n t (kA w) else s.thStamp n t - s.gPair n t (kA w)))) ∧
  (∀ (n : Fin 24) (t : Nat) (w : Word) (s : State), s.kciRuns n t w .staddi →
    ∃ u, exec (.kStaddi n) s = .next u ∧ s.kciEnds u n t (s.thPc n t + kciBytes w) ∧ s.keepsG u n t [] ∧
      u.thStamp n t = s.thStamp n t + BitVec.ofNat 64 (if kX w = true then (s.kExt n t).toNat else kImm w)) ∧
  (∀ (n : Fin 24) (t : Nat) (w : Word) (s : State), s.kciRuns n t w .stcmp →
    ∃ u, exec (.kStcmp n) s = .next u ∧ s.kciEnds u n t (s.thPc n t + 4) ∧ s.keepsG u n t [] ∧ u.thSt n t = s.thSt n t ∧
      flagsOf (u.reg (TH_FLAGS n t)) =
        { z := decide (s.thStamp n t = s.now), n := decide ((s.thStamp n t - s.now).toInt < 0), c := false, v := false }) ∧
  (∀ (n : Fin 24) (t : Nat) (w : Word) (s : State), s.kciRuns n t w .waitt → 0 ≤ ahead s.now (s.thStamp n t) →
    ∃ u, exec (.kWaitt n) s = .next u ∧ s.kciEnds u n t (s.thPc n t + 4) ∧ u.thSt n t = 0xD ∧ s.keepsG u n t []) ∧
  (∀ (n : Fin 24) (t : Nat) (w : Word) (s : State), s.kciRuns n t w .waitt → ahead s.now (s.thStamp n t) < 0 →
    ∃ u, exec (.kWaitt n) s = .next u ∧
      (if (s.thread n t).haltReq = true then u.thState n t = thHalted ∧ u.thPc n t = s.thPc n t ∧ s.keepsG u n t []
       else s.kciWaits u n t 1 (.time (s.thStamp n t)))) ∧
  (∀ (n : Fin 24) (t : Nat) (w : Word) (s : State), s.kciRuns n t w .waita → s.angleCheck (s.kShaft n t w) (s.g n t (kA w + 1)) ≠ 0 →
    ∃ u, exec (.kWaita n) s = .next u ∧ s.kciEnds u n t (s.thPc n t + 4) ∧ s.keepsG u n t [] ∧
      u.thSt n t = s.angleCheck (s.kShaft n t w) (s.g n t (kA w + 1))) ∧
  (∀ (n : Fin 24) (t : Nat) (w : Word) (s : State), s.kciRuns n t w .waita → s.angleCheck (s.kShaft n t w) (s.g n t (kA w + 1)) = 0 →
    let h := s.kShaft n t w
    let back := s.dirOf h (bitsOf w 6 5)
    let wait := Wait.angle h (s.resolveAngle h (s.shPos h) (s.g n t (kA w)) (s.g n t (kA w + 1)) back) back
      (if w.getLsbD 12 = true then some (s.thStamp n t) else none)
    ∃ u, exec (.kWaita n) s = .next u ∧
      (s.waitMet wait = none → (s.thread n t).haltReq = false → s.kciWaits u n t 2 wait) ∧
      (s.waitMet wait ≠ none → s.kciEnds u n t (s.thPc n t + 4) ∧ u.thSt n t = 0xD ∧ s.keepsG u n t [])) ∧
  (∀ (n : Fin 24) (t : Nat) (w : Word) (s : State), s.kciRuns n t w .yield → s.yieldsTo n t = false →
    ∃ u, exec (.kYield n) s = .next u ∧ s.kciEnds u n t (s.thPc n t + 4) ∧ s.keepsG u n t []) ∧
  (∀ (n : Fin 24) (t : Nat) (w : Word) (s : State), s.kciRuns n t w .yield → s.yieldsTo n t = true → (s.thread n t).haltReq = false →
    ∃ u, exec (.kYield n) s = .next u ∧ u.thState n t = thReady ∧ u.thPc n t = (s.thPc n t + 4) % 65536 / 4 * 4 ∧ s.keepsG u n t []) ∧
  (∀ (n : Fin 24) (t : Nat) (w : Word) (s : State), s.kciRuns n t w .halt →
    ∃ u, exec (.kHalt n) s = .next u ∧ u.thState n t = thHalted ∧ u.thPc n t = (s.thPc n t + 4) % 65536 / 4 * 4 ∧
      s.keepsG u n t [] ∧ u.reg (TH_FLAGS n t) = s.reg (TH_FLAGS n t))

/-- Events and rings (R246 to R248): a post leaves the post status, an accepted one counted in the ledger, and the second of a tick waits
for the next (R157); a cancel joins the weir's cancels; a push with credit offers its quad to the ring, which admits it when the BCLK
cycle ends with credit left for it (R262), and a pop takes the entry; without, the thread goes on with NO_CREDIT or EMPTY, or waits. An
instruction is one command, in its commit tick, with the POLL after it as a command of its own: the model's choice
(notes/assumptions/14.md, notes/assumptions/16.md, notes/assumptions/17.md, notes/assumptions/81.md). -/
def Obligations.KciPostsCancelsPushesAndPops : Prop :=
  (∀ (n : Fin 24) (t : Nat) (w : Word) (s : State), s.kciRuns n t w .post → s.postCheck (s.kDescriptor n t w) = 0 →
    s.postFree n = true → (s.weir n).freeSlot s.mt ≠ none →
    ∃ u, exec (.kPost n) s = .next u ∧ s.kciEnds u n t (s.thPc n t + 4) ∧ u.thSt n t = 0 ∧ s.keepsG u n t [] ∧
      (u.weir n).ledger.accepted = (s.weir n).ledger.accepted + 1 ∧ (w.getLsbD 12 = false → u.thStamp n t = s.thStamp n t)) ∧
  (∀ (n : Fin 24) (t : Nat) (w : Word) (s : State), s.kciRuns n t w .post → s.postCheck (s.kDescriptor n t w) ≠ 0 →
    s.postCheck (s.kDescriptor n t w) ≠ 8 → s.postFree n = true →
    ∃ u, exec (.kPost n) s = .next u ∧ s.kciEnds u n t (s.thPc n t + 4) ∧ u.thSt n t = s.postCheck (s.kDescriptor n t w) ∧
      s.keepsG u n t [] ∧ (u.weir n).ledger = (s.weir n).ledger ∧ (u.weir n).slots = (s.weir n).slots ∧
      u.reg (POST_REFUSED_CNT n) = satInc (s.reg (POST_REFUSED_CNT n))) ∧
  (∀ (n : Fin 24) (t : Nat) (w : Word) (s : State), s.kciRuns n t w .post → s.postFree n = false →
    ∃ u, exec (.kPost n) s = .next u ∧ u.thState n t = s.thState n t ∧ u.thPc n t = (s.thPc n t + 4) % 65536 / 4 * 4 ∧
      (u.engine n).pollDue = true ∧ (u.engine n).freeAt = s.mt + 2 ∧ s.keepsG u n t [] ∧ (u.weir n).ledger = (s.weir n).ledger ∧
      (u.weir n).posts = (s.weir n).posts ++
        [{ words := (List.range 6).map (s.kDescriptor n t w), thread := some t, first := w.getLsbD 12 }]) ∧
  (∀ (n : Fin 24) (t : Nat) (w : Word) (s : State), s.kciRuns n t w .cancel →
    ((s.weir n).cancels.tail.any (fun c => c.thread == some t)) = true →
    ∃ u, exec (.kCancel n) s = .next u ∧ s.kciEnds u n t (s.thPc n t + 4) ∧ u.thSt n t = 0xE ∧ u.weirs = s.weirs ∧ s.keepsG u n t []) ∧
  (∀ (n : Fin 24) (t : Nat) (w : Word) (s : State), s.kciRuns n t w .cancel →
    ((s.weir n).cancels.tail.any (fun c => c.thread == some t)) = false →
    ∃ u c, exec (.kCancel n) s = .next u ∧ s.kciEnds u n t (s.thPc n t + 4) ∧ u.thSt n t = 0 ∧
      (u.weir n).cancels = (s.weir n).cancels ++ [c] ∧ c.tag.toNat = kImm w ∧ c.mask.toNat = bitsOf (s.g n t (kA w)) 11 0 ∧
      c.thread = some t ∧ c.host = false) ∧
  (∀ (n : Fin 24) (t : Nat) (w : Word) (s : State) (p : (Fin 24 → Instr) × Kci), p ∈ [(Instr.kPush, Kci.push), (Instr.kPop, Kci.pop)] →
    s.kciRuns n t w p.2 →
    let r := s.kIndex n t w (if p.2 = .push then kD w else kA w)
    (s.fld ID_QUEUE 15 8 ≤ r → ∃ u, exec (p.1 n) s = .next u ∧ s.kciEnds u n t (s.thPc n t + 4) ∧ u.thSt n t = 0xB ∧ u.rings = s.rings ∧
      s.keepsG u n t []) ∧
    (r < s.fld ID_QUEUE 15 8 → s.ringEn r = false ∨ (if p.2 = .push then s.ringProd r else s.ringCons r) ≠ n →
      ∃ u, exec (p.1 n) s = .next u ∧ s.kciEnds u n t (s.thPc n t + 4) ∧ u.thSt n t = 0xC ∧ u.rings = s.rings ∧ s.keepsG u n t []) ∧
    (r < s.fld ID_QUEUE 15 8 → s.ringEn r = true → (if p.2 = .push then s.ringProd r else s.ringCons r) = n →
      (if p.2 = .push then s.ringCreditNow r else s.ringVisible r) = 0 →
      ∃ u, exec (p.1 n) s = .next u ∧ u.rings = s.rings ∧
        (if w.getLsbD 12 = true then ((s.thread n t).haltReq = false → s.kciWaits u n t 3 (.ring r (decide (p.2 = .push))))
         else s.kciEnds u n t (s.thPc n t + 4) ∧ u.thSt n t = (if p.2 = .push then 9 else 0xA) ∧ s.keepsG u n t []))) ∧
  (∀ (n : Fin 24) (t : Nat) (w : Word) (s : State), s.kciRuns n t w .push →
    let r := s.kIndex n t w (kD w)
    r < s.fld ID_QUEUE 15 8 → s.ringEn r = true → s.ringProd r = n → s.ringCreditNow r ≠ 0 →
    ∃ u, exec (.kPush n) s = .next u ∧ s.kciEnds u n t (s.thPc n t + 4) ∧ u.thSt n t = 0 ∧ s.keepsG u n t [] ∧
      (rankPush n, Offer.push n t (s.thPc n t) (w.getLsbD 12) (s.quad n t (kA w))) ∈ (u.ring r).offers ∧
      (u.ring r).inflight = (s.ring r).inflight ∧ u.reg (RING_CREDIT r) = s.reg (RING_CREDIT r)) ∧
  ((∀ (r : Fin 64) (n t pc : Nat) (waits : Bool) (e : BitVec 128) (s : State), s.pushStatus r n = 0 → (s.ring r).inflight = [] →
      ((s.serveOffer r (.push n t pc waits e)).ring r).inflight = [.entry e] ∧
      ((s.serveOffer r (.push n t pc waits e)).ring r).admitted = (s.ring r).admitted + 1) ∧
    (∀ (r : Fin 64) (n : Fin 24) (t : Fin 16) (pc : Nat) (e : BitVec 128) (s : State), s.pushStatus r n = 9 →
      (s.serveOffer r (.push n t pc false e)).thSt n t = 9 ∧ (s.serveOffer r (.push n t pc false e)).rings = s.rings) ∧
    (∀ (r : Fin 64) (n : Fin 24) (t : Fin 16) (pc : Nat) (e : BitVec 128) (s : State), s.pushStatus r n = 9 → s.thState n t = thReady →
      (s.serveOffer r (.push n t pc true e)).thState n t = thWaiting ∧
      ((s.serveOffer r (.push n t pc true e)).thread n t).wait = .ring r true ∧
      (s.serveOffer r (.push n t pc true e)).thPc n t = pc % 65536 / 4 * 4)) ∧
  (∀ (n : Fin 24) (t : Nat) (w : Word) (s : State), s.kciRuns n t w .pop →
    let r := s.kIndex n t w (kA w)
    r < s.fld ID_QUEUE 15 8 → s.ringEn r = true → s.ringCons r = n → s.ringVisible r ≠ 0 →
    s.resPoisoned (s.entryAt r (s.reg (RING_RD r))) 16 = false →
    ∃ u, exec (.kPop n) s = .next u ∧ s.kciEnds u n t (s.thPc n t + 4) ∧ u.thSt n t = 0 ∧
      u.quad n t (kD w) = BitVec.ofNat 128 (s.resRead (s.entryAt r (s.reg (RING_RD r))) 16) ∧
      u.reg (RING_RD r) = s.reg (RING_RD r) + 1 ∧ (u.ring r).consumed = (s.ring r).consumed + 1)

/-- The swap (R251, R252, R254): a time arm fixes T and F, or is late, or missed; an arm by angle leaves the status of its checks and
takes its angle; DISARM ends an armed swap that is not FIXED; QUERY gives
SWAP_STATUS; at F the swap is FIXED, and at T the named clusters exchange their pages and their threads take new contexts, a register that
has taken its write of the tick in a later one (R407). The rows of F
and T act only when they are due, and SWAP_STATUS keeps its mask: the model's choice (notes/assumptions/2.md, notes/assumptions/25.md). -/
def Obligations.SwapIsArmedFixedAndRun : Prop :=
  (∀ (n : Fin 24) (t : Nat) (w : Word) (s : State), s.kciRuns n t w .swapArm → s.swapArmed = true →
    ∃ u, exec (.kSwapArm n) s = .next u ∧ s.kciEnds u n t (s.thPc n t + 4) ∧ u.thSt n t = 0xE ∧ u.reg SWAP_STATUS = s.reg SWAP_STATUS) ∧
  (∀ (n : Fin 24) (t : Nat) (w : Word) (s : State), s.kciRuns n t w .swapArm → s.swapArmed = false →
    s.bit SWAP_STATUS 31 = false ∨ s.bit SWAP_STATUS 30 = false →
    ∃ u, exec (.kSwapArm n) s = .next u ∧ s.kciEnds u n t (s.thPc n t + 4) ∧ u.thSt n t = 0xC ∧ u.reg SWAP_STATUS = s.reg SWAP_STATUS) ∧
  (∀ (n : Fin 24) (t : Nat) (w : Word) (s : State), s.kciRuns n t w .swapArm → s.swapArmed = false → s.bit SWAP_STATUS 31 = true →
    s.bit SWAP_STATUS 30 = true → w.getLsbD 14 = false →
    let tick := s.tickFor (s.thStamp n t + 63)
    ∃ u, exec (.kSwapArm n) s = .next u ∧ s.kciEnds u n t (s.thPc n t + 4) ∧
      (if 0 < ahead (tick - 256) s.mt then u.thSt n t = 0 ∧ u.swapArmed = true ∧ u.swap.fTick = tick - 256 ∧ u.swap.tTick = tick ∧
         u.bit SWAP_STATUS 27 = w.getLsbD 15 ∧ u.bit SWAP_STATUS 26 = w.getLsbD 16
       else if w.getLsbD 16 = true then u.thSt n t = 0 ∧ u.swapArmed = true ∧ u.swap.fTick = s.mt ∧ u.swap.tTick = s.mt + 256 ∧
         u.swap.late = true
       else u.thSt n t = 0xD ∧ u.swapArmed = false ∧ u.fld SWAP_STATUS 3 0 = 3 ∧ u.bit SWAP_STATUS 31 = true)) ∧
  (∀ (n : Fin 24) (t : Nat) (w : Word) (s : State), s.kciRuns n t w .swapArm → w.getLsbD 14 = true →
    let r := s.swapArm true ⟨true, s.thStamp n t, s.g n t (kA w), s.g n t (kA w + 1), s.kShaft n t w, bitsOf w 6 5, w.getLsbD 15,
      w.getLsbD 16⟩
    ∃ u, exec (.kSwapArm n) s = .next u ∧ s.kciEnds u n t (s.thPc n t + 4) ∧ u.thSt n t = r.1 ∧ u.swap = r.2.swap ∧
      u.reg SWAP_STATUS = r.2.reg SWAP_STATUS ∧ s.keepsG u n t []) ∧
  (∀ (n : Fin 24) (t : Nat) (w : Word) (s : State), s.kciRuns n t w .swapDisarm →
    ∃ u, exec (.kSwapDisarm n) s = .next u ∧ s.kciEnds u n t (s.thPc n t + 4) ∧
      (if s.swapFixed = true then u.thSt n t = 0xC ∧ u.reg SWAP_STATUS = s.reg SWAP_STATUS
       else if s.swapArmed = true then u.thSt n t = 0 ∧ u.swapArmed = false ∧ u.fld SWAP_STATUS 3 0 = 5
       else u.thSt n t = 0 ∧ u.reg SWAP_STATUS = s.reg SWAP_STATUS)) ∧
  (∀ (n : Fin 24) (t : Nat) (w : Word) (s : State), s.kciRuns n t w .swapQuery →
    ∃ u, exec (.kSwapQuery n) s = .next u ∧ s.kciEnds u n t (s.thPc n t + 4) ∧ u.g n t (kD w) = s.reg SWAP_STATUS ∧
      u.reg (TH_FLAGS n t) = s.reg (TH_FLAGS n t) ∧ s.keepsG u n t [kD w]) ∧
  (∀ s : State, s.clocked → s.swapArmed = true → s.swapFixed = false → s.swap.keyed = true → s.reached s.swap.fTick = true →
    exec .swapFixed s = .next (s.setBit SWAP_STATUS 28 true)) ∧
  (∀ s : State, s.clocked → s.swapFixed = true → s.reached s.swap.tTick = true → s.swap.list = [] →
    (∀ n t st w, ∀ e ∈ s.threadContext n t st w, s.wroteNow e.1 = false) →
    ∃ u, exec .swapTick s = .next u ∧ u.bit SWAP_STATUS 31 = false ∧ u.swapArmed = false ∧ u.swapFixed = false ∧
      u.fld SWAP_STATUS 3 0 = (if s.swap.late = true then 2 else 1) ∧ u.reg SWAP_SEQ = s.reg SWAP_SEQ + 1 ∧
      u.pair SWAP_STAMP_LO SWAP_STAMP_HI = stampAt s.swap.tTick 0 ∧
      (∀ n : Nat, n < 24 → s.bit SWAP_MASK n = true → (u.engine n).bank = !(s.engine n).bank ∧
        ∀ t : Nat, t < 16 → u.thStamp n t = stampAt s.swap.tTick 0 ∧ u.reg (TH_FLAGS n t) = 0 ∧ ∀ i : Nat, i < 16 → u.g n t i = 0) ∧
      (∀ n : Nat, n < 24 → s.bit SWAP_MASK n = false → u.engine n = s.engine n)) ∧
  (∀ (s : State) (l : List (Nat × Word)) (a : Nat) (v : Word), (a, v) ∈ l → s.wroteNow a = true →
    LateWrite.engine a v ∈ (s.engineWrites l).later ∧ (s.engineWrites l).reg a = s.reg a)

/-- Decoding (R210, R229): a word that is no instruction faults its thread with ILLEGAL_OP at any instruction command, and one that fails
a check with ILLEGAL_OP or LEVEL at the command of its instruction; FAULT_INFO takes the word. The command of another instruction does
nothing, and none does anything while no thread runs. An instruction is one command, and a word that is no instruction faults at any of
them: the model's choice (notes/assumptions/14.md, notes/assumptions/15.md, notes/assumptions/16.md, notes/assumptions/17.md). -/
def Obligations.KciIllegalWordsFault : Prop :=
  ∀ (n : Fin 24) (t : Nat) (s : State) (p : (Fin 24 → Instr) × Kci), p ∈ kciRows →
    (s.kThread n = some t → kciOf (s.kWord n t) = none →
      ∃ u, exec (p.1 n) s = .next u ∧ s.faulted u n t 1 (s.kWord n t) ∧ s.keepsG u n t [] ∧ u.localRam = s.localRam) ∧
    (∀ code, s.kThread n = some t → kciOf (s.kWord n t) = some p.2 → p.2.decodeFault (s.kWord n t) (s.engine n).level = some code →
      ∃ u, exec (p.1 n) s = .next u ∧ s.faulted u n t code (s.kWord n t) ∧ (code = 1 ∨ code = 2) ∧ s.keepsG u n t []) ∧
    (∀ o, s.kThread n = some t → kciOf (s.kWord n t) = some o → o ≠ p.2 → exec (p.1 n) s = .next s) ∧
    (s.kThread n = none → exec (p.1 n) s = .next s)

/-! ### Rings, transfers and their ledger -/

/-- Rings (R257, R260, R262, R263, R266, R268): enabling gives full credit and disabling discards the entries as FLUSHED; configuration of
an enabled ring is refused; an entry in flight is written and WR passes it; the host's commits and pushes are offers that the end of their
BCLK cycle serves, its releases and pops act at once, and all move WR, RD, FILL and CREDIT and their counters, or are refused; a snapshot
takes the ledger as the BCLK cycle ends. A transfer row acts only when it is due: the model's choice (notes/assumptions/2.md,
notes/assumptions/70.md, notes/assumptions/81.md). -/
def Obligations.RingsCarryEntries : Prop :=
  (∀ (r : Fin 64) (v : Word) (s : State), s.accepts (RING_CFG r) v → s.ringEn r = false → v.getLsbD 0 = true →
    (s.reg (RING_CFG r) ^^^ v) &&& 0xFFF11F00#32 = 0 → 4 ≤ bitsOf v 12 8 → bitsOf v 12 8 ≤ 16 → agentCode (bitsOf v 31 26) ≠ 0x3F →
    ∃ t, exec (.ringCfgWrite r false v) s = .next t ∧ t.ringEn r = true ∧ t.reg (RING_RD r) = s.reg (RING_WR r) ∧
      t.reg (RING_WR r) = s.reg (RING_WR r) ∧ t.reg (RING_FILL r) = 0 ∧ (t.reg (RING_CREDIT r)).toNat = 2 ^ bitsOf v 12 8) ∧
  (∀ (r : Fin 64) (v : Word) (s : State), s.accepts (RING_CFG r) v → s.ringEn r = true →
    (s.reg (RING_CFG r) ^^^ v) &&& 0xFFF11F00#32 ≠ 0 →
    exec (.ringCfgWrite r false v) s = .next ((s.noteHost (RING_CFG r)).raise (RING_STATUS r) 1)) ∧
  (∀ (r : Fin 64) (v : Word) (s : State), s.accepts (RING_CFG r) v → s.ringEn r = true → v.getLsbD 0 = false →
    (s.reg (RING_CFG r) ^^^ v) &&& 0xFFF11F00#32 = 0 →
    ∃ t, exec (.ringCfgWrite r false v) s = .next t ∧ t.ringEn r = false ∧ t.reg (RING_FILL r) = 0 ∧ t.reg (RING_CREDIT r) = 0 ∧
      (t.ring r).flushed = (s.ring r).flushed + (s.reg (RING_FILL r)).zeroExtend 64 ∧ (t.ring r).inflight = []) ∧
  (∀ (r : Fin 64) (v : Word) (s : State), s.accepts (RING_BASE r) v → s.ringEn r = false →
    exec (.ringCfgWrite r true v) s = .next ((s.noteHost (RING_BASE r)).setReg (RING_BASE r) (v &&& 0xFFFFFF#32))) ∧
  (∀ (r : Fin 64) (v : Word) (s : State), s.accepts (RING_BASE r) v → s.ringEn r = true →
    exec (.ringCfgWrite r true v) s = .next (
      if bitsOf v 23 0 / s.ringBytes r * s.ringBytes r = s.ringBase r then s.noteHost (RING_BASE r)
      else (s.noteHost (RING_BASE r)).raise (RING_STATUS r) 1)) ∧
  (∀ (r : Fin 64) (s : State) (e : BitVec 128) (rest : List InFlight), s.clocked → (s.ring r).inflight = .entry e :: rest →
    rest.head? ≠ some .placed →
    ∃ t, exec (.ringEntryWritten r) s = .next t ∧ (t.ring r).inflight = rest ∧ t.reg (RING_WR r) = s.reg (RING_WR r) + 1 ∧
      t.resRead (s.entryAt r (s.reg (RING_WR r))) 16 = e.toNat ∧
      ∀ a, a < s.entryAt r (s.reg (RING_WR r)) ∨ s.entryAt r (s.reg (RING_WR r)) + 16 ≤ a →
        Memory.byte t.reservoir a = Memory.byte s.reservoir a) ∧
  (∀ (r : Fin 64) (v : Word) (s : State), s.accepts (HOST_COMMIT r) v → bitsOf v 16 0 ≠ 0 → s.commitRefused r (bitsOf v 16 0) = false →
    exec (.hostCommit r v) s = .next ((s.noteHost (HOST_COMMIT r)).ringGather r rankHost (.commit (bitsOf v 16 0)))) ∧
  (∀ (r : Fin 64) (n : Nat) (s : State), s.commitRefused r n = false → (s.ring r).inflight = [] →
    let t := s.serveOffer r (.commit n)
    t.reg (RING_WR r) = s.reg (RING_WR r) + BitVec.ofNat 32 n ∧ t.reg (RING_CREDIT r) = s.reg (RING_CREDIT r) - BitVec.ofNat 32 n ∧
      t.reg (RING_FILL r) = s.reg (RING_FILL r) + BitVec.ofNat 32 n ∧ (t.ring r).admitted = (s.ring r).admitted + BitVec.ofNat 64 n) ∧
  (∀ (r : Fin 64) (v : Word) (s : State), s.accepts (HOST_COMMIT r) v → bitsOf v 16 0 ≠ 0 →
    s.ringCreditNow r < bitsOf v 16 0 ∨ s.ringProd r ≠ 0x20 ∨ s.ringEn r = false →
    exec (.hostCommit r v) s = .next ((s.noteHost (HOST_COMMIT r)).raise (RING_STATUS r) 2)) ∧
  (∀ (r : Fin 64) (v : Word) (s : State), s.accepts (HOST_RELEASE r) v → bitsOf v 16 0 ≠ 0 → bitsOf v 16 0 ≤ s.ringVisible r →
    s.ringCons r = 0x20 → s.ringEn r = true →
    ∃ t, exec (.hostRelease r v) s = .next t ∧ t.reg (RING_RD r) = s.reg (RING_RD r) + BitVec.ofNat 32 (bitsOf v 16 0) ∧
      t.reg (RING_CREDIT r) = s.reg (RING_CREDIT r) + BitVec.ofNat 32 (bitsOf v 16 0) ∧
      (t.ring r).consumed = (s.ring r).consumed + BitVec.ofNat 64 (bitsOf v 16 0)) ∧
  (∀ (r : Fin 64) (v : Word) (s : State), s.accepts (HOST_RELEASE r) v → bitsOf v 16 0 ≠ 0 →
    s.ringVisible r < bitsOf v 16 0 ∨ s.ringCons r ≠ 0x20 ∨ s.ringEn r = false →
    exec (.hostRelease r v) s = .next ((s.noteHost (HOST_RELEASE r)).raise (RING_STATUS r) 3)) ∧
  (∀ (v : Word) (s : State), s.accepts XFER_CTRL v → v.getLsbD 8 = true → v.getLsbD 9 = false →
    let r := bitsOf v 5 0
    r < s.fld ID_QUEUE 15 8 → s.ringEn r = true → s.ringProd r = 0x20 → s.ringCreditNow r ≠ 0 →
    ∃ t, exec (.xferPush v) s = .next t ∧ t.reg XFER_STATUS = 0 ∧ (rankHost, Offer.xfer s.hostEntry) ∈ (t.ring r).offers ∧
      t.reg (RING_CREDIT r) = s.reg (RING_CREDIT r)) ∧
  (∀ (r : Fin 64) (e : BitVec 128) (s : State), (s.ring r).inflight = [] →
    let t := s.serveOffer r (.xfer e)
    (s.pushStatus r 0x20 = 0 → (t.ring r).inflight = [.entry e] ∧ (t.ring r).admitted = (s.ring r).admitted + 1) ∧
    (s.pushStatus r 0x20 = 9 → t = s.setReg XFER_STATUS 9)) ∧
  (∀ (v : Word) (s : State), s.accepts XFER_CTRL v → v.getLsbD 8 = true → v.getLsbD 9 = true →
    exec (.xferPush v) s =
      .next (((s.noteHost XFER_CTRL).setReg XFER_CTRL (v &&& 0x3F#32)).setReg XFER_STATUS 0xC#32)) ∧
  (∀ (v : Word) (s : State), s.accepts XFER_CTRL v → v.getLsbD 8 = false → v.getLsbD 9 = true →
    let r := bitsOf v 5 0
    r < s.fld ID_QUEUE 15 8 → s.ringEn r = true → s.ringCons r = 0x20 → s.ringVisible r ≠ 0 →
    s.resPoisoned (s.entryAt r (s.reg (RING_RD r))) 16 = false → (∀ i : Nat, i < 4 → s.written.contains (HOST_ENTRY i) = false) →
    ∃ t, exec (.xferPop v) s = .next t ∧ t.reg XFER_STATUS = 0 ∧
      t.hostEntry = BitVec.ofNat 128 (s.resRead (s.entryAt r (s.reg (RING_RD r))) 16) ∧
      t.reg (RING_RD r) = s.reg (RING_RD r) + 1 ∧ (t.ring r).consumed = (s.ring r).consumed + 1) ∧
  (∀ (v : Word) (s : State), s.accepts RING_SNAP_CTRL v → v.getLsbD 8 = true →
    exec (.ringSnapTake v) s =
      .next (((s.noteHost RING_SNAP_CTRL).setReg RING_SNAP_CTRL (v &&& 0x3F#32)).noteTake (.ring (bitsOf v 5 0)))) ∧
  (∀ (r : Fin 64) (s : State), s.takes = [.ring r] →
    (s.mt.getLsbD 0 = false → s.runTakes = s) ∧
    (s.mt.getLsbD 0 = true → ∃ t, s.runTakes = t ∧ t.pair SNAP_OFFERED_LO SNAP_OFFERED_HI = (s.ring r).offered ∧
      t.pair SNAP_CONSUMED_LO SNAP_CONSUMED_HI = (s.ring r).consumed ∧
      t.pair SNAP_FLUSHED_LO SNAP_FLUSHED_HI = (s.ring r).flushed ∧
      t.pair RSNAP_SNAP_MT_LO RSNAP_SNAP_MT_HI = s.mt ∧ t.reg SNAP_FILL = s.reg (RING_FILL r) ∧
      t.fld RING_SNAP_SEQ 15 0 = (s.fld RING_SNAP_SEQ 15 0 + 1) % 65536 ∧ t.rings = s.rings))

/-! ### Analogue conversion -/

/-- The converters (R273 to R279): a request arrives two ticks after its write and is null or expanded; a conversion for a converter that
is off starts it up for 320 ticks; acquisition, the hold instant and the 112 ticks of conversion follow; the result goes to its
accumulator, and an idle converter without KEEP_ON goes off. The sinks and the ledger (R280 to R284, R287): a clearing read of an
accumulator returns its sum of the start of the BCLK cycle and leaves what the cycle has added, a plain read leaves it; a resetting read
of a tracker leaves the span that the cycle's results begin (R7); a write to ACC_CFG restarts the window; a snapshot takes the ledger as
its tick ends. An event's row acts only when its event is due: the model's choice (notes/assumptions/2.md, notes/assumptions/85.md). -/
def Obligations.ConvertersRunAndAreRead : Prop :=
  ((∀ (v : Word) (s : State), s.accepts ADC_REQ v →
      ∃ t q, exec (.adcReq v) s = .next t ∧ t.adc.transit = s.adc.transit ++ [q] ∧ q.arrive = s.mt + 2 ∧ q.stamp = s.now ∧
        q.trig.toNat = bitsOf v 5 0 ∧ q.urgent = v.getLsbD 7) ∧
    (∀ (s : State) (q : AdcRequest), s.clocked → s.adc.transit = [q] → s.reached q.arrive = true →
      (s.prior (ADC_TRIG_CFG q.trig.toNat)).getLsbD 31 = false →
      ∃ t, exec .adcRequestArrival s = .next t ∧ t.adc.transit = [] ∧ t.adc.requests = s.adc.requests + 1 ∧
        t.adc.reqNull = s.adc.reqNull + 1 ∧ t.adc.issued = s.adc.issued) ∧
    (∀ (s : State) (q : AdcRequest), s.clocked → s.adc.transit = [q] → s.reached q.arrive = true → q.urgent = false →
      let cfg := s.prior (ADC_TRIG_CFG q.trig.toNat)
      cfg.getLsbD 31 = true → bitsOf cfg 3 0 = 1 →
      let step := s.prior (STEP (bitsOf cfg 14 8 % 128))
      let c := bitsOf step 9 8
      (s.prior (ADC_CTRL c)).getLsbD 0 = true → step.getLsbD 23 = true → s.adcState c = 0 → (s.conv c).queue.length < 16 →
      ∃ t, exec .adcRequestArrival s = .next t ∧ t.adc.transit = [] ∧ t.adc.expanded = s.adc.expanded + 1 ∧
        t.adc.issued = s.adc.issued + 1 ∧ t.adcState c = 1 ∧ (t.conv c).due = some (s.mt + 321) ∧
        (t.conv c).queue = (s.conv c).queue ++ [{ step := step, urgent := false, ain := s.prior (AIN_CFG (bitsOf step 4 0)) }]) ∧
    (∀ (c : Fin 4) (s : State) (x : Conv) (rest : List Conv) (p : (Fin 4 → Instr) × Nat), s.clocked →
      p ∈ [(Instr.adcStartupEnd, adcStartup), (Instr.adcAcqStart, adcIdle)] → s.adcDue c p.2 = true → (s.conv c).urgent = none →
      (s.conv c).queue = x :: rest →
      ∃ t, exec (p.1 c) s = .next t ∧ t.adcState c = adcAcq ∧ (t.conv c).running = some x ∧ (t.conv c).queue = rest ∧
        (t.conv c).due = some (s.mt + BitVec.ofNat 64 (max 48 (bitsOf (s.prior (AIN_CFG (bitsOf x.step 4 0))) 7 0)))) ∧
    (∀ (c : Fin 4) (s : State), s.clocked → s.adcDue c adcAcq = true →
      ∃ t, exec (.adcHold c) s = .next t ∧ t.adcState c = adcConv ∧ (t.conv c).due = some (s.mt + 112) ∧
        (t.conv c).running = (s.conv c).running) ∧
    (∀ (c : Fin 4) (raw : BitVec 12) (s : State) (x : Conv), s.clocked → s.adcDue c adcConv = true → (s.conv c).running = some x →
      x.step.getLsbD 31 = false → x.step.getLsbD 30 = false → x.step.getLsbD 23 = true →
      let k := bitsOf x.step 21 16
      s.accLength k = 0 → (s.accum k).val.count ≠ BitVec.allOnes 24 →
      ∃ t, exec (.conversionDelivery c raw) s = .next t ∧ t.adcState c = adcIdle ∧ (t.conv c).running = none ∧
        (t.accum k).val.sum = (s.accum k).val.sum + BitVec.ofNat 40 (adcCorrect c (s.conv c).cal raw).1 ∧
        (t.accum k).val.count = (s.accum k).val.count + 1 ∧ t.adc.delivered = s.adc.delivered + 1) ∧
    (∀ (c : Fin 4) (s : State), s.clocked → s.adcState c = adcIdle → (s.conv c).queue = [] → (s.conv c).urgent = none →
      (s.prior (ADC_CTRL c)).getLsbD 1 = false → (s.conv c).due = none →
      ∃ t, exec (.adcIdleOff c) s = .next t ∧ t.adcState c = adcOff ∧ (t.conv c).due = none)) ∧
  ((∀ (k : Fin 64) (s : State), s.serves →
      let v := s.accSeen k s.inCycle
      ∃ t, exec (.accRdcLoRead k) s = .next t ∧ t.hostData = [v.1.truncate 32] ∧ t.reg (ACC_RD_HI k) = accHigh v ∧
        (s.accWindow k s.inCycle = [] → t.accValue k = (0, 0) ∧ t.bit (ACC_STATUS k) 1 = false) ∧
        (s.accLength k = 0 → (s.accWindow k s.inCycle).length < 2 ^ 24 →
          t.bit (ACC_STATUS k) 1 = false ∧ (t.accum k).val.count.toNat = (s.accWindow k s.inCycle).length)) ∧
    (∀ (k : Fin 64) (s : State), s.serves →
      exec (.accRdLoRead k) s =
        .next ((s.touchChanged (s.setReg (ACC_RD_HI k) (accHigh (s.accSeen k s.inCycle)))).returning
          [(s.accSeen k s.inCycle).1.truncate 32])) ∧
    (∀ (k : Fin 64) (s : State), s.serves →
      ∃ t, exec (.mmRdcRead k) s = .next t ∧ t.hostData = [s.mmSeen k s.inCycle] ∧
        t.reg (MM_RD k) = (s.mmWindow k s.inCycle).foldl (fun w h => mmWith w h.r) 0x0000FFFF#32 ∧
        (∀ a, a ≠ MM_RD k → t.reg a = s.reg a)) ∧
    (∀ (k : Fin 64) (v : Word) (s : State), s.accepts (ACC_CFG k) v →
      exec (.accCfgWrite k v) s = .next (((s.noteHost (ACC_CFG k)).setReg (ACC_CFG k) (v &&& 0xFFFFFF#32)).setAccum k
        { val := { (s.accum k).val with sum := 0, count := 0 }, hits := [] })) ∧
    (∀ (v : Word) (s : State), s.accepts ADC_SNAP_CTRL v → v.getLsbD 0 = true →
      exec (.adcSnapTake v) s = .next ((s.noteHost ADC_SNAP_CTRL).noteTake .adc)) ∧
    (∀ s : State, s.takes = [.adc] →
      ∃ t, s.runTakes = t ∧ t.pair SNAP_REQUESTS_LO SNAP_REQUESTS_HI = s.adc.requests ∧
        t.pair SNAP_DELIVERED_LO SNAP_DELIVERED_HI = s.adc.delivered ∧ t.pair ADC_SNAP_MT_LO ADC_SNAP_MT_HI = s.mt ∧
        t.fld ADC_SNAP_SEQ 15 0 = (s.fld ADC_SNAP_SEQ 15 0 + 1) % 65536 ∧ t.adc = s.adc))

/-! ### Interrupts and microcode loads -/

/-- Interrupts (R291 to R295, R299): a delivered event sets its pending and cause bits; IRQ_SET sets pending bits; a select register takes
its bits, which act from the next tick on; the message of a requested vector is sent unless a mask or a disabled MSI-X holds it back, and
then its bit of the pending-bit array is 1; while MSI-X is disabled VEC_INSVC does not change; a configuration write sets the BARs. A
delivered event is latched when its row is sent: the model's choice (notes/assumptions/61.md, notes/assumptions/68.md,
notes/assumptions/85.md). -/
def Obligations.InterruptsAreLatchedAndSent : Prop :=
  (∀ (s : State) (e : IrqEvent) (rest : List IrqEvent), s.serves → s.irqEvents = e :: rest → e.source < 256 →
    ∃ t, exec .irqLatch s = .next t ∧ t.irqEvents = rest ∧ t.irqPending e.source = true ∧
      (∀ b : Nat, b < 32 → e.bit = some b → t.bit (CAUSE e.source) b = true)) ∧
  (∀ (w : Fin 8) (v : Word) (s : State), s.accepts (IRQ_SET w) v →
    ∃ t, exec (.irqSet w v) s = .next t ∧ t.reg (IRQ_PEND w) = s.reg (IRQ_PEND w) ||| v ∧
      (∀ u : Nat, u < 8 → u ≠ w.val → t.reg (IRQ_PEND u) = s.reg (IRQ_PEND u))) ∧
  (∀ (a : Nat) (v m : Word) (s : State), s.accepts a v → selectMask a = some m →
    exec (.irqSelectWrite a v) s = .next ((s.noteHost a).setNext a (v &&& m))) ∧
  (∀ (v : Fin 32) (s : State), s.clocked → s.power.msixReq.getLsbD v = true → s.power.msixEnable = true → s.vecMasked v = false →
    ∃ t, exec (.msiXMessage v) s = .next t ∧ t.power.msixReq.getLsbD v = false ∧ t.pbaView.getLsbD v = false ∧
      t.sent = s.sent ++ [.msix v (s.pair (MSIX_ADDR_LO v) (MSIX_ADDR_HI v)) (s.reg (MSIX_DATA v))]) ∧
  (∀ (v : Fin 32) (s : State), s.clocked → s.vecMasked v = true → exec (.msiXMessage v) s = .next s) ∧
  (∀ (v : Word) (s : State), s.accepts VEC_DONE v →
    (s.power.msixEnable = false → exec (.vecDone v) s = .next (s.noteHost VEC_DONE)) ∧
    (s.power.msixEnable = true → s.activeSources = [] →
      exec (.vecDone v) s = .next ((s.noteHost VEC_DONE).setReg VEC_INSVC (s.reg VEC_INSVC &&& ~~~ v)).pbaNote)) ∧
  ((∀ (v : Word) (s : State), ∃ t, exec (.pcieConfigWrite .msixControl v) s = .next t ∧
      t.power.msixEnable = v.getLsbD 15 ∧ t.power.fnMask = v.getLsbD 14 ∧ (v.getLsbD 15 = false → t.reg VEC_INSVC = s.reg VEC_INSVC) ∧
      (∀ v : Nat, v < 32 → t.pbaView.getLsbD v = (t.power.msixReq.getLsbD v && !t.vecOpen v))) ∧
    (∀ (r : CfgReg) (v : Word) (s : State), ∃ t, exec (.pcieConfigWrite r v) s = .next t ∧
      (r = .bar0 → t.cfgHeader 0x10 = v &&& 0xFC000000#32) ∧
      (r = .bar2Lo → t.cfgHeader 0x18 = (v &&& 0xFF000000#32) ||| 0xC#32) ∧
      (r = .bar2Hi → t.cfgHeader 0x18 = s.cfgHeader 0x18) ∧ t.cfgHeader 0x1C = 0 ∧
      (∀ off, off = 0x00 ∨ off = 0x08 ∨ off = 0x2C → t.cfgHeader off = s.cfgHeader off)))

/-- Microcode loads (R216 to R219): GO starts a load of a quiet device and is refused of any other; a load whose bundle fails a check ends
with the item and its status and leaves the micro-store; one that passes fills the micro-store of every cluster and makes the image valid;
BOOT selects the read command of a flash boot (R365); a flash that does not answer ends the load with FLASH_NO_IMAGE, and one that holds
an image has it copied to the reservoir and begins a load of it. An event's row acts only when its event is due: the model's choice
(notes/assumptions/2.md). -/
def Obligations.MicrocodeLoadsAreChecked : Prop :=
  (∀ (v : Word) (s : State), s.accepts UC_LOAD_GO v → v.getLsbD 0 = true → s.bit UC_LOAD_STATUS 31 = false → s.loadQuiet = true →
    ∃ t, exec (.ucLoadGo v) s = .next t ∧ t.bit UC_LOAD_STATUS 31 = true ∧ t.fld UC_LOAD_STATUS 4 0 = 1 ∧ t.ustore = s.ustore) ∧
  (∀ (v : Word) (s : State), s.accepts UC_LOAD_GO v → v.getLsbD 0 = true → s.bit UC_LOAD_STATUS 31 = false → s.loadQuiet = false →
    ∃ t, exec (.ucLoadGo v) s = .next t ∧ t.bit UC_LOAD_STATUS 31 = false ∧ t.fld UC_LOAD_STATUS 4 0 = 8 ∧ t.ustore = s.ustore) ∧
  (∀ (s : State) (item st : Nat), s.clocked → s.bit UC_LOAD_STATUS 31 = true → s.bundleCheck = .inl (item, st) → item < 7 → st < 32 →
    ∃ t, exec .microcodeLoadComplete s = .next t ∧ t.bit UC_LOAD_STATUS 31 = false ∧ t.fld UC_LOAD_STATUS 4 0 = st ∧
      t.fld UC_LOAD_STATUS 18 16 = item ∧ t.ustore = s.ustore ∧ t.reg ID_UCODE = s.reg ID_UCODE) ∧
  (∀ (s : State) (ps : List Nat), s.clocked → s.bit UC_LOAD_STATUS 31 = true → s.bundleCheck = .inr ps →
    ∃ t, exec .microcodeLoadComplete s = .next t ∧ t.bit UC_LOAD_STATUS 31 = false ∧ t.fld UC_LOAD_STATUS 4 0 = 2 ∧
      t.ustore = ps.foldl s.applyPatch (s.baseWords (s.fld UC_LOAD_SRC 23 0)) ∧ t.ucodeValid = true ∧
      (∀ n : Nat, n < 24 → t.bit (CL_STATUS n) 31 = false ∧ t.bit (CL_STATUS n) 30 = false)) ∧
  (flashRead 0 = none ∧ flashRead 1 = some { opcode := 0x6B, addrLines := 1, dataLines := 4, dummy := 8, mhz := 50 } ∧
    flashRead 2 = some { opcode := 0xEB, addrLines := 4, dataLines := 4, dummy := 6, mhz := 80 } ∧ flashRead 3 = none) ∧
  (∀ (s : State) (c : FlashRead), s.clocked → flashRead (s.fld GSTAT 5 4) = some c → s.bit UC_LOAD_STATUS 31 = false →
    s.fld UC_LOAD_STATUS 4 0 = 0 →
    ∃ t, exec (.flashLoad []) s = .next t ∧ t.fld UC_LOAD_STATUS 4 0 = 0x11 ∧ t.reservoir = s.reservoir ∧
      t.sent = s.sent ++ [.flash c 0]) ∧
  (∀ (s : State) (c : FlashRead) (image : List Byte), s.clocked → flashRead (s.fld GSTAT 5 4) = some c →
    s.bit UC_LOAD_STATUS 31 = false → s.fld UC_LOAD_STATUS 4 0 = 0 → 4 ≤ image.length → leNat (image.take 4) = baseMagic.toNat →
    s.written.contains UC_LOAD_SRC = false → s.written.contains UC_LOAD_LEN = false →
    ∃ t, exec (.flashLoad image) s = .next t ∧ t.bit UC_LOAD_STATUS 31 = true ∧ t.fld UC_LOAD_STATUS 4 0 = 1 ∧ t.reg UC_LOAD_SRC = 0 ∧
      t.sent = s.sent ++ [.flash c 0] ∧
      (t.reg UC_LOAD_LEN).toNat ≤ 0x20000 ∧
      t.reservoir = (s.flashFill (image.take (t.reg UC_LOAD_LEN).toNat)).reservoir)

/-! ### Ponar and the headgate -/

/-- Ponar messages (R309, R310, R312, R332): a free engine takes the whole message of the command ring; a datagram joins the queue of a
busy engine, and one that is no Ponar message is discarded; a held response is offered to its ring once that has credit; PONAR_CFG with EN
= 0 discards it. The commands without a key (R311): HELLO opens the session at the highest version offered; GET_COUNTER gives the words of
a slot; REG_READ gives a register, and REG_WRITE writes one, waits for one that has taken its write of the tick (R407), or counts the
refusal of SEAL (R318, R319). The pairs of a REG_WRITE commit in one tick as far as R407 lets them, one engine serves both transports, and
the parts of a response that no rule states are named there: the model's choice (notes/assumptions/13.md, notes/assumptions/49.md,
notes/assumptions/50.md, notes/assumptions/53.md). -/
def Obligations.PonarServesOpenCommands : Prop :=
  ((∀ (v : Word) (s : State), s.accepts PONAR_CFG v →
      ∃ t, exec (.ponarCfgWrite v) s = .next t ∧ t.reg PONAR_CFG = mergeWord (s.reg PONAR_CFG) v (rwMask PONAR_CFG) ∧
        (t.bit PONAR_CFG 0 = false → t.hg.held = none ∧ t.hg.ringSince = none) ∧ (t.bit PONAR_CFG 0 = true → t.hg = s.hg)) ∧
    (∀ s : State, s.clocked → s.ponarFree = true → s.cmdWhole = true → s.hg.queue = [] →
      ∃ t, exec .ponarRingMessage s = .next t ∧
        t.reg (RING_RD s.cmdRing) = s.reg (RING_RD s.cmdRing) + BitVec.ofNat 32 s.cmdNeed ∧ t.hg.ringSince = none) ∧
    (∀ (p : Fin 2) (f : RxFrame) (ip : Word) (udp : BitVec 16) (bytes : List Byte) (s : State), s.clocked → s.portUp p = true →
      f.brings (s.fld (UDP_PORTS p) 15 0) → s.bit (PORT_CTRL p) 5 = false →
      exec (.ponarUdpDatagram ⟨p, f⟩ ip udp bytes) s = .next (s.satCount (RX_DISCARD p))) ∧
    (∀ (p : Fin 2) (f : RxFrame) (ip : Word) (udp : BitVec 16) (bytes : List Byte) (s : State), s.clocked → s.portUp p = true →
      f.brings (s.fld (UDP_PORTS p) 15 0) → s.bit (PORT_CTRL p) 5 = true → bytes.length < 16 →
      exec (.ponarUdpDatagram ⟨p, f⟩ ip udp bytes) s = .next (s.satCount (PONAR_DISCARD p))) ∧
    (∀ (p : Fin 2) (f : RxFrame) (ip : Word) (udp : BitVec 16) (bytes : List Byte) (s : State) (e : Nat), s.clocked →
      s.portUp p = true → f.brings (s.fld (UDP_PORTS p) 15 0) → s.bit (PORT_CTRL p) 5 = true → s.hg.serving ≠ none → s.findPeer p ip udp = some e →
      let m := parseMsg (.udp p ip udp) bytes s.mt
      m.magic = 0x50 → 16 ≤ bytes.length → bytes.length = 16 + m.len + (if m.crit = true then 8 else 0) →
      ∃ t, exec (.ponarUdpDatagram ⟨p, f⟩ ip udp bytes) s = .next t ∧ t.hg.queue = s.hg.queue ++ [m] ∧ t.hg.serving = s.hg.serving) ∧
    (∀ (s : State) (es : List (BitVec 128)), s.clocked → s.power.phase = .run → s.hg.held = some es → s.respCan es.length = true →
      s.hg.offered = false →
      exec .ponarResponseAdmit s =
        .next { s.ringGather s.rspRing rankHost (.ponar es) with hg := { s.hg with offered := true } }) ∧
    (∀ (s : State) (es : List (BitVec 128)), s.hg.held = some es → s.respCan es.length = true → (s.ring s.rspRing).inflight = [] →
      (s.serveOffer s.rspRing (.ponar es)).hg.held = none ∧
        (s.serveOffer s.rspRing (.ponar es)).reg (RING_WR s.rspRing) = s.reg (RING_WR s.rspRing) + BitVec.ofNat 32 es.length) ∧
    (∀ (s : State) (es : List (BitVec 128)), s.clocked → s.hg.held = some es → s.ringCreditNow s.rspRing < es.length →
      exec .ponarResponseAdmit s = .next s)) ∧
  ((∀ (s : State) (m : Msg) (w : Word) (rest : List Word), s.clocked → s.servesRequest m 0x01 → m.payload = w :: rest →
      bitsOf w 2 0 ≠ 0 →
      let v := if w.getLsbD 2 = true then 3 else if w.getLsbD 1 = true then 2 else 1
      ∃ t, exec .hello s = .next t ∧ t.reg PONAR_SESSION = BitVec.ofNat 32 v ∧
        t.holdsAnswer 0x00 [BitVec.ofNat 32 v, s.reg ID_PART, s.reg ID_STEP, s.reg ID_UCODE, s.gstatView]) ∧
    (∀ (s : State) (m : Msg) (w : Word) (rest : List Word), s.clocked → s.servesRequest m 0x01 → m.payload = w :: rest →
      bitsOf w 2 0 = 0 →
      ∃ t, exec .hello s = .next t ∧ t.reg PONAR_SESSION = s.reg PONAR_SESSION ∧ t.holdsAnswer 0x03 []) ∧
    (∀ (s : State) (m : Msg) (w : Word) (rest : List Word), s.clocked → s.servesRequest m 0x02 → m.payload = w :: rest →
      w.toNat < 8 →
      ∃ t, exec .getCounter s = .next t ∧ t.holdsAnswer 0x00
        [s.keyView w.toNat 0x00, s.keyView w.toNat 0x04, s.keyView w.toNat 0x08, s.keyView w.toNat 0x0C, s.keyView w.toNat 0x10]) ∧
    (∀ (s : State) (m : Msg), s.clocked → s.servesRequest m 0x03 → m.payload = [BitVec.ofNat 32 ID_STEP] → m.len = 4 →
      ∃ t, exec .regRead s = .next t ∧ t.holdsAnswer 0x00 [(s.seen ID_STEP).reg ID_STEP]) ∧
    (∀ (s : State) (m : Msg) (a v : Word), s.clocked → s.servesRequest m 0x04 → m.payload = [a, v] → m.len = 8 →
      0xB8000 ≤ a.toNat → a.toNat < 0xB9000 → a.toNat % 4 = 0 → s.wroteNow a.toNat = false →
      ∃ t x, exec .regWrite s = .next t ∧ t.reg a.toNat = v ∧ t.holdsAnswer 0x00 [x, 1, 0xFFFFFFFF#32]) ∧
    (∀ (s : State) (m : Msg) (a v : Word), s.clocked → s.servesRequest m 0x04 → m.payload = [a, v] → m.len = 8 →
      s.sealLocks a.toNat v = true → s.wroteNow a.toNat = false →
      ∃ t x, exec .regWrite s = .next t ∧ t.reg LOCK_REFUSED_CNT = satInc (s.reg LOCK_REFUSED_CNT) ∧
        t.reg LOCK_ADDR = a ∧ t.bit HG_EVENT 1 = true ∧ t.holdsAnswer 0x00 [x, 0, 0]) ∧
    (∀ (s : State) (m : Msg) (a v : Word), s.clocked → s.servesRequest m 0x04 → m.payload = [a, v] → m.len = 8 →
      s.wroteNow a.toNat = true →
      ∃ t p, exec .regWrite s = .next t ∧ t.hg.serving = none ∧ t.hg.pairs = some p ∧ p.left = [(a, v)] ∧ t.regs = s.regs))

/-- The authenticated commands on outputs, programs, swaps and mittens (R320 to R324). The parts of a response that no rule states, and
the order of its checks: the model's choice (notes/assumptions/49.md, notes/assumptions/50.md, notes/assumptions/57.md). -/
def Obligations.CriticalCommandsAct : Prop :=
  (∀ (s : State) (m : Msg) (w : Word) (rest : List Word), s.clocked → s.servesRequest m 0x20 → m.payload = w :: rest →
    ∃ t, exec .output s = .next t ∧
      (if w.getLsbD 0 = true ∧ s.ucodeValid = false then t.bit GSTAT 2 = s.bit GSTAT 2 ∧ t.holdsAnswer 0x13 []
       else t.bit GSTAT 2 = w.getLsbD 0 ∧ t.holdsAnswer 0x00 [])) ∧
  (∀ (s : State) (m : Msg) (p : Instr × Bool), p ∈ [(Instr.progLoadDirect, false), (Instr.progLoadStage, true)] → s.clocked →
    s.servesRequest m 0x21 → (s.payloadWord m 0).getLsbD 0 = p.2 → s.loadCheck m p.2 (s.payloadWord m) ≠ 0 →
    ∃ t, exec p.1 s = .next t ∧ t.holdsAnswer (s.loadCheck m p.2 (s.payloadWord m)) [] ∧ t.localRam = s.localRam ∧
      t.reg SWAP_STATUS = s.reg SWAP_STATUS) ∧
  (∀ (s : State) (m : Msg), s.clocked → s.servesRequest m 0x21 → (s.payloadWord m 0).getLsbD 0 = false →
    s.loadCheck m false (s.payloadWord m) = 0 → (∀ n h st w, ∀ e ∈ s.threadContext n h st w, s.wroteNow e.1 = false) →
    ∃ t, exec .progLoadDirect s = .next t ∧ t.holdsAnswer 0x00 [] ∧
      (∀ n ∈ namedClusters (s.payloadWord m 1), ∀ h : Nat, h < 16 →
        t.thStamp n h = s.now ∧ t.reg (TH_FLAGS n h) = 0 ∧ ∀ i : Nat, i < 16 → t.g n h i = 0)) ∧
  (∀ (s : State) (m : Msg), s.clocked → s.servesRequest m 0x21 → (s.payloadWord m 0).getLsbD 0 = true →
    s.loadCheck m true (s.payloadWord m) = 0 →
    ∃ t, exec .progLoadStage s = .next t ∧ t.holdsAnswer 0x00 [] ∧ t.bit SWAP_STATUS 31 = true ∧
      t.bit SWAP_STATUS 30 = (s.payloadWord m 0).getLsbD 1 ∧ t.reg SWAP_MASK = s.payloadWord m 1 ∧
      t.swap.list = s.listEntries (s.payloadWord m 2).toNat (s.payloadWord m 3).toNat) ∧
  (∀ (s : State) (m : Msg), s.clocked → s.servesRequest m 0x22 → bitsOf (s.payloadWord m 0) 1 0 = 0 →
    s.swapArmed = true ∨ s.bit SWAP_STATUS 31 = false →
    ∃ t, exec .swapCtlArm s = .next t ∧
      t.holdsAnswer 0x13 [if s.swapArmed = true then 0xE else 0xC, s.reg SWAP_STATUS] ∧ t.reg SWAP_STATUS = s.reg SWAP_STATUS) ∧
  (∀ (s : State) (m : Msg), s.clocked → s.servesRequest m 0x22 → bitsOf (s.payloadWord m 0) 2 0 = 0 → s.swapArmed = false →
    s.bit SWAP_STATUS 31 = true →
    let tick := s.tickFor (ofWords (s.payloadWord m 2) (s.payloadWord m 1) + 63)
    0 < ahead (tick - 256) s.mt →
    ∃ t x, exec .swapCtlArm s = .next t ∧ t.swapArmed = true ∧ t.swap.tTick = tick ∧ t.swap.fTick = tick - 256 ∧
      t.holdsAnswer 0x00 [x, t.reg SWAP_STATUS]) ∧
  (∀ (s : State) (m : Msg), s.clocked → s.servesRequest m 0x22 → bitsOf (s.payloadWord m 0) 1 0 = 0 →
    let r := s.swapArm false (swapRequest (s.payloadWord m))
    ∃ t, exec .swapCtlArm s = .next t ∧ t.hg.serving = none ∧ t.swap = r.2.swap ∧ t.reg SWAP_STATUS = r.2.reg SWAP_STATUS) ∧
  (∀ (s : State) (m : Msg), s.clocked → s.servesRequest m 0x22 → bitsOf (s.payloadWord m 0) 1 0 = 1 → s.swapArmed = true →
    s.swapFixed = false →
    ∃ t, exec .swapCtlDisarm s = .next t ∧ t.swapArmed = false ∧ t.fld SWAP_STATUS 3 0 = 5 ∧ t.hg.serving = none) ∧
  (∀ (s : State) (m : Msg), s.clocked → s.servesRequest m 0x22 → bitsOf (s.payloadWord m 0) 1 0 = 2 →
    ∃ t x, exec .swapCtlQuery s = .next t ∧ t.holdsAnswer 0x00 [x, s.reg SWAP_STATUS] ∧ t.swap = s.swap) ∧
  (∀ (s : State) (m : Msg) (a v : Word), s.clocked → s.servesRequest m 0x23 → m.payload = [a, v] → m.len = 8 →
    mitChangeAddr a.toNat = false →
    ∃ t, exec .mitChange s = .next t ∧ t.holdsAnswer 0x12 [] ∧ t.regs = s.regs) ∧
  (∀ (s : State) (m : Msg) (a v mask : Word) (j : Nat), s.clocked → s.servesRequest m 0x23 → m.payload = [a, v] → m.len = 8 →
    mitChangeAddr a.toNat = true → mitCfgReg a.toNat = some (j, mask) → s.fld (MIT_STATUS j) 1 0 = 0 → s.wroteNow a.toNat = false →
    ∃ t x, exec .mitChange s = .next t ∧ t.reg a.toNat = mergeWord (s.reg a.toNat) v mask ∧ t.holdsAnswer 0x00 [x, 1, 0xFFFFFFFF#32]) ∧
  (∀ (s : State) (m : Msg) (w : Word) (rest : List Word), s.clocked → s.servesRequest m 0x24 → m.payload = w :: rest →
    ∃ t, exec .mitClear s = .next t ∧ t.hg.serving = none ∧
      ∀ i : Nat, i < 32 →
        (w.getLsbD i = true → s.bit (MIT_STATUS i) 1 = false → t.fld (MIT_STATUS i) 7 6 = 3) ∧
        (w.getLsbD i = true → s.bit (MIT_STATUS i) 1 = true → s.anyActive i = false →
          t.bit (MIT_STATUS i) 1 = false ∧ t.fld (MIT_STATUS i) 7 6 = 0) ∧
        (w.getLsbD i = false → t.reg (MIT_STATUS i) = s.reg (MIT_STATUS i)))

/-- Keys, SEAL, the floor, user calibration and SOFT_RESET (R315 to R317, R325, R383): each command checks and then waits for its NVM
write, which changes the state when it completes, and reports NVM_FAIL when it fails. NVM writes queue, their failures are answered, and
UCAL_WRITE of no record has BAD_FORMAT: the model's choice (notes/assumptions/26.md, notes/assumptions/49.md, notes/assumptions/51.md,
notes/assumptions/62.md, notes/assumptions/88.md). -/
def Obligations.KeysSealAndFloorAreWritten : Prop :=
  (∀ (s : State) (m : Msg) (k : List Byte), s.clocked → s.servesRequest m 0x25 → bitsOf (s.payloadWord m 0) 9 8 = 0 → s.nvm.sealed = false →
    keyUnwrap (leBytes 16 (s.key m.slot).key.toNat) (wordBytes ((List.range 6).map (fun i => s.payloadWord m (i + 1)))) = some k →
    ∃ t v, exec .keyChangeInstall s = .next t ∧ t.hg.waiting = some m ∧ t.hg.serving = none ∧
      t.hg.nvmOps = s.hg.nvmOps ++ [.key (bitsOf (s.payloadWord m 0) 2 0) v true] ∧ v.key = BitVec.ofNat 128 (leNat k) ∧
      v.perm.toNat = bitsOf (s.payloadWord m 0) 23 16 ∧ v.state = 1 ∧ v.last = 0 ∧ v.mark = 4096) ∧
  (∀ (s : State) (m : Msg), s.clocked → s.servesRequest m 0x25 → bitsOf (s.payloadWord m 0) 9 8 = 0 →
    keyUnwrap (leBytes 16 (s.key m.slot).key.toNat) (wordBytes ((List.range 6).map (fun i => s.payloadWord m (i + 1)))) = none →
    ∃ t, exec .keyChangeInstall s = .next t ∧ t.holdsAnswer 0x13 [] ∧ t.hg.nvmOps = s.hg.nvmOps) ∧
  (∀ (s : State) (m : Msg), s.clocked → s.servesRequest m 0x25 → bitsOf (s.payloadWord m 0) 9 8 = 1 → s.nvm.sealed = false →
    ∃ t v, exec .keyChangeRevoke s = .next t ∧ t.hg.waiting = some m ∧
      t.hg.nvmOps = s.hg.nvmOps ++ [.key (bitsOf (s.payloadWord m 0) 2 0) v true] ∧ v.state = 2 ∧ v.key = 0) ∧
  (∀ (s : State) (m : Msg), s.clocked → s.servesRequest m 0x27 → s.payloadWord m 0 = 0x5345414C#32 → s.nvm.sealed = false →
    (∃ i : Nat, i < 8 ∧ (s.key i).state = 1 ∧ (s.key i).perm.getLsbD 3 = true) →
    ∃ t, exec .seal s = .next t ∧ t.hg.nvmOps = s.hg.nvmOps ++ [.sealed] ∧ t.hg.waiting = some m) ∧
  (∀ (s : State) (m : Msg), s.clocked → s.servesRequest m 0x27 → s.payloadWord m 0 = 0x5345414C#32 →
    (∀ i : Nat, i < 8 → (s.key i).state = 1 → (s.key i).perm.getLsbD 3 = false) →
    ∃ t, exec .seal s = .next t ∧ t.holdsAnswer 0x17 [] ∧ t.nvm = s.nvm) ∧
  (∀ (s : State) (m : Msg), s.clocked → s.servesRequest m 0x28 →
    ∃ t, exec .floorRaise s = .next t ∧
      (if bitsOf (s.payloadWord m 0) 15 0 < s.nvm.floor.toNat then t.holdsAnswer 0x15 [] ∧ t.hg.nvmOps = s.hg.nvmOps
       else if s.ucodeValid = false ∨ s.fld ID_UCODE 31 16 < bitsOf (s.payloadWord m 0) 15 0 then
         t.holdsAnswer 0x16 [] ∧ t.hg.nvmOps = s.hg.nvmOps
       else t.hg.nvmOps = s.hg.nvmOps ++ [.floor (BitVec.ofNat 16 (bitsOf (s.payloadWord m 0) 15 0))] ∧ t.hg.waiting = some m)) ∧
  (∀ (s : State) (m : Msg), s.clocked → s.servesRequest m 0x26 → bitsOf (s.payloadWord m 0) 7 0 = 0 →
    ∃ t, exec .ucalWrite s = .next t ∧ t.holdsAnswer 0x01 [] ∧ t.hg.nvmOps = s.hg.nvmOps) ∧
  (∀ (s : State) (m : Msg), s.clocked → s.servesRequest m 0x26 → 1 ≤ bitsOf (s.payloadWord m 0) 7 0 →
    bitsOf (s.payloadWord m 0) 7 0 ≤ 127 → bitsOf (s.payloadWord m 0) 31 8 ≠ 0 →
    ∃ t, exec .ucalWrite s = .next t ∧ t.holdsAnswer 0x12 [] ∧ t.hg.nvmOps = s.hg.nvmOps) ∧
  (∀ (s : State) (m : Msg) (n : Nat), s.clocked → s.servesRequest m 0x26 → s.payloadWord m 0 = BitVec.ofNat 32 n → 1 ≤ n → n ≤ 127 →
    (∀ i : Nat, i < n → ucalBad (s.payloadWord m) i = false ∧ ucalTrimBad (ucalRecord (s.payloadWord m) i) = false) →
    ∃ t, exec .ucalWrite s = .next t ∧ t.hg.waiting = some m ∧
      t.hg.nvmOps = s.hg.nvmOps ++ [.ucal ((List.range n).map (ucalRecord (s.payloadWord m)))]) ∧
  (∀ (s : State) (m : Msg), s.clocked → s.servesRequest m 0x29 →
    ∃ t, exec .softReset s = .next t ∧ t.hg.resetAfter = true ∧ t.holdsAnswer 0x00 []) ∧
  (∀ (s : State) (op : NvmOp) (rest : List NvmOp), s.clocked → s.hg.nvmOps = op :: rest →
    ∃ t u, exec (.nvmWriteComplete true) s = .next t ∧ exec (.nvmWriteComplete false) s = .next u ∧
      t.hg.nvmOps = rest ∧ u.hg.nvmOps = rest ∧ u.nvm = s.nvm ∧ u.bit HG_EVENT 4 = true ∧
      (op = .sealed → t.nvm.sealed = true ∧ t.bit HG_EVENT 3 = true) ∧
      (∀ f, op = .floor f → t.nvm.floor = f) ∧ (∀ k v r, op = .key k v r → t.key k = v) ∧
      (∀ k v, op = .mark k v → (t.key k).mark = v)) ∧
  (∀ (v : Word) (s : State), s.accepts KEY_LOAD_GO v → v.getLsbD 0 = true →
    ∃ t k, exec (.keyLoadGo v) s = .next t ∧ t.hg.nvmOps = s.hg.nvmOps ++ [.key (s.fld KEY_LOAD_CTRL 2 0) k false] ∧
      k.key = (s.reg (KEY_LOAD_DATA 3) ++ s.reg (KEY_LOAD_DATA 2) ++ s.reg (KEY_LOAD_DATA 1) ++ s.reg (KEY_LOAD_DATA 0) : BitVec 128) ∧
      k.perm.toNat = s.fld KEY_LOAD_CTRL 23 16 ∧ k.state = 1 ∧ t.bit KEY_LOAD_CTRL 31 = false) ∧
  (∀ (v : Word) (s : State), s.power.phase = .run → s.sealLocks KEY_LOAD_GO v = true → v.getLsbD 0 = true →
    ∃ t, exec (.keyLoadGo v) s = .next t ∧ t.bit KEY_LOAD_CTRL 31 = true ∧ t.hg.nvmOps = s.hg.nvmOps ∧
      t.reg LOCK_REFUSED_CNT = satInc (s.reg LOCK_REFUSED_CNT))

/-! ### Network -/

/-- The Ethernet ports (R327, R328, R333 to R336): configuration of a port that runs is refused; a link change is noted; a bad frame is
discarded; ARP and ICMP requests for the port's address are answered, and a datagram whose destination is not resolved waits for it; user
datagrams go to and come from their rings; of the frames that wait for the wire the oldest of the highest precedence leaves when the wire
is free; announcements are sent each second, make
peers, and their loss and a session's idle time end them; a peer that returns after its loss while its session was open has a new entry.
Rows of links and frames, how a frame that a port sends is recorded, and how long it takes the wire: the
model's choice (notes/assumptions/2.md, notes/assumptions/28.md, notes/assumptions/29.md, notes/assumptions/40.md,
notes/assumptions/87.md). -/
def Obligations.PortsServeTheirFrames : Prop :=
  (∀ (p : Fin 2) (v : Word) (s : State), s.accepts (PORT_CTRL p) v → s.bit (PORT_CTRL p) 0 = true →
    (s.reg (PORT_CTRL p) ^^^ v) &&& 0x7E#32 ≠ 0 →
    exec (.portCtrlWrite p 0 v) s = .next ((s.noteHost (PORT_CTRL p)).raise (PORT_STATUS p) 3)) ∧
  (∀ (p : Fin 2) (v : Word) (s : State), s.accepts (PORT_CTRL p) v → s.bit (PORT_CTRL p) 0 = false → v.getLsbD 0 = true →
    (s.reg (PORT_CTRL p) ^^^ v) &&& 0x7E#32 = 0 →
    exec (.portCtrlWrite p 0 v) s =
      .next ((s.noteHost (PORT_CTRL p)).setReg (PORT_CTRL p) (mergeWord (s.reg (PORT_CTRL p)) v 0x7F#32))) ∧
  (∀ (p : Fin 2) (off : Nat) (v : Word) (s : State), s.accepts (PORT_CTRL p + off) v → 0x10 ≤ off → off ≤ 0x2C → off % 4 = 0 →
    exec (.portCtrlWrite p off v) s = .next (
      if s.bit (PORT_CTRL p) 0 = true then (s.noteHost (PORT_CTRL p + off)).raise (PORT_STATUS p) 3
      else (s.noteHost (PORT_CTRL p + off)).plainWrite (PORT_CTRL p + off) v)) ∧
  (∀ (p : Fin 2) (up : Bool) (s : State), s.serves → s.bit (PORT_STATUS p) 0 ≠ up → (up = true → s.bit (PORT_CTRL p) 0 = true) →
    ∃ t, exec (.linkChange p up) s = .next t ∧ t.bit (PORT_STATUS p) 0 = up ∧ t.bit (PORT_STATUS p) 1 = true ∧
      (up = true → (t.port p).linkTick = s.mt ∧
        (t.port p).tx = (s.port p).tx ++ [{ cls := .other, vlan := s.vlanTag p .other, frame := .igmpReport groupIp }]) ∧
      (up = false → (t.port p).waiting = [] ∧ (t.port p).tx = [])) ∧
  ((∀ (l : List TxFrame) (f : TxFrame), nextFrame l = some f → f ∈ l ∧ ∀ g ∈ l, f.cls.rank ≤ g.cls.rank) ∧
    (∀ (p : Fin 2) (s : State) (f : TxFrame), nextFrame (s.port p).tx = some f →
      (s.portUp p = true → s.reached (s.port p).txFree = true →
        (s.portSend p).sent = s.sent ++ [.frame p f.vlan f.frame] ∧
          ((s.portSend p).port p).txFree = s.mt + BitVec.ofNat 64 f.ticks ∧
          (∀ g ∈ (s.port p).tx, g ≠ f → g ∈ ((s.portSend p).port p).tx)) ∧
      (s.portUp p = false ∨ s.reached (s.port p).txFree = false → s.portSend p = s))) ∧
  (∀ (p : Fin 2) (f : RxFrame) (reply : Bool) (target ip : Word) (mac : BitVec 48) (body bytes : List Byte) (udp : BitVec 16)
      (m : PtpMessage) (corr : BitVec 32) (v : PriorityVector) (s : State), s.clocked → s.portUp p = true →
    f.fcsOk = false ∨ 1522 < f.length.toNat ∨ 1 < f.tags.toNat →
    ∀ c ∈ [Instr.arpRequest ⟨p, f⟩ ⟨reply, target⟩ ip mac, .icmpEcho ⟨p, f⟩ target ip body, .userDatagramRx ⟨p, f⟩ bytes, .discover ⟨p, f⟩ ip udp bytes,
        .shaftExport ⟨p, f⟩ bytes, .ponarUdpDatagram ⟨p, f⟩ ip udp bytes, .gptpSync ⟨p, f⟩ m corr, .gptpAnnounce p f v],
      exec c s = .next (s.satCount (RX_DISCARD p))) ∧
  (∀ (p : Fin 2) (f : RxFrame) (target ip : Word) (mac : BitVec 48) (s : State), s.clocked → s.portUp p = true → f.sound →
    (target = s.reg (IP_ADDR p) → s.onLink p ip = true →
      ∃ t u, exec (.arpRequest ⟨p, f⟩ ⟨false, target⟩ ip mac) s = .next t ∧ exec (.arpRequest ⟨p, f⟩ ⟨true, target⟩ ip mac) s = .next u ∧
        (t.port p).arp.lookup ip = some mac ∧ (u.port p).arp.lookup ip = some mac ∧
        ((s.port p).waiting = [] →
          (t.port p).tx = (s.port p).tx ++ [{ cls := .other, vlan := s.vlanTag p .other, frame := .arpReply ip mac }] ∧
          (u.port p).tx = (s.port p).tx) ∧
        (∀ d, (s.port p).waiting = [d] → d.ip = ip →
          (u.port p).waiting = [] ∧
          (u.port p).tx = (s.port p).tx ++ [{ cls := d.cls, vlan := s.vlanTag p d.cls, frame := .udp ip mac d.port d.words }])) ∧
    (target ≠ s.reg (IP_ADDR p) ∨ s.onLink p ip = false →
      ∀ reply : Bool, exec (.arpRequest ⟨p, f⟩ ⟨reply, target⟩ ip mac) s = .next (s.satCount (RX_DISCARD p)))) ∧
  (∀ (p : Fin 2) (f : RxFrame) (target ip : Word) (body : List Byte) (s : State), s.clocked → s.portUp p = true → f.sound →
    exec (.icmpEcho ⟨p, f⟩ target ip body) s = .next (
      if f.plainIp = true ∧ target = s.reg (IP_ADDR p) ∧ s.onLink p ip = true
      then s.sendFrame p .other (.icmpReply ip body)
      else s.satCount (RX_DISCARD p))) ∧
  (∀ (p : Fin 2) (f : RxFrame) (bytes : List Byte) (s : State), s.clocked → s.portUp p = true →
    f.brings (s.fld (USER_CFG p) 31 16) → s.bit (PORT_CTRL p) 6 = true → bytes.length = 16 →
    exec (.userDatagramRx ⟨p, f⟩ bytes) s =
      .next (s.ringGather (s.fld (USER_CFG p) 5 0) (rankPort p) (.net p (BitVec.ofNat 128 (leNat bytes))))) ∧
  (∀ (r : Fin 64) (p : Fin 2) (e : BitVec 128) (s : State), s.ringEn r = true → s.ringProd r = 0x21 + p.val → s.ringCreditNow r ≠ 0 →
    (s.ring r).inflight = [] → ((s.serveOffer r (.net p e)).ring r).inflight = [.entry e]) ∧
  (∀ (p : Fin 2) (f : RxFrame) (bytes : List Byte) (s : State), s.clocked → s.portUp p = true →
    f.brings (s.fld (USER_CFG p) 31 16) → s.bit (PORT_CTRL p) 6 = false ∨ bytes.length ≠ 16 →
    exec (.userDatagramRx ⟨p, f⟩ bytes) s = .next (s.satCount (RX_DISCARD p))) ∧
  (∀ (p : Fin 2) (s : State), s.clocked → s.portUp p = true → s.bit (PORT_CTRL p) 6 = true →
    let r := s.fld (USER_CFG p) 13 8
    s.ringEn r = true → s.ringCons r = 0x21 + p.val → s.ringVisible r ≠ 0 →
    s.resPoisoned (s.entryAt r (s.reg (RING_RD r))) 16 = false → s.onLink p (s.reg (TX_DEST_IP p)) = true →
    s.reg (TX_DEST_IP p) ≠ groupIp →
    ∃ t, exec (.userDatagramTx p) s = .next t ∧ t.reg (RING_RD r) = s.reg (RING_RD r) + 1 ∧
      (∀ mac, (s.port p).arp.lookup (s.reg (TX_DEST_IP p)) = some mac →
        (t.port p).tx = (s.port p).tx ++ [⟨.user, s.vlanTag p .user,
          .udp (s.reg (TX_DEST_IP p)) mac (BitVec.ofNat 16 (s.fld (TX_DEST_UDP p) 15 0))
            (entryWords (BitVec.ofNat 128 (s.resRead (s.entryAt r (s.reg (RING_RD r))) 16)))⟩]) ∧
      ((s.port p).arp.lookup (s.reg (TX_DEST_IP p)) = none → (s.port p).waiting = [] →
        (t.port p).tx = (s.port p).tx ++ [{ cls := .other, vlan := s.vlanTag p .other, frame := .arpRequest (s.reg (TX_DEST_IP p)) }] ∧
        (t.port p).waiting.length = 1)) ∧
  (∀ (p : Fin 2) (s : State), s.clocked → s.portUp p = true → (s.mt - (s.port p).linkTick).toNat % 800000000 = 0 →
    s.mt ≠ (s.port p).linkTick → (s.port p).discSent ≠ some s.mt →
    ∃ t x, exec (.discoverSend p) s = .next t ∧ (t.port p).tx = (s.port p).tx ++ [x] ∧ x.cls = .discover ∧
      (t.port p).discSent = some s.mt) ∧
  (∀ (p : Fin 2) (f : RxFrame) (ip : Word) (udp : BitVec 16) (bytes : List Byte) (s : State), s.clocked → s.portUp p = true →
    f.brings (s.fld (UDP_PORTS p) 31 16) → announcement 0x50300800#32 32 bytes = none →
    exec (.discover ⟨p, f⟩ ip udp bytes) s = .next (s.satCount (PONAR_DISCARD p))) ∧
  (∀ (p : Fin 2) (f : RxFrame) (ip : Word) (udp : BitVec 16) (bytes : List Byte) (ws : List Word) (e : Nat) (s : State), s.clocked →
    s.portUp p = true → f.brings (s.fld (UDP_PORTS p) 31 16) → announcement 0x50300800#32 32 bytes = some ws → discoverOk (fun i => ws.getD i 0) = true →
    ¬(ws.getD 4 0 = loWord ((macOf 0).zeroExtend 64) ∧ ws.getD 5 0 = hiWord ((macOf 0).zeroExtend 64)) →
    s.findPeer p ip udp = none → (List.range 32).find? (fun e => !s.peerUsed p e) = some e →
    ∃ t, exec (.discover ⟨p, f⟩ ip udp bytes) s = .next t ∧ t.bit (PEER_INFO p e) 31 = true ∧ t.reg (PEER_IP p e) = ip ∧
      t.fld (PEER_UDP p e) 15 0 = udp.toNat ∧ t.reg (PEER_ID_LO p e) = ws.getD 4 0 ∧
      t.reg (PEER_NEW_CNT p) = satInc (s.reg (PEER_NEW_CNT p)) ∧ t.bit (PORT_STATUS p) 2 = true) ∧
  (∀ (p : Fin 2) (f : RxFrame) (ip : Word) (udp : BitVec 16) (bytes : List Byte) (ws : List Word) (e : Nat) (s : State), s.clocked →
    s.portUp p = true → f.brings (s.fld (UDP_PORTS p) 31 16) → announcement 0x50300800#32 32 bytes = some ws → discoverOk (fun i => ws.getD i 0) = true →
    ¬(ws.getD 4 0 = loWord ((macOf 0).zeroExtend 64) ∧ ws.getD 5 0 = hiWord ((macOf 0).zeroExtend 64)) →
    s.findPeer p ip udp = some e → s.peerReturns p e (fun i => ws.getD i 0) = true →
    ∃ t e', exec (.discover ⟨p, f⟩ ip udp bytes) s = .next t ∧ t.bit (PEER_INFO p e') 31 = true ∧ t.bit (PEER_INFO p e') 30 = false ∧
      t.reg (PEER_IP p e') = ip ∧ t.reg (PEER_ID_LO p e') = ws.getD 4 0 ∧
      t.reg (PEER_NEW_CNT p) = satInc (s.reg (PEER_NEW_CNT p)) ∧ t.bit (PORT_STATUS p) 2 = true) ∧
  (∀ (p : Fin 2) (e : Fin 32) (u : Tick) (s : State), s.serves → (s.port p).heard.lookup e.val = some u →
    s.bit (PEER_INFO p e) 31 = true → s.reached (u + 2800000000) = true →
    ∃ t, exec (.peerAgeExpiry p e) s = .next t ∧ t.bit (PEER_INFO p e) 31 = false ∧
      t.reg (PEER_GONE_CNT p) = satInc (s.reg (PEER_GONE_CNT p)) ∧ t.bit (PORT_STATUS p) 2 = true) ∧
  (∀ (p : Fin 2) (e : Fin 32) (u : Tick) (s : State), s.serves → (s.port p).lastMsg.lookup e.val = some u →
    s.bit (PEER_INFO p e) 30 = true → s.fld (SESS_CFG p) 7 0 ≠ 0 →
    s.reached (u + BitVec.ofNat 64 (s.fld (SESS_CFG p) 7 0 * 800000000)) = true →
    ∃ t, exec (.sessionIdleExpiry p e) s = .next t ∧ t.bit (PEER_INFO p e) 30 = false ∧ t.fld (PEER_INFO p e) 3 0 = 0 ∧
      t.bit (PORT_STATUS p) 2 = true)

/-- Network time and shared shafts (R329 to R331, R337 to R343): the servo keeps or steps the network time, and loses the lock without a
Sync, whose offset is that of R330; a Pdelay_Req is answered, and a Pdelay_Resp gives the delay of the path; the best master clock algorithm
makes the device grandmaster or a port slave; a master port sends Sync and, once it has left, Follow_Up; a shaft is exported at its sample, and its messages are rejected or accepted;
importing shafts coast and are lost. The latencies of OTP, the peer's rate, the values of the device's own vector, and the cases of rejection and coasting that no rule
names are read there: the model's choice (notes/assumptions/2.md, notes/assumptions/31.md, notes/assumptions/32.md,
notes/assumptions/33.md, notes/assumptions/34.md, notes/assumptions/41.md, notes/assumptions/42.md, notes/assumptions/84.md). -/
def Obligations.NetworkTimeAndShaftsAreShared : Prop :=
  (∀ (p : Fin 2) (f : RxFrame) (sec : BitVec 48) (ns corr : BitVec 32) (s : State), s.clocked → f.sound → s.ptpOn p = true →
    s.portRole p = 2 → s.slavePort = p → s.tsState = 2 →
    let off := ahead (s.ntNow - BitVec.ofNat 64 (rxLatency p))
      (ntOf sec.toNat ns.toNat + corr.zeroExtend 64 + (s.port p).pathDelay)
    ∃ t, exec (.gptpSync ⟨p, f⟩ (.sync ⟨sec, ns⟩) corr) s = .next t ∧ t.ts.lastSync = s.mt ∧ t.ts.seconds = sec ∧
      (if 51200 < off.natAbs then t.tsState = 1 ∧ t.reg NT_STEP_CNT = satInc (s.reg NT_STEP_CNT) ∧
         t.pair NT_OFS_LO NT_OFS_HI = s.pair NT_OFS_LO NT_OFS_HI - bvInt 64 off
       else t.tsState = 2 ∧ t.reg OFFSET = bvInt 32 off ∧ t.pair NT_OFS_LO NT_OFS_HI = s.pair NT_OFS_LO NT_OFS_HI)) ∧
  (∀ (p : Fin 2) (f : RxFrame) (identity : BitVec 80) (corr : BitVec 32) (s : State), s.clocked → f.sound → s.ptpOn p = true →
    s.tsState ≠ 0 →
    exec (.gptpSync ⟨p, f⟩ (.pdelayReq identity) corr) s = .next (s.sendFrame p .gptp (.pdelayResp identity (s.rxStamp p)))) ∧
  (∀ (p : Fin 2) (f : RxFrame) (received responded : PtpTime) (corr : BitVec 32) (t1 : Stamp) (s : State), s.clocked → f.sound →
    s.ptpOn p = true → s.tsState ≠ 0 → (s.port p).pdelayOpen = some t1 →
    exec (.gptpSync ⟨p, f⟩ (.pdelayResp received responded) corr) s = .next (s.setPort p { s.port p with
      pdelayOpen := none,
      pathDelay := bvInt 64 ((ahead (s.rxStamp p) t1 - ahead (stampOf responded) (stampOf received) - (corr.toNat : Int)) / 2) })) ∧
  (∀ (p : Fin 2) (s : State) (f : TxFrame), nextFrame (s.port p).tx = some f → s.portUp p = true → s.reached (s.port p).txFree = true →
    (f.frame = .sync → ((s.portSend p).port p).tx = (s.port p).tx.erase f ++
      [{ cls := .gptp, vlan := s.vlanTag p .gptp, frame := .followUp (s.ntNow + BitVec.ofNat 64 (txLatency p)) }]) ∧
    (f.frame = .pdelayReq → ((s.portSend p).port p).pdelayOpen = some (s.now + BitVec.ofNat 64 (txLatency p))) ∧
    (∀ identity received, f.frame = .pdelayResp identity received → ((s.portSend p).port p).tx = (s.port p).tx.erase f ++
      [{ cls := .gptp, vlan := s.vlanTag p .gptp, frame := .pdelayRespFollowUp identity (s.now + BitVec.ofNat 64 (txLatency p)) }])) ∧
  (∀ s : State, s.serves → s.tsState = 2 → s.reached (s.ts.lastSync + BitVec.ofNat 64 (3 * s.syncInterval)) = true →
    ∃ t, exec .syncTimeout s = .next t ∧ t.tsState = 3) ∧
  (∀ s : State, s.serves → s.bit TS_CTRL 0 = true → s.ownBest = true →
    ∃ t, exec .bmcaGrandmaster s = .next t ∧ t.tsState = 4 ∧ t.pair GM_ID_LO GM_ID_HI = clockIdentity ∧
      ∀ p : Nat, p < 2 → s.ptpOn p = true → t.portRole p = 1) ∧
  (∀ s : State, s.bit TS_CTRL 1 = false → exec .bmcaGrandmaster s = .next s) ∧
  (∀ (p : Fin 2) (f : RxFrame) (v : PriorityVector) (s : State), s.clocked → f.sound → s.ptpOn p = true → s.portRole p ≠ 2 →
    (v.source >>> 16).truncate 64 ≠ clockIdentity → v.steps.toNat < 255 → s.bit TS_CTRL 1 = false → s.pathVector (1 - p.val) = none →
    ∃ t, exec (.gptpAnnounce p f v) s = .next t ∧ t.portRole p = 2 ∧ t.slavePort = p ∧ t.tsState = 1 ∧ t.ts.measured = false ∧
      t.pair GM_ID_LO GM_ID_HI = v.identity) ∧
  (∀ (p : Fin 2) (s : State), s.clocked → s.ptpOn p = true → s.portRole p = 1 → s.tsState ≠ 0 → (s.port p).syncSent = none →
    (s.port p).annSent = some s.mt → (s.port p).pdelaySent = some s.mt →
    ∃ t, exec (.gptpSyncSend p) s = .next t ∧ (t.port p).syncSent = some s.mt ∧
      (t.port p).tx = (s.port p).tx ++ [{ cls := .gptp, vlan := s.vlanTag p .gptp, frame := .sync }]) ∧
  (∀ (v : Word) (s : State), s.accepts TS_SNAP_CTRL v → v.getLsbD 0 = true →
    exec (.tsSnapTake v) s = .next (((s.noteHost TS_SNAP_CTRL).setPair TS_SNAP_MT_LO TS_SNAP_MT_HI s.mt).setPair
      TS_SNAP_NT_LO TS_SNAP_NT_HI (s.now + s.pair NT_OFS_LO NT_OFS_HI))) ∧
  (∀ (h : Fin 16) (s : State), s.serves → s.bit (EXP_CTRL h) 0 = true → s.shState h ≠ 0 → s.exportLast h ≠ some s.mt →
    ((s.mt.toNat : Int) - s.fld (EXP_PHASE h) 17 0) % 200000 = 0 →
    ∃ t, exec (.exportSample h) s = .next t ∧ t.exportLast h = some s.mt ∧
      (s.shSrc h = 4 ∨ s.tsGood = false → t.reg (EXP_HELD h) = satInc (s.reg (EXP_HELD h)) ∧ t.ports = s.ports) ∧
      (s.shSrc h ≠ 4 → s.tsGood = true → (∃ p : Nat, p < 2 ∧ s.bit (EXP_CTRL h) (1 + p) = true ∧ s.portUp p = true) →
        t.reg (EXP_SEQ h) = BitVec.ofNat 32 ((s.fld (EXP_SEQ h) 15 0 + 1) % 65536) ∧ t.reg (EXP_SENT h) = s.reg (EXP_SENT h) + 1)) ∧
  (∀ (p : Fin 2) (f : RxFrame) (bytes : List Byte) (s : State), s.clocked → s.portUp p = true →
    f.brings (s.fld (UDP_PORTS p) 31 16) → ¬isShaftExport bytes →
    exec (.shaftExport ⟨p, f⟩ bytes) s = .next (s.satCount (PONAR_DISCARD p))) ∧
  (∀ (p : Fin 2) (f : RxFrame) (bytes : List Byte) (i : Nat) (s : State), s.clocked → s.portUp p = true →
    f.brings (s.fld (UDP_PORTS p) 31 16) → isShaftExport bytes → i < 16 →
    s.importListens p i bytes = true → (∀ j : Nat, j < 16 → j ≠ i → s.importListens p j bytes = false) →
    let w : Nat → Word := fun j => (bytesWords bytes).getD j 0
    let sl := ofWords (w 9) (w 8) - s.pair NT_OFS_LO NT_OFS_HI
    (s.importCheck i w sl ≠ 0 →
      ∃ t, exec (.shaftExport ⟨p, f⟩ bytes) s = .next t ∧ t.reg (IMP_REJECT i) = satInc (s.reg (IMP_REJECT i)) ∧
        t.fld (IMP_STATUS i) 31 24 = s.importCheck i w sl ∧ t.reg (IMP_RX i) = s.reg (IMP_RX i)) ∧
    (s.importCheck i w sl = 0 → s.importers i = [] → 0 < signed 16 ((bitsOf (w 1) 31 16 + 65536 - s.fld (IMP_STATUS i) 15 0) % 65536) →
      ∃ t, exec (.shaftExport ⟨p, f⟩ bytes) s = .next t ∧ t.reg (IMP_RX i) = s.reg (IMP_RX i) + 1 ∧
        t.fld (IMP_STATUS i) 15 0 = bitsOf (w 1) 31 16 ∧ t.pair (IMP_LAST_LO i) (IMP_LAST_HI i) = sl)) ∧
  (∀ (h : Fin 16) (s : State), s.serves → (s.importSynced (s.shIface h)).contains h.val = true →
    s.bit (IMP_STATUS (s.shIface h)) 22 = false → s.importLate (s.shIface h) (s.impTimeout (s.shIface h)) = true →
    s.coastPeriods (s.shIface h) ≠ 0 →
    ∃ t, exec (.importTimeout h) s = .next t ∧ t.bit (IMP_STATUS (s.shIface h)) 22 = true ∧ t.shState h = 4 ∧
      t.reg (IMP_COAST_CNT (s.shIface h)) = satInc (s.reg (IMP_COAST_CNT (s.shIface h)))) ∧
  (∀ (h : Fin 16) (s : State), s.serves → (s.importSynced (s.shIface h)).contains h.val = true →
    s.bit (IMP_STATUS (s.shIface h)) 22 = true →
    s.importLate (s.shIface h) (s.impTimeout (s.shIface h) + s.coastPeriods (s.shIface h)) = true →
    ∃ t, exec (.coastLimit h) s = .next t ∧ t.bit (IMP_STATUS (s.shIface h)) 22 = false ∧ t.shState h = 5)

/-! ### Power, resets, the island -/

/-- Power requests and gating (R351 to R361): RUN and DOZE act at once; NAP and HIBERNATE are refused with the conditions that fail, or
stop the clocks, or wait for the mirror; a wake restarts the clocks one tick on, BCLK in the first even tick; a cluster gates when its
condition has held for 16 ticks and wakes 160 ticks after the wake began, as does a gated cluster that is reset; a cluster reset halts its
threads and empties its weir, and ends 64 ticks on. An event's row acts only when its event is due, and a request during the entry to
HIBERNATE: the model's choice (notes/assumptions/2.md, notes/assumptions/88.md). -/
def Obligations.PowerRequestsAreServed : Prop :=
  (∀ (s : State) (p : Instr × Nat), p ∈ [(Instr.pwrReqRun, 0), (Instr.pwrReqDoze, 1)] → s.accepts PWR_CTRL (BitVec.ofNat 32 p.2) →
    s.power.hibReq = none → s.fld PWR_STATUS 2 0 ≤ 1 →
    exec p.1 s = .next ((s.noteHost PWR_CTRL).setFld PWR_STATUS 2 0 p.2)) ∧
  (∀ (s : State) (p : Instr × Nat), p ∈ [(Instr.pwrReqNap, 2), (Instr.pwrReqHibernate, 3)] → s.accepts PWR_CTRL (BitVec.ofNat 32 p.2) →
    s.power.hibReq = none → s.napRefuse ≠ 0 →
    ∃ t, exec p.1 s = .next t ∧ t.fld PWR_STATUS 15 8 = s.napRefuse ∧ t.bit PWR_STATUS 3 = true ∧ t.power = s.power) ∧
  (∀ s : State, s.accepts PWR_CTRL 2 → s.power.hibReq = none → s.napRefuse = 0 →
    ∃ t, exec .pwrReqNap s = .next t ∧ t.power.phase = .nap ∧ t.reg NAP_LF = 0 ∧ ¬t.clocked ∧ t.mt = s.mt) ∧
  (∀ s : State, s.accepts PWR_CTRL 2 → s.power.hibReq.isSome = true → s.napRefuse = 0 →
    ∃ t, exec .pwrReqNap s = .next t ∧ t.power.phase = .nap ∧ t.power.hibReq = none) ∧
  (∀ s : State, s.accepts PWR_CTRL 3 → s.power.hibReq.isSome = true →
    exec .pwrReqHibernate s = .next (s.noteHost PWR_CTRL)) ∧
  (∀ s : State, s.accepts PWR_CTRL 3 → s.power.hibReq = none → s.napRefuse = 0 →
    ∃ t, exec .pwrReqHibernate s = .next t ∧ t.power.hibReq = some s.mt ∧ t.fld PWR_STATUS 2 0 = 3 ∧
      t.island.mirrorBusy.isSome = true) ∧
  (∀ s : State, s.power.phase = .nap →
    exec (.napWakeEvent true) s = .next { s with power := { s.power with phase := .waking } }) ∧
  (∀ s : State, s.power.phase = .waking → s.power.heldHost = [] → s.later = [] → s.hg.pairs = none →
    ∃ t, exec .napWakeComplete s = .next t ∧ t.power.phase = .run ∧ t.mt = s.mt + 1 ∧ t.fld PWR_STATUS 2 0 = 0 ∧
      t.bit CALENG_CAL_STATUS 1 = true ∧ t.power.bclk = !t.mt.getLsbD 0) ∧
  (∀ s : State, s.serves → s.power.hibReq.isSome = true → s.island.mirrorBusy = none → s.island.mirrorDue = false →
    exec .pwrEnFall s =
      .next ({ s with power := { s.power with phase := .hibernate, pwrEn := false, hibReq := none } }.refreshPins s.now)) ∧
  (∀ s : State, s.power.phase = .hibernate → s.power.pwrEn = false →
    ∃ t, exec .hibAbort s = .next t ∧ t.power.phase = .por ∧ t.power.pwrEn = true ∧ t.power.cause = 7) ∧
  (∀ s : State, s.power.phase = .hibernate → s.power.pwrEn = false → s.bit HIB_CFG 0 = true →
    exec .wakeNRequest s =
      .next { s with power := { s.power with pwrEn := true, rails := false, cause := 6, phase := .por } }) ∧
  (∀ (n : Fin 24) (s : State),
    ((s.engine n).gateSince = none → s.gated n = false → s.gatingHolds n = true →
      ((s.gatingTick n).engine n).gateSince = some s.mt) ∧
    (∀ u, (s.engine n).gateSince = some u → s.reached (u + 16) = false →
      ((s.gatingTick n).engine n).gateSince = if s.gatingHolds n = true then some u else none)) ∧
  (∀ (n : Fin 24) (u : Tick) (s : State), s.serves → (s.engine n).gateSince = some u → s.gated n = false → s.reached (u + 16) = true →
    exec (.clusterGate n) s = .next ((s.setBit CG_MAP n true).setEngine n { s.engine n with gateSince := none })) ∧
  (∀ (n : Fin 24) (s : State), s.serves → s.gated n = true → (s.engine n).wakeEnd = none → s.wakeDemand n = true →
    exec (.clusterWakeBegin n) s = .next (s.setEngine n { s.engine n with wakeEnd := some (s.mt + 160) })) ∧
  (∀ (n : Fin 24) (u : Tick) (s : State), s.serves → s.gated n = true → (s.engine n).wakeEnd = some u → s.reached u = true →
    (s.engine n).heldReads = [] →
    exec (.clusterWakeEnd n) s = .next ((s.setBit CG_MAP n false).setEngine n
      { s.engine n with wakeEnd := none, gateSince := none, heldReads := [] }).commitLater) ∧
  (∀ (v : Word) (s : State), s.accepts RST_CL v → bitsOf v 23 0 ≠ 0 → s.bit UC_LOAD_STATUS 31 = true →
    ∃ t, exec (.rstCl v) s = .next t ∧ t.bit RST_STATUS 8 = true ∧ t.threads = s.threads ∧ t.weirs = s.weirs) ∧
  (∀ (v : Word) (s : State), s.accepts RST_CL v → s.bit UC_LOAD_STATUS 31 = false →
    ∃ t, exec (.rstCl v) s = .next t ∧ ∀ n : Nat, n < 24 → v.getLsbD n = true →
      (t.engine n).resetEnd = some (s.mt + 64) ∧ t.weir n = Weir.init ∧
      (t.engine n).wakeEnd = (if s.gated n = true then some ((s.engine n).wakeEnd.getD (s.mt + 160)) else none) ∧
      ∀ h : Nat, h < 16 → t.thState n h = thHalted ∧ ∀ i : Nat, i < 16 → t.g n h i = 0) ∧
  (∀ (n : Fin 24) (u : Tick) (s : State), s.clocked → (s.engine n).resetEnd = some u → s.reached u = true →
    exec (.clusterResetEnd n) s = .next (s.setEngine n { s.engine n with resetEnd := none }))

/-- Resets of the main domain (R346, R350, R359, R360, R363 to R366): a POR clears the volatile memories and every register outside the
island; a pin reset keeps the reservoir; pulses of RESET_N below 200 ns do nothing; the end of a reset starts MT at 0 and samples the
straps; a soft reset halts every thread and clears OUT_EN, leaves micro-store, reservoir and pin matrix, and is no kick of the watchdog. What the rows of the survival table
cover, the free choice for a RESET_N pulse between 200 ns and 1 000 ns, and the tick in which CAUSE changes: the model's choice
(notes/assumptions/38.md, notes/assumptions/39.md, notes/assumptions/43.md, notes/assumptions/45.md). -/
def Obligations.ResetsClearTheMainDomain : Prop :=
  (∀ s : State, s.serves →
    ∃ t, exec .porAssert s = .next t ∧ t.power.phase = .por ∧ t.power.cause = 1 ∧ t.power.rails = false ∧ t.reservoir = [] ∧
      t.localRam = [] ∧ t.ustore = [] ∧ t.nvm = s.nvm ∧ t.island.calendar = s.island.calendar ∧
      ∀ a, survival a ≠ .island → a ∉ [TRIP_RAW, TRIP_ACTIVE, CLK_STATUS] → t.reg a = resetWord a) ∧
  (∀ s : State, s.power.phase = .por → s.power.pwrEn = true →
    exec .porRelease s = .next { s with power := { s.power with rails := true } }) ∧
  (∀ (ns : Nat) (s : State), s.serves → 1000 ≤ ns →
    ∃ t, exec (.resetN true ns) s = .next t ∧ t.power.phase = .pinReset ∧ t.power.resetLow = true ∧ t.power.cause = 2 ∧
      t.reservoir = s.reservoir ∧ t.ustore = [] ∧ t.nvm = s.nvm) ∧
  (∀ (ns : Nat) (s : State), ns < 200 → exec (.resetN true ns) s = .next s) ∧
  (∀ (ns : Nat) (s : State), exec (.resetN false ns) s = .next { s with power := { s.power with resetLow := false } }) ∧
  (∀ (pll : Bool) (s : State), s.serves →
    ∃ t, exec (.clkFail pll) s = .next t ∧ t.power.phase = .pinReset ∧ t.power.cause = 3 ∧ t.reservoir = s.reservoir) ∧
  (∀ (straps : BitVec 2) (s : State), s.power.resetLow = false →
    (s.power.phase = .por ∧ s.power.rails = true ∧ s.power.pwrEn = true) ∨ s.power.phase = .pinReset →
    ∃ t, exec (.endOfReset straps) s = .next t ∧ t.power.phase = .run ∧ t.mt = 0 ∧ t.fld GSTAT 5 4 = straps.toNat ∧
      t.fld RST_STATUS 3 0 = s.power.cause % 16 ∧ t.bit CALENG_CAL_STATUS 1 = true ∧ t.bit GSTAT 2 = false ∧ t.ucodeValid = false) ∧
  (∀ s : State, s.serves → s.hg.resetDue = true →
    ∃ t, exec .softResetStart s = .next t ∧ t.power.phase = .soft ∧ t.power.cause = 5 ∧ t.bit GSTAT 2 = false ∧
      t.hg.resetAfter = false ∧ t.hg.resetDue = false ∧ t.ustore = s.ustore ∧ ∀ n h : Nat, n < 24 → h < 16 → t.thState n h = thHalted) ∧
  (∀ s : State, s.power.phase = .soft → s.hg.nvmOps = [] → s.island.mirrorBusy = none →
    ∃ t, exec .softResetEnd s = .next t ∧ t.power.phase = .run ∧ t.hg.kick = s.mt ∧ t.hg.expired = s.hg.expired ∧
      t.bit WDOG_STATUS 0 = s.bit WDOG_STATUS 0 ∧ (Table.wf (fun _ => Chan.init) s.chans = true → ∀ k, (t.chan k).inSel = (s.chan k).inSel) ∧ t.fld RST_STATUS 3 0 = s.power.cause % 16 ∧
      t.ustore = s.ustore ∧ t.reservoir = s.reservoir ∧ t.weirs = [] ∧ t.rings = [] ∧ t.nvm.sealed = s.nvm.sealed)

/-- The always-on island, mirrors, trims and TEMP (R350, R368 to R376, R379, R384, R386). An event's row acts only when its event is due;
the order within an LFCLK edge and what a mirror holds are read there: the model's choice (notes/assumptions/2.md,
notes/assumptions/35.md, notes/assumptions/48.md, notes/assumptions/58.md). -/
def Obligations.IslandCountsAndMirrors : Prop :=
  (∀ s : State, s.lfOk = true →
    ∃ t, exec .lfclkLoss s = .next t ∧ t.lfOk = false ∧ t.bit CALN_CAL_STATUS 0 = false ∧ t.island = s.island) ∧
  (∀ s : State, exec .lfclkReturn s = .next (s.setBit CLK_STATUS 2 true)) ∧
  (∀ s : State, ∃ t, exec .vbatPor s = .next t ∧ t.island.calendar = 0 ∧ (∀ w : Nat, w < 64 → t.wear w = 0) ∧
    t.island.restoreDue = true ∧ t.nvm = s.nvm ∧ ∀ a, t.reg a = if islandAddr a = true then resetWord a else s.reg a) ∧
  (∀ s : State, s.island.restoreDue = true → s.power.rails = true →
    (∀ r, s.nvm.mirror = some r →
      ∃ t, exec .islandRestore s = .next t ∧
        (∀ w : Nat, w < 64 → s.written.contains (WEAR_CFG w) = false → t.reg (WEAR_CFG w) = (r.cfgs.lookup w).getD 0) ∧
        t.island.wear = r.counts ∧ t.island.calendar = r.calendar ∧ t.bit MIR_STATUS 0 = true ∧
        t.reg LOST_EPOCHS = r.lost + 1 ∧ t.reg MIR_EPOCH = r.epoch ∧ t.bit CALN_CAL_STATUS 0 = false) ∧
    (s.nvm.mirror = none →
      ∃ t, exec .islandRestore s = .next t ∧ t.bit MIR_STATUS 1 = true ∧ t.island.wear = s.island.wear)) ∧
  (∀ s : State, s.lfOk = false → exec .calendarStep s = .next s) ∧
  (∀ s : State, s.lfOk = true →
    ∃ t, exec .calendarStep s = .next t ∧ t.island.setReq = false ∧
      (s.island.setReq = true → t.island.calendar = s.pair CAL_SET_LO CAL_SET_HI &&& 0x7FFFFFFFFFFFFFFF#64 ∧
        t.bit CALN_CAL_STATUS 0 = true) ∧
      (s.island.setReq = false → s.island.ptpReq = false →
        t.island.calendar = (s.island.calendar + 1) &&& 0x7FFFFFFFFFFFFFFF#64)) ∧
  (∀ (v : Word) (s : State), s.accepts CALN_CAL_CTRL v → v.getLsbD 0 = true →
    ∃ t, exec (.calSet v) s = .next t ∧
      (if s.bit CAL_SET_HI 31 = true then t.bit CALN_CAL_STATUS 3 = true ∧ t.island = s.island
       else t.island.setReq = true)) ∧
  (∀ s : State, s.serves →
    let c := s.cycleStart.island.calendar
    exec .calLoRead s = .next ((s.touchChanged (s.setReg CAL_HI (hiWord c))).returning [loWord c])) ∧
  (∀ (w : Fin 64) (u : Tick) (rest : List Tick) (s : State), s.clocked → s.island.owed.get (fun _ => []) w = u :: rest →
    ∃ t, exec (.wearEvent w) s = .next t ∧ (t.wear w).toNat = min (2 ^ 48 - 1) ((s.wear w).toNat + 1) ∧
      t.island.owed.get (fun _ => []) w = rest) ∧
  (∀ (v : Word) (s : State), s.accepts WEAR_OP v → v.getLsbD 8 = true → v.getLsbD 9 = false →
    ∃ t, exec (.wearAdd v) s = .next t ∧
      (if s.wearSrc (bitsOf v 5 0) = 0 then
         (t.wear (bitsOf v 5 0)).toNat = min (2 ^ 48 - 1) ((s.wear (bitsOf v 5 0)).toNat + (s.reg WEAR_ADD_VAL).toNat)
       else t.bit WEAR_STATUS 0 = true ∧ t.island = s.island)) ∧
  (∀ (v : Word) (s : State), s.accepts WEAR_OP v → v.getLsbD 8 = false → v.getLsbD 9 = true →
    ∃ t, exec (.wearClr v) s = .next t ∧
      (if s.bit (WEAR_CFG (bitsOf v 5 0)) 31 = true then t.bit WEAR_STATUS 0 = true ∧ t.island = s.island
       else t.wear (bitsOf v 5 0) = BitVec.ofNat 48 (s.wearArrived (bitsOf v 5 0)))) ∧
  (∀ (w : Fin 64) (s : State), s.serves →
    let c : BitVec 64 := (s.cycleStart.wear w).zeroExtend 64
    exec (.wearLoRead w) s = .next ((s.touchChanged (s.setReg (WEAR_HI w) (hiWord c))).returning [loWord c])) ∧
  (∀ (v : Word) (s : State), s.accepts WEAR_TAKE v → v.getLsbD 0 = true →
    exec (.wearTake v) s = .next ((s.noteHost WEAR_TAKE).noteTake .wear)) ∧
  (∀ s : State, s.takes = [.wear] →
    s.runTakes.pair WSNAP_CAL_LO WSNAP_CAL_HI = s.island.calendar ∧ s.runTakes.takes = [] ∧
      s.runTakes.fld WEAR_SNAP_SEQ 15 0 = (s.fld WEAR_SNAP_SEQ 15 0 + 1) % 65536 ∧
      ∀ w : Nat, w < 64 → s.runTakes.pair (WSNAP_LO w) (WSNAP_HI w) = (s.wear w).zeroExtend 64) ∧
  (∀ s : State, s.serves → s.island.mirrorBusy = none → s.mirrorPeriod * 32768 ≤ (s.island.calendar - s.island.lastMirror).toNat →
    ∃ t, exec .mirrorDue s = .next t ∧ t.island.mirrorBusy = some s.mirrorRecord ∧ t.island.lastMirror = s.island.calendar ∧
      t.bit MIR_STATUS 31 = true) ∧
  (∀ s : State, s.power.phase = .nap ∨ s.power.phase = .soft → s.mirrorPeriod * 32768 ≤ (s.island.calendar - s.island.lastMirror).toNat →
    ∃ t, exec .mirrorDue s = .next t ∧ t.island.mirrorDue = true ∧ t.island.mirrorBusy = s.island.mirrorBusy) ∧
  (∀ (v : Word) (s : State), s.accepts MIR_CTRL v → v.getLsbD 0 = true → s.island.mirrorBusy = none →
    ∃ t, exec (.mirNow v) s = .next t ∧ t.island.mirrorBusy = some s.mirrorRecord ∧ t.bit MIR_STATUS 31 = true) ∧
  (∀ (s : State) (r : MirrorRec), s.island.mirrorBusy = some r → s.island.mirrorDue = false →
    ∃ t u, exec (.mirrorComplete true) s = .next t ∧ exec (.mirrorComplete false) s = .next u ∧
      t.island.mirrorBusy = none ∧ u.island.mirrorBusy = none ∧ t.nvm.mirror = some r ∧ t.reg MIR_EPOCH = s.reg MIR_EPOCH + 1 ∧
      t.bit MIR_STATUS 31 = false ∧ u.nvm = s.nvm ∧ u.reg MIR_FAIL_CNT = satInc (s.reg MIR_FAIL_CNT)) ∧
  (∀ (p : Fin 256) (s : State), s.padBusy p = false →
    ∃ t, exec (.trimTakeEffect p) s = .next t ∧
      (t.pin p).trimOutDue = (s.pin p).trimOutDue.filter (fun e => e.1 == s.mt) ∧
      (t.pin p).trimInDue = (s.pin p).trimInDue.filter (fun e => e.1 == s.mt) ∧
      (∀ q, q ≠ p.val → t.pin q = s.pin q) ∧ t.regs = s.regs) ∧
  (∀ (p : Fin 256) (s : State), s.padBusy p = true → exec (.trimTakeEffect p) s = .next s) ∧
  (∀ (x : BitVec 16) (s : State), s.serves → exec (.tempUpdate x) s = .next (s.setReg TEMP (x.signExtend 32)))

/-! ### Invariants of the block -/

/-- The frame of the memories that a reset of the host's registers does not reach: what NVM holds (keys apart, SEALED, the floor, user
calibration and the mirror records) changes only when an NVM write or a mirror write completes, or when the end of a reset finds a region
without a valid copy (R378, R380); the micro-store changes only when a load completes (R217) and in the resets that clear it (R364). The
passing of a tick changes neither. NVM is its contents and three validity bits: the model's choice (notes/assumptions/47.md,
notes/assumptions/58.md). -/
def Obligations.NvmAndMicroStoreHaveTheirWriters : Prop :=
  (∀ (c : Instr) (s t : State), exec c s = .next t → (∀ ok, c ≠ .nvmWriteComplete ok) → (∀ ok, c ≠ .mirrorComplete ok) →
    (∀ st, c ≠ .endOfReset st) → t.nvm = s.nvm) ∧
  (∀ (c : Instr) (s t : State), exec c s = .next t → c ≠ .microcodeLoadComplete → c ≠ .porAssert → (∀ l ns, c ≠ .resetN l ns) →
    (∀ pll, c ≠ .clkFail pll) → c ≠ .hibAbort → (∀ st, c ≠ .endOfReset st) → t.ustore = s.ustore) ∧
  (∀ s t : State, step s = .next t → s.pending = [] → t.nvm = s.nvm ∧ t.ustore = s.ustore)

/-- "No command and no reset clears SEALED" (R317): once the device is sealed, it is sealed after every command and after every step.
SEALED is a bit of NVM's contents: the model's choice (notes/assumptions/58.md). -/
def Obligations.SealedStays : Prop :=
  (∀ (c : Instr) (s t : State), exec c s = .next t → s.nvm.sealed = true → t.nvm.sealed = true) ∧
  (∀ s t : State, step s = .next t → s.nvm.sealed = true → t.nvm.sealed = true)

/-- Every step keeps the registers and the memories in their canonical form (the model's representation, notes/assumptions/4.md and 6.md)
and every offer to a ring accounted for, as admitted or in a spillway (R267). -/
def Obligations.StepsKeepTheForms : Prop :=
  (∀ s t : State, step s = .next t → s.canonical → t.canonical) ∧
  (∀ s t : State, step s = .next t → s.ringsAccounted → t.ringsAccounted)

/-- The state after reset meets the invariants, and a host can read it and write to it; no image is loaded, no output is enabled and no
interrupt is pending (R12, R364, R365). That the device leaves the factory unsealed: the model's choice (notes/assumptions/5.md). -/
def Obligations.ResetMeetsTheInvariants : Prop :=
  State.reset.canonical ∧ State.reset.ringsAccounted ∧ State.reset.pending = [] ∧ State.reset.nvm.sealed = false ∧
    State.reset.serves ∧ State.reset.clocked ∧ (∀ a v, State.reset.accepts a v) ∧ State.reset.ucodeValid = false ∧
    State.reset.bit GSTAT 2 = false ∧ (∀ i : Nat, i < 256 → State.reset.irqPending i = false) ∧
    (∀ n h : Nat, n < 24 → h < 16 → State.reset.thState n h = thHalted) ∧ State.reset.mt = 0

end
end

