-- ==== Sys2Proof/Laws/Table.lean ====
section
/-!
SUPPORT. What reading, writing and filtering a sparse table do: a read after a write, and that the canonical form is kept.
-/

namespace Sys2Proof.Machine

variable {α : Type}

/-! ### Reads -/

theorem Table.get_nil (d : Nat → α) (a : Nat) : Table.get d [] a = d a := rfl

theorem Table.get_erase_self (d : Nat → α) (t : Table α) (a : Nat) : Table.get d (Table.erase t a) a = d a := by
  induction t with
  | nil => rfl
  | cons e t ih =>
    simp only [Table.erase]
    split
    · exact ih
    · rename_i h
      simp only [Table.get, if_neg h, ih]

theorem Table.get_erase_ne (d : Nat → α) (t : Table α) {a b : Nat} (h : b ≠ a) :
    Table.get d (Table.erase t a) b = Table.get d t b := by
  induction t with
  | nil => rfl
  | cons e t ih =>
    simp only [Table.erase]
    split
    · rename_i he
      simp only [Table.get, ih]
      rw [if_neg (by omega)]
    · simp only [Table.get, ih]

theorem Table.get_insert_ne (d : Nat → α) (t : Table α) {a b : Nat} (v : α) (h : b ≠ a) :
    Table.get d (Table.insert t a v) b = Table.get d t b := by
  induction t with
  | nil => simp only [Table.insert, Table.get, if_neg (Ne.symm h)]
  | cons e t ih =>
    simp only [Table.insert]
    split
    · rw [Table.get, if_neg (Ne.symm h)]
    · simp only [Table.get, ih]

theorem Table.get_insert_self (d : Nat → α) (t : Table α) (a : Nat) (v : α) (h : ∀ e ∈ t, e.1 ≠ a) :
    Table.get d (Table.insert t a v) a = v := by
  induction t with
  | nil => simp only [Table.insert, Table.get, if_true]
  | cons e t ih =>
    simp only [Table.insert]
    split
    · simp only [Table.get, if_true]
    · simp only [Table.get]
      rw [if_neg (h e (List.mem_cons_self)), ih (fun x hx => h x (List.mem_cons_of_mem _ hx))]

theorem Table.ne_of_mem_erase (t : Table α) (a : Nat) : ∀ e ∈ Table.erase t a, e.1 ≠ a := by
  induction t with
  | nil => simp [Table.erase]
  | cons x t ih =>
    simp only [Table.erase]
    split
    · exact ih
    · rename_i h
      intro e he
      rcases List.mem_cons.1 he with rfl | he
      · exact h
      · exact ih e he

theorem Table.erase_sublist (t : Table α) (a : Nat) : List.Sublist (Table.erase t a) t := by
  induction t with
  | nil => exact List.Sublist.slnil
  | cons x t ih =>
    simp only [Table.erase]
    split
    · exact ih.cons _
    · exact ih.cons_cons _

theorem Table.mem_insert (t : Table α) (a : Nat) (v : α) (e : Nat × α) :
    e ∈ Table.insert t a v ↔ e = (a, v) ∨ e ∈ t := by
  induction t with
  | nil => simp [Table.insert]
  | cons x t ih =>
    simp only [Table.insert]
    split
    · simp
    · simp only [List.mem_cons, ih]; tauto

theorem Table.pairwise_insert (t : Table α) (a : Nat) (v : α) (hp : t.Pairwise (fun x y => x.1 < y.1)) (h : ∀ e ∈ t, e.1 ≠ a) :
    (Table.insert t a v).Pairwise (fun x y => x.1 < y.1) := by
  induction t with
  | nil => exact List.pairwise_singleton _ _
  | cons x t ih =>
    have hp' := List.pairwise_cons.1 hp
    simp only [Table.insert]
    split
    · rename_i hax
      refine List.pairwise_cons.2 ⟨fun z hz => ?_, hp⟩
      rcases List.mem_cons.1 hz with rfl | hz
      · exact hax
      · exact lt_trans hax (hp'.1 z hz)
    · rename_i hax
      refine List.pairwise_cons.2 ⟨fun z hz => ?_, ih hp'.2 (fun e he => h e (List.mem_cons_of_mem _ he))⟩
      rcases (Table.mem_insert t a v z).1 hz with rfl | hz
      · have := h x List.mem_cons_self
        show x.1 < a
        omega
      · exact hp'.1 z hz

variable [DecidableEq α]

/-- A read of the key that a write has set. -/
@[simp] theorem Table.get_set_self (d : Nat → α) (t : Table α) (a : Nat) (v : α) : Table.get d (Table.set d t a v) a = v := by
  unfold Table.set
  split
  · rename_i h; rw [Table.get_erase_self, h]
  · exact Table.get_insert_self _ _ _ _ (Table.ne_of_mem_erase t a)

/-- A read of any other key. -/
@[simp] theorem Table.get_set_ne (d : Nat → α) (t : Table α) {a b : Nat} (v : α) (h : b ≠ a) :
    Table.get d (Table.set d t a v) b = Table.get d t b := by
  unfold Table.set
  split
  · exact Table.get_erase_ne _ _ h
  · rw [Table.get_insert_ne _ _ _ h, Table.get_erase_ne _ _ h]

theorem Table.get_set (d : Nat → α) (t : Table α) (a b : Nat) (v : α) :
    Table.get d (Table.set d t a v) b = if b = a then v else Table.get d t b := by
  split
  · rename_i h; rw [h, Table.get_set_self]
  · rename_i h; exact Table.get_set_ne _ _ _ h

/-! ### The canonical form -/

/-- The canonical form as a pairwise order of the keys and a property of each entry. -/
theorem Table.wf_iff (d : Nat → α) (t : Table α) :
    Table.wf d t = true ↔ t.Pairwise (fun x y => x.1 < y.1) ∧ ∀ e ∈ t, e.2 ≠ d e.1 := by
  induction t with
  | nil => simp [Table.wf]
  | cons x t ih =>
    cases t with
    | nil => simp [Table.wf]
    | cons y t =>
      simp only [Table.wf, Bool.and_eq_true, decide_eq_true_eq, ih]
      constructor
      · rintro ⟨⟨hxy, hx⟩, hp, hd⟩
        refine ⟨List.pairwise_cons.2 ⟨fun z hz => ?_, hp⟩, fun e he => ?_⟩
        · rcases List.mem_cons.1 hz with rfl | hz
          · exact hxy
          · exact lt_trans hxy ((List.pairwise_cons.1 hp).1 z hz)
        · rcases List.mem_cons.1 he with rfl | he
          · exact hx
          · exact hd e he
      · rintro ⟨hp, hd⟩
        have hp' := List.pairwise_cons.1 hp
        exact ⟨⟨hp'.1 y List.mem_cons_self, hd x List.mem_cons_self⟩, hp'.2, fun e he => hd e (List.mem_cons_of_mem _ he)⟩

theorem Table.wf_nil (d : Nat → α) : Table.wf d [] = true := rfl

/-- A part of a canonical table, in its order, is canonical. -/
theorem Table.wf_sublist (d : Nat → α) {t u : Table α} (h : List.Sublist u t) (w : Table.wf d t = true) : Table.wf d u = true := by
  rw [Table.wf_iff] at w ⊢
  exact ⟨w.1.sublist h, fun e he => w.2 e (h.subset he)⟩

theorem Table.wf_filter (d : Nat → α) (t : Table α) (p : Nat × α → Bool) (w : Table.wf d t = true) :
    Table.wf d (t.filter p) = true := Table.wf_sublist d List.filter_sublist w

/-- A write keeps the canonical form. -/
theorem Table.wf_set (d : Nat → α) (t : Table α) (a : Nat) (v : α) (w : Table.wf d t = true) :
    Table.wf d (Table.set d t a v) = true := by
  unfold Table.set
  have we := Table.wf_sublist d (Table.erase_sublist t a) w
  split
  · exact we
  · rename_i hv
    rw [Table.wf_iff] at we ⊢
    refine ⟨Table.pairwise_insert _ _ _ we.1 (Table.ne_of_mem_erase t a), fun e he => ?_⟩
    rcases (Table.mem_insert _ _ _ _).1 he with rfl | he
    · exact hv
    · exact we.2 e he

end Sys2Proof.Machine
end

