-- ==== Sys2Proof/Laws/Memory.lean ====
section
/-!
SUPPORT. The byte memories: a read after a write, what a write leaves alone, and that every operation keeps the canonical form.
-/

namespace Sys2Proof.Machine

@[simp] theorem Memory.byte_setByte_self (m : List Host.Cell) (a : Nat) (v : Byte) : Memory.byte (Memory.setByte m a v) a = v :=
  Table.get_set_self _ _ _ _

@[simp] theorem Memory.byte_setByte_ne (m : List Host.Cell) {a b : Nat} (v : Byte) (h : b ≠ a) :
    Memory.byte (Memory.setByte m a v) b = Memory.byte m b := Table.get_set_ne _ _ _ h

theorem Memory.wf_setByte (m : List Host.Cell) (a : Nat) (v : Byte) (w : Memory.wf m = true) : Memory.wf (Memory.setByte m a v) = true :=
  Table.wf_set _ _ _ _ w

/-- A write leaves every byte outside it as it was. -/
theorem Memory.byte_write_outside (n : Nat) : ∀ (m : List Host.Cell) (a v b : Nat), b < a ∨ a + n ≤ b →
    Memory.byte (Memory.write m a v n) b = Memory.byte m b := by
  induction n with
  | zero => intros; rfl
  | succ n ih =>
    intro m a v b h
    rw [Memory.write, ih _ _ _ _ (by omega), Memory.byte_setByte_ne _ _ (by omega)]

/-- The bytes that a write puts: byte `i` of its value, little-endian. -/
theorem Memory.byte_write_inside (n : Nat) : ∀ (m : List Host.Cell) (a v i : Nat), i < n →
    Memory.byte (Memory.write m a v n) (a + i) = BitVec.ofNat 8 (v / 256 ^ i) := by
  induction n with
  | zero => intro m a v i h; omega
  | succ n ih =>
    intro m a v i h
    rw [Memory.write]
    cases i with
    | zero => rw [Memory.byte_write_outside _ _ _ _ _ (by omega)]; simp
    | succ i =>
      rw [show a + (i + 1) = a + 1 + i by omega, ih _ _ _ _ (by omega), Nat.div_div_eq_div_mul, Nat.pow_succ']

/-- A read of the bytes just written gives the value written. -/
theorem Memory.read_write_self (n : Nat) : ∀ (m : List Host.Cell) (a v : Nat),
    Memory.read (Memory.write m a v n) a n = v % 256 ^ n := by
  induction n with
  | zero => intro m a v; simp [Memory.read, Nat.mod_one]
  | succ n ih =>
    intro m a v
    have e : v % 256 ^ (n + 1) = v % 256 + 256 * (v / 256 % 256 ^ n) := by rw [Nat.pow_succ', Nat.mod_mul]
    rw [Memory.write, Memory.read, ih, Memory.byte_write_outside _ _ _ _ _ (by omega), Memory.byte_setByte_self, BitVec.toNat_ofNat, e]

/-- A read outside a write gives what it gave before. -/
theorem Memory.read_congr (n : Nat) : ∀ (m m' : List Host.Cell) (a : Nat), (∀ i, i < n → Memory.byte m' (a + i) = Memory.byte m (a + i)) →
    Memory.read m' a n = Memory.read m a n := by
  induction n with
  | zero => intros; rfl
  | succ n ih =>
    intro m m' a h
    rw [Memory.read, Memory.read, ih m m' (a + 1) (fun i hi => by rw [show a + 1 + i = a + (i + 1) by omega]; exact h _ (by omega))]
    have := h 0 (by omega)
    simp only [Nat.add_zero] at this
    rw [this]

theorem Memory.read_write_outside (m : List Host.Cell) (a v n b k : Nat) (h : b + k ≤ a ∨ a + n ≤ b) :
    Memory.read (Memory.write m a v n) b k = Memory.read m b k :=
  Memory.read_congr _ _ _ _ (fun i hi => Memory.byte_write_outside _ _ _ _ _ (by omega))

theorem Memory.read_lt (n : Nat) : ∀ (m : List Host.Cell) (a : Nat), Memory.read m a n < 256 ^ n := by
  induction n with
  | zero => intros; simp [Memory.read]
  | succ n ih =>
    intro m a
    have h1 := (Memory.byte m a).isLt
    have h2 := ih m (a + 1)
    rw [Memory.read, Nat.pow_succ']
    omega

/-- A write keeps the canonical form. -/
theorem Memory.wf_write (n : Nat) : ∀ (m : List Host.Cell) (a v : Nat), Memory.wf m = true → Memory.wf (Memory.write m a v n) = true := by
  induction n with
  | zero => intro m a v h; exact h
  | succ n ih => intro m a v h; exact ih _ _ _ (Memory.wf_setByte _ _ _ h)

theorem Memory.wf_filter (m : List Host.Cell) (p : Host.Cell → Bool) (h : Memory.wf m = true) : Memory.wf (m.filter p) = true :=
  Table.wf_filter _ _ _ h

/-! ### The reservoir -/

theorem State.resRead_resWrite_self (s : State) (a v n : Nat) : (s.resWrite a v n).resRead a n = v % 256 ^ n := Memory.read_write_self _ _ _ _

theorem State.resRead_resWrite_outside (s : State) (a v n b k : Nat) (h : b + k ≤ a ∨ a + n ≤ b) :
    (s.resWrite a v n).resRead b k = s.resRead b k := Memory.read_write_outside _ _ _ _ _ _ h

theorem State.resRead_resWriteWords_self (s : State) (a v k : Nat) :
    (s.resWriteWords a v k).resRead a (8 * k) = v % 256 ^ (8 * k) := Memory.read_write_self _ _ _ _

end Sys2Proof.Machine
end

