-- ==== Sys2Proof/Laws/State.lean ====
section
/-!
SUPPORT. What each named update of the state does to each field: one lemma per field per update, true by rfl.
-/

namespace Sys2Proof.Machine

/-! ### setReg -/

section
variable (s : State) (a : Nat) (v : Word)

@[simp] theorem State.setReg_mt : (s.setReg a v).mt = s.mt := rfl
@[simp] theorem State.setReg_regs : (s.setReg a v).regs = s.regs.set resetWord a v := rfl
@[simp] theorem State.setReg_reservoir : (s.setReg a v).reservoir = s.reservoir := rfl
@[simp] theorem State.setReg_poison : (s.setReg a v).poison = s.poison := rfl
@[simp] theorem State.setReg_localRam : (s.setReg a v).localRam = s.localRam := rfl
@[simp] theorem State.setReg_ustore : (s.setReg a v).ustore = s.ustore := rfl
@[simp] theorem State.setReg_chans : (s.setReg a v).chans = s.chans := rfl
@[simp] theorem State.setReg_trips : (s.setReg a v).trips = s.trips := rfl
@[simp] theorem State.setReg_mittens : (s.setReg a v).mittens = s.mittens := rfl
@[simp] theorem State.setReg_pins : (s.setReg a v).pins = s.pins := rfl
@[simp] theorem State.setReg_shafts : (s.setReg a v).shafts = s.shafts := rfl
@[simp] theorem State.setReg_weirs : (s.setReg a v).weirs = s.weirs := rfl
@[simp] theorem State.setReg_engines : (s.setReg a v).engines = s.engines := rfl
@[simp] theorem State.setReg_threads : (s.setReg a v).threads = s.threads := rfl
@[simp] theorem State.setReg_rings : (s.setReg a v).rings = s.rings := rfl
@[simp] theorem State.setReg_ifaces : (s.setReg a v).ifaces = s.ifaces := rfl
@[simp] theorem State.setReg_probes : (s.setReg a v).probes = s.probes := rfl
@[simp] theorem State.setReg_pcmps : (s.setReg a v).pcmps = s.pcmps := rfl
@[simp] theorem State.setReg_culverts : (s.setReg a v).culverts = s.culverts := rfl
@[simp] theorem State.setReg_ports : (s.setReg a v).ports = s.ports := rfl
@[simp] theorem State.setReg_exports : (s.setReg a v).exports = s.exports := rfl
@[simp] theorem State.setReg_adc : (s.setReg a v).adc = s.adc := rfl
@[simp] theorem State.setReg_cal : (s.setReg a v).cal = s.cal := rfl
@[simp] theorem State.setReg_swap : (s.setReg a v).swap = s.swap := rfl
@[simp] theorem State.setReg_nvm : (s.setReg a v).nvm = s.nvm := rfl
@[simp] theorem State.setReg_hg : (s.setReg a v).hg = s.hg := rfl
@[simp] theorem State.setReg_ts : (s.setReg a v).ts = s.ts := rfl
@[simp] theorem State.setReg_power : (s.setReg a v).power = s.power := rfl
@[simp] theorem State.setReg_island : (s.setReg a v).island = s.island := rfl
@[simp] theorem State.setReg_irqEvents : (s.setReg a v).irqEvents = s.irqEvents := rfl
@[simp] theorem State.setReg_start : (s.setReg a v).start = s.start := rfl
@[simp] theorem State.setReg_raised : (s.setReg a v).raised = s.raised := rfl
@[simp] theorem State.setReg_touched : (s.setReg a v).touched = s.touched := rfl
@[simp] theorem State.setReg_written : (s.setReg a v).written = s.written := rfl
@[simp] theorem State.setReg_rwNow : (s.setReg a v).rwNow = s.rwNow := rfl
@[simp] theorem State.setReg_rwNext : (s.setReg a v).rwNext = s.rwNext := rfl
@[simp] theorem State.setReg_wroteTick : (s.setReg a v).wroteTick = s.wroteTick := rfl
@[simp] theorem State.setReg_wrote : (s.setReg a v).wrote = s.wrote := rfl
@[simp] theorem State.setReg_was : (s.setReg a v).was = s.was := rfl
@[simp] theorem State.setReg_later : (s.setReg a v).later = s.later := rfl
@[simp] theorem State.setReg_takes : (s.setReg a v).takes = s.takes := rfl
@[simp] theorem State.setReg_hostData : (s.setReg a v).hostData = s.hostData := rfl
@[simp] theorem State.setReg_sent : (s.setReg a v).sent = s.sent := rfl
@[simp] theorem State.setReg_free : (s.setReg a v).free = s.free := rfl
@[simp] theorem State.setReg_pending : (s.setReg a v).pending = s.pending := rfl

end

/-! ### setFld -/

section
variable (s : State) (a hi lo v : Nat)

@[simp] theorem State.setFld_mt : (s.setFld a hi lo v).mt = s.mt := rfl
@[simp] theorem State.setFld_regs : (s.setFld a hi lo v).regs = s.regs.set resetWord a (setBits (s.reg a) hi lo v) := rfl
@[simp] theorem State.setFld_reservoir : (s.setFld a hi lo v).reservoir = s.reservoir := rfl
@[simp] theorem State.setFld_poison : (s.setFld a hi lo v).poison = s.poison := rfl
@[simp] theorem State.setFld_localRam : (s.setFld a hi lo v).localRam = s.localRam := rfl
@[simp] theorem State.setFld_ustore : (s.setFld a hi lo v).ustore = s.ustore := rfl
@[simp] theorem State.setFld_chans : (s.setFld a hi lo v).chans = s.chans := rfl
@[simp] theorem State.setFld_trips : (s.setFld a hi lo v).trips = s.trips := rfl
@[simp] theorem State.setFld_mittens : (s.setFld a hi lo v).mittens = s.mittens := rfl
@[simp] theorem State.setFld_pins : (s.setFld a hi lo v).pins = s.pins := rfl
@[simp] theorem State.setFld_shafts : (s.setFld a hi lo v).shafts = s.shafts := rfl
@[simp] theorem State.setFld_weirs : (s.setFld a hi lo v).weirs = s.weirs := rfl
@[simp] theorem State.setFld_engines : (s.setFld a hi lo v).engines = s.engines := rfl
@[simp] theorem State.setFld_threads : (s.setFld a hi lo v).threads = s.threads := rfl
@[simp] theorem State.setFld_rings : (s.setFld a hi lo v).rings = s.rings := rfl
@[simp] theorem State.setFld_ifaces : (s.setFld a hi lo v).ifaces = s.ifaces := rfl
@[simp] theorem State.setFld_probes : (s.setFld a hi lo v).probes = s.probes := rfl
@[simp] theorem State.setFld_pcmps : (s.setFld a hi lo v).pcmps = s.pcmps := rfl
@[simp] theorem State.setFld_culverts : (s.setFld a hi lo v).culverts = s.culverts := rfl
@[simp] theorem State.setFld_ports : (s.setFld a hi lo v).ports = s.ports := rfl
@[simp] theorem State.setFld_exports : (s.setFld a hi lo v).exports = s.exports := rfl
@[simp] theorem State.setFld_adc : (s.setFld a hi lo v).adc = s.adc := rfl
@[simp] theorem State.setFld_cal : (s.setFld a hi lo v).cal = s.cal := rfl
@[simp] theorem State.setFld_swap : (s.setFld a hi lo v).swap = s.swap := rfl
@[simp] theorem State.setFld_nvm : (s.setFld a hi lo v).nvm = s.nvm := rfl
@[simp] theorem State.setFld_hg : (s.setFld a hi lo v).hg = s.hg := rfl
@[simp] theorem State.setFld_ts : (s.setFld a hi lo v).ts = s.ts := rfl
@[simp] theorem State.setFld_power : (s.setFld a hi lo v).power = s.power := rfl
@[simp] theorem State.setFld_island : (s.setFld a hi lo v).island = s.island := rfl
@[simp] theorem State.setFld_irqEvents : (s.setFld a hi lo v).irqEvents = s.irqEvents := rfl
@[simp] theorem State.setFld_start : (s.setFld a hi lo v).start = s.start := rfl
@[simp] theorem State.setFld_raised : (s.setFld a hi lo v).raised = s.raised := rfl
@[simp] theorem State.setFld_touched : (s.setFld a hi lo v).touched = s.touched := rfl
@[simp] theorem State.setFld_written : (s.setFld a hi lo v).written = s.written := rfl
@[simp] theorem State.setFld_rwNow : (s.setFld a hi lo v).rwNow = s.rwNow := rfl
@[simp] theorem State.setFld_rwNext : (s.setFld a hi lo v).rwNext = s.rwNext := rfl
@[simp] theorem State.setFld_wroteTick : (s.setFld a hi lo v).wroteTick = s.wroteTick := rfl
@[simp] theorem State.setFld_wrote : (s.setFld a hi lo v).wrote = s.wrote := rfl
@[simp] theorem State.setFld_was : (s.setFld a hi lo v).was = s.was := rfl
@[simp] theorem State.setFld_later : (s.setFld a hi lo v).later = s.later := rfl
@[simp] theorem State.setFld_takes : (s.setFld a hi lo v).takes = s.takes := rfl
@[simp] theorem State.setFld_hostData : (s.setFld a hi lo v).hostData = s.hostData := rfl
@[simp] theorem State.setFld_sent : (s.setFld a hi lo v).sent = s.sent := rfl
@[simp] theorem State.setFld_free : (s.setFld a hi lo v).free = s.free := rfl
@[simp] theorem State.setFld_pending : (s.setFld a hi lo v).pending = s.pending := rfl

end

/-! ### setBit -/

section
variable (s : State) (a i : Nat) (b : Bool)

@[simp] theorem State.setBit_mt : (s.setBit a i b).mt = s.mt := rfl
@[simp] theorem State.setBit_regs : (s.setBit a i b).regs = s.regs.set resetWord a (putBit (s.reg a) i b) := rfl
@[simp] theorem State.setBit_reservoir : (s.setBit a i b).reservoir = s.reservoir := rfl
@[simp] theorem State.setBit_poison : (s.setBit a i b).poison = s.poison := rfl
@[simp] theorem State.setBit_localRam : (s.setBit a i b).localRam = s.localRam := rfl
@[simp] theorem State.setBit_ustore : (s.setBit a i b).ustore = s.ustore := rfl
@[simp] theorem State.setBit_chans : (s.setBit a i b).chans = s.chans := rfl
@[simp] theorem State.setBit_trips : (s.setBit a i b).trips = s.trips := rfl
@[simp] theorem State.setBit_mittens : (s.setBit a i b).mittens = s.mittens := rfl
@[simp] theorem State.setBit_pins : (s.setBit a i b).pins = s.pins := rfl
@[simp] theorem State.setBit_shafts : (s.setBit a i b).shafts = s.shafts := rfl
@[simp] theorem State.setBit_weirs : (s.setBit a i b).weirs = s.weirs := rfl
@[simp] theorem State.setBit_engines : (s.setBit a i b).engines = s.engines := rfl
@[simp] theorem State.setBit_threads : (s.setBit a i b).threads = s.threads := rfl
@[simp] theorem State.setBit_rings : (s.setBit a i b).rings = s.rings := rfl
@[simp] theorem State.setBit_ifaces : (s.setBit a i b).ifaces = s.ifaces := rfl
@[simp] theorem State.setBit_probes : (s.setBit a i b).probes = s.probes := rfl
@[simp] theorem State.setBit_pcmps : (s.setBit a i b).pcmps = s.pcmps := rfl
@[simp] theorem State.setBit_culverts : (s.setBit a i b).culverts = s.culverts := rfl
@[simp] theorem State.setBit_ports : (s.setBit a i b).ports = s.ports := rfl
@[simp] theorem State.setBit_exports : (s.setBit a i b).exports = s.exports := rfl
@[simp] theorem State.setBit_adc : (s.setBit a i b).adc = s.adc := rfl
@[simp] theorem State.setBit_cal : (s.setBit a i b).cal = s.cal := rfl
@[simp] theorem State.setBit_swap : (s.setBit a i b).swap = s.swap := rfl
@[simp] theorem State.setBit_nvm : (s.setBit a i b).nvm = s.nvm := rfl
@[simp] theorem State.setBit_hg : (s.setBit a i b).hg = s.hg := rfl
@[simp] theorem State.setBit_ts : (s.setBit a i b).ts = s.ts := rfl
@[simp] theorem State.setBit_power : (s.setBit a i b).power = s.power := rfl
@[simp] theorem State.setBit_island : (s.setBit a i b).island = s.island := rfl
@[simp] theorem State.setBit_irqEvents : (s.setBit a i b).irqEvents = s.irqEvents := rfl
@[simp] theorem State.setBit_start : (s.setBit a i b).start = s.start := rfl
@[simp] theorem State.setBit_raised : (s.setBit a i b).raised = s.raised := rfl
@[simp] theorem State.setBit_touched : (s.setBit a i b).touched = s.touched := rfl
@[simp] theorem State.setBit_written : (s.setBit a i b).written = s.written := rfl
@[simp] theorem State.setBit_rwNow : (s.setBit a i b).rwNow = s.rwNow := rfl
@[simp] theorem State.setBit_rwNext : (s.setBit a i b).rwNext = s.rwNext := rfl
@[simp] theorem State.setBit_wroteTick : (s.setBit a i b).wroteTick = s.wroteTick := rfl
@[simp] theorem State.setBit_wrote : (s.setBit a i b).wrote = s.wrote := rfl
@[simp] theorem State.setBit_was : (s.setBit a i b).was = s.was := rfl
@[simp] theorem State.setBit_later : (s.setBit a i b).later = s.later := rfl
@[simp] theorem State.setBit_takes : (s.setBit a i b).takes = s.takes := rfl
@[simp] theorem State.setBit_hostData : (s.setBit a i b).hostData = s.hostData := rfl
@[simp] theorem State.setBit_sent : (s.setBit a i b).sent = s.sent := rfl
@[simp] theorem State.setBit_free : (s.setBit a i b).free = s.free := rfl
@[simp] theorem State.setBit_pending : (s.setBit a i b).pending = s.pending := rfl

end

/-! ### satCount -/

section
variable (s : State) (a : Nat)

@[simp] theorem State.satCount_mt : (s.satCount a).mt = s.mt := rfl
@[simp] theorem State.satCount_regs : (s.satCount a).regs = s.regs.set resetWord a (satInc (s.reg a)) := rfl
@[simp] theorem State.satCount_reservoir : (s.satCount a).reservoir = s.reservoir := rfl
@[simp] theorem State.satCount_poison : (s.satCount a).poison = s.poison := rfl
@[simp] theorem State.satCount_localRam : (s.satCount a).localRam = s.localRam := rfl
@[simp] theorem State.satCount_ustore : (s.satCount a).ustore = s.ustore := rfl
@[simp] theorem State.satCount_chans : (s.satCount a).chans = s.chans := rfl
@[simp] theorem State.satCount_trips : (s.satCount a).trips = s.trips := rfl
@[simp] theorem State.satCount_mittens : (s.satCount a).mittens = s.mittens := rfl
@[simp] theorem State.satCount_pins : (s.satCount a).pins = s.pins := rfl
@[simp] theorem State.satCount_shafts : (s.satCount a).shafts = s.shafts := rfl
@[simp] theorem State.satCount_weirs : (s.satCount a).weirs = s.weirs := rfl
@[simp] theorem State.satCount_engines : (s.satCount a).engines = s.engines := rfl
@[simp] theorem State.satCount_threads : (s.satCount a).threads = s.threads := rfl
@[simp] theorem State.satCount_rings : (s.satCount a).rings = s.rings := rfl
@[simp] theorem State.satCount_ifaces : (s.satCount a).ifaces = s.ifaces := rfl
@[simp] theorem State.satCount_probes : (s.satCount a).probes = s.probes := rfl
@[simp] theorem State.satCount_pcmps : (s.satCount a).pcmps = s.pcmps := rfl
@[simp] theorem State.satCount_culverts : (s.satCount a).culverts = s.culverts := rfl
@[simp] theorem State.satCount_ports : (s.satCount a).ports = s.ports := rfl
@[simp] theorem State.satCount_exports : (s.satCount a).exports = s.exports := rfl
@[simp] theorem State.satCount_adc : (s.satCount a).adc = s.adc := rfl
@[simp] theorem State.satCount_cal : (s.satCount a).cal = s.cal := rfl
@[simp] theorem State.satCount_swap : (s.satCount a).swap = s.swap := rfl
@[simp] theorem State.satCount_nvm : (s.satCount a).nvm = s.nvm := rfl
@[simp] theorem State.satCount_hg : (s.satCount a).hg = s.hg := rfl
@[simp] theorem State.satCount_ts : (s.satCount a).ts = s.ts := rfl
@[simp] theorem State.satCount_power : (s.satCount a).power = s.power := rfl
@[simp] theorem State.satCount_island : (s.satCount a).island = s.island := rfl
@[simp] theorem State.satCount_irqEvents : (s.satCount a).irqEvents = s.irqEvents := rfl
@[simp] theorem State.satCount_start : (s.satCount a).start = s.start := rfl
@[simp] theorem State.satCount_touched : (s.satCount a).touched = s.touched := rfl
@[simp] theorem State.satCount_written : (s.satCount a).written = s.written := rfl
@[simp] theorem State.satCount_rwNow : (s.satCount a).rwNow = s.rwNow := rfl
@[simp] theorem State.satCount_rwNext : (s.satCount a).rwNext = s.rwNext := rfl
@[simp] theorem State.satCount_wroteTick : (s.satCount a).wroteTick = s.wroteTick := rfl
@[simp] theorem State.satCount_wrote : (s.satCount a).wrote = s.wrote := rfl
@[simp] theorem State.satCount_was : (s.satCount a).was = s.was := rfl
@[simp] theorem State.satCount_later : (s.satCount a).later = s.later := rfl
@[simp] theorem State.satCount_takes : (s.satCount a).takes = s.takes := rfl
@[simp] theorem State.satCount_hostData : (s.satCount a).hostData = s.hostData := rfl
@[simp] theorem State.satCount_sent : (s.satCount a).sent = s.sent := rfl
@[simp] theorem State.satCount_free : (s.satCount a).free = s.free := rfl
@[simp] theorem State.satCount_pending : (s.satCount a).pending = s.pending := rfl

end

/-- Whatever one count leaves as it was, a number of counts leaves as it was. -/
theorem State.satAdd_same {α : Type} (s : State) (a n : Nat) (f : State → α) (hf : ∀ s : State, f (s.satCount a) = f s) :
    f (s.satAdd a n) = f s := by
  unfold State.satAdd
  induction List.range n generalizing s with
  | nil => rfl
  | cons x l ih => exact (ih _).trans (hf s)

/-! ### satAdd -/

section
variable (s : State) (a n : Nat)

@[simp] theorem State.satAdd_mt : (s.satAdd a n).mt = s.mt := s.satAdd_same a n (·.mt) (fun _ => rfl)
@[simp] theorem State.satAdd_reservoir : (s.satAdd a n).reservoir = s.reservoir := s.satAdd_same a n (·.reservoir) (fun _ => rfl)
@[simp] theorem State.satAdd_poison : (s.satAdd a n).poison = s.poison := s.satAdd_same a n (·.poison) (fun _ => rfl)
@[simp] theorem State.satAdd_localRam : (s.satAdd a n).localRam = s.localRam := s.satAdd_same a n (·.localRam) (fun _ => rfl)
@[simp] theorem State.satAdd_ustore : (s.satAdd a n).ustore = s.ustore := s.satAdd_same a n (·.ustore) (fun _ => rfl)
@[simp] theorem State.satAdd_chans : (s.satAdd a n).chans = s.chans := s.satAdd_same a n (·.chans) (fun _ => rfl)
@[simp] theorem State.satAdd_trips : (s.satAdd a n).trips = s.trips := s.satAdd_same a n (·.trips) (fun _ => rfl)
@[simp] theorem State.satAdd_mittens : (s.satAdd a n).mittens = s.mittens := s.satAdd_same a n (·.mittens) (fun _ => rfl)
@[simp] theorem State.satAdd_pins : (s.satAdd a n).pins = s.pins := s.satAdd_same a n (·.pins) (fun _ => rfl)
@[simp] theorem State.satAdd_shafts : (s.satAdd a n).shafts = s.shafts := s.satAdd_same a n (·.shafts) (fun _ => rfl)
@[simp] theorem State.satAdd_weirs : (s.satAdd a n).weirs = s.weirs := s.satAdd_same a n (·.weirs) (fun _ => rfl)
@[simp] theorem State.satAdd_engines : (s.satAdd a n).engines = s.engines := s.satAdd_same a n (·.engines) (fun _ => rfl)
@[simp] theorem State.satAdd_threads : (s.satAdd a n).threads = s.threads := s.satAdd_same a n (·.threads) (fun _ => rfl)
@[simp] theorem State.satAdd_rings : (s.satAdd a n).rings = s.rings := s.satAdd_same a n (·.rings) (fun _ => rfl)
@[simp] theorem State.satAdd_ifaces : (s.satAdd a n).ifaces = s.ifaces := s.satAdd_same a n (·.ifaces) (fun _ => rfl)
@[simp] theorem State.satAdd_probes : (s.satAdd a n).probes = s.probes := s.satAdd_same a n (·.probes) (fun _ => rfl)
@[simp] theorem State.satAdd_pcmps : (s.satAdd a n).pcmps = s.pcmps := s.satAdd_same a n (·.pcmps) (fun _ => rfl)
@[simp] theorem State.satAdd_culverts : (s.satAdd a n).culverts = s.culverts := s.satAdd_same a n (·.culverts) (fun _ => rfl)
@[simp] theorem State.satAdd_ports : (s.satAdd a n).ports = s.ports := s.satAdd_same a n (·.ports) (fun _ => rfl)
@[simp] theorem State.satAdd_exports : (s.satAdd a n).exports = s.exports := s.satAdd_same a n (·.exports) (fun _ => rfl)
@[simp] theorem State.satAdd_adc : (s.satAdd a n).adc = s.adc := s.satAdd_same a n (·.adc) (fun _ => rfl)
@[simp] theorem State.satAdd_cal : (s.satAdd a n).cal = s.cal := s.satAdd_same a n (·.cal) (fun _ => rfl)
@[simp] theorem State.satAdd_swap : (s.satAdd a n).swap = s.swap := s.satAdd_same a n (·.swap) (fun _ => rfl)
@[simp] theorem State.satAdd_nvm : (s.satAdd a n).nvm = s.nvm := s.satAdd_same a n (·.nvm) (fun _ => rfl)
@[simp] theorem State.satAdd_hg : (s.satAdd a n).hg = s.hg := s.satAdd_same a n (·.hg) (fun _ => rfl)
@[simp] theorem State.satAdd_ts : (s.satAdd a n).ts = s.ts := s.satAdd_same a n (·.ts) (fun _ => rfl)
@[simp] theorem State.satAdd_power : (s.satAdd a n).power = s.power := s.satAdd_same a n (·.power) (fun _ => rfl)
@[simp] theorem State.satAdd_island : (s.satAdd a n).island = s.island := s.satAdd_same a n (·.island) (fun _ => rfl)
@[simp] theorem State.satAdd_irqEvents : (s.satAdd a n).irqEvents = s.irqEvents := s.satAdd_same a n (·.irqEvents) (fun _ => rfl)
@[simp] theorem State.satAdd_start : (s.satAdd a n).start = s.start := s.satAdd_same a n (·.start) (fun _ => rfl)
@[simp] theorem State.satAdd_touched : (s.satAdd a n).touched = s.touched := s.satAdd_same a n (·.touched) (fun _ => rfl)
@[simp] theorem State.satAdd_written : (s.satAdd a n).written = s.written := s.satAdd_same a n (·.written) (fun _ => rfl)
@[simp] theorem State.satAdd_rwNow : (s.satAdd a n).rwNow = s.rwNow := s.satAdd_same a n (·.rwNow) (fun _ => rfl)
@[simp] theorem State.satAdd_rwNext : (s.satAdd a n).rwNext = s.rwNext := s.satAdd_same a n (·.rwNext) (fun _ => rfl)
@[simp] theorem State.satAdd_wroteTick : (s.satAdd a n).wroteTick = s.wroteTick := s.satAdd_same a n (·.wroteTick) (fun _ => rfl)
@[simp] theorem State.satAdd_wrote : (s.satAdd a n).wrote = s.wrote := s.satAdd_same a n (·.wrote) (fun _ => rfl)
@[simp] theorem State.satAdd_was : (s.satAdd a n).was = s.was := s.satAdd_same a n (·.was) (fun _ => rfl)
@[simp] theorem State.satAdd_later : (s.satAdd a n).later = s.later := s.satAdd_same a n (·.later) (fun _ => rfl)
@[simp] theorem State.satAdd_takes : (s.satAdd a n).takes = s.takes := s.satAdd_same a n (·.takes) (fun _ => rfl)
@[simp] theorem State.satAdd_hostData : (s.satAdd a n).hostData = s.hostData := s.satAdd_same a n (·.hostData) (fun _ => rfl)
@[simp] theorem State.satAdd_sent : (s.satAdd a n).sent = s.sent := s.satAdd_same a n (·.sent) (fun _ => rfl)
@[simp] theorem State.satAdd_free : (s.satAdd a n).free = s.free := s.satAdd_same a n (·.free) (fun _ => rfl)
@[simp] theorem State.satAdd_pending : (s.satAdd a n).pending = s.pending := s.satAdd_same a n (·.pending) (fun _ => rfl)

end

/-! ### count -/

section
variable (s : State) (a : Nat)

@[simp] theorem State.count_mt : (s.count a).mt = s.mt := rfl
@[simp] theorem State.count_regs : (s.count a).regs = s.regs.set resetWord a (s.reg a + 1) := rfl
@[simp] theorem State.count_reservoir : (s.count a).reservoir = s.reservoir := rfl
@[simp] theorem State.count_poison : (s.count a).poison = s.poison := rfl
@[simp] theorem State.count_localRam : (s.count a).localRam = s.localRam := rfl
@[simp] theorem State.count_ustore : (s.count a).ustore = s.ustore := rfl
@[simp] theorem State.count_chans : (s.count a).chans = s.chans := rfl
@[simp] theorem State.count_trips : (s.count a).trips = s.trips := rfl
@[simp] theorem State.count_mittens : (s.count a).mittens = s.mittens := rfl
@[simp] theorem State.count_pins : (s.count a).pins = s.pins := rfl
@[simp] theorem State.count_shafts : (s.count a).shafts = s.shafts := rfl
@[simp] theorem State.count_weirs : (s.count a).weirs = s.weirs := rfl
@[simp] theorem State.count_engines : (s.count a).engines = s.engines := rfl
@[simp] theorem State.count_threads : (s.count a).threads = s.threads := rfl
@[simp] theorem State.count_rings : (s.count a).rings = s.rings := rfl
@[simp] theorem State.count_ifaces : (s.count a).ifaces = s.ifaces := rfl
@[simp] theorem State.count_probes : (s.count a).probes = s.probes := rfl
@[simp] theorem State.count_pcmps : (s.count a).pcmps = s.pcmps := rfl
@[simp] theorem State.count_culverts : (s.count a).culverts = s.culverts := rfl
@[simp] theorem State.count_ports : (s.count a).ports = s.ports := rfl
@[simp] theorem State.count_exports : (s.count a).exports = s.exports := rfl
@[simp] theorem State.count_adc : (s.count a).adc = s.adc := rfl
@[simp] theorem State.count_cal : (s.count a).cal = s.cal := rfl
@[simp] theorem State.count_swap : (s.count a).swap = s.swap := rfl
@[simp] theorem State.count_nvm : (s.count a).nvm = s.nvm := rfl
@[simp] theorem State.count_hg : (s.count a).hg = s.hg := rfl
@[simp] theorem State.count_ts : (s.count a).ts = s.ts := rfl
@[simp] theorem State.count_power : (s.count a).power = s.power := rfl
@[simp] theorem State.count_island : (s.count a).island = s.island := rfl
@[simp] theorem State.count_irqEvents : (s.count a).irqEvents = s.irqEvents := rfl
@[simp] theorem State.count_start : (s.count a).start = s.start := rfl
@[simp] theorem State.count_raised : (s.count a).raised = s.raised := rfl
@[simp] theorem State.count_touched : (s.count a).touched = s.touched := rfl
@[simp] theorem State.count_written : (s.count a).written = s.written := rfl
@[simp] theorem State.count_rwNow : (s.count a).rwNow = s.rwNow := rfl
@[simp] theorem State.count_rwNext : (s.count a).rwNext = s.rwNext := rfl
@[simp] theorem State.count_wroteTick : (s.count a).wroteTick = s.wroteTick := rfl
@[simp] theorem State.count_wrote : (s.count a).wrote = s.wrote := rfl
@[simp] theorem State.count_was : (s.count a).was = s.was := rfl
@[simp] theorem State.count_later : (s.count a).later = s.later := rfl
@[simp] theorem State.count_takes : (s.count a).takes = s.takes := rfl
@[simp] theorem State.count_hostData : (s.count a).hostData = s.hostData := rfl
@[simp] theorem State.count_sent : (s.count a).sent = s.sent := rfl
@[simp] theorem State.count_free : (s.count a).free = s.free := rfl
@[simp] theorem State.count_pending : (s.count a).pending = s.pending := rfl

end

/-! ### setPair -/

section
variable (s : State) (lo hi : Nat) (v : BitVec 64)

@[simp] theorem State.setPair_mt : (s.setPair lo hi v).mt = s.mt := rfl
@[simp] theorem State.setPair_regs : (s.setPair lo hi v).regs = (s.regs.set resetWord lo (loWord v)).set resetWord hi (hiWord v) := rfl
@[simp] theorem State.setPair_reservoir : (s.setPair lo hi v).reservoir = s.reservoir := rfl
@[simp] theorem State.setPair_poison : (s.setPair lo hi v).poison = s.poison := rfl
@[simp] theorem State.setPair_localRam : (s.setPair lo hi v).localRam = s.localRam := rfl
@[simp] theorem State.setPair_ustore : (s.setPair lo hi v).ustore = s.ustore := rfl
@[simp] theorem State.setPair_chans : (s.setPair lo hi v).chans = s.chans := rfl
@[simp] theorem State.setPair_trips : (s.setPair lo hi v).trips = s.trips := rfl
@[simp] theorem State.setPair_mittens : (s.setPair lo hi v).mittens = s.mittens := rfl
@[simp] theorem State.setPair_pins : (s.setPair lo hi v).pins = s.pins := rfl
@[simp] theorem State.setPair_shafts : (s.setPair lo hi v).shafts = s.shafts := rfl
@[simp] theorem State.setPair_weirs : (s.setPair lo hi v).weirs = s.weirs := rfl
@[simp] theorem State.setPair_engines : (s.setPair lo hi v).engines = s.engines := rfl
@[simp] theorem State.setPair_threads : (s.setPair lo hi v).threads = s.threads := rfl
@[simp] theorem State.setPair_rings : (s.setPair lo hi v).rings = s.rings := rfl
@[simp] theorem State.setPair_ifaces : (s.setPair lo hi v).ifaces = s.ifaces := rfl
@[simp] theorem State.setPair_probes : (s.setPair lo hi v).probes = s.probes := rfl
@[simp] theorem State.setPair_pcmps : (s.setPair lo hi v).pcmps = s.pcmps := rfl
@[simp] theorem State.setPair_culverts : (s.setPair lo hi v).culverts = s.culverts := rfl
@[simp] theorem State.setPair_ports : (s.setPair lo hi v).ports = s.ports := rfl
@[simp] theorem State.setPair_exports : (s.setPair lo hi v).exports = s.exports := rfl
@[simp] theorem State.setPair_adc : (s.setPair lo hi v).adc = s.adc := rfl
@[simp] theorem State.setPair_cal : (s.setPair lo hi v).cal = s.cal := rfl
@[simp] theorem State.setPair_swap : (s.setPair lo hi v).swap = s.swap := rfl
@[simp] theorem State.setPair_nvm : (s.setPair lo hi v).nvm = s.nvm := rfl
@[simp] theorem State.setPair_hg : (s.setPair lo hi v).hg = s.hg := rfl
@[simp] theorem State.setPair_ts : (s.setPair lo hi v).ts = s.ts := rfl
@[simp] theorem State.setPair_power : (s.setPair lo hi v).power = s.power := rfl
@[simp] theorem State.setPair_island : (s.setPair lo hi v).island = s.island := rfl
@[simp] theorem State.setPair_irqEvents : (s.setPair lo hi v).irqEvents = s.irqEvents := rfl
@[simp] theorem State.setPair_start : (s.setPair lo hi v).start = s.start := rfl
@[simp] theorem State.setPair_raised : (s.setPair lo hi v).raised = s.raised := rfl
@[simp] theorem State.setPair_touched : (s.setPair lo hi v).touched = s.touched := rfl
@[simp] theorem State.setPair_written : (s.setPair lo hi v).written = s.written := rfl
@[simp] theorem State.setPair_rwNow : (s.setPair lo hi v).rwNow = s.rwNow := rfl
@[simp] theorem State.setPair_rwNext : (s.setPair lo hi v).rwNext = s.rwNext := rfl
@[simp] theorem State.setPair_wroteTick : (s.setPair lo hi v).wroteTick = s.wroteTick := rfl
@[simp] theorem State.setPair_wrote : (s.setPair lo hi v).wrote = s.wrote := rfl
@[simp] theorem State.setPair_was : (s.setPair lo hi v).was = s.was := rfl
@[simp] theorem State.setPair_later : (s.setPair lo hi v).later = s.later := rfl
@[simp] theorem State.setPair_takes : (s.setPair lo hi v).takes = s.takes := rfl
@[simp] theorem State.setPair_hostData : (s.setPair lo hi v).hostData = s.hostData := rfl
@[simp] theorem State.setPair_sent : (s.setPair lo hi v).sent = s.sent := rfl
@[simp] theorem State.setPair_free : (s.setPair lo hi v).free = s.free := rfl
@[simp] theorem State.setPair_pending : (s.setPair lo hi v).pending = s.pending := rfl

end

/-! ### setChan -/

section
variable (s : State) (k : Nat) (c : Chan)

@[simp] theorem State.setChan_mt : (s.setChan k c).mt = s.mt := rfl
@[simp] theorem State.setChan_regs : (s.setChan k c).regs = s.regs := rfl
@[simp] theorem State.setChan_reservoir : (s.setChan k c).reservoir = s.reservoir := rfl
@[simp] theorem State.setChan_poison : (s.setChan k c).poison = s.poison := rfl
@[simp] theorem State.setChan_localRam : (s.setChan k c).localRam = s.localRam := rfl
@[simp] theorem State.setChan_ustore : (s.setChan k c).ustore = s.ustore := rfl
@[simp] theorem State.setChan_chans : (s.setChan k c).chans = s.chans.set (fun _ => Chan.init) k c := rfl
@[simp] theorem State.setChan_trips : (s.setChan k c).trips = s.trips := rfl
@[simp] theorem State.setChan_mittens : (s.setChan k c).mittens = s.mittens := rfl
@[simp] theorem State.setChan_pins : (s.setChan k c).pins = s.pins := rfl
@[simp] theorem State.setChan_shafts : (s.setChan k c).shafts = s.shafts := rfl
@[simp] theorem State.setChan_weirs : (s.setChan k c).weirs = s.weirs := rfl
@[simp] theorem State.setChan_engines : (s.setChan k c).engines = s.engines := rfl
@[simp] theorem State.setChan_threads : (s.setChan k c).threads = s.threads := rfl
@[simp] theorem State.setChan_rings : (s.setChan k c).rings = s.rings := rfl
@[simp] theorem State.setChan_ifaces : (s.setChan k c).ifaces = s.ifaces := rfl
@[simp] theorem State.setChan_probes : (s.setChan k c).probes = s.probes := rfl
@[simp] theorem State.setChan_pcmps : (s.setChan k c).pcmps = s.pcmps := rfl
@[simp] theorem State.setChan_culverts : (s.setChan k c).culverts = s.culverts := rfl
@[simp] theorem State.setChan_ports : (s.setChan k c).ports = s.ports := rfl
@[simp] theorem State.setChan_exports : (s.setChan k c).exports = s.exports := rfl
@[simp] theorem State.setChan_adc : (s.setChan k c).adc = s.adc := rfl
@[simp] theorem State.setChan_cal : (s.setChan k c).cal = s.cal := rfl
@[simp] theorem State.setChan_swap : (s.setChan k c).swap = s.swap := rfl
@[simp] theorem State.setChan_nvm : (s.setChan k c).nvm = s.nvm := rfl
@[simp] theorem State.setChan_hg : (s.setChan k c).hg = s.hg := rfl
@[simp] theorem State.setChan_ts : (s.setChan k c).ts = s.ts := rfl
@[simp] theorem State.setChan_power : (s.setChan k c).power = s.power := rfl
@[simp] theorem State.setChan_island : (s.setChan k c).island = s.island := rfl
@[simp] theorem State.setChan_irqEvents : (s.setChan k c).irqEvents = s.irqEvents := rfl
@[simp] theorem State.setChan_start : (s.setChan k c).start = s.start := rfl
@[simp] theorem State.setChan_raised : (s.setChan k c).raised = s.raised := rfl
@[simp] theorem State.setChan_touched : (s.setChan k c).touched = s.touched := rfl
@[simp] theorem State.setChan_written : (s.setChan k c).written = s.written := rfl
@[simp] theorem State.setChan_rwNow : (s.setChan k c).rwNow = s.rwNow := rfl
@[simp] theorem State.setChan_rwNext : (s.setChan k c).rwNext = s.rwNext := rfl
@[simp] theorem State.setChan_wroteTick : (s.setChan k c).wroteTick = s.wroteTick := rfl
@[simp] theorem State.setChan_wrote : (s.setChan k c).wrote = s.wrote := rfl
@[simp] theorem State.setChan_was : (s.setChan k c).was = s.was := rfl
@[simp] theorem State.setChan_later : (s.setChan k c).later = s.later := rfl
@[simp] theorem State.setChan_takes : (s.setChan k c).takes = s.takes := rfl
@[simp] theorem State.setChan_hostData : (s.setChan k c).hostData = s.hostData := rfl
@[simp] theorem State.setChan_sent : (s.setChan k c).sent = s.sent := rfl
@[simp] theorem State.setChan_free : (s.setChan k c).free = s.free := rfl
@[simp] theorem State.setChan_pending : (s.setChan k c).pending = s.pending := rfl

end

/-! ### setTrip -/

section
variable (s : State) (k : Nat) (c : Trip)

@[simp] theorem State.setTrip_mt : (s.setTrip k c).mt = s.mt := rfl
@[simp] theorem State.setTrip_regs : (s.setTrip k c).regs = s.regs := rfl
@[simp] theorem State.setTrip_reservoir : (s.setTrip k c).reservoir = s.reservoir := rfl
@[simp] theorem State.setTrip_poison : (s.setTrip k c).poison = s.poison := rfl
@[simp] theorem State.setTrip_localRam : (s.setTrip k c).localRam = s.localRam := rfl
@[simp] theorem State.setTrip_ustore : (s.setTrip k c).ustore = s.ustore := rfl
@[simp] theorem State.setTrip_chans : (s.setTrip k c).chans = s.chans := rfl
@[simp] theorem State.setTrip_trips : (s.setTrip k c).trips = s.trips.set (fun _ => Trip.init) k c := rfl
@[simp] theorem State.setTrip_mittens : (s.setTrip k c).mittens = s.mittens := rfl
@[simp] theorem State.setTrip_pins : (s.setTrip k c).pins = s.pins := rfl
@[simp] theorem State.setTrip_shafts : (s.setTrip k c).shafts = s.shafts := rfl
@[simp] theorem State.setTrip_weirs : (s.setTrip k c).weirs = s.weirs := rfl
@[simp] theorem State.setTrip_engines : (s.setTrip k c).engines = s.engines := rfl
@[simp] theorem State.setTrip_threads : (s.setTrip k c).threads = s.threads := rfl
@[simp] theorem State.setTrip_rings : (s.setTrip k c).rings = s.rings := rfl
@[simp] theorem State.setTrip_ifaces : (s.setTrip k c).ifaces = s.ifaces := rfl
@[simp] theorem State.setTrip_probes : (s.setTrip k c).probes = s.probes := rfl
@[simp] theorem State.setTrip_pcmps : (s.setTrip k c).pcmps = s.pcmps := rfl
@[simp] theorem State.setTrip_culverts : (s.setTrip k c).culverts = s.culverts := rfl
@[simp] theorem State.setTrip_ports : (s.setTrip k c).ports = s.ports := rfl
@[simp] theorem State.setTrip_exports : (s.setTrip k c).exports = s.exports := rfl
@[simp] theorem State.setTrip_adc : (s.setTrip k c).adc = s.adc := rfl
@[simp] theorem State.setTrip_cal : (s.setTrip k c).cal = s.cal := rfl
@[simp] theorem State.setTrip_swap : (s.setTrip k c).swap = s.swap := rfl
@[simp] theorem State.setTrip_nvm : (s.setTrip k c).nvm = s.nvm := rfl
@[simp] theorem State.setTrip_hg : (s.setTrip k c).hg = s.hg := rfl
@[simp] theorem State.setTrip_ts : (s.setTrip k c).ts = s.ts := rfl
@[simp] theorem State.setTrip_power : (s.setTrip k c).power = s.power := rfl
@[simp] theorem State.setTrip_island : (s.setTrip k c).island = s.island := rfl
@[simp] theorem State.setTrip_irqEvents : (s.setTrip k c).irqEvents = s.irqEvents := rfl
@[simp] theorem State.setTrip_start : (s.setTrip k c).start = s.start := rfl
@[simp] theorem State.setTrip_raised : (s.setTrip k c).raised = s.raised := rfl
@[simp] theorem State.setTrip_touched : (s.setTrip k c).touched = s.touched := rfl
@[simp] theorem State.setTrip_written : (s.setTrip k c).written = s.written := rfl
@[simp] theorem State.setTrip_rwNow : (s.setTrip k c).rwNow = s.rwNow := rfl
@[simp] theorem State.setTrip_rwNext : (s.setTrip k c).rwNext = s.rwNext := rfl
@[simp] theorem State.setTrip_wroteTick : (s.setTrip k c).wroteTick = s.wroteTick := rfl
@[simp] theorem State.setTrip_wrote : (s.setTrip k c).wrote = s.wrote := rfl
@[simp] theorem State.setTrip_was : (s.setTrip k c).was = s.was := rfl
@[simp] theorem State.setTrip_later : (s.setTrip k c).later = s.later := rfl
@[simp] theorem State.setTrip_takes : (s.setTrip k c).takes = s.takes := rfl
@[simp] theorem State.setTrip_hostData : (s.setTrip k c).hostData = s.hostData := rfl
@[simp] theorem State.setTrip_sent : (s.setTrip k c).sent = s.sent := rfl
@[simp] theorem State.setTrip_free : (s.setTrip k c).free = s.free := rfl
@[simp] theorem State.setTrip_pending : (s.setTrip k c).pending = s.pending := rfl

end

/-! ### setMitten -/

section
variable (s : State) (k : Nat) (c : Mitten)

@[simp] theorem State.setMitten_mt : (s.setMitten k c).mt = s.mt := rfl
@[simp] theorem State.setMitten_regs : (s.setMitten k c).regs = s.regs := rfl
@[simp] theorem State.setMitten_reservoir : (s.setMitten k c).reservoir = s.reservoir := rfl
@[simp] theorem State.setMitten_poison : (s.setMitten k c).poison = s.poison := rfl
@[simp] theorem State.setMitten_localRam : (s.setMitten k c).localRam = s.localRam := rfl
@[simp] theorem State.setMitten_ustore : (s.setMitten k c).ustore = s.ustore := rfl
@[simp] theorem State.setMitten_chans : (s.setMitten k c).chans = s.chans := rfl
@[simp] theorem State.setMitten_trips : (s.setMitten k c).trips = s.trips := rfl
@[simp] theorem State.setMitten_mittens : (s.setMitten k c).mittens = s.mittens.set (fun _ => Mitten.init) k c := rfl
@[simp] theorem State.setMitten_pins : (s.setMitten k c).pins = s.pins := rfl
@[simp] theorem State.setMitten_shafts : (s.setMitten k c).shafts = s.shafts := rfl
@[simp] theorem State.setMitten_weirs : (s.setMitten k c).weirs = s.weirs := rfl
@[simp] theorem State.setMitten_engines : (s.setMitten k c).engines = s.engines := rfl
@[simp] theorem State.setMitten_threads : (s.setMitten k c).threads = s.threads := rfl
@[simp] theorem State.setMitten_rings : (s.setMitten k c).rings = s.rings := rfl
@[simp] theorem State.setMitten_ifaces : (s.setMitten k c).ifaces = s.ifaces := rfl
@[simp] theorem State.setMitten_probes : (s.setMitten k c).probes = s.probes := rfl
@[simp] theorem State.setMitten_pcmps : (s.setMitten k c).pcmps = s.pcmps := rfl
@[simp] theorem State.setMitten_culverts : (s.setMitten k c).culverts = s.culverts := rfl
@[simp] theorem State.setMitten_ports : (s.setMitten k c).ports = s.ports := rfl
@[simp] theorem State.setMitten_exports : (s.setMitten k c).exports = s.exports := rfl
@[simp] theorem State.setMitten_adc : (s.setMitten k c).adc = s.adc := rfl
@[simp] theorem State.setMitten_cal : (s.setMitten k c).cal = s.cal := rfl
@[simp] theorem State.setMitten_swap : (s.setMitten k c).swap = s.swap := rfl
@[simp] theorem State.setMitten_nvm : (s.setMitten k c).nvm = s.nvm := rfl
@[simp] theorem State.setMitten_hg : (s.setMitten k c).hg = s.hg := rfl
@[simp] theorem State.setMitten_ts : (s.setMitten k c).ts = s.ts := rfl
@[simp] theorem State.setMitten_power : (s.setMitten k c).power = s.power := rfl
@[simp] theorem State.setMitten_island : (s.setMitten k c).island = s.island := rfl
@[simp] theorem State.setMitten_irqEvents : (s.setMitten k c).irqEvents = s.irqEvents := rfl
@[simp] theorem State.setMitten_start : (s.setMitten k c).start = s.start := rfl
@[simp] theorem State.setMitten_raised : (s.setMitten k c).raised = s.raised := rfl
@[simp] theorem State.setMitten_touched : (s.setMitten k c).touched = s.touched := rfl
@[simp] theorem State.setMitten_written : (s.setMitten k c).written = s.written := rfl
@[simp] theorem State.setMitten_rwNow : (s.setMitten k c).rwNow = s.rwNow := rfl
@[simp] theorem State.setMitten_rwNext : (s.setMitten k c).rwNext = s.rwNext := rfl
@[simp] theorem State.setMitten_wroteTick : (s.setMitten k c).wroteTick = s.wroteTick := rfl
@[simp] theorem State.setMitten_wrote : (s.setMitten k c).wrote = s.wrote := rfl
@[simp] theorem State.setMitten_was : (s.setMitten k c).was = s.was := rfl
@[simp] theorem State.setMitten_later : (s.setMitten k c).later = s.later := rfl
@[simp] theorem State.setMitten_takes : (s.setMitten k c).takes = s.takes := rfl
@[simp] theorem State.setMitten_hostData : (s.setMitten k c).hostData = s.hostData := rfl
@[simp] theorem State.setMitten_sent : (s.setMitten k c).sent = s.sent := rfl
@[simp] theorem State.setMitten_free : (s.setMitten k c).free = s.free := rfl
@[simp] theorem State.setMitten_pending : (s.setMitten k c).pending = s.pending := rfl

end

/-! ### setPin -/

section
variable (s : State) (k : Nat) (c : PinState)

@[simp] theorem State.setPin_mt : (s.setPin k c).mt = s.mt := rfl
@[simp] theorem State.setPin_regs : (s.setPin k c).regs = s.regs := rfl
@[simp] theorem State.setPin_reservoir : (s.setPin k c).reservoir = s.reservoir := rfl
@[simp] theorem State.setPin_poison : (s.setPin k c).poison = s.poison := rfl
@[simp] theorem State.setPin_localRam : (s.setPin k c).localRam = s.localRam := rfl
@[simp] theorem State.setPin_ustore : (s.setPin k c).ustore = s.ustore := rfl
@[simp] theorem State.setPin_chans : (s.setPin k c).chans = s.chans := rfl
@[simp] theorem State.setPin_trips : (s.setPin k c).trips = s.trips := rfl
@[simp] theorem State.setPin_mittens : (s.setPin k c).mittens = s.mittens := rfl
@[simp] theorem State.setPin_pins : (s.setPin k c).pins = s.pins.set (fun _ => PinState.init) k c := rfl
@[simp] theorem State.setPin_shafts : (s.setPin k c).shafts = s.shafts := rfl
@[simp] theorem State.setPin_weirs : (s.setPin k c).weirs = s.weirs := rfl
@[simp] theorem State.setPin_engines : (s.setPin k c).engines = s.engines := rfl
@[simp] theorem State.setPin_threads : (s.setPin k c).threads = s.threads := rfl
@[simp] theorem State.setPin_rings : (s.setPin k c).rings = s.rings := rfl
@[simp] theorem State.setPin_ifaces : (s.setPin k c).ifaces = s.ifaces := rfl
@[simp] theorem State.setPin_probes : (s.setPin k c).probes = s.probes := rfl
@[simp] theorem State.setPin_pcmps : (s.setPin k c).pcmps = s.pcmps := rfl
@[simp] theorem State.setPin_culverts : (s.setPin k c).culverts = s.culverts := rfl
@[simp] theorem State.setPin_ports : (s.setPin k c).ports = s.ports := rfl
@[simp] theorem State.setPin_exports : (s.setPin k c).exports = s.exports := rfl
@[simp] theorem State.setPin_adc : (s.setPin k c).adc = s.adc := rfl
@[simp] theorem State.setPin_cal : (s.setPin k c).cal = s.cal := rfl
@[simp] theorem State.setPin_swap : (s.setPin k c).swap = s.swap := rfl
@[simp] theorem State.setPin_nvm : (s.setPin k c).nvm = s.nvm := rfl
@[simp] theorem State.setPin_hg : (s.setPin k c).hg = s.hg := rfl
@[simp] theorem State.setPin_ts : (s.setPin k c).ts = s.ts := rfl
@[simp] theorem State.setPin_power : (s.setPin k c).power = s.power := rfl
@[simp] theorem State.setPin_island : (s.setPin k c).island = s.island := rfl
@[simp] theorem State.setPin_irqEvents : (s.setPin k c).irqEvents = s.irqEvents := rfl
@[simp] theorem State.setPin_start : (s.setPin k c).start = s.start := rfl
@[simp] theorem State.setPin_raised : (s.setPin k c).raised = s.raised := rfl
@[simp] theorem State.setPin_touched : (s.setPin k c).touched = s.touched := rfl
@[simp] theorem State.setPin_written : (s.setPin k c).written = s.written := rfl
@[simp] theorem State.setPin_rwNow : (s.setPin k c).rwNow = s.rwNow := rfl
@[simp] theorem State.setPin_rwNext : (s.setPin k c).rwNext = s.rwNext := rfl
@[simp] theorem State.setPin_wroteTick : (s.setPin k c).wroteTick = s.wroteTick := rfl
@[simp] theorem State.setPin_wrote : (s.setPin k c).wrote = s.wrote := rfl
@[simp] theorem State.setPin_was : (s.setPin k c).was = s.was := rfl
@[simp] theorem State.setPin_later : (s.setPin k c).later = s.later := rfl
@[simp] theorem State.setPin_takes : (s.setPin k c).takes = s.takes := rfl
@[simp] theorem State.setPin_hostData : (s.setPin k c).hostData = s.hostData := rfl
@[simp] theorem State.setPin_sent : (s.setPin k c).sent = s.sent := rfl
@[simp] theorem State.setPin_free : (s.setPin k c).free = s.free := rfl
@[simp] theorem State.setPin_pending : (s.setPin k c).pending = s.pending := rfl

end

/-! ### setShaft -/

section
variable (s : State) (k : Nat) (c : Shaft)

@[simp] theorem State.setShaft_mt : (s.setShaft k c).mt = s.mt := rfl
@[simp] theorem State.setShaft_regs : (s.setShaft k c).regs = s.regs := rfl
@[simp] theorem State.setShaft_reservoir : (s.setShaft k c).reservoir = s.reservoir := rfl
@[simp] theorem State.setShaft_poison : (s.setShaft k c).poison = s.poison := rfl
@[simp] theorem State.setShaft_localRam : (s.setShaft k c).localRam = s.localRam := rfl
@[simp] theorem State.setShaft_ustore : (s.setShaft k c).ustore = s.ustore := rfl
@[simp] theorem State.setShaft_chans : (s.setShaft k c).chans = s.chans := rfl
@[simp] theorem State.setShaft_trips : (s.setShaft k c).trips = s.trips := rfl
@[simp] theorem State.setShaft_mittens : (s.setShaft k c).mittens = s.mittens := rfl
@[simp] theorem State.setShaft_pins : (s.setShaft k c).pins = s.pins := rfl
@[simp] theorem State.setShaft_shafts : (s.setShaft k c).shafts = s.shafts.set (fun _ => Shaft.init) k c := rfl
@[simp] theorem State.setShaft_weirs : (s.setShaft k c).weirs = s.weirs := rfl
@[simp] theorem State.setShaft_engines : (s.setShaft k c).engines = s.engines := rfl
@[simp] theorem State.setShaft_threads : (s.setShaft k c).threads = s.threads := rfl
@[simp] theorem State.setShaft_rings : (s.setShaft k c).rings = s.rings := rfl
@[simp] theorem State.setShaft_ifaces : (s.setShaft k c).ifaces = s.ifaces := rfl
@[simp] theorem State.setShaft_probes : (s.setShaft k c).probes = s.probes := rfl
@[simp] theorem State.setShaft_pcmps : (s.setShaft k c).pcmps = s.pcmps := rfl
@[simp] theorem State.setShaft_culverts : (s.setShaft k c).culverts = s.culverts := rfl
@[simp] theorem State.setShaft_ports : (s.setShaft k c).ports = s.ports := rfl
@[simp] theorem State.setShaft_exports : (s.setShaft k c).exports = s.exports := rfl
@[simp] theorem State.setShaft_adc : (s.setShaft k c).adc = s.adc := rfl
@[simp] theorem State.setShaft_cal : (s.setShaft k c).cal = s.cal := rfl
@[simp] theorem State.setShaft_swap : (s.setShaft k c).swap = s.swap := rfl
@[simp] theorem State.setShaft_nvm : (s.setShaft k c).nvm = s.nvm := rfl
@[simp] theorem State.setShaft_hg : (s.setShaft k c).hg = s.hg := rfl
@[simp] theorem State.setShaft_ts : (s.setShaft k c).ts = s.ts := rfl
@[simp] theorem State.setShaft_power : (s.setShaft k c).power = s.power := rfl
@[simp] theorem State.setShaft_island : (s.setShaft k c).island = s.island := rfl
@[simp] theorem State.setShaft_irqEvents : (s.setShaft k c).irqEvents = s.irqEvents := rfl
@[simp] theorem State.setShaft_start : (s.setShaft k c).start = s.start := rfl
@[simp] theorem State.setShaft_raised : (s.setShaft k c).raised = s.raised := rfl
@[simp] theorem State.setShaft_touched : (s.setShaft k c).touched = s.touched := rfl
@[simp] theorem State.setShaft_written : (s.setShaft k c).written = s.written := rfl
@[simp] theorem State.setShaft_rwNow : (s.setShaft k c).rwNow = s.rwNow := rfl
@[simp] theorem State.setShaft_rwNext : (s.setShaft k c).rwNext = s.rwNext := rfl
@[simp] theorem State.setShaft_wroteTick : (s.setShaft k c).wroteTick = s.wroteTick := rfl
@[simp] theorem State.setShaft_wrote : (s.setShaft k c).wrote = s.wrote := rfl
@[simp] theorem State.setShaft_was : (s.setShaft k c).was = s.was := rfl
@[simp] theorem State.setShaft_later : (s.setShaft k c).later = s.later := rfl
@[simp] theorem State.setShaft_takes : (s.setShaft k c).takes = s.takes := rfl
@[simp] theorem State.setShaft_hostData : (s.setShaft k c).hostData = s.hostData := rfl
@[simp] theorem State.setShaft_sent : (s.setShaft k c).sent = s.sent := rfl
@[simp] theorem State.setShaft_free : (s.setShaft k c).free = s.free := rfl
@[simp] theorem State.setShaft_pending : (s.setShaft k c).pending = s.pending := rfl

end

/-! ### setWeir -/

section
variable (s : State) (k : Nat) (c : Weir)

@[simp] theorem State.setWeir_mt : (s.setWeir k c).mt = s.mt := rfl
@[simp] theorem State.setWeir_regs : (s.setWeir k c).regs = s.regs := rfl
@[simp] theorem State.setWeir_reservoir : (s.setWeir k c).reservoir = s.reservoir := rfl
@[simp] theorem State.setWeir_poison : (s.setWeir k c).poison = s.poison := rfl
@[simp] theorem State.setWeir_localRam : (s.setWeir k c).localRam = s.localRam := rfl
@[simp] theorem State.setWeir_ustore : (s.setWeir k c).ustore = s.ustore := rfl
@[simp] theorem State.setWeir_chans : (s.setWeir k c).chans = s.chans := rfl
@[simp] theorem State.setWeir_trips : (s.setWeir k c).trips = s.trips := rfl
@[simp] theorem State.setWeir_mittens : (s.setWeir k c).mittens = s.mittens := rfl
@[simp] theorem State.setWeir_pins : (s.setWeir k c).pins = s.pins := rfl
@[simp] theorem State.setWeir_shafts : (s.setWeir k c).shafts = s.shafts := rfl
@[simp] theorem State.setWeir_weirs : (s.setWeir k c).weirs = s.weirs.set (fun _ => Weir.init) k c := rfl
@[simp] theorem State.setWeir_engines : (s.setWeir k c).engines = s.engines := rfl
@[simp] theorem State.setWeir_threads : (s.setWeir k c).threads = s.threads := rfl
@[simp] theorem State.setWeir_rings : (s.setWeir k c).rings = s.rings := rfl
@[simp] theorem State.setWeir_ifaces : (s.setWeir k c).ifaces = s.ifaces := rfl
@[simp] theorem State.setWeir_probes : (s.setWeir k c).probes = s.probes := rfl
@[simp] theorem State.setWeir_pcmps : (s.setWeir k c).pcmps = s.pcmps := rfl
@[simp] theorem State.setWeir_culverts : (s.setWeir k c).culverts = s.culverts := rfl
@[simp] theorem State.setWeir_ports : (s.setWeir k c).ports = s.ports := rfl
@[simp] theorem State.setWeir_exports : (s.setWeir k c).exports = s.exports := rfl
@[simp] theorem State.setWeir_adc : (s.setWeir k c).adc = s.adc := rfl
@[simp] theorem State.setWeir_cal : (s.setWeir k c).cal = s.cal := rfl
@[simp] theorem State.setWeir_swap : (s.setWeir k c).swap = s.swap := rfl
@[simp] theorem State.setWeir_nvm : (s.setWeir k c).nvm = s.nvm := rfl
@[simp] theorem State.setWeir_hg : (s.setWeir k c).hg = s.hg := rfl
@[simp] theorem State.setWeir_ts : (s.setWeir k c).ts = s.ts := rfl
@[simp] theorem State.setWeir_power : (s.setWeir k c).power = s.power := rfl
@[simp] theorem State.setWeir_island : (s.setWeir k c).island = s.island := rfl
@[simp] theorem State.setWeir_irqEvents : (s.setWeir k c).irqEvents = s.irqEvents := rfl
@[simp] theorem State.setWeir_start : (s.setWeir k c).start = s.start := rfl
@[simp] theorem State.setWeir_raised : (s.setWeir k c).raised = s.raised := rfl
@[simp] theorem State.setWeir_touched : (s.setWeir k c).touched = s.touched := rfl
@[simp] theorem State.setWeir_written : (s.setWeir k c).written = s.written := rfl
@[simp] theorem State.setWeir_rwNow : (s.setWeir k c).rwNow = s.rwNow := rfl
@[simp] theorem State.setWeir_rwNext : (s.setWeir k c).rwNext = s.rwNext := rfl
@[simp] theorem State.setWeir_wroteTick : (s.setWeir k c).wroteTick = s.wroteTick := rfl
@[simp] theorem State.setWeir_wrote : (s.setWeir k c).wrote = s.wrote := rfl
@[simp] theorem State.setWeir_was : (s.setWeir k c).was = s.was := rfl
@[simp] theorem State.setWeir_later : (s.setWeir k c).later = s.later := rfl
@[simp] theorem State.setWeir_takes : (s.setWeir k c).takes = s.takes := rfl
@[simp] theorem State.setWeir_hostData : (s.setWeir k c).hostData = s.hostData := rfl
@[simp] theorem State.setWeir_sent : (s.setWeir k c).sent = s.sent := rfl
@[simp] theorem State.setWeir_free : (s.setWeir k c).free = s.free := rfl
@[simp] theorem State.setWeir_pending : (s.setWeir k c).pending = s.pending := rfl

end

/-! ### setEngine -/

section
variable (s : State) (k : Nat) (c : Engine)

@[simp] theorem State.setEngine_mt : (s.setEngine k c).mt = s.mt := rfl
@[simp] theorem State.setEngine_regs : (s.setEngine k c).regs = s.regs := rfl
@[simp] theorem State.setEngine_reservoir : (s.setEngine k c).reservoir = s.reservoir := rfl
@[simp] theorem State.setEngine_poison : (s.setEngine k c).poison = s.poison := rfl
@[simp] theorem State.setEngine_localRam : (s.setEngine k c).localRam = s.localRam := rfl
@[simp] theorem State.setEngine_ustore : (s.setEngine k c).ustore = s.ustore := rfl
@[simp] theorem State.setEngine_chans : (s.setEngine k c).chans = s.chans := rfl
@[simp] theorem State.setEngine_trips : (s.setEngine k c).trips = s.trips := rfl
@[simp] theorem State.setEngine_mittens : (s.setEngine k c).mittens = s.mittens := rfl
@[simp] theorem State.setEngine_pins : (s.setEngine k c).pins = s.pins := rfl
@[simp] theorem State.setEngine_shafts : (s.setEngine k c).shafts = s.shafts := rfl
@[simp] theorem State.setEngine_weirs : (s.setEngine k c).weirs = s.weirs := rfl
@[simp] theorem State.setEngine_engines : (s.setEngine k c).engines = s.engines.set (fun _ => Engine.init) k c := rfl
@[simp] theorem State.setEngine_threads : (s.setEngine k c).threads = s.threads := rfl
@[simp] theorem State.setEngine_rings : (s.setEngine k c).rings = s.rings := rfl
@[simp] theorem State.setEngine_ifaces : (s.setEngine k c).ifaces = s.ifaces := rfl
@[simp] theorem State.setEngine_probes : (s.setEngine k c).probes = s.probes := rfl
@[simp] theorem State.setEngine_pcmps : (s.setEngine k c).pcmps = s.pcmps := rfl
@[simp] theorem State.setEngine_culverts : (s.setEngine k c).culverts = s.culverts := rfl
@[simp] theorem State.setEngine_ports : (s.setEngine k c).ports = s.ports := rfl
@[simp] theorem State.setEngine_exports : (s.setEngine k c).exports = s.exports := rfl
@[simp] theorem State.setEngine_adc : (s.setEngine k c).adc = s.adc := rfl
@[simp] theorem State.setEngine_cal : (s.setEngine k c).cal = s.cal := rfl
@[simp] theorem State.setEngine_swap : (s.setEngine k c).swap = s.swap := rfl
@[simp] theorem State.setEngine_nvm : (s.setEngine k c).nvm = s.nvm := rfl
@[simp] theorem State.setEngine_hg : (s.setEngine k c).hg = s.hg := rfl
@[simp] theorem State.setEngine_ts : (s.setEngine k c).ts = s.ts := rfl
@[simp] theorem State.setEngine_power : (s.setEngine k c).power = s.power := rfl
@[simp] theorem State.setEngine_island : (s.setEngine k c).island = s.island := rfl
@[simp] theorem State.setEngine_irqEvents : (s.setEngine k c).irqEvents = s.irqEvents := rfl
@[simp] theorem State.setEngine_start : (s.setEngine k c).start = s.start := rfl
@[simp] theorem State.setEngine_raised : (s.setEngine k c).raised = s.raised := rfl
@[simp] theorem State.setEngine_touched : (s.setEngine k c).touched = s.touched := rfl
@[simp] theorem State.setEngine_written : (s.setEngine k c).written = s.written := rfl
@[simp] theorem State.setEngine_rwNow : (s.setEngine k c).rwNow = s.rwNow := rfl
@[simp] theorem State.setEngine_rwNext : (s.setEngine k c).rwNext = s.rwNext := rfl
@[simp] theorem State.setEngine_wroteTick : (s.setEngine k c).wroteTick = s.wroteTick := rfl
@[simp] theorem State.setEngine_wrote : (s.setEngine k c).wrote = s.wrote := rfl
@[simp] theorem State.setEngine_was : (s.setEngine k c).was = s.was := rfl
@[simp] theorem State.setEngine_later : (s.setEngine k c).later = s.later := rfl
@[simp] theorem State.setEngine_takes : (s.setEngine k c).takes = s.takes := rfl
@[simp] theorem State.setEngine_hostData : (s.setEngine k c).hostData = s.hostData := rfl
@[simp] theorem State.setEngine_sent : (s.setEngine k c).sent = s.sent := rfl
@[simp] theorem State.setEngine_free : (s.setEngine k c).free = s.free := rfl
@[simp] theorem State.setEngine_pending : (s.setEngine k c).pending = s.pending := rfl

end

/-! ### setRing -/

section
variable (s : State) (k : Nat) (c : RingState)

@[simp] theorem State.setRing_mt : (s.setRing k c).mt = s.mt := rfl
@[simp] theorem State.setRing_regs : (s.setRing k c).regs = s.regs := rfl
@[simp] theorem State.setRing_reservoir : (s.setRing k c).reservoir = s.reservoir := rfl
@[simp] theorem State.setRing_poison : (s.setRing k c).poison = s.poison := rfl
@[simp] theorem State.setRing_localRam : (s.setRing k c).localRam = s.localRam := rfl
@[simp] theorem State.setRing_ustore : (s.setRing k c).ustore = s.ustore := rfl
@[simp] theorem State.setRing_chans : (s.setRing k c).chans = s.chans := rfl
@[simp] theorem State.setRing_trips : (s.setRing k c).trips = s.trips := rfl
@[simp] theorem State.setRing_mittens : (s.setRing k c).mittens = s.mittens := rfl
@[simp] theorem State.setRing_pins : (s.setRing k c).pins = s.pins := rfl
@[simp] theorem State.setRing_shafts : (s.setRing k c).shafts = s.shafts := rfl
@[simp] theorem State.setRing_weirs : (s.setRing k c).weirs = s.weirs := rfl
@[simp] theorem State.setRing_engines : (s.setRing k c).engines = s.engines := rfl
@[simp] theorem State.setRing_threads : (s.setRing k c).threads = s.threads := rfl
@[simp] theorem State.setRing_rings : (s.setRing k c).rings = s.rings.set (fun _ => RingState.init) k c := rfl
@[simp] theorem State.setRing_ifaces : (s.setRing k c).ifaces = s.ifaces := rfl
@[simp] theorem State.setRing_probes : (s.setRing k c).probes = s.probes := rfl
@[simp] theorem State.setRing_pcmps : (s.setRing k c).pcmps = s.pcmps := rfl
@[simp] theorem State.setRing_culverts : (s.setRing k c).culverts = s.culverts := rfl
@[simp] theorem State.setRing_ports : (s.setRing k c).ports = s.ports := rfl
@[simp] theorem State.setRing_exports : (s.setRing k c).exports = s.exports := rfl
@[simp] theorem State.setRing_adc : (s.setRing k c).adc = s.adc := rfl
@[simp] theorem State.setRing_cal : (s.setRing k c).cal = s.cal := rfl
@[simp] theorem State.setRing_swap : (s.setRing k c).swap = s.swap := rfl
@[simp] theorem State.setRing_nvm : (s.setRing k c).nvm = s.nvm := rfl
@[simp] theorem State.setRing_hg : (s.setRing k c).hg = s.hg := rfl
@[simp] theorem State.setRing_ts : (s.setRing k c).ts = s.ts := rfl
@[simp] theorem State.setRing_power : (s.setRing k c).power = s.power := rfl
@[simp] theorem State.setRing_island : (s.setRing k c).island = s.island := rfl
@[simp] theorem State.setRing_irqEvents : (s.setRing k c).irqEvents = s.irqEvents := rfl
@[simp] theorem State.setRing_start : (s.setRing k c).start = s.start := rfl
@[simp] theorem State.setRing_raised : (s.setRing k c).raised = s.raised := rfl
@[simp] theorem State.setRing_touched : (s.setRing k c).touched = s.touched := rfl
@[simp] theorem State.setRing_written : (s.setRing k c).written = s.written := rfl
@[simp] theorem State.setRing_rwNow : (s.setRing k c).rwNow = s.rwNow := rfl
@[simp] theorem State.setRing_rwNext : (s.setRing k c).rwNext = s.rwNext := rfl
@[simp] theorem State.setRing_wroteTick : (s.setRing k c).wroteTick = s.wroteTick := rfl
@[simp] theorem State.setRing_wrote : (s.setRing k c).wrote = s.wrote := rfl
@[simp] theorem State.setRing_was : (s.setRing k c).was = s.was := rfl
@[simp] theorem State.setRing_later : (s.setRing k c).later = s.later := rfl
@[simp] theorem State.setRing_takes : (s.setRing k c).takes = s.takes := rfl
@[simp] theorem State.setRing_hostData : (s.setRing k c).hostData = s.hostData := rfl
@[simp] theorem State.setRing_sent : (s.setRing k c).sent = s.sent := rfl
@[simp] theorem State.setRing_free : (s.setRing k c).free = s.free := rfl
@[simp] theorem State.setRing_pending : (s.setRing k c).pending = s.pending := rfl

end

/-! ### setIface -/

section
variable (s : State) (k : Nat) (c : Iface)

@[simp] theorem State.setIface_mt : (s.setIface k c).mt = s.mt := rfl
@[simp] theorem State.setIface_regs : (s.setIface k c).regs = s.regs := rfl
@[simp] theorem State.setIface_reservoir : (s.setIface k c).reservoir = s.reservoir := rfl
@[simp] theorem State.setIface_poison : (s.setIface k c).poison = s.poison := rfl
@[simp] theorem State.setIface_localRam : (s.setIface k c).localRam = s.localRam := rfl
@[simp] theorem State.setIface_ustore : (s.setIface k c).ustore = s.ustore := rfl
@[simp] theorem State.setIface_chans : (s.setIface k c).chans = s.chans := rfl
@[simp] theorem State.setIface_trips : (s.setIface k c).trips = s.trips := rfl
@[simp] theorem State.setIface_mittens : (s.setIface k c).mittens = s.mittens := rfl
@[simp] theorem State.setIface_pins : (s.setIface k c).pins = s.pins := rfl
@[simp] theorem State.setIface_shafts : (s.setIface k c).shafts = s.shafts := rfl
@[simp] theorem State.setIface_weirs : (s.setIface k c).weirs = s.weirs := rfl
@[simp] theorem State.setIface_engines : (s.setIface k c).engines = s.engines := rfl
@[simp] theorem State.setIface_threads : (s.setIface k c).threads = s.threads := rfl
@[simp] theorem State.setIface_rings : (s.setIface k c).rings = s.rings := rfl
@[simp] theorem State.setIface_ifaces : (s.setIface k c).ifaces = s.ifaces.set (fun _ => Iface.init) k c := rfl
@[simp] theorem State.setIface_probes : (s.setIface k c).probes = s.probes := rfl
@[simp] theorem State.setIface_pcmps : (s.setIface k c).pcmps = s.pcmps := rfl
@[simp] theorem State.setIface_culverts : (s.setIface k c).culverts = s.culverts := rfl
@[simp] theorem State.setIface_ports : (s.setIface k c).ports = s.ports := rfl
@[simp] theorem State.setIface_exports : (s.setIface k c).exports = s.exports := rfl
@[simp] theorem State.setIface_adc : (s.setIface k c).adc = s.adc := rfl
@[simp] theorem State.setIface_cal : (s.setIface k c).cal = s.cal := rfl
@[simp] theorem State.setIface_swap : (s.setIface k c).swap = s.swap := rfl
@[simp] theorem State.setIface_nvm : (s.setIface k c).nvm = s.nvm := rfl
@[simp] theorem State.setIface_hg : (s.setIface k c).hg = s.hg := rfl
@[simp] theorem State.setIface_ts : (s.setIface k c).ts = s.ts := rfl
@[simp] theorem State.setIface_power : (s.setIface k c).power = s.power := rfl
@[simp] theorem State.setIface_island : (s.setIface k c).island = s.island := rfl
@[simp] theorem State.setIface_irqEvents : (s.setIface k c).irqEvents = s.irqEvents := rfl
@[simp] theorem State.setIface_start : (s.setIface k c).start = s.start := rfl
@[simp] theorem State.setIface_raised : (s.setIface k c).raised = s.raised := rfl
@[simp] theorem State.setIface_touched : (s.setIface k c).touched = s.touched := rfl
@[simp] theorem State.setIface_written : (s.setIface k c).written = s.written := rfl
@[simp] theorem State.setIface_rwNow : (s.setIface k c).rwNow = s.rwNow := rfl
@[simp] theorem State.setIface_rwNext : (s.setIface k c).rwNext = s.rwNext := rfl
@[simp] theorem State.setIface_wroteTick : (s.setIface k c).wroteTick = s.wroteTick := rfl
@[simp] theorem State.setIface_wrote : (s.setIface k c).wrote = s.wrote := rfl
@[simp] theorem State.setIface_was : (s.setIface k c).was = s.was := rfl
@[simp] theorem State.setIface_later : (s.setIface k c).later = s.later := rfl
@[simp] theorem State.setIface_takes : (s.setIface k c).takes = s.takes := rfl
@[simp] theorem State.setIface_hostData : (s.setIface k c).hostData = s.hostData := rfl
@[simp] theorem State.setIface_sent : (s.setIface k c).sent = s.sent := rfl
@[simp] theorem State.setIface_free : (s.setIface k c).free = s.free := rfl
@[simp] theorem State.setIface_pending : (s.setIface k c).pending = s.pending := rfl

end

/-! ### setProbe -/

section
variable (s : State) (k : Nat) (c : Probe)

@[simp] theorem State.setProbe_mt : (s.setProbe k c).mt = s.mt := rfl
@[simp] theorem State.setProbe_regs : (s.setProbe k c).regs = s.regs := rfl
@[simp] theorem State.setProbe_reservoir : (s.setProbe k c).reservoir = s.reservoir := rfl
@[simp] theorem State.setProbe_poison : (s.setProbe k c).poison = s.poison := rfl
@[simp] theorem State.setProbe_localRam : (s.setProbe k c).localRam = s.localRam := rfl
@[simp] theorem State.setProbe_ustore : (s.setProbe k c).ustore = s.ustore := rfl
@[simp] theorem State.setProbe_chans : (s.setProbe k c).chans = s.chans := rfl
@[simp] theorem State.setProbe_trips : (s.setProbe k c).trips = s.trips := rfl
@[simp] theorem State.setProbe_mittens : (s.setProbe k c).mittens = s.mittens := rfl
@[simp] theorem State.setProbe_pins : (s.setProbe k c).pins = s.pins := rfl
@[simp] theorem State.setProbe_shafts : (s.setProbe k c).shafts = s.shafts := rfl
@[simp] theorem State.setProbe_weirs : (s.setProbe k c).weirs = s.weirs := rfl
@[simp] theorem State.setProbe_engines : (s.setProbe k c).engines = s.engines := rfl
@[simp] theorem State.setProbe_threads : (s.setProbe k c).threads = s.threads := rfl
@[simp] theorem State.setProbe_rings : (s.setProbe k c).rings = s.rings := rfl
@[simp] theorem State.setProbe_ifaces : (s.setProbe k c).ifaces = s.ifaces := rfl
@[simp] theorem State.setProbe_probes : (s.setProbe k c).probes = s.probes.set (fun _ => Probe.init) k c := rfl
@[simp] theorem State.setProbe_pcmps : (s.setProbe k c).pcmps = s.pcmps := rfl
@[simp] theorem State.setProbe_culverts : (s.setProbe k c).culverts = s.culverts := rfl
@[simp] theorem State.setProbe_ports : (s.setProbe k c).ports = s.ports := rfl
@[simp] theorem State.setProbe_exports : (s.setProbe k c).exports = s.exports := rfl
@[simp] theorem State.setProbe_adc : (s.setProbe k c).adc = s.adc := rfl
@[simp] theorem State.setProbe_cal : (s.setProbe k c).cal = s.cal := rfl
@[simp] theorem State.setProbe_swap : (s.setProbe k c).swap = s.swap := rfl
@[simp] theorem State.setProbe_nvm : (s.setProbe k c).nvm = s.nvm := rfl
@[simp] theorem State.setProbe_hg : (s.setProbe k c).hg = s.hg := rfl
@[simp] theorem State.setProbe_ts : (s.setProbe k c).ts = s.ts := rfl
@[simp] theorem State.setProbe_power : (s.setProbe k c).power = s.power := rfl
@[simp] theorem State.setProbe_island : (s.setProbe k c).island = s.island := rfl
@[simp] theorem State.setProbe_irqEvents : (s.setProbe k c).irqEvents = s.irqEvents := rfl
@[simp] theorem State.setProbe_start : (s.setProbe k c).start = s.start := rfl
@[simp] theorem State.setProbe_raised : (s.setProbe k c).raised = s.raised := rfl
@[simp] theorem State.setProbe_touched : (s.setProbe k c).touched = s.touched := rfl
@[simp] theorem State.setProbe_written : (s.setProbe k c).written = s.written := rfl
@[simp] theorem State.setProbe_rwNow : (s.setProbe k c).rwNow = s.rwNow := rfl
@[simp] theorem State.setProbe_rwNext : (s.setProbe k c).rwNext = s.rwNext := rfl
@[simp] theorem State.setProbe_wroteTick : (s.setProbe k c).wroteTick = s.wroteTick := rfl
@[simp] theorem State.setProbe_wrote : (s.setProbe k c).wrote = s.wrote := rfl
@[simp] theorem State.setProbe_was : (s.setProbe k c).was = s.was := rfl
@[simp] theorem State.setProbe_later : (s.setProbe k c).later = s.later := rfl
@[simp] theorem State.setProbe_takes : (s.setProbe k c).takes = s.takes := rfl
@[simp] theorem State.setProbe_hostData : (s.setProbe k c).hostData = s.hostData := rfl
@[simp] theorem State.setProbe_sent : (s.setProbe k c).sent = s.sent := rfl
@[simp] theorem State.setProbe_free : (s.setProbe k c).free = s.free := rfl
@[simp] theorem State.setProbe_pending : (s.setProbe k c).pending = s.pending := rfl

end

/-! ### setPcmp -/

section
variable (s : State) (k : Nat) (c : Pcmp)

@[simp] theorem State.setPcmp_mt : (s.setPcmp k c).mt = s.mt := rfl
@[simp] theorem State.setPcmp_regs : (s.setPcmp k c).regs = s.regs := rfl
@[simp] theorem State.setPcmp_reservoir : (s.setPcmp k c).reservoir = s.reservoir := rfl
@[simp] theorem State.setPcmp_poison : (s.setPcmp k c).poison = s.poison := rfl
@[simp] theorem State.setPcmp_localRam : (s.setPcmp k c).localRam = s.localRam := rfl
@[simp] theorem State.setPcmp_ustore : (s.setPcmp k c).ustore = s.ustore := rfl
@[simp] theorem State.setPcmp_chans : (s.setPcmp k c).chans = s.chans := rfl
@[simp] theorem State.setPcmp_trips : (s.setPcmp k c).trips = s.trips := rfl
@[simp] theorem State.setPcmp_mittens : (s.setPcmp k c).mittens = s.mittens := rfl
@[simp] theorem State.setPcmp_pins : (s.setPcmp k c).pins = s.pins := rfl
@[simp] theorem State.setPcmp_shafts : (s.setPcmp k c).shafts = s.shafts := rfl
@[simp] theorem State.setPcmp_weirs : (s.setPcmp k c).weirs = s.weirs := rfl
@[simp] theorem State.setPcmp_engines : (s.setPcmp k c).engines = s.engines := rfl
@[simp] theorem State.setPcmp_threads : (s.setPcmp k c).threads = s.threads := rfl
@[simp] theorem State.setPcmp_rings : (s.setPcmp k c).rings = s.rings := rfl
@[simp] theorem State.setPcmp_ifaces : (s.setPcmp k c).ifaces = s.ifaces := rfl
@[simp] theorem State.setPcmp_probes : (s.setPcmp k c).probes = s.probes := rfl
@[simp] theorem State.setPcmp_pcmps : (s.setPcmp k c).pcmps = s.pcmps.set (fun _ => Pcmp.init) k c := rfl
@[simp] theorem State.setPcmp_culverts : (s.setPcmp k c).culverts = s.culverts := rfl
@[simp] theorem State.setPcmp_ports : (s.setPcmp k c).ports = s.ports := rfl
@[simp] theorem State.setPcmp_exports : (s.setPcmp k c).exports = s.exports := rfl
@[simp] theorem State.setPcmp_adc : (s.setPcmp k c).adc = s.adc := rfl
@[simp] theorem State.setPcmp_cal : (s.setPcmp k c).cal = s.cal := rfl
@[simp] theorem State.setPcmp_swap : (s.setPcmp k c).swap = s.swap := rfl
@[simp] theorem State.setPcmp_nvm : (s.setPcmp k c).nvm = s.nvm := rfl
@[simp] theorem State.setPcmp_hg : (s.setPcmp k c).hg = s.hg := rfl
@[simp] theorem State.setPcmp_ts : (s.setPcmp k c).ts = s.ts := rfl
@[simp] theorem State.setPcmp_power : (s.setPcmp k c).power = s.power := rfl
@[simp] theorem State.setPcmp_island : (s.setPcmp k c).island = s.island := rfl
@[simp] theorem State.setPcmp_irqEvents : (s.setPcmp k c).irqEvents = s.irqEvents := rfl
@[simp] theorem State.setPcmp_start : (s.setPcmp k c).start = s.start := rfl
@[simp] theorem State.setPcmp_raised : (s.setPcmp k c).raised = s.raised := rfl
@[simp] theorem State.setPcmp_touched : (s.setPcmp k c).touched = s.touched := rfl
@[simp] theorem State.setPcmp_written : (s.setPcmp k c).written = s.written := rfl
@[simp] theorem State.setPcmp_rwNow : (s.setPcmp k c).rwNow = s.rwNow := rfl
@[simp] theorem State.setPcmp_rwNext : (s.setPcmp k c).rwNext = s.rwNext := rfl
@[simp] theorem State.setPcmp_wroteTick : (s.setPcmp k c).wroteTick = s.wroteTick := rfl
@[simp] theorem State.setPcmp_wrote : (s.setPcmp k c).wrote = s.wrote := rfl
@[simp] theorem State.setPcmp_was : (s.setPcmp k c).was = s.was := rfl
@[simp] theorem State.setPcmp_later : (s.setPcmp k c).later = s.later := rfl
@[simp] theorem State.setPcmp_takes : (s.setPcmp k c).takes = s.takes := rfl
@[simp] theorem State.setPcmp_hostData : (s.setPcmp k c).hostData = s.hostData := rfl
@[simp] theorem State.setPcmp_sent : (s.setPcmp k c).sent = s.sent := rfl
@[simp] theorem State.setPcmp_free : (s.setPcmp k c).free = s.free := rfl
@[simp] theorem State.setPcmp_pending : (s.setPcmp k c).pending = s.pending := rfl

end

/-! ### setCulvert -/

section
variable (s : State) (k : Nat) (c : Culvert)

@[simp] theorem State.setCulvert_mt : (s.setCulvert k c).mt = s.mt := rfl
@[simp] theorem State.setCulvert_regs : (s.setCulvert k c).regs = s.regs := rfl
@[simp] theorem State.setCulvert_reservoir : (s.setCulvert k c).reservoir = s.reservoir := rfl
@[simp] theorem State.setCulvert_poison : (s.setCulvert k c).poison = s.poison := rfl
@[simp] theorem State.setCulvert_localRam : (s.setCulvert k c).localRam = s.localRam := rfl
@[simp] theorem State.setCulvert_ustore : (s.setCulvert k c).ustore = s.ustore := rfl
@[simp] theorem State.setCulvert_chans : (s.setCulvert k c).chans = s.chans := rfl
@[simp] theorem State.setCulvert_trips : (s.setCulvert k c).trips = s.trips := rfl
@[simp] theorem State.setCulvert_mittens : (s.setCulvert k c).mittens = s.mittens := rfl
@[simp] theorem State.setCulvert_pins : (s.setCulvert k c).pins = s.pins := rfl
@[simp] theorem State.setCulvert_shafts : (s.setCulvert k c).shafts = s.shafts := rfl
@[simp] theorem State.setCulvert_weirs : (s.setCulvert k c).weirs = s.weirs := rfl
@[simp] theorem State.setCulvert_engines : (s.setCulvert k c).engines = s.engines := rfl
@[simp] theorem State.setCulvert_threads : (s.setCulvert k c).threads = s.threads := rfl
@[simp] theorem State.setCulvert_rings : (s.setCulvert k c).rings = s.rings := rfl
@[simp] theorem State.setCulvert_ifaces : (s.setCulvert k c).ifaces = s.ifaces := rfl
@[simp] theorem State.setCulvert_probes : (s.setCulvert k c).probes = s.probes := rfl
@[simp] theorem State.setCulvert_pcmps : (s.setCulvert k c).pcmps = s.pcmps := rfl
@[simp] theorem State.setCulvert_culverts : (s.setCulvert k c).culverts = s.culverts.set (fun _ => Culvert.init) k c := rfl
@[simp] theorem State.setCulvert_ports : (s.setCulvert k c).ports = s.ports := rfl
@[simp] theorem State.setCulvert_exports : (s.setCulvert k c).exports = s.exports := rfl
@[simp] theorem State.setCulvert_adc : (s.setCulvert k c).adc = s.adc := rfl
@[simp] theorem State.setCulvert_cal : (s.setCulvert k c).cal = s.cal := rfl
@[simp] theorem State.setCulvert_swap : (s.setCulvert k c).swap = s.swap := rfl
@[simp] theorem State.setCulvert_nvm : (s.setCulvert k c).nvm = s.nvm := rfl
@[simp] theorem State.setCulvert_hg : (s.setCulvert k c).hg = s.hg := rfl
@[simp] theorem State.setCulvert_ts : (s.setCulvert k c).ts = s.ts := rfl
@[simp] theorem State.setCulvert_power : (s.setCulvert k c).power = s.power := rfl
@[simp] theorem State.setCulvert_island : (s.setCulvert k c).island = s.island := rfl
@[simp] theorem State.setCulvert_irqEvents : (s.setCulvert k c).irqEvents = s.irqEvents := rfl
@[simp] theorem State.setCulvert_start : (s.setCulvert k c).start = s.start := rfl
@[simp] theorem State.setCulvert_raised : (s.setCulvert k c).raised = s.raised := rfl
@[simp] theorem State.setCulvert_touched : (s.setCulvert k c).touched = s.touched := rfl
@[simp] theorem State.setCulvert_written : (s.setCulvert k c).written = s.written := rfl
@[simp] theorem State.setCulvert_rwNow : (s.setCulvert k c).rwNow = s.rwNow := rfl
@[simp] theorem State.setCulvert_rwNext : (s.setCulvert k c).rwNext = s.rwNext := rfl
@[simp] theorem State.setCulvert_wroteTick : (s.setCulvert k c).wroteTick = s.wroteTick := rfl
@[simp] theorem State.setCulvert_wrote : (s.setCulvert k c).wrote = s.wrote := rfl
@[simp] theorem State.setCulvert_was : (s.setCulvert k c).was = s.was := rfl
@[simp] theorem State.setCulvert_later : (s.setCulvert k c).later = s.later := rfl
@[simp] theorem State.setCulvert_takes : (s.setCulvert k c).takes = s.takes := rfl
@[simp] theorem State.setCulvert_hostData : (s.setCulvert k c).hostData = s.hostData := rfl
@[simp] theorem State.setCulvert_sent : (s.setCulvert k c).sent = s.sent := rfl
@[simp] theorem State.setCulvert_free : (s.setCulvert k c).free = s.free := rfl
@[simp] theorem State.setCulvert_pending : (s.setCulvert k c).pending = s.pending := rfl

end

/-! ### setPort -/

section
variable (s : State) (k : Nat) (c : Port)

@[simp] theorem State.setPort_mt : (s.setPort k c).mt = s.mt := rfl
@[simp] theorem State.setPort_regs : (s.setPort k c).regs = s.regs := rfl
@[simp] theorem State.setPort_reservoir : (s.setPort k c).reservoir = s.reservoir := rfl
@[simp] theorem State.setPort_poison : (s.setPort k c).poison = s.poison := rfl
@[simp] theorem State.setPort_localRam : (s.setPort k c).localRam = s.localRam := rfl
@[simp] theorem State.setPort_ustore : (s.setPort k c).ustore = s.ustore := rfl
@[simp] theorem State.setPort_chans : (s.setPort k c).chans = s.chans := rfl
@[simp] theorem State.setPort_trips : (s.setPort k c).trips = s.trips := rfl
@[simp] theorem State.setPort_mittens : (s.setPort k c).mittens = s.mittens := rfl
@[simp] theorem State.setPort_pins : (s.setPort k c).pins = s.pins := rfl
@[simp] theorem State.setPort_shafts : (s.setPort k c).shafts = s.shafts := rfl
@[simp] theorem State.setPort_weirs : (s.setPort k c).weirs = s.weirs := rfl
@[simp] theorem State.setPort_engines : (s.setPort k c).engines = s.engines := rfl
@[simp] theorem State.setPort_threads : (s.setPort k c).threads = s.threads := rfl
@[simp] theorem State.setPort_rings : (s.setPort k c).rings = s.rings := rfl
@[simp] theorem State.setPort_ifaces : (s.setPort k c).ifaces = s.ifaces := rfl
@[simp] theorem State.setPort_probes : (s.setPort k c).probes = s.probes := rfl
@[simp] theorem State.setPort_pcmps : (s.setPort k c).pcmps = s.pcmps := rfl
@[simp] theorem State.setPort_culverts : (s.setPort k c).culverts = s.culverts := rfl
@[simp] theorem State.setPort_ports : (s.setPort k c).ports = s.ports.set (fun _ => Port.init) k c := rfl
@[simp] theorem State.setPort_exports : (s.setPort k c).exports = s.exports := rfl
@[simp] theorem State.setPort_adc : (s.setPort k c).adc = s.adc := rfl
@[simp] theorem State.setPort_cal : (s.setPort k c).cal = s.cal := rfl
@[simp] theorem State.setPort_swap : (s.setPort k c).swap = s.swap := rfl
@[simp] theorem State.setPort_nvm : (s.setPort k c).nvm = s.nvm := rfl
@[simp] theorem State.setPort_hg : (s.setPort k c).hg = s.hg := rfl
@[simp] theorem State.setPort_ts : (s.setPort k c).ts = s.ts := rfl
@[simp] theorem State.setPort_power : (s.setPort k c).power = s.power := rfl
@[simp] theorem State.setPort_island : (s.setPort k c).island = s.island := rfl
@[simp] theorem State.setPort_irqEvents : (s.setPort k c).irqEvents = s.irqEvents := rfl
@[simp] theorem State.setPort_start : (s.setPort k c).start = s.start := rfl
@[simp] theorem State.setPort_raised : (s.setPort k c).raised = s.raised := rfl
@[simp] theorem State.setPort_touched : (s.setPort k c).touched = s.touched := rfl
@[simp] theorem State.setPort_written : (s.setPort k c).written = s.written := rfl
@[simp] theorem State.setPort_rwNow : (s.setPort k c).rwNow = s.rwNow := rfl
@[simp] theorem State.setPort_rwNext : (s.setPort k c).rwNext = s.rwNext := rfl
@[simp] theorem State.setPort_wroteTick : (s.setPort k c).wroteTick = s.wroteTick := rfl
@[simp] theorem State.setPort_wrote : (s.setPort k c).wrote = s.wrote := rfl
@[simp] theorem State.setPort_was : (s.setPort k c).was = s.was := rfl
@[simp] theorem State.setPort_later : (s.setPort k c).later = s.later := rfl
@[simp] theorem State.setPort_takes : (s.setPort k c).takes = s.takes := rfl
@[simp] theorem State.setPort_hostData : (s.setPort k c).hostData = s.hostData := rfl
@[simp] theorem State.setPort_sent : (s.setPort k c).sent = s.sent := rfl
@[simp] theorem State.setPort_free : (s.setPort k c).free = s.free := rfl
@[simp] theorem State.setPort_pending : (s.setPort k c).pending = s.pending := rfl

end

/-! ### setThread -/

section
variable (s : State) (n t : Nat) (c : Thread)

@[simp] theorem State.setThread_mt : (s.setThread n t c).mt = s.mt := rfl
@[simp] theorem State.setThread_regs : (s.setThread n t c).regs = s.regs := rfl
@[simp] theorem State.setThread_reservoir : (s.setThread n t c).reservoir = s.reservoir := rfl
@[simp] theorem State.setThread_poison : (s.setThread n t c).poison = s.poison := rfl
@[simp] theorem State.setThread_localRam : (s.setThread n t c).localRam = s.localRam := rfl
@[simp] theorem State.setThread_ustore : (s.setThread n t c).ustore = s.ustore := rfl
@[simp] theorem State.setThread_chans : (s.setThread n t c).chans = s.chans := rfl
@[simp] theorem State.setThread_trips : (s.setThread n t c).trips = s.trips := rfl
@[simp] theorem State.setThread_mittens : (s.setThread n t c).mittens = s.mittens := rfl
@[simp] theorem State.setThread_pins : (s.setThread n t c).pins = s.pins := rfl
@[simp] theorem State.setThread_shafts : (s.setThread n t c).shafts = s.shafts := rfl
@[simp] theorem State.setThread_weirs : (s.setThread n t c).weirs = s.weirs := rfl
@[simp] theorem State.setThread_engines : (s.setThread n t c).engines = s.engines := rfl
@[simp] theorem State.setThread_threads : (s.setThread n t c).threads = s.threads.set (fun _ => Thread.init) (n * 16 + t) c := rfl
@[simp] theorem State.setThread_rings : (s.setThread n t c).rings = s.rings := rfl
@[simp] theorem State.setThread_ifaces : (s.setThread n t c).ifaces = s.ifaces := rfl
@[simp] theorem State.setThread_probes : (s.setThread n t c).probes = s.probes := rfl
@[simp] theorem State.setThread_pcmps : (s.setThread n t c).pcmps = s.pcmps := rfl
@[simp] theorem State.setThread_culverts : (s.setThread n t c).culverts = s.culverts := rfl
@[simp] theorem State.setThread_ports : (s.setThread n t c).ports = s.ports := rfl
@[simp] theorem State.setThread_exports : (s.setThread n t c).exports = s.exports := rfl
@[simp] theorem State.setThread_adc : (s.setThread n t c).adc = s.adc := rfl
@[simp] theorem State.setThread_cal : (s.setThread n t c).cal = s.cal := rfl
@[simp] theorem State.setThread_swap : (s.setThread n t c).swap = s.swap := rfl
@[simp] theorem State.setThread_nvm : (s.setThread n t c).nvm = s.nvm := rfl
@[simp] theorem State.setThread_hg : (s.setThread n t c).hg = s.hg := rfl
@[simp] theorem State.setThread_ts : (s.setThread n t c).ts = s.ts := rfl
@[simp] theorem State.setThread_power : (s.setThread n t c).power = s.power := rfl
@[simp] theorem State.setThread_island : (s.setThread n t c).island = s.island := rfl
@[simp] theorem State.setThread_irqEvents : (s.setThread n t c).irqEvents = s.irqEvents := rfl
@[simp] theorem State.setThread_start : (s.setThread n t c).start = s.start := rfl
@[simp] theorem State.setThread_raised : (s.setThread n t c).raised = s.raised := rfl
@[simp] theorem State.setThread_touched : (s.setThread n t c).touched = s.touched := rfl
@[simp] theorem State.setThread_written : (s.setThread n t c).written = s.written := rfl
@[simp] theorem State.setThread_rwNow : (s.setThread n t c).rwNow = s.rwNow := rfl
@[simp] theorem State.setThread_rwNext : (s.setThread n t c).rwNext = s.rwNext := rfl
@[simp] theorem State.setThread_wroteTick : (s.setThread n t c).wroteTick = s.wroteTick := rfl
@[simp] theorem State.setThread_wrote : (s.setThread n t c).wrote = s.wrote := rfl
@[simp] theorem State.setThread_was : (s.setThread n t c).was = s.was := rfl
@[simp] theorem State.setThread_later : (s.setThread n t c).later = s.later := rfl
@[simp] theorem State.setThread_takes : (s.setThread n t c).takes = s.takes := rfl
@[simp] theorem State.setThread_hostData : (s.setThread n t c).hostData = s.hostData := rfl
@[simp] theorem State.setThread_sent : (s.setThread n t c).sent = s.sent := rfl
@[simp] theorem State.setThread_free : (s.setThread n t c).free = s.free := rfl
@[simp] theorem State.setThread_pending : (s.setThread n t c).pending = s.pending := rfl

end

/-! ### setConv -/

section
variable (s : State) (k : Nat) (c : Converter)

@[simp] theorem State.setConv_mt : (s.setConv k c).mt = s.mt := rfl
@[simp] theorem State.setConv_regs : (s.setConv k c).regs = s.regs := rfl
@[simp] theorem State.setConv_reservoir : (s.setConv k c).reservoir = s.reservoir := rfl
@[simp] theorem State.setConv_poison : (s.setConv k c).poison = s.poison := rfl
@[simp] theorem State.setConv_localRam : (s.setConv k c).localRam = s.localRam := rfl
@[simp] theorem State.setConv_ustore : (s.setConv k c).ustore = s.ustore := rfl
@[simp] theorem State.setConv_chans : (s.setConv k c).chans = s.chans := rfl
@[simp] theorem State.setConv_trips : (s.setConv k c).trips = s.trips := rfl
@[simp] theorem State.setConv_mittens : (s.setConv k c).mittens = s.mittens := rfl
@[simp] theorem State.setConv_pins : (s.setConv k c).pins = s.pins := rfl
@[simp] theorem State.setConv_shafts : (s.setConv k c).shafts = s.shafts := rfl
@[simp] theorem State.setConv_weirs : (s.setConv k c).weirs = s.weirs := rfl
@[simp] theorem State.setConv_engines : (s.setConv k c).engines = s.engines := rfl
@[simp] theorem State.setConv_threads : (s.setConv k c).threads = s.threads := rfl
@[simp] theorem State.setConv_rings : (s.setConv k c).rings = s.rings := rfl
@[simp] theorem State.setConv_ifaces : (s.setConv k c).ifaces = s.ifaces := rfl
@[simp] theorem State.setConv_probes : (s.setConv k c).probes = s.probes := rfl
@[simp] theorem State.setConv_pcmps : (s.setConv k c).pcmps = s.pcmps := rfl
@[simp] theorem State.setConv_culverts : (s.setConv k c).culverts = s.culverts := rfl
@[simp] theorem State.setConv_ports : (s.setConv k c).ports = s.ports := rfl
@[simp] theorem State.setConv_exports : (s.setConv k c).exports = s.exports := rfl
@[simp] theorem State.setConv_adc : (s.setConv k c).adc = { s.adc with convs := s.adc.convs.set (fun _ => Converter.init) k c } := rfl
@[simp] theorem State.setConv_cal : (s.setConv k c).cal = s.cal := rfl
@[simp] theorem State.setConv_swap : (s.setConv k c).swap = s.swap := rfl
@[simp] theorem State.setConv_nvm : (s.setConv k c).nvm = s.nvm := rfl
@[simp] theorem State.setConv_hg : (s.setConv k c).hg = s.hg := rfl
@[simp] theorem State.setConv_ts : (s.setConv k c).ts = s.ts := rfl
@[simp] theorem State.setConv_power : (s.setConv k c).power = s.power := rfl
@[simp] theorem State.setConv_island : (s.setConv k c).island = s.island := rfl
@[simp] theorem State.setConv_irqEvents : (s.setConv k c).irqEvents = s.irqEvents := rfl
@[simp] theorem State.setConv_start : (s.setConv k c).start = s.start := rfl
@[simp] theorem State.setConv_raised : (s.setConv k c).raised = s.raised := rfl
@[simp] theorem State.setConv_touched : (s.setConv k c).touched = s.touched := rfl
@[simp] theorem State.setConv_written : (s.setConv k c).written = s.written := rfl
@[simp] theorem State.setConv_rwNow : (s.setConv k c).rwNow = s.rwNow := rfl
@[simp] theorem State.setConv_rwNext : (s.setConv k c).rwNext = s.rwNext := rfl
@[simp] theorem State.setConv_wroteTick : (s.setConv k c).wroteTick = s.wroteTick := rfl
@[simp] theorem State.setConv_wrote : (s.setConv k c).wrote = s.wrote := rfl
@[simp] theorem State.setConv_was : (s.setConv k c).was = s.was := rfl
@[simp] theorem State.setConv_later : (s.setConv k c).later = s.later := rfl
@[simp] theorem State.setConv_takes : (s.setConv k c).takes = s.takes := rfl
@[simp] theorem State.setConv_hostData : (s.setConv k c).hostData = s.hostData := rfl
@[simp] theorem State.setConv_sent : (s.setConv k c).sent = s.sent := rfl
@[simp] theorem State.setConv_free : (s.setConv k c).free = s.free := rfl
@[simp] theorem State.setConv_pending : (s.setConv k c).pending = s.pending := rfl

end

/-! ### setAccum -/

section
variable (s : State) (k : Nat) (c : Accum)

@[simp] theorem State.setAccum_mt : (s.setAccum k c).mt = s.mt := rfl
@[simp] theorem State.setAccum_regs : (s.setAccum k c).regs = s.regs := rfl
@[simp] theorem State.setAccum_reservoir : (s.setAccum k c).reservoir = s.reservoir := rfl
@[simp] theorem State.setAccum_poison : (s.setAccum k c).poison = s.poison := rfl
@[simp] theorem State.setAccum_localRam : (s.setAccum k c).localRam = s.localRam := rfl
@[simp] theorem State.setAccum_ustore : (s.setAccum k c).ustore = s.ustore := rfl
@[simp] theorem State.setAccum_chans : (s.setAccum k c).chans = s.chans := rfl
@[simp] theorem State.setAccum_trips : (s.setAccum k c).trips = s.trips := rfl
@[simp] theorem State.setAccum_mittens : (s.setAccum k c).mittens = s.mittens := rfl
@[simp] theorem State.setAccum_pins : (s.setAccum k c).pins = s.pins := rfl
@[simp] theorem State.setAccum_shafts : (s.setAccum k c).shafts = s.shafts := rfl
@[simp] theorem State.setAccum_weirs : (s.setAccum k c).weirs = s.weirs := rfl
@[simp] theorem State.setAccum_engines : (s.setAccum k c).engines = s.engines := rfl
@[simp] theorem State.setAccum_threads : (s.setAccum k c).threads = s.threads := rfl
@[simp] theorem State.setAccum_rings : (s.setAccum k c).rings = s.rings := rfl
@[simp] theorem State.setAccum_ifaces : (s.setAccum k c).ifaces = s.ifaces := rfl
@[simp] theorem State.setAccum_probes : (s.setAccum k c).probes = s.probes := rfl
@[simp] theorem State.setAccum_pcmps : (s.setAccum k c).pcmps = s.pcmps := rfl
@[simp] theorem State.setAccum_culverts : (s.setAccum k c).culverts = s.culverts := rfl
@[simp] theorem State.setAccum_ports : (s.setAccum k c).ports = s.ports := rfl
@[simp] theorem State.setAccum_exports : (s.setAccum k c).exports = s.exports := rfl
@[simp] theorem State.setAccum_adc : (s.setAccum k c).adc = { s.adc with accs := s.adc.accs.set (fun _ => Accum.init) k c } := rfl
@[simp] theorem State.setAccum_cal : (s.setAccum k c).cal = s.cal := rfl
@[simp] theorem State.setAccum_swap : (s.setAccum k c).swap = s.swap := rfl
@[simp] theorem State.setAccum_nvm : (s.setAccum k c).nvm = s.nvm := rfl
@[simp] theorem State.setAccum_hg : (s.setAccum k c).hg = s.hg := rfl
@[simp] theorem State.setAccum_ts : (s.setAccum k c).ts = s.ts := rfl
@[simp] theorem State.setAccum_power : (s.setAccum k c).power = s.power := rfl
@[simp] theorem State.setAccum_island : (s.setAccum k c).island = s.island := rfl
@[simp] theorem State.setAccum_irqEvents : (s.setAccum k c).irqEvents = s.irqEvents := rfl
@[simp] theorem State.setAccum_start : (s.setAccum k c).start = s.start := rfl
@[simp] theorem State.setAccum_raised : (s.setAccum k c).raised = s.raised := rfl
@[simp] theorem State.setAccum_touched : (s.setAccum k c).touched = s.touched := rfl
@[simp] theorem State.setAccum_written : (s.setAccum k c).written = s.written := rfl
@[simp] theorem State.setAccum_rwNow : (s.setAccum k c).rwNow = s.rwNow := rfl
@[simp] theorem State.setAccum_rwNext : (s.setAccum k c).rwNext = s.rwNext := rfl
@[simp] theorem State.setAccum_wroteTick : (s.setAccum k c).wroteTick = s.wroteTick := rfl
@[simp] theorem State.setAccum_wrote : (s.setAccum k c).wrote = s.wrote := rfl
@[simp] theorem State.setAccum_was : (s.setAccum k c).was = s.was := rfl
@[simp] theorem State.setAccum_later : (s.setAccum k c).later = s.later := rfl
@[simp] theorem State.setAccum_takes : (s.setAccum k c).takes = s.takes := rfl
@[simp] theorem State.setAccum_hostData : (s.setAccum k c).hostData = s.hostData := rfl
@[simp] theorem State.setAccum_sent : (s.setAccum k c).sent = s.sent := rfl
@[simp] theorem State.setAccum_free : (s.setAccum k c).free = s.free := rfl
@[simp] theorem State.setAccum_pending : (s.setAccum k c).pending = s.pending := rfl

end

/-! ### setKey -/

section
variable (s : State) (k : Nat) (c : KeySlot)

@[simp] theorem State.setKey_mt : (s.setKey k c).mt = s.mt := rfl
@[simp] theorem State.setKey_regs : (s.setKey k c).regs = s.regs := rfl
@[simp] theorem State.setKey_reservoir : (s.setKey k c).reservoir = s.reservoir := rfl
@[simp] theorem State.setKey_poison : (s.setKey k c).poison = s.poison := rfl
@[simp] theorem State.setKey_localRam : (s.setKey k c).localRam = s.localRam := rfl
@[simp] theorem State.setKey_ustore : (s.setKey k c).ustore = s.ustore := rfl
@[simp] theorem State.setKey_chans : (s.setKey k c).chans = s.chans := rfl
@[simp] theorem State.setKey_trips : (s.setKey k c).trips = s.trips := rfl
@[simp] theorem State.setKey_mittens : (s.setKey k c).mittens = s.mittens := rfl
@[simp] theorem State.setKey_pins : (s.setKey k c).pins = s.pins := rfl
@[simp] theorem State.setKey_shafts : (s.setKey k c).shafts = s.shafts := rfl
@[simp] theorem State.setKey_weirs : (s.setKey k c).weirs = s.weirs := rfl
@[simp] theorem State.setKey_engines : (s.setKey k c).engines = s.engines := rfl
@[simp] theorem State.setKey_threads : (s.setKey k c).threads = s.threads := rfl
@[simp] theorem State.setKey_rings : (s.setKey k c).rings = s.rings := rfl
@[simp] theorem State.setKey_ifaces : (s.setKey k c).ifaces = s.ifaces := rfl
@[simp] theorem State.setKey_probes : (s.setKey k c).probes = s.probes := rfl
@[simp] theorem State.setKey_pcmps : (s.setKey k c).pcmps = s.pcmps := rfl
@[simp] theorem State.setKey_culverts : (s.setKey k c).culverts = s.culverts := rfl
@[simp] theorem State.setKey_ports : (s.setKey k c).ports = s.ports := rfl
@[simp] theorem State.setKey_exports : (s.setKey k c).exports = s.exports := rfl
@[simp] theorem State.setKey_adc : (s.setKey k c).adc = s.adc := rfl
@[simp] theorem State.setKey_cal : (s.setKey k c).cal = s.cal := rfl
@[simp] theorem State.setKey_swap : (s.setKey k c).swap = s.swap := rfl
@[simp] theorem State.setKey_nvm : (s.setKey k c).nvm = s.nvm := rfl
@[simp] theorem State.setKey_hg : (s.setKey k c).hg = { s.hg with keys := s.hg.keys.set (fun _ => KeySlot.init) k c } := rfl
@[simp] theorem State.setKey_ts : (s.setKey k c).ts = s.ts := rfl
@[simp] theorem State.setKey_power : (s.setKey k c).power = s.power := rfl
@[simp] theorem State.setKey_island : (s.setKey k c).island = s.island := rfl
@[simp] theorem State.setKey_irqEvents : (s.setKey k c).irqEvents = s.irqEvents := rfl
@[simp] theorem State.setKey_start : (s.setKey k c).start = s.start := rfl
@[simp] theorem State.setKey_raised : (s.setKey k c).raised = s.raised := rfl
@[simp] theorem State.setKey_touched : (s.setKey k c).touched = s.touched := rfl
@[simp] theorem State.setKey_written : (s.setKey k c).written = s.written := rfl
@[simp] theorem State.setKey_rwNow : (s.setKey k c).rwNow = s.rwNow := rfl
@[simp] theorem State.setKey_rwNext : (s.setKey k c).rwNext = s.rwNext := rfl
@[simp] theorem State.setKey_wroteTick : (s.setKey k c).wroteTick = s.wroteTick := rfl
@[simp] theorem State.setKey_wrote : (s.setKey k c).wrote = s.wrote := rfl
@[simp] theorem State.setKey_was : (s.setKey k c).was = s.was := rfl
@[simp] theorem State.setKey_later : (s.setKey k c).later = s.later := rfl
@[simp] theorem State.setKey_takes : (s.setKey k c).takes = s.takes := rfl
@[simp] theorem State.setKey_hostData : (s.setKey k c).hostData = s.hostData := rfl
@[simp] theorem State.setKey_sent : (s.setKey k c).sent = s.sent := rfl
@[simp] theorem State.setKey_free : (s.setKey k c).free = s.free := rfl
@[simp] theorem State.setKey_pending : (s.setKey k c).pending = s.pending := rfl

end

/-! ### setWear -/

section
variable (s : State) (k : Nat) (c : BitVec 48)

@[simp] theorem State.setWear_mt : (s.setWear k c).mt = s.mt := rfl
@[simp] theorem State.setWear_regs : (s.setWear k c).regs = s.regs := rfl
@[simp] theorem State.setWear_reservoir : (s.setWear k c).reservoir = s.reservoir := rfl
@[simp] theorem State.setWear_poison : (s.setWear k c).poison = s.poison := rfl
@[simp] theorem State.setWear_localRam : (s.setWear k c).localRam = s.localRam := rfl
@[simp] theorem State.setWear_ustore : (s.setWear k c).ustore = s.ustore := rfl
@[simp] theorem State.setWear_chans : (s.setWear k c).chans = s.chans := rfl
@[simp] theorem State.setWear_trips : (s.setWear k c).trips = s.trips := rfl
@[simp] theorem State.setWear_mittens : (s.setWear k c).mittens = s.mittens := rfl
@[simp] theorem State.setWear_pins : (s.setWear k c).pins = s.pins := rfl
@[simp] theorem State.setWear_shafts : (s.setWear k c).shafts = s.shafts := rfl
@[simp] theorem State.setWear_weirs : (s.setWear k c).weirs = s.weirs := rfl
@[simp] theorem State.setWear_engines : (s.setWear k c).engines = s.engines := rfl
@[simp] theorem State.setWear_threads : (s.setWear k c).threads = s.threads := rfl
@[simp] theorem State.setWear_rings : (s.setWear k c).rings = s.rings := rfl
@[simp] theorem State.setWear_ifaces : (s.setWear k c).ifaces = s.ifaces := rfl
@[simp] theorem State.setWear_probes : (s.setWear k c).probes = s.probes := rfl
@[simp] theorem State.setWear_pcmps : (s.setWear k c).pcmps = s.pcmps := rfl
@[simp] theorem State.setWear_culverts : (s.setWear k c).culverts = s.culverts := rfl
@[simp] theorem State.setWear_ports : (s.setWear k c).ports = s.ports := rfl
@[simp] theorem State.setWear_exports : (s.setWear k c).exports = s.exports := rfl
@[simp] theorem State.setWear_adc : (s.setWear k c).adc = s.adc := rfl
@[simp] theorem State.setWear_cal : (s.setWear k c).cal = s.cal := rfl
@[simp] theorem State.setWear_swap : (s.setWear k c).swap = s.swap := rfl
@[simp] theorem State.setWear_nvm : (s.setWear k c).nvm = s.nvm := rfl
@[simp] theorem State.setWear_hg : (s.setWear k c).hg = s.hg := rfl
@[simp] theorem State.setWear_ts : (s.setWear k c).ts = s.ts := rfl
@[simp] theorem State.setWear_power : (s.setWear k c).power = s.power := rfl
@[simp] theorem State.setWear_island : (s.setWear k c).island = { s.island with wear := s.island.wear.set (fun _ => 0) k c } := rfl
@[simp] theorem State.setWear_irqEvents : (s.setWear k c).irqEvents = s.irqEvents := rfl
@[simp] theorem State.setWear_start : (s.setWear k c).start = s.start := rfl
@[simp] theorem State.setWear_raised : (s.setWear k c).raised = s.raised := rfl
@[simp] theorem State.setWear_touched : (s.setWear k c).touched = s.touched := rfl
@[simp] theorem State.setWear_written : (s.setWear k c).written = s.written := rfl
@[simp] theorem State.setWear_rwNow : (s.setWear k c).rwNow = s.rwNow := rfl
@[simp] theorem State.setWear_rwNext : (s.setWear k c).rwNext = s.rwNext := rfl
@[simp] theorem State.setWear_wroteTick : (s.setWear k c).wroteTick = s.wroteTick := rfl
@[simp] theorem State.setWear_wrote : (s.setWear k c).wrote = s.wrote := rfl
@[simp] theorem State.setWear_was : (s.setWear k c).was = s.was := rfl
@[simp] theorem State.setWear_later : (s.setWear k c).later = s.later := rfl
@[simp] theorem State.setWear_takes : (s.setWear k c).takes = s.takes := rfl
@[simp] theorem State.setWear_hostData : (s.setWear k c).hostData = s.hostData := rfl
@[simp] theorem State.setWear_sent : (s.setWear k c).sent = s.sent := rfl
@[simp] theorem State.setWear_free : (s.setWear k c).free = s.free := rfl
@[simp] theorem State.setWear_pending : (s.setWear k c).pending = s.pending := rfl

end

/-! ### resWrite -/

section
variable (s : State) (a v n : Nat)

@[simp] theorem State.resWrite_mt : (s.resWrite a v n).mt = s.mt := rfl
@[simp] theorem State.resWrite_regs : (s.resWrite a v n).regs = s.regs := rfl
@[simp] theorem State.resWrite_reservoir : (s.resWrite a v n).reservoir = Memory.write s.reservoir a v n := rfl
@[simp] theorem State.resWrite_poison : (s.resWrite a v n).poison = s.poison := rfl
@[simp] theorem State.resWrite_localRam : (s.resWrite a v n).localRam = s.localRam := rfl
@[simp] theorem State.resWrite_ustore : (s.resWrite a v n).ustore = s.ustore := rfl
@[simp] theorem State.resWrite_chans : (s.resWrite a v n).chans = s.chans := rfl
@[simp] theorem State.resWrite_trips : (s.resWrite a v n).trips = s.trips := rfl
@[simp] theorem State.resWrite_mittens : (s.resWrite a v n).mittens = s.mittens := rfl
@[simp] theorem State.resWrite_pins : (s.resWrite a v n).pins = s.pins := rfl
@[simp] theorem State.resWrite_shafts : (s.resWrite a v n).shafts = s.shafts := rfl
@[simp] theorem State.resWrite_weirs : (s.resWrite a v n).weirs = s.weirs := rfl
@[simp] theorem State.resWrite_engines : (s.resWrite a v n).engines = s.engines := rfl
@[simp] theorem State.resWrite_threads : (s.resWrite a v n).threads = s.threads := rfl
@[simp] theorem State.resWrite_rings : (s.resWrite a v n).rings = s.rings := rfl
@[simp] theorem State.resWrite_ifaces : (s.resWrite a v n).ifaces = s.ifaces := rfl
@[simp] theorem State.resWrite_probes : (s.resWrite a v n).probes = s.probes := rfl
@[simp] theorem State.resWrite_pcmps : (s.resWrite a v n).pcmps = s.pcmps := rfl
@[simp] theorem State.resWrite_culverts : (s.resWrite a v n).culverts = s.culverts := rfl
@[simp] theorem State.resWrite_ports : (s.resWrite a v n).ports = s.ports := rfl
@[simp] theorem State.resWrite_exports : (s.resWrite a v n).exports = s.exports := rfl
@[simp] theorem State.resWrite_adc : (s.resWrite a v n).adc = s.adc := rfl
@[simp] theorem State.resWrite_cal : (s.resWrite a v n).cal = s.cal := rfl
@[simp] theorem State.resWrite_swap : (s.resWrite a v n).swap = s.swap := rfl
@[simp] theorem State.resWrite_nvm : (s.resWrite a v n).nvm = s.nvm := rfl
@[simp] theorem State.resWrite_hg : (s.resWrite a v n).hg = s.hg := rfl
@[simp] theorem State.resWrite_ts : (s.resWrite a v n).ts = s.ts := rfl
@[simp] theorem State.resWrite_power : (s.resWrite a v n).power = s.power := rfl
@[simp] theorem State.resWrite_island : (s.resWrite a v n).island = s.island := rfl
@[simp] theorem State.resWrite_irqEvents : (s.resWrite a v n).irqEvents = s.irqEvents := rfl
@[simp] theorem State.resWrite_start : (s.resWrite a v n).start = s.start := rfl
@[simp] theorem State.resWrite_raised : (s.resWrite a v n).raised = s.raised := rfl
@[simp] theorem State.resWrite_touched : (s.resWrite a v n).touched = s.touched := rfl
@[simp] theorem State.resWrite_written : (s.resWrite a v n).written = s.written := rfl
@[simp] theorem State.resWrite_rwNow : (s.resWrite a v n).rwNow = s.rwNow := rfl
@[simp] theorem State.resWrite_rwNext : (s.resWrite a v n).rwNext = s.rwNext := rfl
@[simp] theorem State.resWrite_wroteTick : (s.resWrite a v n).wroteTick = s.wroteTick := rfl
@[simp] theorem State.resWrite_wrote : (s.resWrite a v n).wrote = s.wrote := rfl
@[simp] theorem State.resWrite_was : (s.resWrite a v n).was = s.was := rfl
@[simp] theorem State.resWrite_later : (s.resWrite a v n).later = s.later := rfl
@[simp] theorem State.resWrite_takes : (s.resWrite a v n).takes = s.takes := rfl
@[simp] theorem State.resWrite_hostData : (s.resWrite a v n).hostData = s.hostData := rfl
@[simp] theorem State.resWrite_sent : (s.resWrite a v n).sent = s.sent := rfl
@[simp] theorem State.resWrite_free : (s.resWrite a v n).free = s.free := rfl
@[simp] theorem State.resWrite_pending : (s.resWrite a v n).pending = s.pending := rfl

end

/-! ### resWriteWords -/

section
variable (s : State) (a v n : Nat)

@[simp] theorem State.resWriteWords_mt : (s.resWriteWords a v n).mt = s.mt := rfl
@[simp] theorem State.resWriteWords_regs : (s.resWriteWords a v n).regs = s.regs := rfl
@[simp] theorem State.resWriteWords_reservoir : (s.resWriteWords a v n).reservoir = Memory.write s.reservoir a v (8 * n) := rfl
@[simp] theorem State.resWriteWords_localRam : (s.resWriteWords a v n).localRam = s.localRam := rfl
@[simp] theorem State.resWriteWords_ustore : (s.resWriteWords a v n).ustore = s.ustore := rfl
@[simp] theorem State.resWriteWords_chans : (s.resWriteWords a v n).chans = s.chans := rfl
@[simp] theorem State.resWriteWords_trips : (s.resWriteWords a v n).trips = s.trips := rfl
@[simp] theorem State.resWriteWords_mittens : (s.resWriteWords a v n).mittens = s.mittens := rfl
@[simp] theorem State.resWriteWords_pins : (s.resWriteWords a v n).pins = s.pins := rfl
@[simp] theorem State.resWriteWords_shafts : (s.resWriteWords a v n).shafts = s.shafts := rfl
@[simp] theorem State.resWriteWords_weirs : (s.resWriteWords a v n).weirs = s.weirs := rfl
@[simp] theorem State.resWriteWords_engines : (s.resWriteWords a v n).engines = s.engines := rfl
@[simp] theorem State.resWriteWords_threads : (s.resWriteWords a v n).threads = s.threads := rfl
@[simp] theorem State.resWriteWords_rings : (s.resWriteWords a v n).rings = s.rings := rfl
@[simp] theorem State.resWriteWords_ifaces : (s.resWriteWords a v n).ifaces = s.ifaces := rfl
@[simp] theorem State.resWriteWords_probes : (s.resWriteWords a v n).probes = s.probes := rfl
@[simp] theorem State.resWriteWords_pcmps : (s.resWriteWords a v n).pcmps = s.pcmps := rfl
@[simp] theorem State.resWriteWords_culverts : (s.resWriteWords a v n).culverts = s.culverts := rfl
@[simp] theorem State.resWriteWords_ports : (s.resWriteWords a v n).ports = s.ports := rfl
@[simp] theorem State.resWriteWords_exports : (s.resWriteWords a v n).exports = s.exports := rfl
@[simp] theorem State.resWriteWords_adc : (s.resWriteWords a v n).adc = s.adc := rfl
@[simp] theorem State.resWriteWords_cal : (s.resWriteWords a v n).cal = s.cal := rfl
@[simp] theorem State.resWriteWords_swap : (s.resWriteWords a v n).swap = s.swap := rfl
@[simp] theorem State.resWriteWords_nvm : (s.resWriteWords a v n).nvm = s.nvm := rfl
@[simp] theorem State.resWriteWords_hg : (s.resWriteWords a v n).hg = s.hg := rfl
@[simp] theorem State.resWriteWords_ts : (s.resWriteWords a v n).ts = s.ts := rfl
@[simp] theorem State.resWriteWords_power : (s.resWriteWords a v n).power = s.power := rfl
@[simp] theorem State.resWriteWords_island : (s.resWriteWords a v n).island = s.island := rfl
@[simp] theorem State.resWriteWords_irqEvents : (s.resWriteWords a v n).irqEvents = s.irqEvents := rfl
@[simp] theorem State.resWriteWords_start : (s.resWriteWords a v n).start = s.start := rfl
@[simp] theorem State.resWriteWords_raised : (s.resWriteWords a v n).raised = s.raised := rfl
@[simp] theorem State.resWriteWords_touched : (s.resWriteWords a v n).touched = s.touched := rfl
@[simp] theorem State.resWriteWords_written : (s.resWriteWords a v n).written = s.written := rfl
@[simp] theorem State.resWriteWords_rwNow : (s.resWriteWords a v n).rwNow = s.rwNow := rfl
@[simp] theorem State.resWriteWords_rwNext : (s.resWriteWords a v n).rwNext = s.rwNext := rfl
@[simp] theorem State.resWriteWords_wroteTick : (s.resWriteWords a v n).wroteTick = s.wroteTick := rfl
@[simp] theorem State.resWriteWords_wrote : (s.resWriteWords a v n).wrote = s.wrote := rfl
@[simp] theorem State.resWriteWords_was : (s.resWriteWords a v n).was = s.was := rfl
@[simp] theorem State.resWriteWords_later : (s.resWriteWords a v n).later = s.later := rfl
@[simp] theorem State.resWriteWords_takes : (s.resWriteWords a v n).takes = s.takes := rfl
@[simp] theorem State.resWriteWords_hostData : (s.resWriteWords a v n).hostData = s.hostData := rfl
@[simp] theorem State.resWriteWords_sent : (s.resWriteWords a v n).sent = s.sent := rfl
@[simp] theorem State.resWriteWords_free : (s.resWriteWords a v n).free = s.free := rfl
@[simp] theorem State.resWriteWords_pending : (s.resWriteWords a v n).pending = s.pending := rfl

end

/-! ### useFree -/

section
variable (s : State)

@[simp] theorem State.useFree_mt : (s.useFree).mt = s.mt := rfl
@[simp] theorem State.useFree_regs : (s.useFree).regs = s.regs := rfl
@[simp] theorem State.useFree_reservoir : (s.useFree).reservoir = s.reservoir := rfl
@[simp] theorem State.useFree_poison : (s.useFree).poison = s.poison := rfl
@[simp] theorem State.useFree_localRam : (s.useFree).localRam = s.localRam := rfl
@[simp] theorem State.useFree_ustore : (s.useFree).ustore = s.ustore := rfl
@[simp] theorem State.useFree_chans : (s.useFree).chans = s.chans := rfl
@[simp] theorem State.useFree_trips : (s.useFree).trips = s.trips := rfl
@[simp] theorem State.useFree_mittens : (s.useFree).mittens = s.mittens := rfl
@[simp] theorem State.useFree_pins : (s.useFree).pins = s.pins := rfl
@[simp] theorem State.useFree_shafts : (s.useFree).shafts = s.shafts := rfl
@[simp] theorem State.useFree_weirs : (s.useFree).weirs = s.weirs := rfl
@[simp] theorem State.useFree_engines : (s.useFree).engines = s.engines := rfl
@[simp] theorem State.useFree_threads : (s.useFree).threads = s.threads := rfl
@[simp] theorem State.useFree_rings : (s.useFree).rings = s.rings := rfl
@[simp] theorem State.useFree_ifaces : (s.useFree).ifaces = s.ifaces := rfl
@[simp] theorem State.useFree_probes : (s.useFree).probes = s.probes := rfl
@[simp] theorem State.useFree_pcmps : (s.useFree).pcmps = s.pcmps := rfl
@[simp] theorem State.useFree_culverts : (s.useFree).culverts = s.culverts := rfl
@[simp] theorem State.useFree_ports : (s.useFree).ports = s.ports := rfl
@[simp] theorem State.useFree_exports : (s.useFree).exports = s.exports := rfl
@[simp] theorem State.useFree_adc : (s.useFree).adc = s.adc := rfl
@[simp] theorem State.useFree_cal : (s.useFree).cal = s.cal := rfl
@[simp] theorem State.useFree_swap : (s.useFree).swap = s.swap := rfl
@[simp] theorem State.useFree_nvm : (s.useFree).nvm = s.nvm := rfl
@[simp] theorem State.useFree_hg : (s.useFree).hg = s.hg := rfl
@[simp] theorem State.useFree_ts : (s.useFree).ts = s.ts := rfl
@[simp] theorem State.useFree_power : (s.useFree).power = s.power := rfl
@[simp] theorem State.useFree_island : (s.useFree).island = s.island := rfl
@[simp] theorem State.useFree_irqEvents : (s.useFree).irqEvents = s.irqEvents := rfl
@[simp] theorem State.useFree_start : (s.useFree).start = s.start := rfl
@[simp] theorem State.useFree_raised : (s.useFree).raised = s.raised := rfl
@[simp] theorem State.useFree_touched : (s.useFree).touched = s.touched := rfl
@[simp] theorem State.useFree_written : (s.useFree).written = s.written := rfl
@[simp] theorem State.useFree_rwNow : (s.useFree).rwNow = s.rwNow := rfl
@[simp] theorem State.useFree_rwNext : (s.useFree).rwNext = s.rwNext := rfl
@[simp] theorem State.useFree_wroteTick : (s.useFree).wroteTick = s.wroteTick := rfl
@[simp] theorem State.useFree_wrote : (s.useFree).wrote = s.wrote := rfl
@[simp] theorem State.useFree_was : (s.useFree).was = s.was := rfl
@[simp] theorem State.useFree_later : (s.useFree).later = s.later := rfl
@[simp] theorem State.useFree_takes : (s.useFree).takes = s.takes := rfl
@[simp] theorem State.useFree_hostData : (s.useFree).hostData = s.hostData := rfl
@[simp] theorem State.useFree_sent : (s.useFree).sent = s.sent := rfl
@[simp] theorem State.useFree_free : (s.useFree).free = s.free + 1 := rfl
@[simp] theorem State.useFree_pending : (s.useFree).pending = s.pending := rfl

end

/-! ### deliver -/

section
variable (s : State) (i : Nat) (b : Option Nat)

@[simp] theorem State.deliver_mt : (s.deliver i b).mt = s.mt := rfl
@[simp] theorem State.deliver_regs : (s.deliver i b).regs = s.regs := rfl
@[simp] theorem State.deliver_reservoir : (s.deliver i b).reservoir = s.reservoir := rfl
@[simp] theorem State.deliver_poison : (s.deliver i b).poison = s.poison := rfl
@[simp] theorem State.deliver_localRam : (s.deliver i b).localRam = s.localRam := rfl
@[simp] theorem State.deliver_ustore : (s.deliver i b).ustore = s.ustore := rfl
@[simp] theorem State.deliver_chans : (s.deliver i b).chans = s.chans := rfl
@[simp] theorem State.deliver_trips : (s.deliver i b).trips = s.trips := rfl
@[simp] theorem State.deliver_mittens : (s.deliver i b).mittens = s.mittens := rfl
@[simp] theorem State.deliver_pins : (s.deliver i b).pins = s.pins := rfl
@[simp] theorem State.deliver_shafts : (s.deliver i b).shafts = s.shafts := rfl
@[simp] theorem State.deliver_weirs : (s.deliver i b).weirs = s.weirs := rfl
@[simp] theorem State.deliver_engines : (s.deliver i b).engines = s.engines := rfl
@[simp] theorem State.deliver_threads : (s.deliver i b).threads = s.threads := rfl
@[simp] theorem State.deliver_rings : (s.deliver i b).rings = s.rings := rfl
@[simp] theorem State.deliver_ifaces : (s.deliver i b).ifaces = s.ifaces := rfl
@[simp] theorem State.deliver_probes : (s.deliver i b).probes = s.probes := rfl
@[simp] theorem State.deliver_pcmps : (s.deliver i b).pcmps = s.pcmps := rfl
@[simp] theorem State.deliver_culverts : (s.deliver i b).culverts = s.culverts := rfl
@[simp] theorem State.deliver_ports : (s.deliver i b).ports = s.ports := rfl
@[simp] theorem State.deliver_exports : (s.deliver i b).exports = s.exports := rfl
@[simp] theorem State.deliver_adc : (s.deliver i b).adc = s.adc := rfl
@[simp] theorem State.deliver_cal : (s.deliver i b).cal = s.cal := rfl
@[simp] theorem State.deliver_swap : (s.deliver i b).swap = s.swap := rfl
@[simp] theorem State.deliver_nvm : (s.deliver i b).nvm = s.nvm := rfl
@[simp] theorem State.deliver_hg : (s.deliver i b).hg = s.hg := rfl
@[simp] theorem State.deliver_ts : (s.deliver i b).ts = s.ts := rfl
@[simp] theorem State.deliver_power : (s.deliver i b).power = s.power := rfl
@[simp] theorem State.deliver_island : (s.deliver i b).island = s.island := rfl
@[simp] theorem State.deliver_start : (s.deliver i b).start = s.start := rfl
@[simp] theorem State.deliver_raised : (s.deliver i b).raised = s.raised := rfl
@[simp] theorem State.deliver_touched : (s.deliver i b).touched = s.touched := rfl
@[simp] theorem State.deliver_written : (s.deliver i b).written = s.written := rfl
@[simp] theorem State.deliver_rwNow : (s.deliver i b).rwNow = s.rwNow := rfl
@[simp] theorem State.deliver_rwNext : (s.deliver i b).rwNext = s.rwNext := rfl
@[simp] theorem State.deliver_wroteTick : (s.deliver i b).wroteTick = s.wroteTick := rfl
@[simp] theorem State.deliver_wrote : (s.deliver i b).wrote = s.wrote := rfl
@[simp] theorem State.deliver_was : (s.deliver i b).was = s.was := rfl
@[simp] theorem State.deliver_later : (s.deliver i b).later = s.later := rfl
@[simp] theorem State.deliver_takes : (s.deliver i b).takes = s.takes := rfl
@[simp] theorem State.deliver_hostData : (s.deliver i b).hostData = s.hostData := rfl
@[simp] theorem State.deliver_sent : (s.deliver i b).sent = s.sent := rfl
@[simp] theorem State.deliver_free : (s.deliver i b).free = s.free := rfl
@[simp] theorem State.deliver_pending : (s.deliver i b).pending = s.pending := rfl

end

/-! ### send -/

section
variable (s : State) (m : Sent)

@[simp] theorem State.send_mt : (s.send m).mt = s.mt := rfl
@[simp] theorem State.send_regs : (s.send m).regs = s.regs := rfl
@[simp] theorem State.send_reservoir : (s.send m).reservoir = s.reservoir := rfl
@[simp] theorem State.send_poison : (s.send m).poison = s.poison := rfl
@[simp] theorem State.send_localRam : (s.send m).localRam = s.localRam := rfl
@[simp] theorem State.send_ustore : (s.send m).ustore = s.ustore := rfl
@[simp] theorem State.send_chans : (s.send m).chans = s.chans := rfl
@[simp] theorem State.send_trips : (s.send m).trips = s.trips := rfl
@[simp] theorem State.send_mittens : (s.send m).mittens = s.mittens := rfl
@[simp] theorem State.send_pins : (s.send m).pins = s.pins := rfl
@[simp] theorem State.send_shafts : (s.send m).shafts = s.shafts := rfl
@[simp] theorem State.send_weirs : (s.send m).weirs = s.weirs := rfl
@[simp] theorem State.send_engines : (s.send m).engines = s.engines := rfl
@[simp] theorem State.send_threads : (s.send m).threads = s.threads := rfl
@[simp] theorem State.send_rings : (s.send m).rings = s.rings := rfl
@[simp] theorem State.send_ifaces : (s.send m).ifaces = s.ifaces := rfl
@[simp] theorem State.send_probes : (s.send m).probes = s.probes := rfl
@[simp] theorem State.send_pcmps : (s.send m).pcmps = s.pcmps := rfl
@[simp] theorem State.send_culverts : (s.send m).culverts = s.culverts := rfl
@[simp] theorem State.send_ports : (s.send m).ports = s.ports := rfl
@[simp] theorem State.send_exports : (s.send m).exports = s.exports := rfl
@[simp] theorem State.send_adc : (s.send m).adc = s.adc := rfl
@[simp] theorem State.send_cal : (s.send m).cal = s.cal := rfl
@[simp] theorem State.send_swap : (s.send m).swap = s.swap := rfl
@[simp] theorem State.send_nvm : (s.send m).nvm = s.nvm := rfl
@[simp] theorem State.send_hg : (s.send m).hg = s.hg := rfl
@[simp] theorem State.send_ts : (s.send m).ts = s.ts := rfl
@[simp] theorem State.send_power : (s.send m).power = s.power := rfl
@[simp] theorem State.send_island : (s.send m).island = s.island := rfl
@[simp] theorem State.send_irqEvents : (s.send m).irqEvents = s.irqEvents := rfl
@[simp] theorem State.send_start : (s.send m).start = s.start := rfl
@[simp] theorem State.send_raised : (s.send m).raised = s.raised := rfl
@[simp] theorem State.send_touched : (s.send m).touched = s.touched := rfl
@[simp] theorem State.send_written : (s.send m).written = s.written := rfl
@[simp] theorem State.send_rwNow : (s.send m).rwNow = s.rwNow := rfl
@[simp] theorem State.send_rwNext : (s.send m).rwNext = s.rwNext := rfl
@[simp] theorem State.send_wroteTick : (s.send m).wroteTick = s.wroteTick := rfl
@[simp] theorem State.send_wrote : (s.send m).wrote = s.wrote := rfl
@[simp] theorem State.send_was : (s.send m).was = s.was := rfl
@[simp] theorem State.send_later : (s.send m).later = s.later := rfl
@[simp] theorem State.send_takes : (s.send m).takes = s.takes := rfl
@[simp] theorem State.send_hostData : (s.send m).hostData = s.hostData := rfl
@[simp] theorem State.send_sent : (s.send m).sent = s.sent ++ [m] := rfl
@[simp] theorem State.send_free : (s.send m).free = s.free := rfl
@[simp] theorem State.send_pending : (s.send m).pending = s.pending := rfl

end

/-! ### noteWrote -/

section
variable (s : State) (a : Nat)

@[simp] theorem State.noteWrote_mt : (s.noteWrote a).mt = s.mt := rfl
@[simp] theorem State.noteWrote_regs : (s.noteWrote a).regs = s.regs := rfl
@[simp] theorem State.noteWrote_reservoir : (s.noteWrote a).reservoir = s.reservoir := rfl
@[simp] theorem State.noteWrote_poison : (s.noteWrote a).poison = s.poison := rfl
@[simp] theorem State.noteWrote_localRam : (s.noteWrote a).localRam = s.localRam := rfl
@[simp] theorem State.noteWrote_ustore : (s.noteWrote a).ustore = s.ustore := rfl
@[simp] theorem State.noteWrote_chans : (s.noteWrote a).chans = s.chans := rfl
@[simp] theorem State.noteWrote_trips : (s.noteWrote a).trips = s.trips := rfl
@[simp] theorem State.noteWrote_mittens : (s.noteWrote a).mittens = s.mittens := rfl
@[simp] theorem State.noteWrote_pins : (s.noteWrote a).pins = s.pins := rfl
@[simp] theorem State.noteWrote_shafts : (s.noteWrote a).shafts = s.shafts := rfl
@[simp] theorem State.noteWrote_weirs : (s.noteWrote a).weirs = s.weirs := rfl
@[simp] theorem State.noteWrote_engines : (s.noteWrote a).engines = s.engines := rfl
@[simp] theorem State.noteWrote_threads : (s.noteWrote a).threads = s.threads := rfl
@[simp] theorem State.noteWrote_rings : (s.noteWrote a).rings = s.rings := rfl
@[simp] theorem State.noteWrote_ifaces : (s.noteWrote a).ifaces = s.ifaces := rfl
@[simp] theorem State.noteWrote_probes : (s.noteWrote a).probes = s.probes := rfl
@[simp] theorem State.noteWrote_pcmps : (s.noteWrote a).pcmps = s.pcmps := rfl
@[simp] theorem State.noteWrote_culverts : (s.noteWrote a).culverts = s.culverts := rfl
@[simp] theorem State.noteWrote_ports : (s.noteWrote a).ports = s.ports := rfl
@[simp] theorem State.noteWrote_exports : (s.noteWrote a).exports = s.exports := rfl
@[simp] theorem State.noteWrote_adc : (s.noteWrote a).adc = s.adc := rfl
@[simp] theorem State.noteWrote_cal : (s.noteWrote a).cal = s.cal := rfl
@[simp] theorem State.noteWrote_swap : (s.noteWrote a).swap = s.swap := rfl
@[simp] theorem State.noteWrote_nvm : (s.noteWrote a).nvm = s.nvm := rfl
@[simp] theorem State.noteWrote_hg : (s.noteWrote a).hg = s.hg := rfl
@[simp] theorem State.noteWrote_ts : (s.noteWrote a).ts = s.ts := rfl
@[simp] theorem State.noteWrote_power : (s.noteWrote a).power = s.power := rfl
@[simp] theorem State.noteWrote_island : (s.noteWrote a).island = s.island := rfl
@[simp] theorem State.noteWrote_irqEvents : (s.noteWrote a).irqEvents = s.irqEvents := rfl
@[simp] theorem State.noteWrote_start : (s.noteWrote a).start = s.start := rfl
@[simp] theorem State.noteWrote_raised : (s.noteWrote a).raised = s.raised := rfl
@[simp] theorem State.noteWrote_touched : (s.noteWrote a).touched = s.touched := rfl
@[simp] theorem State.noteWrote_written : (s.noteWrote a).written = s.written := rfl
@[simp] theorem State.noteWrote_rwNow : (s.noteWrote a).rwNow = s.rwNow := rfl
@[simp] theorem State.noteWrote_rwNext : (s.noteWrote a).rwNext = s.rwNext := rfl
@[simp] theorem State.noteWrote_wroteTick : (s.noteWrote a).wroteTick = s.mt := rfl
@[simp] theorem State.noteWrote_was : (s.noteWrote a).was = s.was := rfl
@[simp] theorem State.noteWrote_later : (s.noteWrote a).later = s.later := rfl
@[simp] theorem State.noteWrote_takes : (s.noteWrote a).takes = s.takes := rfl
@[simp] theorem State.noteWrote_hostData : (s.noteWrote a).hostData = s.hostData := rfl
@[simp] theorem State.noteWrote_sent : (s.noteWrote a).sent = s.sent := rfl
@[simp] theorem State.noteWrote_free : (s.noteWrote a).free = s.free := rfl
@[simp] theorem State.noteWrote_pending : (s.noteWrote a).pending = s.pending := rfl

end

/-! ### noteHost -/

section
variable (s : State) (a : Nat)

@[simp] theorem State.noteHost_mt : (s.noteHost a).mt = s.mt := rfl
@[simp] theorem State.noteHost_regs : (s.noteHost a).regs = s.regs := rfl
@[simp] theorem State.noteHost_reservoir : (s.noteHost a).reservoir = s.reservoir := rfl
@[simp] theorem State.noteHost_poison : (s.noteHost a).poison = s.poison := rfl
@[simp] theorem State.noteHost_localRam : (s.noteHost a).localRam = s.localRam := rfl
@[simp] theorem State.noteHost_ustore : (s.noteHost a).ustore = s.ustore := rfl
@[simp] theorem State.noteHost_chans : (s.noteHost a).chans = s.chans := rfl
@[simp] theorem State.noteHost_trips : (s.noteHost a).trips = s.trips := rfl
@[simp] theorem State.noteHost_mittens : (s.noteHost a).mittens = s.mittens := rfl
@[simp] theorem State.noteHost_pins : (s.noteHost a).pins = s.pins := rfl
@[simp] theorem State.noteHost_shafts : (s.noteHost a).shafts = s.shafts := rfl
@[simp] theorem State.noteHost_weirs : (s.noteHost a).weirs = s.weirs := rfl
@[simp] theorem State.noteHost_engines : (s.noteHost a).engines = s.engines := rfl
@[simp] theorem State.noteHost_threads : (s.noteHost a).threads = s.threads := rfl
@[simp] theorem State.noteHost_rings : (s.noteHost a).rings = s.rings := rfl
@[simp] theorem State.noteHost_ifaces : (s.noteHost a).ifaces = s.ifaces := rfl
@[simp] theorem State.noteHost_probes : (s.noteHost a).probes = s.probes := rfl
@[simp] theorem State.noteHost_pcmps : (s.noteHost a).pcmps = s.pcmps := rfl
@[simp] theorem State.noteHost_culverts : (s.noteHost a).culverts = s.culverts := rfl
@[simp] theorem State.noteHost_ports : (s.noteHost a).ports = s.ports := rfl
@[simp] theorem State.noteHost_exports : (s.noteHost a).exports = s.exports := rfl
@[simp] theorem State.noteHost_adc : (s.noteHost a).adc = s.adc := rfl
@[simp] theorem State.noteHost_cal : (s.noteHost a).cal = s.cal := rfl
@[simp] theorem State.noteHost_swap : (s.noteHost a).swap = s.swap := rfl
@[simp] theorem State.noteHost_nvm : (s.noteHost a).nvm = s.nvm := rfl
@[simp] theorem State.noteHost_hg : (s.noteHost a).hg = s.hg := rfl
@[simp] theorem State.noteHost_ts : (s.noteHost a).ts = s.ts := rfl
@[simp] theorem State.noteHost_power : (s.noteHost a).power = s.power := rfl
@[simp] theorem State.noteHost_island : (s.noteHost a).island = s.island := rfl
@[simp] theorem State.noteHost_irqEvents : (s.noteHost a).irqEvents = s.irqEvents := rfl
@[simp] theorem State.noteHost_start : (s.noteHost a).start = s.start := rfl
@[simp] theorem State.noteHost_raised : (s.noteHost a).raised = s.raised := rfl
@[simp] theorem State.noteHost_touched : (s.noteHost a).touched = s.touched := rfl
@[simp] theorem State.noteHost_written : (s.noteHost a).written = a :: s.written := rfl
@[simp] theorem State.noteHost_rwNow : (s.noteHost a).rwNow = s.rwNow := rfl
@[simp] theorem State.noteHost_wroteTick : (s.noteHost a).wroteTick = s.mt := rfl
@[simp] theorem State.noteHost_was : (s.noteHost a).was = s.was := rfl
@[simp] theorem State.noteHost_later : (s.noteHost a).later = s.later := rfl
@[simp] theorem State.noteHost_takes : (s.noteHost a).takes = s.takes := rfl
@[simp] theorem State.noteHost_hostData : (s.noteHost a).hostData = s.hostData := rfl
@[simp] theorem State.noteHost_sent : (s.noteHost a).sent = s.sent := rfl
@[simp] theorem State.noteHost_free : (s.noteHost a).free = s.free := rfl
@[simp] theorem State.noteHost_pending : (s.noteHost a).pending = s.pending := rfl

end

/-! ### noteHw -/

section
variable (s : State) (a i : Nat) (b : Bool)

@[simp] theorem State.noteHw_mt : (s.noteHw a i b).mt = s.mt := rfl
@[simp] theorem State.noteHw_regs : (s.noteHw a i b).regs = s.regs := rfl
@[simp] theorem State.noteHw_reservoir : (s.noteHw a i b).reservoir = s.reservoir := rfl
@[simp] theorem State.noteHw_poison : (s.noteHw a i b).poison = s.poison := rfl
@[simp] theorem State.noteHw_localRam : (s.noteHw a i b).localRam = s.localRam := rfl
@[simp] theorem State.noteHw_ustore : (s.noteHw a i b).ustore = s.ustore := rfl
@[simp] theorem State.noteHw_chans : (s.noteHw a i b).chans = s.chans := rfl
@[simp] theorem State.noteHw_trips : (s.noteHw a i b).trips = s.trips := rfl
@[simp] theorem State.noteHw_mittens : (s.noteHw a i b).mittens = s.mittens := rfl
@[simp] theorem State.noteHw_pins : (s.noteHw a i b).pins = s.pins := rfl
@[simp] theorem State.noteHw_shafts : (s.noteHw a i b).shafts = s.shafts := rfl
@[simp] theorem State.noteHw_weirs : (s.noteHw a i b).weirs = s.weirs := rfl
@[simp] theorem State.noteHw_engines : (s.noteHw a i b).engines = s.engines := rfl
@[simp] theorem State.noteHw_threads : (s.noteHw a i b).threads = s.threads := rfl
@[simp] theorem State.noteHw_rings : (s.noteHw a i b).rings = s.rings := rfl
@[simp] theorem State.noteHw_ifaces : (s.noteHw a i b).ifaces = s.ifaces := rfl
@[simp] theorem State.noteHw_probes : (s.noteHw a i b).probes = s.probes := rfl
@[simp] theorem State.noteHw_pcmps : (s.noteHw a i b).pcmps = s.pcmps := rfl
@[simp] theorem State.noteHw_culverts : (s.noteHw a i b).culverts = s.culverts := rfl
@[simp] theorem State.noteHw_ports : (s.noteHw a i b).ports = s.ports := rfl
@[simp] theorem State.noteHw_exports : (s.noteHw a i b).exports = s.exports := rfl
@[simp] theorem State.noteHw_adc : (s.noteHw a i b).adc = s.adc := rfl
@[simp] theorem State.noteHw_cal : (s.noteHw a i b).cal = s.cal := rfl
@[simp] theorem State.noteHw_swap : (s.noteHw a i b).swap = s.swap := rfl
@[simp] theorem State.noteHw_nvm : (s.noteHw a i b).nvm = s.nvm := rfl
@[simp] theorem State.noteHw_hg : (s.noteHw a i b).hg = s.hg := rfl
@[simp] theorem State.noteHw_ts : (s.noteHw a i b).ts = s.ts := rfl
@[simp] theorem State.noteHw_power : (s.noteHw a i b).power = s.power := rfl
@[simp] theorem State.noteHw_island : (s.noteHw a i b).island = s.island := rfl
@[simp] theorem State.noteHw_irqEvents : (s.noteHw a i b).irqEvents = s.irqEvents := rfl
@[simp] theorem State.noteHw_start : (s.noteHw a i b).start = s.start := rfl
@[simp] theorem State.noteHw_raised : (s.noteHw a i b).raised = { addr := a, bit := i, tick := s.mt, fresh := b } :: s.raised := rfl
@[simp] theorem State.noteHw_touched : (s.noteHw a i b).touched = s.touched := rfl
@[simp] theorem State.noteHw_written : (s.noteHw a i b).written = s.written := rfl
@[simp] theorem State.noteHw_rwNow : (s.noteHw a i b).rwNow = s.rwNow := rfl
@[simp] theorem State.noteHw_rwNext : (s.noteHw a i b).rwNext = s.rwNext := rfl
@[simp] theorem State.noteHw_wroteTick : (s.noteHw a i b).wroteTick = s.wroteTick := rfl
@[simp] theorem State.noteHw_wrote : (s.noteHw a i b).wrote = s.wrote := rfl
@[simp] theorem State.noteHw_was : (s.noteHw a i b).was = s.was := rfl
@[simp] theorem State.noteHw_later : (s.noteHw a i b).later = s.later := rfl
@[simp] theorem State.noteHw_takes : (s.noteHw a i b).takes = s.takes := rfl
@[simp] theorem State.noteHw_hostData : (s.noteHw a i b).hostData = s.hostData := rfl
@[simp] theorem State.noteHw_sent : (s.noteHw a i b).sent = s.sent := rfl
@[simp] theorem State.noteHw_free : (s.noteHw a i b).free = s.free := rfl
@[simp] theorem State.noteHw_pending : (s.noteHw a i b).pending = s.pending := rfl

end

/-! ### raise -/

section
variable (s : State) (a i : Nat)

@[simp] theorem State.raise_mt : (s.raise a i).mt = s.mt := rfl
@[simp] theorem State.raise_regs : (s.raise a i).regs = s.regs.set resetWord a (putBit (s.reg a) i true) := rfl
@[simp] theorem State.raise_reservoir : (s.raise a i).reservoir = s.reservoir := rfl
@[simp] theorem State.raise_poison : (s.raise a i).poison = s.poison := rfl
@[simp] theorem State.raise_localRam : (s.raise a i).localRam = s.localRam := rfl
@[simp] theorem State.raise_ustore : (s.raise a i).ustore = s.ustore := rfl
@[simp] theorem State.raise_chans : (s.raise a i).chans = s.chans := rfl
@[simp] theorem State.raise_trips : (s.raise a i).trips = s.trips := rfl
@[simp] theorem State.raise_mittens : (s.raise a i).mittens = s.mittens := rfl
@[simp] theorem State.raise_pins : (s.raise a i).pins = s.pins := rfl
@[simp] theorem State.raise_shafts : (s.raise a i).shafts = s.shafts := rfl
@[simp] theorem State.raise_weirs : (s.raise a i).weirs = s.weirs := rfl
@[simp] theorem State.raise_engines : (s.raise a i).engines = s.engines := rfl
@[simp] theorem State.raise_threads : (s.raise a i).threads = s.threads := rfl
@[simp] theorem State.raise_rings : (s.raise a i).rings = s.rings := rfl
@[simp] theorem State.raise_ifaces : (s.raise a i).ifaces = s.ifaces := rfl
@[simp] theorem State.raise_probes : (s.raise a i).probes = s.probes := rfl
@[simp] theorem State.raise_pcmps : (s.raise a i).pcmps = s.pcmps := rfl
@[simp] theorem State.raise_culverts : (s.raise a i).culverts = s.culverts := rfl
@[simp] theorem State.raise_ports : (s.raise a i).ports = s.ports := rfl
@[simp] theorem State.raise_exports : (s.raise a i).exports = s.exports := rfl
@[simp] theorem State.raise_adc : (s.raise a i).adc = s.adc := rfl
@[simp] theorem State.raise_cal : (s.raise a i).cal = s.cal := rfl
@[simp] theorem State.raise_swap : (s.raise a i).swap = s.swap := rfl
@[simp] theorem State.raise_nvm : (s.raise a i).nvm = s.nvm := rfl
@[simp] theorem State.raise_hg : (s.raise a i).hg = s.hg := rfl
@[simp] theorem State.raise_ts : (s.raise a i).ts = s.ts := rfl
@[simp] theorem State.raise_power : (s.raise a i).power = s.power := rfl
@[simp] theorem State.raise_island : (s.raise a i).island = s.island := rfl
@[simp] theorem State.raise_irqEvents : (s.raise a i).irqEvents = s.irqEvents := rfl
@[simp] theorem State.raise_start : (s.raise a i).start = s.start := rfl
@[simp] theorem State.raise_raised : (s.raise a i).raised = { addr := a, bit := i, tick := s.mt, fresh := !s.bit a i } :: s.raised := rfl
@[simp] theorem State.raise_touched : (s.raise a i).touched = s.touched := rfl
@[simp] theorem State.raise_written : (s.raise a i).written = s.written := rfl
@[simp] theorem State.raise_rwNow : (s.raise a i).rwNow = s.rwNow := rfl
@[simp] theorem State.raise_rwNext : (s.raise a i).rwNext = s.rwNext := rfl
@[simp] theorem State.raise_wroteTick : (s.raise a i).wroteTick = s.wroteTick := rfl
@[simp] theorem State.raise_wrote : (s.raise a i).wrote = s.wrote := rfl
@[simp] theorem State.raise_was : (s.raise a i).was = s.was := rfl
@[simp] theorem State.raise_later : (s.raise a i).later = s.later := rfl
@[simp] theorem State.raise_takes : (s.raise a i).takes = s.takes := rfl
@[simp] theorem State.raise_hostData : (s.raise a i).hostData = s.hostData := rfl
@[simp] theorem State.raise_sent : (s.raise a i).sent = s.sent := rfl
@[simp] theorem State.raise_free : (s.raise a i).free = s.free := rfl
@[simp] theorem State.raise_pending : (s.raise a i).pending = s.pending := rfl

end

/-! ### setNext -/

section
variable (s : State) (a : Nat) (v : Word)

@[simp] theorem State.setNext_mt : (s.setNext a v).mt = s.mt := rfl
@[simp] theorem State.setNext_regs : (s.setNext a v).regs = s.regs.set resetWord a v := rfl
@[simp] theorem State.setNext_reservoir : (s.setNext a v).reservoir = s.reservoir := rfl
@[simp] theorem State.setNext_poison : (s.setNext a v).poison = s.poison := rfl
@[simp] theorem State.setNext_localRam : (s.setNext a v).localRam = s.localRam := rfl
@[simp] theorem State.setNext_ustore : (s.setNext a v).ustore = s.ustore := rfl
@[simp] theorem State.setNext_chans : (s.setNext a v).chans = s.chans := rfl
@[simp] theorem State.setNext_trips : (s.setNext a v).trips = s.trips := rfl
@[simp] theorem State.setNext_mittens : (s.setNext a v).mittens = s.mittens := rfl
@[simp] theorem State.setNext_pins : (s.setNext a v).pins = s.pins := rfl
@[simp] theorem State.setNext_shafts : (s.setNext a v).shafts = s.shafts := rfl
@[simp] theorem State.setNext_weirs : (s.setNext a v).weirs = s.weirs := rfl
@[simp] theorem State.setNext_engines : (s.setNext a v).engines = s.engines := rfl
@[simp] theorem State.setNext_threads : (s.setNext a v).threads = s.threads := rfl
@[simp] theorem State.setNext_rings : (s.setNext a v).rings = s.rings := rfl
@[simp] theorem State.setNext_ifaces : (s.setNext a v).ifaces = s.ifaces := rfl
@[simp] theorem State.setNext_probes : (s.setNext a v).probes = s.probes := rfl
@[simp] theorem State.setNext_pcmps : (s.setNext a v).pcmps = s.pcmps := rfl
@[simp] theorem State.setNext_culverts : (s.setNext a v).culverts = s.culverts := rfl
@[simp] theorem State.setNext_ports : (s.setNext a v).ports = s.ports := rfl
@[simp] theorem State.setNext_exports : (s.setNext a v).exports = s.exports := rfl
@[simp] theorem State.setNext_adc : (s.setNext a v).adc = s.adc := rfl
@[simp] theorem State.setNext_cal : (s.setNext a v).cal = s.cal := rfl
@[simp] theorem State.setNext_swap : (s.setNext a v).swap = s.swap := rfl
@[simp] theorem State.setNext_nvm : (s.setNext a v).nvm = s.nvm := rfl
@[simp] theorem State.setNext_hg : (s.setNext a v).hg = s.hg := rfl
@[simp] theorem State.setNext_ts : (s.setNext a v).ts = s.ts := rfl
@[simp] theorem State.setNext_power : (s.setNext a v).power = s.power := rfl
@[simp] theorem State.setNext_island : (s.setNext a v).island = s.island := rfl
@[simp] theorem State.setNext_irqEvents : (s.setNext a v).irqEvents = s.irqEvents := rfl
@[simp] theorem State.setNext_start : (s.setNext a v).start = s.start := rfl
@[simp] theorem State.setNext_raised : (s.setNext a v).raised = s.raised := rfl
@[simp] theorem State.setNext_touched : (s.setNext a v).touched = s.touched := rfl
@[simp] theorem State.setNext_written : (s.setNext a v).written = s.written := rfl
@[simp] theorem State.setNext_rwNow : (s.setNext a v).rwNow = s.rwNow := rfl
@[simp] theorem State.setNext_rwNext : (s.setNext a v).rwNext = s.rwNext := rfl
@[simp] theorem State.setNext_wroteTick : (s.setNext a v).wroteTick = s.wroteTick := rfl
@[simp] theorem State.setNext_wrote : (s.setNext a v).wrote = s.wrote := rfl
@[simp] theorem State.setNext_was : (s.setNext a v).was = Table.put s.was a (s.prior a) := rfl
@[simp] theorem State.setNext_later : (s.setNext a v).later = s.later := rfl
@[simp] theorem State.setNext_takes : (s.setNext a v).takes = s.takes := rfl
@[simp] theorem State.setNext_hostData : (s.setNext a v).hostData = s.hostData := rfl
@[simp] theorem State.setNext_sent : (s.setNext a v).sent = s.sent := rfl
@[simp] theorem State.setNext_free : (s.setNext a v).free = s.free := rfl
@[simp] theorem State.setNext_pending : (s.setNext a v).pending = s.pending := rfl

end

/-! ### noteTake -/

section
variable (s : State) (t : Take)

@[simp] theorem State.noteTake_mt : (s.noteTake t).mt = s.mt := rfl
@[simp] theorem State.noteTake_regs : (s.noteTake t).regs = s.regs := rfl
@[simp] theorem State.noteTake_reservoir : (s.noteTake t).reservoir = s.reservoir := rfl
@[simp] theorem State.noteTake_poison : (s.noteTake t).poison = s.poison := rfl
@[simp] theorem State.noteTake_localRam : (s.noteTake t).localRam = s.localRam := rfl
@[simp] theorem State.noteTake_ustore : (s.noteTake t).ustore = s.ustore := rfl
@[simp] theorem State.noteTake_chans : (s.noteTake t).chans = s.chans := rfl
@[simp] theorem State.noteTake_trips : (s.noteTake t).trips = s.trips := rfl
@[simp] theorem State.noteTake_mittens : (s.noteTake t).mittens = s.mittens := rfl
@[simp] theorem State.noteTake_pins : (s.noteTake t).pins = s.pins := rfl
@[simp] theorem State.noteTake_shafts : (s.noteTake t).shafts = s.shafts := rfl
@[simp] theorem State.noteTake_weirs : (s.noteTake t).weirs = s.weirs := rfl
@[simp] theorem State.noteTake_engines : (s.noteTake t).engines = s.engines := rfl
@[simp] theorem State.noteTake_threads : (s.noteTake t).threads = s.threads := rfl
@[simp] theorem State.noteTake_rings : (s.noteTake t).rings = s.rings := rfl
@[simp] theorem State.noteTake_ifaces : (s.noteTake t).ifaces = s.ifaces := rfl
@[simp] theorem State.noteTake_probes : (s.noteTake t).probes = s.probes := rfl
@[simp] theorem State.noteTake_pcmps : (s.noteTake t).pcmps = s.pcmps := rfl
@[simp] theorem State.noteTake_culverts : (s.noteTake t).culverts = s.culverts := rfl
@[simp] theorem State.noteTake_ports : (s.noteTake t).ports = s.ports := rfl
@[simp] theorem State.noteTake_exports : (s.noteTake t).exports = s.exports := rfl
@[simp] theorem State.noteTake_adc : (s.noteTake t).adc = s.adc := rfl
@[simp] theorem State.noteTake_cal : (s.noteTake t).cal = s.cal := rfl
@[simp] theorem State.noteTake_swap : (s.noteTake t).swap = s.swap := rfl
@[simp] theorem State.noteTake_nvm : (s.noteTake t).nvm = s.nvm := rfl
@[simp] theorem State.noteTake_hg : (s.noteTake t).hg = s.hg := rfl
@[simp] theorem State.noteTake_ts : (s.noteTake t).ts = s.ts := rfl
@[simp] theorem State.noteTake_power : (s.noteTake t).power = s.power := rfl
@[simp] theorem State.noteTake_island : (s.noteTake t).island = s.island := rfl
@[simp] theorem State.noteTake_irqEvents : (s.noteTake t).irqEvents = s.irqEvents := rfl
@[simp] theorem State.noteTake_start : (s.noteTake t).start = s.start := rfl
@[simp] theorem State.noteTake_raised : (s.noteTake t).raised = s.raised := rfl
@[simp] theorem State.noteTake_touched : (s.noteTake t).touched = s.touched := rfl
@[simp] theorem State.noteTake_written : (s.noteTake t).written = s.written := rfl
@[simp] theorem State.noteTake_rwNow : (s.noteTake t).rwNow = s.rwNow := rfl
@[simp] theorem State.noteTake_rwNext : (s.noteTake t).rwNext = s.rwNext := rfl
@[simp] theorem State.noteTake_wroteTick : (s.noteTake t).wroteTick = s.wroteTick := rfl
@[simp] theorem State.noteTake_wrote : (s.noteTake t).wrote = s.wrote := rfl
@[simp] theorem State.noteTake_was : (s.noteTake t).was = s.was := rfl
@[simp] theorem State.noteTake_later : (s.noteTake t).later = s.later := rfl
@[simp] theorem State.noteTake_takes : (s.noteTake t).takes = s.takes ++ [t] := rfl
@[simp] theorem State.noteTake_hostData : (s.noteTake t).hostData = s.hostData := rfl
@[simp] theorem State.noteTake_sent : (s.noteTake t).sent = s.sent := rfl
@[simp] theorem State.noteTake_free : (s.noteTake t).free = s.free := rfl
@[simp] theorem State.noteTake_pending : (s.noteTake t).pending = s.pending := rfl

end

end Sys2Proof.Machine
end

