-- ==== Sys2Proof/Laws/Blocks.lean ====
section
/-!
SUPPORT. What each accessor reads after each named update: the value written at its own key, and otherwise what it read before.
-/

namespace Sys2Proof.Machine

/-! ### The same block -/

@[simp] theorem State.reg_setReg_self (s : State) (a : Nat) (v : Word) : (s.setReg a v).reg a = v := Table.get_set_self _ _ _ _
@[simp] theorem State.reg_setReg_ne (s : State) {a b : Nat} (v : Word) (h : b ≠ a) : (s.setReg a v).reg b = s.reg b := Table.get_set_ne _ _ _ h
theorem State.reg_setReg (s : State) (a b : Nat) (v : Word) : (s.setReg a v).reg b = if b = a then v else s.reg b := Table.get_set _ _ _ _ _
@[simp] theorem State.chan_setChan_self (s : State) (k : Nat) (c : Chan) : (s.setChan k c).chan k = c := Table.get_set_self _ _ _ _
@[simp] theorem State.chan_setChan_ne (s : State) {k j : Nat} (c : Chan) (h : j ≠ k) : (s.setChan k c).chan j = s.chan j := Table.get_set_ne _ _ _ h
@[simp] theorem State.trip_setTrip_self (s : State) (k : Nat) (c : Trip) : (s.setTrip k c).trip k = c := Table.get_set_self _ _ _ _
@[simp] theorem State.trip_setTrip_ne (s : State) {k j : Nat} (c : Trip) (h : j ≠ k) : (s.setTrip k c).trip j = s.trip j := Table.get_set_ne _ _ _ h
@[simp] theorem State.mitten_setMitten_self (s : State) (k : Nat) (c : Mitten) : (s.setMitten k c).mitten k = c := Table.get_set_self _ _ _ _
@[simp] theorem State.mitten_setMitten_ne (s : State) {k j : Nat} (c : Mitten) (h : j ≠ k) : (s.setMitten k c).mitten j = s.mitten j := Table.get_set_ne _ _ _ h
@[simp] theorem State.pin_setPin_self (s : State) (k : Nat) (c : PinState) : (s.setPin k c).pin k = c := Table.get_set_self _ _ _ _
@[simp] theorem State.pin_setPin_ne (s : State) {k j : Nat} (c : PinState) (h : j ≠ k) : (s.setPin k c).pin j = s.pin j := Table.get_set_ne _ _ _ h
@[simp] theorem State.shaft_setShaft_self (s : State) (k : Nat) (c : Shaft) : (s.setShaft k c).shaft k = c := Table.get_set_self _ _ _ _
@[simp] theorem State.shaft_setShaft_ne (s : State) {k j : Nat} (c : Shaft) (h : j ≠ k) : (s.setShaft k c).shaft j = s.shaft j := Table.get_set_ne _ _ _ h
@[simp] theorem State.weir_setWeir_self (s : State) (k : Nat) (c : Weir) : (s.setWeir k c).weir k = c := Table.get_set_self _ _ _ _
@[simp] theorem State.weir_setWeir_ne (s : State) {k j : Nat} (c : Weir) (h : j ≠ k) : (s.setWeir k c).weir j = s.weir j := Table.get_set_ne _ _ _ h
@[simp] theorem State.engine_setEngine_self (s : State) (k : Nat) (c : Engine) : (s.setEngine k c).engine k = c := Table.get_set_self _ _ _ _
@[simp] theorem State.engine_setEngine_ne (s : State) {k j : Nat} (c : Engine) (h : j ≠ k) : (s.setEngine k c).engine j = s.engine j := Table.get_set_ne _ _ _ h
@[simp] theorem State.ring_setRing_self (s : State) (k : Nat) (c : RingState) : (s.setRing k c).ring k = c := Table.get_set_self _ _ _ _
@[simp] theorem State.ring_setRing_ne (s : State) {k j : Nat} (c : RingState) (h : j ≠ k) : (s.setRing k c).ring j = s.ring j := Table.get_set_ne _ _ _ h
@[simp] theorem State.iface_setIface_self (s : State) (k : Nat) (c : Iface) : (s.setIface k c).iface k = c := Table.get_set_self _ _ _ _
@[simp] theorem State.iface_setIface_ne (s : State) {k j : Nat} (c : Iface) (h : j ≠ k) : (s.setIface k c).iface j = s.iface j := Table.get_set_ne _ _ _ h
@[simp] theorem State.probe_setProbe_self (s : State) (k : Nat) (c : Probe) : (s.setProbe k c).probe k = c := Table.get_set_self _ _ _ _
@[simp] theorem State.probe_setProbe_ne (s : State) {k j : Nat} (c : Probe) (h : j ≠ k) : (s.setProbe k c).probe j = s.probe j := Table.get_set_ne _ _ _ h
@[simp] theorem State.pcmp_setPcmp_self (s : State) (k : Nat) (c : Pcmp) : (s.setPcmp k c).pcmp k = c := Table.get_set_self _ _ _ _
@[simp] theorem State.pcmp_setPcmp_ne (s : State) {k j : Nat} (c : Pcmp) (h : j ≠ k) : (s.setPcmp k c).pcmp j = s.pcmp j := Table.get_set_ne _ _ _ h
@[simp] theorem State.culvert_setCulvert_self (s : State) (k : Nat) (c : Culvert) : (s.setCulvert k c).culvert k = c := Table.get_set_self _ _ _ _
@[simp] theorem State.culvert_setCulvert_ne (s : State) {k j : Nat} (c : Culvert) (h : j ≠ k) : (s.setCulvert k c).culvert j = s.culvert j := Table.get_set_ne _ _ _ h
@[simp] theorem State.port_setPort_self (s : State) (k : Nat) (c : Port) : (s.setPort k c).port k = c := Table.get_set_self _ _ _ _
@[simp] theorem State.port_setPort_ne (s : State) {k j : Nat} (c : Port) (h : j ≠ k) : (s.setPort k c).port j = s.port j := Table.get_set_ne _ _ _ h
@[simp] theorem State.conv_setConv_self (s : State) (k : Nat) (c : Converter) : (s.setConv k c).conv k = c := Table.get_set_self _ _ _ _
@[simp] theorem State.conv_setConv_ne (s : State) {k j : Nat} (c : Converter) (h : j ≠ k) : (s.setConv k c).conv j = s.conv j := Table.get_set_ne _ _ _ h
@[simp] theorem State.accum_setAccum_self (s : State) (k : Nat) (c : Accum) : (s.setAccum k c).accum k = c := Table.get_set_self _ _ _ _
@[simp] theorem State.accum_setAccum_ne (s : State) {k j : Nat} (c : Accum) (h : j ≠ k) : (s.setAccum k c).accum j = s.accum j := Table.get_set_ne _ _ _ h
@[simp] theorem State.key_setKey_self (s : State) (k : Nat) (c : KeySlot) : (s.setKey k c).key k = c := Table.get_set_self _ _ _ _
@[simp] theorem State.key_setKey_ne (s : State) {k j : Nat} (c : KeySlot) (h : j ≠ k) : (s.setKey k c).key j = s.key j := Table.get_set_ne _ _ _ h
@[simp] theorem State.wear_setWear_self (s : State) (k : Nat) (c : (BitVec 48)) : (s.setWear k c).wear k = c := Table.get_set_self _ _ _ _
@[simp] theorem State.wear_setWear_ne (s : State) {k j : Nat} (c : (BitVec 48)) (h : j ≠ k) : (s.setWear k c).wear j = s.wear j := Table.get_set_ne _ _ _ h
@[simp] theorem State.thread_setThread_self (s : State) (n t : Nat) (c : Thread) : (s.setThread n t c).thread n t = c := Table.get_set_self _ _ _ _
@[simp] theorem State.thread_setThread_ne (s : State) {n t m u : Nat} (c : Thread) (h : m * 16 + u ≠ n * 16 + t) :
    (s.setThread n t c).thread m u = s.thread m u := Table.get_set_ne _ _ _ h

/-! ### setReg -/

section
variable (s : State) (a : Nat) (v : Word)

@[simp] theorem State.chan_setReg (x : Nat) : (s.setReg a v).chan x = s.chan x := rfl
@[simp] theorem State.trip_setReg (x : Nat) : (s.setReg a v).trip x = s.trip x := rfl
@[simp] theorem State.mitten_setReg (x : Nat) : (s.setReg a v).mitten x = s.mitten x := rfl
@[simp] theorem State.pin_setReg (x : Nat) : (s.setReg a v).pin x = s.pin x := rfl
@[simp] theorem State.shaft_setReg (x : Nat) : (s.setReg a v).shaft x = s.shaft x := rfl
@[simp] theorem State.weir_setReg (x : Nat) : (s.setReg a v).weir x = s.weir x := rfl
@[simp] theorem State.engine_setReg (x : Nat) : (s.setReg a v).engine x = s.engine x := rfl
@[simp] theorem State.ring_setReg (x : Nat) : (s.setReg a v).ring x = s.ring x := rfl
@[simp] theorem State.iface_setReg (x : Nat) : (s.setReg a v).iface x = s.iface x := rfl
@[simp] theorem State.probe_setReg (x : Nat) : (s.setReg a v).probe x = s.probe x := rfl
@[simp] theorem State.pcmp_setReg (x : Nat) : (s.setReg a v).pcmp x = s.pcmp x := rfl
@[simp] theorem State.culvert_setReg (x : Nat) : (s.setReg a v).culvert x = s.culvert x := rfl
@[simp] theorem State.port_setReg (x : Nat) : (s.setReg a v).port x = s.port x := rfl
@[simp] theorem State.thread_setReg (x y : Nat) : (s.setReg a v).thread x y = s.thread x y := rfl
@[simp] theorem State.conv_setReg (x : Nat) : (s.setReg a v).conv x = s.conv x := rfl
@[simp] theorem State.accum_setReg (x : Nat) : (s.setReg a v).accum x = s.accum x := rfl
@[simp] theorem State.key_setReg (x : Nat) : (s.setReg a v).key x = s.key x := rfl
@[simp] theorem State.wear_setReg (x : Nat) : (s.setReg a v).wear x = s.wear x := rfl
@[simp] theorem State.now_setReg : (s.setReg a v).now = s.now := rfl
@[simp] theorem State.reached_setReg (x : Tick) : (s.setReg a v).reached x = s.reached x := rfl
@[simp] theorem State.freeValue_setReg : (s.setReg a v).freeValue = s.freeValue := rfl
@[simp] theorem State.tclk_setReg : (s.setReg a v).tclk = s.tclk := rfl
@[simp] theorem State.resRead_setReg (x y : Nat) : (s.setReg a v).resRead x y = s.resRead x y := rfl
@[simp] theorem State.resPoisoned_setReg (x y : Nat) : (s.setReg a v).resPoisoned x y = s.resPoisoned x y := rfl

end

/-! ### setFld -/

section
variable (s : State) (a hi lo v : Nat)

@[simp] theorem State.chan_setFld (x : Nat) : (s.setFld a hi lo v).chan x = s.chan x := rfl
@[simp] theorem State.trip_setFld (x : Nat) : (s.setFld a hi lo v).trip x = s.trip x := rfl
@[simp] theorem State.mitten_setFld (x : Nat) : (s.setFld a hi lo v).mitten x = s.mitten x := rfl
@[simp] theorem State.pin_setFld (x : Nat) : (s.setFld a hi lo v).pin x = s.pin x := rfl
@[simp] theorem State.shaft_setFld (x : Nat) : (s.setFld a hi lo v).shaft x = s.shaft x := rfl
@[simp] theorem State.weir_setFld (x : Nat) : (s.setFld a hi lo v).weir x = s.weir x := rfl
@[simp] theorem State.engine_setFld (x : Nat) : (s.setFld a hi lo v).engine x = s.engine x := rfl
@[simp] theorem State.ring_setFld (x : Nat) : (s.setFld a hi lo v).ring x = s.ring x := rfl
@[simp] theorem State.iface_setFld (x : Nat) : (s.setFld a hi lo v).iface x = s.iface x := rfl
@[simp] theorem State.probe_setFld (x : Nat) : (s.setFld a hi lo v).probe x = s.probe x := rfl
@[simp] theorem State.pcmp_setFld (x : Nat) : (s.setFld a hi lo v).pcmp x = s.pcmp x := rfl
@[simp] theorem State.culvert_setFld (x : Nat) : (s.setFld a hi lo v).culvert x = s.culvert x := rfl
@[simp] theorem State.port_setFld (x : Nat) : (s.setFld a hi lo v).port x = s.port x := rfl
@[simp] theorem State.thread_setFld (x y : Nat) : (s.setFld a hi lo v).thread x y = s.thread x y := rfl
@[simp] theorem State.conv_setFld (x : Nat) : (s.setFld a hi lo v).conv x = s.conv x := rfl
@[simp] theorem State.accum_setFld (x : Nat) : (s.setFld a hi lo v).accum x = s.accum x := rfl
@[simp] theorem State.key_setFld (x : Nat) : (s.setFld a hi lo v).key x = s.key x := rfl
@[simp] theorem State.wear_setFld (x : Nat) : (s.setFld a hi lo v).wear x = s.wear x := rfl
@[simp] theorem State.now_setFld : (s.setFld a hi lo v).now = s.now := rfl
@[simp] theorem State.reached_setFld (x : Tick) : (s.setFld a hi lo v).reached x = s.reached x := rfl
@[simp] theorem State.freeValue_setFld : (s.setFld a hi lo v).freeValue = s.freeValue := rfl
@[simp] theorem State.tclk_setFld : (s.setFld a hi lo v).tclk = s.tclk := rfl
@[simp] theorem State.resRead_setFld (x y : Nat) : (s.setFld a hi lo v).resRead x y = s.resRead x y := rfl
@[simp] theorem State.resPoisoned_setFld (x y : Nat) : (s.setFld a hi lo v).resPoisoned x y = s.resPoisoned x y := rfl

end

/-! ### setBit -/

section
variable (s : State) (a i : Nat) (b : Bool)

@[simp] theorem State.chan_setBit (x : Nat) : (s.setBit a i b).chan x = s.chan x := rfl
@[simp] theorem State.trip_setBit (x : Nat) : (s.setBit a i b).trip x = s.trip x := rfl
@[simp] theorem State.mitten_setBit (x : Nat) : (s.setBit a i b).mitten x = s.mitten x := rfl
@[simp] theorem State.pin_setBit (x : Nat) : (s.setBit a i b).pin x = s.pin x := rfl
@[simp] theorem State.shaft_setBit (x : Nat) : (s.setBit a i b).shaft x = s.shaft x := rfl
@[simp] theorem State.weir_setBit (x : Nat) : (s.setBit a i b).weir x = s.weir x := rfl
@[simp] theorem State.engine_setBit (x : Nat) : (s.setBit a i b).engine x = s.engine x := rfl
@[simp] theorem State.ring_setBit (x : Nat) : (s.setBit a i b).ring x = s.ring x := rfl
@[simp] theorem State.iface_setBit (x : Nat) : (s.setBit a i b).iface x = s.iface x := rfl
@[simp] theorem State.probe_setBit (x : Nat) : (s.setBit a i b).probe x = s.probe x := rfl
@[simp] theorem State.pcmp_setBit (x : Nat) : (s.setBit a i b).pcmp x = s.pcmp x := rfl
@[simp] theorem State.culvert_setBit (x : Nat) : (s.setBit a i b).culvert x = s.culvert x := rfl
@[simp] theorem State.port_setBit (x : Nat) : (s.setBit a i b).port x = s.port x := rfl
@[simp] theorem State.thread_setBit (x y : Nat) : (s.setBit a i b).thread x y = s.thread x y := rfl
@[simp] theorem State.conv_setBit (x : Nat) : (s.setBit a i b).conv x = s.conv x := rfl
@[simp] theorem State.accum_setBit (x : Nat) : (s.setBit a i b).accum x = s.accum x := rfl
@[simp] theorem State.key_setBit (x : Nat) : (s.setBit a i b).key x = s.key x := rfl
@[simp] theorem State.wear_setBit (x : Nat) : (s.setBit a i b).wear x = s.wear x := rfl
@[simp] theorem State.now_setBit : (s.setBit a i b).now = s.now := rfl
@[simp] theorem State.reached_setBit (x : Tick) : (s.setBit a i b).reached x = s.reached x := rfl
@[simp] theorem State.freeValue_setBit : (s.setBit a i b).freeValue = s.freeValue := rfl
@[simp] theorem State.tclk_setBit : (s.setBit a i b).tclk = s.tclk := rfl
@[simp] theorem State.resRead_setBit (x y : Nat) : (s.setBit a i b).resRead x y = s.resRead x y := rfl
@[simp] theorem State.resPoisoned_setBit (x y : Nat) : (s.setBit a i b).resPoisoned x y = s.resPoisoned x y := rfl

end

/-! ### satCount -/

section
variable (s : State) (a : Nat)

@[simp] theorem State.chan_satCount (x : Nat) : (s.satCount a).chan x = s.chan x := rfl
@[simp] theorem State.trip_satCount (x : Nat) : (s.satCount a).trip x = s.trip x := rfl
@[simp] theorem State.mitten_satCount (x : Nat) : (s.satCount a).mitten x = s.mitten x := rfl
@[simp] theorem State.pin_satCount (x : Nat) : (s.satCount a).pin x = s.pin x := rfl
@[simp] theorem State.shaft_satCount (x : Nat) : (s.satCount a).shaft x = s.shaft x := rfl
@[simp] theorem State.weir_satCount (x : Nat) : (s.satCount a).weir x = s.weir x := rfl
@[simp] theorem State.engine_satCount (x : Nat) : (s.satCount a).engine x = s.engine x := rfl
@[simp] theorem State.ring_satCount (x : Nat) : (s.satCount a).ring x = s.ring x := rfl
@[simp] theorem State.iface_satCount (x : Nat) : (s.satCount a).iface x = s.iface x := rfl
@[simp] theorem State.probe_satCount (x : Nat) : (s.satCount a).probe x = s.probe x := rfl
@[simp] theorem State.pcmp_satCount (x : Nat) : (s.satCount a).pcmp x = s.pcmp x := rfl
@[simp] theorem State.culvert_satCount (x : Nat) : (s.satCount a).culvert x = s.culvert x := rfl
@[simp] theorem State.port_satCount (x : Nat) : (s.satCount a).port x = s.port x := rfl
@[simp] theorem State.thread_satCount (x y : Nat) : (s.satCount a).thread x y = s.thread x y := rfl
@[simp] theorem State.conv_satCount (x : Nat) : (s.satCount a).conv x = s.conv x := rfl
@[simp] theorem State.accum_satCount (x : Nat) : (s.satCount a).accum x = s.accum x := rfl
@[simp] theorem State.key_satCount (x : Nat) : (s.satCount a).key x = s.key x := rfl
@[simp] theorem State.wear_satCount (x : Nat) : (s.satCount a).wear x = s.wear x := rfl
@[simp] theorem State.now_satCount : (s.satCount a).now = s.now := rfl
@[simp] theorem State.reached_satCount (x : Tick) : (s.satCount a).reached x = s.reached x := rfl
@[simp] theorem State.freeValue_satCount : (s.satCount a).freeValue = s.freeValue := rfl
@[simp] theorem State.tclk_satCount : (s.satCount a).tclk = s.tclk := rfl
@[simp] theorem State.resRead_satCount (x y : Nat) : (s.satCount a).resRead x y = s.resRead x y := rfl
@[simp] theorem State.resPoisoned_satCount (x y : Nat) : (s.satCount a).resPoisoned x y = s.resPoisoned x y := rfl

end

/-! ### satAdd -/

section
variable (s : State) (a n : Nat)

@[simp] theorem State.chan_satAdd (x : Nat) : (s.satAdd a n).chan x = s.chan x := s.satAdd_same a n (·.chan x) (fun _ => rfl)
@[simp] theorem State.trip_satAdd (x : Nat) : (s.satAdd a n).trip x = s.trip x := s.satAdd_same a n (·.trip x) (fun _ => rfl)
@[simp] theorem State.mitten_satAdd (x : Nat) : (s.satAdd a n).mitten x = s.mitten x := s.satAdd_same a n (·.mitten x) (fun _ => rfl)
@[simp] theorem State.pin_satAdd (x : Nat) : (s.satAdd a n).pin x = s.pin x := s.satAdd_same a n (·.pin x) (fun _ => rfl)
@[simp] theorem State.shaft_satAdd (x : Nat) : (s.satAdd a n).shaft x = s.shaft x := s.satAdd_same a n (·.shaft x) (fun _ => rfl)
@[simp] theorem State.weir_satAdd (x : Nat) : (s.satAdd a n).weir x = s.weir x := s.satAdd_same a n (·.weir x) (fun _ => rfl)
@[simp] theorem State.engine_satAdd (x : Nat) : (s.satAdd a n).engine x = s.engine x := s.satAdd_same a n (·.engine x) (fun _ => rfl)
@[simp] theorem State.ring_satAdd (x : Nat) : (s.satAdd a n).ring x = s.ring x := s.satAdd_same a n (·.ring x) (fun _ => rfl)
@[simp] theorem State.iface_satAdd (x : Nat) : (s.satAdd a n).iface x = s.iface x := s.satAdd_same a n (·.iface x) (fun _ => rfl)
@[simp] theorem State.probe_satAdd (x : Nat) : (s.satAdd a n).probe x = s.probe x := s.satAdd_same a n (·.probe x) (fun _ => rfl)
@[simp] theorem State.pcmp_satAdd (x : Nat) : (s.satAdd a n).pcmp x = s.pcmp x := s.satAdd_same a n (·.pcmp x) (fun _ => rfl)
@[simp] theorem State.culvert_satAdd (x : Nat) : (s.satAdd a n).culvert x = s.culvert x := s.satAdd_same a n (·.culvert x) (fun _ => rfl)
@[simp] theorem State.port_satAdd (x : Nat) : (s.satAdd a n).port x = s.port x := s.satAdd_same a n (·.port x) (fun _ => rfl)
@[simp] theorem State.thread_satAdd (x y : Nat) : (s.satAdd a n).thread x y = s.thread x y := s.satAdd_same a n (·.thread x y) (fun _ => rfl)
@[simp] theorem State.conv_satAdd (x : Nat) : (s.satAdd a n).conv x = s.conv x := s.satAdd_same a n (·.conv x) (fun _ => rfl)
@[simp] theorem State.accum_satAdd (x : Nat) : (s.satAdd a n).accum x = s.accum x := s.satAdd_same a n (·.accum x) (fun _ => rfl)
@[simp] theorem State.key_satAdd (x : Nat) : (s.satAdd a n).key x = s.key x := s.satAdd_same a n (·.key x) (fun _ => rfl)
@[simp] theorem State.wear_satAdd (x : Nat) : (s.satAdd a n).wear x = s.wear x := s.satAdd_same a n (·.wear x) (fun _ => rfl)
@[simp] theorem State.now_satAdd : (s.satAdd a n).now = s.now := s.satAdd_same a n (·.now) (fun _ => rfl)
@[simp] theorem State.reached_satAdd (x : Tick) : (s.satAdd a n).reached x = s.reached x := s.satAdd_same a n (·.reached x) (fun _ => rfl)
@[simp] theorem State.freeValue_satAdd : (s.satAdd a n).freeValue = s.freeValue := s.satAdd_same a n (·.freeValue) (fun _ => rfl)
@[simp] theorem State.tclk_satAdd : (s.satAdd a n).tclk = s.tclk := s.satAdd_same a n (·.tclk) (fun _ => rfl)
@[simp] theorem State.resRead_satAdd (x y : Nat) : (s.satAdd a n).resRead x y = s.resRead x y := s.satAdd_same a n (·.resRead x y) (fun _ => rfl)
@[simp] theorem State.resPoisoned_satAdd (x y : Nat) : (s.satAdd a n).resPoisoned x y = s.resPoisoned x y := s.satAdd_same a n (·.resPoisoned x y) (fun _ => rfl)

end

/-! ### count -/

section
variable (s : State) (a : Nat)

@[simp] theorem State.chan_count (x : Nat) : (s.count a).chan x = s.chan x := rfl
@[simp] theorem State.trip_count (x : Nat) : (s.count a).trip x = s.trip x := rfl
@[simp] theorem State.mitten_count (x : Nat) : (s.count a).mitten x = s.mitten x := rfl
@[simp] theorem State.pin_count (x : Nat) : (s.count a).pin x = s.pin x := rfl
@[simp] theorem State.shaft_count (x : Nat) : (s.count a).shaft x = s.shaft x := rfl
@[simp] theorem State.weir_count (x : Nat) : (s.count a).weir x = s.weir x := rfl
@[simp] theorem State.engine_count (x : Nat) : (s.count a).engine x = s.engine x := rfl
@[simp] theorem State.ring_count (x : Nat) : (s.count a).ring x = s.ring x := rfl
@[simp] theorem State.iface_count (x : Nat) : (s.count a).iface x = s.iface x := rfl
@[simp] theorem State.probe_count (x : Nat) : (s.count a).probe x = s.probe x := rfl
@[simp] theorem State.pcmp_count (x : Nat) : (s.count a).pcmp x = s.pcmp x := rfl
@[simp] theorem State.culvert_count (x : Nat) : (s.count a).culvert x = s.culvert x := rfl
@[simp] theorem State.port_count (x : Nat) : (s.count a).port x = s.port x := rfl
@[simp] theorem State.thread_count (x y : Nat) : (s.count a).thread x y = s.thread x y := rfl
@[simp] theorem State.conv_count (x : Nat) : (s.count a).conv x = s.conv x := rfl
@[simp] theorem State.accum_count (x : Nat) : (s.count a).accum x = s.accum x := rfl
@[simp] theorem State.key_count (x : Nat) : (s.count a).key x = s.key x := rfl
@[simp] theorem State.wear_count (x : Nat) : (s.count a).wear x = s.wear x := rfl
@[simp] theorem State.now_count : (s.count a).now = s.now := rfl
@[simp] theorem State.reached_count (x : Tick) : (s.count a).reached x = s.reached x := rfl
@[simp] theorem State.freeValue_count : (s.count a).freeValue = s.freeValue := rfl
@[simp] theorem State.tclk_count : (s.count a).tclk = s.tclk := rfl
@[simp] theorem State.resRead_count (x y : Nat) : (s.count a).resRead x y = s.resRead x y := rfl
@[simp] theorem State.resPoisoned_count (x y : Nat) : (s.count a).resPoisoned x y = s.resPoisoned x y := rfl

end

/-! ### setPair -/

section
variable (s : State) (lo hi : Nat) (v : BitVec 64)

@[simp] theorem State.chan_setPair (x : Nat) : (s.setPair lo hi v).chan x = s.chan x := rfl
@[simp] theorem State.trip_setPair (x : Nat) : (s.setPair lo hi v).trip x = s.trip x := rfl
@[simp] theorem State.mitten_setPair (x : Nat) : (s.setPair lo hi v).mitten x = s.mitten x := rfl
@[simp] theorem State.pin_setPair (x : Nat) : (s.setPair lo hi v).pin x = s.pin x := rfl
@[simp] theorem State.shaft_setPair (x : Nat) : (s.setPair lo hi v).shaft x = s.shaft x := rfl
@[simp] theorem State.weir_setPair (x : Nat) : (s.setPair lo hi v).weir x = s.weir x := rfl
@[simp] theorem State.engine_setPair (x : Nat) : (s.setPair lo hi v).engine x = s.engine x := rfl
@[simp] theorem State.ring_setPair (x : Nat) : (s.setPair lo hi v).ring x = s.ring x := rfl
@[simp] theorem State.iface_setPair (x : Nat) : (s.setPair lo hi v).iface x = s.iface x := rfl
@[simp] theorem State.probe_setPair (x : Nat) : (s.setPair lo hi v).probe x = s.probe x := rfl
@[simp] theorem State.pcmp_setPair (x : Nat) : (s.setPair lo hi v).pcmp x = s.pcmp x := rfl
@[simp] theorem State.culvert_setPair (x : Nat) : (s.setPair lo hi v).culvert x = s.culvert x := rfl
@[simp] theorem State.port_setPair (x : Nat) : (s.setPair lo hi v).port x = s.port x := rfl
@[simp] theorem State.thread_setPair (x y : Nat) : (s.setPair lo hi v).thread x y = s.thread x y := rfl
@[simp] theorem State.conv_setPair (x : Nat) : (s.setPair lo hi v).conv x = s.conv x := rfl
@[simp] theorem State.accum_setPair (x : Nat) : (s.setPair lo hi v).accum x = s.accum x := rfl
@[simp] theorem State.key_setPair (x : Nat) : (s.setPair lo hi v).key x = s.key x := rfl
@[simp] theorem State.wear_setPair (x : Nat) : (s.setPair lo hi v).wear x = s.wear x := rfl
@[simp] theorem State.now_setPair : (s.setPair lo hi v).now = s.now := rfl
@[simp] theorem State.reached_setPair (x : Tick) : (s.setPair lo hi v).reached x = s.reached x := rfl
@[simp] theorem State.freeValue_setPair : (s.setPair lo hi v).freeValue = s.freeValue := rfl
@[simp] theorem State.tclk_setPair : (s.setPair lo hi v).tclk = s.tclk := rfl
@[simp] theorem State.resRead_setPair (x y : Nat) : (s.setPair lo hi v).resRead x y = s.resRead x y := rfl
@[simp] theorem State.resPoisoned_setPair (x y : Nat) : (s.setPair lo hi v).resPoisoned x y = s.resPoisoned x y := rfl

end

/-! ### setChan -/

section
variable (s : State) (k : Nat) (c : Chan)

@[simp] theorem State.reg_setChan (x : Nat) : (s.setChan k c).reg x = s.reg x := rfl
@[simp] theorem State.fld_setChan (x hi' lo' : Nat) : (s.setChan k c).fld x hi' lo' = s.fld x hi' lo' := rfl
@[simp] theorem State.bit_setChan (x i' : Nat) : (s.setChan k c).bit x i' = s.bit x i' := rfl
@[simp] theorem State.pair_setChan (x y : Nat) : (s.setChan k c).pair x y = s.pair x y := rfl
@[simp] theorem State.trip_setChan (x : Nat) : (s.setChan k c).trip x = s.trip x := rfl
@[simp] theorem State.mitten_setChan (x : Nat) : (s.setChan k c).mitten x = s.mitten x := rfl
@[simp] theorem State.pin_setChan (x : Nat) : (s.setChan k c).pin x = s.pin x := rfl
@[simp] theorem State.shaft_setChan (x : Nat) : (s.setChan k c).shaft x = s.shaft x := rfl
@[simp] theorem State.weir_setChan (x : Nat) : (s.setChan k c).weir x = s.weir x := rfl
@[simp] theorem State.engine_setChan (x : Nat) : (s.setChan k c).engine x = s.engine x := rfl
@[simp] theorem State.ring_setChan (x : Nat) : (s.setChan k c).ring x = s.ring x := rfl
@[simp] theorem State.iface_setChan (x : Nat) : (s.setChan k c).iface x = s.iface x := rfl
@[simp] theorem State.probe_setChan (x : Nat) : (s.setChan k c).probe x = s.probe x := rfl
@[simp] theorem State.pcmp_setChan (x : Nat) : (s.setChan k c).pcmp x = s.pcmp x := rfl
@[simp] theorem State.culvert_setChan (x : Nat) : (s.setChan k c).culvert x = s.culvert x := rfl
@[simp] theorem State.port_setChan (x : Nat) : (s.setChan k c).port x = s.port x := rfl
@[simp] theorem State.thread_setChan (x y : Nat) : (s.setChan k c).thread x y = s.thread x y := rfl
@[simp] theorem State.conv_setChan (x : Nat) : (s.setChan k c).conv x = s.conv x := rfl
@[simp] theorem State.accum_setChan (x : Nat) : (s.setChan k c).accum x = s.accum x := rfl
@[simp] theorem State.key_setChan (x : Nat) : (s.setChan k c).key x = s.key x := rfl
@[simp] theorem State.wear_setChan (x : Nat) : (s.setChan k c).wear x = s.wear x := rfl
@[simp] theorem State.now_setChan : (s.setChan k c).now = s.now := rfl
@[simp] theorem State.reached_setChan (x : Tick) : (s.setChan k c).reached x = s.reached x := rfl
@[simp] theorem State.freeValue_setChan : (s.setChan k c).freeValue = s.freeValue := rfl
@[simp] theorem State.tclk_setChan : (s.setChan k c).tclk = s.tclk := rfl
@[simp] theorem State.ucodeValid_setChan : (s.setChan k c).ucodeValid = s.ucodeValid := rfl
@[simp] theorem State.resRead_setChan (x y : Nat) : (s.setChan k c).resRead x y = s.resRead x y := rfl
@[simp] theorem State.resPoisoned_setChan (x y : Nat) : (s.setChan k c).resPoisoned x y = s.resPoisoned x y := rfl

end

/-! ### setTrip -/

section
variable (s : State) (k : Nat) (c : Trip)

@[simp] theorem State.reg_setTrip (x : Nat) : (s.setTrip k c).reg x = s.reg x := rfl
@[simp] theorem State.fld_setTrip (x hi' lo' : Nat) : (s.setTrip k c).fld x hi' lo' = s.fld x hi' lo' := rfl
@[simp] theorem State.bit_setTrip (x i' : Nat) : (s.setTrip k c).bit x i' = s.bit x i' := rfl
@[simp] theorem State.pair_setTrip (x y : Nat) : (s.setTrip k c).pair x y = s.pair x y := rfl
@[simp] theorem State.chan_setTrip (x : Nat) : (s.setTrip k c).chan x = s.chan x := rfl
@[simp] theorem State.mitten_setTrip (x : Nat) : (s.setTrip k c).mitten x = s.mitten x := rfl
@[simp] theorem State.pin_setTrip (x : Nat) : (s.setTrip k c).pin x = s.pin x := rfl
@[simp] theorem State.shaft_setTrip (x : Nat) : (s.setTrip k c).shaft x = s.shaft x := rfl
@[simp] theorem State.weir_setTrip (x : Nat) : (s.setTrip k c).weir x = s.weir x := rfl
@[simp] theorem State.engine_setTrip (x : Nat) : (s.setTrip k c).engine x = s.engine x := rfl
@[simp] theorem State.ring_setTrip (x : Nat) : (s.setTrip k c).ring x = s.ring x := rfl
@[simp] theorem State.iface_setTrip (x : Nat) : (s.setTrip k c).iface x = s.iface x := rfl
@[simp] theorem State.probe_setTrip (x : Nat) : (s.setTrip k c).probe x = s.probe x := rfl
@[simp] theorem State.pcmp_setTrip (x : Nat) : (s.setTrip k c).pcmp x = s.pcmp x := rfl
@[simp] theorem State.culvert_setTrip (x : Nat) : (s.setTrip k c).culvert x = s.culvert x := rfl
@[simp] theorem State.port_setTrip (x : Nat) : (s.setTrip k c).port x = s.port x := rfl
@[simp] theorem State.thread_setTrip (x y : Nat) : (s.setTrip k c).thread x y = s.thread x y := rfl
@[simp] theorem State.conv_setTrip (x : Nat) : (s.setTrip k c).conv x = s.conv x := rfl
@[simp] theorem State.accum_setTrip (x : Nat) : (s.setTrip k c).accum x = s.accum x := rfl
@[simp] theorem State.key_setTrip (x : Nat) : (s.setTrip k c).key x = s.key x := rfl
@[simp] theorem State.wear_setTrip (x : Nat) : (s.setTrip k c).wear x = s.wear x := rfl
@[simp] theorem State.now_setTrip : (s.setTrip k c).now = s.now := rfl
@[simp] theorem State.reached_setTrip (x : Tick) : (s.setTrip k c).reached x = s.reached x := rfl
@[simp] theorem State.freeValue_setTrip : (s.setTrip k c).freeValue = s.freeValue := rfl
@[simp] theorem State.tclk_setTrip : (s.setTrip k c).tclk = s.tclk := rfl
@[simp] theorem State.ucodeValid_setTrip : (s.setTrip k c).ucodeValid = s.ucodeValid := rfl
@[simp] theorem State.resRead_setTrip (x y : Nat) : (s.setTrip k c).resRead x y = s.resRead x y := rfl
@[simp] theorem State.resPoisoned_setTrip (x y : Nat) : (s.setTrip k c).resPoisoned x y = s.resPoisoned x y := rfl

end

/-! ### setMitten -/

section
variable (s : State) (k : Nat) (c : Mitten)

@[simp] theorem State.reg_setMitten (x : Nat) : (s.setMitten k c).reg x = s.reg x := rfl
@[simp] theorem State.fld_setMitten (x hi' lo' : Nat) : (s.setMitten k c).fld x hi' lo' = s.fld x hi' lo' := rfl
@[simp] theorem State.bit_setMitten (x i' : Nat) : (s.setMitten k c).bit x i' = s.bit x i' := rfl
@[simp] theorem State.pair_setMitten (x y : Nat) : (s.setMitten k c).pair x y = s.pair x y := rfl
@[simp] theorem State.chan_setMitten (x : Nat) : (s.setMitten k c).chan x = s.chan x := rfl
@[simp] theorem State.trip_setMitten (x : Nat) : (s.setMitten k c).trip x = s.trip x := rfl
@[simp] theorem State.pin_setMitten (x : Nat) : (s.setMitten k c).pin x = s.pin x := rfl
@[simp] theorem State.shaft_setMitten (x : Nat) : (s.setMitten k c).shaft x = s.shaft x := rfl
@[simp] theorem State.weir_setMitten (x : Nat) : (s.setMitten k c).weir x = s.weir x := rfl
@[simp] theorem State.engine_setMitten (x : Nat) : (s.setMitten k c).engine x = s.engine x := rfl
@[simp] theorem State.ring_setMitten (x : Nat) : (s.setMitten k c).ring x = s.ring x := rfl
@[simp] theorem State.iface_setMitten (x : Nat) : (s.setMitten k c).iface x = s.iface x := rfl
@[simp] theorem State.probe_setMitten (x : Nat) : (s.setMitten k c).probe x = s.probe x := rfl
@[simp] theorem State.pcmp_setMitten (x : Nat) : (s.setMitten k c).pcmp x = s.pcmp x := rfl
@[simp] theorem State.culvert_setMitten (x : Nat) : (s.setMitten k c).culvert x = s.culvert x := rfl
@[simp] theorem State.port_setMitten (x : Nat) : (s.setMitten k c).port x = s.port x := rfl
@[simp] theorem State.thread_setMitten (x y : Nat) : (s.setMitten k c).thread x y = s.thread x y := rfl
@[simp] theorem State.conv_setMitten (x : Nat) : (s.setMitten k c).conv x = s.conv x := rfl
@[simp] theorem State.accum_setMitten (x : Nat) : (s.setMitten k c).accum x = s.accum x := rfl
@[simp] theorem State.key_setMitten (x : Nat) : (s.setMitten k c).key x = s.key x := rfl
@[simp] theorem State.wear_setMitten (x : Nat) : (s.setMitten k c).wear x = s.wear x := rfl
@[simp] theorem State.now_setMitten : (s.setMitten k c).now = s.now := rfl
@[simp] theorem State.reached_setMitten (x : Tick) : (s.setMitten k c).reached x = s.reached x := rfl
@[simp] theorem State.freeValue_setMitten : (s.setMitten k c).freeValue = s.freeValue := rfl
@[simp] theorem State.tclk_setMitten : (s.setMitten k c).tclk = s.tclk := rfl
@[simp] theorem State.ucodeValid_setMitten : (s.setMitten k c).ucodeValid = s.ucodeValid := rfl
@[simp] theorem State.resRead_setMitten (x y : Nat) : (s.setMitten k c).resRead x y = s.resRead x y := rfl
@[simp] theorem State.resPoisoned_setMitten (x y : Nat) : (s.setMitten k c).resPoisoned x y = s.resPoisoned x y := rfl

end

/-! ### setPin -/

section
variable (s : State) (k : Nat) (c : PinState)

@[simp] theorem State.reg_setPin (x : Nat) : (s.setPin k c).reg x = s.reg x := rfl
@[simp] theorem State.fld_setPin (x hi' lo' : Nat) : (s.setPin k c).fld x hi' lo' = s.fld x hi' lo' := rfl
@[simp] theorem State.bit_setPin (x i' : Nat) : (s.setPin k c).bit x i' = s.bit x i' := rfl
@[simp] theorem State.pair_setPin (x y : Nat) : (s.setPin k c).pair x y = s.pair x y := rfl
@[simp] theorem State.chan_setPin (x : Nat) : (s.setPin k c).chan x = s.chan x := rfl
@[simp] theorem State.trip_setPin (x : Nat) : (s.setPin k c).trip x = s.trip x := rfl
@[simp] theorem State.mitten_setPin (x : Nat) : (s.setPin k c).mitten x = s.mitten x := rfl
@[simp] theorem State.shaft_setPin (x : Nat) : (s.setPin k c).shaft x = s.shaft x := rfl
@[simp] theorem State.weir_setPin (x : Nat) : (s.setPin k c).weir x = s.weir x := rfl
@[simp] theorem State.engine_setPin (x : Nat) : (s.setPin k c).engine x = s.engine x := rfl
@[simp] theorem State.ring_setPin (x : Nat) : (s.setPin k c).ring x = s.ring x := rfl
@[simp] theorem State.iface_setPin (x : Nat) : (s.setPin k c).iface x = s.iface x := rfl
@[simp] theorem State.probe_setPin (x : Nat) : (s.setPin k c).probe x = s.probe x := rfl
@[simp] theorem State.pcmp_setPin (x : Nat) : (s.setPin k c).pcmp x = s.pcmp x := rfl
@[simp] theorem State.culvert_setPin (x : Nat) : (s.setPin k c).culvert x = s.culvert x := rfl
@[simp] theorem State.port_setPin (x : Nat) : (s.setPin k c).port x = s.port x := rfl
@[simp] theorem State.thread_setPin (x y : Nat) : (s.setPin k c).thread x y = s.thread x y := rfl
@[simp] theorem State.conv_setPin (x : Nat) : (s.setPin k c).conv x = s.conv x := rfl
@[simp] theorem State.accum_setPin (x : Nat) : (s.setPin k c).accum x = s.accum x := rfl
@[simp] theorem State.key_setPin (x : Nat) : (s.setPin k c).key x = s.key x := rfl
@[simp] theorem State.wear_setPin (x : Nat) : (s.setPin k c).wear x = s.wear x := rfl
@[simp] theorem State.now_setPin : (s.setPin k c).now = s.now := rfl
@[simp] theorem State.reached_setPin (x : Tick) : (s.setPin k c).reached x = s.reached x := rfl
@[simp] theorem State.freeValue_setPin : (s.setPin k c).freeValue = s.freeValue := rfl
@[simp] theorem State.tclk_setPin : (s.setPin k c).tclk = s.tclk := rfl
@[simp] theorem State.ucodeValid_setPin : (s.setPin k c).ucodeValid = s.ucodeValid := rfl
@[simp] theorem State.resRead_setPin (x y : Nat) : (s.setPin k c).resRead x y = s.resRead x y := rfl
@[simp] theorem State.resPoisoned_setPin (x y : Nat) : (s.setPin k c).resPoisoned x y = s.resPoisoned x y := rfl

end

/-! ### setShaft -/

section
variable (s : State) (k : Nat) (c : Shaft)

@[simp] theorem State.reg_setShaft (x : Nat) : (s.setShaft k c).reg x = s.reg x := rfl
@[simp] theorem State.fld_setShaft (x hi' lo' : Nat) : (s.setShaft k c).fld x hi' lo' = s.fld x hi' lo' := rfl
@[simp] theorem State.bit_setShaft (x i' : Nat) : (s.setShaft k c).bit x i' = s.bit x i' := rfl
@[simp] theorem State.pair_setShaft (x y : Nat) : (s.setShaft k c).pair x y = s.pair x y := rfl
@[simp] theorem State.chan_setShaft (x : Nat) : (s.setShaft k c).chan x = s.chan x := rfl
@[simp] theorem State.trip_setShaft (x : Nat) : (s.setShaft k c).trip x = s.trip x := rfl
@[simp] theorem State.mitten_setShaft (x : Nat) : (s.setShaft k c).mitten x = s.mitten x := rfl
@[simp] theorem State.pin_setShaft (x : Nat) : (s.setShaft k c).pin x = s.pin x := rfl
@[simp] theorem State.weir_setShaft (x : Nat) : (s.setShaft k c).weir x = s.weir x := rfl
@[simp] theorem State.engine_setShaft (x : Nat) : (s.setShaft k c).engine x = s.engine x := rfl
@[simp] theorem State.ring_setShaft (x : Nat) : (s.setShaft k c).ring x = s.ring x := rfl
@[simp] theorem State.iface_setShaft (x : Nat) : (s.setShaft k c).iface x = s.iface x := rfl
@[simp] theorem State.probe_setShaft (x : Nat) : (s.setShaft k c).probe x = s.probe x := rfl
@[simp] theorem State.pcmp_setShaft (x : Nat) : (s.setShaft k c).pcmp x = s.pcmp x := rfl
@[simp] theorem State.culvert_setShaft (x : Nat) : (s.setShaft k c).culvert x = s.culvert x := rfl
@[simp] theorem State.port_setShaft (x : Nat) : (s.setShaft k c).port x = s.port x := rfl
@[simp] theorem State.thread_setShaft (x y : Nat) : (s.setShaft k c).thread x y = s.thread x y := rfl
@[simp] theorem State.conv_setShaft (x : Nat) : (s.setShaft k c).conv x = s.conv x := rfl
@[simp] theorem State.accum_setShaft (x : Nat) : (s.setShaft k c).accum x = s.accum x := rfl
@[simp] theorem State.key_setShaft (x : Nat) : (s.setShaft k c).key x = s.key x := rfl
@[simp] theorem State.wear_setShaft (x : Nat) : (s.setShaft k c).wear x = s.wear x := rfl
@[simp] theorem State.now_setShaft : (s.setShaft k c).now = s.now := rfl
@[simp] theorem State.reached_setShaft (x : Tick) : (s.setShaft k c).reached x = s.reached x := rfl
@[simp] theorem State.freeValue_setShaft : (s.setShaft k c).freeValue = s.freeValue := rfl
@[simp] theorem State.tclk_setShaft : (s.setShaft k c).tclk = s.tclk := rfl
@[simp] theorem State.ucodeValid_setShaft : (s.setShaft k c).ucodeValid = s.ucodeValid := rfl
@[simp] theorem State.resRead_setShaft (x y : Nat) : (s.setShaft k c).resRead x y = s.resRead x y := rfl
@[simp] theorem State.resPoisoned_setShaft (x y : Nat) : (s.setShaft k c).resPoisoned x y = s.resPoisoned x y := rfl

end

/-! ### setWeir -/

section
variable (s : State) (k : Nat) (c : Weir)

@[simp] theorem State.reg_setWeir (x : Nat) : (s.setWeir k c).reg x = s.reg x := rfl
@[simp] theorem State.fld_setWeir (x hi' lo' : Nat) : (s.setWeir k c).fld x hi' lo' = s.fld x hi' lo' := rfl
@[simp] theorem State.bit_setWeir (x i' : Nat) : (s.setWeir k c).bit x i' = s.bit x i' := rfl
@[simp] theorem State.pair_setWeir (x y : Nat) : (s.setWeir k c).pair x y = s.pair x y := rfl
@[simp] theorem State.chan_setWeir (x : Nat) : (s.setWeir k c).chan x = s.chan x := rfl
@[simp] theorem State.trip_setWeir (x : Nat) : (s.setWeir k c).trip x = s.trip x := rfl
@[simp] theorem State.mitten_setWeir (x : Nat) : (s.setWeir k c).mitten x = s.mitten x := rfl
@[simp] theorem State.pin_setWeir (x : Nat) : (s.setWeir k c).pin x = s.pin x := rfl
@[simp] theorem State.shaft_setWeir (x : Nat) : (s.setWeir k c).shaft x = s.shaft x := rfl
@[simp] theorem State.engine_setWeir (x : Nat) : (s.setWeir k c).engine x = s.engine x := rfl
@[simp] theorem State.ring_setWeir (x : Nat) : (s.setWeir k c).ring x = s.ring x := rfl
@[simp] theorem State.iface_setWeir (x : Nat) : (s.setWeir k c).iface x = s.iface x := rfl
@[simp] theorem State.probe_setWeir (x : Nat) : (s.setWeir k c).probe x = s.probe x := rfl
@[simp] theorem State.pcmp_setWeir (x : Nat) : (s.setWeir k c).pcmp x = s.pcmp x := rfl
@[simp] theorem State.culvert_setWeir (x : Nat) : (s.setWeir k c).culvert x = s.culvert x := rfl
@[simp] theorem State.port_setWeir (x : Nat) : (s.setWeir k c).port x = s.port x := rfl
@[simp] theorem State.thread_setWeir (x y : Nat) : (s.setWeir k c).thread x y = s.thread x y := rfl
@[simp] theorem State.conv_setWeir (x : Nat) : (s.setWeir k c).conv x = s.conv x := rfl
@[simp] theorem State.accum_setWeir (x : Nat) : (s.setWeir k c).accum x = s.accum x := rfl
@[simp] theorem State.key_setWeir (x : Nat) : (s.setWeir k c).key x = s.key x := rfl
@[simp] theorem State.wear_setWeir (x : Nat) : (s.setWeir k c).wear x = s.wear x := rfl
@[simp] theorem State.now_setWeir : (s.setWeir k c).now = s.now := rfl
@[simp] theorem State.reached_setWeir (x : Tick) : (s.setWeir k c).reached x = s.reached x := rfl
@[simp] theorem State.freeValue_setWeir : (s.setWeir k c).freeValue = s.freeValue := rfl
@[simp] theorem State.tclk_setWeir : (s.setWeir k c).tclk = s.tclk := rfl
@[simp] theorem State.ucodeValid_setWeir : (s.setWeir k c).ucodeValid = s.ucodeValid := rfl
@[simp] theorem State.resRead_setWeir (x y : Nat) : (s.setWeir k c).resRead x y = s.resRead x y := rfl
@[simp] theorem State.resPoisoned_setWeir (x y : Nat) : (s.setWeir k c).resPoisoned x y = s.resPoisoned x y := rfl

end

/-! ### setEngine -/

section
variable (s : State) (k : Nat) (c : Engine)

@[simp] theorem State.reg_setEngine (x : Nat) : (s.setEngine k c).reg x = s.reg x := rfl
@[simp] theorem State.fld_setEngine (x hi' lo' : Nat) : (s.setEngine k c).fld x hi' lo' = s.fld x hi' lo' := rfl
@[simp] theorem State.bit_setEngine (x i' : Nat) : (s.setEngine k c).bit x i' = s.bit x i' := rfl
@[simp] theorem State.pair_setEngine (x y : Nat) : (s.setEngine k c).pair x y = s.pair x y := rfl
@[simp] theorem State.chan_setEngine (x : Nat) : (s.setEngine k c).chan x = s.chan x := rfl
@[simp] theorem State.trip_setEngine (x : Nat) : (s.setEngine k c).trip x = s.trip x := rfl
@[simp] theorem State.mitten_setEngine (x : Nat) : (s.setEngine k c).mitten x = s.mitten x := rfl
@[simp] theorem State.pin_setEngine (x : Nat) : (s.setEngine k c).pin x = s.pin x := rfl
@[simp] theorem State.shaft_setEngine (x : Nat) : (s.setEngine k c).shaft x = s.shaft x := rfl
@[simp] theorem State.weir_setEngine (x : Nat) : (s.setEngine k c).weir x = s.weir x := rfl
@[simp] theorem State.ring_setEngine (x : Nat) : (s.setEngine k c).ring x = s.ring x := rfl
@[simp] theorem State.iface_setEngine (x : Nat) : (s.setEngine k c).iface x = s.iface x := rfl
@[simp] theorem State.probe_setEngine (x : Nat) : (s.setEngine k c).probe x = s.probe x := rfl
@[simp] theorem State.pcmp_setEngine (x : Nat) : (s.setEngine k c).pcmp x = s.pcmp x := rfl
@[simp] theorem State.culvert_setEngine (x : Nat) : (s.setEngine k c).culvert x = s.culvert x := rfl
@[simp] theorem State.port_setEngine (x : Nat) : (s.setEngine k c).port x = s.port x := rfl
@[simp] theorem State.thread_setEngine (x y : Nat) : (s.setEngine k c).thread x y = s.thread x y := rfl
@[simp] theorem State.conv_setEngine (x : Nat) : (s.setEngine k c).conv x = s.conv x := rfl
@[simp] theorem State.accum_setEngine (x : Nat) : (s.setEngine k c).accum x = s.accum x := rfl
@[simp] theorem State.key_setEngine (x : Nat) : (s.setEngine k c).key x = s.key x := rfl
@[simp] theorem State.wear_setEngine (x : Nat) : (s.setEngine k c).wear x = s.wear x := rfl
@[simp] theorem State.now_setEngine : (s.setEngine k c).now = s.now := rfl
@[simp] theorem State.reached_setEngine (x : Tick) : (s.setEngine k c).reached x = s.reached x := rfl
@[simp] theorem State.freeValue_setEngine : (s.setEngine k c).freeValue = s.freeValue := rfl
@[simp] theorem State.tclk_setEngine : (s.setEngine k c).tclk = s.tclk := rfl
@[simp] theorem State.ucodeValid_setEngine : (s.setEngine k c).ucodeValid = s.ucodeValid := rfl
@[simp] theorem State.resRead_setEngine (x y : Nat) : (s.setEngine k c).resRead x y = s.resRead x y := rfl
@[simp] theorem State.resPoisoned_setEngine (x y : Nat) : (s.setEngine k c).resPoisoned x y = s.resPoisoned x y := rfl

end

/-! ### setRing -/

section
variable (s : State) (k : Nat) (c : RingState)

@[simp] theorem State.reg_setRing (x : Nat) : (s.setRing k c).reg x = s.reg x := rfl
@[simp] theorem State.fld_setRing (x hi' lo' : Nat) : (s.setRing k c).fld x hi' lo' = s.fld x hi' lo' := rfl
@[simp] theorem State.bit_setRing (x i' : Nat) : (s.setRing k c).bit x i' = s.bit x i' := rfl
@[simp] theorem State.pair_setRing (x y : Nat) : (s.setRing k c).pair x y = s.pair x y := rfl
@[simp] theorem State.chan_setRing (x : Nat) : (s.setRing k c).chan x = s.chan x := rfl
@[simp] theorem State.trip_setRing (x : Nat) : (s.setRing k c).trip x = s.trip x := rfl
@[simp] theorem State.mitten_setRing (x : Nat) : (s.setRing k c).mitten x = s.mitten x := rfl
@[simp] theorem State.pin_setRing (x : Nat) : (s.setRing k c).pin x = s.pin x := rfl
@[simp] theorem State.shaft_setRing (x : Nat) : (s.setRing k c).shaft x = s.shaft x := rfl
@[simp] theorem State.weir_setRing (x : Nat) : (s.setRing k c).weir x = s.weir x := rfl
@[simp] theorem State.engine_setRing (x : Nat) : (s.setRing k c).engine x = s.engine x := rfl
@[simp] theorem State.iface_setRing (x : Nat) : (s.setRing k c).iface x = s.iface x := rfl
@[simp] theorem State.probe_setRing (x : Nat) : (s.setRing k c).probe x = s.probe x := rfl
@[simp] theorem State.pcmp_setRing (x : Nat) : (s.setRing k c).pcmp x = s.pcmp x := rfl
@[simp] theorem State.culvert_setRing (x : Nat) : (s.setRing k c).culvert x = s.culvert x := rfl
@[simp] theorem State.port_setRing (x : Nat) : (s.setRing k c).port x = s.port x := rfl
@[simp] theorem State.thread_setRing (x y : Nat) : (s.setRing k c).thread x y = s.thread x y := rfl
@[simp] theorem State.conv_setRing (x : Nat) : (s.setRing k c).conv x = s.conv x := rfl
@[simp] theorem State.accum_setRing (x : Nat) : (s.setRing k c).accum x = s.accum x := rfl
@[simp] theorem State.key_setRing (x : Nat) : (s.setRing k c).key x = s.key x := rfl
@[simp] theorem State.wear_setRing (x : Nat) : (s.setRing k c).wear x = s.wear x := rfl
@[simp] theorem State.now_setRing : (s.setRing k c).now = s.now := rfl
@[simp] theorem State.reached_setRing (x : Tick) : (s.setRing k c).reached x = s.reached x := rfl
@[simp] theorem State.freeValue_setRing : (s.setRing k c).freeValue = s.freeValue := rfl
@[simp] theorem State.tclk_setRing : (s.setRing k c).tclk = s.tclk := rfl
@[simp] theorem State.ucodeValid_setRing : (s.setRing k c).ucodeValid = s.ucodeValid := rfl
@[simp] theorem State.resRead_setRing (x y : Nat) : (s.setRing k c).resRead x y = s.resRead x y := rfl
@[simp] theorem State.resPoisoned_setRing (x y : Nat) : (s.setRing k c).resPoisoned x y = s.resPoisoned x y := rfl

end

/-! ### setIface -/

section
variable (s : State) (k : Nat) (c : Iface)

@[simp] theorem State.reg_setIface (x : Nat) : (s.setIface k c).reg x = s.reg x := rfl
@[simp] theorem State.fld_setIface (x hi' lo' : Nat) : (s.setIface k c).fld x hi' lo' = s.fld x hi' lo' := rfl
@[simp] theorem State.bit_setIface (x i' : Nat) : (s.setIface k c).bit x i' = s.bit x i' := rfl
@[simp] theorem State.pair_setIface (x y : Nat) : (s.setIface k c).pair x y = s.pair x y := rfl
@[simp] theorem State.chan_setIface (x : Nat) : (s.setIface k c).chan x = s.chan x := rfl
@[simp] theorem State.trip_setIface (x : Nat) : (s.setIface k c).trip x = s.trip x := rfl
@[simp] theorem State.mitten_setIface (x : Nat) : (s.setIface k c).mitten x = s.mitten x := rfl
@[simp] theorem State.pin_setIface (x : Nat) : (s.setIface k c).pin x = s.pin x := rfl
@[simp] theorem State.shaft_setIface (x : Nat) : (s.setIface k c).shaft x = s.shaft x := rfl
@[simp] theorem State.weir_setIface (x : Nat) : (s.setIface k c).weir x = s.weir x := rfl
@[simp] theorem State.engine_setIface (x : Nat) : (s.setIface k c).engine x = s.engine x := rfl
@[simp] theorem State.ring_setIface (x : Nat) : (s.setIface k c).ring x = s.ring x := rfl
@[simp] theorem State.probe_setIface (x : Nat) : (s.setIface k c).probe x = s.probe x := rfl
@[simp] theorem State.pcmp_setIface (x : Nat) : (s.setIface k c).pcmp x = s.pcmp x := rfl
@[simp] theorem State.culvert_setIface (x : Nat) : (s.setIface k c).culvert x = s.culvert x := rfl
@[simp] theorem State.port_setIface (x : Nat) : (s.setIface k c).port x = s.port x := rfl
@[simp] theorem State.thread_setIface (x y : Nat) : (s.setIface k c).thread x y = s.thread x y := rfl
@[simp] theorem State.conv_setIface (x : Nat) : (s.setIface k c).conv x = s.conv x := rfl
@[simp] theorem State.accum_setIface (x : Nat) : (s.setIface k c).accum x = s.accum x := rfl
@[simp] theorem State.key_setIface (x : Nat) : (s.setIface k c).key x = s.key x := rfl
@[simp] theorem State.wear_setIface (x : Nat) : (s.setIface k c).wear x = s.wear x := rfl
@[simp] theorem State.now_setIface : (s.setIface k c).now = s.now := rfl
@[simp] theorem State.reached_setIface (x : Tick) : (s.setIface k c).reached x = s.reached x := rfl
@[simp] theorem State.freeValue_setIface : (s.setIface k c).freeValue = s.freeValue := rfl
@[simp] theorem State.tclk_setIface : (s.setIface k c).tclk = s.tclk := rfl
@[simp] theorem State.ucodeValid_setIface : (s.setIface k c).ucodeValid = s.ucodeValid := rfl
@[simp] theorem State.resRead_setIface (x y : Nat) : (s.setIface k c).resRead x y = s.resRead x y := rfl
@[simp] theorem State.resPoisoned_setIface (x y : Nat) : (s.setIface k c).resPoisoned x y = s.resPoisoned x y := rfl

end

/-! ### setProbe -/

section
variable (s : State) (k : Nat) (c : Probe)

@[simp] theorem State.reg_setProbe (x : Nat) : (s.setProbe k c).reg x = s.reg x := rfl
@[simp] theorem State.fld_setProbe (x hi' lo' : Nat) : (s.setProbe k c).fld x hi' lo' = s.fld x hi' lo' := rfl
@[simp] theorem State.bit_setProbe (x i' : Nat) : (s.setProbe k c).bit x i' = s.bit x i' := rfl
@[simp] theorem State.pair_setProbe (x y : Nat) : (s.setProbe k c).pair x y = s.pair x y := rfl
@[simp] theorem State.chan_setProbe (x : Nat) : (s.setProbe k c).chan x = s.chan x := rfl
@[simp] theorem State.trip_setProbe (x : Nat) : (s.setProbe k c).trip x = s.trip x := rfl
@[simp] theorem State.mitten_setProbe (x : Nat) : (s.setProbe k c).mitten x = s.mitten x := rfl
@[simp] theorem State.pin_setProbe (x : Nat) : (s.setProbe k c).pin x = s.pin x := rfl
@[simp] theorem State.shaft_setProbe (x : Nat) : (s.setProbe k c).shaft x = s.shaft x := rfl
@[simp] theorem State.weir_setProbe (x : Nat) : (s.setProbe k c).weir x = s.weir x := rfl
@[simp] theorem State.engine_setProbe (x : Nat) : (s.setProbe k c).engine x = s.engine x := rfl
@[simp] theorem State.ring_setProbe (x : Nat) : (s.setProbe k c).ring x = s.ring x := rfl
@[simp] theorem State.iface_setProbe (x : Nat) : (s.setProbe k c).iface x = s.iface x := rfl
@[simp] theorem State.pcmp_setProbe (x : Nat) : (s.setProbe k c).pcmp x = s.pcmp x := rfl
@[simp] theorem State.culvert_setProbe (x : Nat) : (s.setProbe k c).culvert x = s.culvert x := rfl
@[simp] theorem State.port_setProbe (x : Nat) : (s.setProbe k c).port x = s.port x := rfl
@[simp] theorem State.thread_setProbe (x y : Nat) : (s.setProbe k c).thread x y = s.thread x y := rfl
@[simp] theorem State.conv_setProbe (x : Nat) : (s.setProbe k c).conv x = s.conv x := rfl
@[simp] theorem State.accum_setProbe (x : Nat) : (s.setProbe k c).accum x = s.accum x := rfl
@[simp] theorem State.key_setProbe (x : Nat) : (s.setProbe k c).key x = s.key x := rfl
@[simp] theorem State.wear_setProbe (x : Nat) : (s.setProbe k c).wear x = s.wear x := rfl
@[simp] theorem State.now_setProbe : (s.setProbe k c).now = s.now := rfl
@[simp] theorem State.reached_setProbe (x : Tick) : (s.setProbe k c).reached x = s.reached x := rfl
@[simp] theorem State.freeValue_setProbe : (s.setProbe k c).freeValue = s.freeValue := rfl
@[simp] theorem State.tclk_setProbe : (s.setProbe k c).tclk = s.tclk := rfl
@[simp] theorem State.ucodeValid_setProbe : (s.setProbe k c).ucodeValid = s.ucodeValid := rfl
@[simp] theorem State.resRead_setProbe (x y : Nat) : (s.setProbe k c).resRead x y = s.resRead x y := rfl
@[simp] theorem State.resPoisoned_setProbe (x y : Nat) : (s.setProbe k c).resPoisoned x y = s.resPoisoned x y := rfl

end

/-! ### setPcmp -/

section
variable (s : State) (k : Nat) (c : Pcmp)

@[simp] theorem State.reg_setPcmp (x : Nat) : (s.setPcmp k c).reg x = s.reg x := rfl
@[simp] theorem State.fld_setPcmp (x hi' lo' : Nat) : (s.setPcmp k c).fld x hi' lo' = s.fld x hi' lo' := rfl
@[simp] theorem State.bit_setPcmp (x i' : Nat) : (s.setPcmp k c).bit x i' = s.bit x i' := rfl
@[simp] theorem State.pair_setPcmp (x y : Nat) : (s.setPcmp k c).pair x y = s.pair x y := rfl
@[simp] theorem State.chan_setPcmp (x : Nat) : (s.setPcmp k c).chan x = s.chan x := rfl
@[simp] theorem State.trip_setPcmp (x : Nat) : (s.setPcmp k c).trip x = s.trip x := rfl
@[simp] theorem State.mitten_setPcmp (x : Nat) : (s.setPcmp k c).mitten x = s.mitten x := rfl
@[simp] theorem State.pin_setPcmp (x : Nat) : (s.setPcmp k c).pin x = s.pin x := rfl
@[simp] theorem State.shaft_setPcmp (x : Nat) : (s.setPcmp k c).shaft x = s.shaft x := rfl
@[simp] theorem State.weir_setPcmp (x : Nat) : (s.setPcmp k c).weir x = s.weir x := rfl
@[simp] theorem State.engine_setPcmp (x : Nat) : (s.setPcmp k c).engine x = s.engine x := rfl
@[simp] theorem State.ring_setPcmp (x : Nat) : (s.setPcmp k c).ring x = s.ring x := rfl
@[simp] theorem State.iface_setPcmp (x : Nat) : (s.setPcmp k c).iface x = s.iface x := rfl
@[simp] theorem State.probe_setPcmp (x : Nat) : (s.setPcmp k c).probe x = s.probe x := rfl
@[simp] theorem State.culvert_setPcmp (x : Nat) : (s.setPcmp k c).culvert x = s.culvert x := rfl
@[simp] theorem State.port_setPcmp (x : Nat) : (s.setPcmp k c).port x = s.port x := rfl
@[simp] theorem State.thread_setPcmp (x y : Nat) : (s.setPcmp k c).thread x y = s.thread x y := rfl
@[simp] theorem State.conv_setPcmp (x : Nat) : (s.setPcmp k c).conv x = s.conv x := rfl
@[simp] theorem State.accum_setPcmp (x : Nat) : (s.setPcmp k c).accum x = s.accum x := rfl
@[simp] theorem State.key_setPcmp (x : Nat) : (s.setPcmp k c).key x = s.key x := rfl
@[simp] theorem State.wear_setPcmp (x : Nat) : (s.setPcmp k c).wear x = s.wear x := rfl
@[simp] theorem State.now_setPcmp : (s.setPcmp k c).now = s.now := rfl
@[simp] theorem State.reached_setPcmp (x : Tick) : (s.setPcmp k c).reached x = s.reached x := rfl
@[simp] theorem State.freeValue_setPcmp : (s.setPcmp k c).freeValue = s.freeValue := rfl
@[simp] theorem State.tclk_setPcmp : (s.setPcmp k c).tclk = s.tclk := rfl
@[simp] theorem State.ucodeValid_setPcmp : (s.setPcmp k c).ucodeValid = s.ucodeValid := rfl
@[simp] theorem State.resRead_setPcmp (x y : Nat) : (s.setPcmp k c).resRead x y = s.resRead x y := rfl
@[simp] theorem State.resPoisoned_setPcmp (x y : Nat) : (s.setPcmp k c).resPoisoned x y = s.resPoisoned x y := rfl

end

/-! ### setCulvert -/

section
variable (s : State) (k : Nat) (c : Culvert)

@[simp] theorem State.reg_setCulvert (x : Nat) : (s.setCulvert k c).reg x = s.reg x := rfl
@[simp] theorem State.fld_setCulvert (x hi' lo' : Nat) : (s.setCulvert k c).fld x hi' lo' = s.fld x hi' lo' := rfl
@[simp] theorem State.bit_setCulvert (x i' : Nat) : (s.setCulvert k c).bit x i' = s.bit x i' := rfl
@[simp] theorem State.pair_setCulvert (x y : Nat) : (s.setCulvert k c).pair x y = s.pair x y := rfl
@[simp] theorem State.chan_setCulvert (x : Nat) : (s.setCulvert k c).chan x = s.chan x := rfl
@[simp] theorem State.trip_setCulvert (x : Nat) : (s.setCulvert k c).trip x = s.trip x := rfl
@[simp] theorem State.mitten_setCulvert (x : Nat) : (s.setCulvert k c).mitten x = s.mitten x := rfl
@[simp] theorem State.pin_setCulvert (x : Nat) : (s.setCulvert k c).pin x = s.pin x := rfl
@[simp] theorem State.shaft_setCulvert (x : Nat) : (s.setCulvert k c).shaft x = s.shaft x := rfl
@[simp] theorem State.weir_setCulvert (x : Nat) : (s.setCulvert k c).weir x = s.weir x := rfl
@[simp] theorem State.engine_setCulvert (x : Nat) : (s.setCulvert k c).engine x = s.engine x := rfl
@[simp] theorem State.ring_setCulvert (x : Nat) : (s.setCulvert k c).ring x = s.ring x := rfl
@[simp] theorem State.iface_setCulvert (x : Nat) : (s.setCulvert k c).iface x = s.iface x := rfl
@[simp] theorem State.probe_setCulvert (x : Nat) : (s.setCulvert k c).probe x = s.probe x := rfl
@[simp] theorem State.pcmp_setCulvert (x : Nat) : (s.setCulvert k c).pcmp x = s.pcmp x := rfl
@[simp] theorem State.port_setCulvert (x : Nat) : (s.setCulvert k c).port x = s.port x := rfl
@[simp] theorem State.thread_setCulvert (x y : Nat) : (s.setCulvert k c).thread x y = s.thread x y := rfl
@[simp] theorem State.conv_setCulvert (x : Nat) : (s.setCulvert k c).conv x = s.conv x := rfl
@[simp] theorem State.accum_setCulvert (x : Nat) : (s.setCulvert k c).accum x = s.accum x := rfl
@[simp] theorem State.key_setCulvert (x : Nat) : (s.setCulvert k c).key x = s.key x := rfl
@[simp] theorem State.wear_setCulvert (x : Nat) : (s.setCulvert k c).wear x = s.wear x := rfl
@[simp] theorem State.now_setCulvert : (s.setCulvert k c).now = s.now := rfl
@[simp] theorem State.reached_setCulvert (x : Tick) : (s.setCulvert k c).reached x = s.reached x := rfl
@[simp] theorem State.freeValue_setCulvert : (s.setCulvert k c).freeValue = s.freeValue := rfl
@[simp] theorem State.tclk_setCulvert : (s.setCulvert k c).tclk = s.tclk := rfl
@[simp] theorem State.ucodeValid_setCulvert : (s.setCulvert k c).ucodeValid = s.ucodeValid := rfl
@[simp] theorem State.resRead_setCulvert (x y : Nat) : (s.setCulvert k c).resRead x y = s.resRead x y := rfl
@[simp] theorem State.resPoisoned_setCulvert (x y : Nat) : (s.setCulvert k c).resPoisoned x y = s.resPoisoned x y := rfl

end

/-! ### setPort -/

section
variable (s : State) (k : Nat) (c : Port)

@[simp] theorem State.reg_setPort (x : Nat) : (s.setPort k c).reg x = s.reg x := rfl
@[simp] theorem State.fld_setPort (x hi' lo' : Nat) : (s.setPort k c).fld x hi' lo' = s.fld x hi' lo' := rfl
@[simp] theorem State.bit_setPort (x i' : Nat) : (s.setPort k c).bit x i' = s.bit x i' := rfl
@[simp] theorem State.pair_setPort (x y : Nat) : (s.setPort k c).pair x y = s.pair x y := rfl
@[simp] theorem State.chan_setPort (x : Nat) : (s.setPort k c).chan x = s.chan x := rfl
@[simp] theorem State.trip_setPort (x : Nat) : (s.setPort k c).trip x = s.trip x := rfl
@[simp] theorem State.mitten_setPort (x : Nat) : (s.setPort k c).mitten x = s.mitten x := rfl
@[simp] theorem State.pin_setPort (x : Nat) : (s.setPort k c).pin x = s.pin x := rfl
@[simp] theorem State.shaft_setPort (x : Nat) : (s.setPort k c).shaft x = s.shaft x := rfl
@[simp] theorem State.weir_setPort (x : Nat) : (s.setPort k c).weir x = s.weir x := rfl
@[simp] theorem State.engine_setPort (x : Nat) : (s.setPort k c).engine x = s.engine x := rfl
@[simp] theorem State.ring_setPort (x : Nat) : (s.setPort k c).ring x = s.ring x := rfl
@[simp] theorem State.iface_setPort (x : Nat) : (s.setPort k c).iface x = s.iface x := rfl
@[simp] theorem State.probe_setPort (x : Nat) : (s.setPort k c).probe x = s.probe x := rfl
@[simp] theorem State.pcmp_setPort (x : Nat) : (s.setPort k c).pcmp x = s.pcmp x := rfl
@[simp] theorem State.culvert_setPort (x : Nat) : (s.setPort k c).culvert x = s.culvert x := rfl
@[simp] theorem State.thread_setPort (x y : Nat) : (s.setPort k c).thread x y = s.thread x y := rfl
@[simp] theorem State.conv_setPort (x : Nat) : (s.setPort k c).conv x = s.conv x := rfl
@[simp] theorem State.accum_setPort (x : Nat) : (s.setPort k c).accum x = s.accum x := rfl
@[simp] theorem State.key_setPort (x : Nat) : (s.setPort k c).key x = s.key x := rfl
@[simp] theorem State.wear_setPort (x : Nat) : (s.setPort k c).wear x = s.wear x := rfl
@[simp] theorem State.now_setPort : (s.setPort k c).now = s.now := rfl
@[simp] theorem State.reached_setPort (x : Tick) : (s.setPort k c).reached x = s.reached x := rfl
@[simp] theorem State.freeValue_setPort : (s.setPort k c).freeValue = s.freeValue := rfl
@[simp] theorem State.tclk_setPort : (s.setPort k c).tclk = s.tclk := rfl
@[simp] theorem State.ucodeValid_setPort : (s.setPort k c).ucodeValid = s.ucodeValid := rfl
@[simp] theorem State.resRead_setPort (x y : Nat) : (s.setPort k c).resRead x y = s.resRead x y := rfl
@[simp] theorem State.resPoisoned_setPort (x y : Nat) : (s.setPort k c).resPoisoned x y = s.resPoisoned x y := rfl

end

/-! ### setThread -/

section
variable (s : State) (n t : Nat) (c : Thread)

@[simp] theorem State.reg_setThread (x : Nat) : (s.setThread n t c).reg x = s.reg x := rfl
@[simp] theorem State.fld_setThread (x hi' lo' : Nat) : (s.setThread n t c).fld x hi' lo' = s.fld x hi' lo' := rfl
@[simp] theorem State.bit_setThread (x i' : Nat) : (s.setThread n t c).bit x i' = s.bit x i' := rfl
@[simp] theorem State.pair_setThread (x y : Nat) : (s.setThread n t c).pair x y = s.pair x y := rfl
@[simp] theorem State.chan_setThread (x : Nat) : (s.setThread n t c).chan x = s.chan x := rfl
@[simp] theorem State.trip_setThread (x : Nat) : (s.setThread n t c).trip x = s.trip x := rfl
@[simp] theorem State.mitten_setThread (x : Nat) : (s.setThread n t c).mitten x = s.mitten x := rfl
@[simp] theorem State.pin_setThread (x : Nat) : (s.setThread n t c).pin x = s.pin x := rfl
@[simp] theorem State.shaft_setThread (x : Nat) : (s.setThread n t c).shaft x = s.shaft x := rfl
@[simp] theorem State.weir_setThread (x : Nat) : (s.setThread n t c).weir x = s.weir x := rfl
@[simp] theorem State.engine_setThread (x : Nat) : (s.setThread n t c).engine x = s.engine x := rfl
@[simp] theorem State.ring_setThread (x : Nat) : (s.setThread n t c).ring x = s.ring x := rfl
@[simp] theorem State.iface_setThread (x : Nat) : (s.setThread n t c).iface x = s.iface x := rfl
@[simp] theorem State.probe_setThread (x : Nat) : (s.setThread n t c).probe x = s.probe x := rfl
@[simp] theorem State.pcmp_setThread (x : Nat) : (s.setThread n t c).pcmp x = s.pcmp x := rfl
@[simp] theorem State.culvert_setThread (x : Nat) : (s.setThread n t c).culvert x = s.culvert x := rfl
@[simp] theorem State.port_setThread (x : Nat) : (s.setThread n t c).port x = s.port x := rfl
@[simp] theorem State.conv_setThread (x : Nat) : (s.setThread n t c).conv x = s.conv x := rfl
@[simp] theorem State.accum_setThread (x : Nat) : (s.setThread n t c).accum x = s.accum x := rfl
@[simp] theorem State.key_setThread (x : Nat) : (s.setThread n t c).key x = s.key x := rfl
@[simp] theorem State.wear_setThread (x : Nat) : (s.setThread n t c).wear x = s.wear x := rfl
@[simp] theorem State.now_setThread : (s.setThread n t c).now = s.now := rfl
@[simp] theorem State.reached_setThread (x : Tick) : (s.setThread n t c).reached x = s.reached x := rfl
@[simp] theorem State.freeValue_setThread : (s.setThread n t c).freeValue = s.freeValue := rfl
@[simp] theorem State.tclk_setThread : (s.setThread n t c).tclk = s.tclk := rfl
@[simp] theorem State.ucodeValid_setThread : (s.setThread n t c).ucodeValid = s.ucodeValid := rfl
@[simp] theorem State.resRead_setThread (x y : Nat) : (s.setThread n t c).resRead x y = s.resRead x y := rfl
@[simp] theorem State.resPoisoned_setThread (x y : Nat) : (s.setThread n t c).resPoisoned x y = s.resPoisoned x y := rfl

end

/-! ### setConv -/

section
variable (s : State) (k : Nat) (c : Converter)

@[simp] theorem State.reg_setConv (x : Nat) : (s.setConv k c).reg x = s.reg x := rfl
@[simp] theorem State.fld_setConv (x hi' lo' : Nat) : (s.setConv k c).fld x hi' lo' = s.fld x hi' lo' := rfl
@[simp] theorem State.bit_setConv (x i' : Nat) : (s.setConv k c).bit x i' = s.bit x i' := rfl
@[simp] theorem State.pair_setConv (x y : Nat) : (s.setConv k c).pair x y = s.pair x y := rfl
@[simp] theorem State.chan_setConv (x : Nat) : (s.setConv k c).chan x = s.chan x := rfl
@[simp] theorem State.trip_setConv (x : Nat) : (s.setConv k c).trip x = s.trip x := rfl
@[simp] theorem State.mitten_setConv (x : Nat) : (s.setConv k c).mitten x = s.mitten x := rfl
@[simp] theorem State.pin_setConv (x : Nat) : (s.setConv k c).pin x = s.pin x := rfl
@[simp] theorem State.shaft_setConv (x : Nat) : (s.setConv k c).shaft x = s.shaft x := rfl
@[simp] theorem State.weir_setConv (x : Nat) : (s.setConv k c).weir x = s.weir x := rfl
@[simp] theorem State.engine_setConv (x : Nat) : (s.setConv k c).engine x = s.engine x := rfl
@[simp] theorem State.ring_setConv (x : Nat) : (s.setConv k c).ring x = s.ring x := rfl
@[simp] theorem State.iface_setConv (x : Nat) : (s.setConv k c).iface x = s.iface x := rfl
@[simp] theorem State.probe_setConv (x : Nat) : (s.setConv k c).probe x = s.probe x := rfl
@[simp] theorem State.pcmp_setConv (x : Nat) : (s.setConv k c).pcmp x = s.pcmp x := rfl
@[simp] theorem State.culvert_setConv (x : Nat) : (s.setConv k c).culvert x = s.culvert x := rfl
@[simp] theorem State.port_setConv (x : Nat) : (s.setConv k c).port x = s.port x := rfl
@[simp] theorem State.thread_setConv (x y : Nat) : (s.setConv k c).thread x y = s.thread x y := rfl
@[simp] theorem State.accum_setConv (x : Nat) : (s.setConv k c).accum x = s.accum x := rfl
@[simp] theorem State.key_setConv (x : Nat) : (s.setConv k c).key x = s.key x := rfl
@[simp] theorem State.wear_setConv (x : Nat) : (s.setConv k c).wear x = s.wear x := rfl
@[simp] theorem State.now_setConv : (s.setConv k c).now = s.now := rfl
@[simp] theorem State.reached_setConv (x : Tick) : (s.setConv k c).reached x = s.reached x := rfl
@[simp] theorem State.freeValue_setConv : (s.setConv k c).freeValue = s.freeValue := rfl
@[simp] theorem State.tclk_setConv : (s.setConv k c).tclk = s.tclk := rfl
@[simp] theorem State.ucodeValid_setConv : (s.setConv k c).ucodeValid = s.ucodeValid := rfl
@[simp] theorem State.resRead_setConv (x y : Nat) : (s.setConv k c).resRead x y = s.resRead x y := rfl
@[simp] theorem State.resPoisoned_setConv (x y : Nat) : (s.setConv k c).resPoisoned x y = s.resPoisoned x y := rfl

end

/-! ### setAccum -/

section
variable (s : State) (k : Nat) (c : Accum)

@[simp] theorem State.reg_setAccum (x : Nat) : (s.setAccum k c).reg x = s.reg x := rfl
@[simp] theorem State.fld_setAccum (x hi' lo' : Nat) : (s.setAccum k c).fld x hi' lo' = s.fld x hi' lo' := rfl
@[simp] theorem State.bit_setAccum (x i' : Nat) : (s.setAccum k c).bit x i' = s.bit x i' := rfl
@[simp] theorem State.pair_setAccum (x y : Nat) : (s.setAccum k c).pair x y = s.pair x y := rfl
@[simp] theorem State.chan_setAccum (x : Nat) : (s.setAccum k c).chan x = s.chan x := rfl
@[simp] theorem State.trip_setAccum (x : Nat) : (s.setAccum k c).trip x = s.trip x := rfl
@[simp] theorem State.mitten_setAccum (x : Nat) : (s.setAccum k c).mitten x = s.mitten x := rfl
@[simp] theorem State.pin_setAccum (x : Nat) : (s.setAccum k c).pin x = s.pin x := rfl
@[simp] theorem State.shaft_setAccum (x : Nat) : (s.setAccum k c).shaft x = s.shaft x := rfl
@[simp] theorem State.weir_setAccum (x : Nat) : (s.setAccum k c).weir x = s.weir x := rfl
@[simp] theorem State.engine_setAccum (x : Nat) : (s.setAccum k c).engine x = s.engine x := rfl
@[simp] theorem State.ring_setAccum (x : Nat) : (s.setAccum k c).ring x = s.ring x := rfl
@[simp] theorem State.iface_setAccum (x : Nat) : (s.setAccum k c).iface x = s.iface x := rfl
@[simp] theorem State.probe_setAccum (x : Nat) : (s.setAccum k c).probe x = s.probe x := rfl
@[simp] theorem State.pcmp_setAccum (x : Nat) : (s.setAccum k c).pcmp x = s.pcmp x := rfl
@[simp] theorem State.culvert_setAccum (x : Nat) : (s.setAccum k c).culvert x = s.culvert x := rfl
@[simp] theorem State.port_setAccum (x : Nat) : (s.setAccum k c).port x = s.port x := rfl
@[simp] theorem State.thread_setAccum (x y : Nat) : (s.setAccum k c).thread x y = s.thread x y := rfl
@[simp] theorem State.conv_setAccum (x : Nat) : (s.setAccum k c).conv x = s.conv x := rfl
@[simp] theorem State.key_setAccum (x : Nat) : (s.setAccum k c).key x = s.key x := rfl
@[simp] theorem State.wear_setAccum (x : Nat) : (s.setAccum k c).wear x = s.wear x := rfl
@[simp] theorem State.now_setAccum : (s.setAccum k c).now = s.now := rfl
@[simp] theorem State.reached_setAccum (x : Tick) : (s.setAccum k c).reached x = s.reached x := rfl
@[simp] theorem State.freeValue_setAccum : (s.setAccum k c).freeValue = s.freeValue := rfl
@[simp] theorem State.tclk_setAccum : (s.setAccum k c).tclk = s.tclk := rfl
@[simp] theorem State.ucodeValid_setAccum : (s.setAccum k c).ucodeValid = s.ucodeValid := rfl
@[simp] theorem State.resRead_setAccum (x y : Nat) : (s.setAccum k c).resRead x y = s.resRead x y := rfl
@[simp] theorem State.resPoisoned_setAccum (x y : Nat) : (s.setAccum k c).resPoisoned x y = s.resPoisoned x y := rfl

end

/-! ### setKey -/

section
variable (s : State) (k : Nat) (c : KeySlot)

@[simp] theorem State.reg_setKey (x : Nat) : (s.setKey k c).reg x = s.reg x := rfl
@[simp] theorem State.fld_setKey (x hi' lo' : Nat) : (s.setKey k c).fld x hi' lo' = s.fld x hi' lo' := rfl
@[simp] theorem State.bit_setKey (x i' : Nat) : (s.setKey k c).bit x i' = s.bit x i' := rfl
@[simp] theorem State.pair_setKey (x y : Nat) : (s.setKey k c).pair x y = s.pair x y := rfl
@[simp] theorem State.chan_setKey (x : Nat) : (s.setKey k c).chan x = s.chan x := rfl
@[simp] theorem State.trip_setKey (x : Nat) : (s.setKey k c).trip x = s.trip x := rfl
@[simp] theorem State.mitten_setKey (x : Nat) : (s.setKey k c).mitten x = s.mitten x := rfl
@[simp] theorem State.pin_setKey (x : Nat) : (s.setKey k c).pin x = s.pin x := rfl
@[simp] theorem State.shaft_setKey (x : Nat) : (s.setKey k c).shaft x = s.shaft x := rfl
@[simp] theorem State.weir_setKey (x : Nat) : (s.setKey k c).weir x = s.weir x := rfl
@[simp] theorem State.engine_setKey (x : Nat) : (s.setKey k c).engine x = s.engine x := rfl
@[simp] theorem State.ring_setKey (x : Nat) : (s.setKey k c).ring x = s.ring x := rfl
@[simp] theorem State.iface_setKey (x : Nat) : (s.setKey k c).iface x = s.iface x := rfl
@[simp] theorem State.probe_setKey (x : Nat) : (s.setKey k c).probe x = s.probe x := rfl
@[simp] theorem State.pcmp_setKey (x : Nat) : (s.setKey k c).pcmp x = s.pcmp x := rfl
@[simp] theorem State.culvert_setKey (x : Nat) : (s.setKey k c).culvert x = s.culvert x := rfl
@[simp] theorem State.port_setKey (x : Nat) : (s.setKey k c).port x = s.port x := rfl
@[simp] theorem State.thread_setKey (x y : Nat) : (s.setKey k c).thread x y = s.thread x y := rfl
@[simp] theorem State.conv_setKey (x : Nat) : (s.setKey k c).conv x = s.conv x := rfl
@[simp] theorem State.accum_setKey (x : Nat) : (s.setKey k c).accum x = s.accum x := rfl
@[simp] theorem State.wear_setKey (x : Nat) : (s.setKey k c).wear x = s.wear x := rfl
@[simp] theorem State.now_setKey : (s.setKey k c).now = s.now := rfl
@[simp] theorem State.reached_setKey (x : Tick) : (s.setKey k c).reached x = s.reached x := rfl
@[simp] theorem State.freeValue_setKey : (s.setKey k c).freeValue = s.freeValue := rfl
@[simp] theorem State.tclk_setKey : (s.setKey k c).tclk = s.tclk := rfl
@[simp] theorem State.ucodeValid_setKey : (s.setKey k c).ucodeValid = s.ucodeValid := rfl
@[simp] theorem State.resRead_setKey (x y : Nat) : (s.setKey k c).resRead x y = s.resRead x y := rfl
@[simp] theorem State.resPoisoned_setKey (x y : Nat) : (s.setKey k c).resPoisoned x y = s.resPoisoned x y := rfl

end

/-! ### setWear -/

section
variable (s : State) (k : Nat) (c : BitVec 48)

@[simp] theorem State.reg_setWear (x : Nat) : (s.setWear k c).reg x = s.reg x := rfl
@[simp] theorem State.fld_setWear (x hi' lo' : Nat) : (s.setWear k c).fld x hi' lo' = s.fld x hi' lo' := rfl
@[simp] theorem State.bit_setWear (x i' : Nat) : (s.setWear k c).bit x i' = s.bit x i' := rfl
@[simp] theorem State.pair_setWear (x y : Nat) : (s.setWear k c).pair x y = s.pair x y := rfl
@[simp] theorem State.chan_setWear (x : Nat) : (s.setWear k c).chan x = s.chan x := rfl
@[simp] theorem State.trip_setWear (x : Nat) : (s.setWear k c).trip x = s.trip x := rfl
@[simp] theorem State.mitten_setWear (x : Nat) : (s.setWear k c).mitten x = s.mitten x := rfl
@[simp] theorem State.pin_setWear (x : Nat) : (s.setWear k c).pin x = s.pin x := rfl
@[simp] theorem State.shaft_setWear (x : Nat) : (s.setWear k c).shaft x = s.shaft x := rfl
@[simp] theorem State.weir_setWear (x : Nat) : (s.setWear k c).weir x = s.weir x := rfl
@[simp] theorem State.engine_setWear (x : Nat) : (s.setWear k c).engine x = s.engine x := rfl
@[simp] theorem State.ring_setWear (x : Nat) : (s.setWear k c).ring x = s.ring x := rfl
@[simp] theorem State.iface_setWear (x : Nat) : (s.setWear k c).iface x = s.iface x := rfl
@[simp] theorem State.probe_setWear (x : Nat) : (s.setWear k c).probe x = s.probe x := rfl
@[simp] theorem State.pcmp_setWear (x : Nat) : (s.setWear k c).pcmp x = s.pcmp x := rfl
@[simp] theorem State.culvert_setWear (x : Nat) : (s.setWear k c).culvert x = s.culvert x := rfl
@[simp] theorem State.port_setWear (x : Nat) : (s.setWear k c).port x = s.port x := rfl
@[simp] theorem State.thread_setWear (x y : Nat) : (s.setWear k c).thread x y = s.thread x y := rfl
@[simp] theorem State.conv_setWear (x : Nat) : (s.setWear k c).conv x = s.conv x := rfl
@[simp] theorem State.accum_setWear (x : Nat) : (s.setWear k c).accum x = s.accum x := rfl
@[simp] theorem State.key_setWear (x : Nat) : (s.setWear k c).key x = s.key x := rfl
@[simp] theorem State.now_setWear : (s.setWear k c).now = s.now := rfl
@[simp] theorem State.reached_setWear (x : Tick) : (s.setWear k c).reached x = s.reached x := rfl
@[simp] theorem State.freeValue_setWear : (s.setWear k c).freeValue = s.freeValue := rfl
@[simp] theorem State.tclk_setWear : (s.setWear k c).tclk = s.tclk := rfl
@[simp] theorem State.ucodeValid_setWear : (s.setWear k c).ucodeValid = s.ucodeValid := rfl
@[simp] theorem State.resRead_setWear (x y : Nat) : (s.setWear k c).resRead x y = s.resRead x y := rfl
@[simp] theorem State.resPoisoned_setWear (x y : Nat) : (s.setWear k c).resPoisoned x y = s.resPoisoned x y := rfl

end

/-! ### resWrite -/

section
variable (s : State) (a v n : Nat)

@[simp] theorem State.reg_resWrite (x : Nat) : (s.resWrite a v n).reg x = s.reg x := rfl
@[simp] theorem State.fld_resWrite (x hi' lo' : Nat) : (s.resWrite a v n).fld x hi' lo' = s.fld x hi' lo' := rfl
@[simp] theorem State.bit_resWrite (x i' : Nat) : (s.resWrite a v n).bit x i' = s.bit x i' := rfl
@[simp] theorem State.pair_resWrite (x y : Nat) : (s.resWrite a v n).pair x y = s.pair x y := rfl
@[simp] theorem State.chan_resWrite (x : Nat) : (s.resWrite a v n).chan x = s.chan x := rfl
@[simp] theorem State.trip_resWrite (x : Nat) : (s.resWrite a v n).trip x = s.trip x := rfl
@[simp] theorem State.mitten_resWrite (x : Nat) : (s.resWrite a v n).mitten x = s.mitten x := rfl
@[simp] theorem State.pin_resWrite (x : Nat) : (s.resWrite a v n).pin x = s.pin x := rfl
@[simp] theorem State.shaft_resWrite (x : Nat) : (s.resWrite a v n).shaft x = s.shaft x := rfl
@[simp] theorem State.weir_resWrite (x : Nat) : (s.resWrite a v n).weir x = s.weir x := rfl
@[simp] theorem State.engine_resWrite (x : Nat) : (s.resWrite a v n).engine x = s.engine x := rfl
@[simp] theorem State.ring_resWrite (x : Nat) : (s.resWrite a v n).ring x = s.ring x := rfl
@[simp] theorem State.iface_resWrite (x : Nat) : (s.resWrite a v n).iface x = s.iface x := rfl
@[simp] theorem State.probe_resWrite (x : Nat) : (s.resWrite a v n).probe x = s.probe x := rfl
@[simp] theorem State.pcmp_resWrite (x : Nat) : (s.resWrite a v n).pcmp x = s.pcmp x := rfl
@[simp] theorem State.culvert_resWrite (x : Nat) : (s.resWrite a v n).culvert x = s.culvert x := rfl
@[simp] theorem State.port_resWrite (x : Nat) : (s.resWrite a v n).port x = s.port x := rfl
@[simp] theorem State.thread_resWrite (x y : Nat) : (s.resWrite a v n).thread x y = s.thread x y := rfl
@[simp] theorem State.conv_resWrite (x : Nat) : (s.resWrite a v n).conv x = s.conv x := rfl
@[simp] theorem State.accum_resWrite (x : Nat) : (s.resWrite a v n).accum x = s.accum x := rfl
@[simp] theorem State.key_resWrite (x : Nat) : (s.resWrite a v n).key x = s.key x := rfl
@[simp] theorem State.wear_resWrite (x : Nat) : (s.resWrite a v n).wear x = s.wear x := rfl
@[simp] theorem State.now_resWrite : (s.resWrite a v n).now = s.now := rfl
@[simp] theorem State.reached_resWrite (x : Tick) : (s.resWrite a v n).reached x = s.reached x := rfl
@[simp] theorem State.freeValue_resWrite : (s.resWrite a v n).freeValue = s.freeValue := rfl
@[simp] theorem State.tclk_resWrite : (s.resWrite a v n).tclk = s.tclk := rfl
@[simp] theorem State.ucodeValid_resWrite : (s.resWrite a v n).ucodeValid = s.ucodeValid := rfl
@[simp] theorem State.resPoisoned_resWrite (x y : Nat) : (s.resWrite a v n).resPoisoned x y = s.resPoisoned x y := rfl

end

/-! ### resWriteWords -/

section
variable (s : State) (a v n : Nat)

@[simp] theorem State.reg_resWriteWords (x : Nat) : (s.resWriteWords a v n).reg x = s.reg x := rfl
@[simp] theorem State.fld_resWriteWords (x hi' lo' : Nat) : (s.resWriteWords a v n).fld x hi' lo' = s.fld x hi' lo' := rfl
@[simp] theorem State.bit_resWriteWords (x i' : Nat) : (s.resWriteWords a v n).bit x i' = s.bit x i' := rfl
@[simp] theorem State.pair_resWriteWords (x y : Nat) : (s.resWriteWords a v n).pair x y = s.pair x y := rfl
@[simp] theorem State.chan_resWriteWords (x : Nat) : (s.resWriteWords a v n).chan x = s.chan x := rfl
@[simp] theorem State.trip_resWriteWords (x : Nat) : (s.resWriteWords a v n).trip x = s.trip x := rfl
@[simp] theorem State.mitten_resWriteWords (x : Nat) : (s.resWriteWords a v n).mitten x = s.mitten x := rfl
@[simp] theorem State.pin_resWriteWords (x : Nat) : (s.resWriteWords a v n).pin x = s.pin x := rfl
@[simp] theorem State.shaft_resWriteWords (x : Nat) : (s.resWriteWords a v n).shaft x = s.shaft x := rfl
@[simp] theorem State.weir_resWriteWords (x : Nat) : (s.resWriteWords a v n).weir x = s.weir x := rfl
@[simp] theorem State.engine_resWriteWords (x : Nat) : (s.resWriteWords a v n).engine x = s.engine x := rfl
@[simp] theorem State.ring_resWriteWords (x : Nat) : (s.resWriteWords a v n).ring x = s.ring x := rfl
@[simp] theorem State.iface_resWriteWords (x : Nat) : (s.resWriteWords a v n).iface x = s.iface x := rfl
@[simp] theorem State.probe_resWriteWords (x : Nat) : (s.resWriteWords a v n).probe x = s.probe x := rfl
@[simp] theorem State.pcmp_resWriteWords (x : Nat) : (s.resWriteWords a v n).pcmp x = s.pcmp x := rfl
@[simp] theorem State.culvert_resWriteWords (x : Nat) : (s.resWriteWords a v n).culvert x = s.culvert x := rfl
@[simp] theorem State.port_resWriteWords (x : Nat) : (s.resWriteWords a v n).port x = s.port x := rfl
@[simp] theorem State.thread_resWriteWords (x y : Nat) : (s.resWriteWords a v n).thread x y = s.thread x y := rfl
@[simp] theorem State.conv_resWriteWords (x : Nat) : (s.resWriteWords a v n).conv x = s.conv x := rfl
@[simp] theorem State.accum_resWriteWords (x : Nat) : (s.resWriteWords a v n).accum x = s.accum x := rfl
@[simp] theorem State.key_resWriteWords (x : Nat) : (s.resWriteWords a v n).key x = s.key x := rfl
@[simp] theorem State.wear_resWriteWords (x : Nat) : (s.resWriteWords a v n).wear x = s.wear x := rfl
@[simp] theorem State.now_resWriteWords : (s.resWriteWords a v n).now = s.now := rfl
@[simp] theorem State.reached_resWriteWords (x : Tick) : (s.resWriteWords a v n).reached x = s.reached x := rfl
@[simp] theorem State.freeValue_resWriteWords : (s.resWriteWords a v n).freeValue = s.freeValue := rfl
@[simp] theorem State.tclk_resWriteWords : (s.resWriteWords a v n).tclk = s.tclk := rfl
@[simp] theorem State.ucodeValid_resWriteWords : (s.resWriteWords a v n).ucodeValid = s.ucodeValid := rfl

end

/-! ### useFree -/

section
variable (s : State)

@[simp] theorem State.reg_useFree (x : Nat) : (s.useFree).reg x = s.reg x := rfl
@[simp] theorem State.fld_useFree (x hi' lo' : Nat) : (s.useFree).fld x hi' lo' = s.fld x hi' lo' := rfl
@[simp] theorem State.bit_useFree (x i' : Nat) : (s.useFree).bit x i' = s.bit x i' := rfl
@[simp] theorem State.pair_useFree (x y : Nat) : (s.useFree).pair x y = s.pair x y := rfl
@[simp] theorem State.chan_useFree (x : Nat) : (s.useFree).chan x = s.chan x := rfl
@[simp] theorem State.trip_useFree (x : Nat) : (s.useFree).trip x = s.trip x := rfl
@[simp] theorem State.mitten_useFree (x : Nat) : (s.useFree).mitten x = s.mitten x := rfl
@[simp] theorem State.pin_useFree (x : Nat) : (s.useFree).pin x = s.pin x := rfl
@[simp] theorem State.shaft_useFree (x : Nat) : (s.useFree).shaft x = s.shaft x := rfl
@[simp] theorem State.weir_useFree (x : Nat) : (s.useFree).weir x = s.weir x := rfl
@[simp] theorem State.engine_useFree (x : Nat) : (s.useFree).engine x = s.engine x := rfl
@[simp] theorem State.ring_useFree (x : Nat) : (s.useFree).ring x = s.ring x := rfl
@[simp] theorem State.iface_useFree (x : Nat) : (s.useFree).iface x = s.iface x := rfl
@[simp] theorem State.probe_useFree (x : Nat) : (s.useFree).probe x = s.probe x := rfl
@[simp] theorem State.pcmp_useFree (x : Nat) : (s.useFree).pcmp x = s.pcmp x := rfl
@[simp] theorem State.culvert_useFree (x : Nat) : (s.useFree).culvert x = s.culvert x := rfl
@[simp] theorem State.port_useFree (x : Nat) : (s.useFree).port x = s.port x := rfl
@[simp] theorem State.thread_useFree (x y : Nat) : (s.useFree).thread x y = s.thread x y := rfl
@[simp] theorem State.conv_useFree (x : Nat) : (s.useFree).conv x = s.conv x := rfl
@[simp] theorem State.accum_useFree (x : Nat) : (s.useFree).accum x = s.accum x := rfl
@[simp] theorem State.key_useFree (x : Nat) : (s.useFree).key x = s.key x := rfl
@[simp] theorem State.wear_useFree (x : Nat) : (s.useFree).wear x = s.wear x := rfl
@[simp] theorem State.now_useFree : (s.useFree).now = s.now := rfl
@[simp] theorem State.reached_useFree (x : Tick) : (s.useFree).reached x = s.reached x := rfl
@[simp] theorem State.tclk_useFree : (s.useFree).tclk = s.tclk := rfl
@[simp] theorem State.ucodeValid_useFree : (s.useFree).ucodeValid = s.ucodeValid := rfl
@[simp] theorem State.resRead_useFree (x y : Nat) : (s.useFree).resRead x y = s.resRead x y := rfl
@[simp] theorem State.resPoisoned_useFree (x y : Nat) : (s.useFree).resPoisoned x y = s.resPoisoned x y := rfl

end

/-! ### deliver -/

section
variable (s : State) (i : Nat) (b : Option Nat)

@[simp] theorem State.reg_deliver (x : Nat) : (s.deliver i b).reg x = s.reg x := rfl
@[simp] theorem State.fld_deliver (x hi' lo' : Nat) : (s.deliver i b).fld x hi' lo' = s.fld x hi' lo' := rfl
@[simp] theorem State.bit_deliver (x i' : Nat) : (s.deliver i b).bit x i' = s.bit x i' := rfl
@[simp] theorem State.pair_deliver (x y : Nat) : (s.deliver i b).pair x y = s.pair x y := rfl
@[simp] theorem State.chan_deliver (x : Nat) : (s.deliver i b).chan x = s.chan x := rfl
@[simp] theorem State.trip_deliver (x : Nat) : (s.deliver i b).trip x = s.trip x := rfl
@[simp] theorem State.mitten_deliver (x : Nat) : (s.deliver i b).mitten x = s.mitten x := rfl
@[simp] theorem State.pin_deliver (x : Nat) : (s.deliver i b).pin x = s.pin x := rfl
@[simp] theorem State.shaft_deliver (x : Nat) : (s.deliver i b).shaft x = s.shaft x := rfl
@[simp] theorem State.weir_deliver (x : Nat) : (s.deliver i b).weir x = s.weir x := rfl
@[simp] theorem State.engine_deliver (x : Nat) : (s.deliver i b).engine x = s.engine x := rfl
@[simp] theorem State.ring_deliver (x : Nat) : (s.deliver i b).ring x = s.ring x := rfl
@[simp] theorem State.iface_deliver (x : Nat) : (s.deliver i b).iface x = s.iface x := rfl
@[simp] theorem State.probe_deliver (x : Nat) : (s.deliver i b).probe x = s.probe x := rfl
@[simp] theorem State.pcmp_deliver (x : Nat) : (s.deliver i b).pcmp x = s.pcmp x := rfl
@[simp] theorem State.culvert_deliver (x : Nat) : (s.deliver i b).culvert x = s.culvert x := rfl
@[simp] theorem State.port_deliver (x : Nat) : (s.deliver i b).port x = s.port x := rfl
@[simp] theorem State.thread_deliver (x y : Nat) : (s.deliver i b).thread x y = s.thread x y := rfl
@[simp] theorem State.conv_deliver (x : Nat) : (s.deliver i b).conv x = s.conv x := rfl
@[simp] theorem State.accum_deliver (x : Nat) : (s.deliver i b).accum x = s.accum x := rfl
@[simp] theorem State.key_deliver (x : Nat) : (s.deliver i b).key x = s.key x := rfl
@[simp] theorem State.wear_deliver (x : Nat) : (s.deliver i b).wear x = s.wear x := rfl
@[simp] theorem State.now_deliver : (s.deliver i b).now = s.now := rfl
@[simp] theorem State.reached_deliver (x : Tick) : (s.deliver i b).reached x = s.reached x := rfl
@[simp] theorem State.freeValue_deliver : (s.deliver i b).freeValue = s.freeValue := rfl
@[simp] theorem State.tclk_deliver : (s.deliver i b).tclk = s.tclk := rfl
@[simp] theorem State.ucodeValid_deliver : (s.deliver i b).ucodeValid = s.ucodeValid := rfl
@[simp] theorem State.resRead_deliver (x y : Nat) : (s.deliver i b).resRead x y = s.resRead x y := rfl
@[simp] theorem State.resPoisoned_deliver (x y : Nat) : (s.deliver i b).resPoisoned x y = s.resPoisoned x y := rfl

end

/-! ### send -/

section
variable (s : State) (m : Sent)

@[simp] theorem State.reg_send (x : Nat) : (s.send m).reg x = s.reg x := rfl
@[simp] theorem State.fld_send (x hi' lo' : Nat) : (s.send m).fld x hi' lo' = s.fld x hi' lo' := rfl
@[simp] theorem State.bit_send (x i' : Nat) : (s.send m).bit x i' = s.bit x i' := rfl
@[simp] theorem State.pair_send (x y : Nat) : (s.send m).pair x y = s.pair x y := rfl
@[simp] theorem State.chan_send (x : Nat) : (s.send m).chan x = s.chan x := rfl
@[simp] theorem State.trip_send (x : Nat) : (s.send m).trip x = s.trip x := rfl
@[simp] theorem State.mitten_send (x : Nat) : (s.send m).mitten x = s.mitten x := rfl
@[simp] theorem State.pin_send (x : Nat) : (s.send m).pin x = s.pin x := rfl
@[simp] theorem State.shaft_send (x : Nat) : (s.send m).shaft x = s.shaft x := rfl
@[simp] theorem State.weir_send (x : Nat) : (s.send m).weir x = s.weir x := rfl
@[simp] theorem State.engine_send (x : Nat) : (s.send m).engine x = s.engine x := rfl
@[simp] theorem State.ring_send (x : Nat) : (s.send m).ring x = s.ring x := rfl
@[simp] theorem State.iface_send (x : Nat) : (s.send m).iface x = s.iface x := rfl
@[simp] theorem State.probe_send (x : Nat) : (s.send m).probe x = s.probe x := rfl
@[simp] theorem State.pcmp_send (x : Nat) : (s.send m).pcmp x = s.pcmp x := rfl
@[simp] theorem State.culvert_send (x : Nat) : (s.send m).culvert x = s.culvert x := rfl
@[simp] theorem State.port_send (x : Nat) : (s.send m).port x = s.port x := rfl
@[simp] theorem State.thread_send (x y : Nat) : (s.send m).thread x y = s.thread x y := rfl
@[simp] theorem State.conv_send (x : Nat) : (s.send m).conv x = s.conv x := rfl
@[simp] theorem State.accum_send (x : Nat) : (s.send m).accum x = s.accum x := rfl
@[simp] theorem State.key_send (x : Nat) : (s.send m).key x = s.key x := rfl
@[simp] theorem State.wear_send (x : Nat) : (s.send m).wear x = s.wear x := rfl
@[simp] theorem State.now_send : (s.send m).now = s.now := rfl
@[simp] theorem State.reached_send (x : Tick) : (s.send m).reached x = s.reached x := rfl
@[simp] theorem State.freeValue_send : (s.send m).freeValue = s.freeValue := rfl
@[simp] theorem State.tclk_send : (s.send m).tclk = s.tclk := rfl
@[simp] theorem State.ucodeValid_send : (s.send m).ucodeValid = s.ucodeValid := rfl
@[simp] theorem State.resRead_send (x y : Nat) : (s.send m).resRead x y = s.resRead x y := rfl
@[simp] theorem State.resPoisoned_send (x y : Nat) : (s.send m).resPoisoned x y = s.resPoisoned x y := rfl

end

/-! ### noteWrote -/

section
variable (s : State) (a : Nat)

@[simp] theorem State.reg_noteWrote (x : Nat) : (s.noteWrote a).reg x = s.reg x := rfl
@[simp] theorem State.fld_noteWrote (x hi' lo' : Nat) : (s.noteWrote a).fld x hi' lo' = s.fld x hi' lo' := rfl
@[simp] theorem State.bit_noteWrote (x i' : Nat) : (s.noteWrote a).bit x i' = s.bit x i' := rfl
@[simp] theorem State.pair_noteWrote (x y : Nat) : (s.noteWrote a).pair x y = s.pair x y := rfl
@[simp] theorem State.chan_noteWrote (x : Nat) : (s.noteWrote a).chan x = s.chan x := rfl
@[simp] theorem State.trip_noteWrote (x : Nat) : (s.noteWrote a).trip x = s.trip x := rfl
@[simp] theorem State.mitten_noteWrote (x : Nat) : (s.noteWrote a).mitten x = s.mitten x := rfl
@[simp] theorem State.pin_noteWrote (x : Nat) : (s.noteWrote a).pin x = s.pin x := rfl
@[simp] theorem State.shaft_noteWrote (x : Nat) : (s.noteWrote a).shaft x = s.shaft x := rfl
@[simp] theorem State.weir_noteWrote (x : Nat) : (s.noteWrote a).weir x = s.weir x := rfl
@[simp] theorem State.engine_noteWrote (x : Nat) : (s.noteWrote a).engine x = s.engine x := rfl
@[simp] theorem State.ring_noteWrote (x : Nat) : (s.noteWrote a).ring x = s.ring x := rfl
@[simp] theorem State.iface_noteWrote (x : Nat) : (s.noteWrote a).iface x = s.iface x := rfl
@[simp] theorem State.probe_noteWrote (x : Nat) : (s.noteWrote a).probe x = s.probe x := rfl
@[simp] theorem State.pcmp_noteWrote (x : Nat) : (s.noteWrote a).pcmp x = s.pcmp x := rfl
@[simp] theorem State.culvert_noteWrote (x : Nat) : (s.noteWrote a).culvert x = s.culvert x := rfl
@[simp] theorem State.port_noteWrote (x : Nat) : (s.noteWrote a).port x = s.port x := rfl
@[simp] theorem State.thread_noteWrote (x y : Nat) : (s.noteWrote a).thread x y = s.thread x y := rfl
@[simp] theorem State.conv_noteWrote (x : Nat) : (s.noteWrote a).conv x = s.conv x := rfl
@[simp] theorem State.accum_noteWrote (x : Nat) : (s.noteWrote a).accum x = s.accum x := rfl
@[simp] theorem State.key_noteWrote (x : Nat) : (s.noteWrote a).key x = s.key x := rfl
@[simp] theorem State.wear_noteWrote (x : Nat) : (s.noteWrote a).wear x = s.wear x := rfl
@[simp] theorem State.now_noteWrote : (s.noteWrote a).now = s.now := rfl
@[simp] theorem State.reached_noteWrote (x : Tick) : (s.noteWrote a).reached x = s.reached x := rfl
@[simp] theorem State.freeValue_noteWrote : (s.noteWrote a).freeValue = s.freeValue := rfl
@[simp] theorem State.tclk_noteWrote : (s.noteWrote a).tclk = s.tclk := rfl
@[simp] theorem State.ucodeValid_noteWrote : (s.noteWrote a).ucodeValid = s.ucodeValid := rfl
@[simp] theorem State.resRead_noteWrote (x y : Nat) : (s.noteWrote a).resRead x y = s.resRead x y := rfl
@[simp] theorem State.resPoisoned_noteWrote (x y : Nat) : (s.noteWrote a).resPoisoned x y = s.resPoisoned x y := rfl

end

/-! ### noteHost -/

section
variable (s : State) (a : Nat)

@[simp] theorem State.reg_noteHost (x : Nat) : (s.noteHost a).reg x = s.reg x := rfl
@[simp] theorem State.fld_noteHost (x hi' lo' : Nat) : (s.noteHost a).fld x hi' lo' = s.fld x hi' lo' := rfl
@[simp] theorem State.bit_noteHost (x i' : Nat) : (s.noteHost a).bit x i' = s.bit x i' := rfl
@[simp] theorem State.pair_noteHost (x y : Nat) : (s.noteHost a).pair x y = s.pair x y := rfl
@[simp] theorem State.chan_noteHost (x : Nat) : (s.noteHost a).chan x = s.chan x := rfl
@[simp] theorem State.trip_noteHost (x : Nat) : (s.noteHost a).trip x = s.trip x := rfl
@[simp] theorem State.mitten_noteHost (x : Nat) : (s.noteHost a).mitten x = s.mitten x := rfl
@[simp] theorem State.pin_noteHost (x : Nat) : (s.noteHost a).pin x = s.pin x := rfl
@[simp] theorem State.shaft_noteHost (x : Nat) : (s.noteHost a).shaft x = s.shaft x := rfl
@[simp] theorem State.weir_noteHost (x : Nat) : (s.noteHost a).weir x = s.weir x := rfl
@[simp] theorem State.engine_noteHost (x : Nat) : (s.noteHost a).engine x = s.engine x := rfl
@[simp] theorem State.ring_noteHost (x : Nat) : (s.noteHost a).ring x = s.ring x := rfl
@[simp] theorem State.iface_noteHost (x : Nat) : (s.noteHost a).iface x = s.iface x := rfl
@[simp] theorem State.probe_noteHost (x : Nat) : (s.noteHost a).probe x = s.probe x := rfl
@[simp] theorem State.pcmp_noteHost (x : Nat) : (s.noteHost a).pcmp x = s.pcmp x := rfl
@[simp] theorem State.culvert_noteHost (x : Nat) : (s.noteHost a).culvert x = s.culvert x := rfl
@[simp] theorem State.port_noteHost (x : Nat) : (s.noteHost a).port x = s.port x := rfl
@[simp] theorem State.thread_noteHost (x y : Nat) : (s.noteHost a).thread x y = s.thread x y := rfl
@[simp] theorem State.conv_noteHost (x : Nat) : (s.noteHost a).conv x = s.conv x := rfl
@[simp] theorem State.accum_noteHost (x : Nat) : (s.noteHost a).accum x = s.accum x := rfl
@[simp] theorem State.key_noteHost (x : Nat) : (s.noteHost a).key x = s.key x := rfl
@[simp] theorem State.wear_noteHost (x : Nat) : (s.noteHost a).wear x = s.wear x := rfl
@[simp] theorem State.now_noteHost : (s.noteHost a).now = s.now := rfl
@[simp] theorem State.reached_noteHost (x : Tick) : (s.noteHost a).reached x = s.reached x := rfl
@[simp] theorem State.freeValue_noteHost : (s.noteHost a).freeValue = s.freeValue := rfl
@[simp] theorem State.tclk_noteHost : (s.noteHost a).tclk = s.tclk := rfl
@[simp] theorem State.ucodeValid_noteHost : (s.noteHost a).ucodeValid = s.ucodeValid := rfl
@[simp] theorem State.resRead_noteHost (x y : Nat) : (s.noteHost a).resRead x y = s.resRead x y := rfl
@[simp] theorem State.resPoisoned_noteHost (x y : Nat) : (s.noteHost a).resPoisoned x y = s.resPoisoned x y := rfl

end

/-! ### noteHw -/

section
variable (s : State) (a i : Nat) (b : Bool)

@[simp] theorem State.reg_noteHw (x : Nat) : (s.noteHw a i b).reg x = s.reg x := rfl
@[simp] theorem State.fld_noteHw (x hi' lo' : Nat) : (s.noteHw a i b).fld x hi' lo' = s.fld x hi' lo' := rfl
@[simp] theorem State.bit_noteHw (x i' : Nat) : (s.noteHw a i b).bit x i' = s.bit x i' := rfl
@[simp] theorem State.pair_noteHw (x y : Nat) : (s.noteHw a i b).pair x y = s.pair x y := rfl
@[simp] theorem State.chan_noteHw (x : Nat) : (s.noteHw a i b).chan x = s.chan x := rfl
@[simp] theorem State.trip_noteHw (x : Nat) : (s.noteHw a i b).trip x = s.trip x := rfl
@[simp] theorem State.mitten_noteHw (x : Nat) : (s.noteHw a i b).mitten x = s.mitten x := rfl
@[simp] theorem State.pin_noteHw (x : Nat) : (s.noteHw a i b).pin x = s.pin x := rfl
@[simp] theorem State.shaft_noteHw (x : Nat) : (s.noteHw a i b).shaft x = s.shaft x := rfl
@[simp] theorem State.weir_noteHw (x : Nat) : (s.noteHw a i b).weir x = s.weir x := rfl
@[simp] theorem State.engine_noteHw (x : Nat) : (s.noteHw a i b).engine x = s.engine x := rfl
@[simp] theorem State.ring_noteHw (x : Nat) : (s.noteHw a i b).ring x = s.ring x := rfl
@[simp] theorem State.iface_noteHw (x : Nat) : (s.noteHw a i b).iface x = s.iface x := rfl
@[simp] theorem State.probe_noteHw (x : Nat) : (s.noteHw a i b).probe x = s.probe x := rfl
@[simp] theorem State.pcmp_noteHw (x : Nat) : (s.noteHw a i b).pcmp x = s.pcmp x := rfl
@[simp] theorem State.culvert_noteHw (x : Nat) : (s.noteHw a i b).culvert x = s.culvert x := rfl
@[simp] theorem State.port_noteHw (x : Nat) : (s.noteHw a i b).port x = s.port x := rfl
@[simp] theorem State.thread_noteHw (x y : Nat) : (s.noteHw a i b).thread x y = s.thread x y := rfl
@[simp] theorem State.conv_noteHw (x : Nat) : (s.noteHw a i b).conv x = s.conv x := rfl
@[simp] theorem State.accum_noteHw (x : Nat) : (s.noteHw a i b).accum x = s.accum x := rfl
@[simp] theorem State.key_noteHw (x : Nat) : (s.noteHw a i b).key x = s.key x := rfl
@[simp] theorem State.wear_noteHw (x : Nat) : (s.noteHw a i b).wear x = s.wear x := rfl
@[simp] theorem State.now_noteHw : (s.noteHw a i b).now = s.now := rfl
@[simp] theorem State.reached_noteHw (x : Tick) : (s.noteHw a i b).reached x = s.reached x := rfl
@[simp] theorem State.freeValue_noteHw : (s.noteHw a i b).freeValue = s.freeValue := rfl
@[simp] theorem State.tclk_noteHw : (s.noteHw a i b).tclk = s.tclk := rfl
@[simp] theorem State.ucodeValid_noteHw : (s.noteHw a i b).ucodeValid = s.ucodeValid := rfl
@[simp] theorem State.resRead_noteHw (x y : Nat) : (s.noteHw a i b).resRead x y = s.resRead x y := rfl
@[simp] theorem State.resPoisoned_noteHw (x y : Nat) : (s.noteHw a i b).resPoisoned x y = s.resPoisoned x y := rfl

end

/-! ### raise -/

section
variable (s : State) (a i : Nat)

@[simp] theorem State.chan_raise (x : Nat) : (s.raise a i).chan x = s.chan x := rfl
@[simp] theorem State.trip_raise (x : Nat) : (s.raise a i).trip x = s.trip x := rfl
@[simp] theorem State.mitten_raise (x : Nat) : (s.raise a i).mitten x = s.mitten x := rfl
@[simp] theorem State.pin_raise (x : Nat) : (s.raise a i).pin x = s.pin x := rfl
@[simp] theorem State.shaft_raise (x : Nat) : (s.raise a i).shaft x = s.shaft x := rfl
@[simp] theorem State.weir_raise (x : Nat) : (s.raise a i).weir x = s.weir x := rfl
@[simp] theorem State.engine_raise (x : Nat) : (s.raise a i).engine x = s.engine x := rfl
@[simp] theorem State.ring_raise (x : Nat) : (s.raise a i).ring x = s.ring x := rfl
@[simp] theorem State.iface_raise (x : Nat) : (s.raise a i).iface x = s.iface x := rfl
@[simp] theorem State.probe_raise (x : Nat) : (s.raise a i).probe x = s.probe x := rfl
@[simp] theorem State.pcmp_raise (x : Nat) : (s.raise a i).pcmp x = s.pcmp x := rfl
@[simp] theorem State.culvert_raise (x : Nat) : (s.raise a i).culvert x = s.culvert x := rfl
@[simp] theorem State.port_raise (x : Nat) : (s.raise a i).port x = s.port x := rfl
@[simp] theorem State.thread_raise (x y : Nat) : (s.raise a i).thread x y = s.thread x y := rfl
@[simp] theorem State.conv_raise (x : Nat) : (s.raise a i).conv x = s.conv x := rfl
@[simp] theorem State.accum_raise (x : Nat) : (s.raise a i).accum x = s.accum x := rfl
@[simp] theorem State.key_raise (x : Nat) : (s.raise a i).key x = s.key x := rfl
@[simp] theorem State.wear_raise (x : Nat) : (s.raise a i).wear x = s.wear x := rfl
@[simp] theorem State.now_raise : (s.raise a i).now = s.now := rfl
@[simp] theorem State.reached_raise (x : Tick) : (s.raise a i).reached x = s.reached x := rfl
@[simp] theorem State.freeValue_raise : (s.raise a i).freeValue = s.freeValue := rfl
@[simp] theorem State.tclk_raise : (s.raise a i).tclk = s.tclk := rfl
@[simp] theorem State.resRead_raise (x y : Nat) : (s.raise a i).resRead x y = s.resRead x y := rfl
@[simp] theorem State.resPoisoned_raise (x y : Nat) : (s.raise a i).resPoisoned x y = s.resPoisoned x y := rfl

end

/-! ### setNext -/

section
variable (s : State) (a : Nat) (v : Word)

@[simp] theorem State.chan_setNext (x : Nat) : (s.setNext a v).chan x = s.chan x := rfl
@[simp] theorem State.trip_setNext (x : Nat) : (s.setNext a v).trip x = s.trip x := rfl
@[simp] theorem State.mitten_setNext (x : Nat) : (s.setNext a v).mitten x = s.mitten x := rfl
@[simp] theorem State.pin_setNext (x : Nat) : (s.setNext a v).pin x = s.pin x := rfl
@[simp] theorem State.shaft_setNext (x : Nat) : (s.setNext a v).shaft x = s.shaft x := rfl
@[simp] theorem State.weir_setNext (x : Nat) : (s.setNext a v).weir x = s.weir x := rfl
@[simp] theorem State.engine_setNext (x : Nat) : (s.setNext a v).engine x = s.engine x := rfl
@[simp] theorem State.ring_setNext (x : Nat) : (s.setNext a v).ring x = s.ring x := rfl
@[simp] theorem State.iface_setNext (x : Nat) : (s.setNext a v).iface x = s.iface x := rfl
@[simp] theorem State.probe_setNext (x : Nat) : (s.setNext a v).probe x = s.probe x := rfl
@[simp] theorem State.pcmp_setNext (x : Nat) : (s.setNext a v).pcmp x = s.pcmp x := rfl
@[simp] theorem State.culvert_setNext (x : Nat) : (s.setNext a v).culvert x = s.culvert x := rfl
@[simp] theorem State.port_setNext (x : Nat) : (s.setNext a v).port x = s.port x := rfl
@[simp] theorem State.thread_setNext (x y : Nat) : (s.setNext a v).thread x y = s.thread x y := rfl
@[simp] theorem State.conv_setNext (x : Nat) : (s.setNext a v).conv x = s.conv x := rfl
@[simp] theorem State.accum_setNext (x : Nat) : (s.setNext a v).accum x = s.accum x := rfl
@[simp] theorem State.key_setNext (x : Nat) : (s.setNext a v).key x = s.key x := rfl
@[simp] theorem State.wear_setNext (x : Nat) : (s.setNext a v).wear x = s.wear x := rfl
@[simp] theorem State.now_setNext : (s.setNext a v).now = s.now := rfl
@[simp] theorem State.reached_setNext (x : Tick) : (s.setNext a v).reached x = s.reached x := rfl
@[simp] theorem State.freeValue_setNext : (s.setNext a v).freeValue = s.freeValue := rfl
@[simp] theorem State.tclk_setNext : (s.setNext a v).tclk = s.tclk := rfl
@[simp] theorem State.resRead_setNext (x y : Nat) : (s.setNext a v).resRead x y = s.resRead x y := rfl
@[simp] theorem State.resPoisoned_setNext (x y : Nat) : (s.setNext a v).resPoisoned x y = s.resPoisoned x y := rfl

end

/-! ### noteTake -/

section
variable (s : State) (t : Take)

@[simp] theorem State.reg_noteTake (x : Nat) : (s.noteTake t).reg x = s.reg x := rfl
@[simp] theorem State.fld_noteTake (x hi' lo' : Nat) : (s.noteTake t).fld x hi' lo' = s.fld x hi' lo' := rfl
@[simp] theorem State.bit_noteTake (x i' : Nat) : (s.noteTake t).bit x i' = s.bit x i' := rfl
@[simp] theorem State.pair_noteTake (x y : Nat) : (s.noteTake t).pair x y = s.pair x y := rfl
@[simp] theorem State.chan_noteTake (x : Nat) : (s.noteTake t).chan x = s.chan x := rfl
@[simp] theorem State.trip_noteTake (x : Nat) : (s.noteTake t).trip x = s.trip x := rfl
@[simp] theorem State.mitten_noteTake (x : Nat) : (s.noteTake t).mitten x = s.mitten x := rfl
@[simp] theorem State.pin_noteTake (x : Nat) : (s.noteTake t).pin x = s.pin x := rfl
@[simp] theorem State.shaft_noteTake (x : Nat) : (s.noteTake t).shaft x = s.shaft x := rfl
@[simp] theorem State.weir_noteTake (x : Nat) : (s.noteTake t).weir x = s.weir x := rfl
@[simp] theorem State.engine_noteTake (x : Nat) : (s.noteTake t).engine x = s.engine x := rfl
@[simp] theorem State.ring_noteTake (x : Nat) : (s.noteTake t).ring x = s.ring x := rfl
@[simp] theorem State.iface_noteTake (x : Nat) : (s.noteTake t).iface x = s.iface x := rfl
@[simp] theorem State.probe_noteTake (x : Nat) : (s.noteTake t).probe x = s.probe x := rfl
@[simp] theorem State.pcmp_noteTake (x : Nat) : (s.noteTake t).pcmp x = s.pcmp x := rfl
@[simp] theorem State.culvert_noteTake (x : Nat) : (s.noteTake t).culvert x = s.culvert x := rfl
@[simp] theorem State.port_noteTake (x : Nat) : (s.noteTake t).port x = s.port x := rfl
@[simp] theorem State.thread_noteTake (x y : Nat) : (s.noteTake t).thread x y = s.thread x y := rfl
@[simp] theorem State.conv_noteTake (x : Nat) : (s.noteTake t).conv x = s.conv x := rfl
@[simp] theorem State.accum_noteTake (x : Nat) : (s.noteTake t).accum x = s.accum x := rfl
@[simp] theorem State.key_noteTake (x : Nat) : (s.noteTake t).key x = s.key x := rfl
@[simp] theorem State.wear_noteTake (x : Nat) : (s.noteTake t).wear x = s.wear x := rfl
@[simp] theorem State.now_noteTake : (s.noteTake t).now = s.now := rfl
@[simp] theorem State.reached_noteTake (x : Tick) : (s.noteTake t).reached x = s.reached x := rfl
@[simp] theorem State.freeValue_noteTake : (s.noteTake t).freeValue = s.freeValue := rfl
@[simp] theorem State.tclk_noteTake : (s.noteTake t).tclk = s.tclk := rfl
@[simp] theorem State.ucodeValid_noteTake : (s.noteTake t).ucodeValid = s.ucodeValid := rfl
@[simp] theorem State.resRead_noteTake (x y : Nat) : (s.noteTake t).resRead x y = s.resRead x y := rfl
@[simp] theorem State.resPoisoned_noteTake (x y : Nat) : (s.noteTake t).resPoisoned x y = s.resPoisoned x y := rfl

end

end Sys2Proof.Machine
end

