-- ==== Sys2Proof/Laws/Bits.lean ====
section
/-!
SUPPORT. Fields and bits: what a field reads after a field or a bit has been replaced, and the words of a pair.
-/

namespace Sys2Proof.Machine

/-! ### Words -/

theorem getLsbD_maskOf (hi lo i : Nat) : (maskOf hi lo).getLsbD i = (decide (i < 32) && decide (lo ≤ i) && decide (i ≤ hi)) := by
  unfold maskOf
  simp only [BitVec.getLsbD_ofNat, Nat.testBit_shiftLeft, Nat.testBit_two_pow_sub_one]
  by_cases h1 : i < 32 <;> by_cases h2 : lo ≤ i <;> by_cases h3 : i ≤ hi <;> simp [h1, h2, h3] <;> omega

/-- Bit `i` of a word whose bits `hi..lo` have been replaced. -/
theorem getLsbD_setBits (w : Word) (hi lo v i : Nat) :
    (setBits w hi lo v).getLsbD i = if i < 32 ∧ lo ≤ i ∧ i ≤ hi then v.testBit (i - lo) else w.getLsbD i := by
  unfold setBits
  simp only [BitVec.getLsbD_or, BitVec.getLsbD_and, BitVec.getLsbD_not, getLsbD_maskOf, BitVec.getLsbD_ofNat, Nat.testBit_shiftLeft]
  by_cases h1 : i < 32
  · by_cases h2 : lo ≤ i <;> by_cases h3 : i ≤ hi <;> simp [h1, h2, h3]
  · simp [h1, BitVec.getLsbD_of_ge w i (by omega)]

theorem testBit_bitsOf (w : Word) (hi lo i : Nat) : (bitsOf w hi lo).testBit i = (decide (i < hi + 1 - lo) && w.getLsbD (lo + i)) := by
  unfold bitsOf
  rw [Nat.testBit_mod_two_pow, Nat.testBit_shiftRight, BitVec.getLsbD]

theorem bitsOf_lt (w : Word) (hi lo : Nat) : bitsOf w hi lo < 2 ^ (hi + 1 - lo) := Nat.mod_lt _ (Nat.two_pow_pos _)

/-- The field that has been replaced. -/
theorem bitsOf_setBits_self (w : Word) (hi lo v : Nat) (h : hi < 32) : bitsOf (setBits w hi lo v) hi lo = v % 2 ^ (hi + 1 - lo) := by
  apply Nat.eq_of_testBit_eq
  intro i
  rw [testBit_bitsOf, Nat.testBit_mod_two_pow, getLsbD_setBits]
  by_cases hi' : i < hi + 1 - lo
  · rw [if_pos (by omega)]; simp [hi']
  · simp [hi']

/-- A field that shares no bit with the one replaced. -/
theorem bitsOf_setBits_ne (w : Word) (hi lo v hi' lo' : Nat) (h : hi' < lo ∨ hi < lo') :
    bitsOf (setBits w hi lo v) hi' lo' = bitsOf w hi' lo' := by
  apply Nat.eq_of_testBit_eq
  intro i
  rw [testBit_bitsOf, testBit_bitsOf, getLsbD_setBits]
  by_cases hi'' : i < hi' + 1 - lo'
  · rw [if_neg (by omega)]
  · simp [hi'']

theorem bitOf_setBits_ne (w : Word) (hi lo v i : Nat) (h : i < lo ∨ hi < i) : bitOf (setBits w hi lo v) i = bitOf w i := by
  rw [bitOf, getLsbD_setBits, if_neg (by omega)]

theorem getLsbD_putBit (w : Word) (i j : Nat) (b : Bool) : (putBit w i b).getLsbD j = if j < 32 ∧ j = i then b else w.getLsbD j := by
  unfold putBit
  rw [getLsbD_setBits]
  by_cases h : j = i
  · subst h; cases b <;> simp
  · rw [if_neg (by omega), if_neg (by omega)]

@[simp] theorem bitOf_putBit_self (w : Word) (i : Nat) (b : Bool) (h : i < 32) : bitOf (putBit w i b) i = b := by
  rw [bitOf, getLsbD_putBit, if_pos ⟨h, rfl⟩]

@[simp] theorem bitOf_putBit_ne (w : Word) {i j : Nat} (b : Bool) (h : j ≠ i) : bitOf (putBit w i b) j = bitOf w j := by
  rw [bitOf, getLsbD_putBit, if_neg (by omega)]

theorem bitsOf_putBit_ne (w : Word) (i : Nat) (b : Bool) (hi lo : Nat) (h : i < lo ∨ hi < i) : bitsOf (putBit w i b) hi lo = bitsOf w hi lo :=
  bitsOf_setBits_ne _ _ _ _ _ _ (by omega)

/-- A bit of a merged word comes from the new word where the mask has it. -/
theorem getLsbD_mergeWord (old new mask : Word) (i : Nat) :
    (mergeWord old new mask).getLsbD i = if mask.getLsbD i then new.getLsbD i else old.getLsbD i := by
  unfold mergeWord
  simp only [BitVec.getLsbD_or, BitVec.getLsbD_and, BitVec.getLsbD_not]
  by_cases h : i < 32
  · cases mask.getLsbD i <;> simp [h]
  · simp [BitVec.getLsbD_of_ge _ i (Nat.le_of_not_lt h)]

@[simp] theorem ofWords_words (v : BitVec 64) : ofWords (hiWord v) (loWord v) = v := by
  unfold ofWords hiWord loWord
  apply BitVec.eq_of_getLsbD_eq
  intro i hi
  simp only [BitVec.getLsbD_append, BitVec.truncate_eq_setWidth, BitVec.getLsbD_setWidth, BitVec.getLsbD_ushiftRight]
  by_cases h : i < 32
  · simp [h]
  · simp only [h, if_false, decide_false]
    rw [show 32 + (i - 32) = i by omega, show decide (i - 32 < 32) = true by simp; omega, Bool.true_and]

/-! ### Fields of registers -/

@[simp] theorem State.fld_setFld_self (s : State) (a hi lo v : Nat) (h : hi < 32) :
    (s.setFld a hi lo v).fld a hi lo = v % 2 ^ (hi + 1 - lo) := by
  rw [State.fld, State.setFld, State.reg_setReg_self, bitsOf_setBits_self _ _ _ _ h]

theorem State.fld_setFld_ne (s : State) (a hi lo v hi' lo' : Nat) (h : hi' < lo ∨ hi < lo') :
    (s.setFld a hi lo v).fld a hi' lo' = s.fld a hi' lo' := by
  rw [State.fld, State.setFld, State.reg_setReg_self, bitsOf_setBits_ne _ _ _ _ _ _ h, State.fld]

@[simp] theorem State.bit_setBit_self (s : State) (a i : Nat) (b : Bool) (h : i < 32) : (s.setBit a i b).bit a i = b := by
  rw [State.bit, State.setBit, State.reg_setReg_self, bitOf_putBit_self _ _ _ h]

@[simp] theorem State.bit_setBit_ne (s : State) (a : Nat) {i j : Nat} (b : Bool) (h : j ≠ i) : (s.setBit a i b).bit a j = s.bit a j := by
  rw [State.bit, State.setBit, State.reg_setReg_self, bitOf_putBit_ne _ _ h, State.bit]

@[simp] theorem State.reg_setFld_ne (s : State) {a b : Nat} (hi lo v : Nat) (h : b ≠ a) : (s.setFld a hi lo v).reg b = s.reg b :=
  State.reg_setReg_ne _ _ h

@[simp] theorem State.reg_setBit_ne (s : State) {a b : Nat} (i : Nat) (v : Bool) (h : b ≠ a) : (s.setBit a i v).reg b = s.reg b :=
  State.reg_setReg_ne _ _ h

@[simp] theorem State.reg_satCount_self (s : State) (a : Nat) : (s.satCount a).reg a = satInc (s.reg a) := State.reg_setReg_self _ _ _

@[simp] theorem State.reg_satCount_ne (s : State) {a b : Nat} (h : b ≠ a) : (s.satCount a).reg b = s.reg b := State.reg_setReg_ne _ _ h

@[simp] theorem State.reg_count_self (s : State) (a : Nat) : (s.count a).reg a = s.reg a + 1 := State.reg_setReg_self _ _ _

@[simp] theorem State.reg_count_ne (s : State) {a b : Nat} (h : b ≠ a) : (s.count a).reg b = s.reg b := State.reg_setReg_ne _ _ h

@[simp] theorem State.pair_setPair_self (s : State) (lo hi : Nat) (v : BitVec 64) (h : lo ≠ hi) : (s.setPair lo hi v).pair lo hi = v := by
  rw [State.pair, State.setPair, State.reg_setReg_self, State.reg_setReg_ne _ _ h, State.reg_setReg_self, ofWords_words]

@[simp] theorem State.reg_setPair_ne (s : State) {lo hi a : Nat} (v : BitVec 64) (h1 : a ≠ lo) (h2 : a ≠ hi) :
    (s.setPair lo hi v).reg a = s.reg a := by
  rw [State.setPair, State.reg_setReg_ne _ _ h2, State.reg_setReg_ne _ _ h1]

end Sys2Proof.Machine
end

