-- ==== Sys2Proof/Laws/Access.lean ====
section
/-!
SUPPORT. What each shared operation of an access can do: a host write in each of its cases, a host read, and an event of the TCLK domain.
-/

namespace Sys2Proof.Machine

variable (s : State) {a : Nat} {v : Word} (f : State → State)

/-! ### Host writes -/

/-- A write that takes effect in its tick. -/
theorem State.hostWrite_accepts (h : s.accepts a v) : s.hostWrite a v f = f (s.noteHost a) := by
  obtain ⟨⟨h1, hb⟩, h2, h3, h4, h5⟩ := h
  simp [State.hostWrite, State.portWrite, h1, hb, h2, h3, h4, h5]

/-- A write while a reset or a stop of the clocks is in force. -/
theorem State.hostWrite_stopped (h : s.power.phase ≠ .run) : s.hostWrite a v f = s := by
  simp [State.hostWrite, State.portWrite, h]

/-- A write that SEAL refuses. -/
theorem State.hostWrite_locked (h : s.power.phase = .run) (hs : s.sealLocks a v = true) : s.hostWrite a v f = s.lockRefused a v := by
  simp [State.hostWrite, State.portWrite, h, hs]

/-- The four outcomes of a write of a host port: discarded, refused by SEAL, put off, or taken. -/
theorem State.portWrite_cases (q : Bool) (a : Nat) (v : Word) :
    s.portWrite q a v f = s ∨ s.portWrite q a v f = s.lockRefused a v ∨
      s.portWrite q a v f = { s with later := s.later ++ [.host q a v] } ∨ s.portWrite q a v f = f (s.noteHost a) := by
  unfold State.portWrite
  repeat' split
  · exact .inl rfl
  · exact .inr (.inl rfl)
  · exact .inr (.inr (.inl rfl))
  · exact .inr (.inr (.inr rfl))

/-- A write that is put off behind an earlier write of the port, for a gated cluster or behind another write of its register. -/
theorem State.hostWrite_later (h : s.power.phase = .run) (hs : s.sealLocks a v = false)
    (hw : s.hostBlocked false = true ∨ s.meetsGate a = true ∨ s.wroteNow a = true) :
    s.hostWrite a v f = { s with later := s.later ++ [.host false a v] } := by
  rcases hw with hw | hw | hw <;> simp [State.hostWrite, State.portWrite, h, hs, hw]

/-- Whatever a state and every outcome of the write share, the write keeps. -/
theorem State.portWrite_preserves (P : State → Prop) (q : Bool) (a : Nat) (v : Word) (h0 : P s) (h1 : P (s.lockRefused a v))
    (h2 : P { s with later := s.later ++ [.host q a v] }) (h3 : P (f (s.noteHost a))) : P (s.portWrite q a v f) := by
  rcases s.portWrite_cases f q a v with h | h | h | h <;> rw [h] <;> assumption

/-! ### Host reads -/

/-- A read that is served. -/
theorem State.hostRead_serves (r : State → Word × State) (h : s.serves) :
    s.hostRead r = { s.touchChanged (r s).2 with hostData := [(r s).1] } := by
  obtain ⟨hp, hb⟩ := h
  simp [State.hostRead, hp, hb]

/-- A read during a watchdog or soft reset returns 0 (R360). -/
theorem State.hostRead_soft (r : State → Word × State) (h : s.power.phase = .soft) : s.hostRead r = s.returning [0] := by
  simp [State.hostRead, h, State.returning]

/-- The outcomes of a host read. -/
theorem State.hostRead_cases (r : State → Word × State) :
    s.hostRead r = s ∨ s.hostRead r = s.returning [0] ∨
      (s.serves ∧ s.hostRead r = { s.touchChanged (r s).2 with hostData := [(r s).1] }) := by
  by_cases h : s.serves
  · exact .inr (.inr ⟨h, s.hostRead_serves r h⟩)
  · by_cases h' : s.power.phase = .soft
    · exact .inr (.inl (s.hostRead_soft r h'))
    · left
      unfold State.serves at h
      unfold State.hostRead
      split <;> simp_all

/-! ### Events of the TCLK domain -/

theorem State.onTclk_clocked (t : State) (h : s.clocked) : s.onTclk t = t := by
  have h' : s.tclk = true := h
  simp [State.onTclk, h']

theorem State.onTclk_stopped (t : State) (h : s.tclk = false) : s.onTclk t = s := by simp [State.onTclk, h]

theorem State.onTclk_preserves (P : State → Prop) (t : State) (h0 : P s) (h1 : P t) : P (s.onTclk t) := by
  unfold State.onTclk; split <;> assumption

/-- A state that serves host reads has its clock. -/
theorem State.clocked_of_serves (h : s.serves) : s.clocked := by
  simp [State.clocked, State.tclk, h.1]

theorem State.serves_of_accepts (h : s.accepts a v) : s.serves := h.1

/-! ### The note of a write -/

/-- The note of a write changes the two fields of R407 alone. -/
theorem State.noteWrote_eq (a : Nat) :
    s.noteWrote a = { s with wroteTick := (s.noteWrote a).wroteTick, wrote := (s.noteWrote a).wrote } := rfl

@[simp] theorem State.serves_noteWrote (a : Nat) : (s.noteWrote a).serves ↔ s.serves := Iff.rfl

/-- The register that has taken its write has it. -/
theorem State.wroteNow_noteWrote_self (a : Nat) : (s.noteWrote a).wroteNow a = true := by
  simp [State.wroteNow, State.tookNow, State.wroteAlready, State.noteWrote]

/-- Another register may still take its write of the tick. -/
theorem State.wroteNow_noteWrote_ne {a b : Nat} (h : b ≠ a) : (s.noteWrote a).wroteNow b = s.wroteNow b := by
  have hb : ∀ i, (s.noteWrote a).bit Reg.SWAP_STATUS i = s.bit Reg.SWAP_STATUS i := fun _ => rfl
  unfold State.wroteNow State.tookNow State.wroteAlready
  rw [hb]
  unfold State.noteWrote
  by_cases ht : s.wroteTick = s.mt
  · simp [ht, h]
  · have : (s.wroteTick == s.mt) = false := by simpa using ht
    simp [ht, h, this]

/-! ### The state after reset -/

theorem State.serves_reset : State.reset.serves := ⟨rfl, rfl⟩

theorem State.clocked_reset : State.reset.clocked := rfl

/-- Nothing is listed in the memories after power-on: their canonical form holds. -/
theorem State.canonical_reset : State.reset.canonical := ⟨by decide, by decide, by decide, by decide⟩

end Sys2Proof.Machine
end

