-- ==== Sys2Proof/Laws/Keeps.lean ====
section
/-!
SUPPORT. What every operation keeps: one relation between the state before and a state after it, and one lemma per operation that says
that the operation keeps the relation. From these come the claims about every command and every step: the queue, the non-volatile
memory, the micro-store, the canonical forms and the account of the rings.
-/

namespace Sys2Proof.Machine

/-- `t` came from `r` by operations that take no command from the queue, keep the canonical forms and the account of the rings, and never
clear SEALED; with `nv` the non-volatile memory is as it was, and with `us` the micro-store. -/
structure Keeps (nv us : Prop) (r t : State) : Prop where
  pending : t.pending = r.pending
  nvm : nv → t.nvm = r.nvm
  sealed : r.nvm.sealed = true → t.nvm.sealed = true
  ustore : us → t.ustore = r.ustore
  canonical : r.canonical → t.canonical
  rings : r.ringsAccounted → t.ringsAccounted

variable {nv us : Prop} {ρ : State}

/-- A state with the same fields keeps what the first keeps. -/
theorem Keeps.same {a b : State} (h : Keeps nv us ρ a) (h1 : b.pending = a.pending) (h2 : b.nvm = a.nvm) (h3 : b.ustore = a.ustore)
    (h4 : b.regs = a.regs) (h5 : b.reservoir = a.reservoir) (h6 : b.localRam = a.localRam) (h7 : b.rings = a.rings) : Keeps nv us ρ b where
  pending := h1.trans h.pending
  nvm := fun c => h2.trans (h.nvm c)
  sealed := fun c => by rw [h2]; exact h.sealed c
  ustore := fun c => h3.trans (h.ustore c)
  canonical := fun c => by
    have := h.canonical c
    unfold State.canonical at this ⊢
    rw [h3, h4, h5, h6]; exact this
  rings := fun c => by
    have := h.rings c
    unfold State.ringsAccounted State.ring at this ⊢
    rw [h7]; exact this

/-- An update of any other fields keeps the relation. -/
theorem keeps_mk {s : State} {x_mt x_poison x_chans x_trips x_mittens x_pins x_shafts x_weirs x_engines x_threads x_ifaces x_probes x_pcmps x_culverts x_ports x_exports x_adc x_cal x_swap x_hg x_ts x_power x_island x_irqEvents x_start x_raised x_touched x_written x_rwNow x_rwNext x_wroteTick x_wrote x_was x_later x_takes x_hostData x_sent x_free} (h : Keeps nv us ρ s) :
    Keeps nv us ρ (State.mk x_mt s.regs s.reservoir x_poison s.localRam s.ustore x_chans x_trips x_mittens x_pins x_shafts x_weirs x_engines x_threads s.rings x_ifaces x_probes x_pcmps x_culverts x_ports x_exports x_adc x_cal x_swap s.nvm x_hg x_ts x_power x_island x_irqEvents x_start x_raised x_touched x_written x_rwNow x_rwNext x_wroteTick x_wrote x_was x_later x_takes x_hostData x_sent x_free s.pending) := by
  refine h.same ?_ ?_ ?_ ?_ ?_ ?_ ?_ <;> rfl

theorem keeps_ite {c : Prop} [Decidable c] {a b : State} (h1 : Keeps nv us ρ a) (h2 : Keeps nv us ρ b) : Keeps nv us ρ (if c then a else b) := by
  split <;> assumption

theorem keeps_ite2 {c : Prop} [Decidable c] {α : Type} {a b : α × State} (h1 : Keeps nv us ρ a.2) (h2 : Keeps nv us ρ b.2) : Keeps nv us ρ (if c then a else b).2 := by
  split <;> assumption

theorem keeps_ite1 {c : Prop} [Decidable c] {α : Type} {a b : State × α} (h1 : Keeps nv us ρ a.1) (h2 : Keeps nv us ρ b.1) : Keeps nv us ρ (if c then a else b).1 := by
  split <;> assumption

theorem keeps_foldl {α : Type} {f : State → α → State} (hf : ∀ s x, Keeps nv us ρ s → Keeps nv us ρ (f s x)) (l : List α) :
    ∀ s, Keeps nv us ρ s → Keeps nv us ρ (l.foldl f s) := by
  induction l with
  | nil => exact fun s h => h
  | cons x l ih => exact fun s h => ih _ (hf s x h)

theorem keeps_foldBelow {f : State → Nat → State} (hf : ∀ s x, Keeps nv us ρ s → Keeps nv us ρ (f s x)) (n : Nat) (s : State) (h : Keeps nv us ρ s) :
    Keeps nv us ρ (foldBelow n f s) := keeps_foldl hf _ s h

theorem State.setReg_keeps (s : State) (a : Nat) (v : Word) (h : Keeps nv us ρ s) : Keeps nv us ρ (s.setReg a v) where
  pending := h.pending
  nvm := h.nvm
  sealed := h.sealed
  ustore := h.ustore
  canonical := fun c => ⟨Table.wf_set _ _ _ _ (h.canonical c).1, (h.canonical c).2⟩
  rings := h.rings

theorem State.engineWrites_keeps (s : State) (l : List (Nat × Word)) (hK : Keeps nv us ρ s) : Keeps nv us ρ (State.engineWrites s l) := by
  simp +contextual (maxDischargeDepth := 60) only [State.engineWrites, keeps_mk, keeps_foldl, implies_true, State.setReg_keeps, hK]

theorem State.setRw_keeps (s : State) (a : Nat) (v : Word) (hK : Keeps nv us ρ s) : Keeps nv us ρ (State.setRw s a v) := by
  simp +contextual (maxDischargeDepth := 60) only [State.setRw, keeps_mk, State.setReg_keeps, hK]

theorem State.resWrite_keeps (s : State) (a v n : Nat) (h : Keeps nv us ρ s) : Keeps nv us ρ (s.resWrite a v n) where
  pending := h.pending
  nvm := h.nvm
  sealed := h.sealed
  ustore := h.ustore
  canonical := fun c => ⟨(h.canonical c).1, Memory.wf_write _ _ _ _ (h.canonical c).2.1, (h.canonical c).2.2⟩
  rings := h.rings

theorem keeps_setRing {s : State} (k : Nat) (q : RingState) (hq : (s.ring k).accounted → q.accounted) (h : Keeps nv us ρ s) : Keeps nv us ρ (s.setRing k q) where
  pending := h.pending
  nvm := h.nvm
  sealed := h.sealed
  ustore := h.ustore
  canonical := h.canonical
  rings := fun c j => by
    by_cases e : j = k
    · subst e; rw [State.ring_setRing_self]; exact hq (h.rings c _)
    · rw [State.ring_setRing_ne _ _ e]; exact h.rings c j

theorem State.setRing_keeps (s : State) (k : Nat) (q : RingState)
    (hq : q.offered = (s.ring k).offered ∧ q.admitted = (s.ring k).admitted ∧ q.spillCredit = (s.ring k).spillCredit ∧
      q.spillClosed = (s.ring k).spillClosed) (h : Keeps nv us ρ s) : Keeps nv us ρ (s.setRing k q) :=
  keeps_setRing k q (by obtain ⟨h1, h2, h3, h4⟩ := hq; unfold RingState.accounted; rw [h1, h2, h3, h4]; exact id) h

/-- A change of the registers that keeps their form. -/
theorem keeps_regs {s : State} (rs : Table Word) (hr : Table.wf resetWord s.regs = true → Table.wf resetWord rs = true)
    (h : Keeps nv us ρ s) : Keeps nv us ρ { s with regs := rs } where
  pending := h.pending
  nvm := h.nvm
  sealed := h.sealed
  ustore := h.ustore
  canonical := fun c => ⟨hr (h.canonical c).1, (h.canonical c).2⟩
  rings := h.rings

theorem keeps_reservoir {s : State} (m : List Host.Cell) (hm : Memory.wf s.reservoir = true → Memory.wf m = true)
    (h : Keeps nv us ρ s) : Keeps nv us ρ { s with reservoir := m } where
  pending := h.pending
  nvm := h.nvm
  sealed := h.sealed
  ustore := h.ustore
  canonical := fun c => ⟨(h.canonical c).1, hm (h.canonical c).2.1, (h.canonical c).2.2⟩
  rings := h.rings

theorem keeps_localRam {s : State} (m : List Host.Cell) (hm : Memory.wf s.localRam = true → Memory.wf m = true)
    (h : Keeps nv us ρ s) : Keeps nv us ρ { s with localRam := m } where
  pending := h.pending
  nvm := h.nvm
  sealed := h.sealed
  ustore := h.ustore
  canonical := fun c => ⟨(h.canonical c).1, (h.canonical c).2.1, hm (h.canonical c).2.2.1, (h.canonical c).2.2.2⟩
  rings := h.rings

theorem keeps_ustore {s : State} (u : Table Word) (hu : Table.wf (fun _ => (0 : Word)) s.ustore = true → Table.wf (fun _ => (0 : Word)) u = true)
    (h : Keeps nv False ρ s) : Keeps nv False ρ { s with ustore := u } where
  pending := h.pending
  nvm := h.nvm
  sealed := h.sealed
  ustore := fun c => c.elim
  canonical := fun c => ⟨(h.canonical c).1, (h.canonical c).2.1, (h.canonical c).2.2.1, hu (h.canonical c).2.2.2⟩
  rings := h.rings

theorem keeps_noRings {s : State} (h : Keeps nv us ρ s) : Keeps nv us ρ { s with rings := [] } where
  pending := h.pending
  nvm := h.nvm
  sealed := h.sealed
  ustore := h.ustore
  canonical := h.canonical
  rings := fun _ _ => by unfold RingState.accounted; rfl

theorem keeps_nvm {s : State} (n : Nvm) (hn : s.nvm.sealed = true → n.sealed = true) (h : Keeps False us ρ s) :
    Keeps False us ρ { s with nvm := n } where
  pending := h.pending
  nvm := fun c => c.elim
  sealed := fun c => hn (h.sealed c)
  ustore := h.ustore
  canonical := h.canonical
  rings := h.rings

theorem Keeps.refl (s : State) : Keeps nv us s s := ⟨rfl, fun _ => rfl, id, fun _ => rfl, id, id⟩

theorem keeps_fst {α : Type} {x : α} {s : State} (h : Keeps nv us ρ s) : Keeps nv us ρ (s, x).1 := h

theorem keeps_snd {α : Type} {x : α} {s : State} (h : Keeps nv us ρ s) : Keeps nv us ρ (x, s).2 := h

theorem State.dropEvent_keeps (s : State) (source cause : Nat) (t : Tick) (hK : Keeps nv us ρ s) : Keeps nv us ρ (State.dropEvent s source cause t) := by
  simp +contextual (maxDischargeDepth := 60) only [State.dropEvent, keeps_mk, hK]

theorem State.onWrote_keeps (s : State) (a : Nat) (f : State → State) (h : Keeps nv us ρ s) (hf : ∀ u, Keeps nv us ρ u → Keeps nv us ρ (f u)) :
    Keeps nv us ρ (s.onWrote a f) := keeps_ite (hf s h) h

theorem State.setFld_keeps (s : State) (a hi lo v : Nat) (hK : Keeps nv us ρ s) : Keeps nv us ρ (State.setFld s a hi lo v) := by
  simp +contextual (maxDischargeDepth := 60) only [State.setFld, State.setReg_keeps, hK]

theorem State.setBit_keeps (s : State) (a i : Nat) (b : Bool) (hK : Keeps nv us ρ s) : Keeps nv us ρ (State.setBit s a i b) := by
  simp +contextual (maxDischargeDepth := 60) only [State.setBit, State.setReg_keeps, hK]

theorem State.noteHw_keeps (s : State) (a i : Nat) (fresh : Bool) (hK : Keeps nv us ρ s) : Keeps nv us ρ (State.noteHw s a i fresh) := by
  simp +contextual (maxDischargeDepth := 60) only [State.noteHw, keeps_mk, hK]

theorem State.raise_keeps (s : State) (a i : Nat) (hK : Keeps nv us ρ s) : Keeps nv us ρ (State.raise s a i) := by
  simp +contextual (maxDischargeDepth := 60) only [State.raise, State.noteHw_keeps, State.setBit_keeps, hK]

theorem State.raiseIf_keeps (s : State) (c : Bool) (a i : Nat) (hK : Keeps nv us ρ s) : Keeps nv us ρ (State.raiseIf s c a i) := by
  simp +contextual (maxDischargeDepth := 60) only [State.raiseIf, keeps_ite, State.raise_keeps, hK]

theorem State.satCount_keeps (s : State) (a : Nat) (hK : Keeps nv us ρ s) : Keeps nv us ρ (State.satCount s a) := by
  simp +contextual (maxDischargeDepth := 60) only [State.satCount, State.noteHw_keeps, State.setReg_keeps, hK]

theorem State.satAdd_keeps (s : State) (a n : Nat) (h : Keeps nv us ρ s) : Keeps nv us ρ (s.satAdd a n) :=
  keeps_foldl (fun s _ h => State.satCount_keeps s a h) _ s h

theorem State.count_keeps (s : State) (a : Nat) (hK : Keeps nv us ρ s) : Keeps nv us ρ (State.count s a) := by
  simp +contextual (maxDischargeDepth := 60) only [State.count, State.setReg_keeps, hK]

theorem State.setPair_keeps (s : State) (lo hi : Nat) (v : BitVec 64) (hK : Keeps nv us ρ s) : Keeps nv us ρ (State.setPair s lo hi v) := by
  simp +contextual (maxDischargeDepth := 60) only [State.setPair, State.setReg_keeps, hK]

theorem State.inTick_keeps (s : State) (hK : Keeps nv us ρ s) : Keeps nv us ρ (State.inTick s) := by
  simp +contextual (maxDischargeDepth := 60) only [State.inTick, keeps_mk, hK]

theorem State.kciAccess_keeps (s : State) (f : State → State) (h : Keeps nv us ρ s) (h' : ∀ s, Keeps nv us ρ s → Keeps nv us ρ (f s)) :
    Keeps nv us ρ (s.kciAccess f) := keeps_mk (h' s.inTick (keeps_mk h))

theorem State.setNext_keeps (s : State) (a : Nat) (v : Word) (hK : Keeps nv us ρ s) : Keeps nv us ρ (State.setNext s a v) := by
  simp +contextual (maxDischargeDepth := 60) only [State.setNext, keeps_mk, State.setReg_keeps, hK]

theorem State.undoHw_keeps (s : State) (a : Nat) (p : Tick → Bool) (hK : Keeps nv us ρ s) : Keeps nv us ρ (State.undoHw s a p) := by
  simp +contextual (maxDischargeDepth := 60) only [State.undoHw, keeps_mk, State.setReg_keeps, hK]

theorem State.plainWrite_keeps (s : State) (a : Nat) (v : Word) (hK : Keeps nv us ρ s) : Keeps nv us ρ (State.plainWrite s a v) := by
  unfold State.plainWrite
  repeat' split
  all_goals simp +contextual (maxDischargeDepth := 60) only [State.setReg_keeps, hK]

theorem State.cvStatusWrite_keeps (s : State) (i : Nat) (v : Word) (hK : Keeps nv us ρ s) : Keeps nv us ρ (State.cvStatusWrite s i v) := by
  simp +contextual (maxDischargeDepth := 60) only [State.cvStatusWrite, State.plainWrite_keeps, State.raiseIf_keeps, hK]

theorem State.setChan_keeps (s : State) (k : Nat) (c : Chan) (hK : Keeps nv us ρ s) : Keeps nv us ρ (State.setChan s k c) := by
  simp +contextual (maxDischargeDepth := 60) only [State.setChan, keeps_mk, hK]

theorem State.setTrip_keeps (s : State) (i : Nat) (c : Trip) (hK : Keeps nv us ρ s) : Keeps nv us ρ (State.setTrip s i c) := by
  simp +contextual (maxDischargeDepth := 60) only [State.setTrip, keeps_mk, hK]

theorem State.setMitten_keeps (s : State) (m : Nat) (c : Mitten) (hK : Keeps nv us ρ s) : Keeps nv us ρ (State.setMitten s m c) := by
  simp +contextual (maxDischargeDepth := 60) only [State.setMitten, keeps_mk, hK]

theorem State.setPin_keeps (s : State) (p : Nat) (c : PinState) (hK : Keeps nv us ρ s) : Keeps nv us ρ (State.setPin s p c) := by
  simp +contextual (maxDischargeDepth := 60) only [State.setPin, keeps_mk, hK]

theorem State.setShaft_keeps (s : State) (h : Nat) (c : Shaft) (hK : Keeps nv us ρ s) : Keeps nv us ρ (State.setShaft s h c) := by
  simp +contextual (maxDischargeDepth := 60) only [State.setShaft, keeps_mk, hK]

theorem State.setWeir_keeps (s : State) (n : Nat) (c : Weir) (hK : Keeps nv us ρ s) : Keeps nv us ρ (State.setWeir s n c) := by
  simp +contextual (maxDischargeDepth := 60) only [State.setWeir, keeps_mk, hK]

theorem State.setEngine_keeps (s : State) (n : Nat) (c : Engine) (hK : Keeps nv us ρ s) : Keeps nv us ρ (State.setEngine s n c) := by
  simp +contextual (maxDischargeDepth := 60) only [State.setEngine, keeps_mk, hK]

theorem State.dropSwitch_keeps (s : State) (n t : Nat) (hK : Keeps nv us ρ s) : Keeps nv us ρ (State.dropSwitch s n t) := by
  simp +contextual (maxDischargeDepth := 60) only [State.dropSwitch, keeps_ite, State.setEngine_keeps, hK]

theorem State.breakGate_keeps (s : State) (n : Nat) (hK : Keeps nv us ρ s) : Keeps nv us ρ (State.breakGate s n) := by
  unfold State.breakGate
  try dsimp only
  repeat' first
    | exact hK
    | simp +contextual (maxDischargeDepth := 60) only [keeps_ite, State.setEngine_keeps, hK]; done
    | split

theorem State.gatedTick_keeps (s : State) (n : Nat) (hK : Keeps nv us ρ s) : Keeps nv us ρ (State.gatedTick s n) := by
  simp +contextual (maxDischargeDepth := 60) only [State.gatedTick, keeps_ite, State.breakGate_keeps, State.count_keeps, hK]

theorem State.setThread_keeps (s : State) (n t : Nat) (c : Thread) (hK : Keeps nv us ρ s) : Keeps nv us ρ (State.setThread s n t c) := by
  simp +contextual (maxDischargeDepth := 60) only [State.setThread, keeps_mk, hK]

theorem State.setIface_keeps (s : State) (f : Nat) (c : Iface) (hK : Keeps nv us ρ s) : Keeps nv us ρ (State.setIface s f c) := by
  simp +contextual (maxDischargeDepth := 60) only [State.setIface, keeps_mk, hK]

theorem State.setProbe_keeps (s : State) (p : Nat) (c : Probe) (hK : Keeps nv us ρ s) : Keeps nv us ρ (State.setProbe s p c) := by
  simp +contextual (maxDischargeDepth := 60) only [State.setProbe, keeps_mk, hK]

theorem State.setPcmp_keeps (s : State) (j : Nat) (c : Pcmp) (hK : Keeps nv us ρ s) : Keeps nv us ρ (State.setPcmp s j c) := by
  simp +contextual (maxDischargeDepth := 60) only [State.setPcmp, keeps_mk, hK]

theorem State.setCulvert_keeps (s : State) (i : Nat) (c : Culvert) (hK : Keeps nv us ρ s) : Keeps nv us ρ (State.setCulvert s i c) := by
  simp +contextual (maxDischargeDepth := 60) only [State.setCulvert, keeps_mk, hK]

theorem State.setPort_keeps (s : State) (p : Nat) (c : Port) (hK : Keeps nv us ρ s) : Keeps nv us ρ (State.setPort s p c) := by
  simp +contextual (maxDischargeDepth := 60) only [State.setPort, keeps_mk, hK]

theorem State.ptpDelay_keeps (s : State) (p : Nat) (received responded : PtpTime) (correction : BitVec 32) (hK : Keeps nv us ρ s) : Keeps nv us ρ (State.ptpDelay s p received responded correction) := by
  unfold State.ptpDelay
  try dsimp only
  repeat' first
    | exact hK
    | simp +contextual (maxDischargeDepth := 60) only [State.setPort_keeps, hK]; done
    | split

theorem State.setConv_keeps (s : State) (c : Nat) (v : Converter) (hK : Keeps nv us ρ s) : Keeps nv us ρ (State.setConv s c v) := by
  simp +contextual (maxDischargeDepth := 60) only [State.setConv, keeps_mk, hK]

theorem State.setAccum_keeps (s : State) (k : Nat) (v : Accum) (hK : Keeps nv us ρ s) : Keeps nv us ρ (State.setAccum s k v) := by
  simp +contextual (maxDischargeDepth := 60) only [State.setAccum, keeps_mk, hK]

theorem State.setKey_keeps (s : State) (k : Nat) (v : KeySlot) (hK : Keeps nv us ρ s) : Keeps nv us ρ (State.setKey s k v) := by
  simp +contextual (maxDischargeDepth := 60) only [State.setKey, keeps_mk, hK]

theorem State.setWear_keeps (s : State) (w : Nat) (v : BitVec 48) (hK : Keeps nv us ρ s) : Keeps nv us ρ (State.setWear s w v) := by
  simp +contextual (maxDischargeDepth := 60) only [State.setWear, keeps_mk, hK]

theorem State.noteWear_keeps (s : State) (src idx : Nat) (hK : Keeps nv us ρ s) : Keeps nv us ρ (State.noteWear s src idx) := by
  simp +contextual (maxDischargeDepth := 60) only [State.noteWear, keeps_mk, keeps_foldl, implies_true, hK]

theorem State.resWriteWords_keeps (s : State) (a v words : Nat) (hK : Keeps nv us ρ s) : Keeps nv us ρ (State.resWriteWords s a v words) := by
  simp +contextual (maxDischargeDepth := 60) only [State.resWriteWords, keeps_mk, State.resWrite_keeps, hK]

theorem State.useFree_keeps (s : State) (hK : Keeps nv us ρ s) : Keeps nv us ρ (State.useFree s) := by
  simp +contextual (maxDischargeDepth := 60) only [State.useFree, keeps_mk, hK]

theorem State.deliver_keeps (s : State) (source : Nat) (cause : Option Nat) (hK : Keeps nv us ρ s) : Keeps nv us ρ (State.deliver s source cause) := by
  simp +contextual (maxDischargeDepth := 60) only [State.deliver, keeps_mk, hK]

theorem State.deliverIf_keeps (s : State) (sel selBit source cause : Nat) (hK : Keeps nv us ρ s) : Keeps nv us ρ (State.deliverIf s sel selBit source cause) := by
  simp +contextual (maxDischargeDepth := 60) only [State.deliverIf, keeps_ite, State.deliver_keeps, hK]

theorem State.chanEvent_keeps (s : State) (k e : Nat) (hK : Keeps nv us ρ s) : Keeps nv us ρ (State.chanEvent s k e) := by
  simp +contextual (maxDischargeDepth := 60) only [State.chanEvent, State.deliverIf_keeps, hK]

theorem State.weirEvent_keeps (s : State) (n e : Nat) (hK : Keeps nv us ρ s) : Keeps nv us ρ (State.weirEvent s n e) := by
  simp +contextual (maxDischargeDepth := 60) only [State.weirEvent, State.deliverIf_keeps, hK]

theorem State.threadFaultEvent_keeps (s : State) (n t : Nat) (hK : Keeps nv us ρ s) : Keeps nv us ρ (State.threadFaultEvent s n t) := by
  simp +contextual (maxDischargeDepth := 60) only [State.threadFaultEvent, State.deliverIf_keeps, hK]

theorem State.ustoreEvent_keeps (s : State) (n : Nat) (hK : Keeps nv us ρ s) : Keeps nv us ρ (State.ustoreEvent s n) := by
  simp +contextual (maxDischargeDepth := 60) only [State.ustoreEvent, State.deliverIf_keeps, hK]

theorem State.shaftEvent_keeps (s : State) (h e : Nat) (hK : Keeps nv us ρ s) : Keeps nv us ρ (State.shaftEvent s h e) := by
  simp +contextual (maxDischargeDepth := 60) only [State.shaftEvent, State.deliverIf_keeps, hK]

theorem State.fbEvent_keeps (s : State) (f e : Nat) (hK : Keeps nv us ρ s) : Keeps nv us ρ (State.fbEvent s f e) := by
  simp +contextual (maxDischargeDepth := 60) only [State.fbEvent, State.deliverIf_keeps, hK]

theorem State.ringEvent_keeps (s : State) (r e : Nat) (hK : Keeps nv us ρ s) : Keeps nv us ρ (State.ringEvent s r e) := by
  simp +contextual (maxDischargeDepth := 60) only [State.ringEvent, State.deliverIf_keeps, hK]

theorem State.hostEvent_keeps (s : State) (e : Nat) (hK : Keeps nv us ρ s) : Keeps nv us ρ (State.hostEvent s e) := by
  simp +contextual (maxDischargeDepth := 60) only [State.hostEvent, State.deliver_keeps, hK]

theorem State.sysEvent_keeps (s : State) (e : Nat) (hK : Keeps nv us ρ s) : Keeps nv us ρ (State.sysEvent s e) := by
  simp +contextual (maxDischargeDepth := 60) only [State.sysEvent, State.deliver_keeps, hK]

theorem State.setResvUe_keeps (s : State) (hK : Keeps nv us ρ s) : Keeps nv us ρ (State.setResvUe s) := by
  simp +contextual (maxDischargeDepth := 60) only [State.setResvUe, keeps_ite, State.setBit_keeps, State.sysEvent_keeps, hK]

theorem State.bWrite_keeps (s : State) (off size : Nat) (v : BitVec 64) (hK : Keeps nv us ρ s) : Keeps nv us ρ (State.bWrite s off size v) := by
  simp +contextual (maxDischargeDepth := 60) only [State.bWrite, keeps_ite, State.resWrite_keeps, State.resWriteWords_keeps, State.setResvUe_keeps, hK]

theorem State.send_keeps (s : State) (m : Sent) (hK : Keeps nv us ρ s) : Keeps nv us ρ (State.send s m) := by
  simp +contextual (maxDischargeDepth := 60) only [State.send, keeps_mk, hK]

theorem State.touchChanged_keeps (s t : State) (h : Keeps nv us ρ t) : Keeps nv us ρ (s.touchChanged t) := keeps_mk h

theorem State.rcClear_keeps (s : State) (a : Nat) (h : Keeps nv us ρ s) : Keeps nv us ρ (s.rcClear a) :=
  keeps_ite h (keeps_mk (State.setReg_keeps _ _ _ h))

theorem State.openCycle_keeps (s : State) (hK : Keeps nv us ρ s) : Keeps nv us ρ (State.openCycle s) := by
  simp +contextual (maxDischargeDepth := 60) only [State.openCycle, keeps_mk, keeps_ite, keeps_foldl, implies_true, State.setReg_keeps, hK]

theorem State.noteTake_keeps (s : State) (t : Take) (hK : Keeps nv us ρ s) : Keeps nv us ρ (State.noteTake s t) := by
  simp +contextual (maxDischargeDepth := 60) only [State.noteTake, keeps_mk, hK]

theorem State.onTclk_keeps (s t : State) (h : Keeps nv us ρ s) (h' : Keeps nv us ρ t) : Keeps nv us ρ (s.onTclk t) := s.onTclk_preserves (Keeps nv us ρ) t h h'

theorem State.hostRead_keeps (s : State) (f : State → Word × State) (h : Keeps nv us ρ s) (h' : ∀ s, Keeps nv us ρ s → Keeps nv us ρ (f s).2) :
    Keeps nv us ρ (s.hostRead f) := by
  rcases s.hostRead_cases f with e | e | ⟨-, e⟩ <;> rw [e]
  · exact h
  · exact keeps_mk h
  · exact keeps_mk (State.touchChanged_keeps _ _ (h' s h))

theorem State.lockRefused_keeps (s : State) (a : Nat) (v : Word) (hK : Keeps nv us ρ s) : Keeps nv us ρ (State.lockRefused s a v) := by
  simp +contextual (maxDischargeDepth := 60) only [State.lockRefused, keeps_ite, State.hostEvent_keeps, State.raise_keeps, State.satCount_keeps, State.setBit_keeps, State.setReg_keeps, hK]

theorem State.holdRead_keeps (s : State) (a : Nat) (hK : Keeps nv us ρ s) : Keeps nv us ρ (State.holdRead s a) := by
  simp +contextual (maxDischargeDepth := 60) only [State.holdRead, State.setEngine_keeps, hK]

theorem State.noteWrote_keeps (s : State) (a : Nat) (hK : Keeps nv us ρ s) : Keeps nv us ρ (State.noteWrote s a) := by
  simp +contextual (maxDischargeDepth := 60) only [State.noteWrote, keeps_mk, hK]

theorem State.engineWrite_keeps (s : State) (a : Nat) (v : Word) (hK : Keeps nv us ρ s) : Keeps nv us ρ (State.engineWrite s a v) := by
  simp +contextual (maxDischargeDepth := 60) only [State.engineWrite, keeps_mk, keeps_ite, State.noteWrote_keeps, State.setNext_keeps, hK]

theorem State.engineCommit_keeps (s : State) (l : List (Nat × Word)) (hK : Keeps nv us ρ s) : Keeps nv us ρ (State.engineCommit s l) := by
  simp +contextual (maxDischargeDepth := 60) only [State.engineCommit, keeps_mk, keeps_ite, keeps_foldl, implies_true, State.engineWrite_keeps, hK]

theorem State.noteHost_keeps (s : State) (a : Nat) (hK : Keeps nv us ρ s) : Keeps nv us ρ (State.noteHost s a) := by
  simp +contextual (maxDischargeDepth := 60) only [State.noteHost, keeps_mk, State.noteWrote_keeps, hK]

theorem State.hwUpdate_keeps (s : State) (a : Nat) (v : Word) (hK : Keeps nv us ρ s) : Keeps nv us ρ (State.hwUpdate s a v) := by
  simp +contextual (maxDischargeDepth := 60) only [State.hwUpdate, keeps_mk, keeps_ite, State.setRw_keeps, hK]

theorem State.restoreRecord_keeps (s : State) (r : MirrorRec) (h : Keeps nv us ρ s) : Keeps nv us ρ (s.restoreRecord r) :=
  keeps_mk (State.setBit_keeps _ _ _ _ (State.setReg_keeps _ _ _ (State.setReg_keeps _ _ _ (State.hwUpdate_keeps _ _ _ (State.hwUpdate_keeps _ _ _
    (State.hwUpdate_keeps _ _ _ (keeps_foldBelow (fun _ _ hs => State.hwUpdate_keeps _ _ _ hs) _ _ h)))))))

theorem State.portWrite_keeps (s : State) (q : Bool) (a : Nat) (v : Word) (f : State → State) (h : Keeps nv us ρ s)
    (h' : ∀ s, Keeps nv us ρ s → Keeps nv us ρ (f s)) : Keeps nv us ρ (s.portWrite q a v f) :=
  s.portWrite_preserves f (Keeps nv us ρ) q a v h (State.lockRefused_keeps s a v h) (keeps_mk h) (h' _ (State.noteHost_keeps s a h))

theorem State.hostWrite_keeps (s : State) (a : Nat) (v : Word) (f : State → State) (h : Keeps nv us ρ s)
    (h' : ∀ s, Keeps nv us ρ s → Keeps nv us ρ (f s)) : Keeps nv us ρ (s.hostWrite a v f) := State.portWrite_keeps s false a v f h h'

theorem State.noteForce_keeps (s : State) (p : Nat) (hK : Keeps nv us ρ s) : Keeps nv us ρ (State.noteForce s p) := by
  unfold State.noteForce
  repeat' split
  all_goals simp +contextual (maxDischargeDepth := 60) only [keeps_ite, State.setPin_keeps, hK]

theorem State.settlePad_keeps (s : State) (at_ : Stamp) (p : Nat) (hK : Keeps nv us ρ s) : Keeps nv us ρ (State.settlePad s at_ p) := by
  unfold State.settlePad
  repeat' split
  all_goals simp +contextual (maxDischargeDepth := 60) only [keeps_ite, State.noteWear_keeps, State.raise_keeps, State.setPin_keeps, hK]

theorem State.passInterlock_keeps (s : State) (p : Nat) (hK : Keeps nv us ρ s) : Keeps nv us ρ (State.passInterlock s p) := by
  unfold State.passInterlock
  repeat' split
  all_goals simp +contextual (maxDischargeDepth := 60) only [State.setPin_keeps, hK]

theorem State.refreshPins_keeps (s : State) (at_ : Stamp) (hK : Keeps nv us ρ s) : Keeps nv us ρ (State.refreshPins s at_) := by
  simp +contextual (maxDischargeDepth := 60) only [State.refreshPins, keeps_foldl, implies_true, State.noteForce_keeps, State.passInterlock_keeps, State.settlePad_keeps, hK]

theorem State.openCuffs_keeps (s : State) (at_ : Stamp) (ps : List Nat) (hK : Keeps nv us ρ s) : Keeps nv us ρ (State.openCuffs s at_ ps) := by
  simp +contextual (maxDischargeDepth := 60) only [State.openCuffs, keeps_ite, keeps_foldBelow, implies_true, State.setMitten_keeps, hK]

theorem State.emit_keeps (s : State) (k : Nat) (at_ : Stamp) (lvl : Bool) (hK : Keeps nv us ρ s) : Keeps nv us ρ (State.emit s k at_ lvl) := by
  simp +contextual (maxDischargeDepth := 60) only [State.emit, keeps_ite, State.noteWear_keeps, State.openCuffs_keeps, State.refreshPins_keeps, State.setBit_keeps, State.setChan_keeps, hK]

theorem State.take_keeps (s : State) (m i : Nat) (hK : Keeps nv us ρ s) : Keeps nv us ρ (State.take s m i) := by
  simp +contextual (maxDischargeDepth := 60) only [State.take, keeps_ite, State.deliver_keeps, State.refreshPins_keeps, State.satCount_keeps, State.setMitten_keeps, State.setPair_keeps, State.setReg_keeps, hK]

theorem State.takeIfFree_keeps (s : State) (m i : Nat) (hK : Keeps nv us ρ s) : Keeps nv us ρ (State.takeIfFree s m i) := by
  simp +contextual (maxDischargeDepth := 60) only [State.takeIfFree, keeps_ite, State.take_keeps, hK]

theorem State.sourceOn_keeps (s : State) (i : Nat) (hK : Keeps nv us ρ s) : Keeps nv us ρ (State.sourceOn s i) := by
  simp +contextual (maxDischargeDepth := 60) only [State.sourceOn, keeps_ite, keeps_foldBelow, implies_true, State.setMitten_keeps, State.takeIfFree_keeps, hK]

theorem State.sourceOff_keeps (s : State) (i : Nat) (hK : Keeps nv us ρ s) : Keeps nv us ρ (State.sourceOff s i) := by
  simp +contextual (maxDischargeDepth := 60) only [State.sourceOff, keeps_ite, keeps_foldBelow, implies_true, State.satCount_keeps, State.setMitten_keeps, hK]

theorem State.setTripActive_keeps (s : State) (i : Nat) (b : Bool) (hK : Keeps nv us ρ s) : Keeps nv us ρ (State.setTripActive s i b) := by
  simp +contextual (maxDischargeDepth := 60) only [State.setTripActive, keeps_ite, State.setBit_keeps, State.sourceOff_keeps, State.sourceOn_keeps, hK]

theorem State.mittenPeriodEnd_keeps (s : State) (k : Nat) (hK : Keeps nv us ρ s) : Keeps nv us ρ (State.mittenPeriodEnd s k) := by
  simp +contextual (maxDischargeDepth := 60) only [State.mittenPeriodEnd, keeps_ite, keeps_foldBelow, implies_true, State.setMitten_keeps, hK]

theorem State.trainSkip_keeps (s : State) (k : Nat) (hK : Keeps nv us ρ s) : Keeps nv us ρ (State.trainSkip s k) := by
  simp +contextual (maxDischargeDepth := 60) only [State.trainSkip, State.setChan_keeps, State.setReg_keeps, hK]

theorem State.uncount_keeps (s : State) (k : Nat) (counted : Bool) (hK : Keeps nv us ρ s) : Keeps nv us ρ (State.uncount s k counted) := by
  simp +contextual (maxDischargeDepth := 60) only [State.uncount, keeps_ite, State.trainSkip_keeps, hK]

theorem State.outCommand_keeps (s : State) (k : Nat) (sets clears : List Stamp) (train : Bool) (hK : Keeps nv us ρ s) : Keeps nv us ρ (State.outCommand s k sets clears train) := by
  simp +contextual (maxDischargeDepth := 60) only [State.outCommand, keeps_ite, State.setBit_keeps, State.setChan_keeps, State.trainSkip_keeps, hK]

theorem State.commandIdle_keeps (s : State) (k : Nat) (hK : Keeps nv us ρ s) : Keeps nv us ρ (State.commandIdle s k) := by
  simp +contextual (maxDischargeDepth := 60) only [State.commandIdle, keeps_ite, State.setBit_keeps, State.setChan_keeps, State.uncount_keeps, hK]

theorem State.trainEnd_keeps (s : State) (k : Nat) (early : Bool) (hK : Keeps nv us ρ s) : Keeps nv us ρ (State.trainEnd s k early) := by
  simp +contextual (maxDischargeDepth := 60) only [State.trainEnd, State.chanEvent_keeps, State.commandIdle_keeps, State.raise_keeps, State.raiseIf_keeps, State.setBit_keeps, State.setChan_keeps, hK]

theorem State.merged_keeps (s : State) (k : Nat) (hK : Keeps nv us ρ s) : Keeps nv us ρ (State.merged s k) := by
  simp +contextual (maxDischargeDepth := 60) only [State.merged, State.raise_keeps, hK]

theorem State.edgeUnit_keeps (s : State) (k : Nat) (e : Edge) (hK : Keeps nv us ρ s) : Keeps nv us ρ (State.edgeUnit s k e) := by
  unfold State.edgeUnit
  repeat' split
  all_goals simp +contextual (maxDischargeDepth := 60) only [State.emit_keeps, State.merged_keeps, State.satCount_keeps, State.setChan_keeps, State.uncount_keeps, hK]

theorem State.pairFall_keeps (s : State) (k : Nat) (st : Stamp) (hK : Keeps nv us ρ s) : Keeps nv us ρ (State.pairFall s k st) := by
  unfold State.pairFall
  repeat' split
  all_goals simp +contextual (maxDischargeDepth := 60) only [State.edgeUnit_keeps, State.setChan_keeps, State.uncount_keeps, hK]

theorem State.pairEdge_keeps (s : State) (k : Nat) (e : Edge) (hK : Keeps nv us ρ s) : Keeps nv us ρ (State.pairEdge s k e) := by
  simp +contextual (maxDischargeDepth := 60) only [State.pairEdge, keeps_ite, State.pairFall_keeps, State.setChan_keeps, State.uncount_keeps, hK]

theorem State.handOver_keeps (s : State) (k : Nat) (e : Edge) (hK : Keeps nv us ρ s) : Keeps nv us ρ (State.handOver s k e) := by
  simp +contextual (maxDischargeDepth := 60) only [State.handOver, keeps_ite, State.edgeUnit_keeps, State.pairEdge_keeps, hK]

theorem State.adcRequest_keeps (s : State) (arrive : Tick) (rank : Nat) (stamp : Stamp) (trig : Nat) (urgent : Bool) (hK : Keeps nv us ρ s) : Keeps nv us ρ (State.adcRequest s arrive rank stamp trig urgent) := by
  simp +contextual (maxDischargeDepth := 60) only [State.adcRequest, keeps_mk, hK]

theorem State.syncInput_keeps (s : State) (n : Nat) (t : Tick) (hK : Keeps nv us ρ s) : Keeps nv us ρ (State.syncInput s n t) := by
  simp +contextual (maxDischargeDepth := 60) only [State.syncInput, keeps_ite, State.setWeir_keeps, hK]

theorem State.syncOutPulse_keeps (s : State) (hK : Keeps nv us ρ s) : Keeps nv us ρ (State.syncOutPulse s) := by
  simp +contextual (maxDischargeDepth := 60) only [State.syncOutPulse, keeps_mk, hK]

theorem State.syncOutput_keeps (s : State) (n : Nat) (hK : Keeps nv us ρ s) : Keeps nv us ρ (State.syncOutput s n) := by
  simp +contextual (maxDischargeDepth := 60) only [State.syncOutput, keeps_ite, State.syncInput_keeps, State.syncOutPulse_keeps, hK]

theorem State.cmpMatch_keeps (s : State) (k x : Nat) (hK : Keeps nv us ρ s) : Keeps nv us ρ (State.cmpMatch s k x) := by
  simp +contextual (maxDischargeDepth := 60) only [State.cmpMatch, keeps_ite, State.adcRequest_keeps, State.raise_keeps, State.raiseIf_keeps, State.setChan_keeps, State.syncOutput_keeps, hK]

theorem State.outStep_keeps (s : State) (k : Nat) (periodEnd peak : Bool) (xs : List Nat) (hK : Keeps nv us ρ s) : Keeps nv us ρ (State.outStep s k periodEnd peak xs) := by
  unfold State.outStep
  repeat' split
  all_goals simp +contextual (maxDischargeDepth := 60) only [keeps_ite, State.outCommand_keeps, hK]

theorem State.trainPeriod_keeps (s : State) (k : Nat) (xs : List Nat) (hK : Keeps nv us ρ s) : Keeps nv us ρ (State.trainPeriod s k xs) := by
  simp +contextual (maxDischargeDepth := 60) only [State.trainPeriod, keeps_ite, State.outStep_keeps, State.setChan_keeps, State.setReg_keeps, State.trainEnd_keeps, hK]

theorem State.copyMode_keeps (s : State) (k : Nat) (hK : Keeps nv us ρ s) : Keeps nv us ρ (State.copyMode s k) := by
  simp +contextual (maxDischargeDepth := 60) only [State.copyMode, keeps_ite, State.commandIdle_keeps, State.setChan_keeps, State.setFld_keeps, State.trainEnd_keeps, hK]

theorem State.copyCmpCfg_keeps (s : State) (k : Nat) (hK : Keeps nv us ρ s) : Keeps nv us ρ (State.copyCmpCfg s k) := by
  simp +contextual (maxDischargeDepth := 60) only [State.copyCmpCfg, keeps_ite, keeps_foldl, implies_true, State.setReg_keeps, hK]

theorem State.copyWritten_keeps (s : State) (k : Nat) (h : Keeps nv us ρ s) : Keeps nv us ρ (s.copyWritten k) := by
  unfold State.copyWritten
  dsimp only
  exact State.onWrote_keeps _ _ _ (State.onWrote_keeps _ _ _ (State.onWrote_keeps _ _ _ (State.onWrote_keeps _ _ _
    (keeps_foldl (fun _ _ hs => State.onWrote_keeps _ _ _ hs (fun _ hu => State.setReg_keeps _ _ _ hu)) _ _
      (State.onWrote_keeps _ _ _ (State.onWrote_keeps _ _ _ h (fun _ hu => State.setReg_keeps _ _ _ hu))
        (fun _ hu => State.setFld_keeps _ _ _ _ _ hu)))
    (fun _ hu => State.copyCmpCfg_keeps _ _ hu)) (fun _ hu => State.setChan_keeps _ _ _ hu))
    (fun _ hu => keeps_ite (State.setChan_keeps _ _ _ hu) hu))
    (fun _ hu => keeps_ite (State.commandIdle_keeps _ _ (State.copyMode_keeps _ _ hu)) (State.copyMode_keeps _ _ hu))

theorem State.copyCmps_keeps (s : State) (k : Nat) (hK : Keeps nv us ρ s) : Keeps nv us ρ (State.copyCmps s k) := by
  simp +contextual (maxDischargeDepth := 60) only [State.copyCmps, keeps_foldl, implies_true, State.setReg_keeps, hK]

theorem State.copyFine_keeps (s : State) (k : Nat) (hK : Keeps nv us ρ s) : Keeps nv us ρ (State.copyFine s k) := by
  simp +contextual (maxDischargeDepth := 60) only [State.copyFine, State.setChan_keeps, hK]

theorem State.copyPreloads_keeps (s : State) (k : Nat) (hK : Keeps nv us ρ s) : Keeps nv us ρ (State.copyPreloads s k) := by
  simp +contextual (maxDischargeDepth := 60) only [State.copyPreloads, State.copyCmpCfg_keeps, State.copyCmps_keeps, State.copyFine_keeps, State.copyMode_keeps, State.setFld_keeps, State.setReg_keeps, hK]

theorem State.stopped_keeps (s : State) (k : Nat) (hK : Keeps nv us ρ s) : Keeps nv us ρ (State.stopped s k) := by
  simp +contextual (maxDischargeDepth := 60) only [State.stopped, keeps_ite, State.commandIdle_keeps, State.setChan_keeps, State.trainEnd_keeps, hK]

theorem State.beginRun_keeps (s : State) (k : Nat) (hK : Keeps nv us ρ s) : Keeps nv us ρ (State.beginRun s k) := by
  simp +contextual (maxDischargeDepth := 60) only [State.beginRun, State.setChan_keeps, hK]

theorem State.compareStep_keeps (s : State) (k : Nat) (peak : Bool) (hK : Keeps nv us ρ s) : Keeps nv us ρ (State.compareStep s k peak) := by
  simp +contextual (maxDischargeDepth := 60) only [State.compareStep, keeps_foldl, implies_true, State.cmpMatch_keeps, State.outStep_keeps, hK]

theorem State.periodEnd_keeps (s : State) (k : Nat) (hK : Keeps nv us ρ s) : Keeps nv us ρ (State.periodEnd s k) := by
  simp +contextual (maxDischargeDepth := 60) only [State.periodEnd, keeps_ite, keeps_foldl, implies_true, State.chanEvent_keeps, State.cmpMatch_keeps, State.copyPreloads_keeps, State.mittenPeriodEnd_keeps, State.outStep_keeps, State.raise_keeps, State.setChan_keeps, State.setReg_keeps, State.stopped_keeps, State.trainPeriod_keeps, hK]

theorem State.peak_keeps (s : State) (k : Nat) (hK : Keeps nv us ρ s) : Keeps nv us ρ (State.peak s k) := by
  simp +contextual (maxDischargeDepth := 60) only [State.peak, keeps_ite, State.compareStep_keeps, State.copyPreloads_keeps, State.setChan_keeps, State.setReg_keeps, State.stopped_keeps, hK]

theorem State.setCount_keeps (s : State) (k : Nat) (c : Word) (down : Bool) (hK : Keeps nv us ρ s) : Keeps nv us ρ (State.setCount s k c down) := by
  simp +contextual (maxDischargeDepth := 60) only [State.setCount, State.setBit_keeps, State.setReg_keeps, hK]

theorem State.stepCount_keeps (s : State) (k : Nat) (hK : Keeps nv us ρ s) : Keeps nv us ρ (State.stepCount s k) := by
  simp +contextual (maxDischargeDepth := 60) only [State.stepCount, keeps_ite, State.compareStep_keeps, State.peak_keeps, State.periodEnd_keeps, State.setChan_keeps, State.setCount_keeps, hK]

theorem State.carry_keeps (s : State) (k : Nat) (hK : Keeps nv us ρ s) : Keeps nv us ρ (State.carry s k) := by
  simp +contextual (maxDischargeDepth := 60) only [State.carry, keeps_ite, State.setChan_keeps, State.stepCount_keeps, hK]

theorem State.countStep_keeps (s : State) (k : Nat) (hK : Keeps nv us ρ s) : Keeps nv us ρ (State.countStep s k) := by
  simp +contextual (maxDischargeDepth := 60) only [State.countStep, keeps_ite, State.carry_keeps, State.stepCount_keeps, hK]

theorem State.restartStart_keeps (s : State) (k : Nat) (hK : Keeps nv us ρ s) : Keeps nv us ρ (State.restartStart s k) := by
  simp +contextual (maxDischargeDepth := 60) only [State.restartStart, State.carry_keeps, State.compareStep_keeps, State.setChan_keeps, State.setCount_keeps, hK]

theorem State.restart_keeps (s : State) (k : Nat) (hK : Keeps nv us ρ s) : Keeps nv us ρ (State.restart s k) := by
  simp +contextual (maxDischargeDepth := 60) only [State.restart, keeps_ite, State.carry_keeps, State.periodEnd_keeps, State.restartStart_keeps, State.setChan_keeps, State.setCount_keeps, hK]

theorem State.startTick_keeps (s : State) (k : Nat) (hK : Keeps nv us ρ s) : Keeps nv us ρ (State.startTick s k) := by
  simp +contextual (maxDischargeDepth := 60) only [State.startTick, keeps_ite, State.periodEnd_keeps, State.setBit_keeps, State.setChan_keeps, hK]

theorem State.countingStep_keeps (s : State) (k : Nat) (hK : Keeps nv us ρ s) : Keeps nv us ρ (State.countingStep s k) := by
  simp +contextual (maxDischargeDepth := 60) only [State.countingStep, keeps_ite, State.countStep_keeps, State.setChan_keeps, hK]

theorem State.writeTrigger_keeps (s : State) (k x : Nat) (hK : Keeps nv us ρ s) : Keeps nv us ρ (State.writeTrigger s k x) := by
  unfold State.writeTrigger
  dsimp only
  repeat' first
    | exact hK
    | simp +contextual (maxDischargeDepth := 60) only [keeps_ite, State.cmpMatch_keeps, State.outStep_keeps, State.setChan_keeps, hK]; done
    | split

theorem State.pairModeChanged_keeps (s : State) (k : Nat) (old : Nat) (hK : Keeps nv us ρ s) : Keeps nv us ρ (State.pairModeChanged s k old) := by
  unfold State.pairModeChanged
  repeat' split
  all_goals simp +contextual (maxDischargeDepth := 60) only [keeps_ite, State.commandIdle_keeps, State.setBit_keeps, State.setChan_keeps, hK]

theorem State.chCtrlWrite_keeps (s : State) (k : Nat) (v : Word) (hK : Keeps nv us ρ s) : Keeps nv us ρ (State.chCtrlWrite s k v) := by
  simp +contextual (maxDischargeDepth := 60) only [State.chCtrlWrite, keeps_ite, State.beginRun_keeps, State.copyWritten_keeps, State.pairModeChanged_keeps, State.raise_keeps, State.refreshPins_keeps, State.setReg_keeps, State.stopped_keeps, hK]

theorem State.countWrite_keeps (s : State) (k : Nat) (v : Word) (hK : Keeps nv us ρ s) : Keeps nv us ρ (State.countWrite s k v) := by
  simp +contextual (maxDischargeDepth := 60) only [State.countWrite, keeps_ite, State.raise_keeps, State.setCount_keeps, hK]

theorem State.countRead_keeps (s : State) (k : Nat) (hK : Keeps nv us ρ s) : Keeps nv us ρ (s.countRead k).2 := by
  unfold State.countRead
  exact keeps_ite2 (keeps_ite2 (keeps_mk (State.setChan_keeps _ _ _ hK)) hK) hK

theorem State.periodWrite_keeps (s : State) (k : Nat) (v : Word) (hK : Keeps nv us ρ s) : Keeps nv us ρ (State.periodWrite s k v) := by
  simp +contextual (maxDischargeDepth := 60) only [State.periodWrite, keeps_ite, State.beginRun_keeps, State.setReg_keeps, hK]

theorem State.prescWrite_keeps (s : State) (k : Nat) (v : Word) (hK : Keeps nv us ρ s) : Keeps nv us ρ (State.prescWrite s k v) := by
  simp +contextual (maxDischargeDepth := 60) only [State.prescWrite, keeps_ite, State.setFld_keeps, hK]

theorem State.cmpLiveWrite_keeps (s : State) (k x : Nat) (v : Word) (h : Keeps nv us ρ s) : Keeps nv us ρ (s.cmpLiveWrite k x v) := by
  unfold State.cmpLiveWrite
  have h1 := State.setReg_keeps _ (Reg.CMP_ACT k x) v (State.setReg_keeps _ (Reg.CMP k x) v h)
  exact keeps_ite h1 (keeps_ite h1 (keeps_ite (State.setChan_keeps _ _ _ h1) (keeps_ite (State.raise_keeps _ _ _ h1) h1)))

theorem State.cmpPreloadWrite_keeps (s : State) (k x : Nat) (v : Word) (hK : Keeps nv us ρ s) : Keeps nv us ρ (State.cmpPreloadWrite s k x v) := by
  simp +contextual (maxDischargeDepth := 60) only [State.cmpPreloadWrite, keeps_ite, State.setReg_keeps, hK]

theorem State.cmpWrite_keeps (s : State) (k x : Nat) (v : Word) (hK : Keeps nv us ρ s) : Keeps nv us ρ (State.cmpWrite s k x v) := by
  simp +contextual (maxDischargeDepth := 60) only [State.cmpWrite, keeps_ite, State.cmpLiveWrite_keeps, State.cmpPreloadWrite_keeps, hK]

theorem State.cmpCfgWrite_keeps (s : State) (k : Nat) (v : Word) (hK : Keeps nv us ρ s) : Keeps nv us ρ (State.cmpCfgWrite s k v) := by
  simp +contextual (maxDischargeDepth := 60) only [State.cmpCfgWrite, keeps_ite, State.copyCmpCfg_keeps, State.setFld_keeps, hK]

theorem State.takePair_keeps (s : State) (k : Nat) (hK : Keeps nv us ρ s) : Keeps nv us ρ (State.takePair s k) := by
  simp +contextual (maxDischargeDepth := 60) only [State.takePair, State.setFld_keeps, State.setPair_keeps, State.setReg_keeps, hK]

theorem State.pairSnapshot_keeps (s : State) (k : Nat) (v : Word) (hK : Keeps nv us ρ s) : Keeps nv us ρ (State.pairSnapshot s k v) := by
  simp +contextual (maxDischargeDepth := 60) only [State.pairSnapshot, keeps_ite, State.noteTake_keeps, hK]

theorem State.outCtrlWrite_keeps (s : State) (k : Nat) (v : Word) (hK : Keeps nv us ρ s) : Keeps nv us ρ (State.outCtrlWrite s k v) := by
  simp +contextual (maxDischargeDepth := 60) only [State.outCtrlWrite, keeps_ite, State.commandIdle_keeps, State.copyMode_keeps, State.setReg_keeps, hK]

theorem State.outFineWrite_keeps (s : State) (k : Nat) (v : Word) (hK : Keeps nv us ρ s) : Keeps nv us ρ (State.outFineWrite s k v) := by
  simp +contextual (maxDischargeDepth := 60) only [State.outFineWrite, keeps_ite, State.setChan_keeps, State.setReg_keeps, hK]

theorem State.dtCfgWrite_keeps (s : State) (k : Nat) (v : Word) (hK : Keeps nv us ρ s) : Keeps nv us ρ (State.dtCfgWrite s k v) := by
  simp +contextual (maxDischargeDepth := 60) only [State.dtCfgWrite, keeps_ite, State.setChan_keeps, State.setReg_keeps, hK]

theorem State.syncArrival_keeps (s : State) (n : Nat) (hK : Keeps nv us ρ s) : Keeps nv us ρ (State.syncArrival s n) := by
  unfold State.syncArrival
  repeat' split
  all_goals simp +contextual (maxDischargeDepth := 60) only [keeps_ite, keeps_foldBelow, implies_true, State.raise_keeps, State.restart_keeps, State.setWeir_keeps, State.syncOutput_keeps, hK]

theorem State.syncInEdge_keeps (s : State) (ticksHigh : Nat) (hK : Keeps nv us ρ s) : Keeps nv us ρ (State.syncInEdge s ticksHigh) := by
  simp +contextual (maxDischargeDepth := 60) only [State.syncInEdge, keeps_ite, State.syncInput_keeps, State.useFree_keeps, hK]

theorem State.syncOutFall_keeps (s : State) (hK : Keeps nv us ρ s) : Keeps nv us ρ (State.syncOutFall s) := by
  unfold State.syncOutFall
  repeat' split
  all_goals simp +contextual (maxDischargeDepth := 60) only [keeps_mk, hK]

theorem State.edgeEmit_keeps (s : State) (k : Nat) (hK : Keeps nv us ρ s) : Keeps nv us ρ (State.edgeEmit s k) := by
  unfold State.edgeEmit
  repeat' split
  all_goals simp +contextual (maxDischargeDepth := 60) only [keeps_ite, State.handOver_keeps, State.setChan_keeps, hK]

theorem State.pendingEdgeEmit_keeps (s : State) (k : Nat) (hK : Keeps nv us ρ s) : Keeps nv us ρ (State.pendingEdgeEmit s k) := by
  unfold State.pendingEdgeEmit
  repeat' split
  all_goals simp +contextual (maxDischargeDepth := 60) only [State.emit_keeps, State.setChan_keeps, hK]

theorem State.deadTimeRise_keeps (s : State) (k : Nat) (hK : Keeps nv us ρ s) : Keeps nv us ρ (State.deadTimeRise s k) := by
  unfold State.deadTimeRise
  repeat' split
  all_goals simp +contextual (maxDischargeDepth := 60) only [keeps_ite, State.edgeUnit_keeps, State.setChan_keeps, hK]

theorem State.trainBegin_keeps (s : State) (k : Nat) (due : Tick) (fine : Option (BitVec 6)) (hK : Keeps nv us ρ s) : Keeps nv us ρ (State.trainBegin s k due fine) := by
  simp +contextual (maxDischargeDepth := 60) only [State.trainBegin, keeps_ite, State.chanEvent_keeps, State.raise_keeps, State.setBit_keeps, State.setChan_keeps, State.setReg_keeps, hK]

theorem State.trainStop_keeps (s : State) (k : Nat) (hK : Keeps nv us ρ s) : Keeps nv us ρ (State.trainStop s k) := by
  simp +contextual (maxDischargeDepth := 60) only [State.trainStop, keeps_ite, State.setChan_keeps, hK]

theorem State.ptCtrlWrite_keeps (s : State) (k : Nat) (v : Word) (hK : Keeps nv us ρ s) : Keeps nv us ρ (State.ptCtrlWrite s k v) := by
  simp +contextual (maxDischargeDepth := 60) only [State.ptCtrlWrite, keeps_ite, State.trainBegin_keeps, State.trainStop_keeps, hK]

theorem State.trainRestart_keeps (s : State) (k : Nat) (hK : Keeps nv us ρ s) : Keeps nv us ρ (State.trainRestart s k) := by
  simp +contextual (maxDischargeDepth := 60) only [State.trainRestart, keeps_ite, State.restart_keeps, State.trainPeriod_keeps, hK]

theorem State.ptRestart_keeps (s : State) (k : Nat) (hK : Keeps nv us ρ s) : Keeps nv us ρ (State.ptRestart s k) := by
  unfold State.ptRestart
  repeat' split
  all_goals simp +contextual (maxDischargeDepth := 60) only [State.chanEvent_keeps, State.raise_keeps, State.setChan_keeps, State.trainRestart_keeps, hK]

theorem State.ptCmdWrite_keeps (s : State) (k : Nat) (v : Word) (hK : Keeps nv us ρ s) : Keeps nv us ρ (State.ptCmdWrite s k v) := by
  simp +contextual (maxDischargeDepth := 60) only [State.ptCmdWrite, keeps_ite, State.raise_keeps, State.setReg_keeps, hK]

theorem State.ptEmitRead_keeps (s : State) (k : Nat) (hK : Keeps nv us ρ s) : Keeps nv us ρ (State.ptEmitRead s k).2 := by
  simp +contextual (maxDischargeDepth := 60) only [State.ptEmitRead, State.setReg_keeps, hK]

theorem State.lineFault_keeps (s : State) (k : Nat) (hK : Keeps nv us ρ s) : Keeps nv us ρ (State.lineFault s k) := by
  simp +contextual (maxDischargeDepth := 60) only [State.lineFault, keeps_ite, State.chanEvent_keeps, State.deliver_keeps, State.raise_keeps, hK]

theorem State.measured_keeps (s : State) (k : Nat) (m : TapMap) (hK : Keeps nv us ρ s) : Keeps nv us ρ (State.measured s k m) := by
  simp +contextual (maxDischargeDepth := 60) only [State.measured, keeps_ite, State.lineFault_keeps, State.satCount_keeps, State.setBit_keeps, State.setChan_keeps, State.setFld_keeps, hK]

theorem State.swapLine_keeps (s : State) (k : Nat) (split : Option Stamp) (hK : Keeps nv us ρ s) : Keeps nv us ρ (State.swapLine s k split) := by
  unfold State.swapLine
  repeat' split
  all_goals simp +contextual (maxDischargeDepth := 60) only [State.count_keeps, State.setChan_keeps, State.setReg_keeps, hK]

theorem State.lineSwap_keeps (s : State) (k : Nat) (hK : Keeps nv us ρ s) : Keeps nv us ρ (State.lineSwap s k) := by
  simp +contextual (maxDischargeDepth := 60) only [State.lineSwap, keeps_ite, State.swapLine_keeps, hK]

theorem State.calSlotStart_keeps (s : State) (hK : Keeps nv us ρ s) : Keeps nv us ρ (State.calSlotStart s) := by
  simp +contextual (maxDischargeDepth := 60) only [State.calSlotStart, keeps_mk, keeps_ite, State.count_keeps, State.setFld_keeps, hK]

theorem State.tdcTick_keeps (s : State) (hK : Keeps nv us ρ s) : Keeps nv us ρ (State.tdcTick s) := by
  unfold State.tdcTick
  repeat' split
  all_goals simp +contextual (maxDischargeDepth := 60) only [keeps_mk, State.satCount_keeps, State.setBit_keeps, State.setChan_keeps, hK]

theorem State.tdcEdge_keeps (s : State) (k : Nat) (hK : Keeps nv us ρ s) : Keeps nv us ρ (State.tdcEdge s k) := by
  unfold State.tdcEdge
  repeat' split
  all_goals simp +contextual (maxDischargeDepth := 60) only [keeps_mk, hK]

theorem State.calMeasurementDone_keeps (s : State) (m : TapMap) (hK : Keeps nv us ρ s) : Keeps nv us ρ (State.calMeasurementDone s m) := by
  unfold State.calMeasurementDone
  repeat' split
  all_goals simp +contextual (maxDischargeDepth := 60) only [keeps_mk, State.measured_keeps, State.swapLine_keeps, hK]

theorem State.initialRoundEnd_keeps (s : State) (hK : Keeps nv us ρ s) : Keeps nv us ρ (State.initialRoundEnd s) := by
  unfold State.initialRoundEnd
  repeat' split
  all_goals simp +contextual (maxDischargeDepth := 60) only [keeps_mk, State.setBit_keeps, hK]

theorem State.initialRoundStart_keeps (s : State) (hK : Keeps nv us ρ s) : Keeps nv us ρ (State.initialRoundStart s) := by
  simp +contextual (maxDischargeDepth := 60) only [State.initialRoundStart, keeps_mk, keeps_ite, keeps_foldBelow, implies_true, State.chanEvent_keeps, State.deliver_keeps, State.setBit_keeps, State.setChan_keeps, State.setReg_keeps, hK]

theorem State.calStaleExpiry_keeps (s : State) (k : Nat) (hK : Keeps nv us ρ s) : Keeps nv us ρ (State.calStaleExpiry s k) := by
  simp +contextual (maxDischargeDepth := 60) only [State.calStaleExpiry, keeps_ite, State.chanEvent_keeps, State.setBit_keeps, hK]

theorem State.tdcAgeExpiry_keeps (s : State) (k : Nat) (hK : Keeps nv us ρ s) : Keeps nv us ρ (State.tdcAgeExpiry s k) := by
  unfold State.tdcAgeExpiry
  repeat' split
  all_goals simp +contextual (maxDischargeDepth := 60) only [State.setBit_keeps, hK]

theorem State.calCtrlWrite_keeps (s : State) (v : Word) (hK : Keeps nv us ρ s) : Keeps nv us ρ (State.calCtrlWrite s v) := by
  simp +contextual (maxDischargeDepth := 60) only [State.calCtrlWrite, keeps_mk, keeps_ite, State.setBit_keeps, hK]

theorem State.settleCapture_keeps (s : State) (k : Nat) (sure : Bool) (hK : Keeps nv us ρ s) : Keeps nv us ρ (State.settleCapture s k sure) := by
  simp +contextual (maxDischargeDepth := 60) only [State.settleCapture, State.satAdd_keeps, State.setChan_keeps, hK]

theorem State.captureEdge_keeps (s : State) (k : Nat) (st : Stamp) (lvl : Bool) (hK : Keeps nv us ρ s) : Keeps nv us ρ (State.captureEdge s k st lvl).2 := by
  unfold State.captureEdge
  try dsimp only
  repeat' first
    | exact hK
    | simp +contextual (maxDischargeDepth := 60) only [State.satCount_keeps, State.setChan_keeps, State.settleCapture_keeps, hK]; done
    | split

theorem State.storeCapture_keeps (s : State) (k : Nat) (e : Edge) (hK : Keeps nv us ρ s) : Keeps nv us ρ (State.storeCapture s k e) := by
  simp +contextual (maxDischargeDepth := 60) only [State.storeCapture, State.raiseIf_keeps, State.setChan_keeps, State.setReg_keeps, hK]

theorem State.captureStore_keeps (s : State) (k : Nat) (hK : Keeps nv us ρ s) : Keeps nv us ρ (State.captureStore s k) := by
  unfold State.captureStore
  try dsimp only
  repeat' first
    | exact hK
    | simp +contextual (maxDischargeDepth := 60) only [keeps_ite, State.setChan_keeps, State.settleCapture_keeps, State.storeCapture_keeps, hK]; done
    | split

theorem State.armCapture_keeps (s : State) (k : Nat) (st : Stamp) (hK : Keeps nv us ρ s) : Keeps nv us ρ (State.armCapture s k st) := by
  simp +contextual (maxDischargeDepth := 60) only [State.armCapture, State.setBit_keeps, State.setPair_keeps, hK]

theorem State.capCtrlWrite_keeps (s : State) (k : Nat) (v : Word) (hK : Keeps nv us ρ s) : Keeps nv us ρ (State.capCtrlWrite s k v) := by
  simp +contextual (maxDischargeDepth := 60) only [State.capCtrlWrite, keeps_ite, State.armCapture_keeps, State.setBit_keeps, State.setReg_keeps, hK]

theorem State.capRiseLoRead_keeps (s : State) (k : Nat) (hK : Keeps nv us ρ s) : Keeps nv us ρ (State.capRiseLoRead s k).2 := by
  unfold State.capRiseLoRead
  dsimp only
  repeat' first
    | exact hK
    | simp +contextual (maxDischargeDepth := 60) only [keeps_ite, State.setBit_keeps, State.setChan_keeps, State.setPair_keeps, State.setReg_keeps, hK]; done
    | split

theorem State.putSlot_keeps (s : State) (n i : Nat) (e : Slot) (hK : Keeps nv us ρ s) : Keeps nv us ρ (State.putSlot s n i e) := by
  simp +contextual (maxDischargeDepth := 60) only [State.putSlot, State.setWeir_keeps, hK]

theorem State.retire_keeps (s : State) (n i : Nat) (o : Outcome) (hK : Keeps nv us ρ s) : Keeps nv us ρ (State.retire s n i o) := by
  unfold State.retire
  repeat' split
  all_goals simp +contextual (maxDischargeDepth := 60) only [State.setWeir_keeps, State.weirEvent_keeps, hK]

theorem State.storeKeyed_keeps (s : State) (n i : Nat) (h : Tick) (e : Slot) (hK : Keeps nv us ρ s) : Keeps nv us ρ (State.storeKeyed s n i h e) := by
  unfold State.storeKeyed
  repeat' split
  all_goals simp +contextual (maxDischargeDepth := 60) only [State.putSlot_keeps, State.retire_keeps, hK]

theorem State.noteRekey_keeps (s : State) (n h : Nat) (hK : Keeps nv us ρ s) : Keeps nv us ρ (State.noteRekey s n h) := by
  simp +contextual (maxDischargeDepth := 60) only [State.noteRekey, State.setWeir_keeps, hK]

theorem State.rekeySlot_keeps (s : State) (n i : Nat) (hK : Keeps nv us ρ s) : Keeps nv us ρ (State.rekeySlot s n i) := by
  unfold State.rekeySlot
  repeat' split
  all_goals simp +contextual (maxDischargeDepth := 60) only [State.noteRekey_keeps, State.putSlot_keeps, State.storeKeyed_keeps, hK]

theorem State.eventLevel_keeps (s : State) (k : Nat) (st : Stamp) (lvl : Bool) (hK : Keeps nv us ρ s) : Keeps nv us ρ (State.eventLevel s k st lvl) := by
  unfold State.eventLevel
  dsimp only
  repeat' first
    | exact hK
    | simp +contextual (maxDischargeDepth := 60) only [keeps_ite, State.setBit_keeps, State.setChan_keeps, hK]; done
    | split

theorem State.weirDue_keeps (s : State) (n : Nat) (t : Tick) (a : DueAct) (hK : Keeps nv us ρ s) : Keeps nv us ρ (State.weirDue s n t a) := by
  simp +contextual (maxDischargeDepth := 60) only [State.weirDue, State.setWeir_keeps, hK]

theorem State.startAction_keeps (s : State) (n seq : Nat) (e : Slot) (hK : Keeps nv us ρ s) : Keeps nv us ρ (State.startAction s n seq e).1 := by
  unfold State.startAction
  repeat' split
  all_goals simp +contextual (maxDischargeDepth := 60) only [keeps_ite1, State.adcRequest_keeps, State.eventLevel_keeps, State.trainBegin_keeps, State.weirDue_keeps, hK]

theorem State.endAction_keeps (s : State) (n : Nat) (e : Slot) (st : Stamp) (hK : Keeps nv us ρ s) : Keeps nv us ρ (State.endAction s n e st) := by
  unfold State.endAction
  repeat' split
  all_goals simp +contextual (maxDischargeDepth := 60) only [keeps_ite, State.eventLevel_keeps, State.weirDue_keeps, hK]

theorem State.noteDispatch_keeps (s : State) (n : Nat) (due : Tick) (hK : Keeps nv us ρ s) : Keeps nv us ρ (State.noteDispatch s n due) := by
  simp +contextual (maxDischargeDepth := 60) only [State.noteDispatch, keeps_ite, State.satCount_keeps, State.setWeir_keeps, State.weirEvent_keeps, hK]

theorem State.startDispatch_keeps (s : State) (n : Nat) (h : Keeps nv us ρ s) : Keeps nv us ρ (s.startDispatch n) := by
  unfold State.startDispatch
  split
  · refine keeps_ite h ?_
    have hd : ∀ t, Keeps nv us ρ (s.noteDispatch n t) := fun t => State.noteDispatch_keeps _ _ _ h
    dsimp only
    split
    · exact State.retire_keeps _ _ _ _ (hd _)
    · exact keeps_ite (State.putSlot_keeps _ _ _ _ (State.startAction_keeps _ _ _ _ (hd _)))
        (State.retire_keeps _ _ _ _ (State.satCount_keeps _ _ (State.startAction_keeps _ _ _ _ (hd _))))
  · exact h

theorem State.endDispatch_keeps (s : State) (n : Nat) (h : Keeps nv us ρ s) : Keeps nv us ρ (s.endDispatch n) := by
  unfold State.endDispatch
  split
  · exact keeps_ite h (keeps_ite (State.retire_keeps _ _ _ _ (State.endAction_keeps _ _ _ _ (State.noteDispatch_keeps _ _ _ h)))
      (State.retire_keeps _ _ _ _ (State.endAction_keeps _ _ _ _ (State.noteDispatch_keeps _ _ _ h))))
  · exact h

theorem State.abortSlot_keeps (s : State) (n i : Nat) (e : Slot) (hK : Keeps nv us ρ s) : Keeps nv us ρ (State.abortSlot s n i e) := by
  simp +contextual (maxDischargeDepth := 60) only [State.abortSlot, keeps_ite, State.endAction_keeps, State.retire_keeps, State.satCount_keeps, hK]

theorem State.postLater_keeps (s : State) (n : Nat) (p : WaitingPost) (hK : Keeps nv us ρ s) : Keeps nv us ρ (State.postLater s n p) := by
  simp +contextual (maxDischargeDepth := 60) only [State.postLater, State.setWeir_keeps, hK]

theorem State.post_keeps (s : State) (n : Nat) (d : Nat → Word) (hK : Keeps nv us ρ s) : Keeps nv us ρ (State.post s n d).2 := by
  unfold State.post
  dsimp only
  repeat' first
    | exact hK
    | simp +contextual (maxDischargeDepth := 60) only [State.satCount_keeps, State.setWeir_keeps, State.weirEvent_keeps, hK]; done
    | split

theorem State.postHost_keeps (s : State) (n : Nat) (d : Nat → Word) (hK : Keeps nv us ρ s) : Keeps nv us ρ (State.postHost s n d) := by
  simp +contextual (maxDischargeDepth := 60) only [State.postHost, State.post_keeps, State.setReg_keeps, hK]

theorem State.postGo_keeps (s : State) (n : Nat) (v : Word) (hK : Keeps nv us ρ s) : Keeps nv us ρ (State.postGo s n v) := by
  simp +contextual (maxDischargeDepth := 60) only [State.postGo, keeps_ite, State.postHost_keeps, State.postLater_keeps, hK]

theorem State.insertionComplete_keeps (s : State) (n i : Nat) (hK : Keeps nv us ρ s) : Keeps nv us ρ (State.insertionComplete s n i) := by
  unfold State.insertionComplete
  repeat' split
  all_goals simp +contextual (maxDischargeDepth := 60) only [State.storeKeyed_keeps, hK]

theorem State.mapEvents_keeps (s : State) (f : Slot → Slot) (hK : Keeps nv us ρ s) : Keeps nv us ρ (State.mapEvents s f) := by
  simp +contextual (maxDischargeDepth := 60) only [State.mapEvents, keeps_ite, keeps_foldBelow, implies_true, State.setWeir_keeps, hK]

theorem State.refreeze_keeps (s : State) (h : Nat) (hK : Keeps nv us ρ s) : Keeps nv us ρ (State.refreeze s h) := by
  simp +contextual (maxDischargeDepth := 60) only [State.refreeze, State.mapEvents_keeps, hK]

theorem State.abortEvents_keeps (s : State) (h : Nat) (p : Nat → Bool) (hK : Keeps nv us ρ s) : Keeps nv us ρ (State.abortEvents s h p) := by
  simp +contextual (maxDischargeDepth := 60) only [State.abortEvents, keeps_ite, keeps_foldl, keeps_foldBelow, implies_true, State.abortSlot_keeps, hK]

theorem State.weirPublish_keeps (s : State) (h : Nat) (pos : BitVec 64) (hK : Keeps nv us ρ s) : Keeps nv us ρ (State.weirPublish s h pos) := by
  simp +contextual (maxDischargeDepth := 60) only [State.weirPublish, keeps_ite, State.mapEvents_keeps, hK]

theorem State.weirShaftLost_keeps (s : State) (h : Nat) (stopped : Bool) (hK : Keeps nv us ρ s) : Keeps nv us ρ (State.weirShaftLost s h stopped) := by
  simp +contextual (maxDischargeDepth := 60) only [State.weirShaftLost, State.abortEvents_keeps, State.mapEvents_keeps, hK]

theorem State.weirShaftStall_keeps (s : State) (h : Nat) (hK : Keeps nv us ρ s) : Keeps nv us ρ (State.weirShaftStall s h) := by
  simp +contextual (maxDischargeDepth := 60) only [State.weirShaftStall, State.abortEvents_keeps, State.refreeze_keeps, hK]

theorem State.weirShaftDir_keeps (s : State) (h : Nat) (hK : Keeps nv us ρ s) : Keeps nv us ρ (State.weirShaftDir s h) := by
  simp +contextual (maxDischargeDepth := 60) only [State.weirShaftDir, State.abortEvents_keeps, State.mapEvents_keeps, State.refreeze_keeps, hK]

theorem State.weirCycle_keeps (s : State) (h : Nat) (hK : Keeps nv us ρ s) : Keeps nv us ρ (State.weirCycle s h) := by
  simp +contextual (maxDischargeDepth := 60) only [State.weirCycle, State.mapEvents_keeps, hK]

theorem State.droppedSync_keeps (s : State) (n i : Nat) (hK : Keeps nv us ρ s) : Keeps nv us ρ (State.droppedSync s n i) := by
  unfold State.droppedSync
  repeat' split
  all_goals simp +contextual (maxDischargeDepth := 60) only [State.retire_keeps, hK]

theorem State.cancel_keeps (s : State) (n : Nat) (tag mask : BitVec 12) (thread : Option Nat) (host : Bool) (hK : Keeps nv us ρ s) : Keeps nv us ρ (State.cancel s n tag mask thread host) := by
  simp +contextual (maxDischargeDepth := 60) only [State.cancel, keeps_ite, State.setBit_keeps, State.setWeir_keeps, hK]

theorem State.cancelGo_keeps (s : State) (n : Nat) (v : Word) (hK : Keeps nv us ρ s) : Keeps nv us ρ (State.cancelGo s n v) := by
  simp +contextual (maxDischargeDepth := 60) only [State.cancelGo, keeps_ite, State.cancel_keeps, hK]

theorem State.cancelEnd_keeps (s : State) (n : Nat) (c : Cancel) (hK : Keeps nv us ρ s) : Keeps nv us ρ (State.cancelEnd s n c) := by
  simp +contextual (maxDischargeDepth := 60) only [State.cancelEnd, keeps_ite, State.setReg_keeps, State.setWeir_keeps, hK]

theorem State.cancelPass_keeps (s : State) (n i : Nat) (hK : Keeps nv us ρ s) : Keeps nv us ρ (State.cancelPass s n i) := by
  unfold State.cancelPass
  repeat' split
  all_goals simp +contextual (maxDischargeDepth := 60) only [keeps_ite, State.cancelEnd_keeps, State.retire_keeps, State.setWeir_keeps, hK]

theorem State.takeWeir_keeps (s : State) (n : Nat) (hK : Keeps nv us ρ s) : Keeps nv us ρ (State.takeWeir s n) := by
  simp +contextual (maxDischargeDepth := 60) only [State.takeWeir, State.setFld_keeps, State.setPair_keeps, State.setReg_keeps, hK]

theorem State.ledgerTake_keeps (s : State) (n : Nat) (v : Word) (hK : Keeps nv us ρ s) : Keeps nv us ρ (State.ledgerTake s n v) := by
  simp +contextual (maxDischargeDepth := 60) only [State.ledgerTake, keeps_ite, State.noteTake_keeps, hK]

theorem State.swapEnd_keeps (s : State) (outcome : Nat) (hK : Keeps nv us ρ s) : Keeps nv us ρ (State.swapEnd s outcome) := by
  unfold State.swapEnd
  dsimp only
  repeat' first
    | exact hK
    | simp +contextual (maxDischargeDepth := 60) only [keeps_ite, State.deliver_keeps, State.setReg_keeps, hK]; done
    | split

theorem State.swapKey_keeps (s : State) (st : Stamp) (hK : Keeps nv us ρ s) : Keeps nv us ρ (State.swapKey s st) := by
  simp +contextual (maxDischargeDepth := 60) only [State.swapKey, keeps_mk, keeps_ite, State.setPair_keeps, State.swapEnd_keeps, hK]

theorem State.swapRekey_keeps (s : State) (h : Nat) (hK : Keeps nv us ρ s) : Keeps nv us ρ (State.swapRekey s h) := by
  unfold State.swapRekey
  repeat' split
  all_goals simp +contextual (maxDischargeDepth := 60) only [keeps_mk, State.swapKey_keeps, hK]

theorem State.swapFreeze_keeps (s : State) (h : Nat) (hK : Keeps nv us ρ s) : Keeps nv us ρ (State.swapFreeze s h) := by
  simp +contextual (maxDischargeDepth := 60) only [State.swapFreeze, keeps_mk, keeps_ite, hK]

theorem State.swapShaftLost_keeps (s : State) (h : Nat) (hK : Keeps nv us ρ s) : Keeps nv us ρ (State.swapShaftLost s h) := by
  simp +contextual (maxDischargeDepth := 60) only [State.swapShaftLost, keeps_ite, State.swapEnd_keeps, hK]

theorem State.shaftJumped_keeps (s : State) (h : Nat) (p0 : BitVec 64) (hK : Keeps nv us ρ s) : Keeps nv us ρ (State.shaftJumped s h p0) := by
  simp +contextual (maxDischargeDepth := 60) only [State.shaftJumped, keeps_ite, keeps_foldBelow, implies_true, State.raise_keeps, State.setPcmp_keeps, hK]

theorem State.reportEstimate_keeps (s : State) (h : Nat) (hK : Keeps nv us ρ s) : Keeps nv us ρ (State.reportEstimate s h) := by
  simp +contextual (maxDischargeDepth := 60) only [State.reportEstimate, State.setFld_keeps, State.setReg_keeps, hK]

theorem State.holdAt_keeps (s : State) (h : Nat) (pos : BitVec 64) (hK : Keeps nv us ρ s) : Keeps nv us ρ (State.holdAt s h pos) := by
  simp +contextual (maxDischargeDepth := 60) only [State.holdAt, State.reportEstimate_keeps, State.setShaft_keeps, hK]

theorem State.hold_keeps (s : State) (h : Nat) (hK : Keeps nv us ρ s) : Keeps nv us ρ (State.hold s h) := by
  simp +contextual (maxDischargeDepth := 60) only [State.hold, State.holdAt_keeps, hK]

theorem State.jump_keeps (s : State) (h : Nat) (j : BitVec 64) (cause : Nat) (hK : Keeps nv us ρ s) : Keeps nv us ρ (State.jump s h j cause) := by
  simp +contextual (maxDischargeDepth := 60) only [State.jump, State.setPair_keeps, State.setReg_keeps, State.setShaft_keeps, State.shaftEvent_keeps, hK]

theorem State.noteSat_keeps (s : State) (h : Nat) (b : Bool) (hK : Keeps nv us ρ s) : Keeps nv us ρ (State.noteSat s h b) := by
  simp +contextual (maxDischargeDepth := 60) only [State.noteSat, keeps_ite, State.raise_keeps, hK]

theorem State.satTick_keeps (s : State) (h : Nat) (hK : Keeps nv us ρ s) : Keeps nv us ρ (State.satTick s h) := by
  simp +contextual (maxDischargeDepth := 60) only [State.satTick, State.noteSat_keeps, hK]

theorem State.enterState_keeps (s : State) (h st : Nat) (hK : Keeps nv us ρ s) : Keeps nv us ρ (State.enterState s h st) := by
  unfold State.enterState
  repeat' split
  all_goals simp +contextual (maxDischargeDepth := 60) only [keeps_ite, State.hold_keeps, State.satCount_keeps, State.setBit_keeps, State.setFld_keeps, State.setShaft_keeps, State.shaftEvent_keeps, State.swapShaftLost_keeps, State.weirShaftLost_keeps, hK]

theorem State.importLost_keeps (s : State) (h : Nat) (hK : Keeps nv us ρ s) : Keeps nv us ρ (State.importLost s h) := by
  simp +contextual (maxDischargeDepth := 60) only [State.importLost, keeps_ite, State.enterState_keeps, State.hold_keeps, State.setBit_keeps, hK]

theorem State.newEstimate_keeps (s : State) (h : Nat) (st : Stamp) (t : Tick) (hK : Keeps nv us ρ s) : Keeps nv us ρ (State.newEstimate s h st t) := by
  simp +contextual (maxDischargeDepth := 60) only [State.newEstimate, State.noteSat_keeps, State.setShaft_keeps, hK]

theorem State.publish_keeps (s : State) (h : Nat) (hK : Keeps nv us ρ s) : Keeps nv us ρ (State.publish s h) := by
  unfold State.publish
  repeat' split
  all_goals simp +contextual (maxDischargeDepth := 60) only [keeps_ite, State.reportEstimate_keeps, State.setShaft_keeps, State.shaftJumped_keeps, State.swapRekey_keeps, State.weirPublish_keeps, hK]

theorem State.noteHistory_keeps (s : State) (h : Nat) (st : Stamp) (base : Tick) (synth gap : Bool) (hK : Keeps nv us ρ s) : Keeps nv us ρ (State.noteHistory s h st base synth gap) := by
  unfold State.noteHistory
  dsimp only
  repeat' first
    | exact hK
    | simp +contextual (maxDischargeDepth := 60) only [State.setReg_keeps, State.setShaft_keeps, hK]; done
    | split

theorem State.noteStamp_keeps (s : State) (h : Nat) (st : Stamp) (hK : Keeps nv us ρ s) : Keeps nv us ρ (State.noteStamp s h st) := by
  simp +contextual (maxDischargeDepth := 60) only [State.noteStamp, State.setShaft_keeps, hK]

theorem State.setLastTooth_keeps (s : State) (h : Nat) (st : Stamp) (hK : Keeps nv us ρ s) : Keeps nv us ρ (State.setLastTooth s h st) := by
  simp +contextual (maxDischargeDepth := 60) only [State.setLastTooth, State.setPair_keeps, State.setShaft_keeps, hK]

theorem State.takeTooth_keeps (s : State) (h : Nat) (st : Stamp) (base : Tick) (idx : Nat) (pos : BitVec 64) (step : Int) (synth gap : Bool) (hK : Keeps nv us ρ s) : Keeps nv us ρ (State.takeTooth s h st base idx pos step synth gap) := by
  simp +contextual (maxDischargeDepth := 60) only [State.takeTooth, keeps_ite, State.newEstimate_keeps, State.noteHistory_keeps, State.noteStamp_keeps, State.setBit_keeps, State.setLastTooth_keeps, State.setShaft_keeps, hK]

theorem State.lostTooth_keeps (s : State) (h : Nat) (st : Stamp) (synth gap : Bool) (hK : Keeps nv us ρ s) : Keeps nv us ρ (State.lostTooth s h st synth gap) := by
  unfold State.lostTooth
  repeat' split
  all_goals simp +contextual (maxDischargeDepth := 60) only [State.enterState_keeps, State.noteHistory_keeps, State.noteStamp_keeps, State.setLastTooth_keeps, hK]

theorem State.setDir_keeps (s : State) (h : Nat) (d : Bool) (hK : Keeps nv us ρ s) : Keeps nv us ρ (State.setDir s h d) := by
  simp +contextual (maxDischargeDepth := 60) only [State.setDir, keeps_ite, State.holdAt_keeps, State.setBit_keeps, State.setShaft_keeps, State.swapFreeze_keeps, State.weirShaftDir_keeps, hK]

theorem State.directionChange_keeps (s : State) (h : Nat) (hK : Keeps nv us ρ s) : Keeps nv us ρ (State.directionChange s h) := by
  unfold State.directionChange
  repeat' split
  all_goals simp +contextual (maxDischargeDepth := 60) only [keeps_ite, State.setDir_keeps, State.setShaft_keeps, hK]

theorem State.confirm_keeps (s : State) (h : Nat) (st : Stamp) (hK : Keeps nv us ρ s) : Keeps nv us ρ (State.confirm s h st) := by
  simp +contextual (maxDischargeDepth := 60) only [State.confirm, keeps_ite, State.enterState_keeps, State.jump_keeps, State.newEstimate_keeps, State.setShaft_keeps, hK]

theorem State.searchTooth_keeps (s : State) (h : Nat) (st : Stamp) (hK : Keeps nv us ρ s) : Keeps nv us ρ (State.searchTooth s h st) := by
  simp +contextual (maxDischargeDepth := 60) only [State.searchTooth, keeps_ite, State.confirm_keeps, State.enterState_keeps, State.noteHistory_keeps, State.noteStamp_keeps, State.satCount_keeps, State.setLastTooth_keeps, State.setShaft_keeps, hK]

theorem State.turnTooth_keeps (s : State) (h : Nat) (st : Stamp) (hK : Keeps nv us ρ s) : Keeps nv us ρ (State.turnTooth s h st) := by
  simp +contextual (maxDischargeDepth := 60) only [State.turnTooth, State.takeTooth_keeps, hK]

theorem State.expectedTooth_keeps (s : State) (h : Nat) (st : Stamp) (synth : Bool) (hK : Keeps nv us ρ s) : Keeps nv us ρ (State.expectedTooth s h st synth) := by
  simp +contextual (maxDischargeDepth := 60) only [State.expectedTooth, State.takeTooth_keeps, hK]

theorem State.gapTooth_keeps (s : State) (h : Nat) (st : Stamp) (hK : Keeps nv us ρ s) : Keeps nv us ρ (State.gapTooth s h st) := by
  simp +contextual (maxDischargeDepth := 60) only [State.gapTooth, keeps_ite, State.enterState_keeps, State.jump_keeps, State.lostTooth_keeps, State.satCount_keeps, State.setShaft_keeps, State.takeTooth_keeps, hK]

theorem State.missedGap_keeps (s : State) (h : Nat) (st : Stamp) (hK : Keeps nv us ρ s) : Keeps nv us ρ (State.missedGap s h st) := by
  simp +contextual (maxDischargeDepth := 60) only [State.missedGap, keeps_ite, State.enterState_keeps, State.lostTooth_keeps, State.satCount_keeps, State.setShaft_keeps, State.takeTooth_keeps, hK]

theorem State.syncTooth_keeps (s : State) (h : Nat) (st : Stamp) (hK : Keeps nv us ρ s) : Keeps nv us ρ (State.syncTooth s h st) := by
  simp +contextual (maxDischargeDepth := 60) only [State.syncTooth, keeps_ite, State.expectedTooth_keeps, State.gapTooth_keeps, State.missedGap_keeps, State.turnTooth_keeps, hK]

theorem State.judgeTooth_keeps (s : State) (h : Nat) (st : Stamp) (hK : Keeps nv us ρ s) : Keeps nv us ρ (s.judgeTooth h st) := by
  unfold State.judgeTooth
  refine keeps_ite (State.satCount_keeps _ _ hK) ?_
  have key : ∀ u : State, Keeps nv us ρ u → Keeps nv us ρ (if u.shSync h then u.syncTooth h st
      else if u.shState h = 0 then u else u.searchTooth h st) := fun u hu =>
    keeps_ite (State.syncTooth_keeps _ _ _ hu) (keeps_ite hu (State.searchTooth_keeps _ _ _ hu))
  exact key _ (keeps_ite (State.setDir_keeps _ _ _ hK) hK)

theorem State.toothJudge_keeps (s : State) (h : Nat) (hK : Keeps nv us ρ s) : Keeps nv us ρ (State.toothJudge s h) := by
  unfold State.toothJudge
  dsimp only
  repeat' first
    | exact hK
    | simp +contextual (maxDischargeDepth := 60) only [keeps_ite, State.judgeTooth_keeps, State.satCount_keeps, State.setShaft_keeps, hK]; done
    | split

theorem State.stall_keeps (s : State) (h : Nat) (hK : Keeps nv us ρ s) : Keeps nv us ρ (State.stall s h) := by
  simp +contextual (maxDischargeDepth := 60) only [State.stall, keeps_ite, State.hold_keeps, State.satCount_keeps, State.setBit_keeps, State.setShaft_keeps, State.shaftEvent_keeps, State.swapFreeze_keeps, State.weirShaftStall_keeps, hK]

theorem State.syntheticTooth_keeps (s : State) (h : Nat) (hK : Keeps nv us ρ s) : Keeps nv us ρ (State.syntheticTooth s h) := by
  unfold State.syntheticTooth
  dsimp only
  repeat' first
    | exact hK
    | simp +contextual (maxDischargeDepth := 60) only [keeps_ite, State.enterState_keeps, State.expectedTooth_keeps, State.lostTooth_keeps, State.satCount_keeps, hK]; done
    | split

theorem State.historyWrite_keeps (s : State) (h : Nat) (hK : Keeps nv us ρ s) : Keeps nv us ρ (State.historyWrite s h) := by
  unfold State.historyWrite
  dsimp only
  repeat' first
    | exact hK
    | simp +contextual (maxDischargeDepth := 60) only [keeps_ite, State.count_keeps, State.resWrite_keeps, State.satCount_keeps, State.setResvUe_keeps, State.setShaft_keeps, hK]; done
    | split

theorem State.setCycle_keeps (s : State) (h : Nat) (r : Word) (v : Nat) (hK : Keeps nv us ρ s) : Keeps nv us ρ (State.setCycle s h r v) := by
  simp +contextual (maxDischargeDepth := 60) only [State.setCycle, keeps_ite, State.setBit_keeps, State.setShaft_keeps, State.weirCycle_keeps, hK]

theorem State.marker_keeps (s : State) (h : Nat) (st : Stamp) (hK : Keeps nv us ρ s) : Keeps nv us ρ (State.marker s h st) := by
  simp +contextual (maxDischargeDepth := 60) only [State.marker, keeps_ite, State.raise_keeps, State.satCount_keeps, State.setCycle_keeps, hK]

theorem State.cycleSet_keeps (s : State) (h : Nat) (v : Word) (hK : Keeps nv us ρ s) : Keeps nv us ρ (State.cycleSet s h v) := by
  simp +contextual (maxDischargeDepth := 60) only [State.cycleSet, keeps_ite, State.raise_keeps, State.setCycle_keeps, hK]

theorem State.cycleRevStep_keeps (s : State) (h : Nat) (rev : Bool) (hK : Keeps nv us ρ s) : Keeps nv us ρ (State.cycleRevStep s h rev) := by
  simp +contextual (maxDischargeDepth := 60) only [State.cycleRevStep, keeps_ite, State.setShaft_keeps, hK]

theorem State.encoderSync_keeps (s : State) (h : Nat) (c : Int) (hK : Keeps nv us ρ s) : Keeps nv us ρ (State.encoderSync s h c) := by
  simp +contextual (maxDischargeDepth := 60) only [State.encoderSync, keeps_ite, State.enterState_keeps, State.holdAt_keeps, State.jump_keeps, State.setShaft_keeps, State.shaftJumped_keeps, hK]

theorem State.encoderValid_keeps (s : State) (src i : Nat) (c : Int) (hK : Keeps nv us ρ s) : Keeps nv us ρ (State.encoderValid s src i c) := by
  simp +contextual (maxDischargeDepth := 60) only [State.encoderValid, keeps_ite, keeps_foldl, implies_true, State.encoderSync_keeps, hK]

theorem State.encoderLost_keeps (s : State) (src i : Nat) (hK : Keeps nv us ρ s) : Keeps nv us ρ (State.encoderLost s src i) := by
  simp +contextual (maxDischargeDepth := 60) only [State.encoderLost, keeps_ite, keeps_foldl, implies_true, State.enterState_keeps, hK]

theorem State.encoderIndex_keeps (s : State) (src i : Nat) (fault : Bool) (hK : Keeps nv us ρ s) : Keeps nv us ρ (State.encoderIndex s src i fault) := by
  simp +contextual (maxDischargeDepth := 60) only [State.encoderIndex, keeps_ite, keeps_foldl, implies_true, State.enterState_keeps, hK]

theorem State.encoderMove_keeps (s : State) (src i : Nat) (c0 : Int) (st0 : Stamp) (c1 : Int) (st1 : Stamp) (interpolate : Bool) (hK : Keeps nv us ρ s) : Keeps nv us ρ (State.encoderMove s src i c0 st0 c1 st1 interpolate) := by
  simp +contextual (maxDischargeDepth := 60) only [State.encoderMove, keeps_ite, keeps_foldl, implies_true, State.setShaft_keeps, hK]

theorem State.genStalled_keeps (s : State) (h : Nat) (hK : Keeps nv us ρ s) : Keeps nv us ρ (State.genStalled s h) := by
  simp +contextual (maxDischargeDepth := 60) only [State.genStalled, keeps_ite, State.setBit_keeps, State.shaftEvent_keeps, State.swapFreeze_keeps, State.weirShaftStall_keeps, hK]

theorem State.genTake_keeps (s : State) (h : Nat) (load : Bool) (hK : Keeps nv us ρ s) : Keeps nv us ρ (State.genTake s h load) := by
  simp +contextual (maxDischargeDepth := 60) only [State.genTake, keeps_ite, State.genStalled_keeps, State.setShaft_keeps, hK]

theorem State.genWrite_keeps (s : State) (h : Nat) (v : Word) (hK : Keeps nv us ρ s) : Keeps nv us ρ (State.genWrite s h v) := by
  simp +contextual (maxDischargeDepth := 60) only [State.genWrite, keeps_ite, State.genTake_keeps, State.raise_keeps, hK]

theorem State.genTargetReached_keeps (s : State) (h : Nat) (hK : Keeps nv us ρ s) : Keeps nv us ρ (State.genTargetReached s h) := by
  simp +contextual (maxDischargeDepth := 60) only [State.genTargetReached, keeps_ite, State.genStalled_keeps, State.setShaft_keeps, hK]

theorem State.genBegin_keeps (s : State) (h : Nat) (hK : Keeps nv us ρ s) : Keeps nv us ρ (State.genBegin s h) := by
  unfold State.genBegin
  repeat' split
  all_goals simp +contextual (maxDischargeDepth := 60) only [State.enterState_keeps, State.setBit_keeps, State.setShaft_keeps, hK]

theorem State.genTick_keeps (s : State) (h : Nat) (hK : Keeps nv us ρ s) : Keeps nv us ρ (State.genTick s h) := by
  simp +contextual (maxDischargeDepth := 60) only [State.genTick, keeps_ite, State.genBegin_keeps, State.genStalled_keeps, State.setShaft_keeps, hK]

theorem State.virtualTooth_keeps (s : State) (h : Nat) (hK : Keeps nv us ρ s) : Keeps nv us ρ (State.virtualTooth s h) := by
  unfold State.virtualTooth
  dsimp only
  repeat' first
    | exact hK
    | simp +contextual (maxDischargeDepth := 60) only [keeps_ite, State.setDir_keeps, State.setShaft_keeps, State.takeTooth_keeps, hK]; done
    | split

theorem State.shaftStart_keeps (s : State) (h : Nat) (valid : Option Int) (hK : Keeps nv us ρ s) : Keeps nv us ρ (State.shaftStart s h valid) := by
  unfold State.shaftStart
  dsimp only
  repeat' first
    | exact hK
    | simp +contextual (maxDischargeDepth := 60) only [keeps_ite, State.encoderSync_keeps, State.enterState_keeps, State.genStalled_keeps, State.genTake_keeps, State.raise_keeps, State.setShaft_keeps, hK]; done
    | split

theorem State.shaftStop_keeps (s : State) (h : Nat) (pos : BitVec 64) (hK : Keeps nv us ρ s) : Keeps nv us ρ (State.shaftStop s h pos) := by
  simp +contextual (maxDischargeDepth := 60) only [State.shaftStop, keeps_ite, State.enterState_keeps, State.holdAt_keeps, State.setBit_keeps, State.setShaft_keeps, State.swapShaftLost_keeps, State.weirShaftLost_keeps, hK]

theorem State.shCtrl_keeps (s : State) (h : Nat) (v : Word) (valid : Option Int) (hK : Keeps nv us ρ s) : Keeps nv us ρ (State.shCtrl s h v valid) := by
  simp +contextual (maxDischargeDepth := 60) only [State.shCtrl, keeps_ite, State.raise_keeps, State.setDir_keeps, State.setReg_keeps, State.setShaft_keeps, State.shaftStart_keeps, State.shaftStop_keeps, hK]

theorem State.shCtrlWrite_keeps (s : State) (h off : Nat) (v : Word) (valid : Option Int) (hK : Keeps nv us ρ s) : Keeps nv us ρ (State.shCtrlWrite s h off v valid) := by
  unfold State.shCtrlWrite
  repeat' split
  all_goals simp +contextual (maxDischargeDepth := 60) only [State.raise_keeps, State.setReg_keeps, State.shCtrl_keeps, hK]

theorem State.takeShaft_keeps (s : State) (h : Nat) (hK : Keeps nv us ρ s) : Keeps nv us ρ (State.takeShaft s h) := by
  simp +contextual (maxDischargeDepth := 60) only [State.takeShaft, State.noteSat_keeps, State.setFld_keeps, State.setPair_keeps, State.setReg_keeps, hK]

theorem State.shaftSnap_keeps (s : State) (h : Nat) (v : Word) (hK : Keeps nv us ρ s) : Keeps nv us ρ (State.shaftSnap s h v) := by
  simp +contextual (maxDischargeDepth := 60) only [State.shaftSnap, keeps_ite, State.noteTake_keeps, hK]

theorem State.noteExt_keeps (s : State) (k : Nat) (lvl : Bool) (hK : Keeps nv us ρ s) : Keeps nv us ρ (State.noteExt s k lvl) := by
  simp +contextual (maxDischargeDepth := 60) only [State.noteExt, keeps_ite, State.noteWear_keeps, State.setPin_keeps, hK]

theorem State.toothEdge_keeps (s : State) (k : Nat) (st : Stamp) (lvl : Bool) (hK : Keeps nv us ρ s) : Keeps nv us ρ (s.toothEdge k st lvl) := by
  unfold State.toothEdge
  refine keeps_foldBelow (fun s h hs => keeps_ite (keeps_ite (State.setShaft_keeps _ _ _ hs) ?_) hs) _ _ hK
  split
  · exact keeps_ite (State.setShaft_keeps _ _ _ hs) hs
  · exact hs

theorem State.dropCandidate_keeps (s : State) (k : Nat) (st : Stamp) (hK : Keeps nv us ρ s) : Keeps nv us ρ (State.dropCandidate s k st) := by
  simp +contextual (maxDischargeDepth := 60) only [State.dropCandidate, keeps_ite, keeps_foldBelow, implies_true, State.setShaft_keeps, hK]

theorem State.directionEdge_keeps (s : State) (k : Nat) (hK : Keeps nv us ρ s) : Keeps nv us ρ (State.directionEdge s k) := by
  simp +contextual (maxDischargeDepth := 60) only [State.directionEdge, keeps_ite, keeps_foldBelow, implies_true, State.setShaft_keeps, hK]

theorem State.feedEdge_keeps (s : State) (k : Nat) (st : Stamp) (lvl : Bool) (hK : Keeps nv us ρ s) : Keeps nv us ρ (State.feedEdge s k st lvl) := by
  simp +contextual (maxDischargeDepth := 60) only [State.feedEdge, keeps_ite, keeps_foldBelow, implies_true, State.setIface_keeps, State.setProbe_keeps, hK]

theorem State.unfeedEdge_keeps (s : State) (k : Nat) (st : Stamp) (hK : Keeps nv us ρ s) : Keeps nv us ρ (State.unfeedEdge s k st) := by
  simp +contextual (maxDischargeDepth := 60) only [State.unfeedEdge, keeps_ite, keeps_foldBelow, implies_true, State.setIface_keeps, State.setProbe_keeps, hK]

theorem State.stampEdge_keeps (s : State) (k : Nat) (st : Stamp) (lvl : Bool) (hK : Keeps nv us ρ s) : Keeps nv us ρ (State.stampEdge s k st lvl) := by
  unfold State.stampEdge
  dsimp only
  repeat' first
    | exact hK
    | simp +contextual (maxDischargeDepth := 60) only [keeps_ite, State.captureEdge_keeps, State.directionEdge_keeps, State.dropCandidate_keeps, State.feedEdge_keeps, State.noteWear_keeps, State.setChan_keeps, State.tdcEdge_keeps, State.toothEdge_keeps, State.unfeedEdge_keeps, hK]; done
    | split

theorem State.inputEdge_keeps (s : State) (k : Nat) (fine : BitVec 6) (lvl : Bool) (hK : Keeps nv us ρ s) : Keeps nv us ρ (State.inputEdge s k fine lvl) := by
  simp +contextual (maxDischargeDepth := 60) only [State.inputEdge, keeps_ite, State.noteExt_keeps, State.stampEdge_keeps, hK]

theorem State.pinSelWrite_keeps (s : State) (a : Nat) (v : Word) (hK : Keeps nv us ρ s) : Keeps nv us ρ (State.pinSelWrite s a v) := by
  simp +contextual (maxDischargeDepth := 60) only [State.pinSelWrite, keeps_ite, State.setChan_keeps, State.setPin_keeps, State.setReg_keeps, hK]

theorem State.pinBoundary_keeps (s : State) (p : Nat) (hK : Keeps nv us ρ s) : Keeps nv us ρ (State.pinBoundary s p) := by
  unfold State.pinBoundary
  repeat' split
  all_goals simp +contextual (maxDischargeDepth := 60) only [State.setPin_keeps, hK]

theorem State.inputBoundary_keeps (s : State) (k : Nat) (hK : Keeps nv us ρ s) : Keeps nv us ρ (State.inputBoundary s k) := by
  unfold State.inputBoundary
  repeat' split
  all_goals simp +contextual (maxDischargeDepth := 60) only [keeps_ite, State.directionEdge_keeps, State.setChan_keeps, State.stampEdge_keeps, hK]

theorem State.ringOpen_keeps (s : State) (r : Nat) (hK : Keeps nv us ρ s) : Keeps nv us ρ (State.ringOpen s r) := by
  simp +contextual (maxDischargeDepth := 60) only [State.ringOpen, keeps_ite, and_self, State.setRing_keeps, hK]

theorem State.ringLevel_keeps (s : State) (r fill credit : Nat) (hK : Keeps nv us ρ s) : Keeps nv us ρ (State.ringLevel s r fill credit) := by
  simp +contextual (maxDischargeDepth := 60) only [State.ringLevel, State.setReg_keeps, hK]

theorem State.ringCycleEnd_keeps (s : State) (r : Nat) (hK : Keeps nv us ρ s) : Keeps nv us ρ (State.ringCycleEnd s r) := by
  simp +contextual (maxDischargeDepth := 60) only [State.ringCycleEnd, keeps_ite, and_self, State.ringEvent_keeps, State.setRing_keeps, hK]

theorem State.ringWaterWrite_keeps (s : State) (r : Nat) (v : Word) (hK : Keeps nv us ρ s) : Keeps nv us ρ (State.ringWaterWrite s r v) := by
  simp +contextual (maxDischargeDepth := 60) only [State.ringWaterWrite, keeps_ite, State.ringEvent_keeps, State.setReg_keeps, hK]

theorem State.ringSpilled_keeps (s : State) (r : Nat) (hK : Keeps nv us ρ s) : Keeps nv us ρ (State.ringSpilled s r) := by
  simp +contextual (maxDischargeDepth := 60) only [State.ringSpilled, State.raise_keeps, State.ringEvent_keeps, hK]

theorem State.ringPass_keeps (s : State) (r : Nat) (hK : Keeps nv us ρ s) : Keeps nv us ρ (State.ringPass s r) := by
  simp +contextual (maxDischargeDepth := 60) only [State.ringPass, and_self, State.ringOpen_keeps, State.setReg_keeps, State.setRing_keeps, hK]

theorem State.ringAdmit_keeps (s : State) (r : Nat) (es : List InFlight) (h : Keeps nv us ρ s) : Keeps nv us ρ (s.ringAdmit r es) := by
  unfold State.ringAdmit
  refine State.ringPass_keeps _ _ (State.ringLevel_keeps _ _ _ _ (keeps_setRing _ _ ?_ (State.ringOpen_keeps _ _ h)))
  unfold RingState.accounted
  intro c
  dsimp only
  rw [c]; ring

theorem State.ringOffer_keeps (s : State) (r : Nat) (allowed : Bool) (e : BitVec 128) (h : Keeps nv us ρ s) :
    Keeps nv us ρ (s.ringOffer r allowed e) := by
  unfold State.ringOffer
  refine keeps_ite ?_ (keeps_ite ?_ (State.ringAdmit_keeps _ _ _ h))
  · refine State.ringSpilled_keeps _ _ (keeps_setRing _ _ ?_ h)
    unfold RingState.accounted; intro c; dsimp only; rw [c]; ring
  · refine State.ringSpilled_keeps _ _ (keeps_setRing _ _ ?_ h)
    unfold RingState.accounted; intro c; dsimp only; rw [c]; ring

theorem State.ringGather_keeps (s : State) (r rank : Nat) (o : Offer) (hK : Keeps nv us ρ s) : Keeps nv us ρ (State.ringGather s r rank o) := by
  simp +contextual (maxDischargeDepth := 60) only [State.ringGather, and_self, State.setRing_keeps, hK]

theorem State.ringRetire_keeps (s : State) (r n : Nat) (hK : Keeps nv us ρ s) : Keeps nv us ρ (State.ringRetire s r n) := by
  simp +contextual (maxDischargeDepth := 60) only [State.ringRetire, and_self, State.ringLevel_keeps, State.ringOpen_keeps, State.setReg_keeps, State.setRing_keeps, hK]

theorem State.ringTake_keeps (s : State) (r : Nat) (hK : Keeps nv us ρ s) : Keeps nv us ρ (State.ringTake s r).2 := by
  simp +contextual (maxDischargeDepth := 60) only [State.ringTake, keeps_ite2, and_self, State.ringRetire_keeps, State.ringSpilled_keeps, State.setResvUe_keeps, State.setRing_keeps, hK]

theorem State.ringPop_keeps (s : State) (r a : Nat) (hK : Keeps nv us ρ s) : Keeps nv us ρ (State.ringPop s r a).2.2 := by
  unfold State.ringPop
  repeat' split
  all_goals simp +contextual (maxDischargeDepth := 60) only [State.ringTake_keeps, hK]

theorem State.entryWritten_keeps (s : State) (r : Nat) (hK : Keeps nv us ρ s) : Keeps nv us ρ (State.entryWritten s r) := by
  unfold State.entryWritten
  repeat' split
  all_goals simp +contextual (maxDischargeDepth := 60) only [and_self, State.resWriteWords_keeps, State.ringPass_keeps, State.setRing_keeps, hK]

theorem State.flushWrites_keeps (s : State) (r : Nat) (hK : Keeps nv us ρ s) : Keeps nv us ρ (State.flushWrites s r) := by
  simp +contextual (maxDischargeDepth := 60) only [State.flushWrites, keeps_foldl, implies_true, State.entryWritten_keeps, hK]

theorem State.ringDisable_keeps (s : State) (r : Nat) (hK : Keeps nv us ρ s) : Keeps nv us ρ (State.ringDisable s r) := by
  simp +contextual (maxDischargeDepth := 60) only [State.ringDisable, and_self, State.flushWrites_keeps, State.ringLevel_keeps, State.ringOpen_keeps, State.setRing_keeps, hK]

theorem State.ringEnable_keeps (s : State) (r : Nat) (h : Keeps nv us ρ s) : Keeps nv us ρ (s.ringEnable r) := by
  unfold State.ringEnable
  exact State.ringLevel_keeps _ _ _ _ (State.setReg_keeps _ _ _ (State.setRing_keeps _ _ _ ⟨rfl, rfl, rfl, rfl⟩ (State.ringOpen_keeps _ _ h)))

theorem State.ringCfg_keeps (s : State) (r : Nat) (v : Word) (hK : Keeps nv us ρ s) : Keeps nv us ρ (State.ringCfg s r v) := by
  simp +contextual (maxDischargeDepth := 60) only [State.ringCfg, keeps_ite, State.raise_keeps, State.ringDisable_keeps, State.ringEnable_keeps, State.setReg_keeps, hK]

theorem State.ringCfgWrite_keeps (s : State) (r : Nat) (base : Bool) (v : Word) (hK : Keeps nv us ρ s) : Keeps nv us ρ (State.ringCfgWrite s r base v) := by
  simp +contextual (maxDischargeDepth := 60) only [State.ringCfgWrite, keeps_ite, State.raise_keeps, State.ringCfg_keeps, State.setReg_keeps, hK]

theorem State.hostCommit_keeps (s : State) (r : Nat) (v : Word) (hK : Keeps nv us ρ s) : Keeps nv us ρ (State.hostCommit s r v) := by
  simp +contextual (maxDischargeDepth := 60) only [State.hostCommit, keeps_ite, State.raise_keeps, State.ringGather_keeps, hK]

theorem State.hostRelease_keeps (s : State) (r : Nat) (v : Word) (hK : Keeps nv us ρ s) : Keeps nv us ρ (State.hostRelease s r v) := by
  simp +contextual (maxDischargeDepth := 60) only [State.hostRelease, keeps_ite, and_self, State.raise_keeps, State.ringRetire_keeps, State.setRing_keeps, hK]

theorem State.setHostEntry_keeps (s : State) (e : BitVec 128) (hK : Keeps nv us ρ s) : Keeps nv us ρ (State.setHostEntry s e) := by
  simp +contextual (maxDischargeDepth := 60) only [State.setHostEntry, keeps_foldl, implies_true, State.hwUpdate_keeps, hK]

theorem State.xferWrite_keeps (s : State) (v : Word) (h : Keeps nv us ρ s) : Keeps nv us ρ (s.xferWrite v) := by
  unfold State.xferWrite
  extract_lets s1 r status p
  have h0 : Keeps nv us ρ s1 := State.setReg_keeps _ _ _ h
  have key : ∀ (u : State) (c : Nat), Keeps nv us ρ u → Keeps nv us ρ (status u c) := fun u c hu => State.setReg_keeps _ _ _ hu
  have hq := State.ringGather_keeps s1 r rankHost (.xfer s1.hostEntry) h0
  have hp := State.ringPop_keeps s1 r 0x20 h0
  clear_value p status s1 r
  with_reducible refine keeps_ite (key _ _ h0) (keeps_ite (keeps_ite (key _ _ h0) (key _ _ (keeps_ite hq h0)))
    (keeps_ite (keeps_ite (key _ _ h0) ?_) h0))
  generalize s1.ringPop r 0x20 = q at hp ⊢
  obtain ⟨_ | c, _ | e, u⟩ := q
  · exact key _ _ hp
  · exact key _ _ (State.setHostEntry_keeps _ _ hp)
  · exact key _ _ hp
  · exact key _ _ hp

theorem State.ringSnap_keeps (s : State) (v : Word) (hK : Keeps nv us ρ s) : Keeps nv us ρ (State.ringSnap s v) := by
  simp +contextual (maxDischargeDepth := 60) only [State.ringSnap, keeps_ite, State.noteTake_keeps, State.setReg_keeps, hK]

theorem State.takeRing_keeps (s : State) (r : Nat) (hK : Keeps nv us ρ s) : Keeps nv us ρ (State.takeRing s r) := by
  simp +contextual (maxDischargeDepth := 60) only [State.takeRing, State.setFld_keeps, State.setPair_keeps, State.setReg_keeps, hK]

theorem State.dueAct_keeps (s : State) (n : Nat) (a : DueAct) (hK : Keeps nv us ρ s) : Keeps nv us ρ (State.dueAct s n a) := by
  unfold State.dueAct
  repeat' split
  all_goals simp +contextual (maxDischargeDepth := 60) only [State.armCapture_keeps, State.ringGather_keeps, State.setBit_keeps, State.trainStop_keeps, hK]

theorem State.weirActs_keeps (s : State) (n : Nat) (hK : Keeps nv us ρ s) : Keeps nv us ρ (State.weirActs s n) := by
  simp +contextual (maxDischargeDepth := 60) only [State.weirActs, keeps_ite, keeps_foldl, implies_true, State.dueAct_keeps, State.setWeir_keeps, hK]

theorem State.pcFire_keeps (s : State) (j : Nat) (pos : BitVec 64) (st : Stamp) (hK : Keeps nv us ρ s) : Keeps nv us ρ (State.pcFire s j pos st) := by
  simp +contextual (maxDischargeDepth := 60) only [State.pcFire, keeps_ite, State.deliver_keeps, State.raise_keeps, State.ringGather_keeps, State.setBit_keeps, State.setPair_keeps, State.setPcmp_keeps, hK]

theorem State.pcMotion_keeps (s : State) (f : Nat) (p0 p1 : BitVec 64) (stampOf : BitVec 64 → Stamp) (hK : Keeps nv us ρ s) : Keeps nv us ρ (State.pcMotion s f p0 p1 stampOf) := by
  simp +contextual (maxDischargeDepth := 60) only [State.pcMotion, keeps_ite, keeps_foldBelow, implies_true, State.pcFire_keeps, hK]

theorem State.pcCorrected_keeps (s : State) (f : Nat) (p0 p1 : BitVec 64) (hK : Keeps nv us ρ s) : Keeps nv us ρ (State.pcCorrected s f p0 p1) := by
  simp +contextual (maxDischargeDepth := 60) only [State.pcCorrected, keeps_ite, keeps_foldBelow, implies_true, State.raise_keeps, hK]

theorem State.pcCtrlWrite_keeps (s : State) (j : Nat) (v : Word) (hK : Keeps nv us ρ s) : Keeps nv us ρ (State.pcCtrlWrite s j v) := by
  simp +contextual (maxDischargeDepth := 60) only [State.pcCtrlWrite, keeps_ite, State.noteTake_keeps, State.setBit_keeps, State.setPcmp_keeps, State.setReg_keeps, hK]

theorem State.pcDecide_keeps (s : State) (j : Nat) (hK : Keeps nv us ρ s) : Keeps nv us ρ (State.pcDecide s j) := by
  simp +contextual (maxDischargeDepth := 60) only [State.pcDecide, keeps_ite, State.raise_keeps, State.setPcmp_keeps, hK]

theorem State.pcImmediate_keeps (s : State) (j : Nat) (hK : Keeps nv us ρ s) : Keeps nv us ρ (State.pcImmediate s j) := by
  unfold State.pcImmediate
  repeat' split
  all_goals simp +contextual (maxDischargeDepth := 60) only [State.pcFire_keeps, State.raise_keeps, hK]

theorem State.pcShaftCrossing_keeps (s : State) (j : Nat) (hK : Keeps nv us ρ s) : Keeps nv us ρ (State.pcShaftCrossing s j) := by
  simp +contextual (maxDischargeDepth := 60) only [State.pcShaftCrossing, keeps_ite, State.pcFire_keeps, hK]

theorem State.pcTick_keeps (s : State) (j : Nat) (hK : Keeps nv us ρ s) : Keeps nv us ρ (State.pcTick s j) := by
  simp +contextual (maxDischargeDepth := 60) only [State.pcTick, keeps_ite, State.setPcmp_keeps, hK]

theorem State.cvOut_keeps (s : State) (i : Nat) (a b z : Bool) (hK : Keeps nv us ρ s) : Keeps nv us ρ (State.cvOut s i a b z) := by
  simp +contextual (maxDischargeDepth := 60) only [State.cvOut, keeps_ite, State.refreshPins_keeps, State.setCulvert_keeps, hK]

theorem State.cvLag_keeps (s : State) (i : Nat) (hK : Keeps nv us ρ s) : Keeps nv us ρ (State.cvLag s i) := by
  simp +contextual (maxDischargeDepth := 60) only [State.cvLag, keeps_ite, State.raise_keeps, State.satCount_keeps, State.setFld_keeps, hK]

theorem State.cvDrive_keeps (s : State) (i : Nat) (hK : Keeps nv us ρ s) : Keeps nv us ρ (State.cvDrive s i) := by
  simp +contextual (maxDischargeDepth := 60) only [State.cvDrive, State.cvOut_keeps, hK]

theorem State.cvSample_keeps (s : State) (f : Nat) (hK : Keeps nv us ρ s) : Keeps nv us ρ (State.cvSample s f) := by
  simp +contextual (maxDischargeDepth := 60) only [State.cvSample, keeps_ite, keeps_foldBelow, implies_true, State.cvDrive_keeps, State.cvLag_keeps, State.setCulvert_keeps, hK]

theorem State.cvRegen_keeps (s : State) (i : Nat) (hK : Keeps nv us ρ s) : Keeps nv us ρ (State.cvRegen s i) := by
  simp +contextual (maxDischargeDepth := 60) only [State.cvRegen, keeps_ite, State.cvDrive_keeps, State.cvLag_keeps, State.setCulvert_keeps, hK]

theorem State.cvSampleRaw_keeps (s : State) (i : Nat) (hK : Keeps nv us ρ s) : Keeps nv us ρ (State.cvSampleRaw s i) := by
  simp +contextual (maxDischargeDepth := 60) only [State.cvSampleRaw, keeps_ite, State.setCulvert_keeps, hK]

theorem State.cvRaw_keeps (s : State) (i : Nat) (a b z : Bool) (hK : Keeps nv us ρ s) : Keeps nv us ρ (State.cvRaw s i a b z) := by
  simp +contextual (maxDischargeDepth := 60) only [State.cvRaw, keeps_ite, State.cvSampleRaw_keeps, hK]

theorem State.cvTick_keeps (s : State) (i : Nat) (hK : Keeps nv us ρ s) : Keeps nv us ρ (State.cvTick s i) := by
  unfold State.cvTick
  repeat' split
  all_goals simp +contextual (maxDischargeDepth := 60) only [State.setCulvert_keeps, hK]

theorem State.padsBoundary_keeps (s : State) (hK : Keeps nv us ρ s) : Keeps nv us ρ (State.padsBoundary s) := by
  simp +contextual (maxDischargeDepth := 60) only [State.padsBoundary, keeps_ite, keeps_foldl, implies_true, keeps_foldBelow, State.cvTick_keeps, State.pinBoundary_keeps, State.refreshPins_keeps, hK]

theorem State.cvFollow_keeps (s : State) (f : Nat) (hK : Keeps nv us ρ s) : Keeps nv us ρ (State.cvFollow s f) := by
  simp +contextual (maxDischargeDepth := 60) only [State.cvFollow, keeps_ite, keeps_foldBelow, implies_true, State.cvDrive_keeps, hK]

theorem State.cvCtrlWrite_keeps (s : State) (i : Nat) (v : Word) (hK : Keeps nv us ρ s) : Keeps nv us ρ (State.cvCtrlWrite s i v) := by
  simp +contextual (maxDischargeDepth := 60) only [State.cvCtrlWrite, keeps_ite, State.cvDrive_keeps, State.cvLag_keeps, State.cvOut_keeps, State.setCulvert_keeps, State.setFld_keeps, State.setReg_keeps, hK]

theorem State.absCorrect_keeps (s : State) (f : Nat) (p : BitVec 64) (hK : Keeps nv us ρ s) : Keeps nv us ρ (State.absCorrect s f p) := by
  simp +contextual (maxDischargeDepth := 60) only [State.absCorrect, State.cvSample_keeps, State.pcCorrected_keeps, State.setIface_keeps, hK]

theorem State.refSet_keeps (s : State) (f : Nat) (hK : Keeps nv us ρ s) : Keeps nv us ρ (State.refSet s f) := by
  simp +contextual (maxDischargeDepth := 60) only [State.refSet, State.cvFollow_keeps, State.encoderValid_keeps, State.setBit_keeps, hK]

theorem State.refLose_keeps (s : State) (f : Nat) (hK : Keeps nv us ρ s) : Keeps nv us ρ (State.refLose s f) := by
  simp +contextual (maxDischargeDepth := 60) only [State.refLose, State.cvFollow_keeps, State.encoderLost_keeps, State.satCount_keeps, State.setBit_keeps, hK]

theorem State.countMove_keeps (s : State) (f : Nat) (d : Int) (st : Stamp) (prev : Option Stamp) (hK : Keeps nv us ρ s) : Keeps nv us ρ (State.countMove s f d st prev) := by
  unfold State.countMove
  repeat' split
  all_goals simp +contextual (maxDischargeDepth := 60) only [State.encoderMove_keeps, State.pcMotion_keeps, State.setBit_keeps, State.setIface_keeps, hK]

theorem State.setAtt_keeps (s : State) (f a : Nat) (hK : Keeps nv us ρ s) : Keeps nv us ρ (State.setAtt s f a) := by
  simp +contextual (maxDischargeDepth := 60) only [State.setAtt, keeps_ite, State.cvFollow_keeps, State.fbEvent_keeps, State.setBit_keeps, State.setFld_keeps, hK]

theorem State.attFault_keeps (s : State) (f : Nat) (hK : Keeps nv us ρ s) : Keeps nv us ρ (State.attFault s f) := by
  simp +contextual (maxDischargeDepth := 60) only [State.attFault, State.refLose_keeps, State.setAtt_keeps, State.setIface_keeps, hK]

theorem State.attDetach_keeps (s : State) (f : Nat) (hK : Keeps nv us ρ s) : Keeps nv us ρ (State.attDetach s f) := by
  simp +contextual (maxDischargeDepth := 60) only [State.attDetach, State.refLose_keeps, State.setAtt_keeps, State.setIface_keeps, hK]

theorem State.takeIndex_keeps (s : State) (f : Nat) (ai : BitVec 64) (hK : Keeps nv us ρ s) : Keeps nv us ρ (State.takeIndex s f ai) := by
  unfold State.takeIndex
  repeat' split
  all_goals simp +contextual (maxDischargeDepth := 60) only [keeps_ite, State.absCorrect_keeps, State.encoderIndex_keeps, State.fbEvent_keeps, State.raise_keeps, State.refLose_keeps, State.refSet_keeps, State.satCount_keeps, State.setIface_keeps, hK]

theorem State.indexTick_keeps (s : State) (f : Nat) (hK : Keeps nv us ρ s) : Keeps nv us ρ (State.indexTick s f) := by
  unfold State.indexTick
  repeat' split
  all_goals simp +contextual (maxDischargeDepth := 60) only [State.setIface_keeps, State.takeIndex_keeps, hK]

theorem State.indexInput_keeps (s : State) (f : Nat) (rising : Bool) (st : Stamp) (hK : Keeps nv us ρ s) : Keeps nv us ρ (State.indexInput s f rising st) := by
  unfold State.indexInput
  repeat' split
  all_goals simp +contextual (maxDischargeDepth := 60) only [keeps_ite, State.setIface_keeps, State.takeIndex_keeps, hK]

theorem State.quadNote_keeps (s : State) (i : Nat) (a b : Bool) (st : Stamp) (d : Int) (hK : Keeps nv us ρ s) : Keeps nv us ρ (State.quadNote s i a b st d) := by
  simp +contextual (maxDischargeDepth := 60) only [State.quadNote, State.setIface_keeps, hK]

theorem State.quadDecode_keeps (s : State) (i : Nat) (a b : Bool) (st : Stamp) (late : Bool) (hK : Keeps nv us ρ s) : Keeps nv us ρ (State.quadDecode s i a b st late) := by
  simp +contextual (maxDischargeDepth := 60) only [State.quadDecode, keeps_ite, State.countMove_keeps, State.quadNote_keeps, State.raiseIf_keeps, State.satCount_keeps, State.setIface_keeps, hK]

theorem State.resampleTake_keeps (s : State) (i : Nat) (hK : Keeps nv us ρ s) : Keeps nv us ρ (State.resampleTake s i) := by
  unfold State.resampleTake
  repeat' split
  all_goals simp +contextual (maxDischargeDepth := 60) only [State.quadDecode_keeps, State.setIface_keeps, hK]

theorem State.qencTick_keeps (s : State) (i : Nat) (hK : Keeps nv us ρ s) : Keeps nv us ρ (State.qencTick s i) := by
  unfold State.qencTick
  dsimp only
  repeat' first
    | exact hK
    | simp +contextual (maxDischargeDepth := 60) only [keeps_ite, State.setIface_keeps, hK]; done
    | split

theorem State.quadEdge_keeps (s : State) (i : Nat) (e : QuadEdge) (hK : Keeps nv us ρ s) : Keeps nv us ρ (State.quadEdge s i e) := by
  unfold State.quadEdge
  try dsimp only
  repeat' first
    | exact hK
    | simp +contextual (maxDischargeDepth := 60) only [keeps_ite, State.qencTick_keeps, State.quadDecode_keeps, State.satCount_keeps, State.setIface_keeps, hK]; done
    | split

theorem State.qencEdge_keeps (s : State) (i : Nat) (isB a b : Bool) (st : Stamp) (hK : Keeps nv us ρ s) : Keeps nv us ρ (State.qencEdge s i isB a b st) := by
  unfold State.qencEdge
  repeat' split
  all_goals simp +contextual (maxDischargeDepth := 60) only [keeps_ite, State.quadEdge_keeps, State.resampleTake_keeps, State.setIface_keeps, hK]

theorem State.qencResample_keeps (s : State) (i : Nat) (a b : Bool) (hK : Keeps nv us ρ s) : Keeps nv us ρ (State.qencResample s i a b) := by
  unfold State.qencResample
  try dsimp only
  repeat' first
    | exact hK
    | simp +contextual (maxDischargeDepth := 60) only [keeps_ite, State.resampleTake_keeps, hK]; done
    | split

theorem State.aencSample_keeps (s : State) (i : Nat) (s0 c0 : BitVec 12) (hK : Keeps nv us ρ s) : Keeps nv us ρ (State.aencSample s i s0 c0) := by
  simp +contextual (maxDischargeDepth := 60) only [State.aencSample, keeps_ite, State.setIface_keeps, hK]

theorem State.aencPhase_keeps (s : State) (i p : Nat) (st : Stamp) (hK : Keeps nv us ρ s) : Keeps nv us ρ (State.aencPhase s i p st) := by
  unfold State.aencPhase
  dsimp only
  repeat' first
    | exact hK
    | simp +contextual (maxDischargeDepth := 60) only [keeps_ite, State.attFault_keeps, State.countMove_keeps, State.raise_keeps, State.satCount_keeps, State.setIface_keeps, hK]; done
    | split

theorem State.aencAttach_keeps (s : State) (i p : Nat) (st : Stamp) (hK : Keeps nv us ρ s) : Keeps nv us ρ (State.aencAttach s i p st) := by
  simp +contextual (maxDischargeDepth := 60) only [State.aencAttach, keeps_ite, State.absCorrect_keeps, State.aencPhase_keeps, State.refSet_keeps, State.setAtt_keeps, State.setIface_keeps, hK]

theorem State.aencAmplitude_keeps (s : State) (i a2 : Nat) (hK : Keeps nv us ρ s) : Keeps nv us ρ (State.aencAmplitude s i a2).1 := by
  simp +contextual (maxDischargeDepth := 60) only [State.aencAmplitude, keeps_ite, keeps_ite1, State.attDetach_keeps, State.attFault_keeps, State.satCount_keeps, State.setIface_keeps, hK]

theorem State.aencProcess_keeps (s : State) (i : Nat) (hK : Keeps nv us ρ s) : Keeps nv us ρ (State.aencProcess s i) := by
  unfold State.aencProcess
  dsimp only
  repeat' first
    | exact hK
    | simp +contextual (maxDischargeDepth := 60) only [keeps_ite, State.aencAmplitude_keeps, State.aencAttach_keeps, State.aencPhase_keeps, State.cvSample_keeps, State.setIface_keeps, State.setReg_keeps, State.useFree_keeps, hK]; done
    | split

theorem State.ssiStart_keeps (s : State) (i : Nat) (idleHigh : Bool) (hK : Keeps nv us ρ s) : Keeps nv us ρ (State.ssiStart s i idleHigh) := by
  simp +contextual (maxDischargeDepth := 60) only [State.ssiStart, keeps_ite, State.setIface_keeps, hK]

theorem State.ssiTick_keeps (s : State) (i : Nat) (hK : Keeps nv us ρ s) : Keeps nv us ρ (State.ssiTick s i) := by
  simp +contextual (maxDischargeDepth := 60) only [State.ssiTick, keeps_ite, State.setIface_keeps, hK]

theorem State.ssiGood_keeps (s : State) (i : Nat) (turn : Nat) (abs : Int) (st : Stamp) (hK : Keeps nv us ρ s) : Keeps nv us ρ (State.ssiGood s i turn abs st) := by
  simp +contextual (maxDischargeDepth := 60) only [State.ssiGood, keeps_ite, State.absCorrect_keeps, State.countMove_keeps, State.refSet_keeps, State.setAtt_keeps, State.setIface_keeps, hK]

theorem State.ssiBad_keeps (s : State) (i check : Nat) (hK : Keeps nv us ρ s) : Keeps nv us ρ (State.ssiBad s i check) := by
  simp +contextual (maxDischargeDepth := 60) only [State.ssiBad, keeps_ite, State.attDetach_keeps, State.attFault_keeps, State.satCount_keeps, State.setIface_keeps, hK]

theorem State.ssiEnd_keeps (s : State) (i : Nat) (bits : BitVec 48) (endLow : Bool) (hK : Keeps nv us ρ s) : Keeps nv us ρ (State.ssiEnd s i bits endLow) := by
  unfold State.ssiEnd
  dsimp only
  repeat' first
    | exact hK
    | simp +contextual (maxDischargeDepth := 60) only [keeps_ite, State.setIface_keeps, State.setReg_keeps, State.ssiBad_keeps, State.ssiGood_keeps, hK]; done
    | split

theorem State.speedGateEnd_keeps (s : State) (f : Nat) (hK : Keeps nv us ρ s) : Keeps nv us ρ (State.speedGateEnd s f) := by
  simp +contextual (maxDischargeDepth := 60) only [State.speedGateEnd, keeps_ite, State.setFld_keeps, State.setIface_keeps, hK]

theorem State.speedTimeout_keeps (s : State) (f : Nat) (hK : Keeps nv us ρ s) : Keeps nv us ρ (State.speedTimeout s f) := by
  simp +contextual (maxDischargeDepth := 60) only [State.speedTimeout, keeps_ite, State.setIface_keeps, hK]

theorem State.posRead_keeps (s : State) (f : Nat) (hK : Keeps nv us ρ s) : Keeps nv us ρ (State.posRead s f).2 := by
  simp +contextual (maxDischargeDepth := 60) only [State.posRead, State.setPair_keeps, State.setReg_keeps, hK]

theorem State.fbStart_keeps (s : State) (f : Nat) (hK : Keeps nv us ρ s) : Keeps nv us ρ (State.fbStart s f) := by
  simp +contextual (maxDischargeDepth := 60) only [State.fbStart, keeps_ite, State.cvSample_keeps, State.pcCorrected_keeps, State.refSet_keeps, State.setAtt_keeps, State.setFld_keeps, State.setIface_keeps, hK]

theorem State.fbStop_keeps (s : State) (f : Nat) (hK : Keeps nv us ρ s) : Keeps nv us ρ (State.fbStop s f) := by
  simp +contextual (maxDischargeDepth := 60) only [State.fbStop, State.cvFollow_keeps, State.encoderLost_keeps, State.setAtt_keeps, State.setBit_keeps, State.setFld_keeps, State.setIface_keeps, hK]

theorem State.fbCfgWrite_keeps (s : State) (a : Nat) (v : Word) (hK : Keeps nv us ρ s) : Keeps nv us ρ (State.fbCfgWrite s a v) := by
  unfold State.fbCfgWrite
  dsimp only
  repeat' first
    | exact hK
    | simp +contextual (maxDischargeDepth := 60) only [keeps_ite, State.fbStart_keeps, State.fbStop_keeps, State.raise_keeps, State.setReg_keeps, hK]; done
    | split

theorem State.shWrite_keeps (s : State) (h off : Nat) (v : Word) (hK : Keeps nv us ρ s) : Keeps nv us ρ (State.shWrite s h off v) := by
  simp +contextual (maxDischargeDepth := 60) only [State.shWrite, State.shCtrlWrite_keeps, hK]

theorem State.adcReqWrite_keeps (s : State) (v : Word) (hK : Keeps nv us ρ s) : Keeps nv us ρ (State.adcReqWrite s v) := by
  simp +contextual (maxDischargeDepth := 60) only [State.adcReqWrite, State.adcRequest_keeps, hK]

theorem State.putConv_keeps (s : State) (c st : Nat) (v : Converter) (hK : Keeps nv us ρ s) : Keeps nv us ρ (State.putConv s c st v) := by
  simp +contextual (maxDischargeDepth := 60) only [State.putConv, State.setConv_keeps, State.setReg_keeps, hK]

theorem State.adcWake_keeps (s : State) (c : Nat) (v : Converter) (hK : Keeps nv us ρ s) : Keeps nv us ρ (State.adcWake s c v) := by
  unfold State.adcWake
  repeat' split
  all_goals simp +contextual (maxDischargeDepth := 60) only [State.putConv_keeps, hK]

theorem State.adcSpill_keeps (s : State) (which : Nat) (hK : Keeps nv us ρ s) : Keeps nv us ρ (State.adcSpill s which) := by
  simp +contextual (maxDischargeDepth := 60) only [State.adcSpill, keeps_mk, State.deliver_keeps, hK]

theorem State.adcIssue_keeps (s : State) (step : Word) (urgent : Bool) (hK : Keeps nv us ρ s) : Keeps nv us ρ (State.adcIssue s step urgent) := by
  simp +contextual (maxDischargeDepth := 60) only [State.adcIssue, keeps_mk, keeps_ite, State.adcSpill_keeps, State.adcWake_keeps, hK]

theorem State.adcTake_keeps (s : State) (q : AdcRequest) (hK : Keeps nv us ρ s) : Keeps nv us ρ (State.adcTake s q) := by
  simp +contextual (maxDischargeDepth := 60) only [State.adcTake, keeps_mk, keeps_ite, keeps_foldBelow, implies_true, State.adcIssue_keeps, hK]

theorem State.adcArrival_keeps (s : State) (hK : Keeps nv us ρ s) : Keeps nv us ρ (State.adcArrival s) := by
  unfold State.adcArrival
  repeat' split
  all_goals simp +contextual (maxDischargeDepth := 60) only [keeps_mk, State.adcTake_keeps, hK]

theorem State.adcAcquire_keeps (s : State) (c : Nat) (hK : Keeps nv us ρ s) : Keeps nv us ρ (State.adcAcquire s c) := by
  unfold State.adcAcquire
  dsimp only
  repeat' first
    | exact hK
    | simp +contextual (maxDischargeDepth := 60) only [State.putConv_keeps, hK]; done
    | split

theorem State.adcStartupEnd_keeps (s : State) (c : Nat) (hK : Keeps nv us ρ s) : Keeps nv us ρ (State.adcStartupEnd s c) := by
  simp +contextual (maxDischargeDepth := 60) only [State.adcStartupEnd, keeps_ite, State.adcAcquire_keeps, hK]

theorem State.adcAcqStart_keeps (s : State) (c : Nat) (hK : Keeps nv us ρ s) : Keeps nv us ρ (State.adcAcqStart s c) := by
  simp +contextual (maxDischargeDepth := 60) only [State.adcAcqStart, keeps_ite, State.adcAcquire_keeps, hK]

theorem State.adcHold_keeps (s : State) (c : Nat) (hK : Keeps nv us ρ s) : Keeps nv us ρ (State.adcHold s c) := by
  simp +contextual (maxDischargeDepth := 60) only [State.adcHold, keeps_ite, State.putConv_keeps, hK]

theorem State.accAdd_keeps (s : State) (k r : Nat) (alone : Bool) (hK : Keeps nv us ρ s) : Keeps nv us ρ (State.accAdd s k r alone).2 := by
  unfold State.accAdd
  try dsimp only
  repeat' first
    | exact hK
    | simp +contextual (maxDischargeDepth := 60) only [keeps_ite, State.deliver_keeps, State.raise_keeps, State.satCount_keeps, State.setAccum_keeps, State.setBit_keeps, hK]; done
    | split

theorem State.mmAdd_keeps (s : State) (k r : Nat) (h : Keeps nv us ρ s) : Keeps nv us ρ (s.mmAdd k r) :=
  keeps_mk (State.setReg_keeps _ _ _ h)

theorem State.openCheck_keeps (s : State) (x : Conv) (r : Nat) (hK : Keeps nv us ρ s) : Keeps nv us ρ (State.openCheck s x r) := by
  simp +contextual (maxDischargeDepth := 60) only [State.openCheck, keeps_ite, State.deliver_keeps, State.setBit_keeps, hK]

theorem State.adcDelivered_keeps (s : State) (hK : Keeps nv us ρ s) : Keeps nv us ρ (State.adcDelivered s) := by
  simp +contextual (maxDischargeDepth := 60) only [State.adcDelivered, keeps_mk, hK]

theorem State.accSink_keeps (s : State) (k r : Nat) (alone : Bool) (hK : Keeps nv us ρ s) : Keeps nv us ρ (State.accSink s k r alone) := by
  simp +contextual (maxDischargeDepth := 60) only [State.accSink, keeps_ite, State.accAdd_keeps, State.adcDelivered_keeps, State.adcSpill_keeps, hK]

theorem State.adcSink_keeps (s : State) (x : Conv) (r : Nat) (hK : Keeps nv us ρ s) : Keeps nv us ρ (State.adcSink s x r) := by
  simp +contextual (maxDischargeDepth := 60) only [State.adcSink, keeps_ite, State.accSink_keeps, State.adcDelivered_keeps, State.mmAdd_keeps, State.openCheck_keeps, hK]

theorem State.adcDeliver_keeps (s : State) (c : Nat) (raw : BitVec 12) (hK : Keeps nv us ρ s) : Keeps nv us ρ (State.adcDeliver s c raw) := by
  unfold State.adcDeliver
  dsimp only
  repeat' first
    | exact hK
    | simp +contextual (maxDischargeDepth := 60) only [keeps_ite, State.adcSink_keeps, State.putConv_keeps, State.satCount_keeps, hK]; done
    | split

theorem State.adcIdleOff_keeps (s : State) (c : Nat) (hK : Keeps nv us ρ s) : Keeps nv us ρ (State.adcIdleOff s c) := by
  simp +contextual (maxDischargeDepth := 60) only [State.adcIdleOff, keeps_ite, State.putConv_keeps, hK]

theorem State.accForget_keeps (s : State) (k : Nat) (p : Tick → Bool) (hits : List AccHit) (hK : Keeps nv us ρ s) : Keeps nv us ρ (State.accForget s k p hits) := by
  simp +contextual (maxDischargeDepth := 60) only [State.accForget, keeps_mk, keeps_ite, keeps_foldl, implies_true, State.dropEvent_keeps, State.undoHw_keeps, hK]

theorem State.accClear_keeps (s : State) (k : Nat) (p : Tick → Bool) (h : Keeps nv us ρ s) : Keeps nv us ρ (s.accClear k p) := by
  unfold State.accClear
  dsimp only
  exact State.setAccum_keeps _ _ _ (keeps_foldl (fun s h hs => State.accSink_keeps _ _ _ _ hs) _ _ (State.setBit_keeps _ _ _ _
    (State.setAccum_keeps _ _ _ (keeps_ite h (State.accForget_keeps _ _ _ _ h)))))

theorem State.accRead_keeps (s : State) (k : Nat) (clear : Bool) (hK : Keeps nv us ρ s) : Keeps nv us ρ (State.accRead s k clear).2 := by
  simp +contextual (maxDischargeDepth := 60) only [State.accRead, keeps_ite, State.accClear_keeps, State.setReg_keeps, hK]

theorem State.mmReset_keeps (s : State) (k : Nat) (p : Tick → Bool) (h : Keeps nv us ρ s) : Keeps nv us ρ (s.mmReset k p).2 :=
  keeps_mk (State.setReg_keeps _ _ _ h)

theorem State.accCfgWrite_keeps (s : State) (k : Nat) (v : Word) (hK : Keeps nv us ρ s) : Keeps nv us ρ (State.accCfgWrite s k v) := by
  simp +contextual (maxDischargeDepth := 60) only [State.accCfgWrite, State.setAccum_keeps, State.setReg_keeps, hK]

theorem State.adcSnap_keeps (s : State) (v : Word) (hK : Keeps nv us ρ s) : Keeps nv us ρ (State.adcSnap s v) := by
  simp +contextual (maxDischargeDepth := 60) only [State.adcSnap, keeps_ite, State.noteTake_keeps, hK]

theorem State.takeAdc_keeps (s : State) (hK : Keeps nv us ρ s) : Keeps nv us ρ (State.takeAdc s) := by
  simp +contextual (maxDischargeDepth := 60) only [State.takeAdc, State.setFld_keeps, State.setPair_keeps, State.setReg_keeps, hK]

theorem State.adcCfgWrite_keeps (s : State) (a : Nat) (v : Word) (hK : Keeps nv us ρ s) : Keeps nv us ρ (State.adcCfgWrite s a v) := by
  simp +contextual (maxDischargeDepth := 60) only [State.adcCfgWrite, State.setNext_keeps, hK]

theorem State.setThStamp_keeps (s : State) (n t : Nat) (v : Stamp) (hK : Keeps nv us ρ s) : Keeps nv us ρ (State.setThStamp s n t v) := by
  simp +contextual (maxDischargeDepth := 60) only [State.setThStamp, State.setRw_keeps, hK]

theorem State.setG_keeps (s : State) (n t i : Nat) (v : Word) (hK : Keeps nv us ρ s) : Keeps nv us ρ (State.setG s n t i v) := by
  simp +contextual (maxDischargeDepth := 60) only [State.setG, State.setRw_keeps, hK]

theorem State.setThPc_keeps (s : State) (n t pc : Nat) (hK : Keeps nv us ρ s) : Keeps nv us ρ (State.setThPc s n t pc) := by
  simp +contextual (maxDischargeDepth := 60) only [State.setThPc, State.setRw_keeps, hK]

theorem State.setThState_keeps (s : State) (n t st kind : Nat) (hK : Keeps nv us ρ s) : Keeps nv us ρ (State.setThState s n t st kind) := by
  simp +contextual (maxDischargeDepth := 60) only [State.setThState, State.setReg_keeps, hK]

theorem State.setRunning_keeps (s : State) (n : Nat) (t : Option Nat) (hK : Keeps nv us ρ s) : Keeps nv us ρ (State.setRunning s n t) := by
  simp +contextual (maxDischargeDepth := 60) only [State.setRunning, State.setReg_keeps, hK]

theorem State.runCycles_keeps (s : State) (n t k : Nat) (hK : Keeps nv us ρ s) : Keeps nv us ρ (State.runCycles s n t k) := by
  simp +contextual (maxDischargeDepth := 60) only [State.runCycles, State.setEngine_keeps, State.setReg_keeps, hK]

theorem State.notePoll_keeps (s : State) (n : Nat) (hK : Keeps nv us ρ s) : Keeps nv us ρ (State.notePoll s n) := by
  simp +contextual (maxDischargeDepth := 60) only [State.notePoll, keeps_ite, State.noteHw_keeps, State.setEngine_keeps, State.setReg_keeps, hK]

theorem State.switchTo_keeps (s : State) (n t : Nat) (hK : Keeps nv us ρ s) : Keeps nv us ρ (State.switchTo s n t) := by
  simp +contextual (maxDischargeDepth := 60) only [State.switchTo, State.count_keeps, State.setEngine_keeps, hK]

theorem State.engineTick_keeps (s : State) (n : Nat) (hK : Keeps nv us ρ s) : Keeps nv us ρ (State.engineTick s n) := by
  unfold State.engineTick
  repeat' split
  all_goals simp +contextual (maxDischargeDepth := 60) only [State.switchTo_keeps, hK]

theorem State.engineBegin_keeps (s : State) (n : Nat) (hK : Keeps nv us ρ s) : Keeps nv us ρ (State.engineBegin s n) := by
  unfold State.engineBegin
  repeat' split
  all_goals simp +contextual (maxDischargeDepth := 60) only [keeps_ite, State.runCycles_keeps, State.setEngine_keeps, State.setRunning_keeps, State.setThState_keeps, State.setThread_keeps, hK]

theorem State.leaveEngine_keeps (s : State) (n t st kind : Nat) (hK : Keeps nv us ρ s) : Keeps nv us ρ (State.leaveEngine s n t st kind) := by
  simp +contextual (maxDischargeDepth := 60) only [State.leaveEngine, State.setRunning_keeps, State.setThState_keeps, hK]

theorem State.makeReady_keeps (s : State) (n t : Nat) (hK : Keeps nv us ρ s) : Keeps nv us ρ (State.makeReady s n t) := by
  simp +contextual (maxDischargeDepth := 60) only [State.makeReady, State.setThState_keeps, hK]

theorem State.faultThread_keeps (s : State) (n t code : Nat) (info : Word) (hK : Keeps nv us ρ s) : Keeps nv us ρ (State.faultThread s n t code info) := by
  simp +contextual (maxDischargeDepth := 60) only [State.faultThread, keeps_ite, State.leaveEngine_keeps, State.runCycles_keeps, State.setFld_keeps, State.setReg_keeps, State.setThState_keeps, State.setThread_keeps, State.threadFaultEvent_keeps, State.useFree_keeps, hK]

theorem State.microStep_keeps (s : State) (n t : Nat) (a : BitVec 12) (hK : Keeps nv us ρ s) : Keeps nv us ρ (State.microStep s n t a) := by
  simp +contextual (maxDischargeDepth := 60) only [State.microStep, State.runCycles_keeps, State.setEngine_keeps, State.setThread_keeps, hK]

theorem State.trap_keeps (s : State) (n : Nat) (hK : Keeps nv us ρ s) : Keeps nv us ρ (State.trap s n) := by
  unfold State.trap
  repeat' split
  all_goals simp +contextual (maxDischargeDepth := 60) only [State.faultThread_keeps, State.useFree_keeps, hK]

theorem State.poll_keeps (s : State) (n : Nat) (hK : Keeps nv us ρ s) : Keeps nv us ρ (State.poll s n) := by
  unfold State.poll
  repeat' split
  all_goals simp +contextual (maxDischargeDepth := 60) only [keeps_ite, State.leaveEngine_keeps, State.microStep_keeps, State.notePoll_keeps, State.setEngine_keeps, State.setThread_keeps, hK]

theorem State.microBranch_keeps (s : State) (n : Nat) (cond : Bool) (hK : Keeps nv us ρ s) : Keeps nv us ρ (State.microBranch s n cond) := by
  unfold State.microBranch
  repeat' split
  all_goals simp +contextual (maxDischargeDepth := 60) only [keeps_ite, State.microStep_keeps, hK]

theorem State.ustoreParity_keeps (s : State) (n t : Nat) (hK : Keeps nv us ρ s) : Keeps nv us ρ (State.ustoreParity s n t) := by
  simp +contextual (maxDischargeDepth := 60) only [State.ustoreParity, State.faultThread_keeps, State.setReg_keeps, State.useFree_keeps, State.ustoreEvent_keeps, hK]

theorem State.datapathMicroword_keeps (s : State) (n : Nat) (parityError : Bool) (hK : Keeps nv us ρ s) : Keeps nv us ρ (State.datapathMicroword s n parityError) := by
  unfold State.datapathMicroword
  repeat' split
  all_goals simp +contextual (maxDischargeDepth := 60) only [keeps_ite, State.microStep_keeps, State.ustoreParity_keeps, hK]

theorem State.noteWaits_keeps (s : State) (h : Keeps nv us ρ s) : Keeps nv us ρ s.noteWaits := by
  unfold State.noteWaits
  refine keeps_foldl (fun s e hs => keeps_ite hs ?_) _ _ h
  split
  · exact State.setThread_keeps _ _ _ _ hs
  · exact hs

theorem State.setSt_keeps (s : State) (n t st : Nat) (hK : Keeps nv us ρ s) : Keeps nv us ρ (State.setSt s n t st) := by
  simp +contextual (maxDischargeDepth := 60) only [State.setSt, State.setRw_keeps, hK]

theorem State.threadReady_keeps (s : State) (n t : Nat) (hK : Keeps nv us ρ s) : Keeps nv us ρ (State.threadReady s n t) := by
  unfold State.threadReady
  dsimp only
  repeat' first
    | exact hK
    | simp +contextual (maxDischargeDepth := 60) only [State.makeReady_keeps, State.setSt_keeps, State.setThPc_keeps, State.setThread_keeps, hK]; done
    | split

theorem State.resStore_keeps (s : State) (addr sz v : Nat) (hK : Keeps nv us ρ s) : Keeps nv us ρ (State.resStore s addr sz v).2 := by
  simp +contextual (maxDischargeDepth := 60) only [State.resStore, keeps_ite2, State.resWrite_keeps, State.resWriteWords_keeps, State.setResvUe_keeps, hK]

theorem State.loadTo_keeps (s : State) (n t sz d : Nat) (v : Nat) (hK : Keeps nv us ρ s) : Keeps nv us ρ (State.loadTo s n t sz d v) := by
  simp +contextual (maxDischargeDepth := 60) only [State.loadTo, keeps_ite, State.setG_keeps, hK]

theorem State.doAccess_keeps (s : State) (n t kind sz addr d : Nat) (hK : Keeps nv us ρ s) : Keeps nv us ρ (State.doAccess s n t kind sz addr d).2 := by
  unfold State.doAccess
  repeat' split
  all_goals simp +contextual (maxDischargeDepth := 60) only [keeps_ite2, State.loadTo_keeps, State.resStore_keeps, State.resWrite_keeps, State.setG_keeps, State.setResvUe_keeps, hK]

theorem State.accessComplete_keeps (s : State) (n t : Nat) (hK : Keeps nv us ρ s) : Keeps nv us ρ (State.accessComplete s n t) := by
  unfold State.accessComplete
  dsimp only
  repeat' first
    | exact hK
    | simp +contextual (maxDischargeDepth := 60) only [keeps_ite, State.doAccess_keeps, State.faultThread_keeps, State.setThPc_keeps, State.setThState_keeps, State.setThread_keeps, hK]; done
    | split

theorem State.stopThread_keeps (s : State) (n t : Nat) (hK : Keeps nv us ρ s) : Keeps nv us ρ (State.stopThread s n t) := by
  unfold State.stopThread
  try dsimp only
  repeat' first
    | exact hK
    | simp +contextual (maxDischargeDepth := 60) only [keeps_ite, State.doAccess_keeps, State.dropSwitch_keeps, State.resWrite_keeps, State.setResvUe_keeps, State.setRunning_keeps, State.setThState_keeps, State.setThread_keeps, hK]; done
    | split

theorem State.ramWrite_keeps (s : State) (n a v bytes : Nat) (h : Keeps nv us ρ s) : Keeps nv us ρ (s.ramWrite n a v bytes) :=
  keeps_localRam _ (Memory.wf_write _ _ _ _) h

theorem State.threadStart_keeps (s : State) (n t : Nat) (hK : Keeps nv us ρ s) : Keeps nv us ρ (State.threadStart s n t) := by
  simp +contextual (maxDischargeDepth := 60) only [State.threadStart, keeps_ite, State.makeReady_keeps, State.raise_keeps, State.setEngine_keeps, State.setThread_keeps, State.useFree_keeps, hK]

theorem State.threadHalt_keeps (s : State) (n t : Nat) (hK : Keeps nv us ρ s) : Keeps nv us ρ (State.threadHalt s n t) := by
  unfold State.threadHalt
  try dsimp only
  repeat' first
    | exact hK
    | simp +contextual (maxDischargeDepth := 60) only [keeps_ite, State.dropSwitch_keeps, State.setThState_keeps, State.setThread_keeps, hK]; done
    | split

theorem State.thCtrlWrite_keeps (s : State) (n t : Nat) (v : Word) (hK : Keeps nv us ρ s) : Keeps nv us ρ (State.thCtrlWrite s n t v) := by
  simp +contextual (maxDischargeDepth := 60) only [State.thCtrlWrite, keeps_ite, State.setFld_keeps, State.threadHalt_keeps, State.threadStart_keeps, hK]

theorem State.thContextWrite_keeps (s : State) (n t off : Nat) (v : Word) (hK : Keeps nv us ρ s) : Keeps nv us ρ (State.thContextWrite s n t off v) := by
  unfold State.thContextWrite
  repeat' split
  all_goals simp +contextual (maxDischargeDepth := 60) only [State.raise_keeps, State.setReg_keeps, hK]

theorem State.portEvent_keeps (s : State) (p : Nat) (hK : Keeps nv us ρ s) : Keeps nv us ρ (State.portEvent s p) := by
  simp +contextual (maxDischargeDepth := 60) only [State.portEvent, State.sysEvent_keeps, hK]

theorem State.sendFrame_keeps (s : State) (p : Nat) (cls : TxClass) (f : Frame) (hK : Keeps nv us ρ s) : Keeps nv us ρ (State.sendFrame s p cls f) := by
  simp +contextual (maxDischargeDepth := 60) only [State.sendFrame, State.setPort_keeps, hK]

theorem State.frameLeft_keeps (s : State) (p : Nat) (f : Frame) (hK : Keeps nv us ρ s) : Keeps nv us ρ (s.frameLeft p f) := by
  cases f <;> simp +contextual (maxDischargeDepth := 60) only [State.frameLeft, State.sendFrame_keeps, State.setPort_keeps, hK]

theorem State.portSend_keeps (s : State) (p : Nat) (hK : Keeps nv us ρ s) : Keeps nv us ρ (State.portSend s p) := by
  unfold State.portSend
  try dsimp only
  repeat' first
    | exact hK
    | simp +contextual (maxDischargeDepth := 60) only [keeps_ite, State.frameLeft_keeps, State.send_keeps, State.setPort_keeps, hK]; done
    | split

theorem State.sendTo_keeps (s : State) (p : Nat) (mac : BitVec 48) (d : Datagram) (hK : Keeps nv us ρ s) : Keeps nv us ρ (State.sendTo s p mac d) := by
  simp +contextual (maxDischargeDepth := 60) only [State.sendTo, State.sendFrame_keeps, hK]

theorem State.sendOnLink_keeps (s : State) (p : Nat) (d : Datagram) (hK : Keeps nv us ρ s) : Keeps nv us ρ (State.sendOnLink s p d) := by
  unfold State.sendOnLink
  try dsimp only
  repeat' first
    | exact hK
    | simp +contextual (maxDischargeDepth := 60) only [keeps_ite, State.sendFrame_keeps, State.sendTo_keeps, State.setPort_keeps, hK]; done
    | split

theorem State.sendUdp_keeps (s : State) (p : Nat) (cls : TxClass) (ip : Word) (port : BitVec 16) (ws : List Word) (hK : Keeps nv us ρ s) : Keeps nv us ρ (State.sendUdp s p cls ip port ws) := by
  simp +contextual (maxDischargeDepth := 60) only [State.sendUdp, keeps_ite, State.sendOnLink_keeps, State.sendTo_keeps, hK]

theorem State.setLink_keeps (s : State) (p : Nat) (up : Bool) (hK : Keeps nv us ρ s) : Keeps nv us ρ (State.setLink s p up) := by
  simp +contextual (maxDischargeDepth := 60) only [State.setLink, keeps_ite, State.portEvent_keeps, State.raise_keeps, State.sendFrame_keeps, State.setBit_keeps, State.setPort_keeps, hK]

theorem State.linkChange_keeps (s : State) (p : Nat) (up : Bool) (hK : Keeps nv us ρ s) : Keeps nv us ρ (State.linkChange s p up) := by
  simp +contextual (maxDischargeDepth := 60) only [State.linkChange, keeps_ite, State.setLink_keeps, hK]

theorem State.portCtrlWrite_keeps (s : State) (p off : Nat) (v : Word) (hK : Keeps nv us ρ s) : Keeps nv us ρ (State.portCtrlWrite s p off v) := by
  simp +contextual (maxDischargeDepth := 60) only [State.portCtrlWrite, keeps_ite, State.plainWrite_keeps, State.raise_keeps, State.setLink_keeps, State.setReg_keeps, hK]

theorem State.rxDiscard_keeps (s : State) (p : Nat) (hK : Keeps nv us ρ s) : Keeps nv us ρ (State.rxDiscard s p) := by
  simp +contextual (maxDischargeDepth := 60) only [State.rxDiscard, State.satCount_keeps, hK]

theorem State.receive_keeps (s : State) (p : Nat) (f : RxFrame) (ip : Bool) (g : State → State) (h : Keeps nv us ρ s)
    (hg : ∀ s, Keeps nv us ρ s → Keeps nv us ρ (g s)) : Keeps nv us ρ (s.receive p f ip g) := by
  unfold State.receive
  exact keeps_ite h (keeps_ite (State.rxDiscard_keeps _ _ h) (keeps_ite h (keeps_ite (State.rxDiscard_keeps _ _ h) (hg s h))))

theorem State.receiveUdp_keeps (s : State) (p : Nat) (f : RxFrame) (own : Nat) (g : State → State) (h : Keeps nv us ρ s)
    (hg : ∀ s, Keeps nv us ρ s → Keeps nv us ρ (g s)) : Keeps nv us ρ (s.receiveUdp p f own g) :=
  State.receive_keeps _ _ _ _ _ h (fun u hu => keeps_ite (State.rxDiscard_keeps _ _ hu) (keeps_ite (hg u hu) hu))

theorem State.resolved_keeps (s : State) (p : Nat) (ip : Word) (mac : BitVec 48) (hK : Keeps nv us ρ s) : Keeps nv us ρ (State.resolved s p ip mac) := by
  simp +contextual (maxDischargeDepth := 60) only [State.resolved, keeps_foldl, implies_true, State.sendTo_keeps, State.setPort_keeps, hK]

theorem State.arpPacket_keeps (s : State) (p : Nat) (f : RxFrame) (reply : Bool) (target ip : Word) (mac : BitVec 48) (hK : Keeps nv us ρ s) :
    Keeps nv us ρ (s.arpPacket p f reply target ip mac) :=
  State.receive_keeps _ _ _ _ _ hK (fun _ hu => keeps_ite (keeps_ite (State.resolved_keeps _ _ _ _ hu)
    (State.resolved_keeps _ _ _ _ (State.sendFrame_keeps _ _ _ _ hu))) (State.rxDiscard_keeps _ _ hu))

theorem State.icmpEcho_keeps (s : State) (p : Nat) (f : RxFrame) (target ip : Word) (body : List Byte) (hK : Keeps nv us ρ s) :
    Keeps nv us ρ (s.icmpEcho p f target ip body) :=
  State.receive_keeps _ _ _ _ _ hK (fun _ hu => keeps_ite (State.sendFrame_keeps _ _ _ _ hu) (State.rxDiscard_keeps _ _ hu))

theorem State.setRole_keeps (s : State) (p r : Nat) (hK : Keeps nv us ρ s) : Keeps nv us ρ (State.setRole s p r) := by
  simp +contextual (maxDischargeDepth := 60) only [State.setRole, State.setFld_keeps, hK]

theorem State.setTsState_keeps (s : State) (st : Nat) (hK : Keeps nv us ρ s) : Keeps nv us ρ (State.setTsState s st) := by
  simp +contextual (maxDischargeDepth := 60) only [State.setTsState, keeps_ite, State.portEvent_keeps, State.setFld_keeps, hK]

theorem State.ntStep_keeps (s : State) (offset : Int) (hK : Keeps nv us ρ s) : Keeps nv us ρ (State.ntStep s offset) := by
  simp +contextual (maxDischargeDepth := 60) only [State.ntStep, State.raise_keeps, State.satCount_keeps, State.setPair_keeps, hK]

theorem State.setTrim_keeps (s : State) (v : Int) (hK : Keeps nv us ρ s) : Keeps nv us ρ (State.setTrim s v) := by
  simp +contextual (maxDischargeDepth := 60) only [State.setTrim, keeps_mk, State.setReg_keeps, hK]

theorem State.trimAdjust_keeps (s : State) (hK : Keeps nv us ρ s) : Keeps nv us ρ (State.trimAdjust s) := by
  simp +contextual (maxDischargeDepth := 60) only [State.trimAdjust, State.setTrim_keeps, State.useFree_keeps, hK]

theorem State.trimSlew_keeps (s : State) (hK : Keeps nv us ρ s) : Keeps nv us ρ (State.trimSlew s) := by
  simp +contextual (maxDischargeDepth := 60) only [State.trimSlew, keeps_ite, State.setTrim_keeps, State.useFree_keeps, hK]

theorem State.acquireStep_keeps (s : State) (off : Int) (hK : Keeps nv us ρ s) : Keeps nv us ρ (State.acquireStep s off) := by
  simp +contextual (maxDischargeDepth := 60) only [State.acquireStep, keeps_mk, State.ntStep_keeps, hK]

theorem State.servo_keeps (s : State) (off : Int) (hK : Keeps nv us ρ s) : Keeps nv us ρ (State.servo s off) := by
  unfold State.servo
  repeat' split
  all_goals simp +contextual (maxDischargeDepth := 60) only [keeps_mk, keeps_ite, State.acquireStep_keeps, State.setTsState_keeps, State.trimAdjust_keeps, hK]

theorem State.ptpSync_keeps (s : State) (p : Nat) (origin : PtpTime) (correction : BitVec 32) (hK : Keeps nv us ρ s) : Keeps nv us ρ (State.ptpSync s p origin correction) := by
  simp +contextual (maxDischargeDepth := 60) only [State.ptpSync, keeps_mk, keeps_ite, State.servo_keeps, State.setReg_keeps, hK]

theorem State.gptpSync_keeps (s : State) (p : Nat) (f : RxFrame) (m : PtpMessage) (correction : BitVec 32) (hK : Keeps nv us ρ s) :
    Keeps nv us ρ (s.gptpSync p f m correction) := by
  refine State.receive_keeps _ _ _ _ _ hK (fun u hu => keeps_ite hu ?_)
  cases m
  · exact State.ptpSync_keeps _ _ _ _ hu
  · exact State.sendFrame_keeps _ _ _ _ hu
  · exact State.ptpDelay_keeps _ _ _ _ _ hu

theorem State.syncTimeout_keeps (s : State) (hK : Keeps nv us ρ s) : Keeps nv us ρ (State.syncTimeout s) := by
  simp +contextual (maxDischargeDepth := 60) only [State.syncTimeout, keeps_ite, State.setTsState_keeps, hK]

theorem State.becomeGrandmaster_keeps (s : State) (hK : Keeps nv us ρ s) : Keeps nv us ρ (State.becomeGrandmaster s) := by
  simp +contextual (maxDischargeDepth := 60) only [State.becomeGrandmaster, keeps_ite, keeps_foldBelow, implies_true, State.setPair_keeps, State.setRole_keeps, State.setTsState_keeps, hK]

theorem State.bmcaGrandmaster_keeps (s : State) (hK : Keeps nv us ρ s) : Keeps nv us ρ (State.bmcaGrandmaster s) := by
  simp +contextual (maxDischargeDepth := 60) only [State.bmcaGrandmaster, keeps_ite, State.becomeGrandmaster_keeps, hK]

theorem State.followPort_keeps (s : State) (p : Nat) (v : PriorityVector) (hK : Keeps nv us ρ s) : Keeps nv us ρ (State.followPort s p v) := by
  simp +contextual (maxDischargeDepth := 60) only [State.followPort, keeps_mk, keeps_ite, State.setFld_keeps, State.setPair_keeps, State.setRole_keeps, State.setTsState_keeps, hK]

theorem State.gptpAnnounce_keeps (s : State) (p : Nat) (f : RxFrame) (v : PriorityVector) (h : Keeps nv us ρ s) :
    Keeps nv us ρ (s.gptpAnnounce p f v) := by
  refine State.receive_keeps _ _ _ _ _ h (fun u hu => keeps_ite hu ?_)
  have h1 := State.setPort_keeps u p { u.port p with announced := some (u.mt, v) } hu
  dsimp only
  refine keeps_ite (State.becomeGrandmaster_keeps _ h1) ?_
  split
  · exact State.followPort_keeps _ _ _ h1
  · exact h1

theorem State.sendSync_keeps (s : State) (p : Nat) (hK : Keeps nv us ρ s) : Keeps nv us ρ (State.sendSync s p) := by
  simp +contextual (maxDischargeDepth := 60) only [State.sendSync, State.sendFrame_keeps, State.setPort_keeps, hK]

theorem State.sendAnnounce_keeps (s : State) (p : Nat) (hK : Keeps nv us ρ s) : Keeps nv us ρ (State.sendAnnounce s p) := by
  simp +contextual (maxDischargeDepth := 60) only [State.sendAnnounce, State.sendFrame_keeps, State.setPort_keeps, hK]

theorem State.gptpSyncSend_keeps (s : State) (p : Nat) (hK : Keeps nv us ρ s) : Keeps nv us ρ (State.gptpSyncSend s p) := by
  simp +contextual (maxDischargeDepth := 60) only [State.gptpSyncSend, keeps_ite, State.sendAnnounce_keeps, State.sendFrame_keeps, State.sendSync_keeps, State.setPort_keeps, hK]

theorem State.tsCtrlWrite_keeps (s : State) (v : Word) (hK : Keeps nv us ρ s) : Keeps nv us ρ (State.tsCtrlWrite s v) := by
  simp +contextual (maxDischargeDepth := 60) only [State.tsCtrlWrite, keeps_ite, State.plainWrite_keeps, State.setRole_keeps, State.setTsState_keeps, hK]

theorem State.tsSnap_keeps (s : State) (v : Word) (hK : Keeps nv us ρ s) : Keeps nv us ρ (State.tsSnap s v) := by
  simp +contextual (maxDischargeDepth := 60) only [State.tsSnap, keeps_ite, State.setPair_keeps, hK]

theorem State.peerChange_keeps (s : State) (p : Nat) (hK : Keeps nv us ρ s) : Keeps nv us ρ (State.peerChange s p) := by
  simp +contextual (maxDischargeDepth := 60) only [State.peerChange, State.portEvent_keeps, State.raise_keeps, hK]

theorem State.clearPeer_keeps (s : State) (p e : Nat) (hK : Keeps nv us ρ s) : Keeps nv us ρ (State.clearPeer s p e) := by
  simp +contextual (maxDischargeDepth := 60) only [State.clearPeer, keeps_foldBelow, implies_true, State.setPort_keeps, State.setReg_keeps, hK]

theorem State.freePeer_keeps (s : State) (p e : Nat) (hK : Keeps nv us ρ s) : Keeps nv us ρ (State.freePeer s p e) := by
  simp +contextual (maxDischargeDepth := 60) only [State.freePeer, keeps_ite, State.clearPeer_keeps, hK]

theorem State.closeSession_keeps (s : State) (p e : Nat) (hK : Keeps nv us ρ s) : Keeps nv us ρ (State.closeSession s p e) := by
  simp +contextual (maxDischargeDepth := 60) only [State.closeSession, State.setBit_keeps, State.setFld_keeps, hK]

theorem State.notePeer_keeps (s : State) (p e : Nat) (w : Nat → Word) (hK : Keeps nv us ρ s) : Keeps nv us ρ (State.notePeer s p e w) := by
  simp +contextual (maxDischargeDepth := 60) only [State.notePeer, State.setPort_keeps, State.setReg_keeps, hK]

theorem State.newPeer_keeps (s : State) (p : Nat) (ip : Word) (udp : BitVec 16) (flag : Nat) (e : Nat) (t : State)
    (ht : s.newPeer p ip udp flag = some (e, t)) (h : Keeps nv us ρ s) : Keeps nv us ρ t := by
  unfold State.newPeer at ht
  split at ht
  · cases ht
    exact State.setReg_keeps _ _ _ (State.setReg_keeps _ _ _ (State.setBit_keeps _ _ _ _ (State.clearPeer_keeps _ _ _ h)))
  · cases ht

theorem State.discoverIn_keeps (s : State) (p : Nat) (ip : Word) (udp : BitVec 16) (bytes : List Byte) (h : Keeps nv us ρ s) :
    Keeps nv us ρ (s.discoverIn p ip udp bytes) := by
  unfold State.discoverIn
  split
  · exact State.satCount_keeps _ _ h
  · refine keeps_ite (State.satCount_keeps _ _ h) (keeps_ite h ?_)
    split
    · refine keeps_ite ?_ ?_
      · split
        · rename_i heq
          exact State.peerChange_keeps _ _ (State.satCount_keeps _ _ (State.notePeer_keeps _ _ _ _ (State.newPeer_keeps _ _ _ _ _ _ _ heq
            (State.peerChange_keeps _ _ (State.freePeer_keeps _ _ _ (State.closeSession_keeps _ _ _ h))))))
        · exact h
      · have h1 : ∀ (c : Prop) [Decidable c] (a b d : Nat), Keeps nv us ρ (if c then ((s.closeSession p a).satCount b).satCount d else s) :=
          fun c _ a b d => keeps_ite (State.satCount_keeps _ _ (State.satCount_keeps _ _ (State.closeSession_keeps _ _ _ h))) h
        exact keeps_ite (State.notePeer_keeps _ _ _ _ (h1 _ _ _ _)) (State.peerChange_keeps _ _ (State.notePeer_keeps _ _ _ _ (h1 _ _ _ _)))
    · split
      · rename_i heq
        exact State.peerChange_keeps _ _ (State.satCount_keeps _ _ (State.notePeer_keeps _ _ _ _ (State.newPeer_keeps _ _ _ _ _ _ _ heq h)))
      · exact State.satCount_keeps _ _ h

theorem State.discover_keeps (s : State) (p : Nat) (f : RxFrame) (ip : Word) (udp : BitVec 16) (bytes : List Byte) (h : Keeps nv us ρ s) :
    Keeps nv us ρ (s.discover p f ip udp bytes) :=
  State.receiveUdp_keeps _ _ _ _ _ h (fun _ hu => State.discoverIn_keeps _ _ _ _ _ hu)

theorem State.discoverSend_keeps (s : State) (p : Nat) (hK : Keeps nv us ρ s) : Keeps nv us ρ (State.discoverSend s p) := by
  simp +contextual (maxDischargeDepth := 60) only [State.discoverSend, keeps_ite, State.sendUdp_keeps, State.setPort_keeps, State.useFree_keeps, hK]

theorem State.peerAgeExpiry_keeps (s : State) (p e : Nat) (hK : Keeps nv us ρ s) : Keeps nv us ρ (State.peerAgeExpiry s p e) := by
  unfold State.peerAgeExpiry
  repeat' split
  all_goals simp +contextual (maxDischargeDepth := 60) only [State.freePeer_keeps, State.peerChange_keeps, State.satCount_keeps, State.setBit_keeps, hK]

theorem State.sessionIdleExpiry_keeps (s : State) (p e : Nat) (hK : Keeps nv us ρ s) : Keeps nv us ρ (State.sessionIdleExpiry s p e) := by
  unfold State.sessionIdleExpiry
  repeat' split
  all_goals simp +contextual (maxDischargeDepth := 60) only [keeps_ite, State.closeSession_keeps, State.freePeer_keeps, State.peerChange_keeps, hK]

theorem State.userRx_keeps (s : State) (p : Nat) (f : RxFrame) (bytes : List Byte) (hK : Keeps nv us ρ s) : Keeps nv us ρ (State.userRx s p f bytes) := by
  simp +contextual (maxDischargeDepth := 60) only [State.userRx, keeps_ite, implies_true, State.receiveUdp_keeps, State.ringGather_keeps, State.rxDiscard_keeps, hK]

theorem State.userTx_keeps (s : State) (p : Nat) (h : Keeps nv us ρ s) : Keeps nv us ρ (s.userTx p) := by
  unfold State.userTx
  refine keeps_ite ?_ h
  have hp := State.ringPop_keeps s (s.fld (Reg.USER_CFG p) 13 8) (0x21 + p) h
  split <;> rename_i heq <;> rw [heq] at hp
  · exact State.sendUdp_keeps _ _ _ _ _ _ hp
  · exact hp

theorem State.exportSample_keeps (s : State) (h : Nat) (hK : Keeps nv us ρ s) : Keeps nv us ρ (State.exportSample s h) := by
  simp +contextual (maxDischargeDepth := 60) only [State.exportSample, keeps_mk, keeps_ite, keeps_foldl, implies_true, State.count_keeps, State.satCount_keeps, State.sendUdp_keeps, State.setReg_keeps, hK]

theorem State.impWrite_keeps (s : State) (i off : Nat) (v : Word) (hK : Keeps nv us ρ s) : Keeps nv us ρ (State.impWrite s i off v) := by
  simp +contextual (maxDischargeDepth := 60) only [State.impWrite, keeps_ite, State.plainWrite_keeps, State.raise_keeps, hK]

theorem State.importReject_keeps (s : State) (i code : Nat) (hK : Keeps nv us ρ s) : Keeps nv us ρ (State.importReject s i code) := by
  simp +contextual (maxDischargeDepth := 60) only [State.importReject, State.satCount_keeps, State.setFld_keeps, hK]

theorem State.importDir_keeps (s : State) (h : Nat) (d : Bool) (hK : Keeps nv us ρ s) : Keeps nv us ρ (State.importDir s h d) := by
  simp +contextual (maxDischargeDepth := 60) only [State.importDir, keeps_ite, State.setBit_keeps, State.setShaft_keeps, State.swapFreeze_keeps, State.weirShaftDir_keeps, hK]

theorem State.importRestart_keeps (s : State) (h : Nat) (w : Nat → Word) (sl : Stamp) (hK : Keeps nv us ρ s) : Keeps nv us ρ (State.importRestart s h w sl) := by
  simp +contextual (maxDischargeDepth := 60) only [State.importRestart, keeps_ite, State.importDir_keeps, State.setBit_keeps, State.setShaft_keeps, State.shaftEvent_keeps, State.swapFreeze_keeps, State.weirCycle_keeps, State.weirShaftStall_keeps, hK]

theorem State.importCandidate_keeps (s : State) (h : Nat) (w : Nat → Word) (sl : Stamp) (hK : Keeps nv us ρ s) : Keeps nv us ρ (State.importCandidate s h w sl) := by
  simp +contextual (maxDischargeDepth := 60) only [State.importCandidate, State.enterState_keeps, State.importRestart_keeps, State.setShaft_keeps, hK]

theorem State.importConfirm_keeps (s : State) (h : Nat) (w : Nat → Word) (sl : Stamp) (hK : Keeps nv us ρ s) : Keeps nv us ρ (State.importConfirm s h w sl) := by
  simp +contextual (maxDischargeDepth := 60) only [State.importConfirm, keeps_ite, State.enterState_keeps, State.importRestart_keeps, State.jump_keeps, State.reportEstimate_keeps, State.setShaft_keeps, State.shaftJumped_keeps, hK]

theorem State.importShaft_keeps (s : State) (h : Nat) (w : Nat → Word) (sl : Stamp) (follows : Bool) (hK : Keeps nv us ρ s) : Keeps nv us ρ (State.importShaft s h w sl follows) := by
  simp +contextual (maxDischargeDepth := 60) only [State.importShaft, keeps_ite, State.enterState_keeps, State.importCandidate_keeps, State.importConfirm_keeps, State.importLost_keeps, State.importRestart_keeps, hK]

theorem State.importAccept_keeps (s : State) (i : Nat) (w : Nat → Word) (sl : Stamp) (hK : Keeps nv us ρ s) : Keeps nv us ρ (State.importAccept s i w sl) := by
  simp +contextual (maxDischargeDepth := 60) only [State.importAccept, keeps_ite, keeps_foldl, implies_true, State.count_keeps, State.importShaft_keeps, State.satAdd_keeps, State.setBit_keeps, State.setFld_keeps, State.setPair_keeps, hK]

theorem State.importMessage_keeps (s : State) (i : Nat) (w : Nat → Word) (hK : Keeps nv us ρ s) : Keeps nv us ρ (State.importMessage s i w) := by
  simp +contextual (maxDischargeDepth := 60) only [State.importMessage, keeps_ite, keeps_foldl, implies_true, State.importAccept_keeps, State.importLost_keeps, State.importReject_keeps, State.satCount_keeps, State.setBit_keeps, hK]

theorem State.shaftExportIn_keeps (s : State) (p : Nat) (bytes : List Byte) (hK : Keeps nv us ρ s) : Keeps nv us ρ (State.shaftExportIn s p bytes) := by
  simp +contextual (maxDischargeDepth := 60) only [State.shaftExportIn, keeps_ite, keeps_foldBelow, implies_true, State.importMessage_keeps, State.satCount_keeps, hK]

theorem State.shaftExport_keeps (s : State) (p : Nat) (f : RxFrame) (bytes : List Byte) (hK : Keeps nv us ρ s) : Keeps nv us ρ (State.shaftExport s p f bytes) := by
  simp +contextual (maxDischargeDepth := 60) only [State.shaftExport, implies_true, State.receiveUdp_keeps, State.shaftExportIn_keeps, hK]

theorem State.importTimeout_keeps (s : State) (h : Nat) (hK : Keeps nv us ρ s) : Keeps nv us ρ (State.importTimeout s h) := by
  simp +contextual (maxDischargeDepth := 60) only [State.importTimeout, keeps_ite, keeps_foldl, implies_true, State.enterState_keeps, State.satCount_keeps, State.setBit_keeps, hK]

theorem State.coastLimit_keeps (s : State) (h : Nat) (hK : Keeps nv us ρ s) : Keeps nv us ρ (State.coastLimit s h) := by
  simp +contextual (maxDischargeDepth := 60) only [State.coastLimit, keeps_ite, keeps_foldl, implies_true, State.enterState_keeps, State.setBit_keeps, hK]

theorem State.lifeEvent_keeps (s : State) (hK : Keeps nv us ρ s) : Keeps nv us ρ (State.lifeEvent s) := by
  simp +contextual (maxDischargeDepth := 60) only [State.lifeEvent, keeps_ite, State.sysEvent_keeps, hK]

theorem State.wearSat_keeps (s : State) (w : Nat) (hK : Keeps nv us ρ s) : Keeps nv us ρ (State.wearSat s w) := by
  simp +contextual (maxDischargeDepth := 60) only [State.wearSat, keeps_ite, State.lifeEvent_keeps, State.raise_keeps, hK]

theorem State.wearAdd_keeps (s : State) (w n : Nat) (hK : Keeps nv us ρ s) : Keeps nv us ρ (State.wearAdd s w n) := by
  simp +contextual (maxDischargeDepth := 60) only [State.wearAdd, keeps_ite, State.setWear_keeps, State.wearSat_keeps, hK]

theorem State.wearEvent_keeps (s : State) (w : Nat) (hK : Keeps nv us ρ s) : Keeps nv us ρ (State.wearEvent s w) := by
  unfold State.wearEvent
  try dsimp only
  repeat' first
    | exact hK
    | simp +contextual (maxDischargeDepth := 60) only [keeps_mk, State.noteHw_keeps, State.wearAdd_keeps, hK]; done
    | split

theorem State.wearPeriod_keeps (s : State) (hK : Keeps nv us ρ s) : Keeps nv us ρ (State.wearPeriod s) := by
  unfold State.wearPeriod
  try dsimp only
  repeat' first
    | exact hK
    | simp +contextual (maxDischargeDepth := 60) only [keeps_ite, keeps_foldBelow, implies_true, State.noteHw_keeps, State.wearAdd_keeps, hK]; done
    | split

theorem State.wearOp_keeps (s : State) (v : Word) (hK : Keeps nv us ρ s) : Keeps nv us ρ (State.wearOp s v) := by
  unfold State.wearOp
  repeat' split
  all_goals simp +contextual (maxDischargeDepth := 60) only [keeps_ite, State.raise_keeps, State.setWear_keeps, State.wearAdd_keeps, hK]

theorem State.wearCfgWrite_keeps (s : State) (w : Nat) (v : Word) (hK : Keeps nv us ρ s) : Keeps nv us ρ (State.wearCfgWrite s w v) := by
  simp +contextual (maxDischargeDepth := 60) only [State.wearCfgWrite, keeps_ite, State.plainWrite_keeps, hK]

theorem State.wearRead_keeps (s : State) (w : Nat) (hK : Keeps nv us ρ s) : Keeps nv us ρ (State.wearRead s w).2 := by
  simp +contextual (maxDischargeDepth := 60) only [State.wearRead, State.setReg_keeps, hK]

theorem State.wearTake_keeps (s : State) (v : Word) (hK : Keeps nv us ρ s) : Keeps nv us ρ (State.wearTake s v) := by
  simp +contextual (maxDischargeDepth := 60) only [State.wearTake, keeps_ite, State.noteTake_keeps, hK]

theorem State.takeWear_keeps (s : State) (hK : Keeps nv us ρ s) : Keeps nv us ρ (State.takeWear s) := by
  simp +contextual (maxDischargeDepth := 60) only [State.takeWear, keeps_foldBelow, implies_true, State.setFld_keeps, State.setPair_keeps, hK]

theorem State.hibWake_keeps (s : State) (hK : Keeps nv us ρ s) : Keeps nv us ρ (State.hibWake s) := by
  simp +contextual (maxDischargeDepth := 60) only [State.hibWake, keeps_mk, hK]

theorem State.calAlarm_keeps (s : State) (hK : Keeps nv us ρ s) : Keeps nv us ρ (State.calAlarm s) := by
  simp +contextual (maxDischargeDepth := 60) only [State.calAlarm, keeps_ite, State.hibWake_keeps, State.lifeEvent_keeps, State.raise_keeps, hK]

theorem State.setCalendar_keeps (s : State) (c : BitVec 64) (hK : Keeps nv us ρ s) : Keeps nv us ρ (State.setCalendar s c) := by
  simp +contextual (maxDischargeDepth := 60) only [State.setCalendar, keeps_mk, hK]

theorem State.calendarStep_keeps (s : State) (hK : Keeps nv us ρ s) : Keeps nv us ρ (State.calendarStep s) := by
  unfold State.calendarStep
  dsimp only
  repeat' first
    | exact hK
    | simp +contextual (maxDischargeDepth := 60) only [keeps_mk, keeps_ite, State.calAlarm_keeps, State.raise_keeps, State.satCount_keeps, State.setBit_keeps, State.wearPeriod_keeps, hK]; done
    | split

theorem State.calCtlWrite_keeps (s : State) (v : Word) (hK : Keeps nv us ρ s) : Keeps nv us ρ (State.calCtlWrite s v) := by
  simp +contextual (maxDischargeDepth := 60) only [State.calCtlWrite, keeps_mk, keeps_ite, State.plainWrite_keeps, State.raise_keeps, hK]

theorem State.calRead_keeps (s : State) (hK : Keeps nv us ρ s) : Keeps nv us ρ (State.calRead s).2 := by
  simp +contextual (maxDischargeDepth := 60) only [State.calRead, State.setReg_keeps, hK]

theorem State.lfclkLoss_keeps (s : State) (hK : Keeps nv us ρ s) : Keeps nv us ρ (State.lfclkLoss s) := by
  simp +contextual (maxDischargeDepth := 60) only [State.lfclkLoss, keeps_ite, State.setBit_keeps, State.sysEvent_keeps, hK]

theorem State.beginMirror_keeps (s : State) (hK : Keeps nv us ρ s) : Keeps nv us ρ (State.beginMirror s) := by
  simp +contextual (maxDischargeDepth := 60) only [State.beginMirror, keeps_mk, keeps_ite, State.setBit_keeps, hK]

theorem State.mirrorPending_keeps (s : State) (hK : Keeps nv us ρ s) : Keeps nv us ρ (State.mirrorPending s) := by
  simp +contextual (maxDischargeDepth := 60) only [State.mirrorPending, keeps_ite, State.beginMirror_keeps, hK]

theorem State.mirrorElapsed_keeps (s : State) (hK : Keeps nv us ρ s) : Keeps nv us ρ (State.mirrorElapsed s) := by
  simp +contextual (maxDischargeDepth := 60) only [State.mirrorElapsed, keeps_ite, State.beginMirror_keeps, hK]

theorem State.mirNow_keeps (s : State) (v : Word) (hK : Keeps nv us ρ s) : Keeps nv us ρ (State.mirNow s v) := by
  simp +contextual (maxDischargeDepth := 60) only [State.mirNow, keeps_ite, State.beginMirror_keeps, hK]

theorem State.mirrorComplete_keeps (s : State) (ok : Bool) (h : Keeps False us ρ s) : Keeps False us ρ (s.mirrorComplete ok) := by
  unfold State.mirrorComplete
  split
  · exact State.mirrorPending_keeps _ (keeps_ite (keeps_nvm _ id (State.count_keeps _ _ (keeps_mk (State.setBit_keeps _ _ _ _ h))))
      (State.lifeEvent_keeps _ (State.satCount_keeps _ _ (keeps_mk (State.setBit_keeps _ _ _ _ h)))))
  · exact h

theorem State.vbatPor_keeps (s : State) (h : Keeps nv us ρ s) : Keeps nv us ρ s.vbatPor :=
  keeps_mk (keeps_regs _ (Table.wf_filter _ _ _) h)

theorem State.islandRestore_keeps (s : State) (h : Keeps nv us ρ s) : Keeps nv us ρ (s.islandRestore) := by
  unfold State.islandRestore
  refine keeps_ite h ?_
  dsimp only
  split
  · exact State.beginMirror_keeps _ (State.lifeEvent_keeps _ (State.raise_keeps _ _ _ (State.restoreRecord_keeps _ _ (keeps_mk h))))
  · exact State.lifeEvent_keeps _ (State.setBit_keeps _ _ _ _ (keeps_mk h))

theorem State.ucalTarget_keeps (s : State) (kind idx : Nat) (hK : Keeps nv us ρ s) : Keeps nv us ρ (State.ucalTarget s kind idx) := by
  unfold State.ucalTarget
  repeat' split
  all_goals simp +contextual (maxDischargeDepth := 60) only [State.setReg_keeps, hK]

theorem State.ucalApply_keeps (s : State) (hK : Keeps nv us ρ s) : Keeps nv us ρ (State.ucalApply s) := by
  simp +contextual (maxDischargeDepth := 60) only [State.ucalApply, keeps_foldl, implies_true, State.ucalTarget_keeps, hK]

theorem State.trimTake_keeps (s : State) (p : Nat) (hK : Keeps nv us ρ s) : Keeps nv us ρ (State.trimTake s p) := by
  simp +contextual (maxDischargeDepth := 60) only [State.trimTake, keeps_ite, State.setPin_keeps, hK]

theorem State.tripFollow_keeps (s : State) (i : Nat) (hK : Keeps nv us ρ s) : Keeps nv us ρ (State.tripFollow s i) := by
  simp +contextual (maxDischargeDepth := 60) only [State.tripFollow, keeps_ite, State.setTrip_keeps, State.setTripActive_keeps, hK]

theorem State.tripSample_keeps (s : State) (i : Nat) (hK : Keeps nv us ρ s) : Keeps nv us ρ (State.tripSample s i) := by
  simp +contextual (maxDischargeDepth := 60) only [State.tripSample, keeps_ite, State.setTrip_keeps, hK]

theorem State.tripInputEdge_keeps (s : State) (i : Nat) (lvl : Bool) (hK : Keeps nv us ρ s) : Keeps nv us ρ (State.tripInputEdge s i lvl) := by
  simp +contextual (maxDischargeDepth := 60) only [State.tripInputEdge, keeps_ite, State.setBit_keeps, State.tripFollow_keeps, hK]

theorem State.tripFilterQualify_keeps (s : State) (i : Nat) (hK : Keeps nv us ρ s) : Keeps nv us ρ (State.tripFilterQualify s i) := by
  unfold State.tripFilterQualify
  repeat' split
  all_goals simp +contextual (maxDischargeDepth := 60) only [State.setTrip_keeps, State.setTripActive_keeps, hK]

theorem State.tripCfgWrite_keeps (s : State) (i : Nat) (v : Word) (hK : Keeps nv us ρ s) : Keeps nv us ρ (State.tripCfgWrite s i v) := by
  simp +contextual (maxDischargeDepth := 60) only [State.tripCfgWrite, State.setReg_keeps, State.setTrip_keeps, hK]

theorem State.tripBoundary_keeps (s : State) (i : Nat) (hK : Keeps nv us ρ s) : Keeps nv us ρ (State.tripBoundary s i) := by
  unfold State.tripBoundary
  repeat' split
  all_goals simp +contextual (maxDischargeDepth := 60) only [State.setTrip_keeps, State.tripFollow_keeps, hK]

theorem State.cuffClose_keeps (s : State) (m : Nat) (hK : Keeps nv us ρ s) : Keeps nv us ρ (State.cuffClose s m) := by
  simp +contextual (maxDischargeDepth := 60) only [State.cuffClose, keeps_ite, State.setMitten_keeps, State.takeIfFree_keeps, hK]

theorem State.cuffOverride_keeps (s : State) (m : Nat) (hK : Keeps nv us ρ s) : Keeps nv us ρ (State.cuffOverride s m) := by
  unfold State.cuffOverride
  dsimp only
  repeat' first
    | exact hK
    | simp +contextual (maxDischargeDepth := 60) only [keeps_ite, State.raise_keeps, State.setMitten_keeps, State.take_keeps, hK]; done
    | split

theorem State.mittenRelease_keeps (s : State) (m : Nat) (hK : Keeps nv us ρ s) : Keeps nv us ρ (State.mittenRelease s m) := by
  simp +contextual (maxDischargeDepth := 60) only [State.mittenRelease, keeps_ite, State.refreshPins_keeps, State.setBit_keeps, State.setMitten_keeps, hK]

theorem State.clearMitten_keeps (s : State) (m : Nat) (auth : Bool) (hK : Keeps nv us ρ s) : Keeps nv us ρ (State.clearMitten s m auth) := by
  simp +contextual (maxDischargeDepth := 60) only [State.clearMitten, keeps_ite, State.setBit_keeps, State.setFld_keeps, State.setMitten_keeps, hK]

theorem State.mitClrWrite_keeps (s : State) (m : Nat) (v : Word) (hK : Keeps nv us ρ s) : Keeps nv us ρ (State.mitClrWrite s m v) := by
  simp +contextual (maxDischargeDepth := 60) only [State.mitClrWrite, keeps_ite, State.clearMitten_keeps, hK]

theorem State.interlockApply_keeps (s : State) (p : Nat) (hK : Keeps nv us ρ s) : Keeps nv us ρ (State.interlockApply s p) := by
  unfold State.interlockApply
  repeat' split
  all_goals simp +contextual (maxDischargeDepth := 60) only [State.refreshPins_keeps, State.setPin_keeps, hK]

theorem State.dropBlocked_keeps (s : State) (m : Nat) (hK : Keeps nv us ρ s) : Keeps nv us ρ (State.dropBlocked s m) := by
  simp +contextual (maxDischargeDepth := 60) only [State.dropBlocked, State.satAdd_keeps, State.setMitten_keeps, hK]

theorem State.mitCfgWrite_keeps (s : State) (a : Nat) (v : Word) (hK : Keeps nv us ρ s) : Keeps nv us ρ (State.mitCfgWrite s a v) := by
  unfold State.mitCfgWrite
  dsimp only
  repeat' first
    | exact hK
    | simp +contextual (maxDischargeDepth := 60) only [State.dropBlocked_keeps, State.raise_keeps, State.setReg_keeps, State.take_keeps, hK]; done
    | split

theorem State.mitStatusWrite_keeps (s : State) (m : Nat) (v : Word) (hK : Keeps nv us ρ s) : Keeps nv us ρ (State.mitStatusWrite s m v) := by
  simp +contextual (maxDischargeDepth := 60) only [State.mitStatusWrite, State.plainWrite_keeps, State.raiseIf_keeps, hK]

theorem State.hgEvent_keeps (s : State) (b : Nat) (hK : Keeps nv us ρ s) : Keeps nv us ρ (State.hgEvent s b) := by
  simp +contextual (maxDischargeDepth := 60) only [State.hgEvent, State.hostEvent_keeps, State.raise_keeps, hK]

theorem State.kick_keeps (s : State) (hK : Keeps nv us ρ s) : Keeps nv us ρ (State.kick s) := by
  simp +contextual (maxDischargeDepth := 60) only [State.kick, keeps_mk, keeps_ite, State.setFld_keeps, State.sourceOff_keeps, hK]

theorem State.wdogKick_keeps (s : State) (v : Word) (hK : Keeps nv us ρ s) : Keeps nv us ρ (State.wdogKick s v) := by
  simp +contextual (maxDischargeDepth := 60) only [State.wdogKick, keeps_ite, State.kick_keeps, hK]

theorem State.wdogCfgWrite_keeps (s : State) (v : Word) (hK : Keeps nv us ρ s) : Keeps nv us ρ (State.wdogCfgWrite s v) := by
  simp +contextual (maxDischargeDepth := 60) only [State.wdogCfgWrite, State.kick_keeps, State.plainWrite_keeps, hK]

theorem State.watchdogExpiry_keeps (s : State) (hK : Keeps nv us ρ s) : Keeps nv us ρ (State.watchdogExpiry s) := by
  simp +contextual (maxDischargeDepth := 60) only [State.watchdogExpiry, keeps_mk, keeps_ite, State.hostEvent_keeps, State.setBit_keeps, State.sourceOn_keeps, hK]

theorem State.wearFlush_keeps (s : State) (begins : Bool) (hK : Keeps nv us ρ s) : Keeps nv us ρ (State.wearFlush s begins) := by
  simp +contextual (maxDischargeDepth := 60) only [State.wearFlush, keeps_mk, keeps_foldl, implies_true, State.useFree_keeps, State.wearAdd_keeps, hK]

theorem State.clearBack_keeps (s : State) (n : Nat) (h : Keeps nv us ρ s) : Keeps nv us ρ (s.clearBack n) :=
  keeps_localRam _ (Memory.wf_filter _ _) h

theorem State.clearStaged_keeps (s : State) (hK : Keeps nv us ρ s) : Keeps nv us ρ (State.clearStaged s) := by
  simp +contextual (maxDischargeDepth := 60) only [State.clearStaged, keeps_mk, keeps_ite, keeps_foldBelow, implies_true, State.clearBack_keeps, hK]

theorem State.losesLast_keeps (s : State) (hK : Keeps nv us ρ s) : Keeps nv us ρ (State.losesLast s) := by
  simp +contextual (maxDischargeDepth := 60) only [State.losesLast, keeps_mk, hK]

theorem State.clearBlocks_keeps (s : State) (h : Keeps nv us ρ s) : Keeps nv us ρ s.clearBlocks := keeps_mk (keeps_noRings h)

theorem State.keepStops_keeps (s t : State) (h : Keeps nv us ρ t) : Keeps nv us ρ (s.keepStops t) :=
  keeps_foldBelow (fun _ _ hu => keeps_ite hu (State.setReg_keeps _ _ _ hu)) 24 t h

theorem State.clearSoft_keeps (s : State) (h : Keeps nv us ρ s) : Keeps nv us ρ s.clearSoft := by
  have h1 := keeps_regs _ (Table.wf_filter resetWord _ (fun e => survival e.1 != Survival.cleared)) (State.clearStaged_keeps _ h)
  exact State.refreshPins_keeps _ _ (keeps_mk (State.keepStops_keeps _ _ (State.clearBlocks_keeps _ (keeps_ite (State.setBit_keeps _ _ _ _ h1) h1))))

theorem State.clearMain_keeps (s : State) (por : Bool) (h : Keeps nv False ρ s) : Keeps nv False ρ (s.clearMain por) := by
  have h1 := keeps_regs _ (Table.wf_filter resetWord _ (fun e => survival e.1 == Survival.island)) h
  have h2 := State.losesLast_keeps _ (State.clearBlocks_keeps _ (State.setBit_keeps _ Reg.CLK_STATUS 2 (s.bit Reg.CLK_STATUS 2)
    (State.setReg_keeps _ Reg.TRIP_ACTIVE (s.reg Reg.TRIP_RAW) (State.setReg_keeps _ Reg.TRIP_RAW (s.reg Reg.TRIP_RAW) h1))))
  have h3 := keeps_ustore [] (fun _ => rfl) (keeps_localRam [] (fun _ => rfl) (keeps_reservoir (if por then [] else (_ : State).reservoir)
    (by intro c; split; exacts [rfl, c]) h2))
  exact State.setBit_keeps _ _ _ _ (keeps_mk h3)

theorem State.beginReset_keeps (s : State) (por : Bool) (cause : Nat) (h : Keeps nv False ρ s) : Keeps nv False ρ (s.beginReset por cause) :=
  keeps_mk (State.clearMain_keeps _ _ (State.wearFlush_keeps _ _ h))

theorem State.softBegin_keeps (s : State) (cause : Nat) (hK : Keeps nv us ρ s) : Keeps nv us ρ (State.softBegin s cause) := by
  simp +contextual (maxDischargeDepth := 60) only [State.softBegin, keeps_mk, keeps_ite, keeps_foldBelow, implies_true, State.refreshPins_keeps, State.setBit_keeps, State.stopThread_keeps, State.wearFlush_keeps, hK]

theorem State.softEnd_keeps (s : State) (hK : Keeps nv us ρ s) : Keeps nv us ρ (State.softEnd s) := by
  simp +contextual (maxDischargeDepth := 60) only [State.softEnd, keeps_mk, keeps_ite, State.clearSoft_keeps, State.mirrorPending_keeps, State.setBit_keeps, State.setFld_keeps, State.ucalApply_keeps, State.wearFlush_keeps, hK]

theorem State.clearCluster_keeps (s : State) (n : Nat) (h : Keeps nv us ρ s) : Keeps nv us ρ (s.clearCluster n) := by
  unfold State.clearCluster
  extract_lets s0 s1 lo mine s2 s3 e wake src s4
  have h1 : Keeps nv us ρ s1 := keeps_foldBelow (fun s t hs => keeps_ite hs (State.stopThread_keeps _ _ _ hs)) 16 s h
  clear_value s1
  have h2 : Keeps nv us ρ s2 := keeps_mk (keeps_regs (s1.regs.filter fun e => !mine e.1) (Table.wf_filter resetWord _ _) h1)
  clear_value s2
  have h3 : Keeps nv us ρ s3 := keeps_foldBelow (fun s j hs => State.setChan_keeps _ _ _ hs) 16 s2 h2
  clear_value s3
  have h4 : Keeps nv us ρ s4 := State.setEngine_keeps _ _ _ h3
  clear_value s4
  exact State.refreshPins_keeps _ _ (State.keepStops_keeps _ _ h4)

theorem State.watchdogReset_keeps (s : State) (hK : Keeps nv us ρ s) : Keeps nv us ρ (State.watchdogReset s) := by
  unfold State.watchdogReset
  repeat' split
  all_goals simp +contextual (maxDischargeDepth := 60) only [State.softBegin_keeps, hK]

theorem State.softResetStart_keeps (s : State) (hK : Keeps nv us ρ s) : Keeps nv us ρ (State.softResetStart s) := by
  simp +contextual (maxDischargeDepth := 60) only [State.softResetStart, keeps_ite, State.softBegin_keeps, State.watchdogReset_keeps, hK]

theorem State.softResetEnd_keeps (s : State) (hK : Keeps nv us ρ s) : Keeps nv us ρ (State.softResetEnd s) := by
  simp +contextual (maxDischargeDepth := 60) only [State.softResetEnd, keeps_ite, State.softEnd_keeps, hK]

theorem State.pbaNote_keeps (s : State) (hK : Keeps nv us ρ s) : Keeps nv us ρ (State.pbaNote s) := by
  simp +contextual (maxDischargeDepth := 60) only [State.pbaNote, keeps_mk, hK]

theorem State.msixScan_keeps (s : State) (hK : Keeps nv us ρ s) : Keeps nv us ρ (State.msixScan s) := by
  simp +contextual (maxDischargeDepth := 60) only [State.msixScan, keeps_mk, keeps_ite, keeps_foldl, implies_true, State.pbaNote_keeps, State.setBit_keeps, hK]

theorem State.msixMessage_keeps (s : State) (v : Nat) (hK : Keeps nv us ρ s) : Keeps nv us ρ (State.msixMessage s v) := by
  simp +contextual (maxDischargeDepth := 60) only [State.msixMessage, keeps_mk, keeps_ite, State.send_keeps, hK]

theorem State.vecDone_keeps (s : State) (v : Word) (hK : Keeps nv us ρ s) : Keeps nv us ρ (State.vecDone s v) := by
  simp +contextual (maxDischargeDepth := 60) only [State.vecDone, keeps_ite, State.msixScan_keeps, State.setReg_keeps, hK]

theorem State.pcieConfig_keeps (s : State) (r : CfgReg) (v : Word) (hK : Keeps nv us ρ s) : Keeps nv us ρ (State.pcieConfig s r v) := by
  unfold State.pcieConfig
  repeat' split
  all_goals simp +contextual (maxDischargeDepth := 60) only [keeps_mk, State.msixScan_keeps, hK]

theorem State.irqPendSet_keeps (s : State) (w : Nat) (m : Word) (h : Keeps nv us ρ s) : Keeps nv us ρ (s.irqPendSet w m) :=
  State.msixScan_keeps _ (keeps_foldBelow (fun _ _ hu => State.raiseIf_keeps _ _ _ _ hu) 32 s h)

theorem State.irqPendWrite_keeps (s : State) (w : Nat) (v : Word) (hK : Keeps nv us ρ s) : Keeps nv us ρ (State.irqPendWrite s w v) := by
  simp +contextual (maxDischargeDepth := 60) only [State.irqPendWrite, State.setReg_keeps, hK]

theorem State.irqSetWrite_keeps (s : State) (w : Nat) (v : Word) (hK : Keeps nv us ρ s) : Keeps nv us ρ (State.irqSetWrite s w v) := by
  simp +contextual (maxDischargeDepth := 60) only [State.irqSetWrite, State.irqPendSet_keeps, hK]

theorem State.irqLatch_keeps (s : State) (hK : Keeps nv us ρ s) : Keeps nv us ρ (State.irqLatch s) := by
  unfold State.irqLatch
  repeat' split
  all_goals simp +contextual (maxDischargeDepth := 60) only [keeps_mk, State.irqPendSet_keeps, State.raise_keeps, hK]

theorem State.irqSelectWrite_keeps (s : State) (a : Nat) (v : Word) (hK : Keeps nv us ρ s) : Keeps nv us ρ (State.irqSelectWrite s a v) := by
  unfold State.irqSelectWrite
  repeat' split
  all_goals simp +contextual (maxDischargeDepth := 60) only [State.setNext_keeps, hK]

theorem State.prbCtrlWrite_keeps (s : State) (p : Nat) (v : Word) (hK : Keeps nv us ρ s) : Keeps nv us ρ (State.prbCtrlWrite s p v) := by
  simp +contextual (maxDischargeDepth := 60) only [State.prbCtrlWrite, keeps_ite, State.setBit_keeps, State.setPair_keeps, State.setProbe_keeps, State.setReg_keeps, hK]

theorem State.prbBegin_keeps (s : State) (p : Nat) (e : ProbeEdge) (hK : Keeps nv us ρ s) : Keeps nv us ρ (State.prbBegin s p e) := by
  simp +contextual (maxDischargeDepth := 60) only [State.prbBegin, keeps_ite, State.raiseIf_keeps, State.setBit_keeps, State.setProbe_keeps, hK]

theorem State.prbJudge_keeps (s : State) (p : Nat) (e : ProbeEdge) (hK : Keeps nv us ρ s) : Keeps nv us ρ (State.prbJudge s p e) := by
  simp +contextual (maxDischargeDepth := 60) only [State.prbJudge, keeps_ite, State.prbBegin_keeps, State.satCount_keeps, hK]

theorem State.prbTick_keeps (s : State) (p : Nat) (hK : Keeps nv us ρ s) : Keeps nv us ρ (State.prbTick s p) := by
  simp +contextual (maxDischargeDepth := 60) only [State.prbTick, keeps_ite, keeps_foldl, implies_true, State.prbJudge_keeps, State.setProbe_keeps, hK]

theorem State.prbNote_keeps (s : State) (p : Nat) (rising : Bool) (st : Stamp) (hK : Keeps nv us ρ s) : Keeps nv us ρ (State.prbNote s p rising st) := by
  simp +contextual (maxDischargeDepth := 60) only [State.prbNote, State.setProbe_keeps, hK]

theorem State.probeEdge_keeps (s : State) (p : Nat) (rising : Bool) (st : Stamp) (hK : Keeps nv us ρ s) : Keeps nv us ρ (State.probeEdge s p rising st) := by
  unfold State.probeEdge
  dsimp only
  repeat' first
    | exact hK
    | simp +contextual (maxDischargeDepth := 60) only [keeps_ite, State.prbNote_keeps, State.setProbe_keeps, hK]; done
    | split

theorem State.probeLatch_keeps (s : State) (p : Nat) (hK : Keeps nv us ρ s) : Keeps nv us ρ (State.probeLatch s p) := by
  unfold State.probeLatch
  dsimp only
  repeat' first
    | exact hK
    | simp +contextual (maxDischargeDepth := 60) only [keeps_ite, State.deliver_keeps, State.setBit_keeps, State.setProbe_keeps, hK]; done
    | split

theorem State.prbStampRead_keeps (s : State) (p : Nat) (hK : Keeps nv us ρ s) : Keeps nv us ρ (State.prbStampRead s p).2 := by
  unfold State.prbStampRead
  dsimp only
  repeat' first
    | exact hK
    | simp +contextual (maxDischargeDepth := 60) only [keeps_ite, State.setBit_keeps, State.setPair_keeps, State.setProbe_keeps, State.setReg_keeps, hK]; done
    | split

theorem State.loadEnd_keeps (s : State) (status : Nat) (item : Option Nat) (hK : Keeps nv us ρ s) : Keeps nv us ρ (State.loadEnd s status item) := by
  simp +contextual (maxDischargeDepth := 60) only [State.loadEnd, State.deliver_keeps, State.refreshPins_keeps, State.setReg_keeps, hK]

theorem State.loadBegin_keeps (s : State) (hK : Keeps nv us ρ s) : Keeps nv us ρ (State.loadBegin s) := by
  simp +contextual (maxDischargeDepth := 60) only [State.loadBegin, State.refreshPins_keeps, State.setReg_keeps, hK]

theorem State.ucLoadGo_keeps (s : State) (v : Word) (hK : Keeps nv us ρ s) : Keeps nv us ρ (State.ucLoadGo s v) := by
  simp +contextual (maxDischargeDepth := 60) only [State.ucLoadGo, keeps_ite, State.loadBegin_keeps, State.loadEnd_keeps, hK]

theorem State.setDigest_keeps (s : State) (d : BitVec 256) (hK : Keeps nv us ρ s) : Keeps nv us ρ (State.setDigest s d) := by
  simp +contextual (maxDischargeDepth := 60) only [State.setDigest, keeps_foldBelow, implies_true, State.setReg_keeps, hK]

theorem State.setPatchIds_keeps (s : State) (ps : List Nat) (hK : Keeps nv us ρ s) : Keeps nv us ρ (State.setPatchIds s ps) := by
  simp +contextual (maxDischargeDepth := 60) only [State.setPatchIds, State.setReg_keeps, hK]

theorem wf_foldl_set (d : Nat → Word) {α : Type} (k : α → Nat) (v : α → Word) (l : List α) :
    ∀ u : Table Word, Table.wf d u = true → Table.wf d (l.foldl (fun u x => Table.set d u (k x) (v x)) u) = true := by
  induction l with
  | nil => exact fun u h => h
  | cons x l ih => exact fun u h => ih _ (Table.wf_set _ _ _ _ h)

theorem State.loadApply_keeps (s : State) (a : Nat) (ps : List Nat) (h : Keeps nv False ρ s) : Keeps nv False ρ (s.loadApply a ps) := by
  unfold State.loadApply
  have hu : ∀ (ps : List Nat) (u : Table Word), Table.wf (fun _ => (0 : Word)) u = true →
      Table.wf (fun _ => (0 : Word)) (ps.foldl s.applyPatch u) = true := by
    intro ps
    induction ps with
    | nil => exact fun u h => h
    | cons p ps ih => exact fun u h => ih _ (wf_foldl_set _ _ _ _ _ h)
  have hb : Table.wf (fun _ => (0 : Word)) (ps.foldl s.applyPatch (s.baseWords a)) = true := hu ps _ (wf_foldl_set _ _ _ _ _ rfl)
  exact State.loadEnd_keeps _ _ _ (State.setFld_keeps _ _ _ _ _ (State.setReg_keeps _ _ _ (State.setPatchIds_keeps _ _ (State.setDigest_keeps _ _
    (keeps_foldBelow (fun s n hs => State.setReg_keeps _ _ _ hs) _ _ (keeps_ustore _ (fun _ => hb) h))))))

theorem State.microcodeLoadComplete_keeps (s : State) (hK : Keeps nv False ρ s) : Keeps nv False ρ (State.microcodeLoadComplete s) := by
  unfold State.microcodeLoadComplete
  repeat' split
  all_goals simp +contextual (maxDischargeDepth := 60) only [State.loadApply_keeps, State.loadEnd_keeps, State.setResvUe_keeps, State.useFree_keeps, hK]

theorem State.flashFill_keeps (s : State) (b : List Byte) (h : Keeps nv us ρ s) : Keeps nv us ρ (s.flashFill b) := by
  have hm : ∀ (l : List (Byte × Nat)) (m : List Host.Cell), Memory.wf m = true →
      Memory.wf (l.foldl (fun m e => Memory.setByte m e.2 e.1) m) = true := by
    intro l
    induction l with
    | nil => exact fun m c => c
    | cons x l ih => exact fun m c => ih _ (Memory.wf_setByte _ _ _ c)
  unfold State.flashFill
  extract_lets whole fill src t
  have hf : ∀ (u : State) b off, Keeps nv us ρ u → Keeps nv us ρ (fill u b off) := fun u b off hu =>
    keeps_reservoir _ (hm (b.zipIdx off) u.reservoir) hu
  have ht : Keeps nv us ρ t := keeps_mk (hf s _ _ h)
  clear_value t
  exact keeps_ite ht (keeps_ite (State.setResvUe_keeps _ ht) (hf _ _ _ ht))

theorem State.flashLoad_keeps (s : State) (image : List Byte) (hK : Keeps nv us ρ s) : Keeps nv us ρ (State.flashLoad s image) := by
  unfold State.flashLoad
  try dsimp only
  repeat' first
    | exact hK
    | simp +contextual (maxDischargeDepth := 60) only [keeps_ite, State.flashFill_keeps, State.hwUpdate_keeps, State.loadBegin_keeps, State.loadEnd_keeps, State.send_keeps, hK]; done
    | split

theorem State.gatingTick_keeps (s : State) (n : Nat) (hK : Keeps nv us ρ s) : Keeps nv us ρ (State.gatingTick s n) := by
  unfold State.gatingTick
  try dsimp only
  repeat' first
    | exact hK
    | simp +contextual (maxDischargeDepth := 60) only [keeps_ite, State.setEngine_keeps, hK]; done
    | split

theorem State.clusterGate_keeps (s : State) (n : Nat) (hK : Keeps nv us ρ s) : Keeps nv us ρ (State.clusterGate s n) := by
  unfold State.clusterGate
  repeat' split
  all_goals simp +contextual (maxDischargeDepth := 60) only [State.setBit_keeps, State.setEngine_keeps, hK]

theorem State.clusterWake_keeps (s : State) (n : Nat) (hK : Keeps nv us ρ s) : Keeps nv us ρ (State.clusterWake s n) := by
  simp +contextual (maxDischargeDepth := 60) only [State.clusterWake, keeps_ite, State.setEngine_keeps, hK]

theorem State.powerRefused_keeps (s : State) (conds : Nat) (hK : Keeps nv us ρ s) : Keeps nv us ρ (State.powerRefused s conds) := by
  simp +contextual (maxDischargeDepth := 60) only [State.powerRefused, State.raise_keeps, State.setFld_keeps, State.sysEvent_keeps, hK]

theorem State.reqRunDoze_keeps (s : State) (doze : Bool) (hK : Keeps nv us ρ s) : Keeps nv us ρ (State.reqRunDoze s doze) := by
  simp +contextual (maxDischargeDepth := 60) only [State.reqRunDoze, keeps_ite, State.setFld_keeps, hK]

theorem State.enterNap_keeps (s : State) (hK : Keeps nv us ρ s) : Keeps nv us ρ (State.enterNap s) := by
  simp +contextual (maxDischargeDepth := 60) only [State.enterNap, keeps_mk, keeps_ite, keeps_foldl, implies_true, keeps_foldBelow, State.clearPeer_keeps, State.irqLatch_keeps, State.peerChange_keeps, State.refreshPins_keeps, State.setFld_keeps, State.setLink_keeps, State.setPort_keeps, State.setReg_keeps, State.setRole_keeps, State.setTsState_keeps, State.tripFollow_keeps, hK]

theorem State.powerRequest_keeps (s : State) (req : Nat) (hK : Keeps nv us ρ s) : Keeps nv us ρ (State.powerRequest s req) := by
  unfold State.powerRequest
  repeat' split
  all_goals simp +contextual (maxDischargeDepth := 60) only [keeps_mk, keeps_ite, State.beginMirror_keeps, State.enterNap_keeps, State.powerRefused_keeps, State.reqRunDoze_keeps, State.setFld_keeps, hK]

theorem State.napWake_keeps (s : State) (hostDemand : Bool) (hK : Keeps nv us ρ s) : Keeps nv us ρ (State.napWake s hostDemand) := by
  simp +contextual (maxDischargeDepth := 60) only [State.napWake, keeps_mk, keeps_ite, hK]

theorem State.pwrEnFall_keeps (s : State) (hK : Keeps nv us ρ s) : Keeps nv us ρ (State.pwrEnFall s) := by
  simp +contextual (maxDischargeDepth := 60) only [State.pwrEnFall, keeps_mk, keeps_ite, State.refreshPins_keeps, hK]

theorem State.hibAbort_keeps (s : State) (hK : Keeps nv False ρ s) : Keeps nv False ρ (State.hibAbort s) := by
  simp +contextual (maxDischargeDepth := 60) only [State.hibAbort, keeps_mk, keeps_ite, State.beginReset_keeps, hK]

theorem State.wakeN_keeps (s : State) (hK : Keeps nv us ρ s) : Keeps nv us ρ (State.wakeN s) := by
  simp +contextual (maxDischargeDepth := 60) only [State.wakeN, keeps_ite, State.hibWake_keeps, hK]

theorem State.porAssert_keeps (s : State) (hK : Keeps nv False ρ s) : Keeps nv False ρ (State.porAssert s) := by
  unfold State.porAssert
  repeat' split
  all_goals simp +contextual (maxDischargeDepth := 60) only [keeps_mk, State.beginReset_keeps, State.clearMain_keeps, hK]

theorem State.porRelease_keeps (s : State) (hK : Keeps nv us ρ s) : Keeps nv us ρ (State.porRelease s) := by
  simp +contextual (maxDischargeDepth := 60) only [State.porRelease, keeps_mk, keeps_ite, hK]

theorem State.pinReset_keeps (s : State) (cause : Nat) (hK : Keeps nv False ρ s) : Keeps nv False ρ (State.pinReset s cause) := by
  unfold State.pinReset
  repeat' split
  all_goals simp +contextual (maxDischargeDepth := 60) only [State.beginReset_keeps, hK]

theorem State.resetN_keeps (s : State) (low : Bool) (ns : Nat) (hK : Keeps nv False ρ s) : Keeps nv False ρ (State.resetN s low ns) := by
  simp +contextual (maxDischargeDepth := 60) only [State.resetN, keeps_mk, keeps_ite, State.pinReset_keeps, State.useFree_keeps, hK]

theorem State.clkFail_keeps (s : State) (pll : Bool) (hK : Keeps nv False ρ s) : Keeps nv False ρ (State.clkFail s pll) := by
  simp +contextual (maxDischargeDepth := 60) only [State.clkFail, keeps_ite, State.pinReset_keeps, hK]

theorem State.nvmCheck_keeps (s : State) (h : Keeps False us ρ s) : Keeps False us ρ s.nvmCheck := by
  unfold State.nvmCheck
  refine keeps_ite h (State.lifeEvent_keeps _ (State.setBit_keeps _ _ _ _ ?_))
  have h1 : Keeps False us ρ (if s.nvm.identityValid then s else { s with nvm := { s.nvm with sealed := true, floor := 0 } }) :=
    keeps_ite h (keeps_nvm _ (fun _ => rfl) h)
  exact keeps_ite h1 (keeps_mk h1)

theorem State.endOfReset_keeps (s : State) (straps : BitVec 2) (hK : Keeps False False ρ s) : Keeps False False ρ (State.endOfReset s straps) := by
  simp +contextual (maxDischargeDepth := 60) only [State.endOfReset, keeps_mk, keeps_ite, State.clearMain_keeps, State.initialRoundStart_keeps, State.mirrorPending_keeps, State.nvmCheck_keeps, State.setFld_keeps, State.ucalApply_keeps, hK]

theorem State.rstCl_keeps (s : State) (v : Word) (hK : Keeps nv us ρ s) : Keeps nv us ρ (State.rstCl s v) := by
  simp +contextual (maxDischargeDepth := 60) only [State.rstCl, keeps_ite, keeps_foldBelow, implies_true, State.clearCluster_keeps, State.raise_keeps, State.sysEvent_keeps, hK]

theorem State.clusterResetEnd_keeps (s : State) (n : Nat) (hK : Keeps nv us ρ s) : Keeps nv us ρ (State.clusterResetEnd s n) := by
  unfold State.clusterResetEnd
  repeat' split
  all_goals simp +contextual (maxDischargeDepth := 60) only [State.setEngine_keeps, hK]

theorem State.chanReadEffect_keeps (s : State) (k off : Nat) (hK : Keeps nv us ρ s) : Keeps nv us ρ (State.chanReadEffect s k off) := by
  unfold State.chanReadEffect
  repeat' split
  all_goals simp +contextual (maxDischargeDepth := 60) only [State.capRiseLoRead_keeps, State.countRead_keeps, State.ptEmitRead_keeps, State.rcClear_keeps, hK]

theorem State.mtLoRead_keeps (s : State) (hK : Keeps nv us ρ s) : Keeps nv us ρ (State.mtLoRead s).2 := by
  simp +contextual (maxDischargeDepth := 60) only [State.mtLoRead, State.setReg_keeps, hK]

theorem State.busRead_keeps (s : State) (a : Nat) (h : Keeps nv us ρ s) : Keeps nv us ρ (s.busRead a).2 := by
  unfold State.busRead
  extract_lets w off
  repeat' split
  · exact h
  · exact State.mtLoRead_keeps _ h
  · exact State.calRead_keeps _ h
  · exact h
  · with_reducible exact keeps_snd (State.chanReadEffect_keeps _ _ _ h)
  · with_reducible exact keeps_snd (State.rcClear_keeps _ _ h)
  · with_reducible exact keeps_snd (State.accRead_keeps _ _ _ h)
  · with_reducible exact keeps_snd (State.mmReset_keeps _ _ _ h)
  · with_reducible exact keeps_snd (State.posRead_keeps _ _ h)
  · with_reducible exact keeps_snd (State.prbStampRead_keeps _ _ h)
  · with_reducible exact keeps_snd (State.wearRead_keeps _ _ h)
  · with_reducible exact keeps_snd (State.rcClear_keeps _ _ h)

theorem State.readReg_keeps (s : State) (a : Nat) (hK : Keeps nv us ρ s) : Keeps nv us ρ (State.readReg s a).2 := by
  simp +contextual (maxDischargeDepth := 60) only [State.readReg, State.busRead_keeps, State.touchChanged_keeps, hK]

theorem State.chanWrite_keeps (s : State) (k off : Nat) (v : Word) (hK : Keeps nv us ρ s) : Keeps nv us ρ (State.chanWrite s k off v) := by
  unfold State.chanWrite
  repeat' split
  all_goals simp +contextual (maxDischargeDepth := 60) only [State.capCtrlWrite_keeps, State.chCtrlWrite_keeps, State.cmpCfgWrite_keeps, State.cmpWrite_keeps, State.countWrite_keeps, State.dtCfgWrite_keeps, State.outCtrlWrite_keeps, State.outFineWrite_keeps, State.pairSnapshot_keeps, State.periodWrite_keeps, State.plainWrite_keeps, State.prescWrite_keeps, State.ptCmdWrite_keeps, State.ptCtrlWrite_keeps, hK]

theorem State.clusterWrite_keeps (s : State) (n off : Nat) (v : Word) (hK : Keeps nv us ρ s) : Keeps nv us ρ (State.clusterWrite s n off v) := by
  unfold State.clusterWrite
  repeat' split
  all_goals simp +contextual (maxDischargeDepth := 60) only [keeps_ite, State.cancelGo_keeps, State.ledgerTake_keeps, State.plainWrite_keeps, State.postGo_keeps, State.ramWrite_keeps, State.thContextWrite_keeps, State.thCtrlWrite_keeps, hK]

theorem State.sysWrite_keeps (s : State) (a : Nat) (v : Word) (hK : Keeps nv us ρ s) : Keeps nv us ρ (State.sysWrite s a v) := by
  simp +contextual (maxDischargeDepth := 60) only [State.sysWrite, keeps_ite, State.plainWrite_keeps, State.powerRequest_keeps, State.rstCl_keeps, State.ucLoadGo_keeps, hK]

theorem State.irqWrite_keeps (s : State) (a : Nat) (v : Word) (hK : Keeps nv us ρ s) : Keeps nv us ρ (State.irqWrite s a v) := by
  simp +contextual (maxDischargeDepth := 60) only [State.irqWrite, keeps_ite, State.irqPendWrite_keeps, State.irqSelectWrite_keeps, State.irqSetWrite_keeps, State.msixScan_keeps, State.plainWrite_keeps, State.vecDone_keeps, hK]

theorem State.ponarCfgWrite_keeps (s : State) (v : Word) (hK : Keeps nv us ρ s) : Keeps nv us ρ (State.ponarCfgWrite s v) := by
  simp +contextual (maxDischargeDepth := 60) only [State.ponarCfgWrite, keeps_mk, keeps_ite, State.plainWrite_keeps, hK]

theorem State.keyLoadGo_keeps (s : State) (v : Word) (hK : Keeps nv us ρ s) : Keeps nv us ρ (State.keyLoadGo s v) := by
  simp +contextual (maxDischargeDepth := 60) only [State.keyLoadGo, keeps_mk, keeps_ite, State.setBit_keeps, hK]

theorem State.hgWrite_keeps (s : State) (a : Nat) (v : Word) (hK : Keeps nv us ρ s) : Keeps nv us ρ (State.hgWrite s a v) := by
  simp +contextual (maxDischargeDepth := 60) only [State.hgWrite, keeps_ite, State.keyLoadGo_keeps, State.plainWrite_keeps, State.ponarCfgWrite_keeps, State.setReg_keeps, State.wdogCfgWrite_keeps, State.wdogKick_keeps, hK]

theorem State.ringWrite_keeps (s : State) (a : Nat) (v : Word) (hK : Keeps nv us ρ s) : Keeps nv us ρ (State.ringWrite s a v) := by
  unfold State.ringWrite
  repeat' split
  all_goals simp +contextual (maxDischargeDepth := 60) only [State.hostCommit_keeps, State.hostRelease_keeps, State.plainWrite_keeps, State.ringCfgWrite_keeps, State.ringSnap_keeps, State.ringWaterWrite_keeps, State.xferWrite_keeps, hK]

theorem State.mitWrite_keeps (s : State) (a : Nat) (v : Word) (hK : Keeps nv us ρ s) : Keeps nv us ρ (State.mitWrite s a v) := by
  simp +contextual (maxDischargeDepth := 60) only [State.mitWrite, keeps_ite, State.mitCfgWrite_keeps, State.mitClrWrite_keeps, State.mitStatusWrite_keeps, State.plainWrite_keeps, State.tripCfgWrite_keeps, hK]

theorem State.adcWrite_keeps (s : State) (a : Nat) (v : Word) (hK : Keeps nv us ρ s) : Keeps nv us ρ (State.adcWrite s a v) := by
  simp +contextual (maxDischargeDepth := 60) only [State.adcWrite, keeps_ite, State.accCfgWrite_keeps, State.adcCfgWrite_keeps, State.adcReqWrite_keeps, State.adcSnap_keeps, State.plainWrite_keeps, hK]

theorem State.fbWrite_keeps (s : State) (a : Nat) (v : Word) (hK : Keeps nv us ρ s) : Keeps nv us ρ (State.fbWrite s a v) := by
  simp +contextual (maxDischargeDepth := 60) only [State.fbWrite, keeps_ite, State.cvCtrlWrite_keeps, State.cvStatusWrite_keeps, State.fbCfgWrite_keeps, State.pcCtrlWrite_keeps, State.plainWrite_keeps, State.prbCtrlWrite_keeps, hK]

theorem State.shaftWrite_keeps (s : State) (a : Nat) (v : Word) (hK : Keeps nv us ρ s) : Keeps nv us ρ (State.shaftWrite s a v) := by
  simp +contextual (maxDischargeDepth := 60) only [State.shaftWrite, keeps_ite, State.cycleSet_keeps, State.genWrite_keeps, State.plainWrite_keeps, State.shWrite_keeps, State.shaftSnap_keeps, hK]

theorem State.netWrite_keeps (s : State) (a : Nat) (v : Word) (hK : Keeps nv us ρ s) : Keeps nv us ρ (State.netWrite s a v) := by
  simp +contextual (maxDischargeDepth := 60) only [State.netWrite, keeps_ite, State.impWrite_keeps, State.plainWrite_keeps, State.portCtrlWrite_keeps, State.tsCtrlWrite_keeps, State.tsSnap_keeps, hK]

theorem State.lifeWrite_keeps (s : State) (a : Nat) (v : Word) (hK : Keeps nv us ρ s) : Keeps nv us ρ (State.lifeWrite s a v) := by
  simp +contextual (maxDischargeDepth := 60) only [State.lifeWrite, keeps_ite, State.calCtlWrite_keeps, State.mirNow_keeps, State.plainWrite_keeps, State.wearCfgWrite_keeps, State.wearOp_keeps, State.wearTake_keeps, hK]

theorem State.busWrite_keeps (s : State) (a : Nat) (v : Word) (hK : Keeps nv us ρ s) : Keeps nv us ρ (State.busWrite s a v) := by
  unfold State.busWrite
  repeat' split
  all_goals simp +contextual (maxDischargeDepth := 60) only [keeps_ite, State.adcWrite_keeps, State.calCtrlWrite_keeps, State.chanWrite_keeps, State.clusterWrite_keeps, State.fbWrite_keeps, State.hgWrite_keeps, State.irqWrite_keeps, State.lifeWrite_keeps, State.mitWrite_keeps, State.netWrite_keeps, State.pinSelWrite_keeps, State.plainWrite_keeps, State.ringWrite_keeps, State.setReg_keeps, State.shaftWrite_keeps, State.sysWrite_keeps, hK]

theorem State.flagWrite_keeps (s : State) (a : Nat) (v : Word) (hK : Keeps nv us ρ s) : Keeps nv us ρ (State.flagWrite s a v) := by
  unfold State.flagWrite
  repeat' split
  all_goals simp +contextual (maxDischargeDepth := 60) only [State.setReg_keeps, hK]

theorem State.writeA_keeps (s : State) (qspi : Bool) (a : Nat) (v : Word) (hK : Keeps nv us ρ s) : Keeps nv us ρ (State.writeA s qspi a v) := by
  simp +contextual (maxDischargeDepth := 60) only [State.writeA, implies_true, State.busWrite_keeps, State.portWrite_keeps, hK]

theorem State.readA_keeps (s : State) (a : Nat) (hK : Keeps nv us ρ s) : Keeps nv us ρ (State.readA s a) := by
  unfold State.readA
  try dsimp only
  repeat' first
    | exact hK
    | simp +contextual (maxDischargeDepth := 60) only [keeps_mk, keeps_ite, State.breakGate_keeps, State.holdRead_keeps, State.readReg_keeps, hK]; done
    | split

theorem State.threadWrite_keeps (s : State) (n t a : Nat) (v : Word) (hK : Keeps nv us ρ s) : Keeps nv us ρ (State.threadWrite s n t a v) := by
  simp +contextual (maxDischargeDepth := 60) only [State.threadWrite, implies_true, State.busWrite_keeps, State.kciAccess_keeps, State.noteWrote_keeps, State.setSt_keeps, hK]

theorem State.swapCommit_keeps (s : State) (a v : Word) (hK : Keeps nv us ρ s) : Keeps nv us ρ (State.swapCommit s a v) := by
  simp +contextual (maxDischargeDepth := 60) only [State.swapCommit, keeps_ite, State.busWrite_keeps, State.noteWrote_keeps, State.satCount_keeps, hK]

theorem State.commitOne_keeps (s : State) (w : LateWrite) (h : Keeps nv us ρ s) : Keeps nv us ρ (s.commitOne w) := by
  unfold State.commitOne
  have hw : Keeps nv us ρ { s with later := s.later ++ [w] } := keeps_mk h
  cases w
  · exact keeps_ite hw (keeps_ite (State.lockRefused_keeps _ _ _ h) (State.busWrite_keeps _ _ _ (State.noteHost_keeps _ _ h)))
  · exact keeps_ite hw (State.bWrite_keeps _ _ _ _ h)
  · exact keeps_ite hw (State.threadWrite_keeps _ _ _ _ _ h)
  · exact keeps_ite hw (State.kciAccess_keeps _ _ h (fun _ hu => State.flagWrite_keeps _ _ _ (State.noteWrote_keeps _ _ hu)))
  · exact keeps_ite hw (State.swapCommit_keeps _ _ _ h)
  · exact keeps_ite hw (State.setNext_keeps _ _ _ (State.noteWrote_keeps _ _ h))

theorem State.commitLater_keeps (s : State) (hK : Keeps nv us ρ s) : Keeps nv us ρ (State.commitLater s) := by
  simp +contextual (maxDischargeDepth := 60) only [State.commitLater, keeps_mk, keeps_ite, keeps_foldl, implies_true, State.commitOne_keeps, hK]

theorem State.loadThreads_keeps (s : State) (n : Nat) (st : Stamp) (hK : Keeps nv us ρ s) : Keeps nv us ρ (State.loadThreads s n st) := by
  simp +contextual (maxDischargeDepth := 60) only [State.loadThreads, keeps_ite, keeps_foldBelow, implies_true, State.engineWrites_keeps, State.setEngine_keeps, State.setThState_keeps, State.setThread_keeps, State.useFree_keeps, hK]

theorem State.swapSet_keeps (s : State) (r : SwapArm) (hK : Keeps nv us ρ s) : Keeps nv us ρ (State.swapSet s r) := by
  simp +contextual (maxDischargeDepth := 60) only [State.swapSet, State.setReg_keeps, hK]

theorem State.swapArm_keeps (s : State) (kci : Bool) (r : SwapArm) (hK : Keeps nv us ρ s) : Keeps nv us ρ (State.swapArm s kci r).2 := by
  simp +contextual (maxDischargeDepth := 60) only [State.swapArm, keeps_mk, keeps_ite, keeps_ite2, State.swapKey_keeps, State.swapRekey_keeps, State.swapSet_keeps, hK]

theorem State.swapDisarm_keeps (s : State) (hK : Keeps nv us ρ s) : Keeps nv us ρ (State.swapDisarm s).2 := by
  simp +contextual (maxDischargeDepth := 60) only [State.swapDisarm, keeps_ite2, State.swapEnd_keeps, hK]

theorem State.swapFix_keeps (s : State) (hK : Keeps nv us ρ s) : Keeps nv us ρ (State.swapFix s) := by
  simp +contextual (maxDischargeDepth := 60) only [State.swapFix, keeps_ite, State.setBit_keeps, hK]

theorem State.swapEntry_keeps (s : State) (e : Word × Word) (h : Keeps nv us ρ s) : Keeps nv us ρ (s.swapEntry e) :=
  keeps_ite (keeps_mk h) (State.swapCommit_keeps _ _ _ h)

theorem State.swapCluster_keeps (s : State) (n : Nat) (hK : Keeps nv us ρ s) : Keeps nv us ρ (State.swapCluster s n) := by
  simp +contextual (maxDischargeDepth := 60) only [State.swapCluster, keeps_foldBelow, implies_true, State.setEngine_keeps, State.stopThread_keeps, hK]

theorem State.swapRun_keeps (s : State) (hK : Keeps nv us ρ s) : Keeps nv us ρ (State.swapRun s) := by
  simp +contextual (maxDischargeDepth := 60) only [State.swapRun, keeps_mk, keeps_ite, keeps_foldl, implies_true, State.cancel_keeps, State.count_keeps, State.deliver_keeps, State.loadThreads_keeps, State.setPair_keeps, State.setReg_keeps, State.swapCluster_keeps, State.swapEntry_keeps, hK]

theorem State.responseGone_keeps (s : State) (discarded : Bool) (hK : Keeps nv us ρ s) : Keeps nv us ρ (State.responseGone s discarded) := by
  simp +contextual (maxDischargeDepth := 60) only [State.responseGone, keeps_mk, keeps_ite, hK]

theorem State.respAdmit_keeps (s : State) (hK : Keeps nv us ρ s) : Keeps nv us ρ (State.respAdmit s) := by
  unfold State.respAdmit
  repeat' split
  all_goals simp +contextual (maxDischargeDepth := 60) only [keeps_mk, State.ringGather_keeps, hK]

theorem State.respServe_keeps (s : State) (r : Nat) (es : List (BitVec 128)) (h : Keeps nv us ρ s) : Keeps nv us ρ (s.respServe r es) := by
  unfold State.respServe
  exact keeps_ite (State.responseGone_keeps _ _ (State.ringAdmit_keeps _ _ _ (keeps_foldl (fun _ _ hu => State.resWriteWords_keeps _ _ _ _ hu) _ _
    (keeps_mk (keeps_mk h))))) (keeps_mk h)

theorem State.deliverResponse_keeps (s : State) (via : Transport) (ws : List Word) (hK : Keeps nv us ρ s) : Keeps nv us ρ (State.deliverResponse s via ws) := by
  unfold State.deliverResponse
  try dsimp only
  repeat' first
    | exact hK
    | simp +contextual (maxDischargeDepth := 60) only [keeps_mk, keeps_ite, State.respAdmit_keeps, State.responseGone_keeps, State.sendUdp_keeps, hK]; done
    | split

theorem State.reply_keeps (s : State) (m : Msg) (key : Option (BitVec 128)) (status : Nat) (payload : List Word) (hK : Keeps nv us ρ s) : Keeps nv us ρ (State.reply s m key status payload) := by
  simp +contextual (maxDischargeDepth := 60) only [State.reply, keeps_mk, keeps_ite, State.deliverResponse_keeps, State.useFree_keeps, hK]

theorem State.sessionPassed_keeps (s : State) (m : Msg) (hK : Keeps nv us ρ s) : Keeps nv us ρ (State.sessionPassed s m) := by
  unfold State.sessionPassed
  dsimp only
  repeat' first
    | exact hK
    | simp +contextual (maxDischargeDepth := 60) only [keeps_ite, State.kick_keeps, State.setPort_keeps, hK]; done
    | split

theorem State.permCheck_keeps (s : State) (m : Msg) (hK : Keeps nv us ρ s) : Keeps nv us ρ (State.permCheck s m) := by
  simp +contextual (maxDischargeDepth := 60) only [State.permCheck, keeps_mk, keeps_ite, State.reply_keeps, State.setKey_keeps, hK]

theorem State.authFail_keeps (s : State) (counter : Nat) (hK : Keeps nv us ρ s) : Keeps nv us ρ (State.authFail s counter) := by
  simp +contextual (maxDischargeDepth := 60) only [State.authFail, State.hgEvent_keeps, State.satCount_keeps, hK]

theorem State.criticalCheck_keeps (s : State) (m : Msg) (hK : Keeps nv us ρ s) : Keeps nv us ρ (State.criticalCheck s m) := by
  simp +contextual (maxDischargeDepth := 60) only [State.criticalCheck, keeps_mk, keeps_ite, State.authFail_keeps, State.permCheck_keeps, State.reply_keeps, hK]

theorem State.ponarBegin_keeps (s : State) (m : Msg) (padOk : Bool) (hK : Keeps nv us ρ s) : Keeps nv us ρ (State.ponarBegin s m padOk) := by
  unfold State.ponarBegin
  repeat' split
  all_goals simp +contextual (maxDischargeDepth := 60) only [keeps_mk, keeps_ite, State.criticalCheck_keeps, State.hostEvent_keeps, State.reply_keeps, State.sessionPassed_keeps, hK]

theorem State.noteWhole_keeps (s : State) (hK : Keeps nv us ρ s) : Keeps nv us ρ (State.noteWhole s) := by
  simp +contextual (maxDischargeDepth := 60) only [State.noteWhole, keeps_mk, hK]

theorem State.engineNext_keeps (s : State) (hK : Keeps nv us ρ s) : Keeps nv us ρ (State.engineNext s) := by
  unfold State.engineNext
  repeat' split
  all_goals simp +contextual (maxDischargeDepth := 60) only [keeps_mk, State.ponarBegin_keeps, hK]

theorem State.ponarTick_keeps (s : State) (hK : Keeps nv us ρ s) : Keeps nv us ρ (State.ponarTick s) := by
  simp +contextual (maxDischargeDepth := 60) only [State.ponarTick, keeps_ite, State.engineNext_keeps, State.noteWhole_keeps, hK]

theorem State.takeEntries_keeps (n : Nat) : ∀ s : State, Keeps nv us ρ s → Keeps nv us ρ (s.takeEntries n).2.2 := by
  induction n with
  | zero => exact fun s h => h
  | succ n ih =>
    intro s h
    have ht := State.ringTake_keeps s s.cmdRing h
    unfold State.takeEntries
    split <;> rename_i heq <;> rw [heq] at ht <;> exact ih _ ht

theorem State.ponarRing_keeps (s : State) (h : Keeps nv us ρ s) : Keeps nv us ρ s.ponarRing := by
  have key : ∀ u : State, Keeps nv us ρ u → Keeps nv us ρ (if u.ponarFree && u.cmdWhole && u.queueFirst.isNone then
      let r := u.takeEntries u.cmdNeed
      let t := { r.2.2 with hg := { r.2.2.hg with ringSince := none } }
      let m := parseMsg .ring r.2.1 t.mt
      if u.resPoisoned u.cmdAt 16 then t.useFree.reply { m with h0 := t.freeValue.truncate 32, h1 := 0 } none 0x01 [0x1B]
      else if !r.1 then t.reply m none 0x01 [0x1B]
      else
        let used := 16 + m.len + (if m.crit then 8 else 0)
        t.ponarBegin m ((r.2.1.drop used).all (· == 0))
      else u) := by
    intro u hu
    have ht : Keeps nv us ρ { (u.takeEntries u.cmdNeed).2.2 with hg := { (u.takeEntries u.cmdNeed).2.2.hg with ringSince := none } } :=
      keeps_mk (State.takeEntries_keeps u.cmdNeed u hu)
    refine keeps_ite (keeps_ite ?_ (keeps_ite ?_ ?_)) hu
    · exact State.reply_keeps _ _ _ _ _ (State.useFree_keeps _ ht)
    · exact State.reply_keeps _ _ _ _ _ ht
    · exact State.ponarBegin_keeps _ _ _ ht
  have hu : Keeps nv us ρ (if s.mainRuns then s.noteWhole else s) := keeps_ite (State.noteWhole_keeps _ h) h
  exact key _ hu

theorem State.ponarUdp_keeps (s : State) (p : Nat) (f : RxFrame) (ip : Word) (udp : BitVec 16) (bytes : List Byte) (hK : Keeps nv us ρ s) : Keeps nv us ρ (State.ponarUdp s p f ip udp bytes) := by
  simp +contextual (maxDischargeDepth := 60) only [State.ponarUdp, keeps_mk, keeps_ite, implies_true, State.engineNext_keeps, State.noteWhole_keeps, State.receiveUdp_keeps, State.rxDiscard_keeps, State.satCount_keeps, hK]

theorem State.ponarDo_keeps (s : State) (t : Nat) (ok : Word → Bool) (f : Msg → (Nat → Word) → State → State) (h : Keeps nv us ρ s)
    (hf : ∀ m w u, Keeps nv us ρ u → Keeps nv us ρ (f m w u)) : Keeps nv us ρ (s.ponarDo t ok f) := by
  unfold State.ponarDo
  split
  · exact keeps_ite (hf _ _ _ (keeps_mk h)) h
  · exact h

theorem State.answer_keeps (s : State) (m : Msg) (status : Nat) (ws : List Word) (hK : Keeps nv us ρ s) : Keeps nv us ρ (State.answer s m status ws) := by
  simp +contextual (maxDischargeDepth := 60) only [State.answer, State.reply_keeps, hK]

theorem State.answerFree_keeps (s : State) (m : Msg) (status : Nat) (ws : List Word) (hK : Keeps nv us ρ s) : Keeps nv us ρ (State.answerFree s m status ws) := by
  simp +contextual (maxDischargeDepth := 60) only [State.answerFree, State.answer_keeps, State.useFree_keeps, hK]

theorem State.awaitNvm_keeps (s : State) (m : Msg) (op : NvmOp) (hK : Keeps nv us ρ s) : Keeps nv us ρ (State.awaitNvm s m op) := by
  simp +contextual (maxDischargeDepth := 60) only [State.awaitNvm, keeps_mk, hK]

theorem State.openSession_keeps (s : State) (via : Transport) (v : Nat) (h : Keeps nv us ρ s) : Keeps nv us ρ (s.openSession via v).2 := by
  unfold State.openSession
  split
  · exact State.setReg_keeps _ _ _ h
  · rename_i p ip udp
    dsimp only
    have hf : ∀ (e : Nat) (t : State), (match s.findPeer p ip udp with | some e => some (e, s) | none => s.newPeer p ip udp 30) = some (e, t) →
        Keeps nv us ρ t := by
      intro e t ht
      split at ht
      · cases ht; exact h
      · exact State.newPeer_keeps _ _ _ _ _ _ _ ht h
    split
    · rename_i heq
      rename_i e t
      have h1 := fun c => State.setPort_keeps _ p c (State.setFld_keeps _ (Reg.PEER_INFO p e) 3 0 v (State.setBit_keeps _ (Reg.PEER_INFO p e) 30 true (hf _ _ heq)))
      exact keeps_ite (h1 _) (State.peerChange_keeps _ _ (h1 _))
    · exact State.satCount_keeps _ _ h

theorem State.hello_keeps (m : Msg) (w : Nat → Word) (s : State) (hK : Keeps nv us ρ s) : Keeps nv us ρ (State.hello m w s) := by
  simp +contextual (maxDischargeDepth := 60) only [State.hello, keeps_mk, keeps_ite, State.answer_keeps, State.hostEvent_keeps, State.openSession_keeps, hK]

theorem State.getCounter_keeps (m : Msg) (w : Nat → Word) (s : State) (hK : Keeps nv us ρ s) : Keeps nv us ρ (State.getCounter m w s) := by
  simp +contextual (maxDischargeDepth := 60) only [State.getCounter, keeps_mk, keeps_ite, State.answer_keeps, hK]

theorem State.readList_keeps (l : List Word) : ∀ s : State, Keeps nv us ρ s → Keeps nv us ρ (s.readList l).2 := by
  induction l with
  | nil => exact fun s h => h
  | cons a l ih => exact fun s h => ih _ (State.readReg_keeps _ _ h)

theorem State.regRead_keeps (m : Msg) (w : Nat → Word) (s : State) (h : Keeps nv us ρ s) : Keeps nv us ρ (State.regRead m w s) :=
  State.answer_keeps _ _ _ _ (State.readList_keeps _ _ h)

theorem State.pairWrite_keeps (direct : Bool) (s : State) (a : Nat) (v : Word) (hK : Keeps nv us ρ s) : Keeps nv us ρ (State.pairWrite direct s a v).2 := by
  simp +contextual (maxDischargeDepth := 60) only [State.pairWrite, keeps_ite2, State.busWrite_keeps, State.lockRefused_keeps, State.noteHost_keeps, hK]

theorem State.answerPairs_keeps (s : State) (p : PairRun) (h : Keeps nv us ρ s) : Keeps nv us ρ (s.answerPairs p) :=
  State.answerFree_keeps _ _ _ _ (keeps_mk h)

theorem State.pairsRun_keeps (l : List (Word × Word)) : ∀ (s : State) (p : PairRun), Keeps nv us ρ s → Keeps nv us ρ (s.pairsRun p l) := by
  induction l with
  | nil => exact fun s p h => State.answerPairs_keeps _ _ h
  | cons e l ih =>
    intro s p h
    unfold State.pairsRun
    have hw := State.pairWrite_keeps p.direct s e.1.toNat e.2 h
    exact keeps_ite (keeps_mk h) (keeps_ite (ih _ _ hw) (keeps_mk hw))

theorem State.pairsBegin_keeps (s : State) (m : Msg) (direct : Bool) (l : List (Word × Word)) (h : Keeps nv us ρ s) :
    Keeps nv us ρ (s.pairsBegin m direct l) := State.pairsRun_keeps _ _ _ (keeps_mk h)

theorem State.pairTick_keeps (s : State) (h : Keeps nv us ρ s) : Keeps nv us ρ s.pairTick := by
  unfold State.pairTick
  split
  · exact keeps_ite (State.pairsRun_keeps _ _ _ h) h
  · exact h

theorem State.regWrite_keeps (m : Msg) (w : Nat → Word) (s : State) (h : Keeps nv us ρ s) : Keeps nv us ρ (State.regWrite m w s) :=
  State.pairsBegin_keeps _ _ _ _ h

theorem State.output_keeps (m : Msg) (w : Nat → Word) (s : State) (hK : Keeps nv us ρ s) : Keeps nv us ρ (State.output m w s) := by
  simp +contextual (maxDischargeDepth := 60) only [State.output, keeps_ite, State.answer_keeps, State.refreshPins_keeps, State.setBit_keeps, hK]

theorem State.copyImage_keeps (s : State) (base : Nat) (r : ImageRef) (hK : Keeps nv us ρ s) : Keeps nv us ρ (State.copyImage s base r) := by
  simp +contextual (maxDischargeDepth := 60) only [State.copyImage, keeps_foldBelow, implies_true, State.ramWrite_keeps, hK]

theorem State.loadRefused_keeps (s : State) (m : Msg) (st : Nat) (hK : Keeps nv us ρ s) : Keeps nv us ρ (State.loadRefused s m st) := by
  simp +contextual (maxDischargeDepth := 60) only [State.loadRefused, keeps_ite, State.answer_keeps, State.setResvUe_keeps, hK]

theorem State.loadDirect_keeps (m : Msg) (w : Nat → Word) (s : State) (hK : Keeps nv us ρ s) : Keeps nv us ρ (State.loadDirect m w s) := by
  simp +contextual (maxDischargeDepth := 60) only [State.loadDirect, keeps_ite, keeps_foldl, implies_true, State.answer_keeps, State.copyImage_keeps, State.loadRefused_keeps, State.loadThreads_keeps, hK]

theorem State.loadStage_keeps (m : Msg) (w : Nat → Word) (s : State) (hK : Keeps nv us ρ s) : Keeps nv us ρ (State.loadStage m w s) := by
  simp +contextual (maxDischargeDepth := 60) only [State.loadStage, keeps_mk, keeps_ite, keeps_foldl, implies_true, State.answer_keeps, State.copyImage_keeps, State.loadRefused_keeps, State.setReg_keeps, hK]

theorem State.answerSwap_keeps (m : Msg) (r : Nat × State) (h : Keeps nv us ρ r.2) : Keeps nv us ρ (State.answerSwap m r) :=
  keeps_ite (State.answerFree_keeps _ _ _ _ h) (State.answer_keeps _ _ _ _ h)

theorem State.swapCtlArm_keeps (m : Msg) (w : Nat → Word) (s : State) (h : Keeps nv us ρ s) : Keeps nv us ρ (State.swapCtlArm m w s) :=
  State.answerSwap_keeps _ _ (State.swapArm_keeps _ _ _ h)

theorem State.swapCtlDisarm_keeps (m : Msg) (w : Nat → Word) (s : State) (h : Keeps nv us ρ s) : Keeps nv us ρ (State.swapCtlDisarm m w s) :=
  State.answerSwap_keeps _ _ (State.swapDisarm_keeps _ h)

theorem State.swapCtlQuery_keeps (m : Msg) (w : Nat → Word) (s : State) (h : Keeps nv us ρ s) : Keeps nv us ρ (State.swapCtlQuery m w s) :=
  keeps_ite (State.answerFree_keeps _ _ _ _ h) (State.answerSwap_keeps _ _ h)

theorem State.mitChange_keeps (m : Msg) (w : Nat → Word) (s : State) (h : Keeps nv us ρ s) : Keeps nv us ρ (State.mitChange m w s) :=
  keeps_ite (State.answer_keeps _ _ _ _ h) (State.pairsBegin_keeps _ _ _ _ h)

theorem State.mitClear_keeps (m : Msg) (w : Nat → Word) (s : State) (hK : Keeps nv us ρ s) : Keeps nv us ρ (State.mitClear m w s) := by
  simp +contextual (maxDischargeDepth := 60) only [State.mitClear, keeps_ite, keeps_foldBelow, implies_true, State.answerFree_keeps, State.clearMitten_keeps, hK]

theorem State.keyInstall_keeps (m : Msg) (w : Nat → Word) (s : State) (hK : Keeps nv us ρ s) : Keeps nv us ρ (State.keyInstall m w s) := by
  unfold State.keyInstall
  repeat' split
  all_goals simp +contextual (maxDischargeDepth := 60) only [keeps_ite, State.answer_keeps, State.awaitNvm_keeps, hK]

theorem State.keyRevoke_keeps (m : Msg) (w : Nat → Word) (s : State) (hK : Keeps nv us ρ s) : Keeps nv us ρ (State.keyRevoke m w s) := by
  simp +contextual (maxDischargeDepth := 60) only [State.keyRevoke, keeps_ite, State.answer_keeps, State.awaitNvm_keeps, hK]

theorem State.seal_keeps (m : Msg) (w : Nat → Word) (s : State) (hK : Keeps nv us ρ s) : Keeps nv us ρ (State.seal m w s) := by
  simp +contextual (maxDischargeDepth := 60) only [State.seal, keeps_ite, State.answer_keeps, State.awaitNvm_keeps, hK]

theorem State.floorRaise_keeps (m : Msg) (w : Nat → Word) (s : State) (hK : Keeps nv us ρ s) : Keeps nv us ρ (State.floorRaise m w s) := by
  simp +contextual (maxDischargeDepth := 60) only [State.floorRaise, keeps_ite, State.answer_keeps, State.awaitNvm_keeps, hK]

theorem State.softReset_keeps (m : Msg) (w : Nat → Word) (s : State) (h : Keeps nv us ρ s) : Keeps nv us ρ (State.softReset m w s) :=
  State.answer_keeps _ _ _ _ (keeps_mk h)

theorem State.ucalWrite_keeps (m : Msg) (w : Nat → Word) (s : State) (hK : Keeps nv us ρ s) : Keeps nv us ρ (State.ucalWrite m w s) := by
  simp +contextual (maxDischargeDepth := 60) only [State.ucalWrite, keeps_ite, State.answer_keeps, State.awaitNvm_keeps, hK]

theorem State.trimApply_keeps (s : State) (r : UcalRec) (old : Word) (hK : Keeps nv us ρ s) : Keeps nv us ρ (State.trimApply s r old) := by
  simp +contextual (maxDischargeDepth := 60) only [State.trimApply, State.setPin_keeps, hK]

theorem State.ucalDone_keeps (s : State) (recs : List (Bool × UcalRec)) (h : Keeps False us ρ s) : Keeps False us ρ (s.ucalDone recs) :=
  State.engineCommit_keeps _ _ (keeps_foldl (fun _ _ hs => keeps_ite (State.trimApply_keeps _ _ _ hs) hs) _ _ (keeps_nvm _ id h))

theorem State.nvmDone_keeps (s : State) (op : NvmOp) (h : Keeps False us ρ s) : Keeps False us ρ (s.nvmDone op) := by
  have answered : ∀ u : State, Keeps False us ρ u → Keeps False us ρ (match u.hg.waiting with | some m => u.answer m 0x00 [] | none => u) := by
    intro u hu
    split
    · exact State.answer_keeps _ _ _ _ hu
    · exact hu
  unfold State.nvmDone
  split
  · have h1 := fun k c => State.setKey_keeps s k c h
    dsimp only
    split
    · exact keeps_ite (State.permCheck_keeps _ _ (h1 _ _)) (keeps_mk (h1 _ _))
    · exact h1 _ _
  · have h1 := fun k c => keeps_nvm (s := s.setKey k c) { s.nvm with keysValid := true } id (State.setKey_keeps s k c h)
    refine keeps_ite ?_ (keeps_foldl (fun _ _ hs => keeps_ite hs (State.setReg_keeps _ _ _ hs)) _ _ (h1 _ _))
    split
    · exact State.reply_keeps _ _ _ _ _ (keeps_mk (h1 _ _))
    · exact h1 _ _
  · exact answered _ (State.hgEvent_keeps _ _ (keeps_nvm _ (fun _ => rfl) h))
  · exact answered _ (keeps_nvm _ id h)
  · exact answered _ (State.ucalDone_keeps _ _ h)

theorem State.nvmFailed_keeps (s : State) (op : NvmOp) (hK : Keeps nv us ρ s) : Keeps nv us ρ (State.nvmFailed s op) := by
  unfold State.nvmFailed
  dsimp only
  repeat' first
    | exact hK
    | simp +contextual (maxDischargeDepth := 60) only [State.answer_keeps, State.hgEvent_keeps, hK]; done
    | split

theorem State.nvmComplete_keeps (s : State) (ok : Bool) (hK : Keeps False us ρ s) : Keeps False us ρ (State.nvmComplete s ok) := by
  unfold State.nvmComplete
  repeat' split
  all_goals simp +contextual (maxDischargeDepth := 60) only [keeps_mk, State.nvmDone_keeps, State.nvmFailed_keeps, hK]

theorem State.accessFault_keeps (s : State) (a : Word) (write qspi : Bool) (be : BitVec 4) (hK : Keeps nv us ρ s) : Keeps nv us ρ (State.accessFault s a write qspi be) := by
  simp +contextual (maxDischargeDepth := 60) only [State.accessFault, State.hgEvent_keeps, State.satCount_keeps, State.setReg_keeps, hK]

theorem State.pcieAccess_keeps (s : State) (write : Bool) (a : Nat) (ws : List Word) (hK : Keeps nv us ρ s) : Keeps nv us ρ (State.pcieAccess s write a ws) := by
  simp +contextual (maxDischargeDepth := 60) only [State.pcieAccess, keeps_ite, keeps_foldl, implies_true, State.readA_keeps, State.writeA_keeps, hK]

theorem State.pcieServe_keeps (s : State) (write : Bool) (a : Nat) (dws : List (BitVec 4 × Word)) (hK : Keeps nv us ρ s) : Keeps nv us ρ (State.pcieServe s write a dws) := by
  unfold State.pcieServe
  repeat' split
  all_goals simp +contextual (maxDischargeDepth := 60) only [keeps_mk, keeps_ite, State.accessFault_keeps, State.pcieAccess_keeps, State.send_keeps, hK]

theorem State.hostRequest_keeps (s : State) (q : HostReq) (f : State → State) (h : Keeps nv us ρ s) (hf : Keeps nv us ρ (f s)) :
    Keeps nv us ρ (s.hostRequest q f) := by
  unfold State.hostRequest
  split
  · exact keeps_ite hf (keeps_mk h)
  · exact hf
  · exact keeps_mk h
  · exact keeps_mk h
  · exact h

theorem State.bRead_keeps (s : State) (off size : Nat) (hK : Keeps nv us ρ s) : Keeps nv us ρ (State.bRead s off size) := by
  simp +contextual (maxDischargeDepth := 60) only [State.bRead, keeps_mk, keeps_ite, State.send_keeps, State.setResvUe_keeps, State.useFree_keeps, hK]

theorem State.bArrive_keeps (s : State) (off size : Nat) (v : BitVec 64) (hK : Keeps nv us ρ s) : Keeps nv us ρ (State.bArrive s off size v) := by
  simp +contextual (maxDischargeDepth := 60) only [State.bArrive, keeps_mk, keeps_ite, State.bWrite_keeps, hK]

theorem State.hotReset_keeps (s : State) (hK : Keeps nv us ρ s) : Keeps nv us ρ (State.hotReset s) := by
  simp +contextual (maxDischargeDepth := 60) only [State.hotReset, keeps_mk, hK]

theorem State.setQspi_keeps (s : State) (ended addrErr part locked : Bool) (hK : Keeps nv us ρ s) : Keeps nv us ρ (State.setQspi s ended addrErr part locked) := by
  simp +contextual (maxDischargeDepth := 60) only [State.setQspi, keeps_mk, hK]

theorem State.qspiFault_keeps (s : State) (a : Word) (write : Bool) (hK : Keeps nv us ρ s) : Keeps nv us ρ (State.qspiFault s a write) := by
  unfold State.qspiFault
  repeat' split
  all_goals simp +contextual (maxDischargeDepth := 60) only [State.accessFault_keeps, State.useFree_keeps, hK]

theorem State.qspiReadFrame_keeps (s : State) (a n : Nat) (part : Bool) (hK : Keeps nv us ρ s) : Keeps nv us ρ (State.qspiReadFrame s a n part) := by
  simp +contextual (maxDischargeDepth := 60) only [State.qspiReadFrame, keeps_mk, keeps_ite, keeps_foldl, implies_true, State.qspiFault_keeps, State.readA_keeps, State.setQspi_keeps, hK]

theorem State.qspiUndefined_keeps (s : State) (hK : Keeps nv us ρ s) : Keeps nv us ρ (State.qspiUndefined s) := by
  simp +contextual (maxDischargeDepth := 60) only [State.qspiUndefined, State.qspiFault_keeps, State.setQspi_keeps, State.useFree_keeps, hK]

theorem State.qspiRead_keeps (s : State) (op : BitVec 8) (a n : Nat) (part : Bool) (hK : Keeps nv us ρ s) : Keeps nv us ρ (State.qspiRead s op a n part) := by
  simp +contextual (maxDischargeDepth := 60) only [State.qspiRead, keeps_ite, State.qspiReadFrame_keeps, State.qspiUndefined_keeps, hK]

theorem State.qspiQread_keeps (s : State) (a n : Nat) (part : Bool) (hK : Keeps nv us ρ s) : Keeps nv us ρ (State.qspiQread s a n part) := by
  simp +contextual (maxDischargeDepth := 60) only [State.qspiQread, keeps_ite, State.qspiReadFrame_keeps, hK]

theorem State.qspiWriteFrame_keeps (s : State) (a : Nat) (ws : List Word) (part : Bool) (h : Keeps nv us ρ s) :
    Keeps nv us ρ (s.qspiWriteFrame a ws part) := by
  have hf : ∀ (l : List (Word × Nat)) (r : Bool × State), Keeps nv us ρ r.2 → Keeps nv us ρ (l.foldl (fun (r : Bool × State) e =>
      (r.1 || r.2.sealLocks (a + 4 * e.2) e.1, r.2.writeA true (a + 4 * e.2) e.1)) r).2 := by
    intro l
    induction l with
    | nil => exact fun r c => c
    | cons x l ih => exact fun r c => ih _ (State.writeA_keeps _ _ _ _ c)
  exact State.setQspi_keeps _ _ _ _ _ (keeps_ite (State.qspiFault_keeps _ _ _ (hf _ _ h)) (hf _ _ h))

theorem State.qspiWrite_keeps (s : State) (a : Nat) (ws : List Word) (part : Bool) (hK : Keeps nv us ρ s) : Keeps nv us ρ (State.qspiWrite s a ws part) := by
  simp +contextual (maxDischargeDepth := 60) only [State.qspiWrite, keeps_ite, State.qspiWriteFrame_keeps, hK]

theorem State.qspiId_keeps (s : State) (hK : Keeps nv us ρ s) : Keeps nv us ρ (State.qspiId s) := by
  simp +contextual (maxDischargeDepth := 60) only [State.qspiId, keeps_mk, State.readA_keeps, State.setQspi_keeps, hK]

theorem State.setGPair_keeps (s : State) (n t i : Nat) (v : BitVec 64) (hK : Keeps nv us ρ s) : Keeps nv us ρ (State.setGPair s n t i v) := by
  simp +contextual (maxDischargeDepth := 60) only [State.setGPair, State.setG_keeps, hK]

theorem State.setThFlags_keeps (s : State) (n t : Nat) (f : Flags) (hK : Keeps nv us ρ s) : Keeps nv us ρ (State.setThFlags s n t f) := by
  simp +contextual (maxDischargeDepth := 60) only [State.setThFlags, State.setRw_keeps, hK]

theorem State.kDone_keeps (s : State) (n t cycles : Nat) (hK : Keeps nv us ρ s) : Keeps nv us ρ (State.kDone s n t cycles) := by
  simp +contextual (maxDischargeDepth := 60) only [State.kDone, State.runCycles_keeps, State.setEngine_keeps, hK]

theorem State.kEnd_keeps (s : State) (n t len cycles : Nat) (e : KEnd) (hK : Keeps nv us ρ s) : Keeps nv us ρ (State.kEnd s n t len cycles e) := by
  unfold State.kEnd
  repeat' split
  all_goals simp +contextual (maxDischargeDepth := 60) only [keeps_ite, State.faultThread_keeps, State.kDone_keeps, State.leaveEngine_keeps, State.notePoll_keeps, State.runCycles_keeps, State.setEngine_keeps, State.setThPc_keeps, State.setThread_keeps, hK]

theorem State.kAlu_keeps (s : State) (n t : Nat) (w : Word) (o : Alu) (hK : Keeps nv us ρ s) : Keeps nv us ρ (State.kAlu s n t w o).1 := by
  simp +contextual (maxDischargeDepth := 60) only [State.kAlu, keeps_ite, State.setG_keeps, State.setThFlags_keeps, hK]

theorem State.kLoad_keeps (s : State) (n t : Nat) (w : Word) (hK : Keeps nv us ρ s) : Keeps nv us ρ (State.kLoad s n t w).1 := by
  simp +contextual (maxDischargeDepth := 60) only [State.kLoad, keeps_ite1, State.loadTo_keeps, hK]

theorem State.kStore_keeps (s : State) (n t : Nat) (w : Word) (hK : Keeps nv us ρ s) : Keeps nv us ρ (State.kStore s n t w).1 := by
  simp +contextual (maxDischargeDepth := 60) only [State.kStore, keeps_ite1, State.ramWrite_keeps, hK]

theorem State.kAccess_keeps (s : State) (n t : Nat) (w : Word) (kind : Nat) (hK : Keeps nv us ρ s) : Keeps nv us ρ (State.kAccess s n t w kind).1 := by
  simp +contextual (maxDischargeDepth := 60) only [State.kAccess, keeps_ite1, hK]

theorem State.kBranch_keeps (s : State) (n t : Nat) (w : Word) (hK : Keeps nv us ρ s) : Keeps nv us ρ (State.kBranch s n t w).1 := by
  simp +contextual (maxDischargeDepth := 60) only [State.kBranch, hK]

theorem State.kJal_keeps (s : State) (n t : Nat) (w : Word) (hK : Keeps nv us ρ s) : Keeps nv us ρ (State.kJal s n t w).1 := by
  simp +contextual (maxDischargeDepth := 60) only [State.kJal, State.setG_keeps, hK]

theorem State.kJr_keeps (s : State) (n t : Nat) (w : Word) (hK : Keeps nv us ρ s) : Keeps nv us ρ (State.kJr s n t w).1 := by
  simp +contextual (maxDischargeDepth := 60) only [State.kJr, keeps_ite1, State.setG_keeps, hK]

theorem State.chanRead_keeps (s : State) (k off : Nat) (hK : Keeps nv us ρ s) : Keeps nv us ρ (State.chanRead s k off).2 := by
  simp +contextual (maxDischargeDepth := 60) only [State.chanRead, implies_true, State.kciAccess_keeps, State.rcClear_keeps, hK]

theorem State.kChrd_keeps (s : State) (n t : Nat) (w : Word) (hK : Keeps nv us ρ s) : Keeps nv us ρ (State.kChrd s n t w).1 := by
  simp +contextual (maxDischargeDepth := 60) only [State.kChrd, keeps_ite1, State.chanRead_keeps, State.setG_keeps, State.setSt_keeps, hK]

theorem State.kChwr_keeps (s : State) (n t : Nat) (w : Word) (hK : Keeps nv us ρ s) : Keeps nv us ρ (State.kChwr s n t w).1 := by
  simp +contextual (maxDischargeDepth := 60) only [State.kChwr, keeps_mk, keeps_ite1, State.setSt_keeps, State.threadWrite_keeps, hK]

theorem chrd64Get_keeps (get : State → Nat → Word × State) (k : Nat)
    (hget : ∀ u o, get u o = if chanAssigned k o then u.chanRead k o else (0, u)) (u : State) (o : Nat) (h : Keeps nv us ρ u) :
    Keeps nv us ρ (get u o).2 := by
  rw [hget]; exact keeps_ite2 (State.chanRead_keeps _ _ _ h) (keeps_snd h)

theorem State.kChrd64_keeps (s : State) (n t : Nat) (w : Word) (h : Keeps nv us ρ s) : Keeps nv us ρ (s.kChrd64 n t w).1 := by
  unfold State.kChrd64
  extract_lets k d off get r0 r1 ok
  have hget : ∀ u o, get u o = if chanAssigned k o then u.chanRead k o else (0, u) := fun _ _ => rfl
  have h1 : Keeps nv us ρ r1.2 := chrd64Get_keeps _ k hget _ _ (chrd64Get_keeps _ k hget _ _ h)
  clear_value get r0 r1 ok off k d
  with_reducible refine keeps_ite1 (keeps_ite1 (keeps_fst (State.setSt_keeps _ _ _ _ h)) (keeps_fst ?_)) (keeps_fst ?_)
  · with_reducible exact State.setSt_keeps _ _ _ _ (State.setG_keeps _ _ _ _ _ (State.setG_keeps _ _ _ _ _ h))
  · with_reducible exact State.setSt_keeps _ _ _ _ (State.setG_keeps _ _ _ _ _ (State.setG_keeps _ _ _ _ _ h1))

theorem State.kChstat_keeps (s : State) (n t : Nat) (w : Word) (hK : Keeps nv us ρ s) : Keeps nv us ρ (State.kChstat s n t w).1 := by
  simp +contextual (maxDischargeDepth := 60) only [State.kChstat, keeps_mk, keeps_ite, keeps_ite1, implies_true, State.chanRead_keeps, State.flagWrite_keeps, State.kciAccess_keeps, State.noteWrote_keeps, State.setG_keeps, State.setSt_keeps, hK]

theorem State.kMtrd_keeps (s : State) (n t : Nat) (w : Word) (hK : Keeps nv us ρ s) : Keeps nv us ρ (State.kMtrd s n t w).1 := by
  simp +contextual (maxDischargeDepth := 60) only [State.kMtrd, keeps_ite, State.setGPair_keeps, State.setThStamp_keeps, hK]

theorem State.kStampAdd_keeps (s : State) (n t : Nat) (w : Word) (sub : Bool) (hK : Keeps nv us ρ s) : Keeps nv us ρ (State.kStampAdd s n t w sub).1 := by
  simp +contextual (maxDischargeDepth := 60) only [State.kStampAdd, keeps_ite1, State.setSt_keeps, State.setThStamp_keeps, hK]

theorem State.kStld_keeps (s : State) (n t : Nat) (w : Word) (hK : Keeps nv us ρ s) : Keeps nv us ρ (State.kStld s n t w).1 := by
  simp +contextual (maxDischargeDepth := 60) only [State.kStld, State.setThStamp_keeps, hK]

theorem State.kStst_keeps (s : State) (n t : Nat) (w : Word) (hK : Keeps nv us ρ s) : Keeps nv us ρ (State.kStst s n t w).1 := by
  simp +contextual (maxDischargeDepth := 60) only [State.kStst, State.setGPair_keeps, hK]

theorem State.kStaddi_keeps (s : State) (n t : Nat) (w : Word) (hK : Keeps nv us ρ s) : Keeps nv us ρ (State.kStaddi s n t w).1 := by
  simp +contextual (maxDischargeDepth := 60) only [State.kStaddi, State.setThStamp_keeps, hK]

theorem State.kStcmp_keeps (s : State) (n t : Nat) (hK : Keeps nv us ρ s) : Keeps nv us ρ (State.kStcmp s n t).1 := by
  simp +contextual (maxDischargeDepth := 60) only [State.kStcmp, State.setThFlags_keeps, hK]

theorem State.shaftWords_keeps (s : State) (n t h d fn : Nat) (hK : Keeps nv us ρ s) : Keeps nv us ρ (State.shaftWords s n t h d fn) := by
  unfold State.shaftWords
  repeat' split
  all_goals simp +contextual (maxDischargeDepth := 60) only [State.noteSat_keeps, State.setG_keeps, State.setGPair_keeps, hK]

theorem State.kShrd_keeps (s : State) (n t : Nat) (w : Word) (hK : Keeps nv us ρ s) : Keeps nv us ρ (State.kShrd s n t w).1 := by
  simp +contextual (maxDischargeDepth := 60) only [State.kShrd, keeps_ite, keeps_ite1, State.setSt_keeps, State.setThStamp_keeps, State.shaftWords_keeps, hK]

theorem State.kAccrd_keeps (s : State) (n t : Nat) (w : Word) (hK : Keeps nv us ρ s) : Keeps nv us ρ (State.kAccrd s n t w).1 := by
  simp +contextual (maxDischargeDepth := 60) only [State.kAccrd, keeps_ite, keeps_ite1, State.accClear_keeps, State.setG_keeps, State.setSt_keeps, hK]

theorem State.kMmrd_keeps (s : State) (n t : Nat) (w : Word) (hK : Keeps nv us ρ s) : Keeps nv us ρ (State.kMmrd s n t w).1 := by
  simp +contextual (maxDischargeDepth := 60) only [State.kMmrd, keeps_ite, keeps_ite1, State.mmReset_keeps, State.setG_keeps, State.setSt_keeps, hK]

theorem State.kSysrd_keeps (s : State) (n t : Nat) (w : Word) (hK : Keeps nv us ρ s) : Keeps nv us ρ (State.kSysrd s n t w).1 := by
  simp +contextual (maxDischargeDepth := 60) only [State.kSysrd, State.setG_keeps, hK]

theorem State.kWaitt_keeps (s : State) (n t : Nat) (hK : Keeps nv us ρ s) : Keeps nv us ρ (State.kWaitt s n t).1 := by
  simp +contextual (maxDischargeDepth := 60) only [State.kWaitt, keeps_ite1, State.setSt_keeps, hK]

theorem State.kWaita_keeps (s : State) (n t : Nat) (w : Word) (hK : Keeps nv us ρ s) : Keeps nv us ρ (State.kWaita s n t w).1 := by
  unfold State.kWaita
  dsimp only
  repeat' first
    | exact hK
    | simp +contextual (maxDischargeDepth := 60) only [State.setSt_keeps, hK]; done
    | split

theorem State.threadPost_keeps (s : State) (n t : Nat) (first : Bool) (d : Nat → Word) (hK : Keeps nv us ρ s) : Keeps nv us ρ (State.threadPost s n t first d) := by
  unfold State.threadPost
  dsimp only
  repeat' first
    | exact hK
    | simp +contextual (maxDischargeDepth := 60) only [State.post_keeps, State.setSt_keeps, State.setThStamp_keeps, State.useFree_keeps, hK]; done
    | split

theorem State.kPost_keeps (s : State) (n t : Nat) (w : Word) (hK : Keeps nv us ρ s) : Keeps nv us ρ (State.kPost s n t w).1 := by
  unfold State.kPost
  dsimp only
  repeat' first
    | exact hK
    | simp +contextual (maxDischargeDepth := 60) only [keeps_ite1, State.postLater_keeps, State.threadPost_keeps, hK]; done
    | split

theorem State.postNext_keeps (s : State) (n : Nat) (hK : Keeps nv us ρ s) : Keeps nv us ρ (State.postNext s n) := by
  unfold State.postNext
  repeat' split
  all_goals simp +contextual (maxDischargeDepth := 60) only [State.postHost_keeps, State.setWeir_keeps, State.threadPost_keeps, hK]

theorem State.kCancel_keeps (s : State) (n t : Nat) (w : Word) (hK : Keeps nv us ρ s) : Keeps nv us ρ (State.kCancel s n t w).1 := by
  simp +contextual (maxDischargeDepth := 60) only [State.kCancel, keeps_ite1, State.cancel_keeps, State.setSt_keeps, hK]

theorem State.setQuad_keeps (s : State) (n t i : Nat) (e : BitVec 128) (hK : Keeps nv us ρ s) : Keeps nv us ρ (State.setQuad s n t i e) := by
  simp +contextual (maxDischargeDepth := 60) only [State.setQuad, keeps_foldBelow, implies_true, State.setG_keeps, hK]

theorem State.kPush_keeps (s : State) (n t : Nat) (w : Word) (hK : Keeps nv us ρ s) : Keeps nv us ρ (State.kPush s n t w).1 := by
  simp +contextual (maxDischargeDepth := 60) only [State.kPush, keeps_ite1, State.ringGather_keeps, State.setSt_keeps, hK]

theorem State.kPop_keeps (s : State) (n t : Nat) (w : Word) (h : Keeps nv us ρ s) : Keeps nv us ρ (s.kPop n t w).1 := by
  unfold State.kPop
  extract_lets r
  have hp := State.ringPop_keeps s r n h
  clear_value r
  with_reducible refine keeps_ite1 (State.setSt_keeps _ _ _ _ h) ?_
  generalize s.ringPop r n = q at hp ⊢
  obtain ⟨_ | c, _ | e, u⟩ := q
  · exact hp
  · exact State.setSt_keeps _ _ _ _ (State.setQuad_keeps _ _ _ _ _ hp)
  · exact keeps_ite1 h (State.setSt_keeps _ _ _ _ h)
  · exact keeps_ite1 h (State.setSt_keeps _ _ _ _ h)

theorem State.kSwapArm_keeps (s : State) (n t : Nat) (w : Word) (hK : Keeps nv us ρ s) : Keeps nv us ρ (State.kSwapArm s n t w).1 := by
  simp +contextual (maxDischargeDepth := 60) only [State.kSwapArm, State.setSt_keeps, State.swapArm_keeps, hK]

theorem State.kSwapDisarm_keeps (s : State) (n t : Nat) (hK : Keeps nv us ρ s) : Keeps nv us ρ (State.kSwapDisarm s n t).1 := by
  simp +contextual (maxDischargeDepth := 60) only [State.kSwapDisarm, State.setSt_keeps, State.swapDisarm_keeps, hK]

theorem State.kSwapQuery_keeps (s : State) (n t : Nat) (w : Word) (hK : Keeps nv us ρ s) : Keeps nv us ρ (State.kSwapQuery s n t w).1 := by
  simp +contextual (maxDischargeDepth := 60) only [State.kSwapQuery, State.setG_keeps, hK]

theorem State.kEffect_keeps (s : State) (n t : Nat) (w : Word) (o : Kci) (hK : Keeps nv us ρ s) : Keeps nv us ρ (State.kEffect s n t w o).1 := by
  unfold State.kEffect
  repeat' split
  all_goals simp +contextual (maxDischargeDepth := 60) only [State.kAccess_keeps, State.kAccrd_keeps, State.kAlu_keeps, State.kBranch_keeps, State.kCancel_keeps, State.kChrd_keeps, State.kChrd64_keeps, State.kChstat_keeps, State.kChwr_keeps, State.kJal_keeps, State.kJr_keeps, State.kLoad_keeps, State.kMmrd_keeps, State.kMtrd_keeps, State.kPop_keeps, State.kPost_keeps, State.kPush_keeps, State.kShrd_keeps, State.kStaddi_keeps, State.kStampAdd_keeps, State.kStcmp_keeps, State.kStld_keeps, State.kStore_keeps, State.kStst_keeps, State.kSwapArm_keeps, State.kSwapDisarm_keeps, State.kSwapQuery_keeps, State.kSysrd_keeps, State.kWaita_keeps, State.kWaitt_keeps, hK]

theorem State.kRun_keeps (s : State) (n t : Nat) (w : Word) (o : Kci) (hK : Keeps nv us ρ s) : Keeps nv us ρ (State.kRun s n t w o) := by
  simp +contextual (maxDischargeDepth := 60) only [State.kRun, keeps_ite, State.kEffect_keeps, State.kEnd_keeps, State.setThread_keeps, hK]

theorem State.kci_keeps (s : State) (n : Nat) (o : Kci) (hK : Keeps nv us ρ s) : Keeps nv us ρ (State.kci s n o) := by
  unfold State.kci
  dsimp only
  repeat' first
    | exact hK
    | simp +contextual (maxDischargeDepth := 60) only [State.faultThread_keeps, State.kRun_keeps, hK]; done
    | split

theorem State.pushFails_keeps (s : State) (r n t pc : Nat) (waits : Bool) (hK : Keeps nv us ρ s) : Keeps nv us ρ (State.pushFails s r n t pc waits) := by
  simp +contextual (maxDischargeDepth := 60) only [State.pushFails, keeps_ite, State.setRunning_keeps, State.setSt_keeps, State.setThPc_keeps, State.setThState_keeps, State.setThread_keeps, hK]

theorem State.serveOffer_keeps (s : State) (r : Nat) (o : Offer) (h : Keeps nv us ρ s) : Keeps nv us ρ (s.serveOffer r o) := by
  unfold State.serveOffer
  split
  · exact State.ringOffer_keeps _ _ _ _ h
  · exact State.ringOffer_keeps _ _ _ _ h
  · split
    · exact State.ringAdmit_keeps _ _ _ h
    · exact State.pushFails_keeps _ _ _ _ _ _ h
    · exact State.setSt_keeps _ _ _ _ h
  · exact keeps_ite (State.raise_keeps _ _ _ h) (State.ringAdmit_keeps _ _ _ h)
  · split
    · exact State.ringAdmit_keeps _ _ _ h
    · exact State.setReg_keeps _ _ _ h
  · exact State.respServe_keeps _ _ _ h

theorem State.serveOffers_keeps (s : State) (r : Nat) (hK : Keeps nv us ρ s) : Keeps nv us ρ (State.serveOffers s r) := by
  simp +contextual (maxDischargeDepth := 60) only [State.serveOffers, keeps_foldl, implies_true, and_self, State.serveOffer_keeps, State.setRing_keeps, hK]

theorem State.ringsTickEnd_keeps (s : State) (hK : Keeps nv us ρ s) : Keeps nv us ρ (State.ringsTickEnd s) := by
  simp +contextual (maxDischargeDepth := 60) only [State.ringsTickEnd, keeps_ite, keeps_foldl, implies_true, State.ringCycleEnd_keeps, State.serveOffers_keeps, hK]

theorem State.runTake_keeps (s : State) (t : Take) (h : Keeps nv us ρ s) : Keeps nv us ρ (s.runTake t) := by
  cases t
  · exact State.takePair_keeps _ _ h
  · exact State.takeShaft_keeps _ _ h
  · exact State.takeWeir_keeps _ _ h
  · exact State.takeRing_keeps _ _ h
  · exact State.takeAdc_keeps _ h
  · exact State.takeWear_keeps _ h
  · exact State.pcDecide_keeps _ _ h

theorem State.runTakes_keeps (s : State) (h : Keeps nv us ρ s) : Keeps nv us ρ s.runTakes :=
  keeps_foldl (fun _ _ hu => State.runTake_keeps _ _ hu) _ _ (keeps_mk h)

theorem State.enginesTickEnd_keeps (s : State) (hK : Keeps nv us ρ s) : Keeps nv us ρ (State.enginesTickEnd s) := by
  simp +contextual (maxDischargeDepth := 60) only [State.enginesTickEnd, keeps_ite, keeps_foldBelow, implies_true, State.engineTick_keeps, hK]

theorem State.tickEnd_keeps (s : State) (hK : Keeps nv us ρ s) : Keeps nv us ρ (State.tickEnd s) := by
  simp +contextual (maxDischargeDepth := 60) only [State.tickEnd, keeps_foldl, implies_true, keeps_foldBelow, State.commitLater_keeps, State.cvSampleRaw_keeps, State.enginesTickEnd_keeps, State.gatedTick_keeps, State.noteWaits_keeps, State.pairTick_keeps, State.pcTick_keeps, State.ponarTick_keeps, State.portSend_keeps, State.ringsTickEnd_keeps, State.runTakes_keeps, State.tdcTick_keeps, State.tripSample_keeps, hK]

theorem State.tickBegin_keeps (s : State) (hK : Keeps nv us ρ s) : Keeps nv us ρ (State.tickBegin s) := by
  simp +contextual (maxDischargeDepth := 60) only [State.tickBegin, keeps_foldl, implies_true, keeps_foldBelow, State.engineBegin_keeps, State.gatingTick_keeps, State.genTick_keeps, State.indexTick_keeps, State.inputBoundary_keeps, State.mirrorPending_keeps, State.padsBoundary_keeps, State.postNext_keeps, State.prbTick_keeps, State.qencTick_keeps, State.satTick_keeps, State.ssiTick_keeps, State.trimSlew_keeps, State.tripBoundary_keeps, State.weirActs_keeps, hK]

theorem State.serveHeld_keeps (s : State) (q : HostReq) (hK : Keeps nv us ρ s) : Keeps nv us ρ (State.serveHeld s q) := by
  unfold State.serveHeld
  try dsimp only
  repeat' first
    | exact hK
    | simp +contextual (maxDischargeDepth := 60) only [State.bArrive_keeps, State.bRead_keeps, State.pcieServe_keeps, hK]; done
    | split

theorem State.bclkStart_keeps (s : State) (hK : Keeps nv us ρ s) : Keeps nv us ρ (State.bclkStart s) := by
  simp +contextual (maxDischargeDepth := 60) only [State.bclkStart, keeps_mk, keeps_ite, keeps_foldl, implies_true, State.serveHeld_keeps, hK]

theorem State.advance_keeps (s : State) (hK : Keeps nv us ρ s) : Keeps nv us ρ (State.advance s) := by
  simp +contextual (maxDischargeDepth := 60) only [State.advance, keeps_mk, State.bclkStart_keeps, State.openCycle_keeps, State.tickBegin_keeps, hK]

theorem State.tick_keeps (s : State) (hK : Keeps nv us ρ s) : Keeps nv us ρ (State.tick s) := by
  simp +contextual (maxDischargeDepth := 60) only [State.tick, keeps_ite, State.advance_keeps, State.tickEnd_keeps, hK]

theorem State.napWakeComplete_keeps (s : State) (hK : Keeps nv us ρ s) : Keeps nv us ρ (State.napWakeComplete s) := by
  simp +contextual (maxDischargeDepth := 60) only [State.napWakeComplete, keeps_mk, keeps_ite, keeps_foldl, implies_true, State.advance_keeps, State.bclkStart_keeps, State.initialRoundStart_keeps, State.irqLatch_keeps, State.mirrorPending_keeps, State.refreshPins_keeps, State.setFld_keeps, State.sysEvent_keeps, State.tickEnd_keeps, hK]

theorem State.clusterWakeEnd_keeps (s : State) (n : Nat) (hK : Keeps nv us ρ s) : Keeps nv us ρ (State.clusterWakeEnd s n) := by
  unfold State.clusterWakeEnd
  repeat' split
  all_goals simp +contextual (maxDischargeDepth := 60) only [keeps_foldl, implies_true, State.commitLater_keeps, State.readA_keeps, State.setBit_keeps, State.setEngine_keeps, hK]

end Sys2Proof.Machine
end

