-- ==== Sys2Proof/Laws/Commands.lean ====
section
/-!
SUPPORT. What every command keeps (`Keeps`): one lemma per command. A command whose lemma has `False` in place of `nv` may change the
non-volatile memory, and one with `False` in place of `us` the micro-store.
-/

namespace Sys2Proof.Machine

variable {nv us : Prop} {ρ : State}

theorem execStartTick_keeps (k : Fin 384) (s : State) (s' : State) (hx : execStartTick k s = .next s') (hK : Keeps nv us ρ s) : Keeps nv us ρ s' := by
  unfold execStartTick at hx
  cases hx
  simp +contextual (maxDischargeDepth := 60) only [State.onTclk_keeps, State.startTick_keeps, hK]

theorem execCountingStep_keeps (k : Fin 384) (s : State) (s' : State) (hx : execCountingStep k s = .next s') (hK : Keeps nv us ρ s) : Keeps nv us ρ s' := by
  unfold execCountingStep at hx
  cases hx
  simp +contextual (maxDischargeDepth := 60) only [State.countingStep_keeps, State.onTclk_keeps, hK]

theorem execWriteTrigger_keeps (k : Fin 384) (x : Fin 4) (s : State) (s' : State) (hx : execWriteTrigger k x s = .next s') (hK : Keeps nv us ρ s) : Keeps nv us ρ s' := by
  unfold execWriteTrigger at hx
  cases hx
  simp +contextual (maxDischargeDepth := 60) only [State.onTclk_keeps, State.writeTrigger_keeps, hK]

theorem execChCtrlWrite_keeps (k : Fin 384) (v : Word) (s : State) (s' : State) (hx : execChCtrlWrite k v s = .next s') (hK : Keeps nv us ρ s) : Keeps nv us ρ s' := by
  unfold execChCtrlWrite at hx
  cases hx
  simp +contextual (maxDischargeDepth := 60) only [implies_true, State.chCtrlWrite_keeps, State.hostWrite_keeps, hK]

theorem execCountWrite_keeps (k : Fin 384) (v : Word) (s : State) (s' : State) (hx : execCountWrite k v s = .next s') (hK : Keeps nv us ρ s) : Keeps nv us ρ s' := by
  unfold execCountWrite at hx
  cases hx
  simp +contextual (maxDischargeDepth := 60) only [implies_true, State.countWrite_keeps, State.hostWrite_keeps, hK]

theorem execCountRead_keeps (k : Fin 384) (s : State) (s' : State) (hx : execCountRead k s = .next s') (hK : Keeps nv us ρ s) : Keeps nv us ρ s' := by
  unfold execCountRead at hx
  cases hx
  simp +contextual (maxDischargeDepth := 60) only [implies_true, State.countRead_keeps, State.hostRead_keeps, hK]

theorem execPeriodWrite_keeps (k : Fin 384) (presc : Bool) (v : Word) (s : State) (s' : State) (hx : execPeriodWrite k presc v s = .next s') (hK : Keeps nv us ρ s) : Keeps nv us ρ s' := by
  unfold execPeriodWrite at hx
  cases hx
  simp +contextual (maxDischargeDepth := 60) only [keeps_ite, implies_true, State.hostWrite_keeps, State.periodWrite_keeps, State.prescWrite_keeps, hK]

theorem execCmpLiveWrite_keeps (k : Fin 384) (x : Fin 4) (v : Word) (s : State) (s' : State) (hx : execCmpLiveWrite k x v s = .next s') (hK : Keeps nv us ρ s) : Keeps nv us ρ s' := by
  unfold execCmpLiveWrite at hx
  cases hx
  simp +contextual (maxDischargeDepth := 60) only [keeps_ite, implies_true, State.cmpLiveWrite_keeps, State.cmpWrite_keeps, State.hostWrite_keeps, hK]

theorem execCmpPreloadWrite_keeps (k : Fin 384) (x : Fin 4) (v : Word) (s : State) (s' : State) (hx : execCmpPreloadWrite k x v s = .next s') (hK : Keeps nv us ρ s) : Keeps nv us ρ s' := by
  unfold execCmpPreloadWrite at hx
  cases hx
  simp +contextual (maxDischargeDepth := 60) only [keeps_ite, implies_true, State.cmpPreloadWrite_keeps, State.cmpWrite_keeps, State.hostWrite_keeps, hK]

theorem execCmpCfgWrite_keeps (k : Fin 384) (v : Word) (s : State) (s' : State) (hx : execCmpCfgWrite k v s = .next s') (hK : Keeps nv us ρ s) : Keeps nv us ρ s' := by
  unfold execCmpCfgWrite at hx
  cases hx
  simp +contextual (maxDischargeDepth := 60) only [implies_true, State.cmpCfgWrite_keeps, State.hostWrite_keeps, hK]

theorem execPairSnapshotTake_keeps (k : Fin 384) (v : Word) (s : State) (s' : State) (hx : execPairSnapshotTake k v s = .next s') (hK : Keeps nv us ρ s) : Keeps nv us ρ s' := by
  unfold execPairSnapshotTake at hx
  cases hx
  simp +contextual (maxDischargeDepth := 60) only [implies_true, State.hostWrite_keeps, State.pairSnapshot_keeps, hK]

theorem execOutCtrlWrite_keeps (k : Fin 384) (v : Word) (s : State) (s' : State) (hx : execOutCtrlWrite k v s = .next s') (hK : Keeps nv us ρ s) : Keeps nv us ρ s' := by
  unfold execOutCtrlWrite at hx
  cases hx
  simp +contextual (maxDischargeDepth := 60) only [implies_true, State.hostWrite_keeps, State.outCtrlWrite_keeps, hK]

theorem execOutFineWrite_keeps (k : Fin 384) (dt : Bool) (v : Word) (s : State) (s' : State) (hx : execOutFineWrite k dt v s = .next s') (hK : Keeps nv us ρ s) : Keeps nv us ρ s' := by
  unfold execOutFineWrite at hx
  cases hx
  simp +contextual (maxDischargeDepth := 60) only [keeps_ite, implies_true, State.dtCfgWrite_keeps, State.hostWrite_keeps, State.outFineWrite_keeps, hK]

theorem execSyncPulseArrival_keeps (n : Fin 24) (s : State) (s' : State) (hx : execSyncPulseArrival n s = .next s') (hK : Keeps nv us ρ s) : Keeps nv us ρ s' := by
  unfold execSyncPulseArrival at hx
  cases hx
  simp +contextual (maxDischargeDepth := 60) only [State.onTclk_keeps, State.syncArrival_keeps, hK]

theorem execSyncInEdge_keeps (ticksHigh : Nat) (s : State) (s' : State) (hx : execSyncInEdge ticksHigh s = .next s') (hK : Keeps nv us ρ s) : Keeps nv us ρ s' := by
  unfold execSyncInEdge at hx
  cases hx
  simp +contextual (maxDischargeDepth := 60) only [State.onTclk_keeps, State.syncInEdge_keeps, hK]

theorem execSyncOutFall_keeps (s : State) (s' : State) (hx : execSyncOutFall s = .next s') (hK : Keeps nv us ρ s) : Keeps nv us ρ s' := by
  unfold execSyncOutFall at hx
  cases hx
  simp +contextual (maxDischargeDepth := 60) only [State.onTclk_keeps, State.syncOutFall_keeps, hK]

theorem execEdgeEmit_keeps (k : Fin 384) (s : State) (s' : State) (hx : execEdgeEmit k s = .next s') (hK : Keeps nv us ρ s) : Keeps nv us ρ s' := by
  unfold execEdgeEmit at hx
  cases hx
  simp +contextual (maxDischargeDepth := 60) only [State.edgeEmit_keeps, State.onTclk_keeps, hK]

theorem execPendingEdgeEmit_keeps (k : Fin 384) (s : State) (s' : State) (hx : execPendingEdgeEmit k s = .next s') (hK : Keeps nv us ρ s) : Keeps nv us ρ s' := by
  unfold execPendingEdgeEmit at hx
  cases hx
  simp +contextual (maxDischargeDepth := 60) only [State.onTclk_keeps, State.pendingEdgeEmit_keeps, hK]

theorem execDeadTimeRise_keeps (k : Fin 384) (s : State) (s' : State) (hx : execDeadTimeRise k s = .next s') (hK : Keeps nv us ρ s) : Keeps nv us ρ s' := by
  unfold execDeadTimeRise at hx
  cases hx
  simp +contextual (maxDischargeDepth := 60) only [State.deadTimeRise_keeps, State.onTclk_keeps, hK]

theorem execPtStart_keeps (k : Fin 384) (v : Word) (s : State) (s' : State) (hx : execPtStart k v s = .next s') (hK : Keeps nv us ρ s) : Keeps nv us ρ s' := by
  unfold execPtStart at hx
  cases hx
  simp +contextual (maxDischargeDepth := 60) only [implies_true, State.hostWrite_keeps, State.ptCtrlWrite_keeps, hK]

theorem execPtStop_keeps (k : Fin 384) (v : Word) (s : State) (s' : State) (hx : execPtStop k v s = .next s') (hK : Keeps nv us ρ s) : Keeps nv us ρ s' := by
  unfold execPtStop at hx
  cases hx
  simp +contextual (maxDischargeDepth := 60) only [implies_true, State.hostWrite_keeps, State.ptCtrlWrite_keeps, hK]

theorem execPtRestart_keeps (k : Fin 384) (s : State) (s' : State) (hx : execPtRestart k s = .next s') (hK : Keeps nv us ρ s) : Keeps nv us ρ s' := by
  unfold execPtRestart at hx
  cases hx
  simp +contextual (maxDischargeDepth := 60) only [State.onTclk_keeps, State.ptRestart_keeps, hK]

theorem execPtCmdWrite_keeps (k : Fin 384) (v : Word) (s : State) (s' : State) (hx : execPtCmdWrite k v s = .next s') (hK : Keeps nv us ρ s) : Keeps nv us ρ s' := by
  unfold execPtCmdWrite at hx
  cases hx
  simp +contextual (maxDischargeDepth := 60) only [implies_true, State.hostWrite_keeps, State.ptCmdWrite_keeps, hK]

theorem execPtEmitRead_keeps (k : Fin 384) (s : State) (s' : State) (hx : execPtEmitRead k s = .next s') (hK : Keeps nv us ρ s) : Keeps nv us ρ s' := by
  unfold execPtEmitRead at hx
  cases hx
  simp +contextual (maxDischargeDepth := 60) only [implies_true, State.hostRead_keeps, State.ptEmitRead_keeps, hK]

theorem execLineSwap_keeps (k : Fin 384) (s : State) (s' : State) (hx : execLineSwap k s = .next s') (hK : Keeps nv us ρ s) : Keeps nv us ρ s' := by
  unfold execLineSwap at hx
  cases hx
  simp +contextual (maxDischargeDepth := 60) only [State.lineSwap_keeps, State.onTclk_keeps, hK]

theorem execCalSlotStart_keeps (s : State) (s' : State) (hx : execCalSlotStart s = .next s') (hK : Keeps nv us ρ s) : Keeps nv us ρ s' := by
  unfold execCalSlotStart at hx
  cases hx
  simp +contextual (maxDischargeDepth := 60) only [State.calSlotStart_keeps, State.onTclk_keeps, hK]

theorem execCalMeasurementDone_keeps (p0 : BitVec 16) (q : QuarterTaps) (s : State) (s' : State) (hx : execCalMeasurementDone p0 q s = .next s') (hK : Keeps nv us ρ s) : Keeps nv us ρ s' := by
  unfold execCalMeasurementDone at hx
  cases hx
  simp +contextual (maxDischargeDepth := 60) only [State.calMeasurementDone_keeps, State.onTclk_keeps, hK]

theorem execInitialRoundEnd_keeps (s : State) (s' : State) (hx : execInitialRoundEnd s = .next s') (hK : Keeps nv us ρ s) : Keeps nv us ρ s' := by
  unfold execInitialRoundEnd at hx
  cases hx
  simp +contextual (maxDischargeDepth := 60) only [State.initialRoundEnd_keeps, State.onTclk_keeps, hK]

theorem execCalStaleExpiry_keeps (k : Fin 384) (s : State) (s' : State) (hx : execCalStaleExpiry k s = .next s') (hK : Keeps nv us ρ s) : Keeps nv us ρ s' := by
  unfold execCalStaleExpiry at hx
  cases hx
  simp +contextual (maxDischargeDepth := 60) only [State.calStaleExpiry_keeps, State.onTclk_keeps, hK]

theorem execTdcAgeExpiry_keeps (k : Fin 384) (s : State) (s' : State) (hx : execTdcAgeExpiry k s = .next s') (hK : Keeps nv us ρ s) : Keeps nv us ρ s' := by
  unfold execTdcAgeExpiry at hx
  cases hx
  simp +contextual (maxDischargeDepth := 60) only [State.onTclk_keeps, State.tdcAgeExpiry_keeps, hK]

theorem execCalCtrlWrite_keeps (v : Word) (s : State) (s' : State) (hx : execCalCtrlWrite v s = .next s') (hK : Keeps nv us ρ s) : Keeps nv us ρ s' := by
  unfold execCalCtrlWrite at hx
  cases hx
  simp +contextual (maxDischargeDepth := 60) only [implies_true, State.calCtrlWrite_keeps, State.hostWrite_keeps, hK]

theorem execCaptureStore_keeps (k : Fin 384) (s : State) (s' : State) (hx : execCaptureStore k s = .next s') (hK : Keeps nv us ρ s) : Keeps nv us ρ s' := by
  unfold execCaptureStore at hx
  cases hx
  simp +contextual (maxDischargeDepth := 60) only [State.captureStore_keeps, State.onTclk_keeps, hK]

theorem execCapArm_keeps (k : Fin 384) (v : Word) (s : State) (s' : State) (hx : execCapArm k v s = .next s') (hK : Keeps nv us ρ s) : Keeps nv us ρ s' := by
  unfold execCapArm at hx
  cases hx
  simp +contextual (maxDischargeDepth := 60) only [implies_true, State.capCtrlWrite_keeps, State.hostWrite_keeps, hK]

theorem execCapDisarm_keeps (k : Fin 384) (v : Word) (s : State) (s' : State) (hx : execCapDisarm k v s = .next s') (hK : Keeps nv us ρ s) : Keeps nv us ρ s' := by
  unfold execCapDisarm at hx
  cases hx
  simp +contextual (maxDischargeDepth := 60) only [implies_true, State.capCtrlWrite_keeps, State.hostWrite_keeps, hK]

theorem execCapRiseLoRead_keeps (k : Fin 384) (s : State) (s' : State) (hx : execCapRiseLoRead k s = .next s') (hK : Keeps nv us ρ s) : Keeps nv us ρ s' := by
  unfold execCapRiseLoRead at hx
  cases hx
  simp +contextual (maxDischargeDepth := 60) only [implies_true, State.capRiseLoRead_keeps, State.hostRead_keeps, hK]

theorem execRekeyPass_keeps (n : Fin 24) (slot : Fin 256) (s : State) (s' : State) (hx : execRekeyPass n slot s = .next s') (hK : Keeps nv us ρ s) : Keeps nv us ρ s' := by
  unfold execRekeyPass at hx
  cases hx
  simp +contextual (maxDischargeDepth := 60) only [State.onTclk_keeps, State.rekeySlot_keeps, hK]

theorem execCycleRekey_keeps (n : Fin 24) (slot : Fin 256) (s : State) (s' : State) (hx : execCycleRekey n slot s = .next s') (hK : Keeps nv us ρ s) : Keeps nv us ρ s' := by
  unfold execCycleRekey at hx
  cases hx
  simp +contextual (maxDischargeDepth := 60) only [State.onTclk_keeps, State.rekeySlot_keeps, hK]

theorem execStartDispatch_keeps (n : Fin 24) (s : State) (s' : State) (hx : execStartDispatch n s = .next s') (hK : Keeps nv us ρ s) : Keeps nv us ρ s' := by
  unfold execStartDispatch at hx
  cases hx
  simp +contextual (maxDischargeDepth := 60) only [State.onTclk_keeps, State.startDispatch_keeps, hK]

theorem execEndDispatch_keeps (n : Fin 24) (s : State) (s' : State) (hx : execEndDispatch n s = .next s') (hK : Keeps nv us ρ s) : Keeps nv us ρ s' := by
  unfold execEndDispatch at hx
  cases hx
  simp +contextual (maxDischargeDepth := 60) only [State.endDispatch_keeps, State.onTclk_keeps, hK]

theorem execPostGo_keeps (n : Fin 24) (v : Word) (s : State) (s' : State) (hx : execPostGo n v s = .next s') (hK : Keeps nv us ρ s) : Keeps nv us ρ s' := by
  unfold execPostGo at hx
  cases hx
  simp +contextual (maxDischargeDepth := 60) only [implies_true, State.hostWrite_keeps, State.postGo_keeps, hK]

theorem execInsertionComplete_keeps (n : Fin 24) (slot : Fin 256) (s : State) (s' : State) (hx : execInsertionComplete n slot s = .next s') (hK : Keeps nv us ρ s) : Keeps nv us ρ s' := by
  unfold execInsertionComplete at hx
  cases hx
  simp +contextual (maxDischargeDepth := 60) only [State.insertionComplete_keeps, State.onTclk_keeps, hK]

theorem execDroppedSyncRetire_keeps (n : Fin 24) (slot : Fin 256) (s : State) (s' : State) (hx : execDroppedSyncRetire n slot s = .next s') (hK : Keeps nv us ρ s) : Keeps nv us ρ s' := by
  unfold execDroppedSyncRetire at hx
  cases hx
  simp +contextual (maxDischargeDepth := 60) only [State.droppedSync_keeps, State.onTclk_keeps, hK]

theorem execCancelGo_keeps (n : Fin 24) (v : Word) (s : State) (s' : State) (hx : execCancelGo n v s = .next s') (hK : Keeps nv us ρ s) : Keeps nv us ρ s' := by
  unfold execCancelGo at hx
  cases hx
  simp +contextual (maxDischargeDepth := 60) only [implies_true, State.cancelGo_keeps, State.hostWrite_keeps, hK]

theorem execCancelPass_keeps (n : Fin 24) (slot : Fin 256) (s : State) (s' : State) (hx : execCancelPass n slot s = .next s') (hK : Keeps nv us ρ s) : Keeps nv us ρ s' := by
  unfold execCancelPass at hx
  cases hx
  simp +contextual (maxDischargeDepth := 60) only [State.cancelPass_keeps, State.onTclk_keeps, hK]

theorem execLedgerTake_keeps (n : Fin 24) (v : Word) (s : State) (s' : State) (hx : execLedgerTake n v s = .next s') (hK : Keeps nv us ρ s) : Keeps nv us ρ s' := by
  unfold execLedgerTake at hx
  cases hx
  simp +contextual (maxDischargeDepth := 60) only [implies_true, State.hostWrite_keeps, State.ledgerTake_keeps, hK]

theorem execEstimatePublication_keeps (sh : Fin 16) (s : State) (s' : State) (hx : execEstimatePublication sh s = .next s') (hK : Keeps nv us ρ s) : Keeps nv us ρ s' := by
  unfold execEstimatePublication at hx
  cases hx
  simp +contextual (maxDischargeDepth := 60) only [State.onTclk_keeps, State.publish_keeps, hK]

theorem execDirectionChange_keeps (sh : Fin 16) (s : State) (s' : State) (hx : execDirectionChange sh s = .next s') (hK : Keeps nv us ρ s) : Keeps nv us ρ s' := by
  unfold execDirectionChange at hx
  cases hx
  simp +contextual (maxDischargeDepth := 60) only [State.directionChange_keeps, State.onTclk_keeps, hK]

theorem execToothJudge_keeps (sh : Fin 16) (s : State) (s' : State) (hx : execToothJudge sh s = .next s') (hK : Keeps nv us ρ s) : Keeps nv us ρ s' := by
  unfold execToothJudge at hx
  cases hx
  simp +contextual (maxDischargeDepth := 60) only [State.onTclk_keeps, State.toothJudge_keeps, hK]

theorem execStall_keeps (sh : Fin 16) (s : State) (s' : State) (hx : execStall sh s = .next s') (hK : Keeps nv us ρ s) : Keeps nv us ρ s' := by
  unfold execStall at hx
  cases hx
  simp +contextual (maxDischargeDepth := 60) only [State.onTclk_keeps, State.stall_keeps, hK]

theorem execSyntheticTooth_keeps (sh : Fin 16) (s : State) (s' : State) (hx : execSyntheticTooth sh s = .next s') (hK : Keeps nv us ρ s) : Keeps nv us ρ s' := by
  unfold execSyntheticTooth at hx
  cases hx
  simp +contextual (maxDischargeDepth := 60) only [State.onTclk_keeps, State.syntheticTooth_keeps, hK]

theorem execHistoryWrite_keeps (sh : Fin 16) (s : State) (s' : State) (hx : execHistoryWrite sh s = .next s') (hK : Keeps nv us ρ s) : Keeps nv us ρ s' := by
  unfold execHistoryWrite at hx
  cases hx
  simp +contextual (maxDischargeDepth := 60) only [State.historyWrite_keeps, State.onTclk_keeps, hK]

theorem execMarker_keeps (sh : Fin 16) (stamp : Stamp) (s : State) (s' : State) (hx : execMarker sh stamp s = .next s') (hK : Keeps nv us ρ s) : Keeps nv us ρ s' := by
  unfold execMarker at hx
  cases hx
  simp +contextual (maxDischargeDepth := 60) only [State.marker_keeps, State.onTclk_keeps, hK]

theorem execCycleSet_keeps (sh : Fin 16) (v : Word) (s : State) (s' : State) (hx : execCycleSet sh v s = .next s') (hK : Keeps nv us ρ s) : Keeps nv us ρ s' := by
  unfold execCycleSet at hx
  cases hx
  simp +contextual (maxDischargeDepth := 60) only [implies_true, State.cycleSet_keeps, State.hostWrite_keeps, hK]

theorem execCycleRevStep_keeps (sh : Fin 16) (reverse : Bool) (s : State) (s' : State) (hx : execCycleRevStep sh reverse s = .next s') (hK : Keeps nv us ρ s) : Keeps nv us ρ s' := by
  unfold execCycleRevStep at hx
  cases hx
  simp +contextual (maxDischargeDepth := 60) only [State.cycleRevStep_keeps, State.onTclk_keeps, hK]

theorem execGenApply_keeps (sh : Fin 16) (v : Word) (s : State) (s' : State) (hx : execGenApply sh v s = .next s') (hK : Keeps nv us ρ s) : Keeps nv us ρ s' := by
  unfold execGenApply at hx
  cases hx
  simp +contextual (maxDischargeDepth := 60) only [implies_true, State.genWrite_keeps, State.hostWrite_keeps, hK]

theorem execGenLoad_keeps (sh : Fin 16) (v : Word) (s : State) (s' : State) (hx : execGenLoad sh v s = .next s') (hK : Keeps nv us ρ s) : Keeps nv us ρ s' := by
  unfold execGenLoad at hx
  cases hx
  simp +contextual (maxDischargeDepth := 60) only [implies_true, State.genWrite_keeps, State.hostWrite_keeps, hK]

theorem execGenTargetReached_keeps (sh : Fin 16) (s : State) (s' : State) (hx : execGenTargetReached sh s = .next s') (hK : Keeps nv us ρ s) : Keeps nv us ρ s' := by
  unfold execGenTargetReached at hx
  cases hx
  simp +contextual (maxDischargeDepth := 60) only [State.genTargetReached_keeps, State.onTclk_keeps, hK]

theorem execVirtualTooth_keeps (sh : Fin 16) (s : State) (s' : State) (hx : execVirtualTooth sh s = .next s') (hK : Keeps nv us ρ s) : Keeps nv us ρ s' := by
  unfold execVirtualTooth at hx
  cases hx
  simp +contextual (maxDischargeDepth := 60) only [State.onTclk_keeps, State.virtualTooth_keeps, hK]

theorem execShaftSnapTake_keeps (sh : Fin 16) (v : Word) (s : State) (s' : State) (hx : execShaftSnapTake sh v s = .next s') (hK : Keeps nv us ρ s) : Keeps nv us ρ s' := by
  unfold execShaftSnapTake at hx
  cases hx
  simp +contextual (maxDischargeDepth := 60) only [implies_true, State.hostWrite_keeps, State.shaftSnap_keeps, hK]

theorem execInputEdge_keeps (k : Fin 384) (fine : BitVec 6) (level : Bool) (s : State) (s' : State) (hx : execInputEdge k fine level s = .next s') (hK : Keeps nv us ρ s) : Keeps nv us ρ s' := by
  unfold execInputEdge at hx
  cases hx
  simp +contextual (maxDischargeDepth := 60) only [State.inputEdge_keeps, State.onTclk_keeps, hK]

theorem execPinSelWrite_keeps (addr : Nat) (v : Word) (s : State) (s' : State) (hx : execPinSelWrite addr v s = .next s') (hK : Keeps nv us ρ s) : Keeps nv us ρ s' := by
  unfold execPinSelWrite at hx
  cases hx
  simp +contextual (maxDischargeDepth := 60) only [implies_true, State.hostWrite_keeps, State.pinSelWrite_keeps, hK]

theorem execRingEntryWritten_keeps (r : Fin 64) (s : State) (s' : State) (hx : execRingEntryWritten r s = .next s') (hK : Keeps nv us ρ s) : Keeps nv us ρ s' := by
  unfold execRingEntryWritten at hx
  cases hx
  simp +contextual (maxDischargeDepth := 60) only [State.entryWritten_keeps, State.onTclk_keeps, hK]

theorem execRingCfgWrite_keeps (r : Fin 64) (base : Bool) (v : Word) (s : State) (s' : State) (hx : execRingCfgWrite r base v s = .next s') (hK : Keeps nv us ρ s) : Keeps nv us ρ s' := by
  unfold execRingCfgWrite at hx
  cases hx
  simp +contextual (maxDischargeDepth := 60) only [implies_true, State.hostWrite_keeps, State.ringCfgWrite_keeps, hK]

theorem execHostCommit_keeps (r : Fin 64) (v : Word) (s : State) (s' : State) (hx : execHostCommit r v s = .next s') (hK : Keeps nv us ρ s) : Keeps nv us ρ s' := by
  unfold execHostCommit at hx
  cases hx
  simp +contextual (maxDischargeDepth := 60) only [implies_true, State.hostCommit_keeps, State.hostWrite_keeps, hK]

theorem execHostRelease_keeps (r : Fin 64) (v : Word) (s : State) (s' : State) (hx : execHostRelease r v s = .next s') (hK : Keeps nv us ρ s) : Keeps nv us ρ s' := by
  unfold execHostRelease at hx
  cases hx
  simp +contextual (maxDischargeDepth := 60) only [implies_true, State.hostRelease_keeps, State.hostWrite_keeps, hK]

theorem execXferPush_keeps (v : Word) (s : State) (s' : State) (hx : execXferPush v s = .next s') (hK : Keeps nv us ρ s) : Keeps nv us ρ s' := by
  unfold execXferPush at hx
  cases hx
  simp +contextual (maxDischargeDepth := 60) only [implies_true, State.hostWrite_keeps, State.xferWrite_keeps, hK]

theorem execXferPop_keeps (v : Word) (s : State) (s' : State) (hx : execXferPop v s = .next s') (hK : Keeps nv us ρ s) : Keeps nv us ρ s' := by
  unfold execXferPop at hx
  cases hx
  simp +contextual (maxDischargeDepth := 60) only [implies_true, State.hostWrite_keeps, State.xferWrite_keeps, hK]

theorem execRingSnapTake_keeps (v : Word) (s : State) (s' : State) (hx : execRingSnapTake v s = .next s') (hK : Keeps nv us ρ s) : Keeps nv us ρ s' := by
  unfold execRingSnapTake at hx
  cases hx
  simp +contextual (maxDischargeDepth := 60) only [implies_true, State.hostWrite_keeps, State.ringSnap_keeps, hK]

theorem execPcArm_keeps (j : Fin 32) (v : Word) (s : State) (s' : State) (hx : execPcArm j v s = .next s') (hK : Keeps nv us ρ s) : Keeps nv us ρ s' := by
  unfold execPcArm at hx
  cases hx
  simp +contextual (maxDischargeDepth := 60) only [implies_true, State.hostWrite_keeps, State.pcCtrlWrite_keeps, hK]

theorem execPcDisarm_keeps (j : Fin 32) (v : Word) (s : State) (s' : State) (hx : execPcDisarm j v s = .next s') (hK : Keeps nv us ρ s) : Keeps nv us ρ s' := by
  unfold execPcDisarm at hx
  cases hx
  simp +contextual (maxDischargeDepth := 60) only [implies_true, State.hostWrite_keeps, State.pcCtrlWrite_keeps, hK]

theorem execPcImmediateFire_keeps (j : Fin 32) (s : State) (s' : State) (hx : execPcImmediateFire j s = .next s') (hK : Keeps nv us ρ s) : Keeps nv us ρ s' := by
  unfold execPcImmediateFire at hx
  cases hx
  simp +contextual (maxDischargeDepth := 60) only [State.onTclk_keeps, State.pcImmediate_keeps, hK]

theorem execPcShaftCrossing_keeps (j : Fin 32) (s : State) (s' : State) (hx : execPcShaftCrossing j s = .next s') (hK : Keeps nv us ρ s) : Keeps nv us ρ s' := by
  unfold execPcShaftCrossing at hx
  cases hx
  simp +contextual (maxDischargeDepth := 60) only [State.onTclk_keeps, State.pcShaftCrossing_keeps, hK]

theorem execCulvertRegenState_keeps (i : Fin 8) (s : State) (s' : State) (hx : execCulvertRegenState i s = .next s') (hK : Keeps nv us ρ s) : Keeps nv us ρ s' := by
  unfold execCulvertRegenState at hx
  cases hx
  simp +contextual (maxDischargeDepth := 60) only [State.cvRegen_keeps, State.onTclk_keeps, hK]

theorem execCulvertRawChange_keeps (i : Fin 8) (a b z : Bool) (s : State) (s' : State) (hx : execCulvertRawChange i a b z s = .next s') (hK : Keeps nv us ρ s) : Keeps nv us ρ s' := by
  unfold execCulvertRawChange at hx
  cases hx
  simp +contextual (maxDischargeDepth := 60) only [State.cvRaw_keeps, State.onTclk_keeps, hK]

theorem execIndexEdge_keeps (f : Fin 16) (rising : Bool) (stamp : Stamp) (s : State) (s' : State) (hx : execIndexEdge f rising stamp s = .next s') (hK : Keeps nv us ρ s) : Keeps nv us ρ s' := by
  unfold execIndexEdge at hx
  cases hx
  simp +contextual (maxDischargeDepth := 60) only [State.indexInput_keeps, State.onTclk_keeps, hK]

theorem execQencEdge_keeps (i : Fin 8) (isB a b : Bool) (stamp : Stamp) (s : State) (s' : State) (hx : execQencEdge i isB a b stamp s = .next s') (hK : Keeps nv us ρ s) : Keeps nv us ρ s' := by
  unfold execQencEdge at hx
  cases hx
  simp +contextual (maxDischargeDepth := 60) only [State.onTclk_keeps, State.qencEdge_keeps, hK]

theorem execQencResample_keeps (i : Fin 8) (a b : Bool) (s : State) (s' : State) (hx : execQencResample i a b s = .next s') (hK : Keeps nv us ρ s) : Keeps nv us ρ s' := by
  unfold execQencResample at hx
  cases hx
  simp +contextual (maxDischargeDepth := 60) only [State.onTclk_keeps, State.qencResample_keeps, hK]

theorem execAencSample_keeps (i : Fin 8) (s0 c0 : BitVec 12) (s : State) (s' : State) (hx : execAencSample i s0 c0 s = .next s') (hK : Keeps nv us ρ s) : Keeps nv us ρ s' := by
  unfold execAencSample at hx
  cases hx
  simp +contextual (maxDischargeDepth := 60) only [State.aencSample_keeps, State.onTclk_keeps, hK]

theorem execAencSampleProcessed_keeps (i : Fin 8) (s : State) (s' : State) (hx : execAencSampleProcessed i s = .next s') (hK : Keeps nv us ρ s) : Keeps nv us ρ s' := by
  unfold execAencSampleProcessed at hx
  cases hx
  simp +contextual (maxDischargeDepth := 60) only [State.aencProcess_keeps, State.onTclk_keeps, hK]

theorem execSsiFrameStart_keeps (i : Fin 8) (idleHigh : Bool) (s : State) (s' : State) (hx : execSsiFrameStart i idleHigh s = .next s') (hK : Keeps nv us ρ s) : Keeps nv us ρ s' := by
  unfold execSsiFrameStart at hx
  cases hx
  simp +contextual (maxDischargeDepth := 60) only [State.onTclk_keeps, State.ssiStart_keeps, hK]

theorem execSsiFrameEnd_keeps (i : Fin 8) (bits : BitVec 48) (endLow : Bool) (s : State) (s' : State) (hx : execSsiFrameEnd i bits endLow s = .next s') (hK : Keeps nv us ρ s) : Keeps nv us ρ s' := by
  unfold execSsiFrameEnd at hx
  cases hx
  simp +contextual (maxDischargeDepth := 60) only [State.onTclk_keeps, State.ssiEnd_keeps, hK]

theorem execSpeedGateEnd_keeps (f : Fin 24) (s : State) (s' : State) (hx : execSpeedGateEnd f s = .next s') (hK : Keeps nv us ρ s) : Keeps nv us ρ s' := by
  unfold execSpeedGateEnd at hx
  cases hx
  simp +contextual (maxDischargeDepth := 60) only [State.onTclk_keeps, State.speedGateEnd_keeps, hK]

theorem execSpeedTimeout_keeps (f : Fin 24) (s : State) (s' : State) (hx : execSpeedTimeout f s = .next s') (hK : Keeps nv us ρ s) : Keeps nv us ρ s' := by
  unfold execSpeedTimeout at hx
  cases hx
  simp +contextual (maxDischargeDepth := 60) only [State.onTclk_keeps, State.speedTimeout_keeps, hK]

theorem execPosRead_keeps (f : Fin 24) (s : State) (s' : State) (hx : execPosRead f s = .next s') (hK : Keeps nv us ρ s) : Keeps nv us ρ s' := by
  unfold execPosRead at hx
  cases hx
  simp +contextual (maxDischargeDepth := 60) only [implies_true, State.hostRead_keeps, State.posRead_keeps, hK]

theorem execFeedbackCfgWrite_keeps (addr : Nat) (v : Word) (s : State) (s' : State) (hx : execFeedbackCfgWrite addr v s = .next s') (hK : Keeps nv us ρ s) : Keeps nv us ρ s' := by
  unfold execFeedbackCfgWrite at hx
  cases hx
  simp +contextual (maxDischargeDepth := 60) only [implies_true, State.fbCfgWrite_keeps, State.hostWrite_keeps, hK]

theorem execShCtrlWrite_keeps (sh : Fin 16) (off : Nat) (v : Word) (s : State) (s' : State) (hx : execShCtrlWrite sh off v s = .next s') (hK : Keeps nv us ρ s) : Keeps nv us ρ s' := by
  unfold execShCtrlWrite at hx
  cases hx
  simp +contextual (maxDischargeDepth := 60) only [implies_true, State.hostWrite_keeps, State.shWrite_keeps, hK]

theorem execAdcReq_keeps (v : Word) (s : State) (s' : State) (hx : execAdcReq v s = .next s') (hK : Keeps nv us ρ s) : Keeps nv us ρ s' := by
  unfold execAdcReq at hx
  cases hx
  simp +contextual (maxDischargeDepth := 60) only [implies_true, State.adcReqWrite_keeps, State.hostWrite_keeps, hK]

theorem execAdcRequestArrival_keeps (s : State) (s' : State) (hx : execAdcRequestArrival s = .next s') (hK : Keeps nv us ρ s) : Keeps nv us ρ s' := by
  unfold execAdcRequestArrival at hx
  cases hx
  simp +contextual (maxDischargeDepth := 60) only [State.adcArrival_keeps, State.onTclk_keeps, hK]

theorem execAdcStartupEnd_keeps (c : Fin 4) (s : State) (s' : State) (hx : execAdcStartupEnd c s = .next s') (hK : Keeps nv us ρ s) : Keeps nv us ρ s' := by
  unfold execAdcStartupEnd at hx
  cases hx
  simp +contextual (maxDischargeDepth := 60) only [State.adcStartupEnd_keeps, State.onTclk_keeps, hK]

theorem execAdcAcqStart_keeps (c : Fin 4) (s : State) (s' : State) (hx : execAdcAcqStart c s = .next s') (hK : Keeps nv us ρ s) : Keeps nv us ρ s' := by
  unfold execAdcAcqStart at hx
  cases hx
  simp +contextual (maxDischargeDepth := 60) only [State.adcAcqStart_keeps, State.onTclk_keeps, hK]

theorem execAdcHold_keeps (c : Fin 4) (s : State) (s' : State) (hx : execAdcHold c s = .next s') (hK : Keeps nv us ρ s) : Keeps nv us ρ s' := by
  unfold execAdcHold at hx
  cases hx
  simp +contextual (maxDischargeDepth := 60) only [State.adcHold_keeps, State.onTclk_keeps, hK]

theorem execConversionDelivery_keeps (c : Fin 4) (raw : BitVec 12) (s : State) (s' : State) (hx : execConversionDelivery c raw s = .next s') (hK : Keeps nv us ρ s) : Keeps nv us ρ s' := by
  unfold execConversionDelivery at hx
  cases hx
  simp +contextual (maxDischargeDepth := 60) only [State.adcDeliver_keeps, State.onTclk_keeps, hK]

theorem execAdcIdleOff_keeps (c : Fin 4) (s : State) (s' : State) (hx : execAdcIdleOff c s = .next s') (hK : Keeps nv us ρ s) : Keeps nv us ρ s' := by
  unfold execAdcIdleOff at hx
  cases hx
  simp +contextual (maxDischargeDepth := 60) only [State.adcIdleOff_keeps, State.onTclk_keeps, hK]

theorem execAccRdcLoRead_keeps (k : Fin 64) (s : State) (s' : State) (hx : execAccRdcLoRead k s = .next s') (hK : Keeps nv us ρ s) : Keeps nv us ρ s' := by
  unfold execAccRdcLoRead at hx
  cases hx
  simp +contextual (maxDischargeDepth := 60) only [implies_true, State.accRead_keeps, State.hostRead_keeps, hK]

theorem execAccRdLoRead_keeps (k : Fin 64) (s : State) (s' : State) (hx : execAccRdLoRead k s = .next s') (hK : Keeps nv us ρ s) : Keeps nv us ρ s' := by
  unfold execAccRdLoRead at hx
  cases hx
  simp +contextual (maxDischargeDepth := 60) only [implies_true, State.accRead_keeps, State.hostRead_keeps, hK]

theorem execMmRdcRead_keeps (k : Fin 64) (s : State) (s' : State) (hx : execMmRdcRead k s = .next s') (hK : Keeps nv us ρ s) : Keeps nv us ρ s' := by
  unfold execMmRdcRead at hx
  cases hx
  simp +contextual (maxDischargeDepth := 60) only [implies_true, State.hostRead_keeps, State.mmReset_keeps, hK]

theorem execAccCfgWrite_keeps (k : Fin 64) (v : Word) (s : State) (s' : State) (hx : execAccCfgWrite k v s = .next s') (hK : Keeps nv us ρ s) : Keeps nv us ρ s' := by
  unfold execAccCfgWrite at hx
  cases hx
  simp +contextual (maxDischargeDepth := 60) only [implies_true, State.accCfgWrite_keeps, State.hostWrite_keeps, hK]

theorem execAdcSnapTake_keeps (v : Word) (s : State) (s' : State) (hx : execAdcSnapTake v s = .next s') (hK : Keeps nv us ρ s) : Keeps nv us ρ s' := by
  unfold execAdcSnapTake at hx
  cases hx
  simp +contextual (maxDischargeDepth := 60) only [implies_true, State.adcSnap_keeps, State.hostWrite_keeps, hK]

theorem execTrapWord_keeps (n : Fin 24) (s : State) (s' : State) (hx : execTrapWord n s = .next s') (hK : Keeps nv us ρ s) : Keeps nv us ρ s' := by
  unfold execTrapWord at hx
  cases hx
  simp +contextual (maxDischargeDepth := 60) only [State.onTclk_keeps, State.trap_keeps, hK]

theorem execPoll_keeps (n : Fin 24) (s : State) (s' : State) (hx : execPoll n s = .next s') (hK : Keeps nv us ρ s) : Keeps nv us ρ s' := by
  unfold execPoll at hx
  cases hx
  simp +contextual (maxDischargeDepth := 60) only [State.onTclk_keeps, State.poll_keeps, hK]

theorem execMicroBranch_keeps (n : Fin 24) (cond : Bool) (s : State) (s' : State) (hx : execMicroBranch n cond s = .next s') (hK : Keeps nv us ρ s) : Keeps nv us ρ s' := by
  unfold execMicroBranch at hx
  cases hx
  simp +contextual (maxDischargeDepth := 60) only [State.microBranch_keeps, State.onTclk_keeps, hK]

theorem execDatapathMicroword_keeps (n : Fin 24) (parityError : Bool) (s : State) (s' : State) (hx : execDatapathMicroword n parityError s = .next s') (hK : Keeps nv us ρ s) : Keeps nv us ρ s' := by
  unfold execDatapathMicroword at hx
  cases hx
  simp +contextual (maxDischargeDepth := 60) only [State.datapathMicroword_keeps, State.onTclk_keeps, hK]

theorem execThreadReady_keeps (n : Fin 24) (t : Fin 16) (s : State) (s' : State) (hx : execThreadReady n t s = .next s') (hK : Keeps nv us ρ s) : Keeps nv us ρ s' := by
  unfold execThreadReady at hx
  cases hx
  simp +contextual (maxDischargeDepth := 60) only [State.onTclk_keeps, State.threadReady_keeps, hK]

theorem execReservoirAccessComplete_keeps (n : Fin 24) (t : Fin 16) (s : State) (s' : State) (hx : execReservoirAccessComplete n t s = .next s') (hK : Keeps nv us ρ s) : Keeps nv us ρ s' := by
  unfold execReservoirAccessComplete at hx
  cases hx
  simp +contextual (maxDischargeDepth := 60) only [State.accessComplete_keeps, State.onTclk_keeps, hK]

theorem execThStart_keeps (n : Fin 24) (t : Fin 16) (v : Word) (s : State) (s' : State) (hx : execThStart n t v s = .next s') (hK : Keeps nv us ρ s) : Keeps nv us ρ s' := by
  unfold execThStart at hx
  cases hx
  simp +contextual (maxDischargeDepth := 60) only [implies_true, State.hostWrite_keeps, State.thCtrlWrite_keeps, hK]

theorem execThHalt_keeps (n : Fin 24) (t : Fin 16) (v : Word) (s : State) (s' : State) (hx : execThHalt n t v s = .next s') (hK : Keeps nv us ρ s) : Keeps nv us ρ s' := by
  unfold execThHalt at hx
  cases hx
  simp +contextual (maxDischargeDepth := 60) only [implies_true, State.hostWrite_keeps, State.thCtrlWrite_keeps, hK]

theorem execThContextWrite_keeps (n : Fin 24) (t : Fin 16) (off : Nat) (v : Word) (s : State) (s' : State) (hx : execThContextWrite n t off v s = .next s') (hK : Keeps nv us ρ s) : Keeps nv us ρ s' := by
  unfold execThContextWrite at hx
  cases hx
  simp +contextual (maxDischargeDepth := 60) only [implies_true, State.hostWrite_keeps, State.thContextWrite_keeps, hK]

theorem execLinkChange_keeps (p : Fin 2) (up : Bool) (s : State) (s' : State) (hx : execLinkChange p up s = .next s') (hK : Keeps nv us ρ s) : Keeps nv us ρ s' := by
  unfold execLinkChange at hx
  cases hx
  simp +contextual (maxDischargeDepth := 60) only [State.linkChange_keeps, State.onTclk_keeps, hK]

theorem execPortCtrlWrite_keeps (p : Fin 2) (off : Nat) (v : Word) (s : State) (s' : State) (hx : execPortCtrlWrite p off v s = .next s') (hK : Keeps nv us ρ s) : Keeps nv us ρ s' := by
  unfold execPortCtrlWrite at hx
  cases hx
  simp +contextual (maxDischargeDepth := 60) only [implies_true, State.hostWrite_keeps, State.portCtrlWrite_keeps, hK]

theorem execArpRequest_keeps (a : Arrival) (k : ArpKind) (senderIp : Word) (senderMac : BitVec 48) (s : State) (s' : State) (hx : execArpRequest a k senderIp senderMac s = .next s') (hK : Keeps nv us ρ s) : Keeps nv us ρ s' := by
  unfold execArpRequest at hx
  cases hx
  simp +contextual (maxDischargeDepth := 60) only [State.arpPacket_keeps, State.onTclk_keeps, hK]

theorem execIcmpEcho_keeps (a : Arrival) (target senderIp : Word) (body : List Byte) (s : State) (s' : State) (hx : execIcmpEcho a target senderIp body s = .next s') (hK : Keeps nv us ρ s) : Keeps nv us ρ s' := by
  unfold execIcmpEcho at hx
  cases hx
  simp +contextual (maxDischargeDepth := 60) only [State.icmpEcho_keeps, State.onTclk_keeps, hK]

theorem execGptpSync_keeps (a : Arrival) (m : PtpMessage) (correction : BitVec 32) (s : State) (s' : State) (hx : execGptpSync a m correction s = .next s') (hK : Keeps nv us ρ s) : Keeps nv us ρ s' := by
  unfold execGptpSync at hx
  cases hx
  simp +contextual (maxDischargeDepth := 60) only [State.gptpSync_keeps, State.onTclk_keeps, hK]

theorem execSyncTimeout_keeps (s : State) (s' : State) (hx : execSyncTimeout s = .next s') (hK : Keeps nv us ρ s) : Keeps nv us ρ s' := by
  unfold execSyncTimeout at hx
  cases hx
  simp +contextual (maxDischargeDepth := 60) only [State.onTclk_keeps, State.syncTimeout_keeps, hK]

theorem execBmcaGrandmaster_keeps (s : State) (s' : State) (hx : execBmcaGrandmaster s = .next s') (hK : Keeps nv us ρ s) : Keeps nv us ρ s' := by
  unfold execBmcaGrandmaster at hx
  cases hx
  simp +contextual (maxDischargeDepth := 60) only [State.bmcaGrandmaster_keeps, State.onTclk_keeps, hK]

theorem execGptpAnnounce_keeps (p : Fin 2) (f : RxFrame) (v : PriorityVector) (s : State) (s' : State) (hx : execGptpAnnounce p f v s = .next s') (hK : Keeps nv us ρ s) : Keeps nv us ρ s' := by
  unfold execGptpAnnounce at hx
  cases hx
  simp +contextual (maxDischargeDepth := 60) only [State.gptpAnnounce_keeps, State.onTclk_keeps, hK]

theorem execGptpSyncSend_keeps (p : Fin 2) (s : State) (s' : State) (hx : execGptpSyncSend p s = .next s') (hK : Keeps nv us ρ s) : Keeps nv us ρ s' := by
  unfold execGptpSyncSend at hx
  cases hx
  simp +contextual (maxDischargeDepth := 60) only [State.gptpSyncSend_keeps, State.onTclk_keeps, hK]

theorem execTsSnapTake_keeps (v : Word) (s : State) (s' : State) (hx : execTsSnapTake v s = .next s') (hK : Keeps nv us ρ s) : Keeps nv us ρ s' := by
  unfold execTsSnapTake at hx
  cases hx
  simp +contextual (maxDischargeDepth := 60) only [implies_true, State.hostWrite_keeps, State.tsSnap_keeps, hK]

theorem execDiscover_keeps (a : Arrival) (ip : Word) (udp : BitVec 16) (bytes : List Byte) (s : State) (s' : State) (hx : execDiscover a ip udp bytes s = .next s') (hK : Keeps nv us ρ s) : Keeps nv us ρ s' := by
  unfold execDiscover at hx
  cases hx
  simp +contextual (maxDischargeDepth := 60) only [State.discover_keeps, State.onTclk_keeps, hK]

theorem execDiscoverSend_keeps (p : Fin 2) (s : State) (s' : State) (hx : execDiscoverSend p s = .next s') (hK : Keeps nv us ρ s) : Keeps nv us ρ s' := by
  unfold execDiscoverSend at hx
  cases hx
  simp +contextual (maxDischargeDepth := 60) only [State.discoverSend_keeps, State.onTclk_keeps, hK]

theorem execPeerAgeExpiry_keeps (p : Fin 2) (e : Fin 32) (s : State) (s' : State) (hx : execPeerAgeExpiry p e s = .next s') (hK : Keeps nv us ρ s) : Keeps nv us ρ s' := by
  unfold execPeerAgeExpiry at hx
  cases hx
  simp +contextual (maxDischargeDepth := 60) only [State.onTclk_keeps, State.peerAgeExpiry_keeps, hK]

theorem execSessionIdleExpiry_keeps (p : Fin 2) (e : Fin 32) (s : State) (s' : State) (hx : execSessionIdleExpiry p e s = .next s') (hK : Keeps nv us ρ s) : Keeps nv us ρ s' := by
  unfold execSessionIdleExpiry at hx
  cases hx
  simp +contextual (maxDischargeDepth := 60) only [State.onTclk_keeps, State.sessionIdleExpiry_keeps, hK]

theorem execUserDatagramRx_keeps (a : Arrival) (bytes : List Byte) (s : State) (s' : State) (hx : execUserDatagramRx a bytes s = .next s') (hK : Keeps nv us ρ s) : Keeps nv us ρ s' := by
  unfold execUserDatagramRx at hx
  cases hx
  simp +contextual (maxDischargeDepth := 60) only [State.onTclk_keeps, State.userRx_keeps, hK]

theorem execUserDatagramTx_keeps (p : Fin 2) (s : State) (s' : State) (hx : execUserDatagramTx p s = .next s') (hK : Keeps nv us ρ s) : Keeps nv us ρ s' := by
  unfold execUserDatagramTx at hx
  cases hx
  simp +contextual (maxDischargeDepth := 60) only [State.onTclk_keeps, State.userTx_keeps, hK]

theorem execExportSample_keeps (sh : Fin 16) (s : State) (s' : State) (hx : execExportSample sh s = .next s') (hK : Keeps nv us ρ s) : Keeps nv us ρ s' := by
  unfold execExportSample at hx
  cases hx
  simp +contextual (maxDischargeDepth := 60) only [State.exportSample_keeps, State.onTclk_keeps, hK]

theorem execShaftExport_keeps (a : Arrival) (bytes : List Byte) (s : State) (s' : State) (hx : execShaftExport a bytes s = .next s') (hK : Keeps nv us ρ s) : Keeps nv us ρ s' := by
  unfold execShaftExport at hx
  cases hx
  simp +contextual (maxDischargeDepth := 60) only [State.onTclk_keeps, State.shaftExport_keeps, hK]

theorem execImportTimeout_keeps (sh : Fin 16) (s : State) (s' : State) (hx : execImportTimeout sh s = .next s') (hK : Keeps nv us ρ s) : Keeps nv us ρ s' := by
  unfold execImportTimeout at hx
  cases hx
  simp +contextual (maxDischargeDepth := 60) only [State.importTimeout_keeps, State.onTclk_keeps, hK]

theorem execCoastLimit_keeps (sh : Fin 16) (s : State) (s' : State) (hx : execCoastLimit sh s = .next s') (hK : Keeps nv us ρ s) : Keeps nv us ρ s' := by
  unfold execCoastLimit at hx
  cases hx
  simp +contextual (maxDischargeDepth := 60) only [State.coastLimit_keeps, State.onTclk_keeps, hK]

theorem execWearEvent_keeps (w : Fin 64) (s : State) (s' : State) (hx : execWearEvent w s = .next s') (hK : Keeps nv us ρ s) : Keeps nv us ρ s' := by
  unfold execWearEvent at hx
  cases hx
  simp +contextual (maxDischargeDepth := 60) only [State.wearEvent_keeps, hK]

theorem execWearAdd_keeps (v : Word) (s : State) (s' : State) (hx : execWearAdd v s = .next s') (hK : Keeps nv us ρ s) : Keeps nv us ρ s' := by
  unfold execWearAdd at hx
  cases hx
  simp +contextual (maxDischargeDepth := 60) only [implies_true, State.hostWrite_keeps, State.wearOp_keeps, hK]

theorem execWearClr_keeps (v : Word) (s : State) (s' : State) (hx : execWearClr v s = .next s') (hK : Keeps nv us ρ s) : Keeps nv us ρ s' := by
  unfold execWearClr at hx
  cases hx
  simp +contextual (maxDischargeDepth := 60) only [implies_true, State.hostWrite_keeps, State.wearOp_keeps, hK]

theorem execWearLoRead_keeps (w : Fin 64) (s : State) (s' : State) (hx : execWearLoRead w s = .next s') (hK : Keeps nv us ρ s) : Keeps nv us ρ s' := by
  unfold execWearLoRead at hx
  cases hx
  simp +contextual (maxDischargeDepth := 60) only [implies_true, State.hostRead_keeps, State.wearRead_keeps, hK]

theorem execWearTake_keeps (v : Word) (s : State) (s' : State) (hx : execWearTake v s = .next s') (hK : Keeps nv us ρ s) : Keeps nv us ρ s' := by
  unfold execWearTake at hx
  cases hx
  simp +contextual (maxDischargeDepth := 60) only [implies_true, State.hostWrite_keeps, State.wearTake_keeps, hK]

theorem execCalendarStep_keeps (s : State) (s' : State) (hx : execCalendarStep s = .next s') (hK : Keeps nv us ρ s) : Keeps nv us ρ s' := by
  unfold execCalendarStep at hx
  cases hx
  simp +contextual (maxDischargeDepth := 60) only [State.calendarStep_keeps, hK]

theorem execCalSet_keeps (v : Word) (s : State) (s' : State) (hx : execCalSet v s = .next s') (hK : Keeps nv us ρ s) : Keeps nv us ρ s' := by
  unfold execCalSet at hx
  cases hx
  simp +contextual (maxDischargeDepth := 60) only [implies_true, State.calCtlWrite_keeps, State.hostWrite_keeps, hK]

theorem execCalLoRead_keeps (s : State) (s' : State) (hx : execCalLoRead s = .next s') (hK : Keeps nv us ρ s) : Keeps nv us ρ s' := by
  unfold execCalLoRead at hx
  cases hx
  simp +contextual (maxDischargeDepth := 60) only [implies_true, State.calRead_keeps, State.hostRead_keeps, hK]

theorem execLfclkLoss_keeps (s : State) (s' : State) (hx : execLfclkLoss s = .next s') (hK : Keeps nv us ρ s) : Keeps nv us ρ s' := by
  unfold execLfclkLoss at hx
  cases hx
  simp +contextual (maxDischargeDepth := 60) only [State.lfclkLoss_keeps, hK]

theorem execLfclkReturn_keeps (s : State) (s' : State) (hx : execLfclkReturn s = .next s') (hK : Keeps nv us ρ s) : Keeps nv us ρ s' := by
  unfold execLfclkReturn at hx
  cases hx
  simp +contextual (maxDischargeDepth := 60) only [State.setBit_keeps, hK]

theorem execMirrorDue_keeps (s : State) (s' : State) (hx : execMirrorDue s = .next s') (hK : Keeps nv us ρ s) : Keeps nv us ρ s' := by
  unfold execMirrorDue at hx
  cases hx
  simp +contextual (maxDischargeDepth := 60) only [State.mirrorElapsed_keeps, hK]

theorem execMirNow_keeps (v : Word) (s : State) (s' : State) (hx : execMirNow v s = .next s') (hK : Keeps nv us ρ s) : Keeps nv us ρ s' := by
  unfold execMirNow at hx
  cases hx
  simp +contextual (maxDischargeDepth := 60) only [implies_true, State.hostWrite_keeps, State.mirNow_keeps, hK]

theorem execMirrorComplete_keeps (ok : Bool) (s : State) (s' : State) (hx : execMirrorComplete ok s = .next s') (hK : Keeps False us ρ s) : Keeps False us ρ s' := by
  unfold execMirrorComplete at hx
  cases hx
  simp +contextual (maxDischargeDepth := 60) only [State.mirrorComplete_keeps, hK]

theorem execVbatPor_keeps (s : State) (s' : State) (hx : execVbatPor s = .next s') (hK : Keeps nv us ρ s) : Keeps nv us ρ s' := by
  unfold execVbatPor at hx
  cases hx
  simp +contextual (maxDischargeDepth := 60) only [State.vbatPor_keeps, hK]

theorem execIslandRestore_keeps (s : State) (s' : State) (hx : execIslandRestore s = .next s') (hK : Keeps nv us ρ s) : Keeps nv us ρ s' := by
  unfold execIslandRestore at hx
  cases hx
  simp +contextual (maxDischargeDepth := 60) only [State.islandRestore_keeps, hK]

theorem execTrimTakeEffect_keeps (p : Fin 256) (s : State) (s' : State) (hx : execTrimTakeEffect p s = .next s') (hK : Keeps nv us ρ s) : Keeps nv us ρ s' := by
  unfold execTrimTakeEffect at hx
  cases hx
  simp +contextual (maxDischargeDepth := 60) only [State.trimTake_keeps, hK]

theorem execTempUpdate_keeps (t : BitVec 16) (s : State) (s' : State) (hx : execTempUpdate t s = .next s') (hK : Keeps nv us ρ s) : Keeps nv us ρ s' := by
  unfold execTempUpdate at hx
  cases hx
  simp +contextual (maxDischargeDepth := 60) only [keeps_ite, State.setReg_keeps, hK]

theorem execTripInputEdge_keeps (i : Fin 32) (level : Bool) (s : State) (s' : State) (hx : execTripInputEdge i level s = .next s') (hK : Keeps nv us ρ s) : Keeps nv us ρ s' := by
  unfold execTripInputEdge at hx
  cases hx
  simp +contextual (maxDischargeDepth := 60) only [State.tripInputEdge_keeps, hK]

theorem execTripFilterQualify_keeps (i : Fin 32) (s : State) (s' : State) (hx : execTripFilterQualify i s = .next s') (hK : Keeps nv us ρ s) : Keeps nv us ρ s' := by
  unfold execTripFilterQualify at hx
  cases hx
  simp +contextual (maxDischargeDepth := 60) only [State.tripFilterQualify_keeps, hK]

theorem execTripCfgWrite_keeps (i : Fin 32) (v : Word) (s : State) (s' : State) (hx : execTripCfgWrite i v s = .next s') (hK : Keeps nv us ρ s) : Keeps nv us ρ s' := by
  unfold execTripCfgWrite at hx
  cases hx
  simp +contextual (maxDischargeDepth := 60) only [implies_true, State.hostWrite_keeps, State.tripCfgWrite_keeps, hK]

theorem execCuffClose_keeps (m : Fin 32) (s : State) (s' : State) (hx : execCuffClose m s = .next s') (hK : Keeps nv us ρ s) : Keeps nv us ρ s' := by
  unfold execCuffClose at hx
  cases hx
  simp +contextual (maxDischargeDepth := 60) only [State.cuffClose_keeps, hK]

theorem execCuffOverride_keeps (m : Fin 32) (s : State) (s' : State) (hx : execCuffOverride m s = .next s') (hK : Keeps nv us ρ s) : Keeps nv us ρ s' := by
  unfold execCuffOverride at hx
  cases hx
  simp +contextual (maxDischargeDepth := 60) only [State.cuffOverride_keeps, hK]

theorem execMittenRelease_keeps (m : Fin 32) (s : State) (s' : State) (hx : execMittenRelease m s = .next s') (hK : Keeps nv us ρ s) : Keeps nv us ρ s' := by
  unfold execMittenRelease at hx
  cases hx
  simp +contextual (maxDischargeDepth := 60) only [State.mittenRelease_keeps, hK]

theorem execMitClr_keeps (m : Fin 32) (v : Word) (s : State) (s' : State) (hx : execMitClr m v s = .next s') (hK : Keeps nv us ρ s) : Keeps nv us ρ s' := by
  unfold execMitClr at hx
  cases hx
  simp +contextual (maxDischargeDepth := 60) only [implies_true, State.hostWrite_keeps, State.mitClrWrite_keeps, hK]

theorem execInterlockApply_keeps (p : Fin 256) (s : State) (s' : State) (hx : execInterlockApply p s = .next s') (hK : Keeps nv us ρ s) : Keeps nv us ρ s' := by
  unfold execInterlockApply at hx
  cases hx
  simp +contextual (maxDischargeDepth := 60) only [State.interlockApply_keeps, hK]

theorem execMitCfgWrite_keeps (addr : Nat) (v : Word) (s : State) (s' : State) (hx : execMitCfgWrite addr v s = .next s') (hK : Keeps nv us ρ s) : Keeps nv us ρ s' := by
  unfold execMitCfgWrite at hx
  cases hx
  simp +contextual (maxDischargeDepth := 60) only [implies_true, State.hostWrite_keeps, State.mitCfgWrite_keeps, hK]

theorem execWdogKick_keeps (v : Word) (s : State) (s' : State) (hx : execWdogKick v s = .next s') (hK : Keeps nv us ρ s) : Keeps nv us ρ s' := by
  unfold execWdogKick at hx
  cases hx
  simp +contextual (maxDischargeDepth := 60) only [implies_true, State.hostWrite_keeps, State.wdogKick_keeps, hK]

theorem execWdogCfgWrite_keeps (v : Word) (s : State) (s' : State) (hx : execWdogCfgWrite v s = .next s') (hK : Keeps nv us ρ s) : Keeps nv us ρ s' := by
  unfold execWdogCfgWrite at hx
  cases hx
  simp +contextual (maxDischargeDepth := 60) only [implies_true, State.hostWrite_keeps, State.wdogCfgWrite_keeps, hK]

theorem execWatchdogExpiry_keeps (s : State) (s' : State) (hx : execWatchdogExpiry s = .next s') (hK : Keeps nv us ρ s) : Keeps nv us ρ s' := by
  unfold execWatchdogExpiry at hx
  cases hx
  simp +contextual (maxDischargeDepth := 60) only [State.watchdogExpiry_keeps, hK]

theorem execWatchdogResetStart_keeps (s : State) (s' : State) (hx : execWatchdogResetStart s = .next s') (hK : Keeps nv us ρ s) : Keeps nv us ρ s' := by
  unfold execWatchdogResetStart at hx
  cases hx
  simp +contextual (maxDischargeDepth := 60) only [State.watchdogReset_keeps, hK]

theorem execSoftResetStart_keeps (s : State) (s' : State) (hx : execSoftResetStart s = .next s') (hK : Keeps nv us ρ s) : Keeps nv us ρ s' := by
  unfold execSoftResetStart at hx
  cases hx
  simp +contextual (maxDischargeDepth := 60) only [State.softResetStart_keeps, hK]

theorem execSoftResetEnd_keeps (s : State) (s' : State) (hx : execSoftResetEnd s = .next s') (hK : Keeps nv us ρ s) : Keeps nv us ρ s' := by
  unfold execSoftResetEnd at hx
  cases hx
  simp +contextual (maxDischargeDepth := 60) only [State.softResetEnd_keeps, hK]

theorem execMsiXMessage_keeps (v : Fin 32) (s : State) (s' : State) (hx : execMsiXMessage v s = .next s') (hK : Keeps nv us ρ s) : Keeps nv us ρ s' := by
  unfold execMsiXMessage at hx
  cases hx
  simp +contextual (maxDischargeDepth := 60) only [State.msixMessage_keeps, State.onTclk_keeps, hK]

theorem execVecDone_keeps (v : Word) (s : State) (s' : State) (hx : execVecDone v s = .next s') (hK : Keeps nv us ρ s) : Keeps nv us ρ s' := by
  unfold execVecDone at hx
  cases hx
  simp +contextual (maxDischargeDepth := 60) only [implies_true, State.hostWrite_keeps, State.vecDone_keeps, hK]

theorem execPcieConfigWrite_keeps (r : CfgReg) (v : Word) (s : State) (s' : State) (hx : execPcieConfigWrite r v s = .next s') (hK : Keeps nv us ρ s) : Keeps nv us ρ s' := by
  unfold execPcieConfigWrite at hx
  cases hx
  simp +contextual (maxDischargeDepth := 60) only [State.pcieConfig_keeps, hK]

theorem execIrqSet_keeps (w : Fin 8) (v : Word) (s : State) (s' : State) (hx : execIrqSet w v s = .next s') (hK : Keeps nv us ρ s) : Keeps nv us ρ s' := by
  unfold execIrqSet at hx
  cases hx
  simp +contextual (maxDischargeDepth := 60) only [implies_true, State.hostWrite_keeps, State.irqSetWrite_keeps, hK]

theorem execIrqLatch_keeps (s : State) (s' : State) (hx : execIrqLatch s = .next s') (hK : Keeps nv us ρ s) : Keeps nv us ρ s' := by
  unfold execIrqLatch at hx
  cases hx
  simp +contextual (maxDischargeDepth := 60) only [State.irqLatch_keeps, State.onTclk_keeps, hK]

theorem execIrqSelectWrite_keeps (addr : Nat) (v : Word) (s : State) (s' : State) (hx : execIrqSelectWrite addr v s = .next s') (hK : Keeps nv us ρ s) : Keeps nv us ρ s' := by
  unfold execIrqSelectWrite at hx
  cases hx
  simp +contextual (maxDischargeDepth := 60) only [implies_true, State.hostWrite_keeps, State.irqSelectWrite_keeps, hK]

theorem execProbeArm_keeps (p : Fin 8) (v : Word) (s : State) (s' : State) (hx : execProbeArm p v s = .next s') (hK : Keeps nv us ρ s) : Keeps nv us ρ s' := by
  unfold execProbeArm at hx
  cases hx
  simp +contextual (maxDischargeDepth := 60) only [implies_true, State.hostWrite_keeps, State.prbCtrlWrite_keeps, hK]

theorem execProbeDisarm_keeps (p : Fin 8) (v : Word) (s : State) (s' : State) (hx : execProbeDisarm p v s = .next s') (hK : Keeps nv us ρ s) : Keeps nv us ρ s' := by
  unfold execProbeDisarm at hx
  cases hx
  simp +contextual (maxDischargeDepth := 60) only [implies_true, State.hostWrite_keeps, State.prbCtrlWrite_keeps, hK]

theorem execProbeEdge_keeps (p : Fin 8) (rising : Bool) (stamp : Stamp) (s : State) (s' : State) (hx : execProbeEdge p rising stamp s = .next s') (hK : Keeps nv us ρ s) : Keeps nv us ρ s' := by
  unfold execProbeEdge at hx
  cases hx
  simp +contextual (maxDischargeDepth := 60) only [State.onTclk_keeps, State.probeEdge_keeps, hK]

theorem execProbeLatchComplete_keeps (p : Fin 8) (s : State) (s' : State) (hx : execProbeLatchComplete p s = .next s') (hK : Keeps nv us ρ s) : Keeps nv us ρ s' := by
  unfold execProbeLatchComplete at hx
  cases hx
  simp +contextual (maxDischargeDepth := 60) only [State.onTclk_keeps, State.probeLatch_keeps, hK]

theorem execPrbStampLoRead_keeps (p : Fin 8) (s : State) (s' : State) (hx : execPrbStampLoRead p s = .next s') (hK : Keeps nv us ρ s) : Keeps nv us ρ s' := by
  unfold execPrbStampLoRead at hx
  cases hx
  simp +contextual (maxDischargeDepth := 60) only [implies_true, State.hostRead_keeps, State.prbStampRead_keeps, hK]

theorem execUcLoadGo_keeps (v : Word) (s : State) (s' : State) (hx : execUcLoadGo v s = .next s') (hK : Keeps nv us ρ s) : Keeps nv us ρ s' := by
  unfold execUcLoadGo at hx
  cases hx
  simp +contextual (maxDischargeDepth := 60) only [implies_true, State.hostWrite_keeps, State.ucLoadGo_keeps, hK]

theorem execMicrocodeLoadComplete_keeps (s : State) (s' : State) (hx : execMicrocodeLoadComplete s = .next s') (hK : Keeps nv False ρ s) : Keeps nv False ρ s' := by
  unfold execMicrocodeLoadComplete at hx
  cases hx
  simp +contextual (maxDischargeDepth := 60) only [State.microcodeLoadComplete_keeps, State.onTclk_keeps, hK]

theorem execFlashLoad_keeps (image : List Byte) (s : State) (s' : State) (hx : execFlashLoad image s = .next s') (hK : Keeps nv us ρ s) : Keeps nv us ρ s' := by
  unfold execFlashLoad at hx
  cases hx
  simp +contextual (maxDischargeDepth := 60) only [State.flashLoad_keeps, State.onTclk_keeps, hK]

theorem execClusterGate_keeps (n : Fin 24) (s : State) (s' : State) (hx : execClusterGate n s = .next s') (hK : Keeps nv us ρ s) : Keeps nv us ρ s' := by
  unfold execClusterGate at hx
  cases hx
  simp +contextual (maxDischargeDepth := 60) only [State.clusterGate_keeps, State.onTclk_keeps, hK]

theorem execClusterWakeBegin_keeps (n : Fin 24) (s : State) (s' : State) (hx : execClusterWakeBegin n s = .next s') (hK : Keeps nv us ρ s) : Keeps nv us ρ s' := by
  unfold execClusterWakeBegin at hx
  cases hx
  simp +contextual (maxDischargeDepth := 60) only [State.clusterWake_keeps, State.onTclk_keeps, hK]

theorem execPwrReqRun_keeps (s : State) (s' : State) (hx : execPwrReqRun s = .next s') (hK : Keeps nv us ρ s) : Keeps nv us ρ s' := by
  unfold execPwrReqRun at hx
  cases hx
  simp +contextual (maxDischargeDepth := 60) only [implies_true, State.hostWrite_keeps, State.powerRequest_keeps, hK]

theorem execPwrReqDoze_keeps (s : State) (s' : State) (hx : execPwrReqDoze s = .next s') (hK : Keeps nv us ρ s) : Keeps nv us ρ s' := by
  unfold execPwrReqDoze at hx
  cases hx
  simp +contextual (maxDischargeDepth := 60) only [implies_true, State.hostWrite_keeps, State.powerRequest_keeps, hK]

theorem execPwrReqNap_keeps (s : State) (s' : State) (hx : execPwrReqNap s = .next s') (hK : Keeps nv us ρ s) : Keeps nv us ρ s' := by
  unfold execPwrReqNap at hx
  cases hx
  simp +contextual (maxDischargeDepth := 60) only [implies_true, State.hostWrite_keeps, State.powerRequest_keeps, hK]

theorem execPwrReqHibernate_keeps (s : State) (s' : State) (hx : execPwrReqHibernate s = .next s') (hK : Keeps nv us ρ s) : Keeps nv us ρ s' := by
  unfold execPwrReqHibernate at hx
  cases hx
  simp +contextual (maxDischargeDepth := 60) only [implies_true, State.hostWrite_keeps, State.powerRequest_keeps, hK]

theorem execNapWakeEvent_keeps (hostDemand : Bool) (s : State) (s' : State) (hx : execNapWakeEvent hostDemand s = .next s') (hK : Keeps nv us ρ s) : Keeps nv us ρ s' := by
  unfold execNapWakeEvent at hx
  cases hx
  simp +contextual (maxDischargeDepth := 60) only [State.napWake_keeps, hK]

theorem execPwrEnFall_keeps (s : State) (s' : State) (hx : execPwrEnFall s = .next s') (hK : Keeps nv us ρ s) : Keeps nv us ρ s' := by
  unfold execPwrEnFall at hx
  cases hx
  simp +contextual (maxDischargeDepth := 60) only [State.pwrEnFall_keeps, hK]

theorem execHibAbort_keeps (s : State) (s' : State) (hx : execHibAbort s = .next s') (hK : Keeps nv False ρ s) : Keeps nv False ρ s' := by
  unfold execHibAbort at hx
  cases hx
  simp +contextual (maxDischargeDepth := 60) only [State.hibAbort_keeps, hK]

theorem execWakeNRequest_keeps (s : State) (s' : State) (hx : execWakeNRequest s = .next s') (hK : Keeps nv us ρ s) : Keeps nv us ρ s' := by
  unfold execWakeNRequest at hx
  cases hx
  simp +contextual (maxDischargeDepth := 60) only [State.wakeN_keeps, hK]

theorem execPorAssert_keeps (s : State) (s' : State) (hx : execPorAssert s = .next s') (hK : Keeps nv False ρ s) : Keeps nv False ρ s' := by
  unfold execPorAssert at hx
  cases hx
  simp +contextual (maxDischargeDepth := 60) only [State.porAssert_keeps, hK]

theorem execPorRelease_keeps (s : State) (s' : State) (hx : execPorRelease s = .next s') (hK : Keeps nv us ρ s) : Keeps nv us ρ s' := by
  unfold execPorRelease at hx
  cases hx
  simp +contextual (maxDischargeDepth := 60) only [State.porRelease_keeps, hK]

theorem execResetN_keeps (low : Bool) (ns : Nat) (s : State) (s' : State) (hx : execResetN low ns s = .next s') (hK : Keeps nv False ρ s) : Keeps nv False ρ s' := by
  unfold execResetN at hx
  cases hx
  simp +contextual (maxDischargeDepth := 60) only [State.resetN_keeps, hK]

theorem execClkFail_keeps (pll : Bool) (s : State) (s' : State) (hx : execClkFail pll s = .next s') (hK : Keeps nv False ρ s) : Keeps nv False ρ s' := by
  unfold execClkFail at hx
  cases hx
  simp +contextual (maxDischargeDepth := 60) only [State.clkFail_keeps, hK]

theorem execEndOfReset_keeps (straps : BitVec 2) (s : State) (s' : State) (hx : execEndOfReset straps s = .next s') (hK : Keeps False False ρ s) : Keeps False False ρ s' := by
  unfold execEndOfReset at hx
  cases hx
  simp +contextual (maxDischargeDepth := 60) only [State.endOfReset_keeps, hK]

theorem execRstCl_keeps (v : Word) (s : State) (s' : State) (hx : execRstCl v s = .next s') (hK : Keeps nv us ρ s) : Keeps nv us ρ s' := by
  unfold execRstCl at hx
  cases hx
  simp +contextual (maxDischargeDepth := 60) only [implies_true, State.hostWrite_keeps, State.rstCl_keeps, hK]

theorem execClusterResetEnd_keeps (n : Fin 24) (s : State) (s' : State) (hx : execClusterResetEnd n s = .next s') (hK : Keeps nv us ρ s) : Keeps nv us ρ s' := by
  unfold execClusterResetEnd at hx
  cases hx
  simp +contextual (maxDischargeDepth := 60) only [State.clusterResetEnd_keeps, State.onTclk_keeps, hK]

theorem execRegisterWrite_keeps (addr : Nat) (v : Word) (s : State) (s' : State) (hx : execRegisterWrite addr v s = .next s') (hK : Keeps nv us ρ s) : Keeps nv us ρ s' := by
  unfold execRegisterWrite at hx
  cases hx
  simp +contextual (maxDischargeDepth := 60) only [State.writeA_keeps, hK]

theorem execRcRead_keeps (addr : Nat) (s : State) (s' : State) (hx : execRcRead addr s = .next s') (hK : Keeps nv us ρ s) : Keeps nv us ρ s' := by
  unfold execRcRead at hx
  cases hx
  simp +contextual (maxDischargeDepth := 60) only [keeps_mk, State.readA_keeps, hK]

theorem execMtLoRead_keeps (s : State) (s' : State) (hx : execMtLoRead s = .next s') (hK : Keeps nv us ρ s) : Keeps nv us ρ s' := by
  unfold execMtLoRead at hx
  cases hx
  simp +contextual (maxDischargeDepth := 60) only [implies_true, State.hostRead_keeps, State.mtLoRead_keeps, hK]

theorem execPonarCfgWrite_keeps (v : Word) (s : State) (s' : State) (hx : execPonarCfgWrite v s = .next s') (hK : Keeps nv us ρ s) : Keeps nv us ρ s' := by
  unfold execPonarCfgWrite at hx
  cases hx
  simp +contextual (maxDischargeDepth := 60) only [implies_true, State.hostWrite_keeps, State.ponarCfgWrite_keeps, hK]

theorem execKeyLoadGo_keeps (v : Word) (s : State) (s' : State) (hx : execKeyLoadGo v s = .next s') (hK : Keeps nv us ρ s) : Keeps nv us ρ s' := by
  unfold execKeyLoadGo at hx
  cases hx
  simp +contextual (maxDischargeDepth := 60) only [implies_true, State.hostWrite_keeps, State.keyLoadGo_keeps, hK]

theorem execSwapFixed_keeps (s : State) (s' : State) (hx : execSwapFixed s = .next s') (hK : Keeps nv us ρ s) : Keeps nv us ρ s' := by
  unfold execSwapFixed at hx
  cases hx
  simp +contextual (maxDischargeDepth := 60) only [State.onTclk_keeps, State.swapFix_keeps, hK]

theorem execSwapTick_keeps (s : State) (s' : State) (hx : execSwapTick s = .next s') (hK : Keeps nv us ρ s) : Keeps nv us ρ s' := by
  unfold execSwapTick at hx
  cases hx
  simp +contextual (maxDischargeDepth := 60) only [State.onTclk_keeps, State.swapRun_keeps, hK]

theorem execPonarRingMessage_keeps (s : State) (s' : State) (hx : execPonarRingMessage s = .next s') (hK : Keeps nv us ρ s) : Keeps nv us ρ s' := by
  unfold execPonarRingMessage at hx
  cases hx
  simp +contextual (maxDischargeDepth := 60) only [State.onTclk_keeps, State.ponarRing_keeps, hK]

theorem execPonarUdpDatagram_keeps (a : Arrival) (ip : Word) (udp : BitVec 16) (bytes : List Byte) (s : State) (s' : State) (hx : execPonarUdpDatagram a ip udp bytes s = .next s') (hK : Keeps nv us ρ s) : Keeps nv us ρ s' := by
  unfold execPonarUdpDatagram at hx
  cases hx
  simp +contextual (maxDischargeDepth := 60) only [State.onTclk_keeps, State.ponarUdp_keeps, hK]

theorem execPonarResponseAdmit_keeps (s : State) (s' : State) (hx : execPonarResponseAdmit s = .next s') (hK : Keeps nv us ρ s) : Keeps nv us ρ s' := by
  unfold execPonarResponseAdmit at hx
  cases hx
  simp +contextual (maxDischargeDepth := 60) only [State.onTclk_keeps, State.respAdmit_keeps, hK]

theorem execHello_keeps (s : State) (s' : State) (hx : execHello s = .next s') (hK : Keeps nv us ρ s) : Keeps nv us ρ s' := by
  unfold execHello at hx
  cases hx
  simp +contextual (maxDischargeDepth := 60) only [implies_true, State.hello_keeps, State.ponarDo_keeps, hK]

theorem execGetCounter_keeps (s : State) (s' : State) (hx : execGetCounter s = .next s') (hK : Keeps nv us ρ s) : Keeps nv us ρ s' := by
  unfold execGetCounter at hx
  cases hx
  simp +contextual (maxDischargeDepth := 60) only [implies_true, State.getCounter_keeps, State.ponarDo_keeps, hK]

theorem execRegRead_keeps (s : State) (s' : State) (hx : execRegRead s = .next s') (hK : Keeps nv us ρ s) : Keeps nv us ρ s' := by
  unfold execRegRead at hx
  cases hx
  simp +contextual (maxDischargeDepth := 60) only [implies_true, State.ponarDo_keeps, State.regRead_keeps, hK]

theorem execRegWrite_keeps (s : State) (s' : State) (hx : execRegWrite s = .next s') (hK : Keeps nv us ρ s) : Keeps nv us ρ s' := by
  unfold execRegWrite at hx
  cases hx
  simp +contextual (maxDischargeDepth := 60) only [implies_true, State.ponarDo_keeps, State.regWrite_keeps, hK]

theorem execOutput_keeps (s : State) (s' : State) (hx : execOutput s = .next s') (hK : Keeps nv us ρ s) : Keeps nv us ρ s' := by
  unfold execOutput at hx
  cases hx
  simp +contextual (maxDischargeDepth := 60) only [implies_true, State.output_keeps, State.ponarDo_keeps, hK]

theorem execProgLoadDirect_keeps (s : State) (s' : State) (hx : execProgLoadDirect s = .next s') (hK : Keeps nv us ρ s) : Keeps nv us ρ s' := by
  unfold execProgLoadDirect at hx
  cases hx
  simp +contextual (maxDischargeDepth := 60) only [implies_true, State.loadDirect_keeps, State.ponarDo_keeps, hK]

theorem execProgLoadStage_keeps (s : State) (s' : State) (hx : execProgLoadStage s = .next s') (hK : Keeps nv us ρ s) : Keeps nv us ρ s' := by
  unfold execProgLoadStage at hx
  cases hx
  simp +contextual (maxDischargeDepth := 60) only [implies_true, State.loadStage_keeps, State.ponarDo_keeps, hK]

theorem execSwapCtlArm_keeps (s : State) (s' : State) (hx : execSwapCtlArm s = .next s') (hK : Keeps nv us ρ s) : Keeps nv us ρ s' := by
  unfold execSwapCtlArm at hx
  cases hx
  simp +contextual (maxDischargeDepth := 60) only [implies_true, State.ponarDo_keeps, State.swapCtlArm_keeps, hK]

theorem execSwapCtlDisarm_keeps (s : State) (s' : State) (hx : execSwapCtlDisarm s = .next s') (hK : Keeps nv us ρ s) : Keeps nv us ρ s' := by
  unfold execSwapCtlDisarm at hx
  cases hx
  simp +contextual (maxDischargeDepth := 60) only [implies_true, State.ponarDo_keeps, State.swapCtlDisarm_keeps, hK]

theorem execSwapCtlQuery_keeps (s : State) (s' : State) (hx : execSwapCtlQuery s = .next s') (hK : Keeps nv us ρ s) : Keeps nv us ρ s' := by
  unfold execSwapCtlQuery at hx
  cases hx
  simp +contextual (maxDischargeDepth := 60) only [implies_true, State.ponarDo_keeps, State.swapCtlQuery_keeps, hK]

theorem execMitChange_keeps (s : State) (s' : State) (hx : execMitChange s = .next s') (hK : Keeps nv us ρ s) : Keeps nv us ρ s' := by
  unfold execMitChange at hx
  cases hx
  simp +contextual (maxDischargeDepth := 60) only [implies_true, State.mitChange_keeps, State.ponarDo_keeps, hK]

theorem execMitClear_keeps (s : State) (s' : State) (hx : execMitClear s = .next s') (hK : Keeps nv us ρ s) : Keeps nv us ρ s' := by
  unfold execMitClear at hx
  cases hx
  simp +contextual (maxDischargeDepth := 60) only [implies_true, State.mitClear_keeps, State.ponarDo_keeps, hK]

theorem execKeyChangeInstall_keeps (s : State) (s' : State) (hx : execKeyChangeInstall s = .next s') (hK : Keeps nv us ρ s) : Keeps nv us ρ s' := by
  unfold execKeyChangeInstall at hx
  cases hx
  simp +contextual (maxDischargeDepth := 60) only [implies_true, State.keyInstall_keeps, State.ponarDo_keeps, hK]

theorem execKeyChangeRevoke_keeps (s : State) (s' : State) (hx : execKeyChangeRevoke s = .next s') (hK : Keeps nv us ρ s) : Keeps nv us ρ s' := by
  unfold execKeyChangeRevoke at hx
  cases hx
  simp +contextual (maxDischargeDepth := 60) only [implies_true, State.keyRevoke_keeps, State.ponarDo_keeps, hK]

theorem execSeal_keeps (s : State) (s' : State) (hx : execSeal s = .next s') (hK : Keeps nv us ρ s) : Keeps nv us ρ s' := by
  unfold execSeal at hx
  cases hx
  simp +contextual (maxDischargeDepth := 60) only [implies_true, State.ponarDo_keeps, State.seal_keeps, hK]

theorem execFloorRaise_keeps (s : State) (s' : State) (hx : execFloorRaise s = .next s') (hK : Keeps nv us ρ s) : Keeps nv us ρ s' := by
  unfold execFloorRaise at hx
  cases hx
  simp +contextual (maxDischargeDepth := 60) only [implies_true, State.floorRaise_keeps, State.ponarDo_keeps, hK]

theorem execSoftReset_keeps (s : State) (s' : State) (hx : execSoftReset s = .next s') (hK : Keeps nv us ρ s) : Keeps nv us ρ s' := by
  unfold execSoftReset at hx
  cases hx
  simp +contextual (maxDischargeDepth := 60) only [implies_true, State.ponarDo_keeps, State.softReset_keeps, hK]

theorem execUcalWrite_keeps (s : State) (s' : State) (hx : execUcalWrite s = .next s') (hK : Keeps nv us ρ s) : Keeps nv us ρ s' := by
  unfold execUcalWrite at hx
  cases hx
  simp +contextual (maxDischargeDepth := 60) only [implies_true, State.ponarDo_keeps, State.ucalWrite_keeps, hK]

theorem execNvmWriteComplete_keeps (ok : Bool) (s : State) (s' : State) (hx : execNvmWriteComplete ok s = .next s') (hK : Keeps False us ρ s) : Keeps False us ρ s' := by
  unfold execNvmWriteComplete at hx
  cases hx
  simp +contextual (maxDischargeDepth := 60) only [State.nvmComplete_keeps, State.onTclk_keeps, hK]

theorem execPcieMemoryRequest_keeps (write : Bool) (addr : Nat) (dws : List (BitVec 4 × Word)) (s : State) (s' : State) (hx : execPcieMemoryRequest write addr dws s = .next s') (hK : Keeps nv us ρ s) : Keeps nv us ρ s' := by
  unfold execPcieMemoryRequest at hx
  cases hx
  simp +contextual (maxDischargeDepth := 60) only [State.hostRequest_keeps, State.pcieServe_keeps, hK]

theorem execWindowBRead_keeps (off size : Nat) (s : State) (s' : State) (hx : execWindowBRead off size s = .next s') (hK : Keeps nv us ρ s) : Keeps nv us ρ s' := by
  unfold execWindowBRead at hx
  cases hx
  simp +contextual (maxDischargeDepth := 60) only [State.bRead_keeps, State.hostRequest_keeps, hK]

theorem execWindowBWrite_keeps (off size : Nat) (v : BitVec 64) (s : State) (s' : State) (hx : execWindowBWrite off size v s = .next s') (hK : Keeps nv us ρ s) : Keeps nv us ρ s' := by
  unfold execWindowBWrite at hx
  cases hx
  simp +contextual (maxDischargeDepth := 60) only [State.bArrive_keeps, State.hostRequest_keeps, hK]

theorem execPcieHotReset_keeps (s : State) (s' : State) (hx : execPcieHotReset s = .next s') (hK : Keeps nv us ρ s) : Keeps nv us ρ s' := by
  unfold execPcieHotReset at hx
  cases hx
  simp +contextual (maxDischargeDepth := 60) only [State.hotReset_keeps, hK]

theorem execQspiRead_keeps (op : BitVec 8) (addr n : Nat) (partialWord : Bool) (s : State) (s' : State) (hx : execQspiRead op addr n partialWord s = .next s') (hK : Keeps nv us ρ s) : Keeps nv us ρ s' := by
  unfold execQspiRead at hx
  cases hx
  simp +contextual (maxDischargeDepth := 60) only [State.qspiRead_keeps, hK]

theorem execQspiQread_keeps (addr n : Nat) (partialWord : Bool) (s : State) (s' : State) (hx : execQspiQread addr n partialWord s = .next s') (hK : Keeps nv us ρ s) : Keeps nv us ρ s' := by
  unfold execQspiQread at hx
  cases hx
  simp +contextual (maxDischargeDepth := 60) only [State.qspiQread_keeps, hK]

theorem execQspiWrite_keeps (addr : Nat) (words : List Word) (partialWord : Bool) (s : State) (s' : State) (hx : execQspiWrite addr words partialWord s = .next s') (hK : Keeps nv us ρ s) : Keeps nv us ρ s' := by
  unfold execQspiWrite at hx
  cases hx
  simp +contextual (maxDischargeDepth := 60) only [State.qspiWrite_keeps, hK]

theorem execQspiQwrite_keeps (addr : Nat) (words : List Word) (partialWord : Bool) (s : State) (s' : State) (hx : execQspiQwrite addr words partialWord s = .next s') (hK : Keeps nv us ρ s) : Keeps nv us ρ s' := by
  unfold execQspiQwrite at hx
  cases hx
  simp +contextual (maxDischargeDepth := 60) only [State.qspiWrite_keeps, hK]

theorem execQspiStatus_keeps (s : State) (s' : State) (hx : execQspiStatus s = .next s') (hK : Keeps nv us ρ s) : Keeps nv us ρ s' := by
  unfold execQspiStatus at hx
  cases hx
  simp +contextual (maxDischargeDepth := 60) only [keeps_mk, State.onTclk_keeps, hK]

theorem execQspiId_keeps (s : State) (s' : State) (hx : execQspiId s = .next s') (hK : Keeps nv us ρ s) : Keeps nv us ρ s' := by
  unfold execQspiId at hx
  cases hx
  simp +contextual (maxDischargeDepth := 60) only [State.onTclk_keeps, State.qspiId_keeps, hK]

theorem execKAdd_keeps (n : Fin 24) (s : State) (s' : State) (hx : execKAdd n s = .next s') (hK : Keeps nv us ρ s) : Keeps nv us ρ s' := by
  unfold execKAdd at hx
  cases hx
  simp +contextual (maxDischargeDepth := 60) only [State.kci_keeps, hK]

theorem execKSub_keeps (n : Fin 24) (s : State) (s' : State) (hx : execKSub n s = .next s') (hK : Keeps nv us ρ s) : Keeps nv us ρ s' := by
  unfold execKSub at hx
  cases hx
  simp +contextual (maxDischargeDepth := 60) only [State.kci_keeps, hK]

theorem execKAddc_keeps (n : Fin 24) (s : State) (s' : State) (hx : execKAddc n s = .next s') (hK : Keeps nv us ρ s) : Keeps nv us ρ s' := by
  unfold execKAddc at hx
  cases hx
  simp +contextual (maxDischargeDepth := 60) only [State.kci_keeps, hK]

theorem execKSubb_keeps (n : Fin 24) (s : State) (s' : State) (hx : execKSubb n s = .next s') (hK : Keeps nv us ρ s) : Keeps nv us ρ s' := by
  unfold execKSubb at hx
  cases hx
  simp +contextual (maxDischargeDepth := 60) only [State.kci_keeps, hK]

theorem execKAnd_keeps (n : Fin 24) (s : State) (s' : State) (hx : execKAnd n s = .next s') (hK : Keeps nv us ρ s) : Keeps nv us ρ s' := by
  unfold execKAnd at hx
  cases hx
  simp +contextual (maxDischargeDepth := 60) only [State.kci_keeps, hK]

theorem execKOr_keeps (n : Fin 24) (s : State) (s' : State) (hx : execKOr n s = .next s') (hK : Keeps nv us ρ s) : Keeps nv us ρ s' := by
  unfold execKOr at hx
  cases hx
  simp +contextual (maxDischargeDepth := 60) only [State.kci_keeps, hK]

theorem execKXor_keeps (n : Fin 24) (s : State) (s' : State) (hx : execKXor n s = .next s') (hK : Keeps nv us ρ s) : Keeps nv us ρ s' := by
  unfold execKXor at hx
  cases hx
  simp +contextual (maxDischargeDepth := 60) only [State.kci_keeps, hK]

theorem execKAndn_keeps (n : Fin 24) (s : State) (s' : State) (hx : execKAndn n s = .next s') (hK : Keeps nv us ρ s) : Keeps nv us ρ s' := by
  unfold execKAndn at hx
  cases hx
  simp +contextual (maxDischargeDepth := 60) only [State.kci_keeps, hK]

theorem execKShl_keeps (n : Fin 24) (s : State) (s' : State) (hx : execKShl n s = .next s') (hK : Keeps nv us ρ s) : Keeps nv us ρ s' := by
  unfold execKShl at hx
  cases hx
  simp +contextual (maxDischargeDepth := 60) only [State.kci_keeps, hK]

theorem execKShr_keeps (n : Fin 24) (s : State) (s' : State) (hx : execKShr n s = .next s') (hK : Keeps nv us ρ s) : Keeps nv us ρ s' := by
  unfold execKShr at hx
  cases hx
  simp +contextual (maxDischargeDepth := 60) only [State.kci_keeps, hK]

theorem execKSar_keeps (n : Fin 24) (s : State) (s' : State) (hx : execKSar n s = .next s') (hK : Keeps nv us ρ s) : Keeps nv us ρ s' := by
  unfold execKSar at hx
  cases hx
  simp +contextual (maxDischargeDepth := 60) only [State.kci_keeps, hK]

theorem execKRor_keeps (n : Fin 24) (s : State) (s' : State) (hx : execKRor n s = .next s') (hK : Keeps nv us ρ s) : Keeps nv us ρ s' := by
  unfold execKRor at hx
  cases hx
  simp +contextual (maxDischargeDepth := 60) only [State.kci_keeps, hK]

theorem execKMul_keeps (n : Fin 24) (s : State) (s' : State) (hx : execKMul n s = .next s') (hK : Keeps nv us ρ s) : Keeps nv us ρ s' := by
  unfold execKMul at hx
  cases hx
  simp +contextual (maxDischargeDepth := 60) only [State.kci_keeps, hK]

theorem execKMulh_keeps (n : Fin 24) (s : State) (s' : State) (hx : execKMulh n s = .next s') (hK : Keeps nv us ρ s) : Keeps nv us ρ s' := by
  unfold execKMulh at hx
  cases hx
  simp +contextual (maxDischargeDepth := 60) only [State.kci_keeps, hK]

theorem execKMulhu_keeps (n : Fin 24) (s : State) (s' : State) (hx : execKMulhu n s = .next s') (hK : Keeps nv us ρ s) : Keeps nv us ρ s' := by
  unfold execKMulhu at hx
  cases hx
  simp +contextual (maxDischargeDepth := 60) only [State.kci_keeps, hK]

theorem execKMin_keeps (n : Fin 24) (s : State) (s' : State) (hx : execKMin n s = .next s') (hK : Keeps nv us ρ s) : Keeps nv us ρ s' := by
  unfold execKMin at hx
  cases hx
  simp +contextual (maxDischargeDepth := 60) only [State.kci_keeps, hK]

theorem execKMax_keeps (n : Fin 24) (s : State) (s' : State) (hx : execKMax n s = .next s') (hK : Keeps nv us ρ s) : Keeps nv us ρ s' := by
  unfold execKMax at hx
  cases hx
  simp +contextual (maxDischargeDepth := 60) only [State.kci_keeps, hK]

theorem execKMinu_keeps (n : Fin 24) (s : State) (s' : State) (hx : execKMinu n s = .next s') (hK : Keeps nv us ρ s) : Keeps nv us ρ s' := by
  unfold execKMinu at hx
  cases hx
  simp +contextual (maxDischargeDepth := 60) only [State.kci_keeps, hK]

theorem execKMaxu_keeps (n : Fin 24) (s : State) (s' : State) (hx : execKMaxu n s = .next s') (hK : Keeps nv us ρ s) : Keeps nv us ρ s' := by
  unfold execKMaxu at hx
  cases hx
  simp +contextual (maxDischargeDepth := 60) only [State.kci_keeps, hK]

theorem execKCmp_keeps (n : Fin 24) (s : State) (s' : State) (hx : execKCmp n s = .next s') (hK : Keeps nv us ρ s) : Keeps nv us ρ s' := by
  unfold execKCmp at hx
  cases hx
  simp +contextual (maxDischargeDepth := 60) only [State.kci_keeps, hK]

theorem execKTst_keeps (n : Fin 24) (s : State) (s' : State) (hx : execKTst n s = .next s') (hK : Keeps nv us ρ s) : Keeps nv us ρ s' := by
  unfold execKTst at hx
  cases hx
  simp +contextual (maxDischargeDepth := 60) only [State.kci_keeps, hK]

theorem execKMov_keeps (n : Fin 24) (s : State) (s' : State) (hx : execKMov n s = .next s') (hK : Keeps nv us ρ s) : Keeps nv us ρ s' := by
  unfold execKMov at hx
  cases hx
  simp +contextual (maxDischargeDepth := 60) only [State.kci_keeps, hK]

theorem execKDiv_keeps (n : Fin 24) (s : State) (s' : State) (hx : execKDiv n s = .next s') (hK : Keeps nv us ρ s) : Keeps nv us ρ s' := by
  unfold execKDiv at hx
  cases hx
  simp +contextual (maxDischargeDepth := 60) only [State.kci_keeps, hK]

theorem execKDivu_keeps (n : Fin 24) (s : State) (s' : State) (hx : execKDivu n s = .next s') (hK : Keeps nv us ρ s) : Keeps nv us ρ s' := by
  unfold execKDivu at hx
  cases hx
  simp +contextual (maxDischargeDepth := 60) only [State.kci_keeps, hK]

theorem execKRem_keeps (n : Fin 24) (s : State) (s' : State) (hx : execKRem n s = .next s') (hK : Keeps nv us ρ s) : Keeps nv us ρ s' := by
  unfold execKRem at hx
  cases hx
  simp +contextual (maxDischargeDepth := 60) only [State.kci_keeps, hK]

theorem execKRemu_keeps (n : Fin 24) (s : State) (s' : State) (hx : execKRemu n s = .next s') (hK : Keeps nv us ρ s) : Keeps nv us ρ s' := by
  unfold execKRemu at hx
  cases hx
  simp +contextual (maxDischargeDepth := 60) only [State.kci_keeps, hK]

theorem execKClz_keeps (n : Fin 24) (s : State) (s' : State) (hx : execKClz n s = .next s') (hK : Keeps nv us ρ s) : Keeps nv us ρ s' := by
  unfold execKClz at hx
  cases hx
  simp +contextual (maxDischargeDepth := 60) only [State.kci_keeps, hK]

theorem execKLd_keeps (n : Fin 24) (s : State) (s' : State) (hx : execKLd n s = .next s') (hK : Keeps nv us ρ s) : Keeps nv us ρ s' := by
  unfold execKLd at hx
  cases hx
  simp +contextual (maxDischargeDepth := 60) only [State.kci_keeps, hK]

theorem execKSt_keeps (n : Fin 24) (s : State) (s' : State) (hx : execKSt n s = .next s') (hK : Keeps nv us ρ s) : Keeps nv us ρ s' := by
  unfold execKSt at hx
  cases hx
  simp +contextual (maxDischargeDepth := 60) only [State.kci_keeps, hK]

theorem execKLdr_keeps (n : Fin 24) (s : State) (s' : State) (hx : execKLdr n s = .next s') (hK : Keeps nv us ρ s) : Keeps nv us ρ s' := by
  unfold execKLdr at hx
  cases hx
  simp +contextual (maxDischargeDepth := 60) only [State.kci_keeps, hK]

theorem execKStr_keeps (n : Fin 24) (s : State) (s' : State) (hx : execKStr n s = .next s') (hK : Keeps nv us ρ s) : Keeps nv us ρ s' := by
  unfold execKStr at hx
  cases hx
  simp +contextual (maxDischargeDepth := 60) only [State.kci_keeps, hK]

theorem execKRxadd_keeps (n : Fin 24) (s : State) (s' : State) (hx : execKRxadd n s = .next s') (hK : Keeps nv us ρ s) : Keeps nv us ρ s' := by
  unfold execKRxadd at hx
  cases hx
  simp +contextual (maxDischargeDepth := 60) only [State.kci_keeps, hK]

theorem execKBr_keeps (n : Fin 24) (s : State) (s' : State) (hx : execKBr n s = .next s') (hK : Keeps nv us ρ s) : Keeps nv us ρ s' := by
  unfold execKBr at hx
  cases hx
  simp +contextual (maxDischargeDepth := 60) only [State.kci_keeps, hK]

theorem execKJal_keeps (n : Fin 24) (s : State) (s' : State) (hx : execKJal n s = .next s') (hK : Keeps nv us ρ s) : Keeps nv us ρ s' := by
  unfold execKJal at hx
  cases hx
  simp +contextual (maxDischargeDepth := 60) only [State.kci_keeps, hK]

theorem execKJr_keeps (n : Fin 24) (s : State) (s' : State) (hx : execKJr n s = .next s') (hK : Keeps nv us ρ s) : Keeps nv us ρ s' := by
  unfold execKJr at hx
  cases hx
  simp +contextual (maxDischargeDepth := 60) only [State.kci_keeps, hK]

theorem execKChrd_keeps (n : Fin 24) (s : State) (s' : State) (hx : execKChrd n s = .next s') (hK : Keeps nv us ρ s) : Keeps nv us ρ s' := by
  unfold execKChrd at hx
  cases hx
  simp +contextual (maxDischargeDepth := 60) only [State.kci_keeps, hK]

theorem execKChwr_keeps (n : Fin 24) (s : State) (s' : State) (hx : execKChwr n s = .next s') (hK : Keeps nv us ρ s) : Keeps nv us ρ s' := by
  unfold execKChwr at hx
  cases hx
  simp +contextual (maxDischargeDepth := 60) only [State.kci_keeps, hK]

theorem execKChrd64_keeps (n : Fin 24) (s : State) (s' : State) (hx : execKChrd64 n s = .next s') (hK : Keeps nv us ρ s) : Keeps nv us ρ s' := by
  unfold execKChrd64 at hx
  cases hx
  simp +contextual (maxDischargeDepth := 60) only [State.kci_keeps, hK]

theorem execKChstat_keeps (n : Fin 24) (s : State) (s' : State) (hx : execKChstat n s = .next s') (hK : Keeps nv us ρ s) : Keeps nv us ρ s' := by
  unfold execKChstat at hx
  cases hx
  simp +contextual (maxDischargeDepth := 60) only [State.kci_keeps, hK]

theorem execKMtrd_keeps (n : Fin 24) (s : State) (s' : State) (hx : execKMtrd n s = .next s') (hK : Keeps nv us ρ s) : Keeps nv us ρ s' := by
  unfold execKMtrd at hx
  cases hx
  simp +contextual (maxDischargeDepth := 60) only [State.kci_keeps, hK]

theorem execKStld_keeps (n : Fin 24) (s : State) (s' : State) (hx : execKStld n s = .next s') (hK : Keeps nv us ρ s) : Keeps nv us ρ s' := by
  unfold execKStld at hx
  cases hx
  simp +contextual (maxDischargeDepth := 60) only [State.kci_keeps, hK]

theorem execKStst_keeps (n : Fin 24) (s : State) (s' : State) (hx : execKStst n s = .next s') (hK : Keeps nv us ρ s) : Keeps nv us ρ s' := by
  unfold execKStst at hx
  cases hx
  simp +contextual (maxDischargeDepth := 60) only [State.kci_keeps, hK]

theorem execKStadd_keeps (n : Fin 24) (s : State) (s' : State) (hx : execKStadd n s = .next s') (hK : Keeps nv us ρ s) : Keeps nv us ρ s' := by
  unfold execKStadd at hx
  cases hx
  simp +contextual (maxDischargeDepth := 60) only [State.kci_keeps, hK]

theorem execKStsub_keeps (n : Fin 24) (s : State) (s' : State) (hx : execKStsub n s = .next s') (hK : Keeps nv us ρ s) : Keeps nv us ρ s' := by
  unfold execKStsub at hx
  cases hx
  simp +contextual (maxDischargeDepth := 60) only [State.kci_keeps, hK]

theorem execKStaddi_keeps (n : Fin 24) (s : State) (s' : State) (hx : execKStaddi n s = .next s') (hK : Keeps nv us ρ s) : Keeps nv us ρ s' := by
  unfold execKStaddi at hx
  cases hx
  simp +contextual (maxDischargeDepth := 60) only [State.kci_keeps, hK]

theorem execKStcmp_keeps (n : Fin 24) (s : State) (s' : State) (hx : execKStcmp n s = .next s') (hK : Keeps nv us ρ s) : Keeps nv us ρ s' := by
  unfold execKStcmp at hx
  cases hx
  simp +contextual (maxDischargeDepth := 60) only [State.kci_keeps, hK]

theorem execKShrd_keeps (n : Fin 24) (s : State) (s' : State) (hx : execKShrd n s = .next s') (hK : Keeps nv us ρ s) : Keeps nv us ρ s' := by
  unfold execKShrd at hx
  cases hx
  simp +contextual (maxDischargeDepth := 60) only [State.kci_keeps, hK]

theorem execKAccrd_keeps (n : Fin 24) (s : State) (s' : State) (hx : execKAccrd n s = .next s') (hK : Keeps nv us ρ s) : Keeps nv us ρ s' := by
  unfold execKAccrd at hx
  cases hx
  simp +contextual (maxDischargeDepth := 60) only [State.kci_keeps, hK]

theorem execKMmrd_keeps (n : Fin 24) (s : State) (s' : State) (hx : execKMmrd n s = .next s') (hK : Keeps nv us ρ s) : Keeps nv us ρ s' := by
  unfold execKMmrd at hx
  cases hx
  simp +contextual (maxDischargeDepth := 60) only [State.kci_keeps, hK]

theorem execKSysrd_keeps (n : Fin 24) (s : State) (s' : State) (hx : execKSysrd n s = .next s') (hK : Keeps nv us ρ s) : Keeps nv us ρ s' := by
  unfold execKSysrd at hx
  cases hx
  simp +contextual (maxDischargeDepth := 60) only [State.kci_keeps, hK]

theorem execKWaitt_keeps (n : Fin 24) (s : State) (s' : State) (hx : execKWaitt n s = .next s') (hK : Keeps nv us ρ s) : Keeps nv us ρ s' := by
  unfold execKWaitt at hx
  cases hx
  simp +contextual (maxDischargeDepth := 60) only [State.kci_keeps, hK]

theorem execKWaita_keeps (n : Fin 24) (s : State) (s' : State) (hx : execKWaita n s = .next s') (hK : Keeps nv us ρ s) : Keeps nv us ρ s' := by
  unfold execKWaita at hx
  cases hx
  simp +contextual (maxDischargeDepth := 60) only [State.kci_keeps, hK]

theorem execKPost_keeps (n : Fin 24) (s : State) (s' : State) (hx : execKPost n s = .next s') (hK : Keeps nv us ρ s) : Keeps nv us ρ s' := by
  unfold execKPost at hx
  cases hx
  simp +contextual (maxDischargeDepth := 60) only [State.kci_keeps, hK]

theorem execKCancel_keeps (n : Fin 24) (s : State) (s' : State) (hx : execKCancel n s = .next s') (hK : Keeps nv us ρ s) : Keeps nv us ρ s' := by
  unfold execKCancel at hx
  cases hx
  simp +contextual (maxDischargeDepth := 60) only [State.kci_keeps, hK]

theorem execKPush_keeps (n : Fin 24) (s : State) (s' : State) (hx : execKPush n s = .next s') (hK : Keeps nv us ρ s) : Keeps nv us ρ s' := by
  unfold execKPush at hx
  cases hx
  simp +contextual (maxDischargeDepth := 60) only [State.kci_keeps, hK]

theorem execKPop_keeps (n : Fin 24) (s : State) (s' : State) (hx : execKPop n s = .next s') (hK : Keeps nv us ρ s) : Keeps nv us ρ s' := by
  unfold execKPop at hx
  cases hx
  simp +contextual (maxDischargeDepth := 60) only [State.kci_keeps, hK]

theorem execKYield_keeps (n : Fin 24) (s : State) (s' : State) (hx : execKYield n s = .next s') (hK : Keeps nv us ρ s) : Keeps nv us ρ s' := by
  unfold execKYield at hx
  cases hx
  simp +contextual (maxDischargeDepth := 60) only [State.kci_keeps, hK]

theorem execKHalt_keeps (n : Fin 24) (s : State) (s' : State) (hx : execKHalt n s = .next s') (hK : Keeps nv us ρ s) : Keeps nv us ρ s' := by
  unfold execKHalt at hx
  cases hx
  simp +contextual (maxDischargeDepth := 60) only [State.kci_keeps, hK]

theorem execKSwapArm_keeps (n : Fin 24) (s : State) (s' : State) (hx : execKSwapArm n s = .next s') (hK : Keeps nv us ρ s) : Keeps nv us ρ s' := by
  unfold execKSwapArm at hx
  cases hx
  simp +contextual (maxDischargeDepth := 60) only [State.kci_keeps, hK]

theorem execKSwapDisarm_keeps (n : Fin 24) (s : State) (s' : State) (hx : execKSwapDisarm n s = .next s') (hK : Keeps nv us ρ s) : Keeps nv us ρ s' := by
  unfold execKSwapDisarm at hx
  cases hx
  simp +contextual (maxDischargeDepth := 60) only [State.kci_keeps, hK]

theorem execKSwapQuery_keeps (n : Fin 24) (s : State) (s' : State) (hx : execKSwapQuery n s = .next s') (hK : Keeps nv us ρ s) : Keeps nv us ρ s' := by
  unfold execKSwapQuery at hx
  cases hx
  simp +contextual (maxDischargeDepth := 60) only [State.kci_keeps, hK]

theorem execNapWakeComplete_keeps (s : State) (s' : State) (hx : execNapWakeComplete s = .next s') (hK : Keeps nv us ρ s) : Keeps nv us ρ s' := by
  unfold execNapWakeComplete at hx
  cases hx
  simp +contextual (maxDischargeDepth := 60) only [State.napWakeComplete_keeps, hK]

theorem execClusterWakeEnd_keeps (n : Fin 24) (s : State) (s' : State) (hx : execClusterWakeEnd n s = .next s') (hK : Keeps nv us ρ s) : Keeps nv us ρ s' := by
  unfold execClusterWakeEnd at hx
  cases hx
  simp +contextual (maxDischargeDepth := 60) only [State.clusterWakeEnd_keeps, State.onTclk_keeps, hK]

end Sys2Proof.Machine
end

