-- ==== Sys2Proof/WellFormed.lean ====
section
/-!
DEFINITION. Which operands a sender can give a command. Indices of channels, clusters, shafts, rings and the like are Fin types already;
here stand the addresses, offsets, widths and lengths of spec/00_scope.md R6, spec/01_architecture.md R24 and R25, and the frame sizes of
spec/15_host_ports_and_headgate.md and spec/16_network_and_shaft_sharing.md. A meaning is total on ill-formed operands as well.
-/

namespace Sys2Proof

/-- An aligned word address of Window A (R6, R24). -/
def wfAddr (a : Nat) : Bool := decide (a < 2 ^ 26) && a % 4 == 0

/-- An aligned register offset within a block of `size` bytes. -/
def wfOff (size off : Nat) : Bool := decide (off < size) && off % 4 == 0

/-- A width and an offset that Window B accepts (R25). -/
def wfWindowB (off size : Nat) : Bool :=
  (size == 1 || size == 2 || size == 4 || size == 8) && off % size == 0 && decide (off + size ≤ 2 ^ 24)

/-- A UDP payload that an unfragmented IPv4 datagram of an Ethernet frame holds (R328). -/
def wfDatagram (n : Nat) : Bool := decide (n ≤ 1472)

/-- A 32-bit QSPI address (R303). -/
def wfQspi (a : Nat) : Bool := decide (a < 2 ^ 32)

/-- The operands of the command are ones that its sender can give. The rows not named carry operands that are right by their types. -/
def Instr.wf (i : Instr) : Bool :=
  match i with
  | .registerWrite a _ => wfAddr a
  | .rcRead a => wfAddr a
  | .pcieMemoryRequest _ a dws => wfAddr a && !dws.isEmpty && decide (a + 4 * dws.length ≤ 2 ^ 26)
  | .windowBRead off size => wfWindowB off size
  | .windowBWrite off size _ => wfWindowB off size
  | .qspiRead _ a _ _ => wfQspi a
  | .qspiQread a _ _ => wfQspi a
  | .qspiWrite a _ _ => wfQspi a
  | .qspiQwrite a _ _ => wfQspi a
  | .pinSelWrite a _ => wfAddr a && a / 0x10000 == 6
  | .mitCfgWrite a _ => wfAddr a && a / 0x10000 == 5
  | .feedbackCfgWrite a _ => wfAddr a && a / 0x10000 == 8
  | .irqSelectWrite a _ => wfAddr a
  | .shCtrlWrite _ off _ => wfOff 0x1000 off
  | .thContextWrite _ _ off _ => wfOff 0x100 off
  | .portCtrlWrite _ off _ => wfOff 0x400 off
  | .flashLoad image => decide (image.length ≤ 2 ^ 24)
  | .ponarUdpDatagram _ _ _ bytes => wfDatagram bytes.length
  | .icmpEcho _ _ _ body => wfDatagram body.length
  | .discover _ _ _ bytes => wfDatagram bytes.length
  | .userDatagramRx _ bytes => wfDatagram bytes.length
  | .shaftExport _ bytes => wfDatagram bytes.length
  | .gptpSync _ m _ => m.times.all (fun t => decide (t.ns.toNat < 1000000000))
  | _ => true

end Sys2Proof
end

