-- ==== Sys2Proof/Tests/Slice0.lean ====
section
/-!
SUPPORT. Witnesses and tests. Each test names the hypotheses of the clauses of the statements that it is a case of (the list in `shows`),
runs one command on a small state, and checks a field or two of the result by the rules of the spec. Where a result rests on a free value
or on OTP, or is too long for the kernel, a test checks the hypotheses alone.
-/

namespace Sys2Proof.Tests

open Machine Machine.Reg

/-- The hypotheses hold, the command answers a next state, and `f` holds of it. -/
def shows (hyps : List Bool) (o : Host.Outcome State Fault Refusal) (f : State → Bool) : Bool :=
  hyps.all id && (match o with | .next t => f t | _ => false)
/-- `State.accepts`, as a Bool. -/
def acc (s : State) (a : Nat) (v : Word) : Bool :=
  s.power.phase == .run && s.power.bclk && !s.sealLocks a v && !s.hostBlocked false && !s.meetsGate a && !s.wroteNow a
/-- The state after reset, at tick 1000, with these register words. -/
def withRegs (l : List (Nat × Word)) : State :=
  l.foldl (fun s e => s.setReg e.1 e.2) { State.reset with mt := 1000, start := none }
set_option Elab.async false
set_option maxRecDepth 20000

/-! Window A and B -/
def win0 : State := withRegs []
theorem test_unassigned_reads_zero : shows [win0.reg 0xD0000 == 0, win0.reg 0x10ABC == 0, (regRow 0x10ABC).isNone, win0.wroteNow 0xD0000 == false]
    (exec (.rcRead 0x10ABC) win0) (fun t => t == win0.returning [0]) &&
  shows [] (exec (.registerWrite 0xD0000 5) win0) (fun t => t == win0.noteHost 0xD0000) := by decide
theorem test_write_waits_behind_a_write : let s := win0.noteHost (PERIOD 3); let u := { win0 with later := [.host false (PERIOD 3) 5] }
  shows [s.wroteNow (PERIOD 3), !s.sealLocks (PERIOD 3) 5, !s.meetsGate (PERIOD 3)] (exec (.registerWrite (PERIOD 3) 5) s)
    (fun t => t == { s with later := [.host false (PERIOD 3) 5] }) &&
  shows [u.hostBlocked false, !u.wroteNow (COUNT 3)] (exec (.registerWrite (COUNT 3) 6) u) (fun t => t == { u with later := [.host false (PERIOD 3) 5, .host false (COUNT 3) 6] }) &&
  shows [u.hostBlocked false] (exec (.windowBWrite 8 4 6) u) (fun t => t == { u with later := [.host false (PERIOD 3) 5, .windowB 8 4 6] }) := by decide
theorem test_write_follows_its_rule : shows [acc win0 (PERIOD 3) 5] (exec (.registerWrite (PERIOD 3) 5) win0)
    (fun t => t == (win0.noteHost (PERIOD 3)).busWrite (PERIOD 3) 5 && t.reg (PERIOD_ACT 3) == 5) := by decide
theorem test_mt_lo_read : let s := { win0 with mt := 0x500000007 }
  shows [] (exec .mtLoRead s) (fun t => t.hostData == [6] && t.reg MT_HI == 5) := by decide
theorem test_rc_counter : let s := withRegs [(STALE_CNT, 7)]
  shows [STALE_CNT ∈ [ACC_ERR_CNT, LOCK_REFUSED_CNT, AUTH_FAIL_CNT, STALE_CNT]] (exec (.rcRead STALE_CNT) s)
    (fun t => t.hostData == [7] && t.reg STALE_CNT == 0) := by decide
theorem test_plain_write : (regRow (WDOG_CFG)).isSome && (win0.plainWrite WDOG_CFG 0xFFFFFFFF).reg WDOG_CFG == 0xC00FFFFF := by decide
theorem test_pcie_write_of_two : shows [] (exec (.pcieMemoryRequest true (PERIOD 3) [(0xF, 5), (0xF, 0)]) win0)
    (fun t => t.reg (PERIOD 3) == 5 && t == ((match exec (.registerWrite (PERIOD 3) 5) win0 with | .next u => u | _ => win0).writeA false (PERIOD 3 + 4) 0)) := by decide
theorem test_pcie_partial_word : shows [] (exec (.pcieMemoryRequest true 0x10000 [(0x7, 5)]) win0)
    (fun t => t.sent == [.unsupported 0x10000] && t.reg ACC_ERR_ADDR == 0x10000 && t.reg ACC_ERR_CNT == 1) := by decide
theorem test_pcie_hot_reset : let s := { win0 with power := { win0.power with msixEnable := true } }
  shows [] (exec .pcieHotReset s) (fun t => t == win0) := by decide
theorem test_window_b_write : shows [windowBOk 0xFFFFFC 4, !win0.resPoisoned 0xFFFFFC 4] (exec (.windowBWrite 0xFFFFFC 4 0x123456789A) win0)
    (fun t => t.resRead 0xFFFFFC 4 == 0x3456789A && Memory.byte t.reservoir 0xFFFFFC == 0x9A) := by decide
theorem test_window_b_read : let s := { win0 with reservoir := [(8, 1), (15, 2)] }
  shows [windowBOk 8 8, !s.resPoisoned 8 8] (exec (.windowBRead 8 8) s) (fun t => t.hostData == [1, 0x2000000]) := by decide
theorem test_window_b_poison : let s := { win0 with poison := [1] }
  shows [windowBOk 8 4, s.resPoisoned 8 4] (exec (.windowBRead 8 4) s) (fun t => t.sent == [.poisoned 8] && t.bit GSTAT 7) &&
  shows [] (exec (.windowBWrite 12 4 5) s) (fun t => t.bit GSTAT 7 && t.reservoir == [] && t.poison == [1]) &&
  shows [] (exec (.windowBWrite 8 8 5) s) (fun t => t.reservoir == [(8, 5)] && t.poison == []) := by decide
theorem test_qspi_read : shows [] (exec (.qspiRead 0x0B#8 0x10000 2 false) win0) (fun t => t.hg.qspi == 1) &&
  shows [] (exec (.qspiQread 0x3FFFFFC 1 false) win0) (fun t => t.hg.qspi == 1) &&
  shows [] (exec (.qspiQread 0 0 false) win0) (fun t => t.hg.qspi == 1) := by decide
theorem test_qspi_write : shows [acc win0 (PERIOD 3) 5] (exec (.qspiWrite (PERIOD 3) [5] false) win0)
    (fun t => t == ((win0.noteHost (PERIOD 3)).busWrite (PERIOD 3) 5).setQspi true false false false) &&
  shows [] (exec (.qspiQwrite (PERIOD 3) [5] false) win0) (fun t => t.reg (PERIOD 3) == 5 && t.hg.qspi == 1) := by decide
theorem test_qspi_frames : shows [] (exec (.qspiWrite (PERIOD 3) [5, 0] false) win0) (fun t => t.reg (PERIOD 3) == 5 && t.hg.qspi == 1) &&
  shows [] (exec (.qspiRead 0x0B#8 (CH_CTRL 3) 4 false) (withRegs [(PERIOD 3, 5)])) (fun t => t.hostData.length == 4 && t.hostData.getD 3 0 == 5) &&
  shows [] (exec (.qspiQread 0x40001 1 false) win0) (fun t => t.hg.qspi == 2) &&
  shows [] (exec (.qspiWrite 0x40001 [5] false) win0) (fun t => t.hg.qspi == 2) := by decide +kernel
def sealedState : State := { win0 with nvm := { win0.nvm with sealed := true } }
theorem test_qspi_sealed : shows [sealedState.sealLocks WDOG_CFG 5] (exec (.qspiWrite WDOG_CFG [5] false) sealedState) (fun t => t.hg.qspi == 8) &&
  shows [] (exec (.qspiQwrite WDOG_CFG [5] false) sealedState) (fun t => t.hg.qspi == 8) := by decide
theorem test_qspi_status_and_id : shows [] (exec .qspiStatus win0) (fun t => t == win0.returning [win0.qspiStatusByte]) &&
  shows [] (exec .qspiId win0) (fun t => t == (win0.returning [win0.reg ID_PART]).setQspi true false false false) := by decide
/-! Channels -/
def run3 (more : List (Nat × Word)) : State := withRegs ([(CH_CTRL 3, 1), (PERIOD_ACT 3, 9), (COUNT 3, 5)] ++ more)
theorem test_count_write : let s := withRegs [(PERIOD_ACT 3, 9)]
  shows [acc s (COUNT 3) 9] (exec (.countWrite 3 9) s) (fun t => t.reg (COUNT 3) == 9) &&
  shows [acc s (COUNT 3) 10] (exec (.countWrite 3 10) s) (fun t => t.reg (COUNT 3) == 0 && t.bit (CH_STATUS 3) 6) := by decide
theorem test_count_read : let s := withRegs [(CH_CTRL 2, 0x800000), (COUNT 2, 7), (COUNT 3, 8)]
  shows [s.pairMode 2 == 2] (exec (.countRead 2) s) (fun t => t == { s.setChan 2 { s.chan 2 with hiShadow := 8 } with touched := [COUNT 3], hostData := [7] } &&
    (match exec (.rcRead (COUNT 3)) t with | .next u => u.hostData == [8] | _ => false)) &&
  shows [s.pairMode 3 == 2] (exec (.countRead 3) s) (fun t => t.hostData == [0]) &&
  shows [s.pairMode 4 != 2] (exec (.countRead 4) s) (fun t => t.hostData == [0]) := by decide +kernel
theorem test_pair_snapshot : let s := withRegs [(COUNT 2, 7), (COUNT 3, 8), (PAIR_SNAP_SEQ 2, 0xFFFF)]
  shows [acc s (PAIR_SNAPSHOT 2) 1] (exec (.pairSnapshotTake 2 1) s) (fun t => t.takes == [.pair 2] && (let u := t.runTakes; u.reg (PAIR_SNAP_LO 2) == 7 &&
    u.reg (PAIR_SNAP_HI 2) == 8 && u.pair (PAIR_SNAP_MT_LO 2) (PAIR_SNAP_MT_HI 2) == s.mt && u.reg (PAIR_SNAP_SEQ 2) == 0 && u.takes == [])) &&
  shows [acc s (CH_CTRL 3 + 0x018) 1] (exec (.pairSnapshotTake 3 1) s) (fun t => t == s.noteHost (CH_CTRL 3 + 0x018)) := by decide
theorem test_ch_ctrl_cascade :
  (let s := withRegs []; shows [acc s (CH_CTRL 4) 0x800000, !s.bit (CH_CTRL 4) 0, !s.bit (CH_CTRL 5) 0, s.pairMode 4 != 2]
    (exec (.chCtrlWrite 4 0x800000) (s.setChan 4 { s.chan 4 with hiShadow := 7 })) (fun t => t.pairMode 4 == 2 && (t.chan 4).hiShadow == 0)) &&
  (let s := withRegs [(CH_CTRL 4, 0x400000)]; shows [acc s (CH_CTRL 4) 0x800000, s.pairMode 4 == 1]
    (exec (.chCtrlWrite 4 0x800000) (s.setChan 4 { s.chan 4 with hiShadow := 7 })) (fun t => t.pairMode 4 == 2 && (t.chan 4).hiShadow == 0)) := by decide
theorem test_ch_ctrl : let s := run3 []
  shows [acc s (CH_CTRL 3) 0x11] (exec (.chCtrlWrite 3 0x11) s) (fun t => t == (s.noteHost (CH_CTRL 3)).raise (CH_STATUS 3) 7) &&
  shows [acc s (CH_CTRL 3) 0] (exec (.chCtrlWrite 3 0) s) (fun t => t == (((s.noteHost (CH_CTRL 3)).setReg (CH_CTRL 3) 0).stopped 3).copyWritten 3) &&
  (let s := withRegs [(PERIOD_ACT 3, 9), (CH_CTRL 3, 0x10)]
   shows [acc s (CH_CTRL 3) 0x11] (exec (.chCtrlWrite 3 0x11) s) (fun t => t.running 3 && (t.chan 3).startDue == some 1001) &&
   shows [acc s (CH_CTRL 3) 0x00] (exec (.chCtrlWrite 3 0) s) (fun t => t == (s.noteHost (CH_CTRL 3)).setReg (CH_CTRL 3) 0)) := by decide
theorem test_written_before_stop : let s := (((run3 [(PERIOD 3, 4), (OUT_FINE 3, 6), (OUT_CTRL 3, 2)]).noteHost (PERIOD 3)).noteHost (OUT_FINE 3)).noteHost (OUT_CTRL 3)
  [s.wroteAlready (PERIOD 3), s.wroteAlready (OUT_FINE 3), s.wroteAlready (OUT_CTRL 3), (s.copyWritten 3).reg (PERIOD_ACT 3) == 4,
    ((s.copyWritten 3).chan 3).outFineAct == 6, (s.copyWritten 3).fld (OUT_CTRL 3) 14 12 == 2, win0.copyWritten 3 == win0].all id := by decide
theorem test_nothing_written (a : Nat) : win0.wroteAlready a = false := rfl
theorem test_period_write : let s := run3 []
  shows [acc s (PERIOD 3) 4, s.running 3] (exec (.periodWrite 3 false 4) s) (fun t => t.reg (PERIOD 3) == 4 && t.reg (PERIOD_ACT 3) == 9) &&
  shows [acc s (PRESCALE 3) 0xA0004] (exec (.periodWrite 3 true 0xA0004) s) (fun t => t.reg (PRESCALE 3) == 4) := by decide
theorem test_cmp_write : let s := run3 []
  shows [acc s (CMP 3 1) 4, !s.cmpLive 3 1] (exec (.cmpPreloadWrite 3 1 4) s) (fun t => t.reg (CMP 3 1) == 4 && t.reg (CMP_ACT 3 1) == 0) := by decide
theorem test_cmp_live_write : let s := run3 [(CMP_CFG 3, 0x2000)]
  shows [acc s (CMP 3 1) 5, s.cmpLive 3 1] (exec (.cmpLiveWrite 3 1 5) s) (fun t => t.reg (CMP_ACT 3 1) == 5 && (t.chan 3).writeTrig == [(1, 1001, 5)]) &&
  shows [] (exec (.cmpLiveWrite 3 1 4) s) (fun t => t.bit (CMP_STATUS 3) 9) &&
  shows [] (exec (.cmpLiveWrite 3 1 6) s) (fun t => !t.bit (CMP_STATUS 3) 9 && (t.chan 3).writeTrig == []) &&
  shows [] (exec (.cmpLiveWrite 3 1 10) s) (fun t => !t.bit (CMP_STATUS 3) 9) := by decide
theorem test_cmp_cfg_write : let s := run3 []
  shows [acc s (CMP_CFG 3) 0xF3] (exec (.cmpCfgWrite 3 0xF3) s) (fun t => t.reg (CMP_CFG 3) == 0xF3) &&
  (let s := withRegs []
   shows [acc s (CMP_CFG 3) 0xF3] (exec (.cmpCfgWrite 3 0xF3) s) (fun t => t.reg (CMP_CFG 3) == 0xF3F3)) := by decide
theorem test_counting_step : let s := run3 [(PRESCALE 3, 0x10000)]
  shows [s.running 3, (s.chan 3).startDue == none, (s.chan 3).lastSource != some s.mt, !s.cascadeHi 3, s.sourceEvent 3, decide ((s.chan 3).phase < s.fld (PRESCALE 3) 31 16)]
    (exec (.countingStep 3) s) (fun t => t.reg (COUNT 3) == 5 && (t.chan 3).phase == 1) &&
  (let s := run3 []
   shows [decide (s.fld (PRESCALE 3) 31 16 ≤ (s.chan 3).phase), !s.bit (CH_CTRL 3) 4] (exec (.countingStep 3) s) (fun t => t.reg (COUNT 3) == 6 && (t.chan 3).lastSource == some s.mt)) &&
  (let s := (run3 []).setReg (COUNT 3) 9
   shows [] (exec (.countingStep 3) s) (fun t => t.reg (COUNT 3) == 0 && t.bit (CH_STATUS 3) 5 && (t.chan 3).lastPeriod == some s.mt)) := by decide
theorem test_start_tick : let s := (run3 []).setChan 3 { Chan.init with startDue := some 1000 }
  shows [s.reached 1000, s.running 3] (exec (.startTick 3) s) (fun t => t.bit (CH_STATUS 3) 5 && (t.chan 3).startDue == none && (t.chan 3).lastPeriod == some 1000) := by decide
theorem test_write_trigger : let s := (run3 [(CMP_CFG 3, 0x200)]).setChan 3 { Chan.init with writeTrig := [(1, 1000, 5)], matched := 2 }
  shows [(s.chan 3).trigDue s 1 == some (1, 1000, 5), s.running 3, s.cmpEnabled 3 1, decide ((5 : Word) ≤ s.reg (PERIOD_ACT 3)), !s.matchedNow 3 1]
    (exec (.writeTrigger 3 1) s) (fun t => t.bit (CMP_STATUS 3) 1 && t.bit (CMP_STATUS 3) 5 && (t.chan 3).writeTrig == []) := by decide

/-! Outputs, edges and trains -/
theorem test_out_ctrl : let s := run3 [(OUT_CTRL 3, 0x1001), (OUT_STATUS 3, 0)]
  shows [acc s (OUT_CTRL 3) 0x703, !s.bit (OUT_STATUS 3) 1] (exec (.outCtrlWrite 3 0x703) s) (fun t => t.reg (OUT_CTRL 3) == 0x1703) := by decide
theorem test_out_ctrl_stopped : let s := withRegs [(OUT_CTRL 3, 0x1001)]
  shows [acc s (OUT_CTRL 3) 0x703, !s.running 3] (exec (.outCtrlWrite 3 0x703) s) (fun t => t.reg (OUT_CTRL 3) == 0x3703) := by decide
theorem test_out_fine : let s := run3 []
  shows [acc s (OUT_FINE 3) 0x11] (exec (.outFineWrite 3 false 0x11) s) (fun t => t.reg (OUT_FINE 3) == 0x11 && (t.chan 3).outFineAct == 0) &&
  shows [acc s (CH_CTRL 3 + 0x068) 0x11] (exec (.outFineWrite 3 true 0x11) s) (fun t => t == s.noteHost (CH_CTRL 3 + 0x068)) &&
  shows [acc s (DT_CFG 2) 0x11] (exec (.outFineWrite 2 true 0x11) s) (fun t => t.reg (DT_CFG 2) == 0x11 && (t.chan 2).dtAct == 0x11) := by decide
theorem test_sync_arrival : let s := (withRegs []).setWeir 1 { Weir.init with syncDue := [1000] }
  shows [s.reached 1000] (exec (.syncPulseArrival 1) s) (fun t => (List.range 16).all (fun j => t.bit (OUT_STATUS (16 + j)) 2)) := by decide
theorem test_sync_in : let s := withRegs []; let u := (withRegs []).setWeir 1 { Weir.init with syncDue := [1001] }
  shows [!(s.weir 0).syncDue.contains (s.mt + 3)] (exec (.syncInEdge 2) s) (fun t => (t.weir 0).syncDue == [1003]) &&
  shows [!u.reached 1001] (exec (.syncPulseArrival 1) u) (fun t => t == u) := by decide
theorem test_sync_out_fall : let s := { win0 with power := { win0.power with syncOut := [(63000, 64000)] } }
  shows [s.stampReached 64000] (exec .syncOutFall s) (fun t => t.power.syncOut == []) := by decide
def edgeAt (st : Stamp) (lvl : Bool) : Edge := { stamp := st, level := lvl, counted := false, both := false, cause := 0 }
theorem test_edge_emit : let s := win0.setChan 3 { Chan.init with edges := [edgeAt 64010 true] }
  shows [!s.inPair 3, s.stampReached 64010, !s.outLevel 3, s.lastEdge 3 == none] (exec (.edgeEmit 3) s)
    (fun t => t.outLevel 3 && (t.chan 3).lastEdge == some 64010 && (t.chan 3).edges == []) &&
  (let s := win0.setChan 3 { Chan.init with edges := [edgeAt 64010 true], lastEdge := some 63755 }
   shows [ahead 64010 63755 < 256] (exec (.edgeEmit 3) s) (fun t => (t.chan 3).held == some (edgeAt 64011 true) && t.bit (OUT_STATUS 3) 0)) &&
  (let s := win0.setChan 3 { Chan.init with edges := [edgeAt 64010 true], lastEdge := some 63754 }
   shows [ahead 64010 63754 ≥ 256] (exec (.edgeEmit 3) s) (fun t => t.outLevel 3)) := by decide
theorem test_pending_edge : let s := win0.setChan 3 { Chan.init with held := some (edgeAt 64010 true) }
  shows [s.stampReached 64010] (exec (.pendingEdgeEmit 3) s) (fun t => t.outLevel 3 && (t.chan 3).held == none && (t.chan 3).lastEdge == some 64010) := by decide
theorem test_dead_time_rise : let s := (withRegs [(CH_CTRL 2, 0x400000)]).setChan 2 { Chan.init with delayed := some (edgeAt 64010 true) }
  shows [s.stampReached (s.riseStamp 2 (edgeAt 64010 true)), (s.chan 3).held == none] (exec (.deadTimeRise 2) s)
    (fun t => t.outLevel 2 && (t.chan 2).delayed == none && (t.chan 2).lastEdge == some (s.riseStamp 2 (edgeAt 64010 true))) := by decide
def train3 (more : List (Nat × Word)) : State := run3 ([(OUT_CTRL 3, 0x4004), (PT_CMD 3, 3), (PT_EMIT 3, 9)] ++ more)
theorem test_pt_start : let s := train3 []
  shows [acc s (PT_CTRL 3) 1, s.startOk 3] (exec (.ptStart 3 1) s) (fun t => t.reg (PT_EMIT 3) == 0 && (t.chan 3).ptRemain == 3 && t.trainActive 3 &&
    (t.chan 3).trainStart == some { due := 1001, restart := true }) := by decide
theorem test_pt_start_refused : let s := run3 []
  shows [acc s (PT_CTRL 3) 1, !s.startOk 3] (exec (.ptStart 3 1) s) (fun t => t == ((s.noteHost (PT_CTRL 3)).raise (PT_STATUS 3) 3).chanEvent 3 2) := by decide
theorem test_pt_stop : let s := train3 [(PT_STATUS 3, 1)]
  shows [acc s (PT_CTRL 3) 2, s.trainActive 3, (s.chan 3).stopReq == none] (exec (.ptStop 3 2) s) (fun t => (t.chan 3).stopReq == some 1000) &&
  (let s := s.setChan 3 { s.chan 3 with stopReq := some 999 }
   shows [acc s (PT_CTRL 3) 2, s.trainActive 3] (exec (.ptStop 3 2) s) (fun t => (t.chan 3).stopReq == some 999)) := by decide
theorem test_pt_restart : let s := (train3 [(PT_STATUS 3, 1)]).setChan 3 { Chan.init with trainStart := some { due := 1000, restart := true }, ptRemain := 3 }
  shows [s.reached 1000, s.running 3, (s.chan 3).lastPeriod != some s.mt, (s.chan 3).lastStart != some s.mt] (exec (.ptRestart 3) s)
    (fun t => t.reg (COUNT 3) == 0 && t.bit (CH_STATUS 3) 5 && (t.chan 3).trainStart == none) &&
  (let s := (train3 []).setChan 3 { Chan.init with trainStart := some { due := 1000, restart := false } }
   shows [s.reached 1000] (exec (.ptRestart 3) s) (fun t => t.bit (PT_STATUS 3) 1 && (t.chan 3).trainStart == none)) := by decide
theorem test_pt_cmd : let s := train3 [(PT_STATUS 3, 1)]
  shows [acc s (PT_CMD 3) 7] (exec (.ptCmdWrite 3 7) s) (fun t => t.reg (PT_CMD 3) == 3 && t.bit (PT_STATUS 3) 4) := by decide
theorem test_pt_emit_read : let s := (train3 []).setChan 3 { Chan.init with ptSkip := 2, ptRemain := 4 }
  shows [] (exec (.ptEmitRead 3) s) (fun t => t.hostData == [9] && t.reg (PT_SKIP 3) == 2 && t.reg (PT_REMAIN 3) == 4) := by decide
/-! Calibration and capture -/
def calState (slot : Option Tick) (meas : Option (Nat × Tick)) : State :=
  { win0 with cal := { win0.cal with initial := none, slotDue := slot, measuring := meas, nextCh := 383 } }
theorem test_cal_slot : let s := calState (some 1000) none
  shows [s.reached 1000] (exec .calSlotStart s) (fun t => t.cal.measuring == some (383, 2000) && t.cal.slotDue == some 9000 && t.cal.nextCh == 0 &&
    t.fld CALENG_CAL_STATUS 24 16 == 383) := by decide
theorem test_initial_round_end : let s := { win0 with cal := { win0.cal with initial := some (384, false), measuring := none } }
  shows [] (exec .initialRoundEnd s) (fun t => t.bit CALENG_CAL_STATUS 0 && t.cal.initial == none && t.cal.slotDue == some 1001) := by decide
theorem test_cal_ctrl : let s := calState (some 1000) none
  shows [acc s CALENG_CAL_CTRL 0] (exec (.calCtrlWrite 0) s) (fun t => t.cal.slotDue == none && !t.bit CALENG_CAL_CTRL 0) := by decide
theorem test_cal_done : let s := calState none (some (3, 1500))
  shows [decide (64 * 256 ≤ ((0x4100 : BitVec 16) - 0x100).toNat), s.offLine 3 == 1] (exec (.calMeasurementDone 0x100 ⟨0x1200, 0x2200, 0x3200, 0x4100⟩) s)
    (fun t => (t.chan 3).fresh == some (1000, 0x4000) && t.fld (EU_TAPS 3) 31 16 == 0x4000 && t.bit (EU_STATUS 3) 2 &&
      (t.chan 3).map1 == some ⟨0x100, 0x1200, 0x2200, 0x3200, 0x4100⟩ && (t.chan 3).map0 == none) &&
  shows [] (exec (.calMeasurementDone 0 ⟨1, 2, 3, 0x5C01⟩) s) (fun t => (t.chan 3).fresh == none && t.reg CAL_FAIL == 1 && t.cal.measuring == none) := by decide
theorem test_line_swap : let s := ((calState none none).setReg (EU_TAPS 3) 0x1234).setChan 3 { Chan.init with fresh := some (900, 0x5000) }
  shows [s.swapPoint 3, !s.measuringCh 3] (exec (.lineSwap 3) s) (fun t => t.reg (EU_TAPS 3) == 0x12345000 && t.fld (EU_STATUS 3) 0 0 == 1 && t.reg (SWAP_CNT 3) == 1 && (t.chan 3).measured == some 900) := by decide
theorem test_cal_stale : let s := { (win0.setChan 3 { Chan.init with measured := some 0 }).setReg (EU_STATUS 3) 0 with mt := 7681 * 800 }
  shows [decide (7680 < s.age 3), !s.bit (EU_STATUS 3) 3] (exec (.calStaleExpiry 3) s) (fun t => t.bit (EU_STATUS 3) 3) &&
  shows [] (exec (.tdcAgeExpiry 3) s) (fun t => t.bit (EU_STATUS 3) 6) := by decide
theorem test_cap_arm : let s := win0
  shows [acc s (CAP_CTRL 3) 0x32] (exec (.capArm 3 0x32) s) (fun t => t.bit (CAP_STATUS 3) 0 && t.pair (CAP_ARM_LO 3) (CAP_ARM_HI 3) == 64000 && t.reg (CAP_CTRL 3) == 0x30) &&
  shows [acc s (CAP_CTRL 3) 6] (exec (.capDisarm 3 6) s) (fun t => !t.bit (CAP_STATUS 3) 0 && t.pair (CAP_ARM_LO 3) (CAP_ARM_HI 3) == 0) := by decide
theorem test_cap_read : let s := (withRegs [(CAP_STATUS 3, 2)]).setChan 3 { Chan.init with capRise := 0x500000007, capFall := 9, capWidth := 5, capSeq := 3 }
  shows [] (exec (.capRiseLoRead 3) s) (fun t => t.hostData == [7] && t.reg (CAP_RISE_HI 3) == 5 && t.pair (CAP_FALL_LO 3) (CAP_FALL_HI 3) == 9 && t.reg (CAP_WIDTH_LO 3) == 5 && t.reg (CAP_SEQ 3) == 3 && t.reg (CAP_STATUS 3) == 0) := by decide
theorem test_capture_store : let s := (withRegs [(CAP_STATUS 3, 1)]).setChan 3 { Chan.init with capPend := [{ edgeAt 63976 true with counted := true }] }
  let l : Edge := { edgeAt 63990 false with counted := true }
  shows [decide (24 ≤ ahead s.now 63976), decide ((s.capFilt 3 : Int) ≤ ahead s.now 63976), s.notLater (s.pair (CAP_ARM_LO 3) (CAP_ARM_HI 3)) 63976] (exec (.captureStore 3) s)
    (fun t => (t.chan 3).capRise == 63976 && (t.chan 3).capSeq == 1 && (t.chan 3).capPend == []) &&
  shows [] (exec (.captureStore 3) (s.setReg (CAP_ARM_LO 3) 63977)) (fun t => (t.chan 3).capRise == 0 && (t.chan 3).capSeq == 0 && (t.chan 3).capPend == []) &&
  shows [!reverses (s.capFilt 3) { edgeAt 63976 true with counted := true } l] (exec (.captureStore 3) (s.setChan 3 { s.chan 3 with capPend := (s.chan 3).capPend ++ [l] }))
    (fun t => (t.chan 3).capPend == [l] && (t.chan 3).capSeq == 1) := by decide
theorem test_input_edge : let s := win0.setChan 3 { Chan.init with inSel := 5, lastIn := some 63990 }
  shows [s.inputCan 3 (stampAt s.mt 14) true] (exec (.inputEdge 3 14 true) s) (fun t => (t.chan 3).lastIn == some 64014 && (t.chan 3).inLevel) &&
  shows [s.inputCan 3 (stampAt s.mt 13) true, decide (((stampAt s.mt 13) - 63990).toNat < 24)] (exec (.inputEdge 3 13 true) s)
    (fun t => (t.chan 3).lastIn == none && t.reg (GLITCH_CNT 3) == 1) := by decide
theorem test_pin_sel : shows [acc win0 (PIN_OUT_SEL 255) 0x10003] (exec (.pinSelWrite (PIN_OUT_SEL 255) 0x10003) win0)
    (fun t => t.reg (PIN_OUT_SEL 255) == 0x10003 && (t.pin 255).selDue == some (1001, 0x10003)) &&
  shows [acc win0 (CH_IN_SEL 383) 0x805] (exec (.pinSelWrite (CH_IN_SEL 383) 0x805) win0) (fun t => (t.chan 383).inSelDue == some (1001, 0x805)) := by decide
/-! Trips, mittens, watchdog -/
def mit1 (more : List (Nat × Word)) : State := withRegs ([(MIT_MODE 1, 1), (MIT_MASK 1, 8)] ++ more)
theorem test_trip_edge : let s := mit1 []
  shows [!s.bit TRIP_RAW 3, s.tripFilt 3 == 0, !(s.trip 3).cfg.getLsbD 8, !s.bit TRIP_ACTIVE 3, s.bit (MIT_MODE 1) 0, s.bit (MIT_MASK 1) 3, !s.cuffOpen 1, !s.forcing 1]
    (exec (.tripInputEdge 3 true) s) (fun _ => true) := by decide
theorem test_trip_filter : let s := (mit1 []).setTrip 3 { Trip.init with cfg := 5 }
  shows [s.tripFilt 3 == 5] (exec (.tripInputEdge 3 true) s) (fun t => t.bit TRIP_RAW 3 && !t.forcing 1 && ((t.tripSample 3).trip 3).since == some 1000) &&
  (let s := (mit1 [(TRIP_RAW, 8)]).setTrip 3 { Trip.init with cfg := 5, since := some 995 }
   shows [s.reached 1000] (exec (.tripFilterQualify 3) s) (fun _ => true)) := by decide
theorem test_trip_cfg : shows [acc win0 (TRIP_CFG 3) 0xFFFF] (exec (.tripCfgWrite 3 0xFFFF) win0) (fun t => t.reg (TRIP_CFG 3) == 0x1FF && (t.trip 3).cfgDue == some (1001, 0x1FF)) := by decide
theorem test_cuff_close : let s := (mit1 [(TRIP_ACTIVE, 8)]).setMitten 1 { Mitten.init with blocked := [(3, 900)] }
  shows [!s.cuffOpen 1] (exec (.cuffClose 1) s) (fun _ => true) := by decide
theorem test_cuff_override : let s := (mit1 [(TRIP_ACTIVE, 8), (MIT_CUFF 1, 99)]).setMitten 1 { Mitten.init with blocked := [(3, 900)], cuffLast := some 1050 }
  shows [s.reached (900 + BitVec.ofNat 64 (s.fld (MIT_CUFF 1) 15 0 + 1)), s.cuffOpen 1] (exec (.cuffOverride 1) s) (fun _ => true) := by decide
theorem test_mitten_release : let s := mit1 [(MIT_MODE 1, 3), (MIT_STATUS 1, 1)]
  shows [s.releaseDue 1] (exec (.mittenRelease 1) s) (fun _ => true) := by decide
theorem test_interlock : let s := ((withRegs [(CH_CTRL 2, 0x400000), (MIT_STATUS 1, 1), (MIT_PINS 1 0, 1), (MIT_ACT 1 0, 1)]).setPin 0 { PinState.init with sel := 0x10002, force := some { mitten := 1, drive := .z, pull := 0, level := false } }).setPin 1 { PinState.init with sel := 0x10003 }
  shows [s.action 0 == some (1, 1), s.interlockOpen 0, !(s.pin 0).highApplied] (exec (.interlockApply 0) s) (fun _ => true) := by decide
theorem test_mit_clr : let s := mit1 [(MIT_STATUS 1, 3)]
  shows [acc s (MIT_CLR 1) 1] (exec (.mitClr 1 1) s) (fun t => !t.bit (MIT_STATUS 1) 1 && (t.mitten 1).cleared) &&
  shows [] (exec (.mitClr 1 1) (s.setReg TRIP_ACTIVE 8)) (fun t => t.fld (MIT_STATUS 1) 7 6 == 1 && t.bit (MIT_STATUS 1) 1) &&
  shows [] (exec (.mitClr 1 1) (s.setReg (MIT_STATUS 1) 1)) (fun t => t.fld (MIT_STATUS 1) 7 6 == 3) := by decide
theorem test_mit_cfg : let s := mit1 []
  shows [acc s (MIT_MASK 1) 5, mitCfgReg (MIT_MASK 1) == some (1, 0xFFFFFFFF)] (exec (.mitCfgWrite (MIT_MASK 1) 5) s) (fun t => t.reg (MIT_MASK 1) == 5) &&
  shows [] (exec (.mitCfgWrite (MIT_MASK 1) 5) (s.setReg (MIT_STATUS 1) 2)) (fun t => t.reg (MIT_MASK 1) == 8 && t.bit (MIT_STATUS 1) 5) := by decide
theorem test_watchdog : let s := { withRegs [(WDOG_CFG, 0x80000001)] with hg := { State.reset.hg with kick := 200 } }
  shows [s.mainRuns, s.wdogTimeout != 0, s.reached (s.hg.kick + BitVec.ofNat 64 (800 * s.wdogTimeout))] (exec .watchdogExpiry s)
    (fun t => t.hg.expired == some 1000 && t.bit WDOG_STATUS 0 && t.bit WDOG_STATUS 1) &&
  shows [acc s WDOG_KICK 0x4B49] (exec (.wdogKick 0x4B49) s) (fun t => t.hg.kick == 1000) &&
  shows [acc s WDOG_KICK 1] (exec (.wdogKick 1) s) (fun t => t == s.noteHost WDOG_KICK) &&
  shows [acc s WDOG_CFG 7] (exec (.wdogCfgWrite 7) s) (fun t => t.reg WDOG_CFG == 7 && t.hg.kick == 1000) := by decide
theorem test_watchdog_reset : let s := { withRegs [(WDOG_STATUS, 2), (GSTAT, 4)] with mt := 801000, hg := { State.reset.hg with expired := some 1000 } }
  shows [s.mainRuns, s.bit WDOG_STATUS 1, s.reached (1000 + 800000)] (exec .watchdogResetStart s) (fun t => t.power.phase == .soft && t.power.cause == 4 && !t.bit GSTAT 2) &&
  shows [] (exec .watchdogResetStart { s with power := { s.power with phase := .soft, cause := 5 } }) (fun t => t.power.phase == .soft && t.power.cause == 4) := by decide

/-! Weirs -/
def postRegs (w0 w1 w2 w3 w4 w5 : Word) : State :=
  withRegs [(POST_W 1 0, w0), (POST_W 1 1, w1), (POST_W 1 2, w2), (POST_W 1 3, w3), (POST_W 1 4, w4), (POST_W 1 5, w5)]
theorem test_post_refused : let s := postRegs 6 0 0 0 0 0
  shows [acc s (POST_GO 1) 1, s.postCheck (fun j => s.reg (POST_W 1 j)) == 2] (exec (.postGo 1 1) s)
    (fun t => t.fld (POST_RESULT 1) 3 0 == 2 && t.reg (POST_REFUSED_CNT 1) == 1 && (t.weir 1).slots == [] && (t.weir 1).ledger == (s.weir 1).ledger) := by decide
theorem test_post_zero : let s := postRegs 0 0 0 0 0 0
  shows [s.postCheck (fun j => s.reg (POST_W 1 j)) == 8] (exec (.postGo 1 1) s)
    (fun t => t.fld (POST_RESULT 1) 3 0 == 8 && (t.weir 1).ledger.zero == 1 && (t.weir 1).ledger.accepted == 1) := by decide
theorem test_post_accepted : let s := postRegs 0x12300020 0x20000 0 512 0 7
  shows [s.postFree 1, s.postCheck (fun j => s.reg (POST_W 1 j)) == 0, (s.weir 1).freeSlot s.mt == some 0] (exec (.postGo 1 1) s)
    (fun t => t.fld (POST_RESULT 1) 3 0 == 0 && ((t.weir 1).slot? 0).map (fun e => (e.w0, e.arg, e.s, e.e, e.commit)) == some (0x12300020, 7, 0x20000, 0x20200, 1000) && !t.postFree 1) &&
  (let s := s.setWeir 1 { Weir.init with lastPost := some 1000 }
   shows [acc s (POST_GO 1) 1, !s.postFree 1] (exec (.postGo 1 1) s)
    (fun t => (t.weir 1).posts == [{ words := [], thread := none, first := false }] && (let u := t.setReg (POST_W 1 5) 8; ((u.postNext 1).weir 1).posts == [] && (((u.setWeir 1 { Weir.init with posts := (t.weir 1).posts }).postNext 1).weir 1).slots.map (fun e => e.2.arg) == [8]) && (t.weir 1).slots == [] && t.reg (POST_RESULT 1) == 0)) := by decide +kernel
def aSlot : Slot :=
  { w0 := 0x20, qual := 0, frac := 0, dur := 512, arg := 0, s := 0x20000, e := 0x20200, theta := 0, rev := false, frozen := false, unreachable := false,
    started := false, plan := .completed, commit := 900, order := 0, inserted := true, rekey := false, resolve := false, held := false, dropSync := false }
def slots1 (l : List (Nat × Slot)) : State := (withRegs [(ID_UCODE, 1), (OUT_CTRL 16, 0x3000)]).setWeir 1 { Weir.init with slots := l, order := 9 }
theorem test_post_full : let s := { (postRegs 0x12300020 0x20000 0 512 0 7).setWeir 1 { Weir.init with slots := (List.range 256).map (fun i => (i, aSlot)) } with mt := 1000 }
  shows [s.postFree 1, s.postCheck (fun j => s.reg (POST_W 1 j)) == 0, (s.weir 1).freeSlot s.mt == none] (exec (.postGo 1 1) s)
    (fun t => t.fld (POST_RESULT 1) 3 0 == 1 && t.reg (WEIR_FULL_CNT 1) == 1) := by decide
theorem test_insertion : let e := { aSlot with inserted := false }; let s := slots1 [(255, e)]
  shows [(s.weir 1).slot? 255 == some e, e.key.isSome, s.placed (e.commit + 32) { e with inserted := true } == some aSlot] (exec (.insertionComplete 1 255) s)
    (fun t => t == s.putSlot 1 255 aSlot) &&
  (let e := { e with s := stampAt 947 0, e := stampAt 948 0 }; let s := slots1 [(255, e)]
   shows [s.placed (e.commit + 32) { e with inserted := true } == none] (exec (.insertionComplete 1 255) s)
    (fun t => (t.weir 1).slot? 255 == none && (t.weir 1).ledger.droppedPast == 1)) := by decide
theorem test_rekey : let e := { aSlot with rekey := true, w0 := 0x80 }; let s := slots1 [(0, e)]
  shows [s.angleFrozen e.shaft e.dirq, s.rekeyFree 1 e.shaft] (exec (.rekeyPass 1 0) s) (fun t => t == (s.noteRekey 1 0).putSlot 1 0 { e with frozen := true, rekey := false } && !t.rekeyFree 1 0) &&
  shows [] (exec (.cycleRekey 1 0) s) (fun t => t == (s.noteRekey 1 0).putSlot 1 0 { e with frozen := true, rekey := false }) &&
  (let s := s.noteRekey 1 0
   shows [(s.weir 1).slot? 0 == some e, !s.rekeyFree 1 e.shaft] (exec (.rekeyPass 1 0) s) (fun t => t == s)) := by decide
theorem test_placed : let s := win0
  s.placed 1000 { aSlot with s := startPlace 1000 } == some { aSlot with s := startPlace 1000 } &&
  s.placed 1000 { aSlot with s := startPlace 1000 - 1, w0 := 0x40, e := startPlace 1000 + 1 } == some { aSlot with s := startPlace 1000, w0 := 0x40, e := startPlace 1000 + 512, plan := .late } &&
  s.placed 1000 { aSlot with s := startPlace 1000 - 1, w0 := 0x40, e := startPlace 1000 } == none &&
  s.placed 1000 { aSlot with s := startPlace 1000 - 1, e := startPlace 1000 + 256 } == some { aSlot with s := startPlace 1000, e := startPlace 1000 + 256, plan := .shortened } &&
  s.placed 1000 { aSlot with s := startPlace 1000 - 1, e := startPlace 1000 + 255 } == none := by decide
def due : Slot := { aSlot with s := startPlace 1000, e := startPlace 1000 + 512 }
theorem test_start_dispatch : let s := slots1 [(3, due), (4, { due with s := startPlace 1001, order := 1 })]
  shows [s.canDispatch 1, s.dueHead 1 == some (3, due), s.placed s.mt due == some due, s.eventOk 16]
    (exec (.startDispatch 1) s) (fun t => (t.weir 1).slot? 3 == some { due with started := true } && (t.weir 1).dispatched t.mt == 1) := by decide
theorem test_start_dispatch_missed : let e := { due with s := startPlace 900, e := startPlace 1000 }; let s := slots1 [(3, e)]
  shows [s.dueHead 1 == some (3, e), s.placed s.mt e == none]
    (exec (.startDispatch 1) s) (fun t => (t.weir 1).slot? 3 == none && (t.weir 1).ledger.droppedPast == 1) := by decide
theorem test_start_dispatch_refused : let e := { due with w0 := 0x10020 }; let s := slots1 [(3, e)]
  shows [s.placed s.mt e == some e, decide (e.action < 2), !s.eventOk 17]
    (exec (.startDispatch 1) s) (fun t => (t.weir 1).slot? 3 == none && t.reg (ACT_REFUSED_CNT 1) == 1 && (t.weir 1).ledger.cancelled == 1) := by decide
theorem test_end_dispatch : let e := { due with started := true, e := startPlace 1000 }; let s := slots1 [(3, e)]
  shows [s.dueHead 1 == some (3, e)]
    (exec (.endDispatch 1) s) (fun t => (t.weir 1).slot? 3 == none && (t.weir 1).ledger.completed == 1) &&
  (let s := slots1 [(3, { e with e := startPlace 999 }), (4, due)]
   shows [s.dueHead 1 == some (3, { e with e := startPlace 999 })] (exec (.startDispatch 1) s) (fun t => t == s) &&
   shows [] (exec (.endDispatch 1) s) (fun t => (t.weir 1).slot? 3 == none && (t.weir 1).ledger.late == 1)) := by decide
theorem test_dropped_sync : let s := slots1 [(3, { aSlot with dropSync := true })]
  shows [] (exec (.droppedSyncRetire 1 3) s) (fun t => (t.weir 1).slot? 3 == none && (t.weir 1).ledger.droppedSync == 1) := by decide
theorem test_cancel_go : let s := (slots1 [(3, aSlot)]).setReg (CANCEL_SEL 1) 0x0FF0123
  shows [acc s (CANCEL_GO 1) 1] (exec (.cancelGo 1 1) s) (fun t => t.bit (CANCEL_RESULT 1) 31 &&
    (t.weir 1).cancels == [{ tag := 0x123, mask := 0x0FF, thread := none, host := true, start := 1000, before := 9, left := [3], count := 0 }]) := by decide
theorem test_cancel_pass : let c : Cancel := { tag := 0x5AB, mask := 0x0FF, thread := none, host := true, start := 999, before := 1, left := [3, 4], count := 0 }
  let e := { aSlot with w0 := 0xFAB00020 }; let s := (slots1 []).setWeir 1 { Weir.init with slots := [(3, e), (4, aSlot)], cancels := [c] }
  shows [s.reached (c.start + 1), c.left.contains 3, decide (e.order < c.before), e.tag &&& c.mask == c.tag &&& c.mask] (exec (.cancelPass 1 3) s)
    (fun t => (t.weir 1).slot? 3 == none && (t.weir 1).slot? 4 == some aSlot && (t.weir 1).ledger.cancelled == 1) := by decide
theorem test_ledger_take : let s := (withRegs [(LEDGER_SEQ 1, 0xFFFF)]).setWeir 1 { Weir.init with ledger := { WeirLedger.init with accepted := 0x100000002, zero := 2 }, slots := [(0, aSlot)] }
  shows [acc s (LEDGER_TAKE 1) 1] (exec (.ledgerTake 1 1) s) (fun t => t.takes == [.weir 1] && (let t := t.runTakes; t.pair (SNAP_ACCEPTED_LO 1) (SNAP_ACCEPTED_HI 1) == 0x100000002 &&
    t.reg (SNAP_ZERO_LO 1) == 2 && t.reg (SNAP_PENDING 1) == 1 && t.pair (WEIR_SNAP_MT_LO 1) (WEIR_SNAP_MT_HI 1) == 1000 && t.reg (LEDGER_SEQ 1) == 0 && t.weirs == s.weirs)) := by decide
/-! Shafts -/
/-- Shaft 2 as a wheel of 60 positions with a gap of 2, filter of 10 ticks, in state `st`. -/
def wheel (st : Nat) (more : List (Nat × Word)) (c : Shaft) : State :=
  (withRegs ([(SH_CTRL 2, 0x10001), (WHEEL_CFG 2, 0x0A00203C), (GAP_CFG 2, 0x1800), (SH_STATUS 2, BitVec.ofNat 32 st)] ++ more)).setShaft 2 c
theorem test_tooth_filtered : let s := wheel 1 [] { Shaft.init with cands := [{ stamp := 60000, reversed := some 60639 }] }
  shows [max 24 ((64 * s.shFilt 2 : Nat) : Int) ≤ ahead (stampAt (s.mt + 1) 0) 60000] (exec (.toothJudge 2) s) (fun t => t.reg (FILT_CNT 2) == 1 && (t.shaft 2).cands == []) := by decide
theorem test_tooth_noise : let s := wheel 1 [] { Shaft.init with cands := [{ stamp := 60000, reversed := none }], lastTooth := some 8801 }
  shows [s.underFloor 2 60000, s.shWheel 2, s.shEn 2] (exec (.toothJudge 2) s) (fun t => t.reg (NOISE_CNT 2) == 1) := by decide
theorem test_tooth_taken : let s := wheel 1 [] { Shaft.init with cands := [{ stamp := 60000, reversed := none }], lastTooth := some 8800 }
  shows [!s.underFloor 2 60000, !s.tooEarly 2 60000, s.shState 2 != 0] (exec (.toothJudge 2) s)
    (fun t => (t.shaft 2).lastTooth == some 60000 && t.pair (LAST_TOOTH_LO 2) (LAST_TOOTH_HI 2) == 60000 && t.reg (LAST_PERIOD 2) == 800) := by decide +kernel
def estOf (n : Nat) : Estimate := { Estimate.init with stamp := 51200, n := n, pos := 0x100000000, omega := 0x100000000, pe := some 6400, p1 := some 6400 }
theorem test_synthetic_tooth : let s := wheel 3 [] { Shaft.init with est := estOf 1, intervals := [{ step := 100, period := 6400 }], lastTooth := some 51200, tooth := 5 }
  shows [(s.shaft 2).est.pe == some 6400, ((6400 + 3200 : Nat) : Int) ≤ ahead s.now (s.shaft 2).est.stamp, s.shWheel 2, s.shEn 2, s.shSync 2, (s.shaft 2).next == [], !s.stallDue 2, !s.shStalled 2, !s.bit (SH_CTRL 2) 23] (exec (.syntheticTooth 2) s)
    (fun t => t.reg (SYNTH_CNT 2) == 1 && (t.shaft 2).lastTooth == some 57600 && (t.shaft 2).tooth == 6 && t.shState 2 == 4) := by decide +kernel
theorem test_synthetic_tooth_lost : let s := wheel 4 [] { Shaft.init with est := estOf 1, intervals := [{ step := 100, period := 6400 }], lastTooth := some 51200, lastSynth := true }
  shows [s.shSync 2] (exec (.syntheticTooth 2) s) (fun t => t.shState 2 == 5) := by decide +kernel
theorem test_stall : let s := wheel 3 [(EST_CFG 2, 0x20000)] { Shaft.init with est := estOf 1, intervals := [{ step := 100, period := 6399 }], lastTooth := some 51200 }
  shows [s.stallDue 2, decide (s.shSrc 2 < 4)] (exec (.stall 2) s) (fun t => t.shStalled 2 && t.reg (STALL_CNT 2) == 1 && (t.shaft 2).est.n == 0 && (t.shaft 2).est.pos == s.shPos 2) := by decide +kernel
theorem test_virtual_tooth : let s := wheel 3 [(SH_CTRL 2, 0x10011), (VT_COUNTS 2, 10)] { Shaft.init with crossings := [{ stamp := 60000, idx := 7, at_ := 70, rev := false, base := 937 }] }
  shows [s.shEn 2, s.shSync 2, !s.underFloor 2 60000] (exec (.virtualTooth 2) s) (fun t => (t.shaft 2).lastTooth == some 60000 && (t.shaft 2).tooth == 7 && (t.shaft 2).crossings == []) &&
  (let s := s.setShaft 2 { s.shaft 2 with crossings := [{ stamp := 60000, idx := 6, at_ := 70, rev := true, base := 937 }], est := estOf 2 }
   shows [] (exec (.virtualTooth 2) s) (fun t => t.shRev 2 && (t.shaft 2).est.n == 0)) := by decide +kernel
theorem test_publication : let s := wheel 3 [] { Shaft.init with next := [(1000, estOf 2), (1003, estOf 1)] }
  shows [s.reached 1000] (exec (.estimatePublication 2) s) (fun t => (t.shaft 2).est == estOf 2 && (t.shaft 2).next == [(1003, estOf 1)] && t.fld (SH_STATUS 2) 9 8 == 2) := by decide +kernel
theorem test_history : let s := wheel 3 [(HIST_CTRL 2, 1), (HIST_BASE 2, 0x1450), (HIST_WR 2, 257)] { Shaft.init with history := [(1000, 0x12345678)] }
  shows [s.reached 1000, s.fld (HIST_CTRL 2) 4 0 != 0, s.histBase 2 == 0x1400] (exec (.historyWrite 2) s)
    (fun t => t.resRead 0x1404 4 == 0x12345678 && t.reg (HIST_WR 2) == 258 && (t.shaft 2).history == []) &&
  (let s := wheel 3 [(HIST_CTRL 2, 0)] { Shaft.init with history := [(1000, 0x12345678)] }
   shows [s.fld (HIST_CTRL 2) 4 0 == 0] (exec (.historyWrite 2) s) (fun t => t.reservoir == [] && (t.shaft 2).history == [])) := by decide
theorem test_direction : let s := (wheel 1 [(SH_CTRL 2, 0x11001), (SH_INPUTS 2, 0x600)] { Shaft.init with dirSince := some 990 }).setChan 3 { Chan.init with inHist := [(980, true)] }
  shows [s.dirSrc 2 == 1, s.reached (990 + BitVec.ofNat 64 (s.shFilt 2)), s.dirInput 2 s.mt] (exec (.directionChange 2) s) (fun t => t.shRev 2 && (t.shaft 2).dirSince == none) &&
  (let s := wheel 3 [(SH_CTRL 2, 0x10051)] { Shaft.init with genOmega := -1 }
   shows [s.shSrc 2 == 5] (exec (.directionChange 2) s) (fun t => t.shRev 2)) := by decide
theorem test_direction_of_interface : let s := (wheel 3 [(SH_CTRL 2, 0x10311), (FB_STATUS 3, 4)] Shaft.init)
  shows [s.shEn 2, s.shSrc 2 == 1, s.shIface 2 == 3] (exec (.directionChange 2) s) (fun t => t.shRev 2) := by decide +kernel
theorem test_marker : let s := (wheel 3 [(SH_CTRL 2, 0x24001), (MARKER_CFG 2, 1), (SH_INPUTS 2, 0)] Shaft.init).setChan 0 { Chan.init with lastIn := some 60000, inLevel := true }
  shows [s.fld (SH_CTRL 2) 15 14 == 1, s.shEn 2, s.shSync 2, decide (1 < s.shCycleRevs 2), s.markerEdge 2 60000, decide (s.fld (MARKER_CFG 2) 3 0 < s.shCycleRevs 2)]
    (exec (.marker 2 60000) s) (fun t => t.shCycleValid 2 && (t.shaft 2).cycleRev == 1) &&
  (let s := s.setReg (MARKER_CFG 2) 0x101
   shows [!s.markerEdge 2 60000] (exec (.marker 2 60000) s) (fun t => t == s)) := by decide
theorem test_cycle_set : let s := wheel 3 [(SH_CTRL 2, 0x20001)] Shaft.init
  shows [acc s (CYCLE_SET 2) 1, s.fld (SH_CTRL 2) 15 14 != 1, s.shSync 2] (exec (.cycleSet 2 1) s) (fun t => t.shCycleValid 2 && (t.shaft 2).cycleRev == 1) &&
  shows [decide (s.shCycleRevs 2 ≤ 2)] (exec (.cycleSet 2 2) s) (fun t => t == (s.noteHost (CYCLE_SET 2)).raise (SH_STATUS 2) 11) := by decide
theorem test_cycle_step : let s := wheel 3 [(SH_CTRL 2, 0x20001)] { Shaft.init with est := { Estimate.init with pos := 0x500000000 }, cycleSeen := 4, cycleRev := 1 }
  shows [decide (0 < (hiWord (s.shPos 2) - (s.shaft 2).cycleSeen).toInt)] (exec (.cycleRevStep 2 false) s) (fun t => (t.shaft 2).cycleRev == 0 && (t.shaft 2).cycleSeen == 5) &&
  (let s := s.setShaft 2 { s.shaft 2 with cycleSeen := 6, cycleRev := 0 }
   shows [decide ((hiWord (s.shPos 2) - (s.shaft 2).cycleSeen).toInt < 0)] (exec (.cycleRevStep 2 true) s) (fun t => (t.shaft 2).cycleRev == 1 && (t.shaft 2).cycleSeen == 5)) := by decide
theorem test_generator : let s := wheel 3 [(SH_CTRL 2, 0x10051), (GEN_TARGET_LO 2, 6), (GEN_ACC_LO 2, 3)] { Shaft.init with genOmega := 9 }
  shows [acc s (GEN_CTRL 2) 1, s.genTargetOk 2] (exec (.genApply 2 1) s) (fun t => (t.shaft 2).genTarget == 6 * 2 ^ 31 && (t.shaft 2).genAcc == 3 && (t.shaft 2).genOmega == 9) &&
  shows [acc s (GEN_CTRL 2) 2] (exec (.genLoad 2 2) s) (fun t => (t.shaft 2).genOmega == 6 * 2 ^ 31) &&
  (let s := s.setReg (GEN_TARGET_HI 2) 0x8000
   shows [!s.genTargetOk 2] (exec (.genLoad 2 2) s) (fun t => t == (s.noteHost (GEN_CTRL 2)).raise (SH_STATUS 2) 11)) := by decide
theorem test_generator_arrives : let s := wheel 3 [(SH_CTRL 2, 0x10051)] { Shaft.init with genOmega := 9, genTarget := 12, genAcc := 3 }
  shows [s.shGenerator 2, (s.shaft 2).genArrives] (exec (.genTargetReached 2) s) (fun t => (t.shaft 2).genOmega == 12) := by decide
theorem test_shaft_ctrl : let s := wheel 1 [] Shaft.init
  shows [acc s (WHEEL_CFG 2) 5, s.shEn 2, shGeometry 8 == some 0xFF0337FF] (exec (.shCtrlWrite 2 8 5) s) (fun t => t == (s.noteHost (WHEEL_CFG 2)).raise (SH_STATUS 2) 11) &&
  shows [acc s (SH_CTRL 2) 0x10041] (exec (.shCtrlWrite 2 0 0x10041) s) (fun t => t == (s.noteHost (SH_CTRL 2)).raise (SH_STATUS 2) 11) &&
  (let s := withRegs []
   shows [acc s (SH_CTRL 2) 0x10050] (exec (.shCtrlWrite 2 0 0x10050) s) (fun t => t == (s.noteHost (SH_CTRL 2)).setReg (SH_CTRL 2) 0x10050) &&
   shows [acc s (WHEEL_CFG 2) 0xFFFFFFFF] (exec (.shCtrlWrite 2 8 0xFFFFFFFF) s) (fun t => t.reg (WHEEL_CFG 2) == 0xFF0337FF)) := by decide
theorem test_shaft_snap : let s := wheel 3 [] { Shaft.init with est := { Estimate.init with pos := 0x500000007 } }
  shows [acc s (SNAP_CTRL 2) 1] (exec (.shaftSnapTake 2 1) s) (fun t => t.takes == [.shaft 2] && (let t := t.runTakes; t.pair (SNAP_POS_LO 2) (SNAP_POS_HI 2) == 0x500000007 && t.pair (SH_SNAP_MT_LO 2) (SH_SNAP_MT_HI 2) == 1000 &&
    t.fld (SNAP_SEQ 2) 15 0 == 1)) := by decide

/-! Position feedback -/
def qenc (more : List (Nat × Word)) (c : Iface) : State :=
  (withRegs ([(QE_CTRL 1, 1), (QE_CPR 1, 100), (FB_STATUS 1, 0x01000000), (QE_MIN_EDGE 1, 2), (QE_INPUTS 1, 0)] ++ more)).setIface 1 c
theorem test_qenc_step : let s := qenc [] { Iface.init with lastAcc := some 60000, edges := [{ stamp := 60128, isB := false, a := true, b := false }] }
  shows [s.fbEn 1, s.edgeSure 60128, !(s.iface 1).resampleFirst s.now 60128, decide ((s.minEdge 1 : Int) ≤ ahead 60128 60000), (s.iface 1).quarter true false % 2 == 1]
    (exec (.qencEdge 1 false true false 60128) s) (fun t => (t.iface 1).abs == 1 && (t.iface 1).a && (t.iface 1).lastAcc == some 60128 && (t.iface 1).edges == []) := by decide
theorem test_qenc_illegal : let s := qenc [] { Iface.init with edges := [{ stamp := 60128, isB := true, a := true, b := true }] }
  shows [s.edgeSure 60128, (s.iface 1).quarter true true == 2] (exec (.qencEdge 1 true true true 60128) s) (fun t => t.reg (ILLEGAL_CNT 1) == 1 && (t.iface 1).abs == 0) &&
  (let s := qenc [] { Iface.init with lastAcc := some 60001, edges := [{ stamp := 60128, isB := true, a := true, b := true }] }
   shows [decide (ahead 60128 60001 < s.minEdge 1)] (exec (.qencEdge 1 true true true 60128) s) (fun t => t == (s.setIface 1 { s.iface 1 with edges := [] }).satCount (FAULT_CNT 1))) := by decide
theorem test_qenc_resample : let s := qenc [] { Iface.init with resample := some (64000, false, true) }
  shows [s.fbEn 1, (s.iface 1).quarter false true % 2 == 1] (exec (.qencResample 1 false true) s) (fun t => (t.iface 1).b && (t.iface 1).resample == none && (t.iface 1).abs == -1 && t.bit (FB_STATUS 1) 7) &&
  (let s := qenc [] { Iface.init with resampleAt := some 1000 }; let u := qenc [] { Iface.init with resampleAt := some 1001 }
   [s.reached 1000, ((s.qencTick 1).iface 1).resample == some (64000, false, false), ((s.qencTick 1).iface 1).resampleAt == none, !u.reached 1001, u.qencTick 1 == u].all id) := by decide
theorem test_index_first : let s := qenc [(REF_CFG 1, 0x40000003), (INDEX_POS 1, 107)] { Iface.init with abs := 250, zEdges := [(63000, true)] }
  shows [s.fbEn 1, s.fbIndexed 1, s.edgeSure 63000, s.quadKnown 1 63000, s.fbAtt 1 == 1, s.indexQualified 1 63000, s.indexEdge 1 true, !s.fbRef 1, s.cpr 1 == 100] (exec (.indexEdge 1 true 63000) s) (fun t => t.fbRef 1 && (t.iface 1).abs == 7) &&
  (let s := s.setIface 1 { s.iface 1 with zEdges := [(63000, false)] }
   shows [!s.indexEdge 1 false] (exec (.indexEdge 1 false 63000) s) (fun t => t == s.setIface 1 { s.iface 1 with zEdges := [] })) := by decide
theorem test_index_slip : let s := qenc [(REF_CFG 1, 0x40000003), (INDEX_POS 1, 7), (FB_STATUS 1, 0x01000002)] { Iface.init with abs := 210, zEdges := [(63000, true)] }
  shows [s.fbRef 1, s.quadKnown 1 63000] (exec (.indexEdge 1 true 63000) s) (fun t => (t.iface 1).abs == 207 && (t.iface 1).dev == 3 && t.reg (INDEX_SLIP_CNT 1) == 1) &&
  (let s := s.setIface 1 { Iface.init with abs := 211, zEdges := [(63000, true)] }
   shows [] (exec (.indexEdge 1 true 63000) s) (fun t => (t.iface 1).abs == 211 && (t.iface 1).dev == 4 && t.reg (INDEX_FAULT_CNT 1) == 1 && t.bit (FB_STATUS 1) 4)) := by decide
def aenc (more : List (Nat × Word)) (c : Iface) : State :=
  (withRegs ([(AE_CTRL 1, 1), (AE_LINES 1, 100), (FB_STATUS 9, 0x01000000)] ++ more)).setIface 9 c
theorem test_aenc_index : let s := aenc [(REF_CFG 9, 0x40000003), (AE_INPUTS 1, 0)] { Iface.init with zEdges := [(63000, true)], idxPend := [62000] }
  shows [s.fbEn 9, s.fbIndexed 9, s.edgeSure 63000, s.fbAtt 9 == 1, s.indexEdge 9 true]
    (exec (.indexEdge 9 true 63000) s) (fun t => t == s.setIface 9 { s.iface 9 with zEdges := [], idxPend := [62000, 63000] }) := by decide
theorem test_aenc_sample : let s := { aenc [] Iface.init with mt := 800 }
  shows [s.fbEn 9, s.mt.toNat % 400 == 0] (exec (.aencSample 1 5 6) s) (fun t => (t.iface 9).raw == [(51200, 5, 6)]) := by decide
theorem test_aenc_processed : let s := aenc [] { Iface.init with raw := [(51200, 5, 6)] }
  shows [s.fbEn 9, (s.iface 9).raw == [(51200, 5, 6)]] (exec (.aencSampleProcessed 1) s) (fun _ => true) := by decide
def ssi (more : List (Nat × Word)) (c : Iface) : State :=
  (withRegs ([(SSI_CTRL 1, 1), (SSI_FRAME 1, 0x000C000D), (FB_STATUS 17, 0x01000000)] ++ more)).setIface 17 c
theorem test_ssi_start : let s := ssi [] Iface.init
  shows [s.fbEn 17, (s.iface 17).frame == none, s.reached (s.iface 17).nextFrame] (exec (.ssiFrameStart 1 true) s) (fun t => (t.iface 17).frame == some (1000, true) && !(t.iface 17).clk) := by decide
theorem test_ssi_end : let s := { ssi [] { Iface.init with frame := some (1000, false) } with mt := 8000 }
  shows [s.reached (s.ssiEndTick 1 1000), s.reached (s.ssiBitTick 1 1000 (s.ssiBits 1 - 1))] (exec (.ssiFrameEnd 1 0xFFFFF true) s) (fun t => (t.iface 17).frame == none && (t.iface 17).clk && t.reg (SSI_RAW_LO 1) == 0x1FFF) := by decide
theorem test_speed_gate : let s := qenc [(SPD_GATE 1, 800)] { Iface.init with gateStart := 200, gateSteps := 5, gateNet := 3 }
  shows [s.fbEn 1, s.reached ((s.iface 1).gateStart + BitVec.ofNat 64 (s.spdGate 1))] (exec (.speedGateEnd 1) s)
    (fun t => (t.iface 1).gateStart == 1000 && (t.iface 1).gateSteps == 0 && (t.iface 1).gateNet == 0 && t.spdMethod 1 == s.nextMethod 1 5) := by decide
theorem test_speed_timeout : let s := { qenc [(SPD_GATE 1, 800)] { Iface.init with lastMove := some 64000, speed := 7 } with mt := 13800 }
  shows [s.fbEn 1, s.reached (s.tickFor 64000 + BitVec.ofNat 64 (16 * s.spdGate 1))] (exec (.speedTimeout 1) s) (fun t => (t.iface 1).timedOut && (t.iface 1).speed == 0) := by decide
theorem test_pos_read : let s := qenc [] { Iface.init with abs := -1, dev := 9 }
  shows [] (exec (.posRead 1) s) (fun t => t.hostData == [99] && t.reg (TURNS 1) == 0xFFFFFFFF && t.reg (LAST_DEV 1) == 9) := by decide
theorem test_feedback_cfg : let s := qenc [] Iface.init
  shows [acc s (QE_CPR 1) 5, fbCfgReg 0 8 == some (0xFFFFFFFF, false), QE_CPR 1 == 0x80108] (exec (.feedbackCfgWrite 0x80108 5) s) (fun t => t == (s.noteHost 0x80108).raise (FB_STATUS 1) 8) &&
  shows [acc win0 (QE_CPR 1) 5] (exec (.feedbackCfgWrite 0x80108 5) win0) (fun t => t.reg (QE_CPR 1) == 5) := by decide
/-! Probes, compares, culverts -/
theorem test_probe_arm : let s := withRegs [(PRB_STATUS 3, 1)]
  shows [acc win0 (PRB_CTRL 3) 0x102] (exec (.probeArm 3 0x102) win0) (fun t => t.bit (PRB_STATUS 3) 0 && t.pair (PRB_ARM_LO 3) (PRB_ARM_HI 3) == 64000 && t.reg (PRB_CTRL 3) == 0x100) &&
  shows [acc s (PRB_CTRL 3) 6] (exec (.probeDisarm 3 6) s) (fun t => !t.bit (PRB_STATUS 3) 0 && (t.probe 3).disarmed == some 1000) &&
  shows [acc win0 (PRB_CTRL 3) 6] (exec (.probeDisarm 3 6) win0) (fun t => (t.probe 3).disarmed == none) := by decide
theorem test_probe_edge : let s := (withRegs [(PRB_CTRL 3, 0x100), (PRB_STATUS 3, 1), (SH_STATUS 0, 3)]).setProbe 3 { Probe.init with lastIn := some 60000 }
  shows [s.prbChan 3 == none, 24 ≤ ((60024 : Stamp) - 60000).toNat] (exec (.probeEdge 3 true 60024) s)
    (fun t => (t.probe 3).edges.map ProbeEdge.stamp == [60024] && (t.probe 3).lastIn == some 60024) &&
  (let s := s.setProbe 3 { s.probe 3 with edges := [{ stamp := 60000, rising := true, pos := some 9, invalid := false }] }
   shows [s.prbChan 3 == none] (exec (.probeEdge 3 true 60023) s) (fun t => (t.probe 3).edges == [] && (t.probe 3).lastIn == none) &&
   [s.edgeSure 60000, s.prbTakes 3 true 60000, !s.bit (PRB_STATUS 3) 1, ((s.prbTick 3).probe 3).pend == [(60000, some 9)], ((s.prbTick 3).probe 3).edges == []].all id &&
   (let s := s.setBit (PRB_STATUS 3) 1 true; [s.prbTakes 3 true 60000, (s.prbTick 3).reg (PRB_MISS 3) == 1].all id) &&
   (let s := s.setReg (PRB_CTRL 3) 0x200; [!s.prbTakes 3 true 60000, ((s.prbTick 3).probe 3).pend == []].all id)) := by decide
theorem test_probe_channel : let s := (withRegs [(PRB_CTRL 3, 0x108), (PRB_CH 3, 5)]).setProbe 3 { Probe.init with chanEdges := [(60024, true)] }
  shows [s.prbChan 3 == some 5] (exec (.probeEdge 3 true 60024) s) (fun t => (t.probe 3).chanEdges == [] && (t.probe 3).edges.map ProbeEdge.stamp == [60024]) := by decide
theorem test_probe_latch : let s := win0.setProbe 3 { Probe.init with pend := [(60024, some 77)] }
  shows [s.prbPosition 3 60024 (some 77) == some 77] (exec (.probeLatchComplete 3) s) (fun t => (t.probe 3).stamp == 60024 && (t.probe 3).pos == 77 && (t.probe 3).seq == 1 && (t.probe 3).pend == []) := by decide
theorem test_probe_read : let s := (withRegs [(PRB_STATUS 3, 4)]).setProbe 3 { Probe.init with stamp := 0x500000007, pos := 9, seq := 2 }
  shows [] (exec (.prbStampLoRead 3) s) (fun t => t.hostData == [7] && t.reg (PRB_STAMP_HI 3) == 5 && t.pair (PRB_POS_LO 3) (PRB_POS_HI 3) == 9 && t.reg (PRB_SEQ 3) == 2 && !t.bit (PRB_STATUS 3) 2) := by decide
def pcAt (pos v : BitVec 64) (more : List (Nat × Word)) : State :=
  ((withRegs ([(PC_CTRL 5, 0), (PC_VAL_LO 5, loWord v), (PC_VAL_HI 5, hiWord v)] ++ more)).setShaft 0 { Shaft.init with est := { Estimate.init with pos := pos } }).setPcmp 5 { Pcmp.init with v := v }
theorem test_pc_arm : shows [acc (pcAt 4 5 []) (PC_CTRL 5) 1] (exec (.pcArm 5 1) (pcAt 4 5 [])) (fun t => t.pcArmed 5 && t.takes == [.pcmp 5] && (let t := t.runTakes; (t.pcmp 5).near && (t.pcmp 5).fireDue == none && !t.bit (PC_STATUS 5) 2)) &&
  shows [acc (pcAt 5 5 []) (PC_CTRL 5) 0x4001] (exec (.pcArm 5 0x4001) (pcAt 5 5 [])) (fun t => t.pcArmed 5 && (let t := t.runTakes; !(t.pcmp 5).near && (t.pcmp 5).fireDue == some 1001 && t.bit (PC_STATUS 5) 2)) &&
  shows [acc (pcAt 5 5 []) (PC_CTRL 5) 3] (exec (.pcDisarm 5 3) (pcAt 5 5 [(PC_STATUS 5, 1)])) (fun t => !t.pcArmed 5) := by decide
theorem test_pc_fire : let s := (pcAt 5 5 [(PC_STATUS 5, 1)]).setPcmp 5 { v := 5, rev := false, near := false, fireDue := some 1000 }
  shows [s.reached 1000, s.pcArmed 5] (exec (.pcImmediateFire 5) s) (fun t => !t.pcArmed 5 && t.bit (PC_STATUS 5) 1 && t.bit (PC_STATUS 5) 3 && t.pair (PC_POS_LO 5) (PC_POS_HI 5) == 5 && t.pair (PC_STAMP_LO 5) (PC_STAMP_HI 5) == 64000) := by decide
theorem test_pc_crossing : let s := (pcAt 5 5 [(PC_STATUS 5, 1)]).setPcmp 5 { v := 5, rev := false, near := true, fireDue := none }
  shows [s.pcLive 5, s.pcTgt 5 == 0, (s.pcmp 5).near, !s.pcBefore 5 (s.pcPos 5)] (exec (.pcShaftCrossing 5) s) (fun t => !t.pcArmed 5 && t.bit (PC_STATUS 5) 1 && !t.bit (PC_STATUS 5) 3) := by decide
theorem test_culvert_raw : let s := (withRegs [(CV_CTRL 2, 2), (QE_INPUTS 0, 5)]).setChan 5 { Chan.init with inLevel := true }
  shows [s.cvMode 2 == 1, s.cvInputs 2 == (true, false, false), (s.culvert 2).raw != (true, false, false)] (exec (.culvertRawChange 2 true false false) s) (fun t => (t.culvert 2).pipe == [(1004, true, false, false)]) := by decide
theorem test_culvert_regen : let s := ((withRegs [(CV_CTRL 2, 0x14), (FB_STATUS 9, 0x01000000)]).setIface 9 { Iface.init with abs := 3 }).setCulvert 2 { Culvert.init with gap := 20 }
  shows [s.cvMode 2 == 2, s.cvPresent 2, s.cvOwed 2 != 0, s.reached (s.culvert 2).nextDue] (exec (.culvertRegenState 2) s) (fun t => (t.culvert 2).state == 1 && (t.culvert 2).nextDue == 1020 && (t.culvert 2).a) := by decide

/-! Threads and microwords -/
/-- Thread 2 of cluster 1 in STATE `st`, its PC 256. -/
def thr (st : Nat) (c : Thread) (more : List (Nat × Word)) : State :=
  (withRegs ([(TH_STATUS 1 2, BitVec.ofNat 32 st), (TH_PC 1 2, 256), (ID_UCODE, 0x80000101)] ++ more)).setThread 1 2 c
/-- The same thread RUNNING on an engine in state `e`. -/
def runs (c : Thread) (e : Engine) (more : List (Nat × Word)) : State :=
  (thr 3 c ([(CL_STATUS 1, 0x120000)] ++ more)).setEngine 1 e
theorem test_start_ready : let s := (runs Thread.init Engine.init [(TH_STATUS 1 3, 1), (TH_PC 1 3, 64)])
  shows [acc s (TH_CTRL 1 3) 0x202, s.thIdle 1 3, s.ucodeValid, !s.bit UC_LOAD_STATUS 31, !s.bit (CL_STATUS 1) 31, s.runningThread 1 != none]
    (exec (.thStart 1 3 0x202) s) (fun t => t.thState 1 3 == 2 && t.thPrio 1 3 == 2 && t.runningThread 1 == some 2) := by decide
theorem test_start_idle_engine : let s := thr 1 Thread.init []
  shows [acc s (TH_CTRL 1 2) 0x202, s.thIdle 1 2, !s.bit UC_LOAD_STATUS 31, !s.bit (CL_STATUS 1) 31, s.runningThread 1 == none]
    (exec (.thStart 1 2 0x202) s) (fun t => t.thState 1 2 == 2 && t.runningThread 1 == none && t.maySelect 1 && t.switchingThread 1 == none && t.pickThread 1 == some 2 &&
      (let u := t.engineTick 1; (u.engine 1).switching == some (2, t.microStart + 4) && u.reg (CL_SWITCH_CNT 1) == 1 && u.thState 1 2 == 2)) &&
  (let s := thr 2 Thread.init []; let v := { s.setEngine 1 { s.engine 1 with switching := some (2, 1004) } with mt := 1004 }
   v.switchingThread 1 == some (2, 1004) && v.engineRuns 1 && (v.engineBegin 1).thState 1 2 == 3 && (v.engineBegin 1).runningThread 1 == some 2) := by decide +kernel
theorem test_start_refused : shows [acc (thr 2 Thread.init []) (TH_CTRL 1 2) 2, !(thr 2 Thread.init []).thIdle 1 2]
  (exec (.thStart 1 2 2) (thr 2 Thread.init [])) (fun t => t.bit (TH_STATUS 1 2) 10 && t.thState 1 2 == 2) := by decide
theorem test_halt : shows [acc (runs Thread.init Engine.init []) (TH_CTRL 1 2) 4]
    (exec (.thHalt 1 2 4) (runs Thread.init Engine.init [])) (fun t => (t.thread 1 2).haltReq && t.thState 1 2 == 3) &&
  shows [acc (thr 2 Thread.init []) (TH_CTRL 1 2) 4] (exec (.thHalt 1 2 4) (thr 2 Thread.init [])) (fun t => t.thState 1 2 == 1) &&
  (let s := thr 2 Thread.init []; let u := s.setEngine 1 { s.engine 1 with switching := some (2, 1004) }
   shows [] (exec (.thHalt 1 2 4) u) (fun t => t.thState 1 2 == 1 && (t.engine 1).switching == none) && (u.dropSwitch 1 3) == u) := by decide
theorem test_context : shows [acc (thr 1 Thread.init []) (TH_CTRL 1 2 + 8) 0x12347, thMask 8 == some 0xFFFC]
    (exec (.thContextWrite 1 2 8 0x12347) (thr 1 Thread.init [])) (fun t => t.thPc 1 2 == 0x2344) &&
  shows [acc (thr 2 Thread.init []) (TH_CTRL 1 2 + 0x40) 5] (exec (.thContextWrite 1 2 0x40 5) (thr 2 Thread.init [])) (fun t => t.g 1 2 0 == 0 && t.bit (TH_STATUS 1 2) 11) := by decide
/-- The running thread at micro-store address 5, which holds `w`. -/
def micro (w : Word) (e : Engine) : State :=
  { runs { Thread.init with upc := 5 } e [] with ustore := [(5, w)] }
def atMicro (s : State) (due : Bool) : Bool := s.tclk && s.microThread 1 == some 2 && (s.engine 1).pollDue == due
theorem test_trap : let s := { micro 1 Engine.init with ustore := [] }
  shows [atMicro s false, microOp (s.microword (s.thread 1 2).upc) == 0] (exec (.trapWord 1) s) (fun _ => true) := by decide
theorem test_poll_microword : let s := micro 0x00100700 { Engine.init with sincePoll := 7 }
  shows [atMicro s false, microOp (s.microword (s.thread 1 2).upc) == 1, !(s.thread 1 2).haltReq, !(s.microStep 1 2 7).givesUp 1 2]
    (exec (.poll 1) s) (fun t => (t.thread 1 2).upc == 7 && t.reg (CL_POLL_MAX 1) == 8 && (t.engine 1).freeAt == 1002 && t.runningThread 1 == some 2) := by decide
theorem test_poll_halt : let s := (micro 0 { Engine.init with pollDue := true }).setThread 1 2 { Thread.init with haltReq := true }
  shows [atMicro s true] (exec (.poll 1) s) (fun t => t.thState 1 2 == 1 && !(t.thread 1 2).haltReq) := by decide
theorem test_micro_branch : shows [atMicro (micro 0x00200600 Engine.init) false] (exec (.microBranch 1 true) (micro 0x00200600 Engine.init)) (fun t => (t.thread 1 2).upc == 7) &&
  shows [] (exec (.microBranch 1 false) (micro 0x00F00600 Engine.init)) (fun t => (t.thread 1 2).upc == 6) := by decide
theorem test_datapath : shows [atMicro (micro 0x01000900 Engine.init) false] (exec (.datapathMicroword 1 false) (micro 0x01000900 Engine.init)) (fun t => (t.thread 1 2).upc == 9) &&
  shows [] (exec (.datapathMicroword 1 true) (micro 0x01000900 Engine.init)) (fun _ => true) := by decide
theorem test_thread_ready : let s := (thr 4 { Thread.init with wait := .time 63000, metAt := some 998, metSt := 6 } [(CL_STATUS 1, 0x130000), (TH_STATUS 1 3, 3)])
  shows [s.tclk, s.thState 1 2 == 4, s.engineRuns 1, !s.mt.getLsbD 0, s.reached (998 + 2), s.runningThread 1 != none]
    (exec (.threadReady 1 2) s) (fun t => t.thState 1 2 == 2 && t.thSt 1 2 == 6 && t.thPc 1 2 == 260 && (t.thread 1 2).wait == .none) := by decide
theorem test_ring_wait_ready : let s := (thr 4 { Thread.init with wait := .ring 5 true, metAt := some 998 } [(CL_STATUS 1, 0x130000), (TH_STATUS 1 3, 3), (TH_FLAGS 1 2, 0x50)])
  shows [s.thState 1 2 == 4, s.engineRuns 1, !s.mt.getLsbD 0, s.reached (998 + 2)] (exec (.threadReady 1 2) s) (fun t => t.thState 1 2 == 2 && t.thSt 1 2 == 5 && t.thPc 1 2 == 256 && (t.thread 1 2).wait == .none) := by decide
/-- The thread waits for an access of kind `k`, issued at tick 960, to byte address 64 of a reservoir that holds 0xFE, 0xFF there. -/
def access (k sz : Nat) (poison : Bool) : State :=
  { (thr 4 { Thread.init with wait := .access k sz 64 3 960 264 } [(G 1 2 3, 5), (CL_STATUS 1, 0x130000)]) with
    reservoir := [(64, 0xFE), (65, 0xFF)], poison := if poison then [8] else [] }
theorem test_access_load : let s := access 5 5 false
  shows [s.reached (960 + 40), !s.resPoisoned 64 2] (exec (.reservoirAccessComplete 1 2) s) (fun t => t.g 1 2 3 == 0xFFFFFFFE && t.thPc 1 2 == 264 && (t.thread 1 2).metAt == some 1000) := by decide
theorem test_access_store : shows [!(access 6 1 false).resPoisoned 64 2] (exec (.reservoirAccessComplete 1 2) (access 6 1 false)) (fun t => t.reservoir == [(64, 5)] && t.thPc 1 2 == 264) := by decide
theorem test_access_add : shows [!(access 7 2 false).resPoisoned 64 4] (exec (.reservoirAccessComplete 1 2) (access 7 2 false)) (fun t => t.g 1 2 3 == 0xFFFE && t.reservoir == [(64, 3), (66, 1)]) := by decide
theorem test_access_poisoned : shows [(access 5 5 true).resPoisoned 64 2] (exec (.reservoirAccessComplete 1 2) (access 5 5 true)) (fun t => t.fld (TH_STATUS 1 2) 23 16 == 5 && t.reg (FAULT_INFO 1 2) == 64 && t.bit GSTAT 7) := by decide
/-! KCI -/
/-- A word of format I: OPC, X, Gd, Ga, FN, IMM12. -/
def wI (opc d a fn imm : Nat) (x : Nat := 0) : Word := BitVec.ofNat 32 (opc * 2 ^ 26 + x * 2 ^ 25 + d * 2 ^ 21 + a * 2 ^ 17 + fn * 2 ^ 12 + imm)
/-- A word of format R: Gd, Ga, Gb, FN. -/
def wR (opc d a b fn : Nat) : Word := wI opc d a (2 * b) (256 * fn)
/-- The running thread at the instruction `w`, with extension word `x`, at declared level 2. -/
def kRuns (w x : Word) (more : List (Nat × Word)) : State :=
  ((runs Thread.init { Engine.init with level := 2 } more).ramWrite 1 256 w.toNat 4).ramWrite 1 260 x.toNat 4
/-- `State.kciRuns`, as a Bool. -/
def kr (s : State) (o : Kci) : Bool :=
  s.kThread 1 == some 2 && kciOf (s.kWord 1 2) == some o && o.decodeFault (s.kWord 1 2) (s.engine 1).level == none &&
    s.reached ((s.engine 1).freeAt + BitVec.ofNat 64 (2 * (s.kCycles 1 2 (s.kWord 1 2) o - 1)))
/-- The instruction `w` runs as `o` by its command, ends, and leaves `f`. -/
def kShows (c : Fin 24 → Instr) (o : Kci) (w : Word) (more : List (Nat × Word)) (f : State → Bool) (x : Word := 0) : Bool :=
  shows [kr (kRuns w x more) o] (exec (c 1) (kRuns w x more)) (fun t => f t && t.thState 1 2 == 3 && (t.engine 1).pollDue && (t.engine 1).freeAt == 1000)
def g (t : State) (i : Nat) : Word := t.g 1 2 i
theorem test_add : kShows .kAdd (.alu .add) (wR 1 0 1 2 0) [(G 1 2 1, 0xFFFFFFFF), (G 1 2 2, 1), (TH_FLAGS 1 2, 0x30)] (fun t => g t 0 == 0 && t.reg (TH_FLAGS 1 2) == 0x35 && t.thPc 1 2 == 260) := by decide
theorem test_addi_ext : kShows .kAdd (.alu .add) (wI 2 0 1 0 0 1) [(G 1 2 1, 3)] (fun t => g t 0 == 0x80000003 && t.thPc 1 2 == 264) 0x80000000 := by decide
theorem test_sub_negative : kShows .kSub (.alu .sub) (wI 2 0 1 1 0xFFF) [(G 1 2 1, 3)] (fun t => g t 0 == 4) := by decide
theorem test_cmp : kShows .kCmp (.alu .cmp) (wR 1 0 1 2 19) [(G 1 2 1, 3), (G 1 2 2, 4), (G 1 2 0, 9)] (fun t => g t 0 == 9 && flagsOf (t.reg (TH_FLAGS 1 2)) == ⟨false, true, true, false⟩) := by decide
theorem test_ror_div : (Alu.run .ror ⟨false, false, false, false⟩ 0x80000001 1).1 == 0xC0000000 && (Alu.run .sar ⟨false, false, false, false⟩ 0x80000000 31).1 == 0xFFFFFFFF &&
  (Alu.run .div ⟨false, false, false, false⟩ 0x80000000 0xFFFFFFFF).2.v && (Alu.run .rem ⟨false, false, false, false⟩ 0xFFFFFFF9 2).1 == 0xFFFFFFFF &&
  (Alu.run .clz ⟨false, false, false, false⟩ 1 0).1 == 31 && (Alu.run .addc ⟨false, false, true, false⟩ 1 2).1 == 4 := by decide
theorem test_ld : kShows .kLd .ld (wI 3 0 1 (4 * 4) 1) [(G 1 2 1, 260)] (fun t => g t 0 == 0xFFFFFF80 && t.thPc 1 2 == 260) 0x00FC8034 := by decide
theorem test_ld64 : kShows .kLd .ld (wI 3 4 1 (4 * 3) 0) [(G 1 2 1, 256)] (fun t => g t 4 == wI 3 4 1 (4 * 3) 0 && g t 5 == 0xABCD1234) 0xABCD1234 := by decide
theorem test_st : kShows .kSt .st (wI 4 0 1 (4 * 1) 2) [(G 1 2 0, 0x12345678), (G 1 2 1, 512)] (fun t => t.ramRead 1 512 4 == 0x56780000) := by decide
theorem test_align : let s := kRuns (wI 4 0 1 (4 * 1) 1) 0 []
  shows [kr s .st, (s.kAddr 1 2 (s.kWord 1 2)).toNat % szBytes (s.kWord 1 2) != 0] (exec (.kSt 1) (kRuns (wI 4 0 1 (4 * 1) 1) 0 [])) (fun _ => true) := by decide
theorem test_ldr : let s := kRuns (wI 5 0 1 (4 * 2) 4) 0 [(G 1 2 1, 0x1000)]
  shows [kr s .ldr, (s.kAddr 1 2 (s.kWord 1 2)).toNat % 4 == 0] (exec (.kLdr 1) s) (fun t => t.thState 1 2 == 4 && t.fld (TH_STATUS 1 2) 7 4 == 4 && (t.thread 1 2).wait == .access 5 2 0x1004 0 1000 260) := by decide
theorem test_str_rxadd : shows [kr (kRuns (wI 6 0 1 (4 * 2) 4) 0 []) .str] (exec (.kStr 1) (kRuns (wI 6 0 1 (4 * 2) 4) 0 [])) (fun t => (t.thread 1 2).wait == .access 6 2 4 0 1000 260) &&
  shows [kr (kRuns (wI 7 0 1 (4 * 2) 4) 0 []) .rxadd] (exec (.kRxadd 1) (kRuns (wI 7 0 1 (4 * 2) 4) 0 [])) (fun t => (t.thread 1 2).wait == .access 7 2 4 0 1000 260) := by decide
theorem test_resv_range : let s := kRuns (wI 5 0 1 (4 * 2) 0 1) 0x1000000 []
  shows [kr s .ldr, decide (2 ^ 24 ≤ (s.kAddr 1 2 (s.kWord 1 2)).toNat)] (exec (.kLdr 1) (kRuns (wI 5 0 1 (4 * 2) 0 1) 0x1000000 [])) (fun _ => true) := by decide
theorem test_br : kShows .kBr .br (BitVec.ofNat 32 (8 * 2 ^ 26 + 0xFFC0)) [] (fun t => t.thPc 1 2 == 0) && kShows .kBr .br (BitVec.ofNat 32 (8 * 2 ^ 26 + 2 ^ 21 + 8)) [(TH_FLAGS 1 2, 0)] (fun t => t.thPc 1 2 == 260) := by decide
theorem test_jal : kShows .kJal .jal (BitVec.ofNat 32 (9 * 2 ^ 26 + 15 * 2 ^ 21 + 4)) [] (fun t => t.thPc 1 2 == 272 && g t 15 == 260) := by decide
theorem test_jr : kShows .kJr .jr (wR 10 15 1 0 0) [(G 1 2 1, 0x10040)] (fun t => t.thPc 1 2 == 0x40 && g t 15 == 260) &&
  shows [kr (kRuns (wR 10 15 1 0 0) 0 [(G 1 2 1, 2)]) .jr] (exec (.kJr 1) (kRuns (wR 10 15 1 0 0) 0 [(G 1 2 1, 2)])) (fun _ => true) := by decide
/-- A channel word: OPC, Gd, Ga, CH, BND, the register's offset, SUB. -/
def wC (opc d a ch bnd off sub : Nat) : Word := BitVec.ofNat 32 (opc * 2 ^ 26 + d * 2 ^ 21 + a * 2 ^ 17 + ch * 2 ^ 13 + bnd * 2 ^ 12 + off / 4 * 32 + sub)
theorem test_chrd : kShows .kChrd .chrd (wC 12 1 0 3 0 0x00C 0) [(PERIOD 19, 77)] (fun t => g t 1 == 77) &&
  kShows .kChrd .chrd (wC 12 1 0 3 0 0x1FC 0) [(G 1 2 1, 7)] (fun t => g t 1 == 0 && t.thSt 1 2 == 0xB) := by decide
theorem test_chwr : kShows .kChwr .chwr (wC 13 0 1 0 1 0x00C 0) [(G 1 2 1, 99), (TH_BIND 1 2, 4)] (fun t => t.reg (PERIOD 20) == 99 && t.thSt 1 2 == 0) &&
  kShows .kChwr .chwr (wC 13 0 1 3 0 0x1FC 0) [(G 1 2 1, 99)] (fun t => t.thSt 1 2 == 0xB) &&
  kShows .kChwr .chwr (wC 13 0 1 3 0 0x010 0) [(G 1 2 1, 99), (CH_CTRL 19, 1), (PERIOD_ACT 19, 200)] (fun t => t.thSt 1 2 == 0xC && t.reg (COUNT 19) == 0) := by decide
theorem test_chwr_waits : let s := (kRuns (wC 13 0 1 0 0 0x00C 0) 0 [(G 1 2 1, 99)]).noteHost (PERIOD 16)
  shows [kr s .chwr, s.wroteNow (PERIOD 16)] (exec (.kChwr 1) s) (fun t => t.later == [.thread 1 2 (PERIOD 16) 99] && t.reg (PERIOD 16) == s.reg (PERIOD 16) && t.thPc 1 2 == 260) := by decide
theorem test_chrd64 : kShows .kChrd64 .chrd64 (wC 14 2 0 4 0 0x010 1) [(COUNT 20, 5), (COUNT 21, 6)] (fun t => g t 2 == 5 && g t 3 == 6) &&
  kShows .kChrd64 .chrd64 (wC 14 2 0 5 0 0x010 1) [] (fun t => t.thSt 1 2 == 0xB) := by decide
theorem test_chrd64_capture : let s := (kRuns (wC 14 2 0 4 0 0x128 0) 0 []).setChan 20 { Chan.init with capRise := 0x700000009 }
  shows [kr s .chrd64] (exec (.kChrd64 1) s) (fun t => t.gPair 1 2 2 == 0x700000009 && t.thSt 1 2 == 0) := by decide
theorem test_chstat : kShows .kChstat .chstat (wC 15 2 1 4 0 0x034 0) [(CMP_STATUS 20, 0x00F), (G 1 2 1, 0x5)] (fun t => g t 2 == 0xF && t.reg (CMP_STATUS 20) == 0xA) &&
  kShows .kChstat .chstat (wC 15 2 1 4 0 0x1FC 0) [] (fun t => g t 2 == 0 && t.thSt 1 2 == 0xB) := by decide
theorem test_shrd : let s := (kRuns (wI 18 2 0 0 0x20) 0 [(TH_FLAGS 1 2, 0x40)]).setShaft 0 { Shaft.init with est := { Estimate.init with pos := 0x500000001 } }
  shows [kr s .shrd, decide (s.kShaft 1 2 (s.kWord 1 2) < s.fld ID_CLUSTER 31 24)] (exec (.kShrd 1) s) (fun t => t.gPair 1 2 2 == 0x500000001 && t.thSt 1 2 == 0 && t.thStamp 1 2 == 64000) &&
  kShows .kShrd .shrd (wI 18 2 0 0 0xF) [(ID_CLUSTER, 0x08101018)] (fun t => t.thSt 1 2 == 4) := by decide
theorem test_accrd : let s := (kRuns (wI 19 2 0 1 7) 0 [])
  shows [kr s .accrd, decide (s.kIndex 1 2 (s.kWord 1 2) 0 < s.fld ID_ANALOG 15 8)] (exec (.kAccrd 1) s) (fun t => t.thSt 1 2 == 0 && t.accValue 7 == (0, 0)) &&
  kShows .kAccrd .accrd (wI 19 2 1 4 0) [(G 1 2 1, 63), (ID_ANALOG, 0x2020)] (fun t => t.thSt 1 2 == 0xB) := by decide
theorem test_mmrd : kShows .kMmrd .mmrd (wI 19 2 0 3 1) [(MM_RD 1, 0x00120034)] (fun t => g t 2 == 0x00120034 && t.reg (MM_RD 1) == 0x0000FFFF) &&
  kShows .kMmrd .mmrd (wI 19 2 0 2 63) [(ID_ANALOG, 0x2020)] (fun t => t.thSt 1 2 == 0xB) := by decide
theorem test_sysrd : kShows .kSysrd .sysrd (wI 26 2 0 1 0) [] (fun t => g t 2 == 0x102) && kShows .kSysrd .sysrd (wI 26 2 0 0 0) [] (fun t => g t 2 == t.reg ID_PART) := by decide
theorem test_mtrd : kShows .kMtrd .mtrd (wI 16 2 0 1 0) [] (fun t => t.gPair 1 2 2 == 1000 && t.thStamp 1 2 == 64000) := by decide
theorem test_stld_stst : kShows .kStld .stld (wI 17 0 2 0 0) [(G 1 2 2, 5), (G 1 2 3, 6)] (fun t => t.thStamp 1 2 == 0x600000005) &&
  kShows .kStst .stst (wI 17 2 0 1 0) [(TH_STAMP_LO 1 2, 5), (TH_STAMP_HI 1 2, 6)] (fun t => t.gPair 1 2 2 == 0x600000005) := by decide
theorem test_stadd : kShows .kStadd .stadd (wI 17 0 2 2 0) [(G 1 2 2, 5), (TH_STAMP_LO 1 2, 0xFFFFFFFF)] (fun t => t.thStamp 1 2 == 0x100000004 && t.thSt 1 2 == 0) &&
  kShows .kStsub .stsub (wI 17 0 2 3 0) [(G 1 2 2, 5), (TH_STAMP_LO 1 2, 9)] (fun t => t.thStamp 1 2 == 4) &&
  kShows .kStadd .stadd (wI 17 0 2 2 0) [(G 1 2 3, 256)] (fun t => t.thStamp 1 2 == 0 && t.thSt 1 2 == 3) := by decide
theorem test_staddi : kShows .kStaddi .staddi (wI 17 0 0 4 0xFFF) [] (fun t => t.thStamp 1 2 == 0xFFF) && kShows .kStaddi .staddi (wI 17 0 0 4 0 1) [] (fun t => t.thStamp 1 2 == 0xFFFFFFFF && t.thPc 1 2 == 264) 0xFFFFFFFF := by decide
theorem test_stcmp : kShows .kStcmp .stcmp (wI 17 0 0 5 0) [(TH_STAMP_LO 1 2, 63999)] (fun t => flagsOf (t.reg (TH_FLAGS 1 2)) == ⟨false, true, false, false⟩) := by decide
theorem test_waitt : kShows .kWaitt .waitt (wI 20 0 0 0 0) [(TH_STAMP_LO 1 2, 64000)] (fun t => t.thSt 1 2 == 0xD && t.thPc 1 2 == 260) &&
  shows [kr (kRuns (wI 20 0 0 0 0) 0 [(TH_STAMP_LO 1 2, 64001)]) .waitt] (exec (.kWaitt 1) (kRuns (wI 20 0 0 0 0) 0 [(TH_STAMP_LO 1 2, 64001)]))
    (fun t => t.thState 1 2 == 4 && t.fld (TH_STATUS 1 2) 7 4 == 1 && (t.thread 1 2).wait == .time 64001 && t.thPc 1 2 == 256) := by decide
theorem test_waita : kShows .kWaita .waita (wI 21 0 2 0 0) [] (fun t => t.thSt 1 2 == 6 && t.thPc 1 2 == 260) := by decide
theorem test_waita_waits : let s := ((kRuns (wI 21 0 2 0 0) 0 [(SH_STATUS 0, 3), (G 1 2 2, 0x40000000)]).setShaft 0 { Shaft.init with est := { Estimate.init with pos := 0 } })
  shows [kr s .waita, s.angleCheck 0 0 == 0] (exec (.kWaita 1) s) (fun t => (t.thState 1 2 == 4 && t.fld (TH_STATUS 1 2) 7 4 == 2) || t.thSt 1 2 == 0xD) := by decide
theorem test_yield : kShows .kYield .yield (wI 28 0 0 0 0) [] (fun t => t.thPc 1 2 == 260) := by decide
theorem test_yield_round : let s := (kRuns (wI 28 0 0 0 0) 0 [(TH_STATUS 1 3, 2)]).setEngine 1 { Engine.init with level := 2, lastSel := (2, 15, 15, 15) }
  shows [kr s .yield, s.yieldsTo 1 2, lastAt (s.engine 1).lastSel (s.thPrio 1 2) == 2] (exec (.kYield 1) s) (fun t => t.thState 1 2 == 2 && t.thPc 1 2 == 260 && t.runningThread 1 == none && t.pickThread 1 == some 3) := by decide
theorem test_khalt : shows [kr (kRuns (wI 29 0 0 0 0) 0 []) .halt] (exec (.kHalt 1) (kRuns (wI 29 0 0 0 0) 0 [])) (fun t => t.thState 1 2 == 1 && t.thPc 1 2 == 260) := by decide +kernel

theorem test_kpost : kShows .kPost .post (wI 22 0 4 0 0) [(G 1 2 4, 0x12300020), (G 1 2 5, 0x20000), (G 1 2 7, 512), (G 1 2 9, 7)]
    (fun t => t.thSt 1 2 == 0 && (t.weir 1).ledger.accepted == 1 && (t.weir 1).slots.length == 1) &&
  kShows .kPost .post (wI 22 0 4 0 0) [(G 1 2 4, 6)] (fun t => t.thSt 1 2 == 2 && t.reg (POST_REFUSED_CNT 1) == 1) := by decide +kernel
theorem test_kpost_waits : let s := (kRuns (wI 22 0 4 0 0) 0 [(G 1 2 4, 6)]).setWeir 1 { Weir.init with lastPost := some 1000 }
  shows [kr s .post, !s.postFree 1] (exec (.kPost 1) s) (fun t => (t.weir 1).posts == [{ words := [6, 0, 0, 0, 0, 0], thread := some 2, first := false }] && (t.engine 1).freeAt == 1002 && t.thPc 1 2 == 260) := by decide +kernel
theorem test_kcancel : kShows .kCancel .cancel (wI 23 0 4 0 0x123) [(G 1 2 4, 0xFF0)] (fun t => t.thSt 1 2 == 0 && (t.weir 1).cancels.map (fun c => (c.tag, c.mask, c.thread)) == [(0x123, 0xFF0, some 2)]) := by decide +kernel
theorem test_kcancel_busy : let c : Cancel := { tag := 0, mask := 0, thread := some 2, host := false, start := 999, before := 1, left := [], count := 0 }
  let s := (kRuns (wI 23 0 4 0 0x123) 0 []).setWeir 1 { Weir.init with cancels := [c, c] }
  shows [kr s .cancel, (s.weir 1).cancels.tail.any (fun c => c.thread == some 2)] (exec (.kCancel 1) s) (fun t => t.thSt 1 2 == 0xE && t.weirs == s.weirs) := by decide +kernel
def ring5 (cfg credit : Word) : List (Nat × Word) := [(RING_CFG 5, cfg), (RING_CREDIT 5, credit), (G 1 2 4, 1), (G 1 2 5, 2), (G 1 2 6, 3), (G 1 2 7, 4)]
theorem test_kpush : let s := kRuns (wI 24 0 4 0 5) 0 (ring5 0x04100401 16)
  let e : BitVec 128 := 0x00000004000000030000000200000001
  shows [kr s .push, decide (s.kIndex 1 2 (s.kWord 1 2) 0 < s.fld ID_QUEUE 15 8), s.ringEn 5, s.ringProd 5 == 1, s.ringCreditNow 5 != 0] (exec (.kPush 1) s)
    (fun t => t.thSt 1 2 == 0 && (t.ring 5).offers == [(57, .push 1 2 256 false e)] && (t.ring 5).inflight == [] && (t.ring 5).admitted == 0) &&
  [s.pushStatus 5 1 == 0, (s.ring 5).inflight == [], (let t := s.serveOffer 5 (.push 1 2 256 false e); (t.ring 5).inflight == [.entry e] && (t.ring 5).admitted == 1 && t.reg (RING_CREDIT 5) == 15)].all id := by decide
theorem test_push_offer_turned_away : let s := (kRuns (wI 24 0 4 0 5) 0 (ring5 0x04100401 0)).setThState 1 2 2 0
  [s.pushStatus 5 1 == 9, (let t := s.serveOffer 5 (.push 1 2 256 false 7); t.thSt 1 2 == 9 && t.rings == s.rings),
   s.thState 1 2 == thReady, (let t := s.serveOffer 5 (.push 1 2 256 true 7); t.thState 1 2 == 4 && (t.thread 1 2).wait == .ring 5 true && t.thPc 1 2 == 256)].all id := by decide
theorem test_kpush_no_credit : kShows .kPush .push (wI 24 0 4 0 5) (ring5 0x04100401 0) (fun t => t.thSt 1 2 == 9 && (t.ring 5).inflight == []) &&
  kShows .kPush .push (wI 24 0 4 0 5) (ring5 0x04000401 16) (fun t => t.thSt 1 2 == 0xC) &&
  kShows .kPush .push (wI 24 0 4 0 40) [(ID_QUEUE, 0x2000)] (fun t => t.thSt 1 2 == 0xB) := by decide
theorem test_kpush_waits : let s := kRuns (wI 24 0 4 1 5) 0 (ring5 0x04100401 0)
  shows [kr s .push] (exec (.kPush 1) s) (fun t => t.thState 1 2 == 4 && (t.thread 1 2).wait == .ring 5 true && t.thPc 1 2 == 256) := by decide
theorem test_kpop : let s := { kRuns (wI 25 8 0 0 5) 0 ([(RING_WR 5, 1), (RING_BASE 5, 0x1000)] ++ ring5 0x04100401 15) with reservoir := [(0x1000, 7), (0x1005, 9)] }
  shows [kr s .pop, s.ringCons 5 == 1, s.ringVisible 5 != 0, !s.resPoisoned (s.entryAt 5 (s.reg (RING_RD 5))) 16] (exec (.kPop 1) s)
    (fun t => t.thSt 1 2 == 0 && g t 8 == 7 && g t 9 == 0x900 && t.reg (RING_RD 5) == 1 && (t.ring 5).consumed == 1) &&
  kShows .kPop .pop (wI 25 8 0 0 5) (ring5 0x04100401 16) (fun t => t.thSt 1 2 == 0xA) := by decide
theorem test_kswap_arm : kShows .kSwapArm .swapArm (wI 30 0 0 8 0) [(SWAP_STATUS, 0xC0000000), (TH_STAMP_LO 1 2, 128000)]
    (fun t => t.thSt 1 2 == 0 && t.swapArmed && t.swap.fTick == 1744 && t.swap.tTick == 2000 && t.bit SWAP_STATUS 27) &&
  kShows .kSwapArm .swapArm (wI 30 0 0 16 0) [(SWAP_STATUS, 0xC0000000), (TH_STAMP_LO 1 2, 64)] (fun t => t.thSt 1 2 == 0 && t.swap.fTick == 1000 && t.swap.tTick == 1256 && t.swap.late) &&
  kShows .kSwapArm .swapArm (wI 30 0 0 0 0) [(SWAP_STATUS, 0xC0000000), (TH_STAMP_LO 1 2, 64)] (fun t => t.thSt 1 2 == 0xD && !t.swapArmed && t.fld SWAP_STATUS 3 0 == 3) := by decide
theorem test_kswap_arm_angle : kShows .kSwapArm .swapArm (wI 30 0 4 4 0x00F) [(SWAP_STATUS, 0xC0000000), (ID_CLUSTER, 0x08101018)] (fun t => t.thSt 1 2 == 4 && !t.swapArmed) &&
  (let s := (kRuns (wI 30 0 4 4 0) 0 [(SWAP_STATUS, 0xC0000000), (SH_STATUS 0, 3), (G 1 2 4, 0x40000000)]).setShaft 0 Shaft.init
   shows [kr s .swapArm] (exec (.kSwapArm 1) s) (fun t => t.thSt 1 2 == 0 && t.swapArmed && t.bit SWAP_STATUS 25)) := by decide +kernel
theorem test_kswap_refused : kShows .kSwapArm .swapArm (wI 30 0 0 0 0) [(SWAP_STATUS, 0xE0000000)] (fun t => t.thSt 1 2 == 0xE) && kShows .kSwapArm .swapArm (wI 30 0 0 0 0) [(SWAP_STATUS, 0x80000000)] (fun t => t.thSt 1 2 == 0xC) := by decide
theorem test_kswap_disarm : kShows .kSwapDisarm .swapDisarm (wI 30 0 0 1 0) [(SWAP_STATUS, 0xF0000000)] (fun t => t.thSt 1 2 == 0xC) &&
  kShows .kSwapDisarm .swapDisarm (wI 30 0 0 1 0) [(SWAP_STATUS, 0xE0000000)] (fun t => t.thSt 1 2 == 0 && !t.swapArmed && t.fld SWAP_STATUS 3 0 == 5) := by decide
theorem test_kswap_query : kShows .kSwapQuery .swapQuery (wI 30 3 0 2 0) [(SWAP_STATUS, 0xE0000005)] (fun t => g t 3 == 0xE0000005) := by decide
theorem test_swap_fixed : let s := { withRegs [(SWAP_STATUS, 0xE0000000)] with swap := { State.reset.swap with keyed := true, fTick := 999 } }
  shows [s.swapArmed, !s.swapFixed, s.reached s.swap.fTick] (exec .swapFixed s) (fun t => t.swapFixed) := by decide
def swapping : State := { withRegs [(SWAP_STATUS, 0xF0000000), (SWAP_MASK, 2)] with swap := { State.reset.swap with keyed := true, tTick := 1000 } }
theorem test_swap_tick : shows [swapping.swapFixed, swapping.reached swapping.swap.tTick, swapping.swap.list == []] (exec .swapTick swapping) (fun _ => true) := by decide
theorem test_swap_unwritten (a : Nat) : swapping.wroteNow a = false := rfl
theorem test_engine_writes : let s := win0.noteHost (G 1 2 3); let l : List (Nat × Word) := [(G 1 2 3, 5), (G 1 2 4, 6)]
  [s.wroteNow (G 1 2 3), (s.engineWrites l).later == [.engine (G 1 2 3) 5], (s.engineWrites l).reg (G 1 2 3) == 0, (s.engineWrites l).reg (G 1 2 4) == 6, (s.engineWrites l).wroteNow (G 1 2 4)].all id := by decide
theorem test_illegal : let s := kRuns 0xFC000000 0 []
  shows [s.kThread 1 == some 2, kciOf (s.kWord 1 2) == none] (exec (.kAdd 1) s) (fun _ => true) := by decide
theorem test_decode_checks : let s := kRuns (wI 20 1 0 0 0) 0 []
  shows [s.kThread 1 == some 2, Kci.waitt.decodeFault (s.kWord 1 2) 2 == some 1, Kci.rxadd.decodeFault (wI 7 0 1 (4 * 2) 4) 1 == some 2] (exec (.kAdd 1) s) (fun t => t == s) &&
  shows [win0.kThread 1 == none] (exec (.kAdd 1) win0) (fun t => t == win0) := by decide

/-! Rings -/
theorem test_ring_enable : let s := withRegs [(RING_CFG 5, 0x82000400), (RING_WR 5, 7), (RING_CFG 6, 0x82000401), (RING_FILL 6, 2), (RING_CREDIT 6, 14), (RING_BASE 6, 0x11100)]
  shows [acc s (RING_CFG 5) 0x82000401, !s.ringEn 5, (s.reg (RING_CFG 5) ^^^ 0x82000401) &&& 0xFFF11F00#32 == 0] (exec (.ringCfgWrite 5 false 0x82000401) s)
    (fun t => t.ringEn 5 && t.reg (RING_RD 5) == 7 && t.reg (RING_FILL 5) == 0 && t.reg (RING_CREDIT 5) == 16) &&
  shows [s.ringEn 6] (exec (.ringCfgWrite 6 false 0x82000501) s) (fun t => t.bit (RING_STATUS 6) 1 && t.reg (RING_CFG 6) == 0x82000401) &&
  shows [s.ringEn 6] (exec (.ringCfgWrite 6 false 0x82000400) s) (fun t => !t.ringEn 6 && (t.ring 6).flushed == 2 && t.reg (RING_CREDIT 6) == 0) &&
  shows [acc s (RING_BASE 5) 0x11000010] (exec (.ringCfgWrite 5 true 0x11000010) s) (fun t => t.reg (RING_BASE 5) == 0x10) &&
  shows [acc s (RING_BASE 6) 0x11123] (exec (.ringCfgWrite 6 true 0x11123) s) (fun t => t == s.noteHost (RING_BASE 6)) &&
  shows [acc s (RING_BASE 6) 0x11200] (exec (.ringCfgWrite 6 true 0x11200) s) (fun t => t.bit (RING_STATUS 6) 1 && t.reg (RING_BASE 6) == 0x11100) := by decide
theorem test_ring_written : let s := (withRegs [(RING_CFG 5, 0x82000401), (RING_WR 5, 17), (RING_BASE 5, 0x1000)]).setRing 5 { RingState.init with inflight := [.entry 0x0102] }
  shows [(s.ring 5).inflight == [.entry 0x0102]] (exec (.ringEntryWritten 5) s) (fun t => (t.ring 5).inflight == [] && t.reg (RING_WR 5) == 18 && t.reservoir == [(0x1010, 2), (0x1011, 1)]) := by decide
def hostRing : State := withRegs [(RING_CFG 5, 0x82000401), (RING_CREDIT 5, 12), (RING_FILL 5, 4), (RING_WR 5, 4)]
theorem test_host_commit : shows [acc hostRing (HOST_COMMIT 5) 3, !hostRing.commitRefused 5 3] (exec (.hostCommit 5 3) hostRing)
    (fun t => t.reg (RING_WR 5) == 4 && (t.ring 5).offers == [(80, .commit 3)]) &&
  [(hostRing.ring 5).inflight == [], (let t := hostRing.serveOffer 5 (.commit 3); t.reg (RING_WR 5) == 7 && t.reg (RING_CREDIT 5) == 9 && t.reg (RING_FILL 5) == 7 && (t.ring 5).admitted == 3)].all id &&
  shows [acc hostRing (HOST_COMMIT 5) 13] (exec (.hostCommit 5 13) hostRing) (fun t => t.bit (RING_STATUS 5) 2 && t.reg (RING_WR 5) == 4) := by decide
theorem test_offers_in_class_order : let s := ((hostRing.ringGather 5 rankHost (.commit 1)).ringGather 5 (rankWeir 3) (.hardware 9)).ringGather 5 rankHost (.xfer 4)
  (s.ring 5).offers == [(3, .hardware 9), (80, .commit 1), (80, .xfer 4)] := by decide
theorem test_host_release : shows [acc hostRing (HOST_RELEASE 5) 4, decide (4 ≤ hostRing.ringVisible 5), hostRing.ringCons 5 == 0x20] (exec (.hostRelease 5 4) hostRing)
    (fun t => t.reg (RING_RD 5) == 4 && t.reg (RING_CREDIT 5) == 16 && (t.ring 5).consumed == 4) &&
  shows [acc hostRing (HOST_RELEASE 5) 5] (exec (.hostRelease 5 5) hostRing) (fun t => t.bit (RING_STATUS 5) 3) := by decide
theorem test_xfer : shows [acc hostRing XFER_CTRL 0x105, hostRing.ringCreditNow 5 != 0] (exec (.xferPush 0x105) hostRing) (fun t => t.reg XFER_STATUS == 0 && (t.ring 5).offers == [(80, .xfer 0)] && t.reg (RING_CREDIT 5) == 12) &&
  [hostRing.pushStatus 5 0x20 == 0, ((hostRing.serveOffer 5 (.xfer 6)).ring 5).inflight == [.entry 6],
   (let s := hostRing.setReg (RING_CREDIT 5) 0; s.pushStatus 5 0x20 == 9 && s.serveOffer 5 (.xfer 6) == s.setReg XFER_STATUS 9)].all id &&
  shows [] (exec (.xferPush 0x305) hostRing) (fun t => t.reg XFER_STATUS == 0xC) &&
  shows [acc hostRing XFER_CTRL 0x205, !hostRing.resPoisoned (hostRing.entryAt 5 0) 16, (List.range 4).all (fun i => !hostRing.written.contains (HOST_ENTRY i))] (exec (.xferPop 0x205) { hostRing with reservoir := [(0, 9)] })
    (fun t => t.reg XFER_STATUS == 0 && t.hostEntry == 9 && t.reg (RING_RD 5) == 1) := by decide
theorem test_ring_snap : let s := { hostRing.setRing 5 { RingState.init with offered := 0x200000003, flushed := 4 } with mt := 1001 }
  shows [acc s RING_SNAP_CTRL 0x105] (exec (.ringSnapTake 0x105) s) (fun t => t.takes == [.ring 5] && (let t := t.runTakes; t.pair SNAP_OFFERED_LO SNAP_OFFERED_HI == 0x200000003 && t.pair SNAP_FLUSHED_LO SNAP_FLUSHED_HI == 4 &&
    t.pair RSNAP_SNAP_MT_LO RSNAP_SNAP_MT_HI == 1001 && t.reg SNAP_FILL == 4 && t.fld RING_SNAP_SEQ 15 0 == 1)) &&
  (let s := { hostRing with takes := [.ring 5] }; s.runTakes == s) := by decide
/-! Analogue conversion -/
theorem test_adc_req : shows [acc win0 ADC_REQ 0x85] (exec (.adcReq 0x85) win0) (fun t => t.adc.transit.map (fun q => (q.arrive, q.stamp, q.trig, q.urgent)) == [(1002, 64000, 5, true)]) := by decide
def adcReq1 (urgent : Bool) : AdcRequest := { arrive := 1000, rank := 1000000, stamp := 63872, trig := 5, urgent := urgent }
def adc1 (more : List (Nat × Word)) : State := let s := withRegs more; { s with adc := { s.adc with transit := [adcReq1 false] } }
theorem test_adc_null : shows [(adc1 []).adc.transit == [adcReq1 false]] (exec .adcRequestArrival (adc1 [])) (fun t => t.adc.transit == [] && t.adc.reqNull == 1 && t.adc.requests == 1) := by decide
theorem test_adc_expand : let s := adc1 [(ADC_TRIG_CFG 5, 0x80000201), (STEP 2, 0x00870103), (ADC_CTRL 1, 1)]
  shows [bitsOf (s.prior (ADC_TRIG_CFG 5)) 3 0 == 1, bitsOf (s.prior (STEP 2)) 9 8 == 1, (s.prior (ADC_CTRL 1)).getLsbD 0, (s.prior (STEP 2)).getLsbD 23, s.adcState 1 == 0, decide ((s.conv 1).queue.length < 16)] (exec .adcRequestArrival s)
    (fun t => t.adc.expanded == 1 && t.adc.issued == 1 && t.adcState 1 == 1 && (t.conv 1).due == some 1321 && (t.conv 1).queue == [{ step := 0x00870103, urgent := false, ain := s.reg (AIN_CFG 3) }]) := by decide
def conv1 (st : Nat) (v : Converter) (more : List (Nat × Word)) : State := (withRegs ([(ADC_STATUS 1, BitVec.ofNat 32 st)] ++ more)).setConv 1 v
def aConv : Conv := { step := 0x00870103, urgent := false, ain := 60 }
theorem test_adc_start : let s := conv1 1 { Converter.init with due := some 1000, queue := [aConv] } [(AIN_CFG 3, 60)]
  shows [s.adcDue 1 adcStartup, (s.conv 1).urgent == none] (exec (.adcStartupEnd 1) s) (fun t => t.adcState 1 == 2 && (t.conv 1).running == some aConv && (t.conv 1).due == some 1060) &&
  (let s := conv1 4 { Converter.init with due := some 1000, queue := [aConv] } [(AIN_CFG 3, 7)]
   shows [s.adcDue 1 adcIdle] (exec (.adcAcqStart 1) s) (fun t => t.adcState 1 == 2 && (t.conv 1).due == some 1048)) := by decide
theorem test_adc_hold : shows [(conv1 2 { Converter.init with due := some 1000 } []).adcDue 1 adcAcq] (exec (.adcHold 1) (conv1 2 { Converter.init with due := some 1000 } []))
  (fun t => t.adcState 1 == 3 && (t.conv 1).due == some 1112) := by decide
theorem test_adc_deliver : let s := conv1 3 { Converter.init with due := some 1000, running := some aConv } []
  shows [s.adcDue 1 adcConv, (s.conv 1).running == some aConv, s.accLength 7 == 0, (s.accum 7).val.count != BitVec.allOnes 24, bitsOf aConv.step 21 16 == 7] (exec (.conversionDelivery 1 100) s) (fun _ => true) := by decide
theorem test_adc_off : shows [!((conv1 4 Converter.init []).prior (ADC_CTRL 1)).getLsbD 1] (exec (.adcIdleOff 1) (conv1 4 Converter.init [])) (fun t => t.adcState 1 == 0) := by decide
theorem test_acc_read : let s := (withRegs [(ACC_STATUS 7, 2)]).setAccum 7 { val := { sum := 0x1200000034, count := 5, rsum := 0, rcount := 0 }, hits := [] }
  shows [s.accSeen 7 s.inCycle == (0x1200000034, 5), s.accWindow 7 s.inCycle == []] (exec (.accRdcLoRead 7) s) (fun t => t.hostData == [0x34] && t.reg (ACC_RD_HI 7) == 0x512 && t.accValue 7 == (0, 0) && !t.bit (ACC_STATUS 7) 1) &&
  shows [] (exec (.accRdLoRead 7) s) (fun t => t.hostData == [0x34] && t.accValue 7 == (0x1200000034, 5)) &&
  (let u := s.setAccum 7 { val := { sum := 0x1200000037, count := 6, rsum := 0, rcount := 0 },
                           hits := [{ tick := 1000, r := 3, before := (s.accum 7).val, ovw := false, sat := false, alone := true }] }
   shows [u.accLength 7 == 0, (u.accWindow 7 u.inCycle).length == 1, u.accSeen 7 u.inCycle == (0x1200000034, 5)] (exec (.accRdcLoRead 7) u)
    (fun t => t.hostData == [0x34] && !t.bit (ACC_STATUS 7) 1 && t.accValue 7 == (3, 1))) := by decide
theorem test_mm_acc_snap : shows [] (exec (.mmRdcRead 7) (withRegs [(MM_RD 7, 5)])) (fun t => t.hostData == [5] && t.reg (MM_RD 7) == 0xFFFF) &&
  shows [acc win0 (ACC_CFG 7) 0x1000009] (exec (.accCfgWrite 7 0x1000009) win0) (fun t => t.reg (ACC_CFG 7) == 9) &&
  shows [acc win0 ADC_SNAP_CTRL 1] (exec (.adcSnapTake 1) { win0 with adc := { win0.adc with requests := 6 } }) (fun t => t.takes == [.adc] && t.runTakes.reg SNAP_REQUESTS_LO == 6 && t.runTakes.pair ADC_SNAP_MT_LO ADC_SNAP_MT_HI == 1000) := by decide
/-! Interrupts -/
theorem test_irq_latch : let s := { win0 with irqEvents := [{ source := 250, bit := some 1, tick := 1000 }] }
  shows [] (exec .irqLatch s) (fun t => t.irqPending 250 && t.bit (CAUSE 250) 1 && t.irqEvents == []) := by decide
theorem test_irq_regs : shows [acc win0 (IRQ_SET 2) 5] (exec (.irqSet 2 5) win0) (fun t => t.reg (IRQ_PEND 2) == 5) &&
  shows [acc win0 0x21800 0xFF, selectMask 0x21800 == some 0x3F] (exec (.irqSelectWrite 0x21800 0xFF) win0) (fun t => t == (win0.noteHost 0x21800).setNext 0x21800 0x3F && t.reg 0x21800 == 0x3F) := by decide
def msix1 (req : Word) (more : List (Nat × Word)) : State := let s := withRegs more; { s with power := { s.power with msixEnable := true, msixReq := req } }
theorem test_msix : let s := msix1 8 [(MSIX_CTRL 3, 0), (MSIX_ADDR_LO 3, 0x1000), (MSIX_DATA 3, 77)]
  shows [!s.vecMasked 3] (exec (.msiXMessage 3) s) (fun t => t.sent == [.msix 3 0x1000 77] && t.power.msixReq == 0) &&
  shows [(msix1 8 [(MSIX_CTRL 3, 1)]).vecMasked 3] (exec (.msiXMessage 3) (msix1 8 [(MSIX_CTRL 3, 1)])) (fun t => t == msix1 8 [(MSIX_CTRL 3, 1)]) := by decide
theorem test_vec_done : shows [acc (msix1 0 []) VEC_DONE 8, (msix1 0 []).activeSources == []] (exec (.vecDone 8) (msix1 0 [(VEC_INSVC, 12)])) (fun t => t.reg VEC_INSVC == 4) &&
  shows [acc win0 VEC_DONE 8, !win0.power.msixEnable] (exec (.vecDone 8) (withRegs [(VEC_INSVC, 12)])) (fun t => t.reg VEC_INSVC == 12) &&
  shows [] (exec (.pcieConfigWrite .msixControl 0xC000) (withRegs [(IRQ_PEND 0, 2), (IRQ_ENA 0, 2), (ROUTE 1, 0x8300)])) (fun t => t.power.msixEnable && t.power.fnMask && t.bit VEC_INSVC 3 && t.pbaView.getLsbD 3) := by decide
theorem test_config_space : shows [] (exec (.pcieConfigWrite .bar0 0xFFFFFFFF) win0) (fun t => t.cfgHeader 0x10 == 0xFC000000) &&
  shows [] (exec (.pcieConfigWrite .bar2Lo 0xFFFFFFFF) win0) (fun t => t.cfgHeader 0x18 == 0xFF00000C && t.cfgHeader 0x1C == 0) &&
  shows [] (exec (.pcieConfigWrite .bar2Hi 5) win0) (fun t => t.cfgHeader 0x1C == 0 && t.cfgHeader 0x18 == win0.cfgHeader 0x18) := by decide
/-! Microcode loads -/
theorem test_load_go : let s := withRegs ((List.range 384).map (fun i => (TH_STATUS (i / 16) (i % 16), 1)))
  shows [acc s UC_LOAD_GO 1, !s.bit UC_LOAD_STATUS 31, s.loadQuiet, !(s.setBit GSTAT 2 true).loadQuiet] (exec (.ucLoadGo 1) s) (fun _ => true) := by decide
theorem test_load_refused : let s := withRegs [(UC_LOAD_STATUS, 0x80000001), (UC_LOAD_SRC, 4)]
  shows [s.bundleCheck == .inl (0, 9)] (exec .microcodeLoadComplete s) (fun _ => true) := by decide
theorem test_flash_silent : shows [(flashRead ((withRegs [(GSTAT, 0x10)]).fld GSTAT 5 4)).isSome, (flashRead 2).isSome, !(withRegs [(GSTAT, 0x10)]).bit UC_LOAD_STATUS 31, (withRegs [(GSTAT, 0x10), (UC_LOAD_STATUS, 0)]).fld UC_LOAD_STATUS 4 0 == 0]
  (exec (.flashLoad []) (withRegs [(GSTAT, 0x10), (UC_LOAD_STATUS, 0)])) (fun t => t.sent.length == 1) := by decide
theorem test_flash_image : let s := withRegs [(GSTAT, 0x10), (UC_LOAD_STATUS, 0)]
  shows [flashRead (s.fld GSTAT 5 4) == some ⟨0x6B, 1, 4, 8, 50⟩, s.fld UC_LOAD_STATUS 4 0 == 0, !s.written.contains UC_LOAD_SRC, !s.written.contains UC_LOAD_LEN, leNat [0x31, 0x43, 0x55, 0x4B] == baseMagic.toNat] (exec (.flashLoad [0x31, 0x43, 0x55, 0x4B]) s)
    (fun t => t.bit UC_LOAD_STATUS 31 && t.sent == [.flash ⟨0x6B, 1, 4, 8, 50⟩ 0] && t.reg UC_LOAD_LEN == 160 && t.reservoir == [(0, 0x31), (1, 0x43), (2, 0x55), (3, 0x4B)]) := by decide +kernel
/-- A base image of one microword, signed with a key of the test. -/
def signedBytes : List Byte :=
  [0x31, 0x43, 0x55, 0x4B, 1, 0, 0, 0, 0, 1, 0, 0, 8, 0, 0, 0, 0x21, 0, 0, 0, 0, 0, 0, 0, 1, 0, 0, 0, 0, 0, 0, 0] ++
  beBytes 32 0x471C3E758C4904285BBA7E53118ED0F524ADEB0757D25BD2F8E7B0D76DFA714C ++
  beBytes 32 0xDD520F7ACA8A8B917ACC37F51DE8F0C9BBE3AD858382E702DC25A12D09F7A858 ++ [7, 0, 0, 0] ++
  beBytes 32 0xCAB00CD5D696FD156D1AAA8C05F46AE14FC94D39CF4972A8263F3523109487D4 ++
  beBytes 32 0xB20CD68A4E9A1E1620FF7AABB9F875CE0A13C33D49B63392D89EE6EE6ADE2786
/-- A reservoir with that image. -/
def signed : State :=
  { withRegs [(UC_LOAD_STATUS, 0x80000001), (UC_LOAD_LEN, 164)] with
    reservoir := (signedBytes.zipIdx.filter (fun e => e.1 != 0)).map (fun e => (e.2, e.1)) }
theorem test_base_refused (hk : keyKnown (signedBytes.extract 32 96) = false) : signed.baseCheck 0 164 = 0x0B := by
  unfold State.baseCheck State.itemCheck
  rw [show signed.baseLen 0 = 100 by decide +kernel]
  simp only [show signed.resBytes (0 + 32) 64 = signedBytes.extract 32 96 by decide +kernel, hk, show signed.resPoisoned 0 (100 + 64) = false by decide +kernel, show signed.resWord 0 = baseMagic by decide +kernel]
  decide +kernel
theorem test_base_passes (hk : keyKnown (signedBytes.extract 32 96) = true) : signed.bundleCheck = .inr [] := by
  have h : signed.baseCheck 0 164 = 0 := by
    unfold State.baseCheck State.itemCheck
    rw [show signed.baseLen 0 = 100 by decide +kernel]
    simp only [show signed.resBytes (0 + 32) 64 = signedBytes.extract 32 96 by decide +kernel, hk, show signed.resPoisoned 0 (100 + 64) = false by decide +kernel]
    decide +kernel
  unfold State.bundleCheck
  rw [show signed.fld UC_LOAD_SRC 23 0 = 0 by decide +kernel, show signed.fld UC_LOAD_LEN 23 0 = 164 by decide +kernel]
  simp only [Nat.zero_add, Nat.sub_zero, h, show signed.baseLen 0 = 100 by decide +kernel]
  simp [State.patchesFrom]

/-! Ponar and the headgate -/
theorem test_ponar_cfg : let s := { withRegs [(PONAR_CFG, 1)] with hg := { win0.hg with held := some [7], ringSince := some 900 } }
  shows [acc s PONAR_CFG 0x100] (exec (.ponarCfgWrite 0x100) s) (fun t => t.hg.held == none && t.hg.ringSince == none && t.reg PONAR_CFG == 0x100) := by decide
/-- A HELLO of version 1 in entry 0 of command ring 2. -/
def helloRing : State :=
  { withRegs [(PONAR_CFG, 0x00030201), (RING_CFG 2, 0x82000401), (RING_WR 2, 2)] with
    reservoir := [(1, 1), (2, 0x10), (3, 0x50), (4, 4), (16, 3)] }
theorem test_ponar_ring : shows [helloRing.ponarFree, helloRing.cmdWhole, helloRing.hg.queue == [], helloRing.cmdNeed == 2] (exec .ponarRingMessage helloRing)
  (fun t => t.reg (RING_RD 2) == 2 && t.hg.serving.map (fun m => (m.type, m.len, m.payload)) == some (1, 4, [3])) := by decide
/-- A sound frame, which carries a datagram for UDP port `u`. -/
def fr (u : BitVec 16) : RxFrame := { length := 100, fcsOk := true, tags := 1, pause := false, plainIp := true, udpPort := u }
theorem fr_brings (u : BitVec 16) : (fr u).brings u.toNat := ⟨⟨rfl, by simp [fr], by simp [fr], rfl⟩, rfl, rfl⟩
def portOn (more : List (Nat × Word)) : State := withRegs ([(PORT_CTRL 0, 0x21), (PORT_STATUS 0, 1), (UDP_PORTS 0, 0x00090007)] ++ more)
def reqMsg (ty : Nat) (crit : Bool) (payload : List Word) : Msg :=
  { via := .ring, h0 := BitVec.ofNat 32 (0x50100000 + ty * 256 + (if crit then 0x20000 else 0)), h1 := BitVec.ofNat 32 (4 * payload.length), h2 := 0, h3 := 0,
    payload := payload, tag := 0, arrived := 990 }
theorem test_ponar_udp : let s := portOn []; let u := withRegs [(PORT_CTRL 0, 1), (PORT_STATUS 0, 1), (UDP_PORTS 0, 0x00090007)]
  shows [s.portUp 0, s.fld (UDP_PORTS 0) 15 0 == 7, s.bit (PORT_CTRL 0) 5] (exec (.ponarUdpDatagram ⟨0, (fr 7)⟩ 5 6 [1]) s) (fun t => t == s.satCount (PONAR_DISCARD 0)) &&
  shows [u.portUp 0, !u.bit (PORT_CTRL 0) 5] (exec (.ponarUdpDatagram ⟨0, (fr 7)⟩ 5 6 [1]) u) (fun t => t.reg (RX_DISCARD 0) == 1) := by decide
theorem test_ponar_udp_queued : let b : List Byte := [0, 3, 0x10, 0x50, 0, 0, 0, 0, 0, 0, 0, 0, 0, 0, 0, 0]
  let s := { portOn [(PEER_INFO 0 1, 0x80000001), (PEER_IP 0 1, 5), (PEER_UDP 0 1, 6)] with hg := { win0.hg with serving := some (reqMsg 1 false [1]) } }
  shows [s.findPeer 0 5 6 == some 1, s.hg.serving != none, (parseMsg (.udp 0 5 6) b 1000).magic == 0x50] (exec (.ponarUdpDatagram ⟨0, (fr 7)⟩ 5 6 b) s) (fun t => t.hg.queue.length == 1 && t.hg.serving == s.hg.serving) := by decide
theorem test_response_admit : let s := { withRegs [(PONAR_CFG, 0x00030201), (RING_CFG 3, 0x82000401), (RING_CREDIT 3, 16)] with hg := { win0.hg with held := some [7, 8] } }
  shows [s.hg.held == some [7, 8], s.respCan 2, !s.hg.offered, s.rspRing == 3] (exec .ponarResponseAdmit s) (fun t => t.hg.offered && (t.ring 3).offers == [(80, .ponar [7, 8])]) &&
  [(s.ring 3).inflight == [], (let t := s.serveOffer 3 (.ponar [7, 8]); t.hg.held == none && t.reg (RING_WR 3) == 2 && t.reservoir == [(0, 7), (16, 8)])].all id &&
  (let s := s.setReg (RING_CREDIT 3) 1
   shows [decide (s.ringCreditNow s.rspRing < 2)] (exec .ponarResponseAdmit s) (fun t => t == s)) := by decide
/-- Request `m` in service, its response ring not usable. -/
def serve (m : Msg) (more : List (Nat × Word)) : State := { withRegs ([(PONAR_CFG, 1), (ID_UCODE, 0x00020101)] ++ more) with hg := { win0.hg with serving := some m } }
/-- `State.servesRequest`, as a Bool. -/
def sr (s : State) (m : Msg) (ty : Nat) : Bool :=
  s.hg.serving == some m && m.via == .ring && m.type == ty && s.power.phase == .run && !s.ponarGated && s.bit PONAR_CFG 0 && !s.ponarRingOk s.rspRing
/-- The engine holds a response with this STATUS, its payload from word 4 on `ws`. -/
def holds (t : State) (status : Nat) (ws : List Word) : Bool :=
  t.hg.serving == none && (match t.hg.held with
    | some es => bitsOf ((es.getD 0 0).truncate 32 : Word) 7 0 == status && decide (ws.length ≤ 4) && (List.range ws.length).all (fun i => ((es.getD 1 0) >>> (32 * i)).truncate 32 == ws.getD i 0)
    | none => false)
theorem test_hello : let m := reqMsg 1 false [3]
  shows [sr (serve m []) m 1] (exec .hello (serve m [])) (fun t => t.reg PONAR_SESSION == 2 && holds t 0 [2, t.reg ID_PART, t.reg ID_STEP, t.reg ID_UCODE]) &&
  shows [sr (serve (reqMsg 1 false [8]) []) (reqMsg 1 false [8]) 1] (exec .hello (serve (reqMsg 1 false [8]) [])) (fun t => t.reg PONAR_SESSION == 0 && holds t 3 []) := by decide
theorem test_get_counter : let m := reqMsg 2 false [0]
  shows [sr (serve m []) m 2] (exec .getCounter (serve m [])) (fun t => holds t 0 [(serve m []).keyView 0 0, (serve m []).keyView 0 4]) := by decide
theorem test_reg_read : let m := reqMsg 3 false [BitVec.ofNat 32 ID_STEP]
  shows [sr (serve m []) m 3, m.len == 4] (exec .regRead (serve m [])) (fun t => holds t 0 [t.reg ID_STEP]) := by decide
theorem test_reg_write : let m := reqMsg 4 false [0xB8004, 9]
  shows [sr (serve m []) m 4, m.len == 8] (exec .regWrite (serve m [])) (fun t => t.reg 0xB8004 == 9) := by decide
theorem test_reg_write_waits : let m := reqMsg 4 false [0xB8004, 9]; let s := (serve m []).noteHost 0xB8004
  shows [sr s m 4, s.wroteNow 0xB8004] (exec .regWrite s) (fun t => t.hg.serving == none && t.hg.pairs.map (fun p => p.left) == some [(0xB8004, 9)] && t.regs == s.regs) := by decide +kernel
def sealed1 (s : State) : State := { s with nvm := { s.nvm with sealed := true } }
theorem test_reg_write_sealed : let m := reqMsg 4 false [BitVec.ofNat 32 WDOG_CFG, 9]
  shows [sr (sealed1 (serve m [])) m 4, (sealed1 (serve m [])).sealLocks WDOG_CFG 9] (exec .regWrite (sealed1 (serve m []))) (fun t => t.reg LOCK_REFUSED_CNT == 1 && t.reg LOCK_ADDR == BitVec.ofNat 32 WDOG_CFG && t.bit HG_EVENT 1) := by decide
theorem test_output : let m := reqMsg 0x20 false [1]
  shows [sr (serve m []) m 0x20, !((serve m []).setReg ID_UCODE 0).ucodeValid] (exec .output ((serve m []).setReg ID_UCODE 0)) (fun t => holds t 0x13 []) := by decide
/-- A PROG_LOAD of an image of 80 bytes for cluster 1, and no list. -/
def loadMsg (w0 : Word) : Msg :=
  { reqMsg 0x21 false [w0, 2, 0, 0, 0x42C4B0E3, 0x141CFC98, 0xC8F4FB9A, 0x24B96F99, 0xE441AE27, 0x4C939B64, 0x1B9995A4, 0x55B85278,
      0, 0, 0xF3A04045, 0x25C47A8A, 0xC8A8F6C9, 0x846B552E, 0x43F709EA, 0x6696598A, 0x0605ADE1, 0x1F27E376] with h0 := 0x50222100 }
def loadable (m : Msg) : State :=
  { serve m ((List.range 16).map (fun t => (TH_STATUS 1 t, 1))) with reservoir := [(0, 0x31), (1, 0x49), (2, 0x43), (3, 0x4B), (4, 1), (5, 1), (8, 80)] }
theorem test_load_refusals : let m := loadMsg 4; let k := loadMsg 1; let s := (loadable k).setReg SWAP_STATUS 0xA0000000
  shows [sr (loadable m) m 0x21, (loadable m).loadCheck m false ((loadable m).payloadWord m) == 1] (exec .progLoadDirect (loadable m)) (fun t => holds t 1 []) &&
  shows [sr s k 0x21, s.loadCheck k true (s.payloadWord k) == 0x11] (exec .progLoadStage s) (fun t => holds t 0x11 []) := by decide
theorem test_prog_load : sr (loadable (loadMsg 0)) (loadMsg 0) 0x21 && (loadable (loadMsg 0)).loadCheck (loadMsg 0) false ((loadable (loadMsg 0)).payloadWord (loadMsg 0)) == 0 := by decide +kernel
theorem test_load_unwritten (a : Nat) : (loadable (loadMsg 0)).wroteNow a = false := rfl
theorem test_prog_stage : sr (loadable (loadMsg 3)) (loadMsg 3) 0x21 && (loadable (loadMsg 3)).loadCheck (loadMsg 3) true ((loadable (loadMsg 3)).payloadWord (loadMsg 3)) == 0 := by decide +kernel
theorem test_swap_ctl : let m := reqMsg 0x22 false [0, 128000, 0]; let s := serve m [(SWAP_STATUS, 0x80000000)]
  shows [sr s m 0x22, !s.swapArmed] (exec .swapCtlArm s) (fun t => t.swapArmed && t.swap.tTick == 2000 && t.swap.fTick == 1744) &&
  shows [(s.setReg SWAP_STATUS 0xA0000000).swapArmed] (exec .swapCtlArm (s.setReg SWAP_STATUS 0xA0000000)) (fun t => holds t 0x13 [0xE, 0xA0000000]) &&
  shows [] (exec .swapCtlArm (s.setReg SWAP_STATUS 0)) (fun t => holds t 0x13 [0xC, 0]) := by decide
theorem test_swap_ctl_angle : let m := reqMsg 0x22 false [4, 0, 0, 0x40000000, 0x100, 0]; let s := serve m [(SWAP_STATUS, 0x80000000), (SH_STATUS 0, 3)]
  shows [sr s m 0x22, bitsOf (s.payloadWord m 0) 1 0 == 0] (exec .swapCtlArm s) (fun t => t.hg.serving == none && t.swapArmed && t.bit SWAP_STATUS 25) := by decide +kernel
theorem test_swap_disarm : let m := reqMsg 0x22 false [1]; let s := serve m [(SWAP_STATUS, 0xA0000000)]
  shows [sr s m 0x22, s.swapArmed, !s.swapFixed] (exec .swapCtlDisarm s) (fun t => !t.swapArmed && t.fld SWAP_STATUS 3 0 == 5) &&
  (let m := reqMsg 0x22 false [2]; let s := serve m [(SWAP_STATUS, 0xA0000000)]
   shows [sr s m 0x22] (exec .swapCtlQuery s) (fun t => t.swapArmed)) := by decide
theorem test_mit_change : let m := reqMsg 0x23 false [0x50410, 1]
  shows [sr (serve m []) m 0x23, m.len == 8, !mitChangeAddr 0x50410] (exec .mitChange (serve m [])) (fun t => holds t 0x12 []) &&
  (let m := reqMsg 0x23 false [0x50404, 0xFFFFFFFF]
   shows [sr (serve m []) m 0x23, mitChangeAddr 0x50404, (mitCfgReg 0x50404).isSome, (serve m []).fld (MIT_STATUS 0) 1 0 == 0] (exec .mitChange (serve m []))
    (fun t => some (t.reg 0x50404) == (mitCfgReg 0x50404).map (fun p => mergeWord ((serve m []).reg 0x50404) 0xFFFFFFFF p.2))) := by decide
theorem test_mit_clear : let m := reqMsg 0x24 false [3]; let s := serve m [(MIT_STATUS 1, 2), (TRIP_RAW, 0)]
  shows [sr s m 0x24, !s.bit (MIT_STATUS 0) 1, s.bit (MIT_STATUS 1) 1, !s.anyActive 1] (exec .mitClear s) (fun _ => true) := by decide
def key1 (s : State) (k : KeySlot) : State := s.setKey 0 k
def admin : KeySlot := { key := 0x0F0E0D0C0B0A09080706050403020100, perm := 0xFF, state := 1, last := 0, mark := 4096 }
/-- The wrapped key of RFC 3394, 4.1. -/
theorem test_key_unwrap : keyUnwrap (leBytes 16 0x0F0E0D0C0B0A09080706050403020100)
    (wordBytes [0x0A8BA61F, 0x47B41281, 0xD84BF3AE, 0x827B5AFB, 0x23863E9D, 0xE5CFD271]) =
    some [0x00, 0x11, 0x22, 0x33, 0x44, 0x55, 0x66, 0x77, 0x88, 0x99, 0xAA, 0xBB, 0xCC, 0xDD, 0xEE, 0xFF] := by decide +kernel
def installMsg (last : Word) : Msg := reqMsg 0x25 false [0x00FF0003, 0x0A8BA61F, 0x47B41281, 0xD84BF3AE, 0x827B5AFB, 0x23863E9D, last]
theorem test_key_install : let m := installMsg 0xE5CFD271; let s := key1 (serve m []) admin
  shows [sr s m 0x25, bitsOf (s.payloadWord m 0) 9 8 == 0, !s.nvm.sealed] (exec .keyChangeInstall s)
    (fun t => t.hg.waiting == some m && (match t.hg.nvmOps with | [.key 3 v true] => v.key == 0xFFEEDDCCBBAA99887766554433221100 && v.perm == 0xFF && v.mark == 4096 | _ => false)) := by decide +kernel
theorem test_key_install_refused : let m := installMsg 0; let s := key1 (serve m []) admin
  sr s m 0x25 && (keyUnwrap (leBytes 16 (s.key m.slot).key.toNat) (wordBytes ((List.range 6).map (fun i => s.payloadWord m (i + 1))))).isNone := by decide +kernel
theorem test_key_revoke : let m := reqMsg 0x25 false [0x103]; let s := serve m []
  shows [sr s m 0x25, !s.nvm.sealed] (exec .keyChangeRevoke s) (fun t => t.hg.waiting == some m && (match t.hg.nvmOps with | [.key 3 v true] => v.state == 2 && v.key == 0 | _ => false)) := by decide
theorem test_seal : let m := reqMsg 0x27 false [0x5345414C]; let s := key1 (serve m []) admin
  shows [sr s m 0x27, (s.key 0).state == 1, (s.key 0).perm.getLsbD 3, !s.nvm.sealed] (exec .seal s) (fun t => t.hg.nvmOps == [.sealed] && t.hg.waiting == some m) &&
  shows [sr (serve m []) m 0x27, (List.range 8).all (fun i => (s.key (i + 1)).state != 1)] (exec .seal (serve m [])) (fun t => holds t 0x17 [] && !t.nvm.sealed) := by decide
theorem test_floor : let m := reqMsg 0x28 false [2]; let s := serve m [(ID_UCODE, 0x00020101)]
  shows [sr s m 0x28, s.ucodeValid] (exec .floorRaise s) (fun t => t.hg.nvmOps == [.floor 2] && t.hg.waiting == some m) &&
  (let m := reqMsg 0x28 false [3]
   shows [] (exec .floorRaise (serve m [])) (fun t => holds t 0x16 [])) := by decide
theorem test_ucal : let m := reqMsg 0x26 false [0]
  shows [sr (serve m []) m 0x26] (exec .ucalWrite (serve m [])) (fun t => holds t 1 []) &&
  (let m := reqMsg 0x26 false [0x101]
   shows [sr (serve m []) m 0x26] (exec .ucalWrite (serve m [])) (fun t => holds t 0x12 [] && t.hg.nvmOps == [])) &&
  (let m := reqMsg 0x26 false [1, 0x80000000 + 0x05000007, 0]; let s := serve m []
   shows [sr s m 0x26, !ucalBad (s.payloadWord m) 0, !ucalTrimBad (ucalRecord (s.payloadWord m) 0)] (exec .ucalWrite s) (fun t => t.hg.waiting == some m && t.hg.nvmOps.length == 1)) := by decide
theorem test_soft_reset_command : let m := reqMsg 0x29 false []
  shows [sr (serve m []) m 0x29] (exec .softReset (serve m [])) (fun t => t.hg.resetAfter && holds t 0 []) := by decide
theorem test_nvm_write : let s := { win0 with hg := { win0.hg with nvmOps := [.floor 7, .sealed] } }
  shows [] (exec (.nvmWriteComplete true) s) (fun t => t.nvm.floor == 7 && t.hg.nvmOps == [.sealed]) &&
  shows [] (exec (.nvmWriteComplete false) s) (fun t => t.nvm == s.nvm && t.hg.nvmOps == [.sealed] && t.bit HG_EVENT 4) := by decide
theorem test_key_load : let s := withRegs [(KEY_LOAD_CTRL, 0x00550003), (KEY_LOAD_DATA 0, 1), (KEY_LOAD_DATA 3, 4)]
  shows [acc s KEY_LOAD_GO 1] (exec (.keyLoadGo 1) s) (fun t => (match t.hg.nvmOps with | [.key 3 v false] => v.key == 0x00000004000000000000000000000001 && v.perm == 0x55 | _ => false)) &&
  shows [(sealed1 s).sealLocks KEY_LOAD_GO 1] (exec (.keyLoadGo 1) (sealed1 s)) (fun t => t.bit KEY_LOAD_CTRL 31 && t.reg LOCK_REFUSED_CNT == 1) := by decide

/-! Network -/
theorem test_port_ctrl : let s := portOn []
  shows [acc s (PORT_CTRL 0) 1] (exec (.portCtrlWrite 0 0 1) s) (fun t => t.bit (PORT_STATUS 0) 3 && t.reg (PORT_CTRL 0) == 0x21) &&
  shows [acc (withRegs [(PORT_CTRL 0, 0x20)]) (PORT_CTRL 0) 0x21] (exec (.portCtrlWrite 0 0 0x21) (withRegs [(PORT_CTRL 0, 0x20)])) (fun t => t.reg (PORT_CTRL 0) == 0x21) &&
  shows [acc s (PORT_CTRL 0 + 0x10) 5] (exec (.portCtrlWrite 0 0x10 5) s) (fun t => t.bit (PORT_STATUS 0) 3) &&
  shows [acc win0 (PORT_CTRL 0 + 0x10) 5] (exec (.portCtrlWrite 0 0x10 5) win0) (fun t => t.reg (PORT_CTRL 0 + 0x10) == 5) := by decide
theorem test_link : shows [] (exec (.linkChange 0 true) (withRegs [(PORT_CTRL 0, 1)])) (fun t => t.bit (PORT_STATUS 0) 0 && t.bit (PORT_STATUS 0) 1 && (t.port 0).linkTick == 1000) &&
  shows [] (exec (.linkChange 0 false) (portOn [])) (fun t => !t.bit (PORT_STATUS 0) 0) := by decide
def net : State := portOn [(IP_ADDR 0, 0x0A000001), (IP_MASK 0, 0xFF000000)]
theorem test_bad_frames : let s := portOn []; let u := s.satCount (RX_DISCARD 0)
  ([{ fr 9 with fcsOk := false }, { fr 9 with length := 1523 }, { fr 9 with tags := 2 }].all (fun f =>
    shows [s.portUp 0] (exec (.arpRequest ⟨0, f⟩ ⟨false, 1⟩ 2 3) s) (fun t => t == u) && shows [] (exec (.discover ⟨0, f⟩ 5 6 [1]) s) (fun t => t == u) &&
    shows [] (exec (.gptpSync ⟨0, f⟩ (.sync ⟨1, 2⟩) 3) s) (fun t => t == u))) && shows [] (exec (.arpRequest ⟨0, { fr 9 with pause := true }⟩ ⟨false, 1⟩ 2 3) s) (fun t => t == s) := by decide
theorem test_arp_icmp : shows [net.portUp 0, net.onLink 0 0x0A000002, (net.port 0).waiting == []] (exec (.arpRequest ⟨0, (fr 0)⟩ ⟨false, 0x0A000001⟩ 0x0A000002 7) net) (fun t => (t.port 0).tx == [{ cls := .other, vlan := net.vlanTag 0 .other, frame := .arpReply 0x0A000002 7 }] && (t.port 0).arp == [(0x0A000002, 7)]) &&
  shows [] (exec (.arpRequest ⟨0, (fr 0)⟩ ⟨false, 0x0A000009⟩ 0x0A000002 7) net) (fun t => t.reg (RX_DISCARD 0) == 1) &&
  (let d : Datagram := { cls := .ponar, ip := 0x0A000002, port := 9, words := [1] }; let s := net.setPort 0 { net.port 0 with waiting := [d] }
   shows [] (exec (.arpRequest ⟨0, (fr 0)⟩ ⟨true, 0x0A000001⟩ 0x0A000002 7) s) (fun t => (t.port 0).waiting == [] && (t.port 0).tx == [{ cls := .ponar, vlan := net.vlanTag 0 .ponar, frame := .udp 0x0A000002 7 9 [1] }])) &&
  shows [] (exec (.icmpEcho ⟨0, (fr 0)⟩ 0x0A000001 0x0A000002 [1]) net) (fun t => t == net.sendFrame 0 .other (.icmpReply 0x0A000002 [1])) &&
  shows [] (exec (.icmpEcho ⟨0, { fr 0 with plainIp := false }⟩ 0x0A000001 0x0A000002 [1]) net) (fun t => t.reg (RX_DISCARD 0) == 1) := by decide
def userPort (more : List (Nat × Word)) : State := withRegs ([(PORT_CTRL 0, 0x41), (PORT_STATUS 0, 1), (USER_CFG 0, 0x0605), (IP_ADDR 0, 0x0A000001), (TX_DEST_IP 0, 0x0A000002), (IP_MASK 0, 0xFF000000)] ++ more)
theorem test_user_rx : let s := userPort [(RING_CFG 5, 0x82100401), (RING_CREDIT 5, 16), (USER_CFG 0, 0x00080605)]
  shows [s.portUp 0, s.fld (USER_CFG 0) 31 16 == 8, s.bit (PORT_CTRL 0) 6] (exec (.userDatagramRx ⟨0, (fr 8)⟩ (1 :: List.replicate 15 0)) s) (fun t => (t.ring 5).offers == [(81, .net 0 1)]) &&
  [s.ringEn 5, s.ringProd 5 == 0x21, s.ringCreditNow 5 != 0, (s.ring 5).inflight == [], ((s.serveOffer 5 (.net 0 1)).ring 5).inflight == [.entry 1]].all id &&
  shows [] (exec (.userDatagramRx ⟨0, (fr 8)⟩ [1]) s) (fun t => t.reg (RX_DISCARD 0) == 1) := by decide
theorem test_user_tx : let s := userPort [(RING_CFG 6, 0x86000401), (RING_WR 6, 1)]
  shows [s.ringCons 6 == 0x21, s.ringVisible 6 != 0, !s.resPoisoned (s.entryAt 6 0) 16, s.onLink 0 (s.reg (TX_DEST_IP 0)), s.reg (TX_DEST_IP 0) != groupIp, (s.port 0).arp == []] (exec (.userDatagramTx 0) s)
    (fun t => t.reg (RING_RD 6) == 1 && (t.port 0).tx == [{ cls := .other, vlan := none, frame := .arpRequest 0x0A000002 }] && (t.port 0).waiting.length == 1) &&
  (let s := s.setPort 0 { s.port 0 with arp := [(0x0A000002, 7)] }
   shows [] (exec (.userDatagramTx 0) s) (fun t => (t.port 0).tx == [{ cls := .user, vlan := none, frame := .udp 0x0A000002 7 0 [0, 0, 0, 0] }])) := by decide
def txf (c : TxClass) (f : Frame) : TxFrame := { cls := c, vlan := none, frame := f }
def sending (l : List TxFrame) : State := net.setPort 0 { net.port 0 with tx := l }
theorem test_port_send : let l := [txf .other (.arpRequest 5), txf .gptp .pdelayReq, txf .gptp .sync]; let s := sending l
  [nextFrame l == some (txf .gptp .pdelayReq), s.portUp 0, s.reached (s.port 0).txFree, (s.portSend 0).sent == [.frame 0 none .pdelayReq],
    ((s.portSend 0).port 0).tx == [txf .other (.arpRequest 5), txf .gptp .sync], ((s.portSend 0).port 0).txFree == 1000 + 589, ((s.portSend 0).port 0).pdelayOpen.isSome,
    (let u := s.setPort 0 { s.port 0 with txFree := 1001 }; !u.reached (u.port 0).txFree && u.portSend 0 == u), (let u := s.setReg (PORT_STATUS 0) 0; !u.portUp 0 && u.portSend 0 == u)].all id := by decide
theorem test_follow_up : [((sending [txf .gptp .sync]).portSend 0).sent == [.frame 0 none .sync], (((sending [txf .gptp .sync]).portSend 0).port 0).tx.length == 1,
  (((sending [txf .gptp (.pdelayResp 7 8)]).portSend 0).port 0).tx.length == 1].all id := by decide
theorem test_discover_send : let s := { (portOn []).setPort 0 { Port.init with linkTick := 0 } with mt := 800000000 }
  shows [s.portUp 0, (s.mt - (s.port 0).linkTick).toNat % 800000000 == 0, s.mt != (s.port 0).linkTick, (s.port 0).discSent != some s.mt] (exec (.discoverSend 0) s) (fun _ => true) := by decide
/-- The bytes of a DISCOVER with an empty identity. -/
def disc : List Byte := [0, 8, 0x30, 0x50, 32, 0] ++ List.replicate 26 0 ++ [7] ++ List.replicate 15 0
theorem test_discover : let w := (announcement 0x50300800#32 32 disc).getD []
  shows [(portOn []).portUp 0, (portOn []).fld (UDP_PORTS 0) 31 16 == 9, (announcement 0x50300800#32 32 disc).isSome, discoverOk (fun i => w.getD i 0), (portOn []).findPeer 0 5 6 == none,
    (List.range 32).find? (fun e => !(portOn []).peerUsed 0 e) == some 0] (exec (.discover ⟨0, (fr 9)⟩ 5 6 disc) (portOn [])) (fun _ => true) &&
  shows [(announcement 0x50300800#32 32 [1]).isNone] (exec (.discover ⟨0, (fr 9)⟩ 5 6 [1]) (portOn [])) (fun t => t.reg (PONAR_DISCARD 0) == 1) := by decide
/-- The clause of a new peer has a case: the sender is not the device itself. -/
theorem test_discover_other (h : macOf 0 ≠ 0) : ¬((0 : Word) = loWord ((macOf 0).zeroExtend 64) ∧ (0 : Word) = hiWord ((macOf 0).zeroExtend 64)) := by
  intro ⟨h1, h2⟩
  apply h
  simp only [loWord, hiWord] at h1 h2
  generalize macOf 0 = m at *
  have e : (m.zeroExtend 64).truncate 32 = (0 : Word) := h1.symm
  apply BitVec.eq_of_toNat_eq
  have a1 := congrArg BitVec.toNat h1
  have a2 := congrArg BitVec.toNat h2
  simp [BitVec.toNat_setWidth, BitVec.toNat_ushiftRight, Nat.shiftRight_eq_div_pow] at a1 a2 ⊢
  have := m.isLt
  omega
/-- A DISCOVER of the device with MAC address 9, whose entry 1 went by age with its session open. -/
def disc9 : List Byte := disc.set 16 9
def gone : State := portOn [(PEER_INFO 0 1, 0x40000002), (PEER_IP 0 1, 5), (PEER_UDP 0 1, 6), (PEER_ID_LO 0 1, 9)]
theorem test_peer_returns : let w := (announcement 0x50300800#32 32 disc9).getD []
  shows [gone.portUp 0, (announcement 0x50300800#32 32 disc9).isSome, discoverOk (fun i => w.getD i 0), w.getD 4 0 == 9, w.getD 5 0 == 0, gone.findPeer 0 5 6 == some 1,
    gone.peerReturns 0 1 (fun i => w.getD i 0)] (exec (.discover ⟨0, (fr 9)⟩ 5 6 disc9) gone) (fun _ => true) := by decide
def peer1 (c : Port) (more : List (Nat × Word)) : State := { (portOn ([(PEER_INFO 0 1, 0x80000002), (PEER_GONE_CNT 0, 4)] ++ more)).setPort 0 c with mt := 4000000000 }
theorem test_peer_age : let s := peer1 { Port.init with heard := [(1, 1000)] } []
  shows [(s.port 0).heard.lookup 1 == some 1000, s.reached (1000 + 2800000000)] (exec (.peerAgeExpiry 0 1) s) (fun t => !t.bit (PEER_INFO 0 1) 31 && t.reg (PEER_GONE_CNT 0) == 5 && t.bit (PORT_STATUS 0) 2) := by decide
theorem test_session_idle : let s := peer1 { Port.init with lastMsg := [(1, 1000)] } [(PEER_INFO 0 1, 0xC0000002), (SESS_CFG 0, 2)]
  shows [(s.port 0).lastMsg.lookup 1 == some 1000, s.reached (1000 + BitVec.ofNat 64 (2 * 800000000))] (exec (.sessionIdleExpiry 0 1) s)
    (fun t => !t.bit (PEER_INFO 0 1) 30 && t.fld (PEER_INFO 0 1) 3 0 == 0 && t.bit (PEER_INFO 0 1) 31) := by decide
def ptp (st : Word) (role : Word) : State := withRegs [(PORT_CTRL 0, 0x11), (PORT_STATUS 0, 1 + role * 256), (TS_CTRL, 3), (TS_STATUS, st)]
theorem test_gptp_sync : let s := ptp 2 2
  shows [s.ptpOn 0, s.portRole 0 == 2, s.slavePort == 0, s.tsState == 2] (exec (.gptpSync ⟨0, (fr 0)⟩ (.sync ⟨5, 6⟩) 7) s) (fun _ => true) &&
  shows [] (exec (.gptpSync ⟨0, (fr 0)⟩ (.sync ⟨5, 6⟩) 7) (ptp 2 1)) (fun t => t == ptp 2 1) &&
  shows [] (exec (.gptpSync ⟨0, (fr 0)⟩ (.pdelayReq 7) 0) s) (fun t => (t.port 0).tx.length == 1) &&
  shows [] (exec (.gptpSync ⟨0, (fr 0)⟩ (.pdelayResp ⟨5, 6⟩ ⟨5, 7⟩) 0) (s.setPort 0 { Port.init with linkTick := 5, pdelayOpen := some 60000 })) (fun t => (t.port 0).pdelayOpen == none) := by decide
theorem test_nt_of : ntOf 0 5 == 256 && ntOf 1 0 == 51200000000 && ntOf 0 1 == 51 && ntOf 0 3 == 154 := by decide
def aVector : PriorityVector := { priority1 := 1, clockClass := 6, accuracy := 0x20, variance := 0, priority2 := 248, identity := 9, steps := 0, source := 0x90001 }
theorem test_sync_timeout : let s := { ptp 2 2 with mt := 4000000000 }
  shows [s.reached (s.ts.lastSync + BitVec.ofNat 64 (3 * s.syncInterval))] (exec .syncTimeout s) (fun t => t.tsState == 3) := by decide
theorem test_grandmaster : shows [(ptp 0 0).mainRuns, (ptp 0 0).bit TS_CTRL 0, (ptp 0 0).ownBest] (exec .bmcaGrandmaster (ptp 0 0)) (fun _ => true) &&
  shows [!((ptp 0 0).setReg TS_CTRL 1).bit TS_CTRL 1] (exec .bmcaGrandmaster ((ptp 0 0).setReg TS_CTRL 1)) (fun t => t == (ptp 0 0).setReg TS_CTRL 1) &&
  (let s := (ptp 4 1).setPort 0 { (ptp 4 1).port 0 with annSent := some 1000, pdelaySent := some 1000 }
   shows [s.ptpOn 0, s.portRole 0 == 1, s.tsState != 0, (s.port 0).syncSent == none] (exec (.gptpSyncSend 0) s) (fun t => (t.port 0).syncSent == some 1000 && (t.port 0).tx == [txf .gptp .sync])) := by decide
theorem test_announce : let s := (ptp 0 0).setReg TS_CTRL 1
  shows [s.ptpOn 0, s.portRole 0 != 2, !s.bit TS_CTRL 1, s.pathVector 1 == none, decide (aVector.steps.toNat < 255)] (exec (.gptpAnnounce 0 (fr 0) aVector) s) (fun _ => true) := by decide
theorem test_ts_snap : shows [acc (withRegs [(NT_OFS_LO, 5)]) TS_SNAP_CTRL 1] (exec (.tsSnapTake 1) (withRegs [(NT_OFS_LO, 5)])) (fun t => t.pair TS_SNAP_MT_LO TS_SNAP_MT_HI == 1000 && t.pair TS_SNAP_NT_LO TS_SNAP_NT_HI == 64005) := by decide
def exporting (more : List (Nat × Word)) : State := { portOn ([(EXP_CTRL 0, 3), (SH_STATUS 0, 3)] ++ more) with mt := 200000 }
theorem test_export : let s := exporting []
  shows [s.bit (EXP_CTRL 0) 0, s.shState 0 != 0, s.exportLast 0 != some s.mt, ((s.mt.toNat : Int) - s.fld (EXP_PHASE 0) 17 0) % 200000 == 0, !s.tsGood] (exec (.exportSample 0) s)
    (fun t => t.reg (EXP_HELD 0) == 1 && t.ports == s.ports) &&
  shows [(exporting [(TS_STATUS, 4)]).tsGood, (exporting [(TS_STATUS, 4)]).shSrc 0 != 4, (exporting []).portUp 0, (exporting []).bit (EXP_CTRL 0) 1] (exec (.exportSample 0) (exporting [(TS_STATUS, 4)])) (fun _ => true) := by decide
/-- A SHAFT_EXPORT of FORMAT 1, SEQ 9, grandmaster 0, state TRACK, stamped 64000 with the NT of tick 1000. -/
def expBytes : List Byte := wordBytes [0x50300900, 0x00090040, 0, 0, 0x01000003, 7, 0, 0, 64000, 0, 0, 0, 0, 0, 0, 0, 0, 0, 2, 0]
def importing (more : List (Nat × Word)) : State := portOn ([(IMP_CFG 3, 1), (IMP_ID_LO 3, 7), (TS_STATUS, 2)] ++ more)
theorem test_import : let s := importing []; let w (i : Nat) : Word := (bytesWords expBytes).getD i 0
  shows [s.portUp 0, s.fld (UDP_PORTS 0) 31 16 == 9, decide (expBytes.length = 80), s.importListens 0 3 expBytes, (List.range 16).all (fun j => j == 3 || !s.importListens 0 j expBytes), s.importCheck 3 w 64000 == 0, s.importers 3 == []]
    (exec (.shaftExport ⟨0, (fr 9)⟩ expBytes) s) (fun t => t.reg (IMP_RX 3) == 1 && t.fld (IMP_STATUS 3) 15 0 == 9 && t.pair (IMP_LAST_LO 3) (IMP_LAST_HI 3) == 64000) &&
  shows [(importing [(TS_STATUS, 1)]).importCheck 3 w 64000 == 0x30] (exec (.shaftExport ⟨0, (fr 9)⟩ expBytes) (importing [(TS_STATUS, 1)])) (fun t => t.reg (IMP_REJECT 3) == 1 && t.fld (IMP_STATUS 3) 31 24 == 0x30) &&
  shows [] (exec (.shaftExport ⟨0, (fr 9)⟩ [1]) s) (fun t => t.reg (PONAR_DISCARD 0) == 1) := by decide
def coasting (flag : Word) : State := { withRegs [(SH_CTRL 0, 0x41), (SH_STATUS 0, 3), (IMP_COAST 0, 5), (IMP_STATUS 0, flag)] with mt := 4000000 }
theorem test_coast : shows [((coasting 0).importSynced ((coasting 0).shIface 0)).contains 0, (coasting 0).importLate ((coasting 0).shIface 0) ((coasting 0).impTimeout ((coasting 0).shIface 0)), (coasting 0).coastPeriods 0 != 0] (exec (.importTimeout 0) (coasting 0)) (fun _ => true) &&
  shows [(coasting 0x400000).importLate 0 ((coasting 0).impTimeout 0 + (coasting 0).coastPeriods 0)] (exec (.coastLimit 0) (coasting 0x400000)) (fun _ => true) := by decide

/-! Power, resets, the island -/
/-- Every thread HALTED. -/
def quiet (more : List (Nat × Word)) : State := withRegs ((List.range 384).map (fun i => (TH_STATUS (i / 16) (i % 16), 1)) ++ more)
def inPhase (p : Phase) : State := { win0 with power := { win0.power with phase := p } }
theorem test_power_run_doze : shows [acc win0 PWR_CTRL 1, win0.power.hibReq == none, win0.fld PWR_STATUS 2 0 == 0] (exec .pwrReqDoze win0) (fun t => t.fld PWR_STATUS 2 0 == 1) &&
  shows [acc win0 PWR_CTRL 0] (exec .pwrReqRun (withRegs [(PWR_STATUS, 1)])) (fun t => t.fld PWR_STATUS 2 0 == 0) := by decide
theorem test_nap_refused : let s := quiet [(GSTAT, 4), (CH_CTRL 0, 1), (PERIOD_ACT 0, 9)]
  shows [acc s PWR_CTRL 2, s.power.hibReq == none, s.napRefuse == 9] (exec .pwrReqNap s) (fun t => t.fld PWR_STATUS 15 8 == 9 && t.bit PWR_STATUS 3 && t.power == s.power) &&
  shows [acc s PWR_CTRL 3] (exec .pwrReqHibernate s) (fun t => t.bit PWR_STATUS 3) := by decide +kernel
theorem test_nap : shows [acc (quiet []) PWR_CTRL 2, (quiet []).power.hibReq == none, (quiet []).napRefuse == 0] (exec .pwrReqNap (quiet [])) (fun t => t.power.phase == .nap && !t.tclk && t.mt == 1000) &&
  (let s := { quiet [] with power := { win0.power with hibReq := some 900 } }
   shows [acc s PWR_CTRL 2, s.napRefuse == 0] (exec .pwrReqNap s) (fun t => t.power.phase == .nap && t.power.hibReq == none) &&
   shows [acc s PWR_CTRL 3] (exec .pwrReqHibernate s) (fun t => t == s.noteHost PWR_CTRL)) &&
  shows [acc (quiet []) PWR_CTRL 3] (exec .pwrReqHibernate (quiet [])) (fun t => t.power.hibReq == some 1000 && t.fld PWR_STATUS 2 0 == 3 && t.island.mirrorBusy.isSome) := by decide +kernel
theorem test_nap_wake : shows [] (exec (.napWakeEvent true) (inPhase .nap)) (fun t => t.power.phase == .waking) &&
  shows [(inPhase .waking).power.heldHost == [], (inPhase .waking).later == [], (inPhase .waking).hg.pairs == none] (exec .napWakeComplete (inPhase .waking)) (fun t => t.mt == 1001 && t.power.phase == .run && !t.power.bclk) := by decide +kernel
theorem test_hibernate : let s := { win0 with power := { win0.power with hibReq := some 900 } }
  shows [s.power.hibReq.isSome, s.island.mirrorBusy == none, !s.island.mirrorDue] (exec .pwrEnFall s) (fun t => t.power.phase == .hibernate && !t.power.pwrEn && t.power.hibReq == none) := by decide
def hib (more : List (Nat × Word)) : State := let s := withRegs more; { s with power := { s.power with phase := .hibernate, pwrEn := false } }
theorem test_hib_ends : shows [!(hib []).power.pwrEn] (exec .hibAbort (hib [])) (fun t => t.power.phase == .por && t.power.pwrEn && t.power.cause == 7) &&
  shows [(hib [(HIB_CFG, 1)]).bit HIB_CFG 0] (exec .wakeNRequest (hib [(HIB_CFG, 1)])) (fun t => t.power.phase == .por && t.power.cause == 6 && !t.power.rails) := by decide
theorem test_gate : let s := (quiet [(CG_CFG, 0x80000000)]).setEngine 1 { Engine.init with gateSince := some 984 }
  shows [!s.gated 1, s.reached (984 + 16)] (exec (.clusterGate 1) s) (fun t => t.gated 1 && (t.engine 1).gateSince == none) := by decide +kernel
theorem test_gating_tick : let s := quiet [(CG_CFG, 0x80000000)]; let u := s.setEngine 1 { Engine.init with gateSince := some 990 }; let v := u.setReg CG_CFG 0
  [s.gatingHolds 1, !s.gated 1, (s.engine 1).gateSince == none, ((s.gatingTick 1).engine 1).gateSince == some 1000, !u.reached (990 + 16), u.gatingHolds 1,
    ((u.gatingTick 1).engine 1).gateSince == some 990, !v.gatingHolds 1, ((v.gatingTick 1).engine 1).gateSince == none].all id := by decide +kernel
theorem test_gate_wake : let s := (withRegs [(CG_MAP, 2)]).setEngine 1 { Engine.init with heldReads := [0x1106000] }
  shows [s.gated 1, s.wakeDemand 1, (s.engine 1).wakeEnd == none] (exec (.clusterWakeBegin 1) s) (fun t => (t.engine 1).wakeEnd == some 1160) &&
  (let s := (withRegs [(CG_MAP, 2)]).setEngine 1 { Engine.init with wakeEnd := some 1000 }
   shows [s.gated 1, s.reached 1000, (s.engine 1).heldReads == []] (exec (.clusterWakeEnd 1) s) (fun t => !t.gated 1 && (t.engine 1).wakeEnd == none)) := by decide +kernel
theorem test_rst_cl_refused : shows [acc (withRegs [(UC_LOAD_STATUS, 0x80000001)]) RST_CL 2, (withRegs [(UC_LOAD_STATUS, 0x80000001)]).bit UC_LOAD_STATUS 31] (exec (.rstCl 2) (withRegs [(UC_LOAD_STATUS, 0x80000001)])) (fun t => t.bit RST_STATUS 8) &&
  shows [acc win0 RST_CL 2, !win0.bit UC_LOAD_STATUS 31] (exec (.rstCl 2) win0) (fun _ => true) := by decide
theorem test_cluster_reset_end : let s := win0.setEngine 1 { Engine.init with resetEnd := some 1000 }
  shows [(s.engine 1).resetEnd == some 1000, s.reached 1000] (exec (.clusterResetEnd 1) s) (fun t => (t.engine 1).resetEnd == none) := by decide
theorem test_por : let s := { withRegs [(RING_CFG 0, 5), (0xB8000, 7), (TRIP_RAW, 3)] with reservoir := [(5, 6)], localRam := [(7, 8)] }
  shows [s.power.phase == .run, survival 0xB8000 == .island, survival (RING_CFG 0) == .cleared] (exec .porAssert s)
    (fun t => t.power.phase == .por && t.power.cause == 1 && !t.power.rails && t.reservoir == [] && t.localRam == [] && t.reg (RING_CFG 0) == 0xFFF00000 && t.reg 0xB8000 == 7 && t.reg TRIP_RAW == 3) := by decide
theorem test_por_release : shows [(inPhase .por).power.pwrEn] (exec .porRelease (inPhase .por)) (fun t => t.power.rails) := by decide
theorem test_pin_reset : let s := { win0 with reservoir := [(5, 6)], ustore := [(1, 2)] }
  shows [] (exec (.resetN true 1000) s) (fun t => t.power.phase == .pinReset && t.power.resetLow && t.power.cause == 2 && t.reservoir == [(5, 6)] && t.ustore == []) &&
  shows [] (exec (.resetN true 199) s) (fun t => t == s) && shows [] (exec (.resetN false 0) s) (fun t => !t.power.resetLow) &&
  shows [] (exec (.clkFail false) s) (fun t => t.power.phase == .pinReset && t.power.cause == 3) := by decide
theorem test_end_of_reset : shows [(inPhase .por).power.rails, (inPhase .por).power.pwrEn, !(inPhase .por).power.resetLow] (exec (.endOfReset 2) (inPhase .por))
  (fun _ => true) && shows [(inPhase .pinReset).power.phase == .pinReset, !(inPhase .pinReset).power.resetLow] (exec (.endOfReset 1) (inPhase .pinReset)) (fun _ => true) := by decide
theorem test_soft_reset_start : let s := { win0 with hg := { win0.hg with resetAfter := true, resetDue := true } }
  shows [s.hg.resetDue] (exec .softResetStart s) (fun _ => true) := by decide
theorem test_soft_reset_end : shows [(inPhase .soft).hg.nvmOps == [], (inPhase .soft).island.mirrorBusy == none, Table.wf (fun _ => Chan.init) (inPhase .soft).chans] (exec .softResetEnd (inPhase .soft)) (fun _ => true) := by decide
theorem test_lfclk : shows [(withRegs [(CLK_STATUS, 7), (CALN_CAL_STATUS, 1)]).lfOk] (exec .lfclkLoss (withRegs [(CLK_STATUS, 7), (CALN_CAL_STATUS, 1)])) (fun t => !t.lfOk && !t.bit CALN_CAL_STATUS 0) &&
  shows [!(withRegs [(CLK_STATUS, 3)]).lfOk] (exec .calendarStep (withRegs [(CLK_STATUS, 3)])) (fun t => t == withRegs [(CLK_STATUS, 3)]) &&
  shows [] (exec .lfclkReturn (withRegs [(CLK_STATUS, 3)])) (fun t => t.lfOk) := by decide
def island1 (f : Island → Island) (more : List (Nat × Word)) : State := let s := withRegs ([(CLK_STATUS, 7)] ++ more); { s with island := f s.island }
theorem test_vbat : shows [] (exec .vbatPor (island1 (fun i => { i with calendar := 9, wear := [(1, 5)] }) [(0xB8000, 7), (RING_CFG 0, 5)]))
  (fun t => t.island.calendar == 0 && t.wear 1 == 0 && t.island.restoreDue && t.reg 0xB8000 == 0 && t.reg (RING_CFG 0) == 5) := by decide
def aMirror : MirrorRec := { counts := [(1, 5)], cfgs := [(2, 0x80000000)], period := 700, calendar := 99, calValid := true, alarmLo := 1, alarmHi := 2, epoch := 6, lost := 3 }
theorem test_restore : let s := island1 (fun i => { i with restoreDue := true }) [(WEAR_CFG 1, 0x80000003)]
  shows [s.island.restoreDue, s.power.rails] (exec .islandRestore { s with nvm := { s.nvm with mirror := some aMirror } })
    (fun t => t.wear 1 == 5 && t.island.calendar == 99 && t.reg LOST_EPOCHS == 4 && t.reg MIR_EPOCH == 6 && t.bit MIR_STATUS 0 && t.reg (WEAR_CFG 2) == 0x80000000 && t.reg (WEAR_CFG 1) == 0) &&
  shows [s.nvm.mirror == none] (exec .islandRestore s) (fun t => t.bit MIR_STATUS 1) := by decide
theorem test_calendar : shows [(island1 id []).lfOk] (exec .calendarStep (island1 (fun i => { i with calendar := 0x7FFFFFFFFFFFFFFF }) [])) (fun t => t.island.calendar == 0) &&
  shows [] (exec .calendarStep (island1 (fun i => { i with setReq := true }) [(CAL_SET_LO, 77)])) (fun t => t.island.calendar == 77 && t.bit CALN_CAL_STATUS 0 && !t.island.setReq) := by decide
theorem test_cal_set : shows [acc win0 CALN_CAL_CTRL 1, !win0.bit CAL_SET_HI 31] (exec (.calSet 1) (withRegs [(CAL_SET_LO, 5), (CAL_SET_HI, 6)])) (fun t => t.island.setReq) &&
  shows [] (exec (.calSet 1) (withRegs [(CAL_SET_HI, 0x80000000)])) (fun t => t.bit CALN_CAL_STATUS 3 && !t.island.setReq) &&
  shows [] (exec .calLoRead (island1 (fun i => { i with calendar := 0x900000005 }) [])) (fun t => t.hostData == [5] && t.reg CAL_HI == 9) := by decide
theorem test_wear : let s := island1 (fun i => { i with wear := [(3, 0xFFFFFFFFFFFE)], owed := [(3, [990, 991])] }) [(WEAR_ADD_VAL, 5)]
  shows [s.island.owed.get (fun _ => []) 3 == [990, 991]] (exec (.wearEvent 3) s) (fun t => t.wear 3 == 0xFFFFFFFFFFFF && t.island.owed == [(3, [991])]) &&
  shows [acc s WEAR_OP 0x104, s.wearSrc 4 == 0] (exec (.wearAdd 0x104) s) (fun t => t.wear 4 == 5) &&
  shows [acc s WEAR_OP 0x203] (exec (.wearClr 0x203) s) (fun t => t.wear 3 == 0) &&
  shows [(s.setReg (WEAR_CFG 3) 0x80000000).bit (WEAR_CFG 3) 31] (exec (.wearClr 0x203) (s.setReg (WEAR_CFG 3) 0x80000000)) (fun t => t.wear 3 == 0xFFFFFFFFFFFE && t.bit WEAR_STATUS 0) &&
  shows [] (exec (.wearLoRead 3) s) (fun t => t.hostData == [0xFFFFFFFE] && t.reg (WEAR_HI 3) == 0xFFFF) := by decide
theorem test_wear_take : let s := island1 (fun i => { i with wear := [(3, 0x200000001)], calendar := 8 }) []
  shows [acc s WEAR_TAKE 1] (exec (.wearTake 1) s) (fun t => t.takes == [.wear] && (let t := t.runTakes; t.pair (WSNAP_LO 3) (WSNAP_HI 3) == 0x200000001 && t.pair WSNAP_CAL_LO WSNAP_CAL_HI == 8 && t.fld WEAR_SNAP_SEQ 15 0 == 1 && t.takes == [])) := by decide
theorem test_mirror : let s := island1 (fun i => { i with calendar := 0x80000000 }) []; let b := island1 (fun i => { i with mirrorBusy := some aMirror }) [(MIR_STATUS, 0x80000000)]
  shows [decide (s.mirrorPeriod * 32768 ≤ (s.island.calendar - s.island.lastMirror).toNat)] (exec .mirrorDue s) (fun t => t.island.mirrorBusy == some s.mirrorRecord && t.bit MIR_STATUS 31) &&
  shows [] (exec .mirrorDue { s with power := { s.power with phase := .nap } }) (fun t => t.island.mirrorDue && t.island.mirrorBusy == none) &&
  shows [acc s MIR_CTRL 1] (exec (.mirNow 1) s) (fun t => t.island.mirrorBusy.isSome) &&
  shows [!b.island.mirrorDue] (exec (.mirrorComplete true) b) (fun t => t.nvm.mirror == some aMirror && t.reg MIR_EPOCH == 1 && !t.bit MIR_STATUS 31) &&
  shows [] (exec (.mirrorComplete false) b) (fun t => t.nvm.mirror == none && t.reg MIR_FAIL_CNT == 1) := by decide
theorem test_trim_temp : shows [!win0.padBusy 5] (exec (.trimTakeEffect 5) (win0.setPin 5 { PinState.init with trimOutDue := some (999, 7), trimInDue := some (1000, 7) }))
    (fun t => (t.pin 5).trimOutDue == none && (t.pin 5).trimInDue == some (1000, 7)) &&
  (let s := (win0.setPin 5 { PinState.init with sel := 3, trimOutDue := some (999, 7) }).setChan 3 { Chan.init with edges := [edgeAt 64100 true] }
   shows [s.padBusy 5] (exec (.trimTakeEffect 5) s) (fun t => t == s)) &&
  shows [] (exec (.tempUpdate 0xFFF0) win0) (fun t => t.reg TEMP == 0xFFFFFFF0) := by decide
/-! The queue and the invariants -/
theorem test_queue : let s := { win0 with pending := [.mtLoRead, .qspiId] }
  shows [] (step s) (fun t => t.pending == [.qspiId] && t.hostData == [1000]) && shows [] (step win0) (fun t => t.mt == 1001) := by decide
theorem test_sealed_stays : shows [(sealed1 win0).nvm.sealed] (exec (.wdogKick 1) (sealed1 win0)) (fun t => t.nvm.sealed) := by decide
theorem reset_canonical : State.reset.canonical := by unfold Machine.State.canonical; decide
theorem reset_ringsAccounted : State.reset.ringsAccounted := fun _ => rfl

/-! Links between the Bool forms of this file and the model's hypotheses -/
theorem acc_accepts (s : State) (a : Nat) (v : Word) (h : acc s a v = true) : s.accepts a v := by
  simp only [acc, Bool.and_eq_true, Bool.not_eq_true', beq_iff_eq] at h
  exact ⟨⟨h.1.1.1.1.1, h.1.1.1.1.2⟩, h.1.1.1.2, h.1.1.2, h.1.2, h.2⟩
theorem shows_next {hyps : List Bool} {o : Host.Outcome State Fault Refusal} {f : State → Bool} (h : shows hyps o f = true) :
    (∀ b ∈ hyps, b = true) ∧ ∃ t, o = .next t ∧ f t = true := by
  unfold shows at h
  rw [Bool.and_eq_true] at h
  refine ⟨by simpa using h.1, ?_⟩
  revert h
  cases o with
  | next t => exact fun h => ⟨t, rfl, h.2⟩
  | fault _ => exact fun h => absurd h.2 (by simp)
  | refused _ => exact fun h => absurd h.2 (by simp)
theorem reset_serves : State.reset.serves ∧ State.reset.clocked := ⟨⟨rfl, rfl⟩, rfl⟩
/-! Ill-formed operands: a term that each check refuses, beside one that it takes -/
theorem test_wf_windows : Instr.wf (.registerWrite 0x40001 0) = false ∧ Instr.wf (.registerWrite 0x4000000 0) = false ∧ Instr.wf (.registerWrite 0x40000 0) = true ∧
    Instr.wf (.rcRead 2) = false ∧ Instr.wf (.pcieMemoryRequest true 0 []) = false ∧ Instr.wf (.pcieMemoryRequest true 0x3FFFFFC [(0xF, 0), (0xF, 0)]) = false ∧
    Instr.wf (.windowBRead 0 3) = false ∧ Instr.wf (.windowBRead 2 4) = false ∧ Instr.wf (.windowBWrite 0x1000000 1 0) = false := by decide
theorem test_wf_qspi : Instr.wf (.qspiRead 0 0x100000000 1 false) = false ∧ Instr.wf (.qspiQread 0x100000000 1 false) = false ∧
    Instr.wf (.qspiWrite 0x100000000 [] false) = false ∧ Instr.wf (.qspiQwrite 0x100000000 [] false) = false ∧ Instr.wf (.qspiQread 0xFFFFFFFF 1 false) = true := by decide
theorem test_wf_blocks : Instr.wf (.pinSelWrite 0x50000 0) = false ∧ Instr.wf (.mitCfgWrite 0x60000 0) = false ∧ Instr.wf (.feedbackCfgWrite 0x80002 0) = false ∧
    Instr.wf (.irqSelectWrite 3 0) = false ∧ Instr.wf (.shCtrlWrite 0 0x1000 0) = false ∧ Instr.wf (.thContextWrite 0 0 0x100 0) = false ∧
    Instr.wf (.portCtrlWrite 0 0x400 0) = false ∧ Instr.wf (.pinSelWrite 0x60000 0) = true := by decide
theorem test_wf_lengths : let b : List Byte := List.replicate 1473 0
    Instr.wf (.ponarUdpDatagram ⟨0, (fr 0)⟩ 0 0 b) = false ∧ Instr.wf (.icmpEcho ⟨0, (fr 0)⟩ 0 0 b) = false ∧ Instr.wf (.discover ⟨0, (fr 0)⟩ 0 0 b) = false ∧
    Instr.wf (.userDatagramRx ⟨0, (fr 0)⟩ b) = false ∧ Instr.wf (.shaftExport ⟨0, (fr 0)⟩ b) = false := by decide
theorem test_wf_sync : Instr.wf (.gptpSync ⟨0, (fr 0)⟩ (.sync ⟨0, 1000000000⟩) 0) = false ∧ Instr.wf (.gptpSync ⟨0, (fr 0)⟩ (.pdelayResp ⟨0, 5⟩ ⟨0, 1000000000⟩) 0) = false ∧ Instr.wf (.gptpSync ⟨0, (fr 0)⟩ (.sync ⟨0, 999999999⟩) 0) = true := by decide
theorem test_wf_flash (image : List Byte) (h : image.length = 2 ^ 24 + 1) : Instr.wf (.flashLoad image) = false := by
  rw [show Instr.wf (.flashLoad image) = decide (image.length ≤ 2 ^ 24) from rfl, h]; decide

end Sys2Proof.Tests
end

section
/-!
PROOFS. Plain writes by access codes, and the accesses of Window A (R7, R9, R24, R28, R264, R352, R407): what a 32-bit write and a 32-bit
read of the host do, then the statements about them.
-/

namespace Sys2Proof.Machine

open Reg

/-! ### Writes by access codes (R7) -/

theorem State.plainWrite_eq_setReg (s : State) {a : Nat} (v : Word) {r : RegRow} (h : regRow a = some r) :
    s.plainWrite a v =
      s.setReg a (mergeWord (s.reg a) v (BitVec.ofNat 32 r.rw) &&& ~~~ (v &&& BitVec.ofNat 32 r.w1c &&& ~~~ s.keptBits a)) := by
  simp only [State.plainWrite, h]

/-- Bit `i` after a write by access codes: its RW and W1C bits decide. -/
theorem getLsbD_reg_plainWrite (s : State) {a : Nat} (v : Word) {r : RegRow} (h : regRow a = some r) {i : Nat} (hi : i < 32) :
    ((s.plainWrite a v).reg a).getLsbD i =
      ((if r.rw.testBit i then v.getLsbD i else (s.reg a).getLsbD i) && !(r.w1c.testBit i && v.getLsbD i && !(s.keptBits a).getLsbD i)) := by
  rw [s.plainWrite_eq_setReg v h, State.reg_setReg_self]
  simp only [BitVec.getLsbD_and, BitVec.getLsbD_not, getLsbD_mergeWord, BitVec.getLsbD_ofNat, hi, decide_true, Bool.true_and,
    Bool.and_comm (v.getLsbD i)]

/-! ### Addresses of Window A that have no register (R24) -/

/-- No block lies in Window A from 0x0D_0000 to the cluster blocks. -/
theorem regRow_eq_none_of_no_block {a : Nat} (h : a < 0x1000000) (hb : 13 ≤ a / 0x10000) : regRow a = none := by
  have hrows : rowsAt a = [] := by
    obtain ⟨k, hk⟩ := Nat.exists_eq_add_of_le' hb
    rw [rowsAt, if_pos h, hk]
    rfl
  rw [regRow, hrows, List.find?_nil]

theorem State.viewWord_eq_none (s : State) {a : Nat} (h : a < 0x1000000) (hv : a < 0xB4000 ∨ 0xB9000 ≤ a) : s.viewWord a = none := by
  rw [State.viewWord, if_neg (by omega), if_neg (by omega), if_neg (by omega)]

theorem State.busView_unassigned (s : State) {a : Nat} (hv : s.viewWord a = none) (hr : regRow a = none) : s.busView a = 0 := by
  simp [State.busView, hv, hr]

/-- A read of an address with no register and no view returns 0 and leaves nothing behind (R9). -/
theorem State.busRead_unassigned (s : State) {a : Nat} (hv : ∀ u : State, u.viewWord a = none) (hr : regRow a = none) :
    s.busRead a = (0, s) := by
  have hm : a ≠ MT_LO := by rintro rfl; exact absurd hr (by decide)
  have hc : a ≠ CAL_LO := by rintro rfl; exact absurd hr (by decide)
  simp [State.busRead, hm, hc, hr, State.busView_unassigned _ (hv _) hr]

/-- A write to an address with no register and no view is ignored (R9). -/
theorem State.busWrite_unassigned (s : State) {a : Nat} (v : Word) (h : a < 0x1000000) (hv : a < 0xB8000 ∨ 0xB9000 ≤ a)
    (hr : regRow a = none) : s.busWrite a v = s := by
  rw [State.busWrite]
  split
  · rfl
  · rw [if_neg (by omega), if_neg (fun hc => absurd hc.1 (by omega)), hr]; rfl

/-! ### What a write and a read meet -/

theorem State.sealLocks_unassigned (s : State) {a : Nat} (v : Word) (hr : regRow a = none) : s.sealLocks a v = false := by
  simp [State.sealLocks, hr]

/-- Gating stops parts of the cluster blocks alone (R352). -/
theorem State.meetsGate_below_clusters (s : State) {a : Nat} (h : a < 0x1000000) : s.meetsGate a = false := by
  simp [State.meetsGate, h]

theorem inStopped_below_clusters (n : Nat) {a : Nat} (h : a < 0x1000000) : inStopped n a = false := by
  simp [inStopped, h]

/-! ### A read of a cluster's stopped part breaks its gating condition (R351) -/

theorem State.breakGate_eq (s : State) (n : Nat) : s.breakGate n = { s with engines := (s.breakGate n).engines } := by
  unfold State.breakGate
  split
  · split <;> rfl
  · rfl

/-- The end of a gating condition leaves the pages of local RAM in their place. -/
theorem State.bank_breakGate (s : State) (n m : Nat) : ((s.breakGate n).engine m).bank = (s.engine m).bank := by
  unfold State.breakGate
  split
  · split
    · rfl
    · by_cases h : m = n
      · subst h; rw [State.engine_setEngine_self]
      · rw [State.engine_setEngine_ne _ _ h]
  · rfl

@[simp] theorem State.breakGate_hostData (s : State) (n : Nat) : (s.breakGate n).hostData = s.hostData := by
  rw [s.breakGate_eq]

theorem State.cycleStart_of_no_start {s : State} (h : s.start = none) : s.cycleStart = s := by
  simp only [State.cycleStart, h]

/-- What is shown of `a` is the present state, before and after, or it is as it stood at the start of the BCLK cycle. -/
theorem State.seen_breakGate (s : State) (n a : Nat) :
    (s.breakGate n).seen a = s.seen a ∨ ((s.breakGate n).seen a = s.breakGate n ∧ s.seen a = s) := by
  have ht : (s.breakGate n).touched = s.touched := by rw [s.breakGate_eq]
  have hst : (s.breakGate n).start = s.start := by rw [s.breakGate_eq]
  by_cases h : s.touched.contains a = true
  · exact .inr ⟨if_pos (ht ▸ h), if_pos h⟩
  · rw [State.seen, State.seen, ht, if_neg h, if_neg h]
    cases hq : s.start with
    | none => exact .inr ⟨State.cycleStart_of_no_start (hst.trans hq), State.cycleStart_of_no_start hq⟩
    | some q => left; rw [s.breakGate_eq]; simp only [State.cycleStart, hq]

/-- A word of local RAM depends on which page is in front, and on nothing else of the engines. -/
theorem State.ramWord_breakGate (s : State) (n m x : Nat) : (s.breakGate n).ramWord m x = s.ramWord m x := by
  have hk : (s.breakGate n).ramKey m x = s.ramKey m x := by simp only [State.ramKey, State.bank_breakGate]
  simp only [State.ramWord, State.ramRead, hk]
  rw [s.breakGate_eq]

theorem State.reg_breakGate (s : State) (n a : Nat) : (s.breakGate n).reg a = s.reg a := by
  rw [s.breakGate_eq]; rfl

theorem State.viewWord_breakGate (s : State) (n a : Nat) : (s.breakGate n).viewWord a = s.viewWord a := by
  have hu : (s.breakGate n).ucodeValid = s.ucodeValid := by rw [s.breakGate_eq]; rfl
  have hm : ∀ x, (s.breakGate n).microword x = s.microword x := fun x => by rw [s.breakGate_eq]; rfl
  simp only [State.viewWord, State.reg_breakGate, State.ramWord_breakGate, hu, hm]

/-- The registers of a cluster's engine and threads read as before. -/
theorem State.clusterView_breakGate (s : State) (n m : Nat) {off : Nat} (h : 0x5000 ≤ off) :
    (s.breakGate n).clusterView m off = s.clusterView m off := by
  have ht : ∀ st, (s.breakGate n).threadMap m st = s.threadMap m st := fun st => by rw [s.breakGate_eq]; rfl
  unfold State.clusterView
  split
  · omega
  · omega
  · omega
  · exact ht _
  · exact ht _
  · exact ht _
  · exact s.reg_breakGate _ _

theorem State.busView_breakGate (s : State) (n : Nat) {a : Nat} (ha : 0x1000000 ≤ a) (h : 0x5000 ≤ clusterOff a) :
    (s.breakGate n).busView a = s.busView a := by
  have hoff : ¬ clusterOff a < 0x4000 := by omega
  simp only [State.busView, State.viewWord_breakGate, if_neg (Nat.not_lt.mpr ha), if_neg hoff, s.clusterView_breakGate n _ h]

/-- The word that a read of a cluster's stopped part returns. -/
theorem State.busRead_stopped_fst (s : State) {a : Nat} (ha : 0x1000000 ≤ a) (h : 0x5000 ≤ clusterOff a) :
    (s.busRead a).1 = if a % 4 ≠ 0 then 0 else (s.seen a).busView a := by
  have hm : a ≠ MT_LO := by rintro rfl; exact absurd ha (by decide)
  have hc : a ≠ CAL_LO := by rintro rfl; exact absurd ha (by decide)
  have hoff : ¬ clusterOff a < 0x4000 := by omega
  simp only [State.busRead, if_neg hm, if_neg hc, if_pos ha, if_neg hoff]
  split
  · rfl
  · split <;> rfl

/-- The break of the gating condition shows in no word that a read of the stopped part returns. -/
theorem State.busRead_breakGate_fst (s : State) {n a : Nat} (hs : inStopped n a = true) : ((s.breakGate n).busRead a).1 = (s.busRead a).1 := by
  obtain ⟨⟨⟨ha, -⟩, hoff⟩, -⟩ : ((0x1000000 ≤ a ∧ clusterOf a = n) ∧ 0x5000 ≤ clusterOff a) ∧ clusterOff a < 0x20000 := by
    simpa [inStopped] using hs
  have hview : ((s.breakGate n).seen a).busView a = (s.seen a).busView a := by
    rcases s.seen_breakGate n a with h | ⟨h, h'⟩
    · rw [h]
    · rw [h, h', s.busView_breakGate n ha hoff]
  rw [State.busRead_stopped_fst _ ha hoff, State.busRead_stopped_fst _ ha hoff, hview]

/-! ### What a read leaves in the words already returned -/

@[simp] theorem State.touchChanged_hostData (s t : State) : (s.touchChanged t).hostData = t.hostData := rfl

@[simp] theorem State.rcClear_hostData (s : State) (a : Nat) : (s.rcClear a).hostData = s.hostData := by
  unfold State.rcClear; split <;> rfl

theorem State.countRead_hostData (s : State) (k : Nat) : (s.countRead k).2.hostData = s.hostData := by
  simp only [State.countRead]
  repeat' split
  all_goals rfl

theorem State.ptEmitRead_snd (s : State) (k : Nat) :
    (s.ptEmitRead k).2 = (s.setReg (PT_SKIP k) ((s.seen (PT_EMIT k)).chan k).ptSkip).setReg (PT_REMAIN k) ((s.seen (PT_EMIT k)).chan k).ptRemain :=
  rfl

theorem State.ptEmitRead_hostData (s : State) (k : Nat) : (s.ptEmitRead k).2.hostData = s.hostData := by
  rw [State.ptEmitRead_snd, State.setReg_hostData, State.setReg_hostData]

theorem State.capRiseLoRead_hostData (s : State) (k : Nat) : (s.capRiseLoRead k).2.hostData = s.hostData := by
  unfold State.capRiseLoRead
  extract_lets q c s1 s2 s3 s4 s5
  have h4 : s4.hostData = s.hostData := by
    rw [State.setReg_hostData, State.setPair_hostData, State.setPair_hostData, State.setReg_hostData]
  have h5 : s5.hostData = s4.hostData := by
    unfold s5
    split
    · rw [State.setBit_hostData]
    · rfl
  rw [State.setChan_hostData, h5, h4]

theorem State.chanReadEffect_hostData (s : State) (k off : Nat) : (s.chanReadEffect k off).hostData = s.hostData := by
  unfold State.chanReadEffect
  split
  · exact s.countRead_hostData k
  · exact s.ptEmitRead_hostData k
  · exact s.capRiseLoRead_hostData k
  · exact s.rcClear_hostData _

/-- What one step of a fold leaves as it was, the fold leaves as it was. -/
theorem State.foldl_hostData {α : Type} {f : State → α → State} (hf : ∀ s x, (f s x).hostData = s.hostData) (l : List α) (s : State) :
    (l.foldl f s).hostData = s.hostData := by
  induction l generalizing s with
  | nil => rfl
  | cons x l ih => rw [List.foldl_cons, ih, hf]

theorem State.undoHw_hostData (s : State) (a : Nat) (p : Tick → Bool) : (s.undoHw a p).hostData = s.hostData := rfl

theorem State.accForget_hostData (s : State) (k : Nat) (p : Tick → Bool) (hits : List AccHit) :
    (s.accForget k p hits).hostData = s.hostData := by
  unfold State.accForget
  rw [State.foldl_hostData, State.undoHw_hostData, State.undoHw_hostData]
  intro u h
  repeat' split
  all_goals rfl

theorem State.accAdd_hostData (s : State) (k r : Nat) (alone : Bool) : (s.accAdd k r alone).2.hostData = s.hostData := by
  unfold State.accAdd
  extract_lets
  split
  · rw [State.deliver_hostData, State.setBit_hostData, State.setAccum_hostData]
  · dsimp only
    split
    · rw [State.deliver_hostData, State.satCount_hostData, State.raise_hostData, State.setAccum_hostData]
    · rw [State.setAccum_hostData]

theorem State.adcSpill_hostData (s : State) (which : Nat) : (s.adcSpill which).hostData = s.hostData := by
  unfold State.adcSpill
  rw [State.deliver_hostData]

theorem State.accSink_hostData (s : State) (k r : Nat) (alone : Bool) : (s.accSink k r alone).hostData = s.hostData := by
  rw [← s.accAdd_hostData k r alone, State.accSink]
  split
  · exact State.adcSpill_hostData _ _
  · rfl

theorem State.accClear_hostData (s : State) (k : Nat) (p : Tick → Bool) : (s.accClear k p).hostData = s.hostData := by
  unfold State.accClear
  extract_lets hits v s1 s2 s3
  have h1 : s1.hostData = s.hostData := by
    unfold s1
    split
    · rfl
    · exact s.accForget_hostData k p hits
  have h3 : s3.hostData = s2.hostData := State.foldl_hostData (fun u _ => u.accSink_hostData k _ _) hits s2
  rw [State.setAccum_hostData, h3, State.setBit_hostData, State.setAccum_hostData, h1]

theorem State.accRead_hostData (s : State) (k : Nat) (clear : Bool) : (s.accRead k clear).2.hostData = s.hostData := by
  unfold State.accRead
  cases clear
  · exact s.setReg_hostData (ACC_RD_HI k) (accHigh (s.accSeen k s.inCycle))
  · exact (State.accClear_hostData _ _ _).trans (s.setReg_hostData (ACC_RD_HI k) (accHigh (s.accSeen k s.inCycle)))

theorem State.mmReset_hostData (s : State) (k : Nat) (p : Tick → Bool) : (s.mmReset k p).2.hostData = s.hostData :=
  s.setReg_hostData (MM_RD k) ((s.mmWindow k p).foldl (fun w (h : MmHit) => mmWith w h.r) 0x0000FFFF#32)

theorem State.posRead_hostData (s : State) (f : Nat) : (s.posRead f).2.hostData = s.hostData := by
  unfold State.posRead
  extract_lets q c st s1 s2 s3
  rw [State.setReg_hostData, State.setPair_hostData, State.setPair_hostData, State.setReg_hostData]

theorem State.prbStampRead_hostData (s : State) (p : Nat) : (s.prbStampRead p).2.hostData = s.hostData := by
  unfold State.prbStampRead
  extract_lets q c s1 s2 s3
  have h3 : s3.hostData = s.hostData := by
    rw [State.setReg_hostData, State.setPair_hostData, State.setReg_hostData]
  dsimp only
  split
  · rw [State.setProbe_hostData, State.setBit_hostData, h3]
  · exact h3

theorem State.wearRead_hostData (s : State) (w : Nat) : (s.wearRead w).2.hostData = s.hostData := s.setReg_hostData (WEAR_HI w) _

theorem State.mtLoRead_hostData (s : State) : s.mtLoRead.2.hostData = s.hostData := s.setReg_hostData MT_HI _

theorem State.calRead_hostData (s : State) : s.calRead.2.hostData = s.hostData := s.setReg_hostData CAL_HI _

/-- A read latches shadows and clears counts, and leaves the words that the request has returned. -/
theorem State.busRead_hostData (s : State) (a : Nat) : (s.busRead a).2.hostData = s.hostData := by
  unfold State.busRead
  extract_lets w off
  repeat' split
  · rfl
  · exact s.mtLoRead_hostData
  · exact s.calRead_hostData
  · rfl
  · with_reducible exact s.chanReadEffect_hostData _ _
  · exact s.rcClear_hostData a
  · exact s.accRead_hostData _ _
  · exact s.mmReset_hostData _ _
  · exact s.posRead_hostData _
  · exact s.prbStampRead_hostData _
  · exact s.wearRead_hostData _
  · exact s.rcClear_hostData a

/-! ### A 32-bit access of the host -/

/-- The state that a host read of `a` meets: the gating condition of a cluster whose stopped part it reads is broken (R351). -/
def State.readFrom (s : State) (a : Nat) : State := if inStopped (clusterOf a) a then s.breakGate (clusterOf a) else s

/-- A read that is served adds its word to those of the request. -/
theorem State.readA_serves (s : State) {a : Nat} (h : s.serves) (hg : s.meetsGate a = false) :
    s.readA a = { ((s.readFrom a).readReg a).2 with
      hostData := ((s.readFrom a).readReg a).2.hostData ++ [((s.readFrom a).readReg a).1] } := by
  obtain ⟨hp, hb⟩ := h
  simp [State.readA, hp, hb, hg, State.readFrom]

theorem State.readFrom_below_clusters (s : State) {a : Nat} (h : a < 0x1000000) : s.readFrom a = s := by
  simp [State.readFrom, inStopped_below_clusters _ h]

theorem State.readFrom_hostData (s : State) (a : Nat) : (s.readFrom a).hostData = s.hostData := by
  unfold State.readFrom
  split
  · exact s.breakGate_hostData _
  · rfl

theorem State.busRead_readFrom_fst (s : State) (a : Nat) : ((s.readFrom a).busRead a).1 = (s.busRead a).1 := by
  unfold State.readFrom
  split
  · exact s.busRead_breakGate_fst ‹_›
  · rfl

/-- The words of the request after a read that is served. -/
theorem State.readA_hostData (s : State) {a : Nat} (h : s.serves) (hg : s.meetsGate a = false) :
    (s.readA a).hostData = s.hostData ++ [(s.busRead a).1] := by
  simp only [s.readA_serves h hg, State.readReg, State.touchChanged_hostData, State.busRead_hostData, State.readFrom_hostData,
    State.busRead_readFrom_fst]

/-- A read of the blocks below the clusters. -/
theorem State.readA_below_clusters (s : State) {a : Nat} (h : s.serves) (ha : a < 0x1000000) :
    s.readA a = { s.touchChanged (s.busRead a).2 with hostData := s.hostData ++ [(s.busRead a).1] } := by
  rw [s.readA_serves h (s.meetsGate_below_clusters ha), s.readFrom_below_clusters ha]
  simp only [State.readReg, State.touchChanged_hostData, State.busRead_hostData]

/-- A read that changes no register adds none to those that a host read has changed. -/
theorem State.touchChanged_self (s : State) : s.touchChanged s = s := by
  simp [State.touchChanged]

/-- REGISTER_WRITE is a write under the rule of the register. -/
theorem exec_registerWrite (s : State) (a : Nat) (v : Word) :
    exec (.registerWrite a v) s = .next (s.hostWrite a v fun t => t.busWrite a v) := rfl

theorem exec_rcRead (s : State) (a : Nat) : exec (.rcRead a) s = .next ((s.returning []).readA a) := rfl

theorem exec_mtLoRead (s : State) : exec .mtLoRead s = .next (s.hostRead State.mtLoRead) := rfl

@[simp] theorem State.reg_returning (s : State) (ws : List Word) (a : Nat) : (s.returning ws).reg a = s.reg a := rfl

@[simp] theorem State.reg_touchChanged (s t : State) (a : Nat) : (s.touchChanged t).reg a = t.reg a := rfl

@[simp] theorem State.keptCount_returning (s : State) (ws : List Word) (a : Nat) : (s.returning ws).keptCount a = s.keptCount a := rfl

/-! ### Counters of the headgate with access RC (R7) -/

/-- The counters of the headgate that a read clears. -/
def headgateCounters : List Nat := [ACC_ERR_CNT, LOCK_REFUSED_CNT, AUTH_FAIL_CNT, STALE_CNT]

theorem mem_headgateCounters {a : Nat} :
    a ∈ headgateCounters ↔ a = ACC_ERR_CNT ∨ a = LOCK_REFUSED_CNT ∨ a = AUTH_FAIL_CNT ∨ a = STALE_CNT := by
  simp [headgateCounters]

theorem headgateCounter_lt : ∀ a ∈ headgateCounters, a < 0xB4000 := by decide

theorem regRow_headgateCounter : ∀ a ∈ headgateCounters, (regRow a).isNone = false := by decide

theorem rcMask_headgateCounter : ∀ a ∈ headgateCounters, rcMask a = BitVec.allOnes 32 := by decide

theorem woMask_headgateCounter : ∀ a ∈ headgateCounters, woMask a = 0 := by decide

/-- A counter reads as it is stored. -/
theorem State.busView_headgateCounter (s : State) {a : Nat} (ha : a ∈ headgateCounters) : s.busView a = s.reg a := by
  have hlt : a < 0x1000000 := Nat.lt_trans (headgateCounter_lt a ha) (by decide)
  have hv : s.viewWord a = none := s.viewWord_eq_none hlt (.inl (headgateCounter_lt a ha))
  have hr : (regRow a).isNone = false := regRow_headgateCounter a ha
  have hl : s.lowView a = s.reg a := by
    rcases mem_headgateCounters.mp ha with rfl | rfl | rfl | rfl <;> rfl
  rw [State.busView, hv]
  simp only [hr, hlt, if_true, Bool.false_eq_true, if_false, hl, woMask_headgateCounter a ha]
  exact BitVec.and_allOnes

/-- A read of a counter returns its count at the start of the BCLK cycle and clears it. -/
theorem State.busRead_headgateCounter (s : State) {a : Nat} (ha : a ∈ headgateCounters) :
    s.busRead a = ((s.seen a).reg a, s.rcClear a) := by
  rw [← State.busView_headgateCounter _ ha]
  rcases mem_headgateCounters.mp ha with rfl | rfl | rfl | rfl <;> rfl

theorem mergeWord_allOnes (old new : Word) : mergeWord old new (BitVec.allOnes 32) = new := by
  rw [mergeWord, BitVec.not_allOnes, BitVec.and_zero, BitVec.zero_or, BitVec.and_allOnes]

theorem State.rcClear_frame (s : State) (a : Nat) :
    s.rcClear a = { s with regs := (s.rcClear a).regs, raised := (s.rcClear a).raised, touched := (s.rcClear a).touched } := by
  unfold State.rcClear; split <;> rfl

theorem State.reg_rcClear_ne (s : State) {a b : Nat} (h : b ≠ a) : (s.rcClear a).reg b = s.reg b := by
  unfold State.rcClear
  split
  · rfl
  · exact s.reg_setReg_ne _ h

/-- The clearing of a whole counter leaves in it what hardware has added in the cycle. -/
theorem State.reg_rcClear_whole (s : State) {a : Nat} (h : rcMask a = BitVec.allOnes 32) :
    (s.rcClear a).reg a = BitVec.ofNat 32 (s.keptCount a) := by
  rw [State.rcClear, if_neg (by rw [h]; decide), h, mergeWord_allOnes]
  exact s.reg_setReg_self _ _

/-- A read of one of the four counters: its word, and all that it changes. -/
theorem exec_rcRead_headgateCounter (s : State) {a : Nat} (hs : s.serves) (ha : a ∈ headgateCounters) :
    exec (.rcRead a) s = .next (((s.returning []).touchChanged ((s.returning []).rcClear a)).returning [(s.seen a).reg a]) := by
  have hseen : ((s.returning []).seen a).reg a = (s.seen a).reg a := by
    unfold State.seen State.cycleStart State.returning
    dsimp only
    repeat' split
    all_goals rfl
  have hlt : a < 0x1000000 := Nat.lt_trans (headgateCounter_lt a ha) (by decide)
  rw [exec_rcRead, State.readA_below_clusters (s.returning []) hs hlt, State.busRead_headgateCounter _ ha, hseen]
  rfl

end Sys2Proof.Machine

namespace Sys2Proof.Proofs

open Sys2Proof.Machine Sys2Proof.Machine.Reg

/-- Settles O3: the word that the write stores, bit by bit, and that it stores nothing else. -/
theorem plainWriteFollowsAccessCodes : Obligations.PlainWriteFollowsAccessCodes := by
  intro s a v r hr
  refine ⟨fun i hi => getLsbD_reg_plainWrite s v hr hi, fun b hb => ?_, ?_⟩
  · rw [s.plainWrite_eq_setReg v hr, State.reg_setReg_ne _ _ hb]
  · rw [s.plainWrite_eq_setReg v hr]; rfl

/-- An address of Window A outside every block, or in the power block without a row, ignores a write and reads 0. -/
theorem unassigned_ignores_write_and_reads_zero (s : State) (a : Nat) (v : Word) (hs : s.serves) (ha : a < 0x1000000)
    (h : 13 ≤ a / 0x10000 ∨ a / 0x10000 = 1 ∧ regRow a = none) :
    (s.wroteNow a = false → s.hostBlocked false = false → exec (.registerWrite a v) s = .next (s.noteHost a)) ∧
      exec (.rcRead a) s = .next (s.returning [0]) := by
  have hr : regRow a = none := h.elim (regRow_eq_none_of_no_block ha) And.right
  have hv : a < 0xB4000 ∨ 0xB9000 ≤ a := by omega
  refine ⟨fun hw hb => ?_, ?_⟩
  · have hacc : s.accepts a v := ⟨hs, s.sealLocks_unassigned v hr, hb, s.meetsGate_below_clusters ha, hw⟩
    rw [exec_registerWrite, State.hostWrite_accepts _ _ hacc, State.busWrite_unassigned _ v ha (by omega) hr]
  · rw [exec_rcRead, State.readA_below_clusters (s.returning []) hs ha,
      State.busRead_unassigned _ (fun u => u.viewWord_eq_none ha hv) hr, State.touchChanged_self]
    rfl

/-- A read of a counter of the headgate returns its count and leaves what hardware has added in the cycle. -/
theorem headgateCounter_read (s : State) (a : Nat) (hs : s.serves) (ha : a ∈ headgateCounters) :
    ∃ t, exec (.rcRead a) s = .next t ∧ t.hostData = [(s.seen a).reg a] ∧ t.reg a = BitVec.ofNat 32 (s.keptCount a) ∧
      (∀ b, b ≠ a → t.reg b = s.reg b) ∧
      t = { s with regs := t.regs, raised := t.raised, touched := t.touched, hostData := t.hostData } := by
  refine ⟨_, exec_rcRead_headgateCounter s hs ha, rfl, ?_, fun b hb => ?_, ?_⟩
  · rw [State.reg_returning, State.reg_touchChanged, State.reg_rcClear_whole _ (rcMask_headgateCounter a ha), State.keptCount_returning]
  · rw [State.reg_returning, State.reg_touchChanged, State.reg_rcClear_ne _ hb, State.reg_returning]
  · rw [State.rcClear_frame]; rfl

/-- Settles O4: unassigned addresses, then writes and reads under the rule of their register, then the four counters. -/
theorem windowAAccessesAreServed : Obligations.WindowAAccessesAreServed := by
  refine ⟨unassigned_ignores_write_and_reads_zero, ⟨fun s a v h => ?_, fun s a v hs hl hw => ?_, fun s a hs hg => ?_, fun s hs => ?_⟩,
    headgateCounter_read⟩
  · rw [exec_registerWrite, State.hostWrite_accepts _ _ h]
  · rw [exec_registerWrite, State.hostWrite_later _ _ hs.1 hl hw]
  · exact ⟨_, exec_rcRead s a, State.readA_hostData (s.returning []) hs hg⟩
  · rw [exec_mtLoRead, State.hostRead_serves _ _ hs]; rfl

end Sys2Proof.Proofs
end

section
/-!
PROOFS. The state after reset (R12, R364, R365): its registers, its threads and interrupts, and that it serves a host, then the statement
about it.
-/

namespace Sys2Proof.Machine

open Reg

/-! ### Reset -/

/-- The registers after reset: each at its reset word, but RST_STATUS, which says POR (R366). -/
theorem State.reg_reset {a : Nat} (h : a ≠ 0x10044) : State.reset.reg a = resetWord a := by
  show Table.get resetWord [(0x10044, 0x80000001#32)] a = resetWord a
  rw [Table.get, if_neg (Ne.symm h), Table.get_nil]

/-- The row of a thread's TH_STATUS. -/
theorem regRow_TH_STATUS {n t : Nat} (hn : n < 24) (ht : t < 16) :
    regRow (TH_STATUS n t) = some ⟨0x1006004, [(24, 0x100000), (16, 0x100)], 0x1, 0x0, 0xc00, 0x0, 0x0⟩ := by
  have hrows : rowsAt (TH_STATUS n t) = thRows := by
    have hcl : ¬TH_STATUS n t < 0x1000000 := by unfold TH_STATUS; omega
    have hoff : (TH_STATUS n t - 0x1000000) % 0x100000 = 0x6004 + t * 0x100 := by unfold TH_STATUS; omega
    have hth : ¬0x6004 + t * 0x100 < 0x6000 := by omega
    simp only [rowsAt, hcl, if_false, hoff, show ¬0x6004 + t * 0x100 < 0x4000 by omega, show ¬0x6004 + t * 0x100 < 0x5000 by omega, hth]
  have hctrl : RegRow.hit ⟨0x1006000, [(24, 0x100000), (16, 0x100)], 0x0, 0x300, 0x0, 0x0, 0x6⟩ (TH_STATUS n t) = false := by
    have hoff : TH_STATUS n t - 0x1006000 = 4 + n * 0x100000 + t * 0x100 := by unfold TH_STATUS; omega
    have hend : (4 + n * 0x100000 + t * 0x100) % 0x100000 % 0x100 = 4 := by omega
    rw [RegRow.hit, hoff, dimsHit, dimsHit, dimsHit, hend]
    simp
  have hstatus : RegRow.hit ⟨0x1006004, [(24, 0x100000), (16, 0x100)], 0x1, 0x0, 0xc00, 0x0, 0x0⟩ (TH_STATUS n t) = true := by
    have hoff : TH_STATUS n t - 0x1006004 = n * 0x100000 + t * 0x100 := by unfold TH_STATUS; omega
    have hend : (n * 0x100000 + t * 0x100) % 0x100000 % 0x100 = 0 := by omega
    rw [RegRow.hit, hoff, dimsHit, dimsHit, dimsHit, hend,
      decide_eq_true (show 0x1006004 ≤ TH_STATUS n t by unfold TH_STATUS; omega), decide_eq_true (by omega), decide_eq_true (by omega)]
    rfl
  rw [regRow, hrows, thRows, thRows1, List.find?_cons_of_neg (by simp only [hctrl, Bool.false_eq_true, not_false_eq_true]),
    List.find?_cons_of_pos (by simp only [hstatus])]

theorem resetWord_IRQ_PEND : ∀ w < 8, resetWord (IRQ_PEND w) = 0 := by decide

/-- After reset no interrupt is pending (R365). -/
theorem State.irqPending_reset {i : Nat} (h : i < 256) : State.reset.irqPending i = false := by
  have hne : IRQ_PEND (i / 32) ≠ 0x10044 := by unfold IRQ_PEND; omega
  rw [State.irqPending, State.bit, State.reg_reset hne, resetWord_IRQ_PEND _ (by omega), bitOf]
  exact BitVec.getLsbD_zero

/-- After reset every thread is HALTED (R364). -/
theorem State.thState_reset {n t : Nat} (hn : n < 24) (ht : t < 16) : State.reset.thState n t = thHalted := by
  have hne : TH_STATUS n t ≠ 0x10044 := by unfold TH_STATUS; omega
  rw [State.thState, State.fld, State.reg_reset hne, resetWord, regRow_TH_STATUS hn ht]
  rfl

theorem State.meetsGate_reset (a : Nat) : State.reset.meetsGate a = false := by
  have hmap : State.reset.bit CG_MAP (clusterOf a) = false := by
    rw [State.bit, State.reg_reset (by decide), show resetWord CG_MAP = 0 by decide, bitOf]
    exact BitVec.getLsbD_zero
  rw [State.meetsGate, hmap, Bool.and_false]

theorem State.wroteNow_reset (a : Nat) : State.reset.wroteNow a = false := by
  simp [State.wroteNow, State.tookNow, State.wroteAlready, State.reset, State.atReset]

/-- After reset a host can write to every register: SEAL is not set, no cluster is gated and no write waits. -/
theorem State.accepts_reset (a : Nat) (v : Word) : State.reset.accepts a v :=
  ⟨State.serves_reset, rfl, rfl, State.meetsGate_reset a, State.wroteNow_reset a⟩

end Sys2Proof.Machine

namespace Sys2Proof.Proofs

open Sys2Proof.Machine Sys2Proof.Machine.Reg

/-- Settles O60: the forms of the memories and rings, then what a host meets, then the registers after reset. -/
theorem resetMeetsTheInvariants : Obligations.ResetMeetsTheInvariants :=
  ⟨State.canonical_reset, fun _ => rfl, rfl, rfl, State.serves_reset, State.clocked_reset, State.accepts_reset, by decide, by decide,
    fun _ hi => State.irqPending_reset hi, fun _ _ hn hh => State.thState_reset hn hh, rfl⟩

end Sys2Proof.Proofs
end

section
/-!
PROOFS. Window B (R25, R264, R302): what a read and a write do where they meet an uncorrectable error and where they meet none, then the
statement about them.
-/

namespace Sys2Proof.Machine

open Reg

/-! ### Window B (R25) -/

@[simp] theorem State.bit_returning (s : State) (ws : List Word) (a i : Nat) : (s.returning ws).bit a i = s.bit a i := rfl

@[simp] theorem State.returning_reservoir (s : State) (ws : List Word) : (s.returning ws).reservoir = s.reservoir := rfl

@[simp] theorem State.returning_poison (s : State) (ws : List Word) : (s.returning ws).poison = s.poison := rfl

@[simp] theorem State.returning_sent (s : State) (ws : List Word) : (s.returning ws).sent = s.sent := rfl

/-- RESV_UE is set, once or again. -/
@[simp] theorem State.bit_setResvUe (s : State) : s.setResvUe.bit GSTAT 7 = true := by
  unfold State.setResvUe
  split
  · assumption
  · exact State.bit_setBit_self s GSTAT 7 true (by decide)

/-- RESV_UE is a bit of GSTAT, and its rise an event: all else is as it was. -/
theorem State.setResvUe_eq (s : State) :
    s.setResvUe = { s with regs := s.setResvUe.regs, irqEvents := s.setResvUe.irqEvents } := by
  unfold State.setResvUe
  split <;> rfl

@[simp] theorem State.setResvUe_reservoir (s : State) : s.setResvUe.reservoir = s.reservoir := by rw [s.setResvUe_eq]

@[simp] theorem State.setResvUe_poison (s : State) : s.setResvUe.poison = s.poison := by rw [s.setResvUe_eq]

@[simp] theorem State.setResvUe_sent (s : State) : s.setResvUe.sent = s.sent := by rw [s.setResvUe_eq]

/-- A request that the clocks serve is served at once. -/
theorem State.hostRequest_serves (s : State) (q : HostReq) (serve : State → State) (h : s.serves) : s.hostRequest q serve = serve s := by
  obtain ⟨hp, hb⟩ := h
  simp only [State.hostRequest, hp, hb, if_true]

theorem exec_windowBWrite (s : State) (off size : Nat) (v : BitVec 64) (h : s.serves) :
    exec (.windowBWrite off size v) s = .next (s.bArrive off size v) :=
  congrArg Host.Outcome.next (s.hostRequest_serves (.bWrite off size v) (·.bArrive off size v) h)

theorem exec_windowBRead (s : State) (off size : Nat) (h : s.serves) : exec (.windowBRead off size) s = .next (s.bRead off size) :=
  congrArg Host.Outcome.next (s.hostRequest_serves (.bRead off size) (·.bRead off size) h)

/-- What a Window B write of an accepted width does where no write of its port waits: a whole word replaces, error or not. -/
theorem State.bArrive_word (s : State) {off : Nat} (v : BitVec 64) (hb : s.hostBlocked false = false) (hok : windowBOk off 8 = true) :
    s.bArrive off 8 v = s.resWriteWords off v.toNat 1 := by
  simp [State.bArrive, hb, State.bWrite, hok]

/-- A narrow write, by the error that its read meets. -/
theorem State.bArrive_narrow (s : State) {off size : Nat} (v : BitVec 64) (hb : s.hostBlocked false = false)
    (hok : windowBOk off size = true) (h8 : size ≠ 8) :
    s.bArrive off size v = if s.resPoisoned off size then s.setResvUe else s.resWrite off v.toNat size := by
  simp [State.bArrive, hb, State.bWrite, hok, h8]

/-- A Window B read that meets no error returns the bytes. -/
theorem State.bRead_sound (s : State) {off size : Nat} (hok : windowBOk off size = true) (hp : s.resPoisoned off size = false) :
    s.bRead off size = s.returning (if size = 8 then [loWord (BitVec.ofNat 64 (s.resRead off 8)), hiWord (BitVec.ofNat 64 (s.resRead off 8))]
      else [BitVec.ofNat 32 (s.resRead off size)]) := by
  have hlo : loWord (BitVec.ofNat 64 (s.resRead off size)) = BitVec.ofNat 32 (s.resRead off size) := BitVec.setWidth_ofNat_of_le (by decide) _
  have hread : s.bRead off size = s.returning (if size = 8 then
      [loWord (BitVec.ofNat 64 (s.resRead off size)), hiWord (BitVec.ofNat 64 (s.resRead off size))]
      else [loWord (BitVec.ofNat 64 (s.resRead off size))]) := by
    unfold State.bRead
    rw [hok, hp]
    rfl
  rw [hread]
  split
  · next h8 => rw [h8]
  · rw [hlo]

/-- A Window B read that meets one completes poisoned, with words that the spec leaves open. -/
theorem State.bRead_poisoned (s : State) {off size : Nat} (hok : windowBOk off size = true) (hp : s.resPoisoned off size = true) :
    s.bRead off size = (s.send (.poisoned off)).setResvUe.useFree.returning (s.bRead off size).hostData := by
  simp only [State.bRead, hok, hp, Bool.not_true, Bool.false_eq_true, if_false, if_true]
  rfl

theorem State.resRead_resWrite (s : State) (a v n : Nat) : (s.resWrite a v n).resRead a n = v % 2 ^ (8 * n) := by
  rw [State.resRead_resWrite_self, Nat.pow_mul]

/-- The reservoir after a write of one whole word. -/
theorem State.resWriteWords_one_reservoir (s : State) (a v : Nat) : (s.resWriteWords a v 1).reservoir = Memory.write s.reservoir a v 8 := by
  simp only [State.resWriteWords, State.resWrite, Nat.mul_one]

/-- A whole aligned word that has been written holds no error. -/
theorem State.resPoisoned_resWriteWords_one (s : State) {a : Nat} (v : Nat) (h : a % 8 = 0) :
    (s.resWriteWords a v 1).resPoisoned a 8 = false := by
  simp only [State.resPoisoned, State.resWriteWords, List.any_eq_false, List.mem_filter, Bool.and_eq_true, Bool.not_eq_true',
    Bool.and_eq_false_iff, decide_eq_true_eq, decide_eq_false_iff_not]
  rintro w ⟨-, hw⟩ ⟨hlo, hhi⟩
  omega

/-- An aligned word of Window B begins at a multiple of 8. -/
theorem mod_eight_of_windowBOk {off : Nat} (h : windowBOk off 8 = true) : off % 8 = 0 := by
  simp only [windowBOk, Bool.and_eq_true, beq_iff_eq] at h
  exact h.1.2

end Sys2Proof.Machine

namespace Sys2Proof.Proofs

open Sys2Proof.Machine Sys2Proof.Machine.Reg

/-- The bytes of an accepted Window B write are stored, and nothing else changes. -/
theorem windowB_write_stores (s : State) (off size : Nat) (v : BitVec 64) (hs : s.serves) (hb : s.hostBlocked false = false)
    (hok : windowBOk off size = true) (hp : size = 8 ∨ s.resPoisoned off size = false) :
    ∃ t, exec (.windowBWrite off size v) s = .next t ∧ t.resRead off size = v.toNat % 2 ^ (8 * size) ∧
      (∀ a, a < off ∨ off + size ≤ a → Memory.byte t.reservoir a = Memory.byte s.reservoir a) ∧
      t.resPoisoned off size = false ∧ t = { s with reservoir := t.reservoir, poison := t.poison } := by
  refine ⟨_, exec_windowBWrite s off size v hs, ?_⟩
  by_cases h8 : size = 8
  · subst h8
    rw [s.bArrive_word v hb hok]
    refine ⟨?_, fun a ha => ?_, s.resPoisoned_resWriteWords_one v.toNat (mod_eight_of_windowBOk hok), rfl⟩
    · rw [State.resRead, State.resWriteWords_one_reservoir]
      exact s.resRead_resWrite off v.toNat 8
    · rw [State.resWriteWords_one_reservoir]
      exact Memory.byte_write_outside 8 _ _ _ _ ha
  · have hp := hp.resolve_left h8
    rw [s.bArrive_narrow v hb hok h8, hp, if_neg Bool.false_ne_true]
    exact ⟨s.resRead_resWrite off v.toNat size, fun a ha => Memory.byte_write_outside size _ _ _ _ ha, hp, rfl⟩

/-- Settles O6: the accepted accesses, then those that meet an uncorrectable error, then the write that waits. -/
theorem windowBReadsAndWritesTheReservoir : Obligations.WindowBReadsAndWritesTheReservoir := by
  refine ⟨⟨windowB_write_stores, fun s off size hs hok hp => ?_⟩, fun s off size hs hok hp => ?_,
    fun s off size v hs hb hok h8 hp => ?_, fun s off size v hs hb => ?_⟩
  · rw [exec_windowBRead s off size hs, s.bRead_sound hok hp]
  · refine ⟨_, exec_windowBRead s off size hs, ?_⟩
    rw [s.bRead_poisoned hok hp]
    simp
  · refine ⟨_, exec_windowBWrite s off size v hs, ?_⟩
    simp [s.bArrive_narrow v hb hok h8, hp]
  · rw [exec_windowBWrite s off size v hs, State.bArrive, if_pos hb]

end Sys2Proof.Proofs
end

section
/-!
PROOFS. Insertion and re-keying of a weir's events (R16, R17, R164, R165): what the note of a pass and the removal of a slot leave alone,
then the statement about them.
-/

namespace Sys2Proof.Machine

open Reg

/-! ### Slots -/

theorem Table.lookup_erase_self {α : Type} (t : Table α) (a : Nat) : (Table.erase t a).lookup a = none := by
  rw [List.lookup_eq_none_iff]
  exact fun e he => bne_iff_ne.2 (Ne.symm (Table.ne_of_mem_erase t a e he))

/-- An event of the weir's interrupt source changes no weir. -/
@[simp] theorem State.weir_weirEvent (s : State) (n k m : Nat) : (s.weirEvent n k).weir m = s.weir m := by
  unfold State.weirEvent State.deliverIf
  split <;> rfl

/-- The weir whose event of slot `i` retires (R162). -/
theorem State.weir_retire (s : State) (n i : Nat) (o : Outcome) : (s.retire n i o).weir n = (s.weir n).retire s.mt i o := by
  unfold State.retire
  cases o <;> simp only [State.weir_weirEvent, State.weir_setWeir_self]

/-- A retired event has left its slot. -/
theorem Weir.slot?_retire_self (w : Weir) (t : Tick) (i : Nat) (o : Outcome) : (w.retire t i o).slot? i = none :=
  Table.lookup_erase_self w.slots i

/-! ### What is stored of a keyed event (R164) -/

theorem State.storeKeyed_no_key (s : State) (n i : Nat) (h : Tick) {e : Slot} (hk : e.key = none) :
    s.storeKeyed n i h e = s.putSlot n i e := by
  simp [State.storeKeyed, hk]

theorem State.storeKeyed_placed (s : State) (n i : Nat) {h : Tick} {e e' : Slot} (hk : e.key ≠ none) (hp : s.placed h e = some e') :
    s.storeKeyed n i h e = s.putSlot n i e' := by
  simp [State.storeKeyed, hk, hp]

theorem State.storeKeyed_dropped (s : State) (n i : Nat) {h : Tick} {e : Slot} (hk : e.key ≠ none) (hp : s.placed h e = none) :
    s.storeKeyed n i h e = (s.putSlot n i e).retire n i .droppedPast := by
  simp [State.storeKeyed, hk, hp]

/-- The weir once the event of slot `i` has been dropped. -/
theorem State.weir_putSlot_retire (s : State) (n i : Nat) (e : Slot) (o : Outcome) :
    ((s.putSlot n i e).retire n i o).weir n = ((s.weir n).putSlot i e).retire s.mt i o := by
  rw [State.weir_retire, State.putSlot, State.weir_setWeir_self, State.setWeir_mt]

/-- An angle event that its shaft freezes has no key (R165). -/
theorem State.keyed_frozen (s : State) {e : Slot} (ha : e.angle = true) (hf : s.angleFrozen e.shaft e.dirq = true) :
    s.keyed e = { e with frozen := true, unreachable := false, rekey := false } := by
  simp [State.keyed, ha, hf]

/-- Its insertion leaves an event's key as it is. -/
theorem Slot.key_inserted (e : Slot) : ({ e with inserted := true } : Slot).key = e.key := rfl

theorem Slot.key_frozen {e : Slot} (ha : e.angle = true) (hs : e.started = false) (hf : e.frozen = true) : e.key = none := by
  simp [Slot.key, ha, hs, hf]

/-! ### The events of a weir's slots -/

theorem State.insertionComplete_of_slot {s : State} {n i : Nat} {e : Slot} (he : (s.weir n).slot? i = some e) (hi : e.inserted = false) :
    s.insertionComplete n i = s.storeKeyed n i (e.commit + 32) { e with inserted := true } := by
  simp only [State.insertionComplete, he, hi, Bool.false_eq_true, if_false]

theorem exec_insertionComplete {s : State} (n : Fin 24) (i : Fin 256) {e : Slot} (hc : s.clocked) (he : (s.weir n).slot? i = some e)
    (hi : e.inserted = false) :
    exec (.insertionComplete n i) s = .next (s.storeKeyed n i (e.commit + 32) { e with inserted := true }) := by
  show Host.Outcome.next (s.onTclk (s.insertionComplete n i)) = _
  rw [State.onTclk_clocked _ _ hc, State.insertionComplete_of_slot he hi]

/-- A pass that reaches an inserted, undispatched event that asks for it keys the event afresh (R165). -/
theorem State.rekeySlot_of_slot {s : State} {n i : Nat} {e : Slot} (he : (s.weir n).slot? i = some e) (hr : e.rekey = true)
    (hs : e.started = false) (hi : e.inserted = true) (hf : s.rekeyFree n e.shaft = true) :
    s.rekeySlot n i = (s.noteRekey n e.shaft).storeKeyed n i s.mt (s.keyed e) := by
  simp [State.rekeySlot, he, hr, hs, hi, hf, State.noteRekey]

/-- A pass that has reached its slot of the tick reaches no other (R17). -/
theorem State.rekeySlot_not_free {s : State} {n i : Nat} {e : Slot} (he : (s.weir n).slot? i = some e)
    (hf : s.rekeyFree n e.shaft = false) : s.rekeySlot n i = s := by
  simp [State.rekeySlot, he, hf]

theorem exec_rekeyPass (s : State) (n : Fin 24) (i : Fin 256) : exec (.rekeyPass n i) s = .next (s.onTclk (s.rekeySlot n i)) := rfl

theorem exec_cycleRekey (s : State) (n : Fin 24) (i : Fin 256) : exec (.cycleRekey n i) s = .next (s.onTclk (s.rekeySlot n i)) := rfl

/-- Both passes of a shaft key the event that they reach afresh. -/
theorem exec_rekey_of_slot {s : State} (n : Fin 24) (i : Fin 256) {e : Slot} (hc : s.clocked) (he : (s.weir n).slot? i = some e)
    (hr : e.rekey = true) (hs : e.started = false) (hi : e.inserted = true) (hf : s.rekeyFree n e.shaft = true) :
    exec (.rekeyPass n i) s = .next ((s.noteRekey n e.shaft).storeKeyed n i s.mt (s.keyed e)) ∧
      exec (.cycleRekey n i) s = .next ((s.noteRekey n e.shaft).storeKeyed n i s.mt (s.keyed e)) := by
  rw [exec_rekeyPass, exec_cycleRekey, State.onTclk_clocked _ _ hc, State.rekeySlot_of_slot he hr hs hi hf]
  exact ⟨rfl, rfl⟩

end Sys2Proof.Machine

namespace Sys2Proof.Proofs

open Sys2Proof.Machine Sys2Proof.Machine.Reg

/-- Settles O25: insertion in time and too late, then the re-key pass, its one slot per tick, and the event that it finds frozen. -/
theorem eventsAreInsertedAndRekeyed : Obligations.EventsAreInsertedAndRekeyed := by
  refine ⟨fun n i s e e' hc he hi hk hp => ?_, fun n i s e hc he hi hk hp => ?_,
    fun n i s e hc he hr hs hi hf => exec_rekey_of_slot n i hc he hr hs hi hf, fun n i s e he hf => ?_,
    fun n i s e hc he hr hs hi hf ha hz => ?_⟩
  · rw [← Slot.key_inserted] at hk
    rw [exec_insertionComplete n i hc he hi, s.storeKeyed_placed n i hk hp]
  · rw [← Slot.key_inserted] at hk
    refine ⟨_, exec_insertionComplete n i hc he hi, ?_⟩
    rw [s.storeKeyed_dropped n i hk hp, State.weir_putSlot_retire]
    exact ⟨Weir.slot?_retire_self _ _ _ _, rfl⟩
  · rw [exec_rekeyPass, exec_cycleRekey, State.rekeySlot_not_free he hf, State.onTclk, ite_self]
    exact ⟨rfl, rfl⟩
  · have hkey : (s.keyed e).key = none := by
      rw [s.keyed_frozen ha hz]
      exact Slot.key_frozen ha hs rfl
    have hpass := exec_rekey_of_slot n i hc he hr hs hi hf
    rwa [State.storeKeyed_no_key _ n i s.mt hkey, s.keyed_frozen ha hz] at hpass

end Sys2Proof.Proofs
end

section
/-!
PROOFS. Publication, history, direction and machine cycle of a shaft (R17, R139, R142 to R144, R149): what each operation does to the
shaft and to its status register, then the statement about them.
-/

namespace Sys2Proof.Machine

open Reg

/-! ### What leaves the shafts as they are -/

/-- `t` has the shafts of `s`, and the words of their register block (R123). -/
structure KeepsShafts (s t : State) : Prop where
  shafts : t.shafts = s.shafts
  regs : ∀ a, 0x90000 ≤ a → a < 0xA0000 → t.reg a = s.reg a

theorem KeepsShafts.refl (s : State) : KeepsShafts s s := ⟨rfl, fun _ _ _ => rfl⟩

theorem KeepsShafts.trans {s t u : State} (h : KeepsShafts s t) (h' : KeepsShafts t u) : KeepsShafts s u :=
  ⟨h'.shafts.trans h.shafts, fun a h1 h2 => (h'.regs a h1 h2).trans (h.regs a h1 h2)⟩

/-- An update of other fields. -/
theorem KeepsShafts.of_eq {s t : State} (hs : t.shafts = s.shafts) (hr : t.regs = s.regs) : KeepsShafts s t :=
  ⟨hs, fun a _ _ => by rw [State.reg, hr, State.reg]⟩

theorem KeepsShafts.shaft {s t : State} (h : KeepsShafts s t) (k : Nat) : t.shaft k = s.shaft k := by
  rw [State.shaft, h.shafts, State.shaft]

theorem KeepsShafts.status {s t : State} (h : KeepsShafts s t) (k : Fin 16) : t.reg (SH_STATUS k) = s.reg (SH_STATUS k) :=
  h.regs _ (by unfold SH_STATUS; omega) (by unfold SH_STATUS; omega)

theorem keepsShafts_ite {c : Prop} [Decidable c] {s a b : State} (h1 : KeepsShafts s a) (h2 : KeepsShafts s b) :
    KeepsShafts s (if c then a else b) := by
  split <;> assumption

theorem keepsShafts_foldl {α : Type} {f : State → α → State} (l : List α) (hf : ∀ s, ∀ x ∈ l, KeepsShafts s (f s x)) (s : State) :
    KeepsShafts s (l.foldl f s) := by
  induction l generalizing s with
  | nil => exact .refl s
  | cons x l ih => exact (hf s x List.mem_cons_self).trans (ih (fun s y hy => hf s y (List.mem_cons_of_mem x hy)) _)

theorem State.setReg_keepsShafts (s : State) {a : Nat} (v : Word) (ha : a < 0x90000 ∨ 0xA0000 ≤ a) : KeepsShafts s (s.setReg a v) :=
  ⟨rfl, fun _ _ _ => State.reg_setReg_ne _ _ (by omega)⟩

theorem State.setWeir_keepsShafts (s : State) (n : Nat) (w : Weir) : KeepsShafts s (s.setWeir n w) := .of_eq rfl rfl

theorem State.raise_keepsShafts (s : State) {a : Nat} (i : Nat) (ha : a < 0x90000 ∨ 0xA0000 ≤ a) : KeepsShafts s (s.raise a i) :=
  (s.setReg_keepsShafts _ ha).trans (.of_eq rfl rfl)

theorem State.satCount_keepsShafts (s : State) {a : Nat} (ha : a < 0x90000 ∨ 0xA0000 ≤ a) : KeepsShafts s (s.satCount a) :=
  (s.setReg_keepsShafts _ ha).trans (.of_eq rfl rfl)

/-! ### The weirs -/

theorem State.mapEvents_keepsShafts (s : State) (f : Slot → Slot) : KeepsShafts s (s.mapEvents f) :=
  keepsShafts_foldl _ (fun s _ _ => keepsShafts_ite (.refl s) (s.setWeir_keepsShafts _ _)) s

theorem State.weirEvent_keepsShafts (s : State) (n k : Nat) : KeepsShafts s (s.weirEvent n k) :=
  keepsShafts_ite (.of_eq rfl rfl) (.refl s)

theorem State.retire_keepsShafts (s : State) (n i : Nat) (o : Outcome) : KeepsShafts s (s.retire n i o) := by
  have hw := s.setWeir_keepsShafts n ((s.weir n).retire s.mt i o)
  unfold State.retire
  cases o with
  | droppedPast => exact hw.trans (State.weirEvent_keepsShafts _ _ _)
  | droppedSync => exact hw.trans (State.weirEvent_keepsShafts _ _ _)
  | _ => exact hw

theorem State.eventLevel_keepsShafts (s : State) (k : Nat) (st : Stamp) (lvl : Bool) : KeepsShafts s (s.eventLevel k st lvl) := by
  refine keepsShafts_ite (.refl s) ?_
  have hout : OUT_STATUS k < 0x90000 ∨ 0xA0000 ≤ OUT_STATUS k := by unfold OUT_STATUS; omega
  refine .trans ?_ (State.setReg_keepsShafts _ _ hout)
  exact .of_eq rfl rfl

theorem State.endAction_keepsShafts (s : State) (n : Nat) (e : Slot) (st : Stamp) : KeepsShafts s (s.endAction n e st) := by
  unfold State.endAction
  dsimp only
  split
  · exact keepsShafts_ite (s.eventLevel_keepsShafts _ _ _) (.refl s)
  · exact keepsShafts_ite (s.eventLevel_keepsShafts _ _ _) (.refl s)
  · exact keepsShafts_ite (s.setWeir_keepsShafts _ _) (.refl s)
  · exact keepsShafts_ite (s.setWeir_keepsShafts _ _) (.refl s)
  · exact .refl s

theorem State.abortSlot_keepsShafts (s : State) (n i : Nat) (e : Slot) : KeepsShafts s (s.abortSlot n i e) := by
  have hcnt : STALL_ABORT_CNT n < 0x90000 ∨ 0xA0000 ≤ STALL_ABORT_CNT n := by unfold STALL_ABORT_CNT; omega
  have hend : KeepsShafts s (if e.action = 0 then s.endAction n e (s.laterOf (startPlace s.mt) (e.s + 256)) else s) :=
    keepsShafts_ite (s.endAction_keepsShafts _ _ _) (.refl s)
  unfold State.abortSlot
  exact (hend.trans (State.satCount_keepsShafts _ hcnt)).trans (State.retire_keepsShafts _ _ _ _)

theorem State.abortEvents_keepsShafts (s : State) (h : Nat) (p : Nat → Bool) : KeepsShafts s (s.abortEvents h p) :=
  keepsShafts_foldl _ (fun s n _ => keepsShafts_foldl _ (fun s ie _ =>
    keepsShafts_ite (s.abortSlot_keepsShafts n ie.1 ie.2) (.refl s)) s) s

theorem State.weirPublish_keepsShafts (s : State) (h : Nat) (pos : BitVec 64) : KeepsShafts s (s.weirPublish h pos) :=
  keepsShafts_ite (.refl s) (s.mapEvents_keepsShafts _)

theorem State.refreeze_keepsShafts (s : State) (h : Nat) : KeepsShafts s (s.refreeze h) := s.mapEvents_keepsShafts _

theorem State.weirShaftDir_keepsShafts (s : State) (h : Nat) : KeepsShafts s (s.weirShaftDir h) := by
  unfold State.weirShaftDir
  exact ((s.mapEvents_keepsShafts _).trans (State.refreeze_keepsShafts _ h)).trans (State.abortEvents_keepsShafts _ h _)

theorem State.weirCycle_keepsShafts (s : State) (h : Nat) : KeepsShafts s (s.weirCycle h) := s.mapEvents_keepsShafts _

/-! ### The armed swap and the position compares -/

theorem State.swapFreeze_keepsShafts (s : State) (h : Nat) : KeepsShafts s (s.swapFreeze h) :=
  keepsShafts_ite (.of_eq rfl rfl) (.refl s)

theorem State.swapEnd_keepsShafts (s : State) (outcome : Nat) : KeepsShafts s (s.swapEnd outcome) := by
  have hset := s.setReg_keepsShafts (a := SWAP_STATUS)
    (setBits (putBit (putBit (s.reg SWAP_STATUS) 29 false) 28 false) 3 0 outcome) (by decide)
  exact keepsShafts_ite (hset.trans (.of_eq rfl rfl)) hset

theorem State.swapKey_keepsShafts (s : State) (st : Stamp) : KeepsShafts s (s.swapKey st) := by
  have hpair : KeepsShafts s (s.setPair SWAP_STAMP_LO SWAP_STAMP_HI st) :=
    (s.setReg_keepsShafts (a := SWAP_STAMP_LO) _ (by decide)).trans (State.setReg_keepsShafts _ (a := SWAP_STAMP_HI) _ (by decide))
  unfold State.swapKey
  refine keepsShafts_ite (hpair.trans (.of_eq rfl rfl)) (keepsShafts_ite (hpair.trans (.of_eq rfl rfl)) ?_)
  exact hpair.trans (State.swapEnd_keepsShafts _ _)

theorem State.swapRekey_keepsShafts (s : State) (h : Nat) : KeepsShafts s (s.swapRekey h) := by
  refine keepsShafts_ite (keepsShafts_ite (.of_eq rfl rfl) ?_) (.refl s)
  split
  · exact s.swapKey_keepsShafts _
  · exact .of_eq rfl rfl

theorem State.shaftJumped_keepsShafts (s : State) (h : Nat) (p0 : BitVec 64) : KeepsShafts s (s.shaftJumped h p0) := by
  refine keepsShafts_foldl _ (fun s j hj => ?_) s
  have hst : PC_STATUS j < 0x90000 ∨ 0xA0000 ≤ PC_STATUS j := by
    have := List.mem_range.1 hj
    unfold PC_STATUS
    omega
  refine keepsShafts_ite (keepsShafts_ite (.of_eq rfl rfl) ?_) (.refl s)
  exact (keepsShafts_ite (s.raise_keepsShafts 2 hst) (.refl s)).trans (.of_eq rfl rfl)

/-! ### The status register of a shaft -/

/-- A report of the estimate changes EST_N and PRED_PERIOD (R137, R138). -/
theorem State.status_reportEstimate (s : State) (h : Nat) :
    (s.reportEstimate h).reg (SH_STATUS h) = setBits (s.reg (SH_STATUS h)) 9 8 (s.shaft h).est.n := by
  have hne : SH_STATUS h ≠ PRED_PERIOD h := by unfold SH_STATUS PRED_PERIOD; omega
  unfold State.reportEstimate
  dsimp only
  rw [State.reg_setReg_ne _ _ hne]
  exact State.reg_setReg_self _ _ _

theorem State.shaft_reportEstimate (s : State) (h k : Nat) : (s.reportEstimate h).shaft k = s.shaft k := rfl

theorem State.estN_reportEstimate (s : State) (h : Nat) : (s.reportEstimate h).fld (SH_STATUS h) 9 8 = (s.shaft h).est.n % 4 := by
  rw [State.fld, State.status_reportEstimate]
  exact bitsOf_setBits_self _ 9 8 _ (by decide)

theorem State.shRev_reportEstimate (s : State) (h : Nat) : (s.reportEstimate h).shRev h = s.shRev h := by
  rw [State.shRev, State.bit, State.status_reportEstimate, bitOf_setBits_ne _ _ _ _ _ (by decide)]
  rfl

theorem KeepsShafts.shRev {s t : State} (hk : KeepsShafts s t) (h : Fin 16) : t.shRev h = s.shRev h := by
  rw [State.shRev, State.bit, hk.status h]
  rfl

theorem State.shRev_setBit_self (s : State) (h : Nat) (d : Bool) : (s.setBit (SH_STATUS h) 6 d).shRev h = d :=
  s.bit_setBit_self (SH_STATUS h) 6 d (by decide)

theorem State.shRev_setShaft (s : State) (k h : Nat) (c : Shaft) : (s.setShaft k c).shRev h = s.shRev h := rfl

/-- A shaft that holds its position keeps its direction. -/
theorem State.shRev_holdAt (s : State) (h : Nat) (p : BitVec 64) : (s.holdAt h p).shRev h = s.shRev h :=
  State.shRev_reportEstimate _ _

theorem State.dirSince_holdAt (s : State) (h : Nat) (p : BitVec 64) : ((s.holdAt h p).shaft h).dirSince = (s.shaft h).dirSince := by
  rw [State.holdAt, State.shaft_reportEstimate, State.shaft_setShaft_self]

/-! ### Direction (R139, R140) -/

/-- A change of DIR holds the position where it was reported. -/
def State.turnHeld (s : State) (h : Nat) (d : Bool) : State := (s.setBit (SH_STATUS h) 6 d).holdAt h (s.shPos h)

/-- What a change of DIR leaves of the shaft before the events on it see the change. -/
def State.turned (s : State) (h : Nat) (d : Bool) : State :=
  if (s.turnHeld h d).shSync h then (s.turnHeld h d).setShaft h { (s.turnHeld h d).shaft h with dirTooth := true } else s.turnHeld h d

theorem State.shRev_turned (s : State) (h : Nat) (d : Bool) : (s.turned h d).shRev h = d := by
  have hu : (s.turnHeld h d).shRev h = d := ((s.setBit (SH_STATUS h) 6 d).shRev_holdAt h _).trans (s.shRev_setBit_self h d)
  unfold State.turned
  split
  · rw [State.shRev_setShaft, hu]
  · exact hu

theorem State.dirSince_turned (s : State) (h : Nat) (d : Bool) : ((s.turned h d).shaft h).dirSince = (s.shaft h).dirSince := by
  have hu : ((s.turnHeld h d).shaft h).dirSince = (s.shaft h).dirSince := (s.setBit (SH_STATUS h) 6 d).dirSince_holdAt h _
  unfold State.turned
  split
  · rw [State.shaft_setShaft_self]
    exact hu
  · exact hu

theorem State.setDir_same (s : State) {h : Nat} {d : Bool} (hd : s.shRev h = d) : s.setDir h d = s := if_pos hd

theorem State.setDir_turned (s : State) {h : Nat} {d : Bool} (hd : s.shRev h ≠ d) :
    s.setDir h d = ((s.turned h d).weirShaftDir h).swapFreeze h := if_neg hd

theorem State.turned_keepsShafts_setDir (s : State) {h : Nat} {d : Bool} (hd : s.shRev h ≠ d) :
    KeepsShafts (s.turned h d) (s.setDir h d) := by
  rw [s.setDir_turned hd]
  exact (State.weirShaftDir_keepsShafts _ h).trans (State.swapFreeze_keepsShafts _ h)

/-- DIR is what it was set to. -/
theorem State.shRev_setDir (s : State) (h : Fin 16) (d : Bool) : (s.setDir h d).shRev h = d := by
  by_cases hd : s.shRev h = d
  · rw [s.setDir_same hd, hd]
  · rw [(s.turned_keepsShafts_setDir hd).shRev h, s.shRev_turned]

/-- A change of DIR does not restart the filter of the direction input. -/
theorem State.dirSince_setDir (s : State) (h : Nat) (d : Bool) : ((s.setDir h d).shaft h).dirSince = (s.shaft h).dirSince := by
  by_cases hd : s.shRev h = d
  · rw [s.setDir_same hd]
  · rw [(s.turned_keepsShafts_setDir hd).shaft h, s.dirSince_turned]

theorem State.directionChange_input {s : State} {h : Nat} {u : Tick} (hen : s.shEn h = true) (hw : s.shWheel h = true)
    (hsrc : s.dirSrc h = 1) (hu : (s.shaft h).dirSince = some u) (hr : s.reached (u + BitVec.ofNat 64 (s.shFilt h)) = true) :
    s.directionChange h = (s.setShaft h { s.shaft h with dirSince := none }).setDir h (s.dirInput h s.mt) := by
  simp [State.directionChange, hen, hw, hsrc, hu, hr]

theorem State.directionChange_generator {s : State} {h : Nat} (hen : s.shEn h = true) (hsrc : s.shSrc h = 5)
    (hw : (s.shaft h).genOmega ≠ 0) : s.directionChange h = s.setDir h (decide ((s.shaft h).genOmega < 0)) := by
  simp [State.directionChange, hen, State.shWheel, hsrc, hw]

theorem State.directionChange_interface {s : State} {h : Nat} (hen : s.shEn h = true) (hlo : 1 ≤ s.shSrc h) (hhi : s.shSrc h ≤ 3) :
    s.directionChange h = s.setDir h (s.bit (FB_STATUS ((s.shSrc h - 1) * 8 + s.shIface h)) 2) := by
  have hw : s.shWheel h = false := beq_false_of_ne (by omega)
  simp [State.directionChange, hen, hw, show s.shSrc h ≠ 5 by omega, show s.shSrc h < 4 by omega]

theorem exec_directionChange (s : State) (h : Fin 16) (hc : s.clocked) :
    exec (.directionChange h) s = .next (s.directionChange h) :=
  congrArg Host.Outcome.next (s.onTclk_clocked _ hc)

/-! ### Publication and history (R17, R149) -/

/-- The state in which a published estimate has taken effect on its shaft, before compares, weirs and swap see it. -/
def State.published (s : State) (h : Nat) (e : Estimate) (rest : List (Tick × Estimate)) : State :=
  (s.setShaft h { s.shaft h with est := e, next := rest, jumpDue := false }).reportEstimate h

theorem State.shaft_published (s : State) (h : Nat) (e : Estimate) (rest : List (Tick × Estimate)) :
    (s.published h e rest).shaft h = { s.shaft h with est := e, next := rest, jumpDue := false } :=
  State.shaft_setShaft_self _ _ _

theorem State.estN_published (s : State) (h : Nat) (e : Estimate) (rest : List (Tick × Estimate)) :
    (s.published h e rest).fld (SH_STATUS h) 9 8 = e.n % 4 := by
  rw [State.published, State.estN_reportEstimate, State.shaft_setShaft_self]

theorem State.published_keepsShafts_publish {s : State} {h : Nat} {u : Tick} {e : Estimate} {rest : List (Tick × Estimate)}
    (hn : (s.shaft h).next = (u, e) :: rest) (hr : s.reached u = true) : KeepsShafts (s.published h e rest) (s.publish h) := by
  have hjump : KeepsShafts (s.published h e rest)
      (if (s.shaft h).jumpDue then (s.published h e rest).shaftJumped h (s.shPos h) else s.published h e rest) :=
    keepsShafts_ite (State.shaftJumped_keepsShafts _ _ _) (.refl _)
  simp only [State.publish, hn, hr, if_true]
  exact (hjump.trans (State.weirPublish_keepsShafts _ _ _)).trans (State.swapRekey_keepsShafts _ _)

theorem exec_estimatePublication (s : State) (h : Fin 16) (hc : s.clocked) :
    exec (.estimatePublication h) s = .next (s.publish h) :=
  congrArg Host.Outcome.next (s.onTclk_clocked _ hc)

theorem exec_historyWrite (s : State) (h : Fin 16) (hc : s.clocked) : exec (.historyWrite h) s = .next (s.historyWrite h) :=
  congrArg Host.Outcome.next (s.onTclk_clocked _ hc)

/-- With HIST_LOG2 = 0 a due entry is dropped. -/
theorem State.historyWrite_off {s : State} {h : Nat} {u : Tick} {w : Word} {rest : List (Tick × Word)}
    (hh : (s.shaft h).history = (u, w) :: rest) (hr : s.reached u = true) (hl : s.fld (HIST_CTRL h) 4 0 = 0) :
    s.historyWrite h = s.setShaft h { s.shaft h with history := rest } := by
  simp [State.historyWrite, hh, hr, hl]

/-- A due entry is written at HIST_WR of its ring. -/
theorem State.historyWrite_entry {s : State} {h : Nat} {u : Tick} {w : Word} {rest : List (Tick × Word)}
    (hh : (s.shaft h).history = (u, w) :: rest) (hr : s.reached u = true) (hl : s.fld (HIST_CTRL h) 4 0 ≠ 0)
    (hp : s.resPoisoned (s.histBase h + 4 * ((s.reg (HIST_WR h)).toNat % 2 ^ s.histLog h)) 4 = false) :
    s.historyWrite h = ((s.setShaft h { s.shaft h with history := rest }).count (HIST_WR h)).resWrite
      (s.histBase h + 4 * ((s.reg (HIST_WR h)).toNat % 2 ^ s.histLog h)) w.toNat 4 := by
  have hb : ∀ c, (s.setShaft h c).histBase h = s.histBase h := fun _ => rfl
  have hg : ∀ c, (s.setShaft h c).histLog h = s.histLog h := fun _ => rfl
  simp [State.historyWrite, hh, hr, hl, hb, hg, hp]

/-! ### Machine cycle (R142 to R144) -/

/-- A shaft's position depends on its record, on SH_CTRL and on the time. -/
theorem State.shPos_congr {s t : State} {h : Nat} (hr : t.reg (SH_CTRL h) = s.reg (SH_CTRL h)) (hs : t.shaft h = s.shaft h)
    (hm : t.mt = s.mt) : t.shPos h = s.shPos h := by
  have hg : t.shGenerator h = s.shGenerator h := by
    simp only [State.shGenerator, State.shSrc, State.shEn, State.fld, State.bit, hr]
  rw [State.shPos, State.shPos, hg, hs, State.now, State.now, hm]

/-- The cycle revolution in the present tick, when revolution `r` of the position is cycle revolution `v`. -/
def State.cycleNow (s : State) (h : Nat) (r : Word) (v : Nat) : Nat :=
  (((v : Int) + (hiWord (s.shPos h) - r).toInt).emod (s.shCycleRevs h)).toNat

/-- The state in which the cycle is known, before the events on the shaft see it. -/
def State.cycleKnown (s : State) (h : Nat) (r : Word) (v : Nat) : State :=
  (s.setShaft h { s.shaft h with cycleRev := s.cycleNow h r v, cycleSeen := hiWord (s.shPos h) }).setBit (SH_STATUS h) 7 true

theorem State.cycleKnown_keepsShafts_setCycle (s : State) (h : Nat) (r : Word) (v : Nat) :
    KeepsShafts (s.cycleKnown h r v) (s.setCycle h r v) :=
  keepsShafts_ite ((s.cycleKnown h r v).weirCycle_keepsShafts h) (.refl _)

theorem State.shCycleValid_setCycle (s : State) (h : Fin 16) (r : Word) (v : Nat) : (s.setCycle h r v).shCycleValid h = true := by
  rw [State.shCycleValid, State.bit, (s.cycleKnown_keepsShafts_setCycle h r v).status h]
  exact State.bit_setBit_self _ (SH_STATUS h) 7 true (by decide)

theorem State.shaft_setCycle (s : State) (h : Nat) (r : Word) (v : Nat) :
    (s.setCycle h r v).shaft h = { s.shaft h with cycleRev := s.cycleNow h r v, cycleSeen := hiWord (s.shPos h) } := by
  rw [(s.cycleKnown_keepsShafts_setCycle h r v).shaft h]
  exact State.shaft_setShaft_self _ _ _

/-- A revolution that the cycle has, set for the present position, is the present one. -/
theorem State.cycleNow_present (s : State) (h : Nat) {v : Nat} (hv : v < s.shCycleRevs h) : s.cycleNow h (hiWord (s.shPos h)) v = v := by
  rw [State.cycleNow, BitVec.sub_self, BitVec.toInt_zero, add_zero]
  show ((v : Int) % (s.shCycleRevs h : Int)).toNat = v
  rw [Int.emod_eq_of_lt (by omega) (by omega), Int.toNat_natCast]

/-- The state in which a marker's phase error has been counted (R143). -/
def State.markerCounted (s : State) (h : Nat) (st : Stamp) : State :=
  if s.shCycleValid h && s.cycleOf h (hiWord (s.shPosStamp h st)) != s.fld (MARKER_CFG h) 3 0 then s.satCount (PHASE_ERR_CNT h) else s

theorem State.shPos_markerCounted (s : State) (h : Nat) (st : Stamp) : (s.markerCounted h st).shPos h = s.shPos h := by
  have hne : SH_CTRL h ≠ PHASE_ERR_CNT h := by unfold SH_CTRL PHASE_ERR_CNT; omega
  unfold State.markerCounted
  split
  · exact State.shPos_congr (s.reg_satCount_ne hne) rfl rfl
  · rfl

theorem State.marker_taken {s : State} {h : Nat} {st : Stamp} (hph : s.fld (SH_CTRL h) 15 14 = 1) (hen : s.shEn h = true)
    (hsy : s.shSync h = true) (hn : 1 < s.shCycleRevs h) (he : s.markerEdge h st = true) (hv : s.fld (MARKER_CFG h) 3 0 < s.shCycleRevs h) :
    s.marker h st = (s.markerCounted h st).setCycle h (hiWord (s.shPosStamp h st)) (s.fld (MARKER_CFG h) 3 0) := by
  simp only [State.marker, hph, hen, hsy, he, show ¬s.shCycleRevs h ≤ 1 by omega, show ¬s.shCycleRevs h ≤ s.fld (MARKER_CFG h) 3 0 by omega]
  rfl

theorem exec_marker (s : State) (h : Fin 16) (st : Stamp) (hc : s.clocked) : exec (.marker h st) s = .next (s.marker h st) :=
  congrArg Host.Outcome.next (s.onTclk_clocked _ hc)

theorem exec_cycleSet {s : State} (h : Fin 16) {v : Word} (ha : s.accepts (CYCLE_SET h) v) :
    exec (.cycleSet h v) s = .next ((s.noteHost (CYCLE_SET h)).cycleSet h v) :=
  congrArg Host.Outcome.next (s.hostWrite_accepts _ ha)

theorem State.cycleSet_taken {s : State} {h : Nat} {v : Word} (hph : s.fld (SH_CTRL h) 15 14 ≠ 1) (hsy : s.shSync h = true)
    (hv : bitsOf v 3 0 < s.shCycleRevs h) : s.cycleSet h v = s.setCycle h (hiWord (s.shPos h)) (bitsOf v 3 0) := by
  simp [State.cycleSet, hph, hsy, hv]

theorem State.cycleSet_refused {s : State} {h : Nat} {v : Word}
    (hr : s.fld (SH_CTRL h) 15 14 = 1 ∨ s.shSync h = false ∨ s.shCycleRevs h ≤ bitsOf v 3 0) :
    s.cycleSet h v = s.raise (SH_STATUS h) 11 := by
  refine if_neg fun hc => ?_
  simp only [Bool.and_eq_true, decide_eq_true_eq] at hc
  obtain ⟨⟨hph, hsy⟩, hv⟩ := hc
  rcases hr with hr | hr | hr
  · exact hph hr
  · exact absurd hsy (by rw [hr]; decide)
  · omega

theorem State.cycleRevStep_forward {s : State} {h : Nat} (hn : s.shCycleRevs h ≠ 0)
    (hd : 0 < (hiWord (s.shPos h) - (s.shaft h).cycleSeen).toInt) :
    s.cycleRevStep h false = s.setShaft h { s.shaft h with
      cycleRev := ((s.shaft h).cycleRev + 1) % s.shCycleRevs h, cycleSeen := (s.shaft h).cycleSeen + 1 } := by
  simp only [State.cycleRevStep, hn, hd, if_false, Bool.not_false, Bool.true_and, decide_true, if_true]

theorem State.cycleRevStep_reverse {s : State} {h : Nat} (hn : s.shCycleRevs h ≠ 0)
    (hd : (hiWord (s.shPos h) - (s.shaft h).cycleSeen).toInt < 0) :
    s.cycleRevStep h true = s.setShaft h { s.shaft h with
      cycleRev := ((s.shaft h).cycleRev + s.shCycleRevs h - 1) % s.shCycleRevs h, cycleSeen := (s.shaft h).cycleSeen - 1 } := by
  simp only [State.cycleRevStep, hn, hd, if_false, Bool.not_true, Bool.false_and, Bool.false_eq_true, Bool.true_and, decide_true, if_true]

theorem exec_cycleRevStep (s : State) (h : Fin 16) (rev : Bool) (hc : s.clocked) :
    exec (.cycleRevStep h rev) s = .next (s.cycleRevStep h rev) :=
  congrArg Host.Outcome.next (s.onTclk_clocked _ hc)

end Sys2Proof.Machine

namespace Sys2Proof.Proofs

open Sys2Proof.Machine Sys2Proof.Machine.Reg

/-- A due estimate takes effect, and EST_N reports it (R17). -/
theorem estimatePublication_takes_effect (h : Fin 16) (s : State) (u : Tick) (e : Estimate) (rest : List (Tick × Estimate))
    (hc : s.clocked) (hn : (s.shaft h).next = (u, e) :: rest) (hr : s.reached u = true) :
    ∃ t, exec (.estimatePublication h) s = .next t ∧ (t.shaft h).est = e ∧ (t.shaft h).next = rest ∧
      t.fld (SH_STATUS h) 9 8 = e.n % 4 := by
  have hk := State.published_keepsShafts_publish hn hr
  refine ⟨_, exec_estimatePublication s h hc, ?_, ?_, ?_⟩
  · rw [hk.shaft h, s.shaft_published]
  · rw [hk.shaft h, s.shaft_published]
  · rw [State.fld, hk.status h]
    exact s.estN_published h e rest

/-- A due history entry is written, HIST_WR steps, and the entry is done with (R149). -/
theorem historyWrite_writes_entry (h : Fin 16) (s : State) (u : Tick) (w : Word) (rest : List (Tick × Word)) (hc : s.clocked)
    (hh : (s.shaft h).history = (u, w) :: rest) (hr : s.reached u = true) (hl : s.fld (HIST_CTRL h) 4 0 ≠ 0)
    (hp : s.resPoisoned (s.histBase h + 4 * ((s.reg (HIST_WR h)).toNat % 2 ^ s.histLog h)) 4 = false) :
    ∃ t, exec (.historyWrite h) s = .next t ∧
      t.resRead (s.histBase h + 4 * ((s.reg (HIST_WR h)).toNat % 2 ^ s.histLog h)) 4 = w.toNat ∧
      t.reg (HIST_WR h) = s.reg (HIST_WR h) + 1 ∧ (t.shaft h).history = rest := by
  refine ⟨_, exec_historyWrite s h hc, ?_⟩
  rw [State.historyWrite_entry hh hr hl hp, State.resRead_resWrite_self, Nat.mod_eq_of_lt (show w.toNat < 256 ^ 4 from w.isLt)]
  simp

/-- DIR takes the direction input once it has held its filter time (R139). -/
theorem directionChange_takes_input (h : Fin 16) (s : State) (u : Tick) (hc : s.clocked) (hen : s.shEn h = true)
    (hw : s.shWheel h = true) (hsrc : s.dirSrc h = 1) (hu : (s.shaft h).dirSince = some u)
    (hr : s.reached (u + BitVec.ofNat 64 (s.shFilt h)) = true) :
    ∃ t, exec (.directionChange h) s = .next t ∧ t.shRev h = s.dirInput h s.mt ∧ (t.shaft h).dirSince = none := by
  refine ⟨_, exec_directionChange s h hc, ?_⟩
  rw [State.directionChange_input hen hw hsrc hu hr]
  exact ⟨State.shRev_setDir _ h _, by rw [State.dirSince_setDir, State.shaft_setShaft_self]⟩

/-- A marker that the cycle has makes CYCLE_VALID (R143). -/
theorem marker_makes_cycle_valid (h : Fin 16) (st : Stamp) (s : State) (hc : s.clocked) (hph : s.fld (SH_CTRL h) 15 14 = 1)
    (hen : s.shEn h = true) (hsy : s.shSync h = true) (hn : 1 < s.shCycleRevs h) (he : s.markerEdge h st = true)
    (hv : s.fld (MARKER_CFG h) 3 0 < s.shCycleRevs h) :
    ∃ t, exec (.marker h st) s = .next t ∧ t.shCycleValid h = true ∧ (t.shaft h).cycleSeen = hiWord (s.shPos h) := by
  refine ⟨_, exec_marker s h st hc, ?_⟩
  rw [State.marker_taken hph hen hsy hn he hv]
  exact ⟨State.shCycleValid_setCycle _ h _ _, by rw [State.shaft_setCycle, State.shPos_markerCounted]⟩

/-- CYCLE_SET with a revolution that the cycle has makes CYCLE_VALID (R144). -/
theorem cycleSet_makes_cycle_valid (h : Fin 16) (v : Word) (s : State) (ha : s.accepts (CYCLE_SET h) v)
    (hph : s.fld (SH_CTRL h) 15 14 ≠ 1) (hsy : s.shSync h = true) (hv : bitsOf v 3 0 < s.shCycleRevs h) :
    ∃ t, exec (.cycleSet h v) s = .next t ∧ t.shCycleValid h = true ∧ (t.shaft h).cycleRev = bitsOf v 3 0 := by
  refine ⟨_, exec_cycleSet h ha, ?_⟩
  rw [State.cycleSet_taken (s := s.noteHost (CYCLE_SET h)) hph hsy hv]
  exact ⟨State.shCycleValid_setCycle _ h _ _, by rw [State.shaft_setCycle]; exact State.cycleNow_present _ h hv⟩

/-- Settles O30: publication and history, then the three sources of DIR, then the marker, CYCLE_SET and the steps of CYCLE_REV. -/
theorem estimatesFollowDirectionAndCycle : Obligations.EstimatesFollowDirectionAndCycle := by
  refine ⟨⟨estimatePublication_takes_effect, historyWrite_writes_entry, fun h s u w rest hc hh hr hl => ?_⟩,
    directionChange_takes_input, fun h s hc hen hsrc hw => ?_, fun h s hc hen hlo hhi => ?_, marker_makes_cycle_valid,
    cycleSet_makes_cycle_valid, fun h v s ha hr => ?_, fun h s hc hn hd => ?_, fun h s hc hn hd => ?_⟩
  · rw [exec_historyWrite s h hc, State.historyWrite_off hh hr hl]
  · exact ⟨_, exec_directionChange s h hc, by rw [State.directionChange_generator hen hsrc hw, State.shRev_setDir]⟩
  · exact ⟨_, exec_directionChange s h hc, by rw [State.directionChange_interface hen hlo hhi, State.shRev_setDir]⟩
  · rw [exec_cycleSet h ha, State.cycleSet_refused (s := s.noteHost (CYCLE_SET h)) hr]
  · rw [exec_cycleRevStep s h false hc, State.cycleRevStep_forward hn hd]
  · rw [exec_cycleRevStep s h true hc, State.cycleRevStep_reverse hn hd]

end Sys2Proof.Proofs
end

section
/-!
PROOFS. The generator's working values, the writes of SH_CTRL and of the geometry, and the shaft snapshot (R37, R124, R148, R151): what each
operation does to the shaft and to its registers, then the statement about them.
-/

namespace Sys2Proof.Machine

open Reg

/-! ### The generator (R37, R148) -/

/-- The generator's STALLED, with its events, is no part of the shaft's record. -/
theorem State.genStalled_shafts (s : State) (h : Nat) : (s.genStalled h).shafts = s.shafts := by
  have hevents (t : State) : (((t.shaftEvent h 3).weirShaftStall h).swapFreeze h).shafts = t.shafts := by
    have hevent : KeepsShafts t (t.shaftEvent h 3) := keepsShafts_ite (.of_eq rfl rfl) (.refl t)
    have hstall : KeepsShafts (t.shaftEvent h 3) ((t.shaftEvent h 3).weirShaftStall h) :=
      (State.refreeze_keepsShafts _ h).trans (State.abortEvents_keepsShafts _ h _)
    exact ((hevent.trans hstall).trans (State.swapFreeze_keepsShafts _ h)).shafts
  unfold State.genStalled
  dsimp only
  split
  · rfl
  · split
    · exact hevents _
    · rfl

theorem State.shaft_genStalled (s : State) (h k : Nat) : (s.genStalled h).shaft k = s.shaft k := by
  rw [State.shaft, s.genStalled_shafts, State.shaft]

/-- The shaft's record once GEN_TARGET and GEN_ACC are its working values. -/
theorem State.shaft_genTake (s : State) (h : Nat) (load : Bool) :
    (s.genTake h load).shaft h = { s.shaft h with
      genTarget := (s.genTargetWord h).toInt * 2 ^ 31
      genAcc := (s.pair (GEN_ACC_LO h) (GEN_ACC_HI h)).toInt.natAbs
      genOmega := if load then (s.genTargetWord h).toInt * 2 ^ 31 else (s.shaft h).genOmega } := by
  have hstalled (t : State) : (if t.shGenerator h then t.genStalled h else t).shaft h = t.shaft h := by
    split
    · exact t.shaft_genStalled h h
    · rfl
  exact (hstalled _).trans (s.shaft_setShaft_self h _)

/-- A write of LOAD or APPLY with a target inside Q16.32. -/
theorem State.genWrite_taken {s : State} {h : Nat} {v : Word} (hv : bitsOf v 1 0 ≠ 0) (hok : s.genTargetOk h = true) :
    s.genWrite h v = s.genTake h (bitOf v 1) := by
  simp [State.genWrite, hv, hok]

/-- A write of LOAD or APPLY with a target outside it. -/
theorem State.genWrite_refused {s : State} {h : Nat} {v : Word} (hv : bitsOf v 1 0 ≠ 0) (hok : s.genTargetOk h = false) :
    s.genWrite h v = s.raise (SH_STATUS h) 11 := by
  simp [State.genWrite, hv, hok]

theorem State.genTargetReached_arrives {s : State} {h : Nat} (hg : s.shGenerator h = true) (ha : (s.shaft h).genArrives = true) :
    s.genTargetReached h = (s.setShaft h { s.shaft h with genOmega := (s.shaft h).genTarget }).genStalled h := by
  simp [State.genTargetReached, hg, ha]

theorem exec_genApply {s : State} (h : Fin 16) {v : Word} (ha : s.accepts (GEN_CTRL h) v) :
    exec (.genApply h v) s = .next ((s.noteHost (GEN_CTRL h)).genWrite h v) :=
  congrArg Host.Outcome.next (s.hostWrite_accepts _ ha)

theorem exec_genLoad {s : State} (h : Fin 16) {v : Word} (ha : s.accepts (GEN_CTRL h) v) :
    exec (.genLoad h v) s = .next ((s.noteHost (GEN_CTRL h)).genWrite h v) :=
  congrArg Host.Outcome.next (s.hostWrite_accepts _ ha)

theorem exec_genTargetReached (s : State) (h : Fin 16) (hc : s.clocked) :
    exec (.genTargetReached h) s = .next (s.genTargetReached h) :=
  congrArg Host.Outcome.next (s.onTclk_clocked _ hc)

/-- Bit 1 of a word is 1 exactly where bits 1..0 are 2 or 3. -/
theorem bitOf_one_eq (v : Word) : bitOf v 1 = decide (2 ≤ bitsOf v 1 0) := by
  have hbit : (bitsOf v 1 0).testBit 1 = bitOf v 1 := by rw [testBit_bitsOf]; rfl
  have hlt : bitsOf v 1 0 < 4 := bitsOf_lt v 1 0
  rw [← hbit]
  generalize bitsOf v 1 0 = n at hlt
  revert n
  decide

/-! ### Writes of SH_CTRL and of the geometry (R124) -/

/-- SH_CTRL as a write of `v` would leave it. -/
def State.shCtrlWord (s : State) (h : Nat) (v : Word) : Word := mergeWord (s.reg (SH_CTRL h)) v 0x00FFFF71#32

theorem exec_shCtrlWrite {s : State} (h : Fin 16) {off : Nat} {v : Word} (ha : s.accepts (SH_CTRL h + off) v) :
    exec (.shCtrlWrite h off v) s = .next ((s.noteHost (SH_CTRL h + off)).shWrite h off v) :=
  congrArg Host.Outcome.next (s.hostWrite_accepts _ ha)

/-- At offset 0 of a shaft stands SH_CTRL. -/
theorem State.shWrite_ctrl (s : State) (h : Nat) (v : Word) :
    s.shWrite h 0 v = s.shCtrl h v (s.ifaceRef (bitsOf v 6 4) (bitsOf v 11 8)) := by
  rw [State.shWrite, State.shCtrlWrite, if_pos rfl]

theorem State.shWrite_geometry (s : State) {h off : Nat} (v : Word) {mask : Word} (ho : off ≠ 0) (hg : shGeometry off = some mask) :
    s.shWrite h off v = if s.shEn h = true then s.raise (SH_STATUS h) 11
      else s.setReg (0x90000 + h * 0x1000 + off) (mergeWord (s.reg (0x90000 + h * 0x1000 + off)) v mask) := by
  simp only [State.shWrite, State.shCtrlWrite, if_neg ho, hg]

/-- A write that changes a locked field while EN is 1, before or after it. -/
theorem State.shCtrl_locked {s : State} {h : Nat} {v : Word} (valid : Option Int)
    (hd : (s.reg (SH_CTRL h) ^^^ s.shCtrlWord h v) &&& 0x001FFF70#32 ≠ 0)
    (hen : s.bit (SH_CTRL h) 0 = true ∨ (s.shCtrlWord h v).getLsbD 0 = true) :
    s.shCtrl h v valid = s.raise (SH_STATUS h) 11 := by
  refine if_pos ?_
  rw [Bool.and_eq_true, Bool.or_eq_true]
  exact ⟨bne_iff_ne.2 hd, hen⟩

/-- A write of a shaft that is no wheel, with EN = 0 before and after it: the word is taken, and CYCLE_REV stays below CYCLE_REVS. -/
theorem State.shCtrl_stopped {s : State} {h : Nat} {v : Word} (valid : Option Int) (hold : s.bit (SH_CTRL h) 0 = false)
    (hnew : (s.shCtrlWord h v).getLsbD 0 = false) (hsrc : bitsOf (s.shCtrlWord h v) 6 4 ≠ 0) :
    s.shCtrl h v valid = (s.setReg (SH_CTRL h) (s.shCtrlWord h v)).setShaft h
      { s.shaft h with cycleRev := (s.shaft h).cycleRev % max 1 (bitsOf (s.shCtrlWord h v) 20 16) } := by
  have hrevs : (s.setReg (SH_CTRL h) (s.shCtrlWord h v)).shCycleRevs h = bitsOf (s.shCtrlWord h v) 20 16 := by
    rw [State.shCycleRevs, State.fld, State.reg_setReg_self]
  have hwheel (c : Shaft) : ((s.setReg (SH_CTRL h) (s.shCtrlWord h v)).setShaft h c).shWheel h = false := by
    rw [State.shWheel, State.shSrc, State.fld, State.reg_setShaft, State.reg_setReg_self]
    exact beq_false_of_ne hsrc
  have hword : mergeWord (s.reg (SH_CTRL h)) v 0x00FFFF71#32 = s.shCtrlWord h v := rfl
  have hen : (s.reg (SH_CTRL h)).getLsbD 0 = false := hold
  simp only [State.shCtrl, hword, hen, hnew, hrevs, hwheel, State.shaft_setReg, Bool.or_self, Bool.and_false, Bool.false_and,
    Bool.false_eq_true, if_false]

/-! ### The snapshot (R151) -/

theorem exec_shaftSnapTake {s : State} (h : Fin 16) {v : Word} (ha : s.accepts (SNAP_CTRL h) v) :
    exec (.shaftSnapTake h v) s = .next ((s.noteHost (SNAP_CTRL h)).shaftSnap h v) :=
  congrArg Host.Outcome.next (s.hostWrite_accepts _ ha)

/-- The capture of a shaft does not wait for the end of the BCLK cycle. -/
theorem State.runTakes_shaft {s : State} {h : Nat} (ht : s.takes = [.shaft h]) :
    s.runTakes = ({ s with takes := [] } : State).takeShaft h := by
  simp [State.runTakes, ht, Take.late, State.runTake]

/-- Registers at different offsets of a shaft's block are different registers. -/
theorem shaftReg_ne {a b : Nat} (hab : a ≠ b) (h : Nat) : a + h * 0x1000 ≠ b + h * 0x1000 := by omega

theorem State.pair_setReg_ne (s : State) {lo hi a : Nat} (v : Word) (hlo : lo ≠ a) (hhi : hi ≠ a) :
    (s.setReg a v).pair lo hi = s.pair lo hi := by
  rw [State.pair, State.reg_setReg_ne _ _ hlo, State.reg_setReg_ne _ _ hhi, State.pair]

theorem State.pair_setPair_ne (s : State) {lo hi a b : Nat} (v : BitVec 64) (hla : lo ≠ a) (hlb : lo ≠ b) (hha : hi ≠ a) (hhb : hi ≠ b) :
    (s.setPair a b v).pair lo hi = s.pair lo hi := by
  rw [State.setPair, State.pair_setReg_ne _ _ hlb hhb, State.pair_setReg_ne _ _ hla hha]

/-- A saturation is reported in SH_STATUS alone (R39). -/
theorem State.reg_noteSat_ne (s : State) {h a : Nat} (b : Bool) (ha : a ≠ SH_STATUS h) : (s.noteSat h b).reg a = s.reg a := by
  unfold State.noteSat
  split
  · exact State.reg_setReg_ne _ _ ha
  · rfl

theorem State.noteSat_shafts (s : State) (h : Nat) (b : Bool) : (s.noteSat h b).shafts = s.shafts := by
  unfold State.noteSat; split <;> rfl

theorem State.noteSat_mt (s : State) (h : Nat) (b : Bool) : (s.noteSat h b).mt = s.mt := by
  unfold State.noteSat; split <;> rfl

theorem State.shPos_noteSat (s : State) (h : Nat) (b : Bool) : (s.noteSat h b).shPos h = s.shPos h := by
  refine State.shPos_congr (s.reg_noteSat_ne b (shaftReg_ne (by decide) h)) ?_ (s.noteSat_mt h b)
  rw [State.shaft, s.noteSat_shafts, State.shaft]

/-- Position, velocity, acceleration and machine time in the snapshot registers of shaft `h`. -/
def State.laySnap (s : State) (h : Nat) (pos vel acc mt : BitVec 64) : State :=
  (((s.setPair (SNAP_POS_LO h) (SNAP_POS_HI h) pos).setPair (SNAP_VEL_LO h) (SNAP_VEL_HI h) vel).setPair
    (SNAP_ACC_LO h) (SNAP_ACC_HI h) acc).setPair (SH_SNAP_MT_LO h) (SH_SNAP_MT_HI h) mt

theorem State.laySnap_shafts (s : State) (h : Nat) (pos vel acc mt : BitVec 64) : (s.laySnap h pos vel acc mt).shafts = s.shafts := by
  simp only [State.laySnap, State.setPair_shafts]

/-- The pairs of the snapshot are different registers, and none of them is SNAP_SEQ. -/
theorem State.laySnap_shows (s : State) (h : Nat) (pos vel acc mt : BitVec 64) :
    (s.laySnap h pos vel acc mt).pair (SNAP_POS_LO h) (SNAP_POS_HI h) = pos ∧
      (s.laySnap h pos vel acc mt).pair (SNAP_VEL_LO h) (SNAP_VEL_HI h) = vel ∧
      (s.laySnap h pos vel acc mt).pair (SH_SNAP_MT_LO h) (SH_SNAP_MT_HI h) = mt ∧
      (s.laySnap h pos vel acc mt).reg (SNAP_SEQ h) = s.reg (SNAP_SEQ h) := by
  refine ⟨?_, ?_, ?_, ?_⟩ <;>
    simp (disch := omega) only [State.laySnap, State.pair_setPair_ne, State.pair_setPair_self, State.reg_setPair_ne, SNAP_POS_LO,
      SNAP_POS_HI, SNAP_VEL_LO, SNAP_VEL_HI, SNAP_ACC_LO, SNAP_ACC_HI, SH_SNAP_MT_LO, SH_SNAP_MT_HI, SNAP_SEQ]

/-- What a snapshot writes after its pairs: SNAP_INFO, and SNAP_SEQ one up. -/
def State.countSnap (s : State) (h : Nat) (info : Word) : State :=
  (s.setReg (SNAP_INFO h) info).setFld (SNAP_SEQ h) 15 0 ((s.setReg (SNAP_INFO h) info).fld (SNAP_SEQ h) 15 0 + 1)

theorem State.countSnap_shafts (s : State) (h : Nat) (info : Word) : (s.countSnap h info).shafts = s.shafts := by
  rw [State.countSnap, State.setFld_shafts, State.setReg_shafts]

theorem State.seq_countSnap (s : State) (h : Nat) (info : Word) :
    (s.countSnap h info).fld (SNAP_SEQ h) 15 0 = (s.fld (SNAP_SEQ h) 15 0 + 1) % 65536 := by
  have hne : SNAP_SEQ h ≠ SNAP_INFO h := shaftReg_ne (by decide) h
  rw [State.countSnap, State.fld_setFld_self _ _ _ _ _ (by decide), State.fld, State.reg_setReg_ne _ _ hne, State.fld]
  rfl

theorem State.pairs_countSnap (s : State) (h : Nat) (info : Word) :
    (s.countSnap h info).pair (SNAP_POS_LO h) (SNAP_POS_HI h) = s.pair (SNAP_POS_LO h) (SNAP_POS_HI h) ∧
      (s.countSnap h info).pair (SNAP_VEL_LO h) (SNAP_VEL_HI h) = s.pair (SNAP_VEL_LO h) (SNAP_VEL_HI h) ∧
      (s.countSnap h info).pair (SH_SNAP_MT_LO h) (SH_SNAP_MT_HI h) = s.pair (SH_SNAP_MT_LO h) (SH_SNAP_MT_HI h) := by
  refine ⟨?_, ?_, ?_⟩ <;>
    simp (disch := omega) only [State.countSnap, State.setFld, State.pair_setReg_ne, SNAP_POS_LO, SNAP_POS_HI, SNAP_VEL_LO, SNAP_VEL_HI,
      SH_SNAP_MT_LO, SH_SNAP_MT_HI, SNAP_INFO, SNAP_SEQ]

/-- The state in which the pairs of a shaft's snapshot stand. -/
def State.snapped (s : State) (h : Nat) : State :=
  (s.noteSat h (s.shMotion h).2.2).laySnap h (s.shPos h) (bvInt 64 (s.shMotion h).1) (bvInt 64 (s.shMotion h).2.1) s.mt

theorem State.takeShaft_eq (s : State) (h : Nat) : s.takeShaft h = (s.snapped h).countSnap h ((s.snapped h).snapInfo h) := by
  rw [State.takeShaft, State.shPos_noteSat, State.setPair_mt, State.setPair_mt, State.setPair_mt, State.noteSat_mt]
  rfl

/-- What the snapshot of a shaft shows of the state in which it is taken. -/
theorem State.takeShaft_shows (s : State) (h : Nat) :
    (s.takeShaft h).pair (SNAP_POS_LO h) (SNAP_POS_HI h) = s.shPos h ∧
      (s.takeShaft h).pair (SNAP_VEL_LO h) (SNAP_VEL_HI h) = bvInt 64 (s.shMotion h).1 ∧
      (s.takeShaft h).pair (SH_SNAP_MT_LO h) (SH_SNAP_MT_HI h) = s.mt ∧
      (s.takeShaft h).fld (SNAP_SEQ h) 15 0 = (s.fld (SNAP_SEQ h) 15 0 + 1) % 65536 ∧
      (s.takeShaft h).shafts = s.shafts := by
  obtain ⟨hpos, hvel, hmt, hseq⟩ := (s.noteSat h (s.shMotion h).2.2).laySnap_shows h (s.shPos h) (bvInt 64 (s.shMotion h).1)
    (bvInt 64 (s.shMotion h).2.1) s.mt
  have hcount : (s.noteSat h (s.shMotion h).2.2).reg (SNAP_SEQ h) = s.reg (SNAP_SEQ h) :=
    s.reg_noteSat_ne _ (shaftReg_ne (by decide) h)
  obtain ⟨hpos', hvel', hmt'⟩ := (s.snapped h).pairs_countSnap h ((s.snapped h).snapInfo h)
  rw [s.takeShaft_eq h]
  refine ⟨hpos'.trans hpos, hvel'.trans hvel, hmt'.trans hmt, ?_, ?_⟩
  · rw [State.seq_countSnap, State.fld, State.snapped, hseq, hcount, State.fld]
  · rw [State.countSnap_shafts, State.snapped, State.laySnap_shafts, State.noteSat_shafts]

end Sys2Proof.Machine

namespace Sys2Proof.Proofs

open Sys2Proof.Machine Sys2Proof.Machine.Reg

/-- APPLY without LOAD takes the working values and leaves the velocity (R148). -/
theorem genApply_takes_working_values (h : Fin 16) (v : Word) (s : State) (ha : s.accepts (GEN_CTRL h) v) (hv : bitsOf v 1 0 = 1)
    (hok : s.genTargetOk h = true) :
    ∃ t, exec (.genApply h v) s = .next t ∧
      (t.shaft h).genTarget = (s.pair (GEN_TARGET_LO h) (GEN_TARGET_HI h)).toInt * 2 ^ 31 ∧
      (t.shaft h).genAcc = (s.pair (GEN_ACC_LO h) (GEN_ACC_HI h)).toInt.natAbs ∧ (t.shaft h).genOmega = (s.shaft h).genOmega := by
  have hload : bitOf v 1 = false := by rw [bitOf_one_eq, hv]; rfl
  refine ⟨_, exec_genApply h ha, ?_⟩
  rw [State.genWrite_taken (s := s.noteHost (GEN_CTRL h)) (by omega) hok, hload, State.shaft_genTake]
  exact ⟨rfl, rfl, rfl⟩

/-- LOAD takes the working values, and the target as the velocity (R148). -/
theorem genLoad_sets_velocity (h : Fin 16) (v : Word) (s : State) (ha : s.accepts (GEN_CTRL h) v) (hv : v.getLsbD 1 = true)
    (hok : s.genTargetOk h = true) :
    ∃ t, exec (.genLoad h v) s = .next t ∧
      (t.shaft h).genTarget = (s.pair (GEN_TARGET_LO h) (GEN_TARGET_HI h)).toInt * 2 ^ 31 ∧
      (t.shaft h).genAcc = (s.pair (GEN_ACC_LO h) (GEN_ACC_HI h)).toInt.natAbs ∧ (t.shaft h).genOmega = (t.shaft h).genTarget := by
  have hcmd : bitsOf v 1 0 ≠ 0 := by
    have htwo : 2 ≤ bitsOf v 1 0 := of_decide_eq_true ((bitOf_one_eq v).symm.trans hv)
    omega
  refine ⟨_, exec_genLoad h ha, ?_⟩
  rw [State.genWrite_taken (s := s.noteHost (GEN_CTRL h)) hcmd hok, bitOf, hv, State.shaft_genTake]
  exact ⟨rfl, rfl, rfl⟩

/-- A write that changes a locked field of SH_CTRL with EN = 1 before or after it is refused (R124). -/
theorem shCtrlWrite_refuses_locked_change (h : Fin 16) (v : Word) (s : State) (ha : s.accepts (SH_CTRL h) v)
    (hd : (s.reg (SH_CTRL h) ^^^ s.shCtrlWord h v) &&& 0x001FFF70#32 ≠ 0)
    (hen : s.bit (SH_CTRL h) 0 = true ∨ (s.shCtrlWord h v).getLsbD 0 = true) :
    exec (.shCtrlWrite h 0 v) s = .next ((s.noteHost (SH_CTRL h)).raise (SH_STATUS h) 11) := by
  rw [exec_shCtrlWrite (off := 0) h ha, State.shWrite_ctrl]
  exact congrArg Host.Outcome.next (State.shCtrl_locked (s := s.noteHost (SH_CTRL h)) _ hd hen)

/-- A write of SH_CTRL with EN = 0 before and after it is taken (R124, R142). -/
theorem shCtrlWrite_taken_while_stopped (h : Fin 16) (v : Word) (s : State) (ha : s.accepts (SH_CTRL h) v)
    (hold : s.bit (SH_CTRL h) 0 = false) (hnew : (s.shCtrlWord h v).getLsbD 0 = false) (hsrc : bitsOf (s.shCtrlWord h v) 6 4 ≠ 0) :
    exec (.shCtrlWrite h 0 v) s = .next (((s.noteHost (SH_CTRL h)).setReg (SH_CTRL h) (s.shCtrlWord h v)).setShaft h
      { s.shaft h with cycleRev := (s.shaft h).cycleRev % max 1 (bitsOf (s.shCtrlWord h v) 20 16) }) := by
  rw [exec_shCtrlWrite (off := 0) h ha, State.shWrite_ctrl]
  exact congrArg Host.Outcome.next (State.shCtrl_stopped (s := s.noteHost (SH_CTRL h)) _ hold hnew hsrc)

/-- Settles O31: the four rules of the generator, then the writes of the geometry and of SH_CTRL, then the snapshot. -/
theorem generatorAndShaftRegistersHoldTheirRules : Obligations.GeneratorAndShaftRegistersHoldTheirRules := by
  refine ⟨⟨genApply_takes_working_values, genLoad_sets_velocity, fun h v s ha hv hok => ?_, fun h s hc hg harr => ?_⟩,
    fun h off v mask s ha ho hm => ?_, shCtrlWrite_refuses_locked_change, shCtrlWrite_taken_while_stopped, fun h v s ha hv => ?_,
    fun h s ht => ⟨_, rfl, ?_⟩⟩
  · rw [exec_genApply h ha, exec_genLoad h ha, State.genWrite_refused (s := s.noteHost (GEN_CTRL h)) hv hok]
    exact ⟨rfl, rfl⟩
  · refine ⟨_, exec_genTargetReached s h hc, ?_⟩
    rw [State.genTargetReached_arrives hg harr, State.shaft_genStalled, State.shaft_setShaft_self]
  · exact (exec_shCtrlWrite h ha).trans (congrArg Host.Outcome.next (State.shWrite_geometry _ v ho hm))
  · rw [exec_shaftSnapTake h ha, State.shaftSnap, bitOf, hv, if_pos rfl]
  · rw [State.runTakes_shaft ht]
    exact State.takeShaft_shows _ h

end Sys2Proof.Proofs
end

section
/-!
PROOFS. What the output logic, the counters and the pads leave alone (R43 to R82): the machine time, the writes of the tick, the registers
of other blocks and SYNC_SEEN.
-/

namespace Sys2Proof.Machine

open Reg

/-! ### The registers of a channel -/

/-- Registers at different offsets of a channel's block are different registers. -/
theorem chanReg_ne {a b : Nat} (hab : a ≠ b) (k : Nat) :
    a + k / 16 * 0x100000 + k % 16 * 0x400 ≠ b + k / 16 * 0x100000 + k % 16 * 0x400 := by omega

/-- Offsets in a channel's block of what the output logic writes: OUT_STATUS, PT_EMIT and PT_STATUS. -/
def outputOffset (o : Nat) : Prop := o = 0x70 ∨ o = 0x88 ∨ o = 0x94

/-- Offsets of what a copy of OUT_MODE writes: OUT_CTRL and the output's registers. -/
def modeOffset (o : Nat) : Prop := o = 0x60 ∨ outputOffset o

/-- Offsets of what the copies of PRESC and of the compares write: PRESCALE, CMP_CFG and CMP_ACT_x. -/
def compareOffset (o : Nat) : Prop := o = 0x08 ∨ o = 0x30 ∨ 0x40 ≤ o ∧ o < 0x50

/-- Offsets of what a counting step or a period end writes: those of the preloads' copies, CH_STATUS, COUNT, PERIOD_ACT and CMP_STATUS. -/
def counterOffset (o : Nat) : Prop := compareOffset o ∨ modeOffset o ∨ o = 0x04 ∨ o = 0x10 ∨ o = 0x14 ∨ o = 0x34

/-! ### What leaves the other registers as they are -/

/-- `t` stands in the tick of `s`, no register has taken a write, SYNC_SEEN of every channel is as it was, and so is every register but those
at an offset of `P` in a channel's block. -/
structure ChangesOnly (P : Nat → Prop) (s t : State) : Prop where
  mt : t.mt = s.mt
  wroteAlready : ∀ a, t.wroteAlready a = s.wroteAlready a
  regs : ∀ a, ¬P (a % 0x400) → t.reg a = s.reg a
  syncSeen : ∀ k, t.bit (OUT_STATUS k) 2 = s.bit (OUT_STATUS k) 2

namespace ChangesOnly

variable {P Q : Nat → Prop} {r s t : State}

theorem refl (s : State) : ChangesOnly P s s := ⟨rfl, fun _ => rfl, fun _ _ => rfl, fun _ => rfl⟩

theorem trans (h : ChangesOnly P r s) (h' : ChangesOnly P s t) : ChangesOnly P r t :=
  ⟨h'.mt.trans h.mt, fun a => (h'.wroteAlready a).trans (h.wroteAlready a), fun a ha => (h'.regs a ha).trans (h.regs a ha),
    fun k => (h'.syncSeen k).trans (h.syncSeen k)⟩

theorem mono (h : ChangesOnly P s t) (hPQ : ∀ {o}, P o → Q o) : ChangesOnly Q s t :=
  ⟨h.mt, h.wroteAlready, fun a ha => h.regs a (ha ∘ hPQ), h.syncSeen⟩

/-- What the output logic does is part of what a counter does. -/
theorem output (h : ChangesOnly counterOffset r s) (h' : ChangesOnly outputOffset s t) : ChangesOnly counterOffset r t :=
  h.trans (h'.mono fun ho => .inr (.inl (.inr ho)))

/-- What a copy of the compares does is part of what a counter does. -/
theorem compare (h : ChangesOnly counterOffset r s) (h' : ChangesOnly compareOffset s t) : ChangesOnly counterOffset r t :=
  h.trans (h'.mono .inl)

/-- What a copy of OUT_MODE does is part of what a counter does. -/
theorem mode (h : ChangesOnly counterOffset r s) (h' : ChangesOnly modeOffset s t) : ChangesOnly counterOffset r t :=
  h.trans (h'.mono fun ho => .inr (.inl ho))

/-- An update of other fields. -/
theorem of_eq (hm : t.mt = s.mt) (hr : t.regs = s.regs) (ht : t.wroteTick = s.wroteTick) (hw : t.wrote = s.wrote) : ChangesOnly P s t where
  mt := hm
  wroteAlready a := by rw [State.wroteAlready, hm, ht, hw, State.wroteAlready]
  regs a _ := by rw [State.reg, hr, State.reg]
  syncSeen k := by rw [State.bit, State.bit, State.reg, hr, State.reg]

theorem ite {c : Prop} [Decidable c] (h : ChangesOnly P r s) (h' : ChangesOnly P r t) : ChangesOnly P r (if c then s else t) := by
  split <;> assumption

theorem foldl {α : Type} {f : State → α → State} (l : List α) (hf : ∀ s, ∀ x ∈ l, ChangesOnly P s (f s x)) (s : State) :
    ChangesOnly P s (l.foldl f s) := by
  induction l generalizing s with
  | nil => exact refl s
  | cons x l ih => exact (hf s x List.mem_cons_self).trans (ih (fun s y hy => hf s y (List.mem_cons_of_mem x hy)) _)

theorem setReg (h : ChangesOnly P r s) {a : Nat} (v : Word) (ha : P (a % 0x400)) (hs : a % 0x400 ≠ 0x70) :
    ChangesOnly P r (s.setReg a v) := by
  refine h.trans ⟨rfl, fun _ => rfl, fun b hb => State.reg_setReg_ne _ _ (fun e => hb (e ▸ ha)), fun k => ?_⟩
  have hne : OUT_STATUS k ≠ a := by unfold OUT_STATUS; omega
  rw [State.bit, State.reg_setReg_ne _ _ hne, State.bit]

theorem setFld (h : ChangesOnly P r s) {a : Nat} (hi lo v : Nat) (ha : P (a % 0x400)) (hs : a % 0x400 ≠ 0x70) :
    ChangesOnly P r (s.setFld a hi lo v) := h.setReg _ ha hs

/-- A bit of OUT_STATUS beside SYNC_SEEN may change. -/
theorem setBit (h : ChangesOnly P r s) {a i : Nat} (b : Bool) (ha : P (a % 0x400)) (hi : i ≠ 2 ∨ a % 0x400 ≠ 0x70) :
    ChangesOnly P r (s.setBit a i b) := by
  refine h.trans ⟨rfl, fun _ => rfl, fun c hc => State.reg_setReg_ne _ _ (fun e => hc (e ▸ ha)), fun k => ?_⟩
  by_cases hk : OUT_STATUS k = a
  · have hi : 2 ≠ i := fun e => hi.elim (· e.symm) (· (by unfold OUT_STATUS at hk; omega))
    rw [hk, State.bit_setBit_ne s a b hi]
  · rw [State.bit, State.reg_setBit_ne _ _ _ hk, State.bit]

theorem raise (h : ChangesOnly P r s) {a i : Nat} (ha : P (a % 0x400)) (hi : i ≠ 2 ∨ a % 0x400 ≠ 0x70) : ChangesOnly P r (s.raise a i) :=
  (h.setBit true ha hi).trans (of_eq rfl rfl rfl rfl)

theorem raiseIf (h : ChangesOnly P r s) {a i : Nat} (c : Bool) (ha : P (a % 0x400)) (hi : i ≠ 2 ∨ a % 0x400 ≠ 0x70) :
    ChangesOnly P r (s.raiseIf c a i) := ite (h.raise ha hi) h

theorem setChan (h : ChangesOnly P r s) (k : Nat) (c : Chan) : ChangesOnly P r (s.setChan k c) := h.trans (of_eq rfl rfl rfl rfl)

theorem setWeir (h : ChangesOnly P r s) (n : Nat) (w : Weir) : ChangesOnly P r (s.setWeir n w) := h.trans (of_eq rfl rfl rfl rfl)

theorem chanEvent (h : ChangesOnly P r s) (k e : Nat) : ChangesOnly P r (s.chanEvent k e) := ite (h.trans (of_eq rfl rfl rfl rfl)) h

end ChangesOnly

/-! ### The output logic (R66 to R82) -/

theorem outputOffset_OUT_STATUS (k : Nat) : outputOffset (OUT_STATUS k % 0x400) := by unfold outputOffset OUT_STATUS; omega

theorem outputOffset_PT_EMIT (k : Nat) : outputOffset (PT_EMIT k % 0x400) ∧ PT_EMIT k % 0x400 ≠ 0x70 := by
  unfold outputOffset PT_EMIT; omega

theorem outputOffset_PT_STATUS (k : Nat) : outputOffset (PT_STATUS k % 0x400) ∧ PT_STATUS k % 0x400 ≠ 0x70 := by
  unfold outputOffset PT_STATUS; omega

theorem State.trainSkip_changes (s : State) (k : Nat) : ChangesOnly outputOffset s (s.trainSkip k) :=
  ((ChangesOnly.refl s).setReg _ (outputOffset_PT_EMIT k).1 (outputOffset_PT_EMIT k).2).setChan k _

theorem State.uncount_changes (s : State) (k : Nat) (counted : Bool) : ChangesOnly outputOffset s (s.uncount k counted) :=
  .ite (s.trainSkip_changes k) (.refl s)

theorem State.outCommand_changes (s : State) (k : Nat) (sets clears : List Stamp) (train : Bool) :
    ChangesOnly outputOffset s (s.outCommand k sets clears train) := by
  have hset (c : Chan) : ChangesOnly outputOffset s ((s.setChan k c).setBit (OUT_STATUS k) 1 false) :=
    ((ChangesOnly.refl s).setChan k c).setBit false (outputOffset_OUT_STATUS k) (.inl (by decide))
  exact .ite (.refl s) (.ite ((hset _).trans (State.trainSkip_changes _ k)) (hset _))

theorem State.commandIdle_changes (s : State) (k : Nat) : ChangesOnly outputOffset s (s.commandIdle k) := by
  have hset (c : Chan) : ChangesOnly outputOffset s ((s.setChan k c).setBit (OUT_STATUS k) 1 true) :=
    ((ChangesOnly.refl s).setChan k c).setBit true (outputOffset_OUT_STATUS k) (.inl (by decide))
  exact .ite (.refl s) ((hset _).trans (State.uncount_changes _ k _))

theorem State.trainEnd_changes (s : State) (k : Nat) (early : Bool) : ChangesOnly outputOffset s (s.trainEnd k early) := by
  obtain ⟨hpt, hne⟩ := outputOffset_PT_STATUS k
  have hflags : ChangesOnly outputOffset s (((s.setBit (PT_STATUS k) 0 false).raise (PT_STATUS k) 1).raiseIf early (PT_STATUS k) 2) :=
    (((ChangesOnly.refl s).setBit false hpt (.inr hne)).raise hpt (.inr hne)).raiseIf early hpt (.inr hne)
  exact ((hflags.setChan k _).chanEvent k 1).trans (State.commandIdle_changes _ k)

theorem State.outStep_changes (s : State) (k : Nat) (periodEnd peak : Bool) (xs : List Nat) :
    ChangesOnly outputOffset s (s.outStep k periodEnd peak xs) := by
  refine .ite (.refl s) ?_
  dsimp only
  split
  · exact .ite (s.outCommand_changes ..) (s.outCommand_changes ..)
  · exact s.outCommand_changes ..
  · exact .ite (s.outCommand_changes ..) (.refl s)
  · exact .refl s

theorem State.trainPeriod_changes (s : State) (k : Nat) (xs : List Nat) : ChangesOnly outputOffset s (s.trainPeriod k xs) := by
  obtain ⟨hpt, hne⟩ := outputOffset_PT_EMIT k
  have hstep : ChangesOnly outputOffset s ((s.setChan k { s.chan k with ptRemain := (s.chan k).ptRemain - 1 }).outStep k true false xs) :=
    ((ChangesOnly.refl s).setChan k _).trans (State.outStep_changes ..)
  exact .ite (s.trainEnd_changes k _) (.ite ((hstep.setChan k _).setReg _ hpt hne) (hstep.setChan k _))

/-- A change of the mode in use writes OUT_MODE_ACT, and then what the output logic writes (R67). -/
theorem State.copyMode_changes_output (s : State) (k : Nat) :
    ChangesOnly outputOffset (s.setFld (OUT_CTRL k) 14 12 (s.fld (OUT_CTRL k) 2 0)) (s.copyMode k) :=
  .ite (((ChangesOnly.refl _).setChan k _).trans (State.trainEnd_changes _ k true))
    (.ite (.refl _) (.ite (State.commandIdle_changes _ k) (.refl _)))

theorem State.copyMode_changes (s : State) (k : Nat) : ChangesOnly modeOffset s (s.copyMode k) := by
  have hctrl : modeOffset (OUT_CTRL k % 0x400) ∧ OUT_CTRL k % 0x400 ≠ 0x70 := by unfold modeOffset OUT_CTRL; omega
  exact ((ChangesOnly.refl s).setFld _ _ _ hctrl.1 hctrl.2).trans ((s.copyMode_changes_output k).mono .inr)

/-! ### Preload copies (R49, R58, R59, R74) -/

theorem compareOffset_PRESCALE (k : Nat) : compareOffset (PRESCALE k % 0x400) ∧ PRESCALE k % 0x400 ≠ 0x70 := by
  unfold compareOffset PRESCALE; omega

theorem compareOffset_CMP_CFG (k : Nat) : compareOffset (CMP_CFG k % 0x400) ∧ CMP_CFG k % 0x400 ≠ 0x70 := by
  unfold compareOffset CMP_CFG; omega

theorem compareOffset_CMP_ACT (k : Nat) {x : Nat} (hx : x < 4) : compareOffset (CMP_ACT k x % 0x400) ∧ CMP_ACT k x % 0x400 ≠ 0x70 := by
  unfold compareOffset CMP_ACT; omega

theorem lt_four_of_mem {x : Nat} (hx : x ∈ [0, 1, 2, 3]) : x < 4 := List.mem_range.1 hx

/-- A write of CMP_ACT_x by a copy. -/
theorem State.copyCmp_changes (s : State) (k : Nat) {x : Nat} (v : Word) (hx : x ∈ [0, 1, 2, 3]) :
    ChangesOnly compareOffset s (s.setReg (CMP_ACT k x) v) := by
  obtain ⟨hact, hne⟩ := compareOffset_CMP_ACT k (lt_four_of_mem hx)
  exact (ChangesOnly.refl s).setReg v hact hne

theorem State.copyCmpCfg_changes (s : State) (k : Nat) : ChangesOnly compareOffset s (s.copyCmpCfg k) := by
  obtain ⟨hcfg, hne⟩ := compareOffset_CMP_CFG k
  refine ((ChangesOnly.refl s).setReg _ hcfg hne).trans (.foldl _ ?_ _)
  exact fun s _ hx => .ite (s.copyCmp_changes k _ hx) (.refl s)

theorem State.copyCmps_changes (s : State) (k : Nat) : ChangesOnly compareOffset s (s.copyCmps k) :=
  .foldl _ (fun s _ hx => s.copyCmp_changes k _ hx) s

/-- A copy of PRESC to PRESC_ACT. -/
theorem State.copyPresc_changes (s : State) (k v : Nat) : ChangesOnly compareOffset s (s.setFld (PRESCALE k) 31 16 v) := by
  obtain ⟨hpre, hne⟩ := compareOffset_PRESCALE k
  exact (ChangesOnly.refl s).setFld _ _ _ hpre hne

/-- A copy of PERIOD to PERIOD_ACT. -/
theorem State.copyPeriod_changes (s : State) (k : Nat) (v : Word) : ChangesOnly counterOffset s (s.setReg (PERIOD_ACT k) v) := by
  have hact : counterOffset (PERIOD_ACT k % 0x400) ∧ PERIOD_ACT k % 0x400 ≠ 0x70 := by unfold counterOffset PERIOD_ACT; omega
  exact (ChangesOnly.refl s).setReg v hact.1 hact.2

theorem State.copyPreloads_changes (s : State) (k : Nat) : ChangesOnly counterOffset s (s.copyPreloads k) := by
  have hcounts (v : Word) (p : Nat) := (s.copyPeriod_changes k v).compare (State.copyPresc_changes _ k p)
  have hcmps (v : Word) (p : Nat) := ((hcounts v p).compare (State.copyCmps_changes _ k)).compare (State.copyCmpCfg_changes _ k)
  exact ((hcmps _ _).setChan k _).mode (State.copyMode_changes _ k)

/-! ### The counter (R43 to R65) -/

theorem State.syncInput_changes (s : State) (n : Nat) (t : Tick) : ChangesOnly counterOffset s (s.syncInput n t) :=
  .ite (.refl s) ((ChangesOnly.refl s).setWeir n _)

theorem State.syncOutput_changes (s : State) (n : Nat) : ChangesOnly counterOffset s (s.syncOutput n) :=
  .ite (s.syncInput_changes _ _) (.of_eq rfl rfl rfl rfl)

theorem State.cmpMatch_changes (s : State) (k x : Nat) : ChangesOnly counterOffset s (s.cmpMatch k x) := by
  have hst : counterOffset (CMP_STATUS k % 0x400) ∧ CMP_STATUS k % 0x400 ≠ 0x70 := by unfold counterOffset CMP_STATUS; omega
  have hflags (c : Bool) : ChangesOnly counterOffset s ((s.raise (CMP_STATUS k) x).raiseIf c (CMP_STATUS k) (4 + x)) :=
    ((ChangesOnly.refl s).raise hst.1 (.inr hst.2)).raiseIf c hst.1 (.inr hst.2)
  have hconv (u : State) (c : Prop) [Decidable c] (h : ChangesOnly counterOffset s u) :
      ChangesOnly counterOffset s
        (if c then u.adcRequest (u.mt + 2) k u.now (u.fld (CH_TRIG_CFG k) 5 0) (u.bit (CH_TRIG_CFG k) 7) else u) :=
    .ite (h.trans (.of_eq rfl rfl rfl rfl)) h
  have hmatch (b : Bool) (c : Chan) := hconv _ (x = 2) ((hflags b).setChan k c)
  exact .ite ((hmatch _ _).trans (State.syncOutput_changes _ _)) (hmatch _ _)

theorem State.stopped_changes (s : State) (k : Nat) : ChangesOnly outputOffset s (s.stopped k) := by
  have hchan (c : Chan) : ChangesOnly outputOffset s (s.setChan k c) := (ChangesOnly.refl s).setChan k c
  exact .ite ((hchan _).trans (State.trainEnd_changes _ k true))
    (.ite ((hchan _).trans (State.commandIdle_changes _ k)) (hchan _))

theorem State.setCount_changes (s : State) (k : Nat) (c : Word) (down : Bool) : ChangesOnly counterOffset s (s.setCount k c down) := by
  have hcount : counterOffset (COUNT k % 0x400) ∧ COUNT k % 0x400 ≠ 0x70 := by unfold counterOffset COUNT; omega
  have hst : counterOffset (CH_STATUS k % 0x400) ∧ CH_STATUS k % 0x400 ≠ 0x70 := by unfold counterOffset CH_STATUS; omega
  exact ((ChangesOnly.refl s).setReg c hcount.1 hcount.2).setBit down hst.1 (.inr hst.2)

theorem State.compareStep_changes (s : State) (k : Nat) (peak : Bool) : ChangesOnly counterOffset s (s.compareStep k peak) :=
  (ChangesOnly.foldl _ (fun s x _ => s.cmpMatch_changes k x) s).output (State.outStep_changes ..)

theorem State.mittenPeriodEnd_changes (s : State) (k : Nat) : ChangesOnly counterOffset s (s.mittenPeriodEnd k) := by
  refine .foldl _ ?_ s
  exact fun s _ _ => .ite (.of_eq rfl rfl rfl rfl) (.refl s)

/-- The counter stops at its zero period (R51). -/
theorem State.zeroStop_changes (s : State) (k : Nat) : ChangesOnly counterOffset s ((s.setReg (COUNT k) 0).stopped k) := by
  have hcount : counterOffset (COUNT k % 0x400) ∧ COUNT k % 0x400 ≠ 0x70 := by unfold counterOffset COUNT; omega
  exact ((ChangesOnly.refl s).setReg 0 hcount.1 hcount.2).output (State.stopped_changes _ k)

theorem State.periodEnd_changes (s : State) (k : Nat) : ChangesOnly counterOffset s (s.periodEnd k) := by
  have hst : counterOffset (CH_STATUS k % 0x400) ∧ CH_STATUS k % 0x400 ≠ 0x70 := by unfold counterOffset CH_STATUS; omega
  have hwrap (c : Chan) : ChangesOnly counterOffset s (((s.setChan k c).raise (CH_STATUS k) 5).chanEvent k 0) :=
    (((ChangesOnly.refl s).setChan k c).raise hst.1 (.inr hst.2)).chanEvent k 0
  have hmatches (u : State) (xs : List Nat) : ChangesOnly counterOffset u (xs.foldl (fun s x => s.cmpMatch k x) u) :=
    .foldl _ (fun s x _ => s.cmpMatch_changes k x) u
  have hcopied := (hwrap { s.chan k with matched := 0, peaked := false, lastPeriod := some s.mt }).trans (State.copyPreloads_changes _ k)
  have hcompared (xs : List Nat) := hcopied.trans (hmatches _ xs)
  exact .ite (hcopied.trans (State.zeroStop_changes _ k))
    ((ChangesOnly.ite ((hcompared _).output (State.trainPeriod_changes _ k _)) ((hcompared _).output (State.outStep_changes ..))).trans
      (State.mittenPeriodEnd_changes _ k))

theorem State.peak_changes (s : State) (k : Nat) : ChangesOnly counterOffset s (s.peak k) := by
  have hpeak := (ChangesOnly.refl (P := counterOffset) s).setChan k { s.chan k with peaked := true, lastPeak := some s.mt }
  have hcopied := hpeak.trans (State.copyPreloads_changes _ k)
  exact .ite (.ite (hcopied.trans (State.zeroStop_changes _ k)) (hcopied.trans (State.compareStep_changes _ k true)))
    (hpeak.trans (State.compareStep_changes _ k true))

theorem State.stepCount_changes (s : State) (k : Nat) : ChangesOnly counterOffset s (s.stepCount k) := by
  have hstep (u : State) (c : Word) (down : Bool) (h : ChangesOnly counterOffset s u) :
      ChangesOnly counterOffset s ((u.setCount k c down).compareStep k false) :=
    (h.trans (u.setCount_changes k c down)).trans (State.compareStep_changes _ k false)
  refine .ite ((s.setCount_changes k 0 false).trans (State.periodEnd_changes _ k)) (.ite (.ite ?_ (.ite ?_ ?_)) ?_)
  · exact hstep _ _ true (.ite (.refl s) ((ChangesOnly.refl s).setChan k _))
  · exact (s.setCount_changes k _ false).trans (State.peak_changes _ k)
  · exact hstep s _ false (.refl s)
  · exact hstep s _ false (.refl s)

theorem State.carry_changes (s : State) (k : Nat) : ChangesOnly counterOffset s (s.carry k) :=
  .ite (((ChangesOnly.refl s).setChan (k + 1) _).trans (State.stepCount_changes _ (k + 1))) (.refl s)

/-- A restart writes only what a period end writes, in its own counter and in the one that it carries to. -/
theorem State.restart_changes (s : State) (k : Nat) : ChangesOnly counterOffset s (s.restart k) := by
  have hcount (c : Chan) : ChangesOnly counterOffset s ((s.setChan k c).setCount k 0 false) :=
    ((ChangesOnly.refl s).setChan k c).trans (State.setCount_changes _ k 0 false)
  refine .ite (.refl s) (.ite ?_ (.ite (.refl s) ?_))
  · exact ((hcount _).trans (State.compareStep_changes _ k false)).trans (State.carry_changes _ k)
  · exact ((hcount _).trans (State.periodEnd_changes _ k)).trans (State.carry_changes _ k)

end Sys2Proof.Machine
end

section
/-!
PROOFS. SYNC (R50, R84, R85): what a pulse does to the channels of its cluster and what it leaves behind, then the statement about it.
-/

namespace Sys2Proof.Machine

open Reg

/-! ### A SYNC pulse at the channels of a cluster (R50, R84) -/

theorem State.bit_raise_self (s : State) (a : Nat) {i : Nat} (h : i < 32) : (s.raise a i).bit a i = true := s.bit_setBit_self a i true h

theorem State.bit_raise_other (s : State) {a b : Nat} (i j : Nat) (h : b ≠ a) : (s.raise a i).bit b j = s.bit b j :=
  congrArg (bitOf · j) (s.reg_setReg_ne _ h)

/-- What a SYNC pulse does to channel `k`: SYNC_SEEN, and with SYNC_RST the restart. -/
def State.syncAt (s : State) (k : Nat) : State :=
  if (s.raise (OUT_STATUS k) 2).bit (CH_CTRL k) 21 then (s.raise (OUT_STATUS k) 2).restart k else s.raise (OUT_STATUS k) 2

/-- Beside SYNC_SEEN of its channel, the pulse does what a restart does. -/
theorem State.syncAt_changes (s : State) (k : Nat) : ChangesOnly counterOffset (s.raise (OUT_STATUS k) 2) (s.syncAt k) :=
  .ite (State.restart_changes _ k) (.refl _)

theorem State.syncAt_mt (s : State) (k : Nat) : (s.syncAt k).mt = s.mt :=
  (s.syncAt_changes k).mt.trans (s.raise_mt _ _)

theorem State.syncAt_seen (s : State) (k : Nat) : (s.syncAt k).bit (OUT_STATUS k) 2 = true := by
  rw [(s.syncAt_changes k).syncSeen k, s.bit_raise_self (OUT_STATUS k) (by decide)]

/-- A pulse clears no SYNC_SEEN. -/
theorem State.syncAt_keeps_seen (s : State) (j : Nat) {k : Nat} (h : s.bit (OUT_STATUS k) 2 = true) :
    (s.syncAt j).bit (OUT_STATUS k) 2 = true := by
  rw [(s.syncAt_changes j).syncSeen k]
  by_cases hk : OUT_STATUS k = OUT_STATUS j
  · rw [hk, s.bit_raise_self (OUT_STATUS j) (by decide)]
  · rw [s.bit_raise_other 2 2 hk, h]

/-- A pulse at the channels of a list leaves the time, clears no SYNC_SEEN, and sets it on each of them. -/
theorem State.foldl_syncAt {α : Type} (ch : α → Nat) (l : List α) (s : State) :
    (l.foldl (fun s j => s.syncAt (ch j)) s).mt = s.mt ∧
      ∀ k, (s.bit (OUT_STATUS k) 2 = true ∨ ∃ j ∈ l, ch j = k) → (l.foldl (fun s j => s.syncAt (ch j)) s).bit (OUT_STATUS k) 2 = true := by
  induction l generalizing s with
  | nil => simp
  | cons j l ih =>
    obtain ⟨hmt, hseen⟩ := ih (s.syncAt (ch j))
    refine ⟨hmt.trans (s.syncAt_mt _), fun k hk => hseen k ?_⟩
    rcases hk with hk | ⟨i, hi, rfl⟩
    · exact .inl (s.syncAt_keeps_seen _ hk)
    · rcases List.mem_cons.1 hi with rfl | hi
      · exact .inl (s.syncAt_seen _)
      · exact .inr ⟨i, hi, rfl⟩

/-- Each channel of a cluster is the partner of one of them. -/
theorem exists_partnerCh_eq : ∀ j < 16, ∃ i ∈ List.range 16, partnerCh i = j := by decide

/-! ### Arrival, SYNC_IN and SYNC_OUT (R84, R85) -/

/-- The pulse of tick `u` at every channel of cluster `n`, before it is forwarded. -/
def State.syncPulse (s : State) (n : Nat) (u : Tick) : State :=
  (List.range 16).foldl (fun s j => s.syncAt (n * 16 + partnerCh j))
    (s.setWeir n { s.weir n with syncDue := (s.weir n).syncDue.filter (fun t => t ≠ u) })

/-- The pulse leaves the time, and every channel of the cluster has seen it. -/
theorem State.syncPulse_seen (s : State) (n : Nat) (u : Tick) :
    (s.syncPulse n u).mt = s.mt ∧ ∀ j < 16, (s.syncPulse n u).bit (OUT_STATUS (n * 16 + j)) 2 = true := by
  obtain ⟨hmt, hseen⟩ := State.foldl_syncAt (fun j => n * 16 + partnerCh j) (List.range 16)
    (s.setWeir n { s.weir n with syncDue := (s.weir n).syncDue.filter (fun t => t ≠ u) })
  refine ⟨hmt, fun j hj => ?_⟩
  obtain ⟨i, hi, hij⟩ := exists_partnerCh_eq j hj
  exact hseen _ (.inr ⟨i, hi, by rw [hij]⟩)

/-- A pulse that has arrived is taken, and forwarded where a channel of the cluster has SYNC_FWD. -/
theorem State.syncArrival_due {s : State} {n : Nat} {u : Tick} (h : (s.weir n).syncDue.find? (fun t => s.reached t) = some u) :
    s.syncArrival n = if (List.range 16).any (fun j => (s.syncPulse n u).bit (OUT_CTRL (n * 16 + j)) 11) then
      (s.syncPulse n u).syncOutput n else s.syncPulse n u := by
  rw [State.syncArrival, h]
  rfl

theorem State.syncArrival_none {s : State} {n : Nat} (h : ∀ u ∈ (s.weir n).syncDue, s.reached u = false) : s.syncArrival n = s := by
  have hfind : (s.weir n).syncDue.find? (fun t => s.reached t) = none := List.find?_eq_none.2 fun u hu => by simp [h u hu]
  simp only [State.syncArrival, hfind]

theorem exec_syncPulseArrival (s : State) (n : Fin 24) : exec (.syncPulseArrival n) s = .next (s.onTclk (s.syncArrival n)) := rfl

theorem exec_syncInEdge (s : State) (m : Nat) (hc : s.clocked) : exec (.syncInEdge m) s = .next (s.syncInEdge m) :=
  congrArg Host.Outcome.next (s.onTclk_clocked _ hc)

theorem exec_syncOutFall (s : State) (hc : s.clocked) : exec .syncOutFall s = .next s.syncOutFall :=
  congrArg Host.Outcome.next (s.onTclk_clocked _ hc)

theorem State.syncInput_new {s : State} {n : Nat} {t : Tick} (h : t ∉ (s.weir n).syncDue) :
    s.syncInput n t = s.setWeir n { s.weir n with syncDue := (s.weir n).syncDue ++ [t] } := by
  simp [State.syncInput, h]

theorem State.syncInEdge_long (s : State) {m : Nat} (h : 2 ≤ m) : s.syncInEdge m = s.syncInput 0 (s.mt + 3) := if_pos h

/-- Whether a short pulse is taken is a free value. -/
theorem State.syncInEdge_short (s : State) {m : Nat} (h : m < 2) :
    s.syncInEdge m = if s.freeValue.getLsbD 0 then s.useFree.syncInput 0 (s.mt + 3) else s.useFree := if_neg (by omega)

theorem State.syncOutFall_reached {s : State} {r f : Stamp} {rest : List (Stamp × Stamp)} (h : s.power.syncOut = (r, f) :: rest)
    (hf : s.stampReached f = true) : s.syncOutFall = { s with power := { s.power with syncOut := rest } } := by
  simp only [State.syncOutFall, h, hf, if_true]

end Sys2Proof.Machine

namespace Sys2Proof.Proofs

open Sys2Proof.Machine Sys2Proof.Machine.Reg

/-- A pulse that has arrived is seen by every channel of its cluster. -/
theorem syncPulse_seen_by_cluster (n : Fin 24) (s : State) (u : Tick) (hc : s.clocked) (hu : u ∈ (s.weir n).syncDue)
    (hr : s.reached u = true) :
    ∃ t, exec (.syncPulseArrival n) s = .next t ∧ (∀ j : Nat, j < 16 → t.bit (OUT_STATUS (n.val * 16 + j)) 2 = true) ∧ t.mt = s.mt := by
  obtain ⟨v, hv⟩ := Option.isSome_iff_exists.1 (List.find?_isSome.2 ⟨u, hu, hr⟩)
  obtain ⟨hmt, hseen⟩ := s.syncPulse_seen n v
  have hforward : ChangesOnly counterOffset (s.syncPulse n v) (s.syncArrival n) := by
    rw [State.syncArrival_due hv]
    exact .ite (State.syncOutput_changes _ n) (.refl _)
  refine ⟨s.syncArrival n, ?_, fun j hj => ?_, ?_⟩
  · rw [exec_syncPulseArrival, State.onTclk_clocked _ _ hc]
  · rw [hforward.syncSeen, hseen j hj]
  · rw [hforward.mt, hmt]

/-- Settles O14: the arrival at a cluster, with a pulse that is due and with none, then SYNC_IN and SYNC_OUT. -/
theorem syncPulsesRunThroughTheClusters : Obligations.SyncPulsesRunThroughTheClusters := by
  refine ⟨syncPulse_seen_by_cluster, fun n s h => ?_, fun m s hc hm hnew => ?_, fun m s hc hm => ?_, fun s r f rest hc h hf => ?_⟩
  · rw [exec_syncPulseArrival, State.syncArrival_none h, State.onTclk, ite_self]
  · rw [exec_syncInEdge s m hc, s.syncInEdge_long hm, State.syncInput_new hnew]
  · rw [exec_syncInEdge s m hc, s.syncInEdge_short hm]
    split
    · exact .inr rfl
    · exact .inl rfl
  · rw [exec_syncOutFall s hc, State.syncOutFall_reached h hf]

end Sys2Proof.Proofs
end

section
/-!
PROOFS. Writes of the counters (R47 to R49, R52, R53, R57 to R59, R67, R74): COUNT, the preloads and CH_CTRL, what a stop copies, then the
statements about them.
-/

namespace Sys2Proof.Machine

open Reg

/-! ### When a counter runs (R47) -/

@[simp] theorem State.running_noteHost (s : State) (a k : Nat) : (s.noteHost a).running k = s.running k := rfl

theorem State.running_setReg (s : State) {a k : Nat} (v : Word) (hc : CH_CTRL k ≠ a) (hp : PERIOD_ACT k ≠ a) :
    (s.setReg a v).running k = s.running k := by
  rw [State.running, State.bit, s.reg_setReg_ne v hc, s.reg_setReg_ne v hp, State.running, State.bit]

theorem State.running_setFld (s : State) {a k : Nat} (hi lo v : Nat) (hc : CH_CTRL k ≠ a) (hp : PERIOD_ACT k ≠ a) :
    (s.setFld a hi lo v).running k = s.running k := s.running_setReg _ hc hp

theorem State.running_eq_true (s : State) (k : Nat) : s.running k = true ↔ s.bit (CH_CTRL k) 0 = true ∧ s.reg (PERIOD_ACT k) ≠ 0 := by
  rw [State.running, Bool.and_eq_true, bne_iff_ne]

theorem State.running_eq_false_of_disabled {s : State} {k : Nat} (h : s.bit (CH_CTRL k) 0 = false) : s.running k = false := by
  rw [State.running, h, Bool.false_and]

/-! ### Writes of COUNT and of the preloads (R49, R52, R57 to R59) -/

theorem State.countWrite_eq (s : State) (k : Nat) (v : Word) :
    s.countWrite k v = if s.running k = false ∧ v ≤ s.reg (PERIOD_ACT k) then (s.setReg (COUNT k) v).setBit (CH_STATUS k) 2 false
      else s.raise (CH_STATUS k) 6 := by
  simp [State.countWrite, State.setCount]

/-- A non-zero period written to a stopped counter that is enabled starts it. -/
theorem State.periodWrite_eq (s : State) (k : Nat) (v : Word) :
    s.periodWrite k v = if s.running k = true then s.setReg (PERIOD k) v
      else if s.bit (CH_CTRL k) 0 = true ∧ v ≠ 0 then ((s.setReg (PERIOD k) v).setReg (PERIOD_ACT k) v).beginRun k
      else (s.setReg (PERIOD k) v).setReg (PERIOD_ACT k) v := by
  have hp : CH_CTRL k ≠ PERIOD k := chanReg_ne (by decide) k
  have ha : CH_CTRL k ≠ PERIOD_ACT k := chanReg_ne (by decide) k
  have hrun : ((s.setReg (PERIOD k) v).setReg (PERIOD_ACT k) v).running k = true ↔ s.bit (CH_CTRL k) 0 = true ∧ v ≠ 0 := by
    rw [State.running_eq_true, State.bit, State.reg_setReg_self, State.reg_setReg_ne _ _ ha, s.reg_setReg_ne _ hp, State.bit]
  exact if_congr Iff.rfl rfl (if_congr hrun rfl rfl)

theorem State.prescWrite_eq (s : State) (k : Nat) (v : Word) :
    s.prescWrite k v = if s.running k = true then s.setFld (PRESCALE k) 15 0 (bitsOf v 15 0)
      else (s.setFld (PRESCALE k) 15 0 (bitsOf v 15 0)).setFld (PRESCALE k) 31 16 (bitsOf v 15 0) := by
  have hc : CH_CTRL k ≠ PRESCALE k := chanReg_ne (by decide) k
  have hp : PERIOD_ACT k ≠ PRESCALE k := chanReg_ne (by decide) k
  rw [State.prescWrite, State.running_setFld _ _ _ _ hc hp]

theorem CH_CTRL_ne_CMP (k x : Nat) : CH_CTRL k ≠ CMP k x := by unfold CH_CTRL CMP; omega

theorem PERIOD_ACT_ne_CMP (k x : Nat) : PERIOD_ACT k ≠ CMP k x := by unfold PERIOD_ACT CMP; omega

theorem State.cmpPreloadWrite_eq (s : State) (k x : Nat) (v : Word) :
    s.cmpPreloadWrite k x v = if s.running k = true then s.setReg (CMP k x) v else (s.setReg (CMP k x) v).setReg (CMP_ACT k x) v := by
  rw [State.cmpPreloadWrite, State.running_setReg _ _ (CH_CTRL_ne_CMP k x) (PERIOD_ACT_ne_CMP k x)]

theorem State.cmpLiveWrite_eq (s : State) (k x : Nat) (v : Word) :
    s.cmpLiveWrite k x v =
      let t := (s.setReg (CMP k x) v).setReg (CMP_ACT k x) v
      if s.running k = false ∨ s.reg (PERIOD_ACT k) < v then t
      else if v = s.reg (COUNT k) then t.setChan k { s.chan k with writeTrig := (s.chan k).writeTrig ++ [(x, s.mt + 1, v)] }
      else if (s.bit (CH_STATUS k) 2 = true ∧ s.reg (COUNT k) < v) ∨ (s.bit (CH_STATUS k) 2 = false ∧ v < s.reg (COUNT k)) then
        t.raise (CMP_STATUS k) (8 + x)
      else t := by
  have hreg {a : Nat} (h : a ≠ CMP k x) (h' : a ≠ CMP_ACT k x) :
      ((s.setReg (CMP k x) v).setReg (CMP_ACT k x) v).reg a = s.reg a := by
    rw [State.reg_setReg_ne _ _ h', s.reg_setReg_ne _ h]
  have hctrl := hreg (a := CH_CTRL k) (by unfold CH_CTRL CMP; omega) (by unfold CH_CTRL CMP_ACT; omega)
  have hact := hreg (a := PERIOD_ACT k) (by unfold PERIOD_ACT CMP; omega) (by unfold PERIOD_ACT CMP_ACT; omega)
  have hcount := hreg (a := COUNT k) (by unfold COUNT CMP; omega) (by unfold COUNT CMP_ACT; omega)
  have hstatus := hreg (a := CH_STATUS k) (by unfold CH_STATUS CMP; omega) (by unfold CH_STATUS CMP_ACT; omega)
  have hrun : ((s.setReg (CMP k x) v).setReg (CMP_ACT k x) v).running k = s.running k := by
    rw [State.running, State.bit, hctrl, hact, State.running, State.bit]
  have hpast : (if s.bit (CH_STATUS k) 2 = true then decide (s.reg (COUNT k) < v) else decide (v < s.reg (COUNT k))) = true ↔
      s.bit (CH_STATUS k) 2 = true ∧ s.reg (COUNT k) < v ∨ s.bit (CH_STATUS k) 2 = false ∧ v < s.reg (COUNT k) := by
    cases s.bit (CH_STATUS k) 2 <;> simp
  have hchan : ((s.setReg (CMP k x) v).setReg (CMP_ACT k x) v).chan k = s.chan k := by rw [State.chan_setReg, State.chan_setReg]
  have hmt : ((s.setReg (CMP k x) v).setReg (CMP_ACT k x) v).mt = s.mt := by rw [State.setReg_mt, State.setReg_mt]
  rw [State.cmpLiveWrite]
  generalize (s.setReg (CMP k x) v).setReg (CMP_ACT k x) v = t at *
  simp only [State.bit, hrun, hact, hcount, hstatus, hchan, hmt] at hpast ⊢
  by_cases hstop : s.running k = false ∨ s.reg (PERIOD_ACT k) < v
  · rw [if_pos hstop]
    rcases hstop with h | h <;> simp [h]
  · obtain ⟨hr, hv⟩ := not_or.1 hstop
    rw [if_neg hstop, if_neg (by simpa using hr), if_neg hv]
    exact if_congr Iff.rfl rfl (if_congr hpast rfl rfl)

theorem State.cmpCfgWrite_eq (s : State) (k : Nat) (v : Word) :
    s.cmpCfgWrite k v = if s.running k = true then s.setFld (CMP_CFG k) 7 0 (bitsOf v 7 0)
      else (s.setFld (CMP_CFG k) 7 0 (bitsOf v 7 0)).copyCmpCfg k := by
  have hc : CH_CTRL k ≠ CMP_CFG k := chanReg_ne (by decide) k
  have hp : PERIOD_ACT k ≠ CMP_CFG k := chanReg_ne (by decide) k
  rw [State.cmpCfgWrite, State.running_setFld _ _ _ _ hc hp]

theorem exec_countWrite {s : State} (k : Fin 384) {v : Word} (ha : s.accepts (COUNT k) v) :
    exec (.countWrite k v) s = .next ((s.noteHost (COUNT k)).countWrite k v) := congrArg Host.Outcome.next (s.hostWrite_accepts _ ha)

/-- PERIOD and PRESC have one row. -/
theorem exec_periodOrPrescWrite (s : State) (k : Fin 384) (presc : Bool) (v : Word) :
    exec (.periodWrite k presc v) s = .next (s.hostWrite (if presc then PRESCALE k else PERIOD k) v
      fun t => if presc then t.prescWrite k v else t.periodWrite k v) := rfl

theorem exec_periodWrite {s : State} (k : Fin 384) {v : Word} (ha : s.accepts (PERIOD k) v) :
    exec (.periodWrite k false v) s = .next ((s.noteHost (PERIOD k)).periodWrite k v) := by
  simp only [exec_periodOrPrescWrite, Bool.false_eq_true, if_false, s.hostWrite_accepts _ ha]

theorem exec_prescWrite {s : State} (k : Fin 384) {v : Word} (ha : s.accepts (PRESCALE k) v) :
    exec (.periodWrite k true v) s = .next ((s.noteHost (PRESCALE k)).prescWrite k v) := by
  simp only [exec_periodOrPrescWrite, if_true, s.hostWrite_accepts _ ha]

@[simp] theorem State.cmpLive_noteHost (s : State) (a k x : Nat) : (s.noteHost a).cmpLive k x = s.cmpLive k x := rfl

theorem exec_cmpPreloadWrite {s : State} (k : Fin 384) (x : Fin 4) {v : Word} (ha : s.accepts (CMP k x) v) (hl : s.cmpLive k x = false) :
    exec (.cmpPreloadWrite k x v) s = .next ((s.noteHost (CMP k x)).cmpPreloadWrite k x v) := by
  refine congrArg Host.Outcome.next ((s.hostWrite_accepts _ ha).trans ?_)
  rw [State.cmpLive_noteHost, hl, if_neg Bool.false_ne_true]

theorem exec_cmpLiveWrite {s : State} (k : Fin 384) (x : Fin 4) {v : Word} (ha : s.accepts (CMP k x) v) (hl : s.cmpLive k x = true) :
    exec (.cmpLiveWrite k x v) s = .next ((s.noteHost (CMP k x)).cmpLiveWrite k x v) := by
  refine congrArg Host.Outcome.next ((s.hostWrite_accepts _ ha).trans ?_)
  rw [State.cmpLive_noteHost, hl, if_pos rfl]

theorem exec_cmpCfgWrite {s : State} (k : Fin 384) {v : Word} (ha : s.accepts (CMP_CFG k) v) :
    exec (.cmpCfgWrite k v) s = .next ((s.noteHost (CMP_CFG k)).cmpCfgWrite k v) := congrArg Host.Outcome.next (s.hostWrite_accepts _ ha)

/-! ### Writes of CH_CTRL (R48, R53) -/

/-- CH_CTRL as a write of `v` would leave it; PAIR_MODE is reserved on odd channels (R42). -/
def State.chCtrlWord (s : State) (k : Nat) (v : Word) : Word :=
  mergeWord (s.reg (CH_CTRL k)) v (if k % 2 = 0 then 0x00F00711#32 else 0x00300711#32)

theorem exec_chCtrlWrite {s : State} (k : Fin 384) {v : Word} (ha : s.accepts (CH_CTRL k) v) :
    exec (.chCtrlWrite k v) s = .next ((s.noteHost (CH_CTRL k)).chCtrlWrite k v) := congrArg Host.Outcome.next (s.hostWrite_accepts _ ha)

/-- The write changes PAIR_MODE. -/
def State.pairChange (s : State) (k : Nat) (v : Word) : Bool := bitsOf (s.reg (CH_CTRL k)) 23 22 != bitsOf (s.chCtrlWord k v) 23 22

/-- The write changes a locked field, and EN is 1 before or after it, or PAIR_MODE changes with the odd partner enabled. -/
def State.chCtrlRefused (s : State) (k : Nat) (v : Word) : Bool :=
  !(!((s.reg (CH_CTRL k) ^^^ s.chCtrlWord k v) &&& modeMask != 0) ||
    (!bitOf (s.reg (CH_CTRL k)) 0 && !bitOf (s.chCtrlWord k v) 0 && (!s.pairChange k v || !s.bit (CH_CTRL (k + 1)) 0)))

/-- The state once CH_CTRL has taken the write, before the counter starts or stops. -/
def State.chCtrlTaken (s : State) (k : Nat) (v : Word) : State :=
  let t := s.setReg (CH_CTRL k) (s.chCtrlWord k v)
  if s.pairChange k v then (t.pairModeChanged k (s.pairMode k)).refreshPins t.now else t

theorem State.pairChange_iff (s : State) (k : Nat) (v : Word) :
    s.pairChange k v = true ↔ bitsOf (s.reg (CH_CTRL k)) 23 22 ≠ bitsOf (s.chCtrlWord k v) 23 22 := bne_iff_ne

/-- The rule of R53 over its five conditions. -/
theorem modeRule_iff : ∀ change en en' pair partner : Bool, (!(!change || (!en && !en' && (!pair || !partner)))) = true ↔
    change = true ∧ (en = true ∨ en' = true ∨ pair = true ∧ partner = true) := by decide

theorem State.chCtrlRefused_iff (s : State) (k : Nat) (v : Word) :
    s.chCtrlRefused k v = true ↔ (s.reg (CH_CTRL k) ^^^ s.chCtrlWord k v) &&& modeMask ≠ 0 ∧
      (s.bit (CH_CTRL k) 0 = true ∨ (s.chCtrlWord k v).getLsbD 0 = true ∨ s.pairChange k v = true ∧ s.bit (CH_CTRL (k + 1)) 0 = true) := by
  rw [← bne_iff_ne]
  exact modeRule_iff _ _ _ _ _

/-- A write of CH_CTRL is refused, or it is taken, and starts or stops the counter. -/
theorem State.chCtrlWrite_eq (s : State) (k : Nat) (v : Word) :
    s.chCtrlWrite k v = if s.chCtrlRefused k v = true then s.raise (CH_STATUS k) 7
      else if (!s.running k && (s.chCtrlTaken k v).running k) = true then (s.chCtrlTaken k v).beginRun k
      else if (s.running k && !(s.chCtrlTaken k v).running k) = true then ((s.chCtrlTaken k v).stopped k).copyWritten k
      else s.chCtrlTaken k v := rfl

/-- A write that leaves PAIR_MODE as it is and is not refused. -/
theorem State.chCtrlWrite_pair_kept {s : State} {k : Nat} {v : Word} (hr : s.chCtrlRefused k v = false) (hp : s.pairChange k v = false) :
    s.chCtrlWrite k v =
      let t := s.setReg (CH_CTRL k) (s.chCtrlWord k v)
      if s.running k = false ∧ t.running k = true then t.beginRun k
      else if s.running k = true ∧ t.running k = false then (t.stopped k).copyWritten k else t := by
  have htaken : s.chCtrlTaken k v = s.setReg (CH_CTRL k) (s.chCtrlWord k v) := by
    rw [State.chCtrlTaken, hp]
    exact if_neg Bool.false_ne_true
  rw [State.chCtrlWrite_eq, if_neg (by rw [hr]; exact Bool.false_ne_true), htaken]
  exact if_congr (by simp) rfl (if_congr (by simp) rfl rfl)

/-! ### What the output logic leaves of a channel -/

/-- `t` has, of every channel of `s`, OUT_FINE in use (R74) and the shadow of the odd count (R63). -/
structure KeepsChanWords (s t : State) : Prop where
  outFineAct : ∀ j, (t.chan j).outFineAct = (s.chan j).outFineAct
  hiShadow : ∀ j, (t.chan j).hiShadow = (s.chan j).hiShadow

namespace KeepsChanWords

variable {r s t : State}

theorem refl (s : State) : KeepsChanWords s s := ⟨fun _ => rfl, fun _ => rfl⟩

theorem trans (h : KeepsChanWords r s) (h' : KeepsChanWords s t) : KeepsChanWords r t :=
  ⟨fun j => (h'.outFineAct j).trans (h.outFineAct j), fun j => (h'.hiShadow j).trans (h.hiShadow j)⟩

theorem of_eq (h : t.chans = s.chans) : KeepsChanWords s t := by
  constructor <;> intro j <;> rw [State.chan, h, State.chan]

theorem ite {c : Prop} [Decidable c] (h : KeepsChanWords r s) (h' : KeepsChanWords r t) : KeepsChanWords r (if c then s else t) := by
  split <;> assumption

theorem setReg (h : KeepsChanWords r s) (a : Nat) (v : Word) : KeepsChanWords r (s.setReg a v) := h.trans (of_eq rfl)

theorem setBit (h : KeepsChanWords r s) (a i : Nat) (b : Bool) : KeepsChanWords r (s.setBit a i b) := h.trans (of_eq rfl)

theorem raise (h : KeepsChanWords r s) (a i : Nat) : KeepsChanWords r (s.raise a i) := h.trans (of_eq rfl)

theorem raiseIf (h : KeepsChanWords r s) (c : Bool) (a i : Nat) : KeepsChanWords r (s.raiseIf c a i) := ite (h.raise a i) h

theorem chanEvent (h : KeepsChanWords r s) (k e : Nat) : KeepsChanWords r (s.chanEvent k e) := ite (h.trans (of_eq rfl)) h

theorem setChan (h : KeepsChanWords r s) (k : Nat) (c : Chan) (hf : c.outFineAct = (s.chan k).outFineAct)
    (hs : c.hiShadow = (s.chan k).hiShadow) : KeepsChanWords r (s.setChan k c) := by
  refine h.trans ⟨fun j => ?_, fun j => ?_⟩ <;>
  · by_cases hj : j = k
    · subst hj; rw [State.chan_setChan_self]; assumption
    · rw [State.chan_setChan_ne _ _ hj]

end KeepsChanWords

theorem State.trainSkip_keepsChanWords (s : State) (k : Nat) : KeepsChanWords s (s.trainSkip k) :=
  ((KeepsChanWords.refl s).setReg _ _).setChan k _ (by rfl) (by rfl)

theorem State.uncount_keepsChanWords (s : State) (k : Nat) (counted : Bool) : KeepsChanWords s (s.uncount k counted) :=
  .ite (s.trainSkip_keepsChanWords k) (.refl s)

theorem State.commandIdle_keepsChanWords (s : State) (k : Nat) : KeepsChanWords s (s.commandIdle k) := by
  have hcommand (cmd : OutCmd) (lvl both : Bool) (st : Stamp) :
      KeepsChanWords s (s.setChan k ((s.chan k).command cmd lvl both false st)) := (KeepsChanWords.refl s).setChan k _ rfl rfl
  exact .ite (.refl s) (((hcommand _ _ _ _).setBit _ 1 true).trans (State.uncount_keepsChanWords _ k _))

theorem State.trainEnd_keepsChanWords (s : State) (k : Nat) (early : Bool) : KeepsChanWords s (s.trainEnd k early) := by
  have hflags := (((KeepsChanWords.refl s).setBit (PT_STATUS k) 0 false).raise (PT_STATUS k) 1).raiseIf early (PT_STATUS k) 2
  refine KeepsChanWords.trans ?_ (State.commandIdle_keepsChanWords _ k)
  exact (hflags.setChan k _ (by rfl) (by rfl)).chanEvent k 1

theorem State.copyMode_keepsChanWords (s : State) (k : Nat) : KeepsChanWords s (s.copyMode k) := by
  have hmode : KeepsChanWords s (s.setFld (OUT_CTRL k) 14 12 (s.fld (OUT_CTRL k) 2 0)) := (KeepsChanWords.refl s).setReg _ _
  refine .ite (.trans ?_ (State.trainEnd_keepsChanWords _ k true))
    (.ite hmode (.ite (hmode.trans (State.commandIdle_keepsChanWords _ k)) hmode))
  exact hmode.setChan k _ (by rfl) (by rfl)

/-! ### Preloads copied at a stop (R49, R67, R74) -/

theorem State.onWrote_wrote {s : State} {a : Nat} (f : State → State) (h : s.wroteAlready a = true) : s.onWrote a f = f s := if_pos h

theorem State.onWrote_not {s : State} {a : Nat} (f : State → State) (h : s.wroteAlready a = false) : s.onWrote a f = s :=
  if_neg (by rw [h]; exact Bool.false_ne_true)

theorem ChangesOnly.onWrote {P : Nat → Prop} {s : State} {a : Nat} {f : State → State} (h : ChangesOnly P s (f s)) :
    ChangesOnly P s (s.onWrote a f) := .ite h (.refl s)

/-- The copy of PERIOD at a stop. -/
def State.stopPeriod (s : State) (k : Nat) : State := s.onWrote (PERIOD k) fun s => s.setReg (PERIOD_ACT k) (s.reg (PERIOD k))

/-- The copy of PRESC at a stop. -/
def State.stopPresc (s : State) (k : Nat) : State :=
  s.onWrote (PRESCALE k) fun s => s.setFld (PRESCALE k) 31 16 (s.fld (PRESCALE k) 15 0)

/-- The copy of CMP_x at a stop. -/
def State.stopCmp (s : State) (k x : Nat) : State := s.onWrote (CMP k x) fun s => s.setReg (CMP_ACT k x) (s.reg (CMP k x))

/-- The copy of CMP_CFG at a stop. -/
def State.stopCmpCfg (s : State) (k : Nat) : State := s.onWrote (CMP_CFG k) fun s => s.copyCmpCfg k

/-- The copies of PRESC and of the compares at a stop. -/
def State.stopCompares (s : State) (k : Nat) : State := ([0, 1, 2, 3].foldl (fun s x => s.stopCmp k x) (s.stopPresc k)).stopCmpCfg k

/-- The copy of OUT_FINE at a stop. -/
def State.stopFine (s : State) (k : Nat) : State :=
  s.onWrote (OUT_FINE k) fun s => s.setChan k { s.chan k with outFineAct := s.reg (OUT_FINE k) }

/-- The copy of DT_CFG at a stop. -/
def State.stopDeadTime (s : State) (k : Nat) : State :=
  s.onWrote (DT_CFG k) fun s => if k % 2 = 0 then s.setChan k { s.chan k with dtAct := s.reg (DT_CFG k) } else s

/-- The copy of OUT_MODE at a stop. -/
def State.stopMode (s : State) (k : Nat) : State :=
  s.onWrote (OUT_CTRL k) fun s => let s := s.copyMode k; if s.idleWhenStopped k then s.commandIdle k else s

theorem State.copyWritten_eq (s : State) (k : Nat) :
    s.copyWritten k = ((((s.stopPeriod k).stopCompares k).stopFine k).stopDeadTime k).stopMode k := rfl

/-- Offsets of what the copies of PERIOD, PRESC and the compares write. -/
def countsOffset (o : Nat) : Prop := o = 0x14 ∨ compareOffset o

theorem State.stopPeriod_changes (s : State) (k : Nat) : ChangesOnly countsOffset s (s.stopPeriod k) := by
  have hact : countsOffset (PERIOD_ACT k % 0x400) ∧ PERIOD_ACT k % 0x400 ≠ 0x70 := by unfold countsOffset PERIOD_ACT; omega
  exact .onWrote ((ChangesOnly.refl s).setReg _ hact.1 hact.2)

theorem State.stopPresc_changes (s : State) (k : Nat) : ChangesOnly compareOffset s (s.stopPresc k) := .onWrote (s.copyPresc_changes k _)

theorem State.stopCmp_changes (s : State) (k : Nat) {x : Nat} (hx : x ∈ [0, 1, 2, 3]) : ChangesOnly compareOffset s (s.stopCmp k x) :=
  .onWrote (s.copyCmp_changes k _ hx)

theorem State.stopCmpCfg_changes (s : State) (k : Nat) : ChangesOnly compareOffset s (s.stopCmpCfg k) := .onWrote (s.copyCmpCfg_changes k)

theorem State.stopCompares_changes (s : State) (k : Nat) : ChangesOnly compareOffset s (s.stopCompares k) :=
  ((s.stopPresc_changes k).trans (.foldl _ (fun s _ hx => s.stopCmp_changes k hx) _)).trans (State.stopCmpCfg_changes _ k)

theorem State.stopFine_changes {P : Nat → Prop} (s : State) (k : Nat) : ChangesOnly P s (s.stopFine k) :=
  .onWrote ((ChangesOnly.refl s).setChan k _)

theorem State.stopDeadTime_changes {P : Nat → Prop} (s : State) (k : Nat) : ChangesOnly P s (s.stopDeadTime k) :=
  .onWrote (.ite ((ChangesOnly.refl s).setChan k _) (.refl s))

theorem State.stopMode_changes (s : State) (k : Nat) : ChangesOnly modeOffset s (s.stopMode k) :=
  .onWrote (.ite ((s.copyMode_changes k).trans ((State.commandIdle_changes _ k).mono .inr)) (s.copyMode_changes k))

theorem State.stopDeadTime_keepsChanWords (s : State) (k : Nat) : KeepsChanWords s (s.stopDeadTime k) :=
  .ite (.ite ((KeepsChanWords.refl s).setChan k _ (by rfl) (by rfl)) (.refl s)) (.refl s)

theorem State.stopMode_keepsChanWords (s : State) (k : Nat) : KeepsChanWords s (s.stopMode k) :=
  .ite (.ite ((s.copyMode_keepsChanWords k).trans (State.commandIdle_keepsChanWords _ k)) (s.copyMode_keepsChanWords k)) (.refl s)

theorem State.copyWritten_period {s : State} {k : Nat} (h : s.wroteAlready (PERIOD k) = true) :
    (s.copyWritten k).reg (PERIOD_ACT k) = s.reg (PERIOD k) := by
  have hmode : ¬modeOffset (PERIOD_ACT k % 0x400) := by unfold modeOffset outputOffset PERIOD_ACT; omega
  have hcmp : ¬compareOffset (PERIOD_ACT k % 0x400) := by unfold compareOffset PERIOD_ACT; omega
  rw [State.copyWritten_eq, (State.stopMode_changes _ k).regs _ hmode, (State.stopDeadTime_changes _ k).regs _ hcmp,
    (State.stopFine_changes _ k).regs _ hcmp, (State.stopCompares_changes _ k).regs _ hcmp, State.stopPeriod,
    State.onWrote_wrote _ h, State.reg_setReg_self]

/-- What the copies of PERIOD, PRESC and the compares leave for the copies of the output's preloads. -/
theorem State.stopCounts_changes (s : State) (k : Nat) : ChangesOnly countsOffset s ((s.stopPeriod k).stopCompares k) :=
  (s.stopPeriod_changes k).trans ((State.stopCompares_changes _ k).mono .inr)

theorem State.copyWritten_fine {s : State} {k : Nat} (h : s.wroteAlready (OUT_FINE k) = true) :
    ((s.copyWritten k).chan k).outFineAct = s.reg (OUT_FINE k) := by
  have hu := s.stopCounts_changes k
  have hreg : ¬countsOffset (OUT_FINE k % 0x400) := by unfold countsOffset compareOffset OUT_FINE; omega
  rw [State.copyWritten_eq, (State.stopMode_keepsChanWords _ k).outFineAct, (State.stopDeadTime_keepsChanWords _ k).outFineAct,
    State.stopFine, State.onWrote_wrote _ ((hu.wroteAlready _).trans h), State.chan_setChan_self, hu.regs _ hreg]

/-- A copy of OUT_MODE shows in OUT_MODE_ACT. -/
theorem State.modeAct_copyMode (s : State) (k : Nat) : (s.copyMode k).fld (OUT_CTRL k) 14 12 = s.fld (OUT_CTRL k) 2 0 := by
  have hctrl : ¬outputOffset (OUT_CTRL k % 0x400) := by unfold outputOffset OUT_CTRL; omega
  rw [State.fld, (s.copyMode_changes_output k).regs _ hctrl, ← State.fld, State.fld_setFld_self _ _ _ _ _ (by decide)]
  exact Nat.mod_eq_of_lt (bitsOf_lt _ 2 0)

theorem State.modeAct_stopMode {s : State} {k : Nat} (h : s.wroteAlready (OUT_CTRL k) = true) :
    (s.stopMode k).fld (OUT_CTRL k) 14 12 = s.fld (OUT_CTRL k) 2 0 := by
  have hctrl : ¬outputOffset (OUT_CTRL k % 0x400) := by unfold outputOffset OUT_CTRL; omega
  rw [State.stopMode, State.onWrote_wrote _ h]
  dsimp only
  split
  · rw [State.fld, (State.commandIdle_changes _ k).regs _ hctrl, ← State.fld, State.modeAct_copyMode]
  · exact s.modeAct_copyMode k

theorem State.copyWritten_mode {s : State} {k : Nat} (h : s.wroteAlready (OUT_CTRL k) = true) :
    (s.copyWritten k).fld (OUT_CTRL k) 14 12 = s.fld (OUT_CTRL k) 2 0 := by
  have hu := ((s.stopCounts_changes k).trans (State.stopFine_changes _ k)).trans (State.stopDeadTime_changes _ k)
  have hreg : ¬countsOffset (OUT_CTRL k % 0x400) := by unfold countsOffset compareOffset OUT_CTRL; omega
  rw [State.copyWritten_eq, State.modeAct_stopMode ((hu.wroteAlready _).trans h), State.fld, hu.regs _ hreg, State.fld]

/-- With no write in the tick of the stop nothing is copied. -/
theorem State.copyWritten_none {s : State} (k : Nat) (h : ∀ a, s.wroteAlready a = false) : s.copyWritten k = s := by
  have hon (a : Nat) (f : State → State) : s.onWrote a f = s := State.onWrote_not f (h a)
  simp only [State.copyWritten, hon, List.foldl_cons, List.foldl_nil]

end Sys2Proof.Machine

namespace Sys2Proof.Proofs

open Sys2Proof.Machine Sys2Proof.Machine.Reg

/-- Settles O8: the write meets a counter that runs or stands, and a value within PERIOD_ACT or beyond it. -/
theorem countWriteLoadsAStoppedCounter : Obligations.CountWriteLoadsAStoppedCounter := by
  intro k v s ha
  rw [exec_countWrite k ha, State.countWrite_eq, State.running_noteHost, State.reg_noteHost]

/-- Settles O11: each preload with the counter running and stopped, and the live compare by the place of the count. -/
theorem counterPreloadsWaitForTheCopy : Obligations.CounterPreloadsWaitForTheCopy := by
  refine ⟨fun k v s ha => ?_, fun k v s ha => ?_, fun k x v s ha hl => ?_, fun k x v s ha hl => ?_, fun k v s ha => ?_⟩
  · rw [exec_periodWrite k ha, State.periodWrite_eq, State.running_noteHost, State.bit_noteHost]
  · rw [exec_prescWrite k ha, State.prescWrite_eq, State.running_noteHost]
  · rw [exec_cmpPreloadWrite k x ha hl, State.cmpPreloadWrite_eq, State.running_noteHost]
  · rw [exec_cmpLiveWrite k x ha hl, State.cmpLiveWrite_eq]
    dsimp only
    rw [State.running_noteHost, State.reg_noteHost, State.reg_noteHost, State.bit_noteHost, State.chan_noteHost, State.noteHost_mt]
  · rw [exec_cmpCfgWrite k ha, State.cmpCfgWrite_eq, State.running_noteHost]

/-- Settles O10: the write that the mode rules refuse, the write that is taken, then what a stop copies. -/
theorem chCtrlWriteHoldsTheModeRules : Obligations.ChCtrlWriteHoldsTheModeRules := by
  refine ⟨fun k v s ha => ?_, fun k v s ha => ?_, fun k s =>
    ⟨State.copyWritten_period, State.copyWritten_fine, State.copyWritten_mode, State.copyWritten_none k⟩⟩
  · intro new hchange hen
    have hrefused : (s.noteHost (CH_CTRL k)).chCtrlRefused k v = true :=
      (State.chCtrlRefused_iff _ k v).2 ⟨hchange, hen.imp_right (Or.imp_right (And.imp_left (State.pairChange_iff _ k v).2))⟩
    rw [exec_chCtrlWrite k ha, State.chCtrlWrite_eq, if_pos hrefused]
  · intro new hpair hfree
    have hkept : (s.noteHost (CH_CTRL k)).pairChange k v = false :=
      Bool.eq_false_iff.2 fun h => (State.pairChange_iff _ k v).1 h hpair
    have htaken : (s.noteHost (CH_CTRL k)).chCtrlRefused k v = false := by
      refine Bool.eq_false_iff.2 fun h => ?_
      obtain ⟨hchange, hen⟩ := (State.chCtrlRefused_iff _ k v).1 h
      obtain ⟨hoff, hnew⟩ := hfree.resolve_left hchange
      rcases hen with hen | hen | ⟨hen, -⟩
      · exact absurd hen (by rw [State.bit_noteHost, hoff]; exact Bool.false_ne_true)
      · exact absurd hen (ne_of_eq_of_ne hnew Bool.false_ne_true)
      · exact absurd hen (by rw [hkept]; exact Bool.false_ne_true)
    rw [exec_chCtrlWrite k ha, State.chCtrlWrite_pair_kept htaken hkept]
    rfl

end Sys2Proof.Proofs
end

section
/-!
PROOFS. Cascades (R42, R43, R61 to R65): reads of COUNT and their shadow, the write that sets a cascade, and the pair snapshot, then the
statement about them.
-/

namespace Sys2Proof.Machine

open Reg

/-! ### Reads of COUNT (R63, R64) -/

/-- A read that changes no register adds none to those that a host read has changed. -/
theorem State.touchChanged_of_regs {s t : State} (h : t.regs = s.regs) : s.touchChanged t = t := by
  have hreg (a : Nat) : t.reg a = s.reg a := by rw [State.reg, h, State.reg]
  simp [State.touchChanged, hreg]

/-- A read of COUNT returns its word, and leaves what it has latched. -/
theorem exec_countRead {s t : State} {k : Fin 384} {w : Word} (hs : s.serves) (h : s.countRead k = (w, t)) (hr : t.regs = s.regs) :
    exec (.countRead k) s = .next (t.returning [w]) := by
  refine congrArg Host.Outcome.next ((s.hostRead_serves _ hs).trans ?_)
  rw [h, State.touchChanged_of_regs hr]
  rfl

theorem State.countRead_even {s : State} {k : Nat} (hp : s.pairMode k = 2) (hk : k % 2 = 0) :
    s.countRead k = ((s.seen (COUNT k)).reg (COUNT k),
      { s.setChan k { s.chan k with hiShadow := (s.seen (COUNT k)).reg (COUNT (k + 1)) } with touched := COUNT (k + 1) :: s.touched }) := by
  rw [State.countRead, if_pos hp, if_pos hk]

theorem State.countRead_odd {s : State} {k : Nat} (hp : s.pairMode k = 2) (hk : k % 2 = 1) :
    s.countRead k = ((s.chan (k - 1)).hiShadow, s) := by
  rw [State.countRead, if_pos hp, if_neg (by omega)]

theorem State.countRead_single {s : State} {k : Nat} (hp : s.pairMode k ≠ 2) :
    s.countRead k = ((s.seen (COUNT k)).reg (COUNT k), s) := if_neg hp

/-! ### What a refresh of the pads leaves alone -/

/-- `t` has the channels of `s`, and every register of the cluster blocks. -/
structure KeepsClusters (s t : State) : Prop where
  chans : t.chans = s.chans
  regs : ∀ a, 0x1000000 ≤ a → t.reg a = s.reg a

theorem KeepsClusters.refl (s : State) : KeepsClusters s s := ⟨rfl, fun _ _ => rfl⟩

theorem KeepsClusters.trans {r s t : State} (h : KeepsClusters r s) (h' : KeepsClusters s t) : KeepsClusters r t :=
  ⟨h'.chans.trans h.chans, fun a ha => (h'.regs a ha).trans (h.regs a ha)⟩

theorem KeepsClusters.ite {c : Prop} [Decidable c] {r s t : State} (h : KeepsClusters r s) (h' : KeepsClusters r t) :
    KeepsClusters r (if c then s else t) := by
  split <;> assumption

theorem KeepsClusters.foldl {α : Type} {f : State → α → State} (hf : ∀ s x, KeepsClusters s (f s x)) (l : List α) (s : State) :
    KeepsClusters s (l.foldl f s) := by
  induction l generalizing s with
  | nil => exact refl s
  | cons x l ih => exact (hf s x).trans (ih _)

theorem State.setPin_keepsClusters (s : State) (p : Nat) (c : PinState) : KeepsClusters s (s.setPin p c) := ⟨rfl, fun _ _ => rfl⟩

theorem State.noteWear_keepsClusters (s : State) (src idx : Nat) : KeepsClusters s (s.noteWear src idx) := by
  refine .foldl ?_ _ s
  exact fun _ _ => ⟨rfl, fun _ _ => rfl⟩

theorem State.raise_keepsClusters (s : State) {a : Nat} (i : Nat) (ha : a < 0x1000000) : KeepsClusters s (s.raise a i) :=
  ⟨rfl, fun _ hb => s.reg_setReg_ne _ (by omega)⟩

/-- The action that applies to a pin is one of the 32 mittens'. -/
theorem State.action_lt {s : State} {p m x : Nat} (h : s.action p = some (m, x)) : m < 32 := by
  unfold State.action at h
  split at h
  · next m' hm =>
    obtain ⟨rfl, -⟩ := Prod.mk.inj (Option.some.inj h)
    exact List.mem_range.1 (List.mem_filter.1 (List.mem_of_find?_eq_some hm)).1
  · exact absurd h (by simp)

theorem State.noteForce_keepsClusters (s : State) (p : Nat) : KeepsClusters s (s.noteForce p) := by
  unfold State.noteForce
  dsimp only
  split
  · exact s.setPin_keepsClusters p _
  · split
    · exact .refl s
    · exact s.setPin_keepsClusters p _

theorem State.passInterlock_keepsClusters (s : State) (p : Nat) : KeepsClusters s (s.passInterlock p) := by
  unfold State.passInterlock
  split
  · split
    · exact s.setPin_keepsClusters p _
    · exact .refl s
  · exact .refl s

/-- A pad that settles changes its pin, the wear owed to it, and INTERLOCK_HELD of the mitten that forces it. -/
theorem State.settlePad_keepsClusters (s : State) (st : Stamp) (p : Nat) : KeepsClusters s (s.settlePad st p) := by
  have hpin (c d : PinState) : KeepsClusters s ((s.setPin p c).setPin p d) :=
    (s.setPin_keepsClusters p c).trans (State.setPin_keepsClusters _ p d)
  have hwear (b : Bool) (c d : PinState) : KeepsClusters s
      (if b = true then (s.setPin p c).setPin p d else ((s.setPin p c).setPin p d).noteWear 2 p) :=
    .ite (hpin c d) ((hpin c d).trans (State.noteWear_keepsClusters _ 2 p))
  unfold State.settlePad
  cases hact : s.action p with
  | none => exact hwear _ _ _
  | some a =>
    have ha : MIT_STATUS a.1 < 0x1000000 := by
      have hlt : a.1 < 32 := State.action_lt (x := a.2) hact
      unfold MIT_STATUS
      omega
    exact .ite ((hwear _ _ _).trans (State.raise_keepsClusters _ 4 ha)) (hwear _ _ _)

theorem State.refreshPins_keepsClusters (s : State) (st : Stamp) : KeepsClusters s (s.refreshPins st) := by
  have hforce := KeepsClusters.foldl State.noteForce_keepsClusters s.livePins s
  have hpass := KeepsClusters.foldl State.passInterlock_keepsClusters s.livePins (s.livePins.foldl State.noteForce s)
  exact (hforce.trans hpass).trans (.foldl (fun u p => u.settlePad_keepsClusters st p) _ _)

/-! ### The write that sets a cascade (R63) -/

/-- A pair that leaves complementary mode: both outputs are commanded by their own logic again (R76, R77). -/
def State.pairLeft (s : State) (k : Nat) : State :=
  let s := s.setChan (k + 1) { s.chan (k + 1) with level := s.outLevel (k + 1), bothLow := false, delayed := none }
  let s := s.setChan k { s.chan k with level := s.outLevel k, bothLow := false, delayed := none }
  let s := if s.outMode k = 3 then s else s.commandIdle k
  if s.outMode (k + 1) = 3 then s else s.commandIdle (k + 1)

@[simp] theorem State.pairMode_setChan (s : State) (k j : Nat) (c : Chan) : (s.setChan k c).pairMode j = s.pairMode j := rfl

/-- A pair that becomes a cascade has its shadow cleared. -/
theorem State.pairModeChanged_to_cascade {s : State} {k old : Nat} (hnew : s.pairMode k = 2) (hold : old ≠ 2) :
    s.pairModeChanged k old =
      if old = 1 then (s.setChan k { s.chan k with hiShadow := 0 }).pairLeft k else s.setChan k { s.chan k with hiShadow := 0 } := by
  have hne : ¬(s.setChan k { s.chan k with hiShadow := 0 }).pairMode k = 1 := by
    rw [State.pairMode_setChan, hnew]
    decide
  rw [State.pairModeChanged, if_neg (by omega), if_pos hnew]
  exact if_neg hne

theorem State.pairLeft_changes (s : State) (k : Nat) : ChangesOnly outputOffset s (s.pairLeft k) := by
  have hchans (c d : Chan) : ChangesOnly outputOffset s ((s.setChan (k + 1) c).setChan k d) :=
    ((ChangesOnly.refl s).setChan (k + 1) c).setChan k d
  have heven (c d : Chan) (p : Prop) [Decidable p] : ChangesOnly outputOffset s
      (if p then (s.setChan (k + 1) c).setChan k d else ((s.setChan (k + 1) c).setChan k d).commandIdle k) :=
    .ite (hchans c d) ((hchans c d).trans (State.commandIdle_changes _ k))
  exact .ite (heven _ _ _) ((heven _ _ _).trans (State.commandIdle_changes _ (k + 1)))

theorem State.pairLeft_keepsChanWords (s : State) (k : Nat) : KeepsChanWords s (s.pairLeft k) := by
  have hchans : KeepsChanWords s ((s.setChan (k + 1) { s.chan (k + 1) with level := s.outLevel (k + 1), bothLow := false, delayed := none })) :=
    (KeepsChanWords.refl s).setChan (k + 1) _ (by rfl) (by rfl)
  have hboth (u : State) (b : Bool) (hu : KeepsChanWords s u) :
      KeepsChanWords s (u.setChan k { u.chan k with level := b, bothLow := false, delayed := none }) := hu.setChan k _ (by rfl) (by rfl)
  have hidle (u : State) (j : Nat) (hu : KeepsChanWords s u) : KeepsChanWords s (if u.outMode j = 3 then u else u.commandIdle j) :=
    .ite hu (hu.trans (u.commandIdle_keepsChanWords j))
  exact hidle _ (k + 1) (hidle _ k (hboth _ _ hchans))

theorem State.pairModeChanged_cascade {s : State} {k old : Nat} (hnew : s.pairMode k = 2) (hold : old ≠ 2) :
    (s.pairModeChanged k old).reg (CH_CTRL k) = s.reg (CH_CTRL k) ∧ ((s.pairModeChanged k old).chan k).hiShadow = 0 := by
  have hctrl : ¬outputOffset (CH_CTRL k % 0x400) := by unfold outputOffset CH_CTRL; omega
  have hzero : ((s.setChan k { s.chan k with hiShadow := 0 }).chan k).hiShadow = 0 := by rw [State.chan_setChan_self]
  rw [State.pairModeChanged_to_cascade hnew hold]
  split
  · rw [(State.pairLeft_changes _ k).regs _ hctrl, (State.pairLeft_keepsChanWords _ k).hiShadow, State.reg_setChan]
    exact ⟨rfl, hzero⟩
  · exact ⟨State.reg_setChan .., hzero⟩

/-- PAIR_MODE of a pair is a field of its even channel. -/
theorem State.pairMode_even (s : State) {k : Nat} (hk : k % 2 = 0) : s.pairMode k = bitsOf (s.reg (CH_CTRL k)) 23 22 % 3 := by
  rw [State.pairMode, State.fld, show k / 2 * 2 = k by omega]

/-- A field that the mask covers comes from the new word. -/
theorem bitsOf_mergeWord {old new mask : Word} {hi lo : Nat} (h : ∀ i, lo ≤ i → i ≤ hi → mask.getLsbD i = true) :
    bitsOf (mergeWord old new mask) hi lo = bitsOf new hi lo := by
  apply Nat.eq_of_testBit_eq
  intro i
  rw [testBit_bitsOf, testBit_bitsOf, getLsbD_mergeWord]
  by_cases hi' : i < hi + 1 - lo
  · rw [h (lo + i) (by omega) (by omega), if_pos rfl]
  · simp [hi']

/-- A write of an even channel's CH_CTRL takes EN and PAIR_MODE as written. -/
theorem State.chCtrlWord_even (s : State) {k : Nat} (v : Word) (hk : k % 2 = 0) :
    (s.chCtrlWord k v).getLsbD 0 = v.getLsbD 0 ∧ bitsOf (s.chCtrlWord k v) 23 22 = bitsOf v 23 22 := by
  have hmask : ∀ i, 22 ≤ i → i ≤ 23 → (0x00F00711#32).getLsbD i = true := by
    intro i hlo hhi
    interval_cases i <;> rfl
  rw [State.chCtrlWord, if_pos hk]
  exact ⟨by rw [getLsbD_mergeWord]; rfl, bitsOf_mergeWord hmask⟩

/-- The write that makes a pair a cascade. -/
theorem State.chCtrlTaken_cascade {s : State} {k : Nat} {v : Word} (hk : k % 2 = 0) (hp : s.pairMode k ≠ 2) (hv : bitsOf v 23 22 = 2) :
    (s.chCtrlTaken k v).reg (CH_CTRL k) = s.chCtrlWord k v ∧ ((s.chCtrlTaken k v).chan k).hiShadow = 0 := by
  have hword : bitsOf (s.chCtrlWord k v) 23 22 = 2 := (s.chCtrlWord_even v hk).2.trans hv
  have hchange : s.pairChange k v = true := by
    rw [State.pairChange_iff, hword]
    rw [s.pairMode_even hk] at hp
    exact fun h => hp (by rw [h])
  have hnew : (s.setReg (CH_CTRL k) (s.chCtrlWord k v)).pairMode k = 2 := by
    rw [State.pairMode_even _ hk, State.reg_setReg_self, hword]
  obtain ⟨hreg, hshadow⟩ := State.pairModeChanged_cascade hnew hp
  have hpins := State.refreshPins_keepsClusters ((s.setReg (CH_CTRL k) (s.chCtrlWord k v)).pairModeChanged k (s.pairMode k))
    (s.setReg (CH_CTRL k) (s.chCtrlWord k v)).now
  rw [State.chCtrlTaken, hchange, if_pos rfl, hpins.regs _ (by unfold CH_CTRL; omega), hreg, State.reg_setReg_self, State.chan, hpins.chans]
  exact ⟨rfl, hshadow⟩

/-- A write that leaves a stopped counter stopped is only taken. -/
theorem State.chCtrlWrite_stopped {s : State} {k : Nat} {v : Word} (hr : s.chCtrlRefused k v = false) (hs : s.running k = false)
    (ht : (s.chCtrlTaken k v).running k = false) : s.chCtrlWrite k v = s.chCtrlTaken k v := by
  rw [State.chCtrlWrite_eq, hr, hs, ht]
  rfl

/-! ### The pair snapshot (R65) -/

theorem exec_pairSnapshotTake (s : State) (k : Fin 384) (v : Word) :
    exec (.pairSnapshotTake k v) s = .next (s.hostWrite (if k.val % 2 = 0 then PAIR_SNAPSHOT k else CH_CTRL k + 0x018) v
      fun s => s.pairSnapshot k v) := rfl

theorem exec_pairSnapshotTake_even {s : State} {k : Fin 384} {v : Word} (hk : k.val % 2 = 0) (ha : s.accepts (PAIR_SNAPSHOT k) v) :
    exec (.pairSnapshotTake k v) s = .next ((s.noteHost (PAIR_SNAPSHOT k)).pairSnapshot k v) := by
  rw [exec_pairSnapshotTake, if_pos hk, s.hostWrite_accepts _ ha]

theorem exec_pairSnapshotTake_odd {s : State} {k : Fin 384} {v : Word} (hk : k.val % 2 = 1) (ha : s.accepts (CH_CTRL k + 0x018) v) :
    exec (.pairSnapshotTake k v) s = .next ((s.noteHost (CH_CTRL k + 0x018)).pairSnapshot k v) := by
  rw [exec_pairSnapshotTake, if_neg (by omega), s.hostWrite_accepts _ ha]

theorem State.pairSnapshot_take (s : State) {k : Nat} {v : Word} (hk : k % 2 = 0) (hv : v.getLsbD 0 = true) :
    s.pairSnapshot k v = s.noteTake (.pair k) := by
  simp [State.pairSnapshot, hk, hv]

/-- A write without TAKE, or of an odd channel, captures nothing. -/
theorem State.pairSnapshot_none (s : State) {k : Nat} {v : Word} (h : v.getLsbD 0 = false ∨ k % 2 = 1) : s.pairSnapshot k v = s := by
  have hno : ¬(bitOf v 0 && k % 2 == 0) = true := by
    rw [Bool.and_eq_true, beq_iff_eq, bitOf]
    rintro ⟨htake, heven⟩
    exact h.elim (fun hv => Bool.false_ne_true (hv.symm.trans htake)) (by omega)
  exact if_neg hno

theorem State.runTakes_pair {s : State} {k : Nat} (ht : s.takes = [.pair k]) :
    s.runTakes = ({ s with takes := [] } : State).takePair k := by
  simp [State.runTakes, ht, Take.late, State.runTake]

/-- Registers at different offsets of a pair's block are different registers. -/
theorem pairReg_ne {a b : Nat} (hab : a ≠ b) (k : Nat) :
    a + k / 16 * 0x100000 + k % 16 / 2 * 0x800 ≠ b + k / 16 * 0x100000 + k % 16 / 2 * 0x800 := by omega

/-- Both counts and the machine time in the snapshot registers of the pair of channel `k`. -/
def State.layPair (s : State) (k : Nat) (lo hi : Word) (mt : BitVec 64) : State :=
  ((s.setReg (PAIR_SNAP_LO k) lo).setReg (PAIR_SNAP_HI k) hi).setPair (PAIR_SNAP_MT_LO k) (PAIR_SNAP_MT_HI k) mt

/-- The registers of a snapshot are different registers, and none of them is PAIR_SNAP_SEQ. -/
theorem State.layPair_shows (s : State) (k : Nat) (lo hi : Word) (mt : BitVec 64) :
    (s.layPair k lo hi mt).reg (PAIR_SNAP_LO k) = lo ∧ (s.layPair k lo hi mt).reg (PAIR_SNAP_HI k) = hi ∧
      (s.layPair k lo hi mt).pair (PAIR_SNAP_MT_LO k) (PAIR_SNAP_MT_HI k) = mt ∧
      ∀ a, a ∉ [PAIR_SNAP_LO k, PAIR_SNAP_HI k, PAIR_SNAP_MT_LO k, PAIR_SNAP_MT_HI k] → (s.layPair k lo hi mt).reg a = s.reg a := by
  have hmt : PAIR_SNAP_MT_LO k ≠ PAIR_SNAP_MT_HI k := pairReg_ne (by decide) k
  have hlohi : PAIR_SNAP_LO k ≠ PAIR_SNAP_HI k := pairReg_ne (by decide) k
  have hlo : PAIR_SNAP_LO k ≠ PAIR_SNAP_MT_LO k ∧ PAIR_SNAP_LO k ≠ PAIR_SNAP_MT_HI k :=
    ⟨pairReg_ne (by decide) k, pairReg_ne (by decide) k⟩
  have hhi : PAIR_SNAP_HI k ≠ PAIR_SNAP_MT_LO k ∧ PAIR_SNAP_HI k ≠ PAIR_SNAP_MT_HI k :=
    ⟨pairReg_ne (by decide) k, pairReg_ne (by decide) k⟩
  refine ⟨?_, ?_, State.pair_setPair_self _ _ _ _ hmt, fun a ha => ?_⟩
  · rw [State.layPair, State.reg_setPair_ne _ _ hlo.1 hlo.2, State.reg_setReg_ne _ _ hlohi, State.reg_setReg_self]
  · rw [State.layPair, State.reg_setPair_ne _ _ hhi.1 hhi.2, State.reg_setReg_self]
  · simp only [List.mem_cons, List.not_mem_nil, or_false, not_or] at ha
    obtain ⟨hlo, hhi, hmlo, hmhi⟩ := ha
    rw [State.layPair, State.reg_setPair_ne _ _ hmlo hmhi, State.reg_setReg_ne _ _ hhi, State.reg_setReg_ne _ _ hlo]

theorem State.takePair_eq (s : State) (k : Nat) :
    s.takePair k = (s.layPair k (s.reg (COUNT k)) (s.reg (COUNT (k + 1))) s.mt).setFld (PAIR_SNAP_SEQ k) 15 0
      ((s.layPair k (s.reg (COUNT k)) (s.reg (COUNT (k + 1))) s.mt).fld (PAIR_SNAP_SEQ k) 15 0 + 1) := by
  rw [State.takePair, State.setReg_mt, State.setReg_mt]
  rfl

/-- A register write changes the registers alone. -/
theorem State.setReg_frame {s t : State} (a : Nat) (v : Word) (h : t = { s with regs := t.regs }) :
    t.setReg a v = { s with regs := (t.setReg a v).regs } := by
  rw [h]
  rfl

theorem State.takePair_frame (s : State) (k : Nat) : s.takePair k = { s with regs := (s.takePair k).regs } := by
  have hlay (lo hi : Word) (mt : BitVec 64) : s.layPair k lo hi mt = { s with regs := (s.layPair k lo hi mt).regs } :=
    State.setReg_frame _ _ (State.setReg_frame _ _ (State.setReg_frame _ _ (State.setReg_frame _ _ rfl)))
  rw [s.takePair_eq k]
  exact State.setReg_frame _ _ (hlay _ _ _)

/-- What the snapshot of a pair shows of the state in which it is taken, and that it changes its own registers alone. -/
theorem State.takePair_shows (s : State) (k : Nat) :
    (s.takePair k).reg (PAIR_SNAP_LO k) = s.reg (COUNT k) ∧ (s.takePair k).reg (PAIR_SNAP_HI k) = s.reg (COUNT (k + 1)) ∧
      (s.takePair k).pair (PAIR_SNAP_MT_LO k) (PAIR_SNAP_MT_HI k) = s.mt ∧
      (s.takePair k).fld (PAIR_SNAP_SEQ k) 15 0 = (s.fld (PAIR_SNAP_SEQ k) 15 0 + 1) % 65536 ∧
      ∀ a, a ∉ [PAIR_SNAP_LO k, PAIR_SNAP_HI k, PAIR_SNAP_MT_LO k, PAIR_SNAP_MT_HI k, PAIR_SNAP_SEQ k] →
        (s.takePair k).reg a = s.reg a := by
  obtain ⟨hlo, hhi, hmt, hkeep⟩ := s.layPair_shows k (s.reg (COUNT k)) (s.reg (COUNT (k + 1))) s.mt
  have hnlo : PAIR_SNAP_LO k ≠ PAIR_SNAP_SEQ k := pairReg_ne (by decide) k
  have hnhi : PAIR_SNAP_HI k ≠ PAIR_SNAP_SEQ k := pairReg_ne (by decide) k
  have hnmlo : PAIR_SNAP_MT_LO k ≠ PAIR_SNAP_SEQ k := pairReg_ne (by decide) k
  have hnmhi : PAIR_SNAP_MT_HI k ≠ PAIR_SNAP_SEQ k := pairReg_ne (by decide) k
  have hseq := hkeep (PAIR_SNAP_SEQ k) (by simp [hnlo.symm, hnhi.symm, hnmlo.symm, hnmhi.symm])
  rw [s.takePair_eq k]
  refine ⟨?_, ?_, ?_, ?_, fun a ha => ?_⟩
  · rw [State.reg_setFld_ne _ _ _ _ hnlo, hlo]
  · rw [State.reg_setFld_ne _ _ _ _ hnhi, hhi]
  · rw [State.setFld, State.pair_setReg_ne _ _ hnmlo hnmhi, hmt]
  · rw [State.fld_setFld_self _ _ _ _ _ (by decide), State.fld, hseq, State.fld]
    rfl
  · simp only [List.mem_cons, List.not_mem_nil, or_false, not_or] at ha
    obtain ⟨hlo', hhi', hmlo, hmhi, hseq'⟩ := ha
    rw [State.reg_setFld_ne _ _ _ _ hseq', hkeep a (by simp [hlo', hhi', hmlo, hmhi])]

end Sys2Proof.Machine

namespace Sys2Proof.Proofs

open Sys2Proof.Machine Sys2Proof.Machine.Reg

/-- The write of PAIR_MODE that makes a pair of stopped counters a cascade leaves the shadow 0. -/
theorem chCtrlWrite_sets_cascade (k : Fin 384) (v : Word) (s : State) (ha : s.accepts (CH_CTRL k) v) (hk : k.val % 2 = 0)
    (heven : s.bit (CH_CTRL k) 0 = false) (hodd : s.bit (CH_CTRL (k.val + 1)) 0 = false) (hen : v.getLsbD 0 = false)
    (hp : s.pairMode k ≠ 2) (hv : bitsOf v 23 22 = 2) :
    ∃ t, exec (.chCtrlWrite k v) s = .next t ∧ t.pairMode k = 2 ∧ (t.chan k).hiShadow = 0 := by
  obtain ⟨hwen, hwpair⟩ := (s.noteHost (CH_CTRL k)).chCtrlWord_even v hk
  obtain ⟨hreg, hshadow⟩ := State.chCtrlTaken_cascade (s := s.noteHost (CH_CTRL k)) hk hp hv
  have hrefused : (s.noteHost (CH_CTRL k)).chCtrlRefused k v = false := by
    refine Bool.eq_false_iff.2 fun h => ?_
    obtain ⟨-, hon⟩ := (State.chCtrlRefused_iff _ k v).1 h
    rw [State.bit_noteHost, heven, hwen, hen, State.bit_noteHost, hodd] at hon
    simp at hon
  have hstands : ((s.noteHost (CH_CTRL k)).chCtrlTaken k v).running k = false := by
    refine State.running_eq_false_of_disabled ?_
    rw [State.bit, hreg, bitOf, hwen, hen]
  refine ⟨_, exec_chCtrlWrite k ha, ?_⟩
  rw [State.chCtrlWrite_stopped hrefused (State.running_eq_false_of_disabled heven) hstands, State.pairMode_even _ hk, hreg, hwpair, hv]
  exact ⟨rfl, hshadow⟩

/-- Settles O9: the three reads of COUNT, the write that sets a cascade, and the snapshot with TAKE, without it and on an odd channel. -/
theorem cascadesAreReadWhole : Obligations.CascadesAreReadWhole := by
  refine ⟨⟨fun k s hs hp hk => exec_countRead hs (State.countRead_even hp hk) rfl,
      fun k s hs hp hk => exec_countRead hs (State.countRead_odd hp hk) rfl,
      fun k s hs hp => exec_countRead hs (State.countRead_single hp) rfl, chCtrlWrite_sets_cascade⟩,
    fun k v s ha hv hk => ?_, fun k s hk ht => ?_, fun k v s hk ha hv => ?_, fun k v s hk ha => ?_⟩
  · rw [exec_pairSnapshotTake_even hk ha, State.pairSnapshot_take _ hk hv]
  · obtain ⟨hlo, hhi, hmt, hseq, hkeep⟩ := ({ s with takes := [] } : State).takePair_shows k
    refine ⟨_, rfl, ?_⟩
    rw [State.runTakes_pair ht]
    exact ⟨hlo, hhi, hmt, hseq, hkeep, State.takePair_frame _ k⟩
  · rw [exec_pairSnapshotTake_even hk ha, State.pairSnapshot_none _ (.inl hv)]
  · rw [exec_pairSnapshotTake_odd hk ha, State.pairSnapshot_none _ (.inr hk)]

end Sys2Proof.Proofs
end

section
/-!
PROOFS. The output's configuration (R67, R70, R74): writes of OUT_CTRL, OUT_FINE and DT_CFG, then the statement about them.
-/

namespace Sys2Proof.Machine

open Reg

/-! ### Writes of OUT_CTRL (R67, R70) -/

/-- OUT_CTRL has taken a write of `v`: IDLE, SYNC_FWD, SYNC_DRV and the preload OUT_MODE. -/
def State.outCtrlTaken (s : State) (k : Nat) (v : Word) : State :=
  s.setReg (OUT_CTRL k) (mergeWord (s.reg (OUT_CTRL k)) v 0x00000F07#32)

/-- OUT_CTRL has taken a write, and OUT_MODE of a stopped counter is copied. -/
def State.outCtrlCopied (s : State) (k : Nat) (v : Word) : State :=
  if s.running k = true then s.outCtrlTaken k v else (s.outCtrlTaken k v).copyMode k

theorem State.running_outCtrlTaken (s : State) (k : Nat) (v : Word) : (s.outCtrlTaken k v).running k = s.running k :=
  s.running_setReg _ (chanReg_ne (by decide) k) (chanReg_ne (by decide) k)

/-- While the counter runs, and the output is not at its IDLE level, the write is only taken. -/
theorem State.outCtrlWrite_running {s : State} {k : Nat} (v : Word) (hr : s.running k = true) (hi : s.bit (OUT_STATUS k) 1 = false) :
    s.outCtrlWrite k v = s.outCtrlTaken k v := by
  have hne : OUT_STATUS k ≠ OUT_CTRL k := chanReg_ne (by decide) k
  have hr' : (s.outCtrlTaken k v).running k = true := (s.running_outCtrlTaken k v).trans hr
  have hi' : (s.outCtrlTaken k v).bit (OUT_STATUS k) 1 = false := by
    rw [State.bit, State.outCtrlTaken, State.reg_setReg_ne _ _ hne, ← State.bit, hi]
  rw [State.outCtrlWrite, ← State.outCtrlTaken]
  simp [hr', hi']

/-- Once OUT_MODE is copied, the write only commands the IDLE level. -/
theorem State.outCtrlWrite_changes (s : State) (k : Nat) (v : Word) : ChangesOnly outputOffset (s.outCtrlCopied k v) (s.outCtrlWrite k v) := by
  have hcopied : s.outCtrlCopied k v =
      if (s.outCtrlTaken k v).running k = true then s.outCtrlTaken k v else (s.outCtrlTaken k v).copyMode k := by
    rw [State.running_outCtrlTaken, State.outCtrlCopied]
  rw [hcopied]
  exact (ChangesOnly.ite (State.commandIdle_changes _ k) (.refl _)).trans (.ite (State.commandIdle_changes _ k) (.refl _))

/-- A field that the mask leaves out comes from the old word. -/
theorem bitsOf_mergeWord_kept {old new mask : Word} {hi lo : Nat} (h : ∀ i, lo ≤ i → i ≤ hi → mask.getLsbD i = false) :
    bitsOf (mergeWord old new mask) hi lo = bitsOf old hi lo := by
  apply Nat.eq_of_testBit_eq
  intro i
  rw [testBit_bitsOf, testBit_bitsOf, getLsbD_mergeWord]
  by_cases hi' : i < hi + 1 - lo
  · rw [h (lo + i) (by omega) (by omega), if_neg Bool.false_ne_true]
  · simp [hi']

/-- What a write of OUT_CTRL takes: IDLE, SYNC_FWD and SYNC_DRV, and OUT_MODE; OUT_MODE_ACT is not written. -/
theorem State.outCtrlTaken_fields (s : State) (k : Nat) (v : Word) :
    (s.outCtrlTaken k v).fld (OUT_CTRL k) 11 8 = bitsOf v 11 8 ∧ (s.outCtrlTaken k v).fld (OUT_CTRL k) 2 0 = bitsOf v 2 0 ∧
      (s.outCtrlTaken k v).fld (OUT_CTRL k) 14 12 = s.fld (OUT_CTRL k) 14 12 := by
  rw [State.fld, State.fld, State.fld, State.outCtrlTaken, State.reg_setReg_self]
  refine ⟨bitsOf_mergeWord fun i hlo hhi => ?_, bitsOf_mergeWord fun i hlo hhi => ?_, bitsOf_mergeWord_kept fun i hlo hhi => ?_⟩ <;>
  · interval_cases i <;> rfl

/-- A copy of OUT_MODE leaves the other fields of OUT_CTRL. -/
theorem State.fld_copyMode (s : State) (k : Nat) {hi lo : Nat} (h : hi < 12) : (s.copyMode k).fld (OUT_CTRL k) hi lo = s.fld (OUT_CTRL k) hi lo := by
  have hctrl : ¬outputOffset (OUT_CTRL k % 0x400) := by unfold outputOffset OUT_CTRL; omega
  rw [State.fld, (s.copyMode_changes_output k).regs _ hctrl, ← State.fld, State.fld_setFld_ne _ _ _ _ _ _ _ (.inl h)]

theorem State.outCtrlCopied_fields (s : State) (k : Nat) (v : Word) :
    (s.outCtrlCopied k v).fld (OUT_CTRL k) 11 8 = bitsOf v 11 8 ∧ (s.outCtrlCopied k v).fld (OUT_CTRL k) 2 0 = bitsOf v 2 0 ∧
      (s.outCtrlCopied k v).fld (OUT_CTRL k) 14 12 = if s.running k = true then s.fld (OUT_CTRL k) 14 12 else bitsOf v 2 0 := by
  obtain ⟨hnow, hmode, hact⟩ := s.outCtrlTaken_fields k v
  rw [State.outCtrlCopied]
  split
  · exact ⟨hnow, hmode, hact⟩
  · rw [State.fld_copyMode _ k (by decide), State.fld_copyMode _ k (by decide), State.modeAct_copyMode]
    exact ⟨hnow, hmode, hmode⟩

theorem exec_outCtrlWrite {s : State} (k : Fin 384) {v : Word} (ha : s.accepts (OUT_CTRL k) v) :
    exec (.outCtrlWrite k v) s = .next ((s.noteHost (OUT_CTRL k)).outCtrlWrite k v) := congrArg Host.Outcome.next (s.hostWrite_accepts _ ha)

/-! ### Writes of OUT_FINE and DT_CFG (R74) -/

theorem State.outFineWrite_eq (s : State) (k : Nat) (v : Word) :
    s.outFineWrite k v =
      let w := mergeWord (s.reg (OUT_FINE k)) v 0x003F3F3F#32
      let t := s.setReg (OUT_FINE k) w
      if s.running k = true then t else t.setChan k { s.chan k with outFineAct := w } := by
  have hc : CH_CTRL k ≠ OUT_FINE k := chanReg_ne (by decide) k
  have hp : PERIOD_ACT k ≠ OUT_FINE k := chanReg_ne (by decide) k
  rw [State.outFineWrite]
  dsimp only
  rw [State.running_setReg _ _ hc hp, State.reg_setReg_self, State.chan_setReg]

theorem State.dtCfgWrite_even (s : State) {k : Nat} (v : Word) (hk : k % 2 = 0) :
    s.dtCfgWrite k v =
      let t := s.setReg (DT_CFG k) v
      if s.running k = true then t else t.setChan k { s.chan k with dtAct := v } := by
  have hc : CH_CTRL k ≠ DT_CFG k := by unfold CH_CTRL DT_CFG; omega
  have hp : PERIOD_ACT k ≠ DT_CFG k := by unfold PERIOD_ACT DT_CFG; omega
  rw [State.dtCfgWrite, if_neg (by omega)]
  dsimp only
  rw [State.running_setReg _ _ hc hp, State.chan_setReg]

theorem State.dtCfgWrite_odd (s : State) {k : Nat} (v : Word) (hk : k % 2 = 1) : s.dtCfgWrite k v = s := if_pos hk

/-- OUT_FINE and DT_CFG have one row, and an odd channel has no DT_CFG. -/
theorem exec_fineOrDeadTimeWrite (s : State) (k : Fin 384) (dt : Bool) (v : Word) :
    exec (.outFineWrite k dt v) s = .next (s.hostWrite (if dt then (if k.val % 2 = 0 then DT_CFG k else CH_CTRL k + 0x068) else OUT_FINE k) v
      fun t => if dt then t.dtCfgWrite k v else t.outFineWrite k v) := rfl

theorem exec_outFineWrite {s : State} (k : Fin 384) {v : Word} (ha : s.accepts (OUT_FINE k) v) :
    exec (.outFineWrite k false v) s = .next ((s.noteHost (OUT_FINE k)).outFineWrite k v) := by
  simp only [exec_fineOrDeadTimeWrite, Bool.false_eq_true, if_false, s.hostWrite_accepts _ ha]

theorem exec_dtCfgWrite_even {s : State} {k : Fin 384} {v : Word} (hk : k.val % 2 = 0) (ha : s.accepts (DT_CFG k) v) :
    exec (.outFineWrite k true v) s = .next ((s.noteHost (DT_CFG k)).dtCfgWrite k v) := by
  simp only [exec_fineOrDeadTimeWrite, if_true, hk, s.hostWrite_accepts _ ha]

theorem exec_dtCfgWrite_odd {s : State} {k : Fin 384} {v : Word} (hk : k.val % 2 = 1) (ha : s.accepts (CH_CTRL k + 0x068) v) :
    exec (.outFineWrite k true v) s = .next ((s.noteHost (CH_CTRL k + 0x068)).dtCfgWrite k v) := by
  simp only [exec_fineOrDeadTimeWrite, if_true, hk, Nat.one_ne_zero, if_false, s.hostWrite_accepts _ ha]

end Sys2Proof.Machine

namespace Sys2Proof.Proofs

open Sys2Proof.Machine Sys2Proof.Machine.Reg

/-- A write of OUT_CTRL shows in its fields at once, and in OUT_MODE_ACT while the counter is stopped. -/
theorem outCtrlWrite_shows (k : Fin 384) (v : Word) (s : State) (ha : s.accepts (OUT_CTRL k) v) :
    ∃ t, exec (.outCtrlWrite k v) s = .next t ∧ t.fld (OUT_CTRL k) 11 8 = bitsOf v 11 8 ∧ t.fld (OUT_CTRL k) 2 0 = bitsOf v 2 0 ∧
      t.fld (OUT_CTRL k) 14 12 = (if s.running k = true then s.fld (OUT_CTRL k) 14 12 else bitsOf v 2 0) := by
  have hctrl : ¬outputOffset (OUT_CTRL k % 0x400) := by unfold outputOffset OUT_CTRL; omega
  have hword := ((s.noteHost (OUT_CTRL k)).outCtrlWrite_changes k v).regs _ hctrl
  refine ⟨_, exec_outCtrlWrite k ha, ?_⟩
  simp only [State.fld, hword]
  exact (s.noteHost (OUT_CTRL k)).outCtrlCopied_fields k v

/-- Settles O13: OUT_CTRL of a running counter and in general, then OUT_FINE and DT_CFG, the latter on even and odd channels. -/
theorem outputConfigurationIsPreloaded : Obligations.OutputConfigurationIsPreloaded := by
  refine ⟨fun k v s ha hr hi => ?_, outCtrlWrite_shows, fun k v s ha => ?_, fun k v s hk ha => ?_, fun k v s hk ha => ?_⟩
  · have hwrite : (s.noteHost (OUT_CTRL k)).outCtrlWrite k v = _ := State.outCtrlWrite_running v hr hi
    rw [exec_outCtrlWrite k ha, hwrite, State.outCtrlTaken, State.reg_noteHost]
  · rw [exec_outFineWrite k ha, State.outFineWrite_eq, State.running_noteHost, State.reg_noteHost, State.chan_noteHost]
  · rw [exec_dtCfgWrite_even hk ha, State.dtCfgWrite_even _ v hk, State.running_noteHost, State.chan_noteHost]
  · rw [exec_dtCfgWrite_odd hk ha, State.dtCfgWrite_odd _ v hk]

end Sys2Proof.Proofs
end

section
/-!
PROOFS. The edge unit (R75, R76): what an edge that leaves it shows and leaves alone, when an edge is emitted and when it is held, then the
statement about it.
-/

namespace Sys2Proof.Machine

open Reg

/-! ### An edge that leaves the edge unit (R66, R75) -/

theorem State.openCuffs_keepsClusters (s : State) (st : Stamp) (ps : List Nat) : KeepsClusters s (s.openCuffs st ps) := by
  refine .foldl ?_ _ s
  exact fun s _ => .ite ⟨rfl, fun _ _ => rfl⟩ (.refl s)

/-- A bit of a cluster's register, put in each of two states that agree on the clusters. -/
theorem KeepsClusters.setBit {s t : State} (h : KeepsClusters s t) (a i : Nat) (b : Bool) (ha : 0x1000000 ≤ a) :
    KeepsClusters (s.setBit a i b) (t.setBit a i b) := by
  refine ⟨h.chans, fun c hc => ?_⟩
  rw [State.setBit, State.setBit, State.reg_setReg, State.reg_setReg, h.regs a ha, h.regs c hc]

/-- Channel `k` once an edge to level `lvl` has left it at stamp `st`. -/
def State.emittedChan (s : State) (k : Nat) (st : Stamp) (lvl : Bool) : Chan :=
  { s.chan k with
    lastEdge := some st
    splitAt := match (s.chan k).splitAt with | some b => if s.earlier st b then (s.chan k).splitAt else none | none => none
    lastTap := some (s.edgeTap k st)
    lastFall := if lvl then (s.chan k).lastFall else some st }

/-- Beside the channel and its level in OUT_STATUS, an edge changes only wear, pins and cuffs. -/
theorem State.emit_keepsClusters (s : State) (k : Nat) (st : Stamp) (lvl : Bool) :
    KeepsClusters ((s.setChan k (s.emittedChan k st lvl)).setBit (OUT_STATUS k) 8 lvl) (s.emit k st lvl) := by
  have hwear (c : Prop) [Decidable c] : KeepsClusters (s.setChan k (s.emittedChan k st lvl))
      (if c then (s.setChan k (s.emittedChan k st lvl)).noteWear 1 k else s.setChan k (s.emittedChan k st lvl)) :=
    .ite (State.noteWear_keepsClusters _ 1 k) (.refl _)
  have hpads (c : Prop) [Decidable c] := ((hwear c).setBit (OUT_STATUS k) 8 lvl (by unfold OUT_STATUS; omega)).trans
    (State.refreshPins_keepsClusters _ st)
  exact .ite (hpads _) ((hpads _).trans (State.openCuffs_keepsClusters _ st _))

theorem State.outLevel_emit (s : State) (k : Nat) (st : Stamp) (lvl : Bool) : (s.emit k st lvl).outLevel k = lvl := by
  rw [State.outLevel, State.bit, (s.emit_keepsClusters k st lvl).regs _ (by unfold OUT_STATUS; omega), ← State.bit,
    State.bit_setBit_self _ _ _ _ (by decide)]

theorem State.chan_emit (s : State) (k : Nat) (st : Stamp) (lvl : Bool) : (s.emit k st lvl).chan k = s.emittedChan k st lvl := by
  rw [State.chan, (s.emit_keepsClusters k st lvl).chans, ← State.chan, State.chan_setBit, State.chan_setChan_self]

/-! ### Two writes of one channel -/

theorem Table.erase_of_ne {α : Type} (t : Table α) {a : Nat} (h : ∀ e ∈ t, e.1 ≠ a) : Table.erase t a = t := by
  induction t with
  | nil => rfl
  | cons e t ih =>
    obtain ⟨hne, ht⟩ := List.forall_mem_cons.1 h
    rw [Table.erase, if_neg hne, ih ht]

theorem Table.erase_insert {α : Type} (t : Table α) {a : Nat} (v : α) (h : ∀ e ∈ t, e.1 ≠ a) :
    Table.erase (Table.insert t a v) a = t := by
  induction t with
  | nil => simp [Table.insert, Table.erase]
  | cons e t ih =>
    obtain ⟨hne, ht⟩ := List.forall_mem_cons.1 h
    rw [Table.insert]
    split
    · rw [Table.erase, if_pos rfl, Table.erase_of_ne _ h]
    · rw [Table.erase, if_neg hne, ih ht]

/-- The first of two writes of one key leaves nothing. -/
theorem Table.set_set {α : Type} [DecidableEq α] (d : Nat → α) (t : Table α) (a : Nat) (v w : α) :
    Table.set d (Table.set d t a v) a w = Table.set d t a w := by
  have herase : Table.erase (Table.set d t a v) a = Table.erase t a := by
    rw [Table.set]
    split
    · exact Table.erase_of_ne _ (Table.ne_of_mem_erase t a)
    · exact Table.erase_insert _ v (Table.ne_of_mem_erase t a)
  rw [Table.set, herase, Table.set]

theorem State.setChan_setChan (s : State) (k : Nat) (c d : Chan) : (s.setChan k c).setChan k d = s.setChan k d := by
  rw [State.setChan, State.setChan_chans, Table.set_set]
  rfl

/-! ### Emitted or held (R75) -/

theorem State.lastEdge_setChan (s : State) {k : Nat} {c : Chan} (h : c.lastEdge = (s.chan k).lastEdge) :
    (s.setChan k c).lastEdge k = s.lastEdge k := by
  rw [State.lastEdge, State.chan_setChan_self, h, State.now_setChan, State.lastEdge]

/-- An edge that changes the output, 256 fine steps or more after the last one, leaves at its stamp. -/
theorem State.edgeUnit_emits {s : State} {k : Nat} {c : Chan} {e : Edge} (hh : c.held = none) (hc : c.lastEdge = (s.chan k).lastEdge)
    (hl : e.level ≠ s.outLevel k) (hd : ∀ l, s.lastEdge k = some l → 256 ≤ ahead e.stamp l) :
    (s.setChan k c).edgeUnit k e = (s.setChan k c).emit k e.stamp e.level := by
  rw [State.edgeUnit, State.chan_setChan_self, hh, s.lastEdge_setChan hc]
  refine (if_neg hl).trans ?_
  cases hlast : s.lastEdge k with
  | none => rfl
  | some l => exact if_pos (hd l hlast)

/-- An edge that changes the output sooner is held. -/
theorem State.edgeUnit_holds {s : State} {k : Nat} {c : Chan} {e : Edge} {l : Stamp} (hh : c.held = none)
    (hc : c.lastEdge = (s.chan k).lastEdge) (hl : e.level ≠ s.outLevel k) (hlast : s.lastEdge k = some l) (hd : ahead e.stamp l < 256) :
    (s.setChan k c).edgeUnit k e = (s.setChan k { c with held := some { e with stamp := l + 256 } }).merged k := by
  rw [State.edgeUnit, State.chan_setChan_self, hh, s.lastEdge_setChan hc, hlast]
  refine (if_neg hl).trans ((if_neg (by omega)).trans ?_)
  rw [State.setChan_setChan]

/-- With nothing held and nothing delayed, the earliest commanded edge reaches the edge unit in the tick of its stamp. -/
theorem State.edgeEmit_due {s : State} {k : Nat} {e : Edge} {rest : List Edge} (he : (s.chan k).edges = e :: rest)
    (hp : s.inPair k = false) (hr : s.stampReached (s.pickEdge e rest).1.stamp = true) (hh : (s.chan k).held = none)
    (hd : (s.chan k).delayed = none) :
    s.edgeEmit k = (s.setChan k { s.chan k with edges := (s.pickEdge e rest).2 }).edgeUnit k (s.pickEdge e rest).1 := by
  have howes : s.owesBefore k (s.pickEdge e rest).1.stamp = false := by simp [State.owesBefore, hh, hd]
  have hpair (c : Chan) : (s.setChan k c).inPair k = false := hp
  simp only [State.edgeEmit, he, howes, hp, hr, State.handOver, hpair]
  rfl

/-- A delayed rise, once its dead time is over and neither output of the pair holds an edge, reaches the edge unit. -/
theorem State.deadTimeRise_due {s : State} {k : Nat} {d : Edge} (hd : (s.chan k).delayed = some d)
    (hr : s.stampReached (s.riseStamp k d) = true) (hh : (s.chan k).held = none) (hp : (s.chan (partnerCh k)).held = none) :
    s.deadTimeRise k = (s.setChan k { s.chan k with delayed := none }).edgeUnit k { d with stamp := s.riseStamp k d, level := true } := by
  simp [State.deadTimeRise, hd, hr, hh, hp]

theorem State.pendingEdgeEmit_due {s : State} {k : Nat} {h : Edge} (hh : (s.chan k).held = some h) (hr : s.stampReached h.stamp = true) :
    s.pendingEdgeEmit k = (s.setChan k { s.chan k with held := none }).emit k h.stamp h.level := by
  simp [State.pendingEdgeEmit, hh, hr]

theorem exec_edgeEmit {s : State} (k : Fin 384) (hc : s.clocked) : exec (.edgeEmit k) s = .next (s.edgeEmit k) :=
  congrArg Host.Outcome.next (s.onTclk_clocked _ hc)

theorem exec_pendingEdgeEmit {s : State} (k : Fin 384) (hc : s.clocked) : exec (.pendingEdgeEmit k) s = .next (s.pendingEdgeEmit k) :=
  congrArg Host.Outcome.next (s.onTclk_clocked _ hc)

theorem exec_deadTimeRise {s : State} (k : Fin 384) (hc : s.clocked) : exec (.deadTimeRise k) s = .next (s.deadTimeRise k) :=
  congrArg Host.Outcome.next (s.onTclk_clocked _ hc)

end Sys2Proof.Machine

namespace Sys2Proof.Proofs

open Sys2Proof.Machine Sys2Proof.Machine.Reg

/-- The earliest commanded edge leaves when it lies far enough after the last one. -/
theorem edgeEmit_emits (k : Fin 384) (s : State) (e : Edge) (rest : List Edge) (hc : s.clocked) (he : (s.chan k).edges = e :: rest)
    (hp : s.inPair k = false) (hr : s.stampReached (s.pickEdge e rest).1.stamp = true) (hh : (s.chan k).held = none)
    (hd : (s.chan k).delayed = none) (hl : (s.pickEdge e rest).1.level ≠ s.outLevel k)
    (hfar : ∀ l, s.lastEdge k = some l → 256 ≤ ahead (s.pickEdge e rest).1.stamp l) :
    ∃ t, exec (.edgeEmit k) s = .next t ∧ t.outLevel k = (s.pickEdge e rest).1.level ∧
      (t.chan k).lastEdge = some (s.pickEdge e rest).1.stamp ∧ (t.chan k).edges = (s.pickEdge e rest).2 := by
  have hemits := (State.edgeEmit_due he hp hr hh hd).trans (State.edgeUnit_emits hh rfl hl hfar)
  refine ⟨_, exec_edgeEmit k hc, ?_⟩
  rw [hemits, State.outLevel_emit, State.chan_emit, State.emittedChan, State.chan_setChan_self]
  exact ⟨rfl, rfl, rfl⟩

/-- The earliest commanded edge is held when it lies too soon after the last one. -/
theorem edgeEmit_holds (k : Fin 384) (s : State) (e : Edge) (rest : List Edge) (l : Stamp) (hc : s.clocked)
    (he : (s.chan k).edges = e :: rest) (hp : s.inPair k = false) (hr : s.stampReached (s.pickEdge e rest).1.stamp = true)
    (hh : (s.chan k).held = none) (hd : (s.chan k).delayed = none) (hl : (s.pickEdge e rest).1.level ≠ s.outLevel k)
    (hlast : s.lastEdge k = some l) (hnear : ahead (s.pickEdge e rest).1.stamp l < 256) :
    exec (.edgeEmit k) s = .next ((s.setChan k { s.chan k with
      edges := (s.pickEdge e rest).2, held := some { (s.pickEdge e rest).1 with stamp := l + 256 } }).raise (OUT_STATUS k) 0) := by
  rw [exec_edgeEmit k hc]
  exact congrArg Host.Outcome.next ((State.edgeEmit_due he hp hr hh hd).trans (State.edgeUnit_holds hh rfl hl hlast hnear))

/-- A held edge leaves at its stamp. -/
theorem pendingEdgeEmit_emits (k : Fin 384) (s : State) (h : Edge) (hc : s.clocked) (hh : (s.chan k).held = some h)
    (hr : s.stampReached h.stamp = true) :
    ∃ t, exec (.pendingEdgeEmit k) s = .next t ∧ t.outLevel k = h.level ∧ (t.chan k).lastEdge = some h.stamp ∧ (t.chan k).held = none := by
  refine ⟨_, exec_pendingEdgeEmit k hc, ?_⟩
  rw [State.pendingEdgeEmit_due hh hr, State.outLevel_emit, State.chan_emit, State.emittedChan, State.chan_setChan_self]
  exact ⟨rfl, rfl, rfl⟩

/-- A delayed rise of an output without an earlier edge leaves at the end of its dead time. -/
theorem deadTimeRise_emits (k : Fin 384) (s : State) (d : Edge) (hc : s.clocked) (hd : (s.chan k).delayed = some d)
    (hr : s.stampReached (s.riseStamp k d) = true) (hh : (s.chan k).held = none) (hp : (s.chan (partnerCh k)).held = none)
    (hl : s.outLevel k = false) (hlast : s.lastEdge k = none) :
    ∃ t, exec (.deadTimeRise k) s = .next t ∧ t.outLevel k = true ∧ (t.chan k).lastEdge = some (s.riseStamp k d) ∧
      (t.chan k).delayed = none := by
  have hchange : true ≠ s.outLevel k := fun h => Bool.false_ne_true (hl.symm.trans h.symm)
  have hfar : ∀ l, s.lastEdge k = some l → 256 ≤ ahead (s.riseStamp k d) l := fun l h => absurd (hlast.symm.trans h) (by simp)
  have hemits := (State.deadTimeRise_due hd hr hh hp).trans (State.edgeUnit_emits hh rfl hchange hfar)
  refine ⟨_, exec_deadTimeRise k hc, ?_⟩
  rw [hemits, State.outLevel_emit, State.chan_emit, State.emittedChan, State.chan_setChan_self]
  exact ⟨rfl, rfl, rfl⟩

/-- Settles O15: the commanded edge that leaves and the one that is held, the held edge, and the delayed rise. -/
theorem edgesLeaveTheEdgeUnitAtTheirStamps : Obligations.EdgesLeaveTheEdgeUnitAtTheirStamps :=
  ⟨edgeEmit_emits, edgeEmit_holds, pendingEdgeEmit_emits, deadTimeRise_emits⟩

end Sys2Proof.Proofs
end

section
/-!
PROOFS. What the output logic and the counter of one channel change (R43 to R82): registers of that channel alone, at the offsets that each
operation writes, and that none of them makes a train restart due. `ChangesOnly` gives the offsets in any channel; here the channel matters,
for a carry steps the next channel's counter.
-/

namespace Sys2Proof.Machine

open Reg

/-! ### Changes within one channel -/

/-- Offsets of what a period end writes once WRAP is set, beside a COUNT that it clears: those of the preloads' copies and CMP_STATUS. -/
def wrapOffset (o : Nat) : Prop := compareOffset o ∨ modeOffset o ∨ o = 0x14 ∨ o = 0x34

/-- From `s` to `t` no register changes but those of channel `k` at an offset of `P`, and no channel that had no train start due comes to
have one. -/
structure ChangesIn (P : Nat → Prop) (k : Nat) (s t : State) : Prop where
  regs : ∀ a, (∀ o, P o → a ≠ CH_CTRL k + o) → t.reg a = s.reg a
  noTrainStart : ∀ i, (s.chan i).trainStart = none → (t.chan i).trainStart = none

theorem COUNT_eq (k : Nat) : COUNT k = CH_CTRL k + 0x10 := by unfold COUNT CH_CTRL; omega

theorem CH_STATUS_eq (k : Nat) : CH_STATUS k = CH_CTRL k + 0x04 := by unfold CH_STATUS CH_CTRL; omega

theorem PERIOD_ACT_eq (k : Nat) : PERIOD_ACT k = CH_CTRL k + 0x14 := by unfold PERIOD_ACT CH_CTRL; omega

theorem PRESCALE_eq (k : Nat) : PRESCALE k = CH_CTRL k + 0x08 := by unfold PRESCALE CH_CTRL; omega

theorem CMP_CFG_eq (k : Nat) : CMP_CFG k = CH_CTRL k + 0x30 := by unfold CMP_CFG CH_CTRL; omega

theorem CMP_STATUS_eq (k : Nat) : CMP_STATUS k = CH_CTRL k + 0x34 := by unfold CMP_STATUS CH_CTRL; omega

theorem CMP_ACT_eq (k x : Nat) : CMP_ACT k x = CH_CTRL k + (0x40 + x * 4) := by unfold CMP_ACT CH_CTRL; omega

theorem OUT_CTRL_eq (k : Nat) : OUT_CTRL k = CH_CTRL k + 0x60 := by unfold OUT_CTRL CH_CTRL; omega

theorem OUT_STATUS_eq (k : Nat) : OUT_STATUS k = CH_CTRL k + 0x70 := by unfold OUT_STATUS CH_CTRL; omega

theorem PT_EMIT_eq (k : Nat) : PT_EMIT k = CH_CTRL k + 0x88 := by unfold PT_EMIT CH_CTRL; omega

theorem PT_STATUS_eq (k : Nat) : PT_STATUS k = CH_CTRL k + 0x94 := by unfold PT_STATUS CH_CTRL; omega

namespace ChangesIn

variable {P Q : Nat → Prop} {k : Nat} {r s t : State}

theorem refl (s : State) : ChangesIn P k s s := ⟨fun _ _ => rfl, fun _ h => h⟩

theorem trans (h : ChangesIn P k r s) (h' : ChangesIn P k s t) : ChangesIn P k r t :=
  ⟨fun a ha => (h'.regs a ha).trans (h.regs a ha), fun i hi => h'.noTrainStart i (h.noTrainStart i hi)⟩

theorem mono (h : ChangesIn P k s t) (hPQ : ∀ {o}, P o → Q o) : ChangesIn Q k s t :=
  ⟨fun a ha => h.regs a fun o ho => ha o (hPQ ho), h.noTrainStart⟩

/-- What the output logic does is part of what a period end does. -/
theorem output (h : ChangesIn wrapOffset k r s) (h' : ChangesIn outputOffset k s t) : ChangesIn wrapOffset k r t :=
  h.trans (h'.mono fun ho => .inr (.inl (.inr ho)))

/-- What a period end does is part of what a counter does. -/
theorem counter (h : ChangesIn counterOffset k r s) (h' : ChangesIn wrapOffset k s t) : ChangesIn counterOffset k r t :=
  by
  refine h.trans (h'.mono fun ho => ?_)
  rcases ho with ho | ho | ho | ho
  · exact .inl ho
  · exact .inr (.inl ho)
  · exact .inr (.inr (.inr (.inr (.inl ho))))
  · exact .inr (.inr (.inr (.inr (.inr ho))))

/-- An update of other fields than registers and channels. -/
theorem of_eq (hr : t.regs = s.regs) (hc : t.chans = s.chans) : ChangesIn P k s t where
  regs a _ := by rw [State.reg, hr, State.reg]
  noTrainStart i hi := by rwa [State.chan, hc, ← State.chan]

theorem ite {c : Prop} [Decidable c] (h : ChangesIn P k r s) (h' : ChangesIn P k r t) : ChangesIn P k r (if c then s else t) := by
  split <;> assumption

theorem foldl {α : Type} {f : State → α → State} (l : List α) (hf : ∀ s, ∀ x ∈ l, ChangesIn P k s (f s x)) (s : State) :
    ChangesIn P k s (l.foldl f s) := by
  induction l generalizing s with
  | nil => exact refl s
  | cons x l ih => exact (hf s x List.mem_cons_self).trans (ih (fun s y hy => hf s y (List.mem_cons_of_mem x hy)) _)

theorem setReg (h : ChangesIn P k r s) {a o : Nat} (v : Word) (ha : a = CH_CTRL k + o) (ho : P o) : ChangesIn P k r (s.setReg a v) :=
  h.trans ⟨fun _ hb => s.reg_setReg_ne v (ha ▸ hb o ho), fun _ hi => hi⟩

theorem setFld (h : ChangesIn P k r s) {a o : Nat} (hi lo v : Nat) (ha : a = CH_CTRL k + o) (ho : P o) :
    ChangesIn P k r (s.setFld a hi lo v) := h.setReg _ ha ho

theorem setBit (h : ChangesIn P k r s) {a o : Nat} (i : Nat) (b : Bool) (ha : a = CH_CTRL k + o) (ho : P o) :
    ChangesIn P k r (s.setBit a i b) := h.setReg _ ha ho

theorem raise (h : ChangesIn P k r s) {a o : Nat} (i : Nat) (ha : a = CH_CTRL k + o) (ho : P o) : ChangesIn P k r (s.raise a i) :=
  (h.setBit i true ha ho).trans (of_eq rfl rfl)

theorem raiseIf (h : ChangesIn P k r s) {a o : Nat} (c : Bool) (i : Nat) (ha : a = CH_CTRL k + o) (ho : P o) :
    ChangesIn P k r (s.raiseIf c a i) := ite (h.raise i ha ho) h

theorem setChan (h : ChangesIn P k r s) (i : Nat) (c : Chan) (hc : (s.chan i).trainStart = none → c.trainStart = none := by exact id) :
    ChangesIn P k r (s.setChan i c) := by
  refine h.trans ⟨fun a _ => s.reg_setChan i c a, fun j hj => ?_⟩
  by_cases hji : j = i
  · subst hji
    rw [State.chan_setChan_self]
    exact hc hj
  · rw [State.chan_setChan_ne _ _ hji]
    exact hj

theorem chanEvent (h : ChangesIn P k r s) (i e : Nat) : ChangesIn P k r (s.chanEvent i e) := ite (h.trans (of_eq rfl rfl)) h

end ChangesIn

/-! ### The output logic (R66 to R82) -/

theorem State.trainSkip_changesIn (s : State) (k : Nat) : ChangesIn outputOffset k s (s.trainSkip k) :=
  ((ChangesIn.refl s).setReg _ (PT_EMIT_eq k) (.inr (.inl rfl))).setChan k _

theorem State.uncount_changesIn (s : State) (k : Nat) (counted : Bool) : ChangesIn outputOffset k s (s.uncount k counted) :=
  .ite (s.trainSkip_changesIn k) (.refl s)

/-- A channel that takes a command, and IDLE_ACT of its output. -/
theorem State.commanded_changesIn (s : State) (k : Nat) (c : Chan) (b : Bool)
    (hc : (s.chan k).trainStart = none → c.trainStart = none := by exact id) :
    ChangesIn outputOffset k s ((s.setChan k c).setBit (OUT_STATUS k) 1 b) :=
  ((ChangesIn.refl s).setChan k c hc).setBit 1 b (OUT_STATUS_eq k) (.inl rfl)

theorem State.outCommand_changesIn (s : State) (k : Nat) (sets clears : List Stamp) (train : Bool) :
    ChangesIn outputOffset k s (s.outCommand k sets clears train) := by
  refine .ite (.refl s) (.ite ((s.commanded_changesIn k _ false ?_).trans (State.trainSkip_changesIn _ k)) (s.commanded_changesIn k _ false ?_)) <;>
  · split <;> exact id

theorem State.commandIdle_changesIn (s : State) (k : Nat) : ChangesIn outputOffset k s (s.commandIdle k) :=
  .ite (.refl s) ((s.commanded_changesIn k _ true).trans (State.uncount_changesIn _ k _))

theorem State.trainEnd_changesIn (s : State) (k : Nat) (early : Bool) : ChangesIn outputOffset k s (s.trainEnd k early) := by
  have hpt : outputOffset 0x94 := .inr (.inr rfl)
  have hflags : ChangesIn outputOffset k s (((s.setBit (PT_STATUS k) 0 false).raise (PT_STATUS k) 1).raiseIf early (PT_STATUS k) 2) :=
    (((ChangesIn.refl s).setBit 0 false (PT_STATUS_eq k) hpt).raise 1 (PT_STATUS_eq k) hpt).raiseIf early 2 (PT_STATUS_eq k) hpt
  exact ((hflags.setChan k _ (by exact fun _ => rfl)).chanEvent k 1).trans (State.commandIdle_changesIn _ k)

theorem State.outStep_changesIn (s : State) (k : Nat) (periodEnd peak : Bool) (xs : List Nat) :
    ChangesIn outputOffset k s (s.outStep k periodEnd peak xs) := by
  refine .ite (.refl s) ?_
  dsimp only
  split
  · exact .ite (s.outCommand_changesIn ..) (s.outCommand_changesIn ..)
  · exact s.outCommand_changesIn ..
  · exact .ite (s.outCommand_changesIn ..) (.refl s)
  · exact .refl s

theorem State.trainPeriod_changesIn (s : State) (k : Nat) (xs : List Nat) : ChangesIn outputOffset k s (s.trainPeriod k xs) := by
  have hstep : ChangesIn outputOffset k s ((s.setChan k { s.chan k with ptRemain := (s.chan k).ptRemain - 1 }).outStep k true false xs) :=
    ((ChangesIn.refl s).setChan k _).trans (State.outStep_changesIn ..)
  exact .ite (s.trainEnd_changesIn k _) (.ite ((hstep.setChan k _).setReg _ (PT_EMIT_eq k) (.inr (.inl rfl))) (hstep.setChan k _))

theorem State.stopped_changesIn (s : State) (k : Nat) : ChangesIn outputOffset k s (s.stopped k) := by
  have hchan : ChangesIn outputOffset k s
      (s.setChan k { s.chan k with phase := 0, startDue := none, writeTrig := [], peaked := false }) := (ChangesIn.refl s).setChan k _
  exact .ite (hchan.trans (State.trainEnd_changesIn _ k true)) (.ite (hchan.trans (State.commandIdle_changesIn _ k)) hchan)

/-! ### Preload copies (R49, R58, R59, R67, R74) -/

theorem State.copyMode_changesIn (s : State) (k : Nat) : ChangesIn modeOffset k s (s.copyMode k) := by
  have hmode : ChangesIn modeOffset k s (s.setFld (OUT_CTRL k) 14 12 (s.fld (OUT_CTRL k) 2 0)) :=
    (ChangesIn.refl s).setFld _ _ _ (OUT_CTRL_eq k) (.inl rfl)
  exact .ite ((hmode.setChan k _).trans ((State.trainEnd_changesIn _ k true).mono .inr))
    (.ite hmode (.ite (hmode.trans ((State.commandIdle_changesIn _ k).mono .inr)) hmode))

/-- A write of CMP_ACT_x by a copy. -/
theorem State.copyCmp_changesIn (s : State) (k : Nat) {x : Nat} (v : Word) (hx : x ∈ [0, 1, 2, 3]) :
    ChangesIn compareOffset k s (s.setReg (CMP_ACT k x) v) := by
  have hlt := lt_four_of_mem hx
  exact (ChangesIn.refl s).setReg v (CMP_ACT_eq k x) (.inr (.inr ⟨by omega, by omega⟩))

theorem State.copyCmpCfg_changesIn (s : State) (k : Nat) : ChangesIn compareOffset k s (s.copyCmpCfg k) := by
  refine ((ChangesIn.refl s).setReg _ (CMP_CFG_eq k) (.inr (.inl rfl))).trans (.foldl _ ?_ _)
  exact fun s _ hx => .ite (s.copyCmp_changesIn k _ hx) (.refl s)

theorem State.copyCmps_changesIn (s : State) (k : Nat) : ChangesIn compareOffset k s (s.copyCmps k) :=
  .foldl _ (fun s _ hx => s.copyCmp_changesIn k _ hx) s

theorem State.copyFine_changesIn {P : Nat → Prop} (s : State) (k : Nat) : ChangesIn P k s (s.copyFine k) := (ChangesIn.refl s).setChan k _

theorem State.copyPreloads_changesIn (s : State) (k : Nat) : ChangesIn wrapOffset k s (s.copyPreloads k) := by
  have hcounts (v : Word) (p : Nat) : ChangesIn wrapOffset k s ((s.setReg (PERIOD_ACT k) v).setFld (PRESCALE k) 31 16 p) :=
    ((ChangesIn.refl s).setReg v (PERIOD_ACT_eq k) (.inr (.inr (.inl rfl)))).setFld 31 16 p (PRESCALE_eq k) (.inl (.inl rfl))
  have hcmps (v : Word) (p : Nat) :=
    (hcounts v p).trans (((State.copyCmps_changesIn _ k).trans (State.copyCmpCfg_changesIn _ k)).mono .inl)
  exact ((hcmps _ _).trans (State.copyFine_changesIn _ k)).trans ((State.copyMode_changesIn _ k).mono fun ho => .inr (.inl ho))

/-! ### The counter (R43 to R65) -/

theorem State.syncInput_changesIn {P : Nat → Prop} (s : State) (k n : Nat) (t : Tick) : ChangesIn P k s (s.syncInput n t) :=
  .ite (.refl s) (.of_eq rfl rfl)

theorem State.syncOutput_changesIn {P : Nat → Prop} (s : State) (k n : Nat) : ChangesIn P k s (s.syncOutput n) :=
  .ite (s.syncInput_changesIn k _ _) (.of_eq rfl rfl)

theorem State.chan_raiseIf (s : State) (c : Bool) (a i x : Nat) : (s.raiseIf c a i).chan x = s.chan x := by
  rw [State.raiseIf]
  split
  · exact s.chan_raise a i x
  · rfl

theorem State.cmpMatch_changesIn (s : State) (k x : Nat) : ChangesIn wrapOffset k s (s.cmpMatch k x) := by
  have hst : wrapOffset 0x34 := .inr (.inr (.inr rfl))
  have hflags (c : Bool) : ChangesIn wrapOffset k s ((s.raise (CMP_STATUS k) x).raiseIf c (CMP_STATUS k) (4 + x)) :=
    ((ChangesIn.refl s).raise x (CMP_STATUS_eq k) hst).raiseIf c (4 + x) (CMP_STATUS_eq k) hst
  have hconv (u : State) (c : Prop) [Decidable c] (h : ChangesIn wrapOffset k s u) :
      ChangesIn wrapOffset k s
        (if c then u.adcRequest (u.mt + 2) k u.now (u.fld (CH_TRIG_CFG k) 5 0) (u.bit (CH_TRIG_CFG k) 7) else u) :=
    .ite (h.trans (.of_eq rfl rfl)) h
  have hmatch (b : Bool) (c : Chan) (hc : (s.chan k).trainStart = none → c.trainStart = none := by exact id) :=
    hconv _ (x = 2) ((hflags b).setChan k c (by rwa [State.chan_raiseIf, State.chan_raise]))
  exact .ite ((hmatch _ _).trans (State.syncOutput_changesIn _ k _)) (hmatch _ _)

theorem State.cmpMatches_changesIn (s : State) (k : Nat) (xs : List Nat) :
    ChangesIn wrapOffset k s (xs.foldl (fun s x => s.cmpMatch k x) s) := .foldl _ (fun s x _ => s.cmpMatch_changesIn k x) s

theorem State.setCount_changesIn (s : State) (k : Nat) (c : Word) (down : Bool) : ChangesIn counterOffset k s (s.setCount k c down) :=
  ((ChangesIn.refl s).setReg c (COUNT_eq k) (by unfold counterOffset; omega)).setBit 2 down (CH_STATUS_eq k) (by unfold counterOffset; omega)

theorem State.compareStep_changesIn (s : State) (k : Nat) (peak : Bool) : ChangesIn wrapOffset k s (s.compareStep k peak) :=
  (s.cmpMatches_changesIn k _).output (State.outStep_changesIn ..)

theorem State.mittenPeriodEnd_changesIn {P : Nat → Prop} (s : State) (k : Nat) : ChangesIn P k s (s.mittenPeriodEnd k) := by
  refine .foldl _ ?_ s
  exact fun s _ _ => .ite (.of_eq rfl rfl) (.refl s)

/-- The counter stops at its zero period (R51). -/
theorem State.zeroStop_changesIn (s : State) (k : Nat) : ChangesIn counterOffset k s ((s.setReg (COUNT k) 0).stopped k) :=
  ((ChangesIn.refl s).setReg 0 (COUNT_eq k) (by unfold counterOffset; omega)).trans
    ((State.stopped_changesIn _ k).mono fun ho => .inr (.inl (.inr ho)))

/-- A period end as far as WRAP and its event. -/
def State.wrap (s : State) (k : Nat) : State :=
  ((s.setChan k { s.chan k with matched := 0, peaked := false, lastPeriod := some s.mt }).raise (CH_STATUS k) 5).chanEvent k 0

theorem State.wrap_changesIn (s : State) (k : Nat) : ChangesIn counterOffset k s (s.wrap k) :=
  (((ChangesIn.refl s).setChan k _).raise 5 (CH_STATUS_eq k) (by unfold counterOffset; omega)).chanEvent k 0

/-- After WRAP the preloads are copied; then the counter stops at its zero period, or neither COUNT nor CH_STATUS is written again. -/
theorem State.periodEnd_cases (s : State) (k : Nat) :
    s.periodEnd k = (((s.wrap k).copyPreloads k).setReg (COUNT k) 0).stopped k ∨ ChangesIn wrapOffset k (s.wrap k) (s.periodEnd k) := by
  have hdef : s.periodEnd k =
      let t := (s.wrap k).copyPreloads k
      if !t.running k then (t.setReg (COUNT k) 0).stopped k
      else
        let u := (t.stepMatches k).foldl (fun s x => s.cmpMatch k x) t
        (if u.outMode k = 4 && u.trainActive k then u.trainPeriod k (t.stepMatches k)
          else u.outStep k true false (t.stepMatches k)).mittenPeriodEnd k := rfl
  rw [hdef]
  dsimp only
  split
  · exact .inl rfl
  · have hmatched := ((s.wrap k).copyPreloads_changesIn k).trans (State.cmpMatches_changesIn _ k (((s.wrap k).copyPreloads k).stepMatches k))
    exact .inr ((ChangesIn.ite (hmatched.output (State.trainPeriod_changesIn ..)) (hmatched.output (State.outStep_changesIn ..))).trans
      (State.mittenPeriodEnd_changesIn _ k))

theorem State.periodEnd_changesIn (s : State) (k : Nat) : ChangesIn counterOffset k s (s.periodEnd k) := by
  rcases s.periodEnd_cases k with h | h
  · rw [h]
    exact ((s.wrap_changesIn k).counter (State.copyPreloads_changesIn _ k)).trans (State.zeroStop_changesIn _ k)
  · exact (s.wrap_changesIn k).counter h

theorem State.peak_changesIn (s : State) (k : Nat) : ChangesIn counterOffset k s (s.peak k) := by
  have hpeak : ChangesIn counterOffset k s (s.setChan k { s.chan k with peaked := true, lastPeak := some s.mt }) :=
    (ChangesIn.refl s).setChan k _
  have hcopied := hpeak.counter (State.copyPreloads_changesIn _ k)
  exact .ite (.ite (hcopied.trans (State.zeroStop_changesIn _ k)) (hcopied.counter (State.compareStep_changesIn _ k true)))
    (hpeak.counter (State.compareStep_changesIn _ k true))

theorem State.stepCount_changesIn (s : State) (k : Nat) : ChangesIn counterOffset k s (s.stepCount k) := by
  have hstep (u : State) (c : Word) (down : Bool) (h : ChangesIn counterOffset k s u) :
      ChangesIn counterOffset k s ((u.setCount k c down).compareStep k false) :=
    (h.trans (u.setCount_changesIn k c down)).counter (State.compareStep_changesIn _ k false)
  refine .ite ((s.setCount_changesIn k 0 false).trans (State.periodEnd_changesIn _ k)) (.ite (.ite ?_ (.ite ?_ ?_)) ?_)
  · exact hstep _ _ true (.ite (.refl s) ((ChangesIn.refl s).setChan k _))
  · exact (s.setCount_changesIn k _ false).trans (State.peak_changesIn _ k)
  · exact hstep s _ false (.refl s)
  · exact hstep s _ false (.refl s)

/-- A carry steps the next counter. -/
theorem State.carry_changesIn (s : State) (k : Nat) : ChangesIn counterOffset (k + 1) s (s.carry k) :=
  .ite (((ChangesIn.refl s).setChan (k + 1) _).trans (State.stepCount_changesIn _ (k + 1))) (.refl s)

end Sys2Proof.Machine
end

section
/-!
PROOFS. Pulse trains (R50, R78 to R82): START and STOP, the restart of a train, PT_CMD and the read of PT_EMIT, then the statement about them.
-/

namespace Sys2Proof.Machine

open Reg

/-! ### START and STOP (R78, R79, R81) -/

theorem exec_ptStart {s : State} (k : Fin 384) {v : Word} (ha : s.accepts (PT_CTRL k) v) :
    exec (.ptStart k v) s = .next ((s.noteHost (PT_CTRL k)).ptCtrlWrite k v) := congrArg Host.Outcome.next (s.hostWrite_accepts _ ha)

theorem exec_ptStop {s : State} (k : Fin 384) {v : Word} (ha : s.accepts (PT_CTRL k) v) :
    exec (.ptStop k v) s = .next ((s.noteHost (PT_CTRL k)).ptCtrlWrite k v) := congrArg Host.Outcome.next (s.hostWrite_accepts _ ha)

/-- A write with START alone. -/
theorem State.ptCtrlWrite_start (s : State) (k : Nat) {v : Word} (hstart : v.getLsbD 0 = true) (hstop : v.getLsbD 1 = false) :
    s.ptCtrlWrite k v = s.trainBegin k (s.mt + 1) none := by
  simp only [State.ptCtrlWrite, bitOf, hstart, hstop, Bool.false_eq_true, if_false, if_true]

/-- A write with STOP alone. -/
theorem State.ptCtrlWrite_stop (s : State) (k : Nat) {v : Word} (hstop : v.getLsbD 1 = true) (hstart : v.getLsbD 0 = false) :
    s.ptCtrlWrite k v = s.trainStop k := by
  simp only [State.ptCtrlWrite, bitOf, hstart, hstop, Bool.false_eq_true, if_false, if_true]

/-- Channel `k` with a train of PT_CMD periods to start in tick `due`. -/
def State.trainChan (s : State) (k : Nat) (due : Tick) (fine : Option (BitVec 6)) : Chan :=
  { (s.chan k).forgetCounts with
    ptSkip := 0, ptRemain := s.reg (PT_CMD k), stopReq := none
    firstFine := if s.reg (PT_CMD k) = 0 then none else fine
    trainStart := some { due := due, restart := s.reg (PT_CMD k) != 0 } }

/-- An accepted START: a train of no period does not become active. -/
theorem State.trainBegin_accepted {s : State} {k : Nat} (h : s.startOk k = true) (due : Tick) (fine : Option (BitVec 6)) :
    s.trainBegin k due fine = if s.reg (PT_CMD k) = 0 then (s.setReg (PT_EMIT k) 0).setChan k (s.trainChan k due fine)
      else ((s.setReg (PT_EMIT k) 0).setChan k (s.trainChan k due fine)).setBit (PT_STATUS k) 0 true := if_pos h

theorem State.trainBegin_refused {s : State} {k : Nat} (h : s.startOk k = false) (due : Tick) (fine : Option (BitVec 6)) :
    s.trainBegin k due fine = (s.raise (PT_STATUS k) 3).chanEvent k 2 := if_neg (by rw [h]; exact Bool.false_ne_true)

theorem State.trainActive_of_startOk {s : State} {k : Nat} (h : s.startOk k = true) : s.trainActive k = false := by
  rw [State.startOk, Bool.and_eq_true] at h
  simpa using h.2

theorem State.chan_trainBegin {s : State} {k : Nat} (h : s.startOk k = true) (due : Tick) (fine : Option (BitVec 6)) :
    (s.trainBegin k due fine).chan k = s.trainChan k due fine := by
  rw [State.trainBegin_accepted h]
  split
  · rw [State.chan_setChan_self]
  · rw [State.chan_setBit, State.chan_setChan_self]

/-- An accepted START clears PT_EMIT, makes a train that is not empty active, and writes no other register. -/
theorem State.regs_trainBegin {s : State} {k : Nat} (h : s.startOk k = true) (due : Tick) (fine : Option (BitVec 6)) :
    (s.trainBegin k due fine).reg (PT_EMIT k) = 0 ∧
      (s.trainBegin k due fine).trainActive k = decide (s.reg (PT_CMD k) ≠ 0) ∧
      ∀ a, a ≠ PT_EMIT k → a ≠ PT_STATUS k → (s.trainBegin k due fine).reg a = s.reg a := by
  have hne : PT_EMIT k ≠ PT_STATUS k := chanReg_ne (by decide) k
  have hemit : ((s.setReg (PT_EMIT k) 0).setChan k (s.trainChan k due fine)).reg (PT_EMIT k) = 0 := by
    rw [State.reg_setChan, State.reg_setReg_self]
  have hkeep (a : Nat) (ha : a ≠ PT_EMIT k) : ((s.setReg (PT_EMIT k) 0).setChan k (s.trainChan k due fine)).reg a = s.reg a := by
    rw [State.reg_setChan, State.reg_setReg_ne _ _ ha]
  rw [State.trainBegin_accepted h]
  split
  · next hn =>
    refine ⟨hemit, ?_, fun a ha _ => hkeep a ha⟩
    rw [State.trainActive, State.bit, hkeep _ hne.symm, ← State.bit, ← State.trainActive, State.trainActive_of_startOk h]
    exact (decide_eq_false fun h => h hn).symm
  · next hn =>
    refine ⟨?_, ?_, fun a ha hst => ?_⟩
    · rw [State.reg_setBit_ne _ _ _ hne, hemit]
    · rw [State.trainActive, State.bit_setBit_self _ _ _ _ (by decide)]
      exact (decide_eq_true hn).symm
    · rw [State.reg_setBit_ne _ _ _ hst, hkeep a ha]

@[simp] theorem State.trainActive_noteHost (s : State) (a k : Nat) : (s.noteHost a).trainActive k = s.trainActive k := rfl

theorem State.trainStop_eq (s : State) (k : Nat) :
    s.trainStop k = if s.trainActive k = true ∧ (s.chan k).stopReq = none then s.setChan k { s.chan k with stopReq := some s.mt } else s := by
  simp [State.trainStop]

/-! ### The restart of a train (R50, R79) -/

theorem State.reg_chanEvent (s : State) (k e a : Nat) : (s.chanEvent k e).reg a = s.reg a := by
  rw [State.chanEvent, State.deliverIf]
  split <;> rfl

theorem State.wrap_status (s : State) (k : Nat) : (s.wrap k).bit (CH_STATUS k) 5 = true := by
  rw [State.bit, State.wrap, State.reg_chanEvent, ← State.bit, State.bit_raise_self _ _ (by decide)]

/-- The output logic writes neither COUNT nor CH_STATUS. -/
theorem ChangesIn.counter_regs {k : Nat} {s t : State} (h : ChangesIn outputOffset k s t) :
    t.reg (COUNT k) = s.reg (COUNT k) ∧ t.reg (CH_STATUS k) = s.reg (CH_STATUS k) := by
  refine ⟨h.regs _ fun o ho => ?_, h.regs _ fun o ho => ?_⟩
  · rw [COUNT_eq]; unfold outputOffset at ho; omega
  · rw [CH_STATUS_eq]; unfold outputOffset at ho; omega

/-- A period end after WRAP writes neither COUNT nor CH_STATUS, but for a COUNT that it clears. -/
theorem ChangesIn.wrap_regs {k : Nat} {s t : State} (h : ChangesIn wrapOffset k s t) :
    t.reg (COUNT k) = s.reg (COUNT k) ∧ t.reg (CH_STATUS k) = s.reg (CH_STATUS k) := by
  refine ⟨h.regs _ fun o ho => ?_, h.regs _ fun o ho => ?_⟩
  · rw [COUNT_eq]; unfold wrapOffset compareOffset modeOffset outputOffset at ho; omega
  · rw [CH_STATUS_eq]; unfold wrapOffset compareOffset modeOffset outputOffset at ho; omega

/-- What a counter changes is nothing of another channel. -/
theorem ChangesIn.other_regs {j k : Nat} {s t : State} (h : ChangesIn counterOffset j s t) (hjk : k ≠ j) :
    t.reg (COUNT k) = s.reg (COUNT k) ∧ t.reg (CH_STATUS k) = s.reg (CH_STATUS k) := by
  have hne (a o : Nat) (ha : a < 0x400) (ho : counterOffset o) : CH_CTRL k + a ≠ CH_CTRL j + o := by
    unfold counterOffset compareOffset modeOffset outputOffset at ho
    unfold CH_CTRL
    omega
  rw [COUNT_eq, CH_STATUS_eq]
  exact ⟨h.regs _ fun o ho => hne 0x10 o (by decide) ho, h.regs _ fun o ho => hne 0x04 o (by decide) ho⟩

/-- A period end at count 0 sets WRAP, and the count is 0 after it. -/
theorem State.periodEnd_shows {s : State} {k : Nat} (h : s.reg (COUNT k) = 0) :
    (s.periodEnd k).reg (COUNT k) = 0 ∧ (s.periodEnd k).bit (CH_STATUS k) 5 = true := by
  have hne : COUNT k ≠ CH_STATUS k := chanReg_ne (by decide) k
  have hcount : (s.wrap k).reg (COUNT k) = 0 := by
    rw [State.wrap, State.reg_chanEvent, State.raise, State.reg_noteHw, State.reg_setBit_ne _ _ _ hne, State.reg_setChan, h]
  rcases s.periodEnd_cases k with hend | hend
  · obtain ⟨hc, hst⟩ := (State.stopped_changesIn (((s.wrap k).copyPreloads k).setReg (COUNT k) 0) k).counter_regs
    obtain ⟨-, hcopied⟩ := (State.copyPreloads_changesIn (s.wrap k) k).wrap_regs
    rw [hend, hc, State.bit, hst, State.reg_setReg_self, State.reg_setReg_ne _ _ hne.symm, hcopied, ← State.bit, s.wrap_status k]
    exact ⟨rfl, rfl⟩
  · obtain ⟨hc, hst⟩ := hend.wrap_regs
    rw [hc, State.bit, hst, ← State.bit, hcount, s.wrap_status k]
    exact ⟨rfl, rfl⟩

/-- A running counter as a restart leaves it for the period end: count 0, up, prescaler phase 0. -/
def State.restarted (s : State) (k : Nat) : State :=
  (s.setChan k { s.chan k with phase := 0, startDue := none, lastSource := some s.mt }).setCount k 0 false

/-- A restart in a tick without a period end is a period end, with its carry. -/
theorem State.restart_eq {s : State} {k : Nat} (hr : s.running k = true) (hs : (s.chan k).lastStart ≠ some s.mt)
    (hp : (s.chan k).lastPeriod ≠ some s.mt) : s.restart k = ((s.restarted k).periodEnd k).carry k := by
  rw [State.restart, if_neg (by rw [hr]; exact Bool.false_ne_true), if_neg hs, if_neg hp]
  rfl

/-- A restart leaves count 0 and WRAP, and makes no train restart due. -/
theorem State.restart_shows {s : State} {k : Nat} (hr : s.running k = true) (hs : (s.chan k).lastStart ≠ some s.mt)
    (hp : (s.chan k).lastPeriod ≠ some s.mt) (ht : (s.chan k).trainStart = none) :
    (s.restart k).reg (COUNT k) = 0 ∧ (s.restart k).bit (CH_STATUS k) 5 = true ∧ ((s.restart k).chan k).trainStart = none := by
  have hcount : (s.restarted k).reg (COUNT k) = 0 := by
    have hne : COUNT k ≠ CH_STATUS k := chanReg_ne (by decide) k
    rw [State.restarted, State.setCount, State.reg_setBit_ne _ _ _ hne, State.reg_setReg_self]
  have hset : ChangesIn counterOffset k s (s.restarted k) := ((ChangesIn.refl s).setChan k _).trans (State.setCount_changesIn _ k 0 false)
  obtain ⟨hc, hst⟩ := State.periodEnd_shows hcount
  have hcarry := State.carry_changesIn ((s.restarted k).periodEnd k) k
  obtain ⟨hckeep, hstkeep⟩ := hcarry.other_regs (Nat.ne_of_lt k.lt_succ_self)
  rw [State.restart_eq hr hs hp, hckeep, State.bit, hstkeep, ← State.bit]
  exact ⟨hc, hst, hcarry.noTrainStart k ((hset.trans (State.periodEnd_changesIn _ k)).noTrainStart k ht)⟩

/-- Beside the counter's restart, that of a train does what the output logic does. -/
theorem State.trainRestart_changesIn (s : State) (k : Nat) : ChangesIn outputOffset k (s.restart k) (s.trainRestart k) :=
  .ite (State.trainPeriod_changesIn _ k _) (.refl _)

theorem exec_ptRestart {s : State} (k : Fin 384) (hc : s.clocked) : exec (.ptRestart k) s = .next (s.ptRestart k) :=
  congrArg Host.Outcome.next (s.onTclk_clocked _ hc)

/-- A train start that is due is taken, and restarts the counter or ends the empty train. -/
theorem State.ptRestart_due {s : State} {k : Nat} {ts : TrainStart} (h : (s.chan k).trainStart = some ts) (hr : s.reached ts.due = true) :
    s.ptRestart k = if ts.restart = true then (s.setChan k { s.chan k with trainStart := none }).trainRestart k
      else ((s.setChan k { s.chan k with trainStart := none }).raise (PT_STATUS k) 1).chanEvent k 1 := by
  simp only [State.ptRestart, h, hr, if_true]

/-! ### PT_CMD and PT_EMIT (R82) -/

theorem exec_ptCmdWrite {s : State} (k : Fin 384) {v : Word} (ha : s.accepts (PT_CMD k) v) :
    exec (.ptCmdWrite k v) s = .next ((s.noteHost (PT_CMD k)).ptCmdWrite k v) := congrArg Host.Outcome.next (s.hostWrite_accepts _ ha)

theorem exec_ptEmitRead {s : State} (k : Fin 384) (hs : s.serves) :
    exec (.ptEmitRead k) s = .next ((s.touchChanged (s.ptEmitRead k).2).returning [(s.ptEmitRead k).1]) :=
  congrArg Host.Outcome.next (s.hostRead_serves _ hs)

end Sys2Proof.Machine

namespace Sys2Proof.Proofs

open Sys2Proof.Machine Sys2Proof.Machine.Reg

/-- An accepted START. -/
theorem ptStart_accepted (k : Fin 384) (v : Word) (s : State) (ha : s.accepts (PT_CTRL k) v) (hstart : v.getLsbD 0 = true)
    (hstop : v.getLsbD 1 = false) (hok : s.startOk k = true) :
    ∃ t, exec (.ptStart k v) s = .next t ∧ t.reg (PT_EMIT k) = 0 ∧ (t.chan k).ptSkip = 0 ∧ (t.chan k).ptRemain = s.reg (PT_CMD k) ∧
      t.trainActive k = decide (s.reg (PT_CMD k) ≠ 0) ∧
      (t.chan k).trainStart = some { due := s.mt + 1, restart := s.reg (PT_CMD k) != 0 } ∧ (t.chan k).firstFine = none ∧
      (∀ a, a ≠ PT_EMIT k → a ≠ PT_STATUS k → t.reg a = s.reg a) := by
  have hok' : (s.noteHost (PT_CTRL k)).startOk k = true := hok
  obtain ⟨hemit, hactive, hkeep⟩ := State.regs_trainBegin hok' (s.mt + 1) none
  have hchan := State.chan_trainBegin hok' (s.mt + 1) none
  refine ⟨_, exec_ptStart k ha, ?_⟩
  rw [State.ptCtrlWrite_start _ k hstart hstop, State.noteHost_mt, hchan]
  exact ⟨hemit, rfl, rfl, hactive, rfl, ite_self _, hkeep⟩

/-- The restart of a train in a tick without a period end. -/
theorem ptRestart_restarts (k : Fin 384) (s : State) (ts : TrainStart) (hc : s.clocked) (hts : (s.chan k).trainStart = some ts)
    (hdue : s.reached ts.due = true) (hrestart : ts.restart = true) (hr : s.running k = true) (hp : (s.chan k).lastPeriod ≠ some s.mt)
    (hs : (s.chan k).lastStart ≠ some s.mt) :
    ∃ t, exec (.ptRestart k) s = .next t ∧ t.reg (COUNT k) = 0 ∧ t.bit (CH_STATUS k) 5 = true ∧ (t.chan k).trainStart = none := by
  have hself := s.chan_setChan_self k { s.chan k with trainStart := none }
  obtain ⟨hcount, hwrap, hnone⟩ := State.restart_shows (s := s.setChan k { s.chan k with trainStart := none }) (k := k) hr
    (by rw [hself]; exact hs) (by rw [hself]; exact hp) (by rw [hself])
  have hout := State.trainRestart_changesIn (s.setChan k { s.chan k with trainStart := none }) k
  obtain ⟨hcount', hstatus'⟩ := hout.counter_regs
  refine ⟨_, exec_ptRestart k hc, ?_⟩
  rw [State.ptRestart_due hts hdue, if_pos hrestart, hcount', State.bit, hstatus', ← State.bit]
  exact ⟨hcount, hwrap, hout.noTrainStart k hnone⟩

/-- Settles O16: START accepted and refused, STOP, the restart and the empty train, PT_CMD, and the read of PT_EMIT. -/
theorem pulseTrainsStartAndStop : Obligations.PulseTrainsStartAndStop := by
  refine ⟨ptStart_accepted, fun k v s ha hstart hstop hok => ?_, fun k v s ha hstop hstart => ?_, ptRestart_restarts,
    fun k s ts hc hts hdue hrestart => ?_, fun k v s ha => ?_, fun k s hs => exec_ptEmitRead k hs⟩
  · have hok' : (s.noteHost (PT_CTRL k)).startOk k = false := hok
    rw [exec_ptStart k ha, State.ptCtrlWrite_start _ k hstart hstop, State.trainBegin_refused hok']
  · rw [exec_ptStop k ha, State.ptCtrlWrite_stop _ k hstop hstart, State.trainStop_eq, State.trainActive_noteHost, State.chan_noteHost,
      State.noteHost_mt]
  · rw [exec_ptRestart k hc, State.ptRestart_due hts hdue, hrestart, if_neg Bool.false_ne_true]
  · rw [exec_ptCmdWrite k ha, State.ptCmdWrite, State.trainActive_noteHost]

end Sys2Proof.Proofs
end

section
/-!
PROOFS. The schedule of the calibration engine (R89, R93 to R95): a slot, the end of the initial round and CAL_CTRL, then the statement about
them.
-/

namespace Sys2Proof.Machine

open Reg

/-! ### An update of the calibration engine -/

/-- The state with `c` for the calibration engine's. -/
def State.setCal (s : State) (c : CalEngine) : State := { s with cal := c }

section
variable (s : State) (c : CalEngine)

@[simp] theorem State.setCal_cal : (s.setCal c).cal = c := rfl
@[simp] theorem State.setCal_chans : (s.setCal c).chans = s.chans := rfl
@[simp] theorem State.chan_setCal (k : Nat) : (s.setCal c).chan k = s.chan k := rfl
@[simp] theorem State.reg_setCal (a : Nat) : (s.setCal c).reg a = s.reg a := rfl
@[simp] theorem State.fld_setCal (a hi lo : Nat) : (s.setCal c).fld a hi lo = s.fld a hi lo := rfl
@[simp] theorem State.bit_setCal (a i : Nat) : (s.setCal c).bit a i = s.bit a i := rfl

end

/-! ### Slots (R89) -/

/-- CAL_ROUND has counted, where the slot of CH[0] that begins completes a round. -/
def State.roundCounted (s : State) : State := if s.cal.nextCh = 0 && s.cal.slotRan then s.count CAL_ROUND else s

theorem State.roundCounted_mt (s : State) : s.roundCounted.mt = s.mt := by
  unfold State.roundCounted; split <;> rfl

theorem State.roundCounted_cal (s : State) : s.roundCounted.cal = s.cal := by
  unfold State.roundCounted; split <;> rfl

theorem State.reg_roundCounted (s : State) {a : Nat} (h : a ≠ CAL_ROUND) : s.roundCounted.reg a = s.reg a := by
  unfold State.roundCounted
  split
  · exact s.reg_count_ne h
  · rfl

/-- The engine of `s` once the slot of the next channel has begun. -/
def State.slotEngine (s : State) : CalEngine :=
  { s.cal with slotDue := some (s.mt + 8000), nextCh := (s.cal.nextCh + 1) % 384, slotRan := true,
               measuring := some (s.cal.nextCh, s.mt + 1000), tdc := some (s.cal.nextCh, s.mt + 8000, s.mt) }

/-- A due slot, with neither an initial round nor a measurement running, begins. -/
theorem State.calSlotStart_due {s : State} {u : Tick} (hu : s.cal.slotDue = some u) (hr : s.reached u = true) (hi : s.cal.initial = none)
    (hm : s.cal.measuring = none) :
    s.calSlotStart = (s.roundCounted.setFld CALENG_CAL_STATUS 24 16 s.cal.nextCh).setCal s.slotEngine := by
  have hengine : s.slotEngine = { s.roundCounted.cal with
      slotDue := some (s.roundCounted.mt + 8000), nextCh := (s.cal.nextCh + 1) % 384, slotRan := true,
      measuring := some (s.cal.nextCh, s.roundCounted.mt + 1000), tdc := some (s.cal.nextCh, s.roundCounted.mt + 8000, s.roundCounted.mt) } := by
    rw [State.roundCounted_mt, State.roundCounted_cal, State.slotEngine]
  have hgo : (s.reached u && s.cal.initial.isNone && s.cal.measuring.isNone) = true := by rw [hr, hi, hm]; rfl
  rw [State.calSlotStart, hu, hengine]
  exact if_pos hgo

theorem exec_calSlotStart {s : State} (hc : s.clocked) : exec .calSlotStart s = .next s.calSlotStart :=
  congrArg Host.Outcome.next (s.onTclk_clocked _ hc)

/-! ### The end of the initial round (R93) -/

/-- The engine of `s` once the initial round has ended. -/
def State.scheduleEngine (s : State) : CalEngine :=
  { s.cal with initial := none, nextCh := 0, slotRan := false,
               slotDue := if s.bit CALENG_CAL_CTRL 0 = true then some (s.mt + 1) else none }

/-- The end of the initial round clears INIT_BUSY, sets CAL_READY and starts the schedule unless EN is 0. -/
theorem State.initialRoundEnd_done {s : State} {b : Bool} (h : s.cal.initial = some (384, b)) :
    s.initialRoundEnd = ((s.setBit CALENG_CAL_STATUS 1 false).setBit CALENG_CAL_STATUS 0 true).setCal s.scheduleEngine := by
  have hctrl : ((s.setBit CALENG_CAL_STATUS 1 false).setBit CALENG_CAL_STATUS 0 true).bit CALENG_CAL_CTRL 0 = s.bit CALENG_CAL_CTRL 0 := by
    rw [State.bit, State.reg_setBit_ne _ _ _ (by decide), State.reg_setBit_ne _ _ _ (by decide), State.bit]
  rw [State.initialRoundEnd, h, State.scheduleEngine, ← hctrl]
  rfl

theorem exec_initialRoundEnd {s : State} (hc : s.clocked) : exec .initialRoundEnd s = .next s.initialRoundEnd :=
  congrArg Host.Outcome.next (s.onTclk_clocked _ hc)

/-! ### CAL_CTRL (R95) -/

/-- A write of EN resumes or stops the schedule, unless it leaves EN as it is or an initial round runs. -/
theorem State.calCtrlWrite_eq (s : State) (v : Word) :
    s.calCtrlWrite v =
      let t := s.setBit CALENG_CAL_CTRL 0 (v.getLsbD 0)
      if s.cal.initial ≠ none ∨ s.bit CALENG_CAL_CTRL 0 = v.getLsbD 0 then t
      else { t with cal := { s.cal with slotDue := if v.getLsbD 0 = true then some (s.mt + 1) else none,
                                        tdc := if v.getLsbD 0 = false ∧ s.cal.measuring = none then none else s.cal.tdc } } := by
  have hstays : (s.cal.initial.isSome || s.bit CALENG_CAL_CTRL 0 == v.getLsbD 0) = true ↔
      s.cal.initial ≠ none ∨ s.bit CALENG_CAL_CTRL 0 = v.getLsbD 0 := by
    rw [Bool.or_eq_true, Option.isSome_iff_ne_none, beq_iff_eq]
  have htdc : (!v.getLsbD 0 && s.cal.measuring.isNone) = true ↔ v.getLsbD 0 = false ∧ s.cal.measuring = none := by
    rw [Bool.and_eq_true, Bool.not_eq_true', Option.isNone_iff_eq_none]
  refine if_congr hstays rfl ?_
  simp only [← htdc]
  rfl

theorem exec_calCtrlWrite {s : State} {v : Word} (ha : s.accepts CALENG_CAL_CTRL v) :
    exec (.calCtrlWrite v) s = .next ((s.noteHost CALENG_CAL_CTRL).calCtrlWrite v) := congrArg Host.Outcome.next (s.hostWrite_accepts _ ha)

end Sys2Proof.Machine

namespace Sys2Proof.Proofs

open Sys2Proof.Machine Sys2Proof.Machine.Reg

/-- A due slot. -/
theorem calSlotStart_begins (s : State) (u : Tick) (hc : s.clocked) (hu : s.cal.slotDue = some u) (hr : s.reached u = true)
    (hi : s.cal.initial = none) (hm : s.cal.measuring = none) (hk : s.cal.nextCh < 384) :
    ∃ t, exec .calSlotStart s = .next t ∧ t.cal.measuring = some (s.cal.nextCh, s.mt + 1000) ∧ t.cal.slotDue = some (s.mt + 8000) ∧
      t.cal.nextCh = (s.cal.nextCh + 1) % 384 ∧ t.fld CALENG_CAL_STATUS 24 16 = s.cal.nextCh ∧
      (∀ a, a ≠ CALENG_CAL_STATUS → a ≠ CAL_ROUND → t.reg a = s.reg a) := by
  refine ⟨_, exec_calSlotStart hc, ?_⟩
  rw [State.calSlotStart_due hu hr hi hm, State.setCal_cal, State.fld_setCal, State.fld_setFld_self _ _ _ _ _ (by decide)]
  refine ⟨rfl, rfl, rfl, Nat.mod_eq_of_lt (by omega), fun a ha hround => ?_⟩
  rw [State.reg_setCal, State.reg_setFld_ne _ _ _ _ ha, s.reg_roundCounted hround]

/-- The initial round's end. -/
theorem initialRoundEnd_ready (s : State) (b : Bool) (hc : s.clocked) (h : s.cal.initial = some (384, b)) :
    ∃ t, exec .initialRoundEnd s = .next t ∧ t.bit CALENG_CAL_STATUS 0 = true ∧ t.bit CALENG_CAL_STATUS 1 = false ∧
      t.cal.initial = none ∧ t.cal.slotDue = (if s.bit CALENG_CAL_CTRL 0 = true then some (s.mt + 1) else none) ∧ t.chans = s.chans := by
  refine ⟨_, exec_initialRoundEnd hc, ?_⟩
  rw [State.initialRoundEnd_done h, State.bit_setCal, State.bit_setCal, State.bit_setBit_self _ _ _ _ (by decide),
    State.bit_setBit_ne _ _ _ (by decide), State.bit_setBit_self _ _ _ _ (by decide)]
  exact ⟨rfl, rfl, rfl, rfl, rfl⟩

/-- Settles O17: the due slot, the end of the initial round, and the write of CAL_CTRL. -/
theorem calibrationRunsInSlots : Obligations.CalibrationRunsInSlots := by
  refine ⟨calSlotStart_begins, initialRoundEnd_ready, fun v s ha => ?_⟩
  rw [exec_calCtrlWrite ha, State.calCtrlWrite_eq]
  rfl

end Sys2Proof.Proofs
end

section
/-!
PROOFS. The service of the delay lines and the age of the TDC (R87 to R92, R96, R100): what a measurement and a swap change, then the statement
about them.
-/

namespace Sys2Proof.Machine

open Reg

/-! ### A line fault (R88, R96) -/

theorem State.chan_chanEvent (s : State) (k e j : Nat) : (s.chanEvent k e).chan j = s.chan j := by
  rw [State.chanEvent, State.deliverIf]
  split <;> rfl

/-- Beside LINE_FAULT, a fault only gives interrupt events. -/
theorem State.reg_lineFault (s : State) (k a : Nat) : (s.lineFault k).reg a = (s.raise (EU_STATUS k) 4).reg a := by
  unfold State.lineFault
  dsimp only
  split
  · rfl
  · split
    · exact State.reg_chanEvent _ _ _ _
    · rw [State.reg_deliver, State.reg_chanEvent]

theorem State.chan_lineFault (s : State) (k j : Nat) : (s.lineFault k).chan j = s.chan j := by
  unfold State.lineFault
  dsimp only
  split
  · exact State.chan_raise _ _ _ _
  · split
    · rw [State.chan_chanEvent, State.chan_raise]
    · rw [State.chan_deliver, State.chan_chanEvent, State.chan_raise]

/-! ### A measurement (R87 to R89) -/

/-- SWAP_LATE of channel `k` has counted, where the line is measured again before it took service. -/
def State.lateCounted (s : State) (k : Nat) : State := if (s.chan k).fresh.isSome then s.satCount (SWAP_LATE k) else s

/-- Channel `k` shows the taps `tpt` of its off-duty line, and in FRESH whether they pass. -/
def State.tapsShown (s : State) (k : Nat) (tpt : BitVec 16) (pass : Bool) : State :=
  ((s.lateCounted k).setFld (EU_TAPS k) 31 16 tpt.toNat).setBit (EU_STATUS k) 2 pass

theorem State.lateCounted_mt (s : State) (k : Nat) : (s.lateCounted k).mt = s.mt := by
  unfold State.lateCounted
  split
  · exact s.satCount_mt _
  · rfl

theorem State.chan_lateCounted (s : State) (k j : Nat) : (s.lateCounted k).chan j = s.chan j := by
  unfold State.lateCounted
  split
  · exact s.chan_satCount _ j
  · rfl

theorem State.reg_lateCounted (s : State) {k a : Nat} (h : a ≠ SWAP_LATE k) : (s.lateCounted k).reg a = s.reg a := by
  unfold State.lateCounted
  split
  · exact s.reg_satCount_ne h
  · rfl

theorem State.tapsShown_mt (s : State) (k : Nat) (tpt : BitVec 16) (pass : Bool) : (s.tapsShown k tpt pass).mt = s.mt := by
  rw [State.tapsShown, State.setBit_mt, State.setFld_mt, State.lateCounted_mt]

theorem State.chan_tapsShown (s : State) (k j : Nat) (tpt : BitVec 16) (pass : Bool) : (s.tapsShown k tpt pass).chan j = s.chan j := by
  rw [State.tapsShown, State.chan_setBit, State.chan_setFld, State.chan_lateCounted]

theorem State.fresh_tapsShown (s : State) (k : Nat) (tpt : BitVec 16) (pass : Bool) : (s.tapsShown k tpt pass).bit (EU_STATUS k) 2 = pass :=
  State.bit_setBit_self _ _ _ _ (by decide)

theorem State.taps_tapsShown (s : State) (k : Nat) (tpt : BitVec 16) (pass : Bool) :
    (s.tapsShown k tpt pass).fld (EU_TAPS k) 31 16 = tpt.toNat := by
  have hne : EU_TAPS k ≠ EU_STATUS k := chanReg_ne (by decide) k
  rw [State.fld, State.tapsShown, State.reg_setBit_ne _ _ _ hne, ← State.fld, State.fld_setFld_self _ _ _ _ _ (by decide)]
  exact Nat.mod_eq_of_lt tpt.isLt

/-- The measurement leaves the registers outside the clusters to its count of failures. -/
theorem State.reg_tapsShown (s : State) (k : Nat) (tpt : BitVec 16) (pass : Bool) {a : Nat} (ha : a < 0x1000000) :
    (s.tapsShown k tpt pass).reg a = s.reg a := by
  have hstatus : a ≠ EU_STATUS k := by unfold EU_STATUS; omega
  have htaps : a ≠ EU_TAPS k := by unfold EU_TAPS; omega
  have hlate : a ≠ SWAP_LATE k := by unfold SWAP_LATE; omega
  rw [State.tapsShown, State.reg_setBit_ne _ _ _ hstatus, State.reg_setFld_ne _ _ _ _ htaps, s.reg_lateCounted hlate]

/-- Channel `k` once its off-duty line has passed with the map `m`. -/
def State.passedChan (s : State) (k : Nat) (m : TapMap) : Chan :=
  { s.chan k with
    fresh := some (s.mt, m.tpt)
    map0 := if s.offLine k = 0 then some m else (s.chan k).map0
    map1 := if s.offLine k = 1 then some m else (s.chan k).map1
    fails0 := if s.offLine k = 0 then 0 else (s.chan k).fails0
    fails1 := if s.offLine k = 1 then 0 else (s.chan k).fails1 }

/-- Channel `k` once its off-duty line has failed. -/
def State.failedChan (s : State) (k : Nat) : Chan :=
  { s.chan k with
    fresh := none
    fails0 := if s.offLine k = 0 then (s.chan k).fails0 + 1 else (s.chan k).fails0
    fails1 := if s.offLine k = 1 then (s.chan k).fails1 + 1 else (s.chan k).fails1 }

/-- The failures in a row of the off-duty line of channel `k`, with the present one. -/
def State.failsInRow (s : State) (k : Nat) : Nat := if s.offLine k = 0 then (s.failedChan k).fails0 else (s.failedChan k).fails1

/-- The state once the off-duty line of channel `k` has failed with `tpt` taps, before a fault is reported. -/
def State.failureCounted (s : State) (k : Nat) (tpt : BitVec 16) : State :=
  ((s.tapsShown k tpt false).setChan k (s.failedChan k)).satCount CAL_FAIL

/-- 64 to 92 taps pass. -/
theorem State.measured_passes (s : State) (k : Nat) {m : TapMap} (hlo : 64 * 256 ≤ m.tpt.toNat) (hhi : m.tpt.toNat ≤ 92 * 256) :
    s.measured k m = (s.tapsShown k m.tpt true).setChan k (s.passedChan k m) := by
  have hpass : (decide (64 * 256 ≤ m.tpt.toNat) && decide (m.tpt.toNat ≤ 92 * 256)) = true := by
    rw [decide_eq_true hlo, decide_eq_true hhi]; rfl
  have hchan := s.chan_tapsShown k k m.tpt true
  have hmt := s.tapsShown_mt k m.tpt true
  rw [State.passedChan, ← hchan, ← hmt, State.measured, hpass]
  rfl

/-- Other numbers of taps fail, and the second failure in a row of a line is a fault. -/
theorem State.measured_fails (s : State) (k : Nat) {m : TapMap} (h : m.tpt.toNat < 64 * 256 ∨ 92 * 256 < m.tpt.toNat) :
    s.measured k m =
      if 2 ≤ s.failsInRow k then (s.failureCounted k m.tpt).lineFault k else s.failureCounted k m.tpt := by
  have hfail : (decide (64 * 256 ≤ m.tpt.toNat) && decide (m.tpt.toNat ≤ 92 * 256)) = false := by
    rw [Bool.and_eq_false_iff, decide_eq_false_iff_not, decide_eq_false_iff_not]
    omega
  have hchan := s.chan_tapsShown k k m.tpt false
  rw [State.failureCounted, State.failsInRow, State.failedChan, ← hchan, State.measured, hfail]
  rfl

theorem State.maps_passedChan (s : State) (k : Nat) (m : TapMap) :
    if s.offLine k = 0 then (s.passedChan k m).map0 = some m ∧ (s.passedChan k m).map1 = (s.chan k).map1
    else (s.passedChan k m).map0 = (s.chan k).map0 := by
  by_cases hline : s.offLine k = 0
  · rw [if_pos hline]
    exact ⟨if_pos hline, if_neg (by omega)⟩
  · rw [if_neg hline]
    exact if_neg hline

theorem State.chan_failureCounted (s : State) (k : Nat) (tpt : BitVec 16) : (s.failureCounted k tpt).chan k = s.failedChan k := by
  rw [State.failureCounted, State.chan_satCount, State.chan_setChan_self]

theorem State.reg_failureCounted (s : State) (k : Nat) (tpt : BitVec 16) :
    (s.failureCounted k tpt).reg CAL_FAIL = satInc (s.reg CAL_FAIL) := by
  rw [State.failureCounted, State.reg_satCount_self, State.reg_setChan, s.reg_tapsShown k tpt false (by decide)]

theorem State.fresh_failureCounted (s : State) (k : Nat) (tpt : BitVec 16) : (s.failureCounted k tpt).bit (EU_STATUS k) 2 = false := by
  have hne : EU_STATUS k ≠ CAL_FAIL := by unfold EU_STATUS CAL_FAIL; omega
  rw [State.bit, State.failureCounted, State.reg_satCount_ne _ hne, State.reg_setChan, ← State.bit, State.fresh_tapsShown]

/-- A failed measurement leaves no fresh line, and CAL_FAIL counts it. -/
theorem State.measured_fails_shows (s : State) (k : Nat) {m : TapMap} (h : m.tpt.toNat < 64 * 256 ∨ 92 * 256 < m.tpt.toNat) :
    ((s.measured k m).chan k).fresh = none ∧ (s.measured k m).reg CAL_FAIL = satInc (s.reg CAL_FAIL) ∧
      (s.measured k m).bit (EU_STATUS k) 2 = false := by
  have hne : CAL_FAIL ≠ EU_STATUS k := by unfold EU_STATUS CAL_FAIL; omega
  have hchan := s.chan_failureCounted k m.tpt
  have hcount := s.reg_failureCounted k m.tpt
  have hfresh := s.fresh_failureCounted k m.tpt
  rw [s.measured_fails k h]
  split
  · rw [State.chan_lineFault, State.reg_lineFault, State.bit, State.reg_lineFault, State.raise, State.reg_noteHw, State.reg_noteHw,
      State.reg_setBit_ne _ _ _ hne, ← State.bit, State.bit_setBit_ne _ _ _ (by decide)]
    exact ⟨by rw [hchan]; rfl, hcount, hfresh⟩
  · exact ⟨by rw [hchan]; rfl, hcount, hfresh⟩

/-- The engine of `s` once the measurement of a slot has ended. -/
def State.idleEngine (s : State) : CalEngine :=
  { s.cal with measuring := none, tdc := if s.bit CALENG_CAL_CTRL 0 then s.cal.tdc else none }

/-- Outside an initial round the measurement of a slot ends. -/
theorem State.calMeasurementDone_slot {s : State} {k : Nat} {u : Tick} (m : TapMap) (hm : s.cal.measuring = some (k, u))
    (hi : s.cal.initial = none) : s.calMeasurementDone m = (s.measured k m).setCal (s.measured k m).idleEngine := by
  rw [State.calMeasurementDone, hm, hi]
  rfl

theorem exec_calMeasurementDone {s : State} (p0 p1 p2 p3 p4 : BitVec 16) (hc : s.clocked) :
    exec (.calMeasurementDone p0 ⟨p1, p2, p3, p4⟩) s = .next (s.calMeasurementDone ⟨p0, p1, p2, p3, p4⟩) :=
  congrArg Host.Outcome.next (s.onTclk_clocked _ hc)

/-! ### A swap (R90 to R92) -/

/-- The fresh line of channel `k`, measured at `t` with `tpt` taps, is in service: its taps, its measurement, and from which stamp. -/
def State.lineTaken (s : State) (k : Nat) (t : Tick) (tpt : BitVec 16) (split : Option Stamp) : State :=
  let u := s.setReg (EU_TAPS k) (setBits (setBits (s.reg (EU_TAPS k)) 15 0 tpt.toNat) 31 16 (s.fld (EU_TAPS k) 15 0))
  u.setChan k { u.chan k with fresh := none, measured := some t, splitAt := split }

/-- EU_STATUS of channel `k` when its lines change places: LINE, FRESH, COARSE and CAL_STALE. -/
def State.swapStatus (s : State) (k : Nat) : Word :=
  putBit (putBit (putBit (setBits (s.reg (EU_STATUS k)) 0 0 (s.offLine k)) 2 false) 5 false) 3 (decide (7680 < s.age k))

theorem State.swapLine_fresh {s : State} {k : Nat} {t : Tick} {tpt : BitVec 16} (split : Option Stamp)
    (h : (s.chan k).fresh = some (t, tpt)) :
    s.swapLine k split =
      ((s.lineTaken k t tpt split).setReg (EU_STATUS k) ((s.lineTaken k t tpt split).swapStatus k)).count (SWAP_CNT k) := by
  rw [State.swapLine, h, State.lineTaken]
  rfl

theorem State.swapStatus_line (s : State) (k : Nat) : bitsOf (s.swapStatus k) 0 0 = 1 - s.fld (EU_STATUS k) 0 0 := by
  have hoff : s.offLine k < 2 := by unfold State.offLine; omega
  rw [State.swapStatus, bitsOf_putBit_ne _ _ _ _ _ (by decide), bitsOf_putBit_ne _ _ _ _ _ (by decide),
    bitsOf_putBit_ne _ _ _ _ _ (by decide), bitsOf_setBits_self _ _ _ _ (by decide)]
  exact Nat.mod_eq_of_lt hoff

theorem State.swapStatus_coarse (s : State) (k : Nat) : bitOf (s.swapStatus k) 5 = false := by
  rw [State.swapStatus, bitOf_putBit_ne _ _ (by decide), bitOf_putBit_self _ _ _ (by decide)]

theorem State.reg_lineTaken_ne (s : State) {k a : Nat} (t : Tick) (tpt : BitVec 16) (split : Option Stamp) (h : a ≠ EU_TAPS k) :
    (s.lineTaken k t tpt split).reg a = s.reg a := by
  rw [State.lineTaken, State.reg_setChan, s.reg_setReg_ne _ h]

/-- The taps of the two lines change places. -/
theorem State.taps_lineTaken (s : State) (k : Nat) (t : Tick) (tpt : BitVec 16) (split : Option Stamp) :
    (s.lineTaken k t tpt split).fld (EU_TAPS k) 15 0 = tpt.toNat ∧
      (s.lineTaken k t tpt split).fld (EU_TAPS k) 31 16 = s.fld (EU_TAPS k) 15 0 := by
  rw [State.fld, State.fld, State.lineTaken, State.reg_setChan, State.reg_setReg_self, bitsOf_setBits_ne _ _ _ _ _ _ (by decide),
    bitsOf_setBits_self _ _ _ _ (by decide), bitsOf_setBits_self _ _ _ _ (by decide)]
  exact ⟨Nat.mod_eq_of_lt tpt.isLt, Nat.mod_eq_of_lt (bitsOf_lt _ 15 0)⟩

/-- What a swap shows: the taps and LINE change places, COARSE clears, SWAP_CNT counts, and the measurement is the fresh line's. -/
theorem State.swapLine_shows {s : State} {k : Nat} {t : Tick} {tpt : BitVec 16} (split : Option Stamp)
    (h : (s.chan k).fresh = some (t, tpt)) :
    (s.swapLine k split).fld (EU_TAPS k) 15 0 = tpt.toNat ∧ (s.swapLine k split).fld (EU_TAPS k) 31 16 = s.fld (EU_TAPS k) 15 0 ∧
      (s.swapLine k split).fld (EU_STATUS k) 0 0 = 1 - s.fld (EU_STATUS k) 0 0 ∧ (s.swapLine k split).bit (EU_STATUS k) 5 = false ∧
      (s.swapLine k split).reg (SWAP_CNT k) = s.reg (SWAP_CNT k) + 1 ∧ ((s.swapLine k split).chan k).fresh = none ∧
      ((s.swapLine k split).chan k).measured = some t := by
  have htc : EU_TAPS k ≠ SWAP_CNT k := chanReg_ne (by decide) k
  have hts : EU_TAPS k ≠ EU_STATUS k := chanReg_ne (by decide) k
  have hsc : EU_STATUS k ≠ SWAP_CNT k := chanReg_ne (by decide) k
  have htaps : (s.swapLine k split).reg (EU_TAPS k) = (s.lineTaken k t tpt split).reg (EU_TAPS k) := by
    rw [State.swapLine_fresh _ h, State.reg_count_ne _ htc, State.reg_setReg_ne _ _ hts]
  have hstatus : (s.swapLine k split).reg (EU_STATUS k) = (s.lineTaken k t tpt split).swapStatus k := by
    rw [State.swapLine_fresh _ h, State.reg_count_ne _ hsc, State.reg_setReg_self]
  have hcount : (s.swapLine k split).reg (SWAP_CNT k) = s.reg (SWAP_CNT k) + 1 := by
    rw [State.swapLine_fresh _ h, State.reg_count_self, State.reg_setReg_ne _ _ hsc.symm, State.reg_lineTaken_ne _ _ _ _ htc.symm]
  have hchan : (s.swapLine k split).chan k = { s.chan k with fresh := none, measured := some t, splitAt := split } := by
    rw [State.swapLine_fresh _ h, State.chan_count, State.chan_setReg, State.lineTaken, State.chan_setChan_self, State.chan_setReg]
  obtain ⟨hnew, hold⟩ := s.taps_lineTaken k t tpt split
  rw [State.fld, ← htaps, ← State.fld] at hnew hold
  have hline := (s.lineTaken k t tpt split).swapStatus_line k
  have hcoarse := (s.lineTaken k t tpt split).swapStatus_coarse k
  rw [State.fld, State.reg_lineTaken_ne _ _ _ _ hts.symm, ← State.fld, ← hstatus, ← State.fld] at hline
  rw [← hstatus, ← State.bit] at hcoarse
  rw [hchan]
  exact ⟨hnew, hold, hline, hcoarse, hcount, rfl, rfl⟩

/-- At a swap point, with no measurement of the channel running, the lines change places. -/
theorem State.lineSwap_swaps {s : State} {k : Nat} (hp : s.swapPoint k = true) (hm : s.measuringCh k = false) :
    s.lineSwap k = s.swapLine k (if s.swapIdle k then none else some (stampAt (s.mt + 16) 0)) := by
  rw [State.lineSwap, hp, hm]
  rfl

theorem exec_lineSwap {s : State} (k : Fin 384) (hc : s.clocked) : exec (.lineSwap k) s = .next (s.lineSwap k) :=
  congrArg Host.Outcome.next (s.onTclk_clocked _ hc)

/-! ### Ages (R92, R100) -/

theorem State.calStaleExpiry_due {s : State} {k : Nat} (ha : 7680 < s.age k) (hb : s.bit (EU_STATUS k) 3 = false) :
    s.calStaleExpiry k = (s.setBit (EU_STATUS k) 3 true).chanEvent k 4 := by
  rw [State.calStaleExpiry, decide_eq_true ha, hb]
  exact if_pos rfl

/-- A TDC without a calibration counts as too old. -/
theorem State.tdcAgeExpiry_due {s : State} {k : Nat} (h : ∀ u, (s.chan k).tdcCal = some u → 6144000 < (s.mt - u).toNat) :
    s.tdcAgeExpiry k = s.setBit (EU_STATUS k) 6 true := by
  unfold State.tdcAgeExpiry
  cases hcal : (s.chan k).tdcCal with
  | none => rfl
  | some u => exact if_pos (h u hcal)

theorem exec_calStaleExpiry {s : State} (k : Fin 384) (hc : s.clocked) : exec (.calStaleExpiry k) s = .next (s.calStaleExpiry k) :=
  congrArg Host.Outcome.next (s.onTclk_clocked _ hc)

theorem exec_tdcAgeExpiry {s : State} (k : Fin 384) (hc : s.clocked) : exec (.tdcAgeExpiry k) s = .next (s.tdcAgeExpiry k) :=
  congrArg Host.Outcome.next (s.onTclk_clocked _ hc)

end Sys2Proof.Machine

namespace Sys2Proof.Proofs

open Sys2Proof.Machine Sys2Proof.Machine.Reg

/-- A measurement of 64 to 92 taps. -/
theorem calMeasurementDone_passes (s : State) (k : Nat) (u : Tick) (p0 p1 p2 p3 p4 : BitVec 16) (hc : s.clocked)
    (hm : s.cal.measuring = some (k, u)) (hi : s.cal.initial = none) (hlo : 64 * 256 ≤ (p4 - p0).toNat) (hhi : (p4 - p0).toNat ≤ 92 * 256) :
    ∃ t, exec (.calMeasurementDone p0 ⟨p1, p2, p3, p4⟩) s = .next t ∧ (t.chan k).fresh = some (s.mt, p4 - p0) ∧
      t.fld (EU_TAPS k) 31 16 = (p4 - p0).toNat ∧ t.bit (EU_STATUS k) 2 = true ∧ t.cal.measuring = none ∧
      (if s.offLine k = 0 then (t.chan k).map0 = some ⟨p0, p1, p2, p3, p4⟩ ∧ (t.chan k).map1 = (s.chan k).map1
       else (t.chan k).map0 = (s.chan k).map0) := by
  have hpass := s.measured_passes k (m := ⟨p0, p1, p2, p3, p4⟩) hlo hhi
  have htaps := s.taps_tapsShown k (p4 - p0) true
  have hfresh := s.fresh_tapsShown k (p4 - p0) true
  refine ⟨_, exec_calMeasurementDone p0 p1 p2 p3 p4 hc, ?_⟩
  rw [State.calMeasurementDone_slot _ hm hi, State.chan_setCal, State.fld_setCal, State.bit_setCal, State.setCal_cal, hpass,
    State.chan_setChan_self, State.fld_setChan, State.bit_setChan]
  exact ⟨rfl, htaps, hfresh, rfl, s.maps_passedChan k _⟩

/-- A measurement of fewer or more taps. -/
theorem calMeasurementDone_fails (s : State) (k : Nat) (u : Tick) (p0 p1 p2 p3 p4 : BitVec 16) (hc : s.clocked)
    (hm : s.cal.measuring = some (k, u)) (hi : s.cal.initial = none) (h : (p4 - p0).toNat < 64 * 256 ∨ 92 * 256 < (p4 - p0).toNat) :
    ∃ t, exec (.calMeasurementDone p0 ⟨p1, p2, p3, p4⟩) s = .next t ∧ (t.chan k).fresh = none ∧ t.reg CAL_FAIL = satInc (s.reg CAL_FAIL) ∧
      t.bit (EU_STATUS k) 2 = false ∧ t.cal.measuring = none := by
  obtain ⟨hfresh, hcount, hbit⟩ := s.measured_fails_shows k (m := ⟨p0, p1, p2, p3, p4⟩) h
  refine ⟨_, exec_calMeasurementDone p0 p1 p2 p3 p4 hc, ?_⟩
  rw [State.calMeasurementDone_slot _ hm hi, State.chan_setCal, State.reg_setCal, State.bit_setCal, State.setCal_cal]
  exact ⟨hfresh, hcount, hbit, rfl⟩

/-- A fresh line at a swap point. -/
theorem lineSwap_takes_service (k : Fin 384) (s : State) (u : Tick) (tpt : BitVec 16) (hc : s.clocked)
    (hf : (s.chan k).fresh = some (u, tpt)) (hp : s.swapPoint k = true) (hm : s.measuringCh k = false) :
    ∃ t, exec (.lineSwap k) s = .next t ∧ t.fld (EU_TAPS k) 15 0 = tpt.toNat ∧ t.fld (EU_TAPS k) 31 16 = s.fld (EU_TAPS k) 15 0 ∧
      t.fld (EU_STATUS k) 0 0 = 1 - s.fld (EU_STATUS k) 0 0 ∧ t.bit (EU_STATUS k) 5 = false ∧
      t.reg (SWAP_CNT k) = s.reg (SWAP_CNT k) + 1 ∧ (t.chan k).fresh = none ∧ (t.chan k).measured = some u := by
  refine ⟨_, exec_lineSwap k hc, ?_⟩
  rw [State.lineSwap_swaps hp hm]
  exact State.swapLine_shows _ hf

/-- Settles O18: a measurement that passes and one that fails, the swap, and the two ages. -/
theorem freshLinesTakeService : Obligations.FreshLinesTakeService := by
  refine ⟨calMeasurementDone_passes, calMeasurementDone_fails, lineSwap_takes_service, fun k s hc ha hb => ?_, fun k s hc h => ?_⟩
  · rw [exec_calStaleExpiry k hc, State.calStaleExpiry_due ha hb]
  · rw [exec_tdcAgeExpiry k hc, State.tdcAgeExpiry_due h]

end Sys2Proof.Proofs
end

section
/-!
PROOFS. Capture (R101 to R104): writes of CAP_CTRL, the read of CAP_RISE_LO and the storing of an edge, then the statement about them.
-/

namespace Sys2Proof.Machine

open Reg

/-! ### CAP_CTRL (R104) -/

/-- The stamp of a tick's start. -/
theorem stampAt_zero (t : Tick) : stampAt t 0 = t <<< 6 := by simp [stampAt]

/-- CAP_CTRL has taken a write of `v`. -/
def State.capCtrlTaken (s : State) (k : Nat) (v : Word) : State :=
  s.setReg (CAP_CTRL k) (mergeWord (s.reg (CAP_CTRL k)) v 0x0000F038#32)

/-- DISARM acts alone, and ARM without it. -/
theorem State.capCtrlWrite_eq (s : State) (k : Nat) (v : Word) :
    s.capCtrlWrite k v = if v.getLsbD 2 = true then (s.capCtrlTaken k v).setBit (CAP_STATUS k) 0 false
      else if v.getLsbD 1 = true then (s.capCtrlTaken k v).armCapture k (s.capCtrlTaken k v).now else s.capCtrlTaken k v := rfl

theorem State.capCtrlWrite_disarm (s : State) (k : Nat) {v : Word} (hd : v.getLsbD 2 = true) :
    s.capCtrlWrite k v = (s.capCtrlTaken k v).setBit (CAP_STATUS k) 0 false := by
  rw [State.capCtrlWrite_eq, if_pos hd]

theorem State.capCtrlWrite_arm (s : State) (k : Nat) {v : Word} (ha : v.getLsbD 1 = true) (hd : v.getLsbD 2 = false) :
    s.capCtrlWrite k v = (s.capCtrlTaken k v).armCapture k s.now := by
  rw [State.capCtrlWrite_eq, if_neg (by rw [hd]; exact Bool.false_ne_true), if_pos ha, State.capCtrlTaken, State.now_setReg]

theorem exec_capDisarm {s : State} (k : Fin 384) {v : Word} (ha : s.accepts (CAP_CTRL k) v) :
    exec (.capDisarm k v) s = .next ((s.noteHost (CAP_CTRL k)).capCtrlWrite k v) := congrArg Host.Outcome.next (s.hostWrite_accepts _ ha)

theorem exec_capArm {s : State} (k : Fin 384) {v : Word} (ha : s.accepts (CAP_CTRL k) v) :
    exec (.capArm k v) s = .next ((s.noteHost (CAP_CTRL k)).capCtrlWrite k v) := congrArg Host.Outcome.next (s.hostWrite_accepts _ ha)

/-! ### The read of CAP_RISE_LO (R103) -/

/-- The shadow registers of channel `k` take the capture of `q`. -/
def State.shadowsLatched (s : State) (k : Nat) (q : Chan) : State :=
  (((s.setReg (CAP_RISE_HI k) (hiWord q.capRise)).setPair (CAP_FALL_LO k) (CAP_FALL_HI k) q.capFall).setPair
    (CAP_WIDTH_LO k) (CAP_WIDTH_HI k) (q.capWidth.zeroExtend 64)).setReg (CAP_SEQ k) q.capSeq

/-- The shadows are latched, and OVR is cleared unless an edge has been stored since `q`. -/
def State.captureRead (s : State) (k : Nat) (q : Chan) : State :=
  if (s.chan k).capSeq = q.capSeq then (s.shadowsLatched k q).setBit (CAP_STATUS k) 1 false else s.shadowsLatched k q

/-- Channel `k` once a host has read the capture of `q`: what has been stored since stays unread. -/
def State.readChan (s : State) (k : Nat) (q : Chan) : Chan :=
  { s.chan k with riseUnread := (s.chan k).riseUnread && (s.chan k).capRise != q.capRise
                  fallUnread := (s.chan k).fallUnread && (s.chan k).capFall != q.capFall }

theorem State.capRiseLoRead_eq (s : State) (k : Nat) :
    let q := (s.seen (CAP_RISE_LO k)).chan k
    s.capRiseLoRead k = (loWord q.capRise, (s.captureRead k q).setChan k (s.readChan k q)) := rfl

theorem State.capRiseHi_shadowsLatched (s : State) (k : Nat) (q : Chan) :
    (s.shadowsLatched k q).reg (CAP_RISE_HI k) = hiWord q.capRise := by
  have hseq : CAP_RISE_HI k ≠ CAP_SEQ k := chanReg_ne (by decide) k
  have hwl : CAP_RISE_HI k ≠ CAP_WIDTH_LO k := chanReg_ne (by decide) k
  have hwh : CAP_RISE_HI k ≠ CAP_WIDTH_HI k := chanReg_ne (by decide) k
  have hfl : CAP_RISE_HI k ≠ CAP_FALL_LO k := chanReg_ne (by decide) k
  have hfh : CAP_RISE_HI k ≠ CAP_FALL_HI k := chanReg_ne (by decide) k
  rw [State.shadowsLatched, State.reg_setReg_ne _ _ hseq, State.reg_setPair_ne _ _ hwl hwh, State.reg_setPair_ne _ _ hfl hfh,
    State.reg_setReg_self]

theorem State.capWidth_shadowsLatched (s : State) (k : Nat) (q : Chan) :
    (s.shadowsLatched k q).pair (CAP_WIDTH_LO k) (CAP_WIDTH_HI k) = q.capWidth.zeroExtend 64 := by
  have hlo : CAP_WIDTH_LO k ≠ CAP_SEQ k := chanReg_ne (by decide) k
  have hhi : CAP_WIDTH_HI k ≠ CAP_SEQ k := chanReg_ne (by decide) k
  have hlh : CAP_WIDTH_LO k ≠ CAP_WIDTH_HI k := chanReg_ne (by decide) k
  rw [State.pair, State.shadowsLatched, State.reg_setReg_ne _ _ hlo, State.reg_setReg_ne _ _ hhi, ← State.pair,
    State.pair_setPair_self _ _ _ _ hlh]

theorem State.capFall_shadowsLatched (s : State) (k : Nat) (q : Chan) :
    (s.shadowsLatched k q).pair (CAP_FALL_LO k) (CAP_FALL_HI k) = q.capFall := by
  have hlo : CAP_FALL_LO k ≠ CAP_SEQ k := chanReg_ne (by decide) k
  have hhi : CAP_FALL_HI k ≠ CAP_SEQ k := chanReg_ne (by decide) k
  have hll : CAP_FALL_LO k ≠ CAP_WIDTH_LO k := chanReg_ne (by decide) k
  have hlh : CAP_FALL_LO k ≠ CAP_WIDTH_HI k := chanReg_ne (by decide) k
  have hhl : CAP_FALL_HI k ≠ CAP_WIDTH_LO k := chanReg_ne (by decide) k
  have hhh : CAP_FALL_HI k ≠ CAP_WIDTH_HI k := chanReg_ne (by decide) k
  have hfall : CAP_FALL_LO k ≠ CAP_FALL_HI k := chanReg_ne (by decide) k
  rw [State.pair, State.shadowsLatched, State.reg_setReg_ne _ _ hlo, State.reg_setReg_ne _ _ hhi, State.reg_setPair_ne _ _ hll hlh,
    State.reg_setPair_ne _ _ hhl hhh, ← State.pair, State.pair_setPair_self _ _ _ _ hfall]

theorem State.capSeq_shadowsLatched (s : State) (k : Nat) (q : Chan) : (s.shadowsLatched k q).reg (CAP_SEQ k) = q.capSeq :=
  State.reg_setReg_self _ _ _

theorem State.capStatus_shadowsLatched (s : State) (k : Nat) (q : Chan) :
    (s.shadowsLatched k q).reg (CAP_STATUS k) = s.reg (CAP_STATUS k) := by
  have hseq : CAP_STATUS k ≠ CAP_SEQ k := chanReg_ne (by decide) k
  have hwl : CAP_STATUS k ≠ CAP_WIDTH_LO k := chanReg_ne (by decide) k
  have hwh : CAP_STATUS k ≠ CAP_WIDTH_HI k := chanReg_ne (by decide) k
  have hfl : CAP_STATUS k ≠ CAP_FALL_LO k := chanReg_ne (by decide) k
  have hfh : CAP_STATUS k ≠ CAP_FALL_HI k := chanReg_ne (by decide) k
  have hrise : CAP_STATUS k ≠ CAP_RISE_HI k := chanReg_ne (by decide) k
  rw [State.shadowsLatched, State.reg_setReg_ne _ _ hseq, State.reg_setPair_ne _ _ hwl hwh, State.reg_setPair_ne _ _ hfl hfh,
    State.reg_setReg_ne _ _ hrise]

/-- The clearing of OVR leaves the shadows. -/
theorem State.reg_captureRead (s : State) {k a : Nat} (q : Chan) (h : a ≠ CAP_STATUS k) :
    (s.captureRead k q).reg a = (s.shadowsLatched k q).reg a := by
  unfold State.captureRead
  split
  · exact State.reg_setBit_ne _ _ _ h
  · rfl

theorem State.pair_captureRead (s : State) {k lo hi : Nat} (q : Chan) (hlo : lo ≠ CAP_STATUS k) (hhi : hi ≠ CAP_STATUS k) :
    (s.captureRead k q).pair lo hi = (s.shadowsLatched k q).pair lo hi := by
  rw [State.pair, s.reg_captureRead q hlo, s.reg_captureRead q hhi, State.pair]

theorem State.ovr_captureRead (s : State) (k : Nat) (q : Chan) :
    (s.captureRead k q).bit (CAP_STATUS k) 1 = (s.bit (CAP_STATUS k) 1 && decide ((s.chan k).capSeq ≠ q.capSeq)) := by
  by_cases hseq : (s.chan k).capSeq = q.capSeq
  · rw [State.captureRead, if_pos hseq, State.bit_setBit_self _ _ _ _ (by decide), decide_eq_false (not_not_intro hseq), Bool.and_false]
  · rw [State.captureRead, if_neg hseq, State.bit, State.capStatus_shadowsLatched, ← State.bit, decide_eq_true hseq, Bool.and_true]

theorem exec_capRiseLoRead {s : State} (k : Fin 384) (hs : s.serves) :
    exec (.capRiseLoRead k) s = .next ((s.touchChanged (s.capRiseLoRead k).2).returning [(s.capRiseLoRead k).1]) :=
  congrArg Host.Outcome.next (s.hostRead_serves _ hs)

@[simp] theorem State.chan_returning (s : State) (ws : List Word) (k : Nat) : (s.returning ws).chan k = s.chan k := rfl

@[simp] theorem State.pair_returning (s : State) (ws : List Word) (lo hi : Nat) : (s.returning ws).pair lo hi = s.pair lo hi := rfl

@[simp] theorem State.chan_touchChanged (s t : State) (k : Nat) : (s.touchChanged t).chan k = t.chan k := rfl

@[simp] theorem State.pair_touchChanged (s t : State) (lo hi : Nat) : (s.touchChanged t).pair lo hi = t.pair lo hi := rfl

@[simp] theorem State.bit_touchChanged (s t : State) (a i : Nat) : (s.touchChanged t).bit a i = t.bit a i := rfl

/-! ### Storing (R101, R102) -/

/-- A single edge that met the conditions of R101 waits. -/
theorem settleEdges_single (filt : Nat) (sure : Bool) {e : Edge} (hc : e.counted = true) : settleEdges filt sure [e] = (0, [e]) := by
  rw [settleEdges, hc]
  rfl

/-- The oldest edge is not discarded when the next one does not reverse it within CAP_FILT. -/
theorem settleEdges_kept {filt : Nat} (sure : Bool) {e l : Edge} (rest : List Edge) (hc : e.counted = true)
    (hr : reverses filt e l = false) : settleEdges filt sure (e :: l :: rest) = (0, e :: l :: rest) := by
  rw [settleEdges, hc, hr]
  rfl

/-- Edges of which none is discarded stay as they are. -/
theorem State.settleCapture_kept {s : State} {k : Nat} {sure : Bool}
    (h : settleEdges (s.capFilt k) sure (s.chan k).capPend = (0, (s.chan k).capPend)) : s.settleCapture k sure = s.setChan k (s.chan k) := by
  rw [State.settleCapture, h]
  rfl

/-- Channel `k` once edge `e` is stored. -/
def State.storedChan (s : State) (k : Nat) (e : Edge) : Chan :=
  let c := s.chan k
  let hasWidth := !e.level && c.lastStored == some true
  { c with
    capRise := if e.level then e.stamp else c.capRise
    capFall := if e.level then c.capFall else e.stamp
    capWidth := if hasWidth then BitVec.ofNat 40 (min (e.stamp - c.capRise).toNat (2 ^ 40 - 1)) else c.capWidth
    capSeq := c.capSeq + 1
    lastStored := some e.level
    riseUnread := e.level || c.riseUnread
    fallUnread := !e.level || c.fallUnread }

theorem State.chan_storeCapture (s : State) (k : Nat) (e : Edge) : (s.storeCapture k e).chan k = s.storedChan k e := by
  rw [State.storeCapture, State.chan_setReg, State.chan_raiseIf, State.chan_setChan_self]
  rfl

/-- Channel `k` once its oldest edge is consumed, with `rest` left. -/
def State.edgeConsumed (s : State) (k : Nat) (rest : List Edge) : State := s.setChan k { s.chan k with capPend := rest }

/-- The edge is stored if the capture is armed, and was armed before it. -/
def State.storesEdge (s : State) (k : Nat) (e : Edge) : Bool :=
  s.bit (CAP_STATUS k) 0 && s.notLater (s.pair (CAP_ARM_LO k) (CAP_ARM_HI k)) e.stamp

theorem State.captureReady_setChan (s : State) (k : Nat) (c : Chan) (sure : Bool) (e : Edge) (rest : List Edge) :
    (s.setChan k c).captureReady k sure e rest = s.captureReady k sure e rest := by
  cases rest <;> rfl

/-- The oldest edge, when no edge is discarded and none to come can discard it, is consumed, and stored if it still meets R101. -/
theorem State.captureStore_ready {s : State} {k : Nat} {e z : Edge} {rest : List Edge} (hp : (s.chan k).capPend = e :: rest)
    (hz : (e :: rest).getLast? = some z)
    (hkept : settleEdges (s.capFilt k) (decide (24 ≤ ahead s.now z.stamp)) (e :: rest) = (0, e :: rest))
    (hready : s.captureReady k (decide (24 ≤ ahead s.now z.stamp)) e rest = true) :
    s.captureStore k = if s.storesEdge k e then (s.edgeConsumed k rest).storeCapture k e else s.edgeConsumed k rest := by
  have hsettled := State.settleCapture_kept (s := s) (k := k) (sure := decide (24 ≤ ahead s.now z.stamp)) (by rw [hp, hkept])
  rw [State.captureStore, hp, hz]
  dsimp only
  rw [hsettled, State.chan_setChan_self, hp]
  dsimp only
  rw [State.captureReady_setChan, hready, if_pos rfl, State.setChan_setChan]
  rfl

theorem State.chan_edgeConsumed (s : State) (k : Nat) (rest : List Edge) :
    (s.edgeConsumed k rest).chan k = { s.chan k with capPend := rest } := s.chan_setChan_self _ _

theorem exec_captureStore {s : State} (k : Fin 384) (hc : s.clocked) : exec (.captureStore k) s = .next (s.captureStore k) :=
  congrArg Host.Outcome.next (s.onTclk_clocked _ hc)

end Sys2Proof.Machine

namespace Sys2Proof.Proofs

open Sys2Proof.Machine Sys2Proof.Machine.Reg

/-- What a read of CAP_RISE_LO shows. -/
theorem capRiseLoRead_latches (k : Fin 384) (s : State) (hs : s.serves) :
    let q := (s.seen (CAP_RISE_LO k)).chan k
    ∃ t, exec (.capRiseLoRead k) s = .next t ∧ t.hostData = [loWord q.capRise] ∧ t.reg (CAP_RISE_HI k) = hiWord q.capRise ∧
      t.pair (CAP_FALL_LO k) (CAP_FALL_HI k) = q.capFall ∧
      t.pair (CAP_WIDTH_LO k) (CAP_WIDTH_HI k) = q.capWidth.zeroExtend 64 ∧ t.reg (CAP_SEQ k) = q.capSeq ∧
      t.bit (CAP_STATUS k) 1 = (s.bit (CAP_STATUS k) 1 && decide ((s.chan k).capSeq ≠ q.capSeq)) ∧
      (t.chan k).capRise = (s.chan k).capRise := by
  intro q
  have hrise : CAP_RISE_HI k ≠ CAP_STATUS k := chanReg_ne (by decide) k
  have hfl : CAP_FALL_LO k ≠ CAP_STATUS k := chanReg_ne (by decide) k
  have hfh : CAP_FALL_HI k ≠ CAP_STATUS k := chanReg_ne (by decide) k
  have hwl : CAP_WIDTH_LO k ≠ CAP_STATUS k := chanReg_ne (by decide) k
  have hwh : CAP_WIDTH_HI k ≠ CAP_STATUS k := chanReg_ne (by decide) k
  have hseq : CAP_SEQ k ≠ CAP_STATUS k := chanReg_ne (by decide) k
  refine ⟨_, exec_capRiseLoRead k hs, ?_⟩
  rw [State.capRiseLoRead_eq]
  simp only [State.reg_returning, State.pair_returning, State.bit_returning, State.chan_returning, State.reg_touchChanged,
    State.pair_touchChanged, State.bit_touchChanged, State.chan_touchChanged, State.reg_setChan, State.pair_setChan, State.bit_setChan,
    State.chan_setChan_self]
  rw [State.reg_captureRead _ _ hrise, State.pair_captureRead _ _ hfl hfh, State.pair_captureRead _ _ hwl hwh,
    State.reg_captureRead _ _ hseq]
  exact ⟨rfl, s.capRiseHi_shadowsLatched k q, s.capFall_shadowsLatched k q, s.capWidth_shadowsLatched k q, s.capSeq_shadowsLatched k q,
    s.ovr_captureRead k q, rfl⟩

/-- The only edge, once no later one can discard it. -/
theorem captureStore_single (k : Fin 384) (s : State) (e : Edge) (hc : s.clocked) (hp : (s.chan k).capPend = [e]) (he : e.counted = true)
    (harmed : s.bit (CAP_STATUS k) 0 = true) (hsure : 24 ≤ ahead s.now e.stamp) (hfilt : (s.capFilt k : Int) ≤ ahead s.now e.stamp) :
    ∃ t, exec (.captureStore k) s = .next t ∧ (t.chan k).capPend = [] ∧
      (if s.notLater (s.pair (CAP_ARM_LO k) (CAP_ARM_HI k)) e.stamp = false then
         (t.chan k).capSeq = (s.chan k).capSeq ∧ (t.chan k).capRise = (s.chan k).capRise ∧ (t.chan k).capFall = (s.chan k).capFall
       else (t.chan k).capSeq = (s.chan k).capSeq + 1 ∧
         (if e.level then (t.chan k).capRise = e.stamp ∧ (t.chan k).capFall = (s.chan k).capFall
          else (t.chan k).capFall = e.stamp ∧ (t.chan k).capRise = (s.chan k).capRise)) := by
  have hready : s.captureReady k (decide (24 ≤ ahead s.now e.stamp)) e [] = true := by
    rw [State.captureReady, decide_eq_true hsure, decide_eq_true hfilt]
    rfl
  refine ⟨_, exec_captureStore k hc, ?_⟩
  rw [State.captureStore_ready hp rfl (settleEdges_single _ _ he) hready, State.storesEdge, harmed, Bool.true_and]
  cases hafter : s.notLater (s.pair (CAP_ARM_LO k) (CAP_ARM_HI k)) e.stamp with
  | false =>
    rw [if_neg Bool.false_ne_true, if_pos rfl, State.chan_edgeConsumed]
    exact ⟨rfl, rfl, rfl, rfl⟩
  | true =>
    rw [if_pos rfl, if_neg (by decide), State.chan_storeCapture, State.storedChan, State.chan_edgeConsumed]
    cases e.level with
    | false => exact ⟨rfl, rfl, rfl, rfl⟩
    | true => exact ⟨rfl, rfl, rfl, rfl⟩

/-- An edge that the next one does not reverse. -/
theorem captureStore_followed (k : Fin 384) (s : State) (e l : Edge) (hc : s.clocked) (hp : (s.chan k).capPend = [e, l])
    (he : e.counted = true) (harmed : s.bit (CAP_STATUS k) 0 = true) (hr : reverses (s.capFilt k) e l = false)
    (hafter : s.notLater (s.pair (CAP_ARM_LO k) (CAP_ARM_HI k)) e.stamp = true) :
    ∃ t, exec (.captureStore k) s = .next t ∧ (t.chan k).capPend = [l] ∧ (t.chan k).capSeq = (s.chan k).capSeq + 1 := by
  have hready (sure : Bool) : s.captureReady k sure e [l] = true := by
    rw [State.captureReady, hr]
    rfl
  refine ⟨_, exec_captureStore k hc, ?_⟩
  rw [State.captureStore_ready hp rfl (settleEdges_kept _ _ he hr) (hready _), State.storesEdge, harmed, hafter,
    if_pos (Bool.and_self true), State.chan_storeCapture, State.storedChan, State.chan_edgeConsumed]
  exact ⟨rfl, rfl⟩

/-- Settles O19: DISARM and ARM, the read of CAP_RISE_LO, and an edge stored alone and before another. -/
theorem captureArmsStoresAndLatches : Obligations.CaptureArmsStoresAndLatches := by
  refine ⟨fun k v s ha hd => ?_, fun k v s ha harm hd => ?_, capRiseLoRead_latches, captureStore_single, captureStore_followed⟩
  · rw [exec_capDisarm k ha, State.capCtrlWrite_disarm _ k hd, State.capCtrlTaken, State.reg_noteHost]
  · rw [exec_capArm k ha, State.capCtrlWrite_arm _ k harm hd, State.armCapture, State.capCtrlTaken, State.reg_noteHost, State.now,
      State.noteHost_mt, stampAt_zero]

end Sys2Proof.Proofs
end

section
/-!
PROOFS. Input edges and pin selection (R21, R97, R99): what a stamped edge leaves of its channel and what it leaves alone, the writes of
PIN_OUT_SEL and CH_IN_SEL, then the statement about them.
-/

namespace Sys2Proof.Machine

open Reg

/-! ### What a stamped edge does beside its channel (R127, R139, R180, R187, R193) -/

theorem State.setShaft_keepsClusters (s : State) (h : Nat) (c : Shaft) : KeepsClusters s (s.setShaft h c) := ⟨rfl, fun _ _ => rfl⟩

theorem State.setIface_keepsClusters (s : State) (f : Nat) (c : Iface) : KeepsClusters s (s.setIface f c) := ⟨rfl, fun _ _ => rfl⟩

theorem State.setProbe_keepsClusters (s : State) (p : Nat) (c : Probe) : KeepsClusters s (s.setProbe p c) := ⟨rfl, fun _ _ => rfl⟩

theorem foldBelow_keepsClusters {f : State → Nat → State} (n : Nat) (hf : ∀ s i, KeepsClusters s (f s i)) (s : State) :
    KeepsClusters s (foldBelow n f s) := .foldl hf _ s

theorem State.toothEdge_keepsClusters (s : State) (k : Nat) (st : Stamp) (lvl : Bool) : KeepsClusters s (s.toothEdge k st lvl) := by
  refine foldBelow_keepsClusters 16 (fun s h => .ite (.ite (s.setShaft_keepsClusters h _) ?_) (.refl s)) s
  split
  · exact .ite (s.setShaft_keepsClusters h _) (.refl s)
  · exact .refl s

theorem State.dropCandidate_keepsClusters (s : State) (k : Nat) (st : Stamp) : KeepsClusters s (s.dropCandidate k st) :=
  foldBelow_keepsClusters 16 (fun s h => .ite (s.setShaft_keepsClusters h _) (.refl s)) s

theorem State.directionEdge_keepsClusters (s : State) (k : Nat) : KeepsClusters s (s.directionEdge k) :=
  foldBelow_keepsClusters 16 (fun s h => .ite (s.setShaft_keepsClusters h _) (.refl s)) s

theorem State.feedEdge_keepsClusters (s : State) (k : Nat) (st : Stamp) (lvl : Bool) : KeepsClusters s (s.feedEdge k st lvl) := by
  unfold State.feedEdge
  refine (foldBelow_keepsClusters 16 (fun s f => ?_) s).trans (foldBelow_keepsClusters 8 (fun s p => ?_) _)
  · exact .ite (s.setIface_keepsClusters f _) (.refl s)
  · exact .ite (s.setProbe_keepsClusters p _) (.refl s)

theorem State.unfeedEdge_keepsClusters (s : State) (k : Nat) (st : Stamp) : KeepsClusters s (s.unfeedEdge k st) := by
  unfold State.unfeedEdge
  refine (foldBelow_keepsClusters 16 (fun s f => ?_) s).trans (foldBelow_keepsClusters 8 (fun s p => ?_) _)
  · exact .ite (s.setIface_keepsClusters f _) (.refl s)
  · exact .ite (s.setProbe_keepsClusters p _) (.refl s)

theorem State.noteExt_keepsClusters (s : State) (k : Nat) (lvl : Bool) : KeepsClusters s (s.noteExt k lvl) := by
  have hwear (c : Prop) [Decidable c] (p : Nat) : KeepsClusters s (if c then s else s.noteWear 2 p) :=
    .ite (.refl s) (s.noteWear_keepsClusters 2 p)
  exact .ite (((hwear _ _).trans (State.setPin_keepsClusters _ _ _)).trans (State.setPin_keepsClusters _ _ _)) (.refl s)

theorem State.tdcEdge_keepsClusters (s : State) (k : Nat) : KeepsClusters s (s.tdcEdge k) := by
  unfold State.tdcEdge
  split
  · exact .ite ⟨rfl, fun _ _ => rfl⟩ (.refl s)
  · exact .refl s

/-! ### A stamped edge at its channel (R97, R99) -/

/-- The input of channel `k` shows `lvl`: its sample of the tick, the quiet run of its TDC and its wear are noted. -/
def State.edgeNoted (s : State) (k : Nat) (lvl : Bool) : State :=
  let s := (s.setChan k ((s.chan k).noteInput s.mt lvl)).tdcEdge k
  if lvl then s.noteWear 3 k else s

theorem State.edgeNoted_keepsClusters (s : State) (k : Nat) (lvl : Bool) :
    KeepsClusters (s.setChan k ((s.chan k).noteInput s.mt lvl)) (s.edgeNoted k lvl) :=
  .ite ((State.tdcEdge_keepsClusters _ k).trans (State.noteWear_keepsClusters _ 3 k)) (State.tdcEdge_keepsClusters _ k)

theorem State.chan_edgeNoted (s : State) (k : Nat) (lvl : Bool) : (s.edgeNoted k lvl).chan k = (s.chan k).noteInput s.mt lvl := by
  rw [State.chan, (s.edgeNoted_keepsClusters k lvl).chans, ← State.chan, State.chan_setChan_self]

theorem State.reg_edgeNoted (s : State) (k : Nat) (lvl : Bool) {a : Nat} (ha : 0x1000000 ≤ a) : (s.edgeNoted k lvl).reg a = s.reg a := by
  rw [(s.edgeNoted_keepsClusters k lvl).regs a ha, State.reg_setChan]

/-- Channel `k` sees level `lvl`, and its edge stamped `l` is discarded with the present one, which GLITCH_CNT counts. -/
def State.pairDiscarded (s : State) (k : Nat) (lvl : Bool) (l : Stamp) : State :=
  (s.setChan k { s.chan k with
    lastIn := none, inLevel := lvl, capPend := (s.chan k).capPend.filter (fun e => e.stamp ≠ l) }).satCount (GLITCH_CNT k)

/-- Channel `k` sees level `lvl` since stamp `st`, and capture has the edge to test. -/
def State.edgeQueued (s : State) (k : Nat) (st : Stamp) (lvl : Bool) : State :=
  let s := s.settleCapture k true
  let e : Edge := { stamp := st, level := lvl, counted := s.captureSelects k st lvl, both := false, cause := s.mt }
  s.setChan k { s.chan k with lastIn := some st, inLevel := lvl, capPend := (s.chan k).capPend ++ [e] }

/-- An edge closer than 24 fine steps to the last one is a glitch with it. -/
theorem State.captureEdge_glitch {s : State} {k : Nat} {st l : Stamp} (lvl : Bool) (hl : (s.chan k).lastIn = some l)
    (hnear : (st - l).toNat < 24) : s.captureEdge k st lvl = (some l, s.pairDiscarded k lvl l) := by
  simp only [State.captureEdge, hl, hnear, if_true]
  rfl

/-- An edge farther from the last one, or after none, is stamped. -/
theorem State.captureEdge_stamped {s : State} {k : Nat} {st : Stamp} (lvl : Bool)
    (hfar : ∀ l, (s.chan k).lastIn = some l → 24 ≤ (st - l).toNat) : s.captureEdge k st lvl = (none, s.edgeQueued k st lvl) := by
  cases hl : (s.chan k).lastIn with
  | none =>
    simp only [State.captureEdge, hl]
    rfl
  | some l =>
    have hnear : ¬(st - l).toNat < 24 := Nat.not_lt.2 (hfar l hl)
    simp only [State.captureEdge, hl, hnear, if_false]
    rfl

/-- Beside what its channel takes, a stamped edge reaches shafts, interfaces and probes alone. -/
theorem State.stampEdge_keepsClusters (s : State) (k : Nat) (st : Stamp) (lvl : Bool) :
    KeepsClusters ((s.edgeNoted k lvl).captureEdge k st lvl).2 (s.stampEdge k st lvl) := by
  refine KeepsClusters.trans ?_ (State.directionEdge_keepsClusters _ k)
  cases h : ((s.edgeNoted k lvl).captureEdge k st lvl).1 with
  | some first =>
    simp only [State.edgeNoted] at h ⊢
    rw [h]
    exact (State.dropCandidate_keepsClusters _ k first).trans (State.unfeedEdge_keepsClusters _ k first)
  | none =>
    simp only [State.edgeNoted] at h ⊢
    rw [h]
    exact (State.toothEdge_keepsClusters _ k st lvl).trans (State.feedEdge_keepsClusters _ k st lvl)

theorem State.inputEdge_taken {s : State} {k : Nat} {f : BitVec 6} {lvl : Bool} (h : s.inputCan k (stampAt s.mt f) lvl = true) :
    s.inputEdge k f lvl = (s.noteExt k lvl).stampEdge k (stampAt s.mt f) lvl := if_pos h

/-- The state in which capture meets an edge to `lvl` at the input of channel `k`. -/
def State.edgeMet (s : State) (k : Nat) (lvl : Bool) : State := (s.noteExt k lvl).edgeNoted k lvl

/-- The channel that capture meets has only a new sample of its input. -/
theorem State.chan_edgeMet (s : State) (k : Nat) (lvl : Bool) :
    (s.edgeMet k lvl).chan k = (s.chan k).noteInput (s.noteExt k lvl).mt lvl := by
  have hchan : (s.noteExt k lvl).chan k = s.chan k := by rw [State.chan, (s.noteExt_keepsClusters k lvl).chans, State.chan]
  rw [State.edgeMet, State.chan_edgeNoted, hchan]

theorem State.lastIn_edgeMet (s : State) (k : Nat) (lvl : Bool) : ((s.edgeMet k lvl).chan k).lastIn = (s.chan k).lastIn := by
  rw [State.chan_edgeMet]
  rfl

theorem State.reg_edgeMet (s : State) (k : Nat) (lvl : Bool) {a : Nat} (ha : 0x1000000 ≤ a) : (s.edgeMet k lvl).reg a = s.reg a := by
  rw [State.edgeMet, State.reg_edgeNoted _ k lvl ha, (s.noteExt_keepsClusters k lvl).regs a ha]

/-- An edge that its source can show leaves the channels and their registers as capture does. -/
theorem State.inputEdge_keepsClusters {s : State} {k : Nat} {f : BitVec 6} {lvl : Bool} (h : s.inputCan k (stampAt s.mt f) lvl = true) :
    KeepsClusters ((s.edgeMet k lvl).captureEdge k (stampAt s.mt f) lvl).2 (s.inputEdge k f lvl) := by
  rw [State.inputEdge_taken h]
  exact State.stampEdge_keepsClusters _ k _ lvl

theorem KeepsClusters.chan {s t : State} (h : KeepsClusters s t) (k : Nat) : t.chan k = s.chan k := by
  rw [State.chan, h.chans, State.chan]

theorem exec_inputEdge {s : State} (k : Fin 384) (f : BitVec 6) (lvl : Bool) (hc : s.clocked) :
    exec (.inputEdge k f lvl) s = .next (s.inputEdge k f lvl) := congrArg Host.Outcome.next (s.onTclk_clocked _ hc)

/-! ### Selection (R21) -/

/-- A write of PIN_OUT_SEL waits for the next tick boundary. -/
theorem State.pinSelWrite_out (s : State) (p : Fin 256) (v : Word) :
    s.pinSelWrite (PIN_OUT_SEL p) v =
      let w := mergeWord (s.reg (PIN_OUT_SEL p)) v 0x000F81FF#32
      (s.setReg (PIN_OUT_SEL p) w).setPin p { s.pin p with selDue := some (s.mt + 1, w) } := by
  have hrange : 0x60000 ≤ PIN_OUT_SEL p ∧ PIN_OUT_SEL p < 0x60400 ∧ PIN_OUT_SEL p % 4 = 0 := by unfold PIN_OUT_SEL; omega
  have hp : (PIN_OUT_SEL p - 0x60000) / 4 = p := by unfold PIN_OUT_SEL; omega
  rw [State.pinSelWrite, if_pos hrange, hp]

/-- A write of CH_IN_SEL waits for the next tick boundary. -/
theorem State.pinSelWrite_in (s : State) (k : Fin 384) (v : Word) :
    s.pinSelWrite (CH_IN_SEL k) v =
      let w := mergeWord (s.reg (CH_IN_SEL k)) v 0x00000FFF#32
      (s.setReg (CH_IN_SEL k) w).setChan k { s.chan k with inSelDue := some (s.mt + 1, w) } := by
  have hout : ¬(0x60000 ≤ CH_IN_SEL k ∧ CH_IN_SEL k < 0x60400 ∧ CH_IN_SEL k % 4 = 0) := by unfold CH_IN_SEL; omega
  have hrange : 0x60400 ≤ CH_IN_SEL k ∧ CH_IN_SEL k < 0x60A00 ∧ CH_IN_SEL k % 4 = 0 := by unfold CH_IN_SEL; omega
  have hk : (CH_IN_SEL k - 0x60400) / 4 = k := by unfold CH_IN_SEL; omega
  rw [State.pinSelWrite, if_neg hout, if_pos hrange, hk]

theorem exec_pinSelWrite {s : State} {a : Nat} {v : Word} (ha : s.accepts a v) :
    exec (.pinSelWrite a v) s = .next ((s.noteHost a).pinSelWrite a v) := congrArg Host.Outcome.next (s.hostWrite_accepts _ ha)

end Sys2Proof.Machine

namespace Sys2Proof.Proofs

open Sys2Proof.Machine Sys2Proof.Machine.Reg

/-- An edge far enough from the last one. -/
theorem inputEdge_stamps (k : Fin 384) (f : BitVec 6) (lvl : Bool) (s : State) (hc : s.clocked)
    (hcan : s.inputCan k (stampAt s.mt f) lvl = true) (hfar : ∀ l, (s.chan k).lastIn = some l → 24 ≤ (stampAt s.mt f - l).toNat) :
    ∃ t, exec (.inputEdge k f lvl) s = .next t ∧ (t.chan k).lastIn = some (stampAt s.mt f) ∧ (t.chan k).inLevel = lvl := by
  have hkeeps := State.inputEdge_keepsClusters hcan
  rw [State.captureEdge_stamped lvl (fun l hl => hfar l (by rw [← hl, State.lastIn_edgeMet]))] at hkeeps
  refine ⟨_, exec_inputEdge k f lvl hc, ?_⟩
  rw [hkeeps.chan, State.edgeQueued, State.chan_setChan_self]
  exact ⟨rfl, rfl⟩

/-- An edge too near to the last one. -/
theorem inputEdge_discards (k : Fin 384) (f : BitVec 6) (lvl : Bool) (s : State) (l : Stamp) (hc : s.clocked)
    (hcan : s.inputCan k (stampAt s.mt f) lvl = true) (hl : (s.chan k).lastIn = some l) (hnear : (stampAt s.mt f - l).toNat < 24) :
    ∃ t, exec (.inputEdge k f lvl) s = .next t ∧ (t.chan k).lastIn = none ∧ (t.chan k).inLevel = lvl ∧
      t.reg (GLITCH_CNT k) = satInc (s.reg (GLITCH_CNT k)) ∧ (∀ e ∈ (t.chan k).capPend, e.stamp ≠ l) := by
  have hcluster : 0x1000000 ≤ GLITCH_CNT k := by unfold GLITCH_CNT; omega
  have hkeeps := State.inputEdge_keepsClusters hcan
  rw [State.captureEdge_glitch lvl ((s.lastIn_edgeMet k lvl).trans hl) hnear] at hkeeps
  refine ⟨_, exec_inputEdge k f lvl hc, ?_⟩
  rw [hkeeps.chan, hkeeps.regs _ hcluster, State.pairDiscarded, State.reg_satCount_self, State.chan_satCount, State.reg_setChan,
    State.chan_setChan_self, s.reg_edgeMet k lvl hcluster]
  exact ⟨rfl, rfl, rfl, fun e he => by simpa using (List.mem_filter.1 he).2⟩

/-- Settles O20: an edge that is stamped and one that is discarded, then PIN_OUT_SEL and CH_IN_SEL. -/
theorem inputEdgesAreStamped : Obligations.InputEdgesAreStamped := by
  refine ⟨inputEdge_stamps, inputEdge_discards, fun p v s ha => ?_, fun k v s ha => ?_⟩
  · rw [exec_pinSelWrite ha, State.pinSelWrite_out, State.reg_noteHost, State.pin_noteHost, State.noteHost_mt]
  · rw [exec_pinSelWrite ha, State.pinSelWrite_in, State.reg_noteHost, State.chan_noteHost, State.noteHost_mt]

end Sys2Proof.Proofs
end

section
/-!
PROOFS. Trip inputs and takes (R106, R108, R111, R113): the input's filter, what a take shows and what it leaves of the other mittens, a source
that becomes active, then the statement about them.
-/

namespace Sys2Proof.Machine

open Reg

/-! ### The filter of a trip input (R106, R121) -/

/-- An unfiltered input follows an edge at once. -/
theorem State.tripInputEdge_follows {s : State} {i : Nat} {lvl : Bool} (hp : s.padsOff = false) (hraw : s.bit TRIP_RAW i ≠ lvl)
    (hf : s.tripFilt i = 0) (hi : i < 32) :
    s.tripInputEdge i lvl =
      ((s.setBit TRIP_RAW i lvl).setTrip i { s.trip i with since := none }).setTripActive i (lvl != (s.trip i).cfg.getLsbD 8) := by
  have hoff : ¬(s.padsOff = true) := by rw [hp]; exact Bool.false_ne_true
  have hpad : (s.setBit TRIP_RAW i lvl).tripPad i = (lvl != (s.trip i).cfg.getLsbD 8) := by
    rw [State.tripPad, State.bit_setBit_self _ _ _ _ hi, State.trip_setBit]
  rw [← hpad]
  exact (if_neg hraw).trans ((if_neg hoff).trans (if_pos hf))

/-- A filtered input, or one without power, only shows the edge in TRIP_RAW. -/
theorem State.tripInputEdge_waits {s : State} {i : Nat} {lvl : Bool} (hraw : s.bit TRIP_RAW i ≠ lvl)
    (h : s.padsOff = true ∨ s.tripFilt i ≠ 0) : s.tripInputEdge i lvl = s.setBit TRIP_RAW i lvl := by
  refine (if_neg hraw).trans ?_
  by_cases hp : s.padsOff = true
  · exact if_pos hp
  · exact (if_neg hp).trans (if_neg (h.resolve_left hp))

/-- The sample of a filtered input: the level is back, is new, or holds. -/
theorem State.tripSample_filtered {s : State} {i : Nat} (hf : s.tripFilt i ≠ 0) :
    s.tripSample i =
      if (s.bit TRIP_RAW i != (s.trip i).cfg.getLsbD 8) = s.bit TRIP_ACTIVE i then s.setTrip i { s.trip i with since := none }
      else if (s.trip i).since = none then s.setTrip i { s.trip i with since := some s.mt } else s := by
  refine (if_neg hf).trans (if_congr Iff.rfl rfl ?_)
  cases (s.trip i).since <;> rfl

theorem State.tripFilterQualify_due {s : State} {i : Nat} {u : Tick} (hu : (s.trip i).since = some u)
    (hr : s.reached (u + BitVec.ofNat 64 (s.tripFilt i)) = true) :
    s.tripFilterQualify i = (s.setTrip i { s.trip i with since := none }).setTripActive i (!s.bit TRIP_ACTIVE i) := by
  rw [State.tripFilterQualify, hu]
  exact if_pos hr

theorem exec_tripCfgWrite {s : State} {i : Fin 32} {v : Word} (ha : s.accepts (TRIP_CFG i) v) :
    exec (.tripCfgWrite i v) s = .next ((s.noteHost (TRIP_CFG i)).tripCfgWrite i v) :=
  congrArg Host.Outcome.next (s.hostWrite_accepts _ ha)

/-! ### What leaves a mitten as it is -/

/-- The addresses from MIT_CTRL to MIT_TAKE_HI of mitten `m`. -/
def mitBlock (m a : Nat) : Prop := MIT_CTRL m ≤ a ∧ a < MIT_CTRL (m + 1)

/-- `t` stands in the tick of `s` and in its power state, with mitten `m`, its registers and TRIP_ACTIVE as they were; INTERLOCK_HELD of its
MIT_STATUS may differ. -/
structure KeepsMitten (m : Nat) (s t : State) : Prop where
  mt : t.mt = s.mt
  power : t.power = s.power
  mitten : t.mitten m = s.mitten m
  active : t.reg TRIP_ACTIVE = s.reg TRIP_ACTIVE
  regs : ∀ a, mitBlock m a ∧ a ≠ MIT_STATUS m → t.reg a = s.reg a
  status : ∀ i, i ≠ 4 → t.bit (MIT_STATUS m) i = s.bit (MIT_STATUS m) i

namespace KeepsMitten

variable {m n : Nat} {r s t : State}

/-- An update of other fields. -/
theorem of_eq (hmt : t.mt = s.mt) (hp : t.power = s.power) (hm : t.mitten m = s.mitten m) (hr : t.regs = s.regs) : KeepsMitten m s t where
  mt := hmt
  power := hp
  mitten := hm
  active := by rw [State.reg, hr, State.reg]
  regs a _ := by rw [State.reg, hr, State.reg]
  status i _ := by rw [State.bit, State.reg, hr, State.bit, State.reg]

theorem refl (s : State) : KeepsMitten m s s := of_eq rfl rfl rfl rfl

theorem trans (h : KeepsMitten m r s) (h' : KeepsMitten m s t) : KeepsMitten m r t where
  mt := h'.mt.trans h.mt
  power := h'.power.trans h.power
  mitten := h'.mitten.trans h.mitten
  active := h'.active.trans h.active
  regs a ha := (h'.regs a ha).trans (h.regs a ha)
  status i hi := (h'.status i hi).trans (h.status i hi)

theorem ite {c : Prop} [Decidable c] (h : KeepsMitten m r s) (h' : KeepsMitten m r t) : KeepsMitten m r (if c then s else t) := by
  split <;> assumption

theorem foldl {α : Type} {f : State → α → State} (l : List α) (hf : ∀ s, ∀ x ∈ l, KeepsMitten m s (f s x)) (s : State) :
    KeepsMitten m s (l.foldl f s) := by
  induction l generalizing s with
  | nil => exact refl s
  | cons x l ih => exact (hf s x List.mem_cons_self).trans (ih (fun s y hy => hf s y (List.mem_cons_of_mem x hy)) _)

/-- A register of another mitten is written. -/
theorem setReg_other (s : State) {a : Nat} (v : Word) (ha : mitBlock n a) (hn : n ≠ m) : KeepsMitten m s (s.setReg a v) := by
  have hblock : ∀ b, mitBlock m b → b ≠ a := by unfold mitBlock MIT_CTRL at *; omega
  have hactive : TRIP_ACTIVE ≠ a := by unfold mitBlock MIT_CTRL at ha; unfold TRIP_ACTIVE; omega
  refine ⟨rfl, rfl, rfl, s.reg_setReg_ne v hactive, fun b hb => s.reg_setReg_ne v (hblock b hb.1), fun i _ => ?_⟩
  rw [State.bit, s.reg_setReg_ne v (hblock _ (by unfold mitBlock MIT_STATUS MIT_CTRL; omega)), State.bit]

/-- INTERLOCK_HELD of any mitten is set. -/
theorem raise_interlockHeld (s : State) (n : Nat) : KeepsMitten m s (s.raise (MIT_STATUS n) 4) := by
  have hactive : TRIP_ACTIVE ≠ MIT_STATUS n := by unfold TRIP_ACTIVE MIT_STATUS; omega
  have hblock : ∀ a, mitBlock m a ∧ a ≠ MIT_STATUS m → a ≠ MIT_STATUS n := by unfold mitBlock MIT_STATUS MIT_CTRL; omega
  refine ⟨rfl, rfl, rfl, s.reg_setReg_ne _ hactive, fun a ha => s.reg_setReg_ne _ (hblock a ha), fun i hi => ?_⟩
  by_cases hmn : MIT_STATUS m = MIT_STATUS n
  · rw [hmn]
    exact s.bit_setBit_ne _ true hi
  · exact s.bit_raise_other 4 i hmn

theorem setMitten_other (s : State) (c : Mitten) (hn : n ≠ m) : KeepsMitten m s (s.setMitten n c) :=
  of_eq rfl rfl (s.mitten_setMitten_ne c hn.symm) rfl

theorem setPin (s : State) (p : Nat) (c : PinState) : KeepsMitten m s (s.setPin p c) := of_eq rfl rfl rfl rfl

theorem noteWear (s : State) (src idx : Nat) : KeepsMitten m s (s.noteWear src idx) := by
  refine foldl _ ?_ s
  exact fun _ _ _ => of_eq rfl rfl rfl rfl

theorem bit (h : KeepsMitten m s t) {a : Nat} (ha : mitBlock m a ∧ a ≠ MIT_STATUS m) (i : Nat) : t.bit a i = s.bit a i :=
  congrArg (bitOf · i) (h.regs a ha)

theorem forcing (h : KeepsMitten m s t) : t.forcing m = s.forcing m := h.status 0 (by decide)

theorem now (h : KeepsMitten m s t) : t.now = s.now := by rw [State.now, h.mt, State.now]

theorem cuffOpen (h : KeepsMitten m s t) : t.cuffOpen m = s.cuffOpen m := by
  rw [State.cuffOpen, h.mitten, h.mt, State.napping, h.power, State.cuffOpen, State.napping]

end KeepsMitten

theorem mitBlock_config (m : Nat) :
    (mitBlock m (MIT_MODE m) ∧ MIT_MODE m ≠ MIT_STATUS m) ∧ (mitBlock m (MIT_MASK m) ∧ MIT_MASK m ≠ MIT_STATUS m) := by
  unfold mitBlock MIT_MODE MIT_MASK MIT_STATUS MIT_CTRL; omega

/-- A trip input is as active for the mitten as it was. -/
theorem KeepsMitten.srcActive {m i : Nat} {s t : State} (h : KeepsMitten m s t) (hi : i < 32) : t.srcActive m i = s.srcActive m i := by
  have hactive : t.bit TRIP_ACTIVE i = s.bit TRIP_ACTIVE i := congrArg (bitOf · i) h.active
  rw [State.srcActive, State.srcActive, if_pos hi, if_pos hi, h.bit (mitBlock_config m).2, hactive]

/-! ### A refresh of the pads -/

theorem State.noteForce_keepsMitten (s : State) (m p : Nat) : KeepsMitten m s (s.noteForce p) := by
  unfold State.noteForce
  dsimp only
  split
  · exact .setPin s p _
  · exact .ite (.refl s) (.setPin s p _)

theorem State.passInterlock_keepsMitten (s : State) (m p : Nat) : KeepsMitten m s (s.passInterlock p) := by
  unfold State.passInterlock
  split
  · exact .ite (.setPin s p _) (.refl s)
  · exact .refl s

theorem State.settlePad_keepsMitten (s : State) (m : Nat) (st : Stamp) (p : Nat) : KeepsMitten m s (s.settlePad st p) := by
  have hpin (c d : PinState) : KeepsMitten m s ((s.setPin p c).setPin p d) := (KeepsMitten.setPin s p c).trans (.setPin _ p d)
  have hwear (b : Bool) (c d : PinState) : KeepsMitten m s
      (if b = true then (s.setPin p c).setPin p d else ((s.setPin p c).setPin p d).noteWear 2 p) :=
    .ite (hpin c d) ((hpin c d).trans (.noteWear _ 2 p))
  unfold State.settlePad
  cases s.action p with
  | none => exact hwear _ _ _
  | some a => exact .ite ((hwear _ _ _).trans (.raise_interlockHeld _ a.1)) (hwear _ _ _)

theorem State.refreshPins_keepsMitten (s : State) (m : Nat) (st : Stamp) : KeepsMitten m s (s.refreshPins st) := by
  have hforce := KeepsMitten.foldl s.livePins (fun s p _ => s.noteForce_keepsMitten m p) s
  have hpass := KeepsMitten.foldl s.livePins (fun s p _ => s.passInterlock_keepsMitten m p) (s.livePins.foldl State.noteForce s)
  exact (hforce.trans hpass).trans (.foldl _ (fun s p _ => s.settlePad_keepsMitten m st p) _)

/-! ### A take (R108, R111, R113) -/

/-- MIT_STATUS of mitten `m` once it has taken source `i`, but for what the pads add. -/
def State.takenWord (s : State) (m i : Nat) : Word :=
  setBits (putBit (putBit (s.reg (MIT_STATUS m)) 0 true) 1 (!s.bit (MIT_MODE m) 1 || s.bit (MIT_STATUS m) 1)) 13 8 i

/-- Mitten `m` once it has taken source `i`: no release is under way, and its cuff no longer blocks the source. -/
def State.takenMitten (s : State) (m i : Nat) : Mitten :=
  { s.mitten m with cleared := false, releaseAt := none, blocked := (s.mitten m).blocked.filter (fun b => b.1 ≠ i) }

/-- What a take writes of its mitten. -/
def State.takeRegs (s : State) (m i : Nat) : State :=
  (((s.setMitten m (s.takenMitten m i)).setReg (MIT_STATUS m) (s.takenWord m i)).setPair (MIT_TAKE_LO m) (MIT_TAKE_HI m) s.now).satCount
    (TAKE_CNT m)

/-- A take before the pads follow it. -/
def State.takeNoted (s : State) (m i : Nat) : State :=
  if !s.forcing m then (s.takeRegs m i).deliver (88 + m) none else s.takeRegs m i

theorem State.take_eq (s : State) (m i : Nat) : s.take m i = (s.takeNoted m i).refreshPins (s.takeNoted m i).now := rfl

/-- Beside mitten `m` and the events, a take writes MIT_STATUS, MIT_TAKE and TAKE_CNT. -/
theorem State.reg_takeNoted (s : State) (m i a : Nat) :
    (s.takeNoted m i).reg a =
      (((s.setReg (MIT_STATUS m) (s.takenWord m i)).setPair (MIT_TAKE_LO m) (MIT_TAKE_HI m) s.now).satCount (TAKE_CNT m)).reg a := by
  unfold State.takeNoted
  split <;> rfl

theorem State.status_takeNoted (s : State) (m i : Nat) : (s.takeNoted m i).reg (MIT_STATUS m) = s.takenWord m i := by
  have hne : MIT_STATUS m ≠ TAKE_CNT m ∧ MIT_STATUS m ≠ MIT_TAKE_LO m ∧ MIT_STATUS m ≠ MIT_TAKE_HI m := by
    unfold MIT_STATUS TAKE_CNT MIT_TAKE_LO MIT_TAKE_HI; omega
  rw [State.reg_takeNoted, State.reg_satCount_ne _ hne.1, State.reg_setPair_ne _ _ hne.2.1 hne.2.2, State.reg_setReg_self]

theorem State.stamp_takeNoted (s : State) (m i : Nat) : (s.takeNoted m i).pair (MIT_TAKE_LO m) (MIT_TAKE_HI m) = s.now := by
  have hne : MIT_TAKE_LO m ≠ TAKE_CNT m ∧ MIT_TAKE_HI m ≠ TAKE_CNT m ∧ MIT_TAKE_LO m ≠ MIT_TAKE_HI m := by
    unfold TAKE_CNT MIT_TAKE_LO MIT_TAKE_HI; omega
  rw [State.pair, State.reg_takeNoted, State.reg_takeNoted, State.reg_satCount_ne _ hne.1, State.reg_satCount_ne _ hne.2.1, ← State.pair,
    State.pair_setPair_self _ _ _ _ hne.2.2]

theorem State.active_takeNoted (s : State) (m i : Nat) : (s.takeNoted m i).reg TRIP_ACTIVE = s.reg TRIP_ACTIVE := by
  have hne : TRIP_ACTIVE ≠ TAKE_CNT m ∧ TRIP_ACTIVE ≠ MIT_TAKE_LO m ∧ TRIP_ACTIVE ≠ MIT_TAKE_HI m ∧ TRIP_ACTIVE ≠ MIT_STATUS m := by
    unfold TRIP_ACTIVE TAKE_CNT MIT_TAKE_LO MIT_TAKE_HI MIT_STATUS; omega
  obtain ⟨hcnt, hlo, hhi, hstatus⟩ := hne
  rw [State.reg_takeNoted, State.reg_satCount_ne _ hcnt, State.reg_setPair_ne _ _ hlo hhi, State.reg_setReg_ne _ _ hstatus]

/-- In `t` mitten `m` has taken source `i`, in the tick of `s`; TRIP_ACTIVE is as it was. -/
structure Taken (m i : Nat) (s t : State) : Prop where
  forces : t.forcing m = true
  latched : t.bit (MIT_STATUS m) 1 = (!s.bit (MIT_MODE m) 1 || s.bit (MIT_STATUS m) 1)
  source : t.fld (MIT_STATUS m) 13 8 = i
  stamp : t.pair (MIT_TAKE_LO m) (MIT_TAKE_HI m) = s.now
  active : t.reg TRIP_ACTIVE = s.reg TRIP_ACTIVE

theorem mitBlock_take (m : Nat) :
    (mitBlock m (MIT_TAKE_LO m) ∧ MIT_TAKE_LO m ≠ MIT_STATUS m) ∧ (mitBlock m (MIT_TAKE_HI m) ∧ MIT_TAKE_HI m ≠ MIT_STATUS m) := by
  unfold mitBlock MIT_TAKE_LO MIT_TAKE_HI MIT_STATUS MIT_CTRL; omega

/-- A field of MIT_STATUS above INTERLOCK_HELD. -/
theorem KeepsMitten.fld_status {m : Nat} {s t : State} (h : KeepsMitten m s t) {hi lo : Nat} (hlo : 4 < lo) :
    t.fld (MIT_STATUS m) hi lo = s.fld (MIT_STATUS m) hi lo := by
  refine Nat.eq_of_testBit_eq fun i => ?_
  rw [State.fld, State.fld, testBit_bitsOf, testBit_bitsOf]
  exact congrArg _ (h.status (lo + i) (by omega))

/-- What keeps the mitten keeps its take. -/
theorem Taken.of_keeps {m i : Nat} {r s t u : State} (h : KeepsMitten m r s) (ht : Taken m i s t) (h' : KeepsMitten m t u) :
    Taken m i r u where
  forces := h'.forcing.trans ht.forces
  latched := by
    rw [h'.status 1 (by decide), ht.latched, h.status 1 (by decide), h.bit (mitBlock_config m).1]
  source := (h'.fld_status (by decide)).trans ht.source
  stamp := by
    obtain ⟨hlo, hhi⟩ := mitBlock_take m
    rw [State.pair, h'.regs _ hlo, h'.regs _ hhi, ← State.pair, ht.stamp, h.now]
  active := h'.active.trans (ht.active.trans h.active)

theorem State.taken_takeNoted (s : State) (m : Nat) {i : Nat} (hi : i < 64) : Taken m i s (s.takeNoted m i) where
  forces := by
    rw [State.forcing, State.bit, s.status_takeNoted, State.takenWord, bitOf_setBits_ne _ _ _ _ _ (.inl (by decide)),
      bitOf_putBit_ne _ _ (by decide), bitOf_putBit_self _ _ _ (by decide)]
  latched := by
    rw [State.bit, s.status_takeNoted, State.takenWord, bitOf_setBits_ne _ _ _ _ _ (.inl (by decide)), bitOf_putBit_self _ _ _ (by decide)]
  source := by
    rw [State.fld, s.status_takeNoted, State.takenWord, bitsOf_setBits_self _ _ _ _ (by decide)]
    exact Nat.mod_eq_of_lt hi
  stamp := s.stamp_takeNoted m i
  active := s.active_takeNoted m i

theorem State.taken_take (s : State) (m : Nat) {i : Nat} (hi : i < 64) : Taken m i s (s.take m i) := by
  rw [State.take_eq]
  exact .of_keeps (.refl s) (s.taken_takeNoted m hi) (State.refreshPins_keepsMitten _ m _)

theorem State.takeRegs_keepsMitten (s : State) {m n : Nat} (i : Nat) (hn : n ≠ m) : KeepsMitten m s (s.takeRegs n i) := by
  have hstatus : mitBlock n (MIT_STATUS n) := by unfold mitBlock MIT_STATUS MIT_CTRL; omega
  have hcnt : mitBlock n (TAKE_CNT n) := by unfold mitBlock TAKE_CNT MIT_CTRL; omega
  obtain ⟨⟨hlo, -⟩, ⟨hhi, -⟩⟩ := mitBlock_take n
  have hpair (t : State) (v : BitVec 64) : KeepsMitten m t (t.setPair (MIT_TAKE_LO n) (MIT_TAKE_HI n) v) :=
    (KeepsMitten.setReg_other t _ hlo hn).trans (.setReg_other _ _ hhi hn)
  have hcount (t : State) : KeepsMitten m t (t.satCount (TAKE_CNT n)) :=
    (KeepsMitten.setReg_other t _ hcnt hn).trans (.of_eq rfl rfl rfl rfl)
  have hforce := (KeepsMitten.setMitten_other s (s.takenMitten n i) hn).trans (.setReg_other _ (s.takenWord n i) hstatus hn)
  exact (hforce.trans (hpair _ s.now)).trans (hcount _)

/-- A take leaves the other mittens. -/
theorem State.take_keepsMitten (s : State) {m n : Nat} (i : Nat) (hn : n ≠ m) : KeepsMitten m s (s.take n i) := by
  have hregs := s.takeRegs_keepsMitten i hn
  have hnoted : KeepsMitten m s (s.takeNoted n i) := .ite (hregs.trans (.of_eq rfl rfl rfl rfl)) hregs
  rw [State.take_eq]
  exact hnoted.trans (State.refreshPins_keepsMitten _ m _)

/-! ### A source that becomes active (R108) -/

/-- What mitten `m` does when source `i` becomes active. -/
def State.sourceMet (s : State) (i m : Nat) : State :=
  if s.bit (MIT_MODE m) 0 && s.srcActive m i then
    if i < 32 && s.cuffOpen m then s.setMitten m { s.mitten m with blocked := (s.mitten m).blocked ++ [(i, s.mt)] }
    else s.takeIfFree m i
  else s

theorem State.sourceOn_eq (s : State) (i : Nat) : s.sourceOn i = foldBelow 32 (fun s m => s.sourceMet i m) s := rfl

theorem State.sourceMet_keepsMitten (s : State) (i : Nat) {m n : Nat} (hn : n ≠ m) : KeepsMitten m s (s.sourceMet i n) :=
  .ite (.ite (.setMitten_other s _ hn) (.ite (s.take_keepsMitten i hn) (.refl s))) (.refl s)

/-- An enabled mitten that selects the source, with no open cuff and no force, takes it. -/
theorem State.sourceMet_takes {s : State} {i m : Nat} (hen : s.bit (MIT_MODE m) 0 = true) (hsrc : s.srcActive m i = true)
    (hcuff : s.cuffOpen m = false) (hfree : s.forcing m = false) : s.sourceMet i m = s.take m i := by
  have hmay : s.mayTake m = true := by rw [State.mayTake, hfree]; rfl
  have hselected : (s.bit (MIT_MODE m) 0 && s.srcActive m i) = true := by rw [hen, hsrc]; rfl
  have hopen : ¬((decide (i < 32) && s.cuffOpen m) = true) := by rw [hcuff, Bool.and_false]; exact Bool.false_ne_true
  exact (if_pos hselected).trans ((if_neg hopen).trans (if_pos hmay))

/-- A fold over the mittens reaches mitten `m` as it was, and leaves it as its own step does. -/
theorem foldBelow_at_mitten {f : State → Nat → State} {m N : Nat} (hf : ∀ s n, n ≠ m → KeepsMitten m s (f s n)) (hm : m < N) (s : State) :
    ∃ u, KeepsMitten m s u ∧ KeepsMitten m (f u m) (foldBelow N f s) := by
  obtain ⟨before, after, hrange⟩ := List.append_of_mem (List.mem_range.2 hm)
  have hnodup : (before ++ m :: after).Nodup := hrange ▸ List.nodup_range
  obtain ⟨-, hcons, hdisjoint⟩ := List.nodup_append.1 hnodup
  have hbefore : ∀ s, ∀ n ∈ before, KeepsMitten m s (f s n) := fun s n hn => hf s n (hdisjoint n hn m List.mem_cons_self)
  have hafter : ∀ s, ∀ n ∈ after, KeepsMitten m s (f s n) := fun s n hn => hf s n (fun e => (List.nodup_cons.1 hcons).1 (e ▸ hn))
  refine ⟨before.foldl f s, .foldl _ hbefore s, ?_⟩
  rw [foldBelow, hrange, List.foldl_append, List.foldl_cons]
  exact .foldl _ hafter _

/-- A trip input that becomes active is taken by each enabled, selecting mitten with no open cuff that does not force. -/
theorem State.sourceOn_taken {s : State} {i m : Nat} (hi : i < 32) (hm : m < 32) (hen : s.bit (MIT_MODE m) 0 = true)
    (hsrc : s.srcActive m i = true) (hcuff : s.cuffOpen m = false) (hfree : s.forcing m = false) : Taken m i s (s.sourceOn i) := by
  obtain ⟨u, hu, hrest⟩ := foldBelow_at_mitten (fun s n hn => s.sourceMet_keepsMitten i hn) hm s
  have htakes : u.sourceMet i m = u.take m i := State.sourceMet_takes ((hu.bit (mitBlock_config m).1 0).trans hen)
    ((hu.srcActive hi).trans hsrc) (hu.cuffOpen.trans hcuff) (hu.forcing.trans hfree)
  rw [htakes] at hrest
  exact .of_keeps hu (u.taken_take m (by omega)) hrest

/-- Source `i` with its level just taken as active: TRIP_RAW and TRIP_ACTIVE show it, and the filter is at rest. -/
def State.tripShown (s : State) (i : Nat) : State :=
  ((s.setBit TRIP_RAW i true).setTrip i { s.trip i with since := none }).setBit TRIP_ACTIVE i true

theorem State.bit_tripShown (s : State) (i : Nat) {a : Nat} (j : Nat) (ha : 0x50400 ≤ a) : (s.tripShown i).bit a j = s.bit a j := by
  have hne : a ≠ TRIP_ACTIVE ∧ a ≠ TRIP_RAW := by unfold TRIP_ACTIVE TRIP_RAW; omega
  rw [State.bit, State.tripShown, State.reg_setBit_ne _ _ _ hne.1, State.reg_setTrip, State.reg_setBit_ne _ _ _ hne.2, State.bit]

theorem State.active_tripShown (s : State) {i : Nat} (hi : i < 32) : (s.tripShown i).bit TRIP_ACTIVE i = true :=
  State.bit_setBit_self _ _ _ _ hi

/-- An unfiltered input that rises, active high, is on. -/
theorem State.tripInputEdge_rises {s : State} {i : Nat} (hp : s.padsOff = false) (hraw : s.bit TRIP_RAW i = false) (hf : s.tripFilt i = 0)
    (hpol : (s.trip i).cfg.getLsbD 8 = false) (hoff : s.bit TRIP_ACTIVE i = false) (hi : i < 32) :
    s.tripInputEdge i true = (s.tripShown i).sourceOn i := by
  have hlow : ¬(s.bit TRIP_ACTIVE i = true) := by rw [hoff]; exact Bool.false_ne_true
  have hshown : ((s.setBit TRIP_RAW i true).setTrip i { s.trip i with since := none }).bit TRIP_ACTIVE i = s.bit TRIP_ACTIVE i := by
    rw [State.bit, State.reg_setTrip, State.reg_setBit_ne _ _ _ (by decide), State.bit]
  rw [State.tripInputEdge_follows hp (by rw [hraw]; exact Bool.false_ne_true) hf hi, hpol]
  exact if_neg (by rw [hshown]; exact hlow)

end Sys2Proof.Machine

namespace Sys2Proof.Proofs

open Sys2Proof.Machine Sys2Proof.Machine.Reg

/-- An unfiltered input that rises is taken. -/
theorem tripInputEdge_taken (i : Fin 32) (s : State) (m : Nat) (hm : m < 32) (hp : s.padsOff = false) (hraw : s.bit TRIP_RAW i = false)
    (hf : s.tripFilt i = 0) (hpol : (s.trip i).cfg.getLsbD 8 = false) (hoff : s.bit TRIP_ACTIVE i = false)
    (hen : s.bit (MIT_MODE m) 0 = true) (hsel : s.bit (MIT_MASK m) i = true) (hcuff : s.cuffOpen m = false) (hfree : s.forcing m = false) :
    ∃ t, exec (.tripInputEdge i true) s = .next t ∧ t.bit TRIP_ACTIVE i = true ∧ t.forcing m = true ∧
      t.bit (MIT_STATUS m) 1 = (!s.bit (MIT_MODE m) 1 || s.bit (MIT_STATUS m) 1) ∧ t.fld (MIT_STATUS m) 13 8 = i ∧
      t.pair (MIT_TAKE_LO m) (MIT_TAKE_HI m) = s.now := by
  have hmode (j : Nat) : (s.tripShown i).bit (MIT_MODE m) j = s.bit (MIT_MODE m) j := s.bit_tripShown i j (by unfold MIT_MODE; omega)
  have hmask : (s.tripShown i).bit (MIT_MASK m) i = s.bit (MIT_MASK m) i := s.bit_tripShown i i (by unfold MIT_MASK; omega)
  have hstatus (j : Nat) : (s.tripShown i).bit (MIT_STATUS m) j = s.bit (MIT_STATUS m) j :=
    s.bit_tripShown i j (by unfold MIT_STATUS; omega)
  have hsrc : (s.tripShown i).srcActive m i = true := by
    rw [State.srcActive, if_pos i.isLt, hmask, hsel, s.active_tripShown i.isLt]
    rfl
  have htaken : Taken m i (s.tripShown i) ((s.tripShown i).sourceOn i) :=
    State.sourceOn_taken i.isLt hm ((hmode 0).trans hen) hsrc hcuff ((hstatus 0).trans hfree)
  refine ⟨_, congrArg Host.Outcome.next (State.tripInputEdge_rises hp hraw hf hpol hoff i.isLt), ?_, htaken.forces, ?_,
    htaken.source, htaken.stamp⟩
  · rw [State.bit, htaken.active, ← State.bit, s.active_tripShown i.isLt]
  · rw [htaken.latched, hmode, hstatus]

/-- Settles O21: an edge without and with a filter, the sample, the filter's end, the take, and the write of TRIP_CFG. -/
theorem tripsAreTakenByTheirMittens : Obligations.TripsAreTakenByTheirMittens := by
  refine ⟨fun i lvl s hp hraw hf => ?_, fun i lvl s hraw h => ?_, fun i s hf => s.tripSample_filtered hf, fun i s u hu hr => ?_,
    tripInputEdge_taken, fun i v s ha => ?_⟩
  · exact congrArg Host.Outcome.next (State.tripInputEdge_follows hp hraw hf i.isLt)
  · exact congrArg Host.Outcome.next (State.tripInputEdge_waits hraw h)
  · exact congrArg Host.Outcome.next (State.tripFilterQualify_due hu hr)
  · rw [exec_tripCfgWrite ha, State.tripCfgWrite, State.reg_noteHost, State.trip_noteHost, State.noteHost_mt]

end Sys2Proof.Proofs
end

section
/-!
PROOFS. Cuffs, release, interlock, clears and configuration of the mittens (R108, R112, R113, R115, R117, R119), then the statement about them.
-/

namespace Sys2Proof.Machine

open Reg

/-! ### Cuffs (R108) -/

/-- A cuff that is no longer open gives up what it blocks. -/
theorem State.cuffClose_closed {s : State} {m : Nat} (hcuff : s.cuffOpen m = false) (hb : (s.mitten m).blocked ≠ []) :
    s.cuffClose m =
      (s.setMitten m { s.mitten m with blocked := [] }).takeIfFree m (((s.mitten m).blocked.map Prod.fst).foldl min 32) := by
  refine if_neg ?_
  rw [hcuff, Bool.false_or, List.isEmpty_iff]
  exact hb

/-- A source blocked for longer than its cuff can last is taken. -/
theorem State.cuffOverride_due {s : State} {m i : Nat} {u : Tick} (hb : (s.mitten m).blocked = [(i, u)])
    (hr : s.reached (u + BitVec.ofNat 64 (s.fld (MIT_CUFF m) 15 0 + 1)) = true) :
    s.cuffOverride m =
      let t := s.setMitten m { s.mitten m with blocked := [] }
      if s.mayTake m = true then (t.raise (MIT_STATUS m) 3).take m i else t := by
  have hfind : [(i, u)].find? (fun b => s.reached (b.2 + BitVec.ofNat 64 (s.fld (MIT_CUFF m) 15 0 + 1))) = some (i, u) :=
    List.find?_cons_of_pos hr
  have hrest : [(i, u)].filter (fun b => b.1 ≠ i) = [] := by simp
  have hmay : (s.setMitten m { s.mitten m with blocked := [] }).mayTake m = s.mayTake m := by
    rw [State.mayTake, State.mitten_setMitten_self, State.mayTake]
    rfl
  simp only [State.cuffOverride, hb, hfind, hrest, hmay]

/-! ### Release (R112, R113) -/

/-- Mitten `m` at its release, before the pads follow it. -/
def State.released (s : State) (m : Nat) : State :=
  (s.setMitten m { s.mitten m with cleared := false, releaseAt := none }).setBit (MIT_STATUS m) 0 false

theorem State.mittenRelease_due {s : State} {m : Nat} (h : s.releaseDue m = true) :
    s.mittenRelease m = (s.released m).refreshPins (s.released m).now := if_pos h

theorem State.forcing_released (s : State) (m : Nat) : (s.released m).forcing m = false := State.bit_setBit_self _ _ _ _ (by decide)

theorem State.mitten_released (s : State) (m : Nat) : (s.released m).mitten m = { s.mitten m with cleared := false, releaseAt := none } := by
  rw [State.released, State.mitten_setBit, State.mitten_setMitten_self]

/-- A release leaves the other mittens. -/
theorem State.released_keepsMitten (s : State) {m n : Nat} (hn : n ≠ m) : KeepsMitten m s (s.released n) :=
  (KeepsMitten.setMitten_other s _ hn).trans (.setReg_other _ _ (by unfold mitBlock MIT_STATUS MIT_CTRL; omega) hn)

/-! ### The interlock (R115) -/

theorem State.interlockApply_opens {s : State} {p m : Nat} (ha : s.action p = some (m, 1)) (ho : s.interlockOpen p = true)
    (hh : (s.pin p).highApplied = false) :
    s.interlockApply p = (s.setPin p { s.pin p with highApplied := true }).refreshPins s.now := by
  have hgo : (s.interlockOpen p && !(s.pin p).highApplied) = true := by rw [ho, hh]; rfl
  rw [State.interlockApply, ha]
  exact if_pos hgo

/-! ### Clear requests (R117) -/

/-- The outcome of a direct clear request. -/
theorem State.clearResult_direct (s : State) (m : Nat) :
    s.clearResult m false =
      if s.bit (MIT_STATUS m) 1 = false then 3 else if s.bit (MIT_MODE m) 2 = true then 2 else if s.anyActive m = true then 1 else 0 := by
  rw [State.clearResult, Bool.not_false, Bool.and_true]
  simp only [Bool.not_eq_true']

theorem exec_mitClr {s : State} {m : Fin 32} {v : Word} (ha : s.accepts (MIT_CLR m) v) (hv : v.getLsbD 0 = true) :
    exec (.mitClr m v) s = .next ((s.noteHost (MIT_CLR m)).clearMitten m false) :=
  congrArg Host.Outcome.next ((s.hostWrite_accepts _ ha).trans (if_pos hv))

/-! ### Configuration (R108, R119) -/

theorem exec_mitCfgWrite {s : State} {a : Nat} {v : Word} (ha : s.accepts a v) :
    exec (.mitCfgWrite a v) s = .next ((s.noteHost a).mitCfgWrite a v) := congrArg Host.Outcome.next (s.hostWrite_accepts _ ha)

/-- A mitten that forces or latches refuses its configuration. -/
theorem State.mitCfgWrite_refused {s : State} {a m : Nat} {v mask : Word} (hreg : mitCfgReg a = some (m, mask))
    (h : s.fld (MIT_STATUS m) 1 0 ≠ 0) : s.mitCfgWrite a v = s.raise (MIT_STATUS m) 5 := by
  rw [State.mitCfgWrite, hreg]
  exact if_pos h

theorem State.reg_satAdd_ne (s : State) {a b : Nat} (n : Nat) (h : b ≠ a) : (s.satAdd a n).reg b = s.reg b :=
  s.satAdd_same a n (·.reg b) fun s => s.reg_satCount_ne h

/-- Dropping what the cuff blocked changes no source of the mitten. -/
theorem State.srcActive_dropBlocked (s : State) (m i : Nat) : (s.dropBlocked m).srcActive m i = s.srcActive m i := by
  have hbit {a : Nat} (j : Nat) (ha : a ≠ BLANK_CNT m) : (s.dropBlocked m).bit a j = s.bit a j :=
    congrArg (bitOf · j) (State.reg_satAdd_ne _ _ ha)
  have hhg : (s.dropBlocked m).hg = s.hg := State.satAdd_hg _ _ _
  rw [State.srcActive, State.srcActive, hhg, hbit i (by unfold MIT_MASK BLANK_CNT; omega), hbit i (by unfold TRIP_ACTIVE BLANK_CNT; omega),
    hbit 3 (by unfold MIT_MODE BLANK_CNT; omega)]

/-- A mitten with no active source can take none. -/
theorem State.takeable_nil {s : State} {m : Nat} (h : ∀ i < 33, s.srcActive m i = false) : s.takeable m = [] := by
  have hnone : (List.range 33).filter (fun i => s.srcActive m i) = [] := by
    refine List.filter_eq_nil_iff.2 fun i hi => ?_
    rw [h i (List.mem_range.1 hi)]
    exact Bool.false_ne_true
  rw [State.takeable, hnone, ite_self]

/-- An accepted write with no active source behind it takes nothing. -/
theorem State.mitCfgWrite_idle {s : State} {a m : Nat} {v mask : Word} (hreg : mitCfgReg a = some (m, mask))
    (h : s.fld (MIT_STATUS m) 1 0 = 0) (hidle : ∀ i < 33, (s.setReg a (mergeWord (s.reg a) v mask)).srcActive m i = false) :
    s.mitCfgWrite a v = (s.setReg a (mergeWord (s.reg a) v mask)).dropBlocked m := by
  have hnone : ((s.setReg a (mergeWord (s.reg a) v mask)).dropBlocked m).takeable m = [] :=
    State.takeable_nil fun i hi => (State.srcActive_dropBlocked _ m i).trans (hidle i hi)
  rw [State.mitCfgWrite, hreg]
  refine (if_neg (not_not.2 h)).trans ?_
  dsimp only
  rw [hnone, List.filter_nil]

end Sys2Proof.Machine

namespace Sys2Proof.Proofs

open Sys2Proof.Machine Sys2Proof.Machine.Reg

/-- A due release. -/
theorem mittenRelease_ends (m : Fin 32) (s : State) (h : s.releaseDue m = true) :
    ∃ t, exec (.mittenRelease m) s = .next t ∧ t.forcing m = false ∧ (t.mitten m).cleared = false ∧ (t.mitten m).releaseAt = none ∧
      (∀ n : Nat, n < 32 → n ≠ m → t.forcing n = s.forcing n) := by
  have hpads (n : Nat) := State.refreshPins_keepsMitten (s.released m) n (s.released m).now
  refine ⟨_, congrArg Host.Outcome.next (State.mittenRelease_due h), (hpads m).forcing.trans (s.forcing_released m), ?_, ?_, fun n _ hn => ?_⟩
  · rw [(hpads m).mitten, s.mitten_released]
  · rw [(hpads m).mitten, s.mitten_released]
  · exact ((s.released_keepsMitten hn.symm).trans (hpads n)).forcing

/-- Settles O22: the end of a cuff and its bound, a release, the interlock, a clear request, and a configuration write refused and taken. -/
theorem mittensBlankReleaseAndClear : Obligations.MittensBlankReleaseAndClear := by
  refine ⟨⟨fun m s hcuff hb => ?_, fun m s i u hb hr => ?_, mittenRelease_ends, fun p s m ha ho hh => ?_⟩,
    fun m v s ha hv => ?_, fun a v s m mask ha hreg h => ?_, fun a v s m mask ha hreg h hidle => ?_⟩
  · exact congrArg Host.Outcome.next (State.cuffClose_closed hcuff hb)
  · exact congrArg Host.Outcome.next (State.cuffOverride_due hb hr)
  · exact congrArg Host.Outcome.next (State.interlockApply_opens ha ho hh)
  · rw [exec_mitClr ha hv, ← State.clearResult_direct]
    rfl
  · rw [exec_mitCfgWrite ha, State.mitCfgWrite_refused (s := s.noteHost a) hreg h]
  · rw [exec_mitCfgWrite ha, State.mitCfgWrite_idle (s := s.noteHost a) hreg h hidle, State.reg_noteHost]

end Sys2Proof.Proofs
end

section
/-!
PROOFS. The teeth of a shaft (R127 to R135, R140, R141, R145): what the operations of a shaft leave of its last tooth and of the teeth that
wait, how a tooth becomes the last one, then the statements about candidates, missing teeth, stalls and virtual teeth.
-/

namespace Sys2Proof.Machine

open Reg

/-! ### What changes nothing about a shaft's teeth -/

/-- The registers of shaft 0 that only a tooth changes: LAST_TOOTH and SYNTH_CNT (R134, R149). -/
def toothRegs : List Nat := [0x900c0, 0x900c4, 0x90108]

/-- `t` has the last tooth of shaft `h` in `s`, its candidates and crossings, and its registers that only a tooth changes. -/
structure KeepsTooth (h : Nat) (s t : State) : Prop where
  lastTooth : (t.shaft h).lastTooth = (s.shaft h).lastTooth
  cands : (t.shaft h).cands = (s.shaft h).cands
  crossings : (t.shaft h).crossings = (s.shaft h).crossings
  regs : ∀ b ∈ toothRegs, t.reg (b + h * 0x1000) = s.reg (b + h * 0x1000)

namespace KeepsTooth

variable {h : Nat}

theorem refl (s : State) : KeepsTooth h s s := ⟨rfl, rfl, rfl, fun _ _ => rfl⟩

theorem trans {s t u : State} (h1 : KeepsTooth h s t) (h2 : KeepsTooth h t u) : KeepsTooth h s u :=
  ⟨h2.lastTooth.trans h1.lastTooth, h2.cands.trans h1.cands, h2.crossings.trans h1.crossings,
    fun b hb => (h2.regs b hb).trans (h1.regs b hb)⟩

theorem ite {c : Prop} [Decidable c] {s a b : State} (h1 : KeepsTooth h s a) (h2 : KeepsTooth h s b) :
    KeepsTooth h s (if c then a else b) := by
  split <;> assumption

theorem of_keepsShafts {h : Fin 16} {s t : State} (hk : KeepsShafts s t) : KeepsTooth h s t := by
  refine ⟨by rw [hk.shaft], by rw [hk.shaft], by rw [hk.shaft], fun b hb => hk.regs _ ?_ ?_⟩ <;>
    · simp only [toothRegs, List.mem_cons, List.not_mem_nil, or_false] at hb
      omega

theorem setReg (s : State) {b : Nat} (v : Word) (hb : b ∉ toothRegs) : KeepsTooth h s (s.setReg (b + h * 0x1000) v) :=
  ⟨rfl, rfl, rfl, fun _ hb' => State.reg_setReg_ne _ _ (shaftReg_ne (ne_of_mem_of_not_mem hb' hb) h)⟩

theorem noteHw (s : State) (a i : Nat) (fresh : Bool) : KeepsTooth h s (s.noteHw a i fresh) := ⟨rfl, rfl, rfl, fun _ _ => rfl⟩

theorem satCount (s : State) {b : Nat} (hb : b ∉ toothRegs) : KeepsTooth h s (s.satCount (b + h * 0x1000)) :=
  (setReg s _ hb).trans (noteHw _ _ _ _)

/-- A new record of the shaft that has the teeth of the old one. -/
theorem setShaft (s : State) {c : Shaft} (hl : c.lastTooth = (s.shaft h).lastTooth := by rfl)
    (hc : c.cands = (s.shaft h).cands := by rfl) (hx : c.crossings = (s.shaft h).crossings := by rfl) :
    KeepsTooth h s (s.setShaft h c) := by
  refine ⟨?_, ?_, ?_, fun _ _ => rfl⟩ <;> rwa [State.shaft_setShaft_self]

theorem noteSat (s : State) (v : Bool) : KeepsTooth h s (s.noteSat h v) :=
  ite ((setReg s (b := 0x90004) _ (by decide)).trans (noteHw _ _ _ _)) (refl s)

theorem reportEstimate (s : State) : KeepsTooth h s (s.reportEstimate h) :=
  (setReg s (b := 0x90004) _ (by decide)).trans (setReg _ (b := 0x900c8) _ (by decide))

theorem holdAt (s : State) (pos : BitVec 64) : KeepsTooth h s (s.holdAt h pos) :=
  (setShaft s).trans (reportEstimate _)

theorem noteHistory (s : State) (st : Stamp) (base : Tick) (synth gap : Bool) : KeepsTooth h s (s.noteHistory h st base synth gap) := by
  unfold State.noteHistory
  dsimp only
  split
  · exact (setShaft s).trans (setReg _ (b := 0x900cc) _ (by decide))
  · exact refl s

theorem noteStamp (s : State) (st : Stamp) : KeepsTooth h s (s.noteStamp h st) := setShaft s

theorem newEstimate (s : State) (st : Stamp) (u : Tick) : KeepsTooth h s (s.newEstimate h st u) :=
  (setShaft s).trans (noteSat _ _)

end KeepsTooth

/-! ### A shaft's events (R140, R151, R165, R169) -/

theorem State.shaftEvent_keepsShafts (s : State) (h e : Nat) : KeepsShafts s (s.shaftEvent h e) :=
  keepsShafts_ite (.of_eq rfl rfl) (.refl s)

theorem State.weirShaftLost_keepsShafts (s : State) (h : Nat) (stopped : Bool) : KeepsShafts s (s.weirShaftLost h stopped) := by
  unfold State.weirShaftLost
  exact (s.mapEvents_keepsShafts _).trans (State.abortEvents_keepsShafts _ h _)

theorem State.weirShaftStall_keepsShafts (s : State) (h : Nat) : KeepsShafts s (s.weirShaftStall h) :=
  (s.refreeze_keepsShafts h).trans (State.abortEvents_keepsShafts _ h _)

theorem State.swapShaftLost_keepsShafts (s : State) (h : Nat) : KeepsShafts s (s.swapShaftLost h) :=
  keepsShafts_ite (s.swapEnd_keepsShafts 4) (.refl s)

theorem KeepsTooth.jump {h : Fin 16} (s : State) (j : BitVec 64) (cause : Nat) : KeepsTooth h s (s.jump h j cause) := by
  have hlo := KeepsTooth.setReg (h := h) s (b := 0x900d0) (loWord j) (by decide)
  have hhi := hlo.trans (.setReg _ (b := 0x900d4) (hiWord j) (by decide))
  refine .trans ?_ (.of_keepsShafts (State.shaftEvent_keepsShafts _ _ _))
  exact (hhi.trans (.setReg _ (b := 0x900d8) _ (by decide))).trans (.setShaft _)

/-! ### Changes of state (R129, R142) -/

/-- The position holds when the shaft leaves SYNCED and DEGRADED for state `st`. -/
def State.leftSync (s : State) (h st : Nat) : State :=
  if s.shSync h && !(st == 3 || st == 4) then (s.setBit (SH_STATUS h) 7 false).hold h else s

/-- SH_STATUS and LOST_CNT show state `st`, in which the cycle may be known. -/
def State.showState (s : State) (h st : Nat) : State :=
  let s := s.setFld (SH_STATUS h) 2 0 st
  let s := if st = 0 || st = 1 || st = 5 then s.setBit (SH_STATUS h) 5 false else s
  let s := if (st == 3 || st == 4) && s.shCycleRevs h == 1 then s.setBit (SH_STATUS h) 7 true else s
  if st = 5 then (s.satCount (LOST_CNT h)).shaftEvent h 2 else s

/-- What the entry into state `st` tells the events and the swap on the shaft, which was in sync or was not. -/
def State.tellState (s : State) (h st : Nat) (wasSync : Bool) : State :=
  if st = 3 then s.shaftEvent h 0
  else if st = 4 then s.shaftEvent h 1
  else if wasSync && !(st == 3 || st == 4) then
    ((s.setShaft h { s.shaft h with dirTooth := false, afterStall := false }).weirShaftLost h (st == 0)).swapShaftLost h
  else s

theorem State.enterState_eq (s : State) (h st : Nat) :
    s.enterState h st = if st = s.shState h then s else ((s.leftSync h st).showState h st).tellState h st (s.shSync h) := rfl

theorem KeepsTooth.showState {h : Fin 16} (s : State) (st : Nat) : KeepsTooth h s (s.showState h st) := by
  have hbit (t : State) (i : Nat) (v : Bool) : KeepsTooth h t (t.setBit (SH_STATUS h) i v) := .setReg t (b := 0x90004) _ (by decide)
  have hlost (t : State) : KeepsTooth h t ((t.satCount (LOST_CNT h)).shaftEvent h 2) :=
    (KeepsTooth.satCount t (b := 0x90118) (by decide)).trans (.of_keepsShafts (State.shaftEvent_keepsShafts _ _ _))
  have hite {c : Prop} [Decidable c] {t u : State} (hu : KeepsTooth h t u) : KeepsTooth h t (if c then u else t) := .ite hu (.refl t)
  exact ((((KeepsTooth.setReg s (b := 0x90004) _ (by decide)).trans (hite (hbit _ 5 false))).trans (hite (hbit _ 7 true))).trans
    (hite (hlost _)))

theorem KeepsTooth.enterState {h : Fin 16} (s : State) (st : Nat) : KeepsTooth h s (s.enterState h st) := by
  have hleft : KeepsTooth h s (s.leftSync h st) :=
    .ite ((KeepsTooth.setReg s (b := 0x90004) _ (by decide)).trans (.holdAt _ _)) (.refl s)
  have htell (t : State) (b : Bool) : KeepsTooth h t (t.tellState h st b) := by
    refine .ite (.of_keepsShafts (t.shaftEvent_keepsShafts _ _)) (.ite (.of_keepsShafts (t.shaftEvent_keepsShafts _ _)) (.ite ?_ (.refl t)))
    exact (KeepsTooth.setShaft t).trans
      (.of_keepsShafts ((State.weirShaftLost_keepsShafts _ _ _).trans (State.swapShaftLost_keepsShafts _ _)))
  rw [s.enterState_eq]
  exact .ite (.refl s) ((hleft.trans (.showState _ st)).trans (htell _ _))

theorem KeepsShafts.shState {s t : State} (hk : KeepsShafts s t) (h : Fin 16) : t.shState h = s.shState h := by
  rw [State.shState, State.fld, hk.status h, State.shState, State.fld]

/-- A shaft in LOST has its state in SH_STATUS. -/
theorem State.shState_showState_lost (s : State) (h : Fin 16) : (s.showState h 5).shState h = 5 := by
  have hcnt : SH_STATUS h ≠ LOST_CNT h := shaftReg_ne (by decide) h
  have hfld : ((s.setFld (SH_STATUS h) 2 0 5).setBit (SH_STATUS h) 5 false).fld (SH_STATUS h) 2 0 = 5 := by
    rw [State.fld, State.setBit, State.reg_setReg_self, bitsOf_putBit_ne _ _ _ _ _ (by decide)]
    exact State.fld_setFld_self s _ 2 0 5 (by decide)
  refine ((State.shaftEvent_keepsShafts _ h 2).shState h).trans ?_
  rw [State.shState, State.fld, State.reg_satCount_ne _ hcnt]
  exact hfld

theorem State.shState_enterState_lost (s : State) (h : Fin 16) : (s.enterState h 5).shState h = 5 := by
  have htell (t : State) (b : Bool) : (t.tellState h 5 b).shState h = t.shState h := by
    have hk := (State.weirShaftLost_keepsShafts (t.setShaft h { t.shaft h with dirTooth := false, afterStall := false }) h false).trans
      (State.swapShaftLost_keepsShafts _ h)
    cases b
    · rfl
    · exact hk.shState h
  rw [s.enterState_eq]
  split
  · exact Eq.symm ‹_›
  · rw [htell, State.shState_showState_lost]

/-! ### Direction (R139, R140) -/

theorem KeepsTooth.setDir {h : Fin 16} (s : State) (d : Bool) : KeepsTooth h s (s.setDir h d) := by
  by_cases hd : s.shRev h = d
  · rw [s.setDir_same hd]
    exact .refl s
  · have hheld : KeepsTooth h s (s.turnHeld h d) := (KeepsTooth.setReg s (b := 0x90004) _ (by decide)).trans (.holdAt _ _)
    have hturned : KeepsTooth h s (s.turned h d) := .ite (hheld.trans (.setShaft _)) hheld
    exact hturned.trans (.of_keepsShafts (s.turned_keepsShafts_setDir hd))

theorem State.shState_turnHeld (s : State) (h : Nat) (d : Bool) : (s.turnHeld h d).shState h = s.shState h := by
  rw [State.turnHeld, State.holdAt, State.shState, State.fld, State.status_reportEstimate, bitsOf_setBits_ne _ _ _ _ _ _ (by decide),
    State.reg_setShaft, State.setBit, State.reg_setReg_self, bitsOf_putBit_ne _ _ _ _ _ (by decide)]
  rfl

/-- A change of DIR is no change of state. -/
theorem State.shState_setDir (s : State) (h : Fin 16) (d : Bool) : (s.setDir h d).shState h = s.shState h := by
  by_cases hd : s.shRev h = d
  · rw [s.setDir_same hd]
  · have hturned : (s.turned h d).shState h = (s.turnHeld h d).shState h := by
      unfold State.turned
      split <;> rfl
    rw [(s.turned_keepsShafts_setDir hd).shState h, hturned, s.shState_turnHeld]

/-! ### The last tooth -/

/-- Of the teeth of shaft `h`, `t` differs from `s` in one alone: the last tooth has stamp `st`. -/
def TakesTooth (h : Nat) (st : Stamp) (s t : State) : Prop :=
  ∃ u, KeepsTooth h s u ∧ KeepsTooth h (u.setLastTooth h st) t

namespace TakesTooth

variable {h : Nat} {st : Stamp} {s t u : State}

theorem after (hk : KeepsTooth h s t) (ht : TakesTooth h st t u) : TakesTooth h st s u :=
  let ⟨v, h1, h2⟩ := ht
  ⟨v, hk.trans h1, h2⟩

theorem ite {c : Prop} [Decidable c] (h1 : TakesTooth h st s t) (h2 : TakesTooth h st s u) : TakesTooth h st s (if c then t else u) := by
  split <;> assumption

theorem shaft_setLastTooth (u : State) : (u.setLastTooth h st).shaft h = { u.shaft h with lastTooth := some st } :=
  State.shaft_setShaft_self _ _ _

theorem lastTooth (ht : TakesTooth h st s t) : (t.shaft h).lastTooth = some st := by
  obtain ⟨u, _, hk⟩ := ht
  rw [hk.lastTooth, shaft_setLastTooth]

theorem cands (ht : TakesTooth h st s t) : (t.shaft h).cands = (s.shaft h).cands := by
  obtain ⟨u, hk, hk'⟩ := ht
  rw [hk'.cands, shaft_setLastTooth]
  exact hk.cands

theorem crossings (ht : TakesTooth h st s t) : (t.shaft h).crossings = (s.shaft h).crossings := by
  obtain ⟨u, hk, hk'⟩ := ht
  rw [hk'.crossings, shaft_setLastTooth]
  exact hk.crossings

/-- LAST_TOOTH shows its stamp. -/
theorem pair (ht : TakesTooth h st s t) : t.pair (LAST_TOOTH_LO h) (LAST_TOOTH_HI h) = st := by
  obtain ⟨u, _, hk⟩ := ht
  have hlo : t.reg (LAST_TOOTH_LO h) = (u.setLastTooth h st).reg (LAST_TOOTH_LO h) := hk.regs 0x900c0 (by decide)
  have hhi : t.reg (LAST_TOOTH_HI h) = (u.setLastTooth h st).reg (LAST_TOOTH_HI h) := hk.regs 0x900c4 (by decide)
  rw [State.pair, hlo, hhi]
  exact State.pair_setPair_self _ _ _ st (shaftReg_ne (by decide) h)

theorem synthCnt (ht : TakesTooth h st s t) : t.reg (SYNTH_CNT h) = s.reg (SYNTH_CNT h) := by
  obtain ⟨u, hk, hk'⟩ := ht
  have hset : (u.setLastTooth h st).reg (SYNTH_CNT h) = u.reg (SYNTH_CNT h) :=
    State.reg_setPair_ne _ st (shaftReg_ne (by decide) h) (shaftReg_ne (by decide) h)
  exact ((hk'.regs 0x90108 (by decide)).trans hset).trans (hk.regs 0x90108 (by decide))

end TakesTooth

/-! ### Teeth in sync (R134 to R136, R140) -/

namespace TakesTooth

theorem takeTooth {h : Nat} (s : State) (st : Stamp) (base : Tick) (idx : Nat) (pos : BitVec 64) (step : Int) (synth gap : Bool) :
    TakesTooth h st s (s.takeTooth h st base idx pos step synth gap) := by
  have hnoted : KeepsTooth h s (if synth then s.noteHistory h st base synth gap
      else (s.noteHistory h st base synth gap).noteStamp h st) :=
    .ite (.noteHistory s _ _ _ _) ((KeepsTooth.noteHistory s _ _ _ _).trans (.noteStamp _ st))
  refine ⟨_, ?_, KeepsTooth.newEstimate _ _ _⟩
  exact (hnoted.trans (.setShaft _)).trans (.ite (.setReg _ (b := 0x90004) _ (by decide)) (.refl _))

variable {h : Fin 16}

theorem lostTooth (s : State) (st : Stamp) (synth gap : Bool) : TakesTooth h st s (s.lostTooth h st synth gap) :=
  ⟨_, .noteHistory s _ _ _ _, (KeepsTooth.ite (.refl _) (.noteStamp _ st)).trans (.enterState _ 5)⟩

theorem turnTooth (s : State) (st : Stamp) : TakesTooth h st s (s.turnTooth h st) := takeTooth s _ _ _ _ _ _ _

theorem expectedTooth (s : State) (st : Stamp) (synth : Bool) : TakesTooth h st s (s.expectedTooth h st synth) := takeTooth s _ _ _ _ _ _ _

/-- The tooth that closes a gap is the last one, whether the count was right, off by one, or off by more (R135). -/
theorem gapTooth (s : State) (st : Stamp) : TakesTooth h st s (s.gapTooth h st) := by
  refine .ite (.lostTooth s _ _ _) (.after ?_ (.takeTooth _ _ _ _ _ _ _ _))
  refine (KeepsTooth.setShaft s).trans (.ite ?_ (.ite (.enterState _ 3) (.refl _)))
  exact ((KeepsTooth.satCount _ (b := 0x9010c) (by decide)).trans (.jump _ _ _)).trans (.enterState _ 4)

theorem missedGap (s : State) (st : Stamp) : TakesTooth h st s (s.missedGap h st) := by
  have hcount : KeepsTooth h s (s.satCount (GAP_MISS_CNT h)) := .satCount s (b := 0x90110) (by decide)
  refine .after hcount (.ite (.lostTooth _ _ _ _) (.after ?_ (.takeTooth _ _ _ _ _ _ _ _)))
  exact (KeepsTooth.setShaft _).trans (.enterState _ 4)

/-- A real tooth in sync is the last tooth, whichever way R135 classifies it. -/
theorem syncTooth (s : State) (st : Stamp) : TakesTooth h st s (s.syncTooth h st) :=
  .ite (.turnTooth s st) (.ite (.expectedTooth s st _) (.ite (.gapTooth s st) (.ite (.missedGap s st) (.expectedTooth s st _))))

end TakesTooth

/-! ### Search (R130 to R132) -/

theorem KeepsTooth.confirm {h : Fin 16} (s : State) (st : Stamp) : KeepsTooth h s (s.confirm h st) := by
  refine .trans ?_ (.newEstimate _ _ _)
  refine .trans ?_ (.enterState _ 3)
  exact (KeepsTooth.ite (.jump s _ _) (.refl s)).trans (.setShaft _)

/-- The shaft with a tooth accepted in search noted, before the tooth is the last one. -/
def State.searchNoted (s : State) (h : Nat) (st : Stamp) : State :=
  let opens := gapOpens (s.fld (GAP_CFG h) 15 0) ((st :: (s.shaft h).stamps).take 4)
  let t := (s.noteHistory h st (s.toothBase st false) false opens).noteStamp h st
  t.setShaft h { t.shaft h with accepted := (s.shaft h).accepted + 1 }

/-- A tooth accepted in search is the last tooth, whatever becomes of the candidate. -/
theorem TakesTooth.searchTooth {h : Fin 16} (s : State) (st : Stamp) : TakesTooth h st s (s.searchTooth h st) := by
  have hfail (t : State) : KeepsTooth h t (t.satCount (CAND_FAIL_CNT h)) := .satCount t (b := 0x90114) (by decide)
  refine ⟨s.searchNoted h st, ((KeepsTooth.noteHistory s _ _ _ _).trans (.noteStamp _ st)).trans (.setShaft _), ?_⟩
  refine .ite (.ite (.ite (.confirm _ _) ?_) (.ite ?_ (.refl _))) (.ite ?_ (.refl _))
  · exact (KeepsTooth.setShaft _).trans (hfail _)
  · exact (KeepsTooth.enterState _ _).trans (hfail _)
  · exact (KeepsTooth.setShaft _).trans (.enterState _ 2)

/-! ### Candidates (R127, R128, R133) -/

/-- Shaft `h` without its oldest candidate, which is being judged. -/
def State.judging (s : State) (h : Nat) (rest : List Candidate) : State := s.setShaft h { s.shaft h with cands := rest }

theorem exec_toothJudge (s : State) (h : Fin 16) (hc : s.clocked) : exec (.toothJudge h) s = .next (s.toothJudge h) :=
  congrArg Host.Outcome.next (s.onTclk_clocked _ hc)

section

variable {s : State} {h : Nat} {d : Candidate} {rest : List Candidate}
  (hdue : max 24 ((64 * s.shFilt h : Nat) : Int) ≤ ahead (stampAt (s.mt + 1) 0) d.stamp) (hcands : (s.shaft h).cands = d :: rest)

include hdue

theorem State.filter_elapsed : ¬ahead (stampAt (s.mt + 1) 0) d.stamp < ((max 24 (64 * s.shFilt h) : Nat) : Int) := by
  omega

include hcands

/-- A candidate that an edge has reversed within the filter time. -/
theorem State.toothJudge_filtered {r : Stamp} (hrev : d.reversed = some r) (hr : ahead r d.stamp < ((64 * s.shFilt h : Nat) : Int)) :
    s.toothJudge h = (s.judging h rest).satCount (FILT_CNT h) := by
  simp only [State.toothJudge, hcands, if_neg (State.filter_elapsed hdue), hrev, hr, decide_true, if_true, State.judging]

/-- A candidate that the filter passes. -/
theorem State.toothJudge_passed (hrev : d.reversed = none) (hen : s.shEn h = true) (hw : s.shWheel h = true) :
    s.toothJudge h = (s.judging h rest).judgeTooth h d.stamp := by
  have hgo : ((s.judging h rest).shEn h && (s.judging h rest).shWheel h) = true := Bool.and_eq_true_iff.2 ⟨hen, hw⟩
  simp only [State.toothJudge, hcands, if_neg (State.filter_elapsed hdue), hrev, Bool.false_eq_true, if_false]
  exact if_pos hgo

end

/-- The floor depends on the last tooth. -/
theorem State.underFloor_setShaft (s : State) {h : Nat} {c : Shaft} (hl : c.lastTooth = (s.shaft h).lastTooth) (st : Stamp) :
    (s.setShaft h c).underFloor h st = s.underFloor h st := by
  rw [State.underFloor, State.shaft_setShaft_self, hl, State.underFloor]

theorem State.tooEarly_judging (s : State) (h : Nat) (rest : List Candidate) (st : Stamp) :
    (s.judging h rest).tooEarly h st = s.tooEarly h st := by
  rw [State.tooEarly, State.judging, State.shaft_setShaft_self]
  rfl

theorem State.judgeTooth_noise {s : State} {h : Nat} {st : Stamp} (hn : s.underFloor h st = true ∨ s.tooEarly h st = true) :
    s.judgeTooth h st = s.satCount (NOISE_CNT h) :=
  if_pos (Bool.or_eq_true_iff.2 hn)

/-- An accepted candidate is the last tooth, in sync and in search. -/
theorem TakesTooth.judgeTooth {s : State} {h : Fin 16} {st : Stamp} (hfloor : s.underFloor h st = false) (hearly : s.tooEarly h st = false)
    (hstate : s.shState h ≠ 0) : TakesTooth h st s (s.judgeTooth h st) := by
  have haccept : ¬(s.underFloor h st || s.tooEarly h st) = true := by rw [hfloor, hearly]; decide
  have htake {t : State} (ht : t.shState h ≠ 0) :
      TakesTooth h st t (if t.shSync h then t.syncTooth h st else if t.shState h = 0 then t else t.searchTooth h st) := by
    rw [if_neg ht]
    exact .ite (.syncTooth t st) (.searchTooth t st)
  rw [State.judgeTooth, if_neg haccept]
  refine .after (.ite (.setDir s _) (.refl s)) (htake ?_)
  split
  · rwa [State.shState_setDir]
  · exact hstate

/-! ### Synthetic teeth (R134) -/

theorem exec_syntheticTooth (s : State) (h : Fin 16) (hc : s.clocked) : exec (.syntheticTooth h) s = .next (s.syntheticTooth h) :=
  congrArg Host.Outcome.next (s.onTclk_clocked _ hc)

/-- The synthetic tooth stamped `st` that follows a real one: a SYNCED shaft is DEGRADED, and the tooth takes its expected position. -/
def State.insertTooth (s : State) (h : Nat) (st : Stamp) : State :=
  (if s.shState h = 3 then s.enterState h 4 else s).expectedTooth h st true

theorem State.syntheticTooth_due {s : State} {h pe : Nat} (hpe : (s.shaft h).est.pe = some pe)
    (hdue : ((pe + pe / 2 : Nat) : Int) ≤ ahead s.now (s.shaft h).est.stamp) (hw : s.shWheel h = true) (hen : s.shEn h = true)
    (hsync : s.shSync h = true) (hnext : (s.shaft h).next = []) (hoff : s.bit (SH_CTRL h) 23 = false) (hst : s.shStalled h = false)
    (hstall : s.stallDue h = false) :
    s.syntheticTooth h =
      if (s.shaft h).lastSynth then
        (s.satCount (SYNTH_CNT h)).lostTooth h ((s.shaft h).est.stamp + BitVec.ofNat 64 pe) true ((s.satCount (SYNTH_CNT h)).gapExpected h)
      else (s.satCount (SYNTH_CNT h)).insertTooth h ((s.shaft h).est.stamp + BitVec.ofNat 64 pe) := by
  simp only [State.syntheticTooth, hpe, hdue, hw, hen, hsync, hnext, hoff, hst, hstall, decide_true, List.isEmpty_nil, Bool.not_false,
    Bool.and_self, if_true, State.insertTooth]

theorem TakesTooth.insertTooth {h : Fin 16} (s : State) (st : Stamp) : TakesTooth h st s (s.insertTooth h st) :=
  .after (.ite (.enterState s 4) (.refl s)) (.expectedTooth _ st true)

/-! ### Stalls (R141) -/

theorem exec_stall (s : State) (h : Fin 16) (hc : s.clocked) : exec (.stall h) s = .next (s.stall h) :=
  congrArg Host.Outcome.next (s.onTclk_clocked _ hc)

/-- The shaft whose stall is counted and shown in its registers. -/
def State.showStall (s : State) (h : Nat) : State := ((s.hold h).satCount (STALL_CNT h)).setBit (SH_STATUS h) 5 true

/-- A stalled shaft before the events on it see the stall. -/
def State.stalled (s : State) (h : Nat) : State :=
  (s.showStall h).setShaft h { (s.showStall h).shaft h with afterStall := true, stamps := [] }

theorem State.stalled_keepsShafts_stall {s : State} {h : Nat} (hd : s.stallDue h = true) (hsrc : s.shSrc h < 4) :
    KeepsShafts (s.stalled h) (s.stall h) := by
  have hgo : (s.stallDue h && decide (s.shSrc h < 4)) = true := by rw [hd, decide_eq_true hsrc]; rfl
  rw [State.stall, if_pos hgo]
  exact ((State.shaftEvent_keepsShafts _ h 3).trans (State.weirShaftStall_keepsShafts _ h)).trans (State.swapFreeze_keepsShafts _ h)

theorem State.shaft_holdAt (s : State) (h : Nat) (pos : BitVec 64) :
    (s.holdAt h pos).shaft h = { s.shaft h with
      est := { Estimate.init with stamp := s.now, pos := pos, rev := s.shRev h }
      next := [], intervals := [], opens := false, held := none } := by
  rw [State.holdAt, State.shaft_reportEstimate, State.shaft_setShaft_self]

/-- The record of a stalled shaft: the estimate discarded, and the position held where it was. -/
theorem State.shaft_stalled (s : State) (h : Nat) :
    (s.stalled h).shaft h = { (s.holdAt h (s.shPos h)).shaft h with afterStall := true, stamps := [] } := by
  rw [State.stalled, State.shaft_setShaft_self, State.showStall, State.shaft_setBit, State.shaft_satCount, State.hold]

theorem State.shStalled_stalled (s : State) (h : Nat) : (s.stalled h).shStalled h = true := by
  rw [State.stalled, State.shStalled, State.bit_setShaft, State.showStall, State.bit_setBit_self _ _ _ _ (by decide)]

theorem State.stallCnt_stalled (s : State) (h : Nat) : (s.stalled h).reg (STALL_CNT h) = satInc (s.reg (STALL_CNT h)) := by
  have hstatus : STALL_CNT h ≠ SH_STATUS h := shaftReg_ne (by decide) h
  have hpred : STALL_CNT h ≠ PRED_PERIOD h := shaftReg_ne (by decide) h
  have hhold : (s.hold h).reg (STALL_CNT h) = s.reg (STALL_CNT h) := (State.reg_setReg_ne _ _ hpred).trans (State.reg_setReg_ne _ _ hstatus)
  rw [State.stalled, State.reg_setShaft, State.showStall, State.reg_setBit_ne _ _ _ hstatus, State.reg_satCount_self, hhold]

/-! ### Virtual teeth (R145) -/

theorem exec_virtualTooth (s : State) (h : Fin 16) (hc : s.clocked) : exec (.virtualTooth h) s = .next (s.virtualTooth h) :=
  congrArg Host.Outcome.next (s.onTclk_clocked _ hc)

theorem State.tooth_newEstimate (s : State) (h : Nat) (st : Stamp) (u : Tick) :
    ((s.newEstimate h st u).shaft h).tooth = (s.shaft h).tooth := by
  unfold State.newEstimate
  rw [State.shaft, State.noteSat_shafts]
  exact (congrArg Shaft.tooth (State.shaft_setShaft_self s h _)).trans rfl

/-- A tooth in sync has the wheel position that it is given. -/
theorem State.tooth_takeTooth (s : State) (h : Nat) (st : Stamp) (base : Tick) (idx : Nat) (pos : BitVec 64) (step : Int)
    (synth gap : Bool) :
    ((s.takeTooth h st base idx pos step synth gap).shaft h).tooth = idx := by
  have hclear {c : Prop} [Decidable c] (t : State) :
      ((if c then t.setBit (SH_STATUS h) 5 false else t).shaft h).tooth = (t.shaft h).tooth := by
    split <;> rfl
  refine (State.tooth_newEstimate _ h st _).trans ?_
  refine (congrArg Shaft.tooth (TakesTooth.shaft_setLastTooth _)).trans ?_
  exact (hclear _).trans ((congrArg Shaft.tooth (State.shaft_setShaft_self _ h _)).trans rfl)

theorem State.shRev_setReg_ne (s : State) {h b : Nat} (v : Word) (hb : 0x90004 ≠ b) :
    (s.setReg (b + h * 0x1000) v).shRev h = s.shRev h := by
  have hreg : (s.setReg (b + h * 0x1000) v).reg (SH_STATUS h) = s.reg (SH_STATUS h) := State.reg_setReg_ne _ _ (shaftReg_ne hb h)
  rw [State.shRev, State.bit, hreg]
  rfl

theorem State.shRev_setBit_ne (s : State) (h : Nat) {i : Nat} (v : Bool) (hi : 6 ≠ i) :
    (s.setBit (SH_STATUS h) i v).shRev h = s.shRev h :=
  State.bit_setBit_ne _ _ _ hi

theorem State.shRev_noteHistory (s : State) (h : Nat) (st : Stamp) (base : Tick) (synth gap : Bool) :
    (s.noteHistory h st base synth gap).shRev h = s.shRev h := by
  unfold State.noteHistory
  dsimp only
  split
  · exact State.shRev_setReg_ne _ (b := 0x900cc) _ (by decide)
  · rfl

theorem State.shRev_newEstimate (s : State) (h : Nat) (st : Stamp) (u : Tick) : (s.newEstimate h st u).shRev h = s.shRev h := by
  have hsat (t : State) (b : Bool) : (t.noteSat h b).shRev h = t.shRev h := by
    cases b
    · rfl
    · exact t.shRev_setBit_ne h true (by decide)
  exact hsat _ _

/-- A tooth in sync does not change DIR. -/
theorem State.shRev_takeTooth (s : State) (h : Nat) (st : Stamp) (base : Tick) (idx : Nat) (pos : BitVec 64) (step : Int)
    (synth gap : Bool) :
    (s.takeTooth h st base idx pos step synth gap).shRev h = s.shRev h := by
  have hclear {c : Prop} [Decidable c] (t : State) : (if c then t.setBit (SH_STATUS h) 5 false else t).shRev h = t.shRev h := by
    split
    · exact t.shRev_setBit_ne h false (by decide)
    · rfl
  have hstamp {c : Prop} [Decidable c] (t : State) : (if c then t else t.noteStamp h st).shRev h = t.shRev h := by
    split <;> rfl
  have hlast (t : State) : (t.setLastTooth h st).shRev h = t.shRev h :=
    (State.shRev_setReg_ne _ (b := 0x900c4) _ (by decide)).trans (State.shRev_setReg_ne _ (b := 0x900c0) _ (by decide))
  refine (State.shRev_newEstimate _ h st _).trans ((hlast _).trans ((hclear _).trans ?_))
  exact (hstamp _).trans (s.shRev_noteHistory h st base synth gap)

/-- The shaft without its oldest crossing, in that crossing's direction. -/
def State.crossed (s : State) (h : Nat) (x : Crossing) (rest : List Crossing) : State :=
  (s.setShaft h { s.shaft h with crossings := rest }).setDir h x.rev

/-- A crossing beyond the floor is taken as a tooth: at its full position from a generator, and at its count from an interface. -/
theorem State.virtualTooth_taken {s : State} {h : Nat} {x : Crossing} {rest : List Crossing} (hx : (s.shaft h).crossings = x :: rest)
    (hen : s.shEn h = true) (hsync : s.shSync h = true) (hfloor : s.underFloor h x.stamp = false) :
    ∃ u pos step, u.shRev h = (s.crossed h x rest).shRev h ∧ KeepsTooth h (s.crossed h x rest) u ∧
      s.virtualTooth h = u.takeTooth h x.stamp x.base x.idx pos step false false := by
  have hgo : ¬(!s.shEn h || !s.shSync h || (s.setShaft h { s.shaft h with crossings := rest }).underFloor h x.stamp) = true := by
    rw [State.underFloor_setShaft s (by rfl), hfloor, hen, hsync]
    decide
  rw [State.virtualTooth, hx]
  dsimp only
  rw [if_neg (by exact hgo)]
  split
  · exact ⟨s.crossed h x rest, _, _, rfl, .refl _, rfl⟩
  · exact ⟨_, _, _, State.shRev_setShaft (s.crossed h x rest) h h _, .setShaft _, rfl⟩

end Sys2Proof.Machine

namespace Sys2Proof.Proofs

open Sys2Proof.Machine Sys2Proof.Machine.Reg

/-- A candidate that is no glitch and no noise is the last tooth (R127, R128, R133). -/
theorem toothJudge_takes_tooth (h : Fin 16) (s : State) (d : Candidate) (rest : List Candidate) (hc : s.clocked)
    (hcands : (s.shaft h).cands = d :: rest) (hdue : max 24 ((64 * s.shFilt h : Nat) : Int) ≤ ahead (stampAt (s.mt + 1) 0) d.stamp)
    (hrev : d.reversed = none) (hen : s.shEn h = true) (hw : s.shWheel h = true) (hstate : s.shState h ≠ 0)
    (hfloor : s.underFloor h d.stamp = false) (hearly : s.tooEarly h d.stamp = false) :
    ∃ t, exec (.toothJudge h) s = .next t ∧ (t.shaft h).lastTooth = some d.stamp ∧
      t.pair (LAST_TOOTH_LO h) (LAST_TOOTH_HI h) = d.stamp ∧ (t.shaft h).cands = rest := by
  have htook : TakesTooth h d.stamp (s.judging h rest) ((s.judging h rest).judgeTooth h d.stamp) :=
    .judgeTooth ((s.underFloor_setShaft (by rfl) _).trans hfloor) ((s.tooEarly_judging h rest _).trans hearly) hstate
  refine ⟨_, exec_toothJudge s h hc, ?_⟩
  rw [State.toothJudge_passed hdue hcands hrev hen hw]
  exact ⟨htook.lastTooth, htook.pair, htook.cands.trans (congrArg Shaft.cands (State.shaft_setShaft_self s h _))⟩

/-- Settles O28: a glitch, noise, and a tooth. -/
theorem candidatesAreJudged : Obligations.CandidatesAreJudged := by
  refine ⟨fun h s d rest r hc hcands hdue hrev hr => ?_, fun h s d rest hc hcands hdue hrev hen hw hn => ?_, toothJudge_takes_tooth⟩
  · exact (exec_toothJudge s h hc).trans (congrArg Host.Outcome.next (State.toothJudge_filtered hdue hcands hrev hr))
  · have hnoise : (s.judging h rest).underFloor h d.stamp = true ∨ (s.judging h rest).tooEarly h d.stamp = true := by
      rwa [State.tooEarly_judging, State.judging, State.underFloor_setShaft s (by rfl)]
    rw [exec_toothJudge s h hc, State.toothJudge_passed hdue hcands hrev hen hw, State.judgeTooth_noise hnoise, State.judging]

/-- A due synthetic tooth stands at the predicted stamp, and a second one in a row loses the shaft (R134). -/
theorem syntheticTooth_supplies_tooth (h : Fin 16) (s : State) (pe : Nat) (hc : s.clocked) (hpe : (s.shaft h).est.pe = some pe)
    (hdue : ((pe + pe / 2 : Nat) : Int) ≤ ahead s.now (s.shaft h).est.stamp) (hw : s.shWheel h = true) (hen : s.shEn h = true)
    (hsync : s.shSync h = true) (hnext : (s.shaft h).next = []) (hoff : s.bit (SH_CTRL h) 23 = false) (hst : s.shStalled h = false)
    (hstall : s.stallDue h = false) :
    ∃ t, exec (.syntheticTooth h) s = .next t ∧ t.reg (SYNTH_CNT h) = satInc (s.reg (SYNTH_CNT h)) ∧
      (t.shaft h).lastTooth = some ((s.shaft h).est.stamp + BitVec.ofNat 64 pe) ∧
      ((s.shaft h).lastSynth = true → t.shState h = 5) := by
  refine ⟨_, exec_syntheticTooth s h hc, ?_⟩
  rw [State.syntheticTooth_due hpe hdue hw hen hsync hnext hoff hst hstall]
  have hcount {t : State} {st : Stamp} (ht : TakesTooth h st (s.satCount (SYNTH_CNT h)) t) :
      t.reg (SYNTH_CNT h) = satInc (s.reg (SYNTH_CNT h)) := ht.synthCnt.trans (s.reg_satCount_self _)
  split
  · have htook := TakesTooth.lostTooth (h := h) (s.satCount (SYNTH_CNT h)) ((s.shaft h).est.stamp + BitVec.ofNat 64 pe) true
      ((s.satCount (SYNTH_CNT h)).gapExpected h)
    exact ⟨hcount htook, htook.lastTooth, fun _ => State.shState_enterState_lost _ h⟩
  · next hreal =>
    have htook := TakesTooth.insertTooth (h := h) (s.satCount (SYNTH_CNT h)) ((s.shaft h).est.stamp + BitVec.ofNat 64 pe)
    exact ⟨hcount htook, htook.lastTooth, fun hl => absurd hl hreal⟩

/-- A due stall is shown and counted, and the position holds without an estimate (R141). -/
theorem stall_discards_estimate (h : Fin 16) (s : State) (hc : s.clocked) (hd : s.stallDue h = true) (hsrc : s.shSrc h < 4) :
    ∃ t, exec (.stall h) s = .next t ∧ t.shStalled h = true ∧ t.reg (STALL_CNT h) = satInc (s.reg (STALL_CNT h)) ∧
      (t.shaft h).est.n = 0 ∧ (t.shaft h).est.pos = s.shPos h ∧ (t.shaft h).intervals = [] := by
  have hk := State.stalled_keepsShafts_stall hd hsrc
  have hcnt : (s.stall h).reg (STALL_CNT h) = (s.stalled h).reg (STALL_CNT h) :=
    hk.regs _ (by unfold STALL_CNT; omega) (by unfold STALL_CNT; omega)
  refine ⟨_, exec_stall s h hc, ?_, hcnt.trans (s.stallCnt_stalled h), ?_⟩
  · rw [State.shStalled, State.bit, hk.status h]
    exact s.shStalled_stalled h
  · rw [hk.shaft h, s.shaft_stalled, s.shaft_holdAt]
    exact ⟨rfl, rfl, rfl⟩

/-- A crossing is taken as a tooth at its stamp and wheel position, in its direction (R145). -/
theorem virtualTooth_takes_crossing (h : Fin 16) (s : State) (x : Crossing) (rest : List Crossing) (hc : s.clocked)
    (hx : (s.shaft h).crossings = x :: rest) (hen : s.shEn h = true) (hsync : s.shSync h = true)
    (hfloor : s.underFloor h x.stamp = false) :
    ∃ t, exec (.virtualTooth h) s = .next t ∧ (t.shaft h).lastTooth = some x.stamp ∧ (t.shaft h).tooth = x.idx ∧
      (t.shaft h).crossings = rest ∧ t.shRev h = x.rev := by
  obtain ⟨u, pos, step, hrev, hk, ht⟩ := State.virtualTooth_taken hx hen hsync hfloor
  have htook : TakesTooth h x.stamp (s.crossed h x rest) (s.virtualTooth h) := ht ▸ .after hk (.takeTooth u _ _ _ _ _ _ _)
  have hrest : ((s.crossed h x rest).shaft h).crossings = rest :=
    (KeepsTooth.setDir _ x.rev).crossings.trans (congrArg Shaft.crossings (State.shaft_setShaft_self s h _))
  refine ⟨_, exec_virtualTooth s h hc, htook.lastTooth, ?_, htook.crossings.trans hrest, ?_⟩
  · rw [ht, State.tooth_takeTooth]
  · rw [ht, State.shRev_takeTooth, hrev]
    exact State.shRev_setDir _ h x.rev

/-- Settles O29: a synthetic tooth, a stall, and a virtual tooth. -/
theorem missingTeethAreSupplied : Obligations.MissingTeethAreSupplied :=
  ⟨syntheticTooth_supplies_tooth, stall_discards_estimate, virtualTooth_takes_crossing⟩

end Sys2Proof.Proofs
end

section
/-!
PROOFS. Posts to a weir (R156, R157, R175): what an event put into a slot, or retired from one, leaves of the other slots, what each
outcome of a post does, then the statement about them.
-/

namespace Sys2Proof.Machine

open Reg

/-! ### Slots and what retires from them (R157, R162) -/

theorem Table.lookup_erase_ne {α : Type} (t : Table α) {a b : Nat} (h : b ≠ a) : (Table.erase t a).lookup b = t.lookup b := by
  induction t with
  | nil => rfl
  | cons e t ih =>
    rw [Table.erase]
    split
    · next he => rw [ih, List.lookup_cons, beq_false_of_ne (he ▸ h)]
    · rw [List.lookup_cons, List.lookup_cons, ih]

theorem Table.lookup_insert_self {α : Type} (t : Table α) (a : Nat) (v : α) (h : ∀ e ∈ t, e.1 ≠ a) :
    (Table.insert t a v).lookup a = some v := by
  induction t with
  | nil => exact List.lookup_cons_self
  | cons e t ih =>
    rw [Table.insert]
    split
    · exact List.lookup_cons_self
    · rw [List.lookup_cons, beq_false_of_ne (h e List.mem_cons_self).symm]
      exact ih fun x hx => h x (List.mem_cons_of_mem e hx)

theorem Table.lookup_insert_ne {α : Type} (t : Table α) {a b : Nat} (v : α) (h : b ≠ a) : (Table.insert t a v).lookup b = t.lookup b := by
  induction t with
  | nil => rw [Table.insert, List.lookup_cons, beq_false_of_ne h]
  | cons e t ih =>
    rw [Table.insert]
    split
    · rw [List.lookup_cons, beq_false_of_ne h]
    · rw [List.lookup_cons, List.lookup_cons, ih]

theorem Weir.slot?_putSlot_self (w : Weir) (i : Nat) (e : Slot) : (w.putSlot i e).slot? i = some e :=
  Table.lookup_insert_self _ i e (Table.ne_of_mem_erase w.slots i)

theorem Weir.slot?_putSlot_ne (w : Weir) {i j : Nat} (e : Slot) (h : j ≠ i) : (w.putSlot i e).slot? j = w.slot? j :=
  (Table.lookup_insert_ne _ e h).trans (Table.lookup_erase_ne w.slots h)

theorem State.weir_putSlot (s : State) (n i : Nat) (e : Slot) : (s.putSlot n i e).weir n = (s.weir n).putSlot i e :=
  State.weir_setWeir_self ..

theorem Weir.slot?_retire_ne (w : Weir) (u : Tick) {i j : Nat} (o : Outcome) (h : j ≠ i) : (w.retire u i o).slot? j = w.slot? j :=
  Table.lookup_erase_ne w.slots h

/-- An event that retires leaves its slot and is counted. -/
theorem State.retire_shows (s : State) (n i : Nat) (o : Outcome) :
    ((s.retire n i o).weir n).slot? i = none ∧ ((s.retire n i o).weir n).ledger = (s.weir n).ledger.retire o := by
  rw [State.weir_retire]
  exact ⟨Weir.slot?_retire_self .., rfl⟩

@[simp] theorem State.reg_weirEvent (s : State) (n e a : Nat) : (s.weirEvent n e).reg a = s.reg a := by
  unfold State.weirEvent State.deliverIf
  split <;> rfl

theorem State.reg_retire (s : State) (n i : Nat) (o : Outcome) (a : Nat) : (s.retire n i o).reg a = s.reg a := by
  unfold State.retire
  cases o <;> simp only [State.reg_weirEvent, State.reg_setWeir]

/-! ### Outcomes of a post (R156) -/

theorem State.postCheck_lt (s : State) (d : Nat → Word) : s.postCheck d < 16 := by
  unfold State.postCheck
  dsimp only
  repeat' split
  all_goals decide

/-- The weir has taken its post of the tick (R157). -/
def State.notePost (s : State) (n : Nat) : State := s.setWeir n { s.weir n with lastPost := some s.mt }

theorem State.post_refused {s : State} {d : Nat → Word} (n : Nat) (h0 : s.postCheck d ≠ 0) (h8 : s.postCheck d ≠ 8) :
    s.post n d = (s.postCheck d, (s.notePost n).satCount (POST_REFUSED_CNT n)) := by
  simp only [State.post, if_neg h8, if_pos h0, State.notePost]

theorem State.post_zero {s : State} {d : Nat → Word} (n : Nat) (h : s.postCheck d = 8) :
    s.post n d = (8, (s.notePost n).setWeir n { (s.notePost n).weir n with
      ledger := { (s.weir n).ledger with accepted := (s.weir n).ledger.accepted + 1, zero := (s.weir n).ledger.zero + 1 } }) := by
  simp only [State.post, if_pos h, State.notePost, State.weir_setWeir_self, WeirLedger.retire]

theorem State.freeSlot_notePost (s : State) (n : Nat) :
    ((s.notePost n).weir n).freeSlot (s.notePost n).mt = (s.weir n).freeSlot s.mt := by
  rw [State.notePost, State.weir_setWeir_self]
  rfl

theorem State.post_full {s : State} {d : Nat → Word} {n : Nat} (h : s.postCheck d = 0) (hf : (s.weir n).freeSlot s.mt = none) :
    s.post n d = (1, ((s.notePost n).satCount (WEIR_FULL_CNT n)).weirEvent n 2) := by
  have hfree := (s.freeSlot_notePost n).trans hf
  unfold State.post
  dsimp only
  rw [State.notePost] at hfree ⊢
  rw [h, if_neg (by decide), if_neg (by decide), hfree]

theorem State.post_accepted {s : State} {d : Nat → Word} {n i : Nat} (h : s.postCheck d = 0) (hf : (s.weir n).freeSlot s.mt = some i) :
    s.post n d = (0, (s.notePost n).setWeir n ({ (s.notePost n).weir n with
      ledger := { (s.weir n).ledger with accepted := (s.weir n).ledger.accepted + 1 },
      order := (s.weir n).order + 1 }.putSlot i ((s.notePost n).eventOf n d))) := by
  have hfree := (s.freeSlot_notePost n).trans hf
  unfold State.post
  dsimp only
  rw [State.notePost] at hfree ⊢
  rw [h, if_neg (by decide), if_neg (by decide), hfree]
  simp only [State.weir_setWeir_self]

/-- Keying an event afresh changes its stamps and what they rest on. -/
theorem State.keyed_frame (s : State) (e : Slot) :
    (s.keyed e).w0 = e.w0 ∧ (s.keyed e).arg = e.arg ∧ (s.keyed e).inserted = e.inserted ∧ (s.keyed e).started = e.started ∧
      (s.keyed e).commit = e.commit := by
  unfold State.keyed
  repeat' split
  all_goals exact ⟨rfl, rfl, rfl, rfl, rfl⟩

/-- What the event of a descriptor holds of it, keyed or not. -/
theorem State.eventOf_shows (s : State) (n : Nat) (d : Nat → Word) :
    (s.eventOf n d).w0 = d 0 ∧ (s.eventOf n d).arg = d 5 ∧ (s.eventOf n d).inserted = false ∧ (s.eventOf n d).started = false ∧
      (s.eventOf n d).commit = s.mt := by
  unfold State.eventOf
  dsimp only
  split
  · exact State.keyed_frame _ _
  · exact ⟨rfl, rfl, rfl, rfl, rfl⟩

/-! ### Posts of the host (R157, R175) -/

/-- A host post reports its status, and leaves the weirs and the other registers as the post does. -/
theorem State.postHost_shows {s t : State} {n st : Nat} {d : Nat → Word} (h : s.post n d = (st, t)) :
    (s.postHost n d).fld (POST_RESULT n) 3 0 = st % 16 ∧ (s.postHost n d).weir n = t.weir n ∧
      ∀ a, a ≠ POST_RESULT n → (s.postHost n d).reg a = t.reg a := by
  unfold State.postHost
  rw [h]
  dsimp only
  refine ⟨?_, State.weir_setReg .., fun a ha => State.reg_setReg_ne _ _ ha⟩
  rw [State.fld, State.reg_setReg_self]
  exact bitsOf_setBits_self _ 3 0 st (by decide)

/-- Different registers of a weir's block. -/
theorem weirReg_ne {a b : Nat} (hab : a ≠ b) (n : Nat) : a + n * 0x100000 ≠ b + n * 0x100000 := by omega

theorem State.postHost_refused {s : State} {d : Nat → Word} (n : Nat) (h0 : s.postCheck d ≠ 0) (h8 : s.postCheck d ≠ 8) :
    (s.postHost n d).fld (POST_RESULT n) 3 0 = s.postCheck d ∧
      (s.postHost n d).reg (POST_REFUSED_CNT n) = satInc (s.reg (POST_REFUSED_CNT n)) ∧
      ((s.postHost n d).weir n).slots = (s.weir n).slots ∧ ((s.postHost n d).weir n).ledger = (s.weir n).ledger := by
  have hne : POST_REFUSED_CNT n ≠ POST_RESULT n := weirReg_ne (by decide) n
  obtain ⟨hst, hweir, hreg⟩ := State.postHost_shows (State.post_refused n h0 h8)
  rw [hst, hweir, hreg _ hne, Nat.mod_eq_of_lt (s.postCheck_lt d), State.reg_satCount_self, State.weir_satCount,
    State.notePost, State.weir_setWeir_self]
  exact ⟨rfl, rfl, rfl, rfl⟩

theorem State.postHost_zero {s : State} {d : Nat → Word} (n : Nat) (h : s.postCheck d = 8) :
    (s.postHost n d).fld (POST_RESULT n) 3 0 = 8 ∧ ((s.postHost n d).weir n).slots = (s.weir n).slots ∧
      ((s.postHost n d).weir n).ledger =
        { (s.weir n).ledger with accepted := (s.weir n).ledger.accepted + 1, zero := (s.weir n).ledger.zero + 1 } := by
  obtain ⟨hst, hweir, -⟩ := State.postHost_shows (State.post_zero n h)
  rw [hst, hweir, State.weir_setWeir_self, State.notePost, State.weir_setWeir_self]
  exact ⟨rfl, rfl, rfl⟩

theorem State.postHost_full {s : State} {d : Nat → Word} {n : Nat} (h : s.postCheck d = 0) (hf : (s.weir n).freeSlot s.mt = none) :
    (s.postHost n d).fld (POST_RESULT n) 3 0 = 1 ∧
      (s.postHost n d).reg (WEIR_FULL_CNT n) = satInc (s.reg (WEIR_FULL_CNT n)) ∧
      ((s.postHost n d).weir n).slots = (s.weir n).slots ∧ ((s.postHost n d).weir n).ledger = (s.weir n).ledger := by
  have hne : WEIR_FULL_CNT n ≠ POST_RESULT n := weirReg_ne (by decide) n
  obtain ⟨hst, hweir, hreg⟩ := State.postHost_shows (State.post_full h hf)
  rw [hst, hweir, hreg _ hne, State.reg_weirEvent, State.reg_satCount_self, State.weir_weirEvent,
    State.weir_satCount, State.notePost, State.weir_setWeir_self]
  exact ⟨rfl, rfl, rfl, rfl⟩

theorem State.postHost_accepted {s : State} {d : Nat → Word} {n i : Nat} (h : s.postCheck d = 0)
    (hf : (s.weir n).freeSlot s.mt = some i) :
    (s.postHost n d).fld (POST_RESULT n) 3 0 = 0 ∧ ((s.postHost n d).weir n).slot? i = some ((s.notePost n).eventOf n d) ∧
      ((s.postHost n d).weir n).ledger = { (s.weir n).ledger with accepted := (s.weir n).ledger.accepted + 1 } ∧
      ∀ j, j ≠ i → ((s.postHost n d).weir n).slot? j = (s.weir n).slot? j := by
  obtain ⟨hst, hweir, -⟩ := State.postHost_shows (State.post_accepted h hf)
  rw [hst, hweir, State.weir_setWeir_self]
  refine ⟨rfl, Weir.slot?_putSlot_self _ _ _, rfl, fun j hj => ?_⟩
  rw [Weir.slot?_putSlot_ne _ _ hj, State.notePost, State.weir_setWeir_self]
  rfl

/-! ### POST_GO -/

theorem exec_postGo {s : State} (n : Fin 24) {v : Word} (ha : s.accepts (POST_GO n) v) :
    exec (.postGo n v) s = .next ((s.noteHost (POST_GO n)).postGo n v) := congrArg Host.Outcome.next (s.hostWrite_accepts _ ha)

/-- The first GO of a tick posts at once. -/
theorem exec_postGo_free {s : State} (n : Fin 24) {v : Word} (ha : s.accepts (POST_GO n) v) (hv : v.getLsbD 0 = true)
    (hf : s.postFree n = true) :
    exec (.postGo n v) s = .next ((s.noteHost (POST_GO n)).postHost n (fun j => s.reg (POST_W n j))) := by
  have hfree : (s.noteHost (POST_GO n)).postFree n = true := hf
  rw [exec_postGo n ha, State.postGo, if_pos hv, if_pos hfree]
  rfl

/-- A further GO of a tick waits. -/
theorem exec_postGo_waits {s : State} (n : Fin 24) {v : Word} (ha : s.accepts (POST_GO n) v) (hv : v.getLsbD 0 = true)
    (hf : s.postFree n = false) :
    exec (.postGo n v) s = .next ((s.noteHost (POST_GO n)).postLater n { words := [], thread := none, first := false }) := by
  have hfree : ¬(s.noteHost (POST_GO n)).postFree n = true := Bool.eq_false_iff.1 hf
  rw [exec_postGo n ha, State.postGo, if_pos hv, if_neg hfree]

/-- The oldest waiting post, when it is the host's, commits with the words that its registers now hold. -/
theorem State.postNext_host {s : State} {n : Nat} {p : WaitingPost} {rest : List WaitingPost} (hp : (s.weir n).posts = p :: rest)
    (ht : p.thread = none) :
    s.postNext n = (s.setWeir n { s.weir n with posts := rest }).postHost n (fun j => s.reg (POST_W n j)) := by
  simp only [State.postNext, hp, ht, State.reg_setWeir]

end Sys2Proof.Machine

namespace Sys2Proof.Proofs

open Sys2Proof.Machine Sys2Proof.Machine.Reg

/-- Settles O24: a post refused, of zero duration, that meets a full weir and that is accepted; then the posts that wait, and a write
without GO. -/
theorem postsAreAcceptedOrRefused : Obligations.PostsAreAcceptedOrRefused := by
  refine ⟨fun n v s ha hv hf h0 h8 => ⟨_, exec_postGo_free n ha hv hf, State.postHost_refused n h0 h8⟩,
    fun n v s ha hv hf h => ⟨_, exec_postGo_free n ha hv hf, State.postHost_zero n h⟩,
    fun n v s ha hv hf h hfull => ⟨_, exec_postGo_free n ha hv hf, State.postHost_full h hfull⟩,
    fun n v s i ha hv hf h hi => ?_, fun n v s ha hv hf => exec_postGo_waits n ha hv hf,
    fun n s p rest hp ht => State.postNext_host hp ht, fun n v s ha hv => ?_⟩
  · obtain ⟨hst, hslot, hledger, hother⟩ :=
      State.postHost_accepted (s := s.noteHost (POST_GO n)) (d := fun j => s.reg (POST_W n j)) h hi
    obtain ⟨hw0, harg, hins, hstart, hcommit⟩ :=
      ((s.noteHost (POST_GO n)).notePost n).eventOf_shows n (fun j => s.reg (POST_W n j))
    exact ⟨_, _, exec_postGo_free n ha hv hf, hst, hslot, hw0, harg, hins, hstart, hcommit, hledger, hother⟩
  · rw [exec_postGo n ha, State.postGo, if_neg (by rw [bitOf, hv]; exact Bool.false_ne_true)]

end Sys2Proof.Proofs
end

section
/-!
PROOFS. Dispatch of a weir's events (R154, R155, R160 to R162, R164): what the policy of a missed start comes to, what an action leaves of
its weir, the outcomes of a start and of an end, then the statement about them.
-/

namespace Sys2Proof.Machine

open Reg

/-! ### A start and its place (R164) -/

theorem State.placed_in_time {s : State} {h : Tick} {e : Slot} (hs : s.earlier e.s (startPlace h) = false) : s.placed h e = some e := by
  simp [State.placed, hs]

theorem State.placed_late {s : State} {h : Tick} {e : Slot} (hs : s.earlier e.s (startPlace h) = true) (hd : e.durationFixed = true)
    (he : s.earlier (startPlace h) e.e = true) :
    s.placed h e = some { e with s := startPlace h, e := startPlace h + e.dur.zeroExtend 64, plan := .late } := by
  simp [State.placed, hs, hd, he]

/-- An event of fixed duration that would have ended is dropped. -/
theorem State.placed_ended {s : State} {h : Tick} {e : Slot} (hs : s.earlier e.s (startPlace h) = true) (hd : e.durationFixed = true)
    (he : s.earlier (startPlace h) e.e = false) : s.placed h e = none := by
  simp [State.placed, hs, hd, he]

theorem State.placed_shortened {s : State} {h : Tick} {e : Slot} (hs : s.earlier e.s (startPlace h) = true) (hd : e.durationFixed = false)
    (he : s.earlier e.e (startPlace h + 256) = false) : s.placed h e = some { e with s := startPlace h, plan := .shortened } := by
  simp only [State.placed, hs, hd, he, Bool.not_true, Bool.false_eq_true, if_false]

/-- An event of which less than 256 fine steps would be left is dropped. -/
theorem State.placed_spent {s : State} {h : Tick} {e : Slot} (hs : s.earlier e.s (startPlace h) = true) (hd : e.durationFixed = false)
    (he : s.earlier e.e (startPlace h + 256) = true) : s.placed h e = none := by
  simp only [State.placed, hs, hd, he, Bool.not_true, Bool.false_eq_true, if_false, if_true]

/-- Where a start is placed depends on the state through its tick alone. -/
theorem State.placed_congr {s t : State} (hm : t.mt = s.mt) (h : Tick) (e : Slot) : t.placed h e = s.placed h e := by
  have hearlier (a b : Stamp) : t.earlier a b = s.earlier a b := by rw [State.earlier, State.now, hm]; rfl
  simp only [State.placed, hearlier]

/-! ### What an action leaves of its weir -/

/-- `t` stands in the tick of `s`, and its weir `n` differs at most in the actions that are due in later ticks. -/
structure KeepsWeir (n : Nat) (s t : State) : Prop where
  mt : t.mt = s.mt
  weir : ∃ l, t.weir n = { s.weir n with due := l }

namespace KeepsWeir

variable {n : Nat} {r s t : State}

/-- An update of other fields. -/
theorem of_eq (hm : t.mt = s.mt) (hw : t.weirs = s.weirs) : KeepsWeir n s t := ⟨hm, (s.weir n).due, by rw [State.weir, hw]; rfl⟩

theorem refl (s : State) : KeepsWeir n s s := of_eq rfl rfl

theorem setReg (h : KeepsWeir n r s) (a : Nat) (v : Word) : KeepsWeir n r (s.setReg a v) := ⟨h.mt, h.weir⟩

theorem setBit (h : KeepsWeir n r s) (a i : Nat) (b : Bool) : KeepsWeir n r (s.setBit a i b) := h.setReg a _

theorem raise (h : KeepsWeir n r s) (a i : Nat) : KeepsWeir n r (s.raise a i) := ⟨h.mt, h.weir⟩

theorem setChan (h : KeepsWeir n r s) (k : Nat) (c : Chan) : KeepsWeir n r (s.setChan k c) := ⟨h.mt, h.weir⟩

theorem ite {c : Prop} [Decidable c] (h : KeepsWeir n r s) (h' : KeepsWeir n r t) : KeepsWeir n r (if c then s else t) := by
  split <;> assumption

theorem chanEvent (h : KeepsWeir n r s) (k e : Nat) : KeepsWeir n r (s.chanEvent k e) := ite ⟨h.mt, h.weir⟩ h

theorem ledger (h : KeepsWeir n s t) : (t.weir n).ledger = (s.weir n).ledger := by
  obtain ⟨l, hl⟩ := h.weir
  rw [hl]

theorem dispatched (h : KeepsWeir n s t) (u : Tick) : (t.weir n).dispatched u = (s.weir n).dispatched u := by
  obtain ⟨l, hl⟩ := h.weir
  rw [hl]
  rfl

end KeepsWeir

theorem State.weirDue_keepsWeir (s : State) (n : Nat) (u : Tick) (a : DueAct) : KeepsWeir n s (s.weirDue n u a) :=
  ⟨rfl, _, State.weir_setWeir_self ..⟩

theorem State.eventLevel_keepsWeir (s : State) (n k : Nat) (st : Stamp) (lvl : Bool) : KeepsWeir n s (s.eventLevel k st lvl) :=
  .ite (.refl s) (((KeepsWeir.refl s).setChan k _).setBit _ 1 false)

theorem State.trainBegin_keepsWeir (s : State) (n k : Nat) (due : Tick) (fine : Option (BitVec 6)) :
    KeepsWeir n s (s.trainBegin k due fine) := by
  cases h : s.startOk k with
  | true =>
    have hstart := ((KeepsWeir.refl (n := n) s).setReg (PT_EMIT k) 0).setChan k (s.trainChan k due fine)
    rw [State.trainBegin_accepted h]
    exact .ite hstart (hstart.setBit _ 0 true)
  | false =>
    rw [State.trainBegin_refused h]
    exact ((KeepsWeir.refl s).raise _ 3).chanEvent k 2

theorem State.startAction_keepsWeir (s : State) (n seq : Nat) (e : Slot) : KeepsWeir n s (s.startAction n seq e).1 := by
  unfold State.startAction
  dsimp only
  split
  · split
    · exact s.eventLevel_keepsWeir ..
    · exact .refl s
  · exact .refl s
  · exact s.trainBegin_keepsWeir ..
  · exact s.weirDue_keepsWeir ..
  · exact .of_eq rfl rfl
  · exact s.weirDue_keepsWeir ..

theorem State.endAction_keepsWeir (s : State) (n : Nat) (e : Slot) (st : Stamp) : KeepsWeir n s (s.endAction n e st) := by
  unfold State.endAction
  dsimp only
  split
  · exact .ite (s.eventLevel_keepsWeir ..) (.refl s)
  · exact .ite (s.eventLevel_keepsWeir ..) (.refl s)
  · exact .ite (s.weirDue_keepsWeir ..) (.refl s)
  · exact .ite (s.weirDue_keepsWeir ..) (.refl s)
  · exact .refl s

/-! ### Actions that the channel takes or refuses (R155) -/

/-- PULSE and EDGE need an output that takes events, TRAIN a channel that can start; the other actions are not refused. -/
theorem State.startAction_taken {s : State} {n : Nat} (seq : Nat) {e : Slot} (hev : e.action < 2 → s.eventOk (n * 16 + e.ch) = true)
    (htr : e.action = 2 → s.startOk (n * 16 + e.ch) = true) : (s.startAction n seq e).2 = true := by
  unfold State.startAction
  dsimp only
  split
  · next h => rw [if_pos (hev (by omega))]
  · next h => exact hev (by omega)
  · next h => exact htr h
  all_goals rfl

theorem State.startAction_refused {s : State} {n : Nat} (seq : Nat) {e : Slot} (ha : e.action < 2)
    (hev : s.eventOk (n * 16 + e.ch) = false) : s.startAction n seq e = (s, false) := by
  have hcases : e.action = 0 ∨ e.action = 1 := by omega
  rcases hcases with h | h <;> simp [State.startAction, h, hev]

/-! ### The count of a dispatch (R161) -/

/-- One more action of weir `n` is dispatched in the present tick. -/
def State.countDispatch (s : State) (n : Nat) : State :=
  let w := s.weir n
  let c := w.dispatched s.mt + 1
  s.setWeir n { w with dispTick := s.mt, dispCount := c, fullTick := if c = 32 then some s.mt else w.fullTick }

/-- One that the ceiling delayed counts in CONGEST_CNT too. -/
theorem State.noteDispatch_cases (s : State) (n : Nat) (due : Tick) :
    s.noteDispatch n due = ((s.countDispatch n).satCount (CONGEST_CNT n)).weirEvent n 3 ∨ s.noteDispatch n due = s.countDispatch n := by
  unfold State.noteDispatch State.countDispatch
  exact ite_eq_or_eq _ _ _

theorem State.mt_weirEvent (s : State) (n e : Nat) : (s.weirEvent n e).mt = s.mt := by
  unfold State.weirEvent State.deliverIf
  split <;> rfl

theorem State.noteDispatch_mt (s : State) (n : Nat) (due : Tick) : (s.noteDispatch n due).mt = s.mt := by
  have hcount : (s.countDispatch n).mt = s.mt := State.setWeir_mt ..
  rcases s.noteDispatch_cases n due with h | h <;> rw [h]
  · rw [State.mt_weirEvent, State.satCount_mt, hcount]
  · exact hcount

theorem State.weir_noteDispatch (s : State) (n : Nat) (due : Tick) : (s.noteDispatch n due).weir n = (s.countDispatch n).weir n := by
  rcases s.noteDispatch_cases n due with h | h <;> rw [h]
  rw [State.weir_weirEvent, State.weir_satCount]

theorem State.ledger_noteDispatch (s : State) (n : Nat) (due : Tick) : ((s.noteDispatch n due).weir n).ledger = (s.weir n).ledger := by
  rw [s.weir_noteDispatch, State.countDispatch, State.weir_setWeir_self]

theorem State.dispatched_noteDispatch (s : State) (n : Nat) (due : Tick) :
    ((s.noteDispatch n due).weir n).dispatched s.mt = (s.weir n).dispatched s.mt + 1 := by
  rw [s.weir_noteDispatch, State.countDispatch, State.weir_setWeir_self]
  exact if_pos rfl

theorem State.reg_noteDispatch_ne (s : State) {n a : Nat} (due : Tick) (ha : a ≠ CONGEST_CNT n) :
    (s.noteDispatch n due).reg a = s.reg a := by
  have hcount : (s.countDispatch n).reg a = s.reg a := State.reg_setWeir ..
  rcases s.noteDispatch_cases n due with h | h <;> rw [h]
  · rw [State.reg_weirEvent, State.reg_satCount_ne _ ha, hcount]
  · exact hcount

/-- No register of a channel is CONGEST_CNT. -/
theorem chanReg_ne_congest (k n : Nat) {o : Nat} (ho : o < 0x400) : CH_CTRL k + o ≠ CONGEST_CNT n := by
  unfold CH_CTRL CONGEST_CNT
  omega

/-- The registers of the channels stand. -/
theorem State.chanReg_noteDispatch (s : State) (n : Nat) (due : Tick) (k : Nat) {o : Nat} (ho : o < 0x400) :
    (s.noteDispatch n due).reg (CH_CTRL k + o) = s.reg (CH_CTRL k + o) := s.reg_noteDispatch_ne due (chanReg_ne_congest k n ho)

theorem State.outMode_noteDispatch (s : State) (n : Nat) (due : Tick) (k : Nat) : (s.noteDispatch n due).outMode k = s.outMode k := by
  simp only [State.outMode, State.fld, OUT_CTRL_eq, s.chanReg_noteDispatch n due k (show 0x60 < 0x400 by decide)]

/-- What decides whether a channel takes PULSE and EDGE stands. -/
theorem State.eventOk_noteDispatch (s : State) (n : Nat) (due : Tick) (k : Nat) : (s.noteDispatch n due).eventOk k = s.eventOk k := by
  have hpair : (s.noteDispatch n due).reg (CH_CTRL (k / 2 * 2)) = s.reg (CH_CTRL (k / 2 * 2)) :=
    s.chanReg_noteDispatch n due _ (show 0 < 0x400 by decide)
  simp only [State.eventOk, State.outMode_noteDispatch, State.ownOutput, State.inPair, State.pairMode, State.fld, hpair]

/-- What decides whether a channel takes a START stands. -/
theorem State.startOk_noteDispatch (s : State) (n : Nat) (due : Tick) (k : Nat) : (s.noteDispatch n due).startOk k = s.startOk k := by
  have hctrl : (s.noteDispatch n due).reg (CH_CTRL k) = s.reg (CH_CTRL k) := s.chanReg_noteDispatch n due k (show 0 < 0x400 by decide)
  have hperiod := s.chanReg_noteDispatch n due k (show 0x14 < 0x400 by decide)
  have htrain := s.chanReg_noteDispatch n due k (show 0x94 < 0x400 by decide)
  simp only [State.startOk, State.outMode_noteDispatch, State.running, State.trainActive, State.bit, hctrl, PERIOD_ACT_eq, PT_STATUS_eq,
    hperiod, htrain]

/-! ### START_DISPATCH -/

section
variable {s : State} {n i : Nat} {e : Slot} (hd : s.canDispatch n = true) (hh : s.dueHead n = some (i, e))
include hd hh

theorem State.startDispatch_missed (hs : e.started = false) (hp : s.placed s.mt e = none) :
    s.startDispatch n = (s.noteDispatch n (s.dispatchTick e.s)).retire n i .droppedPast := by
  simp [State.startDispatch, hh, hs, hd, State.noteDispatch_mt, State.placed_congr (s.noteDispatch_mt n _), hp]

theorem State.startDispatch_placed (hs : e.started = false) {e' : Slot} (hp : s.placed s.mt e = some e') :
    s.startDispatch n =
      let r := (s.noteDispatch n (s.dispatchTick e.s)).startAction n ((s.weir n).dispatched s.mt) e'
      if r.2 then r.1.putSlot n i { e' with started := true, rekey := false }
      else (r.1.satCount (ACT_REFUSED_CNT n)).retire n i .cancelled := by
  simp [State.startDispatch, hh, hs, hd, State.noteDispatch_mt, State.placed_congr (s.noteDispatch_mt n _), hp]

/-- The start action is done, and its event runs. -/
theorem State.startDispatch_taken (hs : e.started = false) {e' : Slot} (hp : s.placed s.mt e = some e')
    (hev : e'.action < 2 → s.eventOk (n * 16 + e'.ch) = true) (htr : e'.action = 2 → s.startOk (n * 16 + e'.ch) = true) :
    s.startDispatch n =
      ((s.noteDispatch n (s.dispatchTick e.s)).startAction n ((s.weir n).dispatched s.mt) e').1.putSlot n i
        { e' with started := true, rekey := false } := by
  rw [State.startDispatch_placed hd hh hs hp]
  exact if_pos (State.startAction_taken _ (fun ha => (s.eventOk_noteDispatch ..).trans (hev ha))
    (fun ha => (s.startOk_noteDispatch ..).trans (htr ha)))

/-- The channel refuses PULSE or EDGE. -/
theorem State.startDispatch_refused (hs : e.started = false) {e' : Slot} (hp : s.placed s.mt e = some e') (ha : e'.action < 2)
    (hev : s.eventOk (n * 16 + e'.ch) = false) :
    s.startDispatch n = ((s.noteDispatch n (s.dispatchTick e.s)).satCount (ACT_REFUSED_CNT n)).retire n i .cancelled := by
  rw [State.startDispatch_placed hd hh hs hp, State.startAction_refused _ ha ((s.eventOk_noteDispatch ..).trans hev)]
  rfl

/-! ### END_DISPATCH -/

/-- The stamp at which the end action is commanded, and the outcome of the event (R161, R162). -/
theorem State.endDispatch_started (hs : e.started = true) :
    s.endDispatch n =
      if s.dispatchTick e.e = s.mt then ((s.noteDispatch n (s.dispatchTick e.e)).endAction n e e.e).retire n i e.plan
      else ((s.noteDispatch n (s.dispatchTick e.e)).endAction n e (startPlace s.mt)).retire n i .late := by
  simp [State.endDispatch, hh, hs, hd, State.noteDispatch_mt]

end

theorem exec_startDispatch {s : State} (n : Fin 24) (hc : s.clocked) : exec (.startDispatch n) s = .next (s.startDispatch n) :=
  congrArg Host.Outcome.next (s.onTclk_clocked _ hc)

theorem exec_endDispatch {s : State} (n : Fin 24) (hc : s.clocked) : exec (.endDispatch n) s = .next (s.endDispatch n) :=
  congrArg Host.Outcome.next (s.onTclk_clocked _ hc)

end Sys2Proof.Machine

namespace Sys2Proof.Proofs

open Sys2Proof.Machine Sys2Proof.Machine.Reg

/-- Settles O26: the policies of a missed start; then a start that is taken, missed and refused, and an end. -/
theorem dueEventsAreDispatchedOrMissed : Obligations.DueEventsAreDispatchedOrMissed := by
  refine ⟨fun s h e => ⟨State.placed_in_time, State.placed_late, State.placed_ended, State.placed_shortened, State.placed_spent⟩,
    fun n s i e e' hc hd hh hs hp hev htr => ⟨_, exec_startDispatch n hc, ?_⟩,
    fun n s i e hc hd hh hs hp => ⟨_, exec_startDispatch n hc, ?_⟩,
    fun n s i e e' hc hd hh hs hp ha hev => ⟨_, exec_startDispatch n hc, ?_⟩,
    fun n s i e hc hd hh hs => ⟨_, exec_endDispatch n hc, ?_⟩⟩
  · have hkeep := (s.noteDispatch n (s.dispatchTick e.s)).startAction_keepsWeir n ((s.weir n).dispatched s.mt) e'
    have hmt := hkeep.mt.trans (s.noteDispatch_mt n _)
    rw [State.startDispatch_taken hd hh hs hp hev htr, State.weir_putSlot]
    refine ⟨Weir.slot?_putSlot_self .., ?_, hkeep.ledger.trans (s.ledger_noteDispatch n _)⟩
    rw [State.putSlot, State.setWeir_mt, hmt]
    exact (hkeep.dispatched s.mt).trans (s.dispatched_noteDispatch n _)
  · rw [State.startDispatch_missed hd hh hs hp, ← s.ledger_noteDispatch n (s.dispatchTick e.s)]
    exact State.retire_shows ..
  · have hreg : (s.noteDispatch n (s.dispatchTick e.s)).reg (ACT_REFUSED_CNT n) = s.reg (ACT_REFUSED_CNT n) :=
      s.reg_noteDispatch_ne _ (weirReg_ne (by decide) n)
    rw [State.startDispatch_refused hd hh hs hp ha hev, ← s.ledger_noteDispatch n (s.dispatchTick e.s), ← hreg]
    obtain ⟨hslot, hledger⟩ :=
      ((s.noteDispatch n (s.dispatchTick e.s)).satCount (ACT_REFUSED_CNT n)).retire_shows n i .cancelled
    rw [State.weir_satCount] at hledger
    exact ⟨hslot, (State.reg_retire ..).trans (State.reg_satCount_self ..), hledger⟩
  · have hkeep (st : Stamp) := (s.noteDispatch n (s.dispatchTick e.e)).endAction_keepsWeir n e st
    rw [State.endDispatch_started hd hh hs, ← s.ledger_noteDispatch n (s.dispatchTick e.e)]
    split
    · rw [← (hkeep e.e).ledger]
      exact State.retire_shows ..
    · rw [← (hkeep (startPlace s.mt)).ledger]
      exact State.retire_shows ..

end Sys2Proof.Proofs
end

section
/-!
PROOFS. Retirement after a loss, cancels, and the ledger's snapshot of a weir (R169, R172, R174): what each operation does to the weir, then
the statement about them.
-/

namespace Sys2Proof.Machine

open Reg

/-! ### The pass after a loss (R169) -/

theorem exec_droppedSyncRetire {s : State} (n : Fin 24) (i : Fin 256) {e : Slot} (hc : s.clocked) (he : (s.weir n).slot? i = some e)
    (hd : e.dropSync = true) (hs : e.started = false) : exec (.droppedSyncRetire n i) s = .next (s.retire n i .droppedSync) := by
  show Host.Outcome.next (s.onTclk (s.droppedSync n i)) = _
  rw [State.onTclk_clocked _ _ hc]
  simp only [State.droppedSync, he, hd, hs, Bool.not_false, Bool.and_self, if_true]

/-! ### Cancels (R172) -/

theorem exec_cancelGo {s : State} (n : Fin 24) {v : Word} (ha : s.accepts (CANCEL_GO n) v) (hv : v.getLsbD 0 = true) :
    exec (.cancelGo n v) s = .next ((s.noteHost (CANCEL_GO n)).cancel n (BitVec.ofNat 12 (s.fld (CANCEL_SEL n) 11 0))
      (BitVec.ofNat 12 (s.fld (CANCEL_SEL n) 27 16)) none true) :=
  congrArg Host.Outcome.next ((s.hostWrite_accepts _ ha).trans (if_pos hv))

/-- The cancel that a commit in the present tick adds to a weir. -/
def State.newCancel (s : State) (n : Nat) (tag mask : BitVec 12) (thread : Option Nat) (host : Bool) : Cancel :=
  { tag := tag, mask := mask, thread := thread, host := host, start := s.mt, before := (s.weir n).order,
    left := (s.weir n).slots.map Prod.fst, count := 0 }

theorem State.weir_cancel (s : State) (n : Nat) (tag mask : BitVec 12) (thread : Option Nat) (host : Bool) :
    (s.cancel n tag mask thread host).weir n =
      { s.weir n with cancels := (s.weir n).cancels ++ [s.newCancel n tag mask thread host] } := by
  unfold State.cancel
  dsimp only
  split
  · rw [State.weir_setBit, State.weir_setWeir_self]
    rfl
  · exact State.weir_setWeir_self ..

/-- A cancel of the host shows BUSY. -/
theorem State.busy_cancel (s : State) (n : Nat) (tag mask : BitVec 12) (thread : Option Nat) :
    (s.cancel n tag mask thread true).bit (CANCEL_RESULT n) 31 = true := State.bit_setBit_self _ _ _ _ (by decide)

theorem State.weir_cancelEnd (s : State) (n : Nat) (c : Cancel) :
    (s.cancelEnd n c).weir n = { s.weir n with cancels := (s.weir n).cancels.tail } := by
  unfold State.cancelEnd
  dsimp only
  split
  · rw [State.weir_setReg, State.weir_setWeir_self]
  · exact State.weir_setWeir_self ..

/-- A visit that selects the event of its slot retires it; beside that only the account of the cancels changes. -/
theorem State.weir_cancelPass {s : State} {n i : Nat} {c : Cancel} {rest : List Cancel} {e : Slot} (hcs : (s.weir n).cancels = c :: rest)
    (hr : s.reached (c.start + 1) = true) (hat : (s.weir n).cancelAt ≠ some s.mt) (he : (s.weir n).slot? i = some e) (hi : i ∈ c.left)
    (ho : e.order < c.before) (hs : e.started = false) (ht : e.tag &&& c.mask = c.tag &&& c.mask) :
    ∃ cs, (s.cancelPass n i).weir n = { (s.weir n).retire s.mt i .cancelled with cancels := cs, cancelAt := some s.mt } := by
  have hmt : (s.retire n i .cancelled).mt = s.mt := rfl
  simp only [State.cancelPass, hcs, hr, beq_false_of_ne hat, he, List.contains_iff_mem.2 hi, decide_eq_true ho, hs, beq_of_eq ht,
    Bool.not_true, Bool.not_false, Bool.and_self, Bool.or_self, Bool.false_eq_true, if_false, if_true, hmt]
  split
  · rw [State.weir_cancelEnd, State.weir_setWeir_self, State.weir_retire]
    exact ⟨_, rfl⟩
  · rw [State.weir_setWeir_self, State.weir_retire]
    exact ⟨_, rfl⟩

theorem exec_cancelPass {s : State} (n : Fin 24) (i : Fin 256) (hc : s.clocked) :
    exec (.cancelPass n i) s = .next (s.cancelPass n i) := congrArg Host.Outcome.next (s.onTclk_clocked _ hc)

/-! ### The ledger's snapshot (R173, R174) -/

theorem exec_ledgerTake {s : State} (n : Fin 24) {v : Word} (ha : s.accepts (LEDGER_TAKE n) v) (hv : v.getLsbD 0 = true) :
    exec (.ledgerTake n v) s = .next ((s.noteHost (LEDGER_TAKE n)).noteTake (.weir n)) :=
  congrArg Host.Outcome.next ((s.hostWrite_accepts _ ha).trans (if_pos hv))

/-- The capture of a weir does not wait for the end of the BCLK cycle. -/
theorem State.runTakes_weir {s : State} {n : Nat} (ht : s.takes = [.weir n]) :
    s.runTakes = ({ s with takes := [] } : State).takeWeir n := by
  simp [State.runTakes, ht, Take.late, State.runTake]

/-- The counters of ledger `l` in the snapshot registers of weir `n`. -/
def State.layLedger (s : State) (n : Nat) (l : WeirLedger) : State :=
  (((((((s.setPair (SNAP_ACCEPTED_LO n) (SNAP_ACCEPTED_HI n) l.accepted).setPair (SNAP_COMPLETED_LO n) (SNAP_COMPLETED_HI n)
    l.completed).setPair (SNAP_LATE_LO n) (SNAP_LATE_HI n) l.late).setPair (SNAP_SHORTENED_LO n) (SNAP_SHORTENED_HI n)
    l.shortened).setPair (SNAP_DROP_PAST_LO n) (SNAP_DROP_PAST_HI n) l.droppedPast).setPair (SNAP_DROP_SYNC_LO n) (SNAP_DROP_SYNC_HI n)
    l.droppedSync).setPair (SNAP_CANCELLED_LO n) (SNAP_CANCELLED_HI n) l.cancelled).setPair (SNAP_ZERO_LO n) (SNAP_ZERO_HI n) l.zero

/-- What a snapshot writes after the counters: PENDING, the machine time, and LEDGER_SEQ. -/
def State.layPending (s : State) (n : Nat) (pending : Word) (mt : Tick) (seq : Word) : State :=
  ((s.setReg (SNAP_PENDING n) pending).setPair (WEIR_SNAP_MT_LO n) (WEIR_SNAP_MT_HI n) mt).setReg (LEDGER_SEQ n) seq

theorem State.weirs_layLedger (s : State) (n : Nat) (l : WeirLedger) : (s.layLedger n l).weirs = s.weirs := by
  rw [State.layLedger]
  iterate 8 rw [State.setPair_weirs]

theorem State.mt_layLedger (s : State) (n : Nat) (l : WeirLedger) : (s.layLedger n l).mt = s.mt := by
  rw [State.layLedger]
  iterate 8 rw [State.setPair_mt]

theorem State.weirs_layPending (s : State) (n : Nat) (pending : Word) (mt : Tick) (seq : Word) :
    (s.layPending n pending mt seq).weirs = s.weirs := by
  rw [State.layPending, State.setReg_weirs, State.setPair_weirs, State.setReg_weirs]

theorem State.takeWeir_eq (s : State) (n : Nat) :
    ∃ seq, s.takeWeir n =
      (s.layLedger n (s.weir n).ledger).layPending n (BitVec.ofNat 32 (s.weir n).slots.length) s.mt seq := by
  have hweir : (s.layLedger n (s.weir n).ledger).weir n = s.weir n := by rw [State.weir, State.weirs_layLedger, ← State.weir]
  unfold State.takeWeir
  dsimp only
  rw [← State.layLedger, State.setReg_mt, hweir, State.mt_layLedger]
  exact ⟨_, rfl⟩

/-- The registers of a snapshot are different registers. -/
theorem State.laySnapshot_shows (s : State) (n : Nat) (l : WeirLedger) (pending : Word) (mt : Tick) (seq : Word) :
    let t := (s.layLedger n l).layPending n pending mt seq
    t.pair (SNAP_ACCEPTED_LO n) (SNAP_ACCEPTED_HI n) = l.accepted ∧ t.pair (SNAP_COMPLETED_LO n) (SNAP_COMPLETED_HI n) = l.completed ∧
      t.pair (SNAP_LATE_LO n) (SNAP_LATE_HI n) = l.late ∧ t.pair (SNAP_SHORTENED_LO n) (SNAP_SHORTENED_HI n) = l.shortened ∧
      t.pair (SNAP_DROP_PAST_LO n) (SNAP_DROP_PAST_HI n) = l.droppedPast ∧
      t.pair (SNAP_DROP_SYNC_LO n) (SNAP_DROP_SYNC_HI n) = l.droppedSync ∧
      t.pair (SNAP_CANCELLED_LO n) (SNAP_CANCELLED_HI n) = l.cancelled ∧ t.pair (SNAP_ZERO_LO n) (SNAP_ZERO_HI n) = l.zero ∧
      t.reg (SNAP_PENDING n) = pending ∧ t.pair (WEIR_SNAP_MT_LO n) (WEIR_SNAP_MT_HI n) = mt := by
  refine ⟨?_, ?_, ?_, ?_, ?_, ?_, ?_, ?_, ?_, ?_⟩ <;>
    simp (disch := omega) only [State.layLedger, State.layPending, State.pair_setReg_ne, State.pair_setPair_ne, State.pair_setPair_self,
      State.reg_setPair_ne, State.reg_setReg_ne, State.reg_setReg_self, SNAP_ACCEPTED_LO, SNAP_ACCEPTED_HI, SNAP_COMPLETED_LO,
      SNAP_COMPLETED_HI, SNAP_LATE_LO, SNAP_LATE_HI, SNAP_SHORTENED_LO, SNAP_SHORTENED_HI, SNAP_DROP_PAST_LO, SNAP_DROP_PAST_HI,
      SNAP_DROP_SYNC_LO, SNAP_DROP_SYNC_HI, SNAP_CANCELLED_LO, SNAP_CANCELLED_HI, SNAP_ZERO_LO, SNAP_ZERO_HI, SNAP_PENDING,
      WEIR_SNAP_MT_LO, WEIR_SNAP_MT_HI, LEDGER_SEQ]

end Sys2Proof.Machine

namespace Sys2Proof.Proofs

open Sys2Proof.Machine Sys2Proof.Machine.Reg

/-- Settles O27: the pass after a loss, the commit of a cancel and a visit that selects, TAKE and what it captures. -/
theorem cancelsAndLossesRetireEvents : Obligations.CancelsAndLossesRetireEvents := by
  refine ⟨fun n i s e hc he hd hs => ⟨_, exec_droppedSyncRetire n i hc he hd hs, State.retire_shows ..⟩, fun n v s ha hv => ?_,
    fun n i s c rest e hc hcs hr hat he hi ho hs ht => ?_, fun n v s ha hv => exec_ledgerTake n ha hv, fun n s ht => ⟨_, rfl, ?_⟩⟩
  · have hweir := (s.noteHost (CANCEL_GO n)).weir_cancel n (BitVec.ofNat 12 (s.fld (CANCEL_SEL n) 11 0))
      (BitVec.ofNat 12 (s.fld (CANCEL_SEL n) 27 16)) none true
    refine ⟨_, (s.noteHost (CANCEL_GO n)).newCancel n _ _ none true, exec_cancelGo n ha hv, ?_, rfl, rfl, rfl, State.busy_cancel .., ?_⟩
    · rw [hweir]; rfl
    · rw [hweir]; rfl
  · obtain ⟨cs, hweir⟩ := State.weir_cancelPass hcs hr hat he hi ho hs ht
    refine ⟨_, exec_cancelPass n i hc, ?_⟩
    rw [hweir]
    exact ⟨Weir.slot?_retire_self (s.weir n) s.mt i .cancelled, rfl, fun j hj => Weir.slot?_retire_ne (s.weir n) s.mt .cancelled hj⟩
  · obtain ⟨seq, htake⟩ := ({ s with takes := [] } : State).takeWeir_eq n
    obtain ⟨hacc, hcomp, hlate, hshort, hpast, hsync, hcanc, hzero, hpend, hmt⟩ := ({ s with takes := [] } : State).laySnapshot_shows n
      (s.weir n).ledger (BitVec.ofNat 32 (s.weir n).slots.length) s.mt seq
    rw [State.runTakes_weir ht, htake]
    exact ⟨hacc, hcomp, hlate, hshort, hpast, hsync, hcanc, hzero, hpend, hmt,
      (State.weirs_layPending ..).trans (State.weirs_layLedger ..)⟩

end Sys2Proof.Proofs
end

section
/-!
PROOFS. Quadrature and the index (R177, R180, R181, R187 to R189): what an accepted edge, a resample and an index do to the count and to
the registers of their interface, then the statement about them.
-/

namespace Sys2Proof.Machine

open Reg

/-! ### What leaves the interfaces as they are -/

/-- The address is not one of the blocks QENC, AENC and SSI. -/
def besideFeedback (a : Nat) : Prop := a < 0x80000 ∨ 0x83000 ≤ a

/-- `t` has the interfaces of `s`, and the words of their register blocks. -/
structure KeepsFeedback (s t : State) : Prop where
  ifaces : t.ifaces = s.ifaces
  regs : ∀ a, ¬ besideFeedback a → t.reg a = s.reg a

namespace KeepsFeedback

variable {r s t : State}

/-- An update of other fields. -/
theorem of_eq (hi : t.ifaces = s.ifaces) (hr : t.regs = s.regs) : KeepsFeedback s t :=
  ⟨hi, fun a _ => by rw [State.reg, hr, State.reg]⟩

theorem refl (s : State) : KeepsFeedback s s := of_eq rfl rfl

theorem trans (h : KeepsFeedback r s) (h' : KeepsFeedback s t) : KeepsFeedback r t :=
  ⟨h'.ifaces.trans h.ifaces, fun a ha => (h'.regs a ha).trans (h.regs a ha)⟩

theorem ite {c : Prop} [Decidable c] (h : KeepsFeedback r s) (h' : KeepsFeedback r t) : KeepsFeedback r (if c then s else t) := by
  split <;> assumption

/-- A step that only some states take. -/
theorem iteSelf {c : Prop} [Decidable c] (h : KeepsFeedback s t) : KeepsFeedback s (if c then t else s) := ite h (refl s)

theorem foldl {α : Type} {f : State → α → State} (hf : ∀ s x, KeepsFeedback s (f s x)) (l : List α) (s : State) :
    KeepsFeedback s (l.foldl f s) := by
  induction l generalizing s with
  | nil => exact refl s
  | cons x l ih => exact (hf s x).trans (ih _)

theorem foldBelow {f : State → Nat → State} (hf : ∀ s x, KeepsFeedback s (f s x)) (n : Nat) (s : State) :
    KeepsFeedback s (foldBelow n f s) := foldl hf _ s

theorem setReg (s : State) {a : Nat} (v : Word) (ha : besideFeedback a) : KeepsFeedback s (s.setReg a v) :=
  ⟨rfl, fun _ hb => s.reg_setReg_ne v fun h => hb (h ▸ ha)⟩

theorem setPair (s : State) {a b : Nat} (v : BitVec 64) (ha : besideFeedback a) (hb : besideFeedback b) :
    KeepsFeedback s (s.setPair a b v) :=
  (setReg s _ ha).trans (setReg _ _ hb)

theorem raise (s : State) {a : Nat} (i : Nat) (ha : besideFeedback a) : KeepsFeedback s (s.raise a i) :=
  (setReg s _ ha).trans (of_eq rfl rfl)

theorem satCount (s : State) {a : Nat} (ha : besideFeedback a) : KeepsFeedback s (s.satCount a) :=
  (setReg s _ ha).trans (of_eq rfl rfl)

theorem deliverIf (s : State) (sel selBit source cause : Nat) : KeepsFeedback s (s.deliverIf sel selBit source cause) :=
  iteSelf (of_eq rfl rfl)

theorem iface (h : KeepsFeedback s t) (f : Nat) : t.iface f = s.iface f := by rw [State.iface, h.ifaces, State.iface]

end KeepsFeedback

/-! ### The weirs and the armed swap -/

theorem State.mapEvents_keepsFeedback (s : State) (f : Slot → Slot) : KeepsFeedback s (s.mapEvents f) := by
  unfold State.mapEvents
  refine .foldBelow (fun s _ => ?_) _ s
  exact .ite (.refl s) (.of_eq rfl rfl)

theorem State.retire_keepsFeedback (s : State) (n i : Nat) (o : Outcome) : KeepsFeedback s (s.retire n i o) := by
  refine ⟨?_, fun a _ => s.reg_retire n i o a⟩
  have hevent (t : State) (k : Nat) : (t.weirEvent n k).ifaces = t.ifaces := (KeepsFeedback.deliverIf t _ _ _ _).ifaces
  cases o with
  | droppedPast => exact hevent _ _
  | droppedSync => exact hevent _ _
  | _ => rfl

theorem State.eventLevel_keepsFeedback (s : State) (k : Nat) (st : Stamp) (lvl : Bool) : KeepsFeedback s (s.eventLevel k st lvl) := by
  have hout : besideFeedback (OUT_STATUS k) := by unfold besideFeedback OUT_STATUS; omega
  refine .ite (.refl s) (.trans ?_ (.setReg _ _ hout))
  exact .of_eq rfl rfl

theorem State.endAction_keepsFeedback (s : State) (n : Nat) (e : Slot) (st : Stamp) : KeepsFeedback s (s.endAction n e st) := by
  unfold State.endAction
  dsimp only
  split
  · exact .iteSelf (s.eventLevel_keepsFeedback _ _ _)
  · exact .iteSelf (s.eventLevel_keepsFeedback _ _ _)
  · exact .iteSelf (.of_eq rfl rfl)
  · exact .iteSelf (.of_eq rfl rfl)
  · exact .refl s

theorem State.abortSlot_keepsFeedback (s : State) (n i : Nat) (e : Slot) : KeepsFeedback s (s.abortSlot n i e) := by
  have hcnt : besideFeedback (STALL_ABORT_CNT n) := by unfold besideFeedback STALL_ABORT_CNT; omega
  unfold State.abortSlot
  exact ((KeepsFeedback.iteSelf (s.endAction_keepsFeedback _ _ _)).trans (.satCount _ hcnt)).trans (State.retire_keepsFeedback _ _ _ _)

theorem State.weirShaftLost_keepsFeedback (s : State) (h : Nat) (stopped : Bool) : KeepsFeedback s (s.weirShaftLost h stopped) := by
  unfold State.weirShaftLost
  refine (s.mapEvents_keepsFeedback _).trans (.foldBelow (fun s n => .foldl (fun s ie => ?_) _ s) 24 _)
  exact .iteSelf (s.abortSlot_keepsFeedback n ie.1 ie.2)

theorem State.swapShaftLost_keepsFeedback (s : State) (h : Nat) : KeepsFeedback s (s.swapShaftLost h) := by
  have hset (v : Word) : KeepsFeedback s (s.setReg SWAP_STATUS v) := .setReg s v (.inl (by decide))
  refine .iteSelf (.ite ?_ (hset _))
  exact (hset _).trans (.of_eq rfl rfl)

/-! ### The shafts on an interface (R145, R146) -/

/-- The registers of a shaft lie above those of the interfaces. -/
theorem besideFeedback_shaft (h : Nat) : besideFeedback (SH_STATUS h) ∧ besideFeedback (PRED_PERIOD h) ∧ besideFeedback (LOST_CNT h) ∧
    besideFeedback (JUMP_LO h) ∧ besideFeedback (JUMP_HI h) ∧ besideFeedback (JUMP_INFO h) := by
  unfold besideFeedback SH_STATUS PRED_PERIOD LOST_CNT JUMP_LO JUMP_HI JUMP_INFO
  omega

theorem State.holdAt_keepsFeedback (s : State) (h : Nat) (p : BitVec 64) : KeepsFeedback s (s.holdAt h p) := by
  obtain ⟨hstatus, hpred, -⟩ := besideFeedback_shaft h
  have hreport (t : State) : KeepsFeedback t (t.reportEstimate h) := (KeepsFeedback.setReg t _ hstatus).trans (.setReg _ _ hpred)
  refine .trans ?_ (hreport _)
  exact .of_eq rfl rfl

theorem State.enterState_keepsFeedback (s : State) (h st : Nat) : KeepsFeedback s (s.enterState h st) := by
  obtain ⟨hstatus, -, hcnt, -⟩ := besideFeedback_shaft h
  have hset (t : State) (v : Word) : KeepsFeedback t (t.setReg (SH_STATUS h) v) := .setReg t v hstatus
  have hevent (t : State) (k : Nat) : KeepsFeedback t (t.shaftEvent h k) := .deliverIf t _ _ _ _
  have hleft : KeepsFeedback s (s.leftSync h st) := .iteSelf ((hset s _).trans (State.holdAt_keepsFeedback _ h _))
  have hshow (t : State) : KeepsFeedback t (t.showState h st) :=
    (((hset t _).trans (.iteSelf (hset _ _))).trans (.iteSelf (hset _ _))).trans (.iteSelf ((KeepsFeedback.satCount _ hcnt).trans (hevent _ 2)))
  have htell (t : State) (b : Bool) : KeepsFeedback t (t.tellState h st b) := by
    refine .ite (hevent t 0) (.ite (hevent t 1) (.iteSelf (.trans ?_ (State.swapShaftLost_keepsFeedback _ h))))
    refine .trans ?_ (State.weirShaftLost_keepsFeedback _ h _)
    exact .of_eq rfl rfl
  rw [s.enterState_eq]
  exact .ite (.refl s) ((hleft.trans (hshow _)).trans (htell _ _))

/-- The registers of the compares lie above those of the interfaces. -/
theorem besideFeedback_compare (j : Nat) : besideFeedback (PC_STATUS j) ∧ besideFeedback (PC_POS_LO j) ∧ besideFeedback (PC_POS_HI j) ∧
    besideFeedback (PC_STAMP_LO j) ∧ besideFeedback (PC_STAMP_HI j) := by
  unfold besideFeedback PC_STATUS PC_POS_LO PC_POS_HI PC_STAMP_LO PC_STAMP_HI
  omega

theorem State.shaftJumped_keepsFeedback (s : State) (h : Nat) (p0 : BitVec 64) : KeepsFeedback s (s.shaftJumped h p0) := by
  unfold State.shaftJumped
  refine .foldBelow (fun s j => ?_) _ s
  refine .iteSelf (.ite (.of_eq rfl rfl) ?_)
  exact (KeepsFeedback.iteSelf (.raise s 2 (besideFeedback_compare j).1)).trans (.of_eq rfl rfl)

theorem State.jump_keepsFeedback (s : State) (h : Nat) (j : BitVec 64) (cause : Nat) : KeepsFeedback s (s.jump h j cause) := by
  obtain ⟨-, -, -, hlo, hhi, hinfo⟩ := besideFeedback_shaft h
  refine .trans ?_ (.deliverIf _ _ _ _ _)
  exact ((KeepsFeedback.setPair s j hlo hhi).trans (.setReg _ _ hinfo)).trans (.of_eq rfl rfl)

theorem State.encoderSync_keepsFeedback (s : State) (h : Nat) (c : Int) : KeepsFeedback s (s.encoderSync h c) := by
  unfold State.encoderSync
  extract_lets sh p f pos s1 p0 s2 c3 s3
  have h1 : KeepsFeedback s s1 := .iteSelf (s.jump_keepsFeedback h _ 1)
  have h2 : KeepsFeedback s1 s2 := (s1.holdAt_keepsFeedback h pos).trans (State.shaftJumped_keepsFeedback _ h p0)
  have h3 : KeepsFeedback s2 s3 := .of_eq rfl rfl
  exact ((h1.trans h2).trans h3).trans (s3.enterState_keepsFeedback h 3)

theorem State.encoderValid_keepsFeedback (s : State) (src i : Nat) (c : Int) : KeepsFeedback s (s.encoderValid src i c) :=
  .foldl (fun s h => .ite (.refl s) (s.encoderSync_keepsFeedback h c)) _ s

theorem State.encoderLost_keepsFeedback (s : State) (src i : Nat) : KeepsFeedback s (s.encoderLost src i) :=
  .foldl (fun s h => .iteSelf (s.enterState_keepsFeedback h 5)) _ s

theorem State.encoderIndex_keepsFeedback (s : State) (src i : Nat) (fault : Bool) : KeepsFeedback s (s.encoderIndex src i fault) :=
  .foldl (fun s h => .ite (.iteSelf (s.enterState_keepsFeedback h 4)) (.iteSelf (s.enterState_keepsFeedback h 3))) _ s

theorem State.encoderMove_keepsFeedback (s : State) (src i : Nat) (c0 : Int) (st0 : Stamp) (c1 : Int) (st1 : Stamp) (interpolate : Bool) :
    KeepsFeedback s (s.encoderMove src i c0 st0 c1 st1 interpolate) := by
  unfold State.encoderMove
  refine .foldl (fun s h => ?_) _ s
  exact .ite (.refl s) (.of_eq rfl rfl)

/-! ### The compares and culverts on an interface (R197, R199) -/

theorem State.pcFire_keepsFeedback (s : State) (j : Nat) (pos : BitVec 64) (st : Stamp) : KeepsFeedback s (s.pcFire j pos st) := by
  obtain ⟨hstatus, hplo, hphi, hslo, hshi⟩ := besideFeedback_compare j
  unfold State.pcFire
  extract_lets c1 s1 s2 s3 s4
  have h1 : KeepsFeedback s s1 := .of_eq rfl rfl
  have h2 : KeepsFeedback s1 s2 := (KeepsFeedback.setReg s1 _ hstatus).trans (.raise _ 1 hstatus)
  have h3 : KeepsFeedback s2 s3 := (KeepsFeedback.setPair s2 pos hplo hphi).trans (.setPair _ st hslo hshi)
  have h4 : KeepsFeedback s s4 := ((h1.trans h2).trans h3).trans (.of_eq rfl rfl)
  exact h4.trans (.iteSelf (.of_eq rfl rfl))

theorem State.pcMotion_keepsFeedback (s : State) (f : Nat) (p0 p1 : BitVec 64) (stampOf : BitVec 64 → Stamp) :
    KeepsFeedback s (s.pcMotion f p0 p1 stampOf) := by
  unfold State.pcMotion
  refine .foldBelow (fun s j => ?_) _ s
  exact .iteSelf (s.pcFire_keepsFeedback j p1 _)

theorem State.pcCorrected_keepsFeedback (s : State) (f : Nat) (p0 p1 : BitVec 64) : KeepsFeedback s (s.pcCorrected f p0 p1) := by
  unfold State.pcCorrected
  refine .foldBelow (fun s j => ?_) _ s
  exact .iteSelf (.raise s 2 (besideFeedback_compare j).1)

/-- Whatever a change of a pin, a wear event and INTERLOCK_HELD of a mitten keep, a refresh of the pads keeps. -/
theorem State.refreshPins_preserves {P : State → Prop} (hpin : ∀ t p c, P t → P (t.setPin p c)) (hwear : ∀ t k i, P t → P (t.noteWear k i))
    (hheld : ∀ t m, m < 32 → P t → P (t.raise (MIT_STATUS m) 4)) {s : State} (st : Stamp) (h : P s) : P (s.refreshPins st) := by
  have hfold {f : State → Nat → State} (hf : ∀ t p, P t → P (f t p)) (l : List Nat) (t : State) (ht : P t) : P (l.foldl f t) :=
    List.foldlRecOn l f ht fun t ht p _ => hf t p ht
  have hforce (t : State) (p : Nat) (ht : P t) : P (t.noteForce p) := by
    unfold State.noteForce
    dsimp only
    split
    · exact hpin _ _ _ ht
    · split
      · exact ht
      · exact hpin _ _ _ ht
  have hpass (t : State) (p : Nat) (ht : P t) : P (t.passInterlock p) := by
    unfold State.passInterlock
    split
    · split
      · exact hpin _ _ _ ht
      · exact ht
    · exact ht
  have hsettle (t : State) (p : Nat) (ht : P t) : P (t.settlePad st p) := by
    unfold State.settlePad
    extract_lets pad was c1 t1 low since c2 t2 t3
    have h3 : P t3 := by
      unfold t3
      split
      · exact hpin _ _ _ (hpin _ _ _ ht)
      · exact hwear _ _ _ (hpin _ _ _ (hpin _ _ _ ht))
    split
    · next m _ hact =>
      split
      · exact hheld _ m (State.action_lt hact) h3
      · exact h3
    · exact h3
  exact hfold hsettle _ _ (hfold hpass _ _ (hfold hforce _ _ h))

theorem State.refreshPins_keepsFeedback (s : State) (st : Stamp) : KeepsFeedback s (s.refreshPins st) := by
  refine State.refreshPins_preserves (P := KeepsFeedback s) (fun t p c h => h.trans (.of_eq rfl rfl)) (fun t k i h => h.trans ?_)
    (fun t m hm h => h.trans (.raise t 4 ?_)) st (.refl s)
  · unfold State.noteWear
    refine .foldl ?_ _ t
    exact fun _ _ => .of_eq rfl rfl
  · unfold besideFeedback MIT_STATUS
    omega

theorem State.cvLag_keepsFeedback (s : State) (i : Nat) : KeepsFeedback s (s.cvLag i) := by
  have hstatus : besideFeedback (CV_STATUS i) := by unfold besideFeedback CV_STATUS; omega
  have hcnt : besideFeedback (OVERRUN_CNT i) := by unfold besideFeedback OVERRUN_CNT; omega
  unfold State.cvLag
  extract_lets was lag s1 s2
  have h1 : KeepsFeedback s s1 := .setReg s _ hstatus
  have h2 : KeepsFeedback s1 s2 := .raise s1 16 hstatus
  exact .ite ((h1.trans h2).trans (.ite (.refl s2) (.satCount s2 hcnt))) h1

theorem State.cvDrive_keepsFeedback (s : State) (i : Nat) : KeepsFeedback s (s.cvDrive i) := by
  refine .ite (.refl s) (.trans ?_ (State.refreshPins_keepsFeedback _ _))
  exact .of_eq rfl rfl

theorem State.cvSample_keepsFeedback (s : State) (f : Nat) : KeepsFeedback s (s.cvSample f) := by
  unfold State.cvSample
  refine .foldBelow (fun s i => .iteSelf ?_) _ s
  refine .trans ?_ ((State.cvLag_keepsFeedback _ i).trans (State.cvDrive_keepsFeedback _ i))
  exact .of_eq rfl rfl

theorem State.cvFollow_keepsFeedback (s : State) (f : Nat) : KeepsFeedback s (s.cvFollow f) := by
  unfold State.cvFollow
  refine .foldBelow (fun s i => ?_) _ s
  exact .iteSelf (s.cvDrive_keepsFeedback i)

/-! ### Count steps (R176) -/

/-- The interface after a count step of `d` at stamp `st`. -/
def Iface.moved (c : Iface) (d : Int) (st : Stamp) : Iface :=
  { c with
    abs := c.abs + bvInt 64 d, lastStep := some { abs := c.abs + bvInt 64 d, stamp := st },
    lastMove := if d = 0 then c.lastMove else some st, gateNet := c.gateNet + d, timedOut := c.timedOut && d == 0 }

/-- A count step at its interface, before the compares and shafts on it see the step. -/
def State.countLaid (s : State) (f : Nat) (d : Int) (st : Stamp) : State :=
  let s := s.setIface f ((s.iface f).moved d st)
  if d = 0 then s else s.setBit (FB_STATUS f) 2 (decide (d < 0))

theorem State.countMove_keepsFeedback (s : State) (f : Nat) (d : Int) (st : Stamp) (prev : Option Stamp) :
    KeepsFeedback (s.countLaid f d st) (s.countMove f d st prev) := by
  unfold State.countMove
  extract_lets c p0 p1 c1 s1 s2 at_ s3
  have h3 : KeepsFeedback s2 s3 := s2.pcMotion_keepsFeedback f p0 p1 _
  cases prev with
  | some p => exact h3.trans (s3.encoderMove_keepsFeedback _ _ _ _ _ _ _)
  | none => exact h3.trans (s3.encoderMove_keepsFeedback _ _ _ _ _ _ _)

theorem State.iface_countMove (s : State) (f : Nat) (d : Int) (st : Stamp) (prev : Option Stamp) :
    (s.countMove f d st prev).iface f = (s.iface f).moved d st := by
  rw [(s.countMove_keepsFeedback f d st prev).iface, State.countLaid]
  split
  · exact s.iface_setIface_self f _
  · rw [State.iface_setBit, s.iface_setIface_self]

/-- The registers of an interface lie in its block. -/
theorem not_besideFeedback {f : Nat} (hf : f < 24) : ¬ besideFeedback (FB_STATUS f) ∧ ¬ besideFeedback (INDEX_SLIP_CNT f) ∧
    ¬ besideFeedback (INDEX_FAULT_CNT f) := by
  unfold besideFeedback FB_STATUS INDEX_SLIP_CNT INDEX_FAULT_CNT
  omega

/-- A count step changes DIR of FB_STATUS alone. -/
theorem State.fbStatus_countMove (s : State) {f i : Nat} (hf : f < 24) (hi : i ≠ 2) (d : Int) (st : Stamp) (prev : Option Stamp) :
    (s.countMove f d st prev).bit (FB_STATUS f) i = s.bit (FB_STATUS f) i := by
  rw [State.bit, (s.countMove_keepsFeedback f d st prev).regs _ (not_besideFeedback hf).1, ← State.bit, State.countLaid]
  split
  · rfl
  · exact State.bit_setBit_ne _ _ _ hi

/-! ### Decoding (R180) -/

theorem Iface.quarter_lt (c : Iface) (a b : Bool) : c.quarter a b < 4 := Nat.mod_lt _ (by decide)

theorem State.quadStep_even (s : State) (i : Nat) {k : Nat} (hk : k % 2 = 0) : s.quadStep i k = 0 := by
  rw [State.quadStep, if_neg (by omega), if_neg (by omega)]

/-- A step goes forward when A leads B, reversed by DIR_INV. -/
theorem State.quadStep_odd (s : State) (i : Nat) {k : Nat} (hk : k < 4) (hodd : k % 2 = 1) :
    s.quadStep i k = if (k == 1) != s.bit (QE_CTRL i) 1 then 1 else -1 := by
  obtain rfl | rfl : k = 1 ∨ k = 3 := by omega
  · cases h : s.bit (QE_CTRL i) 1 <;> simp [State.quadStep, h]
  · cases h : s.bit (QE_CTRL i) 1 <;> simp [State.quadStep, h]

theorem State.quadDecode_still {s : State} {i : Nat} {a b : Bool} (hk : (s.iface i).quarter a b = 0) (st : Stamp) (late : Bool) :
    s.quadDecode i a b st late = s.quadNote i a b st 0 := by
  unfold State.quadDecode
  rw [hk, if_pos rfl, s.quadStep_even i rfl]

theorem State.quadDecode_illegal {s : State} {i : Nat} {a b : Bool} (hk : (s.iface i).quarter a b = 2) (st : Stamp) (late : Bool) :
    s.quadDecode i a b st late = (s.quadNote i a b st 0).satCount (ILLEGAL_CNT i) := by
  unfold State.quadDecode
  rw [hk, if_neg (by decide), if_pos rfl, s.quadStep_even i rfl]

/-- A step of one quarter period is noted before the count moves. -/
def State.stepNoted (s : State) (i : Nat) (a b : Bool) (st : Stamp) (late : Bool) : State :=
  let s := (s.quadNote i a b st (s.quadStep i ((s.iface i).quarter a b))).raiseIf late (FB_STATUS i) 7
  s.setIface i { (s.iface i).unitStep st with gateSteps := (s.iface i).gateSteps + 1 }

theorem State.quadDecode_step {s : State} {i : Nat} {a b : Bool} (hk : (s.iface i).quarter a b % 2 = 1) (st : Stamp) (late : Bool) :
    s.quadDecode i a b st late =
      (s.stepNoted i a b st late).countMove i (s.quadStep i ((s.iface i).quarter a b)) st none := by
  unfold State.quadDecode
  dsimp only
  rw [if_neg (by omega), if_neg (by omega)]
  rfl

theorem State.iface_raiseIf (s : State) (c : Bool) (a i f : Nat) : (s.raiseIf c a i).iface f = s.iface f := by
  cases c <;> rfl

/-- `c'` is interface `c` after the levels `a`, `b` have been decoded as a step of `d` counts. -/
structure Decoded (c c' : Iface) (a b : Bool) (d : Int) : Prop where
  abs : c'.abs = c.abs + bvInt 64 d
  levelA : c'.a = a
  levelB : c'.b = b
  lastAcc : c'.lastAcc = c.lastAcc
  edges : c'.edges = c.edges
  resample : c'.resample = c.resample

theorem State.decoded_quadNote (s : State) (i : Nat) (a b : Bool) (st : Stamp) : Decoded (s.iface i) ((s.quadNote i a b st 0).iface i) a b 0 := by
  rw [State.quadNote, s.iface_setIface_self]
  exact ⟨(BitVec.add_zero _).symm, rfl, rfl, rfl, rfl, rfl⟩

/-- Whatever the decoder makes of the levels, it takes them, and the count moves by the step that they are. -/
theorem State.decoded_quadDecode (s : State) (i : Nat) (a b : Bool) (st : Stamp) (late : Bool) :
    Decoded (s.iface i) ((s.quadDecode i a b st late).iface i) a b (s.quadStep i ((s.iface i).quarter a b)) := by
  by_cases hodd : (s.iface i).quarter a b % 2 = 1
  · rw [s.quadDecode_step hodd, State.iface_countMove, State.stepNoted, State.iface_setIface_self, State.iface_raiseIf, State.quadNote,
      State.iface_setIface_self]
    exact ⟨rfl, rfl, rfl, rfl, rfl, rfl⟩
  · rw [s.quadStep_even i (by omega)]
    have hlt := (s.iface i).quarter_lt a b
    obtain h0 | h2 : (s.iface i).quarter a b = 0 ∨ (s.iface i).quarter a b = 2 := by omega
    · rw [s.quadDecode_still h0]
      exact s.decoded_quadNote i a b st
    · rw [s.quadDecode_illegal h2, State.iface_satCount]
      exact s.decoded_quadNote i a b st

/-- A step that a resample shows is marked (R181). -/
theorem State.late_quadDecode {s : State} {i : Nat} {a b : Bool} (hi : i < 24) (hk : (s.iface i).quarter a b % 2 = 1) (st : Stamp) :
    (s.quadDecode i a b st true).bit (FB_STATUS i) 7 = true := by
  rw [s.quadDecode_step hk, State.fbStatus_countMove _ hi (by decide), State.stepNoted]
  dsimp only
  rw [State.bit_setIface, State.raiseIf, if_pos rfl, State.bit_raise_self _ _ (by decide)]

/-! ### Edges and resamples (R181) -/

/-- The decoder's own sample leaves the rest of the interface. -/
theorem State.iface_qencTick (s : State) (i : Nat) :
    ∃ u r, (s.qencTick i).iface i = { s.iface i with resampleAt := u, resample := r } := by
  unfold State.qencTick
  dsimp only
  split
  · split
    · exact ⟨_, _, s.iface_setIface_self i _⟩
    · exact ⟨_, _, rfl⟩
  · exact ⟨_, _, rfl⟩

theorem State.setIface_setIface (s : State) (f : Nat) (c d : Iface) : (s.setIface f c).setIface f d = s.setIface f d := by
  rw [State.setIface, State.setIface_ifaces, Table.set_set]
  rfl

/-- An accepted edge stamped `st` is the last one, and its minimum interval begins. -/
def State.edgeAccepted (s : State) (i : Nat) (st : Stamp) (rest : List QuadEdge) : State :=
  s.setIface i { s.iface i with edges := rest, lastAcc := some st, resampleAt := s.resampleTick i st, resample := none }

section
variable {s : State} {i : Nat} {isB a b : Bool} {st : Stamp} {rest : List QuadEdge} (hen : s.fbEn i = true)
  (he : (s.iface i).edges = { stamp := st, isB := isB, a := a, b := b } :: rest) (hsure : s.edgeSure st = true)
  (hres : (s.iface i).resampleFirst s.now st = false)
include hen he hsure hres

/-- The oldest edge, with no resample before it, is decoded. -/
theorem State.qencEdge_front : s.qencEdge i isB a b st =
    (s.setIface i { s.iface i with edges := rest }).quadEdge i { stamp := st, isB := isB, a := a, b := b } := by
  have hfirst : ((s.setIface i { s.iface i with edges := rest }).iface i).resampleFirst s.now st = false := by
    rw [s.iface_setIface_self]
    exact hres
  unfold State.qencEdge
  rw [he]
  refine (if_pos ⟨rfl, hsure⟩).trans ((if_pos hen).trans ?_)
  exact congrArg (State.quadEdge · i _) (if_neg (by rw [State.now_setIface, hfirst]; decide))

theorem State.qencEdge_accepted (hacc : ∀ l, (s.iface i).lastAcc = some l → (s.minEdge i : Int) ≤ ahead st l) :
    s.qencEdge i isB a b st = ((s.edgeAccepted i st rest).quadDecode i a b st false).qencTick i := by
  rw [State.qencEdge_front hen he hsure hres, State.quadEdge, s.iface_setIface_self]
  dsimp only
  rw [if_neg, s.setIface_setIface]
  · rfl
  · cases hl : (s.iface i).lastAcc with
    | none => simp
    | some l => exact fun h => absurd (of_decide_eq_true h) (not_lt.2 (hacc l hl))

theorem State.qencEdge_early {l : Stamp} (hl : (s.iface i).lastAcc = some l) (hearly : ahead st l < s.minEdge i) :
    s.qencEdge i isB a b st = (s.setIface i { s.iface i with edges := rest }).satCount (FAULT_CNT i) := by
  rw [State.qencEdge_front hen he hsure hres, State.quadEdge, s.iface_setIface_self, hl]
  exact if_pos (decide_eq_true hearly)
end

theorem State.qencResample_due {s : State} {i : Nat} {a b : Bool} {st : Stamp} (hen : s.fbEn i = true)
    (hr : (s.iface i).resample = some (st, a, b)) (hfirst : ∀ e ∈ (s.iface i).edges, laterThan s.now st e.stamp = false) :
    s.qencResample i a b = (s.setIface i { s.iface i with resample := none }).quadDecode i a b st true := by
  have hany : (s.iface i).edges.any (fun e => laterThan s.now st e.stamp) = false :=
    List.any_eq_false.2 fun e he => by simp [hfirst e he]
  simp [State.qencResample, State.resampleTake, hr, hen, hany]

theorem exec_qencEdge {s : State} (i : Fin 8) (isB a b : Bool) (st : Stamp) (hc : s.clocked) :
    exec (.qencEdge i isB a b st) s = .next (s.qencEdge i isB a b st) :=
  congrArg Host.Outcome.next (s.onTclk_clocked _ hc)

theorem exec_qencResample {s : State} (i : Fin 8) (a b : Bool) (hc : s.clocked) :
    exec (.qencResample i a b) s = .next (s.qencResample i a b) :=
  congrArg Host.Outcome.next (s.onTclk_clocked _ hc)

/-! ### The index (R177, R187 to R189) -/

/-- A correction lays the count, and the samples that positions are interpolated between. -/
theorem State.iface_absCorrect (s : State) (f : Nat) (p : BitVec 64) :
    ∃ q r, (s.absCorrect f p).iface f = { s.iface f with abs := p, sample := q, prevSample := r } :=
  ⟨_, _, (((State.pcCorrected_keepsFeedback _ f _ p).trans (State.cvSample_keepsFeedback _ f)).iface f).trans (s.iface_setIface_self f _)⟩

theorem State.reg_absCorrect (s : State) (f : Nat) (p : BitVec 64) {a : Nat} (ha : ¬ besideFeedback a) :
    (s.absCorrect f p).reg a = s.reg a :=
  ((State.pcCorrected_keepsFeedback _ f _ p).trans (State.cvSample_keepsFeedback _ f)).regs a ha

theorem State.refSet_keepsFeedback (s : State) (f : Nat) : KeepsFeedback (s.setBit (FB_STATUS f) 1 true) (s.refSet f) :=
  (State.cvFollow_keepsFeedback _ f).trans (State.encoderValid_keepsFeedback _ _ _ _)

/-- A lost reference is counted, and clears REF_VALID. -/
theorem State.refLose_keepsFeedback (s : State) (f : Nat) :
    KeepsFeedback (((s.setBit (FB_STATUS f) 1 false).cvFollow f).satCount (REF_LOST_CNT f)) (s.refLose f) :=
  State.encoderLost_keepsFeedback _ _ _

theorem State.iface_refLose (s : State) (f : Nat) : (s.refLose f).iface f = s.iface f :=
  ((s.refLose_keepsFeedback f).iface f).trans ((State.cvFollow_keepsFeedback (s.setBit (FB_STATUS f) 1 false) f).iface f)

theorem State.reg_refLose (s : State) {f a : Nat} (ha : ¬ besideFeedback a) (hcnt : a ≠ REF_LOST_CNT f) :
    (s.refLose f).reg a = (s.setBit (FB_STATUS f) 1 false).reg a := by
  rw [(s.refLose_keepsFeedback f).regs a ha, State.reg_satCount_ne _ hcnt, (State.cvFollow_keepsFeedback _ f).regs a ha]

/-- The first index gives the count its place, and the reference is valid. -/
theorem State.takeIndex_first {s : State} {f : Nat} (hf : f < 24) (ai : BitVec 64) (hn : s.cpr f ≠ 0) (href : s.fbRef f = false) :
    (s.takeIndex f ai).fbRef f = true ∧ ((s.takeIndex f ai).iface f).zEdges = (s.iface f).zEdges ∧
      ((s.takeIndex f ai).iface f).abs =
        bvInt 64 (((s.reg (INDEX_POS f)).toNat : Int) % (s.cpr f : Int)) + ((s.iface f).abs - ai) := by
  have htake : s.takeIndex f ai =
      ((s.setIface f { s.iface f with idxFaults := 0 }).absCorrect f
        (bvInt 64 (((s.reg (INDEX_POS f)).toNat : Int) % (s.cpr f : Int)) + ((s.iface f).abs - ai))).refSet f := by
    unfold State.takeIndex
    dsimp only
    rw [if_neg (by omega), href]
    rfl
  obtain ⟨q, r, hcorrect⟩ := (s.setIface f { s.iface f with idxFaults := 0 }).iface_absCorrect f
    (bvInt 64 (((s.reg (INDEX_POS f)).toNat : Int) % (s.cpr f : Int)) + ((s.iface f).abs - ai))
  have hkeep := State.refSet_keepsFeedback ((s.setIface f { s.iface f with idxFaults := 0 }).absCorrect f
    (bvInt 64 (((s.reg (INDEX_POS f)).toNat : Int) % (s.cpr f : Int)) + ((s.iface f).abs - ai))) f
  rw [htake, hkeep.iface, State.iface_setBit, hcorrect, s.iface_setIface_self]
  refine ⟨?_, rfl, rfl⟩
  rw [State.fbRef, State.bit, hkeep.regs _ (not_besideFeedback hf).1]
  exact State.bit_setBit_self _ _ 1 true (by decide)

/-- How far an index at `ai` lies from home: the residue nearest to 0 (R188). -/
def State.indexDev (s : State) (f : Nat) (ai : BitVec 64) : Int :=
  let n : Int := s.cpr f
  let r : Int := (ai.toInt - (((s.reg (INDEX_POS f)).toNat : Int) % n)) % n
  if 2 * r < n then r else r - n

/-- The deviation of an index is noted, and `k` consecutive index faults. -/
def State.devNoted (s : State) (f : Nat) (d : Int) (k : Nat) : State :=
  let s := s.setIface f { s.iface f with dev := bvInt 32 d }
  s.setIface f { s.iface f with idxFaults := k }

theorem State.iface_devNoted (s : State) (f : Nat) (d : Int) (k : Nat) :
    (s.devNoted f d k).iface f = { s.iface f with dev := bvInt 32 d, idxFaults := k } := by
  rw [State.devNoted, State.iface_setIface_self, State.iface_setIface_self]

/-- A slip corrects the count and is counted. -/
def State.slipped (s : State) (f : Nat) (d : Int) : State :=
  (((s.devNoted f d 0).absCorrect f (((s.devNoted f d 0).iface f).abs - bvInt 64 d)).raise (FB_STATUS f) 3).satCount (INDEX_SLIP_CNT f)

/-- An index fault is counted. -/
def State.indexFaulted (s : State) (f : Nat) (d : Int) : State :=
  ((s.devNoted f d ((s.iface f).idxFaults + 1)).raise (FB_STATUS f) 4).satCount (INDEX_FAULT_CNT f)

/-- An index fault is counted, with its interrupt event. -/
def State.faultShown (s : State) (f : Nat) (d : Int) : State :=
  if !s.bit (FB_STATUS f) 4 then (s.indexFaulted f d).fbEvent f 1 else s.indexFaulted f d

theorem State.faultShown_keepsFeedback (s : State) (f : Nat) (d : Int) : KeepsFeedback (s.indexFaulted f d) (s.faultShown f d) :=
  .iteSelf (.deliverIf _ _ _ _ _)

section
variable {s : State} {f : Nat} {ai : BitVec 64} (hn : s.cpr f ≠ 0) (href : s.fbRef f = true)
include hn href

theorem State.takeIndex_slip (hd : s.indexDev f ai ≠ 0) (htol : (s.indexDev f ai).natAbs ≤ s.fld (REF_CFG f) 15 0) :
    KeepsFeedback (s.slipped f (s.indexDev f ai)) (s.takeIndex f ai) := by
  have htake : s.takeIndex f ai =
      (if !s.bit (FB_STATUS f) 3 then (s.slipped f (s.indexDev f ai)).fbEvent f 0 else s.slipped f (s.indexDev f ai)).encoderIndex
        (fbSrc f) (fbIdx f) false := by
    unfold State.takeIndex
    rw [if_neg (by omega), if_neg (by rw [href]; decide)]
    exact (if_neg hd).trans (if_pos htol)
  rw [htake]
  exact (KeepsFeedback.iteSelf (.deliverIf _ _ _ _ _)).trans (State.encoderIndex_keepsFeedback _ _ _ _)

/-- The second of two consecutive faults loses the reference; another one is told to the shafts (R189). -/
theorem State.takeIndex_fault (hd : s.fld (REF_CFG f) 15 0 < (s.indexDev f ai).natAbs) :
    s.takeIndex f ai = (s.faultShown f (s.indexDev f ai)).refLose f ∨
      s.takeIndex f ai = (s.faultShown f (s.indexDev f ai)).encoderIndex (fbSrc f) (fbIdx f) true := by
  have hne : s.indexDev f ai ≠ 0 := fun h => by simp [h] at hd
  have htake : s.takeIndex f ai =
      if (s.iface f).idxFaults + 1 = 2 then (s.faultShown f (s.indexDev f ai)).refLose f
      else (s.faultShown f (s.indexDev f ai)).encoderIndex (fbSrc f) (fbIdx f) true := by
    unfold State.takeIndex
    rw [if_neg (by omega), if_neg (by rw [href]; decide)]
    exact (if_neg hne).trans (if_neg (Nat.not_le.2 hd))
  rw [htake]
  exact ite_eq_or_eq _ _ _
end

section
variable {s : State} {f : Nat} {ai : BitVec 64} (hf : f < 24) (hn : s.cpr f ≠ 0) (href : s.fbRef f = true)
include hf hn href

theorem State.takeIndex_slip_shows (hd : s.indexDev f ai ≠ 0) (htol : (s.indexDev f ai).natAbs ≤ s.fld (REF_CFG f) 15 0) :
    (s.takeIndex f ai).reg (INDEX_SLIP_CNT f) = satInc (s.reg (INDEX_SLIP_CNT f)) ∧ (s.takeIndex f ai).bit (FB_STATUS f) 3 = true ∧
      ((s.takeIndex f ai).iface f).abs = (s.iface f).abs - bvInt 64 (s.indexDev f ai) ∧
      ((s.takeIndex f ai).iface f).dev = bvInt 32 (s.indexDev f ai) := by
  obtain ⟨hstatus, hslip, -⟩ := not_besideFeedback hf
  have hcnt : INDEX_SLIP_CNT f ≠ FB_STATUS f := by unfold INDEX_SLIP_CNT FB_STATUS; omega
  have hkeep := State.takeIndex_slip hn href hd htol
  obtain ⟨q, r, hcorrect⟩ := (s.devNoted f (s.indexDev f ai) 0).iface_absCorrect f
    (((s.devNoted f (s.indexDev f ai) 0).iface f).abs - bvInt 64 (s.indexDev f ai))
  have hiface : (s.takeIndex f ai).iface f =
      { s.iface f with dev := bvInt 32 (s.indexDev f ai), idxFaults := 0, abs := (s.iface f).abs - bvInt 64 (s.indexDev f ai),
                       sample := q, prevSample := r } := by
    rw [hkeep.iface, State.slipped, State.iface_satCount, State.iface_raise, hcorrect, State.iface_devNoted]
  refine ⟨?_, ?_, by rw [hiface], by rw [hiface]⟩
  · rw [hkeep.regs _ hslip, State.slipped, State.reg_satCount_self, State.raise, State.reg_noteHw, State.reg_setBit_ne _ _ _ hcnt,
      State.reg_absCorrect _ _ _ hslip]
    rfl
  · rw [State.bit, hkeep.regs _ hstatus, State.slipped, State.reg_satCount_ne _ hcnt.symm]
    exact State.bit_raise_self _ _ (by decide)

theorem State.takeIndex_fault_shows (hd : s.fld (REF_CFG f) 15 0 < (s.indexDev f ai).natAbs) :
    (s.takeIndex f ai).reg (INDEX_FAULT_CNT f) = satInc (s.reg (INDEX_FAULT_CNT f)) ∧
      ((s.takeIndex f ai).iface f).abs = (s.iface f).abs ∧ (s.takeIndex f ai).bit (FB_STATUS f) 4 = true := by
  obtain ⟨hstatus, -, hfault⟩ := not_besideFeedback hf
  have hcnt : INDEX_FAULT_CNT f ≠ FB_STATUS f ∧ INDEX_FAULT_CNT f ≠ REF_LOST_CNT f ∧ FB_STATUS f ≠ REF_LOST_CNT f := by
    unfold INDEX_FAULT_CNT FB_STATUS REF_LOST_CNT; omega
  obtain ⟨hcs, hcl, hsl⟩ := hcnt
  have hshown := s.faultShown_keepsFeedback f (s.indexDev f ai)
  have hfaults : (s.faultShown f (s.indexDev f ai)).reg (INDEX_FAULT_CNT f) = satInc (s.reg (INDEX_FAULT_CNT f)) := by
    rw [hshown.regs _ hfault, State.indexFaulted, State.reg_satCount_self, State.raise, State.reg_noteHw, State.reg_setBit_ne _ _ _ hcs]
    rfl
  have habs : ((s.faultShown f (s.indexDev f ai)).iface f).abs = (s.iface f).abs := by
    rw [hshown.iface, State.indexFaulted, State.iface_satCount, State.iface_raise, State.iface_devNoted]
  have hbit : (s.faultShown f (s.indexDev f ai)).bit (FB_STATUS f) 4 = true := by
    rw [State.bit, hshown.regs _ hstatus, State.indexFaulted, State.reg_satCount_ne _ hcs.symm]
    exact State.bit_raise_self _ _ (by decide)
  obtain htake | htake := State.takeIndex_fault hn href hd
  · rw [htake, State.iface_refLose, State.bit, State.reg_refLose _ hfault hcl, State.reg_refLose _ hstatus hsl,
      State.reg_setBit_ne _ _ _ hcs]
    exact ⟨hfaults, habs, (State.bit_setBit_ne _ _ false (by decide)).trans hbit⟩
  · have htold := State.encoderIndex_keepsFeedback (s.faultShown f (s.indexDev f ai)) (fbSrc f) (fbIdx f) true
    rw [htake, htold.iface, State.bit, htold.regs _ hfault, htold.regs _ hstatus]
    exact ⟨hfaults, habs, hbit⟩
end

/-- The oldest edge of Z is handled. -/
def State.zTaken (s : State) (f : Nat) (rest : List (Stamp × Bool)) : State := s.setIface f { s.iface f with zEdges := rest }

section
variable {s : State} {f : Nat} {rising : Bool} {st : Stamp} {rest : List (Stamp × Bool)}
  (hz : (s.iface f).zEdges = (st, rising) :: rest) (hsure : s.edgeSure st = true)
include hz hsure

theorem State.indexInput_front (hq : f < 8 → s.quadKnown f st = true) :
    s.indexInput f rising st =
      if !(s.zTaken f rest).fbEn f || !(s.zTaken f rest).fbIndexed f || (s.zTaken f rest).fbAtt f ≠ 1 ||
          !(s.zTaken f rest).indexEdge f rising || !(s.zTaken f rest).indexQualified f st then s.zTaken f rest
      else if f < 8 then (s.zTaken f rest).takeIndex f ((s.iface f).absAt s.now st)
      else s.setIface f { s.iface f with zEdges := rest, idxPend := (s.iface f).idxPend ++ [st] } := by
  have hwait : ((st, rising) != (st, rising) || !s.edgeSure st || (decide (f < 8) && !s.quadKnown f st)) = false := by
    by_cases h8 : f < 8
    · simp [hsure, hq h8]
    · simp [hsure, h8]
  unfold State.indexInput
  rw [hz]
  dsimp only
  rw [hwait, s.setIface_setIface]
  rfl

theorem State.indexInput_unselected (hq : f < 8 → s.quadKnown f st = true) (hedge : s.indexEdge f rising = false) :
    s.indexInput f rising st = s.zTaken f rest := by
  have hedge' : (s.zTaken f rest).indexEdge f rising = false := hedge
  rw [State.indexInput_front hz hsure hq, hedge']
  simp

variable (hen : s.fbEn f = true) (hidx : s.fbIndexed f = true) (hatt : s.fbAtt f = 1) (hedge : s.indexEdge f rising = true)
include hen hidx hatt hedge

theorem State.indexInput_taken (hf : f < 8) (hq : s.quadKnown f st = true) (hqual : s.indexQualified f st = true) :
    s.indexInput f rising st = (s.zTaken f rest).takeIndex f ((s.iface f).absAt s.now st) := by
  have hen' : (s.zTaken f rest).fbEn f = true := hen
  have hidx' : (s.zTaken f rest).fbIndexed f = true := hidx
  have hatt' : (s.zTaken f rest).fbAtt f = 1 := hatt
  have hedge' : (s.zTaken f rest).indexEdge f rising = true := hedge
  have hqual' : (s.zTaken f rest).indexQualified f st = true := by
    rw [State.indexQualified, State.zTaken, State.iface_setIface_self]
    exact hqual
  rw [State.indexInput_front hz hsure fun _ => hq, hen', hidx', hatt', hedge', hqual']
  simp [hf]

theorem State.indexInput_waits (hf : 8 ≤ f) :
    s.indexInput f rising st = s.setIface f { s.iface f with zEdges := rest, idxPend := (s.iface f).idxPend ++ [st] } := by
  have h8 : ¬ f < 8 := by omega
  have hen' : (s.zTaken f rest).fbEn f = true := hen
  have hidx' : (s.zTaken f rest).fbIndexed f = true := hidx
  have hatt' : (s.zTaken f rest).fbAtt f = 1 := hatt
  have hedge' : (s.zTaken f rest).indexEdge f rising = true := hedge
  have hqual' : (s.zTaken f rest).indexQualified f st = true := by simp [State.indexQualified, h8]
  rw [State.indexInput_front hz hsure fun h => absurd h h8, hen', hidx', hatt', hedge', hqual']
  simp [h8]
end

theorem exec_indexEdge {s : State} (f : Fin 16) (rising : Bool) (st : Stamp) (hc : s.clocked) :
    exec (.indexEdge f rising st) s = .next (s.indexInput f rising st) :=
  congrArg Host.Outcome.next (s.onTclk_clocked _ hc)

end Sys2Proof.Machine

namespace Sys2Proof.Proofs

open Sys2Proof.Machine Sys2Proof.Machine.Reg

/-- An accepted edge that moves the levels one place steps the count. -/
theorem qencEdge_steps (i : Fin 8) (isB a b : Bool) (st : Stamp) (rest : List QuadEdge) (s : State) (hc : s.clocked) (hen : s.fbEn i = true)
    (he : (s.iface i).edges = { stamp := st, isB := isB, a := a, b := b } :: rest) (hsure : s.edgeSure st = true)
    (hres : (s.iface i).resampleFirst s.now st = false) (hacc : ∀ l, (s.iface i).lastAcc = some l → (s.minEdge i : Int) ≤ ahead st l)
    (hk : (s.iface i).quarter a b % 2 = 1) :
    ∃ t, exec (.qencEdge i isB a b st) s = .next t ∧
      (t.iface i).abs = (if ((s.iface i).quarter a b == 1) != s.bit (QE_CTRL i) 1 then (s.iface i).abs + 1 else (s.iface i).abs - 1) ∧
      (t.iface i).a = a ∧ (t.iface i).b = b ∧ (t.iface i).lastAcc = some st ∧ (t.iface i).edges = rest := by
  obtain ⟨u, r, htick⟩ := ((s.edgeAccepted i st rest).quadDecode i a b st false).iface_qencTick i
  have hiface : (s.edgeAccepted i st rest).iface i =
      { s.iface i with edges := rest, lastAcc := some st, resampleAt := s.resampleTick i st, resample := none } := s.iface_setIface_self i _
  have hdec := (s.edgeAccepted i st rest).decoded_quadDecode i a b st false
  rw [hiface] at hdec
  refine ⟨_, (exec_qencEdge i isB a b st hc).trans (congrArg Host.Outcome.next (State.qencEdge_accepted hen he hsure hres hacc)), ?_⟩
  rw [htick]
  refine ⟨hdec.abs.trans ?_, hdec.levelA, hdec.levelB, hdec.lastAcc, hdec.edges⟩
  have hstep : (s.edgeAccepted i st rest).quadStep i ((s.iface i).quarter a b) = _ := s.quadStep_odd i ((s.iface i).quarter_lt a b) hk
  refine (congrArg (fun d => (s.iface i).abs + bvInt 64 d) hstep).trans ?_
  have hone : bvInt 64 1 = 1#64 := by decide
  have hminus : bvInt 64 (-1) = -1#64 := by decide
  split
  · exact congrArg ((s.iface i).abs + ·) hone
  · exact (congrArg ((s.iface i).abs + ·) hminus).trans (BitVec.sub_eq_add_neg _ _).symm

/-- A resample takes its levels; it is late when they are a step, and else the count stands. -/
theorem qencResample_takes (i : Fin 8) (a b : Bool) (st : Stamp) (s : State) (hc : s.clocked) (hen : s.fbEn i = true)
    (hr : (s.iface i).resample = some (st, a, b)) (hfirst : ∀ e ∈ (s.iface i).edges, laterThan s.now st e.stamp = false) :
    ∃ t, exec (.qencResample i a b) s = .next t ∧ (t.iface i).a = a ∧ (t.iface i).b = b ∧ (t.iface i).resample = none ∧
      ((s.iface i).quarter a b % 2 = 1 → t.bit (FB_STATUS i) 7 = true) ∧
      ((s.iface i).quarter a b % 2 = 0 → (t.iface i).abs = (s.iface i).abs) := by
  have hiface : (s.setIface i { s.iface i with resample := none }).iface i = { s.iface i with resample := none } := s.iface_setIface_self i _
  have hquarter : ((s.setIface i { s.iface i with resample := none }).iface i).quarter a b = (s.iface i).quarter a b :=
    (congrArg (Iface.quarter · a b) hiface).trans rfl
  have hdec := (s.setIface i { s.iface i with resample := none }).decoded_quadDecode i a b st true
  rw [hquarter] at hdec
  refine ⟨_, (exec_qencResample i a b hc).trans (congrArg Host.Outcome.next (State.qencResample_due hen hr hfirst)), hdec.levelA, hdec.levelB,
    ?_, fun hk => ?_, fun hk => ?_⟩
  · rw [hdec.resample, hiface]
  · exact State.late_quadDecode (by omega) (hquarter ▸ hk) st
  · rw [hdec.abs, State.quadStep_even _ _ hk, hiface]
    exact BitVec.add_zero _

/-- Settles O32: the edges of A and B that are a step, illegal and early, the resample and its tick; then the first index, a slip, a fault,
and an index that waits or is not selected. -/
theorem quadratureEdgesAndIndexesMoveTheCount : Obligations.QuadratureEdgesAndIndexesMoveTheCount := by
  refine ⟨⟨qencEdge_steps, fun i isB a b st rest s hc hen he hsure hres hacc hk => ?_,
      fun i isB a b st l rest s hc hen he hsure hres hl hearly => ?_, qencResample_takes, fun i u s hu => ?_⟩,
    fun f rising st rest s hc hf hen hidx hz hsure hq hatt hqual hedge href hn => ?_,
    fun f rising st rest s hc hf hen hidx hz hsure hq hatt hqual hedge href hn hd htol => ?_,
    fun f rising st rest s hc hf hen hidx hz hsure hq hatt hqual hedge href hn hd => ?_,
    fun f rising st rest s hc hf hen hidx hz hsure hatt hedge => ?_, fun f rising st rest s hc hz hsure hq hedge => ?_⟩
  · have hk' : ((s.edgeAccepted i st rest).iface i).quarter a b = 2 := (congrArg (Iface.quarter · a b) (s.iface_setIface_self i _)).trans hk
    rw [exec_qencEdge i isB a b st hc, State.qencEdge_accepted hen he hsure hres hacc, State.quadDecode_illegal hk']
    rfl
  · rw [exec_qencEdge i isB a b st hc, State.qencEdge_early hen he hsure hres hl hearly]
  · rw [State.qencTick, hu]
    exact ⟨fun h => if_pos h, fun h => if_neg (by rw [h]; decide)⟩
  · have hindex := State.takeIndex_first (s := s.zTaken f rest) (f := f) (by omega) ((s.iface f).absAt s.now st) hn href
    have hiface : (s.zTaken f rest).iface f = { s.iface f with zEdges := rest } := s.iface_setIface_self f _
    obtain ⟨hvalid, hedges, habs⟩ := hindex
    refine ⟨_, (exec_indexEdge f rising st hc).trans
      (congrArg Host.Outcome.next (State.indexInput_taken hz hsure hen hidx hatt hedge hf hq hqual)), hvalid, ?_, ?_⟩
    · rw [hedges, hiface]
    · rw [habs, hiface, ← Int.natCast_mod, bvInt, BitVec.ofInt_natCast]
      rfl
  · obtain ⟨hcnt, hbit, habs, hdev⟩ := State.takeIndex_slip_shows (s := s.zTaken f rest) (f := f) (ai := (s.iface f).absAt s.now st)
      (by omega) hn href hd htol
    refine ⟨_, (exec_indexEdge f rising st hc).trans
      (congrArg Host.Outcome.next (State.indexInput_taken hz hsure hen hidx hatt hedge hf hq hqual)), hcnt, hbit, habs.trans ?_, hdev⟩
    rw [State.zTaken, State.iface_setIface_self]
    rfl
  · obtain ⟨hcnt, habs, hbit⟩ := State.takeIndex_fault_shows (s := s.zTaken f rest) (f := f) (ai := (s.iface f).absAt s.now st)
      (by omega) hn href hd
    refine ⟨_, (exec_indexEdge f rising st hc).trans
      (congrArg Host.Outcome.next (State.indexInput_taken hz hsure hen hidx hatt hedge hf hq hqual)), hcnt, habs.trans ?_, hbit⟩
    rw [State.zTaken, State.iface_setIface_self]
  · rw [exec_indexEdge f rising st hc, State.indexInput_waits hz hsure hen hidx hatt hedge hf]
  · rw [exec_indexEdge f rising st hc, State.indexInput_unselected hz hsure (fun _ => hq) hedge, State.zTaken]

end Sys2Proof.Proofs
end

section
/-!
PROOFS. Probes, position compares and culverts (R193 to R199): what the writes, the edges, the latches and the crossings do, then the
statement about them.
-/

namespace Sys2Proof.Machine

open Reg

/-! ### Writes of PRB_CTRL (R193) -/

/-- The registers of a probe are different registers. -/
theorem probeReg_ne {a b : Nat} (hab : a ≠ b) (p : Nat) : a + p * 0x40 ≠ b + p * 0x40 := by omega

/-- PRB_CTRL has taken `v`. -/
def State.prbCtrlTaken (s : State) (p : Nat) (v : Word) : State :=
  s.setReg (PRB_CTRL p) (mergeWord (s.reg (PRB_CTRL p)) v 0x0000FF18#32)

theorem State.prbCtrlWrite_disarm (s : State) (p : Nat) {v : Word} (hd : v.getLsbD 2 = true) :
    s.prbCtrlWrite p v =
      if s.bit (PRB_STATUS p) 0 then ((s.prbCtrlTaken p v).setBit (PRB_STATUS p) 0 false).setProbe p { s.probe p with disarmed := some s.mt }
      else s.prbCtrlTaken p v := by
  have hne : PRB_STATUS p ≠ PRB_CTRL p := probeReg_ne (by decide) p
  have hbit : (s.prbCtrlTaken p v).bit (PRB_STATUS p) 0 = s.bit (PRB_STATUS p) 0 := congrArg (bitOf · 0) (s.reg_setReg_ne _ hne)
  rw [← hbit]
  exact if_pos hd

theorem State.prbCtrlWrite_arm (s : State) (p : Nat) {v : Word} (ha : v.getLsbD 1 = true) (hd : v.getLsbD 2 = false) :
    s.prbCtrlWrite p v =
      (((s.prbCtrlTaken p v).setBit (PRB_STATUS p) 0 true).setPair (PRB_ARM_LO p) (PRB_ARM_HI p) s.now).setProbe p
        { s.probe p with disarmed := none } :=
  (if_neg (by rw [bitOf, hd]; decide)).trans (if_pos ha)

theorem exec_probeDisarm {s : State} (p : Fin 8) {v : Word} (ha : s.accepts (PRB_CTRL p) v) :
    exec (.probeDisarm p v) s = .next ((s.noteHost (PRB_CTRL p)).prbCtrlWrite p v) :=
  congrArg Host.Outcome.next (s.hostWrite_accepts _ ha)

theorem exec_probeArm {s : State} (p : Fin 8) {v : Word} (ha : s.accepts (PRB_CTRL p) v) :
    exec (.probeArm p v) s = .next ((s.noteHost (PRB_CTRL p)).prbCtrlWrite p v) :=
  congrArg Host.Outcome.next (s.hostWrite_accepts _ ha)

/-! ### Edges of a probe's input (R99, R193) -/

theorem State.probeEdge_ball {s : State} {p : Nat} (rising : Bool) {st : Stamp} (hch : s.prbChan p = none)
    (hl : ∀ l, (s.probe p).lastIn = some l → 24 ≤ (st - l).toNat) :
    s.probeEdge p rising st = (s.setProbe p { s.probe p with lastIn := some st }).prbNote p rising st := by
  unfold State.probeEdge
  dsimp only
  rw [hch, if_neg (by decide)]
  cases h : (s.probe p).lastIn with
  | none => rfl
  | some l => exact if_neg (Nat.not_lt.2 (hl l h))

theorem State.probeEdge_glitch {s : State} {p : Nat} (rising : Bool) {st l : Stamp} (hch : s.prbChan p = none)
    (hl : (s.probe p).lastIn = some l) (hnear : (st - l).toNat < 24) :
    s.probeEdge p rising st =
      s.setProbe p { s.probe p with lastIn := none, edges := (s.probe p).edges.filter (fun e => e.stamp != l) } := by
  unfold State.probeEdge
  dsimp only
  rw [hch, hl]
  exact if_pos hnear

theorem State.probeEdge_channel {s : State} {p k : Nat} {rising : Bool} {st : Stamp} {rest : List (Stamp × Bool)}
    (hch : s.prbChan p = some k) (he : (s.probe p).chanEdges = (st, rising) :: rest) :
    s.probeEdge p rising st = (s.setProbe p { s.probe p with chanEdges := rest }).prbNote p rising st := by
  unfold State.probeEdge
  dsimp only
  rw [hch, he]
  exact (if_pos rfl).trans (if_pos rfl)

theorem exec_probeEdge {s : State} (p : Fin 8) (rising : Bool) (st : Stamp) (hc : s.clocked) :
    exec (.probeEdge p rising st) s = .next (s.probeEdge p rising st) :=
  congrArg Host.Outcome.next (s.onTclk_clocked _ hc)

/-! ### The judgement of an edge (R194) -/

/-- The edges of probe `p` have left its list. -/
def State.edgesJudged (s : State) (p : Nat) : State := s.setProbe p { s.probe p with edges := [] }

theorem State.probe_edgesJudged (s : State) (p : Nat) : (s.edgesJudged p).probe p = { s.probe p with edges := [] } := s.probe_setProbe_self p _

theorem State.prbTick_single {s : State} {p : Nat} {e : ProbeEdge} (he : (s.probe p).edges = [e]) (hsure : s.edgeSure e.stamp = true) :
    s.prbTick p = (s.edgesJudged p).prbJudge p e := by
  simp [State.prbTick, State.edgesJudged, he, hsure]

theorem State.prbTakes_edgesJudged (s : State) (p : Nat) (rising : Bool) (st : Stamp) :
    (s.edgesJudged p).prbTakes p rising st = s.prbTakes p rising st := by
  unfold State.prbTakes
  rw [s.probe_edgesJudged]
  rfl

theorem State.probe_raiseIf (s : State) (c : Bool) (a i p : Nat) : (s.raiseIf c a i).probe p = s.probe p := by
  cases c <;> rfl

theorem State.reg_raiseIf_ne (s : State) (c : Bool) {a b : Nat} (i : Nat) (h : b ≠ a) : (s.raiseIf c a i).reg b = s.reg b := by
  cases c with
  | false => rfl
  | true => exact s.reg_setReg_ne _ h

theorem State.bit_raiseIf_ne (s : State) (c : Bool) (a : Nat) {i k : Nat} (h : k ≠ i) : (s.raiseIf c a i).bit a k = s.bit a k := by
  cases c with
  | false => rfl
  | true => exact s.bit_setBit_ne a true h

/-- A latch that begins joins those that wait; with ONCE the probe is disarmed. -/
theorem State.probe_prbBegin (s : State) (p : Nat) (e : ProbeEdge) :
    ∃ d, (s.prbBegin p e).probe p = { s.probe p with pend := (s.probe p).pend ++ [(e.stamp, e.pos)], disarmed := d } := by
  unfold State.prbBegin
  extract_lets c s1 s2 s3 c3
  have h2 : s3.probe p = s2.probe p := by
    unfold s3
    split <;> rfl
  have h3 : c3 = { s.probe p with pend := (s.probe p).pend ++ [(e.stamp, e.pos)] } := by
    rw [show c3 = s2.probe p from h2, State.probe_raiseIf, s.probe_setProbe_self]
  split
  · exact ⟨none, by rw [State.probe_setProbe_self, h3]⟩
  · exact ⟨_, h3⟩

/-- BUSY shows a latch that waits for its sample. -/
theorem State.busy_prbBegin {s : State} {p : Nat} (e : ProbeEdge) (hbusy : s.bit (PRB_STATUS p) 1 = false) :
    (s.prbBegin p e).bit (PRB_STATUS p) 1 = s.prbWaits p := by
  have hne : PRB_CTRL p ≠ PRB_STATUS p := probeReg_ne (by decide) p
  unfold State.prbBegin
  extract_lets c s1 s2 s3
  have hwaits : s2.prbWaits p = s.prbWaits p := by
    rw [State.prbWaits, State.prbTgt, State.prbIdx, State.fld, State.fld, s1.reg_raiseIf_ne _ 3 hne]
    rfl
  have h2 : s2.bit (PRB_STATUS p) 1 = false := (s1.bit_raiseIf_ne _ _ (by decide)).trans hbusy
  have h3 : s3.bit (PRB_STATUS p) 1 = s.prbWaits p := by
    rw [← hwaits]
    cases h : s2.prbWaits p with
    | true => simp only [s3, h, if_true]; exact s2.bit_setBit_self _ 1 true (by decide)
    | false => simp only [s3, h]; exact h2
  split
  · exact (s3.bit_setBit_ne _ false (by decide)).trans h3
  · exact h3

/-! ### Latches (R194, R195) -/

/-- What a completed latch leaves of its probe. -/
theorem State.probe_probeLatch {s : State} {p : Nat} {st : Stamp} {known : Option (BitVec 64)} {pos : BitVec 64}
    {rest : List (Stamp × Option (BitVec 64))} (hp : (s.probe p).pend = (st, known) :: rest) (hpos : s.prbPosition p st known = some pos) :
    (s.probeLatch p).probe p = { s.probe p with stamp := st, pos := pos, seq := (s.probe p).seq + 1, pend := rest, unread := true } := by
  unfold State.probeLatch
  simp only [hp, hpos]
  rw [State.probe_deliver, State.probe_setBit]
  split
  · rw [State.probe_setBit, State.probe_setProbe_self]
  · rw [State.probe_setProbe_self]

theorem exec_probeLatchComplete {s : State} (p : Fin 8) (hc : s.clocked) :
    exec (.probeLatchComplete p) s = .next (s.probeLatch p) :=
  congrArg Host.Outcome.next (s.onTclk_clocked _ hc)

/-- The shadows of probe `p` show the latch `q`. -/
def State.latchShown (s : State) (p : Nat) (q : Probe) : State :=
  ((s.setReg (PRB_STAMP_HI p) (hiWord q.stamp)).setPair (PRB_POS_LO p) (PRB_POS_HI p) q.pos).setReg (PRB_SEQ p) q.seq

/-- A read clears OVR, unless a latch has completed in its BCLK cycle (R7). -/
theorem State.prbStampRead_eq (s : State) (p : Nat) :
    s.prbStampRead p = (loWord (s.cycleStart.probe p).stamp,
      if (s.probe p).seq = (s.cycleStart.probe p).seq then
        ((s.latchShown p (s.cycleStart.probe p)).setBit (PRB_STATUS p) 2 false).setProbe p { s.probe p with unread := false }
      else s.latchShown p (s.cycleStart.probe p)) := rfl

theorem exec_prbStampLoRead {s : State} (p : Fin 8) (hs : s.serves) :
    exec (.prbStampLoRead p) s = .next ((s.touchChanged (s.prbStampRead p).2).returning [(s.prbStampRead p).1]) :=
  congrArg Host.Outcome.next (s.hostRead_serves _ hs)

theorem State.latchShown_shows (s : State) (p : Nat) (q : Probe) :
    (s.latchShown p q).reg (PRB_STAMP_HI p) = hiWord q.stamp ∧ (s.latchShown p q).pair (PRB_POS_LO p) (PRB_POS_HI p) = q.pos ∧
      (s.latchShown p q).reg (PRB_SEQ p) = q.seq ∧ (s.latchShown p q).reg (PRB_STATUS p) = s.reg (PRB_STATUS p) := by
  refine ⟨?_, ?_, State.reg_setReg_self _ _ _, ?_⟩ <;>
    simp (disch := omega) only [State.latchShown, State.pair_setReg_ne, State.pair_setPair_self, State.reg_setPair_ne, State.reg_setReg_ne,
      State.reg_setReg_self, PRB_STAMP_HI, PRB_POS_LO, PRB_POS_HI, PRB_SEQ, PRB_STATUS]

/-- What the read leaves beside OVR is what the shadows show. -/
theorem State.reg_prbStampRead (s : State) {p a : Nat} (ha : a ≠ PRB_STATUS p) :
    (s.prbStampRead p).2.reg a = (s.latchShown p (s.cycleStart.probe p)).reg a := by
  rw [s.prbStampRead_eq]
  dsimp only
  split
  · rw [State.reg_setProbe, State.reg_setBit_ne _ 2 false ha]
  · rfl

theorem State.ovr_prbStampRead (s : State) (p : Nat) :
    (s.prbStampRead p).2.bit (PRB_STATUS p) 2 =
      if (s.probe p).seq = (s.cycleStart.probe p).seq then false else s.bit (PRB_STATUS p) 2 := by
  obtain ⟨-, -, -, hstatus⟩ := s.latchShown_shows p (s.cycleStart.probe p)
  rw [s.prbStampRead_eq]
  dsimp only
  split
  · rw [State.bit_setProbe, State.bit_setBit_self _ _ 2 false (by decide)]
  · rw [State.bit, hstatus, State.bit]

/-! ### Arming a compare (R196) -/

/-- The registers of a compare are different registers. -/
theorem compareReg_ne {a b : Nat} (hab : a ≠ b) (j : Nat) : a + j * 0x40 ≠ b + j * 0x40 := by omega

/-- PC_CTRL has taken `v`. -/
def State.pcCtrlTaken (s : State) (j : Nat) (v : Word) : State :=
  s.setReg (PC_CTRL j) (mergeWord (s.reg (PC_CTRL j)) v 0x003FEFC0#32)

theorem State.pcCtrlWrite_disarm (s : State) (j : Nat) {v : Word} (hd : v.getLsbD 1 = true) :
    s.pcCtrlWrite j v = ((s.pcCtrlTaken j v).setBit (PC_STATUS j) 0 false).setPcmp j { s.pcmp j with fireDue := none } := if_pos hd

theorem State.pcCtrlWrite_arm (s : State) (j : Nat) {v : Word} (ha : v.getLsbD 0 = true) (hd : v.getLsbD 1 = false) :
    s.pcCtrlWrite j v = (((s.pcCtrlTaken j v).setPcmp j
      { v := s.pair (PC_VAL_LO j) (PC_VAL_HI j), rev := v.getLsbD 13, near := false, fireDue := none }).setBit (PC_STATUS j) 0 true).noteTake
        (.pcmp j) := by
  have hrev : (s.pcCtrlTaken j v).bit (PC_CTRL j) 13 = v.getLsbD 13 := by
    rw [State.bit, State.pcCtrlTaken, State.reg_setReg_self, bitOf, getLsbD_mergeWord, if_pos (by decide)]
  have hpair : (s.pcCtrlTaken j v).pair (PC_VAL_LO j) (PC_VAL_HI j) = s.pair (PC_VAL_LO j) (PC_VAL_HI j) :=
    s.pair_setReg_ne _ (compareReg_ne (by decide) j) (compareReg_ne (by decide) j)
  rw [← hrev, ← hpair]
  exact (if_neg (by rw [bitOf, hd]; decide)).trans (if_pos ha)

theorem exec_pcDisarm {s : State} (j : Fin 32) {v : Word} (ha : s.accepts (PC_CTRL j) v) :
    exec (.pcDisarm j v) s = .next ((s.noteHost (PC_CTRL j)).pcCtrlWrite j v) :=
  congrArg Host.Outcome.next (s.hostWrite_accepts _ ha)

theorem exec_pcArm {s : State} (j : Fin 32) {v : Word} (ha : s.accepts (PC_CTRL j) v) :
    exec (.pcArm j v) s = .next ((s.noteHost (PC_CTRL j)).pcCtrlWrite j v) :=
  congrArg Host.Outcome.next (s.hostWrite_accepts _ ha)

/-- The arm of a compare is decided at the end of its tick. -/
theorem State.runTakes_pcmp {s : State} {j : Nat} (ht : s.takes = [.pcmp j]) :
    s.runTakes = ({ s with takes := [] } : State).pcDecide j := by
  simp [State.runTakes, ht, Take.late, State.runTake]

theorem State.pcDecide_before {s : State} {j : Nat} (ha : s.pcArmed j = true) (hb : s.pcBefore j (s.pcPos j) = true) :
    s.pcDecide j = s.setPcmp j { s.pcmp j with near := true } :=
  (if_neg (by rw [ha]; decide)).trans (if_pos hb)

theorem State.pcDecide_behind {s : State} {j : Nat} (ha : s.pcArmed j = true) (hb : s.pcBefore j (s.pcPos j) = false) :
    s.pcDecide j = if s.bit (PC_CTRL j) 14 then (s.raise (PC_STATUS j) 2).setPcmp j { s.pcmp j with fireDue := some (s.mt + 1) }
      else s.raise (PC_STATUS j) 2 := by
  have hctrl : (s.raise (PC_STATUS j) 2).bit (PC_CTRL j) 14 = s.bit (PC_CTRL j) 14 := s.bit_raise_other 2 14 (compareReg_ne (by decide) j)
  rw [← hctrl]
  exact (if_neg (by rw [ha]; decide)).trans (if_neg (by rw [hb]; decide))

/-! ### Firing (R197) -/

/-- PC_STATUS, PC_POS and PC_STAMP show that compare `j` has fired at `pos` with stamp `st`. -/
structure Fired (s t : State) (j : Nat) (pos : BitVec 64) (st : Stamp) : Prop where
  armed : t.pcArmed j = false
  fired : t.bit (PC_STATUS j) 1 = true
  late : t.bit (PC_STATUS j) 3 = s.bit (PC_STATUS j) 3
  pos : t.pair (PC_POS_LO j) (PC_POS_HI j) = pos
  stamp : t.pair (PC_STAMP_LO j) (PC_STAMP_HI j) = st

/-- A compare that fires is no longer armed, and shows its position and stamp. -/
def State.fireShown (s : State) (j : Nat) (pos : BitVec 64) (st : Stamp) : State :=
  let s := s.setPcmp j { s.pcmp j with near := false, fireDue := none }
  (((s.setBit (PC_STATUS j) 0 false).raise (PC_STATUS j) 1).setPair (PC_POS_LO j) (PC_POS_HI j) pos).setPair (PC_STAMP_LO j) (PC_STAMP_HI j) st

/-- The event and the message of a compare change no register. -/
theorem State.reg_pcFire (s : State) (j : Nat) (pos : BitVec 64) (st : Stamp) (a : Nat) :
    (s.pcFire j pos st).reg a = (s.fireShown j pos st).reg a := by
  unfold State.pcFire
  dsimp only
  split <;> rfl

theorem State.status_fireShown (s : State) (j : Nat) (pos : BitVec 64) (st : Stamp) :
    (s.fireShown j pos st).reg (PC_STATUS j) = putBit (putBit (s.reg (PC_STATUS j)) 0 false) 1 true := by
  have hplo : PC_STATUS j ≠ PC_POS_LO j := compareReg_ne (by decide) j
  have hphi : PC_STATUS j ≠ PC_POS_HI j := compareReg_ne (by decide) j
  have hslo : PC_STATUS j ≠ PC_STAMP_LO j := compareReg_ne (by decide) j
  have hshi : PC_STATUS j ≠ PC_STAMP_HI j := compareReg_ne (by decide) j
  rw [State.fireShown, State.reg_setPair_ne _ _ hslo hshi, State.reg_setPair_ne _ _ hplo hphi, State.raise, State.reg_noteHw, State.setBit,
    State.reg_setReg_self, State.setBit, State.reg_setReg_self, State.reg_setPcmp]

theorem State.fired_pcFire (s : State) (j : Nat) (pos : BitVec 64) (st : Stamp) : Fired s (s.pcFire j pos st) j pos st := by
  have hstatus := (s.reg_pcFire j pos st (PC_STATUS j)).trans (s.status_fireShown j pos st)
  have hpair (lo hi : Nat) : (s.pcFire j pos st).pair lo hi = (s.fireShown j pos st).pair lo hi :=
    congrArg₂ ofWords (s.reg_pcFire j pos st hi) (s.reg_pcFire j pos st lo)
  refine ⟨?_, ?_, ?_, ?_, ?_⟩
  · rw [State.pcArmed, State.bit, hstatus, bitOf_putBit_ne _ _ (by decide), bitOf_putBit_self _ _ _ (by decide)]
  · rw [State.bit, hstatus, bitOf_putBit_self _ _ _ (by decide)]
  · rw [State.bit, hstatus, bitOf_putBit_ne _ _ (by decide), bitOf_putBit_ne _ _ (by decide), State.bit]
  · rw [hpair]
    simp (disch := omega) only [State.fireShown, State.pair_setPair_ne, State.pair_setPair_self, PC_POS_LO, PC_POS_HI, PC_STAMP_LO, PC_STAMP_HI]
  · rw [hpair]
    exact State.pair_setPair_self _ _ _ st (compareReg_ne (by decide) j)

theorem State.pcImmediate_due {s : State} {j : Nat} {u : Tick} (hu : (s.pcmp j).fireDue = some u) (hr : s.reached u = true)
    (ha : s.pcArmed j = true) : s.pcImmediate j = (s.raise (PC_STATUS j) 3).pcFire j (s.pcPos j) s.now := by
  unfold State.pcImmediate
  rw [hu]
  exact if_pos (by rw [hr, ha]; rfl)

theorem State.pcShaftCrossing_met {s : State} {j : Nat} (hl : s.pcLive j = true) (ht : s.pcTgt j = 0) (hn : (s.pcmp j).near = true)
    (hb : s.pcBefore j (s.pcPos j) = false) : s.pcShaftCrossing j = s.pcFire j (s.pcPos j) s.now :=
  if_pos (by rw [hl, ht, hn, hb]; rfl)

theorem exec_pcImmediateFire {s : State} (j : Fin 32) (hc : s.clocked) : exec (.pcImmediateFire j) s = .next (s.pcImmediate j) :=
  congrArg Host.Outcome.next (s.onTclk_clocked _ hc)

theorem exec_pcShaftCrossing {s : State} (j : Fin 32) (hc : s.clocked) : exec (.pcShaftCrossing j) s = .next (s.pcShaftCrossing j) :=
  congrArg Host.Outcome.next (s.onTclk_clocked _ hc)

/-! ### Culverts (R198, R199) -/

theorem State.cvRaw_changed {s : State} {i : Nat} {a b z : Bool} (hm : s.cvMode i = 1) (hin : s.cvInputs i = (a, b, z))
    (hraw : (s.culvert i).raw ≠ (a, b, z)) :
    s.cvRaw i a b z = s.setCulvert i { s.culvert i with raw := (a, b, z), pipe := (s.culvert i).pipe ++ [(s.mt + 4, a, b, z)] } := by
  simp [State.cvRaw, State.cvSampleRaw, hm, hin, hraw]

theorem State.refreshPins_culverts (s : State) (st : Stamp) : (s.refreshPins st).culverts = s.culverts := by
  refine State.refreshPins_preserves (P := fun t => t.culverts = s.culverts) (fun t p c h => h) (fun t k i h => Eq.trans ?_ h)
    (fun t m hm h => h) st rfl
  unfold State.noteWear
  exact List.foldlRecOn (motive := fun u : State => u.culverts = t.culverts) _ _ rfl fun u hu _ _ => hu

theorem State.cvLag_culvert (s : State) (i : Nat) : (s.cvLag i).culvert i = s.culvert i := by
  unfold State.cvLag
  extract_lets was lag s1 s2
  split
  · split <;> rfl
  · rfl

/-- New levels of the outputs leave the state of REGEN and its spacing. -/
theorem State.cvDrive_culvert (s : State) (i : Nat) :
    ∃ a b z, (s.cvDrive i).culvert i = { s.culvert i with a := a, b := b, z := z } := by
  unfold State.cvDrive State.cvOut
  extract_lets st k f per z c
  split
  · exact ⟨c.a, c.b, c.z, rfl⟩
  · refine ⟨k == 1 || k == 2, k == 2 || k == 3, z, ?_⟩
    rw [State.culvert, State.refreshPins_culverts]
    exact s.culvert_setCulvert_self i _

theorem State.cvRegen_due {s : State} {i : Nat} (hm : s.cvMode i = 2) (hp : s.cvPresent i = true) (ho : s.cvOwed i ≠ 0)
    (hr : s.reached (s.culvert i).nextDue = true) :
    s.cvRegen i = ((s.setCulvert i { s.culvert i with
      state := if 0 < s.cvOwed i then (s.culvert i).state + 1 else (s.culvert i).state - 1,
      nextDue := s.mt + BitVec.ofNat 64 (max 16 (s.culvert i).gap) }).cvLag i).cvDrive i :=
  if_pos (by simp [hm, hp, ho, hr])

theorem exec_culvertRawChange {s : State} (i : Fin 8) (a b z : Bool) (hc : s.clocked) :
    exec (.culvertRawChange i a b z) s = .next (s.cvRaw i a b z) :=
  congrArg Host.Outcome.next (s.onTclk_clocked _ hc)

theorem exec_culvertRegenState {s : State} (i : Fin 8) (hc : s.clocked) : exec (.culvertRegenState i) s = .next (s.cvRegen i) :=
  congrArg Host.Outcome.next (s.onTclk_clocked _ hc)

end Sys2Proof.Machine

namespace Sys2Proof.Proofs

open Sys2Proof.Machine Sys2Proof.Machine.Reg

/-- The only edge of a probe, once no later one can discard it. -/
theorem prbTick_judges (p : Fin 8) (e : ProbeEdge) (s : State) (he : (s.probe p).edges = [e]) (hsure : s.edgeSure e.stamp = true) :
    ((s.prbTick p).probe p).edges = [] ∧
      (s.prbTakes p e.rising e.stamp = true → s.bit (PRB_STATUS p) 1 = false →
        ((s.prbTick p).probe p).pend = (s.probe p).pend ++ [(e.stamp, e.pos)] ∧ (s.prbTick p).bit (PRB_STATUS p) 1 = s.prbWaits p) ∧
      (s.prbTakes p e.rising e.stamp = true → s.bit (PRB_STATUS p) 1 = true →
        (s.prbTick p).reg (PRB_MISS p) = satInc (s.reg (PRB_MISS p)) ∧ ((s.prbTick p).probe p).pend = (s.probe p).pend) ∧
      (s.prbTakes p e.rising e.stamp = false → ((s.prbTick p).probe p).pend = (s.probe p).pend ∧ (s.prbTick p).regs = s.regs) := by
  have hprobe := s.probe_edgesJudged p
  rw [State.prbTick_single he hsure, State.prbJudge, State.prbTakes_edgesJudged]
  cases htakes : s.prbTakes p e.rising e.stamp with
  | false =>
    rw [if_pos (by decide), hprobe]
    exact ⟨rfl, nofun, nofun, fun _ => ⟨rfl, rfl⟩⟩
  | true =>
    rw [if_neg (by decide), show (s.edgesJudged p).bit (PRB_STATUS p) 1 = s.bit (PRB_STATUS p) 1 from rfl]
    cases hbusy : s.bit (PRB_STATUS p) 1 with
    | true =>
      rw [if_pos rfl, State.probe_satCount, hprobe]
      exact ⟨rfl, fun _ => nofun, fun _ _ => ⟨State.reg_satCount_self _ _, rfl⟩, nofun⟩
    | false =>
      obtain ⟨d, hbegin⟩ := (s.edgesJudged p).probe_prbBegin p e
      rw [if_neg (by decide), hbegin, hprobe]
      exact ⟨rfl, fun _ _ => ⟨rfl, State.busy_prbBegin (s := s.edgesJudged p) e hbusy⟩, fun _ => nofun, nofun⟩

/-- What a read of PRB_STAMP_LO shows. -/
theorem prbStampLoRead_latches (p : Fin 8) (s : State) (hs : s.serves) :
    let q := s.cycleStart.probe p
    ∃ t, exec (.prbStampLoRead p) s = .next t ∧ t.hostData = [loWord q.stamp] ∧ t.reg (PRB_STAMP_HI p) = hiWord q.stamp ∧
      t.pair (PRB_POS_LO p) (PRB_POS_HI p) = q.pos ∧ t.reg (PRB_SEQ p) = q.seq ∧
      t.bit (PRB_STATUS p) 2 = (if (s.probe p).seq = q.seq then false else s.bit (PRB_STATUS p) 2) := by
  intro q
  obtain ⟨hstamp, hpos, hseq, -⟩ := s.latchShown_shows p q
  have hread {b : Nat} (hb : b ≠ 0x83408) :
      (s.prbStampRead p).2.reg (b + p * 0x40) = (s.latchShown p q).reg (b + p * 0x40) := s.reg_prbStampRead (probeReg_ne hb p)
  refine ⟨_, exec_prbStampLoRead p hs, ?_⟩
  simp only [State.reg_returning, State.pair_returning, State.bit_returning, State.reg_touchChanged, State.pair_touchChanged,
    State.bit_touchChanged]
  refine ⟨rfl, (hread (b := 0x83414) (by decide)).trans hstamp, ?_, (hread (b := 0x83420) (by decide)).trans hseq,
    s.ovr_prbStampRead p⟩
  rw [← hpos, State.pair, State.pair]
  exact congrArg₂ ofWords (hread (b := 0x8341c) (by decide)) (hread (b := 0x83418) (by decide))

/-- The end of the tick of an arm. -/
theorem runTakes_decides (j : Fin 32) (s : State) (ht : s.takes = [.pcmp j]) (ha : s.pcArmed j = true) :
    (s.pcBefore j (s.pcPos j) = true → (s.runTakes.pcmp j).near = true ∧ s.runTakes.regs = s.regs) ∧
      (s.pcBefore j (s.pcPos j) = false → s.runTakes.bit (PC_STATUS j) 2 = true ∧ (s.runTakes.pcmp j).near = (s.pcmp j).near ∧
        (s.runTakes.pcmp j).fireDue = (if s.bit (PC_CTRL j) 14 = true then some (s.mt + 1) else (s.pcmp j).fireDue)) := by
  rw [State.runTakes_pcmp ht]
  refine ⟨fun hb => ?_, fun hb => ?_⟩
  · rw [State.pcDecide_before (s := { s with takes := [] }) ha hb, State.pcmp_setPcmp_self]
    exact ⟨rfl, rfl⟩
  · rw [State.pcDecide_behind (s := { s with takes := [] }) ha hb, show ({ s with takes := [] } : State).bit (PC_CTRL j) 14 =
      s.bit (PC_CTRL j) 14 from rfl]
    cases s.bit (PC_CTRL j) 14 with
    | true =>
      rw [if_pos rfl, State.bit_setPcmp, State.bit_raise_self _ _ (by decide), State.pcmp_setPcmp_self]
      exact ⟨rfl, rfl, rfl⟩
    | false =>
      rw [if_neg (by decide), State.bit_raise_self _ _ (by decide)]
      exact ⟨rfl, rfl, rfl⟩

/-- Settles O34: DISARM and ARM of a probe, its edges, their judgement, the latch and the read; then DISARM and ARM of a compare, its
decision, the two ways to fire, and a culvert in RAW and in REGEN. -/
theorem probesComparesAndCulvertsAct : Obligations.ProbesComparesAndCulvertsAct := by
  refine ⟨⟨fun p v s ha hd => ?_, fun p v s ha harm hd => ?_, fun p rising st s hc hch hl => ?_,
      fun p rising st l s hc hch hl hnear => ?_, fun p rising st k rest s hc hch he => ?_, prbTick_judges,
      fun p s st known pos rest hc hp hpos => ⟨_, exec_probeLatchComplete p hc, ?_⟩, prbStampLoRead_latches⟩,
    fun j v s ha hd => ?_, fun j v s ha harm hd => ?_, runTakes_decides, fun j s u hc hu hr ha => ?_,
    fun j s hc hl ht hn hb => ?_, fun i a b z s hc hm hin hraw => ?_, fun i s hc hm hp ho hr => ⟨_, exec_culvertRegenState i hc, ?_⟩⟩
  · rw [exec_probeDisarm p ha, State.prbCtrlWrite_disarm _ p hd]
    rfl
  · rw [exec_probeArm p ha, State.prbCtrlWrite_arm _ p harm hd]
    rfl
  · rw [exec_probeEdge p rising st hc, State.probeEdge_ball rising hch hl]
  · rw [exec_probeEdge p rising st hc, State.probeEdge_glitch rising hch hl hnear]
  · rw [exec_probeEdge p rising st hc, State.probeEdge_channel hch he]
  · rw [State.probe_probeLatch hp hpos]
    exact ⟨rfl, rfl, rfl, rfl⟩
  · rw [exec_pcDisarm j ha, State.pcCtrlWrite_disarm _ j hd]
    rfl
  · rw [exec_pcArm j ha, State.pcCtrlWrite_arm _ j harm hd]
    rfl
  · have hfired := (s.raise (PC_STATUS j) 3).fired_pcFire j (s.pcPos j) s.now
    refine ⟨_, (exec_pcImmediateFire j hc).trans (congrArg Host.Outcome.next (State.pcImmediate_due hu hr ha)), hfired.armed, hfired.fired,
      hfired.late.trans (s.bit_raise_self _ (by decide)), hfired.pos, hfired.stamp⟩
  · have hfired := s.fired_pcFire j (s.pcPos j) s.now
    exact ⟨_, (exec_pcShaftCrossing j hc).trans (congrArg Host.Outcome.next (State.pcShaftCrossing_met hl ht hn hb)), hfired.armed,
      hfired.fired, hfired.pos, hfired.stamp⟩
  · rw [exec_culvertRawChange i a b z hc, State.cvRaw_changed hm hin hraw]
  · rw [State.cvRegen_due hm hp ho hr]
    obtain ⟨a, b, z, hdrive⟩ := State.cvDrive_culvert (State.cvLag (s.setCulvert i { s.culvert i with
      state := if 0 < s.cvOwed i then (s.culvert i).state + 1 else (s.culvert i).state - 1,
      nextDue := s.mt + BitVec.ofNat 64 (max 16 (s.culvert i).gap) }) i) i
    rw [hdrive, State.cvLag_culvert, State.culvert_setCulvert_self]
    exact ⟨rfl, rfl⟩

end Sys2Proof.Proofs
end

section
/-!
PROOFS. Threads that fault (R210): the registers that an engine writes by itself, what a fault leaves in them, and the words that fault a
thread at an instruction command (R229); then the statement about those words.
-/

namespace Sys2Proof.Machine

open Reg

/-! ### The registers that an engine writes by itself (R202, R210) -/

/-- The status, count and fault registers of cluster `n` and its thread `t`. -/
def engineRegs (n t : Nat) : List Nat :=
  [CL_STATUS n, CL_BUSY n, TH_STATUS n t, TH_RUN n t, FAULT_PC n t, FAULT_INFO n t]

theorem CL_STATUS_mem_engineRegs (n t : Nat) : CL_STATUS n ∈ engineRegs n t := by simp [engineRegs]

theorem CL_BUSY_mem_engineRegs (n t : Nat) : CL_BUSY n ∈ engineRegs n t := by simp [engineRegs]

theorem TH_STATUS_mem_engineRegs (n t : Nat) : TH_STATUS n t ∈ engineRegs n t := by simp [engineRegs]

theorem TH_RUN_mem_engineRegs (n t : Nat) : TH_RUN n t ∈ engineRegs n t := by simp [engineRegs]

theorem FAULT_PC_mem_engineRegs (n t : Nat) : FAULT_PC n t ∈ engineRegs n t := by simp [engineRegs]

theorem FAULT_INFO_mem_engineRegs (n t : Nat) : FAULT_INFO n t ∈ engineRegs n t := by simp [engineRegs]

/-- What running, leaving and faulting thread `t` of cluster `n` can change of the registers, and that they write no local RAM. -/
structure EngineChanges (n t : Nat) (s u : State) : Prop where
  regs : ∀ a, a ∉ engineRegs n t → u.reg a = s.reg a
  localRam : u.localRam = s.localRam

namespace EngineChanges

variable {n t : Nat} {r s u : State}

theorem refl (s : State) : EngineChanges n t s s := ⟨fun _ _ => rfl, rfl⟩

theorem trans (h : EngineChanges n t r s) (h' : EngineChanges n t s u) : EngineChanges n t r u :=
  ⟨fun a ha => (h'.regs a ha).trans (h.regs a ha), h'.localRam.trans h.localRam⟩

theorem setReg (h : EngineChanges n t r s) {a : Nat} (v : Word) (ha : a ∈ engineRegs n t) : EngineChanges n t r (s.setReg a v) :=
  ⟨fun b hb => (s.reg_setReg_ne v (ne_of_mem_of_not_mem ha hb).symm).trans (h.regs b hb), h.localRam⟩

theorem setFld (h : EngineChanges n t r s) {a : Nat} (hi lo v : Nat) (ha : a ∈ engineRegs n t) :
    EngineChanges n t r (s.setFld a hi lo v) := h.setReg _ ha

theorem setThread (h : EngineChanges n t r s) (m i : Nat) (c : Thread) : EngineChanges n t r (s.setThread m i c) :=
  ⟨h.regs, h.localRam⟩

theorem setEngine (h : EngineChanges n t r s) (k : Nat) (e : Engine) : EngineChanges n t r (s.setEngine k e) := ⟨h.regs, h.localRam⟩

theorem useFree (h : EngineChanges n t r s) : EngineChanges n t r s.useFree := ⟨h.regs, h.localRam⟩

theorem ite {c : Prop} [Decidable c] (h : EngineChanges n t r s) (h' : EngineChanges n t r u) :
    EngineChanges n t r (if c then s else u) := by
  split <;> assumption

theorem flags (h : EngineChanges n t s u) : u.reg (TH_FLAGS n t) = s.reg (TH_FLAGS n t) :=
  h.regs _ (by simp [engineRegs, TH_FLAGS, CL_STATUS, CL_BUSY, TH_STATUS, TH_RUN, FAULT_PC, FAULT_INFO]; omega)

theorem pc (h : EngineChanges n t s u) : u.reg (TH_PC n t) = s.reg (TH_PC n t) :=
  h.regs _ (by simp [engineRegs, TH_PC, CL_STATUS, CL_BUSY, TH_STATUS, TH_RUN, FAULT_PC, FAULT_INFO]; omega)

theorem g (h : EngineChanges n t s u) {i : Nat} (hi : i < 16) : u.g n t i = s.g n t i :=
  h.regs _ (by simp [engineRegs, G, CL_STATUS, CL_BUSY, TH_STATUS, TH_RUN, FAULT_PC, FAULT_INFO]; omega)

theorem keepsG (h : EngineChanges n t s u) : s.keepsG u n t [] := fun _ hi _ => h.g hi

end EngineChanges

/-! ### Leaving the engine (R202) -/

theorem TH_STATUS_ne_CL_STATUS (n t : Nat) : TH_STATUS n t ≠ CL_STATUS n := by
  unfold TH_STATUS CL_STATUS
  omega

theorem State.runCycles_changes (s : State) (n t k : Nat) : EngineChanges n t s (s.runCycles n t k) := by
  unfold State.runCycles
  exact (((EngineChanges.refl s).setReg _ (CL_BUSY_mem_engineRegs n t)).setReg _ (TH_RUN_mem_engineRegs n t)).setEngine n _

theorem State.setThState_changes (s : State) (n t st kind : Nat) : EngineChanges n t s (s.setThState n t st kind) :=
  (EngineChanges.refl s).setReg _ (TH_STATUS_mem_engineRegs n t)

theorem State.leaveEngine_changes (s : State) (n t st kind : Nat) : EngineChanges n t s (s.leaveEngine n t st kind) :=
  (s.setThState_changes n t st kind).setReg _ (CL_STATUS_mem_engineRegs n t)

/-- A field of TH_STATUS above WAIT_KIND stays as the state of the thread changes. -/
theorem State.fld_setThState_above (s : State) (n t st kind : Nat) {hi lo : Nat} (h : 7 < lo) :
    (s.setThState n t st kind).fld (TH_STATUS n t) hi lo = s.fld (TH_STATUS n t) hi lo := by
  rw [State.fld, State.setThState, State.reg_setReg_self, bitsOf_setBits_ne _ _ _ _ _ _ (by omega),
    bitsOf_setBits_ne _ _ _ _ _ _ (by omega), State.fld]

theorem State.thState_setThState (s : State) (n t kind : Nat) {st : Nat} (h : st < 8) : (s.setThState n t st kind).thState n t = st := by
  rw [State.thState, State.fld, State.setThState, State.reg_setReg_self, bitsOf_setBits_self _ _ _ _ (by decide)]
  exact Nat.mod_eq_of_lt h

theorem State.reg_setThState_ne (s : State) (n t st kind : Nat) {a : Nat} (h : a ≠ TH_STATUS n t) :
    (s.setThState n t st kind).reg a = s.reg a := s.reg_setReg_ne _ h

theorem State.reg_leaveEngine_TH_STATUS (s : State) (n t st kind : Nat) :
    (s.leaveEngine n t st kind).reg (TH_STATUS n t) = (s.setThState n t st kind).reg (TH_STATUS n t) :=
  State.reg_setReg_ne _ _ (TH_STATUS_ne_CL_STATUS n t)

theorem State.reg_leaveEngine_ne (s : State) (n t st kind : Nat) {a : Nat} (ht : a ≠ TH_STATUS n t) (hc : a ≠ CL_STATUS n) :
    (s.leaveEngine n t st kind).reg a = s.reg a :=
  (State.reg_setReg_ne _ _ hc).trans (s.reg_setThState_ne n t st kind ht)

theorem State.thState_leaveEngine (s : State) (n t kind : Nat) {st : Nat} (h : st < 8) : (s.leaveEngine n t st kind).thState n t = st := by
  rw [State.thState, State.fld, s.reg_leaveEngine_TH_STATUS]
  exact s.thState_setThState n t kind h

theorem State.runningThread_setRunning_none (s : State) (n : Nat) : (s.setRunning n none).runningThread n = none := by
  have hb : (s.setRunning n none).bit (CL_STATUS n) 20 = false := by
    rw [State.bit, State.setRunning, State.reg_setReg_self]
    exact bitOf_putBit_self _ _ _ (by decide)
  rw [State.runningThread, hb]
  rfl

/-- The bits of CL_STATUS above RUN_VALID stay as the running thread leaves. -/
theorem State.bit_leaveEngine_CL_STATUS (s : State) (n t st kind : Nat) {i : Nat} (h : 20 < i) :
    (s.leaveEngine n t st kind).bit (CL_STATUS n) i = s.bit (CL_STATUS n) i := by
  rw [State.bit, State.leaveEngine, State.setRunning, State.reg_setReg_self, bitOf_putBit_ne _ _ (by omega),
    bitOf_setBits_ne _ _ _ _ _ (by omega), s.reg_setThState_ne n t st kind (TH_STATUS_ne_CL_STATUS n t).symm, State.bit]

/-! ### Faults (R210) -/

/-- An event that its select register may hold back changes the list of events alone. -/
theorem State.deliverIf_eq (s : State) (sel selBit source cause : Nat) :
    s.deliverIf sel selBit source cause = { s with irqEvents := (s.deliverIf sel selBit source cause).irqEvents } := by
  unfold State.deliverIf
  split <;> rfl

@[simp] theorem State.reg_threadFaultEvent (s : State) (n t a : Nat) : (s.threadFaultEvent n t).reg a = s.reg a := by
  rw [State.threadFaultEvent, State.deliverIf_eq]
  rfl

@[simp] theorem State.reg_ustoreEvent (s : State) (n a : Nat) : (s.ustoreEvent n).reg a = s.reg a := by
  rw [State.ustoreEvent, State.deliverIf_eq]
  rfl

theorem State.threadFaultEvent_localRam (s : State) (n t : Nat) : (s.threadFaultEvent n t).localRam = s.localRam := by
  rw [State.threadFaultEvent, State.deliverIf_eq]

theorem EngineChanges.threadFaultEvent {n t : Nat} {r s : State} (h : EngineChanges n t r s) (m i : Nat) :
    EngineChanges n t r (s.threadFaultEvent m i) :=
  h.trans ⟨fun a _ => s.reg_threadFaultEvent m i a, s.threadFaultEvent_localRam m i⟩

/-- A fault before its registers are written: the microcycles that a running thread took to it are counted. -/
def State.faultCounted (s : State) (n t : Nat) : State :=
  if s.runningThread n == some t then (s.runCycles n t (s.freeValue.toNat % 64)).useFree else s

/-- A fault with its registers written, the thread not yet FAULTED. -/
def State.faultNoted (s : State) (n t code : Nat) (info : Word) : State :=
  let u := s.faultCounted n t
  let u := ((u.setReg (FAULT_PC n t) (u.reg (TH_PC n t))).setReg (FAULT_INFO n t) info).setFld (TH_STATUS n t) 23 16 code
  (u.setThread n t { u.thread n t with wait := .none, metAt := none, haltReq := false, owes := 0 }).threadFaultEvent n t

theorem State.faultThread_running {s : State} {n t : Nat} (code : Nat) (info : Word) (h : s.runningThread n = some t) :
    s.faultThread n t code info = (s.faultNoted n t code info).leaveEngine n t thFaulted 0 := by
  unfold State.faultThread State.faultNoted State.faultCounted
  exact if_pos (beq_iff_eq.2 h)

theorem State.faultThread_waiting {s : State} {n t : Nat} (code : Nat) (info : Word) (h : s.runningThread n ≠ some t) :
    s.faultThread n t code info = (s.faultNoted n t code info).setThState n t thFaulted 0 := by
  unfold State.faultThread State.faultNoted State.faultCounted
  exact if_neg fun hb => h (beq_iff_eq.1 hb)

theorem State.faultCounted_changes (s : State) (n t : Nat) : EngineChanges n t s (s.faultCounted n t) :=
  .ite (s.runCycles_changes n t _).useFree (.refl s)

theorem State.faultNoted_changes (s : State) (n t code : Nat) (info : Word) : EngineChanges n t s (s.faultNoted n t code info) := by
  have hcounted := s.faultCounted_changes n t
  unfold State.faultNoted
  exact ((((hcounted.setReg _ (FAULT_PC_mem_engineRegs n t)).setReg info (FAULT_INFO_mem_engineRegs n t)).setFld 23 16 code
    (TH_STATUS_mem_engineRegs n t)).setThread n t _).threadFaultEvent n t

theorem State.faultThread_changes (s : State) (n t code : Nat) (info : Word) : EngineChanges n t s (s.faultThread n t code info) := by
  have hnoted := s.faultNoted_changes n t code info
  by_cases h : s.runningThread n = some t
  · exact s.faultThread_running code info h ▸ hnoted.trans (State.leaveEngine_changes _ n t _ _)
  · exact s.faultThread_waiting code info h ▸ hnoted.trans (State.setThState_changes _ n t _ _)

/-- The registers that a fault writes and that the thread's new state leaves: all but TH_STATUS and CL_STATUS. -/
theorem State.reg_faultThread_ne (s : State) (n t code : Nat) (info : Word) {a : Nat} (ht : a ≠ TH_STATUS n t) (hc : a ≠ CL_STATUS n) :
    (s.faultThread n t code info).reg a = (s.faultNoted n t code info).reg a := by
  by_cases h : s.runningThread n = some t
  · rw [State.faultThread_running code info h, State.reg_leaveEngine_ne _ n t _ _ ht hc]
  · rw [State.faultThread_waiting code info h, State.reg_setThState_ne _ n t _ _ ht]

theorem State.thState_faultThread (s : State) (n t code : Nat) (info : Word) : (s.faultThread n t code info).thState n t = thFaulted := by
  by_cases h : s.runningThread n = some t
  · rw [State.faultThread_running code info h, State.thState_leaveEngine _ n t 0 (by decide)]
  · rw [State.faultThread_waiting code info h, State.thState_setThState _ n t 0 (by decide)]

theorem State.faultCode_faultThread (s : State) (n t : Nat) (info : Word) {code : Nat} (hcode : code < 256) :
    (s.faultThread n t code info).fld (TH_STATUS n t) 23 16 = code := by
  have hnoted : (s.faultNoted n t code info).fld (TH_STATUS n t) 23 16 = code := by
    rw [State.fld, State.faultNoted, State.reg_threadFaultEvent, State.reg_setThread, ← State.fld,
      State.fld_setFld_self _ _ _ _ _ (by decide)]
    exact Nat.mod_eq_of_lt hcode
  by_cases h : s.runningThread n = some t
  · rw [State.faultThread_running code info h, State.fld, State.reg_leaveEngine_TH_STATUS]
    exact (State.fld_setThState_above _ n t _ _ (by decide)).trans hnoted
  · rw [State.faultThread_waiting code info h, State.fld_setThState_above _ n t _ _ (by decide), hnoted]

theorem State.faultInfo_faultThread (s : State) (n t code : Nat) (info : Word) :
    (s.faultThread n t code info).reg (FAULT_INFO n t) = info := by
  have ht : FAULT_INFO n t ≠ TH_STATUS n t := by unfold FAULT_INFO TH_STATUS; omega
  rw [s.reg_faultThread_ne n t code info ht (by unfold FAULT_INFO CL_STATUS; omega), State.faultNoted, State.reg_threadFaultEvent,
    State.reg_setThread, State.reg_setFld_ne _ _ _ _ ht, State.reg_setReg_self]

theorem State.faultPc_faultThread (s : State) (n t code : Nat) (info : Word) :
    (s.faultThread n t code info).reg (FAULT_PC n t) = s.reg (TH_PC n t) := by
  have ht : FAULT_PC n t ≠ TH_STATUS n t := by unfold FAULT_PC TH_STATUS; omega
  rw [s.reg_faultThread_ne n t code info ht (by unfold FAULT_PC CL_STATUS; omega), State.faultNoted, State.reg_threadFaultEvent,
    State.reg_setThread, State.reg_setFld_ne _ _ _ _ ht, State.reg_setReg_ne _ _ (by unfold FAULT_PC FAULT_INFO; omega),
    State.reg_setReg_self]
  exact (s.faultCounted_changes n t).pc

/-- What a fault shows (R210). -/
theorem State.faulted_faultThread (s : State) (n t : Nat) (info : Word) {code : Nat} (hcode : code < 256) :
    s.faulted (s.faultThread n t code info) n t code info :=
  ⟨s.thState_faultThread n t code info, s.faultCode_faultThread n t info hcode, s.faultInfo_faultThread n t code info,
    s.faultPc_faultThread n t code info, (s.faultThread_changes n t code info).flags⟩

/-! ### The instruction commands (R229) -/

/-- Each instruction command runs the instruction that it stands for. -/
theorem exec_kciRow {p : (Fin 24 → Instr) × Kci} (hp : p ∈ kciRows) (n : Fin 24) (s : State) :
    exec (p.1 n) s = .next (s.kci n p.2) := by
  have hrows : kciRows.Forall fun p => exec (p.1 n) s = .next (s.kci n p.2) := by
    unfold kciRows
    repeat' constructor
  exact List.forall_iff_forall_mem.1 hrows p hp

theorem State.kci_no_thread {s : State} {n : Nat} (o : Kci) (h : s.kThread n = none) : s.kci n o = s := by
  rw [State.kci, h]

theorem State.kci_no_instruction {s : State} {n t : Nat} (o : Kci) (h : s.kThread n = some t) (hw : kciOf (s.kWord n t) = none) :
    s.kci n o = s.faultThread n t 1 (s.kWord n t) := by
  simp only [State.kci, h, hw]

theorem State.kci_other {s : State} {n t : Nat} {o p : Kci} (h : s.kThread n = some t) (hw : kciOf (s.kWord n t) = some p) (hne : p ≠ o) :
    s.kci n o = s := by
  simp only [State.kci, h, hw]
  exact if_pos hne

theorem State.kci_decodeFault {s : State} {n t code : Nat} {o : Kci} (h : s.kThread n = some t) (hw : kciOf (s.kWord n t) = some o)
    (hf : o.decodeFault (s.kWord n t) (s.engine n).level = some code) : s.kci n o = s.faultThread n t code (s.kWord n t) := by
  simp only [State.kci, h, hw, hf]
  exact if_neg fun hne => hne rfl

/-- A decode check fails with ILLEGAL_OP or with LEVEL. -/
theorem Kci.decodeFault_code {o : Kci} {w : Word} {level code : Nat} (h : o.decodeFault w level = some code) : code = 1 ∨ code = 2 := by
  unfold Kci.decodeFault at h
  split at h
  · exact .inl (Option.some.inj h).symm
  · split at h
    · exact .inl (Option.some.inj h).symm
    · split at h
      · exact .inr (Option.some.inj h).symm
      · exact absurd h (by simp)

end Sys2Proof.Machine

namespace Sys2Proof.Proofs

open Sys2Proof.Machine

/-- Settles O44: a word that is no instruction, one that fails a check, the command of another instruction, and no running thread. -/
theorem kciIllegalWordsFault : Obligations.KciIllegalWordsFault := by
  intro n t s p hp
  rw [exec_kciRow hp n s]
  refine ⟨fun hk hw => ⟨_, congrArg _ (State.kci_no_instruction p.2 hk hw), s.faulted_faultThread n t _ (by decide), ?_, ?_⟩,
    fun code hk hw hf => ⟨_, congrArg _ (State.kci_decodeFault hk hw hf), ?_⟩, fun o hk hw ho => ?_, fun hk => ?_⟩
  · exact (s.faultThread_changes n t 1 _).keepsG
  · exact (s.faultThread_changes n t 1 _).localRam
  · have hcode := Kci.decodeFault_code hf
    exact ⟨s.faulted_faultThread n t _ (by omega), hcode, (s.faultThread_changes n t code _).keepsG⟩
  · exact congrArg _ (State.kci_other hk hw ho)
  · exact congrArg _ (State.kci_no_thread p.2 hk)

end Sys2Proof.Proofs
end

section
/-!
PROOFS. Microwords, waits and reservoir accesses of threads (R203, R207, R208, R211, R212, R233): what a microcycle, a POLL, the end of a
wait and a completed access leave of the engine, the thread and its registers; then the statement.
-/

namespace Sys2Proof.Machine

open Reg

/-! ### A microcycle (R207) -/

/-- A microword executes on a running thread of a cluster whose clock runs. -/
theorem State.runningThread_of_microThread {s : State} {n t : Nat} (h : s.microThread n = some t) : s.runningThread n = some t := by
  unfold State.microThread at h
  split at h
  · exact h
  · exact absurd h (by simp)

theorem State.reg_runCycles_ne (s : State) (n t k : Nat) {a : Nat} (hb : a ≠ CL_BUSY n) (hr : a ≠ TH_RUN n t) :
    (s.runCycles n t k).reg a = s.reg a := by
  unfold State.runCycles
  rw [State.reg_setEngine, State.reg_setReg_ne _ _ hr, State.reg_setReg_ne _ _ hb]

theorem State.engine_runCycles (s : State) (n t k : Nat) :
    (s.runCycles n t k).engine n = { s.engine n with ran := (s.engine n).ran + k, sincePoll := (s.engine n).sincePoll + k } := by
  unfold State.runCycles
  rw [State.engine_setEngine_self, State.engine_setReg, State.engine_setReg]

theorem State.runCycles_mt (s : State) (n t k : Nat) : (s.runCycles n t k).mt = s.mt := by
  unfold State.runCycles
  rw [State.setEngine_mt, State.setReg_mt, State.setReg_mt]

theorem State.engine_microStep (s : State) (n t : Nat) (a : BitVec 12) :
    (s.microStep n t a).engine n =
      { s.engine n with ran := (s.engine n).ran + 1, sincePoll := (s.engine n).sincePoll + 1, freeAt := s.mt + 2 } := by
  unfold State.microStep
  rw [State.engine_setEngine_self, State.engine_setThread, s.engine_runCycles, State.setThread_mt, State.runCycles_mt]

theorem State.thread_microStep (s : State) (n t : Nat) (a : BitVec 12) :
    (s.microStep n t a).thread n t = { s.thread n t with upc := a } := by
  unfold State.microStep
  rw [State.thread_setEngine, State.thread_setThread_self]

theorem State.reg_microStep_ne (s : State) (n t : Nat) (a : BitVec 12) {b : Nat} (hb : b ≠ CL_BUSY n) (hr : b ≠ TH_RUN n t) :
    (s.microStep n t a).reg b = s.reg b := by
  unfold State.microStep
  rw [State.reg_setEngine, State.reg_setThread, s.reg_runCycles_ne n t 1 hb hr]

/-! ### POLL (R208, R212) -/

theorem State.engine_notePoll (s : State) (n : Nat) : (s.notePoll n).engine n = { s.engine n with sincePoll := 0 } := by
  unfold State.notePoll
  rw [State.engine_setEngine_self, State.engine_noteHw]
  split
  · rw [State.engine_setReg]
  · rfl

theorem State.notePoll_thread (s : State) (n m t : Nat) : (s.notePoll n).thread m t = s.thread m t := by
  unfold State.notePoll
  rw [State.thread_setEngine, State.thread_noteHw]
  split
  · rw [State.thread_setReg]
  · rfl

theorem State.reg_notePoll_ne (s : State) (n : Nat) {a : Nat} (h : a ≠ CL_POLL_MAX n) : (s.notePoll n).reg a = s.reg a := by
  unfold State.notePoll
  rw [State.reg_setEngine, State.reg_noteHw]
  split
  · exact s.reg_setReg_ne _ h
  · rfl

/-- CL_POLL_MAX keeps the longest interval. -/
theorem State.pollMax_notePoll (s : State) (n : Nat) :
    (s.notePoll n).reg (CL_POLL_MAX n) = if (s.reg (CL_POLL_MAX n)).toNat < (s.engine n).sincePoll
      then BitVec.ofNat 32 (s.engine n).sincePoll else s.reg (CL_POLL_MAX n) := by
  unfold State.notePoll
  simp only [decide_eq_true_eq, State.reg_setEngine, State.reg_noteHw]
  split
  · exact s.reg_setReg_self _ _
  · rfl

/-- The state of a POLL before it takes HALT or gives up the engine. -/
def State.polled (s : State) (n t : Nat) (a : BitVec 12) : State :=
  let u := (s.microStep n t a).notePoll n
  u.setEngine n { u.engine n with pollDue := false }

theorem State.engine_polled (s : State) (n t : Nat) (a : BitVec 12) :
    (s.polled n t a).engine n =
      { s.engine n with ran := (s.engine n).ran + 1, sincePoll := 0, freeAt := s.mt + 2, pollDue := false } := by
  unfold State.polled
  rw [State.engine_setEngine_self, State.engine_notePoll, State.engine_microStep]

theorem State.thread_polled (s : State) (n t : Nat) (a : BitVec 12) : (s.polled n t a).thread n t = { s.thread n t with upc := a } := by
  unfold State.polled
  rw [State.thread_setEngine, State.notePoll_thread, s.thread_microStep]

theorem State.reg_polled_ne (s : State) (n t : Nat) (a : BitVec 12) {b : Nat} (h : b ≠ CL_POLL_MAX n) :
    (s.polled n t a).reg b = (s.microStep n t a).reg b := by
  unfold State.polled
  rw [State.reg_setEngine, State.reg_notePoll_ne _ n h]

theorem State.reg_polled_CL_STATUS (s : State) (n t : Nat) (a : BitVec 12) : (s.polled n t a).reg (CL_STATUS n) = s.reg (CL_STATUS n) := by
  rw [s.reg_polled_ne n t a (by unfold CL_STATUS CL_POLL_MAX; omega),
    s.reg_microStep_ne n t a (by unfold CL_STATUS CL_BUSY; omega) (by unfold CL_STATUS TH_RUN; omega)]

/-- CL_POLL_MAX after a POLL: the interval that it ends has its own microcycle in it. -/
theorem State.pollMax_polled (s : State) (n t : Nat) (a : BitVec 12) :
    (s.polled n t a).reg (CL_POLL_MAX n) = if (s.reg (CL_POLL_MAX n)).toNat < (s.engine n).sincePoll + 1
      then BitVec.ofNat 32 ((s.engine n).sincePoll + 1) else s.reg (CL_POLL_MAX n) := by
  unfold State.polled
  rw [State.reg_setEngine, State.pollMax_notePoll, s.engine_microStep,
    s.reg_microStep_ne n t a (by unfold CL_POLL_MAX CL_BUSY; omega) (by unfold CL_POLL_MAX TH_RUN; omega)]

/-- What makes a thread give up the engine at a POLL: registers other than CL_POLL_MAX, and the microcycles that it has run. -/
theorem State.givesUp_congr {s u : State} {n : Nat} (t : Nat) (hr : ∀ a, a ≠ CL_POLL_MAX n → u.reg a = s.reg a)
    (he : (u.engine n).ran = (s.engine n).ran) : u.givesUp n t = s.givesUp n t := by
  have hstate (i : Nat) : u.thState n i = s.thState n i :=
    congrArg (bitsOf · 2 0) (hr _ (by unfold TH_STATUS CL_POLL_MAX; omega))
  have hprio (i : Nat) : u.thPrio n i = s.thPrio n i :=
    congrArg (bitsOf · 9 8) (hr _ (by unfold TH_CTRL CL_POLL_MAX; omega))
  have hready (p : Nat) : u.readyAt n p = s.readyAt n p := by
    simp only [State.readyAt, hstate, hprio]
  have hquantum : u.fld (CL_CTRL n) 15 0 = s.fld (CL_CTRL n) 15 0 :=
    congrArg (bitsOf · 15 0) (hr _ (by unfold CL_CTRL CL_POLL_MAX; omega))
  have hswap : u.swapHolds n = s.swapHolds n := by
    simp only [State.swapHolds, State.bit, hr SWAP_STATUS (by unfold SWAP_STATUS CL_POLL_MAX; omega),
      hr SWAP_MASK (by unfold SWAP_MASK CL_POLL_MAX; omega)]
  simp only [State.givesUp, hprio, hready, hquantum, hswap, he]

theorem State.givesUp_polled (s : State) (n t : Nat) (a : BitVec 12) : (s.polled n t a).givesUp n t = (s.microStep n t a).givesUp n t :=
  State.givesUp_congr t (fun _ h => s.reg_polled_ne n t a h) (by rw [s.engine_polled, s.engine_microStep])

/-- A POLL microword of a thread that keeps the engine. -/
theorem State.poll_continues {s : State} {n t : Nat} (hm : s.microThread n = some t) (hd : (s.engine n).pollDue = false)
    (hop : microOp (s.microword (s.thread n t).upc) = 1) (hh : (s.thread n t).haltReq = false)
    (hg : (s.microStep n t (microNext (s.microword (s.thread n t).upc))).givesUp n t = false) :
    s.poll n = s.polled n t (microNext (s.microword (s.thread n t).upc)) := by
  have hhalt := congrArg Thread.haltReq (s.thread_polled n t (microNext (s.microword (s.thread n t).upc)))
  rw [← s.givesUp_polled] at hg
  simp only [State.poll, hm, hd, hop, Bool.false_or, beq_self_eq_true, if_true, Bool.false_eq_true, if_false]
  rw [← State.polled, hhalt, hh, hg]
  rfl

/-- The POLL of an instruction boundary, with a HALT written. -/
theorem State.poll_halts {s : State} {n t : Nat} (hm : s.microThread n = some t) (hd : (s.engine n).pollDue = true)
    (hh : (s.thread n t).haltReq = true) :
    s.poll n = ((s.polled n t (s.thread n t).upc).setThread n t
      { (s.polled n t (s.thread n t).upc).thread n t with haltReq := false }).leaveEngine n t thHalted 0 := by
  have hhalt := congrArg Thread.haltReq (s.thread_polled n t (s.thread n t).upc)
  simp only [State.poll, hm, hd, Bool.true_or, if_true]
  rw [← State.polled, hhalt, hh]
  rfl

/-! ### TRAP, branches and datapath microwords (R207, R211) -/

theorem State.trap_faults {s : State} {n t : Nat} (hm : s.microThread n = some t) (hd : (s.engine n).pollDue = false)
    (hop : microOp (s.microword (s.thread n t).upc) = 0) : s.trap n = s.useFree.faultThread n t 6 (s.freeValue.truncate 32) := by
  simp only [State.trap, hm, hd, hop, Bool.not_false, beq_self_eq_true, Bool.and_self, if_true]

theorem nextMicro_branch {w : Word} (h2 : 2 ≤ microOp w) (h15 : microOp w ≤ 15) (cond : Bool) :
    nextMicro w cond = if cond = true then microNext w ||| 1 else microNext w := by
  rw [nextMicro, if_pos ⟨h2, h15⟩]
  cases cond with
  | true => rfl
  | false => exact BitVec.or_zero

theorem State.microBranch_taken {s : State} {n t : Nat} (cond : Bool) (hm : s.microThread n = some t)
    (hd : (s.engine n).pollDue = false) (h2 : 2 ≤ microOp (s.microword (s.thread n t).upc))
    (h15 : microOp (s.microword (s.thread n t).upc) ≤ 15) :
    s.microBranch n cond = s.microStep n t (nextMicro (s.microword (s.thread n t).upc) cond) := by
  simp only [State.microBranch, hm, hd, h2, h15, Bool.not_false, decide_true, Bool.and_self, if_true]

theorem State.datapathMicroword_steps {s : State} {n t : Nat} (hm : s.microThread n = some t) (hd : (s.engine n).pollDue = false)
    (hop : 16 ≤ microOp (s.microword (s.thread n t).upc)) :
    s.datapathMicroword n false = s.microStep n t (microNext (s.microword (s.thread n t).upc)) := by
  simp only [State.datapathMicroword, hm, hd, hop, Bool.not_false, decide_true, Bool.and_self, if_true, Bool.false_eq_true, if_false]

/-! ### A parity error stops the engine (R211) -/

/-- ENG_STOP and USTORE_ERR of cluster `n`, set. -/
def State.stopEngine (s : State) (n : Nat) : State := s.setReg (CL_STATUS n) (putBit (putBit (s.reg (CL_STATUS n)) 31 true) 30 true)

theorem State.bits_stopEngine (s : State) (n : Nat) :
    (s.stopEngine n).bit (CL_STATUS n) 31 = true ∧ (s.stopEngine n).bit (CL_STATUS n) 30 = true := by
  rw [State.bit, State.bit, State.stopEngine, State.reg_setReg_self, bitOf_putBit_ne _ _ (by decide)]
  exact ⟨bitOf_putBit_self _ _ _ (by decide), bitOf_putBit_self _ _ _ (by decide)⟩

theorem State.runningThread_stopEngine (s : State) (n : Nat) : (s.stopEngine n).runningThread n = s.runningThread n := by
  rw [State.runningThread, State.runningThread, State.bit, State.bit, State.fld, State.fld, State.stopEngine, State.reg_setReg_self,
    bitOf_putBit_ne _ _ (by decide), bitOf_putBit_ne _ _ (by decide), bitsOf_putBit_ne _ _ _ _ _ (by decide),
    bitsOf_putBit_ne _ _ _ _ _ (by decide)]

theorem State.runningThread_useFree (s : State) (n : Nat) : s.useFree.runningThread n = s.runningThread n := by
  rw [State.runningThread, State.bit_useFree, State.fld_useFree, State.runningThread]

theorem State.datapathMicroword_parity {s : State} {n t : Nat} (hm : s.microThread n = some t) :
    s.datapathMicroword n true = ((s.stopEngine n).useFree.faultThread n t 7 ((s.stopEngine n).freeValue.truncate 32)).ustoreEvent n := by
  simp only [State.datapathMicroword, hm, if_true]
  rfl

theorem State.runningThread_leaveEngine (s : State) (n t st kind : Nat) : (s.leaveEngine n t st kind).runningThread n = none :=
  State.runningThread_setRunning_none _ n

theorem State.reg_faultCounted_CL_STATUS (s : State) (n t : Nat) : (s.faultCounted n t).reg (CL_STATUS n) = s.reg (CL_STATUS n) := by
  unfold State.faultCounted
  split
  · rw [State.reg_useFree, State.reg_runCycles_ne _ _ _ _ (by unfold CL_STATUS CL_BUSY; omega) (by unfold CL_STATUS TH_RUN; omega)]
  · rfl

/-- A fault of the running thread takes it off the engine, and leaves the stop of the engine as it was. -/
theorem State.engine_after_faultThread {s : State} {n t : Nat} (code : Nat) (info : Word) (h : s.runningThread n = some t) :
    (s.faultThread n t code info).runningThread n = none ∧
      ∀ i, 20 < i → (s.faultThread n t code info).bit (CL_STATUS n) i = s.bit (CL_STATUS n) i := by
  rw [State.faultThread_running code info h]
  refine ⟨State.runningThread_leaveEngine _ n t _ _, fun i hi => ?_⟩
  rw [State.bit_leaveEngine_CL_STATUS _ n t _ _ hi, State.bit, State.faultNoted, State.reg_threadFaultEvent, State.reg_setThread,
    State.reg_setFld_ne _ _ _ _ (TH_STATUS_ne_CL_STATUS n t).symm, State.reg_setReg_ne _ _ (by unfold CL_STATUS FAULT_INFO; omega),
    State.reg_setReg_ne _ _ (by unfold CL_STATUS FAULT_PC; omega), s.reg_faultCounted_CL_STATUS, State.bit]

theorem State.bit_ustoreEvent (s : State) (n a i : Nat) : (s.ustoreEvent n).bit a i = s.bit a i := by
  rw [State.bit, State.reg_ustoreEvent, State.bit]

theorem State.fld_ustoreEvent (s : State) (n a hi lo : Nat) : (s.ustoreEvent n).fld a hi lo = s.fld a hi lo := by
  rw [State.fld, State.reg_ustoreEvent, State.fld]

theorem State.maySelect_stopped {s : State} {n : Nat} (h : s.bit (CL_STATUS n) 31 = true) : s.maySelect n = false := by
  simp only [State.maySelect, h, Bool.not_true, Bool.and_false, Bool.false_and]

/-! ### Registers of a thread that hardware updates (R221) -/

theorem State.reg_setRw_self (s : State) (a : Nat) (v : Word) : (s.setRw a v).reg a = v := s.reg_setReg_self a v

theorem State.reg_setRw_ne (s : State) {a b : Nat} (v : Word) (h : b ≠ a) : (s.setRw a v).reg b = s.reg b := s.reg_setReg_ne v h

theorem State.thread_setRw (s : State) (a : Nat) (v : Word) (n t : Nat) : (s.setRw a v).thread n t = s.thread n t := rfl

theorem State.setRw_mt (s : State) (a : Nat) (v : Word) : (s.setRw a v).mt = s.mt := rfl

theorem State.setRw_reservoir (s : State) (a : Nat) (v : Word) : (s.setRw a v).reservoir = s.reservoir := rfl

theorem bitsOf_ofNat_low {x : Nat} (h : x < 65536) : bitsOf (BitVec.ofNat 32 x) 15 0 = x := by
  rw [bitsOf, BitVec.toNat_ofNat, Nat.shiftRight_zero]
  omega

theorem State.thPc_setThPc (s : State) (n t pc : Nat) : (s.setThPc n t pc).thPc n t = pc % 65536 / 4 * 4 := by
  rw [State.thPc, State.fld, State.setThPc, State.reg_setRw_self, bitsOf_ofNat_low (by omega)]

theorem State.reg_setThPc_ne (s : State) (n t pc : Nat) {a : Nat} (h : a ≠ TH_PC n t) : (s.setThPc n t pc).reg a = s.reg a := by
  rw [State.setThPc, State.reg_setRw_ne _ _ h]

theorem State.setThPc_mt (s : State) (n t pc : Nat) : (s.setThPc n t pc).mt = s.mt := by
  rw [State.setThPc, State.setRw_mt]

theorem State.setG_mt (s : State) (n t i : Nat) (v : Word) : (s.setG n t i v).mt = s.mt := by
  rw [State.setG, State.setRw_mt]

theorem State.setG_reservoir (s : State) (n t i : Nat) (v : Word) : (s.setG n t i v).reservoir = s.reservoir := by
  rw [State.setG, State.setRw_reservoir]

theorem State.g_setG_self (s : State) (n t i : Nat) (v : Word) : (s.setG n t i v).g n t i = v := by
  rw [State.g, State.setG, State.reg_setRw_self]

theorem State.g_setG_ne (s : State) (n t : Nat) {i j : Nat} (v : Word) (h : i ≠ j) : (s.setG n t j v).g n t i = s.g n t i := by
  rw [State.g, State.setG, State.reg_setRw_ne _ _ (by unfold G; omega), State.g]

/-! ### The end of a wait (R203, R248) -/

/-- A time wait ends: the thread is READY at the next instruction, with the status of the wait. -/
theorem State.threadReady_time {s : State} {n t : Nat} {m : Tick} {target : Stamp} (hm : (s.thread n t).metAt = some m)
    (hw : (s.thread n t).wait = .time target) (hst : s.thState n t = thWaiting) (hrun : s.engineRuns n = true)
    (hmt : s.mt.getLsbD 0 = false) (hr : s.reached (m + 2) = true) :
    s.threadReady n t = ((((s.setThread n t { s.thread n t with wait := .none, metAt := none }).setSt n t (s.thread n t).metSt).setThPc n t
      (s.thPc n t + 4)).makeReady n t) := by
  simp only [State.threadReady, hm, hw, hst, hrun, hmt, hr, beq_self_eq_true, Bool.not_false, Bool.and_self, if_true]
  rfl

/-- A wait for a ring or an access ends: the thread is READY where it stood. -/
theorem State.threadReady_other {s : State} {n t : Nat} {m : Tick} (hm : (s.thread n t).metAt = some m)
    (hnone : (s.thread n t).wait ≠ .none) (htime : ∀ target, (s.thread n t).wait ≠ .time target)
    (hangle : ∀ h pos back due, (s.thread n t).wait ≠ .angle h pos back due) (hst : s.thState n t = thWaiting)
    (hrun : s.engineRuns n = true) (hmt : s.mt.getLsbD 0 = false) (hr : s.reached (m + 2) = true) :
    ∃ u : State, s.threadReady n t = u.makeReady n t ∧ u.regs = s.regs ∧ (u.thread n t).wait = .none := by
  simp only [State.threadReady, hm, hst, hrun, hmt, hr, beq_self_eq_true, Bool.not_false, Bool.and_self, if_true]
  cases hw : (s.thread n t).wait with
  | none => exact absurd hw hnone
  | time target => exact absurd hw (htime target)
  | angle h pos back due => exact absurd hw (hangle h pos back due)
  | ring r push =>
    refine ⟨_, rfl, rfl, ?_⟩
    rw [State.thread_setThread_self, State.thread_setThread_self]
  | access kind sz addr d issued next =>
    refine ⟨_, rfl, rfl, ?_⟩
    rw [State.thread_setThread_self]

theorem TH_FLAGS_ne_TH_STATUS (n t : Nat) : TH_FLAGS n t ≠ TH_STATUS n t := by
  unfold TH_FLAGS TH_STATUS
  omega

theorem TH_PC_ne_TH_STATUS (n t : Nat) : TH_PC n t ≠ TH_STATUS n t := by
  unfold TH_PC TH_STATUS
  omega

theorem State.thread_leaveEngine (s : State) (n t st kind : Nat) : (s.leaveEngine n t st kind).thread n t = s.thread n t := by
  rw [State.leaveEngine, State.setRunning, State.thread_setReg, State.setThState, State.thread_setReg]

theorem State.thState_makeReady (s : State) (n t : Nat) : (s.makeReady n t).thState n t = thReady :=
  s.thState_setThState n t 0 (by decide)

theorem State.reg_makeReady_ne (s : State) (n t : Nat) {a : Nat} (h : a ≠ TH_STATUS n t) : (s.makeReady n t).reg a = s.reg a :=
  s.reg_setThState_ne n t _ _ h

theorem State.thPc_makeReady (s : State) (n t : Nat) : (s.makeReady n t).thPc n t = s.thPc n t := by
  rw [State.thPc, State.fld, s.reg_makeReady_ne n t (TH_PC_ne_TH_STATUS n t), State.thPc, State.fld]

theorem State.thread_makeReady (s : State) (n t : Nat) : (s.makeReady n t).thread n t = s.thread n t := by
  rw [State.makeReady, State.setThState, State.thread_setReg]

theorem State.fld_setSt (s : State) (n t st : Nat) : (s.setSt n t st).fld (TH_FLAGS n t) 7 4 = st % 16 := by
  rw [State.fld, State.setSt, State.reg_setRw_self]
  exact bitsOf_setBits_self _ _ _ _ (by decide)

/-! ### Reservoir accesses (R233) -/

theorem State.doAccess_load {s : State} (n t : Nat) {sz addr : Nat} (d : Nat) (hsz : sz ≠ 3)
    (hp : s.resPoisoned addr (2 ^ (sz % 4)) = false) :
    s.doAccess n t 5 sz addr d = (true, s.setG n t d (extend sz (s.resRead addr (2 ^ (sz % 4))))) := by
  simp only [State.doAccess, hp, State.loadTo, hsz, Bool.false_eq_true, if_false]

theorem State.doAccess_load_poisoned {s : State} (n t : Nat) {sz addr : Nat} (d : Nat) (hp : s.resPoisoned addr (2 ^ (sz % 4)) = true) :
    s.doAccess n t 5 sz addr d = (false, s.setResvUe) := by
  simp only [State.doAccess, hp, if_true]

theorem State.doAccess_store {s : State} (n t : Nat) {sz addr : Nat} (d : Nat) (hsz : sz ≤ 2) (hp : s.resPoisoned addr (2 ^ sz) = false) :
    s.doAccess n t 6 sz addr d = (true, s.resWrite addr ((s.g n t d).toNat % 2 ^ (8 * 2 ^ sz)) (2 ^ sz)) := by
  have h3 : sz ≠ 3 := by omega
  simp only [State.doAccess, State.resStore, State.storeData, hp, h3, Bool.false_eq_true, if_false]

theorem State.doAccess_add {s : State} (n t sz : Nat) {addr : Nat} (d : Nat) (hp : s.resPoisoned addr 4 = false) :
    s.doAccess n t 7 sz addr d = (true, (s.resWrite addr ((s.resRead addr 4 + (s.g n t d).toNat) % 2 ^ 32) 4).setG n t d
      (BitVec.ofNat 32 (s.resRead addr 4))) := by
  simp only [State.doAccess, hp, Bool.false_eq_true, if_false]

theorem GSTAT_notMem_engineRegs (n t : Nat) : GSTAT ∉ engineRegs n t := by
  simp [engineRegs, GSTAT, CL_STATUS, CL_BUSY, TH_STATUS, TH_RUN, FAULT_PC, FAULT_INFO]
  omega

/-- The state once the access of a thread is done: its PC at the next instruction, the wait met in the present tick. -/
def State.accessed (s : State) (n t next : Nat) (c : Thread) : State :=
  (s.setThPc n t next).setThread n t { c with metAt := some s.mt, metSt := 0, owes := 2 }

theorem State.accessComplete_done {s u : State} {n t kind sz addr d next : Nat} {issued : Tick}
    (hw : (s.thread n t).wait = .access kind sz addr d issued next) (hm : (s.thread n t).metAt = none)
    (hr : s.reached (issued + 40) = true) (hh : (s.thread n t).haltReq = false) (hu : s.doAccess n t kind sz addr d = (true, u)) :
    s.accessComplete n t = u.accessed n t next (s.thread n t) := by
  simp only [State.accessComplete, hw, hm, hr, hh, hu, Option.isNone_none, Bool.and_self, if_true, Bool.false_eq_true, if_false]
  rw [State.accessed, hw, hh, State.setThPc_mt]

/-- An access that meets an uncorrectable error faults its thread with RESV_UE. -/
theorem State.accessComplete_faults {s u : State} {n t kind sz addr d next : Nat} {issued : Tick}
    (hw : (s.thread n t).wait = .access kind sz addr d issued next) (hm : (s.thread n t).metAt = none)
    (hr : s.reached (issued + 40) = true) (hu : s.doAccess n t kind sz addr d = (false, u)) :
    s.accessComplete n t = u.faultThread n t 5 (BitVec.ofNat 32 addr) := by
  simp only [State.accessComplete, hw, hm, hr, hu, Option.isNone_none, Bool.and_self, if_true, Bool.false_eq_true, if_false]

theorem State.thPc_accessed (s : State) (n t next : Nat) (c : Thread) : (s.accessed n t next c).thPc n t = next % 65536 / 4 * 4 := by
  rw [State.thPc, State.fld, State.accessed, State.reg_setThread, ← State.fld, ← State.thPc, State.thPc_setThPc]

theorem State.metAt_accessed (s : State) (n t next : Nat) (c : Thread) : ((s.accessed n t next c).thread n t).metAt = some s.mt := by
  rw [State.accessed, State.thread_setThread_self]

theorem State.accessed_reservoir (s : State) (n t next : Nat) (c : Thread) : (s.accessed n t next c).reservoir = s.reservoir := by
  rw [State.accessed, State.setThread_reservoir, State.setThPc, State.setRw_reservoir]

theorem State.g_accessed (s : State) (n t next : Nat) (c : Thread) (i : Nat) : (s.accessed n t next c).g n t i = s.g n t i := by
  rw [State.g, State.accessed, State.reg_setThread, s.reg_setThPc_ne n t next (by unfold G TH_PC; omega), State.g]

/-! ### The commands -/

theorem exec_trapWord {s : State} (n : Fin 24) (hc : s.clocked) : exec (.trapWord n) s = .next (s.trap n) :=
  congrArg Host.Outcome.next (s.onTclk_clocked _ hc)

theorem exec_poll {s : State} (n : Fin 24) (hc : s.clocked) : exec (.poll n) s = .next (s.poll n) :=
  congrArg Host.Outcome.next (s.onTclk_clocked _ hc)

theorem exec_microBranch {s : State} (n : Fin 24) (cond : Bool) (hc : s.clocked) :
    exec (.microBranch n cond) s = .next (s.microBranch n cond) :=
  congrArg Host.Outcome.next (s.onTclk_clocked _ hc)

theorem exec_datapathMicroword {s : State} (n : Fin 24) (parity : Bool) (hc : s.clocked) :
    exec (.datapathMicroword n parity) s = .next (s.datapathMicroword n parity) :=
  congrArg Host.Outcome.next (s.onTclk_clocked _ hc)

theorem exec_threadReady {s : State} (n : Fin 24) (t : Fin 16) (hc : s.clocked) :
    exec (.threadReady n t) s = .next (s.threadReady n t) :=
  congrArg Host.Outcome.next (s.onTclk_clocked _ hc)

theorem exec_reservoirAccessComplete {s : State} (n : Fin 24) (t : Fin 16) (hc : s.clocked) :
    exec (.reservoirAccessComplete n t) s = .next (s.accessComplete n t) :=
  congrArg Host.Outcome.next (s.onTclk_clocked _ hc)

end Sys2Proof.Machine

namespace Sys2Proof.Proofs

open Sys2Proof.Machine Sys2Proof.Machine.Reg

/-- TRAP faults the running thread with MICRO_TRAP. -/
theorem trapWord_faults (n : Fin 24) (t : Nat) (s : State) (hc : s.clocked) (hm : s.microThread n = some t)
    (hd : (s.engine n).pollDue = false) (hop : microOp (s.microword (s.thread n t).upc) = 0) :
    ∃ u, exec (.trapWord n) s = .next u ∧ u.thState n t = thFaulted ∧ u.fld (TH_STATUS n t) 23 16 = 6 ∧
      u.reg (FAULT_PC n t) = s.reg (TH_PC n t) := by
  refine ⟨_, (exec_trapWord n hc).trans (congrArg _ (State.trap_faults hm hd hop)), State.thState_faultThread _ _ _ _ _,
    State.faultCode_faultThread _ _ _ _ (by decide), ?_⟩
  rw [State.faultPc_faultThread, State.reg_useFree]

/-- A POLL microword of a thread that keeps the engine goes on at NEXT, and its interval is noted. -/
theorem poll_goes_on (n : Fin 24) (t : Nat) (s : State) (hc : s.clocked) (hm : s.microThread n = some t)
    (hd : (s.engine n).pollDue = false) (hop : microOp (s.microword (s.thread n t).upc) = 1) (hh : (s.thread n t).haltReq = false)
    (hg : (s.microStep n t (microNext (s.microword (s.thread n t).upc))).givesUp n t = false) :
    ∃ u, exec (.poll n) s = .next u ∧ (u.thread n t).upc = microNext (s.microword (s.thread n t).upc) ∧
      u.runningThread n = some t ∧ (u.engine n).freeAt = s.mt + 2 ∧ (u.engine n).sincePoll = 0 ∧
      u.reg (CL_POLL_MAX n) = (if (s.reg (CL_POLL_MAX n)).toNat < (s.engine n).sincePoll + 1
        then BitVec.ofNat 32 ((s.engine n).sincePoll + 1) else s.reg (CL_POLL_MAX n)) := by
  refine ⟨_, (exec_poll n hc).trans (congrArg _ (State.poll_continues hm hd hop hh hg)), ?_, ?_, ?_, ?_, ?_⟩
  · rw [State.thread_polled]
  · have hstatus := s.reg_polled_CL_STATUS n t (microNext (s.microword (s.thread n t).upc))
    rw [State.runningThread, State.bit, State.fld, hstatus, ← State.bit, ← State.fld, ← State.runningThread,
      State.runningThread_of_microThread hm]
  · rw [State.engine_polled]
  · rw [State.engine_polled]
  · exact s.pollMax_polled n t _

/-- A written HALT takes effect at the POLL of an instruction boundary. -/
theorem poll_takes_halt (n : Fin 24) (t : Nat) (s : State) (hc : s.clocked) (hm : s.microThread n = some t)
    (hd : (s.engine n).pollDue = true) (hh : (s.thread n t).haltReq = true) :
    ∃ u, exec (.poll n) s = .next u ∧ u.thState n t = thHalted ∧ (u.thread n t).haltReq = false := by
  refine ⟨_, (exec_poll n hc).trans (congrArg _ (State.poll_halts hm hd hh)), State.thState_leaveEngine _ _ _ _ (by decide), ?_⟩
  rw [State.thread_leaveEngine, State.thread_setThread_self]

/-- A micro-store parity error faults the thread and stops the engine. -/
theorem parityError_stops_engine (n : Fin 24) (t : Nat) (s : State) (hc : s.clocked) (hm : s.microThread n = some t) :
    ∃ u, exec (.datapathMicroword n true) s = .next u ∧ u.thState n t = thFaulted ∧ u.fld (TH_STATUS n t) 23 16 = 7 ∧
      u.bit (CL_STATUS n) 31 = true ∧ u.bit (CL_STATUS n) 30 = true ∧ u.maySelect n = false ∧ u.runningThread n = none := by
  have hrun : (s.stopEngine n).useFree.runningThread n = some t := by
    rw [State.runningThread_useFree, s.runningThread_stopEngine, State.runningThread_of_microThread hm]
  obtain ⟨hstop, herr⟩ := s.bits_stopEngine n
  obtain ⟨hnone, hbits⟩ := State.engine_after_faultThread 7 ((s.stopEngine n).freeValue.truncate 32) hrun
  have h31 := hbits 31 (by decide)
  have h30 := hbits 30 (by decide)
  rw [State.bit_useFree, hstop] at h31
  rw [State.bit_useFree, herr] at h30
  have hstate := (s.stopEngine n).useFree.thState_faultThread n t 7 ((s.stopEngine n).freeValue.truncate 32)
  have hcode := (s.stopEngine n).useFree.faultCode_faultThread n t ((s.stopEngine n).freeValue.truncate 32) (code := 7) (by decide)
  refine ⟨_, (exec_datapathMicroword n true hc).trans (congrArg _ (State.datapathMicroword_parity hm)), ?_⟩
  generalize (s.stopEngine n).useFree.faultThread n t 7 ((s.stopEngine n).freeValue.truncate 32) = u at hnone h31 h30 hstate hcode ⊢
  have h31' := (u.bit_ustoreEvent n (CL_STATUS n) 31).trans h31
  refine ⟨(u.fld_ustoreEvent n _ 2 0).trans hstate, (u.fld_ustoreEvent n _ 23 16).trans hcode, h31',
    (u.bit_ustoreEvent n _ 30).trans h30, State.maySelect_stopped h31', ?_⟩
  rw [State.runningThread, u.bit_ustoreEvent, u.fld_ustoreEvent, ← State.runningThread, hnone]

/-- A time wait ends READY at the next instruction, with its status. -/
theorem threadReady_after_time (n : Fin 24) (t : Fin 16) (s : State) (m : Tick) (target : Stamp) (hc : s.clocked)
    (hm : (s.thread n t).metAt = some m) (hw : (s.thread n t).wait = .time target) (hst : s.thState n t = thWaiting)
    (hrun : s.engineRuns n = true) (hmt : s.mt.getLsbD 0 = false) (hr : s.reached (m + 2) = true) :
    ∃ u, exec (.threadReady n t) s = .next u ∧ u.thState n t = thReady ∧ u.fld (TH_FLAGS n t) 7 4 = (s.thread n t).metSt % 16 ∧
      u.thPc n t = (s.thPc n t + 4) % 65536 / 4 * 4 ∧ (u.thread n t).wait = .none := by
  refine ⟨_, (exec_threadReady n t hc).trans (congrArg _ (State.threadReady_time hm hw hst hrun hmt hr)), State.thState_makeReady _ n t,
    ?_, ?_, ?_⟩
  · rw [State.fld, State.reg_makeReady_ne _ _ _ (TH_FLAGS_ne_TH_STATUS n t),
      State.reg_setThPc_ne _ _ _ _ (by unfold TH_FLAGS TH_PC; omega), ← State.fld, State.fld_setSt]
  · rw [State.thPc_makeReady, State.thPc_setThPc]
  · rw [State.thread_makeReady, State.setThPc, State.thread_setRw, State.setSt, State.thread_setRw, State.thread_setThread_self]

/-- A wait for a ring or an access ends READY where the thread stood. -/
theorem threadReady_after_other (n : Fin 24) (t : Fin 16) (s : State) (m : Tick) (hc : s.clocked)
    (hm : (s.thread n t).metAt = some m) (hnone : (s.thread n t).wait ≠ .none) (htime : ∀ target, (s.thread n t).wait ≠ .time target)
    (hangle : ∀ h pos back due, (s.thread n t).wait ≠ .angle h pos back due) (hst : s.thState n t = thWaiting)
    (hrun : s.engineRuns n = true) (hmt : s.mt.getLsbD 0 = false) (hr : s.reached (m + 2) = true) :
    ∃ u, exec (.threadReady n t) s = .next u ∧ u.thState n t = thReady ∧ u.reg (TH_FLAGS n t) = s.reg (TH_FLAGS n t) ∧
      u.thPc n t = s.thPc n t ∧ (u.thread n t).wait = .none := by
  obtain ⟨u, hu, hregs, hwait⟩ := State.threadReady_other hm hnone htime hangle hst hrun hmt hr
  have hreg (a : Nat) : u.reg a = s.reg a := by rw [State.reg, hregs, State.reg]
  refine ⟨_, (exec_threadReady n t hc).trans (congrArg _ hu), u.thState_makeReady n t, ?_, ?_, ?_⟩
  · rw [u.reg_makeReady_ne n t (TH_FLAGS_ne_TH_STATUS n t), hreg]
  · rw [u.thPc_makeReady, State.thPc, State.fld, hreg, State.thPc, State.fld]
  · rw [u.thread_makeReady, hwait]

/-- Settles O36: TRAP, POLL, branches, datapath microwords and a parity error; the ends of waits; and the accesses: a load, a store, an
add, and a load that meets an uncorrectable error. -/
theorem microwordsRunAndThreadsResume : Obligations.MicrowordsRunAndThreadsResume := by
  refine ⟨⟨trapWord_faults, poll_goes_on, poll_takes_halt, fun n t cond s hc hm hd h2 h15 => ?_, fun n t s hc hm hd hop => ?_,
      parityError_stops_engine⟩, threadReady_after_time, threadReady_after_other,
    fun n t d sz addr next issued s hc _ hsz hw hm hr hp hh => ?_, fun n t d sz addr next issued s hc hsz hw hm hr hp hh => ?_,
    fun n t d sz addr next issued s hc hw hm hr hp hh => ?_, fun n t d sz addr next issued s hc hw hm hr hp => ?_⟩
  · rw [exec_microBranch n cond hc, State.microBranch_taken cond hm hd h2 h15, nextMicro_branch h2 h15]
  · rw [exec_datapathMicroword n false hc, State.datapathMicroword_steps hm hd hop]
  · refine ⟨_, (exec_reservoirAccessComplete n t hc).trans
      (congrArg _ (State.accessComplete_done hw hm hr hh (State.doAccess_load n t d hsz hp))), ?_, State.thPc_accessed _ _ _ _ _, ?_, ?_,
      fun i _ hid => ?_⟩
    · rw [State.g_accessed, State.g_setG_self]
    · rw [State.metAt_accessed, State.setG_mt]
    · rw [State.accessed_reservoir, State.setG_reservoir]
    · rw [State.g_accessed, State.g_setG_ne _ _ _ _ hid]
  · refine ⟨_, (exec_reservoirAccessComplete n t hc).trans
      (congrArg _ (State.accessComplete_done hw hm hr hh (State.doAccess_store n t d hsz hp))), ?_, State.thPc_accessed _ _ _ _ _, ?_,
      fun i _ => ?_⟩
    · rw [State.accessed_reservoir, State.resWrite_reservoir]
    · rw [State.metAt_accessed, State.resWrite_mt]
    · rw [State.g_accessed, State.g, State.reg_resWrite, State.g]
  · refine ⟨_, (exec_reservoirAccessComplete n t hc).trans
      (congrArg _ (State.accessComplete_done hw hm hr hh (State.doAccess_add n t sz d hp))), ?_, ?_⟩
    · rw [State.g_accessed, State.g_setG_self]
    · rw [State.accessed_reservoir, State.setG_reservoir, State.resWrite_reservoir]
  · refine ⟨_, (exec_reservoirAccessComplete n t hc).trans
      (congrArg _ (State.accessComplete_faults hw hm hr (State.doAccess_load_poisoned n t d hp))), State.thState_faultThread _ _ _ _ _,
      State.faultCode_faultThread _ _ _ _ (by decide), State.faultInfo_faultThread _ _ _ _ _, ?_⟩
    rw [State.bit, (State.faultThread_changes _ n t 5 _).regs _ (GSTAT_notMem_engineRegs n t), ← State.bit, s.bit_setResvUe]

end Sys2Proof.Proofs
end

section
/-!
PROOFS. Loads of the micro-store (R215 to R219): how a load begins and ends, what a load that passes its checks writes, and what a flash
boot brings; then the statement.
-/

namespace Sys2Proof.Machine

open Reg

/-! ### What an observer of other blocks sees of a refresh of the pads -/

/-- An observation that shows neither pins nor the island nor INTERLOCK_HELD is the same after a refresh of the pads. -/
theorem State.refreshPins_observes {α : Type} (f : State → α) (hpin : ∀ t p c, f (t.setPin p c) = f t)
    (hisland : ∀ (t : State) (i : Island), f { t with island := i } = f t)
    (hheld : ∀ t m, m < 32 → f (t.raise (MIT_STATUS m) 4) = f t) (s : State) (st : Stamp) : f (s.refreshPins st) = f s := by
  refine State.refreshPins_preserves (P := fun t => f t = f s) (fun t p c h => (hpin t p c).trans h) (fun t k i h => ?_)
    (fun t m hm h => (hheld t m hm).trans h) st rfl
  exact List.foldlRecOn (motive := fun u => f u = f s) _ _ h fun u hu w _ => (hisland u _).trans hu

theorem State.reg_refreshPins (s : State) (st : Stamp) {a : Nat} (h : ∀ m < 32, a ≠ MIT_STATUS m) : (s.refreshPins st).reg a = s.reg a :=
  State.refreshPins_observes (fun t => t.reg a) (fun _ _ _ => rfl) (fun _ _ => rfl) (fun t m hm => t.reg_setReg_ne _ (h m hm)) s st

theorem State.refreshPins_reservoir (s : State) (st : Stamp) : (s.refreshPins st).reservoir = s.reservoir :=
  State.refreshPins_observes State.reservoir (fun _ _ _ => rfl) (fun _ _ => rfl) (fun _ _ _ => rfl) s st

theorem State.refreshPins_sent (s : State) (st : Stamp) : (s.refreshPins st).sent = s.sent :=
  State.refreshPins_observes State.sent (fun _ _ _ => rfl) (fun _ _ => rfl) (fun _ _ _ => rfl) s st

/-- The registers of the load lie below the mittens'. -/
theorem ne_MIT_STATUS_of_lt {a : Nat} (h : a < 0x50414) : ∀ m < 32, a ≠ MIT_STATUS m := by
  intro m _
  unfold MIT_STATUS
  omega

/-! ### The beginning and the end of a load (R217) -/

theorem State.reg_loadEnd_ne (s : State) (status : Nat) (item : Option Nat) {a : Nat} (h : a ≠ UC_LOAD_STATUS)
    (hm : ∀ m < 32, a ≠ MIT_STATUS m) : (s.loadEnd status item).reg a = s.reg a :=
  (State.reg_refreshPins _ _ hm).trans (s.reg_setReg_ne _ h)

theorem State.loadEnd_ustore (s : State) (status : Nat) (item : Option Nat) : (s.loadEnd status item).ustore = s.ustore :=
  (State.loadEnd_keeps s status item (Keeps.refl (nv := True) (us := True) s)).ustore trivial

theorem State.loadEnd_reservoir (s : State) (status : Nat) (item : Option Nat) : (s.loadEnd status item).reservoir = s.reservoir :=
  State.refreshPins_reservoir _ _

theorem State.loadEnd_sent (s : State) (status : Nat) (item : Option Nat) : (s.loadEnd status item).sent = s.sent :=
  State.refreshPins_sent _ _

/-- UC_LOAD_STATUS as a load ends: BUSY is 0, STATUS takes the status, and a refusal names its item. -/
theorem State.reg_loadEnd_status (s : State) (status : Nat) (item : Option Nat) :
    (s.loadEnd status item).reg UC_LOAD_STATUS =
      item.elim (setBits (putBit (s.reg UC_LOAD_STATUS) 31 false) 4 0 status)
        (setBits (setBits (putBit (s.reg UC_LOAD_STATUS) 31 false) 4 0 status) 18 16) := by
  cases item with
  | none => exact (State.reg_refreshPins _ _ (ne_MIT_STATUS_of_lt (by decide))).trans (State.reg_setReg_self _ _ _)
  | some i => exact (State.reg_refreshPins _ _ (ne_MIT_STATUS_of_lt (by decide))).trans (State.reg_setReg_self _ _ _)

theorem State.busy_loadEnd (s : State) (status : Nat) (item : Option Nat) : (s.loadEnd status item).bit UC_LOAD_STATUS 31 = false := by
  rw [State.bit, State.reg_loadEnd_status]
  cases item with
  | none =>
    rw [Option.elim_none, bitOf_setBits_ne _ _ _ _ _ (by decide)]
    exact bitOf_putBit_self _ _ _ (by decide)
  | some i =>
    rw [Option.elim_some, bitOf_setBits_ne _ _ _ _ _ (by decide), bitOf_setBits_ne _ _ _ _ _ (by decide)]
    exact bitOf_putBit_self _ _ _ (by decide)

theorem State.status_loadEnd (s : State) {status : Nat} (item : Option Nat) (h : status < 32) :
    (s.loadEnd status item).fld UC_LOAD_STATUS 4 0 = status := by
  rw [State.fld, State.reg_loadEnd_status]
  cases item with
  | none => exact (bitsOf_setBits_self _ _ _ _ (by decide)).trans (Nat.mod_eq_of_lt h)
  | some i =>
    rw [Option.elim_some, bitsOf_setBits_ne _ _ _ _ _ _ (by decide), bitsOf_setBits_self _ _ _ _ (by decide)]
    exact Nat.mod_eq_of_lt h

theorem State.item_loadEnd (s : State) (status : Nat) {item : Nat} (h : item < 8) :
    (s.loadEnd status (some item)).fld UC_LOAD_STATUS 18 16 = item := by
  rw [State.fld, State.reg_loadEnd_status]
  exact (bitsOf_setBits_self _ _ _ _ (by decide)).trans (Nat.mod_eq_of_lt h)

theorem State.reg_loadBegin_ne (s : State) {a : Nat} (h : a ≠ UC_LOAD_STATUS) (hm : ∀ m < 32, a ≠ MIT_STATUS m) :
    s.loadBegin.reg a = s.reg a :=
  (State.reg_refreshPins _ _ hm).trans (s.reg_setReg_ne _ h)

theorem State.reg_loadBegin_status (s : State) :
    s.loadBegin.reg UC_LOAD_STATUS = setBits (putBit (s.reg UC_LOAD_STATUS) 31 true) 4 0 1 := by
  rw [State.loadBegin, State.reg_refreshPins _ _ (ne_MIT_STATUS_of_lt (by decide)), State.reg_setReg_self]

theorem State.loadBegin_ustore (s : State) : s.loadBegin.ustore = s.ustore :=
  (State.loadBegin_keeps s (Keeps.refl (nv := True) (us := True) s)).ustore trivial

theorem State.loadBegin_reservoir (s : State) : s.loadBegin.reservoir = s.reservoir := State.refreshPins_reservoir _ _

theorem State.loadBegin_sent (s : State) : s.loadBegin.sent = s.sent := State.refreshPins_sent _ _

theorem State.busy_loadBegin (s : State) : s.loadBegin.bit UC_LOAD_STATUS 31 = true := by
  rw [State.bit, State.reg_loadBegin_status, bitOf_setBits_ne _ _ _ _ _ (by decide)]
  exact bitOf_putBit_self _ _ _ (by decide)

theorem State.status_loadBegin (s : State) : s.loadBegin.fld UC_LOAD_STATUS 4 0 = 1 := by
  rw [State.fld, State.reg_loadBegin_status]
  exact bitsOf_setBits_self _ _ _ _ (by decide)

/-- GO on a quiet device that loads nothing begins a load. -/
theorem exec_ucLoadGo_quiet {s : State} {v : Word} (ha : s.accepts UC_LOAD_GO v) (hv : v.getLsbD 0 = true)
    (hb : s.bit UC_LOAD_STATUS 31 = false) (hq : s.loadQuiet = true) :
    exec (.ucLoadGo v) s = .next (s.noteHost UC_LOAD_GO).loadBegin := by
  have hb' : (s.noteHost UC_LOAD_GO).bit UC_LOAD_STATUS 31 = false := hb
  have hq' : (s.noteHost UC_LOAD_GO).loadQuiet = true := hq
  refine congrArg Host.Outcome.next ((s.hostWrite_accepts _ ha).trans ?_)
  simp only [State.ucLoadGo, hv, hb', hq', Bool.not_true, Bool.or_false, Bool.false_eq_true, if_false, if_true]

/-- GO on any other device that loads nothing ends with NOT_QUIET. -/
theorem exec_ucLoadGo_refused {s : State} {v : Word} (ha : s.accepts UC_LOAD_GO v) (hv : v.getLsbD 0 = true)
    (hb : s.bit UC_LOAD_STATUS 31 = false) (hq : s.loadQuiet = false) :
    exec (.ucLoadGo v) s = .next ((s.noteHost UC_LOAD_GO).loadEnd 0x08 (some 0)) := by
  have hb' : (s.noteHost UC_LOAD_GO).bit UC_LOAD_STATUS 31 = false := hb
  have hq' : (s.noteHost UC_LOAD_GO).loadQuiet = false := hq
  refine congrArg Host.Outcome.next ((s.hostWrite_accepts _ ha).trans ?_)
  simp only [State.ucLoadGo, hv, hb', hq', Bool.not_true, Bool.or_false, Bool.false_eq_true, if_false]

/-! ### The checks of a load (R216) -/

theorem exec_microcodeLoadComplete {s : State} (hc : s.clocked) : exec .microcodeLoadComplete s = .next s.microcodeLoadComplete :=
  congrArg Host.Outcome.next (s.onTclk_clocked _ hc)

/-- The state in which a load that fails a check ends: RESV_UE is set where the bundle meets an uncorrectable error (R25). -/
def State.checkMet (s : State) (status : Nat) : State := if status = 0x0A then s.setResvUe else s

theorem State.checkMet_ustore (s : State) (status : Nat) : (s.checkMet status).ustore = s.ustore := by
  unfold State.checkMet
  split
  · rw [s.setResvUe_eq]
  · rfl

theorem State.reg_setResvUe_ne (s : State) {a : Nat} (h : a ≠ GSTAT) : s.setResvUe.reg a = s.reg a := by
  unfold State.setResvUe
  split
  · rfl
  · exact s.reg_setBit_ne 7 true h

theorem State.reg_checkMet_ne (s : State) (status : Nat) {a : Nat} (h : a ≠ GSTAT) : (s.checkMet status).reg a = s.reg a := by
  unfold State.checkMet
  split
  · exact s.reg_setResvUe_ne h
  · rfl

theorem State.microcodeLoadComplete_fails {s : State} {item status : Nat} (hb : s.bit UC_LOAD_STATUS 31 = true)
    (hf : s.bundleCheck = .inl (item, status)) (hi : item ≠ 7) :
    s.microcodeLoadComplete = (s.checkMet status).loadEnd status (some item) := by
  simp only [State.microcodeLoadComplete, hb, hf, hi, Bool.not_true, Bool.false_eq_true, if_false, State.checkMet]

theorem State.microcodeLoadComplete_passes {s : State} {ps : List Nat} (hb : s.bit UC_LOAD_STATUS 31 = true)
    (hp : s.bundleCheck = .inr ps) : s.microcodeLoadComplete = s.loadApply (s.fld UC_LOAD_SRC 23 0) ps := by
  simp only [State.microcodeLoadComplete, hb, hp, Bool.not_true, Bool.false_eq_true, if_false]

/-! ### What a load writes (R218) -/

/-- What one step of a fold brings about and every step keeps holds after a fold that has the step. -/
theorem foldl_establishes {σ α : Type} {f : σ → α → σ} {P : σ → Prop} {x : α} {l : List α} (hx : x ∈ l) (hstep : ∀ s, P (f s x))
    (hkeep : ∀ s y, P s → P (f s y)) (s : σ) : P (l.foldl f s) := by
  obtain ⟨before, after, rfl⟩ := List.append_of_mem hx
  rw [List.foldl_append, List.foldl_cons]
  exact List.foldlRecOn after f (hstep _) fun t ht y _ => hkeep t y ht

/-- The engine of cluster `n` has no stop of R211: ENG_STOP and USTORE_ERR are 0. -/
def State.unstopped (s : State) (n : Nat) : Prop := s.bit (CL_STATUS n) 31 = false ∧ s.bit (CL_STATUS n) 30 = false

theorem State.unstopped_congr {s t : State} {n : Nat} (h : t.reg (CL_STATUS n) = s.reg (CL_STATUS n)) (hs : s.unstopped n) :
    t.unstopped n := by
  rw [State.unstopped, State.bit, State.bit, h]
  exact hs

/-- The stop of cluster `n`, ended. -/
def State.endStop (s : State) (n : Nat) : State := s.setReg (CL_STATUS n) (putBit (putBit (s.reg (CL_STATUS n)) 31 false) 30 false)

theorem State.unstopped_endStop (s : State) (n : Nat) : (s.endStop n).unstopped n := by
  rw [State.unstopped, State.bit, State.bit, State.endStop, State.reg_setReg_self, bitOf_putBit_ne _ _ (by decide)]
  exact ⟨bitOf_putBit_self _ _ _ (by decide), bitOf_putBit_self _ _ _ (by decide)⟩

theorem State.unstopped_endStops (s : State) {n : Nat} (h : n < 24) : (foldBelow 24 State.endStop s).unstopped n := by
  refine foldl_establishes (P := fun t : State => t.unstopped n) (List.mem_range.2 h) (fun t => t.unstopped_endStop n)
    (fun t m ht => ?_) s
  by_cases hm : CL_STATUS n = CL_STATUS m
  · have hnm : n = m := by
      unfold CL_STATUS at hm
      omega
    exact hnm ▸ t.unstopped_endStop n
  · exact State.unstopped_congr (t.reg_setReg_ne _ hm) ht

theorem State.reg_setDigest_ne (s : State) (d : BitVec 256) {a : Nat} (h : ∀ i < 8, a ≠ UC_DIGEST i) : (s.setDigest d).reg a = s.reg a :=
  List.foldlRecOn (motive := fun t : State => t.reg a = s.reg a) _ _ rfl fun t ht i hi =>
    (t.reg_setReg_ne _ (h i (List.mem_range.1 hi))).trans ht

theorem State.reg_setPatchIds_ne (s : State) (ps : List Nat) {a : Nat} (h0 : a ≠ UC_PATCH_ID0) (h1 : a ≠ UC_PATCH_ID1) :
    (s.setPatchIds ps).reg a = s.reg a :=
  (State.reg_setReg_ne _ _ h1).trans (s.reg_setReg_ne _ h0)

/-- The state of R218 before the load ends: the micro-store written, every stop ended, and the image's words in their registers. -/
def State.loadWritten (s : State) (a : Nat) (ps : List Nat) : State :=
  let u := foldBelow 24 State.endStop { s with ustore := ps.foldl s.applyPatch (s.baseWords a) }
  let u := (u.setDigest (sha256 (u.resBytes a (u.baseLen a)))).setPatchIds ps
  let u := u.setReg ID_UCODE (u.resWord (a + 8) ||| 1)
  u.setFld UC_LOAD_STATUS 14 12 ps.length

theorem State.loadApply_eq (s : State) (a : Nat) (ps : List Nat) : s.loadApply a ps = (s.loadWritten a ps).loadEnd 0x02 none := rfl

theorem State.loadWritten_ustore (s : State) (a : Nat) (ps : List Nat) :
    (s.loadWritten a ps).ustore = ps.foldl s.applyPatch (s.baseWords a) := by
  unfold State.loadWritten
  extract_lets u v w
  have hstops : Keeps True True { s with ustore := ps.foldl s.applyPatch (s.baseWords a) } u :=
    keeps_foldBelow (fun t n h => State.setReg_keeps t _ _ h) 24 _ (Keeps.refl _)
  exact (State.setFld_keeps w _ _ _ _ (State.setReg_keeps _ _ _ (State.setPatchIds_keeps _ ps
    (State.setDigest_keeps _ _ hstops)))).ustore trivial

theorem State.unstopped_loadWritten (s : State) (a : Nat) (ps : List Nat) {n : Nat} (h : n < 24) : (s.loadWritten a ps).unstopped n := by
  unfold State.loadWritten
  extract_lets u v w
  have hstops : u.unstopped n := State.unstopped_endStops _ h
  refine State.unstopped_congr ?_ hstops
  have hdigest : ∀ i < 8, CL_STATUS n ≠ UC_DIGEST i := by
    intro i hi
    unfold CL_STATUS UC_DIGEST
    omega
  rw [State.reg_setFld_ne _ _ _ _ (by unfold CL_STATUS UC_LOAD_STATUS; omega),
    State.reg_setReg_ne _ _ (by unfold CL_STATUS ID_UCODE; omega),
    State.reg_setPatchIds_ne _ _ (by unfold CL_STATUS UC_PATCH_ID0; omega) (by unfold CL_STATUS UC_PATCH_ID1; omega),
    State.reg_setDigest_ne _ _ hdigest]

theorem State.ucodeValid_loadWritten (s : State) (a : Nat) (ps : List Nat) : (s.loadWritten a ps).ucodeValid = true := by
  unfold State.loadWritten
  extract_lets u v w
  rw [State.ucodeValid, State.bit, State.reg_setFld_ne _ _ _ _ (by decide), State.reg_setReg_self, bitOf, BitVec.getLsbD_or]
  exact Bool.or_true _

theorem State.unstopped_loadApply (s : State) (a : Nat) (ps : List Nat) {n : Nat} (h : n < 24) : (s.loadApply a ps).unstopped n := by
  have hmit : ∀ m < 32, CL_STATUS n ≠ MIT_STATUS m := by
    intro m hm
    unfold CL_STATUS MIT_STATUS
    omega
  rw [s.loadApply_eq]
  exact State.unstopped_congr (State.reg_loadEnd_ne _ _ _ (by unfold CL_STATUS UC_LOAD_STATUS; omega) hmit) (s.unstopped_loadWritten a ps h)

theorem State.ucodeValid_loadApply (s : State) (a : Nat) (ps : List Nat) : (s.loadApply a ps).ucodeValid = true := by
  rw [s.loadApply_eq, State.ucodeValid, State.bit, State.reg_loadEnd_ne _ _ _ (by decide) (ne_MIT_STATUS_of_lt (by decide))]
  exact s.ucodeValid_loadWritten a ps

/-! ### Flash boot (R219, R365) -/

theorem exec_flashLoad {s : State} (image : List Byte) (hc : s.clocked) : exec (.flashLoad image) s = .next (s.flashLoad image) :=
  congrArg Host.Outcome.next (s.onTclk_clocked _ hc)

/-- A flash that does not answer. -/
theorem State.flashLoad_empty {s : State} {c : FlashRead} (hc : flashRead (s.fld GSTAT 5 4) = some c)
    (hb : s.bit UC_LOAD_STATUS 31 = false) (hs : s.fld UC_LOAD_STATUS 4 0 = 0) :
    s.flashLoad [] = (s.send (.flash c 0)).loadEnd 0x11 (some 0) := by
  simp [State.flashLoad, hc, hb, hs]

/-- What a fill leaves: all but the reservoir, its errors, and RESV_UE with its event. -/
theorem State.flashFill_eq (s : State) (b : List Byte) :
    s.flashFill b = { s with reservoir := (s.flashFill b).reservoir, poison := (s.flashFill b).poison, regs := (s.flashFill b).regs,
                             irqEvents := (s.flashFill b).irqEvents } := by
  unfold State.flashFill
  extract_lets whole fill src u
  split
  · rfl
  · split
    · rw [u.setResvUe_eq]
    · rfl

theorem State.flashFill_send_reservoir (s : State) (m : Sent) (b : List Byte) :
    ((s.send m).flashFill b).reservoir = (s.flashFill b).reservoir := by
  unfold State.flashFill
  simp only [apply_ite State.reservoir, State.setResvUe_reservoir]
  rfl

/-- The bundle of a flash image ends within the space that a flash boot reads. -/
theorem State.flashPatches_le (s : State) (fuel : Nat) : ∀ a, a ≤ 0x20000 → s.flashPatches fuel a ≤ 0x20000 := by
  induction fuel with
  | zero => exact fun a h => h
  | succ fuel ih =>
    intro a h
    unfold State.flashPatches
    extract_lets a'
    split
    · exact ih _ (Nat.min_le_left _ _)
    · exact h

theorem State.reg_hwUpdate_self (s : State) {a : Nat} (v : Word) (h : s.written.contains a = false) : (s.hwUpdate a v).reg a = v := by
  rw [State.hwUpdate, h]
  exact s.reg_setReg_self a v

theorem State.reg_hwUpdate_ne (s : State) {a b : Nat} (v : Word) (h : b ≠ a) : (s.hwUpdate a v).reg b = s.reg b := by
  unfold State.hwUpdate
  split
  · rfl
  · exact s.reg_setReg_ne v h

/-- A hardware update of an RW register changes the registers and the updates noted, alone. -/
theorem State.hwUpdate_eq (s : State) (a : Nat) (v : Word) :
    s.hwUpdate a v = { s with regs := (s.hwUpdate a v).regs, rwNow := (s.hwUpdate a v).rwNow, rwNext := (s.hwUpdate a v).rwNext } := by
  unfold State.hwUpdate
  split <;> rfl

/-- The length of the bundle of a flash image: its base image and the patches that follow it. -/
def State.flashLen (s : State) (image : List Byte) : Nat :=
  let f := s.flashFill (image.take 0x20000)
  f.flashPatches 4 (min 0x20000 (f.baseLen 0 + 64))

theorem State.flashLen_le (s : State) (image : List Byte) : s.flashLen image ≤ 0x20000 :=
  State.flashPatches_le _ 4 _ (Nat.min_le_left _ _)

/-- The state with the bundle of a flash image copied to the reservoir, and UC_LOAD_SRC and UC_LOAD_LEN naming it. -/
def State.flashCopied (s : State) (image : List Byte) : State :=
  ((s.flashFill (image.take (s.flashLen image))).hwUpdate UC_LOAD_SRC 0).hwUpdate UC_LOAD_LEN (BitVec.ofNat 32 (s.flashLen image))

/-- A flash that holds an image. -/
theorem State.flashLoad_image {s : State} {c : FlashRead} {image : List Byte} (hc : flashRead (s.fld GSTAT 5 4) = some c)
    (hb : s.bit UC_LOAD_STATUS 31 = false) (hs : s.fld UC_LOAD_STATUS 4 0 = 0) (hlen : 4 ≤ image.length)
    (hmagic : leNat (image.take 4) = baseMagic.toNat) :
    s.flashLoad image = ((s.send (.flash c 0)).flashCopied image).loadBegin := by
  have hword : BitVec.ofNat 32 (leNat (image.take 4)) = baseMagic := by
    rw [hmagic, BitVec.ofNat_toNat, BitVec.setWidth_eq]
  simp only [State.flashLoad, hc, hb, hs, hword, Nat.not_lt.2 hlen, bne_self_eq_false, Bool.or_false, Bool.false_eq_true, ne_eq,
    not_true_eq_false, or_self, if_false]
  rfl

/-- The copy's registers and reservoir, where the host has written neither register in the cycle. -/
theorem State.flashCopied_shows (s : State) (image : List Byte) (hsrc : s.written.contains UC_LOAD_SRC = false)
    (hlen : s.written.contains UC_LOAD_LEN = false) :
    (s.flashCopied image).reg UC_LOAD_SRC = 0 ∧ ((s.flashCopied image).reg UC_LOAD_LEN).toNat = s.flashLen image ∧
      (s.flashCopied image).reservoir = (s.flashFill (image.take (s.flashLen image))).reservoir ∧
      (s.flashCopied image).sent = s.sent := by
  have hfill := s.flashFill_eq (image.take (s.flashLen image))
  have hle := s.flashLen_le image
  unfold State.flashCopied
  generalize s.flashFill (image.take (s.flashLen image)) = f at hfill ⊢
  have hw : f.written = s.written := by rw [hfill]
  have hw' : (f.hwUpdate UC_LOAD_SRC 0).written = s.written := by rw [f.hwUpdate_eq, hw]
  refine ⟨?_, ?_, ?_, ?_⟩
  · rw [State.reg_hwUpdate_ne _ _ (by decide), f.reg_hwUpdate_self 0 (hw ▸ hsrc)]
  · rw [State.reg_hwUpdate_self _ _ (hw' ▸ hlen), BitVec.toNat_ofNat]
    exact Nat.mod_eq_of_lt (by omega)
  · rw [State.hwUpdate_eq, f.hwUpdate_eq]
  · rw [State.hwUpdate_eq, f.hwUpdate_eq, hfill]

end Sys2Proof.Machine

namespace Sys2Proof.Proofs

open Sys2Proof.Machine Sys2Proof.Machine.Reg

/-- A flash that holds an image has it copied, and a load of it begins. -/
theorem flashLoad_begins_load (s : State) (c : FlashRead) (image : List Byte) (hc : s.clocked)
    (hread : flashRead (s.fld GSTAT 5 4) = some c) (hb : s.bit UC_LOAD_STATUS 31 = false) (hs : s.fld UC_LOAD_STATUS 4 0 = 0)
    (hlen : 4 ≤ image.length) (hmagic : leNat (image.take 4) = baseMagic.toNat) (hws : s.written.contains UC_LOAD_SRC = false)
    (hwl : s.written.contains UC_LOAD_LEN = false) :
    ∃ t, exec (.flashLoad image) s = .next t ∧ t.bit UC_LOAD_STATUS 31 = true ∧ t.fld UC_LOAD_STATUS 4 0 = 1 ∧ t.reg UC_LOAD_SRC = 0 ∧
      t.sent = s.sent ++ [.flash c 0] ∧ (t.reg UC_LOAD_LEN).toNat ≤ 0x20000 ∧
      t.reservoir = (s.flashFill (image.take (t.reg UC_LOAD_LEN).toNat)).reservoir := by
  obtain ⟨hsrc, hl, hres, hsent⟩ := (s.send (.flash c 0)).flashCopied_shows image hws hwl
  refine ⟨_, (exec_flashLoad image hc).trans (congrArg _ (State.flashLoad_image hread hb hs hlen hmagic)), State.busy_loadBegin _,
    State.status_loadBegin _, ?_, (State.loadBegin_sent _).trans hsent, ?_, ?_⟩
  · rw [State.reg_loadBegin_ne _ (by decide) (ne_MIT_STATUS_of_lt (by decide)), hsrc]
  · rw [State.reg_loadBegin_ne _ (by decide) (ne_MIT_STATUS_of_lt (by decide)), hl]
    exact State.flashLen_le _ image
  · rw [State.reg_loadBegin_ne _ (by decide) (ne_MIT_STATUS_of_lt (by decide)), hl]
    exact (State.loadBegin_reservoir _).trans (hres.trans (s.flashFill_send_reservoir _ _))

/-- Settles O48: GO taken and refused, a load that fails a check and one that passes, then the flash: its read command, one that does not
answer, and one that holds an image. -/
theorem microcodeLoadsAreChecked : Obligations.MicrocodeLoadsAreChecked := by
  refine ⟨fun v s ha hv hb hq => ⟨_, exec_ucLoadGo_quiet ha hv hb hq, State.busy_loadBegin _, State.status_loadBegin _, ?_⟩,
    fun v s ha hv hb hq => ⟨_, exec_ucLoadGo_refused ha hv hb hq, State.busy_loadEnd _ _ _, State.status_loadEnd _ _ (by decide), ?_⟩,
    fun s item st hc hb hf hi hst => ?_, fun s ps hc hb hp => ?_, ⟨rfl, rfl, rfl, rfl⟩, fun s c hc hread hb hs => ?_,
    flashLoad_begins_load⟩
  · exact State.loadBegin_ustore _
  · exact State.loadEnd_ustore _ _ _
  · refine ⟨_, (exec_microcodeLoadComplete hc).trans (congrArg _ (State.microcodeLoadComplete_fails hb hf (by omega))),
      State.busy_loadEnd _ _ _, State.status_loadEnd _ _ hst, State.item_loadEnd _ _ (by omega), ?_, ?_⟩
    · rw [State.loadEnd_ustore, State.checkMet_ustore]
    · rw [State.reg_loadEnd_ne _ _ _ (by decide) (ne_MIT_STATUS_of_lt (by decide)), State.reg_checkMet_ne _ _ (by decide)]
  · refine ⟨_, (exec_microcodeLoadComplete hc).trans (congrArg _ (State.microcodeLoadComplete_passes hb hp)),
      State.busy_loadEnd _ _ _, State.status_loadEnd _ _ (by decide), ?_, s.ucodeValid_loadApply _ ps,
      fun n hn => s.unstopped_loadApply _ ps hn⟩
    rw [s.loadApply_eq, State.loadEnd_ustore, s.loadWritten_ustore]
  · refine ⟨_, (exec_flashLoad [] hc).trans (congrArg _ (State.flashLoad_empty hread hb hs)), State.status_loadEnd _ _ (by decide),
      State.loadEnd_reservoir _ _ _, State.loadEnd_sent _ _ _⟩

end Sys2Proof.Proofs
end

section
/-!
PROOFS. What NVM holds and the micro-store change only by their writers (R217, R364, R378, R380): what every command keeps, from what each
one keeps, then the statement.
-/

namespace Sys2Proof

open Machine

/-- The command leaves what NVM holds. -/
def Instr.leavesNvm : Instr → Prop
  | .nvmWriteComplete _ | .mirrorComplete _ | .endOfReset _ => False
  | _ => True

/-- The command leaves the micro-store. -/
def Instr.leavesUstore : Instr → Prop
  | .microcodeLoadComplete | .porAssert | .resetN _ _ | .clkFail _ | .hibAbort | .endOfReset _ => False
  | _ => True

theorem Instr.leavesNvm_of_ne {c : Instr} (hnvm : ∀ ok, c ≠ .nvmWriteComplete ok) (hmirror : ∀ ok, c ≠ .mirrorComplete ok)
    (hreset : ∀ st, c ≠ .endOfReset st) : c.leavesNvm := by
  unfold Instr.leavesNvm
  split
  · exact hnvm _ rfl
  · exact hmirror _ rfl
  · exact hreset _ rfl
  · trivial

theorem Instr.leavesUstore_of_ne {c : Instr} (hload : c ≠ .microcodeLoadComplete) (hpor : c ≠ .porAssert)
    (hpin : ∀ l ns, c ≠ .resetN l ns) (hclk : ∀ pll, c ≠ .clkFail pll) (habort : c ≠ .hibAbort) (hreset : ∀ st, c ≠ .endOfReset st) :
    c.leavesUstore := by
  unfold Instr.leavesUstore
  split
  · exact hload rfl
  · exact hpor rfl
  · exact hpin _ _ rfl
  · exact hclk _ rfl
  · exact habort rfl
  · exact hreset _ rfl
  · trivial

namespace Machine

/-- What every command keeps, arm by arm of the dispatch. -/
theorem exec_keeps {s s' : State} : (c : Instr) → exec c s = .next s' → Keeps c.leavesNvm c.leavesUstore s s'
  | .registerWrite addr v, hx => execRegisterWrite_keeps addr v s s' hx (.refl s)
  | .rcRead addr, hx => execRcRead_keeps addr s s' hx (.refl s)
  | .pcieMemoryRequest write addr dws, hx => execPcieMemoryRequest_keeps write addr dws s s' hx (.refl s)
  | .windowBRead off size, hx => execWindowBRead_keeps off size s s' hx (.refl s)
  | .windowBWrite off size v, hx => execWindowBWrite_keeps off size v s s' hx (.refl s)
  | .pcieHotReset, hx => execPcieHotReset_keeps s s' hx (.refl s)
  | .qspiRead op addr n partialWord, hx => execQspiRead_keeps op addr n partialWord s s' hx (.refl s)
  | .qspiQread addr n partialWord, hx => execQspiQread_keeps addr n partialWord s s' hx (.refl s)
  | .qspiWrite addr words partialWord, hx => execQspiWrite_keeps addr words partialWord s s' hx (.refl s)
  | .qspiQwrite addr words partialWord, hx => execQspiQwrite_keeps addr words partialWord s s' hx (.refl s)
  | .qspiStatus, hx => execQspiStatus_keeps s s' hx (.refl s)
  | .qspiId, hx => execQspiId_keeps s s' hx (.refl s)
  | .mtLoRead, hx => execMtLoRead_keeps s s' hx (.refl s)
  | .chCtrlWrite k v, hx => execChCtrlWrite_keeps k v s s' hx (.refl s)
  | .startTick k, hx => execStartTick_keeps k s s' hx (.refl s)
  | .countingStep k, hx => execCountingStep_keeps k s s' hx (.refl s)
  | .writeTrigger k x, hx => execWriteTrigger_keeps k x s s' hx (.refl s)
  | .countWrite k v, hx => execCountWrite_keeps k v s s' hx (.refl s)
  | .countRead k, hx => execCountRead_keeps k s s' hx (.refl s)
  | .periodWrite k presc v, hx => execPeriodWrite_keeps k presc v s s' hx (.refl s)
  | .cmpLiveWrite k x v, hx => execCmpLiveWrite_keeps k x v s s' hx (.refl s)
  | .cmpPreloadWrite k x v, hx => execCmpPreloadWrite_keeps k x v s s' hx (.refl s)
  | .cmpCfgWrite k v, hx => execCmpCfgWrite_keeps k v s s' hx (.refl s)
  | .pairSnapshotTake k v, hx => execPairSnapshotTake_keeps k v s s' hx (.refl s)
  | .outCtrlWrite k v, hx => execOutCtrlWrite_keeps k v s s' hx (.refl s)
  | .outFineWrite k dt v, hx => execOutFineWrite_keeps k dt v s s' hx (.refl s)
  | .syncPulseArrival n, hx => execSyncPulseArrival_keeps n s s' hx (.refl s)
  | .syncInEdge ticksHigh, hx => execSyncInEdge_keeps ticksHigh s s' hx (.refl s)
  | .syncOutFall, hx => execSyncOutFall_keeps s s' hx (.refl s)
  | .edgeEmit k, hx => execEdgeEmit_keeps k s s' hx (.refl s)
  | .pendingEdgeEmit k, hx => execPendingEdgeEmit_keeps k s s' hx (.refl s)
  | .deadTimeRise k, hx => execDeadTimeRise_keeps k s s' hx (.refl s)
  | .ptStart k v, hx => execPtStart_keeps k v s s' hx (.refl s)
  | .ptRestart k, hx => execPtRestart_keeps k s s' hx (.refl s)
  | .ptStop k v, hx => execPtStop_keeps k v s s' hx (.refl s)
  | .ptCmdWrite k v, hx => execPtCmdWrite_keeps k v s s' hx (.refl s)
  | .ptEmitRead k, hx => execPtEmitRead_keeps k s s' hx (.refl s)
  | .pinSelWrite addr v, hx => execPinSelWrite_keeps addr v s s' hx (.refl s)
  | .calSlotStart, hx => execCalSlotStart_keeps s s' hx (.refl s)
  | .calMeasurementDone p0 q, hx => execCalMeasurementDone_keeps p0 q s s' hx (.refl s)
  | .lineSwap k, hx => execLineSwap_keeps k s s' hx (.refl s)
  | .initialRoundEnd, hx => execInitialRoundEnd_keeps s s' hx (.refl s)
  | .calStaleExpiry k, hx => execCalStaleExpiry_keeps k s s' hx (.refl s)
  | .tdcAgeExpiry k, hx => execTdcAgeExpiry_keeps k s s' hx (.refl s)
  | .calCtrlWrite v, hx => execCalCtrlWrite_keeps v s s' hx (.refl s)
  | .inputEdge k fine level, hx => execInputEdge_keeps k fine level s s' hx (.refl s)
  | .captureStore k, hx => execCaptureStore_keeps k s s' hx (.refl s)
  | .capArm k v, hx => execCapArm_keeps k v s s' hx (.refl s)
  | .capDisarm k v, hx => execCapDisarm_keeps k v s s' hx (.refl s)
  | .capRiseLoRead k, hx => execCapRiseLoRead_keeps k s s' hx (.refl s)
  | .tripInputEdge k level, hx => execTripInputEdge_keeps k level s s' hx (.refl s)
  | .tripFilterQualify k, hx => execTripFilterQualify_keeps k s s' hx (.refl s)
  | .cuffClose m, hx => execCuffClose_keeps m s s' hx (.refl s)
  | .cuffOverride m, hx => execCuffOverride_keeps m s s' hx (.refl s)
  | .mittenRelease m, hx => execMittenRelease_keeps m s s' hx (.refl s)
  | .interlockApply p, hx => execInterlockApply_keeps p s s' hx (.refl s)
  | .tripCfgWrite k v, hx => execTripCfgWrite_keeps k v s s' hx (.refl s)
  | .mitCfgWrite addr v, hx => execMitCfgWrite_keeps addr v s s' hx (.refl s)
  | .mitClr m v, hx => execMitClr_keeps m v s s' hx (.refl s)
  | .watchdogExpiry, hx => execWatchdogExpiry_keeps s s' hx (.refl s)
  | .watchdogResetStart, hx => execWatchdogResetStart_keeps s s' hx (.refl s)
  | .wdogKick v, hx => execWdogKick_keeps v s s' hx (.refl s)
  | .wdogCfgWrite v, hx => execWdogCfgWrite_keeps v s s' hx (.refl s)
  | .shCtrlWrite sh off v, hx => execShCtrlWrite_keeps sh off v s s' hx (.refl s)
  | .toothJudge sh, hx => execToothJudge_keeps sh s s' hx (.refl s)
  | .syntheticTooth sh, hx => execSyntheticTooth_keeps sh s s' hx (.refl s)
  | .stall sh, hx => execStall_keeps sh s s' hx (.refl s)
  | .estimatePublication sh, hx => execEstimatePublication_keeps sh s s' hx (.refl s)
  | .rekeyPass n slot, hx => execRekeyPass_keeps n slot s s' hx (.refl s)
  | .historyWrite sh, hx => execHistoryWrite_keeps sh s s' hx (.refl s)
  | .directionChange sh, hx => execDirectionChange_keeps sh s s' hx (.refl s)
  | .marker sh stamp, hx => execMarker_keeps sh stamp s s' hx (.refl s)
  | .cycleSet sh v, hx => execCycleSet_keeps sh v s s' hx (.refl s)
  | .cycleRekey n slot, hx => execCycleRekey_keeps n slot s s' hx (.refl s)
  | .virtualTooth sh, hx => execVirtualTooth_keeps sh s s' hx (.refl s)
  | .genApply sh v, hx => execGenApply_keeps sh v s s' hx (.refl s)
  | .genLoad sh v, hx => execGenLoad_keeps sh v s s' hx (.refl s)
  | .shaftSnapTake sh v, hx => execShaftSnapTake_keeps sh v s s' hx (.refl s)
  | .postGo n v, hx => execPostGo_keeps n v s s' hx (.refl s)
  | .insertionComplete n slot, hx => execInsertionComplete_keeps n slot s s' hx (.refl s)
  | .startDispatch n, hx => execStartDispatch_keeps n s s' hx (.refl s)
  | .endDispatch n, hx => execEndDispatch_keeps n s s' hx (.refl s)
  | .droppedSyncRetire n slot, hx => execDroppedSyncRetire_keeps n slot s s' hx (.refl s)
  | .cancelGo n v, hx => execCancelGo_keeps n v s s' hx (.refl s)
  | .cancelPass n slot, hx => execCancelPass_keeps n slot s s' hx (.refl s)
  | .ledgerTake n v, hx => execLedgerTake_keeps n v s s' hx (.refl s)
  | .feedbackCfgWrite addr v, hx => execFeedbackCfgWrite_keeps addr v s s' hx (.refl s)
  | .qencEdge k isB a b stamp, hx => execQencEdge_keeps k isB a b stamp s s' hx (.refl s)
  | .qencResample k a b, hx => execQencResample_keeps k a b s s' hx (.refl s)
  | .aencSample k s0 c0, hx => execAencSample_keeps k s0 c0 s s' hx (.refl s)
  | .aencSampleProcessed k, hx => execAencSampleProcessed_keeps k s s' hx (.refl s)
  | .ssiFrameStart k idleHigh, hx => execSsiFrameStart_keeps k idleHigh s s' hx (.refl s)
  | .ssiFrameEnd k bits endLow, hx => execSsiFrameEnd_keeps k bits endLow s s' hx (.refl s)
  | .indexEdge f rising stamp, hx => execIndexEdge_keeps f rising stamp s s' hx (.refl s)
  | .speedGateEnd f, hx => execSpeedGateEnd_keeps f s s' hx (.refl s)
  | .speedTimeout f, hx => execSpeedTimeout_keeps f s s' hx (.refl s)
  | .posRead f, hx => execPosRead_keeps f s s' hx (.refl s)
  | .probeArm p v, hx => execProbeArm_keeps p v s s' hx (.refl s)
  | .probeDisarm p v, hx => execProbeDisarm_keeps p v s s' hx (.refl s)
  | .probeEdge p rising stamp, hx => execProbeEdge_keeps p rising stamp s s' hx (.refl s)
  | .probeLatchComplete p, hx => execProbeLatchComplete_keeps p s s' hx (.refl s)
  | .prbStampLoRead p, hx => execPrbStampLoRead_keeps p s s' hx (.refl s)
  | .pcArm j v, hx => execPcArm_keeps j v s s' hx (.refl s)
  | .pcDisarm j v, hx => execPcDisarm_keeps j v s s' hx (.refl s)
  | .pcImmediateFire j, hx => execPcImmediateFire_keeps j s s' hx (.refl s)
  | .culvertRawChange k a b z, hx => execCulvertRawChange_keeps k a b z s s' hx (.refl s)
  | .culvertRegenState k, hx => execCulvertRegenState_keeps k s s' hx (.refl s)
  | .threadReady n t, hx => execThreadReady_keeps n t s s' hx (.refl s)
  | .trapWord n, hx => execTrapWord_keeps n s s' hx (.refl s)
  | .poll n, hx => execPoll_keeps n s s' hx (.refl s)
  | .microBranch n cond, hx => execMicroBranch_keeps n cond s s' hx (.refl s)
  | .datapathMicroword n parityError, hx => execDatapathMicroword_keeps n parityError s s' hx (.refl s)
  | .thStart n t v, hx => execThStart_keeps n t v s s' hx (.refl s)
  | .thHalt n t v, hx => execThHalt_keeps n t v s s' hx (.refl s)
  | .thContextWrite n t off v, hx => execThContextWrite_keeps n t off v s s' hx (.refl s)
  | .ucLoadGo v, hx => execUcLoadGo_keeps v s s' hx (.refl s)
  | .microcodeLoadComplete, hx => execMicrocodeLoadComplete_keeps s s' hx (.refl s)
  | .flashLoad image, hx => execFlashLoad_keeps image s s' hx (.refl s)
  | .kAdd n, hx => execKAdd_keeps n s s' hx (.refl s)
  | .kSub n, hx => execKSub_keeps n s s' hx (.refl s)
  | .kAddc n, hx => execKAddc_keeps n s s' hx (.refl s)
  | .kSubb n, hx => execKSubb_keeps n s s' hx (.refl s)
  | .kAnd n, hx => execKAnd_keeps n s s' hx (.refl s)
  | .kOr n, hx => execKOr_keeps n s s' hx (.refl s)
  | .kXor n, hx => execKXor_keeps n s s' hx (.refl s)
  | .kAndn n, hx => execKAndn_keeps n s s' hx (.refl s)
  | .kShl n, hx => execKShl_keeps n s s' hx (.refl s)
  | .kShr n, hx => execKShr_keeps n s s' hx (.refl s)
  | .kSar n, hx => execKSar_keeps n s s' hx (.refl s)
  | .kRor n, hx => execKRor_keeps n s s' hx (.refl s)
  | .kMul n, hx => execKMul_keeps n s s' hx (.refl s)
  | .kMulh n, hx => execKMulh_keeps n s s' hx (.refl s)
  | .kMulhu n, hx => execKMulhu_keeps n s s' hx (.refl s)
  | .kMin n, hx => execKMin_keeps n s s' hx (.refl s)
  | .kMax n, hx => execKMax_keeps n s s' hx (.refl s)
  | .kMinu n, hx => execKMinu_keeps n s s' hx (.refl s)
  | .kMaxu n, hx => execKMaxu_keeps n s s' hx (.refl s)
  | .kCmp n, hx => execKCmp_keeps n s s' hx (.refl s)
  | .kTst n, hx => execKTst_keeps n s s' hx (.refl s)
  | .kMov n, hx => execKMov_keeps n s s' hx (.refl s)
  | .kDiv n, hx => execKDiv_keeps n s s' hx (.refl s)
  | .kDivu n, hx => execKDivu_keeps n s s' hx (.refl s)
  | .kRem n, hx => execKRem_keeps n s s' hx (.refl s)
  | .kRemu n, hx => execKRemu_keeps n s s' hx (.refl s)
  | .kClz n, hx => execKClz_keeps n s s' hx (.refl s)
  | .kLd n, hx => execKLd_keeps n s s' hx (.refl s)
  | .kSt n, hx => execKSt_keeps n s s' hx (.refl s)
  | .kLdr n, hx => execKLdr_keeps n s s' hx (.refl s)
  | .kStr n, hx => execKStr_keeps n s s' hx (.refl s)
  | .kRxadd n, hx => execKRxadd_keeps n s s' hx (.refl s)
  | .reservoirAccessComplete n t, hx => execReservoirAccessComplete_keeps n t s s' hx (.refl s)
  | .kBr n, hx => execKBr_keeps n s s' hx (.refl s)
  | .kJal n, hx => execKJal_keeps n s s' hx (.refl s)
  | .kJr n, hx => execKJr_keeps n s s' hx (.refl s)
  | .kChrd n, hx => execKChrd_keeps n s s' hx (.refl s)
  | .kChwr n, hx => execKChwr_keeps n s s' hx (.refl s)
  | .kChrd64 n, hx => execKChrd64_keeps n s s' hx (.refl s)
  | .kChstat n, hx => execKChstat_keeps n s s' hx (.refl s)
  | .kMtrd n, hx => execKMtrd_keeps n s s' hx (.refl s)
  | .kStld n, hx => execKStld_keeps n s s' hx (.refl s)
  | .kStst n, hx => execKStst_keeps n s s' hx (.refl s)
  | .kStadd n, hx => execKStadd_keeps n s s' hx (.refl s)
  | .kStsub n, hx => execKStsub_keeps n s s' hx (.refl s)
  | .kStaddi n, hx => execKStaddi_keeps n s s' hx (.refl s)
  | .kStcmp n, hx => execKStcmp_keeps n s s' hx (.refl s)
  | .kShrd n, hx => execKShrd_keeps n s s' hx (.refl s)
  | .kAccrd n, hx => execKAccrd_keeps n s s' hx (.refl s)
  | .kMmrd n, hx => execKMmrd_keeps n s s' hx (.refl s)
  | .kSysrd n, hx => execKSysrd_keeps n s s' hx (.refl s)
  | .kWaitt n, hx => execKWaitt_keeps n s s' hx (.refl s)
  | .kWaita n, hx => execKWaita_keeps n s s' hx (.refl s)
  | .kPost n, hx => execKPost_keeps n s s' hx (.refl s)
  | .kCancel n, hx => execKCancel_keeps n s s' hx (.refl s)
  | .kPush n, hx => execKPush_keeps n s s' hx (.refl s)
  | .kPop n, hx => execKPop_keeps n s s' hx (.refl s)
  | .kYield n, hx => execKYield_keeps n s s' hx (.refl s)
  | .kHalt n, hx => execKHalt_keeps n s s' hx (.refl s)
  | .kSwapArm n, hx => execKSwapArm_keeps n s s' hx (.refl s)
  | .kSwapDisarm n, hx => execKSwapDisarm_keeps n s s' hx (.refl s)
  | .kSwapQuery n, hx => execKSwapQuery_keeps n s s' hx (.refl s)
  | .swapFixed, hx => execSwapFixed_keeps s s' hx (.refl s)
  | .swapTick, hx => execSwapTick_keeps s s' hx (.refl s)
  | .ringCfgWrite r base v, hx => execRingCfgWrite_keeps r base v s s' hx (.refl s)
  | .ringEntryWritten r, hx => execRingEntryWritten_keeps r s s' hx (.refl s)
  | .hostCommit r v, hx => execHostCommit_keeps r v s s' hx (.refl s)
  | .hostRelease r v, hx => execHostRelease_keeps r v s s' hx (.refl s)
  | .xferPush v, hx => execXferPush_keeps v s s' hx (.refl s)
  | .xferPop v, hx => execXferPop_keeps v s s' hx (.refl s)
  | .ringSnapTake v, hx => execRingSnapTake_keeps v s s' hx (.refl s)
  | .adcReq v, hx => execAdcReq_keeps v s s' hx (.refl s)
  | .adcRequestArrival, hx => execAdcRequestArrival_keeps s s' hx (.refl s)
  | .adcStartupEnd c, hx => execAdcStartupEnd_keeps c s s' hx (.refl s)
  | .adcAcqStart c, hx => execAdcAcqStart_keeps c s s' hx (.refl s)
  | .adcHold c, hx => execAdcHold_keeps c s s' hx (.refl s)
  | .conversionDelivery c raw, hx => execConversionDelivery_keeps c raw s s' hx (.refl s)
  | .adcIdleOff c, hx => execAdcIdleOff_keeps c s s' hx (.refl s)
  | .accRdcLoRead k, hx => execAccRdcLoRead_keeps k s s' hx (.refl s)
  | .accRdLoRead k, hx => execAccRdLoRead_keeps k s s' hx (.refl s)
  | .mmRdcRead k, hx => execMmRdcRead_keeps k s s' hx (.refl s)
  | .accCfgWrite k v, hx => execAccCfgWrite_keeps k v s s' hx (.refl s)
  | .adcSnapTake v, hx => execAdcSnapTake_keeps v s s' hx (.refl s)
  | .irqLatch, hx => execIrqLatch_keeps s s' hx (.refl s)
  | .irqSet w v, hx => execIrqSet_keeps w v s s' hx (.refl s)
  | .irqSelectWrite addr v, hx => execIrqSelectWrite_keeps addr v s s' hx (.refl s)
  | .msiXMessage v, hx => execMsiXMessage_keeps v s s' hx (.refl s)
  | .vecDone v, hx => execVecDone_keeps v s s' hx (.refl s)
  | .ponarCfgWrite v, hx => execPonarCfgWrite_keeps v s s' hx (.refl s)
  | .ponarRingMessage, hx => execPonarRingMessage_keeps s s' hx (.refl s)
  | .ponarUdpDatagram a ip udp bytes, hx => execPonarUdpDatagram_keeps a ip udp bytes s s' hx (.refl s)
  | .ponarResponseAdmit, hx => execPonarResponseAdmit_keeps s s' hx (.refl s)
  | .nvmWriteComplete ok, hx => execNvmWriteComplete_keeps ok s s' hx (.refl s)
  | .hello, hx => execHello_keeps s s' hx (.refl s)
  | .getCounter, hx => execGetCounter_keeps s s' hx (.refl s)
  | .regRead, hx => execRegRead_keeps s s' hx (.refl s)
  | .regWrite, hx => execRegWrite_keeps s s' hx (.refl s)
  | .output, hx => execOutput_keeps s s' hx (.refl s)
  | .progLoadDirect, hx => execProgLoadDirect_keeps s s' hx (.refl s)
  | .progLoadStage, hx => execProgLoadStage_keeps s s' hx (.refl s)
  | .swapCtlArm, hx => execSwapCtlArm_keeps s s' hx (.refl s)
  | .swapCtlDisarm, hx => execSwapCtlDisarm_keeps s s' hx (.refl s)
  | .swapCtlQuery, hx => execSwapCtlQuery_keeps s s' hx (.refl s)
  | .mitChange, hx => execMitChange_keeps s s' hx (.refl s)
  | .mitClear, hx => execMitClear_keeps s s' hx (.refl s)
  | .keyChangeInstall, hx => execKeyChangeInstall_keeps s s' hx (.refl s)
  | .keyChangeRevoke, hx => execKeyChangeRevoke_keeps s s' hx (.refl s)
  | .ucalWrite, hx => execUcalWrite_keeps s s' hx (.refl s)
  | .seal, hx => execSeal_keeps s s' hx (.refl s)
  | .floorRaise, hx => execFloorRaise_keeps s s' hx (.refl s)
  | .softReset, hx => execSoftReset_keeps s s' hx (.refl s)
  | .keyLoadGo v, hx => execKeyLoadGo_keeps v s s' hx (.refl s)
  | .portCtrlWrite p off v, hx => execPortCtrlWrite_keeps p off v s s' hx (.refl s)
  | .linkChange p up, hx => execLinkChange_keeps p up s s' hx (.refl s)
  | .arpRequest a k senderIp senderMac, hx => execArpRequest_keeps a k senderIp senderMac s s' hx (.refl s)
  | .icmpEcho a target senderIp body, hx => execIcmpEcho_keeps a target senderIp body s s' hx (.refl s)
  | .gptpSync a m correction, hx => execGptpSync_keeps a m correction s s' hx (.refl s)
  | .syncTimeout, hx => execSyncTimeout_keeps s s' hx (.refl s)
  | .bmcaGrandmaster, hx => execBmcaGrandmaster_keeps s s' hx (.refl s)
  | .discoverSend p, hx => execDiscoverSend_keeps p s s' hx (.refl s)
  | .discover a ip udp bytes, hx => execDiscover_keeps a ip udp bytes s s' hx (.refl s)
  | .peerAgeExpiry p e, hx => execPeerAgeExpiry_keeps p e s s' hx (.refl s)
  | .sessionIdleExpiry p e, hx => execSessionIdleExpiry_keeps p e s s' hx (.refl s)
  | .userDatagramRx a bytes, hx => execUserDatagramRx_keeps a bytes s s' hx (.refl s)
  | .userDatagramTx p, hx => execUserDatagramTx_keeps p s s' hx (.refl s)
  | .exportSample sh, hx => execExportSample_keeps sh s s' hx (.refl s)
  | .shaftExport a bytes, hx => execShaftExport_keeps a bytes s s' hx (.refl s)
  | .importTimeout sh, hx => execImportTimeout_keeps sh s s' hx (.refl s)
  | .coastLimit sh, hx => execCoastLimit_keeps sh s s' hx (.refl s)
  | .tsSnapTake v, hx => execTsSnapTake_keeps v s s' hx (.refl s)
  | .porAssert, hx => execPorAssert_keeps s s' hx (.refl s)
  | .porRelease, hx => execPorRelease_keeps s s' hx (.refl s)
  | .resetN low ns, hx => execResetN_keeps low ns s s' hx (.refl s)
  | .endOfReset straps, hx => execEndOfReset_keeps straps s s' hx (.refl s)
  | .clkFail pll, hx => execClkFail_keeps pll s s' hx (.refl s)
  | .lfclkLoss, hx => execLfclkLoss_keeps s s' hx (.refl s)
  | .pwrReqRun, hx => execPwrReqRun_keeps s s' hx (.refl s)
  | .pwrReqDoze, hx => execPwrReqDoze_keeps s s' hx (.refl s)
  | .pwrReqNap, hx => execPwrReqNap_keeps s s' hx (.refl s)
  | .pwrReqHibernate, hx => execPwrReqHibernate_keeps s s' hx (.refl s)
  | .napWakeEvent hostDemand, hx => execNapWakeEvent_keeps hostDemand s s' hx (.refl s)
  | .napWakeComplete, hx => execNapWakeComplete_keeps s s' hx (.refl s)
  | .pwrEnFall, hx => execPwrEnFall_keeps s s' hx (.refl s)
  | .hibAbort, hx => execHibAbort_keeps s s' hx (.refl s)
  | .wakeNRequest, hx => execWakeNRequest_keeps s s' hx (.refl s)
  | .softResetStart, hx => execSoftResetStart_keeps s s' hx (.refl s)
  | .softResetEnd, hx => execSoftResetEnd_keeps s s' hx (.refl s)
  | .rstCl v, hx => execRstCl_keeps v s s' hx (.refl s)
  | .clusterResetEnd n, hx => execClusterResetEnd_keeps n s s' hx (.refl s)
  | .clusterGate n, hx => execClusterGate_keeps n s s' hx (.refl s)
  | .clusterWakeBegin n, hx => execClusterWakeBegin_keeps n s s' hx (.refl s)
  | .clusterWakeEnd n, hx => execClusterWakeEnd_keeps n s s' hx (.refl s)
  | .vbatPor, hx => execVbatPor_keeps s s' hx (.refl s)
  | .islandRestore, hx => execIslandRestore_keeps s s' hx (.refl s)
  | .calendarStep, hx => execCalendarStep_keeps s s' hx (.refl s)
  | .calSet v, hx => execCalSet_keeps v s s' hx (.refl s)
  | .calLoRead, hx => execCalLoRead_keeps s s' hx (.refl s)
  | .wearEvent w, hx => execWearEvent_keeps w s s' hx (.refl s)
  | .wearAdd v, hx => execWearAdd_keeps v s s' hx (.refl s)
  | .wearClr v, hx => execWearClr_keeps v s s' hx (.refl s)
  | .wearLoRead w, hx => execWearLoRead_keeps w s s' hx (.refl s)
  | .wearTake v, hx => execWearTake_keeps v s s' hx (.refl s)
  | .mirrorDue, hx => execMirrorDue_keeps s s' hx (.refl s)
  | .mirNow v, hx => execMirNow_keeps v s s' hx (.refl s)
  | .mirrorComplete ok, hx => execMirrorComplete_keeps ok s s' hx (.refl s)
  | .trimTakeEffect p, hx => execTrimTakeEffect_keeps p s s' hx (.refl s)
  | .tempUpdate t, hx => execTempUpdate_keeps t s s' hx (.refl s)
  | .lfclkReturn, hx => execLfclkReturn_keeps s s' hx (.refl s)
  | .pcieConfigWrite r v, hx => execPcieConfigWrite_keeps r v s s' hx (.refl s)
  | .gptpAnnounce p f v, hx => execGptpAnnounce_keeps p f v s s' hx (.refl s)
  | .gptpSyncSend p, hx => execGptpSyncSend_keeps p s s' hx (.refl s)
  | .genTargetReached sh, hx => execGenTargetReached_keeps sh s s' hx (.refl s)
  | .cycleRevStep sh reverse, hx => execCycleRevStep_keeps sh reverse s s' hx (.refl s)
  | .pcShaftCrossing j, hx => execPcShaftCrossing_keeps j s s' hx (.refl s)

/-- With no command waiting a step is a tick, which keeps NVM and the micro-store. -/
theorem step_tick_keeps {s t : State} (hx : step s = .next t) (hp : s.pending = []) : Keeps True True s t := by
  unfold step at hx
  rw [hp] at hx
  cases hx
  exact State.tick_keeps s (Keeps.refl s)

end Machine

end Sys2Proof

namespace Sys2Proof.Proofs

open Sys2Proof.Machine

/-- Settles O57: the commands that write NVM, those that write the micro-store, and the passing of a tick. -/
theorem nvmAndMicroStoreHaveTheirWriters : Obligations.NvmAndMicroStoreHaveTheirWriters := by
  refine ⟨fun c s t hx hnvm hmirror hreset => ?_, fun c s t hx hload hpor hpin hclk habort hreset => ?_, fun s t hx hp => ?_⟩
  · exact (exec_keeps c hx).nvm (Instr.leavesNvm_of_ne hnvm hmirror hreset)
  · exact (exec_keeps c hx).ustore (Instr.leavesUstore_of_ne hload hpor hpin hclk habort hreset)
  · have hk := step_tick_keeps hx hp
    exact ⟨hk.nvm trivial, hk.ustore trivial⟩

end Sys2Proof.Proofs
end

section
/-!
PROOFS. The queue, SEALED and the forms: what `Keeps` says of every command and of the passing of a tick, put together for a step, then the
statements about steps.
-/

namespace Sys2Proof.Machine

/-! ### One step -/

theorem step_of_cons {c : Instr} {rest : List Instr} {s : State} (h : s.pending = c :: rest) :
    step s = exec c { s with pending := rest } := by
  unfold step
  rw [h]

theorem step_of_nil {s : State} (h : s.pending = []) : step s = .next s.tick := by
  unfold step
  rw [h]

/-- The meaning of every command ends in a next state. -/
theorem exec_completes (c : Instr) (s : State) : completes (exec c s) := by
  cases c <;> exact ⟨_, rfl⟩

theorem step_completes (s : State) : completes (step s) := by
  cases h : s.pending with
  | nil => exact ⟨_, step_of_nil h⟩
  | cons c rest =>
    rw [step_of_cons h]
    exact exec_completes c _

/-- What a step keeps: of the state with the front command taken off its queue. -/
theorem step_keeps {s t : State} (hx : step s = .next t) : Keeps False False { s with pending := s.pending.tail } t := by
  cases h : s.pending with
  | nil =>
    rw [step_of_nil h] at hx
    cases hx
    exact State.tick_keeps s (by rw [List.tail_nil, ← h]; exact .refl s)
  | cons c rest =>
    rw [step_of_cons h] at hx
    have hk := exec_keeps c hx
    exact { hk with nvm := False.elim, ustore := False.elim }

end Sys2Proof.Machine

namespace Sys2Proof.Proofs

open Sys2Proof.Machine

/-- Settles O1: the step of a queue with a front command, and of an empty one. -/
theorem stepRunsTheFrontCommand : Obligations.StepRunsTheFrontCommand :=
  ⟨fun _ _ _ h => step_of_cons h, fun _ h => step_of_nil h⟩

/-- Settles O2: every command and every step completes; a command keeps the queue, and a step takes the front off it. -/
theorem everyCommandCompletesAndLeavesTheQueue : Obligations.EveryCommandCompletesAndLeavesTheQueue :=
  ⟨⟨exec_completes, step_completes⟩, fun c _ _ hx => (exec_keeps c hx).pending, fun _ _ hx => (step_keeps hx).pending⟩

/-- Settles O58: no command and no step clears SEALED. -/
theorem sealedStays : Obligations.SealedStays :=
  ⟨fun c _ _ hx => (exec_keeps c hx).sealed, fun _ _ hx => (step_keeps hx).sealed⟩

/-- Settles O59: a step keeps the canonical forms and the account of every ring. -/
theorem stepsKeepTheForms : Obligations.StepsKeepTheForms :=
  ⟨fun _ _ hx => (step_keeps hx).canonical, fun _ _ hx => (step_keeps hx).rings⟩

end Sys2Proof.Proofs
end

section
/-!
PROOFS. Instructions of KCI in their commit tick (R208, R212, R225): the effect of an instruction leaves the thread's state and place, and
its end adds what the engine counts; what an instruction that goes on, one that waits and one that faults show from that.
-/

namespace Sys2Proof.Machine

open Reg

/-! ### An instruction that runs (R225, R229) -/

/-- The state in which an instruction takes its effect: the thread owes no microcycles. -/
def State.kPaid (s : State) (n t : Nat) : State := s.setThread n t { s.thread n t with owes := 0 }

section
variable {s : State} {n t : Nat} {w : Word} {o : Kci}

theorem State.kci_of_runs (h : s.kciRuns n t w o) :
    s.kci n o = ((s.kPaid n t).kEffect n t w o).1.kEnd n t (kciBytes w) (s.kCycles n t w o) ((s.kPaid n t).kEffect n t w o).2 := by
  obtain ⟨hthread, rfl, hkci, hdecode, hdue⟩ := h
  simp only [State.kci, hthread, hkci, hdecode]
  rw [if_neg (fun hne => hne rfl), State.kRun, if_pos hdue]
  rfl

theorem State.running_of_runs (h : s.kciRuns n t w o) : s.runningThread n = some t := by
  have hthread := h.1
  unfold State.kThread at hthread
  split at hthread
  · exact absurd hthread (by simp)
  · exact State.runningThread_of_microThread hthread

theorem State.thread_lt_of_runs (h : s.kciRuns n t w o) : t < 16 := by
  have hrun := State.running_of_runs h
  unfold State.runningThread at hrun
  split at hrun
  · cases hrun; exact bitsOf_lt _ _ _
  · exact absurd hrun (by simp)

/-- An instruction without an extension word is four bytes long (R229, check 2). -/
theorem kciBytes_of_runs (h : s.kciRuns n t w o) (hext : o.takesExt w = false) : kciBytes w = 4 := by
  obtain ⟨-, -, -, hdecode, -⟩ := h
  unfold Kci.decodeFault at hdecode
  split at hdecode
  · exact absurd hdecode (by simp)
  · next hx =>
    have hx' : kX w = false := by simpa [hext] using hx
    simp [kciBytes, hx']

end

/-! ### What an effect leaves for the end of its instruction -/

/-- The registers that the end of an instruction goes by, and the general registers of the thread: none of them is at `a`. -/
structure FarFromThread (n t a : Nat) : Prop where
  status : a ≠ CL_STATUS n
  thStatus : a ≠ TH_STATUS n t
  pc : a ≠ TH_PC n t
  g : ∀ i < 16, a ≠ G n t i

/-- `u` has the tick, the running thread, and the state and PC of thread `t` of `s`, and its general registers but those in `ds`. -/
structure KciFrame (n t : Nat) (ds : List Nat) (s u : State) : Prop where
  mt : u.mt = s.mt
  status : u.reg (CL_STATUS n) = s.reg (CL_STATUS n)
  thStatus : u.reg (TH_STATUS n t) = s.reg (TH_STATUS n t)
  pc : u.reg (TH_PC n t) = s.reg (TH_PC n t)
  g : s.keepsG u n t ds

theorem TH_FLAGS_far (n t : Nat) : FarFromThread n t (TH_FLAGS n t) := by
  refine ⟨?_, ?_, ?_, fun i hi => ?_⟩ <;> unfold TH_FLAGS
  · unfold CL_STATUS; omega
  · unfold TH_STATUS; omega
  · unfold TH_PC; omega
  · unfold G; omega

theorem TH_STAMP_LO_far (n t : Nat) : FarFromThread n t (TH_STAMP_LO n t) := by
  refine ⟨?_, ?_, ?_, fun i hi => ?_⟩ <;> unfold TH_STAMP_LO
  · unfold CL_STATUS; omega
  · unfold TH_STATUS; omega
  · unfold TH_PC; omega
  · unfold G; omega

theorem TH_STAMP_HI_far (n t : Nat) : FarFromThread n t (TH_STAMP_HI n t) := by
  refine ⟨?_, ?_, ?_, fun i hi => ?_⟩ <;> unfold TH_STAMP_HI
  · unfold CL_STATUS; omega
  · unfold TH_STATUS; omega
  · unfold TH_PC; omega
  · unfold G; omega

theorem far_of_below_clusters (n t : Nat) {a : Nat} (h : a < 0x1000000) : FarFromThread n t a := by
  refine ⟨?_, ?_, ?_, fun i hi => ?_⟩
  · unfold CL_STATUS; omega
  · unfold TH_STATUS; omega
  · unfold TH_PC; omega
  · unfold G; omega

theorem State.runningThread_congr {s u : State} {n : Nat} (h : u.reg (CL_STATUS n) = s.reg (CL_STATUS n)) :
    u.runningThread n = s.runningThread n := by
  unfold State.runningThread State.bit State.fld
  rw [h]

theorem State.reg_setG_ne (s : State) (n t d : Nat) (v : Word) {a : Nat} (h : a ≠ G n t d) : (s.setG n t d v).reg a = s.reg a := by
  rw [State.setG, State.reg_setRw_ne _ _ h]

namespace KciFrame

variable {n t : Nat} {ds : List Nat} {r s u : State}

theorem refl (s : State) : KciFrame n t ds s s := ⟨rfl, rfl, rfl, rfl, fun _ _ _ => rfl⟩

theorem trans (h : KciFrame n t ds r s) (h' : KciFrame n t ds s u) : KciFrame n t ds r u :=
  ⟨h'.mt.trans h.mt, h'.status.trans h.status, h'.thStatus.trans h.thStatus, h'.pc.trans h.pc,
    fun i hi hd => (h'.g i hi hd).trans (h.g i hi hd)⟩

/-- A state with the same tick and registers. -/
theorem same (h : KciFrame n t ds r s) (hmt : u.mt = s.mt) (hreg : ∀ a, u.reg a = s.reg a) : KciFrame n t ds r u :=
  h.trans ⟨hmt, hreg _, hreg _, hreg _, fun _ _ _ => hreg _⟩

theorem setReg (h : KciFrame n t ds r s) {a : Nat} (v : Word) (ha : FarFromThread n t a) : KciFrame n t ds r (s.setReg a v) :=
  h.trans ⟨rfl, s.reg_setReg_ne v ha.status.symm, s.reg_setReg_ne v ha.thStatus.symm, s.reg_setReg_ne v ha.pc.symm,
    fun i hi _ => s.reg_setReg_ne v (ha.g i hi).symm⟩

theorem setRw (h : KciFrame n t ds r s) {a : Nat} (v : Word) (ha : FarFromThread n t a) : KciFrame n t ds r (s.setRw a v) :=
  (h.setReg v ha).same rfl fun _ => rfl

theorem setThFlags (h : KciFrame n t ds r s) (f : Flags) : KciFrame n t ds r (s.setThFlags n t f) := h.setRw _ (TH_FLAGS_far n t)

theorem setSt (h : KciFrame n t ds r s) (st : Nat) : KciFrame n t ds r (s.setSt n t st) := h.setRw _ (TH_FLAGS_far n t)

theorem setThStamp (h : KciFrame n t ds r s) (v : Stamp) : KciFrame n t ds r (s.setThStamp n t v) :=
  (h.setRw _ (TH_STAMP_LO_far n t)).setRw _ (TH_STAMP_HI_far n t)

theorem setG (h : KciFrame n t ds r s) {d : Nat} (v : Word) (hd : d ∈ ds) : KciFrame n t ds r (s.setG n t d v) where
  mt := (s.setG_mt n t d v).trans h.mt
  status := (s.reg_setG_ne n t d v (by unfold CL_STATUS G; omega)).trans h.status
  thStatus := (s.reg_setG_ne n t d v (by unfold TH_STATUS G; omega)).trans h.thStatus
  pc := (s.reg_setG_ne n t d v (by unfold TH_PC G; omega)).trans h.pc
  g := fun i hi hi' => (s.g_setG_ne n t v (by rintro rfl; exact hi' hd)).trans (h.g i hi hi')

theorem setGPair (h : KciFrame n t ds r s) {d : Nat} (v : BitVec 64) (hd : d ∈ ds) (hd' : d + 1 ∈ ds) :
    KciFrame n t ds r (s.setGPair n t d v) := (h.setG _ hd).setG _ hd'

theorem ite {c : Prop} [Decidable c] (h : KciFrame n t ds r s) (h' : KciFrame n t ds r u) : KciFrame n t ds r (if c then s else u) := by
  split <;> assumption

theorem thState (h : KciFrame n t ds s u) : u.thState n t = s.thState n t := by rw [State.thState, State.fld, h.thStatus]; rfl

theorem thPc (h : KciFrame n t ds s u) : u.thPc n t = s.thPc n t := by rw [State.thPc, State.fld, h.pc]; rfl

theorem runningThread (h : KciFrame n t ds s u) : u.runningThread n = s.runningThread n := State.runningThread_congr h.status

end KciFrame

/-! ### The end of an instruction that goes on (R208) -/

/-- The registers that the end of an instruction writes. -/
def endRegs (n t : Nat) : List Nat := [CL_BUSY n, TH_RUN n t, TH_PC n t]

/-- `u` is `r` after the end of an instruction that goes on: the registers of the end and the engine apart, nothing differs. -/
structure EndKeeps (n t : Nat) (r u : State) : Prop where
  regs : ∀ a, a ∉ endRegs n t → u.reg a = r.reg a
  frame : u = { r with regs := u.regs, rwNow := u.rwNow, engines := u.engines }

theorem TH_FLAGS_notMem_endRegs (n t : Nat) : TH_FLAGS n t ∉ endRegs n t := by
  simp only [endRegs, List.mem_cons, List.not_mem_nil, or_false, not_or]
  unfold TH_FLAGS CL_BUSY TH_RUN TH_PC
  omega

theorem TH_STAMP_LO_notMem_endRegs (n t : Nat) : TH_STAMP_LO n t ∉ endRegs n t := by
  simp only [endRegs, List.mem_cons, List.not_mem_nil, or_false, not_or]
  unfold TH_STAMP_LO CL_BUSY TH_RUN TH_PC
  omega

theorem TH_STAMP_HI_notMem_endRegs (n t : Nat) : TH_STAMP_HI n t ∉ endRegs n t := by
  simp only [endRegs, List.mem_cons, List.not_mem_nil, or_false, not_or]
  unfold TH_STAMP_HI CL_BUSY TH_RUN TH_PC
  omega

theorem G_notMem_endRegs (n t i : Nat) : G n t i ∉ endRegs n t := by
  simp only [endRegs, List.mem_cons, List.not_mem_nil, or_false, not_or]
  unfold G CL_BUSY TH_RUN TH_PC
  omega

theorem notMem_endRegs_of_below_clusters (n t : Nat) {a : Nat} (h : a < 0x1000000) : a ∉ endRegs n t := by
  simp only [endRegs, List.mem_cons, List.not_mem_nil, or_false, not_or]
  unfold CL_BUSY TH_RUN TH_PC
  omega

/-- The status registers of a cluster and its thread, and the general registers, take no part in the counts of an end. -/
theorem CL_STATUS_notMem_endRegs (n t : Nat) : CL_STATUS n ∉ endRegs n t := by
  simp only [endRegs, List.mem_cons, List.not_mem_nil, or_false, not_or]
  unfold CL_STATUS CL_BUSY TH_RUN TH_PC
  omega

theorem TH_STATUS_notMem_endRegs (n t : Nat) : TH_STATUS n t ∉ endRegs n t := by
  simp only [endRegs, List.mem_cons, List.not_mem_nil, or_false, not_or]
  unfold TH_STATUS CL_BUSY TH_RUN TH_PC
  omega

namespace EndKeeps

variable {n t : Nat} {r u : State}

theorem flags (h : EndKeeps n t r u) : u.reg (TH_FLAGS n t) = r.reg (TH_FLAGS n t) := h.regs _ (TH_FLAGS_notMem_endRegs n t)

theorem thSt (h : EndKeeps n t r u) : u.thSt n t = r.thSt n t := by rw [State.thSt, State.fld, h.flags]; rfl

theorem g (h : EndKeeps n t r u) (i : Nat) : u.g n t i = r.g n t i := h.regs _ (G_notMem_endRegs n t i)

theorem gPair (h : EndKeeps n t r u) (i : Nat) : u.gPair n t i = r.gPair n t i := by rw [State.gPair, h.g, h.g]; rfl

theorem thStamp (h : EndKeeps n t r u) : u.thStamp n t = r.thStamp n t := by
  rw [State.thStamp, State.pair, h.regs _ (TH_STAMP_HI_notMem_endRegs n t), h.regs _ (TH_STAMP_LO_notMem_endRegs n t)]; rfl

theorem below (h : EndKeeps n t r u) {a : Nat} (ha : a < 0x1000000) : u.reg a = r.reg a := h.regs _ (notMem_endRegs_of_below_clusters n t ha)

theorem localRam (h : EndKeeps n t r u) : u.localRam = r.localRam := by rw [h.frame]

theorem reservoir (h : EndKeeps n t r u) : u.reservoir = r.reservoir := by rw [h.frame]

theorem rings (h : EndKeeps n t r u) : u.rings = r.rings := by rw [h.frame]

theorem ring (h : EndKeeps n t r u) (k : Nat) : u.ring k = r.ring k := by rw [State.ring, h.rings]; rfl

theorem weirs (h : EndKeeps n t r u) : u.weirs = r.weirs := by rw [h.frame]

theorem weir (h : EndKeeps n t r u) (k : Nat) : u.weir k = r.weir k := by rw [State.weir, h.weirs]; rfl

theorem swap (h : EndKeeps n t r u) : u.swap = r.swap := by rw [h.frame]

end EndKeeps

theorem State.reg_kDone_ne (s : State) (n t c : Nat) {a : Nat} (hb : a ≠ CL_BUSY n) (hr : a ≠ TH_RUN n t) :
    (s.kDone n t c).reg a = s.reg a := by
  rw [State.kDone, State.reg_setEngine, s.reg_runCycles_ne n t (c - 1) hb hr]

theorem State.engine_kDone (s : State) (n t c : Nat) :
    ((s.kDone n t c).engine n).freeAt = s.mt ∧ ((s.kDone n t c).engine n).pollDue = true := by
  rw [State.kDone, State.engine_setEngine_self, State.runCycles_mt]
  exact ⟨rfl, rfl⟩

/-- A write of a register changes the registers alone. -/
theorem State.setReg_shape (s : State) (a : Nat) (v : Word) : ∃ rs, s.setReg a v = { s with regs := rs } := ⟨_, rfl⟩

theorem State.runCycles_frame (s : State) (n t c : Nat) :
    s.runCycles n t c = { s with regs := (s.runCycles n t c).regs, engines := (s.runCycles n t c).engines } := by
  unfold State.runCycles State.setReg State.setEngine
  rfl

theorem State.setRw_frame (s : State) (a : Nat) (v : Word) :
    s.setRw a v = { s with regs := (s.setRw a v).regs, rwNow := (s.setRw a v).rwNow } := by
  unfold State.setRw State.setReg
  rfl

/-- The instruction goes on at `pc`. -/
theorem State.goOn_keeps (r : State) (n t pc c : Nat) : EndKeeps n t r ((r.setThPc n t pc).kDone n t c) := by
  refine ⟨fun a ha => ?_, ?_⟩
  · simp only [endRegs, List.mem_cons, List.not_mem_nil, or_false, not_or] at ha
    rw [State.reg_kDone_ne _ n t c ha.1 ha.2.1, r.reg_setThPc_ne n t pc ha.2.2]
  · rw [State.kDone, State.runCycles_frame, State.setThPc, State.setRw_frame]
    unfold State.setEngine
    rfl

theorem State.goOn_ends {n t : Nat} {ds : List Nat} {s r : State} (h : KciFrame n t ds s r) (pc c : Nat) :
    s.kciEnds ((r.setThPc n t pc).kDone n t c) n t pc := by
  have hk := r.goOn_keeps n t pc c
  obtain ⟨hfree, hpoll⟩ := (r.setThPc n t pc).engine_kDone n t c
  refine ⟨?_, ?_, ?_, hpoll, hfree.trans ((r.setThPc_mt n t pc).trans h.mt)⟩
  · rw [← h.runningThread]
    exact State.runningThread_congr (hk.regs _ (CL_STATUS_notMem_endRegs n t))
  · rw [← h.thState, State.thState, State.fld, hk.regs _ (TH_STATUS_notMem_endRegs n t)]
    rfl
  · rw [State.thPc, State.fld, State.reg_kDone_ne _ n t c (by unfold TH_PC CL_BUSY; omega) (by unfold TH_PC TH_RUN; omega)]
    exact r.thPc_setThPc n t pc

theorem EndKeeps.keepsG {n t : Nat} {ds : List Nat} {s r u : State} (hk : EndKeeps n t r u) (h : KciFrame n t ds s r) :
    s.keepsG u n t ds := fun i hi hd => (hk.g i).trans (h.g i hi hd)

/-! ### What an instruction command comes to -/

section
variable {i : Instr} {s r : State} {n t : Nat} {w : Word} {o : Kci} {ds : List Nat}

theorem exec_of_kEffect (hx : exec i s = .next (s.kci n o)) (hr : s.kciRuns n t w o) {e : KEnd}
    (he : (s.kPaid n t).kEffect n t w o = (r, e)) : exec i s = .next (r.kEnd n t (kciBytes w) (s.kCycles n t w o) e) := by
  rw [hx, State.kci_of_runs hr, he]

/-- An instruction that goes on at the next one. -/
theorem exec_kci_next (hx : exec i s = .next (s.kci n o)) (hr : s.kciRuns n t w o)
    (he : (s.kPaid n t).kEffect n t w o = (r, .next)) (hf : KciFrame n t ds s r) :
    ∃ u, exec i s = .next u ∧ s.kciEnds u n t (s.thPc n t + kciBytes w) ∧ s.keepsG u n t ds ∧ EndKeeps n t r u := by
  refine ⟨_, exec_of_kEffect hx hr he, ?_, ?_, r.goOn_keeps n t (r.thPc n t + kciBytes w) (s.kCycles n t w o)⟩
  · rw [← hf.thPc]
    exact State.goOn_ends hf _ _
  · exact (r.goOn_keeps n t _ _).keepsG hf

/-- An instruction of four bytes that goes on at the next one. -/
theorem exec_kci_next4 (hx : exec i s = .next (s.kci n o)) (hr : s.kciRuns n t w o) (hext : o.takesExt w = false)
    (he : (s.kPaid n t).kEffect n t w o = (r, .next)) (hf : KciFrame n t ds s r) :
    ∃ u, exec i s = .next u ∧ s.kciEnds u n t (s.thPc n t + 4) ∧ s.keepsG u n t ds ∧ EndKeeps n t r u := by
  rw [← kciBytes_of_runs hr hext]
  exact exec_kci_next hx hr he hf

/-- An instruction that jumps. -/
theorem exec_kci_jump (hx : exec i s = .next (s.kci n o)) (hr : s.kciRuns n t w o) {pc : Nat}
    (he : (s.kPaid n t).kEffect n t w o = (r, .jump pc)) (hf : KciFrame n t ds s r) :
    ∃ u, exec i s = .next u ∧ s.kciEnds u n t pc ∧ s.keepsG u n t ds ∧ EndKeeps n t r u :=
  ⟨_, exec_of_kEffect hx hr he, State.goOn_ends hf _ _, (r.goOn_keeps n t pc _).keepsG hf, r.goOn_keeps n t pc (s.kCycles n t w o)⟩

/-- An instruction that faults. -/
theorem exec_kci_fault (hx : exec i s = .next (s.kci n o)) (hr : s.kciRuns n t w o) {code : Nat} {info : Word} (hcode : code < 256)
    (he : (s.kPaid n t).kEffect n t w o = (s.kPaid n t, .fault code info)) :
    ∃ u, exec i s = .next u ∧ s.faulted u n t code info ∧ s.keepsG u n t [] ∧ u.localRam = s.localRam :=
  ⟨_, exec_of_kEffect hx hr he, (s.kPaid n t).faulted_faultThread n t info hcode,
    ((s.kPaid n t).faultThread_changes n t code info).keepsG, ((s.kPaid n t).faultThread_changes n t code info).localRam⟩

end

/-- The state before an instruction differs from that in which it takes effect in what the thread owes alone. -/
theorem State.kPaid_frame (s : State) (n t : Nat) (ds : List Nat) : KciFrame n t ds s (s.kPaid n t) := (KciFrame.refl s).same rfl fun _ => rfl

end Sys2Proof.Machine
end

section
/-!
PROOFS. Arithmetic of KCI (R223, R225, R230): what an instruction reads before its effect, what the flags, stamps and register pairs of a
thread hold after they are written, then the statement about the ALU instructions.
-/

namespace Sys2Proof.Machine

open Reg

/-! ### What an instruction reads before its effect -/

section
variable (s : State) (n t : Nat)

@[simp] theorem State.reg_kPaid (a : Nat) : (s.kPaid n t).reg a = s.reg a := s.reg_setThread n t _ a

@[simp] theorem State.g_kPaid (i : Nat) : (s.kPaid n t).g n t i = s.g n t i := s.reg_kPaid n t _

@[simp] theorem State.gPair_kPaid (i : Nat) : (s.kPaid n t).gPair n t i = s.gPair n t i := by
  rw [State.gPair, State.g_kPaid, State.g_kPaid, ← State.gPair]

@[simp] theorem State.fld_kPaid (a hi lo : Nat) : (s.kPaid n t).fld a hi lo = s.fld a hi lo := by
  rw [State.fld, State.reg_kPaid, ← State.fld]

@[simp] theorem State.thPc_kPaid : (s.kPaid n t).thPc n t = s.thPc n t := s.fld_kPaid n t _ _ _

@[simp] theorem State.thFlags_kPaid : (s.kPaid n t).thFlags n t = s.reg (TH_FLAGS n t) := s.reg_kPaid n t _

@[simp] theorem State.thStamp_kPaid : (s.kPaid n t).thStamp n t = s.thStamp n t := by
  simp only [State.thStamp, State.pair, State.reg_kPaid]

@[simp] theorem State.kPaid_mt : (s.kPaid n t).mt = s.mt := rfl

@[simp] theorem State.kPaid_now : (s.kPaid n t).now = s.now := rfl

@[simp] theorem State.kPaid_localRam : (s.kPaid n t).localRam = s.localRam := rfl

@[simp] theorem State.ramRead_kPaid (m a b : Nat) : (s.kPaid n t).ramRead m a b = s.ramRead m a b := rfl

@[simp] theorem State.ramWord_kPaid (m a : Nat) : (s.kPaid n t).ramWord m a = s.ramWord m a := rfl

@[simp] theorem State.kExt_kPaid : (s.kPaid n t).kExt n t = s.kExt n t := by
  rw [State.kExt, State.ramWord_kPaid, State.thPc_kPaid, ← State.kExt]

@[simp] theorem State.kImmediate_kPaid (w : Word) : (s.kPaid n t).kImmediate n t w = s.kImmediate n t w := by
  rw [State.kImmediate, State.kExt_kPaid, ← State.kImmediate]

@[simp] theorem State.kAddr_kPaid (w : Word) : (s.kPaid n t).kAddr n t w = s.kAddr n t w := by
  rw [State.kAddr, State.g_kPaid, State.kImmediate_kPaid, ← State.kAddr]

@[simp] theorem State.storeData_kPaid (sz d : Nat) : (s.kPaid n t).storeData n t sz d = s.storeData n t sz d := by
  simp only [State.storeData, State.g_kPaid]

theorem State.thread_kPaid : (s.kPaid n t).thread n t = { s.thread n t with owes := 0 } := s.thread_setThread_self n t _

end

/-! ### Flags, stamps and register pairs -/

theorem flagsOf_withFlags (w : Word) (f : Flags) : flagsOf (withFlags w f) = f := by
  simp [flagsOf, withFlags, bitOf_putBit_self, bitOf_putBit_ne, -BitVec.getLsbD_eq_getElem]

theorem bitsOf_withFlags (w : Word) (f : Flags) {hi lo : Nat} (h : 3 < lo) : bitsOf (withFlags w f) hi lo = bitsOf w hi lo := by
  unfold withFlags
  rw [bitsOf_putBit_ne _ _ _ _ _ (by omega), bitsOf_putBit_ne _ _ _ _ _ (by omega), bitsOf_putBit_ne _ _ _ _ _ (by omega),
    bitsOf_putBit_ne _ _ _ _ _ (by omega)]

section
variable (s : State) (n t : Nat)

theorem State.flags_setThFlags (f : Flags) : flagsOf ((s.setThFlags n t f).reg (TH_FLAGS n t)) = f := by
  rw [State.setThFlags, State.reg_setRw_self, flagsOf_withFlags]

theorem State.thSt_setThFlags (f : Flags) : (s.setThFlags n t f).thSt n t = s.thSt n t := by
  rw [State.thSt, State.fld, State.setThFlags, State.reg_setRw_self, bitsOf_withFlags _ _ (by decide), State.thFlags, State.thSt, State.fld]

theorem State.reg_setThFlags_ne (f : Flags) {a : Nat} (h : a ≠ TH_FLAGS n t) : (s.setThFlags n t f).reg a = s.reg a := by
  rw [State.setThFlags, State.reg_setRw_ne _ _ h]

theorem State.flags_setG (d : Nat) (v : Word) : (s.setG n t d v).reg (TH_FLAGS n t) = s.reg (TH_FLAGS n t) :=
  s.reg_setG_ne n t d v (by unfold TH_FLAGS G; omega)

theorem State.thSt_setG (d : Nat) (v : Word) : (s.setG n t d v).thSt n t = s.thSt n t := by
  rw [State.thSt, State.fld, s.flags_setG, ← State.fld, ← State.thSt]

theorem State.thStamp_of_regs {s u : State} {n t : Nat} (hlo : u.reg (TH_STAMP_LO n t) = s.reg (TH_STAMP_LO n t))
    (hhi : u.reg (TH_STAMP_HI n t) = s.reg (TH_STAMP_HI n t)) : u.thStamp n t = s.thStamp n t := by
  rw [State.thStamp, State.pair, hlo, hhi, ← State.pair, ← State.thStamp]

theorem State.thStamp_setG (d : Nat) (v : Word) : (s.setG n t d v).thStamp n t = s.thStamp n t :=
  State.thStamp_of_regs (s.reg_setG_ne n t d v (by unfold TH_STAMP_LO G; omega)) (s.reg_setG_ne n t d v (by unfold TH_STAMP_HI G; omega))

theorem State.thStamp_setThFlags (f : Flags) : (s.setThFlags n t f).thStamp n t = s.thStamp n t :=
  State.thStamp_of_regs (s.reg_setThFlags_ne n t f (by unfold TH_STAMP_LO TH_FLAGS; omega))
    (s.reg_setThFlags_ne n t f (by unfold TH_STAMP_HI TH_FLAGS; omega))

theorem State.setG_localRam (d : Nat) (v : Word) : (s.setG n t d v).localRam = s.localRam := by
  rw [State.setG, State.setRw_frame]

theorem State.gPair_setGPair (d : Nat) (v : BitVec 64) : (s.setGPair n t d v).gPair n t d = v := by
  rw [State.gPair, State.setGPair, State.g_setG_self, State.g_setG_ne _ _ _ _ (by omega), State.g_setG_self, ofWords_words]

theorem State.thStamp_setGPair (d : Nat) (v : BitVec 64) : (s.setGPair n t d v).thStamp n t = s.thStamp n t := by
  rw [State.setGPair, State.thStamp_setG, State.thStamp_setG]

theorem State.thStamp_setThStamp (v : Stamp) : (s.setThStamp n t v).thStamp n t = v := by
  rw [State.thStamp, State.pair, State.setThStamp, State.reg_setRw_self,
    State.reg_setRw_ne _ _ (by unfold TH_STAMP_LO TH_STAMP_HI; omega), State.reg_setRw_self, ofWords_words]

theorem State.reg_setThStamp_ne (v : Stamp) {a : Nat} (hlo : a ≠ TH_STAMP_LO n t) (hhi : a ≠ TH_STAMP_HI n t) :
    (s.setThStamp n t v).reg a = s.reg a := by
  rw [State.setThStamp, State.reg_setRw_ne _ _ hhi, State.reg_setRw_ne _ _ hlo]

theorem State.flags_setThStamp (v : Stamp) : (s.setThStamp n t v).reg (TH_FLAGS n t) = s.reg (TH_FLAGS n t) :=
  s.reg_setThStamp_ne n t v (by unfold TH_FLAGS TH_STAMP_LO; omega) (by unfold TH_FLAGS TH_STAMP_HI; omega)

theorem State.g_setThStamp (v : Stamp) (i : Nat) : (s.setThStamp n t v).g n t i = s.g n t i :=
  s.reg_setThStamp_ne n t v (by unfold G TH_STAMP_LO; omega) (by unfold G TH_STAMP_HI; omega)

theorem State.gPair_setThStamp (v : Stamp) (i : Nat) : (s.setThStamp n t v).gPair n t i = s.gPair n t i := by
  rw [State.gPair, State.g_setThStamp, State.g_setThStamp, ← State.gPair]

theorem State.thSt_setSt {st : Nat} (h : st < 16) : (s.setSt n t st).thSt n t = st := by
  rw [State.thSt, State.fld_setSt, Nat.mod_eq_of_lt h]

theorem State.reg_setSt_ne (st : Nat) {a : Nat} (h : a ≠ TH_FLAGS n t) : (s.setSt n t st).reg a = s.reg a := by
  rw [State.setSt, State.reg_setRw_ne _ _ h]

theorem State.thStamp_setSt (st : Nat) : (s.setSt n t st).thStamp n t = s.thStamp n t :=
  State.thStamp_of_regs (s.reg_setSt_ne n t st (by unfold TH_STAMP_LO TH_FLAGS; omega))
    (s.reg_setSt_ne n t st (by unfold TH_STAMP_HI TH_FLAGS; omega))

end

/-! ### Arithmetic (R230) -/

/-- The second operand of an ALU instruction. -/
def State.aluOperand (s : State) (n t : Nat) (w : Word) : Word :=
  if kOpc w = 0x01 then s.g n t (kB w) else if kX w = true then s.kExt n t else bvInt 32 (signed 12 (kImm w))

/-- Result and flags of an ALU instruction. -/
def State.aluResult (s : State) (n t : Nat) (w : Word) (f : Alu) : Word × Flags :=
  f.run (flagsOf (s.reg (TH_FLAGS n t))) (s.g n t (kA w)) (s.aluOperand n t w)

/-- The state after the effect of an ALU instruction. -/
def State.aluDone (s : State) (n t : Nat) (w : Word) (f : Alu) : State :=
  let u := (s.kPaid n t).setThFlags n t (s.aluResult n t w f).2
  if f.writes = true then u.setG n t (kD w) (s.aluResult n t w f).1 else u

theorem State.kEffect_alu (s : State) (n t : Nat) (w : Word) (f : Alu) :
    (s.kPaid n t).kEffect n t w (.alu f) = (s.aluDone n t w f, .next) := by
  simp only [State.kEffect, State.kAlu, State.g_kPaid, State.kImmediate_kPaid, State.thFlags_kPaid]
  rfl

section
variable (s : State) (n t : Nat) (w : Word) (f : Alu)

theorem State.aluDone_frame : KciFrame n t (if f.writes = true then [kD w] else []) s (s.aluDone n t w f) := by
  unfold State.aluDone
  by_cases h : f.writes = true
  · simp only [if_pos h]
    exact ((s.kPaid_frame n t _).setThFlags _).setG _ List.mem_cons_self
  · simp only [if_neg h]
    exact (s.kPaid_frame n t _).setThFlags _

theorem State.flags_aluDone : flagsOf ((s.aluDone n t w f).reg (TH_FLAGS n t)) = (s.aluResult n t w f).2 := by
  unfold State.aluDone
  split
  · rw [State.flags_setG, State.flags_setThFlags]
  · exact State.flags_setThFlags _ n t _

theorem State.thSt_aluDone : (s.aluDone n t w f).thSt n t = s.thSt n t := by
  unfold State.aluDone
  split
  · rw [State.thSt_setG, State.thSt_setThFlags]; exact s.fld_kPaid n t _ _ _
  · rw [State.thSt_setThFlags]; exact s.fld_kPaid n t _ _ _

theorem State.thStamp_aluDone : (s.aluDone n t w f).thStamp n t = s.thStamp n t := by
  unfold State.aluDone
  split
  · rw [State.thStamp_setG, State.thStamp_setThFlags, State.thStamp_kPaid]
  · rw [State.thStamp_setThFlags, State.thStamp_kPaid]

theorem State.setThFlags_localRam (g : Flags) : (s.setThFlags n t g).localRam = s.localRam := by
  rw [State.setThFlags, State.setRw_frame]

theorem State.setThFlags_reservoir (g : Flags) : (s.setThFlags n t g).reservoir = s.reservoir := by
  rw [State.setThFlags, State.setRw_frame]

theorem State.aluDone_memories : (s.aluDone n t w f).localRam = s.localRam ∧ (s.aluDone n t w f).reservoir = s.reservoir := by
  unfold State.aluDone
  split
  · rw [State.setG_localRam, State.setG_reservoir, State.setThFlags_localRam, State.setThFlags_reservoir]; exact ⟨rfl, rfl⟩
  · rw [State.setThFlags_localRam, State.setThFlags_reservoir]; exact ⟨rfl, rfl⟩

theorem State.g_aluDone (h : f.writes = true) : (s.aluDone n t w f).g n t (kD w) = (s.aluResult n t w f).1 := by
  unfold State.aluDone
  rw [if_pos h, State.g_setG_self]

end

end Sys2Proof.Machine

namespace Sys2Proof.Proofs

open Sys2Proof.Machine Sys2Proof.Machine.Reg

/-- Settles O37: the effect of an ALU instruction, read after its end. -/
theorem kciArithmeticWritesItsRegister : Obligations.KciArithmeticWritesItsRegister := by
  rintro n t w s ⟨i, o⟩ f hp rfl hr
  obtain ⟨u, hx, hends, hg, hk⟩ :=
    exec_kci_next (exec_kciRow hp n s) hr (s.kEffect_alu n t w f) (s.aluDone_frame n t w f)
  refine ⟨u, hx, hends, ?_, ?_, fun hw => ?_, hg, ?_, ?_, ?_⟩
  · rw [hk.flags, s.flags_aluDone]; rfl
  · rw [hk.thSt, s.thSt_aluDone]
  · rw [hk.g, s.g_aluDone n t w f hw]; rfl
  · rw [hk.localRam, (s.aluDone_memories n t w f).1]
  · rw [hk.reservoir, (s.aluDone_memories n t w f).2]
  · rw [hk.thStamp, s.thStamp_aluDone]

end Sys2Proof.Proofs
end

section
/-!
PROOFS. Waits, loads, stores and branches of KCI (R203, R212, R232 to R235): how a thread leaves the engine at the end of an instruction,
what LD and ST do to local RAM and the registers, and where a branch goes on; then the statement.
-/

namespace Sys2Proof.Machine

open Reg

/-! ### Instructions at whose end the thread leaves the engine (R203, R208, R212) -/

/-- The registers that the end of such an instruction writes. -/
def leaveRegs (n t : Nat) : List Nat := [CL_BUSY n, TH_RUN n t, CL_POLL_MAX n, TH_STATUS n t, CL_STATUS n]

/-- The last microcycle of an instruction is a POLL. -/
def State.pollEnd (s : State) (n t c : Nat) : State := (s.runCycles n t c).notePoll n

theorem TH_FLAGS_notMem_leaveRegs (n t : Nat) : TH_FLAGS n t ∉ leaveRegs n t := by
  simp only [leaveRegs, List.mem_cons, List.not_mem_nil, or_false, not_or]
  unfold TH_FLAGS CL_BUSY TH_RUN CL_POLL_MAX TH_STATUS CL_STATUS
  omega

theorem TH_PC_notMem_leaveRegs (n t : Nat) : TH_PC n t ∉ leaveRegs n t := by
  simp only [leaveRegs, List.mem_cons, List.not_mem_nil, or_false, not_or]
  unfold TH_PC CL_BUSY TH_RUN CL_POLL_MAX TH_STATUS CL_STATUS
  omega

theorem G_notMem_leaveRegs (n t i : Nat) : G n t i ∉ leaveRegs n t := by
  simp only [leaveRegs, List.mem_cons, List.not_mem_nil, or_false, not_or]
  unfold G CL_BUSY TH_RUN CL_POLL_MAX TH_STATUS CL_STATUS
  omega

theorem State.notePoll_frame (s : State) (n : Nat) : ∃ rs es ra, s.notePoll n = { s with regs := rs, engines := es, raised := ra } := by
  unfold State.notePoll State.noteHw
  dsimp only
  split
  · obtain ⟨rs, h⟩ := s.setReg_shape (CL_POLL_MAX n) (BitVec.ofNat 32 (s.engine n).sincePoll)
    rw [h]
    exact ⟨_, _, _, rfl⟩
  · exact ⟨_, _, _, rfl⟩

theorem State.leaveEngine_frame (s : State) (n t st kind : Nat) : ∃ rs, s.leaveEngine n t st kind = { s with regs := rs } := by
  obtain ⟨rs, h⟩ := s.setReg_shape (TH_STATUS n t) (setBits (setBits (s.reg (TH_STATUS n t)) 7 4 kind) 2 0 st)
  unfold State.leaveEngine State.setRunning State.setThState
  rw [h]
  exact State.setReg_shape _ _ _

theorem State.pollEnd_frame (s : State) (n t c : Nat) :
    ∃ rs es ra, s.pollEnd n t c = { s with regs := rs, engines := es, raised := ra } := by
  obtain ⟨rs, es, ra, h⟩ := (s.runCycles n t c).notePoll_frame n
  exact ⟨rs, es, ra, by rw [State.pollEnd, h, State.runCycles_frame]⟩

theorem State.thread_pollEnd (s : State) (n t c m h : Nat) : (s.pollEnd n t c).thread m h = s.thread m h := by
  obtain ⟨rs, es, ra, he⟩ := s.pollEnd_frame n t c
  rw [he]
  rfl

/-- A thread that leaves the engine after the POLL of its instruction: what its end does not write stays. -/
theorem State.reg_leave_after_poll_ne {s u : State} {n t c : Nat} (hu : ∀ a, u.reg a = (s.pollEnd n t c).reg a) (st kind : Nat) {a : Nat}
    (h : a ∉ leaveRegs n t) : (u.leaveEngine n t st kind).reg a = s.reg a := by
  simp only [leaveRegs, List.mem_cons, List.not_mem_nil, or_false, not_or] at h
  obtain ⟨hbusy, hrun, hpoll, hstatus, hcl⟩ := h
  rw [State.reg_leaveEngine_ne _ n t st kind hstatus hcl, hu, State.pollEnd, State.reg_notePoll_ne _ n hpoll,
    s.reg_runCycles_ne n t c hbusy hrun]

/-- The state of a thread that has left the engine for state `st` at the end of an instruction, its own record now `x`. -/
def State.leftWith (s : State) (n t c st kind : Nat) (x : Thread) : State :=
  ((s.pollEnd n t c).setThread n t x).leaveEngine n t st kind

section
variable (s : State) (n t c st kind : Nat) (x : Thread)

theorem State.reg_leftWith_ne {a : Nat} (h : a ∉ leaveRegs n t) : (s.leftWith n t c st kind x).reg a = s.reg a := by
  exact State.reg_leave_after_poll_ne (fun b => State.reg_setThread _ n t x b) st kind h

theorem State.leftWith_frame :
    ∃ rs es ra ts, s.leftWith n t c st kind x = { s with regs := rs, engines := es, raised := ra, threads := ts } := by
  obtain ⟨_, es, ra, hp⟩ := s.pollEnd_frame n t c
  obtain ⟨rs, hl⟩ := ((s.pollEnd n t c).setThread n t x).leaveEngine_frame n t st kind
  refine ⟨rs, es, ra, ((s.pollEnd n t c).setThread n t x).threads, ?_⟩
  rw [State.leftWith, hl, hp]
  rfl

theorem State.leftWith_reservoir : (s.leftWith n t c st kind x).reservoir = s.reservoir := by
  obtain ⟨_, _, _, _, h⟩ := s.leftWith_frame n t c st kind x
  rw [h]

theorem State.leftWith_rings : (s.leftWith n t c st kind x).rings = s.rings := by
  obtain ⟨_, _, _, _, h⟩ := s.leftWith_frame n t c st kind x
  rw [h]

theorem State.thState_leftWith (h : st < 8) : (s.leftWith n t c st kind x).thState n t = st := State.thState_leaveEngine _ n t kind h

theorem State.thread_leftWith : (s.leftWith n t c st kind x).thread n t = x := by
  rw [State.leftWith, State.thread_leaveEngine, State.thread_setThread_self]

theorem State.thPc_leftWith : (s.leftWith n t c st kind x).thPc n t = s.thPc n t := by
  rw [State.thPc, State.fld, s.reg_leftWith_ne n t c st kind x (TH_PC_notMem_leaveRegs n t), ← State.fld, ← State.thPc]

theorem State.flags_leftWith : (s.leftWith n t c st kind x).reg (TH_FLAGS n t) = s.reg (TH_FLAGS n t) :=
  s.reg_leftWith_ne n t c st kind x (TH_FLAGS_notMem_leaveRegs n t)

theorem State.g_leftWith (i : Nat) : (s.leftWith n t c st kind x).g n t i = s.g n t i :=
  s.reg_leftWith_ne n t c st kind x (G_notMem_leaveRegs n t i)

theorem State.waitKind_leftWith (h : kind < 16) : (s.leftWith n t c st kind x).fld (TH_STATUS n t) 7 4 = kind := by
  rw [State.fld, State.leftWith, State.reg_leaveEngine_TH_STATUS, State.setThState, State.reg_setReg_self,
    bitsOf_setBits_ne _ _ _ _ _ _ (by decide), bitsOf_setBits_self _ _ _ _ (by decide)]
  exact Nat.mod_eq_of_lt h

/-- A thread that has left the engine for a wait. -/
theorem State.kciWaits_leftWith {w : Wait} (h : kind < 16) (hw : x.wait = w) (hm : x.metAt = none) :
    s.kciWaits (s.leftWith n t c thWaiting kind x) n t kind w :=
  ⟨s.thState_leftWith n t c _ kind x (by decide), s.waitKind_leftWith n t c _ kind x h, by rw [State.thread_leftWith, hw],
    by rw [State.thread_leftWith, hm], s.thPc_leftWith n t c _ kind x, s.flags_leftWith n t c _ kind x,
    fun i _ _ => s.g_leftWith n t c _ kind x i⟩

end

/-! ### How an instruction ends in a wait -/

section
variable {i : Instr} {s r : State} {n t : Nat} {w : Word} {o : Kci}

theorem State.kEnd_wait (s : State) (n t len c kind : Nat) (w : Wait) (h : kind = 4 ∨ (s.thread n t).haltReq = false) :
    s.kEnd n t len c (.wait kind w) = s.leftWith n t c thWaiting kind { s.thread n t with wait := w, metAt := none } := by
  have hno : ¬ (((s.pollEnd n t c).thread n t).haltReq && kind != 4) = true := by
    rw [State.thread_pollEnd]
    rcases h with rfl | h
    · simp
    · simp [h]
  rw [State.leftWith, ← s.thread_pollEnd n t c]
  exact if_neg hno

theorem State.kEnd_wait_halts (s : State) (n t len c kind : Nat) (w : Wait) (hk : kind ≠ 4) (h : (s.thread n t).haltReq = true) :
    s.kEnd n t len c (.wait kind w) = s.leftWith n t c thHalted 0 { s.thread n t with haltReq := false } := by
  have hyes : (((s.pollEnd n t c).thread n t).haltReq && kind != 4) = true := by
    rw [State.thread_pollEnd]
    simp [h, hk]
  rw [State.leftWith, ← s.thread_pollEnd n t c]
  exact if_pos hyes

/-- An instruction that waits, of a thread without a HALT. -/
theorem exec_kci_wait (hx : exec i s = .next (s.kci n o)) (hr : s.kciRuns n t w o) {kind : Nat} {x : Wait}
    (he : (s.kPaid n t).kEffect n t w o = (s.kPaid n t, .wait kind x)) (hk : kind < 16)
    (hh : kind = 4 ∨ (s.thread n t).haltReq = false) :
    ∃ u, exec i s = .next u ∧ s.kciWaits u n t kind x ∧ u.reservoir = s.reservoir ∧ u.rings = s.rings := by
  have hh' : kind = 4 ∨ ((s.kPaid n t).thread n t).haltReq = false := by rw [State.thread_kPaid]; exact hh
  refine ⟨_, exec_of_kEffect hx hr he, ?_⟩
  rw [State.kEnd_wait _ n t _ _ kind x hh']
  obtain ⟨hst, hkind, hwait, hmet, hpc, hflags, hg⟩ :=
    (s.kPaid n t).kciWaits_leftWith n t (s.kCycles n t w o) kind { (s.kPaid n t).thread n t with wait := x, metAt := none } hk rfl rfl
  refine ⟨⟨hst, hkind, hwait, hmet, hpc.trans (s.thPc_kPaid n t), hflags.trans (s.reg_kPaid n t _), ?_⟩, ?_, ?_⟩
  · exact fun j hj hd => (hg j hj hd).trans (s.g_kPaid n t j)
  · exact State.leftWith_reservoir _ n t _ _ _ _
  · exact State.leftWith_rings _ n t _ _ _ _

/-- An instruction that would wait, of a thread that is to HALT. -/
theorem exec_kci_wait_halts (hx : exec i s = .next (s.kci n o)) (hr : s.kciRuns n t w o) {kind : Nat} {x : Wait}
    (he : (s.kPaid n t).kEffect n t w o = (s.kPaid n t, .wait kind x)) (hk : kind ≠ 4) (hh : (s.thread n t).haltReq = true) :
    ∃ u, exec i s = .next u ∧ u.thState n t = thHalted ∧ u.thPc n t = s.thPc n t ∧ s.keepsG u n t [] := by
  have hh' : ((s.kPaid n t).thread n t).haltReq = true := by rw [State.thread_kPaid]; exact hh
  refine ⟨_, exec_of_kEffect hx hr he, ?_⟩
  rw [State.kEnd_wait_halts _ n t _ _ kind x hk hh']
  exact ⟨State.thState_leftWith _ n t _ _ _ _ (by decide), (State.thPc_leftWith _ n t _ _ _ _).trans (s.thPc_kPaid n t),
    fun j _ _ => (State.g_leftWith _ n t _ _ _ _ j).trans (s.g_kPaid n t j)⟩

end

/-! ### Loads and stores (R232, R233) -/

section
variable {s : State} {n t : Nat} {w : Word}

theorem State.kLoad_aligned (h : (s.kAddr n t w).toNat % szBytes w = 0) :
    (s.kPaid n t).kEffect n t w .ld =
      ((s.kPaid n t).loadTo n t (kSz w) (kD w) (s.ramRead n (s.kAddr n t w).toNat (szBytes w)), .next) := by
  simp only [State.kEffect, State.kLoad, State.kAddr_kPaid, State.ramRead_kPaid]
  exact if_neg fun hne => hne h

theorem State.kStore_aligned (h : (s.kAddr n t w).toNat % szBytes w = 0) :
    (s.kPaid n t).kEffect n t w .st =
      ((s.kPaid n t).ramWrite n (s.kAddr n t w).toNat (s.storeData n t (kSz w) (kD w)) (szBytes w), .next) := by
  simp only [State.kEffect, State.kStore, State.kAddr_kPaid, State.storeData_kPaid]
  exact if_neg fun hne => hne h

theorem State.kEffect_misaligned {o : Kci} (ho : o ∈ [Kci.ld, .st, .ldr, .str, .rxadd]) (h : (s.kAddr n t w).toNat % szBytes w ≠ 0) :
    (s.kPaid n t).kEffect n t w o = (s.kPaid n t, .fault 3 (s.kAddr n t w)) := by
  simp only [List.mem_cons, List.not_mem_nil, or_false] at ho
  rcases ho with rfl | rfl | rfl | rfl | rfl <;>
    simp only [State.kEffect, State.kLoad, State.kStore, State.kAccess, State.kAddr_kPaid, if_pos h]

/-- The access of LDR, STR or RXADD that is issued. -/
theorem State.kAccess_issued (kind : Nat) (h : (s.kAddr n t w).toNat % szBytes w = 0) (hr : (s.kAddr n t w).toNat < 2 ^ 24) :
    (s.kPaid n t).kAccess n t w kind =
      (s.kPaid n t, .wait 4 (.access kind (kSz w) (s.kAddr n t w).toNat (kD w) s.mt (s.thPc n t + kciBytes w))) := by
  simp only [State.kAccess, State.kAddr_kPaid, State.thPc_kPaid, State.kPaid_mt]
  rw [if_neg (fun hne => hne h), if_neg (Nat.not_le.2 hr)]

theorem State.kAccess_beyond (kind : Nat) (h : (s.kAddr n t w).toNat % szBytes w = 0) (hr : 2 ^ 24 ≤ (s.kAddr n t w).toNat) :
    (s.kPaid n t).kAccess n t w kind = (s.kPaid n t, .fault 4 (s.kAddr n t w)) := by
  simp only [State.kAccess, State.kAddr_kPaid]
  rw [if_neg (fun hne => hne h), if_pos hr]

theorem State.loadTo_frame (s : State) (n t sz d v : Nat) : KciFrame n t (if sz = 3 then [d, d + 1] else [d]) s (s.loadTo n t sz d v) := by
  unfold State.loadTo
  by_cases h : sz = 3
  · simp only [if_pos h]
    exact ((KciFrame.refl s).setG _ (by simp)).setG _ (by simp)
  · simp only [if_neg h]
    exact (KciFrame.refl s).setG _ (by simp)

theorem State.g_loadTo (s : State) (n t d v : Nat) {sz : Nat} (h : sz ≠ 3) : (s.loadTo n t sz d v).g n t d = extend sz v := by
  rw [State.loadTo, if_neg h, State.g_setG_self]

theorem State.loadTo_pair (s : State) (n t d v : Nat) : s.loadTo n t 3 d v = s.setGPair n t d (BitVec.ofNat 64 v) := rfl

theorem State.loadTo_localRam (s : State) (n t sz d v : Nat) : (s.loadTo n t sz d v).localRam = s.localRam := by
  unfold State.loadTo
  split
  · rw [State.setG_localRam, State.setG_localRam]
  · rw [State.setG_localRam]

theorem State.flags_loadTo (s : State) (n t sz d v : Nat) : (s.loadTo n t sz d v).reg (TH_FLAGS n t) = s.reg (TH_FLAGS n t) := by
  unfold State.loadTo
  split
  · rw [State.flags_setG, State.flags_setG]
  · rw [State.flags_setG]

theorem State.reg_ramWrite (s : State) (n a v b x : Nat) : (s.ramWrite n a v b).reg x = s.reg x := rfl

/-- A store names a width of at most 8 bytes (R229, check 1). -/
theorem kSz_le_of_st (h : kciOf w = some .st) : kSz w ≤ 3 := by
  simp only [kciOf] at h
  split at h
  case h_4 => simpa [kciIf] using h
  case h_16 => split at h <;> simp at h
  case h_18 =>
    split at h
    · simp at h
    · split at h <;> simp at h
  case h_28 => split at h <;> simp at h
  all_goals simp [kciIf] at h

/-- What ST stores. -/
theorem State.storeData_eq (s : State) (n t d : Nat) (h : kSz w ≤ 3) :
    s.storeData n t (kSz w) d = if kSz w = 3 then (s.gPair n t d).toNat else (s.g n t d).toNat % 2 ^ (8 * szBytes w) := by
  unfold State.storeData szBytes
  rw [Nat.mod_eq_of_lt (a := kSz w) (b := 4) (by omega)]
  rfl

end

/-! ### Branches (R234, R235) -/

section
variable {s : State} {n t : Nat} {w : Word}

/-- The target of BR and JAL. -/
theorem State.kTarget_kPaid (s : State) (n t : Nat) (w : Word) :
    (s.kPaid n t).kTarget n t w = (((s.thPc n t : Int) + 4 * signed 16 (bitsOf w 15 0)) % 65536).toNat := by
  rw [State.kTarget, State.thPc_kPaid]
  rfl

theorem State.kLink_kPaid (s : State) (n t : Nat) : (s.kPaid n t).kLink n t = BitVec.ofNat 32 ((s.thPc n t + 4) % 65536) := by
  rw [State.kLink, State.thPc_kPaid]

theorem State.kBranch_taken (h : condHolds (kCond w) (s.reg (TH_FLAGS n t)) = true) :
    (s.kPaid n t).kEffect n t w .br = (s.kPaid n t, .jump (((s.thPc n t : Int) + 4 * signed 16 (bitsOf w 15 0)) % 65536).toNat) := by
  simp only [State.kEffect, State.kBranch, State.kTaken, State.thFlags_kPaid, h, if_true, State.kTarget_kPaid]

theorem State.kBranch_passed (h : ¬ condHolds (kCond w) (s.reg (TH_FLAGS n t)) = true) :
    (s.kPaid n t).kEffect n t w .br = (s.kPaid n t, .next) := by
  simp only [State.kEffect, State.kBranch, State.kTaken, State.thFlags_kPaid, h]
  rfl

theorem State.kEffect_jal : (s.kPaid n t).kEffect n t w .jal =
    ((s.kPaid n t).setG n t (kD w) (BitVec.ofNat 32 ((s.thPc n t + 4) % 65536)),
      .jump (((s.thPc n t : Int) + 4 * signed 16 (bitsOf w 15 0)) % 65536).toNat) := by
  simp only [State.kEffect, State.kJal, State.kLink_kPaid, State.kTarget_kPaid]

theorem State.kEffect_jr_aligned (h : bitsOf (s.g n t (kA w)) 1 0 = 0) : (s.kPaid n t).kEffect n t w .jr =
    ((s.kPaid n t).setG n t (kD w) (BitVec.ofNat 32 ((s.thPc n t + 4) % 65536)), .jump ((s.g n t (kA w)).toNat % 65536)) := by
  simp only [State.kEffect, State.kJr, State.kLink_kPaid, State.g_kPaid]
  exact if_neg fun hne => hne h

theorem State.kEffect_jr_misaligned (h : bitsOf (s.g n t (kA w)) 1 0 ≠ 0) :
    (s.kPaid n t).kEffect n t w .jr = (s.kPaid n t, .fault 3 (s.g n t (kA w))) := by
  simp only [State.kEffect, State.kJr, State.g_kPaid]
  exact if_pos h

end

end Sys2Proof.Machine

namespace Sys2Proof.Proofs

open Sys2Proof.Machine Sys2Proof.Machine.Reg

/-- LD of an address in its place. -/
theorem kLd_loads (n : Fin 24) (t : Nat) (w : Word) (s : State) (hr : s.kciRuns n t w .ld) (ha : (s.kAddr n t w).toNat % szBytes w = 0) :
    ∃ u, exec (.kLd n) s = .next u ∧ s.kciEnds u n t (s.thPc n t + kciBytes w) ∧
      (kSz w ≠ 3 → u.g n t (kD w) = extend (kSz w) (s.ramRead n (s.kAddr n t w).toNat (szBytes w))) ∧
      (kSz w = 3 → u.gPair n t (kD w) = BitVec.ofNat 64 (s.ramRead n (s.kAddr n t w).toNat 8)) ∧
      s.keepsG u n t (if kSz w = 3 then [kD w, kD w + 1] else [kD w]) ∧ u.localRam = s.localRam ∧
      u.reg (TH_FLAGS n t) = s.reg (TH_FLAGS n t) := by
  obtain ⟨u, hx, hends, hg, hk⟩ := exec_kci_next (i := .kLd n) rfl hr (State.kLoad_aligned ha)
    ((s.kPaid_frame n t _).trans (State.loadTo_frame _ n t (kSz w) (kD w) _))
  refine ⟨u, hx, hends, fun hsz => ?_, fun hsz => ?_, hg, ?_, ?_⟩
  · rw [hk.g, State.g_loadTo _ n t _ _ hsz]
  · have h8 : szBytes w = 8 := by rw [szBytes, hsz]; rfl
    rw [hk.gPair, hsz, State.loadTo_pair, State.gPair_setGPair, h8]
  · rw [hk.localRam, State.loadTo_localRam, State.kPaid_localRam]
  · rw [hk.flags, State.flags_loadTo, State.reg_kPaid]

/-- ST to an address in its place. -/
theorem kSt_stores (n : Fin 24) (t : Nat) (w : Word) (s : State) (hr : s.kciRuns n t w .st) (ha : (s.kAddr n t w).toNat % szBytes w = 0) :
    ∃ u, exec (.kSt n) s = .next u ∧ s.kciEnds u n t (s.thPc n t + kciBytes w) ∧
      u.localRam = Memory.write s.localRam (s.ramKey n (s.kAddr n t w).toNat)
        (if kSz w = 3 then (s.gPair n t (kD w)).toNat else (s.g n t (kD w)).toNat % 2 ^ (8 * szBytes w)) (szBytes w) ∧
      s.keepsG u n t [] ∧ u.reg (TH_FLAGS n t) = s.reg (TH_FLAGS n t) := by
  have hsz : kSz w ≤ 3 := kSz_le_of_st hr.2.2.1
  obtain ⟨u, hx, hends, hg, hk⟩ := exec_kci_next (i := .kSt n) rfl hr (State.kStore_aligned ha)
    ((s.kPaid_frame n t []).same rfl fun _ => rfl)
  refine ⟨u, hx, hends, ?_, hg, ?_⟩
  · rw [hk.localRam, ← s.storeData_eq n t (kD w) hsz]
    rfl
  · rw [hk.flags, State.reg_ramWrite, State.reg_kPaid]

/-- LDR, STR and RXADD, each with the kind of its access. -/
def accessRows : List ((Fin 24 → Instr) × Nat) := [(Instr.kLdr, 5), (Instr.kStr, 6), (Instr.kRxadd, 7)]

/-- The instruction of an access. -/
def accessKci (kind : Nat) : Kci := if kind = 5 then .ldr else if kind = 6 then .str else .rxadd

/-- Each of them runs its instruction, which issues an access of its kind. -/
theorem exec_accessRow {p : (Fin 24 → Instr) × Nat} (hp : p ∈ accessRows) (n : Fin 24) (s : State) :
    exec (p.1 n) s = .next (s.kci n (accessKci p.2)) ∧
      ∀ (u : State) (t : Nat) (w : Word), u.kEffect n t w (accessKci p.2) = u.kAccess n t w p.2 := by
  simp only [accessRows, List.mem_cons, List.not_mem_nil, or_false] at hp
  rcases hp with rfl | rfl | rfl <;> exact ⟨rfl, fun _ _ _ => rfl⟩

theorem kEffect_beyond {s : State} {n t : Nat} {w : Word} {o : Kci} (ho : o ∈ [Kci.ldr, .str, .rxadd])
    (h : (s.kAddr n t w).toNat % szBytes w = 0) (hr : 2 ^ 24 ≤ (s.kAddr n t w).toNat) :
    (s.kPaid n t).kEffect n t w o = (s.kPaid n t, .fault 4 (s.kAddr n t w)) := by
  simp only [List.mem_cons, List.not_mem_nil, or_false] at ho
  rcases ho with rfl | rfl | rfl <;> exact State.kAccess_beyond _ h hr

/-- BR goes on at its target or at the next instruction. -/
theorem kBr_goesOn (n : Fin 24) (t : Nat) (w : Word) (s : State) (hr : s.kciRuns n t w .br) :
    ∃ u, exec (.kBr n) s = .next u ∧ s.keepsG u n t [] ∧ u.reg (TH_FLAGS n t) = s.reg (TH_FLAGS n t) ∧
      s.kciEnds u n t (if condHolds (kCond w) (s.reg (TH_FLAGS n t)) = true
        then (((s.thPc n t : Int) + 4 * signed 16 (bitsOf w 15 0)) % 65536).toNat else s.thPc n t + 4) := by
  by_cases hc : condHolds (kCond w) (s.reg (TH_FLAGS n t)) = true
  · obtain ⟨u, hx, hends, hg, hk⟩ := exec_kci_jump (i := .kBr n) rfl hr (State.kBranch_taken hc) (s.kPaid_frame n t [])
    exact ⟨u, hx, hg, hk.flags.trans (s.reg_kPaid n t _), by rw [if_pos hc]; exact hends⟩
  · obtain ⟨u, hx, hends, hg, hk⟩ := exec_kci_next4 (i := .kBr n) rfl hr rfl (State.kBranch_passed hc) (s.kPaid_frame n t [])
    exact ⟨u, hx, hg, hk.flags.trans (s.reg_kPaid n t _), by rw [if_neg hc]; exact hends⟩

/-- Settles O39: loads and stores in place and out of place, the accesses to the reservoir, then the branches. -/
theorem kciReachesMemoryAndBranches : Obligations.KciReachesMemoryAndBranches := by
  refine ⟨kLd_loads, kSt_stores, fun n t w s p hp ho hr ha => ?_, fun n t w s p hp hr ha hb => ?_, fun n t w s p hp ho hr ha hb => ?_,
    kBr_goesOn, fun n t w s hr => ?_, fun n t w s hr ha => ?_, fun n t w s hr ha => ?_⟩
  · exact exec_kci_fault (exec_kciRow hp n s) hr (by decide) (State.kEffect_misaligned ho ha)
  · obtain ⟨hx, he⟩ := exec_accessRow hp n s
    obtain ⟨u, hu, hwaits, hres, -⟩ := exec_kci_wait hx hr ((he _ t w).trans (State.kAccess_issued p.2 ha hb)) (by decide) (.inl rfl)
    exact ⟨u, hu, hwaits, hres⟩
  · obtain ⟨u, hu, hfault, hg, -⟩ := exec_kci_fault (exec_kciRow hp n s) hr (by decide) (kEffect_beyond ho ha hb)
    exact ⟨u, hu, hfault, hg⟩
  · obtain ⟨u, hx, hends, hg, hk⟩ := exec_kci_jump (i := .kJal n) rfl hr State.kEffect_jal
      ((s.kPaid_frame n t [kD w]).setG _ List.mem_cons_self)
    exact ⟨u, hx, (hk.g _).trans (State.g_setG_self _ n t _ _), hg, hends⟩
  · obtain ⟨u, hx, hends, hg, hk⟩ := exec_kci_jump (i := .kJr n) rfl hr (State.kEffect_jr_aligned ha)
      ((s.kPaid_frame n t [kD w]).setG _ List.mem_cons_self)
    exact ⟨u, hx, (hk.g _).trans (State.g_setG_self _ n t _ _), hg, hends⟩
  · obtain ⟨u, hu, hfault, hg, -⟩ := exec_kci_fault (i := .kJr n) rfl hr (by decide) (State.kEffect_jr_misaligned ha)
    exact ⟨u, hu, hfault, hg⟩

end Sys2Proof.Proofs
end

section
/-!
PROOFS. Time, the stamp pair and waits of KCI (R239, R240, R244, R245, R249): what the instructions on time leave in the stamp pair and the
flags, when a wait is entered, and how YIELD and HALT end; then the statement.
-/

namespace Sys2Proof.Machine

open Reg

/-! ### Time and stamps (R239, R240) -/

section
variable (s : State) (n t : Nat) (w : Word)

/-- The state after the effect of MTRD. -/
def State.mtrdDone : State :=
  let u := (s.kPaid n t).setGPair n t (kD w) s.mt
  if w.getLsbD 12 = true then u.setThStamp n t s.now else u

theorem testBit_kFnI_zero : (kFnI w).testBit 0 = w.getLsbD 12 := by
  rw [kFnI, testBit_bitsOf]
  rfl

theorem State.kEffect_mtrd : (s.kPaid n t).kEffect n t w .mtrd = (s.mtrdDone n t w, .next) := by
  have hnow : ((s.kPaid n t).setGPair n t (kD w) s.mt).now = s.now := by
    rw [State.now, State.setGPair, State.setG_mt, State.setG_mt]
    rfl
  simp only [State.kEffect, State.kMtrd, State.mtrdDone, State.kPaid_mt, hnow, testBit_kFnI_zero]

theorem State.mtrdDone_frame : KciFrame n t [kD w, kD w + 1] s (s.mtrdDone n t w) := by
  have hpair := (s.kPaid_frame n t [kD w, kD w + 1]).setGPair s.mt (d := kD w) (by simp) (by simp)
  unfold State.mtrdDone
  exact .ite (hpair.setThStamp s.now) hpair

theorem State.gPair_mtrdDone : (s.mtrdDone n t w).gPair n t (kD w) = s.mt := by
  unfold State.mtrdDone
  split
  · rw [State.gPair_setThStamp, State.gPair_setGPair]
  · exact State.gPair_setGPair _ n t _ _

theorem State.thStamp_mtrdDone : (s.mtrdDone n t w).thStamp n t = if w.getLsbD 12 = true then s.now else s.thStamp n t := by
  unfold State.mtrdDone
  split
  · exact State.thStamp_setThStamp _ n t _
  · rw [State.thStamp_setGPair, State.thStamp_kPaid]

theorem State.reg_mtrdDone_below {a : Nat} (h : a < 0x1000000) : (s.mtrdDone n t w).reg a = s.reg a := by
  have hpair : ((s.kPaid n t).setGPair n t (kD w) s.mt).reg a = s.reg a := by
    rw [State.setGPair, State.reg_setG_ne _ n t _ _ (by unfold G; omega), State.reg_setG_ne _ n t _ _ (by unfold G; omega), State.reg_kPaid]
  unfold State.mtrdDone
  split
  · rw [State.reg_setThStamp_ne _ n t _ (by unfold TH_STAMP_LO; omega) (by unfold TH_STAMP_HI; omega), hpair]
  · exact hpair

theorem State.kEffect_stadd (sub : Bool) (h : (s.gPair n t (kA w)).toNat < 2 ^ 40) :
    (s.kPaid n t).kStampAdd n t w sub = (((s.kPaid n t).setThStamp n t
      (if sub = true then s.thStamp n t - s.gPair n t (kA w) else s.thStamp n t + s.gPair n t (kA w))).setSt n t 0, .next) := by
  simp only [State.kStampAdd, State.gPair_kPaid, State.thStamp_kPaid]
  exact if_neg (Nat.not_le.2 h)

theorem State.kEffect_stadd_beyond (sub : Bool) (h : 2 ^ 40 ≤ (s.gPair n t (kA w)).toNat) :
    (s.kPaid n t).kStampAdd n t w sub = ((s.kPaid n t).setSt n t 3, .next) := by
  simp only [State.kStampAdd, State.gPair_kPaid]
  exact if_pos h

/-- What STADDI adds to the stamp pair. -/
def State.staddiValue : BitVec 64 := BitVec.ofNat 64 (if kX w = true then (s.kExt n t).toNat else kImm w)

theorem State.kEffect_staddi :
    (s.kPaid n t).kEffect n t w .staddi = ((s.kPaid n t).setThStamp n t (s.thStamp n t + s.staddiValue n t w), .next) := by
  have hv : (if kX w then (s.kExt n t).zeroExtend 64 else BitVec.ofNat 64 (kImm w)) = s.staddiValue n t w := by
    unfold State.staddiValue
    split
    · exact BitVec.eq_of_toNat_eq (by simp)
    · rfl
  simp only [State.kEffect, State.kStaddi, State.kExt_kPaid, State.thStamp_kPaid, hv]

/-- The flags that STCMP leaves. -/
def State.stampFlags : Flags :=
  { z := decide (s.thStamp n t = s.now), n := decide ((s.thStamp n t - s.now).toInt < 0), c := false, v := false }

theorem State.kEffect_stcmp : (s.kPaid n t).kEffect n t w .stcmp = ((s.kPaid n t).setThFlags n t (s.stampFlags n t), .next) := by
  have hz : (ahead (s.thStamp n t) s.now == 0) = decide (s.thStamp n t = s.now) := by
    rw [ahead, Bool.eq_iff_iff, beq_iff_eq, decide_eq_true_eq, ← BitVec.toInt_zero (w := 64), BitVec.toInt_inj,
      BitVec.sub_eq_iff_eq_add, BitVec.zero_add]
  simp only [State.kEffect, State.kStcmp, State.thStamp_kPaid, State.kPaid_now, hz]
  rfl

end

/-! ### Waits (R244, R245) -/

section
variable {s : State} {n t : Nat} {w : Word}

theorem State.kWaitt_expired (h : 0 ≤ ahead s.now (s.thStamp n t)) :
    (s.kPaid n t).kEffect n t w .waitt = ((s.kPaid n t).setSt n t 0xD, .next) := by
  simp only [State.kEffect, State.kWaitt, State.thStamp_kPaid, State.kPaid_now]
  exact if_pos h

theorem State.kWaitt_waits (h : ahead s.now (s.thStamp n t) < 0) :
    (s.kPaid n t).kEffect n t w .waitt = (s.kPaid n t, .wait 1 (.time (s.thStamp n t))) := by
  simp only [State.kEffect, State.kWaitt, State.thStamp_kPaid, State.kPaid_now]
  exact if_neg (Int.not_le.2 h)

theorem State.kShaft_kPaid (s : State) (n t : Nat) (w : Word) : (s.kPaid n t).kShaft n t w = s.kShaft n t w := by
  simp only [State.kShaft, State.fld_kPaid]

theorem State.angleCheck_kPaid (s : State) (n t h : Nat) (q : Word) : (s.kPaid n t).angleCheck h q = s.angleCheck h q := rfl

theorem State.dirOf_kPaid (s : State) (n t h q : Nat) : (s.kPaid n t).dirOf h q = s.dirOf h q := rfl

theorem State.shPos_kPaid (s : State) (n t h : Nat) : (s.kPaid n t).shPos h = s.shPos h := rfl

theorem State.resolveAngle_kPaid (s : State) (n t h : Nat) (pos : BitVec 64) (frac qual : Word) (back : Bool) :
    (s.kPaid n t).resolveAngle h pos frac qual back = s.resolveAngle h pos frac qual back := rfl

theorem State.waitMet_kPaid (s : State) (n t : Nat) (x : Wait) : (s.kPaid n t).waitMet x = s.waitMet x := rfl

/-- The wait that a WAITA without an error asks for. -/
def State.angleWait (s : State) (n t : Nat) (w : Word) : Wait :=
  let h := s.kShaft n t w
  let back := s.dirOf h (bitsOf w 6 5)
  .angle h (s.resolveAngle h (s.shPos h) (s.g n t (kA w)) (s.g n t (kA w + 1)) back) back
    (if w.getLsbD 12 = true then some (s.thStamp n t) else none)

theorem State.kWaita_refused (h : s.angleCheck (s.kShaft n t w) (s.g n t (kA w + 1)) ≠ 0) :
    (s.kPaid n t).kEffect n t w .waita =
      ((s.kPaid n t).setSt n t (s.angleCheck (s.kShaft n t w) (s.g n t (kA w + 1))), .next) := by
  simp only [State.kEffect, State.kWaita, State.kShaft_kPaid, State.g_kPaid, State.angleCheck_kPaid]
  exact if_pos h

theorem State.kWaita_waits (h : s.angleCheck (s.kShaft n t w) (s.g n t (kA w + 1)) = 0) (hm : s.waitMet (s.angleWait n t w) = none) :
    (s.kPaid n t).kEffect n t w .waita = (s.kPaid n t, .wait 2 (s.angleWait n t w)) := by
  unfold State.angleWait at hm ⊢
  simp only [State.kEffect, State.kWaita, State.kShaft_kPaid, State.g_kPaid, State.angleCheck_kPaid, State.dirOf_kPaid,
    State.shPos_kPaid, State.resolveAngle_kPaid, State.waitMet_kPaid, State.thStamp_kPaid, testBit_kFnI_zero, hm]
  exact if_neg fun hne => hne h

theorem State.kWaita_expired (h : s.angleCheck (s.kShaft n t w) (s.g n t (kA w + 1)) = 0) (hm : s.waitMet (s.angleWait n t w) ≠ none) :
    (s.kPaid n t).kEffect n t w .waita = ((s.kPaid n t).setSt n t 0xD, .next) := by
  obtain ⟨st, hst⟩ := Option.ne_none_iff_exists'.1 hm
  unfold State.angleWait at hst
  simp only [State.kEffect, State.kWaita, State.kShaft_kPaid, State.g_kPaid, State.angleCheck_kPaid, State.dirOf_kPaid,
    State.shPos_kPaid, State.resolveAngle_kPaid, State.waitMet_kPaid, State.thStamp_kPaid, testBit_kFnI_zero, hst]
  exact if_neg fun hne => hne h

/-- The status of a check of an angle is one of ST. -/
theorem State.angleCheck_lt (s : State) (h : Nat) (qual : Word) : s.angleCheck h qual < 16 := by
  unfold State.angleCheck
  repeat' split
  all_goals decide

end

/-! ### YIELD and HALT (R249) -/

theorem State.thread_setThPc (s : State) (n t pc m h : Nat) : (s.setThPc n t pc).thread m h = s.thread m h := by
  rw [State.setThPc, State.thread_setRw]

theorem State.g_setThPc (s : State) (n t pc i : Nat) : (s.setThPc n t pc).g n t i = s.g n t i :=
  s.reg_setThPc_ne n t pc (by unfold G TH_PC; omega)

theorem State.flags_setThPc (s : State) (n t pc : Nat) : (s.setThPc n t pc).reg (TH_FLAGS n t) = s.reg (TH_FLAGS n t) :=
  s.reg_setThPc_ne n t pc (by unfold TH_FLAGS TH_PC; omega)

/-- A thread that has left the engine after the POLL of its instruction, its PC at `pc`. -/
theorem State.left_at {s u : State} {n t c pc st : Nat} (hu : ∀ a, u.reg a = ((s.setThPc n t pc).pollEnd n t c).reg a) (h : st < 8) :
    (u.leaveEngine n t st 0).thState n t = st ∧ (u.leaveEngine n t st 0).thPc n t = pc % 65536 / 4 * 4 ∧
      s.keepsG (u.leaveEngine n t st 0) n t [] ∧ (u.leaveEngine n t st 0).reg (TH_FLAGS n t) = s.reg (TH_FLAGS n t) := by
  have hreg : ∀ a, a ∉ leaveRegs n t → (u.leaveEngine n t st 0).reg a = (s.setThPc n t pc).reg a :=
    fun a ha => State.reg_leave_after_poll_ne hu st 0 ha
  refine ⟨u.thState_leaveEngine n t 0 h, ?_, fun i _ _ => ?_, ?_⟩
  · rw [State.thPc, State.fld, hreg _ (TH_PC_notMem_leaveRegs n t), ← State.fld, ← State.thPc, State.thPc_setThPc]
  · exact (hreg _ (G_notMem_leaveRegs n t i)).trans (s.g_setThPc n t pc i)
  · exact (hreg _ (TH_FLAGS_notMem_leaveRegs n t)).trans (s.flags_setThPc n t pc)

/-- Whether a YIELD gives up the engine rests on the threads' states and priorities, which its own PC does not change. -/
theorem State.yieldsTo_congr {s u : State} {n : Nat} (t : Nat) (h : ∀ i, u.reg (TH_STATUS n i) = s.reg (TH_STATUS n i))
    (h' : ∀ i, u.reg (TH_CTRL n i) = s.reg (TH_CTRL n i)) : u.yieldsTo n t = s.yieldsTo n t := by
  have hprio : ∀ i, u.thPrio n i = s.thPrio n i := fun i => congrArg (bitsOf · 9 8) (h' i)
  have hstate : ∀ i, u.thState n i = s.thState n i := fun i => congrArg (bitsOf · 2 0) (h i)
  simp only [State.yieldsTo, State.readyAt, hprio, hstate]

theorem State.yieldsTo_setThPc (s : State) (n t pc : Nat) : (s.setThPc n t pc).yieldsTo n t = s.yieldsTo n t :=
  State.yieldsTo_congr t (fun i => s.reg_setThPc_ne n t pc (by unfold TH_STATUS TH_PC; omega))
    (fun i => s.reg_setThPc_ne n t pc (by unfold TH_CTRL TH_PC; omega))

theorem State.yieldsTo_kPaid (s : State) (n t : Nat) : (s.kPaid n t).yieldsTo n t = s.yieldsTo n t :=
  State.yieldsTo_congr t (fun _ => s.reg_kPaid n t _) fun _ => s.reg_kPaid n t _

theorem State.kEnd_yield_goesOn {s : State} {n t : Nat} (len c : Nat) (h : s.yieldsTo n t = false) :
    s.kEnd n t len c .yield = s.kEnd n t len c .next := by
  refine if_neg fun hne => ?_
  rw [State.yieldsTo_setThPc, h] at hne
  exact absurd hne (by simp)

theorem State.kEnd_yield_leaves {s : State} {n t : Nat} (len c : Nat) (h : s.yieldsTo n t = true) (hh : (s.thread n t).haltReq = false) :
    s.kEnd n t len c .yield = (((s.setThPc n t (s.thPc n t + len)).pollEnd n t c).leaveEngine n t thReady 0) := by
  refine if_pos ?_
  rw [State.yieldsTo_setThPc, State.thread_setThPc, h, hh]
  rfl

theorem State.kEnd_halt (s : State) (n t len c : Nat) :
    s.kEnd n t len c .halt = (((s.setThPc n t (s.thPc n t + len)).pollEnd n t c).setThread n t
      { ((s.setThPc n t (s.thPc n t + len)).pollEnd n t c).thread n t with haltReq := false }).leaveEngine n t thHalted 0 := rfl

end Sys2Proof.Machine

namespace Sys2Proof.Proofs

open Sys2Proof.Machine Sys2Proof.Machine.Reg

/-- MTRD reads the machine time, and with T the stamp pair takes the stamp of the tick. -/
theorem kMtrd_reads (n : Fin 24) (t : Nat) (w : Word) (s : State) (hr : s.kciRuns n t w .mtrd) :
    ∃ u, exec (.kMtrd n) s = .next u ∧ s.kciEnds u n t (s.thPc n t + 4) ∧ u.gPair n t (kD w) = s.mt ∧ u.reg MT_HI = s.reg MT_HI ∧
      u.thStamp n t = (if w.getLsbD 12 = true then s.now else s.thStamp n t) ∧ s.keepsG u n t [kD w, kD w + 1] := by
  obtain ⟨u, hx, hends, hg, hk⟩ :=
    exec_kci_next4 (i := .kMtrd n) rfl hr rfl (s.kEffect_mtrd n t w) (s.mtrdDone_frame n t w)
  exact ⟨u, hx, hends, hk.gPair _ |>.trans (s.gPair_mtrdDone n t w),
    (hk.below (by decide)).trans (s.reg_mtrdDone_below n t w (by decide)), hk.thStamp.trans (s.thStamp_mtrdDone n t w), hg⟩

/-- STADD and STSUB, with a duration within bounds and beyond them. -/
theorem kStampAdd_adds (n : Fin 24) (t : Nat) (w : Word) (s : State) (p : (Fin 24 → Instr) × Kci)
    (hp : p ∈ [(Instr.kStadd, Kci.stadd), (Instr.kStsub, Kci.stsub)]) (hr : s.kciRuns n t w p.2) :
    ∃ u, exec (p.1 n) s = .next u ∧ s.kciEnds u n t (s.thPc n t + 4) ∧ s.keepsG u n t [] ∧
      (if 2 ^ 40 ≤ (s.gPair n t (kA w)).toNat then u.thStamp n t = s.thStamp n t ∧ u.thSt n t = 3
       else u.thSt n t = 0 ∧ u.thStamp n t =
         (if p.2 = .stadd then s.thStamp n t + s.gPair n t (kA w) else s.thStamp n t - s.gPair n t (kA w))) := by
  obtain ⟨hx, hext, he⟩ : exec (p.1 n) s = .next (s.kci n p.2) ∧ p.2.takesExt w = false ∧
      (s.kPaid n t).kEffect n t w p.2 = (s.kPaid n t).kStampAdd n t w (decide (p.2 ≠ .stadd)) := by
    simp only [List.mem_cons, List.not_mem_nil, or_false] at hp
    rcases hp with rfl | rfl <;> exact ⟨rfl, rfl, rfl⟩
  by_cases h : 2 ^ 40 ≤ (s.gPair n t (kA w)).toNat
  · obtain ⟨u, hu, hends, hg, hk⟩ := exec_kci_next4 hx hr hext (he.trans (s.kEffect_stadd_beyond n t w _ h))
      ((s.kPaid_frame n t []).setSt 3)
    refine ⟨u, hu, hends, hg, ?_⟩
    rw [if_pos h, hk.thStamp, State.thStamp_setSt, State.thStamp_kPaid, hk.thSt, State.thSt_setSt _ n t (by decide)]
    exact ⟨rfl, rfl⟩
  · obtain ⟨u, hu, hends, hg, hk⟩ := exec_kci_next4 hx hr hext (he.trans (s.kEffect_stadd n t w _ (Nat.not_le.1 h)))
      (((s.kPaid_frame n t []).setThStamp _).setSt 0)
    refine ⟨u, hu, hends, hg, ?_⟩
    rw [if_neg h, hk.thStamp, State.thStamp_setSt, State.thStamp_setThStamp, hk.thSt, State.thSt_setSt _ n t (by decide)]
    by_cases ho : p.2 = .stadd <;> simp [ho]

/-- A YIELD with no thread to yield to, and one with. -/
theorem kYield_goesOn (n : Fin 24) (t : Nat) (w : Word) (s : State) (hr : s.kciRuns n t w .yield) (hy : s.yieldsTo n t = false) :
    ∃ u, exec (.kYield n) s = .next u ∧ s.kciEnds u n t (s.thPc n t + 4) ∧ s.keepsG u n t [] := by
  refine ⟨_, exec_of_kEffect (i := .kYield n) rfl hr (r := s.kPaid n t) (e := .yield) rfl, ?_⟩
  rw [kciBytes_of_runs hr rfl, State.kEnd_yield_goesOn _ _ (by rw [State.yieldsTo_kPaid, hy])]
  have hf := s.kPaid_frame n t []
  exact ⟨by rw [← hf.thPc]; exact State.goOn_ends hf _ _, (State.goOn_keeps _ n t _ _).keepsG hf⟩

theorem kYield_leaves (n : Fin 24) (t : Nat) (w : Word) (s : State) (hr : s.kciRuns n t w .yield) (hy : s.yieldsTo n t = true)
    (hh : (s.thread n t).haltReq = false) :
    ∃ u, exec (.kYield n) s = .next u ∧ u.thState n t = thReady ∧ u.thPc n t = (s.thPc n t + 4) % 65536 / 4 * 4 ∧ s.keepsG u n t [] := by
  refine ⟨_, exec_of_kEffect (i := .kYield n) rfl hr (r := s.kPaid n t) (e := .yield) rfl, ?_⟩
  rw [kciBytes_of_runs hr rfl, State.kEnd_yield_leaves _ _ (by rw [State.yieldsTo_kPaid, hy]) (by rw [State.thread_kPaid]; exact hh)]
  obtain ⟨hst, hpc, hg, -⟩ := State.left_at (s := s.kPaid n t) (pc := (s.kPaid n t).thPc n t + 4) (c := s.kCycles n t w .yield)
    (n := n) (t := t) (st := thReady) (fun _ => rfl) (by decide)
  rw [State.thPc_kPaid] at hst hpc hg ⊢
  exact ⟨hst, hpc, fun i hi hd => (hg i hi hd).trans (s.g_kPaid n t i)⟩

theorem kHalt_halts (n : Fin 24) (t : Nat) (w : Word) (s : State) (hr : s.kciRuns n t w .halt) :
    ∃ u, exec (.kHalt n) s = .next u ∧ u.thState n t = thHalted ∧ u.thPc n t = (s.thPc n t + 4) % 65536 / 4 * 4 ∧
      s.keepsG u n t [] ∧ u.reg (TH_FLAGS n t) = s.reg (TH_FLAGS n t) := by
  refine ⟨_, exec_of_kEffect (i := .kHalt n) rfl hr (r := s.kPaid n t) (e := .halt) rfl, ?_⟩
  rw [kciBytes_of_runs hr rfl, State.kEnd_halt, State.thPc_kPaid]
  obtain ⟨hst, hpc, hg, hf⟩ := State.left_at (s := s.kPaid n t) (pc := s.thPc n t + 4) (c := s.kCycles n t w .halt)
    (n := n) (t := t) (st := thHalted) (fun a => State.reg_setThread _ n t
      { (((s.kPaid n t).setThPc n t (s.thPc n t + 4)).pollEnd n t (s.kCycles n t w .halt)).thread n t with haltReq := false } a) (by decide)
  exact ⟨hst, hpc, fun i hi hd => (hg i hi hd).trans (s.g_kPaid n t i), hf.trans (s.reg_kPaid n t _)⟩

/-- Settles O41: the instructions on time and stamps, then the waits, then YIELD and HALT. -/
theorem kciKeepsTimeAndWaits : Obligations.KciKeepsTimeAndWaits := by
  refine ⟨kMtrd_reads, fun n t w s hr => ?_, fun n t w s hr => ?_, kStampAdd_adds, fun n t w s hr => ?_, fun n t w s hr => ?_,
    fun n t w s hr hd => ?_, fun n t w s hr hd => ?_, fun n t w s hr hc => ?_, fun n t w s hr hc => ?_, kYield_goesOn, kYield_leaves,
    kHalt_halts⟩
  · obtain ⟨u, hx, hends, hg, hk⟩ := exec_kci_next4 (i := .kStld n) rfl hr rfl (r := (s.kPaid n t).setThStamp n t (s.gPair n t (kA w)))
      (by rw [← s.gPair_kPaid n t (kA w)]; rfl) ((s.kPaid_frame n t []).setThStamp _)
    exact ⟨u, hx, hends, hk.thStamp.trans (State.thStamp_setThStamp _ n t _), hg,
      hk.flags.trans ((State.flags_setThStamp _ n t _).trans (s.reg_kPaid n t _))⟩
  · obtain ⟨u, hx, hends, hg, hk⟩ := exec_kci_next4 (i := .kStst n) rfl hr rfl (r := (s.kPaid n t).setGPair n t (kD w) (s.thStamp n t))
      (by rw [← s.thStamp_kPaid n t]; rfl) ((s.kPaid_frame n t [kD w, kD w + 1]).setGPair _ (by simp) (by simp))
    exact ⟨u, hx, hends, (hk.gPair _).trans (State.gPair_setGPair _ n t _ _),
      hk.thStamp.trans ((State.thStamp_setGPair _ n t _ _).trans (s.thStamp_kPaid n t)), hg⟩
  · obtain ⟨u, hx, hends, hg, hk⟩ := exec_kci_next (i := .kStaddi n) rfl hr (s.kEffect_staddi n t w) ((s.kPaid_frame n t []).setThStamp _)
    exact ⟨u, hx, hends, hg, hk.thStamp.trans (State.thStamp_setThStamp _ n t _)⟩
  · obtain ⟨u, hx, hends, hg, hk⟩ := exec_kci_next4 (i := .kStcmp n) rfl hr rfl (s.kEffect_stcmp n t w) ((s.kPaid_frame n t []).setThFlags _)
    exact ⟨u, hx, hends, hg, hk.thSt.trans ((State.thSt_setThFlags _ n t _).trans (s.fld_kPaid n t _ _ _)),
      by rw [hk.flags, State.flags_setThFlags]; rfl⟩
  · obtain ⟨u, hx, hends, hg, hk⟩ := exec_kci_next4 (i := .kWaitt n) rfl hr rfl (State.kWaitt_expired hd) ((s.kPaid_frame n t []).setSt 0xD)
    exact ⟨u, hx, hends, hk.thSt.trans (State.thSt_setSt _ n t (by decide)), hg⟩
  · by_cases hh : (s.thread n t).haltReq = true
    · obtain ⟨u, hx, hrest⟩ := exec_kci_wait_halts (i := .kWaitt n) rfl hr (State.kWaitt_waits hd) (by decide) hh
      exact ⟨u, hx, by rw [if_pos hh]; exact hrest⟩
    · obtain ⟨u, hx, hwaits, -⟩ := exec_kci_wait (i := .kWaitt n) rfl hr (State.kWaitt_waits hd) (by decide)
        (.inr (Bool.eq_false_iff.2 hh))
      exact ⟨u, hx, by rw [if_neg hh]; exact hwaits⟩
  · obtain ⟨u, hx, hends, hg, hk⟩ := exec_kci_next4 (i := .kWaita n) rfl hr rfl (State.kWaita_refused hc) ((s.kPaid_frame n t []).setSt _)
    exact ⟨u, hx, hends, hg, hk.thSt.trans (State.thSt_setSt _ n t (s.angleCheck_lt _ _))⟩
  · by_cases hm : s.waitMet (s.angleWait n t w) = none
    · by_cases hh : (s.thread n t).haltReq = true
      · obtain ⟨u, hx, -⟩ := exec_kci_wait_halts (i := .kWaita n) rfl hr (State.kWaita_waits hc hm) (by decide) hh
        exact ⟨u, hx, fun _ hf => absurd (hf.symm.trans hh) (by simp), fun hne => absurd hm hne⟩
      · obtain ⟨u, hx, hwaits, -⟩ := exec_kci_wait (i := .kWaita n) rfl hr (State.kWaita_waits hc hm) (by decide)
          (.inr (Bool.eq_false_iff.2 hh))
        exact ⟨u, hx, fun _ _ => hwaits, fun hne => absurd hm hne⟩
    · obtain ⟨u, hx, hends, hg, hk⟩ := exec_kci_next4 (i := .kWaita n) rfl hr rfl (State.kWaita_expired hc hm)
        ((s.kPaid_frame n t []).setSt 0xD)
      exact ⟨u, hx, fun he => absurd he hm, fun _ => ⟨hends, hk.thSt.trans (State.thSt_setSt _ n t (by decide)), hg⟩⟩

end Sys2Proof.Proofs
end

section
/-!
PROOFS. Rings (R257, R260, R262, R263, R266, R268): what opening a cycle, admitting, writing and taking entries do to WR, RD, FILL, CREDIT,
the entries in flight and the counters; then the host's accesses and the statement.
-/

namespace Sys2Proof.Machine

open Reg

/-! ### The start of a ring's cycle (R262) -/

/-- `q` has the entries, the offers and the counters of `p`; what the cycle has kept may differ. -/
structure RingState.Like (p q : RingState) : Prop where
  inflight : q.inflight = p.inflight
  offers : q.offers = p.offers
  offered : q.offered = p.offered
  admitted : q.admitted = p.admitted
  consumed : q.consumed = p.consumed
  flushed : q.flushed = p.flushed

section
variable (s : State) (r : Nat)

theorem State.ring_ringOpen_like : (s.ring r).Like ((s.ringOpen r).ring r) := by
  unfold State.ringOpen
  split
  · exact ⟨rfl, rfl, rfl, rfl, rfl, rfl⟩
  · rw [State.ring_setRing_self]
    exact ⟨rfl, rfl, rfl, rfl, rfl, rfl⟩

/-- The opening of a cycle changes the ring alone. -/
theorem State.ringOpen_shape : ∃ rs, s.ringOpen r = { s with rings := rs } := by
  unfold State.ringOpen
  split
  · exact ⟨s.rings, rfl⟩
  · exact ⟨_, rfl⟩

@[simp] theorem State.reg_ringOpen (a : Nat) : (s.ringOpen r).reg a = s.reg a := by
  obtain ⟨rs, h⟩ := s.ringOpen_shape r
  rw [h]
  rfl

@[simp] theorem State.ringOpen_reservoir : (s.ringOpen r).reservoir = s.reservoir := by
  obtain ⟨rs, h⟩ := s.ringOpen_shape r
  rw [h]

/-! ### Levels -/

theorem State.reg_ringLevel_ne (fill credit : Nat) {a : Nat} (hf : a ≠ RING_FILL r) (hc : a ≠ RING_CREDIT r) :
    (s.ringLevel r fill credit).reg a = s.reg a := by
  rw [State.ringLevel, State.reg_setReg_ne _ _ hc, State.reg_setReg_ne _ _ hf]

theorem RING_FILL_ne_RING_CREDIT : RING_FILL r ≠ RING_CREDIT r := by unfold RING_FILL RING_CREDIT; omega

theorem RING_WR_ne_levels : RING_WR r ≠ RING_FILL r ∧ RING_WR r ≠ RING_CREDIT r := by
  unfold RING_WR RING_FILL RING_CREDIT; omega

theorem RING_RD_ne_levels : RING_RD r ≠ RING_FILL r ∧ RING_RD r ≠ RING_CREDIT r := by
  unfold RING_RD RING_FILL RING_CREDIT; omega

theorem RING_CFG_ne_levels : RING_CFG r ≠ RING_FILL r ∧ RING_CFG r ≠ RING_CREDIT r := by
  unfold RING_CFG RING_FILL RING_CREDIT; omega

theorem State.fill_ringLevel (fill credit : Nat) : (s.ringLevel r fill credit).reg (RING_FILL r) = BitVec.ofNat 32 fill := by
  rw [State.ringLevel, State.reg_setReg_ne _ _ (RING_FILL_ne_RING_CREDIT r), State.reg_setReg_self]

theorem State.credit_ringLevel (fill credit : Nat) : (s.ringLevel r fill credit).reg (RING_CREDIT r) = BitVec.ofNat 32 credit := by
  rw [State.ringLevel, State.reg_setReg_self]

@[simp] theorem State.ring_ringLevel (fill credit k : Nat) : (s.ringLevel r fill credit).ring k = s.ring k := by
  rw [State.ringLevel, State.ring_setReg, State.ring_setReg]

/-! ### Entries that WR passes (R260) -/

/-- How many entries at the front of those in flight stand in the reservoir. -/
def placedCount (l : List InFlight) : Nat := (l.takeWhile (fun x => x == .placed)).length

theorem placedCount_replicate (n : Nat) : placedCount (List.replicate n .placed) = n := by
  rw [placedCount, List.takeWhile_replicate]
  simp

theorem State.ringPass_shows :
    (s.ringPass r).reg (RING_WR r) = s.reg (RING_WR r) + BitVec.ofNat 32 (placedCount (s.ring r).inflight) ∧
      (∀ a, a ≠ RING_WR r → (s.ringPass r).reg a = s.reg a) ∧
      ((s.ringPass r).ring r).inflight = (s.ring r).inflight.drop (placedCount (s.ring r).inflight) ∧
      ((s.ringPass r).ring r).admitted = (s.ring r).admitted ∧ ((s.ringPass r).ring r).flushed = (s.ring r).flushed ∧
      (s.ringPass r).reservoir = s.reservoir := by
  have hlike := s.ring_ringOpen_like r
  unfold State.ringPass
  rw [State.reg_setReg_self, State.ring_setReg, State.ring_setRing_self, State.setReg_reservoir, State.setRing_reservoir,
    State.ringOpen_reservoir, State.reg_ringOpen]
  refine ⟨rfl, fun a ha => ?_, rfl, hlike.admitted, hlike.flushed, rfl⟩
  rw [State.reg_setReg_ne _ _ ha, State.reg_setRing, State.reg_ringOpen]

/-! ### Admission (R260, R262) -/

/-- The ring once entries `es` are in flight behind those that are. -/
def State.ringJoined (es : List InFlight) : State :=
  let u := s.ringOpen r
  let q := u.ring r
  let u := u.setRing r { q with offered := q.offered + BitVec.ofNat 64 es.length, admitted := q.admitted + BitVec.ofNat 64 es.length,
                                inflight := q.inflight ++ es }
  u.ringLevel r ((u.reg (RING_FILL r)).toNat + es.length) ((u.reg (RING_CREDIT r)).toNat - es.length)

theorem State.ringAdmit_eq (es : List InFlight) : s.ringAdmit r es = (s.ringJoined r es).ringPass r := rfl

theorem State.levels_ringJoined (es : List InFlight) :
    (s.ringJoined r es).reg (RING_FILL r) = BitVec.ofNat 32 ((s.reg (RING_FILL r)).toNat + es.length) ∧
      (s.ringJoined r es).reg (RING_CREDIT r) = BitVec.ofNat 32 ((s.reg (RING_CREDIT r)).toNat - es.length) := by
  unfold State.ringJoined
  rw [State.fill_ringLevel, State.credit_ringLevel, State.reg_setRing, State.reg_setRing, State.reg_ringOpen, State.reg_ringOpen]
  exact ⟨rfl, rfl⟩

theorem State.ring_ringJoined (es : List InFlight) :
    ((s.ringJoined r es).ring r).inflight = (s.ring r).inflight ++ es ∧
      ((s.ringJoined r es).ring r).admitted = (s.ring r).admitted + BitVec.ofNat 64 es.length := by
  have hlike := s.ring_ringOpen_like r
  unfold State.ringJoined
  rw [State.ring_ringLevel, State.ring_setRing_self]
  exact ⟨congrArg (· ++ es) hlike.inflight, congrArg (· + _) hlike.admitted⟩

theorem State.reg_ringJoined_ne (es : List InFlight) {a : Nat} (hf : a ≠ RING_FILL r) (hc : a ≠ RING_CREDIT r) :
    (s.ringJoined r es).reg a = s.reg a := by
  rw [State.ringJoined, State.reg_ringLevel_ne _ r _ _ hf hc, State.reg_setRing, State.reg_ringOpen]

/-- What the admission of entries does to the ring. -/
theorem State.ringAdmit_shows (es : List InFlight) :
    (s.ringAdmit r es).reg (RING_WR r) = s.reg (RING_WR r) + BitVec.ofNat 32 (placedCount ((s.ring r).inflight ++ es)) ∧
      (s.ringAdmit r es).reg (RING_FILL r) = BitVec.ofNat 32 ((s.reg (RING_FILL r)).toNat + es.length) ∧
      (s.ringAdmit r es).reg (RING_CREDIT r) = BitVec.ofNat 32 ((s.reg (RING_CREDIT r)).toNat - es.length) ∧
      ((s.ringAdmit r es).ring r).inflight = ((s.ring r).inflight ++ es).drop (placedCount ((s.ring r).inflight ++ es)) ∧
      ((s.ringAdmit r es).ring r).admitted = (s.ring r).admitted + BitVec.ofNat 64 es.length := by
  obtain ⟨hinflight, hadmitted⟩ := s.ring_ringJoined r es
  obtain ⟨hwr, hother, hdrop, hadm, -, -⟩ := (s.ringJoined r es).ringPass_shows r
  have hne := RING_WR_ne_levels r
  rw [State.ringAdmit_eq, hwr, hother _ hne.1.symm, hother _ hne.2.symm, hdrop, hadm, hinflight, hadmitted,
    State.reg_ringJoined_ne _ _ _ hne.1 hne.2]
  exact ⟨rfl, (s.levels_ringJoined r es).1, (s.levels_ringJoined r es).2, rfl, rfl⟩

/-- The admission of one entry to a ring with none in flight. -/
theorem State.ringAdmit_one {s : State} {r : Nat} (e : BitVec 128) (h : (s.ring r).inflight = []) :
    ((s.ringAdmit r [.entry e]).ring r).inflight = [.entry e] ∧
      ((s.ringAdmit r [.entry e]).ring r).admitted = (s.ring r).admitted + 1 := by
  obtain ⟨-, -, -, hinflight, hadmitted⟩ := s.ringAdmit_shows r [.entry e]
  rw [h] at hinflight
  exact ⟨hinflight, hadmitted⟩

/-! ### Takes (R263) -/

theorem State.ringRetire_shows (n : Nat) :
    (s.ringRetire r n).reg (RING_RD r) = s.reg (RING_RD r) + BitVec.ofNat 32 n ∧
      (s.ringRetire r n).reg (RING_CREDIT r) = BitVec.ofNat 32 ((s.reg (RING_CREDIT r)).toNat + n) ∧
      ((s.ringRetire r n).ring r).consumed = (s.ring r).consumed ∧
      (∀ a, a ≠ RING_RD r → a ≠ RING_FILL r → a ≠ RING_CREDIT r → (s.ringRetire r n).reg a = s.reg a) := by
  have hlike := s.ring_ringOpen_like r
  have hne := RING_RD_ne_levels r
  unfold State.ringRetire
  refine ⟨?_, ?_, ?_, fun a hrd hf hc => ?_⟩
  · rw [State.reg_ringLevel_ne _ r _ _ hne.1 hne.2, State.reg_setReg_self, State.reg_setRing, State.reg_ringOpen]
  · rw [State.credit_ringLevel, State.reg_setReg_ne _ _ hne.2.symm, State.reg_setRing, State.reg_ringOpen]
  · rw [State.ring_ringLevel, State.ring_setReg, State.ring_setRing_self]
    exact hlike.consumed
  · rw [State.reg_ringLevel_ne _ r _ _ hf hc, State.reg_setReg_ne _ _ hrd, State.reg_setRing, State.reg_ringOpen]

end

/-- The ring once a sound entry has been taken. -/
def State.ringTaken (s : State) (r : Nat) : State :=
  (s.ringRetire r 1).setRing r { (s.ringRetire r 1).ring r with consumed := ((s.ringRetire r 1).ring r).consumed + 1 }

section
variable (s : State) (r : Nat)

theorem State.ringTaken_shows :
    (s.ringTaken r).reg (RING_RD r) = s.reg (RING_RD r) + 1 ∧ ((s.ringTaken r).ring r).consumed = (s.ring r).consumed + 1 := by
  obtain ⟨hrd, -, hconsumed, -⟩ := s.ringRetire_shows r 1
  rw [State.ringTaken, State.reg_setRing, State.ring_setRing_self, hrd, hconsumed]
  exact ⟨rfl, rfl⟩

/-- A take touches no register but the ring's. -/
theorem State.ringTaken_written : (s.ringTaken r).written = s.written := by
  obtain ⟨rs, hopen⟩ := s.ringOpen_shape r
  rw [State.ringTaken, State.setRing_written, State.ringRetire, State.ringLevel, State.setReg_written, State.setReg_written,
    State.setReg_written, State.setRing_written, hopen]

/-- A take of a sound entry. -/
theorem State.ringPop_sound {s : State} {r a : Nat} (hen : s.ringEn r = true) (hc : s.ringCons r = a) (hv : s.ringVisible r ≠ 0)
    (hp : s.resPoisoned (s.entryAt r (s.reg (RING_RD r))) 16 = false) :
    s.ringPop r a = (0, some (BitVec.ofNat 128 (s.resRead (s.entryAt r (s.reg (RING_RD r))) 16)), s.ringTaken r) := by
  have hopen : ¬ (!s.ringEn r || s.ringCons r != a) = true := by simp [hen, hc]
  rw [State.ringPop, if_neg hopen, if_neg hv, State.ringTake]
  simp only [hp]
  rfl

theorem State.ringPop_refused {s : State} {r a : Nat} (h : s.ringEn r = false ∨ s.ringCons r ≠ a) : s.ringPop r a = (0xC, none, s) := by
  have hclosed : (!s.ringEn r || s.ringCons r != a) = true := by rcases h with h | h <;> simp [h]
  rw [State.ringPop, if_pos hclosed]

theorem State.ringPop_empty {s : State} {r a : Nat} (hen : s.ringEn r = true) (hc : s.ringCons r = a) (hv : s.ringVisible r = 0) :
    s.ringPop r a = (0xA, none, s) := by
  have hopen : ¬ (!s.ringEn r || s.ringCons r != a) = true := by simp [hen, hc]
  rw [State.ringPop, if_neg hopen, if_pos hv]

/-! ### Pushes and offers (R262) -/

theorem State.pushStatus_refused {s : State} {r a : Nat} (h : s.ringEn r = false ∨ s.ringProd r ≠ a) : s.pushStatus r a = 0xC := by
  have hclosed : (!s.ringEn r || s.ringProd r != a) = true := by rcases h with h | h <;> simp [h]
  rw [State.pushStatus, if_pos hclosed]

theorem State.pushStatus_noCredit {s : State} {r a : Nat} (hen : s.ringEn r = true) (hp : s.ringProd r = a) (hc : s.ringCreditNow r = 0) :
    s.pushStatus r a = 9 := by
  have hopen : ¬ (!s.ringEn r || s.ringProd r != a) = true := by simp [hen, hp]
  rw [State.pushStatus, if_neg hopen, if_pos hc]

theorem State.pushStatus_credit {s : State} {r a : Nat} (hen : s.ringEn r = true) (hp : s.ringProd r = a) (hc : s.ringCreditNow r ≠ 0) :
    s.pushStatus r a = 0 := by
  have hopen : ¬ (!s.ringEn r || s.ringProd r != a) = true := by simp [hen, hp]
  rw [State.pushStatus, if_neg hopen, if_neg hc]

/-- A gathered offer is among those of the cycle, and the ring is else as it was. -/
theorem State.ringGather_shows (rank : Nat) (o : Offer) :
    (rank, o) ∈ ((s.ringGather r rank o).ring r).offers ∧ ((s.ringGather r rank o).ring r).inflight = (s.ring r).inflight ∧
      ∀ a, (s.ringGather r rank o).reg a = s.reg a := by
  unfold State.ringGather
  rw [State.ring_setRing_self]
  exact ⟨List.mem_append_left _ (List.mem_append_right _ List.mem_cons_self), rfl, fun a => s.reg_setRing r _ a⟩

end

end Sys2Proof.Machine
end

section
/-!
PROOFS. The rows of the rings (R257, R260, R262, R263, R266, R268): writes of RING_CFG and RING_BASE, entries written, the host's commits,
releases, pushes and pops, the service of their offers, and the snapshot; then the statement.
-/

namespace Sys2Proof.Machine

open Reg

/-! ### Configuration (R256, R257, R266) -/

theorem exec_ringCfgWrite {s : State} {r : Fin 64} {v : Word} (ha : s.accepts (RING_CFG r) v) :
    exec (.ringCfgWrite r false v) s = .next ((s.noteHost (RING_CFG r)).ringCfg r v) :=
  congrArg Host.Outcome.next (s.hostWrite_accepts _ ha)

theorem exec_ringBaseWrite {s : State} {r : Fin 64} {v : Word} (ha : s.accepts (RING_BASE r) v) :
    exec (.ringCfgWrite r true v) s = .next ((s.noteHost (RING_BASE r)).ringCfgWrite r true v) :=
  congrArg Host.Outcome.next (s.hostWrite_accepts _ ha)

/-- What a write of `v` makes of RING_CFG. -/
def ringCfgWord (old v : Word) : Word := mergeWord old v 0xFFF11F01#32

theorem ringCfgWord_others (old v : Word) : (old ^^^ ringCfgWord old v) &&& 0xFFF11F00#32 = (old ^^^ v) &&& 0xFFF11F00#32 := by
  apply BitVec.eq_of_getLsbD_eq
  intro i hi
  have hmask : (0xFFF11F00#32).getLsbD i = true → (0xFFF11F01#32).getLsbD i = true := by
    interval_cases i <;> decide
  simp only [BitVec.getLsbD_and, BitVec.getLsbD_xor, ringCfgWord, getLsbD_mergeWord]
  cases h : (0xFFF11F00#32).getLsbD i with
  | false => simp
  | true => rw [if_pos (hmask h)]

theorem bit0_ringCfgWord (old v : Word) : (ringCfgWord old v).getLsbD 0 = v.getLsbD 0 := getLsbD_mergeWord old v _ 0

theorem log_ringCfgWord (old v : Word) : bitsOf (ringCfgWord old v) 12 8 = bitsOf v 12 8 :=
  bitsOf_mergeWord fun i hlo hhi => by interval_cases i <;> decide

theorem cons_ringCfgWord (old v : Word) : bitsOf (ringCfgWord old v) 31 26 = bitsOf v 31 26 :=
  bitsOf_mergeWord fun i hlo hhi => by interval_cases i <;> decide

section
variable {s : State} {r : Nat} {v : Word}

/-- A write of RING_CFG that enables the ring. -/
theorem State.ringCfg_enables (hen : s.ringEn r = false) (hv : v.getLsbD 0 = true)
    (hsame : (s.reg (RING_CFG r) ^^^ v) &&& 0xFFF11F00#32 = 0) (hlo : 4 ≤ bitsOf v 12 8) (hhi : bitsOf v 12 8 ≤ 16)
    (hcons : agentCode (bitsOf v 31 26) ≠ 0x3F) :
    s.ringCfg r v = (s.setReg (RING_CFG r) (ringCfgWord (s.reg (RING_CFG r)) v)).ringEnable r := by
  have hold : (s.reg (RING_CFG r)).getLsbD 0 = false := hen
  have hw : mergeWord (s.reg (RING_CFG r)) v 0xFFF11F01#32 = ringCfgWord (s.reg (RING_CFG r)) v := rfl
  simp only [State.ringCfg, hw, ringCfgWord_others, hsame, bitOf, bit0_ringCfgWord, hv, hold, log_ringCfgWord, cons_ringCfgWord]
  have hrange : ¬ bitsOf v 12 8 < 4 ∧ ¬ 16 < bitsOf v 12 8 := by omega
  simp [hrange.1, hrange.2, hcons]

/-- A write of RING_CFG that disables the ring. -/
theorem State.ringCfg_disables (hen : s.ringEn r = true) (hv : v.getLsbD 0 = false)
    (hsame : (s.reg (RING_CFG r) ^^^ v) &&& 0xFFF11F00#32 = 0) :
    s.ringCfg r v = (s.setReg (RING_CFG r) (ringCfgWord (s.reg (RING_CFG r)) v)).ringDisable r := by
  have hold : (s.reg (RING_CFG r)).getLsbD 0 = true := hen
  have hw : mergeWord (s.reg (RING_CFG r)) v 0xFFF11F01#32 = ringCfgWord (s.reg (RING_CFG r)) v := rfl
  simp only [State.ringCfg, hw, ringCfgWord_others, hsame, bitOf, bit0_ringCfgWord, hv, hold]
  simp

/-- Another configuration of an enabled ring is refused. -/
theorem State.ringCfg_refused (hen : s.ringEn r = true) (hother : (s.reg (RING_CFG r) ^^^ v) &&& 0xFFF11F00#32 ≠ 0) :
    s.ringCfg r v = s.raise (RING_STATUS r) 1 := by
  have hold : (s.reg (RING_CFG r)).getLsbD 0 = true := hen
  have hw : mergeWord (s.reg (RING_CFG r)) v 0xFFF11F01#32 = ringCfgWord (s.reg (RING_CFG r)) v := rfl
  have hbne : ((s.reg (RING_CFG r) ^^^ v) &&& 0xFFF11F00#32 != 0) = true := bne_iff_ne.2 hother
  simp only [State.ringCfg, hw, ringCfgWord_others, hbne, bitOf, hold]
  rfl

end

/-- What enabling shows. -/
theorem State.ringEnable_shows (s : State) (r : Nat) :
    (s.ringEnable r).reg (RING_CFG r) = s.reg (RING_CFG r) ∧ (s.ringEnable r).reg (RING_RD r) = s.reg (RING_WR r) ∧
      (s.ringEnable r).reg (RING_WR r) = s.reg (RING_WR r) ∧ (s.ringEnable r).reg (RING_FILL r) = 0 ∧
      (s.ringEnable r).reg (RING_CREDIT r) = BitVec.ofNat 32 (2 ^ s.ringLog r) := by
  have hrd := RING_RD_ne_levels r
  have hwr := RING_WR_ne_levels r
  have hcfg := RING_CFG_ne_levels r
  have hcfgrd : RING_CFG r ≠ RING_RD r := by unfold RING_CFG RING_RD; omega
  have hwrrd : RING_WR r ≠ RING_RD r := by unfold RING_WR RING_RD; omega
  have hbase : ∀ a, a ≠ RING_RD r →
      ((((s.ringOpen r).setRing r { (s.ringOpen r).ring r with returned := 0 }).setReg (RING_RD r)
        (((s.ringOpen r).setRing r { (s.ringOpen r).ring r with returned := 0 }).reg (RING_WR r))).reg a) = s.reg a := by
    intro a ha
    rw [State.reg_setReg_ne _ _ ha, State.reg_setRing, State.reg_ringOpen]
  unfold State.ringEnable
  refine ⟨?_, ?_, ?_, State.fill_ringLevel _ r _ _, ?_⟩
  · rw [State.reg_ringLevel_ne _ r _ _ hcfg.1 hcfg.2, hbase _ hcfgrd]
  · rw [State.reg_ringLevel_ne _ r _ _ hrd.1 hrd.2, State.reg_setReg_self, State.reg_setRing, State.reg_ringOpen]
  · rw [State.reg_ringLevel_ne _ r _ _ hwr.1 hwr.2, hbase _ hwrrd]
  · rw [State.credit_ringLevel, State.ringLog, State.fld, hbase _ hcfgrd, State.ringLog, State.fld]

/-! ### Entries written to the reservoir (R260) -/

/-- The oldest entry in flight is written: it and those that stand behind it leave, and the level of the ring stays. -/
theorem State.entryWritten_shows (s : State) (r : Nat) :
    (∀ a, a ≠ RING_WR r → (s.entryWritten r).reg a = s.reg a) ∧ ((s.entryWritten r).ring r).flushed = (s.ring r).flushed ∧
      ((s.entryWritten r).ring r).inflight.length ≤ (s.ring r).inflight.length - 1 := by
  cases h : (s.ring r).inflight with
  | nil =>
    have he : s.entryWritten r = s := by rw [State.entryWritten, h]
    rw [he]
    rw [h]
    exact ⟨fun _ _ => rfl, rfl, Nat.le_refl _⟩
  | cons x rest =>
    cases x with
    | placed =>
      obtain ⟨-, hreg, hdrop, -, hflushed, -⟩ := s.ringPass_shows r
      have he : s.entryWritten r = s.ringPass r := by rw [State.entryWritten, h]
      have hcount : 1 ≤ placedCount (.placed :: rest) := Nat.succ_le_succ (Nat.zero_le _)
      rw [he, hdrop, h, List.length_drop, List.length_cons]
      exact ⟨hreg, hflushed, by omega⟩
    | entry e =>
      obtain ⟨-, hreg, hdrop, -, hflushed, -⟩ :=
        ((s.resWriteWords (s.entryAt r (s.reg (RING_WR r))) e.toNat 2).setRing r
          { (s.resWriteWords (s.entryAt r (s.reg (RING_WR r))) e.toNat 2).ring r with inflight := .placed :: rest }).ringPass_shows r
      have he : s.entryWritten r = ((s.resWriteWords (s.entryAt r (s.reg (RING_WR r))) e.toNat 2).setRing r
          { (s.resWriteWords (s.entryAt r (s.reg (RING_WR r))) e.toNat 2).ring r with inflight := .placed :: rest }).ringPass r := by
        rw [State.entryWritten, h]
      have hcount : 1 ≤ placedCount (.placed :: rest) := Nat.succ_le_succ (Nat.zero_le _)
      rw [State.ring_setRing_self] at hdrop hflushed
      rw [he, hdrop, hflushed, List.length_drop, List.length_cons]
      exact ⟨fun a ha => (hreg a ha).trans rfl, rfl, by simp only [List.length_cons]; omega⟩

/-- Once every entry in flight is written, none is. -/
theorem State.flushWrites_shows (s : State) (r : Nat) :
    (∀ a, a ≠ RING_WR r → (s.flushWrites r).reg a = s.reg a) ∧ ((s.flushWrites r).ring r).flushed = (s.ring r).flushed ∧
      ((s.flushWrites r).ring r).inflight = [] := by
  have hfold : ∀ (l : List InFlight) (u : State), (u.ring r).inflight.length ≤ l.length →
      (∀ a, a ≠ RING_WR r → (l.foldl (fun s _ => s.entryWritten r) u).reg a = u.reg a) ∧
        ((l.foldl (fun s _ => s.entryWritten r) u).ring r).flushed = (u.ring r).flushed ∧
        ((l.foldl (fun s _ => s.entryWritten r) u).ring r).inflight = [] := by
    intro l
    induction l with
    | nil => exact fun u hu => ⟨fun _ _ => rfl, rfl, List.length_eq_zero_iff.1 (Nat.le_zero.1 hu)⟩
    | cons x l ih =>
      intro u hu
      obtain ⟨hreg, hflushed, hlen⟩ := u.entryWritten_shows r
      rw [List.length_cons] at hu
      obtain ⟨hreg', hflushed', hnone⟩ := ih (u.entryWritten r) (by omega)
      exact ⟨fun a ha => (hreg' a ha).trans (hreg a ha), hflushed'.trans hflushed, hnone⟩
  exact hfold _ s (Nat.le_refl _)

/-- What disabling shows. -/
theorem State.ringDisable_shows (s : State) (r : Nat) :
    (s.ringDisable r).reg (RING_CFG r) = s.reg (RING_CFG r) ∧ (s.ringDisable r).reg (RING_FILL r) = 0 ∧
      (s.ringDisable r).reg (RING_CREDIT r) = 0 ∧
      ((s.ringDisable r).ring r).flushed = (s.ring r).flushed + (s.reg (RING_FILL r)).zeroExtend 64 ∧
      ((s.ringDisable r).ring r).inflight = [] := by
  obtain ⟨hreg, hflushed, hnone⟩ := s.flushWrites_shows r
  have hlike := (s.flushWrites r).ring_ringOpen_like r
  have hcfg := RING_CFG_ne_levels r
  have hne : RING_FILL r ≠ RING_WR r := by unfold RING_FILL RING_WR; omega
  have hcfgwr : RING_CFG r ≠ RING_WR r := by unfold RING_CFG RING_WR; omega
  unfold State.ringDisable
  rw [State.ring_ringLevel, State.ring_setRing_self, State.reg_ringLevel_ne _ r _ _ hcfg.1 hcfg.2, State.reg_setRing, State.reg_ringOpen,
    hreg _ hcfgwr, State.reg_ringOpen, hreg _ hne]
  exact ⟨rfl, State.fill_ringLevel _ r _ _, State.credit_ringLevel _ r _ _, congrArg (· + _) (hlike.flushed.trans hflushed),
    hlike.inflight.trans hnone⟩

/-! ### What the host and the snapshot do (R263, R268) -/

/-- The oldest entry in flight is written with none placed behind it: WR passes it alone. -/
theorem State.entryWritten_alone {s : State} {r : Nat} {e : BitVec 128} {rest : List InFlight}
    (h : (s.ring r).inflight = .entry e :: rest) (hrest : rest.head? ≠ some .placed) :
    ((s.entryWritten r).ring r).inflight = rest ∧ (s.entryWritten r).reg (RING_WR r) = s.reg (RING_WR r) + 1 ∧
      (s.entryWritten r).reservoir = Memory.write s.reservoir (s.entryAt r (s.reg (RING_WR r))) e.toNat 16 := by
  have he : s.entryWritten r = ((s.resWriteWords (s.entryAt r (s.reg (RING_WR r))) e.toNat 2).setRing r
      { (s.resWriteWords (s.entryAt r (s.reg (RING_WR r))) e.toNat 2).ring r with inflight := .placed :: rest }).ringPass r := by
    rw [State.entryWritten, h]
  have hcount : placedCount (.placed :: rest) = 1 := by
    cases rest with
    | nil => rfl
    | cons x l =>
      cases x with
      | placed => exact absurd rfl hrest
      | entry e => rfl
  obtain ⟨hwr, -, hdrop, -, -, hres⟩ := ((s.resWriteWords (s.entryAt r (s.reg (RING_WR r))) e.toNat 2).setRing r
    { (s.resWriteWords (s.entryAt r (s.reg (RING_WR r))) e.toNat 2).ring r with inflight := .placed :: rest }).ringPass_shows r
  rw [State.ring_setRing_self, hcount] at hwr hdrop
  rw [he, hwr, hdrop, hres]
  exact ⟨rfl, rfl, rfl⟩

section
variable {s : State} {r : Nat} {v : Word}

theorem State.hostCommit_offers (hn : bitsOf v 16 0 ≠ 0) (hc : s.commitRefused r (bitsOf v 16 0) = false) :
    s.hostCommit r v = s.ringGather r rankHost (.commit (bitsOf v 16 0)) := by
  have hfree : ¬ s.commitRefused r (bitsOf v 16 0) = true := by simp [hc]
  rw [State.hostCommit, if_neg hn, if_neg hfree]

theorem State.hostCommit_refused (hn : bitsOf v 16 0 ≠ 0)
    (h : s.ringCreditNow r < bitsOf v 16 0 ∨ s.ringProd r ≠ 0x20 ∨ s.ringEn r = false) : s.hostCommit r v = s.raise (RING_STATUS r) 2 := by
  have hc : s.commitRefused r (bitsOf v 16 0) = true := by
    rw [State.commitRefused]
    rcases h with h | h | h <;> simp [h]
  rw [State.hostCommit, if_neg hn, if_pos hc]

theorem State.hostRelease_takes (hn : bitsOf v 16 0 ≠ 0) (hv : bitsOf v 16 0 ≤ s.ringVisible r) (hc : s.ringCons r = 0x20)
    (hen : s.ringEn r = true) :
    s.hostRelease r v = (s.ringRetire r (bitsOf v 16 0)).setRing r { (s.ringRetire r (bitsOf v 16 0)).ring r with
      consumed := ((s.ringRetire r (bitsOf v 16 0)).ring r).consumed + BitVec.ofNat 64 (bitsOf v 16 0) } := by
  have hopen : ¬ (decide (s.ringVisible r < bitsOf v 16 0) || s.ringCons r != 0x20 || !s.ringEn r) = true := by simp [hv, hc, hen]
  rw [State.hostRelease, if_neg hn, if_neg hopen]

theorem State.hostRelease_refused (hn : bitsOf v 16 0 ≠ 0)
    (h : s.ringVisible r < bitsOf v 16 0 ∨ s.ringCons r ≠ 0x20 ∨ s.ringEn r = false) :
    s.hostRelease r v = s.raise (RING_STATUS r) 3 := by
  have hclosed : (decide (s.ringVisible r < bitsOf v 16 0) || s.ringCons r != 0x20 || !s.ringEn r) = true := by
    rcases h with h | h | h <;> simp [h]
  rw [State.hostRelease, if_neg hn, if_pos hclosed]

theorem State.commitRefused_eq_false {n : Nat} (h : s.commitRefused r n = false) : n ≤ (s.reg (RING_CREDIT r)).toNat := by
  simp only [State.commitRefused, Bool.or_eq_false_iff, decide_eq_false_iff_not] at h
  have hnow : s.ringCreditNow r ≤ (s.reg (RING_CREDIT r)).toNat := Nat.sub_le _ _
  omega

/-- A commit that is served within the credit. -/
theorem State.serveOffer_commit {n : Nat} (h : s.commitRefused r n = false) :
    s.serveOffer r (.commit n) = s.ringAdmit r (List.replicate n .placed) := by
  have hfree : ¬ s.commitRefused r n = true := by simp [h]
  exact if_neg hfree

end

/-! ### What a ring shows a push or a pop -/

/-- `u` shows ring `r` as `s` does: its registers, what it holds and the machine time. -/
structure State.SameRing (s u : State) (r : Nat) : Prop where
  ring : u.ring r = s.ring r
  mt : u.mt = s.mt
  reg : ∀ a, RING_CFG r ≤ a → a < RING_CFG r + 0x40 → u.reg a = s.reg a

namespace State.SameRing

variable {s u : State} {r : Nat} (h : s.SameRing u r)
include h

theorem cfg : u.reg (RING_CFG r) = s.reg (RING_CFG r) := h.reg _ (Nat.le_refl _) (by omega)
theorem base : u.reg (RING_BASE r) = s.reg (RING_BASE r) := h.reg _ (by unfold RING_CFG RING_BASE; omega) (by unfold RING_CFG RING_BASE; omega)
theorem wr : u.reg (RING_WR r) = s.reg (RING_WR r) := h.reg _ (by unfold RING_CFG RING_WR; omega) (by unfold RING_CFG RING_WR; omega)
theorem rd : u.reg (RING_RD r) = s.reg (RING_RD r) := h.reg _ (by unfold RING_CFG RING_RD; omega) (by unfold RING_CFG RING_RD; omega)
theorem credit : u.reg (RING_CREDIT r) = s.reg (RING_CREDIT r) :=
  h.reg _ (by unfold RING_CFG RING_CREDIT; omega) (by unfold RING_CFG RING_CREDIT; omega)

theorem en : u.ringEn r = s.ringEn r := by rw [State.ringEn, State.bit, h.cfg, State.ringEn, State.bit]
theorem prod : u.ringProd r = s.ringProd r := by rw [State.ringProd, State.fld, h.cfg, State.ringProd, State.fld]
theorem cons : u.ringCons r = s.ringCons r := by rw [State.ringCons, State.fld, h.cfg, State.ringCons, State.fld]
theorem log : u.ringLog r = s.ringLog r := by rw [State.ringLog, State.fld, h.cfg, State.ringLog, State.fld]

theorem changed : u.ringChanged r = s.ringChanged r := by
  rw [State.ringChanged, h.ring, State.bclk, h.mt, State.ringChanged, State.bclk]

theorem creditNow : u.ringCreditNow r = s.ringCreditNow r := by
  rw [State.ringCreditNow, h.credit, h.changed, h.ring, State.ringCreditNow]

theorem visible : u.ringVisible r = s.ringVisible r := by
  rw [State.ringVisible, State.ringWr0, State.ringRd0, h.changed, h.ring, h.wr, h.rd, State.ringVisible, State.ringWr0, State.ringRd0]

theorem entryAt (i : Word) : u.entryAt r i = s.entryAt r i := by
  rw [State.entryAt, State.ringBase, State.ringBytes, State.fld, h.log, h.base, State.entryAt, State.ringBase, State.ringBytes, State.fld]

end State.SameRing

/-- A write of a register outside the ring's block leaves the ring. -/
theorem State.sameRing_setReg (s : State) {r a : Nat} (v : Word) (ha : a < RING_CFG r ∨ RING_CFG r + 0x40 ≤ a) :
    s.SameRing (s.setReg a v) r :=
  ⟨rfl, rfl, fun b hlo hhi => s.reg_setReg_ne v (by omega)⟩

/-- The state of a write of XFER_CTRL before its transfer. -/
def State.xferNamed (s : State) (v : Word) : State := s.setReg XFER_CTRL (v &&& 0x3F#32)

section
variable {s : State} {v : Word}

theorem State.xferWrite_both (hpush : v.getLsbD 8 = true) (hpop : v.getLsbD 9 = true) :
    s.xferWrite v = (s.xferNamed v).setReg XFER_STATUS 0xC#32 := by
  have hboth : (bitOf v 8 && bitOf v 9) = true := by simp [bitOf, hpush, hpop]
  rw [State.xferWrite, if_pos hboth]
  rfl

theorem State.xferWrite_push (hpush : v.getLsbD 8 = true) (hpop : v.getLsbD 9 = false)
    (hr : bitsOf v 5 0 < (s.xferNamed v).fld ID_QUEUE 15 8) (hst : (s.xferNamed v).pushStatus (bitsOf v 5 0) 0x20 = 0) :
    s.xferWrite v =
      ((s.xferNamed v).ringGather (bitsOf v 5 0) rankHost (.xfer (s.xferNamed v).hostEntry)).setReg XFER_STATUS 0 := by
  have hboth : ¬ (bitOf v 8 && bitOf v 9) = true := by rw [bitOf, bitOf, hpop, Bool.and_false]; decide
  have h8 : bitOf v 8 = true := hpush
  rw [State.xferNamed] at hr hst
  rw [State.xferWrite, if_neg hboth, if_pos h8, if_neg (Nat.not_le.2 hr)]
  dsimp only
  rw [hst, if_pos rfl]
  rfl

theorem State.xferWrite_pop {r : Nat} {e : BitVec 128} {u : State} (hpush : v.getLsbD 8 = false) (hpop : v.getLsbD 9 = true)
    (hrv : bitsOf v 5 0 = r) (hr : r < (s.xferNamed v).fld ID_QUEUE 15 8) (htake : (s.xferNamed v).ringPop r 0x20 = (0, some e, u)) :
    s.xferWrite v = (u.setHostEntry e).setReg XFER_STATUS 0 := by
  have hboth : ¬ (bitOf v 8 && bitOf v 9) = true := by rw [bitOf, bitOf, hpush, Bool.false_and]; decide
  have h8 : ¬ bitOf v 8 = true := by rw [bitOf, hpush]; decide
  have h9 : bitOf v 9 = true := hpop
  subst hrv
  rw [State.xferNamed] at hr htake
  rw [State.xferWrite, if_neg hboth, if_neg h8, if_pos h9, if_neg (Nat.not_le.2 hr), htake]
  rfl

end

/-- The words of an entry, put together, are the entry. -/
theorem entry_of_words (e : BitVec 128) :
    (e >>> 96).truncate 32 ++ (e >>> 64).truncate 32 ++ (e >>> 32).truncate 32 ++ (e >>> 0).truncate 32 = e := by
  apply BitVec.eq_of_getLsbD_eq
  intro i hi
  simp only [BitVec.getLsbD_append, BitVec.truncate_eq_setWidth, BitVec.getLsbD_setWidth, BitVec.getLsbD_ushiftRight]
  by_cases h0 : i < 32
  · simp [h0]
  by_cases h1 : i < 64
  · have hi1 : i - 32 < 32 := by omega
    simp [h0, hi1, show 32 + (i - 32) = i by omega]
  by_cases h2 : i < 96
  · have hi2 : i - 32 - 32 < 32 := by omega
    simp [h0, show ¬ i - 32 < 32 by omega, hi2, show 64 + (i - 32 - 32) = i by omega]
  · simp [h0, show ¬ i - 32 < 32 by omega, show ¬ i - 32 - 32 < 32 by omega, show i - 32 - 32 - 32 < 32 by omega,
      show 96 + (i - 32 - 32 - 32) = i by omega]

theorem HOST_ENTRY_ne {i j : Nat} (h : i ≠ j) : HOST_ENTRY i ≠ HOST_ENTRY j := by unfold HOST_ENTRY; omega

@[simp] theorem State.hwUpdate_rings (s : State) (a : Nat) (v : Word) : (s.hwUpdate a v).rings = s.rings := by rw [s.hwUpdate_eq]

@[simp] theorem State.hwUpdate_written (s : State) (a : Nat) (v : Word) : (s.hwUpdate a v).written = s.written := by rw [s.hwUpdate_eq]

/-- HOST_ENTRY takes an entry when the host has written none of its words in the tick; nothing else but the updates noted changes. -/
theorem State.setHostEntry_shows (s : State) (e : BitVec 128) (hw : ∀ i : Nat, i < 4 → s.written.contains (HOST_ENTRY i) = false) :
    (s.setHostEntry e).hostEntry = e ∧ (s.setHostEntry e).rings = s.rings ∧
      ∀ a, (∀ i : Nat, i < 4 → a ≠ HOST_ENTRY i) → (s.setHostEntry e).reg a = s.reg a := by
  have h0 := hw 0 (by decide)
  have h1 := hw 1 (by decide)
  have h2 := hw 2 (by decide)
  have h3 := hw 3 (by decide)
  have hset : s.setHostEntry e = (((s.hwUpdate (HOST_ENTRY 0) ((e >>> 0).truncate 32)).hwUpdate (HOST_ENTRY 1)
      ((e >>> 32).truncate 32)).hwUpdate (HOST_ENTRY 2) ((e >>> 64).truncate 32)).hwUpdate (HOST_ENTRY 3) ((e >>> 96).truncate 32) := rfl
  refine ⟨?_, ?_, fun a ha => ?_⟩
  · rw [hset, State.hostEntry, State.reg_hwUpdate_self _ _ (by simpa only [State.hwUpdate_written] using h3),
      State.reg_hwUpdate_ne _ _ (HOST_ENTRY_ne (by decide)), State.reg_hwUpdate_self _ _ (by simpa only [State.hwUpdate_written] using h2),
      State.reg_hwUpdate_ne _ _ (HOST_ENTRY_ne (by decide)), State.reg_hwUpdate_ne _ _ (HOST_ENTRY_ne (by decide)),
      State.reg_hwUpdate_self _ _ (by simpa only [State.hwUpdate_written] using h1), State.reg_hwUpdate_ne _ _ (HOST_ENTRY_ne (by decide)),
      State.reg_hwUpdate_ne _ _ (HOST_ENTRY_ne (by decide)), State.reg_hwUpdate_ne _ _ (HOST_ENTRY_ne (by decide)),
      State.reg_hwUpdate_self _ _ h0]
    exact entry_of_words e
  · rw [hset, State.hwUpdate_rings, State.hwUpdate_rings, State.hwUpdate_rings, State.hwUpdate_rings]
  · rw [hset, State.reg_hwUpdate_ne _ _ (ha 3 (by decide)), State.reg_hwUpdate_ne _ _ (ha 2 (by decide)),
      State.reg_hwUpdate_ne _ _ (ha 1 (by decide)), State.reg_hwUpdate_ne _ _ (ha 0 (by decide))]

/-- The words of HOST_ENTRY lie between those of a ring and XFER_CTRL. -/
theorem HOST_ENTRY_ne_XFER (i : Nat) (h : i < 4) : HOST_ENTRY i ≠ XFER_CTRL ∧ HOST_ENTRY i ≠ XFER_STATUS := by
  unfold HOST_ENTRY XFER_CTRL XFER_STATUS; omega

/-! ### The snapshot of a ring (R268) -/

/-- The capture of a ring waits for the end of the BCLK cycle. -/
theorem State.runTakes_ring {s : State} {r : Nat} (ht : s.takes = [.ring r]) :
    s.runTakes = if s.mt.getLsbD 0 then ({ s with takes := [] } : State).takeRing r else s := by
  have hs : ({ s with takes := [.ring r] } : State) = s := by rw [← ht]
  cases hm : s.mt.getLsbD 0 with
  | true =>
    simp only [State.runTakes, ht, Take.late, hm]
    rfl
  | false =>
    simp only [State.runTakes, ht, Take.late, hm]
    exact hs

/-- The counters of a ring in the snapshot registers. -/
def State.layRing (s : State) (q : RingState) : State :=
  ((((((s.setPair SNAP_OFFERED_LO SNAP_OFFERED_HI q.offered).setPair SNAP_ADMITTED_LO SNAP_ADMITTED_HI q.admitted).setPair
    SNAP_CONSUMED_LO SNAP_CONSUMED_HI q.consumed).setPair SNAP_SPILL_CREDIT_LO SNAP_SPILL_CREDIT_HI q.spillCredit).setPair
    RSNAP_SNAP_SPILL_CLOSED_LO RSNAP_SNAP_SPILL_CLOSED_HI q.spillClosed).setPair SNAP_FLUSHED_LO SNAP_FLUSHED_HI q.flushed).setPair
    SNAP_SPILL_UE_LO SNAP_SPILL_UE_HI q.spillUe

/-- What a snapshot writes after the counters: FILL, the machine time, and RING_SNAP_SEQ one up. -/
def State.layFill (s : State) (fill : Word) (mt : Tick) : State :=
  let u := (s.setReg SNAP_FILL fill).setPair RSNAP_SNAP_MT_LO RSNAP_SNAP_MT_HI mt
  u.setFld RING_SNAP_SEQ 15 0 (u.fld RING_SNAP_SEQ 15 0 + 1)

theorem State.mt_layRing (s : State) (q : RingState) : (s.layRing q).mt = s.mt := by
  rw [State.layRing]
  iterate 7 rw [State.setPair_mt]

theorem State.rings_layRing (s : State) (q : RingState) : (s.layRing q).rings = s.rings := by
  rw [State.layRing]
  iterate 7 rw [State.setPair_rings]

theorem State.reg_layRing_ne (s : State) (q : RingState) {a : Nat} (h : a < 0x43010 ∨ 0x43047 < a) : (s.layRing q).reg a = s.reg a := by
  simp (disch := omega) only [State.layRing, State.reg_setPair_ne, SNAP_OFFERED_LO, SNAP_OFFERED_HI, SNAP_ADMITTED_LO, SNAP_ADMITTED_HI,
    SNAP_CONSUMED_LO, SNAP_CONSUMED_HI, SNAP_SPILL_CREDIT_LO, SNAP_SPILL_CREDIT_HI, RSNAP_SNAP_SPILL_CLOSED_LO,
    RSNAP_SNAP_SPILL_CLOSED_HI, SNAP_FLUSHED_LO, SNAP_FLUSHED_HI, SNAP_SPILL_UE_LO, SNAP_SPILL_UE_HI]

theorem State.takeRing_eq (s : State) (r : Fin 64) : s.takeRing r = (s.layRing (s.ring r)).layFill (s.reg (RING_FILL r)) s.mt := by
  have hfill : (s.layRing (s.ring r)).reg (RING_FILL r) = s.reg (RING_FILL r) :=
    s.reg_layRing_ne _ (Or.inl (by unfold RING_FILL; omega))
  unfold State.takeRing
  dsimp only
  rw [← State.layRing, State.setReg_mt, s.mt_layRing, hfill]
  rfl

theorem State.layFill_shows (s : State) (q : RingState) (fill : Word) (mt : Tick) :
    let t := (s.layRing q).layFill fill mt
    t.pair SNAP_OFFERED_LO SNAP_OFFERED_HI = q.offered ∧ t.pair SNAP_CONSUMED_LO SNAP_CONSUMED_HI = q.consumed ∧
      t.pair SNAP_FLUSHED_LO SNAP_FLUSHED_HI = q.flushed ∧ t.pair RSNAP_SNAP_MT_LO RSNAP_SNAP_MT_HI = mt ∧ t.reg SNAP_FILL = fill := by
  refine ⟨?_, ?_, ?_, ?_, ?_⟩ <;>
    simp (disch := omega) only [State.layRing, State.layFill, State.setFld, State.pair_setReg_ne, State.pair_setPair_ne,
      State.pair_setPair_self, State.reg_setPair_ne, State.reg_setReg_ne, State.reg_setReg_self, SNAP_OFFERED_LO, SNAP_OFFERED_HI,
      SNAP_ADMITTED_LO, SNAP_ADMITTED_HI, SNAP_CONSUMED_LO, SNAP_CONSUMED_HI, SNAP_SPILL_CREDIT_LO, SNAP_SPILL_CREDIT_HI,
      RSNAP_SNAP_SPILL_CLOSED_LO, RSNAP_SNAP_SPILL_CLOSED_HI, SNAP_FLUSHED_LO, SNAP_FLUSHED_HI, SNAP_SPILL_UE_LO, SNAP_SPILL_UE_HI,
      SNAP_FILL, RSNAP_SNAP_MT_LO, RSNAP_SNAP_MT_HI, RING_SNAP_SEQ]

theorem State.seq_layFill (s : State) (q : RingState) (fill : Word) (mt : Tick) :
    ((s.layRing q).layFill fill mt).fld RING_SNAP_SEQ 15 0 = (s.fld RING_SNAP_SEQ 15 0 + 1) % 65536 := by
  have hkept : (((s.layRing q).setReg SNAP_FILL fill).setPair RSNAP_SNAP_MT_LO RSNAP_SNAP_MT_HI mt).reg RING_SNAP_SEQ =
      s.reg RING_SNAP_SEQ := by
    rw [State.reg_setPair_ne _ _ (by decide) (by decide), State.reg_setReg_ne _ _ (by decide), s.reg_layRing_ne q (Or.inl (by decide))]
  rw [State.layFill, State.fld_setFld_self _ _ _ _ _ (by decide), State.fld, hkept, State.fld]
  rfl

theorem State.rings_layFill (s : State) (fill : Word) (mt : Tick) : (s.layFill fill mt).rings = s.rings := by
  rw [State.layFill, State.setFld_rings, State.setPair_rings, State.setReg_rings]

end Sys2Proof.Machine

namespace Sys2Proof.Proofs

open Sys2Proof.Machine Sys2Proof.Machine.Reg

/-- A write that enables a ring gives it full credit and no entry (R257). -/
theorem ringCfgWrite_enables (r : Fin 64) (v : Word) (s : State) (ha : s.accepts (RING_CFG r) v) (hen : s.ringEn r = false)
    (hv : v.getLsbD 0 = true) (hsame : (s.reg (RING_CFG r) ^^^ v) &&& 0xFFF11F00#32 = 0) (hlo : 4 ≤ bitsOf v 12 8)
    (hhi : bitsOf v 12 8 ≤ 16) (hcons : agentCode (bitsOf v 31 26) ≠ 0x3F) :
    ∃ t, exec (.ringCfgWrite r false v) s = .next t ∧ t.ringEn r = true ∧ t.reg (RING_RD r) = s.reg (RING_WR r) ∧
      t.reg (RING_WR r) = s.reg (RING_WR r) ∧ t.reg (RING_FILL r) = 0 ∧ (t.reg (RING_CREDIT r)).toNat = 2 ^ bitsOf v 12 8 := by
  have hwr : RING_WR r ≠ RING_CFG r := by unfold RING_WR RING_CFG; omega
  have hlog : ((s.noteHost (RING_CFG r)).setReg (RING_CFG r) (ringCfgWord (s.reg (RING_CFG r)) v)).ringLog r = bitsOf v 12 8 := by
    rw [State.ringLog, State.fld, State.reg_setReg_self, log_ringCfgWord]
  have hsize : 2 ^ bitsOf v 12 8 < 2 ^ 32 := Nat.pow_lt_pow_right (by decide) (by omega)
  obtain ⟨hcfg, hrd, hwr', hfill, hcredit⟩ :=
    ((s.noteHost (RING_CFG r)).setReg (RING_CFG r) (ringCfgWord (s.reg (RING_CFG r)) v)).ringEnable_shows r
  refine ⟨_, exec_ringCfgWrite ha, ?_⟩
  rw [State.ringCfg_enables (s := s.noteHost (RING_CFG r)) hen hv hsame hlo hhi hcons, State.reg_noteHost, hrd, hwr', hfill, hcredit, hlog,
    State.reg_setReg_ne _ _ hwr, State.reg_noteHost, State.ringEn, State.bit, hcfg, State.reg_setReg_self, BitVec.toNat_ofNat,
    Nat.mod_eq_of_lt hsize]
  exact ⟨(bit0_ringCfgWord _ v).trans hv, rfl, rfl, rfl, rfl⟩

/-- A write that disables a ring discards its entries as FLUSHED (R261, R266). -/
theorem ringCfgWrite_disables (r : Fin 64) (v : Word) (s : State) (ha : s.accepts (RING_CFG r) v) (hen : s.ringEn r = true)
    (hv : v.getLsbD 0 = false) (hsame : (s.reg (RING_CFG r) ^^^ v) &&& 0xFFF11F00#32 = 0) :
    ∃ t, exec (.ringCfgWrite r false v) s = .next t ∧ t.ringEn r = false ∧ t.reg (RING_FILL r) = 0 ∧ t.reg (RING_CREDIT r) = 0 ∧
      (t.ring r).flushed = (s.ring r).flushed + (s.reg (RING_FILL r)).zeroExtend 64 ∧ (t.ring r).inflight = [] := by
  have hfillne : RING_FILL r ≠ RING_CFG r := by unfold RING_FILL RING_CFG; omega
  obtain ⟨hcfg, hfill, hcredit, hflushed, hnone⟩ :=
    ((s.noteHost (RING_CFG r)).setReg (RING_CFG r) (ringCfgWord (s.reg (RING_CFG r)) v)).ringDisable_shows r
  refine ⟨_, exec_ringCfgWrite ha, ?_⟩
  rw [State.ringCfg_disables (s := s.noteHost (RING_CFG r)) hen hv hsame, State.reg_noteHost, hfill, hcredit, hflushed, hnone,
    State.reg_setReg_ne _ _ hfillne, State.reg_noteHost, State.ringEn, State.bit, hcfg, State.reg_setReg_self]
  exact ⟨(bit0_ringCfgWord _ v).trans hv, rfl, rfl, rfl, rfl⟩

theorem ringCfgWrite_base (r : Fin 64) (v : Word) (s : State) (ha : s.accepts (RING_BASE r) v) (hen : s.ringEn r = false) :
    exec (.ringCfgWrite r true v) s = .next ((s.noteHost (RING_BASE r)).setReg (RING_BASE r) (v &&& 0xFFFFFF#32)) := by
  have hoff : (!(s.noteHost (RING_BASE r)).ringEn r) = true := by rw [State.ringEn, State.bit_noteHost, ← State.ringEn, hen]; rfl
  rw [exec_ringBaseWrite ha, State.ringCfgWrite, if_pos rfl, if_pos hoff]

theorem ringCfgWrite_base_enabled (r : Fin 64) (v : Word) (s : State) (ha : s.accepts (RING_BASE r) v) (hen : s.ringEn r = true) :
    exec (.ringCfgWrite r true v) s = .next (
      if bitsOf v 23 0 / s.ringBytes r * s.ringBytes r = s.ringBase r then s.noteHost (RING_BASE r)
      else (s.noteHost (RING_BASE r)).raise (RING_STATUS r) 1) := by
  have hon : ¬ (!(s.noteHost (RING_BASE r)).ringEn r) = true := by
    rw [State.ringEn, State.bit_noteHost, ← State.ringEn, hen]; decide
  rw [exec_ringBaseWrite ha, State.ringCfgWrite, if_pos rfl, if_neg hon]
  rfl

/-- An entry that is written stands at its place, and nothing else of the reservoir changes (R260). -/
theorem ringEntryWritten_places (r : Fin 64) (s : State) (e : BitVec 128) (rest : List InFlight) (hc : s.clocked)
    (h : (s.ring r).inflight = .entry e :: rest) (hrest : rest.head? ≠ some .placed) :
    ∃ t, exec (.ringEntryWritten r) s = .next t ∧ (t.ring r).inflight = rest ∧ t.reg (RING_WR r) = s.reg (RING_WR r) + 1 ∧
      t.resRead (s.entryAt r (s.reg (RING_WR r))) 16 = e.toNat ∧
      ∀ a, a < s.entryAt r (s.reg (RING_WR r)) ∨ s.entryAt r (s.reg (RING_WR r)) + 16 ≤ a →
        Memory.byte t.reservoir a = Memory.byte s.reservoir a := by
  obtain ⟨hinflight, hwr, hres⟩ := State.entryWritten_alone h hrest
  have hexec : exec (.ringEntryWritten r) s = .next (s.entryWritten r) := congrArg Host.Outcome.next (s.onTclk_clocked _ hc)
  refine ⟨_, hexec, hinflight, hwr, ?_, fun a ha => ?_⟩
  · rw [State.resRead, hres, Memory.read_write_self]
    exact Nat.mod_eq_of_lt e.isLt
  · rw [hres, Memory.byte_write_outside _ _ _ _ _ ha]

/-- A commit that is served takes its entries into the ring, all of them placed already (R262, R263). -/
theorem serveOffer_commits (r : Fin 64) (n : Nat) (s : State) (hc : s.commitRefused r n = false) (hnone : (s.ring r).inflight = []) :
    let t := s.serveOffer r (.commit n)
    t.reg (RING_WR r) = s.reg (RING_WR r) + BitVec.ofNat 32 n ∧ t.reg (RING_CREDIT r) = s.reg (RING_CREDIT r) - BitVec.ofNat 32 n ∧
      t.reg (RING_FILL r) = s.reg (RING_FILL r) + BitVec.ofNat 32 n ∧
      (t.ring r).admitted = (s.ring r).admitted + BitVec.ofNat 64 n := by
  intro t
  have hn := State.commitRefused_eq_false hc
  obtain ⟨hwr, hfill, hcredit, -, hadmitted⟩ := s.ringAdmit_shows r (List.replicate n .placed)
  rw [hnone, List.nil_append, placedCount_replicate] at hwr
  rw [List.length_replicate] at hfill hcredit hadmitted
  have ht : t = s.ringAdmit r (List.replicate n .placed) := State.serveOffer_commit hc
  rw [ht, hwr, hfill, hcredit, hadmitted]
  refine ⟨rfl, ?_, ?_, rfl⟩
  · bv_omega
  · bv_omega

theorem hostRelease_releases (r : Fin 64) (v : Word) (s : State) (ha : s.accepts (HOST_RELEASE r) v) (hn : bitsOf v 16 0 ≠ 0)
    (hv : bitsOf v 16 0 ≤ s.ringVisible r) (hcons : s.ringCons r = 0x20) (hen : s.ringEn r = true) :
    ∃ t, exec (.hostRelease r v) s = .next t ∧ t.reg (RING_RD r) = s.reg (RING_RD r) + BitVec.ofNat 32 (bitsOf v 16 0) ∧
      t.reg (RING_CREDIT r) = s.reg (RING_CREDIT r) + BitVec.ofNat 32 (bitsOf v 16 0) ∧
      (t.ring r).consumed = (s.ring r).consumed + BitVec.ofNat 64 (bitsOf v 16 0) := by
  obtain ⟨hrd, hcredit, hconsumed, -⟩ := (s.noteHost (HOST_RELEASE r)).ringRetire_shows r (bitsOf v 16 0)
  refine ⟨_, congrArg Host.Outcome.next ((s.hostWrite_accepts _ ha).trans (State.hostRelease_takes hn hv hcons hen)), ?_⟩
  rw [State.reg_setRing, State.reg_setRing, State.ring_setRing_self, hrd, hcredit, hconsumed, State.reg_noteHost, State.reg_noteHost]
  refine ⟨rfl, ?_, rfl⟩
  bv_omega

/-- An accepted push of the host joins the offers of the cycle (R262, R263). -/
theorem xferPush_offers (v : Word) (s : State) (ha : s.accepts XFER_CTRL v) (hpush : v.getLsbD 8 = true) (hpop : v.getLsbD 9 = false)
    (hr : bitsOf v 5 0 < s.fld ID_QUEUE 15 8) (hen : s.ringEn (bitsOf v 5 0) = true) (hprod : s.ringProd (bitsOf v 5 0) = 0x20)
    (hcredit : s.ringCreditNow (bitsOf v 5 0) ≠ 0) :
    ∃ t, exec (.xferPush v) s = .next t ∧ t.reg XFER_STATUS = 0 ∧
      (rankHost, Offer.xfer s.hostEntry) ∈ (t.ring (bitsOf v 5 0)).offers ∧
      t.reg (RING_CREDIT (bitsOf v 5 0)) = s.reg (RING_CREDIT (bitsOf v 5 0)) := by
  have hr64 : bitsOf v 5 0 < 64 := bitsOf_lt v 5 0
  have hfar : RING_CFG (bitsOf v 5 0) + 0x40 ≤ XFER_CTRL := by unfold RING_CFG XFER_CTRL; omega
  have hcreditne : RING_CREDIT (bitsOf v 5 0) ≠ XFER_CTRL ∧ RING_CREDIT (bitsOf v 5 0) ≠ XFER_STATUS := by
    unfold RING_CREDIT XFER_CTRL XFER_STATUS; omega
  have hsame : (s.noteHost XFER_CTRL).SameRing ((s.noteHost XFER_CTRL).xferNamed v) (bitsOf v 5 0) :=
    (s.noteHost XFER_CTRL).sameRing_setReg _ (Or.inr hfar)
  have hid : ((s.noteHost XFER_CTRL).xferNamed v).fld ID_QUEUE 15 8 = s.fld ID_QUEUE 15 8 := by
    rw [State.xferNamed, State.fld, State.reg_setReg_ne _ _ (by decide), State.reg_noteHost, State.fld]
  have hst : ((s.noteHost XFER_CTRL).xferNamed v).pushStatus (bitsOf v 5 0) 0x20 = 0 :=
    State.pushStatus_credit (hsame.en.trans hen) (hsame.prod.trans hprod) (hsame.creditNow.trans_ne hcredit)
  have hentry : ((s.noteHost XFER_CTRL).xferNamed v).hostEntry = s.hostEntry := by
    simp (disch := decide) only [State.hostEntry, State.xferNamed, State.reg_setReg_ne, State.reg_noteHost]
  have hwrite := (s.hostWrite_accepts (fun s => s.xferWrite v) ha).trans (State.xferWrite_push hpush hpop (hid.symm ▸ hr) hst)
  obtain ⟨hoffer, -, hreg⟩ :=
    ((s.noteHost XFER_CTRL).xferNamed v).ringGather_shows (bitsOf v 5 0) rankHost (.xfer ((s.noteHost XFER_CTRL).xferNamed v).hostEntry)
  refine ⟨_, congrArg Host.Outcome.next hwrite, State.reg_setReg_self _ _ _, ?_, ?_⟩
  · rw [State.ring_setReg, ← hentry]
    exact hoffer
  · rw [State.reg_setReg_ne _ _ hcreditne.2, hreg, State.xferNamed, State.reg_setReg_ne _ _ hcreditne.1, State.reg_noteHost]

/-- A push that is served enters the ring, or leaves NO_CREDIT. -/
theorem serveOffer_xfer (r : Fin 64) (e : BitVec 128) (s : State) (hnone : (s.ring r).inflight = []) :
    let t := s.serveOffer r (.xfer e)
    (s.pushStatus r 0x20 = 0 → (t.ring r).inflight = [.entry e] ∧ (t.ring r).admitted = (s.ring r).admitted + 1) ∧
    (s.pushStatus r 0x20 = 9 → t = s.setReg XFER_STATUS 9) := by
  refine ⟨fun hst => ?_, fun hst => ?_⟩
  · have ht : s.serveOffer r (.xfer e) = s.ringAdmit r [.entry e] := by
      rw [State.serveOffer, hst]
      rfl
    rw [ht]
    exact State.ringAdmit_one e hnone
  · rw [State.serveOffer, hst]
    rfl

/-- A pop of the host takes the entry at RD into HOST_ENTRY (R263). -/
theorem xferPop_takes (v : Word) (s : State) (ha : s.accepts XFER_CTRL v) (hpush : v.getLsbD 8 = false) (hpop : v.getLsbD 9 = true)
    (hr : bitsOf v 5 0 < s.fld ID_QUEUE 15 8) (hen : s.ringEn (bitsOf v 5 0) = true) (hcons : s.ringCons (bitsOf v 5 0) = 0x20)
    (hvis : s.ringVisible (bitsOf v 5 0) ≠ 0)
    (hsound : s.resPoisoned (s.entryAt (bitsOf v 5 0) (s.reg (RING_RD (bitsOf v 5 0)))) 16 = false)
    (hfree : ∀ i : Nat, i < 4 → s.written.contains (HOST_ENTRY i) = false) :
    ∃ t, exec (.xferPop v) s = .next t ∧ t.reg XFER_STATUS = 0 ∧
      t.hostEntry = BitVec.ofNat 128 (s.resRead (s.entryAt (bitsOf v 5 0) (s.reg (RING_RD (bitsOf v 5 0)))) 16) ∧
      t.reg (RING_RD (bitsOf v 5 0)) = s.reg (RING_RD (bitsOf v 5 0)) + 1 ∧
      (t.ring (bitsOf v 5 0)).consumed = (s.ring (bitsOf v 5 0)).consumed + 1 := by
  have hr64 : bitsOf v 5 0 < 64 := bitsOf_lt v 5 0
  generalize hrdef : bitsOf v 5 0 = r at *
  have hfar : RING_CFG r + 0x40 ≤ XFER_CTRL := by unfold RING_CFG XFER_CTRL; omega
  have hrdne : RING_RD r ≠ XFER_STATUS := by unfold RING_RD XFER_STATUS; omega
  have hrdentry : ∀ i : Nat, i < 4 → RING_RD r ≠ HOST_ENTRY i := by unfold RING_RD HOST_ENTRY; omega
  have hsame : (s.noteHost XFER_CTRL).SameRing ((s.noteHost XFER_CTRL).xferNamed v) r :=
    (s.noteHost XFER_CTRL).sameRing_setReg _ (Or.inr hfar)
  have hid : ((s.noteHost XFER_CTRL).xferNamed v).fld ID_QUEUE 15 8 = s.fld ID_QUEUE 15 8 := by
    rw [State.xferNamed, State.fld, State.reg_setReg_ne _ _ (by decide), State.reg_noteHost, State.fld]
  have hat : ((s.noteHost XFER_CTRL).xferNamed v).entryAt r (((s.noteHost XFER_CTRL).xferNamed v).reg (RING_RD r)) =
      s.entryAt r (s.reg (RING_RD r)) := (hsame.entryAt _).trans (congrArg (s.entryAt r) hsame.rd)
  have hpop' := State.ringPop_sound (s := (s.noteHost XFER_CTRL).xferNamed v) (a := 0x20) (hsame.en.trans hen) (hsame.cons.trans hcons) (hsame.visible.trans_ne hvis)
    (hat.symm ▸ hsound)
  rw [hat] at hpop'
  have hwrite := (s.hostWrite_accepts (fun s => s.xferWrite v) ha).trans
    (State.xferWrite_pop hpush hpop hrdef (hid.symm ▸ hr) hpop')
  obtain ⟨hrd, hconsumed⟩ := ((s.noteHost XFER_CTRL).xferNamed v).ringTaken_shows r
  obtain ⟨hentry, hrings, hreg⟩ := State.setHostEntry_shows (((s.noteHost XFER_CTRL).xferNamed v).ringTaken r)
    (BitVec.ofNat 128 (((s.noteHost XFER_CTRL).xferNamed v).resRead (s.entryAt r (s.reg (RING_RD r))) 16)) (fun i hi => by
      rw [State.ringTaken_written, State.xferNamed, State.setReg_written, State.noteHost_written,
        List.contains_cons, hfree i hi, Bool.or_false]
      exact beq_eq_false_iff_ne.2 (HOST_ENTRY_ne_XFER i hi).1)
  refine ⟨_, congrArg Host.Outcome.next hwrite, State.reg_setReg_self _ _ _, ?_, ?_, ?_⟩
  · have hkeep : ∀ u : State, (u.setReg XFER_STATUS 0).hostEntry = u.hostEntry := fun u => by
      simp (disch := decide) only [State.hostEntry, State.reg_setReg_ne]
    rw [hkeep, hentry]
    rfl
  · rw [State.reg_setReg_ne _ _ hrdne, hreg _ hrdentry, hrd, hsame.rd]
    rfl
  · rw [State.ring_setReg, State.ring, hrings, ← State.ring, hconsumed]
    rfl

/-- Settles O45: the writes of RING_CFG and RING_BASE, the entry written, the host's commits, releases, pushes and pops with the service of
their offers, and the snapshot. -/
theorem ringsCarryEntries : Obligations.RingsCarryEntries := by
  refine ⟨ringCfgWrite_enables, fun r v s ha hen hother => ?_, ringCfgWrite_disables, ringCfgWrite_base, ringCfgWrite_base_enabled,
    ringEntryWritten_places, fun r v s ha hn hc => ?_, serveOffer_commits, fun r v s ha hn h => ?_, hostRelease_releases,
    fun r v s ha hn h => ?_, xferPush_offers, serveOffer_xfer, fun v s ha hpush hpop => ?_, xferPop_takes, fun v s ha hv => ?_,
    fun r s ht => ⟨fun hm => ?_, fun hm => ?_⟩⟩
  · rw [exec_ringCfgWrite ha, State.ringCfg_refused (s := s.noteHost (RING_CFG r)) hen hother]
  · exact congrArg Host.Outcome.next ((s.hostWrite_accepts _ ha).trans (State.hostCommit_offers (s := s.noteHost (HOST_COMMIT r)) hn hc))
  · exact congrArg Host.Outcome.next ((s.hostWrite_accepts _ ha).trans (State.hostCommit_refused (s := s.noteHost (HOST_COMMIT r)) hn h))
  · exact congrArg Host.Outcome.next ((s.hostWrite_accepts _ ha).trans (State.hostRelease_refused (s := s.noteHost (HOST_RELEASE r)) hn h))
  · exact congrArg Host.Outcome.next ((s.hostWrite_accepts _ ha).trans (State.xferWrite_both hpush hpop))
  · exact congrArg Host.Outcome.next ((s.hostWrite_accepts _ ha).trans (if_pos hv))
  · rw [State.runTakes_ring ht, if_neg (by rw [hm]; decide)]
  · obtain ⟨hoffered, hconsumed, hflushed, hmt, hfill⟩ :=
      State.layFill_shows ({ s with takes := [] } : State) (s.ring r) (s.reg (RING_FILL r)) s.mt
    refine ⟨_, rfl, ?_⟩
    rw [State.runTakes_ring ht, if_pos hm, State.takeRing_eq]
    exact ⟨hoffered, hconsumed, hflushed, hmt, hfill, State.seq_layFill _ _ _ _, (State.rings_layFill _ _ _).trans (State.rings_layRing _ _)⟩

end Sys2Proof.Proofs
end

section
/-!
PROOFS. Events and rings in KCI (R246 to R248): a post that commits, is refused or waits for its tick, a cancel, and pushes and pops with
the service of an offer; then the statement.
-/

namespace Sys2Proof.Machine

open Reg

/-! ### Writes of a thread's registers leave weirs and rings -/

@[simp] theorem State.setRw_weirs (s : State) (a : Nat) (v : Word) : (s.setRw a v).weirs = s.weirs := rfl
@[simp] theorem State.setRw_rings (s : State) (a : Nat) (v : Word) : (s.setRw a v).rings = s.rings := rfl
@[simp] theorem State.setSt_weirs (s : State) (n t st : Nat) : (s.setSt n t st).weirs = s.weirs := by
  rw [State.setSt, State.setRw_weirs]
@[simp] theorem State.setSt_rings (s : State) (n t st : Nat) : (s.setSt n t st).rings = s.rings := by
  rw [State.setSt, State.setRw_rings]
@[simp] theorem State.setG_rings (s : State) (n t i : Nat) (v : Word) : (s.setG n t i v).rings = s.rings := by
  rw [State.setG, State.setRw_rings]
@[simp] theorem State.setThStamp_weirs (s : State) (n t : Nat) (v : Stamp) : (s.setThStamp n t v).weirs = s.weirs := by
  rw [State.setThStamp, State.setRw_weirs, State.setRw_weirs]
theorem State.weir_of_weirs {s u : State} (h : u.weirs = s.weirs) (n : Nat) : u.weir n = s.weir n := by rw [State.weir, h]; rfl

theorem State.ring_of_rings {s u : State} (h : u.rings = s.rings) (r : Nat) : u.ring r = s.ring r := by rw [State.ring, h]; rfl

/-! ### POST (R157, R246) -/

section
variable {s : State} {n t : Nat} {w : Word}

theorem State.kDescriptor_kPaid (s : State) (n t : Nat) (w : Word) : (s.kPaid n t).kDescriptor n t w = s.kDescriptor n t w := by
  funext j
  rw [State.kDescriptor, State.thStamp_kPaid, State.g_kPaid, State.kDescriptor]

theorem State.kEffect_post_free (h : s.postFree n = true) :
    (s.kPaid n t).kEffect n t w .post = ((s.kPaid n t).threadPost n t (w.getLsbD 12) (s.kDescriptor n t w), .next) := by
  have hfree : (s.kPaid n t).postFree n = true := h
  simp only [State.kEffect, State.kPost, State.kDescriptor_kPaid, testBit_kFnI_zero]
  exact if_pos hfree

theorem State.kEffect_post_waits (h : s.postFree n = false) :
    (s.kPaid n t).kEffect n t w .post = ((s.kPaid n t).postLater n
      { words := (List.range 6).map (s.kDescriptor n t w), thread := some t, first := w.getLsbD 12 }, .late) := by
  have hbusy : ¬ (s.kPaid n t).postFree n = true := Bool.eq_false_iff.1 h
  simp only [State.kEffect, State.kPost, State.kDescriptor_kPaid, testBit_kFnI_zero]
  exact if_neg hbusy

/-- The state with another place in the free values. -/
def State.withFree (s : State) (f : Nat) : State := { s with free := f }

theorem State.reg_withFree (s : State) (f a : Nat) : (s.withFree f).reg a = s.reg a := rfl

theorem State.withFree_weirs (s : State) (f : Nat) : (s.withFree f).weirs = s.weirs := rfl

theorem State.withFree_mt (s : State) (f : Nat) : (s.withFree f).mt = s.mt := rfl

/-- The stamp pair takes the first key, or a free value where the event has none yet. -/
def State.stampFirst (s : State) (n t : Nat) (key : Option Stamp) : State :=
  match key with
  | some k => s.setThStamp n t k
  | none => s.useFree.setThStamp n t s.freeValue

theorem State.stampFirst_cases (s : State) (n t : Nat) (key : Option Stamp) :
    ∃ f k, s.stampFirst n t key = (s.withFree f).setThStamp n t k := by
  cases key with
  | none => exact ⟨s.free + 1, s.freeValue, rfl⟩
  | some k => exact ⟨s.free, k, congrArg (State.setThStamp · n t k) (show s = s.withFree s.free from rfl)⟩

theorem State.threadPost_eq (s : State) (n t : Nat) (first : Bool) (d : Nat → Word) : s.threadPost n t first d =
    if (first && (s.post n d).1 == 0) = true then
      ((s.post n d).2.setSt n t (s.post n d).1).stampFirst n t
        (((s.post n d).2.setSt n t (s.post n d).1).startKey n (s.weir n).order)
    else (s.post n d).2.setSt n t (s.post n d).1 := rfl

/-- A thread's post leaves its status, and at most the stamp pair and the free values used differ besides; they do only where the first key
is asked for and the post is accepted. -/
theorem State.threadPost_cases (s : State) (n t : Nat) (first : Bool) (d : Nat → Word) :
    s.threadPost n t first d = (s.post n d).2.setSt n t (s.post n d).1 ∨
      first = true ∧ (s.post n d).1 = 0 ∧
        ∃ f k, s.threadPost n t first d = (((s.post n d).2.setSt n t (s.post n d).1).withFree f).setThStamp n t k := by
  rw [State.threadPost_eq]
  by_cases h : (first && (s.post n d).1 == 0) = true
  · rw [if_pos h]
    simp only [Bool.and_eq_true, beq_iff_eq] at h
    exact Or.inr ⟨h.1, h.2, State.stampFirst_cases ..⟩
  · exact Or.inl (if_neg h)

theorem POST_REFUSED_CNT_far (n t : Nat) : FarFromThread n t (POST_REFUSED_CNT n) := by
  refine ⟨?_, ?_, ?_, fun i hi => ?_⟩ <;> unfold POST_REFUSED_CNT
  · unfold CL_STATUS; omega
  · unfold TH_STATUS; omega
  · unfold TH_PC; omega
  · unfold G; omega

theorem POST_REFUSED_CNT_notMem_endRegs (n t : Nat) : POST_REFUSED_CNT n ∉ endRegs n t := by
  simp only [endRegs, List.mem_cons, List.not_mem_nil, or_false, not_or]
  unfold POST_REFUSED_CNT CL_BUSY TH_RUN TH_PC
  omega

theorem KciFrame.satCount {ds : List Nat} {s u : State} {n t a : Nat} (h : KciFrame n t ds s u) (ha : FarFromThread n t a) :
    KciFrame n t ds s (u.satCount a) :=
  h.trans ⟨u.satCount_mt a, u.reg_satCount_ne ha.status.symm, u.reg_satCount_ne ha.thStatus.symm, u.reg_satCount_ne ha.pc.symm,
    fun i hi _ => u.reg_satCount_ne (ha.g i hi).symm⟩

/-- An accepted post leaves the thread's registers but its status and, with K, its stamp pair. -/
theorem State.threadPost_accepted {d : Nat → Word} {i : Nat} (first : Bool) (h : s.postCheck d = 0)
    (hf : (s.weir n).freeSlot s.mt = some i) :
    KciFrame n t [] s (s.threadPost n t first d) ∧ (s.threadPost n t first d).thSt n t = 0 ∧
      ((s.threadPost n t first d).weir n).ledger.accepted = (s.weir n).ledger.accepted + 1 ∧
      (first = false → (s.threadPost n t first d).thStamp n t = s.thStamp n t) := by
  have hpost := State.post_accepted h hf
  have hframe : KciFrame n t [] s (s.post n d).2 := by
    rw [hpost]
    exact (KciFrame.refl s).same rfl fun _ => rfl
  have hstamp : (s.post n d).2.thStamp n t = s.thStamp n t := by rw [hpost]; rfl
  have hledger : ((s.post n d).2.weir n).ledger.accepted = (s.weir n).ledger.accepted + 1 := by
    rw [hpost, State.weir_setWeir_self]
    rfl
  have hst : (s.post n d).1 = 0 := by rw [hpost]
  rcases s.threadPost_cases n t first d with he | ⟨hfirst, -, f, k, he⟩ <;> rw [he]
  · refine ⟨hframe.setSt _, ?_, ?_, fun _ => ?_⟩
    · rw [hst, State.thSt_setSt _ _ _ (by decide)]
    · rw [State.weir_of_weirs (State.setSt_weirs ..), hledger]
    · rw [State.thStamp_setSt, hstamp]
  · refine ⟨((hframe.setSt _).same (State.withFree_mt _ f) (State.reg_withFree _ f)).setThStamp k, ?_, ?_,
      fun hno => absurd hfirst (by simp [hno])⟩
    · have hkept : ((((s.post n d).2.setSt n t (s.post n d).1).withFree f).setThStamp n t k).thSt n t =
          ((s.post n d).2.setSt n t (s.post n d).1).thSt n t := by
        rw [State.thSt, State.fld, State.flags_setThStamp, State.reg_withFree, State.thSt, State.fld]
      rw [hkept, hst, State.thSt_setSt _ _ _ (by decide)]
    · rw [State.weir_of_weirs (State.setThStamp_weirs ..)]
      rw [State.weir_of_weirs (State.withFree_weirs ..), State.weir_of_weirs (State.setSt_weirs ..), hledger]

/-- A refused post leaves its status and is counted (R160). -/
theorem State.threadPost_refused {d : Nat → Word} (first : Bool) (h0 : s.postCheck d ≠ 0) (h8 : s.postCheck d ≠ 8) :
    s.threadPost n t first d = ((s.notePost n).satCount (POST_REFUSED_CNT n)).setSt n t (s.postCheck d) := by
  have hpost := State.post_refused n h0 h8
  rcases s.threadPost_cases n t first d with he | ⟨-, hst, -⟩
  · rw [he, hpost]
  · rw [hpost] at hst
    exact absurd hst h0

/-- The end of a post that waits for its tick (R157). -/
theorem State.kEnd_late (r : State) (n t len c : Nat) :
    EndKeeps n t r (r.kEnd n t len c .late) ∧ (r.kEnd n t len c .late).thPc n t = (r.thPc n t + len) % 65536 / 4 * 4 ∧
      ((r.kEnd n t len c .late).engine n).pollDue = true ∧ ((r.kEnd n t len c .late).engine n).freeAt = r.mt + 2 := by
  have he : r.kEnd n t len c .late = ((r.setThPc n t (r.thPc n t + len)).runCycles n t c).setEngine n
      { ((r.setThPc n t (r.thPc n t + len)).runCycles n t c).engine n with
        freeAt := ((r.setThPc n t (r.thPc n t + len)).runCycles n t c).mt + 2, pollDue := true } := rfl
  have hreg : ∀ a, a ≠ CL_BUSY n → a ≠ TH_RUN n t → (r.kEnd n t len c .late).reg a = (r.setThPc n t (r.thPc n t + len)).reg a := by
    intro a hb hrun
    rw [he, State.reg_setEngine, State.reg_runCycles_ne _ n t c hb hrun]
  refine ⟨⟨fun a ha => ?_, ?_⟩, ?_, ?_, ?_⟩
  · simp only [endRegs, List.mem_cons, List.not_mem_nil, or_false, not_or] at ha
    rw [hreg a ha.1 ha.2.1, r.reg_setThPc_ne n t _ ha.2.2]
  · rw [he, State.runCycles_frame, State.setThPc, State.setRw_frame]
    unfold State.setEngine
    rfl
  · rw [State.thPc, State.fld, hreg _ (by unfold TH_PC CL_BUSY; omega) (by unfold TH_PC TH_RUN; omega)]
    exact r.thPc_setThPc n t _
  · rw [he, State.engine_setEngine_self]
  · rw [he, State.engine_setEngine_self, State.runCycles_mt, State.setThPc_mt]

/-! ### CANCEL (R247) -/

theorem State.kEffect_cancel_waits (h : ((s.weir n).cancels.tail.any (fun c => c.thread == some t)) = true) :
    (s.kPaid n t).kEffect n t w .cancel = ((s.kPaid n t).setSt n t 0xE, .next) := by
  have hwaits : (((s.kPaid n t).weir n).cancels.tail.any (fun c => c.thread == some t)) = true := h
  simp only [State.kEffect, State.kCancel]
  exact if_pos hwaits

/-- The cancel that a CANCEL of thread `t` starts. -/
def State.kCancelled (s : State) (n t : Nat) (w : Word) : State :=
  (s.kPaid n t).cancel n (BitVec.ofNat 12 (kImm w)) (BitVec.ofNat 12 (bitsOf (s.g n t (kA w)) 11 0)) (some t) false

theorem State.kEffect_cancel_starts (h : ((s.weir n).cancels.tail.any (fun c => c.thread == some t)) = false) :
    (s.kPaid n t).kEffect n t w .cancel = ((s.kCancelled n t w).setSt n t 0, .next) := by
  have hfree : ¬ (((s.kPaid n t).weir n).cancels.tail.any (fun c => c.thread == some t)) = true := Bool.eq_false_iff.1 h
  simp only [State.kEffect, State.kCancel, State.g_kPaid]
  exact if_neg hfree

/-- A cancel of a thread changes the weirs alone. -/
theorem State.kCancelled_frame (s : State) (n t : Nat) (w : Word) : KciFrame n t [] s (s.kCancelled n t w) :=
  (KciFrame.refl s).same rfl fun _ => rfl

/-! ### PUSH and POP (R248) -/

theorem State.kIndex_kPaid (s : State) (n t : Nat) (w : Word) (i : Nat) : (s.kPaid n t).kIndex n t w i = s.kIndex n t w i := by
  rw [State.kIndex, State.g_kPaid, State.kIndex]

theorem State.pushStatus_kPaid (s : State) (n t r a : Nat) : (s.kPaid n t).pushStatus r a = s.pushStatus r a := rfl

theorem State.quad_kPaid (s : State) (n t i : Nat) : (s.kPaid n t).quad n t i = s.quad n t i := by
  simp only [State.quad, State.g_kPaid]

theorem State.kEffect_push (s : State) (n t : Nat) (w : Word) : (s.kPaid n t).kEffect n t w .push =
    if s.fld ID_QUEUE 15 8 ≤ s.kIndex n t w (kD w) then ((s.kPaid n t).setSt n t 0xB, .next)
    else if s.pushStatus (s.kIndex n t w (kD w)) n = 9 ∧ w.getLsbD 12 = true then
      (s.kPaid n t, .wait 3 (.ring (s.kIndex n t w (kD w)) true))
    else if s.pushStatus (s.kIndex n t w (kD w)) n = 0 then
      (((s.kPaid n t).ringGather (s.kIndex n t w (kD w)) (rankPush n)
        (.push n t (s.thPc n t) (w.getLsbD 12) (s.quad n t (kA w)))).setSt n t 0x0, .next)
    else ((s.kPaid n t).setSt n t (s.pushStatus (s.kIndex n t w (kD w)) n), .next) := by
  simp only [State.kEffect, State.kPush, State.kIndex_kPaid, State.fld_kPaid, State.pushStatus_kPaid, testBit_kFnI_zero, State.thPc_kPaid,
    State.quad_kPaid]

theorem State.kEffect_pop (s : State) (n t : Nat) (w : Word) : s.kEffect n t w .pop = s.kPop n t w := rfl

theorem State.kEffect_pop_none (h : s.fld ID_QUEUE 15 8 ≤ s.kIndex n t w (kA w)) :
    (s.kPaid n t).kEffect n t w .pop = ((s.kPaid n t).setSt n t 0xB, .next) := by
  rw [State.kEffect_pop, State.kPop]
  rw [State.kIndex_kPaid, State.fld_kPaid, if_pos h]

/-- A pop that the ring refuses, or that finds no entry. -/
theorem State.kEffect_pop_without {c : Nat} {u : State} (h : s.kIndex n t w (kA w) < s.fld ID_QUEUE 15 8) (hc : c ≠ 0)
    (hpop : (s.kPaid n t).ringPop (s.kIndex n t w (kA w)) n = (c, none, u)) :
    (s.kPaid n t).kEffect n t w .pop =
      if c = 0xA ∧ w.getLsbD 12 = true then (s.kPaid n t, .wait 3 (.ring (s.kIndex n t w (kA w)) false))
      else ((s.kPaid n t).setSt n t c, .next) := by
  rw [State.kEffect_pop, State.kPop]
  rw [State.kIndex_kPaid, State.fld_kPaid, if_neg (Nat.not_le.2 h), hpop, ← testBit_kFnI_zero]
  cases c with
  | zero => exact absurd rfl hc
  | succ c => rfl

theorem State.kEffect_pop_takes {e : BitVec 128} {u : State} (h : s.kIndex n t w (kA w) < s.fld ID_QUEUE 15 8)
    (hpop : (s.kPaid n t).ringPop (s.kIndex n t w (kA w)) n = (0, some e, u)) :
    (s.kPaid n t).kEffect n t w .pop = ((u.setQuad n t (kD w) e).setSt n t 0, .next) := by
  rw [State.kEffect_pop, State.kPop]
  rw [State.kIndex_kPaid, State.fld_kPaid, if_neg (Nat.not_le.2 h), hpop]
  rfl

end

/-! ### The take of a pop, and a push that fails -/

/-- The registers of a ring are not those of a thread. -/
theorem State.ringTaken_frame (s : State) (n t : Nat) {r : Nat} (hr : r < 256) : KciFrame n t [] s (s.ringTaken r) := by
  have hfar : ∀ a, 0x1000000 ≤ a → (s.ringTaken r).reg a = s.reg a := by
    intro a ha
    obtain ⟨-, -, -, hother⟩ := s.ringRetire_shows r 1
    rw [State.ringTaken, State.reg_setRing]
    exact hother a (by unfold RING_RD; omega) (by unfold RING_FILL; omega) (by unfold RING_CREDIT; omega)
  refine ⟨?_, hfar _ (by unfold CL_STATUS; omega), hfar _ (by unfold TH_STATUS; omega), hfar _ (by unfold TH_PC; omega),
    fun i _ _ => hfar _ (by unfold G; omega)⟩
  obtain ⟨rs, hopen⟩ := s.ringOpen_shape r
  rw [State.ringTaken, State.setRing_mt, State.ringRetire, State.ringLevel, State.setReg_mt, State.setReg_mt, State.setReg_mt,
    State.setRing_mt, hopen]

section
variable (s : State) (n t i : Nat) (e : BitVec 128)

theorem State.setQuad_eq : s.setQuad n t i e = (((s.setG n t i ((e >>> 0).truncate 32)).setG n t (i + 1)
    ((e >>> 32).truncate 32)).setG n t (i + 2) ((e >>> 64).truncate 32)).setG n t (i + 3) ((e >>> 96).truncate 32) := rfl

theorem State.quad_setQuad : (s.setQuad n t i e).quad n t i = e := by
  rw [State.setQuad_eq, State.quad]
  simp (disch := omega) only [State.g_setG_ne, State.g_setG_self]
  exact entry_of_words e

theorem State.setQuad_frame {ds : List Nat} (h : ∀ j : Nat, j < 4 → i + j ∈ ds) : KciFrame n t ds s (s.setQuad n t i e) := by
  rw [State.setQuad_eq]
  exact ((((KciFrame.refl s).setG _ (h 0 (by decide))).setG _ (h 1 (by decide))).setG _ (h 2 (by decide))).setG _ (h 3 (by decide))

theorem State.setQuad_rings : (s.setQuad n t i e).rings = s.rings := by
  rw [State.setQuad_eq, State.setG_rings, State.setG_rings, State.setG_rings, State.setG_rings]

theorem State.reg_setQuad_below {a : Nat} (h : a < 0x1000000) : (s.setQuad n t i e).reg a = s.reg a := by
  have hne : ∀ j, a ≠ G n t j := fun j => by unfold G; omega
  rw [State.setQuad_eq, State.reg_setG_ne _ n t _ _ (hne _), State.reg_setG_ne _ n t _ _ (hne _), State.reg_setG_ne _ n t _ _ (hne _),
    State.reg_setG_ne _ n t _ _ (hne _)]

theorem State.quad_setSt (st : Nat) : (s.setSt n t st).quad n t i = s.quad n t i := by
  have hg : ∀ j, (s.setSt n t st).g n t j = s.g n t j := fun j => s.reg_setSt_ne n t st (by unfold G TH_FLAGS; omega)
  rw [State.quad, hg, hg, hg, hg, State.quad]

end

/-- A frame that keeps every general register keeps all but some. -/
theorem KciFrame.widen {n t : Nat} {s u : State} (h : KciFrame n t [] s u) (ds : List Nat) : KciFrame n t ds s u :=
  ⟨h.mt, h.status, h.thStatus, h.pc, fun i hi _ => h.g i hi List.not_mem_nil⟩

theorem EndKeeps.quad {n t : Nat} {r u : State} (h : EndKeeps n t r u) (i : Nat) : u.quad n t i = r.quad n t i := by
  rw [State.quad, h.g, h.g, h.g, h.g, State.quad]

theorem State.reg_setSt_below (s : State) (n t st : Nat) {a : Nat} (h : a < 0x1000000) : (s.setSt n t st).reg a = s.reg a :=
  s.reg_setSt_ne n t st (by unfold TH_FLAGS; omega)

/-- The wait that a PUSH with W has entered when it finds no credit left. -/
def State.pushWaits (s : State) (r n t pc : Nat) : State :=
  ((s.setThPc n t pc).setThread n t { (s.setThPc n t pc).thread n t with wait := .ring r true, metAt := none }).setThState n t thWaiting 3

theorem State.pushFails_waits {s : State} {r n t : Nat} (pc : Nat) (h : s.thState n t = thReady) :
    s.pushFails r n t pc true = if (s.pushWaits r n t pc).runningThread n = some t then (s.pushWaits r n t pc).setRunning n none
      else s.pushWaits r n t pc := by
  have hw : ¬ (!true) = true := by decide
  rw [State.pushFails, if_neg hw, h]
  exact if_pos (Or.inr rfl)

/-- The engine's place apart, the state of a failed PUSH that waits is `pushWaits`. -/
theorem State.pushFails_waits_shows {s : State} {r n t : Nat} (pc : Nat) (h : s.thState n t = thReady) :
    (s.pushFails r n t pc true).threads = (s.pushWaits r n t pc).threads ∧
      ∀ a, a ≠ CL_STATUS n → (s.pushFails r n t pc true).reg a = (s.pushWaits r n t pc).reg a := by
  rw [State.pushFails_waits pc h]
  split
  · exact ⟨State.setReg_threads .., fun a ha => State.reg_setReg_ne _ _ ha⟩
  · exact ⟨rfl, fun _ _ => rfl⟩

theorem State.pushWaits_shows (s : State) (r n t pc : Nat) :
    (s.pushWaits r n t pc).thState n t = thWaiting ∧ ((s.pushWaits r n t pc).thread n t).wait = .ring r true ∧
      (s.pushWaits r n t pc).thPc n t = pc % 65536 / 4 * 4 := by
  refine ⟨State.thState_setThState _ n t 3 (by decide), ?_, ?_⟩
  · rw [State.pushWaits, State.setThState, State.thread_setReg, State.thread_setThread_self]
  · rw [State.thPc, State.fld, State.pushWaits, State.setThState, State.reg_setReg_ne _ _ (by unfold TH_PC TH_STATUS; omega),
      State.reg_setThread, ← State.fld, ← State.thPc, State.thPc_setThPc]

end Sys2Proof.Machine

namespace Sys2Proof.Proofs

open Sys2Proof.Machine Sys2Proof.Machine.Reg

/-- A post that commits and is accepted (R157, R246). -/
theorem kPost_accepted (n : Fin 24) (t : Nat) (w : Word) (s : State) (hr : s.kciRuns n t w .post)
    (hcheck : s.postCheck (s.kDescriptor n t w) = 0) (hfree : s.postFree n = true) (hslot : (s.weir n).freeSlot s.mt ≠ none) :
    ∃ u, exec (.kPost n) s = .next u ∧ s.kciEnds u n t (s.thPc n t + 4) ∧ u.thSt n t = 0 ∧ s.keepsG u n t [] ∧
      (u.weir n).ledger.accepted = (s.weir n).ledger.accepted + 1 ∧ (w.getLsbD 12 = false → u.thStamp n t = s.thStamp n t) := by
  obtain ⟨i, hi⟩ := Option.ne_none_iff_exists'.1 hslot
  have hcheck' : (s.kPaid n t).postCheck (s.kDescriptor n t w) = 0 := hcheck
  obtain ⟨hframe, hst, hledger, hstamp⟩ := State.threadPost_accepted (n := n) (t := t) (w.getLsbD 12) hcheck' hi
  obtain ⟨u, hu, hends, hg, hk⟩ := exec_kci_next4 (i := .kPost n) rfl hr rfl (State.kEffect_post_free hfree)
    ((s.kPaid_frame n t []).trans hframe)
  refine ⟨u, hu, hends, hk.thSt.trans hst, hg, ?_, fun h12 => ?_⟩
  · rw [hk.weir, hledger]
    rfl
  · rw [hk.thStamp, hstamp h12, State.thStamp_kPaid]

theorem kPost_refused (n : Fin 24) (t : Nat) (w : Word) (s : State) (hr : s.kciRuns n t w .post)
    (h0 : s.postCheck (s.kDescriptor n t w) ≠ 0) (h8 : s.postCheck (s.kDescriptor n t w) ≠ 8) (hfree : s.postFree n = true) :
    ∃ u, exec (.kPost n) s = .next u ∧ s.kciEnds u n t (s.thPc n t + 4) ∧ u.thSt n t = s.postCheck (s.kDescriptor n t w) ∧
      s.keepsG u n t [] ∧ (u.weir n).ledger = (s.weir n).ledger ∧ (u.weir n).slots = (s.weir n).slots ∧
      u.reg (POST_REFUSED_CNT n) = satInc (s.reg (POST_REFUSED_CNT n)) := by
  have hpost := State.threadPost_refused (s := s.kPaid n t) (n := n) (t := t) (d := s.kDescriptor n t w) (w.getLsbD 12) h0 h8
  have hframe : KciFrame n t [] s ((((s.kPaid n t).notePost n).satCount (POST_REFUSED_CNT n)).setSt n t
      ((s.kPaid n t).postCheck (s.kDescriptor n t w))) :=
    (((s.kPaid_frame n t []).same (u := (s.kPaid n t).notePost n) rfl fun _ => rfl).satCount (POST_REFUSED_CNT_far n t)).setSt _
  obtain ⟨u, hu, hends, hg, hk⟩ := exec_kci_next4 (i := .kPost n) rfl hr rfl ((State.kEffect_post_free hfree).trans (by rw [hpost])) hframe
  have hweir : u.weir n = ((s.kPaid n t).notePost n).weir n := by
    rw [hk.weir, State.weir_of_weirs (State.setSt_weirs ..), State.weir_satCount]
  refine ⟨u, hu, hends, ?_, hg, ?_, ?_, ?_⟩
  · rw [hk.thSt, State.thSt_setSt _ _ _ (State.postCheck_lt _ _)]
    rfl
  · rw [hweir, State.notePost, State.weir_setWeir_self]
    rfl
  · rw [hweir, State.notePost, State.weir_setWeir_self]
    rfl
  · rw [hk.regs _ (POST_REFUSED_CNT_notMem_endRegs n t), State.reg_setSt_ne _ n t _ (by unfold POST_REFUSED_CNT TH_FLAGS; omega),
      State.reg_satCount_self]
    rfl

theorem kPost_waits (n : Fin 24) (t : Nat) (w : Word) (s : State) (hr : s.kciRuns n t w .post) (hbusy : s.postFree n = false) :
    ∃ u, exec (.kPost n) s = .next u ∧ u.thState n t = s.thState n t ∧ u.thPc n t = (s.thPc n t + 4) % 65536 / 4 * 4 ∧
      (u.engine n).pollDue = true ∧ (u.engine n).freeAt = s.mt + 2 ∧ s.keepsG u n t [] ∧ (u.weir n).ledger = (s.weir n).ledger ∧
      (u.weir n).posts = (s.weir n).posts ++
        [{ words := (List.range 6).map (s.kDescriptor n t w), thread := some t, first := w.getLsbD 12 }] := by
  have hframe : KciFrame n t [] s ((s.kPaid n t).postLater n
      { words := (List.range 6).map (s.kDescriptor n t w), thread := some t, first := w.getLsbD 12 }) :=
    (s.kPaid_frame n t []).same rfl fun _ => rfl
  obtain ⟨hk, hpc, hpoll, hfree⟩ := State.kEnd_late ((s.kPaid n t).postLater n
      { words := (List.range 6).map (s.kDescriptor n t w), thread := some t, first := w.getLsbD 12 }) n t (kciBytes w) (s.kCycles n t w .post)
  have hlen : kciBytes w = 4 := kciBytes_of_runs hr rfl
  refine ⟨_, exec_of_kEffect (i := .kPost n) rfl hr (State.kEffect_post_waits hbusy), ?_, ?_, hpoll, hfree, hk.keepsG hframe, ?_, ?_⟩
  · rw [State.thState, State.fld, hk.regs _ (TH_STATUS_notMem_endRegs n t), hframe.thStatus]
    rfl
  · rw [hpc, hlen, hframe.thPc]
  · rw [hk.weir, State.postLater, State.weir_setWeir_self]
    rfl
  · rw [hk.weir, State.postLater, State.weir_setWeir_self]
    rfl

theorem kCancel_waits (n : Fin 24) (t : Nat) (w : Word) (s : State) (hr : s.kciRuns n t w .cancel)
    (h : ((s.weir n).cancels.tail.any (fun c => c.thread == some t)) = true) :
    ∃ u, exec (.kCancel n) s = .next u ∧ s.kciEnds u n t (s.thPc n t + 4) ∧ u.thSt n t = 0xE ∧ u.weirs = s.weirs ∧ s.keepsG u n t [] := by
  obtain ⟨u, hu, hends, hg, hk⟩ := exec_kci_next4 (i := .kCancel n) rfl hr rfl (State.kEffect_cancel_waits h)
    ((s.kPaid_frame n t []).setSt 0xE)
  refine ⟨u, hu, hends, hk.thSt.trans (State.thSt_setSt _ _ _ (by decide)), ?_, hg⟩
  rw [hk.weirs, State.setSt_weirs]
  rfl

theorem kCancel_starts (n : Fin 24) (t : Nat) (w : Word) (s : State) (hr : s.kciRuns n t w .cancel)
    (h : ((s.weir n).cancels.tail.any (fun c => c.thread == some t)) = false) :
    ∃ u c, exec (.kCancel n) s = .next u ∧ s.kciEnds u n t (s.thPc n t + 4) ∧ u.thSt n t = 0 ∧
      (u.weir n).cancels = (s.weir n).cancels ++ [c] ∧ c.tag.toNat = kImm w ∧ c.mask.toNat = bitsOf (s.g n t (kA w)) 11 0 ∧
      c.thread = some t ∧ c.host = false := by
  obtain ⟨u, hu, hends, -, hk⟩ := exec_kci_next4 (i := .kCancel n) rfl hr rfl (State.kEffect_cancel_starts h)
    ((s.kCancelled_frame n t w).setSt 0)
  have himm : kImm w < 2 ^ 12 := bitsOf_lt w 11 0
  have hmask : bitsOf (s.g n t (kA w)) 11 0 < 2 ^ 12 := bitsOf_lt _ 11 0
  refine ⟨u, (s.kPaid n t).newCancel n (BitVec.ofNat 12 (kImm w)) (BitVec.ofNat 12 (bitsOf (s.g n t (kA w)) 11 0)) (some t) false, hu, hends,
    hk.thSt.trans (State.thSt_setSt _ _ _ (by decide)), ?_, ?_, ?_, rfl, rfl⟩
  · rw [hk.weir, State.weir_of_weirs (State.setSt_weirs ..), State.kCancelled, State.weir_cancel]
    rfl
  · exact (BitVec.toNat_ofNat ..).trans (Nat.mod_eq_of_lt himm)
  · exact (BitVec.toNat_ofNat ..).trans (Nat.mod_eq_of_lt hmask)

/-- An instruction that would wait leaves the rings, and waits but for a HALT. -/
theorem exec_kci_wait_or_halt {i : Instr} {s : State} {n t : Nat} {w : Word} {o : Kci} {kind : Nat} {x : Wait}
    (hx : exec i s = .next (s.kci n o)) (hr : s.kciRuns n t w o) (he : (s.kPaid n t).kEffect n t w o = (s.kPaid n t, .wait kind x))
    (hk : kind < 16) (hk4 : kind ≠ 4) :
    ∃ u, exec i s = .next u ∧ u.rings = s.rings ∧ ((s.thread n t).haltReq = false → s.kciWaits u n t kind x) := by
  cases hh : (s.thread n t).haltReq with
  | false =>
    obtain ⟨u, hu, hwaits, -, hrings⟩ := exec_kci_wait hx hr he hk (Or.inr hh)
    exact ⟨u, hu, hrings, fun _ => hwaits⟩
  | true =>
    have hh' : ((s.kPaid n t).thread n t).haltReq = true := by rw [State.thread_kPaid]; exact hh
    refine ⟨_, exec_of_kEffect hx hr he, ?_, fun hno => absurd hno (by decide)⟩
    rw [State.kEnd_wait_halts _ n t _ _ kind x hk4 hh']
    exact State.leftWith_rings _ n t _ _ _ _

/-- An instruction that only leaves a status. -/
theorem exec_kci_status {i : Instr} {s : State} {n t : Nat} {w : Word} {o : Kci} {st : Nat} (hx : exec i s = .next (s.kci n o))
    (hr : s.kciRuns n t w o) (hext : o.takesExt w = false) (hst : st < 16)
    (he : (s.kPaid n t).kEffect n t w o = ((s.kPaid n t).setSt n t st, .next)) :
    ∃ u, exec i s = .next u ∧ s.kciEnds u n t (s.thPc n t + 4) ∧ u.thSt n t = st ∧ u.rings = s.rings ∧ s.keepsG u n t [] := by
  obtain ⟨u, hu, hends, hg, hk⟩ := exec_kci_next4 hx hr hext he ((s.kPaid_frame n t []).setSt st)
  refine ⟨u, hu, hends, hk.thSt.trans (State.thSt_setSt _ _ _ hst), ?_, hg⟩
  rw [hk.rings, State.setSt_rings]
  rfl

theorem kPush_without (n : Fin 24) (t : Nat) (w : Word) (s : State) (hr : s.kciRuns n t w .push) :
    let r := s.kIndex n t w (kD w)
    (s.fld ID_QUEUE 15 8 ≤ r → ∃ u, exec (.kPush n) s = .next u ∧ s.kciEnds u n t (s.thPc n t + 4) ∧ u.thSt n t = 0xB ∧
      u.rings = s.rings ∧ s.keepsG u n t []) ∧
    (r < s.fld ID_QUEUE 15 8 → s.ringEn r = false ∨ s.ringProd r ≠ n →
      ∃ u, exec (.kPush n) s = .next u ∧ s.kciEnds u n t (s.thPc n t + 4) ∧ u.thSt n t = 0xC ∧ u.rings = s.rings ∧ s.keepsG u n t []) ∧
    (r < s.fld ID_QUEUE 15 8 → s.ringEn r = true → s.ringProd r = n → s.ringCreditNow r = 0 →
      ∃ u, exec (.kPush n) s = .next u ∧ u.rings = s.rings ∧
        (if w.getLsbD 12 = true then ((s.thread n t).haltReq = false → s.kciWaits u n t 3 (.ring r true))
         else s.kciEnds u n t (s.thPc n t + 4) ∧ u.thSt n t = 9 ∧ s.keepsG u n t [])) := by
  intro r
  refine ⟨fun hno => ?_, fun hrange hclosed => ?_, fun hrange hen hprod hcredit => ?_⟩
  · exact exec_kci_status rfl hr rfl (by decide) ((State.kEffect_push s n t w).trans (if_pos hno))
  · have hst := State.pushStatus_refused hclosed
    refine exec_kci_status rfl hr rfl (by decide) ?_
    rw [State.kEffect_push, if_neg (Nat.not_le.2 hrange), hst, if_neg (by omega), if_neg (by decide)]
  · have hst := State.pushStatus_noCredit hen hprod hcredit
    split
    · next hw =>
      have he : (s.kPaid n t).kEffect n t w .push = (s.kPaid n t, .wait 3 (.ring r true)) := by
        rw [State.kEffect_push, if_neg (Nat.not_le.2 hrange), hst, if_pos ⟨rfl, hw⟩]
      obtain ⟨u, hu, hrings, hwaits⟩ := exec_kci_wait_or_halt (i := .kPush n) rfl hr he (by decide) (by decide)
      exact ⟨u, hu, hrings, hwaits⟩
    · next hw =>
      obtain ⟨u, hu, hends, hst', hrings, hg⟩ := exec_kci_status (i := .kPush n) rfl hr rfl (st := 9) (by decide) (by
        rw [State.kEffect_push, if_neg (Nat.not_le.2 hrange), hst, if_neg (fun h => hw h.2), if_neg (by decide)])
      exact ⟨u, hu, hrings, hends, hst', hg⟩

theorem kPop_without (n : Fin 24) (t : Nat) (w : Word) (s : State) (hr : s.kciRuns n t w .pop) :
    let r := s.kIndex n t w (kA w)
    (s.fld ID_QUEUE 15 8 ≤ r → ∃ u, exec (.kPop n) s = .next u ∧ s.kciEnds u n t (s.thPc n t + 4) ∧ u.thSt n t = 0xB ∧
      u.rings = s.rings ∧ s.keepsG u n t []) ∧
    (r < s.fld ID_QUEUE 15 8 → s.ringEn r = false ∨ s.ringCons r ≠ n →
      ∃ u, exec (.kPop n) s = .next u ∧ s.kciEnds u n t (s.thPc n t + 4) ∧ u.thSt n t = 0xC ∧ u.rings = s.rings ∧ s.keepsG u n t []) ∧
    (r < s.fld ID_QUEUE 15 8 → s.ringEn r = true → s.ringCons r = n → s.ringVisible r = 0 →
      ∃ u, exec (.kPop n) s = .next u ∧ u.rings = s.rings ∧
        (if w.getLsbD 12 = true then ((s.thread n t).haltReq = false → s.kciWaits u n t 3 (.ring r false))
         else s.kciEnds u n t (s.thPc n t + 4) ∧ u.thSt n t = 0xA ∧ s.keepsG u n t [])) := by
  intro r
  refine ⟨fun hno => exec_kci_status rfl hr rfl (by decide) (State.kEffect_pop_none hno), fun hrange hclosed => ?_,
    fun hrange hen hcons hvis => ?_⟩
  · have hpop : (s.kPaid n t).ringPop r n = (0xC, none, s.kPaid n t) := State.ringPop_refused hclosed
    refine exec_kci_status rfl hr rfl (by decide) ((State.kEffect_pop_without hrange (by decide) hpop).trans ?_)
    exact if_neg fun h => absurd h.1 (by decide)
  · have hpop : (s.kPaid n t).ringPop r n = (0xA, none, s.kPaid n t) := State.ringPop_empty hen hcons hvis
    have he := State.kEffect_pop_without hrange (by decide) hpop
    split
    · next hw =>
      exact exec_kci_wait_or_halt rfl hr (he.trans (if_pos ⟨rfl, hw⟩)) (by decide) (by decide)
    · next hw =>
      obtain ⟨u, hu, hends, hst, hrings, hg⟩ := exec_kci_status (i := .kPop n) rfl hr rfl (st := 0xA) (by decide)
        (he.trans (if_neg fun h => hw h.2))
      exact ⟨u, hu, hrings, hends, hst, hg⟩

/-- A push with credit joins the offers of the cycle (R248, R262). -/
theorem kPush_offers (n : Fin 24) (t : Nat) (w : Word) (s : State) (hr : s.kciRuns n t w .push) :
    let r := s.kIndex n t w (kD w)
    r < s.fld ID_QUEUE 15 8 → s.ringEn r = true → s.ringProd r = n → s.ringCreditNow r ≠ 0 →
    ∃ u, exec (.kPush n) s = .next u ∧ s.kciEnds u n t (s.thPc n t + 4) ∧ u.thSt n t = 0 ∧ s.keepsG u n t [] ∧
      (rankPush n, Offer.push n t (s.thPc n t) (w.getLsbD 12) (s.quad n t (kA w))) ∈ (u.ring r).offers ∧
      (u.ring r).inflight = (s.ring r).inflight ∧ u.reg (RING_CREDIT r) = s.reg (RING_CREDIT r) := by
  intro r hrange hen hprod hcredit
  have hst := State.pushStatus_credit hen hprod hcredit
  have hlow : RING_CREDIT r < 0x1000000 := by
    have hid : s.fld ID_QUEUE 15 8 < 256 := bitsOf_lt _ 15 8
    unfold RING_CREDIT; omega
  have he : (s.kPaid n t).kEffect n t w .push = (((s.kPaid n t).ringGather r (rankPush n)
      (.push n t (s.thPc n t) (w.getLsbD 12) (s.quad n t (kA w)))).setSt n t 0, .next) := by
    rw [State.kEffect_push, if_neg (Nat.not_le.2 hrange), hst, if_neg (fun h => absurd h.1 (by decide)), if_pos rfl]
  obtain ⟨hoffer, hinflight, hreg⟩ := (s.kPaid n t).ringGather_shows r (rankPush n)
    (.push n t (s.thPc n t) (w.getLsbD 12) (s.quad n t (kA w)))
  obtain ⟨u, hu, hends, hg, hk⟩ := exec_kci_next4 (i := .kPush n) rfl hr rfl he
    (((s.kPaid_frame n t []).same (u := (s.kPaid n t).ringGather r (rankPush n)
      (.push n t (s.thPc n t) (w.getLsbD 12) (s.quad n t (kA w)))) rfl hreg).setSt 0)
  have hring := (hk.ring r).trans (State.ring_of_rings (State.setSt_rings ..) r)
  refine ⟨u, hu, hends, hk.thSt.trans (State.thSt_setSt _ _ _ (by decide)), hg, ?_, ?_, ?_⟩
  · rw [hring]
    exact hoffer
  · rw [hring, hinflight]
    rfl
  · rw [hk.below hlow, State.reg_setSt_below _ _ _ _ hlow, hreg, State.reg_kPaid]

/-- A pop takes the entry at RD into the quad (R248, R263). -/
theorem kPop_takes (n : Fin 24) (t : Nat) (w : Word) (s : State) (hr : s.kciRuns n t w .pop) :
    let r := s.kIndex n t w (kA w)
    r < s.fld ID_QUEUE 15 8 → s.ringEn r = true → s.ringCons r = n → s.ringVisible r ≠ 0 →
    s.resPoisoned (s.entryAt r (s.reg (RING_RD r))) 16 = false →
    ∃ u, exec (.kPop n) s = .next u ∧ s.kciEnds u n t (s.thPc n t + 4) ∧ u.thSt n t = 0 ∧
      u.quad n t (kD w) = BitVec.ofNat 128 (s.resRead (s.entryAt r (s.reg (RING_RD r))) 16) ∧
      u.reg (RING_RD r) = s.reg (RING_RD r) + 1 ∧ (u.ring r).consumed = (s.ring r).consumed + 1 := by
  intro r hrange hen hcons hvis hsound
  have hr256 : r < 256 := Nat.lt_trans hrange (bitsOf_lt _ 15 8)
  have hlow : RING_RD r < 0x1000000 := by unfold RING_RD; omega
  have hpop := State.ringPop_sound (s := s.kPaid n t) hen hcons hvis hsound
  obtain ⟨hrd, hconsumed⟩ := (s.kPaid n t).ringTaken_shows r
  obtain ⟨u, hu, hends, -, hk⟩ := exec_kci_next4 (i := .kPop n) (ds := [kD w, kD w + 1, kD w + 2, kD w + 3]) rfl hr rfl
    (State.kEffect_pop_takes hrange hpop)
    (((((s.kPaid_frame n t []).trans ((s.kPaid n t).ringTaken_frame n t hr256)).widen _).trans
      (State.setQuad_frame _ n t (kD w) _ (by intro j hj; interval_cases j <;> simp))).setSt 0)
  refine ⟨u, hu, hends, hk.thSt.trans (State.thSt_setSt _ _ _ (by decide)), ?_, ?_, ?_⟩
  · rw [hk.quad, State.quad_setSt, State.quad_setQuad]
    rfl
  · rw [hk.below hlow, State.reg_setSt_below _ _ _ _ hlow, State.reg_setQuad_below _ _ _ _ _ hlow, hrd, State.reg_kPaid]
  · rw [hk.ring, State.ring_of_rings (State.setSt_rings ..), State.ring_of_rings (State.setQuad_rings ..), hconsumed]
    rfl

/-- The service of a push, by what the credit comes to (R262). -/
theorem serveOffer_push :
    (∀ (r : Fin 64) (n t pc : Nat) (waits : Bool) (e : BitVec 128) (s : State), s.pushStatus r n = 0 → (s.ring r).inflight = [] →
      ((s.serveOffer r (.push n t pc waits e)).ring r).inflight = [.entry e] ∧
      ((s.serveOffer r (.push n t pc waits e)).ring r).admitted = (s.ring r).admitted + 1) ∧
    (∀ (r : Fin 64) (n : Fin 24) (t : Fin 16) (pc : Nat) (e : BitVec 128) (s : State), s.pushStatus r n = 9 →
      (s.serveOffer r (.push n t pc false e)).thSt n t = 9 ∧ (s.serveOffer r (.push n t pc false e)).rings = s.rings) ∧
    (∀ (r : Fin 64) (n : Fin 24) (t : Fin 16) (pc : Nat) (e : BitVec 128) (s : State), s.pushStatus r n = 9 → s.thState n t = thReady →
      (s.serveOffer r (.push n t pc true e)).thState n t = thWaiting ∧
      ((s.serveOffer r (.push n t pc true e)).thread n t).wait = .ring r true ∧
      (s.serveOffer r (.push n t pc true e)).thPc n t = pc % 65536 / 4 * 4) := by
  have hfails : ∀ (r n t pc : Nat) (waits : Bool) (e : BitVec 128) (s : State), s.pushStatus r n = 9 →
      s.serveOffer r (.push n t pc waits e) = s.pushFails r n t pc waits := by
    intro r n t pc waits e s hst
    rw [State.serveOffer, hst]
    rfl
  refine ⟨fun r n t pc waits e s hst hnone => ?_, fun r n t pc e s hst => ?_, fun r n t pc e s hst hready => ?_⟩
  · have hadmit : s.serveOffer r (.push n t pc waits e) = s.ringAdmit r [.entry e] := by
      rw [State.serveOffer, hst]
      rfl
    rw [hadmit]
    exact State.ringAdmit_one e hnone
  · have hfail : s.pushFails r n t pc false = s.setSt n t 9 := if_pos rfl
    rw [hfails _ _ _ _ _ _ _ hst, hfail]
    exact ⟨State.thSt_setSt _ _ _ (by decide), State.setSt_rings ..⟩
  · obtain ⟨hthreads, hreg⟩ := State.pushFails_waits_shows (r := r) pc hready
    obtain ⟨hstate, hwait, hpc⟩ := s.pushWaits_shows r n t pc
    rw [hfails _ _ _ _ _ _ _ hst]
    refine ⟨?_, ?_, ?_⟩
    · rw [State.thState, State.fld, hreg _ (by unfold TH_STATUS CL_STATUS; omega), ← State.fld, ← State.thState, hstate]
    · rw [State.thread, hthreads, ← State.thread, hwait]
    · rw [State.thPc, State.fld, hreg _ (by unfold TH_PC CL_STATUS; omega), ← State.fld, ← State.thPc, hpc]

/-- Settles O42: posts accepted, refused and waiting, cancels, pushes and pops that come to nothing, and those that offer and take. -/
theorem kciPostsCancelsPushesAndPops : Obligations.KciPostsCancelsPushesAndPops := by
  refine ⟨kPost_accepted, kPost_refused, kPost_waits, kCancel_waits, kCancel_starts, fun n t w s p hp hr => ?_, kPush_offers, serveOffer_push,
    kPop_takes⟩
  simp only [List.mem_cons, List.not_mem_nil, or_false] at hp
  rcases hp with rfl | rfl
  · exact kPush_without n t w s hr
  · exact kPop_without n t w s hr

end Sys2Proof.Proofs
end

section
/-!
PROOFS. The SWAP instruction and the row of F (R251, R252): what an arm by time comes to, that the threads take no part in it, and the ends
of the instructions; SWAP_FIXED.
-/

namespace Sys2Proof.Machine

open Reg

/-! ### The threads take no part in an arm -/

/-- The state with other threads, and elsewhere in the free stream. -/
def State.withThreads (s : State) (ts : Table Thread) (f : Nat) : State := { s with threads := ts, free := f }

section
variable (s : State) (ts : Table Thread) (f : Nat)

theorem State.ite_withThreads (c : Prop) [Decidable c] (u v : State) :
    (if c then u else v).withThreads ts f = if c then u.withThreads ts f else v.withThreads ts f := apply_ite (State.withThreads · ts f) c u v

theorem State.kPaid_eq_withThreads (n t : Nat) : s.kPaid n t = s.withThreads (s.kPaid n t).threads s.free := rfl

theorem State.swapEnd_withThreads (o : Nat) : (s.withThreads ts f).swapEnd o = (s.swapEnd o).withThreads ts f := by
  unfold State.swapEnd
  dsimp only
  rw [State.ite_withThreads]
  exact ite_congr rfl (fun _ => rfl) (fun _ => rfl)

theorem State.swapKey_withThreads (st : Stamp) : (s.withThreads ts f).swapKey st = (s.swapKey st).withThreads ts f := by
  unfold State.swapKey
  dsimp only
  rw [State.ite_withThreads, State.ite_withThreads]
  refine ite_congr rfl (fun _ => rfl) (fun _ => ite_congr rfl (fun _ => rfl) (fun _ => ?_))
  exact (s.setPair SWAP_STAMP_LO SWAP_STAMP_HI st).swapEnd_withThreads ts f 3

theorem State.swapRekey_withThreads (h : Nat) : (s.withThreads ts f).swapRekey h = (s.swapRekey h).withThreads ts f := by
  unfold State.swapRekey
  rw [State.ite_withThreads, State.ite_withThreads]
  refine ite_congr rfl (fun _ => ite_congr rfl (fun _ => rfl) (fun _ => ?_)) (fun _ => rfl)
  have hstamp : (s.withThreads ts f).angleStamp h (s.withThreads ts f).swap.theta (s.withThreads ts f).swap.rev =
      s.angleStamp h s.swap.theta s.swap.rev := rfl
  rw [hstamp]
  cases s.angleStamp h s.swap.theta s.swap.rev with
  | none => rfl
  | some st => exact s.swapKey_withThreads ts f st

end

/-! ### What an arm comes to (R251, R252) -/

/-- The status of the checks of an arm. -/
def State.armCheck (s : State) (kci : Bool) (r : SwapArm) : Nat :=
  if s.swapArmed then 0xE
  else if !s.bit SWAP_STATUS 31 || (kci && !s.bit SWAP_STATUS 30) then 0xC
  else if r.angle then s.angleCheck r.shaft r.qual
  else 0

/-- The state of an accepted arm by angle: its angle is resolved at the present position. -/
def State.armAngled (s : State) (r : SwapArm) : State :=
  let back := s.dirOf r.shaft r.dirq
  let theta := s.resolveAngle r.shaft (s.shPos r.shaft) r.frac r.qual back
  { s with swap := { s.swap with theta := theta, rev := back, dirq := r.dirq, keyed := false } }

/-- The state of an accepted arm, keyed. -/
def State.armKeyed (s : State) (r : SwapArm) : State :=
  if r.angle then ((s.swapSet r).armAngled r).swapRekey r.shaft else (s.swapSet r).swapKey r.stamp

theorem State.swapArm_eq (s : State) (kci : Bool) (r : SwapArm) :
    s.swapArm kci r = if s.armCheck kci r ≠ 0 then (s.armCheck kci r, s)
      else (if (s.armKeyed r).swapArmed then 0 else 0xD, s.armKeyed r) := rfl

theorem State.swapSet_withThreads (s : State) (ts : Table Thread) (f : Nat) (r : SwapArm) :
    (s.withThreads ts f).swapSet r = (s.swapSet r).withThreads ts f := rfl

theorem State.armAngled_withThreads (s : State) (ts : Table Thread) (f : Nat) (r : SwapArm) :
    (s.withThreads ts f).armAngled r = (s.armAngled r).withThreads ts f := by
  have hback : (s.withThreads ts f).dirOf r.shaft r.dirq = s.dirOf r.shaft r.dirq := rfl
  have hpos : (s.withThreads ts f).shPos r.shaft = s.shPos r.shaft := rfl
  have htheta : ∀ pos back, (s.withThreads ts f).resolveAngle r.shaft pos r.frac r.qual back =
      s.resolveAngle r.shaft pos r.frac r.qual back := fun _ _ => rfl
  unfold State.armAngled
  dsimp only
  rw [hback, hpos, htheta]
  rfl

theorem State.armKeyed_withThreads (s : State) (ts : Table Thread) (f : Nat) (r : SwapArm) :
    (s.withThreads ts f).armKeyed r = (s.armKeyed r).withThreads ts f := by
  rw [State.armKeyed, State.swapSet_withThreads, State.armAngled_withThreads, State.swapRekey_withThreads, State.swapKey_withThreads,
    ← State.ite_withThreads, State.armKeyed]

theorem State.swapArm_withThreads (s : State) (ts : Table Thread) (f : Nat) (kci : Bool) (r : SwapArm) :
    (s.withThreads ts f).swapArm kci r = ((s.swapArm kci r).1, (s.swapArm kci r).2.withThreads ts f) := by
  have hcheck : (s.withThreads ts f).armCheck kci r = s.armCheck kci r := rfl
  rw [State.swapArm_eq, State.swapArm_eq, hcheck, State.armKeyed_withThreads]
  by_cases h : s.armCheck kci r ≠ 0
  · rw [if_pos h, if_pos h]
  · rw [if_neg h, if_neg h]
    rfl

/-! ### What an arm and an end leave (R251) -/

/-- `u` has the tick and the power of `s`, and its registers beyond those of the swap. -/
structure State.KeepsBesideSwap (s u : State) : Prop where
  mt : u.mt = s.mt
  power : u.power = s.power
  reg : ∀ a, 0x400 ≤ a → u.reg a = s.reg a

namespace State.KeepsBesideSwap

variable {r s u : State}

theorem refl (s : State) : s.KeepsBesideSwap s := ⟨rfl, rfl, fun _ _ => rfl⟩

theorem trans (h : r.KeepsBesideSwap s) (h' : s.KeepsBesideSwap u) : r.KeepsBesideSwap u :=
  ⟨h'.mt.trans h.mt, h'.power.trans h.power, fun a ha => (h'.reg a ha).trans (h.reg a ha)⟩

theorem same (h : r.KeepsBesideSwap s) (hmt : u.mt = s.mt) (hpower : u.power = s.power) (hreg : ∀ a, u.reg a = s.reg a) : r.KeepsBesideSwap u :=
  h.trans ⟨hmt, hpower, fun a _ => hreg a⟩

theorem setReg (h : r.KeepsBesideSwap s) {a : Nat} (v : Word) (ha : a < 0x400) : r.KeepsBesideSwap (s.setReg a v) :=
  h.trans ⟨rfl, rfl, fun b hb => s.reg_setReg_ne v (by omega)⟩

theorem kciFrame (h : s.KeepsBesideSwap u) (n t : Nat) : KciFrame n t [] s u :=
  ⟨h.mt, h.reg _ (by unfold CL_STATUS; omega), h.reg _ (by unfold TH_STATUS; omega), h.reg _ (by unfold TH_PC; omega),
    fun _ _ _ => h.reg _ (by unfold G; omega)⟩

end State.KeepsBesideSwap

section
variable (s : State)

theorem State.swapEnd_shows (o : Nat) :
    (s.swapEnd o).swapArmed = false ∧ (s.swapEnd o).fld SWAP_STATUS 3 0 = o % 16 ∧
      (s.swapEnd o).bit SWAP_STATUS 31 = s.bit SWAP_STATUS 31 := by
  have hword : (s.swapEnd o).reg SWAP_STATUS = setBits (putBit (putBit (s.reg SWAP_STATUS) 29 false) 28 false) 3 0 o := by
    unfold State.swapEnd
    dsimp only
    split <;> exact State.reg_setReg_self ..
  rw [State.swapArmed, State.bit, State.fld, State.bit, State.bit, hword]
  refine ⟨?_, bitsOf_setBits_self _ _ _ _ (by decide), ?_⟩
  · rw [bitOf_setBits_ne _ _ _ _ _ (by decide), bitOf_putBit_ne _ _ (by decide), bitOf_putBit_self _ _ _ (by decide)]
  · rw [bitOf_setBits_ne _ _ _ _ _ (by decide), bitOf_putBit_ne _ _ (by decide), bitOf_putBit_ne _ _ (by decide)]

theorem State.swapEnd_keepsBesideSwap (o : Nat) : s.KeepsBesideSwap (s.swapEnd o) := by
  unfold State.swapEnd
  dsimp only
  split
  · exact ((State.KeepsBesideSwap.refl s).setReg _ (by decide)).same rfl rfl fun _ => rfl
  · exact (State.KeepsBesideSwap.refl s).setReg _ (by decide)

theorem State.swapStamped_keepsBesideSwap (st : Stamp) : s.KeepsBesideSwap (s.setPair SWAP_STAMP_LO SWAP_STAMP_HI st) := by
  rw [State.setPair]
  exact ((State.KeepsBesideSwap.refl s).setReg _ (by decide)).setReg _ (by decide)

theorem State.swapKey_keepsBesideSwap (st : Stamp) : s.KeepsBesideSwap (s.swapKey st) := by
  have hstamped := s.swapStamped_keepsBesideSwap st
  unfold State.swapKey
  dsimp only
  split
  · exact hstamped.same rfl rfl fun _ => rfl
  · split
    · exact hstamped.same rfl rfl fun _ => rfl
    · exact hstamped.trans (State.swapEnd_keepsBesideSwap _ 3)

theorem State.swapRekey_keepsBesideSwap (h : Nat) : s.KeepsBesideSwap (s.swapRekey h) := by
  have hunkeyed : s.KeepsBesideSwap { s with swap := { s.swap with keyed := false } } := (State.KeepsBesideSwap.refl s).same rfl rfl fun _ => rfl
  unfold State.swapRekey
  split
  · split
    · exact hunkeyed
    · cases s.angleStamp h s.swap.theta s.swap.rev with
      | none => exact hunkeyed
      | some st => exact s.swapKey_keepsBesideSwap st
  · exact .refl s

theorem State.armKeyed_keepsBesideSwap (r : SwapArm) : s.KeepsBesideSwap (s.armKeyed r) := by
  have hset : s.KeepsBesideSwap (s.swapSet r) := (State.KeepsBesideSwap.refl s).setReg _ (by decide)
  unfold State.armKeyed
  split
  · exact (hset.same (u := (s.swapSet r).armAngled r) rfl rfl fun _ => rfl).trans (State.swapRekey_keepsBesideSwap _ _)
  · exact hset.trans (State.swapKey_keepsBesideSwap _ _)

theorem State.swapArm_keepsBesideSwap (kci : Bool) (r : SwapArm) : s.KeepsBesideSwap (s.swapArm kci r).2 := by
  rw [State.swapArm_eq]
  split
  · exact .refl s
  · exact s.armKeyed_keepsBesideSwap r

theorem State.swapArm_status_lt (kci : Bool) (r : SwapArm) : (s.swapArm kci r).1 < 16 := by
  have hangle := s.angleCheck_lt r.shaft r.qual
  rw [State.swapArm_eq]
  by_cases h : s.armCheck kci r ≠ 0
  · rw [if_pos h]
    unfold State.armCheck
    repeat' split
    all_goals omega
  · rw [if_neg h]
    dsimp only
    split <;> decide

end

/-! ### Arms by time (R252) -/

section
variable {s : State} {r : SwapArm}

/-- SWAP_STATUS once a swap is armed. -/
theorem State.swapSet_shows (s : State) (r : SwapArm) :
    (s.swapSet r).bit SWAP_STATUS 29 = true ∧ (s.swapSet r).bit SWAP_STATUS 27 = r.purge ∧ (s.swapSet r).bit SWAP_STATUS 26 = r.lateOk ∧
      (s.swapSet r).bit SWAP_STATUS 31 = s.bit SWAP_STATUS 31 ∧ (s.swapSet r).mt = s.mt := by
  simp only [State.swapSet, State.bit, State.reg_setReg_self]
  refine ⟨?_, ?_, ?_, ?_, State.setReg_mt ..⟩ <;>
    simp (disch := decide) only [bitOf_setBits_ne, bitOf_putBit_ne, bitOf_putBit_self]

theorem State.armCheck_armed (kci : Bool) (h : s.swapArmed = true) : s.armCheck kci r = 0xE := if_pos h

theorem State.armCheck_unstaged (ha : s.swapArmed = false) (h : s.bit SWAP_STATUS 31 = false ∨ s.bit SWAP_STATUS 30 = false) :
    s.armCheck true r = 0xC := by
  rw [State.armCheck, ha, if_neg (by decide)]
  rcases h with h | h <;> simp [h]

theorem State.armCheck_time (kci : Bool) (ha : s.swapArmed = false) (h31 : s.bit SWAP_STATUS 31 = true) (h30 : s.bit SWAP_STATUS 30 = true)
    (ht : r.angle = false) : s.armCheck kci r = 0 := by
  rw [State.armCheck, ha, h31, h30, ht]
  cases kci <;> rfl

theorem State.status_swapStamped (s : State) (st : Stamp) :
    (s.setPair SWAP_STAMP_LO SWAP_STAMP_HI st).reg SWAP_STATUS = s.reg SWAP_STATUS := State.reg_setPair_ne _ _ (by decide) (by decide)

/-- The swap stamp as an armed swap takes it: with F ahead, late, or missed. -/
theorem State.swapKey_shows {s : State} (st : Stamp) (harmed : s.swapArmed = true) :
    let tick := s.tickFor (st + 63)
    let u := s.swapKey st
    if 0 < ahead (tick - 256) s.mt then u.swapArmed = true ∧ u.swap.fTick = tick - 256 ∧ u.swap.tTick = tick ∧
        u.bit SWAP_STATUS 27 = s.bit SWAP_STATUS 27 ∧ u.bit SWAP_STATUS 26 = s.bit SWAP_STATUS 26
    else if s.bit SWAP_STATUS 26 = true then u.swapArmed = true ∧ u.swap.fTick = s.mt ∧ u.swap.tTick = s.mt + 256 ∧ u.swap.late = true
    else u.swapArmed = false ∧ u.fld SWAP_STATUS 3 0 = 3 ∧ u.bit SWAP_STATUS 31 = s.bit SWAP_STATUS 31 := by
  have hstatus := s.status_swapStamped st
  have hbit : ∀ i, (s.setPair SWAP_STAMP_LO SWAP_STAMP_HI st).bit SWAP_STATUS i = s.bit SWAP_STATUS i := fun i => by
    rw [State.bit, hstatus, State.bit]
  intro tick u
  split
  · next h =>
    have hu : u = { s.setPair SWAP_STAMP_LO SWAP_STAMP_HI st with
      swap := { s.swap with stamp := st, keyed := true, late := false, fTick := tick - 256, tTick := tick } } := if_pos h
    rw [hu]
    exact ⟨(hbit 29).trans harmed, rfl, rfl, hbit 27, hbit 26⟩
  · next h =>
    split
    · next h26 =>
      have hu : u = { s.setPair SWAP_STAMP_LO SWAP_STAMP_HI st with
        swap := { s.swap with stamp := st, keyed := true, late := true, fTick := s.mt, tTick := s.mt + 256 } } :=
        (if_neg h).trans (if_pos ((hbit 26).trans h26))
      rw [hu]
      exact ⟨(hbit 29).trans harmed, rfl, rfl, rfl⟩
    · next h26 =>
      have hu : u = (s.setPair SWAP_STAMP_LO SWAP_STAMP_HI st).swapEnd 3 := (if_neg h).trans (if_neg (fun hb => h26 ((hbit 26).symm.trans hb)))
      obtain ⟨hunarmed, houtcome, hstaged⟩ := State.swapEnd_shows (s.setPair SWAP_STAMP_LO SWAP_STAMP_HI st) 3
      rw [hu]
      exact ⟨hunarmed, houtcome, hstaged.trans (hbit 31)⟩

end

/-! ### The instructions (R251) -/

@[simp] theorem State.setRw_swap (s : State) (a : Nat) (v : Word) : (s.setRw a v).swap = s.swap := rfl

@[simp] theorem State.setSt_swap (s : State) (n t st : Nat) : (s.setSt n t st).swap = s.swap := by rw [State.setSt, State.setRw_swap]

theorem testBit_kFnI (w : Word) {i : Nat} (h : i < 5) : (kFnI w).testBit i = w.getLsbD (12 + i) := by
  rw [kFnI, testBit_bitsOf, decide_eq_true (by omega), Bool.true_and]

/-- What a SWAP ARM asks for. -/
def State.kArm (s : State) (n t : Nat) (w : Word) : SwapArm :=
  ⟨w.getLsbD 14, s.thStamp n t, s.g n t (kA w), s.g n t (kA w + 1), s.kShaft n t w, bitsOf w 6 5, w.getLsbD 15, w.getLsbD 16⟩

theorem State.kEffect_swapArm (s : State) (n t : Nat) (w : Word) : (s.kPaid n t).kEffect n t w .swapArm =
    (((s.swapArm true (s.kArm n t w)).2.withThreads (s.kPaid n t).threads s.free).setSt n t (s.swapArm true (s.kArm n t w)).1, .next) := by
  have harm : (⟨w.getLsbD 14, s.thStamp n t, s.g n t (kA w), s.g n t (kA w + 1), s.kShaft n t w, bitsOf w 6 5, w.getLsbD 15,
      w.getLsbD 16⟩ : SwapArm) = s.kArm n t w := rfl
  simp only [State.kEffect, State.kSwapArm, testBit_kFnI w (i := 2) (by decide), testBit_kFnI w (i := 3) (by decide),
    testBit_kFnI w (i := 4) (by decide), State.thStamp_kPaid, State.g_kPaid, State.kShaft_kPaid]
  have hpaid := s.swapArm_withThreads (s.kPaid n t).threads s.free true (s.kArm n t w)
  rw [← s.kPaid_eq_withThreads n t] at hpaid
  rw [harm, hpaid]

/-- A SWAP ARM leaves what the arm comes to. -/
theorem exec_kSwapArm (n : Fin 24) {t : Nat} {w : Word} {s : State} (hr : s.kciRuns n t w .swapArm) :
    ∃ u, exec (.kSwapArm n) s = .next u ∧ s.kciEnds u n t (s.thPc n t + 4) ∧ u.thSt n t = (s.swapArm true (s.kArm n t w)).1 ∧
      u.swap = (s.swapArm true (s.kArm n t w)).2.swap ∧
      (∀ a, a < 0x1000000 → u.reg a = (s.swapArm true (s.kArm n t w)).2.reg a) ∧ s.keepsG u n t [] := by
  have hkeeps : s.KeepsBesideSwap ((s.swapArm true (s.kArm n t w)).2.withThreads (s.kPaid n t).threads s.free) :=
    (s.swapArm_keepsBesideSwap true (s.kArm n t w)).same rfl rfl fun _ => rfl
  obtain ⟨u, hu, hends, hg, hk⟩ := exec_kci_next4 (i := .kSwapArm n) rfl hr rfl (s.kEffect_swapArm n t w)
    ((hkeeps.kciFrame n t).setSt (s.swapArm true (s.kArm n t w)).1)
  refine ⟨u, hu, hends, hk.thSt.trans (State.thSt_setSt _ _ _ (s.swapArm_status_lt _ _)), ?_, fun a ha => ?_, hg⟩
  · rw [hk.swap, State.setSt_swap]
    rfl
  · rw [hk.below ha, State.reg_setSt_below _ _ _ _ ha]
    rfl

end Sys2Proof.Machine

namespace Sys2Proof.Proofs

open Sys2Proof.Machine Sys2Proof.Machine.Reg

/-- An arm that its check refuses changes nothing but the status. -/
theorem kSwapArm_refused (n : Fin 24) {t : Nat} {w : Word} {s : State} (hr : s.kciRuns n t w .swapArm) {st : Nat}
    (hst : s.armCheck true (s.kArm n t w) = st) (h0 : st ≠ 0) :
    ∃ u, exec (.kSwapArm n) s = .next u ∧ s.kciEnds u n t (s.thPc n t + 4) ∧ u.thSt n t = st ∧
      u.reg SWAP_STATUS = s.reg SWAP_STATUS := by
  have harm : s.swapArm true (s.kArm n t w) = (st, s) := by
    rw [State.swapArm_eq, hst, if_pos h0]
  obtain ⟨u, hu, hends, hstatus, -, hreg, -⟩ := exec_kSwapArm n hr
  rw [harm] at hstatus hreg
  exact ⟨u, hu, hends, hstatus, hreg _ (by decide)⟩

/-- An arm by time: ahead, late, or missed (R252). -/
theorem kSwapArm_byTime (n : Fin 24) (t : Nat) (w : Word) (s : State) (hr : s.kciRuns n t w .swapArm) (ha : s.swapArmed = false)
    (h31 : s.bit SWAP_STATUS 31 = true) (h30 : s.bit SWAP_STATUS 30 = true) (hw : w.getLsbD 14 = false) :
    let tick := s.tickFor (s.thStamp n t + 63)
    ∃ u, exec (.kSwapArm n) s = .next u ∧ s.kciEnds u n t (s.thPc n t + 4) ∧
      (if 0 < ahead (tick - 256) s.mt then u.thSt n t = 0 ∧ u.swapArmed = true ∧ u.swap.fTick = tick - 256 ∧ u.swap.tTick = tick ∧
         u.bit SWAP_STATUS 27 = w.getLsbD 15 ∧ u.bit SWAP_STATUS 26 = w.getLsbD 16
       else if w.getLsbD 16 = true then u.thSt n t = 0 ∧ u.swapArmed = true ∧ u.swap.fTick = s.mt ∧ u.swap.tTick = s.mt + 256 ∧
         u.swap.late = true
       else u.thSt n t = 0xD ∧ u.swapArmed = false ∧ u.fld SWAP_STATUS 3 0 = 3 ∧ u.bit SWAP_STATUS 31 = true) := by
  intro tick
  have hangle : (s.kArm n t w).angle = false := hw
  have hkeyed : s.armKeyed (s.kArm n t w) = (s.swapSet (s.kArm n t w)).swapKey (s.thStamp n t) := by
    rw [State.armKeyed, hangle, if_neg (by decide), State.kArm]
  have harm : s.swapArm true (s.kArm n t w) = (if (s.armKeyed (s.kArm n t w)).swapArmed then 0 else 0xD, s.armKeyed (s.kArm n t w)) := by
    rw [State.swapArm_eq, State.armCheck_time true ha h31 h30 hangle, if_neg (fun h => h rfl)]
  obtain ⟨hset29, hset27, hset26, hset31, hsetmt⟩ := s.swapSet_shows (s.kArm n t w)
  obtain ⟨u, hu, hends, hst, hswap, hreg, -⟩ := exec_kSwapArm n hr
  rw [harm, hkeyed] at hst hswap hreg
  have hshows := State.swapKey_shows (s.thStamp n t) (show (s.swapSet (s.kArm n t w)).swapArmed = true from hset29)
  have htick : (s.swapSet (s.kArm n t w)).tickFor (s.thStamp n t + 63) = tick := rfl
  have hlate : (s.kArm n t w).lateOk = w.getLsbD 16 := rfl
  have hpurge : (s.kArm n t w).purge = w.getLsbD 15 := rfl
  simp only [htick, hsetmt, hset27, hset26, hset31, hlate, hpurge, h31] at hshows
  refine ⟨u, hu, hends, ?_⟩
  have hbit : ∀ i, u.bit SWAP_STATUS i = ((s.swapSet (s.kArm n t w)).swapKey (s.thStamp n t)).bit SWAP_STATUS i := fun i => by
    rw [State.bit, hreg SWAP_STATUS (by decide), State.bit]
  have hfld : u.fld SWAP_STATUS 3 0 = ((s.swapSet (s.kArm n t w)).swapKey (s.thStamp n t)).fld SWAP_STATUS 3 0 := by
    rw [State.fld, hreg SWAP_STATUS (by decide), State.fld]
  have harmed' : u.swapArmed = ((s.swapSet (s.kArm n t w)).swapKey (s.thStamp n t)).swapArmed := hbit 29
  rw [hst, hswap, harmed', hbit, hbit, hbit, hfld]
  generalize (s.swapSet (s.kArm n t w)).swapKey (s.thStamp n t) = k at hshows ⊢
  split
  · next hahead =>
    rw [if_pos hahead] at hshows
    obtain ⟨harmed, hrest⟩ := hshows
    exact ⟨if_pos harmed, harmed, hrest⟩
  · next hahead =>
    rw [if_neg hahead] at hshows
    split
    · next h16 =>
      rw [if_pos h16] at hshows
      obtain ⟨harmed, hrest⟩ := hshows
      exact ⟨if_pos harmed, harmed, hrest⟩
    · next h16 =>
      rw [if_neg h16] at hshows
      obtain ⟨hunarmed, hrest⟩ := hshows
      exact ⟨if_neg (by rw [hunarmed]; decide), hunarmed, hrest⟩

/-- DISARM: refused once FIXED, an end of an armed swap, else nothing. -/
theorem kSwapDisarm_disarms (n : Fin 24) (t : Nat) (w : Word) (s : State) (hr : s.kciRuns n t w .swapDisarm) :
    ∃ u, exec (.kSwapDisarm n) s = .next u ∧ s.kciEnds u n t (s.thPc n t + 4) ∧
      (if s.swapFixed = true then u.thSt n t = 0xC ∧ u.reg SWAP_STATUS = s.reg SWAP_STATUS
       else if s.swapArmed = true then u.thSt n t = 0 ∧ u.swapArmed = false ∧ u.fld SWAP_STATUS 3 0 = 5
       else u.thSt n t = 0 ∧ u.reg SWAP_STATUS = s.reg SWAP_STATUS) := by
  have hends : ∀ (p : State) (st : Nat), st < 16 → (s.kPaid n t).swapDisarm = (st, p) → s.KeepsBesideSwap p →
      ∃ u, exec (.kSwapDisarm n) s = .next u ∧ s.kciEnds u n t (s.thPc n t + 4) ∧ u.thSt n t = st ∧
        u.reg SWAP_STATUS = p.reg SWAP_STATUS := by
    intro p st hlt he hkeeps
    have heffect : (s.kPaid n t).kEffect n t w .swapDisarm = (p.setSt n t st, .next) := by
      simp only [State.kEffect, State.kSwapDisarm, he]
    obtain ⟨u, hu, hend, -, hk⟩ := exec_kci_next4 (i := .kSwapDisarm n) rfl hr rfl heffect ((hkeeps.kciFrame n t).setSt st)
    refine ⟨u, hu, hend, hk.thSt.trans (State.thSt_setSt _ _ _ hlt), ?_⟩
    rw [hk.below (by decide), State.reg_setSt_below _ _ _ _ (by decide)]
  have hpaid : s.KeepsBesideSwap (s.kPaid n t) := (State.KeepsBesideSwap.refl s).same rfl rfl fun _ => rfl
  split
  · next hfixed => exact hends (s.kPaid n t) 0xC (by decide) (if_pos hfixed) hpaid
  · next hfixed =>
    split
    · next harmed =>
      obtain ⟨hunarmed, houtcome, -⟩ := (s.kPaid n t).swapEnd_shows 5
      obtain ⟨u, hu, hend, hst, hreg⟩ := hends ((s.kPaid n t).swapEnd 5) 0 (by decide) ((if_neg hfixed).trans (if_pos harmed))
        (hpaid.trans ((s.kPaid n t).swapEnd_keepsBesideSwap 5))
      refine ⟨u, hu, hend, hst, ?_, ?_⟩
      · rw [State.swapArmed, State.bit, hreg]; exact hunarmed
      · rw [State.fld, hreg]; exact houtcome
    · next harmed => exact hends (s.kPaid n t) 0 (by decide) ((if_neg hfixed).trans (if_neg harmed)) hpaid

theorem kSwapQuery_reads (n : Fin 24) (t : Nat) (w : Word) (s : State) (hr : s.kciRuns n t w .swapQuery) :
    ∃ u, exec (.kSwapQuery n) s = .next u ∧ s.kciEnds u n t (s.thPc n t + 4) ∧ u.g n t (kD w) = s.reg SWAP_STATUS ∧
      u.reg (TH_FLAGS n t) = s.reg (TH_FLAGS n t) ∧ s.keepsG u n t [kD w] := by
  obtain ⟨u, hu, hends, hg, hk⟩ := exec_kci_next4 (i := .kSwapQuery n) (r := (s.kPaid n t).setG n t (kD w) (s.reg SWAP_STATUS)) rfl hr rfl rfl
    ((s.kPaid_frame n t [kD w]).setG _ List.mem_cons_self)
  refine ⟨u, hu, hends, ?_, ?_, hg⟩
  · rw [hk.g, State.g_setG_self]
  · rw [hk.flags, State.flags_setG, State.reg_kPaid]

end Sys2Proof.Proofs
end

section
/-!
PROOFS. A thread that is stopped (R212, R213): its access is completed or dropped, it leaves the engine, and it is HALTED; what of the state
that touches.
-/

namespace Sys2Proof.Machine

open Reg

/-- `u` is `s` but for the reservoir and for RESV_UE with its event. -/
structure State.Stores (s u : State) : Prop where
  shape : u = { s with reservoir := u.reservoir, poison := u.poison, regs := u.regs, irqEvents := u.irqEvents }
  reg : ∀ a, a ≠ GSTAT → u.reg a = s.reg a
  gstat : ∀ i, i ≠ 7 → u.bit GSTAT i = s.bit GSTAT i

section
variable (s : State) (n t : Nat)

theorem State.Stores.refl : s.Stores s := ⟨rfl, fun _ _ => rfl, fun _ _ => rfl⟩

theorem State.stores_setResvUe : s.Stores s.setResvUe := by
  refine ⟨?_, fun a ha => s.reg_setResvUe_ne ha, fun i hi => ?_⟩
  · rw [s.setResvUe_eq]
  · unfold State.setResvUe
    split
    · rfl
    · exact s.bit_setBit_ne GSTAT true hi

theorem State.stores_resStore (addr sz v : Nat) : s.Stores (s.resStore addr sz v).2 := by
  unfold State.resStore
  split
  · exact ⟨rfl, fun _ _ => rfl, fun _ _ => rfl⟩
  · split
    · exact s.stores_setResvUe
    · exact ⟨rfl, fun _ _ => rfl, fun _ _ => rfl⟩

/-- The access of a thread that is stopped: a store that is under way completes (R212). -/
def State.stopAccess : State :=
  match (s.thread n t).wait with
  | .access 6 sz addr d _ _ => if (s.thread n t).metAt.isNone then (s.doAccess n t 6 sz addr d).2 else s
  | .access 7 _ addr d _ _ =>
    if (s.thread n t).metAt.isSome then s
    else if s.resPoisoned addr 4 then s.setResvUe
    else s.resWrite addr ((s.resRead addr 4 + (s.g n t d).toNat) % 2 ^ 32) 4
  | _ => s

theorem State.stores_stopAccess : s.Stores (s.stopAccess n t) := by
  unfold State.stopAccess
  split
  · split
    · exact s.stores_resStore _ _ _
    · exact .refl s
  · split
    · exact .refl s
    · split
      · exact s.stores_setResvUe
      · exact ⟨rfl, fun _ _ => rfl, fun _ _ => rfl⟩
  · exact .refl s

/-- The state of a stopped thread as it has left the engine. -/
def State.stopLeft : State :=
  let u := (s.stopAccess n t).setThread n t { Thread.init with upc := (s.thread n t).upc }
  (if u.runningThread n == some t then u.setRunning n none else u).dropSwitch n t

theorem State.stopThread_eq : s.stopThread n t = (s.stopLeft n t).setThState n t thHalted 0 := rfl

/-- `u` is `s` but for the engine and the threads of cluster `n`, the reservoir, RESV_UE and its event, and CL_STATUS; the engine's bank
stays. -/
structure State.StopLeaves (n : Nat) (s u : State) : Prop where
  shape : u = { s with reservoir := u.reservoir, poison := u.poison, regs := u.regs, irqEvents := u.irqEvents, threads := u.threads,
                       engines := u.engines }
  reg : ∀ a, a ≠ GSTAT → a ≠ CL_STATUS n → u.reg a = s.reg a
  gstat : ∀ i, i ≠ 7 → u.bit GSTAT i = s.bit GSTAT i
  bank : (u.engine n).bank = (s.engine n).bank
  engine : ∀ m, m ≠ n → u.engine m = s.engine m

namespace State.StopLeaves

variable {n} {r s u : State}

theorem trans (h : StopLeaves n r s) (h' : StopLeaves n s u) : StopLeaves n r u := by
  refine ⟨?_, fun a hg hc => (h'.reg a hg hc).trans (h.reg a hg hc), fun i hi => (h'.gstat i hi).trans (h.gstat i hi),
    h'.bank.trans h.bank, fun m hm => (h'.engine m hm).trans (h.engine m hm)⟩
  rw [h'.shape, h.shape]

end State.StopLeaves

theorem State.Stores.stopLeaves {s u : State} (h : s.Stores u) (n : Nat) : StopLeaves n s u := by
  refine ⟨?_, fun a ha _ => h.reg a ha, h.gstat, ?_, fun m _ => ?_⟩ <;> rw [h.shape] <;> rfl

theorem State.stopLeaves_setReg {c : Nat} (v : Word) (hc : c = CL_STATUS n) : StopLeaves n s (s.setReg c v) :=
  ⟨rfl, fun _ _ ha => State.reg_setReg_ne _ _ (hc ▸ ha),
    fun i _ => congrArg (bitOf · i) (State.reg_setReg_ne _ _ (by rw [hc]; unfold GSTAT CL_STATUS; omega)), rfl, fun _ _ => rfl⟩

theorem State.stopLeaves_setRunning (o : Option Nat) : StopLeaves n s (s.setRunning n o) := by
  rw [State.setRunning]
  exact s.stopLeaves_setReg n _ rfl

theorem State.stopLeaves_dropSwitch : StopLeaves n s (s.dropSwitch n t) := by
  unfold State.dropSwitch
  dsimp only
  split
  · refine ⟨rfl, fun _ _ _ => rfl, fun _ _ => rfl, ?_, fun m hm => s.engine_setEngine_ne _ hm⟩
    rw [State.engine_setEngine_self]
  · exact ⟨rfl, fun _ _ _ => rfl, fun _ _ => rfl, rfl, fun _ _ => rfl⟩

theorem State.stopLeaves_stopLeft : StopLeaves n s (s.stopLeft n t) := by
  have hthread : StopLeaves n (s.stopAccess n t)
      ((s.stopAccess n t).setThread n t { Thread.init with upc := (s.thread n t).upc }) :=
    ⟨rfl, fun _ _ _ => rfl, fun _ _ => rfl, rfl, fun _ _ => rfl⟩
  have hbase := ((s.stores_stopAccess n t).stopLeaves n).trans hthread
  unfold State.stopLeft
  dsimp only
  split
  · exact (hbase.trans (State.stopLeaves_setRunning _ n none)).trans (State.stopLeaves_dropSwitch _ n t)
  · exact hbase.trans (State.stopLeaves_dropSwitch _ n t)

theorem State.thState_stopThread : (s.stopThread n t).thState n t = thHalted := by
  rw [s.stopThread_eq n t]
  exact State.thState_setThState _ n t 0 (by decide)

theorem State.reg_stopThread_ne {a : Nat} (hg : a ≠ GSTAT) (hc : a ≠ CL_STATUS n) (ht : a ≠ TH_STATUS n t) :
    (s.stopThread n t).reg a = s.reg a := by
  rw [s.stopThread_eq n t, State.reg_setThState_ne _ n t _ _ ht]
  exact (s.stopLeaves_stopLeft n t).reg a hg hc

/-- A thread that is stopped leaves GSTAT but for RESV_UE. -/
theorem State.gstat_stopThread {i : Nat} (hi : i ≠ 7) : (s.stopThread n t).bit GSTAT i = s.bit GSTAT i := by
  rw [s.stopThread_eq n t, State.bit, State.reg_setThState_ne _ n t _ _ (by unfold GSTAT TH_STATUS; omega)]
  exact (s.stopLeaves_stopLeft n t).gstat i hi

theorem State.stopThread_shape : ∃ rv ps rg ie ts es, s.stopThread n t =
    { s with reservoir := rv, poison := ps, regs := rg, irqEvents := ie, threads := ts, engines := es } := by
  rw [s.stopThread_eq n t, State.setThState, (s.stopLeaves_stopLeft n t).shape]
  exact ⟨_, _, _, _, _, _, rfl⟩

theorem State.bank_stopThread : ((s.stopThread n t).engine n).bank = (s.engine n).bank := by
  rw [s.stopThread_eq n t, State.setThState, State.engine_setReg]
  exact (s.stopLeaves_stopLeft n t).bank

theorem State.engine_stopThread_ne {m : Nat} (h : m ≠ n) : (s.stopThread n t).engine m = s.engine m := by
  rw [s.stopThread_eq n t, State.setThState, State.engine_setReg]
  exact (s.stopLeaves_stopLeft n t).engine m h

end

end Sys2Proof.Machine
end

section
/-!
PROOFS. SWAP_TICK (R254): what halting a thread leaves, the contexts that the threads of a cluster take, the order of its steps; then the
statement about the swap.
-/

namespace Sys2Proof.Machine

open Reg

/-! ### Writes of the engine to different registers (R407) -/

section
variable (s : State)

theorem State.foldl_setReg_shape (l : List (Nat × Word)) : ∃ rs, l.foldl (fun s e => s.setReg e.1 e.2) s = { s with regs := rs } := by
  induction l generalizing s with
  | nil => exact ⟨s.regs, rfl⟩
  | cons e l ih =>
    obtain ⟨rs, h⟩ := ih (s.setReg e.1 e.2)
    exact ⟨rs, by rw [List.foldl_cons, h]; rfl⟩

theorem State.reg_foldl_setReg_ne {l : List (Nat × Word)} {a : Nat} (h : ∀ e ∈ l, e.1 ≠ a) :
    (l.foldl (fun s e => s.setReg e.1 e.2) s).reg a = s.reg a := by
  induction l generalizing s with
  | nil => rfl
  | cons e l ih =>
    rw [List.foldl_cons, ih _ fun x hx => h x (List.mem_cons_of_mem _ hx)]
    exact State.reg_setReg_ne _ _ (h e List.mem_cons_self).symm

/-- Of writes to different registers each stays. -/
theorem State.reg_foldl_setReg {l : List (Nat × Word)} {a : Nat} {v : Word} (hl : (l.map Prod.fst).Nodup) (h : (a, v) ∈ l) :
    (l.foldl (fun s e => s.setReg e.1 e.2) s).reg a = v := by
  induction l generalizing s with
  | nil => exact absurd h List.not_mem_nil
  | cons e l ih =>
    rw [List.map_cons, List.nodup_cons] at hl
    rw [List.foldl_cons]
    rcases List.mem_cons.1 h with rfl | h
    · rw [State.reg_foldl_setReg_ne _ fun x hx hxa => hl.1 (List.mem_map.2 ⟨x, hx, hxa⟩), State.reg_setReg_self]
    · exact ih _ hl.2 h

/-- A write that must wait is kept for later, and its register is as it was. -/
theorem State.engineWrites_waits {l : List (Nat × Word)} {a : Nat} {v : Word} (h : (a, v) ∈ l) (hw : s.wroteNow a = true) :
    LateWrite.engine a v ∈ (s.engineWrites l).later ∧ (s.engineWrites l).reg a = s.reg a := by
  refine ⟨?_, ?_⟩
  · exact List.mem_append_right _ (List.mem_map.2 ⟨(a, v), List.mem_filter.2 ⟨h, hw⟩, rfl⟩)
  · refine Eq.trans (b := ((l.filter fun e => !s.wroteNow e.1).foldl (fun s e => s.setReg e.1 e.2) s).reg a) rfl
      (s.reg_foldl_setReg_ne fun e he hea => ?_)
    have hfree := (List.mem_filter.1 he).2
    rw [hea, hw] at hfree
    exact absurd hfree (by decide)

/-- The state with the writes `l` noted in the present tick. -/
def State.wroteAll (s : State) (l : List Nat) (tick : Tick) : State := { s with wroteTick := tick, wrote := l }

theorem State.reg_wroteAll (l : List Nat) (tick : Tick) (a : Nat) : (s.wroteAll l tick).reg a = s.reg a := rfl

/-- Writes to registers that have taken none in the tick all commit. -/
theorem State.engineWrites_commit {l : List (Nat × Word)} (h : ∀ e ∈ l, s.wroteNow e.1 = false) :
    s.engineWrites l = (l.foldl (fun s e => s.setReg e.1 e.2) s).wroteAll
      (l.map Prod.fst ++ (if s.wroteTick = s.mt then s.wrote else [])) s.mt := by
  have hgo : l.filter (fun e => !s.wroteNow e.1) = l := List.filter_eq_self.2 fun e he => by rw [h e he]; rfl
  have hwait : l.filter (fun e => s.wroteNow e.1) = [] := List.filter_eq_nil_iff.2 fun e he => by rw [h e he]; decide
  obtain ⟨rs, hrs⟩ := s.foldl_setReg_shape l
  rw [State.engineWrites, hgo, hwait, List.map_nil, List.append_nil, hrs]
  rfl

end

/-! ### Reloads of registers -/

/-- `u` has the tick and the swap of `s`, and its registers that are not in `P`, written in the tick or not. -/
structure State.Reloads (P : Nat → Prop) (s u : State) : Prop where
  mt : u.mt = s.mt
  swap : u.swap = s.swap
  reg : ∀ a, ¬ P a → u.reg a = s.reg a
  wrote : ∀ a, ¬ P a → u.wroteNow a = s.wroteNow a

namespace State.Reloads

variable {P Q : Nat → Prop} {r s u : State}

theorem refl (s : State) : s.Reloads P s := ⟨rfl, rfl, fun _ _ => rfl, fun _ _ => rfl⟩

theorem trans (h : r.Reloads P s) (h' : s.Reloads P u) : r.Reloads P u :=
  ⟨h'.mt.trans h.mt, h'.swap.trans h.swap, fun a ha => (h'.reg a ha).trans (h.reg a ha), fun a ha => (h'.wrote a ha).trans (h.wrote a ha)⟩

theorem mono (h : s.Reloads P u) (hPQ : ∀ a, P a → Q a) : s.Reloads Q u :=
  ⟨h.mt, h.swap, fun a ha => h.reg a fun hp => ha (hPQ a hp), fun a ha => h.wrote a fun hp => ha (hPQ a hp)⟩

end State.Reloads

/-- With no swap list, a register is written by what the tick and the writes that wait hold. -/
theorem State.wroteNow_of_no_list {s : State} (h : s.swap.list = []) (a : Nat) :
    s.wroteNow a = ((s.wroteTick == s.mt && s.wrote.contains a) || s.later.any (fun w => w.addr == some a)) := by
  simp only [State.wroteNow, State.tookNow, State.wroteAlready, h, List.any_nil, Bool.and_false, Bool.or_false]

theorem State.wroteNow_congr {s u : State} (h : s.swap.list = []) (hswap : u.swap = s.swap) (hmt : u.mt = s.mt)
    (htick : u.wroteTick = s.wroteTick) (hwrote : u.wrote = s.wrote) (hlater : u.later = s.later) (a : Nat) :
    u.wroteNow a = s.wroteNow a := by
  rw [State.wroteNow_of_no_list (hswap.symm ▸ h), State.wroteNow_of_no_list h, hmt, htick, hwrote, hlater]

/-- Whether a register is written depends on the status of the swap, its list, the tick, and the writes of the tick and those that wait. -/
theorem State.wroteNow_of_eq {s u : State} (hst : u.reg SWAP_STATUS = s.reg SWAP_STATUS) (hswap : u.swap = s.swap) (hmt : u.mt = s.mt)
    (hlater : u.later = s.later) {a : Nat} (hwrote : u.wroteAlready a = s.wroteAlready a) : u.wroteNow a = s.wroteNow a := by
  rw [State.wroteNow, State.tookNow, State.bit, hst, hswap, hmt, hlater, hwrote]
  rfl

/-- Steps that reload different registers, one after the other: what each has loaded stays, as long as the registers it takes had none of
their writes in the tick. -/
theorem State.reloads_foldl {β : Type} {f : State → β → State} {P : β → Nat → Prop} {F : Nat → Prop} {Q : β → State → Prop}
    (hstep : ∀ b s, (∀ a, P b a → F a → s.wroteNow a = false) → s.Reloads (P b) (f s b) ∧ Q b (f s b))
    (hQ : ∀ b R s u, (∀ a, P b a → ¬ R a) → s.Reloads R u → Q b s → Q b u) :
    ∀ (l : List β) (s : State), l.Pairwise (fun b c => ∀ a, P b a → ¬ P c a) →
      (∀ b ∈ l, ∀ a, P b a → F a → s.wroteNow a = false) →
      s.Reloads (fun a => ∃ b ∈ l, P b a) (l.foldl f s) ∧ ∀ b ∈ l, Q b (l.foldl f s) := by
  intro l
  induction l with
  | nil => exact fun s _ _ => ⟨.refl s, fun b hb => absurd hb List.not_mem_nil⟩
  | cons b l ih =>
    intro s hl hfree
    rw [List.pairwise_cons] at hl
    obtain ⟨hreloads, hloaded⟩ := hstep b s (hfree b List.mem_cons_self)
    obtain ⟨hrest, hall⟩ := ih (f s b) hl.2 fun c hc a ha hF =>
      (hreloads.wrote a fun hb => hl.1 c hc a hb ha).trans (hfree c (List.mem_cons_of_mem _ hc) a ha hF)
    refine ⟨(hreloads.mono fun a ha => ⟨b, List.mem_cons_self, ha⟩).trans
      (hrest.mono fun a ⟨c, hc, ha⟩ => ⟨c, List.mem_cons_of_mem _ hc, ha⟩), fun c hc => ?_⟩
    rcases List.mem_cons.1 hc with rfl | hc
    · exact hQ c _ _ _ (fun a ha ⟨d, hd, had⟩ => hl.1 d hd a ha had) hrest hloaded
    · exact hall c hc

/-! ### The context of a thread (R254) -/

/-- The block of the registers of thread `t` of cluster `n`, and that of the threads of the cluster. -/
def threadBase (n t : Nat) : Nat := 0x1006000 + n * 0x100000 + t * 0x100
def inThread (n t a : Nat) : Prop := threadBase n t ≤ a ∧ a < threadBase n t + 0x100
def inThreads (n a : Nat) : Prop := 0x1006000 + n * 0x100000 ≤ a ∧ a < 0x1007000 + n * 0x100000

/-- The places of a context in the block of its thread. -/
def contextPlaces : List Nat := (List.range 16).map (fun i => 0x40 + i * 4) ++ [0x10, 0x18, 0x1C, 0x08, 0x00, 0x0C]

theorem contextPlaces_nodup : contextPlaces.Nodup := by decide

theorem contextPlaces_lt {o : Nat} (h : o ∈ contextPlaces) : o < 0x100 ∧ o ≠ 4 := by
  have hall : ∀ o ∈ contextPlaces, o < 0x100 ∧ o ≠ 4 := by decide
  exact hall o h

/-- The registers that a context takes. -/
def inContext (a : Nat) : Prop := ∃ n t o, o ∈ contextPlaces ∧ a = threadBase n t + o

theorem State.map_fst_threadContext (s : State) (n t : Nat) (st : Stamp) (w : Word) :
    (s.threadContext n t st w).map Prod.fst = contextPlaces.map (threadBase n t + ·) := by
  have hG : ∀ i, G n t i = threadBase n t + (0x40 + i * 4) := fun i => by unfold G threadBase; omega
  have hrest : [TH_FLAGS n t, TH_STAMP_LO n t, TH_STAMP_HI n t, TH_PC n t, TH_CTRL n t, TH_BIND n t] =
      [0x10, 0x18, 0x1C, 0x08, 0x00, 0x0C].map (threadBase n t + ·) := by
    simp only [List.map_cons, List.map_nil, List.cons.injEq, and_true]
    unfold TH_FLAGS TH_STAMP_LO TH_STAMP_HI TH_PC TH_CTRL TH_BIND threadBase
    omega
  rw [State.threadContext, contextPlaces, List.map_append, List.map_append, ← hrest, List.map_map, List.map_map]
  exact congrArg (· ++ _) (List.map_congr_left fun i _ => hG i)

theorem State.threadContext_nodup (s : State) (n t : Nat) (st : Stamp) (w : Word) : ((s.threadContext n t st w).map Prod.fst).Nodup := by
  rw [State.map_fst_threadContext]
  exact contextPlaces_nodup.map fun a b h => Nat.add_left_cancel h

theorem State.threadContext_place {s : State} {n t : Nat} {st : Stamp} {w : Word} {e : Nat × Word} (h : e ∈ s.threadContext n t st w) :
    ∃ o ∈ contextPlaces, e.1 = threadBase n t + o := by
  have hmem := List.mem_map_of_mem (f := Prod.fst) h
  rw [State.map_fst_threadContext] at hmem
  obtain ⟨o, ho, heq⟩ := List.mem_map.1 hmem
  exact ⟨o, ho, heq.symm⟩

/-- Registers that take a context have no write of the tick when none of the contexts has. -/
theorem State.contexts_free {s : State} (h : ∀ n t st w, ∀ e ∈ s.threadContext n t st w, s.wroteNow e.1 = false) (a : Nat)
    (ha : inContext a) : s.wroteNow a = false := by
  obtain ⟨n, t, o, ho, rfl⟩ := ha
  have hmem : threadBase n t + o ∈ (s.threadContext n t 0 0).map Prod.fst := by
    rw [State.map_fst_threadContext]
    exact List.mem_map_of_mem ho
  obtain ⟨e, he, heq⟩ := List.mem_map.1 hmem
  rw [← heq]
  exact h n t 0 0 e he

/-- Thread `t` has registers and flags 0, and the stamp pair `st`. -/
structure State.Cleared (st : Stamp) (n t : Nat) (s : State) : Prop where
  stamp : s.thStamp n t = st
  flags : s.reg (TH_FLAGS n t) = 0
  g : ∀ i < 16, s.g n t i = 0

/-- A state with the same registers of a cleared thread. -/
theorem State.Cleared.of_reg {st : Stamp} {n t : Nat} {s u : State} (h : State.Cleared st n t s)
    (hkept : ∀ a, inThread n t a → u.reg a = s.reg a) : State.Cleared st n t u := by
  refine ⟨?_, ?_, fun i hi => ?_⟩
  · rw [← h.stamp]
    exact State.thStamp_of_regs (hkept _ (by unfold inThread threadBase TH_STAMP_LO; omega))
      (hkept _ (by unfold inThread threadBase TH_STAMP_HI; omega))
  · rw [← h.flags]
    exact hkept _ (by unfold inThread threadBase TH_FLAGS; omega)
  · rw [← h.g i hi]
    exact hkept _ (by unfold inThread threadBase G; omega)

/-- What another reload leaves of a cleared thread. -/
theorem State.Cleared.reloads {st : Stamp} {n t : Nat} {s u : State} {R : Nat → Prop} (h : State.Cleared st n t s)
    (hR : ∀ a, inThread n t a → ¬ R a) (hu : s.Reloads R u) : State.Cleared st n t u := h.of_reg fun a ha => hu.reg a (hR a ha)

/-- The load of one thread from the thread table. -/
def State.loadThread (s : State) (n : Nat) (st : Stamp) (t : Nat) : State :=
  let w := s.ramWord n (0x10 + 4 * t)
  let s := s.engineWrites (s.threadContext n t st w)
  if bitOf w 31 then
    (s.setThread n t { Thread.init with upc := s.freeValue.truncate 12 }).useFree.setThState n t thReady 0
  else s

theorem State.loadThreads_eq (s : State) (n : Nat) (st : Stamp) :
    s.loadThreads n st = (List.range 16).foldl (fun s t => s.loadThread n st t) (s.setEngine n { s.engine n with level := s.declaredLevel n }) :=
  rfl

/-- A context that no register keeps waiting. -/
theorem State.engineWrites_context {s : State} {n t : Nat} {st : Stamp} {w : Word}
    (hfree : ∀ a, inThread n t a → inContext a → s.wroteNow a = false) :
    s.Reloads (inThread n t) (s.engineWrites (s.threadContext n t st w)) ∧
      State.Cleared st n t (s.engineWrites (s.threadContext n t st w)) ∧ (s.engineWrites (s.threadContext n t st w)).engines = s.engines := by
  have hin : ∀ e ∈ s.threadContext n t st w, inThread n t e.1 ∧ inContext e.1 := fun e he => by
    obtain ⟨o, ho, heq⟩ := State.threadContext_place he
    have hlt := (contextPlaces_lt ho).1
    exact ⟨by unfold inThread; omega, ⟨n, t, o, ho, heq⟩⟩
  have hcommit := s.engineWrites_commit fun e he => hfree e.1 (hin e he).1 (hin e he).2
  obtain ⟨rs, hshape⟩ := s.foldl_setReg_shape (s.threadContext n t st w)
  have hreg : ∀ a, (s.engineWrites (s.threadContext n t st w)).reg a =
      ((s.threadContext n t st w).foldl (fun s e => s.setReg e.1 e.2) s).reg a := fun a => by
    rw [hcommit, State.reg_wroteAll]
  have hval : ∀ a v, (a, v) ∈ s.threadContext n t st w → (s.engineWrites (s.threadContext n t st w)).reg a = v := fun a v h =>
    (hreg a).trans (s.reg_foldl_setReg (s.threadContext_nodup n t st w) h)
  refine ⟨⟨?_, ?_, fun a ha => ?_, fun a ha => ?_⟩, ⟨?_, ?_, fun i hi => ?_⟩, ?_⟩
  · rw [hcommit, hshape]
    rfl
  · rw [hcommit, hshape]
    rfl
  · rw [hreg]
    exact s.reg_foldl_setReg_ne fun e he heq => ha (heq ▸ (hin e he).1)
  · have hnot : ((s.threadContext n t st w).map Prod.fst).contains a = false := by
      rw [List.contains_eq_mem, decide_eq_false_iff_not, List.mem_map]
      rintro ⟨e, he, rfl⟩
      exact ha (hin e he).1
    have hstatus : (s.engineWrites (s.threadContext n t st w)).reg SWAP_STATUS = s.reg SWAP_STATUS :=
      (hreg _).trans (s.reg_foldl_setReg_ne fun e he heq => by
        have hplace := (hin e he).1
        unfold inThread threadBase at hplace
        unfold SWAP_STATUS at heq
        omega)
    have hwrote : ((s.mt == s.mt) && ((s.threadContext n t st w).map Prod.fst ++ if s.wroteTick = s.mt then s.wrote else []).contains a) =
        (s.wroteTick == s.mt && s.wrote.contains a) := by
      rw [List.contains_append, hnot]
      by_cases htick : s.wroteTick = s.mt <;> simp [htick]
    refine State.wroteNow_of_eq hstatus ?_ ?_ ?_ ?_
    · rw [hcommit, hshape]
      rfl
    · rw [hcommit, hshape]
      rfl
    · rw [hcommit, hshape]
      rfl
    · rw [hcommit, hshape]
      exact hwrote
  · rw [State.thStamp, State.pair, hval (TH_STAMP_HI n t) (hiWord st) (List.mem_append_right _ (by simp)),
      hval (TH_STAMP_LO n t) (loWord st) (List.mem_append_right _ (by simp)), ofWords_words]
  · exact hval _ _ (List.mem_append_right _ List.mem_cons_self)
  · exact hval _ _ (List.mem_append_left _ (List.mem_map.2 ⟨i, List.mem_range.2 hi, rfl⟩))
  · rw [hcommit, hshape]
    rfl

/-- A thread that starts READY: of the registers TH_STATUS alone changes. -/
def State.threadStarted (s : State) (n t : Nat) : State :=
  (s.setThread n t { Thread.init with upc := s.freeValue.truncate 12 }).useFree.setThState n t thReady 0

theorem State.threadStarted_shape (s : State) (n t : Nat) :
    ∃ rs ts f, s.threadStarted n t = { s with regs := rs, threads := ts, free := f } := by
  obtain ⟨rs, h⟩ := State.setReg_shape (s.setThread n t { Thread.init with upc := s.freeValue.truncate 12 }).useFree (TH_STATUS n t)
    (setBits (setBits ((s.setThread n t { Thread.init with upc := s.freeValue.truncate 12 }).useFree.reg (TH_STATUS n t)) 7 4 0) 2 0 thReady)
  refine ⟨rs, (s.setThread n t { Thread.init with upc := s.freeValue.truncate 12 }).threads, s.free + 1, ?_⟩
  rw [State.threadStarted, State.setThState, h]
  rfl

theorem State.reg_threadStarted_ne (s : State) {n t a : Nat} (h : a ≠ TH_STATUS n t) : (s.threadStarted n t).reg a = s.reg a := by
  rw [State.threadStarted, State.reg_setThState_ne _ n t _ _ h]
  rfl

theorem State.reloads_threadStarted (s : State) (n t : Nat) : s.Reloads (inThread n t) (s.threadStarted n t) := by
  obtain ⟨rs, ts, f, hshape⟩ := s.threadStarted_shape n t
  refine ⟨?_, ?_, fun a ha => s.reg_threadStarted_ne fun hst => ha ?_, fun a _ => ?_⟩
  · rw [hshape]
  · rw [hshape]
  · rw [hst]
    unfold inThread threadBase TH_STATUS
    omega
  · refine State.wroteNow_of_eq (s.reg_threadStarted_ne (by unfold SWAP_STATUS TH_STATUS; omega)) ?_ ?_ ?_ ?_ <;> rw [hshape]
    rfl

theorem State.cleared_threadStarted {s : State} {n t : Nat} {st : Stamp} (h : State.Cleared st n t s) :
    State.Cleared st n t (s.threadStarted n t) := by
  have hkept : ∀ a, a ≠ TH_STATUS n t → (s.threadStarted n t).reg a = s.reg a := fun a ha => s.reg_threadStarted_ne ha
  refine ⟨?_, ?_, fun i hi => ?_⟩
  · rw [← h.stamp]
    exact State.thStamp_of_regs (hkept _ (by unfold TH_STAMP_LO TH_STATUS; omega)) (hkept _ (by unfold TH_STAMP_HI TH_STATUS; omega))
  · rw [← h.flags]
    exact hkept _ (by unfold TH_FLAGS TH_STATUS; omega)
  · rw [← h.g i hi]
    exact hkept _ (by unfold G TH_STATUS; omega)

theorem State.loadThread_shows {s : State} (n : Nat) (st : Stamp) (t : Nat)
    (hfree : ∀ a, inThread n t a → inContext a → s.wroteNow a = false) :
    s.Reloads (inThread n t) (s.loadThread n st t) ∧ State.Cleared st n t (s.loadThread n st t) := by
  obtain ⟨hreloads, hcleared, -⟩ := State.engineWrites_context (st := st) (w := s.ramWord n (0x10 + 4 * t)) hfree
  have hcases : s.loadThread n st t = (s.engineWrites (s.threadContext n t st (s.ramWord n (0x10 + 4 * t)))).threadStarted n t ∨
      s.loadThread n st t = s.engineWrites (s.threadContext n t st (s.ramWord n (0x10 + 4 * t))) := by
    by_cases h : bitOf (s.ramWord n (0x10 + 4 * t)) 31 = true
    · exact Or.inl (if_pos h)
    · exact Or.inr (if_neg h)
  rcases hcases with he | he <;> rw [he]
  · exact ⟨hreloads.trans (State.reloads_threadStarted _ n t), State.cleared_threadStarted hcleared⟩
  · exact ⟨hreloads, hcleared⟩

theorem State.engineWrites_engines (s : State) (l : List (Nat × Word)) : (s.engineWrites l).engines = s.engines := by
  obtain ⟨rs, h⟩ := s.foldl_setReg_shape (l.filter fun e => !s.wroteNow e.1)
  rw [State.engineWrites, h]

theorem State.loadThread_engines (s : State) (n : Nat) (st : Stamp) (t : Nat) : (s.loadThread n st t).engines = s.engines := by
  rw [← s.engineWrites_engines (s.threadContext n t st (s.ramWord n (0x10 + 4 * t)))]
  unfold State.loadThread
  dsimp only
  split
  · rw [State.setThState, State.setReg_engines]
    rfl
  · rfl

/-- The blocks of different threads of a cluster are apart. -/
theorem threads_apart (n : Nat) : (List.range 16).Pairwise fun t u => ∀ a, inThread n t a → ¬ inThread n u a := by
  refine List.nodup_range.imp_of_mem fun {t u} _ _ htu a ht hu => ?_
  unfold inThread threadBase at ht hu
  omega

theorem State.loadThreads_shows {s : State} (n : Nat) (st : Stamp)
    (hfree : ∀ a, inThreads n a → inContext a → s.wroteNow a = false) :
    s.Reloads (inThreads n) (s.loadThreads n st) ∧ ∀ t < 16, State.Cleared st n t (s.loadThreads n st) := by
  have hin : ∀ t ∈ List.range 16, ∀ a, inThread n t a → inThreads n a := fun t ht a ha => by
    have ht16 := List.mem_range.1 ht
    unfold inThread threadBase at ha
    unfold inThreads
    omega
  have hlevel : s.Reloads (inThreads n) (s.setEngine n { s.engine n with level := s.declaredLevel n }) :=
    ⟨rfl, rfl, fun _ _ => rfl, fun _ _ => rfl⟩
  obtain ⟨hreloads, hcleared⟩ := State.reloads_foldl (f := fun s t => s.loadThread n st t) (F := inContext) (P := inThread n)
    (Q := State.Cleared st n) (fun t s hf => State.loadThread_shows n st t hf) (fun t R s u hR hu hc => hc.reloads hR hu)
    (List.range 16) (s.setEngine n { s.engine n with level := s.declaredLevel n }) (threads_apart n)
    (fun t ht a ha hctx => hfree a (hin t ht a ha) hctx)
  rw [s.loadThreads_eq]
  exact ⟨hlevel.trans (hreloads.mono fun a ⟨t, ht, ha⟩ => hin t ht a ha), fun t ht => hcleared t (List.mem_range.2 ht)⟩

theorem State.foldl_loadThread_engines (n : Nat) (st : Stamp) (l : List Nat) (s : State) :
    (l.foldl (fun s t => s.loadThread n st t) s).engines = s.engines := by
  induction l generalizing s with
  | nil => rfl
  | cons t l ih => rw [List.foldl_cons, ih, s.loadThread_engines n st t]

theorem State.loadThreads_engine (s : State) (n : Nat) (st : Stamp) (m : Nat) :
    ((s.loadThreads n st).engine m).bank = (s.engine m).bank ∧ (m ≠ n → (s.loadThreads n st).engine m = s.engine m) := by
  have hkept : (s.loadThreads n st).engine m = (s.setEngine n { s.engine n with level := s.declaredLevel n }).engine m := by
    rw [s.loadThreads_eq, State.engine, State.foldl_loadThread_engines, ← State.engine]
  rw [hkept]
  refine ⟨?_, fun h => State.engine_setEngine_ne _ _ h⟩
  by_cases h : m = n
  · rw [h, State.engine_setEngine_self]
  · rw [State.engine_setEngine_ne _ _ h]

/-! ### The steps of SWAP_TICK (R254) -/

/-- What a swap may touch of the registers besides those of the clusters. -/
def atSwap (a : Nat) : Prop := a = GSTAT ∨ a = SWAP_STATUS ∨ 0x1000000 ≤ a

/-- What halting a thread and the exchange of a page leave. -/
structure State.Halts (s u : State) : Prop where
  reg : ∀ a, a ≠ GSTAT → a < 0x1000000 → u.reg a = s.reg a
  mt : u.mt = s.mt
  swap : u.swap = s.swap
  wroteTick : u.wroteTick = s.wroteTick
  wrote : u.wrote = s.wrote
  later : u.later = s.later

namespace State.Halts

variable {r s u : State}

theorem refl (s : State) : s.Halts s := ⟨fun _ _ _ => rfl, rfl, rfl, rfl, rfl, rfl⟩

theorem trans (h : r.Halts s) (h' : s.Halts u) : r.Halts u :=
  ⟨fun a hg ha => (h'.reg a hg ha).trans (h.reg a hg ha), h'.mt.trans h.mt, h'.swap.trans h.swap, h'.wroteTick.trans h.wroteTick,
    h'.wrote.trans h.wrote, h'.later.trans h.later⟩

theorem foldl {β : Type} {f : State → β → State} (hf : ∀ (s : State) (b : β), s.Halts (f s b)) (l : List β) (s : State) : s.Halts (l.foldl f s) := by
  induction l generalizing s with
  | nil => exact .refl s
  | cons b l ih => exact (hf s b).trans (ih _)

end State.Halts

theorem State.stopThread_halts (s : State) (n t : Nat) : s.Halts (s.stopThread n t) := by
  obtain ⟨rv, ps, rg, ie, ts, es, h⟩ := s.stopThread_shape n t
  refine ⟨fun a hg ha => s.reg_stopThread_ne n t hg (by unfold CL_STATUS; omega) (by unfold TH_STATUS; omega), ?_, ?_, ?_, ?_, ?_⟩ <;>
    rw [h]

theorem State.swapCluster_eq (s : State) (n : Nat) : s.swapCluster n =
    ((List.range 16).foldl (fun s t => s.stopThread n t) s).setEngine n
      { ((List.range 16).foldl (fun s t => s.stopThread n t) s).engine n with
        bank := !(((List.range 16).foldl (fun s t => s.stopThread n t) s).engine n).bank } := rfl

theorem State.halts_setEngine (s : State) (n : Nat) (e : Engine) : s.Halts (s.setEngine n e) :=
  ⟨fun _ _ _ => rfl, rfl, rfl, rfl, rfl, rfl⟩

theorem State.swapCluster_halts (s : State) (n : Nat) : s.Halts (s.swapCluster n) := by
  rw [s.swapCluster_eq]
  exact (State.Halts.foldl (fun s t => s.stopThread_halts n t) (List.range 16) s).trans (State.halts_setEngine _ n _)

theorem State.foldl_stopThread_engine (n : Nat) (l : List Nat) (s : State) :
    ((l.foldl (fun s t => s.stopThread n t) s).engine n).bank = (s.engine n).bank ∧
      ∀ m, m ≠ n → (l.foldl (fun s t => s.stopThread n t) s).engine m = s.engine m := by
  induction l generalizing s with
  | nil => exact ⟨rfl, fun _ _ => rfl⟩
  | cons t l ih =>
    obtain ⟨hbank, hother⟩ := ih (s.stopThread n t)
    exact ⟨hbank.trans (s.bank_stopThread n t), fun m hm => (hother m hm).trans (s.engine_stopThread_ne n t hm)⟩

theorem State.swapCluster_engine (s : State) (n : Nat) :
    ((s.swapCluster n).engine n).bank = !(s.engine n).bank ∧ ∀ m, m ≠ n → (s.swapCluster n).engine m = s.engine m := by
  obtain ⟨hbank, hother⟩ := State.foldl_stopThread_engine n (List.range 16) s
  rw [s.swapCluster_eq]
  refine ⟨?_, fun m hm => (State.engine_setEngine_ne _ _ hm).trans (hother m hm)⟩
  rw [State.engine_setEngine_self]
  exact congrArg (!·) hbank

/-- The named clusters exchange their pages, each once; the engines of the others stay. -/
theorem State.foldl_swapCluster_engine {l : List Nat} (hl : l.Nodup) (s : State) (m : Nat) :
    (m ∈ l → ((l.foldl State.swapCluster s).engine m).bank = !(s.engine m).bank) ∧
      (m ∉ l → (l.foldl State.swapCluster s).engine m = s.engine m) := by
  induction l generalizing s with
  | nil => exact ⟨fun h => absurd h List.not_mem_nil, fun _ => rfl⟩
  | cons n l ih =>
    rw [List.nodup_cons] at hl
    obtain ⟨hbank, hother⟩ := s.swapCluster_engine n
    obtain ⟨hin, hout⟩ := ih hl.2 (s.swapCluster n)
    refine ⟨fun hm => ?_, fun hm => ?_⟩
    · rcases List.mem_cons.1 hm with rfl | hm
      · rw [List.foldl_cons, hout hl.1, hbank]
      · rw [List.foldl_cons, hin hm, hother m fun h => hl.1 (h ▸ hm)]
    · rw [List.mem_cons, not_or] at hm
      rw [List.foldl_cons, hout hm.2, hother m hm.1]

theorem State.foldl_loadThreads_engine (st : Stamp) (l : List Nat) (s : State) (m : Nat) :
    ((l.foldl (fun s n => s.loadThreads n st) s).engine m).bank = (s.engine m).bank ∧
      (m ∉ l → (l.foldl (fun s n => s.loadThreads n st) s).engine m = s.engine m) := by
  induction l generalizing s with
  | nil => exact ⟨rfl, fun _ => rfl⟩
  | cons n l ih =>
    obtain ⟨hbank, hout⟩ := ih (s.loadThreads n st)
    obtain ⟨hbank', hother⟩ := s.loadThreads_engine n st m
    refine ⟨hbank.trans hbank', fun hm => ?_⟩
    rw [List.mem_cons, not_or] at hm
    exact (hout hm.2).trans (hother hm.1)

/-- The thread blocks of different clusters are apart. -/
theorem clusters_apart {l : List Nat} (hl : l.Nodup) : l.Pairwise fun n m => ∀ a, inThreads n a → ¬ inThreads m a := by
  refine hl.imp_of_mem fun {n m} _ _ hnm a hn hm => ?_
  unfold inThreads at hn hm
  omega

/-- The threads of the named clusters take new contexts. -/
theorem State.foldl_loadThreads_shows {s : State} (st : Stamp) {l : List Nat} (hl : l.Nodup)
    (hfree : ∀ a, inContext a → s.wroteNow a = false) :
    s.Reloads (fun a => 0x1000000 ≤ a) (l.foldl (fun s n => s.loadThreads n st) s) ∧
      ∀ n ∈ l, ∀ t < 16, State.Cleared st n t (l.foldl (fun s n => s.loadThreads n st) s) := by
  obtain ⟨hreloads, hcleared⟩ := State.reloads_foldl (f := fun s n => s.loadThreads n st) (F := inContext) (P := inThreads)
    (Q := fun n s => ∀ t < 16, State.Cleared st n t s) (fun n s hf => State.loadThreads_shows n st hf)
    (fun n R s u hR hu hc t ht => (hc t ht).reloads (fun a ha => hR a (by
      unfold inThread threadBase at ha
      unfold inThreads
      omega)) hu) l s (clusters_apart hl) (fun n _ a _ hctx => hfree a hctx)
  refine ⟨hreloads.mono fun a ⟨n, _, ha⟩ => ?_, hcleared⟩
  unfold inThreads at ha
  omega

/-- The clusters of the recipe with their pages exchanged and their threads halted. -/
def State.swapExchanged (s : State) : State := s.swapClusters.foldl State.swapCluster s

/-- SWAP_STATUS of a swap that has run. -/
def swapRanWord (old : Word) (late : Bool) : Word :=
  setBits (putBit (putBit (putBit old 31 false) 29 false) 28 false) 3 0 (if late then 2 else 1)

/-- The state with the outcome of the swap. -/
def State.swapNoted (s : State) : State := s.setReg SWAP_STATUS (swapRanWord (s.reg SWAP_STATUS) s.swap.late)

/-- The clusters of the recipe with their threads' contexts loaded. -/
def State.swapLoaded (s : State) (st : Stamp) : State := s.swapClusters.foldl (fun s n => s.loadThreads n st) s

/-- The end of a swap with no list: the purge, the stamp and the count, and the event of a new outcome. -/
def State.swapFinished (s : State) (st : Stamp) (purge news : Bool) : State :=
  let s := if purge then s.swapClusters.foldl (fun s n => s.cancel n 0 0 none false) s else s
  let s := s.swap.list.foldl State.swapEntry { s with swap := { s.swap with list := [] } }
  let s := (s.setPair SWAP_STAMP_LO SWAP_STAMP_HI st).count SWAP_SEQ
  if news then s.deliver 253 none else s

theorem State.swapRun_eq {s : State} (hfixed : s.swapFixed = true) (hdue : s.reached s.swap.tTick = true) :
    s.swapRun = (s.swapExchanged.swapNoted.swapLoaded (stampAt s.swap.tTick 0)).swapFinished (stampAt s.swap.tTick 0)
      (s.bit SWAP_STATUS 27) (s.swapExchanged.fld SWAP_STATUS 3 0 != if s.swapExchanged.swap.late then 2 else 1) := by
  have hgo : (s.swapFixed && s.reached s.swap.tTick) = true := by rw [hfixed, hdue]; rfl
  exact if_pos hgo

theorem State.foldl_cancel_shape (l : List Nat) (s : State) :
    ∃ ws, l.foldl (fun s n => s.cancel n 0 0 none false) s = { s with weirs := ws } := by
  induction l generalizing s with
  | nil => exact ⟨s.weirs, rfl⟩
  | cons n l ih =>
    obtain ⟨ws, h⟩ := ih (s.cancel n 0 0 none false)
    exact ⟨ws, by rw [List.foldl_cons, h]; rfl⟩

/-- What the end of a swap leaves. -/
theorem State.swapFinished_shows {s : State} (st : Stamp) (purge news : Bool) (hlist : s.swap.list = []) :
    (∀ a, a ≠ SWAP_STAMP_LO → a ≠ SWAP_STAMP_HI → a ≠ SWAP_SEQ → (s.swapFinished st purge news).reg a = s.reg a) ∧
      (s.swapFinished st purge news).pair SWAP_STAMP_LO SWAP_STAMP_HI = st ∧
      (s.swapFinished st purge news).reg SWAP_SEQ = s.reg SWAP_SEQ + 1 ∧
      (s.swapFinished st purge news).engines = s.engines := by
  obtain ⟨ws, hpurged⟩ : ∃ ws, (if purge then s.swapClusters.foldl (fun s n => s.cancel n 0 0 none false) s else s) =
      { s with weirs := ws } := by
    cases purge with
    | true => exact State.foldl_cancel_shape _ s
    | false => exact ⟨s.weirs, rfl⟩
  have hfinished : s.swapFinished st purge news =
      (if news then (((({ s with weirs := ws, swap := { s.swap with list := [] } } : State).setPair SWAP_STAMP_LO SWAP_STAMP_HI st).count
        SWAP_SEQ).deliver 253 none) else
        ((({ s with weirs := ws, swap := { s.swap with list := [] } } : State).setPair SWAP_STAMP_LO SWAP_STAMP_HI st).count SWAP_SEQ)) := by
    unfold State.swapFinished
    dsimp only
    rw [hpurged]
    dsimp only
    rw [hlist, List.foldl_nil]
  have hdeliver : ∀ u : State, (∀ a, (if news then u.deliver 253 none else u).reg a = u.reg a) ∧
      (if news then u.deliver 253 none else u).engines = u.engines := fun u => by
    cases news with
    | true => exact ⟨fun _ => rfl, rfl⟩
    | false => exact ⟨fun _ => rfl, rfl⟩
  obtain ⟨hreg, hengines⟩ := hdeliver ((({ s with weirs := ws, swap := { s.swap with list := [] } } : State).setPair SWAP_STAMP_LO
    SWAP_STAMP_HI st).count SWAP_SEQ)
  rw [hfinished]
  refine ⟨fun a hlo hhi hseq => ?_, ?_, ?_, ?_⟩
  · rw [hreg, State.reg_count_ne _ hseq, State.reg_setPair_ne _ _ hlo hhi]
    rfl
  · rw [State.pair, hreg, hreg, State.reg_count_ne _ (by decide), State.reg_count_ne _ (by decide), ← State.pair,
      State.pair_setPair_self _ _ _ _ (by decide)]
  · rw [hreg, State.reg_count_self, State.reg_setPair_ne _ _ (by decide) (by decide)]
    rfl
  · rw [hengines, State.count_engines, State.setPair_engines]

theorem swapClusters_nodup (s : State) : s.swapClusters.Nodup := List.nodup_range.filter _

theorem State.mem_swapClusters (s : State) (n : Nat) : n ∈ s.swapClusters ↔ n < 24 ∧ s.bit SWAP_MASK n = true := by
  rw [State.swapClusters, List.mem_filter, List.mem_range]

theorem State.swapClusters_congr {s u : State} (h : u.reg SWAP_MASK = s.reg SWAP_MASK) : u.swapClusters = s.swapClusters := by
  unfold State.swapClusters State.bit
  rw [h]

theorem swapRanWord_shows (old : Word) (late : Bool) :
    bitOf (swapRanWord old late) 31 = false ∧ bitOf (swapRanWord old late) 29 = false ∧ bitOf (swapRanWord old late) 28 = false ∧
      bitsOf (swapRanWord old late) 3 0 = if late = true then 2 else 1 := by
  refine ⟨?_, ?_, ?_, ?_⟩
  · rw [swapRanWord, bitOf_setBits_ne _ _ _ _ _ (by decide), bitOf_putBit_ne _ _ (by decide), bitOf_putBit_ne _ _ (by decide),
      bitOf_putBit_self _ _ _ (by decide)]
  · rw [swapRanWord, bitOf_setBits_ne _ _ _ _ _ (by decide), bitOf_putBit_ne _ _ (by decide), bitOf_putBit_self _ _ _ (by decide)]
  · rw [swapRanWord, bitOf_setBits_ne _ _ _ _ _ (by decide), bitOf_putBit_self _ _ _ (by decide)]
  · rw [swapRanWord, bitsOf_setBits_self _ _ _ _ (by decide)]
    cases late <;> rfl

/-- What the state shows once the recipe's clusters have exchanged their pages and taken their contexts. -/
theorem State.swapLoaded_shows {s : State} (st : Stamp) (hlist : s.swap.list = []) (hfree : ∀ a, inContext a → s.wroteNow a = false) :
    (s.swapExchanged.swapNoted.swapLoaded st).swap.list = [] ∧
      (s.swapExchanged.swapNoted.swapLoaded st).reg SWAP_STATUS = swapRanWord (s.reg SWAP_STATUS) s.swap.late ∧
      (s.swapExchanged.swapNoted.swapLoaded st).reg SWAP_SEQ = s.reg SWAP_SEQ ∧
      (∀ n ∈ s.swapClusters, ((s.swapExchanged.swapNoted.swapLoaded st).engine n).bank = (!(s.engine n).bank) ∧
        ∀ t < 16, State.Cleared st n t (s.swapExchanged.swapNoted.swapLoaded st)) ∧
      ∀ n, n ∉ s.swapClusters → (s.swapExchanged.swapNoted.swapLoaded st).engine n = s.engine n := by
  have hhalts : s.Halts s.swapExchanged := State.Halts.foldl (fun s n => s.swapCluster_halts n) s.swapClusters s
  have hclusters : s.swapExchanged.swapNoted.swapClusters = s.swapClusters := by
    refine State.swapClusters_congr ?_
    rw [State.swapNoted, State.reg_setReg_ne _ _ (by decide), hhalts.reg _ (by decide) (by decide)]
  have hlist' : s.swapExchanged.swapNoted.swap.list = [] := by
    rw [State.swapNoted, State.setReg_swap, hhalts.swap, hlist]
  have hfree' : ∀ a, inContext a → s.swapExchanged.swapNoted.wroteNow a = false := fun a ha => by
    rw [← hfree a ha]
    rw [State.swapNoted]
    exact State.wroteNow_congr hlist ((State.setReg_swap ..).trans hhalts.swap) ((State.setReg_mt ..).trans hhalts.mt)
      ((State.setReg_wroteTick ..).trans hhalts.wroteTick) ((State.setReg_wrote ..).trans hhalts.wrote)
      ((State.setReg_later ..).trans hhalts.later) a
  obtain ⟨hreloads, hcleared⟩ := State.foldl_loadThreads_shows st (swapClusters_nodup s) hfree'
  have hengine := State.foldl_loadThreads_engine st s.swapClusters s.swapExchanged.swapNoted
  have hnoted : ∀ n, s.swapExchanged.swapNoted.engine n = s.swapExchanged.engine n := fun n => State.engine_setReg ..
  have hpages := State.foldl_swapCluster_engine (swapClusters_nodup s) s
  rw [State.swapLoaded, hclusters]
  refine ⟨?_, ?_, ?_, fun n hn => ⟨?_, hcleared n hn⟩, fun n hn => ?_⟩
  · rw [hreloads.swap, hlist']
  · rw [hreloads.reg _ (by decide), State.swapNoted, State.reg_setReg_self, hhalts.reg _ (by decide) (by decide), hhalts.swap]
  · rw [hreloads.reg _ (by decide), State.swapNoted, State.reg_setReg_ne _ _ (by decide), hhalts.reg _ (by decide) (by decide)]
  · rw [(hengine n).1, hnoted, State.swapExchanged, (hpages n).1 hn]
  · rw [(hengine n).2 hn, hnoted, State.swapExchanged, (hpages n).2 hn]

end Sys2Proof.Machine

namespace Sys2Proof.Proofs

open Sys2Proof.Machine Sys2Proof.Machine.Reg

/-- A swap without a list runs (R254). -/
theorem swapTick_runs (s : State) (hc : s.clocked) (hfixed : s.swapFixed = true) (hdue : s.reached s.swap.tTick = true)
    (hlist : s.swap.list = []) (hfree : ∀ n t st w, ∀ e ∈ s.threadContext n t st w, s.wroteNow e.1 = false) :
    ∃ u, exec .swapTick s = .next u ∧ u.bit SWAP_STATUS 31 = false ∧ u.swapArmed = false ∧ u.swapFixed = false ∧
      u.fld SWAP_STATUS 3 0 = (if s.swap.late = true then 2 else 1) ∧ u.reg SWAP_SEQ = s.reg SWAP_SEQ + 1 ∧
      u.pair SWAP_STAMP_LO SWAP_STAMP_HI = stampAt s.swap.tTick 0 ∧
      (∀ n : Nat, n < 24 → s.bit SWAP_MASK n = true → (u.engine n).bank = !(s.engine n).bank ∧
        ∀ t : Nat, t < 16 → u.thStamp n t = stampAt s.swap.tTick 0 ∧ u.reg (TH_FLAGS n t) = 0 ∧ ∀ i : Nat, i < 16 → u.g n t i = 0) ∧
      (∀ n : Nat, n < 24 → s.bit SWAP_MASK n = false → u.engine n = s.engine n) := by
  have hfree' := State.contexts_free hfree
  obtain ⟨hlist', hstatus, hseq, hnamed, hothers⟩ := State.swapLoaded_shows (stampAt s.swap.tTick 0) hlist hfree'
  obtain ⟨hreg, hstamp, hcount, hengines⟩ := State.swapFinished_shows (stampAt s.swap.tTick 0) (s.bit SWAP_STATUS 27)
    (s.swapExchanged.fld SWAP_STATUS 3 0 != if s.swapExchanged.swap.late then 2 else 1) hlist'
  obtain ⟨h31, h29, h28, houtcome⟩ := swapRanWord_shows (s.reg SWAP_STATUS) s.swap.late
  have hrun := State.swapRun_eq hfixed hdue
  refine ⟨_, congrArg Host.Outcome.next ((s.onTclk_clocked _ hc).trans hrun), ?_, ?_, ?_, ?_, ?_, hstamp, fun n hn hmask => ?_,
    fun n hn hmask => ?_⟩
  · rw [State.bit, hreg _ (by decide) (by decide) (by decide), hstatus, h31]
  · rw [State.swapArmed, State.bit, hreg _ (by decide) (by decide) (by decide), hstatus, h29]
  · rw [State.swapFixed, State.bit, hreg _ (by decide) (by decide) (by decide), hstatus, h28]
  · rw [State.fld, hreg _ (by decide) (by decide) (by decide), hstatus, houtcome]
  · rw [hcount, hseq]
  · obtain ⟨hbank, hcleared⟩ := hnamed n ((s.mem_swapClusters n).2 ⟨hn, hmask⟩)
    refine ⟨?_, fun t ht => ?_⟩
    · rw [State.engine, hengines, ← State.engine, hbank]
    · obtain ⟨hst, hflags, hg⟩ := (hcleared t ht).of_reg fun a ha => by
        have hhigh : 0x1000000 ≤ a := by unfold inThread threadBase at ha; omega
        exact hreg a (by unfold SWAP_STAMP_LO; omega) (by unfold SWAP_STAMP_HI; omega) (by unfold SWAP_SEQ; omega)
      exact ⟨hst, hflags, hg⟩
  · have hnot : n ∉ s.swapClusters := fun h => by
      rw [((s.mem_swapClusters n).1 h).2] at hmask
      exact absurd hmask (by decide)
    rw [State.engine, hengines, ← State.engine, hothers n hnot]

/-- Settles O43: the arm that is refused, by time and by angle, DISARM and QUERY, the rows of F and T, and the writes that wait. -/
theorem swapIsArmedFixedAndRun : Obligations.SwapIsArmedFixedAndRun := by
  refine ⟨fun n t w s hr harmed => ?_, fun n t w s hr harmed hstaged => ?_, kSwapArm_byTime, fun n t w s hr hw => ?_, kSwapDisarm_disarms,
    kSwapQuery_reads, fun s hc harmed hfixed hkeyed hdue => ?_, swapTick_runs, fun s l a v h hw => s.engineWrites_waits h hw⟩
  · exact kSwapArm_refused n hr (State.armCheck_armed true harmed) (by decide)
  · exact kSwapArm_refused n hr (State.armCheck_unstaged harmed hstaged) (by decide)
  · have hkarm : s.kArm n t w = ⟨true, s.thStamp n t, s.g n t (kA w), s.g n t (kA w + 1), s.kShaft n t w, bitsOf w 6 5, w.getLsbD 15,
        w.getLsbD 16⟩ := by
      rw [State.kArm, hw]
    obtain ⟨u, hu, hends, hst, hswap, hreg, hg⟩ := exec_kSwapArm n hr
    rw [hkarm] at hst hswap hreg
    exact ⟨u, hu, hends, hst, hswap, hreg _ (by decide), hg⟩
  · have hgo : (s.swapArmed && !s.swapFixed && s.swap.keyed && s.reached s.swap.fTick) = true := by
      rw [harmed, hfixed, hkeyed, hdue]
      rfl
    exact congrArg Host.Outcome.next ((s.onTclk_clocked _ hc).trans (if_pos hgo))

end Sys2Proof.Proofs
end

section
/-!
PROOFS. The converters (R273 to R280, R288): a request, its arrival, the stages of a conversion and its delivery, each as an equation of
its row.
-/

namespace Sys2Proof.Machine

open Reg

section
variable (s : State) (c : Nat)

/-! ### A converter's state and its register -/

theorem State.adcState_putConv {st : Nat} (v : Converter) (h : st < 8) : (s.putConv c st v).adcState c = st := by
  rw [State.adcState, State.fld, State.putConv, State.reg_setReg_self, bitsOf_setBits_self _ _ _ _ (by decide)]
  exact Nat.mod_eq_of_lt h

theorem State.conv_putConv (st : Nat) (v : Converter) : (s.putConv c st v).conv c = v := by
  rw [State.putConv, State.conv_setReg, State.conv_setConv_self]

theorem State.accum_putConv (st k : Nat) (v : Converter) : (s.putConv c st v).accum k = s.accum k := by
  rw [State.putConv, State.accum_setReg, State.accum_setConv]

/-- A converter that is put differs in itself and its register alone. -/
theorem State.adc_putConv (st : Nat) (v : Converter) :
    (s.putConv c st v).adc = { s.adc with convs := s.adc.convs.set (fun _ => Converter.init) c v } := by
  rw [State.putConv, State.setReg_adc]
  rfl

end

/-! ### Requests (R276, R277) -/

/-- A lone request that has arrived is the one taken. -/
theorem State.adcArrival_one {s : State} {q : AdcRequest} (h : s.adc.transit = [q]) (hq : s.reached q.arrive = true) :
    s.adcArrival = ({ s with adc := { s.adc with transit := [] } } : State).adcTake q := by
  have hfirst : s.firstRequest (s.adc.transit.filter (fun q => s.reached q.arrive)) = some q := by
    rw [h, List.filter_cons_of_pos (p := fun q : AdcRequest => s.reached q.arrive) hq]
    rfl
  have herase : s.adc.transit.erase q = [] := by rw [h, List.erase_cons_head]
  unfold State.adcArrival
  rw [hfirst]
  dsimp only
  rw [herase]

/-- A request for a trigger that is not enabled is null (R277). -/
theorem State.adcTake_null {s : State} {q : AdcRequest} (h : (s.prior (ADC_TRIG_CFG q.trig.toNat)).getLsbD 31 = false) :
    s.adcTake q = { s with adc := { s.adc with requests := s.adc.requests + 1, reqNull := s.adc.reqNull + 1 } } := by
  have hnull : (!bitOf (s.prior (ADC_TRIG_CFG q.trig.toNat)) 31 || min 8 (bitsOf (s.prior (ADC_TRIG_CFG q.trig.toNat)) 3 0) == 0) = true := by
    rw [bitOf, h]
    rfl
  exact if_pos hnull

/-- A request for a trigger of one step is expanded into it (R277). -/
theorem State.adcTake_one {s : State} {q : AdcRequest} (h : (s.prior (ADC_TRIG_CFG q.trig.toNat)).getLsbD 31 = true)
    (hn : bitsOf (s.prior (ADC_TRIG_CFG q.trig.toNat)) 3 0 = 1) :
    s.adcTake q = ({ s with adc := { s.adc with requests := s.adc.requests + 1, expanded := s.adc.expanded + 1 } } : State).adcIssue
      (s.prior (STEP (bitsOf (s.prior (ADC_TRIG_CFG q.trig.toNat)) 14 8 % 128))) q.urgent := by
  have hsome : ¬ (!bitOf (s.prior (ADC_TRIG_CFG q.trig.toNat)) 31 ||
      min 8 (bitsOf (s.prior (ADC_TRIG_CFG q.trig.toNat)) 3 0) == 0) = true := by
    rw [bitOf, h, hn]
    decide
  refine (if_neg hsome).trans ?_
  rw [hn]
  rfl

/-- A conversion for a converter that is enabled, off and not full starts it up (R274). -/
theorem State.adcIssue_startsUp {s : State} {step : Word} (hen : (s.prior (ADC_CTRL (bitsOf step 9 8))).getLsbD 0 = true)
    (hsink : step.getLsbD 23 = true) (hoff : s.adcState (bitsOf step 9 8) = 0) (hroom : (s.conv (bitsOf step 9 8)).queue.length < 16) :
    s.adcIssue step false = ({ s with adc := { s.adc with issued := s.adc.issued + 1 } } : State).putConv (bitsOf step 9 8) adcStartup
      { s.conv (bitsOf step 9 8) with
        queue := (s.conv (bitsOf step 9 8)).queue ++ [{ step := step, urgent := false, ain := s.prior (AIN_CFG (bitsOf step 4 0)) }]
        due := some (s.mt + 321) } := by
  have hopen : ¬ (!bitOf (s.prior (ADC_CTRL (bitsOf step 9 8))) 0 || !(bitOf step 23 || bitOf step 30 || bitOf step 31)) = true := by
    rw [bitOf, hen, bitOf, hsink]
    simp
  have hfits : ¬ 16 ≤ (s.conv (bitsOf step 9 8)).queue.length := by omega
  have hstate : ({ s with adc := { s.adc with issued := s.adc.issued + 1 } } : State).adcState (bitsOf step 9 8) = 0 := hoff
  refine (if_neg hopen).trans ((if_neg Bool.false_ne_true).trans ((if_neg hfits).trans ?_))
  rw [State.adcWake, hstate]
  rfl

/-! ### The stages of a conversion (R273, R274) -/

theorem State.adcAcquire_queued {s : State} {c : Nat} {x : Conv} {rest : List Conv} (hu : (s.conv c).urgent = none)
    (hq : (s.conv c).queue = x :: rest) :
    s.adcAcquire c = s.putConv c adcAcq
      { s.conv c with
        queue := rest
        running := some x
        due := some (s.mt + BitVec.ofNat 64 (max 48 (bitsOf (s.prior (AIN_CFG (bitsOf x.step 4 0))) 7 0)))
        cal := s.prior (AIN_CAL (bitsOf x.step 4 0)) } := by
  unfold State.adcAcquire
  dsimp only
  rw [hu, hq]

theorem State.adcDeliver_due {s : State} {c : Nat} {raw : BitVec 12} {x : Conv} (hdue : s.adcDue c adcConv = true)
    (hx : (s.conv c).running = some x) :
    ∃ v : Converter, v.running = none ∧ s.adcDeliver c raw =
      ((if (adcCorrect c (s.conv c).cal raw).2 then s.satCount CLIP_CNT else s).adcSink x (adcCorrect c (s.conv c).cal raw).1).putConv c
        adcIdle v := by
  unfold State.adcDeliver
  rw [if_pos hdue]
  dsimp only
  rw [hx]
  exact ⟨_, rfl, rfl⟩

theorem State.adcIdleOff_eq {s : State} {c : Nat} (hst : s.adcState c = adcIdle) (hq : (s.conv c).queue = [])
    (hu : (s.conv c).urgent = none) (hkeep : (s.prior (ADC_CTRL c)).getLsbD 1 = false) (hdue : (s.conv c).due = none) :
    s.adcIdleOff c = s.putConv c adcOff { s.conv c with due := none } := by
  have h : (s.adcState c == adcIdle && (s.conv c).queue.isEmpty && (s.conv c).urgent.isNone && !bitOf (s.prior (ADC_CTRL c)) 1 &&
      (match (s.conv c).due with | some t => s.reached t | none => true)) = true := by
    rw [hst, hq, hu, bitOf, hkeep, hdue]
    rfl
  exact if_pos h

/-! ### A result for an accumulator that is not full (R280) -/

theorem State.adcSink_accum {s : State} {x : Conv} {r : Nat} (h31 : x.step.getLsbD 31 = false) (h30 : x.step.getLsbD 30 = false)
    (h23 : x.step.getLsbD 23 = true) : s.adcSink x r = s.accSink (bitsOf x.step 21 16) r true := by
  unfold State.adcSink
  rw [bitOf, h31, bitOf, h30, bitOf, h23]
  rfl

/-- A free-running accumulator that is not saturated takes the result and is not full. -/
theorem State.accSink_running {s : State} {k r : Nat} {alone : Bool} (hn : s.accLength k = 0)
    (hroom : (s.accum k).val.count ≠ BitVec.allOnes 24) :
    ∃ hits, s.accSink k r alone = (s.setAccum k
      { val := { (s.accum k).val with sum := (s.accum k).val.sum + BitVec.ofNat 40 r, count := (s.accum k).val.count + 1 }
        hits := hits }).adcDelivered := by
  unfold State.accSink State.accAdd
  rw [if_neg hroom, hn]
  exact ⟨_, rfl⟩

end Sys2Proof.Machine
end

section
/-!
PROOFS. The sinks of the converters and their ledger (R280 to R284, R287): what a result, a clearing read and a capture leave, and the
obligation O46.
-/

namespace Sys2Proof.Machine

open Reg

/-! ### Results leave the other registers (R280, R282) -/

section
variable (s : State) {k a : Nat} (h1 : a ≠ ACC_STATUS k) (h2 : a ≠ ACC_OVW_CNT k)
include h1 h2

theorem State.reg_accAdd_ne (r : Nat) (alone : Bool) : (s.accAdd k r alone).2.reg a = s.reg a := by
  unfold State.accAdd
  dsimp only
  split
  · rw [State.reg_deliver, State.setBit, State.reg_setReg_ne _ _ h1, State.reg_setAccum]
  · rw [apply_ite (State.reg · a), State.reg_deliver, State.reg_satCount_ne _ h2, State.raise, State.reg_noteHw, State.setBit,
      State.reg_setReg_ne _ _ h1, State.reg_setAccum, ite_self]

theorem State.reg_accSink_ne (r : Nat) (alone : Bool) : (s.accSink k r alone).reg a = s.reg a := by
  rw [← s.reg_accAdd_ne h1 h2 r alone]
  unfold State.accSink
  dsimp only
  split <;> rfl

theorem State.reg_accSinks_ne (hits : List AccHit) :
    (hits.foldl (fun s (h : AccHit) => s.accSink k h.r h.alone) s).reg a = s.reg a := by
  induction hits generalizing s with
  | nil => rfl
  | cons h hits ih => rw [List.foldl_cons, ih, State.reg_accSink_ne _ h1 h2]

end

theorem State.reg_undoHw_ne (s : State) (p : Tick → Bool) {a b : Nat} (h : b ≠ a) : (s.undoHw a p).reg b = s.reg b :=
  State.reg_setReg_ne _ _ h

/-- What a clearing read takes back of one result. -/
def State.forgetHit (s : State) (h : AccHit) : State :=
  let s := if h.ovw then s.dropEvent 250 0 h.tick else s
  let s := if h.sat then s.dropEvent 250 1 h.tick else s
  if h.sat && h.alone then { s with adc := { s.adc with spillSat := s.adc.spillSat - 1 } }.dropEvent 248 3 h.tick
  else { s with adc := { s.adc with delivered := s.adc.delivered - 1 } }

theorem State.regs_forgetHit (s : State) (h : AccHit) : (s.forgetHit h).regs = s.regs := by
  unfold State.forgetHit
  cases h.ovw <;> cases h.sat <;> cases h.alone <;> rfl

theorem State.accForget_eq (s : State) (k : Nat) (p : Tick → Bool) (hits : List AccHit) :
    s.accForget k p hits = hits.foldl State.forgetHit ((s.undoHw (ACC_STATUS k) p).undoHw (ACC_OVW_CNT k) p) := rfl

theorem State.regs_forgetHits (s : State) (hits : List AccHit) : (hits.foldl State.forgetHit s).regs = s.regs := by
  induction hits generalizing s with
  | nil => rfl
  | cons h hits ih => rw [List.foldl_cons, ih, State.regs_forgetHit]

theorem State.reg_accForget_ne (s : State) {k a : Nat} (p : Tick → Bool) (hits : List AccHit) (h1 : a ≠ ACC_STATUS k)
    (h2 : a ≠ ACC_OVW_CNT k) : (s.accForget k p hits).reg a = s.reg a := by
  rw [State.accForget_eq, State.reg, State.regs_forgetHits, ← State.reg, State.reg_undoHw_ne _ _ h2, State.reg_undoHw_ne _ _ h1]

/-! ### A clearing read (R281, R283) -/

/-- The accumulator after a clearing read and before the results of its window join it again. -/
def State.accEmptied (s : State) (k : Nat) (p : Tick → Bool) : State :=
  let v := match s.accWindow k p with | h :: _ => h.before | [] => (s.accum k).val
  let u := if (s.accWindow k p).isEmpty then s else s.accForget k p (s.accWindow k p)
  (u.setAccum k { val := v.cleared (u.accLength k), hits := [] }).setBit (ACC_STATUS k) 1 false

theorem State.accClear_eq (s : State) (k : Nat) (p : Tick → Bool) :
    s.accClear k p =
      let u := (s.accWindow k p).foldl (fun s (h : AccHit) => s.accSink k h.r h.alone) (s.accEmptied k p)
      u.setAccum k { u.accum k with hits := [] } := rfl

theorem ACC_STATUS_ne_CFG (k : Nat) : ACC_CFG k ≠ ACC_STATUS k ∧ ACC_CFG k ≠ ACC_OVW_CNT k := by
  unfold ACC_CFG ACC_STATUS ACC_OVW_CNT; omega

theorem ACC_RD_HI_ne (k : Nat) : ACC_RD_HI k ≠ ACC_STATUS k ∧ ACC_RD_HI k ≠ ACC_OVW_CNT k ∧ ACC_CFG k ≠ ACC_RD_HI k := by
  unfold ACC_CFG ACC_STATUS ACC_OVW_CNT ACC_RD_HI; omega

theorem State.reg_accEmptied_ne (s : State) {k a : Nat} (p : Tick → Bool) (h1 : a ≠ ACC_STATUS k) (h2 : a ≠ ACC_OVW_CNT k) :
    (s.accEmptied k p).reg a = s.reg a := by
  unfold State.accEmptied
  dsimp only
  rw [State.setBit, State.reg_setReg_ne _ _ h1, State.reg_setAccum, apply_ite (State.reg · a), s.reg_accForget_ne p _ h1 h2, ite_self]

theorem State.reg_accClear_ne (s : State) {k a : Nat} (p : Tick → Bool) (h1 : a ≠ ACC_STATUS k) (h2 : a ≠ ACC_OVW_CNT k) :
    (s.accClear k p).reg a = s.reg a := by
  rw [State.accClear_eq, State.reg_setAccum, State.reg_accSinks_ne _ h1 h2, s.reg_accEmptied_ne p h1 h2]

theorem State.accLength_accEmptied (s : State) (k : Nat) (p : Tick → Bool) : (s.accEmptied k p).accLength k = s.accLength k := by
  obtain ⟨h1, h2⟩ := ACC_STATUS_ne_CFG k
  rw [State.accLength, State.fld, s.reg_accEmptied_ne p h1 h2]
  rfl

theorem State.bit_accEmptied (s : State) (k : Nat) (p : Tick → Bool) : (s.accEmptied k p).bit (ACC_STATUS k) 1 = false :=
  State.bit_setBit_self _ _ _ _ (by decide)

/-- With no result in its window a clearing read leaves an empty accumulator. -/
theorem State.accClear_of_empty {s : State} {k : Nat} {p : Tick → Bool} (h : s.accWindow k p = []) :
    (s.accClear k p).accValue k = (0, 0) ∧ (s.accClear k p).bit (ACC_STATUS k) 1 = false := by
  obtain ⟨h1, h2⟩ := ACC_STATUS_ne_CFG k
  have hlen : (s.accClear k p).accLength k = s.accLength k := by
    rw [State.accLength, State.fld, s.reg_accClear_ne p h1 h2, State.accLength, State.fld]
  have hval : ((s.accClear k p).accum k).val = (s.accum k).val.cleared (s.accLength k) := by
    rw [State.accClear_eq, h]
    dsimp only [List.foldl_nil]
    rw [State.accum_setAccum_self]
    unfold State.accEmptied
    rw [h]
    dsimp only
    rw [State.accum_setBit, State.accum_setAccum_self]
    rfl
  constructor
  · rw [State.accValue, hlen, hval, AccVal.readable, AccVal.cleared]
    split <;> rfl
  · rw [State.accClear_eq, h]
    exact s.bit_accEmptied k p

/-- A result for a free-running accumulator that is not saturated counts in it and leaves its status. -/
theorem State.accSink_counts {s : State} {k r : Nat} {alone : Bool} (hn : s.accLength k = 0)
    (hroom : (s.accum k).val.count.toNat + 1 < 2 ^ 24) :
    (s.accSink k r alone).accLength k = 0 ∧ (s.accSink k r alone).bit (ACC_STATUS k) 1 = s.bit (ACC_STATUS k) 1 ∧
      ((s.accSink k r alone).accum k).val.count.toNat = (s.accum k).val.count.toNat + 1 := by
  have hopen : (s.accum k).val.count ≠ BitVec.allOnes 24 := by
    intro h
    rw [h] at hroom
    exact absurd hroom (by decide)
  obtain ⟨hits, h⟩ := State.accSink_running (r := r) (alone := alone) hn hopen
  rw [h]
  refine ⟨hn, rfl, ?_⟩
  change ((s.setAccum k _).accum k).val.count.toNat = _
  rw [State.accum_setAccum_self, BitVec.toNat_add_of_lt hroom]
  rfl

/-- Results for a free-running accumulator, fewer than saturate it, are counted. -/
theorem State.accSinks_count {k : Nat} (hits : List AccHit) {s : State} (hn : s.accLength k = 0)
    (hroom : (s.accum k).val.count.toNat + hits.length < 2 ^ 24) :
    let t := hits.foldl (fun s (h : AccHit) => s.accSink k h.r h.alone) s
    t.bit (ACC_STATUS k) 1 = s.bit (ACC_STATUS k) 1 ∧ (t.accum k).val.count.toNat = (s.accum k).val.count.toNat + hits.length := by
  induction hits generalizing s with
  | nil => exact ⟨rfl, rfl⟩
  | cons h hits ih =>
    rw [List.length_cons] at hroom
    obtain ⟨hlen, hbit, hcount⟩ := State.accSink_counts (r := h.r) (alone := h.alone) hn (by omega)
    obtain ⟨hb, hc⟩ := ih hlen (by omega)
    exact ⟨hb.trans hbit, by rw [List.foldl_cons, hc, hcount, List.length_cons]; omega⟩

/-- A clearing read of a free-running accumulator leaves the results of its window. -/
theorem State.accClear_counts {s : State} {k : Nat} {p : Tick → Bool} (hn : s.accLength k = 0)
    (hroom : (s.accWindow k p).length < 2 ^ 24) :
    (s.accClear k p).bit (ACC_STATUS k) 1 = false ∧ ((s.accClear k p).accum k).val.count.toNat = (s.accWindow k p).length := by
  have hzero : ((s.accEmptied k p).accum k).val.count = 0 := by
    have hu : (if (s.accWindow k p).isEmpty then s else s.accForget k p (s.accWindow k p)).accLength k = 0 := by
      obtain ⟨h1, h2⟩ := ACC_STATUS_ne_CFG k
      rw [State.accLength, State.fld, apply_ite (State.reg · (ACC_CFG k)), s.reg_accForget_ne p _ h1 h2, ite_self]
      exact hn
    unfold State.accEmptied
    dsimp only
    rw [State.accum_setBit, State.accum_setAccum_self, hu]
    rfl
  obtain ⟨hb, hc⟩ := State.accSinks_count (s.accWindow k p) (s := s.accEmptied k p) ((s.accLength_accEmptied k p).trans hn)
    (by rw [hzero]; simpa using hroom)
  rw [s.bit_accEmptied] at hb
  rw [hzero] at hc
  constructor
  · rw [State.accClear_eq, State.bit_setAccum]
    exact hb
  · rw [State.accClear_eq]
    dsimp only
    rw [State.accum_setAccum_self]
    simpa using hc

/-! ### The capture of the ledger (R287) -/

theorem State.runTakes_adc {s : State} (ht : s.takes = [.adc]) : s.runTakes = ({ s with takes := [] } : State).takeAdc := by
  simp only [State.runTakes, ht, Take.late]
  rfl

/-- The counters of the ledger before `adcInFlight` in the snapshot registers. -/
def State.layAdc (s : State) (a : Adc) : State :=
  ((((((((s.setPair SNAP_REQUESTS_LO SNAP_REQUESTS_HI a.requests).setPair SNAP_EXPANDED_LO SNAP_EXPANDED_HI a.expanded).setPair
    SNAP_REQ_NULL_LO SNAP_REQ_NULL_HI a.reqNull).setPair SNAP_ISSUED_LO SNAP_ISSUED_HI a.issued).setPair SNAP_DELIVERED_LO
    SNAP_DELIVERED_HI a.delivered).setPair SNAP_SPILL_BUSY_LO SNAP_SPILL_BUSY_HI a.spillBusy).setPair SNAP_SPILL_FULL_LO
    SNAP_SPILL_FULL_HI a.spillFull).setPair ADC_SNAP_SPILL_CLOSED_LO ADC_SNAP_SPILL_CLOSED_HI a.spillClosed).setPair
    SNAP_SPILL_SAT_LO SNAP_SPILL_SAT_HI a.spillSat

/-- What the capture writes after the counters: the conversions in flight, the machine time, and ADC_SNAP_SEQ one up. -/
def State.layFlight (s : State) (n : Word) (mt : Tick) : State :=
  let u := (s.setReg SNAP_IN_FLIGHT n).setPair ADC_SNAP_MT_LO ADC_SNAP_MT_HI mt
  u.setFld ADC_SNAP_SEQ 15 0 (u.fld ADC_SNAP_SEQ 15 0 + 1)

theorem State.mt_layAdc (s : State) (a : Adc) : (s.layAdc a).mt = s.mt := by
  rw [State.layAdc]
  iterate 9 rw [State.setPair_mt]

theorem State.adc_layAdc (s : State) (a : Adc) : (s.layAdc a).adc = s.adc := by
  rw [State.layAdc]
  iterate 9 rw [State.setPair_adc]

theorem State.reg_layAdc_ne (s : State) (q : Adc) {a : Nat} (h : a = ADC_SNAP_SEQ) : (s.layAdc q).reg a = s.reg a := by
  subst h
  simp (disch := decide) only [State.layAdc, State.reg_setPair_ne]

theorem State.takeAdc_eq (s : State) : ∃ n, s.takeAdc = (s.layAdc s.adc).layFlight n s.mt := by
  refine ⟨BitVec.ofNat 32 (s.layAdc s.adc).adcInFlight, ?_⟩
  unfold State.takeAdc
  dsimp only
  rw [← State.layAdc, State.setReg_mt, s.mt_layAdc]
  rfl

theorem State.layFlight_shows (s : State) (a : Adc) (n : Word) (mt : Tick) :
    let t := (s.layAdc a).layFlight n mt
    t.pair SNAP_REQUESTS_LO SNAP_REQUESTS_HI = a.requests ∧ t.pair SNAP_DELIVERED_LO SNAP_DELIVERED_HI = a.delivered ∧
      t.pair ADC_SNAP_MT_LO ADC_SNAP_MT_HI = mt := by
  refine ⟨?_, ?_, ?_⟩ <;>
    simp (disch := decide) only [State.layAdc, State.layFlight, State.setFld, State.pair_setReg_ne, State.pair_setPair_ne,
      State.pair_setPair_self]

theorem State.seq_layFlight (s : State) (a : Adc) (n : Word) (mt : Tick) :
    ((s.layAdc a).layFlight n mt).fld ADC_SNAP_SEQ 15 0 = (s.fld ADC_SNAP_SEQ 15 0 + 1) % 65536 := by
  have hkept : (((s.layAdc a).setReg SNAP_IN_FLIGHT n).setPair ADC_SNAP_MT_LO ADC_SNAP_MT_HI mt).reg ADC_SNAP_SEQ = s.reg ADC_SNAP_SEQ := by
    rw [State.reg_setPair_ne _ _ (by decide) (by decide), State.reg_setReg_ne _ _ (by decide), s.reg_layAdc_ne a rfl]
  rw [State.layFlight, State.fld_setFld_self _ _ _ _ _ (by decide), State.fld, hkept, State.fld]
  rfl

theorem State.adc_layFlight (s : State) (n : Word) (mt : Tick) : (s.layFlight n mt).adc = s.adc := by
  rw [State.layFlight, State.setFld_adc, State.setPair_adc, State.setReg_adc]

end Sys2Proof.Machine

namespace Sys2Proof.Proofs

open Sys2Proof.Machine Sys2Proof.Machine.Reg

/-! ### The rows of requests and conversions -/

theorem adcReq_joins (v : Word) (s : State) (ha : s.accepts ADC_REQ v) :
    ∃ t q, exec (.adcReq v) s = .next t ∧ t.adc.transit = s.adc.transit ++ [q] ∧ q.arrive = s.mt + 2 ∧ q.stamp = s.now ∧
      q.trig.toNat = bitsOf v 5 0 ∧ q.urgent = v.getLsbD 7 :=
  ⟨_, _, congrArg Host.Outcome.next (s.hostWrite_accepts _ ha), rfl, rfl, rfl,
    (BitVec.toNat_ofNat _ _).trans (Nat.mod_eq_of_lt (bitsOf_lt v 5 0)), rfl⟩

theorem adcArrival_null (s : State) (q : AdcRequest) (hc : s.clocked) (h : s.adc.transit = [q]) (hq : s.reached q.arrive = true)
    (hoff : (s.prior (ADC_TRIG_CFG q.trig.toNat)).getLsbD 31 = false) :
    ∃ t, exec .adcRequestArrival s = .next t ∧ t.adc.transit = [] ∧ t.adc.requests = s.adc.requests + 1 ∧
      t.adc.reqNull = s.adc.reqNull + 1 ∧ t.adc.issued = s.adc.issued :=
  ⟨_, congrArg Host.Outcome.next ((s.onTclk_clocked _ hc).trans ((State.adcArrival_one h hq).trans (State.adcTake_null hoff))),
    rfl, rfl, rfl, rfl⟩

theorem adcArrival_startsUp (s : State) (q : AdcRequest) (hc : s.clocked) (h : s.adc.transit = [q]) (hq : s.reached q.arrive = true)
    (hu : q.urgent = false) :
    let cfg := s.prior (ADC_TRIG_CFG q.trig.toNat)
    cfg.getLsbD 31 = true → bitsOf cfg 3 0 = 1 →
    let step := s.prior (STEP (bitsOf cfg 14 8 % 128))
    let c := bitsOf step 9 8
    (s.prior (ADC_CTRL c)).getLsbD 0 = true → step.getLsbD 23 = true → s.adcState c = 0 → (s.conv c).queue.length < 16 →
    ∃ t, exec .adcRequestArrival s = .next t ∧ t.adc.transit = [] ∧ t.adc.expanded = s.adc.expanded + 1 ∧
      t.adc.issued = s.adc.issued + 1 ∧ t.adcState c = 1 ∧ (t.conv c).due = some (s.mt + 321) ∧
      (t.conv c).queue = (s.conv c).queue ++ [{ step := step, urgent := false, ain := s.prior (AIN_CFG (bitsOf step 4 0)) }] := by
  intro cfg hen hone step c hctrl hsink hoff hroom
  have h1 := (State.adcArrival_one h hq).trans (State.adcTake_one hen hone)
  rw [hu] at h1
  have h2 := h1.trans (State.adcIssue_startsUp hctrl hsink hoff hroom)
  refine ⟨_, congrArg Host.Outcome.next ((s.onTclk_clocked _ hc).trans h2), ?_, ?_, ?_, State.adcState_putConv _ _ _ (by decide), ?_, ?_⟩
  · rw [State.adc_putConv]
  · rw [State.adc_putConv]
  · rw [State.adc_putConv]
  · exact congrArg Converter.due (State.conv_putConv _ _ _ _)
  · exact congrArg Converter.queue (State.conv_putConv _ _ _ _)

theorem adcAcquires (c : Fin 4) (s : State) (x : Conv) (rest : List Conv) (p : (Fin 4 → Instr) × Nat) (hc : s.clocked)
    (hp : p ∈ [(Instr.adcStartupEnd, adcStartup), (Instr.adcAcqStart, adcIdle)]) (hdue : s.adcDue c p.2 = true)
    (hu : (s.conv c).urgent = none) (hq : (s.conv c).queue = x :: rest) :
    ∃ t, exec (p.1 c) s = .next t ∧ t.adcState c = adcAcq ∧ (t.conv c).running = some x ∧ (t.conv c).queue = rest ∧
      (t.conv c).due = some (s.mt + BitVec.ofNat 64 (max 48 (bitsOf (s.prior (AIN_CFG (bitsOf x.step 4 0))) 7 0))) := by
  have hrow : exec (p.1 c) s = .next (s.adcAcquire c) := by
    rcases List.mem_cons.1 hp with rfl | hp
    · exact congrArg Host.Outcome.next ((s.onTclk_clocked _ hc).trans (if_pos hdue))
    · obtain rfl := List.mem_singleton.1 hp
      exact congrArg Host.Outcome.next ((s.onTclk_clocked _ hc).trans (if_pos hdue))
  rw [State.adcAcquire_queued hu hq] at hrow
  refine ⟨_, hrow, State.adcState_putConv _ _ _ (by decide), ?_, ?_, ?_⟩ <;> rw [State.conv_putConv]

theorem adcHold_converts (c : Fin 4) (s : State) (hc : s.clocked) (hdue : s.adcDue c adcAcq = true) :
    ∃ t, exec (.adcHold c) s = .next t ∧ t.adcState c = adcConv ∧ (t.conv c).due = some (s.mt + 112) ∧
      (t.conv c).running = (s.conv c).running := by
  refine ⟨_, congrArg Host.Outcome.next ((s.onTclk_clocked _ hc).trans (if_pos hdue)), State.adcState_putConv _ _ _ (by decide), ?_, ?_⟩ <;>
    rw [State.conv_putConv]

theorem conversion_delivered (c : Fin 4) (raw : BitVec 12) (s : State) (x : Conv) (hc : s.clocked) (hdue : s.adcDue c adcConv = true)
    (hx : (s.conv c).running = some x) (h31 : x.step.getLsbD 31 = false) (h30 : x.step.getLsbD 30 = false)
    (h23 : x.step.getLsbD 23 = true) :
    let k := bitsOf x.step 21 16
    s.accLength k = 0 → (s.accum k).val.count ≠ BitVec.allOnes 24 →
    ∃ t, exec (.conversionDelivery c raw) s = .next t ∧ t.adcState c = adcIdle ∧ (t.conv c).running = none ∧
      (t.accum k).val.sum = (s.accum k).val.sum + BitVec.ofNat 40 (adcCorrect c (s.conv c).cal raw).1 ∧
      (t.accum k).val.count = (s.accum k).val.count + 1 ∧ t.adc.delivered = s.adc.delivered + 1 := by
  intro k hn hroom
  obtain ⟨v, hv, hrow⟩ := State.adcDeliver_due (raw := raw) hdue hx
  have hclip : ∀ b : Bool, (if b then s.satCount CLIP_CNT else s).accLength k = 0 ∧
      (if b then s.satCount CLIP_CNT else s).accum k = s.accum k ∧ (if b then s.satCount CLIP_CNT else s).adc = s.adc := by
    intro b
    cases b with
    | false => exact ⟨hn, rfl, rfl⟩
    | true =>
      refine ⟨?_, rfl, rfl⟩
      rw [← hn]
      exact congrArg (bitsOf · 23 0) (s.reg_satCount_ne (by unfold ACC_CFG CLIP_CNT; have := bitsOf_lt x.step 21 16; omega))
  obtain ⟨hn', hacc, hadc⟩ := hclip (adcCorrect c (s.conv c).cal raw).2
  generalize (if (adcCorrect c (s.conv c).cal raw).2 = true then s.satCount CLIP_CNT else s) = u at hrow hn' hacc hadc
  obtain ⟨hits, hsink⟩ := State.accSink_running (r := (adcCorrect c (s.conv c).cal raw).1) (alone := true) hn' (by rw [hacc]; exact hroom)
  rw [State.adcSink_accum h31 h30 h23, hsink] at hrow
  refine ⟨_, congrArg Host.Outcome.next ((s.onTclk_clocked _ hc).trans hrow), State.adcState_putConv _ _ _ (by decide), ?_, ?_, ?_, ?_⟩
  · rw [State.conv_putConv, hv]
  · rw [State.accum_putConv]
    change ((u.setAccum k _).accum k).val.sum = _
    rw [State.accum_setAccum_self, hacc]
  · rw [State.accum_putConv]
    change ((u.setAccum k _).accum k).val.count = _
    rw [State.accum_setAccum_self, hacc]
  · rw [State.adc_putConv, ← hadc]
    rfl

theorem adcIdle_goesOff (c : Fin 4) (s : State) (hc : s.clocked) (hst : s.adcState c = adcIdle) (hq : (s.conv c).queue = [])
    (hu : (s.conv c).urgent = none) (hkeep : (s.prior (ADC_CTRL c)).getLsbD 1 = false) (hdue : (s.conv c).due = none) :
    ∃ t, exec (.adcIdleOff c) s = .next t ∧ t.adcState c = adcOff ∧ (t.conv c).due = none := by
  refine ⟨_, congrArg Host.Outcome.next ((s.onTclk_clocked _ hc).trans (State.adcIdleOff_eq hst hq hu hkeep hdue)),
    State.adcState_putConv _ _ _ (by decide), ?_⟩
  rw [State.conv_putConv]

/-! ### The rows of the sinks -/

/-- What a read shows of the state that its access leaves. -/
theorem readOf_shows (s u : State) (w : List Word) (k a : Nat) :
    let t : State := { s.touchChanged u with hostData := w }
    t.accValue k = u.accValue k ∧ t.bit a 1 = u.bit a 1 ∧ t.accum k = u.accum k ∧ t.reg a = u.reg a := ⟨rfl, rfl, rfl, rfl⟩

theorem accRdcLo_reads (k : Fin 64) (s : State) (hs : s.serves) :
    let v := s.accSeen k s.inCycle
    ∃ t, exec (.accRdcLoRead k) s = .next t ∧ t.hostData = [v.1.truncate 32] ∧ t.reg (ACC_RD_HI k) = accHigh v ∧
      (s.accWindow k s.inCycle = [] → t.accValue k = (0, 0) ∧ t.bit (ACC_STATUS k) 1 = false) ∧
      (s.accLength k = 0 → (s.accWindow k s.inCycle).length < 2 ^ 24 →
        t.bit (ACC_STATUS k) 1 = false ∧ (t.accum k).val.count.toNat = (s.accWindow k s.inCycle).length) := by
  intro v
  obtain ⟨h1, h2, h3⟩ := ACC_RD_HI_ne k
  have hrow : exec (.accRdcLoRead k) s = .next { s.touchChanged ((s.setReg (ACC_RD_HI k) (accHigh v)).accClear k s.inCycle) with
      hostData := [v.1.truncate 32] } := congrArg Host.Outcome.next (s.hostRead_serves _ hs)
  have hlatch : (s.setReg (ACC_RD_HI k) (accHigh v)).reg (ACC_RD_HI k) = accHigh v := s.reg_setReg_self _ _
  have hlen : (s.setReg (ACC_RD_HI k) (accHigh v)).accLength k = s.accLength k :=
    congrArg (bitsOf · 23 0) (s.reg_setReg_ne _ h3)
  have hwindow : (s.setReg (ACC_RD_HI k) (accHigh v)).accWindow k s.inCycle = s.accWindow k s.inCycle := rfl
  generalize s.setReg (ACC_RD_HI k) (accHigh v) = u at hrow hlatch hlen hwindow
  obtain ⟨hvalue, hbit, haccum, -⟩ := readOf_shows s (u.accClear k s.inCycle) [v.1.truncate 32] k (ACC_STATUS k)
  refine ⟨_, hrow, rfl, (u.reg_accClear_ne s.inCycle h1 h2).trans hlatch, ?_, ?_⟩
  · rw [hvalue, hbit, ← hwindow]
    exact State.accClear_of_empty
  · rw [hbit, haccum, ← hwindow, ← hlen]
    exact State.accClear_counts

theorem mmRdc_reads (k : Fin 64) (s : State) (hs : s.serves) :
    ∃ t, exec (.mmRdcRead k) s = .next t ∧ t.hostData = [s.mmSeen k s.inCycle] ∧
      t.reg (MM_RD k) = (s.mmWindow k s.inCycle).foldl (fun w h => mmWith w h.r) 0x0000FFFF#32 ∧
      (∀ a, a ≠ MM_RD k → t.reg a = s.reg a) :=
  ⟨_, congrArg Host.Outcome.next (s.hostRead_serves _ hs), rfl, s.reg_setReg_self _ _, fun _ h => s.reg_setReg_ne _ h⟩

theorem adcSnap_noted (v : Word) (s : State) (ha : s.accepts ADC_SNAP_CTRL v) (hv : v.getLsbD 0 = true) :
    exec (.adcSnapTake v) s = .next ((s.noteHost ADC_SNAP_CTRL).noteTake .adc) :=
  congrArg Host.Outcome.next ((s.hostWrite_accepts _ ha).trans (if_pos hv))

theorem adcCapture_shows (s : State) (ht : s.takes = [.adc]) :
    ∃ t, s.runTakes = t ∧ t.pair SNAP_REQUESTS_LO SNAP_REQUESTS_HI = s.adc.requests ∧
      t.pair SNAP_DELIVERED_LO SNAP_DELIVERED_HI = s.adc.delivered ∧ t.pair ADC_SNAP_MT_LO ADC_SNAP_MT_HI = s.mt ∧
      t.fld ADC_SNAP_SEQ 15 0 = (s.fld ADC_SNAP_SEQ 15 0 + 1) % 65536 ∧ t.adc = s.adc := by
  obtain ⟨n, hn⟩ := State.takeAdc_eq { s with takes := [] }
  obtain ⟨hreq, hdel, hmt⟩ := State.layFlight_shows { s with takes := [] } s.adc n s.mt
  refine ⟨_, (State.runTakes_adc ht).trans hn, hreq, hdel, hmt, State.seq_layFlight _ _ _ _, ?_⟩
  rw [State.adc_layFlight, State.adc_layAdc]

/-- Settles O46: each row of a request, a conversion and a sink by its equation. -/
theorem convertersRunAndAreRead : Obligations.ConvertersRunAndAreRead := by
  unfold Obligations.ConvertersRunAndAreRead
  exact ⟨⟨adcReq_joins, adcArrival_null, adcArrival_startsUp, adcAcquires, adcHold_converts, conversion_delivered, adcIdle_goesOff⟩,
    accRdcLo_reads, fun k s hs => congrArg Host.Outcome.next (s.hostRead_serves _ hs), mmRdc_reads,
    fun k v s ha => congrArg Host.Outcome.next (s.hostWrite_accepts _ ha), adcSnap_noted, adcCapture_shows⟩

end Sys2Proof.Proofs
end

section
/-!
PROOFS. The interrupt controller (R291 to R295, R299): what pending bits, MSI-X requests and configuration writes change, and the obligation
O47.
-/

namespace Sys2Proof.Machine

open Reg

/-! ### Bits raised in one register (R292) -/

/-- The bits of `m` below `n` are raised in the register at `a`. -/
theorem State.bit_raises (s : State) (a : Nat) (m : Word) {n : Nat} (hn : n ≤ 32) (j : Nat) :
    (foldBelow n (fun s b => s.raiseIf (bitOf m b) a b) s).bit a j = (decide (j < n) && m.getLsbD j || s.bit a j) := by
  induction n with
  | zero => simp [foldBelow]
  | succ n ih =>
    have hstep : foldBelow (n + 1) (fun s b => s.raiseIf (bitOf m b) a b) s =
        (foldBelow n (fun s b => s.raiseIf (bitOf m b) a b) s).raiseIf (bitOf m n) a n := by
      rw [foldBelow, List.range_succ, List.foldl_append]
      rfl
    rw [hstep]
    by_cases hj : j = n
    · subst hj
      have hlast : decide (j < j + 1) = true := decide_eq_true (by omega)
      cases hm : m.getLsbD j with
      | true =>
        rw [bitOf, hm, hlast]
        exact State.bit_raise_self _ _ (by omega)
      | false =>
        rw [bitOf, hm, Bool.and_false, Bool.false_or]
        refine (ih (by omega)).trans ?_
        rw [hm, Bool.and_false, Bool.false_or]
    · rw [State.bit_raiseIf_ne _ _ _ hj, ih (by omega)]
      have : decide (j < n + 1) = decide (j < n) := by simp only [decide_eq_decide]; omega
      rw [this]

theorem State.reg_raises (s : State) (a : Nat) (m : Word) :
    (foldBelow 32 (fun s b => s.raiseIf (bitOf m b) a b) s).reg a = s.reg a ||| m := by
  apply BitVec.eq_of_getLsbD_eq
  intro j hj
  rw [BitVec.getLsbD_or]
  have h := s.bit_raises a m (n := 32) (Nat.le_refl _) j
  rw [State.bit, State.bit, bitOf, bitOf] at h
  rw [h, decide_eq_true hj, Bool.true_and, Bool.or_comm]

/-- Raising bits of one register leaves what hardware notes elsewhere. -/
theorem State.raises_others (s : State) (a : Nat) (m : Word) {b : Nat} (h : b ≠ a) (n : Nat) :
    let t := foldBelow n (fun s i => s.raiseIf (bitOf m i) a i) s
    t.reg b = s.reg b ∧ t.irqEvents = s.irqEvents ∧ t.power = s.power := by
  induction n with
  | zero => exact ⟨rfl, rfl, rfl⟩
  | succ n ih =>
    obtain ⟨hr, he, hp⟩ := ih
    dsimp only
    rw [foldBelow, List.range_succ, List.foldl_append, ← foldBelow]
    refine ⟨(State.reg_raiseIf_ne _ _ _ h).trans hr, ?_, ?_⟩
    · rw [← he]
      change (State.raiseIf _ _ _ _).irqEvents = _
      unfold State.raiseIf
      split <;> rfl
    · rw [← hp]
      change (State.raiseIf _ _ _ _).power = _
      unfold State.raiseIf
      split <;> rfl

/-! ### Requests of MSI-X (R295) -/

/-- The states differ in VEC_INSVC, the requested vectors and the pending-bit array alone. -/
structure State.OnlyVectors (s t : State) : Prop where
  reg : ∀ a, a ≠ VEC_INSVC → t.reg a = s.reg a
  irqEvents : t.irqEvents = s.irqEvents
  sent : t.sent = s.sent
  msixEnable : t.power.msixEnable = s.power.msixEnable
  fnMask : t.power.fnMask = s.power.fnMask
  cfg : t.power.cfg = s.power.cfg

namespace State.OnlyVectors

theorem refl (s : State) : s.OnlyVectors s := ⟨fun _ _ => rfl, rfl, rfl, rfl, rfl, rfl⟩

theorem trans {s t u : State} (h : s.OnlyVectors t) (k : t.OnlyVectors u) : s.OnlyVectors u :=
  ⟨fun a ha => (k.reg a ha).trans (h.reg a ha), k.irqEvents.trans h.irqEvents, k.sent.trans h.sent, k.msixEnable.trans h.msixEnable,
    k.fnMask.trans h.fnMask, k.cfg.trans h.cfg⟩

theorem bit {s t : State} (h : s.OnlyVectors t) {a : Nat} (ha : a ≠ VEC_INSVC) (i : Nat) : t.bit a i = s.bit a i :=
  congrArg (bitOf · i) (h.reg a ha)

end State.OnlyVectors

theorem State.pbaNote_onlyVectors (s : State) : s.OnlyVectors s.pbaNote := ⟨fun _ _ => rfl, rfl, rfl, rfl, rfl, rfl⟩

/-- Each source of the list is requested on its vector. -/
theorem State.msixRequests_onlyVectors (is : List Nat) (s : State) :
    s.OnlyVectors (is.foldl (fun s i =>
      let v := s.fld (ROUTE i) 12 8
      if s.bit (ROUTE i) 15 && !s.bit VEC_INSVC v then
        { s.setBit VEC_INSVC v true with power := { s.power with msixReq := putBit s.power.msixReq v true } }
      else s) s) := by
  induction is generalizing s with
  | nil => exact .refl s
  | cons i is ih =>
    refine .trans ?_ (ih _)
    dsimp only
    split
    · exact ⟨fun _ h => s.reg_setReg_ne _ h, rfl, rfl, rfl, rfl, rfl⟩
    · exact .refl s

theorem State.msixScan_onlyVectors (s : State) : s.OnlyVectors s.msixScan := by
  unfold State.msixScan
  split
  · exact .trans (s.msixRequests_onlyVectors _) (State.pbaNote_onlyVectors _)
  · exact s.pbaNote_onlyVectors

theorem State.msixScan_disabled {s : State} (h : s.power.msixEnable = false) : s.msixScan = s.pbaNote := by
  rw [State.msixScan, h]
  rfl

theorem State.msixScan_idle {s : State} (h : s.activeSources = []) : s.msixScan = s.pbaNote := by
  rw [State.msixScan, h, List.foldl_nil, ite_self]

theorem getLsbD_putBits (f : Nat → Bool) {n : Nat} (hn : n ≤ 32) (j : Nat) :
    ((List.range n).foldl (fun (w : Word) v => putBit w v (f v)) 0).getLsbD j = (decide (j < n) && f j) := by
  induction n with
  | zero => simp
  | succ n ih =>
    rw [List.range_succ, List.foldl_append, List.foldl_cons, List.foldl_nil, getLsbD_putBit, ih (by omega)]
    by_cases hj : j = n
    · subst hj
      rw [if_pos ⟨by omega, rfl⟩, decide_eq_true (by omega), Bool.true_and]
    · have : decide (j < n + 1) = decide (j < n) := by simp only [decide_eq_decide]; omega
      rw [if_neg (fun h => hj h.2), this]

/-- After a scan the pending-bit array shows each requested vector whose message may not be sent. -/
theorem State.pbaView_pbaNote (s : State) {v : Nat} (hv : v < 32) :
    s.pbaNote.pbaView.getLsbD v = (s.pbaNote.power.msixReq.getLsbD v && !s.pbaNote.vecOpen v) := by
  have hpba : s.pbaNote.pbaView =
      (List.range 32).foldl (fun w v => putBit w v (bitOf s.power.msixReq v && !s.vecOpen v)) 0 := by
    rw [State.pbaView, State.pbaNote]
  have hopen : s.pbaNote.vecOpen v = s.vecOpen v := by
    rw [State.vecOpen, State.vecMasked, s.pbaNote_onlyVectors.msixEnable, s.pbaNote_onlyVectors.fnMask]
    rfl
  have hreq : s.pbaNote.power.msixReq = s.power.msixReq := by rw [State.pbaNote]
  rw [hpba, getLsbD_putBits _ (Nat.le_refl 32), decide_eq_true hv, Bool.true_and, hopen, hreq, bitOf]

theorem State.pbaView_msixScan (s : State) {v : Nat} (hv : v < 32) :
    s.msixScan.pbaView.getLsbD v = (s.msixScan.power.msixReq.getLsbD v && !s.msixScan.vecOpen v) := by
  unfold State.msixScan
  exact State.pbaView_pbaNote _ hv

theorem State.activeSources_setReg_ne (s : State) {a : Nat} (w : Word) (h : ∀ i < 8, a ≠ IRQ_PEND i ∧ a ≠ IRQ_ENA i) :
    (s.setReg a w).activeSources = s.activeSources := by
  unfold State.activeSources
  apply List.flatMap_congr
  intro i hi
  obtain ⟨h1, h2⟩ := h i (List.mem_range.1 hi)
  rw [State.reg_setReg_ne _ _ h1.symm, State.reg_setReg_ne _ _ h2.symm]

/-! ### Pending bits (R292) -/

theorem State.irqPendSet_shows (s : State) (w : Nat) (m : Word) (hw : w < 8) :
    (s.irqPendSet w m).reg (IRQ_PEND w) = s.reg (IRQ_PEND w) ||| m ∧
      (∀ a, a ≠ IRQ_PEND w → a ≠ VEC_INSVC → (s.irqPendSet w m).reg a = s.reg a) ∧ (s.irqPendSet w m).irqEvents = s.irqEvents := by
  have hscan := (foldBelow 32 (fun s b => s.raiseIf (bitOf m b) (IRQ_PEND w) b) s).msixScan_onlyVectors
  have hne : IRQ_PEND w ≠ VEC_INSVC := by unfold IRQ_PEND VEC_INSVC; omega
  refine ⟨(hscan.reg _ hne).trans (s.reg_raises _ m), fun a ha hv => (hscan.reg a hv).trans ?_, hscan.irqEvents.trans ?_⟩
  · exact (s.raises_others _ m ha 32).1
  · exact (s.raises_others _ m hne.symm 32).2.1

/-- A delivered event sets its pending bit (R292). -/
theorem State.irqPending_irqPendSet (s : State) {i : Nat} (hi : i < 256) :
    (s.irqPendSet (i / 32) (BitVec.ofNat 32 (2 ^ (i % 32)))).irqPending i = true := by
  have hmod : i % 32 < 32 := Nat.mod_lt _ (by decide)
  rw [State.irqPending, State.bit, (s.irqPendSet_shows _ _ (by omega)).1, bitOf, BitVec.getLsbD_or, BitVec.getLsbD_ofNat,
    Nat.testBit_two_pow_self, decide_eq_true hmod]
  simp

/-- The oldest event is taken; its cause bit is set before its pending bit. -/
theorem State.irqLatch_cons {s : State} {e : IrqEvent} {rest : List IrqEvent} (hrun : s.power.phase = .run)
    (h : s.irqEvents = e :: rest) :
    s.irqLatch =
      (match e.bit with
        | some b => ({ s with irqEvents := rest } : State).raise (CAUSE e.source) b
        | none => { s with irqEvents := rest }).irqPendSet (e.source / 32) (BitVec.ofNat 32 (2 ^ (e.source % 32))) := by
  unfold State.irqLatch
  rw [h]
  dsimp only
  refine (if_pos (by rw [State.irqRuns, hrun]; rfl)).trans ?_
  cases e.bit <;> rfl

/-! ### Messages (R295) -/

theorem State.msixMessage_sends {s : State} {v : Nat} (hreq : s.power.msixReq.getLsbD v = true) (hen : s.power.msixEnable = true)
    (hmask : s.vecMasked v = false) :
    s.msixMessage v =
      { s with power := { s.power with msixReq := putBit s.power.msixReq v false, pba := putBit s.power.pba v false } }.send
        (.msix v (s.pair (MSIX_ADDR_LO v) (MSIX_ADDR_HI v)) (s.reg (MSIX_DATA v))) := by
  have h : (bitOf s.power.msixReq v && s.vecOpen v) = true := by
    rw [bitOf, hreq, State.vecOpen, hen, hmask]
    rfl
  exact if_pos h

theorem State.msixMessage_masked {s : State} {v : Nat} (hmask : s.vecMasked v = true) : s.msixMessage v = s := by
  have h : ¬ (bitOf s.power.msixReq v && s.vecOpen v) = true := by
    rw [State.vecOpen, hmask, Bool.not_true, Bool.and_false, Bool.and_false]
    exact Bool.false_ne_true
  exact if_neg h

theorem State.vecDone_enabled {s : State} (v : Word) (h : s.power.msixEnable = true) :
    s.vecDone v = (s.setReg VEC_INSVC (s.reg VEC_INSVC &&& ~~~ v)).msixScan := if_pos h

theorem State.vecDone_disabled {s : State} (v : Word) (h : s.power.msixEnable = false) : s.vecDone v = s :=
  if_neg (by rw [h]; exact Bool.false_ne_true)

/-! ### The configuration space (R299) -/

/-- The identification words depend on no write. -/
theorem State.cfgHeader_fixed (s t : State) {off : Nat} (h : off = 0x00 ∨ off = 0x08 ∨ off = 0x2C) : t.cfgHeader off = s.cfgHeader off := by
  rcases h with rfl | rfl | rfl <;> rfl

end Sys2Proof.Machine

namespace Sys2Proof.Proofs

open Sys2Proof.Machine Sys2Proof.Machine.Reg

theorem irqLatch_latches (s : State) (e : IrqEvent) (rest : List IrqEvent) (hs : s.serves) (h : s.irqEvents = e :: rest)
    (hsrc : e.source < 256) :
    ∃ t, exec .irqLatch s = .next t ∧ t.irqEvents = rest ∧ t.irqPending e.source = true ∧
      (∀ b : Nat, b < 32 → e.bit = some b → t.bit (CAUSE e.source) b = true) := by
  refine ⟨_, congrArg Host.Outcome.next ((s.onTclk_clocked _ (s.clocked_of_serves hs)).trans (State.irqLatch_cons hs.1 h)), ?_,
    State.irqPending_irqPendSet _ hsrc, fun b hb he => ?_⟩
  · refine (State.irqPendSet_shows _ _ _ (by omega)).2.2.trans ?_
    cases e.bit <;> rfl
  · rw [he]
    refine (congrArg (bitOf · b) ((State.irqPendSet_shows _ _ _ (by omega)).2.1 _ ?_ ?_)).trans (State.bit_raise_self _ _ hb)
    · unfold CAUSE IRQ_PEND; omega
    · unfold CAUSE VEC_INSVC; omega

theorem irqSet_sets (w : Fin 8) (v : Word) (s : State) (ha : s.accepts (IRQ_SET w) v) :
    ∃ t, exec (.irqSet w v) s = .next t ∧ t.reg (IRQ_PEND w) = s.reg (IRQ_PEND w) ||| v ∧
      (∀ u : Nat, u < 8 → u ≠ w.val → t.reg (IRQ_PEND u) = s.reg (IRQ_PEND u)) := by
  obtain ⟨hself, hother, -⟩ := (s.noteHost (IRQ_SET w)).irqPendSet_shows w v w.isLt
  refine ⟨_, congrArg Host.Outcome.next (s.hostWrite_accepts _ ha), hself, fun u hu hne => hother _ ?_ ?_⟩
  · unfold IRQ_PEND; omega
  · unfold IRQ_PEND VEC_INSVC; omega

theorem irqSelect_writes (a : Nat) (v m : Word) (s : State) (ha : s.accepts a v) (hm : selectMask a = some m) :
    exec (.irqSelectWrite a v) s = .next ((s.noteHost a).setNext a (v &&& m)) := by
  refine congrArg Host.Outcome.next ((s.hostWrite_accepts _ ha).trans ?_)
  unfold State.irqSelectWrite
  rw [hm]

theorem msixMessage_leaves (v : Fin 32) (s : State) (hc : s.clocked) (hreq : s.power.msixReq.getLsbD v = true)
    (hen : s.power.msixEnable = true) (hmask : s.vecMasked v = false) :
    ∃ t, exec (.msiXMessage v) s = .next t ∧ t.power.msixReq.getLsbD v = false ∧ t.pbaView.getLsbD v = false ∧
      t.sent = s.sent ++ [.msix v (s.pair (MSIX_ADDR_LO v) (MSIX_ADDR_HI v)) (s.reg (MSIX_DATA v))] :=
  ⟨_, congrArg Host.Outcome.next ((s.onTclk_clocked _ hc).trans (State.msixMessage_sends hreq hen hmask)),
    bitOf_putBit_self _ _ _ v.isLt, bitOf_putBit_self _ _ _ v.isLt, rfl⟩

theorem vecDone_ends (v : Word) (s : State) (ha : s.accepts VEC_DONE v) :
    (s.power.msixEnable = false → exec (.vecDone v) s = .next (s.noteHost VEC_DONE)) ∧
      (s.power.msixEnable = true → s.activeSources = [] →
        exec (.vecDone v) s = .next ((s.noteHost VEC_DONE).setReg VEC_INSVC (s.reg VEC_INSVC &&& ~~~ v)).pbaNote) := by
  have hrow : exec (.vecDone v) s = .next ((s.noteHost VEC_DONE).vecDone v) := congrArg Host.Outcome.next (s.hostWrite_accepts _ ha)
  refine ⟨fun hoff => by rw [hrow, State.vecDone_disabled (s := s.noteHost VEC_DONE) v hoff], fun hen hnone => ?_⟩
  have hidle : ((s.noteHost VEC_DONE).setReg VEC_INSVC ((s.noteHost VEC_DONE).reg VEC_INSVC &&& ~~~ v)).activeSources = [] :=
    (State.activeSources_setReg_ne _ _ (fun i _ => by unfold VEC_INSVC IRQ_PEND IRQ_ENA; omega)).trans hnone
  rw [hrow, State.vecDone_enabled (s := s.noteHost VEC_DONE) v hen, State.msixScan_idle hidle, State.reg_noteHost]

theorem msixControl_writes (v : Word) (s : State) :
    ∃ t, exec (.pcieConfigWrite .msixControl v) s = .next t ∧
      t.power.msixEnable = v.getLsbD 15 ∧ t.power.fnMask = v.getLsbD 14 ∧ (v.getLsbD 15 = false → t.reg VEC_INSVC = s.reg VEC_INSVC) ∧
      (∀ v : Nat, v < 32 → t.pbaView.getLsbD v = (t.power.msixReq.getLsbD v && !t.vecOpen v)) := by
  have hrow : exec (.pcieConfigWrite .msixControl v) s =
      .next (State.msixScan { s with power := { s.power with msixEnable := v.getLsbD 15, fnMask := v.getLsbD 14 } }) := rfl
  have hreg : s.reg VEC_INSVC =
      ({ s with power := { s.power with msixEnable := v.getLsbD 15, fnMask := v.getLsbD 14 } } : State).reg VEC_INSVC := rfl
  have hen : ({ s with power := { s.power with msixEnable := v.getLsbD 15, fnMask := v.getLsbD 14 } } : State).power.msixEnable =
      v.getLsbD 15 := rfl
  have hmask : ({ s with power := { s.power with msixEnable := v.getLsbD 15, fnMask := v.getLsbD 14 } } : State).power.fnMask =
      v.getLsbD 14 := rfl
  generalize ({ s with power := { s.power with msixEnable := v.getLsbD 15, fnMask := v.getLsbD 14 } } : State) = u at hrow hreg hen hmask
  have hscan := u.msixScan_onlyVectors
  refine ⟨_, hrow, hscan.msixEnable.trans hen, hscan.fnMask.trans hmask, fun hoff => ?_, fun v hv => u.pbaView_msixScan hv⟩
  rw [hreg, State.msixScan_disabled (hen.trans hoff)]
  rfl

theorem pcieConfig_header (r : CfgReg) (v : Word) (s : State) :
    ∃ t, exec (.pcieConfigWrite r v) s = .next t ∧
      (r = .bar0 → t.cfgHeader 0x10 = v &&& 0xFC000000#32) ∧
      (r = .bar2Lo → t.cfgHeader 0x18 = (v &&& 0xFF000000#32) ||| 0xC#32) ∧
      (r = .bar2Hi → t.cfgHeader 0x18 = s.cfgHeader 0x18) ∧ t.cfgHeader 0x1C = 0 ∧
      (∀ off, off = 0x00 ∨ off = 0x08 ∨ off = 0x2C → t.cfgHeader off = s.cfgHeader off) := by
  have hbar (m : Word) : (v &&& m) &&& m = v &&& m := by rw [BitVec.and_assoc, BitVec.and_self]
  refine ⟨_, rfl, ?_, ?_, ?_, rfl, fun off h => State.cfgHeader_fixed _ _ h⟩
  · rintro rfl
    exact hbar _
  · rintro rfl
    exact congrArg (· ||| 0xC#32) (hbar _)
  · rintro rfl
    rfl

/-- Settles O47: each row of the interrupt controller by its equation. -/
theorem interruptsAreLatchedAndSent : Obligations.InterruptsAreLatchedAndSent := by
  unfold Obligations.InterruptsAreLatchedAndSent
  exact ⟨irqLatch_latches, irqSet_sets, irqSelect_writes, msixMessage_leaves,
    fun v s hc hmask => congrArg Host.Outcome.next ((s.onTclk_clocked _ hc).trans (State.msixMessage_masked hmask)), vecDone_ends,
    msixControl_writes, pcieConfig_header⟩

end Sys2Proof.Proofs
end

section
/-!
PROOFS. The host ports (R299 to R304): what an access fault logs, a PCIe request, a QSPI frame, and the obligations O5 and O7.
-/

namespace Sys2Proof.Machine

open Reg

/-! ### Access faults (R301, R304) -/

theorem State.accessFault_shows (s : State) (a : Word) (write qspi : Bool) (be : BitVec 4) :
    let t := s.accessFault a write qspi be
    t.reg ACC_ERR_ADDR = a ∧ t.reg ACC_ERR_CNT = satInc (s.reg ACC_ERR_CNT) ∧ t.reservoir = s.reservoir ∧ t.sent = s.sent := by
  have hraise (u : State) {b : Nat} (h : b ≠ HG_EVENT) : (u.hgEvent 0).reg b = u.reg b := State.reg_setReg_ne _ _ h
  refine ⟨?_, ?_, rfl, rfl⟩
  · unfold State.accessFault
    rw [hraise _ (by decide), State.reg_satCount_ne _ (by decide), State.reg_setReg_ne _ _ (by decide), State.reg_setReg_self]
  · unfold State.accessFault
    rw [hraise _ (by decide), State.reg_satCount_self, State.reg_setReg_ne _ _ (by decide), State.reg_setReg_ne _ _ (by decide)]

/-! ### Accesses in ascending order -/

/-- Writes at the words from `a` on: the first, then the rest from the next word on. -/
theorem State.writes_cons (s : State) (q : Bool) (a : Nat) (v : Word) (ws : List Word) :
    ((v :: ws).zipIdx).foldl (fun s e => s.writeA q (a + 4 * e.2) e.1) s =
      ws.zipIdx.foldl (fun s e => s.writeA q (a + 4 + 4 * e.2) e.1) (s.writeA q a v) := by
  rw [List.zipIdx_cons, List.foldl_cons, List.zipIdx_eq_map_add, List.foldl_map]
  have hstep : (fun (s : State) (e : Word × Nat) => s.writeA q (a + 4 * (0 + 1 + e.2)) e.1) =
      fun s e => s.writeA q (a + 4 + 4 * e.2) e.1 := by
    funext s e
    rw [show a + 4 * (0 + 1 + e.2) = a + 4 + 4 * e.2 by omega]
  exact congrArg (fun f => ws.zipIdx.foldl f (s.writeA q a v)) hstep

/-- A read adds words to those of the request and changes none of them. -/
theorem State.readA_prefix (s : State) (a : Nat) : ∃ ws, (s.readA a).hostData = s.hostData ++ ws := by
  have hgated : (s.holdRead a).hostData = s.hostData := rfl
  by_cases hs : s.serves
  · cases hg : s.meetsGate a with
    | false => exact ⟨_, s.readA_hostData hs hg⟩
    | true =>
      refine ⟨[], ?_⟩
      rw [List.append_nil, State.readA, hs.1, hs.2, hg]
      exact hgated
  · by_cases hsoft : s.power.phase = .soft
    · refine ⟨[0], ?_⟩
      rw [State.readA, hsoft]
    · refine ⟨[], ?_⟩
      rw [List.append_nil]
      unfold State.readA
      split
      · next hrun =>
        have hstop : s.power.bclk = false := by simpa [State.serves, hrun] using hs
        rw [hstop]
        rfl
      · exact absurd ‹_› hsoft
      · rfl

theorem State.reads_prefix {α : Type} (f : α → Nat) (l : List α) (s : State) :
    ∃ ws, (l.foldl (fun s i => s.readA (f i)) s).hostData = s.hostData ++ ws := by
  induction l generalizing s with
  | nil => exact ⟨[], (List.append_nil _).symm⟩
  | cons i l ih =>
    obtain ⟨ws, h⟩ := s.readA_prefix (f i)
    obtain ⟨vs, h'⟩ := ih (s.readA (f i))
    exact ⟨ws ++ vs, by rw [List.foldl_cons, h', h, List.append_assoc]⟩

/-! ### PCIe requests (R301) -/

/-- A request whose byte enables are all set is its accesses. -/
theorem State.pcieServe_enabled (s : State) (write : Bool) (a : Nat) {dws : List (BitVec 4 × Word)} (h : ∀ d ∈ dws, d.1 = 0xF) :
    s.pcieServe write a dws = (if write then s else { s with hostData := [] }).pcieAccess write a (dws.map Prod.snd) := by
  have hnone : (dws.zipIdx).find? (fun e => e.1.1 != 0xF#4) = none := by
    refine List.find?_eq_none.2 fun e he => ?_
    rw [h e.1 (List.fst_mem_of_mem_zipIdx he)]
    decide
  unfold State.pcieServe
  dsimp only
  rw [hnone]

/-- A request of one word whose byte enables are not all set is refused (R301). -/
theorem State.pcieServe_disabled {s : State} (write : Bool) (a : Nat) (v : Word) {be : BitVec 4} (hs : s.serves) (h : be ≠ 0xF) :
    s.pcieServe write a [(be, v)] =
      ((if write then s else { s with hostData := [] }).accessFault (BitVec.ofNat 32 a) write false be).send (.unsupported a) := by
  have hfind : ([(be, v)].zipIdx).find? (fun e => e.1.1 != 0xF#4) = some ((be, v), 0) :=
    List.find?_cons_of_pos (p := fun e : (BitVec 4 × Word) × Nat => e.1.1 != 0xF#4) (bne_iff_ne.2 h)
  unfold State.pcieServe
  dsimp only
  rw [hfind]
  dsimp only
  rw [if_pos]
  · rfl
  · cases write
    · exact beq_iff_eq.2 hs.1
    · exact beq_iff_eq.2 hs.1

/-! ### QSPI frames (R303, R304) -/

theorem qspiRoom_aligned {a : Nat} (h : a % 4 = 0) : qspiRoom a = (2 ^ 26 - a) / 4 := if_pos h

theorem qspiRoom_misaligned {a : Nat} (h : a % 4 ≠ 0) : qspiRoom a = 0 := if_neg h

theorem State.qspiRead_runs {s : State} (hc : s.clocked) (a n : Nat) (part : Bool) :
    s.qspiRead 0x0B#8 a n part = s.qspiReadFrame a n part := by
  have hrun : ¬ (!s.qspiRuns) = true := by
    rw [State.qspiRuns, show s.tclk = true from hc]
    decide
  exact (if_neg hrun).trans (if_pos rfl)

theorem State.qspiQread_runs {s : State} (hc : s.clocked) (a n : Nat) (part : Bool) : s.qspiQread a n part = s.qspiReadFrame a n part :=
  if_pos hc

theorem State.qspiWrite_runs {s : State} (hc : s.clocked) (a : Nat) (ws : List Word) (part : Bool) :
    s.qspiWrite a ws part = s.qspiWriteFrame a ws part := if_pos hc

/-- The accesses of a read frame: its words, and the word after them. -/
def State.qspiReads (s : State) (a n : Nat) : State :=
  (List.range (min (n + 1) (qspiRoom a))).foldl (fun s i => s.readA (a + 4 * i)) { s with hostData := [] }

/-- A read frame of whole words within the window ends with DONE. -/
theorem State.qspiReadFrame_within (s : State) {a n : Nat} (hn : n ≤ qspiRoom a) (hroom : qspiRoom a ≠ 0) :
    s.qspiReadFrame a n false = State.setQspi { s.qspiReads a n with hostData := (s.qspiReads a n).hostData.take n } true false false false := by
  have hbad : (decide (qspiRoom a < n + (false : Bool).toNat) || qspiRoom a == 0) = false := by
    rw [Bool.toNat_false, Nat.add_zero, decide_eq_false (by omega), beq_eq_false_iff_ne.2 hroom]
    rfl
  unfold State.qspiReadFrame
  dsimp only
  rw [hbad]
  rfl

/-- The accesses of a write frame, and whether SEAL has refused one. -/
def State.qspiWrites (s : State) (a : Nat) (ws : List Word) : Bool × State :=
  (ws.zipIdx).foldl (fun (r : Bool × State) e => (r.1 || r.2.sealLocks (a + 4 * e.2) e.1, r.2.writeA true (a + 4 * e.2) e.1)) (false, s)

theorem State.qspiWriteFrame_within (s : State) {a : Nat} {ws : List Word} (hn : ws.length ≤ qspiRoom a) (hroom : qspiRoom a ≠ 0) :
    s.qspiWriteFrame a ws false = (s.qspiWrites a ws).2.setQspi (!(s.qspiWrites a ws).1) false false (s.qspiWrites a ws).1 := by
  have hbad : (decide (qspiRoom a < ws.length + (false : Bool).toNat) || qspiRoom a == 0) = false := by
    rw [Bool.toNat_false, Nat.add_zero, decide_eq_false (by omega), beq_eq_false_iff_ne.2 hroom]
    rfl
  unfold State.qspiWriteFrame
  dsimp only
  rw [hbad, List.take_of_length_le hn]
  rfl

/-- The state that the accesses of a write frame leave is that of its writes alone. -/
theorem qspiWrites_snd (a : Nat) (l : List (Word × Nat)) (r : Bool × State) :
    (l.foldl (fun (r : Bool × State) e => (r.1 || r.2.sealLocks (a + 4 * e.2) e.1, r.2.writeA true (a + 4 * e.2) e.1)) r).2 =
      l.foldl (fun u e => u.writeA true (a + 4 * e.2) e.1) r.2 := by
  induction l generalizing r with
  | nil => rfl
  | cons e l ih => rw [List.foldl_cons, List.foldl_cons, ih]

/-- A frame at a misaligned address has no access and ends with an address error (R304). -/
theorem State.qspiFault_shows {s : State} (hs : s.serves) (a : Word) (write : Bool) (part : Bool) :
    let t := (s.qspiFault a write).setQspi (!true && !part && !false) true (part && !true) false
    t.hg.qspi = 2 ∧ t.reg ACC_ERR_ADDR = a ∧ t.reg ACC_ERR_CNT = satInc (s.reg ACC_ERR_CNT) ∧ t.reservoir = s.reservoir := by
  obtain ⟨ha, hc, hr, -⟩ := s.accessFault_shows a write true (s.freeValue.truncate 4)
  have hrun : s.qspiFault a write = (s.accessFault a write true (s.freeValue.truncate 4)).useFree :=
    if_pos (beq_iff_eq.2 hs.1)
  rw [hrun]
  generalize s.accessFault a write true (s.freeValue.truncate 4) = u at ha hc hr
  refine ⟨?_, ha, hc, hr⟩
  cases part <;> rfl

theorem State.qspiReadFrame_misaligned (s : State) {a : Nat} (h : a % 4 ≠ 0) (n : Nat) (part : Bool) :
    s.qspiReadFrame a n part =
      ((({ s with hostData := [] } : State).qspiFault (BitVec.ofNat 32 a) false).setQspi (!true && !part && !false) true (part && !true)
        false) := by
  have hbad : (decide (0 < n + part.toNat) || (0 : Nat) == 0) = true := by simp
  unfold State.qspiReadFrame
  dsimp only
  rw [qspiRoom_misaligned h, hbad, Nat.min_zero, List.range_zero, List.foldl_nil, List.take_nil, if_pos rfl]
  rfl

theorem State.qspiWriteFrame_misaligned (s : State) {a : Nat} (h : a % 4 ≠ 0) (ws : List Word) (part : Bool) :
    s.qspiWriteFrame a ws part =
      (s.qspiFault (BitVec.ofNat 32 a) true).setQspi (!true && !part && !false) true (part && !true) false := by
  have hbad : (decide (0 < ws.length + part.toNat) || (0 : Nat) == 0) = true := by simp
  unfold State.qspiWriteFrame
  dsimp only
  rw [qspiRoom_misaligned h, hbad, List.take_zero]
  rfl

/-! ### The identification -/

theorem State.reg_seen_returning (s : State) (ws : List Word) (a : Nat) : ((s.returning ws).seen a).reg a = (s.seen a).reg a := by
  unfold State.seen State.cycleStart State.returning
  dsimp only
  split
  · rfl
  · split <;> rfl

theorem State.busView_ID_PART (s : State) : s.busView ID_PART = s.reg ID_PART := by
  have hrow : (regRow ID_PART).isNone = false := by decide
  have hlow : s.lowView ID_PART = s.reg ID_PART := rfl
  have hwo : woMask ID_PART = 0 := by decide
  rw [State.busView, s.viewWord_eq_none (by decide) (.inl (by decide))]
  dsimp only
  rw [hrow, if_neg Bool.false_ne_true, if_pos (by decide), hlow, hwo]
  exact BitVec.and_allOnes

theorem State.busRead_ID_PART (s : State) : (s.busRead ID_PART).1 = (s.seen ID_PART).reg ID_PART := by
  rw [← State.busView_ID_PART]
  rfl

end Sys2Proof.Machine

namespace Sys2Proof.Proofs

open Sys2Proof.Machine Sys2Proof.Machine.Reg

/-! ### PCIe requests -/

theorem exec_pcieMemoryRequest {s : State} (write : Bool) (a : Nat) (dws : List (BitVec 4 × Word)) (hs : s.serves) :
    exec (.pcieMemoryRequest write a dws) s = .next (s.pcieServe write a dws) :=
  congrArg Host.Outcome.next (s.hostRequest_serves _ _ hs)

theorem exec_pcieWrites {s : State} (a : Nat) (v : Word) {ds : List (BitVec 4 × Word)} (hs : s.serves) (h : ∀ d ∈ ds, d.1 = 0xF) :
    exec (.pcieMemoryRequest true a ((0xF, v) :: ds)) s =
      .next ((ds.map Prod.snd).zipIdx.foldl (fun s e => s.writeA false (a + 4 + 4 * e.2) e.1) (s.writeA false a v)) := by
  have hall : ∀ d ∈ (((0xF : BitVec 4), v) :: ds), d.1 = 0xF := List.forall_mem_cons.2 ⟨rfl, h⟩
  rw [exec_pcieMemoryRequest _ _ _ hs, s.pcieServe_enabled true a hall, List.map_cons, ← s.writes_cons false a v]
  rfl

theorem pcieRead_word (s : State) (a : Nat) (v : Word) (hs : s.serves) (hg : s.meetsGate a = false) :
    ∃ t, exec (.pcieMemoryRequest false a [(0xF, v)]) s = .next t ∧ t.hostData = [((s.returning []).busRead a).1] ∧
      exec (.rcRead a) s = .next t := by
  refine ⟨(s.returning []).readA a, ?_, State.readA_hostData (s.returning []) hs hg, exec_rcRead s a⟩
  rw [exec_pcieMemoryRequest _ _ _ hs, s.pcieServe_enabled false a (List.forall_mem_singleton.2 rfl)]
  rfl

theorem pcieRequest_unsupported (s : State) (a : Nat) (v : Word) (be : BitVec 4) (hs : s.serves) (hbe : be ≠ 0xF) (w : Bool) :
    ∃ t, exec (.pcieMemoryRequest w a [(be, v)]) s = .next t ∧ t.sent = s.sent ++ [.unsupported a] ∧
      t.reg ACC_ERR_ADDR = BitVec.ofNat 32 a ∧ t.reg ACC_ERR_CNT = satInc (s.reg ACC_ERR_CNT) ∧ t.reservoir = s.reservoir := by
  have hrow : exec (.pcieMemoryRequest w a [(be, v)]) s =
      .next (((if w then s else s.returning []).accessFault (BitVec.ofNat 32 a) w false be).send (.unsupported a)) := by
    rw [exec_pcieMemoryRequest _ _ _ hs, State.pcieServe_disabled w a v hs hbe]
    rfl
  have hkept : (if w then s else s.returning []).sent = s.sent ∧ (if w then s else s.returning []).reg ACC_ERR_CNT = s.reg ACC_ERR_CNT ∧
      (if w then s else s.returning []).reservoir = s.reservoir := by cases w <;> exact ⟨rfl, rfl, rfl⟩
  generalize (if w then s else s.returning []) = u at hrow hkept
  obtain ⟨haddr, hcnt, hres, hsent⟩ := u.accessFault_shows (BitVec.ofNat 32 a) w false be
  generalize u.accessFault (BitVec.ofNat 32 a) w false be = f at hrow haddr hcnt hres hsent
  obtain ⟨hs', hc', hr'⟩ := hkept
  exact ⟨_, hrow, congrArg (· ++ _) (hsent.trans hs'), haddr, hcnt.trans (by rw [hc']), hres.trans hr'⟩

/-- Settles O5: a request of whole words is its accesses in ascending order. -/
theorem pcieRequestsAreServed : Obligations.PcieRequestsAreServed := by
  unfold Obligations.PcieRequestsAreServed
  refine ⟨⟨fun s a v ha => ?_, pcieRead_word, fun s a v ds hs h => ?_, pcieRequest_unsupported⟩, fun s => rfl⟩
  · rw [exec_pcieWrites a v ha.1 (List.forall_mem_nil _)]
    exact congrArg Host.Outcome.next (s.hostWrite_accepts _ ha)
  · exact ⟨_, _, exec_registerWrite s a v, exec_pcieWrites a v hs h, rfl⟩

/-! ### QSPI frames -/

theorem exec_qspiReads {s : State} {a n : Nat} (hc : s.clocked) (h4 : a % 4 = 0) (hn : a + 4 * n ≤ 2 ^ 26) (ha : a < 2 ^ 26) :
    ∃ t, t = State.setQspi { s.qspiReads a n with hostData := (s.qspiReads a n).hostData.take n } true false false false ∧
      exec (.qspiRead 0x0B#8 a n false) s = .next t ∧ exec (.qspiQread a n false) s = .next t := by
  have hroom := qspiRoom_aligned h4
  have hframe := s.qspiReadFrame_within (a := a) (n := n) (by omega) (by omega)
  exact ⟨_, rfl, congrArg Host.Outcome.next ((State.qspiRead_runs hc a n false).trans hframe),
    congrArg Host.Outcome.next ((State.qspiQread_runs hc a n false).trans hframe)⟩

theorem exec_qspiWrites {s : State} {a : Nat} {ws : List Word} (hc : s.clocked) (h4 : a % 4 = 0) (hn : a + 4 * ws.length ≤ 2 ^ 26)
    (ha : a < 2 ^ 26) :
    let t := (s.qspiWrites a ws).2.setQspi (!(s.qspiWrites a ws).1) false false (s.qspiWrites a ws).1
    exec (.qspiWrite a ws false) s = .next t ∧ exec (.qspiQwrite a ws false) s = .next t := by
  have hroom := qspiRoom_aligned h4
  have hframe := s.qspiWriteFrame_within (a := a) (ws := ws) (by omega) (by omega)
  have hrun := (State.qspiWrite_runs hc a ws false).trans hframe
  exact ⟨congrArg Host.Outcome.next hrun, congrArg Host.Outcome.next hrun⟩

theorem qspiRead_word (s : State) (a n : Nat) (hc : s.clocked) (h4 : a % 4 = 0) (hn : a + 4 * n ≤ 2 ^ 26) (ha : a < 2 ^ 26) :
    ∃ t, exec (.qspiRead 0x0B#8 a n false) s = .next t ∧ exec (.qspiQread a n false) s = .next t ∧ t.hg.qspi = 1 ∧
      (s.serves → s.meetsGate a = false → n = 1 → t.hostData = [((s.returning []).busRead a).1]) := by
  obtain ⟨t, ht, hread, hqread⟩ := exec_qspiReads hc h4 hn ha
  refine ⟨t, hread, hqread, congrArg (State.hg · |>.qspi) ht, fun hs hg h1 => ?_⟩
  subst h1
  have hroom := qspiRoom_aligned h4
  obtain ⟨m, hm⟩ : ∃ m, min (1 + 1) (qspiRoom a) = m + 1 := ⟨min 1 (qspiRoom a - 1), by omega⟩
  have hfirst : s.qspiReads a 1 = (List.range m).foldl (fun s i => s.readA (a + 4 * (i + 1))) ((s.returning []).readA a) := by
    rw [State.qspiReads, hm, List.range_succ_eq_map, List.foldl_cons, List.foldl_map]
    rfl
  obtain ⟨ws, hws⟩ := State.reads_prefix (fun i => a + 4 * (i + 1)) (List.range m) ((s.returning []).readA a)
  have hword := State.readA_hostData (s.returning []) hs hg
  rw [← hfirst, hword] at hws
  refine (congrArg State.hostData ht).trans ?_
  change ((s.qspiReads a 1).hostData.take 1) = _
  rw [hws]
  rfl

theorem qspiWrite_word (s : State) (a : Nat) (v : Word) (ha : s.portAccepts true a v) (h4 : a % 4 = 0) (hlt : a < 2 ^ 26) :
    exec (.qspiWrite a [v] false) s = .next (((s.noteHost a).busWrite a v).setQspi true false false false) ∧
      exec (.qspiQwrite a [v] false) s = .next (((s.noteHost a).busWrite a v).setQspi true false false false) := by
  obtain ⟨hs, hseal, hblocked, hgate, hwrote⟩ := ha
  have hfold : s.qspiWrites a [v] = (false, (s.noteHost a).busWrite a v) := by
    refine Prod.ext ?_ ?_
    · change (false || s.sealLocks a v) = false
      rw [hseal]
      rfl
    · change s.writeA true a v = _
      simp [State.writeA, State.portWrite, hs.1, hs.2, hseal, hblocked, hgate, hwrote]
  obtain ⟨hwrite, hqwrite⟩ := exec_qspiWrites (ws := [v]) (s.clocked_of_serves hs) h4 (by rw [List.length_singleton]; omega) hlt
  rw [hfold] at hwrite hqwrite
  exact ⟨hwrite, hqwrite⟩

theorem qspiWrite_locked (s : State) (a : Nat) (v : Word) (hs : s.serves) (hseal : s.sealLocks a v = true) (h4 : a % 4 = 0)
    (hlt : a < 2 ^ 26) :
    ∃ t, exec (.qspiWrite a [v] false) s = .next t ∧ exec (.qspiQwrite a [v] false) s = .next t ∧ t.hg.qspi = 8 := by
  have hlocked : (s.qspiWrites a [v]).1 = true := by
    change (false || s.sealLocks a v) = true
    rw [hseal]
    rfl
  obtain ⟨hwrite, hqwrite⟩ := exec_qspiWrites (ws := [v]) (s.clocked_of_serves hs) h4 (by rw [List.length_singleton]; omega) hlt
  rw [hlocked] at hwrite hqwrite
  exact ⟨_, hwrite, hqwrite, rfl⟩

theorem qspiRead_readsAhead (s : State) (a n : Nat) (hc : s.clocked) (h4 : a % 4 = 0) (hn : a + 4 * (n + 1) ≤ 2 ^ 26) :
    ∃ t, exec (.qspiRead 0x0B#8 a n false) s = .next t ∧ exec (.qspiQread a n false) s = .next t ∧
      t.hostData = ((List.range (n + 1)).foldl (fun u i => u.readA (a + 4 * i)) (s.returning [])).hostData.take n := by
  obtain ⟨t, ht, hread, hqread⟩ := exec_qspiReads (n := n) hc h4 (by omega) (by omega)
  refine ⟨t, hread, hqread, (congrArg State.hostData ht).trans ?_⟩
  have hroom := qspiRoom_aligned h4
  have hmin : min (n + 1) (qspiRoom a) = n + 1 := by omega
  change ((s.qspiReads a n).hostData.take n) = _
  rw [State.qspiReads, hmin]
  rfl

theorem qspiWrite_words (s : State) (a : Nat) (ws : List Word) (hc : s.clocked) (h4 : a % 4 = 0) (hn : a + 4 * ws.length ≤ 2 ^ 26)
    (ha : a < 2 ^ 26) :
    ∃ locked : Bool, ∀ c ∈ [Instr.qspiWrite a ws false, .qspiQwrite a ws false],
      exec c s = .next ((ws.zipIdx.foldl (fun u e => u.writeA true (a + 4 * e.2) e.1) s).setQspi (!locked) false false locked) := by
  refine ⟨(s.qspiWrites a ws).1, ?_⟩
  rw [← qspiWrites_snd a ws.zipIdx (false, s)]
  obtain ⟨hwrite, hqwrite⟩ := exec_qspiWrites hc h4 hn ha
  intro c hmem
  rcases List.mem_cons.1 hmem with rfl | hmem
  · exact hwrite
  · rw [List.mem_singleton.1 hmem]
    exact hqwrite

theorem qspiFrame_misaligned (s : State) (a n : Nat) (ws : List Word) (part : Bool) (hs : s.serves) (h4 : a % 4 ≠ 0) :
    ∀ c ∈ [Instr.qspiRead 0x0B#8 a n part, .qspiQread a n part, .qspiWrite a ws part, .qspiQwrite a ws part],
      ∃ t, exec c s = .next t ∧ t.hg.qspi = 2 ∧ t.reg ACC_ERR_ADDR = BitVec.ofNat 32 a ∧
        t.reg ACC_ERR_CNT = satInc (s.reg ACC_ERR_CNT) ∧ t.reservoir = s.reservoir := by
  have hc := s.clocked_of_serves hs
  have hrfault := State.qspiFault_shows (s := { s with hostData := [] }) hs (BitVec.ofNat 32 a) false part
  have hwfault := State.qspiFault_shows hs (BitVec.ofNat 32 a) true part
  have hread := s.qspiReadFrame_misaligned h4 n part
  have hwrite := s.qspiWriteFrame_misaligned h4 ws part
  intro c hmem
  simp only [List.mem_cons, List.not_mem_nil, or_false] at hmem
  rcases hmem with rfl | rfl | rfl | rfl
  · exact ⟨_, congrArg Host.Outcome.next ((State.qspiRead_runs hc a n part).trans hread), hrfault⟩
  · exact ⟨_, congrArg Host.Outcome.next ((State.qspiQread_runs hc a n part).trans hread), hrfault⟩
  · exact ⟨_, congrArg Host.Outcome.next ((State.qspiWrite_runs hc a ws part).trans hwrite), hwfault⟩
  · exact ⟨_, congrArg Host.Outcome.next ((State.qspiWrite_runs hc a ws part).trans hwrite), hwfault⟩

theorem qspiId_reads (s : State) (hs : s.serves) :
    ∃ t, exec .qspiId s = .next t ∧ t.hostData = [(s.seen ID_PART).reg ID_PART] ∧ t.hg.qspi = 1 := by
  refine ⟨_, congrArg Host.Outcome.next (s.onTclk_clocked _ (s.clocked_of_serves hs)), ?_, rfl⟩
  have hword := State.readA_hostData (s.returning []) (a := ID_PART) hs (State.meetsGate_below_clusters _ (by decide))
  rw [State.busRead_ID_PART, State.reg_seen_returning] at hword
  exact hword

/-- Settles O7: a frame of whole words within the window is its accesses; a misaligned one faults. -/
theorem qspiFramesAccessWindowA : Obligations.QspiFramesAccessWindowA := by
  unfold Obligations.QspiFramesAccessWindowA
  exact ⟨qspiRead_word, qspiWrite_word, qspiWrite_locked, qspiRead_readsAhead, qspiWrite_words, qspiFrame_misaligned,
    fun s hc => congrArg Host.Outcome.next (s.onTclk_clocked _ hc), qspiId_reads⟩

end Sys2Proof.Proofs
end

section
/-!
PROOFS. What the pads and the mittens leave alone: every register outside their blocks, and the state of the rest of the device.
-/

namespace Sys2Proof.Machine

open Reg

/-- The address is not one of the trip, mitten and pin blocks. -/
def besidePins (a : Nat) : Prop := a < 0x50000 ∨ 0x70000 ≤ a

/-- `t` is `s` but for pads, mittens, trips, their registers, the wear owed to the island, interrupt events and what hardware notes. -/
structure KeepsSystem (s t : State) : Prop where
  regs : ∀ a, besidePins a → t.reg a = s.reg a
  mt : t.mt = s.mt
  power : t.power = s.power
  hg : t.hg = s.hg
  nvm : t.nvm = s.nvm
  ustore : t.ustore = s.ustore
  reservoir : t.reservoir = s.reservoir
  threads : t.threads = s.threads
  engines : t.engines = s.engines
  weirs : t.weirs = s.weirs
  rings : t.rings = s.rings
  chans : t.chans = s.chans
  swap : t.swap = s.swap
  island : { t.island with owed := s.island.owed } = s.island
  cal : t.cal = s.cal

namespace KeepsSystem

variable {r s t : State}

theorem refl (s : State) : KeepsSystem s s := ⟨fun _ _ => rfl, rfl, rfl, rfl, rfl, rfl, rfl, rfl, rfl, rfl, rfl, rfl, rfl, rfl, rfl⟩

theorem trans (h : KeepsSystem r s) (h' : KeepsSystem s t) : KeepsSystem r t where
  regs a ha := (h'.regs a ha).trans (h.regs a ha)
  mt := h'.mt.trans h.mt
  power := h'.power.trans h.power
  hg := h'.hg.trans h.hg
  nvm := h'.nvm.trans h.nvm
  ustore := h'.ustore.trans h.ustore
  reservoir := h'.reservoir.trans h.reservoir
  threads := h'.threads.trans h.threads
  engines := h'.engines.trans h.engines
  weirs := h'.weirs.trans h.weirs
  rings := h'.rings.trans h.rings
  chans := h'.chans.trans h.chans
  swap := h'.swap.trans h.swap
  island := (congrArg (fun i : Island => { i with owed := r.island.owed }) h'.island).trans h.island
  cal := h'.cal.trans h.cal

theorem ite {c : Prop} [Decidable c] (h : KeepsSystem r s) (h' : KeepsSystem r t) : KeepsSystem r (if c then s else t) := by
  split <;> assumption

theorem foldl {α : Type} {f : State → α → State} (hf : ∀ s x, KeepsSystem s (f s x)) (l : List α) (s : State) :
    KeepsSystem s (l.foldl f s) := by
  induction l generalizing s with
  | nil => exact refl s
  | cons x l ih => exact (hf s x).trans (ih _)

/-- A step of a fold over the numbers below `n`. -/
theorem foldBelow {f : State → Nat → State} {n : Nat} (hf : ∀ s, ∀ x < n, KeepsSystem s (f s x)) (s : State) :
    KeepsSystem s (foldBelow n f s) := by
  induction n with
  | zero => exact refl s
  | succ n ih =>
    have hlast : Machine.foldBelow (n + 1) f s = f (Machine.foldBelow n f s) n := by
      rw [Machine.foldBelow, List.range_succ, List.foldl_append]
      rfl
    rw [hlast]
    exact (ih fun s x hx => hf s x (Nat.lt_succ_of_lt hx)).trans (hf _ n (Nat.lt_succ_self n))

theorem setReg (s : State) {a : Nat} (v : Word) (ha : ¬ besidePins a) : KeepsSystem s (s.setReg a v) :=
  ⟨fun _ hb => s.reg_setReg_ne v fun h => ha (h ▸ hb), rfl, rfl, rfl, rfl, rfl, rfl, rfl, rfl, rfl, rfl, rfl, rfl, rfl, rfl⟩

theorem raise (s : State) {a : Nat} (i : Nat) (ha : ¬ besidePins a) : KeepsSystem s (s.raise a i) :=
  ⟨fun _ hb => s.reg_setReg_ne _ fun h => ha (h ▸ hb), rfl, rfl, rfl, rfl, rfl, rfl, rfl, rfl, rfl, rfl, rfl, rfl, rfl, rfl⟩

theorem satCount (s : State) {a : Nat} (ha : ¬ besidePins a) : KeepsSystem s (s.satCount a) :=
  ⟨fun _ hb => s.reg_satCount_ne fun h => ha (h ▸ hb), rfl, rfl, rfl, rfl, rfl, rfl, rfl, rfl, rfl, rfl, rfl, rfl, rfl, rfl⟩

theorem setPin (s : State) (p : Nat) (c : PinState) : KeepsSystem s (s.setPin p c) :=
  ⟨fun _ _ => rfl, rfl, rfl, rfl, rfl, rfl, rfl, rfl, rfl, rfl, rfl, rfl, rfl, rfl, rfl⟩

theorem setMitten (s : State) (m : Nat) (c : Mitten) : KeepsSystem s (s.setMitten m c) :=
  ⟨fun _ _ => rfl, rfl, rfl, rfl, rfl, rfl, rfl, rfl, rfl, rfl, rfl, rfl, rfl, rfl, rfl⟩

theorem deliver (s : State) (i : Nat) (b : Option Nat) : KeepsSystem s (s.deliver i b) :=
  ⟨fun _ _ => rfl, rfl, rfl, rfl, rfl, rfl, rfl, rfl, rfl, rfl, rfl, rfl, rfl, rfl, rfl⟩

theorem owe (s : State) (w : Nat) (ts : List Tick) :
    KeepsSystem s { s with island := { s.island with owed := s.island.owed.set (fun _ => []) w ts } } :=
  ⟨fun _ _ => rfl, rfl, rfl, rfl, rfl, rfl, rfl, rfl, rfl, rfl, rfl, rfl, rfl, rfl, rfl⟩

end KeepsSystem

/-! ### The pads -/

theorem State.noteWear_keepsSystem (s : State) (src idx : Nat) : KeepsSystem s (s.noteWear src idx) :=
  .foldl (fun s w => .owe s w _) _ s

theorem State.noteForce_keepsSystem (s : State) (p : Nat) : KeepsSystem s (s.noteForce p) := by
  unfold State.noteForce
  dsimp only
  split
  · exact .setPin s p _
  · exact .ite (.refl s) (.setPin s p _)

theorem State.passInterlock_keepsSystem (s : State) (p : Nat) : KeepsSystem s (s.passInterlock p) := by
  unfold State.passInterlock
  split
  · exact .ite (.setPin s p _) (.refl s)
  · exact .refl s

/-- A register of one of the 32 mittens. -/
theorem mitten_not_besidePins {m : Nat} (hm : m < 32) :
    ¬ besidePins (MIT_STATUS m) ∧ ¬ besidePins (TAKE_CNT m) ∧ ¬ besidePins (BLANK_CNT m) ∧ ¬ besidePins (MIT_TAKE_LO m) ∧
      ¬ besidePins (MIT_TAKE_HI m) := by
  unfold besidePins MIT_STATUS TAKE_CNT BLANK_CNT MIT_TAKE_LO MIT_TAKE_HI
  omega

theorem State.settlePad_keepsSystem (s : State) (st : Stamp) (p : Nat) : KeepsSystem s (s.settlePad st p) := by
  have hpin (c d : PinState) : KeepsSystem s ((s.setPin p c).setPin p d) := (KeepsSystem.setPin s p c).trans (.setPin _ p d)
  have hwear (b : Bool) (c d : PinState) : KeepsSystem s
      (if b = true then (s.setPin p c).setPin p d else ((s.setPin p c).setPin p d).noteWear 2 p) :=
    .ite (hpin c d) ((hpin c d).trans (State.noteWear_keepsSystem _ 2 p))
  unfold State.settlePad
  cases hact : s.action p with
  | none => exact hwear _ _ _
  | some a =>
    have hm : a.1 < 32 := State.action_lt (x := a.2) hact
    exact .ite ((hwear _ _ _).trans (.raise _ 4 (mitten_not_besidePins hm).1)) (hwear _ _ _)

theorem State.refreshPins_keepsSystem (s : State) (st : Stamp) : KeepsSystem s (s.refreshPins st) := by
  have hforce := KeepsSystem.foldl State.noteForce_keepsSystem s.livePins s
  have hpass := KeepsSystem.foldl State.passInterlock_keepsSystem s.livePins (s.livePins.foldl State.noteForce s)
  exact (hforce.trans hpass).trans (.foldl (fun u p => u.settlePad_keepsSystem st p) _ _)

/-! ### Sources of the mittens (R108) -/

theorem State.take_keepsSystem (s : State) {m : Nat} (i : Nat) (hm : m < 32) : KeepsSystem s (s.take m i) := by
  obtain ⟨hstatus, hcnt, -, hlo, hhi⟩ := mitten_not_besidePins hm
  have hforce (c : Mitten) (v : Word) : KeepsSystem s ((s.setMitten m c).setReg (MIT_STATUS m) v) :=
    (KeepsSystem.setMitten s m c).trans (.setReg _ v hstatus)
  have hstamp (u : State) (v : BitVec 64) : KeepsSystem u ((u.setPair (MIT_TAKE_LO m) (MIT_TAKE_HI m) v).satCount (TAKE_CNT m)) :=
    ((KeepsSystem.setReg u _ hlo).trans (.setReg _ _ hhi)).trans (.satCount _ hcnt)
  have htaken (c : Mitten) (v : Word) (w : BitVec 64) := (hforce c v).trans (hstamp _ w)
  exact (KeepsSystem.ite ((htaken _ _ _).trans (.deliver _ _ _)) (htaken _ _ _)).trans (State.refreshPins_keepsSystem _ _)

theorem State.sourceOn_keepsSystem (s : State) (i : Nat) : KeepsSystem s (s.sourceOn i) :=
  .foldBelow (fun s m hm => .ite (.ite (.setMitten s m _) (.ite (s.take_keepsSystem i hm) (.refl s))) (.refl s)) s

theorem State.sourceOff_keepsSystem (s : State) (i : Nat) : KeepsSystem s (s.sourceOff i) := by
  refine .foldBelow (fun s m hm => ?_) s
  have hblank (c : Prop) [Decidable c] : KeepsSystem s (if c then s.satCount (BLANK_CNT m) else s) :=
    .ite (.satCount s (mitten_not_besidePins hm).2.2.1) (.refl s)
  exact .ite ((hblank _).trans (.setMitten _ m _)) (hblank _)

end Sys2Proof.Machine
end

section
/-!
PROOFS. The tick in which a watchdog or soft reset begins (R360), the watchdog (R305, R306), and the obligation O23.
-/

namespace Sys2Proof.Machine

open Reg

/-! ### Every thread is stopped -/

/-- Thread `t` of cluster `n` is HALTED. -/
def State.haltThread (n : Nat) (s : State) (t : Nat) : State := if s.thState n t == thHalted then s else s.stopThread n t

/-- The threads of cluster `n` are HALTED. -/
def State.haltCluster (s : State) (n : Nat) : State := foldBelow 16 (State.haltThread n) s

/-- The registers that halting the threads of cluster `n` writes. -/
def haltWrites (n a : Nat) : Prop := a = GSTAT ∨ a = CL_STATUS n ∨ ∃ t, t < 16 ∧ a = TH_STATUS n t

theorem foldBelow_succ {σ : Type} (f : σ → Nat → σ) (n : Nat) (s : σ) : foldBelow (n + 1) f s = f (foldBelow n f s) n := by
  rw [foldBelow, List.range_succ, List.foldl_append]
  rfl

/-- `u` is `s` but for the engine, the threads, CL_STATUS and TH_STATUS of cluster `n`, the reservoir, and RESV_UE. -/
structure State.HaltLeaves (n : Nat) (s u : State) : Prop where
  shape : ∃ rv ps rg ie ts es, u = { s with reservoir := rv, poison := ps, regs := rg, irqEvents := ie, threads := ts, engines := es }
  reg : ∀ a, ¬ haltWrites n a → u.reg a = s.reg a
  gstat : ∀ i, i ≠ 7 → u.bit GSTAT i = s.bit GSTAT i
  engine : ∀ m, m ≠ n → u.engine m = s.engine m
  bank : (u.engine n).bank = (s.engine n).bank

namespace State.HaltLeaves

variable {n : Nat} {r s u : State}

theorem refl (n : Nat) (s : State) : HaltLeaves n s s :=
  ⟨⟨_, _, _, _, _, _, rfl⟩, fun _ _ => rfl, fun _ _ => rfl, fun _ _ => rfl, rfl⟩

theorem trans (h : HaltLeaves n r s) (h' : HaltLeaves n s u) : HaltLeaves n r u where
  shape := by
    obtain ⟨_, _, _, _, _, _, hs⟩ := h.shape
    obtain ⟨_, _, _, _, _, _, hu⟩ := h'.shape
    rw [hu, hs]
    exact ⟨_, _, _, _, _, _, rfl⟩
  reg a ha := (h'.reg a ha).trans (h.reg a ha)
  gstat i hi := (h'.gstat i hi).trans (h.gstat i hi)
  engine m hm := (h'.engine m hm).trans (h.engine m hm)
  bank := h'.bank.trans h.bank

end State.HaltLeaves

section
variable (s : State) (n : Nat)

theorem State.haltThread_leaves {t : Nat} (ht : t < 16) : HaltLeaves n s (s.haltThread n t) := by
  unfold State.haltThread
  split
  · exact .refl n s
  · refine ⟨s.stopThread_shape n t, fun a ha => ?_, fun i hi => s.gstat_stopThread n t hi, fun m hm => s.engine_stopThread_ne n t hm,
      s.bank_stopThread n t⟩
    exact s.reg_stopThread_ne n t (fun h => ha (.inl h)) (fun h => ha (.inr (.inl h))) (fun h => ha (.inr (.inr ⟨t, ht, h⟩)))

theorem State.thState_haltThread_self (t : Nat) : (s.haltThread n t).thState n t = thHalted := by
  unfold State.haltThread
  split
  · exact beq_iff_eq.1 ‹_›
  · exact s.thState_stopThread n t

theorem State.thState_haltThread_ne {t h : Nat} (hne : h ≠ t) (hh : h < 16) :
    (s.haltThread n t).thState n h = s.thState n h := by
  unfold State.haltThread
  split
  · rfl
  · exact congrArg (bitsOf · 2 0) (s.reg_stopThread_ne n t (by unfold TH_STATUS GSTAT; omega) (by unfold TH_STATUS CL_STATUS; omega)
      (by unfold TH_STATUS; omega))

theorem State.haltThreads_leave {k : Nat} (hk : k ≤ 16) :
    HaltLeaves n s (foldBelow k (State.haltThread n) s) ∧ ∀ t, t < k → (foldBelow k (State.haltThread n) s).thState n t = thHalted := by
  induction k with
  | zero => exact ⟨.refl n s, fun t ht => absurd ht (Nat.not_lt_zero t)⟩
  | succ k ih =>
    obtain ⟨hleaves, hhalted⟩ := ih (by omega)
    rw [foldBelow_succ]
    refine ⟨hleaves.trans (State.haltThread_leaves _ n (by omega)), fun t ht => ?_⟩
    by_cases hlast : t = k
    · rw [hlast]
      exact State.thState_haltThread_self _ n k
    · rw [State.thState_haltThread_ne _ n hlast (by omega)]
      exact hhalted t (by omega)

theorem State.haltCluster_leaves : HaltLeaves n s (s.haltCluster n) := (s.haltThreads_leave n (Nat.le_refl 16)).1

theorem State.thState_haltCluster {t : Nat} (ht : t < 16) : (s.haltCluster n).thState n t = thHalted :=
  (s.haltThreads_leave n (Nat.le_refl 16)).2 t ht

end

/-- TH_STATUS of another cluster's thread is none of the registers that halting writes. -/
theorem not_haltWrites_TH_STATUS {n m t : Nat} (hne : m ≠ n) (ht : t < 16) : ¬ haltWrites n (TH_STATUS m t) := by
  rintro (h | h | ⟨u, hu, h⟩)
  · unfold TH_STATUS GSTAT at h; omega
  · unfold TH_STATUS CL_STATUS at h; omega
  · unfold TH_STATUS at h; omega

/-- The threads of every cluster are HALTED; beside them that touches memory, CL_STATUS and RESV_UE. -/
theorem State.haltClusters_show (s : State) (k : Nat) :
    let u := foldBelow k State.haltCluster s
    (∃ rv ps rg ie ts es, u = { s with reservoir := rv, poison := ps, regs := rg, irqEvents := ie, threads := ts, engines := es }) ∧
      (∀ i, i ≠ 7 → u.bit GSTAT i = s.bit GSTAT i) ∧ ∀ n t, n < k → t < 16 → u.thState n t = thHalted := by
  induction k with
  | zero => exact ⟨⟨_, _, _, _, _, _, rfl⟩, fun _ _ => rfl, fun n _ hn => absurd hn (Nat.not_lt_zero n)⟩
  | succ k ih =>
    obtain ⟨⟨_, _, _, _, _, _, hshape⟩, hgstat, hhalted⟩ := ih
    have hleaves := (foldBelow k State.haltCluster s).haltCluster_leaves k
    dsimp only
    rw [foldBelow_succ]
    refine ⟨?_, fun i hi => (hleaves.gstat i hi).trans (hgstat i hi), fun n t hn ht => ?_⟩
    · obtain ⟨_, _, _, _, _, _, hlast⟩ := hleaves.shape
      rw [hlast, hshape]
      exact ⟨_, _, _, _, _, _, rfl⟩
    · by_cases hlast : n = k
      · rw [hlast]
        exact State.thState_haltCluster _ k ht
      · exact (congrArg (bitsOf · 2 0) (hleaves.reg _ (not_haltWrites_TH_STATUS hlast ht))).trans (hhalted n t (by omega) ht)

/-! ### Wear events on their way (R373) -/

/-- `u` is `s` but for the registers and counts of wear, its events, and open values. -/
structure State.WearLeaves (s u : State) : Prop where
  shape : ∃ rg is ra ie fr, u = { s with regs := rg, island := is, raised := ra, irqEvents := ie, free := fr }
  reg : ∀ a, a < 0xB0000 → u.reg a = s.reg a
  island : ∃ wr ow, u.island = { s.island with wear := wr, owed := ow }

namespace State.WearLeaves

theorem refl (s : State) : WearLeaves s s := ⟨⟨_, _, _, _, _, rfl⟩, fun _ _ => rfl, ⟨_, _, rfl⟩⟩

theorem trans {r s u : State} (h : WearLeaves r s) (h' : WearLeaves s u) : WearLeaves r u where
  shape := by
    obtain ⟨_, _, _, _, _, hs⟩ := h.shape
    obtain ⟨_, _, _, _, _, hu⟩ := h'.shape
    rw [hu, hs]
    exact ⟨_, _, _, _, _, rfl⟩
  reg a ha := (h'.reg a ha).trans (h.reg a ha)
  island := by
    obtain ⟨_, _, hs⟩ := h.island
    obtain ⟨_, _, hu⟩ := h'.island
    rw [hu, hs]
    exact ⟨_, _, rfl⟩

end State.WearLeaves

theorem State.wearSat_leaves (s : State) (w : Nat) : WearLeaves s (s.wearSat w) := by
  unfold State.wearSat
  split
  · exact .refl s
  · have hraise : WearLeaves s (s.raise (SAT_MAP (w / 32)) (w % 32)) :=
      ⟨⟨_, _, _, _, _, rfl⟩, fun a ha => s.reg_setReg_ne _ (by unfold SAT_MAP; omega), ⟨_, _, rfl⟩⟩
    refine hraise.trans ?_
    generalize s.raise (SAT_MAP (w / 32)) (w % 32) = u
    unfold State.lifeEvent
    split
    · exact ⟨⟨_, _, _, _, _, rfl⟩, fun _ _ => rfl, ⟨_, _, rfl⟩⟩
    · exact .refl u

theorem State.wearAdd_leaves (s : State) (w n : Nat) : WearLeaves s (s.wearAdd w n) := by
  have hset (v : BitVec 48) : WearLeaves s (s.setWear w v) := ⟨⟨_, _, _, _, _, rfl⟩, fun _ _ => rfl, ⟨_, _, rfl⟩⟩
  unfold State.wearAdd
  dsimp only
  split
  · exact hset _
  · exact (hset _).trans (State.wearSat_leaves _ w)

/-- The events owed to counter `w` are taken, and an open value decides how many of them count. -/
def State.wearPaid (s : State) (w : Nat) : State :=
  { s.useFree with island := { s.island with owed := s.island.owed.set (fun _ => []) w [] } }

theorem State.wearPaid_leaves (s : State) (w : Nat) : WearLeaves s (s.wearPaid w) :=
  ⟨⟨_, _, _, _, _, rfl⟩, fun _ _ => rfl, ⟨_, _, rfl⟩⟩

theorem State.wearFlush_leaves (s : State) (begins : Bool) : WearLeaves s (s.wearFlush begins) := by
  unfold State.wearFlush
  generalize s.island.owed = owed
  induction owed generalizing s with
  | nil => exact .refl s
  | cons e owed ih => exact .trans (.trans (s.wearPaid_leaves e.1) (State.wearAdd_leaves _ e.1 _)) (ih _)

/-! ### The reset begins (R360) -/

/-- The threads are HALTED, and the phase and the cause of the reset noted, once its wear is counted. -/
theorem State.softBegin_eq (s : State) (cause : Nat) :
    s.softBegin cause =
      let u := foldBelow 24 State.haltCluster ((s.wearFlush true).setBit GSTAT 2 false)
      let v : State := { u with power := { u.power with phase := .soft, cause := cause }, hg := { u.hg with resetAfter := false, resetDue := false } }
      v.refreshPins v.now := by
  have hcluster : (fun s n => foldBelow 16 (fun s t => if s.thState n t == thHalted then s else s.stopThread n t) s) = State.haltCluster := rfl
  unfold State.softBegin
  rw [hcluster]

theorem State.softBegin_shows (s : State) (cause : Nat) :
    let t := s.softBegin cause
    t.power.phase = .soft ∧ t.power.cause = cause ∧ t.bit GSTAT 2 = false ∧ t.hg.resetAfter = false ∧ t.hg.resetDue = false ∧
      t.ustore = s.ustore ∧ ∀ n h : Nat, n < 24 → h < 16 → t.thState n h = thHalted := by
  obtain ⟨_, _, _, _, _, hwear⟩ := (s.wearFlush_leaves true).shape
  obtain ⟨⟨_, _, _, _, _, _, hshape⟩, hgstat, hhalted⟩ := ((s.wearFlush true).setBit GSTAT 2 false).haltClusters_show 24
  have hustore : (foldBelow 24 State.haltCluster ((s.wearFlush true).setBit GSTAT 2 false)).ustore = s.ustore := by
    rw [hshape, hwear]
    rfl
  have hclear := (hgstat 2 (by decide)).trans (State.bit_setBit_self _ _ _ _ (by decide))
  rw [s.softBegin_eq cause]
  generalize foldBelow 24 State.haltCluster ((s.wearFlush true).setBit GSTAT 2 false) = u at hustore hclear hhalted
  dsimp only
  have hpins := State.refreshPins_keepsSystem
    { u with power := { u.power with phase := .soft, cause := cause }, hg := { u.hg with resetAfter := false, resetDue := false } }
    (State.now { u with power := { u.power with phase := .soft, cause := cause }, hg := { u.hg with resetAfter := false, resetDue := false } })
  refine ⟨congrArg Power.phase hpins.power, congrArg Power.cause hpins.power, ?_, congrArg Headgate.resetAfter hpins.hg,
    congrArg Headgate.resetDue hpins.hg, hpins.ustore.trans hustore, fun n h hn hh => ?_⟩
  · exact (congrArg (bitOf · 2) (hpins.regs _ (.inl (by decide)))).trans hclear
  · exact (congrArg (bitsOf · 2 0) (hpins.regs _ (.inr (by unfold TH_STATUS; omega)))).trans (hhalted n h hn hh)

/-! ### The watchdog (R305, R306) -/

/-- The watchdog as its count begins afresh, before its mitten source is inactive. -/
def State.kicked (s : State) : State := { s.setFld WDOG_STATUS 1 0 0 with hg := { s.hg with kick := s.mt, expired := none } }

theorem State.kicked_shows (s : State) :
    s.kicked.hg.kick = s.mt ∧ s.kicked.hg.expired = none ∧ s.kicked.bit WDOG_STATUS 0 = false ∧
      s.kicked.reg WDOG_CFG = s.reg WDOG_CFG := by
  refine ⟨rfl, rfl, ?_, State.reg_setReg_ne _ _ (by decide)⟩
  change bitOf ((s.setFld WDOG_STATUS 1 0 0).reg WDOG_STATUS) 0 = false
  rw [State.setFld, State.reg_setReg_self, bitOf, getLsbD_setBits, if_pos (by decide)]
  decide

theorem State.kick_shows (s : State) :
    s.kick.hg.kick = s.mt ∧ s.kick.hg.expired = none ∧ s.kick.bit WDOG_STATUS 0 = false ∧ s.kick.reg WDOG_CFG = s.reg WDOG_CFG := by
  obtain ⟨hkick, hexp, hstatus, hcfg⟩ := s.kicked_shows
  have hoff := s.kicked.sourceOff_keepsSystem 32
  have hbegun : s.kick = if s.hg.expired.isSome then s.kicked.sourceOff 32 else s.kicked := rfl
  generalize s.kicked = u at *
  rw [hbegun]
  split
  · exact ⟨(congrArg Headgate.kick hoff.hg).trans hkick, (congrArg Headgate.expired hoff.hg).trans hexp,
      (congrArg (bitOf · 0) (hoff.regs _ (.inl (by decide)))).trans hstatus, (hoff.regs _ (.inl (by decide))).trans hcfg⟩
  · exact ⟨hkick, hexp, hstatus, hcfg⟩

theorem State.reg_plainWrite_WDOG_CFG (s : State) (v : Word) :
    (s.plainWrite WDOG_CFG v).reg WDOG_CFG = mergeWord (s.reg WDOG_CFG) v (rwMask WDOG_CFG) := by
  have hrow : regRow WDOG_CFG = some ⟨0x30040, [], 0x0, 0xc00fffff, 0x0, 0x0, 0x0⟩ := by decide
  have hnone : ~~~ (v &&& (0#32) &&& ~~~ s.keptBits WDOG_CFG) = BitVec.allOnes 32 := by
    rw [BitVec.and_zero, BitVec.zero_and, BitVec.not_zero]
  rw [s.plainWrite_eq_setReg v hrow, State.reg_setReg_self, rwMask, hrow]
  exact (congrArg (_ &&& ·) hnone).trans BitVec.and_allOnes

/-- The watchdog as it expires, before its mitten source is active. -/
def State.expired (s : State) : State :=
  State.hostEvent { (s.setBit WDOG_STATUS 0 true).setBit WDOG_STATUS 1 (s.bit WDOG_CFG 31) with hg := { s.hg with expired := some s.mt } } 2

theorem State.expired_shows (s : State) :
    s.expired.hg.expired = some s.mt ∧ s.expired.bit WDOG_STATUS 0 = true ∧ s.expired.bit WDOG_STATUS 1 = s.bit WDOG_CFG 31 := by
  refine ⟨rfl, ?_, State.bit_setBit_self _ WDOG_STATUS 1 _ (by decide)⟩
  exact (State.bit_setBit_ne _ WDOG_STATUS (j := 0) _ (by decide)).trans (State.bit_setBit_self _ _ _ _ (by decide))

theorem State.watchdogExpiry_due {s : State} (hrun : s.mainRuns = true) (hto : s.wdogTimeout ≠ 0) (hexp : s.hg.expired = none)
    (hdue : s.reached (s.hg.kick + BitVec.ofNat 64 (800 * s.wdogTimeout)) = true) : s.watchdogExpiry = s.expired.sourceOn 32 := by
  have hcond : (s.mainRuns && s.wdogTimeout != 0 && !s.countExpired &&
      s.reached (s.hg.kick + BitVec.ofNat 64 (800 * s.wdogTimeout))) = true := by
    rw [hrun, hdue, bne_iff_ne.2 hto, State.countExpired, hexp]
    rfl
  have hfirst : ¬ (s.hg.expired.isSome = true) := by rw [hexp]; exact Bool.false_ne_true
  exact (if_pos hcond).trans (if_neg hfirst)

theorem State.watchdogReset_due {s : State} {u : Tick} (hexp : s.hg.expired = some u)
    (hrun : s.mainRuns = true ∨ (s.power.phase = .soft ∧ s.power.cause = 5)) (hpend : s.bit WDOG_STATUS 1 = true)
    (hdue : s.reached (u + 800000) = true) : s.watchdogReset = s.softBegin 4 := by
  have hcond : ((s.mainRuns || (s.power.phase == .soft && s.power.cause == 5)) && s.bit WDOG_STATUS 1 && s.reached (u + 800000)) = true := by
    rw [hpend, hdue]
    rcases hrun with hrun | ⟨hphase, hcause⟩
    · rw [hrun]
      rfl
    · rw [hphase, hcause]
      cases s.mainRuns <;> rfl
  unfold State.watchdogReset
  rw [hexp]
  exact if_pos hcond

end Sys2Proof.Machine

namespace Sys2Proof.Proofs

open Sys2Proof.Machine Sys2Proof.Machine.Reg

theorem wdogCfg_kicks (v : Word) (s : State) (ha : s.accepts WDOG_CFG v) :
    ∃ t, exec (.wdogCfgWrite v) s = .next t ∧ t.reg WDOG_CFG = mergeWord (s.reg WDOG_CFG) v (rwMask WDOG_CFG) ∧ t.hg.kick = s.mt ∧
      t.hg.expired = none ∧ t.bit WDOG_STATUS 0 = false := by
  obtain ⟨hkick, hexp, hstatus, hcfg⟩ := ((s.noteHost WDOG_CFG).plainWrite WDOG_CFG v).kick_shows
  have hmt : ((s.noteHost WDOG_CFG).plainWrite WDOG_CFG v).mt = s.mt := by
    unfold State.plainWrite
    split <;> rfl
  exact ⟨_, congrArg Host.Outcome.next (s.hostWrite_accepts _ ha), hcfg.trans (State.reg_plainWrite_WDOG_CFG _ v), hkick.trans hmt, hexp,
    hstatus⟩

theorem watchdog_expires (s : State) (hrun : s.mainRuns = true) (hto : s.wdogTimeout ≠ 0) (hexp : s.hg.expired = none)
    (hdue : s.reached (s.hg.kick + BitVec.ofNat 64 (800 * s.wdogTimeout)) = true) :
    ∃ t, exec .watchdogExpiry s = .next t ∧ t.hg.expired = some s.mt ∧ t.bit WDOG_STATUS 0 = true ∧
      t.bit WDOG_STATUS 1 = s.bit WDOG_CFG 31 := by
  have hon := s.expired.sourceOn_keepsSystem 32
  obtain ⟨he, h0, h1⟩ := s.expired_shows
  have hreg := hon.regs WDOG_STATUS (.inl (by decide))
  exact ⟨_, congrArg Host.Outcome.next (State.watchdogExpiry_due hrun hto hexp hdue), (congrArg Headgate.expired hon.hg).trans he,
    (congrArg (bitOf · 0) hreg).trans h0, (congrArg (bitOf · 1) hreg).trans h1⟩

/-- Settles O23: a kick begins the count afresh, and the expiry and the reset follow their times. -/
theorem watchdogExpiresUnlessKicked : Obligations.WatchdogExpiresUnlessKicked := by
  unfold Obligations.WatchdogExpiresUnlessKicked
  refine ⟨fun v s ha => congrArg Host.Outcome.next (s.hostWrite_accepts _ ha), wdogCfg_kicks, watchdog_expires,
    fun s u hexp hrun hpend hdue => ?_⟩
  obtain ⟨hphase, hcause, hout, -⟩ := s.softBegin_shows 4
  exact ⟨_, congrArg Host.Outcome.next (State.watchdogReset_due hexp hrun hpend hdue), hphase, hcause, hout⟩

end Sys2Proof.Proofs
end

section
/-!
PROOFS. What the resets of the main domain clear and keep (R346, R350, R359, R360, R363 to R366), by operation.
-/

namespace Sys2Proof.Machine

open Reg

/-! ### Tables that a reset thins out -/

section
variable {α : Type} (d : Nat → α) (t : Table α)

/-- The rows whose keys stay. -/
theorem Table.get_filter_key (p : Nat → Bool) (a : Nat) :
    Table.get d (t.filter (fun e => p e.1)) a = if p a then Table.get d t a else d a := by
  induction t with
  | nil => rw [List.filter_nil, Table.get_nil, ite_self]
  | cons e t ih =>
    by_cases hk : e.1 = a
    · cases hp : p e.1 with
      | true =>
        rw [List.filter_cons_of_pos (p := fun e : Nat × α => p e.1) hp, Table.get, Table.get, if_pos hk, if_pos hk, ← hk, hp, if_pos rfl]
      | false =>
        rw [List.filter_cons_of_neg (p := fun e : Nat × α => p e.1) (by rw [hp]; exact Bool.false_ne_true), ih, ← hk, hp,
          if_neg Bool.false_ne_true, if_neg Bool.false_ne_true]
    · have hskip : Table.get d (e :: t) a = Table.get d t a := by rw [Table.get, if_neg hk]
      rw [hskip, ← ih]
      cases hp : p e.1 with
      | true => rw [List.filter_cons_of_pos (p := fun e : Nat × α => p e.1) hp, Table.get, if_neg hk]
      | false => rw [List.filter_cons_of_neg (p := fun e : Nat × α => p e.1) (by rw [hp]; exact Bool.false_ne_true)]

/-- A key that no row has. -/
theorem Table.get_of_ne {a : Nat} (h : ∀ e ∈ t, e.1 ≠ a) : Table.get d t a = d a := by
  induction t with
  | nil => rfl
  | cons e t ih =>
    obtain ⟨he, ht⟩ := List.forall_mem_cons.1 h
    rw [Table.get, if_neg he]
    exact ih ht

end

/-- The values of a table of canonical form, changed by `f` and listed where they differ from the default. -/
theorem Table.get_mapped {α : Type} [DecidableEq α] {v : α} {f : α → α} (hf : f v = v) {t : Table α}
    (hw : Table.wf (fun _ => v) t = true) (a : Nat) :
    Table.get (fun _ => v) ((t.map (fun e : Nat × α => (e.1, f e.2))).filter (fun e => e.2 != v)) a = f (Table.get (fun _ => v) t a) := by
  obtain ⟨hkeys, -⟩ := (Table.wf_iff _ _).1 hw
  clear hw
  induction t with
  | nil => exact hf.symm
  | cons e t ih =>
    obtain ⟨hlt, hrest⟩ := List.pairwise_cons.1 hkeys
    by_cases hk : e.1 = a
    · have hval : Table.get (fun _ => v) (e :: t) a = e.2 := by rw [Table.get, if_pos hk]
      rw [hval, List.map_cons]
      by_cases hd : f e.2 = v
      · have hnone : Table.get (fun _ => v) t a = v := Table.get_of_ne _ t fun e' he' => by have := hlt e' he'; omega
        rw [List.filter_cons_of_neg (by simp [hd]), ih hrest, hnone, hf, hd]
      · rw [List.filter_cons_of_pos (by simp [hd]), Table.get, if_pos hk]
    · have hskip : Table.get (fun _ => v) (e :: t) a = Table.get (fun _ => v) t a := by rw [Table.get, if_neg hk]
      rw [hskip, ← ih hrest, List.map_cons]
      by_cases hd : f e.2 = v
      · rw [List.filter_cons_of_neg (by simp [hd])]
      · rw [List.filter_cons_of_pos (by simp [hd]), Table.get, if_neg hk]

/-! ### Registers that a reset keeps -/

theorem State.reg_kept (s : State) (p : Nat → Bool) (a : Nat) :
    ({ s with regs := s.regs.filter (fun e => p e.1) } : State).reg a = if p a then s.reg a else resetWord a :=
  Table.get_filter_key resetWord s.regs p a

/-! ### Calibration records and mirrors after a reset (R379, R382) -/

/-- `u` is `s` but for the registers of user calibration. -/
structure State.UcalLeaves (s u : State) : Prop where
  shape : ∃ rg, u = { s with regs := rg }
  reg : ∀ a, a < 0x70000 ∨ 0x1000000 ≤ a → u.reg a = s.reg a

theorem State.UcalLeaves.refl (s : State) : UcalLeaves s s := ⟨⟨_, rfl⟩, fun _ _ => rfl⟩

theorem State.UcalLeaves.trans {r s u : State} (h : UcalLeaves r s) (h' : UcalLeaves s u) : UcalLeaves r u := by
  obtain ⟨_, hs⟩ := h.shape
  obtain ⟨_, hu⟩ := h'.shape
  refine ⟨?_, fun a ha => (h'.reg a ha).trans (h.reg a ha)⟩
  rw [hu, hs]
  exact ⟨_, rfl⟩

/-- The targets of user calibration are the inputs' and the encoders'. -/
theorem ucalAddr_range {kind idx a : Nat} (h : ucalAddr kind idx = some a) : 0x70000 ≤ a ∧ a < 0x1000000 := by
  unfold ucalAddr at h
  split at h
  · split at h
    · cases h; unfold AIN_CAL; omega
    · cases h
  · split at h
    · cases h; unfold AE_GAIN; omega
    · cases h
  · split at h
    · cases h; unfold AE_OFS; omega
    · cases h
  · split at h
    · cases h; unfold AE_PHASE; omega
    · cases h
  · cases h

theorem State.ucalTarget_leaves (s : State) (kind idx : Nat) : UcalLeaves s (s.ucalTarget kind idx) := by
  unfold State.ucalTarget
  cases h : ucalAddr kind idx with
  | none => exact .refl s
  | some b =>
    obtain ⟨hlo, hhi⟩ := ucalAddr_range h
    exact ⟨⟨_, rfl⟩, fun a ha => s.reg_setReg_ne _ (by omega)⟩

theorem State.ucalApply_leaves (s : State) : UcalLeaves s s.ucalApply := by
  unfold State.ucalApply
  generalize s.nvm.ucal = rs
  induction rs generalizing s with
  | nil => exact .refl s
  | cons r rs ih => exact (s.ucalTarget_leaves r.kind r.index).trans (ih _)

/-- `u` is `s` but for MIR_STATUS and the mirror of the island. -/
structure State.MirrorLeaves (s u : State) : Prop where
  shape : ∃ rg mb md lm, u = { s with regs := rg, island := { s.island with mirrorBusy := mb, mirrorDue := md, lastMirror := lm } }
  reg : ∀ a, a ≠ MIR_STATUS → u.reg a = s.reg a

theorem State.beginMirror_leaves (s : State) : MirrorLeaves s s.beginMirror := by
  unfold State.beginMirror
  split
  · exact ⟨⟨_, _, _, _, rfl⟩, fun _ _ => rfl⟩
  · exact ⟨⟨_, _, _, _, rfl⟩, fun a ha => s.reg_setReg_ne _ ha⟩

theorem State.mirrorPending_leaves (s : State) : MirrorLeaves s s.mirrorPending := by
  unfold State.mirrorPending
  split
  · exact s.beginMirror_leaves
  · exact ⟨⟨_, _, _, _, rfl⟩, fun _ _ => rfl⟩

end Sys2Proof.Machine
end

section
/-!
PROOFS. The resets of the main domain and their ends (R346, R350, R359, R360, R363 to R366), and the obligation O55.
-/

namespace Sys2Proof.Machine

open Reg

/-! ### A POR and a pin reset (R363) -/

/-- The registers that a POR or pin reset does not set to their reset values, besides those of the island. -/
def levelRegs : List Nat := [TRIP_RAW, TRIP_ACTIVE, CLK_STATUS]

theorem State.reg_clearMain (s : State) (por : Bool) {a : Nat} (ha : survival a ≠ .island) (hl : a ∉ levelRegs) :
    (s.clearMain por).reg a = resetWord a := by
  obtain ⟨h1, h2, h3⟩ : a ≠ TRIP_RAW ∧ a ≠ TRIP_ACTIVE ∧ a ≠ CLK_STATUS := by simpa [levelRegs] using hl
  have hmir : a ≠ MIR_STATUS := by
    rintro rfl
    exact ha (by decide)
  have hfilter := s.reg_kept (fun a => survival a == Survival.island) a
  rw [beq_false_of_ne ha, if_neg Bool.false_ne_true] at hfilter
  rw [← hfilter]
  refine (State.reg_setReg_ne _ _ hmir).trans ?_
  exact (State.reg_setReg_ne _ _ h3).trans ((State.reg_setReg_ne _ _ h2).trans (State.reg_setReg_ne _ _ h1))

theorem State.clearMain_shows (s : State) (por : Bool) :
    let t := s.clearMain por
    t.reservoir = (if por then [] else s.reservoir) ∧ t.localRam = [] ∧ t.ustore = [] ∧ t.nvm = s.nvm ∧
      t.island.calendar = s.island.calendar ∧ t.power.phase = s.power.phase ∧ t.power.cause = s.power.cause := ⟨rfl, rfl, rfl, rfl, rfl, rfl, rfl⟩

theorem State.beginReset_shows (s : State) (por : Bool) (cause : Nat) :
    let t := s.beginReset por cause
    t.power.phase = (if por then .por else .pinReset) ∧ t.power.cause = cause ∧ t.reservoir = (if por then [] else s.reservoir) ∧
      t.localRam = [] ∧ t.ustore = [] ∧ t.nvm = s.nvm ∧ t.island.calendar = s.island.calendar := by
  have hflush := s.wearFlush_leaves true
  obtain ⟨_, _, _, _, _, hshape⟩ := hflush.shape
  obtain ⟨_, _, hisland⟩ := hflush.island
  obtain ⟨hres, hram, hus, hnvm, hcal, -, -⟩ := (s.wearFlush true).clearMain_shows por
  have hres' : (s.wearFlush true).reservoir = s.reservoir := by rw [hshape]
  have hnvm' : (s.wearFlush true).nvm = s.nvm := by rw [hshape]
  have hcal' : (s.wearFlush true).island.calendar = s.island.calendar := by rw [hisland]
  unfold State.beginReset
  dsimp only
  generalize (s.wearFlush true).clearMain por = u at *
  rw [hres'] at hres
  exact ⟨rfl, rfl, hres, hram, hus, hnvm.trans hnvm', hcal.trans hcal'⟩

/-! ### The initial calibration round (R91) -/

/-- `u` is `s` but for the channels, their registers, CAL_STATUS, interrupt events and the calibration. -/
structure State.RoundLeaves (s u : State) : Prop where
  shape : ∃ rg cs ie cl, u = { s with regs := rg, chans := cs, irqEvents := ie, cal := cl }
  reg : ∀ a, a < 0x1000000 → a ≠ CALENG_CAL_STATUS → u.reg a = s.reg a

theorem State.RoundLeaves.refl (s : State) : RoundLeaves s s := ⟨⟨_, _, _, _, rfl⟩, fun _ _ _ => rfl⟩

theorem State.RoundLeaves.trans {r s u : State} (h : RoundLeaves r s) (h' : RoundLeaves s u) : RoundLeaves r u := by
  obtain ⟨_, _, _, _, hs⟩ := h.shape
  obtain ⟨_, _, _, _, hu⟩ := h'.shape
  refine ⟨?_, fun a ha hn => (h'.reg a ha hn).trans (h.reg a ha hn)⟩
  rw [hu, hs]
  exact ⟨_, _, _, _, rfl⟩

theorem State.RoundLeaves.setReg (s : State) {a : Nat} (v : Word) (ha : 0x1000000 ≤ a ∨ a = CALENG_CAL_STATUS) :
    RoundLeaves s (s.setReg a v) :=
  ⟨⟨_, _, _, _, rfl⟩, fun b hb hn => s.reg_setReg_ne v fun h => by
    rcases ha with ha | ha
    · omega
    · exact hn (h.trans ha)⟩

theorem State.RoundLeaves.deliver (s : State) (i : Nat) (b : Option Nat) : RoundLeaves s (s.deliver i b) :=
  ⟨⟨_, _, _, _, rfl⟩, fun _ _ _ => rfl⟩

theorem State.RoundLeaves.setChan (s : State) (k : Nat) (c : Chan) : RoundLeaves s (s.setChan k c) :=
  ⟨⟨_, _, _, _, rfl⟩, fun _ _ _ => rfl⟩

theorem State.chanEvent_leaves (s : State) (k e : Nat) : RoundLeaves s (s.chanEvent k e) := by
  unfold State.chanEvent State.deliverIf
  split
  · exact .deliver s _ _
  · exact .refl s

/-- The calibration of channel `k` as the round begins. -/
def State.roundChan (s : State) (k : Nat) : State :=
  let s := if s.bit (EU_STATUS k) 3 then s else s.chanEvent k 4
  let s := s.setChan k { s.chan k with fresh := none, measured := none, fails0 := 0, fails1 := 0, tdcCal := none, map0 := none,
                                       map1 := none, splitAt := none }
  let st := putBit (putBit (setBits (s.reg (EU_STATUS k)) 0 0 0) 2 false) 5 true
  (s.setReg (EU_STATUS k) (putBit (putBit st 3 true) 6 true)).setReg (EU_TAPS k) 0

theorem State.roundChan_leaves (s : State) (k : Nat) : RoundLeaves s (s.roundChan k) := by
  have hchan (u : State) (c : Chan) (v w : Word) : RoundLeaves u (((u.setChan k c).setReg (EU_STATUS k) v).setReg (EU_TAPS k) w) :=
    ((State.RoundLeaves.setChan u k c).trans (.setReg _ v (.inl (by unfold EU_STATUS; omega)))).trans
      (.setReg _ w (.inl (by unfold EU_TAPS; omega)))
  have hstale : RoundLeaves s (if s.bit (EU_STATUS k) 3 then s else s.chanEvent k 4) := by
    split
    · exact .refl s
    · exact s.chanEvent_leaves k 4
  exact hstale.trans (hchan _ _ _ _)

/-- The round is under way: INITIAL of CAL_STATUS is 1, and READY is 0. -/
def State.roundBegun (s : State) : State :=
  let s := (s.setBit CALENG_CAL_STATUS 1 true).setBit CALENG_CAL_STATUS 0 false
  { s with cal := { initial := some (0, false), slotDue := none, nextCh := 0, slotRan := false,
                    measuring := some (0, s.mt + 1000), roundStart := s.mt, tdc := none } }

theorem State.roundBegun_leaves (s : State) : RoundLeaves s s.roundBegun :=
  ((State.RoundLeaves.setReg s _ (.inr rfl)).trans (.setReg _ _ (.inr rfl))).trans ⟨⟨_, _, _, _, rfl⟩, fun _ _ _ => rfl⟩

theorem State.bit_roundBegun (s : State) : s.roundBegun.bit CALENG_CAL_STATUS 1 = true := by
  change ((s.setBit CALENG_CAL_STATUS 1 true).setBit CALENG_CAL_STATUS 0 false).bit CALENG_CAL_STATUS 1 = true
  rw [State.bit_setBit_ne _ CALENG_CAL_STATUS (j := 1) _ (by decide), State.bit_setBit_self _ _ _ _ (by decide)]

theorem State.initialRoundStart_eq (s : State) :
    s.initialRoundStart =
      if s.bit CALENG_CAL_STATUS 0 then (foldBelow 384 State.roundChan s).roundBegun.deliver 251 (some 0)
      else (foldBelow 384 State.roundChan s).roundBegun := by
  have hchan : (fun s k =>
      let s := if s.bit (EU_STATUS k) 3 then s else s.chanEvent k 4
      let s := s.setChan k { s.chan k with fresh := none, measured := none, fails0 := 0, fails1 := 0, tdcCal := none, map0 := none,
                                           map1 := none, splitAt := none }
      let st := putBit (putBit (setBits (s.reg (EU_STATUS k)) 0 0 0) 2 false) 5 true
      (s.setReg (EU_STATUS k) (putBit (putBit st 3 true) 6 true)).setReg (EU_TAPS k) 0) = State.roundChan := rfl
  unfold State.initialRoundStart
  rw [hchan]
  simp only [State.roundBegun]

theorem State.roundChans_leave (s : State) (n : Nat) : RoundLeaves s (foldBelow n State.roundChan s) := by
  induction n with
  | zero => exact .refl s
  | succ n ih =>
    rw [foldBelow_succ]
    exact ih.trans (State.roundChan_leaves _ n)

/-- READY falls with its event. -/
theorem State.RoundLeaves.readyFalls {s u : State} (h : RoundLeaves s u) (hb : u.bit CALENG_CAL_STATUS 1 = true) (c : Prop) [Decidable c] :
    RoundLeaves s (if c then u.deliver 251 (some 0) else u) ∧
      (if c then u.deliver 251 (some 0) else u).bit CALENG_CAL_STATUS 1 = true := by
  split
  · exact ⟨h.trans (.deliver u _ _), hb⟩
  · exact ⟨h, hb⟩

theorem State.initialRoundStart_leaves (s : State) :
    RoundLeaves s s.initialRoundStart ∧ s.initialRoundStart.bit CALENG_CAL_STATUS 1 = true := by
  rw [s.initialRoundStart_eq]
  exact ((s.roundChans_leave 384).trans (State.roundBegun_leaves _)).readyFalls (State.bit_roundBegun _) _

/-! ### The end of a POR or pin reset (R364, R380) -/

theorem State.nvmCheck_shows (s : State) :
    let t := s.nvmCheck
    t.mt = s.mt ∧ t.power = s.power ∧ ∀ a, a ≠ MIR_STATUS → t.reg a = s.reg a := by
  have hlife (u : State) : u.lifeEvent.mt = u.mt ∧ u.lifeEvent.power = u.power ∧ ∀ a, u.lifeEvent.reg a = u.reg a := by
    unfold State.lifeEvent
    split <;> exact ⟨rfl, rfl, fun _ => rfl⟩
  have hend (u : State) : ((u.setBit MIR_STATUS 1 true).lifeEvent).mt = u.mt ∧ ((u.setBit MIR_STATUS 1 true).lifeEvent).power = u.power ∧
      ∀ a, a ≠ MIR_STATUS → ((u.setBit MIR_STATUS 1 true).lifeEvent).reg a = u.reg a := by
    obtain ⟨hmt, hpower, hreg⟩ := hlife (u.setBit MIR_STATUS 1 true)
    exact ⟨hmt, hpower, fun a ha => (hreg a).trans (u.reg_setReg_ne _ ha)⟩
  unfold State.nvmCheck
  dsimp only
  split
  · exact ⟨rfl, rfl, fun _ _ => rfl⟩
  · cases s.nvm.identityValid <;> cases s.nvm.keysValid <;> exact hend _

/-- The device is ready to leave a POR or pin reset. -/
def State.resetOver (s : State) : Prop :=
  s.power.resetLow = false ∧ ((s.power.phase = .por ∧ s.power.rails = true ∧ s.power.pwrEn = true) ∨ s.power.phase = .pinReset)

/-- The state in which the first tick begins: MT is 0, and the straps and the cause are sampled. -/
def State.sampled (s : State) (straps : BitVec 2) : State :=
  let s := { s.clearMain (s.power.phase == .por) with mt := 0 }
  let s := { s with power := { s.power with phase := .run } }
  (s.setFld GSTAT 5 4 straps.toNat).setFld RST_STATUS 3 0 s.power.cause

theorem State.endOfReset_eq {s : State} (straps : BitVec 2) (h : s.resetOver) :
    s.endOfReset straps =
      let t := (s.sampled straps).nvmCheck.ucalApply.initialRoundStart.mirrorPending
      { t with start := some t.snap } := by
  obtain ⟨hlow, hphase⟩ := h
  have hready : (match s.power.phase with
      | .por => s.power.rails && s.power.pwrEn && !s.power.resetLow
      | .pinReset => !s.power.resetLow
      | _ => false) = true := by
    rcases hphase with ⟨hpor, hrails, hpwr⟩ | hpin
    · rw [hpor, hrails, hpwr, hlow]
      rfl
    · rw [hpin, hlow]
      rfl
  exact if_pos hready

theorem State.sampled_shows (s : State) (straps : BitVec 2) :
    let t := s.sampled straps
    t.power.phase = .run ∧ t.mt = 0 ∧ t.fld GSTAT 5 4 = straps.toNat ∧ t.fld RST_STATUS 3 0 = s.power.cause % 16 ∧
      t.bit GSTAT 2 = false ∧ t.bit ID_UCODE 0 = false := by
  have hgstat : (s.clearMain (s.power.phase == .por)).reg GSTAT = resetWord GSTAT := s.reg_clearMain _ (by decide) (by decide)
  have hucode : (s.clearMain (s.power.phase == .por)).reg ID_UCODE = resetWord ID_UCODE := s.reg_clearMain _ (by decide) (by decide)
  have hcause : (s.clearMain (s.power.phase == .por)).power.cause = s.power.cause := rfl
  unfold State.sampled
  dsimp only
  generalize s.clearMain (s.power.phase == .por) = u at *
  refine ⟨rfl, rfl, ?_, ?_, ?_, ?_⟩
  · rw [State.setFld, State.fld, State.reg_setReg_ne _ _ (by decide), ← State.fld, State.fld_setFld_self _ _ _ _ _ (by decide)]
    exact Nat.mod_eq_of_lt straps.isLt
  · rw [State.fld_setFld_self _ _ _ _ _ (by decide)]
    exact congrArg (· % 16) hcause
  · rw [State.bit, State.setFld, State.reg_setReg_ne _ _ (by decide), State.setFld, State.reg_setReg_self,
      bitOf_setBits_ne _ _ _ _ _ (.inl (by decide))]
    exact (congrArg (bitOf · 2) hgstat).trans (by decide)
  · rw [State.bit, State.setFld, State.reg_setReg_ne _ _ (by decide), State.setFld, State.reg_setReg_ne _ _ (by decide)]
    exact (congrArg (bitOf · 0) hucode).trans (by decide)

/-- What the end of a reset does after the straps leaves the registers below the device's blocks, and starts the initial round. -/
theorem State.endOfReset_shows {s : State} (straps : BitVec 2) (h : s.resetOver) :
    let t := s.endOfReset straps
    t.mt = (s.sampled straps).mt ∧ t.power = (s.sampled straps).power ∧ t.bit CALENG_CAL_STATUS 1 = true ∧
      ∀ a, a < 0x70000 → t.reg a = (s.sampled straps).reg a := by
  rw [State.endOfReset_eq straps h]
  generalize s.sampled straps = u
  obtain ⟨hmt, hpower, hreg⟩ := u.nvmCheck_shows
  have hucal := u.nvmCheck.ucalApply_leaves
  obtain ⟨hround, hbit⟩ := u.nvmCheck.ucalApply.initialRoundStart_leaves
  have hmirror := u.nvmCheck.ucalApply.initialRoundStart.mirrorPending_leaves
  obtain ⟨_, hucalShape⟩ := hucal.shape
  obtain ⟨_, _, _, _, hroundShape⟩ := hround.shape
  obtain ⟨_, _, _, _, hmirrorShape⟩ := hmirror.shape
  refine ⟨?_, ?_, ?_, fun a ha => ?_⟩
  · change u.nvmCheck.ucalApply.initialRoundStart.mirrorPending.mt = u.mt
    rw [hmirrorShape, ← hmt]
    change u.nvmCheck.ucalApply.initialRoundStart.mt = _
    rw [hroundShape]
    change u.nvmCheck.ucalApply.mt = _
    rw [hucalShape]
  · change u.nvmCheck.ucalApply.initialRoundStart.mirrorPending.power = u.power
    rw [hmirrorShape, ← hpower]
    change u.nvmCheck.ucalApply.initialRoundStart.power = _
    rw [hroundShape]
    change u.nvmCheck.ucalApply.power = _
    rw [hucalShape]
  · exact (congrArg (bitOf · 1) (hmirror.reg _ (by decide))).trans hbit
  · refine (hmirror.reg a (by unfold MIR_STATUS; omega)).trans ((hround.reg a (by omega) (by unfold CALENG_CAL_STATUS; omega)).trans ?_)
    exact (hucal.reg a (.inl ha)).trans (hreg a (by unfold MIR_STATUS; omega))

/-! ### A watchdog or soft reset (R360, R363) -/

theorem State.clearStaged_shape (s : State) : ∃ lr sw, s.clearStaged = { s with localRam := lr, swap := sw } := by
  have hback (u : State) (n : Nat) (b : Bool) : ∃ lr, (if b then u.clearBack n else u) = { u with localRam := lr } := by
    cases b <;> exact ⟨_, rfl⟩
  have hfold (n : Nat) : ∃ lr, foldBelow n (fun s n => if s.bit SWAP_MASK n then s.clearBack n else s) s = { s with localRam := lr } := by
    induction n with
    | zero => exact ⟨_, rfl⟩
    | succ n ih =>
      obtain ⟨_, hs⟩ := ih
      rw [foldBelow_succ]
      generalize foldBelow n (fun s n => if s.bit SWAP_MASK n then s.clearBack n else s) s = u at hs
      obtain ⟨_, hu⟩ := hback u n (u.bit SWAP_MASK n)
      rw [hu, hs]
      exact ⟨_, rfl⟩
  unfold State.clearStaged
  split
  · obtain ⟨_, h⟩ := hfold 24
    rw [h]
    exact ⟨_, _, rfl⟩
  · exact ⟨_, _, rfl⟩

/-- The engines that stay stopped differ in CL_STATUS. -/
theorem State.keepStops_shows (s t : State) :
    (∃ rg, s.keepStops t = { t with regs := rg }) ∧ ∀ a, a < 0x1000000 → (s.keepStops t).reg a = t.reg a := by
  unfold State.keepStops
  dsimp only
  generalize 24 = n
  induction n with
  | zero => exact ⟨⟨_, rfl⟩, fun _ _ => rfl⟩
  | succ n ih =>
    rw [foldBelow_succ]
    generalize foldBelow n _ t = u at ih
    obtain ⟨⟨_, hu⟩, hreg⟩ := ih
    split
    · exact ⟨⟨_, hu⟩, hreg⟩
    · refine ⟨?_, fun a ha => (u.reg_setReg_ne _ (by unfold CL_STATUS; omega)).trans (hreg a ha)⟩
      rw [hu]
      exact ⟨_, rfl⟩

/-- The registers and blocks that a watchdog or soft reset clears, before channels and engines. -/
def State.softCleared (s : State) : State :=
  let u := s.clearStaged
  let v := { u with regs := u.regs.filter (fun e => survival e.1 != Survival.cleared) }
  s.keepStops (if u.bit GSTAT 2 then v.setBit GSTAT 2 false else v).clearBlocks

theorem State.clearSoft_eq (s : State) :
    s.clearSoft =
      let v := s.softCleared
      let w := { v with
        chans := (v.chans.map (fun (e : Nat × Chan) => (e.1, e.2.keepCal))).filter (fun e => e.2 != Chan.init)
        engines := (v.engines.map (fun (e : Nat × Engine) => (e.1, e.2.keepBank))).filter (fun e => e.2 != Engine.init) }
      w.refreshPins v.now := by
  rw [State.clearSoft, State.softCleared]

theorem State.softCleared_shows (s : State) :
    let t := s.softCleared
    t.mt = s.mt ∧ t.power.phase = s.power.phase ∧ t.power.cause = s.power.cause ∧ t.hg.expired = s.hg.expired ∧
      t.reg WDOG_STATUS = s.reg WDOG_STATUS ∧ t.chans = s.chans ∧ t.ustore = s.ustore ∧ t.reservoir = s.reservoir ∧
      t.weirs = [] ∧ t.rings = [] ∧ t.nvm = s.nvm := by
  obtain ⟨lr, sw, hstaged⟩ := s.clearStaged_shape
  have hkept := s.clearStaged.reg_kept (fun a => survival a != Survival.cleared) WDOG_STATUS
  have hkeep : (survival WDOG_STATUS != Survival.cleared) = true := by decide
  rw [hkeep, if_pos rfl, hstaged] at hkept
  unfold State.softCleared
  dsimp only
  rw [hstaged]
  generalize hout : (State.bit { s with localRam := lr, swap := sw } GSTAT 2) = out
  obtain ⟨⟨_, hstops⟩, hreg⟩ := s.keepStops_shows
    (if out then ({ ({ s with localRam := lr, swap := sw } : State) with
      regs := s.regs.filter (fun e => survival e.1 != Survival.cleared) } : State).setBit GSTAT 2 false
    else { ({ s with localRam := lr, swap := sw } : State) with
      regs := s.regs.filter (fun e => survival e.1 != Survival.cleared) }).clearBlocks
  have hstatus := hreg WDOG_STATUS (by decide)
  rw [hstops] at hstatus ⊢
  cases out
  · exact ⟨rfl, rfl, rfl, rfl, hstatus.trans hkept, rfl, rfl, rfl, rfl, rfl, rfl⟩
  · exact ⟨rfl, rfl, rfl, rfl, hstatus.trans ((State.reg_setReg_ne _ _ (by decide)).trans hkept), rfl, rfl, rfl, rfl, rfl, rfl⟩

/-- What the end of a watchdog or soft reset leaves, before its cause is noted. -/
theorem State.clearSoft_shows (s : State) :
    let t := s.clearSoft
    t.mt = s.mt ∧ t.power.phase = s.power.phase ∧ t.power.cause = s.power.cause ∧ t.hg.expired = s.hg.expired ∧
      t.reg WDOG_STATUS = s.reg WDOG_STATUS ∧ t.ustore = s.ustore ∧ t.reservoir = s.reservoir ∧
      t.weirs = [] ∧ t.rings = [] ∧ t.nvm = s.nvm ∧
      (Table.wf (fun _ => Chan.init) s.chans = true → ∀ k, t.chan k = (s.chan k).keepCal) := by
  obtain ⟨hmt, hphase, hcause, hexp, hstatus, hchans, hus, hres, hweirs, hrings, hnvm⟩ := s.softCleared_shows
  rw [s.clearSoft_eq]
  generalize s.softCleared = v at *
  dsimp only
  generalize hw : ({ v with
    chans := (v.chans.map (fun (e : Nat × Chan) => (e.1, e.2.keepCal))).filter (fun e => e.2 != Chan.init)
    engines := (v.engines.map (fun (e : Nat × Engine) => (e.1, e.2.keepBank))).filter (fun e => e.2 != Engine.init) } : State) = w
  have hpins := w.refreshPins_keepsSystem v.now
  subst hw
  refine ⟨hpins.mt.trans hmt, (congrArg Power.phase hpins.power).trans hphase, (congrArg Power.cause hpins.power).trans hcause,
    (congrArg Headgate.expired hpins.hg).trans hexp, (hpins.regs _ (.inl (by decide))).trans hstatus, hpins.ustore.trans hus,
    hpins.reservoir.trans hres, hpins.weirs.trans hweirs, hpins.rings.trans hrings, hpins.nvm.trans hnvm, fun hwf k => ?_⟩
  rw [State.chan, hpins.chans, hchans]
  exact Table.get_mapped (f := Chan.keepCal) rfl hwf k

/-- The cause is noted, and a watchdog reset that has run is no longer pending. -/
def State.softNoted (s : State) (cause : Nat) : State :=
  let s := s.setFld RST_STATUS 3 0 cause
  if s.power.cause = 4 then s.setBit WDOG_STATUS 1 false else s

theorem State.softNoted_shows (s : State) (cause : Nat) :
    let t := s.softNoted cause
    (∃ rg, t = { s with regs := rg }) ∧ t.bit WDOG_STATUS 0 = s.bit WDOG_STATUS 0 ∧ t.fld RST_STATUS 3 0 = cause % 16 := by
  have hkept : (s.setFld RST_STATUS 3 0 cause).bit WDOG_STATUS 0 = s.bit WDOG_STATUS 0 :=
    congrArg (bitOf · 0) (s.reg_setReg_ne _ (by decide))
  have hfld := s.fld_setFld_self RST_STATUS 3 0 cause (by decide)
  unfold State.softNoted
  dsimp only
  split
  · refine ⟨⟨_, rfl⟩, (State.bit_setBit_ne _ _ _ (by decide)).trans hkept, ?_⟩
    exact (congrArg (bitsOf · 3 0) (State.reg_setReg_ne _ _ (by decide))).trans hfld
  · exact ⟨⟨_, rfl⟩, hkept, hfld⟩

theorem State.softEnd_eq (s : State) :
    s.softEnd =
      let w := (s.wearFlush false).clearSoft.ucalApply.softNoted s.power.cause
      State.mirrorPending { w with power := { w.power with phase := .run }, hg := { w.hg with kick := w.mt } } := by
  unfold State.softEnd State.softNoted
  rfl

/-- What the end of a watchdog or soft reset keeps and clears. -/
structure State.SoftOver (s t : State) : Prop where
  mt : t.mt = s.mt
  expired : t.hg.expired = s.hg.expired
  watchdog : t.bit WDOG_STATUS 0 = s.bit WDOG_STATUS 0
  pins : Table.wf (fun _ => Chan.init) s.chans = true → ∀ k, (t.chan k).inSel = (s.chan k).inSel
  cause : t.fld RST_STATUS 3 0 = s.power.cause % 16
  ustore : t.ustore = s.ustore
  reservoir : t.reservoir = s.reservoir
  weirs : t.weirs = []
  rings : t.rings = []
  nvm : t.nvm = s.nvm

theorem State.softOver_of (s : State) : s.SoftOver ((s.wearFlush false).clearSoft.ucalApply.softNoted s.power.cause) := by
  have hflush := s.wearFlush_leaves false
  obtain ⟨_, _, _, _, _, hshape⟩ := hflush.shape
  have hsame : (s.wearFlush false).mt = s.mt ∧ (s.wearFlush false).hg = s.hg ∧
      (s.wearFlush false).ustore = s.ustore ∧ (s.wearFlush false).reservoir = s.reservoir ∧ (s.wearFlush false).nvm = s.nvm ∧
      (s.wearFlush false).chans = s.chans := by
    rw [hshape]
    exact ⟨rfl, rfl, rfl, rfl, rfl, rfl⟩
  obtain ⟨hmt', hhg', hus', hres', hnvm', hchans'⟩ := hsame
  obtain ⟨hmt, -, -, hexp, hstatus, hus, hres, hweirs, hrings, hnvm, hchan⟩ := (s.wearFlush false).clearSoft_shows
  have hucal := (s.wearFlush false).clearSoft.ucalApply_leaves
  obtain ⟨_, hucalShape⟩ := hucal.shape
  have hwdog := (hucal.reg WDOG_STATUS (.inl (by decide))).trans (hstatus.trans (hflush.reg WDOG_STATUS (by decide)))
  obtain ⟨⟨_, hnoted⟩, hbit, hfld⟩ := (s.wearFlush false).clearSoft.ucalApply.softNoted_shows s.power.cause
  have hfinal : ∀ {β : Type} (f : State → β), (∀ u rg, f { u with regs := rg } = f u) →
      f ((s.wearFlush false).clearSoft.ucalApply.softNoted s.power.cause) = f (s.wearFlush false).clearSoft := by
    intro β f hf
    rw [hnoted, hf, hucalShape, hf]
  refine ⟨?_, ?_, hbit.trans (congrArg (bitOf · 0) hwdog), fun hwf k => ?_, hfld, ?_, ?_, ?_, ?_, ?_⟩
  · exact (hfinal State.mt fun _ _ => rfl).trans (hmt.trans hmt')
  · exact (hfinal (fun u => u.hg.expired) fun _ _ => rfl).trans (hexp.trans (congrArg Headgate.expired hhg'))
  · have hk := hchan (by rw [hchans']; exact hwf) k
    have hsame : (s.wearFlush false).chan k = s.chan k := congrArg (Table.get (fun _ => Chan.init) · k) hchans'
    exact (hfinal (fun u => (u.chan k).inSel) fun _ _ => rfl).trans ((congrArg Chan.inSel hk).trans (congrArg (fun c => c.keepCal.inSel) hsame))
  · exact (hfinal State.ustore fun _ _ => rfl).trans (hus.trans hus')
  · exact (hfinal State.reservoir fun _ _ => rfl).trans (hres.trans hres')
  · exact (hfinal State.weirs fun _ _ => rfl).trans hweirs
  · exact (hfinal State.rings fun _ _ => rfl).trans hrings
  · exact (hfinal State.nvm fun _ _ => rfl).trans (hnvm.trans hnvm')

theorem State.softResetEnd_quiet {s : State} (hphase : s.power.phase = .soft) (hops : s.hg.nvmOps = []) (hbusy : s.island.mirrorBusy = none) :
    s.softResetEnd = s.softEnd := by
  have h : (s.power.phase == .soft && s.hg.nvmOps.isEmpty && s.island.mirrorBusy.isNone) = true := by
    rw [hphase, hops, hbusy]
    rfl
  exact if_pos h

end Sys2Proof.Machine

namespace Sys2Proof.Proofs

open Sys2Proof.Machine Sys2Proof.Machine.Reg

theorem porAssert_clears (s : State) (hs : s.serves) :
    ∃ t, exec .porAssert s = .next t ∧ t.power.phase = .por ∧ t.power.cause = 1 ∧ t.power.rails = false ∧ t.reservoir = [] ∧
      t.localRam = [] ∧ t.ustore = [] ∧ t.nvm = s.nvm ∧ t.island.calendar = s.island.calendar ∧
      ∀ a, survival a ≠ .island → a ∉ [TRIP_RAW, TRIP_ACTIVE, CLK_STATUS] → t.reg a = resetWord a := by
  have hrow : exec .porAssert s =
      .next { s.beginReset true 1 with power := { (s.beginReset true 1).power with rails := false } } := by
    change Host.Outcome.next s.porAssert = _
    rw [State.porAssert, hs.1]
  obtain ⟨hphase, hcause, hres, hram, hus, hnvm, hcal⟩ := s.beginReset_shows true 1
  refine ⟨_, hrow, hphase, hcause, rfl, hres, hram, hus, hnvm, hcal, fun a ha hl => ?_⟩
  exact State.reg_clearMain (s.wearFlush true) true ha hl

theorem pinReset_begins {s : State} (hs : s.serves) (cause : Nat) : s.pinReset cause = s.beginReset false cause := by
  rw [State.pinReset, hs.1]

theorem resetN_low (ns : Nat) (s : State) (hs : s.serves) (hns : 1000 ≤ ns) :
    ∃ t, exec (.resetN true ns) s = .next t ∧ t.power.phase = .pinReset ∧ t.power.resetLow = true ∧ t.power.cause = 2 ∧
      t.reservoir = s.reservoir ∧ t.ustore = [] ∧ t.nvm = s.nvm := by
  have hrow : exec (.resetN true ns) s =
      .next { s.beginReset false 2 with power := { (s.beginReset false 2).power with resetLow := true } } := by
    change Host.Outcome.next (s.resetN true ns) = _
    have hlong : ¬ ns < 1000 := by omega
    have htaken : (decide (1000 ≤ ns) || s.freeValue.getLsbD 0) = true := by rw [decide_eq_true hns, Bool.true_or]
    rw [← pinReset_begins hs]
    unfold State.resetN
    rw [if_neg (by decide), if_neg (by omega), if_neg hlong]
    dsimp only
    rw [htaken, if_pos rfl]
  obtain ⟨hphase, hcause, hres, -, hus, hnvm, -⟩ := s.beginReset_shows false 2
  exact ⟨_, hrow, hphase, rfl, hcause, hres, hus, hnvm⟩

theorem resetN_short (ns : Nat) (s : State) (hns : ns < 200) : exec (.resetN true ns) s = .next s := by
  refine congrArg Host.Outcome.next ?_
  unfold State.resetN
  rw [if_neg (by decide), if_pos hns]

theorem clkFail_resets (pll : Bool) (s : State) (hs : s.serves) :
    ∃ t, exec (.clkFail pll) s = .next t ∧ t.power.phase = .pinReset ∧ t.power.cause = 3 ∧ t.reservoir = s.reservoir := by
  have hawake : ¬ (pll && s.napping) = true := by
    rw [State.napping, hs.1]
    cases pll <;> decide
  obtain ⟨hphase, hcause, hres, -⟩ := s.beginReset_shows false 3
  exact ⟨_, congrArg Host.Outcome.next ((if_neg hawake).trans (pinReset_begins hs 3)), hphase, hcause, hres⟩

theorem endOfReset_starts (straps : BitVec 2) (s : State) (hlow : s.power.resetLow = false)
    (hphase : (s.power.phase = .por ∧ s.power.rails = true ∧ s.power.pwrEn = true) ∨ s.power.phase = .pinReset) :
    ∃ t, exec (.endOfReset straps) s = .next t ∧ t.power.phase = .run ∧ t.mt = 0 ∧ t.fld GSTAT 5 4 = straps.toNat ∧
      t.fld RST_STATUS 3 0 = s.power.cause % 16 ∧ t.bit CALENG_CAL_STATUS 1 = true ∧ t.bit GSTAT 2 = false ∧ t.ucodeValid = false := by
  obtain ⟨hmt, hpower, hcal, hreg⟩ := State.endOfReset_shows straps ⟨hlow, hphase⟩
  obtain ⟨hrun, hzero, hboot, hcause, hout, hucode⟩ := s.sampled_shows straps
  refine ⟨_, rfl, (congrArg Power.phase hpower).trans hrun, hmt.trans hzero, ?_, ?_, hcal, ?_, ?_⟩
  · exact (congrArg (bitsOf · 5 4) (hreg _ (by decide))).trans hboot
  · exact (congrArg (bitsOf · 3 0) (hreg _ (by decide))).trans hcause
  · exact (congrArg (bitOf · 2) (hreg _ (by decide))).trans hout
  · exact (congrArg (bitOf · 0) (hreg _ (by decide))).trans hucode

theorem softReset_begins (s : State) (hs : s.serves) (hdue : s.hg.resetDue = true) :
    ∃ t, exec .softResetStart s = .next t ∧ t.power.phase = .soft ∧ t.power.cause = 5 ∧ t.bit GSTAT 2 = false ∧
      t.hg.resetAfter = false ∧ t.hg.resetDue = false ∧ t.ustore = s.ustore ∧ ∀ n h : Nat, n < 24 → h < 16 → t.thState n h = thHalted := by
  have hgo : (s.hg.resetDue && s.mainRuns) = true := by
    rw [hdue, State.mainRuns, hs.1]
    rfl
  exact ⟨_, congrArg Host.Outcome.next (if_pos hgo), s.softBegin_shows 5⟩

theorem softReset_ends (s : State) (hphase : s.power.phase = .soft) (hops : s.hg.nvmOps = []) (hbusy : s.island.mirrorBusy = none) :
    ∃ t, exec .softResetEnd s = .next t ∧ t.power.phase = .run ∧ t.hg.kick = s.mt ∧ t.hg.expired = s.hg.expired ∧
      t.bit WDOG_STATUS 0 = s.bit WDOG_STATUS 0 ∧
      (Table.wf (fun _ => Chan.init) s.chans = true → ∀ k, (t.chan k).inSel = (s.chan k).inSel) ∧
      t.fld RST_STATUS 3 0 = s.power.cause % 16 ∧
      t.ustore = s.ustore ∧ t.reservoir = s.reservoir ∧ t.weirs = [] ∧ t.rings = [] ∧ t.nvm.sealed = s.nvm.sealed := by
  have hover := s.softOver_of
  have hend := s.softEnd_eq
  generalize (s.wearFlush false).clearSoft.ucalApply.softNoted s.power.cause = w at hover hend
  have hrow : exec .softResetEnd s = .next s.softEnd := congrArg Host.Outcome.next (State.softResetEnd_quiet hphase hops hbusy)
  rw [hend] at hrow
  have hmirror := State.mirrorPending_leaves { w with power := { w.power with phase := .run }, hg := { w.hg with kick := w.mt } }
  obtain ⟨_, _, _, _, hshape⟩ := hmirror.shape
  have hwdog := hmirror.reg WDOG_STATUS (by decide)
  have hrst := hmirror.reg RST_STATUS (by decide)
  refine ⟨_, hrow, ?_, ?_, ?_, (congrArg (bitOf · 0) hwdog).trans hover.watchdog, fun hwf k => ?_,
    (congrArg (bitsOf · 3 0) hrst).trans hover.cause, ?_, ?_, ?_, ?_, ?_⟩
  · exact congrArg (fun u : State => u.power.phase) hshape
  · exact (congrArg (fun u : State => u.hg.kick) hshape).trans hover.mt
  · exact (congrArg (fun u : State => u.hg.expired) hshape).trans hover.expired
  · exact (congrArg (fun u : State => (u.chan k).inSel) hshape).trans (hover.pins hwf k)
  · exact (congrArg State.ustore hshape).trans hover.ustore
  · exact (congrArg State.reservoir hshape).trans hover.reservoir
  · exact (congrArg State.weirs hshape).trans hover.weirs
  · exact (congrArg State.rings hshape).trans hover.rings
  · exact (congrArg (fun u : State => u.nvm.sealed) hshape).trans (congrArg Nvm.sealed hover.nvm)

/-- Settles O55: each reset by what it clears and keeps. -/
theorem resetsClearTheMainDomain : Obligations.ResetsClearTheMainDomain := by
  unfold Obligations.ResetsClearTheMainDomain
  refine ⟨porAssert_clears, fun s hphase hpwr => congrArg Host.Outcome.next (if_pos ?_), resetN_low, resetN_short, fun ns s => rfl,
    clkFail_resets, endOfReset_starts, softReset_begins, softReset_ends⟩
  rw [hphase, hpwr]
  rfl

end Sys2Proof.Proofs
end

section
/-!
PROOFS. The always-on island, its mirror, the trims and TEMP (R350, R368 to R376, R379, R384, R386), and the obligation O56.
-/

namespace Sys2Proof.Machine

open Reg

/-! ### Wear counters (R372 to R374) -/

theorem State.wear_wearAdd (s : State) (w n : Nat) :
    ((s.wearAdd w n).wear w).toNat = min (2 ^ 48 - 1) ((s.wear w).toNat + n) ∧ (s.wearAdd w n).island.owed = s.island.owed := by
  have hset (v : BitVec 48) : (s.setWear w v).wear w = v ∧ (s.setWear w v).island.owed = s.island.owed :=
    ⟨Table.get_set_self _ _ _ _, rfl⟩
  have hmax : wearMax.toNat = 2 ^ 48 - 1 := by decide
  unfold State.wearAdd
  dsimp only
  split
  · next hlt =>
    rw [hmax] at hlt
    rw [(hset _).1, BitVec.toNat_ofNat, Nat.mod_eq_of_lt (by omega)]
    exact ⟨by omega, rfl⟩
  · next hge =>
    rw [hmax] at hge
    obtain ⟨hwear, howed⟩ := hset wearMax
    have hsat (u : State) : (u.wearSat w).island = u.island := by
      unfold State.wearSat State.lifeEvent
      split
      · rfl
      · split <;> rfl
    rw [State.wear, hsat, ← State.wear, hwear, hmax]
    exact ⟨by omega, howed⟩

/-- A counter that its source owes an event. -/
theorem State.wearEvent_cons {s : State} {w : Nat} {u : Tick} {rest : List Tick} (h : s.island.owed.get (fun _ => []) w = u :: rest) :
    ((s.wearEvent w).wear w).toNat = min (2 ^ 48 - 1) ((s.wear w).toNat + 1) ∧
      (s.wearEvent w).island.owed.get (fun _ => []) w = rest := by
  have hstep : s.wearEvent w =
      (({ s with island := { s.island with owed := s.island.owed.set (fun _ => []) w rest } } : State).wearAdd w 1).noteHw (WEAR_LO w) 32
        true := by
    unfold State.wearEvent
    rw [h]
  obtain ⟨hwear, howed⟩ :=
    State.wear_wearAdd { s with island := { s.island with owed := s.island.owed.set (fun _ => []) w rest } } w 1
  rw [hstep]
  refine ⟨hwear, ?_⟩
  change ((State.wearAdd _ w 1).island.owed).get (fun _ => []) w = rest
  rw [howed]
  exact Table.get_set_self _ _ _ _

theorem State.wearOp_add {s : State} {v : Word} (h8 : v.getLsbD 8 = true) (h9 : v.getLsbD 9 = false) :
    s.wearOp v =
      if s.wearSrc (bitsOf v 5 0) = 0 then s.wearAdd (bitsOf v 5 0) (s.reg WEAR_ADD_VAL).toNat else s.raise WEAR_STATUS 0 := by
  unfold State.wearOp
  dsimp only
  rw [bitOf, h9, bitOf, h8]

theorem State.wearOp_clr {s : State} {v : Word} (h8 : v.getLsbD 8 = false) (h9 : v.getLsbD 9 = true) :
    s.wearOp v =
      if s.bit (WEAR_CFG (bitsOf v 5 0)) 31 then s.raise WEAR_STATUS 0
      else s.setWear (bitsOf v 5 0) (BitVec.ofNat 48 (s.wearArrived (bitsOf v 5 0))) := by
  unfold State.wearOp
  dsimp only
  rw [bitOf, h9, bitOf, h8]

/-- The capture writes the counters one after another. -/
theorem State.takenCounters_show (s : State) {n : Nat} :
    let t := foldBelow n (fun s w => s.setPair (WSNAP_LO w) (WSNAP_HI w) ((s.wear w).zeroExtend 64)) s
    (∃ rg, t = { s with regs := rg }) ∧ (∀ a, a < WSNAP_LO 0 ∨ WSNAP_LO n ≤ a → t.reg a = s.reg a) ∧
      ∀ w, w < n → t.pair (WSNAP_LO w) (WSNAP_HI w) = (s.wear w).zeroExtend 64 := by
  induction n with
  | zero => exact ⟨⟨_, rfl⟩, fun _ _ => rfl, fun w hw => absurd hw (Nat.not_lt_zero w)⟩
  | succ n ih =>
    dsimp only at ih ⊢
    rw [foldBelow_succ]
    obtain ⟨⟨_, hshape⟩, hreg, hpair⟩ := ih
    generalize foldBelow n _ s = u at hshape hreg hpair
    have hwear : u.wear n = s.wear n := by
      rw [hshape]
      rfl
    refine ⟨?_, fun a ha => ?_, fun w hw => ?_⟩
    · rw [hshape]
      exact ⟨_, rfl⟩
    · unfold WSNAP_LO at ha
      rw [State.reg_setPair_ne _ _ (by unfold WSNAP_LO; omega) (by unfold WSNAP_HI; omega)]
      exact hreg a (by unfold WSNAP_LO; omega)
    · by_cases hlast : w = n
      · rw [hlast, State.pair_setPair_self _ _ _ _ (by unfold WSNAP_LO WSNAP_HI; omega), hwear]
      · rw [State.pair_setPair_ne _ _ (by unfold WSNAP_LO; omega) (by unfold WSNAP_LO WSNAP_HI; omega)
          (by unfold WSNAP_LO WSNAP_HI; omega) (by unfold WSNAP_HI; omega)]
        exact hpair w (by omega)

/-- The calendar and WEAR_SNAP_SEQ of a capture. -/
theorem State.wearSeq_shows (s : State) :
    let u := s.setPair WSNAP_CAL_LO WSNAP_CAL_HI s.island.calendar
    let t := u.setFld WEAR_SNAP_SEQ 15 0 (u.fld WEAR_SNAP_SEQ 15 0 + 1)
    t.pair WSNAP_CAL_LO WSNAP_CAL_HI = s.island.calendar ∧ t.takes = s.takes ∧
      t.fld WEAR_SNAP_SEQ 15 0 = (s.fld WEAR_SNAP_SEQ 15 0 + 1) % 65536 ∧
      ∀ w, w < 64 → t.pair (WSNAP_LO w) (WSNAP_HI w) = s.pair (WSNAP_LO w) (WSNAP_HI w) := by
  have hseq : (s.setPair WSNAP_CAL_LO WSNAP_CAL_HI s.island.calendar).reg WEAR_SNAP_SEQ = s.reg WEAR_SNAP_SEQ :=
    State.reg_setPair_ne _ _ (by decide) (by decide)
  dsimp only
  refine ⟨?_, rfl, ?_, fun w hw => ?_⟩
  · rw [State.setFld, State.pair_setReg_ne _ _ (by decide) (by decide), State.pair_setPair_self _ _ _ _ (by decide)]
  · rw [State.fld_setFld_self _ _ _ _ _ (by decide), State.fld, hseq, State.fld]
    rfl
  · rw [State.setFld, State.pair_setReg_ne _ _ (by unfold WSNAP_LO WEAR_SNAP_SEQ; omega) (by unfold WSNAP_HI WEAR_SNAP_SEQ; omega),
      State.pair_setPair_ne _ _ (by unfold WSNAP_LO WSNAP_CAL_LO; omega) (by unfold WSNAP_LO WSNAP_CAL_HI; omega)
        (by unfold WSNAP_HI WSNAP_CAL_LO; omega) (by unfold WSNAP_HI WSNAP_CAL_HI; omega)]

theorem State.runTakes_wear {s : State} (ht : s.takes = [.wear]) : s.runTakes = ({ s with takes := [] } : State).takeWear := by
  simp only [State.runTakes, ht, Take.late]
  rfl

theorem State.takeWear_shows (s : State) :
    s.takeWear.pair WSNAP_CAL_LO WSNAP_CAL_HI = s.island.calendar ∧ s.takeWear.takes = s.takes ∧
      s.takeWear.fld WEAR_SNAP_SEQ 15 0 = (s.fld WEAR_SNAP_SEQ 15 0 + 1) % 65536 ∧
      ∀ w : Nat, w < 64 → s.takeWear.pair (WSNAP_LO w) (WSNAP_HI w) = (s.wear w).zeroExtend 64 := by
  obtain ⟨⟨_, hshape⟩, hreg, hpair⟩ := s.takenCounters_show (n := 64)
  obtain ⟨hcal, htakes, hseq, hkept⟩ :=
    State.wearSeq_shows (foldBelow 64 (fun s w => s.setPair (WSNAP_LO w) (WSNAP_HI w) ((s.wear w).zeroExtend 64)) s)
  have hregSeq := hreg WEAR_SNAP_SEQ (.inl (by decide))
  unfold State.takeWear
  dsimp only at hcal htakes hseq hkept hshape hregSeq hpair ⊢
  generalize foldBelow 64 (fun (s : State) w => s.setPair (WSNAP_LO w) (WSNAP_HI w) ((s.wear w).zeroExtend 64)) s = u at *
  refine ⟨hcal.trans ?_, htakes.trans ?_, hseq.trans ?_, fun w hw => (hkept w hw).trans (hpair w hw)⟩
  · rw [hshape]
  · rw [hshape]
  · rw [State.fld, hregSeq, State.fld]

/-! ### The calendar (R368 to R371) -/

/-- The states agree in the calendar, in a request of SET, and in bit 0 of CAL_STATUS. -/
structure State.SameCalendar (s t : State) : Prop where
  calendar : t.island.calendar = s.island.calendar
  setReq : t.island.setReq = s.island.setReq
  valid : t.bit CALN_CAL_STATUS 0 = s.bit CALN_CAL_STATUS 0

namespace State.SameCalendar

theorem refl (s : State) : SameCalendar s s := ⟨rfl, rfl, rfl⟩

theorem trans {r s t : State} (h : SameCalendar r s) (h' : SameCalendar s t) : SameCalendar r t :=
  ⟨h'.calendar.trans h.calendar, h'.setReq.trans h.setReq, h'.valid.trans h.valid⟩

theorem ite {c : Prop} [Decidable c] {r s t : State} (h : SameCalendar r s) (h' : SameCalendar r t) :
    SameCalendar r (if c then s else t) := by
  split <;> assumption

theorem setReg (s : State) {a : Nat} (v : Word) (ha : a ≠ CALN_CAL_STATUS) : SameCalendar s (s.setReg a v) :=
  ⟨rfl, rfl, congrArg (bitOf · 0) (s.reg_setReg_ne v ha.symm)⟩

theorem satCount (s : State) {a : Nat} (ha : a ≠ CALN_CAL_STATUS) : SameCalendar s (s.satCount a) :=
  ⟨rfl, rfl, congrArg (bitOf · 0) (s.reg_satCount_ne ha.symm)⟩

theorem raise (s : State) {a i : Nat} (h : a ≠ CALN_CAL_STATUS ∨ i ≠ 0) : SameCalendar s (s.raise a i) := by
  refine ⟨rfl, rfl, ?_⟩
  rcases h with ha | hi
  · exact s.bit_raise_other i 0 ha.symm
  · by_cases ha : a = CALN_CAL_STATUS
    · rw [ha]
      exact s.bit_setBit_ne CALN_CAL_STATUS true hi.symm
    · exact s.bit_raise_other i 0 (Ne.symm ha)

end State.SameCalendar

theorem State.lifeEvent_sameCalendar (s : State) : SameCalendar s s.lifeEvent := .ite ⟨rfl, rfl, rfl⟩ (.refl s)

theorem State.wearAdd_sameCalendar (s : State) (w n : Nat) : SameCalendar s (s.wearAdd w n) := by
  have hset (v : BitVec 48) : SameCalendar s (s.setWear w v) := ⟨rfl, rfl, rfl⟩
  have hmap : SAT_MAP (w / 32) ≠ CALN_CAL_STATUS := by unfold SAT_MAP CALN_CAL_STATUS; omega
  have hsat (u : State) : SameCalendar u (u.wearSat w) :=
    .ite (.refl u) ((State.SameCalendar.raise u (.inl hmap)).trans (State.lifeEvent_sameCalendar _))
  exact .ite (hset _) ((hset _).trans (hsat _))

theorem State.wearPeriod_sameCalendar (s : State) : SameCalendar s s.wearPeriod := by
  unfold State.wearPeriod
  split
  · next i _ =>
    have hstep (u : State) (w : Nat) (c d : Prop) [Decidable c] [Decidable d] :
        SameCalendar u (if c then if d then (u.wearAdd w 1).noteHw (WEAR_LO w) 32 true else u.wearAdd w 1 else u) :=
      .ite (.ite ((u.wearAdd_sameCalendar w 1).trans ⟨rfl, rfl, rfl⟩) (u.wearAdd_sameCalendar w 1)) (.refl u)
    have hfold (n : Nat) : SameCalendar s (foldBelow n (fun s w =>
        if s.wearSrc w == 4 && s.fld (WEAR_CFG w) 8 0 == i then
          if s.tclk then (s.wearAdd w 1).noteHw (WEAR_LO w) 32 true else s.wearAdd w 1
        else s) s) := by
      induction n with
      | zero => exact .refl s
      | succ n ih =>
        rw [foldBelow_succ]
        exact ih.trans (hstep _ n _ _)
    exact hfold 64
  · exact .refl s

theorem State.calAlarm_sameCalendar (s : State) : SameCalendar s s.calAlarm := by
  have hrise := (State.SameCalendar.raise s (a := CALN_CAL_STATUS) (i := 2) (.inr (by decide))).trans (State.lifeEvent_sameCalendar _)
  exact .ite (hrise.trans ⟨rfl, rfl, rfl⟩) hrise

/-- The calendar as an edge of LFCLK leaves it, with CAL_STATUS. -/
def State.calStepped (s : State) : State :=
  let new := match s.setValue with
    | some v => v
    | none => if s.island.ptpReq then s.domainCalendar else (s.island.calendar + 1) &&& 0x7FFFFFFFFFFFFFFF#64
  let t := { s with island := { s.island with calendar := new, setReq := false, ptpReq := false } }
  match s.setValue with
    | some _ => t.setBit CALN_CAL_STATUS 0 true
    | none => if s.island.ptpReq then ((t.setBit CALN_CAL_STATUS 0 true).raise CALN_CAL_STATUS 1).satCount CAL_STEP_CNT else t

/-- What follows an edge of LFCLK, `alarm` when the alarm fires: a request of the domain's time, NAP_LF, and the wear of the period. -/
def State.calFollowed (s : State) (alarm : Bool) : State :=
  let s := if alarm then s.calAlarm else s
  let s := { s with island := { s.island with ptpReq := s.calDeparts } }
  let s := if s.power.phase == .nap || s.power.phase == .waking then s.satCount NAP_LF else s
  s.wearPeriod

theorem State.calFollowed_sameCalendar (s : State) (alarm : Bool) : SameCalendar s (s.calFollowed alarm) := by
  have halarm : SameCalendar s (if alarm then s.calAlarm else s) := .ite s.calAlarm_sameCalendar (.refl s)
  have hreq (u : State) (b : Bool) : SameCalendar u { u with island := { u.island with ptpReq := b } } := ⟨rfl, rfl, rfl⟩
  have hnap (u : State) (c : Prop) [Decidable c] : SameCalendar u (if c then u.satCount NAP_LF else u) :=
    .ite (.satCount u (by decide)) (.refl u)
  exact (halarm.trans (hreq _ _)).trans ((hnap _ _).trans (State.wearPeriod_sameCalendar _))

theorem State.calendarStep_follows {s : State} (h : s.lfOk = true) : ∃ alarm, s.calendarStep = s.calStepped.calFollowed alarm := by
  have hrun : ¬ (!s.lfOk) = true := by rw [h]; decide
  exact ⟨_, if_neg hrun⟩

theorem State.calStepped_set {s : State} (h : s.island.setReq = true) :
    s.calStepped.island.calendar = s.pair CAL_SET_LO CAL_SET_HI &&& 0x7FFFFFFFFFFFFFFF#64 ∧ s.calStepped.bit CALN_CAL_STATUS 0 = true := by
  have hset : s.setValue = some (s.pair CAL_SET_LO CAL_SET_HI &&& 0x7FFFFFFFFFFFFFFF#64) := if_pos h
  unfold State.calStepped
  rw [hset]
  exact ⟨rfl, State.bit_setBit_self _ _ _ _ (by decide)⟩

theorem State.setValue_none {s : State} (h : s.island.setReq = false) : s.setValue = none :=
  if_neg (by rw [h]; exact Bool.false_ne_true)

theorem State.calStepped_counts {s : State} (h : s.island.setReq = false) (hptp : s.island.ptpReq = false) :
    s.calStepped.island.calendar = (s.island.calendar + 1) &&& 0x7FFFFFFFFFFFFFFF#64 := by
  unfold State.calStepped
  rw [State.setValue_none h, hptp]
  rfl

theorem State.calStepped_setReq (s : State) : s.calStepped.island.setReq = false := by
  unfold State.calStepped
  dsimp only
  cases s.setValue with
  | some v => rfl
  | none => cases s.island.ptpReq <;> rfl

theorem State.calCtlWrite_set {s : State} {v : Word} (hv : v.getLsbD 0 = true) :
    s.calCtlWrite v =
      if s.bit CAL_SET_HI 31 then s.raise CALN_CAL_STATUS 3
      else { s.plainWrite CALN_CAL_CTRL v with island := { (s.plainWrite CALN_CAL_CTRL v).island with setReq := true } } := by
  unfold State.calCtlWrite
  rw [bitOf, hv, Bool.not_true, if_neg Bool.false_ne_true]

/-! ### The mirror and its restore (R375, R376, R379) -/

theorem State.beginMirror_free {s : State} (hbusy : s.island.mirrorBusy = none) (hrun : s.power.phase = .run) :
    s.beginMirror =
      { s.setBit MIR_STATUS 31 true with
        island := { s.island with mirrorBusy := some s.mirrorRecord, mirrorDue := false, lastMirror := s.island.calendar } } := by
  have h : ¬ (s.island.mirrorBusy.isSome || !s.mainRuns) = true := by
    rw [hbusy, State.mainRuns, hrun]
    decide
  exact if_neg h

theorem State.beginMirror_stopped {s : State} (hphase : s.power.phase = .nap ∨ s.power.phase = .soft) :
    s.beginMirror = { s with island := { s.island with mirrorDue := true } } := by
  have h : (s.island.mirrorBusy.isSome || !s.mainRuns) = true := by
    rw [State.mainRuns]
    rcases hphase with h | h <;> rw [h] <;> exact Bool.or_true _
  exact if_pos h

theorem State.mirrorElapsed_due {s : State} (hphase : s.power.phase ≠ .hibernate)
    (hdue : s.mirrorPeriod * 32768 ≤ (s.island.calendar - s.island.lastMirror).toNat) : s.mirrorElapsed = s.beginMirror := by
  have h : (s.power.phase != .hibernate && decide (s.mirrorPeriod * 32768 ≤ (s.island.calendar - s.island.lastMirror).toNat)) = true := by
    rw [decide_eq_true hdue, bne_iff_ne.2 hphase]
    rfl
  exact if_pos h

theorem State.mirrorPending_none {s : State} (h : s.island.mirrorDue = false) : s.mirrorPending = s := by
  have hnone : ¬ (s.island.mirrorDue && s.island.mirrorBusy.isNone && s.mainRuns) = true := by
    rw [h]
    exact Bool.false_ne_true
  exact if_neg hnone

/-- The configurations of the counters as a record gives them. -/
theorem State.restoredCfgs_show (s : State) (f : Nat → Word) (n : Nat) :
    let t := foldBelow n (fun s w => s.hwUpdate (WEAR_CFG w) (f w)) s
    t.island = s.island ∧ (∀ w, w < n → s.written.contains (WEAR_CFG w) = false → t.reg (WEAR_CFG w) = f w) ∧ t.written = s.written := by
  induction n with
  | zero => exact ⟨rfl, fun w hw => absurd hw (Nat.not_lt_zero w), rfl⟩
  | succ n ih =>
    dsimp only at ih ⊢
    rw [foldBelow_succ]
    obtain ⟨hisland, hreg, hwritten⟩ := ih
    generalize foldBelow n _ s = u at hisland hreg hwritten
    have hsame : (u.hwUpdate (WEAR_CFG n) (f n)).island = u.island := by rw [u.hwUpdate_eq]
    refine ⟨hsame.trans hisland, fun w hw hfree => ?_, (u.hwUpdate_written _ _).trans hwritten⟩
    by_cases hlast : w = n
    · rw [hlast] at hfree ⊢
      exact u.reg_hwUpdate_self _ (by rw [hwritten]; exact hfree)
    · rw [u.reg_hwUpdate_ne _ (by unfold WEAR_CFG; omega)]
      exact hreg w (by omega) hfree

/-- The words of the island besides the counters' configurations, as a record gives them. -/
def State.restoreWords (s : State) (r : MirrorRec) : State :=
  let s := (((s.hwUpdate MIR_CFG r.period).hwUpdate CAL_ALARM_LO r.alarmLo).hwUpdate CAL_ALARM_HI r.alarmHi).setReg MIR_EPOCH r.epoch
  (s.setReg LOST_EPOCHS (r.lost + 1)).setBit CALN_CAL_STATUS 0 false

theorem State.restoreWords_show (s : State) (r : MirrorRec) :
    let t := s.restoreWords r
    t.reg LOST_EPOCHS = r.lost + 1 ∧ t.reg MIR_EPOCH = r.epoch ∧ t.bit CALN_CAL_STATUS 0 = false ∧
      ∀ w, w < 64 → t.reg (WEAR_CFG w) = s.reg (WEAR_CFG w) := by
  have hcfg (w : Nat) (hw : w < 64) : WEAR_CFG w ≠ MIR_CFG ∧ WEAR_CFG w ≠ CAL_ALARM_LO ∧ WEAR_CFG w ≠ CAL_ALARM_HI ∧
      WEAR_CFG w ≠ MIR_EPOCH ∧ WEAR_CFG w ≠ LOST_EPOCHS ∧ WEAR_CFG w ≠ CALN_CAL_STATUS := by
    unfold WEAR_CFG MIR_CFG CAL_ALARM_LO CAL_ALARM_HI MIR_EPOCH LOST_EPOCHS CALN_CAL_STATUS
    omega
  unfold State.restoreWords
  dsimp only
  refine ⟨?_, ?_, State.bit_setBit_self _ _ _ _ (by decide), fun w hw => ?_⟩
  · rw [State.setBit, State.reg_setReg_ne _ _ (by decide), State.reg_setReg_self]
  · rw [State.setBit, State.reg_setReg_ne _ _ (by decide), State.reg_setReg_ne _ _ (by decide), State.reg_setReg_self]
  · obtain ⟨h1, h2, h3, h4, h5, h6⟩ := hcfg w hw
    rw [State.setBit, State.reg_setReg_ne _ _ h6, State.reg_setReg_ne _ _ h5, State.reg_setReg_ne _ _ h4, State.reg_hwUpdate_ne _ _ h3,
      State.reg_hwUpdate_ne _ _ h2, State.reg_hwUpdate_ne _ _ h1]

theorem State.restoreRecord_eq (s : State) (r : MirrorRec) :
    s.restoreRecord r =
      let u := (foldBelow 64 (fun s w => s.hwUpdate (WEAR_CFG w) ((r.cfgs.lookup w).getD 0)) s).restoreWords r
      { u with island := { u.island with wear := r.counts, calendar := r.calendar, lastMirror := r.calendar } } := by
  unfold State.restoreRecord State.restoreWords
  rfl

theorem State.restoreRecord_shows (s : State) (r : MirrorRec) :
    let t := s.restoreRecord r
    (∀ w : Nat, w < 64 → s.written.contains (WEAR_CFG w) = false → t.reg (WEAR_CFG w) = (r.cfgs.lookup w).getD 0) ∧
      t.island.wear = r.counts ∧ t.island.calendar = r.calendar ∧ t.reg LOST_EPOCHS = r.lost + 1 ∧ t.reg MIR_EPOCH = r.epoch ∧
      t.bit CALN_CAL_STATUS 0 = false := by
  obtain ⟨-, hcfg, -⟩ := s.restoredCfgs_show (fun w => (r.cfgs.lookup w).getD 0) 64
  obtain ⟨hlost, hepoch, hvalid, hkept⟩ :=
    (foldBelow 64 (fun s w => s.hwUpdate (WEAR_CFG w) ((r.cfgs.lookup w).getD 0)) s).restoreWords_show r
  rw [s.restoreRecord_eq]
  dsimp only at hcfg ⊢
  generalize foldBelow 64 (fun (s : State) w => s.hwUpdate (WEAR_CFG w) ((r.cfgs.lookup w).getD 0)) s = u at *
  generalize u.restoreWords r = v at *
  exact ⟨fun w hw hfree => (hkept w hw).trans (hcfg w hw hfree), rfl, rfl, hlost, hepoch, hvalid⟩

/-- What follows a restore: RESTORED, its event, and a mirror. -/
theorem State.restoreEnds_show (s : State) :
    let t := ((s.raise MIR_STATUS 0).lifeEvent).beginMirror
    (∀ a, a ≠ MIR_STATUS → t.reg a = s.reg a) ∧ t.island.wear = s.island.wear ∧ t.island.calendar = s.island.calendar ∧
      t.bit MIR_STATUS 0 = true := by
  have hlife (u : State) : u.lifeEvent.regs = u.regs ∧ u.lifeEvent.island = u.island := by
    unfold State.lifeEvent
    split <;> exact ⟨rfl, rfl⟩
  have hmirror (u : State) : u.beginMirror.island.wear = u.island.wear ∧ u.beginMirror.island.calendar = u.island.calendar ∧
      (∀ a, a ≠ MIR_STATUS → u.beginMirror.reg a = u.reg a) ∧ u.beginMirror.bit MIR_STATUS 0 = u.bit MIR_STATUS 0 := by
    unfold State.beginMirror
    split
    · exact ⟨rfl, rfl, fun _ _ => rfl, rfl⟩
    · exact ⟨rfl, rfl, fun a ha => u.reg_setReg_ne _ ha, u.bit_setBit_ne MIR_STATUS true (by decide)⟩
  obtain ⟨hregs, hisland⟩ := hlife (s.raise MIR_STATUS 0)
  obtain ⟨hwear, hcal, hreg, hbit⟩ := hmirror (s.raise MIR_STATUS 0).lifeEvent
  have hsame (a : Nat) : (s.raise MIR_STATUS 0).lifeEvent.reg a = (s.raise MIR_STATUS 0).reg a := by rw [State.reg, hregs, State.reg]
  refine ⟨fun a ha => (hreg a ha).trans ((hsame a).trans (s.reg_setReg_ne _ ha)), hwear.trans ?_, hcal.trans ?_,
    hbit.trans ((congrArg (bitOf · 0) (hsame _)).trans (s.bit_raise_self _ (by decide)))⟩
  · rw [hisland]
    rfl
  · rw [hisland]
    rfl

/-- A restore that is no longer due. -/
def State.restoreTaken (s : State) : State := { s with island := { s.island with restoreDue := false } }

theorem State.islandRestore_due {s : State} (hdue : s.island.restoreDue = true) (hrails : s.power.rails = true) :
    s.islandRestore =
      match s.nvm.mirror with
      | some r => (((s.restoreTaken.restoreRecord r).raise MIR_STATUS 0).lifeEvent).beginMirror
      | none => (s.restoreTaken.setBit MIR_STATUS 1 true).lifeEvent := by
  have h : ¬ (!s.island.restoreDue || !s.power.rails) = true := by
    rw [hdue, hrails]
    decide
  exact if_neg h

end Sys2Proof.Machine
end

section
/-!
PROOFS. The rows of the island, the trims and TEMP, and the obligation O56.
-/

namespace Sys2Proof.Machine

open Reg

theorem State.lfclkLoss_shows {s : State} (h : s.lfOk = true) :
    s.lfclkLoss.lfOk = false ∧ s.lfclkLoss.bit CALN_CAL_STATUS 0 = false ∧ s.lfclkLoss.island = s.island := by
  have hend (u : State) (c : Prop) [Decidable c] : (if c then u.sysEvent 3 else u).regs = u.regs ∧ (if c then u.sysEvent 3 else u).island = u.island := by
    split <;> exact ⟨rfl, rfl⟩
  have hloss : s.lfclkLoss = (let t := (s.setBit CLK_STATUS 2 false).setBit CALN_CAL_STATUS 0 false
      if t.mainPowered then t.sysEvent 3 else t) := if_pos h
  obtain ⟨hregs, hisland⟩ := hend ((s.setBit CLK_STATUS 2 false).setBit CALN_CAL_STATUS 0 false)
    (((s.setBit CLK_STATUS 2 false).setBit CALN_CAL_STATUS 0 false).mainPowered = true)
  rw [hloss]
  refine ⟨?_, ?_, hisland⟩
  · rw [State.lfOk, State.bit, State.reg, hregs, ← State.reg, State.setBit, State.reg_setReg_ne _ _ (by decide), ← State.bit,
      State.bit_setBit_self _ _ _ _ (by decide)]
  · rw [State.bit, State.reg, hregs, ← State.reg, ← State.bit, State.bit_setBit_self _ _ _ _ (by decide)]

theorem State.vbatPor_shows (s : State) :
    s.vbatPor.island.calendar = 0 ∧ (∀ w : Nat, w < 64 → s.vbatPor.wear w = 0) ∧ s.vbatPor.island.restoreDue = true ∧
      s.vbatPor.nvm = s.nvm ∧ ∀ a, s.vbatPor.reg a = if islandAddr a = true then resetWord a else s.reg a := by
  refine ⟨rfl, fun w _ => rfl, rfl, rfl, fun a => (s.reg_kept (fun a => !islandAddr a) a).trans ?_⟩
  cases islandAddr a <;> rfl

/-- The mirror has ended, with success or not. -/
def State.mirrorEnded (s : State) : State := { s.setBit MIR_STATUS 31 false with island := { s.island with mirrorBusy := none } }

/-- Record `r` is the newest in NVM. -/
def State.mirrorStored (s : State) (r : MirrorRec) : State := { s.count MIR_EPOCH with nvm := { s.nvm with mirror := some r } }

theorem State.mirrorEnded_shows (s : State) :
    let t := s.mirrorEnded
    t.island.mirrorBusy = none ∧ t.island.mirrorDue = s.island.mirrorDue ∧ t.nvm = s.nvm ∧ t.bit MIR_STATUS 31 = false ∧
      t.reg MIR_EPOCH = s.reg MIR_EPOCH ∧ t.reg MIR_FAIL_CNT = s.reg MIR_FAIL_CNT :=
  ⟨rfl, rfl, rfl, s.bit_setBit_self MIR_STATUS 31 false (by decide), s.reg_setReg_ne _ (by decide), s.reg_setReg_ne _ (by decide)⟩

theorem State.mirrorStored_shows (s : State) (r : MirrorRec) :
    let t := s.mirrorStored r
    t.island = s.island ∧ t.nvm.mirror = some r ∧ t.reg MIR_EPOCH = s.reg MIR_EPOCH + 1 ∧ t.bit MIR_STATUS 31 = s.bit MIR_STATUS 31 :=
  ⟨rfl, rfl, s.reg_count_self MIR_EPOCH, congrArg (bitOf · 31) (s.reg_count_ne (by decide))⟩

theorem State.mirrorFailed_shows (s : State) :
    let t := (s.satCount MIR_FAIL_CNT).lifeEvent
    t.island = s.island ∧ t.nvm = s.nvm ∧ t.reg MIR_FAIL_CNT = satInc (s.reg MIR_FAIL_CNT) := by
  have hlife (u : State) : u.lifeEvent.island = u.island ∧ u.lifeEvent.nvm = u.nvm ∧ ∀ a, u.lifeEvent.reg a = u.reg a := by
    unfold State.lifeEvent
    split <;> exact ⟨rfl, rfl, fun _ => rfl⟩
  obtain ⟨hisland, hnvm, hreg⟩ := hlife (s.satCount MIR_FAIL_CNT)
  exact ⟨hisland, hnvm, (hreg _).trans (s.reg_satCount_self _)⟩

theorem State.mirrorComplete_busy {s : State} {r : MirrorRec} (h : s.island.mirrorBusy = some r) :
    s.mirrorComplete true = (s.mirrorEnded.mirrorStored r).mirrorPending ∧
      s.mirrorComplete false = ((s.mirrorEnded.satCount MIR_FAIL_CNT).lifeEvent).mirrorPending := by
  unfold State.mirrorComplete
  rw [h]
  exact ⟨rfl, rfl⟩

end Sys2Proof.Machine

namespace Sys2Proof.Proofs

open Sys2Proof.Machine Sys2Proof.Machine.Reg

theorem islandRestore_restores (s : State) (hdue : s.island.restoreDue = true) (hrails : s.power.rails = true) :
    (∀ r, s.nvm.mirror = some r →
      ∃ t, exec .islandRestore s = .next t ∧
        (∀ w : Nat, w < 64 → s.written.contains (WEAR_CFG w) = false → t.reg (WEAR_CFG w) = (r.cfgs.lookup w).getD 0) ∧
        t.island.wear = r.counts ∧ t.island.calendar = r.calendar ∧ t.bit MIR_STATUS 0 = true ∧
        t.reg LOST_EPOCHS = r.lost + 1 ∧ t.reg MIR_EPOCH = r.epoch ∧ t.bit CALN_CAL_STATUS 0 = false) ∧
      (s.nvm.mirror = none →
        ∃ t, exec .islandRestore s = .next t ∧ t.bit MIR_STATUS 1 = true ∧ t.island.wear = s.island.wear) := by
  have hrow := State.islandRestore_due hdue hrails
  constructor
  · intro r hr
    rw [hr] at hrow
    dsimp only at hrow
    obtain ⟨hcfg, hwear, hcal, hlost, hepoch, hvalid⟩ :=
      s.restoreTaken.restoreRecord_shows r
    have hwritten : s.restoreTaken.written = s.written := rfl
    rw [hwritten] at hcfg
    generalize s.restoreTaken.restoreRecord r = u at *
    obtain ⟨hreg, hwear', hcal', hbit⟩ := u.restoreEnds_show
    refine ⟨_, congrArg Host.Outcome.next hrow, fun w hw hfree => (hreg _ ?_).trans (hcfg w hw hfree), hwear'.trans hwear, hcal'.trans hcal,
      hbit, (hreg _ (by decide)).trans hlost, (hreg _ (by decide)).trans hepoch,
      (congrArg (bitOf · 0) (hreg _ (by decide))).trans hvalid⟩
    unfold WEAR_CFG MIR_STATUS
    omega
  · intro hnone
    rw [hnone] at hrow
    dsimp only at hrow
    have hlife (u : State) : u.lifeEvent.bit MIR_STATUS 1 = u.bit MIR_STATUS 1 ∧ u.lifeEvent.island = u.island := by
      unfold State.lifeEvent
      split <;> exact ⟨rfl, rfl⟩
    obtain ⟨hbit, hisland⟩ := hlife (s.restoreTaken.setBit MIR_STATUS 1 true)
    exact ⟨_, congrArg Host.Outcome.next hrow, hbit.trans (State.bit_setBit_self _ _ _ _ (by decide)), (congrArg Island.wear hisland).trans rfl⟩

theorem calendarStep_steps (s : State) (h : s.lfOk = true) :
    ∃ t, exec .calendarStep s = .next t ∧ t.island.setReq = false ∧
      (s.island.setReq = true → t.island.calendar = s.pair CAL_SET_LO CAL_SET_HI &&& 0x7FFFFFFFFFFFFFFF#64 ∧
        t.bit CALN_CAL_STATUS 0 = true) ∧
      (s.island.setReq = false → s.island.ptpReq = false →
        t.island.calendar = (s.island.calendar + 1) &&& 0x7FFFFFFFFFFFFFFF#64) := by
  obtain ⟨alarm, hstep⟩ := State.calendarStep_follows h
  have hsame := s.calStepped.calFollowed_sameCalendar alarm
  refine ⟨_, congrArg Host.Outcome.next hstep, hsame.setReq.trans s.calStepped_setReq, fun hset => ?_, fun hset hptp => ?_⟩
  · obtain ⟨hcal, hvalid⟩ := State.calStepped_set hset
    exact ⟨hsame.calendar.trans hcal, hsame.valid.trans hvalid⟩
  · exact hsame.calendar.trans (State.calStepped_counts hset hptp)

theorem calSet_requests (v : Word) (s : State) (ha : s.accepts CALN_CAL_CTRL v) (hv : v.getLsbD 0 = true) :
    ∃ t, exec (.calSet v) s = .next t ∧
      (if s.bit CAL_SET_HI 31 = true then t.bit CALN_CAL_STATUS 3 = true ∧ t.island = s.island else t.island.setReq = true) := by
  have hrow : exec (.calSet v) s = .next ((s.noteHost CALN_CAL_CTRL).calCtlWrite v) := congrArg Host.Outcome.next (s.hostWrite_accepts _ ha)
  rw [State.calCtlWrite_set hv] at hrow
  refine ⟨_, hrow, ?_⟩
  change if (s.noteHost CALN_CAL_CTRL).bit CAL_SET_HI 31 = true then _ else _
  split
  · exact ⟨State.bit_raise_self _ _ (by decide), rfl⟩
  · rfl

theorem wearEvent_counts (w : Fin 64) (u : Tick) (rest : List Tick) (s : State) (_ : s.clocked)
    (h : s.island.owed.get (fun _ => []) w = u :: rest) :
    ∃ t, exec (.wearEvent w) s = .next t ∧ (t.wear w).toNat = min (2 ^ 48 - 1) ((s.wear w).toNat + 1) ∧
      t.island.owed.get (fun _ => []) w = rest := ⟨_, rfl, State.wearEvent_cons h⟩

theorem wearAdd_adds (v : Word) (s : State) (ha : s.accepts WEAR_OP v) (h8 : v.getLsbD 8 = true) (h9 : v.getLsbD 9 = false) :
    ∃ t, exec (.wearAdd v) s = .next t ∧
      (if s.wearSrc (bitsOf v 5 0) = 0 then
         (t.wear (bitsOf v 5 0)).toNat = min (2 ^ 48 - 1) ((s.wear (bitsOf v 5 0)).toNat + (s.reg WEAR_ADD_VAL).toNat)
       else t.bit WEAR_STATUS 0 = true ∧ t.island = s.island) := by
  have hrow : exec (.wearAdd v) s = .next ((s.noteHost WEAR_OP).wearOp v) := congrArg Host.Outcome.next (s.hostWrite_accepts _ ha)
  rw [State.wearOp_add h8 h9] at hrow
  refine ⟨_, hrow, ?_⟩
  change if (s.noteHost WEAR_OP).wearSrc (bitsOf v 5 0) = 0 then _ else _
  split
  · exact (State.wear_wearAdd (s.noteHost WEAR_OP) _ _).1
  · exact ⟨State.bit_raise_self _ _ (by decide), rfl⟩

theorem wearClr_clears (v : Word) (s : State) (ha : s.accepts WEAR_OP v) (h8 : v.getLsbD 8 = false) (h9 : v.getLsbD 9 = true) :
    ∃ t, exec (.wearClr v) s = .next t ∧
      (if s.bit (WEAR_CFG (bitsOf v 5 0)) 31 = true then t.bit WEAR_STATUS 0 = true ∧ t.island = s.island
       else t.wear (bitsOf v 5 0) = BitVec.ofNat 48 (s.wearArrived (bitsOf v 5 0))) := by
  have hrow : exec (.wearClr v) s = .next ((s.noteHost WEAR_OP).wearOp v) := congrArg Host.Outcome.next (s.hostWrite_accepts _ ha)
  rw [State.wearOp_clr h8 h9] at hrow
  refine ⟨_, hrow, ?_⟩
  change if (s.noteHost WEAR_OP).bit (WEAR_CFG (bitsOf v 5 0)) 31 = true then _ else _
  split
  · exact ⟨State.bit_raise_self _ _ (by decide), rfl⟩
  · exact Table.get_set_self _ _ _ _

theorem wearCapture_shows (s : State) (ht : s.takes = [.wear]) :
    s.runTakes.pair WSNAP_CAL_LO WSNAP_CAL_HI = s.island.calendar ∧ s.runTakes.takes = [] ∧
      s.runTakes.fld WEAR_SNAP_SEQ 15 0 = (s.fld WEAR_SNAP_SEQ 15 0 + 1) % 65536 ∧
      ∀ w : Nat, w < 64 → s.runTakes.pair (WSNAP_LO w) (WSNAP_HI w) = (s.wear w).zeroExtend 64 := by
  rw [State.runTakes_wear ht]
  exact State.takeWear_shows { s with takes := [] }

theorem mirrorDue_begins (s : State) (hs : s.serves) (hbusy : s.island.mirrorBusy = none)
    (hdue : s.mirrorPeriod * 32768 ≤ (s.island.calendar - s.island.lastMirror).toNat) :
    ∃ t, exec .mirrorDue s = .next t ∧ t.island.mirrorBusy = some s.mirrorRecord ∧ t.island.lastMirror = s.island.calendar ∧
      t.bit MIR_STATUS 31 = true := by
  have hphase : s.power.phase ≠ .hibernate := by rw [hs.1]; decide
  exact ⟨_, congrArg Host.Outcome.next ((State.mirrorElapsed_due hphase hdue).trans (State.beginMirror_free hbusy hs.1)), rfl, rfl,
    s.bit_setBit_self MIR_STATUS 31 true (by decide)⟩

theorem mirrorDue_waits (s : State) (hphase : s.power.phase = .nap ∨ s.power.phase = .soft)
    (hdue : s.mirrorPeriod * 32768 ≤ (s.island.calendar - s.island.lastMirror).toNat) :
    ∃ t, exec .mirrorDue s = .next t ∧ t.island.mirrorDue = true ∧ t.island.mirrorBusy = s.island.mirrorBusy := by
  have hpowered : s.power.phase ≠ .hibernate := by
    rcases hphase with h | h <;> rw [h] <;> decide
  exact ⟨_, congrArg Host.Outcome.next ((State.mirrorElapsed_due hpowered hdue).trans (State.beginMirror_stopped hphase)), rfl, rfl⟩

theorem mirNow_begins (v : Word) (s : State) (ha : s.accepts MIR_CTRL v) (hv : v.getLsbD 0 = true) (hbusy : s.island.mirrorBusy = none) :
    ∃ t, exec (.mirNow v) s = .next t ∧ t.island.mirrorBusy = some s.mirrorRecord ∧ t.bit MIR_STATUS 31 = true :=
  ⟨_, congrArg Host.Outcome.next ((s.hostWrite_accepts _ ha).trans ((if_pos hv).trans
    (State.beginMirror_free (s := s.noteHost MIR_CTRL) hbusy ha.1.1))), rfl, State.bit_setBit_self _ MIR_STATUS 31 true (by decide)⟩

theorem mirrorComplete_ends (s : State) (r : MirrorRec) (hbusy : s.island.mirrorBusy = some r) (hdue : s.island.mirrorDue = false) :
    ∃ t u, exec (.mirrorComplete true) s = .next t ∧ exec (.mirrorComplete false) s = .next u ∧
      t.island.mirrorBusy = none ∧ u.island.mirrorBusy = none ∧ t.nvm.mirror = some r ∧ t.reg MIR_EPOCH = s.reg MIR_EPOCH + 1 ∧
      t.bit MIR_STATUS 31 = false ∧ u.nvm = s.nvm ∧ u.reg MIR_FAIL_CNT = satInc (s.reg MIR_FAIL_CNT) := by
  obtain ⟨hok, hfail⟩ := State.mirrorComplete_busy hbusy
  obtain ⟨hnone, hwait, hnvm, hbit, hepoch, hcnt⟩ := s.mirrorEnded_shows
  obtain ⟨hti, htn, hte, htb⟩ := s.mirrorEnded.mirrorStored_shows r
  obtain ⟨hui, hun, huc⟩ := s.mirrorEnded.mirrorFailed_shows
  rw [hdue] at hwait
  rw [State.mirrorPending_none ((congrArg Island.mirrorDue hti).trans hwait)] at hok
  rw [State.mirrorPending_none ((congrArg Island.mirrorDue hui).trans hwait)] at hfail
  exact ⟨_, _, congrArg Host.Outcome.next hok, congrArg Host.Outcome.next hfail, (congrArg Island.mirrorBusy hti).trans hnone,
    (congrArg Island.mirrorBusy hui).trans hnone, htn, hte.trans (congrArg (· + 1) hepoch), htb.trans hbit, hun.trans hnvm,
    huc.trans (congrArg satInc hcnt)⟩

theorem trimTake_takes (p : Fin 256) (s : State) (h : s.padBusy p = false) :
    ∃ t, exec (.trimTakeEffect p) s = .next t ∧
      (t.pin p).trimOutDue = (s.pin p).trimOutDue.filter (fun e => e.1 == s.mt) ∧
      (t.pin p).trimInDue = (s.pin p).trimInDue.filter (fun e => e.1 == s.mt) ∧
      (∀ q, q ≠ p.val → t.pin q = s.pin q) ∧ t.regs = s.regs := by
  have hfree : ¬ s.padBusy p = true := by rw [h]; exact Bool.false_ne_true
  refine ⟨_, congrArg Host.Outcome.next (if_neg hfree), ?_, ?_, fun q hq => s.pin_setPin_ne _ hq, rfl⟩
  · exact congrArg PinState.trimOutDue (s.pin_setPin_self _ _)
  · exact congrArg PinState.trimInDue (s.pin_setPin_self _ _)

/-- Settles O56: each row of the island by its equation. -/
theorem islandCountsAndMirrors : Obligations.IslandCountsAndMirrors := by
  unfold Obligations.IslandCountsAndMirrors
  refine ⟨fun s h => ⟨_, rfl, State.lfclkLoss_shows h⟩, fun s => rfl, fun s => ⟨_, rfl, s.vbatPor_shows⟩, islandRestore_restores, ?_,
    calendarStep_steps, calSet_requests, fun s hs => congrArg Host.Outcome.next (s.hostRead_serves _ hs), wearEvent_counts, wearAdd_adds,
    wearClr_clears, fun w s hs => congrArg Host.Outcome.next (s.hostRead_serves _ hs),
    fun v s ha hv => congrArg Host.Outcome.next ((s.hostWrite_accepts _ ha).trans (if_pos hv)), wearCapture_shows, mirrorDue_begins,
    mirrorDue_waits, mirNow_begins, mirrorComplete_ends, trimTake_takes, fun p s h => congrArg Host.Outcome.next (if_pos h), ?_⟩
  · exact fun s h => congrArg Host.Outcome.next (if_pos (by rw [h]; rfl))
  · exact fun x s hs => congrArg Host.Outcome.next (if_pos (by rw [State.mainRuns, hs.1]; rfl))

end Sys2Proof.Proofs
end

section
/-!
PROOFS. The responses of Ponar: a request of the ring transport runs its command, whose response is held while the response ring takes
nothing (R308, R309).
-/

namespace Sys2Proof.Machine

open Reg

/-- The ring transport is in use, and its response ring takes nothing: a response over it is held. -/
structure State.HoldsAnswers (s : State) : Prop where
  run : s.power.phase = .run
  on : s.bit PONAR_CFG 0 = true
  shut : s.ponarRingOk s.rspRing = false

/-- A register that tells whether the ring transport answers. -/
def ringTransportReg (a : Nat) : Prop := a = PONAR_CFG ∨ ∃ r < 64, a = RING_CFG r

theorem State.rspRing_lt (s : State) : s.rspRing < 64 := Nat.mod_lt _ (by decide)

theorem State.HoldsAnswers.of_eq {s t : State} (h : s.HoldsAnswers) (hp : t.power.phase = s.power.phase)
    (hr : ∀ a, ringTransportReg a → t.reg a = s.reg a) : t.HoldsAnswers := by
  have hcfg : t.reg PONAR_CFG = s.reg PONAR_CFG := hr _ (.inl rfl)
  have hrsp : t.rspRing = s.rspRing := by rw [State.rspRing, State.fld, hcfg]; rfl
  have hring : t.reg (RING_CFG s.rspRing) = s.reg (RING_CFG s.rspRing) := hr _ (.inr ⟨_, s.rspRing_lt, rfl⟩)
  have hok : t.ponarRingOk s.rspRing = s.ponarRingOk s.rspRing := by
    simp only [State.ponarRingOk, State.ringEn, State.ringProd, State.ringCons, State.bit, State.fld, hring]
  exact ⟨hp.trans h.run, (congrArg (bitOf · 0) hcfg).trans h.on, by rw [hrsp, hok, h.shut]⟩

theorem State.servesRequest.holdsAnswers {s : State} {m : Msg} {ty : Nat} (h : s.servesRequest m ty) : s.HoldsAnswers := by
  obtain ⟨-, -, -, hrun, -, hon, hshut⟩ := h
  exact ⟨hrun, hon, hshut⟩

theorem State.servesRequest.via {s : State} {m : Msg} {ty : Nat} (h : s.servesRequest m ty) : m.via = .ring := h.2.1

/-- The state in which a command runs: the payload words that its request may lack are drawn from the free stream. -/
def State.served (s : State) : State := { s with free := s.free + 512 }

/-- A command runs on the request in service. -/
theorem State.ponarDo_serves {s : State} {m : Msg} {ty : Nat} (h : s.servesRequest m ty) {ok : Word → Bool}
    (hok : ok (s.payloadWord m 0) = true) (f : Msg → (Nat → Word) → State → State) :
    s.ponarDo ty ok f = f m (s.payloadWord m) s.served := by
  obtain ⟨hserving, -, htype, hrun, hgate, -, -⟩ := h
  have hmain : s.mainRuns = true := by rw [State.mainRuns, hrun]; rfl
  rw [State.ponarDo, hserving]
  dsimp only
  rw [hmain, htype, hok, hgate]
  exact if_pos (by rw [beq_self_eq_true]; rfl)

theorem State.servesRequest.served_holdsAnswers {s : State} {m : Msg} {ty : Nat} (h : s.servesRequest m ty) : s.served.HoldsAnswers :=
  h.holdsAnswers.of_eq rfl fun _ _ => rfl

/-- A word that the request carries. -/
theorem State.payloadWord_eq (s : State) {m : Msg} {i : Nat} {w : Word} (h : m.payload[i]? = some w) : s.payloadWord m i = w := by
  rw [State.payloadWord, List.getD_eq_getElem?_getD, h]
  rfl

/-- `t` is `u` with the response of STATUS `status` and payload `ws` held, and the engine free. -/
structure State.Answers (u t : State) (status : Nat) (ws : List Word) : Prop where
  holds : t.holdsAnswer status ws
  kept : { t with hg := u.hg, free := u.free } = u
  hg : t.hg = { u.hg with serving := none, waiting := none, held := t.hg.held }

namespace State.Answers

variable {u t : State} {status : Nat} {ws : List Word}

theorem regs (h : u.Answers t status ws) : t.regs = u.regs := (congrArg State.regs h.kept :)

theorem reg (h : u.Answers t status ws) (a : Nat) : t.reg a = u.reg a := by rw [State.reg, h.regs]; rfl

theorem bit (h : u.Answers t status ws) (a i : Nat) : t.bit a i = u.bit a i := congrArg (bitOf · i) (h.reg a)

theorem fld (h : u.Answers t status ws) (a hi lo : Nat) : t.fld a hi lo = u.fld a hi lo := congrArg (bitsOf · hi lo) (h.reg a)

theorem serving (h : u.Answers t status ws) : t.hg.serving = none := h.holds.1

theorem nvmOps (h : u.Answers t status ws) : t.hg.nvmOps = u.hg.nvmOps := by rw [h.hg]

theorem swap (h : u.Answers t status ws) : t.swap = u.swap := (congrArg State.swap h.kept :)

end State.Answers

/-- A response over the ring transport is held. -/
theorem State.deliverResponse_holds {v : State} (hv : v.HoldsAnswers) (l : List Word) :
    v.deliverResponse .ring l = { v with hg := { v.hg with held := some (entriesOf l) } } := by
  have hcan : v.respCan (entriesOf l).length = false := by rw [State.respCan, hv.shut]; rfl
  have hwait : (v.mainRuns && v.respCan (entriesOf l).length && !v.hg.offered) = false := by rw [hcan, Bool.and_false]; rfl
  rw [State.deliverResponse, hv.on]
  exact if_neg (Bool.eq_false_iff.1 hwait)

theorem State.reply_answers {u : State} (hu : u.HoldsAnswers) {m : Msg} (hm : m.via = .ring) (key : Option (BitVec 128)) {status : Nat}
    {ws : List Word} (hst : status < 256) (hlen : ws.length < 0x4000) : u.Answers (u.reply m key status ws) status ws := by
  have hfreed : ({ u with hg := { u.hg with serving := none, waiting := none } }.useFree).HoldsAnswers := hu.of_eq rfl fun _ _ => rfl
  have hmain : ({ u with hg := { u.hg with serving := none, waiting := none } }.useFree).mainRuns = true := by
    rw [State.mainRuns, hfreed.run]; rfl
  unfold State.reply
  dsimp only
  rw [if_pos hmain, hm, State.deliverResponse_holds hfreed]
  refine ⟨⟨rfl, _, rfl, ?_, ?_, ?_⟩, rfl, rfl⟩
  · rw [List.append_assoc, List.cons_append, List.getD_cons_zero, bitsOf_setBits_self _ _ _ _ (by decide)]
    exact Nat.mod_eq_of_lt hst
  · rw [List.append_assoc, List.cons_append, List.getD_cons_succ, List.cons_append, List.getD_cons_zero,
      bitsOf_setBits_self _ _ _ _ (by decide)]
    exact Nat.mod_eq_of_lt (by norm_num; omega)
  · rw [List.append_assoc]
    exact List.take_left

theorem State.answer_answers {u : State} (hu : u.HoldsAnswers) {m : Msg} (hm : m.via = .ring) {status : Nat} {ws : List Word}
    (hst : status < 256) (hlen : ws.length < 0x4000) : u.Answers (u.answer m status ws) status ws :=
  State.reply_answers hu hm _ hst hlen

/-- A response whose first word is open. -/
theorem State.answerFree_answers {u : State} (hu : u.HoldsAnswers) {m : Msg} (hm : m.via = .ring) {status : Nat} {ws : List Word}
    (hst : status < 256) (hlen : ws.length < 0x3000) : ∃ x, u.Answers (u.answerFree m status ws) status (x :: ws) := by
  obtain ⟨hholds, hkept, hhg⟩ := State.answer_answers (u := u.useFree) (m := m) (status := status)
    (ws := u.freeValue.truncate 32 :: ws) (hu.of_eq rfl fun _ _ => rfl) hm hst (by rw [List.length_cons]; omega)
  exact ⟨_, hholds, congrArg (fun v : State => { v with free := u.free }) hkept, hhg⟩

end Sys2Proof.Machine
end

section
/-!
PROOFS. Ponar messages (R309, R310, R332): the command ring, datagrams, and the response that waits for its ring.
-/

namespace Sys2Proof.Machine

open Reg

/-! ### The entries of the command ring -/

/-- `t` has the read pointers of the rings and the arrival of the ring transport as `s` has them. -/
structure LeavesEntries (s t : State) : Prop where
  rd : ∀ r < 64, t.reg (RING_RD r) = s.reg (RING_RD r)
  since : t.hg.ringSince = s.hg.ringSince

namespace LeavesEntries

variable {r s t : State}

theorem refl (s : State) : LeavesEntries s s := ⟨fun _ _ => rfl, rfl⟩

theorem trans (h : LeavesEntries r s) (h' : LeavesEntries s t) : LeavesEntries r t :=
  ⟨fun a ha => (h'.rd a ha).trans (h.rd a ha), h'.since.trans h.since⟩

/-- A register of the headgate. -/
theorem setReg (s : State) {a : Nat} (v : Word) (ha : a < 0x40000) : LeavesEntries s (s.setReg a v) :=
  ⟨fun r _ => s.reg_setReg_ne v (by unfold RING_RD; omega), rfl⟩

/-- No register changes, and the arrival is kept. -/
theorem of_regs (hr : t.regs = s.regs) (hg : t.hg.ringSince = s.hg.ringSince) : LeavesEntries s t :=
  ⟨fun a _ => by rw [State.reg, hr]; rfl, hg⟩

theorem ofKeepsSystem (h : KeepsSystem s t) : LeavesEntries s t :=
  ⟨fun r hr => h.regs _ (.inl (by unfold RING_RD; omega)), congrArg Headgate.ringSince h.hg⟩

end LeavesEntries

theorem State.responseGone_leavesEntries (s : State) (b : Bool) : LeavesEntries s (s.responseGone b) := by
  unfold State.responseGone
  split
  · exact .of_regs rfl rfl
  · exact .refl s

theorem State.respAdmit_leavesEntries (s : State) : LeavesEntries s s.respAdmit := by
  unfold State.respAdmit
  split
  · exact .refl s
  · split
    · exact .of_regs rfl rfl
    · exact .refl s

/-- A response over the ring transport changes no register. -/
theorem State.reply_leavesEntries (s : State) {m : Msg} (hm : m.via = .ring) (key : Option (BitVec 128)) (status : Nat) (ws : List Word) :
    LeavesEntries s (s.reply m key status ws) := by
  have hdeliver (u : State) (l : List Word) : LeavesEntries u (u.deliverResponse .ring l) := by
    unfold State.deliverResponse
    dsimp only
    split
    · exact .trans (.of_regs (by rfl) (by rfl)) (State.respAdmit_leavesEntries _)
    · exact u.responseGone_leavesEntries true
  unfold State.reply
  dsimp only
  rw [hm]
  split
  · exact .trans (.of_regs (by rfl) (by rfl)) (hdeliver _ _)
  · exact .of_regs rfl rfl

/-- A bit of HG_EVENT. -/
theorem State.hgEvent_leavesEntries (s : State) (b : Nat) : LeavesEntries s (s.hgEvent b) :=
  (LeavesEntries.setReg s _ (by decide)).trans (.of_regs rfl rfl)

theorem State.authFail_leavesEntries (s : State) {a : Nat} (ha : a < 0x40000) : LeavesEntries s (s.authFail a) := by
  have hcount : LeavesEntries s (s.satCount a) := (LeavesEntries.setReg s _ ha).trans (.of_regs rfl rfl)
  exact hcount.trans (State.hgEvent_leavesEntries _ 2)

theorem State.kick_leavesEntries (s : State) : LeavesEntries s s.kick := by
  have hkicked : LeavesEntries s { s.setFld WDOG_STATUS 1 0 0 with hg := { s.hg with kick := s.mt, expired := none } } :=
    (LeavesEntries.setReg s _ (by decide)).trans (.of_regs rfl rfl)
  unfold State.kick
  dsimp only
  split
  · exact hkicked.trans (.ofKeepsSystem (State.sourceOff_keepsSystem _ 32))
  · exact hkicked

theorem State.permCheck_leavesEntries (s : State) {m : Msg} (hm : m.via = .ring) : LeavesEntries s (s.permCheck m) := by
  unfold State.permCheck
  dsimp only
  split
  · exact .of_regs rfl rfl
  · exact .trans (.of_regs (by rfl) (by rfl)) (State.reply_leavesEntries _ hm _ _ _)

theorem State.criticalCheck_leavesEntries (s : State) {m : Msg} (hm : m.via = .ring) : LeavesEntries s (s.criticalCheck m) := by
  have hfail {a : Nat} (ha : a < 0x40000) (key : Option (BitVec 128)) (st : Nat) : LeavesEntries s ((s.authFail a).reply m key st []) :=
    (s.authFail_leavesEntries ha).trans (State.reply_leavesEntries _ hm _ _ _)
  unfold State.criticalCheck
  dsimp only
  split
  · exact hfail (by decide) _ _
  split
  · exact hfail (by decide) _ _
  split
  · exact hfail (by decide) _ _
  split
  · exact s.reply_leavesEntries hm _ _ _
  split
  · exact s.permCheck_leavesEntries hm
  · exact .of_regs rfl rfl

/-- What checks a message of the ring transport takes no entry. -/
theorem State.ponarBegin_leavesEntries (s : State) {m : Msg} (hm : m.via = .ring) (padOk : Bool) : LeavesEntries s (s.ponarBegin m padOk) := by
  have hpassed : LeavesEntries s (s.sessionPassed m) := by
    unfold State.sessionPassed
    rw [hm]
    dsimp only
    split
    · exact s.kick_leavesEntries
    · exact .refl s
  have hreply (u : State) (st : Nat) (h : LeavesEntries s u) : LeavesEntries s (u.reply m none st []) :=
    h.trans (u.reply_leavesEntries hm none st [])
  unfold State.ponarBegin
  dsimp only
  split
  · refine hreply _ _ ?_
    split
    · exact .of_regs rfl rfl
    · exact .refl s
  split
  · exact hreply _ _ hpassed
  split
  · exact hreply _ _ hpassed
  split
  · exact hpassed.trans (State.criticalCheck_leavesEntries _ hm)
  split
  · exact hreply _ _ hpassed
  · exact hpassed.trans (.of_regs rfl rfl)

/-- The take of an entry of a ring, sound or not: RD passes it, and the ring transport keeps its configuration. -/
theorem State.ringTake_shows (s : State) {r : Nat} (hr : r < 64) :
    (s.ringTake r).2.reg (RING_RD r) = s.reg (RING_RD r) + 1 ∧ (s.ringTake r).2.reg PONAR_CFG = s.reg PONAR_CFG := by
  obtain ⟨hrd, -, -, hother⟩ := s.ringRetire_shows r 1
  have hcfg : (s.ringRetire r 1).reg PONAR_CFG = s.reg PONAR_CFG :=
    hother _ (by unfold PONAR_CFG RING_RD; omega) (by unfold PONAR_CFG RING_FILL; omega) (by unfold PONAR_CFG RING_CREDIT; omega)
  have hevent (u : State) (sel b src c a : Nat) : (u.deliverIf sel b src c).reg a = u.reg a := by unfold State.deliverIf; split <;> rfl
  have hspilled (u : State) {a : Nat} (ha : a ≠ SPILL_MAP (r / 32)) : (u.ringSpilled r).reg a = u.reg a :=
    (hevent _ _ _ _ _ a).trans (u.reg_setReg_ne _ ha)
  have hue (u : State) {a : Nat} (ha : a ≠ GSTAT) : u.setResvUe.reg a = u.reg a := by
    unfold State.setResvUe
    split
    · rfl
    · exact u.reg_setReg_ne _ ha
  unfold State.ringTake
  dsimp only
  split
  · rw [hue _ (by unfold GSTAT RING_RD; omega), hspilled _ (by unfold RING_RD SPILL_MAP; omega), State.reg_setRing, hue _ (by decide),
      hspilled _ (by unfold PONAR_CFG SPILL_MAP; omega), State.reg_setRing]
    exact ⟨hrd, hcfg⟩
  · rw [State.reg_setRing, State.reg_setRing]
    exact ⟨hrd, hcfg⟩

theorem State.cmdRing_lt (s : State) : s.cmdRing < 64 := Nat.mod_lt _ (by decide)

/-- `n` entries are taken. -/
theorem State.takeEntries_rd (n : Nat) (s : State) :
    (s.takeEntries n).2.2.reg (RING_RD s.cmdRing) = s.reg (RING_RD s.cmdRing) + BitVec.ofNat 32 n := by
  induction n generalizing s with
  | zero => exact (BitVec.add_zero _).symm
  | succ n ih =>
    obtain ⟨hrd, hcfg⟩ := s.ringTake_shows s.cmdRing_lt
    have hring : (s.ringTake s.cmdRing).2.cmdRing = s.cmdRing := by rw [State.cmdRing, State.fld, hcfg]; rfl
    have hstep : (s.takeEntries (n + 1)).2.2 = ((s.ringTake s.cmdRing).2.takeEntries n).2.2 := by
      rw [State.takeEntries]
      split
      · next h => rw [h]
      · next h => rw [h]
    have hrest := ih (s.ringTake s.cmdRing).2
    rw [hring, hrd] at hrest
    rw [hstep, hrest, Nat.add_comm n 1, BitVec.ofNat_add, ← BitVec.add_assoc]
    rfl

/-- The command ring, from which a free engine takes its whole message. -/
theorem State.ponarRing_takes {s : State} (hfree : s.ponarFree = true) (hwhole : s.cmdWhole = true) (hqueue : s.hg.queue = []) :
    s.ponarRing.reg (RING_RD s.cmdRing) = s.reg (RING_RD s.cmdRing) + BitVec.ofNat 32 s.cmdNeed ∧ s.ponarRing.hg.ringSince = none := by
  have hmain : s.mainRuns = true := by
    rw [State.ponarFree, Bool.and_assoc, Bool.and_assoc, Bool.and_assoc, Bool.and_eq_true] at hfree
    exact hfree.1
  have hfirst : s.noteWhole.queueFirst = none := by
    have h : s.noteWhole.hg.queue = [] := hqueue
    rw [State.queueFirst, h]
  have hgo : (s.noteWhole.ponarFree && s.noteWhole.cmdWhole && s.noteWhole.queueFirst.isNone) = true := by
    have h : (s.noteWhole.ponarFree && s.noteWhole.cmdWhole) = (s.ponarFree && s.cmdWhole) := rfl
    rw [h, hfirst, hfree, hwhole]
    rfl
  have htaken := s.noteWhole.takeEntries_rd s.noteWhole.cmdNeed
  have hback {u t : State} (h : LeavesEntries u t) (hrd : u.reg (RING_RD s.cmdRing) = s.reg (RING_RD s.cmdRing) + BitVec.ofNat 32 s.cmdNeed)
      (hs : u.hg.ringSince = none) :
      t.reg (RING_RD s.cmdRing) = s.reg (RING_RD s.cmdRing) + BitVec.ofNat 32 s.cmdNeed ∧ t.hg.ringSince = none :=
    ⟨(h.rd _ s.cmdRing_lt).trans hrd, h.since.trans hs⟩
  unfold State.ponarRing
  dsimp only
  rw [if_pos hmain, if_pos hgo]
  split
  · exact hback (State.reply_leavesEntries _ (m := { parseMsg .ring _ _ with h0 := _, h1 := 0 }) rfl _ _ _) htaken rfl
  split
  · exact hback (State.reply_leavesEntries _ (m := parseMsg .ring _ _) rfl _ _ _) htaken rfl
  · exact hback (State.ponarBegin_leavesEntries _ (m := parseMsg .ring _ _) rfl _) htaken rfl

/-! ### Datagrams (R327, R328, R332) -/

/-- A datagram that the port's frame brings to the service at its UDP port. -/
theorem State.receive_sound {s : State} {p : Nat} {f : RxFrame} (hup : s.portUp p = true) (hf : f.sound) (hip : f.plainIp = true) (ip : Bool)
    (g : State → State) : s.receive p f ip g = g s := by
  obtain ⟨hfcs, hlen, htags, hpause⟩ := hf
  have hgood : ¬ (!f.fcsOk || decide (1522 < f.length.toNat) || decide (1 < f.tags.toNat)) = true := by simp [hfcs, hlen, htags]
  have hplain : ¬ (ip && !f.plainIp) = true := by rw [hip]; simp
  rw [State.receive, if_neg (by rw [hup]; decide), if_neg hgood, if_neg (by rw [hpause]; decide), if_neg hplain]

theorem State.ponarUdp_unserved {s : State} {p : Nat} {f : RxFrame} (hup : s.portUp p = true) (hf : f.brings (s.fld (UDP_PORTS p) 15 0))
    (hoff : s.bit (PORT_CTRL p) 5 = false) (ip : Word) (udp : BitVec 16) (bytes : List Byte) :
    s.ponarUdp p f ip udp bytes = s.satCount (RX_DISCARD p) := by
  obtain ⟨hsound, hip, hport⟩ := hf
  rw [State.ponarUdp, State.receiveUdp, State.receive_sound hup hsound hip]
  dsimp only
  rw [if_pos hport, hoff]
  exact (ite_self _)

theorem State.servesUdp_ponar {s : State} {p : Nat} {u : BitVec 16} (hon : s.bit (PORT_CTRL p) 5 = true)
    (hu : u.toNat = s.fld (UDP_PORTS p) 15 0) : s.servesUdp p u = true := by
  rw [State.servesUdp, hon, hu, beq_self_eq_true]
  rfl

/-- A datagram for Ponar, of a port that serves it. -/
theorem State.ponarUdp_served {s : State} {p : Nat} {f : RxFrame} (hup : s.portUp p = true) (hf : f.brings (s.fld (UDP_PORTS p) 15 0))
    (hon : s.bit (PORT_CTRL p) 5 = true) (ip : Word) (udp : BitVec 16) (bytes : List Byte) :
    s.ponarUdp p f ip udp bytes =
      let m := parseMsg (.udp p ip udp) bytes s.mt
      if bytes.length < 16 ∨ m.magic ≠ 0x50 ∨ bytes.length ≠ 16 + m.len + (if m.crit then 8 else 0) then s.satCount (PONAR_DISCARD p)
      else if (s.findPeer p ip udp).isNone ∧ (s.newPeer p ip udp 30).isNone then s.satCount (PEER_FULL_CNT p)
      else { s with hg := { s.hg with queue := s.hg.queue ++ [m] } }.noteWhole.engineNext := by
  obtain ⟨hsound, hip, hport⟩ := hf
  have hserves : ¬ (!s.servesUdp p f.udpPort) = true := by rw [State.servesUdp_ponar hon hport]; decide
  rw [State.ponarUdp, State.receiveUdp, State.receive_sound hup hsound hip, if_neg hserves, if_pos hport]
  dsimp only
  rw [hon]
  exact if_neg (by decide)

/-- A busy engine goes on to no message. -/
theorem State.engineNext_busy {s : State} (h : s.hg.serving ≠ none) : s.engineNext = s := by
  have hbusy : ¬ s.ponarFree = true := by
    obtain ⟨m, hm⟩ := Option.ne_none_iff_exists'.1 h
    rw [State.ponarFree, hm]
    simp
  rw [State.engineNext, if_neg hbusy]

/-! ### The response ring (R309) -/

/-- The words of a response, which stand in the reservoir from entry `at_` of ring `r` on. -/
def State.placeResponse (s : State) (r : Nat) (at_ : Word) (l : List (BitVec 128 × Nat)) : State :=
  l.foldl (fun s e => s.resWriteWords (s.entryAt r (at_ + BitVec.ofNat 32 e.2)) e.1.toNat 2) s

theorem State.placeResponse_shows (s : State) (r : Nat) (at_ : Word) (l : List (BitVec 128 × Nat)) :
    (s.placeResponse r at_ l).regs = s.regs ∧ (s.placeResponse r at_ l).rings = s.rings ∧ (s.placeResponse r at_ l).hg = s.hg := by
  induction l generalizing s with
  | nil => exact ⟨rfl, rfl, rfl⟩
  | cons e l ih => exact ih (s.resWriteWords (s.entryAt r (at_ + BitVec.ofNat 32 e.2)) e.1.toNat 2)

/-- The state once the response is no longer held. -/
def State.responseTaken (s : State) : State := { s with hg := { s.hg with offered := false, held := none } }

/-- An admission of entries leaves the headgate as it is. -/
theorem State.ringAdmit_hg (s : State) (r : Nat) (es : List InFlight) : (s.ringAdmit r es).hg = s.hg := by
  have hopen (u : State) : (u.ringOpen r).hg = u.hg := by
    obtain ⟨rs, h⟩ := u.ringOpen_shape r
    rw [h]
  have hpass (u : State) : (u.ringPass r).hg = u.hg := hopen u
  rw [State.ringAdmit_eq, hpass]
  exact hopen s

/-- The offer of a response that its ring takes: the entries stand in the ring, and none is held. -/
theorem State.respServe_takes {s : State} {r : Nat} {es : List (BitVec 128)} (hheld : s.hg.held = some es) (hr : s.rspRing = r)
    (hcan : s.respCan es.length = true) :
    s.respServe r es = ((s.responseTaken.placeResponse r (s.reg (RING_WR r) + BitVec.ofNat 32 (s.ring r).inflight.length) es.zipIdx).ringAdmit r
      (es.map (fun _ => .placed))).responseGone false := by
  have hok (u : State) (hu : u = { s with hg := { s.hg with offered := false } }) :
      (u.hg.held == some es && u.rspRing == r && u.respCan es.length) = true := by
    have hr' : u.rspRing = r := by rw [hu]; exact hr
    have hcan' : u.respCan es.length = true := by rw [hu]; exact hcan
    have hheld' : u.hg.held = some es := by rw [hu]; exact hheld
    rw [hheld', hr', hcan', beq_self_eq_true, beq_self_eq_true]
    rfl
  exact if_pos (hok _ rfl)

/-- A write of a register that has no bit cleared by 1. -/
theorem State.reg_plainWrite_rw (s : State) {a : Nat} (v : Word) {r : RegRow} (h : regRow a = some r) (hw : r.w1c = 0) :
    (s.plainWrite a v).reg a = mergeWord (s.reg a) v (rwMask a) := by
  have hnone : ~~~ (v &&& BitVec.ofNat 32 r.w1c &&& ~~~ s.keptBits a) = BitVec.allOnes 32 := by
    rw [hw, BitVec.and_zero, BitVec.zero_and, BitVec.not_zero]
  rw [s.plainWrite_eq_setReg v h, State.reg_setReg_self, rwMask, h, hnone]
  exact BitVec.and_allOnes

end Sys2Proof.Machine

namespace Sys2Proof.Proofs

open Sys2Proof.Machine Sys2Proof.Machine.Reg

/-- The configuration of the ring transport; EN = 0 discards the response that is held (R309). -/
theorem ponarCfgWrite_configures (v : Word) (s : State) (ha : s.accepts PONAR_CFG v) :
    ∃ t, exec (.ponarCfgWrite v) s = .next t ∧ t.reg PONAR_CFG = mergeWord (s.reg PONAR_CFG) v (rwMask PONAR_CFG) ∧
      (t.bit PONAR_CFG 0 = false → t.hg.held = none ∧ t.hg.ringSince = none) ∧ (t.bit PONAR_CFG 0 = true → t.hg = s.hg) := by
  refine ⟨_, congrArg Host.Outcome.next (s.hostWrite_accepts _ ha), ?_⟩
  have hrow : regRow PONAR_CFG = some ⟨0x30004, [], 0, 0x3F3F01, 0, 0, 0⟩ := by decide
  have hword := (s.noteHost PONAR_CFG).reg_plainWrite_rw v hrow rfl
  have hhg : ((s.noteHost PONAR_CFG).plainWrite PONAR_CFG v).hg = s.hg := by rw [State.plainWrite_eq_setReg _ v hrow]; rfl
  unfold State.ponarCfgWrite
  generalize (s.noteHost PONAR_CFG).plainWrite PONAR_CFG v = u at *
  dsimp only
  split
  · next hon => exact ⟨hword, fun h => absurd h (by rw [hon]; decide), fun _ => hhg⟩
  · next hoff => exact ⟨hword, fun _ => ⟨rfl, rfl⟩, fun h => absurd h hoff⟩

theorem ponarRingMessage_takes (s : State) (hc : s.clocked) (hfree : s.ponarFree = true) (hwhole : s.cmdWhole = true)
    (hqueue : s.hg.queue = []) :
    ∃ t, exec .ponarRingMessage s = .next t ∧
      t.reg (RING_RD s.cmdRing) = s.reg (RING_RD s.cmdRing) + BitVec.ofNat 32 s.cmdNeed ∧ t.hg.ringSince = none :=
  ⟨_, congrArg Host.Outcome.next (s.onTclk_clocked _ hc), State.ponarRing_takes hfree hwhole hqueue⟩

/-- A datagram of a port that serves no Ponar is discarded (R328). -/
theorem ponarUdpDatagram_unserved (p : Fin 2) (f : RxFrame) (ip : Word) (udp : BitVec 16) (bytes : List Byte) (s : State) (hc : s.clocked)
    (hup : s.portUp p = true) (hf : f.brings (s.fld (UDP_PORTS p) 15 0)) (hoff : s.bit (PORT_CTRL p) 5 = false) :
    exec (.ponarUdpDatagram ⟨p, f⟩ ip udp bytes) s = .next (s.satCount (RX_DISCARD p)) :=
  congrArg Host.Outcome.next ((s.onTclk_clocked _ hc).trans (State.ponarUdp_unserved hup hf hoff ip udp bytes))

/-- A datagram that is no Ponar message is discarded (R332). -/
theorem ponarUdpDatagram_short (p : Fin 2) (f : RxFrame) (ip : Word) (udp : BitVec 16) (bytes : List Byte) (s : State) (hc : s.clocked)
    (hup : s.portUp p = true) (hf : f.brings (s.fld (UDP_PORTS p) 15 0)) (hon : s.bit (PORT_CTRL p) 5 = true) (hlen : bytes.length < 16) :
    exec (.ponarUdpDatagram ⟨p, f⟩ ip udp bytes) s = .next (s.satCount (PONAR_DISCARD p)) :=
  congrArg Host.Outcome.next ((s.onTclk_clocked _ hc).trans ((State.ponarUdp_served hup hf hon ip udp bytes).trans (if_pos (.inl hlen))))

/-- A datagram joins the queue of a busy engine (R310, R332). -/
theorem ponarUdpDatagram_queues (p : Fin 2) (f : RxFrame) (ip : Word) (udp : BitVec 16) (bytes : List Byte) (s : State) (e : Nat)
    (hc : s.clocked) (hup : s.portUp p = true) (hf : f.brings (s.fld (UDP_PORTS p) 15 0)) (hon : s.bit (PORT_CTRL p) 5 = true)
    (hbusy : s.hg.serving ≠ none) (hpeer : s.findPeer p ip udp = some e) :
    let m := parseMsg (.udp p ip udp) bytes s.mt
    m.magic = 0x50 → 16 ≤ bytes.length → bytes.length = 16 + m.len + (if m.crit = true then 8 else 0) →
    ∃ t, exec (.ponarUdpDatagram ⟨p, f⟩ ip udp bytes) s = .next t ∧ t.hg.queue = s.hg.queue ++ [m] ∧ t.hg.serving = s.hg.serving := by
  intro m hmagic hlen hfit
  have hmessage : ¬ (bytes.length < 16 ∨ m.magic ≠ 0x50 ∨ bytes.length ≠ 16 + m.len + (if m.crit = true then 8 else 0)) := by
    rintro (h | h | h)
    · exact absurd hlen (Nat.not_le.2 h)
    · exact h hmagic
    · exact h hfit
  have hroom : ¬ ((s.findPeer p ip udp).isNone = true ∧ (s.newPeer p ip udp 30).isNone = true) := by rw [hpeer]; simp
  have hstays (u : State) (h : u.hg.serving = s.hg.serving) : u.engineNext = u := State.engineNext_busy (h ▸ hbusy)
  refine ⟨_, congrArg Host.Outcome.next ((s.onTclk_clocked _ hc).trans (((State.ponarUdp_served hup hf hon ip udp bytes).trans
    ((if_neg hmessage).trans (if_neg hroom))).trans (hstays _ rfl))), rfl, rfl⟩

/-- A held response is offered to its ring once that has the credit (R309). -/
theorem ponarResponseAdmit_offers (s : State) (es : List (BitVec 128)) (hc : s.clocked) (hrun : s.power.phase = .run)
    (hheld : s.hg.held = some es) (hcan : s.respCan es.length = true) (hoff : s.hg.offered = false) :
    exec .ponarResponseAdmit s = .next { s.ringGather s.rspRing rankHost (.ponar es) with hg := { s.hg with offered := true } } := by
  have hgo : (s.mainRuns && s.respCan es.length && !s.hg.offered) = true := by rw [State.mainRuns, hrun, hcan, hoff]; rfl
  have hadmit : s.respAdmit = { s.ringGather s.rspRing rankHost (.ponar es) with hg := { s.hg with offered := true } } := by
    rw [State.respAdmit, hheld]
    exact if_pos hgo
  exact congrArg Host.Outcome.next ((s.onTclk_clocked _ hc).trans hadmit)

/-- The response ring takes all entries of a response (R262, R309). -/
theorem serveOffer_response (s : State) (es : List (BitVec 128)) (hheld : s.hg.held = some es) (hcan : s.respCan es.length = true)
    (hnone : (s.ring s.rspRing).inflight = []) :
    (s.serveOffer s.rspRing (.ponar es)).hg.held = none ∧
      (s.serveOffer s.rspRing (.ponar es)).reg (RING_WR s.rspRing) = s.reg (RING_WR s.rspRing) + BitVec.ofNat 32 es.length := by
  have hgone (u : State) : (u.responseGone false).hg.held = u.hg.held ∧ (u.responseGone false).regs = u.regs := by
    unfold State.responseGone
    split <;> exact ⟨rfl, rfl⟩
  have hserve : s.serveOffer s.rspRing (.ponar es) = _ := State.respServe_takes hheld rfl hcan
  obtain ⟨hregs, hrings, hhg⟩ :=
    s.responseTaken.placeResponse_shows s.rspRing (s.reg (RING_WR s.rspRing) + BitVec.ofNat 32 (s.ring s.rspRing).inflight.length) es.zipIdx
  rw [hserve]
  generalize s.responseTaken.placeResponse _ _ _ = u at *
  have hring : (u.ring s.rspRing).inflight = [] := by rw [State.ring, hrings]; exact hnone
  obtain ⟨hwr, -⟩ := u.ringAdmit_shows s.rspRing (es.map fun _ => .placed)
  rw [hring, List.nil_append, List.map_const', placedCount_replicate] at hwr
  refine ⟨(hgone _).1.trans ?_, ?_⟩
  · rw [State.ringAdmit_hg, hhg]; rfl
  · rw [State.reg, (hgone _).2, List.map_const', ← State.reg, hwr, State.reg, hregs]
    rfl

/-- A response stays held while its ring lacks the credit (R309). -/
theorem ponarResponseAdmit_waits (s : State) (es : List (BitVec 128)) (hc : s.clocked) (hheld : s.hg.held = some es)
    (hcredit : s.ringCreditNow s.rspRing < es.length) : exec .ponarResponseAdmit s = .next s := by
  have hwait : ¬ (s.mainRuns && s.respCan es.length && !s.hg.offered) = true := by
    rw [State.respCan, decide_eq_false (Nat.not_le.2 hcredit)]
    simp
  have hadmit : s.respAdmit = s := by
    rw [State.respAdmit, hheld]
    exact if_neg hwait
  exact congrArg Host.Outcome.next ((s.onTclk_clocked _ hc).trans hadmit)

end Sys2Proof.Proofs
end

section
/-!
PROOFS. The commands of Ponar without a key (R311): HELLO, GET_COUNTER, REG_READ and REG_WRITE.
-/

namespace Sys2Proof.Machine

open Reg

/-! ### Pairs of address and value (R311, R324, R407) -/

/-- The engine has no pairs left. -/
def State.pairFree (s : State) : State := { s with hg := { s.hg with pairs := none } }

/-- The request's serving ends as its pairs begin to commit. -/
def State.pairHeld (s : State) : State := { s with hg := { s.hg with serving := none } }

/-- The account of a request of one pair before it commits. -/
def onePair (m : Msg) (direct : Bool) (t : Tick) : PairRun :=
  { msg := m, direct := direct, last := t, left := [], index := 0, applied := 0, refused := none }

theorem pairList_one {m : Msg} (h : m.len = 8) (w : Nat → Word) : pairList m w = [(w 0, w 1)] := by rw [pairList, h]; rfl

/-- The only pair of a request, which commits at once. -/
theorem State.pairsBegin_commits {s : State} {a : Word} (h : s.wroteNow a.toNat = false) (m : Msg) (direct : Bool) (v : Word) :
    s.pairsBegin m direct [(a, v)] =
      (s.pairHeld.pairWrite direct a.toNat v).2.answerPairs
        ((onePair m direct s.mt).took (s.pairHeld.pairWrite direct a.toNat v).1 s.mt) := by
  have hfree : ¬ s.pairHeld.wroteNow a.toNat = true := fun hw => absurd (hw.symm.trans h) (by decide)
  have hbegin : s.pairsBegin m direct [(a, v)] = s.pairHeld.pairsRun (onePair m direct s.mt) [(a, v)] := rfl
  rw [hbegin, State.pairsRun, if_neg hfree]
  dsimp only
  rw [if_pos (by rw [List.isEmpty_nil]; exact Bool.or_true _), State.pairsRun]
  rfl

/-- The only pair of a request waits for a register that has taken its write of the tick. -/
theorem State.pairsBegin_waits {s : State} {a : Word} (h : s.wroteNow a.toNat = true) (m : Msg) (direct : Bool) (v : Word) :
    s.pairsBegin m direct [(a, v)] =
      { s.pairHeld with hg := { s.pairHeld.hg with pairs := some { onePair m direct s.mt with left := [(a, v)] } } } := by
  have hbegin : s.pairsBegin m direct [(a, v)] = s.pairHeld.pairsRun (onePair m direct s.mt) [(a, v)] := rfl
  rw [hbegin, State.pairsRun]
  exact if_pos h

/-- The response to pairs. -/
theorem State.answerPairs_answers {u : State} (hu : u.HoldsAnswers) {p : PairRun} (hm : p.msg.via = .ring) :
    ∃ x, u.pairFree.Answers (u.answerPairs p) 0x00
      [x, BitVec.ofNat 32 p.applied, match p.refused with | some i => BitVec.ofNat 32 i | none => 0xFFFFFFFF#32] :=
  State.answerFree_answers (u := u.pairFree) (hu.of_eq rfl fun _ _ => rfl) hm (by decide) (by simp)

/-- A write that SEAL refuses is counted and reported. -/
def State.lockNoted (s : State) (a : Nat) : State :=
  (((s.satCount LOCK_REFUSED_CNT).setReg LOCK_ADDR (BitVec.ofNat 32 a)).raise HG_EVENT 1).hostEvent 0

theorem State.reg_lockNoted_ne (s : State) (a : Nat) {b : Nat} (h1 : b ≠ LOCK_REFUSED_CNT) (h2 : b ≠ LOCK_ADDR) (h3 : b ≠ HG_EVENT) :
    (s.lockNoted a).reg b = s.reg b :=
  ((State.reg_setReg_ne _ _ h3).trans (State.reg_setReg_ne _ _ h2)).trans (s.reg_satCount_ne h1)

theorem State.lockNoted_shows (s : State) (a : Nat) :
    (s.lockNoted a).reg LOCK_REFUSED_CNT = satInc (s.reg LOCK_REFUSED_CNT) ∧ (s.lockNoted a).reg LOCK_ADDR = BitVec.ofNat 32 a ∧
      (s.lockNoted a).bit HG_EVENT 1 = true ∧ (s.lockNoted a).power = s.power ∧ (s.lockNoted a).hg = s.hg := by
  have hcount := s.reg_satCount_self LOCK_REFUSED_CNT
  generalize hu : s.satCount LOCK_REFUSED_CNT = u at hcount
  have hpower : u.power = s.power ∧ u.hg = s.hg := by rw [← hu]; exact ⟨rfl, rfl⟩
  have hevent (v : State) : (v.hostEvent 0).bit HG_EVENT 1 = v.bit HG_EVENT 1 := rfl
  rw [State.lockNoted, hu]
  refine ⟨?_, ?_, (hevent _).trans (State.bit_raise_self _ _ (by decide)), hpower⟩
  · exact ((State.reg_setReg_ne _ _ (by decide)).trans (State.reg_setReg_ne _ _ (by decide))).trans hcount
  · exact (State.reg_setReg_ne _ _ (by decide)).trans (State.reg_setReg_self _ _ _)

theorem State.lockRefused_eq (s : State) (a : Nat) (v : Word) :
    s.lockRefused a v = if a = KEY_LOAD_GO ∧ bitOf v 0 = true then (s.lockNoted a).setBit KEY_LOAD_CTRL 31 true else s.lockNoted a := rfl

/-- A write that SEAL refuses: the count, the address, and the event of the headgate (R319). -/
theorem State.lockRefused_shows (s : State) (a : Nat) (v : Word) :
    (s.lockRefused a v).reg LOCK_REFUSED_CNT = satInc (s.reg LOCK_REFUSED_CNT) ∧
      (s.lockRefused a v).reg LOCK_ADDR = BitVec.ofNat 32 a ∧ (s.lockRefused a v).bit HG_EVENT 1 = true ∧
      (s.lockRefused a v).power = s.power ∧ (s.lockRefused a v).hg = s.hg ∧
      ∀ b, b ≠ LOCK_REFUSED_CNT → b ≠ LOCK_ADDR → b ≠ HG_EVENT → b ≠ KEY_LOAD_CTRL → (s.lockRefused a v).reg b = s.reg b := by
  obtain ⟨hcount, haddr, hevent, hpower, hhg⟩ := s.lockNoted_shows a
  have hbeside {b : Nat} (h1 : b ≠ LOCK_REFUSED_CNT) (h2 : b ≠ LOCK_ADDR) (h3 : b ≠ HG_EVENT) := s.reg_lockNoted_ne a h1 h2 h3
  rw [s.lockRefused_eq]
  generalize s.lockNoted a = u at *
  have hkeep {b : Nat} (hb : b ≠ KEY_LOAD_CTRL) : (u.setBit KEY_LOAD_CTRL 31 true).reg b = u.reg b := u.reg_setReg_ne _ hb
  split
  · exact ⟨(hkeep (by decide)).trans hcount, (hkeep (by decide)).trans haddr, (congrArg (bitOf · 1) (hkeep (by decide))).trans hevent, hpower, hhg,
      fun b h1 h2 h3 h4 => (hkeep h4).trans (hbeside h1 h2 h3)⟩
  · exact ⟨hcount, haddr, hevent, hpower, hhg, fun b h1 h2 h3 _ => hbeside h1 h2 h3⟩

/-! ### Registers (R311) -/

/-- A word of retention SRAM. -/
def retentionWord (a : Nat) : Prop := 0xB8000 ≤ a ∧ a < 0xB9000 ∧ a % 4 = 0

theorem refusalFlag_retention {a : Nat} (h : retentionWord a) (hn : a ≠ WEAR_OP) (hc : a ≠ CALN_CAL_CTRL) : refusalFlag a = none := by
  obtain ⟨hlo, hhi, -⟩ := h
  have hblock : a / 0x10000 = 11 := by omega
  rw [refusalFlag, if_neg (by omega), hblock]
  exact (if_neg hn).trans (if_neg hc)

theorem State.busWrite_retention (s : State) {a : Nat} (h : retentionWord a) (v : Word) : s.busWrite a v = s.setReg a v := by
  obtain ⟨hlo, hhi, h4⟩ := h
  rw [State.busWrite, if_neg (by omega), if_pos ⟨hlo, hhi⟩]

theorem State.pairWrite_retention {s : State} {a : Nat} (h : retentionWord a) (v : Word) :
    s.pairWrite true a v = (true, (s.noteHost a).setReg a v) := by
  have hflag : refusalFlag a = none :=
    refusalFlag_retention h (by obtain ⟨hlo, -⟩ := h; unfold WEAR_OP; omega) (by obtain ⟨hlo, -⟩ := h; unfold CALN_CAL_CTRL; omega)
  have hseal : s.sealLocks a v = false := by
    have hblock : a / 0x10000 = 11 := by obtain ⟨hlo, hhi, -⟩ := h; omega
    have hlow : ¬ 0x1000000 ≤ a := by obtain ⟨hlo, hhi, -⟩ := h; omega
    rw [State.sealLocks, if_neg hlow, hblock]
    exact Bool.and_false _
  have hopen : ¬ (true && s.sealLocks a v) = true := by rw [hseal]; decide
  have hrefuses : s.refuses a v = false := by rw [State.refuses, hflag]
  rw [State.pairWrite, if_neg hopen]
  dsimp only
  rw [hrefuses, State.busWrite_retention _ h]
  rfl

theorem State.pairWrite_sealed {s : State} {a : Nat} {v : Word} (h : s.sealLocks a v = true) :
    s.pairWrite true a v = (false, s.lockRefused a v) :=
  if_pos (by rw [h]; rfl)

/-- A read of the step of the identification. -/
theorem State.readReg_ID_STEP (s : State) : s.readReg ID_STEP = ((s.seen ID_STEP).reg ID_STEP, s) := by
  have hview (u : State) : u.busView ID_STEP = u.reg ID_STEP := by
    have hrow : (regRow ID_STEP).isNone = false := by decide
    have hlow : u.lowView ID_STEP = u.reg ID_STEP := rfl
    have hwo : woMask ID_STEP = 0 := by decide
    rw [State.busView, u.viewWord_eq_none (by decide) (.inl (by decide))]
    dsimp only
    rw [hrow, if_neg Bool.false_ne_true, if_pos (by decide), hlow, hwo]
    exact BitVec.and_allOnes
  have hkeeps : s.rcClear ID_STEP = s := if_pos (by decide)
  have hread : s.busRead ID_STEP = ((s.seen ID_STEP).reg ID_STEP, s) := by
    rw [← hview, ← congrArg (Prod.mk ((s.seen ID_STEP).busView ID_STEP)) hkeeps]
    rfl
  rw [State.readReg, hread, State.touchChanged_self]

theorem State.reg_seen_served (s : State) (a : Nat) : (s.served.seen a).reg a = (s.seen a).reg a := by
  unfold State.seen State.cycleStart State.served
  dsimp only
  split
  · rfl
  · split <;> rfl

/-! ### Sessions (R311) -/

/-- The best of the versions offered, where the offer has one. -/
theorem bestVersion_offered {w : Word} (h : bitsOf w 2 0 ≠ 0) :
    bestVersion w = if w.getLsbD 2 = true then 3 else if w.getLsbD 1 = true then 2 else 1 := by
  have hone : w.getLsbD 2 = false → w.getLsbD 1 = false → w.getLsbD 0 = true := by
    intro h2 h1
    by_contra h0
    refine h (Nat.eq_of_testBit_eq fun i => ?_)
    rw [testBit_bitsOf, Nat.zero_testBit]
    match i with
    | 0 => simpa using h0
    | 1 => simpa using h1
    | 2 => simpa using h2
    | i + 3 => simp
  rw [bestVersion]
  split
  · rfl
  · next h2 =>
    split
    · rfl
    · next h1 => exact if_pos (hone (Bool.eq_false_iff.2 h2) (Bool.eq_false_iff.2 h1))

theorem bestVersion_none {w : Word} (h : bitsOf w 2 0 = 0) : bestVersion w = 0 := by
  have hbit (i : Nat) (hi : i < 3) : bitOf w i = false := by
    have htest := testBit_bitsOf w 2 0 i
    rw [h, Nat.zero_testBit, decide_eq_true (by omega), Bool.true_and, Nat.zero_add] at htest
    exact htest.symm
  rw [bestVersion, hbit 2 (by decide), hbit 1 (by decide), hbit 0 (by decide)]
  rfl

/-- The session of the ring transport is open at version `v`. -/
def State.sessionOpened (s : State) (v : Nat) : State := (s.hostEvent 1).setReg PONAR_SESSION (BitVec.ofNat 32 v)

theorem State.reg_sessionOpened (s : State) {v a : Nat} (h : a ≠ PONAR_SESSION) : (s.sessionOpened v).reg a = s.reg a :=
  State.reg_setReg_ne _ _ h

theorem ringTransportReg_ne_session {a : Nat} (h : ringTransportReg a) : a ≠ PONAR_SESSION := by
  rcases h with rfl | ⟨r, -, rfl⟩
  · decide
  · unfold RING_CFG PONAR_SESSION; omega

theorem State.hello_opens (s : State) {m : Msg} (hm : m.via = .ring) (w : Nat → Word) (h : bestVersion (w 0) ≠ 0) :
    s.hello m w = (s.sessionOpened (bestVersion (w 0))).answer m 0x00
      [BitVec.ofNat 32 (bestVersion (w 0)), s.reg ID_PART, s.reg ID_STEP, s.reg ID_UCODE, s.gstatView] := by
  have hview : (s.sessionOpened (bestVersion (w 0))).gstatView = s.gstatView := by
    rw [State.gstatView, State.reg_sessionOpened _ (by decide)]
    rfl
  unfold State.hello
  dsimp only
  rw [if_neg h, hm]
  unfold State.openSession
  dsimp only
  rw [if_pos rfl, ← s.reg_sessionOpened (v := bestVersion (w 0)) (a := ID_PART) (by decide),
    ← s.reg_sessionOpened (v := bestVersion (w 0)) (a := ID_STEP) (by decide),
    ← s.reg_sessionOpened (v := bestVersion (w 0)) (a := ID_UCODE) (by decide), ← hview]
  rfl

end Sys2Proof.Machine

namespace Sys2Proof.Proofs

open Sys2Proof.Machine Sys2Proof.Machine.Reg

/-- HELLO opens the session at the highest version offered. -/
theorem hello_opens (s : State) (m : Msg) (w : Word) (rest : List Word) (h : s.servesRequest m 0x01) (hw : m.payload = w :: rest)
    (hoffer : bitsOf w 2 0 ≠ 0) :
    let v := if w.getLsbD 2 = true then 3 else if w.getLsbD 1 = true then 2 else 1
    ∃ t, exec .hello s = .next t ∧ t.reg PONAR_SESSION = BitVec.ofNat 32 v ∧
      t.holdsAnswer 0x00 [BitVec.ofNat 32 v, s.reg ID_PART, s.reg ID_STEP, s.reg ID_UCODE, s.gstatView] := by
  intro v
  have hword : s.payloadWord m 0 = w := s.payloadWord_eq (by rw [hw]; rfl)
  have hv : bestVersion (s.payloadWord m 0) = v := by rw [hword]; exact bestVersion_offered hoffer
  have hne : v ≠ 0 := by
    intro h0
    dsimp only [v] at h0
    split_ifs at h0
  have hopened : (s.served.sessionOpened v).HoldsAnswers :=
    h.served_holdsAnswers.of_eq rfl fun a ha => State.reg_sessionOpened _ (ringTransportReg_ne_session ha)
  have hrun := s.served.hello_opens h.via (s.payloadWord m) (by rw [hv]; exact hne)
  rw [hv] at hrun
  have hanswer := State.answer_answers hopened h.via (status := 0x00)
    (ws := [BitVec.ofNat 32 v, s.served.reg ID_PART, s.served.reg ID_STEP, s.served.reg ID_UCODE, s.served.gstatView]) (by decide) (by simp)
  refine ⟨_, congrArg Host.Outcome.next ((State.ponarDo_serves h rfl _).trans hrun), (hanswer.reg _).trans ?_, hanswer.holds⟩
  exact State.reg_setReg_self _ _ _

/-- HELLO with no version that the device has. -/
theorem hello_refuses (s : State) (m : Msg) (w : Word) (rest : List Word) (h : s.servesRequest m 0x01) (hw : m.payload = w :: rest)
    (hoffer : bitsOf w 2 0 = 0) :
    ∃ t, exec .hello s = .next t ∧ t.reg PONAR_SESSION = s.reg PONAR_SESSION ∧ t.holdsAnswer 0x03 [] := by
  have hword : s.payloadWord m 0 = w := s.payloadWord_eq (by rw [hw]; rfl)
  have hrun : s.served.hello m (s.payloadWord m) = (s.served.hostEvent 1).answer m 0x03 [] := by
    have hnone : bestVersion (s.payloadWord m 0) = 0 := by rw [hword]; exact bestVersion_none hoffer
    exact if_pos hnone
  have hanswer := State.answer_answers (u := s.served.hostEvent 1) (h.served_holdsAnswers.of_eq rfl fun _ _ => rfl) h.via (status := 0x03)
    (ws := []) (by decide) (by decide)
  exact ⟨_, congrArg Host.Outcome.next ((State.ponarDo_serves h rfl _).trans hrun), hanswer.reg _, hanswer.holds⟩

/-- GET_COUNTER gives the words of a slot. -/
theorem getCounter_answers (s : State) (m : Msg) (w : Word) (rest : List Word) (h : s.servesRequest m 0x02) (hw : m.payload = w :: rest)
    (hk : w.toNat < 8) :
    ∃ t, exec .getCounter s = .next t ∧ t.holdsAnswer 0x00
      [s.keyView w.toNat 0x00, s.keyView w.toNat 0x04, s.keyView w.toNat 0x08, s.keyView w.toNat 0x0C, s.keyView w.toNat 0x10] := by
  have hword : s.payloadWord m 0 = w := s.payloadWord_eq (by rw [hw]; rfl)
  have hrun : s.served.getCounter m (s.payloadWord m) =
      s.served.answer m 0x00 ([0x00, 0x04, 0x08, 0x0C, 0x10].map (s.served.keyView w.toNat)) := by
    unfold State.getCounter
    dsimp only
    rw [hword]
    exact if_pos hk
  have hanswer := State.answer_answers h.served_holdsAnswers h.via (status := 0x00)
    (ws := [0x00, 0x04, 0x08, 0x0C, 0x10].map (s.served.keyView w.toNat)) (by decide) (by simp)
  exact ⟨_, congrArg Host.Outcome.next ((State.ponarDo_serves h rfl _).trans hrun), hanswer.holds⟩

/-- REG_READ gives a register. -/
theorem regRead_answers (s : State) (m : Msg) (h : s.servesRequest m 0x03) (hw : m.payload = [BitVec.ofNat 32 ID_STEP]) (hlen : m.len = 4) :
    ∃ t, exec .regRead s = .next t ∧ t.holdsAnswer 0x00 [(s.seen ID_STEP).reg ID_STEP] := by
  have hword : s.payloadWord m 0 = BitVec.ofNat 32 ID_STEP := s.payloadWord_eq (by rw [hw]; rfl)
  have hlist : (List.range (m.len / 4)).map (s.payloadWord m) = [BitVec.ofNat 32 ID_STEP] := by
    rw [hlen, ← hword]
    rfl
  have hread : s.served.readList [BitVec.ofNat 32 ID_STEP] = ([(s.seen ID_STEP).reg ID_STEP], s.served) := by
    have haddr : (BitVec.ofNat 32 ID_STEP).toNat = ID_STEP := by decide
    rw [State.readList, haddr, State.readReg_ID_STEP, State.reg_seen_served]
    rfl
  have hrun : s.served.regRead m (s.payloadWord m) = s.served.answer m 0x00 [(s.seen ID_STEP).reg ID_STEP] := by
    unfold State.regRead
    dsimp only
    rw [hlist, hread]
  have hanswer := State.answer_answers h.served_holdsAnswers h.via (status := 0x00) (ws := [(s.seen ID_STEP).reg ID_STEP]) (by decide) (by simp)
  exact ⟨_, congrArg Host.Outcome.next ((State.ponarDo_serves h rfl _).trans hrun), hanswer.holds⟩

section
variable {s : State} {m : Msg} {a v : Word} (h : s.servesRequest m 0x04) (hw : m.payload = [a, v]) (hlen : m.len = 8)
include h hw hlen

/-- REG_WRITE of one pair. -/
theorem exec_regWrite_one : exec .regWrite s = .next (s.served.pairsBegin m true [(a, v)]) := by
  have ha : s.payloadWord m 0 = a := s.payloadWord_eq (by rw [hw]; rfl)
  have hv : s.payloadWord m 1 = v := s.payloadWord_eq (by rw [hw]; rfl)
  have hrun : s.served.regWrite m (s.payloadWord m) = s.served.pairsBegin m true [(a, v)] := by
    rw [State.regWrite, pairList_one hlen, ha, hv]
  exact congrArg Host.Outcome.next ((State.ponarDo_serves h rfl _).trans hrun)

theorem regWrite_writes (hlo : 0xB8000 ≤ a.toNat) (hhi : a.toNat < 0xB9000) (h4 : a.toNat % 4 = 0) (hfree : s.wroteNow a.toNat = false) :
    ∃ t x, exec .regWrite s = .next t ∧ t.reg a.toNat = v ∧ t.holdsAnswer 0x00 [x, 1, 0xFFFFFFFF#32] := by
  have hcommit := State.pairsBegin_commits (s := s.served) (a := a) hfree m true v
  rw [State.pairWrite_retention ⟨hlo, hhi, h4⟩] at hcommit
  dsimp only at hcommit
  have hwritten : ((s.served.pairHeld.noteHost a.toNat).setReg a.toNat v).HoldsAnswers := by
    refine h.served_holdsAnswers.of_eq rfl fun b hb => State.reg_setReg_ne _ _ ?_
    rcases hb with rfl | ⟨r, hr, rfl⟩
    · unfold PONAR_CFG; omega
    · unfold RING_CFG; omega
  obtain ⟨x, hanswer⟩ := State.answerPairs_answers hwritten (p := (onePair m true s.served.mt).took true s.served.mt) h.via
  refine ⟨_, x, (exec_regWrite_one h hw hlen).trans (congrArg Host.Outcome.next hcommit), (hanswer.reg _).trans ?_, hanswer.holds⟩
  exact State.reg_setReg_self _ _ _

/-- SEAL refuses the write, which the response counts as not applied (R318, R319). -/
theorem regWrite_locked (hseal : s.sealLocks a.toNat v = true) (hfree : s.wroteNow a.toNat = false) :
    ∃ t x, exec .regWrite s = .next t ∧ t.reg LOCK_REFUSED_CNT = satInc (s.reg LOCK_REFUSED_CNT) ∧
      t.reg LOCK_ADDR = a ∧ t.bit HG_EVENT 1 = true ∧ t.holdsAnswer 0x00 [x, 0, 0] := by
  have hcommit := State.pairsBegin_commits (s := s.served) (a := a) hfree m true v
  rw [State.pairWrite_sealed (s := s.served.pairHeld) hseal] at hcommit
  dsimp only at hcommit
  obtain ⟨hcount, haddr, hevent, hpower, -, hbeside⟩ := s.served.pairHeld.lockRefused_shows a.toNat v
  have hlocked : (s.served.pairHeld.lockRefused a.toNat v).HoldsAnswers := by
    refine h.served_holdsAnswers.of_eq (congrArg Power.phase hpower) fun b hb => ?_
    rcases hb with rfl | ⟨r, hr, rfl⟩
    · exact hbeside _ (by decide) (by decide) (by decide) (by decide)
    · exact hbeside _ (by unfold RING_CFG LOCK_REFUSED_CNT; omega) (by unfold RING_CFG LOCK_ADDR; omega)
        (by unfold RING_CFG HG_EVENT; omega) (by unfold RING_CFG KEY_LOAD_CTRL; omega)
  obtain ⟨x, hanswer⟩ := State.answerPairs_answers hlocked (p := (onePair m true s.served.mt).took false s.served.mt) h.via
  refine ⟨_, x, (exec_regWrite_one h hw hlen).trans (congrArg Host.Outcome.next hcommit), (hanswer.reg _).trans hcount,
    (hanswer.reg _).trans (haddr.trans ?_), (hanswer.bit _ _).trans hevent, hanswer.holds⟩
  rw [BitVec.ofNat_toNat, BitVec.setWidth_eq]

/-- A register that has taken its write of the tick holds the pair back (R407). -/
theorem regWrite_waits (htaken : s.wroteNow a.toNat = true) :
    ∃ t p, exec .regWrite s = .next t ∧ t.hg.serving = none ∧ t.hg.pairs = some p ∧ p.left = [(a, v)] ∧ t.regs = s.regs :=
  ⟨_, _, (exec_regWrite_one h hw hlen).trans (congrArg Host.Outcome.next (State.pairsBegin_waits (s := s.served) htaken m true v)), rfl, rfl,
    rfl, rfl⟩

end

/-- Settles O49: messages arrive and responses are held by their own rules; each command without a key runs on its request. -/
theorem ponarServesOpenCommands : Obligations.PonarServesOpenCommands := by
  unfold Obligations.PonarServesOpenCommands
  refine ⟨⟨ponarCfgWrite_configures, ponarRingMessage_takes, ponarUdpDatagram_unserved, ponarUdpDatagram_short, ponarUdpDatagram_queues,
    ponarResponseAdmit_offers, serveOffer_response, ponarResponseAdmit_waits⟩, ?_⟩
  exact ⟨fun s m w rest _ h => hello_opens s m w rest h, fun s m w rest _ h => hello_refuses s m w rest h,
    fun s m w rest _ h => getCounter_answers s m w rest h, fun s m _ h => regRead_answers s m h,
    fun _ _ _ _ _ h hw hlen => regWrite_writes h hw hlen, fun _ _ _ _ _ h hw hlen => regWrite_locked h hw hlen,
    fun _ _ _ _ _ h hw hlen => regWrite_waits h hw hlen⟩

end Sys2Proof.Proofs
end

section
/-!
PROOFS. Keys, SEAL, the floor, user calibration and SOFT_RESET (R315 to R317, R325, R383): the commands, which wait for their NVM writes,
and what each NVM write does as it completes or fails.
-/

namespace Sys2Proof.Machine

open Reg

/-! ### What a response leaves alone -/

/-- `t` is `s` but for what a response is sent or held by. -/
structure Responds (s t : State) : Prop where
  regs : t.regs = s.regs
  nvm : t.nvm = s.nvm
  keys : t.hg.keys = s.hg.keys
  nvmOps : t.hg.nvmOps = s.hg.nvmOps

namespace Responds

variable {r s t : State}

theorem refl (s : State) : Responds s s := ⟨rfl, rfl, rfl, rfl⟩

theorem trans (h : Responds r s) (h' : Responds s t) : Responds r t :=
  ⟨h'.regs.trans h.regs, h'.nvm.trans h.nvm, h'.keys.trans h.keys, h'.nvmOps.trans h.nvmOps⟩

theorem reg (h : Responds s t) (a : Nat) : t.reg a = s.reg a := by rw [State.reg, h.regs]; rfl

theorem bit (h : Responds s t) (a i : Nat) : t.bit a i = s.bit a i := congrArg (bitOf · i) (h.reg a)

theorem key (h : Responds s t) (k : Nat) : t.key k = s.key k := by rw [State.key, h.keys]; rfl

end Responds

theorem State.responseGone_responds (s : State) (b : Bool) : Responds s (s.responseGone b) := by
  unfold State.responseGone
  split
  · exact ⟨rfl, rfl, rfl, rfl⟩
  · exact .refl s

theorem State.respAdmit_responds (s : State) : Responds s s.respAdmit := by
  unfold State.respAdmit
  split
  · exact .refl s
  split
  · exact ⟨rfl, rfl, rfl, rfl⟩
  · exact .refl s

theorem State.sendUdp_responds (s : State) (p : Nat) (cls : TxClass) (ip : Word) (port : BitVec 16) (ws : List Word) :
    Responds s (s.sendUdp p cls ip port ws) := by
  unfold State.sendUdp
  dsimp only
  split
  · exact ⟨rfl, rfl, rfl, rfl⟩
  split
  · unfold State.sendOnLink
    dsimp only
    split
    · exact ⟨rfl, rfl, rfl, rfl⟩
    split
    · exact ⟨rfl, rfl, rfl, rfl⟩
    · exact ⟨rfl, rfl, rfl, rfl⟩
  · exact .refl s

theorem State.reply_responds (s : State) (m : Msg) (key : Option (BitVec 128)) (status : Nat) (ws : List Word) :
    Responds s (s.reply m key status ws) := by
  have hdeliver (u : State) (via : Transport) (l : List Word) : Responds u (u.deliverResponse via l) := by
    unfold State.deliverResponse
    split
    · split
      · exact .trans ⟨by rfl, by rfl, by rfl, by rfl⟩ (State.respAdmit_responds _)
      · exact u.responseGone_responds true
    · split
      · exact (u.sendUdp_responds _ _ _ _ _).trans (State.responseGone_responds _ false)
      · exact u.responseGone_responds true
  unfold State.reply
  dsimp only
  split
  · exact .trans ⟨by rfl, by rfl, by rfl, by rfl⟩ (hdeliver _ _ _)
  · exact ⟨rfl, rfl, rfl, rfl⟩

/-- A request that waits is answered, when there is one. -/
theorem State.answered_responds (s : State) (status : Nat) :
    Responds s (match s.hg.waiting with | some m => s.answer m status [] | none => s) := by
  split
  · exact s.reply_responds _ _ _ _
  · exact .refl s

/-! ### A command that waits for its NVM write -/

/-- A slot of a device that is not sealed may change. -/
theorem State.lastAdmin_unsealed {s : State} (h : s.nvm.sealed = false) (k : Nat) (v : KeySlot) : s.lastAdmin k v = false := by
  have hs : (s.nvm.sealed && !(List.range 8).any fun i => ((s.setKey k v).key i).state == 1 && ((s.setKey k v).key i).perm.getLsbD 3) = false := by
    rw [h]; rfl
  exact hs

/-- The slots have an ACTIVE key with the KEY permission. -/
theorem State.anyAdmin_iff (s : State) :
    (List.range 8).any (fun i => (s.key i).state == 1 && (s.key i).perm.getLsbD 3) = true ↔
      ∃ i : Nat, i < 8 ∧ (s.key i).state = 1 ∧ (s.key i).perm.getLsbD 3 = true := by
  simp only [List.any_eq_true, List.mem_range, Bool.and_eq_true, beq_iff_eq]

/-- A key that the host has loaded, word 3 first. -/
theorem keyWords_eq (f : Nat → Word) :
    (List.range 4).foldr (fun i (k : BitVec 128) => (k <<< 32) ||| (f i).zeroExtend 128) 0 = (f 3 ++ f 2 ++ f 1 ++ f 0 : BitVec 128) := by
  have hrange : List.range 4 = [0, 1, 2, 3] := rfl
  rw [hrange]
  simp only [List.foldr_cons, List.foldr_nil]
  apply BitVec.eq_of_getLsbD_eq
  intro i hi
  have hlow (j : Nat) (w : Word) (h : 32 ≤ j) : w.getLsbD j = false := BitVec.getLsbD_of_ge w j h
  simp only [BitVec.getLsbD_append, BitVec.getLsbD_or, BitVec.getLsbD_shiftLeft, BitVec.truncate_eq_setWidth, BitVec.getLsbD_setWidth]
  by_cases h0 : i < 32
  · simp [h0, hi]
  by_cases h1 : i - 32 < 32
  · simp [h0, h1, hi, hlow i _ (by omega), show i - 32 < 128 by omega]
  by_cases h2 : i - 32 - 32 < 32
  · simp [h0, h1, h2, hi, hlow i _ (by omega), hlow (i - 32) _ (by omega), show i - 32 < 128 by omega, show i - 32 - 32 < 128 by omega]
  · simp [h0, h1, h2, hi, hlow i _ (by omega), hlow (i - 32) _ (by omega), hlow (i - 32 - 32) _ (by omega), show i - 32 < 128 by omega,
      show i - 32 - 32 < 128 by omega, show i - 32 - 32 - 32 < 128 by omega]

/-! ### NVM writes as they complete (R314, R315, R317, R325, R379, R383) -/

/-- A fold whose steps keep the headgate. -/
theorem foldl_hg {α : Type} {f : State → α → State} (hf : ∀ s x, (f s x).hg = s.hg) (l : List α) (s : State) : (l.foldl f s).hg = s.hg := by
  induction l generalizing s with
  | nil => rfl
  | cons x l ih => exact (ih _).trans (hf s x)

/-- User calibration in NVM changes nothing of the headgate. -/
theorem State.ucalDone_hg (s : State) (recs : List (Bool × UcalRec)) : (s.ucalDone recs).hg = s.hg := by
  have hcommit (u : State) (l : List (Nat × Word)) : (u.engineCommit l).hg = u.hg := by
    unfold State.engineCommit
    split
    · rfl
    · refine foldl_hg (fun v e => ?_) l u
      unfold State.engineWrite
      split <;> rfl
  have htrims (u : State) (l : List ((Bool × UcalRec) × Word)) :
      (l.foldl (fun s e => if e.1.2.isTrim then s.trimApply e.1.2 e.2 else s) u).hg = u.hg :=
    foldl_hg (fun v e => by split <;> rfl) l u
  unfold State.ucalDone
  dsimp only
  rw [hcommit, htrims]

/-- The loaded words are cleared, but for those that the host writes in the cycle. -/
def State.loadCleared (s : State) : State :=
  [0, 1, 2, 3].foldl (fun s i => if s.written.contains (KEY_LOAD_DATA i) then s else s.setReg (KEY_LOAD_DATA i) 0) s

theorem State.loadCleared_hg (s : State) : s.loadCleared.hg = s.hg := foldl_hg (fun v i => by split <;> rfl) _ s

/-- A mark is in NVM; the request that waits for it goes on, and its counter is consumed (R313, R314). -/
theorem State.nvmDone_mark (s : State) (k : Nat) (v : BitVec 48) :
    (s.nvmDone (.mark k v)).hg.nvmOps = s.hg.nvmOps ∧ ((s.nvmDone (.mark k v)).key k).mark = v := by
  have hperm (u : State) (m : Msg) : (u.permCheck m).hg.nvmOps = u.hg.nvmOps ∧ ((u.permCheck m).key k).mark = (u.key k).mark := by
    have hmark : ((u.setKey m.slot { u.key m.slot with last := m.ctr }).key k).mark = (u.key k).mark := by
      by_cases h : k = m.slot
      · rw [h, State.key_setKey_self]
      · rw [State.key_setKey_ne _ _ h]
    unfold State.permCheck
    dsimp only
    split
    · exact ⟨rfl, hmark⟩
    · obtain ⟨-, -, hkeys, hops⟩ := (u.setKey m.slot { u.key m.slot with last := m.ctr }).reply_responds m (some (u.key m.slot).key) 0x07 []
      refine ⟨hops, ?_⟩
      rw [State.key, hkeys]
      exact hmark
  have hset : ((s.setKey k { s.key k with mark := v }).key k).mark = v := by rw [State.key_setKey_self]
  unfold State.nvmDone
  dsimp only
  split
  · split
    · exact ⟨(hperm _ _).1, (hperm _ _).2.trans hset⟩
    · exact ⟨rfl, hset⟩
  · exact ⟨rfl, hset⟩

/-- A key slot is in NVM. -/
theorem State.nvmDone_key (s : State) (k : Nat) (v : KeySlot) (reply : Bool) :
    (s.nvmDone (.key k v reply)).hg.nvmOps = s.hg.nvmOps ∧ (s.nvmDone (.key k v reply)).key k = v := by
  have hset : (s.setKey k v).key k = v := s.key_setKey_self k v
  have hreply (u : State) (m : Msg) (key : Option (BitVec 128)) (hops : u.hg.nvmOps = s.hg.nvmOps) (hkey : u.key k = v) :
      (u.reply m key 0x00 []).hg.nvmOps = s.hg.nvmOps ∧ (u.reply m key 0x00 []).key k = v :=
    ⟨(u.reply_responds m key 0x00 []).nvmOps.trans hops, ((u.reply_responds m key 0x00 []).key k).trans hkey⟩
  have hclear (u : State) (hops : u.hg.nvmOps = s.hg.nvmOps) (hkey : u.key k = v) :
      u.loadCleared.hg.nvmOps = s.hg.nvmOps ∧ u.loadCleared.key k = v := by
    rw [State.key, u.loadCleared_hg]
    exact ⟨hops, hkey⟩
  unfold State.nvmDone
  dsimp only
  split
  · split
    · exact hreply _ _ _ rfl hset
    · exact ⟨rfl, hset⟩
  · exact hclear _ rfl hset

/-- SEALED is in NVM (R317). -/
theorem State.nvmDone_sealed (s : State) :
    (s.nvmDone .sealed).hg.nvmOps = s.hg.nvmOps ∧ (s.nvmDone .sealed).nvm.sealed = true ∧ (s.nvmDone .sealed).bit HG_EVENT 3 = true := by
  have hevent (u : State) : (u.hgEvent 3).bit HG_EVENT 3 = true := u.bit_raise_self HG_EVENT (by decide)
  obtain ⟨hregs, hnvm, -, hops⟩ :=
    (State.hgEvent { s with nvm := { s.nvm with sealed := true, identityValid := true } } 3).answered_responds 0x00
  refine ⟨hops, (congrArg Nvm.sealed hnvm).trans rfl, ?_⟩
  rw [State.bit, State.reg]
  exact (congrArg (fun r => bitOf (Table.get resetWord r HG_EVENT) 3) hregs).trans (hevent _)

theorem State.nvmDone_floor (s : State) (v : BitVec 16) :
    (s.nvmDone (.floor v)).hg.nvmOps = s.hg.nvmOps ∧ (s.nvmDone (.floor v)).nvm.floor = v := by
  obtain ⟨-, hnvm, -, hops⟩ := State.answered_responds { s with nvm := { s.nvm with floor := v, identityValid := true } } 0x00
  exact ⟨hops, (congrArg Nvm.floor hnvm).trans rfl⟩

theorem State.nvmDone_ucal (s : State) (recs : List (Bool × UcalRec)) : (s.nvmDone (.ucal recs)).hg.nvmOps = s.hg.nvmOps :=
  ((s.ucalDone recs).answered_responds 0x00).nvmOps.trans (congrArg Headgate.nvmOps (s.ucalDone_hg recs))

theorem State.nvmDone_nvmOps (s : State) (op : NvmOp) : (s.nvmDone op).hg.nvmOps = s.hg.nvmOps := by
  cases op with
  | mark k v => exact (s.nvmDone_mark k v).1
  | key k v reply => exact (s.nvmDone_key k v reply).1
  | sealed => exact s.nvmDone_sealed.1
  | floor v => exact (s.nvmDone_floor v).1
  | ucal recs => exact s.nvmDone_ucal recs

/-- A write that has failed: NVM_FAIL, and a request that waits is told. -/
theorem State.nvmFailed_responds (s : State) (op : NvmOp) : Responds (s.hgEvent 4) (s.nvmFailed op) := by
  unfold State.nvmFailed
  dsimp only
  split
  · exact .refl _
  · exact State.reply_responds _ _ _ _ _
  · exact .refl _

/-- The headgate's NVM writes once the first has ended. -/
def State.nvmTaken (s : State) (rest : List NvmOp) : State := { s with hg := { s.hg with nvmOps := rest } }

theorem State.nvmComplete_eq {s : State} {op : NvmOp} {rest : List NvmOp} (h : s.hg.nvmOps = op :: rest) (ok : Bool) :
    s.nvmComplete ok = if ok then (s.nvmTaken rest).nvmDone op else (s.nvmTaken rest).nvmFailed op := by
  unfold State.nvmComplete
  rw [h]
  rfl

end Sys2Proof.Machine
end

section
/-!
PROOFS. The statement on keys, SEAL, the floor, user calibration and SOFT_RESET, one command at a time.
-/

namespace Sys2Proof.Proofs

open Sys2Proof.Machine Sys2Proof.Machine.Reg

/-- A command that its checks refuse: its response is held, and no NVM write is asked for. -/
theorem refused_answers {s : State} {m : Msg} {ty : Nat} (h : s.servesRequest m ty) {ok : Word → Bool} (hok : ok (s.payloadWord m 0) = true)
    {f : Msg → (Nat → Word) → State → State} {status : Nat} (hf : f m (s.payloadWord m) s.served = s.served.answer m status [])
    (hst : status < 256) :
    s.ponarDo ty ok f = s.served.answer m status [] ∧ (s.served.answer m status []).holdsAnswer status [] ∧
      (s.served.answer m status []).hg.nvmOps = s.hg.nvmOps ∧ (s.served.answer m status []).nvm = s.nvm := by
  have hanswer := State.answer_answers h.served_holdsAnswers h.via (ws := []) hst (by decide)
  exact ⟨(State.ponarDo_serves h hok f).trans hf, hanswer.holds, hanswer.nvmOps, (congrArg State.nvm hanswer.kept :)⟩

/-! ### Keys (R315, R325) -/

section
variable {s : State} {m : Msg} (h : s.servesRequest m 0x25)
include h

theorem keyChangeInstall_waits (k : List Byte) (hop : bitsOf (s.payloadWord m 0) 9 8 = 0) (hs : s.nvm.sealed = false)
    (hk : keyUnwrap (leBytes 16 (s.key m.slot).key.toNat) (wordBytes ((List.range 6).map (fun i => s.payloadWord m (i + 1)))) = some k) :
    ∃ t v, exec .keyChangeInstall s = .next t ∧ t.hg.waiting = some m ∧ t.hg.serving = none ∧
      t.hg.nvmOps = s.hg.nvmOps ++ [.key (bitsOf (s.payloadWord m 0) 2 0) v true] ∧ v.key = BitVec.ofNat 128 (leNat k) ∧
      v.perm.toNat = bitsOf (s.payloadWord m 0) 23 16 ∧ v.state = 1 ∧ v.last = 0 ∧ v.mark = 4096 := by
  let v : KeySlot :=
    { key := BitVec.ofNat 128 (leNat k), perm := BitVec.ofNat 8 (bitsOf (s.payloadWord m 0) 23 16), state := 1, last := 0, mark := 4096 }
  have hkey : keyUnwrap (leBytes 16 (s.served.key m.slot).key.toNat) (wordBytes ((List.range 6).map (fun i => s.payloadWord m (i + 1)))) =
      some k := hk
  have hadmin : s.served.lastAdmin (bitsOf (s.payloadWord m 0) 2 0) v = false := State.lastAdmin_unsealed hs _ _
  have hrun : s.served.keyInstall m (s.payloadWord m) = s.served.awaitNvm m (.key (bitsOf (s.payloadWord m 0) 2 0) v true) := by
    unfold State.keyInstall
    dsimp only
    rw [hkey]
    exact if_neg (Bool.eq_false_iff.1 hadmin)
  refine ⟨_, v, congrArg Host.Outcome.next ((State.ponarDo_serves h (by rw [hop]; rfl) _).trans hrun), rfl, rfl, rfl, rfl, ?_, rfl, rfl, rfl⟩
  exact Nat.mod_eq_of_lt (bitsOf_lt _ _ _)

/-- A key that does not unwrap. -/
theorem keyChangeInstall_refuses (hop : bitsOf (s.payloadWord m 0) 9 8 = 0)
    (hk : keyUnwrap (leBytes 16 (s.key m.slot).key.toNat) (wordBytes ((List.range 6).map (fun i => s.payloadWord m (i + 1)))) = none) :
    ∃ t, exec .keyChangeInstall s = .next t ∧ t.holdsAnswer 0x13 [] ∧ t.hg.nvmOps = s.hg.nvmOps := by
  have hkey : keyUnwrap (leBytes 16 (s.served.key m.slot).key.toNat) (wordBytes ((List.range 6).map (fun i => s.payloadWord m (i + 1)))) =
      none := hk
  have hrun : s.served.keyInstall m (s.payloadWord m) = s.served.answer m 0x13 [] := by
    unfold State.keyInstall
    dsimp only
    rw [hkey]
  obtain ⟨hdo, hholds, hops, -⟩ := refused_answers h (ok := fun w => bitsOf w 9 8 == 0) (by rw [hop]; rfl) hrun (by decide)
  exact ⟨_, congrArg Host.Outcome.next hdo, hholds, hops⟩

theorem keyChangeRevoke_waits (hop : bitsOf (s.payloadWord m 0) 9 8 = 1) (hs : s.nvm.sealed = false) :
    ∃ t v, exec .keyChangeRevoke s = .next t ∧ t.hg.waiting = some m ∧
      t.hg.nvmOps = s.hg.nvmOps ++ [.key (bitsOf (s.payloadWord m 0) 2 0) v true] ∧ v.state = 2 ∧ v.key = 0 := by
  let v : KeySlot := { s.served.key (bitsOf (s.payloadWord m 0) 2 0) with key := 0, state := 2 }
  have hadmin : s.served.lastAdmin (bitsOf (s.payloadWord m 0) 2 0) v = false := State.lastAdmin_unsealed hs _ _
  have hrun : s.served.keyRevoke m (s.payloadWord m) = s.served.awaitNvm m (.key (bitsOf (s.payloadWord m 0) 2 0) v true) :=
    (if_neg (not_not.2 hop)).trans (if_neg (Bool.eq_false_iff.1 hadmin))
  exact ⟨_, v, congrArg Host.Outcome.next ((State.ponarDo_serves h (by rw [hop]; rfl) _).trans hrun), rfl, rfl, rfl, rfl⟩

end

/-! ### SEAL and the floor (R316, R317) -/

section
variable {s : State} {m : Msg}

theorem seal_waits (h : s.servesRequest m 0x27) (hw : s.payloadWord m 0 = 0x5345414C#32) (hs : s.nvm.sealed = false)
    (hadmin : ∃ i : Nat, i < 8 ∧ (s.key i).state = 1 ∧ (s.key i).perm.getLsbD 3 = true) :
    ∃ t, exec .seal s = .next t ∧ t.hg.nvmOps = s.hg.nvmOps ++ [.sealed] ∧ t.hg.waiting = some m := by
  have hany := s.anyAdmin_iff.2 hadmin
  have hsome : ¬ (!(List.range 8).any fun i => (s.served.key i).state == 1 && (s.served.key i).perm.getLsbD 3) = true := by
    have hserved : ((List.range 8).any fun i => (s.served.key i).state == 1 && (s.served.key i).perm.getLsbD 3) = true := hany
    rw [hserved]
    decide
  have hopen : ¬ s.served.nvm.sealed = true := Bool.eq_false_iff.1 hs
  have hrun : s.served.seal m (s.payloadWord m) = s.served.awaitNvm m .sealed :=
    (if_neg (not_not.2 hw)).trans ((if_neg hsome).trans (if_neg hopen))
  exact ⟨_, congrArg Host.Outcome.next ((State.ponarDo_serves h rfl _).trans hrun), rfl, rfl⟩

/-- SEAL without a slot that could change a key any more. -/
theorem seal_refuses (h : s.servesRequest m 0x27) (hw : s.payloadWord m 0 = 0x5345414C#32)
    (hadmin : ∀ i : Nat, i < 8 → (s.key i).state = 1 → (s.key i).perm.getLsbD 3 = false) :
    ∃ t, exec .seal s = .next t ∧ t.holdsAnswer 0x17 [] ∧ t.nvm = s.nvm := by
  have hnone : (!(List.range 8).any fun i => (s.served.key i).state == 1 && (s.served.key i).perm.getLsbD 3) = true := by
    have hserved : ¬ ((List.range 8).any fun i => (s.key i).state == 1 && (s.key i).perm.getLsbD 3) = true := by
      rw [s.anyAdmin_iff]
      rintro ⟨i, hi, hactive, hperm⟩
      exact absurd hperm (by rw [hadmin i hi hactive]; decide)
    have hfalse : ((List.range 8).any fun i => (s.served.key i).state == 1 && (s.served.key i).perm.getLsbD 3) = false :=
      Bool.eq_false_iff.2 hserved
    rw [hfalse]
    rfl
  have hrun : s.served.seal m (s.payloadWord m) = s.served.answer m 0x17 [] := (if_neg (not_not.2 hw)).trans (if_pos hnone)
  obtain ⟨hdo, hholds, -, hnvm⟩ := refused_answers h (ok := anyWord) rfl hrun (by decide)
  exact ⟨_, congrArg Host.Outcome.next hdo, hholds, hnvm⟩

theorem floorRaise_checks (h : s.servesRequest m 0x28) :
    ∃ t, exec .floorRaise s = .next t ∧
      (if bitsOf (s.payloadWord m 0) 15 0 < s.nvm.floor.toNat then t.holdsAnswer 0x15 [] ∧ t.hg.nvmOps = s.hg.nvmOps
       else if s.ucodeValid = false ∨ s.fld ID_UCODE 31 16 < bitsOf (s.payloadWord m 0) 15 0 then
         t.holdsAnswer 0x16 [] ∧ t.hg.nvmOps = s.hg.nvmOps
       else t.hg.nvmOps = s.hg.nvmOps ++ [.floor (BitVec.ofNat 16 (bitsOf (s.payloadWord m 0) 15 0))] ∧ t.hg.waiting = some m) := by
  split
  · next hlow =>
    have hrun : s.served.floorRaise m (s.payloadWord m) = s.served.answer m 0x15 [] := if_pos hlow
    obtain ⟨hdo, hholds, hops, -⟩ := refused_answers h (ok := anyWord) rfl hrun (by decide)
    exact ⟨_, congrArg Host.Outcome.next hdo, hholds, hops⟩
  next hlow =>
    split
    · next hcode =>
      have hcode' : (!s.served.ucodeValid) = true ∨ s.served.fld ID_UCODE 31 16 < bitsOf (s.payloadWord m 0) 15 0 :=
        hcode.imp (fun hv => (congrArg (!·) hv : (!s.ucodeValid) = true)) id
      have hrun : s.served.floorRaise m (s.payloadWord m) = s.served.answer m 0x16 [] := (if_neg hlow).trans (if_pos hcode')
      obtain ⟨hdo, hholds, hops, -⟩ := refused_answers h (ok := anyWord) rfl hrun (by decide)
      exact ⟨_, congrArg Host.Outcome.next hdo, hholds, hops⟩
    · next hcode =>
      have hcode' : ¬ ((!s.served.ucodeValid) = true ∨ s.served.fld ID_UCODE 31 16 < bitsOf (s.payloadWord m 0) 15 0) :=
        fun hb => hcode (hb.imp (fun hv => Bool.not_eq_true' _ ▸ hv) id)
      have hrun : s.served.floorRaise m (s.payloadWord m) =
          s.served.awaitNvm m (.floor (BitVec.ofNat 16 (bitsOf (s.payloadWord m 0) 15 0))) := (if_neg hlow).trans (if_neg hcode')
      exact ⟨_, congrArg Host.Outcome.next ((State.ponarDo_serves h rfl _).trans hrun), rfl, rfl⟩

/-! ### User calibration (R383) -/

theorem ucalWrite_empty (h : s.servesRequest m 0x26) (hn : bitsOf (s.payloadWord m 0) 7 0 = 0) :
    ∃ t, exec .ucalWrite s = .next t ∧ t.holdsAnswer 0x01 [] ∧ t.hg.nvmOps = s.hg.nvmOps := by
  have hrun : s.served.ucalWrite m (s.payloadWord m) = s.served.answer m 0x01 [] := if_pos (.inl hn)
  obtain ⟨hdo, hholds, hops, -⟩ := refused_answers h (ok := anyWord) rfl hrun (by decide)
  exact ⟨_, congrArg Host.Outcome.next hdo, hholds, hops⟩

theorem ucalWrite_reserved (h : s.servesRequest m 0x26) (hlo : 1 ≤ bitsOf (s.payloadWord m 0) 7 0) (hhi : bitsOf (s.payloadWord m 0) 7 0 ≤ 127)
    (hres : bitsOf (s.payloadWord m 0) 31 8 ≠ 0) :
    ∃ t, exec .ucalWrite s = .next t ∧ t.holdsAnswer 0x12 [] ∧ t.hg.nvmOps = s.hg.nvmOps := by
  have hcount : ¬ (bitsOf (s.payloadWord m 0) 7 0 = 0 ∨ 127 < bitsOf (s.payloadWord m 0) 7 0) := by omega
  have hrun : s.served.ucalWrite m (s.payloadWord m) = s.served.answer m 0x12 [] := (if_neg hcount).trans (if_pos (.inl hres))
  obtain ⟨hdo, hholds, hops, -⟩ := refused_answers h (ok := anyWord) rfl hrun (by decide)
  exact ⟨_, congrArg Host.Outcome.next hdo, hholds, hops⟩

/-- Records that are all sound wait for NVM. -/
theorem ucalWrite_waits (n : Nat) (h : s.servesRequest m 0x26) (hw : s.payloadWord m 0 = BitVec.ofNat 32 n) (hlo : 1 ≤ n) (hhi : n ≤ 127)
    (hgood : ∀ i : Nat, i < n → ucalBad (s.payloadWord m) i = false ∧ ucalTrimBad (ucalRecord (s.payloadWord m) i) = false) :
    ∃ t, exec .ucalWrite s = .next t ∧ t.hg.waiting = some m ∧
      t.hg.nvmOps = s.hg.nvmOps ++ [.ucal ((List.range n).map (ucalRecord (s.payloadWord m)))] := by
  have hnat : (s.payloadWord m 0).toNat = n := by rw [hw, BitVec.toNat_ofNat, Nat.mod_eq_of_lt (by omega)]
  have hn : bitsOf (s.payloadWord m 0) 7 0 = n := by
    rw [bitsOf, hnat, Nat.shiftRight_zero]
    exact Nat.mod_eq_of_lt (by norm_num; omega)
  have hres : bitsOf (s.payloadWord m 0) 31 8 = 0 := by
    rw [bitsOf, hnat, Nat.shiftRight_eq_div_pow, Nat.div_eq_of_lt (by norm_num; omega)]
    rfl
  have hcount : ¬ (bitsOf (s.payloadWord m 0) 7 0 = 0 ∨ 127 < bitsOf (s.payloadWord m 0) 7 0) := by omega
  have hsound : ¬ (bitsOf (s.payloadWord m 0) 31 8 ≠ 0 ∨
      (List.range (bitsOf (s.payloadWord m 0) 7 0)).any (ucalBad (s.payloadWord m)) = true) := by
    rw [hn, hres]
    rintro (hne | hbad)
    · exact hne rfl
    · obtain ⟨i, hi, hbad⟩ := List.any_eq_true.1 hbad
      exact absurd hbad (by rw [(hgood i (List.mem_range.1 hi)).1]; decide)
  have htrims : ¬ ((List.range (bitsOf (s.payloadWord m 0) 7 0)).map (ucalRecord (s.payloadWord m))).any ucalTrimBad = true := by
    rw [hn]
    intro hbad
    obtain ⟨r, hr, hbad⟩ := List.any_eq_true.1 hbad
    obtain ⟨i, hi, rfl⟩ := List.mem_map.1 hr
    exact absurd hbad (by rw [(hgood i (List.mem_range.1 hi)).2]; decide)
  have hrun : s.served.ucalWrite m (s.payloadWord m) =
      s.served.awaitNvm m (.ucal ((List.range (bitsOf (s.payloadWord m 0) 7 0)).map (ucalRecord (s.payloadWord m)))) :=
    (if_neg hcount).trans ((if_neg hsound).trans (if_neg htrims))
  rw [hn] at hrun
  exact ⟨_, congrArg Host.Outcome.next ((State.ponarDo_serves h rfl _).trans hrun), rfl, rfl⟩

/-- SOFT_RESET is answered; the reset follows its response (R325). -/
theorem softReset_answers (h : s.servesRequest m 0x29) :
    ∃ t, exec .softReset s = .next t ∧ t.hg.resetAfter = true ∧ t.holdsAnswer 0x00 [] := by
  have hanswer := State.answer_answers (u := { s.served with hg := { s.served.hg with resetAfter := true } })
    (h.served_holdsAnswers.of_eq rfl fun _ _ => rfl) h.via (status := 0x00) (ws := []) (by decide) (by decide)
  exact ⟨_, congrArg Host.Outcome.next (State.ponarDo_serves h rfl _), (congrArg Headgate.resetAfter hanswer.hg).trans rfl, hanswer.holds⟩

end

/-! ### NVM writes (R314 to R317) -/

/-- A write of the headgate to NVM changes the state as it completes, and reports as it fails. -/
theorem nvmWriteComplete_writes (s : State) (op : NvmOp) (rest : List NvmOp) (hc : s.clocked) (hops : s.hg.nvmOps = op :: rest) :
    ∃ t u, exec (.nvmWriteComplete true) s = .next t ∧ exec (.nvmWriteComplete false) s = .next u ∧
      t.hg.nvmOps = rest ∧ u.hg.nvmOps = rest ∧ u.nvm = s.nvm ∧ u.bit HG_EVENT 4 = true ∧
      (op = .sealed → t.nvm.sealed = true ∧ t.bit HG_EVENT 3 = true) ∧
      (∀ f, op = .floor f → t.nvm.floor = f) ∧ (∀ k v r, op = .key k v r → t.key k = v) ∧
      (∀ k v, op = .mark k v → (t.key k).mark = v) := by
  have hrow (ok : Bool) : exec (.nvmWriteComplete ok) s =
      .next (if ok then (s.nvmTaken rest).nvmDone op else (s.nvmTaken rest).nvmFailed op) :=
    congrArg Host.Outcome.next ((s.onTclk_clocked _ hc).trans (State.nvmComplete_eq hops ok))
  have hfailed := (s.nvmTaken rest).nvmFailed_responds op
  have hevent : ((s.nvmTaken rest).hgEvent 4).bit HG_EVENT 4 = true := (s.nvmTaken rest).bit_raise_self HG_EVENT (by decide)
  refine ⟨_, _, hrow true, hrow false, State.nvmDone_nvmOps _ op, hfailed.nvmOps, hfailed.nvm, (hfailed.bit _ _).trans hevent, ?_, ?_, ?_, ?_⟩
  · rintro rfl
    exact (s.nvmTaken rest).nvmDone_sealed.2
  · rintro f rfl
    exact ((s.nvmTaken rest).nvmDone_floor f).2
  · rintro k v r rfl
    exact ((s.nvmTaken rest).nvmDone_key k v r).2
  · rintro k v rfl
    exact ((s.nvmTaken rest).nvmDone_mark k v).2

/-! ### Keys before SEAL (R315) -/

/-- A write of 1 to KEY_LOAD_GO asks for the write of the key that is loaded. -/
theorem keyLoadGo_waits (v : Word) (s : State) (ha : s.accepts KEY_LOAD_GO v) (hgo : v.getLsbD 0 = true) :
    ∃ t k, exec (.keyLoadGo v) s = .next t ∧ t.hg.nvmOps = s.hg.nvmOps ++ [.key (s.fld KEY_LOAD_CTRL 2 0) k false] ∧
      k.key = (s.reg (KEY_LOAD_DATA 3) ++ s.reg (KEY_LOAD_DATA 2) ++ s.reg (KEY_LOAD_DATA 1) ++ s.reg (KEY_LOAD_DATA 0) : BitVec 128) ∧
      k.perm.toNat = s.fld KEY_LOAD_CTRL 23 16 ∧ k.state = 1 ∧ t.bit KEY_LOAD_CTRL 31 = false := by
  have hon : ¬ (!bitOf v 0) = true := by rw [bitOf, hgo]; decide
  have hbit (u : State) : (u.setBit KEY_LOAD_CTRL 31 false).bit KEY_LOAD_CTRL 31 = false := u.bit_setBit_self _ _ _ (by decide)
  refine ⟨_, _, congrArg Host.Outcome.next ((s.hostWrite_accepts _ ha).trans (if_neg hon)), rfl, ?_, ?_, rfl, hbit _⟩
  · exact keyWords_eq fun i => s.reg (KEY_LOAD_DATA i)
  · exact Nat.mod_eq_of_lt (bitsOf_lt _ _ _)

theorem keyLoadGo_locked (v : Word) (s : State) (hrun : s.power.phase = .run) (hseal : s.sealLocks KEY_LOAD_GO v = true)
    (hgo : v.getLsbD 0 = true) :
    ∃ t, exec (.keyLoadGo v) s = .next t ∧ t.bit KEY_LOAD_CTRL 31 = true ∧ t.hg.nvmOps = s.hg.nvmOps ∧
      t.reg LOCK_REFUSED_CNT = satInc (s.reg LOCK_REFUSED_CNT) := by
  obtain ⟨hcount, -, -, -, hhg, -⟩ := s.lockRefused_shows KEY_LOAD_GO v
  have hbit : (s.lockRefused KEY_LOAD_GO v).bit KEY_LOAD_CTRL 31 = true := by
    rw [s.lockRefused_eq, if_pos ⟨rfl, hgo⟩]
    exact State.bit_setBit_self _ _ _ _ (by decide)
  exact ⟨_, congrArg Host.Outcome.next (s.hostWrite_locked _ hrun hseal), hbit, congrArg Headgate.nvmOps hhg, hcount⟩

/-- Settles O51: each command checks and waits for its NVM write, whose completion changes the state. -/
theorem keysSealAndFloorAreWritten : Obligations.KeysSealAndFloorAreWritten := by
  unfold Obligations.KeysSealAndFloorAreWritten
  exact ⟨fun s m k _ h => keyChangeInstall_waits h k, fun s m _ h => keyChangeInstall_refuses h, fun s m _ h => keyChangeRevoke_waits h,
    fun s m _ h => seal_waits h, fun s m _ h => seal_refuses h, fun s m _ h => floorRaise_checks h, fun s m _ h => ucalWrite_empty h,
    fun s m _ h => ucalWrite_reserved h, fun s m n _ h => ucalWrite_waits n h, fun s m _ h => softReset_answers h, nvmWriteComplete_writes,
    keyLoadGo_waits, keyLoadGo_locked⟩

end Sys2Proof.Proofs
end

section
/-!
PROOFS. What MIT_CHANGE and MIT_CLEAR do to the mittens (R117, R119, R324): the write of a configuration register, and the clear of several
mittens.
-/

namespace Sys2Proof.Machine

open Reg

/-! ### Configuration of a mitten (R119) -/

/-- The configuration registers of the mittens are none of those that a take writes. -/
theorem mitCfgReg_beside {a j : Nat} {mask : Word} (h : mitCfgReg a = some (j, mask)) :
    j < 32 ∧ 0x50400 ≤ a ∧ a < 0x53000 ∧
      ∀ n < 32, a ≠ MIT_STATUS n ∧ a ≠ TAKE_CNT n ∧ a ≠ BLANK_CNT n ∧ a ≠ MIT_TAKE_LO n ∧ a ≠ MIT_TAKE_HI n := by
  unfold MIT_STATUS TAKE_CNT BLANK_CNT MIT_TAKE_LO MIT_TAKE_HI
  unfold mitCfgReg at h
  split at h
  · next hblock =>
    have hoff : (a - 0x50400) % 0x40 < 0x10 ∧ j = (a - 0x50400) / 0x40 := by
      split at h
      · next he => exact ⟨by omega, by cases h; rfl⟩
      · next he => exact ⟨by omega, by cases h; rfl⟩
      · next he => exact ⟨by omega, by cases h; rfl⟩
      · next he => exact ⟨by omega, by cases h; rfl⟩
      · cases h
    exact ⟨by omega, by omega, by omega, fun n hn => by omega⟩
  · split at h
    · cases h
      exact ⟨by omega, by omega, by omega, fun n hn => by omega⟩
    · split at h
      · cases h
        exact ⟨by omega, by omega, by omega, fun n hn => by omega⟩
      · cases h

/-- Of the registers beside its own a take changes none, and of MIT_STATUS not CFG_REFUSED. -/
theorem State.take_shows (s : State) {j a : Nat} (i : Nat) (hj : j < 32)
    (ha : ∀ n < 32, a ≠ MIT_STATUS n ∧ a ≠ TAKE_CNT n ∧ a ≠ BLANK_CNT n ∧ a ≠ MIT_TAKE_LO n ∧ a ≠ MIT_TAKE_HI n) :
    (s.take j i).reg a = s.reg a ∧ (s.take j i).bit (MIT_STATUS j) 5 = s.bit (MIT_STATUS j) 5 := by
  obtain ⟨hstatus, hcnt, -, hlo, hhi⟩ := ha j hj
  have hpads := State.refreshPins_keepsMitten (s.takeNoted j i) j (s.takeNoted j i).now
  rw [s.take_eq, State.reg_refreshPins _ _ (fun n hn => (ha n hn).1), s.reg_takeNoted, State.reg_satCount_ne _ hcnt,
    State.reg_setPair_ne _ _ hlo hhi, State.reg_setReg_ne _ _ hstatus, hpads.status 5 (by decide), State.bit, s.status_takeNoted,
    State.takenWord, bitOf_setBits_ne _ _ _ _ _ (.inl (by decide)), bitOf_putBit_ne _ _ (by decide), bitOf_putBit_ne _ _ (by decide)]
  exact ⟨rfl, rfl⟩

/-- An accepted write of a configuration register: the register takes it, CFG_REFUSED stays, and what is no mitten is as it was. -/
theorem State.mitCfgWrite_shows {s : State} {a j : Nat} {v mask : Word} (hreg : mitCfgReg a = some (j, mask))
    (hidle : s.fld (MIT_STATUS j) 1 0 = 0) :
    (s.mitCfgWrite a v).reg a = mergeWord (s.reg a) v mask ∧ (s.mitCfgWrite a v).bit (MIT_STATUS j) 5 = s.bit (MIT_STATUS j) 5 ∧
      KeepsSystem s (s.mitCfgWrite a v) := by
  obtain ⟨hj, hlo, hhi, hbeside⟩ := mitCfgReg_beside hreg
  have hcfg : ¬ besidePins a := by unfold besidePins; omega
  have hblank : MIT_STATUS j ≠ BLANK_CNT j := by unfold MIT_STATUS BLANK_CNT; omega
  have hword : ((s.setReg a (mergeWord (s.reg a) v mask)).dropBlocked j).reg a = mergeWord (s.reg a) v mask :=
    (State.reg_satAdd_ne _ _ (hbeside j hj).2.2.1).trans (State.reg_setReg_self _ _ _)
  have hflag : ((s.setReg a (mergeWord (s.reg a) v mask)).dropBlocked j).bit (MIT_STATUS j) 5 = s.bit (MIT_STATUS j) 5 :=
    congrArg (bitOf · 5) ((State.reg_satAdd_ne _ _ hblank).trans (State.reg_setReg_ne _ _ (hbeside j hj).1.symm))
  have hkeeps : KeepsSystem s ((s.setReg a (mergeWord (s.reg a) v mask)).dropBlocked j) :=
    ((KeepsSystem.setReg s _ hcfg).trans (.setMitten _ j _)).trans (.foldl (fun u _ => .satCount u (mitten_not_besidePins hj).2.2.1) _ _)
  unfold State.mitCfgWrite
  rw [hreg]
  dsimp only
  rw [if_neg (not_not.2 hidle)]
  generalize (s.setReg a (mergeWord (s.reg a) v mask)).dropBlocked j = u at *
  split
  · next i _ _ =>
    obtain ⟨hkept, hbit⟩ := u.take_shows i hj hbeside
    exact ⟨hkept.trans hword, hbit.trans hflag, hkeeps.trans (u.take_keepsSystem i hj)⟩
  · exact ⟨hword, hflag, hkeeps⟩

theorem State.busWrite_mitCfg {s : State} {a j : Nat} {v mask : Word} (hreg : mitCfgReg a = some (j, mask))
    (hallowed : mitChangeAddr a = true) : s.busWrite a v = s.mitCfgWrite a v := by
  obtain ⟨-, hlo, hhi, -⟩ := mitCfgReg_beside hreg
  have hrow : a % 4 = 0 ∧ (regRow a).isSome = true := by
    simp only [mitChangeAddr, Bool.or_eq_true, beq_iff_eq, Bool.and_eq_true] at hallowed
    rcases hallowed with rfl | ⟨⟨⟨-, h4⟩, hrow⟩, -⟩
    · exact absurd hlo (by decide)
    · exact ⟨h4, hrow⟩
  have hblock : a / 0x10000 = 5 := by omega
  have hnone : ¬ (regRow a).isNone = true := by rw [← Option.not_isSome, hrow.2]; decide
  have hmit : s.mitWrite a v = s.mitCfgWrite a v := by
    rw [State.mitWrite, if_neg (by omega), if_pos (by rw [hreg]; rfl)]
  rw [State.busWrite, if_neg (by omega), if_neg (by omega), if_neg (by omega), if_neg hnone, if_neg (by omega), hblock]
  exact hmit

/-- A pair of MIT_CHANGE for a mitten that neither forces nor latches is applied. -/
theorem State.pairWrite_mitCfg {s : State} {a j : Nat} {v mask : Word} (hreg : mitCfgReg a = some (j, mask))
    (hallowed : mitChangeAddr a = true) (hidle : s.fld (MIT_STATUS j) 1 0 = 0) :
    s.pairWrite false a v = (true, (s.noteHost a).mitCfgWrite a v) := by
  obtain ⟨hj, hlo, hhi, -⟩ := mitCfgReg_beside hreg
  have hflag : refusalFlag a = some (MIT_STATUS j, 5) := by
    have hblock : a / 0x10000 = 5 := by omega
    rw [refusalFlag, if_neg (by omega), hblock]
    dsimp only
    rw [hreg]
    rfl
  have hclear : (s.setBit (MIT_STATUS j) 5 false).fld (MIT_STATUS j) 1 0 = 0 := by
    rw [State.fld, State.setBit, State.reg_setReg_self, putBit, bitsOf_setBits_ne _ _ _ _ _ _ (.inl (by decide))]
    exact hidle
  have hkept : ((s.setBit (MIT_STATUS j) 5 false).mitCfgWrite a v).bit (MIT_STATUS j) 5 = false :=
    (State.mitCfgWrite_shows hreg hclear).2.1.trans (State.bit_setBit_self _ _ _ _ (by decide))
  have hrefuses : s.refuses a v = false := by
    rw [State.refuses, hflag]
    dsimp only
    rw [State.busWrite_mitCfg hreg hallowed, hkept, Bool.and_false]
  rw [State.pairWrite, Bool.false_and, if_neg Bool.false_ne_true]
  dsimp only
  rw [hrefuses, State.busWrite_mitCfg hreg hallowed]
  rfl

/-! ### Clear requests (R117, R324) -/

/-- MIT_STATUS of mitten `m` after a clear request. -/
def State.clearWord (s : State) (m : Nat) (auth : Bool) : Word :=
  let w := setBits (s.reg (MIT_STATUS m)) 7 6 (s.clearResult m auth)
  if s.clearResult m auth = 0 then putBit w 1 false else w

theorem State.clearMitten_shows (s : State) {m : Nat} (auth : Bool) (hm : m < 32) :
    (s.clearMitten m auth).reg (MIT_STATUS m) = s.clearWord m auth ∧ (∀ a, a ≠ MIT_STATUS m → (s.clearMitten m auth).reg a = s.reg a) ∧
      KeepsSystem s (s.clearMitten m auth) := by
  have hkeeps (w : Word) : KeepsSystem s (s.setReg (MIT_STATUS m) w) := .setReg s w (mitten_not_besidePins hm).1
  unfold State.clearMitten State.clearWord
  dsimp only
  split
  · refine ⟨?_, fun a ha => ?_, ((hkeeps _).trans (.setReg _ _ (mitten_not_besidePins hm).1)).trans (.setMitten _ m _)⟩
    · rw [State.reg_setMitten, State.setBit, State.reg_setReg_self, State.setFld, State.reg_setReg_self]
    · rw [State.reg_setMitten, State.setBit, State.reg_setReg_ne _ _ ha, State.setFld, State.reg_setReg_ne _ _ ha]
  · exact ⟨State.reg_setReg_self _ _ _, fun a ha => State.reg_setReg_ne _ _ ha, hkeeps _⟩

/-- Whether a source of a mitten is active does not depend on MIT_STATUS. -/
theorem State.clearWord_congr {s u : State} {m : Nat} (hhg : u.hg = s.hg) (hst : u.reg (MIT_STATUS m) = s.reg (MIT_STATUS m))
    (hr : ∀ a, (∀ n < 32, a ≠ MIT_STATUS n) → u.reg a = s.reg a) (auth : Bool) : u.clearWord m auth = s.clearWord m auth := by
  have hmode : u.reg (MIT_MODE m) = s.reg (MIT_MODE m) := hr _ fun n _ => by unfold MIT_MODE MIT_STATUS; omega
  have hmask : u.reg (MIT_MASK m) = s.reg (MIT_MASK m) := hr _ fun n _ => by unfold MIT_MASK MIT_STATUS; omega
  have hactive : u.reg TRIP_ACTIVE = s.reg TRIP_ACTIVE := hr _ fun n _ => by unfold TRIP_ACTIVE MIT_STATUS; omega
  have hany : u.anyActive m = s.anyActive m := by
    simp only [State.anyActive, State.srcActive, State.bit, hmode, hmask, hactive, hhg]
  have hres : u.clearResult m auth = s.clearResult m auth := by simp only [State.clearResult, State.bit, hst, hmode, hany]; rfl
  rw [State.clearWord, State.clearWord, hres, hst]

/-- The mittens that `w` names are asked to clear. -/
def State.clearMittens (s : State) (w : Word) (n : Nat) : State := foldBelow n (fun s i => if bitOf w i then s.clearMitten i true else s) s

theorem State.clearMittens_shows (s : State) (w : Word) {n : Nat} (hn : n ≤ 32) :
    (∀ i < n, (s.clearMittens w n).reg (MIT_STATUS i) = if bitOf w i = true then s.clearWord i true else s.reg (MIT_STATUS i)) ∧
      (∀ a, (∀ i < n, a ≠ MIT_STATUS i) → (s.clearMittens w n).reg a = s.reg a) ∧ KeepsSystem s (s.clearMittens w n) := by
  induction n with
  | zero => exact ⟨fun i hi => absurd hi (Nat.not_lt_zero i), fun _ _ => rfl, .refl s⟩
  | succ n ih =>
    obtain ⟨hthese, hothers, hkeeps⟩ := ih (Nat.le_of_succ_le hn)
    have hlt : n < 32 := hn
    have hstep : s.clearMittens w (n + 1) = if bitOf w n then (s.clearMittens w n).clearMitten n true else s.clearMittens w n :=
      foldBelow_succ _ n s
    have hapart {i : Nat} (hi : i ≠ n) : MIT_STATUS i ≠ MIT_STATUS n := by unfold MIT_STATUS; omega
    have hself : (s.clearMittens w n).reg (MIT_STATUS n) = s.reg (MIT_STATUS n) :=
      hothers _ fun i hi => (hapart (Nat.ne_of_lt hi)).symm
    have hword : (s.clearMittens w n).clearWord n true = s.clearWord n true :=
      State.clearWord_congr hkeeps.hg hself (fun a ha => hothers a fun i hi => ha i (by omega)) true
    obtain ⟨hcleared, hrest, hclear⟩ := (s.clearMittens w n).clearMitten_shows true hlt
    rw [hstep]
    split
    · next hbit =>
      refine ⟨fun i hi => ?_, fun a ha => ?_, hkeeps.trans hclear⟩
      · by_cases hin : i = n
        · rw [hin, hcleared, hword, if_pos hbit]
        · rw [hrest _ (hapart hin), hthese i (by omega)]
      · rw [hrest a (ha n (Nat.lt_succ_self n)), hothers a fun i hi => ha i (Nat.lt_succ_of_lt hi)]
    · next hbit =>
      refine ⟨fun i hi => ?_, fun a ha => hothers a fun i hi => ha i (Nat.lt_succ_of_lt hi), hkeeps⟩
      by_cases hin : i = n
      · rw [hin, hself, if_neg hbit]
      · exact hthese i (by omega)

/-- The outcome of an authenticated clear request. -/
theorem State.clearWord_authenticated (s : State) (m : Nat) :
    (s.bit (MIT_STATUS m) 1 = false → bitsOf (s.clearWord m true) 7 6 = 3) ∧
      (s.bit (MIT_STATUS m) 1 = true → s.anyActive m = false →
        bitOf (s.clearWord m true) 1 = false ∧ bitsOf (s.clearWord m true) 7 6 = 0) := by
  refine ⟨fun h => ?_, fun h hidle => ?_⟩
  · have hres : s.clearResult m true = 3 := by rw [State.clearResult, h]; rfl
    rw [State.clearWord, hres, if_neg (by decide), bitsOf_setBits_self _ _ _ _ (by decide)]
    rfl
  · have hres : s.clearResult m true = 0 := by
      rw [State.clearResult, h, hidle, Bool.not_true, Bool.and_false]
      rfl
    rw [State.clearWord, hres, if_pos rfl]
    refine ⟨bitOf_putBit_self _ _ _ (by decide), ?_⟩
    rw [putBit, bitsOf_setBits_ne _ _ _ _ _ _ (.inr (by decide)), bitsOf_setBits_self _ _ _ _ (by decide)]
    rfl

end Sys2Proof.Machine
end

section
/-!
PROOFS. The authenticated commands on outputs, programs, swaps and mittens (R320 to R324).
-/

namespace Sys2Proof.Machine

open Reg

theorem State.HoldsAnswers.of_keepsSystem {s t : State} (hs : s.HoldsAnswers) (h : KeepsSystem s t) : t.HoldsAnswers := by
  refine hs.of_eq (congrArg Power.phase h.power) fun a ha => h.regs a (.inl ?_)
  rcases ha with rfl | ⟨r, hr, rfl⟩
  · decide
  · unfold RING_CFG; omega

theorem State.HoldsAnswers.of_keepsBesideSwap {s t : State} (hs : s.HoldsAnswers) (h : s.KeepsBesideSwap t) : t.HoldsAnswers := by
  refine hs.of_eq (congrArg Power.phase h.power) fun a ha => h.reg a ?_
  rcases ha with rfl | ⟨r, hr, rfl⟩
  · decide
  · unfold RING_CFG; omega

theorem ringTransportReg_low {a : Nat} (h : ringTransportReg a) : 0x1000 ≤ a ∧ a < 0x50000 := by
  rcases h with rfl | ⟨r, hr, rfl⟩
  · decide
  · unfold RING_CFG; omega

/-! ### Programs (R321, R322) -/

theorem State.loadCheck_lt (s : State) (m : Msg) (stage : Bool) (w : Nat → Word) : s.loadCheck m stage w < 256 := by
  unfold State.loadCheck
  dsimp only
  repeat' split
  all_goals decide

/-- Images go to local RAM alone. -/
theorem State.copyImage_shape (s : State) (base : Nat) (r : ImageRef) : ∃ ram, s.copyImage base r = { s with localRam := ram } := by
  have hcopy (n : Nat) (u : State) :
      ∃ ram, foldBelow n (fun s i => s.ramWrite r.cluster (base + i) (s.resRead (r.ofs + i) 1) 1) u = { u with localRam := ram } := by
    induction n with
    | zero => exact ⟨u.localRam, rfl⟩
    | succ n ih =>
      obtain ⟨ram, h⟩ := ih
      rw [foldBelow_succ, h]
      exact ⟨_, rfl⟩
  exact hcopy _ s

theorem State.copyImages_shape (s : State) (base : Nat) (l : List ImageRef) :
    ∃ ram, l.foldl (fun s r => s.copyImage base r) s = { s with localRam := ram } := by
  induction l generalizing s with
  | nil => exact ⟨s.localRam, rfl⟩
  | cons r l ih =>
    obtain ⟨ram, h⟩ := s.copyImage_shape base r
    obtain ⟨ram', h'⟩ := ih (s.copyImage base r)
    refine ⟨ram', ?_⟩
    rw [List.foldl_cons, h', h]

/-- A refused PROG_LOAD changes no local RAM and no status of the swap. -/
theorem State.loadRefused_shows {s : State} {m : Msg} (hs : s.HoldsAnswers) (hm : m.via = .ring) {st : Nat} (hst : st < 256) :
    (s.loadRefused m st).holdsAnswer st [] ∧ (s.loadRefused m st).localRam = s.localRam ∧
      (s.loadRefused m st).reg SWAP_STATUS = s.reg SWAP_STATUS := by
  have hue (u : State) : u.setResvUe.power = u.power ∧ u.setResvUe.localRam = u.localRam ∧ ∀ a, a ≠ GSTAT → u.setResvUe.reg a = u.reg a := by
    unfold State.setResvUe
    split
    · exact ⟨rfl, rfl, fun _ _ => rfl⟩
    · exact ⟨rfl, rfl, fun a ha => u.reg_setReg_ne _ ha⟩
  have hanswer (u : State) (hp : u.power = s.power) (hram : u.localRam = s.localRam) (hr : ∀ a, a ≠ GSTAT → u.reg a = s.reg a) :
      (u.answer m st []).holdsAnswer st [] ∧ (u.answer m st []).localRam = s.localRam ∧ (u.answer m st []).reg SWAP_STATUS = s.reg SWAP_STATUS := by
    have hu : u.HoldsAnswers := hs.of_eq (congrArg Power.phase hp) fun a ha =>
      hr a fun h => absurd (ringTransportReg_low ha).1 (by rw [h]; decide)
    have h := State.answer_answers hu hm (ws := []) hst (by decide)
    exact ⟨h.holds, (congrArg State.localRam h.kept :).trans hram, (h.reg _).trans (hr _ (by decide))⟩
  unfold State.loadRefused
  split
  · exact hanswer _ (hue s).1 (hue s).2.1 (hue s).2.2
  · exact hanswer s rfl rfl fun _ _ => rfl

/-- The load of a cluster's threads takes no time. -/
theorem State.loadThreads_time (s : State) (n : Nat) (st : Stamp) : (s.loadThreads n st).power = s.power ∧ (s.loadThreads n st).mt = s.mt := by
  have hwrites (u : State) (l : List (Nat × Word)) : (u.engineWrites l).power = u.power ∧ (u.engineWrites l).mt = u.mt := by
    obtain ⟨rs, h⟩ := u.foldl_setReg_shape (l.filter fun e => !u.wroteNow e.1)
    rw [State.engineWrites, h]
    exact ⟨rfl, rfl⟩
  have hthread (u : State) (t : Nat) : (u.loadThread n st t).power = u.power ∧ (u.loadThread n st t).mt = u.mt := by
    have hstarted (v : State) : (v.threadStarted n t).power = v.power ∧ (v.threadStarted n t).mt = v.mt := by
      obtain ⟨rs, ts, f, h⟩ := v.threadStarted_shape n t
      rw [h]
      exact ⟨rfl, rfl⟩
    unfold State.loadThread
    dsimp only
    split
    · exact ⟨(hstarted _).1.trans (hwrites _ _).1, (hstarted _).2.trans (hwrites _ _).2⟩
    · exact hwrites _ _
  rw [s.loadThreads_eq]
  exact List.foldlRecOn (motive := fun u : State => u.power = s.power ∧ u.mt = s.mt) _ _ ⟨rfl, rfl⟩
    fun u hu t _ => ⟨(hthread u t).1.trans hu.1, (hthread u t).2.trans hu.2⟩

theorem State.foldl_loadThreads_power (s : State) (st : Stamp) (l : List Nat) :
    (l.foldl (fun s n => s.loadThreads n st) s).power = s.power :=
  List.foldlRecOn (motive := fun u : State => u.power = s.power) _ _ rfl fun u hu n _ => (u.loadThreads_time n st).1.trans hu

theorem State.loadThreads_now (s : State) (n : Nat) (st : Stamp) : (s.loadThreads n st).now = s.now := by
  rw [State.now, (s.loadThreads_time n st).2, State.now]

/-- The stamp of the present tick is one and the same for all clusters. -/
theorem State.foldl_loadThreads_now (l : List Nat) {s : State} {st : Stamp} (hst : s.now = st) :
    l.foldl (fun s n => s.loadThreads n s.now) s = l.foldl (fun u n => u.loadThreads n st) s := by
  induction l generalizing s with
  | nil => rw [List.foldl_nil, List.foldl_nil]
  | cons n l ih =>
    rw [List.foldl_cons, List.foldl_cons, hst]
    exact ih ((s.loadThreads_now n st).trans hst)

/-- The recipe that the payload words `w` describe is staged. -/
def State.staged (s : State) (w : Nat → Word) : State :=
  let list := s.listEntries (w 2).toNat (w 3).toNat
  let s := { s with swap := { s.swap with list := list } }
  let s := s.setReg SWAP_STATUS (putBit (putBit (s.reg SWAP_STATUS) 31 true) 30 (bitOf (w 0) 1))
  s.setReg SWAP_MASK (w 1)

theorem State.staged_shows (s : State) (w : Nat → Word) :
    (s.staged w).bit SWAP_STATUS 31 = true ∧ (s.staged w).bit SWAP_STATUS 30 = bitOf (w 0) 1 ∧ (s.staged w).reg SWAP_MASK = w 1 ∧
      (s.staged w).swap.list = s.listEntries (w 2).toNat (w 3).toNat ∧ s.KeepsBesideSwap (s.staged w) := by
  have hstatus (u : State) (x y : Word) : ((u.setReg SWAP_STATUS x).setReg SWAP_MASK y).reg SWAP_STATUS = x :=
    (State.reg_setReg_ne _ _ (by decide)).trans (State.reg_setReg_self _ _ _)
  have hkeeps (u : State) (x y : Word) : u.KeepsBesideSwap ((u.setReg SWAP_STATUS x).setReg SWAP_MASK y) :=
    ((State.KeepsBesideSwap.refl u).setReg _ (by decide : SWAP_STATUS < 0x400)).setReg _ (by decide : SWAP_MASK < 0x400)
  have hlist (u : State) (x y : Word) : ((u.setReg SWAP_STATUS x).setReg SWAP_MASK y).swap = u.swap := rfl
  unfold State.staged
  dsimp only
  refine ⟨?_, ?_, State.reg_setReg_self _ _ _, congrArg Swap.list (hlist _ _ _), ?_⟩
  · rw [State.bit, hstatus, bitOf_putBit_ne _ _ (by decide), bitOf_putBit_self _ _ _ (by decide)]
  · rw [State.bit, hstatus, bitOf_putBit_self _ _ _ (by decide)]
  · exact ((State.KeepsBesideSwap.refl s).same (by rfl) (by rfl) (by exact fun _ => rfl)).trans (hkeeps _ _ _)

theorem namedClusters_nodup (w : Word) : (namedClusters w).Nodup := List.nodup_range.filter _

/-! ### Swaps (R323) -/

theorem State.served_eq_withThreads (s : State) : s.served = s.withThreads s.threads (s.free + 512) := rfl

/-- An arm of the command takes no account of the free stream. -/
theorem State.swapArm_served (s : State) (kci : Bool) (r : SwapArm) :
    s.served.swapArm kci r =
      ((s.swapArm kci r).1, (s.swapArm kci r).2.withThreads s.threads (s.free + 512)) := by
  rw [s.served_eq_withThreads, State.swapArm_withThreads]

/-- The response of SWAP_CTL: OK with an open word, or STATE_REFUSED with the status; SWAP_STATUS behind it. -/
theorem State.answerSwap_answers {m : Msg} {r : Nat × State} (hr : r.2.HoldsAnswers) (hm : m.via = .ring) :
    ∃ x, r.2.Answers (State.answerSwap m r) (if r.1 = 0 then 0x00 else 0x13)
      [if r.1 = 0 then x else BitVec.ofNat 32 r.1, r.2.reg SWAP_STATUS] := by
  by_cases h : r.1 = 0
  · obtain ⟨x, hx⟩ := State.answerFree_answers hr hm (status := 0x00) (ws := [r.2.reg SWAP_STATUS]) (by decide) (by simp)
    refine ⟨x, ?_⟩
    rw [if_pos h, if_pos h, State.answerSwap, if_pos h]
    exact hx
  · refine ⟨0, ?_⟩
    rw [if_neg h, if_neg h, State.answerSwap, if_neg h]
    exact State.answer_answers hr hm (by decide) (by simp)

theorem testBit_zero_of_field {w : Word} (h : bitsOf w 2 0 = 0) : bitOf w 2 = false ∧ bitsOf w 1 0 = 0 := by
  have hbit (i : Nat) (hi : i < 3) : bitOf w i = false := by
    have htest := testBit_bitsOf w 2 0 i
    rw [h, Nat.zero_testBit, decide_eq_true (by omega), Bool.true_and, Nat.zero_add] at htest
    exact htest.symm
  refine ⟨hbit 2 (by decide), Nat.eq_of_testBit_eq fun i => ?_⟩
  rw [testBit_bitsOf, Nat.zero_testBit, Nat.zero_add]
  by_cases hi : i < 2
  · exact (congrArg (decide (i < 1 + 1 - 0) && ·) (hbit i (by omega))).trans (Bool.and_false _)
  · rw [decide_eq_false (by omega), Bool.false_and]

/-- A pair of MIT_CHANGE for a mitten that neither forces nor latches is applied and answered. -/
theorem State.pairsBegin_mitCfg {s : State} (hs : s.HoldsAnswers) {m : Msg} (hm : m.via = .ring) {a v mask : Word} {j : Nat}
    (hallowed : mitChangeAddr a.toNat = true) (hreg : mitCfgReg a.toNat = some (j, mask)) (hidle : s.fld (MIT_STATUS j) 1 0 = 0)
    (hfree : s.wroteNow a.toNat = false) :
    (s.pairsBegin m false [(a, v)]).reg a.toNat = mergeWord (s.reg a.toNat) v mask ∧
      ∃ x, (s.pairsBegin m false [(a, v)]).holdsAnswer 0x00 [x, 1, 0xFFFFFFFF#32] := by
  have hcommit := State.pairsBegin_commits hfree m false v
  have hheld : s.pairHeld.fld (MIT_STATUS j) 1 0 = 0 := hidle
  rw [State.pairWrite_mitCfg hreg hallowed hheld] at hcommit
  dsimp only at hcommit
  have hnoted : (s.pairHeld.noteHost a.toNat).fld (MIT_STATUS j) 1 0 = 0 := hidle
  have hold : (s.pairHeld.noteHost a.toNat).reg a.toNat = s.reg a.toNat := rfl
  have hbefore : (s.pairHeld.noteHost a.toNat).HoldsAnswers := hs.of_eq rfl fun _ _ => rfl
  obtain ⟨hword, -, hkeeps⟩ := State.mitCfgWrite_shows (v := v) hreg hnoted
  obtain ⟨x, hanswer⟩ := State.answerPairs_answers (hbefore.of_keepsSystem hkeeps) (p := (onePair m false s.mt).took true s.mt) hm
  rw [hcommit]
  refine ⟨?_, x, hanswer.holds⟩
  rw [hanswer.reg, ← hold, ← hword]
  rfl

end Sys2Proof.Machine

namespace Sys2Proof.Proofs

open Sys2Proof.Machine Sys2Proof.Machine.Reg

/-! ### OUTPUT (R320) -/

theorem output_sets (s : State) (m : Msg) (w : Word) (rest : List Word) (h : s.servesRequest m 0x20) (hw : m.payload = w :: rest) :
    ∃ t, exec .output s = .next t ∧
      (if w.getLsbD 0 = true ∧ s.ucodeValid = false then t.bit GSTAT 2 = s.bit GSTAT 2 ∧ t.holdsAnswer 0x13 []
       else t.bit GSTAT 2 = w.getLsbD 0 ∧ t.holdsAnswer 0x00 []) := by
  have hword : s.payloadWord m 0 = w := s.payloadWord_eq (by rw [hw]; rfl)
  split
  · next hrefused =>
    have hgo : (bitOf (s.payloadWord m 0) 0 && !s.served.ucodeValid) = true := by
      have hcode : s.served.ucodeValid = false := hrefused.2
      rw [hword, hcode, bitOf, hrefused.1]
      rfl
    have hrun : s.served.output m (s.payloadWord m) = s.served.answer m 0x13 [] := if_pos hgo
    have hanswer := State.answer_answers h.served_holdsAnswers h.via (status := 0x13) (ws := []) (by decide) (by decide)
    exact ⟨_, congrArg Host.Outcome.next ((State.ponarDo_serves h rfl _).trans hrun), hanswer.bit _ _, hanswer.holds⟩
  · next hopen =>
    have hgo : ¬ (bitOf (s.payloadWord m 0) 0 && !s.served.ucodeValid) = true := by
      rw [hword, Bool.and_eq_true, Bool.not_eq_true']
      exact hopen
    have hrun : s.served.output m (s.payloadWord m) =
        ((s.served.setBit GSTAT 2 (bitOf (s.payloadWord m 0) 0)).refreshPins s.served.now).answer m 0x00 [] := if_neg hgo
    have hpads := (s.served.setBit GSTAT 2 (bitOf (s.payloadWord m 0) 0)).refreshPins_keepsSystem s.served.now
    have hset : (s.served.setBit GSTAT 2 (bitOf (s.payloadWord m 0) 0)).HoldsAnswers := h.served_holdsAnswers.of_eq rfl fun a ha =>
      State.reg_setReg_ne _ _ fun hg => absurd (ringTransportReg_low ha).1 (by rw [hg]; decide)
    have hanswer := State.answer_answers (hset.of_keepsSystem hpads) h.via (status := 0x00) (ws := []) (by decide) (by decide)
    refine ⟨_, congrArg Host.Outcome.next ((State.ponarDo_serves h rfl _).trans hrun), ?_, hanswer.holds⟩
    rw [hanswer.bit, State.bit, hpads.regs _ (.inl (by decide)), ← State.bit, State.bit_setBit_self _ _ _ _ (by decide), hword]

/-! ### PROG_LOAD (R321, R322) -/

theorem progLoad_refuses (s : State) (m : Msg) (p : Instr × Bool) (hp : p ∈ [(Instr.progLoadDirect, false), (Instr.progLoadStage, true)])
    (h : s.servesRequest m 0x21) (hmode : (s.payloadWord m 0).getLsbD 0 = p.2) (hbad : s.loadCheck m p.2 (s.payloadWord m) ≠ 0) :
    ∃ t, exec p.1 s = .next t ∧ t.holdsAnswer (s.loadCheck m p.2 (s.payloadWord m)) [] ∧ t.localRam = s.localRam ∧
      t.reg SWAP_STATUS = s.reg SWAP_STATUS := by
  have hshows := State.loadRefused_shows h.served_holdsAnswers h.via (s.loadCheck_lt m p.2 (s.payloadWord m))
  rcases List.mem_cons.1 hp with rfl | hp
  · have hrun : s.served.loadDirect m (s.payloadWord m) = s.served.loadRefused m (s.loadCheck m false (s.payloadWord m)) := if_pos hbad
    exact ⟨_, congrArg Host.Outcome.next ((State.ponarDo_serves h (by rw [bitOf, hmode]; rfl) _).trans hrun), hshows⟩
  · obtain rfl := List.mem_singleton.1 hp
    have hrun : s.served.loadStage m (s.payloadWord m) = s.served.loadRefused m (s.loadCheck m true (s.payloadWord m)) := if_pos hbad
    exact ⟨_, congrArg Host.Outcome.next ((State.ponarDo_serves h (by rw [bitOf, hmode]) _).trans hrun), hshows⟩

/-- A load in DIRECT mode: the threads of the named clusters take new contexts. -/
theorem progLoadDirect_loads (s : State) (m : Msg) (h : s.servesRequest m 0x21) (hmode : (s.payloadWord m 0).getLsbD 0 = false)
    (hgood : s.loadCheck m false (s.payloadWord m) = 0) (hfree : ∀ n h st w, ∀ e ∈ s.threadContext n h st w, s.wroteNow e.1 = false) :
    ∃ t, exec .progLoadDirect s = .next t ∧ t.holdsAnswer 0x00 [] ∧
      (∀ n ∈ namedClusters (s.payloadWord m 1), ∀ h : Nat, h < 16 →
        t.thStamp n h = s.now ∧ t.reg (TH_FLAGS n h) = 0 ∧ ∀ i : Nat, i < 16 → t.g n h i = 0) := by
  obtain ⟨ram, hram⟩ := s.served.copyImages_shape 0 (imageRefs (s.payloadWord m))
  have hfree' : ∀ a, inContext a → ((imageRefs (s.payloadWord m)).foldl (fun s r => s.copyImage 0 r) s.served).wroteNow a = false := by
    rw [hram]
    exact State.contexts_free hfree
  have hcopied : ((imageRefs (s.payloadWord m)).foldl (fun s r => s.copyImage 0 r) s.served).HoldsAnswers := by
    rw [hram]
    exact h.served_holdsAnswers.of_eq rfl fun _ _ => rfl
  have hnow : ((imageRefs (s.payloadWord m)).foldl (fun s r => s.copyImage 0 r) s.served).now = s.now := by rw [hram]; rfl
  have hrun : s.served.loadDirect m (s.payloadWord m) =
      ((namedClusters (s.payloadWord m 1)).foldl
        (fun u n => u.loadThreads n ((imageRefs (s.payloadWord m)).foldl (fun s r => s.copyImage 0 r) s.served).now)
        ((imageRefs (s.payloadWord m)).foldl (fun s r => s.copyImage 0 r) s.served)).answer m 0x00 [] := by
    rw [← State.foldl_loadThreads_now _ rfl]
    exact if_neg (not_not.2 hgood)
  generalize (imageRefs (s.payloadWord m)).foldl (fun s r => s.copyImage 0 r) s.served = u at *
  obtain ⟨hreloads, hcleared⟩ := State.foldl_loadThreads_shows u.now (namedClusters_nodup (s.payloadWord m 1)) hfree'
  have hpower := u.foldl_loadThreads_power u.now (namedClusters (s.payloadWord m 1))
  have hloaded := hcopied.of_eq (congrArg Power.phase hpower) fun a ha => hreloads.reg a (by have := (ringTransportReg_low ha).2; omega)
  have hanswer := State.answer_answers hloaded h.via (status := 0x00) (ws := []) (by decide) (by decide)
  refine ⟨_, congrArg Host.Outcome.next ((State.ponarDo_serves h (by rw [bitOf, hmode]; rfl) _).trans hrun), hanswer.holds, fun n hn t ht => ?_⟩
  obtain ⟨hstamp, hflags, hg⟩ := (hcleared n hn t ht).of_reg fun a _ => hanswer.reg a
  exact ⟨hstamp.trans hnow, hflags, hg⟩

/-- A load in STAGE mode: the images are behind, and the recipe is staged. -/
theorem progLoadStage_stages (s : State) (m : Msg) (h : s.servesRequest m 0x21) (hmode : (s.payloadWord m 0).getLsbD 0 = true)
    (hgood : s.loadCheck m true (s.payloadWord m) = 0) :
    ∃ t, exec .progLoadStage s = .next t ∧ t.holdsAnswer 0x00 [] ∧ t.bit SWAP_STATUS 31 = true ∧
      t.bit SWAP_STATUS 30 = (s.payloadWord m 0).getLsbD 1 ∧ t.reg SWAP_MASK = s.payloadWord m 1 ∧
      t.swap.list = s.listEntries (s.payloadWord m 2).toNat (s.payloadWord m 3).toNat := by
  obtain ⟨ram, hram⟩ := s.served.copyImages_shape 32768 (imageRefs (s.payloadWord m))
  have hlist : ((imageRefs (s.payloadWord m)).foldl (fun s r => s.copyImage 32768 r) s.served).listEntries (s.payloadWord m 2).toNat
      (s.payloadWord m 3).toNat = s.listEntries (s.payloadWord m 2).toNat (s.payloadWord m 3).toNat := by rw [hram]; rfl
  have hcopied : ((imageRefs (s.payloadWord m)).foldl (fun s r => s.copyImage 32768 r) s.served).HoldsAnswers := by
    rw [hram]
    exact h.served_holdsAnswers.of_eq rfl fun _ _ => rfl
  have hrun : s.served.loadStage m (s.payloadWord m) =
      (((imageRefs (s.payloadWord m)).foldl (fun s r => s.copyImage 32768 r) s.served).staged (s.payloadWord m)).answer m 0x00 [] :=
    if_neg (not_not.2 hgood)
  generalize (imageRefs (s.payloadWord m)).foldl (fun s r => s.copyImage 32768 r) s.served = u at *
  obtain ⟨h31, h30, hmask, hswap, hkeeps⟩ := u.staged_shows (s.payloadWord m)
  have hanswer := State.answer_answers (hcopied.of_keepsBesideSwap hkeeps) h.via (status := 0x00) (ws := []) (by decide) (by decide)
  refine ⟨_, congrArg Host.Outcome.next ((State.ponarDo_serves h (by rw [bitOf, hmode]) _).trans hrun), hanswer.holds,
    (hanswer.bit _ _).trans h31, (hanswer.bit _ _).trans h30, (hanswer.reg _).trans hmask, ?_⟩
  rw [hanswer.swap, hswap, hlist]

/-! ### SWAP_CTL (R323) -/

section
variable {s : State} {m : Msg} (h : s.servesRequest m 0x22)
include h

/-- SWAP_CTL with ARM. -/
theorem exec_swapCtlArm (hop : bitsOf (s.payloadWord m 0) 1 0 = 0) :
    let r := s.swapArm false (swapRequest (s.payloadWord m))
    ∃ t x, exec .swapCtlArm s = .next t ∧
      t.holdsAnswer (if r.1 = 0 then 0x00 else 0x13) [if r.1 = 0 then x else BitVec.ofNat 32 r.1, r.2.reg SWAP_STATUS] ∧
      t.swap = r.2.swap ∧ ∀ a, t.reg a = r.2.reg a := by
  intro r
  have hkeeps : s.KeepsBesideSwap (r.2.withThreads s.threads (s.free + 512)) :=
    (s.swapArm_keepsBesideSwap false (swapRequest (s.payloadWord m))).same rfl rfl fun _ => rfl
  have harmed : (s.served.swapArm false (swapRequest (s.payloadWord m))).2.HoldsAnswers := by
    rw [s.swapArm_served]
    exact h.holdsAnswers.of_keepsBesideSwap hkeeps
  obtain ⟨x, hanswer⟩ := State.answerSwap_answers harmed h.via
  rw [s.swapArm_served] at hanswer
  refine ⟨_, x, congrArg Host.Outcome.next (State.ponarDo_serves h (by rw [hop]; rfl) _), ?_⟩
  rw [State.swapCtlArm, s.swapArm_served]
  exact ⟨hanswer.holds, hanswer.swap, hanswer.reg⟩

/-- An arm while a swap is armed, or with none staged. -/
theorem swapCtlArm_refuses (hop : bitsOf (s.payloadWord m 0) 1 0 = 0) (hstate : s.swapArmed = true ∨ s.bit SWAP_STATUS 31 = false) :
    ∃ t, exec .swapCtlArm s = .next t ∧
      t.holdsAnswer 0x13 [if s.swapArmed = true then 0xE else 0xC, s.reg SWAP_STATUS] ∧ t.reg SWAP_STATUS = s.reg SWAP_STATUS := by
  have hcheck : s.armCheck false (swapRequest (s.payloadWord m)) = if s.swapArmed = true then 0xE else 0xC := by
    unfold State.armCheck
    by_cases ha : s.swapArmed = true
    · rw [if_pos ha, if_pos ha]
    · rw [if_neg ha, if_neg ha, if_pos (by rw [hstate.resolve_left ha]; rfl)]
  have harm : s.swapArm false (swapRequest (s.payloadWord m)) = (if s.swapArmed = true then 0xE else 0xC, s) := by
    rw [State.swapArm_eq, hcheck, if_pos (by split <;> decide)]
  obtain ⟨t, x, hexec, hholds, -, hreg⟩ := exec_swapCtlArm h hop
  rw [harm] at hholds hreg
  refine ⟨t, hexec, ?_, hreg _⟩
  by_cases ha : s.swapArmed = true
  · rw [if_pos ha] at hholds ⊢
    exact hholds
  · rw [if_neg ha] at hholds ⊢
    exact hholds

/-- An arm by time with F ahead. -/
theorem swapCtlArm_byTime (hop : bitsOf (s.payloadWord m 0) 2 0 = 0) (harmed : s.swapArmed = false) (hstaged : s.bit SWAP_STATUS 31 = true) :
    let tick := s.tickFor (ofWords (s.payloadWord m 2) (s.payloadWord m 1) + 63)
    0 < ahead (tick - 256) s.mt →
    ∃ t x, exec .swapCtlArm s = .next t ∧ t.swapArmed = true ∧ t.swap.tTick = tick ∧ t.swap.fTick = tick - 256 ∧
      t.holdsAnswer 0x00 [x, t.reg SWAP_STATUS] := by
  intro tick hahead
  obtain ⟨hangle, hop'⟩ := testBit_zero_of_field hop
  have hcheck : s.armCheck false (swapRequest (s.payloadWord m)) = 0 := by
    have hang : (swapRequest (s.payloadWord m)).angle = false := hangle
    rw [State.armCheck, harmed, hstaged, hang]
    rfl
  have hkeyed : s.armKeyed (swapRequest (s.payloadWord m)) =
      (s.swapSet (swapRequest (s.payloadWord m))).swapKey (ofWords (s.payloadWord m 2) (s.payloadWord m 1)) :=
    if_neg (Bool.eq_false_iff.1 hangle)
  obtain ⟨harm29, -, -, -, hmt⟩ := s.swapSet_shows (swapRequest (s.payloadWord m))
  have hkey := State.swapKey_shows (s := s.swapSet (swapRequest (s.payloadWord m))) (ofWords (s.payloadWord m 2) (s.payloadWord m 1)) harm29
  dsimp only at hkey
  have hfor : (s.swapSet (swapRequest (s.payloadWord m))).tickFor (ofWords (s.payloadWord m 2) (s.payloadWord m 1) + 63) = tick := rfl
  rw [hfor, hmt, if_pos hahead, ← hkeyed] at hkey
  obtain ⟨hon, hf, ht, -, -⟩ := hkey
  have harm : s.swapArm false (swapRequest (s.payloadWord m)) = (0, s.armKeyed (swapRequest (s.payloadWord m))) := by
    rw [State.swapArm_eq, hcheck, if_neg (by decide), if_pos hon]
  obtain ⟨t, x, hexec, hholds, hswap, hreg⟩ := exec_swapCtlArm h hop'
  rw [harm] at hholds hswap hreg
  dsimp only at hholds hswap hreg
  rw [if_pos rfl, if_pos rfl, ← hreg] at hholds
  refine ⟨t, x, hexec, ?_, by rw [hswap, ht], by rw [hswap, hf], hholds⟩
  rw [State.swapArmed, State.bit, hreg]
  exact hon

theorem swapCtlArm_arms (hop : bitsOf (s.payloadWord m 0) 1 0 = 0) :
    let r := s.swapArm false (swapRequest (s.payloadWord m))
    ∃ t, exec .swapCtlArm s = .next t ∧ t.hg.serving = none ∧ t.swap = r.2.swap ∧ t.reg SWAP_STATUS = r.2.reg SWAP_STATUS := by
  obtain ⟨t, x, hexec, hholds, hswap, hreg⟩ := exec_swapCtlArm h hop
  exact ⟨t, hexec, hholds.1, hswap, hreg _⟩

/-- DISARM ends a swap that is not FIXED. -/
theorem swapCtlDisarm_ends (hop : bitsOf (s.payloadWord m 0) 1 0 = 1) (harmed : s.swapArmed = true) (hfixed : s.swapFixed = false) :
    ∃ t, exec .swapCtlDisarm s = .next t ∧ t.swapArmed = false ∧ t.fld SWAP_STATUS 3 0 = 5 ∧ t.hg.serving = none := by
  have hdisarm : s.served.swapDisarm = (0x0, s.served.swapEnd 5) :=
    (if_neg (Bool.eq_false_iff.1 hfixed)).trans (if_pos harmed)
  obtain ⟨hoff, houtcome, -⟩ := s.served.swapEnd_shows 5
  have hended : (s.served.swapDisarm).2.HoldsAnswers := by
    rw [hdisarm]
    exact h.served_holdsAnswers.of_keepsBesideSwap (s.served.swapEnd_keepsBesideSwap 5)
  obtain ⟨x, hanswer⟩ := State.answerSwap_answers hended h.via
  refine ⟨_, congrArg Host.Outcome.next (State.ponarDo_serves h (by rw [hop]; rfl) _), (hanswer.bit _ _).trans ?_, (hanswer.fld _ _ _).trans ?_, hanswer.serving⟩
  · rw [hdisarm]; exact hoff
  · rw [hdisarm]; exact houtcome

/-- QUERY gives SWAP_STATUS. -/
theorem swapCtlQuery_answers (hop : bitsOf (s.payloadWord m 0) 1 0 = 2) :
    ∃ t x, exec .swapCtlQuery s = .next t ∧ t.holdsAnswer 0x00 [x, s.reg SWAP_STATUS] ∧ t.swap = s.swap := by
  have hrun : s.served.swapCtlQuery m (s.payloadWord m) = s.served.answerFree m 0x00 [s.served.reg SWAP_STATUS] :=
    (if_neg (by rw [hop]; decide)).trans (if_pos rfl)
  obtain ⟨x, hanswer⟩ := State.answerFree_answers h.served_holdsAnswers h.via (status := 0x00) (ws := [s.served.reg SWAP_STATUS]) (by decide)
    (by simp)
  exact ⟨_, x, congrArg Host.Outcome.next ((State.ponarDo_serves h (by rw [hop]; rfl) _).trans hrun), hanswer.holds, hanswer.swap⟩

end

/-! ### MIT_CHANGE and MIT_CLEAR (R324) -/

section
variable {s : State} {m : Msg}

/-- An address that MIT_CHANGE may not name. -/
theorem mitChange_refuses {a v : Word} (h : s.servesRequest m 0x23) (hw : m.payload = [a, v]) (hlen : m.len = 8)
    (hbad : mitChangeAddr a.toNat = false) :
    ∃ t, exec .mitChange s = .next t ∧ t.holdsAnswer 0x12 [] ∧ t.regs = s.regs := by
  have ha : s.payloadWord m 0 = a := s.payloadWord_eq (by rw [hw]; rfl)
  have hany : (pairList m (s.payloadWord m)).any (fun e => !mitChangeAddr e.1.toNat) = true := by
    rw [pairList_one hlen, ha, List.any_cons, hbad]
    rfl
  have hrun : s.served.mitChange m (s.payloadWord m) = s.served.answer m 0x12 [] := if_pos hany
  have hanswer := State.answer_answers h.served_holdsAnswers h.via (status := 0x12) (ws := []) (by decide) (by decide)
  exact ⟨_, congrArg Host.Outcome.next ((State.ponarDo_serves h rfl _).trans hrun), hanswer.holds, hanswer.regs⟩

/-- A pair for a mitten that neither forces nor latches is applied. -/
theorem mitChange_applies {a v mask : Word} {j : Nat} (h : s.servesRequest m 0x23) (hw : m.payload = [a, v]) (hlen : m.len = 8)
    (hallowed : mitChangeAddr a.toNat = true) (hreg : mitCfgReg a.toNat = some (j, mask)) (hidle : s.fld (MIT_STATUS j) 1 0 = 0)
    (hfree : s.wroteNow a.toNat = false) :
    ∃ t x, exec .mitChange s = .next t ∧ t.reg a.toNat = mergeWord (s.reg a.toNat) v mask ∧ t.holdsAnswer 0x00 [x, 1, 0xFFFFFFFF#32] := by
  have ha : s.payloadWord m 0 = a := s.payloadWord_eq (by rw [hw]; rfl)
  have hv : s.payloadWord m 1 = v := s.payloadWord_eq (by rw [hw]; rfl)
  have hnone : ¬ (pairList m (s.payloadWord m)).any (fun e => !mitChangeAddr e.1.toNat) = true := by
    rw [pairList_one hlen, ha, List.any_cons, hallowed]
    decide
  have hrun : s.served.mitChange m (s.payloadWord m) = s.served.pairsBegin m false [(a, v)] := by
    have hgo : s.served.mitChange m (s.payloadWord m) = s.served.pairsBegin m false (pairList m (s.payloadWord m)) := if_neg hnone
    rw [hgo, pairList_one hlen, ha, hv]
  obtain ⟨hword, x, hholds⟩ := State.pairsBegin_mitCfg (v := v) h.served_holdsAnswers h.via hallowed hreg hidle hfree
  exact ⟨_, x, congrArg Host.Outcome.next ((State.ponarDo_serves h rfl _).trans hrun), hword, hholds⟩

/-- Each mitten that MIT_CLEAR names takes its outcome. -/
theorem mitClear_clears {w : Word} {rest : List Word} (h : s.servesRequest m 0x24) (hw : m.payload = w :: rest) :
    ∃ t, exec .mitClear s = .next t ∧ t.hg.serving = none ∧
      ∀ i : Nat, i < 32 →
        (w.getLsbD i = true → s.bit (MIT_STATUS i) 1 = false → t.fld (MIT_STATUS i) 7 6 = 3) ∧
        (w.getLsbD i = true → s.bit (MIT_STATUS i) 1 = true → s.anyActive i = false →
          t.bit (MIT_STATUS i) 1 = false ∧ t.fld (MIT_STATUS i) 7 6 = 0) ∧
        (w.getLsbD i = false → t.reg (MIT_STATUS i) = s.reg (MIT_STATUS i)) := by
  have hword : s.payloadWord m 0 = w := s.payloadWord_eq (by rw [hw]; rfl)
  obtain ⟨hthese, -, hkeeps⟩ := s.served.clearMittens_shows w (Nat.le_refl 32)
  have hrun : s.served.mitClear m (s.payloadWord m) = (s.served.clearMittens w 32).answerFree m 0x00
      [loWord (s.served.clearMittens w 32).clrResults, hiWord (s.served.clearMittens w 32).clrResults] := by
    unfold State.mitClear
    rw [hword]
    rfl
  obtain ⟨x, hanswer⟩ := State.answerFree_answers (h.served_holdsAnswers.of_keepsSystem hkeeps) h.via (status := 0x00)
    (ws := [loWord (s.served.clearMittens w 32).clrResults, hiWord (s.served.clearMittens w 32).clrResults]) (by decide) (by simp)
  refine ⟨_, congrArg Host.Outcome.next ((State.ponarDo_serves h rfl _).trans hrun), hanswer.serving, fun i hi => ?_⟩
  obtain ⟨hunlatched, hcleared⟩ := s.clearWord_authenticated i
  simp only [State.fld, State.bit, hanswer.reg, hthese i hi]
  refine ⟨fun hbit h1 => ?_, fun hbit h1 hidle => ?_, fun hbit => ?_⟩
  · rw [if_pos hbit]
    exact hunlatched h1
  · rw [if_pos hbit]
    exact hcleared h1 hidle
  · exact if_neg (Bool.eq_false_iff.1 hbit)

end

/-- Settles O50: each authenticated command on its request. -/
theorem criticalCommandsAct : Obligations.CriticalCommandsAct := by
  unfold Obligations.CriticalCommandsAct
  exact ⟨fun s m w rest _ h => output_sets s m w rest h, fun s m p hp _ h => progLoad_refuses s m p hp h,
    fun s m _ h => progLoadDirect_loads s m h, fun s m _ h => progLoadStage_stages s m h, fun s m _ h => swapCtlArm_refuses h,
    fun s m _ h => swapCtlArm_byTime h, fun s m _ h => swapCtlArm_arms h, fun s m _ h => swapCtlDisarm_ends h,
    fun s m _ h => swapCtlQuery_answers h, fun s m a v _ h => mitChange_refuses h, fun s m a v mask j _ h => mitChange_applies h,
    fun s m w rest _ h => mitClear_clears h⟩

end Sys2Proof.Proofs
end

section
/-!
PROOFS. The Ethernet ports (R327, R328, R336): configuration, links, frames that wait for the wire, and frames that are received.
-/

namespace Sys2Proof.Machine

open Reg

/-! ### Frames that wait for the wire (R336) -/

theorem State.vlanTag_congr {s u : State} {p : Nat} (h : u.reg (VLAN_CFG p) = s.reg (VLAN_CFG p)) (cls : TxClass) :
    u.vlanTag p cls = s.vlanTag p cls := by rw [State.vlanTag, h]; rfl

theorem State.port_sendFrame (s : State) (p : Nat) (cls : TxClass) (f : Frame) :
    (s.sendFrame p cls f).port p = { s.port p with tx := (s.port p).tx ++ [{ cls := cls, vlan := s.vlanTag p cls, frame := f }] } :=
  s.port_setPort_self _ _

/-- The frame that leaves next is one that waits, of the highest precedence. -/
theorem nextFrame_first (l : List TxFrame) (f : TxFrame) (h : nextFrame l = some f) : f ∈ l ∧ ∀ g ∈ l, f.cls.rank ≤ g.cls.rank := by
  induction l generalizing f with
  | nil => cases h
  | cons x l ih =>
    rw [nextFrame] at h
    cases hl : nextFrame l with
    | none =>
      have hempty : l = [] := by
        cases l with
        | nil => rfl
        | cons y l =>
          rw [nextFrame] at hl
          split at hl
          · split at hl <;> cases hl
          · cases hl
      rw [hl] at h
      cases h
      rw [hempty]
      exact ⟨List.mem_cons_self, fun g hg => by rw [List.mem_singleton.1 hg]⟩
    | some y =>
      obtain ⟨hy, hfirst⟩ := ih y hl
      rw [hl] at h
      dsimp only at h
      split at h
      · next hlt =>
        cases h
        refine ⟨List.mem_cons_of_mem _ hy, fun g hg => ?_⟩
        rcases List.mem_cons.1 hg with rfl | hg
        · exact Nat.le_of_lt hlt
        · exact hfirst g hg
      · next hle =>
        cases h
        refine ⟨List.mem_cons_self, fun g hg => ?_⟩
        rcases List.mem_cons.1 hg with rfl | hg
        · exact Nat.le_refl _
        · exact (Nat.not_lt.1 hle).trans (hfirst g hg)

/-- The port as frame `f` leaves it, before what its departure brings. -/
def State.frameSent (s : State) (p : Nat) (f : TxFrame) : State :=
  (s.setPort p { s.port p with tx := (s.port p).tx.erase f, txFree := s.mt + BitVec.ofNat 64 f.ticks }).send (.frame p f.vlan f.frame)

theorem State.portSend_sends {s : State} {p : Nat} {f : TxFrame} (hf : nextFrame (s.port p).tx = some f) (hup : s.portUp p = true)
    (hfree : s.reached (s.port p).txFree = true) : s.portSend p = (s.frameSent p f).frameLeft p f.frame := by
  rw [State.portSend, hf]
  exact if_pos (by rw [hup, hfree]; rfl)

theorem State.portSend_waits {s : State} {p : Nat} {f : TxFrame} (hf : nextFrame (s.port p).tx = some f)
    (h : s.portUp p = false ∨ s.reached (s.port p).txFree = false) : s.portSend p = s := by
  rw [State.portSend, hf]
  refine if_neg ?_
  rcases h with h | h <;> simp [h]

/-- What a departure brings sends nothing itself, and lets what waits wait. -/
theorem State.frameLeft_shows (s : State) (p : Nat) (f : Frame) :
    (s.frameLeft p f).sent = s.sent ∧ ((s.frameLeft p f).port p).txFree = (s.port p).txFree ∧
      ∀ g ∈ (s.port p).tx, g ∈ ((s.frameLeft p f).port p).tx := by
  have hframe (c : TxClass) (x : Frame) : (s.sendFrame p c x).sent = s.sent ∧ ((s.sendFrame p c x).port p).txFree = (s.port p).txFree ∧
      ∀ g ∈ (s.port p).tx, g ∈ ((s.sendFrame p c x).port p).tx := by
    rw [s.port_sendFrame]
    exact ⟨rfl, rfl, fun g hg => List.mem_append_left _ hg⟩
  unfold State.frameLeft
  split
  · exact hframe _ _
  · rw [State.port_setPort_self]
    exact ⟨rfl, rfl, fun g hg => hg⟩
  · exact hframe _ _
  · exact ⟨rfl, rfl, fun g hg => hg⟩

/-! ### Received frames (R327, R328) -/

theorem State.receive_bad {s : State} {p : Nat} {f : RxFrame} (hup : s.portUp p = true)
    (hf : f.fcsOk = false ∨ 1522 < f.length.toNat ∨ 1 < f.tags.toNat) (ip : Bool) (g : State → State) :
    s.receive p f ip g = s.satCount (RX_DISCARD p) := by
  have hbad : (!f.fcsOk || decide (1522 < f.length.toNat) || decide (1 < f.tags.toNat)) = true := by
    rcases hf with h | h | h <;> simp [h]
  rw [State.receive, if_neg (by rw [hup]; decide), if_pos hbad]
  rfl

theorem State.receiveUdp_bad {s : State} {p : Nat} {f : RxFrame} (hup : s.portUp p = true)
    (hf : f.fcsOk = false ∨ 1522 < f.length.toNat ∨ 1 < f.tags.toNat) (own : Nat) (g : State → State) :
    s.receiveUdp p f own g = s.satCount (RX_DISCARD p) := State.receive_bad hup hf true _

/-- A datagram for the service that its UDP port names. -/
theorem State.receiveUdp_served {s : State} {p : Nat} {f : RxFrame} {own : Nat} (hup : s.portUp p = true) (hf : f.brings own)
    (hs : s.servesUdp p f.udpPort = true) (g : State → State) : s.receiveUdp p f own g = g s := by
  obtain ⟨hsound, hip, hport⟩ := hf
  rw [State.receiveUdp, State.receive_sound hup hsound hip, if_neg (by rw [hs]; decide), if_pos hport]

/-- A datagram for a service that the port does not have. -/
theorem State.receiveUdp_unserved {s : State} {p : Nat} {f : RxFrame} {own : Nat} (hup : s.portUp p = true) (hf : f.brings own)
    {g : State → State} (hg : g s = s.satCount (RX_DISCARD p)) : s.receiveUdp p f own g = s.satCount (RX_DISCARD p) := by
  obtain ⟨hsound, hip, hport⟩ := hf
  rw [State.receiveUdp, State.receive_sound hup hsound hip, if_pos hport, hg]
  exact ite_self _

theorem State.servesUdp_announcements {s : State} {p : Nat} {u : BitVec 16} (hu : u.toNat = s.fld (UDP_PORTS p) 31 16) :
    s.servesUdp p u = true := by
  rw [State.servesUdp, hu, beq_self_eq_true, Bool.or_true]
  rfl

theorem State.servesUdp_user {s : State} {p : Nat} {u : BitVec 16} (hon : s.bit (PORT_CTRL p) 6 = true)
    (hu : u.toNat = s.fld (USER_CFG p) 31 16) : s.servesUdp p u = true := by
  rw [State.servesUdp, hon, hu, beq_self_eq_true]
  exact Bool.or_true _

/-! ### Resolved addresses (R328) -/

/-- The port with address `ip` resolved, before the datagrams that waited for it leave. -/
def State.addressKnown (s : State) (p : Nat) (ip : Word) (mac : BitVec 48) : State :=
  s.setPort p { s.port p with arp := ((ip, mac) :: (s.port p).arp.filter (fun e => e.1 ≠ ip)).take 16,
                              waiting := (s.port p).waiting.filter (fun (d : Datagram) => d.ip != ip) }

theorem State.resolved_eq (s : State) (p : Nat) (ip : Word) (mac : BitVec 48) :
    s.resolved p ip mac = ((s.port p).waiting.filter (fun (d : Datagram) => d.ip == ip)).foldl (fun s (d : Datagram) => s.sendTo p mac d)
      (s.addressKnown p ip mac) := rfl

/-- Datagrams that leave change what waits for the wire alone. -/
theorem State.sendTo_arp (l : List Datagram) (s : State) (p : Nat) (mac : BitVec 48) :
    ((l.foldl (fun s (d : Datagram) => s.sendTo p mac d) s).port p).arp = (s.port p).arp := by
  induction l generalizing s with
  | nil => rfl
  | cons d l ih =>
    refine (ih (s.sendTo p mac d)).trans ?_
    rw [State.sendTo, State.port_sendFrame]

theorem State.arp_resolved (s : State) (p : Nat) (ip : Word) (mac : BitVec 48) : ((s.resolved p ip mac).port p).arp.lookup ip = some mac := by
  rw [s.resolved_eq, State.sendTo_arp, State.addressKnown, State.port_setPort_self]
  simp

/-- With no datagram that waits, none leaves. -/
theorem State.tx_resolved_none {s : State} {p : Nat} (h : (s.port p).waiting = []) (ip : Word) (mac : BitVec 48) :
    ((s.resolved p ip mac).port p).tx = (s.port p).tx := by
  rw [s.resolved_eq, h, List.filter_nil, List.foldl_nil, State.addressKnown, State.port_setPort_self]

/-- The only datagram that waits, and for this address, leaves. -/
theorem State.resolved_one {s : State} {p : Nat} {d : Datagram} (h : (s.port p).waiting = [d]) {ip : Word} (hd : d.ip = ip) (mac : BitVec 48) :
    ((s.resolved p ip mac).port p).waiting = [] ∧
      ((s.resolved p ip mac).port p).tx =
        (s.port p).tx ++ [{ cls := d.cls, vlan := s.vlanTag p d.cls, frame := .udp ip mac d.port d.words }] := by
  have hout : (s.port p).waiting.filter (fun (d : Datagram) => d.ip == ip) = [d] := by rw [h]; simp [hd]
  have hrest : ((s.addressKnown p ip mac).port p).waiting = [] := by
    rw [State.addressKnown, State.port_setPort_self, h]
    simp [hd]
  have htx : ((s.addressKnown p ip mac).port p).tx = (s.port p).tx := by rw [State.addressKnown, State.port_setPort_self]
  rw [s.resolved_eq, hout, List.foldl_cons, List.foldl_nil, State.sendTo, State.port_sendFrame, htx, hd]
  exact ⟨hrest, rfl⟩

end Sys2Proof.Machine
end

section
/-!
PROOFS. The peers of a port (R334, R335): what the rules of the peer table write, entry by entry.
-/

namespace Sys2Proof.Machine

open Reg

/-- Eight words from `b` on are cleared. -/
theorem State.clearWords_shows (s : State) (b n : Nat) :
    (∀ i < n, (foldBelow n (fun s i => s.setReg (b + 4 * i) 0) s).reg (b + 4 * i) = 0) ∧
      ∀ a, a < b ∨ b + 4 * n ≤ a → (foldBelow n (fun s i => s.setReg (b + 4 * i) 0) s).reg a = s.reg a := by
  induction n with
  | zero => exact ⟨fun i hi => absurd hi (Nat.not_lt_zero i), fun _ _ => rfl⟩
  | succ n ih =>
    obtain ⟨hthese, hothers⟩ := ih
    rw [foldBelow_succ]
    refine ⟨fun i hi => ?_, fun a ha => ?_⟩
    · by_cases hin : i = n
      · rw [hin, State.reg_setReg_self]
      · rw [State.reg_setReg_ne _ _ (by omega), hthese i (by omega)]
    · rw [State.reg_setReg_ne _ _ (by omega), hothers a (by omega)]

/-- An address outside entry `e` of port `p`. -/
def besidePeer (p e a : Nat) : Prop := a < PEER_INFO p e ∨ PEER_INFO p e + 0x20 ≤ a

section
variable (s : State) (p e : Nat)

theorem State.clearPeer_shows :
    (∀ i < 8, (s.clearPeer p e).reg (PEER_INFO p e + 4 * i) = 0) ∧
      ∀ a, besidePeer p e a → (s.clearPeer p e).reg a = s.reg a := by
  have hset (u : State) (c : Port) (a : Nat) : (u.setPort p c).reg a = u.reg a := rfl
  obtain ⟨hthese, hothers⟩ := s.clearWords_shows (PEER_INFO p e) 8
  exact ⟨fun i hi => (hset _ _ _).trans (hthese i hi), fun a ha => (hset _ _ _).trans (hothers a ha)⟩

/-- What an entry is freed to, when neither DEV nor SESS is set. -/
theorem State.freePeer_shows :
    (s.freePeer p e).reg (PEER_INFO p e) = (if s.peerUsed p e = true then s.reg (PEER_INFO p e) else 0) ∧
      ∀ a, besidePeer p e a → (s.freePeer p e).reg a = s.reg a := by
  unfold State.freePeer
  split
  · exact ⟨rfl, fun _ _ => rfl⟩
  · exact ⟨(s.clearPeer_shows p e).1 0 (by decide), (s.clearPeer_shows p e).2⟩

theorem State.closeSession_shows :
    (s.closeSession p e).bit (PEER_INFO p e) 30 = false ∧ (s.closeSession p e).fld (PEER_INFO p e) 3 0 = 0 ∧
      (s.closeSession p e).bit (PEER_INFO p e) 31 = s.bit (PEER_INFO p e) 31 ∧
      ∀ a, a ≠ PEER_INFO p e → (s.closeSession p e).reg a = s.reg a := by
  have hword : (s.closeSession p e).reg (PEER_INFO p e) = setBits (putBit (s.reg (PEER_INFO p e)) 30 false) 3 0 0 := by
    rw [State.closeSession, State.setFld, State.reg_setReg_self, State.setBit, State.reg_setReg_self]
  rw [State.bit, State.fld, State.bit, hword]
  refine ⟨?_, ?_, ?_, fun a ha => ?_⟩
  · rw [bitOf_setBits_ne _ _ _ _ _ (by decide), bitOf_putBit_self _ _ _ (by decide)]
  · rw [bitsOf_setBits_self _ _ _ _ (by decide)]
    rfl
  · rw [bitOf_setBits_ne _ _ _ _ _ (by decide), bitOf_putBit_ne _ _ (by decide)]
    rfl
  · rw [State.closeSession, State.setFld, State.reg_setReg_ne _ _ ha, State.setBit, State.reg_setReg_ne _ _ ha]

theorem State.peerChange_shows :
    (s.peerChange p).bit (PORT_STATUS p) 2 = true ∧ ∀ a, a ≠ PORT_STATUS p → (s.peerChange p).reg a = s.reg a := by
  have hevent (u : State) (a : Nat) : (u.portEvent p).reg a = u.reg a := rfl
  refine ⟨?_, fun a ha => (hevent _ a).trans (s.reg_setReg_ne _ ha)⟩
  rw [State.bit, State.peerChange, hevent]
  exact s.bit_raise_self (PORT_STATUS p) (by decide)

/-- The entry with the key of a new peer. -/
def State.peerKeyed (ip : Word) (udp : BitVec 16) (flag : Nat) : State :=
  (((s.clearPeer p e).setBit (PEER_INFO p e) flag true).setReg (PEER_IP p e) ip).setReg (PEER_UDP p e) (udp.zeroExtend 32)

theorem State.newPeer_eq {s : State} {p e : Nat} (h : (List.range 32).find? (fun e => !s.peerUsed p e) = some e) (ip : Word)
    (udp : BitVec 16) (flag : Nat) : s.newPeer p ip udp flag = some (e, s.peerKeyed p e ip udp flag) := by
  rw [State.newPeer, h]
  rfl

theorem peer_words (p e : Nat) :
    PEER_IP p e ≠ PEER_INFO p e ∧ PEER_UDP p e ≠ PEER_INFO p e ∧ PEER_IP p e ≠ PEER_UDP p e ∧
      ¬ besidePeer p e (PEER_IP p e) ∧ ¬ besidePeer p e (PEER_UDP p e) ∧ ¬ besidePeer p e (PEER_INFO p e) := by
  unfold besidePeer PEER_IP PEER_UDP PEER_INFO
  omega

theorem State.peerKeyed_shows (ip : Word) (udp : BitVec 16) :
    (s.peerKeyed p e ip udp 31).reg (PEER_INFO p e) = putBit 0 31 true ∧ (s.peerKeyed p e ip udp 31).reg (PEER_IP p e) = ip ∧
      (s.peerKeyed p e ip udp 31).reg (PEER_UDP p e) = udp.zeroExtend 32 ∧
      ∀ a, besidePeer p e a → (s.peerKeyed p e ip udp 31).reg a = s.reg a := by
  obtain ⟨hip, hudp, hne, hip', hudp', hinfo'⟩ := peer_words p e
  obtain ⟨hzero, hothers⟩ := s.clearPeer_shows p e
  have hclear : (s.clearPeer p e).reg (PEER_INFO p e) = 0 := hzero 0 (by decide)
  refine ⟨?_, ?_, State.reg_setReg_self _ _ _, fun a ha => ?_⟩
  · rw [State.peerKeyed, State.reg_setReg_ne _ _ hudp.symm, State.reg_setReg_ne _ _ hip.symm, State.setBit, State.reg_setReg_self, hclear]
  · rw [State.peerKeyed, State.reg_setReg_ne _ _ hne, State.reg_setReg_self]
  · have hne' {b : Nat} (hb : ¬ besidePeer p e b) : a ≠ b := fun h => hb (h ▸ ha)
    rw [State.peerKeyed, State.reg_setReg_ne _ _ (hne' hudp'), State.reg_setReg_ne _ _ (hne' hip'), State.setBit,
      State.reg_setReg_ne _ _ (hne' hinfo'), hothers a ha]

end

/-- A new peer is noted, counted and reported. -/
def State.peerAdded (s : State) (p e : Nat) (w : Nat → Word) : State := ((s.notePeer p e w).satCount (PEER_NEW_CNT p)).peerChange p

theorem State.notePeer_shows (s : State) (p e : Nat) (w : Nat → Word) :
    (s.notePeer p e w).bit (PEER_INFO p e) 31 = true ∧ (s.notePeer p e w).bit (PEER_INFO p e) 30 = s.bit (PEER_INFO p e) 30 ∧
      (s.notePeer p e w).reg (PEER_ID_LO p e) = w 4 ∧ (s.notePeer p e w).reg (PEER_IP p e) = s.reg (PEER_IP p e) ∧
      (s.notePeer p e w).reg (PEER_UDP p e) = s.reg (PEER_UDP p e) ∧
      ∀ a, besidePeer p e a → (s.notePeer p e w).reg a = s.reg a := by
  have hne : ∀ a, besidePeer p e a → a ≠ PEER_INFO p e ∧ a ≠ PEER_ID_LO p e ∧ a ≠ PEER_ID_HI p e ∧ a ≠ PEER_PART p e ∧ a ≠ PEER_UCODE p e := by
    unfold besidePeer PEER_INFO PEER_ID_LO PEER_ID_HI PEER_PART PEER_UCODE
    omega
  have hreg {a : Nat} (h1 : a ≠ PEER_ID_LO p e) (h2 : a ≠ PEER_ID_HI p e) (h3 : a ≠ PEER_PART p e) (h4 : a ≠ PEER_UCODE p e) :
      (s.notePeer p e w).reg a = (s.setReg (PEER_INFO p e)
        (setBits (putBit (putBit (s.reg (PEER_INFO p e)) 31 true) 8 (bitOf (w 9) 8)) 18 16 (bitsOf (w 9) 2 0))).reg a := by
    rw [State.notePeer, State.reg_setPort, State.reg_setReg_ne _ _ h4, State.reg_setReg_ne _ _ h3, State.reg_setReg_ne _ _ h2,
      State.reg_setReg_ne _ _ h1]
  have hinfo : (s.notePeer p e w).reg (PEER_INFO p e) =
      setBits (putBit (putBit (s.reg (PEER_INFO p e)) 31 true) 8 (bitOf (w 9) 8)) 18 16 (bitsOf (w 9) 2 0) := by
    rw [hreg (by unfold PEER_INFO PEER_ID_LO; omega) (by unfold PEER_INFO PEER_ID_HI; omega) (by unfold PEER_INFO PEER_PART; omega)
      (by unfold PEER_INFO PEER_UCODE; omega), State.reg_setReg_self]
  refine ⟨?_, ?_, ?_, ?_, ?_, fun a ha => ?_⟩
  · rw [State.bit, hinfo, bitOf_setBits_ne _ _ _ _ _ (by decide), bitOf_putBit_ne _ _ (by decide), bitOf_putBit_self _ _ _ (by decide)]
  · rw [State.bit, hinfo, bitOf_setBits_ne _ _ _ _ _ (by decide), bitOf_putBit_ne _ _ (by decide), bitOf_putBit_ne _ _ (by decide)]
    rfl
  · rw [State.notePeer, State.reg_setPort, State.reg_setReg_ne _ _ (by unfold PEER_ID_LO PEER_UCODE; omega),
      State.reg_setReg_ne _ _ (by unfold PEER_ID_LO PEER_PART; omega), State.reg_setReg_ne _ _ (by unfold PEER_ID_LO PEER_ID_HI; omega),
      State.reg_setReg_self]
  · rw [hreg (by unfold PEER_IP PEER_ID_LO; omega) (by unfold PEER_IP PEER_ID_HI; omega) (by unfold PEER_IP PEER_PART; omega)
      (by unfold PEER_IP PEER_UCODE; omega), State.reg_setReg_ne _ _ (by unfold PEER_IP PEER_INFO; omega)]
  · rw [hreg (by unfold PEER_UDP PEER_ID_LO; omega) (by unfold PEER_UDP PEER_ID_HI; omega) (by unfold PEER_UDP PEER_PART; omega)
      (by unfold PEER_UDP PEER_UCODE; omega), State.reg_setReg_ne _ _ (by unfold PEER_UDP PEER_INFO; omega)]
  · obtain ⟨h0, h1, h2, h3, h4⟩ := hne a ha
    rw [hreg h1 h2 h3 h4, State.reg_setReg_ne _ _ h0]

/-- The registers of a port are beside its peers. -/
theorem port_besidePeer {p e : Nat} (hp : p < 2) :
    besidePeer p e (PEER_NEW_CNT p) ∧ besidePeer p e (PEER_GONE_CNT p) ∧ besidePeer p e (PORT_STATUS p) ∧
      PEER_NEW_CNT p ≠ PORT_STATUS p ∧ PEER_GONE_CNT p ≠ PORT_STATUS p := by
  unfold besidePeer PEER_NEW_CNT PEER_GONE_CNT PORT_STATUS PEER_INFO
  omega

/-- What a port shows of a new peer that an announcement with payload words `w` has made. -/
theorem State.peerAdded_shows (s : State) {p e : Nat} (hp : p < 2) (w : Nat → Word) (ip : Word) (udp : BitVec 16) :
    let t := (s.peerKeyed p e ip udp 31).peerAdded p e w
    t.bit (PEER_INFO p e) 31 = true ∧ t.bit (PEER_INFO p e) 30 = false ∧ t.reg (PEER_IP p e) = ip ∧
      t.fld (PEER_UDP p e) 15 0 = udp.toNat ∧ t.reg (PEER_ID_LO p e) = w 4 ∧
      t.reg (PEER_NEW_CNT p) = satInc (s.reg (PEER_NEW_CNT p)) ∧ t.bit (PORT_STATUS p) 2 = true := by
  obtain ⟨hinfo, hip, hudp, hothers⟩ := s.peerKeyed_shows p e ip udp
  obtain ⟨h31, h30, hid, hip', hudp', hothers'⟩ := (s.peerKeyed p e ip udp 31).notePeer_shows p e w
  obtain ⟨hnew, -, -, hns, -⟩ := port_besidePeer (p := p) (e := e) hp
  obtain ⟨hstatus, hrest⟩ := (((s.peerKeyed p e ip udp 31).notePeer p e w).satCount (PEER_NEW_CNT p)).peerChange_shows p
  have hword {a : Nat} (h : ¬ besidePeer p e a) : ((s.peerKeyed p e ip udp 31).peerAdded p e w).reg a =
      ((s.peerKeyed p e ip udp 31).notePeer p e w).reg a := by
    have hcnt : a ≠ PEER_NEW_CNT p := fun he => h (he ▸ hnew)
    have hst : a ≠ PORT_STATUS p := fun he => h (he ▸ (port_besidePeer hp).2.2.1)
    exact (hrest a hst).trans (State.reg_satCount_ne _ hcnt)
  intro t
  have ht {a : Nat} (h : ¬ besidePeer p e a) : t.reg a = ((s.peerKeyed p e ip udp 31).notePeer p e w).reg a := hword h
  obtain ⟨-, -, -, kip, kudp, kinfo⟩ := peer_words p e
  have kid : ¬ besidePeer p e (PEER_ID_LO p e) := by unfold besidePeer PEER_ID_LO PEER_INFO; omega
  refine ⟨(congrArg (bitOf · 31) (ht kinfo)).trans h31, (congrArg (bitOf · 30) (ht kinfo)).trans (h30.trans ?_),
    (ht kip).trans (hip'.trans hip), (congrArg (bitsOf · 15 0) ((ht kudp).trans (hudp'.trans hudp))).trans ?_, (ht kid).trans hid, ?_, hstatus⟩
  · rw [State.bit, hinfo]
    decide
  · rw [bitsOf, BitVec.zeroExtend, BitVec.toNat_setWidth, Nat.mod_eq_of_lt (Nat.lt_trans udp.isLt (by decide))]
    exact Nat.mod_eq_of_lt udp.isLt
  · have hcnt : t.reg (PEER_NEW_CNT p) = satInc (((s.peerKeyed p e ip udp 31).notePeer p e w).reg (PEER_NEW_CNT p)) :=
      (hrest _ hns).trans (State.reg_satCount_self _ _)
    rw [hcnt, hothers' _ hnew, hothers _ hnew]

/-- An announcement of a key that the table does not hold. -/
theorem State.discoverIn_new {s : State} {p e : Nat} {ip : Word} {udp : BitVec 16} {bytes : List Byte} {ws : List Word}
    (ha : announcement 0x50300800#32 32 bytes = some ws) (hok : discoverOk (fun i => ws.getD i 0) = true)
    (hother : ¬(ws.getD 4 0 = loWord ((macOf 0).zeroExtend 64) ∧ ws.getD 5 0 = hiWord ((macOf 0).zeroExtend 64)))
    (hnone : s.findPeer p ip udp = none) (hfree : (List.range 32).find? (fun e => !s.peerUsed p e) = some e) :
    s.discoverIn p ip udp bytes = (s.peerKeyed p e ip udp 31).peerAdded p e (fun i => ws.getD i 0) := by
  unfold State.discoverIn
  rw [ha]
  dsimp only
  rw [hok, if_neg (by decide), if_neg hother, hnone]
  dsimp only
  rw [State.newPeer_eq hfree]
  rfl

/-- The entry of a peer that returns is free again. -/
def State.peerGone (s : State) (p e : Nat) : State := ((s.closeSession p e).freePeer p e).peerChange p

theorem State.peerGone_shows {s : State} {p e : Nat} (hp : p < 2) (h : s.bit (PEER_INFO p e) 31 = false) :
    (s.peerGone p e).peerUsed p e = false ∧ (s.peerGone p e).reg (PEER_NEW_CNT p) = s.reg (PEER_NEW_CNT p) := by
  obtain ⟨h30, -, h31, hothers⟩ := s.closeSession_shows p e
  obtain ⟨hinfo, hrest⟩ := (s.closeSession p e).freePeer_shows p e
  obtain ⟨-, hchange⟩ := ((s.closeSession p e).freePeer p e).peerChange_shows p
  obtain ⟨hnew, -, hst, hns, -⟩ := port_besidePeer (p := p) (e := e) hp
  obtain ⟨-, -, -, -, -, kinfo⟩ := peer_words p e
  have hunused : (s.closeSession p e).peerUsed p e = false := by rw [State.peerUsed, h30, h31, h]; rfl
  rw [hunused, if_neg Bool.false_ne_true] at hinfo
  have hzero : (s.peerGone p e).reg (PEER_INFO p e) = 0 := (hchange _ fun he => kinfo (by rw [he]; exact hst)).trans hinfo
  refine ⟨?_, ?_⟩
  · rw [State.peerUsed, State.bit, State.bit, hzero]
    decide
  · exact (hchange _ hns).trans ((hrest _ hnew).trans (hothers _ fun he => kinfo (he ▸ hnew)))

/-- A peer that returns after its loss. -/
theorem State.discoverIn_returns {s : State} {p e e' : Nat} {ip : Word} {udp : BitVec 16} {bytes : List Byte} {ws : List Word}
    (ha : announcement 0x50300800#32 32 bytes = some ws) (hok : discoverOk (fun i => ws.getD i 0) = true)
    (hother : ¬(ws.getD 4 0 = loWord ((macOf 0).zeroExtend 64) ∧ ws.getD 5 0 = hiWord ((macOf 0).zeroExtend 64)))
    (hfound : s.findPeer p ip udp = some e) (hreturns : s.peerReturns p e (fun i => ws.getD i 0) = true)
    (hnew : (List.range 32).find? (fun i => !(s.peerGone p e).peerUsed p i) = some e') :
    s.discoverIn p ip udp bytes = ((s.peerGone p e).peerKeyed p e' ip udp 31).peerAdded p e' (fun i => ws.getD i 0) := by
  unfold State.discoverIn
  rw [ha]
  dsimp only
  rw [hok, if_neg (by decide), if_neg hother, hfound]
  dsimp only
  rw [if_pos hreturns, ← State.peerGone, State.newPeer_eq hnew]
  rfl

end Sys2Proof.Machine
end

section
/-!
PROOFS. The Ethernet ports serve their frames (R327, R328, R333 to R336).
-/

namespace Sys2Proof.Machine

open Reg

/-! ### Configuration and links (R328) -/

theorem VLAN_CFG_ne_PORT_STATUS (p : Nat) : VLAN_CFG p ≠ PORT_STATUS p := by unfold VLAN_CFG PORT_STATUS; omega

/-- A merge under a mask that covers `k` changes the bits of `k` as its value does. -/
theorem xor_mergeWord_and {old v m k : Word} (hkm : k &&& m = k) : (old ^^^ mergeWord old v m) &&& k = (old ^^^ v) &&& k := by
  refine BitVec.eq_of_getLsbD_eq fun i _ => ?_
  have hk : k.getLsbD i = (k.getLsbD i && m.getLsbD i) := by rw [← BitVec.getLsbD_and, hkm]
  rw [BitVec.getLsbD_and, BitVec.getLsbD_and, BitVec.getLsbD_xor, BitVec.getLsbD_xor, getLsbD_mergeWord]
  cases hki : k.getLsbD i
  · rw [Bool.and_false, Bool.and_false]
  · rw [hki, Bool.true_and] at hk
    rw [if_pos hk.symm]

/-- A sound frame goes by R328 alone. -/
theorem State.receive_framed {s : State} {p : Nat} {f : RxFrame} (hup : s.portUp p = true) (hf : f.sound) (ip : Bool) (g : State → State) :
    s.receive p f ip g = if (ip && !f.plainIp) = true then s.rxDiscard p else g s := by
  obtain ⟨hfcs, hlen, htags, hpause⟩ := hf
  have hgood : ¬ (!f.fcsOk || decide (1522 < f.length.toNat) || decide (1 < f.tags.toNat)) = true := by simp [hfcs, hlen, htags]
  rw [State.receive, if_neg (by rw [hup]; decide), if_neg hgood, if_neg (by rw [hpause]; decide)]

/-- LINK with its new value, before what the port makes of it. -/
def State.linkNoted (s : State) (p : Nat) (up : Bool) : State := (s.setBit (PORT_STATUS p) 0 up).raise (PORT_STATUS p) 1

theorem State.linkNoted_shows (s : State) (p : Nat) (up : Bool) :
    (s.linkNoted p up).bit (PORT_STATUS p) 0 = up ∧ (s.linkNoted p up).bit (PORT_STATUS p) 1 = true ∧
      (s.linkNoted p up).reg (VLAN_CFG p) = s.reg (VLAN_CFG p) := by
  have hne := VLAN_CFG_ne_PORT_STATUS p
  refine ⟨?_, (s.setBit (PORT_STATUS p) 0 up).bit_raise_self _ (by decide), ?_⟩
  · exact ((s.setBit (PORT_STATUS p) 0 up).bit_setBit_ne _ true (by decide)).trans (s.bit_setBit_self _ _ up (by decide))
  · exact ((s.setBit (PORT_STATUS p) 0 up).reg_setReg_ne _ hne).trans (s.reg_setReg_ne _ hne)

/-- A port whose link has come up at `now`, before its membership report. -/
def Port.linkUp (c : Port) (now : Tick) : Port :=
  { c with linkTick := now, discSent := none, syncSent := none, annSent := none, pdelaySent := none, announced := none, pdelayOpen := none,
           pathDelay := 0, txFree := now }

theorem State.setLink_shows (s : State) (p : Nat) (up : Bool) :
    (s.setLink p up).bit (PORT_STATUS p) 0 = up ∧ (s.setLink p up).bit (PORT_STATUS p) 1 = true ∧
      (up = true → ((s.setLink p up).port p).linkTick = s.mt ∧
        ((s.setLink p up).port p).tx = (s.port p).tx ++ [{ cls := .other, vlan := s.vlanTag p .other, frame := .igmpReport groupIp }]) ∧
      (up = false → ((s.setLink p up).port p).waiting = [] ∧ ((s.setLink p up).port p).tx = []) := by
  obtain ⟨hup, hchg, hvlan⟩ := s.linkNoted_shows p up
  cases up with
  | false =>
    refine ⟨hup, hchg, fun h => absurd h (by decide), fun _ => ?_⟩
    have hport : (s.setLink p false).port p = { (s.linkNoted p false).port p with waiting := [], tx := [] } := State.port_setPort_self _ _ _
    rw [hport]
    exact ⟨rfl, rfl⟩
  | true =>
    refine ⟨hup, hchg, fun _ => ?_, fun h => absurd h (by decide)⟩
    have hport := State.port_sendFrame ((s.linkNoted p true).setPort p (((s.linkNoted p true).port p).linkUp s.mt)) p .other (.igmpReport groupIp)
    rw [State.port_setPort_self] at hport
    refine ⟨congrArg Port.linkTick hport, (congrArg Port.tx hport).trans ?_⟩
    exact congrArg (fun v => (s.port p).tx ++ [{ cls := .other, vlan := v, frame := .igmpReport groupIp }]) (State.vlanTag_congr hvlan .other)

/-- The registers of a port that a datagram's departure reads are no ring's. -/
theorem State.reg_ringTaken_port (s : State) {r : Nat} (hr : r < 64) {a : Nat} (ha : 0xA1000 ≤ a) : (s.ringTaken r).reg a = s.reg a := by
  obtain ⟨-, -, -, hother⟩ := s.ringRetire_shows r 1
  rw [State.ringTaken, State.reg_setRing]
  exact hother a (by unfold RING_RD; omega) (by unfold RING_FILL; omega) (by unfold RING_CREDIT; omega)

theorem State.port_ringTaken (s : State) (r p : Nat) : (s.ringTaken r).port p = s.port p := by
  obtain ⟨rs, hopen⟩ := s.ringOpen_shape r
  rw [State.ringTaken, State.port_setRing, State.ringRetire, State.ringLevel, State.port_setReg, State.port_setReg, State.port_setReg,
    State.port_setRing, hopen]
  rfl

theorem State.reg_sendOnLink (s : State) (p : Nat) (d : Datagram) (a : Nat) : (s.sendOnLink p d).reg a = s.reg a := by
  have hwaits (c : Prop) [Decidable c] (u v : State) (hu : u.reg a = s.reg a) (hv : v.reg a = s.reg a) : (if c then u else v).reg a = s.reg a := by
    split <;> assumption
  unfold State.sendOnLink
  dsimp only
  cases (s.port p).arp.lookup d.ip with
  | some mac => rfl
  | none => exact hwaits _ _ _ rfl rfl

/-- A datagram for an on-link address leaves when the address is resolved. -/
theorem State.sendOnLink_known {s : State} {p : Nat} {d : Datagram} {mac : BitVec 48} (h : (s.port p).arp.lookup d.ip = some mac) :
    ((s.sendOnLink p d).port p).tx = (s.port p).tx ++ [⟨d.cls, s.vlanTag p d.cls, .udp d.ip mac d.port d.words⟩] := by
  rw [State.sendOnLink, h]
  exact congrArg Port.tx (s.port_sendFrame _ _ _)

/-- The first datagram for an address that is not resolved waits, and brings the request. -/
theorem State.sendOnLink_first {s : State} {p : Nat} {d : Datagram} (h : (s.port p).arp.lookup d.ip = none) (hw : (s.port p).waiting = []) :
    ((s.sendOnLink p d).port p).tx = (s.port p).tx ++ [{ cls := .other, vlan := s.vlanTag p .other, frame := .arpRequest d.ip }] ∧
      ((s.sendOnLink p d).port p).waiting.length = 1 := by
  have hport : (s.setPort p { s.port p with waiting := (s.port p).waiting ++ [d] }).port p =
      { s.port p with waiting := (s.port p).waiting ++ [d] } := s.port_setPort_self _ _
  have hsend : (s.sendOnLink p d).port p =
      ((s.setPort p { s.port p with waiting := (s.port p).waiting ++ [d] }).sendFrame p .other (.arpRequest d.ip)).port p := by
    rw [State.sendOnLink, h]
    dsimp only
    rw [if_neg (by rw [hw]; exact Bool.false_ne_true)]
  rw [hsend, State.port_sendFrame, hport]
  exact ⟨rfl, by rw [hw]; rfl⟩

/-- A freed entry holds what it held, or nothing. -/
theorem State.freePeer_word (P : Word → Prop) (s : State) (p e : Nat) (h0 : P 0) (h : P (s.reg (PEER_INFO p e))) :
    P ((s.freePeer p e).reg (PEER_INFO p e)) := by
  rw [(s.freePeer_shows p e).1]
  split
  · exact h
  · exact h0

/-- An entry that is freed and reported keeps what the port shows of it. -/
theorem State.peerFreed_word (P : Word → Prop) (s : State) {p e : Nat} (h0 : P 0) (h : P (s.reg (PEER_INFO p e))) :
    P (((s.freePeer p e).peerChange p).reg (PEER_INFO p e)) := by
  rw [((s.freePeer p e).peerChange_shows p).2 _ (by unfold PEER_INFO PORT_STATUS; omega)]
  exact s.freePeer_word P p e h0 h

end Sys2Proof.Machine

namespace Sys2Proof.Proofs

open Sys2Proof.Machine Sys2Proof.Machine.Reg

theorem portCtrlWrite_row {p : Fin 2} {off : Nat} {v : Word} {s : State} (ha : s.accepts (PORT_CTRL p + off) v) :
    exec (.portCtrlWrite p off v) s = .next ((s.noteHost (PORT_CTRL p + off)).portCtrlWrite p off v) :=
  congrArg Host.Outcome.next (s.hostWrite_accepts _ ha)

theorem portCtrlWrite_refused (p : Fin 2) (v : Word) (s : State) (ha : s.accepts (PORT_CTRL p) v) (hen : s.bit (PORT_CTRL p) 0 = true)
    (h : (s.reg (PORT_CTRL p) ^^^ v) &&& 0x7E#32 ≠ 0) :
    exec (.portCtrlWrite p 0 v) s = .next ((s.noteHost (PORT_CTRL p)).raise (PORT_STATUS p) 3) := by
  refine (portCtrlWrite_row ha).trans (congrArg Host.Outcome.next ?_)
  unfold State.portCtrlWrite
  refine (if_pos rfl).trans (if_pos ?_)
  have hchanged : (s.reg (PORT_CTRL p) ^^^ mergeWord (s.reg (PORT_CTRL p)) v 0x7F#32) &&& 0x7E#32 ≠ 0 := by rwa [xor_mergeWord_and (by decide)]
  exact Bool.and_eq_true_iff.2 ⟨bne_iff_ne.2 hchanged, Bool.or_eq_true_iff.2 (Or.inl hen)⟩

theorem portCtrlWrite_enables (p : Fin 2) (v : Word) (s : State) (ha : s.accepts (PORT_CTRL p) v) (_hoff : s.bit (PORT_CTRL p) 0 = false)
    (hv : v.getLsbD 0 = true) (h : (s.reg (PORT_CTRL p) ^^^ v) &&& 0x7E#32 = 0) :
    exec (.portCtrlWrite p 0 v) s =
      .next ((s.noteHost (PORT_CTRL p)).setReg (PORT_CTRL p) (mergeWord (s.reg (PORT_CTRL p)) v 0x7F#32)) := by
  refine (portCtrlWrite_row ha).trans (congrArg Host.Outcome.next ?_)
  have hnew : bitOf (mergeWord (s.reg (PORT_CTRL p)) v 0x7F#32) 0 = true := (getLsbD_mergeWord _ _ _ 0).trans hv
  have hsame : (s.reg (PORT_CTRL p) ^^^ mergeWord (s.reg (PORT_CTRL p)) v 0x7F#32) &&& 0x7E#32 = 0 := by rwa [xor_mergeWord_and (by decide)]
  unfold State.portCtrlWrite
  refine (if_pos rfl).trans ((if_neg ?_).trans (if_neg ?_))
  · exact fun hc => bne_iff_ne.1 (Bool.and_eq_true_iff.1 hc).1 hsame
  · exact fun hc => absurd hnew (by simpa using (Bool.and_eq_true_iff.1 hc).1)

theorem portConfigWrite (p : Fin 2) (off : Nat) (v : Word) (s : State) (ha : s.accepts (PORT_CTRL p + off) v) (hlo : 0x10 ≤ off) (hhi : off ≤ 0x2C)
    (hal : off % 4 = 0) :
    exec (.portCtrlWrite p off v) s = .next (
      if s.bit (PORT_CTRL p) 0 = true then (s.noteHost (PORT_CTRL p + off)).raise (PORT_STATUS p) 3
      else (s.noteHost (PORT_CTRL p + off)).plainWrite (PORT_CTRL p + off) v) := by
  refine (portCtrlWrite_row ha).trans (congrArg Host.Outcome.next ?_)
  unfold State.portCtrlWrite
  exact (if_neg (by omega)).trans (if_pos ⟨hlo, hhi, hal⟩)

theorem linkChange_noted (p : Fin 2) (up : Bool) (s : State) (hs : s.serves) (hne : s.bit (PORT_STATUS p) 0 ≠ up)
    (hup : up = true → s.bit (PORT_CTRL p) 0 = true) :
    ∃ t, exec (.linkChange p up) s = .next t ∧ t.bit (PORT_STATUS p) 0 = up ∧ t.bit (PORT_STATUS p) 1 = true ∧
      (up = true → (t.port p).linkTick = s.mt ∧
        (t.port p).tx = (s.port p).tx ++ [{ cls := .other, vlan := s.vlanTag p .other, frame := .igmpReport groupIp }]) ∧
      (up = false → (t.port p).waiting = [] ∧ (t.port p).tx = []) := by
  refine ⟨_, congrArg Host.Outcome.next ((s.onTclk_clocked _ (s.clocked_of_serves hs)).trans (if_neg ?_)), s.setLink_shows p up⟩
  have hmain : s.mainRuns = true := beq_iff_eq.2 hs.1
  cases up with
  | false => simp [hmain, hne]
  | true => simp [hmain, hne, hup rfl]

/-! ### Frames that leave and frames that come (R327, R328, R336) -/

theorem frames_leave :
    (∀ (l : List TxFrame) (f : TxFrame), nextFrame l = some f → f ∈ l ∧ ∀ g ∈ l, f.cls.rank ≤ g.cls.rank) ∧
    (∀ (p : Fin 2) (s : State) (f : TxFrame), nextFrame (s.port p).tx = some f →
      (s.portUp p = true → s.reached (s.port p).txFree = true →
        (s.portSend p).sent = s.sent ++ [.frame p f.vlan f.frame] ∧
          ((s.portSend p).port p).txFree = s.mt + BitVec.ofNat 64 f.ticks ∧
          (∀ g ∈ (s.port p).tx, g ≠ f → g ∈ ((s.portSend p).port p).tx)) ∧
      (s.portUp p = false ∨ s.reached (s.port p).txFree = false → s.portSend p = s)) := by
  refine ⟨nextFrame_first, fun p s f hf => ⟨fun hup hfree => ?_, State.portSend_waits hf⟩⟩
  obtain ⟨hsent, htx, hwait⟩ := (s.frameSent p f).frameLeft_shows p f.frame
  have hport : (s.frameSent p f).port p = { s.port p with tx := (s.port p).tx.erase f, txFree := s.mt + BitVec.ofNat 64 f.ticks } :=
    s.port_setPort_self _ _
  rw [State.portSend_sends hf hup hfree]
  exact ⟨hsent, htx.trans (congrArg Port.txFree hport),
    fun g hg hne => hwait g (by rw [hport]; exact (List.mem_erase_of_ne hne).2 hg)⟩

theorem badFrames_discarded (p : Fin 2) (f : RxFrame) (reply : Bool) (target ip : Word) (mac : BitVec 48) (body bytes : List Byte) (udp : BitVec 16)
    (m : PtpMessage) (corr : BitVec 32) (v : PriorityVector) (s : State) (hc : s.clocked) (hup : s.portUp p = true)
    (hf : f.fcsOk = false ∨ 1522 < f.length.toNat ∨ 1 < f.tags.toNat) :
    ∀ c ∈ [Instr.arpRequest ⟨p, f⟩ ⟨reply, target⟩ ip mac, .icmpEcho ⟨p, f⟩ target ip body,
        .userDatagramRx ⟨p, f⟩ bytes, .discover ⟨p, f⟩ ip udp bytes,
        .shaftExport ⟨p, f⟩ bytes, .ponarUdpDatagram ⟨p, f⟩ ip udp bytes, .gptpSync ⟨p, f⟩ m corr, .gptpAnnounce p f v],
      exec c s = .next (s.satCount (RX_DISCARD p)) := by
  have hrow {g : State} (h : g = s.satCount (RX_DISCARD p)) :
      (.next (s.onTclk g) : Host.Outcome State Fault Refusal) = .next (s.satCount (RX_DISCARD p)) := congrArg Host.Outcome.next ((s.onTclk_clocked _ hc).trans h)
  simp only [List.forall_mem_cons, List.not_mem_nil, false_implies, implies_true, and_true]
  exact ⟨hrow (State.receive_bad hup hf _ _), hrow (State.receive_bad hup hf _ _), hrow (State.receiveUdp_bad hup hf _ _),
    hrow (State.receiveUdp_bad hup hf _ _), hrow (State.receiveUdp_bad hup hf _ _), hrow (State.receiveUdp_bad hup hf _ _),
    hrow (State.receive_bad hup hf _ _), hrow (State.receive_bad hup hf _ _)⟩

theorem arpPacket_received (p : Fin 2) (f : RxFrame) (target ip : Word) (mac : BitVec 48) (s : State) (hc : s.clocked) (hup : s.portUp p = true)
    (hf : f.sound) :
    (target = s.reg (IP_ADDR p) → s.onLink p ip = true →
      ∃ t u, exec (.arpRequest ⟨p, f⟩ ⟨false, target⟩ ip mac) s = .next t ∧ exec (.arpRequest ⟨p, f⟩ ⟨true, target⟩ ip mac) s = .next u ∧
        (t.port p).arp.lookup ip = some mac ∧ (u.port p).arp.lookup ip = some mac ∧
        ((s.port p).waiting = [] →
          (t.port p).tx = (s.port p).tx ++ [{ cls := .other, vlan := s.vlanTag p .other, frame := .arpReply ip mac }] ∧
          (u.port p).tx = (s.port p).tx) ∧
        (∀ d, (s.port p).waiting = [d] → d.ip = ip →
          (u.port p).waiting = [] ∧
          (u.port p).tx = (s.port p).tx ++ [{ cls := d.cls, vlan := s.vlanTag p d.cls, frame := .udp ip mac d.port d.words }])) ∧
    (target ≠ s.reg (IP_ADDR p) ∨ s.onLink p ip = false →
      ∀ reply : Bool, exec (.arpRequest ⟨p, f⟩ ⟨reply, target⟩ ip mac) s = .next (s.satCount (RX_DISCARD p))) := by
  have hrow (reply : Bool) : exec (.arpRequest ⟨p, f⟩ ⟨reply, target⟩ ip mac) s = .next (
      if (decide (target = s.reg (IP_ADDR p)) && s.onLink p ip) = true then
        if reply = true then s.resolved p ip mac else (s.sendFrame p .other (.arpReply ip mac)).resolved p ip mac
      else s.rxDiscard p) :=
    congrArg Host.Outcome.next ((s.onTclk_clocked _ hc).trans ((State.receive_framed hup hf _ _).trans (if_neg (by rw [Bool.false_and]; decide))))
  refine ⟨fun ht hon => ?_, fun hno reply => ?_⟩
  · have hown : (decide (target = s.reg (IP_ADDR p)) && s.onLink p ip) = true := by simp [ht, hon]
    have hsend : ((s.sendFrame p .other (.arpReply ip mac)).port p).waiting = (s.port p).waiting := by rw [State.port_sendFrame]
    refine ⟨_, _, (hrow false).trans (congrArg Host.Outcome.next (if_pos hown)), (hrow true).trans (congrArg Host.Outcome.next (if_pos hown)),
      State.arp_resolved _ _ _ _, State.arp_resolved _ _ _ _, fun hw => ⟨?_, State.tx_resolved_none hw ip mac⟩, fun d hd hip => State.resolved_one hd hip mac⟩
    exact (State.tx_resolved_none (hsend.trans hw) ip mac).trans (congrArg Port.tx (s.port_sendFrame _ _ _))
  · refine (hrow reply).trans (congrArg Host.Outcome.next (if_neg ?_))
    rcases hno with h | h <;> simp [h]

theorem icmpEcho_answered (p : Fin 2) (f : RxFrame) (target ip : Word) (body : List Byte) (s : State) (hc : s.clocked) (hup : s.portUp p = true)
    (hf : f.sound) :
    exec (.icmpEcho ⟨p, f⟩ target ip body) s = .next (
      if f.plainIp = true ∧ target = s.reg (IP_ADDR p) ∧ s.onLink p ip = true
      then s.sendFrame p .other (.icmpReply ip body)
      else s.satCount (RX_DISCARD p)) := by
  refine congrArg Host.Outcome.next ((s.onTclk_clocked _ hc).trans ((State.receive_framed hup hf _ _).trans ?_))
  by_cases hip : f.plainIp = true
  · rw [hip]
    refine (if_neg (by decide)).trans (ite_congr (propext ?_) (fun _ => rfl) fun _ => rfl)
    simp
  · rw [Bool.not_eq_true] at hip
    rw [hip]
    exact (if_pos rfl).trans (if_neg fun h => Bool.false_ne_true h.1).symm

/-! ### User datagrams (R336) -/

theorem userDatagram_gathered (p : Fin 2) (f : RxFrame) (bytes : List Byte) (s : State) (hc : s.clocked) (hup : s.portUp p = true)
    (hf : f.brings (s.fld (USER_CFG p) 31 16)) (hon : s.bit (PORT_CTRL p) 6 = true) (hlen : bytes.length = 16) :
    exec (.userDatagramRx ⟨p, f⟩ bytes) s =
      .next (s.ringGather (s.fld (USER_CFG p) 5 0) (rankPort p) (.net p (BitVec.ofNat 128 (leNat bytes)))) :=
  congrArg Host.Outcome.next ((s.onTclk_clocked _ hc).trans
    ((State.receiveUdp_served hup hf (State.servesUdp_user hon hf.2.2) _).trans (if_pos (by rw [hon, hlen]; rfl))))

theorem userDatagram_discarded (p : Fin 2) (f : RxFrame) (bytes : List Byte) (s : State) (hc : s.clocked) (hup : s.portUp p = true)
    (hf : f.brings (s.fld (USER_CFG p) 31 16)) (h : s.bit (PORT_CTRL p) 6 = false ∨ bytes.length ≠ 16) :
    exec (.userDatagramRx ⟨p, f⟩ bytes) s = .next (s.satCount (RX_DISCARD p)) :=
  congrArg Host.Outcome.next ((s.onTclk_clocked _ hc).trans
    (State.receiveUdp_unserved hup hf (if_neg (by rcases h with h | h <;> simp [h]))))

theorem netOffer_admitted (r : Fin 64) (p : Fin 2) (e : BitVec 128) (s : State) (hen : s.ringEn r = true) (hprod : s.ringProd r = 0x21 + p.val)
    (hcr : s.ringCreditNow r ≠ 0) (hfl : (s.ring r).inflight = []) : ((s.serveOffer r (.net p e)).ring r).inflight = [.entry e] := by
  have hadmit : s.serveOffer r (.net p e) = s.ringAdmit r [.entry e] := by
    refine (if_neg ?_).trans (if_neg hcr)
    simp [hen, hprod]
  rw [hadmit]
  exact (State.ringAdmit_one e hfl).1

theorem userDatagram_sent (p : Fin 2) (s : State) (hc : s.clocked) (hup : s.portUp p = true) (hon : s.bit (PORT_CTRL p) 6 = true) :
    let r := s.fld (USER_CFG p) 13 8
    s.ringEn r = true → s.ringCons r = 0x21 + p.val → s.ringVisible r ≠ 0 →
    s.resPoisoned (s.entryAt r (s.reg (RING_RD r))) 16 = false → s.onLink p (s.reg (TX_DEST_IP p)) = true →
    s.reg (TX_DEST_IP p) ≠ groupIp →
    ∃ t, exec (.userDatagramTx p) s = .next t ∧ t.reg (RING_RD r) = s.reg (RING_RD r) + 1 ∧
      (∀ mac, (s.port p).arp.lookup (s.reg (TX_DEST_IP p)) = some mac →
        (t.port p).tx = (s.port p).tx ++ [⟨.user, s.vlanTag p .user,
          .udp (s.reg (TX_DEST_IP p)) mac (BitVec.ofNat 16 (s.fld (TX_DEST_UDP p) 15 0))
            (entryWords (BitVec.ofNat 128 (s.resRead (s.entryAt r (s.reg (RING_RD r))) 16)))⟩]) ∧
      ((s.port p).arp.lookup (s.reg (TX_DEST_IP p)) = none → (s.port p).waiting = [] →
        (t.port p).tx = (s.port p).tx ++ [{ cls := .other, vlan := s.vlanTag p .other, frame := .arpRequest (s.reg (TX_DEST_IP p)) }] ∧
        (t.port p).waiting.length = 1) := by
  intro r hen hcons hvis hsound hlink hgroup
  have hr : r < 64 := bitsOf_lt _ (hi := 13) (lo := 8)
  have hreg {a : Nat} (ha : 0xA1000 ≤ a) : (s.ringTaken r).reg a = s.reg a := s.reg_ringTaken_port hr ha
  have hip : (s.ringTaken r).reg (TX_DEST_IP p) = s.reg (TX_DEST_IP p) := hreg (by unfold TX_DEST_IP; omega)
  have hudp : (s.ringTaken r).fld (TX_DEST_UDP p) 15 0 = s.fld (TX_DEST_UDP p) 15 0 := congrArg (bitsOf · 15 0) (hreg (by unfold TX_DEST_UDP; omega))
  have hport : (s.ringTaken r).port p = s.port p := s.port_ringTaken r p
  have hvlan (c : TxClass) : (s.ringTaken r).vlanTag p c = s.vlanTag p c := State.vlanTag_congr (hreg (by unfold VLAN_CFG; omega)) c
  have hlink' : (s.ringTaken r).onLink p (s.reg (TX_DEST_IP p)) = true := by
    rw [State.onLink, hreg (a := IP_MASK p) (by unfold IP_MASK; omega), hreg (a := IP_ADDR p) (by unfold IP_ADDR; omega)]
    exact hlink
  have htx : s.userTx p = (s.ringTaken r).sendOnLink p ⟨.user, s.reg (TX_DEST_IP p), BitVec.ofNat 16 (s.fld (TX_DEST_UDP p) 15 0),
      entryWords (BitVec.ofNat 128 (s.resRead (s.entryAt r (s.reg (RING_RD r))) 16))⟩ := by
    rw [State.userTx, if_pos (by rw [hup, hon]; rfl), State.ringPop_sound hen hcons hvis hsound]
    dsimp only
    rw [hip, hudp]
    exact (if_neg hgroup).trans (if_pos hlink')
  refine ⟨_, congrArg Host.Outcome.next ((s.onTclk_clocked _ hc).trans htx), ?_, fun mac hmac => ?_, fun hnone hwait => ?_⟩
  · rw [State.reg_sendOnLink, (s.ringTaken_shows r).1]
  · rw [State.sendOnLink_known (mac := mac) (by rw [hport]; exact hmac), hport, hvlan]
  · obtain ⟨hreq, hlen⟩ := State.sendOnLink_first (s := s.ringTaken r) (p := p)
      (d := ⟨.user, s.reg (TX_DEST_IP p), BitVec.ofNat 16 (s.fld (TX_DEST_UDP p) 15 0),
        entryWords (BitVec.ofNat 128 (s.resRead (s.entryAt r (s.reg (RING_RD r))) 16))⟩) (by rw [hport]; exact hnone) (by rw [hport]; exact hwait)
    rw [hport, hvlan] at hreq
    exact ⟨hreq, hlen⟩

/-! ### Peers (R333 to R335) -/

theorem discover_announces (p : Fin 2) (s : State) (hc : s.clocked) (hup : s.portUp p = true) (hdue : (s.mt - (s.port p).linkTick).toNat % 800000000 = 0)
    (hne : s.mt ≠ (s.port p).linkTick) (hsent : (s.port p).discSent ≠ some s.mt) :
    ∃ t x, exec (.discoverSend p) s = .next t ∧ (t.port p).tx = (s.port p).tx ++ [x] ∧ x.cls = .discover ∧
      (t.port p).discSent = some s.mt := by
  have hpos : decide (0 < (s.mt - (s.port p).linkTick).toNat) = true :=
    decide_eq_true (Nat.pos_of_ne_zero fun h => hne (by bv_omega))
  have hport (w : List Word) (n : BitVec 16) :
      ((((s.setPort p { s.port p with discSent := some s.mt }).useFree).sendUdp p .discover groupIp n w).port p) =
        { s.port p with discSent := some s.mt, tx := (s.port p).tx ++ [⟨.discover, s.vlanTag p .discover, .udp groupIp groupMac n w⟩] } := by
    rw [State.sendUdp, if_pos rfl, State.sendTo, State.port_sendFrame, State.port_useFree, State.port_setPort_self]
    rfl
  refine ⟨_, _, congrArg Host.Outcome.next ((s.onTclk_clocked _ hc).trans (if_pos ?_)), congrArg Port.tx (hport _ _), rfl, congrArg Port.discSent (hport _ _)⟩
  rw [hup, hpos, decide_eq_true hdue, bne_iff_ne.2 hsent]
  rfl

theorem discover_discarded (p : Fin 2) (f : RxFrame) (ip : Word) (udp : BitVec 16) (bytes : List Byte) (s : State) (hc : s.clocked)
    (hup : s.portUp p = true) (hf : f.brings (s.fld (UDP_PORTS p) 31 16)) (ha : announcement 0x50300800#32 32 bytes = none) :
    exec (.discover ⟨p, f⟩ ip udp bytes) s = .next (s.satCount (PONAR_DISCARD p)) := by
  refine congrArg Host.Outcome.next ((s.onTclk_clocked _ hc).trans
    ((State.receiveUdp_served hup hf (State.servesUdp_announcements hf.2.2) _).trans ?_))
  unfold State.discoverIn
  rw [ha]

theorem discover_taken {p : Fin 2} {f : RxFrame} {ip : Word} {udp : BitVec 16} {bytes : List Byte} {s t : State} (hc : s.clocked)
    (hup : s.portUp p = true) (hf : f.brings (s.fld (UDP_PORTS p) 31 16)) (ht : s.discoverIn p ip udp bytes = t) :
    exec (.discover ⟨p, f⟩ ip udp bytes) s = .next t :=
  congrArg Host.Outcome.next ((s.onTclk_clocked _ hc).trans
    ((State.receiveUdp_served hup hf (State.servesUdp_announcements hf.2.2) _).trans ht))

theorem discover_adds (p : Fin 2) (f : RxFrame) (ip : Word) (udp : BitVec 16) (bytes : List Byte) (ws : List Word) (e : Nat) (s : State) (hc : s.clocked)
    (hup : s.portUp p = true) (hf : f.brings (s.fld (UDP_PORTS p) 31 16)) (ha : announcement 0x50300800#32 32 bytes = some ws)
    (hok : discoverOk (fun i => ws.getD i 0) = true)
    (hother : ¬(ws.getD 4 0 = loWord ((macOf 0).zeroExtend 64) ∧ ws.getD 5 0 = hiWord ((macOf 0).zeroExtend 64)))
    (hnone : s.findPeer p ip udp = none) (hfree : (List.range 32).find? (fun e => !s.peerUsed p e) = some e) :
    ∃ t, exec (.discover ⟨p, f⟩ ip udp bytes) s = .next t ∧ t.bit (PEER_INFO p e) 31 = true ∧ t.reg (PEER_IP p e) = ip ∧
      t.fld (PEER_UDP p e) 15 0 = udp.toNat ∧ t.reg (PEER_ID_LO p e) = ws.getD 4 0 ∧
      t.reg (PEER_NEW_CNT p) = satInc (s.reg (PEER_NEW_CNT p)) ∧ t.bit (PORT_STATUS p) 2 = true := by
  obtain ⟨h31, -, hip, hudp, hid, hcnt, hchg⟩ := s.peerAdded_shows (e := e) p.isLt (fun i => ws.getD i 0) ip udp
  exact ⟨_, discover_taken hc hup hf (State.discoverIn_new ha hok hother hnone hfree), h31, hip, hudp, hid, hcnt, hchg⟩

theorem discover_readds (p : Fin 2) (f : RxFrame) (ip : Word) (udp : BitVec 16) (bytes : List Byte) (ws : List Word) (e : Nat) (s : State) (hc : s.clocked)
    (hup : s.portUp p = true) (hf : f.brings (s.fld (UDP_PORTS p) 31 16)) (ha : announcement 0x50300800#32 32 bytes = some ws)
    (hok : discoverOk (fun i => ws.getD i 0) = true)
    (hother : ¬(ws.getD 4 0 = loWord ((macOf 0).zeroExtend 64) ∧ ws.getD 5 0 = hiWord ((macOf 0).zeroExtend 64)))
    (hfound : s.findPeer p ip udp = some e) (hreturns : s.peerReturns p e (fun i => ws.getD i 0) = true) :
    ∃ t e', exec (.discover ⟨p, f⟩ ip udp bytes) s = .next t ∧ t.bit (PEER_INFO p e') 31 = true ∧ t.bit (PEER_INFO p e') 30 = false ∧
      t.reg (PEER_IP p e') = ip ∧ t.reg (PEER_ID_LO p e') = ws.getD 4 0 ∧
      t.reg (PEER_NEW_CNT p) = satInc (s.reg (PEER_NEW_CNT p)) ∧ t.bit (PORT_STATUS p) 2 = true := by
  have hdev : s.bit (PEER_INFO p e) 31 = false := by
    have hbit := (Bool.and_eq_true_iff.1 (Bool.and_eq_true_iff.1 (Bool.and_eq_true_iff.1 hreturns).1).1).1
    simpa using hbit
  obtain ⟨hgone, hnew⟩ := State.peerGone_shows (s := s) (e := e) p.isLt hdev
  have hlt : e < 32 := List.mem_range.1 (List.mem_of_find?_eq_some hfound)
  have hsome : ((List.range 32).find? fun i => !(s.peerGone p e).peerUsed p i).isSome = true :=
    List.find?_isSome.2 ⟨e, List.mem_range.2 hlt, by rw [hgone]; rfl⟩
  obtain ⟨e', he'⟩ := Option.isSome_iff_exists.1 hsome
  obtain ⟨h31, h30, hip, -, hid, hcnt, hchg⟩ := (s.peerGone p e).peerAdded_shows (e := e') p.isLt (fun i => ws.getD i 0) ip udp
  exact ⟨_, e', discover_taken hc hup hf (State.discoverIn_returns ha hok hother hfound hreturns he'), h31, h30, hip, hid,
    hcnt.trans (congrArg satInc hnew), hchg⟩

theorem peerAge_expires (p : Fin 2) (e : Fin 32) (u : Tick) (s : State) (hs : s.serves) (hu : (s.port p).heard.lookup e.val = some u)
    (hdev : s.bit (PEER_INFO p e) 31 = true) (hdue : s.reached (u + 2800000000) = true) :
    ∃ t, exec (.peerAgeExpiry p e) s = .next t ∧ t.bit (PEER_INFO p e) 31 = false ∧
      t.reg (PEER_GONE_CNT p) = satInc (s.reg (PEER_GONE_CNT p)) ∧ t.bit (PORT_STATUS p) 2 = true := by
  have hrow : s.peerAgeExpiry p e = ((((s.setBit (PEER_INFO p e) 31 false).satCount (PEER_GONE_CNT p)).freePeer p e).peerChange p) := by
    rw [State.peerAgeExpiry, hu]
    exact if_pos (by rw [State.mainRuns, hs.1, hdev, hdue]; rfl)
  obtain ⟨-, hgone, -, -, hgs⟩ := port_besidePeer (p := p.val) (e := e.val) p.isLt
  have hinfo : PEER_INFO p e ≠ PEER_GONE_CNT p := by have := hgone; unfold besidePeer at this; omega
  obtain ⟨hchg, hothers⟩ := (((s.setBit (PEER_INFO p e) 31 false).satCount (PEER_GONE_CNT p)).freePeer p e).peerChange_shows p
  refine ⟨_, congrArg Host.Outcome.next ((s.onTclk_clocked _ (s.clocked_of_serves hs)).trans hrow), ?_, ?_, hchg⟩
  · refine State.peerFreed_word (fun w => bitOf w 31 = false) _ (by decide) ?_
    rw [State.reg_satCount_ne _ hinfo]
    exact s.bit_setBit_self _ _ false (by decide)
  · rw [hothers _ hgs, (State.freePeer_shows _ p e).2 _ hgone, State.reg_satCount_self, State.setBit, State.reg_setReg_ne _ _ hinfo.symm]

theorem sessionIdle_expires (p : Fin 2) (e : Fin 32) (u : Tick) (s : State) (hs : s.serves) (hu : (s.port p).lastMsg.lookup e.val = some u)
    (hsess : s.bit (PEER_INFO p e) 30 = true) (hcfg : s.fld (SESS_CFG p) 7 0 ≠ 0)
    (hdue : s.reached (u + BitVec.ofNat 64 (s.fld (SESS_CFG p) 7 0 * 800000000)) = true) :
    ∃ t, exec (.sessionIdleExpiry p e) s = .next t ∧ t.bit (PEER_INFO p e) 30 = false ∧ t.fld (PEER_INFO p e) 3 0 = 0 ∧
      t.bit (PORT_STATUS p) 2 = true := by
  have hrow : s.sessionIdleExpiry p e = ((s.closeSession p e).freePeer p e).peerChange p := by
    rw [State.sessionIdleExpiry, hu]
    exact if_pos (by rw [State.mainRuns, hs.1, hsess, bne_iff_ne.2 hcfg, hdue]; rfl)
  obtain ⟨h30, hver, -, -⟩ := s.closeSession_shows p e
  exact ⟨_, congrArg Host.Outcome.next ((s.onTclk_clocked _ (s.clocked_of_serves hs)).trans hrow),
    State.peerFreed_word (fun w => bitOf w 30 = false) _ (by decide) h30, State.peerFreed_word (fun w => bitsOf w 3 0 = 0) _ (by decide) hver,
    (((s.closeSession p e).freePeer p e).peerChange_shows p).1⟩

/-- Settles O52, row by row. -/
theorem portsServeTheirFrames : Obligations.PortsServeTheirFrames := by
  unfold Obligations.PortsServeTheirFrames
  exact ⟨portCtrlWrite_refused, portCtrlWrite_enables, portConfigWrite, linkChange_noted, frames_leave, badFrames_discarded,
    fun p f target ip mac s => arpPacket_received p f target ip mac s, icmpEcho_answered, userDatagram_gathered, netOffer_admitted,
    userDatagram_discarded, userDatagram_sent, discover_announces, discover_discarded, discover_adds, discover_readds, peerAge_expires,
    sessionIdle_expires⟩

end Sys2Proof.Proofs
end

section
/-!
PROOFS. What leaves machine time, the clocks and a set of registers as they are; the weirs, a shaft's state and the pads (R129, R167).
-/

namespace Sys2Proof.Machine

open Reg

/-- `t` has the time of `s`, its clock phase, its held requests and the request for HIBERNATE, and the registers at the addresses of `K`. -/
structure KeepsWords (K : Nat → Prop) (s t : State) : Prop where
  mt : t.mt = s.mt
  phase : t.power.phase = s.power.phase
  heldHost : t.power.heldHost = s.power.heldHost
  hibReq : t.power.hibReq = s.power.hibReq
  regs : ∀ a, K a → t.reg a = s.reg a

namespace KeepsWords

variable {K : Nat → Prop} {r s t : State}

/-- An update of other fields. -/
theorem of_eq (hm : t.mt = s.mt) (hp : t.power.phase = s.power.phase) (hh : t.power.heldHost = s.power.heldHost)
    (hi : t.power.hibReq = s.power.hibReq) (hr : t.regs = s.regs) : KeepsWords K s t := ⟨hm, hp, hh, hi, fun a _ => by rw [State.reg, hr, State.reg]⟩

theorem refl (s : State) : KeepsWords K s s := of_eq rfl rfl rfl rfl rfl

theorem trans (h : KeepsWords K r s) (h' : KeepsWords K s t) : KeepsWords K r t :=
  ⟨h'.mt.trans h.mt, h'.phase.trans h.phase, h'.heldHost.trans h.heldHost, h'.hibReq.trans h.hibReq, fun a ha => (h'.regs a ha).trans (h.regs a ha)⟩

theorem ite {c : Prop} [Decidable c] (h : KeepsWords K r s) (h' : KeepsWords K r t) : KeepsWords K r (if c then s else t) := by
  split <;> assumption

/-- A step that only some states take. -/
theorem iteSelf {c : Prop} [Decidable c] (h : KeepsWords K s t) : KeepsWords K s (if c then t else s) := ite h (refl s)

theorem foldl {α : Type} {f : State → α → State} {l : List α} (hf : ∀ s, ∀ x ∈ l, KeepsWords K s (f s x)) (s : State) :
    KeepsWords K s (l.foldl f s) := by
  induction l generalizing s with
  | nil => exact refl s
  | cons x l ih => exact (hf s x List.mem_cons_self).trans (ih (fun s y hy => hf s y (List.mem_cons_of_mem x hy)) _)

theorem foldBelow {f : State → Nat → State} {n : Nat} (hf : ∀ s, ∀ x < n, KeepsWords K s (f s x)) (s : State) :
    KeepsWords K s (foldBelow n f s) := foldl (fun s x hx => hf s x (List.mem_range.1 hx)) s

theorem setReg (s : State) {a : Nat} (v : Word) (ha : ¬ K a) : KeepsWords K s (s.setReg a v) :=
  ⟨rfl, rfl, rfl, rfl, fun _ hb => s.reg_setReg_ne v fun h => ha (h ▸ hb)⟩

theorem setBit (s : State) {a : Nat} (i : Nat) (b : Bool) (ha : ¬ K a) : KeepsWords K s (s.setBit a i b) := setReg s _ ha

theorem setFld (s : State) {a : Nat} (hi lo v : Nat) (ha : ¬ K a) : KeepsWords K s (s.setFld a hi lo v) := setReg s _ ha

theorem setPair (s : State) {a b : Nat} (v : BitVec 64) (ha : ¬ K a) (hb : ¬ K b) : KeepsWords K s (s.setPair a b v) :=
  (setReg s _ ha).trans (setReg _ _ hb)

theorem raise (s : State) {a : Nat} (i : Nat) (ha : ¬ K a) : KeepsWords K s (s.raise a i) := (setReg s _ ha).trans (of_eq rfl rfl rfl rfl rfl)

theorem raiseIf (s : State) (c : Bool) {a : Nat} (i : Nat) (ha : ¬ K a) : KeepsWords K s (s.raiseIf c a i) := iteSelf (raise s i ha)

theorem satCount (s : State) {a : Nat} (ha : ¬ K a) : KeepsWords K s (s.satCount a) := (setReg s _ ha).trans (of_eq rfl rfl rfl rfl rfl)

theorem deliverIf (s : State) (sel selBit source cause : Nat) : KeepsWords K s (s.deliverIf sel selBit source cause) :=
  iteSelf (of_eq rfl rfl rfl rfl rfl)

/-- What leaves the system beside the pads as it is leaves these registers. -/
theorem of_keepsSystem (hK : ∀ a, K a → besidePins a) (h : KeepsSystem s t) : KeepsWords K s t :=
  ⟨h.mt, by rw [h.power], by rw [h.power], by rw [h.power], fun a ha => h.regs a (hK a ha)⟩

/-- A frame with a larger set of registers. -/
theorem mono {K' : Nat → Prop} (hK : ∀ a, K' a → K a) (h : KeepsWords K s t) : KeepsWords K' s t :=
  ⟨h.mt, h.phase, h.heldHost, h.hibReq, fun a ha => h.regs a (hK a ha)⟩

end KeepsWords

/-! ### The weirs -/

/-- The registers of `K` are none that the end of a weir's event writes. -/
structure BesideEvents (K : Nat → Prop) : Prop where
  out : ∀ k, ¬ K (OUT_STATUS k)
  abort : ∀ n, ¬ K (STALL_ABORT_CNT n)

variable {K : Nat → Prop}

theorem State.mapEvents_keepsWords (s : State) (f : Slot → Slot) : KeepsWords K s (s.mapEvents f) := by
  unfold State.mapEvents
  refine .foldBelow (fun s _ _ => ?_) s
  exact .ite (.refl s) (.of_eq rfl rfl rfl rfl rfl)

theorem State.retire_keepsWords (s : State) (n i : Nat) (o : Outcome) : KeepsWords K s (s.retire n i o) := by
  have hevent (t : State) (k : Nat) : KeepsWords K t (t.weirEvent n k) := .deliverIf t _ _ _ _
  have hslot : KeepsWords K s (s.setWeir n ((s.weir n).retire s.mt i o)) := .of_eq rfl rfl rfl rfl rfl
  cases o with
  | droppedPast => exact hslot.trans (hevent _ _)
  | droppedSync => exact hslot.trans (hevent _ _)
  | _ => exact hslot

section
variable (h : BesideEvents K)
include h

theorem State.eventLevel_keepsWords (s : State) (k : Nat) (st : Stamp) (lvl : Bool) : KeepsWords K s (s.eventLevel k st lvl) := by
  refine .ite (.refl s) (.trans ?_ (.setBit _ 1 false (h.out k)))
  exact .of_eq rfl rfl rfl rfl rfl

theorem State.endAction_keepsWords (s : State) (n : Nat) (e : Slot) (st : Stamp) : KeepsWords K s (s.endAction n e st) := by
  unfold State.endAction
  dsimp only
  split
  · exact .iteSelf (s.eventLevel_keepsWords h _ _ _)
  · exact .iteSelf (s.eventLevel_keepsWords h _ _ _)
  · exact .iteSelf (.of_eq rfl rfl rfl rfl rfl)
  · exact .iteSelf (.of_eq rfl rfl rfl rfl rfl)
  · exact .refl s

theorem State.abortSlot_keepsWords (s : State) (n i : Nat) (e : Slot) : KeepsWords K s (s.abortSlot n i e) := by
  unfold State.abortSlot
  exact ((KeepsWords.iteSelf (s.endAction_keepsWords h _ _ _)).trans (.satCount _ (h.abort n))).trans (State.retire_keepsWords _ _ _ _)

theorem State.abortEvents_keepsWords (s : State) (sh : Nat) (p : Nat → Bool) : KeepsWords K s (s.abortEvents sh p) := by
  unfold State.abortEvents
  exact .foldBelow (fun s n _ => .foldl (fun s ie _ => .iteSelf (s.abortSlot_keepsWords h n ie.1 ie.2)) s) s

theorem State.weirShaftLost_keepsWords (s : State) (sh : Nat) (stopped : Bool) : KeepsWords K s (s.weirShaftLost sh stopped) := by
  unfold State.weirShaftLost
  exact (s.mapEvents_keepsWords _).trans (State.abortEvents_keepsWords h _ _ _)

end

/-! ### A shaft's state (R129, R142) -/

/-- The registers of `K` are none that shaft `h` writes when it changes its state. -/
structure BesideState (K : Nat → Prop) (h : Nat) : Prop where
  events : BesideEvents K
  swap : ¬ K SWAP_STATUS
  status : ¬ K (SH_STATUS h)
  period : ¬ K (PRED_PERIOD h)
  lost : ¬ K (LOST_CNT h)

section
variable {h : Nat} (hK : BesideState K h)
include hK

theorem State.swapShaftLost_keepsWords (s : State) : KeepsWords K s (s.swapShaftLost h) := by
  have hset (v : Word) : KeepsWords K s (s.setReg SWAP_STATUS v) := .setReg s v hK.swap
  refine .iteSelf (.ite ?_ (hset _))
  exact (hset _).trans (.of_eq rfl rfl rfl rfl rfl)

theorem State.holdAt_keepsWords (s : State) (p : BitVec 64) : KeepsWords K s (s.holdAt h p) := by
  have hreport (t : State) : KeepsWords K t (t.reportEstimate h) := (KeepsWords.setReg t _ hK.status).trans (.setReg _ _ hK.period)
  refine .trans ?_ (hreport _)
  exact .of_eq rfl rfl rfl rfl rfl

theorem State.enterState_keepsWords (s : State) (st : Nat) : KeepsWords K s (s.enterState h st) := by
  have hset (t : State) (v : Word) : KeepsWords K t (t.setReg (SH_STATUS h) v) := .setReg t v hK.status
  have hevent (t : State) (k : Nat) : KeepsWords K t (t.shaftEvent h k) := .deliverIf t _ _ _ _
  have hleft : KeepsWords K s (s.leftSync h st) := .iteSelf ((hset s _).trans (State.holdAt_keepsWords hK _ _))
  have hshow (t : State) : KeepsWords K t (t.showState h st) :=
    (((hset t _).trans (.iteSelf (hset _ _))).trans (.iteSelf (hset _ _))).trans (.iteSelf ((KeepsWords.satCount _ hK.lost).trans (hevent _ 2)))
  have htell (t : State) (b : Bool) : KeepsWords K t (t.tellState h st b) := by
    refine .ite (hevent t 0) (.ite (hevent t 1) (.iteSelf (.trans ?_ (State.swapShaftLost_keepsWords hK _))))
    refine .trans ?_ (State.weirShaftLost_keepsWords hK.events _ h _)
    exact .of_eq rfl rfl rfl rfl rfl
  rw [s.enterState_eq]
  exact .ite (.refl s) ((hleft.trans (hshow _)).trans (htell _ _))

end

/-! ### Registers beside one shaft -/

/-- A register between the shafts' block and the clusters' that is none of shaft `h`. -/
def besideShaft (h a : Nat) : Prop := 0x90000 ≤ a ∧ a < 0x1000000 ∧ (a < SH_CTRL h ∨ SH_CTRL h + 0x1000 ≤ a)

theorem besideShaft_state (h : Nat) : BesideState (besideShaft h) h := by
  refine ⟨⟨fun k => ?_, fun n => ?_⟩, ?_, ?_, ?_, ?_⟩ <;> unfold besideShaft
  · unfold OUT_STATUS; omega
  · unfold STALL_ABORT_CNT; omega
  · unfold SWAP_STATUS; omega
  · unfold SH_STATUS SH_CTRL; omega
  · unfold PRED_PERIOD SH_CTRL; omega
  · unfold LOST_CNT SH_CTRL; omega

/-- A shaft has the state that it enters. -/
theorem State.shState_enterState (s : State) (h : Fin 16) {st : Nat} (hst : st < 8) : (s.enterState h st).shState h = st := by
  have hshown (t : State) : (t.showState h st).shState h = st := by
    have hcnt : SH_STATUS h ≠ LOST_CNT h := shaftReg_ne (by decide) h
    have hbit (u : State) (c : Prop) [Decidable c] (i : Nat) (b : Bool) (hi : i < 0 ∨ 2 < i) :
        (if c then u.setBit (SH_STATUS h) i b else u).shState h = u.shState h := by
      split
      · rw [State.shState, State.fld, State.setBit, State.reg_setReg_self, bitsOf_putBit_ne _ _ _ _ _ hi]
        rfl
      · rfl
    have hlost (u : State) (c : Prop) [Decidable c] : (if c then (u.satCount (LOST_CNT h)).shaftEvent h 2 else u).shState h = u.shState h := by
      split
      · refine ((State.shaftEvent_keepsShafts _ h 2).shState h).trans ?_
        rw [State.shState, State.fld, State.reg_satCount_ne _ hcnt]
        rfl
      · rfl
    refine (hlost _ _).trans ((hbit _ _ 7 true (by decide)).trans ((hbit _ _ 5 false (by decide)).trans ?_))
    rw [State.shState, t.fld_setFld_self _ 2 0 st (by decide)]
    exact Nat.mod_eq_of_lt hst
  have htell (t : State) (b : Bool) : (t.tellState h st b).shState h = t.shState h := by
    have hevent (k : Nat) := (t.shaftEvent_keepsShafts h k).shState h
    have hk := ((State.weirShaftLost_keepsShafts (t.setShaft h { t.shaft h with dirTooth := false, afterStall := false }) h (st == 0)).trans
      (State.swapShaftLost_keepsShafts _ h)).shState h
    unfold State.tellState
    split
    · exact hevent 0
    · split
      · exact hevent 1
      · split
        · exact hk
        · rfl
  rw [s.enterState_eq]
  split
  · exact Eq.symm ‹_›
  · rw [htell, hshown]

/-- Shafts that all enter one state: each has it, and other blocks keep their words. -/
theorem State.enterAll_shows {l : List Nat} (hl : ∀ h ∈ l, h < 16) {st : Nat} (hst : st < 8) (s : State) :
    (∀ h ∈ l, (l.foldl (fun s h => s.enterState h st) s).shState h = st) ∧
      ∀ a, 0xA0000 ≤ a → a < 0x1000000 → (l.foldl (fun s h => s.enterState h st) s).reg a = s.reg a := by
  induction l generalizing s with
  | nil => exact ⟨fun _ h => absurd h List.not_mem_nil, fun _ _ _ => rfl⟩
  | cons x l ih =>
    obtain ⟨hthese, hothers⟩ := ih (fun h hh => hl h (List.mem_cons_of_mem x hh)) (s.enterState x st)
    have hx : x < 16 := hl x List.mem_cons_self
    refine ⟨fun h hh => ?_, fun a ha ha' => (hothers a ha ha').trans ((s.enterState_keepsWords (besideShaft_state x) st).regs a ?_)⟩
    · by_cases hin : h ∈ l
      · exact hthese h hin
      · obtain rfl : h = x := (List.mem_cons.1 hh).resolve_right hin
        have hkeep : KeepsWords (fun a => a = SH_STATUS h) (s.enterState h st) (l.foldl (fun s h => s.enterState h st) (s.enterState h st)) := by
          refine .foldl (fun u y hy => ?_) _
          have hne : y ≠ h := fun he => hin (he ▸ hy)
          refine (u.enterState_keepsWords (besideShaft_state y) st).mono ?_
          rintro _ rfl
          unfold besideShaft SH_STATUS SH_CTRL
          omega
        rw [List.foldl_cons, State.shState, State.fld, hkeep.regs _ rfl]
        exact s.shState_enterState ⟨h, hx⟩ hst
    · unfold besideShaft SH_CTRL
      omega

end Sys2Proof.Machine
end

section
/-!
PROOFS. Network time (R329 to R331): the servo, the path delay, and the best master clock algorithm.
-/

namespace Sys2Proof.Machine

open Reg

/-! ### The state of the time sync -/

theorem State.setTsState_shows (s : State) {st : Nat} (h : st < 8) :
    (s.setTsState st).tsState = st ∧ (s.setTsState st).slavePort = s.slavePort ∧ (s.setTsState st).ts = s.ts ∧
      (∀ a, a ≠ TS_STATUS → (s.setTsState st).reg a = s.reg a) := by
  unfold State.setTsState
  split
  · next hst => exact ⟨hst, rfl, rfl, fun _ _ => rfl⟩
  · refine ⟨?_, s.fld_setFld_ne _ _ _ _ _ _ (by decide), rfl, fun a ha => s.reg_setReg_ne _ ha⟩
    exact (s.fld_setFld_self _ 2 0 st (by decide)).trans (Nat.mod_eq_of_lt h)

/-- An adjustment of the trim leaves every other register, and what the last Sync has brought. -/
theorem State.trimAdjust_shows (s : State) :
    (∀ a, a ≠ RATE_TRIM → s.trimAdjust.reg a = s.reg a) ∧ s.trimAdjust.ts.lastSync = s.ts.lastSync ∧ s.trimAdjust.ts.seconds = s.ts.seconds :=
  ⟨fun _ ha => s.reg_setReg_ne _ ha, rfl, rfl⟩

theorem State.acquireStep_shows (s : State) (off : Int) :
    (s.acquireStep off).pair NT_OFS_LO NT_OFS_HI = s.pair NT_OFS_LO NT_OFS_HI - bvInt 64 off ∧
      (s.acquireStep off).reg NT_STEP_CNT = satInc (s.reg NT_STEP_CNT) ∧
      (s.acquireStep off).ts.lastSync = s.ts.lastSync ∧ (s.acquireStep off).ts.seconds = s.ts.seconds := by
  have hraise (u : State) {a : Nat} (ha : a ≠ TS_STATUS) : (u.raise TS_STATUS 3).reg a = u.reg a := u.reg_setReg_ne _ ha
  have hreg {a : Nat} (ha : a ≠ TS_STATUS) (ha' : a ≠ NT_STEP_CNT) : (s.acquireStep off).reg a =
      (s.setPair NT_OFS_LO NT_OFS_HI (s.pair NT_OFS_LO NT_OFS_HI - bvInt 64 off)).reg a :=
    (hraise _ ha).trans (State.reg_satCount_ne _ ha')
  refine ⟨?_, ?_, rfl, rfl⟩
  · rw [State.pair, hreg (by decide) (by decide), hreg (by decide) (by decide), ← State.pair, State.pair_setPair_self _ _ _ _ (by decide)]
  · refine (hraise _ (by decide)).trans ((State.reg_satCount_self _ _).trans (congrArg satInc ?_))
    exact s.reg_setPair_ne _ (by decide) (by decide)

/-- The servo in LOCKED steps beyond 1 µs, and keeps the time else. -/
theorem State.servo_locked {s : State} (h : s.tsState = 2) (off : Int) :
    s.servo off = if us1 < off.natAbs then (s.acquireStep off).setTsState 1 else s.trimAdjust := by
  unfold State.servo
  rw [h]
  rfl

theorem clampInt_of_small {off : Int} (h : ¬ 51200 < off.natAbs) : clampInt (-(2 ^ 31)) (2 ^ 31 - 1) off = off := by
  unfold clampInt
  omega

/-- The state that a Sync is noted in, with `v` in OFFSET. -/
def State.syncNoted (s : State) (sec : BitVec 48) (v : Word) : State :=
  { s.setReg OFFSET v with ts := { (s.setReg OFFSET v).ts with lastSync := (s.setReg OFFSET v).mt, seconds := sec } }

/-- OFFSET as it shows `off`. -/
def offsetWord (off : Int) : Word := bvInt 32 (clampInt (-(2 ^ 31)) (2 ^ 31 - 1) off)

theorem offsetWord_of_small {off : Int} (h : ¬ 51200 < off.natAbs) : offsetWord off = bvInt 32 off := by
  rw [offsetWord, clampInt_of_small h]

theorem State.reg_syncNoted (s : State) (sec : BitVec 48) (v : Word) {a : Nat} (h : a ≠ OFFSET) : (s.syncNoted sec v).reg a = s.reg a :=
  s.reg_setReg_ne v h

theorem State.syncNoted_ts (s : State) (sec : BitVec 48) (v : Word) : (s.syncNoted sec v).ts.lastSync = s.mt ∧ (s.syncNoted sec v).ts.seconds = sec :=
  ⟨rfl, rfl⟩

/-- What a Sync in LOCKED leaves. -/
theorem State.servo_syncNoted_shows {s : State} (h : s.tsState = 2) (sec : BitVec 48) (off : Int) :
    let t := (s.syncNoted sec (offsetWord off)).servo off
    t.ts.lastSync = s.mt ∧ t.ts.seconds = sec ∧
      (if 51200 < off.natAbs then t.tsState = 1 ∧ t.reg NT_STEP_CNT = satInc (s.reg NT_STEP_CNT) ∧
         t.pair NT_OFS_LO NT_OFS_HI = s.pair NT_OFS_LO NT_OFS_HI - bvInt 64 off
       else t.tsState = 2 ∧ t.reg OFFSET = bvInt 32 off ∧ t.pair NT_OFS_LO NT_OFS_HI = s.pair NT_OFS_LO NT_OFS_HI) := by
  intro t
  have hkept {a : Nat} (ha : a ≠ OFFSET) : (s.syncNoted sec (offsetWord off)).reg a = s.reg a := s.reg_syncNoted sec (offsetWord off) ha
  obtain ⟨hnotedAt, hnotedSec⟩ := s.syncNoted_ts sec (offsetWord off)
  have hlocked : (s.syncNoted sec (offsetWord off)).tsState = 2 := (congrArg (bitsOf · 2 0) (hkept (by decide))).trans h
  have hpair : (s.syncNoted sec (offsetWord off)).pair NT_OFS_LO NT_OFS_HI = s.pair NT_OFS_LO NT_OFS_HI := by
    rw [State.pair, hkept (by decide), hkept (by decide), ← State.pair]
  by_cases hbig : 51200 < off.natAbs
  · have ht : t = ((s.syncNoted sec (offsetWord off)).acquireStep off).setTsState 1 := (State.servo_locked hlocked off).trans (if_pos hbig)
    obtain ⟨hofs, hcnt, hlast, hsec⟩ := (s.syncNoted sec (offsetWord off)).acquireStep_shows off
    obtain ⟨hst, -, hts, hothers⟩ := ((s.syncNoted sec (offsetWord off)).acquireStep off).setTsState_shows (st := 1) (by decide)
    rw [if_pos hbig, ht, hts, hlast, hsec, hnotedAt, hnotedSec, State.pair, hothers _ (by decide), hothers _ (by decide), hothers _ (by decide), ← State.pair, hofs,
      hcnt, hkept (by decide), hpair]
    exact ⟨rfl, rfl, hst, rfl, rfl⟩
  · have ht : t = (s.syncNoted sec (offsetWord off)).trimAdjust := (State.servo_locked hlocked off).trans (if_neg hbig)
    obtain ⟨hothers, hlast, hsec⟩ := (s.syncNoted sec (offsetWord off)).trimAdjust_shows
    rw [if_neg hbig, ht, hlast, hsec, hnotedAt, hnotedSec]
    refine ⟨rfl, rfl, (congrArg (bitsOf · 2 0) (hothers _ (by decide))).trans hlocked, ?_, ?_⟩
    · rw [hothers _ (by decide), ← offsetWord_of_small hbig]
      exact s.reg_setReg_self _ _
    · rw [State.pair, hothers _ (by decide), hothers _ (by decide), ← State.pair, hpair]

theorem State.syncOffset_eq (s : State) (p : Nat) (o : PtpTime) (corr : BitVec 32) :
    s.syncOffset p o corr = ahead (s.ntNow - BitVec.ofNat 64 (rxLatency p)) (stampOf o + corr.zeroExtend 64 + (s.port p).pathDelay) := by
  have hstamp (n l q : BitVec 64) : n - l + q = n + q - l := by bv_omega
  rw [State.syncOffset, State.ntAt, State.rxStamp, hstamp, ← State.ntNow]

theorem State.ptpSync_eq {s : State} {p : Nat} (hrole : s.portRole p = 2) (hslave : s.slavePort = p) (hst : s.tsState = 2) (o : PtpTime)
    (corr : BitVec 32) : s.ptpSync p o corr = (s.syncNoted o.seconds (offsetWord (s.syncOffset p o corr))).servo (s.syncOffset p o corr) :=
  if_pos (by simp [hrole, hslave, hst])

/-! ### Roles -/

theorem State.portRole_setRole (s : State) (p : Nat) {r : Nat} (hr : r < 4) : (s.setRole p r).portRole p = r :=
  (s.fld_setFld_self _ 9 8 r (by decide)).trans (Nat.mod_eq_of_lt hr)

theorem State.portRole_setRole_ne (s : State) {p q : Nat} (r : Nat) (h : p ≠ q) : (s.setRole q r).portRole p = s.portRole p :=
  congrArg (bitsOf · 9 8) (s.reg_setReg_ne _ (by unfold PORT_STATUS; omega))

/-- A role is no register but PORT_STATUS's. -/
theorem State.reg_setRole (s : State) {p r a : Nat} (h : a ≠ PORT_STATUS p) : (s.setRole p r).reg a = s.reg a := s.reg_setReg_ne _ h

/-- A role leaves the port up. -/
theorem State.ptpOn_setRole (s : State) (p q r : Nat) : (s.setRole q r).ptpOn p = s.ptpOn p := by
  have hctrl : ∀ i, (s.setRole q r).bit (PORT_CTRL p) i = s.bit (PORT_CTRL p) i := fun i =>
    congrArg (bitOf · i) (s.reg_setRole (by unfold PORT_CTRL PORT_STATUS; omega))
  have hts : (s.setRole q r).bit TS_CTRL 0 = s.bit TS_CTRL 0 := congrArg (bitOf · 0) (s.reg_setRole (by unfold TS_CTRL PORT_STATUS; omega))
  have hlink : (s.setRole q r).bit (PORT_STATUS p) 0 = s.bit (PORT_STATUS p) 0 := by
    by_cases h : PORT_STATUS p = PORT_STATUS q
    · rw [State.setRole, State.setFld, State.bit, h, State.reg_setReg_self, bitOf_setBits_ne _ _ _ _ _ (by decide), ← h]
      rfl
    · exact congrArg (bitOf · 0) (s.reg_setRole h)
  unfold State.ptpOn State.portUp
  rw [hctrl, hctrl, hts, hlink]
  rfl

/-- A port that runs gPTP is a master port. -/
def State.masterRole (s : State) (p : Nat) : State := if s.ptpOn p then s.setRole p 1 else s

theorem State.masterRole_shows (s : State) (p : Nat) :
    (s.ptpOn p = true → (s.masterRole p).portRole p = 1) ∧ (∀ q, q ≠ p → (s.masterRole p).portRole q = s.portRole q) ∧
      (∀ q, (s.masterRole p).ptpOn q = s.ptpOn q) := by
  unfold State.masterRole
  split
  · exact ⟨fun _ => s.portRole_setRole p (by decide), fun q hq => s.portRole_setRole_ne 1 hq, fun q => s.ptpOn_setRole q p 1⟩
  · next h => exact ⟨fun hon => absurd hon h, fun _ _ => rfl, fun _ => rfl⟩

theorem State.becomeGrandmaster_shows (s : State) :
    s.becomeGrandmaster.tsState = 4 ∧ s.becomeGrandmaster.pair GM_ID_LO GM_ID_HI = clockIdentity ∧
      ∀ p : Nat, p < 2 → s.ptpOn p = true → s.becomeGrandmaster.portRole p = 1 := by
  obtain ⟨hthis0, -, hon0⟩ := s.masterRole_shows 0
  obtain ⟨hthis1, hother1, -⟩ := (s.masterRole 0).masterRole_shows 1
  obtain ⟨hst, -, -, hothers⟩ := ((((s.masterRole 0).masterRole 1).setPair GM_ID_LO GM_ID_HI clockIdentity)).setTsState_shows (st := 4) (by decide)
  have hdef : s.becomeGrandmaster = (((s.masterRole 0).masterRole 1).setPair GM_ID_LO GM_ID_HI clockIdentity).setTsState 4 := rfl
  rw [hdef]
  refine ⟨hst, ?_, fun p hp hon => ?_⟩
  · rw [State.pair, hothers _ (by decide), hothers _ (by decide), ← State.pair, State.pair_setPair_self _ _ _ _ (by decide)]
  · have hrole : ((((s.masterRole 0).masterRole 1).setPair GM_ID_LO GM_ID_HI clockIdentity).setTsState 4).portRole p =
        ((s.masterRole 0).masterRole 1).portRole p := by
      refine congrArg (bitsOf · 9 8) ((hothers _ (by unfold PORT_STATUS TS_STATUS; omega)).trans (State.reg_setPair_ne _ _ ?_ ?_))
      · unfold PORT_STATUS GM_ID_LO; omega
      · unfold PORT_STATUS GM_ID_HI; omega
    rw [hrole]
    obtain rfl | rfl : p = 0 ∨ p = 1 := by omega
    · rw [hother1 0 (by decide), hthis0 hon]
    · exact hthis1 (by rw [hon0]; exact hon)

end Sys2Proof.Machine

namespace Sys2Proof.Proofs

open Sys2Proof.Machine Sys2Proof.Machine.Reg

theorem portUp_of_ptpOn {s : State} {p : Nat} (h : s.ptpOn p = true) : s.portUp p = true :=
  (Bool.and_eq_true_iff.1 (Bool.and_eq_true_iff.1 h).1).2

/-- A sound message of gPTP at a port that runs it. -/
theorem gptpSync_received {p : Nat} {f : RxFrame} {m : PtpMessage} {corr : BitVec 32} {s t : State} (hf : f.sound)
    (hon : s.ptpOn p = true) (hst : s.tsState ≠ 0)
    (hsync : ∀ o, m = .sync o → s.ptpSync p o corr = t) (hreq : ∀ i, m = .pdelayReq i → s.sendFrame p .gptp (.pdelayResp i (s.rxStamp p)) = t)
    (hresp : ∀ a b, m = .pdelayResp a b → s.ptpDelay p a b corr = t) : s.gptpSync p f m corr = t := by
  have hserved : ¬ (!s.ptpOn p || s.tsState == 0) = true := by simp [hon, hst]
  rw [State.gptpSync, State.receive_framed (portUp_of_ptpOn hon) hf, if_neg (by rw [Bool.false_and]; decide), if_neg hserved]
  cases m with
  | sync o => exact hsync o rfl
  | pdelayReq i => exact hreq i rfl
  | pdelayResp a b => exact hresp a b rfl

theorem gptpSync_row {p : Fin 2} {f : RxFrame} {m : PtpMessage} {corr : BitVec 32} {s t : State} (hc : s.clocked)
    (h : s.gptpSync p f m corr = t) : exec (.gptpSync ⟨p, f⟩ m corr) s = .next t :=
  congrArg Host.Outcome.next ((s.onTclk_clocked _ hc).trans h)

theorem sync_serves (p : Fin 2) (f : RxFrame) (sec : BitVec 48) (ns corr : BitVec 32) (s : State) (hc : s.clocked) (hf : f.sound)
    (hon : s.ptpOn p = true) (hrole : s.portRole p = 2) (hslave : s.slavePort = p) (hst : s.tsState = 2) :
    let off := ahead (s.ntNow - BitVec.ofNat 64 (rxLatency p)) (ntOf sec.toNat ns.toNat + corr.zeroExtend 64 + (s.port p).pathDelay)
    ∃ t, exec (.gptpSync ⟨p, f⟩ (.sync ⟨sec, ns⟩) corr) s = .next t ∧ t.ts.lastSync = s.mt ∧ t.ts.seconds = sec ∧
      (if 51200 < off.natAbs then t.tsState = 1 ∧ t.reg NT_STEP_CNT = satInc (s.reg NT_STEP_CNT) ∧
         t.pair NT_OFS_LO NT_OFS_HI = s.pair NT_OFS_LO NT_OFS_HI - bvInt 64 off
       else t.tsState = 2 ∧ t.reg OFFSET = bvInt 32 off ∧ t.pair NT_OFS_LO NT_OFS_HI = s.pair NT_OFS_LO NT_OFS_HI) := by
  intro off
  have hoff : s.syncOffset p ⟨sec, ns⟩ corr = off := s.syncOffset_eq p ⟨sec, ns⟩ corr
  have hsync : s.ptpSync p ⟨sec, ns⟩ corr = (s.syncNoted sec (offsetWord off)).servo off := by
    rw [State.ptpSync_eq hrole hslave hst, hoff]
  exact ⟨_, gptpSync_row hc (gptpSync_received hf hon (by rw [hst]; decide) (fun o h => by cases h; exact hsync) (fun _ h => nomatch h)
    (fun _ _ h => nomatch h)), State.servo_syncNoted_shows hst sec off⟩

theorem pdelayReq_answered (p : Fin 2) (f : RxFrame) (identity : BitVec 80) (corr : BitVec 32) (s : State) (hc : s.clocked) (hf : f.sound)
    (hon : s.ptpOn p = true) (hst : s.tsState ≠ 0) :
    exec (.gptpSync ⟨p, f⟩ (.pdelayReq identity) corr) s = .next (s.sendFrame p .gptp (.pdelayResp identity (s.rxStamp p))) :=
  gptpSync_row hc (gptpSync_received hf hon hst (fun _ h => nomatch h) (fun i h => by cases h; rfl) (fun _ _ h => nomatch h))

theorem pdelayResp_measures (p : Fin 2) (f : RxFrame) (received responded : PtpTime) (corr : BitVec 32) (t1 : Stamp) (s : State) (hc : s.clocked)
    (hf : f.sound) (hon : s.ptpOn p = true) (hst : s.tsState ≠ 0) (hopen : (s.port p).pdelayOpen = some t1) :
    exec (.gptpSync ⟨p, f⟩ (.pdelayResp received responded) corr) s = .next (s.setPort p { s.port p with
      pdelayOpen := none,
      pathDelay := bvInt 64 ((ahead (s.rxStamp p) t1 - ahead (stampOf responded) (stampOf received) - (corr.toNat : Int)) / 2) }) := by
  have hdelay : s.ptpDelay p received responded corr = s.setPort p { s.port p with
      pdelayOpen := none,
      pathDelay := bvInt 64 ((ahead (s.rxStamp p) t1 - ahead (stampOf responded) (stampOf received) - (corr.toNat : Int)) / 2) } := by
    unfold State.ptpDelay
    dsimp only
    rw [hopen]
  exact gptpSync_row hc (gptpSync_received hf hon hst (fun _ h => nomatch h) (fun _ h => nomatch h) (fun a b h => by cases h; exact hdelay))

theorem ptpFrame_left (p : Fin 2) (s : State) (f : TxFrame) (hf : nextFrame (s.port p).tx = some f) (hup : s.portUp p = true)
    (hfree : s.reached (s.port p).txFree = true) :
    (f.frame = .sync → ((s.portSend p).port p).tx = (s.port p).tx.erase f ++
      [{ cls := .gptp, vlan := s.vlanTag p .gptp, frame := .followUp (s.ntNow + BitVec.ofNat 64 (txLatency p)) }]) ∧
    (f.frame = .pdelayReq → ((s.portSend p).port p).pdelayOpen = some (s.now + BitVec.ofNat 64 (txLatency p))) ∧
    (∀ identity received, f.frame = .pdelayResp identity received → ((s.portSend p).port p).tx = (s.port p).tx.erase f ++
      [{ cls := .gptp, vlan := s.vlanTag p .gptp, frame := .pdelayRespFollowUp identity (s.now + BitVec.ofNat 64 (txLatency p)) }]) := by
  have hport : (s.frameSent p f).port p = { s.port p with tx := (s.port p).tx.erase f, txFree := s.mt + BitVec.ofNat 64 f.ticks } :=
    s.port_setPort_self _ _
  have hsend (x : Frame) : (((s.frameSent p f).sendFrame p .gptp x).port p).tx = (s.port p).tx.erase f ++
      [{ cls := .gptp, vlan := s.vlanTag p .gptp, frame := x }] := by
    rw [State.port_sendFrame, hport]
    rfl
  have hstamp : (s.frameSent p f).ntAt ((s.frameSent p f).txStamp p) = s.ntNow + BitVec.ofNat 64 (txLatency p) := by
    have hlater (n l q : BitVec 64) : n + l + q = n + q + l := by bv_omega
    exact hlater s.now (BitVec.ofNat 64 (txLatency p)) (s.pair NT_OFS_LO NT_OFS_HI)
  rw [State.portSend_sends hf hup hfree]
  refine ⟨fun h => ?_, fun h => ?_, fun identity received h => ?_⟩ <;> rw [h]
  · exact (hsend _).trans (by rw [hstamp])
  · exact congrArg Port.pdelayOpen ((s.frameSent p f).port_setPort_self _ _)
  · exact hsend _

theorem syncTimeout_holdsOver (s : State) (hs : s.serves) (hst : s.tsState = 2)
    (hdue : s.reached (s.ts.lastSync + BitVec.ofNat 64 (3 * s.syncInterval)) = true) : ∃ t, exec .syncTimeout s = .next t ∧ t.tsState = 3 :=
  ⟨_, congrArg Host.Outcome.next ((s.onTclk_clocked _ (s.clocked_of_serves hs)).trans
    (if_pos (by rw [State.mainRuns, hs.1, hst, hdue]; rfl))), (s.setTsState_shows (by decide)).1⟩

theorem bmca_makesGrandmaster (s : State) (hs : s.serves) (hen : s.bit TS_CTRL 0 = true) (hbest : s.ownBest = true) :
    ∃ t, exec .bmcaGrandmaster s = .next t ∧ t.tsState = 4 ∧ t.pair GM_ID_LO GM_ID_HI = clockIdentity ∧
      ∀ p : Nat, p < 2 → s.ptpOn p = true → t.portRole p = 1 :=
  ⟨_, congrArg Host.Outcome.next ((s.onTclk_clocked _ (s.clocked_of_serves hs)).trans
    (if_pos (by rw [State.mainRuns, hs.1, hen, hbest]; rfl))), s.becomeGrandmaster_shows⟩

theorem bmca_incapable (s : State) (h : s.bit TS_CTRL 1 = false) : exec .bmcaGrandmaster s = .next s := by
  have hnot : s.ownBest = false := by rw [State.ownBest, h]; rfl
  have hrow : s.bmcaGrandmaster = s := if_neg (by rw [hnot, Bool.and_false]; decide)
  refine congrArg Host.Outcome.next ?_
  rw [hrow]
  exact ite_self _

theorem sync_sent (p : Fin 2) (s : State) (hc : s.clocked) (hon : s.ptpOn p = true) (hrole : s.portRole p = 1) (hst : s.tsState ≠ 0)
    (hsync : (s.port p).syncSent = none) (hann : (s.port p).annSent = some s.mt) (hdelay : (s.port p).pdelaySent = some s.mt) :
    ∃ t, exec (.gptpSyncSend p) s = .next t ∧ (t.port p).syncSent = some s.mt ∧
      (t.port p).tx = (s.port p).tx ++ [{ cls := .gptp, vlan := s.vlanTag p .gptp, frame := .sync }] := by
  have hwaits (u : State) (hu : u.mt = s.mt) : u.dueAfter (some s.mt) 800000000 = false := by
    refine decide_eq_false ?_
    rw [hu, ahead, show s.mt - (s.mt + BitVec.ofNat 64 800000000) = -(BitVec.ofNat 64 800000000) by bv_omega]
    decide
  have hport : (s.sendSync p).port p = { s.port p with syncSent := some s.mt, tx := (s.port p).tx ++
      [{ cls := .gptp, vlan := s.vlanTag p .gptp, frame := .sync }] } := by
    rw [State.sendSync, State.port_sendFrame, State.port_setPort_self]
    rfl
  have hsend : s.gptpSyncSend p = s.sendSync p := by
    have hruns : (s.ptpOn p && s.tsState != 0) = true := by simp [hon, hst]
    have hfirst : (s.portRole p == 1 && s.dueAfter none s.syncInterval) = true := by rw [hrole]; rfl
    unfold State.gptpSyncSend
    rw [if_pos hruns]
    dsimp only
    rw [hsync, hann, hdelay, if_pos hfirst, hwaits (s.sendSync p) rfl, Bool.and_false, if_neg Bool.false_ne_true, hwaits (s.sendSync p) rfl,
      if_neg Bool.false_ne_true]
  exact ⟨_, congrArg Host.Outcome.next ((s.onTclk_clocked _ hc).trans hsend), congrArg Port.syncSent hport, congrArg Port.tx hport⟩

theorem tsSnap_taken (v : Word) (s : State) (ha : s.accepts TS_SNAP_CTRL v) (hv : v.getLsbD 0 = true) :
    exec (.tsSnapTake v) s = .next (((s.noteHost TS_SNAP_CTRL).setPair TS_SNAP_MT_LO TS_SNAP_MT_HI s.mt).setPair
      TS_SNAP_NT_LO TS_SNAP_NT_HI (s.now + s.pair NT_OFS_LO NT_OFS_HI)) :=
  congrArg Host.Outcome.next ((s.hostWrite_accepts _ ha).trans (if_pos hv))

end Sys2Proof.Proofs
end

section
/-!
PROOFS. The path to the grandmaster, and shared shafts (R329, R337 to R343).
-/

namespace Sys2Proof.Machine

open Reg

/-! ### The path to the grandmaster (R329) -/

/-- The Announce `v` of port `p` is the last that the port has. -/
def State.announcedBy (s : State) (p : Nat) (v : PriorityVector) : State := s.setPort p { s.port p with announced := some (s.mt, v) }

theorem State.pathVector_announcedBy {s : State} {p : Nat} (hon : s.ptpOn p = true) (v : PriorityVector) :
    (s.announcedBy p v).pathVector p = some { v with steps := v.steps + 1 } := by
  have hfresh : s.reached (s.mt + 2400000000) = false := by
    refine decide_eq_false ?_
    rw [ahead, show s.mt - (s.mt + 2400000000) = -2400000000 by bv_omega]
    decide
  have hport : (s.announcedBy p v).port p = { s.port p with announced := some (s.mt, v) } := s.port_setPort_self _ _
  have honNow : (s.announcedBy p v).ptpOn p = s.ptpOn p := rfl
  rw [State.pathVector, hport, honNow, hon]
  exact if_pos (by rw [show (s.announcedBy p v).reached (s.mt + 2400000000) = false from hfresh]; rfl)

theorem State.pathVector_announcedBy_ne {s : State} {p q : Nat} (h : q ≠ p) (v : PriorityVector) :
    (s.announcedBy p v).pathVector q = s.pathVector q := by
  have hport : (s.announcedBy p v).port q = s.port q := s.port_setPort_ne _ h
  rw [State.pathVector, hport, State.pathVector]
  rfl

/-- The only port with a path is the best one. -/
theorem State.bestPort_only {s : State} {p : Nat} {v : PriorityVector} (hp : p < 2) (hthis : s.pathVector p = some v)
    (hother : s.pathVector (1 - p) = none) : s.bestPort = some (p, v) := by
  obtain rfl | rfl : p = 0 ∨ p = 1 := by omega
  · rw [State.bestPort, hthis, show s.pathVector 1 = none from hother]
  · rw [State.bestPort, hthis, show s.pathVector 0 = none from hother]

/-- The port that follows the grandmaster `g`, and the other port in role `r` when it runs gPTP. -/
def State.followRoles (s : State) (p : Nat) (g : BitVec 64) (r : Nat) : State :=
  let t := (s.setRole p 2).setPair GM_ID_LO GM_ID_HI g
  if t.ptpOn (1 - p) then t.setRole (1 - p) r else t

theorem State.followRoles_shows (s : State) {p : Nat} (hp : p < 2) (g : BitVec 64) (r : Nat) :
    (s.followRoles p g r).portRole p = 2 ∧ (s.followRoles p g r).pair GM_ID_LO GM_ID_HI = g := by
  have hgm (u : State) : (u.setPair GM_ID_LO GM_ID_HI g).portRole p = u.portRole p :=
    congrArg (bitsOf · 9 8) (u.reg_setPair_ne _ (by unfold PORT_STATUS GM_ID_LO; omega) (by unfold PORT_STATUS GM_ID_HI; omega))
  have hbase : ((s.setRole p 2).setPair GM_ID_LO GM_ID_HI g).portRole p = 2 := (hgm _).trans (s.portRole_setRole p (by decide))
  have hpair : ((s.setRole p 2).setPair GM_ID_LO GM_ID_HI g).pair GM_ID_LO GM_ID_HI = g := State.pair_setPair_self _ _ _ _ (by decide)
  unfold State.followRoles
  dsimp only
  split
  · refine ⟨(State.portRole_setRole_ne _ r (by omega)).trans hbase, ?_⟩
    have hlo : GM_ID_LO ≠ PORT_STATUS (1 - p) := by unfold PORT_STATUS GM_ID_LO; omega
    have hhi : GM_ID_HI ≠ PORT_STATUS (1 - p) := by unfold PORT_STATUS GM_ID_HI; omega
    rw [State.pair, State.reg_setRole _ hhi, State.reg_setRole _ hlo, ← State.pair, hpair]
  · exact ⟨hbase, hpair⟩

/-- ACQUIRE begins afresh at slave port `p`. -/
def State.acquireAt (s : State) (p : Nat) : State :=
  { s.setFld TS_STATUS 8 8 p with
    ts := { (s.setFld TS_STATUS 8 8 p).ts with measured := false, good := 0, lastSync := (s.setFld TS_STATUS 8 8 p).mt } }.setTsState 1

theorem State.acquireAt_shows (s : State) {p : Nat} (hp : p < 2) :
    (s.acquireAt p).tsState = 1 ∧ (s.acquireAt p).slavePort = p ∧ (s.acquireAt p).ts.measured = false ∧
      ∀ a, a ≠ TS_STATUS → (s.acquireAt p).reg a = s.reg a := by
  obtain ⟨hst, hslave, hts, hothers⟩ := State.setTsState_shows
    { s.setFld TS_STATUS 8 8 p with
      ts := { (s.setFld TS_STATUS 8 8 p).ts with measured := false, good := 0, lastSync := (s.setFld TS_STATUS 8 8 p).mt } } (st := 1) (by decide)
  refine ⟨hst, hslave.trans ?_, congrArg TimeSync.measured hts, fun a ha => (hothers a ha).trans (s.reg_setReg_ne _ ha)⟩
  exact (s.fld_setFld_self _ 8 8 p (by decide)).trans (Nat.mod_eq_of_lt hp)

theorem State.followPort_new {s : State} {p : Nat} (h : s.portRole p ≠ 2) (v : PriorityVector) :
    ∃ r, s.followPort p v = (s.followRoles p v.identity r).acquireAt p := by
  have hwas : ¬ (s.portRole p == 2 && decide (1 ≤ s.tsState) && decide (s.tsState ≤ 3)) = true := by simp [h]
  unfold State.followPort
  exact ⟨_, if_neg hwas⟩

theorem State.followPort_shows {s : State} {p : Nat} (hp : p < 2) (h : s.portRole p ≠ 2) (v : PriorityVector) :
    (s.followPort p v).portRole p = 2 ∧ (s.followPort p v).slavePort = p ∧ (s.followPort p v).tsState = 1 ∧
      (s.followPort p v).ts.measured = false ∧ (s.followPort p v).pair GM_ID_LO GM_ID_HI = v.identity := by
  obtain ⟨r, hr⟩ := s.followPort_new h v
  obtain ⟨hrole, hgm⟩ := s.followRoles_shows hp v.identity r
  obtain ⟨hst, hslave, hmeasured, hothers⟩ := (s.followRoles p v.identity r).acquireAt_shows hp
  rw [hr]
  refine ⟨(congrArg (bitsOf · 9 8) (hothers _ (by unfold PORT_STATUS TS_STATUS; omega))).trans hrole, hslave, hst, hmeasured, ?_⟩
  rw [State.pair, hothers _ (by decide), hothers _ (by decide), ← State.pair, hgm]

/-! ### Export (R337, R338) -/

/-- What a datagram's departure leaves. -/
theorem State.sendUdp_regs (s : State) (p : Nat) (c : TxClass) (ip : Word) (port : BitVec 16) (ws : List Word) :
    (s.sendUdp p c ip port ws).regs = s.regs ∧ (s.sendUdp p c ip port ws).exports = s.exports := by
  have hlink (d : Datagram) : (s.sendOnLink p d).regs = s.regs ∧ (s.sendOnLink p d).exports = s.exports := by
    unfold State.sendOnLink
    dsimp only
    cases (s.port p).arp.lookup d.ip with
    | some mac => exact ⟨rfl, rfl⟩
    | none =>
      dsimp only
      split <;> exact ⟨rfl, rfl⟩
  unfold State.sendUdp
  dsimp only
  split
  · exact ⟨rfl, rfl⟩
  · split
    · exact hlink _
    · exact ⟨rfl, rfl⟩

theorem State.sendUdps_regs (l : List Nat) (c : TxClass) (ip : Word) (port : State → Nat → BitVec 16) (ws : List Word) (s : State) :
    (∀ a, (l.foldl (fun s p => s.sendUdp p c ip (port s p) ws) s).reg a = s.reg a) ∧
      (l.foldl (fun s p => s.sendUdp p c ip (port s p) ws) s).exports = s.exports := by
  induction l generalizing s with
  | nil => exact ⟨fun _ => rfl, rfl⟩
  | cons x l ih =>
    obtain ⟨hregs, hexports⟩ := s.sendUdp_regs x c ip (port s x) ws
    obtain ⟨hregs', hexports'⟩ := ih (s.sendUdp x c ip (port s x) ws)
    exact ⟨fun a => (hregs' a).trans (by rw [State.reg, hregs, State.reg]), hexports'.trans hexports⟩

/-- The sample of the present tick of shaft `h` is taken. -/
def State.exportTaken (s : State) (h : Nat) : State := { s with exports := s.exports.set (fun _ => none) h (some s.mt) }

theorem State.exportLast_exportTaken (s : State) (h : Nat) : (s.exportTaken h).exportLast h = some s.mt := by
  unfold State.exportLast State.exportTaken
  exact Table.get_set_self (fun _ => none) s.exports h (some s.mt)

/-- A sample is held for a shaft that is imported, and without network time. -/
theorem State.exportHeld_iff (s : State) (h : Nat) :
    ((s.exportTaken h).shSrc h = 4 || !(s.exportTaken h).tsGood) = true ↔ s.shSrc h = 4 ∨ s.tsGood = false := by
  change (decide (s.shSrc h = 4) || !s.tsGood) = true ↔ _
  simp

theorem State.exportLast_congr {s u : State} (h : u.exports = s.exports) (k : Nat) : u.exportLast k = s.exportLast k := by
  rw [State.exportLast, h, State.exportLast]

/-- The ports to which shaft `h` is exported. -/
def State.exportPorts (s : State) (h : Nat) : List Nat := [0, 1].filter (fun p => s.bit (EXP_CTRL h) (1 + p) && s.portUp p)

/-- The message of the sample is counted, before it leaves. -/
def State.exportCounted (s : State) (h : Nat) : State :=
  (s.setReg (EXP_SEQ h) (BitVec.ofNat 32 ((s.fld (EXP_SEQ h) 15 0 + 1) % 65536))).count (EXP_SENT h)

theorem State.exportSample_due {s : State} {h : Nat}
    (hdue : (s.mainRuns && s.bit (EXP_CTRL h) 0 && s.shState h != 0 && ((s.mt.toNat : Int) - s.fld (EXP_PHASE h) 17 0) % 200000 == 0 &&
      s.exportLast h != some s.mt) = true) :
    s.exportSample h = if ((s.exportTaken h).shSrc h = 4 || !(s.exportTaken h).tsGood) = true then (s.exportTaken h).satCount (EXP_HELD h)
      else if ((s.exportTaken h).exportPorts h).isEmpty then s.exportTaken h
      else ((s.exportTaken h).exportPorts h).foldl (fun t p => t.sendUdp p .exported
        (if (((s.exportTaken h).exportCounted h).bit (EXP_CTRL h) 3) = true then ((s.exportTaken h).exportCounted h).reg (EXP_DEST_IP h) else groupIp)
        (BitVec.ofNat 16 (t.fld (UDP_PORTS p) 31 16))
        (((s.exportTaken h).exportCounted h).exportWords h (((s.exportTaken h).fld (EXP_SEQ h) 15 0 + 1) % 65536))) ((s.exportTaken h).exportCounted h) :=
  if_pos hdue

theorem State.exportCounted_shows (s : State) (h : Nat) :
    (s.exportCounted h).reg (EXP_SEQ h) = BitVec.ofNat 32 ((s.fld (EXP_SEQ h) 15 0 + 1) % 65536) ∧
      (s.exportCounted h).reg (EXP_SENT h) = s.reg (EXP_SENT h) + 1 := by
  have hne : EXP_SEQ h ≠ EXP_SENT h := by unfold EXP_SEQ EXP_SENT; omega
  rw [State.exportCounted, State.reg_count_ne _ hne, State.reg_setReg_self, State.reg_count_self, State.reg_setReg_ne _ _ hne.symm]
  exact ⟨rfl, rfl⟩

end Sys2Proof.Machine

namespace Sys2Proof.Proofs

open Sys2Proof.Machine Sys2Proof.Machine.Reg

theorem announce_followed (p : Fin 2) (f : RxFrame) (v : PriorityVector) (s : State) (hc : s.clocked) (hf : f.sound) (hon : s.ptpOn p = true)
    (hrole : s.portRole p ≠ 2) (hown : (v.source >>> 16).truncate 64 ≠ clockIdentity) (hsteps : v.steps.toNat < 255)
    (hcap : s.bit TS_CTRL 1 = false) (hother : s.pathVector (1 - p.val) = none) :
    ∃ t, exec (.gptpAnnounce p f v) s = .next t ∧ t.portRole p = 2 ∧ t.slavePort = p ∧ t.tsState = 1 ∧ t.ts.measured = false ∧
      t.pair GM_ID_LO GM_ID_HI = v.identity := by
  have hkept : ¬ (!s.ptpOn p || (v.source >>> 16).truncate 64 == clockIdentity || decide (255 ≤ v.steps.toNat)) = true := by
    rw [hon, beq_eq_false_iff_ne.2 hown, decide_eq_false (by omega)]
    decide
  have hnot : (s.announcedBy p v).ownBest = false := by
    rw [State.ownBest, show (s.announcedBy p v).bit TS_CTRL 1 = false from hcap]
    rfl
  have hbest := State.bestPort_only p.isLt (State.pathVector_announcedBy hon v) ((State.pathVector_announcedBy_ne (by omega) v).trans hother)
  have hrow : s.gptpAnnounce p f v = (s.announcedBy p v).followPort p { v with steps := v.steps + 1 } := by
    rw [State.gptpAnnounce, State.receive_framed (portUp_of_ptpOn hon) hf, if_neg (by rw [Bool.false_and]; decide), if_neg hkept]
    dsimp only
    rw [← State.announcedBy, hnot, if_neg Bool.false_ne_true, hbest]
  obtain ⟨h1, h2, h3, h4, h5⟩ := State.followPort_shows (s := s.announcedBy p v) p.isLt hrole { v with steps := v.steps + 1 }
  refine ⟨_, congrArg Host.Outcome.next ((s.onTclk_clocked _ hc).trans hrow), h1, h2, h3, h4, h5⟩

theorem exportSample_taken (h : Fin 16) (s : State) (hs : s.serves) (hen : s.bit (EXP_CTRL h) 0 = true) (hst : s.shState h ≠ 0)
    (hlast : s.exportLast h ≠ some s.mt) (hphase : ((s.mt.toNat : Int) - s.fld (EXP_PHASE h) 17 0) % 200000 = 0) :
    ∃ t, exec (.exportSample h) s = .next t ∧ t.exportLast h = some s.mt ∧
      (s.shSrc h = 4 ∨ s.tsGood = false → t.reg (EXP_HELD h) = satInc (s.reg (EXP_HELD h)) ∧ t.ports = s.ports) ∧
      (s.shSrc h ≠ 4 → s.tsGood = true → (∃ p : Nat, p < 2 ∧ s.bit (EXP_CTRL h) (1 + p) = true ∧ s.portUp p = true) →
        t.reg (EXP_SEQ h) = BitVec.ofNat 32 ((s.fld (EXP_SEQ h) 15 0 + 1) % 65536) ∧ t.reg (EXP_SENT h) = s.reg (EXP_SENT h) + 1) := by
  have hdue : (s.mainRuns && s.bit (EXP_CTRL h) 0 && s.shState h != 0 && ((s.mt.toNat : Int) - s.fld (EXP_PHASE h) 17 0) % 200000 == 0 &&
      s.exportLast h != some s.mt) = true := by
    rw [State.mainRuns, hs.1, hen, bne_iff_ne.2 hst, hphase, bne_iff_ne.2 hlast]
    rfl
  have hrow : exec (.exportSample h) s = .next (s.exportSample h) :=
    congrArg Host.Outcome.next (s.onTclk_clocked _ (s.clocked_of_serves hs))
  rw [State.exportSample_due hdue] at hrow
  by_cases hheld : ((s.exportTaken h).shSrc h = 4 || !(s.exportTaken h).tsGood) = true
  · rw [if_pos hheld] at hrow
    refine ⟨_, hrow, s.exportLast_exportTaken h, fun _ => ⟨(s.exportTaken h).reg_satCount_self _, rfl⟩, fun hsrc hgood => ?_⟩
    rcases (s.exportHeld_iff h).1 hheld with hor | hor
    · exact absurd hor hsrc
    · exact absurd (hgood.symm.trans hor) (by decide)
  · rw [if_neg hheld] at hrow
    have hsrc : ¬ (s.shSrc h = 4 ∨ s.tsGood = false) := fun hor => hheld ((s.exportHeld_iff h).2 hor)
    by_cases hnone : ((s.exportTaken h).exportPorts h).isEmpty = true
    · rw [if_pos hnone] at hrow
      refine ⟨_, hrow, s.exportLast_exportTaken h, fun hor => absurd hor hsrc, fun _ _ ⟨p, hp, hbit, hup⟩ => ?_⟩
      have hin : p ∈ (s.exportTaken h).exportPorts h := by
        refine List.mem_filter.2 ⟨?_, ?_⟩
        · obtain rfl | rfl : p = 0 ∨ p = 1 := by omega
          · decide
          · decide
        · exact Bool.and_eq_true_iff.2 ⟨hbit, hup⟩
      rw [List.isEmpty_iff.1 hnone] at hin
      exact absurd hin List.not_mem_nil
    · rw [if_neg hnone] at hrow
      obtain ⟨hregs, hexports⟩ := State.sendUdps_regs ((s.exportTaken h).exportPorts h) .exported
        (if (((s.exportTaken h).exportCounted h).bit (EXP_CTRL h) 3) = true then ((s.exportTaken h).exportCounted h).reg (EXP_DEST_IP h) else groupIp)
        (fun t p => BitVec.ofNat 16 (t.fld (UDP_PORTS p) 31 16))
        (((s.exportTaken h).exportCounted h).exportWords h (((s.exportTaken h).fld (EXP_SEQ h) 15 0 + 1) % 65536)) ((s.exportTaken h).exportCounted h)
      obtain ⟨hseq, hsent⟩ := (s.exportTaken h).exportCounted_shows h
      refine ⟨_, hrow, (State.exportLast_congr hexports h).trans (s.exportLast_exportTaken h), fun hor => absurd hor hsrc, fun _ _ _ => ?_⟩
      exact ⟨(hregs _).trans hseq, (hregs _).trans hsent⟩

end Sys2Proof.Proofs
end

section
/-!
PROOFS. Imported shafts (R339 to R343): messages that are rejected or accepted, coasting, and the loss of a slot.
-/

namespace Sys2Proof.Machine

open Reg

/-! ### Slots -/

/-- A register of the blocks above the shafts' and below the clusters'. -/
def netWord (a : Nat) : Prop := 0xA0000 ≤ a ∧ a < 0x1000000

theorem netWord_state {h : Nat} (hh : h < 16) : BesideState netWord h := by
  refine ⟨⟨fun k => ?_, fun n => ?_⟩, ?_, ?_, ?_, ?_⟩ <;> unfold netWord
  · unfold OUT_STATUS; omega
  · unfold STALL_ABORT_CNT; omega
  · unfold SWAP_STATUS; omega
  · unfold SH_STATUS; omega
  · unfold PRED_PERIOD; omega
  · unfold LOST_CNT; omega

/-- A register that configures slot `j`. -/
def slotWord (j a : Nat) : Prop := IMP_CFG j ≤ a ∧ a < IMP_STATUS j

/-- A step that leaves the words of the shafts. -/
theorem State.importers_congr {s u : State} (h : ∀ h < 16, u.reg (SH_CTRL h) = s.reg (SH_CTRL h)) (i : Nat) : u.importers i = s.importers i := by
  unfold State.importers
  refine List.filter_congr fun k hk => ?_
  have hctrl := h k (List.mem_range.1 hk)
  unfold State.shEn State.shSrc State.shIface State.bit State.fld
  rw [hctrl]

theorem State.importSynced_congr {s u : State} (hc : ∀ h < 16, u.reg (SH_CTRL h) = s.reg (SH_CTRL h))
    (hs : ∀ h < 16, u.reg (SH_STATUS h) = s.reg (SH_STATUS h)) (i : Nat) : u.importSynced i = s.importSynced i := by
  unfold State.importSynced
  rw [State.importers_congr hc]
  refine List.filter_congr fun k hk => ?_
  have hstatus := hs k (List.mem_range.1 (List.mem_filter.1 hk).1)
  unfold State.shSync State.shState State.fld
  rw [hstatus]

theorem State.importer_lt {s : State} {i h : Nat} (hh : h ∈ s.importers i) : h < 16 := List.mem_range.1 (List.mem_filter.1 hh).1

theorem State.importSynced_lt {s : State} {i h : Nat} (hh : h ∈ s.importSynced i) : h < 16 := State.importer_lt (List.mem_filter.1 hh).1

theorem State.shIface_lt (s : State) (h : Nat) : s.shIface h < 16 := bitsOf_lt _ 11 8

theorem State.importLost_keepsWords {K : Nat → Prop} {h : Nat} (hK : BesideState K h) (s : State) : KeepsWords K s (s.importLost h) := by
  unfold State.importLost
  refine .trans (.iteSelf ?_) (State.enterState_keepsWords hK _ 5)
  exact (State.holdAt_keepsWords hK s _).trans (.setBit _ 7 false hK.status)

/-- Slots that hear of a message: at most one of them acts. -/
theorem foldBelow_single {σ : Type} {f : σ → Nat → σ} {s t : σ} {i n : Nat} (hi : i < n) (hbefore : ∀ j < i, f s j = s) (hat : f s i = t)
    (hafter : ∀ j, i < j → j < n → f t j = t) : foldBelow n f s = t := by
  have hidle : ∀ m ≤ i, foldBelow m f s = s := by
    intro m hm
    induction m with
    | zero => rfl
    | succ m ih => rw [foldBelow_succ, ih (by omega), hbefore m (by omega)]
  induction n with
  | zero => exact absurd hi (Nat.not_lt_zero i)
  | succ n ih =>
    rw [foldBelow_succ]
    by_cases hin : i < n
    · rw [ih hin fun j hj hjn => hafter j hj (by omega), hafter n hin (by omega)]
    · obtain rfl : i = n := by omega
      rw [hidle i (by omega), hat]

/-! ### A message of a slot (R339) -/

section
variable (s : State) {i : Nat} (w : Nat → Word)

/-- The slot rejects a message with code `code`: what it shows, before its shafts are lost. -/
theorem State.importReject_shows {code : Nat} (hcode : code < 256) :
    (s.importReject i code).reg (IMP_REJECT i) = satInc (s.reg (IMP_REJECT i)) ∧ (s.importReject i code).fld (IMP_STATUS i) 31 24 = code ∧
      ∀ a, a ≠ IMP_STATUS i → a ≠ IMP_REJECT i → (s.importReject i code).reg a = s.reg a := by
  have hne : IMP_REJECT i ≠ IMP_STATUS i := by unfold IMP_REJECT IMP_STATUS; omega
  refine ⟨?_, ?_, fun a h1 h2 => (State.reg_satCount_ne _ h2).trans (s.reg_setReg_ne _ h1)⟩
  · exact (State.reg_satCount_self _ _).trans (congrArg satInc (s.reg_setReg_ne _ hne))
  · refine (congrArg (bitsOf · 31 24) (State.reg_satCount_ne _ hne.symm)).trans ?_
    exact (s.fld_setFld_self _ 31 24 code (by decide)).trans (Nat.mod_eq_of_lt hcode)

theorem State.importCheck_lt (sl : Stamp) : s.importCheck i w sl < 256 := by
  unfold State.importCheck
  dsimp only
  split
  · decide
  · split
    · decide
    · split
      · decide
      · split
        · decide
        · decide

/-- What the shafts of a slot that rejects a message leave. -/
theorem State.importersLost_keepsWords (l : List Nat) (hl : ∀ h ∈ l, h < 16) :
    KeepsWords netWord s (l.foldl (fun s h => if 2 ≤ s.shState h ∧ s.shState h ≤ 4 then s.importLost h else s) s) :=
  .foldl (fun u h hh => .iteSelf (u.importLost_keepsWords (netWord_state (hl h hh)))) s

theorem State.importMessage_rejects (hi : i < 16) (hcode : s.importCheck i w (ofWords (w 9) (w 8) - s.pair NT_OFS_LO NT_OFS_HI) ≠ 0) :
    let t := s.importMessage i w
    t.reg (IMP_REJECT i) = satInc (s.reg (IMP_REJECT i)) ∧
      t.fld (IMP_STATUS i) 31 24 = s.importCheck i w (ofWords (w 9) (w 8) - s.pair NT_OFS_LO NT_OFS_HI) ∧
      ∀ a, netWord a → a ≠ IMP_STATUS i → a ≠ IMP_REJECT i → t.reg a = s.reg a := by
  have hlt := s.importCheck_lt (i := i) w (ofWords (w 9) (w 8) - s.pair NT_OFS_LO NT_OFS_HI)
  intro t
  have ht : t = if s.importCheck i w (ofWords (w 9) (w 8) - s.pair NT_OFS_LO NT_OFS_HI) = 0x30 ∨
        s.importCheck i w (ofWords (w 9) (w 8) - s.pair NT_OFS_LO NT_OFS_HI) = 0x32 then
      ((s.importReject i (s.importCheck i w (ofWords (w 9) (w 8) - s.pair NT_OFS_LO NT_OFS_HI))).importers i).foldl
        (fun s h => if 2 ≤ s.shState h ∧ s.shState h ≤ 4 then s.importLost h else s)
        ((s.importReject i (s.importCheck i w (ofWords (w 9) (w 8) - s.pair NT_OFS_LO NT_OFS_HI))).setBit (IMP_STATUS i) 22 false)
      else s.importReject i (s.importCheck i w (ofWords (w 9) (w 8) - s.pair NT_OFS_LO NT_OFS_HI)) := if_pos hcode
  generalize s.importCheck i w (ofWords (w 9) (w 8) - s.pair NT_OFS_LO NT_OFS_HI) = code at hlt ht
  obtain ⟨hrej, hlast, hothers⟩ := s.importReject_shows (i := i) hlt
  have hne : IMP_REJECT i ≠ IMP_STATUS i := by unfold IMP_REJECT IMP_STATUS; omega
  have hnet : netWord (IMP_REJECT i) ∧ netWord (IMP_STATUS i) := by unfold netWord IMP_REJECT IMP_STATUS; omega
  rw [ht]
  split
  · have hkeep := State.importersLost_keepsWords ((s.importReject i code).setBit (IMP_STATUS i) 22 false) ((s.importReject i code).importers i)
      fun h hh => State.importer_lt hh
    refine ⟨(hkeep.regs _ hnet.1).trans ((State.reg_setReg_ne _ _ hne).trans hrej), ?_, fun a ha h1 h2 => ?_⟩
    · rw [State.fld, hkeep.regs _ hnet.2, State.setBit, State.reg_setReg_self, bitsOf_putBit_ne _ _ _ _ _ (by decide)]
      exact hlast
    · exact (hkeep.regs a ha).trans ((State.reg_setReg_ne _ _ h1).trans (hothers a h1 h2))
  · exact ⟨hrej, hlast, fun a _ h1 h2 => hothers a h1 h2⟩

/-- The account of a slot takes the message, which no shaft takes. -/
def State.importNoted (s : State) (i : Nat) (seq : Nat) (sl : Stamp) : State :=
  ((((s.setFld (IMP_STATUS i) 15 0 seq).setBit (IMP_STATUS i) 22 false).setPair (IMP_LAST_LO i) (IMP_LAST_HI i) sl).count (IMP_RX i))

theorem State.importNoted_shows {seq : Nat} (hseq : seq < 65536) (sl : Stamp) :
    (s.importNoted i seq sl).reg (IMP_RX i) = s.reg (IMP_RX i) + 1 ∧ (s.importNoted i seq sl).fld (IMP_STATUS i) 15 0 = seq ∧
      (s.importNoted i seq sl).pair (IMP_LAST_LO i) (IMP_LAST_HI i) = sl ∧
      ∀ a, a < IMP_STATUS i ∨ IMP_STATUS i + 0x10 ≤ a → (s.importNoted i seq sl).reg a = s.reg a := by
  have hlo : IMP_LAST_LO i = IMP_STATUS i + 4 := by unfold IMP_LAST_LO IMP_STATUS; omega
  have hhi : IMP_LAST_HI i = IMP_STATUS i + 8 := by unfold IMP_LAST_HI IMP_STATUS; omega
  have hrx : IMP_RX i = IMP_STATUS i + 12 := by unfold IMP_RX IMP_STATUS; omega
  have hset {a : Nat} (h : a ≠ IMP_STATUS i) : ((s.setFld (IMP_STATUS i) 15 0 seq).setBit (IMP_STATUS i) 22 false).reg a = s.reg a :=
    (State.reg_setReg_ne _ _ h).trans (s.reg_setReg_ne _ h)
  refine ⟨?_, ?_, ?_, fun a ha => ?_⟩
  · rw [State.importNoted, State.reg_count_self, State.reg_setPair_ne _ _ (by omega) (by omega), hset (by omega)]
  · rw [State.importNoted, State.fld, State.reg_count_ne _ (by omega), State.reg_setPair_ne _ _ (by omega) (by omega), State.setBit,
      State.reg_setReg_self, bitsOf_putBit_ne _ _ _ _ _ (by decide), ← State.fld, s.fld_setFld_self _ 15 0 seq (by decide)]
    exact Nat.mod_eq_of_lt hseq
  · rw [State.importNoted, State.pair, State.reg_count_ne _ (by omega), State.reg_count_ne _ (by omega), ← State.pair,
      State.pair_setPair_self _ _ _ _ (by omega)]
  · rw [State.importNoted, State.reg_count_ne _ (by omega), State.reg_setPair_ne _ _ (by omega) (by omega), hset (by omega)]

theorem State.importMessage_accepts (hcode : s.importCheck i w (ofWords (w 9) (w 8) - s.pair NT_OFS_LO NT_OFS_HI) = 0)
    (hnone : s.importers i = []) (hnew : 0 < signed 16 ((bitsOf (w 1) 31 16 + 65536 - s.fld (IMP_STATUS i) 15 0) % 65536)) :
    s.importMessage i w = s.importNoted i (bitsOf (w 1) 31 16) (ofWords (w 9) (w 8) - s.pair NT_OFS_LO NT_OFS_HI) := by
  have hslot : s.slotState i = 0 := by rw [State.slotState, hnone]
  obtain ⟨-, -, -, hothers⟩ := s.importNoted_shows (i := i) (bitsOf_lt (w 1) 31 16) (ofWords (w 9) (w 8) - s.pair NT_OFS_LO NT_OFS_HI)
  have himporters : (s.importNoted i (bitsOf (w 1) 31 16) (ofWords (w 9) (w 8) - s.pair NT_OFS_LO NT_OFS_HI)).importers i = [] :=
    (State.importers_congr (fun h hh => hothers _ (by unfold SH_CTRL IMP_STATUS; omega)) i).trans hnone
  have haccept : s.importMessage i w = s.importAccept i w (ofWords (w 9) (w 8) - s.pair NT_OFS_LO NT_OFS_HI) :=
    (if_neg (not_not_intro hcode)).trans (if_pos (Or.inr (Or.inr hnew)))
  rw [haccept, State.importAccept, hslot, if_neg (by rintro ⟨h | h, -⟩ <;> cases h), ← State.importNoted, himporters, List.foldl_nil]

end

end Sys2Proof.Machine
end

section
/-!
PROOFS. Network time and shared shafts (R329 to R331, R337 to R343).
-/

namespace Sys2Proof.Machine

open Reg

/-- The message for the slots that hear of it. -/
def State.hearMessage (bytes : List Byte) (p : Nat) (s : State) (i : Nat) : State :=
  if s.importListens p i bytes then s.importMessage i (fun j => (bytesWords bytes).getD j 0) else s

/-- A message with a broken layout is counted (R333). -/
def State.layoutNoted (s : State) (p : Nat) (w : Nat → Word) : State := if exportFormatOk w then s else s.satCount (PONAR_DISCARD p)

theorem State.shaftExportIn_eq {s : State} {p : Nat} {bytes : List Byte} (h : isShaftExport bytes) :
    s.shaftExportIn p bytes = foldBelow 16 (State.hearMessage bytes p) (s.layoutNoted p fun j => (bytesWords bytes).getD j 0) := by
  obtain ⟨hlen, h0, h1, h2, h3⟩ := h
  exact if_neg (by rintro (h | h | h | h | h) <;> exact absurd ‹_› h)

theorem State.shaftExportIn_bad {s : State} {p : Nat} {bytes : List Byte} (h : ¬ isShaftExport bytes) :
    s.shaftExportIn p bytes = s.satCount (PONAR_DISCARD p) := by
  refine if_pos ?_
  by_contra hn
  push Not at hn
  exact h hn

theorem State.layoutNoted_keepsWords {K : Nat → Prop} (s : State) {p : Nat} (w : Nat → Word) (h : ¬ K (PONAR_DISCARD p)) :
    KeepsWords K s (s.layoutNoted p w) := .ite (.refl s) (.satCount s h)

/-- A register that no message's layout counts in. -/
def besideDiscards (a : Nat) : Prop := a < 0xA1000 ∨ 0xA2000 ≤ a

theorem State.reg_layoutNoted (s : State) (p : Fin 2) (w : Nat → Word) {a : Nat} (h : besideDiscards a) :
    (s.layoutNoted p w).reg a = s.reg a :=
  (s.layoutNoted_keepsWords w (by unfold besideDiscards PONAR_DISCARD; omega)).regs a h

/-- The offset of network time has no port's register. -/
theorem State.ofs_layoutNoted (s : State) (p : Fin 2) (w : Nat → Word) :
    (s.layoutNoted p w).pair NT_OFS_LO NT_OFS_HI = s.pair NT_OFS_LO NT_OFS_HI := by
  rw [State.pair, s.reg_layoutNoted p w (by unfold besideDiscards NT_OFS_HI; omega),
    s.reg_layoutNoted p w (by unfold besideDiscards NT_OFS_LO; omega), ← State.pair]

theorem State.importCheck_of_badFormat {s : State} {i : Nat} {w : Nat → Word} (h : exportFormatOk w = false) (sl : Stamp) :
    s.importCheck i w sl = 0x19 := if_pos (by rw [h]; rfl)

/-- The layout is noted before the checks, which find the same. -/
theorem State.importCheck_layoutNoted (s : State) (p i : Nat) (w : Nat → Word) (sl : Stamp) :
    (s.layoutNoted p w).importCheck i w sl = s.importCheck i w sl := by
  cases h : exportFormatOk w with
  | false => rw [State.importCheck_of_badFormat h, State.importCheck_of_badFormat h]
  | true => rw [State.layoutNoted, h, if_pos rfl]

/-- Whether a slot listens is a matter of its configuration. -/
theorem State.importListens_congr {s u : State} {j : Nat} (h : ∀ a, slotWord j a → u.reg a = s.reg a) (p : Nat) (bytes : List Byte) :
    u.importListens p j bytes = s.importListens p j bytes := by
  have hcfg := h (IMP_CFG j) (by unfold slotWord IMP_CFG IMP_STATUS; omega)
  have hlo := h (IMP_ID_LO j) (by unfold slotWord IMP_CFG IMP_STATUS IMP_ID_LO; omega)
  have hhi := h (IMP_ID_HI j) (by unfold slotWord IMP_CFG IMP_STATUS IMP_ID_HI; omega)
  unfold State.importListens State.bit State.fld
  rw [hcfg, hlo, hhi]

section
variable {s t : State} {p : Fin 2} {i : Nat} {bytes : List Byte} (hi : i < 16) (hin : s.importListens p i bytes = true)
  (hout : ∀ j : Nat, j < 16 → j ≠ i → s.importListens p j bytes = false)
include hi hin hout

/-- The one slot that listens takes the message. -/
theorem State.hears_one
    (ht : (s.layoutNoted p fun j => (bytesWords bytes).getD j 0).importMessage i (fun j => (bytesWords bytes).getD j 0) = t)
    (hkept : ∀ j < 16, j ≠ i → ∀ a, slotWord j a → t.reg a = (s.layoutNoted p fun j => (bytesWords bytes).getD j 0).reg a)
    (h : isShaftExport bytes) : s.shaftExportIn p bytes = t := by
  have hnoted (j : Nat) (hj : j < 16) : ∀ a, slotWord j a → (s.layoutNoted p fun j => (bytesWords bytes).getD j 0).reg a = s.reg a := fun a ha =>
    s.reg_layoutNoted p _ (by unfold besideDiscards; unfold slotWord IMP_CFG at ha; omega)
  have hsame (j : Nat) (hj : j < 16) := State.importListens_congr (hnoted j hj) p bytes
  rw [State.shaftExportIn_eq h]
  refine foldBelow_single hi (fun j hj => ?_) ?_ fun j hj hjn => ?_
  · exact if_neg (by rw [hsame j (by omega), hout j (by omega) (by omega)]; decide)
  · exact (if_pos ((hsame i hi).trans hin)).trans ht
  · exact if_neg (by
      rw [State.importListens_congr (hkept j hjn (by omega)) p bytes, hsame j hjn, hout j hjn (by omega)]
      decide)

end

end Sys2Proof.Machine

namespace Sys2Proof.Proofs

open Sys2Proof.Machine Sys2Proof.Machine.Reg

theorem shaftExport_row {p : Fin 2} {f : RxFrame} {bytes : List Byte} {s t : State} (hc : s.clocked) (hup : s.portUp p = true)
    (hf : f.brings (s.fld (UDP_PORTS p) 31 16)) (ht : s.shaftExportIn p bytes = t) : exec (.shaftExport ⟨p, f⟩ bytes) s = .next t :=
  congrArg Host.Outcome.next ((s.onTclk_clocked _ hc).trans
    ((State.receiveUdp_served hup hf (State.servesUdp_announcements hf.2.2) _).trans ht))

theorem shaftExport_discarded (p : Fin 2) (f : RxFrame) (bytes : List Byte) (s : State) (hc : s.clocked) (hup : s.portUp p = true)
    (hf : f.brings (s.fld (UDP_PORTS p) 31 16)) (h : ¬ isShaftExport bytes) :
    exec (.shaftExport ⟨p, f⟩ bytes) s = .next (s.satCount (PONAR_DISCARD p)) := shaftExport_row hc hup hf (State.shaftExportIn_bad h)

theorem shaftExport_heard (p : Fin 2) (f : RxFrame) (bytes : List Byte) (i : Nat) (s : State) (hc : s.clocked) (hup : s.portUp p = true)
    (hf : f.brings (s.fld (UDP_PORTS p) 31 16)) (h : isShaftExport bytes) (hi : i < 16) (hin : s.importListens p i bytes = true)
    (hout : ∀ j : Nat, j < 16 → j ≠ i → s.importListens p j bytes = false) :
    let w : Nat → Word := fun j => (bytesWords bytes).getD j 0
    let sl := ofWords (w 9) (w 8) - s.pair NT_OFS_LO NT_OFS_HI
    (s.importCheck i w sl ≠ 0 →
      ∃ t, exec (.shaftExport ⟨p, f⟩ bytes) s = .next t ∧ t.reg (IMP_REJECT i) = satInc (s.reg (IMP_REJECT i)) ∧
        t.fld (IMP_STATUS i) 31 24 = s.importCheck i w sl ∧ t.reg (IMP_RX i) = s.reg (IMP_RX i)) ∧
    (s.importCheck i w sl = 0 → s.importers i = [] → 0 < signed 16 ((bitsOf (w 1) 31 16 + 65536 - s.fld (IMP_STATUS i) 15 0) % 65536) →
      ∃ t, exec (.shaftExport ⟨p, f⟩ bytes) s = .next t ∧ t.reg (IMP_RX i) = s.reg (IMP_RX i) + 1 ∧
        t.fld (IMP_STATUS i) 15 0 = bitsOf (w 1) 31 16 ∧ t.pair (IMP_LAST_LO i) (IMP_LAST_HI i) = sl) := by
  intro w sl
  refine ⟨fun hcode => ?_, fun hcode hnone hnew => ?_⟩
  · have hsame : (s.layoutNoted p w).importCheck i w (ofWords (w 9) (w 8) - (s.layoutNoted p w).pair NT_OFS_LO NT_OFS_HI) =
        s.importCheck i w sl := by rw [s.ofs_layoutNoted p w, State.importCheck_layoutNoted]
    obtain ⟨hrej, hlast, hothers⟩ := (s.layoutNoted p w).importMessage_rejects w hi (by rw [hsame]; exact hcode)
    have hrejReg : (s.layoutNoted p w).reg (IMP_REJECT i) = s.reg (IMP_REJECT i) :=
      s.reg_layoutNoted p w (by unfold besideDiscards IMP_REJECT; omega)
    have hrx : (s.layoutNoted p w).reg (IMP_RX i) = s.reg (IMP_RX i) := s.reg_layoutNoted p w (by unfold besideDiscards IMP_RX; omega)
    refine ⟨_, shaftExport_row hc hup hf (State.hears_one hi hin hout rfl (fun j hj hne a ha => ?_) h), hrej.trans (congrArg satInc hrejReg),
      hlast.trans hsame, (hothers _ ?_ ?_ ?_).trans hrx⟩
    · unfold slotWord IMP_CFG IMP_STATUS at ha
      exact hothers a (by unfold netWord; omega) (by unfold IMP_STATUS; omega) (by unfold IMP_REJECT; omega)
    · unfold netWord IMP_RX; omega
    · unfold IMP_RX IMP_STATUS; omega
    · unfold IMP_RX IMP_REJECT; omega
  · have hformat : exportFormatOk w = true := by
      by_contra hbad
      rw [State.importCheck_of_badFormat (Bool.not_eq_true _ ▸ hbad)] at hcode
      exact absurd hcode (by decide)
    have hnoted : s.layoutNoted p w = s := if_pos hformat
    obtain ⟨hrx, hseq, hpair, hothers⟩ := s.importNoted_shows (i := i) (bitsOf_lt (w 1) 31 16) sl
    have hmessage : (s.layoutNoted p w).importMessage i w = s.importNoted i (bitsOf (w 1) 31 16) sl := by
      rw [hnoted, s.importMessage_accepts w hcode hnone hnew]
    refine ⟨_, shaftExport_row hc hup hf (State.hears_one hi hin hout hmessage (fun j hj hne a ha => ?_) h), hrx, hseq, hpair⟩
    have hlayout : (s.layoutNoted p w).reg a = s.reg a := by rw [hnoted]
    refine (hothers a ?_).trans hlayout.symm
    unfold slotWord IMP_CFG IMP_STATUS at ha
    unfold IMP_STATUS
    omega

/-! ### Coasting and the loss of a slot (R342) -/

theorem importSynced_noted (s : State) (i : Nat) {u : State} (h : ∀ a, a < 0xA0000 → u.reg a = s.reg a) : u.importSynced i = s.importSynced i :=
  State.importSynced_congr (fun h' hh => h _ (by unfold SH_CTRL; omega)) (fun h' hh => h _ (by unfold SH_STATUS; omega)) i

theorem importTimeout_coasts (h : Fin 16) (s : State) (hs : s.serves) (hin : (s.importSynced (s.shIface h)).contains h.val = true)
    (hbit : s.bit (IMP_STATUS (s.shIface h)) 22 = false) (hlate : s.importLate (s.shIface h) (s.impTimeout (s.shIface h)) = true)
    (hcoast : s.coastPeriods (s.shIface h) ≠ 0) :
    ∃ t, exec (.importTimeout h) s = .next t ∧ t.bit (IMP_STATUS (s.shIface h)) 22 = true ∧ t.shState h = 4 ∧
      t.reg (IMP_COAST_CNT (s.shIface h)) = satInc (s.reg (IMP_COAST_CNT (s.shIface h))) := by
  have hi := s.shIface_lt h
  have hrow : s.importTimeout h = (((s.setBit (IMP_STATUS (s.shIface h)) 22 true).satCount (IMP_COAST_CNT (s.shIface h))).importSynced
      (s.shIface h)).foldl (fun s h => s.enterState h 4) ((s.setBit (IMP_STATUS (s.shIface h)) 22 true).satCount (IMP_COAST_CNT (s.shIface h))) :=
    (if_pos (by rw [State.mainRuns, hs.1, hin, hbit, hlate]; rfl)).trans (if_neg hcoast)
  have hmem : h.val ∈ s.importSynced (s.shIface h) := List.contains_iff_mem.1 hin
  generalize s.shIface h = i at hi hrow hmem
  have hne : IMP_COAST_CNT i ≠ IMP_STATUS i := by unfold IMP_COAST_CNT IMP_STATUS; omega
  have hsame := importSynced_noted s i (u := (s.setBit (IMP_STATUS i) 22 true).satCount (IMP_COAST_CNT i)) fun a ha =>
    (State.reg_satCount_ne _ (by unfold IMP_COAST_CNT; omega)).trans (s.reg_setReg_ne _ (by unfold IMP_STATUS; omega))
  rw [hsame] at hrow
  obtain ⟨hthese, hothers⟩ := State.enterAll_shows (fun k hk => State.importSynced_lt hk) (st := 4) (by decide)
    ((s.setBit (IMP_STATUS i) 22 true).satCount (IMP_COAST_CNT i)) (l := s.importSynced i)
  refine ⟨_, congrArg Host.Outcome.next ((s.onTclk_clocked _ (s.clocked_of_serves hs)).trans hrow), ?_, hthese _ hmem, ?_⟩
  · rw [State.bit, hothers _ (by unfold IMP_STATUS; omega) (by unfold IMP_STATUS; omega), State.reg_satCount_ne _ hne.symm]
    exact s.bit_setBit_self _ _ true (by decide)
  · rw [hothers _ (by unfold IMP_COAST_CNT; omega) (by unfold IMP_COAST_CNT; omega), State.reg_satCount_self, State.setBit, State.reg_setReg_ne _ _ hne]

theorem coastLimit_loses (h : Fin 16) (s : State) (hs : s.serves) (hin : (s.importSynced (s.shIface h)).contains h.val = true)
    (hbit : s.bit (IMP_STATUS (s.shIface h)) 22 = true)
    (hlate : s.importLate (s.shIface h) (s.impTimeout (s.shIface h) + s.coastPeriods (s.shIface h)) = true) :
    ∃ t, exec (.coastLimit h) s = .next t ∧ t.bit (IMP_STATUS (s.shIface h)) 22 = false ∧ t.shState h = 5 := by
  have hi := s.shIface_lt h
  have hrow : s.coastLimit h = (s.importSynced (s.shIface h)).foldl (fun s h => s.enterState h 5) (s.setBit (IMP_STATUS (s.shIface h)) 22 false) :=
    if_pos (by rw [State.mainRuns, hs.1, hin, hbit, hlate]; rfl)
  have hmem : h.val ∈ s.importSynced (s.shIface h) := List.contains_iff_mem.1 hin
  generalize s.shIface h = i at hi hrow hmem
  obtain ⟨hthese, hothers⟩ := State.enterAll_shows (fun k hk => State.importSynced_lt hk) (st := 5) (by decide)
    (s.setBit (IMP_STATUS i) 22 false) (l := s.importSynced i)
  refine ⟨_, congrArg Host.Outcome.next ((s.onTclk_clocked _ (s.clocked_of_serves hs)).trans hrow), ?_, hthese _ hmem⟩
  rw [State.bit, hothers _ (by unfold IMP_STATUS; omega) (by unfold IMP_STATUS; omega)]
  exact s.bit_setBit_self _ _ false (by decide)

/-- Settles O53, row by row. -/
theorem networkTimeAndShaftsAreShared : Obligations.NetworkTimeAndShaftsAreShared := by
  unfold Obligations.NetworkTimeAndShaftsAreShared
  exact ⟨sync_serves, pdelayReq_answered, pdelayResp_measures, ptpFrame_left, syncTimeout_holdsOver, bmca_makesGrandmaster, bmca_incapable,
    announce_followed, sync_sent, tsSnap_taken, exportSample_taken, shaftExport_discarded, shaftExport_heard, importTimeout_coasts,
    coastLimit_loses⟩

end Sys2Proof.Proofs
end

section
/-!
PROOFS. Power requests and the gating of clusters (R351, R352, R354, R355, R358).
-/

namespace Sys2Proof.Machine

open Reg

/-! ### Refused requests (R354) -/

/-- One condition of a refusal. -/
theorem refuseBit_le (i : Nat) (b : Bool) : (if b then 2 ^ i else 0) ≤ 2 ^ i := by
  cases b
  · exact Nat.zero_le _
  · exact Nat.le_refl _

theorem State.napRefuse_lt (s : State) : s.napRefuse < 256 := by
  unfold State.napRefuse
  dsimp only
  have hsum {a b c d e f g h : Nat} (h0 : a ≤ 2 ^ 0) (h1 : b ≤ 2 ^ 1) (h2 : c ≤ 2 ^ 2) (h3 : d ≤ 2 ^ 3) (h4 : e ≤ 2 ^ 4) (h5 : f ≤ 2 ^ 5)
      (h6 : g ≤ 2 ^ 6) (h7 : h ≤ 2 ^ 7) : a + b + c + d + e + f + g + h < 256 := by omega
  exact hsum (refuseBit_le _ _) (refuseBit_le _ _) (refuseBit_le _ _) (refuseBit_le _ _) (refuseBit_le _ _) (refuseBit_le _ _)
    (refuseBit_le _ _) (refuseBit_le _ _)

theorem State.powerRefused_shows (s : State) {c : Nat} (hc : c < 256) :
    (s.powerRefused c).fld PWR_STATUS 15 8 = c ∧ (s.powerRefused c).bit PWR_STATUS 3 = true ∧ (s.powerRefused c).power = s.power := by
  have hevent (u : State) : (u.sysEvent 3).reg PWR_STATUS = u.reg PWR_STATUS := rfl
  have hraise (u : State) : (u.raise PWR_STATUS 3).reg PWR_STATUS = putBit (u.reg PWR_STATUS) 3 true := u.reg_setReg_self _ _
  refine ⟨?_, ?_, rfl⟩
  · rw [State.powerRefused, State.fld, hevent, hraise, bitsOf_putBit_ne _ _ _ _ _ (by decide)]
    exact (s.fld_setFld_self _ 15 8 c (by decide)).trans (Nat.mod_eq_of_lt hc)
  · rw [State.powerRefused, State.bit, hevent]
    exact State.bit_raise_self _ _ (by decide)

/-! ### The entry to NAP (R355) -/

theorem State.setTsState_keepsWords {K : Nat → Prop} (s : State) (st : Nat) (hK : ¬ K TS_STATUS) : KeepsWords K s (s.setTsState st) := by
  refine .ite (.refl s) (.trans (.setFld s 2 0 st hK) ?_)
  exact .of_eq rfl rfl rfl rfl rfl

theorem State.setLink_keepsWords {K : Nat → Prop} (s : State) (p : Nat) (up : Bool) (hK : ¬ K (PORT_STATUS p)) : KeepsWords K s (s.setLink p up) := by
  have hnoted : KeepsWords K s (s.linkNoted p up) := (KeepsWords.setBit s 0 up hK).trans (.raise _ 1 hK)
  refine hnoted.trans ?_
  cases up <;> exact .of_eq rfl rfl rfl rfl rfl

theorem State.clearPeer_keepsWords {K : Nat → Prop} (s : State) (p e : Nat) (hK : ∀ i, ¬ K (PEER_INFO p e + 4 * i)) :
    KeepsWords K s (s.clearPeer p e) := by
  have hport (u : State) (c : Port) : KeepsWords K u (u.setPort p c) := .of_eq rfl rfl rfl rfl rfl
  exact (KeepsWords.foldBelow (fun u i _ => .setReg u 0 (hK i)) s).trans (hport _ _)

theorem State.peerChange_keepsWords {K : Nat → Prop} (s : State) (p : Nat) (hK : ¬ K (PORT_STATUS p)) : KeepsWords K s (s.peerChange p) :=
  (KeepsWords.raise s 2 hK).trans (.of_eq rfl rfl rfl rfl rfl)

/-- MSI-X writes VEC_INSVC alone. -/
theorem State.msixScan_keepsWords {K : Nat → Prop} (s : State) (hK : ¬ K VEC_INSVC) : KeepsWords K s s.msixScan := by
  have hnote (u : State) : KeepsWords K u u.pbaNote := .of_eq rfl rfl rfl rfl rfl
  refine .trans (.iteSelf (.foldl (fun u i _ => .iteSelf ?_) s)) (hnote _)
  exact (KeepsWords.setReg u _ hK).trans (.of_eq rfl rfl rfl rfl rfl)

/-- A latched event writes CAUSE, IRQ_PEND and VEC_INSVC. -/
theorem State.irqLatch_keepsWords {K : Nat → Prop} (s : State) (hC : ∀ i, ¬ K (CAUSE i)) (hP : ∀ i, ¬ K (IRQ_PEND i)) (hK : ¬ K VEC_INSVC) :
    KeepsWords K s s.irqLatch := by
  have hset (u : State) (w : Nat) (m : Word) : KeepsWords K u (u.irqPendSet w m) :=
    (KeepsWords.foldBelow (fun v b _ => .raiseIf v _ b (hP w)) u).trans (State.msixScan_keepsWords _ hK)
  unfold State.irqLatch
  cases s.irqEvents with
  | nil => exact .refl s
  | cons e rest =>
    have htaken : KeepsWords K s { s with irqEvents := rest } := .of_eq rfl rfl rfl rfl rfl
    refine .iteSelf (.trans ?_ (hset _ _ _))
    cases e.bit with
    | none => exact htaken
    | some b => exact htaken.trans (.raise _ b (hC e.source))

theorem State.tripFollow_keepsWords {K : Nat → Prop} (hpins : ∀ a, K a → besidePins a) (s : State) (i : Nat) :
    KeepsWords K s (s.tripFollow i) := by
  have hactive : ¬ K TRIP_ACTIVE := fun h => by
    have := hpins _ h
    unfold besidePins TRIP_ACTIVE at this
    omega
  have hset (u : State) (b : Bool) : KeepsWords K u (u.setTripActive i b) := by
    refine .ite (.refl u) ((KeepsWords.setBit u i b hactive).trans ?_)
    exact .ite (.of_keepsSystem hpins (State.sourceOn_keepsSystem _ i)) (.of_keepsSystem hpins (State.sourceOff_keepsSystem _ i))
  refine .iteSelf (.trans ?_ (hset _ _))
  exact .of_eq rfl rfl rfl rfl rfl

/-- The links, the peers and the time sync before the clocks stop. -/
def State.napPorts (s : State) : State :=
  foldBelow 2 (fun s p =>
    let s := if s.bit (PORT_STATUS p) 0 then s.setLink p false else s
    let s := s.setRole p 0
    let s := foldBelow 32 (fun s e => if s.peerUsed p e then (s.clearPeer p e).peerChange p else s) s
    s.setPort p { s.port p with heard := [], lastMsg := [], announced := none }) s

/-- Everything of the entry but the stop of the clocks. -/
def State.napReady (s : State) : State :=
  let t := s.napPorts.setTsState 0
  let u := { t with ts := { t.ts with good := 0, measured := false } }
  u.irqEvents.foldl (fun s _ => s.irqLatch) u

theorem State.napPorts_keepsWords (s : State) : KeepsWords (fun _ => False) s s.napPorts := by
  have hport (u : State) (p : Nat) (c : Port) : KeepsWords (fun _ => False) u (u.setPort p c) := .of_eq rfl rfl rfl rfl rfl
  have hpeer (u : State) (p e : Nat) : KeepsWords (fun _ => False) u (if u.peerUsed p e then (u.clearPeer p e).peerChange p else u) :=
    .iteSelf ((u.clearPeer_keepsWords p e fun _ => not_false).trans (State.peerChange_keepsWords _ p not_false))
  have hlink (u : State) (p : Nat) : KeepsWords (fun _ => False) u (if u.bit (PORT_STATUS p) 0 then u.setLink p false else u) :=
    .iteSelf (u.setLink_keepsWords p false not_false)
  have hrole (u : State) (p : Nat) : KeepsWords (fun _ => False) u (u.setRole p 0) := .setFld u 9 8 0 not_false
  exact .foldBelow (fun u p _ => (((hlink u p).trans (hrole _ p)).trans (.foldBelow (fun v e _ => hpeer v p e) _)).trans (hport _ p _)) s

theorem State.napReady_keepsWords (s : State) : KeepsWords (fun _ => False) s s.napReady := by
  have hts (u : State) (c : TimeSync) : KeepsWords (fun _ => False) u { u with ts := c } := .of_eq rfl rfl rfl rfl rfl
  exact ((s.napPorts_keepsWords.trans (State.setTsState_keepsWords _ 0 not_false)).trans (hts _ _)).trans
    (.foldl (fun u _ _ => u.irqLatch_keepsWords (fun _ => not_false) (fun _ => not_false) not_false) _)

/-- No entry to HIBERNATE is under way. -/
def State.hibDropped (s : State) : State := { s with power := { s.power with hibReq := none } }

theorem State.hibDropped_shows (s : State) : s.hibDropped.power.hibReq = none ∧ s.hibDropped.mt = s.mt := ⟨rfl, rfl⟩

/-- The clocks stop. -/
def State.clocksStop (s : State) : State := { (s.setReg NAP_LF 0).setFld PWR_STATUS 2 0 0 with power := { s.power with phase := .nap } }

theorem State.enterNap_eq (s : State) :
    s.enterNap = foldBelow 32 State.tripFollow (s.napReady.clocksStop.refreshPins s.napReady.clocksStop.now) := rfl

theorem State.enterNap_shows (s : State) :
    s.enterNap.power.phase = .nap ∧ s.enterNap.reg NAP_LF = 0 ∧ s.enterNap.mt = s.mt ∧ s.enterNap.power.hibReq = s.power.hibReq := by
  have hready := s.napReady_keepsWords
  have hpins : ∀ a, a = NAP_LF → besidePins a := by rintro _ rfl; unfold besidePins NAP_LF; omega
  have hend : KeepsWords (fun a => a = NAP_LF) s.napReady.clocksStop s.enterNap := by
    rw [s.enterNap_eq]
    exact (KeepsWords.of_keepsSystem hpins (s.napReady.clocksStop.refreshPins_keepsSystem _)).trans
      (.foldBelow (fun u i _ => u.tripFollow_keepsWords hpins i) _)
  refine ⟨hend.phase, (hend.regs _ rfl).trans ?_, hend.mt.trans hready.mt, hend.hibReq.trans hready.hibReq⟩
  exact (State.reg_setReg_ne _ _ (by decide)).trans (State.reg_setReg_self _ _ _)

end Sys2Proof.Machine

namespace Sys2Proof.Proofs

open Sys2Proof.Machine Sys2Proof.Machine.Reg

/-! ### Requests (R354, R355, R358) -/

theorem mainRuns_of_serves {s : State} (h : s.serves) : s.mainRuns = true := beq_iff_eq.2 h.1

theorem pwrReq_row {s : State} {c : Instr} {n : Nat} (hrow : exec c s = .next (s.hostWrite PWR_CTRL (BitVec.ofNat 32 n) fun s => s.powerRequest n))
    (ha : s.accepts PWR_CTRL (BitVec.ofNat 32 n)) : exec c s = .next ((s.noteHost PWR_CTRL).powerRequest n) :=
  hrow.trans (congrArg Host.Outcome.next (s.hostWrite_accepts _ ha))

theorem pwrReq_runDoze (s : State) (p : Instr × Nat) (hp : p ∈ [(Instr.pwrReqRun, 0), (Instr.pwrReqDoze, 1)])
    (ha : s.accepts PWR_CTRL (BitVec.ofNat 32 p.2)) (_hreq : s.power.hibReq = none) (hst : s.fld PWR_STATUS 2 0 ≤ 1) :
    exec p.1 s = .next ((s.noteHost PWR_CTRL).setFld PWR_STATUS 2 0 p.2) := by
  have hmain : ¬ (!(s.noteHost PWR_CTRL).mainRuns) = true := by
    rw [show (s.noteHost PWR_CTRL).mainRuns = true from mainRuns_of_serves ha.1]
    decide
  have hrequest (doze : Bool) : (s.noteHost PWR_CTRL).reqRunDoze doze = (s.noteHost PWR_CTRL).setFld PWR_STATUS 2 0 doze.toNat := if_pos hst
  simp only [List.mem_cons, List.not_mem_nil, or_false] at hp
  rcases hp with rfl | rfl
  · exact (pwrReq_row rfl ha).trans (congrArg Host.Outcome.next ((if_neg hmain).trans (hrequest false)))
  · exact (pwrReq_row rfl ha).trans (congrArg Host.Outcome.next ((if_neg hmain).trans (hrequest true)))

/-- What a write to PWR_CTRL asks of the running device, for NAP and for HIBERNATE. -/
theorem powerRequest_nap {s : State} (h : s.mainRuns = true) :
    s.powerRequest 2 = if s.napRefuse ≠ 0 then s.powerRefused s.napRefuse else s.hibDropped.enterNap :=
  if_neg (by rw [h]; decide)

theorem powerRequest_hibernate {s : State} (h : s.mainRuns = true) :
    s.powerRequest 3 = if s.power.hibReq.isSome then s else if s.napRefuse ≠ 0 then s.powerRefused s.napRefuse
      else { s.setFld PWR_STATUS 2 0 3 with power := { s.power with hibReq := some s.mt } }.beginMirror :=
  if_neg (by rw [h]; decide)

theorem pwrReq_refused (s : State) (p : Instr × Nat) (hp : p ∈ [(Instr.pwrReqNap, 2), (Instr.pwrReqHibernate, 3)])
    (ha : s.accepts PWR_CTRL (BitVec.ofNat 32 p.2)) (hreq : s.power.hibReq = none) (href : s.napRefuse ≠ 0) :
    ∃ t, exec p.1 s = .next t ∧ t.fld PWR_STATUS 15 8 = s.napRefuse ∧ t.bit PWR_STATUS 3 = true ∧ t.power = s.power := by
  have hmain : (s.noteHost PWR_CTRL).mainRuns = true := mainRuns_of_serves ha.1
  have hrefused := (s.noteHost PWR_CTRL).powerRefused_shows s.napRefuse_lt
  have hnot : ¬ (s.noteHost PWR_CTRL).power.hibReq.isSome = true := by
    rw [show (s.noteHost PWR_CTRL).power.hibReq = none from hreq]
    decide
  simp only [List.mem_cons, List.not_mem_nil, or_false] at hp
  rcases hp with rfl | rfl
  · exact ⟨_, (pwrReq_row rfl ha).trans (congrArg Host.Outcome.next ((powerRequest_nap hmain).trans (if_pos href))), hrefused⟩
  · exact ⟨_, (pwrReq_row rfl ha).trans (congrArg Host.Outcome.next ((powerRequest_hibernate hmain).trans
      ((if_neg hnot).trans (if_pos href)))), hrefused⟩

/-- An accepted request for NAP. -/
theorem pwrReq_napAccepted {s : State} (ha : s.accepts PWR_CTRL 2) (href : s.napRefuse = 0) :
    exec .pwrReqNap s = .next (s.noteHost PWR_CTRL).hibDropped.enterNap :=
  (pwrReq_row (n := 2) rfl ha).trans (congrArg Host.Outcome.next
    ((powerRequest_nap (s := s.noteHost PWR_CTRL) (mainRuns_of_serves ha.1)).trans (if_neg (not_not_intro href))))

theorem pwrReqNap_stops (s : State) (ha : s.accepts PWR_CTRL 2) (_hreq : s.power.hibReq = none) (href : s.napRefuse = 0) :
    ∃ t, exec .pwrReqNap s = .next t ∧ t.power.phase = .nap ∧ t.reg NAP_LF = 0 ∧ ¬t.clocked ∧ t.mt = s.mt := by
  obtain ⟨hphase, hlf, hmt, -⟩ := (s.noteHost PWR_CTRL).hibDropped.enterNap_shows
  refine ⟨_, pwrReq_napAccepted ha href, hphase, hlf, ?_, hmt.trans (State.hibDropped_shows _).2⟩
  rw [State.clocked, State.tclk, hphase]
  decide

theorem pwrReqNap_endsEntry (s : State) (ha : s.accepts PWR_CTRL 2) (_hreq : s.power.hibReq.isSome = true) (href : s.napRefuse = 0) :
    ∃ t, exec .pwrReqNap s = .next t ∧ t.power.phase = .nap ∧ t.power.hibReq = none := by
  obtain ⟨hphase, -, -, hhib⟩ := (s.noteHost PWR_CTRL).hibDropped.enterNap_shows
  exact ⟨_, pwrReq_napAccepted ha href, hphase, hhib.trans (State.hibDropped_shows _).1⟩

theorem pwrReqHibernate_again (s : State) (ha : s.accepts PWR_CTRL 3) (hreq : s.power.hibReq.isSome = true) :
    exec .pwrReqHibernate s = .next (s.noteHost PWR_CTRL) :=
  (pwrReq_row (n := 3) rfl ha).trans (congrArg Host.Outcome.next
    ((powerRequest_hibernate (s := s.noteHost PWR_CTRL) (mainRuns_of_serves ha.1)).trans (if_pos hreq)))

theorem pwrReqHibernate_begins (s : State) (ha : s.accepts PWR_CTRL 3) (hreq : s.power.hibReq = none) (href : s.napRefuse = 0) :
    ∃ t, exec .pwrReqHibernate s = .next t ∧ t.power.hibReq = some s.mt ∧ t.fld PWR_STATUS 2 0 = 3 ∧
      t.island.mirrorBusy.isSome = true := by
  have hmain : (s.noteHost PWR_CTRL).mainRuns = true := mainRuns_of_serves ha.1
  have hnot : ¬ (s.noteHost PWR_CTRL).power.hibReq.isSome = true := by
    rw [show (s.noteHost PWR_CTRL).power.hibReq = none from hreq]
    decide
  have hbegun (u : State) (hu : u.mainRuns = true) : u.beginMirror.island.mirrorBusy.isSome = true := by
    unfold State.beginMirror
    split
    · next h => simpa [hu] using h
    · rfl
  refine ⟨_, (pwrReq_row (n := 3) rfl ha).trans (congrArg Host.Outcome.next ((powerRequest_hibernate (s := s.noteHost PWR_CTRL) hmain).trans
      ((if_neg hnot).trans (if_neg (not_not_intro href))))), ?_, ?_, hbegun _ hmain⟩
  · obtain ⟨_, _, _, _, hshape⟩ := (State.beginMirror_leaves { (s.noteHost PWR_CTRL).setFld PWR_STATUS 2 0 3 with
      power := { (s.noteHost PWR_CTRL).power with hibReq := some (s.noteHost PWR_CTRL).mt } }).shape
    rw [hshape]
    rfl
  · rw [State.fld, (State.beginMirror_leaves _).reg _ (by decide)]
    exact (s.noteHost PWR_CTRL).fld_setFld_self PWR_STATUS 2 0 3 (by decide)

/-! ### Wakes, HIBERNATE (R356, R358) -/

theorem napWake_onDemand (s : State) (h : s.power.phase = .nap) :
    exec (.napWakeEvent true) s = .next { s with power := { s.power with phase := .waking } } :=
  congrArg Host.Outcome.next (if_pos (by rw [h]; rfl))

theorem pwrEnFall_hibernates (s : State) (hs : s.serves) (hreq : s.power.hibReq.isSome = true) (hbusy : s.island.mirrorBusy = none)
    (hdue : s.island.mirrorDue = false) :
    exec .pwrEnFall s =
      .next ({ s with power := { s.power with phase := .hibernate, pwrEn := false, hibReq := none } }.refreshPins s.now) :=
  congrArg Host.Outcome.next (if_pos (by rw [hreq, mainRuns_of_serves hs, hbusy, hdue]; rfl))

theorem hibAbort_resets (s : State) (hphase : s.power.phase = .hibernate) (hen : s.power.pwrEn = false) :
    ∃ t, exec .hibAbort s = .next t ∧ t.power.phase = .por ∧ t.power.pwrEn = true ∧ t.power.cause = 7 := by
  obtain ⟨hpor, hcause, -⟩ := s.beginReset_shows true 7
  exact ⟨_, congrArg Host.Outcome.next (if_pos (by rw [hphase, hen]; rfl)), hpor, rfl, hcause⟩

theorem wakeN_wakes (s : State) (hphase : s.power.phase = .hibernate) (hen : s.power.pwrEn = false) (hcfg : s.bit HIB_CFG 0 = true) :
    exec .wakeNRequest s = .next { s with power := { s.power with pwrEn := true, rails := false, cause := 6, phase := .por } } :=
  congrArg Host.Outcome.next (if_pos (by rw [hphase, hen, hcfg]; rfl))

/-! ### Gating (R351, R352) -/

theorem gatingTick_notes (n : Fin 24) (s : State) :
    ((s.engine n).gateSince = none → s.gated n = false → s.gatingHolds n = true → ((s.gatingTick n).engine n).gateSince = some s.mt) ∧
    (∀ u, (s.engine n).gateSince = some u → s.reached (u + 16) = false →
      ((s.gatingTick n).engine n).gateSince = if s.gatingHolds n = true then some u else none) := by
  refine ⟨fun hnone hgated hholds => ?_, fun u hsince hwait => ?_⟩
  · unfold State.gatingTick
    dsimp only
    rw [hnone]
    dsimp only
    rw [if_pos (by rw [hgated, hholds]; rfl), State.engine_setEngine_self]
  · unfold State.gatingTick
    dsimp only
    rw [hsince]
    dsimp only
    rw [hwait, Bool.false_or]
    split
    · exact hsince
    · rw [State.engine_setEngine_self]

theorem clusterGate_gates (n : Fin 24) (u : Tick) (s : State) (hs : s.serves) (hsince : (s.engine n).gateSince = some u) (hgated : s.gated n = false)
    (hdue : s.reached (u + 16) = true) :
    exec (.clusterGate n) s = .next ((s.setBit CG_MAP n true).setEngine n { s.engine n with gateSince := none }) := by
  refine congrArg Host.Outcome.next ((s.onTclk_clocked _ (s.clocked_of_serves hs)).trans ?_)
  unfold State.clusterGate
  rw [hsince]
  exact if_pos (by rw [mainRuns_of_serves hs, hgated, hdue]; rfl)

theorem clusterWake_begins (n : Fin 24) (s : State) (hs : s.serves) (hgated : s.gated n = true) (hend : (s.engine n).wakeEnd = none)
    (hdemand : s.wakeDemand n = true) :
    exec (.clusterWakeBegin n) s = .next (s.setEngine n { s.engine n with wakeEnd := some (s.mt + 160) }) :=
  congrArg Host.Outcome.next ((s.onTclk_clocked _ (s.clocked_of_serves hs)).trans
    (if_pos (by rw [mainRuns_of_serves hs, hgated, hend, hdemand]; rfl)))

theorem clusterWake_ends (n : Fin 24) (u : Tick) (s : State) (hs : s.serves) (hgated : s.gated n = true) (hend : (s.engine n).wakeEnd = some u)
    (hdue : s.reached u = true) (hheld : (s.engine n).heldReads = []) :
    exec (.clusterWakeEnd n) s = .next ((s.setBit CG_MAP n false).setEngine n
      { s.engine n with wakeEnd := none, gateSince := none, heldReads := [] }).commitLater := by
  refine congrArg Host.Outcome.next ((s.onTclk_clocked _ (s.clocked_of_serves hs)).trans ?_)
  unfold State.clusterWakeEnd
  rw [hend]
  dsimp only
  rw [if_pos (by rw [mainRuns_of_serves hs, hgated, hdue]; rfl), hheld]
  rfl

theorem clusterReset_ends (n : Fin 24) (u : Tick) (s : State) (hc : s.clocked) (hend : (s.engine n).resetEnd = some u) (hdue : s.reached u = true) :
    exec (.clusterResetEnd n) s = .next (s.setEngine n { s.engine n with resetEnd := none }) := by
  refine congrArg Host.Outcome.next ((s.onTclk_clocked _ hc).trans ?_)
  unfold State.clusterResetEnd
  rw [hend]
  exact if_pos hdue

end Sys2Proof.Proofs
end

section
/-!
PROOFS. The reset of clusters (R361): what it clears in a cluster, and what it leaves of the others.
-/

namespace Sys2Proof.Machine

open Reg

/-! ### Registers of the threads -/

/-- A register of the threads of cluster `n`. -/
def threadWord (n a : Nat) : Prop := 0x1006000 + n * 0x100000 ≤ a ∧ a < 0x1008000 + n * 0x100000

theorem survival_threadWord {n a : Nat} (h : threadWord n a) : survival a = .cleared := by
  have hisland : islandAddr a = false := by
    unfold threadWord at h
    simp only [islandAddr, Bool.or_eq_false_iff, decide_eq_false_iff_not, beq_eq_false_iff_ne]
    omega
  unfold threadWord at h
  rw [survival, if_neg (by rw [hisland]; decide), if_pos (by omega)]
  exact if_neg (by omega)

theorem threadWord_TH_STATUS (n : Nat) {h : Nat} (hh : h < 16) : threadWord n (TH_STATUS n h) := by
  unfold threadWord TH_STATUS
  omega

theorem threadWord_G (n : Nat) {h i : Nat} (hh : h < 16) (hi : i < 16) : threadWord n (G n h i) := by
  unfold threadWord G
  omega

/-- The row of TH_STATUS, the only one of a thread that does not reset to 0. -/
def statusRow : RegRow := ⟨0x1006004, [(24, 0x100000), (16, 0x100)], 0x1, 0x0, 0xc00, 0x0, 0x0⟩

theorem thRows_rst : ∀ r ∈ thRows, r.base ≠ 0x90030 ∧ (r.rst = 0 ∨ r = statusRow) := by decide

theorem statusRow_hit_G {n h i : Nat} (hh : h < 16) (hi : i < 16) : statusRow.hit (G n h i) = false := by
  have hoff : G n h i - 0x1006004 = 0x3C + n * 0x100000 + h * 0x100 + i * 4 := by unfold G; omega
  have hend : (0x3C + n * 0x100000 + h * 0x100 + i * 4) % 0x100000 % 0x100 = 0x3C + i * 4 := by omega
  have hne : (0x3C + i * 4 == 0) = false := beq_eq_false_iff_ne.2 (by omega)
  rw [statusRow, RegRow.hit, hoff, dimsHit, dimsHit, dimsHit, hend, hne, Bool.and_false, Bool.and_false, Bool.and_false]

theorem rowsAt_G (n : Nat) {h i : Nat} (hh : h < 16) (hi : i < 16) : rowsAt (G n h i) = thRows := by
  have hcl : ¬ G n h i < 0x1000000 := by unfold G; omega
  have hoff : (G n h i - 0x1000000) % 0x100000 = 0x6040 + h * 0x100 + i * 4 := by unfold G; omega
  simp only [rowsAt, hcl, if_false, hoff, show ¬0x6040 + h * 0x100 + i * 4 < 0x4000 by omega,
    show ¬0x6040 + h * 0x100 + i * 4 < 0x5000 by omega, show ¬0x6040 + h * 0x100 + i * 4 < 0x6000 by omega]

/-- An address whose row resets to 0, or that has none. -/
theorem resetWord_zero {a : Nat} (h : ∀ r, regRow a = some r → r.base ≠ 0x90030 ∧ r.rst = 0) : resetWord a = 0 := by
  unfold resetWord
  cases hr : regRow a with
  | none => rfl
  | some r =>
    obtain ⟨hbase, hrst⟩ := h r hr
    exact (if_neg hbase).trans (by rw [hrst]; rfl)

/-- A thread's registers reset to 0. -/
theorem resetWord_G (n : Nat) {h i : Nat} (hh : h < 16) (hi : i < 16) : resetWord (G n h i) = 0 := by
  refine resetWord_zero fun r hr => ?_
  rw [regRow, rowsAt_G n hh hi] at hr
  obtain ⟨hbase, hrst⟩ := thRows_rst r (List.mem_of_find?_eq_some hr)
  refine ⟨hbase, hrst.resolve_right fun hstatus => ?_⟩
  have hhit := List.find?_some (p := fun r : RegRow => r.hit (G n h i)) hr
  change r.hit (G n h i) = true at hhit
  rw [hstatus, statusRow_hit_G hh hi] at hhit
  exact Bool.false_ne_true hhit

/-! ### One cluster -/

/-- The engines that stay stopped differ in CL_STATUS alone. -/
theorem State.reg_keepStops_ne (s t : State) {a : Nat} (h : ∀ n, a ≠ CL_STATUS n) : (s.keepStops t).reg a = t.reg a := by
  unfold State.keepStops
  dsimp only
  generalize 24 = n
  induction n with
  | zero => rfl
  | succ n ih =>
    rw [foldBelow_succ]
    split
    · exact ih
    · exact (State.reg_setReg_ne _ _ (h n)).trans ih

theorem State.wakeEnd_stopThread (s : State) (n t : Nat) : ((s.stopThread n t).engine n).wakeEnd = (s.engine n).wakeEnd := by
  have hdrop (u : State) : ((u.dropSwitch n t).engine n).wakeEnd = (u.engine n).wakeEnd := by
    unfold State.dropSwitch
    dsimp only
    split
    · rw [State.engine_setEngine_self]
    · rfl
  have hrun (u : State) (c : Prop) [Decidable c] : ((if c then u.setRunning n none else u).engine n).wakeEnd = (u.engine n).wakeEnd := by
    split
    · rw [State.setRunning, State.engine_setReg]
    · rfl
  have haccess : (s.stopAccess n t).engine n = s.engine n := by
    rw [(s.stores_stopAccess n t).shape]
    rfl
  rw [s.stopThread_eq n t, State.setThState, State.engine_setReg, State.stopLeft]
  dsimp only
  rw [hdrop, hrun, State.engine_setThread, haccess]

theorem State.wakeEnd_haltCluster (s : State) (n : Nat) : ((s.haltCluster n).engine n).wakeEnd = (s.engine n).wakeEnd := by
  unfold State.haltCluster
  generalize 16 = k
  induction k with
  | zero => rfl
  | succ k ih =>
    rw [foldBelow_succ]
    refine Eq.trans ?_ ih
    generalize foldBelow k (State.haltThread n) s = u
    unfold State.haltThread
    split
    · rfl
    · exact u.wakeEnd_stopThread n k

/-- What a cluster reset leaves of the registers' table. -/
def clusterMine (n a : Nat) : Bool :=
  decide (0x1000000 + n * 0x100000 ≤ a) && decide (a < 0x1000000 + n * 0x100000 + 0x8000) && survival a == Survival.cleared

/-- Threads, weir and registers of cluster `n` are cleared. -/
def State.clusterEmptied (s : State) (n : Nat) : State :=
  { s with
    regs := s.regs.filter (fun e => !clusterMine n e.1)
    weirs := s.weirs.erase n
    threads := s.threads.filter (fun e => e.1 / 16 ≠ n) }

/-- The channels of cluster `n` are cleared but for their calibration. -/
def State.chansEmptied (s : State) (n : Nat) : State :=
  foldBelow 16 (fun s j => s.setChan (n * 16 + j) (s.chan (n * 16 + j)).keepCal) s

/-- The tick in which the wake of a cluster that is reset ends. -/
def State.resetWake (s : State) (n : Nat) : Option Tick :=
  if !s.bit CG_MAP n then none else match (s.engine n).wakeEnd with | some t => some t | none => some (s.mt + 160)

/-- The engine of cluster `n` begins its reset. -/
def State.engineReset (s : State) (n : Nat) : State :=
  s.setEngine n { (s.engine n).keepBank with
    heldReads := (s.engine n).heldReads, wakeEnd := s.resetWake n, resetEnd := some (s.mt + 64) }

theorem State.haltCluster_def (s : State) (n : Nat) :
    s.haltCluster n = foldBelow 16 (fun s t => if s.thState n t == thHalted then s else s.stopThread n t) s := rfl

theorem State.clearCluster_eq (s : State) (n : Nat) :
    s.clearCluster n =
      (s.keepStops ((((s.haltCluster n).clusterEmptied n).chansEmptied n).engineReset n)).refreshPins
        ((((s.haltCluster n).clusterEmptied n).chansEmptied n).engineReset n).now := by
  unfold State.clearCluster
  dsimp only
  rw [← State.haltCluster_def]
  generalize s.haltCluster n = h
  unfold State.chansEmptied State.clusterEmptied
  dsimp only [clusterMine]
  generalize foldBelow 16 _ _ = u
  rfl

/-- The channels are no other part of the state. -/
theorem State.chansEmptied_leaves (s : State) (n : Nat) :
    (s.chansEmptied n).mt = s.mt ∧ (∀ a, (s.chansEmptied n).reg a = s.reg a) ∧ (∀ m, (s.chansEmptied n).weir m = s.weir m) ∧
      ∀ m, (s.chansEmptied n).engine m = s.engine m := by
  have hfold (k : Nat) : ∃ cs, foldBelow k (fun s j => s.setChan (n * 16 + j) (s.chan (n * 16 + j)).keepCal) s = { s with chans := cs } := by
    induction k with
    | zero => exact ⟨_, rfl⟩
    | succ k ih =>
      rw [foldBelow_succ]
      obtain ⟨_, h⟩ := ih
      rw [h]
      exact ⟨_, rfl⟩
  obtain ⟨_, h⟩ := hfold 16
  unfold State.chansEmptied
  rw [h]
  exact ⟨rfl, fun _ => rfl, fun _ => rfl, fun _ => rfl⟩

/-- What emptying cluster `n` leaves. -/
theorem State.clusterEmptied_leaves (s : State) (n : Nat) :
    (s.clusterEmptied n).mt = s.mt ∧ (s.clusterEmptied n).weir n = Weir.init ∧ (∀ m, m ≠ n → (s.clusterEmptied n).weir m = s.weir m) ∧
      ∀ m, (s.clusterEmptied n).engine m = s.engine m :=
  ⟨rfl, Table.get_erase_self _ _ _, fun _ hne => Table.get_erase_ne _ _ hne, fun _ => rfl⟩

theorem State.HaltLeaves.weir {n : Nat} {s u : State} (h : HaltLeaves n s u) (m : Nat) : u.weir m = s.weir m := by
  obtain ⟨_, _, _, _, _, _, hshape⟩ := h.shape
  rw [hshape]
  rfl

theorem State.HaltLeaves.mt {n : Nat} {s u : State} (h : HaltLeaves n s u) : u.mt = s.mt := by
  obtain ⟨_, _, _, _, _, _, hshape⟩ := h.shape
  rw [hshape]

theorem State.reg_clusterEmptied (s : State) (n a : Nat) :
    (s.clusterEmptied n).reg a = if clusterMine n a then resetWord a else s.reg a := by
  have hkept := s.reg_kept (fun a => !clusterMine n a) a
  cases h : clusterMine n a
  · rw [h] at hkept
    exact hkept
  · rw [h] at hkept
    exact hkept

theorem clusterMine_threadWord {n a : Nat} (h : threadWord n a) : clusterMine n a = true := by
  unfold clusterMine
  rw [survival_threadWord h]
  unfold threadWord at h
  rw [decide_eq_true (by omega), decide_eq_true (by omega)]
  rfl

theorem clusterMine_other {n m a : Nat} (h : threadWord m a) (hne : m ≠ n) : clusterMine n a = false := by
  unfold threadWord at h
  unfold clusterMine
  by_cases hlo : 0x1000000 + n * 0x100000 ≤ a
  · rw [decide_eq_false (show ¬ a < 0x1000000 + n * 0x100000 + 0x8000 by omega), Bool.and_false, Bool.false_and]
  · rw [decide_eq_false hlo, Bool.false_and, Bool.false_and]

theorem clusterMine_CG_MAP (n : Nat) : clusterMine n CG_MAP = false := by
  unfold clusterMine
  rw [decide_eq_false (by unfold CG_MAP; omega), Bool.false_and, Bool.false_and]

/-- Cluster `n` of `t` is as its reset in state `s` leaves it. -/
structure State.ResetAt (n : Nat) (s t : State) : Prop where
  resetEnd : (t.engine n).resetEnd = some (s.mt + 64)
  wakeEnd : (t.engine n).wakeEnd = s.resetWake n
  weir : t.weir n = Weir.init
  words : ∀ a, threadWord n a → t.reg a = resetWord a

/-- Cluster `n` of `t` is that of `s`. -/
structure State.SameCluster (n : Nat) (s t : State) : Prop where
  engine : t.engine n = s.engine n
  weir : t.weir n = s.weir n
  words : ∀ a, threadWord n a → t.reg a = s.reg a

theorem State.SameCluster.trans {n : Nat} {r s t : State} (h : SameCluster n r s) (h' : SameCluster n s t) : SameCluster n r t :=
  ⟨h'.engine.trans h.engine, h'.weir.trans h.weir, fun a ha => (h'.words a ha).trans (h.words a ha)⟩

theorem State.ResetAt.same {n : Nat} {r s t : State} (h : ResetAt n r s) (h' : SameCluster n s t) : ResetAt n r t :=
  ⟨(congrArg Engine.resetEnd h'.engine).trans h.resetEnd, (congrArg Engine.wakeEnd h'.engine).trans h.wakeEnd, h'.weir.trans h.weir,
    fun a ha => (h'.words a ha).trans (h.words a ha)⟩

/-- A reset of a later cluster finds what `n`'s would have found. -/
theorem State.ResetAt.of_same {n : Nat} {r s t : State} (h : ResetAt n s t) (h' : SameCluster n r s) (hmt : s.mt = r.mt)
    (hmap : s.reg CG_MAP = r.reg CG_MAP) : ResetAt n r t := by
  refine ⟨by rw [h.resetEnd, hmt], ?_, h.weir, h.words⟩
  rw [h.wakeEnd, State.resetWake, State.bit, hmap, h'.engine, hmt, ← State.bit, ← State.resetWake]

/-- A state that keeps what the end of a cluster's reset keeps. -/
theorem State.sameCluster_of_keepsSystem {s t : State} (h : KeepsSystem s t) (n : Nat) : SameCluster n s t := by
  refine ⟨?_, ?_, fun a ha => h.regs a ?_⟩
  · rw [State.engine, h.engines, ← State.engine]
  · rw [State.weir, h.weirs, ← State.weir]
  · unfold threadWord at ha
    unfold besidePins
    omega

/-- What the engines that stay stopped leave of a cluster. -/
theorem State.keepStops_sameCluster (s t : State) (n : Nat) : SameCluster n t (s.keepStops t) := by
  obtain ⟨_, hshape⟩ := (s.keepStops_shows t).1
  refine ⟨by rw [hshape]; rfl, by rw [hshape]; rfl, fun a ha => s.reg_keepStops_ne t fun m => ?_⟩
  unfold threadWord at ha
  unfold CL_STATUS
  omega

theorem threadWord_not_haltWrites {n m a : Nat} (h : threadWord m a) (hne : m ≠ n) : ¬ haltWrites n a := by
  unfold threadWord at h
  rintro (rfl | rfl | ⟨u, hu, rfl⟩)
  · unfold GSTAT at h; omega
  · unfold CL_STATUS at h; omega
  · unfold TH_STATUS at h; omega

/-- The engine's reset is no other part of the state. -/
theorem State.engineReset_leaves (s : State) (n : Nat) :
    (s.engineReset n).mt = s.mt ∧ (∀ a, (s.engineReset n).reg a = s.reg a) ∧ (∀ m, (s.engineReset n).weir m = s.weir m) ∧
      (∀ m, m ≠ n → (s.engineReset n).engine m = s.engine m) ∧
      ((s.engineReset n).engine n).resetEnd = some (s.mt + 64) ∧ ((s.engineReset n).engine n).wakeEnd = s.resetWake n := by
  refine ⟨rfl, fun _ => rfl, fun _ => rfl, fun m hne => s.engine_setEngine_ne _ hne, ?_, ?_⟩ <;>
    rw [State.engineReset, State.engine_setEngine_self]

/-- Another cluster as the emptied cluster `n` finds it. -/
theorem State.emptied_sameCluster (s : State) {n m : Nat} (hne : m ≠ n) :
    SameCluster m s ((((s.haltCluster n).clusterEmptied n).chansEmptied n).engineReset n) := by
  have hhalt := s.haltCluster_leaves n
  obtain ⟨-, hreg, hweir, hengine, -, -⟩ := (((s.haltCluster n).clusterEmptied n).chansEmptied n).engineReset_leaves n
  obtain ⟨-, hreg', hweir', hengine'⟩ := ((s.haltCluster n).clusterEmptied n).chansEmptied_leaves n
  obtain ⟨-, -, hweir'', hengine''⟩ := (s.haltCluster n).clusterEmptied_leaves n
  refine ⟨(hengine m hne).trans ((hengine' m).trans ((hengine'' m).trans (hhalt.engine m hne))),
    (hweir m).trans ((hweir' m).trans ((hweir'' m hne).trans (hhalt.weir m))), fun a ha => (hreg a).trans ((hreg' a).trans ?_)⟩
  rw [State.reg_clusterEmptied, clusterMine_other ha hne, if_neg Bool.false_ne_true]
  exact hhalt.reg a (threadWord_not_haltWrites ha hne)

theorem not_haltWrites_CG_MAP (n : Nat) : ¬ haltWrites n CG_MAP := by
  rintro (h | h | ⟨u, -, h⟩)
  · exact absurd h (by decide)
  · unfold CG_MAP CL_STATUS at h; omega
  · unfold CG_MAP TH_STATUS at h; omega

/-- The time and the map of gated clusters, which the emptied cluster leaves. -/
theorem State.emptied_leaves (s : State) (n : Nat) :
    (((s.haltCluster n).clusterEmptied n).chansEmptied n).mt = s.mt ∧
      (((s.haltCluster n).clusterEmptied n).chansEmptied n).reg CG_MAP = s.reg CG_MAP := by
  have hhalt := s.haltCluster_leaves n
  obtain ⟨hmt, hreg, -, -⟩ := ((s.haltCluster n).clusterEmptied n).chansEmptied_leaves n
  refine ⟨hmt.trans (((s.haltCluster n).clusterEmptied_leaves n).1.trans hhalt.mt), (hreg _).trans ?_⟩
  rw [State.reg_clusterEmptied, clusterMine_CG_MAP, if_neg Bool.false_ne_true]
  exact hhalt.reg _ (not_haltWrites_CG_MAP n)

/-- The cluster itself, emptied. -/
theorem State.emptied_resetAt (s : State) (n : Nat) : ResetAt n s ((((s.haltCluster n).clusterEmptied n).chansEmptied n).engineReset n) := by
  obtain ⟨hmt, hmap⟩ := s.emptied_leaves n
  obtain ⟨-, hreg, hweir, -, hend, hwakeEnd⟩ := (((s.haltCluster n).clusterEmptied n).chansEmptied n).engineReset_leaves n
  obtain ⟨-, hreg', hweir', hengine'⟩ := ((s.haltCluster n).clusterEmptied n).chansEmptied_leaves n
  obtain ⟨-, hweir'', -, hengine''⟩ := (s.haltCluster n).clusterEmptied_leaves n
  have hwake : ((((s.haltCluster n).clusterEmptied n).chansEmptied n).engine n).wakeEnd = (s.engine n).wakeEnd := by
    rw [hengine', hengine'']
    exact s.wakeEnd_haltCluster n
  refine ⟨by rw [hend, hmt], ?_, (hweir n).trans ((hweir' n).trans hweir''), fun a ha => (hreg a).trans ((hreg' a).trans ?_)⟩
  · rw [hwakeEnd, State.resetWake, State.bit, hmap, hwake, hmt, ← State.bit, ← State.resetWake]
  · rw [State.reg_clusterEmptied, clusterMine_threadWord ha, if_pos rfl]

/-- What the end of a cluster's reset leaves. -/
theorem State.stopsKept_leaves (s u : State) :
    ((s.keepStops u).refreshPins u.now).mt = u.mt ∧ ((s.keepStops u).refreshPins u.now).reg CG_MAP = u.reg CG_MAP := by
  obtain ⟨⟨_, hshape⟩, hstops⟩ := s.keepStops_shows u
  have hpads := State.refreshPins_keepsSystem (s.keepStops u) u.now
  refine ⟨hpads.mt.trans (by rw [hshape]), (hpads.regs _ (by unfold besidePins CG_MAP; omega)).trans (hstops _ (by decide))⟩

/-- The time and the map of gated clusters, which a cluster's reset leaves. -/
theorem State.clearCluster_leaves (s : State) (n : Nat) : (s.clearCluster n).mt = s.mt ∧ (s.clearCluster n).reg CG_MAP = s.reg CG_MAP := by
  obtain ⟨hmt, hmap⟩ := s.emptied_leaves n
  obtain ⟨hmt', hreg, -, -, -, -⟩ := (((s.haltCluster n).clusterEmptied n).chansEmptied n).engineReset_leaves n
  rw [s.clearCluster_eq n]
  obtain ⟨hmt'', hmap''⟩ := s.stopsKept_leaves ((((s.haltCluster n).clusterEmptied n).chansEmptied n).engineReset n)
  exact ⟨hmt''.trans (hmt'.trans hmt), hmap''.trans ((hreg _).trans hmap)⟩

theorem State.clearCluster_resetAt (s : State) (n : Nat) : ResetAt n s (s.clearCluster n) := by
  rw [s.clearCluster_eq n]
  exact ((s.emptied_resetAt n).same (State.keepStops_sameCluster _ _ n)).same
    (State.sameCluster_of_keepsSystem (State.refreshPins_keepsSystem _ _) n)

theorem State.clearCluster_sameCluster (s : State) {n m : Nat} (hne : m ≠ n) : SameCluster m s (s.clearCluster n) := by
  rw [s.clearCluster_eq n]
  exact ((s.emptied_sameCluster hne).trans (State.keepStops_sameCluster _ _ m)).trans
    (State.sameCluster_of_keepsSystem (State.refreshPins_keepsSystem _ _) m)

/-- The clusters below `k` that a mask names have been reset. -/
theorem State.clearClusters_show (s : State) (v : Word) (k : Nat) :
    let t := foldBelow k (fun s n => if bitOf v n then s.clearCluster n else s) s
    t.mt = s.mt ∧ t.reg CG_MAP = s.reg CG_MAP ∧ ∀ n, (n < k ∧ bitOf v n = true → ResetAt n s t) ∧ (k ≤ n → SameCluster n s t) := by
  induction k with
  | zero => exact ⟨rfl, rfl, fun n => ⟨fun h => absurd h.1 (Nat.not_lt_zero n), fun _ => ⟨rfl, rfl, fun _ _ => rfl⟩⟩⟩
  | succ k ih =>
    dsimp only at ih ⊢
    rw [foldBelow_succ]
    generalize foldBelow k (fun s n => if bitOf v n then s.clearCluster n else s) s = u at ih
    obtain ⟨hmt, hmap, hall⟩ := ih
    by_cases hk : bitOf v k = true
    · rw [if_pos hk]
      obtain ⟨hmt', hmap'⟩ := u.clearCluster_leaves k
      refine ⟨hmt'.trans hmt, hmap'.trans hmap, fun n => ⟨fun ⟨hn, hbit⟩ => ?_, fun hn => ?_⟩⟩
      · by_cases hlast : n = k
        · rw [hlast]
          exact (u.clearCluster_resetAt k).of_same ((hall k).2 (Nat.le_refl k)) hmt hmap
        · exact ((hall n).1 ⟨by omega, hbit⟩).same (u.clearCluster_sameCluster hlast)
      · exact ((hall n).2 (by omega)).trans (u.clearCluster_sameCluster (by omega))
    · rw [if_neg hk]
      refine ⟨hmt, hmap, fun n => ⟨fun ⟨hn, hbit⟩ => (hall n).1 ⟨?_, hbit⟩, fun hn => (hall n).2 (by omega)⟩⟩
      by_contra hlast
      exact hk ((show n = k by omega) ▸ hbit)

/-- What a cluster that has been reset shows. -/
theorem State.ResetAt.shows {n : Nat} {s t : State} (h : ResetAt n s t) (hn : n < 24) :
    (t.engine n).wakeEnd = (if s.gated n = true then some ((s.engine n).wakeEnd.getD (s.mt + 160)) else none) ∧
      ∀ th : Nat, th < 16 → t.thState n th = thHalted ∧ ∀ i : Nat, i < 16 → t.g n th i = 0 := by
  refine ⟨h.wakeEnd.trans ?_, fun th hth => ⟨?_, fun i hi => (h.words _ (threadWord_G n hth hi)).trans (resetWord_G n hth hi)⟩⟩
  · unfold State.resetWake State.gated
    cases s.bit CG_MAP n
    · rfl
    · cases (s.engine n).wakeEnd <;> rfl
  · rw [State.thState, State.fld, h.words _ (threadWord_TH_STATUS n hth), resetWord, regRow_TH_STATUS hn hth]
    rfl

end Sys2Proof.Machine

namespace Sys2Proof.Proofs

open Sys2Proof.Machine Sys2Proof.Machine.Reg

theorem rstCl_row {v : Word} {s : State} (ha : s.accepts RST_CL v) : exec (.rstCl v) s = .next ((s.noteHost RST_CL).rstCl v) :=
  congrArg Host.Outcome.next (s.hostWrite_accepts _ ha)

theorem rstCl_refused (v : Word) (s : State) (ha : s.accepts RST_CL v) (hv : bitsOf v 23 0 ≠ 0) (hload : s.bit UC_LOAD_STATUS 31 = true) :
    ∃ t, exec (.rstCl v) s = .next t ∧ t.bit RST_STATUS 8 = true ∧ t.threads = s.threads ∧ t.weirs = s.weirs := by
  have hrow : (s.noteHost RST_CL).rstCl v = ((s.noteHost RST_CL).raise RST_STATUS 8).sysEvent 3 := (if_neg hv).trans (if_pos hload)
  refine ⟨_, (rstCl_row ha).trans (congrArg Host.Outcome.next hrow), ?_, rfl, rfl⟩
  exact (s.noteHost RST_CL).bit_raise_self RST_STATUS (by decide)

theorem rstCl_resets (v : Word) (s : State) (ha : s.accepts RST_CL v) (hload : s.bit UC_LOAD_STATUS 31 = false) :
    ∃ t, exec (.rstCl v) s = .next t ∧ ∀ n : Nat, n < 24 → v.getLsbD n = true →
      (t.engine n).resetEnd = some (s.mt + 64) ∧ t.weir n = Weir.init ∧
      (t.engine n).wakeEnd = (if s.gated n = true then some ((s.engine n).wakeEnd.getD (s.mt + 160)) else none) ∧
      ∀ h : Nat, h < 16 → t.thState n h = thHalted ∧ ∀ i : Nat, i < 16 → t.g n h i = 0 := by
  refine ⟨_, rstCl_row ha, fun n hn hbit => ?_⟩
  have hv : bitsOf v 23 0 ≠ 0 := by
    intro hzero
    have htest := testBit_bitsOf v 23 0 n
    rw [hzero, Nat.zero_testBit, Nat.zero_add, hbit, decide_eq_true (show n < 23 + 1 - 0 by omega)] at htest
    exact absurd htest (by decide)
  have hrow : (s.noteHost RST_CL).rstCl v = foldBelow 24 (fun s n => if bitOf v n then s.clearCluster n else s) (s.noteHost RST_CL) :=
    (if_neg hv).trans (if_neg (by rw [show (s.noteHost RST_CL).bit UC_LOAD_STATUS 31 = false from hload]; decide))
  have hreset := ((s.noteHost RST_CL).clearClusters_show v 24).2.2 n |>.1 ⟨hn, hbit⟩
  rw [hrow]
  obtain ⟨hwake, hthreads⟩ := hreset.shows hn
  exact ⟨hreset.resetEnd, hreset.weir, hwake, hthreads⟩

end Sys2Proof.Proofs
end

section
/-!
PROOFS. What the end and the beginning of a tick leave of the clock (R27, R349): machine time, the clock phase and the held host requests,
operation by operation.
-/

namespace Sys2Proof.Machine

/-- Machine time, the clock phase and the held host requests. -/
def State.clock (s : State) : Tick × Phase × List HostReq := (s.mt, s.power.phase, s.power.heldHost)

@[simp] theorem State.clock_ite (c : Prop) [Decidable c] (a b : State) : (if c then a else b).clock = if c then a.clock else b.clock :=
  apply_ite State.clock c a b

theorem State.clock_foldl {α : Type} {f : State → α → State} (hf : ∀ s x, (f s x).clock = s.clock) (l : List α) (s : State) :
    (l.foldl f s).clock = s.clock := by
  induction l generalizing s with
  | nil => rfl
  | cons x l ih => exact (ih _).trans (hf s x)

theorem State.clock_foldBelow {f : State → Nat → State} (hf : ∀ s x, (f s x).clock = s.clock) (n : Nat) (s : State) :
    (foldBelow n f s).clock = s.clock := State.clock_foldl hf _ s

/-- An update of any other fields. -/
theorem State.clock_mk (s : State) {x_regs x_reservoir x_poison x_localRam x_ustore x_chans x_trips x_mittens x_pins x_shafts x_weirs
    x_engines x_threads x_rings x_ifaces x_probes x_pcmps x_culverts x_ports x_exports x_adc x_cal x_swap x_nvm x_hg x_ts x_island
    x_irqEvents x_start x_raised x_touched x_written x_rwNow x_rwNext x_wroteTick x_wrote x_was x_later x_takes x_hostData x_sent x_free
    x_pending} :
    (State.mk s.mt x_regs x_reservoir x_poison x_localRam x_ustore x_chans x_trips x_mittens x_pins x_shafts x_weirs x_engines x_threads
      x_rings x_ifaces x_probes x_pcmps x_culverts x_ports x_exports x_adc x_cal x_swap x_nvm x_hg x_ts s.power x_island x_irqEvents
      x_start x_raised x_touched x_written x_rwNow x_rwNext x_wroteTick x_wrote x_was x_later x_takes x_hostData x_sent x_free
      x_pending).clock = s.clock := by rfl

/-! ### Registers, tables and counts -/

theorem State.setReg_clock (s : State) (a : Nat) (v : Word) : (s.setReg a v).clock = s.clock := by rfl

theorem State.setRw_clock (s : State) (a : Nat) (v : Word) : (s.setRw a v).clock = s.clock := by
  simp only [State.setRw, State.clock_mk, State.setReg_clock]

theorem State.resWrite_clock (s : State) (a v n : Nat) : (s.resWrite a v n).clock = s.clock := rfl

theorem State.setRing_clock (s : State) (k : Nat) (q : RingState) : (s.setRing k q).clock = s.clock := rfl

theorem State.setFld_clock (s : State) (a hi lo v : Nat) : (s.setFld a hi lo v).clock = s.clock := by
  simp only [State.setFld, State.setReg_clock]

theorem State.setBit_clock (s : State) (a i : Nat) (b : Bool) : (s.setBit a i b).clock = s.clock := by
  simp only [State.setBit, State.setReg_clock]

theorem State.noteHw_clock (s : State) (a i : Nat) (fresh : Bool) : (s.noteHw a i fresh).clock = s.clock := by
  simp only [State.noteHw, State.clock_mk]

theorem State.raise_clock (s : State) (a i : Nat) : (s.raise a i).clock = s.clock := by
  simp only [State.raise, State.noteHw_clock, State.setBit_clock]

theorem State.raiseIf_clock (s : State) (c : Bool) (a i : Nat) : (s.raiseIf c a i).clock = s.clock := by
  simp only [State.raiseIf, State.clock_ite, ite_self, State.raise_clock]

theorem State.satCount_clock (s : State) (a : Nat) : (s.satCount a).clock = s.clock := by
  simp only [State.satCount, State.noteHw_clock, State.setReg_clock]

theorem State.satAdd_clock (s : State) (a n : Nat) : (s.satAdd a n).clock = s.clock := by
  simp only [State.satAdd, State.clock_foldl, implies_true, State.satCount_clock]

theorem State.count_clock (s : State) (a : Nat) : (s.count a).clock = s.clock := by
  simp only [State.count, State.setReg_clock]

theorem State.setPair_clock (s : State) (lo hi : Nat) (v : BitVec 64) : (s.setPair lo hi v).clock = s.clock := by
  simp only [State.setPair, State.setReg_clock]

theorem State.setChan_clock (s : State) (k : Nat) (c : Chan) : (s.setChan k c).clock = s.clock := by
  simp only [State.setChan, State.clock_mk]

theorem State.setTrip_clock (s : State) (i : Nat) (c : Trip) : (s.setTrip i c).clock = s.clock := by
  simp only [State.setTrip, State.clock_mk]

theorem State.setMitten_clock (s : State) (m : Nat) (c : Mitten) : (s.setMitten m c).clock = s.clock := by
  simp only [State.setMitten, State.clock_mk]

theorem State.setPin_clock (s : State) (p : Nat) (c : PinState) : (s.setPin p c).clock = s.clock := by
  simp only [State.setPin, State.clock_mk]

theorem State.setShaft_clock (s : State) (h : Nat) (c : Shaft) : (s.setShaft h c).clock = s.clock := by
  simp only [State.setShaft, State.clock_mk]

theorem State.setWeir_clock (s : State) (n : Nat) (c : Weir) : (s.setWeir n c).clock = s.clock := by
  simp only [State.setWeir, State.clock_mk]

theorem State.setEngine_clock (s : State) (n : Nat) (c : Engine) : (s.setEngine n c).clock = s.clock := by
  simp only [State.setEngine, State.clock_mk]

theorem State.breakGate_clock (s : State) (n : Nat) : (s.breakGate n).clock = s.clock := by
  unfold State.breakGate
  split <;> simp only [State.clock_ite, ite_self, State.setEngine_clock]

theorem State.gatedTick_clock (s : State) (n : Nat) : (s.gatedTick n).clock = s.clock := by
  simp only [State.gatedTick, State.clock_ite, ite_self, State.breakGate_clock, State.count_clock]

theorem State.setThread_clock (s : State) (n t : Nat) (c : Thread) : (s.setThread n t c).clock = s.clock := by
  simp only [State.setThread, State.clock_mk]

theorem State.setIface_clock (s : State) (f : Nat) (c : Iface) : (s.setIface f c).clock = s.clock := by
  simp only [State.setIface, State.clock_mk]

theorem State.setProbe_clock (s : State) (p : Nat) (c : Probe) : (s.setProbe p c).clock = s.clock := by
  simp only [State.setProbe, State.clock_mk]

theorem State.setPcmp_clock (s : State) (j : Nat) (c : Pcmp) : (s.setPcmp j c).clock = s.clock := by
  simp only [State.setPcmp, State.clock_mk]

theorem State.setCulvert_clock (s : State) (i : Nat) (c : Culvert) : (s.setCulvert i c).clock = s.clock := by
  simp only [State.setCulvert, State.clock_mk]

theorem State.setPort_clock (s : State) (p : Nat) (c : Port) : (s.setPort p c).clock = s.clock := by
  simp only [State.setPort, State.clock_mk]

theorem State.setKey_clock (s : State) (k : Nat) (v : KeySlot) : (s.setKey k v).clock = s.clock := by
  simp only [State.setKey, State.clock_mk]

theorem State.noteWear_clock (s : State) (src idx : Nat) : (s.noteWear src idx).clock = s.clock := by
  unfold State.noteWear
  exact State.clock_foldl (fun s w => by simp only [State.clock_mk]) _ s

theorem State.resWriteWords_clock (s : State) (a v words : Nat) : (s.resWriteWords a v words).clock = s.clock := by
  simp only [State.resWriteWords, State.clock_mk, State.resWrite_clock]

/-! ### Events and messages -/

theorem State.useFree_clock (s : State) : s.useFree.clock = s.clock := by
  simp only [State.useFree, State.clock_mk]

theorem State.deliver_clock (s : State) (source : Nat) (cause : Option Nat) : (s.deliver source cause).clock = s.clock := by
  simp only [State.deliver, State.clock_mk]

theorem State.deliverIf_clock (s : State) (sel selBit source cause : Nat) : (s.deliverIf sel selBit source cause).clock = s.clock := by
  simp only [State.deliverIf, State.clock_ite, ite_self, State.deliver_clock]

theorem State.weirEvent_clock (s : State) (n e : Nat) : (s.weirEvent n e).clock = s.clock := by
  simp only [State.weirEvent, State.deliverIf_clock]

theorem State.shaftEvent_clock (s : State) (h e : Nat) : (s.shaftEvent h e).clock = s.clock := by
  simp only [State.shaftEvent, State.deliverIf_clock]

theorem State.fbEvent_clock (s : State) (f e : Nat) : (s.fbEvent f e).clock = s.clock := by
  simp only [State.fbEvent, State.deliverIf_clock]

theorem State.ringEvent_clock (s : State) (r e : Nat) : (s.ringEvent r e).clock = s.clock := by
  simp only [State.ringEvent, State.deliverIf_clock]

theorem State.hostEvent_clock (s : State) (e : Nat) : (s.hostEvent e).clock = s.clock := by
  simp only [State.hostEvent, State.deliver_clock]

theorem State.send_clock (s : State) (m : Sent) : (s.send m).clock = s.clock := by
  simp only [State.send, State.clock_mk]

theorem State.openCycle_clock (s : State) : s.openCycle.clock = s.clock := by
  unfold State.openCycle
  split
  · rfl
  · simp only [State.clock_mk]
    exact State.clock_foldl (fun s (e : Nat × Word) => s.setReg_clock e.1 e.2) _ s

/-! ### Pads, mittens and trips -/

theorem State.noteForce_clock (s : State) (p : Nat) : (s.noteForce p).clock = s.clock := by
  unfold State.noteForce
  split <;> simp only [State.clock_ite, ite_self, State.setPin_clock]

theorem State.settlePad_clock (s : State) (at_ : Stamp) (p : Nat) : (s.settlePad at_ p).clock = s.clock := by
  unfold State.settlePad
  split <;> simp only [State.clock_ite, ite_self, State.noteWear_clock, State.raise_clock, State.setPin_clock]

theorem State.passInterlock_clock (s : State) (p : Nat) : (s.passInterlock p).clock = s.clock := by
  unfold State.passInterlock
  repeat' split
  all_goals simp only [State.setPin_clock]

theorem State.refreshPins_clock (s : State) (at_ : Stamp) : (s.refreshPins at_).clock = s.clock := by
  simp only [State.refreshPins, State.clock_foldl, implies_true, State.noteForce_clock, State.passInterlock_clock, State.settlePad_clock]

theorem State.take_clock (s : State) (m i : Nat) : (s.take m i).clock = s.clock := by
  simp only [State.take, State.clock_ite, ite_self, State.deliver_clock, State.refreshPins_clock, State.satCount_clock,
    State.setMitten_clock, State.setPair_clock, State.setReg_clock]

theorem State.takeIfFree_clock (s : State) (m i : Nat) : (s.takeIfFree m i).clock = s.clock := by
  simp only [State.takeIfFree, State.clock_ite, ite_self, State.take_clock]

theorem State.sourceOn_clock (s : State) (i : Nat) : (s.sourceOn i).clock = s.clock := by
  simp only [State.sourceOn, State.clock_ite, ite_self, State.clock_foldBelow, implies_true, State.setMitten_clock, State.takeIfFree_clock]

theorem State.sourceOff_clock (s : State) (i : Nat) : (s.sourceOff i).clock = s.clock := by
  simp only [State.sourceOff, State.clock_ite, ite_self, State.clock_foldBelow, implies_true, State.satCount_clock, State.setMitten_clock]

theorem State.setTripActive_clock (s : State) (i : Nat) (b : Bool) : (s.setTripActive i b).clock = s.clock := by
  simp only [State.setTripActive, State.clock_ite, ite_self, State.setBit_clock, State.sourceOff_clock, State.sourceOn_clock]

/-! ### Channels and captures -/

theorem State.takePair_clock (s : State) (k : Nat) : (s.takePair k).clock = s.clock := by
  simp only [State.takePair, State.setFld_clock, State.setPair_clock, State.setReg_clock]

theorem State.trainStop_clock (s : State) (k : Nat) : (s.trainStop k).clock = s.clock := by
  simp only [State.trainStop, State.clock_ite, ite_self, State.setChan_clock]

theorem State.tdcTick_clock (s : State) : s.tdcTick.clock = s.clock := by
  unfold State.tdcTick
  repeat' split
  all_goals simp only [State.clock_mk, State.satCount_clock, State.setBit_clock, State.setChan_clock]

theorem State.tdcEdge_clock (s : State) (k : Nat) : (s.tdcEdge k).clock = s.clock := by
  unfold State.tdcEdge
  repeat' split
  all_goals simp only [State.clock_mk]

theorem State.settleCapture_clock (s : State) (k : Nat) (sure : Bool) : (s.settleCapture k sure).clock = s.clock := by
  simp only [State.settleCapture, State.satAdd_clock, State.setChan_clock]

theorem State.captureEdge_clock (s : State) (k : Nat) (st : Stamp) (lvl : Bool) : (State.captureEdge s k st lvl).2.clock = s.clock := by
  unfold State.captureEdge
  dsimp only
  repeat' split
  all_goals simp only [State.satCount_clock, State.setChan_clock, State.settleCapture_clock]

theorem State.armCapture_clock (s : State) (k : Nat) (st : Stamp) : (s.armCapture k st).clock = s.clock := by
  simp only [State.armCapture, State.setBit_clock, State.setPair_clock]

/-! ### The weirs -/

theorem State.retire_clock (s : State) (n i : Nat) (o : Outcome) : (s.retire n i o).clock = s.clock := by
  unfold State.retire
  split <;> simp only [State.setWeir_clock, State.weirEvent_clock]

theorem State.eventLevel_clock (s : State) (k : Nat) (st : Stamp) (lvl : Bool) : (s.eventLevel k st lvl).clock = s.clock := by
  simp only [State.eventLevel, State.clock_ite, ite_self, State.setBit_clock, State.setChan_clock]

theorem State.weirDue_clock (s : State) (n : Nat) (t : Tick) (a : DueAct) : (s.weirDue n t a).clock = s.clock := by
  simp only [State.weirDue, State.setWeir_clock]

theorem State.endAction_clock (s : State) (n : Nat) (e : Slot) (st : Stamp) : (s.endAction n e st).clock = s.clock := by
  unfold State.endAction
  split <;> simp only [State.clock_ite, ite_self, State.eventLevel_clock, State.weirDue_clock]

theorem State.abortSlot_clock (s : State) (n i : Nat) (e : Slot) : (s.abortSlot n i e).clock = s.clock := by
  simp only [State.abortSlot, State.clock_ite, ite_self, State.endAction_clock, State.retire_clock, State.satCount_clock]

theorem State.post_clock (s : State) (n : Nat) (d : Nat → Word) : (State.post s n d).2.clock = s.clock := by
  unfold State.post
  dsimp only
  repeat' split
  all_goals simp only [State.satCount_clock, State.setWeir_clock, State.weirEvent_clock]

theorem State.postHost_clock (s : State) (n : Nat) (d : Nat → Word) : (s.postHost n d).clock = s.clock := by
  simp only [State.postHost, State.post_clock, State.setReg_clock]

theorem State.mapEvents_clock (s : State) (f : Slot → Slot) : (s.mapEvents f).clock = s.clock := by
  simp only [State.mapEvents, State.clock_ite, ite_self, State.clock_foldBelow, implies_true, State.setWeir_clock]

theorem State.refreeze_clock (s : State) (h : Nat) : (s.refreeze h).clock = s.clock := by
  simp only [State.refreeze, State.mapEvents_clock]

theorem State.abortEvents_clock (s : State) (h : Nat) (p : Nat → Bool) : (s.abortEvents h p).clock = s.clock := by
  simp only [State.abortEvents, State.clock_ite, ite_self, State.clock_foldl, implies_true, State.clock_foldBelow, State.abortSlot_clock]

theorem State.weirShaftLost_clock (s : State) (h : Nat) (stopped : Bool) : (s.weirShaftLost h stopped).clock = s.clock := by
  simp only [State.weirShaftLost, State.abortEvents_clock, State.mapEvents_clock]

theorem State.weirShaftStall_clock (s : State) (h : Nat) : (s.weirShaftStall h).clock = s.clock := by
  simp only [State.weirShaftStall, State.abortEvents_clock, State.refreeze_clock]

theorem State.takeWeir_clock (s : State) (n : Nat) : (s.takeWeir n).clock = s.clock := by
  simp only [State.takeWeir, State.setFld_clock, State.setPair_clock, State.setReg_clock]

/-! ### The swap and the shafts -/

theorem State.swapEnd_clock (s : State) (outcome : Nat) : (s.swapEnd outcome).clock = s.clock := by
  simp only [State.swapEnd, State.clock_ite, ite_self, State.deliver_clock, State.setReg_clock]

theorem State.swapFreeze_clock (s : State) (h : Nat) : (s.swapFreeze h).clock = s.clock := by
  simp only [State.swapFreeze, State.clock_ite, ite_self, State.clock_mk]

theorem State.swapShaftLost_clock (s : State) (h : Nat) : (s.swapShaftLost h).clock = s.clock := by
  simp only [State.swapShaftLost, State.clock_ite, ite_self, State.swapEnd_clock]

theorem State.shaftJumped_clock (s : State) (h : Nat) (p0 : BitVec 64) : (s.shaftJumped h p0).clock = s.clock := by
  simp only [State.shaftJumped, State.clock_ite, ite_self, State.clock_foldBelow, implies_true, State.raise_clock, State.setPcmp_clock]

theorem State.reportEstimate_clock (s : State) (h : Nat) : (s.reportEstimate h).clock = s.clock := by
  simp only [State.reportEstimate, State.setFld_clock, State.setReg_clock]

theorem State.holdAt_clock (s : State) (h : Nat) (pos : BitVec 64) : (s.holdAt h pos).clock = s.clock := by
  simp only [State.holdAt, State.reportEstimate_clock, State.setShaft_clock]

theorem State.hold_clock (s : State) (h : Nat) : (s.hold h).clock = s.clock := by
  simp only [State.hold, State.holdAt_clock]

theorem State.jump_clock (s : State) (h : Nat) (j : BitVec 64) (cause : Nat) : (s.jump h j cause).clock = s.clock := by
  simp only [State.jump, State.setPair_clock, State.setReg_clock, State.setShaft_clock, State.shaftEvent_clock]

theorem State.noteSat_clock (s : State) (h : Nat) (b : Bool) : (s.noteSat h b).clock = s.clock := by
  simp only [State.noteSat, State.clock_ite, ite_self, State.raise_clock]

theorem State.satTick_clock (s : State) (h : Nat) : (s.satTick h).clock = s.clock := by
  simp only [State.satTick, State.noteSat_clock]

theorem State.enterState_clock (s : State) (h st : Nat) : (s.enterState h st).clock = s.clock := by
  simp only [State.enterState, State.clock_ite, ite_self, State.hold_clock, State.satCount_clock, State.setBit_clock, State.setFld_clock,
    State.setShaft_clock, State.shaftEvent_clock, State.swapShaftLost_clock, State.weirShaftLost_clock]

theorem State.encoderSync_clock (s : State) (h : Nat) (c : Int) : (s.encoderSync h c).clock = s.clock := by
  simp only [State.encoderSync, State.clock_ite, ite_self, State.enterState_clock, State.holdAt_clock, State.jump_clock,
    State.setShaft_clock, State.shaftJumped_clock]

theorem State.encoderValid_clock (s : State) (src i : Nat) (c : Int) : (s.encoderValid src i c).clock = s.clock := by
  simp only [State.encoderValid, State.clock_ite, ite_self, State.clock_foldl, implies_true, State.encoderSync_clock]

theorem State.encoderLost_clock (s : State) (src i : Nat) : (s.encoderLost src i).clock = s.clock := by
  simp only [State.encoderLost, State.clock_ite, ite_self, State.clock_foldl, implies_true, State.enterState_clock]

theorem State.encoderIndex_clock (s : State) (src i : Nat) (fault : Bool) : (s.encoderIndex src i fault).clock = s.clock := by
  simp only [State.encoderIndex, State.clock_ite, ite_self, State.clock_foldl, implies_true, State.enterState_clock]

theorem State.genStalled_clock (s : State) (h : Nat) : (s.genStalled h).clock = s.clock := by
  simp only [State.genStalled, State.clock_ite, ite_self, State.setBit_clock, State.shaftEvent_clock, State.swapFreeze_clock,
    State.weirShaftStall_clock]

theorem State.genBegin_clock (s : State) (h : Nat) : (s.genBegin h).clock = s.clock := by
  unfold State.genBegin
  repeat' split
  all_goals simp only [State.enterState_clock, State.setBit_clock, State.setShaft_clock]

theorem State.genTick_clock (s : State) (h : Nat) : (s.genTick h).clock = s.clock := by
  simp only [State.genTick, State.clock_ite, ite_self, State.genBegin_clock, State.genStalled_clock, State.setShaft_clock]

theorem State.takeShaft_clock (s : State) (h : Nat) : (s.takeShaft h).clock = s.clock := by
  simp only [State.takeShaft, State.noteSat_clock, State.setFld_clock, State.setPair_clock, State.setReg_clock]

/-! ### Edges at the inputs -/

theorem State.toothEdge_clock (s : State) (k : Nat) (st : Stamp) (lvl : Bool) : (s.toothEdge k st lvl).clock = s.clock := by
  unfold State.toothEdge
  refine State.clock_foldBelow (fun s h => ?_) 16 s
  rw [State.clock_ite, State.clock_ite]
  cases (s.shaft h).cands.reverse <;> simp only [State.setShaft_clock, State.clock_ite, ite_self]

theorem State.dropCandidate_clock (s : State) (k : Nat) (st : Stamp) : (s.dropCandidate k st).clock = s.clock := by
  simp only [State.dropCandidate, State.clock_ite, ite_self, State.clock_foldBelow, implies_true, State.setShaft_clock]

theorem State.directionEdge_clock (s : State) (k : Nat) : (s.directionEdge k).clock = s.clock := by
  simp only [State.directionEdge, State.clock_ite, ite_self, State.clock_foldBelow, implies_true, State.setShaft_clock]

theorem State.feedEdge_clock (s : State) (k : Nat) (st : Stamp) (lvl : Bool) : (s.feedEdge k st lvl).clock = s.clock := by
  simp only [State.feedEdge, State.clock_ite, ite_self, State.clock_foldBelow, implies_true, State.setIface_clock, State.setProbe_clock]

theorem State.unfeedEdge_clock (s : State) (k : Nat) (st : Stamp) : (s.unfeedEdge k st).clock = s.clock := by
  simp only [State.unfeedEdge, State.clock_ite, ite_self, State.clock_foldBelow, implies_true, State.setIface_clock, State.setProbe_clock]

theorem State.stampEdge_clock (s : State) (k : Nat) (st : Stamp) (lvl : Bool) : (s.stampEdge k st lvl).clock = s.clock := by
  unfold State.stampEdge
  dsimp only
  rw [State.directionEdge_clock]
  split <;> simp only [State.clock_ite, State.captureEdge_clock, State.dropCandidate_clock, State.feedEdge_clock, State.noteWear_clock,
    State.setChan_clock, State.tdcEdge_clock, State.toothEdge_clock, State.unfeedEdge_clock, ite_self]

theorem State.pinBoundary_clock (s : State) (p : Nat) : (s.pinBoundary p).clock = s.clock := by
  unfold State.pinBoundary
  repeat' split
  all_goals simp only [State.setPin_clock]

theorem State.inputBoundary_clock (s : State) (k : Nat) : (s.inputBoundary k).clock = s.clock := by
  unfold State.inputBoundary
  split <;> simp only [State.clock_ite, ite_self, State.directionEdge_clock, State.setChan_clock, State.stampEdge_clock]

/-! ### The rings -/

theorem State.ringOpen_clock (s : State) (r : Nat) : (s.ringOpen r).clock = s.clock := by
  simp only [State.ringOpen, State.clock_ite, ite_self, State.setRing_clock]

theorem State.ringLevel_clock (s : State) (r fill credit : Nat) : (s.ringLevel r fill credit).clock = s.clock := by
  simp only [State.ringLevel, State.setReg_clock]

theorem State.ringCycleEnd_clock (s : State) (r : Nat) : (s.ringCycleEnd r).clock = s.clock := by
  simp only [State.ringCycleEnd, State.clock_ite, ite_self, State.ringEvent_clock, State.setRing_clock]

theorem State.ringSpilled_clock (s : State) (r : Nat) : (s.ringSpilled r).clock = s.clock := by
  simp only [State.ringSpilled, State.raise_clock, State.ringEvent_clock]

theorem State.ringPass_clock (s : State) (r : Nat) : (s.ringPass r).clock = s.clock := by
  simp only [State.ringPass, State.ringOpen_clock, State.setReg_clock, State.setRing_clock]

theorem State.ringAdmit_clock (s : State) (r : Nat) (es : List InFlight) : (s.ringAdmit r es).clock = s.clock := by
  unfold State.ringAdmit
  dsimp only
  rw [State.ringPass_clock, State.ringLevel_clock, State.setRing_clock, State.ringOpen_clock]

theorem State.ringOffer_clock (s : State) (r : Nat) (allowed : Bool) (e : BitVec 128) : (s.ringOffer r allowed e).clock = s.clock := by
  unfold State.ringOffer
  simp only [State.clock_ite, State.ringSpilled_clock, State.setRing_clock, State.ringAdmit_clock, ite_self]

theorem State.ringGather_clock (s : State) (r rank : Nat) (o : Offer) : (s.ringGather r rank o).clock = s.clock := by
  simp only [State.ringGather, State.setRing_clock]

theorem State.takeRing_clock (s : State) (r : Nat) : (s.takeRing r).clock = s.clock := by
  simp only [State.takeRing, State.setFld_clock, State.setPair_clock, State.setReg_clock]

/-! ### Actions that fall due -/

theorem State.dueAct_clock (s : State) (n : Nat) (a : DueAct) : (s.dueAct n a).clock = s.clock := by
  unfold State.dueAct
  split <;> simp only [State.armCapture_clock, State.ringGather_clock, State.setBit_clock, State.trainStop_clock]

theorem State.weirActs_clock (s : State) (n : Nat) : (s.weirActs n).clock = s.clock := by
  simp only [State.weirActs, State.clock_ite, ite_self, State.clock_foldl, implies_true, State.dueAct_clock, State.setWeir_clock]

/-! ### Feedback -/

theorem State.pcCorrected_clock (s : State) (f : Nat) (p0 p1 : BitVec 64) : (s.pcCorrected f p0 p1).clock = s.clock := by
  simp only [State.pcCorrected, State.clock_ite, ite_self, State.clock_foldBelow, implies_true, State.raise_clock]

theorem State.pcDecide_clock (s : State) (j : Nat) : (s.pcDecide j).clock = s.clock := by
  simp only [State.pcDecide, State.clock_ite, ite_self, State.raise_clock, State.setPcmp_clock]

theorem State.pcTick_clock (s : State) (j : Nat) : (s.pcTick j).clock = s.clock := by
  simp only [State.pcTick, State.clock_ite, ite_self, State.setPcmp_clock]

theorem State.cvOut_clock (s : State) (i : Nat) (a b z : Bool) : (s.cvOut i a b z).clock = s.clock := by
  simp only [State.cvOut, State.clock_ite, ite_self, State.refreshPins_clock, State.setCulvert_clock]

theorem State.cvLag_clock (s : State) (i : Nat) : (s.cvLag i).clock = s.clock := by
  simp only [State.cvLag, State.clock_ite, ite_self, State.raise_clock, State.satCount_clock, State.setFld_clock]

theorem State.cvDrive_clock (s : State) (i : Nat) : (s.cvDrive i).clock = s.clock := by
  simp only [State.cvDrive, State.cvOut_clock]

theorem State.cvSample_clock (s : State) (f : Nat) : (s.cvSample f).clock = s.clock := by
  simp only [State.cvSample, State.clock_ite, ite_self, State.clock_foldBelow, implies_true, State.cvDrive_clock, State.cvLag_clock,
    State.setCulvert_clock]

theorem State.cvSampleRaw_clock (s : State) (i : Nat) : (s.cvSampleRaw i).clock = s.clock := by
  simp only [State.cvSampleRaw, State.clock_ite, ite_self, State.setCulvert_clock]

theorem State.cvTick_clock (s : State) (i : Nat) : (s.cvTick i).clock = s.clock := by
  unfold State.cvTick
  repeat' split
  all_goals simp only [State.setCulvert_clock]

theorem State.padsBoundary_clock (s : State) : s.padsBoundary.clock = s.clock := by
  simp only [State.padsBoundary, State.clock_ite, ite_self, State.clock_foldl, implies_true, State.clock_foldBelow, State.cvTick_clock,
    State.pinBoundary_clock, State.refreshPins_clock]

theorem State.cvFollow_clock (s : State) (f : Nat) : (s.cvFollow f).clock = s.clock := by
  simp only [State.cvFollow, State.clock_ite, ite_self, State.clock_foldBelow, implies_true, State.cvDrive_clock]

theorem State.absCorrect_clock (s : State) (f : Nat) (p : BitVec 64) : (s.absCorrect f p).clock = s.clock := by
  simp only [State.absCorrect, State.cvSample_clock, State.pcCorrected_clock, State.setIface_clock]

theorem State.refSet_clock (s : State) (f : Nat) : (s.refSet f).clock = s.clock := by
  simp only [State.refSet, State.cvFollow_clock, State.encoderValid_clock, State.setBit_clock]

theorem State.refLose_clock (s : State) (f : Nat) : (s.refLose f).clock = s.clock := by
  simp only [State.refLose, State.cvFollow_clock, State.encoderLost_clock, State.satCount_clock, State.setBit_clock]

theorem State.takeIndex_clock (s : State) (f : Nat) (ai : BitVec 64) : (s.takeIndex f ai).clock = s.clock := by
  simp only [State.takeIndex, State.clock_ite, ite_self, State.absCorrect_clock, State.encoderIndex_clock, State.fbEvent_clock,
    State.raise_clock, State.refLose_clock, State.refSet_clock, State.satCount_clock, State.setIface_clock]

theorem State.indexTick_clock (s : State) (f : Nat) : (s.indexTick f).clock = s.clock := by
  unfold State.indexTick
  repeat' split
  all_goals simp only [State.setIface_clock, State.takeIndex_clock]

theorem State.qencTick_clock (s : State) (i : Nat) : (s.qencTick i).clock = s.clock := by
  unfold State.qencTick
  dsimp only
  repeat' split
  all_goals simp only [State.setIface_clock]

theorem State.ssiTick_clock (s : State) (i : Nat) : (s.ssiTick i).clock = s.clock := by
  simp only [State.ssiTick, State.clock_ite, ite_self, State.setIface_clock]

/-! ### Threads and engines -/

theorem State.takeAdc_clock (s : State) : s.takeAdc.clock = s.clock := by
  simp only [State.takeAdc, State.setFld_clock, State.setPair_clock, State.setReg_clock]

theorem State.setThStamp_clock (s : State) (n t : Nat) (v : Stamp) : (s.setThStamp n t v).clock = s.clock := by
  simp only [State.setThStamp, State.setRw_clock]

theorem State.setThPc_clock (s : State) (n t pc : Nat) : (s.setThPc n t pc).clock = s.clock := by
  simp only [State.setThPc, State.setRw_clock]

theorem State.setThState_clock (s : State) (n t st kind : Nat) : (s.setThState n t st kind).clock = s.clock := by
  simp only [State.setThState, State.setReg_clock]

theorem State.setRunning_clock (s : State) (n : Nat) (t : Option Nat) : (s.setRunning n t).clock = s.clock := by
  simp only [State.setRunning, State.setReg_clock]

theorem State.runCycles_clock (s : State) (n t k : Nat) : (s.runCycles n t k).clock = s.clock := by
  simp only [State.runCycles, State.setEngine_clock, State.setReg_clock]

theorem State.switchTo_clock (s : State) (n t : Nat) : (s.switchTo n t).clock = s.clock := by
  simp only [State.switchTo, State.count_clock, State.setEngine_clock]

theorem State.engineTick_clock (s : State) (n : Nat) : (s.engineTick n).clock = s.clock := by
  unfold State.engineTick
  repeat' split
  all_goals simp only [State.switchTo_clock]

theorem State.engineBegin_clock (s : State) (n : Nat) : (s.engineBegin n).clock = s.clock := by
  unfold State.engineBegin
  repeat' split
  all_goals simp only [State.clock_ite, ite_self, State.runCycles_clock, State.setEngine_clock, State.setRunning_clock,
    State.setThState_clock, State.setThread_clock]

theorem State.noteWaits_clock (s : State) : s.noteWaits.clock = s.clock := by
  unfold State.noteWaits
  refine State.clock_foldl (fun s e => ?_) _ s
  rw [State.clock_ite]
  cases s.waitMet e.2.wait <;> simp only [State.setThread_clock, ite_self]

theorem State.setSt_clock (s : State) (n t st : Nat) : (s.setSt n t st).clock = s.clock := by
  simp only [State.setSt, State.setRw_clock]

/-! ### Ports -/

theorem State.sendFrame_clock (s : State) (p : Nat) (cls : TxClass) (f : Frame) : (s.sendFrame p cls f).clock = s.clock := by
  simp only [State.sendFrame, State.setPort_clock]

theorem State.frameLeft_clock (s : State) (p : Nat) (f : Frame) : (s.frameLeft p f).clock = s.clock := by
  unfold State.frameLeft
  split <;> simp only [State.sendFrame_clock, State.setPort_clock]

theorem State.portSend_clock (s : State) (p : Nat) : (s.portSend p).clock = s.clock := by
  unfold State.portSend
  split <;> simp only [State.clock_ite, ite_self, State.frameLeft_clock, State.send_clock, State.setPort_clock]

theorem State.sendTo_clock (s : State) (p : Nat) (mac : BitVec 48) (d : Datagram) : (s.sendTo p mac d).clock = s.clock := by
  simp only [State.sendTo, State.sendFrame_clock]

theorem State.sendOnLink_clock (s : State) (p : Nat) (d : Datagram) : (s.sendOnLink p d).clock = s.clock := by
  unfold State.sendOnLink
  dsimp only
  repeat' split
  all_goals simp only [State.sendFrame_clock, State.sendTo_clock, State.setPort_clock]

theorem State.sendUdp_clock (s : State) (p : Nat) (cls : TxClass) (ip : Word) (port : BitVec 16) (ws : List Word) :
    (s.sendUdp p cls ip port ws).clock = s.clock := by
  simp only [State.sendUdp, State.clock_ite, ite_self, State.sendOnLink_clock, State.sendTo_clock]

/-! ### The island -/

theorem State.setTrim_clock (s : State) (v : Int) : (s.setTrim v).clock = s.clock := by
  simp only [State.setTrim, State.clock_mk, State.setReg_clock]

theorem State.trimSlew_clock (s : State) : s.trimSlew.clock = s.clock := by
  simp only [State.trimSlew, State.clock_ite, ite_self, State.setTrim_clock, State.useFree_clock]

theorem State.takeWear_clock (s : State) : s.takeWear.clock = s.clock := by
  simp only [State.takeWear, State.clock_foldBelow, implies_true, State.setFld_clock, State.setPair_clock]

theorem State.beginMirror_clock (s : State) : s.beginMirror.clock = s.clock := by
  simp only [State.beginMirror, State.clock_ite, ite_self, State.clock_mk, State.setBit_clock]

theorem State.mirrorPending_clock (s : State) : s.mirrorPending.clock = s.clock := by
  simp only [State.mirrorPending, State.clock_ite, ite_self, State.beginMirror_clock]

/-! ### Trip inputs and the watchdog -/

theorem State.tripFollow_clock (s : State) (i : Nat) : (s.tripFollow i).clock = s.clock := by
  simp only [State.tripFollow, State.clock_ite, ite_self, State.setTrip_clock, State.setTripActive_clock]

theorem State.tripSample_clock (s : State) (i : Nat) : (s.tripSample i).clock = s.clock := by
  simp only [State.tripSample, State.clock_ite, ite_self, State.setTrip_clock]

theorem State.tripBoundary_clock (s : State) (i : Nat) : (s.tripBoundary i).clock = s.clock := by
  unfold State.tripBoundary
  repeat' split
  all_goals simp only [State.setTrip_clock, State.tripFollow_clock]

theorem State.hgEvent_clock (s : State) (b : Nat) : (s.hgEvent b).clock = s.clock := by
  simp only [State.hgEvent, State.hostEvent_clock, State.raise_clock]

theorem State.kick_clock (s : State) : s.kick.clock = s.clock := by
  simp only [State.kick, State.clock_ite, ite_self, State.clock_mk, State.setFld_clock, State.sourceOff_clock]

/-! ### Probes and gating -/

theorem State.prbBegin_clock (s : State) (p : Nat) (e : ProbeEdge) : (s.prbBegin p e).clock = s.clock := by
  simp only [State.prbBegin, State.clock_ite, ite_self, State.raiseIf_clock, State.setBit_clock, State.setProbe_clock]

theorem State.prbJudge_clock (s : State) (p : Nat) (e : ProbeEdge) : (s.prbJudge p e).clock = s.clock := by
  simp only [State.prbJudge, State.clock_ite, ite_self, State.prbBegin_clock, State.satCount_clock]

theorem State.prbTick_clock (s : State) (p : Nat) : (s.prbTick p).clock = s.clock := by
  simp only [State.prbTick, State.clock_ite, ite_self, State.clock_foldl, implies_true, State.prbJudge_clock, State.setProbe_clock]

theorem State.gatingTick_clock (s : State) (n : Nat) : (s.gatingTick n).clock = s.clock := by
  unfold State.gatingTick
  dsimp only
  repeat' split
  all_goals simp only [State.setEngine_clock]

/-! ### Ponar -/

theorem State.responseGone_clock (s : State) (discarded : Bool) : (s.responseGone discarded).clock = s.clock := by
  simp only [State.responseGone, State.clock_ite, ite_self, State.clock_mk]

theorem State.respAdmit_clock (s : State) : s.respAdmit.clock = s.clock := by
  unfold State.respAdmit
  repeat' split
  all_goals simp only [State.clock_mk, State.ringGather_clock]

theorem State.respServe_clock (s : State) (r : Nat) (es : List (BitVec 128)) : (s.respServe r es).clock = s.clock := by
  simp only [State.respServe, State.clock_ite, ite_self, State.clock_mk, State.clock_foldl, implies_true, State.responseGone_clock,
    State.ringAdmit_clock, State.resWriteWords_clock]

theorem State.deliverResponse_clock (s : State) (via : Transport) (ws : List Word) : (s.deliverResponse via ws).clock = s.clock := by
  unfold State.deliverResponse
  split <;> simp only [State.clock_ite, ite_self, State.clock_mk, State.respAdmit_clock, State.responseGone_clock, State.sendUdp_clock]

theorem State.reply_clock (s : State) (m : Msg) (key : Option (BitVec 128)) (status : Nat) (payload : List Word) :
    (s.reply m key status payload).clock = s.clock := by
  simp only [State.reply, State.clock_ite, ite_self, State.clock_mk, State.deliverResponse_clock, State.useFree_clock]

theorem State.sessionPassed_clock (s : State) (m : Msg) : (s.sessionPassed m).clock = s.clock := by
  unfold State.sessionPassed
  dsimp only
  repeat' split
  all_goals simp only [State.kick_clock, State.setPort_clock]

theorem State.permCheck_clock (s : State) (m : Msg) : (s.permCheck m).clock = s.clock := by
  simp only [State.permCheck, State.clock_ite, ite_self, State.clock_mk, State.reply_clock, State.setKey_clock]

theorem State.authFail_clock (s : State) (counter : Nat) : (s.authFail counter).clock = s.clock := by
  simp only [State.authFail, State.hgEvent_clock, State.satCount_clock]

theorem State.criticalCheck_clock (s : State) (m : Msg) : (s.criticalCheck m).clock = s.clock := by
  simp only [State.criticalCheck, State.clock_ite, ite_self, State.clock_mk, State.authFail_clock, State.permCheck_clock, State.reply_clock]

theorem State.ponarBegin_clock (s : State) (m : Msg) (padOk : Bool) : (s.ponarBegin m padOk).clock = s.clock := by
  unfold State.ponarBegin
  repeat' split
  all_goals simp only [State.clock_ite, ite_self, State.clock_mk, State.criticalCheck_clock, State.hostEvent_clock, State.reply_clock,
    State.sessionPassed_clock]

theorem State.noteWhole_clock (s : State) : s.noteWhole.clock = s.clock := by
  simp only [State.noteWhole, State.clock_mk]

theorem State.engineNext_clock (s : State) : s.engineNext.clock = s.clock := by
  unfold State.engineNext
  repeat' split
  all_goals simp only [State.clock_mk, State.ponarBegin_clock]

theorem State.ponarTick_clock (s : State) : s.ponarTick.clock = s.clock := by
  simp only [State.ponarTick, State.clock_ite, ite_self, State.engineNext_clock, State.noteWhole_clock]

/-! ### Posts and pushes of threads -/

theorem State.threadPost_clock (s : State) (n t : Nat) (first : Bool) (d : Nat → Word) : (s.threadPost n t first d).clock = s.clock := by
  unfold State.threadPost
  dsimp only
  repeat' split
  all_goals simp only [State.post_clock, State.setSt_clock, State.setThStamp_clock, State.useFree_clock]

theorem State.postNext_clock (s : State) (n : Nat) : (s.postNext n).clock = s.clock := by
  unfold State.postNext
  repeat' split
  all_goals simp only [State.postHost_clock, State.setWeir_clock, State.threadPost_clock]

theorem State.pushFails_clock (s : State) (r n t pc : Nat) (waits : Bool) : (s.pushFails r n t pc waits).clock = s.clock := by
  unfold State.pushFails
  split <;> simp only [State.clock_ite, ite_self, State.setRunning_clock, State.setSt_clock, State.setThPc_clock,
    State.setThState_clock, State.setThread_clock]

theorem State.serveOffer_clock (s : State) (r : Nat) (o : Offer) : (s.serveOffer r o).clock = s.clock := by
  unfold State.serveOffer
  repeat' split
  all_goals simp only [State.ringOffer_clock, State.ringAdmit_clock, State.pushFails_clock, State.setSt_clock, State.raise_clock,
    State.setReg_clock, State.respServe_clock]

theorem State.serveOffers_clock (s : State) (r : Nat) : (s.serveOffers r).clock = s.clock := by
  simp only [State.serveOffers, State.clock_foldl, implies_true, State.serveOffer_clock, State.setRing_clock]

theorem State.ringsTickEnd_clock (s : State) : s.ringsTickEnd.clock = s.clock := by
  simp only [State.ringsTickEnd, State.clock_ite, ite_self, State.clock_foldl, implies_true, State.ringCycleEnd_clock,
    State.serveOffers_clock]

/-! ### The captures and the beginning of a tick -/

theorem State.runTake_clock (s : State) (t : Take) : (s.runTake t).clock = s.clock := by
  unfold State.runTake
  repeat' split
  all_goals simp only [State.takePair_clock, State.takeShaft_clock, State.takeWeir_clock, State.takeRing_clock, State.takeAdc_clock,
    State.takeWear_clock, State.pcDecide_clock]

theorem State.runTakes_clock (s : State) : s.runTakes.clock = s.clock := by
  simp only [State.runTakes, State.clock_mk, State.clock_foldl, implies_true, State.runTake_clock]

theorem State.enginesTickEnd_clock (s : State) : s.enginesTickEnd.clock = s.clock := by
  simp only [State.enginesTickEnd, State.clock_ite, ite_self, State.clock_foldBelow, implies_true, State.engineTick_clock]

theorem State.tickBegin_clock (s : State) : s.tickBegin.clock = s.clock := by
  simp only [State.tickBegin, State.clock_foldl, implies_true, State.clock_foldBelow, State.engineBegin_clock, State.gatingTick_clock,
    State.genTick_clock, State.indexTick_clock, State.inputBoundary_clock, State.mirrorPending_clock, State.padsBoundary_clock,
    State.postNext_clock, State.prbTick_clock, State.qencTick_clock, State.satTick_clock, State.ssiTick_clock, State.trimSlew_clock,
    State.tripBoundary_clock, State.weirActs_clock]

end Sys2Proof.Machine

end

section
/-!
PROOFS. The end of a wake out of NAP (R352, R356): a tick passes, the clocks run again and a calibration round begins.
-/

namespace Sys2Proof.Machine

open Reg

/-! ### The tick in which the clocks restart -/

theorem State.clock_injects {s t : State} (h : t.clock = s.clock) :
    t.mt = s.mt ∧ t.power.phase = s.power.phase ∧ t.power.heldHost = s.power.heldHost := by
  simpa only [State.clock, Prod.mk.injEq] using h

/-- With no write that waits the tick's end commits none. -/
theorem State.commitLater_clock {s : State} (h : s.later = []) : s.commitLater.clock = s.clock := by
  unfold State.commitLater
  rw [h]
  split <;> rfl

theorem State.commitLater_hg {s : State} (h : s.later = []) : s.commitLater.hg = s.hg := by
  unfold State.commitLater
  rw [h]
  split <;> rfl

theorem State.pairTick_none {s : State} (h : s.hg.pairs = none) : s.pairTick = s := by
  unfold State.pairTick
  rw [h]

theorem State.tickEnd_clock {s : State} (hlater : s.later = []) (hpairs : s.hg.pairs = none) : s.tickEnd.clock = s.clock := by
  have hquiet : s.commitLater.pairTick.clock = s.clock := by
    rw [State.pairTick_none ((congrArg Headgate.pairs (State.commitLater_hg hlater)).trans hpairs), State.commitLater_clock hlater]
  simp only [State.tickEnd, State.clock_foldl, State.clock_foldBelow, implies_true, State.tripSample_clock, State.tdcTick_clock,
    State.cvSampleRaw_clock, State.noteWaits_clock, State.pcTick_clock, State.ponarTick_clock, State.ringsTickEnd_clock,
    State.gatedTick_clock, State.portSend_clock, State.enginesTickEnd_clock, State.runTakes_clock, hquiet]

/-- With no held request BCLK's start serves none. -/
theorem State.bclkStart_clock {s : State} (h : s.power.heldHost = []) : s.bclkStart.clock = s.clock := by
  unfold State.bclkStart
  rw [h]
  split
  · rfl
  · exact Prod.ext rfl (Prod.ext rfl h.symm)

/-- A tick on. -/
def State.timed (s : State) : State := { s with mt := s.mt + 1, was := [] }

theorem State.timed_shows (s : State) :
    s.timed.mt = s.mt + 1 ∧ s.timed.power.phase = s.power.phase ∧ s.timed.power.heldHost = s.power.heldHost := ⟨rfl, rfl, rfl⟩

theorem State.advance_eq (s : State) : s.advance = s.timed.openCycle.tickBegin.bclkStart := rfl

theorem State.advance_clock {s : State} (h : s.power.heldHost = []) :
    s.advance.mt = s.mt + 1 ∧ s.advance.power.phase = s.power.phase ∧ s.advance.power.heldHost = [] := by
  have hbegin : s.timed.openCycle.tickBegin.clock = s.timed.clock := (State.tickBegin_clock _).trans (State.openCycle_clock _)
  obtain ⟨hmt, hphase, hheld⟩ := State.clock_injects hbegin
  obtain ⟨hmtTimed, hphaseTimed, hheldTimed⟩ := s.timed_shows
  have hnone := hheld.trans (hheldTimed.trans h)
  obtain ⟨hmt', hphase', hheld'⟩ := State.clock_injects (State.bclkStart_clock hnone)
  rw [State.advance_eq]
  exact ⟨hmt'.trans (hmt.trans hmtTimed), hphase'.trans (hphase.trans hphaseTimed), hheld'.trans hnone⟩

/-! ### What latching an event leaves set -/

theorem State.bit_raise_of_bit {s : State} {a i : Nat} (b j : Nat) (hi : i < 32) (h : s.bit a i = true) : (s.raise b j).bit a i = true := by
  by_cases hb : a = b
  · subst hb
    by_cases hj : i = j
    · subst hj
      exact s.bit_raise_self a hi
    · exact (s.bit_setBit_ne a true hj).trans h
  · exact (s.bit_raise_other j i hb).trans h

theorem State.foldBelow_induct {P : State → Prop} {f : State → Nat → State} (hf : ∀ s k, P s → P (f s k)) (n : Nat) {s : State} (h : P s) :
    P (foldBelow n f s) := by
  unfold foldBelow
  induction List.range n generalizing s with
  | nil => exact h
  | cons k l ih => exact ih (hf s k h)

theorem State.irqPendSet_keepsBit {s : State} {a i : Nat} (w : Nat) (m : Word) (ha : a ≠ VEC_INSVC) (hi : i < 32) (h : s.bit a i = true) :
    (s.irqPendSet w m).bit a i = true := by
  have hraised : (foldBelow 32 (fun s b => s.raiseIf (bitOf m b) (IRQ_PEND w) b) s).bit a i = true := by
    refine State.foldBelow_induct (P := fun u => u.bit a i = true) (fun u b hu => ?_) 32 h
    unfold State.raiseIf
    split
    · exact State.bit_raise_of_bit _ _ hi hu
    · exact hu
  exact (congrArg (bitOf · i) ((State.msixScan_onlyVectors _).reg a ha)).trans hraised

theorem State.irqLatch_keepsBit {s : State} {a i : Nat} (ha : a ≠ VEC_INSVC) (hi : i < 32) (h : s.bit a i = true) :
    s.irqLatch.bit a i = true := by
  unfold State.irqLatch
  cases s.irqEvents with
  | nil => exact h
  | cons e rest =>
    have htaken : ({ s with irqEvents := rest } : State).bit a i = true := h
    dsimp only
    split
    · refine State.irqPendSet_keepsBit _ _ ha hi ?_
      cases e.bit with
      | none => exact htaken
      | some b => exact State.bit_raise_of_bit _ b hi htaken
    · exact h

theorem State.irqLatches_keepBit {a i : Nat} (ha : a ≠ VEC_INSVC) (hi : i < 32) (l : List IrqEvent) {s : State} (h : s.bit a i = true) :
    (l.foldl (fun s _ => s.irqLatch) s).bit a i = true := by
  induction l generalizing s with
  | nil => exact h
  | cons e l ih => exact ih (State.irqLatch_keepsBit ha hi h)

/-! ### The end of the wake -/

/-- PWR_STATUS alone. -/
def powerWord (a : Nat) : Prop := a = PWR_STATUS

theorem State.initialRoundStart_keepsPower (s : State) : KeepsWords powerWord s s.initialRoundStart := by
  have h := s.initialRoundStart_leaves.1
  obtain ⟨rg, cs, ie, cl, hshape⟩ := h.shape
  refine ⟨?_, ?_, ?_, ?_, fun a ha => h.reg a ?_ ?_⟩
  · rw [hshape]
  · rw [hshape]
  · rw [hshape]
  · rw [hshape]
  · rw [ha]; decide
  · rw [ha]; decide

theorem State.mirrorPending_keepsPower (s : State) : KeepsWords powerWord s s.mirrorPending := by
  have h := s.mirrorPending_leaves
  obtain ⟨rg, mb, md, lm, hshape⟩ := h.shape
  refine ⟨?_, ?_, ?_, ?_, fun a ha => h.reg a ?_⟩
  · rw [hshape]
  · rw [hshape]
  · rw [hshape]
  · rw [hshape]
  · rw [ha]; decide

theorem powerWord_besidePins (a : Nat) (h : powerWord a) : besidePins a := by
  rw [h]
  exact .inl (by decide)

/-- What is done once the clocks run again, in the tick they restart with: PWR_STATUS, the event, the calibration round, and the events of the NAP. -/
def State.wokenBy (s : State) : State :=
  let s := (((s.setFld PWR_STATUS 2 0 0).sysEvent 3).initialRoundStart.mirrorPending).refreshPins s.now
  s.irqEvents.foldl (fun s _ => s.irqLatch) s

theorem State.wokenBy_keepsPower (s : State) : KeepsWords powerWord (s.setFld PWR_STATUS 2 0 0) s.wokenBy := by
  have hevent (u : State) (e : Nat) : KeepsWords powerWord u (u.sysEvent e) := .of_eq rfl rfl rfl rfl rfl
  have hpins (u : State) (st : Stamp) : KeepsWords powerWord u (u.refreshPins st) :=
    .of_keepsSystem powerWord_besidePins (u.refreshPins_keepsSystem st)
  have hlatch (u : State) : KeepsWords powerWord u u.irqLatch :=
    u.irqLatch_keepsWords (fun i => by unfold powerWord CAUSE PWR_STATUS; omega) (fun i => by unfold powerWord IRQ_PEND PWR_STATUS; omega)
      (by unfold powerWord; decide)
  exact ((((hevent _ 3).trans (State.initialRoundStart_keepsPower _)).trans (State.mirrorPending_keepsPower _)).trans (hpins _ _)).trans
    (.foldl (fun u _ _ => hlatch u) _)

theorem State.wokenBy_shows (s : State) :
    s.wokenBy.mt = s.mt ∧ s.wokenBy.power.phase = s.power.phase ∧ s.wokenBy.power.heldHost = s.power.heldHost ∧
      s.wokenBy.fld PWR_STATUS 2 0 = 0 ∧ s.wokenBy.bit CALENG_CAL_STATUS 1 = true := by
  have hkeeps := s.wokenBy_keepsPower
  refine ⟨hkeeps.mt, hkeeps.phase, hkeeps.heldHost, ?_, ?_⟩
  · exact (congrArg (bitsOf · 2 0) (hkeeps.regs PWR_STATUS rfl)).trans (s.fld_setFld_self _ 2 0 0 (by decide))
  · have hround := ((s.setFld PWR_STATUS 2 0 0).sysEvent 3).initialRoundStart_leaves.2
    refine State.irqLatches_keepBit (by decide) (by decide) _ ?_
    refine (congrArg (bitOf · 1) ?_).trans hround
    exact ((State.refreshPins_keepsSystem _ _).regs _ (.inr (by decide))).trans ((State.mirrorPending_leaves _).reg _ (by decide))

/-- BCLK stands until its start is tried again. -/
def State.bclkStopped (s : State) : State := { s with start := some s.snap, power := { s.power with bclk := false } }

/-- BCLK starts in an even tick (R349). -/
theorem State.bclkStart_stopped {s : State} (h : s.power.heldHost = []) :
    s.bclkStopped.bclkStart.mt = s.mt ∧ s.bclkStopped.bclkStart.power.phase = s.power.phase ∧
      (∀ a, s.bclkStopped.bclkStart.reg a = s.reg a) ∧ s.bclkStopped.bclkStart.power.bclk = !s.mt.getLsbD 0 := by
  have hheld : s.bclkStopped.power.heldHost = [] := h
  have hmt : s.bclkStopped.mt = s.mt := rfl
  have hoff : s.bclkStopped.power.bclk = false := rfl
  unfold State.bclkStart
  rw [hheld, hmt, hoff]
  cases s.mt.getLsbD 0 with
  | true => exact ⟨rfl, rfl, fun _ => rfl, rfl⟩
  | false => exact ⟨rfl, rfl, fun _ => rfl, rfl⟩

/-- TCLK runs again. -/
def State.tclkRuns (s : State) : State := { s with power := { s.power with phase := .run } }

theorem State.napWakeComplete_eq {s : State} (h : s.power.phase = .waking) :
    s.napWakeComplete = s.tclkRuns.tickEnd.advance.wokenBy.bclkStopped.bclkStart := by
  unfold State.napWakeComplete
  rw [h]
  rfl

end Sys2Proof.Machine

namespace Sys2Proof.Proofs

open Sys2Proof.Machine Sys2Proof.Machine.Reg

theorem napWake_completes (s : State) (hphase : s.power.phase = .waking) (hheld : s.power.heldHost = []) (hlater : s.later = [])
    (hpairs : s.hg.pairs = none) :
    ∃ t, exec .napWakeComplete s = .next t ∧ t.power.phase = .run ∧ t.mt = s.mt + 1 ∧ t.fld PWR_STATUS 2 0 = 0 ∧
      t.bit CALENG_CAL_STATUS 1 = true ∧ t.power.bclk = !t.mt.getLsbD 0 := by
  have hend : s.tclkRuns.tickEnd.clock = s.tclkRuns.clock := State.tickEnd_clock hlater hpairs
  obtain ⟨hmtEnd, hphaseEnd, hheldEnd⟩ := State.clock_injects hend
  obtain ⟨hmt, hrun, hnone⟩ := State.advance_clock (hheldEnd.trans hheld)
  obtain ⟨hmtWoken, hphaseWoken, hheldWoken, hstatus, hround⟩ := s.tclkRuns.tickEnd.advance.wokenBy_shows
  obtain ⟨hmtLast, hphaseLast, hregs, hbclk⟩ := State.bclkStart_stopped (hheldWoken.trans hnone)
  refine ⟨_, congrArg Host.Outcome.next (State.napWakeComplete_eq hphase), ?_, ?_, ?_, ?_, ?_⟩
  · exact hphaseLast.trans (hphaseWoken.trans (hrun.trans hphaseEnd))
  · exact hmtLast.trans (hmtWoken.trans (hmt.trans (congrArg (· + 1) hmtEnd)))
  · exact (congrArg (bitsOf · 2 0) (hregs _)).trans hstatus
  · exact (congrArg (bitOf · 1) (hregs _)).trans hround
  · rw [hbclk, hmtLast]

/-- Settles O54: each request and each row of the clocks by what it does; the wake out of NAP passes a tick that leaves the clock's state. -/
theorem powerRequestsAreServed : Obligations.PowerRequestsAreServed := by
  unfold Obligations.PowerRequestsAreServed
  exact ⟨pwrReq_runDoze, pwrReq_refused, pwrReqNap_stops, pwrReqNap_endsEntry, pwrReqHibernate_again, pwrReqHibernate_begins, napWake_onDemand,
    napWake_completes, pwrEnFall_hibernates, hibAbort_resets, wakeN_wakes, gatingTick_notes, clusterGate_gates, clusterWake_begins,
    clusterWake_ends, rstCl_refused, rstCl_resets, clusterReset_ends⟩

end Sys2Proof.Proofs
end

section
/-!
PROOFS. The register rows of the channels (R24): a row holds a channel's register by its offset in the channel's block, and for the rows of a
pair by the channel's parity.
-/

namespace Sys2Proof.Machine

open Reg

/-- The repetitions of a channel's rows: one of each channel, four of each channel, and one of each even channel. -/
def channelDims : List (List (Nat × Nat)) :=
  [[(24, 0x100000), (16, 0x400)], [(24, 0x100000), (16, 0x400), (4, 0x4)], [(24, 0x100000), (8, 0x800)]]

/-- A row of the channel block. -/
def RegRow.inChannel (r : RegRow) : Bool := decide (r.dims ∈ channelDims) && decide (0x1000000 ≤ r.base) && decide (r.base ≤ 0x10003F0)

theorem chRows_inChannel : ∀ r ∈ chRows, r.inChannel = true := by decide

/-- Which registers of a channel block a row holds depends on the offset and the channel's parity. -/
theorem RegRow.hit_channel {r : RegRow} (hr : r.inChannel = true) {k o : Nat} (hk : k < 384) (ho : o < 0x400) :
    r.hit (CH_CTRL k + o) = r.hit (CH_CTRL (k % 2) + o) := by
  obtain ⟨base, dims, _, _, _, _, _⟩ := r
  simp only [RegRow.inChannel, channelDims, List.mem_cons, List.not_mem_nil, or_false, Bool.and_eq_true, decide_eq_true_eq] at hr
  obtain ⟨⟨hdims, hlow⟩, hhigh⟩ := hr
  unfold RegRow.hit CH_CTRL
  rcases hdims with rfl | rfl | rfl <;>
    (rw [Bool.eq_iff_iff]; simp only [dimsHit, Bool.and_eq_true, decide_eq_true_eq, beq_iff_eq]; omega)

theorem rowsAt_channel {k o : Nat} (ho : o < 0x400) : rowsAt (CH_CTRL k + o) = chRows := by
  have hcl : ¬CH_CTRL k + o < 0x1000000 := by unfold CH_CTRL; omega
  have hoff : (CH_CTRL k + o - 0x1000000) % 0x100000 < 0x4000 := by unfold CH_CTRL; omega
  rw [rowsAt, if_neg hcl]
  exact if_pos hoff

theorem regRow_channel {k o : Nat} (hk : k < 384) (ho : o < 0x400) : regRow (CH_CTRL k + o) = regRow (CH_CTRL (k % 2) + o) := by
  rw [regRow, regRow, rowsAt_channel ho, rowsAt_channel ho]
  exact List.find?_congr fun r hr => RegRow.hit_channel (chRows_inChannel r hr) hk ho

/-- A register that the first two channels have every channel has. -/
theorem regRow_channel_of {r : RegRow} {k o : Nat} (hk : k < 384) (ho : o < 0x400) (h : ∀ p < 2, regRow (CH_CTRL p + o) = some r) :
    regRow (CH_CTRL k + o) = some r := (regRow_channel hk ho).trans (h _ (Nat.mod_lt k (by decide)))

section
variable {k : Nat} (hk : k < 384)
include hk

theorem regRow_PERIOD : regRow (CH_CTRL k + 0x00C) = some ⟨0x100000c, [(24, 0x100000), (16, 0x400)], 0x0, 0xffffffff, 0x0, 0x0, 0x0⟩ :=
  regRow_channel_of hk (by decide) (by decide)

theorem regRow_COUNT : regRow (CH_CTRL k + 0x010) = some ⟨0x1000010, [(24, 0x100000), (16, 0x400)], 0x0, 0xffffffff, 0x0, 0x0, 0x0⟩ :=
  regRow_channel_of hk (by decide) (by decide)

theorem regRow_CMP_STATUS : regRow (CH_CTRL k + 0x034) = some ⟨0x1000034, [(24, 0x100000), (16, 0x400)], 0x0, 0x0, 0xfff, 0x0, 0x0⟩ :=
  regRow_channel_of hk (by decide) (by decide)

theorem regRow_CAP_RISE_LO : regRow (CH_CTRL k + 0x128) = some ⟨0x1000128, [(24, 0x100000), (16, 0x400)], 0x0, 0x0, 0x0, 0x0, 0x0⟩ :=
  regRow_channel_of hk (by decide) (by decide)

theorem regRow_CAP_RISE_HI : regRow (CH_CTRL k + 0x12C) = some ⟨0x100012c, [(24, 0x100000), (16, 0x400)], 0x0, 0x0, 0x0, 0x0, 0x0⟩ :=
  regRow_channel_of hk (by decide) (by decide)

end

end Sys2Proof.Machine
end

section
/-!
PROOFS. Reads of shafts, accumulators, trackers and identification by a thread (R241 to R243).
-/

namespace Sys2Proof.Machine

open Reg

/-! ### Frames of what the reads write -/

theorem State.g_setSt (s : State) (n t st i : Nat) : (s.setSt n t st).g n t i = s.g n t i :=
  s.reg_setSt_ne n t st (by unfold G TH_FLAGS; omega)

theorem State.gPair_setSt (s : State) (n t st i : Nat) : (s.setSt n t st).gPair n t i = s.gPair n t i := by
  rw [State.gPair, State.g_setSt, State.g_setSt, ← State.gPair]

theorem State.thSt_setThStamp (s : State) (n t : Nat) (v : Stamp) : (s.setThStamp n t v).thSt n t = s.thSt n t := by
  rw [State.thSt, State.fld, s.flags_setThStamp, ← State.fld, ← State.thSt]

section
variable {n t : Nat} {ds : List Nat} {r s : State}

theorem KciFrame.raise (h : KciFrame n t ds r s) {a : Nat} (i : Nat) (ha : FarFromThread n t a) : KciFrame n t ds r (s.raise a i) :=
  (h.setReg _ ha).same rfl fun _ => rfl

theorem KciFrame.noteSat (h : KciFrame n t ds r s) {k : Nat} (hk : k < 16) (b : Bool) : KciFrame n t ds r (s.noteSat k b) := by
  unfold State.noteSat
  split
  · exact h.raise 10 (far_of_below_clusters n t (by unfold SH_STATUS; omega))
  · exact h

end

/-! ### SHRD (R241) -/

theorem State.kShaft_lt (s : State) (n t : Nat) (w : Word) : s.kShaft n t w < 16 := by
  unfold State.kShaft
  split <;> exact bitsOf_lt _ _ _

/-- The registers that SHRD can write, from `d` on. -/
def fourFrom (d : Nat) : List Nat := [d, d + 1, d + 2, d + 3]

theorem State.shaftWords_frame {n t d : Nat} {r s : State} (hs : KciFrame n t (fourFrom d) r s) {h : Nat} (hh : h < 16) (fn : Nat) :
    KciFrame n t (fourFrom d) r (s.shaftWords n t h d fn) := by
  have hpair (v : BitVec 64) : KciFrame n t (fourFrom d) r (s.setGPair n t d v) := hs.setGPair v (by simp [fourFrom]) (by simp [fourFrom])
  have hone (v : Word) : KciFrame n t (fourFrom d) r (s.setG n t d v) := hs.setG v (by simp [fourFrom])
  unfold State.shaftWords
  dsimp only
  split
  · exact hpair _
  · exact (hpair _).noteSat hh _
  · exact (hpair _).noteSat hh _
  · exact hone _
  · exact hpair _
  · exact hone _
  · exact ((hpair _).setGPair _ (by simp [fourFrom]) (by simp [fourFrom])).noteSat hh _

theorem State.g_noteSat (s : State) {h : Nat} (b : Bool) (n t i : Nat) (hh : h < 16) : (s.noteSat h b).g n t i = s.g n t i :=
  s.reg_noteSat_ne b (by unfold G SH_STATUS; omega)

theorem State.gPair_noteSat (s : State) {h : Nat} (b : Bool) (n t i : Nat) (hh : h < 16) : (s.noteSat h b).gPair n t i = s.gPair n t i := by
  rw [State.gPair, s.g_noteSat b n t _ hh, s.g_noteSat b n t _ hh, ← State.gPair]

/-- What FN 0, 1, 2, 3 and 5 put into the registers. -/
theorem State.shaftWords_shows (s : State) (n t d : Nat) {h : Nat} (hh : h < 16) :
    (s.shaftWords n t h d 0).gPair n t d = s.shPos h ∧
      (s.shaftWords n t h d 1).gPair n t d = bvInt 64 (s.shMotion h).1 ∧
      (s.shaftWords n t h d 2).gPair n t d = bvInt 64 (s.shMotion h).2.1 ∧
      (s.shaftWords n t h d 3).g n t d = s.snapInfo h ∧
      (s.shaftWords n t h d 5).g n t d = s.reg (PRED_PERIOD h) :=
  ⟨s.gPair_setGPair n t d _, (State.gPair_noteSat _ _ n t d hh).trans (s.gPair_setGPair n t d _),
    (State.gPair_noteSat _ _ n t d hh).trans (s.gPair_setGPair n t d _), s.g_setG_self n t d _, s.g_setG_self n t d _⟩

theorem State.thStamp_noteSat (s : State) {h : Nat} (b : Bool) (n t : Nat) (hh : h < 16) : (s.noteSat h b).thStamp n t = s.thStamp n t :=
  State.thStamp_of_regs (s.reg_noteSat_ne b (by unfold TH_STAMP_LO SH_STATUS; omega)) (s.reg_noteSat_ne b (by unfold TH_STAMP_HI SH_STATUS; omega))

theorem State.thStamp_shaftWords (s : State) (n t d : Nat) {h : Nat} (hh : h < 16) (fn : Nat) :
    (s.shaftWords n t h d fn).thStamp n t = s.thStamp n t := by
  unfold State.shaftWords
  dsimp only
  split
  · exact s.thStamp_setGPair n t d _
  · exact (State.thStamp_noteSat _ _ n t hh).trans (s.thStamp_setGPair n t d _)
  · exact (State.thStamp_noteSat _ _ n t hh).trans (s.thStamp_setGPair n t d _)
  · exact s.thStamp_setG n t d _
  · exact s.thStamp_setGPair n t d _
  · exact s.thStamp_setG n t d _
  · exact (State.thStamp_noteSat _ _ n t hh).trans ((State.thStamp_setGPair _ n t _ _).trans (s.thStamp_setGPair n t d _))

section
variable (s : State) (n t : Nat) (w : Word)

/-- What a SHRD that reads its shaft leaves. -/
def State.shrdDone : State :=
  let u := ((s.kPaid n t).shaftWords n t (s.kShaft n t w) (kD w) (kFnI w)).setSt n t 0x0
  if bitOf w 5 then u.setThStamp n t u.now else u

theorem State.kEffect_shrd (h : s.kShaft n t w < s.fld ID_CLUSTER 31 24) :
    (s.kPaid n t).kEffect n t w .shrd = (s.shrdDone n t w, .next) := by
  simp only [State.kEffect, State.kShrd, State.kShaft_kPaid, State.fld_kPaid]
  exact if_neg (Nat.not_le.2 h)

theorem State.kEffect_shrd_beyond (h : s.fld ID_CLUSTER 31 24 ≤ s.kShaft n t w) :
    (s.kPaid n t).kEffect n t w .shrd = ((s.kPaid n t).setSt n t 0x4, .next) := by
  simp only [State.kEffect, State.kShrd, State.kShaft_kPaid, State.fld_kPaid]
  exact if_pos h

theorem State.shrdDone_frame : KciFrame n t (fourFrom (kD w)) s (s.shrdDone n t w) := by
  have hwords := (State.shaftWords_frame (s.kPaid_frame n t (fourFrom (kD w))) (s.kShaft_lt n t w) (kFnI w)).setSt 0x0
  exact .ite (hwords.setThStamp _) hwords

theorem State.gPair_shrdDone (i : Nat) :
    (s.shrdDone n t w).gPair n t i = ((s.kPaid n t).shaftWords n t (s.kShaft n t w) (kD w) (kFnI w)).gPair n t i := by
  unfold State.shrdDone
  dsimp only
  split
  · rw [State.gPair_setThStamp, State.gPair_setSt]
  · rw [State.gPair_setSt]

theorem State.g_shrdDone (i : Nat) :
    (s.shrdDone n t w).g n t i = ((s.kPaid n t).shaftWords n t (s.kShaft n t w) (kD w) (kFnI w)).g n t i := by
  unfold State.shrdDone
  dsimp only
  split
  · rw [State.g_setThStamp, State.g_setSt]
  · rw [State.g_setSt]

theorem State.thSt_shrdDone : (s.shrdDone n t w).thSt n t = 0 := by
  unfold State.shrdDone
  dsimp only
  split
  · rw [State.thSt_setThStamp, State.thSt_setSt _ n t (by decide)]
  · rw [State.thSt_setSt _ n t (by decide)]

theorem State.thStamp_shrdDone : (s.shrdDone n t w).thStamp n t = if w.getLsbD 5 = true then s.now else s.thStamp n t := by
  have hmt : (((s.kPaid n t).shaftWords n t (s.kShaft n t w) (kD w) (kFnI w)).setSt n t 0x0).mt = s.mt :=
    ((State.shaftWords_frame (s.kPaid_frame n t (fourFrom (kD w))) (s.kShaft_lt n t w) (kFnI w)).setSt 0x0).mt
  unfold State.shrdDone
  dsimp only
  rw [bitOf]
  split
  · rw [State.thStamp_setThStamp, State.now, hmt, State.now]
  · rw [State.thStamp_setSt, State.thStamp_shaftWords _ n t _ (s.kShaft_lt n t w), State.thStamp_kPaid]

/-! ### ACCRD (R242) -/

theorem State.accSeen_kPaid (k : Nat) (p : Tick → Bool) : (s.kPaid n t).accSeen k p = s.accSeen k p := rfl

/-- What ACCRD reads, in the registers, with status 0. -/
def State.accrdRead : State :=
  let v := s.accSeen (s.kIndex n t w (kA w)) (fun t => t == s.mt)
  (((s.kPaid n t).setG n t (kD w) (v.1.truncate 32)).setG n t (kD w + 1) (accHigh v)).setSt n t 0x0

/-- What an ACCRD leaves: with C the accumulator is cleared. -/
def State.accrdDone : State :=
  if w.getLsbD 12 then (s.accrdRead n t w).accClear (s.kIndex n t w (kA w)) (fun t => t == s.mt) else s.accrdRead n t w

theorem State.kIndex_lt (i : Nat) : s.kIndex n t w i < 64 := by
  unfold State.kIndex
  split <;> exact bitsOf_lt _ _ _

theorem State.kEffect_accrd (h : s.kIndex n t w (kA w) < s.fld ID_ANALOG 15 8) :
    (s.kPaid n t).kEffect n t w .accrd = (s.accrdDone n t w, .next) := by
  simp only [State.kEffect, State.kAccrd, State.kIndex_kPaid, State.fld_kPaid, State.accSeen_kPaid, State.kPaid_mt, testBit_kFnI_zero]
  exact if_neg (Nat.not_le.2 h)

theorem State.kEffect_beyond_analog {o : Kci} (ho : o = .accrd ∨ o = .mmrd)
    (h : (if o = .accrd then s.fld ID_ANALOG 15 8 else s.fld ID_ANALOG 7 0) ≤ s.kIndex n t w (kA w)) :
    (s.kPaid n t).kEffect n t w o = ((s.kPaid n t).setSt n t 0xB, .next) := by
  rcases ho with rfl | rfl
  · simp only [State.kEffect, State.kAccrd, State.kIndex_kPaid, State.fld_kPaid]
    exact if_pos h
  · simp only [State.kEffect, State.kMmrd, State.kIndex_kPaid, State.fld_kPaid]
    exact if_pos h

end

/-- Results, events and their ledger have no part in the machine time. -/
theorem State.mt_accSink (s : State) (k r : Nat) (alone : Bool) : (s.accSink k r alone).mt = s.mt := by
  have hadd : (s.accAdd k r alone).2.mt = s.mt := by
    unfold State.accAdd
    dsimp only
    split
    · rfl
    · split <;> rfl
  rw [← hadd]
  unfold State.accSink
  dsimp only
  split <;> rfl

theorem State.mt_forgetHit (s : State) (h : AccHit) : (s.forgetHit h).mt = s.mt := by
  unfold State.forgetHit
  cases h.ovw <;> cases h.sat <;> cases h.alone <;> rfl

theorem State.mt_accClear (s : State) (k : Nat) (p : Tick → Bool) : (s.accClear k p).mt = s.mt := by
  have hsinks (hits : List AccHit) (u : State) : (hits.foldl (fun s (h : AccHit) => s.accSink k h.r h.alone) u).mt = u.mt := by
    induction hits generalizing u with
    | nil => rfl
    | cons h hits ih => exact (ih _).trans (u.mt_accSink k h.r h.alone)
  have hforget (hits : List AccHit) (u : State) : (hits.foldl State.forgetHit u).mt = u.mt := by
    induction hits generalizing u with
    | nil => rfl
    | cons h hits ih => exact (ih _).trans (u.mt_forgetHit h)
  have hemptied : (s.accEmptied k p).mt = s.mt := by
    have hgone : (if (s.accWindow k p).isEmpty then s else s.accForget k p (s.accWindow k p)).mt = s.mt := by
      split
      · rfl
      · exact hforget _ _
    exact hgone
  rw [State.accClear_eq]
  exact (hsinks _ _).trans hemptied

section
variable (s : State) (n t : Nat) (w : Word)

theorem State.accrdRead_frame : KciFrame n t [kD w, kD w + 1] s (s.accrdRead n t w) :=
  (((s.kPaid_frame n t _).setG _ (by simp)).setG _ (by simp)).setSt 0x0

theorem State.reg_accrdDone {a : Nat} (ha : 0x1000000 ≤ a) : (s.accrdDone n t w).reg a = (s.accrdRead n t w).reg a := by
  unfold State.accrdDone
  split
  · have hk := s.kIndex_lt n t w (kA w)
    exact State.reg_accClear_ne _ _ (by unfold ACC_STATUS; omega) (by unfold ACC_OVW_CNT; omega)
  · rfl

theorem State.accrdDone_frame : KciFrame n t [kD w, kD w + 1] s (s.accrdDone n t w) := by
  have hread := s.accrdRead_frame n t w
  refine hread.trans ⟨?_, s.reg_accrdDone n t w ?_, s.reg_accrdDone n t w ?_, s.reg_accrdDone n t w ?_, fun i _ _ => s.reg_accrdDone n t w ?_⟩
  · unfold State.accrdDone
    split
    · exact State.mt_accClear _ _ _
    · rfl
  · unfold CL_STATUS; omega
  · unfold TH_STATUS; omega
  · unfold TH_PC; omega
  · unfold G; omega

theorem State.accrdDone_shows :
    (s.accrdDone n t w).thSt n t = 0 ∧
      (s.accrdDone n t w).g n t (kD w) = (s.accSeen (s.kIndex n t w (kA w)) (fun t => t == s.mt)).1.truncate 32 ∧
      (s.accrdDone n t w).g n t (kD w + 1) = accHigh (s.accSeen (s.kIndex n t w (kA w)) (fun t => t == s.mt)) := by
  refine ⟨?_, ?_, ?_⟩
  · rw [State.thSt, State.fld, s.reg_accrdDone n t w (by unfold TH_FLAGS; omega), ← State.fld, ← State.thSt]
    exact State.thSt_setSt _ n t (by decide)
  · refine (s.reg_accrdDone n t w (by unfold G; omega)).trans ?_
    exact (State.g_setSt _ n t _ _).trans ((State.g_setG_ne _ n t _ (by omega)).trans (State.g_setG_self _ n t _ _))
  · refine (s.reg_accrdDone n t w (by unfold G; omega)).trans ?_
    exact (State.g_setSt _ n t _ _).trans (State.g_setG_self _ n t _ _)

/-- The count is above the sum's upper byte (R281). -/
theorem accHigh_toNat (v : BitVec 40 × BitVec 24) : (accHigh v).toNat = v.2.toNat * 256 + v.1.toNat / 2 ^ 32 := by
  rw [accHigh, BitVec.toNat_append, ← Nat.shiftLeft_add_eq_or_of_lt (BitVec.isLt _), Nat.shiftLeft_eq, BitVec.truncate_eq_setWidth,
    BitVec.toNat_setWidth, BitVec.toNat_ushiftRight, Nat.shiftRight_eq_div_pow]
  have h := v.1.isLt
  omega

theorem State.adc_setG (d : Nat) (v : Word) : (s.setG n t d v).adc = s.adc := by rw [State.setG, State.setRw_frame]

theorem State.adc_setSt (st : Nat) : (s.setSt n t st).adc = s.adc := by rw [State.setSt, State.setRw_frame]

theorem State.adc_accrdRead : (s.accrdRead n t w).adc = s.adc := by
  rw [State.accrdRead, State.adc_setSt, State.adc_setG, State.adc_setG]
  rfl

theorem State.reg_accrdRead_below {a : Nat} (h : a < 0x1000000) : (s.accrdRead n t w).reg a = s.reg a := by
  rw [State.accrdRead, State.reg_setSt_below _ _ _ _ h, State.reg_setG_ne _ _ _ _ _ (by unfold G; omega),
    State.reg_setG_ne _ _ _ _ _ (by unfold G; omega), State.reg_kPaid]

theorem State.accum_accrdRead (k : Nat) : (s.accrdRead n t w).accum k = s.accum k := by
  rw [State.accum, s.adc_accrdRead, State.accum]

theorem State.accValue_accrdRead {k : Nat} (hk : k < 64) : (s.accrdRead n t w).accValue k = s.accValue k := by
  rw [State.accValue, s.accum_accrdRead, State.accLength, State.fld, s.reg_accrdRead_below n t w (by unfold ACC_CFG; omega)]
  rfl

/-- A plain read leaves the accumulator; a clearing one with no result in its tick leaves it empty. -/
theorem State.accValue_accrdDone :
    (w.getLsbD 12 = false → (s.accrdDone n t w).accValue (s.kIndex n t w (kA w)) = s.accValue (s.kIndex n t w (kA w))) ∧
      (w.getLsbD 12 = true → s.accWindow (s.kIndex n t w (kA w)) (fun t => t == s.mt) = [] →
        (s.accrdDone n t w).accValue (s.kIndex n t w (kA w)) = (0, 0)) := by
  refine ⟨fun hw => ?_, fun hw hwin => ?_⟩
  · rw [State.accrdDone, if_neg (by rw [hw]; exact Bool.false_ne_true), s.accValue_accrdRead n t w (s.kIndex_lt n t w _)]
  · rw [State.accrdDone, if_pos hw]
    refine (State.accClear_of_empty ?_).1
    rw [State.accWindow, s.accum_accrdRead]
    exact hwin

/-! ### MMRD and SYSRD (R243) -/

theorem State.mmSeen_kPaid (k : Nat) (p : Tick → Bool) : (s.kPaid n t).mmSeen k p = s.mmSeen k p := rfl

/-- What MMRD reads, in its register, with status 0. -/
def State.mmrdRead : State :=
  ((s.kPaid n t).setG n t (kD w) (s.mmSeen (s.kIndex n t w (kA w)) fun t => t == s.mt)).setSt n t 0x0

/-- What an MMRD leaves: with C the tracker restarts with the results of the tick. -/
def State.mmrdDone : State :=
  if w.getLsbD 12 then ((s.mmrdRead n t w).mmReset (s.kIndex n t w (kA w)) fun t => t == s.mt).2 else s.mmrdRead n t w

theorem State.kEffect_mmrd (h : s.kIndex n t w (kA w) < s.fld ID_ANALOG 7 0) :
    (s.kPaid n t).kEffect n t w .mmrd = (s.mmrdDone n t w, .next) := by
  simp only [State.kEffect, State.kMmrd, State.kIndex_kPaid, State.fld_kPaid, State.mmSeen_kPaid, State.kPaid_mt, testBit_kFnI_zero]
  exact if_neg (Nat.not_le.2 h)

theorem State.mmWindow_mmrdRead (k : Nat) (p : Tick → Bool) : (s.mmrdRead n t w).mmWindow k p = s.mmWindow k p := by
  rw [State.mmWindow, State.mmHits, State.mmrdRead, State.adc_setSt, State.adc_setG]
  rfl

theorem State.mmReset_writes (k : Nat) (p : Tick → Bool) :
    (s.mmReset k p).2.reg (MM_RD k) = (s.mmWindow k p).foldl (fun w h => mmWith w h.r) 0x0000FFFF#32 ∧
      (∀ a, a ≠ MM_RD k → (s.mmReset k p).2.reg a = s.reg a) ∧ (s.mmReset k p).2.mt = s.mt :=
  ⟨s.reg_setReg_self _ _, fun _ h => s.reg_setReg_ne _ h, rfl⟩

theorem State.reg_mmrdDone {a : Nat} (ha : a ≠ MM_RD (s.kIndex n t w (kA w))) :
    (s.mmrdDone n t w).reg a = (s.mmrdRead n t w).reg a := by
  unfold State.mmrdDone
  split
  · exact (State.mmReset_writes _ _ _).2.1 a ha
  · rfl

theorem State.mmrdRead_frame : KciFrame n t [kD w] s (s.mmrdRead n t w) := ((s.kPaid_frame n t _).setG _ (by simp)).setSt 0x0

theorem State.mmrdDone_frame : KciFrame n t [kD w] s (s.mmrdDone n t w) := by
  have hk := s.kIndex_lt n t w (kA w)
  have hread := s.mmrdRead_frame n t w
  refine hread.trans ⟨?_, s.reg_mmrdDone n t w ?_, s.reg_mmrdDone n t w ?_, s.reg_mmrdDone n t w ?_, fun i _ _ => s.reg_mmrdDone n t w ?_⟩
  · unfold State.mmrdDone
    split
    · exact (State.mmReset_writes _ _ _).2.2
    · rfl
  · unfold CL_STATUS MM_RD; omega
  · unfold TH_STATUS MM_RD; omega
  · unfold TH_PC MM_RD; omega
  · unfold G MM_RD; omega

theorem State.mmrdDone_shows :
    (s.mmrdDone n t w).thSt n t = 0 ∧
      (s.mmrdDone n t w).g n t (kD w) = s.mmSeen (s.kIndex n t w (kA w)) (fun t => t == s.mt) ∧
      (s.mmrdDone n t w).reg (MM_RD (s.kIndex n t w (kA w))) =
        (if w.getLsbD 12 = true then (s.mmWindow (s.kIndex n t w (kA w)) fun t => t == s.mt).foldl (fun w h => mmWith w h.r) 0x0000FFFF#32
         else s.reg (MM_RD (s.kIndex n t w (kA w)))) := by
  have hk := s.kIndex_lt n t w (kA w)
  refine ⟨?_, ?_, ?_⟩
  · rw [State.thSt, State.fld, s.reg_mmrdDone n t w (by unfold TH_FLAGS MM_RD; omega), ← State.fld, ← State.thSt]
    exact State.thSt_setSt _ n t (by decide)
  · refine (s.reg_mmrdDone n t w (by unfold G MM_RD; omega)).trans ?_
    exact (State.g_setSt _ n t _ _).trans (State.g_setG_self _ n t _ _)
  · unfold State.mmrdDone
    split
    · rw [(State.mmReset_writes _ _ _).1, s.mmWindow_mmrdRead n t w]
    · rw [State.mmrdRead, State.reg_setSt_below _ _ _ _ (by unfold MM_RD; omega), State.reg_setG_ne _ _ _ _ _ (by unfold G MM_RD; omega),
        State.reg_kPaid]

/-- What SYSRD reads: the number of the cluster and of the thread, or a register as it stood before the tick. -/
def State.sysrdWord : Word :=
  if kFnI w = 1 then BitVec.ofNat 32 (n * 256 + t) else (s.kPaid n t).beforeTick (4 * kImm w) ((s.kPaid n t).busView (4 * kImm w))

theorem State.kEffect_sysrd : (s.kPaid n t).kEffect n t w .sysrd = ((s.kPaid n t).setG n t (kD w) (s.sysrdWord n t w), .next) := rfl

theorem State.sysrdWord_shows (hn : n < 24) (ht : t < 16) :
    (kFnI w = 1 → (s.sysrdWord n t w).toNat = n * 256 + t) ∧
      (kFnI w = 0 → kImm w = 0 → s.sysrdWord n t w = s.beforeTick ID_PART (s.reg ID_PART)) := by
  refine ⟨fun h => ?_, fun h hi => ?_⟩
  · rw [State.sysrdWord, if_pos h, BitVec.toNat_ofNat]
    omega
  · rw [State.sysrdWord, if_neg (by omega), hi]
    exact congrArg (s.beforeTick ID_PART) (State.busView_ID_PART _)

end

end Sys2Proof.Machine
end

section
/-!
PROOFS. Reads of channel registers by a thread, and flags that it clears (R236 to R238, R7).
-/

namespace Sys2Proof.Machine

open Reg

/-! ### The channel of an instruction and its registers (R24, R236) -/

theorem kOffset_lt (w : Word) : 4 * kWoff w < 0x200 := by
  have h : kWoff w < 2 ^ 7 := bitsOf_lt w 11 5
  omega

theorem State.kChannel_div (s : State) (n t : Nat) (w : Word) : s.kChannel n t w / 16 = n := by
  have hb : s.fld (TH_BIND n t) 3 0 < 2 ^ 4 := bitsOf_lt _ 3 0
  have hc : kCh w < 2 ^ 4 := bitsOf_lt w 16 13
  unfold State.kChannel
  split <;> omega

theorem State.kChannel_lt (s : State) (n : Fin 24) (t : Nat) (w : Word) : s.kChannel n t w < 384 := by
  have h := s.kChannel_div n t w
  omega

theorem State.kChannel_kPaid (s : State) (n t : Nat) (w : Word) : (s.kPaid n t).kChannel n t w = s.kChannel n t w := by
  rw [State.kChannel, State.fld_kPaid, State.kChannel]

/-- No register of a thread is one of a channel. -/
theorem chanAddr_far {n t k o : Nat} (ht : t < 16) (ho : o < 0x400) : FarFromThread n t (chanAddr k o) := by
  refine ⟨?_, ?_, ?_, fun i hi => ?_⟩ <;> unfold chanAddr CH_CTRL
  · unfold CL_STATUS; omega
  · unfold TH_STATUS; omega
  · unfold TH_PC; omega
  · unfold G; omega

theorem chanAddr_ne_TH_FLAGS {n t k o : Nat} (ht : t < 16) (ho : o < 0x400) : TH_FLAGS n t ≠ chanAddr k o := by
  unfold chanAddr CH_CTRL TH_FLAGS
  omega

/-! ### What hardware did in the tick of an access (R7) -/

/-- A word as it stood before the tick depends on what hardware did in the tick alone. -/
theorem State.beforeTick_inTick (s : State) (a : Nat) (w : Word) :
    s.beforeTick a w = (s.raised.filter (fun (u : HwSet) => u.tick == s.mt)).foldl (fun w (u : HwSet) =>
      if u.addr = a ∧ u.tick = s.mt ∧ u.fresh = true then
        (if u.bit < 32 then putBit w u.bit false else if u.bit = 32 then w - 1 else w)
      else w) w := by
  rw [State.beforeTick, List.foldl_filter]
  congr 1
  funext v u
  by_cases h : u.tick = s.mt
  · rw [if_pos (beq_iff_eq.2 h)]
  · rw [if_neg (fun hb => h (beq_iff_eq.1 hb)), if_neg (fun hc => h hc.2.1)]

/-- The same things happened in the tick. -/
def State.sameTick (s t : State) : Prop :=
  t.mt = s.mt ∧ t.raised.filter (fun (u : HwSet) => u.tick == s.mt) = s.raised.filter (fun (u : HwSet) => u.tick == s.mt)

theorem State.beforeTick_sameTick {s t : State} (h : s.sameTick t) (a : Nat) (w : Word) : t.beforeTick a w = s.beforeTick a w := by
  rw [State.beforeTick_inTick, State.beforeTick_inTick, h.1, h.2]

theorem State.inTick_keptBits_sameTick {s t : State} (h : s.sameTick t) (a : Nat) : t.inTick.keptBits a = s.inTick.keptBits a := by
  unfold State.keptBits State.inTick
  dsimp only
  rw [h.1, h.2]

/-- An access leaves what hardware did in other ticks. -/
theorem State.kciAccess_sameTick (s : State) (f : State → State) (hmt : (f s.inTick).mt = s.mt) (hr : (f s.inTick).raised = s.inTick.raised) :
    s.sameTick (s.kciAccess f) := by
  refine ⟨hmt, ?_⟩
  have hself : s.inTick.raised = s.raised.filter (fun (u : HwSet) => u.tick == s.mt) := rfl
  have hraised : (s.kciAccess f).raised = s.inTick.raised ++ s.raised.filter (fun (u : HwSet) => u.tick != s.mt) := by rw [← hr]; rfl
  rw [hraised, hself, List.filter_append, List.filter_filter, List.filter_filter]
  simp [bne]

theorem State.inTick_shows (s : State) : s.inTick.mt = s.mt ∧ s.inTick.regs = s.regs ∧ s.inTick.chans = s.chans := ⟨rfl, rfl, rfl⟩

theorem State.kciAccess_shows (s : State) (f : State → State) :
    (s.kciAccess f).mt = (f s.inTick).mt ∧ (s.kciAccess f).regs = (f s.inTick).regs ∧ (s.kciAccess f).chans = (f s.inTick).chans := ⟨rfl, rfl, rfl⟩

/-- An access that leaves the state. -/
theorem State.kciAccess_of_eq (s : State) {f : State → State} (h : f s.inTick = s.inTick) :
    s.sameTick (s.kciAccess f) ∧ (s.kciAccess f).regs = s.regs ∧ (s.kciAccess f).chans = s.chans := by
  obtain ⟨hmt, hregs, hchans⟩ := s.inTick_shows
  obtain ⟨-, hregs', hchans'⟩ := s.kciAccess_shows f
  rw [h] at hregs' hchans'
  exact ⟨s.kciAccess_sameTick f (by rw [h, hmt]) (by rw [h]), hregs'.trans hregs, hchans'.trans hchans⟩

/-! ### Reads of channel registers (R236) -/

theorem State.reg_kciAccess (s : State) (f : State → State) (a : Nat) : (s.kciAccess f).reg a = (f s.inTick).reg a := rfl

theorem State.rcClear_mt (s : State) (a : Nat) : (s.rcClear a).mt = s.mt := by
  unfold State.rcClear
  split <;> rfl

theorem State.kciAccess_rcClear (s : State) (a : Nat) :
    (s.kciAccess fun s => s.rcClear a).mt = s.mt ∧ ∀ b, b ≠ a → (s.kciAccess fun s => s.rcClear a).reg b = s.reg b := by
  refine ⟨?_, fun b hb => ?_⟩
  · exact (s.kciAccess_shows _).1.trans (State.rcClear_mt s.inTick a)
  · exact (s.reg_kciAccess _ b).trans (State.reg_rcClear_ne s.inTick hb)

section
variable (s : State) {n t k o : Nat}

theorem State.chanRead_kPaid : ((s.kPaid n t).chanRead k o).1 = (s.chanRead k o).1 := by
  have hlive : (s.kPaid n t).chanLive k o = s.chanLive k o := by
    unfold State.chanLive
    split <;> rfl
  have hbefore (v : Word) : (s.kPaid n t).beforeTick (chanAddr k o) v = s.beforeTick (chanAddr k o) v := rfl
  rw [State.chanRead, State.chanRead, hlive, hbefore]

theorem State.chanRead_leaves : (s.chanRead k o).2 = s.kciAccess fun s => s.rcClear (chanAddr k o) := rfl

theorem State.reg_chanRead_ne {a : Nat} (h : a ≠ chanAddr k o) : (s.chanRead k o).2.reg a = s.reg a := by
  rw [State.chanRead_leaves]
  exact (s.kciAccess_rcClear _).2 a h

theorem State.chanRead_mt : (s.chanRead k o).2.mt = s.mt := by
  rw [State.chanRead_leaves]
  exact (s.kciAccess_rcClear _).1

theorem State.chanRead_frame {ds : List Nat} {r : State} (h : KciFrame n t ds r s) (ht : t < 16) (ho : o < 0x400) :
    KciFrame n t ds r (s.chanRead k o).2 := by
  have hfar := chanAddr_far (n := n) (k := k) ht ho
  exact h.trans ⟨s.chanRead_mt, s.reg_chanRead_ne hfar.status.symm, s.reg_chanRead_ne hfar.thStatus.symm, s.reg_chanRead_ne hfar.pc.symm,
    fun i hi _ => s.reg_chanRead_ne (hfar.g i hi).symm⟩

/-- The read of a register without an RC field leaves the state but for the order in which it knows what hardware did. -/
theorem State.chanRead_plain (h : rcMask (chanAddr k o) = 0) :
    s.sameTick (s.chanRead k o).2 ∧ (s.chanRead k o).2.regs = s.regs ∧ (s.chanRead k o).2.chans = s.chans := by
  rw [State.chanRead_leaves]
  exact s.kciAccess_of_eq (if_pos h)

end

/-! ### CHRD and CHSTAT (R236, R238) -/

section
variable (s : State) (n t : Nat) (w : Word)

/-- What CHRD of an assigned register leaves. -/
def State.chrdDone : State :=
  ((s.kPaid n t).chanRead (s.kChannel n t w) (4 * kWoff w)).2.setG n t (kD w) (s.chanRead (s.kChannel n t w) (4 * kWoff w)).1

theorem State.kEffect_chrd (h : chanAssigned (s.kChannel n t w) (4 * kWoff w) = true) :
    (s.kPaid n t).kEffect n t w .chrd = (s.chrdDone n t w, .next) := by
  simp only [State.kEffect, State.kChrd, State.kChannel_kPaid]
  rw [if_pos h, State.chanRead_kPaid]
  rfl

theorem State.kEffect_chan_unassigned {o : Kci} (ho : o = .chrd ∨ o = .chstat) (h : chanAssigned (s.kChannel n t w) (4 * kWoff w) = false) :
    (s.kPaid n t).kEffect n t w o = (((s.kPaid n t).setG n t (kD w) 0).setSt n t 0xB, .next) := by
  rcases ho with rfl | rfl
  · simp only [State.kEffect, State.kChrd, State.kChannel_kPaid]
    exact if_neg (by rw [h]; exact Bool.false_ne_true)
  · simp only [State.kEffect, State.kChstat, State.kChannel_kPaid]
    exact if_neg (by rw [h]; exact Bool.false_ne_true)

variable {t} in
theorem State.chrdDone_frame (ht : t < 16) : KciFrame n t [kD w] s (s.chrdDone n t w) :=
  (State.chanRead_frame _ (s.kPaid_frame n t _) ht (Nat.lt_trans (kOffset_lt w) (by decide))).setG _ (by simp)

variable {t} in
theorem State.flags_chrdDone (ht : t < 16) : (s.chrdDone n t w).reg (TH_FLAGS n t) = s.reg (TH_FLAGS n t) := by
  rw [State.chrdDone, State.flags_setG, State.reg_chanRead_ne _ (chanAddr_ne_TH_FLAGS ht (Nat.lt_trans (kOffset_lt w) (by decide))),
    State.reg_kPaid]

theorem State.g_chrdDone : (s.chrdDone n t w).g n t (kD w) = (s.chanRead (s.kChannel n t w) (4 * kWoff w)).1 := State.g_setG_self _ n t _ _

/-! ### CHRD64 (R237) -/

/-- Both counts of a pair, with status 0. -/
def State.pairRead : State :=
  (((s.kPaid n t).setG n t (kD w) (s.reg (COUNT (s.kChannel n t w)))).setG n t (kD w + 1) (s.reg (COUNT (s.kChannel n t w + 1)))).setSt n t 0x0

theorem State.kEffect_chrd64_pair (hsub : kSub w = 1) (heven : s.kChannel n t w % 2 = 0) :
    (s.kPaid n t).kEffect n t w .chrd64 = (s.pairRead n t w, .next) := by
  simp only [State.kEffect, State.kChrd64, State.kChannel_kPaid, State.reg_kPaid]
  rw [if_pos hsub, if_neg (by omega)]
  rfl

theorem State.kEffect_chrd64_odd (hsub : kSub w = 1) (hodd : s.kChannel n t w % 2 = 1) :
    (s.kPaid n t).kEffect n t w .chrd64 = ((s.kPaid n t).setSt n t 0xB, .next) := by
  simp only [State.kEffect, State.kChrd64, State.kChannel_kPaid]
  rw [if_pos hsub, if_pos hodd]

theorem State.pairRead_frame : KciFrame n t [kD w, kD w + 1] s (s.pairRead n t w) :=
  (((s.kPaid_frame n t _).setG _ (by simp)).setG _ (by simp)).setSt 0x0

theorem State.pairRead_shows :
    (s.pairRead n t w).g n t (kD w) = s.reg (COUNT (s.kChannel n t w)) ∧
      (s.pairRead n t w).g n t (kD w + 1) = s.reg (COUNT (s.kChannel n t w + 1)) ∧ (s.pairRead n t w).thSt n t = 0 :=
  ⟨(State.g_setSt _ n t _ _).trans ((State.g_setG_ne _ n t _ (by omega)).trans (State.g_setG_self _ n t _ _)),
    (State.g_setSt _ n t _ _).trans (State.g_setG_self _ n t _ _), State.thSt_setSt _ n t (by decide)⟩

/-- The state between the two reads of a CHRD64 of CAP_RISE. -/
def State.riseRead : State := ((s.kPaid n t).chanRead (s.kChannel n t w) 0x128).2

/-- Both words of CAP_RISE, with status 0. -/
def State.capRead : State :=
  ((((s.riseRead n t w).chanRead (s.kChannel n t w) 0x12C).2.setG n t (kD w) ((s.kPaid n t).chanRead (s.kChannel n t w) 0x128).1).setG n t
    (kD w + 1) ((s.riseRead n t w).chanRead (s.kChannel n t w) 0x12C).1).setSt n t 0x0

end

section
variable (s : State) {n : Fin 24} {t : Nat} {w : Word}

theorem chanAssigned_of_row {k o : Nat} {r : RegRow} (h : regRow (CH_CTRL k + o) = some r) : chanAssigned k o = true := by
  rw [chanAssigned, chanAddr, h]
  rfl

theorem woMask_of_row {a : Nat} {r : RegRow} (h : regRow a = some r) (hwo : r.wo = 0) : woMask a = 0 := by
  rw [woMask, h]
  exact congrArg (BitVec.ofNat 32) hwo

theorem rcMask_of_row {a : Nat} {r : RegRow} (h : regRow a = some r) (hrc : r.rc = 0) : rcMask a = 0 := by
  rw [rcMask, h]
  exact congrArg (BitVec.ofNat 32) hrc

/-- The read of a register without write-only bits. -/
theorem State.chanRead_word {k o : Nat} (h : woMask (chanAddr k o) = 0) :
    (s.chanRead k o).1 = s.beforeTick (chanAddr k o) (s.chanLive k o) := by
  rw [State.chanRead, h]
  exact BitVec.and_allOnes

theorem State.kEffect_chrd64_rise (hsub : kSub w = 0) (ho : 4 * kWoff w = 0x128) :
    (s.kPaid n t).kEffect n t w .chrd64 = (s.capRead n t w, .next) := by
  have hk := s.kChannel_lt n t w
  have hlo := chanAssigned_of_row (regRow_CAP_RISE_LO hk)
  have hhi := chanAssigned_of_row (regRow_CAP_RISE_HI hk)
  simp only [State.kEffect, State.kChrd64, State.kChannel_kPaid, ho]
  rw [if_neg (by omega)]
  simp only [hlo, hhi, if_true, Bool.and_self, Nat.reduceAdd]
  rfl

theorem State.riseRead_shows :
    s.sameTick (s.riseRead n t w) ∧ (s.riseRead n t w).regs = s.regs ∧ (s.riseRead n t w).chans = s.chans :=
  (s.kPaid n t).chanRead_plain (rcMask_of_row (regRow_CAP_RISE_LO (s.kChannel_lt n t w)) rfl)

theorem State.capRead_frame (ht : t < 16) : KciFrame n t [kD w, kD w + 1] s (s.capRead n t w) :=
  ((((s.riseRead n t w).chanRead_frame (State.chanRead_frame _ (s.kPaid_frame n t _) ht (by decide)) ht (by decide)).setG _
    (by simp)).setG _ (by simp)).setSt 0x0

theorem State.capRead_shows :
    (s.capRead n t w).thSt n t = 0 ∧
      (s.capRead n t w).g n t (kD w) = s.beforeTick (CAP_RISE_LO (s.kChannel n t w)) (loWord (s.chan (s.kChannel n t w)).capRise) ∧
      (s.capRead n t w).g n t (kD w + 1) = s.beforeTick (CAP_RISE_HI (s.kChannel n t w)) (hiWord (s.chan (s.kChannel n t w)).capRise) := by
  have hk := s.kChannel_lt n t w
  have hlo : chanAddr (s.kChannel n t w) 0x128 = CAP_RISE_LO (s.kChannel n t w) := by unfold chanAddr CH_CTRL CAP_RISE_LO; omega
  have hhi : chanAddr (s.kChannel n t w) 0x12C = CAP_RISE_HI (s.kChannel n t w) := by unfold chanAddr CH_CTRL CAP_RISE_HI; omega
  obtain ⟨htick, -, hchans⟩ := s.riseRead_shows (n := n) (t := t) (w := w)
  refine ⟨State.thSt_setSt _ n t (by decide), ?_, ?_⟩
  · refine (State.g_setSt _ n t _ _).trans ((State.g_setG_ne _ n t _ (by omega)).trans ((State.g_setG_self _ n t _ _).trans ?_))
    rw [State.chanRead_word _ (woMask_of_row (regRow_CAP_RISE_LO hk) rfl), hlo]
    rfl
  · refine (State.g_setSt _ n t _ _).trans ((State.g_setG_self _ n t _ _).trans ?_)
    rw [State.chanRead_word _ (woMask_of_row (regRow_CAP_RISE_HI hk) rfl), hhi, State.beforeTick_sameTick htick]
    refine congrArg (s.beforeTick _) ?_
    show hiWord ((s.riseRead n t w).chan (s.kChannel n t w)).capRise = _
    rw [State.chan, hchans, State.chan]

end

/-! ### CHSTAT of CMP_STATUS (R238) -/

/-- A write of flags by a thread clears those that hardware has not set in the tick. -/
theorem State.kciAccess_flagWrite (s : State) {a : Nat} (v : Word) {r : RegRow} (h : regRow a = some r) :
    (s.kciAccess fun s => (s.noteWrote a).flagWrite a v).reg a =
        s.reg a &&& ~~~ (v &&& BitVec.ofNat 32 r.w1c &&& ~~~ s.inTick.keptBits a) ∧
      (∀ b, b ≠ a → (s.kciAccess fun s => (s.noteWrote a).flagWrite a v).reg b = s.reg b) ∧
      (s.kciAccess fun s => (s.noteWrote a).flagWrite a v).mt = s.mt := by
  have hwrite (u : State) : u.flagWrite a v = u.setReg a (u.reg a &&& ~~~ (v &&& BitVec.ofNat 32 r.w1c &&& ~~~ u.keptBits a)) := by
    rw [State.flagWrite, h]
  refine ⟨?_, fun b hb => ?_, ?_⟩
  · refine (s.reg_kciAccess _ a).trans ?_
    rw [hwrite, State.reg_setReg_self]
    rfl
  · refine (s.reg_kciAccess _ b).trans ?_
    rw [hwrite]
    exact State.reg_setReg_ne _ _ hb
  · refine (s.kciAccess_shows _).1.trans ?_
    rw [hwrite]
    rfl

theorem State.wroteNow_setRw (s : State) {b : Nat} (v : Word) (hb : SWAP_STATUS ≠ b) (a : Nat) : (s.setRw b v).wroteNow a = s.wroteNow a :=
  State.wroteNow_of_eq (s.reg_setRw_ne v hb) rfl rfl rfl rfl

theorem State.wroteNow_setG (s : State) (n t d : Nat) (v : Word) (a : Nat) : (s.setG n t d v).wroteNow a = s.wroteNow a :=
  s.wroteNow_setRw v (by unfold SWAP_STATUS G; omega) a

theorem State.kciAccess_shape (s : State) {f : State → State} (h : f s.inTick = s.inTick) : ∃ ra, s.kciAccess f = { s with raised := ra } := by
  unfold State.kciAccess
  rw [h]
  exact ⟨_, rfl⟩

theorem State.kciAccess_rcClear_shape (s : State) {a : Nat} (h : rcMask a = 0) :
    ∃ ra, (s.kciAccess fun s => s.rcClear a) = { s with raised := ra } := s.kciAccess_shape (if_pos h)

theorem State.wroteNow_raised (s : State) (ra : List HwSet) (a : Nat) : ({ s with raised := ra } : State).wroteNow a = s.wroteNow a := rfl

theorem State.wroteNow_chanRead (s : State) {k o : Nat} (h : rcMask (chanAddr k o) = 0) (a : Nat) :
    (s.chanRead k o).2.wroteNow a = s.wroteNow a := by
  obtain ⟨ra, hshape⟩ := s.kciAccess_rcClear_shape h
  rw [State.chanRead_leaves, hshape, State.wroteNow_raised]

theorem State.sameTick_setRw {s u : State} (h : s.sameTick u) (a : Nat) (v : Word) : s.sameTick (u.setRw a v) := h

theorem State.sameTick_setG {s u : State} (h : s.sameTick u) (n t d : Nat) (v : Word) : s.sameTick (u.setG n t d v) :=
  State.sameTick_setRw h (G n t d) v

theorem State.sameTick_of_kPaid {s u : State} {n t : Nat} (h : (s.kPaid n t).sameTick u) : s.sameTick u := h

section
variable (s : State) {n : Fin 24} {t : Nat} {w : Word}

/-- What CHSTAT leaves before it clears flags: the flags in the register. -/
def State.statRead (n t : Nat) (w : Word) : State :=
  ((s.kPaid n t).chanRead (s.kChannel n t w) 0x034).2.setG n t (kD w) ((s.kPaid n t).chanRead (s.kChannel n t w) 0x034).1

/-- What CHSTAT of CMP_STATUS leaves. -/
def State.statDone (n t : Nat) (w : Word) : State :=
  (s.statRead n t w).kciAccess fun u => (u.noteWrote (chanAddr (s.kChannel n t w) 0x034)).flagWrite (chanAddr (s.kChannel n t w) 0x034)
    (((s.kPaid n t).chanRead (s.kChannel n t w) 0x034).1 &&& s.g n t (kA w))

theorem chanAddr_CMP_STATUS (k : Nat) : chanAddr k 0x034 = CMP_STATUS k := (CMP_STATUS_eq k).symm

theorem State.statRow : regRow (chanAddr (s.kChannel n t w) 0x034) =
    some ⟨0x1000034, [(24, 0x100000), (16, 0x400)], 0x0, 0x0, 0xfff, 0x0, 0x0⟩ := regRow_CMP_STATUS (s.kChannel_lt n t w)

theorem State.wroteNow_kPaid (s : State) (n t a : Nat) : (s.kPaid n t).wroteNow a = s.wroteNow a := rfl

theorem State.kEffect_chstat (ho : 4 * kWoff w = 0x034) (hw : s.wroteNow (CMP_STATUS (s.kChannel n t w)) = false) :
    (s.kPaid n t).kEffect n t w .chstat = (s.statDone n t w, .next) := by
  have hrow := s.statRow (n := n) (t := t) (w := w)
  have hfree : (s.statRead n t w).wroteNow (chanAddr (s.kChannel n t w) 0x034) = false := by
    rw [State.statRead, State.wroteNow_setG, State.wroteNow_chanRead _ (rcMask_of_row hrow rfl), State.wroteNow_kPaid, chanAddr_CMP_STATUS, hw]
  simp only [State.kEffect, State.kChstat, State.kChannel_kPaid, ho, State.g_kPaid]
  rw [if_pos (chanAssigned_of_row hrow)]
  refine congrArg (·, KEnd.next) (if_neg ?_)
  rw [← State.statRead, hfree]
  exact Bool.false_ne_true

theorem State.statRead_shows :
    s.sameTick (s.statRead n t w) ∧ (∀ a, a ≠ G n t (kD w) → (s.statRead n t w).reg a = s.reg a) ∧
      (s.statRead n t w).g n t (kD w) = s.beforeTick (CMP_STATUS (s.kChannel n t w)) (s.reg (CMP_STATUS (s.kChannel n t w))) := by
  have hrow := s.statRow (n := n) (t := t) (w := w)
  obtain ⟨htick, hregs, -⟩ := (s.kPaid n t).chanRead_plain (rcMask_of_row hrow rfl)
  refine ⟨State.sameTick_setG (State.sameTick_of_kPaid htick) n t _ _, fun a ha => ?_, ?_⟩
  · rw [State.statRead, State.reg_setG_ne _ n t _ _ ha, State.reg, hregs]
    exact s.reg_kPaid n t a
  · refine (State.g_setG_self _ n t _ _).trans ?_
    rw [State.chanRead_word _ (woMask_of_row hrow rfl), chanAddr_CMP_STATUS, CMP_STATUS_eq]
    rfl

theorem State.statDone_frame (ht : t < 16) : KciFrame n t [kD w] s (s.statDone n t w) := by
  have hrow := s.statRow (n := n) (t := t) (w := w)
  have hfar := chanAddr_far (n := n) (k := s.kChannel n t w) (o := 0x034) ht (by decide)
  have hread : KciFrame n t [kD w] s (s.statRead n t w) :=
    ((s.kPaid n t).chanRead_frame (s.kPaid_frame n t _) ht (by decide)).setG _ (by simp)
  obtain ⟨-, hother, hmt⟩ := (s.statRead n t w).kciAccess_flagWrite
    (((s.kPaid n t).chanRead (s.kChannel n t w) 0x034).1 &&& s.g n t (kA w)) hrow
  exact hread.trans ⟨hmt, hother _ hfar.status.symm, hother _ hfar.thStatus.symm, hother _ hfar.pc.symm, fun i hi _ => hother _ (hfar.g i hi).symm⟩

theorem State.statDone_shows (ht : t < 16) (hd : kD w < 16) :
    let a := CMP_STATUS (s.kChannel n t w)
    let v := s.beforeTick a (s.reg a)
    (s.statDone n t w).g n t (kD w) = v ∧
      (s.statDone n t w).reg a = s.reg a &&& ~~~ (v &&& s.g n t (kA w) &&& 0xFFF#32 &&& ~~~ s.inTick.keptBits a) ∧
      (s.statDone n t w).thSt n t = s.thSt n t := by
  intro a v
  have hrow := s.statRow (n := n) (t := t) (w := w)
  have hfar := chanAddr_far (n := n) (k := s.kChannel n t w) (o := 0x034) ht (by decide)
  obtain ⟨htick, hregs, hg⟩ := s.statRead_shows (n := n) (t := t) (w := w)
  obtain ⟨hself, hother, -⟩ := (s.statRead n t w).kciAccess_flagWrite
    (((s.kPaid n t).chanRead (s.kChannel n t w) 0x034).1 &&& s.g n t (kA w)) hrow
  have hread : ((s.kPaid n t).chanRead (s.kChannel n t w) 0x034).1 = v := (State.g_setG_self _ n t _ _).symm.trans hg
  refine ⟨(hother _ (hfar.g _ hd).symm).trans hg, ?_, ?_⟩
  · have haddr : chanAddr (s.kChannel n t w) 0x034 = a := chanAddr_CMP_STATUS _
    have hne : a ≠ G n t (kD w) := haddr ▸ hfar.g _ hd
    have hdone : (s.statDone n t w).reg _ = _ := hself
    rw [hread, haddr, hregs a hne, State.inTick_keptBits_sameTick htick] at hdone
    exact hdone
  · rw [State.thSt, State.fld, State.statDone, hother _ (chanAddr_ne_TH_FLAGS ht (by decide)), hregs _ (by unfold TH_FLAGS G; omega)]
    rfl

end

end Sys2Proof.Machine
end

section
/-!
PROOFS. A write to a channel leaves the machine time and the registers of the clusters above the channels (R24), and but for the counts of CH_STATUS
the status that tells a refusal (R48, R53).
-/

namespace Sys2Proof.Machine

open Reg

/-! ### The registers that a write to a channel leaves -/

/-- A register of a cluster above its channels: of its weir, its engine or its threads (R24). -/
def aboveChannels (a : Nat) : Prop := 0x1000000 ≤ a ∧ 0x4000 ≤ a % 0x100000

/-- One of those, or CH_STATUS of a channel. -/
def besideWrites (a : Nat) : Prop := aboveChannels a ∨ ∃ k, a = CH_STATUS k

theorem not_aboveChannels {a : Nat} (h : a % 0x100000 < 0x4000) : ¬ aboveChannels a := fun ha => absurd ha.2 (by omega)

theorem not_besideWrites {a : Nat} (h : a % 0x100000 < 0x4000) (h' : a % 0x400 ≠ 4) : ¬ besideWrites a := by
  rintro (ha | ⟨k, rfl⟩)
  · exact not_aboveChannels h ha
  · unfold CH_STATUS at h'
    omega

theorem besidePins_of_besideWrites (a : Nat) (h : besideWrites a) : besidePins a := by
  rcases h with ⟨ha, -⟩ | ⟨k, rfl⟩
  · exact .inr (by omega)
  · exact .inr (by unfold CH_STATUS; omega)

/-- What keeps CH_STATUS too keeps the registers above the channels. -/
theorem KeepsWords.above {s t : State} (h : KeepsWords besideWrites s t) : KeepsWords aboveChannels s t := h.mono fun _ => .inl

/-! ### The registers of a channel that writes change -/

section
variable (k : Nat)

theorem CH_CTRL_open : ¬ besideWrites (CH_CTRL k) := not_besideWrites (by unfold CH_CTRL; omega) (by unfold CH_CTRL; omega)
theorem PRESCALE_open : ¬ besideWrites (PRESCALE k) := not_besideWrites (by unfold PRESCALE; omega) (by unfold PRESCALE; omega)
theorem PERIOD_open : ¬ besideWrites (PERIOD k) := not_besideWrites (by unfold PERIOD; omega) (by unfold PERIOD; omega)
theorem PERIOD_ACT_open : ¬ besideWrites (PERIOD_ACT k) := not_besideWrites (by unfold PERIOD_ACT; omega) (by unfold PERIOD_ACT; omega)
theorem CMP_open {x : Nat} (hx : x < 4) : ¬ besideWrites (CMP k x) := not_besideWrites (by unfold CMP; omega) (by unfold CMP; omega)
theorem CMP_ACT_open {x : Nat} (hx : x < 4) : ¬ besideWrites (CMP_ACT k x) := not_besideWrites (by unfold CMP_ACT; omega) (by unfold CMP_ACT; omega)
theorem CMP_CFG_open : ¬ besideWrites (CMP_CFG k) := not_besideWrites (by unfold CMP_CFG; omega) (by unfold CMP_CFG; omega)
theorem CMP_STATUS_open : ¬ besideWrites (CMP_STATUS k) := not_besideWrites (by unfold CMP_STATUS; omega) (by unfold CMP_STATUS; omega)
theorem OUT_CTRL_open : ¬ besideWrites (OUT_CTRL k) := not_besideWrites (by unfold OUT_CTRL; omega) (by unfold OUT_CTRL; omega)
theorem OUT_FINE_open : ¬ besideWrites (OUT_FINE k) := not_besideWrites (by unfold OUT_FINE; omega) (by unfold OUT_FINE; omega)
theorem OUT_STATUS_open : ¬ besideWrites (OUT_STATUS k) := not_besideWrites (by unfold OUT_STATUS; omega) (by unfold OUT_STATUS; omega)
theorem PT_CMD_open : ¬ besideWrites (PT_CMD k) := not_besideWrites (by unfold PT_CMD; omega) (by unfold PT_CMD; omega)
theorem PT_EMIT_open : ¬ besideWrites (PT_EMIT k) := not_besideWrites (by unfold PT_EMIT; omega) (by unfold PT_EMIT; omega)
theorem PT_STATUS_open : ¬ besideWrites (PT_STATUS k) := not_besideWrites (by unfold PT_STATUS; omega) (by unfold PT_STATUS; omega)
theorem CAP_CTRL_open : ¬ besideWrites (CAP_CTRL k) := not_besideWrites (by unfold CAP_CTRL; omega) (by unfold CAP_CTRL; omega)
theorem CAP_STATUS_open : ¬ besideWrites (CAP_STATUS k) := not_besideWrites (by unfold CAP_STATUS; omega) (by unfold CAP_STATUS; omega)
theorem CAP_ARM_LO_open : ¬ besideWrites (CAP_ARM_LO k) := not_besideWrites (by unfold CAP_ARM_LO; omega) (by unfold CAP_ARM_LO; omega)
theorem CAP_ARM_HI_open : ¬ besideWrites (CAP_ARM_HI k) := not_besideWrites (by unfold CAP_ARM_HI; omega) (by unfold CAP_ARM_HI; omega)
theorem DT_CFG_open : ¬ besideWrites (DT_CFG k) := not_besideWrites (by unfold DT_CFG; omega) (by unfold DT_CFG; omega)

theorem CH_STATUS_open : ¬ aboveChannels (CH_STATUS k) := not_aboveChannels (by unfold CH_STATUS; omega)
theorem COUNT_open : ¬ aboveChannels (COUNT k) := not_aboveChannels (by unfold COUNT; omega)

end

theorem State.setChan_keepsWords {K : Nat → Prop} (s : State) (k : Nat) (c : Chan) : KeepsWords K s (s.setChan k c) := .of_eq rfl rfl rfl rfl rfl

/-! ### The output and the preloads -/

section
variable (s : State) (k : Nat)

theorem State.uncount_keepsWords (counted : Bool) : KeepsWords besideWrites s (s.uncount k counted) :=
  .iteSelf ((KeepsWords.setReg s _ (PT_EMIT_open k)).trans (State.setChan_keepsWords _ k _))

theorem State.commandIdle_keepsWords : KeepsWords besideWrites s (s.commandIdle k) := by
  refine .ite (.refl s) (.trans ?_ (State.uncount_keepsWords _ k _))
  exact (s.setChan_keepsWords k _).trans (.setBit _ 1 true (OUT_STATUS_open k))

theorem State.trainEnd_keepsWords (early : Bool) : KeepsWords besideWrites s (s.trainEnd k early) := by
  have hopen := PT_STATUS_open k
  have hflags : KeepsWords besideWrites s (((s.setBit (PT_STATUS k) 0 false).raise (PT_STATUS k) 1).raiseIf early (PT_STATUS k) 2) :=
    ((KeepsWords.setBit s 0 false hopen).trans (.raise _ 1 hopen)).trans (.raiseIf _ early 2 hopen)
  exact ((hflags.trans (State.setChan_keepsWords _ k _)).trans (.deliverIf _ _ _ _ _)).trans (State.commandIdle_keepsWords _ k)

theorem State.copyMode_keepsWords : KeepsWords besideWrites s (s.copyMode k) := by
  have hmode : KeepsWords besideWrites s (s.setFld (OUT_CTRL k) 14 12 (s.fld (OUT_CTRL k) 2 0)) := .setFld s 14 12 _ (OUT_CTRL_open k)
  exact .ite ((hmode.trans (State.setChan_keepsWords _ k _)).trans (State.trainEnd_keepsWords _ k true))
    (.ite hmode (.ite (hmode.trans (State.commandIdle_keepsWords _ k)) hmode))

theorem State.copyCmpCfg_keepsWords : KeepsWords besideWrites s (s.copyCmpCfg k) := by
  refine (KeepsWords.setReg s _ (CMP_CFG_open k)).trans (.foldl (fun u x hx => ?_) _)
  exact .iteSelf (.setReg u _ (CMP_ACT_open k (lt_four_of_mem hx)))

theorem State.stopped_keepsWords : KeepsWords besideWrites s (s.stopped k) := by
  have hchan (c : Chan) : KeepsWords besideWrites s (s.setChan k c) := s.setChan_keepsWords k c
  exact .ite ((hchan _).trans (State.trainEnd_keepsWords _ k true)) (.ite ((hchan _).trans (State.commandIdle_keepsWords _ k)) (hchan _))

theorem State.copyWritten_keepsWords : KeepsWords besideWrites s (s.copyWritten k) := by
  have hperiod : KeepsWords besideWrites s (s.stopPeriod k) := .iteSelf (.setReg s _ (PERIOD_ACT_open k))
  have hpresc (u : State) : KeepsWords besideWrites u (u.stopPresc k) := .iteSelf (.setFld u 31 16 _ (PRESCALE_open k))
  have hcmp (u : State) (x : Nat) (hx : x ∈ [0, 1, 2, 3]) : KeepsWords besideWrites u (u.stopCmp k x) :=
    .iteSelf (.setReg u _ (CMP_ACT_open k (lt_four_of_mem hx)))
  have hcfg (u : State) : KeepsWords besideWrites u (u.stopCmpCfg k) := .iteSelf (u.copyCmpCfg_keepsWords k)
  have hfine (u : State) : KeepsWords besideWrites u (u.stopFine k) := .iteSelf (u.setChan_keepsWords k _)
  have hdead (u : State) : KeepsWords besideWrites u (u.stopDeadTime k) := .iteSelf (.iteSelf (u.setChan_keepsWords k _))
  have hmode (u : State) : KeepsWords besideWrites u (u.stopMode k) :=
    .iteSelf ((u.copyMode_keepsWords k).trans (.iteSelf (State.commandIdle_keepsWords _ k)))
  rw [State.copyWritten_eq]
  exact ((((hperiod.trans ((hpresc _).trans (.foldl hcmp _))).trans (hcfg _)).trans (hfine _)).trans (hdead _)).trans (hmode _)

/-! ### CH_CTRL (R48, R53) -/

theorem State.pairModeChanged_keepsWords (old : Nat) : KeepsWords besideWrites s (s.pairModeChanged k old) := by
  have hidle (u : State) (j : Nat) : KeepsWords besideWrites u (if u.outMode j = 3 then u else u.commandIdle j) :=
    .ite (.refl u) (u.commandIdle_keepsWords j)
  have hleft (u : State) : KeepsWords besideWrites u (u.pairLeft k) :=
    (((u.setChan_keepsWords (k + 1) _).trans (State.setChan_keepsWords _ k _)).trans (hidle _ k)).trans (hidle _ (k + 1))
  have hjoined (u : State) (c : Chan) (b : Bool) : KeepsWords besideWrites u ((u.setChan k c).setBit (OUT_STATUS k) 1 b) :=
    (u.setChan_keepsWords k c).trans (.setBit _ 1 b (OUT_STATUS_open k))
  have hshadow : KeepsWords besideWrites s (if s.pairMode k = 2 then s.setChan k { s.chan k with hiShadow := 0 } else s) :=
    .iteSelf (s.setChan_keepsWords k _)
  exact .ite (.refl s) (.ite (hshadow.trans (hjoined _ _ _)) (.ite (hshadow.trans (hleft _)) hshadow))

theorem State.chCtrlTaken_keepsWords (v : Word) : KeepsWords besideWrites s (s.chCtrlTaken k v) := by
  have hword : KeepsWords besideWrites s (s.setReg (CH_CTRL k) (s.chCtrlWord k v)) := .setReg s _ (CH_CTRL_open k)
  exact .ite ((hword.trans (State.pairModeChanged_keepsWords _ k _)).trans
    (.of_keepsSystem besidePins_of_besideWrites (State.refreshPins_keepsSystem _ _))) hword

/-- A write of CH_CTRL that is not refused. -/
theorem State.chCtrlWrite_keepsWords {v : Word} (h : s.chCtrlRefused k v = false) : KeepsWords besideWrites s (s.chCtrlWrite k v) := by
  have htaken := s.chCtrlTaken_keepsWords k v
  rw [State.chCtrlWrite_eq, if_neg (by rw [h]; exact Bool.false_ne_true)]
  exact .ite (htaken.trans (State.setChan_keepsWords _ k _))
    (.ite ((htaken.trans (State.stopped_keepsWords _ k)).trans (State.copyWritten_keepsWords _ k)) htaken)

theorem State.chCtrlWrite_above (v : Word) : KeepsWords aboveChannels s (s.chCtrlWrite k v) := by
  by_cases h : s.chCtrlRefused k v = true
  · rw [State.chCtrlWrite_eq, if_pos h]
    exact .raise s 7 (CH_STATUS_open k)
  · exact (s.chCtrlWrite_keepsWords k (Bool.not_eq_true _ ▸ h)).above

/-! ### The other registers of a channel -/

theorem State.prescWrite_keepsWords (v : Word) : KeepsWords besideWrites s (s.prescWrite k v) := by
  have hword : KeepsWords besideWrites s (s.setFld (PRESCALE k) 15 0 (bitsOf v 15 0)) := .setFld s 15 0 _ (PRESCALE_open k)
  exact .ite hword (hword.trans (.setFld _ 31 16 _ (PRESCALE_open k)))

theorem State.periodWrite_keepsWords (v : Word) : KeepsWords besideWrites s (s.periodWrite k v) := by
  have hword : KeepsWords besideWrites s (s.setReg (PERIOD k) v) := .setReg s _ (PERIOD_open k)
  have hact := hword.trans (.setReg _ v (PERIOD_ACT_open k))
  exact .ite hword (.ite (hact.trans (State.setChan_keepsWords _ k _)) hact)

theorem State.countWrite_above (v : Word) : KeepsWords aboveChannels s (s.countWrite k v) :=
  .ite ((KeepsWords.setReg s v (COUNT_open k)).trans (.setBit _ 2 false (CH_STATUS_open k))) (.raise s 6 (CH_STATUS_open k))

theorem State.cmpWrite_keepsWords {x : Nat} (hx : x < 4) (v : Word) : KeepsWords besideWrites s (s.cmpWrite k x v) := by
  have hword : KeepsWords besideWrites s (s.setReg (CMP k x) v) := .setReg s _ (CMP_open k hx)
  have hact := hword.trans (.setReg _ v (CMP_ACT_open k hx))
  exact .ite (.ite hact (.ite hact (.ite (hact.trans (State.setChan_keepsWords _ k _))
    (.ite (hact.trans (.raise _ _ (CMP_STATUS_open k))) hact)))) (.ite hword hact)

theorem State.cmpCfgWrite_keepsWords (v : Word) : KeepsWords besideWrites s (s.cmpCfgWrite k v) := by
  have hword : KeepsWords besideWrites s (s.setFld (CMP_CFG k) 7 0 (bitsOf v 7 0)) := .setFld s 7 0 _ (CMP_CFG_open k)
  exact .ite hword (hword.trans (State.copyCmpCfg_keepsWords _ k))

theorem State.outCtrlWrite_keepsWords (v : Word) : KeepsWords besideWrites s (s.outCtrlWrite k v) := by
  have hword : KeepsWords besideWrites s (s.setReg (OUT_CTRL k) (mergeWord (s.reg (OUT_CTRL k)) v 0x00000F07#32)) :=
    .setReg s _ (OUT_CTRL_open k)
  have hcopy (u : State) : KeepsWords besideWrites u (if u.running k then u else u.copyMode k) := .ite (.refl u) (u.copyMode_keepsWords k)
  have hidle (u : State) (c : Prop) [Decidable c] : KeepsWords besideWrites u (if c then u.commandIdle k else u) :=
    .iteSelf (u.commandIdle_keepsWords k)
  exact ((hword.trans (hcopy _)).trans (hidle _ _)).trans (hidle _ _)

theorem State.outFineWrite_keepsWords (v : Word) : KeepsWords besideWrites s (s.outFineWrite k v) := by
  have hword : KeepsWords besideWrites s (s.setReg (OUT_FINE k) (mergeWord (s.reg (OUT_FINE k)) v 0x003F3F3F#32)) :=
    .setReg s _ (OUT_FINE_open k)
  exact .ite hword (hword.trans (State.setChan_keepsWords _ k _))

theorem State.dtCfgWrite_keepsWords (v : Word) : KeepsWords besideWrites s (s.dtCfgWrite k v) := by
  unfold State.dtCfgWrite
  split
  · exact .refl s
  · have hword : KeepsWords besideWrites s (s.setReg (DT_CFG k) v) := .setReg s _ (DT_CFG_open k)
    exact .ite hword (hword.trans (State.setChan_keepsWords _ k _))

theorem State.trainBegin_keepsWords (due : Tick) (fine : Option (BitVec 6)) : KeepsWords besideWrites s (s.trainBegin k due fine) := by
  have hemit : KeepsWords besideWrites s (s.setReg (PT_EMIT k) 0) := .setReg s 0 (PT_EMIT_open k)
  have hset (c : Chan) := hemit.trans (State.setChan_keepsWords _ k c)
  exact .ite (.ite (hset _) ((hset _).trans (.setBit _ 0 true (PT_STATUS_open k))))
    ((KeepsWords.raise s 3 (PT_STATUS_open k)).trans (.deliverIf _ _ _ _ _))

theorem State.ptCtrlWrite_keepsWords (v : Word) : KeepsWords besideWrites s (s.ptCtrlWrite k v) := by
  have hstop : KeepsWords besideWrites s (if bitOf v 1 then s.trainStop k else s) := .iteSelf (.iteSelf (s.setChan_keepsWords k _))
  exact hstop.trans (.iteSelf (State.trainBegin_keepsWords _ k _ none))

theorem State.ptCmdWrite_keepsWords (v : Word) : KeepsWords besideWrites s (s.ptCmdWrite k v) :=
  .ite (.raise s 4 (PT_STATUS_open k)) (.setReg s v (PT_CMD_open k))

theorem State.capCtrlWrite_keepsWords (v : Word) : KeepsWords besideWrites s (s.capCtrlWrite k v) := by
  have hword : KeepsWords besideWrites s (s.setReg (CAP_CTRL k) (mergeWord (s.reg (CAP_CTRL k)) v 0x0000F038#32)) :=
    .setReg s _ (CAP_CTRL_open k)
  exact .ite (hword.trans (.setBit _ 0 false (CAP_STATUS_open k)))
    (.ite ((hword.trans (.setBit _ 0 true (CAP_STATUS_open k))).trans (.setPair _ _ (CAP_ARM_LO_open k) (CAP_ARM_HI_open k))) hword)

theorem State.plainWrite_above {a : Nat} (v : Word) (ha : a % 0x100000 < 0x4000) : KeepsWords aboveChannels s (s.plainWrite a v) := by
  unfold State.plainWrite
  split
  · exact .setReg s _ (not_aboveChannels ha)
  · exact .refl s

/-- A write to any register of a channel leaves the machine time and the registers above the channels. -/
theorem State.chanWrite_above {o : Nat} (ho : o < 0x400) (v : Word) : KeepsWords aboveChannels s (s.chanWrite k o v) := by
  unfold State.chanWrite
  split
  · exact s.chCtrlWrite_above k v
  · exact (s.prescWrite_keepsWords k v).above
  · exact (s.periodWrite_keepsWords k v).above
  · exact s.countWrite_above k v
  · exact .iteSelf (.of_eq rfl rfl rfl rfl rfl)
  · exact (s.cmpWrite_keepsWords k (by decide) v).above
  · exact (s.cmpWrite_keepsWords k (by decide) v).above
  · exact (s.cmpWrite_keepsWords k (by decide) v).above
  · exact (s.cmpWrite_keepsWords k (by decide) v).above
  · exact (s.cmpCfgWrite_keepsWords k v).above
  · exact (s.outCtrlWrite_keepsWords k v).above
  · exact (s.outFineWrite_keepsWords k v).above
  · exact (s.dtCfgWrite_keepsWords k v).above
  · exact (s.ptCtrlWrite_keepsWords k v).above
  · exact (s.ptCmdWrite_keepsWords k v).above
  · exact (s.capCtrlWrite_keepsWords k v).above
  · exact s.plainWrite_above v (by unfold CH_CTRL; omega)

end

end Sys2Proof.Machine
end

section
/-!
PROOFS. A CHWR (R236): the rule of the register that it names, the refusals that its status tells, and what it leaves of the thread.
-/

namespace Sys2Proof.Machine

open Reg

/-! ### The write of a channel register by its rule -/

section
variable {k o : Nat} (ho : o < 0x400)
include ho

theorem clusterOf_channel : clusterOf (chanAddr k o) = k / 16 := by
  unfold clusterOf chanAddr CH_CTRL
  omega

theorem clusterOff_channel : clusterOff (chanAddr k o) = k % 16 * 0x400 + o := by
  unfold clusterOff chanAddr CH_CTRL
  omega

theorem channel_of_clusterOff : k / 16 * 16 + (k % 16 * 0x400 + o) / 0x400 = k ∧ (k % 16 * 0x400 + o) % 0x400 = o := by omega

theorem State.busWrite_channel (s : State) (v : Word) (h4 : o % 4 = 0) (ha : chanAssigned k o = true) :
    s.busWrite (chanAddr k o) v = s.chanWrite k o v := by
  have hrow : ¬(regRow (chanAddr k o)).isNone = true := by
    intro hnone
    rw [chanAssigned, Option.isNone_iff_eq_none.1 hnone] at ha
    exact absurd ha (by decide)
  have haligned : ¬chanAddr k o % 4 ≠ 0 := by unfold chanAddr CH_CTRL; omega
  have hlow : ¬(0xB8000 ≤ chanAddr k o ∧ chanAddr k o < 0xB9000) := by unfold chanAddr CH_CTRL; omega
  have hram : ¬(0x1000000 ≤ chanAddr k o ∧ clusterOf (chanAddr k o) < 24 ∧ 0x10000 ≤ clusterOff (chanAddr k o) ∧
      clusterOff (chanAddr k o) < 0x20000) := by rw [clusterOff_channel ho]; omega
  have hcl : 0x1000000 ≤ chanAddr k o := by unfold chanAddr CH_CTRL; omega
  obtain ⟨hk, hoff⟩ := channel_of_clusterOff (k := k) ho
  rw [State.busWrite, if_neg haligned, if_neg hlow, if_neg hram, if_neg hrow, if_pos hcl, clusterOf_channel ho, clusterOff_channel ho]
  dsimp only
  rw [hk, hoff]
  exact if_pos (by omega)

/-- Only CH_CTRL, COUNT, PT_CTRL and PT_CMD of a channel can refuse a write. -/
theorem refusalFlag_channel :
    ((o ≠ 0x000 ∧ o ≠ 0x010 ∧ o ≠ 0x080 ∧ o ≠ 0x084) ∧ refusalFlag (chanAddr k o) = none) ∨
      (o = 0x000 ∧ refusalFlag (chanAddr k o) = some (CH_STATUS k, 7)) ∨
      (o = 0x010 ∧ refusalFlag (chanAddr k o) = some (CH_STATUS k, 6)) ∨
      (o = 0x080 ∧ refusalFlag (chanAddr k o) = some (PT_STATUS k, 3)) ∨
      (o = 0x084 ∧ refusalFlag (chanAddr k o) = some (PT_STATUS k, 4)) := by
  have hcl : 0x1000000 ≤ chanAddr k o := by unfold chanAddr CH_CTRL; omega
  obtain ⟨hk, hoff⟩ := channel_of_clusterOff (k := k) ho
  rw [refusalFlag, if_pos hcl, clusterOf_channel ho, clusterOff_channel ho]
  dsimp only
  rw [if_pos (by omega), hk, hoff]
  split
  · exact .inr (.inl ⟨rfl, rfl⟩)
  · exact .inr (.inr (.inl ⟨rfl, rfl⟩))
  · exact .inr (.inr (.inr (.inl ⟨rfl, rfl⟩)))
  · exact .inr (.inr (.inr (.inr ⟨rfl, rfl⟩)))
  · next hctrl hcount hpt hcmd => exact .inl ⟨⟨hctrl, hcount, hpt, hcmd⟩, rfl⟩

end

/-! ### The refusals (R53, R57, R80, R81) -/

section
variable {s : State} {k : Nat} (v : Word)

theorem State.chCtrlWrite_flag (h : s.bit (CH_STATUS k) 7 = false) : (s.chCtrlWrite k v).bit (CH_STATUS k) 7 = s.chCtrlRefused k v := by
  cases hr : s.chCtrlRefused k v with
  | true =>
    rw [State.chCtrlWrite_eq, if_pos hr]
    exact s.bit_raise_self _ (by decide)
  | false =>
    rw [State.bit, (s.chCtrlWrite_keepsWords k hr).regs _ (.inr ⟨k, rfl⟩)]
    exact h

theorem State.countWrite_flag (h : s.bit (CH_STATUS k) 6 = false) :
    (s.countWrite k v).bit (CH_STATUS k) 6 = !(!s.running k && decide (v ≤ s.reg (PERIOD_ACT k))) := by
  have hne : CH_STATUS k ≠ COUNT k := by unfold CH_STATUS COUNT; omega
  unfold State.countWrite
  cases (!s.running k && decide (v ≤ s.reg (PERIOD_ACT k))) with
  | true =>
    refine (State.bit_setBit_ne _ _ _ (by decide)).trans (.trans ?_ h)
    exact congrArg (bitOf · 6) (s.reg_setReg_ne v hne)
  | false => exact s.bit_raise_self _ (by decide)

theorem State.trainBegin_flag (h : s.bit (PT_STATUS k) 3 = false) (due : Tick) (fine : Option (BitVec 6)) :
    (s.trainBegin k due fine).bit (PT_STATUS k) 3 = !s.startOk k := by
  have hne : PT_STATUS k ≠ PT_EMIT k := by unfold PT_STATUS PT_EMIT; omega
  cases hok : s.startOk k with
  | true =>
    have hset (c : Chan) : ((s.setReg (PT_EMIT k) 0).setChan k c).bit (PT_STATUS k) 3 = false := by
      rw [State.bit_setChan, State.bit, s.reg_setReg_ne 0 hne]
      exact h
    rw [State.trainBegin_accepted hok]
    split
    · exact hset _
    · rw [State.bit_setBit_ne _ _ _ (by decide)]
      exact hset _
  | false =>
    rw [State.trainBegin_refused hok, State.bit, State.reg_chanEvent]
    exact s.bit_raise_self _ (by decide)

/-- A request to stop a train takes no register. -/
theorem State.trainStop_regs (s : State) (k : Nat) : (s.trainStop k).regs = s.regs := by
  unfold State.trainStop
  split <;> rfl

theorem State.startOk_congr {s u : State} (h : u.regs = s.regs) (k : Nat) : u.startOk k = s.startOk k := by
  have hreg (a : Nat) : u.reg a = s.reg a := by rw [State.reg, h, State.reg]
  have hmode : u.outMode k = s.outMode k := by rw [State.outMode, State.fld, hreg, State.outMode, State.fld]
  simp only [State.startOk, hmode, State.bit, State.running, State.trainActive, hreg]

theorem State.ptCtrlWrite_flag (h : s.bit (PT_STATUS k) 3 = false) :
    (s.ptCtrlWrite k v).bit (PT_STATUS k) 3 = (bitOf v 0 && !s.startOk k) := by
  have hregs : (if bitOf v 1 then s.trainStop k else s).regs = s.regs := by
    split
    · exact s.trainStop_regs k
    · rfl
  have hbit : (if bitOf v 1 then s.trainStop k else s).bit (PT_STATUS k) 3 = false := by rw [State.bit, State.reg, hregs]; exact h
  unfold State.ptCtrlWrite
  dsimp only
  cases bitOf v 0 with
  | true =>
    rw [if_pos rfl, State.trainBegin_flag hbit, State.startOk_congr hregs]
    rfl
  | false =>
    rw [if_neg Bool.false_ne_true]
    exact hbit

theorem State.ptCmdWrite_flag (h : s.bit (PT_STATUS k) 4 = false) : (s.ptCmdWrite k v).bit (PT_STATUS k) 4 = s.trainActive k := by
  have hne : PT_STATUS k ≠ PT_CMD k := by unfold PT_STATUS PT_CMD; omega
  unfold State.ptCmdWrite
  cases s.trainActive k with
  | true => exact s.bit_raise_self _ (by decide)
  | false => exact (congrArg (bitOf · 4) (s.reg_setReg_ne v hne)).trans h

end

theorem State.refuses_of_flag (s : State) {a f b : Nat} (h : refusalFlag a = some (f, b)) (v : Word) :
    s.refuses a v = (f != a && ((s.setBit f b false).busWrite a v).bit f b) := by rw [State.refuses, h]

theorem State.refuses_of_none (s : State) {a : Nat} (h : refusalFlag a = none) (v : Word) : s.refuses a v = false := by rw [State.refuses, h]

section
variable (s : State) (k : Nat) (v : Word)

theorem State.chanWrite_CH_CTRL : s.chanWrite k 0x000 v = s.chCtrlWrite k v := rfl
theorem State.chanWrite_PERIOD : s.chanWrite k 0x00C v = s.periodWrite k v := rfl
theorem State.chanWrite_COUNT : s.chanWrite k 0x010 v = s.countWrite k v := rfl
theorem State.chanWrite_PT_CTRL : s.chanWrite k 0x080 v = s.ptCtrlWrite k v := rfl
theorem State.chanWrite_PT_CMD : s.chanWrite k 0x084 v = s.ptCmdWrite k v := rfl

end

section
variable {k o : Nat} (ho : o < 0x400) (h4 : o % 4 = 0) (ha : chanAssigned k o = true)
include ho h4 ha

/-- Two states refuse a write alike when it leaves the flag alike. -/
theorem State.refuses_channel_of_flag {s u : State} {f b : Nat} (hf : refusalFlag (chanAddr k o) = some (f, b)) {v : Word}
    (h : ((u.setBit f b false).chanWrite k o v).bit f b = ((s.setBit f b false).chanWrite k o v).bit f b) :
    u.refuses (chanAddr k o) v = s.refuses (chanAddr k o) v := by
  rw [u.refuses_of_flag hf, s.refuses_of_flag hf, State.busWrite_channel ho _ v h4 ha, State.busWrite_channel ho _ v h4 ha, h]

/-- What a channel's register refuses depends on registers alone. -/
theorem State.refuses_channel_congr {s u : State} (h : u.regs = s.regs) (v : Word) :
    u.refuses (chanAddr k o) v = s.refuses (chanAddr k o) v := by
  have hclear (f b : Nat) : (u.setBit f b false).regs = (s.setBit f b false).regs := by simp only [State.setBit, State.setReg, State.reg, h]
  have hreg (f b a : Nat) : (u.setBit f b false).reg a = (s.setBit f b false).reg a := by rw [State.reg, hclear, State.reg]
  have hbit (t : State) (f b : Nat) (hb : b < 32) : (t.setBit f b false).bit f b = false := t.bit_setBit_self f b false hb
  rcases refusalFlag_channel (k := k) ho with ⟨-, hn⟩ | ⟨rfl, hf⟩ | ⟨rfl, hf⟩ | ⟨rfl, hf⟩ | ⟨rfl, hf⟩
  · rw [u.refuses_of_none hn, s.refuses_of_none hn]
  · refine State.refuses_channel_of_flag ho h4 ha hf ?_
    rw [State.chanWrite_CH_CTRL, State.chanWrite_CH_CTRL]
    refine (State.chCtrlWrite_flag v (hbit u _ _ (by decide))).trans (.trans ?_ (State.chCtrlWrite_flag v (hbit s _ _ (by decide))).symm)
    simp only [State.chCtrlRefused, State.chCtrlWord, State.pairChange, State.bit, hreg]
  · refine State.refuses_channel_of_flag ho h4 ha hf ?_
    rw [State.chanWrite_COUNT, State.chanWrite_COUNT]
    refine (State.countWrite_flag v (hbit u _ _ (by decide))).trans (.trans ?_ (State.countWrite_flag v (hbit s _ _ (by decide))).symm)
    simp only [State.running, State.bit, hreg]
  · refine State.refuses_channel_of_flag ho h4 ha hf ?_
    rw [State.chanWrite_PT_CTRL, State.chanWrite_PT_CTRL]
    refine (State.ptCtrlWrite_flag v (hbit u _ _ (by decide))).trans (.trans ?_ (State.ptCtrlWrite_flag v (hbit s _ _ (by decide))).symm)
    rw [State.startOk_congr (hclear _ _)]
  · refine State.refuses_channel_of_flag ho h4 ha hf ?_
    rw [State.chanWrite_PT_CMD, State.chanWrite_PT_CMD]
    refine (State.ptCmdWrite_flag v (hbit u _ _ (by decide))).trans (.trans ?_ (State.ptCmdWrite_flag v (hbit s _ _ (by decide))).symm)
    simp only [State.trainActive, State.bit, hreg]

end

end Sys2Proof.Machine
end

section
/-!
PROOFS. What a CHWR leaves (R236, R407), and the instructions that reach the devices.
-/

namespace Sys2Proof.Machine

open Reg

/-! ### CHWR (R236) -/

theorem State.regs_kPaid (s : State) (n t : Nat) : (s.kPaid n t).regs = s.regs := rfl

section
variable {n t : Nat} {ds : List Nat} {r s u : State}

/-- What keeps the registers above the channels keeps the thread. -/
theorem KciFrame.of_above (ht : t < 16) (h : KciFrame n t ds r s) (hmt : u.mt = s.mt) (hregs : ∀ a, aboveChannels a → u.reg a = s.reg a) :
    KciFrame n t ds r u := by
  refine h.trans ⟨hmt, hregs _ ⟨?_, ?_⟩, hregs _ ⟨?_, ?_⟩, hregs _ ⟨?_, ?_⟩, fun i hi _ => hregs _ ⟨?_, ?_⟩⟩
  · unfold CL_STATUS; omega
  · unfold CL_STATUS; omega
  · unfold TH_STATUS; omega
  · unfold TH_STATUS; omega
  · unfold TH_PC; omega
  · unfold TH_PC; omega
  · unfold G; omega
  · unfold G; omega

end

/-- A write of a channel's register by a thread, before its status. -/
def State.threadAccess (s : State) (a : Nat) (v : Word) : State := s.kciAccess fun s => (s.noteWrote a).busWrite a v

/-- The register takes its write of the tick in the window of the access. -/
def State.inWrite (s : State) (a : Nat) : State := s.inTick.noteWrote a

theorem State.threadAccess_shows (s : State) (a : Nat) (v : Word) :
    (s.threadAccess a v).mt = ((s.inWrite a).busWrite a v).mt ∧ ∀ b, (s.threadAccess a v).reg b = ((s.inWrite a).busWrite a v).reg b :=
  ⟨rfl, fun _ => rfl⟩

theorem State.inWrite_shows (s : State) (a : Nat) : (s.inWrite a).mt = s.mt ∧ ∀ b, (s.inWrite a).reg b = s.reg b := ⟨rfl, fun _ => rfl⟩

theorem State.threadWrite_eq (s : State) (n t a : Nat) (v : Word) :
    s.threadWrite n t a v = (s.threadAccess a v).setSt n t (if s.refuses a v then 0xC else 0x0) := rfl

theorem State.thSt_threadWrite (s : State) (n t a : Nat) (v : Word) :
    (s.threadWrite n t a v).thSt n t = if s.refuses a v = true then 0xC else 0 := by
  rw [State.threadWrite_eq]
  exact State.thSt_setSt _ n t (by split <;> decide)

section
variable (s : State) {k o : Nat} (ho : o < 0x400) (h4 : o % 4 = 0) (ha : chanAssigned k o = true) (v : Word)
include ho h4 ha

/-- The write acts by the rule of its register. -/
theorem State.threadAccess_channel :
    (s.threadAccess (chanAddr k o) v).mt = ((s.inWrite (chanAddr k o)).chanWrite k o v).mt ∧
      ∀ b, (s.threadAccess (chanAddr k o) v).reg b = ((s.inWrite (chanAddr k o)).chanWrite k o v).reg b := by
  rw [← State.busWrite_channel ho _ v h4 ha]
  exact s.threadAccess_shows _ v

theorem State.threadWrite_frame {n t : Nat} {ds : List Nat} {r : State} (ht : t < 16) (h : KciFrame n t ds r s) :
    KciFrame n t ds r (s.threadWrite n t (chanAddr k o) v) := by
  have hkeeps := (s.inWrite (chanAddr k o)).chanWrite_above k ho v
  obtain ⟨hmt, hregs⟩ := s.threadAccess_channel ho h4 ha v
  obtain ⟨hmt', hregs'⟩ := s.inWrite_shows (chanAddr k o)
  rw [State.threadWrite_eq]
  exact (h.of_above ht (hmt.trans (hkeeps.mt.trans hmt')) fun a hab => (hregs a).trans ((hkeeps.regs a hab).trans (hregs' a))).setSt _

/-- A register of a channel after the write. -/
theorem State.reg_threadWrite {n t b : Nat} (hb : b ≠ TH_FLAGS n t) :
    (s.threadWrite n t (chanAddr k o) v).reg b = ((s.inWrite (chanAddr k o)).chanWrite k o v).reg b := by
  rw [State.threadWrite_eq, State.reg_setSt_ne _ n t _ hb]
  exact (s.threadAccess_channel ho h4 ha v).2 b

end

theorem State.reg_periodWrite (s : State) (k : Nat) (v : Word) : (s.periodWrite k v).reg (PERIOD k) = v := by
  have hne : PERIOD k ≠ PERIOD_ACT k := by unfold PERIOD PERIOD_ACT; omega
  have hself : (s.setReg (PERIOD k) v).reg (PERIOD k) = v := s.reg_setReg_self _ v
  have hact : ((s.setReg (PERIOD k) v).setReg (PERIOD_ACT k) v).reg (PERIOD k) = v := (State.reg_setReg_ne _ v hne).trans hself
  unfold State.periodWrite
  dsimp only
  split
  · exact hself
  · split
    · rw [State.beginRun, State.reg_setChan]
      exact hact
    · exact hact

/-- The count of a running channel refuses (R57). -/
theorem State.countWrite_running {s : State} {k : Nat} (h : s.running k = true) (v : Word) :
    s.countWrite k v = s.raise (CH_STATUS k) 6 := by
  rw [State.countWrite, h]
  rfl

theorem State.reg_raise_ne (s : State) {a b : Nat} (i : Nat) (h : b ≠ a) : (s.raise a i).reg b = s.reg b := s.reg_setReg_ne _ h

theorem State.running_setBit (s : State) {k f : Nat} (i : Nat) (b : Bool) (hf : CH_CTRL k ≠ f) (hf' : PERIOD_ACT k ≠ f) :
    (s.setBit f i b).running k = s.running k := by
  rw [State.running, State.bit, s.reg_setBit_ne i b hf, s.reg_setBit_ne i b hf', State.running, State.bit]

theorem State.running_congr {s u : State} (h : ∀ a, u.reg a = s.reg a) (k : Nat) : u.running k = s.running k := by
  simp only [State.running, State.bit, h]

section
variable (s : State) {n : Fin 24} {t : Nat} {w : Word}

theorem State.kEffect_chwr_unassigned (h : chanAssigned (s.kChannel n t w) (4 * kWoff w) = false) :
    (s.kPaid n t).kEffect n t w .chwr = ((s.kPaid n t).setSt n t 0xB, .next) := by
  simp only [State.kEffect, State.kChwr, State.kChannel_kPaid]
  exact if_pos (by rw [h]; rfl)

/-- The thread's write waits for a later tick. -/
def State.chwrWaits (s : State) (n t a : Nat) (v : Word) : State := { s.kPaid n t with later := s.later ++ [.thread n t a v] }

theorem State.chwrWaits_frame (n t a : Nat) (v : Word) : KciFrame n t [] s (s.chwrWaits n t a v) :=
  (s.kPaid_frame n t []).same rfl fun _ => rfl

variable (ha : chanAssigned (s.kChannel n t w) (4 * kWoff w) = true)
include ha

theorem State.kEffect_chwr_waits (hw : s.wroteNow (chanAddr (s.kChannel n t w) (4 * kWoff w)) = true) :
    (s.kPaid n t).kEffect n t w .chwr =
      (s.chwrWaits n t (chanAddr (s.kChannel n t w) (4 * kWoff w)) (s.g n t (kA w)), .next) := by
  simp only [State.kEffect, State.kChwr, State.kChannel_kPaid, State.g_kPaid]
  rw [if_neg (by rw [ha]; decide)]
  exact if_pos ((s.wroteNow_kPaid n t _).trans hw)

theorem State.kEffect_chwr_writes (hw : s.wroteNow (chanAddr (s.kChannel n t w) (4 * kWoff w)) = false) :
    (s.kPaid n t).kEffect n t w .chwr =
      ((s.kPaid n t).threadWrite n t (chanAddr (s.kChannel n t w) (4 * kWoff w)) (s.g n t (kA w)), .next) := by
  simp only [State.kEffect, State.kChwr, State.kChannel_kPaid, State.g_kPaid]
  rw [if_neg (by rw [ha]; decide)]
  exact if_neg (by rw [State.wroteNow_kPaid, hw]; exact Bool.false_ne_true)

end

theorem kWoff_aligned (w : Word) : 4 * kWoff w % 4 = 0 := by omega

theorem kOffset_lt_block (w : Word) : 4 * kWoff w < 0x400 := Nat.lt_trans (kOffset_lt w) (by decide)

/-- The end of an instruction writes no register of a channel. -/
theorem channel_notMem_endRegs {n t k o : Nat} (ht : t < 16) (ho : o < 0x400) : chanAddr k o ∉ endRegs n t := by
  simp only [endRegs, List.mem_cons, List.not_mem_nil, or_false, not_or]
  unfold chanAddr CH_CTRL CL_BUSY TH_RUN TH_PC
  omega

end Sys2Proof.Machine

namespace Sys2Proof.Proofs

open Sys2Proof.Machine Sys2Proof.Machine.Reg

/-! ### Channels -/

section
variable (n : Fin 24) (t : Nat) (w : Word) (s : State)

theorem kChrd_reads (hr : s.kciRuns n t w .chrd) (ha : chanAssigned (s.kChannel n t w) (4 * kWoff w) = true) :
    ∃ u, exec (.kChrd n) s = .next u ∧ s.kciEnds u n t (s.thPc n t + 4) ∧
      u.g n t (kD w) = s.beforeTick (chanAddr (s.kChannel n t w) (4 * kWoff w)) (s.chanLive (s.kChannel n t w) (4 * kWoff w)) &&&
        ~~~ woMask (chanAddr (s.kChannel n t w) (4 * kWoff w)) ∧
      s.keepsG u n t [kD w] ∧ u.reg (TH_FLAGS n t) = s.reg (TH_FLAGS n t) := by
  have ht := State.thread_lt_of_runs hr
  obtain ⟨u, hx, hends, hg, hk⟩ := exec_kci_next4 (i := .kChrd n) rfl hr rfl (s.kEffect_chrd n t w ha) (s.chrdDone_frame n w ht)
  exact ⟨u, hx, hends, (hk.g _).trans (s.g_chrdDone n t w), hg, hk.flags.trans (s.flags_chrdDone n w ht)⟩

theorem kChan_unassigned (p : (Fin 24 → Instr) × Kci) (hp : p ∈ [(Instr.kChrd, Kci.chrd), (Instr.kChstat, Kci.chstat)])
    (hr : s.kciRuns n t w p.2) (ha : chanAssigned (s.kChannel n t w) (4 * kWoff w) = false) :
    ∃ u, exec (p.1 n) s = .next u ∧ s.kciEnds u n t (s.thPc n t + 4) ∧ u.g n t (kD w) = 0 ∧ u.thSt n t = 0xB ∧ s.keepsG u n t [kD w] := by
  obtain ⟨hx, hext, ho⟩ : exec (p.1 n) s = .next (s.kci n p.2) ∧ p.2.takesExt w = false ∧ (p.2 = .chrd ∨ p.2 = .chstat) := by
    simp only [List.mem_cons, List.not_mem_nil, or_false] at hp
    rcases hp with rfl | rfl
    · exact ⟨rfl, rfl, .inl rfl⟩
    · exact ⟨rfl, rfl, .inr rfl⟩
  obtain ⟨u, hu, hends, hg, hk⟩ := exec_kci_next4 hx hr hext (s.kEffect_chan_unassigned n t w ho ha)
    (((s.kPaid_frame n t [kD w]).setG 0 (by simp)).setSt 0xB)
  exact ⟨u, hu, hends, (hk.g _).trans ((State.g_setSt _ n t _ _).trans (State.g_setG_self _ n t _ _)),
    hk.thSt.trans (State.thSt_setSt _ n t (by decide)), hg⟩

theorem kChwr_unassigned (hr : s.kciRuns n t w .chwr) (ha : chanAssigned (s.kChannel n t w) (4 * kWoff w) = false) :
    ∃ u, exec (.kChwr n) s = .next u ∧ s.kciEnds u n t (s.thPc n t + 4) ∧ u.thSt n t = 0xB ∧ s.keepsG u n t [] ∧ u.chans = s.chans := by
  obtain ⟨u, hx, hends, hg, hk⟩ := exec_kci_next4 (i := .kChwr n) rfl hr rfl (s.kEffect_chwr_unassigned ha)
    ((s.kPaid_frame n t []).setSt 0xB)
  refine ⟨u, hx, hends, hk.thSt.trans (State.thSt_setSt _ n t (by decide)), hg, ?_⟩
  rw [hk.frame, State.setSt, State.setRw_frame]
  rfl

/-- A CHWR that commits, with what it leaves to a state. -/
theorem kChwr_commits (hr : s.kciRuns n t w .chwr) (ha : chanAssigned (s.kChannel n t w) (4 * kWoff w) = true)
    (hw : s.wroteNow (chanAddr (s.kChannel n t w) (4 * kWoff w)) = false) :
    ∃ u, exec (.kChwr n) s = .next u ∧ s.kciEnds u n t (s.thPc n t + 4) ∧ s.keepsG u n t [] ∧
      u.thSt n t = (if s.refuses (chanAddr (s.kChannel n t w) (4 * kWoff w)) (s.g n t (kA w)) = true then 0xC else 0) ∧
      ∀ j o : Nat, o < 0x400 → u.reg (chanAddr j o) = (((s.kPaid n t).inWrite (chanAddr (s.kChannel n t w) (4 * kWoff w))).chanWrite
        (s.kChannel n t w) (4 * kWoff w) (s.g n t (kA w))).reg (chanAddr j o) := by
  have ht := State.thread_lt_of_runs hr
  have ho := kOffset_lt_block w
  have h4 := kWoff_aligned w
  obtain ⟨u, hx, hends, hg, hk⟩ := exec_kci_next4 (i := .kChwr n) rfl hr rfl (s.kEffect_chwr_writes ha hw)
    ((s.kPaid n t).threadWrite_frame ho h4 ha _ ht (s.kPaid_frame n t []))
  refine ⟨u, hx, hends, hg, ?_, fun j o ho' => ?_⟩
  · rw [hk.thSt, State.thSt_threadWrite, State.refuses_channel_congr (u := s.kPaid n t) ho h4 ha (s.regs_kPaid n t)]
  · rw [hk.regs _ (channel_notMem_endRegs ht ho'), State.reg_threadWrite _ ho h4 ha _ (chanAddr_ne_TH_FLAGS ht ho').symm]

theorem kChwr_writes (hr : s.kciRuns n t w .chwr) (ha : chanAssigned (s.kChannel n t w) (4 * kWoff w) = true) :
    let a := chanAddr (s.kChannel n t w) (4 * kWoff w)
    (s.wroteNow a = false →
      ∃ u, exec (.kChwr n) s = .next u ∧ s.kciEnds u n t (s.thPc n t + 4) ∧ s.keepsG u n t [] ∧
        u.thSt n t = (if s.refuses a (s.g n t (kA w)) = true then 0xC else 0)) ∧
    (s.wroteNow a = true →
      ∃ u, exec (.kChwr n) s = .next u ∧ s.kciEnds u n t (s.thPc n t + 4) ∧ s.keepsG u n t [] ∧
        u.later = s.later ++ [.thread n t a (s.g n t (kA w))]) := by
  intro a
  refine ⟨fun hw => ?_, fun hw => ?_⟩
  · obtain ⟨u, hx, hends, hg, hst, -⟩ := kChwr_commits n t w s hr ha hw
    exact ⟨u, hx, hends, hg, hst⟩
  · obtain ⟨u, hx, hends, hg, hk⟩ := exec_kci_next4 (i := .kChwr n) rfl hr rfl (s.kEffect_chwr_waits ha hw) (s.chwrWaits_frame n t _ _)
    refine ⟨u, hx, hends, hg, ?_⟩
    rw [hk.frame]
    rfl

theorem chanAddr_PERIOD (k : Nat) : chanAddr k 0x00C = PERIOD k := by unfold chanAddr CH_CTRL PERIOD; omega

theorem chanAddr_COUNT (k : Nat) : chanAddr k 0x010 = COUNT k := (COUNT_eq k).symm

theorem chanAddr_CH_STATUS (k : Nat) : chanAddr k 0x004 = CH_STATUS k := (CH_STATUS_eq k).symm

theorem kChwr_PERIOD (hr : s.kciRuns n t w .chwr) (ho : 4 * kWoff w = 0x00C) (hw : s.wroteNow (PERIOD (s.kChannel n t w)) = false) :
    ∃ u, exec (.kChwr n) s = .next u ∧ s.kciEnds u n t (s.thPc n t + 4) ∧ u.thSt n t = 0 ∧ s.keepsG u n t [] ∧
      u.reg (PERIOD (s.kChannel n t w)) = s.g n t (kA w) := by
  have ha := chanAssigned_of_row (regRow_PERIOD (s.kChannel_lt n t w))
  have hcommits := kChwr_commits n t w s hr
  rw [ho, chanAddr_PERIOD] at hcommits
  obtain ⟨u, hx, hends, hg, hst, hregs⟩ := hcommits ha hw
  have hnone : refusalFlag (PERIOD (s.kChannel n t w)) = none := by
    rw [← chanAddr_PERIOD]
    rcases refusalFlag_channel (k := s.kChannel n t w) (o := 0x00C) (by decide) with ⟨-, h⟩ | ⟨h, -⟩ | ⟨h, -⟩ | ⟨h, -⟩ | ⟨h, -⟩
    · exact h
    all_goals exact absurd h (by decide)
  refine ⟨u, hx, hends, ?_, hg, ?_⟩
  · rw [hst, s.refuses_of_none hnone]
    exact if_neg Bool.false_ne_true
  · have hreg := hregs (s.kChannel n t w) 0x00C (by decide)
    rw [chanAddr_PERIOD, State.chanWrite_PERIOD, State.reg_periodWrite] at hreg
    exact hreg

theorem kChwr_COUNT (hr : s.kciRuns n t w .chwr) (ho : 4 * kWoff w = 0x010) (hw : s.wroteNow (COUNT (s.kChannel n t w)) = false)
    (hrun : s.running (s.kChannel n t w) = true) :
    ∃ u, exec (.kChwr n) s = .next u ∧ s.kciEnds u n t (s.thPc n t + 4) ∧ u.thSt n t = 0xC ∧
      u.reg (COUNT (s.kChannel n t w)) = s.reg (COUNT (s.kChannel n t w)) ∧ u.bit (CH_STATUS (s.kChannel n t w)) 6 = true := by
  have ha := chanAssigned_of_row (regRow_COUNT (s.kChannel_lt n t w))
  have hcommits := kChwr_commits n t w s hr
  rw [ho, chanAddr_COUNT] at hcommits
  obtain ⟨u, hx, hends, -, hst, hregs⟩ := hcommits ha hw
  have hne : CH_STATUS (s.kChannel n t w) ≠ COUNT (s.kChannel n t w) := by unfold CH_STATUS COUNT; omega
  have hflag : refusalFlag (COUNT (s.kChannel n t w)) = some (CH_STATUS (s.kChannel n t w), 6) := by
    rw [← chanAddr_COUNT]
    rcases refusalFlag_channel (k := s.kChannel n t w) (o := 0x010) (by decide) with ⟨h, -⟩ | ⟨h, -⟩ | ⟨-, h⟩ | ⟨h, -⟩ | ⟨h, -⟩
    · exact absurd rfl h.2.1
    · exact absurd h (by decide)
    · exact h
    · exact absurd h (by decide)
    · exact absurd h (by decide)
  have hrefuses (v : Word) : s.refuses (COUNT (s.kChannel n t w)) v = true := by
    rw [s.refuses_of_flag hflag, ← chanAddr_COUNT, State.busWrite_channel (by decide) _ v (by decide) ha, State.chanWrite_COUNT,
      State.countWrite_running]
    · rw [State.bit_raise_self _ _ (by decide), chanAddr_COUNT, bne_iff_ne.2 hne]
      rfl
    · rw [State.running_setBit _ _ _ (by unfold CH_STATUS CH_CTRL; omega) (by unfold CH_STATUS PERIOD_ACT; omega)]
      exact hrun
  have hread (b : Nat) : ((s.kPaid n t).inWrite (COUNT (s.kChannel n t w))).reg b = s.reg b :=
    ((s.kPaid n t).inWrite_shows _).2 b |>.trans (s.reg_kPaid n t b)
  have hpaid : ((s.kPaid n t).inWrite (COUNT (s.kChannel n t w))).running (s.kChannel n t w) = true := (State.running_congr hread _).trans hrun
  refine ⟨u, hx, hends, ?_, ?_, ?_⟩
  · rw [hst, hrefuses, if_pos rfl]
  · have hreg := hregs (s.kChannel n t w) 0x010 (by decide)
    rw [chanAddr_COUNT, State.chanWrite_COUNT, State.countWrite_running hpaid, State.reg_raise_ne _ _ hne.symm] at hreg
    exact hreg.trans (hread _)
  · have hreg := hregs (s.kChannel n t w) 0x004 (by decide)
    rw [chanAddr_CH_STATUS, State.chanWrite_COUNT, State.countWrite_running hpaid] at hreg
    rw [State.bit, hreg]
    exact State.bit_raise_self _ _ (by decide)

end

/-! ### Pairs, captures and flags -/

section
variable (n : Fin 24) (t : Nat) (w : Word) (s : State)

theorem kChrd64_pair (hr : s.kciRuns n t w .chrd64) (hsub : kSub w = 1) (heven : s.kChannel n t w % 2 = 0) :
    ∃ u, exec (.kChrd64 n) s = .next u ∧ s.kciEnds u n t (s.thPc n t + 4) ∧ u.g n t (kD w) = s.reg (COUNT (s.kChannel n t w)) ∧
      u.g n t (kD w + 1) = s.reg (COUNT (s.kChannel n t w + 1)) ∧ u.thSt n t = 0 ∧ s.keepsG u n t [kD w, kD w + 1] := by
  obtain ⟨u, hx, hends, hg, hk⟩ := exec_kci_next4 (i := .kChrd64 n) rfl hr rfl (s.kEffect_chrd64_pair n t w hsub heven) (s.pairRead_frame n t w)
  obtain ⟨hlow, hhigh, hst⟩ := s.pairRead_shows n t w
  exact ⟨u, hx, hends, (hk.g _).trans hlow, (hk.g _).trans hhigh, hk.thSt.trans hst, hg⟩

theorem kChrd64_odd (hr : s.kciRuns n t w .chrd64) (hsub : kSub w = 1) (hodd : s.kChannel n t w % 2 = 1) :
    ∃ u, exec (.kChrd64 n) s = .next u ∧ s.kciEnds u n t (s.thPc n t + 4) ∧ u.thSt n t = 0xB ∧ s.keepsG u n t [] := by
  obtain ⟨u, hx, hends, hg, hk⟩ := exec_kci_next4 (i := .kChrd64 n) rfl hr rfl (s.kEffect_chrd64_odd n t w hsub hodd)
    ((s.kPaid_frame n t []).setSt 0xB)
  exact ⟨u, hx, hends, hk.thSt.trans (State.thSt_setSt _ n t (by decide)), hg⟩

theorem kChrd64_rise (hr : s.kciRuns n t w .chrd64) (hsub : kSub w = 0) (ho : 4 * kWoff w = 0x128) :
    ∃ u, exec (.kChrd64 n) s = .next u ∧ s.kciEnds u n t (s.thPc n t + 4) ∧ u.thSt n t = 0 ∧
      u.g n t (kD w) = s.beforeTick (CAP_RISE_LO (s.kChannel n t w)) (loWord (s.chan (s.kChannel n t w)).capRise) ∧
      u.g n t (kD w + 1) = s.beforeTick (CAP_RISE_HI (s.kChannel n t w)) (hiWord (s.chan (s.kChannel n t w)).capRise) := by
  obtain ⟨u, hx, hends, -, hk⟩ := exec_kci_next4 (i := .kChrd64 n) rfl hr rfl (s.kEffect_chrd64_rise hsub ho)
    (s.capRead_frame (State.thread_lt_of_runs hr))
  obtain ⟨hst, hlow, hhigh⟩ := s.capRead_shows (n := n) (t := t) (w := w)
  exact ⟨u, hx, hends, hk.thSt.trans hst, (hk.g _).trans hlow, (hk.g _).trans hhigh⟩

theorem kChstat_clears (hr : s.kciRuns n t w .chstat) (ho : 4 * kWoff w = 0x034)
    (hw : s.wroteNow (CMP_STATUS (s.kChannel n t w)) = false) :
    let a := CMP_STATUS (s.kChannel n t w)
    let v := s.beforeTick a (s.reg a)
    ∃ u, exec (.kChstat n) s = .next u ∧ s.kciEnds u n t (s.thPc n t + 4) ∧ u.g n t (kD w) = v ∧
      u.reg a = s.reg a &&& ~~~ (v &&& s.g n t (kA w) &&& 0xFFF#32 &&& ~~~ s.inTick.keptBits a) ∧ u.thSt n t = s.thSt n t := by
  intro a v
  have ht := State.thread_lt_of_runs hr
  obtain ⟨u, hx, hends, -, hk⟩ := exec_kci_next4 (i := .kChstat n) rfl hr rfl (s.kEffect_chstat ho hw) (s.statDone_frame ht)
  obtain ⟨hg, hflags, hst⟩ := s.statDone_shows (n := n) (w := w) ht (bitsOf_lt w 24 21)
  have hmem : chanAddr (s.kChannel n t w) 0x034 ∉ endRegs n t := channel_notMem_endRegs ht (by decide)
  rw [chanAddr_CMP_STATUS] at hmem
  exact ⟨u, hx, hends, (hk.g _).trans hg, (hk.regs a hmem).trans hflags, hk.thSt.trans hst⟩

end

/-! ### Shafts, accumulators, trackers and identification -/

section
variable (n : Fin 24) (t : Nat) (w : Word) (s : State)

theorem kShrd_beyond (hr : s.kciRuns n t w .shrd) (h : s.fld ID_CLUSTER 31 24 ≤ s.kShaft n t w) :
    ∃ u, exec (.kShrd n) s = .next u ∧ s.kciEnds u n t (s.thPc n t + 4) ∧ u.thSt n t = 4 ∧ s.keepsG u n t [] := by
  obtain ⟨u, hx, hends, hg, hk⟩ := exec_kci_next4 (i := .kShrd n) rfl hr rfl (s.kEffect_shrd_beyond n t w h) ((s.kPaid_frame n t []).setSt 0x4)
  exact ⟨u, hx, hends, hk.thSt.trans (State.thSt_setSt _ n t (by decide)), hg⟩

theorem kShrd_reads (hr : s.kciRuns n t w .shrd) (h : s.kShaft n t w < s.fld ID_CLUSTER 31 24) :
    ∃ u, exec (.kShrd n) s = .next u ∧ s.kciEnds u n t (s.thPc n t + 4) ∧ u.thSt n t = 0 ∧
      (kFnI w = 0 → u.gPair n t (kD w) = s.shPos (s.kShaft n t w)) ∧
      (kFnI w = 1 → u.gPair n t (kD w) = bvInt 64 (s.shMotion (s.kShaft n t w)).1) ∧
      (kFnI w = 2 → u.gPair n t (kD w) = bvInt 64 (s.shMotion (s.kShaft n t w)).2.1) ∧
      (kFnI w = 3 → u.g n t (kD w) = s.snapInfo (s.kShaft n t w)) ∧
      (kFnI w = 5 → u.g n t (kD w) = s.reg (PRED_PERIOD (s.kShaft n t w))) ∧
      u.thStamp n t = (if w.getLsbD 5 = true then s.now else s.thStamp n t) := by
  obtain ⟨u, hx, hends, -, hk⟩ := exec_kci_next4 (i := .kShrd n) rfl hr rfl (s.kEffect_shrd n t w h) (s.shrdDone_frame n t w)
  have hpair := (hk.gPair (kD w)).trans (s.gPair_shrdDone n t w _)
  have hone := (hk.g (kD w)).trans (s.g_shrdDone n t w _)
  obtain ⟨hpos, hspeed, haccel, hinfo, hperiod⟩ := (s.kPaid n t).shaftWords_shows n t (kD w) (s.kShaft_lt n t w)
  refine ⟨u, hx, hends, hk.thSt.trans (s.thSt_shrdDone n t w), ?_, ?_, ?_, ?_, ?_, hk.thStamp.trans (s.thStamp_shrdDone n t w)⟩
  · intro hfn
    rw [hfn] at hpair
    exact hpair.trans hpos
  · intro hfn
    rw [hfn] at hpair
    exact hpair.trans hspeed
  · intro hfn
    rw [hfn] at hpair
    exact hpair.trans haccel
  · intro hfn
    rw [hfn] at hone
    exact hone.trans hinfo
  · intro hfn
    rw [hfn] at hone
    exact hone.trans (hperiod.trans (s.reg_kPaid n t _))

theorem kAnalog_beyond (p : (Fin 24 → Instr) × Kci) (hp : p ∈ [(Instr.kAccrd, Kci.accrd), (Instr.kMmrd, Kci.mmrd)])
    (hr : s.kciRuns n t w p.2) (h : (if p.2 = .accrd then s.fld ID_ANALOG 15 8 else s.fld ID_ANALOG 7 0) ≤ s.kIndex n t w (kA w)) :
    ∃ u, exec (p.1 n) s = .next u ∧ s.kciEnds u n t (s.thPc n t + 4) ∧ u.thSt n t = 0xB ∧ s.keepsG u n t [] ∧ u.adc = s.adc := by
  obtain ⟨hx, hext, ho⟩ : exec (p.1 n) s = .next (s.kci n p.2) ∧ p.2.takesExt w = false ∧ (p.2 = .accrd ∨ p.2 = .mmrd) := by
    simp only [List.mem_cons, List.not_mem_nil, or_false] at hp
    rcases hp with rfl | rfl
    · exact ⟨rfl, rfl, .inl rfl⟩
    · exact ⟨rfl, rfl, .inr rfl⟩
  obtain ⟨u, hu, hends, hg, hk⟩ := exec_kci_next4 hx hr hext (s.kEffect_beyond_analog n t w ho h) ((s.kPaid_frame n t []).setSt 0xB)
  refine ⟨u, hu, hends, hk.thSt.trans (State.thSt_setSt _ n t (by decide)), hg, ?_⟩
  have hadc : u.adc = ((s.kPaid n t).setSt n t 0xB).adc := by rw [hk.frame]
  exact hadc.trans (State.adc_setSt _ n t _)

theorem kAccrd_reads (hr : s.kciRuns n t w .accrd) (h : s.kIndex n t w (kA w) < s.fld ID_ANALOG 15 8) :
    let k := s.kIndex n t w (kA w)
    let own := fun t => t == s.mt
    ∃ u, exec (.kAccrd n) s = .next u ∧ s.kciEnds u n t (s.thPc n t + 4) ∧ u.thSt n t = 0 ∧
      u.g n t (kD w) = (s.accSeen k own).1.truncate 32 ∧
      (u.g n t (kD w + 1)).toNat = (s.accSeen k own).2.toNat * 256 + (s.accSeen k own).1.toNat / 2 ^ 32 ∧
      (w.getLsbD 12 = false → u.accValue k = s.accValue k) ∧
      (w.getLsbD 12 = true → s.accWindow k own = [] → u.accValue k = (0, 0)) ∧ s.keepsG u n t [kD w, kD w + 1] := by
  intro k own
  obtain ⟨u, hx, hends, hg, hk⟩ := exec_kci_next4 (i := .kAccrd n) rfl hr rfl (s.kEffect_accrd n t w h) (s.accrdDone_frame n t w)
  obtain ⟨hst, hlow, hhigh⟩ := s.accrdDone_shows n t w
  obtain ⟨hplain, hclear⟩ := s.accValue_accrdDone n t w
  have hvalue : u.accValue k = (s.accrdDone n t w).accValue k := by
    have hlt : k < 64 := s.kIndex_lt n t w _
    have hadc : u.adc = (s.accrdDone n t w).adc := by rw [hk.frame]
    rw [State.accValue, State.accum, hadc, State.accLength, State.fld, hk.below (by unfold ACC_CFG; omega)]
    rfl
  refine ⟨u, hx, hends, hk.thSt.trans hst, (hk.g _).trans hlow, ?_, fun hw => hvalue.trans (hplain hw),
    fun hw hwin => hvalue.trans (hclear hw hwin), hg⟩
  rw [hk.g, hhigh]
  exact accHigh_toNat _

theorem kMmrd_reads (hr : s.kciRuns n t w .mmrd) (h : s.kIndex n t w (kA w) < s.fld ID_ANALOG 7 0) :
    let k := s.kIndex n t w (kA w)
    let own := fun t => t == s.mt
    ∃ u, exec (.kMmrd n) s = .next u ∧ s.kciEnds u n t (s.thPc n t + 4) ∧ u.thSt n t = 0 ∧ u.g n t (kD w) = s.mmSeen k own ∧
      u.reg (MM_RD k) = (if w.getLsbD 12 = true then (s.mmWindow k own).foldl (fun w h => mmWith w h.r) 0x0000FFFF#32
        else s.reg (MM_RD k)) ∧ s.keepsG u n t [kD w] := by
  intro k own
  obtain ⟨u, hx, hends, hg, hk⟩ := exec_kci_next4 (i := .kMmrd n) rfl hr rfl (s.kEffect_mmrd n t w h) (s.mmrdDone_frame n t w)
  obtain ⟨hst, hword, htracker⟩ := s.mmrdDone_shows n t w
  have hlt : k < 64 := s.kIndex_lt n t w _
  exact ⟨u, hx, hends, hk.thSt.trans hst, (hk.g _).trans hword, (hk.below (by unfold MM_RD; omega)).trans htracker, hg⟩

theorem kSysrd_reads (hr : s.kciRuns n t w .sysrd) :
    ∃ u, exec (.kSysrd n) s = .next u ∧ s.kciEnds u n t (s.thPc n t + 4) ∧ s.keepsG u n t [kD w] ∧
      u.reg (TH_FLAGS n t) = s.reg (TH_FLAGS n t) ∧
      (kFnI w = 1 → (u.g n t (kD w)).toNat = n * 256 + t) ∧
      (kFnI w = 0 → kImm w = 0 → u.g n t (kD w) = s.beforeTick ID_PART (s.reg ID_PART)) := by
  obtain ⟨u, hx, hends, hg, hk⟩ := exec_kci_next4 (i := .kSysrd n) rfl hr rfl (s.kEffect_sysrd n t w)
    ((s.kPaid_frame n t [kD w]).setG (s.sysrdWord n t w) (by simp))
  obtain ⟨hid, hpart⟩ := s.sysrdWord_shows n t w n.isLt (State.thread_lt_of_runs hr)
  have hword : u.g n t (kD w) = s.sysrdWord n t w := (hk.g _).trans (State.g_setG_self _ n t _ _)
  refine ⟨u, hx, hends, hg, hk.flags.trans ((State.flags_setG _ n t _ _).trans (s.reg_kPaid n t _)), ?_, ?_⟩
  · rw [hword]
    exact hid
  · rw [hword]
    exact hpart

end

/-- Settles O40: each instruction by what it reads; a CHWR by the rule of its register, which leaves the registers above the channels. -/
theorem kciReadsAndWritesItsDevices : Obligations.KciReadsAndWritesItsDevices := by
  unfold Obligations.KciReadsAndWritesItsDevices
  exact ⟨kChrd_reads, kChan_unassigned, kChwr_unassigned, kChwr_writes, kChwr_PERIOD, kChwr_COUNT, kChrd64_pair, kChrd64_odd, kChrd64_rise,
    kChstat_clears, kShrd_beyond, kShrd_reads, kAnalog_beyond, kAccrd_reads, kMmrd_reads, kSysrd_reads⟩

end Sys2Proof.Proofs
end
